-- ==== Sys2Proof/Word.lean ====
section
/-! DEFINITION. The word and byte types of the hub and the reading and writing of bit fields.

Registers are 32 bits wide (R7); bit 0 is the least significant (Notation, spec/00_scope.md). -/

namespace Sys2Proof

/-- A register or record word, 32 bits (R7). -/
abbrev Word := BitVec 32

/-- A byte of a memory. -/
abbrev Byte := BitVec 8

/-- The word holding `n` modulo 2^32. -/
def w32 (n : Nat) : Word := BitVec.ofNat 32 n

/-- `width` bits of `w` from bit `lo` up, as a number. -/
def bits (w : Word) (lo width : Nat) : Nat := (w.toNat >>> lo) % 2 ^ width

/-- Bit `i` of `w`. -/
def bit (w : Word) (i : Nat) : Bool := bits w i 1 == 1

/-- `w` with the `width` bits from `lo` up replaced by `v`. -/
def setBits (w : Word) (lo width v : Nat) : Word :=
  w32 (w.toNat - bits w lo width <<< lo + (v % 2 ^ width) <<< lo)

/-- `v` placed at bit `lo`, to be summed into a word. -/
def at_ (lo v : Nat) : Nat := v <<< lo

/-- 1 for true, 0 for false. -/
def b2n (b : Bool) : Nat := b.toNat

/-- A 32-bit counter that saturates at 0xFFFF_FFFF (R21). -/
def satInc (w : Word) : Word := if w = 0xFFFFFFFF#32 then w else w + 1#32

/-- `n` capped at `m`. -/
def capAt (m n : Nat) : Nat := if n ≤ m then n else m

/-- The two's complement word of an integer. -/
def wOfInt (i : Int) : Word := BitVec.ofInt 32 i

end Sys2Proof
end

