-- ==== Sys2Proof/Types.lean ====
section
/-! DEFINITION. The plain data that commands carry and the state holds: times, agents, frames and messages. -/

namespace Sys2Proof

/-- A fabric time as the hub stores and compares it: seconds[31:0] and nanoseconds (R54, R55). -/
structure TimePoint where
  sec : BitVec 32
  ns : Nat
deriving DecidableEq, Repr

/-- The on-time edge of a pulse of a PPS source: whether it rises, and its stamp (R71, R391). -/
structure PpsEdge where
  rising : Bool
  time : TimePoint
deriving DecidableEq, Repr

/-- Who issues an access: the steward, an application core, the host, a fabric requester or a DMA channel
(R27, R303). -/
inductive Agent where
  | steward
  | core (n : Fin 4)
  | host
  | fabric (node : BitVec 16)
  | dma (c : Fin 8)
deriving DecidableEq, Repr

/-- How a received frame ended (R249, R255): its FCS good, wrong, the complement of the right one, or a fragment
sequence that breaks the reassembly rules (R250). -/
inductive FcsEnd where
  | good
  | bad
  | stomped
  | broken
deriving DecidableEq, Repr

/-- A frame on a link: its bytes from the destination address to the last byte before the FCS, and how it ended (R230). -/
structure WireFrame where
  bytes : List Byte
  fcs : FcsEnd
deriving DecidableEq, Repr

/-- A message on PLK (R337): kind, flag byte, sequence, sender, fault bits, the two words of bytes 8–15, the command vector
(bit k for line k), and its CRC. -/
structure PlkMsg where
  kind : BitVec 8
  flags : BitVec 8
  seq : BitVec 16
  node : BitVec 16
  faults : BitVec 16
  w8 : Word
  w12 : Word
  vec : BitVec 256
  crc : Word
deriving DecidableEq, Repr

/-- What SECDED finds when a memory is read: no error, or an error at a word address with its syndrome (R446). -/
inductive ReadEcc where
  | clean
  | corrected (addr syndrome : Word)
  | uncorrectable (addr syndrome : Word)
deriving DecidableEq, Repr

/-- What takes a fabric port out of CHECKING or UP (R228), causes 1–6. -/
inductive LinkDown where
  | signal
  | blockLock
  | hiBer
  | localFault
  | remoteFault
  | degraded
deriving DecidableEq, Repr

/-- A down condition of a fabric port (R228), with what had come of a frame that it cuts short (R249). -/
structure DownEvent where
  cause : LinkDown
  cut : Option (List Byte)
deriving DecidableEq, Repr

/-- What takes PLK out of UP besides a silent partner (R336): loss of signal, loss of alignment, too many bad messages. -/
inductive PlkDown where
  | signal
  | alignment
  | errors
deriving DecidableEq, Repr

/-- What an IRIG-B decoder finds in a frame (R390): its 100 bits, bit n for element n of the frame; whether a width or an
identifier fails. -/
inductive IrigEnd where
  | good
  | width
  | identifier
deriving DecidableEq, Repr

/-- What is wrong with a received UART character (R381), statuses 0x01–0x04; MAX_LEN is counted by the hub. -/
inductive UartFault where
  | fine
  | parity
  | framing
  | brk
  | gap
deriving DecidableEq, Repr

/-- What a requester asks of XBR (R306, R332): a write becomes a WRITE or a POSTED_WRITE by REQ_CFG.WR_POSTED. -/
inductive ReqKind where
  | read
  | write
  | fetchAdd32
  | fetchAdd64
  | cas32
  | cas64
  | message
deriving DecidableEq, Repr

/-- A request at a requester (R303, R306): its code, destination node, node-local address, length, data as the payload of R308 carries
it (a write's bytes in address order; an atomic's operands and a MESSAGE's word most significant byte first, R6) and a MESSAGE's
vector. -/
structure XReq where
  code : Nat
  dst : BitVec 16
  kind : ReqKind
  addr : BitVec 48
  len : Nat
  data : List Byte
  vector : Byte
deriving DecidableEq, Repr

/-- What a host completion for a read of the hub brings (R416): its data, or an error. -/
inductive HostCpl where
  | data (bytes : List Byte)
  | failed
deriving DecidableEq, Repr

/-- What resets the host function (R402). -/
inductive HostReset where
  | dlDown
  | perst
  | hot
  | flr
deriving DecidableEq, Repr

/-- A configuration request of the host (R393, R394, R410): a read, or a write of Bus Master Enable, the power state, or the MSI-X
enable and function mask. -/
inductive HostConfig where
  | read
  | busMaster (on : Bool)
  | power (d3 : Bool)
  | msix (enable mask : Bool)
deriving DecidableEq, Repr

/-- A BAR of the host function (R395). -/
inductive HostBar where
  | bar0
  | bar2
  | bar4
deriving DecidableEq, Repr

/-- A frame on a CAN bus (R374): its ID word as word 0 of an RX packet gives it, BRS, ESI, DLC and data bytes. -/
structure CanFrame where
  id : Word
  brs : Bool
  esi : Bool
  dlc : BitVec 4
  data : List Byte
deriving DecidableEq, Repr

/-- A CAN error (LAST_ERR.CODE). -/
inductive CanErr where
  | stuff
  | form
  | ack
  | bit1
  | bit0
  | crc
deriving DecidableEq, Repr

/-- What VDDIO of a bank does against its check window (R125). -/
inductive BankLevel where
  | inside
  | low
  | high
deriving DecidableEq, Repr

/-- What wakes the node from DORMANT (R503). -/
inductive WakeSource where
  | line (k : Fin 256)
  | pin
  | alarm
  | power
deriving DecidableEq, Repr

/-- What the background scrubber reads (R446): the entry of a drill target or a reflex rule, the steward's SRAM, or a memory of a
block's page. -/
inductive ScrubMem where
  | drill (n : Fin 4096)
  | rule (n : Fin 1024)
  | steward
  | page (p : Fin 256) (mem : Fin 16)
deriving DecidableEq, Repr

/-- A write that an agent issues to a register: to the node-local map (R24), or to MWINCTL or MWINBASE (`base`) of window w of a core,
0 the steward (R441). -/
inductive RegTarget where
  | bus (a : Agent) (addr : BitVec 48) (data : List Byte)
  | window (n : Fin 5) (w : Fin 8) (base : Bool) (v : Word)
deriving DecidableEq, Repr

/-- A report under the 1 ms spacing of R22: the QUAL_FAIL of a page's check, or another gathered report of the hub. -/
inductive Spaced where
  | check (page : Fin 256) (id : BitVec 16)
  | other (key : Nat)
deriving DecidableEq, Repr

end Sys2Proof
end

