-- ==== Sys2Proof/Syntax.lean ====
section
/-! DEFINITION. The commands of the hub: one constructor per row of the opcode table, in the table's order.

Accesses carry who makes them (`a`) and what is written (`v`); a mailbox command carries its ARG (`arg`). Events carry what happened and
what was measured: a page, a line `k`, a channel `c`, a tile `t`, a port, a window or an entry `n`; `d` is how many nanoseconds a line's
transition lies before the TCLK edge whose count stands, and how many an engine cycle, a start event or a rule's evaluation lies after it;
`ecc` is what SECDED found in the memory read. -/

namespace Sys2Proof

/-- The commands: a register access, a mailbox command, a bus or line event, or an expiry. -/
inductive Instr where
  -- Common to all pages
  /-- REGISTER_WRITE (R9): A write to a register field that has no row of its own stores the value as its access code states.
  -/
  | registerWrite (t : RegTarget)
  /-- MBX_NOP (R539): An accepted MBX_CMD with OP 0x00 completes with VALID and has no effect. -/
  | mbxNop (a : Agent) (page : Fin 256)
  /-- MBX_UNKNOWN_OP (R539): An accepted MBX_CMD whose non-zero OP is not in the block's table completes with ERROR and
  ERR_CODE 0xFF. -/
  | mbxUnknownOp (a : Agent) (page : Fin 256) (op : Byte) (arg : BitVec 16)
  /-- MBX_WRITE_WHILE_BUSY (R34): A write to MBX_CMD or MBX_D0-MBX_D3 while BUSY = 1 is ignored and sets COLLIDE. -/
  | mbxWriteWhileBusy (a : Agent) (page : Fin 256) (n : Fin 5) (v : Word)
  /-- MBX_COMPLETE (R33): A mailbox command finishes: the result words are written in one step, BUSY clears, and VALID or
  ERROR is set. -/
  | mbxComplete (page : Fin 256)
  /-- IND_ADDR_WRITE (R36): A write of IND_ADDR sets the indirect address and AUTOINC and clears IND_ERR. -/
  | indAddrWrite (a : Agent) (page : Fin 256) (v : Word)
  /-- IND_DATA_READ (R35): A read of IND_DATA requests the indirect word at ADDR from its domain. -/
  | indDataRead (a : Agent) (page : Fin 256)
  /-- IND_DATA_WRITE (R35): A write of IND_DATA stores the word at ADDR in its domain, then advances ADDR if AUTOINC = 1. -/
  | indDataWrite (a : Agent) (page : Fin 256) (v : Word)
  /-- IND_ACCESS_COMPLETE (R35): The indirect word arrives from its domain; the access completes and ADDR advances if AUTOINC
  = 1. -/
  | indAccessComplete (page : Fin 256)
  /-- IND_TIMEOUT (R36): An indirect access with no answer after 10 µs sets IND_ERR and completes with TARGET_ABORT, without
  advancing. -/
  | indTimeout (a : Agent) (page : Fin 256)
  /-- SOFT_RESET (R31): CTRL.SOFT_RESET returns the block's datapath, FIFOs, counters, IRQ_PEND, mailbox and indirect address
  to reset within 1 µs. -/
  | softReset (a : Agent) (page : Fin 256)
  /-- FREEZE_WRITE (R38): A write of CTRL.FREEZE holds hardware updates of the page's RO state, or applies the held updates in
  one step when it returns to 0. -/
  | freezeWrite (a : Agent) (page : Fin 256) (on : Bool)
  /-- ENABLE_WRITE (R30): A write of CTRL.EN enables or disables the block, with the effect stated by that block. -/
  | enableWrite (a : Agent) (page : Fin 256) (on : Bool)
  /-- IRQ_PEND_WRITE (R39): A write of IRQ_PEND stores the value, and an edge in the same cycle is ORed in after it. -/
  | irqPendWrite (a : Agent) (page : Fin 256) (v : Word) (edges : Word)
  /-- COUNTER_CLEAR (R21): A write of 1 to a page's CNT_CLR.CLR returns that page's qualification and statistics counters to
  0. -/
  | counterClear (a : Agent) (page : Fin 256)
  /-- QUAL_FAIL_REPOST (R22): When 1 ms has passed since a check's last QUAL_FAIL and failures have been gathered since, one
  QUAL_FAIL standing for them all is posted. -/
  | qualFailRepost (r : Spaced)
  -- Fabric time
  /-- READ_TIME (R53): TIME mailbox READ_TIME returns all fields of the time counter taken at one TCLK edge. -/
  | readTime (_a : Agent)
  /-- ADJ_PHASE (R60): TIME mailbox ADJ_PHASE accepts a correction within the step limit for slewing, or refuses it. -/
  | adjPhase (a : Agent)
  /-- ADJ_RATE (R50): TIME mailbox ADJ_RATE writes TIME.RATE, used from the increment of the TCLK edge at which the command
  executes. -/
  | adjRate (a : Agent)
  /-- STEP_FORCE (R63): TIME mailbox STEP_FORCE applies the held refused correction as a single step and posts STEP_FORCED. -/
  | stepForce
  /-- SET_TIME (R63): TIME mailbox SET_TIME loads absolute seconds and nanoseconds at the next TCLK edge as a forced step. -/
  | setTime
  /-- SET_STATE (R57): TIME mailbox SET_STATE changes the quality state and source, if R57 allows the change, and loads U. -/
  | setState (a : Agent) (arg : BitVec 16)
  /-- SLEW_STEP (R60): Every 2^SLEW_DIV TCLK edges, a pending slew moves the counter by 1 ns towards the correction. -/
  | slewStep
  /-- UNC_GROWTH_TICK (R58): Every millisecond in HOLDOVER, TIME.UNC_GROWTH is added to U. -/
  | uncGrowthTick
  -- PTP, PPS and IRIG-B
  /-- SYNC_RECEIVE (R70): A Sync from the chosen master is used for one servo update, or fails qualification and is counted in
  PTP.CNT_BAD. -/
  | syncReceive
  /-- ANNOUNCE_RECEIVE (R69): An Announce message is received and the best master clock algorithm is run over it. -/
  | announceReceive
  /-- ANNOUNCE_RECEIPT_TIMEOUT (R70): An announce receipt timeout expires; after three in a row the PTP source is lost and
  SOURCE_LOST is posted. -/
  | announceReceiptTimeout
  /-- SYNC_TIMEOUT (R70): No valid Sync arrives for four sync intervals; the PTP source is lost and SOURCE_LOST is posted. -/
  | syncTimeout
  /-- SYNC_SEND (R67): A grandmaster or boundary clock sends Sync or Announce as a dual-sent class-6 express frame to group
  0xFFFF. -/
  | syncSend (announce : Bool)
  /-- PDELAY_REQ_SEND (R67): Once per second each port sends a link-local Pdelay_Req to its neighbour. -/
  | pdelayReqSend
  /-- PDELAY_REQ_RECEIVE (R67): A Pdelay_Req from the neighbour is answered with Pdelay_Resp and Pdelay_Resp_Follow_Up. -/
  | pdelayReqReceive
  /-- PDELAY_RESP_RECEIVE (R67): A Pdelay response completes an exchange, and PTP.PDELAYn is updated as the mean of the last
  16 exchanges; `count` of the responses that wait at the port are taken. -/
  | pdelayRespReceive (port : Fin 4) (count : Nat)
  /-- PPS_PULSE (R71): A pulse on PPS_IN (64) or a PPS channel, its on-time edge rising or falling, is stamped and qualified, and yields a
  correction. -/
  | ppsPulse (src : Fin 65) (edge : PpsEdge) (width : Nat)
  /-- PPS_SOURCE_LOST (R71): Three missing or failing pulses in a row mean the PPS source is lost; SOURCE_LOST is posted. -/
  | ppsSourceLost (src : Fin 65)
  /-- IRIG_FRAME (R72): An IRIG-B frame is decoded, its on-time point stamped, and it is used once two consecutive frames are
  good. -/
  | irigFrame (c : Fin 64) (b : BitVec 100) (t : TimePoint) (result : IrigEnd)
  /-- IRIG_SOURCE_LOST (R72): After 3 s without a usable IRIG-B frame the source is lost and SOURCE_LOST is posted from CH. -/
  | irigSourceLost (c : Fin 64)
  -- Line edges and stamps
  /-- LINE_TRANSITION (R77): A raw transition of a line starts its glitch filter and its TDC. -/
  | lineTransition (k : Fin 256) (d : Fin 40)
  /-- EDGE_QUALIFIED (R77): The glitch filter expires with the line at its new level; the edge is qualified, stamped and
  delivered to the operands and the channel function. -/
  | edgeQualified (k : Fin 256)
  /-- STAMP_TRANSFER (R88): The tile moves the oldest queued stamp from a line cell into its stamp buffer. -/
  | stampTransfer (t : Fin 8)
  /-- STAMP_DATA_READ (R90): A read of TILE.STAMP_DATA returns the next word of the oldest record, or 0xFFFF_FFFF and sets
  STAMP_UNDERRUN when the buffer is empty. -/
  | stampDataRead (t : Fin 8)
  /-- STAMP_CFG_WRITE (R542): A write of STAMP_CFG takes effect only while the buffer is empty and no loss marker is pending.
  -/
  | stampCfgWrite (t : Fin 8) (v : Word)
  /-- STAMP_UNDERRUN_CLEAR (R90): A write of 1 to TILE.CNT_CLR.UNDER_CLR clears STATUS.STAMP_UNDERRUN. -/
  | stampUnderrunClear (t : Fin 8)
  -- Windows
  /-- LOAD_TIMES (R99): WIN mailbox LOAD_TIMES loads OPEN, LENGTH and PERIOD of a disarmed window. -/
  | loadTimes (arg : BitVec 16)
  /-- LOAD_CTRL (R99): WIN mailbox LOAD_CTRL loads the control word, OFFSET and trigger word of a disarmed window. -/
  | loadCtrl (arg : BitVec 16)
  /-- WIN_ARM (R99): WIN mailbox ARM checks the window as a whole and arms it. -/
  | winArm (arg : BitVec 16)
  /-- WIN_DISARM (R99): WIN mailbox DISARM disarms a window, clearing its state bit at once. -/
  | winDisarm (arg : BitVec 16)
  /-- READ_TIMES (R99): WIN mailbox READ_TIMES returns the window's loaded times. -/
  | readTimes (arg : BitVec 16)
  /-- READ_CTRL (R99): WIN mailbox READ_CTRL returns the window's control and trigger words and its ARMED bit. -/
  | readCtrl (arg : BitVec 16)
  /-- TRIGGER (R99): WIN mailbox TRIGGER acts as an open-a-window action at the current time. -/
  | trigger (arg : BitVec 16)
  /-- WINDOW_STATE_CHANGE (R93): The counter enters or leaves an armed window's current instance, and its state bit changes at
  that TCLK edge. -/
  | windowStateChange (w : Fin 256)
  /-- WINDOW_CLASSIFY (R94): Once the counter passes t + SETTLE, a subject edge is classified against the current instance. -/
  | windowClassify (k : Nat)
  -- Drill launch
  /-- DRL_LOAD_TIME (R110): DRL mailbox LOAD_TIME loads the launch time, PERIOD and COUNT of an entry that is not ARMED. -/
  | drlLoadTime (arg : BitVec 16)
  /-- DRL_LOAD_ACTION (R110): DRL mailbox LOAD_ACTION loads the action word and parameters of an entry that is not ARMED. -/
  | drlLoadAction (arg : BitVec 16)
  /-- DRL_ARM (R106): DRL mailbox ARM fixes the first target of a LOADED or DONE entry and makes it ARMED, judging lateness.
  -/
  | drlArm (arg : BitVec 16) (ecc : ReadEcc)
  /-- DRL_DISARM (R108): DRL mailbox DISARM moves an ARMED entry to DONE, cancelling later launches. -/
  | drlDisarm (arg : BitVec 16)
  /-- DRL_READ_TIME (R110): DRL mailbox READ_TIME returns the entry's loaded time, PERIOD and COUNT. -/
  | drlReadTime (arg : BitVec 16) (ecc : ReadEcc)
  /-- DRL_READ_ACTION (R110): DRL mailbox READ_ACTION returns the entry's action word and parameters. -/
  | drlReadAction (arg : BitVec 16) (ecc : ReadEcc)
  /-- DRL_READ_STATE (R110): DRL mailbox READ_STATE returns the entry's next target, the repetitions remaining and its state.
  -/
  | drlReadState (arg : BitVec 16) (ecc : ReadEcc)
  /-- DRL_CLEAR (R105): DRL mailbox CLEAR returns a LOADED, DONE or EMPTY entry to EMPTY. -/
  | drlClear (arg : BitVec 16)
  /-- DRILL_PREPARE (R113): 1 µs before a target, the launcher prepares the launch and starts the tile's fast clock if it is
  needed. -/
  | drillPrepare (n : Fin 4096) (ecc : ReadEcc)
  /-- DRILL_FIRE (R114): At the target, or `lateNs` nanoseconds after it, the launcher fires the entry's action and consumes the
  repetition; `lateRun` says that it is a repetition to be run late. -/
  | drillFire (n : Fin 4096) (lateNs : Nat) (lateRun : Bool) (ecc : ReadEcc)
  /-- PULSE_END (R103): A pulse's width ends and the latch returns to the line's base level as it stands. -/
  | pulseEnd (k : Fin 256) (inLatch : Bool) (inCommand : Bool)
  -- Tiles, lines, channels and counters
  /-- VDDIO_WINDOW_CHANGE (R125): VDDIOt leaves or re-enters its check window, starting the timing of the bank check. -/
  | vddioWindowChange (t : Fin 8) (v : BankLevel)
  /-- BANK_CHECK_FAIL (R125): VDDIOt has stayed outside its window for 10 µs; the tile's line cells stop qualifying
  transitions and check 0x0002 fails. -/
  | bankCheckFail (t : Fin 8)
  /-- BANK_CHECK_CLEAR (R125): VDDIOt has been inside its window for 1 ms; the check clears and lines whose level differs
  deliver one edge. -/
  | bankCheckClear (t : Fin 8)
  /-- BANK_CFG_WRITE (R125): A write of BANK_CFG.VSEL applies the new window from the write, and VSEL = 3 counts the bank as
  inside. -/
  | bankCfgWrite (t : Fin 8) (v : Word)
  /-- TILE_CLOCK_LOCK (R495): A tile's oscillator locks, and tile logic is clocked from then on. -/
  | tileClockLock (t : Fin 8)
  /-- TILE_CLOCK_LOCK_TIMEOUT (R495): A tile clock not locked within 1 µs is stopped and restarted, and check 0x0C06 fails. -/
  | tileClockLockTimeout (t : Fin 8)
  /-- TILE_CLOCK_STOP (R127): No start condition has held for IDLE_STOP µs, so the tile's fast clock stops. -/
  | tileClockStop (t : Fin 8)
  /-- FUNC_WRITE (R130): A write of CH.FUNC selects the channel function while EN = 0, or is ignored and may set CAN_CONFLICT.
  -/
  | funcWrite (c : Fin 64) (v : Word)
  /-- OUT_SET (R132): OUT_SET sets the base level of the named output latches to 1, subject to the lease on PROTECTED lines.
  -/
  | outSet (c : Fin 64) (v : Word)
  /-- OUT_CLR (R132): OUT_CLR sets the base level of the named output latches to 0, subject to the lease on PROTECTED lines.
  -/
  | outClr (c : Fin 64) (v : Word)
  /-- SAFE_ENTER (R140): SAFE_CMD.ENTER puts the named lines into their safe state. -/
  | safeEnter (c : Fin 64) (v : Word)
  /-- SAFE_RELEASE (R140): SAFE_CMD.RELEASE releases the named lines from their safe state and clears RB_FAULT. -/
  | safeRelease (c : Fin 64) (v : Word)
  /-- MAX_WIDTH_EXPIRY (R134): A line has been at ACTIVE_LEVEL for longer than MAX_WIDTH, so the stuck check fails. -/
  | maxWidthExpiry (k : Fin 256)
  /-- IDLE_EXPIRY (R134): A line has had no qualified edge for IDLE ms, so the IDLE check fails. -/
  | idleExpiry (k : Fin 256)
  /-- LEAK_TICK (R135): A drain tick removes 1 from a line's bucket; at 0 the ticks stop and any chatter block ends. -/
  | leakTick (k : Fin 256)
  /-- READBACK_MISMATCH (R137): The pin has differed from the driven level for RB_TIME; the mismatch is reported, RB_FAULT
  set, and RB_SAFE applied. -/
  | readbackMismatch (k : Fin 256)
  /-- CTR_CAPTURE (R142): CTR_CMD.CAPTURE records the counter state into CTR_CAP and, if enabled, into the RX FIFO. -/
  | ctrCapture (c : Fin 64)
  /-- CTR_ZERO (R142): CTR_CMD.ZERO sets CTR_COUNT to 0. -/
  | ctrZero (c : Fin 64)
  /-- PERIODIC_CAPTURE (R142): The counter reaches a multiple of CAP_PERIOD ms, and a capture is made. -/
  | periodicCapture (c : Fin 64)
  -- FIFOs
  /-- RX_DATA_READ (R151): A read of RX_DATA of a channel or CAN controller returns the next readable word, or underruns when
  AVAIL = 0. -/
  | rxDataRead (u : Fin 80)
  /-- RX_DROP_REST (R149): RX_CMD.DROP_REST discards the remainder of the current RX packet. -/
  | rxDropRest (u : Fin 80)
  /-- RX_FLUSH (R150): RX_CMD.FLUSH discards every RX packet and clears UNDERRUN. -/
  | rxFlush (u : Fin 80)
  /-- RX_UNDER_CLR (R151): RX_CMD.UNDER_CLR clears RX_STATUS.UNDERRUN. -/
  | rxUnderClr (u : Fin 80)
  /-- TX_DATA_WRITE (R152): A write of a channel's TX_DATA adds a header or data word to the TX FIFO, committing the packet
  with its last word. -/
  | txDataWrite (c : Fin 64) (w : Word)
  /-- TX_DROP_REST (R149): TX_CMD.DROP_REST discards the remainder of the current TX packet. -/
  | txDropRest (c : Fin 64)
  /-- TX_FLUSH (R150): TX_CMD.FLUSH discards every TX packet and clears UNDERRUN. -/
  | txFlush (c : Fin 64)
  /-- TX_UNDER_CLR (R152): TX_CMD.UNDER_CLR clears TX_STATUS.UNDERRUN. -/
  | txUnderClr (c : Fin 64)
  -- Tine engines
  /-- HALT (R164): Engine instruction HALT makes the engine HALTED and posts ENGINE_HALT if HALT_EVENT = 1. -/
  | halt (c : Fin 64) (d : Fin 40)
  /-- SHIFT_OUT (R165): Engine instruction SHIFT_OUT shifts N bits from OSR to pins, X, Y or nowhere. -/
  | shiftOut (c : Fin 64) (d : Fin 40)
  /-- SHIFT_IN (R165): Engine instruction SHIFT_IN shifts N bits from pins, X, Y or zeros into ISR. -/
  | shiftIn (c : Fin 64) (d : Fin 40)
  /-- DRIVE (R164): Engine instruction DRIVE enables or releases the masked slots and sets their values. -/
  | drive (c : Fin 64) (d : Fin 40)
  /-- SAMPLE (R164): Engine instruction SAMPLE copies the levels of P0-P7 into X or Y. -/
  | sample (c : Fin 64) (d : Fin 40)
  /-- LOAD (R164): Engine instruction LOAD loads C0 or C1 from an immediate, X or Y. -/
  | load (c : Fin 64) (d : Fin 40)
  /-- BRANCH (R166): Engine instruction BRANCH moves the PC to TARGET when its condition holds. -/
  | branch (c : Fin 64) (d : Fin 40)
  /-- WAIT (R167): Engine instruction WAIT begins a wait for a pin level or edge, a flag, a time or a launch. -/
  | wait (c : Fin 64) (d : Fin 40)
  /-- WAIT_END (R167): A wait's pin, flag or launch condition holds at an engine cycle, and the wait ends. -/
  | waitEnd (c : Fin 64) (d : Fin 40)
  /-- WAIT_TIME_MARK (R168): The mark is reached; the engine clock restarts on the nearest tile edge, the next instruction
  executes, and the mark advances. -/
  | waitTimeMark (c : Fin 64) (d : Fin 40)
  /-- ENGINE_MARK_PREPARE (R168): 1 µs before a WAIT TIME mark, the tile prepares its clock as for a launch. -/
  | engineMarkPrepare (c : Fin 64)
  /-- PUSH (R169): Engine instruction XCHG PUSH writes ISR into the RX packet and may commit or fail it. -/
  | push (c : Fin 64) (d : Fin 40)
  /-- PULL (R172): Engine instruction XCHG PULL loads a TX packet header into X and Y, or a data word into OSR. -/
  | pull (c : Fin 64) (d : Fin 40)
  /-- STAMP (R173): Engine instruction STAMP writes the fabric time of its engine cycle into the open RX packet. -/
  | stamp (c : Fin 64) (d : Fin 40)
  /-- MARK_SET_FLAG (R164): Engine instruction MARK with KIND 0 sets a flag. -/
  | markSetFlag (c : Fin 64) (d : Fin 40)
  /-- MARK_CLEAR_FLAG (R164): Engine instruction MARK with KIND 1 clears a flag. -/
  | markClearFlag (c : Fin 64) (d : Fin 40)
  /-- MARK_POST (R164): Engine instruction MARK with KIND 2 posts ENGINE_MARK, and with IRQ = 1 sets CH.IRQ_PEND bit 16. -/
  | markPost (c : Fin 64) (d : Fin 40)
  /-- STALL_END (R171): A PUSH, STAMP or PULL stalled for FIFO space or data finds it and proceeds, after the `cycles` it
  stalled through. -/
  | stallEnd (c : Fin 64) (d : Fin 40) (cycles : Nat)
  /-- ENG_START (R180): ENG_CMD.START makes a start event for its own engine at least 8 tile cycles after the write. -/
  | engStart (c : Fin 64)
  /-- ENG_HALT (R184): ENG_CMD.HALT halts the engine with cause HALT_CMD. -/
  | engHalt (c : Fin 64)
  /-- ENGINE_RESET (R156): ENG_CMD.RESET returns the engine's state to reset, releases its outputs, and cancels any pending
  commit. -/
  | engineReset (c : Fin 64)
  /-- COMMIT_AT_WRAP (R178): ENG_CMD.COMMIT with IMMEDIATE = 0 makes a commit pending until the PC next passes WRAP_TOP, or
  swaps at once if the engine is not RUNNING. -/
  | commitAtWrap (c : Fin 64)
  /-- COMMIT_IMMEDIATE (R178): ENG_CMD.COMMIT with IMMEDIATE = 1 swaps banks at the next engine cycle edge and abandons the
  current instruction. -/
  | commitImmediate (c : Fin 64) (a : Agent)
  /-- COMMIT_SWAP (R178): A pending AT_WRAP commit swaps the banks as the instruction at WRAP_TOP completes, and COMMIT_DONE
  is posted. -/
  | commitSwap (c : Fin 64) (d : Fin 40)
  /-- CANCEL_COMMIT (R178): ENG_CMD.CANCEL_COMMIT withdraws a pending commit. -/
  | cancelCommit (c : Fin 64)
  /-- COPY_ACTIVE (R175): ENG_CMD.COPY_ACTIVE starts copying the active segment into staging. -/
  | copyActive (c : Fin 64)
  /-- COPY_DONE (R175): The copy of the active segment completes after LEN tile cycles and COPY_BUSY clears. -/
  | copyDone (c : Fin 64)
  /-- GRP_START (R180): TILE.GRP_START.GO makes a start event for the masked engines at the edge nearest T + 1,000 ns. -/
  | grpStart
  /-- START_EVENT_ACT (R181): On its edge E, a start event starts, restarts or releases each named engine that meets R157. -/
  | startEventAct (i : Nat) (d : Fin 40)
  /-- ENG_SEG_WRITE (R174): A write of ENG_SEG sets the engine's segment, or is ignored and sets SEG_CONFLICT. -/
  | engSegWrite (c : Fin 64) (v : Word)
  /-- PROG_DATA_WRITE (R175): A write of ENG_PROG_DATA stores an instruction in the staging bank, or is refused and counted.
  -/
  | progDataWrite (c : Fin 64) (v : Word)
  /-- ENG_FLAG_SET (R155): ENG_FLAG_SET sets the named engine flags. -/
  | engFlagSet (c : Fin 64) (v : Word)
  /-- ENG_FLAG_CLR (R155): ENG_FLAG_CLR clears the named engine flags; a set in the same write prevails. -/
  | engFlagClr (c : Fin 64) (v : Word) (setToo : Word)
  /-- ENG_MARK_WRITE (R168): A write of ENG_MARK_NS makes the mark pair written with ENG_MARK_SEC take effect together. -/
  | engMarkWrite (c : Fin 64) (v : Word)
  /-- ENG_OSR_WRITE (R155): A write of ENG_OSR while not RUNNING loads OSR and sets OSR_COUNT to 32. -/
  | engOsrWrite (c : Fin 64) (v : Word)
  -- Reflex rules
  /-- RULE_EVALUATE (R193): The evaluator takes a queued rule and evaluates it against the operand vector as it stands. -/
  | ruleEvaluate (d : Fin 40) (ecc : ReadEcc)
  /-- RULE_TICK (R195): Every TICK µs while a WHILE_TRUE rule's result stays 1, the rule is queued again. -/
  | ruleTick (n : Fin 1024)
  /-- LOAD_TERMS_A (R221): RFX mailbox LOAD_TERMS_A loads terms 0 and 1 of a disarmed rule. -/
  | loadTermsA (arg : BitVec 16)
  /-- LOAD_TERMS_B (R221): RFX mailbox LOAD_TERMS_B loads terms 2 and 3 of a disarmed rule. -/
  | loadTermsB (arg : BitVec 16)
  /-- LOAD_ACT (R221): RFX mailbox LOAD_ACT loads the control word, lines, operations and targets of a disarmed rule. -/
  | loadAct (arg : BitVec 16)
  /-- RFX_ARM (R190): RFX mailbox ARM arms a rule, evaluating it once and storing the result. -/
  | rfxArm (arg : BitVec 16) (ecc : ReadEcc)
  /-- RFX_DISARM (R190): RFX mailbox DISARM disarms a rule and removes it from the evaluation queue. -/
  | rfxDisarm (arg : BitVec 16)
  /-- READ_TERMS_A (R221): RFX mailbox READ_TERMS_A returns terms 0 and 1 of a rule. -/
  | readTermsA (arg : BitVec 16) (ecc : ReadEcc)
  /-- READ_TERMS_B (R221): RFX mailbox READ_TERMS_B returns terms 2 and 3 of a rule. -/
  | readTermsB (arg : BitVec 16) (ecc : ReadEcc)
  /-- READ_ACT (R221): RFX mailbox READ_ACT returns a rule's action words. -/
  | readAct (arg : BitVec 16) (ecc : ReadEcc)
  /-- RFX_CLEAR (R221): RFX mailbox CLEAR zeroes a disarmed rule. -/
  | rfxClear (arg : BitVec 16)
  /-- SWF_SET (R186): A write of RFX.SWF_SET sets the named software flags, changing their operands. -/
  | swfSet (v : Word)
  /-- SWF_CLR (R186): A write of RFX.SWF_CLR clears the named software flags, changing their operands. -/
  | swfClr (v : Word)
  -- Signals
  /-- LOAD_PUB (R222): SIG mailbox LOAD_PUB loads a publish slot's type, heartbeat code and destination. -/
  | loadPub (arg : BitVec 16)
  /-- SET_VALUE (R210): SIG mailbox SET_VALUE writes a publish slot's value and quality. -/
  | setValue (arg : BitVec 16)
  /-- READ_PUB (R222): SIG mailbox READ_PUB returns a slot's value and source time. -/
  | readPub (arg : BitVec 16)
  /-- LOAD_SUB (R222): SIG mailbox LOAD_SUB loads a subscription entry. -/
  | loadSub (arg : BitVec 16)
  /-- READ_SUB (R218): SIG mailbox READ_SUB returns an entry's latest value, loads SUB_META, zeroes its count and clears
  DIRTY. -/
  | readSub (arg : BitVec 16)
  /-- READ_SUBCFG (R222): SIG mailbox READ_SUBCFG returns an entry's configuration. -/
  | readSubcfg (arg : BitVec 16)
  /-- CLEAR_SUB (R222): SIG mailbox CLEAR_SUB disables an entry and sets its operand to 0. -/
  | clearSub (arg : BitVec 16)
  /-- READ_PUBCFG (R222): SIG mailbox READ_PUBCFG returns a slot's configuration. -/
  | readPubcfg (arg : BitVec 16)
  /-- HEARTBEAT_SCAN (R213): Every 250 µs the heartbeat scan sends every due slot in class-5 heartbeat frames. -/
  | heartbeatScan
  /-- SIGNAL_FRAME_RECEIVE (R214): A signal frame delivered to SP7 is checked and its records are applied to the matching
  subscription entries. -/
  | signalFrameReceive
  /-- SUBSCRIPTION_STALE (R216): 4 × 2^HB ms pass without a record, so the entry becomes STALE and enters its fail state. -/
  | subscriptionStale (n : Fin 8192)
  -- Ports and links
  /-- FRAME_RECEIVE (R240): A frame received on a fabric port is checked, then forwarded, delivered, stripped or discarded. -/
  | frameReceive (port : Fin 4) (w : WireFrame)
  /-- EGRESS_TRANSMIT_START (R283): A free egress port takes its next frame by strict priority and deficit weighted round
  robin, and starts sending it. -/
  | egressTransmitStart (port : Fin 8) (ecc : ReadEcc)
  /-- FRAME_TRANSMIT_END (R283): A frame's transmission ends and its cells are freed. -/
  | frameTransmitEnd (port : Fin 8) (ecc : ReadEcc)
  /-- PREEMPTION (R251): At the end of the current 64-byte block, a waiting express frame preempts the preemptable frame. -/
  | preemption (port : Fin 4)
  /-- TRAINING_COMPLETE (R227): Clause 72 training completes on both ends, and the port moves to LOCKING. -/
  | trainingComplete (port : Fin 4) (fec : Bool) (txeq : Word) (rxeq : Word)
  /-- TRAINING_TIMEOUT (R227): Training fails or is not complete within 500 ms, and the port moves to HOLD. -/
  | trainingTimeout (port : Fin 4)
  /-- BLOCK_LOCK_ACQUIRED (R227): Block lock with no high bit error ratio is reached, and the port moves to CHECKING. -/
  | blockLockAcquired (port : Fin 4)
  /-- LOCKING_TIMEOUT (R227): LOCKING does not reach block lock within 100 ms, and the port moves to HOLD. -/
  | lockingTimeout (port : Fin 4)
  /-- UP_HOLD_EXPIRY (R227): After UP_HOLD ms in CHECKING without a down condition, the port goes UP and LINK_UP is posted. -/
  | upHoldExpiry (port : Fin 4)
  /-- LINK_DOWN_CONDITION (R228): A down condition is detected on a port, which moves to HOLD and posts LINK_DOWN if it was
  UP. -/
  | linkDownCondition (port : Fin 4) (event : DownEvent)
  /-- HOLD_DOWN_EXPIRY (R227): HOLD_DOWN ms elapse in HOLD, and the port moves to TRAINING or LOCKING. -/
  | holdDownExpiry (port : Fin 4)
  /-- DUP_ENTRY_AGE (R245): A duplicate-table or headland-table entry with no accepted frame for 10 ms is aged. -/
  | dupEntryAge (headland : Bool) (src : BitVec 16)
  /-- QUIET_PERIOD_END (R242): 12 ms after a reset of the fast-path domain, the hub may originate frames other than link-local
  ones. -/
  | quietPeriodEnd
  /-- FP_CHECK_CLEAR (R255): A failed link-level check goes 1 s without a failure and clears, posting QUAL_CLEAR. -/
  | fpCheckClear (port : Fin 4) (check : Nat)
  /-- PRBS_ERR_READ (R10): A read of PRBS_ERR through IND_DATA returns the PRBS31 error count and clears it. -/
  | prbsErrRead (port : Fin 4)
  -- Ring management
  /-- ID_CFG_WRITE (R259): A write of RING.ID_CFG sets or withdraws the node ID, starting the 12 ms activation when VALID is
  written 1. -/
  | idCfgWrite (v : Word)
  /-- FAR_ID_WRITE (R267): A write of RING.FAR_ID sets or withdraws a coupler's far node ID as R259 gives. -/
  | farIdWrite (v : Word)
  /-- ID_ACTIVATE (R259): 12 ms after VALID is written, the node ID becomes active and the DYING signal is published with
  value 0. -/
  | idActivate (far : Bool)
  /-- NEIGHBOUR_SEND (R263): Every 1 ms a link-local NEIGHBOUR frame is sent out of each ring port that is UP. -/
  | neighbourSend
  /-- SUPERVISION_SEND (R263): Every SUP_PERIOD ms a dual-sent SUPERVISION frame is sent to ring group 0xFFFF. -/
  | supervisionSend (far : Bool)
  /-- RING_MGMT_RECEIVE (R263): A ring management frame is consumed by RING, updating neighbours, the station map and the ring
  state. -/
  | ringMgmtReceive
  /-- NEIGHBOUR_SILENT (R265): A ring port receives no NEIGHBOUR frame for 3 ms, becomes locally broken, and check 0x0502
  fails. -/
  | neighbourSilent (port : Fin 4)
  /-- STATION_TIMEOUT (R263): A station's bit in the station map is cleared after three supervision periods without its
  SUPERVISION frame. -/
  | stationTimeout (n : BitVec 8)
  /-- SUPERVISION_MISSED (R264): A copy of an own SUPERVISION frame fails to return within one period, for two frames in a
  row, and the ring becomes BROKEN. -/
  | supervisionMissed (far : Bool)
  /-- HSR_SUPERVISION_SEND (R274): In HSR or PRP, supervision frames are sent every LifeCheckInterval of 2 s. -/
  | hsrSupervisionSend
  -- Switch and buffers
  /-- COPY_WRITE (R292): A further copy of a frame is written to the buffer when core write time is granted. -/
  | copyWrite
  /-- REPLICATION_TIMEOUT (R292): A further copy not written within REPL_LIMIT µs is dropped and counted. -/
  | replicationTimeout (i : Nat)
  /-- MIRROR_COPY_TIMEOUT (R295): A mirror copy not written within 1 µs is dropped and reported by MIRROR_DROP. -/
  | mirrorCopyTimeout (i : Nat)
  /-- PUSHOUT_REPOST (R288): While evictions or drops continue at a port, PUSHOUT is posted again at most once per 1 ms with
  the counts since the last. -/
  | pushoutRepost (port : Fin 8)
  /-- MIGRATION (R297): The migration engine copies a marked frame to the overflow store and frees its on-chip cells, or drops
  it if the store is full. -/
  | migration (port : Fin 8) (cls : Fin 5)
  /-- STORE_READBACK (R298): The egress reads a stored frame back into on-chip staging before it reaches the head of its
  queue. -/
  | storeReadback (port : Fin 8) (cls : Fin 5) (ecc : ReadEcc)
  /-- STORE_CFG_WRITE (R296): A write of STORE_BASE or STORE_SIZE takes effect only while STORE_USED = 0 and DDR is ready. -/
  | storeCfgWrite (size : Bool) (v : Word)
  /-- BUF_MARKS_WRITE (R284): A write of FLOORS or SPILL that would break SPILL_MARK > GEN_FLOOR > EXP_FLOOR is ignored and
  sets CFG_ERR. -/
  | bufMarksWrite (spill : Bool) (v : Word)
  /-- DDR_TRAINING_DONE (R301): DDR4 initialisation and training ends by setting READY, or TRAIN_FAIL with the failing step.
  -/
  | ddrTrainingDone (fail : Option (Fin 6))
  -- Fabric transactions
  /-- REQUEST_ISSUE (R306): A requester's access is bridged by XBR as a request, posted write or message and sent in its
  stream. -/
  | requestIssue (q : XReq) (user : Nat)
  /-- TAG_STALL_END (R305): A tag frees, and a requester's stalled non-posted request is issued. -/
  | tagStallEnd
  /-- TRANSACTION_FRAME_RECEIVE (R312): A transaction frame reaches XBR and is released, held or discarded by the order table.
  -/
  | transactionFrameReceive
  /-- GAP_LOST (R313): GAP_WAIT passes behind a stream gap; the gap is declared lost, held frames are released, and a LOST
  report is sent. -/
  | gapLost (source : BitVec 16)
  /-- STREAM_AGE_EXPIRY (R312): A stream entry without a frame for STREAM_AGE ages. -/
  | streamAgeExpiry (source : BitVec 16)
  /-- REQUEST_EXECUTE (R319): A non-posted request from the inbound queue executes against the node-local map and its
  completion is cached and sent. -/
  | requestExecute (ecc : ReadEcc)
  /-- POSTED_WRITE_EXECUTE (R317): A released posted write executes in stream order, and a failure is reported to its source.
  -/
  | postedWriteExecute (ecc : ReadEcc)
  /-- MESSAGE_EXECUTE (R321): A released MESSAGE places two words into the message FIFO, or is dropped and reported when it is
  full. -/
  | messageExecute
  /-- DISCARD_RECEIVE (R331): A DISCARD notice strands the cache entry of the RS read it names, and STRANDED_READ is posted.
  -/
  | discardReceive
  /-- COMPLETION_RECEIVE (R323): A released completion closes its matching open request, or is discarded as late. -/
  | completionReceive
  /-- RETRY_TIMER (R323): RETRY_TIME after a sending without a completion, the request is resent with RETRY = 1. -/
  | retryTimer (t : Fin 512)
  /-- BUSY_BACKOFF_EXPIRY (R323): The backoff after a BUSY answer ends and the request is resent. -/
  | busyBackoffExpiry (t : Fin 512)
  /-- NP_TIMEOUT (R326): A request still open NP_TIMEOUT after its first sending ends with TIMEOUT, and a DISCARD is sent for
  an RS read. -/
  | npTimeout (t : Fin 512)
  /-- CC_HOLD_EXPIRY (R324): A completion cache entry, or a stranded entry, reaches the end of its hold and may be freed. -/
  | ccHoldExpiry (source : BitVec 16) (code : Byte) (tag : BitVec 14)
  /-- LOST_REPORT_RECEIVE (R329): A LOST report is replaced by one POSTED_WRITE_ERROR per logged posted frame of its range. -/
  | lostReportReceive
  /-- EVENT_REPORT_RECEIVE (R236): An event report frame's records are taken with REMOTE = 1 and routed to the event queues.
  -/
  | eventReportReceive
  /-- MSG_DATA_READ (R321): A read of XBR.MSG_DATA returns the next word of the oldest message, or 0 and sets MSG_UNDERRUN
  when empty. -/
  | msgDataRead
  /-- MSG_UNDER_CLR (R321): A write of 1 to XBR.CNT_CLR.MSG_UNDER_CLR clears STATUS.MSG_UNDERRUN. -/
  | msgUnderClr
  -- Paired nodes
  /-- STATE_RECEIVE (R343): A STATE message passing R338 updates the partner's state, and with HOLD = 1 renews the lease. -/
  | stateReceive (m : PlkMsg)
  /-- RELEASE_RECEIVE (R342): A RELEASE message makes a FIT follower wait for PEER_OWN low to take the lease. -/
  | releaseReceive (m : PlkMsg)
  /-- HO_REQ_RECEIVE (R355): A holder receiving HO_REQ answers HO_ACK and enters HANDING, or answers HO_CANCEL. -/
  | hoReqReceive (m : PlkMsg)
  /-- HO_ACK_RECEIVE (R355): The preferred node receiving HO_ACK enters HANDING. -/
  | hoAckReceive (m : PlkMsg)
  /-- HO_CANCEL_RECEIVE (R356): An HO_CANCEL ends the handover, and the node leaves HANDING for its former state. -/
  | hoCancelReceive (m : PlkMsg)
  /-- ECHO_RECEIVE (R339): An ECHO from the partner is answered with an ECHO_REPLY carrying the residence time. -/
  | echoReceive (m : PlkMsg) (residence : Word)
  /-- ECHO_REPLY_RECEIVE (R339): An ECHO_REPLY completes an exchange and PLK.LATENCY is updated. -/
  | echoReplyReceive (m : PlkMsg) (roundTrip : Nat)
  /-- PLK_ALIGN_TIMEOUT (R336): PLK does not reach UP within 10 ms of ALIGNING and moves to HOLD. -/
  | plkAlignTimeout
  /-- PLK_HOLD_EXPIRY (R336): After 1 ms in HOLD, PLK returns to ALIGNING. -/
  | plkHoldExpiry
  /-- PLK_DOWN_CONDITION (R336): Loss of signal, loss of alignment or too many bad messages take PLK from UP to HOLD. -/
  | plkDownCondition (cause : PlkDown)
  /-- PARTNER_SILENT (R336): No message passes R338 for 2 × RENEW + 1 µs, and PLK leaves UP with cause 9. -/
  | partnerSilent
  /-- STATE_SEND (R337): Every RENEW a STATE message is sent, with HOLD = 1 from a holder. -/
  | stateSend
  /-- ECHO_SEND (R339): Every 1 ms while UP, PLK sends an ECHO. -/
  | echoSend
  /-- LEASE_EXPIRY (R343): LENGTH elapses since the latest renewal; with PEER_OWN low and the node FIT, the follower enters
  TAKING. -/
  | leaseExpiry
  /-- STARTING_TIMEOUT (R342): No renewal arrives for LENGTH, plus 20 µs when not preferred, after entering STARTING, and the
  node enters TAKING. -/
  | startingTimeout
  /-- TAKEOVER_COMPLETE (R342): TAKEOVER passes with PEER_OWN low and no renewal; the node loads its latches, asserts OWN_OUT
  and becomes HOLDER. -/
  | takeoverComplete
  /-- SELF_EXPIRY (R344): LENGTH − 1 µs passes since the holder's latest renewal was sent, so it releases OWN_OUT. -/
  | selfExpiry
  /-- PEER_OWN_CHANGE (R340): The partner's OWN_OUT, seen on PEER_OWN, changes level. -/
  | peerOwnChange (level : Bool)
  /-- LEASE_CONFLICT (R346): A holder sees PEER_OWN high for 200 ns, and the node chosen by PREFERRED and node ID releases. -/
  | leaseConflict
  /-- OWN_OUT_READBACK_FAULT (R340): The OWN_OUT pin differs from its driven level for longer than 200 ns, a readback fault of
  the node. -/
  | ownOutReadbackFault (differs : Bool)
  /-- RELEASE_CONFIRM (R342): After a RELEASE, PEER_OWN has been low for 1 µs, and the follower becomes HOLDER. -/
  | releaseConfirm
  /-- COMPARE_FAIL (R349): A compared line has differed for COMPARE_TOL, so COMPARE_FAIL is raised and the holder decision of
  R352 is made. -/
  | compareFail
  /-- COMPARE_CLEAR (R349): Every compared line has agreed for COMPARE_TOL, and COMPARE_FAIL clears. -/
  | compareClear
  /-- FAULT_CLR (R351): LEASE.FAULT_CLR clears the named fault bits whose causes no longer stand. -/
  | faultClr (v : Word)
  /-- FAULT_SET (R351): LEASE.FAULT_SET latches the STEWARD fault. -/
  | faultSet (v : Word)
  /-- REVERT_HOLD_EXPIRY (R355): A preferred follower has met the revert conditions for REVERT_HOLD and sends HO_REQ. -/
  | revertHoldExpiry
  /-- HANDOVER_TIME (R356): At the handover time T, the holder releases OWN_OUT and the preferred node asserts it and becomes
  HOLDER. -/
  | handoverTime
  /-- HANDOVER_RETAKE_CHECK (R356): 1 µs after T, a former holder finding PEER_OWN still low reasserts OWN_OUT and stays
  HOLDER. -/
  | handoverRetakeCheck
  /-- TIMING_WRITE (R343): A write of LEASE.TIMING sets LENGTH and RENEW, or is ignored and sets CFG_ERR. -/
  | timingWrite (v : Word)
  -- CAN controllers
  /-- CAN_FRAME_RECEIVED (R372): A CAN frame completes without error, is offered to the acceptance filters, and is stored or
  discarded. -/
  | canFrameReceived (n : Fin 16) (f : CanFrame) (t : TimePoint)
  /-- CAN_RX_ERROR (R378): A received CAN frame ends in a bit, stuff, form, CRC or ACK error and is not stored. -/
  | canRxError (n : Fin 16) (e : CanErr) (dataPhase : Bool) (eight : Bool)
  /-- CAN_ARBITRATION_START (R368): At the start of arbitration the controller offers the pending frame with the lowest
  arbitration field. -/
  | canArbitrationStart (n : Fin 16) (sof : TimePoint)
  /-- CAN_ARBITRATION_LOST (R368): The controller loses arbitration, and the frame stays pending. -/
  | canArbitrationLost (n : Fin 16)
  /-- CAN_TX_SUCCESS (R369): A transmission succeeds at the end of its end-of-frame field. -/
  | canTxSuccess (n : Fin 16) (tdcv : BitVec 7)
  /-- CAN_TX_ERROR (R370): A transmission attempt ends in an error, and the frame is abandoned when the RETX limit is reached.
  -/
  | canTxError (n : Fin 16) (e : CanErr) (dataPhase : Bool) (held : Bool)
  /-- CAN_PROTOCOL_EXCEPTION (R364): A recessive res bit in a CAN FD frame with PXHD = 0 puts the controller in
  PROTOCOL_EXCEPTION. -/
  | canProtocolException (n : Fin 16)
  /-- CAN_BUS_IDLE (R364): 11 consecutive recessive bits end INTEGRATING or PROTOCOL_EXCEPTION. -/
  | canBusIdle (n : Fin 16)
  /-- CAN_RECOVERY_COMPLETE (R364): 128 occurrences of 11 recessive bits end RECOVERING with TEC and REC set to 0. -/
  | canRecoveryComplete (n : Fin 16)
  /-- CAN_INIT_ENTRY (R365): EN = 0 takes effect at the end of the current frame; pending transmissions are abandoned and the
  TX FIFO flushed. -/
  | canInitEntry (n : Fin 16)
  /-- TXREQ (R366): A write of TXREQ makes the named mailboxes pending, or is refused and counted. -/
  | txreq (n : Fin 16) (v : Word)
  /-- TXCANCEL (R371): A write of TXCANCEL cancels the named mailboxes whose start of frame has not been sent, or posts
  CANCEL_LATE. -/
  | txcancel (n : Fin 16) (v : Word)
  /-- TXRES_CLR (R369): A write of TXRES_CLR clears the named TXDONE and TXFAIL bits. -/
  | txresClr (n : Fin 16) (v : Word)
  /-- CAN_TX_DATA_WRITE (R367): A write of CAN TX_DATA adds a word to the TX FIFO, and a malformed packet is discarded at
  commit. -/
  | canTxDataWrite (n : Fin 16) (w : Word)
  /-- CAN_TX_FLUSH (R371): CAN TX_CMD.FLUSH cancels every FIFO packet whose start of frame has not been sent. -/
  | canTxFlush (n : Fin 16)
  /-- CAN_RECOVER (R364): CAN CMD.RECOVER moves a controller from BUS_OFF to RECOVERING. -/
  | canRecover (n : Fin 16)
  /-- CAN_MB_WRITE (R366): An indirect write to a TX mailbox is stored, or is ignored and counted when the mailbox is pending.
  -/
  | canMbWrite (n : Fin 16) (m : Fin 32) (i : Fin 18) (v : Word)
  -- Serial functions
  /-- UART_CHAR_RECEIVE (R381): A received UART character fills one or two bytes of the RX packet, or fails it. -/
  | uartCharReceive (c : Fin 64) (data : BitVec 9) (t : TimePoint) (fault : UartFault)
  /-- UART_GAP_EXPIRY (R381): RXD has been idle for GAP after the last stop bit, and the RX packet ends. -/
  | uartGapExpiry (c : Fin 64)
  /-- UART_TX_START (R382): After the minimum idle, the UART asserts DE and starts sending a TX packet. -/
  | uartTxStart (c : Fin 64)
  /-- UART_TX_END (R382): The last stop bit of a TX packet ends; IRQ_PEND bit 10 is set and DE released after DE_HOLD. -/
  | uartTxEnd (c : Fin 64)
  /-- SPI_TRANSACTION_START (R384): After CS_IDLE, the SPI master asserts CS and starts a transaction for the next TX packet.
  -/
  | spiTransactionStart (c : Fin 64)
  /-- SPI_TRANSACTION_END (R384): An SPI master transaction ends, CS is released after CS_HOLD, and its RX packet is
  committed. -/
  | spiTransactionEnd (c : Fin 64) (rx : List Byte)
  /-- SPI_CS_ASSERT (R385): CS assertion to the SPI slave begins an RX packet and the oldest TX packet. -/
  | spiCsAssert (c : Fin 64)
  /-- SPI_CS_RELEASE (R385): CS release commits the slave's RX packet, or fails it mid-byte, and discards unsent TX bytes. -/
  | spiCsRelease (c : Fin 64) (rx : List Byte) (partial_ : Bool)
  /-- I2C_TRANSACTION_START (R387): The I2C master starts the bus sequence of the next TX packet. -/
  | i2cTransactionStart (c : Fin 64)
  /-- I2C_TRANSACTION_END (R388): An I2C transaction ends and yields one RX packet with its result. -/
  | i2cTransactionEnd (c : Fin 64) (result : Fin 6) (acked : Byte) (read : List Byte)
  /-- SMBUS_TIMEOUT (R389): SCL held low for TIMEOUT ms ends the transaction with result 0x04. -/
  | smbusTimeout (c : Fin 64) (acked : Byte) (read : List Byte)
  /-- I2C_BUS_CLEAR (R389): I2C_CMD.BUS_CLEAR sends nine SCL pulses and a STOP, after any current transaction. -/
  | i2cBusClear (c : Fin 64)
  /-- PPS_OUT_START (R392): At each whole second plus OFFSET, PPS_OUT drives its active level if GATE allows. -/
  | ppsOutStart (c : Fin 64)
  /-- PPS_OUT_END (R392): WIDTH ns after its start, a PPS_OUT pulse ends. -/
  | ppsOutEnd (c : Fin 64)
  -- Host port
  /-- PERST_DEASSERT (R394): PERST# is deasserted, and the host port answers configuration requests with retry status until
  CFG_READY. -/
  | perstDeassert
  /-- CFG_RETRY_TIMEOUT (R394): 1 s after PERST# deassertion, the port stops retrying and enumerates with the current PCI_ID.
  -/
  | cfgRetryTimeout
  /-- HOST_CONFIG_REQUEST (R394): A PCIe configuration request is answered, or retried while CFG_READY = 0. -/
  | hostConfigRequest (q : HostConfig)
  /-- HOST_MEMORY_READ (R400): A host read TLP to BAR0 or BAR2 is translated into requests, with size checks at offsets
  0x800-0x8FF. -/
  | hostMemoryRead (bar : HostBar) (off : BitVec 30) (len : BitVec 10) (bad : Bool)
  /-- HOST_MEMORY_WRITE (R396): A host write TLP to BAR0, BAR2 or BAR4 is translated and bridged. -/
  | hostMemoryWrite (bar : HostBar) (off : BitVec 30) (data : List Byte) (bad : Bool)
  /-- MSIX_UNMASK (R410): Unmasking an MSI-X vector sends the message pending for it. -/
  | msixUnmask (v : Fin 64)
  /-- HOST_READ_ABANDON (R401): A host read whose completion has not been sent CPL_LIMIT ms after arrival is abandoned and
  answered with TIMEOUT. -/
  | hostReadAbandon (num : Nat)
  /-- HOST_RESET (R402): DL_Down, PERST# asserted, a hot reset or a function-level reset resets the host function and posts
  HOST_LINK. -/
  | hostReset (cause : HostReset)
  /-- HOST_LINK_UP (R393): The PCIe data link comes up and HOST_LINK is posted. -/
  | hostLinkUp (speed : Fin 4) (width : Fin 8)
  /-- HOST_COMPLETION_RECEIVE (R416): A completion arrives from the host for a hub-initiated host read. -/
  | hostCompletionReceive (c : Fin 8) (off : Nat) (r : HostCpl)
  /-- HOST_READ_TIMEOUT (R416): A hub-initiated host read not completed within 50 ms fails with HOST_TIMEOUT and check 0x0903.
  -/
  | hostReadTimeout (c : Fin 8) (off : Nat)
  -- Event queues
  /-- Q_CFG_WRITE (R404): A write of Q_CFG.EN = 1 enables a queue, setting its producer index and written count to 0 and its
  phase to 1. -/
  | qCfgWrite (n : Fin 16) (v : Word)
  /-- Q_CI_WRITE (R407): A write of Q_CI sets the consumer index, or is ignored and fails check 0x0A01 if it would increase
  the fill. -/
  | qCiWrite (n : Fin 16) (v : Word)
  /-- EVQ_HOLDOFF_EXPIRY (R409): HOLDOFF µs after the first pending record, the queue announces its pending records. -/
  | evqHoldoffExpiry (n : Fin 16)
  /-- POST_CMD (R412): EVQ.POST_CMD GO posts a USER record from POST_W4-POST_W7. -/
  | postCmd (v : Word)
  -- DMA
  /-- DC_RUN_WRITE (R413): A write of DC_CTRL.RUN starts or restarts a DMA channel, or stops it. -/
  | dcRunWrite (c : Fin 8) (v : Word)
  /-- DC_TAIL_WRITE (R413): A write of DC_TAIL gives the DMA channel new descriptors to execute. -/
  | dcTailWrite (c : Fin 8) (v : Word)
  /-- DC_RESET (R413): DC_CTRL.RESET halts a DMA channel and sets DC_HEAD and DC_TAIL to 0. -/
  | dcReset (c : Fin 8)
  /-- DMA_DESCRIPTOR_EXECUTE (R415): A DMA channel begins the descriptor at DC_HEAD and issues its reads and writes. -/
  | dmaDescriptorExecute (c : Fin 8) (fetched : HostCpl)
  /-- DMA_DESCRIPTOR_COMPLETE (R416): A descriptor ends; its status is written back and DC_HEAD advances, or the channel halts
  on failure. -/
  | dmaDescriptorComplete (c : Fin 8)
  -- Interrupts
  /-- ICU_CLAIM (R426): A read of CLAIM or HOST_CLAIM returns the highest eligible source and pushes the threshold. -/
  | icuClaim (t : Fin 6) (a : Agent)
  /-- ICU_COMPLETE (R428): A write of COMPLETE or HOST_COMPLETE pops the stack and restores the threshold. -/
  | icuComplete (t : Fin 6) (a : Agent) (v : Word)
  /-- THRESHOLD_WRITE (R428): A write of THRESHOLD sets a target's current threshold, leaving the stack as it is. -/
  | thresholdWrite (t : Fin 6) (a : Agent) (v : Word)
  /-- SWSET (R421): A write of ICU.SWSET or ICUPn.SWSET marks a source pending as if its request had risen. -/
  | swset (t : Fin 6) (a : Agent) (v : Word)
  /-- SRC_CFG_WRITE (R423): A write of SRC_CFG sets a shared source's routing and priority, or is refused for steward-targeted
  sources. -/
  | srcCfgWrite (i : Fin 448) (a : Agent) (v : Word)
  /-- PRIV_CFG_WRITE (R437): A write of PRIV_CFG by the page's core or the steward configures a private source. -/
  | privCfgWrite (t : Fin 5) (j : Fin 32) (a : Agent) (v : Word)
  /-- IPI (R435): A write of ICUPt.IPI SEND = 1 fires the private IPI source of target t for the writer. -/
  | ipi (t : Fin 5) (a : Agent) (v : Word)
  /-- TMR_WRITE (R436): A write of TMR k with EN = 1 loads the timer with RELOAD. -/
  | tmrWrite (t : Fin 5) (k : Fin 4) (a : Agent) (v : Word)
  /-- TIMER_EXPIRY (R436): A private timer reaches 0, fires Pk, and reloads or clears EN. -/
  | timerExpiry (t : Fin 5) (k : Fin 4)
  /-- HOLDOFF_END (R429): A hold-off group's interval ends, and its sources become eligible again. -/
  | holdoffEnd (g : Fin 32)
  -- Cores, watchdogs and memories
  /-- LOCKSTEP_MISCOMPARE (R444): An application pair's outputs differ; the pair stops and LOCKSTEP_MISCOMPARE is posted. -/
  | lockstepMiscompare (n : Fin 4) (pc : Word) (output : Fin 4)
  /-- PAIR_AUTO_RESTART (R444): 100 ms after a halt outside a trial, the keeper reloads the pair's TCM and restarts it. -/
  | pairAutoRestart (n : Fin 4)
  /-- LOCKSTEP_FAULT_FORGET (R444): After the pair runs 10 s without fault, the keeper clears LEASE.FAULT bit 0. -/
  | lockstepFaultForget (n : Fin 4)
  /-- WATCHDOG_KICK (R445): A write to MWDKICK restarts the core's watchdog with 0xA5, or expires it with any other value. -/
  | watchdogKick (n : Fin 5) (v : Word) (pc : Word)
  /-- WATCHDOG_WARNING (R445): At half its timeout, the watchdog fires P4 of the core's ICUP page. -/
  | watchdogWarning (n : Fin 5)
  /-- WATCHDOG_EXPIRY (R445): A watchdog expires; an application pair stops as on a miscompare, and the steward's resets the
  hub. -/
  | watchdogExpiry (n : Fin 5) (pc : Word)
  /-- MEMORY_SCRUB (R446): The background scrubber reads and corrects a SECDED memory word. -/
  | memoryScrub (m : ScrubMem) (ecc : ReadEcc)
  /-- ECC_REPORT_REPOST (R446): An ECC type is posted again at most once per 1 ms per memory, with the errors since the
  previous record. -/
  | eccReportRepost (page : Fin 256) (mem : Fin 16) (uncorr : Bool)
  /-- CORE_CTRL_RESET (R440): STW.CORE_CTRL.RESET holds the named application pairs in reset. -/
  | coreCtrlReset (v : Word)
  /-- CORE_CTRL_RUN (R440): STW.CORE_CTRL.RUN releases the named application pairs and clears their MISCOMPARE bits. -/
  | coreCtrlRun (v : Word)
  -- Start, trials and services
  /-- NODE_START (R456): On release of a reset that resets the steward, ROM and keeper verify, load and arm everything, then
  release the cores and enable LEASE. -/
  | nodeStart (octal : Bool)
  /-- SVC_COMMIT (R459): Service COMMIT commits the image on trial, advances the rollback counter and posts IMAGE_COMMITTED.
  -/
  | svcCommit (slot : Fin 5)
  /-- SVC_MIGRATE_COMMIT (R461): Service MIGRATE_COMMIT makes the pending settings area active, unless the field image is on
  trial. -/
  | svcMigrateCommit (slot : Fin 5)
  /-- STAGE (R457): Service STAGE verifies the inactive slot of a kind and marks it STAGED. -/
  | stage (slot : Fin 5)
  /-- SVC_REBOOT (R538): Service REBOOT writes LEASE.FAULT_SET and resets the hub as a steward-initiated reset. -/
  | svcReboot (slot : Fin 5)
  /-- READ_RECORD (R457): Service READ_RECORD returns part of a record of the active settings area. -/
  | readRecord (slot : Fin 5)
  /-- WRITE_RECORD (R457): Service WRITE_RECORD appends record bytes to the pending settings area. -/
  | writeRecord (slot : Fin 5)
  /-- MIGRATE_DONE (R461): Service MIGRATE_DONE closes the pending area; the keeper records it, applies it and posts
  SETTINGS_MIGRATED. -/
  | migrateDone (slot : Fin 5)
  /-- BOOT_COMMIT_FIELD (R459): BOOT.COMMIT.FIELD, written by the keeper, commits the field image on trial. -/
  | bootCommitField
  /-- BOOT_COMMIT_KEEPER (R459): BOOT.COMMIT.KEEPER, written by the keeper, records the keeper image's COMMIT. -/
  | bootCommitKeeper
  /-- BOOT_MIGRATE_COMMIT (R461): BOOT.MIGRATE_COMMIT.GO makes the pending settings area active. -/
  | bootMigrateCommit
  /-- TRIAL_TIME_LIMIT (R459): TRIAL_LIMIT seconds pass without COMMIT, and the trial reverts with a REBOOT. -/
  | trialTimeLimit
  -- Flash
  /-- OSPI_READ (R462): OSPI mailbox READ reads 1-256 flash bytes into the buffer. -/
  | ospiRead (fail : Bool)
  /-- PROGRAM (R462): OSPI mailbox PROGRAM writes buffer bytes to flash, unless a protected range is touched. -/
  | program (fail : Bool)
  /-- ERASE_4K (R462): OSPI mailbox ERASE_4K erases a 4 KiB flash block, unless it is protected. -/
  | erase4k (fail : Bool)
  /-- ERASE_64K (R462): OSPI mailbox ERASE_64K erases a 64 KiB flash block, unless it is protected. -/
  | erase64k (fail : Bool)
  /-- READ_SFDP (R462): OSPI mailbox READ_SFDP reads the device's SFDP into the buffer. -/
  | readSfdp (fail : Bool)
  /-- PROT_WRITE (R463): A steward write of OSPI PROTn sets a protected flash range; other agents' writes are ignored. -/
  | protWrite (n : Fin 4) (a : Agent) (v : Word)
  -- Security
  /-- REVOKE (R466): SEC mailbox REVOKE revokes an OTP key slot when D0 carries the check value. -/
  | revoke (arg : BitVec 16) (otpFail : Bool)
  /-- ADVANCE (R466): SEC mailbox ADVANCE blows rollback fuses up to the given value. -/
  | advance (arg : BitVec 16) (otpFail : Bool)
  /-- BLOW_FUSE (R464): SEC mailbox BLOW_FUSE blows one of the three JTAG fuses for good. -/
  | blowFuse (arg : BitVec 16) (otpFail : Bool)
  /-- SHA_INIT (R466): SEC mailbox SHA_INIT starts a SHA-384 computation. -/
  | shaInit
  /-- SHA_UPDATE (R466): SEC mailbox SHA_UPDATE hashes ARG bytes from the buffer. -/
  | shaUpdate (arg : BitVec 16)
  /-- SHA_FINAL (R466): SEC mailbox SHA_FINAL writes the hash to the buffer at 0x900. -/
  | shaFinal
  /-- VERIFY (R466): SEC mailbox VERIFY checks an ECDSA P-384 signature held in the buffer. -/
  | verify
  -- Power path and supplies
  /-- FEED_VOLTAGE_CHANGE (R468): A feed crosses its UV or OV limit or the other feed's level; OV turns its gate off within 1
  µs. -/
  | feedVoltageChange (b : Bool) (mv : BitVec 16) (vbus : BitVec 16)
  /-- FEED_UV_MARK (R468): A feed below UV for 10 µs is marked UV and its ideal-diode gate turned off. -/
  | feedUvMark (b : Bool)
  /-- FEED_SETTLE_EXPIRY (R468): A feed in range for SETTLE without a break returns to use. -/
  | feedSettleExpiry (b : Bool)
  /-- REVERSE_CURRENT (R469): VBUS exceeds a feed by REV_MV, and its ideal-diode gate is pulled down within 200 ns. -/
  | reverseCurrent (b : Bool) (diff : BitVec 16)
  /-- SEAT_PIN_CHANGE (R470): SEAT_A or SEAT_B changes, starting or restarting the debounce or the release filter. -/
  | seatPinChange (b : Bool) (asserted : Bool)
  /-- SEAT_DEBOUNCE_COMPLETE (R470): Both seat pins have been asserted for DEBOUNCE; the card is seated and the stage enters
  WAITING. -/
  | seatDebounceComplete
  /-- SEAT_RELEASE_TIMEOUT (R470): A seat pin has been released for 500 ns; the card is unseated and the gate turned off. -/
  | seatReleaseTimeout
  /-- RAMP_START (R471): The conditions of WAITING are met, and the stage starts RAMPING. -/
  | rampStart
  /-- RAMP_COMPLETE (R471): VOUT has been within 250 mV of VBUS for 1 ms, and the stage enters ON. -/
  | rampComplete
  /-- LIMIT_TIMEOUT (R472): RAMPING exceeds RAMP_MAX, or limiting in ON exceeds ON_LIMIT, which is a fault. -/
  | limitTimeout (shunt : Byte)
  /-- FAST_TRIP (R473): The shunt voltage reaches the trip threshold; the gate is pulled down and a fault is taken. -/
  | fastTrip (shunt : Byte) (vout : BitVec 16)
  /-- THERMAL_MODEL_STEP (R474): Every 1 µs ΔT is updated; TG reaching TJ_MAX in RAMPING or ON is a THERMAL fault. -/
  | thermalModelStep (vbus : BitVec 16) (vout : BitVec 16) (shuntUv : BitVec 16)
  /-- TS_MEASURE (R474): Every 100 µs the sensor is read, or fails check 0x0B03 when out of range. -/
  | tsMeasure (t : Int)
  /-- RETRY_TIMER_EXPIRY (R476): The retry timer reaches 0. -/
  | retryTimerExpiry
  /-- RETRY_FORGET (R477): After FORGET seconds in ON without a fault, the retry count is cleared. -/
  | retryForget
  /-- PWR_START (R471): PWR CMD.START clears HELD. -/
  | pwrStart
  /-- PWR_STOP (R471): PWR CMD.STOP sets HELD, and from RAMPING or ON the stage enters WAITING. -/
  | pwrStop
  /-- UNLATCH (R477): PWR CMD.UNLATCH moves LATCHED to WAITING and clears the retry count. -/
  | unlatch
  /-- DYING_GASP_DECISION (R480): Both feeds stay below UV for FILTER µs in RAMPING or ON, or an ON card is unseated; the
  gasp's actions begin. -/
  | dyingGaspDecision (us : Byte)
  /-- DYING_GASP_END (R482): 2 ms after the decision the gate is turned off and the rails are sequenced down. -/
  | dyingGaspEnd
  /-- RAIL_STEP_ENABLE (R485): UP_DELAY after the previous step's power-good, the next order step of rails is enabled. -/
  | railStepEnable
  /-- RAIL_STEP_DISABLE (R485): DOWN_DELAY after the previous step, the next order step of rails is disabled. -/
  | railStepDisable
  /-- RAIL_PG_CHANGE (R486): A rail's power-good input changes. -/
  | railPgChange (r : Fin 8) (level : Bool)
  /-- PG_TIMEOUT (R486): A rail's power-good has not asserted within PG_TIMEOUT of its enable, which is a rail fault. -/
  | pgTimeout (r : Fin 8)
  /-- PG_LOST (R486): An enabled rail's power-good has been lost for 10 µs, which is a rail fault. -/
  | pgLost (r : Fin 8)
  /-- ADC_CONVERSION (R489): Every 6.25 µs the next enabled channel is converted and checked against its window. -/
  | adcConversion (c : Fin 16) (code : BitVec 12)
  /-- ADC_ARM_TIMEOUT (R489): A channel has not come inside its window within TIMEOUT ms of its rail's enable, and check
  0x0D02 fails. -/
  | adcArmTimeout (c : Fin 16)
  -- Clocks, power states and resets
  /-- CLOCK_MONITOR_FAIL (R496): A reference clock leaves its window or stops, and its check fails with its stated outcome. -/
  | clockMonitorFail (n : Fin 4) (hz : Word)
  /-- CLOCK_MONITOR_CLEAR (R496): A failed reference clock has stayed in its window for the clear time, and its check clears.
  -/
  | clockMonitorClear (n : Fin 4) (hz : Word)
  /-- PLL_LOCK_LOST (R498): A PLL loses lock; the system PLL causes a PLL_FAIL reset and others stop the blocks they clock. -/
  | pllLockLost (p : Fin 5) (hz : Word)
  /-- PLL_RELOCK (R498): A PLL regains lock, and its blocks resume or DDR is retrained. -/
  | pllRelock (p : Fin 5) (hz : Word)
  /-- STATE_REQ_ACTIVE (R500): STATE_REQ = 0 returns the node from FALLOW to ACTIVE. -/
  | stateReqActive (a : Agent)
  /-- STATE_REQ_FALLOW (R500): STATE_REQ = 1 takes the node from ACTIVE to FALLOW. -/
  | stateReqFallow (a : Agent)
  /-- STATE_REQ_DORMANT (R500): STATE_REQ = 2 takes the node to DORMANT, or is refused while the node holds or hands the
  lease. -/
  | stateReqDormant (a : Agent)
  /-- FALLOW_AUTO_WAKE (R499): With AUTO_WAKE = 1, an ICU request to an application core or a memory access returns FALLOW to
  ACTIVE. -/
  | fallowAutoWake (access : Bool)
  /-- DORMANT_WAKE (R503): A wake source in DORMANT turns the rails on and releases a DORMANT_WAKE reset. -/
  | dormantWake (w : WakeSource)
  /-- AO_POR (R501): VDD_AO rising into its range resets both dies, always-on domains included. -/
  | aoPor
  /-- VDD_AO_LOSS (R499): VDD_AO falls below its range and the node enters OFF. -/
  | vddAoLoss
  /-- HUB_DIE_POWER_LOSS (R493): A loss of any of rails 0-4 while VDD_AO stays up removes hub-die power, and its return is a
  CORE_POWER reset. -/
  | hubDiePowerLoss
  /-- RST_N_ASSERT (R501): RST_N low for at least 1 µs asserts a hub-die reset, held while low. -/
  | rstNAssert
  /-- REBOOT (R501): A steward write of RST.CMD.REBOOT asserts a hub-die reset. -/
  | reboot (a : Agent) (v : Word)
  /-- STRAP_SAMPLE (R509): 1 ms after VDD_AO enters its range, SLOT_ID0-SLOT_ID7 are sampled into RING.STRAP. -/
  | strapSample (v : Byte)
  -- Further rows: time counter edges, PTP, engines, PLK and streams
  /-- TCLK_EDGE (R50): Every rising edge of TCLK adds INC = 40 × 2^32 + TIME.RATE to the time counter, carrying into the
  nanoseconds and seconds. -/
  | tclkEdge
  /-- XT32_EDGE (R59): In DORMANT each XT32 rising edge advances the counter by exactly 10^9 / 32,768 ns without TIME.RATE,
  and DORMANT stamps take this value. -/
  | xt32Edge
  /-- FOLLOW_UP_RECEIVE (R65): A boundary-clock port receives the Follow_Up of a two-step Sync and takes its precise origin
  timestamp for the servo update. -/
  | followUpReceive
  /-- ILLEGAL_INSTRUCTION (R164): An engine executes a reserved OP or operand value, does nothing of it, and halts with cause
  ILLEGAL, posting ENGINE_HALT. -/
  | illegalInstruction (c : Fin 64) (d : Fin 40)
  /-- ENGINE_FETCH_ECC (R177): An uncorrectable ECC error on an engine instruction fetch halts the engine with cause ECC and
  posts ECC_UNCORRECTABLE. -/
  | engineFetchEcc (c : Fin 64) (d : Fin 40) (ecc : ReadEcc)
  /-- PLK_MESSAGE_REJECTED (R338): A PLK message that fails its CRC, has a reserved kind or reserved bits set, or is not newer
  in sequence is discarded and fails check 0x0701 or 0x0702. -/
  | plkMessageRejected (m : PlkMsg)
  /-- PLK_LANE_ALIGNMENT (R336): A PLK receive lane gains or loses comma alignment and deskew outside UP, setting or clearing
  LANEn_ALIGNED and starting or restarting the count of 64 good messages. -/
  | plkLaneAlignment (lane0 : Bool) (lane1 : Bool)
  /-- STREAM_ENTRY_IDLE_EXPIRY (R311): An initiator stream entry idle for 2 × STREAM_AGE becomes replaceable, and a request
  stalled for a new destination takes it. -/
  | streamEntryIdleExpiry (dst : BitVec 16)
deriving DecidableEq, Repr

end Sys2Proof
end

