-- ==== Sys2Proof/Decode.lean ====
section
/-! DEFINITION. Words of the opcode table as commands. The table gives its rows no bits, so no word spells a command. -/

namespace Sys2Proof

/-- The command that a word of the table spells: none, since no row has bits. -/
def decodeTableWord (_nbits _w : Nat) : Option Instr := none

end Sys2Proof
end

