-- ==== Sys2Proof/Machine/Tab.lean ====
section
/-! DEFINITION. Sparse tables keyed by a number, in one canonical form: keys strictly rising, and no entry equal to what
an unlisted key reads as. Registers, memories and the hub's large tables are held this way, so that equal contents are
equal data. -/

namespace Sys2Proof.Machine

/-- A sparse table: entries in rising key order. -/
abbrev Tab (α : Type) := List (Nat × α)

/-- The entry at `k`, or `d` where none is listed. -/
def Tab.get {α : Type} (d : α) : Tab α → Nat → α
  | [], _ => d
  | (j, v) :: t, k => if k = j then v else Tab.get d t k

/-- `t` with the entry at `k` listed as `v`, in key order. -/
def Tab.put {α : Type} : Tab α → Nat → α → Tab α
  | [], k, v => [(k, v)]
  | (j, u) :: t, k, v =>
    if k < j then (k, v) :: (j, u) :: t
    else if k = j then (k, v) :: t
    else (j, u) :: Tab.put t k v

/-- `t` without any entry at `k`. -/
def Tab.drop {α : Type} : Tab α → Nat → Tab α
  | [], _ => []
  | (j, u) :: t, k => if k = j then Tab.drop t k else (j, u) :: Tab.drop t k

/-- `t` with `k` reading as `v`, where an unlisted key reads as `d`. -/
def Tab.set {α : Type} [DecidableEq α] (d : α) (t : Tab α) (k : Nat) (v : α) : Tab α :=
  if v = d then Tab.drop t k else Tab.put t k v

/-- Whether every key of `t` is above `k`. -/
def Tab.above {α : Type} (k : Nat) : Tab α → Bool
  | [] => true
  | (j, _) :: t => decide (k < j) && Tab.above k t

/-- The canonical form: keys strictly rising, and no entry equal to what `d` gives for its key. -/
def Tab.wf {α : Type} [DecidableEq α] (d : Nat → α) : Tab α → Bool
  | [] => true
  | (j, v) :: t => Tab.above j t && decide (v ≠ d j) && Tab.wf d t

/-- Every entry whose key satisfies `p` removed. -/
def Tab.without {α : Type} (p : Nat → Bool) : Tab α → Tab α
  | [] => []
  | (j, v) :: t => if p j then Tab.without p t else (j, v) :: Tab.without p t

/-- A set of numbers as a rising list without repeats: `k` added. -/
def setAdd : List Nat → Nat → List Nat
  | [], k => [k]
  | j :: t, k => if k < j then k :: j :: t else if k = j then j :: t else j :: setAdd t k

/-- `k` removed. -/
def setDel : List Nat → Nat → List Nat
  | [], _ => []
  | j :: t, k => if k = j then setDel t k else j :: setDel t k

/-- Whether `k` is in the set. -/
def setHas : List Nat → Nat → Bool
  | [], _ => false
  | j :: t, k => decide (k = j) || setHas t k

/-- The numbers `lo`, `lo + 1`, …, `n` of them. -/
def upFrom (lo : Nat) : Nat → List Nat
  | 0 => []
  | n + 1 => lo :: upFrom (lo + 1) n

/-- The word whose bit `j` is `f j`, for j from 0 to 31. -/
def bitmapWord (f : Nat → Bool) : Word :=
  w32 ((upFrom 0 32).foldl (fun acc j => acc + if f j then 2 ^ j else 0) 0)

/-- The word whose bit `j` says that `base + j` is in the set: only the members are visited. -/
def setWord (base : Nat) (l : List Nat) : Word :=
  w32 (l.foldl (fun acc k => acc + if base ≤ k ∧ k < base + 32 then 2 ^ (k - base) else 0) 0)

end Sys2Proof.Machine
end

