-- ==== Sys2Proof/Machine/PartsCore.lean ====
section
/-! DEFINITION. The parts of the state behind the register pages: cores and their watchdogs, boot and one-time memory, the power
path, clocks and resets, and the answer of an access. -/

namespace Sys2Proof.Machine

/-- What the last access of an agent or of XBR to the node-local map answered: a status of R310 and the data in address order. -/
structure Reply where
  status : Nat
  data : List Byte
deriving DecidableEq, Repr

def Reply.init : Reply := ⟨0, []⟩

/-- A core's own registers and working state: 0 the steward, 1–4 AC0–AC3 (R441–R445). -/
structure CoreSt where
  /-- MWINCTL and MWINBASE of windows 0–7 -/
  winCtl : Tab Word
  winBase : Tab Word
  /-- MBUSERR, MBUSADDR_LO and MBUSADDR_HI -/
  busErr : Word
  busAddrLo : Word
  busAddrHi : Word
  /-- TCLK count at which the watchdog was last restarted, while it counts, and whether its warning has fired -/
  wdt : Option Nat
  warned : Bool
  /-- halted by a miscompare or a watchdog since this TCLK count; TCLK counts of its faults within the last hour, and of its last
  release -/
  haltedAt : Option Nat
  faults : List Nat
  runAt : Option Nat
  /-- the LEASE.FAULT bits that its faults set and that are not yet cleared -/
  faultBits : List Nat
deriving DecidableEq, Repr

def CoreSt.init : CoreSt := ⟨[], [], 0, 0, 0, none, false, none, [], none, []⟩

/-- OTP as far as commands change it: revoked key slots, rollback fuses blown, JTAG fuses blown (R453, R464, R466). -/
structure OtpSt where
  revoked : BitVec 8
  rollback : Nat
  fuses : BitVec 3
deriving DecidableEq, Repr

/-- Its state at reset. DESIGN CHOICE: log entry 5. -/
def OtpSt.init : OtpSt := ⟨0, 0, 0⟩

/-- A feed (R468, R469): its mark 0 in use, 1 UV, 2 OV; its voltage in mV as last measured; its ideal-diode gate; whether it is
turned off by reverse current; the TCLK counts since which it has been below UV, and in range. -/
structure FeedSt where
  mark : Nat
  mv : Nat
  gate : Bool
  reverse : Bool
  lowAt : Option Nat
  rangeAt : Option Nat
deriving DecidableEq, Repr

/-- Its state at reset. DESIGN CHOICE: log entry 4. -/
def FeedSt.init : FeedSt := ⟨1, 0, false, false, some 0, none⟩

/-- A record kept to be posted later, as in the power-path die's always-on queue (R484). -/
structure PowRec where
  irq : Option Nat
  ty : Nat
  page : Nat
  flags : Nat
  time : TimePoint
  quality : Nat
  w4 : Word
  w5 : Word
  w6 : Word
  w7 : Word
deriving DecidableEq, Repr

/-- What boot and the keeper hold beside the flash (R455–R461). -/
structure BootSt where
  /-- the start of R456 has run since the last reset of the steward -/
  started : Bool
  /-- COMMIT has been given for the keeper image and for a field image -/
  keeperPassed : Bool
  fieldPassed : Bool
  /-- TCLK count at which a trial of the field image began to run -/
  trialAt : Option Nat
  /-- the start waits for MIGRATE_DONE -/
  migrating : Bool
  /-- rules, drill entries and windows marked ARM in the records applied: mailbox page and number -/
  arms : List (Nat × Nat)
  /-- the pending area is open, and its content bytes written so far -/
  pendOpen : Bool
  pend : Tab Byte
  /-- records of the start, posted at its end -/
  posts : List PowRec
deriving DecidableEq, Repr

def BootSt.init : BootSt := ⟨false, false, false, none, false, [], false, [], []⟩

/-- The power-path die (R467–R489) but for its registers. -/
structure PwrSt where
  /-- HS_STATE: 0 UNSEATED, 1 SEATING, 2 WAITING, 3 RAMPING, 4 ON, 5 LATCHED -/
  hs : Nat
  gate : Bool
  /-- TCLK count at which the present state was entered, and of the last seat loss with the state before it (R479) -/
  hsAt : Nat
  lossAt : Option (Nat × Nat)
  held : Bool
  /-- a dying gasp runs, begun at this TCLK count -/
  dying : Bool
  dyingAt : Nat
  seatA : Bool
  seatB : Bool
  /-- TCLK counts of the last changes of SEAT_A and SEAT_B -/
  seatAAt : Nat
  seatBAt : Nat
  seated : Bool
  /-- the card was unseated from ON, and its dying gasp has not begun (R480) -/
  unseatedOn : Bool
  feedA : FeedSt
  feedB : FeedSt
  /-- VDD_AO has been lost since the card was last seated -/
  aoLost : Bool
  retry : Nat
  /-- the retry timer while it runs: ms loaded, and the TCLK count at the load -/
  timer : Option (Nat × Nat)
  /-- ΔT in °C, and TS in 1/8 °C while the sensor's reading is in range (R474, R475); TG in 1/8 °C as TEMPS shows it; TCLK counts of
  the model's last step and of the last measurement -/
  rise : Rat
  ts : Option Int
  tg : Int
  modelAt : Nat
  tsAt : Nat
  /-- shunt in mV and VOUT in mV as last measured -/
  shunt : Nat
  vout : Nat
  /-- TCLK counts since which VOUT has been within 250 mV of VBUS while RAMPING, and since which the regulator has limited -/
  nearAt : Option Nat
  limAt : Option Nat
  queue : List PowRec
  overwrote : Bool
  /-- SEQ: enable outputs and power-good pins by rail, and SEQ_STATE 0 OFF, 1 RISING, 2 UP, 3 FALLING -/
  en : BitVec 8
  pg : BitVec 8
  seq : Nat
  /-- TCLK counts by rail: of its enable, and since which it has not shown power-good while enabled; the rails that have shown
  power-good since their enable; the counts at which every enabled rail had, and of the last step down -/
  enAt : Tab Nat
  badAt : Tab (Option Nat)
  shown : List Nat
  goodAt : Option Nat
  downAt : Option Nat
  /-- ADC: channel and TCLK count of the last conversion; consecutive conversions outside, and inside, of each channel's window; channels inside at their last conversion; channels
  that have been inside since their arming rail was enabled -/
  adcLast : Option (Nat × Nat)
  outs : Tab Nat
  ins : Tab Nat
  reached : List Nat
deriving DecidableEq, Repr

/-- The power-path die after VDD_AO has risen, with the reset values of its registers (R478). DESIGN CHOICE: log entry 4. -/
def PwrSt.init (now : Nat) : PwrSt :=
  { hs := 0, gate := false, hsAt := now, lossAt := none, held := false, dying := false, dyingAt := now, seatA := false, seatB := false,
    seatAAt := now, seatBAt := now, seated := false, unseatedOn := false, feedA := FeedSt.init, feedB := FeedSt.init, aoLost := true,
    retry := 0, timer := some (1000, now), rise := 65, ts := some 0, tg := 0, modelAt := now, tsAt := now, shunt := 0, vout := 0,
    nearAt := none, limAt := none, queue := [], overwrote := false, en := 0, pg := 0, seq := 0, enAt := [], badAt := [], shown := [],
    goodAt := none, downAt := none, adcLast := none, outs := [], ins := [], reached := [] }

/-- Clocks and resets (R496–R502): clocks that have failed (1 TCLK, 2 XT32, 3 REFCLK_SD, 4 PCIE_REFCLK), PLLs out of lock (0 system,
1 application, 2 DDR, 3 SerDes, 4 PCIe), and the cause of R501 that holds the hub die in reset. -/
structure ClkSt where
  failed : List Nat
  unlocked : List Nat
  hold : Option Nat
  reqErr : Bool
  /-- the QUAL_FAIL of a TCLK_FAIL or PLL_FAIL reset, posted after the restart (R504): check, item, the value at the failure
  and the quality summary there, and the value at the clear -/
  report : Option (Nat × Nat × Word × Nat × Word)
  /-- TCLK counts at which the failed clocks failed, and of the last entry to DORMANT -/
  failedAt : Tab Nat
  dormantAt : Nat
  /-- the straps have been sampled (R509) -/
  strapped : Bool
deriving DecidableEq, Repr

def ClkSt.init : ClkSt := ⟨[], [], none, false, none, [], 0, false⟩

end Sys2Proof.Machine
end

