-- ==== Sys2Proof/Machine/PartsField.lean ====
section
/-! DEFINITION. The parts of the state on the field side: line cells, tiles, counters, FIFOs, the lease and its link,
windows, the drill, the reflex table and signals. -/

namespace Sys2Proof.Machine

/-- A stamp (R84) waiting in a line cell or kept as the first of a loss: `rise` is its edge code, `order` its place among
the tile's qualified edges. -/
structure Stamp where
  time : TimePoint
  rise : Bool
  line : Nat
  unc : Nat
  quality : BitVec 4
  asleep : Bool
  seq : Nat
  order : Nat
deriving DecidableEq, Repr

/-- A raw transition inside its glitch filter (R77, R80): its new level, the moment at which it occurred in ns of the count of TCLK
edges, its stamp's values and F in ns. -/
structure FiltSt where
  level : Bool
  atNs : Nat
  time : TimePoint
  unc : Nat
  quality : BitVec 4
  filterNs : Nat
deriving DecidableEq, Repr

/-- A pulse on a latch: its level, and the time at which its width ends (R101, R103). -/
structure Pulse where
  level : Bool
  stop : TimePoint
deriving DecidableEq, Repr

/-- A line cell, in the always-on domain (R16, R77–R88, R103, R131–R140, R348). -/
structure LineCell where
  /-- raw pin level; the level before its last transition, and the moment of that transition in ns of the count of TCLK edges
  (R158) -/
  raw : Bool
  rawWas : Bool
  rawNs : Nat
  /-- the transition in the filter -/
  filt : Option FiltSt
  /-- with the TDC stopped, a qualified edge awaiting its stamp (R87) -/
  dormant : Option Bool
  /-- level after the filter: that of the last qualified transition -/
  qual : Bool
  /-- qualified level as delivered (LEVEL); held while blocked -/
  level : Bool
  /-- stamp, uncertainty and quality of the last qualified transition -/
  last : Option (TimePoint × Nat × BitVec 4)
  /-- qualified stamps awaiting transfer, oldest first, at most four (R88) -/
  queue : List Stamp
  /-- base level of the output latch, and a running pulse (R103) -/
  latch : Bool
  pulse : Option Pulse
  /-- the same for the command bit (R348) -/
  cmd : Bool
  cmdPulse : Option Pulse
  /-- in its safe state, and the level driven at entry (R139, R140) -/
  safe : Bool
  held : Bool
  rbFault : Bool
  /-- TCLK count since which the pin has differed from the driven level, and whether this difference has been reported (R137) -/
  differAt : Option Nat
  differTold : Bool
  /-- TCLK counts of the last qualified edge, and of the next drain tick (R134, R135) -/
  edgeAt : Nat
  leakAt : Nat
  /-- edge-rate bucket and chatter block (R135, R136) -/
  bucket : Nat
  blocked : Bool
  minFail : Bool
  maxFail : Bool
  rateFail : Bool
  idleFail : Bool
deriving DecidableEq, Repr

/-- A line cell after power-on of the always-on domain; the raw level of a pin nothing drives is taken as 0.
DESIGN CHOICE: log entry 4. -/
def LineCell.init : LineCell :=
  { raw := false, rawWas := false, rawNs := 0, filt := none, dormant := none, qual := false, level := false, last := none,
    queue := [], latch := false, pulse := none, cmd := false, cmdPulse := none, safe := false, held := false, rbFault := false,
    differAt := none, differTold := false, edgeAt := 0, leakAt := 0, bucket := 0, blocked := false, minFail := false, maxFail := false,
    rateFail := false, idleFail := false }

/-- A tile's fast clock (R127, R495). -/
inductive TileClk where
  | off
  | starting
  | running
deriving DecidableEq, Repr

/-- A tile (R86–R90, R125, R127). -/
structure TileSt where
  clk : TileClk
  /-- TCLK count at which the clock was started, or was last needed while it runs (R127, R495) -/
  clkAt : Nat
  /-- always-on: the bank's level as last seen, the TCLK count of its last change, and whether its check is failed -/
  bank : BankLevel
  bankAt : Nat
  bankFail : Bool
  /-- per-tile sequence of qualified stamped edges, modulo 4,096 -/
  seq : Nat
  /-- stamp buffer: oldest record, records held, next word of the oldest -/
  rd : Nat
  count : Nat
  word : Nat
  /-- pending loss marker: the first stamp lost and the count -/
  loss : Option (Stamp × Nat)
  underrun : Bool
  /-- tile edge up to which drive conflicts have been counted (R160) -/
  lossAt : Nat
deriving DecidableEq, Repr

/-- Its state at reset. DESIGN CHOICE: log entry 4. -/
def TileSt.init : TileSt := ⟨.off, 0, .inside, 0, false, 0, 0, 0, 0, none, false, 0⟩

/-- A channel's edge counter between captures (R142). -/
structure CtrSt where
  count : Nat
  first : TimePoint
  last : TimePoint
  /-- the last multiple of CAP_PERIOD captured, and the one that the forced step of the last TCLK edge passed over -/
  multiple : Option TimePoint
  skipped : Option TimePoint
deriving DecidableEq, Repr

def CtrSt.init : CtrSt := ⟨0, ⟨0, 0⟩, ⟨0, 0⟩, none, none⟩

/-- A packet in a FIFO, oldest first (R143–R152). For TX, `declared` is the header's length. -/
structure FifoPkt where
  /-- data words stored and data bytes delivered -/
  words : Nat
  bytes : Nat
  declared : Nat
  /-- header read by the consumer -/
  begun : Bool
  /-- words read, header included -/
  read : Nat
  /-- last word written -/
  complete : Bool
deriving DecidableEq, Repr

/-- A packet FIFO (R143–R153): its read position in words, the packets, and whether what arrives belongs to a packet already
ended or discarded. -/
structure FifoSt where
  rd : Nat
  pkts : List FifoPkt
  /-- words of a TX packet still to be discarded as they arrive -/
  skip : Nat
  /-- an RX packet that has been stopped, dropped or flushed is discarded to its end -/
  skipping : Bool
  lastRead : Word
  underrun : Bool
deriving DecidableEq, Repr

def FifoSt.init : FifoSt := ⟨0, [], 0, false, 0, false⟩

/-- The lease state (R342). -/
inductive LeaseState where
  | off
  | starting
  | follower
  | taking
  | holder
  | handing
deriving DecidableEq, Repr

/-- STATUS.STATE of the LEASE page. -/
def LeaseState.code : LeaseState → Nat
  | .off => 0
  | .starting => 1
  | .follower => 2
  | .taking => 3
  | .holder => 4
  | .handing => 5

/-- A handover agreed or requested (R355, R356): its time, whether this node was the holder, and the TCLK count at which the holder
released at T and began to wait for its check. -/
structure Handover where
  time : TimePoint
  wasHolder : Bool
  acted : Option Nat
deriving DecidableEq, Repr

/-- Lease and comparison (R340–R356). -/
structure LeaseSt where
  st : LeaseState
  /-- TCLK count at the entry to the state -/
  since : Nat
  /-- TCLK counts of the date of the latest renewal received (R343), and of the sending of the latest one (R344) -/
  renewAt : Nat
  sentAt : Nat
  ownOut : Bool
  /-- the OWN_OUT pin differs from its driven level (R340) -/
  ownPinDiffers : Bool
  /-- always on: the partner's OWN_OUT as seen, and the TCLK count at its last change -/
  peerOwn : Bool
  peerAt : Nat
  /-- the conflict while PEER_OWN stays high has been counted (R346) -/
  conflict : Bool
  /-- the partner's latest message used, and the TCLK count at its receipt -/
  partner : Option PlkMsg
  partnerAt : Nat
  /-- no renewal for the whole interval: a take waits for PEER_OWN low and fitness (R342, R343) -/
  expired : Bool
  /-- the cause LEASE_ACQUIRED will carry after TAKING: 0 START, 1 EXPIRY -/
  takeCause : Nat
  /-- a RELEASE was received, at this TCLK count, and PEER_OWN low is awaited (R342) -/
  releaseWait : Option Nat
  /-- HO_REQ sent, unanswered -/
  requested : Option TimePoint
  hand : Option Handover
  compareFail : Bool
  /-- lines that differ, each with the TCLK count since which it has without a break, and the count since which all agree (R349) -/
  diffs : List (Nat × Nat)
  agreeAt : Option Nat
  /-- TCLK count since which the conditions of a revertive return have been met (R355) -/
  revertAt : Option Nat
  ambiguous : Bool
  prefConflict : Bool
  cfgErr : Bool
deriving DecidableEq, Repr

/-- Its state at reset. DESIGN CHOICE: log entry 4. -/
def LeaseSt.init : LeaseSt :=
  { st := .off, since := 0, renewAt := 0, sentAt := 0, ownOut := false, ownPinDiffers := false, peerOwn := false, peerAt := 0,
    conflict := false, partner := none, partnerAt := 0, expired := false, takeCause := 0, releaseWait := none, requested := none,
    hand := none, compareFail := false, diffs := [], agreeAt := none, revertAt := none, ambiguous := false,
    prefConflict := false, cfgErr := false }

/-- The PLK link state (R336). -/
inductive PlkState where
  | disabled
  | aligning
  | up
  | hold
deriving DecidableEq, Repr

def PlkState.code : PlkState → Nat
  | .disabled => 0
  | .aligning => 1
  | .up => 2
  | .hold => 3

/-- PLK (R335–R339). -/
structure PlkSt where
  st : PlkState
  lane0 : Bool
  lane1 : Bool
  /-- consecutive good messages while ALIGNING -/
  good : Nat
  lastCause : Nat
  /-- sequence of the last message used, and of the next one sent -/
  rxSeq : Option (BitVec 16)
  txSeq : BitVec 16
  /-- the last exchanges' latencies in ns, at most 16 -/
  latency : List Nat
  /-- an ECHO is unanswered; the TCLK count of the last ECHO sent -/
  echoOut : Bool
  echoAt : Nat
  /-- TCLK counts at the last move into or out of UP, and at the entry to the state -/
  since : Nat
  stAt : Nat
  /-- TCLK counts of the last message that passed R338, and of those of the last 1 ms that failed it (R336) -/
  rxAt : Nat
  errs : List Nat
  /-- the last STATE sent: its TCLK count, flags and command vector (R337) -/
  stateAt : Nat
  stateWas : Option (BitVec 8 × BitVec 256)
  /-- messages sent -/
  tx : List PlkMsg
deriving DecidableEq, Repr

/-- Its state at reset. DESIGN CHOICE: log entry 4. -/
def PlkSt.init : PlkSt :=
  { st := .disabled, lane0 := false, lane1 := false, good := 0, lastCause := 0, rxSeq := none, txSeq := 0, latency := [],
    echoOut := false, echoAt := 0, since := 0, stAt := 0, rxAt := 0, errs := [], stateAt := 0, stateWas := none, tx := [] }

/-- A window of the WIN table (R91–R99): its loaded contents, whether it is armed, and its current instance's open time. -/
structure WinEnt where
  open_ : TimePoint
  length : Nat
  period : Nat
  ctrl : Word
  offset : Nat
  trigger : Word
  armed : Bool
  inst : Option TimePoint
deriving DecidableEq, Repr

/-- Its state at reset. DESIGN CHOICE: log entry 4. -/
def WinEnt.init : WinEnt := ⟨⟨0, 0⟩, 0, 0, 0, 0, 0, false, none⟩

/-- A subject edge awaiting classification (R94). -/
structure WinEdge where
  win : Nat
  line : Nat
  time : TimePoint
  unc : Nat
  quality : BitVec 4
deriving DecidableEq, Repr

/-- The state of a drill entry (R104, R105). -/
inductive DrillState where
  | empty
  | loaded
  | armed
  | done
deriving DecidableEq, Repr

def DrillState.code : DrillState → Nat
  | .empty => 0
  | .loaded => 1
  | .armed => 2
  | .done => 3

/-- A drill entry (R100, R104–R112): contents as loaded, and the launcher's state. -/
structure DrillEnt where
  st : DrillState
  hasTime : Bool
  hasAction : Bool
  sec : Word
  ns : Word
  period : Word
  count : Word
  action : Word
  p1 : Word
  p2 : Word
  p3 : Word
  /-- next target; repetitions consumed and fired since the last arming -/
  target : TimePoint
  consumed : Nat
  fired : Nat
  /-- the next target is on short notice (R119) -/
  short : Bool
  /-- the launch has been prepared (R113) -/
  prepared : Bool
  /-- late policy RUN: the target of the earliest missed repetition, to be fired in the first cycle reached (R121) -/
  run : Option TimePoint
deriving DecidableEq, Repr

/-- Its state at reset. DESIGN CHOICE: log entry 4. -/
def DrillEnt.init : DrillEnt :=
  ⟨.empty, false, false, 0, 0, 0, 0, 0, 0, 0, 0, ⟨0, 0⟩, 0, 0, false, false, none⟩

/-- A reflex rule (R188–R196): eight words of literals, four action words, and its state. -/
structure Rule where
  t0 : Word
  t1 : Word
  t2 : Word
  t3 : Word
  t4 : Word
  t5 : Word
  t6 : Word
  t7 : Word
  ctrl : Word
  lines : Word
  ops : Word
  targets : Word
  armed : Bool
  result : Bool
  /-- the latest change of its operands since its previous evaluation: operand and source time (R544) -/
  seen : Option (Nat × TimePoint)
  /-- queued by a WHILE_TRUE tick, with the tick's time (R195, R544); the TCLK count of the last tick, or at which the result became
  1 -/
  ticked : Option TimePoint
  tickAt : Nat
  /-- disarmed by an ECC error and not loaded again (R196) -/
  eccBar : Bool
deriving DecidableEq, Repr

/-- Its state at reset. DESIGN CHOICE: log entry 4. -/
def Rule.init : Rule := ⟨0, 0, 0, 0, 0, 0, 0, 0, 0, 0, 0, 0, false, false, none, none, 0, false⟩

/-- A publish slot (R209, R210): slot word and destination as loaded, value, quality and source time, and whether it has
been loaded. -/
structure PubSlot where
  loaded : Bool
  word : Word
  dest : Word
  value : Nat
  quality : Nat
  time : TimePoint
  timeQual : Nat
  /-- due at the next heartbeat scan: the TCLK count of its last sending (R213) -/
  sentAt : Nat
deriving DecidableEq, Repr

/-- Its state at reset. DESIGN CHOICE: log entry 4. -/
def PubSlot.init : PubSlot := ⟨false, 0xF0, 0, 0, 0, ⟨0, 0⟩, 0, 0⟩

/-- A publish slot written in a switch-clock cycle whose frame is not built yet (R210): the cycle, counted at 20 to a TCLK period; what the
slot held before the cycle; and whether a drill PUBLISH was among the writes. -/
structure PubOpen where
  slot : Nat
  cycle : Nat
  value : Nat
  quality : Nat
  time : TimePoint
  timeQual : Nat
  force : Bool
deriving DecidableEq, Repr

/-- The evaluator's last cycle (R192): its number, the rules taken in it, and whether from the express queue. -/
structure EvalSt where
  cycle : Nat
  count : Nat
  express : Bool
deriving DecidableEq, Repr

def EvalSt.init : EvalSt := ⟨0, 0, false⟩

/-- A subscription entry (R214–R218). -/
structure SubEnt where
  id : Nat
  word : Word
  value : Nat
  quality : Nat
  time : TimePoint
  timeQual : Nat
  /-- a record has been applied since the entry was loaded -/
  reached : Bool
  /-- value its operand bits last showed -/
  shown : Nat
  count : Nat
  dirty : Bool
  /-- HB code of the last record, and the time and TCLK count of its receipt -/
  hb : Nat
  receipt : TimePoint
  heardAt : Nat
deriving DecidableEq, Repr

/-- Its state at reset. DESIGN CHOICE: log entry 4. -/
def SubEnt.init : SubEnt := ⟨0, 0x1FF00, 0, 0, ⟨0, 0⟩, 0, false, 0, 0, false, 15, ⟨0, 0⟩, 0⟩

end Sys2Proof.Machine
end

