-- ==== Sys2Proof/Machine/PartsIo.lean ====
section
/-! DEFINITION. Further parts of the state: PTP and the local time sources, and the serial functions of a channel. -/

namespace Sys2Proof.Machine

/-- What a PTP master's latest Announce says (R69): the dataset that the best master clock algorithm compares, the port it came
by, and the UTC word as PTP.UTC shows it. -/
structure PtpMaster where
  source : Nat
  port : Nat
  prio1 : Nat
  cls : Nat
  accuracy : Nat
  variance : Nat
  prio2 : Nat
  gm : Nat
  steps : Nat
  utc : Word
  /-- TCLK counts of its Announce messages of the last 4 s, newest first -/
  heard : List Nat
deriving DecidableEq, Repr

/-- A Pdelay_Resp of the neighbour (R67): its sequence, the time at which the request came there, the time at which it came here, and
its correctionField in 2^−16 ns. -/
structure PdelayResp where
  seq : Nat
  t2 : TimePoint
  t4 : TimePoint
  cf : Int
deriving DecidableEq, Repr

/-- PTP (R65–R70). -/
structure PtpSt where
  masters : List PtpMaster
  /-- the clockIdentity of the chosen master and the port it is heard on; none where the node follows no master -/
  parent : Option (Nat × Nat)
  /-- the chosen master is lost (R70) -/
  lost : Bool
  annTimeouts : Nat
  /-- time of the last servo update from PTP -/
  lastGood : TimePoint
  /-- a two-step Sync whose Follow_Up is awaited (R65): its sequence, receive time and correctionField -/
  twoStep : Option (Nat × TimePoint × Int)
  syncSeq : BitVec 16
  annSeq : BitVec 16
  pdelaySeq : BitVec 16
  /-- ports whose Pdelay_Req is unanswered, and the last delays measured on each port in 2^−8 ns, newest first -/
  asked : List Nat
  delays : Tab (List Int)
  /-- by port: when its last Pdelay_Req and its last Pdelay_Resp were sent, and the Pdelay_Resp whose Follow_Up is awaited -/
  txReq : Tab TimePoint
  txResp : Tab TimePoint
  resps : Tab (Option PdelayResp)
  /-- TCLK counts of the last Sync, Announce and Pdelay_Req sendings -/
  syncAt : Option Nat
  annAt : Option Nat
  pdelayAt : Option Nat
  /-- TCLK counts from which the Sync timeout and the Announce receipt timeout run (R70) -/
  heardSync : Nat
  heardAnn : Nat
  /-- offsets in a row within LOCK_THRESH (R57) -/
  inRow : Nat
deriving DecidableEq, Repr

/-- Its state at reset. DESIGN CHOICE: log entry 4. -/
def PtpSt.init : PtpSt := ⟨[], none, false, 0, ⟨0, 0⟩, none, 0, 0, 0, [], [], [], [], [], none, none, none, 0, 0, 0⟩

/-- A local time source (R71, R72): channels 0–63, and 64 for PPS_IN. -/
structure LocalSrc where
  /-- stamp of the last qualified pulse since the source was last lost -/
  last : Option TimePoint
  /-- time of the last good update -/
  good : TimePoint
  /-- time of the last good IRIG-B frame in PTP seconds, and consecutive good frames, up to 2 -/
  irig : Option Nat
  run : Nat
  /-- failing pulses in a row since the last that qualified (R71) -/
  fails : Nat
  /-- stamp of the last good IRIG-B frame, and the TCLK count of the last usable one (R72) -/
  irigAt : TimePoint
  usedAt : Nat
deriving DecidableEq, Repr

def LocalSrc.init : LocalSrc := ⟨none, ⟨0, 0⟩, none, 0, 0, ⟨0, 0⟩, 0⟩

/-- What an I2C function puts on its bus (R387, R389): a start or repeated START, an address of 7 or 10 bits with its direction, bytes
written and read, a STOP, and the nine SCL pulses of BUS_CLEAR. -/
inductive I2cItem where
  | start
  | restart
  | address (a : Nat) (ten read : Bool)
  | wrote (b : Byte)
  | got (b : Byte)
  | stop
  | pulses
deriving DecidableEq, Repr

/-- A channel's serial function (R380–R392). -/
structure SerSt where
  /-- bytes received that do not yet fill a data word -/
  part : List Byte
  /-- bytes of the open RX packet -/
  count : Nat
  /-- a TX packet or transaction is being carried out -/
  busy : Bool
  /-- TCLK count at its start; and that at which the last one ended, where one has: the last stop bit (UART), the release of CS (SPI), the
  STOP (I2C) -/
  startAt : Nat
  endAt : Option Nat
  /-- TCLK count at the end of the last character received (UART) -/
  rxAt : Option Nat
  /-- TCLK count at which the oldest TX packet became ready (I2C) -/
  wantAt : Nat
  /-- CS asserted (SPI) -/
  cs : Bool
  /-- flags of the transaction's header: NO_RX and KEEP_CS, RD_LEN, NO_STOP -/
  header : Word
  /-- I2C: a NO_STOP chain runs; a BUS_CLEAR waits -/
  chain : Bool
  clearWaits : Bool
  /-- PPS_OUT drives its active level since a TCLK count -/
  pulse : Option Nat
  /-- what the function has sent, transaction by transaction -/
  sent : List (List Byte)
  /-- what the function has put on its I2C bus -/
  bus : List I2cItem
deriving DecidableEq, Repr

def SerSt.init : SerSt := ⟨[], 0, false, 0, none, none, 0, false, 0, false, false, none, [], []⟩

/-- A CAN frame being sent: the mailbox, or 32 for the FIFO, and its start of frame (R368, R375). -/
structure CanTx where
  who : Nat
  sof : TimePoint
deriving DecidableEq, Repr

/-- A CAN FD controller but for its registers (R364–R377). STATE is coded as the page shows it. -/
structure CanSt where
  st : Nat
  /-- the state that PROTOCOL_EXCEPTION left -/
  left : Nat
  tec : Nat
  rec_ : Nat
  sending : Option CanTx
  /-- attempts that ended in an error, by mailbox, 32 for the FIFO's oldest packet -/
  tries : Tab Nat
  ackErrs : Nat
  alone : Bool
  lastFail : Bool
  lastCancel : Bool
deriving DecidableEq, Repr

/-- Its state at reset. DESIGN CHOICE: log entry 4. -/
def CanSt.init : CanSt := ⟨0, 2, 0, 0, none, [], 0, false, false, false⟩

end Sys2Proof.Machine
end

