-- ==== Sys2Proof/Machine/PartsNet.lean ====
section
/-! DEFINITION. The parts of the state on the fabric side: links, the switch and its buffer, the ring and its couplers. -/

namespace Sys2Proof.Machine

/-- A fabric port's link (R227, R228). STATE is coded as the page shows it: 0 DISABLED, 1 TRAINING, 2 LOCKING, 3 CHECKING,
4 UP, 5 HOLD. -/
structure LinkSt where
  st : Nat
  lastCause : Nat
  fecActive : Bool
  rxRf : Bool
  rxLf : Bool
  hiBer : Bool
  blockLock : Bool
  signal : Bool
  /-- TCLK count at the last move into or out of UP -/
  since : Nat
  /-- TCLK counts of the frames of the last 1 ms that failed checks 0x0401–0x0403 (R256) -/
  errs : List Nat
  /-- TCLK count at the entry to the state -/
  stAt : Nat
deriving DecidableEq, Repr

/-- Its state at reset. DESIGN CHOICE: log entry 4. -/
def LinkSt.init : LinkSt := ⟨0, 0, false, false, false, false, false, false, 0, [], 0⟩

/-- Where a queued frame's cells are (R297): on chip, on chip awaiting migration, in the overflow store, or read back into
the staging area. -/
inductive Place where
  | chip
  | marked
  | stored
  | staged
deriving DecidableEq, Repr

/-- A frame queued at an egress port: its bytes without the FCS, class, cells, and place. `native` frames carry an Afyfa
header; a raw one does not. -/
structure QFrame where
  bytes : List Byte
  cls : Nat
  cells : Nat
  place : Place
  native : Bool
  /-- a mirror copy is never itself mirrored (R294) -/
  mirror : Bool
  /-- the port of ingress, 0–7 -/
  ingress : Nat
  /-- receive time of a type 0x06 frame at the end of its start-of-frame delimiter (R66) -/
  rxTime : Option TimePoint
  /-- a mirror copy taken while its original is being sent: 2 × port, + 1 for an express frame (R294) -/
  txOf : Option Nat
  /-- it is stomped when it is sent, as its original was (R294) -/
  stomp : Bool
deriving DecidableEq, Repr

/-- What a switch port is sending (R250, R283): a frame of classes 0–5, and an express frame that goes alone or has preempted
it. -/
structure Sending where
  normal : Option QFrame
  express : Option QFrame
  /-- the preemptable frame is paused -/
  paused : Bool
deriving DecidableEq, Repr

def Sending.init : Sending := ⟨none, none, false⟩

/-- Deficit round robin of a port over classes 4–0 (R283). -/
structure Drr where
  /-- the class whose turn it is, 4 down to 0 -/
  turn : Nat
  /-- its quantum for this round has been added -/
  given : Bool
  deficits : Tab Nat
deriving DecidableEq, Repr

def Drr.init : Drr := ⟨4, false, []⟩

/-- A further copy waiting for core write time (R291, R292, R294): its frame, egress port, the mirror session it is of, and the TCLK
count since which it waits. -/
structure PendingCopy where
  frame : QFrame
  port : Nat
  session : Option Nat
  since : Nat
deriving DecidableEq, Repr

/-- Push-outs and drops at an egress port since its last PUSHOUT, the TCLK count of that record, and the time and quality summary of
the first of them (R43, R288). -/
structure PushSt where
  last : Option Nat
  evicted : Nat
  dropped : Nat
  lastOut : Nat
  lastIn : Nat
  time : TimePoint
  quality : Nat
deriving DecidableEq, Repr

def PushSt.init : PushSt := ⟨none, 0, 0, 0, 0, ⟨0, 0⟩, 0⟩

/-- A window of the duplicate table (R243): H and the marks of H − 255 … H, bit j for H − j. -/
structure DupWin where
  high : BitVec 16
  marks : BitVec 256
deriving DecidableEq, Repr

/-- An entry of the duplicate or headland table (R243–R246). `order` grows with every acceptance; `seen` is the TCLK count of the
last one. -/
structure DupEnt where
  wins : Tab (Option DupWin)
  aged : Bool
  order : Nat
  seen : Nat
deriving DecidableEq, Repr

/-- A table of duplicate windows by source node, and the acceptance count. -/
structure DupTab where
  ents : Tab (Option DupEnt)
  order : Nat
deriving DecidableEq, Repr

def DupTab.init : DupTab := ⟨[], 0⟩

/-- A frame delivered to a block, with its port of arrival and the time at which its last byte was checked. -/
structure Delivered where
  port : Nat
  bytes : List Byte
  time : TimePoint
deriving DecidableEq, Repr

/-- Links, switch and buffer (R223–R302). -/
structure NetSt where
  links : Tab LinkSt
  /-- source sequence counters, one per class (R237) -/
  seqs : Tab Nat
  /-- TCLK count at which the 12 ms after a reset of the fast-path domain began, while they last (R242) -/
  quiet : Option Nat
  /-- queues by 8 × port + class, head first -/
  queues : Tab (List QFrame)
  sending : Tab Sending
  drr : Tab Drr
  copies : List PendingCopy
  push : Tab PushSt
  spilling : Bool
  spillSince : Nat
  spillMoved : Nat
  storeFull : Bool
  bufCfgErr : Bool
  dup : DupTab
  headland : DupTab
  /-- HSR and PRP duplicate entries: source address, sequence, and TCLK count of acceptance (R274) -/
  hsr : List (Nat × Nat × Nat)
  prp : List (Nat × Nat × Nat)
  hsrSeq : BitVec 16
  prpSeq : BitVec 16
  /-- frames delivered and not yet taken: to XBR, EVQ, PTP, RING, SIG, and tunnelled or plain frames to the host and CPU -/
  toXbr : List Delivered
  toEvq : List Delivered
  toTime : List Delivered
  toRing : List Delivered
  toSig : List Delivered
  toHost : List Delivered
  toCpu : List Delivered
deriving DecidableEq, Repr

def NetSt.init : NetSt :=
  ⟨[], [], none, [], [], [], [], [], false, 0, 0, false, false, DupTab.init, DupTab.init, [], [], 0, 0,
    [], [], [], [], [], [], []⟩

/-- The state of one ring of the node (R258–R265): its home ring, or the far ring of a coupler. -/
structure RingSide where
  /-- ring state: 0 OPEN, 1 CLOSED, 2 BROKEN -/
  st : Nat
  active : Bool
  idPending : Bool
  withdrawn : Bool
  id : BitVec 16
  /-- TCLK count of the write that made the ID pending (R259) -/
  pendAt : Nat
  /-- TCLK count of the last own SUPERVISION frame -/
  sentAt : Option Nat
  /-- own SUPERVISION frame outstanding: copies returned on FP0 (West) and FP1 (East), or FP2 and FP3 -/
  sent : Bool
  sentSeq : Nat
  backWest : Bool
  backEast : Bool
  /-- consecutive frames with both copies back, and consecutive frames with a copy missing -/
  good : Nat
  missed : Nat
  /-- TCLK count since which the ring has not been CLOSED -/
  since : Nat
deriving DecidableEq, Repr

def RingSide.init : RingSide := ⟨0, false, false, false, 0, 0, none, false, 0, false, false, 0, 0, 0⟩

/-- RING (R258–R276). -/
structure RingSt where
  home : RingSide
  far : RingSide
  /-- ports with no NEIGHBOUR frame for 3 ms -/
  silent : List Nat
  /-- ports whose break has been reported -/
  broken : List Nat
  stations : List Nat
  /-- TCLK counts of the last SUPERVISION frame of each station, and of the last NEIGHBOUR frame of each port -/
  stationAt : Tab Nat
  heardAt : Tab Nat
  /-- TCLK counts of the last NEIGHBOUR frames and of the last HSR or PRP supervision frames sent -/
  neighbourAt : Option Nat
  lifeAt : Option Nat
  /-- sides as last reported by COUPLER_STATE -/
  sides : Nat
  /-- EUI-64s whose conflict with the home ID, and with the far ID, has been reported since that ID was last written valid -/
  conflicts : List Nat
  farConflicts : List Nat
deriving DecidableEq, Repr

def RingSt.init : RingSt := ⟨RingSide.init, RingSide.init, [], [], [], [], [], none, none, 0, [], []⟩

end Sys2Proof.Machine
end

