-- ==== Sys2Proof/Machine/PartsSys.lean ====
section
/-! DEFINITION. Further parts of the state: power states, tine engines and start events. -/

namespace Sys2Proof.Machine

/-- The power state of the node (R499), and whether the hub die is held in reset or without power (R493, R501). -/
inductive PowerState where
  | active
  | fallow
  | dormant
  | off
  | held
deriving DecidableEq, Repr

/-- The DRILL_DONE of a LINE_PULSE, posted when its pulse ends (spec/05, point-on-wave table): the line, word 0 flags, time and
quality summary, and payload. -/
structure PulseDone where
  line : Nat
  flags : Nat
  time : TimePoint
  quality : Nat
  w4 : Word
  w5 : Word
  w6 : Word
  w7 : Word
deriving DecidableEq, Repr

/-- A wait of an engine (R167): its kind 0–4, and whether it has been tested before. -/
structure EngWait where
  kind : Nat
  tested : Bool
deriving DecidableEq, Repr

/-- What remains of an engine instruction that executed at WRAP_TOP with a commit pending: the swap (R178). -/
inductive EngNext where
  | run
  | swap
deriving DecidableEq, Repr

/-- A tine engine (R155–R184) but for the registers software writes. -/
structure EngSt where
  /-- 0 IDLE, 1 RUNNING, 2 HALTED -/
  st : Nat
  pc : Nat
  cause : Nat
  bank : Bool
  isr : Word
  osr : Word
  isrN : Nat
  osrN : Nat
  x : BitVec 16
  y : BitVec 16
  c0 : BitVec 16
  c1 : BitVec 16
  flags : BitVec 4
  /-- drive: enables and values of the eight slots -/
  oe : BitVec 8
  val : BitVec 8
  /-- the mark in force, loaded from and shown by ENG_MARK_SEC and ENG_MARK_NS (R168) -/
  mark : TimePoint
  timeLate : Bool
  segConflict : Bool
  copyBusy : Bool
  partialShift : Bool
  commitPend : Bool
  partialIsr : Nat
  partialOsr : Nat
  wait : Option EngWait
  stalled : Bool
  next : EngNext
  /-- A in 1/256 tile cycles at tile edge number `edge` (R162, R163): before D is taken away where that edge is an engine cycle after a
  restart, otherwise after. Tile edges are numbered from the TCLK count, 20 in a period. -/
  acc : Nat
  edge : Nat
  /-- engine cycles to come until the one in which the next instruction executes or a wait or stall is next tested (R164) -/
  left : Nat
  /-- the tile edge on which a start event last acted (R182) -/
  startedAt : Option Nat
  /-- the tile edge at which COPY_ACTIVE was written (R175) -/
  copyAt : Nat
  /-- the engine's tile clock has been prepared for its mark (R168) -/
  prepared : Bool
deriving DecidableEq, Repr

/-- The engine at position j of a tile after reset: ENTRY is 128j. DESIGN CHOICE: log entry 4. -/
def EngSt.init (j : Nat) : EngSt :=
  ⟨0, 128 * j, 0, false, 0, 0, 0, 0, 0, 0, 0, 0, 0, 0, 0, ⟨0, 0⟩, false, false, false, false, false, 0, 0, none, false,
    .run, 256, 0, 1, none, 0, false⟩

/-- A start event that has not yet acted (R180): the engines named, bit n for CHn, and the target of its edge where it has
one. -/
structure StartEvt where
  engines : BitVec 64
  target : Option TimePoint
  /-- the tile edge at which the event came -/
  since : Nat
deriving DecidableEq, Repr

end Sys2Proof.Machine
end

