-- ==== Sys2Proof/Machine/PartsXbr.lean ====
section
/-! DEFINITION. Further parts of the state: the transaction bridge, the host port and DMA. -/

namespace Sys2Proof.Machine

/-- A place in a stream: its epoch and OSEQ (R311). -/
structure StreamPos where
  epoch : Nat
  oseq : Nat
deriving DecidableEq, Repr

/-- A request as a requester's unit handed it over: with local rights for a host access to BAR0 (R396), and the unit's own
number for the access. -/
structure XPend where
  req : XReq
  rights : Bool
  user : Nat
deriving DecidableEq, Repr

/-- An open request (R303–R305, R323, R326): what was asked, where it was last sent in its stream, the BUSY answers so far,
whether its backoff runs; the fabric times of its first sending, of the last one and of the last BUSY answer. -/
structure OpenReq where
  pend : XPend
  cls : Nat
  sent : Option StreamPos
  busy : Nat
  backoff : Bool
  firstAt : Option TimePoint
  sentAt : Option TimePoint
  busyAt : TimePoint
deriving DecidableEq, Repr

/-- A tag (R304). -/
structure TagSt where
  epoch : Nat
  holder : Option OpenReq
deriving DecidableEq, Repr

def TagSt.init : TagSt := ⟨0, none⟩

/-- An initiator's stream entry (R311): its epoch, the frames sent in it, the fabric time of the last one, and whether it may be
replaced. -/
structure Stream where
  epoch : Nat
  count : Nat
  usedAt : TimePoint
  replaceable : Bool
deriving DecidableEq, Repr

/-- A transaction frame to be sent in its stream (R308, R309): byte 0, code, tag word, RETRY, byte 7 of a posted frame, address,
length field and data; the earlier frame it stands in for; the open tag or the cache entry whose sending it is. -/
structure XFrame where
  dst : Nat
  cls : Nat
  type : Nat
  b0 : Nat
  code : Nat
  tag : Nat
  retry : Bool
  b7 : Nat
  addr : Nat
  len : Nat
  data : List Byte
  earlier : Option StreamPos
  cached : Bool
deriving DecidableEq, Repr

/-- A transaction frame as received: class, type and payload (R308, R309). -/
structure XRecv where
  cls : Nat
  type : Nat
  body : List Byte
deriving DecidableEq, Repr

/-- A place of a stream that has arrived out of order, by OSEQ: the frame held, none where nothing is left to release; and the
fabric time of its arrival (R312–R314). -/
structure HeldPlace where
  place : Nat
  frame : Option XRecv
  since : TimePoint
deriving DecidableEq, Repr

/-- A source's entry of the order table (R312): the places that have arrived out of order, the fabric time of the last frame,
and whether the entry has aged. -/
structure Order where
  epoch : Nat
  next : Nat
  held : List HeldPlace
  lastAt : TimePoint
  aged : Bool
deriving DecidableEq, Repr

/-- A released request that waits for execution (R319), and the posted frames and completions released by then. -/
structure InReq where
  source : Nat
  cls : Nat
  body : List Byte
  loop : Bool
  rights : Bool
  mark : Nat
deriving DecidableEq, Repr

/-- A released posted write, MESSAGE or DISCARD (R317): the posted frames and completions released before it, and whether it is
being executed by a block that stalls. -/
structure PostReq where
  source : Nat
  body : List Byte
  rights : Bool
  mark : Nat
  begun : Bool
deriving DecidableEq, Repr

/-- A released completion, with the posted frames and completions released before it (R315). -/
structure ComplReq where
  source : Nat
  body : List Byte
  mark : Nat
deriving DecidableEq, Repr

/-- An entry of the completion cache (R324, R331); its hold runs from the fabric time `heldAt`. -/
structure CacheEnt where
  source : Nat
  cls : Nat
  code : Nat
  tag : Nat
  status : Nat
  rs : Bool
  addr : Nat
  data : List Byte
  first : Option StreamPos
  stranded : Bool
  loop : Bool
  heldAt : TimePoint
deriving DecidableEq, Repr

/-- A posted frame in the initiator's log (R327): its place in its stream is the epoch and the number of frames sent before it, whose
low 16 bits are OSEQ. -/
structure PostLog where
  dst : Nat
  epoch : Nat
  index : Nat
  code : Nat
  addr : Nat
  len : Nat
  op : Nat
deriving DecidableEq, Repr

/-- What a core or the steward receives for its request: code, its number, status (R310) and data. -/
structure XAnswer where
  code : Nat
  user : Nat
  status : Nat
  data : List Byte
deriving DecidableEq, Repr

/-- XBR (R303–R334). -/
structure XbrSt where
  tags : Tab TagSt
  stalled : List XPend
  streams : Tab (Option Stream)
  epochs : Nat
  waiting : List XFrame
  orders : Tab (Option Order)
  inq : List InReq
  posts : List PostReq
  /-- posted frames and completions released so far, to order the frames of a stream (R315) -/
  mark : Nat
  compl : List ComplReq
  cache : List CacheEnt
  log : List PostLog
  /-- by destination: epoch and index of the frame last dropped from the log -/
  evicted : Tab (Option (Nat × Nat))
  msgs : List (Word × Word)
  msgHalf : Bool
  msgUnderrun : Bool
  answers : List XAnswer
deriving DecidableEq, Repr

/-- Its state at reset. DESIGN CHOICE: log entry 4. -/
def XbrSt.init : XbrSt := ⟨[], [], [], 0, [], [], [], [], 0, [], [], [], [], [], false, false, []⟩

/-- A part of a host read: its fabric address, length, and its answer (status and data). -/
structure ReadPart where
  node : Nat
  addr : Nat
  len : Nat
  answer : Option (Nat × List Byte)
deriving DecidableEq, Repr

/-- An open host read (R400, R401). -/
structure HostRead where
  num : Nat
  parts : List ReadPart
  /-- bytes of the first and of the last part that were not asked for -/
  skip : Nat
  len : Nat
  /-- TCLK count at its arrival (R401) -/
  since : Nat
deriving DecidableEq, Repr

/-- The host port but for its registers (R393–R402). -/
structure HostSt where
  up : Bool
  speed : Nat
  width : Nat
  perst : Bool
  /-- the port answers configuration requests with retry status (R394) -/
  retrying : Bool
  /-- TCLK count at the deassertion of PERST# -/
  perstAt : Nat
  busMaster : Bool
  d3 : Bool
  reads : List HostRead
  nextRead : Nat
  /-- host reads abandoned whose completions are still open -/
  abandoned : List Nat
deriving DecidableEq, Repr

/-- Its state at reset. DESIGN CHOICE: log entry 4. -/
def HostSt.init : HostSt := ⟨false, 0, 0, true, true, 0, false, false, [], 0, []⟩

/-- A DMA read in flight or done (R415): its offset in the descriptor, length, data, and the TCLK count at its issue. -/
structure DmaRead where
  off : Nat
  len : Nat
  data : Option (List Byte)
  since : Nat
deriving DecidableEq, Repr

/-- A DMA channel but for its registers (R413–R416). -/
structure DmaSt where
  /-- the descriptor being executed, words 0–5 -/
  desc : Option (List Word)
  /-- bytes whose reads were issued, and bytes whose writes were issued -/
  asked : Nat
  wrote : Nat
  /-- reads in address order, the oldest first -/
  reads : List DmaRead
  /-- non-posted writes open, with the address and length of each -/
  writes : List (Nat × Nat)
  /-- status and failing address -/
  fail : Option (Nat × Nat)
deriving DecidableEq, Repr

/-- Its state at reset. DESIGN CHOICE: log entry 4. -/
def DmaSt.init : DmaSt := ⟨none, 0, 0, [], [], none⟩

end Sys2Proof.Machine
end

