-- ==== Sys2Proof/Config.lean ====
section
/-! DEFINITION. What an implementation fixes and the values the spec leaves open.

Each is a constant without a body: nothing in Lean can find a value of it, so a statement about the model holds whatever
the value is. A free value that may differ from one use to the next is applied to the counter `freeTick` of the state,
which the step that uses it advances. -/

namespace Sys2Proof

/-- The OTP default of HOST.PCI_ID (R394; SEC indirect 0x208). DESIGN CHOICE: log entry 3. -/
opaque Config.otpPciId : Word

/-- The OTP default of HOST.VENDOR (SEC indirect 0x20C). DESIGN CHOICE: log entry 3. -/
opaque Config.otpVendor : Word

/-- The part's EUI-64 in OTP (SEC indirect 0x200; R261, R69). DESIGN CHOICE: log entry 3. -/
opaque Config.otpEui64 : Nat

/-- The key hash of OTP slot k as 48 bytes, most significant first (R8; SEC indirect 0x40 × k). DESIGN CHOICE: log entry 8. -/
opaque Config.otpKeyHash : Nat → Nat

/-- The flash device's SFDP by address (R456, R462). DESIGN CHOICE: log entry 8. -/
opaque Config.sfdp : Nat → Byte

/-- A free word, fresh at every count: used where the spec states that a value results but not which.
DESIGN CHOICE: log entry 8. -/
opaque Config.freeWord : Nat → Word

end Sys2Proof
end

