-- ==== Sys2Proof/Machine/Registers.lean ====
section
/-! DEFINITION. The register map: where each register of the spec's register tables lies, which of its bits software
writes (access codes of R9), and what it holds at reset (R12).

A register of a page is keyed by its node-local address (R24); a word of a page's indirect map (R35) by a key above the
node-local register region. A register or word that no row names reads 0 and ignores writes (R11, R36). -/

namespace Sys2Proof.Machine

/-- The blocks of the page table (R27). -/
inductive Block where
  | chip | rst | clk | pwr | seq | adc | stw | fwl | boot | sec | ospi | ddr | time | ptp | drl | win | rfx | sig | icu | icup | swc | buf | xbr | host | evq | dma | fp | plk | lease | ring | tile | ch | can
deriving DecidableEq, Repr

/-- The block of a page and its instance number, or none for an unassigned page (R27). -/
def pageBlock (p : Nat) : Option (Block × Nat) :=
  if p = 0x0 then some (.chip, 0) else
  if p = 0x1 then some (.rst, 0) else
  if p = 0x2 then some (.clk, 0) else
  if p = 0x3 then some (.pwr, 0) else
  if p = 0x4 then some (.seq, 0) else
  if p = 0x5 then some (.adc, 0) else
  if p = 0x6 then some (.stw, 0) else
  if p = 0x7 then some (.fwl, 0) else
  if p = 0x8 then some (.boot, 0) else
  if p = 0x9 then some (.sec, 0) else
  if p = 0xa then some (.ospi, 0) else
  if p = 0xb then some (.ddr, 0) else
  if p = 0x10 then some (.time, 0) else
  if p = 0x11 then some (.ptp, 0) else
  if p = 0x12 then some (.drl, 0) else
  if p = 0x13 then some (.win, 0) else
  if p = 0x14 then some (.rfx, 0) else
  if p = 0x15 then some (.sig, 0) else
  if p = 0x18 then some (.icu, 0) else
  if 0x19 ≤ p ∧ p < 0x1e then some (.icup, p - 0x19) else
  if p = 0x20 then some (.swc, 0) else
  if p = 0x21 then some (.buf, 0) else
  if p = 0x22 then some (.xbr, 0) else
  if p = 0x23 then some (.host, 0) else
  if p = 0x24 then some (.evq, 0) else
  if p = 0x25 then some (.dma, 0) else
  if 0x28 ≤ p ∧ p < 0x2c then some (.fp, p - 0x28) else
  if p = 0x2c then some (.plk, 0) else
  if p = 0x2d then some (.lease, 0) else
  if p = 0x2e then some (.ring, 0) else
  if 0x40 ≤ p ∧ p < 0x48 then some (.tile, p - 0x40) else
  if 0x80 ≤ p ∧ p < 0xc0 then some (.ch, p - 0x80) else
  if 0xc0 ≤ p ∧ p < 0xd0 then some (.can, p - 0xc0) else
  none

/-- The block type code: the first page number of the block (R27). -/
def typeCode : Block → Nat
  | .chip => 0x0
  | .rst => 0x1
  | .clk => 0x2
  | .pwr => 0x3
  | .seq => 0x4
  | .adc => 0x5
  | .stw => 0x6
  | .fwl => 0x7
  | .boot => 0x8
  | .sec => 0x9
  | .ospi => 0xa
  | .ddr => 0xb
  | .time => 0x10
  | .ptp => 0x11
  | .drl => 0x12
  | .win => 0x13
  | .rfx => 0x14
  | .sig => 0x15
  | .icu => 0x18
  | .icup => 0x19
  | .swc => 0x20
  | .buf => 0x21
  | .xbr => 0x22
  | .host => 0x23
  | .evq => 0x24
  | .dma => 0x25
  | .fp => 0x28
  | .plk => 0x2c
  | .lease => 0x2d
  | .ring => 0x2e
  | .tile => 0x40
  | .ch => 0x80
  | .can => 0xc0

/-- The bits of IRQ_PEND and IRQ_MASK that the block assigns. -/
def irqBits : Block → Nat
  | .chip => 0x0
  | .rst => 0x0
  | .clk => 0xf
  | .pwr => 0x7f
  | .seq => 0x1
  | .adc => 0x1
  | .stw => 0x3
  | .fwl => 0x1
  | .boot => 0x1f
  | .sec => 0x0
  | .ospi => 0x1
  | .ddr => 0x7
  | .time => 0x7
  | .ptp => 0x7
  | .drl => 0x7
  | .win => 0x3
  | .rfx => 0x3
  | .sig => 0x1f
  | .icu => 0x0
  | .icup => 0x0
  | .swc => 0x3
  | .buf => 0xf
  | .xbr => 0x3f
  | .host => 0x1f
  | .evq => 0xffffffff
  | .dma => 0xffff
  | .fp => 0x1f
  | .plk => 0x7
  | .lease => 0x3f
  | .ring => 0x1f
  | .tile => 0xf
  | .ch => 0x3fffff
  | .can => 0xff

/-- Whether the block defines mailbox commands: CAPS.MBX (R30). -/
def hasMbx : Block → Bool
  | .sec | .ospi | .time | .drl | .win | .rfx | .sig => true
  | .chip | .rst | .clk | .pwr | .seq | .adc | .stw | .fwl | .boot | .ddr | .ptp | .icu | .icup | .swc | .buf | .xbr | .host | .evq | .dma | .fp | .plk | .lease | .ring | .tile | .ch | .can => false

/-- Whether the block defines an indirect map: CAPS.IND (R30). -/
def hasInd : Block → Bool
  | .rst | .clk | .pwr | .boot | .sec | .drl | .sig | .fp | .ring | .tile | .ch | .can => true
  | .chip | .seq | .adc | .stw | .fwl | .ospi | .ddr | .time | .ptp | .win | .rfx | .icu | .icup | .swc | .buf | .xbr | .host | .evq | .dma | .plk | .lease => false

/-- The reset value of CTRL.EN: 1 (R30) but where the block's chapter gives 0 (R130, R227, R301, R336, R341,
R364). -/
def enReset (b : Block) (i : Nat) : Nat :=
  match b with
  | .ddr | .plk | .can | .lease | .ch => 0
  | .fp => if i < 2 then 1 else 0
  | _ => 1

/-- The key of a page's direct register: its node-local address (R24). -/
abbrev pageKey (page off : Nat) : Nat := page * 0x1000 + off

/-- The key of a word of a page's indirect map. -/
abbrev indKey (page addr : Nat) : Nat := 0x10000000000 + page * 0x1000000 + addr

abbrev Reg.timeCfg : Nat := pageKey 0x10 0x050
abbrev Reg.timeStepLimit : Nat := pageKey 0x10 0x054
abbrev Reg.timeLockThresh : Nat := pageKey 0x10 0x058
abbrev Reg.timeHoldLimit : Nat := pageKey 0x10 0x05c
abbrev Reg.timeUncGrowth : Nat := pageKey 0x10 0x060
abbrev Reg.timeTaiUtc : Nat := pageKey 0x10 0x064
abbrev Reg.timeRate : Nat := pageKey 0x10 0x068
abbrev Reg.timePendCorr : Nat := pageKey 0x10 0x06c
abbrev Reg.timeRefusedLo : Nat := pageKey 0x10 0x070
abbrev Reg.timeRefusedHi : Nat := pageKey 0x10 0x074
abbrev Reg.timeCntRefused : Nat := pageKey 0x10 0x078
abbrev Reg.timeCntStep : Nat := pageKey 0x10 0x07c
abbrev Reg.timeCntClr : Nat := pageKey 0x10 0x080
abbrev Reg.ptpCfg : Nat := pageKey 0x11 0x050
abbrev Reg.ptpPrio : Nat := pageKey 0x11 0x054
abbrev Reg.ptpGmSrc : Nat := pageKey 0x11 0x058
abbrev Reg.ptpPortCfg (n : Nat) : Nat := pageKey 0x11 (0x060 + 4 * n)
abbrev Reg.ptpAsym (n : Nat) : Nat := pageKey 0x11 (0x070 + 4 * n)
abbrev Reg.ptpPdelay (n : Nat) : Nat := pageKey 0x11 (0x080 + 4 * n)
abbrev Reg.ptpCurGmHi : Nat := pageKey 0x11 0x090
abbrev Reg.ptpCurGmLo : Nat := pageKey 0x11 0x094
abbrev Reg.ptpGmInfo : Nat := pageKey 0x11 0x098
abbrev Reg.ptpUtc : Nat := pageKey 0x11 0x09c
abbrev Reg.ptpClockIdHi : Nat := pageKey 0x11 0x0a0
abbrev Reg.ptpClockIdLo : Nat := pageKey 0x11 0x0a4
abbrev Reg.ptpCntSync : Nat := pageKey 0x11 0x0b0
abbrev Reg.ptpCntAnnounce : Nat := pageKey 0x11 0x0b4
abbrev Reg.ptpCntPdelayFail : Nat := pageKey 0x11 0x0b8
abbrev Reg.ptpCntBad : Nat := pageKey 0x11 0x0bc
abbrev Reg.ptpCntAnnTimeout : Nat := pageKey 0x11 0x0c0
abbrev Reg.ptpCntClr : Nat := pageKey 0x11 0x0c4
abbrev Reg.winSettle : Nat := pageKey 0x13 0x050
abbrev Reg.winCntResult : Nat := pageKey 0x13 0x054
abbrev Reg.winCntBoundary : Nat := pageKey 0x13 0x058
abbrev Reg.winCntRetrigIgn : Nat := pageKey 0x13 0x05c
abbrev Reg.winCntClr : Nat := pageKey 0x13 0x060
abbrev Reg.winState (n : Nat) : Nat := pageKey 0x13 (0x900 + 4 * n)
abbrev Reg.winArmed (n : Nat) : Nat := pageKey 0x13 (0x920 + 4 * n)
abbrev Reg.tileStampCfg (i : Nat) : Nat := pageKey (0x40 + i) 0x200
abbrev Reg.tileStampCount (i : Nat) : Nat := pageKey (0x40 + i) 0x204
abbrev Reg.tileCntStampLost (i : Nat) : Nat := pageKey (0x40 + i) 0x208
abbrev Reg.tileCntGlitch (i : Nat) : Nat := pageKey (0x40 + i) 0x20c
abbrev Reg.tileStampData (i : Nat) : Nat := pageKey (0x40 + i) 0x804
abbrev Reg.drlCntFired : Nat := pageKey 0x12 0x050
abbrev Reg.drlCntLateSkip : Nat := pageKey 0x12 0x054
abbrev Reg.drlCntLateRun : Nat := pageKey 0x12 0x058
abbrev Reg.drlCntUnlocked : Nat := pageKey 0x12 0x05c
abbrev Reg.drlCntRefused : Nat := pageKey 0x12 0x060
abbrev Reg.drlCntClr : Nat := pageKey 0x12 0x064
abbrev Reg.drlArmed (n : Nat) : Nat := pageKey 0x12 (0x900 + 4 * n)
abbrev Reg.drlDone (n : Nat) : Nat := pageKey 0x12 (0xb00 + 4 * n)
abbrev Reg.tileBankCfg (i : Nat) : Nat := pageKey (0x40 + i) 0x050
abbrev Reg.tileClkCfg (i : Nat) : Nat := pageKey (0x40 + i) 0x054
abbrev Reg.tileCntWake (i : Nat) : Nat := pageKey (0x40 + i) 0x058
abbrev Reg.tileCntBank (i : Nat) : Nat := pageKey (0x40 + i) 0x05c
abbrev Reg.tileCntClr (i : Nat) : Nat := pageKey (0x40 + i) 0x060
abbrev Reg.chFunc (i : Nat) : Nat := pageKey (0x80 + i) 0x050
abbrev Reg.chLineState (i : Nat) : Nat := pageKey (0x80 + i) 0x054
abbrev Reg.chOutSet (i : Nat) : Nat := pageKey (0x80 + i) 0x058
abbrev Reg.chOutClr (i : Nat) : Nat := pageKey (0x80 + i) 0x05c
abbrev Reg.chSafeCmd (i : Nat) : Nat := pageKey (0x80 + i) 0x060
abbrev Reg.chTxData (i : Nat) : Nat := pageKey (0x80 + i) 0x070
abbrev Reg.chRxCfg (i : Nat) : Nat := pageKey (0x80 + i) 0x080
abbrev Reg.chTxCfg (i : Nat) : Nat := pageKey (0x80 + i) 0x090
abbrev Reg.chRxCut (i : Nat) : Nat := pageKey (0x80 + i) 0x084
abbrev Reg.chTxCut (i : Nat) : Nat := pageKey (0x80 + i) 0x094
abbrev Reg.chRxStatus (i : Nat) : Nat := pageKey (0x80 + i) 0x088
abbrev Reg.chTxStatus (i : Nat) : Nat := pageKey (0x80 + i) 0x098
abbrev Reg.chRxCmd (i : Nat) : Nat := pageKey (0x80 + i) 0x08c
abbrev Reg.chTxCmd (i : Nat) : Nat := pageKey (0x80 + i) 0x09c
abbrev Reg.chCntRxRewind (i : Nat) : Nat := pageKey (0x80 + i) 0x0a0
abbrev Reg.chCntRxBad (i : Nat) : Nat := pageKey (0x80 + i) 0x0a4
abbrev Reg.chCntRxOverrun (i : Nat) : Nat := pageKey (0x80 + i) 0x0a8
abbrev Reg.chCntRxUnderrun (i : Nat) : Nat := pageKey (0x80 + i) 0x0ac
abbrev Reg.chCntRxDropped (i : Nat) : Nat := pageKey (0x80 + i) 0x0b0
abbrev Reg.chCntTxRewind (i : Nat) : Nat := pageKey (0x80 + i) 0x0b4
abbrev Reg.chCntTxBad (i : Nat) : Nat := pageKey (0x80 + i) 0x0b8
abbrev Reg.chCntTxOverrun (i : Nat) : Nat := pageKey (0x80 + i) 0x0bc
abbrev Reg.chCntTxUnderrun (i : Nat) : Nat := pageKey (0x80 + i) 0x0c0
abbrev Reg.chCntTxDropped (i : Nat) : Nat := pageKey (0x80 + i) 0x0c4
abbrev Reg.chCntMinWidth (i : Nat) : Nat := pageKey (0x80 + i) 0x0d0
abbrev Reg.chCntMaxWidth (i : Nat) : Nat := pageKey (0x80 + i) 0x0d4
abbrev Reg.chCntEdgeRate (i : Nat) : Nat := pageKey (0x80 + i) 0x0d8
abbrev Reg.chCntIdle (i : Nat) : Nat := pageKey (0x80 + i) 0x0dc
abbrev Reg.chCntReadback (i : Nat) : Nat := pageKey (0x80 + i) 0x0e0
abbrev Reg.chCntProtRefused (i : Nat) : Nat := pageKey (0x80 + i) 0x0e4
abbrev Reg.chCntClr (i : Nat) : Nat := pageKey (0x80 + i) 0x0e8
abbrev Reg.chCtrCfg (i : Nat) : Nat := pageKey (0x80 + i) 0x100
abbrev Reg.chCtrCount (i : Nat) : Nat := pageKey (0x80 + i) 0x104
abbrev Reg.chCtrCmd (i : Nat) : Nat := pageKey (0x80 + i) 0x108
abbrev Reg.chCtrCap (i : Nat) (n : Nat) : Nat := pageKey (0x80 + i) (0x110 + 4 * n)
abbrev Reg.chRxData (i : Nat) : Nat := pageKey (0x80 + i) 0x804
abbrev Reg.chLqCfg (i : Nat) (n : Nat) : Nat := indKey (0x80 + i) (0x000 + 0x20 * n)
abbrev Reg.chLqWidth (i : Nat) (n : Nat) : Nat := indKey (0x80 + i) (0x004 + 0x20 * n)
abbrev Reg.chLqIdle (i : Nat) (n : Nat) : Nat := indKey (0x80 + i) (0x008 + 0x20 * n)
abbrev Reg.chLout (i : Nat) (n : Nat) : Nat := indKey (0x80 + i) (0x00c + 0x20 * n)
abbrev Reg.chLqState (i : Nat) (n : Nat) : Nat := indKey (0x80 + i) (0x010 + 0x20 * n)
abbrev Reg.chEngCfg (i : Nat) : Nat := pageKey (0x80 + i) 0x400
abbrev Reg.chEngSeg (i : Nat) : Nat := pageKey (0x80 + i) 0x404
abbrev Reg.chEngWrap (i : Nat) : Nat := pageKey (0x80 + i) 0x408
abbrev Reg.chEngEntry (i : Nat) : Nat := pageKey (0x80 + i) 0x40c
abbrev Reg.chEngNext (i : Nat) : Nat := pageKey (0x80 + i) 0x410
abbrev Reg.chEngPinmap0 (i : Nat) : Nat := pageKey (0x80 + i) 0x414
abbrev Reg.chEngPinmap1 (i : Nat) : Nat := pageKey (0x80 + i) 0x418
abbrev Reg.chEngIobase (i : Nat) : Nat := pageKey (0x80 + i) 0x41c
abbrev Reg.chEngCmd (i : Nat) : Nat := pageKey (0x80 + i) 0x420
abbrev Reg.chEngStatus (i : Nat) : Nat := pageKey (0x80 + i) 0x424
abbrev Reg.chEngShift (i : Nat) : Nat := pageKey (0x80 + i) 0x428
abbrev Reg.chEngIsr (i : Nat) : Nat := pageKey (0x80 + i) 0x42c
abbrev Reg.chEngOsr (i : Nat) : Nat := pageKey (0x80 + i) 0x430
abbrev Reg.chEngXy (i : Nat) : Nat := pageKey (0x80 + i) 0x434
abbrev Reg.chEngCnt (i : Nat) : Nat := pageKey (0x80 + i) 0x438
abbrev Reg.chEngFlags (i : Nat) : Nat := pageKey (0x80 + i) 0x43c
abbrev Reg.chEngFlagSet (i : Nat) : Nat := pageKey (0x80 + i) 0x440
abbrev Reg.chEngFlagClr (i : Nat) : Nat := pageKey (0x80 + i) 0x444
abbrev Reg.chEngMarkSec (i : Nat) : Nat := pageKey (0x80 + i) 0x448
abbrev Reg.chEngMarkNs (i : Nat) : Nat := pageKey (0x80 + i) 0x44c
abbrev Reg.chEngMarkStep (i : Nat) : Nat := pageKey (0x80 + i) 0x450
abbrev Reg.chEngProgAddr (i : Nat) : Nat := pageKey (0x80 + i) 0x454
abbrev Reg.chEngProgData (i : Nat) : Nat := pageKey (0x80 + i) 0x458
abbrev Reg.chEngPartial (i : Nat) : Nat := pageKey (0x80 + i) 0x45c
abbrev Reg.chEngDrive (i : Nat) : Nat := pageKey (0x80 + i) 0x460
abbrev Reg.chCntEngStall (i : Nat) : Nat := pageKey (0x80 + i) 0x470
abbrev Reg.chCntProgRefused (i : Nat) : Nat := pageKey (0x80 + i) 0x474
abbrev Reg.chCntStartIgnored (i : Nat) : Nat := pageKey (0x80 + i) 0x478
abbrev Reg.chCntTimeLate (i : Nat) : Nat := pageKey (0x80 + i) 0x47c
abbrev Reg.chCntDriveConflict (i : Nat) : Nat := pageKey (0x80 + i) 0x480
abbrev Reg.chCntEngClr (i : Nat) : Nat := pageKey (0x80 + i) 0x484
abbrev Reg.tileGrpMaskLo (i : Nat) : Nat := pageKey (0x40 + i) 0x300
abbrev Reg.tileGrpMaskHi (i : Nat) : Nat := pageKey (0x40 + i) 0x304
abbrev Reg.tileGrpStart (i : Nat) : Nat := pageKey (0x40 + i) 0x308
abbrev Reg.rfxCfg : Nat := pageKey 0x14 0x050
abbrev Reg.rfxSwf : Nat := pageKey 0x14 0x054
abbrev Reg.rfxSwfSet : Nat := pageKey 0x14 0x058
abbrev Reg.rfxSwfClr : Nat := pageKey 0x14 0x05c
abbrev Reg.rfxCntEval : Nat := pageKey 0x14 0x060
abbrev Reg.rfxCntFired : Nat := pageKey 0x14 0x064
abbrev Reg.rfxCntRefused : Nat := pageKey 0x14 0x068
abbrev Reg.rfxQueuePeak : Nat := pageKey 0x14 0x06c
abbrev Reg.rfxCntClr : Nat := pageKey 0x14 0x070
abbrev Reg.rfxArmed (n : Nat) : Nat := pageKey 0x14 (0x900 + 4 * n)
abbrev Reg.rfxResult (n : Nat) : Nat := pageKey 0x14 (0x980 + 4 * n)
abbrev Reg.rfxOperand (n : Nat) : Nat := pageKey 0x14 (0xa00 + 4 * n)
abbrev Reg.sigCfg : Nat := pageKey 0x15 0x050
abbrev Reg.sigCntApplied : Nat := pageKey 0x15 0x054
abbrev Reg.sigCntOld : Nat := pageKey 0x15 0x058
abbrev Reg.sigCntType : Nat := pageKey 0x15 0x05c
abbrev Reg.sigCntUnsub : Nat := pageKey 0x15 0x060
abbrev Reg.sigCntBadFrame : Nat := pageKey 0x15 0x064
abbrev Reg.sigCntStale : Nat := pageKey 0x15 0x068
abbrev Reg.sigCntTxChange : Nat := pageKey 0x15 0x06c
abbrev Reg.sigCntTxHb : Nat := pageKey 0x15 0x070
abbrev Reg.sigCntClr : Nat := pageKey 0x15 0x074
abbrev Reg.sigSubMeta : Nat := pageKey 0x15 0x080
abbrev Reg.sigDirty (n : Nat) : Nat := pageKey 0x15 (0x900 + 4 * n)
abbrev Reg.fpCfg (i : Nat) : Nat := pageKey (0x28 + i) 0x050
abbrev Reg.fpTimers (i : Nat) : Nat := pageKey (0x28 + i) 0x054
abbrev Reg.fpErrLimit (i : Nat) : Nat := pageKey (0x28 + i) 0x058
abbrev Reg.fpCntRxFrames (i : Nat) : Nat := pageKey (0x28 + i) 0x060
abbrev Reg.fpCntTxFrames (i : Nat) : Nat := pageKey (0x28 + i) 0x064
abbrev Reg.fpCntRxFcs (i : Nat) : Nat := pageKey (0x28 + i) 0x068
abbrev Reg.fpCntRxStomp (i : Nat) : Nat := pageKey (0x28 + i) 0x06c
abbrev Reg.fpCntTxStomp (i : Nat) : Nat := pageKey (0x28 + i) 0x070
abbrev Reg.fpCntRxLength (i : Nat) : Nat := pageKey (0x28 + i) 0x074
abbrev Reg.fpCntRxHeader (i : Nat) : Nat := pageKey (0x28 + i) 0x078
abbrev Reg.fpCntRxPath (i : Nat) : Nat := pageKey (0x28 + i) 0x07c
abbrev Reg.fpCntRxForeign (i : Nat) : Nat := pageKey (0x28 + i) 0x080
abbrev Reg.fpCntHopExpired (i : Nat) : Nat := pageKey (0x28 + i) 0x084
abbrev Reg.fpCntStripped (i : Nat) : Nat := pageKey (0x28 + i) 0x088
abbrev Reg.fpCntDup (i : Nat) : Nat := pageKey (0x28 + i) 0x08c
abbrev Reg.fpCntSeqStale (i : Nat) : Nat := pageKey (0x28 + i) 0x090
abbrev Reg.fpCntTxDiscardDown (i : Nat) : Nat := pageKey (0x28 + i) 0x094
abbrev Reg.fpCntPreempt (i : Nat) : Nat := pageKey (0x28 + i) 0x098
abbrev Reg.fpCntLinkFail (i : Nat) : Nat := pageKey (0x28 + i) 0x09c
abbrev Reg.fpCntLinkDown (i : Nat) : Nat := pageKey (0x28 + i) 0x0a0
abbrev Reg.fpCntDegrade (i : Nat) : Nat := pageKey (0x28 + i) 0x0a4
abbrev Reg.fpCntClr (i : Nat) : Nat := pageKey (0x28 + i) 0x0a8
abbrev Reg.fpDupStatus (i : Nat) : Nat := pageKey (0x28 + i) 0x100
abbrev Reg.fpCntDupEvict (i : Nat) : Nat := pageKey (0x28 + i) 0x104
abbrev Reg.fpCntDupResync (i : Nat) : Nat := pageKey (0x28 + i) 0x108
abbrev Reg.fpCntDupClr (i : Nat) : Nat := pageKey (0x28 + i) 0x10c
abbrev Reg.fpTxeq (i : Nat) : Nat := indKey (0x28 + i) 0x000
abbrev Reg.fpRxeq (i : Nat) : Nat := indKey (0x28 + i) 0x004
abbrev Reg.fpPrbsCtrl (i : Nat) : Nat := indKey (0x28 + i) 0x008
abbrev Reg.fpPrbsErr (i : Nat) : Nat := indKey (0x28 + i) 0x00c
abbrev Reg.ringIdCfg : Nat := pageKey 0x2e 0x050
abbrev Reg.ringNodeId : Nat := pageKey 0x2e 0x054
abbrev Reg.ringStrap : Nat := pageKey 0x2e 0x058
abbrev Reg.ringCfg : Nat := pageKey 0x2e 0x05c
abbrev Reg.ringFarId : Nat := pageKey 0x2e 0x060
abbrev Reg.ringNeighbour (n : Nat) : Nat := pageKey 0x2e (0x070 + 4 * n)
abbrev Reg.ringCntBreak : Nat := pageKey 0x2e 0x080
abbrev Reg.ringCntConflict : Nat := pageKey 0x2e 0x084
abbrev Reg.ringCntMgmtBad : Nat := pageKey 0x2e 0x088
abbrev Reg.ringCntSilent : Nat := pageKey 0x2e 0x08c
abbrev Reg.ringCntTurned : Nat := pageKey 0x2e 0x090
abbrev Reg.ringCntTurnDup : Nat := pageKey 0x2e 0x094
abbrev Reg.ringCntTurnStrip : Nat := pageKey 0x2e 0x098
abbrev Reg.ringCntTurnBack : Nat := pageKey 0x2e 0x09c
abbrev Reg.ringCntHlEvict : Nat := pageKey 0x2e 0x0a0
abbrev Reg.ringCntHsrDup : Nat := pageKey 0x2e 0x0a4
abbrev Reg.ringCntPrpDup : Nat := pageKey 0x2e 0x0a8
abbrev Reg.ringCntClr : Nat := pageKey 0x2e 0x0ac
abbrev Reg.swcCfg : Nat := pageKey 0x20 0x050
abbrev Reg.swcFwd (n : Nat) : Nat := pageKey 0x20 (0x060 + 4 * n)
abbrev Reg.swcWeight (n : Nat) : Nat := pageKey 0x20 (0x080 + 4 * n)
abbrev Reg.swcMirCfg (n : Nat) : Nat := pageKey 0x20 (0x0c0 + 0x20 * n)
abbrev Reg.swcMirKey (n : Nat) : Nat := pageKey 0x20 (0x0c4 + 0x20 * n)
abbrev Reg.swcMirKeyb (n : Nat) : Nat := pageKey 0x20 (0x0c8 + 0x20 * n)
abbrev Reg.swcMirMask (n : Nat) : Nat := pageKey 0x20 (0x0cc + 0x20 * n)
abbrev Reg.swcMirMaskb (n : Nat) : Nat := pageKey 0x20 (0x0d0 + 0x20 * n)
abbrev Reg.swcMirNode (n : Nat) : Nat := pageKey 0x20 (0x0d4 + 0x20 * n)
abbrev Reg.swcCntReplDrop : Nat := pageKey 0x20 0x140
abbrev Reg.swcCntMirrorDrop : Nat := pageKey 0x20 0x144
abbrev Reg.swcCntMirrorTrunc : Nat := pageKey 0x20 0x148
abbrev Reg.swcCntClr : Nat := pageKey 0x20 0x14c
abbrev Reg.swcGroup (n : Nat) : Nat := pageKey 0x20 (0x900 + 4 * n)
abbrev Reg.bufFloors : Nat := pageKey 0x21 0x050
abbrev Reg.bufSpill : Nat := pageKey 0x21 0x054
abbrev Reg.bufShare (n : Nat) : Nat := pageKey 0x21 (0x060 + 4 * n)
abbrev Reg.bufOcc (n : Nat) : Nat := pageKey 0x21 (0x080 + 4 * n)
abbrev Reg.bufStoreBase : Nat := pageKey 0x21 0x0a0
abbrev Reg.bufStoreSize : Nat := pageKey 0x21 0x0a4
abbrev Reg.bufStoreUsed : Nat := pageKey 0x21 0x0a8
abbrev Reg.bufStorePeak : Nat := pageKey 0x21 0x0ac
abbrev Reg.bufCntPushed (n : Nat) : Nat := pageKey 0x21 (0x100 + 4 * n)
abbrev Reg.bufCntDropShare (n : Nat) : Nat := pageKey 0x21 (0x120 + 4 * n)
abbrev Reg.bufCntDropFloor (n : Nat) : Nat := pageKey 0x21 (0x140 + 4 * n)
abbrev Reg.bufCntSpilled (n : Nat) : Nat := pageKey 0x21 (0x160 + 4 * n)
abbrev Reg.bufCntStoreDrop : Nat := pageKey 0x21 0x180
abbrev Reg.bufCntEccDiscard : Nat := pageKey 0x21 0x184
abbrev Reg.bufCntClr : Nat := pageKey 0x21 0x188
abbrev Reg.ddrCfg : Nat := pageKey 0xb 0x050
abbrev Reg.ddrCntEccCorr : Nat := pageKey 0xb 0x054
abbrev Reg.ddrCntEccUncorr : Nat := pageKey 0xb 0x058
abbrev Reg.ddrEccAddrLo : Nat := pageKey 0xb 0x05c
abbrev Reg.ddrEccAddrHi : Nat := pageKey 0xb 0x060
abbrev Reg.ddrCntClr : Nat := pageKey 0xb 0x064
abbrev Reg.xbrNpTimeout : Nat := pageKey 0x22 0x050
abbrev Reg.xbrRetry : Nat := pageKey 0x22 0x054
abbrev Reg.xbrCcHold : Nat := pageKey 0x22 0x058
abbrev Reg.xbrGapWait : Nat := pageKey 0x22 0x05c
abbrev Reg.xbrStreamAge : Nat := pageKey 0x22 0x060
abbrev Reg.xbrQueueUsed : Nat := pageKey 0x22 0x064
abbrev Reg.xbrTagsFree0 : Nat := pageKey 0x22 0x068
abbrev Reg.xbrTagsFree1 : Nat := pageKey 0x22 0x06c
abbrev Reg.xbrReqCfg (n : Nat) : Nat := pageKey 0x22 (0x080 + 4 * n)
abbrev Reg.xbrCntNpIssued : Nat := pageKey 0x22 0x100
abbrev Reg.xbrCntPostedIssued : Nat := pageKey 0x22 0x104
abbrev Reg.xbrCntRetry : Nat := pageKey 0x22 0x108
abbrev Reg.xbrCntTimeout : Nat := pageKey 0x22 0x10c
abbrev Reg.xbrCntLateCpl : Nat := pageKey 0x22 0x110
abbrev Reg.xbrCntTagStall : Nat := pageKey 0x22 0x114
abbrev Reg.xbrCntStreamStall : Nat := pageKey 0x22 0x118
abbrev Reg.xbrCntBusySent : Nat := pageKey 0x22 0x11c
abbrev Reg.xbrCntCcHit : Nat := pageKey 0x22 0x120
abbrev Reg.xbrCntRetryPending : Nat := pageKey 0x22 0x124
abbrev Reg.xbrCntStreamStale : Nat := pageKey 0x22 0x128
abbrev Reg.xbrCntGapLost : Nat := pageKey 0x22 0x12c
abbrev Reg.xbrCntHoldDrop : Nat := pageKey 0x22 0x130
abbrev Reg.xbrCntBadReq : Nat := pageKey 0x22 0x134
abbrev Reg.xbrCntPwError : Nat := pageKey 0x22 0x138
abbrev Reg.xbrCntMsgDrop : Nat := pageKey 0x22 0x13c
abbrev Reg.xbrCntStranded : Nat := pageKey 0x22 0x140
abbrev Reg.xbrCntDiscardMiss : Nat := pageKey 0x22 0x144
abbrev Reg.xbrCntClr : Nat := pageKey 0x22 0x148
abbrev Reg.xbrMsgData : Nat := pageKey 0x22 0x804
abbrev Reg.leaseCfg : Nat := pageKey 0x2d 0x050
abbrev Reg.leaseTiming : Nat := pageKey 0x2d 0x054
abbrev Reg.leaseCompare : Nat := pageKey 0x2d 0x058
abbrev Reg.leaseRevertHold : Nat := pageKey 0x2d 0x05c
abbrev Reg.leaseFault : Nat := pageKey 0x2d 0x060
abbrev Reg.leaseFaultClr : Nat := pageKey 0x2d 0x064
abbrev Reg.leaseFaultSet : Nat := pageKey 0x2d 0x068
abbrev Reg.leasePartner : Nat := pageKey 0x2d 0x06c
abbrev Reg.leaseCntAcquire : Nat := pageKey 0x2d 0x070
abbrev Reg.leaseCntLost : Nat := pageKey 0x2d 0x074
abbrev Reg.leaseCntCompareFail : Nat := pageKey 0x2d 0x078
abbrev Reg.leaseCntAmbiguous : Nat := pageKey 0x2d 0x07c
abbrev Reg.leaseCntHandover : Nat := pageKey 0x2d 0x080
abbrev Reg.leaseCntHandoverAbort : Nat := pageKey 0x2d 0x084
abbrev Reg.leaseCntConflict : Nat := pageKey 0x2d 0x088
abbrev Reg.leaseCntClr : Nat := pageKey 0x2d 0x08c
abbrev Reg.leaseCmdv (n : Nat) : Nat := pageKey 0x2d (0x900 + 4 * n)
abbrev Reg.leasePartnerV (n : Nat) : Nat := pageKey 0x2d (0x920 + 4 * n)
abbrev Reg.leaseDiff (n : Nat) : Nat := pageKey 0x2d (0x940 + 4 * n)
abbrev Reg.leaseCompareMask (n : Nat) : Nat := pageKey 0x2d (0x960 + 4 * n)
abbrev Reg.plkCfg : Nat := pageKey 0x2c 0x050
abbrev Reg.plkErrLimit : Nat := pageKey 0x2c 0x054
abbrev Reg.plkLatency : Nat := pageKey 0x2c 0x058
abbrev Reg.plkCntRxMsg : Nat := pageKey 0x2c 0x060
abbrev Reg.plkCntTxMsg : Nat := pageKey 0x2c 0x064
abbrev Reg.plkCntCrc : Nat := pageKey 0x2c 0x068
abbrev Reg.plkCntMalformed : Nat := pageKey 0x2c 0x06c
abbrev Reg.plkCntLinkFail : Nat := pageKey 0x2c 0x070
abbrev Reg.plkCntLinkDown : Nat := pageKey 0x2c 0x074
abbrev Reg.plkCntClr : Nat := pageKey 0x2c 0x078
abbrev Reg.canMode (i : Nat) : Nat := pageKey (0xc0 + i) 0x050
abbrev Reg.canTxreq (i : Nat) : Nat := pageKey (0xc0 + i) 0x054
abbrev Reg.canTxcancel (i : Nat) : Nat := pageKey (0xc0 + i) 0x058
abbrev Reg.canTxpend (i : Nat) : Nat := pageKey (0xc0 + i) 0x05c
abbrev Reg.canTxdone (i : Nat) : Nat := pageKey (0xc0 + i) 0x060
abbrev Reg.canTxfail (i : Nat) : Nat := pageKey (0xc0 + i) 0x064
abbrev Reg.canTxresClr (i : Nat) : Nat := pageKey (0xc0 + i) 0x068
abbrev Reg.canErr (i : Nat) : Nat := pageKey (0xc0 + i) 0x06c
abbrev Reg.canTxData (i : Nat) : Nat := pageKey (0xc0 + i) 0x070
abbrev Reg.canTxStatus (i : Nat) : Nat := pageKey (0xc0 + i) 0x074
abbrev Reg.canTxCmd (i : Nat) : Nat := pageKey (0xc0 + i) 0x078
abbrev Reg.canRxStatus (i : Nat) : Nat := pageKey (0xc0 + i) 0x07c
abbrev Reg.canRxCmd (i : Nat) : Nat := pageKey (0xc0 + i) 0x080
abbrev Reg.canCmd (i : Nat) : Nat := pageKey (0xc0 + i) 0x084
abbrev Reg.canLastErr (i : Nat) : Nat := pageKey (0xc0 + i) 0x088
abbrev Reg.canTdcStatus (i : Nat) : Nat := pageKey (0xc0 + i) 0x08c
abbrev Reg.canCntTxOk (i : Nat) : Nat := pageKey (0xc0 + i) 0x090
abbrev Reg.canCntRxOk (i : Nat) : Nat := pageKey (0xc0 + i) 0x094
abbrev Reg.canCntStuff (i : Nat) : Nat := pageKey (0xc0 + i) 0x098
abbrev Reg.canCntForm (i : Nat) : Nat := pageKey (0xc0 + i) 0x09c
abbrev Reg.canCntAck (i : Nat) : Nat := pageKey (0xc0 + i) 0x0a0
abbrev Reg.canCntBit (i : Nat) : Nat := pageKey (0xc0 + i) 0x0a4
abbrev Reg.canCntCrc (i : Nat) : Nat := pageKey (0xc0 + i) 0x0a8
abbrev Reg.canCntArbLost (i : Nat) : Nat := pageKey (0xc0 + i) 0x0ac
abbrev Reg.canCntFiltered (i : Nat) : Nat := pageKey (0xc0 + i) 0x0b0
abbrev Reg.canCntRxOverrun (i : Nat) : Nat := pageKey (0xc0 + i) 0x0b4
abbrev Reg.canCntTxRewind (i : Nat) : Nat := pageKey (0xc0 + i) 0x0b8
abbrev Reg.canCntBusOff (i : Nat) : Nat := pageKey (0xc0 + i) 0x0bc
abbrev Reg.canCntMbRefused (i : Nat) : Nat := pageKey (0xc0 + i) 0x0c0
abbrev Reg.canCntClr (i : Nat) : Nat := pageKey (0xc0 + i) 0x0c4
abbrev Reg.canRxData (i : Nat) : Nat := pageKey (0xc0 + i) 0x804
abbrev Reg.canNbt (i : Nat) : Nat := indKey (0xc0 + i) 0x000
abbrev Reg.canDbt (i : Nat) : Nat := indKey (0xc0 + i) 0x004
abbrev Reg.canTdc (i : Nat) : Nat := indKey (0xc0 + i) 0x008
abbrev Reg.canFltCtrl (i : Nat) (n : Nat) : Nat := indKey (0xc0 + i) (0x100 + 0x10 * n)
abbrev Reg.canFltId (i : Nat) (n : Nat) : Nat := indKey (0xc0 + i) (0x104 + 0x10 * n)
abbrev Reg.canFltMask (i : Nat) (n : Nat) : Nat := indKey (0xc0 + i) (0x108 + 0x10 * n)
abbrev Reg.canMbId (i : Nat) (n : Nat) : Nat := indKey (0xc0 + i) (0x1000 + 0x80 * n)
abbrev Reg.canMbCtrl (i : Nat) (n : Nat) : Nat := indKey (0xc0 + i) (0x1004 + 0x80 * n)
abbrev Reg.canMbData (i : Nat) (n : Nat) (w : Nat) : Nat := indKey (0xc0 + i) (0x1008 + 0x80 * n + 4 * w)
abbrev Reg.chUartCfg (i : Nat) : Nat := pageKey (0x80 + i) 0x300
abbrev Reg.chUartDiv (i : Nat) : Nat := pageKey (0x80 + i) 0x304
abbrev Reg.chUartGap (i : Nat) : Nat := pageKey (0x80 + i) 0x308
abbrev Reg.chUartDe (i : Nat) : Nat := pageKey (0x80 + i) 0x30c
abbrev Reg.chUartMax (i : Nat) : Nat := pageKey (0x80 + i) 0x310
abbrev Reg.chSpiCfg (i : Nat) : Nat := pageKey (0x80 + i) 0x320
abbrev Reg.chSpiCs (i : Nat) : Nat := pageKey (0x80 + i) 0x324
abbrev Reg.chI2cTime (i : Nat) : Nat := pageKey (0x80 + i) 0x340
abbrev Reg.chI2cCfg (i : Nat) : Nat := pageKey (0x80 + i) 0x344
abbrev Reg.chI2cCmd (i : Nat) : Nat := pageKey (0x80 + i) 0x348
abbrev Reg.chIrigCfg (i : Nat) : Nat := pageKey (0x80 + i) 0x360
abbrev Reg.chPpsInCfg (i : Nat) : Nat := pageKey (0x80 + i) 0x364
abbrev Reg.chPpsOutCfg (i : Nat) : Nat := pageKey (0x80 + i) 0x368
abbrev Reg.chPpsOutWidth (i : Nat) : Nat := pageKey (0x80 + i) 0x36c
abbrev Reg.chPpsOutOffset (i : Nat) : Nat := pageKey (0x80 + i) 0x370
abbrev Reg.chCntParity (i : Nat) : Nat := pageKey (0x80 + i) 0x380
abbrev Reg.chCntFraming (i : Nat) : Nat := pageKey (0x80 + i) 0x384
abbrev Reg.chCntBreak (i : Nat) : Nat := pageKey (0x80 + i) 0x388
abbrev Reg.chCntGapErr (i : Nat) : Nat := pageKey (0x80 + i) 0x38c
abbrev Reg.chCntRxDe (i : Nat) : Nat := pageKey (0x80 + i) 0x390
abbrev Reg.chCntSpiPartial (i : Nat) : Nat := pageKey (0x80 + i) 0x394
abbrev Reg.chCntI2cFail (i : Nat) : Nat := pageKey (0x80 + i) 0x398
abbrev Reg.chCntSmbTimeout (i : Nat) : Nat := pageKey (0x80 + i) 0x39c
abbrev Reg.chCntIrigBad (i : Nat) : Nat := pageKey (0x80 + i) 0x3a0
abbrev Reg.chCntPpsBad (i : Nat) : Nat := pageKey (0x80 + i) 0x3a4
abbrev Reg.chCntFnClr (i : Nat) : Nat := pageKey (0x80 + i) 0x3a8
abbrev Reg.chFnStatus (i : Nat) : Nat := pageKey (0x80 + i) 0x3ac
abbrev Reg.hostCfg : Nat := pageKey 0x23 0x050
abbrev Reg.hostPciId : Nat := pageKey 0x23 0x054
abbrev Reg.hostVendor : Nat := pageKey 0x23 0x058
abbrev Reg.hostCplLimit : Nat := pageKey 0x23 0x05c
abbrev Reg.hostRdErrStatus : Nat := pageKey 0x23 0x060
abbrev Reg.hostRdErrAddrLo : Nat := pageKey 0x23 0x064
abbrev Reg.hostRdErrAddrHi : Nat := pageKey 0x23 0x068
abbrev Reg.hostWinCtrl (n : Nat) : Nat := pageKey 0x23 (0x080 + 8 * n)
abbrev Reg.hostWinBase (n : Nat) : Nat := pageKey 0x23 (0x084 + 8 * n)
abbrev Reg.hostCntRdErr : Nat := pageKey 0x23 0x100
abbrev Reg.hostCntBadSize : Nat := pageKey 0x23 0x104
abbrev Reg.hostCntBadTlp : Nat := pageKey 0x23 0x108
abbrev Reg.hostCntCplTimeout : Nat := pageKey 0x23 0x10c
abbrev Reg.hostCntAbandon : Nat := pageKey 0x23 0x110
abbrev Reg.hostCntHostReset : Nat := pageKey 0x23 0x114
abbrev Reg.hostCntClr : Nat := pageKey 0x23 0x118
abbrev Reg.evqPostW (n : Nat) : Nat := pageKey 0x24 (0x050 + 4 * n)
abbrev Reg.evqPostCmd : Nat := pageKey 0x24 0x060
abbrev Reg.evqIcuVec : Nat := pageKey 0x24 0x064
abbrev Reg.evqCntUnrouted : Nat := pageKey 0x24 0x068
abbrev Reg.evqCntBadCi : Nat := pageKey 0x24 0x06c
abbrev Reg.evqQCfg (n : Nat) : Nat := pageKey 0x24 (0x100 + 0x20 * n)
abbrev Reg.evqQBaseLo (n : Nat) : Nat := pageKey 0x24 (0x104 + 0x20 * n)
abbrev Reg.evqQBaseHi (n : Nat) : Nat := pageKey 0x24 (0x108 + 0x20 * n)
abbrev Reg.evqQPiAddrLo (n : Nat) : Nat := pageKey 0x24 (0x10c + 0x20 * n)
abbrev Reg.evqQPiAddrHi (n : Nat) : Nat := pageKey 0x24 (0x110 + 0x20 * n)
abbrev Reg.evqQMod (n : Nat) : Nat := pageKey 0x24 (0x114 + 0x20 * n)
abbrev Reg.evqQCi (n : Nat) : Nat := pageKey 0x24 (0x118 + 0x20 * n)
abbrev Reg.evqQStatus (n : Nat) : Nat := pageKey 0x24 (0x11c + 0x20 * n)
abbrev Reg.evqCntDrop (n : Nat) : Nat := pageKey 0x24 (0x300 + 4 * n)
abbrev Reg.evqCntClr : Nat := pageKey 0x24 0x340
abbrev Reg.evqRoute (n : Nat) : Nat := pageKey 0x24 (0x900 + 4 * n)
abbrev Reg.dmaDcCtrl (n : Nat) : Nat := pageKey 0x25 (0x100 + 0x20 * n)
abbrev Reg.dmaDcRingLo (n : Nat) : Nat := pageKey 0x25 (0x104 + 0x20 * n)
abbrev Reg.dmaDcRingHi (n : Nat) : Nat := pageKey 0x25 (0x108 + 0x20 * n)
abbrev Reg.dmaDcCfg (n : Nat) : Nat := pageKey 0x25 (0x10c + 0x20 * n)
abbrev Reg.dmaDcTail (n : Nat) : Nat := pageKey 0x25 (0x110 + 0x20 * n)
abbrev Reg.dmaDcHead (n : Nat) : Nat := pageKey 0x25 (0x114 + 0x20 * n)
abbrev Reg.dmaDcStatus (n : Nat) : Nat := pageKey 0x25 (0x118 + 0x20 * n)
abbrev Reg.dmaDcBytes (n : Nat) : Nat := pageKey 0x25 (0x11c + 0x20 * n)
abbrev Reg.icuSwset : Nat := pageKey 0x18 0x050
abbrev Reg.icuHostThreshold : Nat := pageKey 0x18 0x060
abbrev Reg.icuHostComplete : Nat := pageKey 0x18 0x064
abbrev Reg.icuHostStatus : Nat := pageKey 0x18 0x068
abbrev Reg.icuHostStack (n : Nat) : Nat := pageKey 0x18 (0x080 + 4 * n)
abbrev Reg.icuCntSpurious : Nat := pageKey 0x18 0x0a0
abbrev Reg.icuCntStackFull : Nat := pageKey 0x18 0x0a4
abbrev Reg.icuCntMismatch : Nat := pageKey 0x18 0x0a8
abbrev Reg.icuCntRefused : Nat := pageKey 0x18 0x0ac
abbrev Reg.icuCntClr : Nat := pageKey 0x18 0x0b0
abbrev Reg.icuPend (n : Nat) : Nat := pageKey 0x18 (0x100 + 4 * n)
abbrev Reg.icuHoldoff (n : Nat) : Nat := pageKey 0x18 (0x180 + 4 * n)
abbrev Reg.icuHostClaim : Nat := pageKey 0x18 0x804
abbrev Reg.icuSrcCfg (n : Nat) : Nat := pageKey 0x18 (0x8fc + 4 * n)
abbrev Reg.icupThreshold (i : Nat) : Nat := pageKey (0x19 + i) 0x050
abbrev Reg.icupComplete (i : Nat) : Nat := pageKey (0x19 + i) 0x054
abbrev Reg.icupSwset (i : Nat) : Nat := pageKey (0x19 + i) 0x058
abbrev Reg.icupIpi (i : Nat) : Nat := pageKey (0x19 + i) 0x05c
abbrev Reg.icupPrivPend (i : Nat) : Nat := pageKey (0x19 + i) 0x060
abbrev Reg.icupCntSpurious (i : Nat) : Nat := pageKey (0x19 + i) 0x064
abbrev Reg.icupCntStackFull (i : Nat) : Nat := pageKey (0x19 + i) 0x068
abbrev Reg.icupCntMismatch (i : Nat) : Nat := pageKey (0x19 + i) 0x06c
abbrev Reg.icupCntClr (i : Nat) : Nat := pageKey (0x19 + i) 0x070
abbrev Reg.icupStack (i : Nat) (n : Nat) : Nat := pageKey (0x19 + i) (0x080 + 4 * n)
abbrev Reg.icupTmr (i : Nat) (n : Nat) : Nat := pageKey (0x19 + i) (0x0c0 + 8 * n)
abbrev Reg.icupTmrVal (i : Nat) (n : Nat) : Nat := pageKey (0x19 + i) (0x0c4 + 8 * n)
abbrev Reg.icupPrivCfg (i : Nat) (n : Nat) : Nat := pageKey (0x19 + i) (0x100 + 4 * n)
abbrev Reg.icupClaim (i : Nat) : Nat := pageKey (0x19 + i) 0x804
abbrev Reg.stwStatus : Nat := pageKey 0x6 0x00c
abbrev Reg.stwCoreCtrl : Nat := pageKey 0x6 0x050
abbrev Reg.stwCfg : Nat := pageKey 0x6 0x054
abbrev Reg.stwWdtCfg (n : Nat) : Nat := pageKey 0x6 (0x060 + 4 * n)
abbrev Reg.stwLockstep : Nat := pageKey 0x6 0x080
abbrev Reg.stwCntMiscompare : Nat := pageKey 0x6 0x084
abbrev Reg.stwCntWatchdog : Nat := pageKey 0x6 0x088
abbrev Reg.stwCntClr : Nat := pageKey 0x6 0x08c
abbrev Reg.fwlCntDeny : Nat := pageKey 0x7 0x050
abbrev Reg.fwlLastDeny : Nat := pageKey 0x7 0x054
abbrev Reg.fwlLastAddr : Nat := pageKey 0x7 0x058
abbrev Reg.fwlCntClr : Nat := pageKey 0x7 0x05c
abbrev Reg.fwlRegionClass : Nat := pageKey 0x7 0x060
abbrev Reg.fwlPageClass (n : Nat) : Nat := pageKey 0x7 (0x900 + 4 * n)
abbrev Reg.bootStatus : Nat := pageKey 0x8 0x00c
abbrev Reg.bootCommit : Nat := pageKey 0x8 0x050
abbrev Reg.bootMigrateCommit : Nat := pageKey 0x8 0x054
abbrev Reg.bootTrialLimit : Nat := pageKey 0x8 0x058
abbrev Reg.bootTrialStarts : Nat := pageKey 0x8 0x05c
abbrev Reg.bootKeeperVersion : Nat := pageKey 0x8 0x060
abbrev Reg.bootFieldVersion : Nat := pageKey 0x8 0x064
abbrev Reg.secStatus : Nat := pageKey 0x9 0x00c
abbrev Reg.secBuffer (n : Nat) : Nat := pageKey 0x9 (0x900 + 4 * n)
abbrev Reg.ospiStatus : Nat := pageKey 0xa 0x00c
abbrev Reg.ospiClock : Nat := pageKey 0xa 0x050
abbrev Reg.ospiProt (n : Nat) : Nat := pageKey 0xa (0x060 + 4 * n)
abbrev Reg.ospiBuffer (n : Nat) : Nat := pageKey 0xa (0x900 + 4 * n)
abbrev Reg.pwrHsCfg : Nat := indKey 0x3 0x000
abbrev Reg.pwrHsTimes : Nat := indKey 0x3 0x004
abbrev Reg.pwrRetry : Nat := indKey 0x3 0x008
abbrev Reg.pwrSeat : Nat := indKey 0x3 0x00c
abbrev Reg.pwrFeedWin : Nat := indKey 0x3 0x010
abbrev Reg.pwrIdeal : Nat := indKey 0x3 0x014
abbrev Reg.pwrDyingCfg : Nat := indKey 0x3 0x018
abbrev Reg.pwrRsns : Nat := indKey 0x3 0x020
abbrev Reg.pwrThModel : Nat := indKey 0x3 0x024
abbrev Reg.pwrThLimits : Nat := indKey 0x3 0x028
abbrev Reg.pwrTsCfg : Nat := indKey 0x3 0x02c
abbrev Reg.pwrCmd : Nat := indKey 0x3 0x030
abbrev Reg.pwrState : Nat := indKey 0x3 0x040
abbrev Reg.pwrTemps : Nat := indKey 0x3 0x044
abbrev Reg.pwrLastFault : Nat := indKey 0x3 0x048
abbrev Reg.pwrCntFastTrip : Nat := indKey 0x3 0x050
abbrev Reg.pwrCntShortRamp : Nat := indKey 0x3 0x054
abbrev Reg.pwrCntLimit : Nat := indKey 0x3 0x058
abbrev Reg.pwrCntThermal : Nat := indKey 0x3 0x05c
abbrev Reg.pwrCntRail : Nat := indKey 0x3 0x060
abbrev Reg.pwrCntRetry : Nat := indKey 0x3 0x064
abbrev Reg.pwrCntLatched : Nat := indKey 0x3 0x068
abbrev Reg.pwrCntSeatLoss : Nat := indKey 0x3 0x06c
abbrev Reg.pwrCntFeedA : Nat := indKey 0x3 0x070
abbrev Reg.pwrCntFeedB : Nat := indKey 0x3 0x074
abbrev Reg.pwrCntReverseA : Nat := indKey 0x3 0x078
abbrev Reg.pwrCntReverseB : Nat := indKey 0x3 0x07c
abbrev Reg.pwrCntDying : Nat := indKey 0x3 0x080
abbrev Reg.pwrCntTsFail : Nat := indKey 0x3 0x084
abbrev Reg.pwrCntClr : Nat := indKey 0x3 0x088
abbrev Reg.seqRail (n : Nat) : Nat := pageKey 0x4 (0x050 + 4 * n)
abbrev Reg.seqAvs : Nat := pageKey 0x4 0x070
abbrev Reg.seqCntPgTimeout : Nat := pageKey 0x4 0x078
abbrev Reg.seqCntPgLost : Nat := pageKey 0x4 0x07c
abbrev Reg.seqCntClr : Nat := pageKey 0x4 0x080
abbrev Reg.adcChCfg (n : Nat) : Nat := pageKey 0x5 (0x100 + 0x10 * n)
abbrev Reg.adcChWin (n : Nat) : Nat := pageKey 0x5 (0x104 + 0x10 * n)
abbrev Reg.adcChVal (n : Nat) : Nat := pageKey 0x5 (0x108 + 0x10 * n)
abbrev Reg.adcCntFail (n : Nat) : Nat := pageKey 0x5 (0x10c + 0x10 * n)
abbrev Reg.adcCntClr : Nat := pageKey 0x5 0x200
abbrev Reg.clkStateReq : Nat := pageKey 0x2 0x050
abbrev Reg.clkFallowCfg : Nat := pageKey 0x2 0x054
abbrev Reg.clkCntTclk : Nat := pageKey 0x2 0x060
abbrev Reg.clkCntXt32 : Nat := pageKey 0x2 0x064
abbrev Reg.clkCntRefclkSd : Nat := pageKey 0x2 0x068
abbrev Reg.clkCntPcieRefclk : Nat := pageKey 0x2 0x06c
abbrev Reg.clkCntPll : Nat := pageKey 0x2 0x070
abbrev Reg.clkCntTileLock : Nat := pageKey 0x2 0x074
abbrev Reg.clkCntClr : Nat := pageKey 0x2 0x078
abbrev Reg.clkDwake (n : Nat) : Nat := indKey 0x2 (0x000 + 4 * n)
abbrev Reg.clkDormantCfg : Nat := indKey 0x2 0x020
abbrev Reg.clkAlarm : Nat := indKey 0x2 0x024
abbrev Reg.rstCmd : Nat := pageKey 0x1 0x050
abbrev Reg.rstLastCause : Nat := indKey 0x1 0x000
abbrev Reg.rstLastSec : Nat := indKey 0x1 0x004
abbrev Reg.rstLastNs : Nat := indKey 0x1 0x008
abbrev Reg.rstCnt (n : Nat) : Nat := indKey 0x1 (0x010 + 4 * n)
abbrev Reg.rstCntClr : Nat := indKey 0x1 0x030

/-- The common page layout (R30): the key of each common register of a page. -/
abbrev Reg.ctrl (page : Nat) : Nat := pageKey page 0x008
abbrev Reg.status (page : Nat) : Nat := pageKey page 0x00c
abbrev Reg.irqPend (page : Nat) : Nat := pageKey page 0x010
abbrev Reg.irqMask (page : Nat) : Nat := pageKey page 0x014
abbrev Reg.irqGroup (page : Nat) : Nat := pageKey page 0x018
abbrev Reg.indAddr (page : Nat) : Nat := pageKey page 0x020
abbrev Reg.mbxCmd (page : Nat) : Nat := pageKey page 0x030
abbrev Reg.mbxFlag (page : Nat) : Nat := pageKey page 0x034
abbrev Reg.mbxD (page n : Nat) : Nat := pageKey page (0x040 + 4 * n)
/-- LCFG of line k of tile i (R77, indirect 4k of the TILE page). -/
abbrev Reg.lcfg (i k : Nat) : Nat := indKey (0x40 + i) (4 * k)
/-- RING route maps and far group map (indirect). -/
abbrev Reg.ringFarRoute (n : Nat) : Nat := indKey 0x2e (0x100 + 4 * n)
abbrev Reg.ringHomeRoute (n : Nat) : Nat := indKey 0x2e (0x120 + 4 * n)
abbrev Reg.ringFarGroup (n : Nat) : Nat := indKey 0x2e (0x200 + 4 * n)
abbrev Reg.ringHomeGroup (n : Nat) : Nat := indKey 0x2e (0x400 + 4 * n)
/-- BOOT AO (indirect 0, always-on): bit 0 REVERT (R459). -/
abbrev Reg.bootAo : Nat := indKey 0x08 0
/-- STATUS of STW, BOOT, SEC, OSPI, given in their register tables. -/
abbrev Reg.statusOf (page : Nat) : Nat := pageKey page 0x00c

/-- One row of a register table: `n` registers from `off`, `stride` apart, the bits software writes, the reset value. -/
structure RegRow where
  off : Nat
  n : Nat
  stride : Nat
  mask : Nat
  reset : Nat

/-- Whether the row holds offset `o`. -/
def RegRow.hits (r : RegRow) (o : Nat) : Bool :=
  decide (r.off ≤ o) && decide ((o - r.off) % r.stride = 0) && decide ((o - r.off) / r.stride < r.n)

/-- The row that holds offset `o`. -/
def rowAt : List RegRow → Nat → Option RegRow
  | [], _ => none
  | r :: rs, o => if r.hits o then some r else rowAt rs o

/-- The direct registers of a block that software writes, or whose reset value is not 0. DESIGN CHOICE: log entry 3. -/
def directRows : Block → List RegRow
  | .clk =>
    [ ⟨0x054, 1, 4, 0x00000001, 0x1⟩ ]
  | .seq =>
    [ ⟨0x050, 6, 4, 0xc7ffffff, 0x80010a01⟩,
      ⟨0x068, 2, 4, 0xc7ffffff, 0x10a01⟩,
      ⟨0x070, 1, 4, 0x0000000f, 0x4⟩ ]
  | .adc =>
    [ ⟨0x100, 16, 16, 0xef07ffff, 0xa100000a⟩,
      ⟨0x104, 16, 16, 0x0fff0fff, 0xfff0000⟩ ]
  | .stw =>
    [ ⟨0x00c, 1, 4, 0x00000000, 0xf000⟩,
      ⟨0x054, 1, 4, 0x00000001, 0x1⟩,
      ⟨0x060, 1, 4, 0x80ffffff, 0x800f4240⟩,
      ⟨0x064, 4, 4, 0x80ffffff, 0xf4240⟩ ]
  | .fwl =>
    [ ⟨0x060, 1, 4, 0x0000000f, 0x0⟩,
      ⟨0x900, 256, 4, 0xffffffff, 0x0⟩ ]
  | .boot =>
    [ ⟨0x058, 1, 4, 0x0000ffff, 0x258⟩,
      ⟨0x05c, 1, 4, 0x0000000f, 0x3⟩ ]
  | .sec =>
    [ ⟨0x900, 64, 4, 0xffffffff, 0x0⟩ ]
  | .ospi =>
    [ ⟨0x050, 1, 4, 0x00000000, 0x19⟩,
      ⟨0x060, 1, 4, 0x8fff0fff, 0x8fff0000⟩,
      ⟨0x064, 3, 4, 0x8fff0fff, 0x0⟩,
      ⟨0x900, 64, 4, 0xffffffff, 0x0⟩ ]
  | .ddr =>
    [ ⟨0x050, 1, 4, 0x00000137, 0x100⟩ ]
  | .time =>
    [ ⟨0x050, 1, 4, 0x000000f1, 0x41⟩,
      ⟨0x054, 1, 4, 0x3fffffff, 0x3e8⟩,
      ⟨0x058, 1, 4, 0x000fffff, 0x80032⟩,
      ⟨0x05c, 1, 4, 0x000000ff, 0xc8⟩,
      ⟨0x060, 1, 4, 0x0000ffff, 0x3⟩,
      ⟨0x064, 1, 4, 0x0000ffff, 0x25⟩ ]
  | .ptp =>
    [ ⟨0x050, 1, 4, 0x0007ff01, 0x0⟩,
      ⟨0x054, 1, 4, 0x0000ffff, 0x8080⟩,
      ⟨0x058, 1, 4, 0x00013f07, 0x0⟩,
      ⟨0x060, 2, 4, 0x00000007, 0x1⟩,
      ⟨0x068, 2, 4, 0x00000007, 0x0⟩,
      ⟨0x070, 4, 4, 0x0000ffff, 0x0⟩,
      ⟨0x098, 1, 4, 0x00000000, 0xfeff⟩ ]
  | .win =>
    [ ⟨0x050, 1, 4, 0x0000ffff, 0x7d0⟩ ]
  | .rfx =>
    [ ⟨0x050, 1, 4, 0x0000ffff, 0x1⟩ ]
  | .sig =>
    [ ⟨0x050, 1, 4, 0x00000001, 0x0⟩ ]
  | .icu =>
    [ ⟨0x060, 1, 4, 0x0000000f, 0x0⟩,
      ⟨0x180, 32, 4, 0x0000ffff, 0x0⟩,
      ⟨0x900, 448, 4, 0x801f070f, 0x0⟩ ]
  | .icup =>
    [ ⟨0x050, 1, 4, 0x0000000f, 0x0⟩,
      ⟨0x0c0, 4, 8, 0xc0ffffff, 0x0⟩,
      ⟨0x100, 32, 4, 0x801f000f, 0x0⟩ ]
  | .swc =>
    [ ⟨0x050, 1, 4, 0x0000ff01, 0xa00⟩,
      ⟨0x060, 4, 4, 0x000000ff, 0xf0⟩,
      ⟨0x080, 8, 4, 0x000fffff, 0x84421⟩,
      ⟨0x0c0, 4, 32, 0xe70300ff, 0x4000000⟩,
      ⟨0x0c4, 4, 32, 0xffffffff, 0x0⟩,
      ⟨0x0c8, 4, 32, 0x0000ff07, 0x0⟩,
      ⟨0x0cc, 4, 32, 0xffffffff, 0x0⟩,
      ⟨0x0d0, 4, 32, 0x0000ff07, 0x0⟩,
      ⟨0x0d4, 4, 32, 0x0000ffff, 0x0⟩,
      ⟨0x900, 128, 4, 0xffffffff, 0x0⟩ ]
  | .buf =>
    [ ⟨0x050, 1, 4, 0xffffffff, 0x10000400⟩,
      ⟨0x054, 1, 4, 0xffffffff, 0x20000800⟩,
      ⟨0x060, 8, 4, 0x0000ffff, 0x2000⟩,
      ⟨0x0a0, 1, 4, 0x00000fff, 0x0⟩,
      ⟨0x0a4, 1, 4, 0x00001fff, 0x0⟩ ]
  | .xbr =>
    [ ⟨0x050, 1, 4, 0x000fffff, 0x64⟩,
      ⟨0x054, 1, 4, 0xffffffff, 0x400014⟩,
      ⟨0x058, 1, 4, 0x000fffff, 0x3e8⟩,
      ⟨0x05c, 1, 4, 0x000fffff, 0x7d0⟩,
      ⟨0x060, 1, 4, 0x0000ffff, 0x64⟩,
      ⟨0x080, 16, 4, 0x00000107, 0x4⟩ ]
  | .host =>
    [ ⟨0x050, 1, 4, 0x00000003, 0x0⟩,
      ⟨0x054, 1, 4, 0xffffffff, 0x0⟩,
      ⟨0x058, 1, 4, 0x0000ffff, 0x0⟩,
      ⟨0x05c, 1, 4, 0x0000ffff, 0xa⟩,
      ⟨0x080, 16, 8, 0x8000ffff, 0x0⟩,
      ⟨0x084, 16, 8, 0x003fffff, 0x0⟩ ]
  | .evq =>
    [ ⟨0x050, 4, 4, 0xffffffff, 0x0⟩,
      ⟨0x064, 1, 4, 0x0000003f, 0x3f⟩,
      ⟨0x100, 16, 32, 0xf03f001f, 0x1000000a⟩,
      ⟨0x104, 16, 32, 0xffffffff, 0x0⟩,
      ⟨0x108, 16, 32, 0xffffffff, 0x0⟩,
      ⟨0x10c, 16, 32, 0xffffffff, 0x0⟩,
      ⟨0x110, 16, 32, 0xffffffff, 0x0⟩,
      ⟨0x114, 16, 32, 0xffffffff, 0x1⟩,
      ⟨0x118, 16, 32, 0x0000ffff, 0x0⟩,
      ⟨0x900, 32, 4, 0x8f8f8f8f, 0x80808080⟩ ]
  | .dma =>
    [ ⟨0x100, 8, 32, 0x00000001, 0x0⟩,
      ⟨0x104, 8, 32, 0xffffffff, 0x0⟩,
      ⟨0x108, 8, 32, 0xffffffff, 0x0⟩,
      ⟨0x10c, 8, 32, 0x8000000f, 0x4⟩,
      ⟨0x110, 8, 32, 0x00000fff, 0x0⟩ ]
  | .fp =>
    [ ⟨0x050, 1, 4, 0x000001f3, 0x1b0⟩,
      ⟨0x054, 1, 4, 0xffffffff, 0x64000a⟩,
      ⟨0x058, 1, 4, 0x0000ffff, 0x10⟩ ]
  | .plk =>
    [ ⟨0x050, 1, 4, 0x00000007, 0x0⟩,
      ⟨0x054, 1, 4, 0x0000ffff, 0x10⟩ ]
  | .lease =>
    [ ⟨0x050, 1, 4, 0x0000000f, 0x4⟩,
      ⟨0x054, 1, 4, 0xffffffff, 0x80032⟩,
      ⟨0x058, 1, 4, 0xffff0000, 0x20000⟩,
      ⟨0x05c, 1, 4, 0x0000ffff, 0xa⟩,
      ⟨0x960, 8, 4, 0xffffffff, 0x0⟩ ]
  | .ring =>
    [ ⟨0x050, 1, 4, 0xc000ffff, 0x0⟩,
      ⟨0x05c, 1, 4, 0xfffff303, 0xa3000⟩,
      ⟨0x060, 1, 4, 0x8000ffff, 0x0⟩ ]
  | .tile =>
    [ ⟨0x050, 1, 4, 0x00000003, 0x3⟩,
      ⟨0x054, 1, 4, 0xffff0001, 0xa0000⟩,
      ⟨0x200, 1, 4, 0x000fffff, 0x80000⟩,
      ⟨0x300, 2, 4, 0xffffffff, 0x0⟩ ]
  | .ch =>
    [ ⟨0x050, 1, 4, 0x00000f0f, 0x0⟩,
      ⟨0x084, 1, 4, 0x0000ffff, 0x0⟩,
      ⟨0x094, 1, 4, 0x0000ffff, 0x0⟩,
      ⟨0x080, 1, 4, 0xffffffff, 0x0⟩,
      ⟨0x090, 1, 4, 0xffffffff, 0x0⟩,
      ⟨0x100, 1, 4, 0xffff003f, 0x1⟩,
      ⟨0x300, 1, 4, 0xffe00000, 0x41000000⟩,
      ⟨0x304, 1, 4, 0x007fffff, 0xcb73⟩,
      ⟨0x308, 1, 4, 0xffffffff, 0x70000⟩,
      ⟨0x30c, 1, 4, 0xffffffff, 0x0⟩,
      ⟨0x310, 1, 4, 0x0000ffff, 0x100⟩,
      ⟨0x320, 1, 4, 0xfffff7ff, 0x1900ff⟩,
      ⟨0x324, 1, 4, 0x00ffffff, 0x10101⟩,
      ⟨0x340, 1, 4, 0xffffffff, 0xfa00fa⟩,
      ⟨0x344, 1, 4, 0x80ffffff, 0x190032⟩,
      ⟨0x360, 1, 4, 0xe000ffff, 0x3e8⟩,
      ⟨0x364, 1, 4, 0x00000001, 0x0⟩,
      ⟨0x368, 1, 4, 0xe0000000, 0x60000000⟩,
      ⟨0x36c, 1, 4, 0x3fffffff, 0xf4240⟩,
      ⟨0x370, 1, 4, 0x3fffffff, 0x0⟩,
      ⟨0x400, 1, 4, 0xffffff1e, 0x10010⟩,
      ⟨0x404, 1, 4, 0x07ff03ff, 0x800000⟩,
      ⟨0x408, 1, 4, 0x03ff03ff, 0x0⟩,
      ⟨0x40c, 1, 4, 0x000003ff, 0x0⟩,
      ⟨0x410, 1, 4, 0x3fffffff, 0x0⟩,
      ⟨0x414, 1, 4, 0x1f1f1f1f, 0x0⟩,
      ⟨0x418, 1, 4, 0x1f1f1f1f, 0x0⟩,
      ⟨0x41c, 1, 4, 0x00000707, 0x0⟩,
      ⟨0x430, 1, 4, 0xffffffff, 0x0⟩,
      ⟨0x434, 1, 4, 0xffffffff, 0x0⟩,
      ⟨0x438, 1, 4, 0xffffffff, 0x0⟩,
      ⟨0x448, 1, 4, 0xffffffff, 0x0⟩,
      ⟨0x44c, 1, 4, 0x3fffffff, 0x0⟩,
      ⟨0x450, 1, 4, 0xffffffff, 0x0⟩,
      ⟨0x454, 1, 4, 0x800003ff, 0x0⟩ ]
  | .can =>
    [ ⟨0x050, 1, 4, 0x000000ff, 0xa8⟩ ]
  | .chip | .rst | .pwr | .drl => []

/-- The words of a block's indirect map that software writes, or whose reset value is not 0. DESIGN CHOICE: log entry 3. -/
def indirectRows : Block → List RegRow
  | .clk =>
    [ ⟨0x000, 8, 4, 0xffffffff, 0x0⟩,
      ⟨0x020, 1, 4, 0x0000ff0e, 0x200a⟩,
      ⟨0x024, 1, 4, 0xffffffff, 0x0⟩ ]
  | .pwr =>
    [ ⟨0x000, 1, 4, 0x800f003f, 0x8005000a⟩,
      ⟨0x004, 1, 4, 0xffffffff, 0x320014⟩,
      ⟨0x008, 1, 4, 0xff0fffff, 0x3c0303e8⟩,
      ⟨0x00c, 1, 4, 0x0000ffff, 0x64⟩,
      ⟨0x010, 1, 4, 0x00ffffff, 0xaa05a⟩,
      ⟨0x014, 1, 4, 0x00033f3f, 0x30a14⟩,
      ⟨0x018, 1, 4, 0x000000ff, 0x5⟩,
      ⟨0x020, 1, 4, 0x000fffff, 0x7d0⟩,
      ⟨0x024, 1, 4, 0xffffffff, 0xc80064⟩,
      ⟨0x028, 1, 4, 0x00ffffff, 0x6e9655⟩,
      ⟨0x02c, 1, 4, 0xffffff03, 0xd6b4001⟩ ]
  | .boot =>
    [ ⟨0x000, 1, 4, 0x00000001, 0x0⟩ ]
  | .fp =>
    [ ⟨0x000, 1, 4, 0x0003ffff, 0x8c04⟩,
      ⟨0x008, 1, 4, 0x00000003, 0x0⟩ ]
  | .ring =>
    [ ⟨0x100, 8, 4, 0xffffffff, 0x0⟩,
      ⟨0x120, 8, 4, 0xffffffff, 0x0⟩,
      ⟨0x200, 128, 4, 0xffffffff, 0x0⟩,
      ⟨0x400, 128, 4, 0xffffffff, 0x0⟩ ]
  | .tile =>
    [ ⟨0x000, 32, 4, 0x0007ffff, 0x40000⟩ ]
  | .ch =>
    [ ⟨0x000, 4, 32, 0xffffff0c, 0x3e804⟩,
      ⟨0x004, 4, 32, 0xffffffff, 0x0⟩,
      ⟨0x008, 4, 32, 0x0000ffff, 0x0⟩,
      ⟨0x00c, 4, 32, 0xffff007d, 0x18⟩ ]
  | .can =>
    [ ⟨0x000, 1, 4, 0xffff7f7f, 0x7e1f1f⟩,
      ⟨0x004, 1, 4, 0x1f1f0f0f, 0x1e0707⟩,
      ⟨0x008, 1, 4, 0x8000007f, 0x0⟩,
      ⟨0x100, 64, 16, 0xf0000000, 0x0⟩,
      ⟨0x104, 64, 16, 0x1fffffff, 0x0⟩,
      ⟨0x108, 64, 16, 0x1fffffff, 0x0⟩,
      ⟨0x1000, 1024, 4, 0xffffffff, 0x0⟩ ]
  | .chip | .rst | .seq | .adc | .stw | .fwl | .sec | .ospi | .ddr | .time | .ptp | .drl | .win | .rfx | .sig | .icu | .icup | .swc | .buf | .xbr | .host | .evq | .dma | .plk | .lease => []

/-- The reset values that depend on the instance or on OTP: R126, R155 of an engine at position j of its tile, FP.CFG.MODE,
the OTP defaults of the host identity, and the reset fields that count the register's own index. DESIGN CHOICE: log entry 3. -/
def specialReset (b : Block) (i off : Nat) : Option Nat :=
  match b with
  | .fp => if off = 0x050 ∧ 2 ≤ i then some 0x1b1 else none
  | .host =>
    if off = 0x054 then some (Config.otpPciId.toNat)
    else if off = 0x058 then some (Config.otpVendor.toNat % 0x10000) else none
  | .ptp =>
    if off = 0x0a0 then some (Config.otpEui64 / 2 ^ 32 % 2 ^ 32)
    else if off = 0x0a4 then some (Config.otpEui64 % 2 ^ 32) else none
  | .evq =>
    if 0x100 ≤ off ∧ off < 0x300 ∧ off % 0x20 = 0 then
      some (0x1000000a + 0x10000 * ((off - 0x100) / 0x20)) else none
  | .seq =>
    if 0x050 ≤ off ∧ off < 0x070 then
      some ((if off < 0x068 then 0x80010a01 else 0x10a01) + 0x1000000 * ((off - 0x050) / 4)) else none
  | .ch =>
    let j := i % 8
    if off = 0x080 then some (0x08000000 + 0x1000 * (j + 1))
    else if off = 0x090 then some (0x08000000 + 0x1000 * (j + 1) + 0x800)
    else if off = 0x404 then some (0x00800000 + 128 * j)
    else if off = 0x408 then some ((128 * j + 127) * 0x10000 + 128 * j)
    else if off = 0x40c then some (128 * j)
    else if off = 0x410 then some ((128 * j) * 0x100000 + (128 * j + 127) * 0x400 + 128 * j)
    else if off = 0x414 ∨ off = 0x418 then
      some ((4 * j + 3) * 0x1000000 + (4 * j + 2) * 0x10000 + (4 * j + 1) * 0x100 + 4 * j)
    else none
  | _ => none

/-- The reset value of a page's direct register. -/
def directReset (page off : Nat) : Word :=
  match pageBlock page with
  | none => 0
  | some (b, i) =>
    if off = 0x008 then w32 (enReset b i)
    else if off = 0x014 then w32 (irqBits b)
    else match specialReset b i off with
      | some v => w32 v
      | none => match rowAt (directRows b) off with
        | some r => w32 r.reset
        | none => 0

/-- The bits of a page's direct register that a write stores (R9, R11). IRQ_PEND and IRQ_MASK hold the assigned bits; the
mailbox and indirect registers exist where the block has them (R30). IRQ_GROUP of a page without interrupt bits reads 0. DESIGN CHOICE: log entry 74. -/
def directMask (page off : Nat) : Nat :=
  match pageBlock page with
  | none => 0
  | some (b, _) =>
    if off = 0x008 then 0x5
    else if off = 0x010 ∨ off = 0x014 then irqBits b
    else if off = 0x018 then (if irqBits b = 0 then 0 else 0x1f)
    else if off = 0x020 then (if hasInd b then 0x80fffffc else 0)
    else if 0x040 ≤ off ∧ off < 0x050 ∧ off % 4 = 0 then (if hasMbx b then 0xffffffff else 0)
    else match rowAt (directRows b) off with
      | some r => r.mask
      | none => 0

/-- The reset value of a word of a page's indirect map. -/
def indReset (page addr : Nat) : Word :=
  match pageBlock page with
  | none => 0
  | some (b, _) => match rowAt (indirectRows b) addr with
    | some r => w32 r.reset
    | none => 0

/-- The bits of a word of a page's indirect map that a write stores. CAN mailbox words 18 to 31 of each 0x80 bytes are not
named by the map (R36). -/
def indMask (page addr : Nat) : Nat :=
  match pageBlock page with
  | none => 0
  | some (b, _) =>
    if b = .can ∧ 0x1000 ≤ addr ∧ 0x48 ≤ (addr - 0x1000) % 0x80 then 0
    else match rowAt (indirectRows b) addr with
    | some r => r.mask
    | none => 0

/-- What the register at a key holds at reset (R12). DESIGN CHOICE: log entry 3. -/
def regReset (k : Nat) : Word :=
  if k < 0x10000000000 then directReset (k / 0x1000) (k % 0x1000)
  else indReset ((k - 0x10000000000) / 0x1000000) ((k - 0x10000000000) % 0x1000000)

end Sys2Proof.Machine
end

