-- ==== Sys2Proof/Machine/State.lean ====
section
/-! DEFINITION. The hub's state as plain data, the reasons a step can stop, and the state after reset. -/

namespace Sys2Proof.Machine

/-- Why a step stops with a fault: there is no reason. The hub answers an access that fails with a status and goes on, so no
constructor is needed and nothing raises one. -/
inductive Fault where
deriving DecidableEq, Repr

/-- Why a step is refused. -/
inductive Refusal where
  /-- A row of the opcode table that has no meaning. It is what `exec` would answer for such a row; every row has its meaning, so
  nothing raises it. Safe. -/
  | notModelled (mnemonic : String)
deriving DecidableEq, Repr

/-- A TIME mailbox command that has been accepted and executes at the next TCLK edge (R75): its OP, whether the steward issued it, and
its argument. -/
structure TimeCmd where
  op : Nat
  steward : Bool
  arg : Nat
deriving DecidableEq, Repr

/-- The time counter (R49, R56, R58) and what the corrections of R60–R63 leave. -/
structure TimeSt where
  /-- seconds of the PTP timescale -/
  sec : BitVec 48
  /-- nanoseconds, below 1,000,000,000 -/
  ns : Nat
  /-- fraction of a nanosecond, in 2^−32 ns -/
  frac : BitVec 32
  /-- quality code (R56): state in bits [3:2], source in bits [1:0] -/
  quality : BitVec 4
  /-- uncertainty U in 2^−8 ns (R58) -/
  unc : Nat
  /-- a refused correction is held (R61) -/
  refusedHeld : Bool
  /-- an initial set has been applied since UNSYNC was entered (R62) -/
  initSetDone : Bool
  /-- past changes of the quality code, newest first: when, and the code before -/
  history : List (TimePoint × BitVec 4)
  /-- the command that waits for the next TCLK edge (R75) -/
  cmd : Option TimeCmd
  /-- TCLK count of the last slew step, or of the acceptance of the correction being slewed (R60) -/
  slewAt : Nat
  /-- TCLK count at which U last grew, or HOLDOVER was entered (R58) -/
  growAt : Nat
  /-- XT32 edges counted (R59) -/
  xts : Nat
deriving DecidableEq, Repr

/-- One qualification check of a page (R21, R22, R540). -/
structure CheckSt where
  /-- TCLK count of the check's last QUAL_FAIL -/
  last : Option Nat
  /-- failures gathered since that record -/
  gathered : Nat
  /-- of the first gathered failure: its item, specific value, time and quality summary -/
  item : Nat
  value : Word
  time : TimePoint
  quality : Nat
  /-- the key of the check's counter -/
  counter : Nat
  /-- the items for which the check stands failed -/
  standing : List Nat
  /-- TCLK count of the check's last failure -/
  failAt : Nat
deriving DecidableEq, Repr

/-- A mailbox command that has executed and not yet completed (R33): its error code, 0 for none, and its result words. -/
structure MbxJob where
  err : Nat
  d0 : Option Word
  d1 : Option Word
  d2 : Option Word
  d3 : Option Word
deriving DecidableEq, Repr

/-- An event queue's working state (R404–R409). -/
structure EvQueue where
  /-- producer index P -/
  prod : Nat
  /-- written count, modulo 2^32 -/
  written : Word
  phase : Bool
  /-- records written and not yet announced -/
  unannounced : Nat
  /-- TCLK count at which the first unannounced record was written (R409) -/
  holdoff : Option Nat
  overflow : Bool
  dropped : Nat
  firstLost : BitVec 16
  lastLost : BitVec 16
  /-- time and quality summary at which the queue entered OVERFLOW -/
  overflowAt : TimePoint
  overflowQual : Nat
deriving DecidableEq, Repr

/-- An entry of the MSI-X table (R410). -/
structure MsixVec where
  addr : BitVec 64
  data : Word
  masked : Bool
deriving DecidableEq, Repr

/-- What the host port sends, in order. -/
inductive HostTlp where
  | memWrite (addr : BitVec 64) (bytes : List Byte)
  | msix (vector : Nat) (addr : BitVec 64) (data : Word)
  | memRead (channel off : Nat) (addr : BitVec 64) (len : Nat)
  | readData (bytes : List Byte)
  | readUnsupported
  | readAbort
  | configRetry
  | configDone
deriving DecidableEq, Repr

/-- A counting private timer (R436): microseconds left and TCLK periods into the current one. -/
structure TimerSt where
  count : Nat
  periods : Nat
deriving DecidableEq, Repr

/-- The interrupt controller (R420–R436). -/
structure IcuSt where
  /-- pending shared sources, rising -/
  pend : List Nat
  /-- pending private sources, as 32 × target + index, rising -/
  priv : List Nat
  /-- per target (0 STW, 1–4 AC0–AC3, 5 HOST): claimed ID and threshold to restore, oldest first -/
  nest : Tab (List (Nat × Nat))
  /-- targets whose STACK_FULL, MISMATCH stand -/
  full : List Nat
  mismatch : List Nat
  /-- hold-off groups whose interval runs, and the TCLK counts of the claims that started it -/
  holding : List Nat
  holdAt : Tab Nat
  /-- running timers, keyed 4 × target + k -/
  timers : Tab (Option TimerSt)
deriving DecidableEq, Repr

/-- An event other than QUAL_FAIL that is reported under the spacing of R22: the TCLK count of its last record, how many conditions
are gathered, and the record of the first of them. `countWord` names the payload word that carries the count, `cntWord` the one
that carries the counter at `cntKey`. -/
structure Gather where
  last : Option Nat
  count : Nat
  ty : Nat
  page : Nat
  flags : Nat
  w4 : Word
  w5 : Word
  w6 : Word
  w7 : Word
  time : TimePoint
  quality : Nat
  countWord : Nat
  cntWord : Nat
  cntKey : Nat
deriving DecidableEq, Repr

def Gather.init : Gather := ⟨none, 0, 0, 0, 0, 0, 0, 0, 0, ⟨0, 0⟩, 0, 0, 0, 0⟩

/-- Errors of one memory and kind gathered under the 1 ms spacing of the ECC reports (R446). -/
structure EccSt where
  /-- TCLK count of the last record -/
  last : Option Nat
  count : Nat
  /-- of the first error gathered: found by the scrubber, its address, syndrome, time and quality summary -/
  scrub : Bool
  addr : Word
  syndrome : Word
  time : TimePoint
  quality : Nat
deriving DecidableEq, Repr

def EccSt.init : EccSt := ⟨none, 0, false, 0, 0, ⟨0, 0⟩, 0⟩

/-- Who waits with an access to IND_DATA: an agent of the node, the request at the head of the inbound queue (R319), or the next posted
write of a source (R317). -/
inductive AccWho where
  | agent (a : Agent)
  | inbound
  | posted (source : Nat)
deriving DecidableEq, Repr

/-- An access to IND_DATA that waits (R35, R36): the word of a write, and the TCLK count at its issue. -/
structure IndAccess where
  who : AccWho
  data : Option Word
  since : Nat
deriving DecidableEq, Repr

/-- An access of an agent to a TILE or CH page that stalls until the tile's clock is locked (R128): a write's bytes, or a read's
length. -/
structure Stall where
  agent : Agent
  addr : Nat
  data : Option (List Byte)
  len : Nat
deriving DecidableEq, Repr

/-- The state of the hub. -/
structure State where
  /-- commands that wait, first in, first out -/
  pending : List Instr
  /-- registers, keyed as Registers.lean says -/
  regs : Tab Word
  /-- words of a frozen page as they read when FREEZE was set, by offset; those of its indirect map by 0x1000 + address (R38) -/
  frozen : Tab (Tab Word)
  /-- E: edges held while FREEZE = 1 (R38, R40), by page -/
  heldIrq : Tab Word
  mbx : Tab (Option MbxJob)
  /-- accesses to IND_DATA of a page that wait for its domain, in order (R35) -/
  ind : Tab (List IndAccess)
  /-- accesses to the TILE and CH pages of a tile that stall, in order (R128) -/
  stalls : Tab (List Stall)
  checks : Tab CheckSt
  /-- other reports under R22, by key -/
  gathers : Tab Gather
  /-- ECC reports by 32 × page + 2 × memory, plus 1 for uncorrectable errors (R446) -/
  ecc : Tab EccSt
  /-- record sequence (R44) -/
  recSeq : BitVec 16
  time : TimeSt
  /-- application SRAM and DDR4, by node-local address -/
  mem : List Host.Cell
  evq : Tab EvQueue
  msix : Tab MsixVec
  msixPba : List Nat
  msixEnable : Bool
  msixFuncMask : Bool
  hostTx : List HostTlp
  icu : IcuSt
  /-- tile SRAM by 32-bit word: 16,384 × tile + word (R126) -/
  sram : Tab Word
  lines : Tab LineCell
  tiles : Tab TileSt
  /-- the places given to qualified edges, and whether stamps wait for step 9 of R456 (R541) -/
  stampOrder : Nat
  stampsHeld : Bool
  ctrs : Tab CtrSt
  /-- FIFOs by 2 × channel for RX and 2 × channel + 1 for TX; CAN controllers follow at 128 -/
  fifos : Tab FifoSt
  lease : LeaseSt
  plk : PlkSt
  wins : Tab WinEnt
  /-- windows whose state bit is 1 (R93) -/
  winOpen : List Nat
  winEdges : List WinEdge
  drill : Tab DrillEnt
  /-- targets of the drill's launches of the last 1 µs (R116) -/
  launches : List TimePoint
  rules : Tab Rule
  /-- rules queued for evaluation: EXPRESS and normal (R192) -/
  express : List Nat
  normal : List Nat
  eval : EvalSt
  /-- SIGOP bits that show 1 (R215) -/
  sigOps : List Nat
  pubs : Tab PubSlot
  /-- slots written in the present cycle, in order (R210), and the TCLK count of the last heartbeat scan (R213) -/
  pubOpen : List PubOpen
  hbAt : Nat
  subs : Tab SubEnt
  net : NetSt
  ring : RingSt
  /-- power state, and hub die held in reset or unpowered -/
  power : PowerState
  /-- DRILL_DONE records of pulses that still run -/
  pulseDone : List PulseDone
  engs : Tab EngSt
  /-- start events that have not yet acted, oldest first -/
  starts : List StartEvt
  ptp : PtpSt
  /-- local time sources: channels 0–63, 64 for PPS_IN -/
  sources : Tab LocalSrc
  serial : Tab SerSt
  cans : Tab CanSt
  xbr : XbrSt
  host : HostSt
  dma : Tab DmaSt
  /-- cores: 0 the steward, 1–4 AC0–AC3 -/
  cores : Tab CoreSt
  /-- tightly coupled memories by 2^19 × pair + offset, and the steward's private SRAM (R439) -/
  tcm : Tab Byte
  stwSram : Tab Byte
  /-- the OSPI flash by address; erased bytes read 0xFF -/
  flash : Tab Byte
  boot : BootSt
  otp : OtpSt
  /-- the bytes hashed since SHA_INIT (R466) -/
  sha : List Byte
  pwr : PwrSt
  clk : ClkSt
  /-- the answer of the last access to the node-local map -/
  reply : Reply
  /-- M: TCLK edges counted, for intervals the spec counts in TCLK periods or ms -/
  tclks : Nat
  freeTick : Nat
deriving DecidableEq, Repr

/-- The state right after power-on reset (R12, R501 cause 0), the hub die running and nothing loaded. Registers stand at the reset
values of Registers.lean; the quality code is UNSYNC (R57), no originated frame leaves for 12 ms (R242), OWN_OUT is low (R340) and the
power-path die has started as after a loss of VDD_AO (R478). `now` is the model's own count of TCLK edges.
DESIGN CHOICE: log entries 4 and 6. -/
def State.powerOn (now : Nat) : State :=
  { pending := [], regs := [], frozen := [], heldIrq := [], mbx := [], ind := [], stalls := [], checks := [], gathers := [], ecc := [], recSeq := 0,
    time := ⟨0, 0, 0, 0xF, 65280, false, false, [], none, now, now, 0⟩,
    mem := [], evq := [], msix := [], msixPba := [], msixEnable := false, msixFuncMask := false, hostTx := [],
    icu := ⟨[], [], [], [], [], [], [], []⟩, sram := [], lines := [], tiles := [], stampOrder := 0, stampsHeld := true,
    ctrs := [], fifos := [], lease := { LeaseSt.init with peerAt := now }, plk := { PlkSt.init with since := now }, wins := [], winOpen := [], winEdges := [], drill := [], launches := [],
    rules := [], express := [], normal := [], eval := EvalSt.init, sigOps := [], pubs := [], pubOpen := [],
    hbAt := now, subs := [],
    net := { NetSt.init with
      quiet := some now, links := (upFrom 0 4).foldl (fun t i => Tab.set LinkSt.init t i { LinkSt.init with since := now, stAt := now }) [] },
    ring := { RingSt.init with home := { RingSide.init with since := now }, far := { RingSide.init with since := now } }, power := .active, pulseDone := [], engs := [], starts := [],
    ptp := PtpSt.init, sources := [], serial := [], cans := [], xbr := XbrSt.init, host := HostSt.init, dma := [],
    cores := [(0, { CoreSt.init with wdt := some now })], tcm := [], stwSram := [], flash := [], boot := BootSt.init,
    otp := OtpSt.init, sha := [], pwr := PwrSt.init now, clk := ClkSt.init, reply := Reply.init, tclks := now, freeTick := 0 }

/-- The machine right after reset. -/
def State.reset : State := State.powerOn 0

end Sys2Proof.Machine
end

