-- ==== Sys2Proof/Machine/Ops.lean ====
section
/-! DEFINITION. The named operations that every command's meaning is built from: registers, counters, memory, time,
interrupt requests and the interrupt controller's latch, MSI-X messages, event records and queues, qualification checks
and mailboxes. -/

namespace Sys2Proof.Machine

/-- An agent of the node, and no frame. -/
def AccWho.isAgent : AccWho → Bool
  | .agent _ => true
  | .inbound | .posted _ => false

/-! ### Registers -/

/-- The register at key `k`. -/
def State.rd (s : State) (k : Nat) : Word := Tab.get (regReset k) s.regs k

/-- The register at key `k` set to `v` by hardware. -/
def State.wr (s : State) (k : Nat) (v : Word) : State :=
  { s with regs := Tab.set (regReset k) s.regs k v }

/-- A field of a register as a number. -/
def State.fld (s : State) (k lo width : Nat) : Nat := bits (s.rd k) lo width

/-- One bit of a register. -/
def State.flag (s : State) (k i : Nat) : Bool := bit (s.rd k) i

/-- A direct register of a page written by software that alone may write it, stored at once in what a frozen page shows too (R38). -/
def State.wrShown (s : State) (page off : Nat) (v : Word) : State :=
  let s := s.wr (pageKey page off) v
  let f := Tab.get [] s.frozen page
  if f.isEmpty then s else { s with frozen := Tab.set [] s.frozen page (Tab.set 0 f off v) }

/-- A field of a register set by hardware. -/
def State.setFld (s : State) (k lo width v : Nat) : State := s.wr k (setBits (s.rd k) lo width v)

/-- A counter advanced by one; it saturates (R21). -/
def State.bump (s : State) (k : Nat) : State := s.wr k (satInc (s.rd k))

/-- A counter advanced by `n`; it saturates (R21). -/
def State.bumpBy (s : State) (k n : Nat) : State :=
  s.wr k (w32 (capAt 0xFFFFFFFF ((s.rd k).toNat + n)))

/-- Registers from key `k`, `n` of them 4 apart, set to 0. -/
def State.zeroRegs (s : State) (k n : Nat) : State :=
  { s with regs := (upFrom 0 n).foldl (fun t j => Tab.set (regReset (k + 4 * j)) t (k + 4 * j) 0) s.regs }

/-- CTRL.EN of a page (R30). -/
def State.enabled (s : State) (page : Nat) : Bool := s.flag (Reg.ctrl page) 0

/-- CTRL.FREEZE of a page (R38). -/
def State.isFrozen (s : State) (page : Nat) : Bool := s.flag (Reg.ctrl page) 2

/-! ### Memory of the node-local map (R24) -/

/-- A byte of application SRAM or DDR4; memory that nothing has written reads 0. DESIGN CHOICE: log entry 5. -/
def State.memGet (s : State) (a : Nat) : Byte := Tab.get 0 s.mem a

/-- A byte of application SRAM or DDR4 written. -/
def State.memSet (s : State) (a : Nat) (b : Byte) : State := { s with mem := Tab.set 0 s.mem a b }

/-- Bytes written from address `a` up. -/
def State.memPut (s : State) (a : Nat) : List Byte → State
  | [] => s
  | b :: bs => (s.memSet a b).memPut (a + 1) bs

/-- `n` bytes from address `a` up. -/
def State.memTake (s : State) (a n : Nat) : List Byte := (upFrom a n).map s.memGet

/-- The canonical form of the node-local memory. -/
def Memory.wf (m : List Host.Cell) : Bool := Tab.wf (fun _ => (0 : Byte)) m

/-- A word as its four bytes, least significant first (R7). -/
def wordBytes (w : Word) : List Byte :=
  [BitVec.ofNat 8 w.toNat, BitVec.ofNat 8 (w.toNat >>> 8), BitVec.ofNat 8 (w.toNat >>> 16),
   BitVec.ofNat 8 (w.toNat >>> 24)]

/-- Words as bytes (R7). -/
def wordsBytes : List Word → List Byte
  | [] => []
  | w :: ws => wordBytes w ++ wordsBytes ws

/-- Bytes as a number, least significant first. -/
def bytesNat : List Byte → Nat
  | [] => 0
  | b :: bs => b.toNat + 256 * bytesNat bs

/-- Byte `i` of a sequence as a number. -/
def byteAt (b : List Byte) (i : Nat) : Nat := ((b.drop i).headD 0).toNat

/-- Bytes `i`, `i + 1`, …, `n` of them, most significant first (R6). -/
def beAt (b : List Byte) (i n : Nat) : Nat := ((b.drop i).take n).foldl (fun acc x => acc * 256 + x.toNat) 0

/-- `v` as `n` bytes, most significant first (R6). -/
def beBytes (n v : Nat) : List Byte := ((upFrom 0 n).map fun i => BitVec.ofNat 8 (v >>> (8 * i))).reverse

/-- The node-local address of a transaction frame's payload (R308). -/
def xAddr (b : List Byte) : Nat := beAt b 8 6

/-- The answer of an access that read one word. -/
def State.answered (s : State) (w : Word) : State := { s with reply := ⟨0, wordBytes w⟩ }

/-- Whether a node-local address lies in application SRAM (R24). -/
def inAppSram (a : Nat) : Bool := decide (0x1000000 ≤ a) && decide (a < 0x1400000)

/-! ### Intervals -/

/-- Whether at least `n` TCLK periods of 40 ns have passed since count `t`. DESIGN CHOICE: log entry 9. -/
def State.passed (s : State) (t n : Nat) : Bool := decide (t + n ≤ s.tclks)

/-- TCLK periods in µs and in ms. -/
def usTclks (n : Nat) : Nat := 25 * n
def msTclks (n : Nat) : Nat := 25000 * n

/-- Whether less than 1 ms has passed since a report made at count `last` (R22). -/
def State.spaced (s : State) (last : Option Nat) : Bool :=
  match last with
  | none => false
  | some t => !s.passed t (msTclks 1)

/-! ### Time -/

/-- The current fabric time as it is stored and compared (R51, R55). -/
def State.now (s : State) : TimePoint := ⟨BitVec.ofNat 32 s.time.sec.toNat, s.time.ns⟩

/-- The quality summary: bits [3:2] of the code (R42, R56). -/
def State.qualSum (s : State) : Nat := s.time.quality.toNat / 4

/-- The quality code that a history leaves in force at `t`, given the code after its newest change. -/
def codeAt (ahead : TimePoint → Bool) (cur : BitVec 4) : List (TimePoint × BitVec 4) → BitVec 4
  | [] => cur
  | (c, old) :: rest => if ahead c then codeAt ahead old rest else cur

/-- The signed difference a − b in nanoseconds (R54). -/
def timeDiff (a b : TimePoint) : Int :=
  (a.sec - b.sec).toInt * 1000000000 + ((a.ns : Int) - (b.ns : Int))

/-- `t` moved by a number of nanoseconds, the seconds modulo 2^32. -/
def timeAdd (t : TimePoint) (d : Int) : TimePoint :=
  let total : Int := (t.ns : Int) + d
  ⟨t.sec + BitVec.ofInt 32 (total.fdiv 1000000000), (total.fmod 1000000000).toNat⟩

/-- `a` is not earlier than `b` (R54). -/
def timeReached (a b : TimePoint) : Bool := decide (0 ≤ timeDiff a b)

/-- The quality summary of the time state at `t`, by R54 (R210, R211). -/
def State.qualAt (s : State) (t : TimePoint) : Nat :=
  (codeAt (fun c => decide (timeDiff t c < 0)) s.time.quality s.time.history).toNat / 4

/-- A cycle placed on time `t` may come: the counter will have reached it by the next TCLK edge. DESIGN CHOICE: log entry 2. -/
def State.due (s : State) (t : TimePoint) : Bool := decide (timeDiff t s.now ≤ 40)

/-- Whether the hub die can run: powered and out of reset. -/
def State.hubUp (s : State) : Bool := decide (s.power = .active) || decide (s.power = .fallow)

/-- Whether the counter advances on XT32 (R59, R501): in DORMANT and while a TCLK_FAIL or PLL_FAIL reset is held, where XT32 is fitted;
a failed XT32 counts as not fitted (R496). -/
def State.onXt32 (s : State) : Bool :=
  (decide (s.power = .dormant) || (decide (s.power = .held) && (decide (s.clk.hold = some 5) || decide (s.clk.hold = some 6))))
    && !setHas s.clk.failed 2

/-- The SerDes of the fabric ports and PLK have their clock (R497, R498). -/
def State.serdesRuns (s : State) : Bool := s.hubUp && !setHas s.clk.failed 3 && !setHas s.clk.unlocked 3

/-- A fresh free word, and the count advanced past it. DESIGN CHOICE: log entry 8. -/
def State.fresh (s : State) : Word × State :=
  (Config.freeWord s.freeTick, { s with freeTick := s.freeTick + 1 })

/-! ### Supplies -/

/-- Rail r's power-good after polarity (R485). -/
def State.railGood (s : State) (r : Nat) : Bool := xor (s.pwr.pg.toNat.testBit r) (s.flag (Reg.seqRail r) 30)

def State.railUsed (s : State) (r : Nat) : Bool := s.flag (Reg.seqRail r) 31

/-- The hub runs with the sequencer off and no card seated since VDD_AO rose, as after State.reset: its rails come from elsewhere.
DESIGN CHOICE: log entry 4. -/
def State.railsElsewhere (s : State) : Bool := decide (s.pwr.seq = 0) && s.pwr.aoLost && decide (s.power ≠ .off)

/-- Whether the VDDIO banks are supplied (R525): rail 5 shows power-good, or the sequencer does not supply it. DEDUCED: log entry 86. -/
def State.banksPowered (s : State) : Bool := !s.railUsed 5 || s.railGood 5 || s.railsElsewhere

/-- The hub die's rails 0–4 all show power-good (R493). -/
def State.hubRailsGood (s : State) : Bool := (upFrom 0 5).all fun r => s.railGood r

/-! ### The host port's messages -/

/-- A TLP sent to the host. -/
def State.sendTlp (s : State) (t : HostTlp) : State := { s with hostTx := s.hostTx ++ [t] }

/-- An entry of the MSI-X table at reset: masked, as the PCI Express base specification gives it. -/
def MsixVec.init : MsixVec := ⟨0, 0, true⟩

/-- The message of MSI-X vector `v`: sent, or made pending while the vector or the function is masked (R410).
DEDUCED: log entry 59. PRESUMED: log entry 60. -/
def State.msixSend (s : State) (v : Nat) : State :=
  let e := Tab.get MsixVec.init s.msix v
  if e.masked || s.msixFuncMask || !s.msixEnable then { s with msixPba := setAdd s.msixPba v }
  else s.sendTlp (.msix v e.addr e.data)

/-! ### The interrupt controller's latch (R420–R424) -/

/-- The key of a target's current threshold: 0 STW, 1–4 AC0–AC3, 5 HOST (R424, R434). -/
def thresholdKey (t : Nat) : Nat := if t = 5 then Reg.icuHostThreshold else Reg.icupThreshold (t % 8)

/-- The hold-off group of a shared source: the page's IRQ_GROUP for sources 1–208, its SRC_CFG otherwise (R422). -/
def State.sharedGroup (s : State) (id : Nat) : Nat :=
  if id ≤ 208 then s.fld (Reg.irqGroup (id - 1)) 0 5 else s.fld (Reg.icuSrcCfg id) 16 5

/-- Whether shared source `id`, pending, is eligible for target `t` (R424); its PRIO otherwise 0. -/
def State.sharedPrio (s : State) (t id : Nat) : Nat :=
  let c := s.rd (Reg.icuSrcCfg id)
  let p := bits c 0 4
  if bit c 31 && decide (bits c 8 3 = t) && decide (s.fld (thresholdKey t) 0 4 < p)
      && !setHas s.icu.holding (s.sharedGroup id) then p else 0

/-- The same for private source `j` of target `t` (R422, R424). -/
def State.privPrio (s : State) (t j : Nat) : Nat :=
  let c := s.rd (Reg.icupPrivCfg t j)
  let p := bits c 0 4
  if bit c 31 && decide (s.fld (thresholdKey t) 0 4 < p)
      && !setHas s.icu.holding (bits c 16 5) then p else 0

/-- The better of two claim candidates (ID, PRIO): higher PRIO, the earlier one on a tie (R426). -/
def better (a b : Nat × Nat) : Nat × Nat := if a.2 < b.2 then b else a

/-- The eligible source of highest PRIO for target `t`, as (ID, PRIO); (0, 0) where none is (R426). Shared sources come
before private ones, lower IDs before higher. -/
def State.bestSource (s : State) (t : Nat) : Nat × Nat :=
  let sh := s.icu.pend.foldl (fun acc id => better acc (id, s.sharedPrio t id)) (0, 0)
  s.icu.priv.foldl
    (fun acc k => if k / 32 = t then better acc (480 + k % 32, s.privPrio t (k % 32)) else acc) sh

/-- Whether target `t`'s request is asserted (R424). -/
def State.targetRequest (s : State) (t : Nat) : Bool := decide (0 < (s.bestSource t).2)

/-- A change of the interrupt controller; a rising edge of the HOST request sends the MSI-X message of EVQ.ICU_VEC
(R434). -/
def State.withHostRequest (s : State) (f : State → State) : State :=
  let s' := f s
  if !s.targetRequest 5 && s'.targetRequest 5 then s'.msixSend (s'.fld Reg.evqIcuVec 0 6) else s'

/-- Shared source `id` becomes pending (R420). -/
def State.icuPend (s : State) (id : Nat) : State :=
  s.withHostRequest fun s => { s with icu := { s.icu with pend := setAdd s.icu.pend id } }

/-- Private source `j` of target `t` fires (R420, R435). -/
def State.icuPrivate (s : State) (t j : Nat) : State :=
  { s with icu := { s.icu with priv := setAdd s.icu.priv (32 * t + j) } }

/-! ### Interrupt bits of a page (R39, R40) -/

/-- E, the edges held by FREEZE. -/
def State.heldOf (s : State) (page : Nat) : Word := Tab.get 0 s.heldIrq page

/-- The block's interrupt request to its ICU source (R40). -/
def State.request (s : State) (page : Nat) : Bool :=
  ((s.rd (Reg.irqPend page) ||| s.heldOf page) &&& ~~~ s.rd (Reg.irqMask page)) != 0#32

/-- A change of a page's interrupt registers; a rising edge of its request sets the page's ICU source pending
(R419, R420). -/
def State.withRequest (s : State) (page : Nat) (f : State → State) : State :=
  let s' := f s
  if !s.request page && s'.request page then s'.icuPend (page + 1) else s'

/-- A rising edge of interrupt bit `b` of a page: set in IRQ_PEND, or held while FREEZE = 1 (R38, R39). -/
def State.raise (s : State) (page b : Nat) : State :=
  s.withRequest page fun s =>
    if s.isFrozen page then
      { s with heldIrq := Tab.set 0 s.heldIrq page (s.heldOf page ||| w32 (2 ^ b)) }
    else s.wr (Reg.irqPend page) (s.rd (Reg.irqPend page) ||| w32 (2 ^ b))

/-! ### Event queues (R403–R409) -/

/-- A queue that has never been enabled. -/
def EvQueue.init : EvQueue := ⟨0, 0, true, 0, none, false, 0, 0, 0, ⟨0, 0⟩, 0⟩

/-- The state of queue `n`. -/
def State.evQueue (s : State) (n : Nat) : EvQueue := Tab.get EvQueue.init s.evq n

def State.setEvQueue (s : State) (n : Nat) (q : EvQueue) : State :=
  { s with evq := Tab.set EvQueue.init s.evq n q }

/-- The number of entries of queue `n`: 2^LOG2SIZE, values outside 6–16 acting as 6 (R404). -/
def State.evSize (s : State) (n : Nat) : Nat :=
  let l := s.fld (Reg.evqQCfg n) 0 5
  if 6 ≤ l ∧ l ≤ 16 then 2 ^ l else 64

/-- The fill of queue `n` (R407). -/
def State.evFill (s : State) (n : Nat) : Nat :=
  ((s.evQueue n).prod + s.evSize n - s.fld (Reg.evqQCi n) 0 16 % s.evSize n) % s.evSize n

/-- Queue `n` lies in application SRAM (SPACE = 1) and not in host space. -/
def State.evLocal (s : State) (n : Nat) : Bool := s.flag (Reg.evqQCfg n) 30

/-- A write by the hub to the space of queue `n`: host memory, or application SRAM. -/
def State.evWrite (s : State) (n addr : Nat) (ws : List Word) : State :=
  if s.evLocal n then
    (if inAppSram addr then s.memPut addr (wordsBytes ws) else s)
  else s.sendTlp (.memWrite (BitVec.ofNat 64 addr) (wordsBytes ws))

/-- The base of queue `n`'s ring, bits below the ring's size ignored. -/
def State.evBase (s : State) (n : Nat) : Nat :=
  let a := (s.rd (Reg.evqQBaseLo n)).toNat + (s.rd (Reg.evqQBaseHi n)).toNat * 2 ^ 32
  a - a % (32 * s.evSize n)

/-- The written count put at Q_PI_ADDR where PI_EN = 1 (R406). -/
def State.evWritePi (s : State) (n : Nat) : State :=
  if s.flag (Reg.evqQCfg n) 28 then
    let a := (s.rd (Reg.evqQPiAddrLo n)).toNat + (s.rd (Reg.evqQPiAddrHi n)).toNat * 2 ^ 32
    s.evWrite n (a - a % 4) [(s.evQueue n).written]
  else s

/-- Queue `n` announces its pending records: PI, then the MSI-X message or the ICU request (R406, R409). -/
def State.evAnnounce (s : State) (n : Nat) : State :=
  let s := s.evWritePi n
  let s := s.setEvQueue n { s.evQueue n with unannounced := 0, holdoff := none }
  if s.evLocal n then s.raise 0x24 n else s.msixSend (s.fld (Reg.evqQCfg n) 16 6)

/-- An event record's words, PHASE 0 (R42). -/
structure Rec where
  w0 : Word
  w1 : Word
  w2 : Word
  w3 : Word
  w4 : Word
  w5 : Word
  w6 : Word
  w7 : Word
deriving DecidableEq, Repr

/-- The record at entry P of queue `n` with the current phase, as one write or, with SPLIT = 1, words 1–7 and then word 0;
P advances and toggles the phase as it wraps (R404, R405). -/
def State.evStore (s : State) (n : Nat) (r : Rec) : State :=
  let q := s.evQueue n
  let a := s.evBase n + 32 * q.prod
  let w0 := setBits r.w0 31 1 (b2n q.phase)
  let rest := [r.w1, r.w2, r.w3, r.w4, r.w5, r.w6, r.w7]
  let s := if s.flag (Reg.evqQCfg n) 29 then (s.evWrite n (a + 4) rest).evWrite n a [w0]
    else s.evWrite n a (w0 :: rest)
  let next := (q.prod + 1) % s.evSize n
  s.setEvQueue n { q with
    prod := next, written := q.written + 1, phase := if next = 0 then !q.phase else q.phase,
    unannounced := q.unannounced + 1, holdoff := some (q.holdoff.getD s.tclks) }

/-- Announce where the moderation of R409 says so: COUNT records pending (0 acting as 1), or HOLDOFF 0. -/
def State.evModerate (s : State) (n : Nat) : State :=
  let m := s.rd (Reg.evqQMod n)
  let c := if bits m 0 16 = 0 then 1 else bits m 0 16
  if 0 < (s.evQueue n).unannounced ∧ (c ≤ (s.evQueue n).unannounced ∨ bits m 16 16 = 0) then s.evAnnounce n
  else s

/-- The severity that R47 fixes for a record type; USER carries its poster's. -/
def typeSeverity (ty : Nat) : Nat :=
  if ty ∈ [0x04, 0x29, 0x3B, 0x44, 0x5A, 0x5B, 0x61, 0x70, 0x71, 0x7A, 0x7B, 0x7C, 0x7E, 0x7F] then 3
  else if ty ∈ [0x01, 0x11, 0x14, 0x18, 0x20, 0x28, 0x2A, 0x2B, 0x2C, 0x39, 0x41, 0x42, 0x4B, 0x50, 0x51, 0x52, 0x54,
      0x59, 0x60, 0x62, 0x63, 0x68, 0x6A, 0x72, 0x74, 0x79, 0x7D] then 2
  else if ty ∈ [0x03, 0x10, 0x12, 0x13, 0x31, 0x32, 0x38, 0x45, 0x48, 0x49, 0x4C, 0x53, 0x58, 0x5C, 0x6B, 0x73,
      0x77] then 1
  else 0

/-- The node ID in use (R43, R259). -/
def State.nodeId (s : State) : Nat := s.fld Reg.ringNodeId 0 16

/-- A record with the next sequence number, and the sequence advanced (R42–R44). -/
def State.mkRec (s : State) (ty sev : Nat) (b : Block) (inst flags : Nat) (t : TimePoint) (q : Nat)
    (w4 w5 w6 w7 : Word) : Rec × State :=
  ({ w0 := w32 (at_ 24 ty + at_ 16 (typeCode b) + at_ 8 inst + at_ 6 sev + flags % 32),
     w1 := t.sec, w2 := w32 (at_ 30 q + t.ns),
     w3 := w32 (at_ 16 s.nodeId + s.recSeq.toNat), w4, w5, w6, w7 },
   { s with recSeq := s.recSeq + 1 })

/-- Whole microseconds from `a` to `b`, saturating at 2^32 − 1. -/
def microsBetween (a b : TimePoint) : Nat := capAt 0xFFFFFFFF ((timeDiff b a).toNat / 1000)

/-- Where the fill of an enabled queue allows it, EVQ_OVERFLOW is written before any other record and the queue leaves OVERFLOW (R408); its time is that
of the entry to OVERFLOW (R43).
DEDUCED: log entry 59. -/
def State.evRecover (s : State) (n : Nat) : State :=
  let q := s.evQueue n
  if q.overflow && s.flag (Reg.evqQCfg n) 31 && decide (s.evFill n + 2 ≤ s.evSize n) then
    let (r, s) := s.mkRec 0x68 2 .evq 0 0 q.overflowAt q.overflowQual (w32 n) (w32 (capAt 0xFFFFFFFF q.dropped))
      (w32 (at_ 16 q.firstLost.toNat + q.lastLost.toNat)) (w32 (microsBetween q.overflowAt s.now))
    let s := s.setEvQueue n { s.evQueue n with overflow := false, dropped := 0 }
    ((s.evStore n r).evModerate n)
  else s

/-- A record offered to queue `n`: written, or dropped in OVERFLOW (R407, R408). DEDUCED: log entry 59. -/
def State.evOffer (s : State) (n : Nat) (r : Rec) : State :=
  let s := s.evRecover n
  let q := s.evQueue n
  let sq := BitVec.ofNat 16 r.w3.toNat
  if q.overflow then
    (s.setEvQueue n { q with dropped := q.dropped + 1, lastLost := sq }).bump (Reg.evqCntDrop n)
  else if s.evFill n + 2 ≤ s.evSize n then (s.evStore n r).evModerate n
  else
    let s := s.setEvQueue n { q with
      overflow := true, dropped := 1, firstLost := sq, lastLost := sq, overflowAt := s.now,
      overflowQual := s.qualSum }
    let s := (s.bump (Reg.evqCntDrop n)).evWritePi n
    let s := s.raise 0x24 (16 + n)
    if s.evLocal n then s else s.msixSend (s.fld (Reg.evqQCfg n) 16 6)

/-- A record routed by its TYPE to one queue, or dropped and counted (R403). -/
def State.route (s : State) (r : Rec) : State :=
  let ty := bits r.w0 24 7
  let b := bits (s.rd (Reg.evqRoute (ty / 4))) (8 * (ty % 4)) 8
  let n := b % 16
  if 128 ≤ b ∧ s.flag (Reg.evqQCfg n) 31 then s.evOffer n r else s.bump Reg.evqCntUnrouted

/-- A record of this node posted with its condition's time and quality summary (R42–R44, R48). -/
def State.postFull (s : State) (ty sev : Nat) (b : Block) (inst flags : Nat) (t : TimePoint) (q : Nat)
    (w4 w5 w6 w7 : Word) : State :=
  let (r, s) := s.mkRec ty sev b inst flags t q w4 w5 w6 w7
  s.route r

/-- A record of the type's fixed severity whose condition has time `t` and quality summary `q`. -/
def State.postAt (s : State) (ty : Nat) (b : Block) (inst flags : Nat) (t : TimePoint) (q : Nat)
    (w4 w5 w6 w7 : Word) : State :=
  s.postFull ty (typeSeverity ty) b inst flags t q w4 w5 w6 w7

/-- A record of a condition detected now. -/
def State.post (s : State) (ty : Nat) (b : Block) (inst flags : Nat) (w4 w5 w6 w7 : Word) : State :=
  s.postAt ty b inst flags s.now s.qualSum w4 w5 w6 w7

/-! ### Qualification checks (R21, R22, R46, R540) -/

/-- A check that has never failed. -/
def CheckSt.init : CheckSt := ⟨none, 0, 0, 0, ⟨0, 0⟩, 0, 0, [], 0⟩

/-- The key of a check's state: its page and check ID. -/
def checkKey (page check : Nat) : Nat := page * 0x10000 + check

def State.check (s : State) (page check : Nat) : CheckSt := Tab.get CheckSt.init s.checks (checkKey page check)

def State.setCheck (s : State) (page check : Nat) (c : CheckSt) : State :=
  { s with checks := Tab.set CheckSt.init s.checks (checkKey page check) c }

/-- A record reported by the block of `page`. -/
def State.postPageAt (s : State) (ty page flags : Nat) (t : TimePoint) (q : Nat) (w4 w5 w6 w7 : Word) : State :=
  match pageBlock page with
  | some (b, i) => s.postAt ty b i flags t q w4 w5 w6 w7
  | none => s

/-- A record reported by the block of `page`, of a condition detected now. -/
def State.postPage (s : State) (ty page flags : Nat) (w4 w5 w6 w7 : Word) : State :=
  s.postPageAt ty page flags s.now s.qualSum w4 w5 w6 w7

/-- The hub die takes records: it runs, and its start has reached the release of the queue. -/
def State.takesRecords (s : State) : Bool := s.hubUp && s.boot.started

/-- A record put at the end of the power-path die's always-on queue of eight; a ninth overwrites the oldest (R484).
DEDUCED: log entry 71. -/
def State.powQueue (s : State) (r : PowRec) : State :=
  let p := s.pwr
  { s with pwr :=
    (if p.queue.length < 8 then { p with queue := p.queue ++ [r] }
     else { p with queue := p.queue.drop 1 ++ [r], overwrote := true }) }

/-- A record of the power-path die posted; the first one after an overwrite has bit 4 of word 0 set (R484). -/
def State.powEmit (s : State) (r : PowRec) : State :=
  let flags := r.flags + at_ 4 (b2n s.pwr.overwrote)
  let s := { s with pwr := { s.pwr with overwrote := false } }
  let s := match r.irq with
    | some b => s.raise r.page b
    | none => s
  s.postPageAt r.ty r.page flags r.time r.quality r.w4 r.w5 r.w6 r.w7

/-- A record of the power-path die (pages 3 to 5): posted while the hub die takes records, kept otherwise (R484). -/
def State.powRecord (s : State) (r : PowRec) : State := if s.takesRecords then s.powEmit r else s.powQueue r

/-- The interrupt bit of a failed check of PWR or ADC, raised with a record that was kept. -/
def powIrq (page : Nat) : Nat := if page = 3 then 6 else 0

/-- A QUAL_FAIL or QUAL_CLEAR, reported by a page's block: the power-path die keeps its own while the hub die is down (R484, R490). -/
def State.qualRecord (s : State) (ty page : Nat) (t : TimePoint) (q : Nat) (w4 w5 w6 w7 : Word) : State :=
  if 3 ≤ page ∧ page ≤ 5 then
    s.powRecord ⟨if s.takesRecords || decide (ty = 2) then none else some (powIrq page), ty, page, 0, t, q, w4, w5, w6, w7⟩
  else s.postPageAt ty page 0 t q w4 w5 w6 w7

/-- The gathered failures of a check reported by one QUAL_FAIL; its 1 ms of spacing begins (R22, R46). DEDUCED: log entry 11. -/
def State.qualPost (s : State) (page check : Nat) : State :=
  let c := s.check page check
  let s := s.setCheck page check { c with gathered := 0, last := some s.tclks }
  s.qualRecord 0x01 page c.time c.quality (w32 (at_ 16 check + c.item)) (w32 c.gathered) (s.rd c.counter) c.value

/-- A failure of a check for `item` detected at `t`: counted, and reported at once or gathered (R21, R22).
DEDUCED: log entry 11. -/
def State.qualFailAt (s : State) (page check item : Nat) (value : Word) (counter : Nat) (t : TimePoint) (q : Nat) :
    State :=
  let s := s.bump counter
  let c := s.check page check
  let c := if c.gathered = 0 then { c with item, value, time := t, quality := q } else c
  let c := { c with gathered := c.gathered + 1, counter, standing := setAdd c.standing item, failAt := s.tclks }
  let s := s.setCheck page check c
  if s.spaced c.last then s else s.qualPost page check

/-- A failure detected now. -/
def State.qualFail (s : State) (page check item : Nat) (value : Word) (counter : Nat) : State :=
  s.qualFailAt page check item value counter s.now s.qualSum

/-- The check's failure for `item` clears: gathered failures are reported first, then QUAL_CLEAR (R540).
DEDUCED: log entry 11. -/
def State.qualClear (s : State) (page check item : Nat) (value : Word) : State :=
  let c := s.check page check
  if setHas c.standing item then
    let s := if c.gathered = 0 then s else s.qualPost page check
    let c := s.check page check
    let s := s.setCheck page check { c with standing := setDel c.standing item }
    s.qualRecord 0x02 page s.now s.qualSum (w32 (at_ 16 check + item)) 0 (s.rd c.counter) value
  else s

/-- Whether the check stands failed for `item`. -/
def State.qualStands (s : State) (page check item : Nat) : Bool := setHas (s.check page check).standing item

/-! ### Other reports under the spacing of R22 -/

/-- The gathered conditions of a report posted in one record; its 1 ms of spacing begins (R22). -/
def State.gatherPost (s : State) (k : Nat) : State :=
  let g := Tab.get Gather.init s.gathers k
  let s := { s with gathers := Tab.set Gather.init s.gathers k { g with last := some s.tclks, count := 0 } }
  let f (n : Nat) (w : Word) : Word :=
    if n = g.countWord then w32 (capAt 0xFFFFFFFF g.count) else if n = g.cntWord then s.rd g.cntKey else w
  s.postPageAt g.ty g.page g.flags g.time g.quality (f 4 g.w4) (f 5 g.w5) (f 6 g.w6) (f 7 g.w7)

/-- A condition reported under the spacing of R22: posted at once, or gathered; the record is that of the first.
DEDUCED: log entry 11. -/
def State.gather (s : State) (k : Nat) (new : Gather) : State :=
  let g := Tab.get Gather.init s.gathers k
  let g' := if g.count = 0 then { new with last := g.last, count := 1, time := s.now, quality := s.qualSum }
    else { g with count := g.count + 1 }
  let s := { s with gathers := Tab.set Gather.init s.gathers k g' }
  if s.spaced g.last then s else s.gatherPost k

/-! ### ECC reports (R446) -/

/-- The key of a memory's reports: memory `mem` of the block of `page`. -/
def eccKey (page mem : Nat) (uncorr : Bool) : Nat := 32 * page + 2 * mem + b2n uncorr

/-- The errors gathered for a memory posted in one record, of the time, place and finder of the first; its 1 ms of spacing begins
(R43, R446). DEDUCED: log entry 15. -/
def State.eccPost (s : State) (page mem : Nat) (uncorr : Bool) : State :=
  let e := Tab.get EccSt.init s.ecc (eccKey page mem uncorr)
  let s := { s with ecc := Tab.set EccSt.init s.ecc (eccKey page mem uncorr) { e with last := some s.tclks, count := 0 } }
  s.postPageAt (if uncorr then 4 else 3) page (b2n e.scrub) e.time e.quality (w32 mem) e.addr e.syndrome
    (w32 (capAt 0xFFFFFFFF e.count))

/-- An ECC error of memory `mem` of a page's block: reported at once, or gathered while the spacing runs (R446).
DEDUCED: log entry 15. -/
def State.eccNote (s : State) (scrub : Bool) (page mem : Nat) (uncorr : Bool) (addr syndrome : Word) : State :=
  let k := eccKey page mem uncorr
  let e := Tab.get EccSt.init s.ecc k
  let e := if e.count = 0 then { e with scrub, addr, syndrome, time := s.now, quality := s.qualSum } else e
  let s := { s with ecc := Tab.set EccSt.init s.ecc k { e with count := e.count + 1 } }
  if s.spaced e.last then s else s.eccPost page mem uncorr

/-- An ECC error found by an access of the block. -/
def State.eccError (s : State) (page mem : Nat) (uncorr : Bool) (addr syndrome : Word) : State :=
  s.eccNote false page mem uncorr addr syndrome

/-! ### Mailboxes (R32–R34, R539) -/

/-- What a mailbox command answers: result words, or an error code. -/
inductive MbxAns where
  | ok (d0 d1 d2 d3 : Option Word)
  | err (code : Nat)
deriving DecidableEq, Repr

/-- A mailbox command that names no result word. -/
def MbxAns.done : MbxAns := .ok none none none none

/-- BUSY of a page's mailbox. -/
def State.mbxBusy (s : State) (page : Nat) : Bool := s.flag (Reg.mbxFlag page) 1

/-- MBX_Dn of a page. -/
def State.mbxD (s : State) (page n : Nat) : Word := s.rd (Reg.mbxD page n)

/-- A write to MBX_CMD. While BUSY = 1 it is ignored and sets COLLIDE (R34). Otherwise it is accepted: the flags clear, BUSY
sets, and the command starts (R32). -/
def State.mbxAccept (s : State) (page : Nat) (start : State → State) : State :=
  if s.mbxBusy page then s.setFld (Reg.mbxFlag page) 3 1 1 else start (s.wr (Reg.mbxFlag page) 2)

/-- The answer of a command that has executed: it waits for the completion (R33). -/
def MbxAns.job : MbxAns → MbxJob
  | .ok d0 d1 d2 d3 => ⟨0, d0, d1, d2, d3⟩
  | .err c => ⟨c, none, none, none, none⟩

def State.mbxAnswer (s : State) (page : Nat) (a : MbxAns) : State :=
  { s with mbx := Tab.set none s.mbx page (some a.job) }

/-- A mailbox command that runs at its acceptance on the words MBX_D0–MBX_D3 hold (R32). DEDUCED: log entry 35. -/
def State.mbxCommand (s : State) (page : Nat) (f : State → MbxAns × State) : State :=
  s.mbxAccept page fun s => (f s).2.mbxAnswer page (f s).1

/-- A result word stored in MBX_Dn, or the input kept (R33). -/
def State.mbxResult (s : State) (page n : Nat) : Option Word → State
  | none => s
  | some w => s.wr (Reg.mbxD page (n % 4)) w

end Sys2Proof.Machine
end

