-- ==== Sys2Proof/Machine/Lease.lean ====
section
/-! DEFINITION. Paired nodes: PLK, its messages and link states (R335–R339), and the lease with its comparison, faults and
handover (R340–R357). -/

namespace Sys2Proof.Machine

/-! ### Reading the lease -/

/-- A line's cell. -/
def State.line (s : State) (k : Nat) : LineCell := Tab.get LineCell.init s.lines k

/-- A line's cell replaced. -/
def State.setLine (s : State) (k : Nat) (c : LineCell) : State :=
  { s with lines := Tab.set LineCell.init s.lines k c }

/-- LOUT of a line: word 3 of line k mod 4 in the indirect map of channel k div 4. -/
def State.lout (s : State) (k : Nat) : Word := s.rd (Reg.chLout (k / 4) (k % 4))

/-- The level the output latch shows: a pulse's, or the base level (R103). -/
def LineCell.latchLevel (c : LineCell) : Bool := (c.pulse.map fun p => p.level).getD c.latch

/-- The command bit: the level the latch would show if every write executed (R348). -/
def LineCell.cmdLevel (c : LineCell) : Bool := (c.cmdPulse.map fun p => p.level).getD c.cmd

/-- LOUT.PROTECTED of a line (R133). -/
def State.isProtected (s : State) (k : Nat) : Bool := bit (s.lout k) 5

/-- Whether a line is compared: PROTECTED, or set in COMPARE_MASK (R348). -/
def State.compared (s : State) (k : Nat) : Bool :=
  s.isProtected k || s.flag (Reg.leaseCompareMask (k / 32)) (k % 32)

/-- The command vector sent in every message: the command bits of the compared lines (R337, R348). -/
def State.cmdVec (s : State) : BitVec 256 :=
  BitVec.ofNat 256 (s.lines.foldl (fun acc e => if e.2.cmdLevel && s.compared e.1 then acc + 2 ^ e.1 else acc) 0)

/-- MODE = PAIRED with EN = 1 (R341). -/
def State.isPaired (s : State) : Bool := s.enabled 0x2D && s.flag Reg.leaseCfg 0

/-- The node's own faults (R351). -/
def State.faults (s : State) : Nat := s.fld Reg.leaseFault 0 6

/-- FIT: FAULT is 0 (R351). -/
def State.isFit (s : State) : Bool := s.faults = 0

/-- The node holds the lease: its OWN_OUT is driven (R133, R342). -/
def State.holdsLease (s : State) : Bool := s.lease.ownOut

/-- The OWN_OUT pin's level (R340). -/
def State.ownPin (s : State) : Bool := xor s.lease.ownOut s.lease.ownPinDiffers

/-- Fields of the partner's latest message, 0 before the first. -/
def State.partnerFaults (s : State) : Nat := (s.lease.partner.map fun m => m.faults.toNat % 64).getD 0
def State.partnerNode (s : State) : Nat := (s.lease.partner.map fun m => m.node.toNat).getD 0
def State.partnerFlag (s : State) (i : Nat) : Bool := (s.lease.partner.map fun m => m.flags.toNat.testBit i).getD false
def State.partnerVec (s : State) : Nat := (s.lease.partner.map fun m => m.vec.toNat).getD 0

/-- Comparison runs while PLK is UP and both nodes are PAIRED with EN = 1 (R349). No message carries the partner's MODE and
EN: a partner that has sent a message is taken as PAIRED. DEDUCED: log entry 12. -/
def State.compareActive (s : State) : Bool :=
  decide (s.plk.st = .up) && s.isPaired && s.lease.partner.isSome

/-- Whether line k differs: it is compared, and the two command bits disagree (R349). -/
def State.differs (s : State) (k : Nat) : Bool :=
  (xor (s.line k).cmdLevel (s.partnerVec.testBit k)) && s.compared k

/-- The lines that differ, lowest first (R349). -/
def State.diffLines (s : State) : List Nat :=
  if s.compareActive then (upFrom 0 256).filter s.differs else []

def State.anyDiffers (s : State) : Bool := !s.diffLines.isEmpty

def State.setLease (s : State) (f : LeaseSt → LeaseSt) : State := { s with lease := f s.lease }

/-- A lease state entered. -/
def State.leaseEnter (s : State) (st : LeaseState) (f : LeaseSt → LeaseSt) : State :=
  s.setLease fun l => { f l with st, since := s.tclks }

/-- What the comparison has seen: since when each line differs without a break, and since when all agree (R349). -/
def State.compareTrack (s : State) : State :=
  let d := s.diffLines
  s.setLease fun l => { l with
    diffs := d.map fun k => (k, ((l.diffs.find? fun e => decide (e.1 = k)).map fun e => e.2).getD s.tclks),
    agreeAt := if s.compareActive && d.isEmpty then some (l.agreeAt.getD s.tclks) else none }

/-- The conditions of a revertive return (R355). -/
def State.revertMet (s : State) : Bool :=
  s.isPaired && decide (s.lease.st = .follower) && s.flag Reg.leaseCfg 1 && s.flag Reg.leaseCfg 2 && s.isFit
    && decide (s.plk.st = .up) && decide (s.qualSum = 0) && !s.anyDiffers

/-- The intervals of the comparison and of the revertive return followed: at every TCLK edge and at every change of a command bit, of
the partner's or of a fault (R345, R349, R355). -/
def State.leaseTrack (s : State) : State :=
  s.compareTrack.setLease fun l => { l with revertAt := if s.revertMet then some (l.revertAt.getD s.tclks) else none }

/-- A LEASE event and its interrupt bit. -/
def State.leasePost (s : State) (ty irq flags : Nat) (w4 w5 w6 w7 : Word) : State :=
  (s.raise 0x2D irq).post ty .lease 0 flags w4 w5 w6 w7

/-! ### Messages on PLK (R337) -/

/-- Bytes 0–47: most significant byte first; line k of the command vector in bit k mod 8 of byte 16 + k div 8. -/
def plkBody (m : PlkMsg) : List Byte :=
  [m.kind, m.flags] ++ beBytes 2 m.seq.toNat ++ beBytes 2 m.node.toNat ++ beBytes 2 m.faults.toNat ++ beBytes 4 m.w8.toNat
    ++ beBytes 4 m.w12.toNat ++ (upFrom 0 32).map fun i => BitVec.ofNat 8 (m.vec.toNat >>> (8 * i))

/-- A bit brought into the CRC-32 of IEEE 802.3, least significant bit first. PRESUMED: log entry 73. -/
def crc32Bit (c : Nat) : Nat := if c % 2 = 1 then (c / 2) ^^^ 0xEDB88320 else c / 2
/-- A byte brought into it. PRESUMED: log entry 73. -/
def crc32Byte (c : Nat) (b : Byte) : Nat := (upFrom 0 8).foldl (fun c _ => crc32Bit c) (c ^^^ b.toNat)

/-- The CRC-32 computed as the IEEE 802.3 FCS. PRESUMED: log entry 73. -/
def crc32 (l : List Byte) : Nat := l.foldl crc32Byte 0xFFFFFFFF ^^^ 0xFFFFFFFF

/-- The message with the CRC of its bytes 0–47. -/
def plkSeal (m : PlkMsg) : PlkMsg := { m with crc := w32 (crc32 (plkBody m)) }

/-- Its CRC is correct (R338). -/
def plkCrcOk (m : PlkMsg) : Bool := decide (m.crc = w32 (crc32 (plkBody m)))

/-- The 52 bytes of a message. -/
def plkBytes (m : PlkMsg) : List Byte := plkBody m ++ beBytes 4 m.crc.toNat

/-- Byte 1 of a message (R337). HOLD is 0 in SOLO, which sends no lease messages (R341). -/
def State.plkFlags (s : State) : Nat :=
  at_ 7 (b2n (s.lease.ownOut && s.isPaired)) + at_ 6 (b2n s.isFit) + at_ 5 (b2n (s.flag Reg.leaseCfg 1))
    + at_ 4 (b2n s.ownPin) + at_ 2 s.qualSum + at_ 1 (b2n s.lease.compareFail)

/-- A message of `kind` sent with the sender's full state (R337); nothing is sent while DISABLED. One with HOLD = 1 is a renewal
sent (R343, R344). -/
def State.plkSend (s : State) (kind : BitVec 8) (w8 w12 : Word) : State :=
  if s.plk.st = .disabled then s
  else
    let m : PlkMsg := ⟨kind, BitVec.ofNat 8 s.plkFlags, s.plk.txSeq, BitVec.ofNat 16 s.nodeId, BitVec.ofNat 16 s.faults,
      w8, w12, s.cmdVec, 0⟩
    let s : State := { s.bump Reg.plkCntTxMsg with plk := { s.plk with txSeq := s.plk.txSeq + 1, tx := s.plk.tx ++ [plkSeal m] } }
    if m.flags.toNat.testBit 7 then s.setLease fun l => { l with sentAt := s.tclks } else s

/-! ### Acquiring and losing (R342, R350, R357) -/

/-- The latch of every compared line loaded from its command bit, its running pulse with it (R350). -/
def State.loadLatches (s : State) : State :=
  { s with lines := s.lines.map fun e =>
      if s.compared e.1 then (e.1, { e.2 with latch := e.2.cmd, pulse := e.2.cmdPulse }) else e }

/-- ns with PEER_OWN low until now, counted in TCLK periods of 40 ns (R357). -/
def State.peerLowNs (s : State) : Nat :=
  if s.lease.peerOwn then 0 else capAt 0xFFFFFFFF (40 * (s.tclks - s.lease.peerAt))

/-- OWN_OUT driven to a level; the pin is taken to follow (R340). -/
def State.driveOwn (s : State) (b : Bool) : State := s.setLease fun l => { l with ownOut := b, ownPinDiffers := false }

/-- LEASE_LOST and its count (R357). -/
def State.postLost (s : State) (cause : Nat) : State :=
  (s.bump Reg.leaseCntLost).leasePost 0x59 1 0 (w32 cause) (w32 s.faults) (w32 s.partnerFaults) (w32 s.partnerNode)

/-- The holder leaves HOLDER for FOLLOWER: OWN_OUT released, LEASE_LOST posted (R342). In SOLO, which knows no FOLLOWER, the
state is OFF. -/
def State.loseLease (s : State) (cause : Nat) : State :=
  let s := s.driveOwn false
  let s := s.leaseEnter (if s.isPaired then .follower else .off) fun l => { l with
    hand := none, expired := false, releaseWait := none }
  s.postLost cause

/-- A holder sends RELEASE and releases OWN_OUT (R352, R353). SOLO sends no lease message (R341). -/
def State.releaseLease (s : State) (cause : Nat) : State :=
  (if s.isPaired then s.plkSend 2 0 0 else s).loseLease cause

/-- COMPARE_FAIL or its clearing posted (R349, R357). -/
def State.postCompare (s : State) (cleared : Bool) : State :=
  let d := s.diffLines
  let k := d.headD 0
  let w4 := if d = [] then 0
    else at_ 16 (capAt 255 d.length) + at_ 9 (b2n (s.partnerVec.testBit k)) + at_ 8 (b2n (s.line k).cmdLevel) + k
  s.leasePost 0x5A 2 (b2n cleared + at_ 1 (b2n (s.lease.st = .holder))) (w32 w4) (s.rd Reg.leaseCntCompareFail)
    (w32 s.faults) (w32 s.partnerFaults)

/-- The decision while COMPARE_FAIL stands (R352). -/
def State.decideCompare (s : State) : State :=
  if !s.isFit then (if s.lease.st = .holder then s.releaseLease 2 else s)
  else if s.partnerFlag 6 && decide (s.partnerFaults = 0) && !s.lease.ambiguous then
    let holder := if s.lease.st = .holder then s.nodeId else if s.partnerFlag 7 then s.partnerNode else 0
    let s := (s.setLease fun l => { l with ambiguous := true }).bump Reg.leaseCntAmbiguous
    s.leasePost 0x5B 3 0 (w32 (s.diffLines.headD 0)) (w32 holder) 0 0
  else s

/-- LENGTH in TCLK periods (R343, R345). -/
def State.leaseLength (s : State) : Nat := 25 * s.fld Reg.leaseTiming 16 16

/-- What an unfit holder does (R352, R353). -/
def State.decideUnfit (s : State) : State :=
  if !s.isPaired || s.isFit then s
  else if s.lease.compareFail then s.decideCompare
  else if s.lease.st = .holder ∧
      (s.flag Reg.leaseCfg 3 ∨ (s.partnerFlag 6 ∧ s.tclks - s.lease.partnerAt < s.leaseLength)) then
    s.releaseLease 1
  else s

/-- Entry to HOLDER: latches loaded, OWN_OUT asserted, LEASE_ACQUIRED posted (R342, R350, R357); a node that is unfit at
entry then decides as an unfit holder. -/
def State.acquireLease (s : State) (cause : Nat) : State :=
  let low := s.peerLowNs
  let s := (s.loadLatches.driveOwn true).leaseEnter .holder fun l => { l with
    hand := none, expired := false, releaseWait := none, requested := none, sentAt := s.tclks, conflict := false }
  let s := (s.bump Reg.leaseCntAcquire).leasePost 0x58 0 0 (w32 cause) (w32 low) (w32 s.partnerFaults) (w32 s.partnerNode)
  s.decideUnfit

/-- TAKING is entered once no renewal has come, PEER_OWN is low and the node is FIT (R342, R343, R352).
DEDUCED: log entry 56. -/
def State.tryTake (s : State) : State :=
  if s.isPaired ∧ s.lease.expired ∧ !s.lease.peerOwn ∧ s.isFit ∧ (s.lease.st = .starting ∨ s.lease.st = .follower) then
    s.leaseEnter .taking fun l => { l with takeCause := if l.st = .starting then 0 else 1 }
  else s

/-! ### Handover (R355, R356) -/

/-- HANDOVER posted and counted (R357). -/
def State.postHandover (s : State) (aborted was : Bool) (reason : Nat) (t : TimePoint) : State :=
  let s := s.bump (if aborted then Reg.leaseCntHandoverAbort else Reg.leaseCntHandover)
  s.leasePost 0x5C 4 (b2n aborted + at_ 1 (b2n was)) (w32 (at_ 28 (reason % 16) + s.partnerNode)) (w32 t.sec.toNat)
    (w32 t.ns) 0

/-- Word 12–15 of HO_CANCEL: reason in [31:28] over the handover ns (R337). The two fields overlap; they are ORed (log
entry 13). DEDUCED: log entry 13. -/
def cancelWord (reason : Nat) (t : TimePoint) : Word := w32 (reason <<< 28) ||| w32 t.ns

/-- HANDING is left for the former state before T (R356). DEDUCED: log entry 13. -/
def State.abortHandover (s : State) (reason : Nat) (send : Bool) : State :=
  match s.lease.hand with
  | some h =>
    if s.lease.st = .handing ∧ h.acted = none then
      let s := if send then s.plkSend 5 (w32 h.time.sec.toNat) (cancelWord reason h.time) else s
      let s := s.leaseEnter (if h.wasHolder then .holder else .follower) fun l => { l with hand := none }
      s.postHandover true h.wasHolder reason h.time
    else s
  | none => s

/-- A change of a command bit or of the partner's: the comparison sees it (R349), and a line that differs before T ends a handover
(R356). -/
def State.commandsChanged (s : State) : State :=
  let s := s.leaseTrack
  if s.lease.st = .handing ∧ s.anyDiffers then s.abortHandover 2 true else s

/-! ### Faults (R351) -/

/-- A fault latched: its bit, the interrupt, and what follows for a handover and for a holder (R351–R353, R356). -/
def State.leaseFault (s : State) (b : Nat) : State :=
  if s.flag Reg.leaseFault b then s
  else
    let s := (s.setFld Reg.leaseFault b 1 1).raise 0x2D 5
    (s.abortHandover 3 true).decideUnfit.leaseTrack

/-! ### PLK link states (R336) -/

def State.setPlk (s : State) (f : PlkSt → PlkSt) : State := { s with plk := f s.plk }

/-- ms since a TCLK count. -/
def State.msSince (s : State) (n : Nat) : Nat := capAt 0xFFFFFFFF ((s.tclks - n) / 25000)

/-- A link state entered. -/
def State.plkEnter (s : State) (st : PlkState) : State :=
  s.setPlk fun p => { p with st, stAt := if p.st = st then p.stAt else s.tclks, good := 0, errs := [] }

/-- UP left with a cause: LINK_DOWN (R257, R336). -/
def State.plkLeaveUp (s : State) (cause : Nat) (dest : PlkState) : State :=
  if s.plk.st = .up then
    let s := s.bump Reg.plkCntLinkDown
    let ms := s.msSince s.plk.since
    let s := (s.plkEnter dest).setPlk fun p => { p with lastCause := cause, since := s.tclks, echoOut := false }
    (s.raise 0x2C 1).post 0x41 .plk 0 0 (w32 cause) (w32 ms) (s.rd Reg.plkCntLinkDown) 0
  else s.plkEnter dest

/-- UP entered: LINK_UP (R257, R336). -/
def State.plkGoUp (s : State) : State :=
  let ms := s.msSince s.plk.since
  let s := (s.plkEnter .up).setPlk fun p => { p with since := s.tclks, echoAt := s.tclks, rxAt := s.tclks }
  (s.raise 0x2C 0).post 0x40 .plk 0 0 0 (w32 ms) (s.rd Reg.plkCntLinkFail) 0

/-- A write of PLK CTRL.EN (R336). -/
def State.plkEnable (s : State) (en : Bool) : State :=
  if en then (if s.plk.st = .disabled then s.plkEnter .aligning else s)
  else s.plkLeaveUp 0 .disabled

/-! ### Receiving (R338) -/

/-- The bits of a message that its kind requires to be 0 are 0 (R337, R338). -/
def plkReservedZero (m : PlkMsg) : Bool :=
  !m.flags.toNat.testBit 0 && decide (m.faults.toNat < 64)
    && (if m.kind = 3 ∨ m.kind = 4 then decide (m.w12.toNat < 2 ^ 30)
        else if m.kind = 5 then true else decide (m.w12 = 0))

/-- The sequence is newer than the last one used (R338). -/
def State.plkNewer (s : State) (m : PlkMsg) : Bool :=
  match s.plk.rxSeq with
  | none => true
  | some q => decide (1 ≤ (m.seq - q).toInt)

/-- The test of R338 but for the CRC: true where the message may be used. -/
def State.plkPasses (s : State) (m : PlkMsg) : Bool :=
  decide (1 ≤ m.kind.toNat) && decide (m.kind.toNat ≤ 7) && plkReservedZero m && s.plkNewer m

/-- The messages that failed R338 within the last 1 ms are more than ERR_LIMIT (R336). -/
def State.plkTooMany (s : State) : Bool :=
  decide (s.fld Reg.plkErrLimit 0 16 < (s.plk.errs.filter fun t => decide (s.tclks < t + msTclks 1)).length)

/-- A message discarded by R338: check 0x0701 or 0x0702, the kind as value; the run of good messages is broken, and too many within
1 ms take the link out of UP with cause 6 (R336). -/
def State.plkReject (s : State) (m : PlkMsg) : State :=
  let s := s.raise 0x2C 2
  let s := if !plkCrcOk m then s.qualFail 0x2C 0x0701 0xFFFF (w32 m.kind.toNat) Reg.plkCntCrc
    else s.qualFail 0x2C 0x0702 0xFFFF (w32 m.kind.toNat) Reg.plkCntMalformed
  let s := s.setPlk fun p => { p with
    good := 0, errs := s.tclks :: p.errs.filter fun t => decide (s.tclks < t + msTclks 1) }
  if s.plk.st = .up ∧ s.plkTooMany then s.plkLeaveUp 6 .hold else s

/-- What a used message does to the lease, whatever its kind: the partner's state, and the renewal of HOLD = 1, dated at its receipt
less LATENCY, rounded down to whole TCLK periods (R343).
DEDUCED: log entry 12. -/
def State.leaseMessage (s : State) (m : PlkMsg) : State :=
  if s.plk.st = .up then
    let s := s.setLease fun l => { l with partner := some m, partnerAt := s.tclks }
    let s := if s.isPaired ∧ m.flags.toNat.testBit 7 then
        let s := s.setLease fun l => { l with expired := false, renewAt := s.tclks - (s.fld Reg.plkLatency 0 16 + 39) / 40 }
        if s.lease.st = .starting ∨ s.lease.st = .taking then s.leaseEnter .follower fun l => l else s
      else s
    s.commandsChanged
  else s

/-- A message that passes R338 is counted, ends ALIGNING at the 64th in a row, and reaches the lease and `f` while UP
(R336–R338). One that fails R338 is discarded; one that no lane carries is not received. DEDUCED: log entry 56. -/
def State.plkReceive (s : State) (kind : BitVec 8) (m : PlkMsg) (f : State → PlkMsg → State) : State :=
  let m := plkSeal { m with kind }
  if s.plk.st = .disabled ∨ !s.plk.lane0 ∨ !s.plk.lane1 then s
  else if !s.plkPasses m then s.plkReject m
  else
    let s := (s.bump Reg.plkCntRxMsg).setPlk fun p => { p with
      rxSeq := some m.seq, rxAt := s.tclks, good := if p.st = .aligning then p.good + 1 else p.good }
    let s := if s.plk.st = .aligning ∧ 64 ≤ s.plk.good then s.plkGoUp else s
    if s.plk.st = .up then f (s.leaseMessage m) m else s

/-! ### The messages' rows -/

/-- STATE_RECEIVE (R343). -/
def execStateReceive (m : PlkMsg) (s : State) : Host.Outcome State Fault Refusal :=
  .next (s.plkReceive 1 m fun s _ => s)

/-- RELEASE_RECEIVE (R342, R352): a FIT follower awaits PEER_OWN low. -/
def execReleaseReceive (m : PlkMsg) (s : State) : Host.Outcome State Fault Refusal :=
  .next (s.plkReceive 2 m fun s _ =>
    if s.isPaired ∧ s.lease.st = .follower ∧ s.isFit then
      s.setLease fun l => { l with releaseWait := some s.tclks }
    else s)

/-- Why a holder refuses a handover (R355), none where it agrees. DEDUCED: log entry 56. -/
def State.handoverRefusal (s : State) (t : TimePoint) : Option Nat :=
  if s.lease.st ≠ .holder then some 5
  else if !s.isFit then some 3
  else if s.qualSum ≠ 0 then some 1
  else if s.anyDiffers then some 2
  else if timeDiff t s.now < 10000 then some 4
  else none

/-- HO_REQ_RECEIVE (R355): HO_ACK and HANDING, or HO_CANCEL with the reason. -/
def execHoReqReceive (m : PlkMsg) (s : State) : Host.Outcome State Fault Refusal :=
  .next (s.plkReceive 3 m fun s m =>
    let t : TimePoint := ⟨m.w8, m.w12.toNat % 2 ^ 30⟩
    if !s.isPaired then s
    else match s.handoverRefusal t with
      | some r => s.plkSend 5 m.w8 (cancelWord r t)
      | none => (s.plkSend 4 m.w8 m.w12).leaseEnter .handing fun l => { l with hand := some ⟨t, true, none⟩ })

/-- HO_ACK_RECEIVE (R355, R356): the preferred node that asked for this T enters HANDING, and leaves it at once where it has become
unfit or a line differs. DEDUCED: log entry 56. -/
def execHoAckReceive (m : PlkMsg) (s : State) : Host.Outcome State Fault Refusal :=
  .next (s.plkReceive 4 m fun s m =>
    let t : TimePoint := ⟨m.w8, m.w12.toNat % 2 ^ 30⟩
    if s.isPaired ∧ s.lease.st = .follower ∧ s.lease.requested = some t then
      let s := s.leaseEnter .handing fun l => { l with requested := none, hand := some ⟨t, false, none⟩ }
      if s.isFit then s.commandsChanged else s.abortHandover 3 true
    else s)

/-- HO_CANCEL_RECEIVE (R356): HANDING is left for the former state; an unanswered request is withdrawn.
DEDUCED: log entry 13. -/
def execHoCancelReceive (m : PlkMsg) (s : State) : Host.Outcome State Fault Refusal :=
  .next (s.plkReceive 5 m fun s m =>
    (s.abortHandover (bits m.w12 28 4) false).setLease fun l => { l with requested := none })

/-- ECHO_RECEIVE (R339): answered with the residence time, `residence` ns. -/
def execEchoReceive (m : PlkMsg) (residence : Word) (s : State) : Host.Outcome State Fault Refusal :=
  .next (s.plkReceive 6 m fun s _ => s.plkSend 7 residence 0)

/-- ECHO_REPLY_RECEIVE (R339): the exchange of `roundTrip` ns enters the mean of the last 16. -/
def execEchoReplyReceive (m : PlkMsg) (roundTrip : Nat) (s : State) : Host.Outcome State Fault Refusal :=
  .next (s.plkReceive 7 m fun s m =>
    if s.plk.echoOut then
      let l := (s.plk.latency ++ [(roundTrip - m.w8.toNat) / 2])
      let l := l.drop (l.length - 16)
      (s.setPlk fun p => { p with latency := l, echoOut := false }).wr Reg.plkLatency
        (w32 (capAt 0xFFFF (l.foldl (· + ·) 0 / l.length)))
    else s)

/-- PLK_MESSAGE_REJECTED (R338): a message that fails a test of R338. -/
def execPlkMessageRejected (m : PlkMsg) (s : State) : Host.Outcome State Fault Refusal :=
  .next (if s.plk.st = .disabled ∨ !s.plk.lane0 ∨ !s.plk.lane1 ∨ (plkCrcOk m ∧ s.plkPasses m) then s else s.plkReject m)

/-! ### PLK's other rows -/

/-- PLK_LANE_ALIGNMENT (R336): the lanes' alignment outside UP; the count of good messages restarts. No lane aligns without the SerDes
clock (R497). -/
def execPlkLaneAlignment (lane0 lane1 : Bool) (s : State) : Host.Outcome State Fault Refusal :=
  .next (if s.plk.st = .up then s
    else s.setPlk fun p => { p with lane0 := lane0 && s.serdesRuns, lane1 := lane1 && s.serdesRuns, good := 0 })

/-- PLK_ALIGN_TIMEOUT (R336): after 10 ms ALIGNING gives way to HOLD; nothing is posted. -/
def execPlkAlignTimeout (s : State) : Host.Outcome State Fault Refusal :=
  .next (if s.plk.st = .aligning ∧ s.passed s.plk.stAt (msTclks 10) then (s.bump Reg.plkCntLinkFail).plkEnter .hold else s)

/-- PLK_HOLD_EXPIRY (R336): after 1 ms. -/
def execPlkHoldExpiry (s : State) : Host.Outcome State Fault Refusal :=
  .next (if s.plk.st = .hold ∧ s.passed s.plk.stAt (msTclks 1) then s.plkEnter .aligning else s)

/-- What takes PLK out of UP, with its cause (R336); cause 6 where more than ERR_LIMIT messages have failed within 1 ms. -/
def execPlkDownCondition (cause : PlkDown) (s : State) : Host.Outcome State Fault Refusal :=
  .next (if s.plk.st = .up then
      match cause with
      | .signal => (s.plkLeaveUp 1 .hold).setPlk fun p => { p with lane0 := false, lane1 := false }
      | .alignment => (s.plkLeaveUp 2 .hold).setPlk fun p => { p with lane0 := false, lane1 := false }
      | .errors => if s.plkTooMany then s.plkLeaveUp 6 .hold else s
    else s)

/-- PARTNER_SILENT (R336): cause 9, once no message has passed R338 for 2 × RENEW + 1 µs. -/
def execPartnerSilent (s : State) : Host.Outcome State Fault Refusal :=
  .next (if s.plk.st = .up ∧ s.passed s.plk.rxAt (2 * s.fld Reg.leaseTiming 0 16 + usTclks 1) then s.plkLeaveUp 9 .hold else s)

/-- STATE is due (R337): RENEW has passed since the last one, or the flags or the command vector have changed since and 100 ns have
passed. -/
def State.stateDue (s : State) : Bool :=
  match s.plk.stateWas with
  | none => true
  | some w =>
    s.passed s.plk.stateAt (s.fld Reg.leaseTiming 0 16)
      || (decide (w ≠ (BitVec.ofNat 8 s.plkFlags, s.cmdVec)) && s.passed s.plk.stateAt 3)

/-- STATE_SEND (R337, R344). -/
def execStateSend (s : State) : Host.Outcome State Fault Refusal :=
  .next (if s.stateDue ∧ s.plk.st ≠ .disabled then
      (s.plkSend 1 0 0).setPlk fun p => { p with stateAt := s.tclks, stateWas := some (BitVec.ofNat 8 s.plkFlags, s.cmdVec) }
    else s)

/-- ECHO_SEND (R339): every 1 ms while UP. -/
def execEchoSend (s : State) : Host.Outcome State Fault Refusal :=
  .next (if s.plk.st = .up ∧ s.passed s.plk.echoAt (msTclks 1) then
      (s.plkSend 6 0 0).setPlk fun p => { p with echoOut := true, echoAt := s.tclks }
    else s)

/-! ### The lease's rows -/

/-- LEASE_EXPIRY (R343): LENGTH has passed since the date of the latest renewal. -/
def execLeaseExpiry (s : State) : Host.Outcome State Fault Refusal :=
  .next (if s.lease.st = .follower ∧ s.passed s.lease.renewAt s.leaseLength then
      (s.setLease fun l => { l with expired := true }).tryTake
    else s)

/-- How long STARTING waits for a renewal: LENGTH, and 20 µs more where PREFERRED = 0 (R342). -/
def State.startingWait (s : State) : Nat := s.leaseLength + if s.flag Reg.leaseCfg 1 then 0 else usTclks 20

/-- STARTING_TIMEOUT (R342). -/
def execStartingTimeout (s : State) : Host.Outcome State Fault Refusal :=
  .next (if s.lease.st = .starting ∧ s.passed s.lease.since s.startingWait then
      (s.setLease fun l => { l with expired := true }).tryTake
    else s)

/-- TAKEOVER_COMPLETE (R342, R350): TAKEOVER is 4 µs in TAKING. DEDUCED: log entry 56. -/
def execTakeoverComplete (s : State) : Host.Outcome State Fault Refusal :=
  .next (if s.lease.st = .taking ∧ !s.lease.peerOwn ∧ s.passed s.lease.since (usTclks 4) then s.acquireLease s.lease.takeCause
    else s)

/-- SELF_EXPIRY (R344): a PAIRED holder whose latest renewal was sent LENGTH − 1 µs ago releases OWN_OUT. -/
def execSelfExpiry (s : State) : Host.Outcome State Fault Refusal :=
  .next (if s.isPaired ∧ s.lease.st = .holder ∧ s.passed s.lease.sentAt (s.leaseLength - usTclks 1) then s.loseLease 4 else s)

/-- PEER_OWN_CHANGE (R340, R342). -/
def execPeerOwnChange (level : Bool) (s : State) : Host.Outcome State Fault Refusal :=
  .next (if level = s.lease.peerOwn then s
    else
      let s := s.setLease fun l => { l with peerOwn := level, peerAt := s.tclks, conflict := false }
      if !s.isPaired then s
      else if level then
        (if s.lease.st = .taking then s.leaseEnter .follower fun l => l else s)
      else s.tryTake)

/-- Whether a holder in conflict releases (R346): a lower preference, or with equal preference the higher node ID. -/
def State.conflictLoses (s : State) : Bool :=
  match s.lease.partner with
  | none => true
  | some m =>
    let mine := s.flag Reg.leaseCfg 1
    let theirs := m.flags.toNat.testBit 5
    if mine = theirs then decide (m.node.toNat < s.nodeId) else !mine

/-- LEASE_CONFLICT (R346): a holder has seen PEER_OWN high for 200 ns; each conflict is counted once. DEDUCED: log entry 56. -/
def execLeaseConflict (s : State) : Host.Outcome State Fault Refusal :=
  .next (if s.isPaired ∧ s.lease.st = .holder ∧ s.lease.peerOwn ∧ !s.lease.conflict ∧ s.passed s.lease.peerAt 5
        ∧ s.passed s.lease.since 5 then
      let s := (s.setLease fun l => { l with conflict := true }).bump Reg.leaseCntConflict
      if s.conflictLoses then
        let both := s.flag Reg.leaseCfg 1 && s.partnerFlag 5 && s.lease.partner.isSome
        (s.setLease fun l => { l with prefConflict := l.prefConflict || both }).loseLease 5
      else s
    else s)

/-- OWN_OUT_READBACK_FAULT (R340, R351): the pin has differed from its driven level for 200 ns, or agrees again. -/
def execOwnOutReadbackFault (differs : Bool) (s : State) : Host.Outcome State Fault Refusal :=
  .next (
    let s := s.setLease fun l => { l with ownPinDiffers := differs }
    if differs then s.leaseFault 2 else s)

/-- The TCLK count from which PEER_OWN has been low after a RELEASE received at `t` (R342). -/
def State.lowAfter (s : State) (t : Nat) : Nat := if s.lease.peerAt < t then t else s.lease.peerAt

/-- RELEASE_CONFIRM (R342): PEER_OWN low for 1 µs within the 10 µs after a RELEASE. DEDUCED: log entry 56. -/
def execReleaseConfirm (s : State) : Host.Outcome State Fault Refusal :=
  .next (match s.lease.releaseWait with
    | some t =>
      if t + usTclks 10 < s.lowAfter t + usTclks 1 then s.setLease fun l => { l with releaseWait := none }
      else if s.lease.st = .follower ∧ !s.lease.peerOwn ∧ s.isFit ∧ s.passed (s.lowAfter t) (usTclks 1) then s.acquireLease 2
      else if s.passed t (usTclks 10) then s.setLease fun l => { l with releaseWait := none }
      else s
    | none => s)

/-- COMPARE_TOL in TCLK periods: 0 acts as 1 µs, above 1,000 as 1,000 µs (R349). -/
def State.compareTol (s : State) : Nat :=
  let t := s.fld Reg.leaseCompare 16 16
  usTclks (if t = 0 then 1 else capAt 1000 t)

/-- COMPARE_FAIL (R349, R352): a line has differed without a break for COMPARE_TOL. -/
def execCompareFail (s : State) : Host.Outcome State Fault Refusal :=
  .next (if s.compareActive ∧ s.anyDiffers ∧ !s.lease.compareFail ∧ s.lease.diffs.any fun e => s.passed e.2 s.compareTol then
      let s := (s.setLease fun l => { l with compareFail := true, ambiguous := false }).bump Reg.leaseCntCompareFail
      (s.postCompare false).decideCompare
    else s)

/-- COMPARE_CLEAR (R349): every line has agreed for COMPARE_TOL. -/
def execCompareClear (s : State) : Host.Outcome State Fault Refusal :=
  .next (if s.compareActive ∧ !s.anyDiffers ∧ s.lease.compareFail ∧ s.lease.agreeAt.any fun t => s.passed t s.compareTol then
      (s.setLease fun l => { l with compareFail := false, ambiguous := false }).postCompare true
    else s)

/-- Whether the cause of a fault bit still stands (R351): READBACK by a compared line with RB_FAULT or the OWN_OUT pin,
SUPPLY by a failed bank check or a failed ADC check. The other bits are set by events. -/
def State.faultStands (s : State) (b : Nat) : Bool :=
  if b = 2 then s.lease.ownPinDiffers || s.lines.any fun e => e.2.rbFault && s.compared e.1
  else if b = 3 then
    s.tiles.any (fun e => e.2.bankFail) || s.checks.any (fun e => e.1 / 0x10000 = 5 && !e.2.standing.isEmpty)
  else false

/-- FAULT_CLR (R351): the named bits clear; one whose cause still stands is latched again. -/
def execFaultClr (v : Word) (s : State) : Host.Outcome State Fault Refusal :=
  .next (
    let cleared := s.wr Reg.leaseFault (s.rd Reg.leaseFault &&& ~~~ v)
    let again := (upFrom 0 6).foldl
      (fun s' b => if bit v b && s.flag Reg.leaseFault b && s.faultStands b then s'.leaseFault b else s') cleared
    again.tryTake.leaseTrack)

/-- FAULT_SET (R351): the STEWARD fault. -/
def execFaultSet (v : Word) (s : State) : Host.Outcome State Fault Refusal :=
  .next (if bit v 5 then s.leaseFault 5 else s)

/-- An HO_REQ awaits its answer: its T has not passed. DEDUCED: log entry 56. -/
def State.requestOpen (s : State) : Bool :=
  match s.lease.requested with
  | some t => decide (0 ≤ timeDiff t s.now)
  | none => false

/-- REVERT_HOLD in TCLK periods; 0 acts as 1 s (R355). -/
def State.revertHold (s : State) : Nat :=
  let h := s.fld Reg.leaseRevertHold 0 16
  msTclks (1000 * if h = 0 then 1 else h)

/-- REVERT_HOLD_EXPIRY (R355): the conditions have been met for REVERT_HOLD without a break; HO_REQ with T 20 µs ahead. -/
def execRevertHoldExpiry (s : State) : Host.Outcome State Fault Refusal :=
  .next (if s.revertMet ∧ (s.lease.revertAt.any fun t => s.passed t s.revertHold) ∧ !s.requestOpen then
      let t := timeAdd s.now 20000
      (s.plkSend 3 (w32 t.sec.toNat) (w32 t.ns)).setLease fun l => { l with requested := some t }
    else s)

/-- HANDOVER_TIME (R356): at T, placed as a line action is, the holder releases OWN_OUT; the preferred node asserts it and becomes
HOLDER. DEDUCED: log entry 56. -/
def execHandoverTime (s : State) : Host.Outcome State Fault Refusal :=
  .next (match s.lease.hand with
    | some h =>
      if s.lease.st ≠ .handing ∨ h.acted.isSome ∨ !s.due h.time then s
      else if h.wasHolder then
        let s := (s.driveOwn false).setLease fun l => { l with hand := some { h with acted := some s.tclks }, expired := false }
        s.postLost 3
      else (s.postHandover false false 0 h.time).acquireLease 3
    | none => s)

/-- HANDOVER_RETAKE_CHECK (R356): 1 µs after T the former holder retakes where PEER_OWN is still low; a new follower dates its first
renewal at T. -/
def execHandoverRetakeCheck (s : State) : Host.Outcome State Fault Refusal :=
  .next (match s.lease.hand with
    | some h =>
      match h.acted with
      | some t =>
        if s.lease.st ≠ .handing ∨ !s.passed t (usTclks 1) then s
        else if !s.lease.peerOwn then s.acquireLease 5
        else (s.leaseEnter .follower fun l => { l with hand := none, renewAt := t }).postHandover false true 0 h.time
      | none => s
    | none => s)

/-- TIMING_WRITE (R343): LENGTH and RENEW, or CFG_ERR. -/
def execTimingWrite (v : Word) (s : State) : Host.Outcome State Fault Refusal :=
  .next (
    let len := bits v 16 16
    let renew := bits v 0 16
    if len < 2 ∨ 1000 < len ∨ len * 1000 < 2 * (renew * 40) then s.setLease fun l => { l with cfgErr := true }
    else (s.wr Reg.leaseTiming v).setLease fun l => { l with cfgErr := false })

/-- A write of LEASE CTRL.EN (R341, R342). -/
def State.leaseEnable (s : State) (en : Bool) : State :=
  if en then
    (if s.lease.st ≠ .off then s
     else if s.flag Reg.leaseCfg 0 then
      s.leaseEnter .starting fun l => { l with expired := false }
     else s.acquireLease 4)
  else
    let lost := s.lease.ownOut
    let s := (s.driveOwn false).leaseEnter .off fun l => { l with
      hand := none, expired := false, releaseWait := none, requested := none }
    if lost then s.postLost 0 else s

end Sys2Proof.Machine
end

