-- ==== Sys2Proof/Machine/Fifo.lean ====
section
/-! DEFINITION. Packet FIFOs of channels and CAN controllers (R143–R153, R367, R373): where their words lie, writing,
committing, rewinding and ending packets, reading, dropping and flushing. A FIFO is named by a number: 2 × c and 2 × c + 1
are RX and TX of channel c, and 128 + 2 × n and 129 + 2 × n those of CAN controller n. -/

namespace Sys2Proof.Machine

def rxFifo (c : Nat) : Nat := 2 * c
def txFifo (c : Nat) : Nat := 2 * c + 1
def canRxFifo (n : Nat) : Nat := 128 + 2 * n
def canTxFifo (n : Nat) : Nat := 129 + 2 * n

def State.fifo (s : State) (id : Nat) : FifoSt := Tab.get FifoSt.init s.fifos id

def State.setFifo (s : State) (id : Nat) (f : FifoSt → FifoSt) : State :=
  { s with fifos := Tab.set FifoSt.init s.fifos id (f (s.fifo id)) }

/-- A TX FIFO. -/
def fifoIsTx (id : Nat) : Bool := decide (id % 2 = 1)

/-- The page of a FIFO. -/
def fifoPage (id : Nat) : Nat := if id < 128 then 0x80 + id / 2 else 0xC0 + (id - 128) / 2

/-- CFG of a channel's FIFO. -/
def fifoCfg (id : Nat) : Nat := if fifoIsTx id then Reg.chTxCfg (id / 2) else Reg.chRxCfg (id / 2)

/-- A FIFO's size in words: CFG.SIZE, kept to a multiple of 64 bytes in its range; 64 frames of a CAN RX FIFO,
2 KiB of a CAN TX FIFO (R366, R373). DEDUCED: log entry 21. -/
def State.fifoWords (s : State) (id : Nat) : Nat :=
  if id < 128 then
    let b := s.fld (fifoCfg id) 16 16 / 64 * 64
    (if b < 256 then 256 else capAt 57344 b) / 4
  else if fifoIsTx id then 512 else 2048

/-- The key of a FIFO's word `i` (modulo its size): a word of tile SRAM (R126), or of the controller's own memory. -/
def State.fifoKey (s : State) (id i : Nat) : Nat :=
  if id < 128 then
    16384 * (id / 16) + (s.fld (fifoCfg id) 0 16 / 64 * 16 + i % s.fifoWords id) % 16384
  else 0x20000 + 0x1000 * ((id - 128) / 2) + (if fifoIsTx id then 0x800 else 0) + i % s.fifoWords id

/-- A word of tile SRAM, or of a controller's memory. DESIGN CHOICE: log entry 5. -/
def State.sramGet (s : State) (k : Nat) : Word := Tab.get 0 s.sram k

def State.sramSet (s : State) (k : Nat) (w : Word) : State := { s with sram := Tab.set 0 s.sram k w }

/-- The words a packet takes: header and data, and the trailer of an RX packet, reserved from the start (R144). -/
def pktSpan (id : Nat) (p : FifoPkt) : Nat := 1 + p.words + (if fifoIsTx id then 0 else 1)

/-- Words taken by all packets but those already read. -/
def State.fifoUsed (s : State) (id : Nat) : Nat :=
  let f := s.fifo id
  f.pkts.foldl (fun a p => a + pktSpan id p) 0 - ((f.pkts.head?.map fun p => p.read).getD 0)

/-- Free words. -/
def State.fifoFree (s : State) (id : Nat) : Nat := s.fifoWords id - s.fifoUsed id

/-- The word index of the header of the last packet. -/
def State.lastHeader (s : State) (id : Nat) : Nat :=
  let f := s.fifo id
  f.rd - ((f.pkts.head?.map fun p => p.read).getD 0)
    + (f.pkts.dropLast.foldl (fun a p => a + pktSpan id p) 0)

/-- The packet being written, where there is one. -/
def FifoSt.writing (f : FifoSt) : Option FifoPkt :=
  match f.pkts.getLast? with
  | some p => if p.complete then none else some p
  | none => none

/-- The last packet replaced. -/
def FifoSt.setLast (f : FifoSt) (g : FifoPkt → FifoPkt) : FifoSt :=
  match f.pkts.getLast? with
  | some p => { f with pkts := f.pkts.dropLast ++ [g p] }
  | none => f

/-- The last packet removed. -/
def FifoSt.dropLast (f : FifoSt) : FifoSt := { f with pkts := f.pkts.dropLast }

/-! ### Counters and reports -/

/-- The counters of a FIFO. -/
inductive FifoCnt where
  | rewind
  | bad
  | overrun
  | underrun
  | dropped
deriving DecidableEq, Repr

/-- Where a FIFO counts, none for a counter that a CAN controller does not have. -/
def fifoCounter (id : Nat) (x : FifoCnt) : Option Nat :=
  if id < 128 then
    let c := id / 2
    some (match fifoIsTx id, x with
      | false, .rewind => Reg.chCntRxRewind c
      | false, .bad => Reg.chCntRxBad c
      | false, .overrun => Reg.chCntRxOverrun c
      | false, .underrun => Reg.chCntRxUnderrun c
      | false, .dropped => Reg.chCntRxDropped c
      | true, .rewind => Reg.chCntTxRewind c
      | true, .bad => Reg.chCntTxBad c
      | true, .overrun => Reg.chCntTxOverrun c
      | true, .underrun => Reg.chCntTxUnderrun c
      | true, .dropped => Reg.chCntTxDropped c)
  else
    match fifoIsTx id, x with
    | true, .rewind => some (Reg.canCntTxRewind ((id - 128) / 2))
    | _, _ => none

def State.fifoBump (s : State) (id : Nat) (x : FifoCnt) (n : Nat) : State :=
  match fifoCounter id x with
  | some k => s.bumpBy k n
  | none => s

def State.fifoCount (s : State) (id : Nat) (x : FifoCnt) : Word :=
  match fifoCounter id x with
  | some k => s.rd k
  | none => 0

/-- An event of a channel's FIFO (R154). -/
def State.fifoPost (s : State) (id ty irq flags : Nat) (w5 : Word) : State :=
  if id < 128 then
    (s.raise (fifoPage id) irq).post ty .ch (id / 2) (b2n (fifoIsTx id) + flags) (w32 (id / 2)) w5 0 0
  else s

/-- PACKET_BAD under the spacing of R22 (R154), and interrupt bit 6. DESIGN CHOICE: log entry 83. -/
def State.packetBad (s : State) (id status bytes : Nat) (rewound : Bool) : State :=
  if id < 128 then
    (s.raise (fifoPage id) 6).gather (0x30000 + id)
      { Gather.init with
          ty := 0x2C, page := fifoPage id, flags := b2n (fifoIsTx id) + at_ 1 (b2n rewound),
          w4 := w32 (at_ 16 status + id / 2), w5 := w32 bytes, countWord := 7, cntWord := 6,
          cntKey := (fifoCounter id (if rewound then .rewind else .bad)).getD 0 }
  else s

/-! ### RX: the function writes (R143–R148) -/

/-- The packet being written rewound, leaving no trace (R146, R152). -/
def State.fifoRewind (s : State) (id status : Nat) : State :=
  let bytes := ((s.fifo id).writing.map fun p => p.bytes).getD 0
  ((s.setFifo id FifoSt.dropLast).fifoBump id .rewind 1).packetBad id status bytes true

/-- The trailer of the packet being written stored, and the packet complete (R143). -/
def State.rxTrailer (s : State) (id : Nat) (bad : Bool) (status : Nat) : State :=
  match (s.fifo id).writing with
  | some p =>
    let at' := s.lastHeader id + 1 + p.words
    (s.sramSet (s.fifoKey id at') (w32 (at_ 31 (b2n bad) + at_ 16 status + p.bytes % 65536))).setFifo id
      fun f => f.setLast fun p => { p with complete := true }
  | none => s

/-- The packet being written ended BAD with a status (R147). -/
def State.rxEndBad (s : State) (id status : Nat) : State :=
  let bytes := ((s.fifo id).writing.map fun p => p.bytes).getD 0
  ((s.rxTrailer id true status).fifoBump id .bad 1).packetBad id status bytes false

/-- The packet being written fails: rewound, or ended BAD where the consumer had begun it (R146, R147).
DEDUCED: log entry 48. -/
def State.rxFailPacket (s : State) (id status : Nat) : State :=
  match (s.fifo id).writing with
  | some p => if p.begun then s.rxEndBad id status else s.fifoRewind id status
  | none => s

/-- An overrun (R148): the rest of the packet is discarded as it arrives. DEDUCED: log entry 48. -/
def State.rxOverrun (s : State) (id : Nat) : State :=
  let begun := ((s.fifo id).writing.map fun p => p.begun).getD false
  let s := (s.setFifo id fun f => { f with skipping := true }).fifoBump id .overrun 1
  let s := s.fifoPost id 0x2A 4 (at_ 1 (b2n begun)) (s.fifoCount id .overrun)
  if (s.fifo id).writing.isSome then s.rxFailPacket id 0xFF
  else (s.fifoBump id .rewind 1).packetBad id 0xFF 0 true

/-- A packet begun by the function: its header written as a cut-through consumer would read it. Without room for header and
trailer it is an overrun (R144, R148). -/
def State.rxBegin (s : State) (id : Nat) : State :=
  if s.fifoFree id < 2 then s.rxOverrun id
  else
    let s := s.setFifo id fun f => { f with skipping := false, pkts := f.pkts ++ [⟨0, 0, 0, false, 0, false⟩] }
    s.sramSet (s.fifoKey id (s.lastHeader id)) 0x80000000

/-- The cut-through threshold in bytes, 0 for none (R147, R152). CAN FIFOs have none. -/
def State.fifoCut (s : State) (id : Nat) : Nat :=
  if id < 128 then s.fld (if fifoIsTx id then Reg.chTxCut (id / 2) else Reg.chRxCut (id / 2)) 0 16 else 0

/-- A data word of `n` bytes written by the function (R143, R148); the consumer may begin once CUT bytes are present. -/
def State.rxWord (s : State) (id : Nat) (w : Word) (n : Nat) : State :=
  match (s.fifo id).writing with
  | none => s
  | some p =>
    if (s.fifo id).skipping then s
    else if s.fifoFree id < 1 then s.rxOverrun id
    else
      let s := s.sramSet (s.fifoKey id (s.lastHeader id + 1 + p.words)) w
      let s := s.setFifo id fun f => f.setLast fun p => { p with words := p.words + 1, bytes := p.bytes + n }
      let cut := s.fifoCut id
      if cut ≠ 0 ∧ p.bytes < cut ∧ cut ≤ p.bytes + n then s.raise (fifoPage id) 3 else s

/-- The packet's end with a good status: committed (R145, R147). What was being discarded ends here too. -/
def State.rxCommit (s : State) (id : Nat) : State :=
  if (s.fifo id).skipping then s.setFifo id fun f => { f with skipping := false }
  else match (s.fifo id).writing with
    | none => s
    | some p =>
      let s := if p.begun then s else s.sramSet (s.fifoKey id (s.lastHeader id)) (w32 (p.bytes % 65536))
      let s := s.rxTrailer id false 0
      if id < 128 then s.raise (fifoPage id) 2 else s

/-- The packet's end with a failing status (R146, R147). -/
def State.rxFail (s : State) (id status : Nat) : State :=
  if (s.fifo id).skipping then s.setFifo id fun f => { f with skipping := false } else s.rxFailPacket id status

/-- Bytes as data words, the first byte in bits [7:0], unused bytes 0 (R143); each with its count of bytes. -/
def packWords : Nat → List Byte → List (Word × Nat)
  | 0, _ => []
  | _ + 1, [] => []
  | n + 1, b => (w32 (bytesNat (b.take 4)), (b.take 4).length) :: packWords n (b.drop 4)

/-- Bytes written into the packet being written. -/
def State.rxBytes (s : State) (id : Nat) (b : List Byte) : State :=
  (packWords b.length b).foldl (fun s e => s.rxWord id e.1 e.2) s

/-- A whole packet received: stored and committed, or failed with a status. -/
def State.rxPacket (s : State) (id : Nat) (b : List Byte) (status : Nat) : State :=
  let s := (s.rxBegin id).rxBytes id b
  if status = 0 then s.rxCommit id else s.rxFail id status

/-! ### Reading (R145, R147, R151) -/

/-- The words of a packet that can be read, from its header on. -/
def State.pktReadable (s : State) (id : Nat) (p : FifoPkt) : Nat :=
  if p.complete then pktSpan id p
  else if s.fifoCut id ≠ 0 ∧ s.fifoCut id ≤ p.bytes then 1 + p.words else 0

/-- AVAIL: readable words (R145). DEDUCED: log entry 48. -/
def State.fifoAvail (s : State) (id : Nat) : Nat :=
  let f := s.fifo id
  f.pkts.foldl (fun a p => a + s.pktReadable id p) 0 - ((f.pkts.head?.map fun p => p.read).getD 0)

/-- A read of RX_DATA: the next word, or on an underrun the value last read (R151). -/
def State.rxDataRead (s : State) (id : Nat) : Word × State :=
  let f := s.fifo id
  if s.fifoAvail id = 0 then
    let s := (s.setFifo id fun f => { f with underrun := true }).fifoBump id .underrun 1
    (f.lastRead, if f.underrun then s else s.fifoPost id 0x2B 5 0 (s.fifoCount id .underrun))
  else
    let w := s.sramGet (s.fifoKey id f.rd)
    let pkts := match f.pkts with
      | p :: rest =>
        if p.complete ∧ pktSpan id p ≤ p.read + 1 then rest else { p with begun := true, read := p.read + 1 } :: rest
      | [] => []
    (w, s.setFifo id fun f => { f with rd := f.rd + 1, lastRead := w, pkts })

/-! ### Dropping and flushing (R149, R150) -/

/-- The interrupt of a TX FIFO that has become empty: bit 1 of a channel, bit 7 of a CAN controller. DEDUCED: log entry 48. -/
def State.txEmptyIrq (s : State) (id : Nat) : State := s.raise (fifoPage id) (if id < 128 then 1 else 7)

/-- The oldest packet removed; what of it is not yet written is discarded as it arrives. -/
def State.dropOldest (s : State) (id : Nat) : State :=
  match (s.fifo id).pkts with
  | [] => s
  | p :: rest =>
    let left := (p.declared + 3) / 4 - p.words
    let s := (s.setFifo id fun f => { f with
      rd := f.rd - p.read + pktSpan id p, pkts := rest,
      skipping := f.skipping || (!fifoIsTx id && !p.complete),
      skip := if fifoIsTx id && !p.complete then left else f.skip }).fifoBump id .dropped 1
    if fifoIsTx id ∧ rest = [] then s.txEmptyIrq id else s

/-- DROP_REST (R149). -/
def State.fifoDropRest (s : State) (id : Nat) : State := s.dropOldest id

/-- FLUSH (R150). -/
def State.fifoFlush (s : State) (id : Nat) : State :=
  let s := (s.fifo id).pkts.foldl (fun s _ => s.dropOldest id) s
  s.setFifo id fun f => { f with underrun := false, lastRead := 0 }

/-- The FIFO emptied without a count, as at reset. -/
def State.fifoClear (s : State) (id : Nat) : State := s.setFifo id fun _ => FifoSt.init

/-! ### TX: software writes, the function consumes (R152) -/

/-- A word written with no free space, or a packet whose rest must be discarded: rewound, or ended BAD where the function had
begun it (R152). -/
def State.txOverrun (s : State) (id left : Nat) : State :=
  let p := (s.fifo id).writing
  let begun := (p.map fun p => p.begun).getD false
  let bytes := (p.map fun p => p.bytes).getD 0
  let s := (s.setFifo id fun f => { f with skip := left }).fifoBump id .overrun 1
  let s := s.fifoPost id 0x2A 4 (at_ 1 (b2n begun)) (s.fifoCount id .overrun)
  match p with
  | none => (s.fifoBump id .rewind 1).packetBad id 0 0 true
  | some _ =>
    if begun then
      ((s.setFifo id fun f => f.setLast fun p => { p with complete := true, declared := p.bytes }).fifoBump id .bad
        1).packetBad id 0 bytes false
    else s.fifoRewind id 0

/-- A word written to TX_DATA (R152): the first of a packet is its header; the last data word commits it. True where it
commits. -/
def State.txDataWrite (s : State) (id : Nat) (w : Word) : Bool × State :=
  let f := s.fifo id
  if 0 < f.skip then (false, s.setFifo id fun f => { f with skip := f.skip - 1 })
  else match f.writing with
    | none =>
      let len := bits w 0 16
      if len = 0 then (false, s.fifoBump id .rewind 1)
      else if s.fifoFree id < 1 then (false, s.txOverrun id ((len + 3) / 4))
      else
        let s := s.setFifo id fun f => { f with pkts := f.pkts ++ [⟨0, 0, len, false, 0, false⟩] }
        (false, s.sramSet (s.fifoKey id (s.lastHeader id)) w)
    | some p =>
      let need := (p.declared + 3) / 4
      if s.fifoFree id < 1 then (false, s.txOverrun id (need - p.words - 1))
      else
        let s := s.sramSet (s.fifoKey id (s.lastHeader id + 1 + p.words)) w
        let done := decide (need ≤ p.words + 1)
        let s := s.setFifo id fun f => f.setLast fun p =>
          { p with words := p.words + 1, bytes := capAt p.declared (4 * (p.words + 1)), complete := done }
        (done, s)

/-- Whether the function may begin, or has begun, the oldest packet (R152). -/
def State.txReady (s : State) (id : Nat) : Bool :=
  match (s.fifo id).pkts with
  | p :: _ => p.begun || p.complete || (decide (s.fifoCut id ≠ 0) && decide (s.fifoCut id ≤ p.bytes))
  | [] => false

/-- The oldest packet begun: its header, or none where it may not begin. -/
def State.txBegin (s : State) (id : Nat) : Option Word × State :=
  match (s.fifo id).pkts with
  | p :: rest =>
    if s.txReady id ∧ p.read = 0 then
      let w := s.sramGet (s.fifoKey id (s.fifo id).rd)
      (some w, s.setFifo id fun f => { f with rd := f.rd + 1, pkts := { p with begun := true, read := 1 } :: rest })
    else (none, s)
  | [] => (none, s)

/-- The oldest packet taken away by the function, its rest discarded as it arrives; interrupt bit 1 where the FIFO is then
empty. -/
def State.txFinish (s : State) (id : Nat) : State :=
  match (s.fifo id).pkts with
  | [] => s
  | p :: rest =>
    let left := (p.declared + 3) / 4 - p.words
    let s := s.setFifo id fun f => { f with
      rd := f.rd - p.read + pktSpan id p, pkts := rest, skip := if p.complete then f.skip else left }
    if rest = [] then s.txEmptyIrq id else s

/-- A TX underrun: the function needs a word that has not been written; the packet ends BAD (R152). -/
def State.txUnderrun (s : State) (id : Nat) : State :=
  let was := (s.fifo id).underrun
  let bytes := ((s.fifo id).pkts.head?.map fun p => p.bytes).getD 0
  let s := ((s.setFifo id fun f => { f with underrun := true }).fifoBump id .underrun 1).fifoBump id .bad 1
  let s := if was then s else s.fifoPost id 0x2B 5 0 (s.fifoCount id .underrun)
  (s.packetBad id 0 bytes false).txFinish id

/-- The next data word of the packet begun: none where it has not been written. -/
def State.txNext (s : State) (id : Nat) : Option Word × State :=
  match (s.fifo id).pkts with
  | p :: rest =>
    if 0 < p.read ∧ p.read ≤ p.words then
      let w := s.sramGet (s.fifoKey id (s.fifo id).rd)
      (some w, s.setFifo id fun f => { f with rd := f.rd + 1, pkts := { p with read := p.read + 1 } :: rest })
    else (none, s)
  | [] => (none, s)

/-- The data bytes of the oldest packet, complete or not. -/
def State.txBytes (s : State) (id : Nat) : List Byte :=
  match (s.fifo id).pkts with
  | p :: _ =>
    let base := (s.fifo id).rd - p.read + 1
    (wordsBytes ((upFrom 0 p.words).map fun i => s.sramGet (s.fifoKey id (base + i)))).take p.bytes
  | [] => []

/-- The header of the oldest packet. -/
def State.txHeader (s : State) (id : Nat) : Word :=
  match (s.fifo id).pkts with
  | p :: _ => s.sramGet (s.fifoKey id ((s.fifo id).rd - p.read))
  | [] => 0

end Sys2Proof.Machine
end

