-- ==== Sys2Proof/Machine/Time.lean ====
section
/-! DEFINITION. The time counter: its advance, corrections, quality code and uncertainty (R49–R63). The TIME mailbox
commands that step the counter are in TimeStep.lean, after the tables a forced step acts on. -/

namespace Sys2Proof.Machine

/-- The state bits of a quality code (R56): 0 LOCKED, 1 HOLDOVER, 2 FREERUN, 3 UNSYNC. -/
def State.timeState (s : State) : Nat := s.time.quality.toNat / 4

/-- U as it reads, in ns: 255 in FREERUN and UNSYNC, otherwise whole ns, at most 255 (R58). -/
def State.uncNs (s : State) : Nat :=
  if 2 ≤ s.timeState then 255 else capAt 255 (s.time.unc / 256)

/-- The counter set to a value in units of 2^−32 ns since the epoch, the seconds modulo 2^48 (R50). -/
def State.setCounter (s : State) (total : Int) : State :=
  let ns := total.fdiv (2 ^ 32)
  { s with time := { s.time with
      sec := BitVec.ofInt 48 (ns.fdiv 1000000000), ns := (ns.fmod 1000000000).toNat,
      frac := BitVec.ofInt 32 (total.fmod (2 ^ 32)) } }

/-- The counter's value in units of 2^−32 ns since the epoch. -/
def State.counter (s : State) : Int :=
  ((s.time.sec.toNat : Int) * 1000000000 + s.time.ns) * 2 ^ 32 + s.time.frac.toNat

/-- PEND_CORR: nanoseconds of slew still to apply, signed (R60). -/
def State.pendCorr (s : State) : Int := (s.rd Reg.timePendCorr).toInt

/-- The rate of the next TCLK edge's increment: TIME.RATE, or the value of a steward's ADJ_RATE that executes at that edge (R50,
R75). -/
def State.edgeRate (s : State) : Int :=
  if s.time.cmd.any (fun c => decide (c.op = 3) && c.steward) then (s.mbxD 0x10 0).toInt else (s.rd Reg.timeRate).toInt

/-- The increment of a TCLK edge: 40 × 2^32 + RATE, RATE signed (R50). -/
def State.tclkInc (s : State) : Int := 40 * 2 ^ 32 + s.edgeRate

/-- TCLK edges from one slew step to the next: 2^SLEW_DIV, values above 10 acting as 10 (R60). -/
def State.slewEvery (s : State) : Nat := 2 ^ capAt 10 (s.fld Reg.timeCfg 4 4)

/-- The slew step of the next TCLK edge in ns: 1 towards the correction where one is due, otherwise 0 (R60).
DESIGN CHOICE: log entry 88. -/
def State.slewNext (s : State) : Int :=
  if s.pendCorr = 0 ∨ s.tclks + 1 < s.time.slewAt + s.slewEvery then 0 else if 0 < s.pendCorr then 1 else -1

/-- The counter after the increment and the slew step of the next TCLK edge (R51). -/
def State.edgeCount (s : State) : Int := s.counter + s.tclkInc + s.slewNext * 2 ^ 32

/-- The counter moved by `c` nanoseconds as one step. -/
def State.stepCounter (s : State) (c : Int) : State := s.setCounter (s.counter + c * 2 ^ 32)

/-- The 64-bit correction of MBX_D0 and MBX_D1, signed ns. -/
def State.corrInput (s : State) : Int :=
  (BitVec.ofNat 64 ((s.mbxD 0x10 0).toNat + (s.mbxD 0x10 1).toNat * 2 ^ 32)).toInt

/-- The held refused correction, signed ns (R61). -/
def State.heldCorr (s : State) : Int :=
  (BitVec.ofNat 64 ((s.rd Reg.timeRefusedLo).toNat + (s.rd Reg.timeRefusedHi).toNat * 2 ^ 32)).toInt

/-- The time that SET_TIME loads, in units of 2^−32 ns; its nanoseconds are in range or not (R63, R75). -/
def State.setTimeInput (s : State) : Int :=
  (((s.mbxD 0x10 0).toNat + bits (s.mbxD 0x10 2) 0 16 * 2 ^ 32 : Nat) * 1000000000 + ((s.mbxD 0x10 1).toNat : Int)) * 2 ^ 32
def State.setTimeOk (s : State) : Bool := decide ((s.mbxD 0x10 1).toNat < 1000000000)

/-- Whether an ADJ_PHASE is an initial set (R62). -/
def State.initialSet (s : State) : Bool := decide (s.timeState = 3) && s.flag Reg.timeCfg 0 && !s.time.initSetDone

/-- The counter after the next TCLK edge, with the step of a command that executes there (R51). -/
def State.edgeTotal (s : State) : Int :=
  match s.time.cmd with
  | none => s.edgeCount
  | some c =>
    if c.op = 2 ∧ c.steward ∧ s.initialSet then s.edgeCount + s.corrInput * 2 ^ 32
    else if c.op = 4 ∧ s.time.refusedHeld then s.edgeCount + s.heldCorr * 2 ^ 32
    else if c.op = 5 ∧ s.setTimeOk then s.setTimeInput
    else s.edgeCount

/-- A counter value as a fabric time. -/
def timeOf (total : Int) : TimePoint :=
  let ns := total.fdiv (2 ^ 32)
  ⟨BitVec.ofInt 32 (ns.fdiv 1000000000), (ns.fmod 1000000000).toNat⟩

/-- The fabric time at the TCLK edge that follows (R106, R187). -/
def State.nextEdge (s : State) : TimePoint := timeOf s.edgeTotal

/-- A change of the quality code: TIME_QUALITY is posted with the old and the new code and U as it reads after the change
(R57, R76). U grows by whole ms from the entry to HOLDOVER (R58). -/
def State.setQuality (s : State) (code : BitVec 4) : State :=
  let old := s.time.quality
  if code = old then s
  else
    let enters := decide (code.toNat / 4 = 1) && decide (old.toNat / 4 ≠ 1)
    let s := { s with time := { s.time with
      quality := code, history := (s.now, old) :: s.time.history, growAt := if enters then s.tclks else s.time.growAt } }
    (s.raise 0x10 0).post 0x10 .time 0 0 (w32 (at_ 28 old.toNat + at_ 24 code.toNat + s.uncNs)) 0 0 0

/-- UNSYNC entered: the code is 0xF, and a new initial set is allowed (R57, R59, R62). -/
def State.loseSync (s : State) : State :=
  ({ s with time := { s.time with initSetDone := false } }).setQuality 0xF

/-- HOLDOVER becomes FREERUN when U reaches HOLD_LIMIT (R57). DEDUCED: log entry 37. -/
def State.checkHoldLimit (s : State) : State :=
  if s.timeState = 1 ∧ s.fld Reg.timeHoldLimit 0 8 * 256 ≤ s.time.unc then
    s.setQuality (BitVec.ofNat 4 (8 + s.time.quality.toNat % 4))
  else s

/-- The private timers counted down by one TCLK period: one microsecond is 25 periods, and a count holds at 0 until its
expiry (R436). -/
def State.tickTimers (s : State) : State :=
  { s with icu := { s.icu with timers := s.icu.timers.map fun e =>
      match e.2 with
      | none => e
      | some t =>
        if t.periods + 1 < 25 then (e.1, some { t with periods := t.periods + 1 })
        else (e.1, some ⟨t.count - 1, 0⟩) } }

/-- UNC_GROWTH_TICK (R58): at each ms in HOLDOVER, UNC_GROWTH is added to U, and FREERUN is entered at HOLD_LIMIT (R57). -/
def execUncGrowthTick (s : State) : Host.Outcome State Fault Refusal :=
  .next (if s.timeState = 1 ∧ s.passed s.time.growAt (msTclks 1) then
      ({ s with time := { s.time with
          unc := capAt 65535 (s.time.unc + s.fld Reg.timeUncGrowth 0 16), growAt := s.time.growAt + msTclks 1 } }).checkHoldLimit
    else s)

/-! ### Commands of the TIME mailbox (R75) -/

/-- A command accepted: it executes at the next TCLK edge. -/
def State.timeAccept (s : State) (a : Agent) (op arg : Nat) : State :=
  s.mbxAccept 0x10 fun s => { s with time := { s.time with cmd := some ⟨op, decide (a = .steward), arg⟩ } }

/-- READ_TIME (R53, R75) accepted. -/
def execReadTime (a : Agent) (s : State) : Host.Outcome State Fault Refusal := .next (s.timeAccept a 1 0)

/-- ADJ_PHASE (R60–R62, R75) accepted. -/
def execAdjPhase (a : Agent) (s : State) : Host.Outcome State Fault Refusal := .next (s.timeAccept a 2 0)

/-- ADJ_RATE (R50, R75) accepted. -/
def execAdjRate (a : Agent) (s : State) : Host.Outcome State Fault Refusal := .next (s.timeAccept a 3 0)

/-- STEP_FORCE (R63, R75) accepted; any agent may issue it. -/
def execStepForce (s : State) : Host.Outcome State Fault Refusal := .next (s.timeAccept .host 4 0)

/-- SET_TIME (R63, R75) accepted; any agent may issue it. -/
def execSetTime (s : State) : Host.Outcome State Fault Refusal := .next (s.timeAccept .host 5 0)

/-- SET_STATE (R57, R75) accepted. -/
def execSetState (a : Agent) (arg : BitVec 16) (s : State) : Host.Outcome State Fault Refusal :=
  .next (s.timeAccept a 6 arg.toNat)

/-- READ_TIME at its edge: every field of the counter (R53). -/
def State.readTime (s : State) : MbxAns × State :=
  (.ok (some (w32 s.time.sec.toNat)) (some (w32 s.time.ns))
    (some (w32 (at_ 16 (s.time.sec.toNat / 2 ^ 32) + at_ 12 s.time.quality.toNat + s.uncNs))) (some s.time.frac), s)

/-- Whether the steward may request state `req` from state `cur` (R57). -/
def stateAllowed (cur req : Nat) : Bool := decide (req = cur) || decide (req = 0) || (decide (cur = 0) && decide (req = 1))

/-- The quality state and source changed by the steward, and U loaded in LOCKED and HOLDOVER (R57, R58).
DEDUCED: log entry 37. -/
def State.stateSet (s : State) (code : BitVec 4) (u : Nat) : State :=
  let s := if code.toNat < 8 then { s with time := { s.time with unc := 256 * u } } else s
  (s.setQuality code).checkHoldLimit

/-- SET_STATE at its edge (R57). -/
def State.setState (s : State) (steward : Bool) (arg : Nat) : MbxAns × State :=
  let code := BitVec.ofNat 4 arg
  if !steward then (.err 2, s)
  else if !stateAllowed s.timeState (code.toNat / 4) then (.err 4, s)
  else (.done, s.stateSet code ((s.mbxD 0x10 0).toNat % 256))

/-- ADJ_RATE at its edge (R50). -/
def State.rateSet (s : State) (steward : Bool) : MbxAns × State :=
  if steward then (.done, s.wr Reg.timeRate (s.mbxD 0x10 0)) else (.err 2, s)

/-- The TCLK periods that `n` periods of XT32 take, whole: 30,517.578125 ns are 390,625/512 of them. DESIGN CHOICE: log entry 9. -/
def xtTclks (n : Nat) : Nat := n * 390625 / 512

/-- XT32_EDGE (R59): the always-on count of DORMANT, 30,517 ns and 0x9400_0000 of fraction; intervals counted in TCLK periods go on.
The power state is checked by the caller's condition that the node is DORMANT with XT32 fitted. -/
def State.xt32Advance (s : State) : State :=
  let n := s.time.xts
  let s := s.setCounter (s.counter + (30517 * 2 ^ 32 + 0x94000000))
  { s with time := { s.time with xts := n + 1 }, tclks := s.tclks + (xtTclks (n + 1) - xtTclks n) }

end Sys2Proof.Machine
end

