-- ==== Sys2Proof/Machine/Operands.lean ====
section
/-! DEFINITION. The operands of the reflex table (R185–R188): the vector of 512 bits, the sensitivity of rules to it, and the
queueing of rules that an operand change causes (R191, R192, R544). -/

namespace Sys2Proof.Machine

/-- An uncorrectable error of a protection memory: reported by its block, and one of the node's own faults (R351, R446). -/
def State.memUncorr (s : State) (page mem : Nat) (addr syn : Word) : State :=
  (s.eccError page mem true addr syn).leaseFault 1

/-- What SECDED found in a protection memory: nothing, a corrected error reported, or an uncorrectable one (R446). -/
def State.memEcc (s : State) (page mem : Nat) : ReadEcc → State
  | .clean => s
  | .corrected a y => s.eccError page mem false a y
  | .uncorrectable a y => s.memUncorr page mem a y

/-- Whether a read found no uncorrectable error. DEDUCED: log entry 15. -/
def eccUsable : ReadEcc → Bool
  | .uncorrectable _ _ => false
  | _ => true

/-- Operand k of the vector (R185). -/
def State.operand (s : State) (k : Nat) : Bool :=
  if k < 256 then (s.line k).level
  else if k < 448 then setHas s.sigOps (k - 256)
  else if k < 480 then setHas s.winOpen (k - 448)
  else s.flag Reg.rfxSwf (k - 480)

/-- A reflex rule's entry. -/
def State.rule (s : State) (r : Nat) : Rule := Tab.get Rule.init s.rules r

def State.setRule (s : State) (r : Nat) (x : Rule) : State := { s with rules := Tab.set Rule.init s.rules r x }

/-- A literal, as bits of a term word: EN, INV and its operand (R188). -/
structure Lit where
  en : Bool
  inv : Bool
  op : Nat
deriving DecidableEq, Repr

/-- The two literals of a word: the lower one first. -/
def litsOf (w : Word) : List Lit :=
  [⟨bit w 15, bit w 14, bits w 0 9⟩, ⟨bit w 31, bit w 30, bits w 16 9⟩]

/-- The four terms of a rule, four literals each. -/
def Rule.terms (r : Rule) : List (List Lit) :=
  [litsOf r.t0 ++ litsOf r.t1, litsOf r.t2 ++ litsOf r.t3, litsOf r.t4 ++ litsOf r.t5, litsOf r.t6 ++ litsOf r.t7]

/-- Whether operand k is one of the rule's sensitivity list: an operand of an enabled literal (R191). -/
def Rule.sensitive (r : Rule) (k : Nat) : Bool :=
  r.terms.any fun t => t.any fun l => l.en && decide (l.op = k)

/-- EXPRESS of a rule (R192). -/
def Rule.express (r : Rule) : Bool := bit r.ctrl 15

/-- A rule's result against the vector: the OR of its terms, each the AND of its enabled literals; a term with no enabled
literal is false (R188). -/
def State.ruleResult (s : State) (r : Rule) : Bool :=
  r.terms.any fun t => (t.any fun l => l.en) && t.all fun l => !l.en || xor (s.operand l.op) l.inv

/-- Whether a rule is queued. -/
def State.ruleQueued (s : State) (n : Nat) : Bool := setHas s.express n || setHas s.normal n

/-- QUEUE_PEAK keeps the highest number of rules queued at once. -/
def State.notePeak (s : State) : State :=
  let n := s.express.length + s.normal.length
  if s.fld Reg.rfxQueuePeak 0 11 < n then s.wr Reg.rfxQueuePeak (w32 n) else s

/-- A rule queued, once (R192). -/
def State.queueRule (s : State) (n : Nat) : State :=
  if s.ruleQueued n then s
  else
    (if (s.rule n).express then { s with express := setAdd s.express n }
     else { s with normal := setAdd s.normal n }).notePeak

/-- A rule removed from the evaluation queue (R190). -/
def State.dequeueRule (s : State) (n : Nat) : State :=
  { s with express := setDel s.express n, normal := setDel s.normal n }

/-- The later of two changes; of equal source times, the one registered last (R544). -/
def laterChange (old : Option (Nat × TimePoint)) (k : Nat) (t : TimePoint) : Option (Nat × TimePoint) :=
  match old with
  | some (j, u) => if timeReached t u then some (k, t) else some (j, u)
  | none => some (k, t)

/-- Operand k has changed, with source time t: every armed rule sensitive to it sees the change and is queued (R187, R192,
R544). -/
def State.operandChanged (s : State) (k : Nat) (t : TimePoint) : State :=
  s.rules.foldl (fun s e =>
    if e.2.armed && e.2.sensitive k then
      (s.setRule e.1 { e.2 with seen := laterChange e.2.seen k t }).queueRule e.1
    else s) s

end Sys2Proof.Machine
end

