-- ==== Sys2Proof/Machine/Windows.lean ====
section
/-! DEFINITION. Windows: instances and triggers, window state bits, classification, and the WIN mailbox (R91–R99, R545). -/

namespace Sys2Proof.Machine

def State.win (s : State) (w : Nat) : WinEnt := Tab.get WinEnt.init s.wins w

def State.setWin (s : State) (w : Nat) (f : WinEnt → WinEnt) : State :=
  { s with wins := Tab.set WinEnt.init s.wins w (f (s.win w)) }

/-- KIND of a window (R91). -/
def WinEnt.kind (e : WinEnt) : Nat := bits e.ctrl 0 3

/-- Close of an instance opened at `o`. -/
def WinEnt.close (e : WinEnt) (o : TimePoint) : TimePoint := timeAdd o e.length

/-- `t` lies in the instance opened at `o` (R93). -/
def WinEnt.holds (e : WinEnt) (o t : TimePoint) : Bool := timeReached t o && !timeReached t (e.close o)

/-- The open of the latest instance of a RECURRING window opening at or before `t`, none before the first (R91, R94). -/
def WinEnt.recurring (e : WinEnt) (t : TimePoint) : Option TimePoint :=
  let d := timeDiff t e.open_
  if d < 0 then none else some (timeAdd e.open_ (d.toNat / e.period * e.period))

/-- The current instance's open at counter value `t`: the only one, the latest one of a RECURRING window, or that of the last
trigger. -/
def WinEnt.current (e : WinEnt) (t : TimePoint) : Option TimePoint :=
  if e.kind = 0 then some e.open_ else if e.kind = 1 then e.recurring t else e.inst

/-- The window's state bit at counter value `t` (R93). -/
def WinEnt.isOpen (e : WinEnt) (t : TimePoint) : Bool :=
  e.armed && (match e.current t with
    | some o => e.holds o t
    | none => false)

/-- A window's state bit set to a value; the change of WIN0–WIN31 is an operand change with source time t (R93, R186, R187). -/
def State.setWinBit (s : State) (w : Nat) (b : Bool) (t : TimePoint) : State :=
  if setHas s.winOpen w = b then s
  else
    let s := { s with winOpen := if b then setAdd s.winOpen w else setDel s.winOpen w }
    if w < 32 then s.operandChanged (448 + w) t else s

/-- A trigger ignored under R92. -/
def State.winIgnored (s : State) : State := (s.bump Reg.winCntRetrigIgn).raise 0x13 1

/-- A trigger of window w at time e (R91, R92): it makes or replaces the instance of an armed KIND 2–4 window, and is ignored
and counted for KIND 0 and 1, and with RETRIGGER = 0 while an instance has not yet closed. -/
def State.winTrigger (s : State) (w : Nat) (e : TimePoint) : State :=
  let x := s.win w
  if !x.armed then s
  else if x.kind < 2 then s.winIgnored
  else
    let busy := match x.inst with
      | some o => !timeReached s.now (x.close o)
      | none => false
    if busy && !bit x.ctrl 4 then s.winIgnored
    else s.setWin w fun x => { x with inst := some (timeAdd e x.offset) }

/-- Whether the trigger word's edge field admits a rising or a falling change. -/
def WinEnt.edgeOk (x : WinEnt) (rise : Bool) : Bool := bit x.trigger (if rise then 13 else 14)

/-- A qualified edge of line k triggers the LINE windows that name it (R91). -/
def State.winLineEdge (s : State) (k : Nat) (rise : Bool) (e : TimePoint) : State :=
  s.wins.foldl (fun s x =>
    if x.2.armed ∧ x.2.kind = 2 ∧ bits x.2.trigger 0 13 = k ∧ x.2.edgeOk rise then s.winTrigger x.1 e else s) s

/-- A change of subscription entry n's value from `old` to `new` triggers the SIGNAL windows that name it (R545). -/
def State.winSignal (s : State) (n old new : Nat) (e : TimePoint) : State :=
  if old = new then s
  else s.wins.foldl (fun s x =>
    let f := bits x.2.trigger 13 2
    if x.2.armed ∧ x.2.kind = 3 ∧ bits x.2.trigger 0 13 = n
        ∧ (f = 3 ∨ (f = 1 ∧ old = 0) ∨ (f = 2 ∧ new = 0)) then s.winTrigger x.1 e else s) s

/-- A qualified edge of line k awaits classification by each armed window whose subject it is (R94). -/
def State.winSubject (s : State) (k : Nat) (rise : Bool) (t : TimePoint) (u : Nat) (q : BitVec 4) : State :=
  s.wins.foldl (fun s x =>
    if x.2.armed && decide (bits x.2.ctrl 16 8 = k) && bit x.2.ctrl (if rise then 8 else 9) then
      { s with winEdges := s.winEdges ++ [⟨x.1, k, t, u, q⟩] }
    else s) s

/-- A disarmed window: its state bit is 0 at once, its edges awaiting classification are dropped, and its instance is dropped with
them (R93, R94, R99). DESIGN CHOICE: log entry 79. -/
def State.winDisarm (s : State) (w : Nat) : State :=
  let s := (s.setWin w fun x => { x with armed := false, inst := none }).setWinBit w false s.nextEdge
  { s with winEdges := s.winEdges.filter fun e => decide (e.win ≠ w) }

/-! ### Classification (R94–R98) -/

/-- The raw result of stamp t with uncertainty u against [o, c): 0 INSIDE, 1 OUTSIDE, 2 BOUNDARY (R95).
DEDUCED: log entry 44. -/
def classify (t : TimePoint) (u : Nat) (o c : TimePoint) : Nat :=
  if timeDiff t o ≥ u ∧ timeDiff t c < -(u : Int) then 0
  else if timeDiff t o < -(u : Int) ∨ timeDiff t c ≥ u then 1
  else 2

/-- `i` saturated to signed 32 bits. -/
def sat32 (i : Int) : Word :=
  wOfInt (if i > 2147483647 then 2147483647 else if i < -2147483648 then -2147483648 else i)

/-- The instance an edge is judged against: the current one, whose open is at or before t + U (R94). DEDUCED: log entry 44. -/
def State.judged (s : State) (x : WinEnt) (e : WinEdge) : Option TimePoint :=
  if x.kind = 1 then x.recurring (timeAdd e.time e.unc)
  else match x.current s.now with
    | some o => if timeReached (timeAdd e.time e.unc) o then some o else none
    | none => none

/-- An edge classified: counted, and posted where REPORT selects its raw result; words 5 and 6 are 0 when NONE (R95, R98).
DEDUCED: log entry 44. DESIGN CHOICE: log entry 77. -/
def State.winClassify (s : State) (e : WinEdge) : State :=
  let x := s.win e.win
  let inst := s.judged x e
  let raw := match inst with
    | some o => classify e.time e.unc o (x.close o)
    | none => 3
  let inside := decide (raw = 0) || (decide (raw = 2) && !bit x.ctrl 3)
  let s := s.bump Reg.winCntResult
  let s := if raw = 2 then s.bump Reg.winCntBoundary else s
  if bit x.ctrl (12 + raw) then
    let o := inst.getD ⟨0, 0⟩
    (s.raise 0x13 0).postAt 0x19 .win 0 (b2n (decide (raw = 2)) + at_ 1 (b2n inside) + at_ 2 (b2n (decide (raw = 3))))
      e.time (e.quality.toNat / 4)
      (w32 (at_ 24 e.win + at_ 16 e.line + raw)) (w32 o.sec.toNat) (w32 o.ns)
      (match inst with
        | some o => sat32 (timeDiff e.time o)
        | none => 0)
  else s

/-- WINDOW_CLASSIFY (R94): the i-th edge awaiting classification, once the counter has passed t + SETTLE.
DEDUCED: log entry 44. -/
def execWindowClassify (i : Nat) (s : State) : Host.Outcome State Fault Refusal :=
  .next (match s.winEdges.drop i with
    | e :: rest =>
      if timeReached s.now (timeAdd e.time (s.fld Reg.winSettle 0 16)) then
        { s with winEdges := s.winEdges.take i ++ rest }.winClassify e
      else s
    | [] => s)

/-- WINDOW_STATE_CHANGE (R93): the state bit of window w follows the counter; the operand of WIN0–WIN31 changes with the open
or close time as its source time (R187). -/
def execWindowStateChange (w : Fin 256) (s : State) : Host.Outcome State Fault Refusal :=
  let x := s.win w
  let b := x.isOpen s.now
  let o := (x.current s.now).getD s.now
  .next (s.setWinBit w b (if b then o else x.close o))

/-! ### The WIN mailbox (R99) -/

/-- A command on window ARG; ARG above 255 is RANGE. -/
def State.winCommand (s : State) (arg : BitVec 16) (f : Nat → State → MbxAns × State) : State :=
  s.mbxCommand 0x13 fun s => if 255 < arg.toNat then (.err 2, s) else f arg.toNat s

/-- LOAD_TIMES (R99). -/
def execLoadTimes (arg : BitVec 16) (s : State) : Host.Outcome State Fault Refusal :=
  .next (s.winCommand arg fun w s =>
    let ns := (s.mbxD 0x13 1).toNat
    let len := (s.mbxD 0x13 2).toNat
    if (s.win w).armed then (.err 1, s)
    else if 1000000000 ≤ ns ∨ len = 0 then (.err 2, s)
    else (.done, s.setWin w fun x => { x with
      open_ := ⟨s.mbxD 0x13 0, ns⟩, length := len, period := (s.mbxD 0x13 3).toNat }))

/-- LOAD_CTRL (R99); KIND 5–7 is refused, and reserved bits read 0. -/
def execLoadCtrl (arg : BitVec 16) (s : State) : Host.Outcome State Fault Refusal :=
  .next (s.winCommand arg fun w s =>
    let c := s.mbxD 0x13 0
    if (s.win w).armed then (.err 1, s)
    else if 4 < bits c 0 3 then (.err 3, s)
    else (.done, s.setWin w fun x => { x with
      ctrl := c &&& 0x00FFF31F#32, offset := (s.mbxD 0x13 1).toNat, trigger := s.mbxD 0x13 2 &&& 0x7FFF#32 }))

/-- ARM (R99): the window checked as a whole and armed. -/
def execWinArm (arg : BitVec 16) (s : State) : Host.Outcome State Fault Refusal :=
  .next (s.winCommand arg fun w s =>
    let x := s.win w
    if x.armed then (.done, s)
    else if x.length = 0 ∨ (x.kind = 1 ∧ x.period ≤ x.length) then (.err 2, s)
    else (.done, s.setWin w fun x => { x with armed := true, inst := none }))

/-- DISARM (R99). -/
def execWinDisarm (arg : BitVec 16) (s : State) : Host.Outcome State Fault Refusal :=
  .next (s.winCommand arg fun w s => (.done, s.winDisarm w))

/-- READ_TIMES (R99). -/
def execReadTimes (arg : BitVec 16) (s : State) : Host.Outcome State Fault Refusal :=
  .next (s.winCommand arg fun w s =>
    let x := s.win w
    (.ok (some x.open_.sec) (some (w32 x.open_.ns)) (some (w32 x.length)) (some (w32 x.period)), s))

/-- READ_CTRL (R99). -/
def execReadCtrl (arg : BitVec 16) (s : State) : Host.Outcome State Fault Refusal :=
  .next (s.winCommand arg fun w s =>
    let x := s.win w
    (.ok (some x.ctrl) (some (w32 x.offset)) (some x.trigger) (some (w32 (b2n x.armed))), s))

/-- TRIGGER (R99): an "open a window" action at the current time. -/
def execTrigger (arg : BitVec 16) (s : State) : Host.Outcome State Fault Refusal :=
  .next (s.winCommand arg fun w s => (.done, s.winTrigger w s.now))

/-- SOFT_RESET of the WIN page (R94, R99): every window disarmed, its contents kept. -/
def State.winSoftReset (s : State) : State := s.wins.foldl (fun s x => s.winDisarm x.1) s

end Sys2Proof.Machine
end

