-- ==== Sys2Proof/Machine/Lines.lean ====
section
/-! DEFINITION. Lines and tiles: who drives a line (R131–R140), the line cell's filter, checks and stamps (R77–R90, R134–R136,
R541–R543), the bank check (R124, R125), the tile clock (R127, R495) and the counter function (R141, R142). -/

namespace Sys2Proof.Machine

/-! ### Channels and engines as lines see them -/

/-- FUNC of a channel (R129); codes 11–15 act as 0. -/
def State.chFunc (s : State) (c : Nat) : Nat :=
  let f := s.fld (Reg.chFunc c) 0 4
  if 10 < f then 0 else f

/-- A channel runs function f: selected, with EN = 1 (R130). -/
def State.runs (s : State) (c f : Nat) : Bool := s.enabled (0x80 + c) && decide (s.chFunc c = f)

def State.eng (s : State) (e : Nat) : EngSt := Tab.get (EngSt.init (e % 8)) s.engs e

def State.setEng (s : State) (e : Nat) (f : EngSt → EngSt) : State :=
  { s with engs := Tab.set (EngSt.init (e % 8)) s.engs e (f (s.eng e)) }

/-- The line that slot p of engine e's pin map names (R158). -/
def State.slotLine (s : State) (e p : Nat) : Nat :=
  32 * (e / 8) + s.fld (if p < 4 then Reg.chEngPinmap0 e else Reg.chEngPinmap1 e) (8 * (p % 4)) 5

/-- What engine e drives on line k: the value of an enabled slot that names it; of several, the lowest slot's.
DEDUCED: log entry 22. -/
def State.engineDrive (s : State) (e k : Nat) : Option Bool :=
  ((upFrom 0 8).find? fun p => (s.eng e).oe.toNat.testBit p && decide (s.slotLine e p = k)).map fun p =>
    (s.eng e).val.toNat.testBit p

/-- Whether an engine may drive line k: FUNC = 10 on its channel, LOUT.PROTECTED 0 (R159). DEDUCED: log entry 22. -/
def State.engineMay (s : State) (k : Nat) : Bool := decide (s.chFunc (k / 4) = 10) && !s.isProtected k

/-- The engines of line k's tile that drive it, lowest first (R159, R160). DEDUCED: log entry 22. -/
def State.drivers (s : State) (k : Nat) : List (Nat × Bool) :=
  if s.engineMay k then
    (upFrom (k / 32 * 8) 8).filterMap fun e => (s.engineDrive e k).map fun v => (e, v)
  else []

/-- The positions that a channel function drives (R129). DEDUCED: log entry 42. -/
def functionOuts (f : Nat) : List Nat :=
  if f = 2 then [0, 2] else if f = 3 then [0, 1, 3] else if f = 4 then [2] else if f = 5 then [0, 1]
  else if f = 8 then [0] else if f = 9 then [0] else []

/-- The positions that a channel function reads, which are neither binary nor spare (R129). DEDUCED: log entry 42. -/
def functionIns (f : Nat) : List Nat :=
  if f = 1 then [0, 1, 2] else if f = 2 then [1] else if f = 3 then [2] else if f = 4 then [0, 1, 3]
  else if f = 6 then [0] else if f = 7 then [0] else if f = 9 then [1] else []

/-- What a line's pin is given (R131): a level, release in place of a level of 1 (open-drain mode), the function's drive, or nothing. -/
inductive PinDrive where
  | level (b : Bool)
  | released
  | function
  | highZ
deriving DecidableEq, Repr

/-- A level driven in the line's output mode: with LOUT.OPEN_DRAIN = 1, driving 1 releases the pin (R137, R139). -/
def State.driven (s : State) (k : Nat) (b : Bool) : PinDrive := if b && bit (s.lout k) 2 then .released else .level b

/-- The safe state of a line (R139). -/
def State.safeDrive (s : State) (k : Nat) : PinDrive :=
  let m := bits (s.lout k) 3 2
  if m = 0 then s.driven k false else if m = 1 then s.driven k true else if m = 2 then s.driven k (s.line k).held else .highZ

/-- The case of R131 that holds but for the safe state. DEDUCED: log entries 22 and 42. -/
def State.roleDrive (s : State) (k : Nat) : PinDrive :=
  if s.enabled (0x80 + k / 4) && decide (k % 4 ∈ functionOuts (s.chFunc (k / 4))) then .function
  else if s.enabled (0x80 + k / 4) && decide (k % 4 ∈ functionIns (s.chFunc (k / 4))) then .highZ
  else match s.drivers k with
    | (_, v) :: _ => s.driven k v
    | [] => if bit (s.lout k) 0 then s.driven k (s.line k).latchLevel else .highZ

/-- What a line's pin shows (R131); a line of an unpowered bank does not drive (R525). -/
def State.pinDrive (s : State) (k : Nat) : PinDrive :=
  if !s.banksPowered then .highZ else if (s.line k).safe then s.safeDrive k else s.roleDrive k

/-! ### The readback check (R137, R138) -/

/-- Whether the pin of an output with RB_TIME set differs from the level that the hub drives; a released pin is compared with 1, and
one at high impedance is not compared. -/
def State.pinDiffers (s : State) (k : Nat) : Bool :=
  bit (s.lout k) 0 && decide (bits (s.lout k) 16 16 ≠ 0) &&
    match s.pinDrive k with
    | .level b => xor b (s.line k).raw
    | .released => !(s.line k).raw
    | .function => false
    | .highZ => false

/-- A difference that begins is timed from the present TCLK count, and one that ends is forgotten. -/
def State.readbackTrack (s : State) (k : Nat) : State :=
  let c := s.line k
  let d := s.pinDiffers k
  if d = c.differAt.isSome then s
  else s.setLine k { c with differAt := if d then some s.tclks else none, differTold := false }

/-! ### Output latches (R103, R131–R133, R348) -/

/-- A base level written to a latch, and to the command bit. -/
def State.latchWrite (s : State) (k : Nat) (b : Bool) : State :=
  ((s.setLine k { s.line k with latch := b, cmd := b }).readbackTrack k).commandsChanged

/-- A base level recorded in the command bit only: a write refused on a PROTECTED line (R131, R348). -/
def State.cmdWrite (s : State) (k : Nat) (b : Bool) : State :=
  (s.setLine k { s.line k with cmd := b }).commandsChanged

/-- A pulse begun, or a running one restarted, at a level until a time (R103). -/
def State.pulseStart (s : State) (k : Nat) (b : Bool) (stop : TimePoint) : State :=
  ((s.setLine k { s.line k with pulse := some ⟨b, stop⟩, cmdPulse := some ⟨b, stop⟩ }).readbackTrack k).commandsChanged

/-- A refused pulse, in the command bit only. -/
def State.cmdPulseStart (s : State) (k : Nat) (b : Bool) (stop : TimePoint) : State :=
  (s.setLine k { s.line k with cmdPulse := some ⟨b, stop⟩ }).commandsChanged

/-- A write of the latch of line k is refused to software and the drill: PROTECTED, and the lease not held (R118, R133). -/
def State.latchRefused (s : State) (k : Nat) : Bool := s.isProtected k && !s.holdsLease

/-- A software write of line k's latch (R132, R133). -/
def State.swWrite (s : State) (k : Nat) (b : Bool) : State :=
  if s.latchRefused k then (s.cmdWrite k b).bump (Reg.chCntProtRefused (k / 4)) else s.latchWrite k b

/-- A software write of the latches of channel c that a mask names. -/
def State.outWrite (s : State) (c mask : Nat) (b : Bool) : State :=
  (upFrom 0 4).foldl (fun s j => if mask.testBit j then s.swWrite (4 * c + j) b else s) s

/-- A line enters its safe state, with the level driven at entry kept for SAFE = 0b10 (R139, R140); the level of a pin that the
hub does not drive by its own latch or engine is the pin's. -/
def State.safeEnter (s : State) (k : Nat) : State :=
  let c := s.line k
  if c.safe then s
  else
    let held := match s.roleDrive k with
      | .level b => b
      | .released => true
      | _ => c.raw
    (s.setLine k { c with safe := true, held }).readbackTrack k

/-- SAFE_CMD.RELEASE for one line (R137, R140). -/
def State.safeRelease (s : State) (k : Nat) : State :=
  (s.setLine k { s.line k with safe := false, rbFault := false }).readbackTrack k

/-- A pulse whose width has ended. -/
def State.pulseOver (s : State) (p : Option Pulse) : Bool := p.any fun p => s.due p.stop

/-- PULSE_END (R103): a pulse's width ends in the latch, in the command bit, or in both; the base level shows again. The
DRILL_DONE of its LINE_PULSE is posted at the end of the pulse in the latch. DEDUCED: log entry 45. -/
def execPulseEnd (k : Fin 256) (inLatch inCommand : Bool) (s : State) : Host.Outcome State Fault Refusal :=
  .next (
    let k : Nat := k
    let c := s.line k
    let ends := inLatch && s.pulseOver c.pulse
    let s := s.setLine k { c with pulse := if ends then none else c.pulse,
                                  cmdPulse := if inCommand && s.pulseOver c.cmdPulse then none else c.cmdPulse }
    let s := (s.readbackTrack k).commandsChanged
    if ends then
      let mine := s.pulseDone.filter fun d => decide (d.line = k)
      let s := { s with pulseDone := s.pulseDone.filter fun d => decide (d.line ≠ k) }
      mine.foldl (fun s d => (s.raise 0x12 1).postAt 0x21 .drl 0 d.flags d.time d.quality d.w4 d.w5 d.w6 d.w7) s
    else s)

/-- Whether a mismatch of line k is to be reported: the difference has lasted RB_TIME and is not reported yet. The level that a channel
function drives is not in the state: whether the pin differs from it is the sender's. DEDUCED: log entry 42. -/
def State.mismatchDue (s : State) (k : Nat) : Bool :=
  let n := bits (s.lout k) 16 16
  match s.pinDrive k with
  | .function => bit (s.lout k) 0 && decide (n ≠ 0)
  | _ => s.pinDiffers k && !(s.line k).differTold && (s.line k).differAt.any fun t => s.passed t n

/-- READBACK_MISMATCH (R137, R138): the pin of a line that the hub drives has differed from the driven level for RB_TIME. -/
def execReadbackMismatch (k : Fin 256) (s : State) : Host.Outcome State Fault Refusal :=
  .next (
    let c := s.line k
    let cfg := s.lout k
    if s.mismatchDue k then
      let ch := (k : Nat) / 4
      let s := s.bump (Reg.chCntReadback ch)
      let s := s.setLine k { c with rbFault := true, differTold := true }
      let apply := bit cfg 6
      let s := if apply then s.safeEnter k else s
      let s := (s.raise (0x80 + ch) 0).post 0x29 .ch ch (b2n apply)
        (w32 (at_ 17 (b2n c.raw) + at_ 16 (b2n (!c.raw)) + k)) (w32 (40 * bits cfg 16 16)) (s.rd (Reg.chCntReadback ch)) 0
      if s.compared k then s.leaseFault 2 else s
    else s)

/-! ### Tiles and their clocks (R127, R495) -/

def State.tile (s : State) (t : Nat) : TileSt := Tab.get TileSt.init s.tiles t

def State.setTile (s : State) (t : Nat) (f : TileSt → TileSt) : State :=
  { s with tiles := Tab.set TileSt.init s.tiles t (f (s.tile t)) }

/-- A start condition: a stopped clock starts, and the start is counted; a running one is needed now (R127). Nothing starts while the
hub die is down. DEDUCED: log entry 43. -/
def State.tileWake (s : State) (t : Nat) : State :=
  match (s.tile t).clk with
  | .off =>
    if s.hubUp then (s.setTile t fun x => { x with clk := .starting, clkAt := s.tclks }).bump (Reg.tileCntWake t) else s
  | .starting => s
  | .running => s.setTile t fun x => { x with clkAt := s.tclks }

/-- The tile of a TILE or CH page (R27). -/
def tileOfPage (page : Nat) : Option Nat :=
  if 0x40 ≤ page ∧ page < 0x48 then some (page - 0x40) else if 0x80 ≤ page ∧ page < 0xC0 then some ((page - 0x80) / 8) else none

/-- The tile whose TILE or CH pages hold a node-local address. -/
def tileOfAddr (a : Nat) : Option Nat := if a < 0x1000000 then tileOfPage (a / 0x1000) else none

/-- An access to the tile's TILE or CH pages is pending: stalled, or waiting for an indirect domain (R35, R128), or the request that
executes next (R319), or a posted write (R317). -/
def State.accessWaits (s : State) (t : Nat) : Bool :=
  !(Tab.get [] s.stalls t).isEmpty
    || (s.ind.any fun e => decide (tileOfPage e.1 = some t))
    || (s.xbr.inq.head?.any fun r => decide (tileOfAddr (xAddr r.body) = some t))
    || s.xbr.posts.any fun p => decide (byteAt p.body 0 < 2) && decide (tileOfAddr (xAddr p.body) = some t)

/-- A stamp of tile t awaits transfer (R88). -/
def State.stampWaits (s : State) (t : Nat) : Bool :=
  (upFrom (32 * t) 32).any fun k => !(s.line k).queue.isEmpty

/-- An engine that counts as running for R127: RUNNING, and not in WAIT LAUNCH or in WAIT TIME with its mark more than 2 µs
ahead (R168). -/
def State.engineBusy (s : State) (e : Nat) : Bool :=
  let x := s.eng e
  decide (x.st = 1) && (match x.wait with
    | some w => decide (w.kind ≠ 4) && (decide (w.kind ≠ 3) || x.prepared || decide (timeDiff x.mark s.now ≤ 2000))
    | none => true)

/-- Whether a drill entry acts on tile t: the tile of its line, or of one of its engines (R113). -/
def DrillEnt.actsOn (e : DrillEnt) (t : Nat) : Bool :=
  let code := bits e.action 0 4
  if code ≤ 3 then decide (bits e.action 8 8 / 32 = t)
  else decide (code = 4) && decide (bits (if t < 4 then e.p1 else e.p2) (8 * (t % 4)) 8 ≠ 0)

/-- A launch for tile t is being prepared, or a start event for one of its engines has not yet acted (R113, R127, R180). -/
def State.launching (s : State) (t : Nat) : Bool :=
  (s.drill.any fun e => e.2.prepared && e.2.actsOn t)
    || s.starts.any fun x => decide (x.engines.toNat / 2 ^ (8 * t) % 256 ≠ 0)

/-- A channel function is in the middle of a transfer: a TX packet or transaction under way, a selected SPI slave (R127), or a CAN
controller that is not in INIT (R360). DEDUCED: log entry 43. -/
def State.serialBusy (s : State) (c : Nat) : Bool :=
  let x := Tab.get SerSt.init s.serial c
  x.busy || (x.cs && s.runs c 4)
    || (s.runs c 9 && decide ((Tab.get CanSt.init s.cans (s.fld (Reg.chFunc c) 8 4)).st ≠ 0))

/-- A start condition of R127 other than an edge holds. DEDUCED: log entries 41 and 43. -/
def State.tileNeeded (s : State) (t : Nat) : Bool :=
  s.flag (Reg.tileClkCfg t) 0 || s.launching t || s.stampWaits t || s.accessWaits t
    || (upFrom (8 * t) 8).any fun c =>
      s.engineBusy c || s.serialBusy c || !(s.fifo (txFifo c)).pkts.isEmpty
        || ((s.fifo (rxFifo c)).pkts.any fun p => !p.complete)

/-- The clock of tile t is locked (R495). -/
def State.tileLock (s : State) (t : Nat) : State := s.setTile t fun x => { x with clk := .running, clkAt := s.tclks }

/-- TILE_CLOCK_LOCK_TIMEOUT (R495): the clock is stopped and restarted, and check 0x0C06 of CLK fails with the tile as item.
DEDUCED: log entry 43. -/
def execTileClockLockTimeout (t : Fin 8) (s : State) : Host.Outcome State Fault Refusal :=
  .next (if (s.tile t).clk = .starting ∧ s.passed (s.tile t).clkAt (usTclks 1) then
      (((s.setTile t fun x => { x with clkAt := s.tclks }).bump (Reg.tileCntWake t)).raise 0x02 0).qualFail 0x02 0x0C06 t 0
        Reg.clkCntTileLock
    else s)

/-- IDLE_STOP in µs; 0 acts as 1. -/
def State.idleStop (s : State) (t : Nat) : Nat :=
  let n := s.fld (Reg.tileClkCfg t) 16 16
  if n = 0 then 1 else n

/-- TILE_CLOCK_STOP (R127): no condition has held for IDLE_STOP µs. -/
def execTileClockStop (t : Fin 8) (s : State) : Host.Outcome State Fault Refusal :=
  .next (if (s.tile t).clk = .running ∧ !s.tileNeeded t ∧ s.passed (s.tile t).clkAt (usTclks (s.idleStop t)) then
      s.setTile t fun x => { x with clk := .off }
    else s)

/-- A running clock that a condition of R127 needs is needed now. -/
def State.tileTrack (s : State) (t : Nat) : State :=
  if (s.tile t).clk = .running ∧ s.tileNeeded t then s.setTile t fun x => { x with clkAt := s.tclks } else s

/-- What a TCLK edge samples at lines and tiles: readback differences and the needs of running clocks. -/
def State.tileSample (s : State) : State :=
  (upFrom 0 8).foldl (fun s t => s.tileTrack t) ((upFrom 0 256).foldl (fun s k => s.readbackTrack k) s)

/-! ### Stamps (R84–R90, R541–R543) -/

/-- LCFG of line k (R77). -/
def State.lcfg (s : State) (k : Nat) : Word := s.rd (Reg.lcfg (k / 32) (k % 32))

/-- A lost stamp: counted; the first since the last marker is kept for the marker and posts STAMP_OVERFLOW (R89).
DEDUCED: log entry 41. -/
def State.stampLost (s : State) (t : Nat) (x : Stamp) : State :=
  let s := s.bump (Reg.tileCntStampLost t)
  match (s.tile t).loss with
  | some (f, n) => s.setTile t fun y => { y with loss := some (f, capAt 0xFFFF (n + 1)) }
  | none =>
    ((s.setTile t fun y => { y with loss := some (x, 1) }).raise (0x40 + t) 0).post 0x18 .tile t 0 (w32 x.seq)
      (s.rd (Reg.tileCntStampLost t)) 0 0

/-- A qualified stamped edge takes the tile's next sequence and waits in its line's queue of four, or is lost (R86, R88, R89). ASLEEP
counts a clock that is starting and not yet locked as stopped (R84). DEDUCED: log entry 41. DESIGN CHOICE: log entry 80. -/
def State.stampEdge (s : State) (k : Nat) (rise : Bool) (time : TimePoint) (unc : Nat) (q : BitVec 4) : State :=
  let t := k / 32
  let x : Stamp := ⟨time, rise, k, unc, q, decide ((s.tile t).clk ≠ .running), (s.tile t).seq, s.stampOrder⟩
  let s : State := { (s.setTile t fun y => { y with seq := (y.seq + 1) % 4096 }) with stampOrder := s.stampOrder + 1 }
  let c := s.line k
  if c.queue.length < 4 then s.setLine k { c with queue := c.queue ++ [x] } else s.stampLost t x

/-- Records of the stamp buffer: 2^SIZE, SIZE kept to 6–11 (STAMP_CFG). -/
def State.stampRecords (s : State) (t : Nat) : Nat :=
  let z := s.fld (Reg.tileStampCfg t) 16 4
  2 ^ (if z < 6 then 6 else capAt 11 z)

/-- The tile SRAM word of word w of record i of the stamp buffer; BASE is in 16-byte units, and a buffer that runs past the end of the
SRAM goes on at its beginning. DESIGN CHOICE: log entry 78. -/
def State.stampKey (s : State) (t i w : Nat) : Nat :=
  16384 * t + (4 * s.fld (Reg.tileStampCfg t) 0 16 + 4 * (i % s.stampRecords t) + w) % 16384

/-- The four words of a stamp record, or of a loss marker with its count (R84, R89). -/
def stampWords (x : Stamp) (marker : Option Nat) : List Word :=
  [x.time.sec,
   w32 (at_ 30 (match marker with
     | some _ => 2
     | none => b2n x.rise) + x.time.ns),
   w32 (at_ 16 (marker.getD x.line) + at_ 8 x.unc + at_ 4 x.quality.toNat),
   w32 (at_ 12 (b2n x.asleep) + x.seq)]

/-- A record stored at the end of the stamp buffer. -/
def State.stampStore (s : State) (t : Nat) (ws : List Word) : State :=
  let i := (s.tile t).rd + (s.tile t).count
  let s := (upFrom 0 4).foldl (fun s w => s.sramSet (s.stampKey t i w) ((ws.drop w).headD 0)) s
  s.setTile t fun y => { y with count := y.count + 1 }

/-- The oldest stamp of tile t that waits in a line cell: the first in the tile's order. DEDUCED: log entry 41. -/
def State.oldestStamp (s : State) (t : Nat) : Option Stamp :=
  (upFrom (32 * t) 32).foldl (fun best k =>
    match best, (s.line k).queue with
    | some b, x :: _ => if x.order < b.order then some x else some b
    | none, x :: _ => some x
    | b, [] => b) none

/-- STAMP_TRANSFER (R88, R89, R541): with the tile's clock running, a pending loss marker is written as soon as the buffer has
room, ahead of the oldest waiting stamp; a stamp that reaches a full buffer is lost. DEDUCED: log entry 41. -/
def execStampTransfer (t : Fin 8) (s : State) : Host.Outcome State Fault Refusal :=
  .next (
    if s.stampsHeld ∨ (s.tile t).clk ≠ .running then s
    else
      let room := decide ((s.tile t).count < s.stampRecords t)
      match (s.tile t).loss with
      | some (f, n) =>
        if room then (s.stampStore t (stampWords f (some n))).setTile t fun y => { y with loss := none }
        else match s.oldestStamp t with
          | some x => (s.setLine x.line { s.line x.line with queue := (s.line x.line).queue.drop 1 }).stampLost t x
          | none => s
      | none =>
        match s.oldestStamp t with
        | some x =>
          let s := s.setLine x.line { s.line x.line with queue := (s.line x.line).queue.drop 1 }
          if room then s.stampStore t (stampWords x none) else s.stampLost t x
        | none => s)

/-- A read of STAMP_DATA (R90): the next word of the oldest record, whose fourth read frees it; 0xFFFF_FFFF and STAMP_UNDERRUN
when empty. -/
def State.stampRead (s : State) (t : Nat) : Word × State :=
  let x := s.tile t
  if x.count = 0 then (0xFFFFFFFF, s.setTile t fun y => { y with underrun := true })
  else
    let w := s.sramGet (s.stampKey t x.rd x.word)
    (w, s.setTile t fun y =>
      if y.word = 3 then { y with word := 0, rd := (y.rd + 1) % s.stampRecords t, count := y.count - 1 }
      else { y with word := y.word + 1 })

/-- STAMP_CFG_WRITE (R542): both fields, or neither. -/
def State.stampCfgWrite (s : State) (t : Nat) (v : Word) : State :=
  if (s.tile t).count = 0 ∧ (s.tile t).loss.isNone then
    (s.wr (Reg.tileStampCfg t) (v &&& 0x000FFFFF#32)).setTile t fun y => { y with rd := 0, word := 0 }
  else s

/-- SOFT_RESET of a TILE page empties its stamp buffer (R543). -/
def State.tileSoftReset (s : State) (t : Nat) : State :=
  s.setTile t fun y => { y with rd := 0, count := 0, word := 0, loss := none, underrun := false }

/-! ### The counter function (R141, R142) -/

def State.ctr (s : State) (c : Nat) : CtrSt := Tab.get CtrSt.init s.ctrs c

def State.setCtr (s : State) (c : Nat) (f : CtrSt → CtrSt) : State :=
  { s with ctrs := Tab.set CtrSt.init s.ctrs c (f (s.ctr c)) }

/-- A capture of channel c: CTR_CAP0–CTR_CAP5, the RX FIFO with CAP_TO_FIFO = 1, and the interval begins anew (R142). -/
def State.ctrCapture (s : State) (c : Nat) : State :=
  let x := s.ctr c
  let z (t : TimePoint) : List Word := if x.count = 0 then [0, 0] else [t.sec, w32 t.ns]
  let ws := [s.rd (Reg.chCtrCount c), w32 x.count] ++ z x.first ++ z x.last
  let s := (upFrom 0 6).foldl (fun s i => s.wr (Reg.chCtrCap c i) ((ws.drop i).headD 0)) s
  let s := s.setCtr c fun y => { y with count := 0 }
  let s := s.raise (0x80 + c) 9
  if s.flag (Reg.chCtrCfg c) 5 then s.rxPacket (rxFifo c) (wordsBytes ws) 0 else s

/-- A qualified edge of L0, with its stamp, counted as CTR_CFG says (R141). -/
def State.ctrEdge (s : State) (c : Nat) (rise : Bool) (t : TimePoint) : State :=
  let cfg := s.rd (Reg.chCtrCfg c)
  let l1 := (s.line (4 * c + 1)).level
  let mode := bits cfg 2 2
  if !bit cfg (if rise then 0 else 1) || (decide (mode = 2) && !l1) then s
  else
    let n := s.rd (Reg.chCtrCount c)
    let s := s.wr (Reg.chCtrCount c) (if mode = 1 ∧ l1 then n - 1 else n + 1)
    s.setCtr c fun y => { y with count := (y.count + 1) % 2 ^ 32, first := if y.count = 0 then t else y.first, last := t }

/-- CAP_PERIOD in ns: a divisor of 1,000 ms; other values act as 1,000 (R142). -/
def capPeriodNs (p : Nat) : Nat := (if p ∣ 1000 then p else 1000) * 1000000

/-- The latest multiple of CAP_PERIOD at or before the counter. -/
def State.capMultiple (s : State) (c : Nat) : TimePoint :=
  let p := capPeriodNs (s.fld (Reg.chCtrCfg c) 16 16)
  ⟨s.now.sec, s.now.ns / p * p⟩

/-- PERIODIC_CAPTURE (R142): the counter has reached or passed a multiple of CAP_PERIOD in its last advance, of at most 41 ns,
and that multiple is later than the last one captured, and not one that a forced step has passed over. DEDUCED: log entry 44. -/
def execPeriodicCapture (c : Fin 64) (s : State) : Host.Outcome State Fault Refusal :=
  .next (
    let m := s.capMultiple c
    let later : Bool := match (s.ctr c).multiple with
      | some l => decide (0 < timeDiff m l)
      | none => true
    if s.runs c 1 ∧ s.fld (Reg.chCtrCfg c) 16 16 ≠ 0 ∧ timeDiff s.now m ≤ 41 ∧ later ∧ (s.ctr c).skipped ≠ some m then
      (s.setCtr c fun y => { y with multiple := some m }).ctrCapture c
    else s)

/-- A forced step by d ns: forward, it skips the multiples it passes, of which only the latest can lie in the last advance; backward, none
(R142). -/
def State.capSkip (s : State) (d : Int) (c : Nat) : State :=
  if s.runs c 1 ∧ s.fld (Reg.chCtrCfg c) 16 16 ≠ 0 then
    let m := s.capMultiple c
    s.setCtr c fun y => { y with skipped := if 0 < d ∧ timeDiff s.now m < d then some m else none }
  else s

/-! ### Edges (R77–R90, R134–R136, R186) -/

/-- An edge delivered: the qualified level, the stamp, the operand, windows, and the counter function (R83, R91, R94, R136,
R141, R142, R186). -/
def State.deliverEdge (s : State) (k : Nat) (rise : Bool) (time : TimePoint) (unc : Nat) (q : BitVec 4) : State :=
  let s := s.setLine k { s.line k with level := rise }
  let s := if bit (s.lcfg k) (if rise then 16 else 17) then s.stampEdge k rise time unc q else s
  let s := s.operandChanged k time
  let s := s.winLineEdge k rise time
  let s := s.winSubject k rise time unc q
  if s.runs (k / 4) 1 then
    if k % 4 = 0 then s.ctrEdge (k / 4) rise time
    else if k % 4 = 2 ∧ rise ∧ s.flag (Reg.chCtrCfg (k / 4)) 4 then s.ctrCapture (k / 4)
    else s
  else s

/-- CHATTER_BLOCK at the beginning or the end of a block (R136, R154). -/
def State.chatterPost (s : State) (k : Nat) (blocked : Bool) : State :=
  let c := s.line k
  let t := (c.last.map fun x => x.1).getD ⟨0, 0⟩
  (s.raise (0x80 + k / 4) 7).post 0x28 .ch (k / 4) (b2n blocked) (w32 k) (w32 c.bucket) t.sec (w32 t.ns)

/-- A line check's failure for line k (R134). DEDUCED: log entry 42. -/
def State.lineFail (s : State) (k check : Nat) (value counter : Nat) : State :=
  (s.qualFail (0x80 + k / 4) check k (w32 value) counter).raise (0x80 + k / 4) 8

/-- The edge-rate check on an edge that has been added to the bucket (R134–R136). -/
def State.rateCheck (s : State) (k : Nat) : State :=
  let c := s.line k
  let cfg := s.rd (Reg.chLqCfg (k / 4) (k % 4))
  let limit := bits cfg 24 8
  if limit = 0 ∨ c.bucket ≤ limit then s
  else if c.blocked then s.bump (Reg.chCntEdgeRate (k / 4))
  else if bit cfg 3 then
    ((s.bump (Reg.chCntEdgeRate (k / 4))).setLine k { c with blocked := true }).chatterPost k true
  else (s.setLine k { c with rateFail := true }).lineFail k 0x0103 c.bucket (Reg.chCntEdgeRate (k / 4))

/-- The width and idle checks on a qualified edge stamped `time`, where `old` is the time of the edge before it (R134). -/
def State.widthChecks (s : State) (k : Nat) (old : Option TimePoint) (time : TimePoint) : State :=
  let page := 0x80 + k / 4
  let held := match old with
    | some t => (timeDiff time t).toNat
    | none => 0
  let min := 40 * bits (s.rd (Reg.chLqWidth (k / 4) (k % 4))) 0 16
  let s := if old.isSome ∧ held < min then
      (s.setLine k { s.line k with minFail := true }).lineFail k 0x0101 held (Reg.chCntMinWidth (k / 4))
    else (s.setLine k { s.line k with minFail := false }).qualClear page 0x0101 k (w32 held)
  let s := (s.setLine k { s.line k with maxFail := false }).qualClear page 0x0102 k (w32 (held / 1000000))
  (s.setLine k { s.line k with idleFail := false }).qualClear page 0x0104 k
    (w32 (s.fld (Reg.chLqIdle (k / 4) (k % 4)) 0 16))

/-- LEAK in µs; 0 acts as 1 (R135). -/
def State.leakUs (s : State) (k : Nat) : Nat :=
  let n := bits (s.rd (Reg.chLqCfg (k / 4) (k % 4))) 8 16
  if n = 0 then 1 else n

/-- A qualified edge in its line cell: the level, its stamp, and the bucket, whose first edge starts the drain ticks (R77, R135). -/
def State.cellEdge (s : State) (k : Nat) (rise : Bool) (time : TimePoint) (unc : Nat) (q : BitVec 4) : State :=
  let c := s.line k
  s.setLine k { c with
    qual := rise, last := some (time, unc, q), edgeAt := s.tclks, bucket := capAt 1023 (c.bucket + 1),
    leakAt := if c.bucket = 0 then s.tclks + usTclks (s.leakUs k) else c.leakAt }

/-- The wake of line k's tile by a qualified edge, with WAKE = 1 (R127). -/
def State.lineWake (s : State) (k : Nat) : State := if bit (s.lcfg k) 18 then s.tileWake (k / 32) else s

/-- A qualified edge of line k with its stamp, uncertainty and quality code: the bucket, the four checks, the tile's wake, and
its delivery unless the line is blocked. -/
def State.liveEdge (s : State) (k : Nat) (rise : Bool) (time : TimePoint) (unc : Nat) (q : BitVec 4) : State :=
  let old := (s.line k).last.map fun x => x.1
  let s := ((((s.cellEdge k rise time unc q).rateCheck k).widthChecks k old time)).lineWake k
  if (s.line k).blocked then s else s.deliverEdge k rise time unc q

/-- A qualified edge while the hub die is down: its line's cell keeps its stamp, level and bucket, and nothing of the hub die takes part
(R87, R541). DEDUCED: log entry 43. -/
def State.asleepEdge (s : State) (k : Nat) (rise : Bool) (time : TimePoint) (unc : Nat) (q : BitVec 4) : State :=
  let s := s.cellEdge k rise time unc q
  if (s.line k).blocked then s
  else
    let s := s.setLine k { s.line k with level := rise }
    if bit (s.lcfg k) (if rise then 16 else 17) then s.stampEdge k rise time unc q else s

/-- A qualified edge, delivered or kept in its cell. -/
def State.qualifyEdge (s : State) (k : Nat) (rise : Bool) (time : TimePoint) (unc : Nat) (q : BitVec 4) : State :=
  if s.hubUp then s.liveEdge k rise time unc q else s.asleepEdge k rise time unc q

/-- U + 4 ns, saturating at 255 (R85). -/
def State.stampUnc (s : State) : Nat := capAt 255 (s.uncNs + 4)

/-- The moment at which a transition in the filter is qualified, in ns of the count of TCLK edges: F after it, or 10 ns with F = 0
(R78, R79). -/
def FiltSt.endNs (f : FiltSt) : Nat := f.atNs + if f.filterNs = 0 then 10 else f.filterNs

/-- The TDC is stopped and the counter not on TCLK: in DORMANT, and while XT32 keeps the time (R59, R87). -/
def State.tdcStopped (s : State) : Bool := decide (s.power = .dormant) || s.onXt32

/-- The transition in line k's filter is qualified. With the TDC stopped it waits in its cell for the next XT32 edge, which gives its
stamp (R87). DEDUCED: log entry 41. -/
def State.filterEnds (s : State) (k : Nat) (f : FiltSt) : State :=
  let s := s.setLine k { s.line k with filt := none }
  if s.tdcStopped then s.setLine k { s.line k with dormant := some f.level }
  else s.qualifyEdge k f.level f.time f.unc f.quality

/-- A raw transition of line k from its level, `ns` ns into the count of TCLK edges. -/
def State.rawChange (s : State) (k ns : Nat) : State :=
  let c := s.line k
  (s.setLine k { c with raw := !c.raw, rawWas := if c.rawNs + 4 ≤ ns then c.raw else c.rawWas, rawNs := ns }).readbackTrack k

/-- A glitch of line k in tile t (R82). -/
def State.glitch (s : State) (k t : Nat) (f : FiltSt) : State :=
  let s := s.setLine k { s.line k with filt := none }
  if s.hubUp then (s.qualFail (0x40 + t) 0x0001 k (w32 f.filterNs) (Reg.tileCntGlitch t)).raise (0x40 + t) 3 else s

/-- The length of line k's filter in ns (R78); in DORMANT it counts XT32 periods, at least one (R503). -/
def State.filterLen (s : State) (k : Nat) : Nat :=
  let f := 40 * bits (s.lcfg k) 0 16
  if s.power = .dormant then 30518 * (if f = 0 then 1 else (f + 30517) / 30518) else f

/-- A transition enters the filter, d ns before the TCLK edge whose count stands, with its stamp's values and the length F then in force
(R77, R80). -/
def State.filterStart (s : State) (k d : Nat) : State :=
  let c := s.line k
  s.setLine k { c with
    filt := some ⟨c.raw, 40 * s.tclks - d, timeAdd s.now (-(d : Int)), s.stampUnc, s.time.quality, s.filterLen k⟩ }

/-- LINE_TRANSITION (R77, R79, R80, R82): a raw transition d ns before the TCLK edge whose count stands. Outside the filter it
starts it; within it, it is a return: both are discarded as one glitch. A filter that had ended by then has qualified its
transition. While the bank check is failed nothing is qualified and no glitch is counted (R125).
DESIGN CHOICE: log entry 1. -/
def execLineTransition (k : Fin 256) (d : Fin 40) (s : State) : Host.Outcome State Fault Refusal :=
  .next (
    let t := (k : Nat) / 32
    let ns := 40 * s.tclks - d
    let u := s.rawChange k ns
    if (s.tile t).bankFail then u.setLine k { u.line k with filt := none }
    else match (s.line k).filt with
      | some f => if f.endNs ≤ ns then (u.filterEnds k f).filterStart k d else u.glitch k t f
      | none => u.filterStart k d)

/-- EDGE_QUALIFIED (R77): the filter expires with the line at its new level. DESIGN CHOICE: log entry 1.
DEDUCED: log entry 41. -/
def execEdgeQualified (k : Fin 256) (s : State) : Host.Outcome State Fault Refusal :=
  .next (match (s.line k).filt with
    | some f => if f.endNs ≤ 40 * (s.tclks + 1) then s.filterEnds k f else s
    | none => s)

/-- An edge that waits for its stamp receives the count that stands: uncertainty 255, quality code 0xF (R87). -/
def State.dormantStamp (s : State) (k : Nat) : State :=
  match (s.line k).dormant with
  | some b => (s.setLine k { s.line k with dormant := none }).asleepEdge k b s.now 255 0xF#4
  | none => s

/-- Every edge that waits for its stamp receives it. -/
def State.dormantStamps (s : State) : State := (upFrom 0 256).foldl (fun s k => s.dormantStamp k) s

/-- MAX_WIDTH_EXPIRY (R134): the line has been at ACTIVE_LEVEL for longer than MAX_WIDTH. -/
def execMaxWidthExpiry (k : Fin 256) (s : State) : Host.Outcome State Fault Refusal :=
  .next (
    let c := s.line k
    let ch := (k : Nat) / 4
    let m := bits (s.rd (Reg.chLqWidth ch (k % 4))) 16 16
    if m ≠ 0 ∧ c.qual = bit (s.rd (Reg.chLqCfg ch (k % 4))) 2 ∧ !c.maxFail ∧ !(s.tile (k / 32)).bankFail
        ∧ s.passed c.edgeAt (msTclks m) ∧ s.hubUp then
      (s.setLine k { c with maxFail := true }).lineFail k 0x0102 m (Reg.chCntMaxWidth ch)
    else s)

/-- IDLE_EXPIRY (R134): no qualified edge for IDLE ms. -/
def execIdleExpiry (k : Fin 256) (s : State) : Host.Outcome State Fault Refusal :=
  .next (
    let c := s.line k
    let ch := (k : Nat) / 4
    let m := s.fld (Reg.chLqIdle ch (k % 4)) 0 16
    if m ≠ 0 ∧ !c.idleFail ∧ !(s.tile (k / 32)).bankFail ∧ s.passed c.edgeAt (msTclks m) ∧ s.hubUp then
      (s.setLine k { c with idleFail := true }).lineFail k 0x0104 m (Reg.chCntIdle ch)
    else s)

/-- The edge delivered at the end of a block where the level differs from the held one, with the stamp of the line's last qualified
transition; none while the bank check is failed (R125, R136). -/
def State.blockEdge (s : State) (k : Nat) : State :=
  let c := s.line k
  if c.qual = c.level ∨ (s.tile (k / 32)).bankFail then s
  else match c.last with
    | some (t, u, q) => (s.lineWake k).deliverEdge k c.qual t u q
    | none => s

/-- The bucket of line k has drained to 0: its edge-rate failure clears and a block ends (R134, R136). -/
def State.bucketEmpty (s : State) (k : Nat) : State :=
  let was := (s.line k).blocked
  let s := s.setLine k { s.line k with rateFail := false, blocked := false }
  if !s.hubUp then s.setLine k { s.line k with level := (s.line k).qual }
  else
    let s := s.qualClear (0x80 + k / 4) 0x0103 k 0
    if was then (s.blockEdge k).chatterPost k false else s

/-- LEAK_TICK (R135, R136): the bucket drains by 1. The next tick follows after LEAK as it now stands. -/
def execLeakTick (k : Fin 256) (s : State) : Host.Outcome State Fault Refusal :=
  .next (
    let c := s.line k
    if c.bucket = 0 ∨ s.tclks < c.leakAt then s
    else
      let s := s.setLine k { c with bucket := c.bucket - 1, leakAt := c.leakAt + usTclks (s.leakUs k) }
      if c.bucket = 1 then s.bucketEmpty k else s)

/-! ### The bank check (R124, R125) -/

/-- A bank's level seen: the time inside or outside its window begins anew where it crosses it. -/
def State.bankSee (s : State) (t : Nat) (v : BankLevel) : State :=
  s.setTile t fun y =>
    { y with bank := v, bankAt := if (y.bank = .inside) = (v = .inside) then y.bankAt else s.tclks }

/-- VDDIO_WINDOW_CHANGE (R125): VDDIOt is seen inside, below or above its window; with VSEL = 3 it counts as inside. -/
def execVddioWindowChange (t : Fin 8) (v : BankLevel) (s : State) : Host.Outcome State Fault Refusal :=
  .next (s.bankSee t (if s.fld (Reg.tileBankCfg t) 0 2 = 3 then .inside else v))

/-- Whether a tile's bank check stands failed, as far as the hub die will know once it runs again. DEDUCED: log entry 43. -/
def State.bankStands (s : State) (t : Nat) (b : Bool) : State :=
  let c := s.check (0x40 + t) 0x0002
  s.setCheck (0x40 + t) 0x0002
    { c with standing := if b then setAdd c.standing t else setDel c.standing t, counter := Reg.tileCntBank t }

/-- BANK_CHECK_FAIL (R125): outside for 10 µs without a break. Transitions in a filter are not qualified. -/
def execBankCheckFail (t : Fin 8) (s : State) : Host.Outcome State Fault Refusal :=
  .next (
    let x := s.tile t
    if x.bank = .inside ∨ x.bankFail ∨ !s.passed x.bankAt (usTclks 10) then s
    else
      let s := s.setTile t fun y => { y with bankFail := true }
      let s := (upFrom (32 * t) 32).foldl (fun s k => s.setLine k { s.line k with filt := none }) s
      if s.hubUp then
        ((s.raise (0x40 + t) 1).qualFail (0x40 + t) 0x0002 t (if x.bank = .high then 1 else 0) (Reg.tileCntBank t)).leaseFault 3
      else s.bankStands t true)

/-- A line when its bank's check clears: its timers are measured afresh, and where its level differs from the one held it delivers an
edge, stamped with the TCLK edge at which the check clears, or waits for its stamp while the TDC is stopped (R87, R125). -/
def State.bankEdge (s : State) (k : Nat) : State :=
  let s := s.setLine k { s.line k with edgeAt := s.tclks }
  let c := s.line k
  if c.raw = (if c.blocked then c.qual else c.level) then (if c.blocked then s else s.setLine k { c with qual := c.raw })
  else if s.tdcStopped then s.setLine k { c with dormant := some c.raw }
  else s.qualifyEdge k c.raw s.now s.stampUnc s.time.quality

/-- BANK_CHECK_CLEAR (R125): inside for 1 ms. -/
def execBankCheckClear (t : Fin 8) (s : State) : Host.Outcome State Fault Refusal :=
  .next (
    let x := s.tile t
    if x.bank ≠ .inside ∨ !x.bankFail ∨ !s.passed x.bankAt (msTclks 1) then s
    else
      let s := s.setTile t fun y => { y with bankFail := false }
      let s := if s.hubUp then (s.raise (0x40 + t) 2).qualClear (0x40 + t) 0x0002 t 0 else s.bankStands t false
      (upFrom (32 * t) 32).foldl (fun s k => s.bankEdge k) s)

/-- BANK_CFG_WRITE (R125): VSEL applies from the write; 3 makes VDDIOt count as inside. -/
def State.bankCfgWrite (s : State) (t : Nat) (v : Word) : State :=
  let s := s.wr (Reg.tileBankCfg t) (v &&& 3#32)
  if bits v 0 2 = 3 then s.bankSee t .inside else s

end Sys2Proof.Machine
end

