-- ==== Sys2Proof/Machine/Reset.lean ====
section
/-! DEFINITION. Resets of the node: the hub-die reset and what survives it, the power-on reset, and the records of the RST page
(R501, R502, R504). -/

namespace Sys2Proof.Machine

/-- Whether a register lies in the always-on domain or on the power-path die and so survives a hub-die reset (R501): the SEQ and ADC
pages, the indirect maps of RST, CLK, PWR and BOOT, LCFG, the CH pages' line-cell registers, BANK_CFG, CNT_TCLK and the straps. -/
def keptKey (k : Nat) : Bool :=
  if k < 0x10000000000 then
    let page := k / 0x1000
    decide (page = 4) || decide (page = 5) || decide (k = Reg.clkCntTclk) || decide (k = Reg.ringStrap)
      || (decide (0x40 ≤ page) && decide (page < 0x48) && decide (k % 0x1000 = 0x050))
  else
    let page := (k - 0x10000000000) / 0x1000000
    let a := (k - 0x10000000000) % 0x1000000
    decide (page = 1) || decide (page = 2) || decide (page = 3) || decide (page = 8)
      || (decide (0x40 ≤ page) && decide (page < 0x48) && decide (a < 0x80))
      || (decide (0x80 ≤ page) && decide (page < 0xC0))

/-- A check that stands failed through a reset, not reported again (R501). -/
def standCheck (t : Tab CheckSt) (page check item counter : Nat) : Tab CheckSt :=
  let c := Tab.get CheckSt.init t (checkKey page check)
  Tab.set CheckSt.init t (checkKey page check) { c with standing := setAdd c.standing item, counter }

/-- The failed checks of line k. -/
def State.standLine (s : State) (t : Tab CheckSt) (k : Nat) : Tab CheckSt :=
  let c := s.line k
  let p := 0x80 + k / 4
  let t := if c.minFail then standCheck t p 0x0101 k (Reg.chCntMinWidth (k / 4)) else t
  let t := if c.maxFail then standCheck t p 0x0102 k (Reg.chCntMaxWidth (k / 4)) else t
  let t := if c.rateFail then standCheck t p 0x0103 k (Reg.chCntEdgeRate (k / 4)) else t
  if c.idleFail then standCheck t p 0x0104 k (Reg.chCntIdle (k / 4)) else t

/-- The counter of a reference clock's check (R496). -/
def clkCounter (n : Nat) : Nat :=
  if n = 1 then Reg.clkCntTclk else if n = 2 then Reg.clkCntXt32 else if n = 3 then Reg.clkCntRefclkSd else Reg.clkCntPcieRefclk

/-- The checks that stand failed after a hub-die reset: of line cells, banks, clocks and the power-path die. -/
def State.standingChecks (s : State) : Tab CheckSt :=
  let kept (e : Nat × CheckSt) : Bool := decide (3 ≤ e.1 / 0x10000) && decide (e.1 / 0x10000 ≤ 5)
  let t := s.checks.filter kept
  let t := (upFrom 0 8).foldl
    (fun t i => if (s.tile i).bankFail then standCheck t (0x40 + i) 0x0002 i (Reg.tileCntBank i) else t) t
  let t := (upFrom 0 256).foldl s.standLine t
  let t := s.clk.unlocked.foldl (fun t p => standCheck t 0x02 0x0C05 p Reg.clkCntPll) t
  s.clk.failed.foldl (fun t n => standCheck t 0x02 (0x0C00 + n) 0xFFFF (clkCounter n)) t

/-- Every line in its safe state, its pulse overlays ended and the base levels kept (R502). -/
def State.safeAll (s : State) : State :=
  (upFrom 0 256).foldl (fun s k =>
    let s := s.safeEnter k
    s.setLine k { s.line k with pulse := none, cmdPulse := none }) s

/-- What a tile keeps (R86, R125, R501): its sequence count and its bank check; through a DORMANT_WAKE also the loss of stamps
(R87). -/
def keptTile (wake : Bool) (x : TileSt) : TileSt :=
  { TileSt.init with
    bank := x.bank, bankAt := x.bankAt, bankFail := x.bankFail, seq := x.seq, loss := if wake then x.loss else none }

/-- The hub die reset (R501, R502): every line in its safe state, OWN_OUT low, and everything at its reset value but the always-on
domain, the power-path die, the flash and OTP. Stamps wait in the line cells (R541). -/
def State.hubClear (s : State) (wake : Bool) : State :=
  let s := s.safeAll
  let p := State.powerOn s.tclks
  let keptReg (e : Nat × Word) : Bool := keptKey e.1
  let tiles := (upFrom 0 8).foldl (fun t i => Tab.set TileSt.init t i (keptTile wake (s.tile i))) []
  { p with
    pending := s.pending, regs := s.regs.filter keptReg, checks := s.standingChecks,
    time := { s.time with refusedHeld := false }, lines := s.lines, tiles, stampOrder := s.stampOrder,
    lease := { LeaseSt.init with peerOwn := s.lease.peerOwn, peerAt := s.lease.peerAt },
    host := { HostSt.init with perst := s.host.perst, perstAt := s.host.perstAt }, flash := s.flash, otp := s.otp, pwr := s.pwr, clk := s.clk,
    power := s.power, freeTick := s.freeTick }

/-- The cause of a reset, the fabric time at its assertion and its count, in the always-on map of RST (R504). -/
def State.noteReset (s : State) (cause : Nat) : State :=
  let s := ((s.wr Reg.rstLastCause (w32 cause)).wr Reg.rstLastSec s.now.sec).wr Reg.rstLastNs (w32 s.now.ns)
  if cause = 0 then s else s.bump (Reg.rstCnt cause)

/-- The hub die released from a reset: it runs, and no originated frame leaves for 12 ms (R242). -/
def State.hubRelease (s : State) : State :=
  let now := s.tclks
  { s with power := .active, clk := { s.clk with hold := none }, net := { s.net with quiet := some now } }

/-- A hub-die reset of a cause that has ended with its assertion: the steward's start follows (R501). -/
def State.hubReset (s : State) (cause : Nat) : State :=
  let s := ((s.noteReset cause).hubClear false).hubRelease
  { s with clk := { s.clk with reqErr := false } }

/-- A hub-die reset that is held while its cause lasts. DEDUCED: log entry 72. -/
def State.hubHold (s : State) (cause : Nat) : State :=
  let s := (s.noteReset cause).hubClear (decide (cause = 7))
  { s with power := .held, clk := { s.clk with hold := some cause, reqErr := false } }

end Sys2Proof.Machine
end

