-- ==== Sys2Proof/Machine/Drill.lean ====
section
/-! DEFINITION. The drill's table: loading, arming, lateness, retiring, and the DRL mailbox (R100–R112, R119–R121). Firing is in
DrillFire.lean. -/

namespace Sys2Proof.Machine

def State.drl (s : State) (n : Nat) : DrillEnt := Tab.get DrillEnt.init s.drill n

def State.setDrl (s : State) (n : Nat) (f : DrillEnt → DrillEnt) : State :=
  { s with drill := Tab.set DrillEnt.init s.drill n (f (s.drl n)) }

/-- ACTION of an entry (R100). -/
def DrillEnt.code (e : DrillEnt) : Nat := bits e.action 0 4

/-- PERIOD in ns (R100, R111). -/
def DrillEnt.periodNs (e : DrillEnt) : Nat := e.period.toNat * (if bit e.action 5 then 1000 else 1)

/-- PERIOD and COUNT as R111 asks. -/
def DrillEnt.periodOk (e : DrillEnt) : Bool :=
  if e.count = 1 then decide (e.period = 0)
  else if bit e.action 5 then decide (1 ≤ e.period.toNat) else decide (1000 ≤ e.period.toNat)

/-- The count is exhausted (R105, R111). -/
def DrillEnt.exhausted (e : DrillEnt) : Bool := decide (e.count ≠ 0) && decide (e.count.toNat ≤ e.consumed)

/-- Word 4 of the drill's events (R123). -/
def State.drlWord (s : State) (n : Nat) : Word := w32 (at_ 16 n + (s.drl n).code)

/-- DRILL_LATE (R121, R123), detected at `w`, of the first target `t`. DEDUCED: log entry 45. -/
def State.drillLate (s : State) (n flags missed : Nat) (w t : TimePoint) : State :=
  (s.raise 0x12 0).postAt 0x20 .drl 0 flags w s.qualSum (s.drlWord n) (w32 (capAt 0xFFFFFFFF missed)) t.sec (w32 t.ns)

/-- DRILL_DONE (R123): its time is `w`, the repetition's target `t`. -/
def State.drillDone (s : State) (n flags : Nat) (w t : TimePoint) : State :=
  (s.raise 0x12 1).postAt 0x21 .drl 0 flags w s.qualSum (s.drlWord n) (w32 (s.drl n).fired) t.sec (w32 t.ns)

/-- `m` repetitions consumed: the next target moves on, and an exhausted entry becomes DONE (R105, R111, R112). -/
def State.drillConsume (s : State) (n m : Nat) : State :=
  s.setDrl n fun e =>
    let e := { e with consumed := e.consumed + m, target := timeAdd e.target (m * e.periodNs), prepared := false }
    if e.exhausted then { e with st := .done } else e

/-- How many of an entry's repetitions have targets before `now` (R119, R120). -/
def DrillEnt.missed (e : DrillEnt) (now : TimePoint) : Nat :=
  let d := (timeDiff now e.target).toNat
  let m := if d = 0 then 0 else if e.periodNs = 0 then 1 else (d + e.periodNs - 1) / e.periodNs
  if e.count = 0 then m else capAt (e.count.toNat - e.consumed) m

/-- The judgement of an ARMED entry against the counter, at arming or after a forced step (R119–R121): missed repetitions
follow the LATE policy with one DRILL_LATE; under RUN the earliest fires in the first cycle the launcher reaches. The DRILL_DONE of an
entry exhausted without firing names the last missed target, and the time of the judgement. DESIGN CHOICE: log entry 82. -/
def State.drillJudge (s : State) (n : Nat) (now : TimePoint) (step : Bool) : State :=
  let e := s.drl n
  let m := e.missed now
  let s :=
    if m = 0 then s
    else
      let run := bit e.action 4
      let s := s.drillLate n (b2n run + at_ 2 (b2n step)) m now e.target
      let s := (s.bumpBy Reg.drlCntLateSkip (m - b2n run)).drillConsume n m
      let s := if run then s.setDrl n fun x => { x with run := some e.target } else s
      let x := s.drl n
      if !run && x.exhausted && bit x.action 7 then
        s.drillDone n 1 now (timeAdd e.target (((m - 1) * e.periodNs : Nat) : Int))
      else s
  s.setDrl n fun x => { x with short := decide (timeDiff x.target now < 1000) }

/-- An entry armed at the moment `now`: its first target fixed, its loaded count restored, and its lateness judged (R106, R107,
R119). A late run that has yet to fire stays. -/
def State.drillArm (s : State) (n : Nat) (now : TimePoint) : State :=
  (s.setDrl n fun e => { e with
    st := .armed, consumed := 0, fired := 0, prepared := false,
    target := if bit e.action 6 then timeAdd now ((e.sec.toNat : Int) * 1000000000 + e.ns.toNat) else ⟨e.sec, e.ns.toNat⟩ }
  ).drillJudge n now false

/-- A refused action or arm (R106, R111, R118). -/
def State.drillRefused (s : State) : State := (s.bump Reg.drlCntRefused).raise 0x12 2

/-- The reflex action "arm a drill entry" (R106, R111). -/
def State.drillReflexArm (s : State) (n : Nat) (now : TimePoint) : State :=
  let e := s.drl n
  if e.st = .armed then s
  else if (e.st = .loaded ∨ e.st = .done) ∧ e.periodOk then s.drillArm n now
  else s.drillRefused

/-- A disarmed entry: its launches are cancelled; an entry that is not ARMED stays as it is (R108). -/
def State.drillDisarm (s : State) (n : Nat) : State :=
  s.setDrl n fun e => if e.st = .armed then { e with st := .done, prepared := false, run := none, short := false } else e

/-- The check of every ARMED entry after a forced step or initial set, before any launch (R120): prepared launches are
released, and missed repetitions follow the LATE policy. -/
def State.drillStepCheck (s : State) : State :=
  s.drill.foldl (fun s x =>
    if x.2.st = .armed then (s.setDrl x.1 fun e => { e with prepared := false }).drillJudge x.1 s.now true else s) s

/-- An uncorrectable error in an entry: disarmed, reads as EMPTY, reported, and one of the node's own faults (R109, R351). -/
def State.drillEcc (s : State) (n : Nat) (ecc : ReadEcc) : State :=
  if eccUsable ecc then s.memEcc 0x12 0 ecc
  else { s with drill := Tab.drop s.drill n }.memEcc 0x12 0 ecc

/-! ### The DRL mailbox (R110) -/

/-- A command on entry ARG; ARG above 4,095 is RANGE. -/
def State.drlCommand (s : State) (arg : BitVec 16) (f : Nat → State → MbxAns × State) : State :=
  s.mbxCommand 0x12 fun s => if 4095 < arg.toNat then (.err 2, s) else f arg.toNat s

/-- A command that reads entry ARG: ERROR ECC where SECDED finds an uncorrectable error (R109, R110). -/
def State.drlReading (s : State) (arg : BitVec 16) (ecc : ReadEcc) (f : Nat → State → MbxAns × State) : State :=
  s.drlCommand arg fun n s =>
    let s := s.drillEcc n ecc
    if eccUsable ecc then f n s else (.err 4, s)

/-- An EMPTY entry with both loads becomes LOADED (R105). -/
def DrillEnt.settle (e : DrillEnt) : DrillEnt :=
  if e.st = .empty ∧ e.hasTime ∧ e.hasAction then { e with st := .loaded } else e

/-- DRL LOAD_TIME (R110). -/
def execDrlLoadTime (arg : BitVec 16) (s : State) : Host.Outcome State Fault Refusal :=
  .next (s.drlCommand arg fun n s =>
    let ns := bits (s.mbxD 0x12 1) 0 30
    if (s.drl n).st = .armed then (.err 1, s)
    else if 1000000000 ≤ ns then (.err 2, s)
    else (.done, s.setDrl n fun e => DrillEnt.settle { e with
      sec := s.mbxD 0x12 0, ns := w32 ns, period := s.mbxD 0x12 2, count := s.mbxD 0x12 3, hasTime := true }))

/-- An action word and parameters outside the ranges of R101. -/
def actionBad (a p1 p2 : Word) : Bool :=
  let c := bits a 0 4
  decide (c = 0) || decide (9 < c) || (decide (c = 3) && decide (p1.toNat < 8))
    || (decide (c = 4) && decide (p1 = 0) && decide (p2 = 0))

/-- DRL LOAD_ACTION (R101, R110). -/
def execDrlLoadAction (arg : BitVec 16) (s : State) : Host.Outcome State Fault Refusal :=
  .next (s.drlCommand arg fun n s =>
    let a := s.mbxD 0x12 0 &&& 0x03FFFFFF#32
    if (s.drl n).st = .armed then (.err 1, s)
    else if actionBad a (s.mbxD 0x12 1) (s.mbxD 0x12 2) then (.err 2, s)
    else (.done, s.setDrl n fun e => DrillEnt.settle { e with
      action := a, p1 := s.mbxD 0x12 1, p2 := s.mbxD 0x12 2, p3 := s.mbxD 0x12 3, hasAction := true }))

/-- DRL ARM (R106, R110, R119) at the TCLK edge that follows: the first target, and whether it is late or on short notice. -/
def execDrlArm (arg : BitVec 16) (ecc : ReadEcc) (s : State) : Host.Outcome State Fault Refusal :=
  .next (s.drlReading arg ecc fun n s =>
    let e := s.drl n
    if ¬(e.st = .loaded ∨ e.st = .done) then (.err 3, s)
    else if !e.periodOk then (.err 2, s)
    else
      let now := s.nextEdge
      let t : TimePoint := if bit e.action 6 then timeAdd now ((e.sec.toNat : Int) * 1000000000 + e.ns.toNat)
        else ⟨e.sec, e.ns.toNat⟩
      let late := decide (timeDiff t now < 0)
      let s' := s.drillArm n now
      (.ok (some t.sec) (some (w32 t.ns))
        (some (w32 (b2n late + at_ 1 (b2n (decide ((s'.drl n).st = .armed) && (s'.drl n).short))))) none, s'))

/-- DRL DISARM (R108). DEDUCED: log entry 45. -/
def execDrlDisarm (arg : BitVec 16) (s : State) : Host.Outcome State Fault Refusal :=
  .next (s.drlCommand arg fun n s => (.done, s.drillDisarm n))

/-- DRL READ_TIME (R110). -/
def execDrlReadTime (arg : BitVec 16) (ecc : ReadEcc) (s : State) : Host.Outcome State Fault Refusal :=
  .next (s.drlReading arg ecc fun n s =>
    let e := s.drl n
    (.ok (some e.sec) (some e.ns) (some e.period) (some e.count), s))

/-- DRL READ_ACTION (R110). -/
def execDrlReadAction (arg : BitVec 16) (ecc : ReadEcc) (s : State) : Host.Outcome State Fault Refusal :=
  .next (s.drlReading arg ecc fun n s =>
    let e := s.drl n
    (.ok (some e.action) (some e.p1) (some e.p2) (some e.p3), s))

/-- DRL READ_STATE (R110): the next target, the repetitions remaining, and the state. An entry never armed gives the target 0:0 and its
COUNT as loaded, without end where none is loaded. DESIGN CHOICE: log entry 81. -/
def execDrlReadState (arg : BitVec 16) (ecc : ReadEcc) (s : State) : Host.Outcome State Fault Refusal :=
  .next (s.drlReading arg ecc fun n s =>
    let e := s.drl n
    (.ok (some e.target.sec) (some (w32 e.target.ns))
      (some (if e.count = 0 then 0xFFFFFFFF#32 else w32 (e.count.toNat - e.consumed))) (some (w32 e.st.code)), s))

/-- DRL CLEAR (R105). -/
def execDrlClear (arg : BitVec 16) (s : State) : Host.Outcome State Fault Refusal :=
  .next (s.drlCommand arg fun n s =>
    if (s.drl n).st = .armed then (.err 1, s) else (.done, { s with drill := Tab.drop s.drill n }))

/-- The image word of the DRL indirect map (R104). -/
def State.drlImage (s : State) (a : Nat) : Word :=
  let e := s.drl (a / 32)
  if a / 32 < 4096 then
    match a / 4 % 8 with
    | 0 => e.sec
    | 1 => w32 (at_ 30 e.st.code + e.ns.toNat)
    | 2 => e.period
    | 3 => e.count
    | 4 => e.action
    | 5 => e.p1
    | 6 => e.p2
    | _ => e.p3
  else 0

/-- SOFT_RESET of the DRL page (R31, R109): every ARMED entry becomes DONE, the contents kept, and no late run is left. -/
def State.drlSoftReset (s : State) : State :=
  s.drill.foldl (fun s x => (s.drillDisarm x.1).setDrl x.1 fun e => { e with run := none }) { s with launches := [] }

/-- DRILL_PREPARE (R113): 1 µs before the target, the launch is prepared and the tiles it needs are woken. An entry that
cannot be read is disarmed (R109). -/
def execDrillPrepare (n : Fin 4096) (ecc : ReadEcc) (s : State) : Host.Outcome State Fault Refusal :=
  .next (
    let e := s.drl n
    if (e.st = .armed ∧ !e.prepared ∧ timeDiff e.target s.now ≤ 1000) ∨ e.run.isSome then
      let s := s.drillEcc n ecc
      if eccUsable ecc then
        (upFrom 0 8).foldl (fun s t => if e.actsOn t then s.tileWake t else s)
          (s.setDrl n fun x => { x with prepared := true })
      else s
    else s)

/-! ### The order of launches (R114, R116, R117) -/

/-- The 2 ns cycle, counted from the TCLK edge whose count stands, in which an action of target `t` takes effect: the tile-clock edge
nearest it, or the first switch-clock cycle at or after it (R101). DEDUCED: log entry 45. -/
def fireCycle (t now : TimePoint) : Int := (timeDiff t now + 1).fdiv 2

/-- 256 launches with targets of the last 1 µs have gone before one of target t (R116). -/
def State.crowded (s : State) (t : TimePoint) : Bool :=
  decide (256 ≤ (s.launches.filter fun x => decide (0 ≤ timeDiff t x) && decide (timeDiff t x < 1000)).length)

/-- The tile of a line action has its clock running; other actions need none (R114). -/
def State.drillReady (s : State) (e : DrillEnt) : Bool :=
  decide (3 < e.code) || decide ((s.tile (bits e.action 8 8 / 32)).clk = .running)

/-- Entry e launches on time in a cycle from the present TCLK edge up to cycle c, and has yet to. -/
def State.launchFirst (s : State) (e : DrillEnt) (c : Int) : Bool :=
  decide (e.st = .armed) && !e.short && s.drillReady e && !s.crowded e.target
    && decide (0 ≤ timeDiff e.target s.now) && decide (fireCycle e.target s.now ≤ c)

/-- A launch of entry n in cycle c comes before no launch of an earlier cycle, nor of its own cycle by a lower entry (R117). -/
def State.launchTurn (s : State) (n : Nat) (c : Int) : Bool :=
  !s.drill.any fun x => decide (x.1 ≠ n) && s.launchFirst x.2 (if x.1 < n then c else c - 1)

/-- A drill action on one of some lines has yet to apply, in cycle c or before it (R117). -/
def State.drillBefore (s : State) (lines : List Nat) (c : Int) : Bool :=
  s.drill.any fun x => decide (x.2.code ≤ 3) && decide (bits x.2.action 8 8 ∈ lines) && s.launchFirst x.2 c

end Sys2Proof.Machine
end

