-- ==== Sys2Proof/Machine/Frames.lean ====
section
/-! DEFINITION. Frames and the switch: the native frame and its header (R230–R236), links' UP state, the shared buffer, its
admission, push-out and spilling (R280–R300), mirror sessions (R294, R295), and originating frames (R237, R241, R242). -/

namespace Sys2Proof.Machine

/-! ### Bytes of a frame -/

/-- `n` bytes from position `i` replaced by `v`, most significant first. -/
def bePut (b : List Byte) (i n v : Nat) : List Byte := b.take i ++ beBytes n v ++ b.drop (i + n)

/-- A byte brought into a CRC-16 with polynomial 0x1021, most significant bit first. -/
def crc16Byte (crc : Nat) (b : Byte) : Nat :=
  (upFrom 0 8).foldl (fun c _ => if c.testBit 15 then (2 * c % 65536) ^^^ 0x1021 else 2 * c % 65536)
    (crc ^^^ (b.toNat * 256))

/-- The CRC-16 of R233: initial value 0xFFFF, no reflection, no final XOR. -/
def crc16 (b : List Byte) : Nat := b.foldl crc16Byte 0xFFFF

/-! ### The native frame (R230–R232) -/

def etherType (b : List Byte) : Nat := beAt b 12 2

/-- N: the length with the FCS. -/
def frameLen (b : List Byte) : Nat := b.length + 4

def hdrVersion (b : List Byte) : Nat := byteAt b 14 / 16
def hdrClass (b : List Byte) : Nat := byteAt b 14 / 2 % 8
def hdrExpress (b : List Byte) : Bool := (byteAt b 14).testBit 0
def hdrType (b : List Byte) : Nat := byteAt b 15
def hdrSource (b : List Byte) : Nat := beAt b 16 2
def hdrDest (b : List Byte) : Nat := beAt b 18 2
def hdrGroup (b : List Byte) : Bool := (byteAt b 20).testBit 7
def hdrPath (b : List Byte) : Bool := (byteAt b 20).testBit 6
def hdrCoupled (b : List Byte) : Bool := (byteAt b 20).testBit 5
def hdrHop (b : List Byte) : Nat := byteAt b 21
def hdrSeq (b : List Byte) : Nat := beAt b 22 2
def hdrLen (b : List Byte) : Nat := beAt b 24 2

/-- The header check is right (R233). -/
def hdrCheckOk (b : List Byte) : Bool := decide (crc16 ((b.drop 14).take 14) = beAt b 28 2)

/-- The payload: L bytes from byte 30 (R230). -/
def payload (b : List Byte) : List Byte := (b.drop 30).take (hdrLen b)

/-- A native frame (R230–R233), padded to 60 bytes before the FCS. -/
def nativeFrame (cls type src dst : Nat) (group path coupled : Bool) (seq : Nat) (body : List Byte) : List Byte :=
  let h := beBytes 1 (16 + 2 * cls + b2n (6 ≤ cls)) ++ beBytes 1 type ++ beBytes 2 src ++ beBytes 2 dst
    ++ beBytes 1 (at_ 7 (b2n group) + at_ 6 (b2n path) + at_ 5 (b2n coupled)) ++ beBytes 1 255 ++ beBytes 2 seq
    ++ beBytes 2 body.length ++ beBytes 2 0
  let f := beBytes 6 0x03AF1A000000 ++ beBytes 4 0x02AF1A00 ++ beBytes 2 src ++ beBytes 2 0x88B5 ++ h
    ++ beBytes 2 (crc16 h) ++ body
  f ++ List.replicate (60 - f.length) 0

/-! ### PTP messages in frames (R65) -/

/-- Where a frame's PTP message begins: behind the Afyfa header, behind EtherType 0x88F7, or behind an HSR tag (R65).
PRESUMED: log entry 26. -/
def ptpAt (b : List Byte) : Nat := if etherType b = 0x88F7 then 14 else if etherType b = 0x892F then 20 else 30

/-- The PTP message of a frame. PRESUMED: log entry 26. -/
def ptpBytes (b : List Byte) : List Byte := if ptpAt b = 30 then payload b else b.drop (ptpAt b)

def ptpType (m : List Byte) : Nat := byteAt m 0 % 16
def ptpSource (m : List Byte) : Nat := beAt m 20 8
def ptpSeq (m : List Byte) : Nat := beAt m 30 2
def ptpTwoStep (m : List Byte) : Bool := (byteAt m 6).testBit 1

/-- correctionField, signed, in 2^−16 ns. -/
def ptpCorrection (m : List Byte) : Int := (BitVec.ofNat 64 (beAt m 8 8)).toInt

/-- A time as a PTP timestamp. -/
def ptpTime (t : TimePoint) (secHi : Nat) : List Byte := beBytes 2 secHi ++ beBytes 4 t.sec.toNat ++ beBytes 4 t.ns

/-- A frame carries a PTP message: type 0x06, or EtherType 0x88F7, tagged or not. -/
def carriesPtp (native : Bool) (b : List Byte) : Bool :=
  if native then decide (hdrType b = 6) else decide (etherType b = 0x88F7) || (decide (etherType b = 0x892F) && decide (beAt b 18 2 = 0x88F7))

/-- `add`, in 2^−16 ns, added to the correctionField of a frame's PTP message. -/
def addCorrection (b : List Byte) (add : Int) : List Byte :=
  bePut b (ptpAt b + 8) 8 (((beAt b (ptpAt b + 8) 8 : Nat) + add) % (2 ^ 64 : Int)).toNat

/-- A frame's header with a new check. -/
def recheck (b : List Byte) : List Byte := bePut b 28 2 (crc16 ((b.drop 14).take 14))

/-- A frame as forwarded: the hop count less 1 and a new check (R233, R238). -/
def forwarded (b : List Byte) : List Byte := recheck (bePut b 21 1 (hdrHop b - 1))

/-- A frame as turned into the other ring (R270): COUPLED, PATH of its port, hop count 255, a new check. -/
def turned (b : List Byte) (path : Bool) : List Byte :=
  recheck (bePut (bePut b 20 1 (at_ 7 (b2n (hdrGroup b)) + at_ 6 (b2n path) + 32)) 21 1 255)

/-- The cells of a frame of N bytes (R280). -/
def cellsOf (n : Nat) : Nat := (n + 16 + 255) / 256

/-! ### Modes and ports -/

/-- RING_MODE and PRP_EN as they act (R273): combinations not listed act as native without PRP. -/
def State.ringMode (s : State) : Nat :=
  let m := s.fld Reg.ringCfg 0 2
  if (m = 1 ∨ m = 2) ∧ !s.flag Reg.ringCfg 9 then m else 0

def State.prpOn (s : State) : Bool := s.flag Reg.ringCfg 9 && decide (s.fld Reg.ringCfg 0 2 % 3 = 0)

/-- COUPLER_EN; it acts as 0 with PRP_EN = 1 and in HSR (R267, R273). -/
def State.coupler (s : State) : Bool := s.flag Reg.ringCfg 8 && !s.prpOn && decide (s.ringMode = 0)

/-- Whether port n carries native frames: FP0 and FP1 in native mode, FP2 and FP3 unless they are PRP or unused (R273). -/
def State.nativePort (s : State) (n : Nat) : Bool :=
  decide (s.ringMode = 0) && (decide (n < 2) || !s.prpOn)

def State.link (s : State) (n : Nat) : LinkSt := Tab.get LinkSt.init s.net.links n

/-- Port n's link is UP (R227); SP4–SP7 are always there. -/
def State.portUp (s : State) (n : Nat) : Bool := decide (4 ≤ n) || decide ((s.link n).st = 4)

def State.setNet (s : State) (f : NetSt → NetSt) : State := { s with net := f s.net }

/-- A port at 1 Gbit/s: MODE 2 of a fabric port (R223, R277). -/
def State.slowPort (s : State) (n : Nat) : Bool := decide (n < 4) && decide (s.fld (Reg.fpCfg n) 0 2 = 2)

/-- The end of the start-of-frame delimiter of a frame of `n` bytes whose last byte came at `t`: 0.8 ns a byte, 8 ns in MODE 2 (R66).
DEDUCED: log entry 51. -/
def State.sfdRx (s : State) (port n : Nat) (t : TimePoint) : TimePoint :=
  timeAdd t (-(if s.slowPort port then 8 * n else 4 * n / 5 : Nat))

/-- The end of the start-of-frame delimiter of a frame whose transmission starts at `t`: 8 bytes later (R66). -/
def State.sfdTx (s : State) (port : Nat) (t : TimePoint) : TimePoint := timeAdd t (if s.slowPort port then 64 else 6)

/-! ### Queues and cells (R280–R283) -/

def State.queue (s : State) (port cls : Nat) : List QFrame := Tab.get [] s.net.queues (8 * port + cls)

def State.setQueue (s : State) (port cls : Nat) (q : List QFrame) : State :=
  s.setNet fun n => { n with queues := Tab.set [] n.queues (8 * port + cls) q }

def State.sendingAt (s : State) (port : Nat) : Sending := Tab.get Sending.init s.net.sending port

def State.setSending (s : State) (port : Nat) (x : Sending) : State :=
  s.setNet fun n => { n with sending := Tab.set Sending.init n.sending port x }

/-- A frame's cells on chip (R284, R297). -/
def QFrame.chipCells (f : QFrame) : Nat := if f.place = .chip ∨ f.place = .marked then f.cells else 0

/-- A frame's cells in the overflow store. -/
def QFrame.storeCells (f : QFrame) : Nat := if f.place = .stored then f.cells else 0

def sumCells (g : QFrame → Nat) (q : List QFrame) : Nat := q.foldl (fun a f => a + g f) 0

def optCells (f : Option QFrame) : Nat := (f.map QFrame.chipCells).getD 0

/-- The cells of a native frame with a payload of L bytes (R230, R280). -/
def bodyCells (l : Nat) : Nat := cellsOf (if l < 30 then 64 else 34 + l)

/-- The cells of transaction frames held by the order table (R312). -/
def State.heldCells (s : State) : Nat :=
  s.xbr.orders.foldl (fun a e => match e.2 with
    | some o => o.held.foldl (fun a h => match h.frame with
        | some r => a + bodyCells r.body.length
        | none => a) a
    | none => a) 0

/-- The cells of posted frames that wait at SP5 behind one another (R317); those of this node itself came in no frame (R307). -/
def State.postCells (s : State) : Nat :=
  s.xbr.posts.foldl (fun a p => if p.source = s.nodeId then a else a + bodyCells p.body.length) 0

/-- FREE: the free on-chip cells (R284). -/
def State.freeCells (s : State) : Nat :=
  32768 - s.net.queues.foldl (fun a e => a + sumCells QFrame.chipCells e.2) 0
    - s.net.sending.foldl (fun a e => a + optCells e.2.normal + optCells e.2.express) 0 - s.heldCells - s.postCells

/-- OCCn: the on-chip cells queued for a port (R284), those of the posted frames that wait at SP5 included (R317). -/
def State.occ (s : State) (port : Nat) : Nat :=
  s.net.queues.foldl (fun a e => if e.1 / 8 = port then a + sumCells QFrame.chipCells e.2 else a)
    (if port = 5 then s.postCells else 0)

/-- STORE_USED: the cells in the overflow store. -/
def State.storeUsed (s : State) : Nat := s.net.queues.foldl (fun a e => a + sumCells QFrame.storeCells e.2) 0

/-- SHAREn as it acts. -/
def State.share (s : State) (port : Nat) : Nat := capAt 32768 (s.fld (Reg.bufShare port) 0 16)

/-- The fitted DDR4 in MiB, 0 until READY (R301). -/
def State.ddrMiB (s : State) : Nat :=
  if s.flag (Reg.status 0x0B) 0 then
    match s.fld Reg.ddrCfg 0 3 with
    | 1 => 512
    | 2 => 1024
    | 3 => 2048
    | 4 => 4096
    | _ => 0
  else 0

/-- The overflow store's region fits the fitted DDR4 (R296). DEDUCED: log entry 53. -/
def State.storeFits (s : State) : Bool :=
  decide (s.fld Reg.bufStoreBase 0 12 + s.fld Reg.bufStoreSize 0 13 ≤ s.ddrMiB)

/-- The overflow store's cells: 0 where it is disabled or does not fit (R296); no frame spills in FALLOW (R500). -/
def State.storeCapacity (s : State) : Nat :=
  if s.power ≠ .fallow ∧ s.storeFits then s.fld Reg.bufStoreSize 0 13 * 4096 else 0

/-! ### Spilling (R297) -/

/-- A queue that holds a frame in the store or awaiting migration (R297). -/
def sticky (q : List QFrame) : Bool := q.any fun f => decide (f.place = .marked ∨ f.place = .stored)

/-- Spilling starts where FREE is below SPILL_MARK with the store enabled, and ends at SPILL_MARK + SPILL_HYST. -/
def State.spillCheck (s : State) : State :=
  let mark := s.fld Reg.bufSpill 16 16
  if !s.net.spilling then
    (if s.freeCells < mark ∧ 0 < s.storeCapacity then
      let s := s.setNet fun n => { n with spilling := true, spillSince := s.tclks, spillMoved := 0 }
      (s.raise 0x21 1).post 0x49 .buf 0 0 (w32 s.freeCells) (w32 s.storeUsed) 0 0
     else s)
  else if mark + s.fld Reg.bufSpill 0 16 ≤ s.freeCells then
    let s := s.setNet fun n => { n with spilling := false }
    (s.raise 0x21 2).post 0x4A .buf 0 0 (w32 (s.msSince s.net.spillSince)) (w32 s.net.spillMoved) (w32 s.storeUsed) 0
  else s

/-! ### Admission and push-out (R284–R288) -/

/-- PUSHOUT posted for what a port has gathered, at the time of the first of it (R43, R288, R302). -/
def State.pushPost (s : State) (port : Nat) : State :=
  let p := Tab.get PushSt.init s.net.push port
  let s := s.setNet fun n => { n with push := Tab.set PushSt.init n.push port { p with last := some s.tclks, evicted := 0, dropped := 0 } }
  (s.raise 0x21 0).postAt 0x48 .buf 0 0 p.time p.quality (w32 (at_ 16 p.lastOut + at_ 8 p.lastIn + port)) (w32 p.evicted)
    (w32 p.dropped) (w32 (s.occ port))

/-- Push-outs and drops at a port noted; PUSHOUT posted at once, or gathered for its spacing (R288). -/
def State.notePush (s : State) (port evicted dropped lastOut lastIn : Nat) : State :=
  if evicted + dropped = 0 then s
  else
    let p := Tab.get PushSt.init s.net.push port
    let p := if p.evicted + p.dropped = 0 then { p with time := s.now, quality := s.qualSum } else p
    let p := { p with evicted := p.evicted + evicted, dropped := p.dropped + dropped, lastOut, lastIn }
    let s := s.setNet fun n => { n with push := Tab.set PushSt.init n.push port p }
    if s.spaced p.last then s else s.pushPost port

/-- One more than the highest class that a frame of class `c` may push out; 0 for none (R285). -/
def pushLimit (c : Nat) : Nat :=
  match c with
  | 0 => 0
  | 1 => 1
  | 2 => 2
  | 3 => 3
  | 4 => 4
  | 5 => 3
  | _ => 6

/-- Eligible for push-out by place (R285); a frame in transmission has left its queue. -/
def QFrame.eligible (f : QFrame) : Bool := decide (f.place = .chip)

/-- The cells of the eligible frames of the classes below `lim` at a port. -/
def State.eligibleCells (s : State) (port lim : Nat) : Nat :=
  (upFrom 0 lim).foldl (fun a c => a + sumCells (fun f => if f.eligible then f.cells else 0) (s.queue port c)) 0

/-- The list without its last eligible frame. -/
def dropNewest (q : List QFrame) : List QFrame :=
  let r := q.reverse
  (r.takeWhile (fun f => !f.eligible) ++ (r.dropWhile (fun f => !f.eligible)).drop 1).reverse

/-- The newest eligible frame of the lowest class below `lim` that has one evicted: the class and the state after (R285). -/
def State.evictOne (s : State) (port lim : Nat) : Option (Nat × State) :=
  ((upFrom 0 lim).find? fun c => (s.queue port c).any QFrame.eligible).map fun c =>
    (c, (s.setQueue port c (dropNewest (s.queue port c))).bump (Reg.bufCntPushed (c % 8)))

/-- Frames evicted at a port, at most `fuel`, while `more` holds; the number and the class of the last (R285). -/
def State.evictWhile (s : State) (port lim : Nat) (more : State → Bool) : Nat → Nat × Nat × State
  | 0 => (0, 0, s)
  | fuel + 1 =>
    if more s then
      match s.evictOne port lim with
      | none => (0, 0, s)
      | some (c, s') =>
        let (n, last, t) := s'.evictWhile port lim more fuel
        (n + 1, if n = 0 then c else last, t)
    else (0, 0, s)

/-- An upper bound on the frames a port can evict. -/
def State.queuedFrames (s : State) (port : Nat) : Nat :=
  (upFrom 0 8).foldl (fun a c => a + (s.queue port c).length) 0

/-- Push-out for the port's share (R285): the state, and whether the frame may come in. A class 6 or 7 frame may come in above
the share. -/
def State.pushForShare (s : State) (port cls k : Nat) : Bool × State :=
  let tooFull := fun (t : State) => decide (t.share port < t.occ port + k)
  if !tooFull s then (true, s)
  else if s.occ port + k ≤ s.share port + s.eligibleCells port (pushLimit cls) then
    let (n, last, s) := s.evictWhile port (pushLimit cls) tooFull (s.queuedFrames port)
    (true, s.notePush port n 0 last cls)
  else (decide (6 ≤ cls), s)

/-- Push-out of classes 0–5 for free cells (R286): the frame's own port first, then the others in ascending number; nothing is evicted
where all eligible frames together would not suffice (R285). DEDUCED: log entry 53. -/
def State.pushForCells (s : State) (port cls k : Nat) : State :=
  if s.freeCells + (upFrom 0 8).foldl (fun a p => a + s.eligibleCells p 6) 0 < k then s
  else
    (port :: (upFrom 0 8).filter (· ≠ port)).foldl (fun s p =>
      let (n, last, s) := s.evictWhile p 6 (fun t => decide (t.freeCells < k)) (s.queuedFrames p)
      s.notePush p n 0 last cls) s

/-- The floor of a class (R284). -/
def State.floorOf (s : State) (cls : Nat) : Nat :=
  if cls ≤ 4 then s.fld Reg.bufFloors 16 16 else if cls = 5 then s.fld Reg.bufFloors 0 16 else 0

/-- A frame or copy dropped at admission, counted by its class (R284–R286, R288). -/
def State.dropFrame (s : State) (port cls counter : Nat) : State := (s.bump counter).notePush port 0 1 cls cls

/-- A frame put at the end of its queue; while spilling, or where its queue is sticky, a frame of class 0–4 is marked for
migration (R297). -/
def State.enqueue (s : State) (port : Nat) (f : QFrame) : State :=
  let q := s.queue port f.cls
  let mark := decide (f.cls ≤ 4) && decide (0 < s.storeCapacity) && (s.net.spilling || sticky q)
  (s.setQueue port f.cls (q ++ [{ f with place := if mark then .marked else .chip }])).spillCheck

/-- How an admission ended. -/
inductive Admit where
  | admitted
  | notUp
  | noCell
deriving DecidableEq, Repr

/-- A frame, or a copy of it, admitted to the queue of its egress port and class, or dropped (R229, R284–R286). -/
def State.admitAs (s : State) (port : Nat) (f : QFrame) : Admit × State :=
  let f := { f with cells := cellsOf (frameLen f.bytes) }
  if !s.portUp port then (.notUp, s.bump (Reg.fpCntTxDiscardDown port))
  else if f.cls < 6 ∧ s.freeCells < s.floorOf f.cls + f.cells then
    (.noCell, s.dropFrame port f.cls (Reg.bufCntDropFloor (f.cls % 8)))
  else
    let (room, s) := s.pushForShare port f.cls f.cells
    if !room then (.noCell, s.dropFrame port f.cls (Reg.bufCntDropShare (f.cls % 8)))
    else
      let s := if s.freeCells < f.cells then s.pushForCells port f.cls f.cells else s
      if s.freeCells < f.cells then (.noCell, s.dropFrame port f.cls (Reg.bufCntDropFloor (f.cls % 8)))
      else (.admitted, s.enqueue port f)

/-- A frame taken at an egress port, or dropped (R282–R286). DEDUCED: log entry 53. -/
def State.takeFrame (s : State) (port : Nat) (f : QFrame) : State := (s.admitAs port f).2

/-! ### Ready to originate (R237, R242, R260) -/

/-- A frame ready for a queue. -/
def mkQFrame (bytes : List Byte) (cls ingress : Nat) (native : Bool) : QFrame :=
  { bytes, cls, cells := cellsOf (frameLen bytes), place := .chip, native, mirror := false, ingress, rxTime := none,
    txOf := none, stomp := false }

/-- The side of a ring on which a frame to `dst` is originated: 2 for the far ring of a coupler, 0 for the home ring. A
unicast frame goes to the far ring where its destination's ring is the far ring or is set in the far route map.
DEDUCED: log entry 17. -/
def State.originSide (s : State) (group : Bool) (dst : Nat) : Nat :=
  let r := dst / 256
  if s.coupler ∧ !group ∧ s.ring.far.active
      ∧ (r = s.ring.far.id.toNat / 256 ∨ s.flag (Reg.ringFarRoute (r / 32)) (r % 32)) then 2 else 0

/-- The node ID in use on a side (R267). -/
def State.sideId (s : State) (side : Nat) : Nat := if side = 0 then s.nodeId else s.ring.far.id.toNat

/-- Whether a side's ID is active (R259, R260, R267). -/
def State.sideActive (s : State) (side : Nat) : Bool := if side = 0 then s.ring.home.active else s.ring.far.active

/-- The next source sequence of a class, and the counter advanced (R237). -/
def State.takeSeq (s : State) (cls : Nat) : Nat × State :=
  let q := Tab.get 0 s.net.seqs cls
  (q, s.setNet fun n => { n with seqs := Tab.set 0 n.seqs cls ((q + 1) % 65536) })

/-- A frame other than a link-local one may be originated on a side: its ID is active, the 12 ms after a reset have passed, and the rings
are native (R242, R260, R275). -/
def State.mayOriginate (s : State) (side : Nat) : Bool := s.sideActive side && s.net.quiet.isNone && decide (s.ringMode = 0)

/-! ### Mirror sessions (R294, R295) -/

/-- DEST, 5–7 acting as none. -/
def State.mirDest (s : State) (i : Nat) : Nat := s.fld (Reg.swcMirCfg i) 24 3

/-- Whether a session's destination meets R295. -/
def State.mirDestOk (s : State) (i : Nat) : Bool :=
  let d := s.mirDest i
  if s.flag (Reg.swcMirCfg i) 29 then decide (d ≤ 4)
  else decide (d = 4) || (decide (d = 2 ∨ d = 3) && !s.coupler && !s.prpOn)

/-- Whether a field equals the key in every bit set in the mask. -/
def maskedEq (x key mask : Nat) : Bool := decide (x &&& mask = key &&& mask)

/-- Whether session `i` copies a frame at `port`, received (`rx`) or sent (R294). -/
def State.mirMatches (s : State) (i port : Nat) (rx : Bool) (f : QFrame) : Bool :=
  let c := s.rd (Reg.swcMirCfg i)
  bit c 31 && s.mirDestOk i && !f.mirror &&
    (if bit c 30 then
      rx && f.native
        && maskedEq (hdrSource f.bytes) (s.fld (Reg.swcMirKey i) 16 16) (s.fld (Reg.swcMirMask i) 16 16)
        && maskedEq (hdrDest f.bytes) (s.fld (Reg.swcMirKey i) 0 16) (s.fld (Reg.swcMirMask i) 0 16)
        && maskedEq (hdrType f.bytes) (s.fld (Reg.swcMirKeyb i) 8 8) (s.fld (Reg.swcMirMaskb i) 8 8)
        && maskedEq f.cls (s.fld (Reg.swcMirKeyb i) 0 3) (s.fld (Reg.swcMirMaskb i) 0 3)
     else (if rx then bit c 16 else bit c 17) && bit c port)

/-- A session's copy of a frame: raw, or wrapped in a tunnelled Ethernet frame, truncated at 1,518 bytes (R295). A wrapped copy is a frame
the node originates: out of a coupler's SP2 and SP3 under the far ID (R267), and none while the node originates none (R242, R260).
DEDUCED: log entry 51. -/
def State.mirCopy (s : State) (i : Nat) (f : QFrame) : Option PendingCopy × State :=
  let d := s.mirDest i
  let put := fun g : QFrame => some (PendingCopy.mk { g with mirror := true, txOf := f.txOf, stomp := f.stomp } d (some i) s.tclks)
  if s.flag (Reg.swcMirCfg i) 29 then
    let side := if s.coupler ∧ (d = 2 ∨ d = 3) then 2 else 0
    if !s.mayOriginate side ∨ (d < 4 ∧ !s.nativePort d) then (none, s)
    else
      let s := if 1518 < f.bytes.length then s.bump Reg.swcCntMirrorTrunc else s
      let (seq, s) := s.takeSeq 0
      let b := nativeFrame 0 9 (s.sideId side) (s.fld (Reg.swcMirNode i) 0 16) false (d % 2 = 1) false seq (f.bytes.take 1518)
      (put (mkQFrame b 0 f.ingress true), s)
  else (put { f with cls := 0, rxTime := none }, s)

/-- Every session's copy of a frame at a port queued for write time (R294). -/
def State.mirror (s : State) (port : Nat) (rx : Bool) (f : QFrame) : State :=
  (upFrom 0 4).foldl (fun s i =>
    if s.mirMatches i port rx f then
      let (c, s) := s.mirCopy i f
      s.setNet fun n => { n with copies := n.copies ++ c.toList }
    else s) s

/-- A mirror copy dropped (R295): reason 0 no write time, 1 no cell, 2 destination not UP. -/
def State.mirrorDrop (s : State) (i reason : Nat) : State :=
  ((s.bump Reg.swcCntMirrorDrop).raise 0x20 0).gather (0x20000 + i)
    { Gather.init with ty := 0x4C, page := 0x20, w4 := w32 (at_ 8 i + reason), countWord := 5, cntWord := 6,
                       cntKey := Reg.swcCntMirrorDrop }

/-! ### Frames originated (R237, R241, R242, R260) -/

/-- A frame received by the switch at SP4–SP7, as the mirror sessions see it (R294); RING's own frames enter in the port. -/
def State.mirrorIn (s : State) (type ingress : Nat) (f : QFrame) : State := if type = 7 then s else s.mirror ingress true f

/-- A frame originated on one side, dual-sent out of both its ports (R237), its payload by port of launch. -/
def State.originateTwo (s : State) (side cls type dst : Nat) (group : Bool) (body : Nat → List Byte) (ingress : Nat) : State :=
  if !s.mayOriginate side then s
  else
    let (seq, s) := s.takeSeq cls
    let src := s.sideId side
    let f := fun path : Bool =>
      { mkQFrame (nativeFrame cls type src dst group path false seq (body (side + b2n path))) cls ingress true with
        rxTime := if type = 6 then some s.now else none }
    ((s.mirrorIn type ingress (f false)).takeFrame side (f false)).takeFrame (side + 1) (f true)

/-- A frame originated on one side, both copies with one payload. -/
def State.originateOn (s : State) (side cls type dst : Nat) (group : Bool) (body : List Byte) (ingress : Nat) : State :=
  s.originateTwo side cls type dst group (fun _ => body) ingress

/-- A frame originated (R237). DEDUCED: log entry 17. -/
def State.originate (s : State) (cls type dst : Nat) (group : Bool) (body : List Byte) (ingress : Nat) : State :=
  s.originateOn (s.originSide group dst) cls type dst group body ingress

/-- A link-local frame sent out of one port: sequence 0, no number consumed (R241). Without an active ID only NEIGHBOUR frames are
originated (R260). -/
def State.sendLinkLocal (s : State) (port type : Nat) (body : List Byte) : State :=
  let side := if port < 2 then 0 else 2
  if !s.sideActive side ∧ type ≠ 7 then s
  else
    let src := if s.sideActive side then s.sideId side else 0
    let f := { mkQFrame (nativeFrame 6 type src 0xFFFE true (port % 2 = 1) false 0 body) 6 5 true with
      rxTime := if type = 6 then some s.now else none }
    (s.mirrorIn type 5 f).takeFrame port f

/-! ### Local delivery (R278, R279) -/

/-- The Ethernet frame of a tunnelled frame (R236): its payload of 60–1,518 bytes, or 1,522 with a VLAN tag, and a fresh FCS; none where
it has another length. DEDUCED: log entry 18. -/
def tunnelled (b : List Byte) : Option (List Byte) :=
  let p := payload b
  if 60 ≤ p.length ∧ p.length ≤ (if etherType p = 0x8100 then 1522 else 1518) then
    some (p ++ wordBytes (w32 (crc32 p)))
  else none

/-- A frame given to the host (SP4) or the CPU (SP5). -/
def State.giveEther (s : State) (port : Nat) (d : Delivered) : State :=
  s.setNet fun n => if port = 4 then { n with toHost := n.toHost ++ [d] } else { n with toCpu := n.toCpu ++ [d] }

/-- A frame handed to the block that its type names (R278); one without the Afyfa header goes to the host or the CPU, and so does a
mirror copy, unchanged (R295). -/
def State.handOver (s : State) (port : Nat) (f : QFrame) : State :=
  let d : Delivered := ⟨f.ingress, f.bytes, f.rxTime.getD s.now⟩
  if !f.native ∨ f.mirror then s.giveEther port d
  else if 7 < hdrType f.bytes then
    match tunnelled f.bytes with
    | some p => s.giveEther port { d with bytes := p }
    | none => s
  else s.setNet fun n => match hdrType f.bytes with
      | 1 => { n with toSig := n.toSig ++ [d] }
      | 2 => { n with toXbr := n.toXbr ++ [d] }
      | 3 => { n with toXbr := n.toXbr ++ [d] }
      | 4 => { n with toXbr := n.toXbr ++ [d] }
      | 5 => { n with toEvq := n.toEvq ++ [d] }
      | 6 => { n with toTime := n.toTime ++ [d] }
      | _ => { n with toRing := n.toRing ++ [d] }

/-- The switch port to which a frame is delivered (R278). -/
def State.deliverPort (s : State) (f : QFrame) : Nat :=
  if !f.native then (if s.flag Reg.swcCfg 0 then 5 else 4)
  else if hdrType f.bytes = 1 then 7
  else if hdrType f.bytes = 9 then (if s.flag Reg.swcCfg 0 then 5 else 4)
  else 5

end Sys2Proof.Machine
end

