-- ==== Sys2Proof/Machine/Signals.lean ====
section
/-! DEFINITION. Fabric signals: publish slots, change and heartbeat frames, subscription entries, DYING, and the SIG mailbox
(R206–R222). -/

namespace Sys2Proof.Machine

/-! ### Types, values and quality (R207, R208) -/

/-- Bits of a value of a type. -/
def sigBits (ty : Nat) : Nat := if ty = 0 then 1 else if ty = 1 then 2 else if ty = 2 then 32 else 64

/-- The class of a type's change frames. -/
def sigClass (ty : Nat) : Nat := if ty < 2 then 7 else 5

/-- The length of a type's record. -/
def sigRecLen (ty : Nat) : Nat := if ty = 3 then 20 else 16

/-- A signal record (R211). -/
structure SigRec where
  ty : Nat
  slot : Nat
  quality : Nat
  hb : Nat
  time : TimePoint
  timeQual : Nat
  value : Nat
deriving DecidableEq, Repr

/-- A record's bytes (R211); STALE is 0 on the wire (R208). -/
def SigRec.bytes (r : SigRec) : List Byte :=
  beBytes 1 (at_ 6 r.ty + r.slot / 256) ++ beBytes 1 (r.slot % 256) ++ beBytes 1 (r.quality &&& 0x1D) ++ beBytes 1 (at_ 4 r.hb)
    ++ beBytes 4 r.time.sec.toNat ++ beBytes 4 (at_ 30 r.timeQual + r.time.ns)
    ++ beBytes (if r.ty = 3 then 8 else 4) (r.value % 2 ^ sigBits r.ty)

/-- The record at the head of some bytes. -/
def sigRecAt (b : List Byte) : SigRec :=
  let ty := byteAt b 0 / 64
  ⟨ty, byteAt b 0 % 16 * 256 + byteAt b 1, byteAt b 2 &&& 0x1D, byteAt b 3 / 16, ⟨BitVec.ofNat 32 (beAt b 4 4), beAt b 8 4 % 2 ^ 30⟩,
    beAt b 8 4 / 2 ^ 30, beAt b 12 (if ty = 3 then 8 else 4) % 2 ^ sigBits ty⟩

/-- `n` records from some bytes, or none where they overrun (R219). -/
def sigRecs : Nat → List Byte → Option (List SigRec)
  | 0, _ => some []
  | n + 1, b =>
    if b = [] ∨ b.length < sigRecLen (byteAt b 0 / 64) then none
    else (sigRecs n (b.drop (sigRecLen (byteAt b 0 / 64)))).map fun rs => sigRecAt b :: rs

/-- The records of a frame of class `cls`, or none where it fails check 0x0301 (R219). -/
def sigFrame (cls : Nat) (p : List Byte) : Option (List SigRec) :=
  let n := byteAt p 0
  if p.length < 2 ∨ n = 0 ∨ 32 < n then none
  else match sigRecs n (p.drop 2) with
    | none => none
    | some rs =>
      if (byteAt p 1).testBit 7 then (if cls = 5 then some rs else none)
      else if n = 1 ∧ rs.all fun r => decide (sigClass r.ty = cls) then some rs
      else none

/-! ### Subscriptions (R214–R218) -/

def State.sub (s : State) (n : Nat) : SubEnt := Tab.get SubEnt.init s.subs n

def State.setSub (s : State) (n : Nat) (f : SubEnt → SubEnt) : State :=
  { s with subs := Tab.set SubEnt.init s.subs n (f (s.sub n)) }

def SubEnt.en (e : SubEnt) : Bool := bit e.word 2
def SubEnt.ty (e : SubEnt) : Nat := bits e.word 0 2
def SubEnt.op (e : SubEnt) : Nat := bits e.word 8 9

/-- An entry for some node's slot 4,095 (R217). -/
def SubEnt.isDying (e : SubEnt) : Bool := decide (e.id % 4096 = 4095)

/-- The operands an enabled entry drives (R215). -/
def SubEnt.ops (e : SubEnt) : List Nat :=
  if !e.en || decide (e.op = 0x1FF) then [] else if e.ty = 1 then [e.op, e.op + 1] else [e.op]

/-- What the entry shows: its value, or in the fail state what FAIL_MODE selects (R215). A 32-bit or 64-bit entry shows bit 0 of its value.
DESIGN CHOICE: log entry 85. -/
def SubEnt.shows (e : SubEnt) : Nat :=
  let m := if e.ty = 1 then 3 else 1
  if e.quality.testBit 0 && !e.quality.testBit 1 && (!e.quality.testBit 3 || bit e.word 3) then e.value % (m + 1)
  else if bits e.word 6 2 = 0 then e.shown else if bits e.word 6 2 = 2 then m else 0

/-- A signal operand set, changing at source time t (R186, R187). -/
def State.setSigOp (s : State) (o : Nat) (b : Bool) (t : TimePoint) : State :=
  if setHas s.sigOps o = b then s
  else ({ s with sigOps := if b then setAdd s.sigOps o else setDel s.sigOps o }).operandChanged (256 + o) t

/-- The entry's operand bits brought to what it shows (R215). -/
def State.subDrive (s : State) (n : Nat) (t : TimePoint) : State :=
  let e := s.sub n
  let v := e.shows
  let s := s.setSub n fun x => { x with shown := v }
  match e.ops with
  | [o] => s.setSigOp o (v.testBit 0) t
  | [o, p] => (s.setSigOp o (v.testBit 0) t).setSigOp p (v.testBit 1) t
  | _ => s

/-- The enabled entry for a signal ID. -/
def State.subFor (s : State) (id : Nat) : Option Nat :=
  (s.subs.find? fun e => e.2.en && decide (e.2.id = id)).map fun e => e.1

/-- An entry becomes STALE (R216). -/
def State.subStale (s : State) (n : Nat) : State :=
  ((s.setSub n fun e => { e with quality := e.quality ||| 2 }).bump Reg.sigCntStale).subDrive n s.now

/-- A record applied to entry n (R214–R216, R218, R545). -/
def State.subApply (s : State) (n : Nat) (r : SigRec) : State :=
  let e := s.sub n
  let changed := decide (r.value ≠ e.value) || decide (r.quality ≠ e.quality)
  let s := if changed && !e.dirty && bit e.word 4 then s.raise 0x15 3 else s
  let s := s.setSub n fun x => { x with
    value := r.value, quality := r.quality, time := r.time, timeQual := r.timeQual, reached := true,
    count := if changed then capAt 65535 (x.count + 1) else x.count, dirty := x.dirty || changed }
  let s := s.bump Reg.sigCntApplied
  let s := if e.quality.testBit 1 && bit e.word 5 then
      (s.raise 0x15 1).post 0x3A .sig 0 0 (w32 n) (w32 e.id) r.time.sec (w32 r.time.ns)
    else s
  (s.subDrive n r.time).winSignal n e.value r.value r.time

/-- A DYING record of a node: every other entry that names it becomes STALE, and one DYING_RECEIVED is posted (R217). -/
def State.dyingRecord (s : State) (node : Nat) (r : SigRec) : State :=
  let mine := s.subs.filter fun e => e.2.en && decide (e.2.id / 4096 = node)
  let hit := mine.filter fun e => !e.2.isDying && !e.2.quality.testBit 1
  let s := hit.foldl (fun s e => s.subStale e.1) s
  if !mine.isEmpty || s.flag Reg.sigCfg 0 then
    (s.raise 0x15 2).post 0x3B .sig 0 0 (w32 node) (w32 hit.length) r.time.sec (w32 r.time.ns)
  else s

/-- A record of a node handled (R214, R217). DEDUCED: log entry 50. -/
def State.sigRecord (s : State) (node : Nat) (r : SigRec) : State :=
  let s := if r.slot = 4095 ∧ r.value % 2 = 1 then s.dyingRecord node r else s
  match s.subFor (node * 4096 + r.slot) with
  | none => s.bump Reg.sigCntUnsub
  | some n =>
    let e := s.sub n
    if r.ty ≠ e.ty then (s.raise 0x15 4).qualFail 0x15 0x0302 n (w32 e.id) Reg.sigCntType
    else
      let s := s.setSub n fun x => { x with hb := r.hb, receipt := s.now, heardAt := s.tclks }
      if e.reached ∧ !e.isDying ∧ timeDiff r.time e.time < 0 then s.bump Reg.sigCntOld
      else s.subApply n r

/-- SUBSCRIPTION_STALE (R216): 4 × 2^HB ms have passed without a record of entry n's signal. -/
def execSubscriptionStale (n : Fin 8192) (s : State) : Host.Outcome State Fault Refusal :=
  .next (
    let n : Nat := n
    let e := s.sub n
    if e.en ∧ e.hb ≤ 10 ∧ !e.isDying ∧ !e.quality.testBit 1 ∧ s.passed e.heardAt (msTclks (4 * 2 ^ e.hb)) then
      let s := s.subStale n
      if bit e.word 5 then
        (s.raise 0x15 0).post 0x39 .sig 0 0 (w32 n) (w32 e.id) e.receipt.sec (w32 e.receipt.ns)
      else s
    else s)

/-! ### Publishing (R209–R213) -/

/-- A publish slot; slot 4,095 is the DYING signal, a bit sent to the ring group without heartbeat (R209). -/
def PubSlot.dying : PubSlot := { PubSlot.init with loaded := true, word := 0x1F0, dest := 0x1FFFF }

def pubDefault (n : Nat) : PubSlot := if n = 4095 then PubSlot.dying else PubSlot.init

def State.pub (s : State) (n : Nat) : PubSlot := Tab.get (pubDefault n) s.pubs n

def State.setPub (s : State) (n : Nat) (f : PubSlot → PubSlot) : State :=
  { s with pubs := Tab.set (pubDefault n) s.pubs n (f (s.pub n)) }

def PubSlot.en (p : PubSlot) : Bool := bit p.word 8
def PubSlot.ty (p : PubSlot) : Nat := bits p.word 0 2
def PubSlot.hb (p : PubSlot) : Nat := bits p.word 4 4

/-- The slot's record as it stands. -/
def PubSlot.record (p : PubSlot) (n : Nat) : SigRec := ⟨p.ty, n, p.quality, p.hb, p.time, p.timeQual, p.value⟩

/-- Whether a frame to a destination can be originated now (R237, R242, R260). -/
def State.canSend (s : State) (group : Bool) (dst : Nat) : Bool :=
  s.mayOriginate (s.originSide group dst)

/-- A signal frame of slots that share a destination, originated; the node's own subscriptions take its records in the same
cycle (R211, R212). DEDUCED: log entry 50. -/
def State.sigSend (s : State) (cls : Nat) (hb : Bool) (dest : Word) (slots : List Nat) (counter : Nat) : State :=
  let group := bit dest 16
  let dst := bits dest 0 16
  let recs := slots.map fun n => (s.pub n).record n
  if s.canSend group dst then
    let s := slots.foldl (fun s n => s.setPub n fun p => { p with sentAt := s.tclks }) s
    let body := beBytes 1 recs.length ++ beBytes 1 (at_ 7 (b2n hb)) ++ recs.flatMap SigRec.bytes
    let s := (s.originate cls 1 dst group body 7).bump counter
    let me := s.sideId (s.originSide group dst)
    recs.foldl (fun s r => if (s.subFor (me * 4096 + r.slot)).isSome then s.sigRecord me r else s) s
  else s

/-- A slot's change frame (R211). DEDUCED: log entry 23. -/
def State.sigChange (s : State) (n : Nat) : State :=
  let p := s.pub n
  if p.en then s.sigSend (sigClass p.ty) false p.dest [n] Reg.sigCntTxChange else s

/-- The cycle of a slot's writes has ended: one change frame carries the final value, where it or its quality differs from that before
the cycle, or a drill PUBLISH was among the writes; otherwise the slot keeps the source time it had (R210).
DEDUCED: log entry 23. -/
def State.pubClose (s : State) (o : PubOpen) : State :=
  let p := s.pub o.slot
  if o.force ∨ p.value ≠ o.value ∨ p.quality ≠ o.quality then s.sigChange o.slot
  else s.setPub o.slot fun p => { p with time := o.time, timeQual := o.timeQual }

/-- The frames of cycles other than one are built, in the order of the writes (R203, R210). -/
def State.pubFlush (s : State) (keep : Option Nat) : State :=
  let ended := s.pubOpen.filter fun o => decide (some o.cycle ≠ keep)
  if ended.isEmpty then s
  else ended.foldl (fun s o => s.pubClose o) { s with pubOpen := s.pubOpen.filter fun o => decide (some o.cycle = keep) }

/-- A write of slot n in a cycle: value, quality and source time taken (R210). -/
def State.pubWrite (s : State) (n value quality : Nat) (t : TimePoint) (force : Bool) (cycle : Nat) : State :=
  let s := s.pubFlush (some cycle)
  let p := s.pub n
  let pubOpen := if s.pubOpen.any fun o => decide (o.slot = n) then
      s.pubOpen.map fun o => if o.slot = n then { o with force := o.force || force } else o
    else s.pubOpen ++ [⟨n, cycle, p.value, p.quality, p.time, p.timeQual, force⟩]
  let s := { s with pubOpen }
  s.setPub n fun p => { p with value := value % 2 ^ sigBits p.ty, quality, time := t, timeQual := s.qualAt t }

/-- A write of slot n in a cycle of its own. -/
def State.pubAlone (s : State) (n value quality : Nat) (t : TimePoint) (force : Bool) : State :=
  ((s.pubFlush none).pubWrite n value quality t force (20 * s.tclks)).pubFlush none

/-- Quality of a drill or reflex write: VALID, SUBSTITUTED and TEST kept, OLD_TIME from the time state at the source time
(R210). -/
def State.pubQuality (s : State) (n : Nat) (t : TimePoint) : Nat :=
  1 + ((s.pub n).quality &&& 0xC) + at_ 4 (b2n (decide (s.qualAt t ≠ 0)))

/-- A PUBLISH action of the drill or of a rule on slot n; slot 4,095 and unloaded slots take none (R200, R209). -/
def State.pubAction (s : State) (n value : Nat) (t : TimePoint) (force : Bool) (cycle : Nat) : State :=
  if n = 4095 ∨ !(s.pub n).loaded then s else s.pubWrite n value (s.pubQuality n t) t force cycle

/-- The DYING signal published with a value (R209). -/
def State.pubDying (s : State) (v : Nat) : State :=
  s.pubAlone 4095 v (1 + at_ 4 (b2n (decide (s.qualSum ≠ 0)))) s.now true

/-- A slot is due for a heartbeat 2^HB ms after its last sending (R213). -/
def State.pubDue (s : State) (p : PubSlot) : Bool :=
  p.en && decide (p.hb ≤ 10) && decide (25000 * 2 ^ p.hb ≤ s.tclks - p.sentAt)

/-- The due slots that share the destination of the first, up to 32 of them, sent in one frame; repeated until none is left. -/
def State.hbFrames (s : State) : Nat → List Nat → State
  | 0, _ => s
  | _ + 1, [] => s
  | k + 1, n :: rest =>
    let d := (s.pub n).dest
    let same := (n :: rest).filter fun m => decide ((s.pub m).dest = d)
    let others := (n :: rest).filter fun m => decide ((s.pub m).dest ≠ d)
    (s.sigSend 5 true d (same.take 32) Reg.sigCntTxHb).hbFrames k (same.drop 32 ++ others)

/-- HEARTBEAT_SCAN (R213): every 250 µs. DEDUCED: log entry 50. -/
def execHeartbeatScan (s : State) : Host.Outcome State Fault Refusal :=
  .next (
    if s.passed s.hbAt (usTclks 250) then
      let s := { s.pubFlush none with hbAt := s.tclks }
      let due := (s.pubs.filter fun p => s.pubDue p.2).map fun p => p.1
      s.hbFrames due.length due
    else s)

/-- SIGNAL_FRAME_RECEIVE (R214, R219): the oldest signal frame delivered to SP7. -/
def execSignalFrameReceive (s : State) : Host.Outcome State Fault Refusal :=
  .next (
    let s := s.pubFlush none
    match s.net.toSig with
    | [] => s
    | d :: rest =>
      let s := s.setNet fun n => { n with toSig := rest }
      let src := hdrSource d.bytes
      match sigFrame (hdrClass d.bytes) (payload d.bytes) with
      | none => (s.raise 0x15 4).qualFail 0x15 0x0301 src 0 Reg.sigCntBadFrame
      | some rs => rs.foldl (fun s r => s.sigRecord src r) s)

/-! ### The SIG mailbox (R222) -/

/-- A command on slot ARG; ARG above 4,095 is RANGE. -/
def State.pubCommand (s : State) (arg : BitVec 16) (f : Nat → State → MbxAns × State) : State :=
  s.mbxCommand 0x15 fun s => if 4095 < arg.toNat then (.err 2, s) else f arg.toNat s

/-- A command on entry ARG; ARG above 8,191 is RANGE. -/
def State.subCommand (s : State) (arg : BitVec 16) (f : Nat → State → MbxAns × State) : State :=
  s.mbxCommand 0x15 fun s => if 8191 < arg.toNat then (.err 2, s) else f arg.toNat s

/-- LOAD_PUB (R209, R222). The slot begins with value 0 and quality 0. DEDUCED: log entry 23. -/
def execLoadPub (arg : BitVec 16) (s : State) : Host.Outcome State Fault Refusal :=
  .next (s.pubCommand arg fun n s =>
    let w := s.mbxD 0x15 0
    let d := s.mbxD 0x15 1
    let hb := bits w 4 4
    if n = 4095 then (.err 1, s)
    else if bits w 9 23 ≠ 0 ∨ bits w 2 2 ≠ 0 ∨ bits d 17 15 ≠ 0 ∨ (11 ≤ hb ∧ hb ≤ 14) then (.err 2, s)
    else (.done, s.setPub n fun _ => { PubSlot.init with loaded := true, word := w, dest := d, sentAt := s.tclks }))

/-- SET_VALUE (R210, R222). -/
def execSetValue (arg : BitVec 16) (s : State) : Host.Outcome State Fault Refusal :=
  .next (s.pubCommand arg fun n s =>
    let v := (s.mbxD 0x15 0).toNat + (s.mbxD 0x15 1).toNat * 2 ^ 32
    let q := (s.mbxD 0x15 2).toNat
    if n = 4095 then (.err 1, s)
    else if 32 ≤ q then (.err 2, s)
    else if q.testBit 1 ∨ 2 ^ sigBits (s.pub n).ty ≤ v then (.err 5, s)
    else (.done, s.pubAlone n v q s.nextEdge false))

/-- The words of a value with its source time (R222). -/
def valueWords (v : Nat) (t : TimePoint) (tq : Nat) : MbxAns :=
  .ok (some (w32 v)) (some (w32 (v / 2 ^ 32))) (some t.sec) (some (w32 (at_ 30 tq + t.ns)))

/-- READ_PUB (R222). -/
def execReadPub (arg : BitVec 16) (s : State) : Host.Outcome State Fault Refusal :=
  .next (s.pubCommand arg fun n s => (valueWords (s.pub n).value (s.pub n).time (s.pub n).timeQual, s))

/-- READ_PUBCFG (R222). -/
def execReadPubcfg (arg : BitVec 16) (s : State) : Host.Outcome State Fault Refusal :=
  .next (s.pubCommand arg fun n s => (.ok (some (s.pub n).word) (some (s.pub n).dest) none none, s))

/-- An entry's operands return to 0 as it is unloaded (R222). -/
def State.subRelease (s : State) (n : Nat) : State := (s.sub n).ops.foldl (fun s o => s.setSigOp o false s.now) s

/-- The operands that an entry word would drive. -/
def wordOps (w : Word) : List Nat := SubEnt.ops { SubEnt.init with word := w }

/-- Whether an entry word breaks a range of R222. -/
def subBad (d0 w : Word) : Bool :=
  let op := bits w 8 9
  decide (bits d0 28 4 ≠ 0) || decide (bits w 17 15 ≠ 0) || decide (bits w 6 2 = 3)
    || (decide (192 ≤ op) && decide (op ≤ 510)) || (decide (bits w 0 2 = 1) && decide (op = 191))

/-- LOAD_SUB (R214–R217, R222). -/
def execLoadSub (arg : BitVec 16) (s : State) : Host.Outcome State Fault Refusal :=
  .next (s.subCommand arg fun n s =>
    let id := bits (s.mbxD 0x15 0) 0 28
    let w := s.mbxD 0x15 1
    if subBad (s.mbxD 0x15 0) w then (.err 2, s)
    else if bit w 2 ∧ s.subs.any fun e => decide (e.1 ≠ n) && e.2.ops.any fun o => decide (o ∈ wordOps w) then (.err 3, s)
    else if bit w 2 ∧ s.subs.any fun e => decide (e.1 ≠ n) && e.2.en && decide (e.2.id = id) then (.err 4, s)
    else
      let s := s.subRelease n
      let s := s.setSub n fun _ =>
        { SubEnt.init with id, word := w, quality := if id % 4096 = 4095 then 1 else 0 }
      (.done, if bit w 2 then s.subDrive n s.now else s))

/-- READ_SUB (R218). -/
def execReadSub (arg : BitVec 16) (s : State) : Host.Outcome State Fault Refusal :=
  .next (s.subCommand arg fun n s =>
    let e := s.sub n
    let s := s.wr Reg.sigSubMeta (w32 (at_ 16 (e.count - 1) + e.quality))
    (valueWords e.value e.time e.timeQual, s.setSub n fun x => { x with count := 0, dirty := false }))

/-- READ_SUBCFG (R222). -/
def execReadSubcfg (arg : BitVec 16) (s : State) : Host.Outcome State Fault Refusal :=
  .next (s.subCommand arg fun n s => (.ok (some (w32 (s.sub n).id)) (some (s.sub n).word) none none, s))

/-- CLEAR_SUB (R222): the entry is disabled, its operand 0; its signal ID and word but for EN stay. DEDUCED: log entry 50. -/
def execClearSub (arg : BitVec 16) (s : State) : Host.Outcome State Fault Refusal :=
  .next (s.subCommand arg fun n s =>
    (.done, (s.subRelease n).setSub n fun e => { SubEnt.init with id := e.id, word := setBits e.word 2 1 0 }))

/-- The STALE bitmap of the SIG indirect map. -/
def State.staleWord (s : State) (n : Nat) : Word :=
  bitmapWord fun j => (s.sub (32 * n + j)).quality.testBit 1

end Sys2Proof.Machine
end

