-- ==== Sys2Proof/Machine/Power.lean ====
section
/-! DEFINITION. The power path: feeds, seating, the hot-swap stage, the thermal model, faults and retries, the dying gasp, rail
sequencing and the monitor ADC (R467–R491). -/

namespace Sys2Proof.Machine

def State.setPwr (s : State) (f : PwrSt → PwrSt) : State := { s with pwr := f s.pwr }

/-! ### Records of the power-path die (R484, R491) -/

/-- A record of this chapter's events: posted while the hub die runs, kept otherwise. DEDUCED: log entry 71. -/
def State.powPost (s : State) (irq : Option Nat) (ty page flags : Nat) (w4 w5 w6 w7 : Word) : State :=
  s.powRecord ⟨irq, ty, page, flags, s.now, s.qualSum, w4, w5, w6, w7⟩

/-- The records held while the hub die was down, posted in order (R484). DEDUCED: log entry 71. -/
def State.powDrain (s : State) : State :=
  let q := s.pwr.queue
  q.foldl State.powEmit (s.setPwr fun p => { p with queue := [] })

/-- A failed check of PWR or ADC, reported as R22 gives (R490); the interrupt of one that is kept comes with its record.
DEDUCED: log entry 71. -/
def State.powFail (s : State) (page check item : Nat) (value : Word) (counter : Nat) : State :=
  let s := if s.takesRecords then s.raise page (powIrq page) else s
  s.qualFail page check item value counter

/-- 0 acts as 1. -/
def atLeast1 (n : Nat) : Nat := if n = 0 then 1 else n

/-- An interval that has run since a count, where it runs at all. -/
def State.ran (s : State) (since : Option Nat) (n : Nat) : Bool :=
  match since with
  | none => false
  | some t => s.passed t n

/-! ### Limits and temperatures (R468–R475) -/

/-- UV and OV of FEED_WIN in mV; OV above 20 V acts as 20 V. -/
def State.feedUv (s : State) : Nat := 100 * s.fld Reg.pwrFeedWin 0 8
def State.feedOv (s : State) : Nat := 100 * capAt 200 (s.fld Reg.pwrFeedWin 8 8)

/-- A byte as a signed number. -/
def signedByte (n : Nat) : Int := if n < 128 then n else (n : Int) - 256

/-- TA in °C. -/
def State.ambient (s : State) : Int := signedByte (s.fld Reg.pwrThLimits 0 8)

/-- TS in °C: TA where no sensor is fitted or its reading is out of range (R474, R475). -/
def State.sensorT (s : State) : Rat :=
  let m := s.fld Reg.pwrTsCfg 0 2
  match (if m = 1 ∨ m = 2 then s.pwr.ts else none) with
  | some x => (x : Rat) / 8
  | none => s.ambient

/-- TG = max(TS, TA + ΔT) (R474). -/
def State.governT (s : State) : Rat :=
  if s.sensorT ≤ (s.ambient : Rat) + s.pwr.rise then (s.ambient : Rat) + s.pwr.rise else s.sensorT

/-- A temperature as registers and records show it: 1/8 °C, whole eighths. DEDUCED: log entry 70. -/
def eighths (t : Rat) : Int := (t * 8).floor

/-- TG in a record's word. -/
def State.tgWord (s : State) : Word := wOfInt (eighths s.governT)

/-- RETRY.TIME in ms; 0 acts as 1. -/
def State.retryTime (s : State) : Nat := atLeast1 (s.fld Reg.pwrRetry 0 16)

/-- TEMPS follows TG. -/
def State.showTg (s : State) : State := s.setPwr fun p => { p with tg := eighths s.governT }

/-- The ms left on the retry timer, at least 1 while it runs. -/
def State.timerLeft (s : State) : Nat :=
  match s.pwr.timer with
  | none => 0
  | some (ms, since) =>
    let left := ms - (s.tclks - since) / 25000
    if left = 0 then 1 else left

/-! ### Rails (R485) -/

def State.railOn (s : State) (r : Nat) : Bool := s.pwr.en.toNat.testBit r
def State.railOrder (s : State) (r : Nat) : Nat := s.fld (Reg.seqRail r) 24 3

/-- The power-good inputs after polarity, as STATUS shows them. -/
def State.pgByte (s : State) : Nat := (upFrom 0 8).foldl (fun a r => a + if s.railGood r then 2 ^ r else 0) 0

/-- Enable outputs as a set of rails. -/
def State.setRails (s : State) (f : Nat → Bool) : State :=
  let n := (upFrom 0 8).foldl (fun a r => a + if f r then 2 ^ r else 0) 0
  s.setPwr fun p => { p with en := BitVec.ofNat 8 n }

/-- What the enabled rails show of power-good, followed: since when each has not shown it, which have shown it since their enable, and
since when all have (R485, R486). -/
def State.railTrack (s : State) : State :=
  let now := s.tclks
  let bad (t : Tab (Option Nat)) (r : Nat) : Tab (Option Nat) :=
    Tab.set none t r (if !s.railOn r || s.railGood r then none else some ((Tab.get none t r).getD now))
  let shown := (upFrom 0 8).filter fun r => s.railOn r && (setHas s.pwr.shown r || s.railGood r)
  let all := (upFrom 0 8).all fun r => !s.railOn r || setHas shown r
  s.setPwr fun p => { p with
    badAt := (upFrom 0 8).foldl bad p.badAt, shown := shown, goodAt := if all then some (p.goodAt.getD now) else none }

/-- Every rail disabled at once (R485). -/
def State.railsCut (s : State) : State := (s.setPwr fun p => { p with en := 0, seq := 0 }).railTrack

/-- The sequencer starts down: it disables the rails in descending ORDER; with none enabled it is off, and the gate with it.
DEDUCED: log entry 69. -/
def State.railsDown (s : State) : State :=
  s.setPwr fun p =>
    if p.en = 0 then { p with seq := 0, gate := if p.hs = 3 ∨ p.hs = 4 then p.gate else false }
    else { p with seq := 3, downAt := none }

/-- UP is reached once every used rail is enabled and good. -/
def State.railsUpCheck (s : State) : State :=
  if s.pwr.seq = 1 ∧ ((upFrom 0 8).all fun r => !s.railUsed r || (s.railOn r && s.railGood r)) then
    s.setPwr fun p => { p with seq := 2 }
  else s

/-- Of the rails that satisfy `f`, the one order step that comes first: lowest ORDER, or highest where `down`. -/
def State.railStep (s : State) (down : Bool) (f : Nat → Bool) : List Nat :=
  let l := (upFrom 0 8).filter f
  let best := l.foldl (fun (b : Option Nat) r =>
    match b with
    | none => some (s.railOrder r)
    | some o => some (if down then max o (s.railOrder r) else min o (s.railOrder r))) none
  l.filter fun r => decide (some (s.railOrder r) = best)

/-- The longest delay, of the field at bit `lo`, of the rails of a step, in units of 100 µs. DESIGN CHOICE: log entry 87. -/
def State.stepDelay (s : State) (lo : Nat) (step : List Nat) : Nat :=
  2500 * step.foldl (fun a r => max a (s.fld (Reg.seqRail r) lo 8)) 0

/-- The rails of the next order step up. -/
def State.nextUp (s : State) : List Nat := s.railStep false fun r => s.railUsed r && !s.railOn r

/-- The next order step of rails enabled (R485). The channels armed by a rail start their windows' timeouts (R489). -/
def State.railsRise (s : State) : State :=
  let step := s.nextUp
  let now := s.tclks
  let kept (c : Nat) : Bool := !decide (s.fld (Reg.adcChCfg c) 16 3 ∈ step)
  let s := s.setPwr fun p => { p with
    reached := p.reached.filter kept, enAt := step.foldl (fun t r => Tab.set 0 t r now) p.enAt, goodAt := none }
  (s.setRails fun r => s.railOn r || decide (r ∈ step)).railTrack.railsUpCheck

/-- RAIL_STEP_ENABLE (R485): UP_DELAY after every enabled rail has shown power-good, the next order step. -/
def execRailStepEnable (s : State) : Host.Outcome State Fault Refusal :=
  .next (if s.pwr.seq = 1 ∧ s.ran s.pwr.goodAt (s.stepDelay 16 s.nextUp) then s.railsRise else s)

/-- RAIL_STEP_DISABLE (R485, R500): the next order step down, DOWN_DELAY after the one before; in DORMANT the rails of KEEP_RAILS stay. After the last step the gate is
turned off on an exit from ON. -/
def execRailStepDisable (s : State) : Host.Outcome State Fault Refusal :=
  .next (
    if s.pwr.seq = 3 then
      let stays (r : Nat) : Bool := decide (s.power = .dormant) && decide (s.pwr.hs = 4) && s.flag Reg.clkDormantCfg (8 + r)
      let step := s.railStep true fun r => s.railOn r && !stays r
      if s.pwr.downAt.isSome ∧ !s.ran s.pwr.downAt (s.stepDelay 0 step) then s
      else
      let now := s.tclks
      let s := ((s.setRails fun r => s.railOn r && !decide (r ∈ step)).setPwr fun p => { p with downAt := some now }).railTrack
      if (upFrom 0 8).any fun r => s.railOn r && !stays r then s
      else s.setPwr fun p => { p with seq := if p.en = 0 then 0 else 2, gate := if p.hs = 3 ∨ p.hs = 4 then p.gate else false }
    else s)

/-! ### Faults (R476) -/

/-- The counter of a fault's cause. -/
def State.countCause (s : State) (cause : Nat) : State :=
  if cause = 1 then s.bump Reg.pwrCntFastTrip
  else if cause = 2 then s.bump Reg.pwrCntShortRamp
  else if cause = 3 then s.bump Reg.pwrCntLimit
  else if cause = 4 then s.bump Reg.pwrCntThermal
  else if cause = 5 then s.bump Reg.pwrCntRail
  else s

/-- The stage enters a state. -/
def State.enterHs (s : State) (hs : Nat) : State :=
  let now := s.tclks
  s.setPwr fun p => { p with hs, hsAt := now }

/-- The state that a fault finds the stage in: that before a seat loss of the same power-die cycle, which is applied first (R479).
DEDUCED: log entry 69. -/
def State.stageAs (s : State) : Nat :=
  match s.pwr.lossAt with
  | some (t, h) => if t = s.tclks then h else s.pwr.hs
  | none => s.pwr.hs

/-- RAMPING or ON, as a fault finds it. -/
def State.stageLive (s : State) : Bool := decide (s.stageAs = 3) || decide (s.stageAs = 4)

/-- What follows a fault in RAMPING or ON: another attempt, or the latch (R476). -/
def State.faultMove (s : State) (cause : Nat) : State :=
  if s.pwr.retry ≤ s.fld Reg.pwrRetry 16 4 then
    let s := (s.enterHs 2).bump Reg.pwrCntRetry
    s.powPost (some 2) 0x77 0x03 0 (w32 (at_ 8 s.pwr.retry + cause)) (w32 s.retryTime) s.tgWord
      (w32 (s.fld Reg.pwrRetry 16 4))
  else
    let s := (s.enterHs 5).bump Reg.pwrCntLatched
    s.powPost (some 3) 0x7C 0x03 0 (w32 cause) (w32 s.pwr.retry) 0 0

/-- A fault (R476): gate off, cause recorded, retry count and timer, every rail disabled at once (R485). Outside RAMPING and ON the
stage does not move. DEDUCED: log entry 69. -/
def State.powFault (s : State) (cause shunt : Nat) : State :=
  let ran := decide (s.pwr.hs = 3) || decide (s.pwr.hs = 4)
  let s := s.wr Reg.pwrLastFault (w32 (at_ 8 (capAt 255 shunt) + at_ 4 s.pwr.hs + cause))
  let s := s.setPwr fun p => { p with gate := false, retry := p.retry + 1, timer := some (s.retryTime, s.tclks) }
  let s := (s.railsCut.countCause cause)
  let s := if s.takesRecords then s.raise 0x03 1 else s
  if ran then s.faultMove cause else s

/-- LEASE.FAULT SUPPLY (R351), while the hub die runs. -/
def State.supplyFault (s : State) : State := if s.hubUp then s.leaseFault 3 else s

/-! ### Feeds (R468, R469) -/

def State.feed (s : State) (b : Bool) : FeedSt := if b then s.pwr.feedB else s.pwr.feedA

def State.setFeed (s : State) (b : Bool) (f : FeedSt → FeedSt) : State :=
  s.setPwr fun p => if b then { p with feedB := f p.feedB } else { p with feedA := f p.feedA }

def feedCounter (b : Bool) : Nat := if b then Reg.pwrCntFeedB else Reg.pwrCntFeedA
def reverseCounter (b : Bool) : Nat := if b then Reg.pwrCntReverseB else Reg.pwrCntReverseA

/-- A change of a feed's mark: FEED_CHANGE, its count, and check 0x0B01 (R468, R490). The check's own count is the same counter. -/
def State.feedMark (s : State) (b : Bool) (mark : Nat) : State :=
  let s := s.setFeed b fun f => { f with mark, gate := decide (mark = 0) && !f.reverse }
  let mv := w32 (s.feed b).mv
  let s := if mark = 0 then (s.bump (feedCounter b)).qualClear 0x03 0x0B01 (b2n b) mv
    else s.powFail 0x03 0x0B01 (b2n b) mv (feedCounter b)
  s.powPost (some 4) 0x7D 0x03 (b2n b) (w32 mark) mv (w32 (s.feed (!b)).mark) 0

/-- A feed that exceeds VBUS by FWD_MV conducts again (R469). -/
def State.feedForward (s : State) (b : Bool) (vbus : Nat) : State :=
  if (s.feed b).reverse ∧ vbus + s.fld Reg.pwrIdeal 0 6 ≤ (s.feed b).mv then
    let s := s.setFeed b fun f => { f with reverse := false, gate := decide (f.mark = 0) }
    s.qualClear 0x03 0x0B02 (b2n b) (wOfInt ((vbus : Int) - (s.feed b).mv))
  else s

/-- A feed's voltage held against the window (R468): since when it has been below UV, and in range with the hysteresis of each limit. -/
def State.feedTrack (s : State) (b : Bool) : State :=
  let now := s.tclks
  let uv := s.feedUv
  let ov := s.feedOv
  s.setFeed b fun f => { f with
    lowAt := if f.mv < uv then some (f.lowAt.getD now) else none,
    rangeAt := if f.mv < uv ∨ ov < f.mv then none
      else if uv + 300 ≤ f.mv ∧ f.mv + 300 ≤ ov then some (f.rangeAt.getD now) else f.rangeAt }

/-- A feed above OV is marked OV and its gate turned off. -/
def State.feedCheck (s : State) (b : Bool) : State :=
  let s := s.feedTrack b
  if s.feedOv < (s.feed b).mv ∧ (s.feed b).mark ≠ 2 then s.feedMark b 2 else s

/-- FEED_VOLTAGE_CHANGE (R468, R469): a feed measured at `mv` with VBUS at `vbus`. -/
def execFeedVoltageChange (b : Bool) (mv vbus : BitVec 16) (s : State) : Host.Outcome State Fault Refusal :=
  .next (
    ((s.setFeed b fun f => { f with mv := mv.toNat }).feedCheck b).feedForward b vbus.toNat)

/-- FEED_UV_MARK (R468): below UV for 10 µs. -/
def execFeedUvMark (b : Bool) (s : State) : Host.Outcome State Fault Refusal :=
  .next (if (s.feed b).mark ≠ 1 ∧ s.ran (s.feed b).lowAt (usTclks 10) then s.feedMark b 1 else s)

/-- FEED_SETTLE_EXPIRY (R468): in range for SETTLE. -/
def execFeedSettleExpiry (b : Bool) (s : State) : Host.Outcome State Fault Refusal :=
  .next (
    let settle := msTclks (atLeast1 (s.fld Reg.pwrFeedWin 16 8))
    if (s.feed b).mark ≠ 0 ∧ s.ran (s.feed b).rangeAt settle then s.feedMark b 0 else s)

/-- REVERSE_CURRENT (R469): VBUS exceeds the feed by `diff` mV, more than REV_MV; a gate that IDEAL holds off is off already.
DEDUCED: log entry 69. -/
def execReverseCurrent (b : Bool) (diff : BitVec 16) (s : State) : Host.Outcome State Fault Refusal :=
  .next (
    if (s.feed b).gate ∧ s.flag Reg.pwrIdeal (16 + b2n b) ∧ s.fld Reg.pwrIdeal 8 6 < diff.toNat then
      let s := s.setFeed b fun f => { f with gate := false, reverse := true }
      s.powFail 0x03 0x0B02 (b2n b) (w32 diff.toNat) (reverseCounter b)
    else s)

/-! ### Seating (R470, R471) -/

/-- SEAT_PIN_CHANGE (R470, R471): both pins asserted start the debounce; a break restarts it. The release of a seated card waits for
its filter. -/
def execSeatPinChange (b asserted : Bool) (s : State) : Host.Outcome State Fault Refusal :=
  .next (
    let old := s.pwr
    let now := s.tclks
    if (if b then old.seatB else old.seatA) = asserted then s
    else
      let s := s.setPwr fun p =>
        if b then { p with seatB := asserted, seatBAt := now } else { p with seatA := asserted, seatAAt := now }
      if s.pwr.seatA && s.pwr.seatB then (if s.pwr.hs = 0 then s.enterHs 1 else s)
      else if s.pwr.hs = 1 then s.enterHs 0 else s)

/-- SEAT.DEBOUNCE in ms, within 1–1,000. -/
def State.debounceMs (s : State) : Nat := capAt 1000 (atLeast1 (s.fld Reg.pwrSeat 0 16))

/-- SEAT_DEBOUNCE_COMPLETE (R470, R471, R477, R478): both pins asserted, without a break, for DEBOUNCE. DESIGN CHOICE: log entry 1. -/
def execSeatDebounceComplete (s : State) : Host.Outcome State Fault Refusal :=
  .next (
    let old := s.pwr
    if old.hs = 1 ∧ old.seatA ∧ old.seatB ∧ s.passed (max old.seatAAt old.seatBAt) (msTclks s.debounceMs) then
      let auto := s.flag Reg.pwrHsCfg 31
      let s := (s.enterHs 2).setPwr fun p => { p with seated := true, retry := 0, aoLost := false, held := p.held || !auto }
      s.powPost (some 0) 0x78 0x03 (b2n old.aoLost) (w32 s.debounceMs) (w32 s.timerLeft) (w32 (old.retry % 16)) 0
    else s)

/-- A seat pin has been released for 500 ns (R470). -/
def State.seatLost (s : State) : Bool :=
  (!s.pwr.seatA && s.passed s.pwr.seatAAt 12) || (!s.pwr.seatB && s.passed s.pwr.seatBAt 12)

/-- SEAT_RELEASE_TIMEOUT (R470, R471, R480, R485): unseated, the gate off. In RAMPING every rail is disabled at once; in ON the rails
stay enabled for the dying gasp that follows. -/
def execSeatReleaseTimeout (s : State) : Host.Outcome State Fault Refusal :=
  .next (
    if s.pwr.seated ∧ s.seatLost then
      let old := s.pwr
      let now := s.tclks
      let s := (s.enterHs 0).setPwr fun p =>
        { p with lossAt := some (now, old.hs), seated := false, gate := false, unseatedOn := decide (old.hs = 4) && !p.dying }
      let s := if old.hs = 3 then s.railsCut else s
      let s := s.bump Reg.pwrCntSeatLoss
      s.powPost (some 0) 0x79 0x03 (b2n (!old.seatA) + at_ 1 (b2n (!old.seatB))) (w32 old.hs) 0 0 0
    else s)

/-! ### The hot-swap stage (R471–R477) -/

/-- RAMP_START (R471): the conditions of WAITING are met. -/
def execRampStart (s : State) : Host.Outcome State Fault Refusal :=
  .next (
    let p := s.pwr
    if p.hs = 2 ∧ p.timer = none ∧ s.governT ≤ (s.fld Reg.pwrThLimits 16 8 : Rat) ∧ (p.feedA.mark = 0 ∨ p.feedB.mark = 0)
        ∧ !p.held ∧ !p.dying then
      (s.enterHs 3).setPwr fun p => { p with gate := true, nearAt := none, limAt := none }
    else s)

/-- RAMP_COMPLETE (R471, R485): VOUT has been near VBUS for 1 ms; ON is entered, and the sequencer begins with its first order step. -/
def execRampComplete (s : State) : Host.Outcome State Fault Refusal :=
  .next (
    if s.pwr.hs = 3 ∧ s.ran s.pwr.nearAt (msTclks 1) then ((s.enterHs 4).setPwr fun p => { p with seq := 1 }).railsRise else s)

/-- RAMPING has run for longer than RAMP_MAX, or ON has limited for longer than ON_LIMIT (R472). -/
def State.limitedTooLong (s : State) : Bool :=
  if s.stageAs = 3 then s.passed s.pwr.hsAt (msTclks (atLeast1 (s.fld Reg.pwrHsTimes 16 16)))
  else decide (s.stageAs = 4) && s.ran s.pwr.limAt (2500 * atLeast1 (s.fld Reg.pwrHsTimes 0 16))

/-- LIMIT_TIMEOUT (R472): with the shunt at `shunt` mV. -/
def execLimitTimeout (shunt : Byte) (s : State) : Host.Outcome State Fault Refusal :=
  .next (if s.limitedTooLong then s.powFault 3 shunt.toNat else s)

/-- FAST_TRIP (R473, R476): the shunt at or above 25 + 5 × TRIP mV. The record carries the retry count that the fault leaves.
DEDUCED: log entry 69. -/
def execFastTrip (shunt : Byte) (vout : BitVec 16) (s : State) : Host.Outcome State Fault Refusal :=
  .next (
    if s.stageLive ∧ 25 + 5 * s.fld Reg.pwrHsCfg 16 4 ≤ shunt.toNat then
      let ramp := decide (s.stageAs = 3)
      let s := s.powPost none (if ramp then 0x7B else 0x7A) 0x03 0 (w32 shunt.toNat) (w32 vout.toNat) s.tgWord
        (w32 (s.pwr.retry + 1))
      s.powFault (if ramp then 2 else 1) shunt.toNat
    else s)

/-- TG at TJ_MAX in RAMPING or ON is a fault (R475). -/
def State.thermalCheck (s : State) (shunt : Nat) : State :=
  if s.stageLive ∧ (s.fld Reg.pwrThLimits 8 8 : Rat) ≤ s.governT then s.powFault 4 shunt else s

/-- P in watts: (VBUS − VOUT) × V_SHUNT / R_SNS, from mV, µV and µΩ; 0 while the gate is off (R475). With R_SNS = 0 the rule gives no
number, and P is a free value. DEDUCED: log entry 70. -/
def State.fetPower (s : State) (vbus vout shuntUv : Nat) : Rat × State :=
  if !s.pwr.gate then (0, s)
  else if s.fld Reg.pwrRsns 0 20 = 0 then
    let f := s.fresh
    ((f.1.toNat : Rat), f.2)
  else ((((vbus : Int) - vout : Int) : Rat) / 1000 * ((shuntUv : Rat) / (s.fld Reg.pwrRsns 0 20 : Rat)), s)

/-- HS_CFG.ILIM in mV, within 5–50. -/
def State.ilim (s : State) : Nat := capAt 50 (max 5 (s.fld Reg.pwrHsCfg 0 6))

/-- What the stage's measurements show (R471, R472): since when VOUT has been within 250 mV of VBUS while RAMPING, and the regulator
limiting. -/
def State.stageTrack (s : State) (vbus vout shuntUv : Nat) : State :=
  let now := s.tclks
  let near := decide (s.pwr.hs = 3) && decide (vbus ≤ vout + 250) && decide (vout ≤ vbus + 250)
  let lim := decide (s.pwr.hs = 4) && decide (1000 * s.ilim ≤ shuntUv)
  s.setPwr fun p => { p with
    nearAt := if near then some (p.nearAt.getD now) else none, limAt := if lim then some (p.limAt.getD now) else none,
    shunt := shuntUv / 1000, vout := vout }

/-- THERMAL_MODEL_STEP (R474, R475): every 1 µs ΔT moves by (P × RTH − ΔT) × 1 µs / TAU. DEDUCED: log entry 70. -/
def execThermalModelStep (vbus vout shuntUv : BitVec 16) (s : State) : Host.Outcome State Fault Refusal :=
  .next (
    if !s.passed s.pwr.modelAt (usTclks 1) then s
    else
      let (w, s) := s.fetPower vbus.toNat vout.toNat shuntUv.toNat
      let tau := atLeast1 (s.fld Reg.pwrThModel 16 16)
      let rth : Rat := (s.fld Reg.pwrThModel 0 16 : Rat) / 100
      let now := s.tclks
      let s := s.setPwr fun p => { p with rise := p.rise + (w * rth - p.rise) / (100 * (tau : Rat)), modelAt := now }
      (s.stageTrack vbus.toNat vout.toNat shuntUv.toNat).showTg.thermalCheck (shuntUv.toNat / 1000))

/-- TS_MEASURE (R474, R475): every 100 µs the sensor reads `t` eighths of a degree by its MODE. DEDUCED: log entry 70. -/
def execTsMeasure (t : Int) (s : State) : Host.Outcome State Fault Refusal :=
  .next (
    let m := s.fld Reg.pwrTsCfg 0 2
    let now := s.tclks
    if (m ≠ 1 ∧ m ≠ 2) ∨ !s.passed s.pwr.tsAt (usTclks 100) then s
    else if -440 ≤ t ∧ t ≤ 1600 then
      (((s.setPwr fun p => { p with ts := some t, tsAt := now }).qualClear 0x03 0x0B03 0 (wOfInt t)).showTg).thermalCheck s.pwr.shunt
    else
      let s := (s.setPwr fun p => { p with ts := none, tsAt := now }).showTg
      (s.powFail 0x03 0x0B03 0 (wOfInt t) Reg.pwrCntTsFail).thermalCheck s.pwr.shunt)

/-- RETRY_TIMER_EXPIRY (R476): the timer reaches 0. -/
def execRetryTimerExpiry (s : State) : Host.Outcome State Fault Refusal :=
  .next (match s.pwr.timer with
    | none => s
    | some (ms, since) => if s.passed since (msTclks ms) then s.setPwr fun p => { p with timer := none } else s)

/-- RETRY_FORGET (R477): FORGET seconds in ON without a fault. -/
def execRetryForget (s : State) : Host.Outcome State Fault Refusal :=
  .next (
    if s.pwr.hs = 4 ∧ s.passed s.pwr.hsAt (msTclks (1000 * atLeast1 (s.fld Reg.pwrRetry 24 8))) then
      s.setPwr fun p => { p with retry := 0 }
    else s)

/-- PWR_START (R471). -/
def execPwrStart (s : State) : Host.Outcome State Fault Refusal := .next (s.setPwr fun p => { p with held := false })

/-- CMD.STOP (R471, R485): HELD; from RAMPING or ON the stage enters WAITING, and from ON the rails go down in order first.
DEDUCED: log entry 69. -/
def State.powStop (s : State) : State :=
  let old := s.pwr.hs
  let s := s.setPwr fun p => { p with held := true }
  if old = 3 then ((s.enterHs 2).setPwr fun p => { p with gate := false }).railsCut
  else if old = 4 then (s.enterHs 2).railsDown
  else s

def execPwrStop (s : State) : Host.Outcome State Fault Refusal := .next s.powStop

/-- CMD.UNLATCH (R471, R477). DEDUCED: log entry 69. -/
def State.powUnlatch (s : State) : State :=
  let s := if s.pwr.hs = 5 then s.enterHs 2 else s
  s.setPwr fun p => { p with retry := 0 }

def execUnlatch (s : State) : Host.Outcome State Fault Refusal := .next s.powUnlatch

/-- A write of CMD in the PWR indirect map: START, then STOP, then UNLATCH. DEDUCED: log entry 33. -/
def State.powCmd (s : State) (v : Word) : State :=
  let s := if bit v 0 then s.setPwr fun p => { p with held := false } else s
  let s := if bit v 1 then s.powStop else s
  if bit v 2 then s.powUnlatch else s

/-! ### The dying gasp (R480–R482) -/

/-- Every queue with records pending announces them (R481). -/
def State.announceAll (s : State) : State :=
  (upFrom 0 16).foldl (fun s n => if (s.evQueue n).unannounced = 0 then s else s.evAnnounce n) s

/-- The gasp's actions in the hub (R481): the lease, the DYING signal, the safe states. -/
def State.gaspActs (s : State) : State :=
  if s.hubUp then
    let s := if s.holdsLease then s.releaseLease 6 else s
    let s := s.pubDying 1
    (upFrom 0 256).foldl (fun s k => s.safeEnter k) s
  else s

/-- DYING_GASP_DECISION (R480, R481): both feeds below UV in RAMPING or ON, or a card unseated from ON. `us` is the time from the decision
to the record in µs. -/
def execDyingGaspDecision (us : Byte) (s : State) : Host.Outcome State Fault Refusal :=
  .next (
    let p := s.pwr
    let now := s.tclks
    let filter := usTclks (atLeast1 (s.fld Reg.pwrDyingCfg 0 8))
    let both := s.ran p.feedA.lowAt filter && s.ran p.feedB.lowAt filter && (decide (p.hs = 3) || decide (p.hs = 4))
    if !p.dying && (p.unseatedOn || both) then
      let released := s.holdsLease
      let s := (s.setPwr fun p => { p with dying := true, dyingAt := now, unseatedOn := false }).bump Reg.pwrCntDying
      let s := s.gaspActs
      let s := s.powPost (some 5) 0x7E 0x03 (b2n p.unseatedOn) (w32 p.feedA.mv) (w32 p.feedB.mv) (w32 (b2n released))
        (w32 us.toNat)
      if s.hubUp then (s.announceAll).setNet fun n => { n with quiet := some now } else s
    else s)

/-- DYING_GASP_END (R482): 2 ms after the decision the gate off, the rails down in order; WAITING, or UNSEATED where the card has been unseated. -/
def execDyingGaspEnd (s : State) : Host.Outcome State Fault Refusal :=
  .next (
    if s.pwr.dying ∧ s.passed s.pwr.dyingAt (msTclks 2) then
      let t := if s.pwr.hs = 3 ∨ s.pwr.hs = 4 then s.enterHs 2 else s
      (t.setPwr fun p => { p with dying := false, gate := false }).railsDown
    else s)

/-! ### Rail power-good (R486, R493) -/

/-- Hub-die power lost (R493): it comes back with rails 0–4. -/
def State.hubPowerLoss (s : State) : State :=
  if s.power = .off ∨ s.power = .dormant ∨ s.hubRailsGood then s
  else
    let s := s.hubClear false
    { s with power := .held, clk := { s.clk with hold := some 1, reqErr := false, report := none } }

/-- Hub-die power returns with rails 0–4: a CORE_POWER reset, or the release of a DORMANT_WAKE one (R493, R503). -/
def State.hubPowerBack (s : State) : State :=
  if s.power = .held ∧ s.hubRailsGood then
    (if s.clk.hold = some 1 then s.hubReset 1 else if s.clk.hold = some 7 then s.hubRelease else s)
  else s

/-- RAIL_PG_CHANGE (R486, R493): a power-good pin changes; the hub die may lose its power with it, or have it again. -/
def execRailPgChange (r : Fin 8) (level : Bool) (s : State) : Host.Outcome State Fault Refusal :=
  .next (
    let r : Nat := r
    let v := setBits (w32 s.pwr.pg.toNat) r 1 (b2n level)
    let was := s.railGood r
    let s := ((s.setPwr fun p => { p with pg := BitVec.ofNat 8 v.toNat }).railTrack).railsUpCheck
    if s.railGood r then s.hubPowerBack else if was ∧ r < 5 then s.hubPowerLoss else s)

/-- A rail fault (R486): RAIL_FAULT, LEASE.FAULT SUPPLY and a fault of cause 5. -/
def State.railFault (s : State) (kind r : Nat) : State :=
  let s := s.bump (if kind = 0 then Reg.seqCntPgTimeout else Reg.seqCntPgLost)
  let s := s.powPost (some 0) 0x7F 0x04 0 (w32 (at_ 4 kind + r)) (w32 s.pgByte) (w32 s.pwr.en.toNat) 0
  s.supplyFault.powFault 5 s.pwr.shunt

/-- PG_TIMEOUT (R486): an enabled rail has not shown power-good within PG_TIMEOUT. -/
def execPgTimeout (r : Fin 8) (s : State) : Host.Outcome State Fault Refusal :=
  .next (
    let n : Nat := r
    if s.railOn n ∧ !setHas s.pwr.shown n ∧ s.passed (Tab.get 0 s.pwr.enAt n) (msTclks (atLeast1 (s.fld (Reg.seqRail n) 8 8))) then
      s.railFault 0 n
    else s)

/-- PG_LOST (R486): an enabled rail has lost the power-good it had shown, for 10 µs. -/
def execPgLost (r : Fin 8) (s : State) : Host.Outcome State Fault Refusal :=
  .next (
    let n : Nat := r
    if s.railOn n ∧ setHas s.pwr.shown n ∧ s.ran (Tab.get none s.pwr.badAt n) (usTclks 10) then s.railFault 1 n else s)

/-! ### The monitor ADC (R488, R489) -/

/-- Whether a channel's window is checked: ARM_ALWAYS, or its arming rail is enabled. -/
def State.adcArmed (s : State) (c : Nat) : Bool :=
  s.flag (Reg.adcChCfg c) 29 || s.railOn (s.fld (Reg.adcChCfg c) 16 3)

/-- A channel's failed check: reported, LEASE.FAULT SUPPLY, and with ACTION a fault of cause ADC. DEDUCED: log entry 71. -/
def State.adcFail (s : State) (check c : Nat) (code : Word) : State :=
  let s := (s.powFail 0x05 check c code (Reg.adcCntFail (c % 16))).supplyFault
  if s.flag (Reg.adcChCfg c) 30 then s.powFault 6 s.pwr.shunt else s

/-- The channel that is converted next: the enabled one that follows the last, in ascending order (R488). -/
def State.adcNext (s : State) : Option Nat :=
  let first := match s.pwr.adcLast with
    | some (c, _) => c + 1
    | none => 0
  ((upFrom first 16).find? fun c => s.flag (Reg.adcChCfg (c % 16)) 31).map fun c => c % 16

/-- A conversion every 6.25 µs (R488). -/
def State.adcDue (s : State) : Bool :=
  match s.pwr.adcLast with
  | some (_, t) => s.passed t 156
  | none => true

/-- ADC_CONVERSION (R488, R489): channel c reads a code. FILTER + 1 conversions in a row outside fail its check, as many inside clear
it. -/
def execAdcConversion (c : Fin 16) (code : BitVec 12) (s : State) : Host.Outcome State Fault Refusal :=
  .next (
    let c : Nat := c
    let now := s.tclks
    if s.adcNext ≠ some c ∨ !s.adcDue then s
    else
      let s := s.setPwr fun p => { p with adcLast := some (c, now) }
      let n := code.toNat
      let inside := decide (s.fld (Reg.adcChWin c) 0 12 ≤ n) && decide (n ≤ s.fld (Reg.adcChWin c) 16 12)
      let need := s.fld (Reg.adcChCfg c) 24 4 + 1
      let s := s.wr (Reg.adcChVal c) (w32 (at_ 31 (b2n inside) + n))
      if inside then
        let run := capAt 16 (Tab.get 0 s.pwr.ins c + 1)
        let s := s.setPwr fun p =>
          { p with ins := Tab.set 0 p.ins c run, outs := Tab.set 0 p.outs c 0, reached := setAdd p.reached c }
        if need ≤ run then (s.qualClear 0x05 0x0D01 c (w32 n)).qualClear 0x05 0x0D02 c (w32 n) else s
      else if s.adcArmed c then
        let run := capAt 16 (Tab.get 0 s.pwr.outs c + 1)
        let s := s.setPwr fun p => { p with outs := Tab.set 0 p.outs c run, ins := Tab.set 0 p.ins c 0 }
        if need ≤ run ∧ !s.qualStands 0x05 0x0D01 c then s.adcFail 0x0D01 c (w32 n) else s
      else s.setPwr fun p => { p with outs := Tab.set 0 p.outs c 0, ins := Tab.set 0 p.ins c 0 })

/-- ADC_ARM_TIMEOUT (R489): channel c has not come inside its window within TIMEOUT of its rail's enable. -/
def execAdcArmTimeout (c : Fin 16) (s : State) : Host.Outcome State Fault Refusal :=
  .next (
    let c : Nat := c
    let rail := s.fld (Reg.adcChCfg c) 16 3
    let late := s.passed (Tab.get 0 s.pwr.enAt rail) (msTclks (atLeast1 (s.fld (Reg.adcChCfg c) 0 16)))
    if s.flag (Reg.adcChCfg c) 31 ∧ !s.flag (Reg.adcChCfg c) 29 ∧ s.adcArmed c ∧ !setHas s.pwr.reached c ∧ late
        ∧ !s.qualStands 0x05 0x0D02 c then
      s.adcFail 0x0D02 c (w32 (s.fld (Reg.adcChVal c) 0 12))
    else s)

/-! ### What the pages show -/

/-- STATUS of the PWR page. -/
def State.pwrStatus (s : State) : Word :=
  let p := s.pwr
  w32 (at_ 12 (p.retry % 16) + at_ 11 (b2n p.held) + at_ 10 (b2n p.dying) + at_ 9 (b2n p.seated)
    + at_ 8 (b2n (p.feedB.gate && s.flag Reg.pwrIdeal 17)) + at_ 7 (b2n (p.feedA.gate && s.flag Reg.pwrIdeal 16))
    + at_ 5 p.feedB.mark + at_ 3 p.feedA.mark + p.hs)

/-- STATE of the PWR indirect map. -/
def State.pwrStateWord (s : State) : Word :=
  w32 (at_ 16 (capAt 65535 s.timerLeft) + at_ 12 (s.pwr.retry % 16) + s.pwr.hs)

/-- A signed 16-bit field. -/
def field16 (i : Int) : Nat := (BitVec.ofInt 16 i).toNat

/-- TEMPS of the PWR indirect map. -/
def State.tempsWord (s : State) : Word := w32 (at_ 16 (field16 (eighths s.sensorT)) + field16 s.pwr.tg)

/-- The core voltage that AVS_OUT asks for, in mV: 780 + 5 × CODE, codes 9–15 acting as 8 (R487). -/
def State.avsMillivolts (s : State) : Nat := 780 + 5 * capAt 8 (s.fld Reg.seqAvs 0 4)

/-- The duty of AVS_OUT (R487). DEDUCED: log entry 16. -/
def State.avsDuty (s : State) : Rat := ((s.avsMillivolts : Rat) - 700) / 200

/-- STATUS of the SEQ page. -/
def State.seqStatus (s : State) : Word := w32 (at_ 16 s.pwr.seq + at_ 8 s.pgByte + s.pwr.en.toNat)

end Sys2Proof.Machine
end

