-- ==== Sys2Proof/Machine/Switch.lean ====
section
/-! DEFINITION. The switch core and buffers at work: egress scheduling, preemption, copies, push-out reports, the overflow
store and DDR4 (R248–R251, R277–R302). -/

namespace Sys2Proof.Machine

/-! ### ECC on reads of the cell buffer and the store (R281, R298) -/

/-- A cell error: corrected and reported; uncorrectable ones are reported and counted as discards. -/
def State.bufEcc (s : State) : ReadEcc → State
  | .clean => s
  | .corrected a y => s.eccError 0x21 0 false a y
  | .uncorrectable a y => (s.bump Reg.bufCntEccDiscard).eccError 0x21 0 true a y

/-- A DDR4 error (R298, R446): counters, address and report. SECDED guards 64-bit words, so word `a` lies 8 × `a` bytes
above the DDR4 base. -/
def State.ddrEcc (s : State) : ReadEcc → State
  | .clean => s
  | .corrected a y => (s.bump Reg.ddrCntEccCorr).eccError 0x0B 0 false a y
  | .uncorrectable a y =>
    let n := 0x100000000 + 8 * a.toNat
    ((((s.bump Reg.ddrCntEccUncorr).wr Reg.ddrEccAddrLo (w32 n)).wr Reg.ddrEccAddrHi (w32 (n / 2 ^ 32))).raise 0x0B 2).eccError
      0x0B 0 true a y

/-! ### Egress scheduling (R283) -/

/-- A frame that may start: it is not in the overflow store (R298). -/
def QFrame.ready (f : QFrame) : Bool := decide (f.place ≠ .stored)

/-- The head of a class's queue where it may start. -/
def State.headOf (s : State) (port cls : Nat) : Option QFrame :=
  match s.queue port cls with
  | f :: _ => if f.ready then some f else none
  | [] => none

/-- The quantum of a class in bytes: its weight, 0 acting as 1, times 256 (R283). -/
def State.quantum (s : State) (port cls : Nat) : Nat :=
  let w := s.fld (Reg.swcWeight port) (4 * cls) 4
  256 * (if w = 0 then 1 else w)

/-- The turn given to the next class: 4, 3, 2, 1, 0, 4 … -/
def nextTurn (c : Nat) : Nat := if c = 0 then 4 else c - 1

/-- One look of the round robin after another, at most `fuel`: the class whose head fits its deficit, and the round robin's
state after. A class without a frame to send loses its deficit. -/
def State.drrPick (s : State) (port : Nat) (d : Drr) : Nat → Option Nat × Drr
  | 0 => (none, d)
  | fuel + 1 =>
    match s.headOf port d.turn with
    | none => s.drrPick port { turn := nextTurn d.turn, given := false, deficits := Tab.set 0 d.deficits d.turn 0 } fuel
    | some f =>
      let have_ := Tab.get 0 d.deficits d.turn + (if d.given then 0 else s.quantum port d.turn)
      if frameLen f.bytes ≤ have_ then
        (some d.turn, { d with given := true, deficits := Tab.set 0 d.deficits d.turn (have_ - frameLen f.bytes) })
      else
        s.drrPick port { turn := nextTurn d.turn, given := false, deficits := Tab.set 0 d.deficits d.turn have_ } fuel

/-- The class from which a free port takes its next frame (R283), and the round robin's state after. DEDUCED: log entry 53. -/
def State.pickClass (s : State) (port : Nat) : Option Nat × Drr :=
  let d := Tab.get Drr.init s.net.drr port
  if (s.headOf port 7).isSome then (some 7, d)
  else if (s.headOf port 6).isSome then (some 6, d)
  else if (s.headOf port 5).isSome then (some 5, d)
  else s.drrPick port d 60

/-- The peer link delay of the ingress port in 2^−16 ns; a frame from within the node has none (R66, R67). -/
def State.ingressDelay (s : State) (ingress : Nat) : Int := if ingress < 4 then (s.rd (Reg.ptpPdelay ingress)).toInt * 256 else 0

/-- What the hub writes into a PTP message as it is sent, at the egress timestamp fixed when transmission starts (R66, R67): a passing
Sync has its residence time and the ingress peer link delay added to its correctionField, an own Sync and an own Pdelay_Resp_Follow_Up
take the time of their sending. A frame behind whose header lies no PTP message, and any other message, is unchanged. -/
def State.ptpStamped (s : State) (port : Nat) (f : QFrame) : List Byte :=
  let t := s.sfdTx port s.now
  let put := fun at_ : TimePoint => f.bytes.take (ptpAt f.bytes + 34) ++ ptpTime at_ (s.time.sec.toNat / 2 ^ 32) ++ f.bytes.drop (ptpAt f.bytes + 44)
  if 4 ≤ port ∨ f.mirror ∨ !carriesPtp f.native f.bytes then f.bytes
  else match ptpType (ptpBytes f.bytes), decide (f.ingress < 4), f.rxTime with
    | 0, true, some r => if f.native then addCorrection f.bytes (timeDiff t r * 65536 + s.ingressDelay f.ingress) else f.bytes
    | 0, false, _ => put t
    | 10, false, _ => put (Tab.get ⟨0, 0⟩ s.ptp.txResp port)
    | _, _, _ => f.bytes

/-- The send time of an own Pdelay_Req or Pdelay_Resp kept for its exchange (R67). -/
def State.ptpSent (s : State) (port : Nat) (f : QFrame) : State :=
  let t := s.sfdTx port s.now
  if 4 ≤ port ∨ f.mirror ∨ f.ingress < 4 ∨ !carriesPtp f.native f.bytes then s
  else match ptpType (ptpBytes f.bytes) with
    | 2 => { s with ptp := { s.ptp with txReq := Tab.set ⟨0, 0⟩ s.ptp.txReq port t } }
    | 3 => { s with ptp := { s.ptp with txResp := Tab.set ⟨0, 0⟩ s.ptp.txResp port t } }
    | _ => s

/-- The mark of mirror copies taken while a frame is being sent (R294). -/
def txMark (port : Nat) (express : Bool) : Nat := 2 * port + b2n express

/-- The head of a queue taken for transmission (R283, R287). An uncorrectable cell error discards it before it starts
(R281); sent frames are mirrored, a stomped one with its stomp (R294). -/
def State.startFrame (s : State) (port cls : Nat) (ecc : ReadEcc) : State :=
  match s.queue port cls with
  | [] => s
  | f :: rest =>
    let s := (s.setQueue port cls rest).bufEcc ecc
    match ecc with
    | .uncorrectable _ _ => s.spillCheck
    | _ =>
      let f := { f with bytes := s.ptpStamped port f, txOf := none }
      let x := s.sendingAt port
      let s := (s.setSending port (if 6 ≤ cls then { x with express := some f } else { x with normal := some f })).ptpSent port f
      s.mirror port false { f with txOf := some (txMark port (decide (6 ≤ cls))) }

/-- EGRESS_TRANSMIT_START (R283): a free port takes its next frame. While a preempted frame waits, a further express frame
goes first; with none, the preempted frame is resumed. Publish slots written in the cycle now past have their frames queued first
(R210). -/
def execEgressTransmitStart (port : Fin 8) (ecc : ReadEcc) (s : State) : Host.Outcome State Fault Refusal :=
  .next (
    let s := s.pubFlush none
    let x := s.sendingAt port
    if !s.portUp port ∨ x.express.isSome then s
    else if x.normal.isSome then
      (if !x.paused then s
       else if (s.headOf port 7).isSome then s.startFrame port 7 ecc
       else if (s.headOf port 6).isSome then s.startFrame port 6 ecc
       else s.setSending port { x with paused := false })
    else
      let (c, d) := s.pickClass port
      let s := s.setNet fun n => { n with drr := Tab.set Drr.init n.drr port d }
      match c with
      | none => s
      | some c => s.startFrame port c ecc)

/-- A mirror copy taken of a frame being sent, now that the sending has ended, stomped or whole (R294). -/
def QFrame.settle (mark : Nat) (lost : Bool) (f : QFrame) : QFrame :=
  if f.txOf = some mark then { f with txOf := none, stomp := lost } else f

/-- The mirror copies of a frame whose sending has ended (R294). -/
def State.settleCopies (s : State) (mark : Nat) (lost : Bool) : State :=
  s.setNet fun n => { n with
    copies := n.copies.map fun c => { c with frame := c.frame.settle mark lost },
    queues := n.queues.map fun e => (e.1, e.2.map (QFrame.settle mark lost)),
    sending := n.sending.map fun e => (e.1, { e.2 with normal := e.2.normal.map (QFrame.settle mark lost) }) }

/-- A frame whose transmission ends: its cells are free. A fabric port counts it; a local port delivers it (R278). An
uncorrectable cell error found while it was being sent stomps it (R249, R281), and with it the mirror copies taken of it (R294). -/
def State.endFrame (s : State) (port : Nat) (express : Bool) (f : QFrame) (ecc : ReadEcc) : State :=
  let s := s.bufEcc ecc
  let lost := f.stomp || (match ecc with
    | .uncorrectable _ _ => true
    | _ => false)
  let s := s.settleCopies (txMark port express) lost
  if port < 4 then
    let s := s.bump (Reg.fpCntTxFrames port)
    if lost then s.bump (Reg.fpCntTxStomp port) else s
  else if lost then s else s.handOver port f

/-- FRAME_TRANSMIT_END (R283, R297). DEDUCED: log entry 51. -/
def execFrameTransmitEnd (port : Fin 8) (ecc : ReadEcc) (s : State) : Host.Outcome State Fault Refusal :=
  .next (
    let x := s.sendingAt port
    match x.express with
    | some f => ((s.setSending port { x with express := none }).endFrame port true f ecc).spillCheck
    | none =>
      match x.normal with
      | some f =>
        if x.paused then s else ((s.setSending port { x with normal := none }).endFrame port false f ecc).spillCheck
      | none => s)

/-- PREEMPTION (R250, R251): in native mode with PREEMPT = 1, a waiting express frame pauses the preemptable one at the end
of its block. -/
def execPreemption (port : Fin 4) (s : State) : Host.Outcome State Fault Refusal :=
  .next (
    let x := s.sendingAt port
    if s.nativePort port ∧ s.flag (Reg.fpCfg port) 7 ∧ x.normal.isSome ∧ !x.paused ∧ x.express.isNone
        ∧ ((s.headOf port 7).isSome ∨ (s.headOf port 6).isSome) then
      (s.setSending port { x with paused := true }).bump (Reg.fpCntPreempt port)
    else s)

/-! ### Copies (R291, R292, R295) -/

/-- Element `i` and the list without it. -/
def pluck {α : Type} : List α → Nat → Option α × List α
  | [], _ => (none, [])
  | x :: t, 0 => (some x, t)
  | x :: t, i + 1 => let (y, r) := pluck t i; (y, x :: r)

/-- The place of the first copy that satisfies `p`. -/
def firstCopy (p : PendingCopy → Bool) (l : List PendingCopy) : Option Nat :=
  (l.zipIdx.find? fun e => p e.1).map fun e => e.2

/-- The copy written next: further copies in descending class, then mirror copies, oldest first (R292). -/
def nextCopy (l : List PendingCopy) : Option Nat :=
  match [7, 6, 5, 4, 3, 2, 1, 0].findSome? fun c => firstCopy (fun x => x.session.isNone && decide (x.frame.cls = c)) l with
  | some i => some i
  | none => firstCopy (fun x => x.session.isSome) l

/-- A copy admitted; a mirror copy that is not is reported (R295). -/
def State.writeCopy (s : State) (c : PendingCopy) : State :=
  let (a, s) := s.admitAs c.port c.frame
  match c.session, a with
  | some i, .notUp => s.mirrorDrop i 2
  | some i, .noCell => s.mirrorDrop i 1
  | _, _ => s

/-- COPY_WRITE (R292). -/
def execCopyWrite (s : State) : Host.Outcome State Fault Refusal :=
  .next (match nextCopy s.net.copies with
    | none => s
    | some i =>
      let (c, rest) := pluck s.net.copies i
      let s := s.setNet fun n => { n with copies := rest }
      match c with
      | some c => s.writeCopy c
      | none => s)

/-- REPL_LIMIT in µs, 0 acting as 1 (R292). -/
def State.replLimit (s : State) : Nat :=
  let n := s.fld Reg.swcCfg 8 8
  if n = 0 then 1 else n

/-- REPLICATION_TIMEOUT (R292): the `i`-th waiting copy, a further copy not written within REPL_LIMIT µs, is dropped. -/
def execReplicationTimeout (i : Nat) (s : State) : Host.Outcome State Fault Refusal :=
  .next (
    let (c, rest) := pluck s.net.copies i
    match c with
    | some c =>
      if c.session.isNone ∧ s.passed c.since (usTclks s.replLimit) then ((s.setNet fun n => { n with copies := rest }).bump Reg.swcCntReplDrop).raise 0x20 1 else s
    | none => s)

/-- MIRROR_COPY_TIMEOUT (R292, R295): the `i`-th waiting copy, a mirror copy not written within 1 µs, is dropped for want of write
time. -/
def execMirrorCopyTimeout (i : Nat) (s : State) : Host.Outcome State Fault Refusal :=
  .next (
    let (c, rest) := pluck s.net.copies i
    match c with
    | some c =>
      (match c.session with
       | some m => if s.passed c.since (usTclks 1) then (s.setNet fun n => { n with copies := rest }).mirrorDrop m 0 else s
       | none => s)
    | none => s)

/-- PUSHOUT_REPOST (R288): once 1 ms has passed since a port's last PUSHOUT, the evictions and drops since are posted. -/
def execPushoutRepost (port : Fin 8) (s : State) : Host.Outcome State Fault Refusal :=
  .next (
    let p := Tab.get PushSt.init s.net.push port
    if s.spaced p.last || p.evicted + p.dropped = 0 then s else s.pushPost port)

/-! ### The overflow store (R296–R299) and DDR4 (R301) -/

/-- The first frame of a list that satisfies `p` replaced by `f` of it, or removed where `f` gives none. -/
def onFirst (p : QFrame → Bool) (f : QFrame → Option QFrame) : List QFrame → List QFrame
  | [] => []
  | x :: t => if p x then (match f x with
      | some y => y :: t
      | none => t)
    else x :: onFirst p f t

/-- STATUS.STORE_FULL is set until STORE_USED falls below 15/16 of the store's cells (R299). -/
def State.storeFullCheck (s : State) : State :=
  if s.net.storeFull ∧ 16 * s.storeUsed < 15 * s.storeCapacity then s.setNet fun n => { n with storeFull := false } else s

/-- MIGRATION (R297, R299): the oldest marked frame of a queue goes to the store, or is dropped where it has no room. -/
def execMigration (port : Fin 8) (cls : Fin 5) (s : State) : Host.Outcome State Fault Refusal :=
  .next (
    let q := s.queue port cls
    match q.find? fun f => decide (f.place = .marked) with
    | none => s
    | some f =>
      if s.storeUsed + f.cells ≤ s.storeCapacity then
        let s := s.setQueue port cls (onFirst (fun x => decide (x.place = Place.marked)) (fun x => some { x with place := .stored }) q)
        let s := (s.bump (Reg.bufCntSpilled (cls % 8))).setNet fun n => { n with spillMoved := n.spillMoved + 1 }
        let s := if (s.rd Reg.bufStorePeak).toNat < s.storeUsed then s.wr Reg.bufStorePeak (w32 s.storeUsed) else s
        s.spillCheck
      else
        let s := s.setQueue port cls (onFirst (fun x => decide (x.place = Place.marked)) (fun _ => none) q)
        let s := s.bump Reg.bufCntStoreDrop
        let s := if s.net.storeFull then s
          else
            let s := s.setNet fun n => { n with storeFull := true }
            (s.raise 0x21 3).post 0x4B .buf 0 0 (w32 s.storeCapacity) (s.rd Reg.bufCntStoreDrop) 0 0
        s.spillCheck)

/-- STORE_READBACK (R298): the oldest stored frame of a queue is read into the staging area, or discarded on an
uncorrectable DDR4 error. DEDUCED: log entry 53. -/
def execStoreReadback (port : Fin 8) (cls : Fin 5) (ecc : ReadEcc) (s : State) : Host.Outcome State Fault Refusal :=
  .next (
    let q := s.queue port cls
    if q.any fun f => decide (f.place = .stored) then
      let s := s.ddrEcc ecc
      let s := match ecc with
        | .uncorrectable _ _ =>
          (s.bump Reg.bufCntEccDiscard).setQueue port cls
            (onFirst (fun x => decide (x.place = Place.stored)) (fun _ => none) q)
        | _ => s.setQueue port cls
            (onFirst (fun x => decide (x.place = Place.stored)) (fun x => some { x with place := Place.staged }) q)
      s.storeFullCheck
    else s)

/-- STORE_CFG_WRITE (R296): STORE_BASE, or STORE_SIZE with `size`, written only while the store is empty and DDR ready. -/
def execStoreCfgWrite (size : Bool) (v : Word) (s : State) : Host.Outcome State Fault Refusal :=
  .next (
    if s.storeUsed = 0 ∧ s.flag (Reg.status 0x0B) 0 then
      let s := if size then s.wr Reg.bufStoreSize (w32 (bits v 0 13)) else s.wr Reg.bufStoreBase (w32 (bits v 0 12))
      s.setNet fun n => { n with
        bufCfgErr := !s.storeFits && decide (0 < s.fld Reg.bufStoreSize 0 13) }
    else s)

/-- BUF_MARKS_WRITE (R284, BUF registers): FLOORS, or SPILL with `spill`; a write that breaks SPILL_MARK > GEN_FLOOR >
EXP_FLOOR is ignored and sets CFG_ERR. -/
def execBufMarksWrite (spill : Bool) (v : Word) (s : State) : Host.Outcome State Fault Refusal :=
  .next (
    let mark := if spill then bits v 16 16 else s.fld Reg.bufSpill 16 16
    let gen := if spill then s.fld Reg.bufFloors 16 16 else bits v 16 16
    let exp := if spill then s.fld Reg.bufFloors 0 16 else bits v 0 16
    if gen < mark ∧ exp < gen then
      ((s.wr (if spill then Reg.bufSpill else Reg.bufFloors) v).setNet fun n => { n with bufCfgErr := false }).spillCheck
    else s.setNet fun n => { n with bufCfgErr := true })

/-- BUF.STATUS.CFG_ERR is set where the store's region does not fit the fitted DDR4 (R296). -/
def State.storeRegionCheck (s : State) : State :=
  if !s.storeFits && decide (0 < s.fld Reg.bufStoreSize 0 13) then s.setNet fun n => { n with bufCfgErr := true } else s

/-- DDR_TRAINING_DONE (R301): READY, or TRAIN_FAIL with the failing step. The memory trains with its PLL locked (R498). -/
def execDdrTrainingDone (fail : Option (Fin 6)) (s : State) : Host.Outcome State Fault Refusal :=
  .next (
    if s.enabled 0x0B ∧ s.hubUp ∧ !setHas s.clk.unlocked 2 then
      match fail with
      | none => ((s.wr (Reg.status 0x0B) 1).raise 0x0B 0).storeRegionCheck
      | some k => (s.wr (Reg.status 0x0B) (w32 (at_ 4 (k + 1) + 2))).raise 0x0B 1
    else s)

/-- QUIET_PERIOD_END (R242): 12 ms after the reset of the fast-path domain the hub originates frames again, unless it is dying (R481).
DEDUCED: log entry 51. -/
def execQuietPeriodEnd (s : State) : Host.Outcome State Fault Refusal :=
  .next (match s.net.quiet with
    | some t => if s.pwr.dying ∨ s.pwr.seq = 3 ∨ !s.hubUp ∨ !s.passed t (msTclks 12) then s else s.setNet fun n => { n with quiet := none }
    | none => s)

end Sys2Proof.Machine
end

