-- ==== Sys2Proof/Machine/Links.lean ====
section
/-! DEFINITION. Fabric ports: the link state machine (R223–R229), the local side of ring breaks (R264–R266, R271), duplicate
tables (R243–R247), and a received frame's checks, forwarding, delivery and turning (R238–R240, R255, R256, R267–R275). -/

namespace Sys2Proof.Machine

/-! ### Ring management frames and breaks (R262–R266) -/

def State.setRing (s : State) (f : RingSt → RingSt) : State := { s with ring := f s.ring }

/-- The side of the ring that port n belongs to. -/
def State.ringSide (s : State) (port : Nat) : RingSide := if port < 2 then s.ring.home else s.ring.far

def State.setSide (s : State) (port : Nat) (f : RingSide → RingSide) : State :=
  s.setRing fun r => if port < 2 then { r with home := f r.home } else { r with far := f r.far }

/-- Whether port n is a ring port: FP0 and FP1 of a native ring, FP2 and FP3 of a coupler (R267). -/
def State.ringPort (s : State) (n : Nat) : Bool :=
  decide (s.ringMode = 0) && (decide (n < 2) || (decide (n < 4) && s.coupler))

/-- STATUS.STATIONS: the stations heard, the node's own included (R263). -/
def State.stationCount (s : State) : Nat :=
  (if s.ring.home.active then setAdd s.ring.stations (s.nodeId % 256) else s.ring.stations).length

/-- The EUI-64 of the node (R261, R262). -/
def State.eui (s : State) : Nat := (s.rd Reg.ptpClockIdHi).toNat * 2 ^ 32 + (s.rd Reg.ptpClockIdLo).toNat

/-- A ring management payload of `side` (R262). `port` is the port of launch; `b13` and `last` are used by BREAK_NOTICE. -/
def State.mgmtBody (s : State) (kind side port b13 last : Nat) : List Byte :=
  let r := s.ringSide side
  beBytes 1 kind
    ++ beBytes 1 (at_ 7 (b2n s.coupler) + at_ 6 (b2n r.withdrawn) + at_ 5 (b2n r.active) + port)
    ++ beBytes 8 s.eui ++ beBytes 2 (if s.coupler then s.ring.far.id.toNat else 0) ++ beBytes 1 r.st ++ beBytes 1 b13
    ++ beBytes 2 last ++ beBytes 4 0

/-- A RING event and its interrupt bit. -/
def State.ringPost (s : State) (ty irq flags : Nat) (w4 w5 w6 w7 : Word) : State :=
  (s.raise 0x2E irq).post ty .ring 0 flags w4 w5 w6 w7

/-- FAR of the RING events' flags. -/
def farFlag (port : Nat) : Nat := if port < 2 then 0 else 4

/-- A port counts as locally broken with its neighbour silent, or not UP (R265). -/
def State.portOk (s : State) (port : Nat) : Bool := s.portUp port && !setHas s.ring.silent port

/-- CLOSED gives way to BROKEN (R264); true where it did. -/
def State.ringBroken (s : State) (port : Nat) : Bool × State :=
  if (s.ringSide port).st = 1 then
    (true, (s.setSide port fun r => { r with st := 2, good := 0, since := s.tclks }).bump Reg.ringCntBreak)
  else (false, s)

/-- A ring port becomes locally broken: RING_BREAK, a BREAK_NOTICE, and the ring's state (R264, R265). -/
def State.portBroken (s : State) (port cause : Nat) : State :=
  if !s.ringPort port ∨ setHas s.ring.broken port then s
  else
    let s := s.setRing fun r => { r with broken := setAdd r.broken port }
    let last := s.fld (Reg.ringNeighbour port) 0 16
    let s := s.ringPost 0x42 0 (farFlag port) (w32 (at_ 16 (s.sideId (port / 2 * 2)) + at_ 8 cause + port)) (w32 last)
      (w32 s.stationCount) 0
    let s := (s.ringBroken port).2
    s.originateTwo (port / 2 * 2) 6 7 0xFFFF true (fun e => s.mgmtBody 3 port e (at_ 4 cause + port) last) 5

/-- A ring port that is UP and whose neighbour is not silent is no longer locally broken (R265). -/
def State.portHeals (s : State) (port : Nat) : State :=
  if s.portOk port then s.setRing fun r => { r with broken := setDel r.broken port } else s

/-- 0 both ports of a side UP, 1 one, 2 none (R276). -/
def State.sideState (s : State) (port : Nat) : Nat :=
  2 - b2n (s.portUp port) - b2n (s.portUp (port + 1))

/-- A change of a coupler's side posts COUPLER_STATE (R271, R276). DEDUCED: log entry 24. -/
def State.couplerCheck (s : State) : State :=
  let v := at_ 2 (s.sideState 2) + s.sideState 0
  if v = s.ring.sides then s
  else
    let s := s.setRing fun r => { r with sides := v }
    if s.coupler then s.ringPost 0x45 3 0 (w32 v) (w32 s.ring.far.id.toNat) (s.rd Reg.ringCntTurned) 0 else s

/-! ### The link state machine (R227–R229) -/

def State.setLink (s : State) (n : Nat) (f : LinkSt → LinkSt) : State :=
  s.setNet fun net => { net with links := Tab.set LinkSt.init net.links n (f (Tab.get LinkSt.init net.links n)) }

/-- CFG.MODE of a port, 3 acting as 0 (R223). -/
def State.fpMode (s : State) (n : Nat) : Nat := s.fld (Reg.fpCfg n) 0 2 % 3

/-- A port's link moves to a state. -/
def State.linkTo (s : State) (n st : Nat) : State := s.setLink n fun l => { l with st, stAt := s.tclks }

/-- STATUS.MODE_ERR: native framing with MODE 2 (R225). -/
def State.fpModeErr (s : State) (n : Nat) : Bool := s.nativePort n && decide (s.fpMode n = 2)

/-- A failed check of a port's page (R255). -/
def State.fpFail (s : State) (port check item : Nat) (value : Word) (counter : Nat) : State :=
  (s.raise (0x28 + port) 2).qualFail (0x28 + port) check item value counter

/-- The queues of a port that is not UP are emptied and counted; a frame in transmission is lost (R229, R287). -/
def State.emptyPort (s : State) (port : Nat) : State :=
  let n := s.queuedFrames port
  let s := (upFrom 0 8).foldl (fun s c => s.setQueue port c []) s
  ((s.setSending port Sending.init).bumpBy (Reg.fpCntTxDiscardDown port) n).spillCheck.storeFullCheck

/-- A move to HOLD from TRAINING, LOCKING or CHECKING: CNT_LINK_FAIL and check 0x0407 (R227, R255). -/
def State.linkFail (s : State) (port cause : Nat) : State :=
  (s.linkTo port 5).fpFail port 0x0407 port (w32 cause) (Reg.fpCntLinkFail port)

/-- UP left with a cause for HOLD (5) or DISABLED (0): LINK_DOWN, the queues, and the ring (R227–R229, R257, R265). -/
def State.linkLeaveUp (s : State) (port cause dest : Nat) : State :=
  let ms := s.msSince (s.link port).since
  let s := (s.setLink port fun l => { l with st := dest, lastCause := cause, since := s.tclks, stAt := s.tclks, errs := [] }).bump
    (Reg.fpCntLinkDown port)
  let s := (s.raise (0x28 + port) 1).post 0x41 .fp port 0 (w32 cause) (w32 ms) (s.rd (Reg.fpCntLinkDown port)) 0
  ((s.emptyPort port).portBroken port cause).couplerCheck

/-- Where a link starts: TRAINING in MODE 0 with TRAIN_EN = 1, otherwise LOCKING (R227). -/
def State.linkStart (s : State) (port : Nat) : State :=
  s.setLink port fun l => { l with
    st := if s.fpMode port = 0 ∧ s.flag (Reg.fpCfg port) 4 then 1 else 2, stAt := s.tclks, fecActive := false, blockLock := false }

/-- A write of an FP page's CTRL.EN (R225, R227). -/
def State.fpEnable (s : State) (port : Nat) (en : Bool) : State :=
  let st := (s.link port).st
  if en then (if st = 0 ∧ !s.fpModeErr port then s.linkStart port else s)
  else if st = 4 then s.linkLeaveUp port 0 0
  else s.linkTo port 0

/-- A port that a reset left DISABLED with EN = 1 starts its link (R227). DEDUCED: log entry 51. -/
def State.linkBegin (s : State) (port : Nat) : State :=
  if (s.link port).st = 0 ∧ s.enabled (0x28 + port) ∧ s.hubUp then s.fpEnable port true else s

/-- The time a link has been in its state has reached a number of milliseconds. -/
def State.linkWaited (s : State) (port ms : Nat) : Bool := s.passed (s.link port).stAt (msTclks ms)

/-- TRAINING_COMPLETE (R226, R227): the partner's answer on FEC, which auto-negotiation offers, and the equaliser settings found. -/
def execTrainingComplete (port : Fin 4) (fec : Bool) (txeq rxeq : Word) (s : State) : Host.Outcome State Fault Refusal :=
  .next (
    let s := s.linkBegin port
    if (s.link port).st = 1 ∧ s.serdesRuns then
      let s := s.setLink port fun l => { l with
        st := 2, stAt := s.tclks, fecActive := fec && s.flag (Reg.fpCfg port) 6 && s.flag (Reg.fpCfg port) 5 }
      (s.wr (Reg.fpTxeq port) (w32 (bits txeq 0 18))).wr (Reg.fpRxeq port) (w32 (bits rxeq 0 16))
    else s)

/-- TRAINING_TIMEOUT (R227): cause 7, after 500 ms. -/
def execTrainingTimeout (port : Fin 4) (s : State) : Host.Outcome State Fault Refusal :=
  .next (
    let s := s.linkBegin port
    if (s.link port).st = 1 ∧ s.linkWaited port 500 then s.linkFail port 7 else s)

/-- BLOCK_LOCK_ACQUIRED (R227). -/
def execBlockLockAcquired (port : Fin 4) (s : State) : Host.Outcome State Fault Refusal :=
  .next (
    let s := s.linkBegin port
    if (s.link port).st = 2 ∧ s.serdesRuns then
      s.setLink port fun l => { l with st := 3, stAt := s.tclks, blockLock := true, hiBer := false, signal := true, rxRf := false, rxLf := false }
    else s)

/-- LOCKING_TIMEOUT (R227): cause 8, after 100 ms. -/
def execLockingTimeout (port : Fin 4) (s : State) : Host.Outcome State Fault Refusal :=
  .next (
    let s := s.linkBegin port
    if (s.link port).st = 2 ∧ s.linkWaited port 100 then s.linkFail port 8 else s)

/-- TIMERS.UP_HOLD in ms, 0 acting as 1. -/
def State.upHold (s : State) (port : Nat) : Nat :=
  let n := s.fld (Reg.fpTimers port) 0 16
  if n = 0 then 1 else n

/-- UP_HOLD_EXPIRY (R227, R257): UP_HOLD ms in CHECKING. DESIGN CHOICE: log entry 1. -/
def execUpHoldExpiry (port : Fin 4) (s : State) : Host.Outcome State Fault Refusal :=
  .next (if (s.link port).st = 3 ∧ s.linkWaited port (s.upHold port) then
      let l := s.link port
      let ms := s.msSince l.since
      let s := s.setLink port fun l => { l with st := 4, since := s.tclks, stAt := s.tclks, errs := [] }
      let s := (s.raise (0x28 + port) 0).post 0x40 .fp port 0 (w32 (at_ 4 (b2n l.fecActive) + s.fpMode port)) (w32 ms)
        (s.rd (Reg.fpCntLinkFail port)) 0
      (s.portHeals port).couplerCheck
    else s)

/-- The cause code of a down condition (R228). -/
def LinkDownCode (c : LinkDown) : Nat :=
  match c with
  | .signal => 1
  | .blockLock => 2
  | .hiBer => 3
  | .localFault => 4
  | .remoteFault => 5
  | .degraded => 6

/-- The condition as STATUS shows it. -/
def linkCondition (c : LinkDown) (l : LinkSt) : LinkSt :=
  match c with
  | .signal => { l with signal := false, blockLock := false }
  | .blockLock => { l with blockLock := false }
  | .hiBer => { l with hiBer := true }
  | .localFault => { l with rxLf := true }
  | .remoteFault => { l with rxRf := true }
  | .degraded => l

/-- A port degraded (R256). -/
def State.degrade (s : State) (port : Nat) : State :=
  ((s.bump (Reg.fpCntDegrade port)).raise (0x28 + port) 3).linkLeaveUp port 6 5

/-- A port in UP is degraded: ERR_DOWN, and more than ERR_LIMIT failures within 1 ms (R256). -/
def State.degraded (s : State) (port : Nat) : Bool :=
  s.flag (Reg.fpCfg port) 8 && decide (s.fld (Reg.fpErrLimit port) 0 16 < ((s.link port).errs.filter fun t => !s.passed t (msTclks 1)).length)

/-- HOLD_DOWN_EXPIRY (R227): HOLD_DOWN ms in HOLD. -/
def execHoldDownExpiry (port : Fin 4) (s : State) : Host.Outcome State Fault Refusal :=
  .next (if (s.link port).st = 5 ∧ s.linkWaited port (s.fld (Reg.fpTimers port) 16 16) then s.linkStart port else s)

/-- FP_CHECK_CLEAR (R255, R540): after 1 s without a failure a check of a port's page clears for every item it stands failed for.
DEDUCED: log entry 11. -/
def execFpCheckClear (port : Fin 4) (check : Nat) (s : State) : Host.Outcome State Fault Refusal :=
  .next (
    let c := s.check (0x28 + port) check
    if s.passed c.failAt (msTclks 1000) then c.standing.foldl (fun s i => s.qualClear (0x28 + port) check i 0) s else s)

/-! ### Duplicate tables (R243–R246) -/

/-- How a frame is judged (R243). -/
inductive DupVerdict where
  | accept
  | marked
  | behind
deriving DecidableEq, Repr

/-- A window that has accepted only sequence `q`. -/
def DupWin.first (q : BitVec 16) : DupWin := ⟨q, 1⟩

/-- Sequence `q` judged against a window (R243). -/
def DupWin.judge (w : DupWin) (q : BitVec 16) : DupVerdict × DupWin :=
  let d := (q - w.high).toInt
  if 0 < d then (.accept, ⟨q, (w.marks <<< d.toNat) ||| 1⟩)
  else if -255 ≤ d then
    let m : BitVec 256 := 1#256 <<< (-d).toNat
    if w.marks &&& m = 0 then (.accept, { w with marks := w.marks ||| m }) else (.marked, w)
  else (.behind, w)

/-- What a judgement did to the table: an aged entry restarted, and a source evicted. -/
structure DupEffect where
  resync : Bool
  evicted : Option Nat
deriving DecidableEq, Repr

/-- The source whose entry a new one takes in a full table: the aged entry idle longest, otherwise the entry idle longest
(R246); true for an eviction. DEDUCED: log entry 52. -/
def DupTab.victim (t : DupTab) : Option (Nat × Bool) :=
  let oldest := fun (onlyAged : Bool) => t.ents.foldl (fun (acc : Option (Nat × Nat)) e =>
    match e.2 with
    | none => acc
    | some x =>
      if onlyAged && !x.aged then acc
      else match acc with
        | none => some (e.1, x.order)
        | some (_, o) => if x.order < o then some (e.1, x.order) else acc) none
  match oldest true with
  | some (k, _) => some (k, false)
  | none => (oldest false).map fun e => (e.1, true)

/-- A frame of a source, class and sequence judged, and the table after (R243, R245, R246). -/
def DupTab.judge (t : DupTab) (now src cls : Nat) (seq : BitVec 16) : DupVerdict × DupTab × DupEffect :=
  let put := fun (ents : Tab (Option DupEnt)) (e : DupEnt) (eff : DupEffect) =>
    (DupVerdict.accept, ({ ents := Tab.set none ents src (some e), order := t.order + 1 } : DupTab), eff)
  match Tab.get none t.ents src with
  | none =>
    let e : DupEnt := ⟨Tab.set none [] cls (some (DupWin.first seq)), false, t.order, now⟩
    if t.ents.length < 4096 then put t.ents e ⟨false, none⟩
    else match t.victim with
      | some (k, ev) => put (Tab.drop t.ents k) e ⟨false, if ev then some k else none⟩
      | none => put t.ents e ⟨false, none⟩
  | some e =>
    if e.aged then put t.ents ⟨Tab.set none [] cls (some (DupWin.first seq)), false, t.order, now⟩ ⟨true, none⟩
    else match Tab.get none e.wins cls with
      | none => put t.ents { e with wins := Tab.set none e.wins cls (some (DupWin.first seq)), order := t.order, seen := now } ⟨false, none⟩
      | some w =>
        match w.judge seq with
        | (.accept, w) => put t.ents { e with wins := Tab.set none e.wins cls (some w), order := t.order, seen := now } ⟨false, none⟩
        | (v, _) => (v, t, ⟨false, none⟩)

/-- A frame offered for delivery judged against the node's duplicate table, counted on its port (R243–R246). -/
def State.dupAccept (s : State) (port src cls seq : Nat) : Bool × State :=
  let (v, t, e) := s.net.dup.judge s.tclks src cls (BitVec.ofNat 16 seq)
  let s := s.setNet fun n => { n with dup := t }
  let s := if e.resync then s.bump (Reg.fpCntDupResync 0) else s
  let s := match e.evicted with
    | some k => ((s.raise 0x28 4).raise 0x28 2).qualFail 0x28 0x0408 src (w32 k) (Reg.fpCntDupEvict 0)
    | none => s
  match v with
  | .accept => (true, s)
  | .marked => (false, s.bump (Reg.fpCntDup port))
  | .behind => (false, s.bump (Reg.fpCntSeqStale port))

/-- A frame judged against the headland table (R269). -/
def State.headlandAccept (s : State) (src cls seq : Nat) : Bool × State :=
  let (v, t, e) := s.net.headland.judge s.tclks src cls (BitVec.ofNat 16 seq)
  let s := s.setNet fun n => { n with headland := t }
  let s := match e.evicted with
    | some k => (s.raise 0x2E 4).qualFail 0x2E 0x0503 src (w32 k) Reg.ringCntHlEvict
    | none => s
  (decide (v = .accept), s)

/-- DUP_ENTRY_AGE (R245, R269): an entry of the duplicate or the headland table without an accepted frame for 10 ms ages. -/
def execDupEntryAge (headland : Bool) (src : BitVec 16) (s : State) : Host.Outcome State Fault Refusal :=
  .next (
    let age := fun (t : DupTab) =>
      match Tab.get none t.ents src.toNat with
      | some e => if s.passed e.seen (msTclks 10) then { t with ents := Tab.set none t.ents src.toNat (some { e with aged := true }) } else t
      | none => t
    s.setNet fun n => if headland then { n with headland := age n.headland } else { n with dup := age n.dup })

/-! ### Checks of a received native frame (R240, R255) -/

/-- Whether a type may carry a class (R234). -/
def typeClassOk (type cls : Nat) : Bool :=
  match type with
  | 1 => decide (cls = 5 ∨ cls = 7)
  | 2 => decide (cls = 2 ∨ cls = 4)
  | 3 => decide (cls = 2 ∨ cls = 4)
  | 4 => decide (cls = 2 ∨ cls = 4)
  | 5 => decide (cls = 3)
  | 6 => decide (cls = 6)
  | 7 => decide (cls = 6)
  | 9 => decide (cls ≤ 1)
  | _ => false

/-- The header passes check 0x0403. DEDUCED: log entry 19. -/
def headerOk (b : List Byte) : Bool :=
  hdrCheckOk b && decide (hdrVersion b = 1) && decide (hdrExpress b = decide (6 ≤ hdrClass b))
    && typeClassOk (hdrType b) (hdrClass b)
    && (!hdrGroup b || decide (hdrDest b ≤ 0x0FFF ∨ 0xFFFE ≤ hdrDest b))
    && decide (beAt b 26 2 = 0) && decide (byteAt b 20 % 32 = 0)

/-- The length passes check 0x0402. DEDUCED: log entry 19. -/
def lengthOk (b : List Byte) : Bool :=
  let n := frameLen b
  decide (64 ≤ n ∧ n ≤ 2048 ∧ hdrLen b ≤ 2014) && decide (n = if 34 + hdrLen b < 64 then 64 else 34 + hdrLen b)

/-- A frame that failed checks 0x0401–0x0403 enters the 1 ms window; too many degrade the link (R256). -/
def State.noteError (s : State) (port : Nat) : State :=
  let s := s.setLink port fun l => { l with errs := s.tclks :: l.errs.filter fun t => decide (s.tclks < t + 25000) }
  if (s.link port).st = 4 ∧ s.degraded port then s.degrade port else s

/-- A frame discarded by a check that counts towards degradation. -/
def State.fpFailNoted (s : State) (port check : Nat) (value : Word) (counter : Nat) : State :=
  (s.fpFail port check port value counter).noteError port

/-! ### Forwarding, turning, delivery -/

/-- Whether a copy for egress port `e` is sent cut-through (R248, R289). -/
def State.cutThrough (s : State) (e cls : Nat) : Bool := decide (6 ≤ cls) || s.flag (Reg.swcFwd e) cls

/-- Whether a cut-through copy of a frame that came in on a port has begun by its last byte: the egress port is UP and not sending what
the frame cannot preempt, the frame's own queue is empty, and the ingress is not slower than the egress (R250, R289; log entry 18). -/
def State.begun (s : State) (ingress e cls : Nat) : Bool :=
  let x := s.sendingAt e
  s.portUp e && s.cutThrough e cls && decide (s.queue e cls = []) && x.express.isNone
    && (x.normal.isNone || (decide (6 ≤ cls) && s.nativePort e && s.flag (Reg.fpCfg e) 7))
    && (!s.slowPort ingress || s.slowPort e)

/-- A copy already begun of a frame whose FCS fails is stomped; one not begun is discarded (R249, R289). Its sending is mirrored, with
the stomp (R294). -/
def State.stompAt (s : State) (e : Nat) (f : QFrame) : State :=
  if s.begun f.ingress e f.cls then
    ((s.bump (Reg.fpCntTxFrames e)).bump (Reg.fpCntTxStomp e)).mirror e false { f with stomp := true }
  else s

/-- Every copy begun of a frame stomped, each at its egress port. -/
def State.stompAll (s : State) (outs : List (Nat × QFrame)) : State := outs.foldl (fun s o => s.stompAt o.1 o.2) s

/-- A frame whose FCS is not good, at its last byte (R240, R249, R255). -/
def State.badFcs (s : State) (port : Nat) (fcs : FcsEnd) (outs : List (Nat × QFrame)) : State :=
  let s := s.stompAll outs
  if fcs = .stomped then s.bump (Reg.fpCntRxStomp port)
  else s.fpFailNoted port 0x0401 0 (Reg.fpCntRxFcs port)

/-- A group's membership (R293). -/
def State.inGroup (s : State) (g : Nat) : Bool := s.flag (Reg.swcGroup (g / 32)) (g % 32)

/-- Unicast to an active ID of this node (R239, R260, R267). -/
def State.unicastHere (s : State) (b : List Byte) : Bool :=
  !hdrGroup b &&
    ((s.ring.home.active && decide (hdrDest b = s.nodeId))
      || (s.coupler && s.ring.far.active && decide (hdrDest b = s.ring.far.id.toNat)))

/-- A link-local frame (R241). -/
def isLinkLocal (b : List Byte) : Bool := hdrGroup b && decide (hdrDest b = 0xFFFE)

/-- Whether a frame that arrived on `port` is offered for local delivery (R239, R260). -/
def State.offered (s : State) (port : Nat) (b : List Byte) : Bool :=
  s.unicastHere b
    || (hdrGroup b && s.sideActive (port / 2 * 2) && (decide (hdrDest b = 0xFFFF) || s.inGroup (hdrDest b)))

/-- Whether a frame's source is an active ID of this node (R238, R260, R267). -/
def State.ownSource (s : State) (b : List Byte) : Bool :=
  (s.ring.home.active && decide (hdrSource b = s.nodeId))
    || (s.coupler && s.ring.far.active && decide (hdrSource b = s.ring.far.id.toNat))

/-- The side a frame that arrived on `port` would be turned into: 2 far, 0 home. -/
def otherSide (port : Nat) : Nat := if port < 2 then 2 else 0

/-- The destination is one that the other side reaches (R268): its ring in the route map, or its group in the group map. -/
def State.turnsTo (s : State) (port : Nat) (b : List Byte) : Bool :=
  let d := hdrDest b
  if hdrGroup b then
    decide (d ≤ 0x0FFF) && s.flag (if port < 2 then Reg.ringFarGroup (d / 32) else Reg.ringHomeGroup (d / 32)) (d % 32)
  else
    let r := d / 256
    s.flag (if port < 2 then Reg.ringFarRoute (r / 32) else Reg.ringHomeRoute (r / 32)) (r % 32)

/-- A turned copy of a frame for egress port `e` (R270). -/
def turnedTo (b : List Byte) (port e : Nat) (rx : Option TimePoint) : QFrame :=
  { mkQFrame (turned b (decide (e % 2 = 1))) (hdrClass b) port true with rxTime := rx }

/-- The egress ports out of which an express frame is turned cut-through, before its FCS is known (R268–R270): the headland table would
accept it. DEDUCED: log entry 18. -/
def State.turnOuts (s : State) (port : Nat) (b : List Byte) : List (Nat × QFrame) :=
  let e := otherSide port
  let (v, _, _) := s.net.headland.judge s.tclks (hdrSource b) (hdrClass b) (BitVec.ofNat 16 (hdrSeq b))
  if s.coupler ∧ 6 ≤ hdrClass b ∧ s.turnsTo port b ∧ hdrSource b / 256 ≠ s.sideId e / 256 ∧ v = .accept then
    [(e, turnedTo b port e none), (e + 1, turnedTo b port (e + 1) none)]
  else []

/-- The copies of a native frame that may be sent cut-through (R248, R270, R289). DEDUCED: log entry 18. -/
def State.cutOuts (s : State) (port : Nat) (b : List Byte) : List (Nat × QFrame) :=
  if isLinkLocal b then []
  else
    let e := port / 2 * 2 + 1 - port % 2
    (if s.unicastHere b then [] else [(e, mkQFrame (forwarded b) (hdrClass b) port true)]) ++ s.turnOuts port b

/-- An eligible frame turned into the other ring (R268–R270): judged against the headland table unless it was on arrival,
sent out of both ports of the other side as further copies. -/
def State.turnFrame (s : State) (port : Nat) (b : List Byte) (judged : Bool) (rx : Option TimePoint) : State :=
  if !s.coupler ∨ !s.turnsTo port b then s
  else if hdrSource b / 256 = s.sideId (otherSide port) / 256 then
    (if hdrCoupled b then s.bump Reg.ringCntTurnBack else s)
  else
    let (ok, s) := if judged then (true, s) else s.headlandAccept (hdrSource b) (hdrClass b) (hdrSeq b)
    if !ok then s.bump Reg.ringCntTurnDup
    else
      let e := otherSide port
      let c := fun (e : Nat) => PendingCopy.mk (turnedTo b port e rx) e none s.tclks
      (s.bump Reg.ringCntTurned).setNet fun n => { n with copies := n.copies ++ [c e, c (e + 1)] }

/-- A Sync as it is delivered: the ingress peer link delay is in its correctionField (R66, R278). -/
def State.ptpDelivered (s : State) (f : QFrame) : QFrame :=
  if f.native ∧ hdrType f.bytes = 6 ∧ ptpType (ptpBytes f.bytes) = 0 then { f with bytes := addCorrection f.bytes (s.ingressDelay f.ingress) } else f

/-- A local copy put into the buffer, as the primary where there is none and otherwise as a further copy (R279, R291). -/
def State.localCopy (s : State) (f : QFrame) (primary : Bool) : State :=
  if primary then s.takeFrame (s.deliverPort f) f
  else s.setNet fun n => { n with copies := n.copies ++ [⟨f, s.deliverPort f, none, s.tclks⟩] }

/-- Local delivery of an accepted frame (R278, R279, R291): ring management to RING, classes 6 and 7 by the tap, the rest
through the buffer. -/
def State.deliver (s : State) (f : QFrame) (primary : Bool) : State :=
  if hdrType f.bytes = 7 ∨ 6 ≤ f.cls then s.handOver (s.deliverPort f) (s.ptpDelivered f) else s.localCopy f primary

/-- What a good native frame does beyond its checks: forwarding, turning and delivery (R238, R239, R268–R270). -/
def State.passFrame (s : State) (port : Nat) (b : List Byte) (judged : Bool) : State :=
  let rx := if hdrType b = 6 then some (s.sfdRx port (frameLen b) s.now) else none
  let f := { mkQFrame b (hdrClass b) port true with rxTime := rx }
  let s := s.mirror port true f
  if isLinkLocal b then s.deliver f true
  else
    let here := s.unicastHere b
    let s := if here then s else s.takeFrame (port / 2 * 2 + 1 - port % 2) { f with bytes := forwarded b }
    let s := s.turnFrame port b judged rx
    if s.offered port b then
      let (ok, s) := s.dupAccept port (hdrSource b) (hdrClass b) (hdrSeq b)
      if ok then s.deliver f here else s
    else s

/-- A good frame received at a fabric port copied by the mirror sessions, whatever becomes of it after its checks (R294).
DEDUCED: log entry 51. -/
def State.mirrorRx (s : State) (port : Nat) (w : WireFrame) (native : Bool) : State :=
  if w.fcs = .good then s.mirror port true (mkQFrame w.bytes (if native then hdrClass w.bytes else 1) port native) else s

/-- A Layer 2 PTP frame given to PTP with its receive time (R65, R66). -/
def State.ptpFrame (s : State) (port : Nat) (b : List Byte) : State :=
  s.setNet fun n => { n with toTime := n.toTime ++ [⟨port, b, s.sfdRx port (frameLen b) s.now⟩] }

/-- A frame received on a port in native mode (R238–R240, R255, R269). DEDUCED: log entry 18. -/
def State.receiveNative (s : State) (port : Nat) (w : WireFrame) : State :=
  let b := w.bytes
  let cls := hdrClass b
  if etherType b ≠ 0x88B5 then
    (if etherType b = 0x88F7 ∧ 2 ≤ port ∧ s.flag (Reg.ptpPortCfg port) 2 then
      (if w.fcs = .good then (s.mirrorRx port w false).ptpFrame port b else s.badFcs port w.fcs [])
     else s.fpFail port 0x0405 port (w32 (etherType b)) (Reg.fpCntRxForeign port))
  else if !lengthOk b then s.fpFailNoted port 0x0402 (w32 (frameLen b)) (Reg.fpCntRxLength port)
  else if !headerOk b then s.fpFailNoted port 0x0403 (w32 (beAt b 14 4)) (Reg.fpCntRxHeader port)
  else if hdrPath b = decide (port % 2 = 1) then
    s.fpFail port 0x0404 port (w32 (b2n (hdrPath b))) (Reg.fpCntRxPath port)
  else
    let judge := s.coupler && hdrCoupled b && decide (w.fcs = .good) && !isLinkLocal b
    let (ok, s) := if judge then s.headlandAccept (hdrSource b) cls (hdrSeq b) else (true, s)
    if !ok then (s.mirrorRx port w true).bump Reg.ringCntTurnStrip
    else if s.ownSource b then
      let s := s.mirrorRx port w true
      let s := if hdrType b = 7 ∧ w.fcs = .good then
          s.setNet fun n => { n with toRing := n.toRing ++ [⟨port, b, s.now⟩] }
        else s
      s.bump (Reg.fpCntStripped port)
    else if hdrHop b = 0 then
      s.fpFail port 0x0406 (hdrSource b) (w32 (hdrDest b)) (Reg.fpCntHopExpired port)
    else if w.fcs ≠ .good then
      s.badFcs port w.fcs (s.cutOuts port b)
    else s.passFrame port b judge

/-! ### HSR and PRP (R274, R275) -/

/-- The node's own address in the compatibility modes, taken as that of R231. PRESUMED: log entry 20. -/
def State.ownMac (s : State) : Nat := 0x02AF1A000000 + s.nodeId

/-- EntryForgetTime of 400 ms in TCLK periods. -/
def forgetTclks : Nat := 10000000

/-- Whether a source and sequence were seen within EntryForgetTime. -/
def seenBefore (l : List (Nat × Nat × Nat)) (now src seq : Nat) : Bool :=
  l.any fun e => decide (e.1 = src ∧ e.2.1 = seq ∧ now < e.2.2 + forgetTclks)

def remember (l : List (Nat × Nat × Nat)) (now src seq : Nat) : List (Nat × Nat × Nat) :=
  (src, seq, now) :: l.filter fun e => decide (now < e.2.2 + forgetTclks)

/-- A plain frame delivered: PTP to the CPU's PTP, supervision consumed, the rest to the host or CPU port as class 1, a further copy
where the frame is forwarded too (R291). -/
def State.deliverPlain (s : State) (port : Nat) (b : List Byte) (primary : Bool) : State :=
  if etherType b = 0x88F7 then s.ptpFrame port b
  else if etherType b = 0x88FB then s
  else s.localCopy (mkQFrame b 1 port false) primary

/-- A frame addressed to a group, or to this node (R274). PRESUMED: log entry 20. -/
def State.forMe (s : State) (b : List Byte) : Bool := decide (byteAt b 0 % 2 = 1) || decide (beAt b 0 6 = s.ownMac)

/-- The copy of an HSR frame forwarded on the ring (R274). -/
def State.hsrForwards (s : State) (port : Nat) (b : List Byte) : Bool :=
  decide (etherType b = 0x892F) && decide (beAt b 6 6 ≠ s.ownMac) && decide (beAt b 0 6 ≠ s.ownMac)
    && !seenBefore s.net.hsr s.tclks (beAt b 6 6 + 2 ^ 48 * (1 + port)) (beAt b 16 2)

/-- A frame received in HSR mode H (IEC 62439-3 Clause 5): delivered once, forwarded unless it is this node's own or
addressed to it, and never forwarded twice in one direction. PRESUMED: log entry 20. -/
def State.receiveHsr (s : State) (port : Nat) (b : List Byte) : State :=
  if etherType b ≠ 0x892F then (if etherType b = 0x88F7 then s.deliverPlain port b true else s)
  else
    let src := beAt b 6 6
    let seq := beAt b 16 2
    let now := s.tclks
    if src = s.ownMac then s.bump (Reg.fpCntStripped port)
    else
      let fwd := s.hsrForwards port b
      let s := if fwd then
          (s.setNet fun n => { n with hsr := remember n.hsr now (src + 2 ^ 48 * (1 + port)) seq }).takeFrame (1 - port)
            (mkQFrame b 1 port false)
        else s
      if seenBefore s.net.hsr now src seq then s.bump Reg.ringCntHsrDup
      else
        let s := s.setNet fun n => { n with hsr := remember n.hsr now src seq }
        if s.forMe b then s.deliverPlain port (b.take 12 ++ b.drop 18) (!fwd) else s

/-- A redundancy control trailer: its suffix, its LSDU size, with a VLAN tag counted or not, and a LAN identifier (Clause 4).
PRESUMED: log entry 20. -/
def prpTrailer (b : List Byte) : Bool :=
  let n := b.length
  let lan := beAt b (n - 4) 2
  decide (20 ≤ n) && decide (beAt b (n - 2) 2 = 0x88FB) && decide (lan / 4096 = 0xA ∨ lan / 4096 = 0xB)
    && decide (lan % 4096 + 14 = n ∨ (etherType b = 0x8100 ∧ lan % 4096 + 18 = n))

/-- A frame received by the DANP (Clause 4): the redundancy trailer removed, second copies discarded. PRESUMED: log entry 20. -/
def State.receivePrp (s : State) (port : Nat) (b : List Byte) : State :=
  let n := b.length
  if prpTrailer b then
    let src := beAt b 6 6
    let seq := beAt b (n - 6) 2
    if seenBefore s.net.prp s.tclks src seq then s.bump Reg.ringCntPrpDup
    else (s.setNet fun m => { m with prp := remember m.prp s.tclks src seq }).deliverPlain port (b.take (n - 6)) true
  else s.deliverPlain port b true

/-- The copy of a frame on an HSR port that may be sent cut-through, once 64 bytes are present (R289). -/
def State.plainOuts (s : State) (port : Nat) (b : List Byte) : List (Nat × QFrame) :=
  if port < 2 ∧ 60 ≤ b.length ∧ s.hsrForwards port b then [(1 - port, mkQFrame b 1 port false)] else []

/-- A native frame, as far as it has come, whose header passes the checks that precede forwarding (R240, R289). -/
def State.headerPasses (s : State) (port : Nat) (b : List Byte) : Bool :=
  decide (etherType b = 0x88B5) && headerOk b && decide (hdrPath b ≠ decide (port % 2 = 1)) && !s.ownSource b && decide (hdrHop b ≠ 0)

/-- A frame partly received when its port leaves UP: discarded, and stomped on the copies of it already begun (R229, R249, R289).
DEDUCED: log entry 18. -/
def State.cutFrame (s : State) (port : Nat) (b : List Byte) : State :=
  if s.nativePort port then (if s.headerPasses port b then s.stompAll (s.cutOuts port b) else s) else s.stompAll (s.plainOuts port b)

/-- LINK_DOWN_CONDITION (R227–R229, R249): a down condition, with the bytes of the frame then being received, where there is one.
DEDUCED: log entry 18. -/
def execLinkDownCondition (port : Fin 4) (event : DownEvent) (s : State) : Host.Outcome State Fault Refusal :=
  .next (
    let st := (s.link port).st
    let cause := event.cause
    if cause = .degraded then (if st = 4 ∧ s.degraded port then s.degrade port else s)
    else
      let s := s.setLink port (linkCondition cause)
      if st = 4 then (match event.cut with
        | some b => s.cutFrame port b
        | none => s).linkLeaveUp port (LinkDownCode cause) 5
      else if st = 3 then s.linkFail port (LinkDownCode cause)
      else s)

/-- FRAME_RECEIVE (R229, R240): a frame ends at a fabric port. A port that is not UP discards it. -/
def execFrameReceive (port : Fin 4) (w : WireFrame) (s : State) : Host.Outcome State Fault Refusal :=
  .next (
    if !s.portUp port then s
    else
      let s := s.bump (Reg.fpCntRxFrames port)
      if s.nativePort port then s.receiveNative port w
      else if etherType w.bytes = 0x88B5 then
        s.fpFail port 0x0405 port (w32 0x88B5) (Reg.fpCntRxForeign port)
      else if w.fcs ≠ .good then s.badFcs port w.fcs (s.plainOuts port w.bytes)
      else
        let s := s.mirror port true (mkQFrame w.bytes 1 port false)
        if port.val < 2 then s.receiveHsr port w.bytes
        else if s.prpOn then s.receivePrp port w.bytes
        else s)

/-- PRBS_ERR_READ (R10, R36): a read of PRBS_ERR through IND_DATA returns the count into the read data and clears it.
DEDUCED: log entry 51. -/
def State.prbsRead (s : State) (port : Nat) : Word × State :=
  (s.rd (Reg.fpPrbsErr port), s.wr (Reg.fpPrbsErr port) 0)

/-- PRBS_ERR_READ (R10): the count is returned and cleared. -/
def execPrbsErrRead (port : Fin 4) (s : State) : Host.Outcome State Fault Refusal :=
  .next ((s.prbsRead port).2.answered (s.prbsRead port).1)

end Sys2Proof.Machine
end

