-- ==== Sys2Proof/Machine/Ring.lean ====
section
/-! DEFINITION. The RING block: node identity, ring management frames, supervision and ring state (R258–R266, R274). What a port's
own break does is in Links.lean. -/

namespace Sys2Proof.Machine

/-! ### Node identity (R258–R261, R267) -/

/-- A change to OPEN (R264). -/
def RingSide.open (r : RingSide) (now : Nat) : RingSide :=
  { r with st := 0, since := if r.st = 1 then now else r.since, sent := false, good := 0, missed := 0 }

/-- An ID taken out of use (R259); the change of the ring's state to OPEN posts RING_BREAK (R264). DEDUCED: log entry 24. -/
def State.idDrop (s : State) (far : Bool) : State :=
  let port := if far then 2 else 0
  let s := if (s.ringSide port).st = 0 then s
    else s.ringPost 0x42 0 (farFlag port) (w32 (at_ 16 (s.sideId port))) 0 (w32 s.stationCount) 0
  let s := s.setSide port fun r => { r.open s.tclks with active := false, idPending := false }
  if far then s else s.wr Reg.ringNodeId 0

/-- The ID that ID_CFG or FAR_ID gives (R258, R267). -/
def State.idConfigured (s : State) (far : Bool) : Nat :=
  if far then s.fld Reg.ringFarId 0 16
  else
    let c := s.rd Reg.ringIdCfg
    256 * bits c 8 8 + (if bit c 30 then bits c 0 8 else s.fld Reg.ringStrap 0 8)

/-- A write of ID_CFG or FAR_ID (R259): ignored while VALID = 1, except that VALID written 0 takes the ID out of use; VALID written
1 starts the 12 ms of activation and clears WITHDRAWN (R261). -/
def State.idWrite (s : State) (far : Bool) (v : Word) : State :=
  let key := if far then Reg.ringFarId else Reg.ringIdCfg
  let v := if far then v &&& 0x8000FFFF#32 else v &&& 0xC000FFFF#32
  if s.flag key 31 then (if bit v 31 then s else (s.wr key v).idDrop far)
  else
    let s := s.wr key v
    if bit v 31 then
      (s.setSide (if far then 2 else 0) fun r => { r with withdrawn := false, idPending := true, pendAt := s.tclks }).setRing fun r =>
        if far then { r with farConflicts := [] } else { r with conflicts := [] }
    else s

/-- ID_CFG_WRITE (R259). -/
def execIdCfgWrite (v : Word) (s : State) : Host.Outcome State Fault Refusal := .next (s.idWrite false v)

/-- FAR_ID_WRITE (R259, R267). -/
def execFarIdWrite (v : Word) (s : State) : Host.Outcome State Fault Refusal := .next (s.idWrite true v)

/-- ID_ACTIVATE (R259): 12 ms after VALID was written the ID is in use, and the home ID's activation publishes the DYING signal with value 0 (R209). -/
def execIdActivate (far : Bool) (s : State) : Host.Outcome State Fault Refusal :=
  .next (
    let port := if far then 2 else 0
    if (s.ringSide port).idPending ∧ s.passed (s.ringSide port).pendAt (msTclks 12) then
      let id := s.idConfigured far
      let s := s.setSide port fun r => { r with active := true, idPending := false, id := BitVec.ofNat 16 id }
      if far then s else (s.wr Reg.ringNodeId (w32 id)).pubDying 0
    else s)

/-! ### Sending (R263, R274) -/

/-- A periodic sending is due: none yet, or `n` TCLK periods since the last. -/
def State.sendDue (s : State) (last : Option Nat) (n : Nat) : Bool :=
  match last with
  | none => true
  | some t => s.passed t n

/-- NEIGHBOUR_SEND (R263): every 1 ms out of each ring port that is UP. DESIGN CHOICE: log entry 9. -/
def execNeighbourSend (s : State) : Host.Outcome State Fault Refusal :=
  .next (
    if s.sendDue s.ring.neighbourAt (msTclks 1) then
      (upFrom 0 4).foldl (fun s p =>
        if s.ringPort p && s.portUp p then s.sendLinkLocal p 7 (s.mgmtBody 1 p p 0 0) else s)
        (s.setRing fun r => { r with neighbourAt := some s.tclks })
    else s)

/-- SUP_PERIOD in TCLK periods: 0 acting as 1 ms, above 1,000 as 1,000. -/
def State.supPeriod (s : State) : Nat :=
  let n := s.fld Reg.ringCfg 16 16
  msTclks (if n = 0 then 1 else capAt 1000 n)

/-- SUPERVISION_SEND (R263, R264): every SUP_PERIOD ms; a frame of which a copy has not returned by now has missed its period. -/
def execSupervisionSend (far : Bool) (s : State) : Host.Outcome State Fault Refusal :=
  .next (
    let port := if far then 2 else 0
    let r := s.ringSide port
    if r.active ∧ s.ringPort port ∧ s.sendDue r.sentAt s.supPeriod then
      let s := if r.sent then s.setSide port fun r => { r with missed := r.missed + 1, good := 0, sent := false } else s
      if s.net.quiet.isSome then s
      else
        let seq := Tab.get 0 s.net.seqs 6
        (s.originateOn port 6 7 0xFFFF true (s.mgmtBody 2 port 0 0 0) 5).setSide port fun r =>
          { r with sent := true, sentSeq := seq, sentAt := some s.tclks, backWest := false, backEast := false }
    else s)

/-- A supervision frame of IEC 62439-3: version 1, its sequence, the node's address, TLV type `ty`. PRESUMED: log entry 25. -/
def supBody (ty seq mac : Nat) : List Byte :=
  beBytes 2 1 ++ beBytes 2 seq ++ beBytes 1 ty ++ beBytes 1 6 ++ beBytes 6 mac ++ beBytes 2 0

/-- HSR_SUPERVISION_SEND (R242, R274): every 2 s a supervision frame out of both ports of the HSR ring, tagged, or of the PRP pair, with
the redundancy trailer. PRESUMED: log entry 25. -/
def execHsrSupervisionSend (s : State) : Host.Outcome State Fault Refusal :=
  .next (
    let s' := s.setRing fun r => { r with lifeAt := some s.tclks }
    let dst := beBytes 6 0x01154E000100 ++ beBytes 6 s.ownMac
    let pad (b : List Byte) : List Byte := b ++ beBytes (60 - b.length) 0
    if s.net.quiet.isSome ∨ !s.sendDue s.ring.lifeAt (msTclks 2000) then s
    else if s.ringMode ≠ 0 then
      let q := s.net.hsrSeq.toNat
      let f (path : Nat) := pad (dst ++ beBytes 2 0x892F ++ beBytes 2 (at_ 12 path + 52) ++ beBytes 2 q ++ beBytes 2 0x88FB
        ++ supBody 23 q s.ownMac)
      let s := s'.setNet fun n => { n with hsrSeq := n.hsrSeq + 1 }
      (s.takeFrame 0 (mkQFrame (f 0) 1 5 false)).takeFrame 1 (mkQFrame (f 1) 1 5 false)
    else if s.prpOn then
      let q := s.net.prpSeq.toNat
      let f (lan : Nat) := pad (dst ++ beBytes 2 0x88FB ++ supBody 20 q s.ownMac)
        ++ beBytes 2 q ++ beBytes 2 (at_ 12 lan + 52) ++ beBytes 2 0x88FB
      let s := s'.setNet fun n => { n with prpSeq := n.prpSeq + 1 }
      (s.takeFrame 2 (mkQFrame (f 0xA) 1 5 false)).takeFrame 3 (mkQFrame (f 0xB) 1 5 false)
    else s)

/-! ### Receiving (R261–R265) -/

/-- A payload that meets R262 where this section requires zeros (R263). DEDUCED: log entry 52. -/
def mgmtOk (b : List Byte) : Bool :=
  let p := payload b
  let kind := byteAt p 0
  let f := byteAt p 1
  decide (hdrLen b = 20) && decide (p.length = 20) && decide (1 ≤ kind) && decide (kind ≤ 3) && decide (f / 4 % 8 = 0)
    && (decide (kind ≠ 2) || decide (f % 4 = 0)) && (f.testBit 7 || decide (beAt p 10 2 = 0))
    && (if kind = 3 then decide (byteAt p 13 / 4 % 4 = 0) else decide (beAt p 13 3 = 0)) && decide (beAt p 16 4 = 0)

/-- OPEN or BROKEN becomes CLOSED once CLOSE_COUNT consecutive own frames have both copies back and no port is locally broken
(R264, R276). -/
def State.tryClose (s : State) (port : Nat) : State :=
  let r := s.ringSide port
  let base := port / 2 * 2
  let need := if s.fld Reg.ringCfg 12 4 = 0 then 1 else s.fld Reg.ringCfg 12 4
  if r.st ≠ 1 ∧ need ≤ r.good ∧ s.portOk base ∧ s.portOk (base + 1) then
    let ms := s.msSince r.since
    (s.setSide port fun r => { r with st := 1 }).ringPost 0x43 1 (farFlag port) (w32 ms) (w32 s.stationCount) 0 0
  else s

/-- An own SUPERVISION frame returns on a port: the East copy on FP1, the West copy on FP0 (R264). DEDUCED: log entry 24. -/
def State.supReturn (s : State) (port seq : Nat) : State :=
  let r := s.ringSide port
  if r.sent ∧ r.sentSeq = seq then
    let s := s.setSide port fun r =>
      if port % 2 = 1 then { r with backEast := true } else { r with backWest := true }
    let r := s.ringSide port
    if r.backEast ∧ r.backWest then
      (s.setSide port fun r => { r with sent := false, good := r.good + 1, missed := 0 }).tryClose port
    else s
  else s

/-- A frame with the node's own ID of that side and another EUI-64 (R261, R267): the node with the higher one withdraws. A conflict is
reported and counted once for each ID and EUI-64 until the ID is written again. DEDUCED: log entry 24. -/
def State.idConflict (s : State) (port other : Nat) : State :=
  if other ∈ (if port < 2 then s.ring.conflicts else s.ring.farConflicts) then s
  else
    let s := (s.setRing fun r =>
      if port < 2 then { r with conflicts := other :: r.conflicts } else { r with farConflicts := other :: r.farConflicts }).bump
        Reg.ringCntConflict
    let leave := decide (other < s.eui)
    let s := s.ringPost 0x44 2 (b2n leave) (w32 (s.sideId (port / 2 * 2))) (w32 (other / 2 ^ 32)) (w32 other) 0
    if leave then
      let key := if port < 2 then Reg.ringIdCfg else Reg.ringFarId
      ((s.setFld key 31 1 0).idDrop (decide (2 ≤ port))).setSide port fun r => { r with withdrawn := true }
    else s

/-- A NEIGHBOUR frame heard on a port (R263, R265). -/
def State.neighbourHeard (s : State) (port src : Nat) : State :=
  let s := (s.wr (Reg.ringNeighbour (port % 4)) (w32 (2 ^ 31 + src))).setRing fun r =>
    { r with heardAt := Tab.set 0 r.heardAt port s.tclks }
  let s := if setHas s.ring.silent port then
      (s.setRing fun r => { r with silent := setDel r.silent port }).qualClear 0x2E 0x0502 port (w32 src)
    else s
  s.portHeals port

/-- A BREAK_NOTICE makes a CLOSED ring BROKEN (R264, R276). -/
def State.noticeHeard (s : State) (port src : Nat) (p : List Byte) : State :=
  let (was, s) := s.ringBroken port
  if was then
    s.ringPost 0x42 0 (1 + farFlag port) (w32 (at_ 16 src + at_ 8 (byteAt p 13 / 16) + byteAt p 13 % 4)) (w32 (beAt p 14 2))
      (w32 s.stationCount) 0
  else s

/-- RING_MGMT_RECEIVE (R261–R265): the oldest ring management frame delivered to RING. DEDUCED: log entry 52. -/
def execRingMgmtReceive (s : State) : Host.Outcome State Fault Refusal :=
  .next (match s.net.toRing with
    | [] => s
    | d :: rest =>
      let s := s.setNet fun n => { n with toRing := rest }
      let p := payload d.bytes
      let src := hdrSource d.bytes
      let port := d.port
      let side := port / 2 * 2
      if !mgmtOk d.bytes then (s.raise 0x2E 4).qualFail 0x2E 0x0501 src (w32 (byteAt p 0)) Reg.ringCntMgmtBad
      else if s.sideActive side ∧ src = s.sideId side ∧ (byteAt p 1).testBit 5 then
        if beAt p 2 8 ≠ s.eui then s.idConflict port (beAt p 2 8)
        else if byteAt p 0 = 2 then s.supReturn port (hdrSeq d.bytes)
        else s
      else match byteAt p 0 with
        | 1 => s.neighbourHeard port src
        | 2 => if (byteAt p 1).testBit 5 ∧ port < 2 then s.setRing fun r => { r with
              stations := setAdd r.stations (src % 256), stationAt := Tab.set 0 r.stationAt (src % 256) s.tclks }
            else s
        | _ => s.noticeHeard port src p)

/-- The TCLK count from which a port's silence runs: its last NEIGHBOUR frame, or without one its last move into or out of UP or the
reset. -/
def State.heardAt (s : State) (port : Nat) : Nat := Tab.get (s.link port).since s.ring.heardAt port

/-- NEIGHBOUR_SILENT (R265): no NEIGHBOUR frame on a ring port for 3 ms, whether it is UP or not; a port that is UP becomes locally
broken. DEDUCED: log entry 24. -/
def execNeighbourSilent (port : Fin 4) (s : State) : Host.Outcome State Fault Refusal :=
  .next (
    if s.ringPort port ∧ !setHas s.ring.silent port ∧ s.hubUp ∧ s.passed (s.heardAt port) (msTclks 3) then
      let last := s.fld (Reg.ringNeighbour port) 0 16
      let s := s.setRing fun r => { r with silent := setAdd r.silent port }
      let s := s.setFld (Reg.ringNeighbour (port % 4)) 31 1 0
      let s := (s.raise 0x2E 4).qualFail 0x2E 0x0502 port (w32 last) Reg.ringCntSilent
      if s.portUp port then s.portBroken port 9 else s
    else s)

/-- STATION_TIMEOUT (R263): three supervision periods without a station's frame. -/
def execStationTimeout (n : BitVec 8) (s : State) : Host.Outcome State Fault Refusal :=
  .next (
    if s.passed (Tab.get 0 s.ring.stationAt n.toNat) (3 * s.supPeriod) then s.setRing fun r => { r with stations := setDel r.stations n.toNat }
    else s)

/-- SUPERVISION_MISSED (R264): the second consecutive own frame of which a copy has not returned within one period.
DEDUCED: log entry 24. -/
def execSupervisionMissed (far : Bool) (s : State) : Host.Outcome State Fault Refusal :=
  .next (
    let port := if far then 2 else 0
    let r := s.ringSide port
    if 2 ≤ r.missed + b2n (r.sent && s.sendDue r.sentAt s.supPeriod) ∧ r.st = 1 then
      let s := (s.ringBroken port).2
      s.ringPost 0x42 0 (2 + farFlag port) (w32 (at_ 16 (s.sideId port))) 0 (w32 s.stationCount) 0
    else s)

end Sys2Proof.Machine
end

