-- ==== Sys2Proof/Machine/Ptp.lean ====
section
/-! DEFINITION. Time sources: PTP messages, the grandmaster's selection and peer delays (R65–R70), PPS and IRIG-B (R71, R72,
R390, R391). PTP messages are laid out as IEEE 1588-2019 gives them (log entry 26). -/

namespace Sys2Proof.Machine

def State.setPtp (s : State) (f : PtpSt → PtpSt) : State := { s with ptp := f s.ptp }

/-! ### Messages -/

/-- Lengths of the messages. PRESUMED: log entry 26. -/
def ptpLength (ty : Nat) : Nat := if ty = 0xB then 64 else if ty = 0 ∨ ty = 8 then 44 else 54

/-- The acting ROLE of a port (PORT_CFGn): boundary only on FP2 and FP3. -/
def State.ptpRole (s : State) (p : Nat) : Nat :=
  let r := s.fld (Reg.ptpPortCfg p) 0 2
  if r = 3 ∨ (r = 2 ∧ p < 2) then 0 else r

/-- Well formed, of this domain, its correctionField from 0 to 1 s (R70). TLVs may follow the message's body, and are ignored (R65).
PRESUMED: log entry 26. -/
def State.ptpGood (s : State) (m : List Byte) : Bool :=
  decide (ptpLength (ptpType m) ≤ beAt m 2 2) && decide (beAt m 2 2 ≤ m.length) && decide (byteAt m 1 % 16 = 2)
    && decide (byteAt m 4 = s.fld Reg.ptpCfg 8 8) && decide (0 ≤ ptpCorrection m)
    && decide (ptpCorrection m ≤ 65536000000000)

/-- A message that fails qualification (R70). -/
def State.ptpBad (s : State) : State := (s.bump Reg.ptpCntBad).raise 0x11 2

/-- The first delivered message that `p` accepts, taken from those that wait; messages of a port whose ROLE is 0 are dropped.
DEDUCED: log entry 38. -/
def State.ptpTake (s : State) (p : Delivered → Bool) : Option Delivered × State :=
  match s.net.toTime.find? p with
  | some d =>
    let s := s.setNet fun n => { n with toTime := n.toTime.erase d }
    (if s.ptpRole d.port = 0 then none else some d, s)
  | none => (none, s)

/-! ### The grandmaster's selection (R69) -/

/-- CLOCK_ID. -/
def State.clockId (_s : State) : Nat := Config.otpEui64 % 2 ^ 64

/-- The clockClass that follows from the node's own quality code (R69). -/
def State.ownClass (s : State) : Nat :=
  if !s.flag Reg.ptpCfg 0 then 255
  else
    let st := s.timeState
    let src := s.time.quality.toNat % 4
    if st = 0 ∧ (src = 1 ∨ src = 2) then 6 else if st = 1 then 7 else if st = 2 then 187 else 248

/-- The node's own dataset; its accuracy and variance are those of an unknown clock. PRESUMED: log entry 26. -/
def State.ownMaster (s : State) : PtpMaster :=
  { source := s.clockId, port := 4, prio1 := s.fld Reg.ptpPrio 0 8, cls := s.ownClass, accuracy := 0xFE, variance := 0xFFFF,
    prio2 := s.fld Reg.ptpPrio 8 8, gm := s.clockId, steps := 0, utc := s.rd Reg.ptpUtc,
    heard := [] }

/-- The order in which datasets compare. PRESUMED: log entry 26. -/
def PtpMaster.key (m : PtpMaster) : List Nat :=
  [m.prio1, m.cls, m.accuracy, m.variance, m.prio2, m.gm, m.steps, m.source]

/-- Lexicographic comparison: a is better than b. -/
def keyBetter : List Nat → List Nat → Bool
  | a :: x, b :: y => decide (a < b) || (decide (a = b) && keyBetter x y)
  | _, _ => false

def bestMaster (l : List PtpMaster) : Option PtpMaster :=
  l.foldl (fun b m => match b with
    | some x => if keyBetter m.key x.key then some m else some x
    | none => some m) none

/-- A master that the algorithm may choose: two Announce messages within 4 s, or chosen already, and fewer than 255 steps removed (R65,
R69). PRESUMED: log entry 26. -/
def State.masterQualified (s : State) (m : PtpMaster) : Bool :=
  (decide (2 ≤ (m.heard.filter fun t => !s.passed t (msTclks 4000)).length) || s.ptp.parent.any fun x => decide (x.1 = m.source))
    && decide (m.steps < 255)

/-- A node whose own clockClass is 127 or less is passive where another is better: it follows no master (R69). PRESUMED: log entry
26. PRESUMED: log entry 26. -/
def State.ptpFollows (s : State) (m : PtpMaster) : Bool := decide (m.source ≠ s.clockId) && decide (127 < s.ownClass)

/-- The algorithm run over the Announce messages received and the own dataset of a grandmaster-capable node; GM_CHANGE where the
grandmaster's identity changes (R69, R76). A slave-only node that hears no master keeps what it has. DEDUCED: log entry 38. -/
def State.ptpSelect (s : State) : State :=
  let all := s.ptp.masters.filter s.masterQualified ++ (if s.flag Reg.ptpCfg 0 then [s.ownMaster] else [])
  match bestMaster all with
  | none => s.setPtp fun p => { p with parent := none }
  | some m =>
    let old := (s.rd Reg.ptpCurGmHi).toNat * 2 ^ 32 + (s.rd Reg.ptpCurGmLo).toNat
    let hi := w32 (m.gm / 2 ^ 32)
    let lo := w32 m.gm
    let parent := if s.ptpFollows m then some (m.source, m.port) else none
    let s := if parent = s.ptp.parent then s
      else s.setPtp fun p => { p with
        parent, lost := false, annTimeouts := 0, heardSync := s.tclks, heardAnn := s.tclks, inRow := 0, twoStep := none }
    let s := ((s.wr Reg.ptpCurGmHi hi).wr Reg.ptpCurGmLo lo).wr Reg.ptpGmInfo
      (w32 (at_ 16 m.prio1 + at_ 8 m.accuracy + m.cls))
    let s := s.wr Reg.ptpUtc m.utc
    if old = m.gm then s
    else (s.raise 0x11 0).post 0x13 .ptp 0 0 hi lo (w32 m.cls) (w32 (at_ 16 (old % 65536)))

/-- The dataset of an Announce message. PRESUMED: log entry 26. -/
def announced (m : List Byte) (port : Nat) (heard : List Nat) : PtpMaster :=
  let f := byteAt m 7
  { source := ptpSource m, port, heard, prio1 := byteAt m 47, cls := byteAt m 48, accuracy := byteAt m 49, variance := beAt m 50 2,
    prio2 := byteAt m 52, gm := beAt m 53 8, steps := beAt m 61 2,
    utc := w32 (at_ 18 (b2n (f.testBit 1)) + at_ 17 (b2n (f.testBit 0)) + at_ 16 (b2n (f.testBit 2)) + beAt m 44 2) }

/-- ANNOUNCE_RECEIVE (R69). -/
def execAnnounceReceive (s : State) : Host.Outcome State Fault Refusal :=
  .next (match s.ptpTake fun d => decide (ptpType (ptpBytes d.bytes) = 0xB) with
    | (some d, s) =>
      let m := ptpBytes d.bytes
      if !s.ptpGood m then s.ptpBad
      else if ptpSource m = s.clockId then s
      else
        let s := s.bump Reg.ptpCntAnnounce
        let mine := s.ptp.parent.any fun x => decide (x.1 = ptpSource m)
        let old := ((s.ptp.masters.find? fun x => decide (x.source = ptpSource m)).map fun x => x.heard).getD []
        let heard := s.tclks :: old.filter fun t => !s.passed t (msTclks 4000)
        let s := s.setPtp fun p => { p with
          masters := (p.masters.filter fun x => decide (x.source ≠ ptpSource m)) ++ [announced m d.port heard],
          annTimeouts := if mine then 0 else p.annTimeouts, heardAnn := if mine then s.tclks else p.heardAnn }
        s.ptpSelect
    | (none, s) => s)

/-- The steward on the loss of the source that disciplines the node, by its source bits: LOCKED becomes HOLDOVER, with U as it stands
(R57). DEDUCED: log entry 38. -/
def State.sourceGone (s : State) (src : Nat) : State :=
  let s := s.setPtp fun p => { p with inRow := 0 }
  if s.timeState = 0 ∧ s.time.quality.toNat % 4 = src then s.stateSet (BitVec.ofNat 4 (4 + src)) s.uncNs else s

/-- SOURCE_LOST of the PTP page (R70–R72, R76). -/
def State.sourceLost (s : State) (source : Nat) (good : TimePoint) : State :=
  (s.raise 0x11 1).post 0x14 .ptp 0 0 (w32 (at_ 16 0xFFFF + source)) good.sec (w32 good.ns) 0

/-- ANNOUNCE_RECEIPT_TIMEOUT (R65, R70): 3 s without an Announce of the chosen master; after three in a row the PTP source is lost, and its master is no longer considered.
DEDUCED: log entry 38. -/
def execAnnounceReceiptTimeout (s : State) : Host.Outcome State Fault Refusal :=
  .next (match s.ptp.parent with
    | none => s
    | some (src, _) =>
      if !s.passed s.ptp.heardAnn (msTclks 3000) then s
      else
      let s := (s.bump Reg.ptpCntAnnTimeout).setPtp fun p => { p with heardAnn := s.tclks }
      if s.ptp.annTimeouts < 2 then s.setPtp fun p => { p with annTimeouts := p.annTimeouts + 1 }
      else
        let s := if s.ptp.lost then s else (s.sourceLost 0 s.ptp.lastGood).sourceGone 0
        let s := s.setPtp fun p => { p with
          masters := p.masters.filter fun x => decide (x.source ≠ src), annTimeouts := 0, lost := false, twoStep := none,
          parent := none }
        s.ptpSelect)

/-- LOG_SYNC; 4–7 act as 3. -/
def State.logSync (s : State) : Nat := capAt 3 (s.fld Reg.ptpCfg 16 3)

/-- The sync interval in TCLK periods (R65). -/
def State.syncTclks (s : State) : Nat := msTclks 1000 / 2 ^ s.logSync

/-- SYNC_TIMEOUT (R70): four sync intervals without a valid Sync. -/
def execSyncTimeout (s : State) : Host.Outcome State Fault Refusal :=
  .next (if s.ptp.parent.isSome ∧ !s.ptp.lost ∧ s.passed s.ptp.heardSync (4 * s.syncTclks) then
      ((s.setPtp fun p => { p with lost := true }).sourceLost 0 s.ptp.lastGood).sourceGone 0
    else s)

/-! ### Sync and Follow_Up (R65, R70) -/

/-- The clockAccuracy code in ps, above 255 ns as 255 ns (R58). PRESUMED: log entry 26. -/
def accuracyPs (code : Nat) : Nat :=
  match code with
  | 0x17 => 1
  | 0x18 => 3
  | 0x19 => 10
  | 0x1A => 25
  | 0x1B => 100
  | 0x1C => 250
  | 0x1D => 1000
  | 0x1E => 2500
  | 0x1F => 10000
  | 0x20 => 25000
  | 0x21 => 100000
  | 0x22 => 250000
  | _ => 255000

/-- U of a LOCKED node: the ceiling of 10 + 0.2 h + |o| + a, in ns, saturating (R58). -/
def lockedUnc (h : Nat) (o : Int) (a : Nat) : Nat := capAt 255 ((10000 + 200 * h + 1000 * o.natAbs + a + 999) / 1000)

/-- LOCK_COUNT, 0 acting as 1. -/
def State.lockCount (s : State) : Nat :=
  let n := s.fld Reg.timeLockThresh 16 4
  if n = 0 then 1 else n

/-- One update of the servo by an offset o in ns, from source bits `src` over h intermediate nodes, the grandmaster's accuracy a in ps
(R57, R58, R70): LOCK_COUNT offsets in a row within LOCK_THRESH, none beyond the step limit, lock the node; a LOCKED node's U follows
each update. The correction itself is the steward's ADJ_PHASE. DEDUCED: log entry 38. -/
def State.servoOffset (s : State) (src : Nat) (o : Int) (h a : Nat) : State :=
  let ok := decide (o.natAbs ≤ s.fld Reg.timeLockThresh 0 16) && decide (o.natAbs ≤ s.fld Reg.timeStepLimit 0 30)
  let n := if ok then capAt 16 (s.ptp.inRow + 1) else 0
  let s := s.setPtp fun p => { p with inRow := n }
  if s.timeState = 0 ∨ s.lockCount ≤ n then s.stateSet (BitVec.ofNat 4 src) (lockedUnc h o a) else s

/-- The intermediate nodes on a Sync's path: the hops its native frame has taken (R58, R232). -/
def ptpHops (b : List Byte) : Nat := if etherType b = 0x88B5 then 255 - hdrHop b else 0

/-- A PTP timestamp as a fabric time. -/
def ptpStamp (m : List Byte) : TimePoint := ⟨BitVec.ofNat 32 (beAt m 36 4), beAt m 40 4⟩

/-- The correction of a Layer 2 Sync for the link it came by; a native one holds it already (R66, R278). -/
def State.linkCorrection (s : State) (d : Delivered) : Int := if etherType d.bytes = 0x88B5 then 0 else s.ingressDelay d.port

/-- One servo update from the chosen master: the offset of receive time `rx` from the origin time in `m`, less the correction `cf` in
2^−16 ns (R70). -/
def State.servoUpdate (s : State) (m : List Byte) (rx : TimePoint) (cf : Int) (h : Nat) : State :=
  let o := (timeDiff rx (ptpStamp m) * 65536 - cf).fdiv 65536
  let a := ((s.ptp.masters.find? fun x => s.ptp.parent.any fun y => decide (y.1 = x.source)).map fun x => accuracyPs x.accuracy).getD 255000
  let s := (s.bump Reg.ptpCntSync).setPtp fun p => { p with lost := false, twoStep := none, lastGood := s.now, heardSync := s.tclks }
  s.servoOffset 0 o h a

/-- A message of the chosen master. -/
def State.fromParent (s : State) (m : List Byte) : Bool := s.ptp.parent.any fun x => decide (x.1 = ptpSource m)

/-- Messages that other rows take: Pdelay_Req, Pdelay_Resp, Follow_Up, Pdelay_Resp_Follow_Up, Announce. -/
def ptpOther (ty : Nat) : Bool := ty == 2 || ty == 3 || ty == 8 || ty == 0xA || ty == 0xB

/-- SYNC_RECEIVE (R70): a one-step Sync is a servo update; a two-step one, on a boundary clock port only, awaits its Follow_Up
(R65). A message of no supported type is discarded. DEDUCED: log entry 38. -/
def execSyncReceive (s : State) : Host.Outcome State Fault Refusal :=
  .next (match s.ptpTake fun d => !ptpOther (ptpType (ptpBytes d.bytes)) with
    | (some d, s) =>
      let m := ptpBytes d.bytes
      if ptpType m ≠ 0 then s
      else if !s.ptpGood m || !s.fromParent m || (ptpTwoStep m && decide (s.ptpRole d.port ≠ 2)) then s.ptpBad
      else
        let cf := ptpCorrection m + s.linkCorrection d
        if ptpTwoStep m then s.setPtp fun p => { p with twoStep := some (ptpSeq m, d.time, cf), heardSync := s.tclks }
        else s.servoUpdate m d.time cf (ptpHops d.bytes)
    | (none, s) => s)

/-- FOLLOW_UP_RECEIVE (R65): the Follow_Up of the awaited Sync, on a boundary clock port. DEDUCED: log entry 38. -/
def execFollowUpReceive (s : State) : Host.Outcome State Fault Refusal :=
  .next (match s.ptpTake fun d => decide (ptpType (ptpBytes d.bytes) = 8) with
    | (some d, s) =>
      let m := ptpBytes d.bytes
      if !s.ptpGood m || !s.fromParent m || decide (s.ptpRole d.port ≠ 2) then s.ptpBad
      else match s.ptp.twoStep with
        | some (q, rx, cf) => if q = ptpSeq m then s.servoUpdate m rx (cf + ptpCorrection m) (ptpHops d.bytes) else s
        | none => s
    | (none, s) => s)

/-! ### Sending (R67–R69) -/

/-- A message's header, from port p (R65). PRESUMED: log entry 26. -/
def State.ptpHeader (s : State) (ty p seq log flags : Nat) : List Byte :=
  beBytes 1 ty ++ beBytes 1 2 ++ beBytes 2 (ptpLength ty) ++ beBytes 1 (s.fld Reg.ptpCfg 8 8) ++ beBytes 1 0
    ++ beBytes 2 flags ++ beBytes 8 0 ++ beBytes 4 0 ++ beBytes 8 s.clockId ++ beBytes 2 (p + 1) ++ beBytes 2 seq
    ++ beBytes 1 (if ty = 0 then 0 else 5) ++ beBytes 1 log

/-- The current time as a timestamp. -/
def State.ptpNow (s : State) : List Byte := ptpTime s.now (s.time.sec.toNat / 2 ^ 32)

/-- A Sync or Announce body (R65, R69). PRESUMED: log entry 26. -/
def State.ptpBody (s : State) (announce : Bool) (p : Nat) : List Byte :=
  if announce then
    let u := s.rd Reg.ptpUtc
    let gm := (s.rd Reg.ptpCurGmHi).toNat * 2 ^ 32 + (s.rd Reg.ptpCurGmLo).toNat
    let i := s.rd Reg.ptpGmInfo
    let f := 8 + b2n (bit u 17) + 2 * b2n (bit u 18) + 4 * b2n (bit u 16)
    let m := match s.ptp.masters.find? (fun x => s.ptp.parent.any fun y => decide (y.1 = x.source)) with
      | some x => x
      | none => { s.ownMaster with steps := 2 ^ 16 - 1 }
    s.ptpHeader 0xB p s.ptp.annSeq.toNat 0 f ++ s.ptpNow ++ beBytes 2 (bits u 0 16) ++ beBytes 1 0 ++ beBytes 1 (bits i 16 8)
      ++ beBytes 1 (bits i 0 8) ++ beBytes 1 (bits i 8 8) ++ beBytes 2 m.variance ++ beBytes 1 m.prio2 ++ beBytes 8 gm
      ++ beBytes 2 ((m.steps + 1) % 65536) ++ beBytes 1 0xA0
  else s.ptpHeader 0 p s.ptp.syncSeq.toNat ((256 - s.logSync) % 256) 0 ++ s.ptpNow

/-- An untagged frame of the Layer 2 mapping. PRESUMED: log entry 26. -/
def State.ptpL2 (s : State) (dst : Nat) (body : List Byte) : List Byte :=
  let f := beBytes 6 dst ++ beBytes 6 s.ownMac ++ beBytes 2 0x88F7 ++ body
  f ++ beBytes (60 - f.length) 0

/-- A message's frame in HSR, with the tag of one path (R65, R274). PRESUMED: log entries 20 and 26. -/
def State.ptpHsr (s : State) (path : Nat) (body : List Byte) : List Byte :=
  let tail := beBytes 2 0x88F7 ++ body ++ beBytes (46 - body.length) 0
  beBytes 6 0x011B19000000 ++ beBytes 6 s.ownMac ++ beBytes 2 0x892F ++ beBytes 2 (at_ 12 path + (tail.length + 4))
    ++ beBytes 2 s.net.hsrSeq.toNat ++ tail

/-- A PTP frame outside the native encapsulation, from SP5 (R65, R294). -/
def State.ptpRaw (s : State) (p : Nat) (b : List Byte) : State :=
  let f := { mkQFrame b 6 5 false with rxTime := some s.now }
  (s.mirrorIn 6 5 f).takeFrame p f

/-- A port carries PTP in the native encapsulation: a native port without PORT_CFG.L2 (R65). -/
def State.ptpNative (s : State) (p : Nat) : Bool := s.nativePort p && !s.flag (Reg.ptpPortCfg p) 2

/-- A message sent link-locally by one port, in the mapping of the port (R65, R67). -/
def State.ptpLinkLocal (s : State) (p : Nat) (body : List Byte) : State :=
  if s.ptpNative p then s.sendLinkLocal p 6 body else s.ptpRaw p (s.ptpL2 0x0180C200000E body)

/-- Sync or Announce sent on one side of the node: dual-sent in a native ring, tagged in HSR, in the Layer 2 mapping elsewhere (R65, R67,
R274); none in the 12 ms after a reset (R242). -/
def State.ptpSide (s : State) (announce : Bool) (side : Nat) : State :=
  let raw (s : State) (p : Nat) : State := s.ptpRaw p (s.ptpL2 0x011B19000000 (s.ptpBody announce p))
  if s.net.quiet.isSome then s
  else if side = 0 then
    if s.ringMode ≠ 0 then
      let b := s.ptpBody announce 0
      ((s.ptpRaw 0 (s.ptpHsr 0 b)).ptpRaw 1 (s.ptpHsr 1 b)).setNet fun n => { n with hsrSeq := n.hsrSeq + 1 }
    else s.originateOn 0 6 6 0xFFFF true (s.ptpBody announce 0) 5
  else
    let ports := [2, 3].filter fun p => decide (s.ptpRole p = 2)
    let l2 := ports.filter fun p => s.flag (Reg.ptpPortCfg p) 2 || !s.coupler
    let s := l2.foldl raw s
    if l2.length < ports.length then s.originateOn 2 6 6 0xFFFF true (s.ptpBody announce 2) 5 else s

/-- SYNC_SEND (R65, R67–R69): Sync every sync interval, or Announce every second. A grandmaster sends on both sides; a boundary clock on the side it does not take its
time from. -/
def execSyncSend (announce : Bool) (s : State) : Host.Outcome State Fault Refusal :=
  .next (
    let s := if s.flag Reg.ptpCfg 0 then s.ptpSelect else s
    let boundary := decide (s.ptpRole 2 = 2) || decide (s.ptpRole 3 = 2)
    let done (s : State) : State := s.setPtp fun p =>
      if announce then { p with annSeq := p.annSeq + 1, annAt := some s.tclks }
      else { p with syncSeq := p.syncSeq + 1, syncAt := some s.tclks }
    let due := if announce then s.sendDue s.ptp.annAt (msTclks 1000) else s.sendDue s.ptp.syncAt s.syncTclks
    let gm := (s.rd Reg.ptpCurGmHi).toNat * 2 ^ 32 + (s.rd Reg.ptpCurGmLo).toNat
    if !due then s
    else match s.ptp.parent with
    | none =>
      if s.flag Reg.ptpCfg 0 && decide (gm = s.clockId) then
        let s := s.ptpSide announce 0
        done (if boundary then s.ptpSide announce 2 else s)
      else s
    | some (_, p) => if boundary then done (s.ptpSide announce (if p < 2 then 2 else 0)) else s)

/-! ### Peer delay (R67) -/

/-- PDELAY_REQ_SEND (R67): once per second from each port; a request still unanswered is counted. A native port sends none without an
active ID (R260). -/
def execPdelayReqSend (s : State) : Host.Outcome State Fault Refusal :=
  .next (
    if !s.sendDue s.ptp.pdelayAt (msTclks 1000) then s
    else
    let s := s.setPtp fun p => { p with pdelaySeq := p.pdelaySeq + 1, pdelayAt := some s.tclks }
    (upFrom 0 4).foldl (fun s p =>
      if s.ptpRole p ≠ 0 ∧ s.portUp p ∧ (s.ptpNative p → s.sideActive (p / 2 * 2)) then
        let s := if setHas s.ptp.asked p then s.bump Reg.ptpCntPdelayFail else s
        let body := s.ptpHeader 2 p s.ptp.pdelaySeq.toNat 0 0 ++ s.ptpNow ++ beBytes 10 0
        (s.setPtp fun x => { x with asked := setAdd x.asked p, resps := Tab.set none x.resps p none }).ptpLinkLocal p body
      else s) s)

/-- PDELAY_REQ_RECEIVE (R67): answered with Pdelay_Resp and Pdelay_Resp_Follow_Up. -/
def execPdelayReqReceive (s : State) : Host.Outcome State Fault Refusal :=
  .next (match s.ptpTake fun d => decide (ptpType (ptpBytes d.bytes) = 2) with
    | (some d, s) =>
      let m := ptpBytes d.bytes
      if !s.ptpGood m then s.ptpBad
      else
        let hi := s.time.sec.toNat / 2 ^ 32
        let who := (m.drop 20).take 10
        let s := s.ptpLinkLocal d.port (s.ptpHeader 3 d.port (ptpSeq m) 0x7F 0x0200 ++ ptpTime d.time hi ++ who)
        s.ptpLinkLocal d.port (s.ptpHeader 0xA d.port (ptpSeq m) 0x7F 0 ++ s.ptpNow ++ who)
    | (none, s) => s)

/-- PDELAYn: the mean of the exchanges, less ASYMn (in ps), in 2^−8 ns (R67). -/
def State.pdelayMean (s : State) (p : Nat) (l : List Int) : Word :=
  let asym := (BitVec.ofNat 16 (s.fld (Reg.ptpAsym p) 0 16)).toInt
  wOfInt ((l.foldl (· + ·) 0).fdiv l.length - (asym * 256).fdiv 1000)

/-- An exchange of a port completes with a delay of `x` in 2^−16 ns of round trip less turnaround (R67). -/
def State.pdelayDone (s : State) (p : Fin 4) (x : Int) : State :=
  let l := (x.fdiv 512 :: Tab.get [] s.ptp.delays p).take 16
  (s.setPtp fun y => { y with
    asked := setDel y.asked p, resps := Tab.set none y.resps p none, delays := Tab.set [] y.delays p l }).wr (Reg.ptpPdelay p)
      (s.pdelayMean p l)

/-- A Pdelay_Resp or Pdelay_Resp_Follow_Up taken at a port (R67, R70): the answer to its outstanding request. The exchange is complete
with a one-step response, or with the Follow_Up of a two-step one: the delay is half of t4 − t1 less t3 − t2 and the correctionFields.
PRESUMED: log entry 26. -/
def State.pdelayTake (s : State) (p : Fin 4) (d : Delivered) : State :=
  let m := ptpBytes d.bytes
  let t1 := Tab.get ⟨0, 0⟩ s.ptp.txReq p
  if !s.ptpGood m then s.ptpBad
  else if !setHas s.ptp.asked p ∨ ptpSeq m ≠ s.ptp.pdelaySeq.toNat ∨ beAt m 44 8 ≠ s.clockId ∨ beAt m 52 2 ≠ p + 1 then s
  else if ptpType m = 3 then
    if ptpTwoStep m then
      s.setPtp fun x => { x with resps := Tab.set none x.resps p (some ⟨ptpSeq m, ptpStamp m, d.time, ptpCorrection m⟩) }
    else s.pdelayDone p (timeDiff d.time t1 * 65536 - ptpCorrection m)
  else match Tab.get none s.ptp.resps p with
    | some r => s.pdelayDone p ((timeDiff r.t4 t1 - timeDiff (ptpStamp m) r.t2) * 65536 - r.cf - ptpCorrection m)
    | none => s

/-- PDELAY_RESP_RECEIVE (R67): the first `count` of the responses delivered at a port are taken in order, and an exchange they complete
updates PDELAYn. -/
def execPdelayRespReceive (port : Fin 4) (count : Nat) (s : State) : Host.Outcome State Fault Refusal :=
  .next (
    let p : Nat := port
    let resp (d : Delivered) : Bool :=
      decide (d.port = p) && (decide (ptpType (ptpBytes d.bytes) = 3) || decide (ptpType (ptpBytes d.bytes) = 0xA))
    let mine := (s.net.toTime.filter resp).take count
    let s := s.setNet fun n => { n with toTime := mine.foldl List.erase n.toTime }
    if s.ptpRole p = 0 then s else mine.foldl (fun s d => s.pdelayTake port d) s)

/-! ### Local sources (R71, R72, R390, R391) -/

def State.source (s : State) (k : Nat) : LocalSrc := Tab.get LocalSrc.init s.sources k

def State.setSource (s : State) (k : Nat) (f : LocalSrc → LocalSrc) : State :=
  { s with sources := Tab.set LocalSrc.init s.sources k (f (s.source k)) }

/-- A stamp as eight bytes of a packet (R173). -/
def State.stampBytes (s : State) (t : TimePoint) : List Byte := wordsBytes [t.sec, w32 (at_ 30 (s.qualAt t) + t.ns)]

/-- Whether a pulse qualifies (R71). -/
def LocalSrc.pulseOk (x : LocalSrc) (t : TimePoint) (width : Nat) : Bool :=
  decide (1000 ≤ width) && decide (width ≤ 500000000) && (match x.last with
    | some l => decide ((timeDiff t l - 1000000000).natAbs ≤ 1000000)
    | none => true)

/-- PTP.GM_SRC.SRC; 5–7 act as 0. -/
def State.gmSrc (s : State) : Nat := s.fld Reg.ptpGmSrc 0 3 % 5 * b2n (decide (s.fld Reg.ptpGmSrc 0 3 < 5))

/-- A local source disciplines the node: GM_SRC selects it, and the node follows no PTP master (R70, R71). DEDUCED: log entry 38. -/
def State.localActs (s : State) : Bool := s.ptp.parent.isNone

/-- The offset of a pulse stamped at `t`: from the nearest whole second, or from the second that the IRIG-B channel gives it (R71).
DEDUCED: log entry 39. -/
def State.pulseOffset (s : State) (t : TimePoint) : Option Int :=
  if s.gmSrc = 3 then
    let x := s.source (s.fld Reg.ptpGmSrc 8 6)
    if x.run = 2 then
      x.irig.map fun sec => timeDiff t ⟨BitVec.ofInt 32 (sec + (timeDiff t x.irigAt + 500000000).fdiv 1000000000), 0⟩
    else none
  else some (if t.ns < 500000000 then (t.ns : Int) else (t.ns : Int) - 1000000000)

/-- Pulse source k is the one that GM_SRC selects: PPS_IN, or the PPS channel. -/
def State.pulseSelected (s : State) (k : Nat) : Bool :=
  if k = 64 then decide (s.gmSrc = 1 ∨ s.gmSrc = 3) else decide (s.gmSrc = 4 ∧ s.fld Reg.ptpGmSrc 8 6 = k)

/-- The servo's update for a qualified pulse of the selected source (R70, R71). -/
def State.pulseServo (s : State) (k : Nat) (t : TimePoint) : State :=
  if s.pulseSelected k && s.localActs then
    match s.pulseOffset t with
    | some o => s.servoOffset 1 o 0 0
    | none => s
  else s

/-- PPS_PULSE (R71, R391): a pulse of a channel in PPS_IN function, or of PPS_IN (64), whose on-time edge rises or falls, with its stamp
and width in ns; the edge that PPS_POL does not select begins no pulse. DEDUCED: log entry 39. -/
def execPpsPulse (src : Fin 65) (edge : PpsEdge) (width : Nat) (s : State) : Host.Outcome State Fault Refusal :=
  .next (
    let k : Nat := src
    let t := edge.time
    if (k < 64 ∧ !s.runs k 7) ∨ edge.rising = s.flag Reg.ptpGmSrc 16 then s
    else if (s.source k).pulseOk t width then
      let s := (s.setSource k fun x => { x with last := some t, good := t, fails := 0 }).pulseServo k t
      if k = 64 then s
      else
        let s := s.raise (0x80 + k) 15
        if s.flag (Reg.chPpsInCfg k) 0 then s.rxPacket (rxFifo k) (s.stampBytes t ++ wordBytes (w32 width)) 0 else s
    else
      let s := s.setSource k fun x => { x with fails := x.fails + 1 }
      if k = 64 then s else s.qualFail (0x80 + k) 0x0114 k 0 (Reg.chCntPpsBad k))

/-- SOURCE_LOST of a channel (R72, R76). -/
def State.channelLost (s : State) (c source : Nat) : State :=
  let g := (s.source c).good
  s.post 0x14 .ch c 0 (w32 (at_ 16 c + source)) g.sec (w32 g.ns) 0

/-- PPS_SOURCE_LOST (R71): three failing pulses in a row, or the places of three pulses after the last that qualified passed without
one; the next pulse counts as the first. DEDUCED: log entry 39. -/
def execPpsSourceLost (src : Fin 65) (s : State) : Host.Outcome State Fault Refusal :=
  .next (
    let k : Nat := src
    match (s.source k).last with
    | some l =>
      if 3 ≤ (s.source k).fails ∨ 3001000000 ≤ timeDiff s.now l then
        let s := if k = 64 then s.sourceLost 1 (s.source k).good else s.channelLost k 3
        let s := if s.pulseSelected k then s.sourceGone 1 else s
        s.setSource k fun x => { x with last := none, fails := 0 }
      else s
    | none => s)

/-- Binary-coded digits of an IRIG-B frame: the value of the elements listed, each with its weight. PRESUMED: log entry 27. -/
def irigSum (b : BitVec 100) (l : List (Nat × Nat)) : Nat :=
  l.foldl (fun a e => if b.toNat.testBit e.1 then a + e.2 else a) 0

/-- Days from 1970-01-01 to the first day of a year. -/
def yearDays (y : Nat) : Nat := 365 * (y - 1970) + (y - 1969) / 4 - (y - 1901) / 100 + (y - 1601) / 400

/-- Day of the year from 1. PRESUMED: log entry 27. -/
def irigDay (b : BitVec 100) : Nat :=
  irigSum b [(30, 1), (31, 2), (32, 4), (33, 8), (35, 10), (36, 20), (37, 40), (38, 80), (40, 100), (41, 200)]
/-- The second of the day. PRESUMED: log entry 27. -/
def irigSecond (b : BitVec 100) : Nat :=
  let sec := irigSum b [(1, 1), (2, 2), (3, 4), (4, 8), (6, 10), (7, 20), (8, 40)]
  let min := irigSum b [(10, 1), (11, 2), (12, 4), (13, 8), (15, 10), (16, 20), (17, 40)]
  let hour := irigSum b [(20, 1), (21, 2), (22, 4), (23, 8), (25, 10), (26, 20)]
  hour * 3600 + min * 60 + sec

/-- The year of century of expressions B004–B007; 0 where the frame carries none. PRESUMED: log entry 27. -/
def irigYear (b : BitVec 100) : Nat :=
  irigSum b [(50, 1), (51, 2), (52, 4), (53, 8), (55, 10), (56, 20), (57, 40), (58, 80)]

/-- A frame's time in PTP seconds in a given year: UTC with TAI_UTC added (R72). -/
def State.irigIn (s : State) (b : BitVec 100) (y : Nat) : Nat :=
  let tai := (BitVec.ofNat 16 (s.fld Reg.timeTaiUtc 0 16)).toInt
  (((yearDays y + irigDay b - 1) * 86400 + irigSecond b : Nat) + tai).toNat

/-- The one of some values nearest to `x`. -/
def nearest (x : Nat) (l : List Nat) : Nat :=
  l.foldl (fun best v => if (v - x) + (x - v) < (best - x) + (x - best) then v else best) (l.headD 0)

/-- The year that the counter shows. -/
def State.yearNow (s : State) : Nat := 1970 + s.time.sec.toNat / 31556952

/-- A frame's time in PTP seconds (R72): the year of the frame in the century, or with none in it the year, that places it nearest the
counter. DEDUCED: log entry 40. -/
def State.irigTime (s : State) (b : BitVec 100) : Nat :=
  let y := s.yearNow
  let years := if irigYear b = 0 then [y - 1, y, y + 1]
    else [y / 100 * 100 - 100 + irigYear b, y / 100 * 100 + irigYear b, y / 100 * 100 + 100 + irigYear b]
  nearest s.time.sec.toNat ((years.filter fun y => decide (1970 ≤ y)).map fun y => s.irigIn b y)

/-- The time quality nibble of IEEE C37.118.1. PRESUMED: log entry 27. -/
def irigQuality (b : BitVec 100) : Nat := b.toNat >>> 71 % 16

/-- IRIG-B channel k is the source that GM_SRC selects. -/
def State.irigSelected (s : State) (k : Nat) : Bool := decide (s.gmSrc = 2 ∧ s.fld Reg.ptpGmSrc 8 6 = k)

/-- The IRIG-B source is lost (R72): SOURCE_LOST, and the run of good frames ends. -/
def State.irigLost (s : State) (k : Nat) : State :=
  let s := s.channelLost k 2
  (if s.irigSelected k then s.sourceGone 2 else s).setSource k fun x => { x with irig := none, run := 0 }

/-- IRIG_FRAME (R72, R390): a frame with its on-time stamp. It is used when the frame before decoded too and lay exactly 1 s earlier,
which FN_STATUS.IRIG_SYNC shows. A time quality nibble of 0xF, where the extension is enabled, loses the source.
DEDUCED: log entries 39 and 40. -/
def execIrigFrame (c : Fin 64) (b : BitVec 100) (t : TimePoint) (result : IrigEnd) (s : State) :
    Host.Outcome State Fault Refusal :=
  .next (
    let k : Nat := c
    if !s.runs k 6 then s
    else
      let cfg := s.rd (Reg.chIrigCfg k)
      let body := s.stampBytes t ++ ((upFrom 0 13).map fun i => BitVec.ofNat 8 (b.toNat >>> (8 * i))) ++ [0, 0, 0]
      let store (s : State) (status : Nat) : State := if bit cfg 31 then s.rxPacket (rxFifo k) body status else s
      let failed (s : State) (status : Nat) : State :=
        let s := (s.raise (0x80 + k) 14).qualFail (0x80 + k) 0x0113 k (w32 status) (Reg.chCntIrigBad k)
        (store s status).setSource k fun x => { x with irig := none, run := 0 }
      match result with
      | .width => failed s 0x20
      | .identifier => failed s 0x21
      | .good =>
        let y := s.irigTime b
        let follows := decide ((s.source k).irig.map (· + 1) = some y)
        let s := store s 0
        if bit cfg 30 && decide (irigQuality b = 15) then (if (s.source k).run = 2 then s.irigLost k else s.setSource k fun x => { x with irig := none, run := 0 })
        else
          let s := s.setSource k fun x => { x with
            irig := some y, irigAt := t, run := if follows then 2 else 1,
            good := if follows then t else x.good, usedAt := if follows then s.tclks else x.usedAt }
          if follows && s.irigSelected k && s.localActs then s.servoOffset 2 (timeDiff t ⟨BitVec.ofNat 32 y, 0⟩) 0 0 else s)

/-- IRIG_SOURCE_LOST (R72): 3 s without a usable frame. DEDUCED: log entry 39. -/
def execIrigSourceLost (c : Fin 64) (s : State) : Host.Outcome State Fault Refusal :=
  .next (if s.runs c 6 ∧ (s.source c).run = 2 ∧ s.passed (s.source c).usedAt (msTclks 3000) then s.irigLost c else s)

end Sys2Proof.Machine
end

