-- ==== Sys2Proof/Machine/Serial.lean ====
section
/-! DEFINITION. A write of TX_DATA (R152) and the serial functions of a channel (R380–R392). -/

namespace Sys2Proof.Machine

/-! ### TX_DATA (R152) -/

/-- A write of a channel's TX_DATA; a TX FIFO that is not empty keeps its tile's clock running (R127, R152). With the oldest packet
ready the function has a request (R388). -/
def State.chTxWrite (s : State) (c : Nat) (w : Word) : State :=
  let was := s.txReady (txFifo c)
  let s := (s.txDataWrite (txFifo c) w).2.tileWake (c / 8)
  let note (x : SerSt) : SerSt := { x with wantAt := s.tclks }
  if was then s else { s with serial := Tab.set SerSt.init s.serial c (note (Tab.get SerSt.init s.serial c)) }

/-! ### The function's state -/

def State.ser (s : State) (c : Nat) : SerSt := Tab.get SerSt.init s.serial c

def State.setSer (s : State) (c : Nat) (f : SerSt → SerSt) : State :=
  { s with serial := Tab.set SerSt.init s.serial c (f (s.ser c)) }

/-- EN becomes 0: the function is stopped (R130). -/
def State.serStop (s : State) (c : Nat) : State := s.setSer c fun x => { SerSt.init with sent := x.sent, bus := x.bus }

/-- What a function has sent. -/
def State.serSent (s : State) (c : Nat) (b : List Byte) : State := s.setSer c fun x => { x with sent := x.sent ++ [b] }

/-- A byte that a function receives, gathered into data words of four (R143). -/
def State.serByte (s : State) (c : Nat) (b : Byte) : State :=
  let l := (s.ser c).part ++ [b]
  let s := s.setSer c fun y => { y with count := y.count + 1, part := if l.length = 4 then [] else l }
  if l.length = 4 then s.rxWord (rxFifo c) (w32 (bytesNat l)) 4 else s

def State.serBytes (s : State) (c : Nat) (l : List Byte) : State := l.foldl (fun s b => s.serByte c b) s

/-- The function's RX packet begins. -/
def State.serBegin (s : State) (c : Nat) : State := (s.setSer c fun y => { y with part := [], count := 0 }).rxBegin (rxFifo c)

/-- The function's RX packet ends with a status: its last bytes stored, committed or failed (R145–R147). -/
def State.serEnd (s : State) (c status : Nat) : State :=
  let l := (s.ser c).part
  let s := if l.isEmpty then s else s.rxWord (rxFifo c) (w32 (bytesNat l)) l.length
  let s := s.setSer c fun y => { y with part := [], count := 0 }
  if status = 0 then s.rxCommit (rxFifo c) else s.rxFail (rxFifo c) status

/-- A packet of the function is open. -/
def State.serOpen (s : State) (c : Nat) : Bool :=
  (s.fifo (rxFifo c)).writing.isSome || (s.fifo (rxFifo c)).skipping

/-- The function's TX packet ends: taken away, or ended by an underrun where a word it needed has not been written (R152).
DEDUCED: log entry 58. -/
def State.serTxEnd (s : State) (c : Nat) : State :=
  let whole := ((s.fifo (txFifo c)).pkts.head?.map fun p => p.complete).getD true
  if whole then s.txFinish (txFifo c) else s.txUnderrun (txFifo c)

/-- At least `ns` nanoseconds have passed since TCLK count t, in whole periods of 40 ns. DESIGN CHOICE: log entry 9. -/
def State.nsPassed (s : State) (t ns : Nat) : Bool := s.passed t (ns / 40)

/-- The same since a count that there need not be. -/
def State.idleFor (s : State) (t : Option Nat) (ns : Nat) : Bool := t.all fun x => s.nsPassed x ns

/-! ### UART (R380–R383) -/

/-- DATA_BITS; others than 5–9 act as 8. -/
def uartBits (cfg : Word) : Nat :=
  let n := bits cfg 21 4
  if 5 ≤ n ∧ n ≤ 9 then n else 8

/-- A character time in ns: the start bit, the data, parity and stop bits of DIV / 16 tile cycles each (R380, R381). -/
def State.uartChar (s : State) (c : Nat) : Nat :=
  let cfg := s.rd (Reg.chUartCfg c)
  let d := s.fld (Reg.chUartDiv c) 0 23
  let n := 2 + uartBits cfg + b2n (decide (bits cfg 26 2 = 1 ∨ bits cfg 26 2 = 2)) + b2n (bit cfg 25)
  n * (if d < 320 then 320 else d) / 8

/-- A number of the units of GAP in ns (R381). -/
def State.uartUnits (s : State) (c n : Nat) : Nat := if s.flag (Reg.chUartCfg c) 28 then 1000 * n else n * s.uartChar c / 2

/-- GAP, 0 acting as 1. -/
def State.uartGap (s : State) (c : Nat) : Nat :=
  let n := s.fld (Reg.chUartGap c) 16 16
  if n = 0 then 1 else n

/-- DE: asserted from the start of a TX packet to DE_HOLD after its last stop bit (R383). -/
def State.uartDe (s : State) (c : Nat) : Bool :=
  s.runs c 2 && ((s.ser c).busy || (s.ser c).endAt.any fun t => !s.passed t ((s.fld (Reg.chUartDe c) 16 16 + 1) / 2))

/-- The function status of a character's fault, and its counter (R381). -/
def uartStatus (c : Nat) : UartFault → Nat × Nat
  | .fine => (0, 0)
  | .parity => (1, Reg.chCntParity c)
  | .framing => (2, Reg.chCntFraming c)
  | .brk => (3, Reg.chCntBreak c)
  | .gap => (4, Reg.chCntGapErr c)

/-- RXD was idle longer than INTERCHAR between the last character of an open packet and the one that ends now (R381). -/
def State.uartGapSeen (s : State) (c : Nat) : Bool :=
  let n := s.fld (Reg.chUartGap c) 0 16
  decide (n ≠ 0) && s.serOpen c && s.idleFor (s.ser c).rxAt (s.uartUnits c n + s.uartChar c)

/-- The fault of a character: its own, or else the gap before it. DEDUCED: log entry 58. -/
def State.uartFault (s : State) (c : Nat) (f : UartFault) : UartFault :=
  if f = .fine ∨ f = .gap then if s.uartGapSeen c then .gap else .fine else f

/-- UART_CHAR_RECEIVE (R381, R383): a character with the stamp of its start bit. With HALF = 1 and DE asserted it is discarded. One that fails is still counted and ends its packet with the status. DEDUCED: log entry 58. -/
def execUartCharReceive (c : Fin 64) (data : BitVec 9) (t : TimePoint) (fault : UartFault) (s : State) :
    Host.Outcome State Fault Refusal :=
  .next (
    let k : Nat := c
    let cfg := s.rd (Reg.chUartCfg k)
    if !s.runs k 2 then s
    else if bit cfg 31 ∧ s.uartDe k then s.bump (Reg.chCntRxDe k)
    else
      let fault := s.uartFault k fault
      let data := data.toNat % 2 ^ uartBits cfg
      let s := s.setSer k fun x => { x with rxAt := some s.tclks }
      let s := if s.serOpen k then s
        else
          let s := s.serBegin k
          if bit cfg 29 then s.serBytes k (s.stampBytes t) else s
      let s := s.serByte k (BitVec.ofNat 8 data)
      let s := if uartBits cfg = 9 then s.serByte k (BitVec.ofNat 8 (data / 256)) else s
      let most := s.fld (Reg.chUartMax k) 0 16
      let n := (s.ser k).count
      let (st, cnt) := uartStatus k fault
      let (st, cnt) := if st = 0 ∧ most ≠ 0 ∧ most < n then (5, Reg.chCntGapErr k) else (st, cnt)
      if st = 0 then s
      else
        let s := if st = 3 then s.raise (0x80 + k) 11 else s
        (s.serEnd k st).qualFail (0x80 + k) 0x0110 k (w32 st) cnt)

/-- UART_GAP_EXPIRY (R381): RXD idle for GAP after the last stop bit. -/
def execUartGapExpiry (c : Fin 64) (s : State) : Host.Outcome State Fault Refusal :=
  .next (
    if s.runs c 2 ∧ s.serOpen c ∧ s.idleFor (s.ser c).rxAt (s.uartUnits c (s.uartGap c)) then s.serEnd c 0 else s)

/-- The minimum idle before the oldest TX packet has passed: since the channel's own last stop bit, and with HALF = 1 on RXD too, where no
character of an open packet is being received (R382). -/
def State.uartIdle (s : State) (c : Nat) : Bool :=
  let n := bits (s.txHeader (txFifo c)) 16 8
  let ns := s.uartUnits c (if n = 0 then s.uartGap c else n)
  s.idleFor (s.ser c).endAt ns && (!s.flag (Reg.chUartCfg c) 31 || s.idleFor (s.ser c).rxAt ns)

/-- UART_TX_START (R382, R383): after the minimum idle DE is asserted and the oldest packet begun. -/
def execUartTxStart (c : Fin 64) (s : State) : Host.Outcome State Fault Refusal :=
  .next (
    if s.runs c 2 ∧ !(s.ser c).busy ∧ s.txReady (txFifo c) ∧ s.uartIdle c then
      (s.txBegin (txFifo c)).2.setSer c fun x => { x with busy := true, startAt := s.tclks }
    else s)

/-- The time that the packet under way takes: DE_SETUP and its characters back to back (R382, R383). -/
def State.uartTxTime (s : State) (c : Nat) : Nat :=
  let n := (s.txBytes (txFifo c)).length
  20 * s.fld (Reg.chUartDe c) 0 16 + (if uartBits (s.rd (Reg.chUartCfg c)) = 9 then (n + 1) / 2 else n) * s.uartChar c

/-- UART_TX_END (R382, R383): the last stop bit; DE is released DE_HOLD later. -/
def execUartTxEnd (c : Fin 64) (s : State) : Host.Outcome State Fault Refusal :=
  .next (
    if s.runs c 2 ∧ (s.ser c).busy ∧ s.nsPassed (s.ser c).startAt (s.uartTxTime c) then
      let s := (s.serSent c (s.txBytes (txFifo c))).serTxEnd c
      (s.setSer c fun x => { x with busy := false, endAt := some s.tclks }).raise (0x80 + c) 10
    else s)

/-! ### SPI (R384, R385) -/

/-- A number of SCLK half-periods in ns; DIV below 5 acts as 5, a count of 0 as 1 (R384). -/
def State.spiHalves (s : State) (c n : Nat) : Nat :=
  let d := s.fld (Reg.chSpiCfg c) 16 16
  (if n = 0 then 1 else n) * (2 * if d < 5 then 5 else d)

/-- CS has been inactive for CS_IDLE, or was kept asserted (R384). -/
def State.spiIdle (s : State) (c : Nat) : Bool :=
  (s.ser c).cs || s.idleFor (s.ser c).endAt (s.spiHalves c (s.fld (Reg.chSpiCs c) 16 8))

/-- The time that the transaction under way takes: CS_SETUP, 16 half-periods for each byte, and CS_HOLD (R384). -/
def State.spiTime (s : State) (c : Nat) : Nat :=
  let n := (s.txBytes (txFifo c)).length
  s.spiHalves c (s.fld (Reg.chSpiCs c) 0 8) + n * s.spiHalves c 16 + s.spiHalves c (s.fld (Reg.chSpiCs c) 8 8)

/-- SPI_TRANSACTION_START (R384): after CS_IDLE. -/
def execSpiTransactionStart (c : Fin 64) (s : State) : Host.Outcome State Fault Refusal :=
  .next (
    if s.runs c 3 ∧ !(s.ser c).busy ∧ s.txReady (txFifo c) ∧ s.spiIdle c then
      let h := s.txHeader (txFifo c)
      let s := (s.txBegin (txFifo c)).2.setSer c fun x => { x with busy := true, cs := true, header := h, startAt := s.tclks }
      if bit h 30 then s else s.serBegin c
    else s)

/-- SPI_TRANSACTION_END (R384): the bytes shifted in, as many as were shifted out; NO_RX discards them and KEEP_CS keeps CS
asserted. DEDUCED: log entry 58. -/
def execSpiTransactionEnd (c : Fin 64) (rx : List Byte) (s : State) : Host.Outcome State Fault Refusal :=
  .next (
    let x := s.ser c
    if s.runs c 3 ∧ x.busy ∧ s.nsPassed x.startAt (s.spiTime c) then
      let out := s.txBytes (txFifo c)
      let n := out.length
      let s := if bit x.header 30 then s
        else (s.serBytes c ((rx ++ List.replicate n 0).take n)).serEnd c 0
      let s := (s.serSent c out).serTxEnd c
      (s.setSer c fun y => { y with busy := false, cs := bit x.header 31, endAt := some s.tclks }).raise (0x80 + c) 10
    else s)

/-- SPI_CS_ASSERT (R385). -/
def execSpiCsAssert (c : Fin 64) (s : State) : Host.Outcome State Fault Refusal :=
  .next (
    if s.runs c 4 ∧ !(s.ser c).cs then
      let s := (s.serBegin c).setSer c fun x => { x with cs := true, busy := s.txReady (txFifo c) }
      (s.txBegin (txFifo c)).2
    else s)

/-- SPI_CS_RELEASE (R385): the bytes shifted in, and whether a byte was left unfinished. FILL follows the TX packet; its unsent
bytes are discarded and counted. DEDUCED: log entry 58. -/
def execSpiCsRelease (c : Fin 64) (rx : List Byte) (partial_ : Bool) (s : State) : Host.Outcome State Fault Refusal :=
  .next (
    let x := s.ser c
    if s.runs c 4 ∧ x.cs then
      let s := s.serBytes c rx
      let s := if partial_ then (s.serEnd c 0x10).qualFail (0x80 + c) 0x0111 c 0 (Reg.chCntSpiPartial c) else s.serEnd c 0
      let n := rx.length
      let out := if x.busy then s.txBytes (txFifo c) else []
      let fill := BitVec.ofNat 8 (s.fld (Reg.chSpiCfg c) 0 8)
      let s := s.serSent c ((out ++ List.replicate n fill).take n)
      let s := if !x.busy then s
        else
          let p := (s.fifo (txFifo c)).pkts.head?
          let len := (p.map fun q => q.declared).getD 0
          let dry := (p.map fun q => !q.complete && decide (q.bytes < n)).getD false
          if dry then s.txUnderrun (txFifo c)
          else (s.bumpBy (Reg.chCntTxDropped c) (len - n)).txFinish (txFifo c)
      s.setSer c fun y => { y with busy := false, cs := false }
    else s)

/-! ### I²C (R386–R389) -/

/-- The pin of line k has been at a level for at least `ns`. -/
def State.pinHeld (s : State) (k : Nat) (level : Bool) (ns : Nat) : Bool :=
  decide ((s.line k).raw = level) && decide ((s.line k).rawNs + ns ≤ 40 * s.tclks)

/-- The bus is free: SCL and SDA have been high for BUS_FREE µs, 0 acting as 1, which a STOP of the channel itself begins anew (R389).
DEDUCED: log entry 58. -/
def State.i2cFree (s : State) (c : Nat) : Bool :=
  let n := s.fld (Reg.chI2cCfg c) 0 16
  let ns := 1000 * if n = 0 then 1 else n
  s.pinHeld (4 * c) true ns && s.pinHeld (4 * c + 1) true ns && s.idleFor (s.ser c).endAt ns

/-- BUS_BUSY. -/
def State.i2cBusBusy (s : State) (c : Nat) : Bool := s.runs c 5 && ((s.ser c).busy || (s.ser c).chain || !s.i2cFree c)

/-- TIMEOUT in ms, 0 acting as 1. -/
def State.i2cTimeout (s : State) (c : Nat) : Nat :=
  let n := s.fld (Reg.chI2cCfg c) 16 8
  if n = 0 then 1 else n

/-- I2C_TRANSACTION_START (R387, R389): on a free bus, or in a NO_STOP chain. -/
def execI2cTransactionStart (c : Fin 64) (s : State) : Host.Outcome State Fault Refusal :=
  .next (
    if s.runs c 5 ∧ !(s.ser c).busy ∧ s.txReady (txFifo c) ∧ ((s.ser c).chain ∨ s.i2cFree c) then
      let h := s.txHeader (txFifo c)
      (s.txBegin (txFifo c)).2.setSer c fun x => { x with busy := true, header := h, startAt := s.tclks }
    else s)

/-- Nine SCL pulses and a STOP (R389). -/
def State.i2cClear (s : State) (c : Nat) : State :=
  s.setSer c fun x => { x with clearWaits := false, chain := false, endAt := some s.tclks, bus := x.bus ++ [.pulses, .stop] }

/-- The bus sequence of a transaction after its START, for its packet's bytes and header, its result, the write bytes acknowledged and the
bytes read (R387, R388): the address and the write bytes, then, where reading was reached, the read address and the bytes read; the STOP
but for NO_STOP with result 0, and where arbitration or SCL was lost. Nothing where the bus was never free. DEDUCED: log entry 58. -/
def i2cItems (out : List Byte) (header : Word) (result acked : Nat) (read : List Byte) : List I2cItem :=
  let ten := bit header 23
  let k := if ten then 2 else 1
  let a := bytesNat (out.take k) % 2 ^ (if ten then 10 else 7)
  let w := out.drop k
  let n := bits header 24 8
  let got := (read.take n).map I2cItem.got
  let wrote := (w.take (if result = 0 then w.length else if result = 2 then acked + 1 else acked)).map I2cItem.wrote
  let reads := decide (n ≠ 0) && (decide (result = 0) || !read.isEmpty || (decide (result = 1) && decide (acked = w.length)))
  let body := if w.isEmpty && decide (n ≠ 0) then I2cItem.address a ten true :: got
    else I2cItem.address a ten false :: wrote ++ if reads then [.restart, .address a ten true] ++ got else []
  body ++ if result = 3 ∨ result = 4 ∨ (result = 0 ∧ bit header 22) then [] else [.stop]

/-- The items with the START or, in a NO_STOP chain, the repeated START before them. -/
def i2cSequence (chain : Bool) (out : List Byte) (header : Word) (result acked : Nat) (read : List Byte) : List I2cItem :=
  if result = 5 then [] else (if chain then .restart else .start) :: i2cItems out header result acked read

/-- A transaction ends with a result (R388, R389): one RX packet holds the result, the write bytes acknowledged and the bytes
read. With NO_STOP and result 0 the bus is kept. DEDUCED: log entry 58. -/
def State.i2cEnd (s : State) (c result acked : Nat) (read : List Byte) : State :=
  let x := s.ser c
  if s.runs c 5 ∧ x.busy then
    let page := 0x80 + c
    let out := s.txBytes (txFifo c)
    let s := s.rxPacket (rxFifo c)
      ([BitVec.ofNat 8 result, BitVec.ofNat 8 acked] ++ read.take (bits x.header 24 8)) 0
    let s := (s.serSent c out).serTxEnd c
    let s := s.raise page 10
    let s := if result = 0 then s else s.raise page 12
    let s := if result = 4 then (s.raise page 13).qualFail page 0x0112 c 0 (Reg.chCntSmbTimeout c)
      else if result = 0 then s else s.bump (Reg.chCntI2cFail c)
    let keep := bit x.header 22 && decide (result = 0)
    let s := s.setSer c fun y => { y with
      busy := false, chain := keep, wantAt := s.tclks, endAt := if keep then y.endAt else some s.tclks,
      bus := y.bus ++ i2cSequence x.chain out x.header result acked read }
    if x.clearWaits then s.i2cClear c else s
  else s

/-- SMBUS_EN = 1, and SCL has been low for TIMEOUT ms (R389). -/
def State.smbTimedOut (s : State) (c : Nat) : Bool :=
  s.flag (Reg.chI2cCfg c) 31 && s.pinHeld (4 * c) false (1000000 * s.i2cTimeout c)

/-- The oldest TX packet ends without a transaction: the bus was not free within TIMEOUT of its request (R388). -/
def State.i2cNotFree (s : State) (c : Nat) : State :=
  if s.runs c 5 ∧ !(s.ser c).busy ∧ !(s.ser c).chain ∧ s.txReady (txFifo c) ∧ !s.i2cFree c
      ∧ s.passed (s.ser c).wantAt (msTclks (s.i2cTimeout c)) then
    let h := s.txHeader (txFifo c)
    ((s.txBegin (txFifo c)).2.setSer c fun x => { x with busy := true, header := h }).i2cEnd c 5 0 []
  else s

/-- I2C_TRANSACTION_END (R388), result 0–5; 4 is an SMBus timeout (R389). DEDUCED: log entry 58. -/
def execI2cTransactionEnd (c : Fin 64) (result : Fin 6) (acked : Byte) (read : List Byte) (s : State) :
    Host.Outcome State Fault Refusal :=
  .next (
    let r : Nat := result
    if r = 5 then s.i2cNotFree c
    else if r = 4 ∧ !s.smbTimedOut c then s
    else s.i2cEnd c r acked.toNat read)

/-- SMBUS_TIMEOUT (R389). -/
def execSmbusTimeout (c : Fin 64) (acked : Byte) (read : List Byte) (s : State) : Host.Outcome State Fault Refusal :=
  .next (if s.smbTimedOut c then s.i2cEnd c 4 acked.toNat read else s)

/-- A BUS_CLEAR: at once, or after the transaction (R389). -/
def State.i2cBusClear (s : State) (c : Nat) : State :=
  if !s.runs c 5 then s
  else if (s.ser c).busy then s.setSer c fun x => { x with clearWaits := true }
  else s.i2cClear c

/-! ### PPS_OUT (R392) -/

/-- GATE lets pulses out in the time state that stands; 3 acts as 1. -/
def State.ppsGateOpen (s : State) (c : Nat) : Bool :=
  let g := s.fld (Reg.chPpsOutCfg c) 30 2
  if g = 0 then true else if g = 2 then decide (s.timeState ≤ 1) else decide (s.timeState = 0)

/-- PPS_OUT_START (R392): a whole second plus OFFSET lies within the TCLK period that follows the counter's value, so that none passed by a
forced step is emitted. DEDUCED: log entry 58. -/
def execPpsOutStart (c : Fin 64) (s : State) : Host.Outcome State Fault Refusal :=
  .next (
    let ahead := (s.fld (Reg.chPpsOutOffset c) 0 30 % 1000000000 + 1000000000 - s.now.ns) % 1000000000
    if s.runs c 8 ∧ (s.ser c).pulse = none ∧ ahead ≤ 40 ∧ s.ppsGateOpen c then
      s.setSer c fun x => { x with pulse := some s.tclks }
    else s)

/-- PPS_OUT_END (R392): WIDTH after the start. -/
def execPpsOutEnd (c : Fin 64) (s : State) : Host.Outcome State Fault Refusal :=
  .next (
    if (s.ser c).pulse.any fun t => s.nsPassed t (s.fld (Reg.chPpsOutWidth c) 0 30) then s.setSer c fun x => { x with pulse := none }
    else s)

end Sys2Proof.Machine
end

