-- ==== Sys2Proof/Machine/Can.lean ====
section
/-! DEFINITION. The CAN FD controllers (R358–R379). The error counters change as ISO 11898-1:2015 gives them (R364; log entry
28). -/

namespace Sys2Proof.Machine

def State.can (s : State) (n : Nat) : CanSt := Tab.get CanSt.init s.cans n

def State.setCan (s : State) (n : Nat) (f : CanSt → CanSt) : State :=
  { s with cans := Tab.set CanSt.init s.cans n (f (s.can n)) }

def canPage (n : Nat) : Nat := 0xC0 + n

/-- A word of a controller's indirect map. -/
def State.canWord (s : State) (n a : Nat) : Word := s.rd (indKey (canPage n) a)

/-! ### Configuration (R360, R361) -/

/-- The timing words keep within R361: bit lengths, and bit rates of at most 1 and 8 Mbit/s. -/
def State.canTimingOk (s : State) (n : Nat) : Bool :=
  let b := s.canWord n 0
  let d := s.canWord n 4
  let nl := 1 + (bits b 16 8 + 1) + (bits b 8 7 + 1)
  let dl := 1 + (bits d 16 5 + 1) + (bits d 8 4 + 1)
  decide (1 ≤ bits b 16 8) && decide (8 ≤ nl) && decide (80 ≤ (bits b 24 8 + 1) * nl)
    && decide (5 ≤ dl) && decide (10 ≤ (bits d 24 5 + 1) * dl)

/-- A channel with FUNC = 9 selects the controller (R360). DEDUCED: log entry 57. -/
def State.canPins (s : State) (n : Nat) : Bool :=
  (upFrom 0 64).any fun c => decide (s.chFunc c = 9) && decide (s.fld (Reg.chFunc c) 8 4 = n)

/-- LOOP as it acts; 3 acts as 0. -/
def State.canLoop (s : State) (n : Nat) : Nat := s.fld (Reg.canMode n) 1 2 % 3
def State.canListen (s : State) (n : Nat) : Bool := s.flag (Reg.canMode n) 0

/-! ### States (R364) -/

/-- Word 4 of an error event. -/
def State.canErrWord (s : State) (n : Nat) : Word :=
  w32 (at_ 8 (capAt 255 (s.can n).rec_) + capAt 255 (s.can n).tec)

/-- A change of state: interrupt bit 3, and the event of an entry that has one (R364, R379). -/
def State.canEnter (s : State) (n st : Nat) : State :=
  let s := (s.setCan n fun x => { x with st }).raise (canPage n) 3
  let s := if st = 4 then s.bump (Reg.canCntBusOff n) else s
  let ty := if st = 3 then 0x60 else if st = 4 then 0x61 else 0x65
  if st = 2 ∨ st = 3 ∨ st = 4 then
    s.post ty .can n 0 (s.canErrWord n) (s.rd (Reg.canLastErr n)) (s.rd (Reg.canCntBusOff n)) 0
  else s

/-- What TEC and REC make of the state (R364). PRESUMED: log entry 28. -/
def State.canJudge (s : State) (n : Nat) : State :=
  let x := s.can n
  if x.st ≠ 2 ∧ x.st ≠ 3 then s
  else if 255 < x.tec then
    let s := (s.setCan n fun x => { x with sending := none }).canEnter n 4
    if s.flag (Reg.canMode n) 5 then s.canEnter n 5 else s
  else if x.st = 2 ∧ (127 < x.tec ∨ 127 < x.rec_) then s.canEnter n 3
  else if x.st = 3 ∧ x.tec ≤ 127 ∧ x.rec_ ≤ 127 then s.canEnter n 2
  else s

/-- INIT is left once EN = 1, the timing is valid and there are pins, or internal loopback (R360, R364). -/
def State.canStart (s : State) (n : Nat) : State :=
  if (s.can n).st = 0 ∧ s.enabled (canPage n) ∧ s.canTimingOk n ∧ (s.canPins n ∨ s.canLoop n = 1) then s.canEnter n 1 else s

/-- A frame can be sent or received. -/
def State.canActive (s : State) (n : Nat) : Bool := decide ((s.can n).st = 2 ∨ (s.can n).st = 3)

/-- CAN_BUS_IDLE (R364). -/
def execCanBusIdle (n : Fin 16) (s : State) : Host.Outcome State Fault Refusal :=
  .next (
    let x := s.can n
    if x.st = 1 then s.canEnter n 2 else if x.st = 6 then s.canEnter n x.left else s)

/-- CAN_PROTOCOL_EXCEPTION (R364): the res bit of a CAN FD frame, of which a controller with FD_EN = 0 receives none. -/
def execCanProtocolException (n : Fin 16) (s : State) : Host.Outcome State Fault Refusal :=
  .next (
    if s.canActive n ∧ !s.flag (Reg.canMode n) 4 ∧ s.flag (Reg.canMode n) 3 then
      (s.setCan n fun x => { x with left := x.st, sending := none }).canEnter n 6
    else s)

/-- CAN_RECOVERY_COMPLETE (R364). PRESUMED: log entry 28. -/
def execCanRecoveryComplete (n : Fin 16) (s : State) : Host.Outcome State Fault Refusal :=
  .next (if (s.can n).st = 5 then (s.setCan n fun x => { x with tec := 0, rec_ := 0 }).canEnter n 2 else s)

/-- CMD.RECOVER (R364). -/
def State.canRecover (s : State) (n : Nat) : State := if (s.can n).st = 4 then s.canEnter n 5 else s

/-- CAN_RECOVER (R364). -/
def execCanRecover (n : Fin 16) (s : State) : Host.Outcome State Fault Refusal := .next (s.canRecover n)

/-- CAN_INIT_ENTRY (R365): EN = 0 takes effect with no frame being sent; pending mailboxes fail and the TX FIFO is flushed. The
error counters begin anew (log entry 28). DEDUCED: log entry 57. -/
def execCanInitEntry (n : Fin 16) (s : State) : Host.Outcome State Fault Refusal :=
  .next (
    let k : Nat := n
    let x := s.can k
    if s.enabled (canPage k) ∨ x.st = 0 ∨ x.sending.isSome then s
    else
      let pend := s.rd (Reg.canTxpend k)
      let s := (s.wr (Reg.canTxfail k) (s.rd (Reg.canTxfail k) ||| pend)).wr (Reg.canTxpend k) 0
      let none_ := decide (pend = 0) && (s.fifo (canTxFifo k)).pkts.isEmpty
      let s := (s.fifoFlush (canTxFifo k)).setCan k fun y =>
        { y with tec := 0, rec_ := 0, tries := [], ackErrs := 0, lastCancel := if pend = 0 then y.lastCancel else false }
      (if none_ then s else s.raise (canPage k) 2).canEnter k 0)

/-! ### Reception (R372–R377) -/

/-- A filter matches a frame (R372). -/
def filterMatches (ctrl id mask frame : Word) : Bool :=
  let f := bits ctrl 28 2
  let x := bit frame 31
  bit ctrl 31 && (decide (f = 2) || decide (f = 0 ∧ !x) || decide (f = 1 ∧ x))
    && decide ((frame ^^^ id) &&& mask &&& 0x1FFFFFFF#32 = 0)

/-- The first filter that matches. -/
def State.canFilter (s : State) (n : Nat) (frame : Word) : Option Nat :=
  (upFrom 0 64).find? fun f =>
    filterMatches (s.canWord n (0x100 + 16 * f)) (s.canWord n (0x104 + 16 * f)) (s.canWord n (0x108 + 16 * f)) frame

/-- Word 1 of an RX packet (R374). -/
def rxControl (f : CanFrame) (echo : Option Nat) (filter : Option Nat) (unc : Nat) : Word :=
  w32 (at_ 31 (b2n f.brs) + at_ 30 (b2n f.esi) + at_ 29 (b2n echo.isSome) + at_ 28 (b2n filter.isSome) + at_ 22 (filter.getD 0)
    + at_ 16 f.dlc.toNat + at_ 8 (echo.getD 0) + unc)

/-- A frame written to the RX FIFO with its stamp, or discarded where 64 frames are held (R373–R375). -/
def State.canStore (s : State) (n : Nat) (f : CanFrame) (echo filter : Option Nat) (t : TimePoint) : State :=
  let id := canRxFifo n
  if 64 ≤ (s.fifo id).pkts.length then
    (s.qualFail (canPage n) 0x0803 n (w32 (bits f.id 0 29)) (Reg.canCntRxOverrun n)).raise (canPage n) 6
  else
    let b := wordsBytes [f.id, rxControl f echo filter s.stampUnc, t.sec, w32 (at_ 30 (s.qualAt t) + t.ns)] ++ f.data
    (s.rxPacket id b 0).raise (canPage n) 0

/-- A frame offered to the acceptance filters (R372). -/
def State.canOffer (s : State) (n : Nat) (f : CanFrame) (t : TimePoint) : State :=
  match s.canFilter n f.id with
  | some k =>
    if s.flag (indKey (canPage n) (0x100 + 16 * k)) 30 then s.bump (Reg.canCntFiltered n) else s.canStore n f none (some k) t
  | none =>
    if s.flag (Reg.canMode n) 7 then s.canStore n f none none t else s.bump (Reg.canCntFiltered n)

/-- ALONE ends (R377). -/
def State.canHeard (s : State) (n : Nat) : State :=
  let x := s.can n
  let s := s.setCan n fun y => { y with ackErrs := 0, alone := false }
  if x.alone then (s.raise (canPage n) 4).post 0x62 .can n 1 (s.canErrWord n) (w32 x.ackErrs) 0 0 else s

/-- REC after a good reception: one less, or from above 127 a value of 119 to 127, which is open (log entry 28).
DESIGN CHOICE: log entry 8. -/
def State.canGood (s : State) (n : Nat) : State :=
  let r := (s.can n).rec_
  if s.canListen n ∨ r = 0 then s
  else if r ≤ 127 then s.setCan n fun y => { y with rec_ := r - 1 }
  else
    let (w, s) := s.fresh
    s.setCan n fun y => { y with rec_ := 119 + w.toNat % 9 }

/-- LAST_ERR.CODE of an error, and its counter (R378). -/
def canErrCode : CanErr → Nat
  | .stuff => 1
  | .form => 2
  | .ack => 3
  | .bit1 => 4
  | .bit0 => 5
  | .crc => 6

def canErrCnt (n : Nat) : CanErr → Nat
  | .stuff => Reg.canCntStuff n
  | .form => Reg.canCntForm n
  | .ack => Reg.canCntAck n
  | .bit1 => Reg.canCntBit n
  | .bit0 => Reg.canCntBit n
  | .crc => Reg.canCntCrc n

/-- Check 0x0801 (R378). -/
def State.canErr (s : State) (n : Nat) (e : CanErr) (dataPhase : Bool) : State :=
  let w := w32 (at_ 3 (b2n dataPhase) + canErrCode e)
  ((s.wr (Reg.canLastErr n) w).qualFail (canPage n) 0x0801 n w (canErrCnt n e)).raise (canPage n) 6

/-- The controller takes frames from its bus; in internal loopback it hears its own TXD only (R376). -/
def State.canListens (s : State) (n : Nat) : Bool := s.canActive n && decide (s.canLoop n ≠ 1)

/-- A received frame that ends in an error (R376, R378). PRESUMED: log entry 28. -/
def State.canRxError (s : State) (n : Nat) (e : CanErr) (dataPhase eight : Bool) : State :=
  let s := s.canErr n e dataPhase
  if s.canListen n then s
  else (s.setCan n fun x => { x with rec_ := capAt 255 (x.rec_ + if eight then 8 else 1) }).canJudge n

/-- CAN_RX_ERROR (R376, R378): REC rises by 1, or by 8 where the standard says so. PRESUMED: log entry 28. -/
def execCanRxError (n : Fin 16) (e : CanErr) (dataPhase eight : Bool) (s : State) : Host.Outcome State Fault Refusal :=
  .next (if s.canListens n then s.canRxError n e dataPhase eight else s)

/-- CAN_FRAME_RECEIVED (R364, R372–R377): a frame with its start-of-frame stamp; with FD_EN = 0 a recessive FDF bit is a form error. -/
def execCanFrameReceived (n : Fin 16) (f : CanFrame) (t : TimePoint) (s : State) : Host.Outcome State Fault Refusal :=
  .next (
    if !s.canListens n then s
    else if bit f.id 29 && !s.flag (Reg.canMode n) 3 then s.canRxError n .form false false
    else ((((s.bump (Reg.canCntRxOk n)).canHeard n).canGood n).canJudge n).canOffer n f t)

/-! ### Transmission (R366–R371) -/

/-- ID word, control word and RETX of a pending frame: mailbox m, or 32 for the FIFO's oldest packet. -/
def State.canIdWord (s : State) (n m : Nat) : Word :=
  if m < 32 then s.canWord n (0x1000 + 0x80 * m) else w32 (bytesNat ((s.txBytes (canTxFifo n)).take 4))

def State.canCtrlWord (s : State) (n m : Nat) : Word :=
  if m < 32 then s.canWord n (0x1004 + 0x80 * m) else w32 (bytesNat (((s.txBytes (canTxFifo n)).drop 4).take 4))

def State.canRetx (s : State) (n m : Nat) : Nat :=
  if m < 32 then bits (s.canCtrlWord n m) 0 8 else bits (s.txHeader (canTxFifo n)) 24 8

/-- Data bytes that a DLC stands for. PRESUMED: log entry 28. -/
def dlcBytes (dlc : Nat) : Nat :=
  if dlc ≤ 8 then dlc else if dlc ≤ 12 then 4 * dlc - 24 else if dlc = 13 then 32 else if dlc = 14 then 48 else 64

/-- Data bytes of a frame: none of a remote frame, and at most 8 of a Classical one. -/
def canBytes (id : Word) (dlc : Nat) : Nat :=
  if bit id 30 ∧ !bit id 29 then 0 else if bit id 29 then dlcBytes dlc else capAt 8 dlc

/-- The frame of mailbox m or of the FIFO. PRESUMED: log entry 28. -/
def State.canFrame (s : State) (n m : Nat) : CanFrame :=
  let id := s.canIdWord n m
  let c := s.canCtrlWord n m
  let len := canBytes id (bits c 16 4)
  let data := if m < 32 then (wordsBytes ((upFrom 0 16).map fun i => s.canWord n (0x1008 + 0x80 * m + 4 * i))).take len
    else ((s.txBytes (canTxFifo n)).drop 8).take len
  ⟨id, bit id 29 && bit c 31, bit id 29 && decide ((s.can n).st = 3), BitVec.ofNat 4 (bits c 16 4), data⟩

/-- The arbitration field as a number: identifier, RTR, IDE as ISO 11898-1 sends them. PRESUMED: log entry 28. -/
def arbitration (id : Word) : Nat :=
  let rtr := b2n (bit id 30 && !bit id 29)
  if bit id 31 then at_ 21 (bits id 18 11) + at_ 20 1 + at_ 19 1 + at_ 1 (bits id 0 18) + rtr
  else at_ 21 (bits id 0 11) + at_ 20 rtr

/-- The pending frames, mailboxes first. -/
def State.canPending (s : State) (n : Nat) : List Nat :=
  ((upFrom 0 32).filter fun m => bit (s.rd (Reg.canTxpend n)) m)
    ++ (match (s.fifo (canTxFifo n)).pkts with
      | p :: _ => if p.complete then [32] else []
      | [] => [])

/-- The frame that competes: of lowest arbitration field, the earlier on a tie (R368). -/
def State.canPick (s : State) (n : Nat) : Option Nat :=
  (s.canPending n).foldl (fun b m => match b with
    | some k => if arbitration (s.canIdWord n m) < arbitration (s.canIdWord n k) then some m else some k
    | none => some m) none

/-- CAN_ARBITRATION_START (R368, R375): the start of frame, with its stamp. No frame begins while EN = 0 (R365). -/
def execCanArbitrationStart (n : Fin 16) (sof : TimePoint) (s : State) : Host.Outcome State Fault Refusal :=
  .next (
    if s.enabled (canPage n) ∧ s.canActive n ∧ !s.canListen n ∧ (s.can n).sending.isNone then
      match s.canPick n with
      | some m => s.setCan n fun x => { x with sending := some ⟨m, sof⟩ }
      | none => s
    else s)

/-- CAN_ARBITRATION_LOST (R368). -/
def execCanArbitrationLost (n : Fin 16) (s : State) : Host.Outcome State Fault Refusal :=
  .next (if (s.can n).sending.isSome then
      (s.setCan n fun x => { x with sending := none }).bump (Reg.canCntArbLost n)
    else s)

/-- A mailbox's bits, or the FIFO's packet, when its frame ends; `ok` for success. -/
def State.canTxEnd (s : State) (n m : Nat) (ok : Bool) : State :=
  let s := s.setCan n fun x => { x with sending := none, tries := Tab.set 0 x.tries m 0 }
  if m < 32 then
    let b := w32 (2 ^ m)
    let s := s.wr (Reg.canTxpend n) (s.rd (Reg.canTxpend n) &&& ~~~ b)
    if ok then s.wr (Reg.canTxdone n) (s.rd (Reg.canTxdone n) ||| b)
    else (s.wr (Reg.canTxfail n) (s.rd (Reg.canTxfail n) ||| b)).setCan n fun x => { x with lastCancel := false }
  else (s.txFinish (canTxFifo n)).setCan n fun x => { x with lastFail := !ok }

/-- CAN_TX_SUCCESS (R363, R369, R376, R377): the loop delay measured is shown where delay compensation ran; with TDCV + TDCO above 127 a
frame cannot succeed. -/
def execCanTxSuccess (n : Fin 16) (tdcv : BitVec 7) (s : State) : Host.Outcome State Fault Refusal :=
  .next (
    let k : Nat := n
    match (s.can k).sending with
    | none => s
    | some x =>
      let f := s.canFrame k x.who
      let tdc := f.brs && bit f.id 29 && s.flag (indKey (canPage k) 8) 31 && decide (bits (s.canWord k 4) 24 5 ≤ 1)
      if tdc && decide (127 < tdcv.toNat + bits (s.canWord k 8) 0 7) then s
      else
      let s := if tdc then s.wr (Reg.canTdcStatus k) (w32 tdcv.toNat) else s
      let s := (s.canTxEnd k x.who true).bump (Reg.canCntTxOk k)
      let s := (s.raise (canPage k) 1).canHeard k
      let s := (s.setCan k fun y => { y with tec := y.tec - 1 }).canJudge k
      let s := if s.flag (Reg.canMode k) 6 then s.canStore k f (some (if x.who < 32 then x.who else 0xFF)) none x.sof else s
      if s.canLoop k = 0 then s else s.canOffer k f x.sof)

/-- CAN_TX_ERROR (R370, R377, R378): TEC rises by 8 unless the standard holds it. At the limit of attempts the frame is
abandoned; sixteen ACK errors in a row set ALONE. In loopback a missing ACK is no error (R376). PRESUMED: log entry 28. -/
def execCanTxError (n : Fin 16) (e : CanErr) (dataPhase held : Bool) (s : State) : Host.Outcome State Fault Refusal :=
  .next (
    let k : Nat := n
    match (s.can k).sending with
    | none => s
    | some x =>
      let m := x.who
      if e = .ack ∧ s.canLoop k ≠ 0 then s
      else
      let s := s.canErr k e dataPhase
      let s := s.setCan k fun y => { y with
        sending := none, tec := if held then y.tec else y.tec + 8, tries := Tab.set 0 y.tries m (Tab.get 0 y.tries m + 1),
        ackErrs := if e = .ack then y.ackErrs + 1 else 0 }
      let s := if 16 ≤ (s.can k).ackErrs ∧ !(s.can k).alone then
          ((s.setCan k fun y => { y with alone := true }).raise (canPage k) 4).post 0x62 .can k 0 (s.canErrWord k)
            (w32 (s.can k).ackErrs) 0 0
        else s
      let retx := s.canRetx k m
      let s := if retx ≠ 0 ∧ retx ≤ Tab.get 0 (s.can k).tries m then
          let id := s.canIdWord k m
          ((s.canTxEnd k m false).raise (canPage k) 2).post 0x63 .can k (b2n (decide (m = 32)))
            (w32 (if m < 32 then m else 0xFF)) id (w32 retx) (s.rd (Reg.canLastErr k))
        else s
      s.canJudge k)

/-- A write of TXREQ (R366). -/
def State.canTxreq (s : State) (n : Nat) (v : Word) : State :=
  (upFrom 0 32).foldl (fun s m =>
    if !bit v m then s
    else if bit (s.rd (Reg.canTxpend n)) m || s.canListen n then s.bump (Reg.canCntMbRefused n)
    else (s.wr (Reg.canTxpend n) (s.rd (Reg.canTxpend n) ||| w32 (2 ^ m))).setCan n fun x =>
      { x with tries := Tab.set 0 x.tries m 0 }) s

/-- TXREQ (R366). -/
def execTxreq (n : Fin 16) (v : Word) (s : State) : Host.Outcome State Fault Refusal := .next (s.canTxreq n v)

/-- CANCEL_LATE (R371, R379). -/
def State.cancelLate (s : State) (n : Nat) (x : CanTx) : State :=
  (s.raise (canPage n) 5).post 0x64 .can n (b2n (decide (x.who = 32))) (w32 (if x.who < 32 then x.who else 0xFF))
    (s.canIdWord n x.who) x.sof.sec (w32 x.sof.ns)

/-- A mailbox cancelled before its start of frame (R371). -/
def State.canCancelled (s : State) (n m : Nat) : State :=
  let b := w32 (2 ^ m)
  let s := s.wr (Reg.canTxpend n) (s.rd (Reg.canTxpend n) &&& ~~~ b)
  let s := (s.wr (Reg.canTxfail n) (s.rd (Reg.canTxfail n) ||| b)).setCan n fun x =>
    { x with lastCancel := true, tries := Tab.set 0 x.tries m 0 }
  s.raise (canPage n) 2

/-- A write of TXCANCEL (R371). -/
def State.canTxcancel (s : State) (n : Nat) (v : Word) : State :=
  (upFrom 0 32).foldl (fun s m =>
    if !bit v m || !bit (s.rd (Reg.canTxpend n)) m then s
    else match (s.can n).sending with
      | some x => if x.who = m then s.cancelLate n x else s.canCancelled n m
      | none => s.canCancelled n m) s

/-- TXCANCEL (R371). -/
def execTxcancel (n : Fin 16) (v : Word) (s : State) : Host.Outcome State Fault Refusal := .next (s.canTxcancel n v)

/-- A write of TXRES_CLR. -/
def State.canTxresClr (s : State) (n : Nat) (v : Word) : State :=
  (s.wr (Reg.canTxdone n) (s.rd (Reg.canTxdone n) &&& ~~~ v)).wr (Reg.canTxfail n) (s.rd (Reg.canTxfail n) &&& ~~~ v)

/-- TXRES_CLR (R369). -/
def execTxresClr (n : Fin 16) (v : Word) (s : State) : Host.Outcome State Fault Refusal := .next (s.canTxresClr n v)

/-- A committed packet is well formed: its length is 8 + the data bytes of its DLC, and FDF and DLC agree (R367).
PRESUMED: log entry 28. -/
def canPacketOk (len : Nat) (id ctrl : Word) : Bool :=
  let dlc := bits ctrl 16 4
  decide (8 ≤ len) && decide (len = 8 + canBytes id dlc) && (bit id 29 || decide (dlc ≤ 8)) && !(bit id 29 && bit id 30)

/-- A write of a controller's TX_DATA (R367): a malformed packet is discarded as it commits. -/
def State.canTxWrite (s : State) (n : Nat) (w : Word) : State :=
  let id := canTxFifo n
  let (done, s) := s.txDataWrite id w
  if !done then s
  else
    let base := s.lastHeader id
    let word (i : Nat) : Word := s.sramGet (s.fifoKey id (base + i))
    if canPacketOk (bits (word 0) 0 16) (word 1) (word 2) then s
    else
      let h := word 0
      ((s.setFifo id FifoSt.dropLast).qualFail (canPage n) 0x0802 n h (Reg.canCntTxRewind n)).raise (canPage n) 6

/-- CAN_TX_DATA_WRITE (R367). -/
def execCanTxDataWrite (n : Fin 16) (w : Word) (s : State) : Host.Outcome State Fault Refusal := .next (s.canTxWrite n w)

/-- The packets of a TX FIFO after the first `keep` of them removed; the rest of one still being written is discarded as it
arrives. -/
def FifoSt.cutTo (f : FifoSt) (id keep : Nat) : FifoSt :=
  { f with
    pkts := f.pkts.take keep,
    rd := if keep = 0 then f.rd + f.pkts.foldl (fun a p => a + pktSpan id p) 0 else f.rd,
    skip := match (f.pkts.drop keep).getLast? with
      | some p => if p.complete then f.skip else (p.declared + 3) / 4 - p.words
      | none => f.skip }

/-- TX_CMD.FLUSH (R371): every packet but one whose start of frame has been sent, which draws CANCEL_LATE. -/
def State.canTxFlush (s : State) (n : Nat) : State :=
  let id := canTxFifo n
  let keep := if (s.can n).sending.any fun x => decide (x.who = 32) then 1 else 0
  let some_ := decide (keep < (s.fifo id).pkts.length)
  let s := s.setFifo id fun f => f.cutTo id keep
  let s := if some_ then s.raise (canPage n) 2 else s
  let s := if some_ && decide (keep = 0) then
      (s.raise (canPage n) 7).setCan n fun x => { x with tries := Tab.set 0 x.tries 32 0 }
    else s
  match (s.can n).sending with
  | some x => if x.who = 32 then s.cancelLate n x else s
  | none => s

/-- CAN_TX_FLUSH (R371). -/
def execCanTxFlush (n : Fin 16) (s : State) : Host.Outcome State Fault Refusal := .next (s.canTxFlush n)

/-- A write of word i of mailbox m: ignored and counted while it is pending (R366). -/
def State.canMbWrite (s : State) (n m i : Nat) (v : Word) : State :=
  if bit (s.rd (Reg.canTxpend n)) m then s.bump (Reg.canCntMbRefused n)
  else s.wr (indKey (canPage n) (0x1000 + 0x80 * m + 4 * i)) v

/-- CAN_MB_WRITE (R366): the 18 words of a mailbox. -/
def execCanMbWrite (n : Fin 16) (m : Fin 32) (i : Fin 18) (v : Word) (s : State) : Host.Outcome State Fault Refusal :=
  .next (s.canMbWrite n m i v)

end Sys2Proof.Machine
end

