-- ==== Sys2Proof/Machine/Xbr.lean ====
section
/-! DEFINITION. The transaction bridge as initiator and its streams (R303–R316, R320, R323–R331, R333, R334): tags, frames, the
order table, releases, reports and the completion cache. What executes at the target is in XbrExec.lean. -/

namespace Sys2Proof.Machine

def State.setXbr (s : State) (f : XbrSt → XbrSt) : State := { s with xbr := f s.xbr }

/-- At least `us` µs of fabric time have passed since `t`, by the signed difference, so that a forced step shortens or lengthens
the interval (R325). -/
def State.waited (s : State) (t : TimePoint) (us : Nat) : Bool := decide (1000 * (us : Int) ≤ timeDiff s.now t)

/-- STREAM_AGE in µs. -/
def State.streamAge (s : State) : Nat := 1000 * s.fld Reg.xbrStreamAge 0 16

/-! ### Requesters and tags (R303–R305) -/

/-- The tag pool of a requester code: 0 host, 1–4 AC0–AC3, 5 shared. -/
def poolOf (code : Nat) : Nat := if code ≤ 4 then code else 5

/-- First tag and number of tags of a pool. -/
def poolTags (p : Nat) : Nat × Nat := if p = 0 then (0, 256) else if p = 5 then (384, 128) else (224 + 32 * p, 32)

def State.tag (s : State) (t : Nat) : TagSt := Tab.get TagSt.init s.xbr.tags t

def State.setTag (s : State) (t : Nat) (x : TagSt) : State :=
  s.setXbr fun b => { b with tags := Tab.set TagSt.init b.tags t x }

/-- The free tags of a pool. -/
def State.freeTags (s : State) (p : Nat) : List Nat :=
  (upFrom (poolTags p).1 (poolTags p).2).filter fun t => (s.tag t).holder.isNone

/-- A requester code that is not reserved (R303). -/
def codeOk (c : Nat) : Bool := decide (c ≤ 5) || (decide (8 ≤ c) && decide (c < 16))

/-- The tag word (R308). -/
def tagWord (epoch t : Nat) : Nat := 1024 * epoch + t

/-- The class of a requester's requests (R332). -/
def State.reqClass (s : State) (code : Nat) : Nat := if s.fld (Reg.xbrReqCfg code) 0 3 = 2 then 2 else 4

/-- The op of a request (R306). -/
def kindOp : ReqKind → Nat
  | .read => 1
  | .write => 2
  | .fetchAdd32 => 3
  | .fetchAdd64 => 4
  | .cas32 => 5
  | .cas64 => 6
  | .message => 2

/-- A request's destination is this hub: made with local rights, or addressed to an ID it holds (R26, R307, R396). -/
def State.isOwnNode (s : State) (n : Nat) : Bool :=
  (s.ring.home.active && decide (n = s.nodeId)) || (s.coupler && s.ring.far.active && decide (n = s.ring.far.id.toNat))

def State.toSelf (s : State) (p : XPend) : Bool := p.rights || s.isOwnNode p.req.dst.toNat

/-- A 4-byte READ at page offsets 0x800–0x8FF (R309, R330). -/
def isRs (op len addr : Nat) : Bool :=
  decide (op = 1) && decide (len = 4) && decide (addr < 0x1000000) && decide (addr % 0x1000 / 0x100 = 8)

/-! ### Fields of a payload (R308, R309) -/

def xTag (b : List Byte) : Nat := beAt b 2 2 % 16384
def xOseq (b : List Byte) : Nat := beAt b 4 2
def xEpoch (b : List Byte) : Nat := byteAt b 6 / 16
def xRetry (b : List Byte) : Bool := (byteAt b 6).testBit 3
def xBack (b : List Byte) : Nat := byteAt b 6 % 8 * 256 + byteAt b 7
def xLen (b : List Byte) : Nat := beAt b 14 2
def xData (b : List Byte) : List Byte := b.drop 16

/-! ### Sending in a stream (R311, R314) -/

/-- A stream's entry count allows another, or one may be replaced (R311). -/
def State.streamRoom (s : State) : Bool :=
  decide (s.xbr.streams.length < 4096) || s.xbr.streams.any fun e => e.2.any fun x => x.replaceable

/-- A new entry for a destination, in place of a replaceable one where the table is full. -/
def State.streamOpen (s : State) (dst : Nat) : State :=
  s.setXbr fun b =>
    let kept := if b.streams.length < 4096 then b.streams
      else match b.streams.find? fun e => e.2.any fun x => x.replaceable with
        | some e => Tab.drop b.streams e.1
        | none => b.streams
    { b with streams := Tab.put kept dst (some ⟨b.epochs, 0, s.now, false⟩), epochs := b.epochs + 1 }

/-- The payload of a frame at its place in the stream. -/
def XFrame.bytes (f : XFrame) (p : StreamPos) : List Byte :=
  let back := match f.earlier with
    | some r => if r.epoch = p.epoch ∧ (p.oseq + 65536 - r.oseq) % 65536 ≤ 2047 then (p.oseq + 65536 - r.oseq) % 65536 else 0
    | none => 0
  let e := 16 * (p.epoch % 16)
  let (b6, b7) := if f.type = 4 then (e, f.b7) else (e + at_ 3 (b2n f.retry) + back / 256, back % 256)
  beBytes 1 f.b0 ++ beBytes 1 f.code ++ beBytes 2 f.tag ++ beBytes 2 p.oseq ++ beBytes 1 b6 ++ beBytes 1 b7 ++ beBytes 6 f.addr
    ++ beBytes 2 f.len ++ f.data

/-- The last 1,024 posted frames are kept (R327). -/
def State.logPosted (s : State) (e : PostLog) : State :=
  s.setXbr fun b =>
    let l := b.log ++ [e]
    if l.length ≤ 1024 then { b with log := l }
    else match l with
      | o :: rest => { b with log := rest, evicted := Tab.set none b.evicted o.dst (some (o.epoch, o.index)) }
      | [] => b

/-- The request of a tag word was sent now, at a place of its stream where it went out in a frame (R314, R323, R326). -/
def State.noteSent (s : State) (tag : Nat) (p : Option StreamPos) : State :=
  let t := s.tag (tag % 1024)
  let note (o : OpenReq) : OpenReq :=
    { o with sent := p.or o.sent, firstAt := some (o.firstAt.getD s.now), sentAt := some s.now }
  if t.epoch = tag / 1024 then s.setTag (tag % 1024) { t with holder := t.holder.map note } else s

/-- A frame sent at the next place of its stream, which must have an entry: dual-sent in its class, and its place noted for a
retry or a cached answer. -/
def State.streamSend (s : State) (f : XFrame) (x : Stream) : State :=
  let p : StreamPos := ⟨x.epoch, x.count % 65536⟩
  let s := s.setXbr fun b =>
    { b with streams := Tab.put b.streams f.dst (some { x with count := x.count + 1, usedAt := s.now, replaceable := false }) }
  let s := if f.type = 4 then s.logPosted ⟨f.dst, x.epoch, x.count, f.code, f.addr, f.len, f.b0⟩ else s
  let s := if f.type = 2 then s.noteSent f.tag (some p)
    else if f.cached then
      let note (e : CacheEnt) : CacheEnt :=
        if e.source = f.dst ∧ e.code = f.code ∧ e.tag = f.tag ∧ e.first.isNone then { e with first := some p } else e
      s.setXbr fun b => { b with cache := b.cache.map note }
    else s
  s.originate f.cls f.type f.dst false (f.bytes p) 5

/-- A frame sent, or stalled where its destination has no stream entry and none can be taken (R311). -/
def State.sendX (s : State) (f : XFrame) : State :=
  match Tab.get none s.xbr.streams f.dst with
  | some x => s.streamSend f x
  | none =>
    if s.streamRoom then
      let s := s.streamOpen f.dst
      match Tab.get none s.xbr.streams f.dst with
      | some x => s.streamSend f x
      | none => s
    else (s.setXbr fun b => { b with waiting := b.waiting ++ [f] }).bump Reg.xbrCntStreamStall

/-! ### Reports (R328, R329, R236) -/

/-- A record as the bytes of an event report (R236). -/
def Rec.bytes (r : Rec) : List Byte :=
  [r.w0, r.w1, r.w2, r.w3, r.w4, r.w5, r.w6, r.w7].flatMap fun w => beBytes 4 w.toNat

/-- POSTED_WRITE_ERROR made here and sent to the source node, or routed here where that is this node. -/
def State.sendReport (s : State) (dst : Nat) (flags : Nat) (w4 w5 w6 w7 : Word) : State :=
  let (r, s) := s.mkRec 0x50 2 .xbr 0 flags s.now s.qualSum w4 w5 w6 w7
  if s.isOwnNode dst ∨ dst = s.nodeId then (s.raise 0x22 0).route r else s.originate 3 5 dst false r.bytes 5

/-- A posted frame that failed at the target with a status (R328). -/
def State.postedFailed (s : State) (p : PostReq) (status : Nat) : State :=
  let b := p.body
  (s.bump Reg.xbrCntPwError).sendReport p.source (1 + at_ 1 (b2n (decide (byteAt b 0 = 2))))
    (w32 (at_ 28 status + at_ 16 (byteAt b 1) + xOseq b)) (w32 (xAddr b)) (w32 (at_ 16 1 + xAddr b / 2 ^ 32 % 65536)) (w32 (xLen b % 512))

/-! ### Releases at the target (R312–R320, R324) -/

/-- A completion payload (R309), its stream fields 0. -/
def complBody (e : CacheEnt) (fromCache : Bool) : List Byte :=
  beBytes 1 (at_ 7 (b2n e.rs) + at_ 6 (b2n fromCache) + e.status) ++ beBytes 1 e.code ++ beBytes 2 e.tag ++ beBytes 4 0
    ++ beBytes 6 e.addr ++ beBytes 2 e.data.length ++ e.data

/-- STRANDED_READ for a cache entry, once (R331). -/
def State.strand (s : State) (e : CacheEnt) (cause : Nat) : State :=
  if e.stranded then s
  else
    let mark (x : CacheEnt) : CacheEnt :=
      if x.source = e.source ∧ x.code = e.code ∧ x.tag = e.tag then { x with stranded := true, heldAt := s.now } else x
    let s := s.setXbr fun b => { b with cache := b.cache.map mark }
    ((s.bump Reg.xbrCntStranded).raise 0x22 2).post 0x52 .xbr 0 0 (w32 (at_ 16 e.source + at_ 8 e.code + cause)) (w32 e.tag)
      (w32 (e.addr % 2 ^ 24)) (w32 (bytesNat (e.data.take 4)))

/-- A completion released from its stream, or from this node's own target (R315, R318). -/
def State.releaseCompletion (s : State) (source : Nat) (body : List Byte) : State :=
  s.setXbr fun x => { x with compl := x.compl ++ [⟨source, body, x.mark⟩], mark := x.mark + 1 }

/-- A completion sent to its source, to this node's own matcher where the request came from here. A read-sensitive one that finds
no port UP strands its entry (R229, R331). -/
def State.sendCompletion (s : State) (e : CacheEnt) (fromCache cached : Bool) : State :=
  if e.loop then s.releaseCompletion e.source (complBody e fromCache)
  else
    let side := s.originSide false e.source
    let up := s.portUp side || s.portUp (side + 1)
    let s := s.sendX { dst := e.source, cls := e.cls, type := 3, b0 := at_ 7 (b2n e.rs) + at_ 6 (b2n fromCache) + e.status,
                       code := e.code, tag := e.tag, retry := false, b7 := 0, addr := e.addr, len := e.data.length, data := e.data,
                       earlier := if fromCache then e.first else none, cached }
    if e.rs && cached && !up && decide (e.status = 0) then s.strand e 3 else s

/-- A request answered BUSY: not executed, not cached (R319). -/
def State.answerBusy (s : State) (r : InReq) : State :=
  let b := r.body
  (s.bump Reg.xbrCntBusySent).sendCompletion
    { source := r.source, cls := r.cls, code := byteAt b 1, tag := xTag b, status := 3, rs := isRs (byteAt b 0) (xLen b) (xAddr b),
      addr := xAddr b, data := [], first := none, stranded := false, loop := r.loop, heldAt := s.now } false false

/-- Two entries have one key: source, requester code and tag (R324). -/
def CacheEnt.sameKey (a b : CacheEnt) : Bool := decide (a.source = b.source ∧ a.code = b.code ∧ a.tag % 1024 = b.tag % 1024)

/-- The completion cache is full; entries that may be freed leave it by CC_HOLD_EXPIRY (R324). DEDUCED: log entry 55. -/
def State.cacheFull (s : State) : Bool := decide (1024 ≤ s.xbr.cache.length)

/-- The data bytes that an op carries (R306, R308). -/
def opData (op len : Nat) : Nat := if op = 1 then 0 else if op = 5 ∨ op = 6 then 2 * len else len

/-- Op and length as R306 gives them, of a request (type 2) or a posted frame. -/
def opLenOk (type op len : Nat) : Bool :=
  if type = 2 then
    if op = 1 then decide (4 ≤ len) && decide (len ≤ 256) && decide (len % 4 = 0)
    else if op = 2 then decide (1 ≤ len) && decide (len ≤ 256)
    else if op = 3 ∨ op = 5 then decide (len = 4)
    else decide (op = 4 ∨ op = 6) && decide (len = 8)
  else if op = 1 then decide (1 ≤ len) && decide (len ≤ 256)
  else if op = 2 then decide (len = 4)
  else decide (op = 3) && decide (len = 0)

/-- Whether a payload passes check 0x0601 (R333). -/
def xBodyOk (type : Nat) (b : List Byte) : Bool :=
  codeOk (byteAt b 1) && decide (16 ≤ b.length) &&
    (if type = 3 then decide (byteAt b 0 % 16 < 9) && decide (xLen b ≤ b.length - 16)
     else opLenOk type (byteAt b 0) (xLen b) && decide (opData (byteAt b 0) (xLen b) ≤ b.length - 16))

/-- A failure of check 0x0601. -/
def State.badFrame (s : State) (source : Nat) (b : List Byte) : State :=
  (s.qualFail 0x22 0x0601 source (w32 (byteAt b 0)) Reg.xbrCntBadReq).raise 0x22 5

/-- A released request: discarded while its ID is queued, answered from the cache, answered BUSY, or queued (R319, R320,
R324). -/
def State.releaseRequest (s : State) (r : InReq) : State :=
  let b := r.body
  let code := byteAt b 1
  let tag := xTag b
  if xRetry b && s.xbr.inq.any fun q => decide (q.source = r.source ∧ byteAt q.body 1 = code ∧ xTag q.body = tag) then
    s.bump Reg.xbrCntRetryPending
  else
    let mine (e : CacheEnt) : Bool := decide (e.source = r.source ∧ e.code = code ∧ e.tag % 1024 = tag % 1024)
    match s.xbr.cache.find? fun e => mine e && decide (e.tag = tag) && xRetry b with
    | some e => (s.bump Reg.xbrCntCcHit).sendCompletion e true true
    | none =>
      let s := s.setXbr fun x => { x with cache := x.cache.filter fun e => !(mine e && decide (e.tag ≠ tag)) }
      if 1024 ≤ s.xbr.inq.length ∨ s.cacheFull then s.answerBusy r
      else s.setXbr fun x => { x with inq := x.inq ++ [{ r with mark := x.mark }] }

/-- A posted frame released (R317). -/
def State.releasePosted (s : State) (p : PostReq) : State :=
  s.setXbr fun x => { x with posts := x.posts ++ [{ p with mark := x.mark, begun := false }], mark := x.mark + 1 }

/-- A frame released from a stream (R315, R333). -/
def State.releaseFrame (s : State) (source : Nat) (f : XRecv) : State :=
  let s := if xBodyOk f.type f.body then s else s.badFrame source f.body
  if f.type = 3 then (if xBodyOk 3 f.body then s.releaseCompletion source f.body else s)
  else if f.type = 2 then s.releaseRequest ⟨source, f.cls, f.body, false, false, 0⟩
  else s.releasePosted ⟨source, f.body, false, 0, false⟩

/-! ### The order table (R312–R314) -/

/-- int16 of a difference. -/
def int16 (a b : Nat) : Int := (BitVec.ofInt 16 ((a : Int) - b)).toInt

def State.order (s : State) (source : Nat) : Option Order := Tab.get none s.xbr.orders source

def State.setOrder (s : State) (source : Nat) (o : Order) : State :=
  s.setXbr fun b => { b with orders := Tab.put b.orders source (some o) }

/-- Frames held, of all sources. -/
def State.heldFrames (s : State) : Nat :=
  s.xbr.orders.foldl (fun a e => a + ((e.2.map fun o => (o.held.filter fun h => h.frame.isSome).length).getD 0)) 0

/-- Held frames that follow in sequence are released; `fuel` is their number. -/
def State.releaseRun (s : State) (source : Nat) : Nat → State
  | 0 => s
  | fuel + 1 =>
    match s.order source with
    | none => s
    | some o =>
      match o.held.find? fun h => decide (h.place = o.next) with
      | none => s
      | some h =>
        let s := s.setOrder source { o with next := (o.next + 1) % 65536, held := o.held.filter fun x => decide (x.place ≠ h.place) }
        let s := match h.frame with
          | some f => s.releaseFrame source f
          | none => s
        s.releaseRun source fuel

/-- A place of the stream taken by a frame, or by nothing that is left to release: released with what follows it, held, or
discarded (R312). -/
def State.orderPlace (s : State) (source place : Nat) (f : Option XRecv) : State :=
  match s.order source with
  | none => s
  | some o =>
    let d := int16 place o.next
    if d < 0 ∨ o.held.any fun h => decide (h.place = place) then (if f.isSome then s.bump Reg.xbrCntStreamStale else s)
    else if d = 0 then
      let s := s.setOrder source { o with next := (o.next + 1) % 65536 }
      let s := match f with
        | some x => s.releaseFrame source x
        | none => s
      s.releaseRun source o.held.length
    else if 1023 < d then (if f.isSome then s.bump Reg.xbrCntHoldDrop else s)
    else if f.isSome ∧ 1024 ≤ s.heldFrames then
      (s.qualFail 0x22 0x0603 source (w32 place) Reg.xbrCntHoldDrop).raise 0x22 5
    else s.setOrder source { o with held := o.held ++ [⟨place, f, s.now⟩] }

/-- The gap at the front of a stream declared lost: the missing places skipped, one LOST report, check 0x0602 and the held frames
released (R313, R329). -/
def State.gapLost (s : State) (source : Nat) : State :=
  match s.order source with
  | none => s
  | some o =>
    let first := o.held.foldl (fun m h => match m with
      | some k => if int16 h.place o.next < int16 k o.next then some h.place else some k
      | none => some h.place) none
    match first with
    | none => s
    | some k =>
      let n := (k + 65536 - o.next) % 65536
      let s := (s.qualFail 0x22 0x0602 source (w32 o.next) Reg.xbrCntGapLost).raise 0x22 5
      let s := s.sendReport source 0 (w32 (at_ 28 7 + o.next)) 0 (w32 (at_ 16 n)) 0
      (s.setOrder source { o with next := k }).releaseRun source o.held.length

/-- Every gap of a stream declared lost; `fuel` is the number of held frames. -/
def State.gapsLost (s : State) (source : Nat) : Nat → State
  | 0 => s
  | fuel + 1 => (s.gapLost source).gapsLost source fuel

/-- A place for a new source's entry: one of the table's 4,096, or that of an entry which has aged (R312). DESIGN CHOICE: log entry 90. -/
def State.orderRoom (s : State) : Option State :=
  if s.xbr.orders.length < 4096 then some s
  else match s.xbr.orders.find? fun e => e.2.any fun o => o.aged with
    | some e => some (s.setXbr fun b => { b with orders := Tab.drop b.orders e.1 })
    | none => none

/-- A frame judged by the order table (R312, R314): one of the entry's epoch by its place; one of another epoch where the entry has
aged or the epoch is newer. A frame of a new source that finds no entry is discarded. DESIGN CHOICE: log entry 90. -/
def State.orderJudge (s : State) (source : Nat) (f : XRecv) : State :=
  let b := f.body
  let fresh (s : State) : State :=
    (s.setOrder source ⟨xEpoch b, xOseq b, [], s.now, false⟩).orderPlace source (xOseq b) (some f)
  match s.order source with
  | none =>
    match s.orderRoom with
    | some s => fresh s
    | none => s.bump Reg.xbrCntHoldDrop
  | some o =>
    if o.epoch ≠ xEpoch b then
      let d := (xEpoch b + 16 - o.epoch) % 16
      if o.aged ∨ (1 ≤ d ∧ d ≤ 7) then fresh (s.gapsLost source o.held.length) else s.bump Reg.xbrCntStreamStale
    else
      let s := s.setOrder source { o with lastAt := s.now, aged := false }
      let back := if f.type = 4 then 0 else xBack b
      let r := (xOseq b + 65536 - back) % 65536
      if back ≠ 0 ∧ 0 ≤ int16 r o.next ∧ !o.held.any (fun h => decide (h.place = r)) then
        (s.orderPlace source r (some f)).orderPlace source (xOseq b) none
      else s.orderPlace source (xOseq b) (some f)

/-- TRANSACTION_FRAME_RECEIVE (R312, R333): the oldest transaction frame delivered to XBR; one too short to answer is
discarded. -/
def execTransactionFrameReceive (s : State) : Host.Outcome State Fault Refusal :=
  .next (match s.net.toXbr with
    | [] => s
    | d :: rest =>
      let s := s.setNet fun n => { n with toXbr := rest }
      let b := payload d.bytes
      let source := hdrSource d.bytes
      if b.length < 16 then s.badFrame source b
      else s.orderJudge source ⟨hdrClass d.bytes, hdrType d.bytes, b⟩)

/-- GAP_WAIT has passed since the first frame was held behind a source's gap (R313). -/
def State.gapDue (s : State) (o : Order) : Bool :=
  o.held.any fun h => h.frame.isSome && s.waited h.since (s.fld Reg.xbrGapWait 0 20)

/-- GAP_LOST (R313). -/
def execGapLost (source : BitVec 16) (s : State) : Host.Outcome State Fault Refusal :=
  .next (if (s.order source.toNat).any s.gapDue then s.gapLost source.toNat else s)

/-- STREAM_AGE_EXPIRY (R312): an entry ages STREAM_AGE after its last frame where it holds none. -/
def execStreamAgeExpiry (source : BitVec 16) (s : State) : Host.Outcome State Fault Refusal :=
  .next (match s.order source.toNat with
    | some o =>
      if (o.held.all fun h => h.frame.isNone) && s.waited o.lastAt s.streamAge then s.setOrder source.toNat { o with aged := true }
      else s
    | none => s)

/-- STREAM_ENTRY_IDLE_EXPIRY (R311): 2 × STREAM_AGE after its last frame the entry becomes replaceable, and the oldest stalled frame of
another destination takes it, with the other frames stalled for that destination. -/
def execStreamEntryIdleExpiry (dst : BitVec 16) (s : State) : Host.Outcome State Fault Refusal :=
  .next (
    let k := dst.toNat
    match Tab.get none s.xbr.streams k with
    | none => s
    | some x =>
      if !s.waited x.usedAt (2 * s.streamAge) then s
      else
      let s := s.setXbr fun b => { b with streams := Tab.put b.streams k (some { x with replaceable := true }) }
      match s.xbr.waiting with
      | [] => s
      | f :: _ =>
        let mine := s.xbr.waiting.filter fun g => decide (g.dst = f.dst)
        let s := s.setXbr fun b => { b with waiting := b.waiting.filter fun g => decide (g.dst ≠ f.dst) }
        mine.foldl (fun s g => s.sendX g) s)

/-! ### Issuing (R305–R307, R327, R332) -/

/-- A DISCARD notice for a request ID (R330). DEDUCED: log entry 54. -/
def State.sendDiscard (s : State) (dst code tag addr : Nat) (own : Bool) : State :=
  if own then
    s.releasePosted ⟨s.nodeId, beBytes 1 3 ++ beBytes 1 code ++ beBytes 2 tag ++ beBytes 4 0 ++ beBytes 6 addr ++ beBytes 2 0, true, 0, false⟩
  else
    s.sendX { dst, cls := s.reqClass code, type := 4, b0 := 3, code, tag, retry := false, b7 := 0, addr, len := 0, data := [],
              earlier := none, cached := false }

/-- A posted write or MESSAGE sent, or released here where it is addressed to this node. DEDUCED: log entry 54. -/
def State.sendPosted (s : State) (p : XPend) (op : Nat) : State :=
  let q := p.req
  let s := s.bump Reg.xbrCntPostedIssued
  let addr := if op = 2 then 0 else q.addr.toNat
  let b7 := if op = 2 then q.vector.toNat else 0
  let len := if op = 2 then 4 else q.len
  if s.toSelf p then
    s.releasePosted ⟨s.nodeId, beBytes 1 op ++ beBytes 1 q.code ++ beBytes 5 0 ++ beBytes 1 b7 ++ beBytes 6 addr ++ beBytes 2 len
      ++ q.data, p.rights, 0, false⟩
  else
    s.sendX { dst := q.dst.toNat, cls := s.reqClass q.code, type := 4, b0 := op, code := q.code, tag := 0, retry := false, b7, addr,
              len, data := q.data, earlier := none, cached := false }

/-- The request of tag t sent or sent again, or released here (R307, R323). -/
def State.sendRequest (s : State) (t : Nat) (retry : Bool) : State :=
  let x := s.tag t
  match x.holder with
  | none => s
  | some o =>
    let q := o.pend.req
    let w := tagWord x.epoch t
    let op := kindOp q.kind
    let s := s.setTag t { x with holder := some { o with backoff := false, sentAt := none } }
    if s.toSelf o.pend then
      (s.noteSent w none).releaseRequest ⟨s.nodeId, o.cls, beBytes 1 op ++ beBytes 1 q.code ++ beBytes 2 w ++ beBytes 2 0
        ++ beBytes 1 (at_ 3 (b2n retry)) ++ beBytes 1 0 ++ beBytes 6 q.addr.toNat ++ beBytes 2 q.len ++ q.data, true,
        o.pend.rights, 0⟩
    else
      s.sendX { dst := q.dst.toNat, cls := o.cls, type := 2, b0 := op, code := q.code, tag := w, retry, b7 := 0,
                addr := q.addr.toNat, len := q.len, data := q.data, earlier := if retry then o.sent else none, cached := false }

/-- A host READ through the aperture waits for every earlier bridged host WRITE to its destination, those of BAR0 being writes to
the hub's own node (R332, R396). -/
def State.hostReadWaits (s : State) (p : XPend) : Bool :=
  decide (p.req.code = 0) && decide (p.req.kind = .read) && !p.rights &&
    (upFrom 0 256).any fun t => (s.tag t).holder.any fun o =>
      decide (o.pend.req.kind = .write) && (decide (o.pend.req.dst = p.req.dst) || (s.toSelf o.pend && s.toSelf p))

/-- A non-posted request that can be issued now, with the tag it takes; `before` are requests stalled before it. -/
def State.tagFor (s : State) (p : XPend) (before : List XPend) : Option Nat :=
  if (before.any fun q => decide (q.req.code = p.req.code)) || s.hostReadWaits p then none
  else (s.freeTags (poolOf p.req.code)).head?

/-- A non-posted request issued with a tag (R304). -/
def State.issueTag (s : State) (p : XPend) (t : Nat) : State :=
  let e := ((s.tag t).epoch + 1) % 16
  let s := (s.bump Reg.xbrCntNpIssued).setTag t ⟨e, some ⟨p, s.reqClass p.req.code, none, 0, false, none, none, s.now⟩⟩
  s.sendRequest t false

/-- A requester's stall, and TAG_EXHAUSTED under the spacing of R22 (R305, R334). DEDUCED: log entry 54. -/
def State.tagStall (s : State) (p : XPend) : State :=
  let pool := poolOf p.req.code
  let s := s.setXbr fun b => { b with stalled := b.stalled ++ [p] }
  if (s.freeTags pool).isEmpty then
    ((s.bump Reg.xbrCntTagStall).raise 0x22 3).gather (0x40000 + pool)
      { Gather.init with ty := 0x53, page := 0x22, w4 := w32 pool, w6 := 0, countWord := 5 }
  else s

/-- A requester's access handed to XBR (R306, R332). DEDUCED: log entry 54. -/
def State.issue (s : State) (p : XPend) : State :=
  let q := p.req
  if q.kind = .message then
    if s.nodeId = 0 ∧ q.vector = 0 then
      s.setXbr fun b => { b with answers := b.answers ++ [⟨q.code, p.user, 2, []⟩] }
    else s.sendPosted p 2
  else if q.kind = .write ∧ s.flag (Reg.xbrReqCfg q.code) 8 then s.sendPosted p 1
  else match s.tagFor p s.xbr.stalled with
    | some t => s.issueTag p t
    | none => s.tagStall p

/-- REQUEST_ISSUE (R306): by an application core or the steward. -/
def execRequestIssue (q : XReq) (user : Nat) (s : State) : Host.Outcome State Fault Refusal :=
  .next (if codeOk q.code then s.issue ⟨q, false, user⟩ else s)

/-- The first stalled request that can be issued, with its tag. -/
def State.stallEnd (s : State) (before : List XPend) : List XPend → Option (XPend × Nat)
  | [] => none
  | p :: rest =>
    match s.tagFor p before with
    | some t => some (p, t)
    | none => s.stallEnd (before ++ [p]) rest

/-- TAG_STALL_END (R305). -/
def execTagStallEnd (s : State) : Host.Outcome State Fault Refusal :=
  .next (match s.stallEnd [] s.xbr.stalled with
    | some (p, t) => (s.setXbr fun b => { b with stalled := b.stalled.erase p }).issueTag p t
    | none => s)

/-- RETRY_TIME has passed since the last sending, 0 acting as 1 (R323). -/
def State.retryDue (s : State) (o : OpenReq) : Bool :=
  let n := s.fld Reg.xbrRetry 0 16
  !o.backoff && o.sentAt.any fun t => s.waited t (if n = 0 then 1 else n)

/-- The backoff after the request's last BUSY in µs: 2, doubled with each further one, at most BACKOFF_MAX, of which 0 acts as 2
(R323). -/
def State.backoffTime (s : State) (o : OpenReq) : Nat :=
  let m := s.fld Reg.xbrRetry 16 16
  capAt (if m = 0 then 2 else m) (2 ^ o.busy)

/-- RETRY_TIMER (R323): no completion has arrived since the last sending. -/
def execRetryTimer (t : Fin 512) (s : State) : Host.Outcome State Fault Refusal :=
  .next (match (s.tag t).holder with
    | some o => if s.retryDue o then (s.bump Reg.xbrCntRetry).sendRequest t true else s
    | none => s)

/-- BUSY_BACKOFF_EXPIRY (R323). -/
def execBusyBackoffExpiry (t : Fin 512) (s : State) : Host.Outcome State Fault Refusal :=
  .next (match (s.tag t).holder with
    | some o =>
      if o.backoff && s.waited o.busyAt (s.backoffTime o) then (s.bump Reg.xbrCntRetry).sendRequest t true else s
    | none => s)

/-! ### Event reports (R236, R329) -/

/-- A record of an event report, word i most significant byte first, REMOTE set. -/
def recOf (b : List Byte) : Rec :=
  let w (i : Nat) : Word := w32 (beAt b (4 * i) 4)
  ⟨setBits (setBits (w 0) 31 1 0) 5 1 1, w 1, w 2, w 3, w 4, w 5, w 6, w 7⟩

/-- The records of a payload of 32–256 bytes in multiples of 32. -/
def reportRecs (b : List Byte) : List Rec :=
  if b.length % 32 = 0 ∧ 32 ≤ b.length ∧ b.length ≤ 256 then
    (upFrom 0 (b.length / 32)).map fun i => recOf ((b.drop (32 * i)).take 32)
  else []

/-- A LOST report: POSTED_WRITE_ERROR of status LOST. -/
def Rec.isLost (r : Rec) : Bool := decide (bits r.w0 24 7 = 0x50) && decide (bits r.w4 28 4 = 7)

/-- A record routed here; TYPE 0x00 is never written (R45), and POSTED_WRITE_ERROR raises XBR's interrupt. -/
def State.takeRec (s : State) (r : Rec) : State :=
  if bits r.w0 24 7 = 0 then s
  else (if bits r.w0 24 7 = 0x50 then s.raise 0x22 0 else s).route r

/-- Where the range of a LOST report lies in the stream to a node that is open now: the epoch and the index of its first frame; none
where it lies in an earlier one. -/
def State.lostFrom (s : State) (node first n : Nat) : Option (Nat × Nat) :=
  match Tab.get none s.xbr.streams node with
  | none => none
  | some x =>
    let back := (x.count + 65536 * 2 - (first + n)) % 65536
    if back + n ≤ x.count then some (x.epoch, x.count - back - n) else none

/-- A LOST report replaced by one record for each logged posted write or message of its range, and one for the part no longer in the log
(R329). DEDUCED: log entry 54. -/
def State.takeLost (s : State) (r : Rec) : State :=
  let node := bits r.w3 16 16
  let first := bits r.w4 0 16
  let n := bits r.w6 16 16
  let place := s.lostFrom node first n
  let current := (Tab.get none s.xbr.streams node).map fun x => x.epoch
  let low (k : Nat) : Nat := (k % 65536 + 65536 - first) % 65536
  let inRange (e : PostLog) : Bool := match place with
    | some (ep, k) => decide (e.epoch = ep ∧ k ≤ e.index ∧ e.index < k + n)
    | none => decide (current ≠ some e.epoch) && decide (low e.index < n)
  let mine := s.xbr.log.filter fun e => decide (e.dst = node) && decide (e.op ≠ 3) && inRange e
  let s := mine.foldl (fun s e => s.takeRec { r with
    w0 := setBits r.w0 0 5 (1 + at_ 1 (b2n (decide (e.op = 2)))), w4 := w32 (at_ 28 7 + at_ 16 e.code + e.index % 65536), w5 := w32 e.addr,
    w6 := w32 (at_ 16 1 + e.addr / 2 ^ 32 % 65536), w7 := w32 (e.len % 512) }) s
  match Tab.get none s.xbr.evicted node with
  | some (ep, o) =>
    let gone := match place with
      | some (e, k) => if e = ep ∧ k ≤ o then capAt n (o + 1 - k) else 0
      | none => if current = some ep ∨ (n ≤ low o ∧ low o < 32768) then n else if low o < n then low o + 1 else 0
    if gone = 0 then s
    else s.takeRec { r with w0 := setBits r.w0 0 5 0, w4 := w32 (at_ 28 7 + first), w5 := 0, w6 := w32 (at_ 16 gone), w7 := 0 }
  | none => s

/-- The first delivered event report that `lost` names, its records taken. -/
def State.takeReport (s : State) (lost : Bool) : State :=
  match s.net.toEvq.find? fun d => (reportRecs (payload d.bytes)).any Rec.isLost == lost with
  | none => s
  | some d =>
    let s := s.setNet fun n => { n with toEvq := n.toEvq.erase d }
    (reportRecs (payload d.bytes)).foldl (fun s r => if r.isLost then s.takeLost r else s.takeRec r) s

/-- LOST_REPORT_RECEIVE (R329). -/
def execLostReportReceive (s : State) : Host.Outcome State Fault Refusal := .next (s.takeReport true)

/-- EVENT_REPORT_RECEIVE (R236, R403). -/
def execEventReportReceive (s : State) : Host.Outcome State Fault Refusal := .next (s.takeReport false)

/-! ### The message FIFO and the cache's hold (R321, R324, R331) -/

/-- A read of MSG_DATA (R321). -/
def State.msgRead (s : State) : Word × State :=
  match s.xbr.msgs with
  | [] => (0, s.setXbr fun b => { b with msgUnderrun := true })
  | (a, b) :: rest =>
    if s.xbr.msgHalf then (b, s.setXbr fun x => { x with msgs := rest, msgHalf := false })
    else (a, s.setXbr fun x => { x with msgHalf := true })

/-- MSG_DATA_READ (R321). -/
def execMsgDataRead (s : State) : Host.Outcome State Fault Refusal :=
  .next (s.msgRead.2.answered s.msgRead.1)

/-- MSG_UNDER_CLR (R321). -/
def execMsgUnderClr (s : State) : Host.Outcome State Fault Refusal :=
  .next (s.setXbr fun b => { b with msgUnderrun := false })

/-- The hold of a completion cache entry in µs: CC_HOLD, and for a stranded entry at least 1 ms (R324, R331). -/
def State.holdTime (s : State) (e : CacheEnt) : Nat :=
  let h := s.fld Reg.xbrCcHold 0 20
  if e.stranded && decide (h < 1000) then 1000 else h

/-- CC_HOLD_EXPIRY (R324, R331): an entry whose hold has passed is freed. -/
def execCcHoldExpiry (source : BitVec 16) (code : Byte) (tag : BitVec 14) (s : State) : Host.Outcome State Fault Refusal :=
  .next (
    let kept (e : CacheEnt) : Bool :=
      !(decide (e.source = source.toNat ∧ e.code = code.toNat ∧ e.tag = tag.toNat) && s.waited e.heldAt (s.holdTime e))
    s.setXbr fun b => { b with cache := b.cache.filter kept })

end Sys2Proof.Machine
end

