-- ==== Sys2Proof/Machine/Dma.lean ====
section
/-! DEFINITION. DMA channels (R413–R416, R418) and the event queues' registers (R404, R407, R409, R412). -/

namespace Sys2Proof.Machine

/-! ### Event queues -/

/-- A write of Q_CFG n: fields other than EN only while EN = 0; enabling sets P and the count to 0 and the phase to 1 (R404).
DEDUCED: log entry 59. -/
def State.qCfgWrite (s : State) (n : Nat) (v : Word) : State :=
  let k := Reg.evqQCfg n
  if s.flag k 31 then s.setFld k 31 1 (b2n (bit v 31))
  else
    let s := s.wr k (v &&& w32 (directMask 0x24 (k % 0x1000)))
    if bit v 31 then s.setEvQueue n EvQueue.init else s

/-- Q_CFG_WRITE (R404). -/
def execQCfgWrite (n : Fin 16) (v : Word) (s : State) : Host.Outcome State Fault Refusal := .next (s.qCfgWrite n v)

/-- A write of Q_CI n: ignored where it would increase the fill (R407, R417); a queue in OVERFLOW recovers (R408). -/
def State.qCiWrite (s : State) (n : Nat) (v : Word) : State :=
  let t := s.wr (Reg.evqQCi n) (v &&& 0xFFFF#32)
  if s.evFill n < t.evFill n then s.qualFail 0x24 0x0A01 n v Reg.evqCntBadCi else t.evRecover n

/-- Q_CI_WRITE (R407, R408). -/
def execQCiWrite (n : Fin 16) (v : Word) (s : State) : Host.Outcome State Fault Refusal := .next (s.qCiWrite n v)

/-- EVQ_HOLDOFF_EXPIRY (R409): HOLDOFF µs after the first unannounced record of an enabled queue. -/
def execEvqHoldoffExpiry (n : Fin 16) (s : State) : Host.Outcome State Fault Refusal :=
  .next (match (s.evQueue n).holdoff with
    | some t =>
      if s.flag (Reg.evqQCfg n) 31 && s.passed t (usTclks (s.fld (Reg.evqQMod n) 16 16)) && decide (0 < (s.evQueue n).unannounced)
      then s.evAnnounce n
      else s
    | none => s)

/-- A write of POST_CMD (R412). -/
def State.postCmd (s : State) (v : Word) : State :=
  if bit v 8 then
    s.postFull 5 (bits v 6 2) .evq 0 (bits v 0 5) s.now s.qualSum (s.rd (Reg.evqPostW 0)) (s.rd (Reg.evqPostW 1))
      (s.rd (Reg.evqPostW 2)) (s.rd (Reg.evqPostW 3))
  else s

/-- POST_CMD (R412). -/
def execPostCmd (v : Word) (s : State) : Host.Outcome State Fault Refusal := .next (s.postCmd v)

/-! ### Channels and descriptors (R413–R415) -/

def State.dmaCh (s : State) (c : Nat) : DmaSt := Tab.get DmaSt.init s.dma c

def State.setDma (s : State) (c : Nat) (f : DmaSt → DmaSt) : State :=
  { s with dma := Tab.set DmaSt.init s.dma c (f (s.dmaCh c)) }

/-- Word i of the descriptor in hand. -/
def DmaSt.w (d : DmaSt) (i : Nat) : Word := ((d.desc.getD []).drop i).headD 0

def DmaSt.length (d : DmaSt) : Nat := bits (d.w 0) 0 24
def DmaSt.src (d : DmaSt) : Nat := (d.w 1).toNat + (d.w 2).toNat * 2 ^ 32
def DmaSt.dst (d : DmaSt) : Nat := (d.w 3).toNat + (d.w 4).toNat * 2 ^ 32
def DmaSt.srcFixed (d : DmaSt) : Bool := bit (d.w 0) 30
def DmaSt.dstFixed (d : DmaSt) : Bool := bit (d.w 0) 29
def DmaSt.srcHost (d : DmaSt) : Bool := bit (d.w 0) 28
def DmaSt.dstHost (d : DmaSt) : Bool := bit (d.w 0) 27

/-- Address of byte `off` of a side. -/
def sideAddr (base off : Nat) (fixed : Bool) : Nat := if fixed then base else (base + off) % 2 ^ 64

/-- A fabric address in the register pages at offsets 0x800–0x8FF. -/
def fabricRs (a : Nat) : Bool := decide (a % 2 ^ 48 < 0x1000000) && decide (a % 0x1000 / 0x100 = 8)

/-- Bytes of the access at address a with `left` bytes to go: a word at a fixed or read-sensitive address, otherwise up to the next
256-byte boundary (R415). -/
def chunkLen (a left : Nat) (fixed host : Bool) : Nat :=
  let n := if fixed || (!host && fabricRs a) then 4 - a % 4 else 256 - a % 256
  capAt n left

/-- LENGTH 0, or a fixed address that is not word-aligned or has a LENGTH that is no multiple of 4 (R415, R416). -/
def DmaSt.bad (d : DmaSt) : Bool :=
  decide (d.length = 0)
    || (d.srcFixed && decide (d.src % 4 ≠ 0)) || (d.dstFixed && decide (d.dst % 4 ≠ 0))
    || ((d.srcFixed || d.dstFixed) && decide (d.length % 4 ≠ 0))

/-- The descriptors of a ring, and the address of descriptor i (R413). -/
def State.dmaRing (s : State) (c : Nat) : Nat :=
  let l := s.fld (Reg.dmaDcCfg c) 0 4
  2 ^ (if 2 ≤ l ∧ l ≤ 12 then l else 2)

def State.descAddr (s : State) (c i : Nat) : Nat :=
  let a := (s.rd (Reg.dmaDcRingLo c)).toNat + (s.rd (Reg.dmaDcRingHi c)).toNat * 2 ^ 32
  a - a % 32 + 32 * i

/-- The ring lies in host space. -/
def State.ringInHost (s : State) (c : Nat) : Bool := !s.flag (Reg.dmaDcCfg c) 31

/-- Bytes a to a + n − 1 lie in application SRAM or fitted DDR4. -/
def State.inMemory (s : State) (a n : Nat) : Bool :=
  (decide (0x1000000 ≤ a) && decide (a + n ≤ 0x1400000))
    || (decide (0x100000000 ≤ a) && decide (a + n ≤ 0x100000000 + s.ddrMiB * 0x100000))

def State.dmaFail (s : State) (c status addr : Nat) : State :=
  s.setDma c fun d => if d.fail.isSome then d else { d with fail := some (status, addr) }

/-- The next read issued: a host read, or a READ of aligned words that cover the bytes wanted. -/
def State.dmaRead (s : State) (c : Nat) : State :=
  let d := s.dmaCh c
  let a := sideAddr d.src d.asked d.srcFixed
  let n := chunkLen a (d.length - d.asked) d.srcFixed d.srcHost
  let s := s.setDma c fun d => { d with asked := d.asked + n, reads := d.reads ++ [⟨d.asked, n, none, s.tclks⟩] }
  if d.srcHost then s.sendTlp (.memRead c d.asked (BitVec.ofNat 64 a) n)
  else
    let lo := a - a % 4
    s.issue ⟨⟨8 + c, BitVec.ofNat 16 (a / 2 ^ 48), .read, BitVec.ofNat 48 lo, (a + n + 3) / 4 * 4 - lo, [], 0⟩, false, d.asked⟩

/-- The number of a write access, apart from those of reads. -/
def dmaWriteUser (off : Nat) : Nat := 2 ^ 32 + off

/-- The first bytes of the data in hand written, in address order. -/
def State.dmaWrite (s : State) (c : Nat) (data : List Byte) : State :=
  let d := s.dmaCh c
  let a := sideAddr d.dst d.wrote d.dstFixed
  let n := chunkLen a data.length d.dstFixed d.dstHost
  let b := data.take n
  let keep (r : DmaRead) : DmaRead := { r with data := some (data.drop n) }
  let s := s.setDma c fun d => { d with
    wrote := d.wrote + n,
    reads := match d.reads with
      | r :: rest => if data.length ≤ n then rest else keep r :: rest
      | [] => [] }
  let s := s.wr (Reg.dmaDcBytes c) (s.rd (Reg.dmaDcBytes c) + w32 n)
  if d.dstHost then s.sendTlp (.memWrite (BitVec.ofNat 64 a) b)
  else
    let s := if s.flag (Reg.xbrReqCfg (8 + c)) 8 then s
      else s.setDma c fun d => { d with writes := d.writes ++ [(dmaWriteUser (d.wrote - n), a)] }
    s.issue ⟨⟨8 + c, BitVec.ofNat 16 (a / 2 ^ 48), .write, BitVec.ofNat 48 a, n, b, 0⟩, false, dmaWriteUser d.wrote⟩

/-- The destination takes words, and the data in hand are less than a word with more to come. -/
def DmaSt.short (d : DmaSt) (n : Nat) : Bool :=
  let a := sideAddr d.dst d.wrote d.dstFixed
  (d.dstFixed || (!d.dstHost && fabricRs a)) && decide (n < 4) && decide (d.wrote + n < d.length)

/-- The data in hand: the oldest read's, joined with the next one's where it falls short of a word. -/
def DmaSt.joined (d : DmaSt) : DmaSt :=
  match d.reads with
  | ⟨o, n, some a, t⟩ :: ⟨_, m, some b, _⟩ :: rest =>
    if d.short a.length then { d with reads := ⟨o, n + m, some (a ++ b), t⟩ :: rest } else d
  | _ => d

/-- The hub has all 64 of its host reads outstanding (R393). -/
def State.hostReadsFull (s : State) : Bool :=
  decide (64 ≤ s.dma.foldl (fun n e => if e.2.srcHost then n + (e.2.reads.filter fun r => r.data.isNone).length else n) 0)

/-- The channel's next accesses: data in hand written, reads issued while fewer than 16 are open (R415), and of the host's fewer than 64
of all channels (R393). -/
def State.dmaPump (s : State) (c : Nat) : Nat → State
  | 0 => s
  | fuel + 1 =>
    let s := s.setDma c DmaSt.joined
    let d := s.dmaCh c
    if d.desc.isNone ∨ d.fail.isSome then s
    else
      let hand := match d.reads with
        | r :: _ => r.data
        | [] => none
      match hand.filter fun b => !d.short b.length with
      | some b => (s.dmaWrite c b).dmaPump c fuel
      | none =>
        if d.asked < d.length ∧ (d.reads.filter fun r => r.data.isNone).length < 16 ∧ !(d.srcHost && s.hostReadsFull) then
          (s.dmaRead c).dmaPump c fuel
        else s

/-- Accesses that one answer can set off: 64 words written of each of 16 reads, and 16 reads. -/
def pumpFuel : Nat := 1200

/-- An answer to one of the channel's accesses. -/
def State.dmaAnswer (s : State) (c user status : Nat) (data : List Byte) : State :=
  let d := s.dmaCh c
  if 2 ^ 32 ≤ user then
    match d.writes.find? fun w => decide (w.1 = user) with
    | none => s
    | some w =>
      let s := s.setDma c fun d => { d with writes := d.writes.erase w }
      if status = 0 then s else s.dmaFail c status w.2
  else
    match d.reads.find? fun r => decide (r.off = user) && r.data.isNone with
    | none => s
    | some r =>
      let a := sideAddr d.src user d.srcFixed
      let b := (if d.srcHost then data else data.drop (a % 4)).take r.len
      let done (x : DmaRead) : DmaRead := if x.off = user then { x with data := some b } else x
      let s := s.setDma c fun d => { d with reads := d.reads.map done }
      if status = 0 then s.dmaPump c pumpFuel else s.dmaFail c status a

/-- The channels that wait for a free host read go on. -/
def State.dmaPumpAll (s : State) : State := (upFrom 0 8).foldl (fun s c => s.dmaPump c pumpFuel) s

/-! ### Rows (R413–R416) -/

/-- DC_HEAD and DC_TAIL as places in the ring. -/
def State.dmaHead (s : State) (c : Nat) : Nat := s.fld (Reg.dmaDcHead c) 0 12 % s.dmaRing c
def State.dmaTail (s : State) (c : Nat) : Nat := s.fld (Reg.dmaDcTail c) 0 12 % s.dmaRing c

/-- An access's number under which no descriptor waits for its answer. -/
def dmaStaleUser : Nat := 2 ^ 33

/-- The channel's open accesses lose their descriptor: their answers are taken by no later one. DEDUCED: log entry 62. -/
def State.dmaForsake (s : State) (c : Nat) : State :=
  let stale (p : XPend) : XPend := if p.req.code = 8 + c then { p with user := dmaStaleUser } else p
  let tag (t : TagSt) : TagSt := { t with holder := t.holder.map fun o => { o with pend := stale o.pend } }
  s.setXbr fun b => { b with tags := b.tags.map fun e => (e.1, tag e.2), stalled := b.stalled.map stale }

/-- DC_CTRL.RESET: the channel stops, its head and tail at 0. DEDUCED: log entry 62. -/
def State.dcReset (s : State) (c : Nat) : State :=
  ((((s.wr (Reg.dmaDcCtrl c) 0).wr (Reg.dmaDcHead c) 0).wr (Reg.dmaDcTail c) 0).dmaForsake c).setDma c fun _ => DmaSt.init

/-- A write of DC_CTRL: RESET first; RUN = 1 starts the channel, or restarts a failing descriptor from its beginning (R416). -/
def State.dcCtrlWrite (s : State) (c : Nat) (v : Word) : State :=
  let s := if bit v 1 then s.dcReset c else s
  if bit v 0 then (s.wr (Reg.dmaDcCtrl c) 1).setFld (Reg.dmaDcStatus c) 31 1 0 else s.wr (Reg.dmaDcCtrl c) 0

/-- DC_RUN_WRITE (R413, R416). -/
def execDcRunWrite (c : Fin 8) (v : Word) (s : State) : Host.Outcome State Fault Refusal := .next (s.dcCtrlWrite c v)

/-- DC_TAIL_WRITE (R413). -/
def execDcTailWrite (c : Fin 8) (v : Word) (s : State) : Host.Outcome State Fault Refusal :=
  .next (s.wr (Reg.dmaDcTail c) (v &&& 0xFFF#32))

/-- DC_RESET. -/
def execDcReset (c : Fin 8) (s : State) : Host.Outcome State Fault Refusal := .next (s.dcReset c)

/-- DMA_DESCRIPTOR_EXECUTE (R413–R415): the descriptor at DC_HEAD, as the host returns it where the ring lies in host space.
DEDUCED: log entry 62. -/
def execDmaDescriptorExecute (c : Fin 8) (fetched : HostCpl) (s : State) : Host.Outcome State Fault Refusal :=
  .next (
    let k : Nat := c
    if !s.flag (Reg.dmaDcCtrl k) 0 || (s.dmaCh k).desc.isSome || decide (s.dmaHead k = s.dmaTail k) then s
    else
      let a := s.descAddr k (s.dmaHead k)
      let start (b : List Byte) : State :=
        let words := (upFrom 0 6).map fun i => w32 (bytesNat ((b.drop (4 * i)).take 4))
        let fence := bit (words.headD 0) 26
        if fence ∧ (s.dmaCh k).writes ≠ [] then s
        else
          let s := s.setDma k fun d => { DmaSt.init with desc := some words, writes := d.writes }
          if (s.dmaCh k).bad then s.dmaFail k 0xB 0 else s.dmaPump k pumpFuel
      let refuse (status : Nat) : State :=
        (s.setDma k fun d => { DmaSt.init with desc := some [], writes := d.writes }).dmaFail k status a
      if s.ringInHost k then
        match fetched with
        | .data b => start b
        | .failed => refuse 9
      else if s.inMemory a 32 then start (s.memTake a 32)
      else refuse 1)

/-- Status and bytes transferred written back to the descriptor at DC_HEAD (R414). -/
def State.dmaWriteBack (s : State) (c status bytes : Nat) : State :=
  let a := s.descAddr c (s.dmaHead c) + 24
  let b := wordsBytes [w32 (at_ 31 1 + status), w32 bytes]
  if s.ringInHost c then s.sendTlp (.memWrite (BitVec.ofNat 64 a) b)
  else if s.inMemory a 8 then s.memPut a b
  else s

/-- DMA_DESCRIPTOR_COMPLETE (R413, R416): all bytes written and answered; or a failure, once no read is open.
DEDUCED: log entry 62. -/
def execDmaDescriptorComplete (c : Fin 8) (s : State) : Host.Outcome State Fault Refusal :=
  .next (
    let k : Nat := c
    let d := s.dmaCh k
    let w4 (status : Nat) : Word := w32 (at_ 28 status + at_ 16 k + s.dmaHead k)
    if d.desc.isNone then s
    else
      match d.fail with
      | some (status, addr) =>
        if (d.reads.any fun r => r.data.isNone) || !d.writes.isEmpty then s
        else
          let s := (s.dmaWriteBack k status d.wrote).setDma k fun _ => DmaSt.init
          let s := (s.wr (Reg.dmaDcCtrl k) 0).wr (Reg.dmaDcStatus k) (w32 (at_ 31 1 + status))
          (s.raise 0x25 (8 + k)).post 0x6A .dma 0 0 (w4 status) (d.w 5) (w32 d.wrote) (w32 addr)
      | none =>
        if d.wrote < d.length ∨ !d.writes.isEmpty then s
        else
          let s := (s.dmaWriteBack k 0 d.wrote).setDma k fun _ => DmaSt.init
          let s := (s.setFld (Reg.dmaDcStatus k) 0 4 0).wr (Reg.dmaDcHead k) (w32 ((s.dmaHead k + 1) % s.dmaRing k))
          if bit (d.w 0) 31 then (s.raise 0x25 k).post 0x69 .dma 0 0 (w4 0) (d.w 5) (w32 d.wrote) 0 else s)

/-- A channel halted by a host reset (R402): a descriptor in hand fails with HOST_ABORT (R416), its status written back where the ring
does not lie in host space. DEDUCED: log entry 62. -/
def State.dmaHostAbort (s : State) (c : Nat) : State :=
  let d := s.dmaCh c
  let head := s.dmaHead c
  let s := if d.desc.isSome && !s.ringInHost c then s.dmaWriteBack c 9 d.wrote else s
  let s := (s.dmaForsake c).setDma c fun _ => DmaSt.init
  let s := (s.wr (Reg.dmaDcCtrl c) 0).wr (Reg.dmaDcStatus c) (w32 (at_ 31 1 + 9))
  let s := s.raise 0x25 (8 + c)
  if d.desc.isSome then s.post 0x6A .dma 0 0 (w32 (at_ 28 9 + at_ 16 c + head)) (d.w 5) (w32 d.wrote) 0 else s

end Sys2Proof.Machine
end

