-- ==== Sys2Proof/Machine/Host.lean ====
section
/-! DEFINITION. The host port (R393–R402, R410, R417, R418), and the completions and timeouts of XBR's open requests, which answer
their requesters (R323, R326, R330, R332). -/

namespace Sys2Proof.Machine

def State.setHost (s : State) (f : HostSt → HostSt) : State := { s with host := f s.host }

/-- The host port is in use: EN = 1 and PERST# deasserted (R394, R411). -/
def State.hostOn (s : State) : Bool := s.hubUp && s.enabled 0x23 && !s.host.perst

/-- The port takes TLPs: the data link is up. -/
def State.hostLinked (s : State) : Bool := s.hostOn && s.host.up

/-- The port gives the host no credit for non-posted TLPs: a request of the host stalls for a tag (R305).
DEDUCED: log entry 61. -/
def State.npBlocked (s : State) : Bool := s.xbr.stalled.any fun p => decide (p.req.code = 0)

/-- Nor, where host writes are bridged as WRITEs, for posted ones (R305, R332). DEDUCED: log entry 61. -/
def State.postedBlocked (s : State) : Bool := s.npBlocked && !s.flag (Reg.xbrReqCfg 0) 8

/-! ### Configuration (R394, R410) -/

/-- PERST_DEASSERT (R394). -/
def execPerstDeassert (s : State) : Host.Outcome State Fault Refusal :=
  .next (if s.host.perst then s.setHost fun h => { h with perst := false, retrying := true, perstAt := s.tclks } else s)

/-- CFG_RETRY_TIMEOUT (R394): 1 s after the deassertion. -/
def execCfgRetryTimeout (s : State) : Host.Outcome State Fault Refusal :=
  .next (if !s.host.perst && s.passed s.host.perstAt (msTclks 1000) then s.setHost fun h => { h with retrying := false } else s)

/-- The pending message of vector v sent where nothing masks it (R410). -/
def State.msixRelease (s : State) (v : Nat) : State :=
  let e := Tab.get MsixVec.init s.msix v
  if setHas s.msixPba v && !e.masked && !s.msixFuncMask && s.msixEnable then
    ({ s with msixPba := setDel s.msixPba v }).sendTlp (.msix v e.addr e.data)
  else s

/-- HOST_CONFIG_REQUEST (R394): answered with retry status until CFG_READY is set or the port stops retrying. Without credit the host
does not send it (R305).
PRESUMED: log entry 60. -/
def execHostConfigRequest (q : HostConfig) (s : State) : Host.Outcome State Fault Refusal :=
  .next (
    if !s.hostLinked ∨ s.npBlocked then s
    else if s.host.retrying && !s.flag Reg.hostCfg 0 then s.sendTlp .configRetry
    else
      let s := s.sendTlp .configDone
      match q with
      | .read => s
      | .busMaster b => s.setHost fun h => { h with busMaster := b }
      | .power d => s.setHost fun h => { h with d3 := d }
      | .msix en mask =>
        let s : State := { s with msixEnable := en, msixFuncMask := mask }
        (upFrom 0 64).foldl (fun s v => s.msixRelease v) s)

/-- MSIX_UNMASK (R410): vector v's mask bit is cleared. -/
def execMsixUnmask (v : Fin 64) (s : State) : Host.Outcome State Fault Refusal :=
  .next (
    let k : Nat := v
    let s : State := { s with msix := Tab.set MsixVec.init s.msix k { Tab.get MsixVec.init s.msix k with masked := false } }
    s.msixRelease k)

/-! ### Host reads (R396–R401) -/

/-- A failed read recorded and answered (R399). -/
def State.hostReadError (s : State) (node addr status len : Nat) (answer : Bool) : State :=
  let s := ((s.wr Reg.hostRdErrStatus (w32 status)).wr Reg.hostRdErrAddrLo (w32 addr)).wr Reg.hostRdErrAddrHi
    (w32 (at_ 16 node + addr / 2 ^ 32 % 65536))
  let s := (s.bump Reg.hostCntRdErr).raise 0x23 3
  if !answer then s
  else if s.flag Reg.hostCfg 1 then s.sendTlp (.readData (List.replicate len 0xFF))
  else s.sendTlp (if status = 1 then .readUnsupported else .readAbort)

/-- The fabric node and address that a host access reaches: none through a window that is not valid (R395–R397). -/
def State.hostTarget (s : State) (bar : HostBar) (off : Nat) : Option (Nat × Nat) :=
  match bar with
  | .bar2 =>
    let w := off / 2 ^ 26 % 16
    if s.flag (Reg.hostWinCtrl w) 31 then
      some (s.fld (Reg.hostWinCtrl w) 0 16, s.fld (Reg.hostWinBase w) 0 22 * 2 ^ 26 + off % 2 ^ 26)
    else none
  | _ => some (s.nodeId, off % 2 ^ 24)

/-- Requests that cover `n` bytes from word-aligned address a: 256 bytes each, none crossing 4 KiB (R306, R400). -/
def readParts (node a n : Nat) : Nat → List ReadPart
  | 0 => []
  | fuel + 1 =>
    if n = 0 then []
    else
      let k := capAt n (capAt 256 (4096 - a % 4096))
      ⟨node, a, k, none⟩ :: readParts node (a + k) (n - k) fuel

/-- A read touches page offsets 0x800–0x8FF of a register page. -/
def touchesRs (a n : Nat) : Bool :=
  decide (a < 0x1000000) && decide (a % 4096 < 0x900) && decide (0x800 < a % 4096 + n)

/-- The number that XBR carries for a part of a host read. -/
def hostUser (num part : Nat) : Nat := 8 * num + part

/-- HOST_MEMORY_READ (R395–R400, R417): a poisoned or malformed TLP is discarded; one without credit is not sent (R305). DEDUCED: log entry 61. -/
def State.hostRead (s : State) (bar : HostBar) (off len : Nat) : State :=
  match bar, s.hostTarget bar off with
  | .bar4, _ =>
    let word (i : Nat) : Word :=
      let e := Tab.get MsixVec.init s.msix (i / 4)
      if i < 256 then
        (match i % 4 with
        | 0 => w32 e.addr.toNat
        | 1 => w32 (e.addr.toNat / 2 ^ 32)
        | 2 => e.data
        | _ => w32 (b2n e.masked))
      else if i = 0x800 then bitmapWord fun j => setHas s.msixPba j
      else if i = 0x801 then bitmapWord fun j => setHas s.msixPba (32 + j)
      else 0
    let ws := (upFrom (off / 4) (len / 4 + 2)).map word
    s.sendTlp (.readData (((wordsBytes ws).drop (off % 4)).take len))
  | _, none =>
    let w := off / 2 ^ 26 % 16
    s.hostReadError (s.fld (Reg.hostWinCtrl w) 0 16) (s.fld (Reg.hostWinBase w) 0 22 * 2 ^ 26 + off % 2 ^ 26) 1 len true
  | _, some (node, a) =>
    if touchesRs a len ∧ (len ≠ 4 ∨ a % 4 ≠ 0) then
      ((s.qualFail 0x23 0x0901 0 (w32 len) Reg.hostCntBadSize).raise 0x23 4).hostReadError node a 2 len true
    else
      let lo := a - a % 4
      let parts := readParts node lo ((a + len + 3) / 4 * 4 - lo) 8
      let num := s.host.nextRead
      let s := s.setHost fun h => { h with nextRead := num + 1, reads := h.reads ++ [⟨num, parts, a - lo, len, s.tclks⟩] }
      (upFrom 0 parts.length).foldl (fun s i =>
        match parts[i]? with
        | some p =>
          s.issue ⟨⟨0, BitVec.ofNat 16 p.node, .read, BitVec.ofNat 48 p.addr, p.len, [], 0⟩, decide (bar = .bar0), hostUser num i⟩
        | none => s) s

/-- Check 0x0902: a poisoned or malformed TLP of a type (R417). PRESUMED: log entry 60. -/
def State.badTlp (s : State) (ty : Nat) : State := (s.qualFail 0x23 0x0902 0 (w32 ty) Reg.hostCntBadTlp).raise 0x23 4

def execHostMemoryRead (bar : HostBar) (off : BitVec 30) (len : BitVec 10) (bad : Bool) (s : State) :
    Host.Outcome State Fault Refusal :=
  .next (
    if !s.hostLinked ∨ s.npBlocked then s
    else if bad ∨ len = 0 ∨ 512 < len.toNat then s.badTlp 0
    else s.hostRead bar off.toNat len.toNat)

/-- The answer to a part of a host read; with the last one the host is answered, in address order (R399, R400).
DEDUCED: log entry 61. -/
def State.hostAnswer (s : State) (user status : Nat) (data : List Byte) : State :=
  let num := user / 8
  let i := user % 8
  match s.host.reads.find? fun r => decide (r.num = num) with
  | none => s
  | some r =>
    let parts := match r.parts[i]? with
      | some p => r.parts.set i { p with answer := some (status, data) }
      | none => r.parts
    if parts.all fun p => p.answer.isSome then
      let s := s.setHost fun h => { h with reads := h.reads.erase r }
      match parts.find? fun p => p.answer.any fun a => decide (a.1 ≠ 0) with
      | some p => s.hostReadError p.node p.addr ((p.answer.map fun a => a.1).getD 0) r.len true
      | none =>
        let all := parts.flatMap fun p => (p.answer.map fun a => a.2).getD []
        s.sendTlp (.readData ((all.drop r.skip).take r.len))
    else s.setHost fun h => { h with reads := h.reads.map fun x => if x.num = num then { x with parts } else x }

/-- A host read abandoned (R401). -/
def State.abandon (s : State) (r : HostRead) : State :=
  (s.setHost fun h => { h with reads := h.reads.erase r, abandoned := setAdd h.abandoned r.num }).bump Reg.hostCntAbandon

/-- CPL_LIMIT in ms, 0 acting as 1. -/
def State.cplLimit (s : State) : Nat :=
  let n := s.fld Reg.hostCplLimit 0 16
  if n = 0 then 1 else n

/-- HOST_READ_ABANDON (R401): answered with TIMEOUT after CPL_LIMIT. -/
def execHostReadAbandon (num : Nat) (s : State) : Host.Outcome State Fault Refusal :=
  .next (match s.host.reads.find? fun r => decide (r.num = num) with
    | none => s
    | some r =>
      if !s.passed r.since (msTclks s.cplLimit) then s
      else
      let p := r.parts.head?
      (s.abandon r).hostReadError ((p.map fun p => p.node).getD 0) ((p.map fun p => p.addr).getD 0) 6 r.len true)

/-! ### Host writes (R396, R397, R410, R332) -/

/-- NP_LATE_ERROR (R326, R332, R334). DEDUCED: log entry 61. -/
def State.npLate (s : State) (hostWrite : Bool) (status code tag node addr : Nat) : State :=
  (s.raise 0x22 1).post 0x51 .xbr 0 (b2n hostWrite) (w32 (at_ 28 status + at_ 16 code + tag)) (w32 addr)
    (w32 (at_ 16 node + addr / 2 ^ 32 % 65536)) 0

/-- A word of the MSI-X table written. -/
def State.msixWord (s : State) (i : Nat) (w : Word) : State :=
  if 256 ≤ i then s
  else
    let k := i / 4
    let e := Tab.get MsixVec.init s.msix k
    let e := match i % 4 with
      | 0 => { e with addr := BitVec.ofNat 64 (e.addr.toNat / 2 ^ 32 * 2 ^ 32 + w.toNat) }
      | 1 => { e with addr := BitVec.ofNat 64 (w.toNat * 2 ^ 32 + e.addr.toNat % 2 ^ 32) }
      | 2 => { e with data := w }
      | _ => { e with masked := bit w 0 }
    let s : State := { s with msix := Tab.set MsixVec.init s.msix k e }
    s.msixRelease k

/-- The pieces of a write that do not cross 4 KiB (R306). -/
def writeParts (a : Nat) (b : List Byte) : Nat → List (Nat × List Byte)
  | 0 => []
  | fuel + 1 =>
    if b.isEmpty then []
    else
      let k := capAt 256 (4096 - a % 4096)
      (a, b.take k) :: writeParts (a + k) (b.drop k) fuel

/-- HOST_MEMORY_WRITE (R395–R398, R410, R417, R332); one without credit is not sent (R305). DEDUCED: log entry 61. -/
def execHostMemoryWrite (bar : HostBar) (off : BitVec 30) (data : List Byte) (bad : Bool) (s : State) :
    Host.Outcome State Fault Refusal :=
  .next (
    let o := off.toNat
    let b := data.take 256
    if !s.hostLinked ∨ s.postedBlocked then s
    else if bad ∨ data.isEmpty ∨ 256 < data.length then s.badTlp 0x40
    else match bar, s.hostTarget bar o with
      | .bar4, _ =>
        if o % 4 = 0 ∧ b.length % 4 = 0 then
          (upFrom 0 (b.length / 4)).foldl
            (fun s i => s.msixWord (o / 4 + i) (w32 (bytesNat ((b.drop (4 * i)).take 4)))) s
        else s
      | _, none =>
        let w := o / 2 ^ 26 % 16
        s.npLate true 1 0 0 (s.fld (Reg.hostWinCtrl w) 0 16) (s.fld (Reg.hostWinBase w) 0 22 * 2 ^ 26 + o % 2 ^ 26)
      | _, some (node, a) =>
        (writeParts a b 8).foldl (fun s p =>
          s.issue ⟨⟨0, BitVec.ofNat 16 node, .write, BitVec.ofNat 48 p.1, p.2.length, p.2, 0⟩, decide (bar = .bar0), 0⟩) s)

/-! ### Links and resets (R393, R402) -/

/-- HOST_LINK (R418). -/
def State.hostLink (s : State) (cause queues channels : Nat) : State :=
  let h := s.host
  s.post 0x6B .host 0 (b2n h.up) (w32 (at_ 12 h.width + at_ 8 h.speed + cause)) (w32 queues) (w32 channels) 0

/-- HOST_LINK_UP (R393): at Gen 1–3 with 1, 2 or 4 lanes, where the port's clock and its PLL serve it (R496, R498). -/
def execHostLinkUp (speed : Fin 4) (width : Fin 8) (s : State) : Host.Outcome State Fault Refusal :=
  .next (
    if !s.hostOn ∨ s.host.up ∨ speed = 0 ∨ (width ≠ 1 ∧ width ≠ 2 ∧ width ≠ 4) ∨ setHas s.clk.failed 4 ∨ setHas s.clk.unlocked 4 then s
    else
      let s := s.setHost fun h => { h with up := true, speed := speed, width := width }
      (s.raise 0x23 0).hostLink 0 0 0)

/-- The effects of a host reset (R402). PRESUMED: log entry 60. -/
def State.hostReset (s : State) (cause : HostReset) : State :=
  let s := s.host.reads.foldl (fun s r => s.abandon r) s
  let s : State := { s with msix := [], msixPba := [], msixEnable := false, msixFuncMask := false }
  let s := (upFrom 0 16).foldl (fun s w => (s.wr (Reg.hostWinCtrl w) 0).wr (Reg.hostWinBase w) 0) s
  let s := s.setFld Reg.hostCfg 1 1 0
  let queues := (upFrom 0 16).filter fun n => s.flag (Reg.evqQCfg n) 31 && !s.evLocal n
  let s := queues.foldl (fun s n => s.setFld (Reg.evqQCfg n) 31 1 0) s
  let channels := (upFrom 0 8).filter fun c =>
    s.flag (Reg.dmaDcCtrl c) 0 && (s.ringInHost c || ((s.dmaCh c).desc.isSome && ((s.dmaCh c).srcHost || (s.dmaCh c).dstHost)))
  let s := channels.foldl (fun s c => s.dmaHostAbort c) s
  let down := decide (cause = .dlDown ∨ cause = .perst)
  let s := if down && s.host.up then s.raise 0x23 1 else s
  let s := s.setHost fun h => { h with
    up := h.up && !down, speed := if down then 0 else h.speed, width := if down then 0 else h.width, busMaster := false, d3 := false,
    perst := h.perst || decide (cause = .perst), retrying := h.retrying || decide (cause = .perst) }
  let mask (l : List Nat) : Nat := l.foldl (fun a n => a + 2 ^ n) 0
  let code := match cause with
    | .dlDown => 1
    | .perst => 2
    | .hot => 3
    | .flr => 4
  ((s.bump Reg.hostCntHostReset).raise 0x23 2).hostLink code (mask queues) (mask channels)

/-- HOST_RESET (R402). -/
def execHostReset (cause : HostReset) (s : State) : Host.Outcome State Fault Refusal := .next (s.hostReset cause)

/-! ### Reads that the hub makes of the host (R416, R417) -/

/-- HOST_COMPLETION_RECEIVE (R416). -/
def execHostCompletionReceive (c : Fin 8) (off : Nat) (r : HostCpl) (s : State) : Host.Outcome State Fault Refusal :=
  .next (
    if (s.dmaCh c).srcHost then
      match r with
      | .data b => (s.dmaAnswer c off 0 b).dmaPumpAll
      | .failed => (s.dmaAnswer c off 9 []).dmaPumpAll
    else s)

/-- HOST_READ_TIMEOUT (R416, R417): the read of a DMA channel at an offset of its descriptor. -/
def execHostReadTimeout (c : Fin 8) (off : Nat) (s : State) : Host.Outcome State Fault Refusal :=
  .next (
    let d := s.dmaCh c
    if d.srcHost ∧ (d.reads.any fun r => decide (r.off = off) && r.data.isNone && s.passed r.since (msTclks 50)) then
      let a := sideAddr d.src off d.srcFixed
      ((s.qualFail 0x23 0x0903 c (w32 a) Reg.hostCntCplTimeout).raise 0x23 4 |>.dmaAnswer c off 0xA []).dmaPumpAll
    else s)

/-! ### Answers to requesters (R323, R326, R332) -/

/-- A failing load of core n (0 the steward): the fault records the status in MBUSERR and the fabric address in MBUSADDR
(R442). -/
def State.coreFault (s : State) (n status : Nat) (dst : BitVec 16) (addr : BitVec 48) : State :=
  let c := Tab.get CoreSt.init s.cores n
  { s with cores := Tab.set CoreSt.init s.cores n { c with
      busErr := w32 (at_ 31 1 + status), busAddrLo := w32 addr.toNat,
      busAddrHi := w32 (at_ 16 dst.toNat + addr.toNat / 2 ^ 32) } }

/-- A status brought to the requester of a closed request. -/
def State.answer (s : State) (o : OpenReq) (tag status : Nat) (data : List Byte) : State :=
  let q := o.pend.req
  if q.code = 0 then
    if q.kind = .read then s.hostAnswer o.pend.user status data
    else if status = 0 then s
    else s.npLate true status 0 tag q.dst.toNat q.addr.toNat
  else if 8 ≤ q.code then s.dmaAnswer (q.code - 8) o.pend.user status data
  else
    let s := s.setXbr fun b => { b with answers := b.answers ++ [⟨q.code, o.pend.user, status, data⟩] }
    if status = 0 then s
    else if q.kind = .write then s.npLate false status q.code tag q.dst.toNat q.addr.toNat
    else s.coreFault (if q.code = 5 then 0 else q.code) status q.dst q.addr

/-- A completion for a request no longer open (R326, R330). -/
def State.lateCompletion (s : State) (source : Nat) (b : List Byte) : State :=
  let status := byteAt b 0 % 16
  let s := if status = 0 ∨ status = 3 then s.bump Reg.xbrCntLateCpl
    else s.npLate false status (byteAt b 1) (xTag b) source (xAddr b)
  if (byteAt b 0).testBit 7 then s.sendDiscard source (byteAt b 1) (xTag b) (xAddr b) (decide (source = s.nodeId)) else s

/-- A released completion may go to the tag matcher: no posted write or message of its stream released before it waits, unless a posted
write stalls in a block, which holds no completion (R315, R317, R318). DEDUCED: log entry 55. -/
def State.complReady (s : State) (c : ComplReq) : Bool :=
  (s.xbr.posts.any fun p => p.begun)
    || !s.xbr.posts.any fun p => decide (p.source = c.source ∧ p.mark < c.mark ∧ byteAt p.body 0 ≠ 3)

/-- COMPLETION_RECEIVE (R323, R326, R330): the oldest released completion closes its request, begins a backoff where it answers
BUSY, or is discarded as late. A read-sensitive completion that no one takes sends DISCARD. -/
def execCompletionReceive (s : State) : Host.Outcome State Fault Refusal :=
  .next (match s.xbr.compl.find? s.complReady with
    | none => s
    | some c =>
      let source := c.source
      let b := c.body
      let s := s.setXbr fun x => { x with compl := x.compl.erase c }
      let code := byteAt b 1
      let tag := xTag b
      let t := tag % 1024
      let status := byteAt b 0 % 16
      let rs := (byteAt b 0).testBit 7
      let own := decide (source = s.nodeId)
      match (s.tag t).holder with
      | some o =>
        if o.pend.req.code = code ∧ (s.tag t).epoch = tag / 1024 then
          if status = 3 then
            s.setTag t { s.tag t with holder := some { o with busy := o.busy + 1, backoff := true, busyAt := s.now } }
          else
            let gone := decide (code = 0) && setHas s.host.abandoned (o.pend.user / 8) && decide (o.pend.req.kind = .read)
            let s := s.setTag t { s.tag t with holder := none }
            let s := s.answer o tag status ((xData b).take (xLen b))
            if gone && rs then s.sendDiscard source code tag (xAddr b) own else s
        else s.lateCompletion source b
      | none => s.lateCompletion source b)

/-- NP_TIMEOUT (R326, R330): a request still open NP_TIMEOUT after its first sending ends with TIMEOUT, and its tag is free. -/
def execNpTimeout (t : Fin 512) (s : State) : Host.Outcome State Fault Refusal :=
  .next (match (s.tag t).holder with
    | none => s
    | some o =>
      if !o.firstAt.any fun t => s.waited t (s.fld Reg.xbrNpTimeout 0 20) then s
      else
      let q := o.pend.req
      let w := tagWord (s.tag t).epoch t
      let s := (s.setTag t { s.tag t with holder := none }).bump Reg.xbrCntTimeout
      let s := s.answer o w 6 []
      if isRs (kindOp q.kind) q.len q.addr.toNat then s.sendDiscard q.dst.toNat q.code w q.addr.toNat (s.toSelf o.pend) else s)

end Sys2Proof.Machine
end

