-- ==== Sys2Proof/Machine/Clocks.lean ====
section
/-! DEFINITION. Reference clocks and PLLs, power states, and the commands that reset the node (R494–R504, R509). -/

namespace Sys2Proof.Machine

def State.setClk (s : State) (f : ClkSt → ClkSt) : State := { s with clk := f s.clk }

/-- The time counter leaves DORMANT, or the hold of a TCLK_FAIL or PLL_FAIL reset: quality code 0xF, U 255 (R59, R501). -/
def State.timeWakes (s : State) : State :=
  let s := s.loseSync
  { s with time := { s.time with unc := 65280 } }

/-- A held hub-die reset whose cause has ended. -/
def State.holdEnds (s : State) (cause : Nat) : State :=
  if s.power = .held ∧ s.clk.hold = some cause then
    s.hubRelease.timeWakes
  else s

/-- The SerDes of the fabric ports and PLK without a clock: their links lose block lock or alignment and leave UP with cause 2 (R497). -/
def State.serdesStop (s : State) : State :=
  let s := (upFrom 0 4).foldl (fun s n =>
    let st := (s.link n).st
    let s := if st = 4 then s.linkLeaveUp n 2 5 else if st = 3 then s.linkFail n 2 else s
    s.setLink n fun l => { l with blockLock := false }) s
  (s.plkLeaveUp 2 (if s.plk.st = .up then .hold else s.plk.st)).setPlk fun p => { p with lane0 := false, lane1 := false }

/-- PCIE_REFCLK or its PLL failed: the data link goes down, a host reset (R497). -/
def State.pcieStop (s : State) : State := if s.host.up then s.hostReset .dlDown else s

/-- Application pairs that run lose their clock; the keeper handles them as halted (R498). DEDUCED: log entry 64. -/
def State.pairsStop (s : State) : State :=
  (upFrom 1 4).foldl (fun s n =>
    if s.flag Reg.stwStatus (11 + n) then s
    else
      let c := Tab.get CoreSt.init s.cores n
      let s := s.setFld Reg.stwStatus (11 + n) 1 1
      { s with cores := Tab.set CoreSt.init s.cores n { c with haltedAt := some s.tclks, wdt := none, runAt := none } }) s

/-- A failed check of CLK (R496). DEDUCED: log entry 72. -/
def State.clkFail (s : State) (check item : Nat) (value : Word) (counter : Nat) : State :=
  if s.hubUp then (s.raise 0x02 0).qualFail 0x02 check item value counter else s.bump counter

/-- A check of CLK clears. -/
def State.clkClear (s : State) (check item : Nat) (value : Word) : State :=
  if s.hubUp then (s.raise 0x02 1).qualClear 0x02 check item value else s

/-- CLOCK_MONITOR_FAIL (R496, R497, R501): clock n + 1 of TCLK, XT32, REFCLK_SD, PCIE_REFCLK fails at a measured frequency. -/
def execClockMonitorFail (n : Fin 4) (hz : Word) (s : State) : Host.Outcome State Fault Refusal :=
  .next (
    let k := n.toNat + 1
    if setHas s.clk.failed k then s
    else
      let now := s.tclks
      let s := s.setClk fun c => { c with failed := setAdd c.failed k, failedAt := Tab.set 0 c.failedAt k now }
      if k = 1 then
        (if s.hubUp then
          (s.setClk fun c => { c with report := some (0x0C01, 0xFFFF, hz, s.qualSum, hz) }).hubHold 5
         else s)
      else
        let s := s.clkFail (0x0C00 + k) 0xFFFF hz (clkCounter k)
        if k = 3 then s.serdesStop else if k = 4 then s.pcieStop else s)

/-- The value at the clear kept with the failure that waits for the start (R504). -/
def State.reportClears (s : State) (hz : Word) : State :=
  s.setClk fun c => { c with report := c.report.map fun r => (r.1, r.2.1, r.2.2.1, r.2.2.2.1, hz) }

/-- The clear time of clock k's check (R496): 3 s for XT32, 10 ms otherwise; that of TCLK itself passes on no count of its edges.
DEDUCED: log entry 72. -/
def State.clkClearDue (s : State) (k : Nat) : Bool :=
  decide (k = 1) || s.passed (Tab.get 0 s.clk.failedAt k) (msTclks (if k = 2 then 3000 else 10))

/-- CLOCK_MONITOR_CLEAR (R496): TCLK's clear ends its reset, and is posted with its failure at the start. -/
def execClockMonitorClear (n : Fin 4) (hz : Word) (s : State) : Host.Outcome State Fault Refusal :=
  .next (
    let k := n.toNat + 1
    if setHas s.clk.failed k ∧ s.clkClearDue k then
      let s := s.setClk fun c => { c with failed := setDel c.failed k }
      if k = 1 then (s.reportClears hz).holdEnds 5 else s.clkClear (0x0C00 + k) 0xFFFF hz
    else s)

/-- PLL_LOCK_LOST (R496, R498): PLL p of system, application, DDR, SerDes, PCIe. -/
def execPllLockLost (p : Fin 5) (hz : Word) (s : State) : Host.Outcome State Fault Refusal :=
  .next (
    let k : Nat := p
    if setHas s.clk.unlocked k then s
    else
      let s := s.setClk fun c => { c with unlocked := setAdd c.unlocked k }
      if k = 0 then
        (if s.hubUp then (s.setClk fun c => { c with report := some (0x0C05, 0, hz, s.qualSum, hz) }).hubHold 6 else s)
      else
        let s := s.clkFail 0x0C05 k hz Reg.clkCntPll
        if k = 1 then s.pairsStop
        else if k = 2 then s.setFld (Reg.status 0x0B) 0 1 0
        else if k = 3 then s.serdesStop
        else s.pcieStop)

/-- PLL_RELOCK (R496, R498, R501). -/
def execPllRelock (p : Fin 5) (hz : Word) (s : State) : Host.Outcome State Fault Refusal :=
  .next (
    let k : Nat := p
    if setHas s.clk.unlocked k then
      let s := s.setClk fun c => { c with unlocked := setDel c.unlocked k }
      if k = 0 then (s.reportClears hz).holdEnds 6 else s.clkClear 0x0C05 k hz
    else s)

/-! ### Power states (R499, R500, R503) -/

/-- A change of power state: the request's error clears and CLK's interrupt is raised. -/
def State.setPower (s : State) (p : PowerState) : State :=
  ({ s with power := p }).raise 0x02 2

/-- FALLOW entered: spilling is disabled at once (R500). DEDUCED: log entries 14 and 53. -/
def State.goFallow (s : State) : State :=
  (s.setNet fun n => { n with spilling := false }).setPower .fallow

/-- DORMANT entered: every line safe, the hub die's tables and links lost, the rails sequenced down; the time passes to XT32
(R500). DEDUCED: log entry 14. -/
def State.goDormant (s : State) : State :=
  let t := (s.hubClear true).railsDown
  { t with power := .dormant, clk := { t.clk with dormantAt := t.tclks } }

/-- The lease forbids DORMANT: HOLDER or HANDING (R500). -/
def State.leaseKeepsAwake (s : State) : Bool := decide (s.lease.st = .holder) || decide (s.lease.st = .handing)

/-- A write of STATE_REQ by an agent (R499, R500): only the steward's counts, and 3 acts as 0. -/
def State.stateReq (s : State) (a : Agent) (req : Nat) : State :=
  if a ≠ .steward ∨ !s.hubUp then s
  else
    let s := s.wrShown 0x02 0x050 (w32 req)
    if req = 2 then
      (if s.leaseKeepsAwake then (s.setClk fun c => { c with reqErr := true }).raise 0x02 3
       else (s.setClk fun c => { c with reqErr := false }).goDormant)
    else if req = 1 then
      (if s.power = .active then (s.setClk fun c => { c with reqErr := false }).goFallow else s)
    else if s.power = .fallow then (s.setClk fun c => { c with reqErr := false }).setPower .active
    else s

/-- STATE_REQ_ACTIVE (R500). -/
def execStateReqActive (a : Agent) (s : State) : Host.Outcome State Fault Refusal := .next (s.stateReq a 0)

/-- STATE_REQ_FALLOW (R500). -/
def execStateReqFallow (a : Agent) (s : State) : Host.Outcome State Fault Refusal := .next (s.stateReq a 1)

/-- STATE_REQ_DORMANT (R500). -/
def execStateReqDormant (a : Agent) (s : State) : Host.Outcome State Fault Refusal := .next (s.stateReq a 2)

/-- FALLOW_AUTO_WAKE (R499): with AUTO_WAKE, a request to an application core, or an access to a TCM, application SRAM or DDR4. -/
def execFallowAutoWake (access : Bool) (s : State) : Host.Outcome State Fault Refusal :=
  .next (
    if s.power = .fallow ∧ s.flag Reg.clkFallowCfg 0 ∧ (access ∨ (upFrom 1 4).any fun t => s.targetRequest t) then
      s.setPower .active
    else s)

/-- Line k has had a qualified edge in this DORMANT period: it waits for its stamp, or has received it. -/
def State.dormantEdge (s : State) (k : Nat) : Bool :=
  (s.line k).dormant.isSome || (decide (0 < (s.line k).edgeAt) && decide (s.clk.dormantAt ≤ (s.line k).edgeAt))

/-- The power path has recorded SEATED, UNSEATED or FEED_CHANGE since the hub die stopped. -/
def State.powerRecords (s : State) : Bool := s.pwr.queue.any fun r => decide (r.ty = 0x78 ∨ r.ty = 0x79 ∨ r.ty = 0x7D)

/-- Whether a wake source is enabled and its condition has come (R503). WAKE_N's level is the sender's. -/
def State.wakes (s : State) : WakeSource → Bool
  | .line k => s.flag (Reg.clkDwake (k.toNat / 32)) (k.toNat % 32) && s.dormantEdge k.toNat
  | .pin => s.flag Reg.clkDormantCfg 1
  | .alarm => s.flag Reg.clkDormantCfg 2 && timeReached s.now ⟨s.rd Reg.clkAlarm, 0⟩
  | .power => s.flag Reg.clkDormantCfg 3 && s.powerRecords

/-- DORMANT_WAKE (R87, R503): edges that wait receive their stamps, the rails are turned on in ascending ORDER, and the DORMANT_WAKE reset
is released into the node's start once rails 0–4 are good. DEDUCED: log entry 72. -/
def execDormantWake (w : WakeSource) (s : State) : Host.Outcome State Fault Refusal :=
  .next (
    if s.power = .dormant ∧ s.wakes w then
      let s := s.dormantStamps
      let s := if s.pwr.hs = 4 then (s.setPwr fun p => { p with seq := 1 }).railsRise else s
      let s := (s.hubHold 7).timeWakes
      if s.hubRailsGood || s.railsElsewhere then s.hubRelease else s
    else s)

/-! ### Resets (R501) -/

/-- AO_POR (R501): both dies. Flash and OTP keep their contents. The hub die waits for its rails, whose power-good releases its
CORE_POWER reset (R493). DESIGN CHOICE: log entry 6. DEDUCED: log entry 72. -/
def execAoPor (s : State) : Host.Outcome State Fault Refusal :=
  .next { State.powerOn 0 with
    pending := s.pending, flash := s.flash, otp := s.otp, freeTick := s.freeTick, power := .held,
    clk := { ClkSt.init with failed := s.clk.failed, unlocked := s.clk.unlocked, hold := some 1 } }

/-- VDD_AO_LOSS (R499): OFF. -/
def execVddAoLoss (s : State) : Host.Outcome State Fault Refusal :=
  .next { State.powerOn 0 with
    pending := s.pending, flash := s.flash, otp := s.otp, freeTick := s.freeTick, power := .off }

/-- HUB_DIE_POWER_LOSS (R493): the hub die without power, until rails 0–4 are good again. -/
def execHubDiePowerLoss (s : State) : Host.Outcome State Fault Refusal := .next s.hubPowerLoss

/-- RST_N_ASSERT (R501): held while low; the start that follows its release ends it. DEDUCED: log entry 72. -/
def execRstNAssert (s : State) : Host.Outcome State Fault Refusal :=
  .next (if s.hubUp then s.hubHold 2 else s)

/-- A write of RST.CMD by an agent (R501). -/
def State.rstCmd (s : State) (a : Agent) (v : Word) : State :=
  if a = .steward ∧ bit v 0 ∧ s.hubUp then s.hubReset 4 else s

/-- REBOOT (R501). -/
def execReboot (a : Agent) (v : Word) (s : State) : Host.Outcome State Fault Refusal := .next (s.rstCmd a v)

/-- STRAP_SAMPLE (R509): once, 1 ms after VDD_AO has entered its range. -/
def execStrapSample (v : Byte) (s : State) : Host.Outcome State Fault Refusal :=
  .next (
    if s.clk.strapped ∨ s.power = .off ∨ !s.passed 0 (msTclks 1) then s
    else (s.setClk fun c => { c with strapped := true }).wr Reg.ringStrap (w32 v.toNat))

/-- STATUS of the CLK page. FALLOW reads as changing until the overflow store is empty (R500). DEDUCED: log entry 14. -/
def State.clkStatus (s : State) : Word :=
  let st := if s.power = .fallow then (if s.storeUsed = 0 then 1 else 3) else 0
  let pll := (upFrom 0 5).foldl (fun a p => a + if setHas s.clk.unlocked p then 0 else 2 ^ p) 0
  let ok := (upFrom 0 4).foldl (fun a n => a + if setHas s.clk.failed (n + 1) then 0 else 2 ^ n) 0
  w32 (at_ 18 st + at_ 17 (b2n s.clk.reqErr) + at_ 7 pll + ok)

end Sys2Proof.Machine
end

