-- ==== Sys2Proof/Machine/Sec.lean ====
section
/-! DEFINITION. The OSPI and SEC mailboxes: flash access and its protection, OTP, hashing and signature checks (R462–R466). -/

namespace Sys2Proof.Machine

/-! ### Buffers of 256 bytes at 0x900 -/

/-- Byte i of the buffer of OSPI or SEC, whose words lie from key `k` (R7). -/
def State.bufByte (s : State) (k i : Nat) : Byte := BitVec.ofNat 8 (s.fld (k + 4 * (i / 4)) (8 * (i % 4)) 8)

/-- Bytes from offset i. -/
def State.bufTake (s : State) (k i n : Nat) : List Byte := (upFrom i n).map (s.bufByte k)

/-- Bytes stored from offset i; the buffer ends at 256. -/
def State.bufPut (s : State) (k i : Nat) : List Byte → State
  | [] => s
  | b :: bs =>
    let s := if i < 256 then s.setFld (k + 4 * (i / 4)) (8 * (i % 4)) 8 b.toNat else s
    s.bufPut k (i + 1) bs

/-! ### The flash -/

/-- A byte of the flash; erased, it reads 0xFF. DESIGN CHOICE: log entry 5. -/
def State.flashGet (s : State) (a : Nat) : Byte := Tab.get 0xFF s.flash a

def State.flashSet (s : State) (a : Nat) (b : Byte) : State := { s with flash := Tab.set 0xFF s.flash a b }

def State.flashTake (s : State) (a n : Nat) : List Byte := (upFrom a n).map s.flashGet

def State.flashPut (s : State) (a : Nat) : List Byte → State
  | [] => s
  | b :: bs => (s.flashSet a b).flashPut (a + 1) bs

/-- `n` bytes from `a` erased. -/
def State.flashErase (s : State) (a n : Nat) : State :=
  { s with flash := Tab.without (fun k => decide (a ≤ k) && decide (k < a + n)) s.flash }

/-- Whether bytes `a` to `a + n − 1` touch a protected range: units of 64 KiB from START to END of a PROT with EN (R462, R463). -/
def State.flashProtected (s : State) (a n : Nat) : Bool :=
  (upFrom 0 4).any fun j =>
    let w := s.rd (Reg.ospiProt j)
    bit w 31 && decide (a / 65536 ≤ bits w 16 12) && decide (bits w 0 12 ≤ (a + n - 1) / 65536)

/-- The length of D1: 256 at most. DEDUCED: log entry 68. -/
def State.ospiLen (s : State) : Nat := capAt 256 (s.mbxD 0x0A 1).toNat

/-- The flash address of D0. -/
def State.ospiAddr (s : State) : Nat := (s.mbxD 0x0A 0).toNat

/-- An OSPI command whose device may report a failure (ERR_CODE 0x02). -/
def State.ospi (s : State) (fail : Bool) (f : State → MbxAns × State) : State :=
  s.mbxCommand 0x0A fun s => if fail then (.err 2, s) else f s

/-- OSPI_READ (R462). -/
def execOspiRead (fail : Bool) (s : State) : Host.Outcome State Fault Refusal :=
  .next (s.ospi fail fun s => (.done, s.bufPut (Reg.ospiBuffer 0) 0 (s.flashTake s.ospiAddr s.ospiLen)))

/-- PROGRAM (R462). DEDUCED: log entry 68. -/
def execProgram (fail : Bool) (s : State) : Host.Outcome State Fault Refusal :=
  .next (s.ospi fail fun s =>
    if s.ospiLen ≠ 0 ∧ s.flashProtected s.ospiAddr s.ospiLen then (.err 1, s)
    else (.done, s.flashPut s.ospiAddr (s.bufTake (Reg.ospiBuffer 0) 0 s.ospiLen)))

/-- The block of `n` bytes that holds D0 erased, unless it touches a protected range. DEDUCED: log entry 68. -/
def State.ospiErase (s : State) (n : Nat) : MbxAns × State :=
  let a := s.ospiAddr - s.ospiAddr % n
  if s.flashProtected a n then (.err 1, s) else (.done, s.flashErase a n)

/-- ERASE_4K (R462). -/
def execErase4k (fail : Bool) (s : State) : Host.Outcome State Fault Refusal :=
  .next (s.ospi fail fun s => s.ospiErase 4096)

/-- ERASE_64K (R462). -/
def execErase64k (fail : Bool) (s : State) : Host.Outcome State Fault Refusal :=
  .next (s.ospi fail fun s => s.ospiErase 65536)

/-- READ_SFDP (R462). -/
def execReadSfdp (fail : Bool) (s : State) : Host.Outcome State Fault Refusal :=
  .next (s.ospi fail fun s =>
    (.done, s.bufPut (Reg.ospiBuffer 0) 0 ((upFrom s.ospiAddr s.ospiLen).map Config.sfdp)))

/-- A write of PROTn by an agent (R463): the steward's only. -/
def State.protWrite (s : State) (n : Nat) (a : Agent) (v : Word) : State :=
  if a = .steward then s.wrShown 0x0A (0x060 + 4 * (n % 4)) (v &&& 0x8FFF0FFF#32) else s

/-- PROT_WRITE (R463). -/
def execProtWrite (n : Fin 4) (a : Agent) (v : Word) (s : State) : Host.Outcome State Fault Refusal :=
  .next (s.protWrite n a v)

/-! ### SEC -/

/-- A fuse command (R466): D0 carries the check value, the argument is in range, and the OTP write succeeds.
DEDUCED: log entry 68. -/
def State.fuse (s : State) (arg : BitVec 16) (inRange otpFail : Bool) (f : State → MbxAns × State) : State :=
  s.mbxCommand 0x09 fun s =>
    if s.mbxD 0x09 0 ≠ (w32 arg.toNat ^^^ 0xA5A5A5A5#32) then (.err 1, s)
    else if !inRange then (.err 2, s)
    else if otpFail then (.err 3, s.setFld (Reg.status 0x09) 20 1 1)
    else f s

/-- REVOKE (R466): key slot ARG. -/
def execRevoke (arg : BitVec 16) (otpFail : Bool) (s : State) : Host.Outcome State Fault Refusal :=
  .next (s.fuse arg (decide (arg.toNat < 8)) otpFail fun s =>
    (.done, { s with otp := { s.otp with revoked := s.otp.revoked ||| BitVec.ofNat 8 (2 ^ arg.toNat) } }))

/-- The rollback counter advanced to a value, never back (R453). -/
def State.rollbackTo (s : State) (v : Nat) : State :=
  { s with otp := { s.otp with rollback := if s.otp.rollback < v then v else s.otp.rollback } }

/-- ADVANCE (R466): the rollback counter becomes ARG, 1–64 and not below it. -/
def execAdvance (arg : BitVec 16) (otpFail : Bool) (s : State) : Host.Outcome State Fault Refusal :=
  .next (s.fuse arg (decide (1 ≤ arg.toNat) && decide (arg.toNat ≤ 64) && decide (s.otp.rollback ≤ arg.toNat)) otpFail fun s =>
    (.ok (some (w32 arg.toNat)) none none none, s.rollbackTo arg.toNat))

/-- BLOW_FUSE (R464, R466). -/
def execBlowFuse (arg : BitVec 16) (otpFail : Bool) (s : State) : Host.Outcome State Fault Refusal :=
  .next (s.fuse arg (decide (arg.toNat < 3)) otpFail fun s =>
    (.done, { s with otp := { s.otp with fuses := s.otp.fuses ||| BitVec.ofNat 3 (2 ^ arg.toNat) } }))

/-- SHA_INIT (R466). -/
def execShaInit (s : State) : Host.Outcome State Fault Refusal :=
  .next (s.mbxCommand 0x09 fun s => (.done, { s with sha := [] }))

/-- SHA_UPDATE (R466): ARG bytes from 0x900, up to the end of the buffer. DEDUCED: log entry 68. -/
def execShaUpdate (arg : BitVec 16) (s : State) : Host.Outcome State Fault Refusal :=
  .next (s.mbxCommand 0x09 fun s =>
    (.done, { s with sha := s.sha ++ s.bufTake (Reg.secBuffer 0) 0 (capAt 256 arg.toNat) }))

/-- SHA_FINAL (R466): the hash at 0x900, in the standard's byte order (R8). -/
def execShaFinal (s : State) : Host.Outcome State Fault Refusal :=
  .next (s.mbxCommand 0x09 fun s => (.done, s.bufPut (Reg.secBuffer 0) 0 (sha384 s.sha)))

/-- A number of 48 bytes in the SEC buffer. -/
def State.secNumber (s : State) (i : Nat) : Nat := bigNat (s.bufTake (Reg.secBuffer 0) i 48)

/-- VERIFY (R466): D0 0 valid, 1 invalid. -/
def execVerify (s : State) : Host.Outcome State Fault Refusal :=
  .next (s.mbxCommand 0x09 fun s =>
    let ok := ecdsaValid (s.secNumber 0) (s.secNumber 0x30) (s.secNumber 0x60) (s.secNumber 0x90) (s.secNumber 0xC0)
    (.ok (some (if ok then 0 else 1)) none none none, s))

/-- STATUS of the SEC page. -/
def State.secStatus (s : State) : Word :=
  w32 (at_ 20 (s.fld (Reg.status 0x09) 20 1) + at_ 16 s.otp.fuses.toNat + at_ 8 s.otp.rollback + s.otp.revoked.toNat)

/-- A word of the OTP map: key hashes, the EUI-64, its first byte in bits 7–0, and the HOST defaults. DESIGN CHOICE: log entry 75. -/
def otpWord (a : Nat) : Word :=
  let word (l : List Byte) (i : Nat) : Word := w32 (bytesNat ((l.drop i).take 4))
  if a < 0x200 then (if a % 0x40 < 48 then word (bigBytes 48 (Config.otpKeyHash (a / 0x40))) (a % 0x40) else 0)
  else if a = 0x200 ∨ a = 0x204 then word (bigBytes 8 Config.otpEui64) (a - 0x200)
  else if a = 0x208 then Config.otpPciId
  else if a = 0x20C then Config.otpVendor
  else 0

end Sys2Proof.Machine
end

