-- ==== Sys2Proof/Machine/Boot.lean ====
section
/-! DEFINITION. Flash formats, boot control blocks, image verification, trials, and the services that need no register access
(R449–R461). The start of the node and MIGRATE_DONE, which apply records, are in Start.lean. Kinds are 1 keeper, 2 field; slots are
0 A, 1 B. -/

namespace Sys2Proof.Machine

/-! ### Records of boot (R465) -/

/-- A record of BOOT: posted, or during the start kept to its end. -/
def State.bootPost (s : State) (irq ty : Nat) (w4 w5 w6 w7 : Word) (flags : Nat) : State :=
  let r : PowRec := ⟨some irq, ty, 0x08, flags, s.now, s.qualSum, w4, w5, w6, w7⟩
  if s.boot.started then s.powEmit r else { s with boot := { s.boot with posts := s.boot.posts ++ [r] } }

/-- The records of the start posted. DEDUCED: log entry 65. -/
def State.bootFlush (s : State) : State :=
  let q := s.boot.posts
  q.foldl State.powEmit { s with boot := { s.boot with posts := [] } }

def State.setBoot (s : State) (f : BootSt → BootSt) : State := { s with boot := f s.boot }

/-! ### The boot control block (R455) -/

/-- A boot control block's fields; states are 0 COMMITTED, 1 TRIAL, 2 STAGED. -/
structure Bcb where
  gen : Word
  kSlot : Nat
  kState : Nat
  kStarts : Nat
  fSlot : Nat
  fState : Nat
  fStarts : Nat
  /-- keeper A, keeper B, field A, field B -/
  bad : Nat
  area : Nat
  pending : Bool
  pendArea : Nat
  version : Word
deriving DecidableEq, Repr

/-- Little-endian bytes of a number (R7). -/
def littleBytes : Nat → Nat → List Byte
  | 0, _ => []
  | n + 1, v => BitVec.ofNat 8 v :: littleBytes n (v / 256)

/-- A number at offset i of a byte list. -/
def numAt (l : List Byte) (i n : Nat) : Nat := bytesNat ((l.drop i).take n)

/-- The 64 bytes of a block. -/
def Bcb.bytes (b : Bcb) : List Byte :=
  let body := littleBytes 4 0x42434259 ++ littleBytes 4 b.gen.toNat ++ littleBytes 1 b.kSlot ++ littleBytes 1 b.kState
    ++ littleBytes 2 b.kStarts ++ littleBytes 1 b.fSlot ++ littleBytes 1 b.fState ++ littleBytes 2 b.fStarts
    ++ littleBytes 1 b.bad ++ littleBytes 3 (b.area + at_ 1 (b2n b.pending) + at_ 2 b.pendArea)
    ++ littleBytes 4 b.version.toNat ++ List.replicate 36 0
  body ++ littleBytes 4 (crc32c body)

/-- A copy read from flash: none where its magic or its CRC is wrong. -/
def State.bcbCopy (s : State) (i : Nat) : Option Bcb :=
  let l := s.flashTake (0x1000 * i) 64
  if numAt l 0 4 = 0x42434259 ∧ numAt l 60 4 = crc32c (l.take 60) then
    let f := numAt l 17 1
    some ⟨w32 (numAt l 4 4), numAt l 8 1 % 2, numAt l 9 1 % 4, numAt l 10 1, numAt l 12 1 % 2, numAt l 13 1 % 4, numAt l 14 1,
      numAt l 16 1 % 16, f % 2, decide (f / 2 % 2 = 1), f / 4 % 2, w32 (numAt l 20 4)⟩
  else none

/-- The block used where neither copy is valid (R455). DEDUCED: log entry 68. -/
def Bcb.fallback : Bcb := ⟨0, 0, 0, 0, 0, 0, 0, 0, 0, false, 0, 0⟩

/-- The block in use and its copy's index: the valid copy, or of two the one of the higher generation (R455). -/
def State.bcb (s : State) : Bcb × Nat :=
  match s.bcbCopy 0, s.bcbCopy 1 with
  | some a, some b => if (b.gen - a.gen).toInt ≤ 0 then (a, 0) else (b, 1)
  | some a, none => (a, 0)
  | none, some b => (b, 1)
  | none, none => (Bcb.fallback, 1)

/-- BOOT.STATUS as a block gives it; the trial and migration bits show what runs. -/
def State.bootStatus (s : State) (b : Bcb) : State :=
  s.wr Reg.bootStatus (w32 (at_ 12 b.bad + at_ 7 (b2n b.pending) + at_ 6 (b2n s.boot.migrating) + at_ 5 b.area
    + at_ 3 (b2n (decide (b.fState = 1))) + at_ 2 b.fSlot + at_ 1 (b2n (decide (b.kState = 1))) + b.kSlot))

/-- A new block written into the other copy with the next generation (R455). -/
def State.bcbWrite (s : State) (b : Bcb) : State :=
  let cur := s.bcb
  let other := 1 - cur.2
  let b := { b with gen := cur.1.gen + 1 }
  ((s.flashErase (0x1000 * other) 4096).flashPut (0x1000 * other) b.bytes).bootStatus b

/-- A change of the block in use. -/
def State.bcbChange (s : State) (f : Bcb → Bcb) : State := s.bcbWrite (f s.bcb.1)

/-- Slot and state of a kind. -/
def Bcb.slotOf (b : Bcb) (kind : Nat) : Nat := if kind = 1 then b.kSlot else b.fSlot
def Bcb.stateOf (b : Bcb) (kind : Nat) : Nat := if kind = 1 then b.kState else b.fState
def Bcb.startsOf (b : Bcb) (kind : Nat) : Nat := if kind = 1 then b.kStarts else b.fStarts

/-- Slot, state and trial starts of a kind set. -/
def Bcb.put (kind slot st starts : Nat) (b : Bcb) : Bcb :=
  if kind = 1 then { b with kSlot := slot, kState := st, kStarts := starts }
  else { b with fSlot := slot, fState := st, fStarts := starts }

/-- The bad mark of a slot set or cleared. -/
def Bcb.mark (kind slot : Nat) (v : Bool) (b : Bcb) : Bcb :=
  { b with bad := (setBits (w32 b.bad) (2 * (kind - 1) + slot) 1 (b2n v)).toNat }

/-! ### Blocks of a slot or an area (R449, R450) -/

/-- The flash address of a slot of kind 1 or 2, or of a settings area (kind 3). -/
def slotBase (kind slot : Nat) : Nat :=
  if kind = 1 then 0x40000 + 0x40000 * slot else if kind = 2 then 0x100000 + 0x1000000 * slot else 0x2100000 + 0x80000 * slot

/-- The flash blocks of a slot or area. -/
def slotBlocks (kind : Nat) : Nat := if kind = 1 then 64 else if kind = 2 then 4096 else 128

/-- What makes a slot or area bad: cause (SLOT_BAD's code) and the index of the block or record. -/
structure BadSlot where
  cause : Nat
  index : Nat
deriving DecidableEq, Repr

/-- A block's 4,088 bytes of content, or what is wrong with it: 1 its CRC, 2 its index. -/
def State.blockRead (s : State) (base i : Nat) : Except BadSlot (List Byte) :=
  let l := s.flashTake (base + 4096 * i) 4096
  if numAt l 4092 4 ≠ crc32c (l.take 4092) then .error ⟨1, i⟩
  else if numAt l 4088 4 ≠ i then .error ⟨2, i⟩
  else .ok (l.take 4088)

/-- The content of blocks i, i + 1, …, n of them. -/
def State.blocksRead (s : State) (base : Nat) : Nat → Nat → Except BadSlot (List Byte)
  | _, 0 => .ok []
  | i, n + 1 =>
    match s.blockRead base i with
    | .error e => .error e
    | .ok a => match s.blocksRead base (i + 1) n with
      | .error e => .error e
      | .ok b => .ok (a ++ b)

/-- A block written: content, index and CRC. -/
def State.blockWrite (s : State) (base i : Nat) (content : List Byte) : State :=
  let body := content ++ List.replicate (4088 - content.length) 0 ++ littleBytes 4 i
  (s.flashErase (base + 4096 * i) 4096).flashPut (base + 4096 * i) (body ++ littleBytes 4 (crc32c body))

/-! ### Load records (R454) -/

/-- A load record: type, format version, target, data, whether its CRC is right. -/
structure LoadRec where
  ty : Nat
  ver : Nat
  target : Word
  data : List Byte
  crcOk : Bool
deriving DecidableEq, Repr

/-- A record at the head of a byte list, and the bytes after its padding. -/
def readRec (l : List Byte) : Option (LoadRec × List Byte) :=
  let n := numAt l 8 4
  if l.length < 16 + n then none
  else
    let d := (l.drop 16).take n
    some (⟨numAt l 0 2, numAt l 2 2, w32 (numAt l 4 4), d, decide (numAt l 12 4 = crc32c d)⟩, l.drop (16 + (n + 3) / 4 * 4))

/-- `n` records; those that the bytes do not hold whole are missing. -/
def readRecs : Nat → List Byte → List LoadRec
  | 0, _ => []
  | n + 1, l =>
    match readRec l with
    | none => []
    | some (r, rest) => r :: readRecs n rest

/-- The bytes of record i, header and padding included. -/
def recBytes : Nat → List Byte → Option (List Byte)
  | 0, l => (readRec l).map fun r => l.take (l.length - r.2.length)
  | n + 1, l =>
    match readRec l with
    | none => none
    | some (_, rest) => recBytes n rest

/-! ### Images (R451, R452) -/

/-- A verified image: version, rollback value, migration table, the number of its records, and those that its content holds whole. -/
structure Image where
  version : Word
  rollback : Nat
  table : List (Nat × Nat)
  count : Nat
  recs : List LoadRec
deriving DecidableEq, Repr

/-- The header is well formed and its kind matches the slot (R451). -/
def imageHeadOk (kind : Nat) (h : List Byte) : Bool :=
  let len := numAt h 20 4
  decide (numAt h 0 4 = 0x49343654) && decide (numAt h 4 4 = kind * 0x10000 + 1) && decide (numAt h 12 4 ≤ 64)
    && decide (numAt h 16 4 < 4) && decide (352 ≤ len)
    && decide (len ≤ (if kind = 1 then 131072 else 16744448))
    && decide (256 ≤ numAt h 24 4) && decide (numAt h 24 4 % 4 = 0) && decide (numAt h 24 4 ≤ len - 96)
    && decide (numAt h 128 1 = 4) && decide (numAt h 225 31 = 0)

/-- Whether a record type is one of R454 for an image of a kind. -/
def recTypeOk (kind ty : Nat) : Bool := decide (2 ≤ ty ∧ ty ≤ 10) || (decide (ty = 1) && decide (kind = 1))

/-- The migration table of an image's content: record types with the highest format version that the image reads (R451). -/
def migrationTable (c : List Byte) : List (Nat × Nat) :=
  ((upFrom 0 24).map fun i => (numAt c (34 + 4 * i) 2, numAt c (32 + 4 * i) 2)).filter fun e => e.1 ≠ 0

/-- The image of a slot verified (R450–R452): every check that fails makes the slot bad, with its cause.
DEDUCED: log entry 65. -/
def State.verify (s : State) (kind slot : Nat) : Except (BadSlot × Word) Image :=
  let base := slotBase kind slot
  match s.blockRead base 0 with
  | .error e => .error (e, 0)
  | .ok h =>
    let version := w32 (numAt h 8 4)
    if !imageHeadOk kind h then .error (⟨3, 0⟩, version)
    else
      let len := numAt h 20 4
      match s.blocksRead base 0 ((len + 4087) / 4088) with
      | .error e => .error (e, version)
      | .ok c =>
        let slotNo := numAt h 16 4 + (if kind = 1 then 0 else 4)
        let key := (c.drop 128).take 97
        let sig := (c.drop (len - 96)).take 96
        if bigNat (sha384 key) ≠ Config.otpKeyHash slotNo ∨ Config.otpKeyHash slotNo = 0 ∨ s.otp.revoked.toNat.testBit slotNo then
          .error (⟨4, 0⟩, version)
        else if !ecdsaValid (bigNat (sha384 (c.take (len - 96)))) (bigNat (sig.take 48)) (bigNat (sig.drop 48))
            (bigNat ((key.drop 1).take 48)) (bigNat (key.drop 49)) then
          .error (⟨5, 0⟩, version)
        else if numAt h 12 4 < s.otp.rollback then .error (⟨6, 0⟩, version)
        else
          let count := numAt h 28 4
          let recs := readRecs count ((c.take (len - 96)).drop (numAt h 24 4))
          .ok ⟨version, numAt h 12 4, migrationTable c, count, recs⟩

/-- SLOT_BAD (R465). -/
def State.slotBad (s : State) (kind slot : Nat) (e : BadSlot) (version : Word) : State :=
  s.bootPost 3 0x72 (w32 (at_ 16 kind + at_ 8 slot + e.cause)) (w32 e.index) version 0 0

/-- A slot marked bad in the boot control block and reported (R450). -/
def State.markBad (s : State) (kind slot : Nat) (e : BadSlot) (version : Word) : State :=
  (s.bcbChange (Bcb.mark kind slot true)).slotBad kind slot e version

/-- Version and rollback value as a slot's header gives them. -/
def State.slotVersion (s : State) (kind slot : Nat) : Word := w32 (bytesNat (s.flashTake (slotBase kind slot + 8) 4))
def State.slotRollback (s : State) (kind slot : Nat) : Nat := bytesNat (s.flashTake (slotBase kind slot + 12) 4)

/-! ### Trials, commit and revert (R458, R459) -/

/-- The image of a kind is on trial. -/
def State.onTrial (s : State) (kind : Nat) : Bool := s.flag Reg.bootStatus (if kind = 1 then 1 else 3)

/-- A REBOOT that the keeper initiates: FAULT_SET first (R538). -/
def State.keeperReboot (s : State) : State := (s.leaseFault 5).hubReset 4

/-- A trial reverts (R459): the slot is marked bad, the other slot active, TRIAL_REVERT, REBOOT. SLOT_BAD reports blocks and
images that do not verify (R450, R452) and is not posted. DEDUCED: log entry 66. -/
def State.revert (s : State) (kind cause : Nat) : State :=
  let b := s.bcb.1
  let slot := b.slotOf kind
  let failed := s.slotVersion kind slot
  let s := s.bcbChange fun b => Bcb.mark kind slot true (Bcb.put kind (1 - slot) 0 0 b)
  let s := s.bootPost 1 0x74 (w32 (at_ 16 kind + at_ 8 slot + cause)) failed (s.slotVersion kind (1 - slot)) 0 0
  s.bootFlush.keeperReboot

/-- An image commits (R453, R459): COMMITTED, the rollback counter advanced, IMAGE_COMMITTED. -/
def State.commitImage (s : State) (kind : Nat) : State :=
  let slot := s.bcb.1.slotOf kind
  let s := (s.bcbChange (Bcb.put kind slot 0 0)).rollbackTo (s.slotRollback kind slot)
  s.bootPost 2 0x75 (w32 (at_ 16 kind + at_ 8 slot)) (s.slotVersion kind slot) (w32 s.otp.rollback) 0 0

/-- A keeper image on trial commits once both COMMITs have been given (R459). -/
def State.commitKeeper (s : State) : State :=
  if s.onTrial 1 ∧ s.boot.keeperPassed ∧ s.boot.fieldPassed then s.commitImage 1 else s

/-- COMMIT.FIELD (R459). -/
def State.commitField (s : State) : State :=
  let s := s.setBoot fun b => { b with fieldPassed := true, trialAt := none }
  (if s.onTrial 2 then s.commitImage 2 else s).commitKeeper

/-- COMMIT.KEEPER (R459). -/
def State.passKeeper (s : State) : State := (s.setBoot fun b => { b with keeperPassed := true }).commitKeeper

/-- BOOT_COMMIT_FIELD (R459): COMMIT.FIELD written by the keeper. -/
def execBootCommitField (s : State) : Host.Outcome State Fault Refusal := .next s.commitField

/-- BOOT_COMMIT_KEEPER (R459). -/
def execBootCommitKeeper (s : State) : Host.Outcome State Fault Refusal := .next s.passKeeper

/-- TRIAL_LIMIT in seconds; 0 acts as 1. -/
def State.trialLimit (s : State) : Nat := if s.fld Reg.bootTrialLimit 0 16 = 0 then 1 else s.fld Reg.bootTrialLimit 0 16

/-- TRIAL_TIME_LIMIT (R459): counted in TCLK periods from the field image's start. DESIGN CHOICE: log entry 9. DEDUCED: log entry 66. -/
def execTrialTimeLimit (s : State) : Host.Outcome State Fault Refusal :=
  .next (match s.boot.trialAt with
    | some t => if s.onTrial 2 ∧ 25000000 * s.trialLimit ≤ s.tclks - t then s.revert 2 3 else s
    | none => s)

/-! ### Settings areas (R460, R461) -/

/-- The records of an area, or what is wrong with it. -/
def State.areaRecs (s : State) (area : Nat) : Except BadSlot (List LoadRec × List Byte) :=
  let base := slotBase 3 area
  match s.blockRead base 0 with
  | .error e => .error e
  | .ok h =>
    if numAt h 0 4 ≠ 0x54534553 ∨ numAt h 28 4 ≠ crc32c (h.take 28) then .error ⟨3, 0⟩
    else
      let len := numAt h 12 4
      if 128 * 4088 < 32 + len then .error ⟨3, 0⟩
      else match s.blocksRead base 0 ((32 + len + 4087) / 4088) with
        | .error e => .error e
        | .ok c =>
          let body := (c.drop 32).take len
          .ok (readRecs (numAt h 8 4) body, body)

/-- The area a start or a service reads: the pending one for the image version that wrote it (R461). -/
def State.liveArea (s : State) : Nat :=
  let b := s.bcb.1
  if b.pending ∧ b.version = s.rd Reg.bootFieldVersion then b.pendArea else b.area

/-- SETTINGS_MIGRATED (R465). -/
def State.postMigrated (s : State) (committed : Bool) (count old new : Nat) : State :=
  s.bootPost 4 0x76 (w32 count) (w32 old) (w32 new) (s.rd Reg.bootFieldVersion) (b2n committed)

/-- MIGRATE_COMMIT (R461): the pending area becomes active, unless the field image is on trial or nothing is pending. -/
def State.migrateCommit (s : State) : Bool × State :=
  let b := s.bcb.1
  if s.onTrial 2 ∨ !b.pending then (false, s)
  else
    let count := match s.areaRecs b.pendArea with
      | .ok r => r.1.length
      | .error _ => 0
    let s := s.bcbChange fun b => { b with area := b.pendArea, pending := false }
    (true, s.postMigrated true count b.area b.pendArea)

/-- BOOT_MIGRATE_COMMIT (R461). -/
def execBootMigrateCommit (s : State) : Host.Outcome State Fault Refusal := .next s.migrateCommit.2

/-! ### Steward services (R457) -/

/-- The node-local address of a service slot. -/
def svcAddr (slot : Nat) : Nat := 0x13FFB00 + 0x100 * slot

/-- A word of a service slot. -/
def State.svcWord (s : State) (slot i : Nat) : Word := w32 (bytesNat (s.memTake (svcAddr slot + 4 * i) 4))

/-- A service slot whose GO is set with an op: served, and its word 0 written with DONE and the status (R457). -/
def State.serve (s : State) (slot op : Nat) (f : State → Nat × State) : State :=
  let w := s.svcWord slot 0
  if s.boot.started ∧ bit w 31 ∧ bits w 0 8 = op then
    let r := f s
    r.2.memPut (svcAddr slot) (wordBytes (w32 (at_ 30 1 + at_ 16 r.1 + op)))
  else s

/-- SVC_COMMIT (R457, R459): refused where no image of the kind is on trial, unless a keeper trial awaits the COMMIT of a field
image. DEDUCED: log entry 66. -/
def execSvcCommit (slot : Fin 5) (s : State) : Host.Outcome State Fault Refusal :=
  .next (s.serve slot 1 fun s =>
    let kind := (s.svcWord slot 2).toNat
    if kind = 1 then (if s.onTrial 1 then (0, s.passKeeper) else (1, s))
    else if kind = 2 then (if s.onTrial 2 ∨ s.onTrial 1 then (0, s.commitField) else (1, s))
    else (2, s))

/-- SVC_MIGRATE_COMMIT (R457, R461). -/
def execSvcMigrateCommit (slot : Fin 5) (s : State) : Host.Outcome State Fault Refusal :=
  .next (s.serve slot 2 fun s => (if s.migrateCommit.1 then 0 else 1, s.migrateCommit.2))

/-- STAGE of a kind (R457, R458): the inactive slot is verified and marked STAGED. DEDUCED: log entry 66. -/
def State.stage (s : State) (kind : Nat) : Nat × State :=
  let b := s.bcb.1
  if kind ≠ 1 ∧ kind ≠ 2 then (2, s)
  else if b.stateOf kind = 1 then (1, s)
  else
    let slot := 1 - b.slotOf kind
    match s.verify kind slot with
    | .error e => (4, s.markBad kind slot e.1 e.2)
    | .ok _ => (0, s.bcbChange fun b => Bcb.mark kind slot false (Bcb.put kind (b.slotOf kind) 2 0 b))

/-- STAGE (R457). -/
def execStage (slot : Fin 5) (s : State) : Host.Outcome State Fault Refusal :=
  .next (s.serve slot 3 fun s => s.stage (s.svcWord slot 2).toNat)

/-- SVC_REBOOT (R457, R538): the slot is answered, and the hub reset as a steward-initiated reset. -/
def execSvcReboot (slot : Fin 5) (s : State) : Host.Outcome State Fault Refusal :=
  .next (
    let w := s.svcWord slot 0
    if s.boot.started ∧ bit w 31 ∧ bits w 0 8 = 4 then (s.serve slot 4 fun s => (0, s)).keeperReboot else s)

/-- READ_RECORD (R457): up to 232 bytes of a record of the active area. DEDUCED: log entry 67. -/
def execReadRecord (slot : Fin 5) (s : State) : Host.Outcome State Fault Refusal :=
  .next (s.serve slot 5 fun s =>
    match s.areaRecs s.bcb.1.area with
    | .error _ => (2, s)
    | .ok r =>
      match recBytes (s.svcWord slot 2).toNat r.2 with
      | none => (2, s)
      | some l =>
        if r.1.length ≤ (s.svcWord slot 2).toNat then (2, s)
        else (0, s.memPut (svcAddr slot + 24) ((l.drop (s.svcWord slot 3).toNat).take 232)))

/-- The pending area opened: the other area erased (R461). -/
def State.openPending (s : State) : State :=
  let s := s.flashErase (slotBase 3 (1 - s.bcb.1.area)) 0x80000
  s.setBoot fun b => { b with pendOpen := true, pend := [] }

/-- WRITE_RECORD (R457): the slot's 232 data bytes at an offset of the pending area's records. DEDUCED: log entry 67. -/
def execWriteRecord (slot : Fin 5) (s : State) : Host.Outcome State Fault Refusal :=
  .next (s.serve slot 6 fun s =>
    let off := (s.svcWord slot 3).toNat
    if 128 * 4088 < 32 + off + 232 then (2, s)
    else
      let s := if s.boot.pendOpen then s else s.openPending
      let l := List.zip (upFrom off 232) (s.memTake (svcAddr slot + 24) 232)
      (0, s.setBoot fun b => { b with pend := l.foldl (fun t e => Tab.put t e.1 e.2) b.pend }))

/-- The records of the open pending area: those that are whole, of a type of R454 and of a right CRC, up to the first that is
not. DEDUCED: log entry 67. -/
def goodRecs : Nat → List Byte → List LoadRec
  | 0, _ => []
  | n + 1, l =>
    match readRec l with
    | some (r, rest) => if r.crcOk && recTypeOk 2 r.ty then r :: goodRecs n rest else []
    | none => []

/-- The bytes that records take. -/
def recsLength (l : List LoadRec) : Nat := l.foldl (fun a r => a + 16 + (r.data.length + 3) / 4 * 4) 0

/-- The content of the open pending area from its first record. -/
def State.pendBytes (s : State) : List Byte :=
  let n := s.boot.pend.foldl (fun a e => max a (e.1 + 1)) 0
  (upFrom 0 n).map fun i => Tab.get 0xFF s.boot.pend i

/-- The pending area closed in flash (R450, R460), and recorded in the boot control block with the version that wrote it (R461): its
records. DEDUCED: log entry 67. -/
def State.closePending (s : State) : List LoadRec × State :=
  let bytes := s.pendBytes
  let recs := goodRecs bytes.length bytes
  let len := recsLength recs
  let head := littleBytes 4 0x54534553 ++ littleBytes 4 (s.rd Reg.bootFieldVersion).toNat ++ littleBytes 4 recs.length
    ++ littleBytes 4 len ++ List.replicate 12 0
  let content := head ++ littleBytes 4 (crc32c head) ++ bytes.take len
  let area := 1 - s.bcb.1.area
  let parts := pieces 4088 128 content
  let s := (List.zip (upFrom 0 parts.length) parts).foldl (fun s p => s.blockWrite (slotBase 3 area) p.1 p.2) s
  let s := s.setBoot fun b => { b with pendOpen := false, pend := [], migrating := false }
  (recs, s.bcbChange fun b => { b with pending := true, pendArea := area, version := s.rd Reg.bootFieldVersion })

end Sys2Proof.Machine
end

