-- ==== Sys2Proof/Machine/Reflex.lean ====
section
/-! DEFINITION. The reflex table: evaluation, firing, arming, software flags, and the RFX mailbox (R185–R201, R220, R221,
R544). Operands and queueing are in Operands.lean. -/

namespace Sys2Proof.Machine

/-! ### Firing (R197–R201) -/

/-- The line operation j of a rule that fires at fabric time t (R198); it writes the latch of a PROTECTED line in every case (R199). -/
def State.ruleLine (s : State) (r : Rule) (t : TimePoint) (j : Nat) : State :=
  let k := bits r.lines (8 * j) 8
  match bits r.ops (2 * j) 2 with
  | 0 => s
  | 1 => s.latchWrite k true
  | 2 => s.latchWrite k false
  | _ => s.pulseStart k (bit r.ctrl 2) (timeAdd t (1000 * bits r.ops 16 16))

/-- PUBLISH of a rule (R200): a bit or double-bit slot that is loaded; otherwise consumed and counted. -/
def State.rulePublish (s : State) (r : Rule) (res : Bool) (t : TimePoint) (cycle : Nat) : State :=
  let n := bits r.targets 0 12
  let p := s.pub n
  if n = 4095 ∨ !p.loaded ∨ 2 ≤ p.ty then s.bump Reg.rfxCntRefused
  else s.pubAction n (if bit r.ctrl 3 ∧ p.ty = 0 then b2n res else bits r.ctrl 4 2) t false cycle

/-- The record of a rule's POST action (R201, R220). -/
def State.rulePost (s : State) (n : Nat) (r : Rule) (res tick : Bool) (seen : Option (Nat × TimePoint)) (t : TimePoint) :
    State :=
  let w5 := match seen with
    | some (k, _) => w32 k
    | none => 0x80000000#32
  let u := (seen.map fun x => x.2).getD ⟨0, 0⟩
  let s := s.raise 0x14 0
  if bit r.ctrl 12 then s.postFull 0x05 (bits r.ctrl 13 2) .rfx 0 0 t s.qualSum (w32 n) w5 u.sec (w32 u.ns)
  else s.postAt 0x38 .rfx 0 (b2n res + at_ 1 (b2n tick)) t s.qualSum (w32 (at_ 16 (bits r.ctrl 0 2) + n)) w5 u.sec
    (w32 u.ns)

/-- The switch-clock cycle, counted at 20 to a TCLK period, of a time in the period whose TCLK edge's count stands. -/
def State.cycleOf (s : State) (t : TimePoint) : Nat := 20 * s.tclks + ((timeDiff t s.now).toNat + 1) / 2

/-- A rule fires at fabric time t (R197–R201). `first` is false at the repeated firings of a WHILE_TRUE rule, which repeat its
line and PUBLISH actions only (R195). The evaluation's own time, where it saw no change, is `own` (R544). -/
def State.ruleFire (s : State) (n : Nat) (r : Rule) (res tick first : Bool) (seen : Option (Nat × TimePoint))
    (own t : TimePoint) : State :=
  let s := s.bump Reg.rfxCntFired
  let s := (upFrom 0 4).foldl (fun s j => s.ruleLine r t j) s
  let s := if bit r.ctrl 8 then s.rulePublish r res ((seen.map fun x => x.2).getD own) (s.cycleOf t) else s
  if first then
    let s := if bit r.ctrl 9 then s.drillReflexArm (bits r.targets 20 12) t else s
    let s := if bit r.ctrl 10 then s.winTrigger (bits r.targets 12 8) t else s
    if bit r.ctrl 11 then s.rulePost n r res tick seen t else s
  else s

/-- Whether an evaluation fires a rule of TRIGGER `trig` (R189). -/
def fires (trig : Nat) (prev res : Bool) : Bool :=
  match trig with
  | 0 => res && !prev
  | 1 => prev && !res
  | 2 => xor prev res
  | _ => res

/-- A queued rule evaluated against the vector as it stands, at fabric time t (R193–R195). -/
def State.ruleEvaluate (s : State) (n : Nat) (t : TimePoint) : State :=
  let s := (s.dequeueRule n).bump Reg.rfxCntEval
  let r := s.rule n
  let res := s.ruleResult r
  let s := s.setRule n { r with
    result := res, seen := none, ticked := none, tickAt := if res && !r.result then s.tclks else r.tickAt }
  let trig := bits r.ctrl 0 2
  if fires trig r.result res then
    s.ruleFire n r res (r.ticked.isSome && r.seen.isNone) (decide (trig ≠ 3) || !r.result) r.seen (r.ticked.getD t) t
  else s

/-- The rule the evaluator takes next: the express queue first, each in ascending number (R192). -/
def State.nextRule (s : State) : Option Nat :=
  match s.express with
  | n :: _ => some n
  | [] => s.normal.head?

/-- An uncorrectable error in a rule disarms it until it is loaded again (R196). DEDUCED: log entry 49. -/
def State.ruleEcc (s : State) (n : Nat) (ecc : ReadEcc) : State :=
  if eccUsable ecc then s.memEcc 0x14 0 ecc
  else
    let s := (s.dequeueRule n).setRule n { s.rule n with armed := false, seen := none, ticked := none, eccBar := true }
    (s.raise 0x14 1).memEcc 0x14 0 ecc

/-- Whether the evaluator may take a rule in a cycle: not before its last one, at most eight in one cycle, and from one queue in a cycle
(R192). -/
def State.evalRoom (s : State) (cycle : Nat) : Bool :=
  decide (s.eval.cycle < cycle)
    || (decide (s.eval.cycle = cycle) && decide (s.eval.count < 8) && (s.eval.express == !s.express.isEmpty))

/-- A rule taken in a cycle. -/
def State.evalTake (s : State) (cycle : Nat) : State :=
  { s with eval := ⟨cycle, if s.eval.cycle = cycle then s.eval.count + 1 else 1, !s.express.isEmpty⟩ }

/-- The lines that a rule's line action names (R198). -/
def Rule.actLines (r : Rule) : List Nat :=
  ((upFrom 0 4).filter fun j => decide (bits r.ops (2 * j) 2 ≠ 0)).map fun j => bits r.lines (8 * j) 8

/-- RULE_EVALUATE (R193): the evaluator takes the next queued rule, in a switch-clock cycle d ns after the TCLK edge whose count stands.
A drill action due by then on a line of the rule applies first (R117). DEDUCED: log entry 49. -/
def execRuleEvaluate (d : Fin 40) (ecc : ReadEcc) (s : State) : Host.Outcome State Fault Refusal :=
  .next (
    let c : Nat := (d : Nat) / 2
    match s.nextRule with
    | none => s
    | some n =>
      if s.evalRoom (20 * s.tclks + c) && !s.drillBefore (s.rule n).actLines c then
        let s := ((s.pubFlush (some (20 * s.tclks + c))).evalTake (20 * s.tclks + c)).ruleEcc n ecc
        if eccUsable ecc then s.ruleEvaluate n (timeAdd s.now (2 * c)) else s
      else s)

/-- RFX.CFG.TICK in µs; 0 acts as 1. -/
def State.tickUs (s : State) : Nat :=
  let n := s.fld Reg.rfxCfg 0 16
  if n = 0 then 1 else n

/-- RULE_TICK (R195): TICK µs have passed since the result of an armed WHILE_TRUE rule became 1, or since its last tick, and the result
stays 1; the rule is queued, once. -/
def execRuleTick (n : Fin 1024) (s : State) : Host.Outcome State Fault Refusal :=
  .next (
    let n : Nat := n
    let r := s.rule n
    if r.armed ∧ bits r.ctrl 0 2 = 3 ∧ r.result ∧ s.passed r.tickAt (usTclks s.tickUs) then
      let r := { r with tickAt := r.tickAt + usTclks s.tickUs }
      if s.ruleQueued n then s.setRule n r else (s.setRule n { r with ticked := some s.now }).queueRule n
    else s)

/-! ### Arming (R190) -/

/-- A rule armed at the moment t: evaluated once, the result stored; a WHILE_TRUE rule whose result is 1 fires (R190, R544). A rule
disarmed by an ECC error is not armed until it is loaded again (R196). -/
def State.ruleArm (s : State) (n : Nat) (t : TimePoint) : State :=
  let r := s.rule n
  if r.armed ∨ r.eccBar then s
  else
    let s := s.bump Reg.rfxCntEval
    let res := s.ruleResult r
    let s := s.setRule n { r with armed := true, result := res, seen := none, ticked := none, tickAt := s.tclks }
    if bits r.ctrl 0 2 = 3 ∧ res then s.ruleFire n r res false true none t t else s

/-- A rule armed by software. The spec does not say in which of the 20 cycles of the TCLK period the command executes: the moment of
arming is free among them. DESIGN CHOICE: log entry 89. -/
def State.ruleArmNow (s : State) (n : Nat) : State :=
  if bits (s.rule n).ctrl 0 2 = 3 then
    let r := s.fresh
    r.2.ruleArm n (timeAdd s.now (2 * (r.1.toNat % 20)))
  else s.ruleArm n s.now

/-- A rule disarmed and removed from the evaluation queue (R190). -/
def State.ruleDisarm (s : State) (n : Nat) : State :=
  (s.dequeueRule n).setRule n { s.rule n with armed := false, seen := none, ticked := none }

/-! ### Software flags (R186) -/

/-- Flags written; each that changes is an operand change with the counter value at the TCLK edge that follows as its
source time (R186, R187). -/
def State.swfWrite (s : State) (v : Word) : State :=
  let old := s.rd Reg.rfxSwf
  (upFrom 0 32).foldl (fun s j => if bit old j = bit v j then s else s.operandChanged (480 + j) s.nextEdge)
    (s.wr Reg.rfxSwf v)

/-- SWF_SET (R186). -/
def execSwfSet (v : Word) (s : State) : Host.Outcome State Fault Refusal := .next (s.swfWrite (s.rd Reg.rfxSwf ||| v))

/-- SWF_CLR (R186). -/
def execSwfClr (v : Word) (s : State) : Host.Outcome State Fault Refusal :=
  .next (s.swfWrite (s.rd Reg.rfxSwf &&& ~~~ v))

/-! ### The RFX mailbox (R221) -/

/-- A command on rule ARG; ARG above 1,023 is RANGE. -/
def State.rfxCommand (s : State) (arg : BitVec 16) (f : Nat → State → MbxAns × State) : State :=
  s.mbxCommand 0x14 fun s => if 1023 < arg.toNat then (.err 2, s) else f arg.toNat s

/-- A command that reads rule ARG: ERROR ECC where SECDED finds an uncorrectable error (R196, R221). -/
def State.rfxReading (s : State) (arg : BitVec 16) (ecc : ReadEcc) (f : Nat → State → MbxAns × State) : State :=
  s.rfxCommand arg fun n s =>
    let s := s.ruleEcc n ecc
    if eccUsable ecc then f n s else (.err 4, s)

/-- Reserved bits [13:9] of both literals of a word are 0 (R188). -/
def litsOk (w : Word) : Bool := decide (w &&& 0x3E003E00#32 = 0)

/-- A load of two terms: refused for an armed rule, or with a reserved bit set. -/
def State.loadTerms (s : State) (n : Nat) (f : Rule → Rule) : MbxAns × State :=
  if (s.rule n).armed then (.err 1, s)
  else if !(litsOk (s.mbxD 0x14 0) && litsOk (s.mbxD 0x14 1) && litsOk (s.mbxD 0x14 2) && litsOk (s.mbxD 0x14 3)) then
    (.err 2, s)
  else (.done, s.setRule n { f (s.rule n) with eccBar := false })

/-- LOAD_TERMS_A (R221). DEDUCED: log entry 49. -/
def execLoadTermsA (arg : BitVec 16) (s : State) : Host.Outcome State Fault Refusal :=
  .next (s.rfxCommand arg fun n s => s.loadTerms n fun r =>
    { r with t0 := s.mbxD 0x14 0, t1 := s.mbxD 0x14 1, t2 := s.mbxD 0x14 2, t3 := s.mbxD 0x14 3 })

/-- LOAD_TERMS_B (R221). -/
def execLoadTermsB (arg : BitVec 16) (s : State) : Host.Outcome State Fault Refusal :=
  .next (s.rfxCommand arg fun n s => s.loadTerms n fun r =>
    { r with t4 := s.mbxD 0x14 0, t5 := s.mbxD 0x14 1, t6 := s.mbxD 0x14 2, t7 := s.mbxD 0x14 3 })

/-- Whether a line operation of an operations word is a pulse. -/
def hasPulse (ops : Word) : Bool := (upFrom 0 4).any fun j => decide (bits ops (2 * j) 2 = 3)

/-- EXPRESS_COUNT: rules loaded with EXPRESS = 1. -/
def State.expressCount (s : State) : Nat := (s.rules.filter fun r => r.2.express).length

/-- LOAD_ACT (R192, R221). -/
def execLoadAct (arg : BitVec 16) (s : State) : Host.Outcome State Fault Refusal :=
  .next (s.rfxCommand arg fun n s =>
    let r := s.rule n
    let c := s.mbxD 0x14 0
    let o := s.mbxD 0x14 2
    if r.armed then (.err 1, s)
    else if bits c 16 16 ≠ 0 ∨ bits c 6 2 ≠ 0 ∨ bits o 8 8 ≠ 0 ∨ (hasPulse o ∧ bits o 16 16 = 0) then (.err 2, s)
    else if bit c 15 ∧ !r.express ∧ 512 ≤ s.expressCount then (.err 3, s)
    else (.done, s.setRule n { r with
      ctrl := c, lines := s.mbxD 0x14 1, ops := o, targets := s.mbxD 0x14 3, eccBar := false }))

/-- RFX ARM (R190, R221). DEDUCED: log entry 49. -/
def execRfxArm (arg : BitVec 16) (ecc : ReadEcc) (s : State) : Host.Outcome State Fault Refusal :=
  .next (s.rfxReading arg ecc fun n s =>
    if (s.rule n).eccBar then (.err 4, s)
    else
      let s := s.ruleArmNow n
      (.ok (some (w32 (b2n (s.rule n).result))) none none none, s))

/-- RFX DISARM (R190, R221). -/
def execRfxDisarm (arg : BitVec 16) (s : State) : Host.Outcome State Fault Refusal :=
  .next (s.rfxCommand arg fun n s => (.done, s.ruleDisarm n))

/-- READ_TERMS_A (R221). -/
def execReadTermsA (arg : BitVec 16) (ecc : ReadEcc) (s : State) : Host.Outcome State Fault Refusal :=
  .next (s.rfxReading arg ecc fun n s =>
    let r := s.rule n
    (.ok (some r.t0) (some r.t1) (some r.t2) (some r.t3), s))

/-- READ_TERMS_B (R221). -/
def execReadTermsB (arg : BitVec 16) (ecc : ReadEcc) (s : State) : Host.Outcome State Fault Refusal :=
  .next (s.rfxReading arg ecc fun n s =>
    let r := s.rule n
    (.ok (some r.t4) (some r.t5) (some r.t6) (some r.t7), s))

/-- READ_ACT (R221). -/
def execReadAct (arg : BitVec 16) (ecc : ReadEcc) (s : State) : Host.Outcome State Fault Refusal :=
  .next (s.rfxReading arg ecc fun n s =>
    let r := s.rule n
    (.ok (some r.ctrl) (some r.lines) (some r.ops) (some r.targets), s))

/-- RFX CLEAR (R221): no literals, no actions. It is no load, so a rule disarmed by an ECC error stays barred (R196).
DEDUCED: log entry 49. -/
def execRfxClear (arg : BitVec 16) (s : State) : Host.Outcome State Fault Refusal :=
  .next (s.rfxCommand arg fun n s =>
    if (s.rule n).armed then (.err 1, s)
    else (.done, s.setRule n { Rule.init with result := (s.rule n).result, eccBar := (s.rule n).eccBar }))

/-- SOFT_RESET of the RFX page (R196): every rule disarmed, the queues emptied, the contents and SWF kept. -/
def State.rfxSoftReset (s : State) : State :=
  let s := s.rules.foldl (fun s r => s.ruleDisarm r.1) s
  { s with express := [], normal := [], eval := EvalSt.init }

end Sys2Proof.Machine
end

