-- ==== Sys2Proof/Machine/DrillFire.lean ====
section
/-! DEFINITION. The drill's launcher: firing an entry's action and consuming its repetition (R101–R103, R112–R118, R121–R123). -/

namespace Sys2Proof.Machine

/-- A line action of the drill; false where R118 refuses it, and then only the command bit takes it (R118, R131, R348). -/
def State.drillLine (s : State) (code k : Nat) (level : Bool) (stop : TimePoint) : Bool × State :=
  if s.latchRefused k then
    (false, if code = 3 then s.cmdPulseStart k level stop else s.cmdWrite k (decide (code = 1)))
  else (true, if code = 3 then s.pulseStart k level stop else s.latchWrite k (decide (code = 1)))

/-- The action of entry n for the repetition of target t, fired at time w (R101); false where it is refused. A pulse ends WIDTH after
the target, or after its firing edge where it fires late: `base`. -/
def State.drillAct (s : State) (n : Nat) (t w base : TimePoint) : Bool × State :=
  let e := s.drl n
  let a := e.action
  match e.code with
  | 4 => (true, { s with starts := s.starts ++
      [⟨BitVec.ofNat 64 (e.p1.toNat + e.p2.toNat * 2 ^ 32), some t, 20 * s.tclks⟩] })
  | 5 => (true, s.pubAction (bits e.p1 0 12) (e.p2.toNat + e.p3.toNat * 2 ^ 32) t true (s.cycleOf w))
  | 6 => (true, s.winTrigger (bits e.p1 0 8) t)
  | 7 => (true, s.ruleArm (bits e.p1 0 10) t)
  | 8 => (true, s.ruleDisarm (bits e.p1 0 10))
  | 9 => (true, s.postFull 0x05 (bits a 22 2) .drl 0 (bits a 17 5) t s.qualSum e.p1 e.p2 e.p3
      (w32 (at_ 16 n + e.fired % 65536)))
  | c => s.drillLine c (bits a 8 8) (bit a 16) (timeAdd base e.p1.toNat)

/-- How a repetition comes to fire (R114, R116, R119, R121). -/
inductive Launch where
  | onTime
  | short
  | congested
  | late
deriving DecidableEq, Repr

/-- DRILL_DONE of a repetition (R123): at once, or when its pulse ends. Its time is the target of a repetition fired on time and
the firing time of another. DEDUCED: log entry 45. -/
def State.drillReport (s : State) (n flags : Nat) (w t : TimePoint) (pulsed : Bool) : State :=
  if pulsed then
    let e := s.drl n
    { s with pulseDone := s.pulseDone ++
        [⟨bits e.action 8 8, flags, w, s.qualSum, s.drlWord n, w32 e.fired, t.sec, w32 t.ns⟩] }
  else s.drillDone n flags w t

/-- The repetition of target t of entry n launched at fabric time w (R112, R118, R121–R123). The DRILL_DONE of an entry exhausted
by a repetition that LOCKED_ONLY consumed names that repetition, and as its time the time at which it would have fired.
DESIGN CHOICE: log entry 82. -/
def State.drillLaunch (s : State) (n : Nat) (t w : TimePoint) (how : Launch) : State :=
  let e := s.drl n
  let consume (s : State) : State := if how = .late then s.setDrl n fun x => { x with prepared := false } else s.drillConsume n 1
  let complete (s : State) : Bool := (s.drl n).exhausted && (s.drl n).run.isNone
  if bit e.action 24 ∧ s.timeState ≠ 0 then
    let s := consume ((s.bump Reg.drlCntUnlocked).drillLate n 16 1 w t)
    if complete s && bit e.action 7 then s.drillDone n 1 w t else s
  else
    let (done, s) := s.drillAct n t w (if how = .onTime then t else w)
    if done then
      let s := s.bump Reg.drlCntFired
      let s := if how = .onTime then s else s.bump Reg.drlCntLateRun
      let s := s.setDrl n fun x => { x with fired := x.fired + 1 }
      let s := match how with
        | .short => (s.raise 0x12 0).postAt 0x20 .drl 0 3 w s.qualSum (s.drlWord n) 1 t.sec (w32 t.ns)
        | .congested => (s.raise 0x12 0).postAt 0x20 .drl 0 9 w s.qualSum (s.drlWord n) 1 t.sec (w32 t.ns)
        | _ => s
      let s := consume s
      let c := complete s
      if bit e.action 25 || (c && bit e.action 7) then s.drillReport n (b2n c) (if how = .onTime then t else w) t (decide (e.code = 3))
      else s
    else
      let s := consume s.drillRefused
      s.drillDone n (b2n (complete s) + 2) (if how = .onTime then t else w) t

/-- A launch of target t remembered for R116, with those of the 1 µs before it. -/
def State.noteLaunch (s : State) (t : TimePoint) : State :=
  { s with launches := t :: s.launches.filter fun x => decide (0 ≤ timeDiff t x) && decide (timeDiff t x < 1000) }

/-- How a launch of entry e comes about whose edge lies `lateNs` after its target: beyond 256 launches of 1 µs congested (R116), within
±4 ns of the target on time, and otherwise on short notice (R114, R119). DEDUCED: log entry 45. -/
def State.launchKind (s : State) (e : DrillEnt) (lateNs : Nat) : Launch :=
  if s.crowded e.target then .congested else if 4 < lateNs then .short else .onTime

/-- DRILL_FIRE (R114, R116, R117, R119, R121): an entry fires, in its turn, `lateNs` after its target, at a time between the TCLK edge
whose count stands and the next. With `lateRun` it is a repetition to be run late, which fires `lateNs` after the present edge, before the entry's
next one. A line action needs its tile's clock. DEDUCED: log entry 45. DESIGN CHOICE: log entry 1. -/
def execDrillFire (n : Fin 4096) (lateNs : Nat) (lateRun : Bool) (ecc : ReadEcc) (s : State) : Host.Outcome State Fault Refusal :=
  .next (
    let n : Nat := n
    let e := s.drl n
    match e.run with
    | some t =>
      if lateRun = true ∧ s.drillReady e ∧ lateNs ≤ 40 then
        let s := (s.pubFlush (some (s.cycleOf (timeAdd s.now lateNs)))).drillEcc n ecc
        if eccUsable ecc then (s.setDrl n fun x => { x with run := none }).drillLaunch n t (timeAdd s.now lateNs) .late else s
      else s
    | none =>
      let w := timeAdd e.target lateNs
      if lateRun = false ∧ e.st = .armed ∧ s.drillReady e ∧ 0 ≤ timeDiff w s.now ∧ s.due w ∧ s.launchTurn n (fireCycle w s.now) then
        let s := (s.pubFlush (some (s.cycleOf w))).drillEcc n ecc
        if eccUsable ecc then
          let how := s.launchKind e lateNs
          let s := (s.noteLaunch e.target).drillLaunch n e.target (if how = .onTime then e.target else w) how
          if (s.drl n).st = .armed then s.drillJudge n w false else s
        else s
      else s)

end Sys2Proof.Machine
end

