-- ==== Sys2Proof/Machine/TimeStep.lean ====
section
/-! DEFINITION. Corrections of the time counter and forced steps (R60–R64, R97, R120). -/

namespace Sys2Proof.Machine

/-- Bits 31–0 and 63–32 of a correction. -/
def corrLo (c : Int) : Word := wOfInt c
def corrHi (c : Int) : Word := wOfInt (c.fdiv (2 ^ 32))

/-- What a forced step does to the consumers of time (R64): the drill's check before any launch (R120), and multiples of a
counter's CAP_PERIOD passed forwards are skipped (R142). Windows, stamps and leases keep their stored times (R97). -/
def State.afterStep (s : State) (c : Int) : State :=
  ((upFrom 0 64).foldl (fun s k => s.capSkip c k) s).drillStepCheck

/-- A step applied as the last part of a TCLK edge: pending slew cancelled, STEP_FORCED with the edge's time without the step and
with it, and the consumers' rules (R51, R62–R64, R76). DEDUCED: log entry 37. -/
def State.forcedStep (s : State) (move : State → State) (c : Int) (flags : Nat) : State :=
  let before := s.now
  let q := s.qualSum
  let s := (move s).wr Reg.timePendCorr 0
  let s := (s.bump Reg.timeCntStep).raise 0x10 2
  let s := s.postAt 0x12 .time 0 flags before q (corrLo c) (corrHi c) s.now.sec (w32 s.now.ns)
  s.afterStep c

/-- A held refused correction dropped (R61, R63). -/
def State.dropRefused (s : State) : State := { s with time := { s.time with refusedHeld := false } }

/-- A refusal (R61). DEDUCED: log entry 37. -/
def State.refuseCorr (s : State) (c : Int) : State :=
  let code := s.time.quality
  let s := { s with time := { s.time with refusedHeld := true } }
  let s := ((s.wr Reg.timeRefusedLo (corrLo c)).wr Reg.timeRefusedHi (corrHi c)).bump Reg.timeCntRefused
  let s := (s.raise 0x10 1).post 0x11 .time 0 0 (corrLo c) (corrHi c) (s.rd Reg.timeStepLimit) (w32 code.toNat)
  if s.timeState = 0 then (s.setQuality (BitVec.ofNat 4 (4 + code.toNat % 4))).checkHoldLimit else s

/-- A correction accepted for slewing: it replaces what is left of the one before (R60). DESIGN CHOICE: log entry 88. -/
def State.startSlew (s : State) (c : Int) : State :=
  let s := if s.pendCorr = 0 then { s with time := { s.time with slewAt := s.tclks } } else s
  s.dropRefused.wr Reg.timePendCorr (wOfInt c)

/-- ADJ_PHASE at its edge (R60–R62): an initial set, a correction to be slewed, or a refusal. -/
def State.adjPhase (s : State) (steward : Bool) : MbxAns × State :=
  let c := s.corrInput
  if !steward then (.err 2, s)
  else if s.initialSet then
    let s := { s with time := { s.time with initSetDone := true } }
    (.ok (some 1) none none none, s.dropRefused.forcedStep (fun s => s.stepCounter c) c 1)
  else if c.natAbs ≤ s.fld Reg.timeStepLimit 0 30 then (.ok (some 0) none none none, s.startSlew c)
  else (.err 1, s.refuseCorr c)

/-- STEP_FORCE at its edge (R63). -/
def State.stepForce (s : State) : MbxAns × State :=
  if !s.time.refusedHeld then (.err 3, s)
  else
    let c := s.heldCorr
    (.ok (some (s.rd Reg.timeRefusedLo)) (some (s.rd Reg.timeRefusedHi)) none none,
      s.dropRefused.forcedStep (fun s => s.stepCounter c) c 0)

/-- SET_TIME at its edge (R63): seconds and nanoseconds loaded, the fraction 0; the step is the whole ns it moves.
DEDUCED: log entry 37. -/
def State.setTime (s : State) : MbxAns × State :=
  if !s.setTimeOk then (.err 4, s)
  else
    let total := s.setTimeInput
    (.done, s.dropRefused.forcedStep (fun s => s.setCounter total) ((total - s.counter).fdiv (2 ^ 32)) 2)

/-- The command that waits for this TCLK edge executes (R75). -/
def State.timeExecute (s : State) (c : TimeCmd) : MbxAns × State :=
  match c.op with
  | 1 => s.readTime
  | 2 => s.adjPhase c.steward
  | 3 => s.rateSet c.steward
  | 4 => s.stepForce
  | 5 => s.setTime
  | _ => s.setState c.steward c.arg

/-- The slew step of an edge taken from what is still to apply (R60). -/
def State.slewed (s : State) (d : Int) : State :=
  if d = 0 then s
  else
    let s := { s with time := { s.time with slewAt := s.tclks } }
    s.wr Reg.timePendCorr (wOfInt (s.pendCorr - d))

/-- A TCLK edge of the counter (R50, R51): the increment and any slew step, then the command that waits for it. The intervals and
timers taken as TCLK periods count (R436). -/
def State.tclkCount (s : State) : State :=
  let d := s.slewNext
  let t : State := ({ (s.setCounter s.edgeCount).tickTimers with tclks := s.tclks + 1 }).slewed d
  match t.time.cmd with
  | none => t
  | some c =>
    let r := ({ t with time := { t.time with cmd := none } } : State).timeExecute c
    r.2.mbxAnswer 0x10 r.1

end Sys2Proof.Machine
end

