-- ==== Sys2Proof/Machine/Cores.lean ====
section
/-! DEFINITION. Application pairs and their lockstep, watchdogs, the scrubber and ECC reports (R440–R446). Cores are 0 the steward,
1–4 AC0–AC3. -/

namespace Sys2Proof.Machine

def State.core (s : State) (n : Nat) : CoreSt := Tab.get CoreSt.init s.cores n

def State.setCore (s : State) (n : Nat) (f : CoreSt → CoreSt) : State :=
  { s with cores := Tab.set CoreSt.init s.cores n (f (s.core n)) }

/-- Pair n (1–4) is held: STATUS.PAIR_HALTED. -/
def State.pairHalted (s : State) (n : Nat) : Bool := s.flag Reg.stwStatus (11 + n)

/-- An image trial is under way for an application core's faults. -/
def State.inTrial (s : State) : Bool := s.onTrial 2

/-- WDT_CFG.TIMEOUT in µs; 0 acts as 1. -/
def State.wdtTimeout (s : State) (n : Nat) : Nat :=
  if s.fld (Reg.stwWdtCfg n) 0 24 = 0 then 1 else s.fld (Reg.stwWdtCfg n) 0 24

/-- A watchdog restarted where its EN is set (R445). -/
def State.wdtStart (s : State) (n : Nat) : State :=
  let en := s.flag (Reg.stwWdtCfg n) 31
  s.setCore n fun c => { c with wdt := if en then some s.tclks else none, warned := false }

/-- A pair released from reset (R440): its MISCOMPARE bit clears and its watchdog restarts. DEDUCED: log entry 64. -/
def State.pairRun (s : State) (n : Nat) : State :=
  let s := (s.setFld Reg.stwStatus (11 + n) 1 0).setFld Reg.stwLockstep (n - 1) 1 0
  let s := s.setCore n fun c => { c with haltedAt := none, runAt := some s.tclks }
  s.wdtStart n

/-- A pair held in reset (R440). -/
def State.pairHold (s : State) (n : Nat) : State :=
  (s.setFld Reg.stwStatus (11 + n) 1 1).setCore n fun c => { c with wdt := none, warned := false, runAt := none }

/-- The faults of a pair within the last hour, the one now included (R444): 3,600 s in TCLK periods. -/
def State.noteFault (s : State) (n : Nat) : State :=
  let recent (t : Nat) : Bool := decide (s.tclks < t + 90000000000)
  s.setCore n fun c => { c with faults := s.tclks :: c.faults.filter recent }

/-- What a miscompare and an expired watchdog do to a pair (R444, R445): it stops, P5 fires in its own page and in ICUP0, and a fault bit
of the lease is set. During a trial of the field image the trial reverts. DEDUCED: log entry 64. -/
def State.pairFault (s : State) (n bit cause : Nat) : State :=
  let s := s.setFld Reg.stwLockstep (n - 1) 1 1
  let s := (s.icuPrivate n 5).icuPrivate 0 5
  let s := (s.pairHold n).setCore n fun c => { c with haltedAt := some s.tclks, faultBits := setAdd c.faultBits bit }
  let s := s.leaseFault bit
  if s.inTrial then s.revert 2 cause else s

/-- LOCKSTEP_MISCOMPARE (R443, R444): pair n + 1, the PC of its leading core and the output that differs. -/
def execLockstepMiscompare (n : Fin 4) (pc : Word) (output : Fin 4) (s : State) : Host.Outcome State Fault Refusal :=
  .next (
    let k := n.toNat + 1
    if s.pairHalted k then s
    else
      let s := (s.noteFault k).bump Reg.stwCntMiscompare
      let s := (s.raise 0x06 0).post 0x70 .stw 0 0 (w32 (at_ 8 (b2n s.inTrial) + k)) pc (w32 output.toNat)
        (w32 (s.core k).faults.length)
      s.pairFault k 0 2)

/-- The TCM record of a core in the field image, where the slot verifies. -/
def State.tcmImage (s : State) (n : Nat) : Option (List Byte) :=
  match s.verify 2 (s.bcb.1.fSlot) with
  | .error _ => none
  | .ok im => (im.recs.find? fun r => decide (r.ty = 2 ∧ r.target.toNat = n - 1)).map fun r => r.data

/-- Bytes stored in a core's TCM from an offset; beyond 512 KiB there is none. -/
def State.tcmPut (s : State) (n off : Nat) : List Byte → State
  | [] => s
  | b :: bs =>
    let s : State := if off < 0x80000 then { s with tcm := Tab.set 0 s.tcm ((n - 1) * 0x80000 + off) b } else s
    s.tcmPut n (off + 1) bs

/-- PAIR_AUTO_RESTART (R444): 100 ms after the halt, outside a trial, not after a third fault within one hour. -/
def execPairAutoRestart (n : Fin 4) (s : State) : Host.Outcome State Fault Refusal :=
  .next (
    let k := n.toNat + 1
    match (s.core k).haltedAt with
    | some t =>
      if s.flag Reg.stwCfg 0 ∧ !s.inTrial ∧ (s.core k).faults.length < 3 ∧ 2500000 ≤ s.tclks - t ∧ !setHas s.clk.unlocked 1 then
        let s := match s.tcmImage k with
          | some d => s.tcmPut k 0 d
          | none => s
        s.pairRun k
      else s
    | none => s)

/-- A fault bit of the lease that no other pair still holds set (R444). DEDUCED: log entry 64. -/
def State.faultBitFree (s : State) (n bit : Nat) : Bool :=
  (upFrom 1 4).all fun j => decide (j = n) || !setHas (s.core j).faultBits bit

/-- LOCKSTEP_FAULT_FORGET (R444): a pair that has run for 10 s clears the fault bits it set, but for those that another pair's fault
holds. DEDUCED: log entry 64. -/
def execLockstepFaultForget (n : Fin 4) (s : State) : Host.Outcome State Fault Refusal :=
  .next (
    let k := n.toNat + 1
    match (s.core k).runAt with
    | some t =>
      if 250000000 ≤ s.tclks - t ∧ !s.pairHalted k then
        let free := (s.core k).faultBits.filter (s.faultBitFree k)
        let s := s.setCore k fun c => { c with faultBits := [] }
        if free.isEmpty then s else (free.foldl (fun s b => s.setFld Reg.leaseFault b 1 0) s).tryTake
      else s
    | none => s)

/-- WATCHDOG's record and count (R445, R465). -/
def State.postWatchdog (s : State) (n : Nat) (pc : Word) : State :=
  let trial := if n = 0 then s.onTrial 1 else s.inTrial
  ((s.bump Reg.stwCntWatchdog).raise 0x06 1).post 0x71 .stw 0 0 (w32 (at_ 8 (b2n trial) + n)) (w32 (s.wdtTimeout n)) pc 0

/-- A watchdog's expiry (R445, R459): a pair stops as on a miscompare; the steward's resets the hub, and in a trial of the keeper image
leaves AO.REVERT set. DESIGN CHOICE: log entry 9. -/
def State.wdtExpire (s : State) (n : Nat) (pc : Word) : State :=
  let s := s.postWatchdog n pc
  if n = 0 then
    let s := if s.onTrial 1 then s.setFld Reg.bootAo 0 1 1 else s
    (s.leaseFault 4).hubReset 3
  else (s.noteFault n).pairFault n 4 1

/-- WATCHDOG_KICK (R445): a write of MWDKICK by a core whose watchdog counts, at `pc`. -/
def execWatchdogKick (n : Fin 5) (v pc : Word) (s : State) : Host.Outcome State Fault Refusal :=
  .next (
    if (s.core n).wdt.isSome then
      (if v = 0xA5#32 then s.wdtStart n else s.wdtExpire n pc)
    else s)

/-- WATCHDOG_WARNING (R445): half the timeout has passed. -/
def execWatchdogWarning (n : Fin 5) (s : State) : Host.Outcome State Fault Refusal :=
  .next (
    let n : Nat := n
    match (s.core n).wdt with
    | some t =>
      if s.wdtTimeout n * 25 ≤ 2 * (s.tclks - t) ∧ !(s.core n).warned then
        (s.setCore n fun c => { c with warned := true }).icuPrivate n 4
      else s
    | none => s)

/-- WATCHDOG_EXPIRY (R445): the timeout has passed. -/
def execWatchdogExpiry (n : Fin 5) (pc : Word) (s : State) : Host.Outcome State Fault Refusal :=
  .next (
    let n : Nat := n
    match (s.core n).wdt with
    | some t => if s.wdtTimeout n * 25 ≤ s.tclks - t then s.wdtExpire n pc else s
    | none => s)

/-- CORE_CTRL.RESET and CORE_CTRL.RUN of a write (R440). A pair held by RESET waits for RUN; RUN of a pair that runs clears its
MISCOMPARE bit only. DEDUCED: log entry 64. -/
def State.coreReset (s : State) (v : Word) : State :=
  (upFrom 1 4).foldl (fun s n => if bit v (7 + n) then (s.pairHold n).setCore n fun c => { c with haltedAt := none } else s) s

/-- CORE_CTRL.RUN of each pair (R440, R444). DEDUCED: log entry 64. -/
def State.coreRun (s : State) (v : Word) : State :=
  (upFrom 1 4).foldl (fun s n => 
    if !bit v (n - 1) then s
    else if s.pairHalted n then s.pairRun n
    else s.setFld Reg.stwLockstep (n - 1) 1 0) s

/-- CORE_CTRL_RESET (R440). -/
def execCoreCtrlReset (v : Word) (s : State) : Host.Outcome State Fault Refusal := .next (s.coreReset v)

/-- CORE_CTRL_RUN (R440). -/
def execCoreCtrlRun (v : Word) (s : State) : Host.Outcome State Fault Refusal := .next (s.coreRun v)

/-- A write of WDT_CFG (R445): setting EN starts the watchdog, clearing it stops it. DEDUCED: log entry 64. -/
def State.wdtCfgWrite (s : State) (n : Nat) (v : Word) : State :=
  let was := s.flag (Reg.stwWdtCfg n) 31
  let s := s.wr (Reg.stwWdtCfg (n % 8)) (v &&& 0x80FFFFFF#32)
  if bit v 31 then (if was || (decide (0 < n) && s.pairHalted n) then s else s.wdtStart n)
  else s.setCore n fun c => { c with wdt := none, warned := false }

/-! ### The scrubber and ECC reports (R446) -/

/-- An error the scrubber finds in a memory of a page; an uncorrectable one of a protection memory is also a fault (R351). -/
def State.scrubFind (s : State) (page mem : Nat) (fault : Bool) (ecc : ReadEcc) : State :=
  match ecc with
  | .clean => s
  | .corrected a y => s.eccNote true page mem false a y
  | .uncorrectable a y =>
    let s := s.eccNote true page mem true a y
    if fault then s.leaseFault 1 else s

/-- MEMORY_SCRUB (R446). In a drill entry or a rule an uncorrectable error has the effect of R109 or R196; in the steward's SRAM the keeper
restarts the hub. DEDUCED: log entry 15. -/
def execMemoryScrub (m : ScrubMem) (ecc : ReadEcc) (s : State) : Host.Outcome State Fault Refusal :=
  .next (match m with
    | .drill n =>
      let s := s.scrubFind 0x12 0 true ecc
      if eccUsable ecc then s else { s with drill := Tab.drop s.drill n }
    | .rule n =>
      let s := s.scrubFind 0x14 0 true ecc
      if eccUsable ecc then s
      else
        ((s.dequeueRule n).setRule n
          { s.rule n with armed := false, seen := none, ticked := none, eccBar := true }).raise 0x14 1
    | .steward =>
      let s := s.scrubFind 0x06 0 true ecc
      if eccUsable ecc then s else s.keeperReboot
    | .page p k =>
      s.scrubFind p k (decide (p.toNat = 0x15 ∨ (0x40 ≤ p.toNat ∧ p.toNat < 0x48))) ecc)

/-- ECC_REPORT_REPOST (R446): once 1 ms has passed since a memory's record, the errors gathered since are posted. -/
def execEccReportRepost (page : Fin 256) (mem : Fin 16) (uncorr : Bool) (s : State) : Host.Outcome State Fault Refusal :=
  .next (
    let e := Tab.get EccSt.init s.ecc (eccKey page mem uncorr)
    if s.spaced e.last || e.count = 0 then s else s.eccPost page mem uncorr)

end Sys2Proof.Machine
end

