-- ==== Sys2Proof/Machine/Engine.lean ====
section
/-! DEFINITION. Tine engines (R155–R163, R174–R184): reset and halting, the program counter and its segment, commits and
start events, and the commands and register writes of an engine. The instructions are in EngineCode.lean. -/

namespace Sys2Proof.Machine

/-! ### Segments, fetching and time -/

/-- BASE and LEN of a segment word; a LEN outside 1–1,024 acts as 1 (R174). -/
def segBase (w : Word) : Nat := bits w 0 10
def segLen (w : Word) : Nat := if 1 ≤ bits w 16 11 ∧ bits w 16 11 ≤ 1024 then bits w 16 11 else 1

/-- Whether address a lies in a segment. -/
def inSeg (w : Word) (a : Nat) : Bool := decide (segBase w ≤ a) && decide (a < segBase w + segLen w)

def State.engSeg (s : State) (e : Nat) : Word := s.rd (Reg.chEngSeg e)

/-- The tile SRAM word of instruction address i of a bank (R174). -/
def instrKey (e : Nat) (bank : Bool) (i : Nat) : Nat :=
  16384 * (e / 8) + (if bank then 0x3C00 else 0x3800) + i % 1024

/-- The instruction at the PC in the active bank (R176). -/
def State.engFetch (s : State) (e : Nat) : Word :=
  s.sramGet (instrKey e (s.eng e).bank (s.eng e).pc)

/-- D in 1/256 tile cycles (R162). -/
def State.engDivider (s : State) (e : Nat) : Nat :=
  let c := s.rd (Reg.chEngCfg e)
  if bits c 16 16 = 0 then 256 else 256 * bits c 16 16 + bits c 8 8

/-! ### The engine clock (R162, R163)

Tile edges are numbered from the count of TCLK edges, 20 to a period of 40 ns (log entry 46). -/

/-- The tile edge d ns after the TCLK edge whose count stands. -/
def State.tileEdge (s : State) (d : Nat) : Nat := 20 * s.tclks + d / 2

/-- The tile edge at which the clock is seen by a write: that of the standing TCLK count, or a later one already accounted for. -/
def State.tileNow (s : State) (e : Nat) : Nat := if (s.eng e).edge < 20 * s.tclks then 20 * s.tclks else (s.eng e).edge

/-- A at tile edge n with nothing taken away since `edge`: every tile edge adds 256 (R162). -/
def State.engAcc (s : State) (e n : Nat) : Nat := (s.eng e).acc + 256 * (n - (s.eng e).edge)

/-- Engine cycles from `edge` up to tile edge n. -/
def State.engCount (s : State) (e n : Nat) : Nat := s.engAcc e n / s.engDivider e

/-- Tile edge n is an engine cycle: there A reaches D (R162). -/
def State.engCycleAt (s : State) (e n : Nat) : Bool :=
  decide ((s.eng e).edge ≤ n) && decide (s.engDivider e ≤ s.engAcc e n) && decide (s.engAcc e n % s.engDivider e < 256)

/-- The engine cycle in which the next instruction executes is at tile edge n. -/
def State.engDue (s : State) (e n : Nat) : Bool := s.engCycleAt e n && decide (s.engCount e n = (s.eng e).left)

/-- A brought up to tile edge n, with `left` engine cycles to come. -/
def State.engSync (s : State) (e n left : Nat) : State :=
  s.setEng e fun x => { x with acc := s.engAcc e n % s.engDivider e, edge := n, left }

/-- The first engine cycle after tile edge n, where A has been brought up to that edge. -/
def State.engNext (s : State) (e n : Nat) : Nat :=
  n + (s.engDivider e - s.engAcc e n % s.engDivider e + 255) / 256

/-- The time of tile edge n by the standing count. -/
def State.edgeTime (s : State) (n : Nat) : TimePoint := timeAdd s.now (2 * ((n : Int) - 20 * s.tclks))

/-- The time of the engine cycle that follows: that of a command which acts at the next engine cycle edge (R178, R183). -/
def State.nextCycleTime (s : State) (e : Nat) : TimePoint := s.edgeTime (s.engNext e (s.tileNow e))

/-- A clock restart: tile edge n is an engine cycle (R163), and `left` engine cycles, that one included, come until the next
instruction. -/
def State.engRestart (s : State) (e n left : Nat) : State :=
  s.setEng e fun x => { x with acc := s.engDivider e, edge := n, left }

/-- A write of the divider: A is kept, and the next engine cycle is that of the new D (R162). DEDUCED: log entry 46. -/
def State.engCfgWrite (s : State) (e : Nat) (v : Word) : State :=
  let n := s.tileNow e
  (s.engSync e n ((s.eng e).left - s.engCount e n)).wr (Reg.chEngCfg e) (v &&& 0xFFFFFF1E#32)

/-- The time of an engine cycle d ns after the TCLK edge whose count stands (R173, R183). -/
def State.cycleTime (s : State) (d : Nat) : TimePoint := timeAdd s.now d

/-! ### Events -/

/-- An engine's event: interrupt bit `irq` of its channel and a record timed by the engine cycle (R183, R184). -/
def State.engPost (s : State) (e ty flags : Nat) (t : TimePoint) (w4 w5 w6 w7 : Word) : State :=
  s.postAt ty .ch e flags t s.qualSum w4 w5 w6 w7

/-- The two counts as ENG_SHIFT shows them. -/
def countsWord (i o : Nat) : Word := w32 (at_ 16 i + o)

/-! ### Halting and reset (R156, R157, R184) -/

/-- A RUNNING engine halts with a cause: nothing but its state changes; ENGINE_HALT for causes 2–5, and for 0 and 1 with
HALT_EVENT = 1 (R156, R184). DEDUCED: log entry 46. -/
def State.engHalt (s : State) (e cause code : Nat) (t : TimePoint) : State :=
  let x := s.eng e
  if x.st = 1 then
    let s := s.setEng e fun x =>
      { x with st := 2, cause, wait := none, stalled := false, next := .run, prepared := false }
    let s := s.raise (0x80 + e) 17
    if 2 ≤ cause ∨ s.flag (Reg.chEngCfg e) 4 then
      s.engPost e 0x31 0 t (w32 (at_ 28 cause + at_ 16 code + x.pc)) x.isr x.osr (countsWord x.isrN x.osrN)
    else s
  else s

/-- The channel's EN becomes 0: a RUNNING engine halts with cause DISABLED and releases its outputs (R157). -/
def State.engDisable (s : State) (e : Nat) : State :=
  if (s.eng e).st = 1 then (s.engHalt e 5 0 (s.nextCycleTime e)).setEng e fun x => { x with oe := 0 } else s

/-- ENGINE_RESET (R156). -/
def State.engReset (s : State) (e : Nat) : State :=
  let entry := s.fld (Reg.chEngEntry e) 0 10
  s.setEng e fun x => { x with
    st := 0, pc := entry, isr := 0, osr := 0, isrN := 0, osrN := 0, x := 0, y := 0, c0 := 0, c1 := 0, flags := 0,
    oe := 0, val := 0, partialShift := false, commitPend := false, wait := none, stalled := false, next := .run,
    prepared := false }

/-- The PC moved; outside the segment the engine halts with cause SEG_FAULT (R176). -/
def State.engGoto (s : State) (e a : Nat) (t : TimePoint) : State :=
  let s := s.setEng e fun x => { x with pc := a % 1024 }
  if inSeg (s.engSeg e) (a % 1024) then s else s.engHalt e 2 0 t

/-- An instruction completes without a taken branch: at WRAP_TOP the PC goes to WRAP_BOTTOM, or a pending commit swaps
(R176, R178). DEDUCED: log entry 46. -/
def State.engAdvance (s : State) (e : Nat) (t : TimePoint) : State :=
  let w := s.rd (Reg.chEngWrap e)
  let x := s.eng e
  if x.pc = bits w 16 10 then
    if x.commitPend then s.setEng e fun x => { x with next := .swap } else s.engGoto e (bits w 0 10) t
  else s.engGoto e (x.pc + 1) t

/-! ### Commits (R178, R179) -/

/-- The segment's banks swapped and the live ENTRY and wrap values taken from ENG_NEXT (R178). -/
def State.engSwap (s : State) (e : Nat) : State :=
  let n := s.rd (Reg.chEngNext e)
  let s := (s.wr (Reg.chEngEntry e) (w32 (bits n 20 10))).wr (Reg.chEngWrap e) (w32 (at_ 16 (bits n 10 10) + bits n 0 10))
  s.setEng e fun x => { x with bank := !x.bank, commitPend := false, next := .run }

/-- COMMIT_DONE with the next PC (R183). -/
def State.commitDone (s : State) (e next : Nat) (immediate : Bool) (t : TimePoint) : State :=
  let s := s.raise (0x80 + e) 19
  s.engPost e 0x33 (b2n immediate) t (w32 (at_ 16 (b2n (s.eng e).bank) + next)) (s.rd (Reg.chEngNext e)) 0 0

/-- What an abandoned instruction leaves: with a count that is not 0, PARTIAL_SHIFT (R178, R179, R181). -/
def State.engAbandon (s : State) (e reason : Nat) (t : TimePoint) : State :=
  let x := s.eng e
  let s := s.setEng e fun x => { x with wait := none, stalled := false, next := .run, prepared := false }
  if x.isrN ≠ 0 ∨ x.osrN ≠ 0 then
    let s := s.setEng e fun x => { x with partialShift := true, partialIsr := x.isrN, partialOsr := x.osrN }
    (s.raise (0x80 + e) 18).engPost e 0x32 0 t (w32 (at_ 28 reason + x.pc)) (countsWord x.isrN x.osrN) x.isr x.osr
  else s

/-- A COMMIT written: refused while COPY_BUSY; at once where the engine is not RUNNING; otherwise pending until WRAP_TOP is
passed, or with IMMEDIATE = 1 at the next engine cycle edge, on which the new ENTRY executes (R178, R179). -/
def State.engCommit (s : State) (e : Nat) (immediate : Bool) : State :=
  let x := s.eng e
  let n := s.tileNow e
  let t := s.nextCycleTime e
  if x.copyBusy then s.bump (Reg.chCntProgRefused e)
  else
    let s := s.setEng e fun x => { x with partialShift := false }
    let entry := bits (s.rd (Reg.chEngNext e)) 20 10
    let s := if immediate then s.engAbandon e 0 t else s
    if x.st ≠ 1 then (s.engSwap e).commitDone e entry immediate t
    else if immediate then (((s.engSwap e).commitDone e entry true t).engSync e n 1).engGoto e entry t
    else s.setEng e fun x => { x with commitPend := true }

/-- COMMIT_SWAP (R178): the instruction at WRAP_TOP has completed with a commit pending. -/
def execCommitSwap (c : Fin 64) (d : Fin 40) (s : State) : Host.Outcome State Fault Refusal :=
  .next (
    let x := s.eng c
    if x.st = 1 ∧ x.next = .swap then
      let s := s.engSwap c
      let bottom := s.fld (Reg.chEngWrap c) 0 10
      (s.commitDone c bottom false (s.cycleTime d)).engGoto c bottom (s.cycleTime d)
    else s)

/-- CANCEL_COMMIT (R178): an engine that has already passed WRAP_TOP goes to the old WRAP_BOTTOM. -/
def State.engCancel (s : State) (e : Nat) : State :=
  let x := s.eng e
  let s := s.setEng e fun x => { x with commitPend := false, next := .run }
  if x.next = .swap then s.engAdvance e s.now else s

/-- COPY_ACTIVE (R175). -/
def State.engCopy (s : State) (e : Nat) : State := s.setEng e fun x => { x with copyBusy := true, copyAt := s.tileNow e }

/-- COPY_DONE (R175): LEN tile cycles after the command the active segment stands in staging. -/
def execCopyDone (c : Fin 64) (s : State) : Host.Outcome State Fault Refusal :=
  .next (
    let x := s.eng c
    if x.copyBusy ∧ x.copyAt + segLen (s.engSeg c) ≤ 20 * s.tclks + 20 then
      let w := s.engSeg c
      let s := (upFrom (segBase w) (segLen w)).foldl
        (fun s i => s.sramSet (instrKey c (!x.bank) i) (s.sramGet (instrKey c x.bank i))) s
      s.setEng c fun x => { x with copyBusy := false }
    else s)

/-! ### Start events (R180–R182) -/

/-- A start event for engines, bit n for CHn, with a target or without. The clocks of the tiles concerned start where they are
stopped (R127, R180). -/
def State.startEvent (s : State) (engines : BitVec 64) (target : Option TimePoint) : State :=
  let s : State := { s with starts := s.starts ++ [⟨engines, target, 20 * s.tclks⟩] }
  (upFrom 0 8).foldl
    (fun s t => if engines.toNat / 2 ^ (8 * t) % 256 = 0 then s else s.tileWake t) s

/-- ENG_CMD.START. -/
def State.engStart (s : State) (e : Nat) : State := s.startEvent (BitVec.ofNat 64 (2 ^ e)) none

/-- GRP_START.GO: T is the count at the next TCLK edge, and the edge nearest T + 1,000 ns (R180). The masks are one set of
registers for the node, kept in tile 0's page. -/
def State.grpStart (s : State) : State :=
  s.startEvent (BitVec.ofNat 64 ((s.rd (Reg.tileGrpMaskLo 0)).toNat + (s.rd (Reg.tileGrpMaskHi 0)).toNat * 2 ^ 32))
    (some (timeAdd s.nextEdge 1000))

/-- A start event acts on engine e at tile edge n of time `t` (R157, R181). A second event on the same edge has acted with the first
(R182). -/
def State.startEngine (s : State) (e n : Nat) (t : TimePoint) : State :=
  let x := s.eng e
  let entry := s.fld (Reg.chEngEntry e) 0 10
  if x.startedAt = some n then s
  else
    let s := s.setEng e fun x => { x with startedAt := some n }
    if !s.runs e 10 then s.bump (Reg.chCntStartIgnored e)
    else
      let s := s.raise (0x80 + e) 20
      if x.st ≠ 1 then
        ((s.setEng e fun x => { x with st := 1, wait := none, stalled := false, next := .run }).engRestart e n 1).engGoto e entry t
      else if x.wait.any (fun w => decide (w.kind = 4)) then
        ((s.setEng e fun x => { x with wait := none }).engRestart e n (1 + bits (s.engFetch e) 21 5)).engAdvance e t
      else if s.flag (Reg.chEngCfg e) 3 then ((s.engAbandon e 1 t).engRestart e n 1).engGoto e entry t
      else s.engRestart e n (x.left - s.engCount e (n - 1))

/-- The engines of an event, lowest first. -/
def namedEngines (m : BitVec 64) : List Nat := (upFrom 0 64).filter fun e => m.toNat.testBit e

/-- Whether a start event's edge can be the tile edge d ns after the standing TCLK edge: that nearest its target or a later one, or one
at least 8 tile cycles after the write; and the clocks of the tiles of the engines that it will start run (R180).
DEDUCED: log entry 46. -/
def State.startDue (s : State) (x : StartEvt) (d : Nat) : Bool :=
  decide (d % 2 = 0)
    && (match x.target with
      | some t => decide (-1 ≤ timeDiff (s.cycleTime d) t)
      | none => decide (x.since + 8 ≤ s.tileEdge d))
    && (namedEngines x.engines).all fun e => !s.runs e 10 || decide ((s.tile (e / 8)).clk = .running)

/-- START_EVENT_ACT (R157, R180–R182): the start event at place i acts on its edge, d ns after the TCLK edge whose count stands.
Events of one target act as one. -/
def execStartEventAct (i : Nat) (d : Fin 40) (s : State) : Host.Outcome State Fault Refusal :=
  .next (
    match s.starts[i]? with
    | some x =>
      if s.startDue x d then
        let same (y : StartEvt) : Bool := x.target.isSome && decide (y.target = x.target)
        let m := s.starts.foldl (fun a y => if same y then a ||| y.engines else a) x.engines
        let s : State := { s with starts := (s.starts.eraseIdx i).filter fun y => !same y }
        (namedEngines m).foldl (fun s e => s.startEngine e (s.tileEdge d) (s.cycleTime d)) s
      else s
    | none => s)

/-! ### Commands and register writes of an engine -/

/-- A write of ENG_CMD: RESET, COMMIT, START and HALT of one write apply in the order of R182, with CANCEL_COMMIT and COPY_ACTIVE after
a COMMIT. DESIGN CHOICE: log entry 84. -/
def State.engCommand (s : State) (e : Nat) (v : Word) : State :=
  let s := if bit v 2 then s.engReset e else s
  let s := if bit v 3 then s.engCommit e (bit v 4) else s
  let s := if bit v 7 then s.engCancel e else s
  let s := if bit v 6 then s.engCopy e else s
  let s := if bit v 0 then s.engStart e else s
  if bit v 1 then s.engHalt e 1 0 (s.nextCycleTime e) else s

/-- Whether a segment overlaps that of another engine of the tile (R174). -/
def State.segOverlaps (s : State) (e : Nat) (w : Word) : Bool :=
  (upFrom (e / 8 * 8) 8).any fun f =>
    let o := s.engSeg f
    decide (f ≠ e) && decide (segBase w < segBase o + segLen o) && decide (segBase o < segBase w + segLen w)

/-- A write of ENG_SEG (R174). -/
def State.engSegWrite (s : State) (e : Nat) (v : Word) : State :=
  let bad := decide ((s.eng e).st = 1) || s.segOverlaps e v || decide (1024 < segBase v + segLen v)
  let s := s.setEng e fun x => { x with segConflict := bad }
  if bad then s else s.wr (Reg.chEngSeg e) (v &&& 0x07FF03FF#32)

/-- A write of ENG_PROG_DATA: into the staging bank at ADDR, which then advances with AUTOINC = 1; refused and counted outside
the segment, with a commit pending or a copy in progress (R175). DEDUCED: log entry 46. -/
def State.engProgWrite (s : State) (e : Nat) (v : Word) : State :=
  let x := s.eng e
  let p := s.rd (Reg.chEngProgAddr e)
  let a := bits p 0 10
  if !inSeg (s.engSeg e) a || x.commitPend || x.copyBusy then s.bump (Reg.chCntProgRefused e)
  else
    let s := s.sramSet (instrKey e (!x.bank) a) v
    if bit p 31 then s.wr (Reg.chEngProgAddr e) (setBits p 0 10 (a + 1)) else s

/-- ENG_FLAG_SET. -/
def State.engFlagSet (s : State) (e : Nat) (v : Word) : State :=
  s.setEng e fun x => { x with flags := x.flags ||| BitVec.ofNat 4 v.toNat }

/-- ENG_FLAG_CLR; a set in the same write prevails. -/
def State.engFlagClr (s : State) (e : Nat) (v : Word) : State :=
  s.setEng e fun x => { x with flags := x.flags &&& ~~~ BitVec.ofNat 4 v.toNat }

/-- A write of ENG_MARK_NS: the pair takes effect together (R168). -/
def State.engMarkWrite (s : State) (e : Nat) (v : Word) : State :=
  s.setEng e fun x => { x with mark := ⟨s.rd (Reg.chEngMarkSec e), capAt 999999999 (bits v 0 30)⟩, prepared := false }

/-- A write of ENG_OSR while not RUNNING sets OSR_COUNT to 32. -/
def State.engOsrWrite (s : State) (e : Nat) (v : Word) : State :=
  s.setEng e fun x => if x.st = 1 then x else { x with osr := v, osrN := 32 }

/-- Writes of ENG_XY and ENG_CNT while not RUNNING. -/
def State.engXyWrite (s : State) (e : Nat) (v : Word) : State :=
  s.setEng e fun x =>
    if x.st = 1 then x else { x with x := BitVec.ofNat 16 (bits v 0 16), y := BitVec.ofNat 16 (bits v 16 16) }

def State.engCntWrite (s : State) (e : Nat) (v : Word) : State :=
  s.setEng e fun x =>
    if x.st = 1 then x else { x with c0 := BitVec.ofNat 16 (bits v 0 16), c1 := BitVec.ofNat 16 (bits v 16 16) }

/-- The engines of tile t that lose a line to a lower channel while its clock runs (R160). -/
def State.driveLosers (s : State) (t : Nat) : List Nat :=
  if (s.tile t).clk = .running then
    let busy := (upFrom (8 * t) 8).filter fun e => decide ((s.eng e).oe ≠ 0)
    if busy.length < 2 then []
    else
      (upFrom (32 * t) 32).foldl (fun l k => (s.drivers k).tail.foldl (fun l d => setAdd l d.1) l) []
  else []

/-- Drive conflicts of tile t counted up to tile edge n: each engine that loses a line counts every tile cycle since the last count
(R160). -/
def State.conflictsTo (s : State) (t n : Nat) : State :=
  let k := n - (s.tile t).lossAt
  let s := (s.driveLosers t).foldl (fun s e => s.bumpBy (Reg.chCntDriveConflict e) k) s
  s.setTile t fun x => { x with lossAt := if x.lossAt < n then n else x.lossAt }

/-- A write of FUNC (R130): only while EN = 0; one that selects a CAN controller already selected is ignored and sets
CAN_CONFLICT, whatever EN is. DEDUCED: log entry 57. -/
def State.funcWrite (s : State) (c : Nat) (v : Word) : State :=
  let taken := (upFrom 0 64).any fun d =>
    decide (d ≠ c) && decide (s.chFunc d = 9) && decide (s.fld (Reg.chFunc d) 8 4 = bits v 8 4)
  if bits v 0 4 = 9 && taken then s.wr (Reg.status (0x80 + c)) 1
  else if s.enabled (0x80 + c) then s
  else (s.wr (Reg.status (0x80 + c)) 0).wr (Reg.chFunc c) (v &&& 0xF0F#32)

end Sys2Proof.Machine
end

