-- ==== Sys2Proof/Machine/EngineCode.lean ====
section
/-! DEFINITION. The instructions of tine engines (R164–R173, R177): each command is one engine cycle, d ns after the TCLK edge
whose count stands, in which engine c executes the instruction its PC names. -/

namespace Sys2Proof.Machine

/-! ### Fields of an instruction (R164) -/

def insOp (w : Word) : Nat := bits w 26 6
def insDelay (w : Word) : Nat := bits w 21 5
/-- Operand bits [20:18]. -/
def insSel (w : Word) : Nat := bits w 18 3
/-- N of a shift: 0 means 32. -/
def insCount (w : Word) : Nat := if bits w 0 5 = 0 then 32 else bits w 0 5
/-- KIND of MARK. -/
def markKind (w : Word) : Nat := bits w 19 2

/-- An OP or operand value marked reserved (R164, R166, R167). -/
def insReserved (w : Word) : Bool :=
  let op := insOp w
  if op = 1 ∨ op = 2 then decide (4 ≤ insSel w)
  else if op = 4 then decide (insSel w ≠ 1 ∧ insSel w ≠ 2)
  else if op = 5 then decide (bits w 18 2 = 3)
  else if op = 6 then decide (9 ≤ bits w 16 5 ∧ bits w 16 5 < 16)
  else if op = 7 then decide (5 ≤ insSel w)
  else if op = 8 then !bit w 20 && decide (bits w 17 2 = 3)
  else if op = 10 then decide (markKind w = 3)
  else decide (10 < op)

/-- Engine e can take the instruction at its PC: RUNNING, its channel as R157 asks, its tile's clock running, and not
in a wait or pending swap. -/
def State.engReady (s : State) (e : Nat) : Bool :=
  let x := s.eng e
  decide (x.st = 1) && s.runs e 10 && decide ((s.tile (e / 8)).clk = .running) && x.wait.isNone && decide (x.next = .run)

/-- Tile edge d ns after the standing TCLK edge is the engine cycle in which engine e executes the instruction at its PC (R162, R164). -/
def State.engNow (s : State) (e d : Nat) : Bool := s.engReady e && decide (d % 2 = 0) && s.engDue e (s.tileEdge d)

/-- The engine cycle at tile edge n taken, with the DELAY of its instruction still to pass before the next (R164). -/
def State.engTake (s : State) (e n : Nat) (w : Word) : State := s.engSync e n (1 + insDelay w)

/-- An instruction that `is` names executed by `act` in the engine cycle d ns after the standing TCLK edge, with its cycle and DELAY
counted (R162, R164). In any other cycle the engine executes nothing. DEDUCED: log entry 46. -/
def State.engRun (s : State) (e d : Nat) (is : Word → Bool) (act : Word → State → State) : State :=
  let w := s.engFetch e
  if s.engNow e d && !(s.eng e).stalled && !insReserved w && is w then act w (s.engTake e (s.tileEdge d) w) else s

/-- The instruction has OP `op`. -/
def isOp (op : Nat) (w : Word) : Bool := decide (insOp w = op)

/-- The raw level of a line at a moment in ns of the count of TCLK edges, not long past. DEDUCED: log entry 46. -/
def LineCell.levelAt (c : LineCell) (ns : Nat) : Bool := if c.rawNs ≤ ns then c.raw else c.rawWas

/-- What slot p reads in the engine cycle at tile edge n: the raw level of its line 4 ns before (R158). -/
def State.slotLevel (s : State) (e p n : Nat) : Bool := (s.line (s.slotLine e (p % 8))).levelAt (2 * n - 4)

/-- The eight slots' levels as bits, the first one that of slot `base`. -/
def State.slotLevels (s : State) (e base n : Nat) : Nat :=
  (upFrom 0 8).foldl (fun a i => a + if s.slotLevel e (base + i) n then 2 ^ i else 0) 0

/-! ### HALT, shifts, drive, sample, load (R164, R165) -/

/-- HALT. -/
def execHalt (c : Fin 64) (d : Fin 40) (s : State) : Host.Outcome State Fault Refusal :=
  .next (s.engRun c d (isOp 0) fun w s => s.engHalt c 0 (bits w 0 8) (s.cycleTime d))

/-- v of a SHIFT_OUT and OSR after it (R165). -/
def shiftOutValue (right : Bool) (osr : Word) (n : Nat) : Nat × Word :=
  if right then (osr.toNat % 2 ^ n, osr >>> n) else (osr.toNat / 2 ^ (32 - n), osr <<< n)

/-- Values of the slots that bits of v give, from slot `base` on: min(N, 8) of them. -/
def outSlots (val : BitVec 8) (base v n : Nat) : BitVec 8 :=
  BitVec.ofNat 8 ((upFrom 0 8).foldl (fun a p =>
    let i := (p + 8 - base) % 8
    a + if (if i < n then v.testBit i else val.toNat.testBit p) then 2 ^ p else 0) 0)

/-- SHIFT_OUT (R165). -/
def execShiftOut (c : Fin 64) (d : Fin 40) (s : State) : Host.Outcome State Fault Refusal :=
  .next (s.engRun c d (isOp 1) fun w s =>
    let n := insCount w
    let (v, osr) := shiftOutValue (s.flag (Reg.chEngCfg c) 1) (s.eng c).osr n
    let base := s.fld (Reg.chEngIobase c) 8 3
    let s := s.setEng c fun x => { x with osr, osrN := x.osrN - n }
    let s := s.setEng c fun x => match insSel w with
      | 0 => { x with val := outSlots x.val base v n }
      | 1 => { x with x := BitVec.ofNat 16 v }
      | 2 => { x with y := BitVec.ofNat 16 v }
      | _ => x
    s.engAdvance c (s.cycleTime d))

/-- ISR after a SHIFT_IN of n bits v (R165). -/
def shiftInValue (right : Bool) (isr : Word) (v n : Nat) : Word :=
  if right then (isr >>> n) ||| w32 (v <<< (32 - n)) else (isr <<< n) ||| w32 v

/-- SHIFT_IN (R165). -/
def execShiftIn (c : Fin 64) (d : Fin 40) (s : State) : Host.Outcome State Fault Refusal :=
  .next (s.engRun c d (isOp 2) fun w s =>
    let n := insCount w
    let x := s.eng c
    let v := match insSel w with
      | 0 => s.slotLevels c (s.fld (Reg.chEngIobase c) 0 3) (s.tileEdge d) % 2 ^ n
      | 1 => x.x.toNat % 2 ^ n
      | 2 => x.y.toNat % 2 ^ n
      | _ => 0
    let s := s.setEng c fun x => { x with
      isr := shiftInValue (s.flag (Reg.chEngCfg c) 2) x.isr v n, isrN := capAt 32 (x.isrN + n) }
    s.engAdvance c (s.cycleTime d))

/-- DRIVE. The tile's drive conflicts of the cycles before are counted (R160). -/
def execDrive (c : Fin 64) (d : Fin 40) (s : State) : Host.Outcome State Fault Refusal :=
  .next (s.engRun c d (isOp 3) fun w s =>
    let s := s.conflictsTo (c / 8) (s.tileEdge d)
    let m := BitVec.ofNat 8 (bits w 8 8)
    let v := BitVec.ofNat 8 (bits w 0 8)
    let s := s.setEng c fun x =>
      if bit w 16 then { x with oe := x.oe ||| m, val := (x.val &&& ~~~ m) ||| (v &&& m) }
      else { x with oe := x.oe &&& ~~~ m }
    s.engAdvance c (s.cycleTime d))

/-- SAMPLE. -/
def execSample (c : Fin 64) (d : Fin 40) (s : State) : Host.Outcome State Fault Refusal :=
  .next (s.engRun c d (isOp 4) fun w s =>
    let v := BitVec.ofNat 16 (s.slotLevels c 0 (s.tileEdge d))
    let s := s.setEng c fun x => if insSel w = 1 then { x with x := v } else { x with y := v }
    s.engAdvance c (s.cycleTime d))

/-- LOAD. -/
def execLoad (c : Fin 64) (d : Fin 40) (s : State) : Host.Outcome State Fault Refusal :=
  .next (s.engRun c d (isOp 5) fun w s =>
    let x := s.eng c
    let v := match bits w 18 2 with
      | 0 => BitVec.ofNat 16 (bits w 0 16)
      | 1 => x.x
      | _ => x.y
    let s := s.setEng c fun x => if bit w 20 then { x with c1 := v } else { x with c0 := v }
    s.engAdvance c (s.cycleTime d))

/-! ### BRANCH (R166) -/

/-- Whether a BRANCH is taken in the engine cycle at tile edge n (R166). -/
def State.branchTaken (s : State) (e : Nat) (w : Word) (n : Nat) : Bool :=
  let at_ := n
  let x := s.eng e
  let cond := bits w 16 5
  let n := bits w 10 6
  match cond with
  | 0x00 => true
  | 0x01 => decide (x.c0 ≠ 0)
  | 0x02 => decide (x.c1 ≠ 0)
  | 0x03 => decide (n ≤ x.isrN)
  | 0x04 => decide (x.isrN = n)
  | 0x05 => decide (x.isr = 0)
  | 0x06 => decide (n ≤ x.osrN)
  | 0x07 => decide (x.osrN = n)
  | 0x08 => decide (x.osr = 0)
  | _ =>
    if cond < 0x18 then xor (s.slotLevel e (cond - 0x10) at_) (n % 2 = 1)
    else if cond < 0x1C then x.flags.toNat.testBit (cond - 0x18)
    else !x.flags.toNat.testBit (cond - 0x1C)

/-- What a taken BRANCH changes besides the PC: the counter it tests, or the flag it clears. -/
def branchEffect (w : Word) (x : EngSt) : EngSt :=
  let cond := bits w 16 5
  if cond = 1 then { x with c0 := x.c0 - 1 }
  else if cond = 2 then { x with c1 := x.c1 - 1 }
  else if 0x18 ≤ cond ∧ cond < 0x1C ∧ bits w 10 6 % 2 = 1 then
    { x with flags := x.flags &&& ~~~ BitVec.ofNat 4 (2 ^ (cond - 0x18)) }
  else x

/-- BRANCH (R166, R176). -/
def execBranch (c : Fin 64) (d : Fin 40) (s : State) : Host.Outcome State Fault Refusal :=
  .next (s.engRun c d (isOp 6) fun w s =>
    if s.branchTaken c w (s.tileEdge d) then (s.setEng c (branchEffect w)).engGoto c (bits w 0 10) (s.cycleTime d)
    else s.engAdvance c (s.cycleTime d))

/-! ### WAIT (R167, R168) -/

/-- Steps by which a mark reached at or before `t` advances: until it lies after `t` (R168). -/
def markSteps (mark t : TimePoint) (step : Nat) : Nat := if step = 0 then 0 else (timeDiff t mark).toNat / step + 1

/-- A WAIT TIME ends in the cycle of time `t`: the mark advances, ENG_MARK_SEC with it unless software has begun a new pair; TIME_LATE
says whether the wait was late, and the steps a late one skipped are counted (R168). DEDUCED: log entry 46. -/
def State.markEnd (s : State) (e : Nat) (t : TimePoint) (late : Bool) : State :=
  let step := (s.rd (Reg.chEngMarkStep e)).toNat
  let k := markSteps (s.eng e).mark t step
  let old := (s.eng e).mark.sec
  let s := s.setEng e fun x =>
    { x with mark := timeAdd x.mark ((k * step : Nat) : Int), timeLate := late, wait := none, prepared := false }
  let sec := (s.eng e).mark.sec
  let s := if s.rd (Reg.chEngMarkSec e) = old then s.wr (Reg.chEngMarkSec e) sec else s
  let s := if late then (s.bumpBy (Reg.chCntTimeLate e) (k - 1)).raise (0x80 + e) 21 else s
  s.engAdvance e t

/-- Tile edges from an engine cycle to the one before it, at tile edge n (R162). -/
def State.engBefore (s : State) (e n : Nat) : Nat := (s.engDivider e + s.engAcc e n % s.engDivider e) / 256

/-- A test of a wait's condition in the engine cycle at tile edge n, the one before it `back` tile edges earlier (R167): a pin edge is
seen against the level read at that test. -/
def State.waitTest (s : State) (e n back : Nat) (w : Word) (x : EngWait) : Bool :=
  let level := s.slotLevel e (bits w 15 3) n
  match x.kind with
  | 0 => level == bit w 14
  | 1 => level == bit w 14 && x.tested && s.slotLevel e (bits w 15 3) (n - back) != level
  | 2 => (s.eng e).flags.toNat.testBit (bits w 15 2) == bit w 14
  | _ => false

/-- A cycle of a wait of kind 0–2 at tile edge n: it ends, a flag with CLR = 1 cleared and its DELAY to come, or goes on to the next
cycle. -/
def State.waitCycle (s : State) (e n back : Nat) (w : Word) (x : EngWait) (t : TimePoint) : State :=
  if s.waitTest e n back w x then
    let s := (s.engTake e n w).setEng e fun y => { y with
      wait := none,
      flags := if x.kind = 2 ∧ bit w 13 then y.flags &&& ~~~ BitVec.ofNat 4 (2 ^ bits w 15 2) else y.flags }
    s.engAdvance e t
  else (s.engSync e n 1).setEng e fun y => { y with wait := some ⟨x.kind, true⟩ }

/-- WAIT (R167, R168): the wait begins and is tested in its first cycle; a mark already reached ends it late. -/
def execWait (c : Fin 64) (d : Fin 40) (s : State) : Host.Outcome State Fault Refusal :=
  .next (s.engRun c d (isOp 7) fun w s =>
    let kind := insSel w
    let t := s.cycleTime d
    if kind < 3 then s.waitCycle c (s.tileEdge d) 0 w ⟨kind, false⟩ t
    else if kind = 3 ∧ timeReached t (s.eng c).mark then s.markEnd c t true
    else s.setEng c fun y => { y with wait := some ⟨kind, false⟩ })

/-- WAIT_END (R167): an engine cycle of a wait for a pin or a flag; a wait for a launch ends with its start event. -/
def execWaitEnd (c : Fin 64) (d : Fin 40) (s : State) : Host.Outcome State Fault Refusal :=
  .next (match (s.eng c).wait with
    | some x =>
      let n := s.tileEdge d
      if x.kind < 3 ∧ (s.tile (c / 8)).clk = .running ∧ (d : Nat) % 2 = 0 ∧ s.engCycleAt c n then
        s.waitCycle c n (s.engBefore c n) (s.engFetch c) x (s.cycleTime d)
      else s
    | none => s)

/-- WAIT_TIME_MARK (R163, R168): the tile edge nearest the mark, within 1 ns of it; the clock restarts on it, and the next instruction
executes on it, after any DELAY. A mark that a forced step has passed ends the wait late, on the engine's grid. DEDUCED: log entry 46. -/
def execWaitTimeMark (c : Fin 64) (d : Fin 40) (s : State) : Host.Outcome State Fault Refusal :=
  .next (
    let x := s.eng c
    let t := s.cycleTime d
    let waits : Bool := match x.wait with
      | some w => decide (w.kind = 3)
      | none => false
    let n := s.tileEdge d
    let w := s.engFetch c
    if waits ∧ (s.tile (c / 8)).clk = .running ∧ (d : Nat) % 2 = 0 ∧ -1 ≤ timeDiff t x.mark then
      if 1 < timeDiff t x.mark then (if s.engCycleAt c n then (s.engTake c n w).markEnd c t true else s)
      else (s.engRestart c n (1 + insDelay w)).markEnd c (if timeReached t x.mark then t else x.mark) false
    else s)

/-- ENGINE_MARK_PREPARE (R168): 1 µs before the mark the tile prepares its clock. -/
def execEngineMarkPrepare (c : Fin 64) (s : State) : Host.Outcome State Fault Refusal :=
  .next (
    let x := s.eng c
    let waits : Bool := match x.wait with
      | some w => decide (w.kind = 3)
      | none => false
    if waits ∧ timeDiff x.mark s.now ≤ 1000 then
      (s.setEng c fun x => { x with prepared := true }).tileWake (c / 8)
    else s)

/-! ### FIFO exchange and stamps (R169–R173) -/

/-- An RX packet is open: being written, or being discarded to its end. -/
def State.rxOpen (s : State) (e : Nat) : Bool :=
  (s.fifo (rxFifo e)).writing.isSome || (s.fifo (rxFifo e)).skipping

/-- Words an exchange needs that stores `n` data words: with no packet open, header and trailer as well (R144, R171). -/
def State.rxNeed (s : State) (e n : Nat) : Nat := if s.rxOpen e then n else n + 2

/-- The data bytes of the packet being written. -/
def State.rxOpenBytes (s : State) (e : Nat) : Nat := ((s.fifo (rxFifo e)).writing.map fun p => p.bytes).getD 0

/-- END of a PUSH. -/
def pushEnd (w : Word) : Nat := bits w 17 2

/-- Bytes that a PUSH writes: 4, or ⌈ISR count / 8⌉ with END = 1, none with END = 2 (R169, R170). -/
def State.pushBytes (s : State) (e : Nat) (w : Word) : Nat :=
  if pushEnd w = 2 then 0 else if pushEnd w = 1 then ((s.eng e).isrN + 7) / 8 else 4

/-- A PUSH that has room (R169, R170). DEDUCED: log entry 47. -/
def State.pushAct (s : State) (e : Nat) (w : Word) : State :=
  let id := rxFifo e
  let x := s.eng e
  let n := s.pushBytes e w
  let s := if s.rxOpen e then s else s.rxBegin id
  let s := if 65535 < s.rxOpenBytes e + n then s.rxFail id 0xFE
    else
      let s := if n = 0 then s else s.rxWord id x.isr n
      if pushEnd w = 1 then s.rxCommit id
      else if pushEnd w = 2 then s.rxFail id (if x.x.toNat % 256 = 0 then 1 else x.x.toNat % 256)
      else s
  s.setEng e fun x => { x with isr := 0, isrN := 0 }

/-- A STAMP that has room: the time of the cycle's edge, 8 bytes (R173). DEDUCED: log entry 47. -/
def State.stampAct (s : State) (e : Nat) (t : TimePoint) : State :=
  let id := rxFifo e
  let s := if s.rxOpen e then s else s.rxBegin id
  if 65535 < s.rxOpenBytes e + 8 then s.rxFail id 0xFE
  else (s.rxWord id t.sec 4).rxWord id (w32 (at_ 30 s.qualSum + t.ns)) 4

/-- The next data word of the packet begun loaded into OSR: the count, and F2 on the last word, which ends the packet (R172). -/
def State.pullWord (s : State) (e : Nat) : State :=
  let id := txFifo e
  let p := (s.fifo id).pkts.head?
  let k := (p.map fun p => p.read).getD 0
  let len := (p.map fun p => p.declared).getD 0
  match s.txNext id with
  | (some w, s) =>
    let last := decide (len ≤ 4 * k)
    let s := s.setEng e fun x => { x with
      osr := w, osrN := if last then 8 * (len - 4 * (k - 1)) else 32,
      flags := (x.flags &&& 0xB#4) ||| (if last then 4#4 else 0#4) }
    if last then s.txFinish id else s
  | (none, s) => s

/-- The oldest TX packet begun, its header in X and Y (R172). -/
def State.pullHeader (s : State) (e : Nat) : State :=
  match s.txBegin (txFifo e) with
  | (some w, s) =>
    s.setEng e fun x => { x with x := BitVec.ofNat 16 (bits w 16 16), y := BitVec.ofNat 16 (bits w 0 16) }
  | (none, s) => s

/-- A TX packet has been begun by the engine. -/
def State.txBegun (s : State) (e : Nat) : Bool :=
  ((s.fifo (txFifo e)).pkts.head?.map fun p => decide (0 < p.read)).getD false

/-- A begun packet needs a word that has not been written (R152). -/
def State.txStarved (s : State) (e : Nat) : Bool :=
  ((s.fifo (txFifo e)).pkts.head?.map fun p => decide (0 < p.read ∧ p.words < p.read)).getD false

/-- What a PULL finds: the remainder of a begun packet is discarded where HDR = 1, and a packet that has run dry ends BAD (R152,
R172). -/
def State.pullPrepare (s : State) (e : Nat) (hdr : Bool) : State :=
  if hdr then (if s.txBegun e then s.dropOldest (txFifo e) else s)
  else if s.txStarved e then s.txUnderrun (txFifo e)
  else s

/-- A PULL that finds something. DEDUCED: log entry 47. -/
def State.pullAct (s : State) (e : Nat) (hdr : Bool) : State :=
  if hdr then s.pullHeader e
  else if s.txBegun e then s.pullWord e
  else (s.pullHeader e).pullWord e

/-- Whether a PULL finds something: a begun packet's word, or a packet that may begin. -/
def State.pullFinds (s : State) (e : Nat) (hdr : Bool) : Bool :=
  if !hdr && s.txBegun e then true else s.txReady (txFifo e) && !s.txBegun e

/-- The state in which an exchange finds the FIFOs, whether it can act, and its action; `none` for another instruction.
DEDUCED: log entry 47. -/
def State.exchange (s : State) (e : Nat) (w : Word) (t : TimePoint) : State × Bool × (State → State) :=
  if insOp w = 9 then (s, decide (s.rxNeed e 2 ≤ s.fifoFree (rxFifo e)), fun s => s.stampAct e t)
  else if bit w 20 then
    let p := s.pullPrepare e (bit w 17)
    if bit w 19 && !p.pullFinds e (bit w 17) && (bit w 17 || !s.txStarved e) then (s, false, id)
    else (p, p.pullFinds e (bit w 17), fun s => s.pullAct e (bit w 17))
  else
    let n := if s.pushBytes e w = 0 then 0 else 1
    (s, decide (s.rxNeed e n ≤ s.fifoFree (rxFifo e) ∨ (s.rxOpen e ∧ n = 0)), fun s => s.pushAct e w)

/-- A cycle of PUSH, PULL or STAMP at tile edge n (R169–R173): it acts and completes, or with NOWAIT = 1 completes with F3 set, or
stalls to the next cycle, which CNT_ENG_STALL counts. -/
def State.exchangeCycle (s : State) (e n : Nat) (w : Word) (t : TimePoint) : State :=
  let (p, can, act) := s.exchange e w t
  let nowait := bit w 19
  if can then
    let p := act ((p.engTake e n w).setEng e fun x => { x with stalled := false })
    (p.setEng e fun x => if nowait then { x with flags := x.flags &&& 7#4 } else x).engAdvance e t
  else if nowait then ((p.engTake e n w).setEng e fun x => { x with flags := x.flags ||| 8#4 }).engAdvance e t
  else ((p.engSync e n 1).setEng e fun x => { x with stalled := true }).bump (Reg.chCntEngStall e)

/-- An exchange begun or, by a stalled engine, tried again in its next cycle. -/
def State.engExchange (s : State) (e d : Nat) (is : Word → Bool) (t : TimePoint) : State :=
  let w := s.engFetch e
  if s.engNow e d && !insReserved w && is w then s.exchangeCycle e (s.tileEdge d) w t else s

/-- PUSH (R169–R171). -/
def execPush (c : Fin 64) (d : Fin 40) (s : State) : Host.Outcome State Fault Refusal :=
  .next (s.engExchange c d (fun w => isOp 8 w && !bit w 20) (s.cycleTime d))

/-- PULL (R171, R172). -/
def execPull (c : Fin 64) (d : Fin 40) (s : State) : Host.Outcome State Fault Refusal :=
  .next (s.engExchange c d (fun w => isOp 8 w && bit w 20) (s.cycleTime d))

/-- STAMP (R173). -/
def execStamp (c : Fin 64) (d : Fin 40) (s : State) : Host.Outcome State Fault Refusal :=
  .next (s.engExchange c d (isOp 9) (s.cycleTime d))

/-- STALL_END (R171): a stalled exchange proceeds in an engine cycle; the engine cycles it stalled through since it was last tried, which
the command reports, are counted. DEDUCED: log entries 1 and 47. -/
def execStallEnd (c : Fin 64) (d : Fin 40) (cycles : Nat) (s : State) : Host.Outcome State Fault Refusal :=
  .next (
    let w := s.engFetch c
    let n := s.tileEdge d
    if s.engReady c && (s.eng c).stalled && decide ((d : Nat) % 2 = 0) && s.engCycleAt c n
        && (s.exchange c w (s.cycleTime d)).2.1 && decide (cycles = s.engCount c n - 1) then
      (s.bumpBy (Reg.chCntEngStall c) cycles).exchangeCycle c n w (s.cycleTime d)
    else s)

/-! ### MARK (R164) -/

/-- The flag a MARK names, as a mask. -/
def markFlag (w : Word) : BitVec 4 := BitVec.ofNat 4 (2 ^ bits w 17 2)

/-- IRQ = 1 of a MARK sets interrupt bit 16. -/
def State.markIrq (s : State) (e : Nat) (w : Word) : State := if bit w 16 then s.raise (0x80 + e) 16 else s

/-- MARK with KIND 0. -/
def execMarkSetFlag (c : Fin 64) (d : Fin 40) (s : State) : Host.Outcome State Fault Refusal :=
  .next (s.engRun c d (fun w => isOp 10 w && decide (markKind w = 0)) fun w s =>
    let s := s.setEng c fun x => { x with flags := x.flags ||| markFlag w }
    (s.markIrq c w).engAdvance c (s.cycleTime d))

/-- MARK with KIND 1. -/
def execMarkClearFlag (c : Fin 64) (d : Fin 40) (s : State) : Host.Outcome State Fault Refusal :=
  .next (s.engRun c d (fun w => isOp 10 w && decide (markKind w = 1)) fun w s =>
    let s := s.setEng c fun x => { x with flags := x.flags &&& ~~~ markFlag w }
    (s.markIrq c w).engAdvance c (s.cycleTime d))

/-- MARK with KIND 2: ENGINE_MARK (R183). -/
def execMarkPost (c : Fin 64) (d : Fin 40) (s : State) : Host.Outcome State Fault Refusal :=
  .next (s.engRun c d (fun w => isOp 10 w && decide (markKind w = 2)) fun w s =>
    let x := s.eng c
    let s := s.engPost c 0x30 0 (s.cycleTime d) (w32 (at_ 16 (bits w 0 8) + x.pc))
      (w32 (at_ 16 x.y.toNat + x.x.toNat)) (countsWord x.isrN x.osrN) (w32 x.flags.toNat)
    (s.markIrq c w).engAdvance c (s.cycleTime d))

/-! ### Illegal instructions and ECC (R164, R177) -/

/-- ILLEGAL_INSTRUCTION (R164). -/
def execIllegalInstruction (c : Fin 64) (d : Fin 40) (s : State) : Host.Outcome State Fault Refusal :=
  .next (if s.engNow c d && !(s.eng c).stalled && insReserved (s.engFetch c) then s.engHalt c 3 0 (s.cycleTime d) else s)

/-- ENGINE_FETCH_ECC (R177, R446): SECDED on the fetch of tile SRAM. -/
def execEngineFetchEcc (c : Fin 64) (d : Fin 40) (ecc : ReadEcc) (s : State) : Host.Outcome State Fault Refusal :=
  .next (
    if s.engNow c d then
      let page := 0x40 + (c : Nat) / 8
      match ecc with
      | .clean => s
      | .corrected a y => s.eccError page 0 false a y
      | .uncorrectable a y => (s.memUncorr page 0 a y).engHalt c 4 0 (s.cycleTime d)
    else s)

end Sys2Proof.Machine
end

