-- ==== Sys2Proof/Machine/Icu.lean ====
section
/-! DEFINITION. The interrupt controller's commands: claim and complete with the nesting stack, routing, software and private
sources, timers and hold-off groups (R419–R438). Sources become pending in Ops.lean. Targets are numbered 0 STW, 1–4 AC0–AC3,
5 HOST. -/

namespace Sys2Proof.Machine

def State.setIcu (s : State) (f : IcuSt → IcuSt) : State := { s with icu := f s.icu }

/-- The nesting stack of a target, oldest entry first: claimed ID and the threshold its complete restores (R426). -/
def State.nest (s : State) (t : Nat) : List (Nat × Nat) := Tab.get [] s.icu.nest t

def State.setNest (s : State) (t : Nat) (l : List (Nat × Nat)) : State :=
  s.setIcu fun i => { i with nest := Tab.set [] i.nest t l }

/-- The counters of a target. -/
def cntSpurious (t : Nat) : Nat := if t = 5 then Reg.icuCntSpurious else Reg.icupCntSpurious (t % 8)
def cntStackFull (t : Nat) : Nat := if t = 5 then Reg.icuCntStackFull else Reg.icupCntStackFull (t % 8)
def cntMismatch (t : Nat) : Nat := if t = 5 then Reg.icuCntMismatch else Reg.icupCntMismatch (t % 8)

/-- Whether an agent is the core of an ICUP page (R437). -/
def agentIsCore (a : Agent) (t : Nat) : Bool :=
  match a with
  | .steward => decide (t = 0)
  | .core n => decide (t = n.toNat + 1)
  | _ => false

/-- Whether an agent may claim and complete for a target: the page's core; the HOST registers bear no such rule (R434, R437).
DEDUCED: log entry 63. -/
def mayClaim (a : Agent) (t : Nat) : Bool := decide (t = 5) || agentIsCore a t

/-- Whether an agent writes THRESHOLD, SWSET, TMR and PRIV_CFG of a target's page (R437). -/
def mayConfigure (a : Agent) (t : Nat) : Bool := mayClaim a t || decide (a = .steward)

/-- The group of a source by its ID, for a claim by target t (R422). -/
def State.sourceGroup (s : State) (t id : Nat) : Nat :=
  if 480 ≤ id then s.fld (Reg.icupPrivCfg t (id - 480)) 16 5 else s.sharedGroup id

/-- A claim that finds a source and room on the stack (R426): the pending bit clears, the threshold and the ID are pushed, the threshold
rises to the PRIO, and the group's interval starts where it is not 0 (R429). -/
def State.claimTake (s : State) (t id prio : Nat) : State :=
  let g := s.sourceGroup t id
  let old := s.fld (thresholdKey t) 0 4
  let s := s.setIcu fun i =>
    if 480 ≤ id then { i with priv := setDel i.priv (32 * t + (id - 480)) } else { i with pend := setDel i.pend id }
  let s := (s.setNest t (s.nest t ++ [(id, old)])).wr (thresholdKey t) (w32 prio)
  let now := s.tclks
  if s.fld (Reg.icuHoldoff g) 0 16 = 0 then s
  else s.setIcu fun i => { i with holding := setAdd i.holding g, holdAt := Tab.set 0 i.holdAt g now }

/-- A read of CLAIM or HOST_CLAIM by an agent: the word, and the state after (R426, R427, R437). DEDUCED: log entry 63. -/
def State.icuClaim (s : State) (t : Nat) (a : Agent) : Word × State :=
  if !mayClaim a t then (0, s)
  else
    let b := s.bestSource t
    if b.2 = 0 then (0, s.bump (cntSpurious t))
    else if 8 ≤ (s.nest t).length then
      (0, (s.setIcu fun i => { i with full := setAdd i.full t }).bump (cntStackFull t))
    else (w32 (at_ 16 b.2 + b.1), s.claimTake t b.1 b.2)

/-- ICU_CLAIM (R426). -/
def execIcuClaim (t : Fin 6) (a : Agent) (s : State) : Host.Outcome State Fault Refusal :=
  .next ((s.icuClaim t a).2.answered (s.icuClaim t a).1)

/-- A complete by a target (R428): the latest claim is undone whatever ID is written; a wrong ID sets MISMATCH, the right one clears both
flags, an empty stack is only counted. -/
def State.icuPop (s : State) (t id : Nat) : State :=
  match (s.nest t).getLast? with
  | none => s.bump (cntMismatch t)
  | some e =>
    let s := (s.setNest t (s.nest t).dropLast).wr (thresholdKey t) (w32 e.2)
    if e.1 = id then s.setIcu fun i => { i with full := setDel i.full t, mismatch := setDel i.mismatch t }
    else (s.setIcu fun i => { i with mismatch := setAdd i.mismatch t }).bump (cntMismatch t)

/-- A write of COMPLETE or HOST_COMPLETE; a HOST_COMPLETE that leaves the request asserted sends the MSI-X message (R428, R434,
R437). DEDUCED: log entry 63. -/
def State.icuComplete (s : State) (t : Nat) (a : Agent) (v : Word) : State :=
  if !mayClaim a t then s
  else
    let s := s.icuPop t (bits v 0 9)
    if t = 5 ∧ s.targetRequest 5 then s.msixSend (s.fld Reg.evqIcuVec 0 6) else s

/-- ICU_COMPLETE (R428). -/
def execIcuComplete (t : Fin 6) (a : Agent) (v : Word) (s : State) : Host.Outcome State Fault Refusal :=
  .next (s.icuComplete t a v)

/-- A write of THRESHOLD or HOST_THRESHOLD (R428, R437). -/
def State.icuThreshold (s : State) (t : Nat) (a : Agent) (v : Word) : State :=
  if !mayConfigure a t then s else s.withHostRequest fun s => s.wr (thresholdKey t) (w32 (bits v 0 4))

/-- THRESHOLD_WRITE (R428). -/
def execThresholdWrite (t : Fin 6) (a : Agent) (v : Word) (s : State) : Host.Outcome State Fault Refusal :=
  .next (s.icuThreshold t a v)

/-- A write of ICU.SWSET (R421, R423): an ID outside 1–448 is ignored; a source whose TARGET is STW takes it from the steward only. -/
def State.icuSwset (s : State) (a : Agent) (v : Word) : State :=
  let id := bits v 0 9
  if id = 0 ∨ 448 < id then s
  else if a ≠ .steward ∧ s.fld (Reg.icuSrcCfg id) 8 3 = 0 then s.bump Reg.icuCntRefused
  else s.icuPend id

/-- A write of ICUPt.SWSET (R421, R437). -/
def State.privSwset (s : State) (t : Nat) (a : Agent) (v : Word) : State :=
  if mayConfigure a t then s.icuPrivate t (bits v 0 5) else s

/-- SWSET (R421): of the ICU page (5) or of an ICUP page. -/
def execSwset (t : Fin 6) (a : Agent) (v : Word) (s : State) : Host.Outcome State Fault Refusal :=
  .next (if t.toNat = 5 then s.icuSwset a v else s.privSwset t a v)

/-- A write of SRC_CFG of shared source id (R422, R423). -/
def State.srcCfgWrite (s : State) (id : Nat) (a : Agent) (v : Word) : State :=
  let old := s.rd (Reg.icuSrcCfg id)
  if a ≠ .steward ∧ (bits old 8 3 = 0 ∨ bits v 8 3 = 0) then s.bump Reg.icuCntRefused
  else s.withHostRequest fun s => s.wr (Reg.icuSrcCfg (id % 449)) (v &&& (if id ≤ 208 then 0x8000070F#32 else 0x801F070F#32))

/-- SRC_CFG_WRITE (R423): sources 1–448, given less 1. -/
def execSrcCfgWrite (i : Fin 448) (a : Agent) (v : Word) (s : State) : Host.Outcome State Fault Refusal :=
  .next (s.srcCfgWrite (i + 1) a v)

/-- A write of PRIV_CFG (R422, R437). -/
def State.privCfgWrite (s : State) (t j : Nat) (a : Agent) (v : Word) : State :=
  if mayConfigure a t then s.wr (Reg.icupPrivCfg (t % 8) (j % 32)) (v &&& 0x801F000F#32) else s

/-- PRIV_CFG_WRITE (R437). -/
def execPrivCfgWrite (t : Fin 5) (j : Fin 32) (a : Agent) (v : Word) (s : State) : Host.Outcome State Fault Refusal :=
  .next (s.privCfgWrite t j a v)

/-- The private source that an agent's write of IPI fires (R435). DEDUCED: log entry 63. -/
def ipiSource : Agent → Nat
  | .steward => 8
  | .core n => 9 + n.toNat
  | .host | .fabric _ | .dma _ => 13

/-- A write of ICUPt.IPI (R435). -/
def State.ipi (s : State) (t : Nat) (a : Agent) (v : Word) : State :=
  if bit v 0 then s.icuPrivate t (ipiSource a) else s

/-- IPI (R435). -/
def execIpi (t : Fin 5) (a : Agent) (v : Word) (s : State) : Host.Outcome State Fault Refusal := .next (s.ipi t a v)

/-- The microseconds a timer is loaded with: RELOAD, where 0 acts as 1 (R436). -/
def reloadOf (v : Word) : Nat := if bits v 0 24 = 0 then 1 else bits v 0 24

def State.setTimer (s : State) (t k : Nat) (x : Option TimerSt) : State :=
  s.setIcu fun i => { i with timers := Tab.set none i.timers (4 * t + k) x }

/-- A write of TMR k: EN = 1 loads RELOAD, EN = 0 stops the timer (R436, R437). -/
def State.tmrWrite (s : State) (t k : Nat) (a : Agent) (v : Word) : State :=
  if mayConfigure a t then
    (s.wr (Reg.icupTmr (t % 8) (k % 4)) (v &&& 0xC0FFFFFF#32)).setTimer t k (if bit v 31 then some ⟨reloadOf v, 0⟩ else none)
  else s

/-- TMR_WRITE (R436). -/
def execTmrWrite (t : Fin 5) (k : Fin 4) (a : Agent) (v : Word) (s : State) : Host.Outcome State Fault Refusal :=
  .next (s.tmrWrite t k a v)

/-- TIMER_EXPIRY (R436): a running timer whose count is 0 fires its private source and reloads, or clears EN. -/
def execTimerExpiry (t : Fin 5) (k : Fin 4) (s : State) : Host.Outcome State Fault Refusal :=
  .next (
    let t : Nat := t
    let k : Nat := k
    match Tab.get none s.icu.timers (4 * t + k) with
    | some x =>
      if x.count = 0 then
        let s := s.icuPrivate t k
        let v := s.rd (Reg.icupTmr t k)
        if bit v 30 then s.setTimer t k (some ⟨reloadOf v, 0⟩)
        else (s.setFld (Reg.icupTmr t k) 31 1 0).setTimer t k none
      else s
    | none => s)

/-- HOLDOFF_END (R429, R434): HOLDOFF × 100 ns have passed since the claim. DESIGN CHOICE: log entry 9. -/
def execHoldoffEnd (g : Fin 32) (s : State) : Host.Outcome State Fault Refusal :=
  .next (
    let n : Nat := g
    if s.passed (Tab.get 0 s.icu.holdAt n) (5 * s.fld (Reg.icuHoldoff n) 0 16 / 2) then
      s.withHostRequest fun s => s.setIcu fun i => { i with holding := setDel i.holding n }
    else s)

/-- The word of an entry of a nesting stack; entries beyond the depth read 0. -/
def State.stackWord (s : State) (t n : Nat) : Word :=
  match (s.nest t)[n]? with
  | some e => w32 (at_ 16 e.1 + e.2)
  | none => 0

/-- HOST_STATUS and STATUS of an ICUP page. -/
def State.icuStatus (s : State) (t : Nat) : Word :=
  w32 (at_ 21 (b2n (setHas s.icu.mismatch t)) + at_ 20 (b2n (setHas s.icu.full t)) + at_ 16 (s.nest t).length
    + b2n (s.targetRequest t))

/-- TMR_VAL k: the microseconds remaining, 0 while the timer does not run. -/
def State.tmrVal (s : State) (t k : Nat) : Word :=
  match Tab.get none s.icu.timers (4 * t + k) with
  | some x => w32 x.count
  | none => 0

/-- SOFT_RESET of the ICU page: pending bits, the HOST stack and threshold, and running intervals (R438). -/
def State.icuSoftReset (s : State) : State :=
  let s := s.setIcu fun i => { i with
    pend := [], holding := [], nest := Tab.set [] i.nest 5 [], full := setDel i.full 5, mismatch := setDel i.mismatch 5 }
  s.withHostRequest fun s => s.wr Reg.icuHostThreshold 0

/-- SOFT_RESET of ICUPt (R438): timers stop. -/
def State.icupSoftReset (s : State) (t : Nat) : State :=
  let s := s.setIcu fun i => { i with
    priv := i.priv.filter fun k => decide (k / 32 ≠ t), nest := Tab.set [] i.nest t [],
    full := setDel i.full t, mismatch := setDel i.mismatch t,
    timers := Tab.without (fun k => decide (k / 4 = t)) i.timers }
  s.wr (Reg.icupThreshold (t % 8)) 0

end Sys2Proof.Machine
end

