-- ==== Sys2Proof/Machine/Views.lean ====
section
/-! DEFINITION. What a read of a register shows: the common layout (R30), the read-only registers that show the blocks' state, and
the indirect maps (R35). A register with no such view reads what is stored in it. -/

namespace Sys2Proof.Machine

/-- ID of a page (R30). -/
def idWord (b : Block) (i : Nat) : Word := w32 (at_ 16 (typeCode b) + at_ 8 i + 1)

/-- CAPS of a page (R30); DRL's BLOCK_CAPS is its number of entries. -/
def capsWord (b : Block) : Word :=
  w32 (at_ 31 (b2n (hasMbx b)) + at_ 30 (b2n (hasInd b)) + if b = .drl then 4096 else 0)

/-- Entries of a table that a test holds for. -/
def countTab {α : Type} (p : α → Bool) (t : Tab α) : Nat := (t.filter fun e => p e.2).length

/-- The word of a bitmap over a table: bit j says that the test holds for entry base + j, unlisted entries having none. -/
def tabWord {α : Type} (p : α → Bool) (base : Nat) (t : Tab α) : Word :=
  setWord base ((t.filter fun e => p e.2).map fun e => e.1)

/-- STATUS of the TIME page. -/
def State.timeStatus (s : State) : Word :=
  w32 (at_ 17 (b2n (decide (s.pendCorr ≠ 0))) + at_ 16 (b2n s.time.refusedHeld) + at_ 8 s.uncNs + s.time.quality.toNat)

/-- STATUS of an FP page. -/
def State.fpStatus (s : State) (n : Nat) : Word :=
  let l := s.link n
  w32 (at_ 12 l.lastCause + at_ 10 (b2n (s.fpModeErr n)) + at_ 9 (b2n l.fecActive) + at_ 8 (b2n l.rxRf) + at_ 7 (b2n l.rxLf)
    + at_ 6 (b2n l.hiBer) + at_ 5 (b2n l.blockLock) + at_ 4 (b2n l.signal) + l.st)

/-- RING CFG holds a combination that R273 does not list: PRP_EN = 1 with an HSR mode (RING_MODE 3 acts as 0). -/
def State.ringModeErr (s : State) : Bool := s.flag Reg.ringCfg 9 && !s.prpOn

/-- STATUS of the RING page: the home ring (R267). DEDUCED: log entry 52. -/
def State.ringStatus (s : State) : Word :=
  let r := s.ring.home
  let ok := (upFrom 0 4).foldl (fun a n => a + if s.portUp n && !(s.ring.broken.contains n) then 2 ^ n else 0) 0
  w32 (at_ 26 r.st + at_ 16 s.stationCount + at_ 4 ok + at_ 3 (b2n s.ringModeErr) + at_ 2 (b2n r.withdrawn)
    + at_ 1 (b2n r.idPending) + b2n r.active)

/-- MIR_ERR bit i: an enabled session whose destination R295 does not allow. -/
def State.mirErr (s : State) : Nat :=
  (upFrom 0 4).foldl (fun a i => a + if s.flag (Reg.swcMirCfg i) 31 && !s.mirDestOk i then 2 ^ i else 0) 0

/-- STATUS of the BUF page. -/
def State.bufStatus (s : State) : Word :=
  w32 (at_ 19 (b2n s.net.bufCfgErr) + at_ 18 (b2n s.net.storeFull) + at_ 17 (b2n s.net.spilling) + s.freeCells)

/-- STATUS of the LEASE page. -/
def State.leaseStatus (s : State) : Word :=
  let l := s.lease
  w32 (at_ 13 (b2n l.cfgErr) + at_ 12 (b2n l.prefConflict) + at_ 11 (b2n l.compareFail) + at_ 10 (b2n s.anyDiffers)
    + at_ 9 (b2n s.compareActive) + at_ 8 (b2n (s.partnerFlag 7)) + at_ 7 (b2n (s.partnerFlag 6)) + at_ 6 (b2n l.peerOwn)
    + at_ 5 (b2n s.ownPin) + at_ 4 (b2n s.isFit) + l.st.code)

/-- STATUS of the PLK page. -/
def State.plkStatus (s : State) : Word :=
  let p := s.plk
  w32 (at_ 4 p.lastCause + at_ 3 (b2n p.lane1) + at_ 2 (b2n p.lane0) + p.st.code)

/-- STATUS of a CAN page. DEDUCED: log entry 57. -/
def State.canStatus (s : State) (n : Nat) : Word :=
  let x := s.can n
  w32 (at_ 15 (b2n x.lastFail) + at_ 14 (b2n x.lastCancel) + at_ 13 (b2n (!s.canTimingOk n))
    + at_ 12 (b2n (s.enabled (canPage n) && !s.canPins n && decide (s.canLoop n ≠ 1))) + at_ 11 (b2n x.alone) + x.st)

/-- STATUS of the HOST page. -/
def State.hostStatus (s : State) : Word :=
  let h := s.host
  w32 (at_ 11 (b2n h.busMaster) + at_ 9 (if h.d3 then 3 else 0) + at_ 4 h.width + at_ 1 h.speed + b2n h.up)

/-- STATUS of a TILE page. -/
def State.tileStatus (s : State) (t : Nat) : Word :=
  let x := s.tile t
  w32 (at_ 8 (b2n x.underrun) + at_ 1 (b2n (!x.bankFail)) + b2n (decide (x.clk = .running)))

/-- STATUS of the XBR page. -/
def State.xbrStatus (s : State) : Word :=
  w32 (at_ 25 (b2n s.xbr.msgUnderrun) + at_ 16 s.xbr.msgs.length + s.heldFrames)

/-- STATUS of a page. -/
def State.statusWord (s : State) (b : Block) (i : Nat) : Option Word :=
  match b with
  | .time => some s.timeStatus
  | .drl => some (w32 (countTab (fun (e : DrillEnt) => decide (e.st = .armed)) s.drill))
  | .rfx => some (w32 (at_ 16 s.expressCount + countTab (fun (r : Rule) => r.armed) s.rules))
  | .sig => some (w32 (at_ 16 (countTab (fun (e : SubEnt) => e.dirty) s.subs)
      + countTab (fun (e : SubEnt) => e.quality.testBit 1) s.subs))
  | .fp => some (s.fpStatus i)
  | .ring => some s.ringStatus
  | .swc => some (w32 s.mirErr)
  | .buf => some s.bufStatus
  | .xbr => some s.xbrStatus
  | .lease => some s.leaseStatus
  | .plk => some s.plkStatus
  | .can => some (s.canStatus i)
  | .host => some s.hostStatus
  | .icup => some (s.icuStatus i)
  | .tile => some (s.tileStatus i)
  | .clk => some s.clkStatus
  | .pwr => some s.pwrStatus
  | .seq => some s.seqStatus
  | .sec => some s.secStatus
  | _ => none

/-- The four lines of channel c as a field: bit k for line k of the channel. -/
def State.lineBits (s : State) (c : Nat) (f : LineCell → Bool) : Nat :=
  (upFrom 0 4).foldl (fun a k => a + if f (s.line (4 * c + k)) then 2 ^ k else 0) 0

/-- LINE_STATE of channel c. -/
def State.lineState (s : State) (c : Nat) : Word :=
  w32 (at_ 20 (s.lineBits c fun x => x.rbFault) + at_ 16 (s.lineBits c fun x => x.safe) + at_ 12 (s.lineBits c fun x => x.blocked)
    + at_ 8 (s.lineBits c fun x => x.raw) + at_ 4 (s.lineBits c LineCell.latchLevel) + s.lineBits c fun x => x.level)

/-- RX_STATUS of a FIFO: a committed packet counts until its header is read, and the packet at the head is OPEN while it is readable and
uncommitted. -/
def State.rxStatus (s : State) (id cap : Nat) : Word :=
  let f := s.fifo id
  let avail := s.fifoAvail id
  let begun := (f.pkts.head?.map fun p => p.begun).getD false
  let open_ := (f.pkts.head?.map fun p => !p.complete && (p.begun || decide (0 < avail))).getD false
  let n := (f.pkts.filter fun p => p.complete && !p.begun).length
  w32 (at_ 31 (b2n (decide (avail = 0))) + at_ 30 (b2n f.underrun) + at_ 29 (b2n begun)
    + at_ 28 (b2n (open_ && decide (id < 128))) + at_ 16 (capAt cap n) + capAt 65535 avail)

/-- TX_STATUS of a FIFO; a CAN controller's has no UNDERRUN and no IN_PACKET. -/
def State.txStatus (s : State) (id : Nat) : Word :=
  let f := s.fifo id
  let free := s.fifoFree id
  let ch := decide (id < 128)
  w32 (at_ 31 (b2n f.pkts.isEmpty) + at_ 30 (b2n (f.underrun && ch)) + at_ 29 (b2n ((f.writing.isSome || decide (0 < f.skip)) && ch))
    + at_ 28 (b2n (decide (free = 0))) + at_ 16 (capAt 4095 (f.pkts.filter fun p => p.complete).length) + capAt 65535 free)

/-- ENG_STATUS. -/
def State.engStatus (s : State) (e : Nat) : Word :=
  let x := s.eng e
  w32 (at_ 16 x.pc + at_ 12 x.cause + at_ 8 (b2n x.timeLate) + at_ 7 (b2n x.segConflict) + at_ 6 (b2n x.copyBusy)
    + at_ 5 (b2n x.partialShift) + at_ 4 (b2n x.commitPend) + at_ 3 (b2n x.bank) + at_ 2 (b2n x.stalled) + x.st)

/-- FN_STATUS: BUS_BUSY, DE, IRIG_SYNC and PPS_GATED of the channel's function. -/
def State.fnStatus (s : State) (c : Nat) : Word :=
  let irig := s.runs c 6 && decide ((Tab.get LocalSrc.init s.sources c).run = 2)
  let gated := s.runs c 8 && !s.ppsGateOpen c
  w32 (at_ 3 (b2n (s.i2cBusBusy c)) + at_ 2 (b2n (s.uartDe c)) + at_ 1 (b2n irig) + b2n gated)

/-- The views of a CH page. -/
def State.chView (s : State) (c off : Nat) : Option Word :=
  let x := s.eng c
  match off with
  | 0x054 => some (s.lineState c)
  | 0x088 => some (s.rxStatus (rxFifo c) 4095)
  | 0x098 => some (s.txStatus (txFifo c))
  | 0x3AC => some (s.fnStatus c)
  | 0x424 => some (s.engStatus c)
  | 0x428 => some (countsWord x.isrN x.osrN)
  | 0x42C => some x.isr
  | 0x430 => some x.osr
  | 0x434 => some (w32 (at_ 16 x.y.toNat + x.x.toNat))
  | 0x438 => some (w32 (at_ 16 x.c1.toNat + x.c0.toNat))
  | 0x43C => some (w32 x.flags.toNat)
  | 0x448 => some x.mark.sec
  | 0x44C => some (w32 x.mark.ns)
  | 0x45C => some (countsWord x.partialIsr x.partialOsr)
  | 0x460 => some (w32 (at_ 8 x.oe.toNat + x.val.toNat))
  | _ => none

/-- The views of a CAN page. -/
def State.canView (s : State) (n off : Nat) : Option Word :=
  match off with
  | 0x06C => some (w32 (at_ 8 (capAt 255 (s.can n).rec_) + capAt 255 (s.can n).tec))
  | 0x074 => some (s.txStatus (canTxFifo n))
  | 0x07C => some (s.rxStatus (canRxFifo n) 127)
  | _ => none

/-- Whether a word offset lies in `n` words from `lo`. -/
def inWords (off lo n : Nat) : Bool := decide (lo ≤ off) && decide (off < lo + 4 * n)

/-- The views of the blocks' other registers. -/
def State.blockView (s : State) (b : Block) (i off : Nat) : Option Word :=
  match b with
  | .win =>
    if inWords off 0x900 8 then some (setWord (8 * (off - 0x900)) s.winOpen)
    else if inWords off 0x920 8 then some (tabWord (fun (e : WinEnt) => e.armed) (8 * (off - 0x920)) s.wins) else none
  | .drl =>
    if inWords off 0x900 128 then some (tabWord (fun (e : DrillEnt) => decide (e.st = .armed)) (8 * (off - 0x900)) s.drill)
    else if inWords off 0xB00 128 then some (tabWord (fun (e : DrillEnt) => decide (e.st = .done)) (8 * (off - 0xB00)) s.drill)
    else none
  | .rfx =>
    if inWords off 0x900 32 then some (tabWord (fun (r : Rule) => r.armed) (8 * (off - 0x900)) s.rules)
    else if inWords off 0x980 32 then some (tabWord (fun (r : Rule) => r.result) (8 * (off - 0x980)) s.rules)
    else if inWords off 0xA00 16 then some (bitmapWord fun j => s.operand (8 * (off - 0xA00) + j)) else none
  | .sig => if inWords off 0x900 256 then some (tabWord (fun (e : SubEnt) => e.dirty) (8 * (off - 0x900)) s.subs) else none
  | .fp =>
    if off = 0x100 then
      some (w32 (at_ 16 (countTab (fun (e : Option DupEnt) => (e.map fun x => x.aged).getD false) s.net.dup.ents)
        + countTab (fun (e : Option DupEnt) => e.isSome) s.net.dup.ents))
    else if off = 0x104 ∨ off = 0x108 then some (s.rd (pageKey 0x28 off)) else none
  | .buf =>
    if inWords off 0x080 8 then some (w32 (s.occ ((off - 0x080) / 4)))
    else if off = 0x0A8 then some (w32 s.storeUsed) else none
  | .xbr =>
    if off = 0x064 then some (w32 (at_ 16 s.xbr.cache.length + s.xbr.inq.length))
    else if off = 0x068 then some (w32 (at_ 16 (s.freeTags 0).length + (s.freeTags 5).length))
    else if off = 0x06C then
      some (w32 ((upFrom 0 4).foldl (fun a n => a + at_ (8 * n) (s.freeTags (n + 1)).length) 0))
    else none
  | .lease =>
    if off = 0x06C then some (w32 (at_ 16 s.partnerNode + s.partnerFaults))
    else if inWords off 0x900 8 then some (w32 (s.cmdVec.toNat >>> (8 * (off - 0x900))))
    else if inWords off 0x920 8 then some (w32 (s.partnerVec >>> (8 * (off - 0x920))))
    else if inWords off 0x940 8 then some (setWord (8 * (off - 0x940)) s.diffLines) else none
  | .evq =>
    if 0x100 ≤ off ∧ off < 0x300 ∧ off % 0x20 = 0x1C then
      let n := (off - 0x100) / 0x20
      some (w32 (at_ 31 (b2n (s.evQueue n).overflow) + s.evFill n))
    else none
  | .icu =>
    if off = 0x068 then some (s.icuStatus 5)
    else if inWords off 0x080 8 then some (s.stackWord 5 ((off - 0x080) / 4))
    else if inWords off 0x100 15 then some (setWord (8 * (off - 0x100)) s.icu.pend)
    else if inWords off 0x900 208 then
      some (setBits (s.rd (pageKey 0x18 off)) 16 5 (s.sharedGroup ((off - 0x900) / 4 + 1)))
    else none
  | .icup =>
    if off = 0x060 then some (setWord (32 * i) s.icu.priv)
    else if inWords off 0x080 8 then some (s.stackWord i ((off - 0x080) / 4))
    else if 0x0C0 ≤ off ∧ off < 0x0E0 ∧ off % 8 = 4 then some (s.tmrVal i ((off - 0x0C0) / 8))
    else none
  | .tile =>
    if off = 0x204 then some (w32 (s.tile i).count)
    else if off = 0x300 ∨ off = 0x304 then some (s.rd (pageKey 0x40 off)) else none
  | .ch => s.chView i off
  | .can => s.canView i off
  | _ => none

/-- What an assigned page's register reads while the page is not frozen; CMD and WO registers and unnamed offsets hold 0 (R9, R11). -/
def State.liveWord (s : State) (page off : Nat) : Word :=
  match pageBlock page with
  | none => 0
  | some (b, i) =>
    if off = 0 then idWord b i
    else if off = 4 then capsWord b
    else
      let v := if off = 0xC then s.statusWord b i else s.blockView b i off
      v.getD (s.rd (pageKey page off))

/-- The words of a page that FREEZE holds: every direct register that software does not write (R38). -/
def frozenOffs (page : Nat) : List Nat :=
  ((upFrom 2 510).map (fun k => 4 * k) ++ (upFrom 576 448).map (fun k => 4 * k)).filter fun off => decide (directMask page off = 0)

/-- What FREEZE holds of a page at an offset; of its indirect map at an address plus 0x1000. -/
def State.frozenWord (s : State) (page off : Nat) : Word := Tab.get 0 (Tab.get [] s.frozen page) off

/-- A register of an assigned page as it reads (R38). DEDUCED: log entry 31. -/
def State.regWord (s : State) (page off : Nat) : Word :=
  if s.isFrozen page && decide (directMask page off = 0) && decide (8 ≤ off) then
    s.frozenWord page off
  else s.liveWord page off

/-! ### Indirect maps (R35, R36) -/

/-- LQ_STATE of line k of channel c. -/
def State.lqState (s : State) (k : Nat) : Word :=
  let x := s.line k
  w32 (at_ 31 (b2n x.blocked) + at_ 30 (b2n x.maxFail) + at_ 29 (b2n x.idleFail) + x.bucket % 1024)

/-- The words of a page's indirect map that hardware alone changes (R38): its read-only registers and counters. The DRL image is a table
and no register. DEDUCED: log entry 31. -/
def frozenInds (page : Nat) : List Nat :=
  match pageBlock page with
  | some (.pwr, _) => (upFrom 0 18).map fun k => 0x040 + 4 * k
  | some (.rst, _) => (upFrom 0 12).map fun k => 4 * k
  | some (.ring, _) => (upFrom 0 8).map fun k => 4 * k
  | some (.fp, _) => [0x004, 0x00C]
  | some (.sig, _) => (upFrom 0 256).map fun k => 4 * k
  | some (.ch, _) => (upFrom 0 4).map fun k => 0x010 + 0x020 * k
  | _ => []

/-- A word of a page's indirect map while the page is not frozen; an address that no map names reads 0 (R36). -/
def State.indLive (s : State) (page addr : Nat) : Word :=
  match pageBlock page with
  | none => 0
  | some (b, i) =>
    match b with
    | .drl => s.drlImage addr
    | .sig => if addr < 0x400 then s.staleWord (addr / 4) else 0
    | .sec => otpWord addr
    | .tile => if 0x10000 ≤ addr ∧ addr < 0x20000 then s.sramGet (16384 * i + (addr - 0x10000) / 4) else s.rd (indKey page addr)
    | .ch => if addr < 0x80 ∧ addr % 0x20 = 0x10 then s.lqState (4 * i + addr / 0x20) else s.rd (indKey page addr)
    | .ring => if addr < 0x20 then setWord (8 * addr) (if s.ring.home.active then setAdd s.ring.stations (s.nodeId % 256)
        else s.ring.stations) else s.rd (indKey page addr)
    | .pwr =>
      if addr = 0x040 then s.pwrStateWord else if addr = 0x044 then s.tempsWord else s.rd (indKey page addr)
    | _ => s.rd (indKey page addr)

/-- The page's read-only words as they stand, those of its indirect map by 0x1000 + address. DEDUCED: log entry 31. -/
def State.snapshot (s : State) (page : Nat) : Tab Word :=
  (frozenInds page).foldl (fun t a => Tab.set 0 t (0x1000 + a) (s.indLive page a))
    ((frozenOffs page).foldl (fun t off => Tab.set 0 t off (s.liveWord page off)) [])

/-- A word of a page's indirect map as it reads (R36, R38). -/
def State.indWord (s : State) (page addr : Nat) : Word :=
  if s.isFrozen page && (frozenInds page).contains addr then s.frozenWord page (0x1000 + addr) else s.indLive page addr

/-- A word of an indirect map cleared by software in what a frozen page shows. -/
def State.clearShown (s : State) (page addr : Nat) : State :=
  { s with frozen := Tab.set [] s.frozen page (Tab.set 0 (Tab.get [] s.frozen page) (0x1000 + addr) 0) }

/-- A word read through IND_DATA with the effect of the read: PRBS_ERR clears (R10). -/
def State.indTake (s : State) (page addr : Nat) : Word × State :=
  match pageBlock page with
  | some (.fp, i) => (s.indWord page addr, if addr = 0x00C then (s.prbsRead i).2.clearShown page addr else s)
  | _ => (s.indWord page addr, s)

end Sys2Proof.Machine
end

