-- ==== Sys2Proof/Machine/Bus.lean ====
section
/-! DEFINITION. The node-local map: what an access does, who may make it (R24–R29, R447, R448), writes of the registers (R30–R39), and
the commands of the common page layout. -/

namespace Sys2Proof.Machine

/-- The state a command leaves. -/
def after (o : Host.Outcome State Fault Refusal) (s : State) : State :=
  match o with
  | .next t => t
  | _ => s

/-! ### Counters (R21) -/

/-- The counters of a block that CNT_CLR.CLR clears, as runs of words. -/
def cntRuns : Block → List (Nat × Nat)
  | .time => [(0x078, 2)]
  | .ptp => [(0x0B0, 5)]
  | .drl => [(0x050, 5)]
  | .win => [(0x054, 3)]
  | .rfx => [(0x060, 4)]
  | .sig => [(0x054, 8)]
  | .icu => [(0x0A0, 4)]
  | .icup => [(0x064, 3)]
  | .swc => [(0x140, 3)]
  | .buf => [(0x0AC, 1), (0x100, 34)]
  | .xbr => [(0x100, 18)]
  | .host => [(0x100, 6)]
  | .evq => [(0x068, 2), (0x300, 16)]
  | .fp => [(0x060, 18)]
  | .plk => [(0x060, 6)]
  | .lease => [(0x070, 7)]
  | .ring => [(0x080, 11)]
  | .tile => [(0x058, 2), (0x208, 2)]
  | .ch => [(0x0A0, 10), (0x0D0, 6)]
  | .can => [(0x090, 13)]
  | .stw => [(0x084, 2)]
  | .fwl => [(0x050, 1)]
  | .seq => [(0x078, 2)]
  | .adc => (upFrom 0 16).map fun c => (0x10C + 0x10 * c, 1)
  | .clk => [(0x060, 6)]
  | .ddr => [(0x054, 2)]
  | .chip | .rst | .pwr | .boot | .sec | .ospi | .dma => []

/-- Where CNT_CLR of a block lies. -/
def cntClrOff : Block → Option Nat
  | .time => some 0x080
  | .ptp => some 0x0C4
  | .drl => some 0x064
  | .win => some 0x060
  | .rfx => some 0x070
  | .sig => some 0x074
  | .icu => some 0x0B0
  | .icup => some 0x070
  | .swc => some 0x14C
  | .buf => some 0x188
  | .xbr => some 0x148
  | .host => some 0x118
  | .evq => some 0x340
  | .fp => some 0x0A8
  | .plk => some 0x078
  | .lease => some 0x08C
  | .ring => some 0x0AC
  | .tile => some 0x060
  | .ch => some 0x0E8
  | .can => some 0x0C4
  | .stw => some 0x08C
  | .fwl => some 0x05C
  | .seq => some 0x080
  | .adc => some 0x200
  | .clk => some 0x078
  | .ddr => some 0x064
  | .chip | .rst | .pwr | .boot | .sec | .ospi | .dma => none

/-- Counters of a page returned to 0, in what a frozen page shows too. DEDUCED: log entry 31. -/
def State.clearRun (s : State) (page off n : Nat) : State :=
  let s := s.zeroRegs (pageKey page off) n
  let kept := Tab.without (fun k => inWords k off n) (Tab.get [] s.frozen page)
  { s with frozen := Tab.set [] s.frozen page kept }

/-- CNT_CLR.CLR of a page. -/
def State.clearCounters (s : State) (page : Nat) : State :=
  match pageBlock page with
  | some (b, _) => (cntRuns b).foldl (fun s r => s.clearRun page r.1 r.2) s
  | none => s

/-! ### SOFT_RESET (R31) -/

/-- SOFT_RESET of the XBR page: the tags keep no request, and frames that wait are dropped. DEDUCED: log entry 32. -/
def State.xbrSoftReset (s : State) : State :=
  let s := (s.setXbr fun _ => XbrSt.init).setNet fun n => { n with toXbr := [] }
  { s with ind := (s.ind.map fun e => (e.1, e.2.filter fun x => x.who.isAgent)).filter fun e => !e.2.isEmpty }

/-- SOFT_RESET of CH page c: the engine, the FIFOs, the function and the counter. -/
def State.chSoftReset (s : State) (c : Nat) : State :=
  let s := (((s.engReset c).fifoClear (rxFifo c)).fifoClear (txFifo c)).serStop c
  let s := (s.setCtr c fun _ => CtrSt.init).zeroRegs (Reg.chCtrCount c) 1
  ((s.zeroRegs (Reg.chCtrCap c 0) 6).clearRun (0x80 + c) 0x470 5).clearRun (0x80 + c) 0x380 10

/-- SOFT_RESET of CAN page n: nothing is pending, the FIFOs are empty, and the controller begins anew in INIT. -/
def State.canSoftReset (s : State) (n : Nat) : State :=
  let s := ((s.wr (Reg.canTxpend n) 0).wr (Reg.canTxdone n) 0).wr (Reg.canTxfail n) 0
  let s := ((s.wr (Reg.canLastErr n) 0).wr (Reg.canTdcStatus n) 0).setCan n fun _ => CanSt.init
  ((s.fifoClear (canRxFifo n)).fifoClear (canTxFifo n)).canStart n

/-- SOFT_RESET of an FP page: the link restarts from DISABLED, and PRBS_ERR and the duplicate table's counters, which every FP page
shows, return to 0 with the page's own (R31). DEDUCED: log entry 32. -/
def State.fpSoftReset (s : State) (n : Nat) : State :=
  let s := ((s.fpEnable n false).wr (indKey (0x28 + n) 0x00C) 0).clearRun 0x28 0x104 2
  if s.enabled (0x28 + n) then s.fpEnable n true else s

/-- SOFT_RESET of the PLK page: the link restarts from DISABLED. DEDUCED: log entry 32. -/
def State.plkSoftReset (s : State) : State :=
  let s := (s.plkEnable false).wr Reg.plkLatency 0
  let s := s.setPlk fun p => { PlkSt.init with lastCause := p.lastCause, since := p.since, txSeq := p.txSeq, tx := p.tx }
  if s.enabled 0x2C then s.plkEnable true else s

/-- SOFT_RESET of the LEASE page: the lease is given up and begun anew; latched faults stay. DEDUCED: log entry 32. -/
def State.leaseSoftReset (s : State) : State :=
  let s := s.leaseEnable false
  let s := s.setLease fun l => { LeaseSt.init with peerOwn := l.peerOwn, peerAt := l.peerAt }
  if s.enabled 0x2D then s.leaseEnable true else s

/-- SOFT_RESET of the RING page: what has been heard and sent is forgotten; the node's IDs stay. -/
def State.ringSoftReset (s : State) : State :=
  let side (r : RingSide) : RingSide := { r with st := 0, sent := false, backWest := false, backEast := false, good := 0, missed := 0 }
  let s := s.setRing fun r => { r with
    home := side r.home, far := side r.far, silent := [], broken := [], stations := [], conflicts := [] }
  s.zeroRegs (Reg.ringNeighbour 0) 4

/-- SOFT_RESET of the BUF page: every queued frame is dropped. DEDUCED: log entry 32. -/
def State.bufSoftReset (s : State) : State :=
  s.setNet fun n => { n with
    queues := [], sending := [], copies := [], push := [], spilling := false, storeFull := false, bufCfgErr := false }

/-- SOFT_RESET of the DMA page: every channel begins anew at descriptor 0. DEDUCED: log entry 32. -/
def State.dmaSoftReset (s : State) : State :=
  (upFrom 0 8).foldl (fun s c =>
    (((s.wr (Reg.dmaDcHead c) 0).wr (Reg.dmaDcStatus c) 0).wr (Reg.dmaDcBytes c) 0).setDma c fun _ => DmaSt.init) s

/-- The datapath and FIFOs of a block (R31, R99, R109, R156, R196, R438, R543). DEDUCED: log entry 32. -/
def State.blockSoftReset (s : State) (b : Block) (i : Nat) : State :=
  match b with
  | .time =>
    let s := (s.wr Reg.timePendCorr 0).zeroRegs Reg.timeRefusedLo 2
    { s with time := { s.time with refusedHeld := false } }
  | .ptp => (s.setPtp fun _ => PtpSt.init).setNet fun n => { n with toTime := [] }
  | .win => s.winSoftReset
  | .drl => s.drlSoftReset
  | .rfx => s.rfxSoftReset
  | .sig => (s.wr Reg.sigSubMeta 0).setNet fun n => { n with toSig := [] }
  | .icu => s.icuSoftReset
  | .icup => s.icupSoftReset i
  | .swc => s.setNet fun n => { n with copies := [], drr := [] }
  | .buf => s.bufSoftReset
  | .xbr => s.xbrSoftReset
  | .host => s.setHost fun h => { h with reads := [], abandoned := [] }
  | .evq => ({ s with evq := [] } : State).setNet fun n => { n with toEvq := [] }
  | .dma => s.dmaSoftReset
  | .fp => s.fpSoftReset i
  | .plk => s.plkSoftReset
  | .lease => s.leaseSoftReset
  | .ring => s.ringSoftReset
  | .tile => s.tileSoftReset i
  | .ch => s.chSoftReset i
  | .can => s.canSoftReset i
  | .sec => { s with sha := [] }
  | .ddr => s.zeroRegs Reg.ddrEccAddrLo 2
  | .chip | .rst | .clk | .pwr | .seq | .adc | .stw | .fwl | .boot | .ospi => s

/-- SOFT_RESET of a page. DEDUCED: log entry 32. -/
def State.softReset (s : State) (page : Nat) : State :=
  match pageBlock page with
  | none => s
  | some (b, i) =>
    let s := (s.blockSoftReset b i).clearCounters page
    let s := s.withRequest page fun s =>
      let t := s.wr (Reg.irqPend page) 0
      { t with heldIrq := Tab.set 0 t.heldIrq page 0 }
    let s := ((s.zeroRegs (Reg.mbxD page 0) 4).wr (Reg.mbxFlag page) 0).wr (Reg.indAddr page) 0
    { s with mbx := Tab.set none s.mbx page none }

/-! ### CTRL: FREEZE and EN (R30, R38) -/

/-- A write of FREEZE: setting it holds the page's read-only state as it stands; clearing it applies what was held (R38).
DEDUCED: log entry 31. -/
def State.freezeWrite (s : State) (page : Nat) (on : Bool) : State :=
  if on then
    (if s.isFrozen page then s
     else ({ s with frozen := Tab.set [] s.frozen page (s.snapshot page) } : State).setFld (Reg.ctrl page) 2 1 1)
  else if s.isFrozen page then
    s.withRequest page fun s =>
      let t := s.wr (Reg.irqPend page) (s.rd (Reg.irqPend page) ||| s.heldOf page)
      let t : State := { t with heldIrq := Tab.set 0 t.heldIrq page 0, frozen := Tab.set [] t.frozen page [] }
      t.setFld (Reg.ctrl page) 2 1 0
  else s

/-- The effect that a block's chapter gives a change of EN. -/
def State.blockEnable (s : State) (b : Block) (i : Nat) (on : Bool) : State :=
  match b with
  | .fp => s.fpEnable i on
  | .plk => s.plkEnable on
  | .lease => s.leaseEnable on
  | .can => if on then s.canStart i else s
  | .ch => if on then (upFrom 0 16).foldl (fun s n => s.canStart n) s else (s.engDisable i).serStop i
  | .ddr => s.wr (Reg.status 0x0B) 0
  | _ => s

/-- A write of EN. -/
def State.enableWrite (s : State) (page : Nat) (on : Bool) : State :=
  match pageBlock page with
  | some (b, i) =>
    if s.enabled page = on then s else (s.setFld (Reg.ctrl page) 0 1 (b2n on)).blockEnable b i on
  | none => s

/-- A write of CTRL: SOFT_RESET first, then FREEZE, then EN (R31). -/
def State.ctrlWrite (s : State) (page : Nat) (v : Word) : State :=
  let s := if bit v 1 then s.softReset page else s
  (s.freezeWrite page (bit v 2)).enableWrite page (bit v 0)

/-! ### Mailboxes (R32–R34, R539) -/

/-- The commands of a page's mailbox are the ops 1 to this (R75, R99, R110, R204, R222, R462, R466). -/
def mbxOps (page : Nat) : Nat :=
  if page = 0x09 then 7 else if page = 0x0A then 5 else if page = 0x10 then 6 else if page = 0x12 then 8
  else if page = 0x13 then 7 else if page = 0x14 then 9 else if page = 0x15 then 8 else 0

/-- A command of the TIME mailbox. -/
def State.timeOp (s : State) (a : Agent) (arg : BitVec 16) (op : Nat) : State :=
  match op with
  | 1 => after (execReadTime a s) s
  | 2 => after (execAdjPhase a s) s
  | 3 => after (execAdjRate a s) s
  | 4 => after (execStepForce s) s
  | 5 => after (execSetTime s) s
  | _ => after (execSetState a arg s) s

/-- A command of the WIN mailbox. -/
def State.winOp (s : State) (arg : BitVec 16) (op : Nat) : State :=
  match op with
  | 1 => after (execLoadTimes arg s) s
  | 2 => after (execLoadCtrl arg s) s
  | 3 => after (execWinArm arg s) s
  | 4 => after (execWinDisarm arg s) s
  | 5 => after (execReadTimes arg s) s
  | 6 => after (execReadCtrl arg s) s
  | _ => after (execTrigger arg s) s

/-- A command of the DRL mailbox whose entry reads without error. -/
def State.drlOp (s : State) (arg : BitVec 16) (op : Nat) : State :=
  match op with
  | 1 => after (execDrlLoadTime arg s) s
  | 2 => after (execDrlLoadAction arg s) s
  | 3 => after (execDrlArm arg .clean s) s
  | 4 => after (execDrlDisarm arg s) s
  | 5 => after (execDrlReadTime arg .clean s) s
  | 6 => after (execDrlReadAction arg .clean s) s
  | 7 => after (execDrlReadState arg .clean s) s
  | _ => after (execDrlClear arg s) s

/-- A command of the RFX mailbox whose rule reads without error. -/
def State.rfxOp (s : State) (arg : BitVec 16) (op : Nat) : State :=
  match op with
  | 1 => after (execLoadTermsA arg s) s
  | 2 => after (execLoadTermsB arg s) s
  | 3 => after (execLoadAct arg s) s
  | 4 => after (execRfxArm arg .clean s) s
  | 5 => after (execRfxDisarm arg s) s
  | 6 => after (execReadTermsA arg .clean s) s
  | 7 => after (execReadTermsB arg .clean s) s
  | 8 => after (execReadAct arg .clean s) s
  | _ => after (execRfxClear arg s) s

/-- A command of the SIG mailbox. -/
def State.sigOp (s : State) (arg : BitVec 16) (op : Nat) : State :=
  match op with
  | 1 => after (execLoadPub arg s) s
  | 2 => after (execSetValue arg s) s
  | 3 => after (execReadPub arg s) s
  | 4 => after (execLoadSub arg s) s
  | 5 => after (execReadSub arg s) s
  | 6 => after (execReadSubcfg arg s) s
  | 7 => after (execClearSub arg s) s
  | _ => after (execReadPubcfg arg s) s

/-- A command of the SEC mailbox whose OTP write succeeds. -/
def State.secOp (s : State) (arg : BitVec 16) (op : Nat) : State :=
  match op with
  | 1 => after (execRevoke arg false s) s
  | 2 => after (execAdvance arg false s) s
  | 3 => after (execBlowFuse arg false s) s
  | 4 => after (execShaInit s) s
  | 5 => after (execShaUpdate arg s) s
  | 6 => after (execShaFinal s) s
  | _ => after (execVerify s) s

/-- A command of the OSPI mailbox that the device carries out. -/
def State.ospiOp (s : State) (op : Nat) : State :=
  match op with
  | 1 => after (execOspiRead false s) s
  | 2 => after (execProgram false s) s
  | 3 => after (execErase4k false s) s
  | 4 => after (execErase64k false s) s
  | _ => after (execReadSfdp false s) s

/-- A write of MBX_CMD (R32, R34, R539): OP 0 completes with VALID, an OP that the block does not define with ERROR 0xFF.
DEDUCED: log entry 35. -/
def State.mbxWrite (s : State) (a : Agent) (page : Nat) (v : Word) : State :=
  let op := bits v 0 8
  let arg := BitVec.ofNat 16 (bits v 16 16)
  if op = 0 then s.mbxCommand page fun s => (.done, s)
  else if mbxOps page < op then s.mbxCommand page fun s => (.err 0xFF, s)
  else if page = 0x10 then s.timeOp a arg op
  else if page = 0x13 then s.winOp arg op
  else if page = 0x12 then s.drlOp arg op
  else if page = 0x14 then s.rfxOp arg op
  else if page = 0x15 then s.sigOp arg op
  else if page = 0x09 then s.secOp arg op
  else s.ospiOp op

/-- A write of MBX_Dn: ignored while BUSY = 1, which sets COLLIDE (R34). -/
def State.mbxDataWrite (s : State) (page n : Nat) (v : Word) : State :=
  if s.mbxBusy page then s.setFld (Reg.mbxFlag page) 3 1 1 else s.wr (Reg.mbxD page (n % 4)) v

/-! ### Indirect access (R35, R36) -/

/-- A write of IND_ADDR. -/
def State.indAddrWrite (s : State) (page : Nat) (v : Word) : State := s.wr (Reg.indAddr page) (v &&& 0x80FFFFFC#32)

/-- ADDR of a page. -/
def State.indAt (s : State) (page : Nat) : Nat := 4 * s.fld (Reg.indAddr page) 2 22

/-- ADDR advances by 4 after an access with AUTOINC = 1. -/
def State.indAdvance (s : State) (page : Nat) : State :=
  if s.flag (Reg.indAddr page) 31 then s.setFld (Reg.indAddr page) 2 22 (s.fld (Reg.indAddr page) 2 22 + 1) else s

/-- The word of an indirect map stored as its access codes say (R9, R11). -/
def State.indPlain (s : State) (page addr : Nat) (v : Word) : State :=
  let k := indKey page addr
  let m := w32 (indMask page addr)
  s.wr k ((v &&& m) ||| (s.rd k &&& ~~~ m))

/-- A write of a word of a CH page's map: PROTECTED is written by the steward alone (R133). -/
def State.chIndWrite (s : State) (a : Agent) (c addr : Nat) (v : Word) : State :=
  let v := if addr % 0x20 = 0x0C ∧ a ≠ .steward then setBits v 5 1 (s.fld (indKey (0x80 + c) addr) 5 1) else v
  (s.indPlain (0x80 + c) addr v).commandsChanged

/-- A write of a word of a CAN page's map: the timing only while EN = 0, a filter only while EN = 0 or the filter is disabled, a mailbox
only while it is not pending (R366). -/
def State.canIndWrite (s : State) (n addr : Nat) (v : Word) : State :=
  let page := canPage n
  if 0x1000 ≤ addr ∧ addr < 0x2000 then
    (if (addr - 0x1000) % 0x80 < 0x48 then s.canMbWrite n ((addr - 0x1000) / 0x80) ((addr - 0x1000) % 0x80 / 4) v else s)
  else if addr < 0x0C then (if s.enabled page then s else s.indPlain page addr v)
  else if 0x100 ≤ addr ∧ addr < 0x500 then
    (if s.enabled page && s.flag (indKey page (addr / 16 * 16)) 31 then s else s.indPlain page addr v)
  else s

/-- A write of a word of an FP page's map: TXEQ is read-only while training sets it, and PRBS31 sent in place of traffic takes the port
out of UP with cause 0. -/
def State.fpIndWrite (s : State) (n addr : Nat) (v : Word) : State :=
  if addr = 0 then
    (if s.fpMode n = 0 ∧ s.flag (Reg.fpCfg n) 4 then s else s.indPlain (0x28 + n) addr v)
  else
    let s := s.indPlain (0x28 + n) addr v
    if addr = 0x008 ∧ bit v 0 ∧ (s.link n).st = 4 then s.linkLeaveUp n 0 5 else s

/-- Counters of a page's indirect map returned to 0, in what a frozen page shows too. -/
def State.clearInds (s : State) (page addr n : Nat) : State :=
  (upFrom 0 n).foldl (fun s j => s.clearShown page (addr + 4 * j)) (s.zeroRegs (indKey page addr) n)

/-- A write of a word of a page's indirect map by an agent. -/
def State.indPut (s : State) (a : Agent) (page addr : Nat) (v : Word) : State :=
  match pageBlock page with
  | none => s
  | some (b, i) =>
    match b with
    | .ch => s.chIndWrite a i addr v
    | .can => s.canIndWrite i addr v
    | .fp => s.fpIndWrite i addr v
    | .tile =>
      if 0x10000 ≤ addr ∧ addr < 0x20000 then
        (if addr < 0x1E000 then s.sramSet (16384 * i + (addr - 0x10000) / 4) v else s)
      else s.indPlain page addr v
    | .pwr =>
      if addr = 0x030 then s.powCmd v
      else if addr = 0x088 then (if bit v 0 then s.clearInds page 0x050 14 else s)
      else if addr = 0x010 then ((s.indPlain page addr v).feedCheck false).feedCheck true
      else s.indPlain page addr v
    | .rst => if addr = 0x030 ∧ bit v 0 then s.clearInds page 0x010 8 else s
    | _ => s.indPlain page addr v

/-- A read of IND_DATA carried out: the word, and ADDR advanced. -/
def State.indRead (s : State) (page : Nat) : Word × State :=
  let r := s.indTake page (s.indAt page)
  (r.1, r.2.indAdvance page)

/-- A write of IND_DATA carried out. -/
def State.indWrite (s : State) (a : Agent) (page : Nat) (v : Word) : State :=
  (s.indPut a page (s.indAt page) v).indAdvance page

/-! ### Writes of direct registers -/

/-- The register stored as its access codes say (R9, R11). -/
def State.regPlain (s : State) (page off : Nat) (v : Word) : State :=
  let k := pageKey page off
  let m := w32 (directMask page off)
  s.wr k ((v &&& m) ||| (s.rd k &&& ~~~ m))

/-- A field kept at its value in a word to be written. -/
def State.keep (s : State) (k lo width : Nat) (v : Word) : Word := setBits v lo width (s.fld k lo width)

/-- A number kept between bounds. -/
def clampTo (lo hi n : Nat) : Nat := if n < lo then lo else capAt hi n

/-- A write of a TILE page's register. DEDUCED: log entry 36. -/
def State.tileWrite (s : State) (t off : Nat) (v : Word) : State :=
  match off with
  | 0x050 => s.bankCfgWrite t v
  | 0x054 => let s := s.regPlain (0x40 + t) off v; if bit v 0 then s.tileWake t else s
  | 0x060 =>
    let s := if bit v 0 then s.clearCounters (0x40 + t) else s
    if bit v 1 then s.setTile t fun y => { y with underrun := false } else s
  | 0x200 => s.stampCfgWrite t v
  | 0x300 => s.wr (Reg.tileGrpMaskLo 0) v
  | 0x304 => s.wr (Reg.tileGrpMaskHi 0) v
  | 0x308 => if bit v 0 then s.grpStart else s
  | _ => s.regPlain (0x40 + t) off v

/-- A write of RX_CMD or TX_CMD of a FIFO: DROP_REST, then FLUSH (R153), then UNDER_CLR. DEDUCED: log entry 33. -/
def State.fifoCmd (s : State) (id : Nat) (v : Word) : State :=
  let s := if bit v 0 then s.fifoDropRest id else s
  let s := if bit v 1 then s.fifoFlush id else s
  if bit v 2 then s.setFifo id fun f => { f with underrun := false } else s

/-- A write of SAFE_CMD: RELEASE, then ENTER (R139). -/
def State.safeCmd (s : State) (c : Nat) (v : Word) : State :=
  let s := (upFrom 0 4).foldl (fun s j => if bit v (8 + j) then s.safeRelease (4 * c + j) else s) s
  (upFrom 0 4).foldl (fun s j => if bit v j then s.safeEnter (4 * c + j) else s) s

/-- A write of CTR_CMD: CAPTURE, then ZERO (R142). -/
def State.ctrCmd (s : State) (c : Nat) (v : Word) : State :=
  let s := if bit v 1 && s.runs c 1 then s.ctrCapture c else s
  if bit v 0 then s.wr (Reg.chCtrCount c) 0 else s

/-- A write of a CH page's engine register (R155–R184). DEDUCED: log entries 34 and 46. -/
def State.engWrite (s : State) (c off : Nat) (v : Word) : State :=
  match off with
  | 0x400 => s.engCfgWrite c v
  | 0x404 => s.engSegWrite c v
  | 0x414 => if (s.eng c).st = 1 then s else s.regPlain (0x80 + c) off v
  | 0x418 => if (s.eng c).st = 1 then s else s.regPlain (0x80 + c) off v
  | 0x420 => s.engCommand c v
  | 0x430 => s.engOsrWrite c v
  | 0x434 => s.engXyWrite c v
  | 0x438 => s.engCntWrite c v
  | 0x440 => s.engFlagSet c v
  | 0x444 => s.engFlagClr c v
  | 0x44C => s.engMarkWrite c v
  | 0x458 => s.engProgWrite c v
  | 0x484 => if bit v 0 then s.clearRun (0x80 + c) 0x470 5 else s
  | _ => s.regPlain (0x80 + c) off v

/-- A write of a CH page's serial-function register, whose configuration is written only while EN = 0. -/
def State.serialWrite (s : State) (c off : Nat) (v : Word) : State :=
  if off = 0x348 then (if bit v 0 then s.i2cBusClear c else s)
  else if off = 0x3A8 then (if bit v 0 then s.clearRun (0x80 + c) 0x380 10 else s)
  else if s.enabled (0x80 + c) then s
  else s.regPlain (0x80 + c) off v

/-- A write of a CH page's register. DEDUCED: log entry 34. -/
def State.chWrite (s : State) (c off : Nat) (v : Word) : State :=
  if 0x400 ≤ off ∧ off < 0x490 then s.engWrite c off v
  else if 0x300 ≤ off ∧ off < 0x3B0 then s.serialWrite c off v
  else
    match off with
    | 0x050 => (upFrom 0 16).foldl (fun s n => s.canStart n) (s.funcWrite c v)
    | 0x058 => s.outWrite c v.toNat true
    | 0x05C => s.outWrite c v.toNat false
    | 0x060 => s.safeCmd c v
    | 0x070 => s.chTxWrite c v
    | 0x080 => s.regPlain (0x80 + c) off (if s.enabled (0x80 + c) then s.keep (Reg.chRxCfg c) 16 16 v else v)
    | 0x090 => s.regPlain (0x80 + c) off (if s.enabled (0x80 + c) then s.keep (Reg.chTxCfg c) 16 16 v else v)
    | 0x08C => s.fifoCmd (rxFifo c) v
    | 0x09C => s.fifoCmd (txFifo c) v
    | 0x108 => s.ctrCmd c v
    | _ => s.regPlain (0x80 + c) off v

/-- A write of a CAN page's register. DEDUCED: log entry 34. -/
def State.canWrite (s : State) (n off : Nat) (v : Word) : State :=
  match off with
  | 0x050 => if s.enabled (canPage n) then s else s.regPlain (canPage n) off v
  | 0x054 => s.canTxreq n v
  | 0x058 => s.canTxcancel n v
  | 0x068 => s.canTxresClr n v
  | 0x070 => s.canTxWrite n v
  | 0x078 => if bit v 1 then s.canTxFlush n else s
  | 0x080 => s.fifoCmd (canRxFifo n) v
  | 0x084 => if bit v 0 then s.canRecover n else s
  | _ => s.regPlain (canPage n) off v

/-- A write of an EVQ register. -/
def State.evqWrite (s : State) (off : Nat) (v : Word) : State :=
  if off = 0x060 then s.postCmd v
  else if 0x100 ≤ off ∧ off < 0x300 ∧ off % 0x20 = 0 then s.qCfgWrite ((off - 0x100) / 0x20) v
  else if 0x100 ≤ off ∧ off < 0x300 ∧ off % 0x20 = 0x18 then s.qCiWrite ((off - 0x100) / 0x20) v
  else s.regPlain 0x24 off v

/-- A write of a DMA register; DC_CFG.SPACE is written only while RUN = 0. DEDUCED: log entry 34. -/
def State.dmaRegWrite (s : State) (off : Nat) (v : Word) : State :=
  let c := (off - 0x100) / 0x20
  if 0x100 ≤ off ∧ off < 0x200 ∧ off % 0x20 = 0 then s.dcCtrlWrite c v
  else if 0x100 ≤ off ∧ off < 0x200 ∧ off % 0x20 = 0x0C then
    s.regPlain 0x25 off (if s.flag (Reg.dmaDcCtrl c) 0 then s.keep (Reg.dmaDcCfg c) 31 1 v else v)
  else s.regPlain 0x25 off v

/-- A write of a HOST register: CFG_READY ends the retry status, and PCI_ID is written only before it (R394).
DEDUCED: log entry 34. -/
def State.hostWrite (s : State) (off : Nat) (v : Word) : State :=
  match off with
  | 0x050 =>
    let s := s.regPlain 0x23 off v
    if bit v 0 then s.setHost fun h => { h with retrying := false } else s
  | 0x054 => if s.flag Reg.hostCfg 0 then s else s.regPlain 0x23 off v
  | _ => s.regPlain 0x23 off v

/-- A write of an XBR register: the times are kept in their ranges (R325, R326). -/
def State.xbrWrite (s : State) (off : Nat) (v : Word) : State :=
  match off with
  | 0x050 => s.wr Reg.xbrNpTimeout (w32 (clampTo 1 1000000 (bits v 0 20)))
  | 0x058 => s.wr Reg.xbrCcHold (w32 (clampTo 100 0xFFFFF (bits v 0 20)))
  | 0x05C => s.wr Reg.xbrGapWait (w32 (clampTo 10 0xFFFFF (bits v 0 20)))
  | 0x060 => s.wr Reg.xbrStreamAge (w32 (clampTo 10 10000 (bits v 0 16)))
  | 0x148 =>
    let s := if bit v 0 then s.clearCounters 0x22 else s
    if bit v 1 then s.setXbr fun b => { b with msgUnderrun := false } else s
  | _ => s.regPlain 0x22 off v

/-- A write of a TIME register: STEP_LIMIT is kept between 100 and 1,000,000,000 ns, and HOLD_LIMIT applies at once. -/
def State.timeWrite (s : State) (off : Nat) (v : Word) : State :=
  if off = 0x054 then s.wr Reg.timeStepLimit (w32 (clampTo 100 1000000000 (bits v 0 30)))
  else (s.regPlain 0x10 off v).checkHoldLimit

/-- A write of a LEASE register. -/
def State.leaseWrite (s : State) (off : Nat) (v : Word) : State :=
  match off with
  | 0x050 => if s.enabled 0x2D then s else s.regPlain 0x2D off v
  | 0x054 => after (execTimingWrite v s) s
  | 0x064 => after (execFaultClr v s) s
  | 0x068 => after (execFaultSet v s) s
  | _ => (s.regPlain 0x2D off v).commandsChanged

/-- A write of a RING register: RING_MODE and PRP_EN only while EN = 0 in all four FP pages (R273). DEDUCED: log entry 34. -/
def State.ringWrite (s : State) (off : Nat) (v : Word) : State :=
  match off with
  | 0x050 => s.idWrite false v
  | 0x060 => s.idWrite true v
  | 0x05C =>
    let busy := (upFrom 0 4).any fun n => s.enabled (0x28 + n)
    s.regPlain 0x2E off (if busy then s.keep Reg.ringCfg 0 2 (s.keep Reg.ringCfg 9 1 v) else v)
  | _ => s.regPlain 0x2E off v

/-- A write of an FP register: MODE only while EN = 0 (R223); CNT_DUP_CLR serves the whole node.
DEDUCED: log entries 34 and 36. -/
def State.fpWrite (s : State) (n off : Nat) (v : Word) : State :=
  match off with
  | 0x050 => s.regPlain (0x28 + n) off (if s.enabled (0x28 + n) then s.keep (Reg.fpCfg n) 0 2 v else v)
  | 0x10C => if bit v 0 then s.clearRun 0x28 0x104 2 else s
  | _ => s.regPlain (0x28 + n) off v

/-- A write of a PTP register: those of the grandmaster are the steward's. -/
def State.ptpWrite (s : State) (a : Agent) (off : Nat) (v : Word) : State :=
  if 0x090 ≤ off ∧ off < 0x0A0 then
    (if a ≠ .steward then s
     else
      let m : Word := if off = 0x098 then 0xFFFFFF else if off = 0x09C then 0x7FFFF else 0xFFFFFFFF
      s.wrShown 0x11 off (v &&& m))
  else s.regPlain 0x11 off v

/-- A write of an ICU register by an agent. -/
def State.icuWrite (s : State) (a : Agent) (off : Nat) (v : Word) : State :=
  match off with
  | 0x050 => s.icuSwset a v
  | 0x060 => s.icuThreshold 5 a v
  | 0x064 => s.icuComplete 5 a v
  | _ => if inWords off 0x900 448 then s.srcCfgWrite ((off - 0x900) / 4 + 1) a v else s.regPlain 0x18 off v

/-- A write of a register of ICUPt by an agent. -/
def State.icupWrite (s : State) (t : Nat) (a : Agent) (off : Nat) (v : Word) : State :=
  match off with
  | 0x050 => s.icuThreshold t a v
  | 0x054 => s.icuComplete t a v
  | 0x058 => s.privSwset t a v
  | 0x05C => s.ipi t a v
  | _ =>
    if 0x0C0 ≤ off ∧ off < 0x0E0 ∧ off % 8 = 0 then s.tmrWrite t ((off - 0x0C0) / 8) a v
    else if inWords off 0x100 32 then s.privCfgWrite t ((off - 0x100) / 4) a v
    else s.regPlain (0x19 + t) off v

/-- A write of a BUF register (R284, R296). -/
def State.bufWrite (s : State) (off : Nat) (v : Word) : State :=
  match off with
  | 0x050 => after (execBufMarksWrite false v s) s
  | 0x054 => after (execBufMarksWrite true v s) s
  | 0x0A0 => after (execStoreCfgWrite false v s) s
  | 0x0A4 => after (execStoreCfgWrite true v s) s
  | _ => s.regPlain 0x21 off v

/-- A write of an STW register: RESET, then RUN. DEDUCED: log entry 33. -/
def State.stwWrite (s : State) (off : Nat) (v : Word) : State :=
  if off = 0x050 then
    let s := if bits v 8 4 = 0 then s else s.coreReset v
    if bits v 0 4 = 0 then s else s.coreRun v
  else if inWords off 0x060 5 then s.wdtCfgWrite ((off - 0x060) / 4) v
  else s.regPlain 0x06 off v

/-- A write of a BOOT register. DEDUCED: log entry 33. -/
def State.bootWrite (s : State) (off : Nat) (v : Word) : State :=
  match off with
  | 0x050 =>
    let s := if bit v 1 then after (execBootCommitField s) s else s
    if bit v 0 then after (execBootCommitKeeper s) s else s
  | 0x054 => if bit v 0 then after (execBootMigrateCommit s) s else s
  | _ => s.regPlain 0x08 off v

/-- A write of a register of a block by an agent, beyond the common layout. -/
def State.regBlockWrite (s : State) (a : Agent) (b : Block) (i page off : Nat) (v : Word) : State :=
  match b with
  | .tile => s.tileWrite i off v
  | .ch => s.chWrite i off v
  | .can => s.canWrite i off v
  | .evq => s.evqWrite off v
  | .dma => s.dmaRegWrite off v
  | .host => s.hostWrite off v
  | .xbr => s.xbrWrite off v
  | .lease => s.leaseWrite off v
  | .ring => s.ringWrite off v
  | .fp => s.fpWrite i off v
  | .plk => if off = 0x050 ∧ s.enabled 0x2C then s else s.regPlain page off v
  | .ptp => s.ptpWrite a off v
  | .icu => s.icuWrite a off v
  | .icup => s.icupWrite i a off v
  | .buf => s.bufWrite off v
  | .stw => s.stwWrite off v
  | .boot => s.bootWrite off v
  | .ddr => if off = 0x050 ∧ s.enabled 0x0B then s else s.regPlain page off v
  | .ospi => if inWords off 0x060 4 then s.protWrite ((off - 0x060) / 4) a v else s.regPlain page off v
  | .clk => if off = 0x050 then s.stateReq a (bits v 0 2) else s.regPlain page off v
  | .rst => if off = 0x050 then s.rstCmd a v else s
  | .rfx =>
    if off = 0x058 then s.swfWrite (s.rd Reg.rfxSwf ||| v)
    else if off = 0x05C then s.swfWrite (s.rd Reg.rfxSwf &&& ~~~ v) else s.regPlain page off v
  | .time => s.timeWrite off v
  | .seq => ((s.regPlain page off v).railTrack).railsUpCheck
  | .chip | .pwr | .adc | .fwl | .sec | .drl | .win | .sig | .swc => s.regPlain page off v

/-- A write of a word at an offset of an assigned page by an agent: the common layout (R30), CNT_CLR, then the block's registers. -/
def State.pageWrite (s : State) (a : Agent) (page off : Nat) (v : Word) : State :=
  match pageBlock page with
  | none => s
  | some (b, i) =>
    let s := if b = .tile then s.tileWake i else if b = .ch then s.tileWake (i / 8) else s
    if off = 0x008 then s.ctrlWrite page v
    else if off = 0x010 ∨ off = 0x014 then s.withRequest page fun s => s.regPlain page off v
    else if off = 0x018 then s.withHostRequest fun s => s.regPlain page off v
    else if off = 0x020 then (if hasInd b then s.indAddrWrite page v else s)
    else if off = 0x030 then (if hasMbx b then s.mbxWrite a page v else s)
    else if 0x040 ≤ off ∧ off < 0x050 then (if hasMbx b then s.mbxDataWrite page ((off - 0x040) / 4) v else s)
    else if off < 0x050 then s
    else if off = 0x800 then (if hasInd b then s.indWrite a page v else s)
    else if 0x800 ≤ off ∧ off < 0x900 then s
    else if cntClrOff b = some off ∧ b ≠ .xbr ∧ b ≠ .tile then (if bit v 0 then s.clearCounters page else s)
    else s.regBlockWrite a b i page off v

/-- A read of a word at an offset of an assigned page by an agent, with its effect (R10). -/
def State.pageRead (s : State) (a : Agent) (page off : Nat) : Word × State :=
  match pageBlock page with
  | none => (0, s)
  | some (b, i) =>
    let s := if b = .tile then s.tileWake i else if b = .ch then s.tileWake (i / 8) else s
    if off = 0x800 then (if hasInd b then s.indRead page else (0, s))
    else if off = 0x804 then
      match b with
      | .tile => s.stampRead i
      | .ch => s.rxDataRead (rxFifo i)
      | .can => s.rxDataRead (canRxFifo i)
      | .xbr => s.msgRead
      | .icu => s.icuClaim 5 a
      | .icup => s.icuClaim i a
      | _ => (0, s)
    else if 0x800 ≤ off ∧ off < 0x900 then (0, s)
    else (s.regWord page off, s)

/-! ### The node-local map (R24–R29, R447, R448) -/

/-- Who makes an access: the agent, its node and requester code, and whether the remote-access classes bind it (R322). -/
structure Origin where
  agent : Agent
  node : Nat
  code : Nat
  remote : Bool

/-- The requester code of an agent (R303). -/
def agentCode : Agent → Nat
  | .steward => 5
  | .core n => n.toNat + 1
  | .host => 0
  | .fabric _ => 0
  | .dma c => 8 + c.toNat

/-- An agent at this node. -/
def State.localOrigin (s : State) (a : Agent) : Origin := ⟨a, s.nodeId, agentCode a, false⟩

/-- The blocks whose pages the steward owns (R27). -/
def stewardOwned : Block → Bool
  | .pwr | .seq | .adc | .stw | .fwl | .boot | .sec | .lease => true
  | _ => false

/-- Whether a remote-access class lets a source node in (R322, R448). -/
def State.classAllows (s : State) (cls node : Nat) : Bool :=
  decide (cls = 2) || (decide (cls = 1) && decide (node / 256 = s.nodeId / 256))

/-- The remote-access class of a node-local address (R448). -/
def State.accessClass (s : State) (addr : Nat) : Nat :=
  if addr < 0x1000000 then
    let p := addr / 0x1000
    s.fld (Reg.fwlPageClass (p / 16)) (2 * (p % 16)) 2
  else if inAppSram addr then s.fld Reg.fwlRegionClass 0 2
  else s.fld Reg.fwlRegionClass 2 2

/-- A refusal by the firewall: counted, kept, and reported under R22 (R447, R465). DEDUCED: log entry 36. -/
def State.deny (s : State) (o : Origin) (write : Bool) (addr : Nat) : State :=
  let s := s.bump Reg.fwlCntDeny
  let s := (s.wr Reg.fwlLastDeny (w32 (at_ 16 o.node + at_ 8 o.code + b2n write))).wr Reg.fwlLastAddr (w32 (addr % 2 ^ 24))
  (s.raise 0x07 0).gather 0x50000
    { Gather.init with ty := 0x54, page := 0x07, flags := b2n write, w4 := w32 (at_ 16 o.node + at_ 8 o.code),
                       w5 := w32 addr, w6 := w32 (addr / 2 ^ 32), countWord := 7 }

/-- Whether bytes `addr` to `addr + n − 1` are mapped memory: application SRAM, or fitted DDR4 outside the overflow store (R24, R25,
R296). DEDUCED: log entry 10. -/
def State.memMapped (s : State) (addr n : Nat) : Bool :=
  let mib := 0x100000
  let base := s.fld Reg.bufStoreBase 0 12
  let size := s.fld Reg.bufStoreSize 0 13
  let off := addr - 0x100000000
  let inStore := decide (0 < size) && decide (base + size ≤ s.ddrMiB) && decide (base * mib < off + n) && decide (off < (base + size) * mib)
  (inAppSram addr && inAppSram (addr + n - 1))
    || (decide (0x100000000 ≤ addr) && decide (off + n ≤ s.ddrMiB * mib) && !inStore)

/-- The status with which an access is turned away, by the map, the firewall and the classes (R25, R27, R322).
DEDUCED: log entries 10 and 36. -/
def State.turnedAway (s : State) (o : Origin) (addr n : Nat) : Option Nat :=
  if !s.hubUp then some 2
  else if addr < 0x1000000 then
    match pageBlock (addr / 0x1000) with
    | none => some 1
    | some (b, _) =>
      if stewardOwned b && decide (o.agent ≠ .steward) then some 4
      else if o.remote && !s.classAllows (s.accessClass addr) o.node then some 4
      else none
  else if !s.memMapped addr n then some 1
  else if o.remote && !s.classAllows (s.accessClass addr) o.node then some 4
  else none

/-- An access turned away: a firewall's refusal is counted and reported. -/
def State.turnAway (s : State) (o : Origin) (write : Bool) (addr st : Nat) : State :=
  if st = 4 then s.deny o write addr else s

/-- An access to application SRAM or DDR4 with AUTO_WAKE = 1 returns the node from FALLOW to ACTIVE (R499). -/
def State.memoryWakes (s : State) : State :=
  if s.power = .fallow ∧ s.flag Reg.clkFallowCfg 0 then s.setPower .active else s

/-- Consecutive words of a page from an offset. -/
def State.pageWords (s : State) (a : Agent) (page off : Nat) : Nat → List Byte × State
  | 0 => ([], s)
  | n + 1 =>
    let r := s.pageRead a page off
    let rest := r.2.pageWords a page (off + 4) n
    (wordBytes r.1 ++ rest.1, rest.2)

/-- Whether registers accept a read of `n` bytes at an offset of a page (R28, R29). DEDUCED: log entry 10. -/
def readSizeOk (off n : Nat) : Bool :=
  if off < 0x900 ∧ 0x800 < off + n then decide (n = 4) && decide (off % 4 = 0)
  else
    (decide (n = 1 ∨ n = 2) && decide (off + n ≤ 0x1000))
      || ((n == 4 || n == 8 || n == 16 || n == 32 || n == 64 || n == 128 || n == 256) && decide (off % n = 0))

/-- A read of `n` bytes of the node-local map: status, data and the state after (R24–R29). DEDUCED: log entry 10. -/
def State.busRead (s : State) (o : Origin) (addr n : Nat) : Nat × List Byte × State :=
  match s.turnedAway o addr n with
  | some st => (st, [], s.turnAway o false addr st)
  | none =>
    if addr < 0x1000000 then
      let off := addr % 0x1000
      if readSizeOk off n then
        let r := s.pageWords o.agent (addr / 0x1000) (off / 4 * 4) ((off % 4 + n + 3) / 4)
        (0, (r.1.drop (off % 4)).take n, r.2)
      else (2, [], s)
    else if 256 < n ∨ n = 0 then (2, [], s)
    else (0, s.memTake addr n, s.memoryWakes)

/-- A write of bytes to the node-local map: status and the state after (R24–R29). DEDUCED: log entry 10. -/
def State.busWrite (s : State) (o : Origin) (addr : Nat) (data : List Byte) : Nat × State :=
  let n := data.length
  match s.turnedAway o addr n with
  | some st => (st, s.turnAway o true addr st)
  | none =>
    if addr < 0x1000000 then
      (if n = 4 ∧ addr % 4 = 0 then (0, s.pageWrite o.agent (addr / 0x1000) (addr % 0x1000) (w32 (bytesNat data))) else (2, s))
    else if 256 < n ∨ n = 0 then (2, s)
    else (0, s.memoryWakes.memPut addr data)

/-- The answer of an access of a local agent; a failing one of a core is an access fault and records its status (R25, R442).
DEDUCED: log entry 36. -/
def State.localAnswer (s : State) (a : Agent) (addr status : Nat) (data : List Byte) : State :=
  let s : State := { s with reply := ⟨status, data⟩ }
  if status = 0 then s
  else match a with
    | .steward => s.coreFault 0 status (BitVec.ofNat 16 s.nodeId) (BitVec.ofNat 48 addr)
    | .core n => s.coreFault (n.toNat + 1) status (BitVec.ofNat 16 s.nodeId) (BitVec.ofNat 48 addr)
    | _ => s

/-! ### Accesses that wait (R35, R128, R317, R319) -/

/-- The tile whose clock an access to a TILE or CH page waits for (R128). -/
def State.stalledTile (s : State) (addr : Nat) : Option Nat :=
  (tileOfAddr addr).filter fun t => decide ((s.tile t).clk ≠ .running)

/-- The page whose IND_DATA an address is. -/
def indPage (addr : Nat) : Option Nat :=
  if addr < 0x1000000 ∧ addr % 0x1000 = 0x800 ∧ ((pageBlock (addr / 0x1000)).map fun b => hasInd b.1).getD false then
    some (addr / 0x1000)
  else none

/-- Accesses to IND_DATA of a page that wait for its domain, oldest first (R35). -/
def State.indWaiting (s : State) (page : Nat) : List IndAccess := Tab.get [] s.ind page

def State.setWaiting (s : State) (page : Nat) (l : List IndAccess) : State := { s with ind := Tab.set [] s.ind page l }

/-- An access joins those that wait for a page's domain. -/
def State.indQueue (s : State) (page : Nat) (who : AccWho) (data : Option Word) : State :=
  s.setWaiting page (s.indWaiting page ++ [⟨who, data, s.tclks⟩])

/-- An access starts the clock of its tile, and stalls until it is locked (R128). DESIGN CHOICE: log entry 30. -/
def State.stall (s : State) (t : Nat) (x : Stall) : State :=
  let s := s.tileWake t
  { s with stalls := Tab.set [] s.stalls t (Tab.get [] s.stalls t ++ [x]) }

/-- A write reaches its registers: it is not turned away, and is of the size that they accept (R28). -/
def State.writeReaches (s : State) (o : Origin) (addr n : Nat) : Bool :=
  (s.turnedAway o addr n).isNone && (decide (0x1000000 ≤ addr) || (n == 4 && decide (addr % 4 = 0)))

/-- A read reaches its registers (R28, R29). -/
def State.readReaches (s : State) (o : Origin) (addr n : Nat) : Bool :=
  (s.turnedAway o addr n).isNone && (decide (0x1000000 ≤ addr) || readSizeOk (addr % 0x1000) n)

/-- A write of an agent carried out and answered. -/
def State.writeNow (s : State) (a : Agent) (addr : Nat) (data : List Byte) : State :=
  let r := s.busWrite (s.localOrigin a) addr data
  r.2.localAnswer a addr r.1 []

/-- A read of an agent carried out and answered. -/
def State.readNow (s : State) (a : Agent) (addr n : Nat) : State :=
  let r := s.busRead (s.localOrigin a) addr n
  r.2.2.localAnswer a addr r.1 r.2.1

/-- A write made by an agent at this node: it stalls on a tile without its clock, waits behind earlier accesses to the same IND_DATA,
and is carried out at once otherwise (R35, R128). DESIGN CHOICE: log entry 30. -/
def State.agentWrite (s : State) (a : Agent) (addr : Nat) (data : List Byte) : State :=
  if s.writeReaches (s.localOrigin a) addr data.length then
    match s.stalledTile addr, indPage addr with
    | some t, _ => s.stall t ⟨a, addr, some data, 0⟩
    | none, some p =>
      if (s.indWaiting p).isEmpty then s.writeNow a addr data else s.indQueue p (.agent a) (some (w32 (bytesNat data)))
    | none, none => s.writeNow a addr data
  else s.writeNow a addr data

/-- A read made by an agent at this node; one of IND_DATA waits until its word has arrived (R35, R128). DESIGN CHOICE: log entry 30. -/
def State.agentRead (s : State) (a : Agent) (addr n : Nat) : State :=
  if s.readReaches (s.localOrigin a) addr n then
    match s.stalledTile addr, indPage addr with
    | some t, _ => s.stall t ⟨a, addr, none, n⟩
    | none, some p => s.indQueue p (.agent a) none
    | none, none => s.readNow a addr n
  else s.readNow a addr n

/-- A register written by an agent at this node. -/
def State.agentReg (s : State) (a : Agent) (page off : Nat) (v : Word) : State := s.agentWrite a (pageKey page off) (wordBytes v)

/-! ### The commands of the common layout -/

/-- A write of a window's CSR (R441). -/
def State.windowWrite (s : State) (n w : Nat) (base : Bool) (v : Word) : State :=
  s.setCore n fun c =>
    if base then { c with winBase := Tab.set 0 c.winBase w (v &&& 0xFFFFF#32) }
    else { c with winCtl := Tab.set 0 c.winCtl w (v &&& 0xC000FFFF#32) }

/-- REGISTER_WRITE (R9). -/
def execRegisterWrite (t : RegTarget) (s : State) : Host.Outcome State Fault Refusal :=
  .next (match t with
    | .bus a addr data => s.agentWrite a addr.toNat data
    | .window n w base v => s.windowWrite n w base v)

/-- MBX_NOP (R539). -/
def execMbxNop (a : Agent) (page : Fin 256) (s : State) : Host.Outcome State Fault Refusal :=
  .next (s.agentReg a page 0x030 0)

/-- MBX_UNKNOWN_OP (R539): an OP that the block does not define. -/
def execMbxUnknownOp (a : Agent) (page : Fin 256) (op : Byte) (arg : BitVec 16) (s : State) : Host.Outcome State Fault Refusal :=
  .next (if mbxOps page < op.toNat then s.agentReg a page 0x030 (w32 (at_ 16 arg.toNat + op.toNat)) else s)

/-- MBX_WRITE_WHILE_BUSY (R34): to MBX_CMD (4) or to MBX_Dn. -/
def execMbxWriteWhileBusy (a : Agent) (page : Fin 256) (n : Fin 5) (v : Word) (s : State) : Host.Outcome State Fault Refusal :=
  .next (if s.mbxBusy page then s.agentReg a page (if n.toNat = 4 then 0x030 else 0x040 + 4 * n.toNat) v else s)

/-- The flag that a completed command leaves (R33): COLLIDE stays. -/
def mbxDone (flag : Word) (err : Nat) : Word :=
  w32 (at_ 3 (bits flag 3 1) + if err = 0 then 1 else at_ 8 err + 4)

/-- MBX_COMPLETE (R33): the result words are written in one step, BUSY clears, and VALID or ERROR is set. A completed command of the OSPI
mailbox raises its interrupt. DEDUCED: log entry 35. -/
def execMbxComplete (page : Fin 256) (s : State) : Host.Outcome State Fault Refusal :=
  .next (
    let p : Nat := page
    match Tab.get none s.mbx p with
    | none => s
    | some j =>
      let s := (((s.mbxResult p 0 j.d0).mbxResult p 1 j.d1).mbxResult p 2 j.d2).mbxResult p 3 j.d3
      let s := s.wr (Reg.mbxFlag p) (mbxDone (s.rd (Reg.mbxFlag p)) j.err)
      let s : State := { s with mbx := Tab.set none s.mbx p none }
      if p = 0x0A then s.raise 0x0A 0 else s)

/-- IND_DATA_READ (R35). DESIGN CHOICE: log entry 30. -/
def execIndDataRead (a : Agent) (page : Fin 256) (s : State) : Host.Outcome State Fault Refusal :=
  .next (s.agentRead a (pageKey page 0x800) 4)

/-- IND_DATA_WRITE (R35). DESIGN CHOICE: log entry 30. -/
def execIndDataWrite (a : Agent) (page : Fin 256) (v : Word) (s : State) : Host.Outcome State Fault Refusal :=
  .next (s.agentReg a page 0x800 v)

/-- IND_ADDR_WRITE (R36). -/
def execIndAddrWrite (a : Agent) (page : Fin 256) (v : Word) (s : State) : Host.Outcome State Fault Refusal :=
  .next (s.agentReg a page 0x020 v)

/-- CTRL of a page with EN and FREEZE as they stand. -/
def State.ctrlNow (s : State) (page : Nat) : Word := s.rd (Reg.ctrl page) &&& 0x5#32

/-- SOFT_RESET (R31). -/
def execSoftReset (a : Agent) (page : Fin 256) (s : State) : Host.Outcome State Fault Refusal :=
  .next (s.agentReg a page 0x008 (setBits (s.ctrlNow page) 1 1 1))

/-- FREEZE_WRITE (R38). -/
def execFreezeWrite (a : Agent) (page : Fin 256) (on : Bool) (s : State) : Host.Outcome State Fault Refusal :=
  .next (s.agentReg a page 0x008 (setBits (s.ctrlNow page) 2 1 (b2n on)))

/-- ENABLE_WRITE (R30). -/
def execEnableWrite (a : Agent) (page : Fin 256) (on : Bool) (s : State) : Host.Outcome State Fault Refusal :=
  .next (s.agentReg a page 0x008 (setBits (s.ctrlNow page) 0 1 (b2n on)))

/-- IRQ_PEND_WRITE (R39): edges of the same cycle are ORed in after the write. -/
def execIrqPendWrite (a : Agent) (page : Fin 256) (v edges : Word) (s : State) : Host.Outcome State Fault Refusal :=
  .next (
    let p : Nat := page
    let s := s.agentReg a p 0x010 v
    (upFrom 0 32).foldl (fun s b => if bit edges b && bit (w32 (directMask p 0x010)) b then s.raise p b else s) s)

/-- COUNTER_CLEAR (R21): CNT_CLR.CLR of a page. -/
def execCounterClear (a : Agent) (page : Fin 256) (s : State) : Host.Outcome State Fault Refusal :=
  .next (
    let p : Nat := page
    match (pageBlock p).bind fun b => cntClrOff b.1 with
    | some off => s.agentReg a p off 1
    | none => s)

/-- QUAL_FAIL_REPOST (R22): once 1 ms has passed since a report, it is posted again for what was gathered since.
DEDUCED: log entry 11. -/
def execQualFailRepost (r : Spaced) (s : State) : Host.Outcome State Fault Refusal :=
  .next (match r with
    | .check page id =>
      let p : Nat := page
      let c := s.check p id.toNat
      if s.spaced c.last || c.gathered = 0 then s else s.qualPost p id.toNat
    | .other k =>
      let g := Tab.get Gather.init s.gathers k
      if s.spaced g.last || g.count = 0 then s else s.gatherPost k)

end Sys2Proof.Machine
end

