-- ==== Sys2Proof/Machine/XbrExec.lean ====
section
/-! DEFINITION. What executes at the target of a transaction (R306, R307, R317, R319–R322, R328, R330, R331): requests, posted writes,
messages and DISCARD notices. -/

namespace Sys2Proof.Machine

/-- Who makes the access of a released frame: the host with local rights for a BAR0 access (R396), and otherwise a fabric requester
that the remote-access classes bind (R26, R322). -/
def frameOrigin (source code : Nat) (rights : Bool) : Origin :=
  if rights then ⟨.host, source, code, false⟩ else ⟨.fabric (BitVec.ofNat 16 source), source, code, true⟩

/-- An atomic op (R306). -/
def isAtomic (op : Nat) : Bool := decide (3 ≤ op) && decide (op ≤ 6)

/-- Whether a request keeps the rules of its row on length, alignment and the 4 KiB boundary (R306). DEDUCED: log entry 55. -/
def requestOk (op len addr : Nat) : Bool :=
  decide (addr % 4096 + len ≤ 4096) &&
    (if op = 1 then decide (addr % 4 = 0)
     else if isAtomic op then decide (addr % len = 0) && decide (0x1000000 ≤ addr)
     else true)

/-- What SECDED found in the memory that an access touched, reported by the memory's block (R298, R446, R465). -/
def State.accessEcc (s : State) (addr : Nat) (ecc : ReadEcc) : State :=
  if addr < 0x1000000 then s
  else if inAppSram addr then
    match ecc with
    | .clean => s
    | .corrected a y => s.eccError 0x06 5 false a y
    | .uncorrectable a y => s.eccError 0x06 5 true a y
  else s.ddrEcc ecc

/-- A write partly done (R310): each byte is stored or not, freely. DESIGN CHOICE: log entry 8. -/
def State.memPutPart (s : State) (a : Nat) : List Byte → State
  | [] => s
  | b :: bs =>
    let r := s.fresh
    (if bit r.1 0 then r.2.memSet a b else r.2).memPutPart (a + 1) bs

/-- The access meets an uncorrectable error: it is memory, and the map and the firewall let it reach it. -/
def State.accessFails (s : State) (o : Origin) (addr n : Nat) (ecc : ReadEcc) : Bool :=
  decide (0x1000000 ≤ addr) && decide (s.turnedAway o addr n = none) && !eccUsable ecc

/-- A write of a released frame: its status and the state after. -/
def State.targetWrite (s : State) (o : Origin) (addr : Nat) (data : List Byte) (ecc : ReadEcc) : Nat × State :=
  if s.accessFails o addr data.length ecc then (5, (s.accessEcc addr ecc).memPutPart addr data)
  else
    let r := s.busWrite o addr data
    (r.1, if r.1 = 0 then r.2.accessEcc addr ecc else r.2)

/-- A read of a released frame: its status, its data and the state after. -/
def State.targetRead (s : State) (o : Origin) (addr n : Nat) (ecc : ReadEcc) : Nat × List Byte × State :=
  if s.accessFails o addr n ecc then (5, [], s.accessEcc addr ecc)
  else
    let r := s.busRead o addr n
    (r.1, r.2.1, if r.1 = 0 then r.2.2.accessEcc addr ecc else r.2.2)

/-- The value that an atomic stores: FETCH_ADD adds modulo the width, CAS stores the swap value only where the location equals the
compare value (R306). DEDUCED: log entry 55. -/
def atomicNew (op n old : Nat) (data : List Byte) : Nat :=
  if op = 3 ∨ op = 4 then (old + beAt data 0 n) % 256 ^ n
  else if old = beAt data 0 n then beAt data n n
  else old

/-- A location's little-endian bytes. -/
def valueBytes (n v : Nat) : List Byte := (beBytes n v).reverse

/-- An atomic of a released request: the old value, most significant byte first (R6). -/
def State.targetAtomic (s : State) (o : Origin) (op addr n : Nat) (data : List Byte) (ecc : ReadEcc) : Nat × List Byte × State :=
  let r := s.targetRead o addr n ecc
  if r.1 = 5 then (5, [], r.2.2.memPutPart addr (valueBytes n (atomicNew op n (bytesNat (s.memTake addr n)) data)))
  else if r.1 = 0 then (0, r.2.1.reverse, r.2.2.memPut addr (valueBytes n (atomicNew op n (bytesNat r.2.1) data)))
  else r

/-- A request executed against the node-local map: status, data and the state after. DEDUCED: log entry 55. -/
def State.executeRequest (s : State) (r : InReq) (ecc : ReadEcc) : Nat × List Byte × State :=
  let b := r.body
  let op := byteAt b 0
  let o := frameOrigin r.source (byteAt b 1) r.rights
  if !xBodyOk 2 b || !requestOk op (xLen b) (xAddr b) then (2, [], s)
  else if op = 1 then s.targetRead o (xAddr b) (xLen b) ecc
  else if op = 2 then
    let w := s.targetWrite o (xAddr b) ((xData b).take (xLen b)) ecc
    (w.1, [], w.2)
  else s.targetAtomic o op (xAddr b) (xLen b) (xData b) ecc

/-- The head of the inbound queue may execute: no posted frame and no completion that its source released before it waits (R315,
R319). -/
def State.requestReady (s : State) (r : InReq) : Bool :=
  (!s.xbr.posts.any fun p => decide (p.source = r.source ∧ p.mark < r.mark))
    && !s.xbr.compl.any fun c => decide (c.source = r.source ∧ c.mark < r.mark)

/-! ### Frames that wait for a block (R35, R128, R317) -/

/-- The access of a frame waits among those of a page's IND_DATA. -/
def State.waitsInd (s : State) (who : AccWho) (page : Nat) : Bool := (s.indWaiting page).any fun x => decide (x.who = who)

/-- A frame's access that has to wait: for its tile's clock, which it starts, or for an indirect domain, where it takes its turn; none
where it can be carried out. A write to IND_DATA that nothing precedes is carried out at once. DESIGN CHOICE: log entry 30. -/
def State.frameWaits (s : State) (o : Origin) (who : AccWho) (addr n : Nat) (data : Option Word) : Option State :=
  if !(if data.isSome then s.writeReaches o addr n else s.readReaches o addr n) then none
  else match s.stalledTile addr, indPage addr with
    | some t, _ => some (s.tileWake t)
    | none, some p =>
      if s.waitsInd who p then some s
      else if data.isSome ∧ (s.indWaiting p).isEmpty then none
      else some (s.indQueue p who data)
    | none, none => none

/-- The word that a frame's write carries. -/
def frameWord (b : List Byte) : Word := w32 (bytesNat ((xData b).take 4))

/-- A request that has to wait before it executes. -/
def State.requestWaits (s : State) (r : InReq) : Option State :=
  let b := r.body
  let op := byteAt b 0
  if !xBodyOk 2 b || !requestOk op (xLen b) (xAddr b) then none
  else
    s.frameWaits (frameOrigin r.source (byteAt b 1) r.rights) .inbound (xAddr b) (xLen b) (if op = 2 then some (frameWord b) else none)

/-- The head of the inbound queue answered: its completion takes the place of an entry of the same key, and is sent (R324). -/
def State.completeRequest (s : State) (r : InReq) (status : Nat) (data : List Byte) : State :=
  let b := r.body
  let now := s.now
  let e : CacheEnt :=
    { source := r.source, cls := r.cls, code := byteAt b 1, tag := xTag b, status, rs := isRs (byteAt b 0) (xLen b) (xAddr b),
      addr := xAddr b, data := if status = 0 then data else [], first := none, stranded := false, loop := r.loop, heldAt := now }
  let s := s.setXbr fun y => { y with inq := y.inq.tail, cache := y.cache.filter (fun x => !x.sameKey e) ++ [e] }
  s.sendCompletion e false true

/-- The completion cache is full for a request, but for an entry of the same key, which it replaces (R324). -/
def State.cacheFullFor (s : State) (r : InReq) : Bool :=
  let other (e : CacheEnt) : Bool :=
    !decide (e.source = r.source ∧ e.code = byteAt r.body 1 ∧ e.tag % 1024 = xTag r.body % 1024)
  decide (1024 ≤ (s.xbr.cache.filter other).length)

/-- The head of the inbound queue executed and answered. -/
def State.executeHead (s : State) (r : InReq) (ecc : ReadEcc) : State :=
  let x := s.executeRequest r ecc
  x.2.2.completeRequest r x.1 x.2.1

/-- REQUEST_EXECUTE (R306, R319, R324): the completion is cached and sent; a request that finds the cache full is answered BUSY; one whose
block stalls stays at the head (R128). DEDUCED: log entry 55. -/
def execRequestExecute (ecc : ReadEcc) (s : State) : Host.Outcome State Fault Refusal :=
  .next (match s.xbr.inq with
    | [] => s
    | r :: rest =>
      if !s.requestReady r then s
      else if s.cacheFullFor r then (s.setXbr fun x => { x with inq := rest }).answerBusy r
      else match s.requestWaits r with
        | some t => t
        | none => s.executeHead r ecc)

/-- The posted frame that executes next among those an op test names: the one begun, where there is one, and otherwise the oldest of its
source, no completion released before it but for a DISCARD notice's (R315, R317, R330). -/
def State.nextPosted (s : State) (isOp : Nat → Bool) : Option PostReq :=
  let first (p : PostReq) : Bool :=
    (!s.xbr.posts.any fun q => decide (q.source = p.source ∧ q.mark < p.mark))
      && (decide (byteAt p.body 0 = 3) || !s.xbr.compl.any fun c => decide (c.source = p.source ∧ c.mark < p.mark))
  if s.xbr.posts.any fun p => p.begun then s.xbr.posts.find? fun p => p.begun && isOp (byteAt p.body 0)
  else s.xbr.posts.find? fun p => isOp (byteAt p.body 0) && first p

/-- A posted frame leaves its place. -/
def State.dropPosted (s : State) (p : PostReq) : State := s.setXbr fun x => { x with posts := x.posts.erase p }

/-- A posted frame's execution begins in a block that stalls, and holds the posted frames behind it (R317). -/
def State.beginPosted (s : State) (p : PostReq) : State :=
  s.setXbr fun x => { x with posts := x.posts.map fun q => if q = p then { q with begun := true } else q }

/-- A posted frame answered with a status: it leaves, and a failure is reported (R328). -/
def State.finishPosted (s : State) (p : PostReq) (status : Nat) : State :=
  let s := s.dropPosted p
  if status = 0 then s else s.postedFailed p status

/-- A posted write carried out. -/
def State.executePosted (s : State) (p : PostReq) (ecc : ReadEcc) : State :=
  let b := p.body
  let w := s.targetWrite (frameOrigin p.source (byteAt b 1) p.rights) (xAddr b) ((xData b).take (xLen b)) ecc
  w.2.finishPosted p w.1

/-- A posted write that has to wait before it executes. -/
def State.postedWaits (s : State) (p : PostReq) : Option State :=
  let b := p.body
  s.frameWaits (frameOrigin p.source (byteAt b 1) p.rights) (.posted p.source) (xAddr b) (xLen b) (some (frameWord b))

/-- POSTED_WRITE_EXECUTE (R317, R328); a frame of a reserved op fails here too (R333). DEDUCED: log entry 55. -/
def execPostedWriteExecute (ecc : ReadEcc) (s : State) : Host.Outcome State Fault Refusal :=
  .next (match s.nextPosted fun op => decide (op ≠ 2 ∧ op ≠ 3) with
    | none => s
    | some p =>
      if !xBodyOk 4 p.body || !requestOk 2 (xLen p.body) (xAddr p.body) then s.finishPosted p 2
      else match s.postedWaits p with
        | some t => t.beginPosted p
        | none => s.executePosted p ecc)

/-- MESSAGE_EXECUTE (R321). -/
def execMessageExecute (s : State) : Host.Outcome State Fault Refusal :=
  .next (match s.nextPosted fun op => decide (op = 2) with
    | none => s
    | some p =>
      let b := p.body
      let s := s.dropPosted p
      if !xBodyOk 4 b then s.postedFailed p 2
      else if 256 ≤ s.xbr.msgs.length then (s.bump Reg.xbrCntMsgDrop).postedFailed p 8
      else
        let m : Word × Word := (w32 (at_ 16 p.source + at_ 8 (byteAt b 1) + byteAt b 7), w32 (beAt b 16 4))
        (s.setXbr fun x => { x with msgs := x.msgs ++ [m] }).raise 0x22 4)

/-- DISCARD_RECEIVE (R330, R331): the completed read that it names is stranded. The notice does not carry why it was sent, so the
record's cause is one of 0, 1 and 2, freely. DESIGN CHOICE: log entry 8. -/
def execDiscardReceive (s : State) : Host.Outcome State Fault Refusal :=
  .next (match s.nextPosted fun op => decide (op = 3) with
    | none => s
    | some p =>
      let b := p.body
      let s := s.dropPosted p
      if !xBodyOk 4 b then s.postedFailed p 2
      else
        let mine (e : CacheEnt) : Bool := e.rs && decide (e.source = p.source ∧ e.code = byteAt b 1 ∧ e.tag = xTag b)
        match s.xbr.cache.find? mine with
        | none => s.bump Reg.xbrCntDiscardMiss
        | some e =>
          if e.status = 0 then
            let r := s.fresh
            r.2.strand e (r.1.toNat % 3)
          else s)

end Sys2Proof.Machine
end

