-- ==== Sys2Proof/Machine/Access.lean ====
section
/-! DEFINITION. Accesses that wait: those that stall until a tile's clock is locked (R128, R495), and those to an indirect domain (R35,
R36); and the commands that are one access to a TILE or CH page. -/

namespace Sys2Proof.Machine

/-! ### A tile's clock locks (R128, R495) -/

/-- A stalled access goes on. -/
def State.stallEnds (s : State) (x : Stall) : State :=
  match x.data with
  | some d => s.agentWrite x.agent x.addr d
  | none => s.agentRead x.agent x.addr x.len

/-- TILE_CLOCK_LOCK (R128, R495): the clock is locked, and the accesses that stalled go on in their order. -/
def execTileClockLock (t : Fin 8) (s : State) : Host.Outcome State Fault Refusal :=
  .next (
    let k : Nat := t
    if (s.tile k).clk = .starting then
      let l := Tab.get [] s.stalls k
      let s := s.tileLock k
      l.foldl State.stallEnds { s with stalls := Tab.set [] s.stalls k [] }
    else s)

/-! ### Indirect domains (R35, R36) -/

/-- The answer of a page's oldest waiting access arrives: the access is carried out. -/
def State.indCarryOut (s : State) (page : Nat) (x : IndAccess) : State :=
  match x.who, x.data with
  | .agent a, none => s.readNow a (pageKey page 0x800) 4
  | .agent a, some v => s.writeNow a (pageKey page 0x800) (wordBytes v)
  | .inbound, _ =>
    match s.xbr.inq with
    | r :: _ => s.executeHead r .clean
    | [] => s
  | .posted src, _ =>
    match s.xbr.posts.find? fun p => p.begun && decide (p.source = src) with
    | some p => s.executePosted p .clean
    | none => s

/-- IND_ACCESS_COMPLETE (R35): the oldest waiting access of a page is carried out, at the address that IND_ADDR then holds. One of a TILE
or CH page needs the tile's clock. DESIGN CHOICE: log entries 30 and 76. -/
def execIndAccessComplete (page : Fin 256) (s : State) : Host.Outcome State Fault Refusal :=
  .next (
    let p : Nat := page
    match s.indWaiting p with
    | [] => s
    | x :: rest => if (s.stalledTile (pageKey p 0)).isSome then s else (s.setWaiting p rest).indCarryOut p x)

/-- A page's oldest waiting access ends without an answer: TARGET_ABORT (R36). -/
def State.indAbort (s : State) (page : Nat) (who : AccWho) : State :=
  let s := s.setFld (Reg.indAddr page) 30 1 1
  match who with
  | .agent a => s.localAnswer a (pageKey page 0x800) 2 []
  | .inbound =>
    match s.xbr.inq with
    | r :: _ => s.completeRequest r 2 []
    | [] => s
  | .posted src =>
    match s.xbr.posts.find? fun p => p.begun && decide (p.source = src) with
    | some p => s.finishPosted p 2
    | none => s

/-- IND_TIMEOUT (R36): the oldest waiting access of a page has found no answer within 10 µs; with none waiting, a write by an agent, which
waits for nothing else, finds none. DESIGN CHOICE: log entry 30. -/
def execIndTimeout (a : Agent) (page : Fin 256) (s : State) : Host.Outcome State Fault Refusal :=
  .next (
    let p : Nat := page
    match s.indWaiting p with
    | x :: rest => if s.passed x.since (usTclks 10) then (s.setWaiting p rest).indAbort p x.who else s
    | [] =>
      if s.writeReaches (s.localOrigin a) (pageKey p 0x800) 4 ∧ indPage (pageKey p 0x800) = some p ∧ s.stalledTile (pageKey p 0) = none then
        s.indAbort p (.agent a)
      else s)

/-! ### Commands that are one access to a TILE or CH page

Their rows name no agent; any agent may make these accesses, and the model takes the host (log entry 34). -/

/-- A register of channel c written. -/
def State.chReg (s : State) (c off : Nat) (v : Word) : State := s.agentReg .host (0x80 + c) off v

/-- A register of tile t written. -/
def State.tileReg (s : State) (t off : Nat) (v : Word) : State := s.agentReg .host (0x40 + t) off v

/-- STAMP_DATA_READ (R90). -/
def execStampDataRead (t : Fin 8) (s : State) : Host.Outcome State Fault Refusal :=
  .next (s.agentRead .host (pageKey (0x40 + t) 0x804) 4)

/-- STAMP_CFG_WRITE (R542). -/
def execStampCfgWrite (t : Fin 8) (v : Word) (s : State) : Host.Outcome State Fault Refusal := .next (s.tileReg t 0x200 v)

/-- STAMP_UNDERRUN_CLEAR (R90): CNT_CLR.UNDER_CLR. -/
def execStampUnderrunClear (t : Fin 8) (s : State) : Host.Outcome State Fault Refusal := .next (s.tileReg t 0x060 2)

/-- BANK_CFG_WRITE (R125). -/
def execBankCfgWrite (t : Fin 8) (v : Word) (s : State) : Host.Outcome State Fault Refusal := .next (s.tileReg t 0x050 v)

/-- GRP_START (R180): the registers are seen in every TILE page; the write goes through that of the first tile whose clock runs.
DEDUCED: log entry 34. -/
def execGrpStart (s : State) : Host.Outcome State Fault Refusal :=
  .next (
    let t := ((upFrom 0 8).find? fun t => decide ((s.tile t).clk = .running)).getD 0
    s.tileReg t 0x308 1)

/-- FUNC_WRITE (R130). -/
def execFuncWrite (c : Fin 64) (v : Word) (s : State) : Host.Outcome State Fault Refusal := .next (s.chReg c 0x050 v)

/-- OUT_SET (R132). -/
def execOutSet (c : Fin 64) (v : Word) (s : State) : Host.Outcome State Fault Refusal := .next (s.chReg c 0x058 v)

/-- OUT_CLR (R132). -/
def execOutClr (c : Fin 64) (v : Word) (s : State) : Host.Outcome State Fault Refusal := .next (s.chReg c 0x05C v)

/-- SAFE_ENTER (R140): SAFE_CMD.ENTER. -/
def execSafeEnter (c : Fin 64) (v : Word) (s : State) : Host.Outcome State Fault Refusal := .next (s.chReg c 0x060 (v &&& 0xF#32))

/-- SAFE_RELEASE (R140): SAFE_CMD.RELEASE. -/
def execSafeRelease (c : Fin 64) (v : Word) (s : State) : Host.Outcome State Fault Refusal := .next (s.chReg c 0x060 (v &&& 0xF00#32))

/-- CTR_CAPTURE (R142): CTR_CMD.CAPTURE. -/
def execCtrCapture (c : Fin 64) (s : State) : Host.Outcome State Fault Refusal := .next (s.chReg c 0x108 2)

/-- CTR_ZERO (R142): CTR_CMD.ZERO. -/
def execCtrZero (c : Fin 64) (s : State) : Host.Outcome State Fault Refusal := .next (s.chReg c 0x108 1)

/-- Page and RX_CMD of an RX FIFO: units 0–63 are channels', 64–79 CAN controllers'. -/
def rxUnitPage (u : Nat) : Nat := if u < 64 then 0x80 + u else canPage (u - 64)
def rxUnitCmd (u : Nat) : Nat := if u < 64 then 0x08C else 0x080

/-- RX_DATA_READ of a channel or CAN controller (R151, R367). -/
def execRxDataRead (u : Fin 80) (s : State) : Host.Outcome State Fault Refusal :=
  .next (s.agentRead .host (pageKey (rxUnitPage u) 0x804) 4)

/-- RX_DROP_REST (R149). -/
def execRxDropRest (u : Fin 80) (s : State) : Host.Outcome State Fault Refusal :=
  .next (s.agentReg .host (rxUnitPage u) (rxUnitCmd u) 1)

/-- RX_FLUSH (R150). -/
def execRxFlush (u : Fin 80) (s : State) : Host.Outcome State Fault Refusal :=
  .next (s.agentReg .host (rxUnitPage u) (rxUnitCmd u) 2)

/-- RX_UNDER_CLR (R151). -/
def execRxUnderClr (u : Fin 80) (s : State) : Host.Outcome State Fault Refusal :=
  .next (s.agentReg .host (rxUnitPage u) (rxUnitCmd u) 4)

/-- TX_DATA_WRITE (R152). -/
def execTxDataWrite (c : Fin 64) (w : Word) (s : State) : Host.Outcome State Fault Refusal := .next (s.chReg c 0x070 w)

/-- TX_DROP_REST (R149). -/
def execTxDropRest (c : Fin 64) (s : State) : Host.Outcome State Fault Refusal := .next (s.chReg c 0x09C 1)

/-- TX_FLUSH (R150). -/
def execTxFlush (c : Fin 64) (s : State) : Host.Outcome State Fault Refusal := .next (s.chReg c 0x09C 2)

/-- TX_UNDER_CLR (R152). -/
def execTxUnderClr (c : Fin 64) (s : State) : Host.Outcome State Fault Refusal := .next (s.chReg c 0x09C 4)

/-- I2C_BUS_CLEAR (R389): I2C_CMD.BUS_CLEAR. -/
def execI2cBusClear (c : Fin 64) (s : State) : Host.Outcome State Fault Refusal := .next (s.chReg c 0x348 1)

/-! ### Commands that are one access to an engine's registers (R155–R184) -/

/-- ENG_START (R180). -/
def execEngStart (c : Fin 64) (s : State) : Host.Outcome State Fault Refusal := .next (s.chReg c 0x420 0x01)

/-- ENG_HALT (R184). -/
def execEngHalt (c : Fin 64) (s : State) : Host.Outcome State Fault Refusal := .next (s.chReg c 0x420 0x02)

/-- ENGINE_RESET (R156). -/
def execEngineReset (c : Fin 64) (s : State) : Host.Outcome State Fault Refusal := .next (s.chReg c 0x420 0x04)

/-- COMMIT_AT_WRAP (R178). -/
def execCommitAtWrap (c : Fin 64) (s : State) : Host.Outcome State Fault Refusal := .next (s.chReg c 0x420 0x08)

/-- COMMIT_IMMEDIATE (R178, R179), written by any agent at this node. -/
def execCommitImmediate (c : Fin 64) (a : Agent) (s : State) : Host.Outcome State Fault Refusal :=
  .next (s.agentReg a (0x80 + c) 0x420 0x18)

/-- CANCEL_COMMIT (R178). -/
def execCancelCommit (c : Fin 64) (s : State) : Host.Outcome State Fault Refusal := .next (s.chReg c 0x420 0x80)

/-- COPY_ACTIVE (R175). -/
def execCopyActive (c : Fin 64) (s : State) : Host.Outcome State Fault Refusal := .next (s.chReg c 0x420 0x40)

/-- ENG_SEG_WRITE (R174). -/
def execEngSegWrite (c : Fin 64) (v : Word) (s : State) : Host.Outcome State Fault Refusal := .next (s.chReg c 0x404 v)

/-- PROG_DATA_WRITE (R175). -/
def execProgDataWrite (c : Fin 64) (v : Word) (s : State) : Host.Outcome State Fault Refusal := .next (s.chReg c 0x458 v)

/-- ENG_FLAG_SET (R155). -/
def execEngFlagSet (c : Fin 64) (v : Word) (s : State) : Host.Outcome State Fault Refusal := .next (s.chReg c 0x440 v)

/-- ENG_FLAG_CLR (R155); a set in the same write prevails. -/
def execEngFlagClr (c : Fin 64) (v setToo : Word) (s : State) : Host.Outcome State Fault Refusal :=
  .next ((s.chReg c 0x444 v).chReg c 0x440 setToo)

/-- ENG_MARK_WRITE (R168): ENG_MARK_NS. -/
def execEngMarkWrite (c : Fin 64) (v : Word) (s : State) : Host.Outcome State Fault Refusal := .next (s.chReg c 0x44C v)

/-- ENG_OSR_WRITE (R155). -/
def execEngOsrWrite (c : Fin 64) (v : Word) (s : State) : Host.Outcome State Fault Refusal := .next (s.chReg c 0x430 v)

end Sys2Proof.Machine
end

