-- ==== Sys2Proof/Machine/Edge.lean ====
section
/-! DEFINITION. The edges that drive the block's time: TCLK, its slew steps, and XT32 (R50, R51, R59, R60). -/

namespace Sys2Proof.Machine

/-- What the hub die samples at a TCLK edge: publish slots written in the cycles before it have their frames queued (R210), drive
conflicts are counted up to it (R160), and pins, tiles, the lease's inputs and links that are to start are looked at (R127, R137, R227,
R342). -/
def State.hubSample (s : State) : State :=
  let s := s.pubFlush none
  let s := if s.engs.isEmpty then s else (upFrom 0 8).foldl (fun s t => s.conflictsTo t (20 * s.tclks)) s
  (upFrom 0 4).foldl (fun s p => s.linkBegin p) s.leaseTrack.tileSample

/-- A TCLK edge: the counter's part, and that of the hub die where it runs. -/
def State.tclkEdge (s : State) : State := if s.tclkCount.hubUp then s.tclkCount.hubSample else s.tclkCount

/-- TCLK_EDGE (R50, R51): the increment, a slew step where one is due, and a command of the TIME mailbox that waits for the edge. While
XT32 keeps the time, TCLK edges do nothing (R59). DESIGN CHOICE: log entries 2 and 9. -/
def execTclkEdge (s : State) : Host.Outcome State Fault Refusal :=
  .next (if s.onXt32 ∨ s.power = .off then s else s.tclkEdge)

/-- SLEW_STEP (R51, R60): the TCLK edge at which the next slew step falls, with its increment; nothing where that is not the next edge.
DESIGN CHOICE: log entry 88. -/
def execSlewStep (s : State) : Host.Outcome State Fault Refusal :=
  .next (if s.onXt32 ∨ s.power = .off ∨ s.slewNext = 0 then s else s.tclkEdge)

/-- XT32_EDGE (R59, R87): in DORMANT the counter advances without RATE, and the edges that wait in line cells are stamped.
DESIGN CHOICE: log entry 2. DEDUCED: log entry 14. -/
def execXt32Edge (s : State) : Host.Outcome State Fault Refusal :=
  .next (if s.onXt32 then s.xt32Advance.dormantStamps else s)

end Sys2Proof.Machine
end

