-- ==== Sys2Proof/Machine/Start.lean ====
section
/-! DEFINITION. The start of the node (R454, R456, R458–R461, R463): images and settings chosen and verified, their records applied, the
rules, drill entries and windows armed, the cores released and the lease enabled; and MIGRATE_DONE, which goes on with a start that
waits for migrated settings. -/

namespace Sys2Proof.Machine

/-! ### Records applied (R454) -/

/-- Word i of a record's data or entry. -/
def dataWord (l : List Byte) (i : Nat) : Word := w32 (numAt l (4 * i) 4)

/-- Entries of a record, each applied in order until one fails. -/
def applyEach (f : State → List Byte → Bool × State) : List (List Byte) → State → Bool × State
  | [], s => (true, s)
  | e :: es, s =>
    let r := f s e
    if r.1 then applyEach f es r.2 else (false, r.2)

/-- The entries of a record of entries of n bytes. -/
def entriesOf (n : Nat) (l : List Byte) : List (List Byte) := pieces n (l.length / n) l

/-- A mailbox command of the keeper, run to its completion; a command still busy is completed first. Whether it ended without
ERROR. -/
def State.mailboxNow (s : State) (page : Fin 256) (op arg : Nat) (d : List Word) : Bool × State :=
  let p : Nat := page
  let s := after (execMbxComplete page s) s
  let s := (List.zip (upFrom 0 d.length) d).foldl (fun s e => s.wr (Reg.mbxD p (e.1 % 4)) e.2) s
  let s := s.mbxWrite .steward p (w32 (at_ 16 (arg % 65536) + op))
  let s := after (execMbxComplete page s) s
  (!s.flag (Reg.mbxFlag p) 2, s)

/-- Mailbox commands one after another until one fails: op and words. -/
def State.mailboxAll (s : State) (page : Fin 256) (arg : Nat) : List (Nat × List Word) → Bool × State
  | [] => (true, s)
  | c :: cs =>
    let r := s.mailboxNow page c.1 arg c.2
    if r.1 then r.2.mailboxAll page arg cs else (false, r.2)

/-- Words i to i + n − 1 of an entry. -/
def wordsOf (l : List Byte) (i n : Nat) : List Word := (upFrom i n).map fun k => dataWord l k

/-- An entry marked ARM is armed after the records. -/
def State.noteArm (s : State) (page n : Nat) (arm : Bool) : State :=
  if arm then s.setBoot fun b => { b with arms := b.arms ++ [(page, n)] } else s

/-- An entry of RULES, DRILL or WINDOWS loaded: its number's width, and the commands that load it. -/
def State.loadEntry (s : State) (page : Fin 256) (width : Nat) (cmds : List Byte → List (Nat × List Word)) (e : List Byte) :
    Bool × State :=
  let w := dataWord e 0
  let n := bits w 0 width
  let r := s.mailboxAll page n (cmds e)
  if r.1 then (true, r.2.noteArm page n (bit w 31)) else r

/-- A REG_WRITES pair that the keeper refuses: of STW, BOOT or SEC, or at offsets 0x800–0x8FF other than IND_DATA. -/
def pairRefused (addr : Nat) : Bool :=
  decide (addr < 0x1000000) &&
    (decide (addr / 0x1000 = 0x06 ∨ addr / 0x1000 = 0x08 ∨ addr / 0x1000 = 0x09)
      || (decide (addr % 0x1000 / 0x100 = 8) && decide (addr % 0x1000 ≠ 0x800)))

/-- A REG_WRITES pair applied by the keeper; one that the node-local map answers with an error fails like a refused one. -/
def State.applyPair (s : State) (e : List Byte) : Bool × State :=
  let addr := numAt e 0 4
  if pairRefused addr then (false, s)
  else
    let r := s.busWrite (s.localOrigin .steward) addr ((e.drop 4).take 4)
    (decide (r.1 = 0), r.2)

/-- Instruction words written for a tile as through ENG_PROG_DATA: into the staging bank of the engine whose segment holds the address,
ignored where none does (R175). DEDUCED: log entry 65. -/
def State.putProgram (s : State) (t : Nat) : Nat → List (List Byte) → State
  | _, [] => s
  | i, w :: ws =>
    let v := dataWord w 0
    let s := match (upFrom (8 * t) 8).find? fun e => inSeg (s.engSeg e) i with
      | some e => s.sramSet (instrKey e (!(s.eng e).bank) i) v
      | none => s
    s.putProgram t (i + 1) ws

/-- Bytes stored in the steward's SRAM. -/
def State.stwPut (s : State) : Nat → List Byte → State
  | _, [] => s
  | i, b :: bs => ({ s with stwSram := Tab.set 0 s.stwSram i b } : State).stwPut (i + 1) bs

/-- A record applied (R454): whether it succeeded. DEDUCED: log entry 65. -/
def State.applyRec (s : State) (r : LoadRec) : Bool × State :=
  let d := r.data
  let at0 := r.target.toNat
  if !r.crcOk then (false, s)
  else match r.ty with
    | 1 => if at0 + d.length ≤ 0x40000 then (true, s.stwPut at0 d) else (false, s)
    | 2 => if at0 < 4 ∧ d.length ≤ 0x80000 then (true, s.tcmPut (at0 + 1) 0 d) else (false, s)
    | 3 => if at0 + d.length ≤ 0x400000 then (true, s.memPut (0x1000000 + at0) d) else (false, s)
    | 4 =>
      let first := bits r.target 16 10
      if first + d.length / 4 ≤ 1024 then (true, s.putProgram (bits r.target 0 3) first (entriesOf 4 d)) else (false, s)
    | 5 => applyEach State.applyPair (entriesOf 8 d) s
    | 6 =>
      let cmds (e : List Byte) := [(1, wordsOf e 1 4), (2, wordsOf e 5 4), (3, wordsOf e 9 4)]
      applyEach (fun s e => s.loadEntry 0x14 10 cmds e) (entriesOf 52 d) s
    | 7 =>
      let cmds (e : List Byte) := [(1, wordsOf e 1 4), (2, wordsOf e 5 4)]
      applyEach (fun s e => s.loadEntry 0x12 12 cmds e) (entriesOf 36 d) s
    | 8 =>
      let cmds (e : List Byte) := [(1, wordsOf e 1 4), (2, wordsOf e 5 3)]
      applyEach (fun s e => s.loadEntry 0x13 8 cmds e) (entriesOf 32 d) s
    | 9 => applyEach (fun s e => s.mailboxNow 0x15 1 (numAt e 0 4) (wordsOf e 1 2)) (entriesOf 12 d) s
    | 10 => applyEach (fun s e => s.mailboxNow 0x15 4 (numAt e 0 4) (wordsOf e 1 2)) (entriesOf 12 d) s
    | _ => (false, s)

/-- An image's records applied in order, of those that `ours` chooses: the index of the one that failed, if any. Fewer records than the
header's number fail at the first one missing. DEDUCED: log entry 65. -/
def State.applyImage (s : State) (kind count : Nat) (ours : LoadRec → Bool) (i : Nat) : List LoadRec → Option Nat × State
  | [] => (if i < count then some i else none, s)
  | r :: rs =>
    if !ours r then s.applyImage kind count ours (i + 1) rs
    else
      let a := if recTypeOk kind r.ty then s.applyRec r else (false, s)
      if a.1 then a.2.applyImage kind count ours (i + 1) rs else (some i, a.2)

/-- A record older than an image reads it, by the image's migration table (R456, R461). -/
def recOld (table : List (Nat × Nat)) (r : LoadRec) : Bool := table.any fun e => decide (e.1 = r.ty ∧ r.ver < e.2)

/-- The migration table of the field image that runs, from its header (R451). -/
def State.fieldTable (s : State) : List (Nat × Nat) :=
  migrationTable (s.flashTake (slotBase 2 s.bcb.1.fSlot) 128)

/-- Settings records applied in order; one older than the running image reads it is not applied (R456), and one that fails is discarded
alone and reported (R454). DEDUCED: log entry 67. -/
def State.applySettings (s : State) (area i : Nat) : List LoadRec → State
  | [] => s
  | r :: rs =>
    let a := if !recTypeOk 2 r.ty then (false, s) else if recOld s.fieldTable r then (true, s) else s.applyRec r
    let t := if a.1 then a.2 else a.2.slotBad 3 area ⟨7, i⟩ (s.rd Reg.bootFieldVersion)
    t.applySettings area (i + 1) rs

/-! ### Images chosen (R456, R458, R459) -/

/-- A trial begun or counted at a start, or reverted: true where it reverted and the hub restarts. DEDUCED: log entry 66. -/
def State.trialStep (s : State) (kind : Nat) : Bool × State :=
  let b := s.bcb.1
  let begin_ (slot starts : Nat) : Bool × State :=
    let s := s.bcbChange (Bcb.put kind slot 1 starts)
    (false, s.bootPost 0 0x73 (w32 (at_ 16 kind + at_ 8 slot)) (s.slotVersion kind slot) (s.slotVersion kind (1 - slot)) (w32 starts) 0)
  if b.stateOf kind = 2 then begin_ (1 - b.slotOf kind) 1
  else if b.stateOf kind = 1 then
    let most := if s.fld Reg.bootTrialStarts 0 4 = 0 then 1 else s.fld Reg.bootTrialStarts 0 4
    if kind = 1 ∧ s.flag Reg.bootAo 0 then (true, (s.setFld Reg.bootAo 0 1 0).revert 1 1)
    else if most ≤ b.startsOf kind then (true, s.revert kind 4)
    else begin_ (b.slotOf kind) (b.startsOf kind + 1)
  else (false, s)

/-- An image of a kind is loaded from a slot: verified, and its records of a type test applied; the slot is bad where that fails. -/
def State.loadSlot (s : State) (kind slot : Nat) (ours : LoadRec → Bool) : Option Image × State :=
  match s.verify kind slot with
  | .error e => (none, s.markBad kind slot e.1 e.2)
  | .ok im =>
    let a := s.applyImage kind im.count ours 0 im.recs
    match a.1 with
    | none => (some im, a.2)
    | some i => (none, a.2.markBad kind slot ⟨7, i⟩ im.version)

/-- The image of a kind that runs: the active slot's, or the other's, which becomes active (R456). DEDUCED: log entry 65. -/
def State.loadImage (s : State) (kind : Nat) (ours : LoadRec → Bool) : Option Image × State :=
  let slot := s.bcb.1.slotOf kind
  let a := s.loadSlot kind slot ours
  match a.1 with
  | some im => (some im, a.2)
  | none =>
    let b := a.2.loadSlot kind (1 - slot) ours
    (b.1, if b.1.isSome then b.2.bcbChange (Bcb.put kind (1 - slot) 0 0) else b.2)

/-! ### Settings (R456, R460, R461) -/

/-- The settings of the live area applied; where a record is older than the image reads it, none is, and the start waits for the
migration: true. -/
def State.loadSettings (s : State) (im : Image) : Bool × State :=
  let area := s.liveArea
  match s.areaRecs area with
  | .error e => (false, s.slotBad 3 area e im.version)
  | .ok r =>
    if r.1.any (recOld im.table) then
      let s := s.openPending.setBoot fun b => { b with migrating := true }
      (true, s.bootStatus s.bcb.1)
    else (false, s.applySettings area 0 r.1)

/-! ### Steps 8 to 10 (R456) -/

/-- The arm command of a page's mailbox. -/
def armOp (page : Nat) : Nat := if page = 0x14 then 4 else 3

/-- The marked entries of a page armed in ascending number. -/
def State.armPage (s : State) (page : Fin 256) : State :=
  let p : Nat := page
  let marked := s.boot.arms
  ((upFrom 0 4096).filter fun n => marked.any fun a => decide (a = (p, n))).foldl
    (fun s n => (s.mailboxNow page (armOp p) n []).2) s

/-- Rules, then drill entries, then windows armed. -/
def State.armAll (s : State) : State :=
  (((s.armPage 0x14).armPage 0x12).armPage 0x13).setBoot fun b => { b with arms := [] }

/-- The pairs that are held released, where their clock is locked (R498). -/
def State.releasePairs (s : State) : State :=
  (upFrom 1 4).foldl (fun s n => if s.pairHalted n && !setHas s.clk.unlocked 1 then s.pairRun n else s) s

/-- A protected range of 64 KiB units (R463). -/
def protWord (first last : Nat) : Word := w32 (at_ 31 1 + at_ 16 last + first)

/-- Only the inactive slots are left unprotected (R463). -/
def State.protectFlash (s : State) : State :=
  let b := s.bcb.1
  let k := slotBase 1 (1 - b.kSlot) / 0x10000
  let f := slotBase 2 (1 - b.fSlot) / 0x10000
  let s := (s.wr (Reg.ospiProt 0) (protWord 0 (k - 1))).wr (Reg.ospiProt 1) (protWord (k + 4) (f - 1))
  (s.wr (Reg.ospiProt 2) (protWord (f + 256) 4095)).wr (Reg.ospiProt 3) 0

/-- STATUS.PHASE of STW. -/
def State.setPhase (s : State) (p : Nat) : State := s.setFld Reg.stwStatus 0 4 p

/-- Steps 8 to 10: armed, released, the lease enabled. Stamps that waited are transferred from step 9 on (R541). -/
def State.finishStart (s : State) : State :=
  let s := s.armAll
  let s := (upFrom 0 8).foldl (fun s t => if s.stampWaits t then s.tileWake t else s) { s with stampsHeld := false }
  let s := s.releasePairs
  let s := (s.enableWrite 0x2D true).setPhase 3
  if s.onTrial 2 then
    let now := s.tclks
    s.setBoot fun b => { b with trialAt := some now }
  else s

/-! ### NODE_START (R456) -/

/-- Steps 1 to 3: the flash identified, in 8D-8D-8D where its SFDP says so, and the boot control block read, or written anew where
neither copy is valid. -/
def State.readFlash (s : State) (octal : Bool) : State :=
  let s := (s.wr (Reg.status 0x0A) (w32 (at_ 1 (b2n octal) + 1))).wr Reg.ospiClock (if octal then 200 else 25)
  match s.bcbCopy 0, s.bcbCopy 1 with
  | none, none => s.bcbWrite Bcb.fallback
  | _, _ => s.bootStatus s.bcb.1

/-- Steps 6 to 10, by the keeper. DEDUCED: log entry 35. -/
def State.startField (s : State) : State :=
  let t := s.trialStep 2
  if t.1 then t.2
  else
    let f := (t.2.setPhase 2).loadImage 2 fun _ => true
    match f.1 with
    | none => f.2.setPhase 1
    | some im =>
      let g := (f.2.wr Reg.bootFieldVersion im.version).loadSettings im
      if g.1 then g.2.releasePairs else g.2.finishStart

/-- The QUAL_FAIL of a TCLK_FAIL or PLL_FAIL reset, with the time of its assertion, and its QUAL_CLEAR (R496, R504).
DEDUCED: log entry 72. -/
def State.postClkReport (s : State) : State :=
  match s.clk.report with
  | none => s
  | some (check, item, value, q, clear) =>
    let s := s.setClk fun c => { c with report := none }
    let t : TimePoint := ⟨s.rd Reg.rstLastSec, (s.rd Reg.rstLastNs).toNat⟩
    let s := (s.raise 0x02 0).qualFailAt 0x02 check item value (if check = 0x0C05 then Reg.clkCntPll else Reg.clkCntTclk) t q
    s.clkClear check item clear

/-- The end of a start: the records it kept and those of the power path are posted. -/
def State.startEnds (s : State) : State := ((s.setBoot fun b => { b with started := true }).bootFlush.powDrain).postClkReport

/-- The hub die is out of the resets that are held by their causes. -/
def State.canStart_ (s : State) : Bool :=
  !s.boot.started && decide (s.fld Reg.stwStatus 0 4 ≠ 15) && decide (s.power ≠ .off ∧ s.power ≠ .dormant)
    && decide (s.clk.hold ≠ some 1 ∧ s.clk.hold ≠ some 5 ∧ s.clk.hold ≠ some 6 ∧ s.clk.hold ≠ some 7)

/-- NODE_START (R456): the whole start in one step, with what the flash's SFDP advertises. A trial that reverts restarts the hub, and a
further NODE_START follows. With no keeper image that verifies the node waits in BOOT_FAIL.
DESIGN CHOICE: log entry 6. DEDUCED: log entry 65. -/
def execNodeStart (octal : Bool) (s : State) : Host.Outcome State Fault Refusal :=
  .next (
    if !s.canStart_ then s
    else
      let s := if s.power = .held then s.hubRelease else { s with power := .active }
      let s := (upFrom 0 4).foldl State.linkBegin s
      let s := (s.wdtStart 0).readFlash octal
      let t := s.trialStep 1
      if t.1 then t.2
      else
        let k := t.2.loadImage 1 fun r => decide (r.ty = 1)
        match k.1 with
        | none => (k.2.setPhase 15).bootFlush
        | some im =>
          let s := ((k.2.setFld Reg.bootAo 0 1 0).wr Reg.bootKeeperVersion im.version).setPhase 1
          let s := s.startField
          if s.fld Reg.stwStatus 0 4 = 0 then s else s.protectFlash.startEnds)

/-! ### MIGRATE_DONE (R457, R461) -/

/-- The pending area closed, recorded, applied and reported; a start that waited for it goes on from step 8.
DEDUCED: log entry 67. -/
def State.migrateDone (s : State) : Nat × State :=
  if !s.boot.pendOpen then (1, s)
  else
    let waiting := s.boot.migrating
    let old := s.bcb.1.area
    let r := s.closePending
    let s := (r.2.applySettings (1 - old) 0 r.1).postMigrated false r.1.length old (1 - old)
    (0, if waiting then s.finishStart else s.armAll)

/-- MIGRATE_DONE (R457, R461). -/
def execMigrateDone (slot : Fin 5) (s : State) : Host.Outcome State Fault Refusal :=
  .next (s.serve slot 7 fun s => s.migrateDone)

end Sys2Proof.Machine
end

