-- ==== Sys2Proof/Machine/Dispatch.lean ====
section
/-! DEFINITION. Which meaning each command has: one direct call for each constructor. -/

namespace Sys2Proof.Machine

/-- The effect of a command on everything but the queue of commands. -/
def exec (i : Instr) (s : State) : Host.Outcome State Fault Refusal :=
  match i with
  -- Common to all pages
  | .registerWrite t => Sys2Proof.Machine.execRegisterWrite t s
  | .mbxNop a page => Sys2Proof.Machine.execMbxNop a page s
  | .mbxUnknownOp a page op arg => Sys2Proof.Machine.execMbxUnknownOp a page op arg s
  | .mbxWriteWhileBusy a page n v => Sys2Proof.Machine.execMbxWriteWhileBusy a page n v s
  | .mbxComplete page => Sys2Proof.Machine.execMbxComplete page s
  | .indAddrWrite a page v => Sys2Proof.Machine.execIndAddrWrite a page v s
  | .indDataRead a page => Sys2Proof.Machine.execIndDataRead a page s
  | .indDataWrite a page v => Sys2Proof.Machine.execIndDataWrite a page v s
  | .indAccessComplete page => Sys2Proof.Machine.execIndAccessComplete page s
  | .indTimeout a page => Sys2Proof.Machine.execIndTimeout a page s
  | .softReset a page => Sys2Proof.Machine.execSoftReset a page s
  | .freezeWrite a page on => Sys2Proof.Machine.execFreezeWrite a page on s
  | .enableWrite a page on => Sys2Proof.Machine.execEnableWrite a page on s
  | .irqPendWrite a page v edges => Sys2Proof.Machine.execIrqPendWrite a page v edges s
  | .counterClear a page => Sys2Proof.Machine.execCounterClear a page s
  | .qualFailRepost r => Sys2Proof.Machine.execQualFailRepost r s
  -- Fabric time
  | .readTime _a => Sys2Proof.Machine.execReadTime _a s
  | .adjPhase a => Sys2Proof.Machine.execAdjPhase a s
  | .adjRate a => Sys2Proof.Machine.execAdjRate a s
  | .stepForce => Sys2Proof.Machine.execStepForce s
  | .setTime => Sys2Proof.Machine.execSetTime s
  | .setState a arg => Sys2Proof.Machine.execSetState a arg s
  | .slewStep => Sys2Proof.Machine.execSlewStep s
  | .uncGrowthTick => Sys2Proof.Machine.execUncGrowthTick s
  -- PTP, PPS and IRIG-B
  | .syncReceive => Sys2Proof.Machine.execSyncReceive s
  | .announceReceive => Sys2Proof.Machine.execAnnounceReceive s
  | .announceReceiptTimeout => Sys2Proof.Machine.execAnnounceReceiptTimeout s
  | .syncTimeout => Sys2Proof.Machine.execSyncTimeout s
  | .syncSend announce => Sys2Proof.Machine.execSyncSend announce s
  | .pdelayReqSend => Sys2Proof.Machine.execPdelayReqSend s
  | .pdelayReqReceive => Sys2Proof.Machine.execPdelayReqReceive s
  | .pdelayRespReceive port count => Sys2Proof.Machine.execPdelayRespReceive port count s
  | .ppsPulse src edge width => Sys2Proof.Machine.execPpsPulse src edge width s
  | .ppsSourceLost src => Sys2Proof.Machine.execPpsSourceLost src s
  | .irigFrame c b t result => Sys2Proof.Machine.execIrigFrame c b t result s
  | .irigSourceLost c => Sys2Proof.Machine.execIrigSourceLost c s
  -- Line edges and stamps
  | .lineTransition k d => Sys2Proof.Machine.execLineTransition k d s
  | .edgeQualified k => Sys2Proof.Machine.execEdgeQualified k s
  | .stampTransfer t => Sys2Proof.Machine.execStampTransfer t s
  | .stampDataRead t => Sys2Proof.Machine.execStampDataRead t s
  | .stampCfgWrite t v => Sys2Proof.Machine.execStampCfgWrite t v s
  | .stampUnderrunClear t => Sys2Proof.Machine.execStampUnderrunClear t s
  -- Windows
  | .loadTimes arg => Sys2Proof.Machine.execLoadTimes arg s
  | .loadCtrl arg => Sys2Proof.Machine.execLoadCtrl arg s
  | .winArm arg => Sys2Proof.Machine.execWinArm arg s
  | .winDisarm arg => Sys2Proof.Machine.execWinDisarm arg s
  | .readTimes arg => Sys2Proof.Machine.execReadTimes arg s
  | .readCtrl arg => Sys2Proof.Machine.execReadCtrl arg s
  | .trigger arg => Sys2Proof.Machine.execTrigger arg s
  | .windowStateChange w => Sys2Proof.Machine.execWindowStateChange w s
  | .windowClassify k => Sys2Proof.Machine.execWindowClassify k s
  -- Drill launch
  | .drlLoadTime arg => Sys2Proof.Machine.execDrlLoadTime arg s
  | .drlLoadAction arg => Sys2Proof.Machine.execDrlLoadAction arg s
  | .drlArm arg ecc => Sys2Proof.Machine.execDrlArm arg ecc s
  | .drlDisarm arg => Sys2Proof.Machine.execDrlDisarm arg s
  | .drlReadTime arg ecc => Sys2Proof.Machine.execDrlReadTime arg ecc s
  | .drlReadAction arg ecc => Sys2Proof.Machine.execDrlReadAction arg ecc s
  | .drlReadState arg ecc => Sys2Proof.Machine.execDrlReadState arg ecc s
  | .drlClear arg => Sys2Proof.Machine.execDrlClear arg s
  | .drillPrepare n ecc => Sys2Proof.Machine.execDrillPrepare n ecc s
  | .drillFire n lateNs lateRun ecc => Sys2Proof.Machine.execDrillFire n lateNs lateRun ecc s
  | .pulseEnd k inLatch inCommand => Sys2Proof.Machine.execPulseEnd k inLatch inCommand s
  -- Tiles, lines, channels and counters
  | .vddioWindowChange t v => Sys2Proof.Machine.execVddioWindowChange t v s
  | .bankCheckFail t => Sys2Proof.Machine.execBankCheckFail t s
  | .bankCheckClear t => Sys2Proof.Machine.execBankCheckClear t s
  | .bankCfgWrite t v => Sys2Proof.Machine.execBankCfgWrite t v s
  | .tileClockLock t => Sys2Proof.Machine.execTileClockLock t s
  | .tileClockLockTimeout t => Sys2Proof.Machine.execTileClockLockTimeout t s
  | .tileClockStop t => Sys2Proof.Machine.execTileClockStop t s
  | .funcWrite c v => Sys2Proof.Machine.execFuncWrite c v s
  | .outSet c v => Sys2Proof.Machine.execOutSet c v s
  | .outClr c v => Sys2Proof.Machine.execOutClr c v s
  | .safeEnter c v => Sys2Proof.Machine.execSafeEnter c v s
  | .safeRelease c v => Sys2Proof.Machine.execSafeRelease c v s
  | .maxWidthExpiry k => Sys2Proof.Machine.execMaxWidthExpiry k s
  | .idleExpiry k => Sys2Proof.Machine.execIdleExpiry k s
  | .leakTick k => Sys2Proof.Machine.execLeakTick k s
  | .readbackMismatch k => Sys2Proof.Machine.execReadbackMismatch k s
  | .ctrCapture c => Sys2Proof.Machine.execCtrCapture c s
  | .ctrZero c => Sys2Proof.Machine.execCtrZero c s
  | .periodicCapture c => Sys2Proof.Machine.execPeriodicCapture c s
  -- FIFOs
  | .rxDataRead u => Sys2Proof.Machine.execRxDataRead u s
  | .rxDropRest u => Sys2Proof.Machine.execRxDropRest u s
  | .rxFlush u => Sys2Proof.Machine.execRxFlush u s
  | .rxUnderClr u => Sys2Proof.Machine.execRxUnderClr u s
  | .txDataWrite c w => Sys2Proof.Machine.execTxDataWrite c w s
  | .txDropRest c => Sys2Proof.Machine.execTxDropRest c s
  | .txFlush c => Sys2Proof.Machine.execTxFlush c s
  | .txUnderClr c => Sys2Proof.Machine.execTxUnderClr c s
  -- Tine engines
  | .halt c d => Sys2Proof.Machine.execHalt c d s
  | .shiftOut c d => Sys2Proof.Machine.execShiftOut c d s
  | .shiftIn c d => Sys2Proof.Machine.execShiftIn c d s
  | .drive c d => Sys2Proof.Machine.execDrive c d s
  | .sample c d => Sys2Proof.Machine.execSample c d s
  | .load c d => Sys2Proof.Machine.execLoad c d s
  | .branch c d => Sys2Proof.Machine.execBranch c d s
  | .wait c d => Sys2Proof.Machine.execWait c d s
  | .waitEnd c d => Sys2Proof.Machine.execWaitEnd c d s
  | .waitTimeMark c d => Sys2Proof.Machine.execWaitTimeMark c d s
  | .engineMarkPrepare c => Sys2Proof.Machine.execEngineMarkPrepare c s
  | .push c d => Sys2Proof.Machine.execPush c d s
  | .pull c d => Sys2Proof.Machine.execPull c d s
  | .stamp c d => Sys2Proof.Machine.execStamp c d s
  | .markSetFlag c d => Sys2Proof.Machine.execMarkSetFlag c d s
  | .markClearFlag c d => Sys2Proof.Machine.execMarkClearFlag c d s
  | .markPost c d => Sys2Proof.Machine.execMarkPost c d s
  | .stallEnd c d cycles => Sys2Proof.Machine.execStallEnd c d cycles s
  | .engStart c => Sys2Proof.Machine.execEngStart c s
  | .engHalt c => Sys2Proof.Machine.execEngHalt c s
  | .engineReset c => Sys2Proof.Machine.execEngineReset c s
  | .commitAtWrap c => Sys2Proof.Machine.execCommitAtWrap c s
  | .commitImmediate c a => Sys2Proof.Machine.execCommitImmediate c a s
  | .commitSwap c d => Sys2Proof.Machine.execCommitSwap c d s
  | .cancelCommit c => Sys2Proof.Machine.execCancelCommit c s
  | .copyActive c => Sys2Proof.Machine.execCopyActive c s
  | .copyDone c => Sys2Proof.Machine.execCopyDone c s
  | .grpStart => Sys2Proof.Machine.execGrpStart s
  | .startEventAct k d => Sys2Proof.Machine.execStartEventAct k d s
  | .engSegWrite c v => Sys2Proof.Machine.execEngSegWrite c v s
  | .progDataWrite c v => Sys2Proof.Machine.execProgDataWrite c v s
  | .engFlagSet c v => Sys2Proof.Machine.execEngFlagSet c v s
  | .engFlagClr c v setToo => Sys2Proof.Machine.execEngFlagClr c v setToo s
  | .engMarkWrite c v => Sys2Proof.Machine.execEngMarkWrite c v s
  | .engOsrWrite c v => Sys2Proof.Machine.execEngOsrWrite c v s
  -- Reflex rules
  | .ruleEvaluate d ecc => Sys2Proof.Machine.execRuleEvaluate d ecc s
  | .ruleTick n => Sys2Proof.Machine.execRuleTick n s
  | .loadTermsA arg => Sys2Proof.Machine.execLoadTermsA arg s
  | .loadTermsB arg => Sys2Proof.Machine.execLoadTermsB arg s
  | .loadAct arg => Sys2Proof.Machine.execLoadAct arg s
  | .rfxArm arg ecc => Sys2Proof.Machine.execRfxArm arg ecc s
  | .rfxDisarm arg => Sys2Proof.Machine.execRfxDisarm arg s
  | .readTermsA arg ecc => Sys2Proof.Machine.execReadTermsA arg ecc s
  | .readTermsB arg ecc => Sys2Proof.Machine.execReadTermsB arg ecc s
  | .readAct arg ecc => Sys2Proof.Machine.execReadAct arg ecc s
  | .rfxClear arg => Sys2Proof.Machine.execRfxClear arg s
  | .swfSet v => Sys2Proof.Machine.execSwfSet v s
  | .swfClr v => Sys2Proof.Machine.execSwfClr v s
  -- Signals
  | .loadPub arg => Sys2Proof.Machine.execLoadPub arg s
  | .setValue arg => Sys2Proof.Machine.execSetValue arg s
  | .readPub arg => Sys2Proof.Machine.execReadPub arg s
  | .loadSub arg => Sys2Proof.Machine.execLoadSub arg s
  | .readSub arg => Sys2Proof.Machine.execReadSub arg s
  | .readSubcfg arg => Sys2Proof.Machine.execReadSubcfg arg s
  | .clearSub arg => Sys2Proof.Machine.execClearSub arg s
  | .readPubcfg arg => Sys2Proof.Machine.execReadPubcfg arg s
  | .heartbeatScan => Sys2Proof.Machine.execHeartbeatScan s
  | .signalFrameReceive => Sys2Proof.Machine.execSignalFrameReceive s
  | .subscriptionStale n => Sys2Proof.Machine.execSubscriptionStale n s
  -- Ports and links
  | .frameReceive port w => Sys2Proof.Machine.execFrameReceive port w s
  | .egressTransmitStart port ecc => Sys2Proof.Machine.execEgressTransmitStart port ecc s
  | .frameTransmitEnd port ecc => Sys2Proof.Machine.execFrameTransmitEnd port ecc s
  | .preemption port => Sys2Proof.Machine.execPreemption port s
  | .trainingComplete port fec txeq rxeq => Sys2Proof.Machine.execTrainingComplete port fec txeq rxeq s
  | .trainingTimeout port => Sys2Proof.Machine.execTrainingTimeout port s
  | .blockLockAcquired port => Sys2Proof.Machine.execBlockLockAcquired port s
  | .lockingTimeout port => Sys2Proof.Machine.execLockingTimeout port s
  | .upHoldExpiry port => Sys2Proof.Machine.execUpHoldExpiry port s
  | .linkDownCondition port event => Sys2Proof.Machine.execLinkDownCondition port event s
  | .holdDownExpiry port => Sys2Proof.Machine.execHoldDownExpiry port s
  | .dupEntryAge headland src => Sys2Proof.Machine.execDupEntryAge headland src s
  | .quietPeriodEnd => Sys2Proof.Machine.execQuietPeriodEnd s
  | .fpCheckClear port check => Sys2Proof.Machine.execFpCheckClear port check s
  | .prbsErrRead port => Sys2Proof.Machine.execPrbsErrRead port s
  -- Ring management
  | .idCfgWrite v => Sys2Proof.Machine.execIdCfgWrite v s
  | .farIdWrite v => Sys2Proof.Machine.execFarIdWrite v s
  | .idActivate far => Sys2Proof.Machine.execIdActivate far s
  | .neighbourSend => Sys2Proof.Machine.execNeighbourSend s
  | .supervisionSend far => Sys2Proof.Machine.execSupervisionSend far s
  | .ringMgmtReceive => Sys2Proof.Machine.execRingMgmtReceive s
  | .neighbourSilent port => Sys2Proof.Machine.execNeighbourSilent port s
  | .stationTimeout n => Sys2Proof.Machine.execStationTimeout n s
  | .supervisionMissed far => Sys2Proof.Machine.execSupervisionMissed far s
  | .hsrSupervisionSend => Sys2Proof.Machine.execHsrSupervisionSend s
  -- Switch and buffers
  | .copyWrite => Sys2Proof.Machine.execCopyWrite s
  | .replicationTimeout k => Sys2Proof.Machine.execReplicationTimeout k s
  | .mirrorCopyTimeout k => Sys2Proof.Machine.execMirrorCopyTimeout k s
  | .pushoutRepost port => Sys2Proof.Machine.execPushoutRepost port s
  | .migration port cls => Sys2Proof.Machine.execMigration port cls s
  | .storeReadback port cls ecc => Sys2Proof.Machine.execStoreReadback port cls ecc s
  | .storeCfgWrite size v => Sys2Proof.Machine.execStoreCfgWrite size v s
  | .bufMarksWrite spill v => Sys2Proof.Machine.execBufMarksWrite spill v s
  | .ddrTrainingDone fail => Sys2Proof.Machine.execDdrTrainingDone fail s
  -- Fabric transactions
  | .requestIssue q user => Sys2Proof.Machine.execRequestIssue q user s
  | .tagStallEnd => Sys2Proof.Machine.execTagStallEnd s
  | .transactionFrameReceive => Sys2Proof.Machine.execTransactionFrameReceive s
  | .gapLost source => Sys2Proof.Machine.execGapLost source s
  | .streamAgeExpiry source => Sys2Proof.Machine.execStreamAgeExpiry source s
  | .requestExecute ecc => Sys2Proof.Machine.execRequestExecute ecc s
  | .postedWriteExecute ecc => Sys2Proof.Machine.execPostedWriteExecute ecc s
  | .messageExecute => Sys2Proof.Machine.execMessageExecute s
  | .discardReceive => Sys2Proof.Machine.execDiscardReceive s
  | .completionReceive => Sys2Proof.Machine.execCompletionReceive s
  | .retryTimer t => Sys2Proof.Machine.execRetryTimer t s
  | .busyBackoffExpiry t => Sys2Proof.Machine.execBusyBackoffExpiry t s
  | .npTimeout t => Sys2Proof.Machine.execNpTimeout t s
  | .ccHoldExpiry source code tag => Sys2Proof.Machine.execCcHoldExpiry source code tag s
  | .lostReportReceive => Sys2Proof.Machine.execLostReportReceive s
  | .eventReportReceive => Sys2Proof.Machine.execEventReportReceive s
  | .msgDataRead => Sys2Proof.Machine.execMsgDataRead s
  | .msgUnderClr => Sys2Proof.Machine.execMsgUnderClr s
  -- Paired nodes
  | .stateReceive m => Sys2Proof.Machine.execStateReceive m s
  | .releaseReceive m => Sys2Proof.Machine.execReleaseReceive m s
  | .hoReqReceive m => Sys2Proof.Machine.execHoReqReceive m s
  | .hoAckReceive m => Sys2Proof.Machine.execHoAckReceive m s
  | .hoCancelReceive m => Sys2Proof.Machine.execHoCancelReceive m s
  | .echoReceive m residence => Sys2Proof.Machine.execEchoReceive m residence s
  | .echoReplyReceive m roundTrip => Sys2Proof.Machine.execEchoReplyReceive m roundTrip s
  | .plkAlignTimeout => Sys2Proof.Machine.execPlkAlignTimeout s
  | .plkHoldExpiry => Sys2Proof.Machine.execPlkHoldExpiry s
  | .plkDownCondition cause => Sys2Proof.Machine.execPlkDownCondition cause s
  | .partnerSilent => Sys2Proof.Machine.execPartnerSilent s
  | .stateSend => Sys2Proof.Machine.execStateSend s
  | .echoSend => Sys2Proof.Machine.execEchoSend s
  | .leaseExpiry => Sys2Proof.Machine.execLeaseExpiry s
  | .startingTimeout => Sys2Proof.Machine.execStartingTimeout s
  | .takeoverComplete => Sys2Proof.Machine.execTakeoverComplete s
  | .selfExpiry => Sys2Proof.Machine.execSelfExpiry s
  | .peerOwnChange level => Sys2Proof.Machine.execPeerOwnChange level s
  | .leaseConflict => Sys2Proof.Machine.execLeaseConflict s
  | .ownOutReadbackFault differs => Sys2Proof.Machine.execOwnOutReadbackFault differs s
  | .releaseConfirm => Sys2Proof.Machine.execReleaseConfirm s
  | .compareFail => Sys2Proof.Machine.execCompareFail s
  | .compareClear => Sys2Proof.Machine.execCompareClear s
  | .faultClr v => Sys2Proof.Machine.execFaultClr v s
  | .faultSet v => Sys2Proof.Machine.execFaultSet v s
  | .revertHoldExpiry => Sys2Proof.Machine.execRevertHoldExpiry s
  | .handoverTime => Sys2Proof.Machine.execHandoverTime s
  | .handoverRetakeCheck => Sys2Proof.Machine.execHandoverRetakeCheck s
  | .timingWrite v => Sys2Proof.Machine.execTimingWrite v s
  -- CAN controllers
  | .canFrameReceived n f t => Sys2Proof.Machine.execCanFrameReceived n f t s
  | .canRxError n e dataPhase eight => Sys2Proof.Machine.execCanRxError n e dataPhase eight s
  | .canArbitrationStart n sof => Sys2Proof.Machine.execCanArbitrationStart n sof s
  | .canArbitrationLost n => Sys2Proof.Machine.execCanArbitrationLost n s
  | .canTxSuccess n tdcv => Sys2Proof.Machine.execCanTxSuccess n tdcv s
  | .canTxError n e dataPhase held => Sys2Proof.Machine.execCanTxError n e dataPhase held s
  | .canProtocolException n => Sys2Proof.Machine.execCanProtocolException n s
  | .canBusIdle n => Sys2Proof.Machine.execCanBusIdle n s
  | .canRecoveryComplete n => Sys2Proof.Machine.execCanRecoveryComplete n s
  | .canInitEntry n => Sys2Proof.Machine.execCanInitEntry n s
  | .txreq n v => Sys2Proof.Machine.execTxreq n v s
  | .txcancel n v => Sys2Proof.Machine.execTxcancel n v s
  | .txresClr n v => Sys2Proof.Machine.execTxresClr n v s
  | .canTxDataWrite n w => Sys2Proof.Machine.execCanTxDataWrite n w s
  | .canTxFlush n => Sys2Proof.Machine.execCanTxFlush n s
  | .canRecover n => Sys2Proof.Machine.execCanRecover n s
  | .canMbWrite n m k v => Sys2Proof.Machine.execCanMbWrite n m k v s
  -- Serial functions
  | .uartCharReceive c data t fault => Sys2Proof.Machine.execUartCharReceive c data t fault s
  | .uartGapExpiry c => Sys2Proof.Machine.execUartGapExpiry c s
  | .uartTxStart c => Sys2Proof.Machine.execUartTxStart c s
  | .uartTxEnd c => Sys2Proof.Machine.execUartTxEnd c s
  | .spiTransactionStart c => Sys2Proof.Machine.execSpiTransactionStart c s
  | .spiTransactionEnd c rx => Sys2Proof.Machine.execSpiTransactionEnd c rx s
  | .spiCsAssert c => Sys2Proof.Machine.execSpiCsAssert c s
  | .spiCsRelease c rx partial_ => Sys2Proof.Machine.execSpiCsRelease c rx partial_ s
  | .i2cTransactionStart c => Sys2Proof.Machine.execI2cTransactionStart c s
  | .i2cTransactionEnd c result acked read => Sys2Proof.Machine.execI2cTransactionEnd c result acked read s
  | .smbusTimeout c acked read => Sys2Proof.Machine.execSmbusTimeout c acked read s
  | .i2cBusClear c => Sys2Proof.Machine.execI2cBusClear c s
  | .ppsOutStart c => Sys2Proof.Machine.execPpsOutStart c s
  | .ppsOutEnd c => Sys2Proof.Machine.execPpsOutEnd c s
  -- Host port
  | .perstDeassert => Sys2Proof.Machine.execPerstDeassert s
  | .cfgRetryTimeout => Sys2Proof.Machine.execCfgRetryTimeout s
  | .hostConfigRequest q => Sys2Proof.Machine.execHostConfigRequest q s
  | .hostMemoryRead bar off len bad => Sys2Proof.Machine.execHostMemoryRead bar off len bad s
  | .hostMemoryWrite bar off data bad => Sys2Proof.Machine.execHostMemoryWrite bar off data bad s
  | .msixUnmask v => Sys2Proof.Machine.execMsixUnmask v s
  | .hostReadAbandon num => Sys2Proof.Machine.execHostReadAbandon num s
  | .hostReset cause => Sys2Proof.Machine.execHostReset cause s
  | .hostLinkUp speed width => Sys2Proof.Machine.execHostLinkUp speed width s
  | .hostCompletionReceive c off r => Sys2Proof.Machine.execHostCompletionReceive c off r s
  | .hostReadTimeout c off => Sys2Proof.Machine.execHostReadTimeout c off s
  -- Event queues
  | .qCfgWrite n v => Sys2Proof.Machine.execQCfgWrite n v s
  | .qCiWrite n v => Sys2Proof.Machine.execQCiWrite n v s
  | .evqHoldoffExpiry n => Sys2Proof.Machine.execEvqHoldoffExpiry n s
  | .postCmd v => Sys2Proof.Machine.execPostCmd v s
  -- DMA
  | .dcRunWrite c v => Sys2Proof.Machine.execDcRunWrite c v s
  | .dcTailWrite c v => Sys2Proof.Machine.execDcTailWrite c v s
  | .dcReset c => Sys2Proof.Machine.execDcReset c s
  | .dmaDescriptorExecute c fetched => Sys2Proof.Machine.execDmaDescriptorExecute c fetched s
  | .dmaDescriptorComplete c => Sys2Proof.Machine.execDmaDescriptorComplete c s
  -- Interrupts
  | .icuClaim t a => Sys2Proof.Machine.execIcuClaim t a s
  | .icuComplete t a v => Sys2Proof.Machine.execIcuComplete t a v s
  | .thresholdWrite t a v => Sys2Proof.Machine.execThresholdWrite t a v s
  | .swset t a v => Sys2Proof.Machine.execSwset t a v s
  | .srcCfgWrite k a v => Sys2Proof.Machine.execSrcCfgWrite k a v s
  | .privCfgWrite t j a v => Sys2Proof.Machine.execPrivCfgWrite t j a v s
  | .ipi t a v => Sys2Proof.Machine.execIpi t a v s
  | .tmrWrite t k a v => Sys2Proof.Machine.execTmrWrite t k a v s
  | .timerExpiry t k => Sys2Proof.Machine.execTimerExpiry t k s
  | .holdoffEnd g => Sys2Proof.Machine.execHoldoffEnd g s
  -- Cores, watchdogs and memories
  | .lockstepMiscompare n pc output => Sys2Proof.Machine.execLockstepMiscompare n pc output s
  | .pairAutoRestart n => Sys2Proof.Machine.execPairAutoRestart n s
  | .lockstepFaultForget n => Sys2Proof.Machine.execLockstepFaultForget n s
  | .watchdogKick n v pc => Sys2Proof.Machine.execWatchdogKick n v pc s
  | .watchdogWarning n => Sys2Proof.Machine.execWatchdogWarning n s
  | .watchdogExpiry n pc => Sys2Proof.Machine.execWatchdogExpiry n pc s
  | .memoryScrub m ecc => Sys2Proof.Machine.execMemoryScrub m ecc s
  | .eccReportRepost page mem uncorr => Sys2Proof.Machine.execEccReportRepost page mem uncorr s
  | .coreCtrlReset v => Sys2Proof.Machine.execCoreCtrlReset v s
  | .coreCtrlRun v => Sys2Proof.Machine.execCoreCtrlRun v s
  -- Start, trials and services
  | .nodeStart octal => Sys2Proof.Machine.execNodeStart octal s
  | .svcCommit slot => Sys2Proof.Machine.execSvcCommit slot s
  | .svcMigrateCommit slot => Sys2Proof.Machine.execSvcMigrateCommit slot s
  | .stage slot => Sys2Proof.Machine.execStage slot s
  | .svcReboot slot => Sys2Proof.Machine.execSvcReboot slot s
  | .readRecord slot => Sys2Proof.Machine.execReadRecord slot s
  | .writeRecord slot => Sys2Proof.Machine.execWriteRecord slot s
  | .migrateDone slot => Sys2Proof.Machine.execMigrateDone slot s
  | .bootCommitField => Sys2Proof.Machine.execBootCommitField s
  | .bootCommitKeeper => Sys2Proof.Machine.execBootCommitKeeper s
  | .bootMigrateCommit => Sys2Proof.Machine.execBootMigrateCommit s
  | .trialTimeLimit => Sys2Proof.Machine.execTrialTimeLimit s
  -- Flash
  | .ospiRead fail => Sys2Proof.Machine.execOspiRead fail s
  | .program fail => Sys2Proof.Machine.execProgram fail s
  | .erase4k fail => Sys2Proof.Machine.execErase4k fail s
  | .erase64k fail => Sys2Proof.Machine.execErase64k fail s
  | .readSfdp fail => Sys2Proof.Machine.execReadSfdp fail s
  | .protWrite n a v => Sys2Proof.Machine.execProtWrite n a v s
  -- Security
  | .revoke arg otpFail => Sys2Proof.Machine.execRevoke arg otpFail s
  | .advance arg otpFail => Sys2Proof.Machine.execAdvance arg otpFail s
  | .blowFuse arg otpFail => Sys2Proof.Machine.execBlowFuse arg otpFail s
  | .shaInit => Sys2Proof.Machine.execShaInit s
  | .shaUpdate arg => Sys2Proof.Machine.execShaUpdate arg s
  | .shaFinal => Sys2Proof.Machine.execShaFinal s
  | .verify => Sys2Proof.Machine.execVerify s
  -- Power path and supplies
  | .feedVoltageChange b mv vbus => Sys2Proof.Machine.execFeedVoltageChange b mv vbus s
  | .feedUvMark b => Sys2Proof.Machine.execFeedUvMark b s
  | .feedSettleExpiry b => Sys2Proof.Machine.execFeedSettleExpiry b s
  | .reverseCurrent b diff => Sys2Proof.Machine.execReverseCurrent b diff s
  | .seatPinChange b asserted => Sys2Proof.Machine.execSeatPinChange b asserted s
  | .seatDebounceComplete => Sys2Proof.Machine.execSeatDebounceComplete s
  | .seatReleaseTimeout => Sys2Proof.Machine.execSeatReleaseTimeout s
  | .rampStart => Sys2Proof.Machine.execRampStart s
  | .rampComplete => Sys2Proof.Machine.execRampComplete s
  | .limitTimeout shunt => Sys2Proof.Machine.execLimitTimeout shunt s
  | .fastTrip shunt vout => Sys2Proof.Machine.execFastTrip shunt vout s
  | .thermalModelStep vbus vout shuntUv => Sys2Proof.Machine.execThermalModelStep vbus vout shuntUv s
  | .tsMeasure t => Sys2Proof.Machine.execTsMeasure t s
  | .retryTimerExpiry => Sys2Proof.Machine.execRetryTimerExpiry s
  | .retryForget => Sys2Proof.Machine.execRetryForget s
  | .pwrStart => Sys2Proof.Machine.execPwrStart s
  | .pwrStop => Sys2Proof.Machine.execPwrStop s
  | .unlatch => Sys2Proof.Machine.execUnlatch s
  | .dyingGaspDecision us => Sys2Proof.Machine.execDyingGaspDecision us s
  | .dyingGaspEnd => Sys2Proof.Machine.execDyingGaspEnd s
  | .railStepEnable => Sys2Proof.Machine.execRailStepEnable s
  | .railStepDisable => Sys2Proof.Machine.execRailStepDisable s
  | .railPgChange r level => Sys2Proof.Machine.execRailPgChange r level s
  | .pgTimeout r => Sys2Proof.Machine.execPgTimeout r s
  | .pgLost r => Sys2Proof.Machine.execPgLost r s
  | .adcConversion c code => Sys2Proof.Machine.execAdcConversion c code s
  | .adcArmTimeout c => Sys2Proof.Machine.execAdcArmTimeout c s
  -- Clocks, power states and resets
  | .clockMonitorFail n hz => Sys2Proof.Machine.execClockMonitorFail n hz s
  | .clockMonitorClear n hz => Sys2Proof.Machine.execClockMonitorClear n hz s
  | .pllLockLost p hz => Sys2Proof.Machine.execPllLockLost p hz s
  | .pllRelock p hz => Sys2Proof.Machine.execPllRelock p hz s
  | .stateReqActive a => Sys2Proof.Machine.execStateReqActive a s
  | .stateReqFallow a => Sys2Proof.Machine.execStateReqFallow a s
  | .stateReqDormant a => Sys2Proof.Machine.execStateReqDormant a s
  | .fallowAutoWake access => Sys2Proof.Machine.execFallowAutoWake access s
  | .dormantWake w => Sys2Proof.Machine.execDormantWake w s
  | .aoPor => Sys2Proof.Machine.execAoPor s
  | .vddAoLoss => Sys2Proof.Machine.execVddAoLoss s
  | .hubDiePowerLoss => Sys2Proof.Machine.execHubDiePowerLoss s
  | .rstNAssert => Sys2Proof.Machine.execRstNAssert s
  | .reboot a v => Sys2Proof.Machine.execReboot a v s
  | .strapSample v => Sys2Proof.Machine.execStrapSample v s
  -- Further rows: time counter edges, PTP, engines, PLK and streams
  | .tclkEdge => Sys2Proof.Machine.execTclkEdge s
  | .xt32Edge => Sys2Proof.Machine.execXt32Edge s
  | .followUpReceive => Sys2Proof.Machine.execFollowUpReceive s
  | .illegalInstruction c d => Sys2Proof.Machine.execIllegalInstruction c d s
  | .engineFetchEcc c d ecc => Sys2Proof.Machine.execEngineFetchEcc c d ecc s
  | .plkMessageRejected m => Sys2Proof.Machine.execPlkMessageRejected m s
  | .plkLaneAlignment lane0 lane1 => Sys2Proof.Machine.execPlkLaneAlignment lane0 lane1 s
  | .streamEntryIdleExpiry dst => Sys2Proof.Machine.execStreamEntryIdleExpiry dst s

end Sys2Proof.Machine
end

