-- ==== Sys2Proof/WellFormed.lean ====
section
/-! DEFINITION. Well-formed commands: what the types of a command's operands leave open and the hub's world does not spell. The numbers
of pages, channels, lines, tiles, ports, windows, entries, tags and registers are bounded by their types. -/

namespace Sys2Proof

/-- A time with less than a second of nanoseconds (R49). -/
def TimePoint.wf (t : TimePoint) : Bool := decide (t.ns < 1000000000)

/-- A frame on a link has its two addresses and its EtherType (R230). -/
def WireFrame.wf (f : WireFrame) : Bool := decide (14 ≤ f.bytes.length)

/-- A CAN frame carries at most 64 data bytes (R374). -/
def CanFrame.wf (f : CanFrame) : Bool := decide (f.data.length ≤ 64)

/-- An access writes 1 to 256 bytes (R28, R306). -/
def dataWf (l : List Byte) : Bool := decide (1 ≤ l.length) && decide (l.length ≤ 256)

/-- A write by the node-local map carries data. -/
def RegTarget.wf : RegTarget → Bool
  | .bus _ _ data => dataWf data
  | .window _ _ _ _ => true

/-- A request's data are as long as its kind and its length say (R306, R308). -/
def XReq.wf (q : XReq) : Bool :=
  match q.kind with
  | .read => decide (q.data.length = 0)
  | .write => decide (q.data.length = q.len)
  | .fetchAdd32 => decide (q.data.length = 4)
  | .fetchAdd64 => decide (q.data.length = 8)
  | .cas32 => decide (q.data.length = 8)
  | .cas64 => decide (q.data.length = 16)
  | .message => decide (q.data.length = 4)

/-- A host completion carries at most 256 bytes (R416). -/
def HostCpl.wf : HostCpl → Bool
  | .data b => decide (b.length ≤ 256)
  | .failed => true

/-- A command that the world outside the hub can give it. -/
def Instr.wf : Instr → Bool
  | .registerWrite t => t.wf
  | .ppsPulse _ edge _ => edge.time.wf
  | .irigFrame _ _ t _ => t.wf
  | .frameReceive _ w => w.wf
  | .canFrameReceived _ f t => f.wf && t.wf
  | .canArbitrationStart _ t => t.wf
  | .uartCharReceive _ _ t _ => t.wf
  | .requestIssue q _ => q.wf
  | .hostMemoryWrite _ _ data _ => dataWf data
  | .dmaDescriptorExecute _ c => c.wf
  | .hostCompletionReceive _ _ c => c.wf
  | _ => true

end Sys2Proof
end

