-- ==== Sys2Proof/Safety.lean ====
section
/-! DEFINITION. What statements are made of: the invariant that every step keeps, what the one-time programmable memory may do, which
parts of the state each command may touch, and the short names for effects that many commands share. -/

namespace Sys2Proof.Machine

/-- OWN_OUT is driven in HOLDER, and in HANDING by the former holder until T. -/
def LeaseSt.ok (l : LeaseSt) : Prop :=
  l.ownOut = (decide (l.st = .holder) || (decide (l.st = .handing) && l.hand.any fun h => h.wasHolder && h.acted.isNone))

/-- The invariant of the block: the counter's nanoseconds stay below a second (R49), the node-local memory and the registers keep
their canonical forms, and OWN_OUT follows the state of the lease (R333, R352, R357). -/
structure State.Inv (s : State) : Prop where
  ns : s.time.ns < 1000000000
  mem : Memory.wf s.mem = true
  regs : Tab.wf regReset s.regs = true
  lease : s.lease.ok

/-- The one-time programmable memory only advances: no revocation and no fuse is undone and the rollback version never falls
(R455, R459, R464). -/
structure OtpLe (a b : OtpSt) : Prop where
  revoked : a.revoked &&& ~~~ b.revoked = 0
  rollback : a.rollback ≤ b.rollback
  fuses : a.fuses &&& ~~~ b.fuses = 0

/-- The parts of the state that a frame names: each field but the queue of commands, and groups of registers by page; `regAny`
stands for every register, `evqCfg` for the places of the event queues. -/
inductive Part where
  | frozen | heldIrq | mbx | ind | stalls | checks | gathers | ecc | recSeq | time | mem | evq | msix | msixPba
  | msixEnable | msixFuncMask | hostTx | icu | sram | lines | tiles | stampOrder | stampsHeld | ctrs | fifos | lease
  | plk | wins | winOpen | winEdges | drill | launches | rules | express | normal | eval | sigOps | pubs | pubOpen
  | hbAt | subs | net | ring | power | pulseDone | engs | starts | ptp | sources | serial | cans | xbr | host | dma
  | cores | tcm | stwSram | flash | boot | otp | sha | pwr | clk | reply | tclks | freeTick | regIrq | regMbx
  | regCtrl | regStatus | regInd | regAdc | regBoot | regBuf | regCan | regCh | regClk | regDdr | regDma | regDrl
  | regEvq | regFp | regFwl | regHost | regIcu | regIcup | regLease | regOspi | regPlk | regPtp | regPwr | regRfx
  | regRing | regRst | regSec | regSeq | regSig | regStw | regSwc | regTile | regTime | regWin | regXbr | evqCfg
  | regAny
deriving DecidableEq, Repr

/-! Banks of registers: one register; those of every number; those of the numbers below a bound; and with two numbers, of which the
second, or both, may be bounded. -/

abbrev Bank.one (r k : Nat) : Prop := k = r
abbrev Bank.all (f : Nat → Nat) (k : Nat) : Prop := ∃ i, k = f i
abbrev Bank.below (b : Nat) (f : Nat → Nat) (k : Nat) : Prop := ∃ i, i < b ∧ k = f i
abbrev Bank.all2 (f : Nat → Nat → Nat) (k : Nat) : Prop := ∃ i j, k = f i j
abbrev Bank.below2 (b : Nat) (f : Nat → Nat → Nat) (k : Nat) : Prop := ∃ i j, j < b ∧ k = f i j
abbrev Bank.grid (a b : Nat) (f : Nat → Nat → Nat) (k : Nat) : Prop := ∃ i j, i < a ∧ j < b ∧ k = f i j

/-- The registers of a group that a command may change, bank by bank. -/
def Part.banks : Part → List (Nat → Prop)
  | .regIrq =>
    [Bank.all Reg.irqPend]
  | .regMbx =>
    [Bank.below2 4 Reg.mbxD, Bank.all Reg.mbxFlag]
  | .regCtrl =>
    [Bank.all Reg.ctrl]
  | .regStatus =>
    [Bank.all Reg.status]
  | .regInd =>
    [Bank.all Reg.indAddr]
  | .regAdc =>
    [Bank.below 16 Reg.adcChVal, Bank.below 16 Reg.adcCntFail]
  | .regBoot =>
    [Bank.one Reg.bootAo, Bank.one Reg.bootFieldVersion, Bank.one Reg.bootKeeperVersion, Bank.one Reg.bootStatus]
  | .regBuf =>
    [Bank.below 8 Reg.bufCntDropFloor, Bank.below 8 Reg.bufCntDropShare, Bank.one Reg.bufCntEccDiscard,
     Bank.below 8 Reg.bufCntPushed, Bank.below 8 Reg.bufCntSpilled, Bank.one Reg.bufCntStoreDrop,
     Bank.one Reg.bufFloors, Bank.one Reg.bufSpill, Bank.one Reg.bufStoreBase, Bank.one Reg.bufStorePeak,
     Bank.one Reg.bufStoreSize]
  | .regCan =>
    [Bank.all Reg.canCntAck, Bank.all Reg.canCntArbLost, Bank.all Reg.canCntBit, Bank.all Reg.canCntBusOff,
     Bank.all Reg.canCntCrc, Bank.all Reg.canCntFiltered, Bank.all Reg.canCntForm, Bank.all Reg.canCntMbRefused,
     Bank.all Reg.canCntRxOk, Bank.all Reg.canCntRxOverrun, Bank.all Reg.canCntStuff, Bank.all Reg.canCntTxOk,
     Bank.all Reg.canCntTxRewind, Bank.all Reg.canLastErr, Bank.all Reg.canTdcStatus, Bank.all Reg.canTxdone,
     Bank.all Reg.canTxfail, Bank.all Reg.canTxpend, Bank.all2 fun n a => indKey (canPage n) a]
  | .regCh =>
    [Bank.all Reg.chCntBreak, Bank.all Reg.chCntDriveConflict, Bank.all Reg.chCntEdgeRate, Bank.all Reg.chCntEngStall,
     Bank.all Reg.chCntFraming, Bank.all Reg.chCntGapErr, Bank.all Reg.chCntI2cFail, Bank.all Reg.chCntIdle,
     Bank.all Reg.chCntIrigBad, Bank.all Reg.chCntMaxWidth, Bank.all Reg.chCntMinWidth, Bank.all Reg.chCntParity,
     Bank.all Reg.chCntPpsBad, Bank.all Reg.chCntProgRefused, Bank.all Reg.chCntProtRefused,
     Bank.all Reg.chCntReadback, Bank.all Reg.chCntRxBad, Bank.all Reg.chCntRxDe, Bank.all Reg.chCntRxDropped,
     Bank.all Reg.chCntRxOverrun, Bank.all Reg.chCntRxRewind, Bank.all Reg.chCntRxUnderrun,
     Bank.all Reg.chCntSmbTimeout, Bank.all Reg.chCntSpiPartial, Bank.all Reg.chCntStartIgnored,
     Bank.all Reg.chCntTimeLate, Bank.all Reg.chCntTxBad, Bank.all Reg.chCntTxDropped, Bank.all Reg.chCntTxOverrun,
     Bank.all Reg.chCntTxRewind, Bank.all Reg.chCntTxUnderrun, Bank.below2 6 Reg.chCtrCap, Bank.all Reg.chCtrCount,
     Bank.all Reg.chEngCfg, Bank.all Reg.chEngEntry, Bank.all Reg.chEngMarkSec, Bank.all Reg.chEngProgAddr,
     Bank.all Reg.chEngSeg, Bank.all Reg.chEngWrap, Bank.all Reg.chFunc]
  | .regClk =>
    [Bank.one Reg.clkCntPcieRefclk, Bank.one Reg.clkCntPll, Bank.one Reg.clkCntRefclkSd, Bank.one Reg.clkCntTclk,
     Bank.one Reg.clkCntTileLock, Bank.one Reg.clkCntXt32, Bank.one Reg.clkStateReq]
  | .regDdr =>
    [Bank.one Reg.ddrCntEccCorr, Bank.one Reg.ddrCntEccUncorr, Bank.one Reg.ddrEccAddrHi, Bank.one Reg.ddrEccAddrLo]
  | .regDma =>
    [Bank.all Reg.dmaDcBytes, Bank.all Reg.dmaDcCtrl, Bank.all Reg.dmaDcHead, Bank.all Reg.dmaDcStatus,
     Bank.all Reg.dmaDcTail]
  | .regDrl =>
    [Bank.one Reg.drlCntFired, Bank.one Reg.drlCntLateRun, Bank.one Reg.drlCntLateSkip, Bank.one Reg.drlCntRefused,
     Bank.one Reg.drlCntUnlocked]
  | .regEvq =>
    [Bank.one Reg.evqCntBadCi, Bank.below 16 Reg.evqCntDrop, Bank.one Reg.evqCntUnrouted, Bank.below 16 Reg.evqQCi]
  | .regFp =>
    [Bank.all Reg.fpCntDegrade, Bank.all Reg.fpCntDup, Bank.all Reg.fpCntDupEvict, Bank.all Reg.fpCntDupResync,
     Bank.all Reg.fpCntHopExpired, Bank.all Reg.fpCntLinkDown, Bank.all Reg.fpCntLinkFail, Bank.all Reg.fpCntPreempt,
     Bank.all Reg.fpCntRxFcs, Bank.all Reg.fpCntRxForeign, Bank.all Reg.fpCntRxFrames, Bank.all Reg.fpCntRxHeader,
     Bank.all Reg.fpCntRxLength, Bank.all Reg.fpCntRxPath, Bank.all Reg.fpCntRxStomp, Bank.all Reg.fpCntSeqStale,
     Bank.all Reg.fpCntStripped, Bank.all Reg.fpCntTxDiscardDown, Bank.all Reg.fpCntTxFrames,
     Bank.all Reg.fpCntTxStomp, Bank.all Reg.fpPrbsErr, Bank.all Reg.fpRxeq, Bank.all Reg.fpTxeq]
  | .regFwl =>
    [Bank.one Reg.fwlCntDeny, Bank.one Reg.fwlLastAddr, Bank.one Reg.fwlLastDeny]
  | .regHost =>
    [Bank.one Reg.hostCfg, Bank.one Reg.hostCntAbandon, Bank.one Reg.hostCntBadSize, Bank.one Reg.hostCntBadTlp,
     Bank.one Reg.hostCntCplTimeout, Bank.one Reg.hostCntHostReset, Bank.one Reg.hostCntRdErr,
     Bank.one Reg.hostRdErrAddrHi, Bank.one Reg.hostRdErrAddrLo, Bank.one Reg.hostRdErrStatus,
     Bank.below 16 Reg.hostWinBase, Bank.below 16 Reg.hostWinCtrl]
  | .regIcu =>
    [Bank.one Reg.icuCntMismatch, Bank.one Reg.icuCntRefused, Bank.one Reg.icuCntSpurious,
     Bank.one Reg.icuCntStackFull, Bank.one Reg.icuHostThreshold, Bank.below 449 Reg.icuSrcCfg]
  | .regIcup =>
    [Bank.below 8 Reg.icupCntMismatch, Bank.below 8 Reg.icupCntSpurious, Bank.below 8 Reg.icupCntStackFull,
     Bank.grid 8 64 Reg.icupPrivCfg, Bank.below 8 Reg.icupThreshold, Bank.grid 8 64 Reg.icupTmr]
  | .regLease =>
    [Bank.one Reg.leaseCntAcquire, Bank.one Reg.leaseCntAmbiguous, Bank.one Reg.leaseCntCompareFail,
     Bank.one Reg.leaseCntConflict, Bank.one Reg.leaseCntHandover, Bank.one Reg.leaseCntHandoverAbort,
     Bank.one Reg.leaseCntLost, Bank.one Reg.leaseFault, Bank.one Reg.leaseTiming]
  | .regOspi =>
    [Bank.below 64 Reg.ospiBuffer, Bank.one Reg.ospiClock, Bank.below 4 Reg.ospiProt]
  | .regPlk =>
    [Bank.one Reg.plkCntCrc, Bank.one Reg.plkCntLinkDown, Bank.one Reg.plkCntLinkFail, Bank.one Reg.plkCntMalformed,
     Bank.one Reg.plkCntRxMsg, Bank.one Reg.plkCntTxMsg, Bank.one Reg.plkLatency]
  | .regPtp =>
    [Bank.one Reg.ptpCntAnnTimeout, Bank.one Reg.ptpCntAnnounce, Bank.one Reg.ptpCntBad, Bank.one Reg.ptpCntPdelayFail,
     Bank.one Reg.ptpCntSync, Bank.one Reg.ptpCurGmHi, Bank.one Reg.ptpCurGmLo, Bank.one Reg.ptpGmInfo,
     Bank.below 4 Reg.ptpPdelay, Bank.one Reg.ptpUtc]
  | .regPwr =>
    [Bank.one Reg.pwrCntDying, Bank.one Reg.pwrCntFastTrip, Bank.one Reg.pwrCntFeedA, Bank.one Reg.pwrCntFeedB,
     Bank.one Reg.pwrCntLatched, Bank.one Reg.pwrCntLimit, Bank.one Reg.pwrCntRail, Bank.one Reg.pwrCntRetry,
     Bank.one Reg.pwrCntReverseA, Bank.one Reg.pwrCntReverseB, Bank.one Reg.pwrCntSeatLoss,
     Bank.one Reg.pwrCntShortRamp, Bank.one Reg.pwrCntThermal, Bank.one Reg.pwrCntTsFail, Bank.one Reg.pwrLastFault]
  | .regRfx =>
    [Bank.one Reg.rfxCntEval, Bank.one Reg.rfxCntFired, Bank.one Reg.rfxCntRefused, Bank.one Reg.rfxQueuePeak,
     Bank.one Reg.rfxSwf]
  | .regRing =>
    [Bank.one Reg.ringCntBreak, Bank.one Reg.ringCntConflict, Bank.one Reg.ringCntHlEvict, Bank.one Reg.ringCntHsrDup,
     Bank.one Reg.ringCntMgmtBad, Bank.one Reg.ringCntPrpDup, Bank.one Reg.ringCntSilent, Bank.one Reg.ringCntTurnBack,
     Bank.one Reg.ringCntTurnDup, Bank.one Reg.ringCntTurnStrip, Bank.one Reg.ringCntTurned, Bank.one Reg.ringFarId,
     Bank.one Reg.ringIdCfg, Bank.below 4 Reg.ringNeighbour, Bank.one Reg.ringNodeId, Bank.one Reg.ringStrap]
  | .regRst =>
    [Bank.all Reg.rstCnt, Bank.one Reg.rstLastCause, Bank.one Reg.rstLastNs, Bank.one Reg.rstLastSec]
  | .regSec =>
    [Bank.below 64 Reg.secBuffer]
  | .regSeq =>
    [Bank.one Reg.seqCntPgLost, Bank.one Reg.seqCntPgTimeout]
  | .regSig =>
    [Bank.one Reg.sigCntApplied, Bank.one Reg.sigCntBadFrame, Bank.one Reg.sigCntOld, Bank.one Reg.sigCntStale,
     Bank.one Reg.sigCntTxChange, Bank.one Reg.sigCntTxHb, Bank.one Reg.sigCntType, Bank.one Reg.sigCntUnsub,
     Bank.one Reg.sigSubMeta]
  | .regStw =>
    [Bank.one Reg.stwCntMiscompare, Bank.one Reg.stwCntWatchdog, Bank.one Reg.stwLockstep, Bank.one Reg.stwStatus,
     Bank.below 8 Reg.stwWdtCfg]
  | .regSwc =>
    [Bank.one Reg.swcCntMirrorDrop, Bank.one Reg.swcCntMirrorTrunc, Bank.one Reg.swcCntReplDrop]
  | .regTile =>
    [Bank.all Reg.tileBankCfg, Bank.all Reg.tileCntBank, Bank.all Reg.tileCntGlitch, Bank.all Reg.tileCntStampLost,
     Bank.all Reg.tileCntWake, Bank.all Reg.tileGrpMaskHi, Bank.all Reg.tileGrpMaskLo, Bank.all Reg.tileStampCfg]
  | .regTime =>
    [Bank.one Reg.timeCntRefused, Bank.one Reg.timeCntStep, Bank.one Reg.timePendCorr, Bank.one Reg.timeRate,
     Bank.one Reg.timeRefusedHi, Bank.one Reg.timeRefusedLo, Bank.one Reg.timeStepLimit]
  | .regWin =>
    [Bank.one Reg.winCntBoundary, Bank.one Reg.winCntResult, Bank.one Reg.winCntRetrigIgn]
  | .regXbr =>
    [Bank.one Reg.xbrCcHold, Bank.one Reg.xbrCntBadReq, Bank.one Reg.xbrCntBusySent, Bank.one Reg.xbrCntCcHit,
     Bank.one Reg.xbrCntDiscardMiss, Bank.one Reg.xbrCntGapLost, Bank.one Reg.xbrCntHoldDrop,
     Bank.one Reg.xbrCntLateCpl, Bank.one Reg.xbrCntMsgDrop, Bank.one Reg.xbrCntNpIssued,
     Bank.one Reg.xbrCntPostedIssued, Bank.one Reg.xbrCntPwError, Bank.one Reg.xbrCntRetry,
     Bank.one Reg.xbrCntRetryPending, Bank.one Reg.xbrCntStranded, Bank.one Reg.xbrCntStreamStale,
     Bank.one Reg.xbrCntStreamStall, Bank.one Reg.xbrCntTagStall, Bank.one Reg.xbrCntTimeout, Bank.one Reg.xbrGapWait,
     Bank.one Reg.xbrNpTimeout, Bank.one Reg.xbrStreamAge]
  | .evqCfg =>
    [Bank.below 16 Reg.evqQBaseHi, Bank.below 16 Reg.evqQBaseLo, Bank.below 16 Reg.evqQCfg,
     Bank.below 16 Reg.evqQPiAddrHi, Bank.below 16 Reg.evqQPiAddrLo]
  | .regAny =>
    [fun _ => True]
  | _ => []

/-- Register `k` is of the group. -/
def Part.has (p : Part) (k : Nat) : Prop := ∃ f, f ∈ p.banks ∧ f k

/-- Register `k` is of a group of `P`. -/
def RegIn (P : Part → Prop) (k : Nat) : Prop := ∃ p : Part, P p ∧ p.has k

/-- The address of the written count of queue `n` (R406). -/
def State.evPiAddr (s : State) (n : Nat) : Nat :=
  let a := (s.rd (Reg.evqQPiAddrLo n)).toNat + (s.rd (Reg.evqQPiAddrHi n)).toNat * 2 ^ 32
  a - a % 4

/-- Address `a` lies in the ring of an event queue, at an entry of its size or at the entry P, or in a queue's written count. -/
def State.EvAddr (s : State) (a : Nat) : Prop :=
  ∃ n, n < 16 ∧
    ((∃ p j : Nat, j < 32 ∧ a = s.evBase n + 32 * p + j ∧ (p < s.evSize n ∨ p = (s.evQueue n).prod))
      ∨ ∃ j : Nat, j < 4 ∧ a = s.evPiAddr n + j)

/-- `t` differs from `s` at most in the parts of `P`; where `P` names neither the memory nor the places of the event queues,
every byte of memory outside the event queues is the same, and an index P stays or lies in its ring. -/
structure Frame (P : Part → Prop) (s t : State) : Prop where
  frozen : ¬ P .frozen → t.frozen = s.frozen
  heldIrq : ¬ P .heldIrq → t.heldIrq = s.heldIrq
  mbx : ¬ P .mbx → t.mbx = s.mbx
  ind : ¬ P .ind → t.ind = s.ind
  stalls : ¬ P .stalls → t.stalls = s.stalls
  checks : ¬ P .checks → t.checks = s.checks
  gathers : ¬ P .gathers → t.gathers = s.gathers
  ecc : ¬ P .ecc → t.ecc = s.ecc
  recSeq : ¬ P .recSeq → t.recSeq = s.recSeq
  time : ¬ P .time → t.time = s.time
  evq : ¬ P .evq → t.evq = s.evq
  msix : ¬ P .msix → t.msix = s.msix
  msixPba : ¬ P .msixPba → t.msixPba = s.msixPba
  msixEnable : ¬ P .msixEnable → t.msixEnable = s.msixEnable
  msixFuncMask : ¬ P .msixFuncMask → t.msixFuncMask = s.msixFuncMask
  hostTx : ¬ P .hostTx → t.hostTx = s.hostTx
  icu : ¬ P .icu → t.icu = s.icu
  sram : ¬ P .sram → t.sram = s.sram
  lines : ¬ P .lines → t.lines = s.lines
  tiles : ¬ P .tiles → t.tiles = s.tiles
  stampOrder : ¬ P .stampOrder → t.stampOrder = s.stampOrder
  stampsHeld : ¬ P .stampsHeld → t.stampsHeld = s.stampsHeld
  ctrs : ¬ P .ctrs → t.ctrs = s.ctrs
  fifos : ¬ P .fifos → t.fifos = s.fifos
  lease : ¬ P .lease → t.lease = s.lease
  plk : ¬ P .plk → t.plk = s.plk
  wins : ¬ P .wins → t.wins = s.wins
  winOpen : ¬ P .winOpen → t.winOpen = s.winOpen
  winEdges : ¬ P .winEdges → t.winEdges = s.winEdges
  drill : ¬ P .drill → t.drill = s.drill
  launches : ¬ P .launches → t.launches = s.launches
  rules : ¬ P .rules → t.rules = s.rules
  express : ¬ P .express → t.express = s.express
  normal : ¬ P .normal → t.normal = s.normal
  eval : ¬ P .eval → t.eval = s.eval
  sigOps : ¬ P .sigOps → t.sigOps = s.sigOps
  pubs : ¬ P .pubs → t.pubs = s.pubs
  pubOpen : ¬ P .pubOpen → t.pubOpen = s.pubOpen
  hbAt : ¬ P .hbAt → t.hbAt = s.hbAt
  subs : ¬ P .subs → t.subs = s.subs
  net : ¬ P .net → t.net = s.net
  ring : ¬ P .ring → t.ring = s.ring
  power : ¬ P .power → t.power = s.power
  pulseDone : ¬ P .pulseDone → t.pulseDone = s.pulseDone
  engs : ¬ P .engs → t.engs = s.engs
  starts : ¬ P .starts → t.starts = s.starts
  ptp : ¬ P .ptp → t.ptp = s.ptp
  sources : ¬ P .sources → t.sources = s.sources
  serial : ¬ P .serial → t.serial = s.serial
  cans : ¬ P .cans → t.cans = s.cans
  xbr : ¬ P .xbr → t.xbr = s.xbr
  host : ¬ P .host → t.host = s.host
  dma : ¬ P .dma → t.dma = s.dma
  cores : ¬ P .cores → t.cores = s.cores
  tcm : ¬ P .tcm → t.tcm = s.tcm
  stwSram : ¬ P .stwSram → t.stwSram = s.stwSram
  flash : ¬ P .flash → t.flash = s.flash
  boot : ¬ P .boot → t.boot = s.boot
  otp : ¬ P .otp → t.otp = s.otp
  sha : ¬ P .sha → t.sha = s.sha
  pwr : ¬ P .pwr → t.pwr = s.pwr
  clk : ¬ P .clk → t.clk = s.clk
  reply : ¬ P .reply → t.reply = s.reply
  tclks : ¬ P .tclks → t.tclks = s.tclks
  freeTick : ¬ P .freeTick → t.freeTick = s.freeTick
  regs : ∀ k, ¬ RegIn P k → t.rd k = s.rd k
  mem : ¬ P .mem → ¬ P .evqCfg → ¬ P .regAny → ∀ a, ¬ s.EvAddr a → t.memGet a = s.memGet a
  prods : ¬ P .mem → ¬ P .evqCfg → ¬ P .regAny →
    ∀ n, n < 16 → (t.evQueue n).prod = (s.evQueue n).prod ∨ (t.evQueue n).prod < s.evSize n

/-! The parts a command may touch, in groups that recur. -/

/-- Posting a record or raising an interrupt: what pages hold back, the sequence of records, the event queues, the host's messages and
the interrupt unit (R39 to R45, R404, R407, R419). -/
def Part.reports : List Part := [.heldIrq, .recSeq, .evq, .msixPba, .hostTx, .icu, .regIrq, .regEvq]

/-- The lease and the partner link. -/
def Part.leaseUnit : List Part := [.lease, .plk, .regLease, .regPlk]

/-- The FIFOs of the channels and of the CAN controllers with their words. -/
def Part.fifoUnit : List Part := [.gathers, .sram, .fifos, .regCan, .regCh]

/-- The rules and their queues. -/
def Part.ruleUnit : List Part := [.rules, .express, .normal, .regRfx]

/-- The switch, its links and its counters. -/
def Part.netUnit : List Part := [.net, .regBuf, .regFp]

/-- The mailbox of a page: the command carried out and the registers of its results. -/
def Part.mailbox : List Part := [.mbx, .regMbx]

/-- Every part. -/
def Part.all : List Part :=
  [.frozen, .heldIrq, .mbx, .ind, .stalls, .checks, .gathers, .ecc, .recSeq, .time, .mem, .evq, .msix, .msixPba,
   .msixEnable, .msixFuncMask, .hostTx, .icu, .sram, .lines, .tiles, .stampOrder, .stampsHeld, .ctrs, .fifos, .lease,
   .plk, .wins, .winOpen, .winEdges, .drill, .launches, .rules, .express, .normal, .eval, .sigOps, .pubs, .pubOpen,
   .hbAt, .subs, .net, .ring, .power, .pulseDone, .engs, .starts, .ptp, .sources, .serial, .cans, .xbr, .host, .dma,
   .cores, .tcm, .stwSram, .flash, .boot, .otp, .sha, .pwr, .clk, .reply, .tclks, .freeTick, .regIrq, .regMbx, .regCtrl,
   .regStatus, .regInd, .regAdc, .regBoot, .regBuf, .regCan, .regCh, .regClk, .regDdr, .regDma, .regDrl, .regEvq, .regFp,
   .regFwl, .regHost, .regIcu, .regIcup, .regLease, .regOspi, .regPlk, .regPtp, .regPwr, .regRfx, .regRing, .regRst,
   .regSec, .regSeq, .regSig, .regStw, .regSwc, .regTile, .regTime, .regWin, .regXbr, .evqCfg, .regAny]

/-- The parts of the state that a command may touch, beside taking itself from the queue. A command that may carry out any access, reset
a unit or reset the hub die may touch every part. -/
def touches : Instr → List Part
  | .registerWrite .. => Part.all
  | .mbxNop .. => Part.all
  | .mbxUnknownOp .. => Part.all
  | .mbxWriteWhileBusy .. => Part.all
  | .mbxComplete .. => Part.mailbox ++ [.heldIrq, .msixPba, .hostTx, .icu, .regIrq]
  | .indAddrWrite .. => Part.all
  | .indDataRead .. => Part.reports ++ [.frozen, .ind, .stalls, .gathers, .tiles, .fifos, .power, .xbr, .cores, .reply,
      .regInd, .regCan, .regCh, .regFp, .regFwl, .regIcu, .regIcup, .regTile]
  | .indDataWrite .. => Part.all
  | .indAccessComplete .. => Part.all
  | .indTimeout .. => Part.reports ++ Part.netUnit ++ [.ind, .xbr, .cores, .reply, .regInd, .regSwc, .regXbr]
  | .softReset .. => Part.all
  | .freezeWrite .. => Part.all
  | .enableWrite .. => Part.all
  | .irqPendWrite .. => Part.all
  | .counterClear .. => Part.all
  | .qualFailRepost .. => Part.reports ++ [.checks, .gathers, .pwr]
  | .readTime .. => [.time, .regMbx]
  | .adjPhase .. => [.time, .regMbx]
  | .adjRate .. => [.time, .regMbx]
  | .stepForce => [.time, .regMbx]
  | .setTime => [.time, .regMbx]
  | .setState .. => [.time, .regMbx]
  | .slewStep => Part.reports ++ Part.ruleUnit ++ Part.netUnit ++ [.mbx, .checks, .time, .lines, .tiles, .ctrs, .lease,
      .wins, .drill, .sigOps, .pubs, .pubOpen, .subs, .ring, .pwr, .tclks, .regCh, .regDrl, .regRing, .regSig, .regSwc,
      .regTime, .regWin]
  | .uncGrowthTick => Part.reports ++ [.time]
  | .syncReceive => Part.reports ++ [.time, .net, .ptp, .regPtp]
  | .announceReceive => Part.reports ++ [.net, .ptp, .regPtp]
  | .announceReceiptTimeout => Part.reports ++ [.time, .ptp, .regPtp]
  | .syncTimeout => Part.reports ++ [.time, .ptp]
  | .syncSend .. => Part.reports ++ Part.netUnit ++ [.ptp, .regPtp, .regSwc]
  | .pdelayReqSend => Part.reports ++ Part.netUnit ++ [.ptp, .regPtp, .regSwc]
  | .pdelayReqReceive => Part.reports ++ Part.netUnit ++ [.regPtp, .regSwc]
  | .pdelayRespReceive .. => [.heldIrq, .msixPba, .hostTx, .icu, .net, .ptp, .regIrq, .regPtp]
  | .ppsPulse .. => Part.reports ++ Part.fifoUnit ++ [.checks, .time, .ptp, .sources, .pwr]
  | .ppsSourceLost .. => Part.reports ++ [.time, .ptp, .sources]
  | .irigFrame .. => Part.reports ++ Part.fifoUnit ++ [.checks, .time, .ptp, .sources, .pwr]
  | .irigSourceLost .. => Part.reports ++ [.time, .ptp, .sources]
  | .lineTransition .. => Part.reports ++ Part.fifoUnit ++ Part.ruleUnit ++ [.checks, .lines, .tiles, .stampOrder, .ctrs,
      .wins, .winEdges, .pwr, .regTile, .regWin]
  | .edgeQualified .. => Part.reports ++ Part.fifoUnit ++ Part.ruleUnit ++ [.checks, .lines, .tiles, .stampOrder, .ctrs,
      .wins, .winEdges, .pwr, .regTile, .regWin]
  | .stampTransfer .. => Part.reports ++ [.sram, .lines, .tiles, .regTile]
  | .stampDataRead .. => Part.reports ++ [.frozen, .ind, .stalls, .gathers, .tiles, .fifos, .power, .xbr, .cores, .reply,
      .regInd, .regCan, .regCh, .regFp, .regFwl, .regIcu, .regIcup, .regTile]
  | .stampCfgWrite .. => [.stalls, .tiles, .reply, .regTile]
  | .stampUnderrunClear .. => [.stalls, .tiles, .reply, .regTile]
  | .loadTimes .. => Part.mailbox ++ [.wins]
  | .loadCtrl .. => Part.mailbox ++ [.wins]
  | .winArm .. => Part.mailbox ++ [.wins]
  | .winDisarm .. => Part.ruleUnit ++ Part.mailbox ++ [.wins, .winOpen, .winEdges]
  | .readTimes .. => Part.mailbox
  | .readCtrl .. => Part.mailbox
  | .trigger .. => Part.mailbox ++ [.heldIrq, .msixPba, .hostTx, .icu, .wins, .regIrq, .regWin]
  | .windowStateChange .. => Part.ruleUnit ++ [.winOpen]
  | .windowClassify .. => Part.reports ++ [.winEdges, .regWin]
  | .drlLoadTime .. => Part.mailbox ++ [.drill]
  | .drlLoadAction .. => Part.mailbox ++ [.drill]
  | .drlArm .. => Part.reports ++ Part.leaseUnit ++ Part.mailbox ++ [.ecc, .drill, .regDrl]
  | .drlDisarm .. => Part.mailbox ++ [.drill]
  | .drlReadTime .. => Part.reports ++ Part.leaseUnit ++ Part.mailbox ++ [.ecc, .drill]
  | .drlReadAction .. => Part.reports ++ Part.leaseUnit ++ Part.mailbox ++ [.ecc, .drill]
  | .drlReadState .. => Part.reports ++ Part.leaseUnit ++ Part.mailbox ++ [.ecc, .drill]
  | .drlClear .. => Part.mailbox ++ [.drill]
  | .drillPrepare .. => Part.reports ++ Part.leaseUnit ++ [.ecc, .tiles, .drill, .regTile]
  | .drillFire .. => Part.reports ++ Part.leaseUnit ++ Part.ruleUnit ++ Part.netUnit ++ [.checks, .ecc, .lines, .wins,
      .drill, .launches, .sigOps, .pubs, .pubOpen, .subs, .pulseDone, .starts, .pwr, .regDrl, .regSig, .regSwc, .regWin]
  | .pulseEnd .. => Part.reports ++ Part.leaseUnit ++ [.lines, .pulseDone]
  | .vddioWindowChange .. => [.tiles]
  | .bankCheckFail .. => Part.reports ++ Part.leaseUnit ++ [.checks, .lines, .tiles, .pwr, .regTile]
  | .bankCheckClear .. => Part.reports ++ Part.fifoUnit ++ Part.ruleUnit ++ [.checks, .lines, .tiles, .stampOrder, .ctrs,
      .wins, .winEdges, .pwr, .regTile, .regWin]
  | .bankCfgWrite .. => [.stalls, .tiles, .reply, .regTile]
  | .tileClockLock .. => Part.all
  | .tileClockLockTimeout .. => Part.reports ++ [.checks, .tiles, .pwr, .regClk, .regTile]
  | .tileClockStop .. => [.tiles]
  | .funcWrite .. => Part.reports ++ [.stalls, .tiles, .cans, .reply, .regStatus, .regCan, .regCh, .regTile]
  | .outSet .. => Part.reports ++ Part.leaseUnit ++ [.stalls, .lines, .tiles, .reply, .regCh, .regTile]
  | .outClr .. => Part.reports ++ Part.leaseUnit ++ [.stalls, .lines, .tiles, .reply, .regCh, .regTile]
  | .safeEnter .. => [.stalls, .lines, .tiles, .reply, .regTile]
  | .safeRelease .. => [.stalls, .lines, .tiles, .reply, .regTile]
  | .maxWidthExpiry .. => Part.reports ++ [.checks, .lines, .pwr, .regCh]
  | .idleExpiry .. => Part.reports ++ [.checks, .lines, .pwr, .regCh]
  | .leakTick .. => Part.reports ++ Part.fifoUnit ++ Part.ruleUnit ++ [.checks, .lines, .tiles, .stampOrder, .ctrs,
      .wins, .winEdges, .pwr, .regTile, .regWin]
  | .readbackMismatch .. => Part.reports ++ Part.leaseUnit ++ [.lines, .regCh]
  | .ctrCapture .. => Part.reports ++ Part.fifoUnit ++ [.stalls, .tiles, .ctrs, .reply, .regTile]
  | .ctrZero .. => [.stalls, .tiles, .reply, .regCh, .regTile]
  | .periodicCapture .. => Part.reports ++ Part.fifoUnit ++ [.ctrs]
  | .rxDataRead .. => Part.reports ++ [.frozen, .ind, .stalls, .gathers, .tiles, .fifos, .power, .xbr, .cores, .reply,
      .regInd, .regCan, .regCh, .regFp, .regFwl, .regIcu, .regIcup, .regTile]
  | .rxDropRest .. => [.heldIrq, .stalls, .msixPba, .hostTx, .icu, .tiles, .fifos, .reply, .regIrq, .regCan, .regCh,
      .regTile]
  | .rxFlush .. => [.heldIrq, .stalls, .msixPba, .hostTx, .icu, .tiles, .fifos, .reply, .regIrq, .regCan, .regCh, .regTile]
  | .rxUnderClr .. => [.stalls, .tiles, .fifos, .reply, .regTile]
  | .txDataWrite .. => Part.reports ++ Part.fifoUnit ++ [.stalls, .tiles, .serial, .reply, .regTile]
  | .txDropRest .. => [.heldIrq, .stalls, .msixPba, .hostTx, .icu, .tiles, .fifos, .reply, .regIrq, .regCan, .regCh,
      .regTile]
  | .txFlush .. => [.heldIrq, .stalls, .msixPba, .hostTx, .icu, .tiles, .fifos, .reply, .regIrq, .regCan, .regCh, .regTile]
  | .txUnderClr .. => [.stalls, .tiles, .fifos, .reply, .regTile]
  | .halt .. => Part.reports ++ [.engs]
  | .shiftOut .. => Part.reports ++ [.engs]
  | .shiftIn .. => Part.reports ++ [.engs]
  | .drive .. => Part.reports ++ [.tiles, .engs, .regCh]
  | .sample .. => Part.reports ++ [.engs]
  | .load .. => Part.reports ++ [.engs]
  | .branch .. => Part.reports ++ [.engs]
  | .wait .. => Part.reports ++ [.engs, .regCh]
  | .waitEnd .. => Part.reports ++ [.engs]
  | .waitTimeMark .. => Part.reports ++ [.engs, .regCh]
  | .engineMarkPrepare .. => [.tiles, .engs, .regTile]
  | .push .. => Part.reports ++ Part.fifoUnit ++ [.engs]
  | .pull .. => Part.reports ++ Part.fifoUnit ++ [.engs]
  | .stamp .. => Part.reports ++ Part.fifoUnit ++ [.engs]
  | .markSetFlag .. => Part.reports ++ [.engs]
  | .markClearFlag .. => Part.reports ++ [.engs]
  | .markPost .. => Part.reports ++ [.engs]
  | .stallEnd .. => Part.reports ++ Part.fifoUnit ++ [.engs]
  | .engStart .. => [.stalls, .tiles, .starts, .reply, .regTile]
  | .engHalt .. => Part.reports ++ [.stalls, .tiles, .engs, .reply, .regTile]
  | .engineReset .. => [.stalls, .tiles, .engs, .reply, .regTile]
  | .commitAtWrap .. => Part.reports ++ [.stalls, .tiles, .engs, .reply, .regCh, .regTile]
  | .commitImmediate .. => Part.reports ++ [.stalls, .tiles, .engs, .cores, .reply, .regCh, .regTile]
  | .commitSwap .. => Part.reports ++ [.engs, .regCh]
  | .cancelCommit .. => Part.reports ++ [.stalls, .tiles, .engs, .reply, .regTile]
  | .copyActive .. => [.stalls, .tiles, .engs, .reply, .regTile]
  | .copyDone .. => [.sram, .engs]
  | .grpStart => [.stalls, .tiles, .starts, .reply, .regTile]
  | .startEventAct .. => Part.reports ++ [.engs, .starts, .regCh]
  | .engSegWrite .. => [.stalls, .tiles, .engs, .reply, .regCh, .regTile]
  | .progDataWrite .. => [.stalls, .sram, .tiles, .reply, .regCh, .regTile]
  | .engFlagSet .. => [.stalls, .tiles, .engs, .reply, .regTile]
  | .engFlagClr .. => [.stalls, .tiles, .engs, .reply, .regTile]
  | .engMarkWrite .. => [.stalls, .tiles, .engs, .reply, .regTile]
  | .engOsrWrite .. => [.stalls, .tiles, .engs, .reply, .regTile]
  | .ruleEvaluate .. => Part.reports ++ Part.leaseUnit ++ Part.ruleUnit ++ Part.netUnit ++ [.checks, .ecc, .lines, .wins,
      .drill, .eval, .sigOps, .pubs, .pubOpen, .subs, .pwr, .regDrl, .regSig, .regSwc, .regWin]
  | .ruleTick .. => Part.ruleUnit
  | .loadTermsA .. => Part.mailbox ++ [.rules]
  | .loadTermsB .. => Part.mailbox ++ [.rules]
  | .loadAct .. => Part.mailbox ++ [.rules]
  | .rfxArm .. => Part.reports ++ Part.leaseUnit ++ Part.ruleUnit ++ Part.netUnit ++ Part.mailbox ++ [.checks, .ecc,
      .lines, .wins, .drill, .sigOps, .pubs, .pubOpen, .subs, .pwr, .freeTick, .regDrl, .regSig, .regSwc, .regWin]
  | .rfxDisarm .. => Part.mailbox ++ [.rules, .express, .normal]
  | .readTermsA .. => Part.reports ++ Part.leaseUnit ++ Part.mailbox ++ [.ecc, .rules, .express, .normal]
  | .readTermsB .. => Part.reports ++ Part.leaseUnit ++ Part.mailbox ++ [.ecc, .rules, .express, .normal]
  | .readAct .. => Part.reports ++ Part.leaseUnit ++ Part.mailbox ++ [.ecc, .rules, .express, .normal]
  | .rfxClear .. => Part.mailbox ++ [.rules]
  | .swfSet .. => Part.ruleUnit
  | .swfClr .. => Part.ruleUnit
  | .loadPub .. => Part.mailbox ++ [.pubs]
  | .setValue .. => Part.reports ++ Part.ruleUnit ++ Part.netUnit ++ Part.mailbox ++ [.checks, .wins, .sigOps, .pubs,
      .pubOpen, .subs, .pwr, .regSig, .regSwc, .regWin]
  | .readPub .. => Part.mailbox
  | .loadSub .. => Part.ruleUnit ++ Part.mailbox ++ [.sigOps, .subs]
  | .readSub .. => Part.mailbox ++ [.subs, .regSig]
  | .readSubcfg .. => Part.mailbox
  | .clearSub .. => Part.ruleUnit ++ Part.mailbox ++ [.sigOps, .subs]
  | .readPubcfg .. => Part.mailbox
  | .heartbeatScan => Part.reports ++ Part.ruleUnit ++ Part.netUnit ++ [.checks, .wins, .sigOps, .pubs, .pubOpen, .hbAt,
      .subs, .pwr, .regSig, .regSwc, .regWin]
  | .signalFrameReceive => Part.reports ++ Part.ruleUnit ++ Part.netUnit ++ [.checks, .wins, .sigOps, .pubs, .pubOpen,
      .subs, .pwr, .regSig, .regSwc, .regWin]
  | .subscriptionStale .. => Part.reports ++ Part.ruleUnit ++ [.sigOps, .subs, .regSig]
  | .frameReceive .. => Part.reports ++ Part.netUnit ++ [.checks, .ring, .pwr, .regRing, .regSwc]
  | .egressTransmitStart .. => Part.reports ++ Part.ruleUnit ++ Part.netUnit ++ [.checks, .ecc, .wins, .sigOps, .pubs,
      .pubOpen, .subs, .ptp, .pwr, .regSig, .regSwc, .regWin]
  | .frameTransmitEnd .. => Part.reports ++ Part.netUnit ++ [.ecc]
  | .preemption .. => [.net, .regFp]
  | .trainingComplete .. => Part.reports ++ Part.netUnit ++ [.ring, .regRing, .regSwc]
  | .trainingTimeout .. => Part.reports ++ Part.netUnit ++ [.checks, .ring, .pwr, .regRing, .regSwc]
  | .blockLockAcquired .. => Part.reports ++ Part.netUnit ++ [.ring, .regRing, .regSwc]
  | .lockingTimeout .. => Part.reports ++ Part.netUnit ++ [.checks, .ring, .pwr, .regRing, .regSwc]
  | .upHoldExpiry .. => Part.reports ++ [.net, .ring]
  | .linkDownCondition .. => Part.reports ++ Part.netUnit ++ [.checks, .ring, .pwr, .regRing, .regSwc]
  | .holdDownExpiry .. => [.net]
  | .dupEntryAge .. => [.net]
  | .quietPeriodEnd => [.net]
  | .fpCheckClear .. => Part.reports ++ [.checks, .pwr]
  | .prbsErrRead .. => [.reply, .regFp]
  | .idCfgWrite .. => Part.reports ++ [.ring, .regRing]
  | .farIdWrite .. => Part.reports ++ [.ring, .regRing]
  | .idActivate .. => Part.reports ++ Part.ruleUnit ++ Part.netUnit ++ [.checks, .wins, .sigOps, .pubs, .pubOpen, .subs,
      .ring, .pwr, .regRing, .regSig, .regSwc, .regWin]
  | .neighbourSend => Part.reports ++ Part.netUnit ++ [.ring, .regSwc]
  | .supervisionSend .. => Part.reports ++ Part.netUnit ++ [.ring, .regSwc]
  | .ringMgmtReceive => Part.reports ++ [.checks, .net, .ring, .pwr, .regRing]
  | .neighbourSilent .. => Part.reports ++ Part.netUnit ++ [.checks, .ring, .pwr, .regRing, .regSwc]
  | .stationTimeout .. => [.ring]
  | .supervisionMissed .. => Part.reports ++ [.ring, .regRing]
  | .hsrSupervisionSend => Part.reports ++ Part.netUnit ++ [.ring]
  | .copyWrite => Part.reports ++ Part.netUnit ++ [.gathers, .regSwc]
  | .replicationTimeout .. => [.heldIrq, .msixPba, .hostTx, .icu, .net, .regIrq, .regSwc]
  | .mirrorCopyTimeout .. => Part.reports ++ [.gathers, .net, .regSwc]
  | .pushoutRepost .. => Part.reports ++ [.net]
  | .migration .. => Part.reports ++ [.net, .regBuf]
  | .storeReadback .. => Part.reports ++ [.ecc, .net, .regBuf, .regDdr]
  | .storeCfgWrite .. => [.net, .regBuf]
  | .bufMarksWrite .. => Part.reports ++ [.net, .regBuf]
  | .ddrTrainingDone .. => [.heldIrq, .msixPba, .hostTx, .icu, .net, .regIrq, .regStatus]
  | .requestIssue .. => Part.reports ++ Part.netUnit ++ [.gathers, .xbr, .regSwc, .regXbr]
  | .tagStallEnd => Part.reports ++ Part.netUnit ++ [.xbr, .regSwc, .regXbr]
  | .transactionFrameReceive => Part.reports ++ Part.netUnit ++ [.checks, .xbr, .pwr, .regSwc, .regXbr]
  | .gapLost .. => Part.reports ++ Part.netUnit ++ [.checks, .xbr, .pwr, .regSwc, .regXbr]
  | .streamAgeExpiry .. => [.xbr]
  | .requestExecute .. => Part.all
  | .postedWriteExecute .. => Part.all
  | .messageExecute => Part.reports ++ Part.netUnit ++ [.xbr, .regSwc, .regXbr]
  | .discardReceive => Part.reports ++ Part.netUnit ++ [.xbr, .freeTick, .regSwc, .regXbr]
  | .completionReceive => Part.reports ++ Part.netUnit ++ [.gathers, .xbr, .host, .dma, .cores, .regDma, .regHost,
      .regSwc, .regXbr]
  | .retryTimer .. => Part.reports ++ Part.netUnit ++ [.xbr, .regSwc, .regXbr]
  | .busyBackoffExpiry .. => Part.reports ++ Part.netUnit ++ [.xbr, .regSwc, .regXbr]
  | .npTimeout .. => Part.reports ++ Part.netUnit ++ [.gathers, .xbr, .host, .dma, .cores, .regDma, .regHost, .regSwc,
      .regXbr]
  | .ccHoldExpiry .. => [.xbr]
  | .lostReportReceive => Part.reports ++ [.net]
  | .eventReportReceive => Part.reports ++ [.net]
  | .msgDataRead => [.xbr, .reply]
  | .msgUnderClr => [.xbr]
  | .stateReceive .. => Part.reports ++ Part.leaseUnit ++ [.checks, .pwr]
  | .releaseReceive .. => Part.reports ++ Part.leaseUnit ++ [.checks, .pwr]
  | .hoReqReceive .. => Part.reports ++ Part.leaseUnit ++ [.checks, .pwr]
  | .hoAckReceive .. => Part.reports ++ Part.leaseUnit ++ [.checks, .pwr]
  | .hoCancelReceive .. => Part.reports ++ Part.leaseUnit ++ [.checks, .pwr]
  | .echoReceive .. => Part.reports ++ Part.leaseUnit ++ [.checks, .pwr]
  | .echoReplyReceive .. => Part.reports ++ Part.leaseUnit ++ [.checks, .pwr]
  | .plkAlignTimeout => [.plk, .regPlk]
  | .plkHoldExpiry => [.plk]
  | .plkDownCondition .. => Part.reports ++ [.plk, .regPlk]
  | .partnerSilent => Part.reports ++ [.plk, .regPlk]
  | .stateSend => [.lease, .plk, .regPlk]
  | .echoSend => [.lease, .plk, .regPlk]
  | .leaseExpiry => [.lease]
  | .startingTimeout => [.lease]
  | .takeoverComplete => Part.reports ++ Part.leaseUnit ++ [.lines]
  | .selfExpiry => Part.reports ++ [.lease, .regLease]
  | .peerOwnChange .. => [.lease]
  | .leaseConflict => Part.reports ++ [.lease, .regLease]
  | .ownOutReadbackFault .. => Part.reports ++ Part.leaseUnit
  | .releaseConfirm => Part.reports ++ Part.leaseUnit ++ [.lines]
  | .compareFail => Part.reports ++ Part.leaseUnit
  | .compareClear => Part.reports ++ [.lease]
  | .faultClr .. => Part.reports ++ Part.leaseUnit
  | .faultSet .. => Part.reports ++ Part.leaseUnit
  | .revertHoldExpiry => [.lease, .plk, .regPlk]
  | .handoverTime => Part.reports ++ Part.leaseUnit ++ [.lines]
  | .handoverRetakeCheck => Part.reports ++ Part.leaseUnit ++ [.lines]
  | .timingWrite .. => [.lease, .regLease]
  | .canFrameReceived .. => Part.reports ++ Part.fifoUnit ++ [.checks, .cans, .pwr, .freeTick]
  | .canRxError .. => Part.reports ++ [.checks, .cans, .pwr, .regCan]
  | .canArbitrationStart .. => [.cans]
  | .canArbitrationLost .. => [.cans, .regCan]
  | .canTxSuccess .. => Part.reports ++ Part.fifoUnit ++ [.checks, .cans, .pwr]
  | .canTxError .. => Part.reports ++ [.checks, .fifos, .cans, .pwr, .regCan]
  | .canProtocolException .. => Part.reports ++ [.cans, .regCan]
  | .canBusIdle .. => Part.reports ++ [.cans, .regCan]
  | .canRecoveryComplete .. => Part.reports ++ [.cans, .regCan]
  | .canInitEntry .. => Part.reports ++ [.fifos, .cans, .regCan, .regCh]
  | .txreq .. => [.cans, .regCan]
  | .txcancel .. => Part.reports ++ [.cans, .regCan]
  | .txresClr .. => [.regCan]
  | .canTxDataWrite .. => Part.reports ++ Part.fifoUnit ++ [.checks, .pwr]
  | .canTxFlush .. => Part.reports ++ [.fifos, .cans]
  | .canRecover .. => Part.reports ++ [.cans, .regCan]
  | .canMbWrite .. => [.regCan]
  | .uartCharReceive .. => Part.reports ++ Part.fifoUnit ++ [.checks, .serial, .pwr]
  | .uartGapExpiry .. => Part.reports ++ Part.fifoUnit ++ [.serial]
  | .uartTxStart .. => [.fifos, .serial]
  | .uartTxEnd .. => Part.reports ++ [.gathers, .fifos, .serial, .regCan, .regCh]
  | .spiTransactionStart .. => Part.reports ++ Part.fifoUnit ++ [.serial]
  | .spiTransactionEnd .. => Part.reports ++ Part.fifoUnit ++ [.serial]
  | .spiCsAssert .. => Part.reports ++ Part.fifoUnit ++ [.serial]
  | .spiCsRelease .. => Part.reports ++ Part.fifoUnit ++ [.checks, .serial, .pwr]
  | .i2cTransactionStart .. => [.fifos, .serial]
  | .i2cTransactionEnd .. => Part.reports ++ Part.fifoUnit ++ [.checks, .serial, .pwr]
  | .smbusTimeout .. => Part.reports ++ Part.fifoUnit ++ [.checks, .serial, .pwr]
  | .i2cBusClear .. => [.stalls, .tiles, .serial, .reply, .regTile]
  | .ppsOutStart .. => [.serial]
  | .ppsOutEnd .. => [.serial]
  | .perstDeassert => [.host]
  | .cfgRetryTimeout => [.host]
  | .hostConfigRequest .. => [.msixPba, .msixEnable, .msixFuncMask, .hostTx, .host]
  | .hostMemoryRead .. => Part.reports ++ Part.netUnit ++ [.checks, .gathers, .xbr, .host, .pwr, .regHost, .regSwc, .regXbr]
  | .hostMemoryWrite .. => Part.reports ++ Part.netUnit ++ [.checks, .gathers, .msix, .xbr, .pwr, .regHost, .regSwc,
      .regXbr]
  | .msixUnmask .. => [.msix, .msixPba, .hostTx]
  | .hostReadAbandon .. => [.heldIrq, .msixPba, .hostTx, .icu, .host, .regIrq, .regHost]
  | .hostReset .. => Part.reports ++ [.mem, .msix, .msixEnable, .msixFuncMask, .xbr, .host, .dma, .regDma, .regHost,
      .evqCfg]
  | .hostLinkUp .. => Part.reports ++ [.host]
  | .hostCompletionReceive .. => Part.reports ++ Part.netUnit ++ [.gathers, .xbr, .dma, .regDma, .regSwc, .regXbr]
  | .hostReadTimeout .. => Part.reports ++ Part.netUnit ++ [.checks, .gathers, .xbr, .dma, .pwr, .regDma, .regHost,
      .regSwc, .regXbr]
  | .qCfgWrite .. => [.evq, .regEvq, .evqCfg]
  | .qCiWrite .. => Part.reports ++ [.checks, .pwr]
  | .evqHoldoffExpiry .. => [.heldIrq, .evq, .msixPba, .hostTx, .icu, .regIrq]
  | .postCmd .. => Part.reports
  | .dcRunWrite .. => [.xbr, .dma, .regDma]
  | .dcTailWrite .. => [.regDma]
  | .dcReset .. => [.xbr, .dma, .regDma]
  | .dmaDescriptorExecute .. => Part.reports ++ Part.netUnit ++ [.gathers, .xbr, .dma, .regDma, .regSwc, .regXbr]
  | .dmaDescriptorComplete .. => Part.reports ++ [.mem, .dma, .regDma]
  | .icuClaim .. => [.icu, .reply, .regIcu, .regIcup]
  | .icuComplete .. => [.msixPba, .hostTx, .icu, .regIcu, .regIcup]
  | .thresholdWrite .. => [.msixPba, .hostTx, .regIcu, .regIcup]
  | .swset .. => [.msixPba, .hostTx, .icu, .regIcu]
  | .srcCfgWrite .. => [.msixPba, .hostTx, .regIcu]
  | .privCfgWrite .. => [.regIcup]
  | .ipi .. => [.icu]
  | .tmrWrite .. => [.icu, .regIcup]
  | .timerExpiry .. => [.icu, .regIcup]
  | .holdoffEnd .. => [.msixPba, .hostTx, .icu]
  | .lockstepMiscompare .. => Part.all
  | .pairAutoRestart .. => [.cores, .tcm, .regStw]
  | .lockstepFaultForget .. => [.lease, .cores, .regLease]
  | .watchdogKick .. => Part.all
  | .watchdogWarning .. => [.icu, .cores]
  | .watchdogExpiry .. => Part.all
  | .memoryScrub .. => Part.all
  | .eccReportRepost .. => Part.reports ++ [.ecc]
  | .coreCtrlReset .. => [.cores, .regStw]
  | .coreCtrlRun .. => [.cores, .regStw]
  | .nodeStart .. => Part.all
  | .svcCommit .. => Part.reports ++ [.mem, .flash, .boot, .otp, .pwr, .regBoot]
  | .svcMigrateCommit .. => Part.reports ++ [.mem, .flash, .boot, .pwr, .regBoot]
  | .stage .. => Part.reports ++ [.mem, .flash, .boot, .pwr, .regBoot]
  | .svcReboot .. => Part.all
  | .readRecord .. => [.mem]
  | .writeRecord .. => [.mem, .flash, .boot]
  | .migrateDone .. => Part.all
  | .bootCommitField => Part.reports ++ [.flash, .boot, .otp, .pwr, .regBoot]
  | .bootCommitKeeper => Part.reports ++ [.flash, .boot, .otp, .pwr, .regBoot]
  | .bootMigrateCommit => Part.reports ++ [.flash, .boot, .pwr, .regBoot]
  | .trialTimeLimit => Part.all
  | .ospiRead .. => Part.mailbox ++ [.regOspi]
  | .program .. => Part.mailbox ++ [.flash]
  | .erase4k .. => Part.mailbox ++ [.flash]
  | .erase64k .. => Part.mailbox ++ [.flash]
  | .readSfdp .. => Part.mailbox ++ [.regOspi]
  | .protWrite .. => [.frozen, .regOspi]
  | .revoke .. => Part.mailbox ++ [.otp, .regStatus]
  | .advance .. => Part.mailbox ++ [.otp, .regStatus]
  | .blowFuse .. => Part.mailbox ++ [.otp, .regStatus]
  | .shaInit => Part.mailbox ++ [.sha]
  | .shaUpdate .. => Part.mailbox ++ [.sha]
  | .shaFinal => Part.mailbox ++ [.regSec]
  | .verify => Part.mailbox
  | .feedVoltageChange .. => Part.reports ++ [.checks, .pwr, .regPwr]
  | .feedUvMark .. => Part.reports ++ [.checks, .pwr, .regPwr]
  | .feedSettleExpiry .. => Part.reports ++ [.checks, .pwr, .regPwr]
  | .reverseCurrent .. => Part.reports ++ [.checks, .pwr, .regPwr]
  | .seatPinChange .. => [.pwr]
  | .seatDebounceComplete => Part.reports ++ [.pwr]
  | .seatReleaseTimeout => Part.reports ++ [.pwr, .regPwr]
  | .rampStart => [.pwr]
  | .rampComplete => [.pwr]
  | .limitTimeout .. => Part.reports ++ [.pwr, .regPwr]
  | .fastTrip .. => Part.reports ++ [.pwr, .regPwr]
  | .thermalModelStep .. => Part.reports ++ [.pwr, .freeTick, .regPwr]
  | .tsMeasure .. => Part.reports ++ [.checks, .pwr, .regPwr]
  | .retryTimerExpiry => [.pwr]
  | .retryForget => [.pwr]
  | .pwrStart => [.pwr]
  | .pwrStop => [.pwr]
  | .unlatch => [.pwr]
  | .dyingGaspDecision .. => Part.reports ++ Part.leaseUnit ++ Part.ruleUnit ++ Part.netUnit ++ [.checks, .lines, .wins,
      .sigOps, .pubs, .pubOpen, .subs, .pwr, .regPwr, .regSig, .regSwc, .regWin]
  | .dyingGaspEnd => [.pwr]
  | .railStepEnable => [.pwr]
  | .railStepDisable => [.pwr]
  | .railPgChange .. => Part.all
  | .pgTimeout .. => Part.reports ++ Part.leaseUnit ++ [.pwr, .regPwr, .regSeq]
  | .pgLost .. => Part.reports ++ Part.leaseUnit ++ [.pwr, .regPwr, .regSeq]
  | .adcConversion .. => Part.reports ++ Part.leaseUnit ++ [.checks, .pwr, .regAdc, .regPwr]
  | .adcArmTimeout .. => Part.reports ++ Part.leaseUnit ++ [.checks, .pwr, .regAdc, .regPwr]
  | .clockMonitorFail .. => Part.all
  | .clockMonitorClear .. => Part.reports ++ [.checks, .time, .net, .power, .pwr, .clk]
  | .pllLockLost .. => Part.all
  | .pllRelock .. => Part.reports ++ [.checks, .time, .net, .power, .pwr, .clk]
  | .stateReqActive .. => Part.all
  | .stateReqFallow .. => Part.all
  | .stateReqDormant .. => Part.all
  | .fallowAutoWake .. => [.heldIrq, .msixPba, .hostTx, .icu, .power, .regIrq]
  | .dormantWake .. => Part.all
  | .aoPor => Part.all
  | .vddAoLoss => Part.all
  | .hubDiePowerLoss => Part.all
  | .rstNAssert => Part.all
  | .reboot .. => Part.all
  | .strapSample .. => [.clk, .regRing]
  | .tclkEdge => Part.reports ++ Part.ruleUnit ++ Part.netUnit ++ [.mbx, .checks, .time, .lines, .tiles, .ctrs, .lease,
      .wins, .drill, .sigOps, .pubs, .pubOpen, .subs, .ring, .pwr, .tclks, .regCh, .regDrl, .regRing, .regSig, .regSwc,
      .regTime, .regWin]
  | .xt32Edge => Part.reports ++ [.time, .lines, .tiles, .stampOrder, .tclks, .regTile]
  | .followUpReceive => Part.reports ++ [.time, .net, .ptp, .regPtp]
  | .illegalInstruction .. => Part.reports ++ [.engs]
  | .engineFetchEcc .. => Part.reports ++ Part.leaseUnit ++ [.ecc, .engs]
  | .plkMessageRejected .. => Part.reports ++ [.checks, .plk, .pwr, .regPlk]
  | .plkLaneAlignment .. => [.plk]
  | .streamEntryIdleExpiry .. => Part.reports ++ Part.netUnit ++ [.xbr, .regSwc, .regXbr]

/-! Short names for what many statements say. -/

/-- Agent `a` reaches the registers of `page`, a page of block `b`, and need not wait: the hub die runs, the page is assigned, a page
the steward owns is reached by the steward alone, and the clock of a TILE or CH page's tile runs (R25, R27, R128, R501). -/
abbrev State.Reaches (s : State) (a : Agent) (page : Nat) (b : Block) (i : Nat) : Prop :=
  s.hubUp = true ∧ pageBlock page = some (b, i) ∧ (stewardOwned b = true → a = .steward) ∧ s.stalledTile (pageKey page 0) = none

/-- The command of the mailbox of `page` that waits for its completion answers error code `err` (0: none) and these result words. -/
abbrev State.Job (t : State) (page err : Nat) (d0 d1 d2 d3 : Option Word) : Prop :=
  Tab.get none t.mbx page = some ⟨err, d0, d1, d2, d3⟩

/-- The counter runs on TCLK: the node has power and XT32 does not keep the time (R50, R59). -/
abbrev State.OnTclk (s : State) : Prop := s.onXt32 = false ∧ s.power ≠ .off

/-- A command of the TIME mailbox is accepted: BUSY is set, it waits for the next TCLK edge, and nothing else of the time changes (R75). -/
abbrev State.TimeAccepts (s t : State) (c : TimeCmd) : Prop :=
  t.time = { s.time with cmd := some c } ∧ t.rd (Reg.mbxFlag 0x10) = 2

/-- Interrupt bit `b` of `page` is pending, or held while FREEZE = 1 (R38, R39). -/
abbrev State.Raised (t : State) (page b : Nat) : Prop :=
  bit (t.rd (Reg.irqPend page)) b = true ∨ bit (t.heldOf page) b = true

/-- The first delivered PTP message of a type that `p` accepts: of a port whose ROLE takes PTP messages, and then removed from those
that wait (R65). -/
abbrev State.NextPtp (s : State) (p : Nat → Bool) (d : Delivered) : Prop :=
  s.net.toTime.find? (fun d => p (ptpType (ptpBytes d.bytes))) = some d ∧ s.ptpRole d.port ≠ 0

/-- One servo update from the chosen master (R57, R58, R70): message `m` received at `rx`, corrected by `cf` in 2^−16 ns, over `h`
intermediate nodes. -/
abbrev State.Disciplined (s t : State) (m : List Byte) (rx : TimePoint) (cf : Int) (h : Nat) : Prop :=
  let o := (timeDiff rx (ptpStamp m) * 65536 - cf).fdiv 65536
  let a := ((s.ptp.masters.find? fun x => s.ptp.parent.any fun y => decide (y.1 = x.source)).map fun x => accuracyPs x.accuracy).getD 255000
  t.rd Reg.ptpCntSync = satInc (s.rd Reg.ptpCntSync) ∧ t.ptp.lost = false ∧ t.ptp.lastGood = s.now ∧ t.ptp.heardSync = s.tclks ∧
  t.ptp.twoStep = none ∧
  t.ptp.inRow = (if o.natAbs ≤ s.fld Reg.timeLockThresh 0 16 ∧ o.natAbs ≤ s.fld Reg.timeStepLimit 0 30 then capAt 16 (s.ptp.inRow + 1)
    else 0) ∧
  (s.timeState = 0 ∨ s.lockCount ≤ t.ptp.inRow → t.time.quality = 0 ∧ t.time.unc = 256 * lockedUnc h o a)

/-- An exchange of the peer delay of `port` is complete, its round trip less the turnaround `x` in 2^−16 ns (R67). -/
abbrev State.Measured (s t : State) (port : Fin 4) (x : Int) : Prop :=
  let l := (x.fdiv 512 :: Tab.get [] s.ptp.delays port).take 16
  setHas t.ptp.asked port = false ∧ Tab.get none t.ptp.resps port = none ∧ Tab.get [] t.ptp.delays port = l ∧
  t.rd (Reg.ptpPdelay port) = s.pdelayMean port l

/-- The hub die runs and the clock of tile `n` is locked: an access to the tile's TILE and CH pages need not wait (R128, R501). -/
abbrev State.TileReady (s : State) (n : Nat) : Prop := s.hubUp = true ∧ (s.tile n).clk = .running

/-- Entry `n`, which holds `e`, launches `lateNs` after its target, in its turn, at a time between the TCLK edge whose count stands and the
next, with its tile's clock running (R114, R116, R117). -/
abbrev State.Launches (s : State) (n : Nat) (e : DrillEnt) (lateNs : Nat) : Prop :=
  let w := timeAdd e.target lateNs
  s.time.ns < 1000000000 ∧ e.target.ns < 1000000000 ∧ e.st = .armed ∧ e.run = none ∧ s.drillReady e = true ∧
  0 ≤ timeDiff w s.now ∧ s.due w = true ∧ s.launchTurn n (fireCycle w s.now) = true

/-- The RX FIFO of unit `u`: units 0–63 are the channels, 64–79 the CAN controllers. -/
abbrev rxUnit (u : Nat) : Nat := if u < 64 then rxFifo u else canRxFifo (u - 64)

/-- The hub die runs and, for a channel's unit, so does the tile's clock: an access to the unit's page need not wait (R128). -/
abbrev State.UnitReady (s : State) (u : Nat) : Prop := s.hubUp = true ∧ (u < 64 → (s.tile (u / 8)).clk = .running)

/-- ID_CFG, or with `far` FAR_ID, is written with `v` (R258, R259, R261, R267): a valid ID ignores a write but for VALID = 0, which takes it out of
use; VALID = 1 makes it pending, its conflicts forgotten. -/
abbrev State.IdWritten (s t : State) (far : Bool) (v : Word) : Prop :=
  let key := if far then Reg.ringFarId else Reg.ringIdCfg
  let side (x : State) : RingSide := if far then x.ring.far else x.ring.home
  let w := v &&& (if far then 0x8000FFFF#32 else 0xC000FFFF#32)
  (s.flag key 31 = true → bit v 31 = true → t = s) ∧
  (s.flag key 31 = true → bit v 31 = false → (side t).active = false ∧ (side t).idPending = false ∧ (side t).st = 0 ∧ t.rd key = w ∧
    (far = false → t.nodeId = 0)) ∧
  (s.flag key 31 = false → bit v 31 = true → (side t).idPending = true ∧ (side t).withdrawn = false ∧ (side t).pendAt = s.tclks ∧
    (if far then t.ring.farConflicts else t.ring.conflicts) = [] ∧ t.rd key = w) ∧
  (s.flag key 31 = false → bit v 31 = false → t.ring = s.ring ∧ t.rd key = w)

/-- Engine `e` executes an instruction with OP `op` in the engine cycle `d` ns after the standing TCLK edge (R157, R162, R164). -/
abbrev State.Executes (s : State) (e d op : Nat) : Prop :=
  s.engNow e d = true ∧ (s.eng e).stalled = false ∧ insReserved (s.engFetch e) = false ∧ insOp (s.engFetch e) = op

/-- The PC of engine `e` past the instruction it stands at: WRAP_BOTTOM from WRAP_TOP, or on by one (R178). -/
def State.nextPc (s : State) (e : Nat) : Nat :=
  if (s.eng e).pc = bits (s.rd (Reg.chEngWrap e)) 16 10 then bits (s.rd (Reg.chEngWrap e)) 0 10 else ((s.eng e).pc + 1) % 1024

/-- Engine `e`'s PC has moved past a completed instruction (R176, R178): an address outside the segment halts the engine with SEG_FAULT;
at WRAP_TOP with a commit pending the swap follows first. -/
abbrev State.Advanced (s t : State) (e : Nat) : Prop :=
  if (s.eng e).pc = bits (s.rd (Reg.chEngWrap e)) 16 10 ∧ (s.eng e).commitPend = true then
    (t.eng e).next = .swap ∧ (t.eng e).pc = (s.eng e).pc ∧ (t.eng e).st = (s.eng e).st
  else (t.eng e).pc = s.nextPc e ∧
    (t.eng e).st = if inSeg (s.engSeg e) (s.nextPc e) then (s.eng e).st else if (s.eng e).st = 1 then 2 else (s.eng e).st

end Sys2Proof.Machine
end

