-- ==== Sys2Proof/Certificates/Slice0/Obligations.lean ====
section
/-! DEFINITION. The statements for the provers: the machine as a whole, the rules of the common layout and of the records, and family by
family what the commands do. In every statement `t` is the state after the command, and a family's statement says of each of its commands
on which states and operands it completes and with what. -/

open Sys2Proof Sys2Proof.Machine

/-- A step carries out the command at the front of the queue with the rest of the queue in place. With no command waiting the block idles:
the model's own choice (log entry 2). -/
def Obligations.StepCarriesOutTheFrontCommand : Prop :=
  (∀ (c : Instr) (rest : List Instr) (s : State), s.pending = c :: rest →
    Machine.step s = Machine.exec c { s with pending := rest }) ∧
  (∀ s : State, s.pending = [] → Machine.step s = .next s)

/-- No command stops the block, and no command changes the queue: every command of the table has its effect in every state. -/
def Obligations.EveryCommandAnswersANextState : Prop :=
  ∀ (c : Instr) (s : State), ∃ t : State, Machine.exec c s = .next t ∧ t.pending = s.pending

/-- The state after reset meets the invariant. -/
def Obligations.ResetMeetsTheInvariant : Prop := State.reset.Inv

/-- Every step keeps the invariant: the nanoseconds of the counter stay below a second, memory and registers keep their canonical forms,
and OWN_OUT is driven exactly in HOLDER and in HANDING by the former holder until T. -/
def Obligations.EveryStepKeepsTheInvariant : Prop :=
  ∀ s t : State, s.Inv → Machine.step s = .next t → t.Inv

/-- No command undoes a revocation or a fuse or lowers the rollback version, whatever the state and the resets it brings. -/
def Obligations.OneTimeMemoryOnlyAdvances : Prop :=
  ∀ s t : State, Machine.step s = .next t → OtpLe s.otp t.otp

/-- The frame of every command: it changes at most the parts that `touches` lists for it, and where the memory is not among them every
byte outside the rings and written counts of the event queues reads as before. -/
def Obligations.EveryCommandTouchesOnlyItsParts : Prop :=
  ∀ (c : Instr) (s t : State), Machine.exec c s = .next t → Frame (fun p => p ∈ touches c) s t

/-- What reset leaves: the counter at 0 in UNSYNC with source FREE and the greatest uncertainty, every line high impedance in its reset
cell, OWN_OUT low with the lease off, the node's IDs 0, no command waiting, nothing in memory, and every register at its reset value. -/
def Obligations.ResetLeavesTheResetValues : Prop :=
  let s := State.reset
  s.pending = [] ∧ s.time.sec = 0 ∧ s.time.ns = 0 ∧ s.time.frac = 0 ∧ s.timeState = 3 ∧
  s.lease.ownOut = false ∧ s.lease.st = .off ∧ s.nodeId = 0 ∧ (∀ a, s.memGet a = 0) ∧ (∀ k, s.rd k = regReset k) ∧
  (∀ k, s.line k = LineCell.init) ∧ (∀ c, s.eng c = EngSt.init (c % 8)) ∧ (∀ n, s.drl n = DrillEnt.init) ∧
  (∀ n, s.win n = WinEnt.init) ∧ (∀ n, s.rule n = Rule.init)

/-- A hub-die reset by any cause keeps the counter's time, quality and uncertainty, every line's glitch filter, levels, checks, output
latch and queue of stamps, the power-path die, the flash and the one-time memory; OWN_OUT is low, every line is in its safe state, no
pulse overlay is left, memory lists nothing, the hub runs, every register outside the always-on domain reads its reset value, and the
cause, the time and the count of the reset stand in the map of RST while every other register of the domain keeps its value. -/
def Obligations.HubDieResetKeepsTheAlwaysOnState : Prop :=
  ∀ (s : State) (cause : Nat), cause < 8 → let t := s.hubReset cause
    t.time.sec = s.time.sec ∧ t.time.ns = s.time.ns ∧ t.time.frac = s.time.frac ∧ t.time.quality = s.time.quality ∧
    t.time.unc = s.time.unc ∧ t.pwr = s.pwr ∧ t.flash = s.flash ∧ t.otp = s.otp ∧ t.lease.ownOut = false ∧
    t.mem = [] ∧ t.pending = s.pending ∧ t.power = .active ∧
    (∀ k, k < 256 → (t.line k).safe = true ∧ (t.line k).pulse = none ∧ (t.line k).cmdPulse = none ∧
      (t.line k).queue = (s.line k).queue ∧ (t.line k).filt = (s.line k).filt ∧ (t.line k).qual = (s.line k).qual ∧
      (t.line k).level = (s.line k).level ∧ (t.line k).latch = (s.line k).latch ∧ (t.line k).bucket = (s.line k).bucket ∧
      (t.line k).blocked = (s.line k).blocked ∧ (t.line k).minFail = (s.line k).minFail ∧ (t.line k).maxFail = (s.line k).maxFail ∧
      (t.line k).rateFail = (s.line k).rateFail ∧ (t.line k).idleFail = (s.line k).idleFail) ∧
    (∀ k, keptKey k = false → t.rd k = regReset k) ∧
    (∀ k, keptKey k = true → k ≠ Reg.rstLastCause → k ≠ Reg.rstLastSec → k ≠ Reg.rstLastNs → k ≠ Reg.rstCnt cause →
      t.rd k = s.rd k) ∧
    t.rd Reg.rstLastCause = w32 cause ∧ t.rd Reg.rstLastSec = s.now.sec ∧ t.rd Reg.rstLastNs = w32 s.now.ns ∧
    (0 < cause → t.rd (Reg.rstCnt cause) = satInc (s.rd (Reg.rstCnt cause)))

/-- The signed difference by which every two fabric times are compared, and what it decides. -/
def Obligations.TimesCompareByTheSignedDifference : Prop :=
  (∀ a b : TimePoint, timeDiff a b = (a.sec - b.sec).toInt * 1000000000 + ((a.ns : Int) - (b.ns : Int))) ∧
  (∀ a b : TimePoint, timeReached a b = true ↔ ¬ timeDiff a b < 0) ∧
  (∀ (t : TimePoint) (d : Int), t.ns < 1000000000 → -1000000000000000000 < d → d < 1000000000000000000 →
    timeDiff (timeAdd t d) t = d ∧ (timeAdd t d).ns < 1000000000)

/-- A counter saturates: it advances by one below its greatest value and stays there at it. -/
def Obligations.CountersSaturate : Prop :=
  ∀ (s : State) (k : Nat),
    ((s.rd k).toNat < 0xFFFFFFFF → ((s.bump k).rd k).toNat = (s.rd k).toNat + 1) ∧
    ((s.rd k).toNat = 0xFFFFFFFF → (s.bump k).rd k = s.rd k) ∧
    (∀ j, j ≠ k → (s.bump k).rd j = s.rd j) ∧
    (∀ n, ((s.bumpBy k n).rd k).toNat = min 0xFFFFFFFF ((s.rd k).toNat + n))

/-- A rising edge of an interrupt bit: the bit reads 1 in IRQ_PEND, or is held while the page is frozen; it counts in the block's request
at once, and a request that rises makes the page's source pending in the interrupt unit. -/
def Obligations.AnEdgeSetsItsInterruptBit : Prop :=
  ∀ (s : State) (page b : Nat), b < 32 → let t := s.raise page b
    (s.isFrozen page = false → t.rd (Reg.irqPend page) = s.rd (Reg.irqPend page) ||| w32 (2 ^ b)) ∧
    (s.isFrozen page = true → t.rd (Reg.irqPend page) = s.rd (Reg.irqPend page) ∧
      t.heldOf page = s.heldOf page ||| w32 (2 ^ b)) ∧
    (bit (s.rd (Reg.irqMask page)) b = false → t.request page = true) ∧
    (s.request page = false → bit (s.rd (Reg.irqMask page)) b = false → setHas t.icu.pend (page + 1) = true) ∧
    (∀ k, k ≠ Reg.irqPend page → t.rd k = s.rd k)

/-- A record of this node carries its type, reporting block, instance, severity, time, quality, node and sequence in words 0 to 3, and
each record advances the sequence by one. A record routed to an enabled queue with room is written at the entry P with the queue's phase;
P advances modulo the size and the phase toggles when P wraps to 0. A record that finds the queue's fill at its size − 1 is dropped and
counted, the queue enters OVERFLOW, and no record already queued is overwritten; while the queue stays in OVERFLOW every further record is
dropped and counted. -/
def Obligations.RecordsCarryTheirHeaderAndAreQueued : Prop :=
  (∀ (s : State) (ty sev inst flags q : Nat) (b : Block) (t : TimePoint) (w4 w5 w6 w7 : Word),
    ty < 128 → sev < 4 → inst < 256 → flags < 32 → q < 4 → t.ns < 1000000000 →
    let r := (s.mkRec ty sev b inst flags t q w4 w5 w6 w7).1
    bits r.w0 24 7 = ty ∧ bits r.w0 31 1 = 0 ∧ bits r.w0 16 8 = typeCode b ∧ bits r.w0 8 8 = inst ∧ bits r.w0 6 2 = sev ∧
    bits r.w0 5 1 = 0 ∧ bits r.w0 0 5 = flags ∧ r.w1 = t.sec ∧ bits r.w2 0 30 = t.ns ∧ bits r.w2 30 2 = q ∧
    bits r.w3 16 16 = s.nodeId ∧ bits r.w3 0 16 = s.recSeq.toNat ∧ r.w4 = w4 ∧ r.w5 = w5 ∧ r.w6 = w6 ∧ r.w7 = w7 ∧
    (s.mkRec ty sev b inst flags t q w4 w5 w6 w7).2 = { s with recSeq := s.recSeq + 1 }) ∧
  (∀ (s : State) (n : Nat) (r : Rec), n < 16 → s.evLocal n = true → s.flag (Reg.evqQCfg n) 29 = false →
    (s.evQueue n).prod < s.evSize n → (∀ j, j < 32 → inAppSram (s.evBase n + 32 * (s.evQueue n).prod + j) = true) →
    let t := s.evStore n r
    let a := s.evBase n + 32 * (s.evQueue n).prod
    t.memTake a 32 = wordsBytes [setBits r.w0 31 1 (b2n (s.evQueue n).phase), r.w1, r.w2, r.w3, r.w4, r.w5, r.w6, r.w7] ∧
    (∀ x, x < a ∨ a + 32 ≤ x → t.memGet x = s.memGet x) ∧
    (t.evQueue n).prod = ((s.evQueue n).prod + 1) % s.evSize n ∧
    (t.evQueue n).phase = (if ((s.evQueue n).prod + 1) % s.evSize n = 0 then !(s.evQueue n).phase else (s.evQueue n).phase) ∧
    (t.evQueue n).written = (s.evQueue n).written + 1) ∧
  (∀ (s : State) (n : Nat) (r : Rec), n < 16 → s.evSize n < s.evFill n + 2 →
    let t := s.evOffer n r
    (t.evQueue n).overflow = true ∧ (t.evQueue n).prod = (s.evQueue n).prod ∧
    t.rd (Reg.evqCntDrop n) = satInc (s.rd (Reg.evqCntDrop n)) ∧
    ((s.evQueue n).overflow = false → s.flag (Reg.evqQCfg n) 28 = false → t.mem = s.mem) ∧
    ((s.evQueue n).overflow = true → t.mem = s.mem))

/-- Writes by an agent of this node: bytes stored in application SRAM read back, no other byte and no register changes, and the answer is
OK; a window register of a core holds its writable bits, its other registers and the other cores keep theirs; the interrupt mask of a page
holds its writable bits and keeps the others, and the answer is OK. An access to a page that is not assigned changes no register, no
memory and no line, and ends UNMAPPED; a write of another agent than the steward to a page the steward owns changes no register of the
page, is counted as a denial with its address, and ends FIREWALL. -/
def Obligations.AccessesStoreOrAreRefused : Prop :=
  ((∀ (s : State) (a : Agent) (addr : BitVec 48) (data : List Byte), s.hubUp = true → 1 ≤ data.length → data.length ≤ 256 →
    0x1000000 ≤ addr.toNat → addr.toNat + data.length ≤ 0x1400000 →
    ∃ t, Machine.exec (.registerWrite (.bus a addr data)) s = .next t ∧
      (∀ j, j < data.length → t.memGet (addr.toNat + j) = data.getD j 0) ∧
      (∀ x, x < addr.toNat ∨ addr.toNat + data.length ≤ x → t.memGet x = s.memGet x) ∧
      (∀ k, t.rd k = s.rd k) ∧ t.reply = ⟨0, []⟩) ∧
  (∀ (s : State) (n : Fin 5) (w : Fin 8) (base : Bool) (v : Word),
    ∃ t, Machine.exec (.registerWrite (.window n w base v)) s = .next t ∧
      (base = true → Tab.get 0 (t.core n).winBase w = v &&& 0xFFFFF#32 ∧ (t.core n).winCtl = (s.core n).winCtl) ∧
      (base = false → Tab.get 0 (t.core n).winCtl w = v &&& 0xC000FFFF#32 ∧ (t.core n).winBase = (s.core n).winBase) ∧
      (∀ j : Nat, j ≠ n → t.core j = s.core j) ∧ t.regs = s.regs ∧ t.mem = s.mem) ∧
  (∀ (s : State) (a : Agent) (page : Nat) (b : Block) (i : Nat) (v : Word), s.Reaches a page b i →
    ∃ t, Machine.exec (.registerWrite (.bus a (BitVec.ofNat 48 (pageKey page 0x014)) (wordBytes v))) s = .next t ∧
      t.rd (Reg.irqMask page) = (v &&& w32 (directMask page 0x014)) ||| (s.rd (Reg.irqMask page) &&& ~~~ w32 (directMask page 0x014)) ∧
      t.reply = ⟨0, []⟩)) ∧
  ((∀ (s : State) (a : Agent) (page off : Nat) (v : Word), s.hubUp = true → page < 0x1000 → off < 0x1000 → pageBlock page = none →
    ∃ t, Machine.exec (.registerWrite (.bus a (BitVec.ofNat 48 (pageKey page off)) (wordBytes v))) s = .next t ∧
      t.reply = ⟨1, []⟩ ∧ (∀ k, t.rd k = s.rd k) ∧ t.mem = s.mem ∧ t.lines = s.lines) ∧
  (∀ (s : State) (c : Fin 8) (page off : Nat) (b : Block) (i : Nat) (v : Word), s.hubUp = true → off < 0x1000 →
    pageBlock page = some (b, i) → stewardOwned b = true →
    ∃ t, Machine.exec (.registerWrite (.bus (.dma c) (BitVec.ofNat 48 (pageKey page off)) (wordBytes v))) s = .next t ∧
      t.reply = ⟨4, []⟩ ∧ t.rd Reg.fwlCntDeny = satInc (s.rd Reg.fwlCntDeny) ∧
      t.rd Reg.fwlLastAddr = w32 (pageKey page off % 2 ^ 24) ∧
      (page ≠ 0x07 → ∀ o, 0x014 ≤ o → o < 0x1000 → t.rd (pageKey page o) = s.rd (pageKey page o))))

/-- A mailbox command that names OP 0 is accepted and answers VALID with no result word; an OP that the block does not define answers
ERROR 0xFF: BUSY is set, the input words stand, and the answer waits for the completion. On completion the result words stand in
MBX_D0–MBX_D3, a word the command does not name keeps its value, BUSY clears, and VALID is set where the command succeeded, ERROR with its
code where it did not. -/
def Obligations.MailboxesAcceptAndComplete : Prop :=
  ((∀ (s : State) (a : Agent) (page : Fin 256) (b : Block) (i : Nat), s.Reaches a page b i → hasMbx b = true →
    s.mbxBusy page = false →
    ∃ t, Machine.exec (.mbxNop a page) s = .next t ∧ t.Job page 0 none none none none ∧ t.rd (Reg.mbxFlag page) = 2 ∧
      (∀ n, n < 4 → t.mbxD page n = s.mbxD page n)) ∧
  (∀ (s : State) (a : Agent) (page : Fin 256) (op : Byte) (arg : BitVec 16) (b : Block) (i : Nat), s.Reaches a page b i →
    hasMbx b = true → s.mbxBusy page = false → mbxOps page < op.toNat →
    ∃ t, Machine.exec (.mbxUnknownOp a page op arg) s = .next t ∧ t.Job page 0xFF none none none none ∧
      t.rd (Reg.mbxFlag page) = 2 ∧ (∀ n, n < 4 → t.mbxD page n = s.mbxD page n))) ∧
  (∀ (s : State) (page : Fin 256) (err : Nat) (d0 d1 d2 d3 : Option Word), s.Job page err d0 d1 d2 d3 → err < 256 →
    ∃ t, Machine.exec (.mbxComplete page) s = .next t ∧
      t.mbxD page 0 = d0.getD (s.mbxD page 0) ∧ t.mbxD page 1 = d1.getD (s.mbxD page 1) ∧
      t.mbxD page 2 = d2.getD (s.mbxD page 2) ∧ t.mbxD page 3 = d3.getD (s.mbxD page 3) ∧
      t.mbxBusy page = false ∧ bit (t.rd (Reg.mbxFlag page)) 0 = decide (err = 0) ∧
      bit (t.rd (Reg.mbxFlag page)) 2 = decide (err ≠ 0) ∧ bits (t.rd (Reg.mbxFlag page)) 8 8 = err ∧
      Tab.get none t.mbx page = none)

/-- While BUSY = 1, a write to MBX_CMD or to one of MBX_D0–MBX_D3 is ignored and sets COLLIDE: no other register changes, the command
being carried out keeps its answer, and the input words keep their values. -/
def Obligations.BusyMailboxIgnoresWrites : Prop :=
  ∀ (s : State) (a : Agent) (page : Fin 256) (n : Fin 5) (v : Word) (b : Block) (i : Nat), s.Reaches a page b i →
    hasMbx b = true → s.mbxBusy page = true →
    ∃ t, Machine.exec (.mbxWriteWhileBusy a page n v) s = .next t ∧ bit (t.rd (Reg.mbxFlag page)) 3 = true ∧
      bits (t.rd (Reg.mbxFlag page)) 0 3 = bits (s.rd (Reg.mbxFlag page)) 0 3 ∧
      (∀ k, k ≠ Reg.mbxFlag page → t.rd k = s.rd k) ∧ t.mbx = s.mbx

/-- Indirect access: IND_ADDR holds its writable bits; a read that the page's domain answers waits for it, after the accesses that wait
already, and a write behind a waiting access waits too; an access that finds no answer sets IND_ERR, ends TARGET_ABORT and does not
advance the address. In maps other than a tile's and a channel's, a write with nothing waiting is carried out at once, with AUTOINC = 1
the address advances by 4, and a completion carries out the oldest access that waits. That a read waits in a step of its own is the
model's choice (log entry 30). -/
def Obligations.IndirectAccessesWaitAndAreCarriedOut : Prop :=
  ((∀ (s : State) (a : Agent) (page : Fin 256) (v : Word) (b : Block) (i : Nat), s.Reaches a page b i → hasInd b = true →
    ∃ t, Machine.exec (.indAddrWrite a page v) s = .next t ∧ t.rd (Reg.indAddr page) = v &&& 0x80FFFFFC#32) ∧
  (∀ (s : State) (a : Agent) (page : Fin 256) (b : Block) (i : Nat), s.Reaches a page b i → hasInd b = true →
    ∃ t, Machine.exec (.indDataRead a page) s = .next t ∧
      t.indWaiting page = s.indWaiting page ++ [⟨.agent a, none, s.tclks⟩] ∧ (∀ k, t.rd k = s.rd k)) ∧
  (∀ (s : State) (a : Agent) (page : Fin 256) (v : Word) (b : Block) (i : Nat), s.Reaches a page b i → hasInd b = true →
    s.indWaiting page ≠ [] →
    ∃ t, Machine.exec (.indDataWrite a page v) s = .next t ∧
      t.indWaiting page = s.indWaiting page ++ [⟨.agent a, some v, s.tclks⟩] ∧ (∀ k, t.rd k = s.rd k)) ∧
  (∀ (s : State) (a a' : Agent) (data : Option Word) (since : Nat) (rest : List IndAccess) (page : Fin 256),
    s.indWaiting page = ⟨.agent a', data, since⟩ :: rest → s.passed since (usTclks 10) = true →
    ∃ t, Machine.exec (.indTimeout a page) s = .next t ∧ t.indWaiting page = rest ∧
      bit (t.rd (Reg.indAddr page)) 30 = true ∧ t.indAt page = s.indAt page ∧ t.reply = ⟨2, []⟩)) ∧
  ((∀ (s : State) (a : Agent) (page : Fin 256) (v : Word) (b : Block) (i : Nat), s.Reaches a page b i →
    b = .drl ∨ b = .sig ∨ b = .ring → s.indWaiting page = [] →
    let k := indKey page (s.indAt page)
    let m := w32 (indMask page (s.indAt page))
    ∃ t, Machine.exec (.indDataWrite a page v) s = .next t ∧ t.reply = ⟨0, []⟩ ∧ t.rd k = (v &&& m) ||| (s.rd k &&& ~~~ m) ∧
      t.indAt page = (if s.flag (Reg.indAddr page) 31 then (s.indAt page + 4) % 2 ^ 24 else s.indAt page)) ∧
  (∀ (s : State) (a : Agent) (page : Fin 256) (v : Word) (since : Nat) (rest : List IndAccess) (b : Block) (i : Nat),
    s.Reaches a page b i → b = .drl ∨ b = .sig ∨ b = .ring → s.indWaiting page = ⟨.agent a, some v, since⟩ :: rest →
    let k := indKey page (s.indAt page)
    let m := w32 (indMask page (s.indAt page))
    ∃ t, Machine.exec (.indAccessComplete page) s = .next t ∧ t.indWaiting page = rest ∧ t.reply = ⟨0, []⟩ ∧
      t.rd k = (v &&& m) ||| (s.rd k &&& ~~~ m) ∧
      t.indAt page = (if s.flag (Reg.indAddr page) 31 then (s.indAt page + 4) % 2 ^ 24 else s.indAt page)) ∧
  (∀ (s : State) (a : Agent) (page : Fin 256) (since : Nat) (rest : List IndAccess) (b : Block) (i : Nat), s.Reaches a page b i →
    b = .drl ∨ b = .sig ∨ b = .ring → s.indWaiting page = ⟨.agent a, none, since⟩ :: rest →
    ∃ t, Machine.exec (.indAccessComplete page) s = .next t ∧ t.indWaiting page = rest ∧
      t.reply = ⟨0, wordBytes (s.indWord page (s.indAt page))⟩ ∧
      t.indAt page = (if s.flag (Reg.indAddr page) 31 then (s.indAt page + 4) % 2 ^ 24 else s.indAt page)))

/-- SOFT_RESET of a page: no interrupt bit is pending or held, the mailbox is idle with its words 0 and no command, the indirect address
is 0, and EN, FREEZE and the interrupt mask stay. FREEZE and EN take the value written and leave each other; clearing FREEZE applies the
held edges in one step, and no edge is left held. A write of IRQ_PEND stores the writable bits of the value written; an edge that arrives
with it is ORed in after it. CNT_CLR clears every counter of its page. -/
def Obligations.PageControlsTakeEffect : Prop :=
  (∀ (s : State) (a : Agent) (page : Fin 256) (b : Block) (i : Nat), s.Reaches a page b i →
    ∃ t, Machine.exec (.softReset a page) s = .next t ∧ t.rd (Reg.irqPend page) = 0 ∧ t.heldOf page = 0 ∧
      t.rd (Reg.mbxFlag page) = 0 ∧ (∀ n, n < 4 → t.mbxD page n = 0) ∧ t.rd (Reg.indAddr page) = 0 ∧
      Tab.get none t.mbx page = none ∧ t.isFrozen page = s.isFrozen page ∧ t.enabled page = s.enabled page ∧
      t.rd (Reg.irqMask page) = s.rd (Reg.irqMask page)) ∧
  ((∀ (s : State) (a : Agent) (page : Fin 256) (on : Bool) (b : Block) (i : Nat), s.Reaches a page b i →
    ∃ t, Machine.exec (.freezeWrite a page on) s = .next t ∧ t.isFrozen page = on ∧ t.enabled page = s.enabled page ∧
      (s.isFrozen page = true → on = false →
        t.rd (Reg.irqPend page) = s.rd (Reg.irqPend page) ||| s.heldOf page ∧ t.heldOf page = 0)) ∧
  (∀ (s : State) (a : Agent) (page : Fin 256) (on : Bool) (b : Block) (i : Nat), s.Reaches a page b i →
    ∃ t, Machine.exec (.enableWrite a page on) s = .next t ∧ t.enabled page = on ∧ t.isFrozen page = s.isFrozen page)) ∧
  (∀ (s : State) (a : Agent) (page : Fin 256) (v edges : Word) (b : Block) (i : Nat), s.Reaches a page b i →
    s.isFrozen page = false →
    ∃ t, Machine.exec (.irqPendWrite a page v edges) s = .next t ∧
      t.rd (Reg.irqPend page) = ((v &&& w32 (directMask page 0x010)) ||| (s.rd (Reg.irqPend page) &&& ~~~ w32 (directMask page 0x010)))
        ||| (edges &&& w32 (directMask page 0x010)) ∧
      t.rd (Reg.irqMask page) = s.rd (Reg.irqMask page)) ∧
  (∀ (s : State) (a : Agent) (page : Fin 256) (b : Block) (i off : Nat), s.Reaches a page b i → cntClrOff b = some off →
    ∃ t, Machine.exec (.counterClear a page) s = .next t ∧
      ∀ r ∈ cntRuns b, ∀ j, j < r.2 → t.rd (pageKey page (r.1 + 4 * j)) = 0)

/-- Once the 1 ms after a check's report has run, the failures gathered since are reported in one more QUAL_FAIL with the item, time and
value of the first of them, their number and the counter of the check, and none is gathered any more; the conditions of every other event
under this spacing are reported in one record with their number in the word it has for it. -/
def Obligations.GatheredFailuresAreReportedOnceMore : Prop :=
  (∀ (s : State) (page : Fin 256) (id : BitVec 16) (b : Block) (i : Nat), s.spaced (s.check page id.toNat).last = false →
    (s.check page id.toNat).gathered ≠ 0 → pageBlock page = some (b, i) →
    ¬ (3 ≤ page.val ∧ page.val ≤ 5) ∨ s.takesRecords = true ∧ s.pwr.overwrote = false →
    let c := s.check page id.toNat
    Machine.exec (.qualFailRepost (.check page id)) s = .next
      ((s.setCheck page id.toNat { c with gathered := 0, last := some s.tclks }).postAt 0x01 b i 0 c.time c.quality
        (w32 (at_ 16 id.toNat + c.item)) (w32 c.gathered) (s.rd c.counter) c.value)) ∧
  (∀ (s : State) (k : Nat) (b : Block) (i : Nat), let g := Tab.get Gather.init s.gathers k
    s.spaced g.last = false → g.count ≠ 0 → pageBlock g.page = some (b, i) →
    let f (n : Nat) (w : Word) : Word :=
      if n = g.countWord then w32 (capAt 0xFFFFFFFF g.count) else if n = g.cntWord then s.rd g.cntKey else w
    Machine.exec (.qualFailRepost (.other k)) s = .next
      ({ s with gathers := Tab.set Gather.init s.gathers k { g with last := some s.tclks, count := 0 } }.postAt g.ty b i g.flags g.time
        g.quality (f 4 g.w4) (f 5 g.w5) (f 6 g.w6) (f 7 g.w7)))

/-- R39: a rising edge sets its IRQ_PEND bit, whether the bit is masked or not; a write of IRQ_PEND stores the value written, of the bits
that the page assigns; an edge in the same cycle as the write is ORed in after it. -/
def Obligations.EdgesAndWritesSetPendingBits : Prop :=
  (∀ (s : State) (page b : Nat), b < 32 → s.isFrozen page = false →
    (s.raise page b).rd (Reg.irqPend page) = s.rd (Reg.irqPend page) ||| w32 (2 ^ b)) ∧
  (∀ (s : State) (a : Agent) (page : Fin 256) (v edges : Word) (b : Block) (i : Nat), s.Reaches a page b i →
    s.isFrozen page = false → s.rd (Reg.irqPend page) &&& ~~~ w32 (directMask page 0x010) = 0 →
    ∃ t, Machine.exec (.irqPendWrite a page v edges) s = .next t ∧
      t.rd (Reg.irqPend page) = (v ||| edges) &&& w32 (directMask page 0x010))

/-- R407: the fill is (P − CI) mod size; an ordinary record is written only while the fill is at most size − 2; a write of Q_CI that would
make the fill greater is ignored and fails check 0x0A01, and any other write sets the index. -/
def Obligations.TheConsumerIndexBoundsTheFill : Prop :=
  (∀ (s : State) (n : Nat), (s.evFill n : Int) =
    (((s.evQueue n).prod : Int) - (s.fld (Reg.evqQCi n) 0 16 : Int)) % (s.evSize n : Int)) ∧
  (∀ (s : State) (n : Nat) (r : Rec), (s.evQueue n).overflow = false →
    (((s.evOffer n r).evQueue n).written ≠ (s.evQueue n).written ↔ s.evFill n + 2 ≤ s.evSize n)) ∧
  (∀ (s : State) (n : Fin 16) (v : Word), let moved := s.wr (Reg.evqQCi n) (v &&& 0xFFFF#32)
    ∃ t, Machine.exec (.qCiWrite n v) s = .next t ∧
      (moved.evFill n ≤ s.evFill n → t.rd (Reg.evqQCi n) = v &&& 0xFFFF#32) ∧
      (s.evFill n < moved.evFill n → t.rd (Reg.evqQCi n) = s.rd (Reg.evqQCi n) ∧ t.qualStands 0x24 0x0A01 n = true ∧
        t.rd Reg.evqCntBadCi = satInc (s.rd Reg.evqCntBadCi)))

/-- The TIME mailbox: each command is accepted and waits for the next TCLK edge, at which it executes. READ_TIME answers the counter after
the edge's increment, with its quality code and U; ADJ_RATE and SET_STATE are the steward's alone: the rate is taken for the increment of
the edge itself, and an allowed state is taken, with U loaded for LOCKED and HOLDOVER, and HOLDOVER at the limit becomes FREERUN; another
agent's answers error 2 and a state that is not allowed error 4, and rate and quality stand. Corrections of the counter (R60–R63), at the
TCLK edge after their acceptance and after its increment: a correction within STEP_LIMIT is accepted to be slewed, a larger one is
refused, held and counted and takes LOCKED out of LOCKED; the first one in UNSYNC with INIT allowed sets the counter; STEP_FORCE applies
the held correction and SET_TIME loads the time, each as a step that is counted, drops the held correction and cancels a pending slew;
STEP_FORCE with none held answers error 3 and SET_TIME with nanoseconds out of range error 4. The edge of a slew step moves the counter by
its increment and 1 ns towards the correction, which is then 1 ns smaller. -/
def Obligations.TheTimePageReadsSetsAndCorrects : Prop :=
  ((∀ (s : State) (a : Agent) (arg : BitVec 16), s.mbxBusy 0x10 = false →
    (∃ t, Machine.exec (.readTime a) s = .next t ∧ s.TimeAccepts t ⟨1, decide (a = .steward), 0⟩) ∧
    (∃ t, Machine.exec (.adjPhase a) s = .next t ∧ s.TimeAccepts t ⟨2, decide (a = .steward), 0⟩) ∧
    (∃ t, Machine.exec (.adjRate a) s = .next t ∧ s.TimeAccepts t ⟨3, decide (a = .steward), 0⟩) ∧
    (∃ t, Machine.exec .stepForce s = .next t ∧ s.TimeAccepts t ⟨4, false, 0⟩) ∧
    (∃ t, Machine.exec .setTime s = .next t ∧ s.TimeAccepts t ⟨5, false, 0⟩) ∧
    (∃ t, Machine.exec (.setState a arg) s = .next t ∧ s.TimeAccepts t ⟨6, decide (a = .steward), arg.toNat⟩)) ∧
  (∀ (s : State) (x : Bool), s.OnTclk → s.time.cmd = some ⟨1, x, 0⟩ →
    ∃ t, Machine.exec .tclkEdge s = .next t ∧ t.time.cmd = none ∧ t.counter = (s.setCounter s.edgeCount).counter ∧
      t.Job 0x10 0 (some (w32 t.time.sec.toNat)) (some (w32 t.time.ns))
        (some (w32 (at_ 16 (t.time.sec.toNat / 2 ^ 32) + at_ 12 s.time.quality.toNat + s.uncNs))) (some t.time.frac)) ∧
  (∀ s : State, s.OnTclk → s.time.cmd = some ⟨3, true, 0⟩ → s.pendCorr = 0 →
    ∃ t, Machine.exec .tclkEdge s = .next t ∧ t.time.cmd = none ∧ t.Job 0x10 0 none none none none ∧
      t.rd Reg.timeRate = s.mbxD 0x10 0 ∧
      t.counter = (s.setCounter (s.counter + (40 * 2 ^ 32 + (s.mbxD 0x10 0).toInt))).counter) ∧
  (∀ (s : State) (arg : Nat), s.OnTclk → s.time.cmd = some ⟨6, true, arg⟩ →
    let code := BitVec.ofNat 4 arg
    let req := code.toNat / 4
    let unc := if req < 2 then 256 * ((s.mbxD 0x10 0).toNat % 256) else s.time.unc
    (req = s.timeState ∨ req = 0 ∨ s.timeState = 0 ∧ req = 1) →
    ∃ t, Machine.exec .tclkEdge s = .next t ∧ t.time.cmd = none ∧ t.Job 0x10 0 none none none none ∧ t.time.unc = unc ∧
      t.time.quality = (if req = 1 ∧ s.fld Reg.timeHoldLimit 0 8 * 256 ≤ unc then BitVec.ofNat 4 (8 + code.toNat % 4) else code)) ∧
  (∀ (s : State) (arg : Nat), s.OnTclk →
    (s.time.cmd = some ⟨3, false, 0⟩ →
      ∃ t, Machine.exec .tclkEdge s = .next t ∧ t.Job 0x10 2 none none none none ∧ t.rd Reg.timeRate = s.rd Reg.timeRate) ∧
    (s.time.cmd = some ⟨6, false, arg⟩ →
      ∃ t, Machine.exec .tclkEdge s = .next t ∧ t.Job 0x10 2 none none none none ∧ t.time.quality = s.time.quality) ∧
    (s.time.cmd = some ⟨6, true, arg⟩ → stateAllowed s.timeState ((BitVec.ofNat 4 arg).toNat / 4) = false →
      ∃ t, Machine.exec .tclkEdge s = .next t ∧ t.Job 0x10 4 none none none none ∧ t.time.quality = s.time.quality))) ∧
  ((∀ s : State, s.OnTclk → s.time.cmd = some ⟨2, true, 0⟩ → s.initialSet = false →
    (s.corrInput.natAbs ≤ s.fld Reg.timeStepLimit 0 30 →
      ∃ t, Machine.exec .tclkEdge s = .next t ∧ t.Job 0x10 0 (some 0) none none none ∧
        t.rd Reg.timePendCorr = wOfInt s.corrInput ∧ t.counter = (s.setCounter s.edgeCount).counter ∧ t.time.refusedHeld = false) ∧
    (s.fld Reg.timeStepLimit 0 30 < s.corrInput.natAbs →
      ∃ t, Machine.exec .tclkEdge s = .next t ∧ t.Job 0x10 1 none none none none ∧
        t.counter = (s.setCounter s.edgeCount).counter ∧
        t.rd Reg.timeRefusedLo = corrLo s.corrInput ∧ t.rd Reg.timeRefusedHi = corrHi s.corrInput ∧
        t.rd Reg.timeCntRefused = satInc (s.rd Reg.timeCntRefused) ∧ t.time.refusedHeld = true ∧ t.timeState ≠ 0)) ∧
  (∀ s : State, s.OnTclk → s.time.cmd = some ⟨2, true, 0⟩ → s.initialSet = true →
    ∃ t, Machine.exec .tclkEdge s = .next t ∧ t.Job 0x10 0 (some 1) none none none ∧
      t.counter = ((s.setCounter s.edgeCount).stepCounter s.corrInput).counter ∧ t.time.initSetDone = true ∧
      t.rd Reg.timePendCorr = 0 ∧ t.rd Reg.timeCntStep = satInc (s.rd Reg.timeCntStep)) ∧
  (∀ (s : State) (x : Bool), s.OnTclk → s.time.cmd = some ⟨4, x, 0⟩ →
    (s.time.refusedHeld = true →
      ∃ t, Machine.exec .tclkEdge s = .next t ∧
        t.Job 0x10 0 (some (s.rd Reg.timeRefusedLo)) (some (s.rd Reg.timeRefusedHi)) none none ∧
        t.counter = ((s.setCounter s.edgeCount).stepCounter s.heldCorr).counter ∧ t.time.refusedHeld = false ∧
        t.rd Reg.timePendCorr = 0 ∧ t.rd Reg.timeCntStep = satInc (s.rd Reg.timeCntStep)) ∧
    (s.time.refusedHeld = false →
      ∃ t, Machine.exec .tclkEdge s = .next t ∧ t.Job 0x10 3 none none none none ∧
        t.counter = (s.setCounter s.edgeCount).counter)) ∧
  (∀ (s : State) (x : Bool), s.OnTclk → s.time.cmd = some ⟨5, x, 0⟩ →
    ((s.mbxD 0x10 1).toNat < 1000000000 →
      ∃ t, Machine.exec .tclkEdge s = .next t ∧ t.Job 0x10 0 none none none none ∧
        t.time.sec.toNat = (s.mbxD 0x10 0).toNat + bits (s.mbxD 0x10 2) 0 16 * 2 ^ 32 ∧ t.time.ns = (s.mbxD 0x10 1).toNat ∧
        t.time.frac = 0 ∧ t.time.refusedHeld = false ∧ t.rd Reg.timePendCorr = 0 ∧
        t.rd Reg.timeCntStep = satInc (s.rd Reg.timeCntStep)) ∧
    (1000000000 ≤ (s.mbxD 0x10 1).toNat →
      ∃ t, Machine.exec .tclkEdge s = .next t ∧ t.Job 0x10 4 none none none none ∧
        t.counter = (s.setCounter s.edgeCount).counter)) ∧
  (∀ s : State, s.OnTclk → s.time.cmd = none → s.pendCorr ≠ 0 → s.time.slewAt + s.slewEvery ≤ s.tclks + 1 →
    let d : Int := if 0 < s.pendCorr then 1 else -1
    ∃ t, Machine.exec .slewStep s = .next t ∧ t.pendCorr = s.pendCorr - d ∧
      t.counter = (s.setCounter (s.counter + s.tclkInc + d * 2 ^ 32)).counter))

/-- TCLK_EDGE: while the counter runs on TCLK and no command waits, it advances by 40 ns, the rate correction and a slew step that is due,
the count of edges advances by one and the quality code stands; what the edge does to the counter runs every private timer on; an edge has
no effect while the counter runs on XT32 or the node has no power. XT32_EDGE: while the counter runs on XT32 each edge advances it by
30,517.578125 ns, and otherwise it has no effect (R50, R51, R59, R60, R436). In HOLDOVER, UNC_GROWTH is added to U for each millisecond
that has passed, and FREERUN is entered when U reaches HOLD_LIMIT (R57, R58); in the other states, and before the millisecond has passed,
U does not grow. Where the condition of a command that reports an event does not hold, the state stays as it is: the model's choice (log
entry 1). -/
def Obligations.TheCounterAdvancesAndItsUncertaintyGrows : Prop :=
  ((∀ s : State, s.OnTclk → s.time.cmd = none →
    (∃ t, Machine.exec .tclkEdge s = .next t ∧
      t.counter = (s.setCounter (s.counter + (40 * 2 ^ 32 + (s.rd Reg.timeRate).toInt) + s.slewNext * 2 ^ 32)).counter ∧
      t.tclks = s.tclks + 1 ∧ t.time.quality = s.time.quality) ∧
    s.tclkCount.icu.timers = s.tickTimers.icu.timers) ∧
  (∀ s : State, s.onXt32 = true ∨ s.power = .off → Machine.exec .tclkEdge s = .next s) ∧
  (∀ s : State, s.onXt32 = true →
    ∃ t, Machine.exec .xt32Edge s = .next t ∧
      t.counter = (s.setCounter (s.counter + (30517 * 2 ^ 32 + 0x94000000))).counter) ∧
  (∀ s : State, s.onXt32 = false → Machine.exec .xt32Edge s = .next s)) ∧
  ((∀ s : State, s.timeState = 1 → s.passed s.time.growAt (msTclks 1) = true →
    ∃ t, Machine.exec .uncGrowthTick s = .next t ∧ t.time.unc = capAt 65535 (s.time.unc + s.fld Reg.timeUncGrowth 0 16) ∧
      t.timeState = (if s.fld Reg.timeHoldLimit 0 8 * 256 ≤ t.time.unc then 2 else 1) ∧ t.counter = s.counter) ∧
  (∀ s : State, s.timeState ≠ 1 ∨ s.passed s.time.growAt (msTclks 1) = false → Machine.exec .uncGrowthTick s = .next s))

/-- Sync and Follow_Up (R65, R70): a good one-step Sync of the chosen master, or the Follow_Up of an awaited two-step Sync, is one servo
update: it is counted, the source is not lost, and its offset, of the receive time from the origin time less the corrections, counts
towards lock where it lies within LOCK_THRESH and STEP_LIMIT and starts the count anew where it does not; a locked node, and one whose
count reaches LOCK_COUNT, is LOCKED with U after R58. A message that fails qualification is counted in CNT_BAD and changes nothing of the
servo. Each message is taken from those that wait. -/
def Obligations.SyncsUpdateTheServo : Prop :=
  (∀ (s : State) (d : Delivered), s.NextPtp (fun ty => !ptpOther ty) d → ptpType (ptpBytes d.bytes) = 0 →
    let m := ptpBytes d.bytes
    let good := s.ptpGood m && s.fromParent m && (!ptpTwoStep m || decide (s.ptpRole d.port = 2))
    let cf := ptpCorrection m + s.linkCorrection d
    ∃ t, Machine.exec .syncReceive s = .next t ∧ t.net.toTime = s.net.toTime.erase d ∧
      (good = true → ptpTwoStep m = false → s.Disciplined t m d.time cf (ptpHops d.bytes)) ∧
      (good = true → ptpTwoStep m = true → t.ptp.twoStep = some (ptpSeq m, d.time, cf) ∧ t.ptp.heardSync = s.tclks ∧
        t.rd Reg.ptpCntSync = s.rd Reg.ptpCntSync) ∧
      (good = false → t.rd Reg.ptpCntBad = satInc (s.rd Reg.ptpCntBad) ∧ t.Raised 0x11 2 ∧ t.ptp = s.ptp)) ∧
  (∀ (s : State) (d : Delivered), s.NextPtp (fun ty => decide (ty = 8)) d →
    let m := ptpBytes d.bytes
    let good := s.ptpGood m && s.fromParent m && decide (s.ptpRole d.port = 2)
    ∃ t, Machine.exec .followUpReceive s = .next t ∧ t.net.toTime = s.net.toTime.erase d ∧
      (∀ rx cf, good = true → s.ptp.twoStep = some (ptpSeq m, rx, cf) →
        s.Disciplined t m rx (cf + ptpCorrection m) (ptpHops d.bytes)) ∧
      (good = true → (∀ rx cf, s.ptp.twoStep ≠ some (ptpSeq m, rx, cf)) → t.ptp = s.ptp ∧ ∀ k, t.rd k = s.rd k) ∧
      (good = false → t.rd Reg.ptpCntBad = satInc (s.rd Reg.ptpCntBad) ∧ t.Raised 0x11 2 ∧ t.ptp = s.ptp))

/-- Announce and the peer delay (R67, R69, R70): a good Announce of another clock is counted and its dataset, with the times it was heard,
takes the place of its sender's; of the qualified datasets and, in a grandmaster-capable node, its own, the best gives the master that is
followed, CUR_GM and GM_INFO, and a change of the grandmaster raises its bit. A Pdelay_Req is answered with Pdelay_Resp and its Follow_Up;
a one-step answer, or the Follow_Up of a two-step one, to the outstanding request enters the mean of the last 16 exchanges. A message that
fails qualification is counted in CNT_BAD; each is taken from those that wait. -/
def Obligations.AnnouncesSelectAndDelaysAreMeasured : Prop :=
  (∀ (s : State) (d : Delivered), s.NextPtp (fun ty => decide (ty = 0xB)) d →
    let m := ptpBytes d.bytes
    ∃ t, Machine.exec .announceReceive s = .next t ∧ t.net.toTime = s.net.toTime.erase d ∧
      (s.ptpGood m = true → ptpSource m ≠ s.clockId →
        let old := ((s.ptp.masters.find? fun x => decide (x.source = ptpSource m)).map fun x => x.heard).getD []
        let heard := s.tclks :: old.filter fun c => !s.passed c (msTclks 4000)
        t.rd Reg.ptpCntAnnounce = satInc (s.rd Reg.ptpCntAnnounce) ∧
        t.ptp.masters = s.ptp.masters.filter (fun x => decide (x.source ≠ ptpSource m)) ++ [announced m d.port heard] ∧
        ∀ b, bestMaster (t.ptp.masters.filter s.masterQualified ++ if s.flag Reg.ptpCfg 0 then [s.ownMaster] else []) = some b →
          t.ptp.parent = (if s.ptpFollows b then some (b.source, b.port) else none) ∧
          t.rd Reg.ptpCurGmHi = w32 (b.gm / 2 ^ 32) ∧ t.rd Reg.ptpCurGmLo = w32 b.gm ∧
          t.rd Reg.ptpGmInfo = w32 (at_ 16 b.prio1 + at_ 8 b.accuracy + b.cls) ∧
          ((s.rd Reg.ptpCurGmHi).toNat * 2 ^ 32 + (s.rd Reg.ptpCurGmLo).toNat ≠ b.gm → t.Raised 0x11 0)) ∧
      (s.ptpGood m = true → ptpSource m = s.clockId → t.ptp = s.ptp ∧ ∀ k, t.rd k = s.rd k) ∧
      (s.ptpGood m = false → t.rd Reg.ptpCntBad = satInc (s.rd Reg.ptpCntBad) ∧ t.Raised 0x11 2 ∧ t.ptp = s.ptp)) ∧
  (∀ (s : State) (d : Delivered), s.NextPtp (fun ty => decide (ty = 2)) d →
    let m := ptpBytes d.bytes
    let u := s.setNet fun n => { n with toTime := n.toTime.erase d }
    (s.ptpGood m = true → ∃ t, Machine.exec .pdelayReqReceive s = .next t ∧
      t = (u.ptpLinkLocal d.port (u.ptpHeader 3 d.port (ptpSeq m) 0x7F 0x0200 ++ ptpTime d.time (s.time.sec.toNat / 2 ^ 32) ++
          (m.drop 20).take 10)).ptpLinkLocal d.port (u.ptpHeader 0xA d.port (ptpSeq m) 0x7F 0 ++ u.ptpNow ++ (m.drop 20).take 10)) ∧
    (s.ptpGood m = false → ∃ t, Machine.exec .pdelayReqReceive s = .next t ∧ t.net.toTime = s.net.toTime.erase d ∧
      t.rd Reg.ptpCntBad = satInc (s.rd Reg.ptpCntBad) ∧ t.Raised 0x11 2)) ∧
  (∀ (s : State) (port : Fin 4) (k : Nat) (d : Delivered), s.ptpRole port ≠ 0 →
    s.net.toTime.filter (fun x => decide (x.port = port.val) &&
      (decide (ptpType (ptpBytes x.bytes) = 3) || decide (ptpType (ptpBytes x.bytes) = 0xA))) = [d] →
    let m := ptpBytes d.bytes
    let t1 := Tab.get ⟨0, 0⟩ s.ptp.txReq port
    let mine := setHas s.ptp.asked port = true ∧ ptpSeq m = s.ptp.pdelaySeq.toNat ∧ beAt m 44 8 = s.clockId ∧
      beAt m 52 2 = port.val + 1
    (s.ptpGood m = true → mine → ptpType m = 3 → ptpTwoStep m = false →
      ∃ t, Machine.exec (.pdelayRespReceive port (k + 1)) s = .next t ∧
        s.Measured t port (timeDiff d.time t1 * 65536 - ptpCorrection m)) ∧
    (s.ptpGood m = true → mine → ptpType m = 3 → ptpTwoStep m = true →
      ∃ t, Machine.exec (.pdelayRespReceive port (k + 1)) s = .next t ∧ setHas t.ptp.asked port = true ∧
        Tab.get none t.ptp.resps port = some ⟨ptpSeq m, ptpStamp m, d.time, ptpCorrection m⟩) ∧
    (∀ r, s.ptpGood m = true → mine → ptpType m = 0xA → Tab.get none s.ptp.resps port = some r →
      ∃ t, Machine.exec (.pdelayRespReceive port (k + 1)) s = .next t ∧
        s.Measured t port ((timeDiff r.t4 t1 - timeDiff (ptpStamp m) r.t2) * 65536 - r.cf - ptpCorrection m)) ∧
    (s.ptpGood m = false →
      ∃ t, Machine.exec (.pdelayRespReceive port (k + 1)) s = .next t ∧ t.rd Reg.ptpCntBad = satInc (s.rd Reg.ptpCntBad) ∧ t.Raised 0x11 2))

/-- What the PTP page sends and when it gives a source up (R67, R70, R76): where one is due, Sync and Announce of a grandmaster carry the
next sequence number and, without a boundary clock port, are sent on the home side; each port that is UP, takes PTP messages and, in a
native ring, has an active ID asks its neighbour; three seconds without an Announce are counted, and at the third time in a row the master
is dropped and the source lost; four sync intervals without a Sync lose it too. PPS and IRIG-B (R71, R72, R76, R391): of the edge that
PPS_POL selects, a pulse 1 µs to 500 ms wide, 1 s ± 1 ms after the one before, is the source's newest good pulse; another is counted as
failing and, of a channel, fails check 0x0114; three failing pulses, or three places without one, lose the source, and the next pulse
counts as the first. A good IRIG-B frame gives its time in PTP seconds and is in sync when the frame before decoded to 1 s earlier; one of
quality 0xF, with the extension enabled, ends the run, as does one with a wrong width or identifier, which fails check 0x0113; 3 s without
a usable frame lose the source. Where the condition of a command that reports an event does not hold, the state stays as it is: the
model's choice (log entry 1). -/
def Obligations.PtpSendsAndLocalSourcesQualify : Prop :=
  ((∀ (s : State) (announce : Bool), s.flag Reg.ptpCfg 0 = true →
    bestMaster (s.ptp.masters.filter s.masterQualified ++ [s.ownMaster]) = some s.ownMaster →
    s.sendDue (if announce then s.ptp.annAt else s.ptp.syncAt) (if announce then msTclks 1000 else s.syncTclks) = true →
    ∃ t, Machine.exec (.syncSend announce) s = .next t ∧
      t.ptp.syncSeq = s.ptp.syncSeq + (if announce then 0 else 1) ∧ t.ptp.annSeq = s.ptp.annSeq + (if announce then 1 else 0) ∧
      (if announce then t.ptp.annAt else t.ptp.syncAt) = some s.tclks ∧
      ((∀ p, s.ptpRole p ≠ 2) → t.net = (s.ptpSelect.ptpSide announce 0).net)) ∧
  (∀ s : State, s.sendDue s.ptp.pdelayAt (msTclks 1000) = true →
    ∃ t, Machine.exec .pdelayReqSend s = .next t ∧ t.ptp.pdelaySeq = s.ptp.pdelaySeq + 1 ∧ t.ptp.pdelayAt = some s.tclks ∧
      ∀ p, p < 4 → s.ptpRole p ≠ 0 → s.portUp p = true → (s.ptpNative p = true → s.sideActive (p / 2 * 2) = true) →
        setHas t.ptp.asked p = true) ∧
  (∀ (s : State) (src : Nat) (p : Nat), s.ptp.parent = some (src, p) → s.passed s.ptp.heardAnn (msTclks 3000) = true →
    ∃ t, Machine.exec .announceReceiptTimeout s = .next t ∧ t.rd Reg.ptpCntAnnTimeout = satInc (s.rd Reg.ptpCntAnnTimeout) ∧
      (s.ptp.annTimeouts < 2 → t.ptp.annTimeouts = s.ptp.annTimeouts + 1 ∧ t.ptp.masters = s.ptp.masters ∧
        t.ptp.parent = s.ptp.parent) ∧
      (2 ≤ s.ptp.annTimeouts → t.ptp.annTimeouts = 0 ∧
        t.ptp.masters = s.ptp.masters.filter (fun x => decide (x.source ≠ src)) ∧ (s.ptp.lost = false → t.Raised 0x11 1))) ∧
  (∀ s : State, s.ptp.parent.isSome = true → s.ptp.lost = false → s.passed s.ptp.heardSync (4 * s.syncTclks) = true →
    Machine.exec .syncTimeout s = .next
      ((((s.setPtp fun p => { p with lost := true }).raise 0x11 1).post 0x14 .ptp 0 0 (w32 (at_ 16 0xFFFF))
        s.ptp.lastGood.sec (w32 s.ptp.lastGood.ns) 0).sourceGone 0))) ∧
  ((∀ (s : State) (k : Fin 65) (p : TimePoint) (width : Nat), k.val = 64 ∨ s.runs k 7 = true →
    1000 ≤ width → width ≤ 500000000 → (∀ l, (s.source k).last = some l → (timeDiff p l - 1000000000).natAbs ≤ 1000000) →
    ∃ t, Machine.exec (.ppsPulse k ⟨!s.flag Reg.ptpGmSrc 16, p⟩ width) s = .next t ∧ (t.source k).last = some p ∧
      (t.source k).good = p ∧ (t.source k).fails = 0 ∧ (k.val < 64 → t.Raised (0x80 + k) 15)) ∧
  (∀ (s : State) (k : Fin 65) (p : TimePoint) (width : Nat), k.val = 64 ∨ s.runs k 7 = true →
    (s.source k).pulseOk p width = false →
    ∃ t, Machine.exec (.ppsPulse k ⟨!s.flag Reg.ptpGmSrc 16, p⟩ width) s = .next t ∧ (t.source k).fails = (s.source k).fails + 1 ∧
      (t.source k).last = (s.source k).last ∧
      (k.val < 64 → t = (s.setSource k fun x => { x with fails := x.fails + 1 }).qualFail (0x80 + k) 0x0114 k 0 (Reg.chCntPpsBad k))) ∧
  (∀ (s : State) (k : Fin 65) (p : TimePoint) (width : Nat),
    Machine.exec (.ppsPulse k ⟨s.flag Reg.ptpGmSrc 16, p⟩ width) s = .next s) ∧
  (∀ (s : State) (k : Fin 65) (l : TimePoint), (s.source k).last = some l →
    3 ≤ (s.source k).fails ∨ 3001000000 ≤ timeDiff s.now l →
    ∃ t, Machine.exec (.ppsSourceLost k) s = .next t ∧ (t.source k).last = none ∧ (t.source k).fails = 0 ∧
      (k.val = 64 → t.Raised 0x11 1)) ∧
  (∀ (s : State) (c : Fin 64) (b : BitVec 100) (p : TimePoint), s.runs c 6 = true →
    let lost := bit (s.rd (Reg.chIrigCfg c)) 30 && decide (irigQuality b = 15)
    (lost = false → ∃ t, Machine.exec (.irigFrame c b p .good) s = .next t ∧ (t.source c).irig = some (s.irigTime b) ∧
      (t.source c).irigAt = p ∧
      (t.source c).run = (if (s.source c).irig.map (· + 1) = some (s.irigTime b) then 2 else 1)) ∧
    (lost = true → ∃ t, Machine.exec (.irigFrame c b p .good) s = .next t ∧ (t.source c).irig = none ∧ (t.source c).run = 0) ∧
    (∀ r, r ≠ IrigEnd.good → ∃ t, Machine.exec (.irigFrame c b p r) s = .next t ∧ (t.source c).irig = none ∧
      (t.source c).run = 0 ∧ t.Raised (0x80 + c) 14 ∧ t.rd (Reg.chCntIrigBad c) = satInc (s.rd (Reg.chCntIrigBad c)))) ∧
  (∀ (s : State) (c : Fin 64), s.runs c 6 = true → (s.source c).run = 2 → s.passed (s.source c).usedAt (msTclks 3000) = true →
    ∃ t, Machine.exec (.irigSourceLost c) s = .next t ∧ (t.source c).irig = none ∧ (t.source c).run = 0 ∧
      (s.irigSelected c = true → s.timeState = 0 → s.time.quality.toNat % 4 = 2 → t.timeState ≠ 0)))

/-- A raw transition outside a filter starts it, with the stamp values of its moment and the length then in force; one inside it is a
return, discarded with the first as one glitch that check 0x0001 counts; one after the filter's end starts a new filter; while the bank
check is failed nothing is filtered and nothing counted. The raw level follows, and but for a filter that had ended no other line changes
(R77, R79, R80, R82, R125). When the filter expires the edge is qualified with the values its transition took: the cell's level, last edge
and bucket follow (for a line without an edge-rate limit); a line that is not blocked delivers it, and where the line's stamp bit is set
the stamp waits in the cell with the tile's next sequence number. A blocked line keeps its delivered level, and with the TDC stopped the
edge waits for the next XT32 edge (R77, R84–R88, R136). The stamp buffer of a tile (R88–R90, R541, R542): with the tile's clock running
the oldest waiting stamp is stored at the end of the buffer, a pending loss marker before it as soon as there is room, and a stamp that
reaches a full buffer is lost and counted; a read takes the next word of the oldest record, whose fourth read frees it, and an empty
buffer answers 0xFFFF_FFFF and sets STAMP_UNDERRUN, which CNT_CLR.UNDER_CLR clears; STAMP_CFG is written only while the buffer is empty
with no marker pending. -/
def Obligations.TransitionsAreFilteredStampedAndDelivered : Prop :=
  (∀ (s : State) (k : Fin 256) (d : Fin 40),
    let new : FiltSt := ⟨!(s.line k).raw, 40 * s.tclks - d, timeAdd s.now (-((d : Nat) : Int)), s.stampUnc, s.time.quality, s.filterLen k⟩
    ((s.tile (k / 32)).bankFail = true →
      ∃ t, Machine.exec (.lineTransition k d) s = .next t ∧ (t.line k).raw = !(s.line k).raw ∧ (t.line k).filt = none ∧
        (∀ j : Nat, j ≠ k → t.line j = s.line j) ∧ ∀ r, t.rd r = s.rd r) ∧
    ((s.tile (k / 32)).bankFail = false → (s.line k).filt = none →
      ∃ t, Machine.exec (.lineTransition k d) s = .next t ∧ (t.line k).raw = !(s.line k).raw ∧ (t.line k).filt = some new ∧
        (∀ j : Nat, j ≠ k → t.line j = s.line j) ∧ ∀ r, t.rd r = s.rd r) ∧
    (∀ f, (s.tile (k / 32)).bankFail = false → (s.line k).filt = some f → 40 * s.tclks - d < f.endNs → s.hubUp = true →
      ∃ t, Machine.exec (.lineTransition k d) s = .next t ∧ (t.line k).raw = !(s.line k).raw ∧ (t.line k).filt = none ∧
        (∀ j : Nat, j ≠ k → t.line j = s.line j) ∧
        t.rd (Reg.tileCntGlitch (k / 32)) = satInc (s.rd (Reg.tileCntGlitch (k / 32))) ∧ t.Raised (0x40 + k / 32) 3) ∧
    (∀ f, (s.tile (k / 32)).bankFail = false → (s.line k).filt = some f → f.endNs ≤ 40 * s.tclks - d → s.tdcStopped = true →
      ∃ t, Machine.exec (.lineTransition k d) s = .next t ∧ (t.line k).raw = !(s.line k).raw ∧ (t.line k).filt = some new ∧
        (t.line k).dormant = some f.level)) ∧
  ((∀ (s : State) (k : Fin 256) (f : FiltSt), (s.line k).filt = some f → f.endNs ≤ 40 * (s.tclks + 1) → s.tdcStopped = false →
    bits (s.rd (Reg.chLqCfg (k / 4) (k % 4))) 24 8 = 0 →
    ∃ t, Machine.exec (.edgeQualified k) s = .next t ∧ (t.line k).filt = none ∧ (t.line k).qual = f.level ∧
      (t.line k).last = some (f.time, f.unc, f.quality) ∧ (t.line k).bucket = capAt 1023 ((s.line k).bucket + 1) ∧
      ((s.line k).blocked = true → (t.line k).level = (s.line k).level ∧ (t.line k).queue = (s.line k).queue) ∧
      ((s.line k).blocked = false → (t.line k).level = f.level ∧
        (bit (s.lcfg k) (if f.level then 16 else 17) = true → (s.line k).queue.length < 4 →
          ∃ x, (t.line k).queue = (s.line k).queue ++ [x] ∧ x.time = f.time ∧ x.rise = f.level ∧ x.line = k.val ∧
            x.unc = f.unc ∧ x.quality = f.quality ∧ x.seq = (s.tile (k / 32)).seq ∧
            (t.tile (k / 32)).seq = ((s.tile (k / 32)).seq + 1) % 4096))) ∧
  (∀ (s : State) (k : Fin 256) (f : FiltSt), (s.line k).filt = some f → f.endNs ≤ 40 * (s.tclks + 1) → s.tdcStopped = true →
    ∃ t, Machine.exec (.edgeQualified k) s = .next t ∧ (t.line k).filt = none ∧ (t.line k).dormant = some f.level)) ∧
  ((∀ (s : State) (n : Fin 8) (x : Stamp), s.stampsHeld = false → (s.tile n).clk = .running → (s.tile n).loss = none →
    s.oldestStamp n = some x →
    ∃ t, Machine.exec (.stampTransfer n) s = .next t ∧ (t.line x.line).queue = (s.line x.line).queue.drop 1 ∧
      ((s.tile n).count < s.stampRecords n → (t.tile n).count = (s.tile n).count + 1 ∧
        ∀ w, w < 4 → t.sramGet (s.stampKey n ((s.tile n).rd + (s.tile n).count) w) = ((stampWords x none).drop w).headD 0) ∧
      (s.stampRecords n ≤ (s.tile n).count → (t.tile n).count = (s.tile n).count ∧ (t.tile n).loss = some (x, 1) ∧
        t.rd (Reg.tileCntStampLost n) = satInc (s.rd (Reg.tileCntStampLost n)) ∧ t.Raised (0x40 + n) 0)) ∧
  (∀ (s : State) (n : Fin 8) (f : Stamp) (c : Nat), s.stampsHeld = false → (s.tile n).clk = .running →
    (s.tile n).loss = some (f, c) → (s.tile n).count < s.stampRecords n →
    ∃ t, Machine.exec (.stampTransfer n) s = .next t ∧ (t.tile n).loss = none ∧ (t.tile n).count = (s.tile n).count + 1 ∧
      ∀ w, w < 4 → t.sramGet (s.stampKey n ((s.tile n).rd + (s.tile n).count) w) = ((stampWords f (some c)).drop w).headD 0) ∧
  (∀ (s : State) (n : Fin 8), s.TileReady n → (s.tile n).count = 0 →
    ∃ t, Machine.exec (.stampDataRead n) s = .next t ∧ t.reply = ⟨0, wordBytes 0xFFFFFFFF⟩ ∧ (t.tile n).underrun = true) ∧
  (∀ (s : State) (n : Fin 8), s.TileReady n → (s.tile n).count ≠ 0 →
    ∃ t, Machine.exec (.stampDataRead n) s = .next t ∧
      t.reply = ⟨0, wordBytes (s.sramGet (s.stampKey n (s.tile n).rd (s.tile n).word))⟩ ∧
      (t.tile n).underrun = (s.tile n).underrun ∧
      ((s.tile n).word = 3 → (t.tile n).word = 0 ∧ (t.tile n).count = (s.tile n).count - 1 ∧
        (t.tile n).rd = ((s.tile n).rd + 1) % s.stampRecords n) ∧
      ((s.tile n).word ≠ 3 → (t.tile n).word = (s.tile n).word + 1 ∧ (t.tile n).count = (s.tile n).count)) ∧
  (∀ (s : State) (n : Fin 8) (v : Word), s.TileReady n →
    ((s.tile n).count = 0 → (s.tile n).loss = none →
      ∃ t, Machine.exec (.stampCfgWrite n v) s = .next t ∧ t.rd (Reg.tileStampCfg n) = v &&& 0x000FFFFF#32) ∧
    ((s.tile n).count ≠ 0 ∨ (s.tile n).loss ≠ none →
      ∃ t, Machine.exec (.stampCfgWrite n v) s = .next t ∧ (∀ k, t.rd k = s.rd k) ∧ t.sram = s.sram)) ∧
  (∀ (s : State) (n : Fin 8), s.TileReady n →
    ∃ t, Machine.exec (.stampUnderrunClear n) s = .next t ∧ (t.tile n).underrun = false ∧
      (t.tile n).count = (s.tile n).count ∧ (t.tile n).rd = (s.tile n).rd ∧ (t.tile n).word = (s.tile n).word))

/-- The WIN mailbox on window ARG (R99): a disarmed window takes the times, the control word, the offset and the trigger word it is loaded
with; an armed one refuses both loads; ARM refuses a length of 0 and, for RECURRING, a period not above the length, and leaves an armed
window as it is; DISARM clears the state bit at once and drops the edges that wait; the reads answer what is loaded. An ARG above 255 is
refused as RANGE by every command of the WIN mailbox, with no effect on a window (R99). -/
def Obligations.WindowsAreLoadedArmedAndRead : Prop :=
  (∀ (s : State) (arg : BitVec 16), s.mbxBusy 0x13 = false → arg.toNat ≤ 255 →
    let w := arg.toNat
    let x := s.win w
    ((x.armed = false → (s.mbxD 0x13 1).toNat < 1000000000 → s.mbxD 0x13 2 ≠ 0 →
        ∃ t, Machine.exec (.loadTimes arg) s = .next t ∧ t.Job 0x13 0 none none none none ∧
          t.win w = { x with open_ := ⟨s.mbxD 0x13 0, (s.mbxD 0x13 1).toNat⟩, length := (s.mbxD 0x13 2).toNat,
                             period := (s.mbxD 0x13 3).toNat } ∧
          ∀ v, v ≠ w → t.win v = s.win v) ∧
      (x.armed = false → 1000000000 ≤ (s.mbxD 0x13 1).toNat ∨ s.mbxD 0x13 2 = 0 →
        ∃ t, Machine.exec (.loadTimes arg) s = .next t ∧ t.Job 0x13 2 none none none none ∧ t.wins = s.wins) ∧
      (x.armed = true →
        (∃ t, Machine.exec (.loadTimes arg) s = .next t ∧ t.Job 0x13 1 none none none none ∧ t.wins = s.wins) ∧
        (∃ t, Machine.exec (.loadCtrl arg) s = .next t ∧ t.Job 0x13 1 none none none none ∧ t.wins = s.wins)) ∧
      (x.armed = false → bits (s.mbxD 0x13 0) 0 3 ≤ 4 →
        ∃ t, Machine.exec (.loadCtrl arg) s = .next t ∧ t.Job 0x13 0 none none none none ∧
          t.win w = { x with ctrl := s.mbxD 0x13 0 &&& 0x00FFF31F#32, offset := (s.mbxD 0x13 1).toNat,
                             trigger := s.mbxD 0x13 2 &&& 0x7FFF#32 } ∧
          ∀ v, v ≠ w → t.win v = s.win v) ∧
      (x.armed = false → 4 < bits (s.mbxD 0x13 0) 0 3 →
        ∃ t, Machine.exec (.loadCtrl arg) s = .next t ∧ t.Job 0x13 3 none none none none ∧ t.wins = s.wins)) ∧
    ((x.armed = false → x.length ≠ 0 → (x.kind = 1 → x.length < x.period) →
        ∃ t, Machine.exec (.winArm arg) s = .next t ∧ t.Job 0x13 0 none none none none ∧
          t.win w = { x with armed := true, inst := none } ∧ ∀ v, v ≠ w → t.win v = s.win v) ∧
      (x.armed = false → x.length = 0 ∨ x.kind = 1 ∧ x.period ≤ x.length →
        ∃ t, Machine.exec (.winArm arg) s = .next t ∧ t.Job 0x13 2 none none none none ∧ t.wins = s.wins) ∧
      (x.armed = true → ∃ t, Machine.exec (.winArm arg) s = .next t ∧ t.Job 0x13 0 none none none none ∧ t.wins = s.wins)) ∧
    (∃ t, Machine.exec (.winDisarm arg) s = .next t ∧ t.Job 0x13 0 none none none none ∧ (t.win w).armed = false ∧
      setHas t.winOpen w = false ∧ (∀ e ∈ t.winEdges, e.win ≠ w) ∧ ∀ v, v ≠ w → t.win v = s.win v) ∧
    (∃ t, Machine.exec (.readTimes arg) s = .next t ∧ t.wins = s.wins ∧
      t.Job 0x13 0 (some x.open_.sec) (some (w32 x.open_.ns)) (some (w32 x.length)) (some (w32 x.period))) ∧
    (∃ t, Machine.exec (.readCtrl arg) s = .next t ∧ t.wins = s.wins ∧
      t.Job 0x13 0 (some x.ctrl) (some (w32 x.offset)) (some x.trigger) (some (w32 (b2n x.armed))))) ∧
  (∀ (s : State) (arg : BitVec 16) (c : Instr), s.mbxBusy 0x13 = false → 255 < arg.toNat →
    c ∈ [Instr.loadTimes arg, .loadCtrl arg, .winArm arg, .winDisarm arg, .readTimes arg, .readCtrl arg, .trigger arg] →
    ∃ t, Machine.exec c s = .next t ∧ t.Job 0x13 2 none none none none ∧ t.wins = s.wins ∧ t.winOpen = s.winOpen)

/-- Triggers, state bits and classification (R91–R98): a trigger makes the instance of an armed window of KIND 2 to 4 unless one is still
current and RETRIGGER is 0, and is counted as ignored otherwise; on a disarmed window it has no effect; the state bit follows the counter;
an edge whose settle time has passed is judged once against its instance and counted, and reported where REPORT selects its result. -/
def Obligations.WindowsOpenCloseAndJudgeEdges : Prop :=
  (∀ (s : State) (arg : BitVec 16), s.mbxBusy 0x13 = false → arg.toNat ≤ 255 → (s.win arg.toNat).armed = true →
    let x := s.win arg.toNat
    let taken := decide (2 ≤ x.kind) && (bit x.ctrl 4 || !(x.inst.any fun o => !timeReached s.now (x.close o)))
    ∃ t, Machine.exec (.trigger arg) s = .next t ∧ t.Job 0x13 0 none none none none ∧
      (taken = true → (t.win arg.toNat).inst = some (timeAdd s.now x.offset) ∧ t.rd Reg.winCntRetrigIgn = s.rd Reg.winCntRetrigIgn) ∧
      (taken = false → t.win arg.toNat = x ∧ t.rd Reg.winCntRetrigIgn = satInc (s.rd Reg.winCntRetrigIgn) ∧ t.Raised 0x13 1)) ∧
  (∀ (s : State) (arg : BitVec 16), s.mbxBusy 0x13 = false → arg.toNat ≤ 255 → (s.win arg.toNat).armed = false →
    ∃ t, Machine.exec (.trigger arg) s = .next t ∧ t.Job 0x13 0 none none none none ∧ t.wins = s.wins ∧
      ∀ k, k ≠ Reg.mbxFlag 0x13 → t.rd k = s.rd k) ∧
  (∀ (s : State) (w : Fin 256),
    ∃ t, Machine.exec (.windowStateChange w) s = .next t ∧ setHas t.winOpen w = (s.win w).isOpen s.now ∧ t.wins = s.wins) ∧
  (∀ (s : State) (i : Nat) (e : WinEdge) (rest : List WinEdge), s.winEdges.drop i = e :: rest →
    timeReached s.now (timeAdd e.time (s.fld Reg.winSettle 0 16)) = true →
    let x := s.win e.win
    let raw := match s.judged x e with
      | some o => classify e.time e.unc o (x.close o)
      | none => 3
    ∃ t, Machine.exec (.windowClassify i) s = .next t ∧ t.winEdges = s.winEdges.take i ++ rest ∧
      t.rd Reg.winCntResult = satInc (s.rd Reg.winCntResult) ∧
      t.rd Reg.winCntBoundary = (if raw = 2 then satInc (s.rd Reg.winCntBoundary) else s.rd Reg.winCntBoundary) ∧
      (bit x.ctrl (12 + raw) = true → t.Raised 0x13 0)) ∧
  (∀ (s : State) (i : Nat) (e : WinEdge) (rest : List WinEdge), s.winEdges.drop i = e :: rest →
    timeReached s.now (timeAdd e.time (s.fld Reg.winSettle 0 16)) = false → Machine.exec (.windowClassify i) s = .next s)

/-- The DRL mailbox on entry ARG (R101, R104–R111): an entry that is not ARMED takes the loads and becomes LOADED with both; ARM asks for
a LOADED or DONE entry with a sound period, fixes its first target from the TCLK edge that follows, restores its count and answers the
target and whether it is on short notice, or late, which is reported and under RUN leaves the first target to be run; DISARM makes an
ARMED entry DONE, cancels its launches and leaves any other entry as it is; CLEAR empties an entry; the reads answer what it holds. What
stops a command of the DRL mailbox (R109, R110): an ARG above 4,095 is RANGE, and an uncorrectable error in the entry read is ECC and
leaves the entry EMPTY. -/
def Obligations.DrillEntriesAreLoadedArmedAndRead : Prop :=
  (∀ (s : State) (arg : BitVec 16) (ecc : ReadEcc), s.mbxBusy 0x12 = false → arg.toNat ≤ 4095 → eccUsable ecc = true →
    let n := arg.toNat
    let e := s.drl n
    (e.st ≠ .armed →
      (bits (s.mbxD 0x12 1) 0 30 < 1000000000 →
        ∃ t, Machine.exec (.drlLoadTime arg) s = .next t ∧ t.Job 0x12 0 none none none none ∧
          t.drl n = { e with sec := s.mbxD 0x12 0, ns := w32 (bits (s.mbxD 0x12 1) 0 30), period := s.mbxD 0x12 2,
                             count := s.mbxD 0x12 3, hasTime := true, st := if e.st = .empty ∧ e.hasAction = true then .loaded else e.st } ∧
          ∀ m, m ≠ n → t.drl m = s.drl m) ∧
      (1000000000 ≤ bits (s.mbxD 0x12 1) 0 30 →
        ∃ t, Machine.exec (.drlLoadTime arg) s = .next t ∧ t.Job 0x12 2 none none none none ∧ t.drill = s.drill) ∧
      (actionBad (s.mbxD 0x12 0 &&& 0x03FFFFFF#32) (s.mbxD 0x12 1) (s.mbxD 0x12 2) = false →
        ∃ t, Machine.exec (.drlLoadAction arg) s = .next t ∧ t.Job 0x12 0 none none none none ∧
          t.drl n = { e with action := s.mbxD 0x12 0 &&& 0x03FFFFFF#32, p1 := s.mbxD 0x12 1, p2 := s.mbxD 0x12 2,
                             p3 := s.mbxD 0x12 3, hasAction := true, st := if e.st = .empty ∧ e.hasTime = true then .loaded else e.st } ∧
          ∀ m, m ≠ n → t.drl m = s.drl m) ∧
      (actionBad (s.mbxD 0x12 0 &&& 0x03FFFFFF#32) (s.mbxD 0x12 1) (s.mbxD 0x12 2) = true →
        ∃ t, Machine.exec (.drlLoadAction arg) s = .next t ∧ t.Job 0x12 2 none none none none ∧ t.drill = s.drill) ∧
      (∃ t, Machine.exec (.drlClear arg) s = .next t ∧ t.Job 0x12 0 none none none none ∧ t.drl n = DrillEnt.init ∧
        ∀ m, m ≠ n → t.drl m = s.drl m)) ∧
    (e.st = .armed → ∀ c ∈ [Instr.drlLoadTime arg, .drlLoadAction arg, .drlClear arg],
      ∃ t, Machine.exec c s = .next t ∧ t.Job 0x12 1 none none none none ∧ t.drill = s.drill) ∧
    (e.st = .loaded ∨ e.st = .done → e.periodOk = true →
      let at' : TimePoint := if bit e.action 6 then timeAdd s.nextEdge ((e.sec.toNat : Int) * 1000000000 + e.ns.toNat)
        else ⟨e.sec, e.ns.toNat⟩
      (0 ≤ timeDiff at' s.nextEdge →
        ∃ t, Machine.exec (.drlArm arg ecc) s = .next t ∧
          t.Job 0x12 0 (some at'.sec) (some (w32 at'.ns)) (some (if timeDiff at' s.nextEdge < 1000 then 2 else 0)) none ∧
          (t.drl n).st = .armed ∧ (t.drl n).target = at' ∧ (t.drl n).consumed = 0 ∧ ∀ m, m ≠ n → t.drl m = s.drl m) ∧
      (timeDiff at' s.nextEdge < 0 →
        ∃ t x, Machine.exec (.drlArm arg ecc) s = .next t ∧ t.Job 0x12 0 (some at'.sec) (some (w32 at'.ns)) (some x) none ∧
          bit x 0 = true ∧ t.Raised 0x12 0 ∧ (bit e.action 4 = true → (t.drl n).run = some at') ∧
          ∀ m, m ≠ n → t.drl m = s.drl m)) ∧
    (¬ (e.st = .loaded ∨ e.st = .done) →
      ∃ t, Machine.exec (.drlArm arg ecc) s = .next t ∧ t.Job 0x12 3 none none none none ∧ t.drl n = e) ∧
    (e.st = .loaded ∨ e.st = .done → e.periodOk = false →
      ∃ t, Machine.exec (.drlArm arg ecc) s = .next t ∧ t.Job 0x12 2 none none none none ∧ t.drl n = e) ∧
    (∃ t, Machine.exec (.drlDisarm arg) s = .next t ∧ t.Job 0x12 0 none none none none ∧
      t.drl n = (if e.st = .armed then { e with st := .done, prepared := false, run := none, short := false } else e) ∧
      ∀ m, m ≠ n → t.drl m = s.drl m) ∧
    (∃ t, Machine.exec (.drlReadTime arg ecc) s = .next t ∧ t.drill = s.drill ∧
      t.Job 0x12 0 (some e.sec) (some e.ns) (some e.period) (some e.count)) ∧
    (∃ t, Machine.exec (.drlReadAction arg ecc) s = .next t ∧ t.drill = s.drill ∧
      t.Job 0x12 0 (some e.action) (some e.p1) (some e.p2) (some e.p3)) ∧
    (∃ t, Machine.exec (.drlReadState arg ecc) s = .next t ∧ t.drill = s.drill ∧
      t.Job 0x12 0 (some e.target.sec) (some (w32 e.target.ns))
        (some (if e.count = 0 then 0xFFFFFFFF#32 else w32 (e.count.toNat - e.consumed))) (some (w32 e.st.code)))) ∧
  ((∀ (s : State) (arg : BitVec 16) (ecc : ReadEcc) (c : Instr), s.mbxBusy 0x12 = false → 4095 < arg.toNat →
    c ∈ [Instr.drlLoadTime arg, .drlLoadAction arg, .drlArm arg ecc, .drlDisarm arg, .drlReadTime arg ecc, .drlReadAction arg ecc,
      .drlReadState arg ecc, .drlClear arg] →
    ∃ t, Machine.exec c s = .next t ∧ t.Job 0x12 2 none none none none ∧ t.drill = s.drill) ∧
  (∀ (s : State) (arg : BitVec 16) (ecc : ReadEcc) (c : Instr), s.mbxBusy 0x12 = false → arg.toNat ≤ 4095 → eccUsable ecc = false →
    c ∈ [Instr.drlArm arg ecc, .drlReadTime arg ecc, .drlReadAction arg ecc, .drlReadState arg ecc] →
    ∃ t, Machine.exec c s = .next t ∧ t.Job 0x12 4 none none none none ∧ t.drl arg.toNat = DrillEnt.init))

/-- Launching (R112–R118, R121–R123): 1 µs before its target an entry is prepared and the tiles it needs are woken; in its turn, with its
tile's clock running and 256 launches of the last microsecond not reached, an entry fires at its target: its action is carried out and one
repetition consumed, the next target is one period on, and the last repetition makes it DONE; a launch that asks for a locked clock is
counted and skipped without one, and one that the lease refuses is counted; a launch more than 4 ns late, or beyond 256, is counted and
reported, and a late run fires once; a pulse ends at its time in the latch and in the command bit. -/
def Obligations.ArmedEntriesFireAtTheirTargets : Prop :=
  (∀ (s : State) (n : Fin 4096) (ecc : ReadEcc), eccUsable ecc = true → s.hubUp = true →
    (s.drl n).st = .armed → (s.drl n).prepared = false → timeDiff (s.drl n).target s.now ≤ 1000 →
    ∃ t, Machine.exec (.drillPrepare n ecc) s = .next t ∧ (t.drl n).prepared = true ∧
      ∀ j, j < 8 → (s.drl n).actsOn j = true → (s.tile j).clk = .off →
        (t.tile j).clk = .starting ∧ t.rd (Reg.tileCntWake j) = satInc (s.rd (Reg.tileCntWake j))) ∧
  (∀ (s : State) (n : Fin 4096) (lateNs : Nat) (ecc : ReadEcc), eccUsable ecc = true →
    let e := s.drl n
    s.Launches n e lateNs → e.periodOk = true → lateNs ≤ 4 → s.crowded e.target = false →
    ∃ t, Machine.exec (.drillFire n lateNs false ecc) s = .next t ∧ (t.drl n).consumed = e.consumed + 1 ∧
      (t.drl n).target = timeAdd e.target e.periodNs ∧
      (t.drl n).st = (if e.count ≠ 0 ∧ e.count.toNat ≤ e.consumed + 1 then .done else .armed) ∧
      (bit e.action 24 = true → s.timeState ≠ 0 → t.rd Reg.drlCntUnlocked = satInc (s.rd Reg.drlCntUnlocked) ∧ t.Raised 0x12 0 ∧
        (t.drl n).fired = e.fired ∧ t.lines = s.lines) ∧
      (bit e.action 24 = false ∨ s.timeState = 0 →
        (4 ≤ e.code ∧ e.code ≤ 9 ∨ s.latchRefused (bits e.action 8 8) = false →
          (t.drl n).fired = e.fired + 1 ∧ t.rd Reg.drlCntFired = satInc (s.rd Reg.drlCntFired) ∧
          t.rd Reg.drlCntLateRun = s.rd Reg.drlCntLateRun) ∧
        (e.code < 4 → s.latchRefused (bits e.action 8 8) = true →
          (t.drl n).fired = e.fired ∧ t.rd Reg.drlCntRefused = satInc (s.rd Reg.drlCntRefused) ∧
          (t.line (bits e.action 8 8)).latch = (s.line (bits e.action 8 8)).latch) ∧
        (e.code = 1 ∨ e.code = 2 → s.latchRefused (bits e.action 8 8) = false →
          (t.line (bits e.action 8 8)).latch = decide (e.code = 1)) ∧
        (e.code = 3 → s.latchRefused (bits e.action 8 8) = false →
          (t.line (bits e.action 8 8)).pulse = some ⟨bit e.action 16, timeAdd e.target e.p1.toNat⟩) ∧
        (e.code = 4 → t.starts = s.starts ++
          [⟨BitVec.ofNat 64 (e.p1.toNat + e.p2.toNat * 2 ^ 32), some e.target, 20 * s.tclks⟩]))) ∧
  (∀ (s : State) (n : Fin 4096) (lateNs : Nat) (ecc : ReadEcc), eccUsable ecc = true →
    let e := s.drl n
    s.Launches n e lateNs → 4 < lateNs ∨ s.crowded e.target = true → bit e.action 24 = false →
    4 ≤ e.code ∧ e.code ≤ 9 ∨ s.latchRefused (bits e.action 8 8) = false →
    ∃ t, Machine.exec (.drillFire n lateNs false ecc) s = .next t ∧ (t.drl n).fired = e.fired + 1 ∧
      t.rd Reg.drlCntFired = satInc (s.rd Reg.drlCntFired) ∧ t.rd Reg.drlCntLateRun = satInc (s.rd Reg.drlCntLateRun) ∧
      t.Raised 0x12 0) ∧
  (∀ (s : State) (n : Fin 4096) (lateNs : Nat) (ecc : ReadEcc) (p : TimePoint), eccUsable ecc = true → lateNs ≤ 40 →
    (s.drl n).run = some p → s.drillReady (s.drl n) = true → bit (s.drl n).action 24 = false →
    4 ≤ (s.drl n).code ∧ (s.drl n).code ≤ 9 ∨ s.latchRefused (bits (s.drl n).action 8 8) = false →
    ∃ t, Machine.exec (.drillFire n lateNs true ecc) s = .next t ∧ (t.drl n).run = none ∧ (t.drl n).fired = (s.drl n).fired + 1 ∧
      t.rd Reg.drlCntLateRun = satInc (s.rd Reg.drlCntLateRun)) ∧
  (∀ (s : State) (k : Fin 256) (inLatch inCommand : Bool), ∃ t, Machine.exec (.pulseEnd k inLatch inCommand) s = .next t ∧
      (t.line k).pulse = (if inLatch && s.pulseOver (s.line k).pulse then none else (s.line k).pulse) ∧
      (t.line k).cmdPulse = (if inCommand && s.pulseOver (s.line k).cmdPulse then none else (s.line k).cmdPulse) ∧
      (t.line k).latch = (s.line k).latch ∧
      (inLatch = true → s.pulseOver (s.line k).pulse = true → ∀ d ∈ t.pulseDone, d.line ≠ k))

/-- The bank check and the clock of a tile (R125, R127, R128, R495): VDDIO outside its window for 10 µs fails check 0x0002, abandons every
filter of the tile and is a fault of the lease; back inside for 1 ms it clears, and each line's qualified level is its pin's; an access to
a tile whose clock is off starts it and stalls, the clock locks and the stalled accesses go on in their order, it is restarted and counted
when it has not locked within 1 µs, and it stops only when nothing has needed it for IDLE_STOP. The counter function (R141, R142): a
capture records the count, the number of edges and the first and last stamps in CTR_CAP, raises its bit and begins a new interval; ZERO
clears the count; a periodic capture is one for each multiple of CAP_PERIOD that the counter reaches and no forced step has passed over.
Where the condition of a command that reports an event does not hold, the state stays as it is: the model's choice (log entry 1). -/
def Obligations.TilesAndCountersFollowTheirChecks : Prop :=
  ((∀ (s : State) (n : Fin 8) (v : BankLevel), ∃ t, Machine.exec (.vddioWindowChange n v) s = .next t ∧
      (t.tile n).bank = (if s.fld (Reg.tileBankCfg n) 0 2 = 3 then .inside else v) ∧ t.lines = s.lines) ∧
  (∀ (s : State) (n : Fin 8), s.hubUp = true → (s.tile n).bank ≠ .inside → (s.tile n).bankFail = false →
    s.passed (s.tile n).bankAt (usTclks 10) = true →
    ∃ t, Machine.exec (.bankCheckFail n) s = .next t ∧ (t.tile n).bankFail = true ∧
      t.rd (Reg.tileCntBank n) = satInc (s.rd (Reg.tileCntBank n)) ∧ t.Raised (0x40 + n) 1 ∧ t.flag Reg.leaseFault 3 = true ∧
      ∀ k, k / 32 = n.val → (t.line k).filt = none) ∧
  (∀ (s : State) (n : Fin 8), s.hubUp = true → (s.tile n).bank = .inside → (s.tile n).bankFail = true →
    s.passed (s.tile n).bankAt (msTclks 1) = true →
    ∃ t, Machine.exec (.bankCheckClear n) s = .next t ∧ (t.tile n).bankFail = false ∧ t.Raised (0x40 + n) 2 ∧
      ∀ k, k / 32 = n.val → (t.line k).qual = (s.line k).raw) ∧
  (∀ (s : State) (n : Fin 8) (v : Word), s.TileReady n → ∃ t, Machine.exec (.bankCfgWrite n v) s = .next t ∧
      t.rd (Reg.tileBankCfg n) = v &&& 3#32 ∧ (bits v 0 2 = 3 → (t.tile n).bank = .inside)) ∧
  (∀ (s : State) (a : Agent) (n : Fin 8) (off : Nat) (v : Word), s.hubUp = true → (s.tile n).clk = .off → off < 0x1000 → off % 4 = 0 →
    let addr := pageKey (0x40 + n) off
    ∃ t, Machine.exec (.registerWrite (.bus a (BitVec.ofNat 48 addr) (wordBytes v))) s = .next t ∧ (t.tile n).clk = .starting ∧
      t.rd (Reg.tileCntWake n) = satInc (s.rd (Reg.tileCntWake n)) ∧ (∀ k, k ≠ Reg.tileCntWake n → t.rd k = s.rd k) ∧
      Tab.get [] t.stalls n = Tab.get [] s.stalls n ++ [⟨a, addr, some (wordBytes v), 0⟩]) ∧
  (∀ (s : State) (n : Fin 8), (s.tile n).clk = .starting →
    (∀ l, Tab.get [] s.stalls n = l → Machine.exec (.tileClockLock n) s = .next
      (l.foldl State.stallEnds { s.tileLock n with stalls := Tab.set [] s.stalls n [] })) ∧
    (Tab.get [] s.stalls n = [] → ∃ t, Machine.exec (.tileClockLock n) s = .next t ∧ (t.tile n).clk = .running ∧ ∀ k, t.rd k = s.rd k) ∧
    (s.passed (s.tile n).clkAt (usTclks 1) = true →
      ∃ t, Machine.exec (.tileClockLockTimeout n) s = .next t ∧ (t.tile n).clk = .starting ∧
        t.rd (Reg.tileCntWake n) = satInc (s.rd (Reg.tileCntWake n)) ∧
        t.rd Reg.clkCntTileLock = satInc (s.rd Reg.clkCntTileLock) ∧ t.Raised 0x02 0)) ∧
  (∀ (s : State) (n : Fin 8), (s.tile n).clk = .running →
    (s.tileNeeded n = false → s.passed (s.tile n).clkAt (usTclks (s.idleStop n)) = true →
      ∃ t, Machine.exec (.tileClockStop n) s = .next t ∧ (t.tile n).clk = .off ∧ ∀ k, t.rd k = s.rd k) ∧
    (s.tileNeeded n = true ∨ s.passed (s.tile n).clkAt (usTclks (s.idleStop n)) = false →
      Machine.exec (.tileClockStop n) s = .next s))) ∧
  ((∀ (s : State) (c : Fin 64), s.TileReady (c / 8) → s.runs c 1 = true →
    let x := s.ctr c
    ∃ t, Machine.exec (.ctrCapture c) s = .next t ∧ t.rd (Reg.chCtrCap c 0) = s.rd (Reg.chCtrCount c) ∧
      t.rd (Reg.chCtrCap c 1) = w32 x.count ∧
      (x.count ≠ 0 → t.rd (Reg.chCtrCap c 2) = x.first.sec ∧ t.rd (Reg.chCtrCap c 3) = w32 x.first.ns ∧
        t.rd (Reg.chCtrCap c 4) = x.last.sec ∧ t.rd (Reg.chCtrCap c 5) = w32 x.last.ns) ∧
      (t.ctr c).count = 0 ∧ t.Raised (0x80 + c) 9) ∧
  (∀ (s : State) (c : Fin 64), s.TileReady (c / 8) →
    ∃ t, Machine.exec (.ctrZero c) s = .next t ∧ t.rd (Reg.chCtrCount c) = 0) ∧
  (∀ (s : State) (c : Fin 64), s.runs c 1 = true → s.fld (Reg.chCtrCfg c) 16 16 ≠ 0 → timeDiff s.now (s.capMultiple c) ≤ 41 →
    (∀ l, (s.ctr c).multiple = some l → 0 < timeDiff (s.capMultiple c) l) → (s.ctr c).skipped ≠ some (s.capMultiple c) →
    ∃ t, Machine.exec (.periodicCapture c) s = .next t ∧ (t.ctr c).multiple = some (s.capMultiple c) ∧ (t.ctr c).count = 0 ∧
      t.rd (Reg.chCtrCap c 0) = s.rd (Reg.chCtrCount c)))

/-- Writes that drive a line (R130–R133, R139, R140), to a tile whose clock runs: OUT_SET and OUT_CLR set the base level of the lines
named that the lease does not refuse, and of a refused PROTECTED line the command bit alone, and leave the other lines of the channel;
SAFE_CMD enters the safe state of the lines named, with the level then driven held, and releases it, and leaves the other lines of the
channel; FUNC is taken while EN is 0, but not a CAN controller that another channel has selected, which sets CAN_CONFLICT whatever EN is.
The checks of a line (R134–R138): a level held beyond MAX_WIDTH, a line idle beyond IDLE, and a pin that has differed from its driven
level for RB_TIME each fail once, are counted and raise their bit, and the last puts the line in its safe state and faults the lease where
it is so set; a drain tick, once LEAK has passed, removes 1 from the bucket, and at 0 the edge-rate failure clears and a block ends with
the line's qualified level delivered. -/
def Obligations.LinesAreDrivenAndChecked : Prop :=
  ((∀ (s : State) (c : Fin 64) (v : Word), s.TileReady (c / 8) → s.lease.ok →
    ∃ t, Machine.exec (.outSet c v) s = .next t ∧
      ∀ j, j < 4 →
        (bit v j = true → (t.line (4 * c + j)).cmd = true ∧
          (t.line (4 * c + j)).latch = (if s.latchRefused (4 * c + j) then (s.line (4 * c + j)).latch else true)) ∧
        (bit v j = false → t.line (4 * c + j) = s.line (4 * c + j))) ∧
  (∀ (s : State) (c : Fin 64) (v : Word), s.TileReady (c / 8) → s.lease.ok →
    ∃ t, Machine.exec (.outClr c v) s = .next t ∧
      ∀ j, j < 4 →
        (bit v j = true → (t.line (4 * c + j)).cmd = false ∧
          (t.line (4 * c + j)).latch = (if s.latchRefused (4 * c + j) then (s.line (4 * c + j)).latch else false)) ∧
        (bit v j = false → t.line (4 * c + j) = s.line (4 * c + j))) ∧
  (∀ (s : State) (c : Fin 64) (v : Word), s.TileReady (c / 8) → ∃ t, Machine.exec (.safeEnter c v) s = .next t ∧
      ∀ j, j < 4 →
        (bit v j = true → (t.line (4 * c + j)).safe = true ∧
          (∀ b, (s.line (4 * c + j)).safe = false → s.roleDrive (4 * c + j) = .level b → (t.line (4 * c + j)).held = b)) ∧
        (bit v j = false → t.line (4 * c + j) = s.line (4 * c + j))) ∧
  (∀ (s : State) (c : Fin 64) (v : Word), s.TileReady (c / 8) → ∃ t, Machine.exec (.safeRelease c v) s = .next t ∧
      ∀ j, j < 4 →
        (bit v (8 + j) = true → (t.line (4 * c + j)).safe = false ∧ (t.line (4 * c + j)).rbFault = false) ∧
        (bit v (8 + j) = false → t.line (4 * c + j) = s.line (4 * c + j))) ∧
  (∀ (s : State) (c : Fin 64) (v : Word), s.TileReady (c / 8) →
    let taken := bits v 0 4 = 9 ∧ ∃ d, d < 64 ∧ d ≠ c.val ∧ s.chFunc d = 9 ∧ s.fld (Reg.chFunc d) 8 4 = bits v 8 4
    ∃ t, Machine.exec (.funcWrite c v) s = .next t ∧
      (taken → t.rd (Reg.chFunc c) = s.rd (Reg.chFunc c) ∧ bit (t.rd (Reg.status (0x80 + c))) 0 = true) ∧
      (¬ taken → s.enabled (0x80 + c) = false →
        t.rd (Reg.chFunc c) = v &&& 0xF0F#32 ∧ bit (t.rd (Reg.status (0x80 + c))) 0 = false) ∧
      (¬ taken → s.enabled (0x80 + c) = true →
        t.rd (Reg.chFunc c) = s.rd (Reg.chFunc c) ∧ t.rd (Reg.status (0x80 + c)) = s.rd (Reg.status (0x80 + c))))) ∧
  ((∀ (s : State) (k : Fin 256), let m := bits (s.rd (Reg.chLqWidth (k / 4) (k % 4))) 16 16
    m ≠ 0 → (s.line k).qual = bit (s.rd (Reg.chLqCfg (k / 4) (k % 4))) 2 → (s.line k).maxFail = false →
    (s.tile (k / 32)).bankFail = false → s.passed (s.line k).edgeAt (msTclks m) = true → s.hubUp = true →
    ∃ t, Machine.exec (.maxWidthExpiry k) s = .next t ∧ (t.line k).maxFail = true ∧ t.Raised (0x80 + k / 4) 8 ∧
      t.rd (Reg.chCntMaxWidth (k / 4)) = satInc (s.rd (Reg.chCntMaxWidth (k / 4)))) ∧
  (∀ (s : State) (k : Fin 256), let m := s.fld (Reg.chLqIdle (k / 4) (k % 4)) 0 16
    m ≠ 0 → (s.line k).idleFail = false → (s.tile (k / 32)).bankFail = false → s.passed (s.line k).edgeAt (msTclks m) = true →
    s.hubUp = true →
    ∃ t, Machine.exec (.idleExpiry k) s = .next t ∧ (t.line k).idleFail = true ∧ t.Raised (0x80 + k / 4) 8 ∧
      t.rd (Reg.chCntIdle (k / 4)) = satInc (s.rd (Reg.chCntIdle (k / 4)))) ∧
  (∀ (s : State) (k : Fin 256), 1 < (s.line k).bucket → (s.line k).leakAt ≤ s.tclks →
    Machine.exec (.leakTick k) s = .next (s.setLine k { s.line k with
      bucket := (s.line k).bucket - 1, leakAt := (s.line k).leakAt + usTclks (s.leakUs k) })) ∧
  (∀ (s : State) (k : Fin 256), (s.line k).bucket = 1 → (s.line k).leakAt ≤ s.tclks → s.hubUp = true →
    ∃ t, Machine.exec (.leakTick k) s = .next t ∧ (t.line k).bucket = 0 ∧ (t.line k).blocked = false ∧ (t.line k).rateFail = false ∧
      ((s.line k).blocked = true → (s.tile (k / 32)).bankFail = false → (s.line k).last.isSome = true →
        (t.line k).level = (s.line k).qual) ∧
      ((s.line k).blocked = true → t.Raised (0x80 + k / 4) 7)) ∧
  (∀ (s : State) (k : Fin 256) (b : Bool) (c : Nat), bit (s.lout k) 0 = true → bits (s.lout k) 16 16 ≠ 0 → s.pinDrive k = .level b →
    b ≠ (s.line k).raw → (s.line k).differTold = false → (s.line k).differAt = some c →
    s.passed c (bits (s.lout k) 16 16) = true →
    ∃ t, Machine.exec (.readbackMismatch k) s = .next t ∧ (t.line k).rbFault = true ∧ t.Raised (0x80 + k / 4) 0 ∧
      t.rd (Reg.chCntReadback (k / 4)) = satInc (s.rd (Reg.chCntReadback (k / 4))) ∧
      (bit (s.lout k) 6 = true → (t.line k).safe = true) ∧ (s.compared k = true → t.flag Reg.leaseFault 2 = true)))

/-- A consumer's side of a FIFO (R145, R149–R151): a read takes the next word; with nothing readable it answers the value last read, sets
UNDERRUN and is counted on a channel; DROP_REST removes the oldest packet, counted on a TX FIFO, and FLUSH every packet, and on RX clears
UNDERRUN; UNDER_CLR clears the underrun bit and leaves the packets. The hub die and, for a channel, its tile's clock run. A producer's
side of a TX FIFO (R144, R152): the first word of a packet is its header and opens it; each further word is stored behind it, and the last
one that the header announces completes it; a header of length 0 opens nothing and is counted; words of a packet that did not fit are
discarded as they arrive. The hub die and the tile's clock run. -/
def Obligations.FifosPassTheirPacketsInOrder : Prop :=
  ((∀ (s : State) (u : Fin 80), s.UnitReady u → s.fifoAvail (rxUnit u) ≠ 0 →
    let w := s.sramGet (s.fifoKey (rxUnit u) (s.fifo (rxUnit u)).rd)
    ∃ t, Machine.exec (.rxDataRead u) s = .next t ∧ t.reply = ⟨0, wordBytes w⟩ ∧
      (t.fifo (rxUnit u)).rd = (s.fifo (rxUnit u)).rd + 1 ∧ (t.fifo (rxUnit u)).lastRead = w ∧ t.sram = s.sram ∧
      (∀ p rest, (s.fifo (rxUnit u)).pkts = p :: rest → (t.fifo (rxUnit u)).pkts =
        (if p.complete = true ∧ pktSpan (rxUnit u) p ≤ p.read + 1 then rest else { p with begun := true, read := p.read + 1 } :: rest))) ∧
  (∀ (s : State) (u : Fin 80), s.UnitReady u → s.fifoAvail (rxUnit u) = 0 →
    ∃ t, Machine.exec (.rxDataRead u) s = .next t ∧ t.reply = ⟨0, wordBytes (s.fifo (rxUnit u)).lastRead⟩ ∧
      (t.fifo (rxUnit u)).underrun = true ∧ (t.fifo (rxUnit u)).pkts = (s.fifo (rxUnit u)).pkts ∧
      (u.val < 64 → t.rd (Reg.chCntRxUnderrun u) = w32 (capAt 0xFFFFFFFF ((s.rd (Reg.chCntRxUnderrun u)).toNat + 1)))) ∧
  (∀ (s : State) (u : Fin 80) (p : FifoPkt) (rest : List FifoPkt), s.UnitReady u → (s.fifo (rxUnit u)).pkts = p :: rest →
    ∃ t, Machine.exec (.rxDropRest u) s = .next t ∧ (t.fifo (rxUnit u)).pkts = rest) ∧
  (∀ (s : State) (u : Fin 80), s.UnitReady u → ∃ t, Machine.exec (.rxFlush u) s = .next t ∧ (t.fifo (rxUnit u)).pkts = [] ∧
      (t.fifo (rxUnit u)).underrun = false) ∧
  (∀ (s : State) (u : Fin 80), s.UnitReady u → ∃ t, Machine.exec (.rxUnderClr u) s = .next t ∧ (t.fifo (rxUnit u)).underrun = false ∧
      (t.fifo (rxUnit u)).pkts = (s.fifo (rxUnit u)).pkts ∧ (t.fifo (rxUnit u)).rd = (s.fifo (rxUnit u)).rd) ∧
  (∀ (s : State) (c : Fin 64) (p : FifoPkt) (rest : List FifoPkt), s.TileReady (c / 8) → (s.fifo (txFifo c)).pkts = p :: rest →
    ∃ t, Machine.exec (.txDropRest c) s = .next t ∧ (t.fifo (txFifo c)).pkts = rest ∧
      t.rd (Reg.chCntTxDropped c) = w32 (capAt 0xFFFFFFFF ((s.rd (Reg.chCntTxDropped c)).toNat + 1))) ∧
  (∀ (s : State) (c : Fin 64), s.TileReady (c / 8) → ∃ t, Machine.exec (.txFlush c) s = .next t ∧ (t.fifo (txFifo c)).pkts = []) ∧
  (∀ (s : State) (c : Fin 64), s.TileReady (c / 8) → ∃ t, Machine.exec (.txUnderClr c) s = .next t ∧ (t.fifo (txFifo c)).underrun = false ∧
      (t.fifo (txFifo c)).pkts = (s.fifo (txFifo c)).pkts)) ∧
  ((∀ (s : State) (c : Fin 64) (w : Word), s.TileReady (c / 8) → (s.fifo (txFifo c)).skip = 0 → (s.fifo (txFifo c)).writing = none → bits w 0 16 ≠ 0 →
    s.fifoFree (txFifo c) ≠ 0 →
    ∃ t, Machine.exec (.txDataWrite c w) s = .next t ∧
      (t.fifo (txFifo c)).pkts = (s.fifo (txFifo c)).pkts ++
        [{ words := 0, bytes := 0, declared := bits w 0 16, begun := false, read := 0, complete := false }] ∧
      t.sramGet (t.fifoKey (txFifo c) (t.lastHeader (txFifo c))) = w) ∧
  (∀ (s : State) (c : Fin 64) (w : Word) (p : FifoPkt), s.TileReady (c / 8) → (s.fifo (txFifo c)).skip = 0 → (s.fifo (txFifo c)).writing = some p →
    s.fifoFree (txFifo c) ≠ 0 →
    ∃ t, Machine.exec (.txDataWrite c w) s = .next t ∧
      (t.fifo (txFifo c)).pkts = (s.fifo (txFifo c)).pkts.dropLast ++
        [{ p with words := p.words + 1, bytes := capAt p.declared (4 * (p.words + 1)),
                  complete := decide ((p.declared + 3) / 4 ≤ p.words + 1) }] ∧
      t.sramGet (s.fifoKey (txFifo c) (s.lastHeader (txFifo c) + 1 + p.words)) = w) ∧
  (∀ (s : State) (c : Fin 64) (w : Word), s.TileReady (c / 8) → (s.fifo (txFifo c)).skip = 0 → (s.fifo (txFifo c)).writing = none → bits w 0 16 = 0 →
    ∃ t, Machine.exec (.txDataWrite c w) s = .next t ∧ (t.fifo (txFifo c)).pkts = (s.fifo (txFifo c)).pkts ∧
      t.rd (Reg.chCntTxRewind c) = w32 (capAt 0xFFFFFFFF ((s.rd (Reg.chCntTxRewind c)).toNat + 1))) ∧
  (∀ (s : State) (c : Fin 64) (w : Word), s.TileReady (c / 8) → (s.fifo (txFifo c)).skip ≠ 0 →
    ∃ t, Machine.exec (.txDataWrite c w) s = .next t ∧ (t.fifo (txFifo c)).skip = (s.fifo (txFifo c)).skip - 1 ∧
      (t.fifo (txFifo c)).pkts = (s.fifo (txFifo c)).pkts ∧ t.sram = s.sram))

/-- The instructions of a tine engine that end in the cycle in which they execute (R164–R166, R176, R183, R184): what each writes, and
where the PC goes. HALT halts with cause 0 and sets bit 17; a shift moves N bits between OSR or ISR and slots, X or Y and counts them;
DRIVE enables and sets slots; SAMPLE and LOAD write a register; a BRANCH taken goes to its address with its counter or flag changed; MARK
sets or clears a flag or posts ENGINE_MARK, with bit 16 where IRQ = 1. HALT and SHIFT_OUT are stated to leave every other engine as it is.
-/
def Obligations.EngineInstructionsComputeAndAdvance : Prop :=
  ∀ (s : State) (c : Fin 64) (d : Fin 40),
    let w := s.engFetch c
    let x := s.eng c
    let n := insCount w
    (s.Executes c d 0 → ∃ t, Machine.exec (.halt c d) s = .next t ∧ (t.eng c).st = 2 ∧ (t.eng c).cause = 0 ∧ (t.eng c).pc = x.pc ∧
      t.Raised (0x80 + c) 17 ∧ ∀ e : Nat, e ≠ c → t.eng e = s.eng e) ∧
    (s.Executes c d 1 → ∃ t, Machine.exec (.shiftOut c d) s = .next t ∧ s.Advanced t c ∧ (t.eng c).osrN = x.osrN - n ∧
      (t.eng c).osr = (shiftOutValue (s.flag (Reg.chEngCfg c) 1) x.osr n).2 ∧
      (insSel w = 0 → (t.eng c).val =
        outSlots x.val (s.fld (Reg.chEngIobase c) 8 3) (shiftOutValue (s.flag (Reg.chEngCfg c) 1) x.osr n).1 n) ∧
      (insSel w = 1 → (t.eng c).x = BitVec.ofNat 16 (shiftOutValue (s.flag (Reg.chEngCfg c) 1) x.osr n).1) ∧
      (insSel w = 2 → (t.eng c).y = BitVec.ofNat 16 (shiftOutValue (s.flag (Reg.chEngCfg c) 1) x.osr n).1) ∧
      ∀ e : Nat, e ≠ c → t.eng e = s.eng e) ∧
    (s.Executes c d 2 → ∃ t, Machine.exec (.shiftIn c d) s = .next t ∧ s.Advanced t c ∧ (t.eng c).isrN = capAt 32 (x.isrN + n) ∧
      (insSel w = 0 → (t.eng c).isr = shiftInValue (s.flag (Reg.chEngCfg c) 2) x.isr
        (s.slotLevels c (s.fld (Reg.chEngIobase c) 0 3) (s.tileEdge d) % 2 ^ n) n) ∧
      (insSel w = 1 → (t.eng c).isr = shiftInValue (s.flag (Reg.chEngCfg c) 2) x.isr (x.x.toNat % 2 ^ n) n) ∧
      (insSel w = 2 → (t.eng c).isr = shiftInValue (s.flag (Reg.chEngCfg c) 2) x.isr (x.y.toNat % 2 ^ n) n)) ∧
    (s.Executes c d 3 → ∃ t, Machine.exec (.drive c d) s = .next t ∧ s.Advanced t c ∧
      ∀ p, p < 8 →
        (t.eng c).oe.toNat.testBit p = (if bits w 8 8 / 2 ^ p % 2 = 1 then bit w 16 else x.oe.toNat.testBit p) ∧
        (t.eng c).val.toNat.testBit p = (if bits w 8 8 / 2 ^ p % 2 = 1 ∧ bit w 16 = true then bit w p else x.val.toNat.testBit p)) ∧
    (s.Executes c d 4 → ∃ t, Machine.exec (.sample c d) s = .next t ∧ s.Advanced t c ∧
      (insSel w = 1 → (t.eng c).x = BitVec.ofNat 16 (s.slotLevels c 0 (s.tileEdge d)) ∧ (t.eng c).y = x.y) ∧
      (insSel w = 2 → (t.eng c).y = BitVec.ofNat 16 (s.slotLevels c 0 (s.tileEdge d)) ∧ (t.eng c).x = x.x)) ∧
    (s.Executes c d 5 → ∃ t, Machine.exec (.load c d) s = .next t ∧ s.Advanced t c ∧
      (if bit w 20 then (t.eng c).c1 else (t.eng c).c0) =
        (if bits w 18 2 = 0 then BitVec.ofNat 16 (bits w 0 16) else if bits w 18 2 = 1 then x.x else x.y) ∧
      (if bit w 20 then (t.eng c).c0 = x.c0 else (t.eng c).c1 = x.c1)) ∧
    (s.Executes c d 6 → ∃ t, Machine.exec (.branch c d) s = .next t ∧
      (s.branchTaken c w (s.tileEdge d) = true → (t.eng c).pc = bits w 0 10 ∧ (t.eng c).c0 = (if bits w 16 5 = 1 then x.c0 - 1 else x.c0) ∧
        (t.eng c).c1 = (if bits w 16 5 = 2 then x.c1 - 1 else x.c1) ∧
        (t.eng c).flags = (if 0x18 ≤ bits w 16 5 ∧ bits w 16 5 < 0x1C ∧ bits w 10 6 % 2 = 1 then
          x.flags &&& ~~~ BitVec.ofNat 4 (2 ^ (bits w 16 5 - 0x18)) else x.flags) ∧
        (t.eng c).st = (if inSeg (s.engSeg c) (bits w 0 10) then 1 else 2)) ∧
      (s.branchTaken c w (s.tileEdge d) = false → s.Advanced t c ∧ (t.eng c).c0 = x.c0 ∧ (t.eng c).c1 = x.c1 ∧ (t.eng c).flags = x.flags)) ∧
    (s.Executes c d 10 → bits w 19 2 = 0 → ∃ t, Machine.exec (.markSetFlag c d) s = .next t ∧ s.Advanced t c ∧
      (t.eng c).flags = x.flags ||| BitVec.ofNat 4 (2 ^ bits w 17 2) ∧ (bit w 16 = true → t.Raised (0x80 + c) 16)) ∧
    (s.Executes c d 10 → bits w 19 2 = 1 → ∃ t, Machine.exec (.markClearFlag c d) s = .next t ∧ s.Advanced t c ∧
      (t.eng c).flags = x.flags &&& ~~~ BitVec.ofNat 4 (2 ^ bits w 17 2) ∧ (bit w 16 = true → t.Raised (0x80 + c) 16)) ∧
    (s.Executes c d 10 → bits w 19 2 = 2 →
      let u := (s.engTake c (s.tileEdge d) w).postAt 0x30 .ch c 0 (s.cycleTime d) s.qualSum (w32 (at_ 16 (bits w 0 8) + x.pc))
        (w32 (at_ 16 x.y.toNat + x.x.toNat)) (countsWord x.isrN x.osrN) (w32 x.flags.toNat)
      ∃ t, Machine.exec (.markPost c d) s = .next t ∧ t = (u.markIrq c w).engAdvance c (s.cycleTime d) ∧ s.Advanced t c)

/-- The instructions that may take more than one cycle (R167–R173): a WAIT for a pin or a flag is tested in each of its engine cycles,
ends in the one in which its condition holds and otherwise waits; a WAIT TIME whose mark is reached ends late, and otherwise ends on the
tile edge nearest its mark, late where a step has passed it by more than 1 ns; 1 µs before the mark the tile's clock is prepared; PUSH,
PULL and STAMP that can act exchange their words with the FIFOs and complete, and otherwise a PUSH or PULL completes with F3 under NOWAIT
and any of them stalls without it; a stalled exchange that can act completes, with the cycles it stalled through counted. What halts an
engine besides HALT (R164, R177, R184): a reserved instruction with cause 3, an uncorrectable error of its fetch with cause 4, a corrected
one not at all; the command with cause 1, and not an engine that does not run. -/
def Obligations.EnginesWaitExchangeAndHalt : Prop :=
  ((∀ (s : State) (c : Fin 64) (d : Fin 40), s.Executes c d 7 →
    let w := s.engFetch c
    (insSel w < 3 → s.waitTest c (s.tileEdge d) 0 w ⟨insSel w, false⟩ = true →
      ∃ t, Machine.exec (.wait c d) s = .next t ∧ s.Advanced t c ∧ (t.eng c).wait = none) ∧
    (insSel w < 3 → s.waitTest c (s.tileEdge d) 0 w ⟨insSel w, false⟩ = false →
      ∃ t, Machine.exec (.wait c d) s = .next t ∧ (t.eng c).pc = (s.eng c).pc ∧ (t.eng c).wait = some ⟨insSel w, true⟩) ∧
    (insSel w = 3 → timeReached (s.cycleTime d) (s.eng c).mark = true →
      ∃ t, Machine.exec (.wait c d) s = .next t ∧ s.Advanced t c ∧ (t.eng c).timeLate = true ∧ (t.eng c).wait = none ∧
        t.Raised (0x80 + c) 21) ∧
    (insSel w = 4 ∨ insSel w = 3 ∧ timeReached (s.cycleTime d) (s.eng c).mark = false →
      ∃ t, Machine.exec (.wait c d) s = .next t ∧ (t.eng c).pc = (s.eng c).pc ∧ (t.eng c).wait = some ⟨insSel w, false⟩)) ∧
  (∀ (s : State) (c : Fin 64) (d : Fin 40) (x : EngWait), (s.eng c).wait = some x → x.kind < 3 → (s.tile (c / 8)).clk = .running →
    d.val % 2 = 0 → s.engCycleAt c (s.tileEdge d) = true →
    let w := s.engFetch c
    let n := s.tileEdge d
    (s.waitTest c n (s.engBefore c n) w x = true →
      ∃ t, Machine.exec (.waitEnd c d) s = .next t ∧ s.Advanced t c ∧ (t.eng c).wait = none ∧ (t.eng c).flags =
        (if x.kind = 2 ∧ bit w 13 = true then (s.eng c).flags &&& ~~~ BitVec.ofNat 4 (2 ^ bits w 15 2) else (s.eng c).flags)) ∧
    (s.waitTest c n (s.engBefore c n) w x = false →
      ∃ t, Machine.exec (.waitEnd c d) s = .next t ∧ (t.eng c).pc = (s.eng c).pc ∧ (t.eng c).wait = some ⟨x.kind, true⟩)) ∧
  (∀ (s : State) (c : Fin 64) (d : Fin 40) (b : Bool), (s.eng c).wait = some ⟨3, b⟩ → (s.tile (c / 8)).clk = .running → d.val % 2 = 0 →
    -1 ≤ timeDiff (s.cycleTime d) (s.eng c).mark →
    (1 < timeDiff (s.cycleTime d) (s.eng c).mark → s.engCycleAt c (s.tileEdge d) = true) →
    ∃ t, Machine.exec (.waitTimeMark c d) s = .next t ∧ s.Advanced t c ∧ (t.eng c).wait = none ∧
      (t.eng c).timeLate = decide (1 < timeDiff (s.cycleTime d) (s.eng c).mark)) ∧
  (∀ (s : State) (c : Fin 64) (b : Bool), (s.eng c).wait = some ⟨3, b⟩ → timeDiff (s.eng c).mark s.now ≤ 1000 →
    ∃ t, Machine.exec (.engineMarkPrepare c) s = .next t ∧ (t.eng c).prepared = true ∧ (t.tile (c / 8)).clk ≠ .off) ∧
  (∀ (s : State) (c : Fin 64) (d : Fin 40), s.Executes c d 8 → bit (s.engFetch c) 20 = false →
    let w := s.engFetch c
    ((s.exchange c w (s.cycleTime d)).2.1 = true →
      ∃ t, Machine.exec (.push c d) s = .next t ∧ s.Advanced t c ∧ (t.eng c).isr = 0 ∧ (t.eng c).isrN = 0 ∧
        (∀ p, pushEnd w = 0 → (s.fifo (rxFifo c)).writing = some p → (s.fifo (rxFifo c)).skipping = false → p.bytes ≤ 65531 →
          (t.fifo (rxFifo c)).writing = some { p with words := p.words + 1, bytes := p.bytes + 4 } ∧
          t.sramGet (s.fifoKey (rxFifo c) (s.lastHeader (rxFifo c) + 1 + p.words)) = (s.eng c).isr)) ∧
    ((s.exchange c w (s.cycleTime d)).2.1 = false → bit w 19 = true →
      ∃ t, Machine.exec (.push c d) s = .next t ∧ s.Advanced t c ∧ (t.eng c).flags = (s.eng c).flags ||| 8#4 ∧ t.fifos = s.fifos) ∧
    ((s.exchange c w (s.cycleTime d)).2.1 = false → bit w 19 = false →
      ∃ t, Machine.exec (.push c d) s = .next t ∧ (t.eng c).stalled = true ∧ (t.eng c).pc = (s.eng c).pc ∧ t.fifos = s.fifos ∧
        t.rd (Reg.chCntEngStall c) = satInc (s.rd (Reg.chCntEngStall c)))) ∧
  (∀ (s : State) (c : Fin 64) (d : Fin 40), s.Executes c d 8 → bit (s.engFetch c) 20 = true →
    let w := s.engFetch c
    let next := s.sramGet (s.fifoKey (txFifo c) (s.fifo (txFifo c)).rd)
    (∀ p rest, (s.fifo (txFifo c)).pkts = p :: rest → bit w 17 = true → p.read = 0 → s.txReady (txFifo c) = true →
      ∃ t, Machine.exec (.pull c d) s = .next t ∧ s.Advanced t c ∧ (t.eng c).x = BitVec.ofNat 16 (bits next 16 16) ∧
        (t.eng c).y = BitVec.ofNat 16 (bits next 0 16)) ∧
    (∀ p rest, (s.fifo (txFifo c)).pkts = p :: rest → bit w 17 = false → 0 < p.read → p.read ≤ p.words →
      ∃ t, Machine.exec (.pull c d) s = .next t ∧ s.Advanced t c ∧ (t.eng c).osr = next ∧
        (t.eng c).osrN = (if p.declared ≤ 4 * p.read then 8 * (p.declared - 4 * (p.read - 1)) else 32) ∧
        (t.eng c).flags.toNat.testBit 2 = decide (p.declared ≤ 4 * p.read)) ∧
    ((s.fifo (txFifo c)).pkts = [] → bit w 19 = true →
      ∃ t, Machine.exec (.pull c d) s = .next t ∧ s.Advanced t c ∧ (t.eng c).flags = (s.eng c).flags ||| 8#4) ∧
    ((s.fifo (txFifo c)).pkts = [] → bit w 19 = false →
      ∃ t, Machine.exec (.pull c d) s = .next t ∧ (t.eng c).stalled = true ∧ (t.eng c).pc = (s.eng c).pc)) ∧
  (∀ (s : State) (c : Fin 64) (d : Fin 40), s.Executes c d 9 →
    (s.rxNeed c 2 ≤ s.fifoFree (rxFifo c) →
      ∃ t, Machine.exec (.stamp c d) s = .next t ∧ s.Advanced t c ∧
        (∀ p, (s.fifo (rxFifo c)).writing = some p → (s.fifo (rxFifo c)).skipping = false → p.bytes ≤ 65527 →
          (t.fifo (rxFifo c)).writing = some { p with words := p.words + 2, bytes := p.bytes + 8 })) ∧
    (s.fifoFree (rxFifo c) < s.rxNeed c 2 → bit (s.engFetch c) 19 = false →
      ∃ t, Machine.exec (.stamp c d) s = .next t ∧ (t.eng c).stalled = true ∧ (t.eng c).pc = (s.eng c).pc)) ∧
  (∀ (s : State) (c : Fin 64) (d : Fin 40), s.engReady c = true → (s.eng c).stalled = true → d.val % 2 = 0 →
    s.engCycleAt c (s.tileEdge d) = true → (s.exchange c (s.engFetch c) (s.cycleTime d)).2.1 = true →
    ∃ t, Machine.exec (.stallEnd c d (s.engCount c (s.tileEdge d) - 1)) s = .next t ∧ s.Advanced t c ∧ (t.eng c).stalled = false ∧
      t.rd (Reg.chCntEngStall c) = w32 (capAt 0xFFFFFFFF ((s.rd (Reg.chCntEngStall c)).toNat + (s.engCount c (s.tileEdge d) - 1))))) ∧
  ((∀ (s : State) (c : Fin 64) (d : Fin 40), s.engNow c d = true → (s.eng c).stalled = false → insReserved (s.engFetch c) = true →
    ∃ t, Machine.exec (.illegalInstruction c d) s = .next t ∧ (t.eng c).st = 2 ∧ (t.eng c).cause = 3 ∧ (t.eng c).pc = (s.eng c).pc ∧
      t.Raised (0x80 + c) 17) ∧
  (∀ (s : State) (c : Fin 64) (d : Fin 40) (a y : Word), s.engNow c d = true →
    (∃ t, Machine.exec (.engineFetchEcc c d (.uncorrectable a y)) s = .next t ∧ (t.eng c).st = 2 ∧ (t.eng c).cause = 4 ∧
      (t.eng c).pc = (s.eng c).pc) ∧
    (∃ t, Machine.exec (.engineFetchEcc c d (.corrected a y)) s = .next t ∧ t.engs = s.engs)) ∧
  (∀ (s : State) (c : Fin 64), s.TileReady (c / 8) → (s.eng c).st = 1 →
    ∃ t, Machine.exec (.engHalt c) s = .next t ∧ (t.eng c).st = 2 ∧ (t.eng c).cause = 1 ∧ t.Raised (0x80 + c) 17) ∧
  (∀ (s : State) (c : Fin 64), s.TileReady (c / 8) → (s.eng c).st ≠ 1 → ∃ t, Machine.exec (.engHalt c) s = .next t ∧ t.engs = s.engs))

/-- Commands and register writes of an engine (R156, R168, R174–R179, R182): ENGINE_RESET leaves it idle at its ENTRY with its registers
0; a COMMIT is refused during a copy, swaps at once on an engine that does not run, and on one that runs waits for WRAP_TOP or with
IMMEDIATE = 1 swaps and goes to the new ENTRY; a pending swap goes to the new WRAP_BOTTOM, or is cancelled; a copy ends LEN tile cycles
after its command; ENG_SEG refuses a segment that overlaps or lies outside, or while the engine runs; words go to the staging bank or are
refused and counted; flags are set and cleared, the mark is loaded and ENG_OSR is taken while the engine does not run. Writes are made
while the hub die and the tile's clock run. Start events (R157, R180–R182): ENG_CMD.START puts one for its engine in the queue, and
GRP_START one for the engines of the group masks with a target 1 µs after the next TCLK edge; when its edge comes, the event and those of
the same target leave the queue, and each engine named that has not yet started on that edge does so: one whose channel does not run an
engine counts it as ignored, one that does not run starts at its ENTRY, one in a WAIT LAUNCH goes on, and one that runs otherwise goes on,
or begins at its ENTRY anew where CFG says so. -/
def Obligations.EngineCommandsAndStartsAct : Prop :=
  ((∀ (s : State) (c : Fin 64), s.TileReady (c / 8) → ∃ t, Machine.exec (.engineReset c) s = .next t ∧ (t.eng c).st = 0 ∧
      (t.eng c).pc = s.fld (Reg.chEngEntry c) 0 10 ∧ (t.eng c).isr = 0 ∧ (t.eng c).osr = 0 ∧ (t.eng c).oe = 0 ∧ (t.eng c).val = 0 ∧
      (t.eng c).flags = 0 ∧ (t.eng c).bank = (s.eng c).bank ∧ ∀ e : Nat, e ≠ c → t.eng e = s.eng e) ∧
  (∀ (s : State) (c : Fin 64), s.TileReady (c / 8) →
    let n := s.rd (Reg.chEngNext c)
    let swapped (t : State) : Prop := (t.eng c).bank = (!(s.eng c).bank) ∧ t.rd (Reg.chEngEntry c) = w32 (bits n 20 10) ∧
      t.rd (Reg.chEngWrap c) = w32 (at_ 16 (bits n 10 10) + bits n 0 10) ∧ (t.eng c).commitPend = false ∧ t.Raised (0x80 + c) 19
    ((s.eng c).copyBusy = true → ∀ a, ∀ i ∈ [Instr.commitAtWrap c, .commitImmediate c a],
      ∃ t, Machine.exec i s = .next t ∧ t.engs = s.engs ∧ t.rd (Reg.chCntProgRefused c) = satInc (s.rd (Reg.chCntProgRefused c))) ∧
    ((s.eng c).copyBusy = false → (s.eng c).st ≠ 1 → ∀ a, ∀ i ∈ [Instr.commitAtWrap c, .commitImmediate c a],
      ∃ t, Machine.exec i s = .next t ∧ swapped t ∧ (t.eng c).pc = (s.eng c).pc) ∧
    ((s.eng c).copyBusy = false → (s.eng c).st = 1 →
      (∃ t, Machine.exec (.commitAtWrap c) s = .next t ∧ (t.eng c).commitPend = true ∧ (t.eng c).partialShift = false ∧
        (t.eng c).pc = (s.eng c).pc ∧ (t.eng c).bank = (s.eng c).bank) ∧
      (∀ a, ∃ t, Machine.exec (.commitImmediate c a) s = .next t ∧ swapped t ∧ (t.eng c).pc = bits n 20 10 ∧ (t.eng c).wait = none)) ∧
    ((s.eng c).st = 1 → (s.eng c).next = .swap → ∀ d : Fin 40,
      ∃ t, Machine.exec (.commitSwap c d) s = .next t ∧ swapped t ∧ (t.eng c).pc = bits n 0 10 ∧ (t.eng c).next = .run)) ∧
  (∀ (s : State) (c : Fin 64), s.TileReady (c / 8) → ∃ t, Machine.exec (.cancelCommit c) s = .next t ∧ (t.eng c).commitPend = false ∧
      (t.eng c).next = .run ∧ ((s.eng c).next = .run → (t.eng c).pc = (s.eng c).pc)) ∧
  (∀ (s : State) (c : Fin 64), s.TileReady (c / 8) → ∃ t, Machine.exec (.copyActive c) s = .next t ∧ (t.eng c).copyBusy = true ∧ t.sram = s.sram) ∧
  (∀ (s : State) (c : Fin 64), (s.eng c).copyBusy = true → (s.eng c).copyAt + segLen (s.engSeg c) ≤ 20 * s.tclks + 20 →
    ∃ t, Machine.exec (.copyDone c) s = .next t ∧ (t.eng c).copyBusy = false ∧
      ∀ i, segBase (s.engSeg c) ≤ i → i < segBase (s.engSeg c) + segLen (s.engSeg c) →
        t.sramGet (instrKey c (!(s.eng c).bank) i) = s.sramGet (instrKey c (s.eng c).bank i)) ∧
  (∀ (s : State) (c : Fin 64) (v : Word), s.TileReady (c / 8) →
    let bad := decide ((s.eng c).st = 1) || s.segOverlaps c v || decide (1024 < segBase v + segLen v)
    ∃ t, Machine.exec (.engSegWrite c v) s = .next t ∧ (t.eng c).segConflict = bad ∧
      t.rd (Reg.chEngSeg c) = (if bad then s.rd (Reg.chEngSeg c) else v &&& 0x07FF03FF#32)) ∧
  (∀ (s : State) (c : Fin 64) (v : Word), s.TileReady (c / 8) →
    let a := s.fld (Reg.chEngProgAddr c) 0 10
    ∃ t, Machine.exec (.progDataWrite c v) s = .next t ∧
      (inSeg (s.engSeg c) a = true → (s.eng c).commitPend = false → (s.eng c).copyBusy = false →
        t.sramGet (instrKey c (!(s.eng c).bank) a) = v ∧ (s.flag (Reg.chEngProgAddr c) 31 = true →
          t.fld (Reg.chEngProgAddr c) 0 10 = (a + 1) % 1024)) ∧
      (inSeg (s.engSeg c) a = false ∨ (s.eng c).commitPend = true ∨ (s.eng c).copyBusy = true →
        t.sram = s.sram ∧ t.rd (Reg.chCntProgRefused c) = satInc (s.rd (Reg.chCntProgRefused c)))) ∧
  (∀ (s : State) (c : Fin 64) (v setToo : Word), s.TileReady (c / 8) →
    (∃ t, Machine.exec (.engFlagSet c v) s = .next t ∧ (t.eng c).flags = (s.eng c).flags ||| BitVec.ofNat 4 v.toNat) ∧
    (∃ t, Machine.exec (.engFlagClr c v setToo) s = .next t ∧
      (t.eng c).flags = ((s.eng c).flags &&& ~~~ BitVec.ofNat 4 v.toNat) ||| BitVec.ofNat 4 setToo.toNat) ∧
    (∃ t, Machine.exec (.engMarkWrite c v) s = .next t ∧ (t.eng c).mark = ⟨s.rd (Reg.chEngMarkSec c), capAt 999999999 (bits v 0 30)⟩) ∧
    ((s.eng c).st ≠ 1 → ∃ t, Machine.exec (.engOsrWrite c v) s = .next t ∧ (t.eng c).osr = v ∧ (t.eng c).osrN = 32) ∧
    ((s.eng c).st = 1 → ∃ t, Machine.exec (.engOsrWrite c v) s = .next t ∧ t.eng c = s.eng c))) ∧
  ((∀ (s : State) (c : Fin 64), s.TileReady (c / 8) → ∃ t, Machine.exec (.engStart c) s = .next t ∧
      t.starts = s.starts ++ [⟨BitVec.ofNat 64 (2 ^ c.val), none, 20 * s.tclks⟩]) ∧
  (∀ (s : State) (n : Fin 8), s.TileReady n → ∃ t, Machine.exec .grpStart s = .next t ∧
      t.starts = s.starts ++ [⟨BitVec.ofNat 64 ((s.rd (Reg.tileGrpMaskLo 0)).toNat + (s.rd (Reg.tileGrpMaskHi 0)).toNat * 2 ^ 32),
        some (timeAdd s.nextEdge 1000), 20 * s.tclks⟩]) ∧
  (∀ (s : State) (i : Nat) (d : Fin 40) (x : StartEvt) (e : Fin 64), s.starts[i]? = some x → s.startDue x d = true →
    x.engines.toNat.testBit e = true → (s.eng e).startedAt ≠ some (s.tileEdge d) →
    let entry := s.fld (Reg.chEngEntry e) 0 10
    ∃ t, Machine.exec (.startEventAct i d) s = .next t ∧
      t.starts = (s.starts.eraseIdx i).filter (fun y => !(x.target.isSome && decide (y.target = x.target))) ∧
      (t.eng e).startedAt = some (s.tileEdge d) ∧
      (s.runs e 10 = false → t.rd (Reg.chCntStartIgnored e) = satInc (s.rd (Reg.chCntStartIgnored e)) ∧ (t.eng e).st = (s.eng e).st ∧
        (t.eng e).pc = (s.eng e).pc) ∧
      (s.runs e 10 = true → t.Raised (0x80 + e) 20) ∧
      (s.runs e 10 = true → (s.eng e).st ≠ 1 → (t.eng e).pc = entry ∧ (t.eng e).wait = none ∧
        (t.eng e).st = (if inSeg (s.engSeg e) entry then 1 else 2)) ∧
      (s.runs e 10 = true → (s.eng e).st = 1 →
        let waits := (s.eng e).wait.any (fun w => decide (w.kind = 4))
        (waits = true → s.Advanced t e ∧ (t.eng e).wait = none) ∧
        (waits = false → s.flag (Reg.chEngCfg e) 3 = true → (t.eng e).pc = entry ∧ (t.eng e).wait = none ∧
          (t.eng e).st = (if inSeg (s.engSeg e) entry then 1 else 2)) ∧
        (waits = false → s.flag (Reg.chEngCfg e) 3 = false → (t.eng e).pc = (s.eng e).pc ∧ (t.eng e).wait = (s.eng e).wait ∧
          (t.eng e).st = 1))))

/-- Evaluation (R186–R195, R198): in a cycle in which it may take one more and no drill action is due first on a line of the rule, the
evaluator takes the next queued rule, after the change frames of earlier cycles' writes have been built, stores its result against the
operand vector as it stands, and fires it where its TRIGGER asks; a firing sets and clears the lines that its operations set and clear; an
uncorrectable error disarms the rule; an armed WHILE_TRUE rule whose result is 1 is queued at its tick, with the tick's time; a software
flag set or cleared changes SWF and queues every armed rule that is sensitive to a flag so changed. The RFX mailbox on rule ARG (R190,
R192, R196, R221): a rule that is not armed takes its terms and its actions unless a reserved bit is set or EXPRESS has no place left; ARM
evaluates it once and answers the result; DISARM removes it from the queue; CLEAR leaves no literal and no action; the reads answer what
it holds; an ARG above 1,023 is RANGE, and an uncorrectable error is ECC. -/
def Obligations.RulesAreLoadedEvaluatedAndFire : Prop :=
  ((∀ (s : State) (d : Fin 40) (ecc : ReadEcc) (n : Nat), s.nextRule = some n → s.evalRoom (20 * s.tclks + d / 2) = true →
    s.drillBefore (s.rule n).actLines (d / 2) = false → eccUsable ecc = true →
    let u := s.pubFlush (some (20 * s.tclks + d / 2))
    let r := u.rule n
    let res := u.ruleResult r
    let fire := fires (bits r.ctrl 0 2) r.result res
    ∃ t, Machine.exec (.ruleEvaluate d ecc) s = .next t ∧ (t.rule n).result = res ∧
      t.rd Reg.rfxCntEval = satInc (u.rd Reg.rfxCntEval) ∧
      (fire = true → t.rd Reg.rfxCntFired = satInc (u.rd Reg.rfxCntFired) ∧
        ∀ j, j < 4 → bits r.ops (2 * j) 2 = 1 ∨ bits r.ops (2 * j) 2 = 2 →
          (∀ i, j < i → i < 4 → bits r.ops (2 * i) 2 = 0 ∨ bits r.lines (8 * i) 8 ≠ bits r.lines (8 * j) 8) →
          (t.line (bits r.lines (8 * j) 8)).latch = decide (bits r.ops (2 * j) 2 = 1)) ∧
      (fire = false → t.rd Reg.rfxCntFired = u.rd Reg.rfxCntFired ∧ t.ruleQueued n = false ∧ t.lines = u.lines)) ∧
  (∀ (s : State) (d : Fin 40) (n : Nat) (a y : Word), s.nextRule = some n → s.evalRoom (20 * s.tclks + d / 2) = true →
    s.drillBefore (s.rule n).actLines (d / 2) = false →
    ∃ t, Machine.exec (.ruleEvaluate d (.uncorrectable a y)) s = .next t ∧ (t.rule n).armed = false ∧ (t.rule n).eccBar = true ∧
      t.Raised 0x14 1) ∧
  (∀ (s : State) (n : Fin 1024), (s.rule n).armed = true → bits (s.rule n).ctrl 0 2 = 3 → (s.rule n).result = true →
    s.ruleQueued n = false → s.passed (s.rule n).tickAt (usTclks s.tickUs) = true →
    ∃ t, Machine.exec (.ruleTick n) s = .next t ∧ t.ruleQueued n = true ∧ (t.rule n).ticked = some s.now) ∧
  (∀ (s : State) (v : Word),
    (∃ t, Machine.exec (.swfSet v) s = .next t ∧ t.rd Reg.rfxSwf = s.rd Reg.rfxSwf ||| v ∧
      ∀ n j, j < 32 → v = w32 (2 ^ j) → bit (s.rd Reg.rfxSwf) j = false → (s.rule n).armed = true →
        (s.rule n).sensitive (480 + j) = true → t.ruleQueued n = true) ∧
    (∃ t, Machine.exec (.swfClr v) s = .next t ∧ t.rd Reg.rfxSwf = s.rd Reg.rfxSwf &&& ~~~ v ∧
      ∀ n j, j < 32 → v = w32 (2 ^ j) → bit (s.rd Reg.rfxSwf) j = true → (s.rule n).armed = true →
        (s.rule n).sensitive (480 + j) = true → t.ruleQueued n = true))) ∧
  ((∀ (s : State) (arg : BitVec 16) (ecc : ReadEcc), s.mbxBusy 0x14 = false → arg.toNat ≤ 1023 → eccUsable ecc = true →
    let n := arg.toNat
    let r := s.rule n
    let ok := litsOk (s.mbxD 0x14 0) && litsOk (s.mbxD 0x14 1) && litsOk (s.mbxD 0x14 2) && litsOk (s.mbxD 0x14 3)
    let c := s.mbxD 0x14 0
    let o := s.mbxD 0x14 2
    let bad := bits c 16 16 ≠ 0 ∨ bits c 6 2 ≠ 0 ∨ bits o 8 8 ≠ 0 ∨ hasPulse o = true ∧ bits o 16 16 = 0
    let full := bit c 15 = true ∧ r.express = false ∧ 512 ≤ s.expressCount
    (r.armed = false → ok = true →
      (∃ t, Machine.exec (.loadTermsA arg) s = .next t ∧ t.Job 0x14 0 none none none none ∧
        t.rule n = { r with t0 := s.mbxD 0x14 0, t1 := s.mbxD 0x14 1, t2 := s.mbxD 0x14 2, t3 := s.mbxD 0x14 3, eccBar := false }) ∧
      (∃ t, Machine.exec (.loadTermsB arg) s = .next t ∧ t.Job 0x14 0 none none none none ∧
        t.rule n = { r with t4 := s.mbxD 0x14 0, t5 := s.mbxD 0x14 1, t6 := s.mbxD 0x14 2, t7 := s.mbxD 0x14 3, eccBar := false })) ∧
    (r.armed = false → ok = false → ∀ i ∈ [Instr.loadTermsA arg, .loadTermsB arg],
      ∃ t, Machine.exec i s = .next t ∧ t.Job 0x14 2 none none none none ∧ t.rules = s.rules) ∧
    (r.armed = false →
      (¬ bad → ¬ full → ∃ t, Machine.exec (.loadAct arg) s = .next t ∧ t.Job 0x14 0 none none none none ∧
        t.rule n = { r with ctrl := c, lines := s.mbxD 0x14 1, ops := o, targets := s.mbxD 0x14 3, eccBar := false }) ∧
      (bad → ∃ t, Machine.exec (.loadAct arg) s = .next t ∧ t.Job 0x14 2 none none none none ∧ t.rules = s.rules) ∧
      (¬ bad → full → ∃ t, Machine.exec (.loadAct arg) s = .next t ∧ t.Job 0x14 3 none none none none ∧ t.rules = s.rules)) ∧
    (r.armed = true → ∀ i ∈ [Instr.loadTermsA arg, .loadTermsB arg, .loadAct arg, .rfxClear arg],
      ∃ t, Machine.exec i s = .next t ∧ t.Job 0x14 1 none none none none ∧ t.rules = s.rules) ∧
    (r.armed = false → r.eccBar = false →
      ∃ t, Machine.exec (.rfxArm arg ecc) s = .next t ∧ (t.rule n).armed = true ∧ (t.rule n).result = s.ruleResult r ∧
        t.Job 0x14 0 (some (w32 (b2n (s.ruleResult r)))) none none none ∧
        t.rd Reg.rfxCntEval = satInc (s.rd Reg.rfxCntEval)) ∧
    (r.eccBar = true → ∃ t, Machine.exec (.rfxArm arg ecc) s = .next t ∧ t.Job 0x14 4 none none none none ∧ t.rules = s.rules) ∧
    (∃ t, Machine.exec (.rfxDisarm arg) s = .next t ∧ t.Job 0x14 0 none none none none ∧ (t.rule n).armed = false ∧
      t.ruleQueued n = false) ∧
    (∃ t, Machine.exec (.readTermsA arg ecc) s = .next t ∧ t.rules = s.rules ∧
      t.Job 0x14 0 (some r.t0) (some r.t1) (some r.t2) (some r.t3)) ∧
    (∃ t, Machine.exec (.readTermsB arg ecc) s = .next t ∧ t.rules = s.rules ∧
      t.Job 0x14 0 (some r.t4) (some r.t5) (some r.t6) (some r.t7)) ∧
    (∃ t, Machine.exec (.readAct arg ecc) s = .next t ∧ t.rules = s.rules ∧
      t.Job 0x14 0 (some r.ctrl) (some r.lines) (some r.ops) (some r.targets)) ∧
    (r.armed = false → ∃ t, Machine.exec (.rfxClear arg) s = .next t ∧ t.Job 0x14 0 none none none none ∧
      t.rule n = { Rule.init with result := r.result, eccBar := r.eccBar })) ∧
  (∀ (s : State) (arg : BitVec 16) (ecc : ReadEcc) (i : Instr), s.mbxBusy 0x14 = false → 1023 < arg.toNat →
    i ∈ [Instr.loadTermsA arg, .loadTermsB arg, .loadAct arg, .rfxArm arg ecc, .rfxDisarm arg, .readTermsA arg ecc,
      .readTermsB arg ecc, .readAct arg ecc, .rfxClear arg] →
    ∃ t, Machine.exec i s = .next t ∧ t.Job 0x14 2 none none none none ∧ t.rules = s.rules) ∧
  (∀ (s : State) (arg : BitVec 16) (a y : Word) (i : Instr), s.mbxBusy 0x14 = false → arg.toNat ≤ 1023 →
    i ∈ [Instr.rfxArm arg (.uncorrectable a y), .readTermsA arg (.uncorrectable a y), .readTermsB arg (.uncorrectable a y),
      .readAct arg (.uncorrectable a y)] →
    ∃ t, Machine.exec i s = .next t ∧ t.Job 0x14 4 none none none none ∧ (t.rule arg.toNat).armed = false ∧
      (t.rule arg.toNat).eccBar = true))

/-- Publishing (R207, R209–R213, R222): a slot is loaded, written within its type's range, where what differs takes the count at the next
TCLK edge as its time, and read back; a value out of range or STALE, a quality above 31 and a load with a reserved bit are refused; slot
4,095 takes no load and no write; every 250 µs a heartbeat scan restarts the interval of every slot that is due and can be sent.
Subscriptions (R214–R219, R222): an entry is loaded, read and cleared; a record from the fabric is applied to the enabled entry for its
signal ID when its type fits and it is not older, and is otherwise counted by what is wrong; a frame that does not parse is counted with
the interrupt of check 0x0301; a received frame follows the change frames of earlier cycles' writes; an entry whose signal has been silent
for 4 × 2^HB ms becomes STALE. -/
def Obligations.SignalsArePublishedAndFollowed : Prop :=
  ((∀ (s : State) (arg : BitVec 16), s.mbxBusy 0x15 = false → arg.toNat < 4095 →
    let n := arg.toNat
    let w := s.mbxD 0x15 0
    let d := s.mbxD 0x15 1
    let bad := bits w 9 23 ≠ 0 ∨ bits w 2 2 ≠ 0 ∨ bits d 17 15 ≠ 0 ∨ 11 ≤ bits w 4 4 ∧ bits w 4 4 ≤ 14
    let v := (s.mbxD 0x15 0).toNat + (s.mbxD 0x15 1).toNat * 2 ^ 32
    let q := (s.mbxD 0x15 2).toNat
    (¬ bad → ∃ t, Machine.exec (.loadPub arg) s = .next t ∧ t.Job 0x15 0 none none none none ∧
      (t.pub n).loaded = true ∧ (t.pub n).word = w ∧ (t.pub n).dest = d ∧ ∀ m, m ≠ n → t.pub m = s.pub m) ∧
    (bad → ∃ t, Machine.exec (.loadPub arg) s = .next t ∧ t.Job 0x15 2 none none none none ∧ t.pubs = s.pubs) ∧
    (q < 32 → q.testBit 1 = false → v < 2 ^ sigBits (s.pub n).ty →
      ∃ t, Machine.exec (.setValue arg) s = .next t ∧ t.Job 0x15 0 none none none none ∧ (t.pub n).value = v ∧
        (t.pub n).quality = q ∧ ((s.pub n).value ≠ v ∨ (s.pub n).quality ≠ q → (t.pub n).time = s.nextEdge)) ∧
    (32 ≤ q → ∃ t, Machine.exec (.setValue arg) s = .next t ∧ t.Job 0x15 2 none none none none ∧ t.pubs = s.pubs) ∧
    (q < 32 → q.testBit 1 = true ∨ 2 ^ sigBits (s.pub n).ty ≤ v →
      ∃ t, Machine.exec (.setValue arg) s = .next t ∧ t.Job 0x15 5 none none none none ∧ t.pubs = s.pubs)) ∧
  (∀ (s : State) (arg : BitVec 16), s.mbxBusy 0x15 = false → arg.toNat ≤ 4095 →
    let p := s.pub arg.toNat
    (arg.toNat = 4095 → ∀ i ∈ [Instr.loadPub arg, .setValue arg],
      ∃ t, Machine.exec i s = .next t ∧ t.Job 0x15 1 none none none none ∧ t.pubs = s.pubs) ∧
    (∃ t, Machine.exec (.readPub arg) s = .next t ∧ t.pubs = s.pubs ∧
      t.Job 0x15 0 (some (w32 p.value)) (some (w32 (p.value / 2 ^ 32))) (some p.time.sec) (some (w32 (at_ 30 p.timeQual + p.time.ns)))) ∧
    (∃ t, Machine.exec (.readPubcfg arg) s = .next t ∧ t.pubs = s.pubs ∧ t.Job 0x15 0 (some p.word) (some p.dest) none none)) ∧
  (∀ (s : State) (arg : BitVec 16) (i : Instr), s.mbxBusy 0x15 = false → 4095 < arg.toNat →
    i ∈ [Instr.loadPub arg, .setValue arg, .readPub arg, .readPubcfg arg] →
    ∃ t, Machine.exec i s = .next t ∧ t.Job 0x15 2 none none none none ∧ t.pubs = s.pubs) ∧
  (∀ s : State, s.passed s.hbAt (usTclks 250) = true → ∃ t, Machine.exec .heartbeatScan s = .next t ∧ t.hbAt = s.tclks ∧
      ∀ n, (n, s.pub n) ∈ s.pubs → s.pubDue (s.pub n) = true → s.canSend (bit (s.pub n).dest 16) (bits (s.pub n).dest 0 16) = true →
        (t.pub n).sentAt = s.tclks)) ∧
  ((∀ (s : State) (arg : BitVec 16), s.mbxBusy 0x15 = false → arg.toNat ≤ 8191 →
    let n := arg.toNat
    let e := s.sub n
    let id := bits (s.mbxD 0x15 0) 0 28
    let w := s.mbxD 0x15 1
    let clash := bit w 2 = true ∧ (s.subs.any fun x => decide (x.1 ≠ n) && x.2.ops.any fun o => decide (o ∈ wordOps w)) = true
    let twice := bit w 2 = true ∧ (s.subs.any fun x => decide (x.1 ≠ n) && x.2.en && decide (x.2.id = id)) = true
    (subBad (s.mbxD 0x15 0) w = false → ¬ clash → ¬ twice →
      ∃ t, Machine.exec (.loadSub arg) s = .next t ∧ t.Job 0x15 0 none none none none ∧ (t.sub n).id = id ∧ (t.sub n).word = w ∧
        (t.sub n).value = 0 ∧ (t.sub n).reached = false ∧ ∀ m, m ≠ n → t.sub m = s.sub m) ∧
    (subBad (s.mbxD 0x15 0) w = true →
      ∃ t, Machine.exec (.loadSub arg) s = .next t ∧ t.Job 0x15 2 none none none none ∧ t.subs = s.subs) ∧
    (subBad (s.mbxD 0x15 0) w = false → clash →
      ∃ t, Machine.exec (.loadSub arg) s = .next t ∧ t.Job 0x15 3 none none none none ∧ t.subs = s.subs) ∧
    (subBad (s.mbxD 0x15 0) w = false → ¬ clash → twice →
      ∃ t, Machine.exec (.loadSub arg) s = .next t ∧ t.Job 0x15 4 none none none none ∧ t.subs = s.subs) ∧
    (∃ t, Machine.exec (.readSub arg) s = .next t ∧
      t.Job 0x15 0 (some (w32 e.value)) (some (w32 (e.value / 2 ^ 32))) (some e.time.sec) (some (w32 (at_ 30 e.timeQual + e.time.ns))) ∧
      t.rd Reg.sigSubMeta = w32 (at_ 16 (e.count - 1) + e.quality) ∧ (t.sub n).count = 0) ∧
    (∃ t, Machine.exec (.readSubcfg arg) s = .next t ∧ t.Job 0x15 0 (some (w32 e.id)) (some e.word) none none ∧ t.subs = s.subs) ∧
    (∃ t, Machine.exec (.clearSub arg) s = .next t ∧ t.Job 0x15 0 none none none none ∧ (t.sub n).en = false ∧ (t.sub n).id = e.id ∧
      ∀ o ∈ e.ops, setHas t.sigOps o = false)) ∧
  (∀ (s : State) (d : Delivered) (rest : List Delivered), (s.pubFlush none).net.toSig = d :: rest →
    sigFrame (hdrClass d.bytes) (payload d.bytes) = none →
    let u := s.pubFlush none
    ∃ t, Machine.exec .signalFrameReceive s = .next t ∧ t.net.toSig = rest ∧ t.Raised 0x15 4 ∧
      t.rd Reg.sigCntBadFrame = satInc (u.rd Reg.sigCntBadFrame) ∧ t.subs = u.subs) ∧
  (∀ (s : State) (d : Delivered) (rest : List Delivered) (r : SigRec), (s.pubFlush none).net.toSig = d :: rest →
    sigFrame (hdrClass d.bytes) (payload d.bytes) = some [r] → r.slot ≠ 4095 →
    let u := s.pubFlush none
    (u.subFor (hdrSource d.bytes * 4096 + r.slot) = none →
      ∃ t, Machine.exec .signalFrameReceive s = .next t ∧ t.net.toSig = rest ∧
        t.rd Reg.sigCntUnsub = satInc (u.rd Reg.sigCntUnsub) ∧ t.subs = u.subs) ∧
    (∀ n, u.subFor (hdrSource d.bytes * 4096 + r.slot) = some n →
      (r.ty ≠ (u.sub n).ty → ∃ t, Machine.exec .signalFrameReceive s = .next t ∧ t.net.toSig = rest ∧
        t.rd Reg.sigCntType = satInc (u.rd Reg.sigCntType) ∧ t.sub n = u.sub n) ∧
      (r.ty = (u.sub n).ty → (u.sub n).isDying = false → (u.sub n).reached = false ∨ 0 ≤ timeDiff r.time (u.sub n).time →
        ∃ t, Machine.exec .signalFrameReceive s = .next t ∧ t.net.toSig = rest ∧ (t.sub n).value = r.value ∧
          (t.sub n).quality = r.quality ∧ (t.sub n).time = r.time ∧ (t.sub n).receipt = s.now ∧ (t.sub n).hb = r.hb ∧
          t.rd Reg.sigCntApplied = satInc (u.rd Reg.sigCntApplied)) ∧
      (r.ty = (u.sub n).ty → (u.sub n).isDying = false → (u.sub n).reached = true → timeDiff r.time (u.sub n).time < 0 →
        ∃ t, Machine.exec .signalFrameReceive s = .next t ∧ t.net.toSig = rest ∧ (t.sub n).value = (u.sub n).value ∧
          (t.sub n).receipt = s.now ∧ t.rd Reg.sigCntOld = satInc (u.rd Reg.sigCntOld)))) ∧
  (∀ (s : State) (n : Fin 8192), (s.sub n).en = true → (s.sub n).hb ≤ 10 → (s.sub n).isDying = false →
    (s.sub n).quality.testBit 1 = false → s.passed (s.sub n).heardAt (msTclks (4 * 2 ^ (s.sub n).hb)) = true →
    ∃ t, Machine.exec (.subscriptionStale n) s = .next t ∧ (t.sub n).quality.testBit 1 = true ∧
      t.rd Reg.sigCntStale = satInc (s.rd Reg.sigCntStale) ∧ (bit (s.sub n).word 5 = true → t.Raised 0x15 0)))

/-- The checks of a native frame received on a port that is UP, in their order (R238–R240, R243–R247, R249, R255): the frame is counted as
received; a bad length, then a bad header, then a wrong PATH are each counted, and the frame is not judged against the duplicate table. On
a node that is no coupler, a frame of this node's own is stripped and counted; one without hops left and one with a bad or stomped FCS are
counted and not judged; a good unicast frame to this node is judged once: accepted into the table, or counted as a duplicate or as behind
the window. A port that is not UP takes nothing; a frame of a foreign EtherType on a native port is counted, but for Layer 2 PTP on a port
that takes it. Where the condition of a command that reports an event does not hold, the state stays as it is: the model's choice (log
entry 1). -/
def Obligations.ReceivedFramesAreCheckedInOrder : Prop :=
  (∀ (s : State) (p : Fin 4) (w : WireFrame), s.portUp p = false → Machine.exec (.frameReceive p w) s = .next s) ∧
  (∀ (s : State) (p : Fin 4) (w : WireFrame), s.portUp p = true → s.nativePort p = true → etherType w.bytes ≠ 0x88B5 →
    (etherType w.bytes ≠ 0x88F7 ∨ p.val < 2) →
    ∃ t, Machine.exec (.frameReceive p w) s = .next t ∧ t.rd (Reg.fpCntRxForeign p) = satInc (s.rd (Reg.fpCntRxForeign p)) ∧
      t.net.dup = s.net.dup) ∧
  (∀ (s : State) (p : Fin 4) (w : WireFrame), s.portUp p = true → s.nativePort p = true → etherType w.bytes = 0x88B5 →
    let b := w.bytes
    let good := lengthOk b && headerOk b && (hdrPath b != decide (p.val % 2 = 1))
    let own := s.ownSource b
    let v := (s.net.dup.judge s.tclks (hdrSource b) (hdrClass b) (BitVec.ofNat 16 (hdrSeq b))).1
    ∃ t, Machine.exec (.frameReceive p w) s = .next t ∧ t.rd (Reg.fpCntRxFrames p) = satInc (s.rd (Reg.fpCntRxFrames p)) ∧
      (lengthOk b = false → t.rd (Reg.fpCntRxLength p) = satInc (s.rd (Reg.fpCntRxLength p)) ∧ t.net.dup = s.net.dup) ∧
      (lengthOk b = true → headerOk b = false →
        t.rd (Reg.fpCntRxHeader p) = satInc (s.rd (Reg.fpCntRxHeader p)) ∧ t.net.dup = s.net.dup) ∧
      (lengthOk b = true → headerOk b = true → hdrPath b = decide (p.val % 2 = 1) →
        t.rd (Reg.fpCntRxPath p) = satInc (s.rd (Reg.fpCntRxPath p)) ∧ t.net.dup = s.net.dup) ∧
      (good = true → s.coupler = false → own = true → t.rd (Reg.fpCntStripped p) = satInc (s.rd (Reg.fpCntStripped p))) ∧
      (good = true → s.coupler = false → own = false → hdrHop b = 0 →
        t.rd (Reg.fpCntHopExpired p) = satInc (s.rd (Reg.fpCntHopExpired p)) ∧ t.net.dup = s.net.dup) ∧
      (good = true → s.coupler = false → own = false → hdrHop b ≠ 0 → w.fcs = .bad →
        t.rd (Reg.fpCntRxFcs p) = satInc (s.rd (Reg.fpCntRxFcs p)) ∧ t.net.dup = s.net.dup) ∧
      (good = true → s.coupler = false → own = false → hdrHop b ≠ 0 → w.fcs = .stomped →
        t.rd (Reg.fpCntRxStomp p) = satInc (s.rd (Reg.fpCntRxStomp p)) ∧ t.net.dup = s.net.dup) ∧
      (good = true → s.coupler = false → own = false → hdrHop b ≠ 0 → w.fcs = .good → s.unicastHere b = true →
        (v = .accept → t.net.dup = (s.net.dup.judge s.tclks (hdrSource b) (hdrClass b) (BitVec.ofNat 16 (hdrSeq b))).2.1) ∧
        (v = .marked → t.rd (Reg.fpCntDup p) = satInc (s.rd (Reg.fpCntDup p))) ∧
        (v = .behind → t.rd (Reg.fpCntSeqStale p) = satInc (s.rd (Reg.fpCntSeqStale p)))))

/-- The states of a link (R226–R229, R255–R257): TRAINING leads to LOCKING, with FEC where the partner answers it, CFG asks for it and
auto-negotiation is on, and LOCKING to CHECKING while the SerDes are clocked; after UP_HOLD in CHECKING the port is UP, and no longer
locally broken where its neighbour is heard; TRAINING fails after 500 ms, LOCKING after 100 ms and CHECKING at a down condition, which
leads to HOLD and is counted; a down condition of a port that is UP, or its degradation where ERR_LIMIT is exceeded under ERR_DOWN, leads
to HOLD with its cause, is counted and empties its queues; HOLD ends after HOLD_DOWN in a new start. An entry of a duplicate table not
accepted from for 10 ms ages; a check of a port's page clears after 1 s without a failure; a read of PRBS_ERR answers the count and clears
it. -/
def Obligations.LinksMoveThroughTheirStates : Prop :=
  (∀ (s : State) (p : Fin 4) (fec : Bool) (txeq rxeq : Word), (s.link p).st = 1 →
    (s.serdesRuns = true → ∃ t, Machine.exec (.trainingComplete p fec txeq rxeq) s = .next t ∧ (t.link p).st = 2 ∧
      (t.link p).fecActive = (fec && s.flag (Reg.fpCfg p) 6 && s.flag (Reg.fpCfg p) 5) ∧ t.rd (Reg.fpTxeq p) = w32 (bits txeq 0 18) ∧
      t.rd (Reg.fpRxeq p) = w32 (bits rxeq 0 16)) ∧
    (s.linkWaited p 500 = true → ∃ t, Machine.exec (.trainingTimeout p) s = .next t ∧ (t.link p).st = 5 ∧
      t.rd (Reg.fpCntLinkFail p) = satInc (s.rd (Reg.fpCntLinkFail p)) ∧ t.Raised (0x28 + p) 2)) ∧
  (∀ (s : State) (p : Fin 4), (s.link p).st = 2 →
    (s.serdesRuns = true → ∃ t, Machine.exec (.blockLockAcquired p) s = .next t ∧ (t.link p).st = 3 ∧ (t.link p).blockLock = true ∧
      (t.link p).signal = true) ∧
    (s.linkWaited p 100 = true → ∃ t, Machine.exec (.lockingTimeout p) s = .next t ∧ (t.link p).st = 5 ∧
      t.rd (Reg.fpCntLinkFail p) = satInc (s.rd (Reg.fpCntLinkFail p)))) ∧
  (∀ (s : State) (p : Fin 4), (s.link p).st = 3 →
    (s.linkWaited p (s.upHold p) = true → ∃ t, Machine.exec (.upHoldExpiry p) s = .next t ∧ t.portUp p = true ∧ t.Raised (0x28 + p) 0 ∧
      (setHas s.ring.silent p = false → setHas t.ring.broken p = false)) ∧
    (∀ cause cut, cause ≠ .degraded → ∃ t, Machine.exec (.linkDownCondition p ⟨cause, cut⟩) s = .next t ∧ (t.link p).st = 5 ∧
      t.rd (Reg.fpCntLinkFail p) = satInc (s.rd (Reg.fpCntLinkFail p)))) ∧
  (∀ (s : State) (p : Fin 4) (cause : LinkDown) (cut : Option (List Byte)), (s.link p).st = 4 →
    (cause = .degraded → s.degraded p = true) →
    ∃ t, Machine.exec (.linkDownCondition p ⟨cause, cut⟩) s = .next t ∧ (t.link p).st = 5 ∧ (t.link p).lastCause = LinkDownCode cause ∧
      t.rd (Reg.fpCntLinkDown p) = satInc (s.rd (Reg.fpCntLinkDown p)) ∧ t.Raised (0x28 + p) 1 ∧ (∀ c, c < 8 → t.queue p c = []) ∧
      t.sendingAt p = Sending.init) ∧
  (∀ (s : State) (p : Fin 4), (s.link p).st = 5 → s.linkWaited p (s.fld (Reg.fpTimers p) 16 16) = true →
    ∃ t, Machine.exec (.holdDownExpiry p) s = .next t ∧
      (t.link p).st = (if s.fpMode p = 0 ∧ s.flag (Reg.fpCfg p) 4 = true then 1 else 2)) ∧
  (∀ (s : State) (src : BitVec 16) (e : DupEnt), s.passed e.seen (msTclks 10) = true →
    (Tab.get none s.net.dup.ents src.toNat = some e → ∃ t, Machine.exec (.dupEntryAge false src) s = .next t ∧
      Tab.get none t.net.dup.ents src.toNat = some { e with aged := true } ∧ t.net.headland = s.net.headland) ∧
    (Tab.get none s.net.headland.ents src.toNat = some e → ∃ t, Machine.exec (.dupEntryAge true src) s = .next t ∧
      Tab.get none t.net.headland.ents src.toNat = some { e with aged := true } ∧ t.net.dup = s.net.dup)) ∧
  (∀ (s : State) (p : Fin 4) (check : Nat), s.passed (s.check (0x28 + p) check).failAt (msTclks 1000) = true →
    ∃ t, Machine.exec (.fpCheckClear p check) s = .next t ∧
      ∀ i, t.qualStands (0x28 + p) check i = false) ∧
  (∀ (s : State) (p : Fin 4), ∃ t, Machine.exec (.prbsErrRead p) s = .next t ∧ t.reply = ⟨0, wordBytes (s.rd (Reg.fpPrbsErr p))⟩ ∧
      t.rd (Reg.fpPrbsErr p) = 0)

/-- Egress (R242, R250, R281, R283): once the change frames of earlier cycles' writes have been queued, a free port that is UP takes the
head of the class that the scheduler picks, class 7 before 6 before 5 before the round robin, with the time it carries, where it is a PTP
message, stamped; a frame with an uncorrectable cell error is discarded instead; a transmission ends and is counted at a fabric port; a
waiting express frame pauses a preemptable one, which goes on when no express frame waits; the quiet period ends after 12 ms unless the
hub is dying. Copies, push-out reports, the overflow store and DDR4 (R284, R288, R292, R295–R301): the copy due is written; a further copy
that waited REPL_LIMIT and a mirror copy that waited 1 µs are dropped; what a port gathered is reported once its spacing of 1 ms is over;
a marked frame moves to the store or is dropped where the store is full; a stored frame is read back, or discarded on an uncorrectable
error; the store's place is written only while it is empty and DDR is ready, and CFG_ERR tells whether it fits; marks that break their
order are refused; a training of an enabled DDR with its PLL locked ends READY or TRAIN_FAIL. -/
def Obligations.FramesAreTransmittedCopiedAndStored : Prop :=
  ((∀ (s : State) (p : Fin 8) (c : Nat) (f : QFrame) (rest : List QFrame),
    let u := s.pubFlush none
    u.portUp p = true → (u.sendingAt p).express = none → (u.sendingAt p).normal = none → (u.pickClass p).1 = some c →
    u.queue p c = f :: rest →
    let g := { f with bytes := u.ptpStamped p f, txOf := none }
    (∀ ecc, eccUsable ecc = true → ∃ t, Machine.exec (.egressTransmitStart p ecc) s = .next t ∧ t.queue p c = rest ∧
      (6 ≤ c → (t.sendingAt p).express = some g) ∧ (c < 6 → (t.sendingAt p).normal = some g)) ∧
    (∀ a y, ∃ t, Machine.exec (.egressTransmitStart p (.uncorrectable a y)) s = .next t ∧ t.queue p c = rest ∧
      t.sendingAt p = u.sendingAt p ∧ t.rd Reg.bufCntEccDiscard = satInc (u.rd Reg.bufCntEccDiscard))) ∧
  (∀ (s : State) (p : Nat), ((s.headOf p 7).isSome = true → (s.pickClass p).1 = some 7) ∧
    ((s.headOf p 7).isSome = false → (s.headOf p 6).isSome = true → (s.pickClass p).1 = some 6) ∧
    ((s.headOf p 7).isSome = false → (s.headOf p 6).isSome = false → (s.headOf p 5).isSome = true → (s.pickClass p).1 = some 5)) ∧
  (∀ (s : State) (p : Fin 8) (ecc : ReadEcc) (f : QFrame),
    let u := s.pubFlush none
    u.portUp p = true → (u.sendingAt p).express = none → (u.sendingAt p).normal = some f → (u.sendingAt p).paused = true →
    (u.headOf p 7).isSome = false → (u.headOf p 6).isSome = false →
    ∃ t, Machine.exec (.egressTransmitStart p ecc) s = .next t ∧ t.sendingAt p = { u.sendingAt p with paused := false }) ∧
  (∀ (s : State) (p : Fin 8) (f : QFrame),
    ((s.sendingAt p).express = some f → ∃ t, Machine.exec (.frameTransmitEnd p .clean) s = .next t ∧
      (t.sendingAt p).express = none ∧ (t.sendingAt p).normal = (s.sendingAt p).normal.map (QFrame.settle (txMark p true) f.stomp) ∧
      (p.val < 4 → t.rd (Reg.fpCntTxFrames p) = satInc (s.rd (Reg.fpCntTxFrames p)))) ∧
    ((s.sendingAt p).express = none → (s.sendingAt p).normal = some f → (s.sendingAt p).paused = false →
      ∃ t, Machine.exec (.frameTransmitEnd p .clean) s = .next t ∧ (t.sendingAt p).normal = none ∧
        (p.val < 4 → t.rd (Reg.fpCntTxFrames p) = satInc (s.rd (Reg.fpCntTxFrames p))))) ∧
  (∀ (s : State) (p : Fin 4), s.nativePort p = true → s.flag (Reg.fpCfg p) 7 = true → (s.sendingAt p).normal.isSome = true →
    (s.sendingAt p).paused = false → (s.sendingAt p).express = none → (s.headOf p 7).isSome = true ∨ (s.headOf p 6).isSome = true →
    ∃ t, Machine.exec (.preemption p) s = .next t ∧ t.sendingAt p = { s.sendingAt p with paused := true } ∧
      t.rd (Reg.fpCntPreempt p) = satInc (s.rd (Reg.fpCntPreempt p))) ∧
  (∀ (s : State) (q : Nat), s.net.quiet = some q → s.pwr.dying = false → s.pwr.seq ≠ 3 → s.hubUp = true →
    s.passed q (msTclks 12) = true → ∃ t, Machine.exec .quietPeriodEnd s = .next t ∧ t.net.quiet = none)) ∧
  ((∀ (s : State) (i : Nat) (c : PendingCopy) (rest : List PendingCopy), pluck s.net.copies i = (some c, rest) →
    (nextCopy s.net.copies = some i → ∃ t, Machine.exec .copyWrite s = .next t ∧ t.net.copies = rest) ∧
    (c.session = none → s.passed c.since (usTclks s.replLimit) = true → ∃ t, Machine.exec (.replicationTimeout i) s = .next t ∧ t.net.copies = rest ∧
      t.rd Reg.swcCntReplDrop = satInc (s.rd Reg.swcCntReplDrop) ∧ t.Raised 0x20 1) ∧
    (∀ m, c.session = some m → s.passed c.since (usTclks 1) = true → ∃ t, Machine.exec (.mirrorCopyTimeout i) s = .next t ∧ t.net.copies = rest)) ∧
  (∀ (s : State) (p : Fin 8),
    let x := Tab.get PushSt.init s.net.push p
    (s.spaced x.last = true ∨ x.evicted + x.dropped = 0 → Machine.exec (.pushoutRepost p) s = .next s) ∧
    (s.spaced x.last = false → x.evicted + x.dropped ≠ 0 → ∃ t, Machine.exec (.pushoutRepost p) s = .next t ∧
      Tab.get PushSt.init t.net.push p = { x with last := some s.tclks, evicted := 0, dropped := 0 } ∧ t.Raised 0x21 0)) ∧
  (∀ (s : State) (p : Fin 8) (c : Fin 5) (f : QFrame), (s.queue p c).find? (fun f => decide (f.place = .marked)) = some f →
    (s.storeUsed + f.cells ≤ s.storeCapacity → ∃ t, Machine.exec (.migration p c) s = .next t ∧
      t.queue p c = onFirst (fun x => decide (x.place = Place.marked)) (fun x => some { x with place := .stored }) (s.queue p c) ∧
      t.rd (Reg.bufCntSpilled c) = satInc (s.rd (Reg.bufCntSpilled c))) ∧
    (s.storeCapacity < s.storeUsed + f.cells → ∃ t, Machine.exec (.migration p c) s = .next t ∧
      t.queue p c = onFirst (fun x => decide (x.place = Place.marked)) (fun _ => none) (s.queue p c) ∧
      t.rd Reg.bufCntStoreDrop = satInc (s.rd Reg.bufCntStoreDrop) ∧ t.net.storeFull = true)) ∧
  (∀ (s : State) (p : Fin 8) (c : Fin 5), (s.queue p c).any (fun f => decide (f.place = .stored)) = true →
    (∀ ecc, eccUsable ecc = true → ∃ t, Machine.exec (.storeReadback p c ecc) s = .next t ∧
      t.queue p c = onFirst (fun x => decide (x.place = Place.stored)) (fun x => some { x with place := Place.staged }) (s.queue p c)) ∧
    (∀ a y, ∃ t, Machine.exec (.storeReadback p c (.uncorrectable a y)) s = .next t ∧
      t.queue p c = onFirst (fun x => decide (x.place = Place.stored)) (fun _ => none) (s.queue p c) ∧
      t.rd Reg.bufCntEccDiscard = satInc (s.rd Reg.bufCntEccDiscard) ∧
      t.rd Reg.ddrCntEccUncorr = satInc (s.rd Reg.ddrCntEccUncorr) ∧ t.Raised 0x0B 2)) ∧
  (∀ (s : State) (v : Word), s.storeUsed = 0 → s.flag (Reg.status 0x0B) 0 = true →
    (∃ t, Machine.exec (.storeCfgWrite true v) s = .next t ∧ t.rd Reg.bufStoreSize = w32 (bits v 0 13) ∧
      t.net.bufCfgErr = (!t.storeFits && decide (0 < t.fld Reg.bufStoreSize 0 13))) ∧
    (∃ t, Machine.exec (.storeCfgWrite false v) s = .next t ∧ t.rd Reg.bufStoreBase = w32 (bits v 0 12) ∧
      t.net.bufCfgErr = (!t.storeFits && decide (0 < t.fld Reg.bufStoreSize 0 13)))) ∧
  (∀ (s : State) (size : Bool) (v : Word), s.storeUsed ≠ 0 ∨ s.flag (Reg.status 0x0B) 0 = false →
    Machine.exec (.storeCfgWrite size v) s = .next s) ∧
  (∀ (s : State) (v : Word),
    (bits v 16 16 < s.fld Reg.bufSpill 16 16 ∧ bits v 0 16 < bits v 16 16 →
      ∃ t, Machine.exec (.bufMarksWrite false v) s = .next t ∧ t.rd Reg.bufFloors = v ∧ t.net.bufCfgErr = false) ∧
    (¬ (bits v 16 16 < s.fld Reg.bufSpill 16 16 ∧ bits v 0 16 < bits v 16 16) →
      ∃ t, Machine.exec (.bufMarksWrite false v) s = .next t ∧ t.rd Reg.bufFloors = s.rd Reg.bufFloors ∧ t.net.bufCfgErr = true) ∧
    (s.fld Reg.bufFloors 16 16 < bits v 16 16 → s.fld Reg.bufFloors 0 16 < s.fld Reg.bufFloors 16 16 →
      ∃ t, Machine.exec (.bufMarksWrite true v) s = .next t ∧ t.rd Reg.bufSpill = v ∧ t.net.bufCfgErr = false) ∧
    (bits v 16 16 ≤ s.fld Reg.bufFloors 16 16 →
      ∃ t, Machine.exec (.bufMarksWrite true v) s = .next t ∧ t.rd Reg.bufSpill = s.rd Reg.bufSpill ∧ t.net.bufCfgErr = true)) ∧
  (∀ s : State, s.enabled 0x0B = true → s.hubUp = true → setHas s.clk.unlocked 2 = false →
    (∃ t, Machine.exec (.ddrTrainingDone none) s = .next t ∧ t.rd (Reg.status 0x0B) = 1 ∧ t.Raised 0x0B 0 ∧
      (t.storeFits = false → 0 < t.fld Reg.bufStoreSize 0 13 → t.net.bufCfgErr = true)) ∧
    (∀ k : Fin 6, ∃ t, Machine.exec (.ddrTrainingDone (some k)) s = .next t ∧ bits (t.rd (Reg.status 0x0B)) 0 2 = 2 ∧
      bits (t.rd (Reg.status 0x0B)) 4 4 = k + 1 ∧ t.Raised 0x0B 1)))

/-- Node identity and what the ring sends (R258–R264, R274): a written ID waits 12 ms for its activation, VALID written 0 takes it out of
use and other writes to a valid ID are ignored; every 1 ms NEIGHBOUR goes out of each ring port that is UP, stated for one such port;
every SUP_PERIOD a SUPERVISION frame takes the next sequence number, and one still outstanding has missed its period; every 2 s HSR and
PRP supervision take the next number of their own; nothing but NEIGHBOUR is sent in the quiet period. -/
def Obligations.NodeIdsAreActivatedAndSupervisionIsSent : Prop :=
  (∀ (s : State) (v : Word), ∃ t, Machine.exec (.idCfgWrite v) s = .next t ∧ s.IdWritten t false v) ∧
  (∀ (s : State) (v : Word), ∃ t, Machine.exec (.farIdWrite v) s = .next t ∧ s.IdWritten t true v) ∧
  (∀ s : State,
    (s.ring.home.idPending = true → s.passed s.ring.home.pendAt (msTclks 12) = true →
      ∃ t, Machine.exec (.idActivate false) s = .next t ∧ t.ring.home.active = true ∧
        t.ring.home.idPending = false ∧ t.nodeId = s.idConfigured false) ∧
    (s.ring.far.idPending = true → s.passed s.ring.far.pendAt (msTclks 12) = true →
      ∃ t, Machine.exec (.idActivate true) s = .next t ∧ t.ring.far.active = true ∧
        t.ring.far.idPending = false ∧ t.ring.far.id = BitVec.ofNat 16 (s.idConfigured true))) ∧
  (∀ s : State, s.sendDue s.ring.neighbourAt (msTclks 1) = false → Machine.exec .neighbourSend s = .next s) ∧
  (∀ (s : State) (p : Nat), p < 4 → s.ringPort p = true → s.portUp p = true →
    (∀ q, q < 4 → q ≠ p → s.ringPort q = false ∨ s.portUp q = false) → s.sendDue s.ring.neighbourAt (msTclks 1) = true →
    let u := s.setRing fun r => { r with neighbourAt := some s.tclks }
    Machine.exec .neighbourSend s = .next (u.sendLinkLocal p 7 (u.mgmtBody 1 p p 0 0))) ∧
  (∀ (s : State) (far : Bool),
    let side (t : State) : RingSide := if far then t.ring.far else t.ring.home
    (side s).active = true → s.ringPort (if far then 2 else 0) = true → s.sendDue (side s).sentAt s.supPeriod = true →
    ∃ t, Machine.exec (.supervisionSend far) s = .next t ∧
      (side t).missed = (side s).missed + (if (side s).sent then 1 else 0) ∧
      (s.net.quiet = none → (side t).sent = true ∧ (side t).sentSeq = Tab.get 0 s.net.seqs 6 ∧ (side t).sentAt = some s.tclks ∧
        (side t).backWest = false ∧ (side t).backEast = false ∧
        Tab.get 0 t.net.seqs 6 = (Tab.get 0 s.net.seqs 6 + 1) % 65536)) ∧
  (∀ s : State,
    (s.net.quiet = none → s.sendDue s.ring.lifeAt (msTclks 2000) = true →
      (s.ringMode ≠ 0 → ∃ t, Machine.exec .hsrSupervisionSend s = .next t ∧ t.net.hsrSeq = s.net.hsrSeq + 1 ∧
        t.ring.lifeAt = some s.tclks) ∧
      (s.ringMode = 0 → s.prpOn = true → ∃ t, Machine.exec .hsrSupervisionSend s = .next t ∧ t.net.prpSeq = s.net.prpSeq + 1 ∧
        t.ring.lifeAt = some s.tclks)) ∧
    (s.net.quiet ≠ none ∨ s.sendDue s.ring.lifeAt (msTclks 2000) = false ∨ (s.ringMode = 0 ∧ s.prpOn = false) →
      Machine.exec .hsrSupervisionSend s = .next s))

/-- What the ring hears and misses (R261–R265, R276): a payload that breaks its layout is counted with the interrupt of check 0x0501; a
frame with this node's ID and another EUI-64, not reported before, is a conflict that is counted, and the node with the higher EUI-64
withdraws; an own SUPERVISION frame is good once both copies are back; NEIGHBOUR and SUPERVISION of other nodes are noted; a neighbour not
heard for 3 ms is silent, which breaks a port that is UP; a station not heard for three supervision periods is forgotten; a BREAK_NOTICE
and two missed frames break a closed ring. -/
def Obligations.TheRingHearsItsNeighboursAndBreaks : Prop :=
  (∀ (s : State) (d : Delivered) (rest : List Delivered), s.net.toRing = d :: rest →
    let p := payload d.bytes
    let src := hdrSource d.bytes
    let own := s.sideActive (d.port / 2 * 2) && decide (src = s.sideId (d.port / 2 * 2)) && (byteAt p 1).testBit 5
    let r := s.ringSide d.port
    ∃ t, Machine.exec .ringMgmtReceive s = .next t ∧ t.net.toRing = rest ∧
      (mgmtOk d.bytes = false → t.rd Reg.ringCntMgmtBad = satInc (s.rd Reg.ringCntMgmtBad) ∧ t.Raised 0x2E 4 ∧ t.ring = s.ring) ∧
      (mgmtOk d.bytes = true → own = true → beAt p 2 8 ≠ s.eui → beAt p 2 8 ∉ (if d.port < 2 then s.ring.conflicts else s.ring.farConflicts) →
        t.rd Reg.ringCntConflict = satInc (s.rd Reg.ringCntConflict) ∧ t.Raised 0x2E 2 ∧
        (beAt p 2 8 < s.eui → (t.ringSide d.port).withdrawn = true ∧ (t.ringSide d.port).active = false) ∧
        (s.eui < beAt p 2 8 → t.ringSide d.port = r)) ∧
      (mgmtOk d.bytes = true → own = true → beAt p 2 8 = s.eui → byteAt p 0 = 2 → r.sent = true → r.sentSeq = hdrSeq d.bytes →
        ((if d.port % 2 = 1 then r.backWest else r.backEast) = true →
          (t.ringSide d.port).sent = false ∧ (t.ringSide d.port).good = r.good + 1 ∧ (t.ringSide d.port).missed = 0) ∧
        ((if d.port % 2 = 1 then r.backWest else r.backEast) = false →
          (t.ringSide d.port).sent = true ∧ (t.ringSide d.port).good = r.good)) ∧
      (mgmtOk d.bytes = true → own = false → byteAt p 0 = 1 → t.rd (Reg.ringNeighbour (d.port % 4)) = w32 (2 ^ 31 + src)) ∧
      (mgmtOk d.bytes = true → own = false → byteAt p 0 = 2 → (byteAt p 1).testBit 5 = true → d.port < 2 →
        setHas t.ring.stations (src % 256) = true) ∧
      (mgmtOk d.bytes = true → own = false → byteAt p 0 = 3 → r.st = 1 →
        (t.ringSide d.port).st = 2 ∧ t.rd Reg.ringCntBreak = satInc (s.rd Reg.ringCntBreak) ∧ t.Raised 0x2E 0)) ∧
  (∀ (s : State) (p : Fin 4), s.ringPort p = true → setHas s.ring.silent p = false → s.hubUp = true →
    s.passed (s.heardAt p) (msTclks 3) = true →
    ∃ t, Machine.exec (.neighbourSilent p) s = .next t ∧ setHas t.ring.silent p = true ∧ t.flag (Reg.ringNeighbour p) 31 = false ∧
      t.rd Reg.ringCntSilent = satInc (s.rd Reg.ringCntSilent) ∧
      (if s.portUp p then setHas t.ring.broken p = true else t.ring.broken = s.ring.broken)) ∧
  (∀ (s : State) (n : BitVec 8), s.passed (Tab.get 0 s.ring.stationAt n.toNat) (3 * s.supPeriod) = true →
    ∃ t, Machine.exec (.stationTimeout n) s = .next t ∧ setHas t.ring.stations n.toNat = false ∧
      t.ring.home = s.ring.home ∧ t.ring.far = s.ring.far) ∧
  (∀ (s : State) (far : Bool),
    let side (t : State) : RingSide := if far then t.ring.far else t.ring.home
    (side s).st = 1 → 2 ≤ (side s).missed + b2n ((side s).sent && s.sendDue (side s).sentAt s.supPeriod) →
    ∃ t, Machine.exec (.supervisionMissed far) s = .next t ∧ (side t).st = 2 ∧
      t.rd Reg.ringCntBreak = satInc (s.rd Reg.ringCntBreak) ∧ t.Raised 0x2E 0)

/-- Requests of this node's requesters (R304–R306, R311, R323, R326): a posted access is counted and takes no tag; a non-posted one takes
a free tag of its pool, with the tag's next epoch, or stalls, counted where its pool has none; a stalled one is issued when a tag frees; a
request is sent again once RETRY_TIME has passed since its last sending and after a BUSY answer's backoff; the oldest completion that may
go to the matcher begins a backoff where it is BUSY, and otherwise closes its request, as NP_TIMEOUT does, with the answer of a core's or
the steward's; a completion that nothing waits for is counted as late. Where the condition of a command that reports an event does not
hold, the state stays as it is: the model's choice (log entry 1). -/
def Obligations.RequestsAreIssuedRetriedAndEnded : Prop :=
  (∀ (s : State) (q : XReq) (user : Nat),
    (codeOk q.code = false → Machine.exec (.requestIssue q user) s = .next s) ∧
    (codeOk q.code = true →
      ∃ t, Machine.exec (.requestIssue q user) s = .next t ∧
        (q.kind = .message → s.nodeId = 0 → q.vector = 0 → t.xbr.answers = s.xbr.answers ++ [⟨q.code, user, 2, []⟩]) ∧
        ((q.kind = .message ∧ ¬(s.nodeId = 0 ∧ q.vector = 0)) ∨ (q.kind = .write ∧ s.flag (Reg.xbrReqCfg q.code) 8 = true) →
          t.rd Reg.xbrCntPostedIssued = satInc (s.rd Reg.xbrCntPostedIssued) ∧ t.xbr.tags = s.xbr.tags) ∧
        (q.kind ≠ .message → ¬(q.kind = .write ∧ s.flag (Reg.xbrReqCfg q.code) 8 = true) →
          (∀ k, s.tagFor ⟨q, false, user⟩ s.xbr.stalled = some k →
            (t.tag k).epoch = ((s.tag k).epoch + 1) % 16 ∧ (t.tag k).holder.map (·.pend) = some ⟨q, false, user⟩ ∧
            t.rd Reg.xbrCntNpIssued = satInc (s.rd Reg.xbrCntNpIssued) ∧ t.xbr.stalled = s.xbr.stalled) ∧
          (s.tagFor ⟨q, false, user⟩ s.xbr.stalled = none →
            t.xbr.stalled = s.xbr.stalled ++ [⟨q, false, user⟩] ∧ t.xbr.tags = s.xbr.tags ∧
            t.rd Reg.xbrCntTagStall =
              if (s.freeTags (poolOf q.code)).isEmpty then satInc (s.rd Reg.xbrCntTagStall) else s.rd Reg.xbrCntTagStall)))) ∧
  (∀ (s : State) (p : XPend) (k : Nat), s.stallEnd [] s.xbr.stalled = some (p, k) →
    ∃ t, Machine.exec .tagStallEnd s = .next t ∧ t.xbr.stalled = s.xbr.stalled.erase p ∧
      (t.tag k).epoch = ((s.tag k).epoch + 1) % 16 ∧ (t.tag k).holder.map (·.pend) = some p ∧
      t.rd Reg.xbrCntNpIssued = satInc (s.rd Reg.xbrCntNpIssued)) ∧
  (∀ (s : State) (k : Fin 512) (o : OpenReq), (s.tag k).holder = some o →
    (s.retryDue o = true → ∃ t, Machine.exec (.retryTimer k) s = .next t ∧ t.rd Reg.xbrCntRetry = satInc (s.rd Reg.xbrCntRetry) ∧
      (t.tag k).holder.map (·.pend) = some o.pend ∧ (t.tag k).epoch = (s.tag k).epoch) ∧
    (o.backoff = true → s.waited o.busyAt (s.backoffTime o) = true → ∃ t, Machine.exec (.busyBackoffExpiry k) s = .next t ∧
      t.rd Reg.xbrCntRetry = satInc (s.rd Reg.xbrCntRetry) ∧
      (t.tag k).holder.map (fun x => (x.pend, x.backoff)) = some (o.pend, false)) ∧
    (o.firstAt.any (fun x => s.waited x (s.fld Reg.xbrNpTimeout 0 20)) = true →
      ∃ t, Machine.exec (.npTimeout k) s = .next t ∧ t.rd Reg.xbrCntTimeout = satInc (s.rd Reg.xbrCntTimeout) ∧
      (0 < o.pend.req.code → o.pend.req.code < 8 → (t.tag k).holder = none ∧
        t.xbr.answers = s.xbr.answers ++ [⟨o.pend.req.code, o.pend.user, 6, []⟩]))) ∧
  (∀ (s : State) (c : ComplReq), s.xbr.compl.find? s.complReady = some c →
    let b := c.body
    let k := xTag b % 1024
    let status := byteAt b 0 % 16
    (∀ o, (s.tag k).holder = some o → o.pend.req.code = byteAt b 1 → (s.tag k).epoch = xTag b / 1024 →
      (status = 3 → ∃ t, Machine.exec .completionReceive s = .next t ∧ t.xbr.compl = s.xbr.compl.erase c ∧
        (t.tag k).holder = some { o with busy := o.busy + 1, backoff := true, busyAt := s.now }) ∧
      (status ≠ 3 → 0 < o.pend.req.code → o.pend.req.code < 8 →
        ∃ t, Machine.exec .completionReceive s = .next t ∧ t.xbr.compl = s.xbr.compl.erase c ∧ (t.tag k).holder = none ∧
          t.xbr.answers = s.xbr.answers ++ [⟨o.pend.req.code, o.pend.user, status, (xData b).take (xLen b)⟩])) ∧
    ((∀ o, (s.tag k).holder = some o → ¬(o.pend.req.code = byteAt b 1 ∧ (s.tag k).epoch = xTag b / 1024)) →
      ∃ t, Machine.exec .completionReceive s = .next t ∧ t.xbr.compl = s.xbr.compl.erase c ∧ t.xbr.tags = s.xbr.tags ∧
        (status = 0 ∨ status = 3 → t.rd Reg.xbrCntLateCpl = satInc (s.rd Reg.xbrCntLateCpl))))

/-- What a target does with the frames of its sources (R306, R311–R313, R317, R319, R321, R324, R328–R331): the order table takes, holds
or discards them; a request whose turn has come is answered BUSY where the cache is full, waits where its block stalls, and otherwise is
executed, cached and answered; posted writes in application SRAM are carried out, and malformed ones counted; messages, DISCARD notices
and event reports are taken; a stream's entry ages STREAM_AGE after its last frame and a gap is lost after GAP_WAIT, stated for one frame
held; a cached entry is freed after its hold, and a stream's entry is replaceable 2 × STREAM_AGE after its last frame. -/
def Obligations.TargetsExecuteReleasedFrames : Prop :=
  (∀ (s : State) (d : Delivered) (rest : List Delivered), s.net.toXbr = d :: rest →
    let b := payload d.bytes
    let source := hdrSource d.bytes
    let f : XRecv := ⟨hdrClass d.bytes, hdrType d.bytes, b⟩
    ∃ t, Machine.exec .transactionFrameReceive s = .next t ∧
      (b.length < 16 → t.net.toXbr = rest ∧ t.rd Reg.xbrCntBadReq = satInc (s.rd Reg.xbrCntBadReq) ∧ t.xbr.orders = s.xbr.orders) ∧
      (16 ≤ b.length → ∀ o, s.order source = some o →
        (o.epoch = xEpoch b → hdrType d.bytes = 4 ∨ xBack b = 0 →
          (int16 (xOseq b) o.next < 0 → t.rd Reg.xbrCntStreamStale = satInc (s.rd Reg.xbrCntStreamStale) ∧
            t.order source = some { o with lastAt := s.now, aged := false }) ∧
          (int16 (xOseq b) o.next = 0 → o.held = [] →
            t.order source = some { o with next := (o.next + 1) % 65536, lastAt := s.now, aged := false }) ∧
          (0 < int16 (xOseq b) o.next → int16 (xOseq b) o.next ≤ 1023 → o.held = [] → s.heldFrames < 1024 →
            t.order source = some { o with held := [⟨xOseq b, some f, s.now⟩], lastAt := s.now, aged := false })) ∧
        (o.epoch ≠ xEpoch b → o.aged = false → 8 ≤ (xEpoch b + 16 - o.epoch) % 16 →
          t.rd Reg.xbrCntStreamStale = satInc (s.rd Reg.xbrCntStreamStale) ∧ t.xbr.orders = s.xbr.orders)) ∧
      (16 ≤ b.length → s.order source = none → s.xbr.orders.length < 4096 →
        t.order source = some ⟨xEpoch b, (xOseq b + 1) % 65536, [], s.now, false⟩)) ∧
  (∀ (s : State) (source : BitVec 16) (o : Order), s.order source.toNat = some o →
    ((o.held.all fun h => h.frame.isNone) = true → s.waited o.lastAt s.streamAge = true →
      ∃ t, Machine.exec (.streamAgeExpiry source) s = .next t ∧ t.order source.toNat = some { o with aged := true }) ∧
    (∀ h, o.held = [h] → s.gapDue o = true → ∃ t, Machine.exec (.gapLost source) s = .next t ∧
      t.order source.toNat = some { o with next := (h.place + 1) % 65536, held := [] } ∧
      t.rd Reg.xbrCntGapLost = satInc (s.rd Reg.xbrCntGapLost))) ∧
  (∀ (s : State) (ecc : ReadEcc) (r : InReq) (rest : List InReq), s.xbr.inq = r :: rest → s.requestReady r = true →
    let x := s.executeRequest r ecc
    (s.cacheFullFor r = true → Machine.exec (.requestExecute ecc) s = .next ((s.setXbr fun b => { b with inq := rest }).answerBusy r)) ∧
    (s.cacheFullFor r = false → ∀ u, s.requestWaits r = some u →
      Machine.exec (.requestExecute ecc) s = .next u ∧ u.xbr.inq = s.xbr.inq) ∧
    (s.cacheFullFor r = false → s.requestWaits r = none → ∃ t, Machine.exec (.requestExecute ecc) s = .next t ∧
      t.xbr.inq = x.2.2.xbr.inq.tail ∧
      ∃ e : CacheEnt, e ∈ t.xbr.cache ∧ e.status = x.1 ∧ e.data = (if x.1 = 0 then x.2.1 else []) ∧ e.source = r.source ∧
        e.code = byteAt r.body 1 ∧ e.tag = xTag r.body ∧
        (r.loop = true → t.xbr.compl = x.2.2.xbr.compl ++ [⟨r.source, complBody e false, x.2.2.xbr.mark⟩]))) ∧
  (∀ (s : State) (r : InReq), xBodyOk 2 r.body = true → requestOk (byteAt r.body 0) (xLen r.body) (xAddr r.body) = true →
    inAppSram (xAddr r.body) = true → s.turnedAway (frameOrigin r.source (byteAt r.body 1) r.rights) (xAddr r.body) (xLen r.body) = none →
    let x := s.executeRequest r .clean
    (byteAt r.body 0 = 1 → x = (0, s.memTake (xAddr r.body) (xLen r.body), s)) ∧
    (byteAt r.body 0 = 2 → x = (0, [], s.memPut (xAddr r.body) ((xData r.body).take (xLen r.body)))) ∧
    (3 ≤ byteAt r.body 0 → x = (0, (s.memTake (xAddr r.body) (xLen r.body)).reverse,
      s.memPut (xAddr r.body) (valueBytes (xLen r.body)
        (atomicNew (byteAt r.body 0) (xLen r.body) (bytesNat (s.memTake (xAddr r.body) (xLen r.body))) (xData r.body)))))) ∧
  (∀ (s : State) (p : PostReq) (ecc : ReadEcc), s.nextPosted (fun op => decide (op ≠ 2 ∧ op ≠ 3)) = some p →
    ∃ t, Machine.exec (.postedWriteExecute ecc) s = .next t ∧
      (xBodyOk 4 p.body = false ∨ requestOk 2 (xLen p.body) (xAddr p.body) = false →
        t.rd Reg.xbrCntPwError = satInc (s.rd Reg.xbrCntPwError) ∧ t.xbr.posts = s.xbr.posts.erase p) ∧
      (xBodyOk 4 p.body = true → requestOk 2 (xLen p.body) (xAddr p.body) = true → ecc = .clean → inAppSram (xAddr p.body) = true →
        s.turnedAway (frameOrigin p.source (byteAt p.body 1) p.rights) (xAddr p.body) (xLen p.body) = none →
        t = (s.memPut (xAddr p.body) ((xData p.body).take (xLen p.body))).dropPosted p)) ∧
  (∀ (s : State) (p : PostReq), s.nextPosted (fun op => decide (op = 2)) = some p → xBodyOk 4 p.body = true →
    ∃ t, Machine.exec .messageExecute s = .next t ∧ t.xbr.posts = s.xbr.posts.erase p ∧
      (s.xbr.msgs.length < 256 → t.Raised 0x22 4 ∧
        t.xbr.msgs = s.xbr.msgs ++ [(w32 (at_ 16 p.source + at_ 8 (byteAt p.body 1) + byteAt p.body 7), w32 (beAt p.body 16 4))]) ∧
      (256 ≤ s.xbr.msgs.length → t.rd Reg.xbrCntMsgDrop = satInc (s.rd Reg.xbrCntMsgDrop) ∧
        t.rd Reg.xbrCntPwError = satInc (s.rd Reg.xbrCntPwError) ∧ t.xbr.msgs = s.xbr.msgs)) ∧
  (∀ (s : State) (p : PostReq), s.nextPosted (fun op => decide (op = 3)) = some p → xBodyOk 4 p.body = true →
    let mine (e : CacheEnt) : Bool := e.rs && decide (e.source = p.source ∧ e.code = byteAt p.body 1 ∧ e.tag = xTag p.body)
    ∃ t, Machine.exec .discardReceive s = .next t ∧ t.xbr.posts = s.xbr.posts.erase p ∧
      (s.xbr.cache.find? mine = none → t.rd Reg.xbrCntDiscardMiss = satInc (s.rd Reg.xbrCntDiscardMiss)) ∧
      (∀ e, s.xbr.cache.find? mine = some e → e.status = 0 → e.stranded = false →
        t.rd Reg.xbrCntStranded = satInc (s.rd Reg.xbrCntStranded) ∧ t.Raised 0x22 2)) ∧
  (∀ (s : State) (source : BitVec 16) (code : Byte) (tag : BitVec 14),
    ∃ t, Machine.exec (.ccHoldExpiry source code tag) s = .next t ∧
      ∀ e, e ∈ t.xbr.cache ↔ e ∈ s.xbr.cache ∧
        ¬(e.source = source.toNat ∧ e.code = code.toNat ∧ e.tag = tag.toNat ∧ s.waited e.heldAt (s.holdTime e) = true)) ∧
  (∀ (s : State) (d : Delivered), s.net.toEvq.find? (fun x => (reportRecs (payload x.bytes)).any Rec.isLost == true) = some d →
    ∃ t, Machine.exec .lostReportReceive s = .next t ∧
      ∀ r, reportRecs (payload d.bytes) = [r] → t = (s.setNet fun n => { n with toEvq := n.toEvq.erase d }).takeLost r) ∧
  (∀ (s : State) (d : Delivered), s.net.toEvq.find? (fun x => (reportRecs (payload x.bytes)).any Rec.isLost == false) = some d →
    ∃ t, Machine.exec .eventReportReceive s = .next t ∧
      ∀ r, reportRecs (payload d.bytes) = [r] → t = (s.setNet fun n => { n with toEvq := n.toEvq.erase d }).takeRec r) ∧
  (∀ (s : State), ∃ t, Machine.exec .msgDataRead s = .next t ∧
    (s.xbr.msgs = [] → t.xbr.msgUnderrun = true ∧ t.reply = ⟨0, wordBytes 0⟩) ∧
    (∀ a b rest, s.xbr.msgs = (a, b) :: rest →
      (s.xbr.msgHalf = false → t.reply = ⟨0, wordBytes a⟩ ∧ t.xbr.msgs = s.xbr.msgs ∧ t.xbr.msgHalf = true) ∧
      (s.xbr.msgHalf = true → t.reply = ⟨0, wordBytes b⟩ ∧ t.xbr.msgs = rest ∧ t.xbr.msgHalf = false))) ∧
  (∀ (s : State), ∃ t, Machine.exec .msgUnderClr s = .next t ∧ t.xbr = { s.xbr with msgUnderrun := false }) ∧
  (∀ (s : State) (dst : BitVec 16) (x : Stream), Tab.get none s.xbr.streams dst.toNat = some x → s.waited x.usedAt (2 * s.streamAge) = true →
    ∃ t, Machine.exec (.streamEntryIdleExpiry dst) s = .next t ∧
      (s.xbr.waiting = [] → Tab.get none t.xbr.streams dst.toNat = some { x with replaceable := true }) ∧
      (∀ f rest, s.xbr.waiting = f :: rest → ∀ g ∈ t.xbr.waiting, g.dst ≠ f.dst))

/-- PLK and its messages (R336–R339): a message received while the link is UP that passes the tests does what its kind says: a STATE is
counted, becomes the partner's latest and renews the lease with HOLD = 1; a RELEASE lets a fit follower await PEER_OWN low; a handover is
agreed or refused by the holder, entered or given up by the node that asked, and cancelled; an ECHO is answered, and its answer gives a
latency. A message that fails the tests is counted and discarded, and too many within 1 ms take the link out of UP. Lanes align while the
SerDes are clocked; ALIGNING ends in HOLD after 10 ms and HOLD after 1 ms in ALIGNING; UP ends in HOLD with its cause at a down condition
or with a silent partner; ECHO is sent every 1 ms and STATE when it is due. -/
def Obligations.PlkMessagesAreTestedAndUsed : Prop :=
  (∀ (s : State) (m : PlkMsg) (k : BitVec 8), let n := plkSeal { m with kind := k }
    s.plk.st = .up → s.plk.lane0 = true → s.plk.lane1 = true → s.plkPasses n = true →
    (k = 1 → ∃ t, Machine.exec (.stateReceive m) s = .next t ∧ t.lease.partner = some n ∧
      t.rd Reg.plkCntRxMsg = satInc (s.rd Reg.plkCntRxMsg) ∧ t.plk.rxSeq = some n.seq ∧
      (s.isPaired = true → m.flags.toNat.testBit 7 = true → t.lease.expired = false ∧
        (s.lease.st = .starting ∨ s.lease.st = .taking → t.lease.st = .follower))) ∧
    (k = 2 → s.isPaired = true → s.lease.st = .follower → s.isFit = true →
      ∃ t, Machine.exec (.releaseReceive m) s = .next t ∧ t.lease.releaseWait = some s.tclks ∧ t.lease.partner = some n) ∧
    (k = 3 → s.isPaired = true →
      let at_T : TimePoint := ⟨m.w8, m.w12.toNat % 2 ^ 30⟩
      let known := s.setLease fun l => { l with partner := some n }
      (s.lease.st = .holder → s.isFit = true → s.qualSum = 0 → known.anyDiffers = false → 10000 ≤ timeDiff at_T s.now →
        ∃ t r, Machine.exec (.hoReqReceive m) s = .next t ∧ t.plk.tx = s.plk.tx ++ [r] ∧ r.kind = 4 ∧ r.w8 = m.w8 ∧ r.w12 = m.w12 ∧
          t.lease.st = .handing ∧ t.lease.hand = some ⟨at_T, true, none⟩) ∧
      (s.lease.st = .follower ∨ (s.lease.st = .holder ∧ (s.isFit = false ∨ s.qualSum ≠ 0 ∨ known.anyDiffers = true ∨
          timeDiff at_T s.now < 10000)) →
        ∃ t r, Machine.exec (.hoReqReceive m) s = .next t ∧ t.plk.tx = s.plk.tx ++ [r] ∧ r.kind = 5 ∧ r.w8 = m.w8 ∧
          t.lease.st = s.lease.st)) ∧
    (k = 4 → s.isPaired = true → s.lease.st = .follower → s.lease.requested = some ⟨m.w8, m.w12.toNat % 2 ^ 30⟩ →
      let known := s.setLease fun l => { l with partner := some n }
      (s.isFit = true → known.anyDiffers = false →
        ∃ t, Machine.exec (.hoAckReceive m) s = .next t ∧ t.lease.st = .handing ∧ t.lease.requested = none ∧
          t.lease.hand = some ⟨⟨m.w8, m.w12.toNat % 2 ^ 30⟩, false, none⟩) ∧
      (s.isFit = false ∨ known.anyDiffers = true → ∃ t, Machine.exec (.hoAckReceive m) s = .next t ∧ t.lease.st = .follower ∧ t.lease.requested = none ∧
        t.lease.hand = none ∧ t.rd Reg.leaseCntHandoverAbort = satInc (s.rd Reg.leaseCntHandoverAbort))) ∧
    (k = 5 → ∃ t, Machine.exec (.hoCancelReceive m) s = .next t ∧ t.lease.requested = none ∧
      (∀ h, s.lease.st = .handing → s.lease.hand = some h → h.acted = none →
        t.lease.st = (if h.wasHolder then .holder else .follower) ∧ t.lease.hand = none ∧
        t.rd Reg.leaseCntHandoverAbort = satInc (s.rd Reg.leaseCntHandoverAbort))) ∧
    (k = 6 → ∀ residence, ∃ t l r, Machine.exec (.echoReceive m residence) s = .next t ∧ t.plk.tx = l ++ [r] ∧ r.kind = 7 ∧
      r.w8 = residence) ∧
    (k = 7 → s.plk.echoOut = true → ∀ roundTrip, ∃ t, Machine.exec (.echoReplyReceive m roundTrip) s = .next t ∧
      t.plk.echoOut = false ∧
      t.plk.latency = (s.plk.latency ++ [(roundTrip - m.w8.toNat) / 2]).drop (s.plk.latency.length + 1 - 16))) ∧
  (∀ (s : State) (m : PlkMsg), s.plk.st ≠ .disabled → s.plk.lane0 = true → s.plk.lane1 = true →
    (plkCrcOk m = false ∨ s.plkPasses m = false) →
    let u := s.setPlk fun p => { p with good := 0, errs := s.tclks :: p.errs.filter fun t => decide (s.tclks < t + msTclks 1) }
    ∃ t, Machine.exec (.plkMessageRejected m) s = .next t ∧ t.lease = s.lease ∧ t.Raised 0x2C 2 ∧
      (plkCrcOk m = false → t.rd Reg.plkCntCrc = satInc (s.rd Reg.plkCntCrc)) ∧
      (plkCrcOk m = true → t.rd Reg.plkCntMalformed = satInc (s.rd Reg.plkCntMalformed)) ∧
      (s.plk.st = .up → u.plkTooMany = true → t.plk.st = .hold ∧ t.plk.lastCause = 6) ∧
      (s.plk.st ≠ .up ∨ u.plkTooMany = false → t.plk = u.plk)) ∧
  (∀ (s : State) (lane0 lane1 : Bool), s.plk.st ≠ .up →
    Machine.exec (.plkLaneAlignment lane0 lane1) s =
      .next (s.setPlk fun p => { p with lane0 := lane0 && s.serdesRuns, lane1 := lane1 && s.serdesRuns, good := 0 })) ∧
  (∀ (s : State), s.plk.st = .aligning → s.passed s.plk.stAt (msTclks 10) = true →
    ∃ t, Machine.exec .plkAlignTimeout s = .next t ∧ t.plk.st = .hold ∧ t.rd Reg.plkCntLinkFail = satInc (s.rd Reg.plkCntLinkFail)) ∧
  (∀ (s : State), s.plk.st = .hold → s.passed s.plk.stAt (msTclks 1) = true →
    ∃ t, Machine.exec .plkHoldExpiry s = .next t ∧ t.plk.st = .aligning ∧ t.plk.good = 0) ∧
  (∀ (s : State), s.plk.st = .up →
    (∀ cause, (cause = .errors → s.plkTooMany = true) →
      ∃ t, Machine.exec (.plkDownCondition cause) s = .next t ∧ t.plk.st = .hold ∧ t.Raised 0x2C 1 ∧
      t.plk.lastCause = (match cause with | .signal => 1 | .alignment => 2 | .errors => 6) ∧
      t.rd Reg.plkCntLinkDown = satInc (s.rd Reg.plkCntLinkDown)) ∧
    (s.passed s.plk.rxAt (2 * s.fld Reg.leaseTiming 0 16 + usTclks 1) = true →
      ∃ t, Machine.exec .partnerSilent s = .next t ∧ t.plk.st = .hold ∧ t.plk.lastCause = 9 ∧ t.Raised 0x2C 1 ∧
      t.rd Reg.plkCntLinkDown = satInc (s.rd Reg.plkCntLinkDown)) ∧
    (s.passed s.plk.echoAt (msTclks 1) = true →
      ∃ t r, Machine.exec .echoSend s = .next t ∧ t.plk.tx = s.plk.tx ++ [r] ∧ r.kind = 6 ∧ t.plk.echoOut = true)) ∧
  (∀ (s : State), s.plk.st ≠ .disabled → s.stateDue = true → ∃ t r, Machine.exec .stateSend s = .next t ∧ t.plk.tx = s.plk.tx ++ [r] ∧ r.kind = 1 ∧
    r.seq = s.plk.txSeq ∧ r.flags.toNat.testBit 7 = (s.lease.ownOut && s.isPaired) ∧ r.vec = s.cmdVec ∧
    t.rd Reg.plkCntTxMsg = satInc (s.rd Reg.plkCntTxMsg))

/-- The lease (R340–R346, R349–R356): a fit follower without a renewal for LENGTH, and a node that has waited its time in STARTING, takes
the lease where PEER_OWN is low, or once it falls, and gives way where PEER_OWN rises; after 4 µs in TAKING, or with PEER_OWN low for 1 µs
after a RELEASE, it is holder, with the latches of the compared lines loaded; a preferred follower asks for a handover after REVERT_HOLD.
A holder whose last renewal was sent LENGTH − 1 µs ago, that loses a conflict of 200 ns or reaches a handover's time releases OWN_OUT, and
1 µs later retakes it or follows. A line that differed for COMPARE_TOL fails the comparison, which releases an unfit holder, and agreement
for COMPARE_TOL clears it. Faults are latched and cleared unless their cause stands; TIMING is taken or sets CFG_ERR. -/
def Obligations.TheLeaseIsTakenHeldAndReleased : Prop :=
  (∀ (s : State), s.isPaired = true → s.isFit = true →
    (s.lease.peerOwn = false → s.lease.st = .follower → s.passed s.lease.renewAt s.leaseLength = true →
      ∃ t, Machine.exec .leaseExpiry s = .next t ∧ t.lease.st = .taking ∧ t.lease.takeCause = 1) ∧
    (s.lease.peerOwn = false → s.lease.st = .starting → s.passed s.lease.since s.startingWait = true →
      ∃ t, Machine.exec .startingTimeout s = .next t ∧ t.lease.st = .taking ∧ t.lease.takeCause = 0) ∧
    (s.lease.peerOwn = true → s.lease.st = .follower → s.lease.expired = true →
      ∃ t, Machine.exec (.peerOwnChange false) s = .next t ∧ t.lease.st = .taking ∧ t.lease.peerOwn = false) ∧
    (s.lease.peerOwn = false → s.lease.st = .taking →
      ∃ t, Machine.exec (.peerOwnChange true) s = .next t ∧ t.lease.st = .follower ∧ t.lease.peerOwn = true) ∧
    (s.lease.peerOwn = false → s.lease.st = .taking → s.passed s.lease.since (usTclks 4) = true →
      ∃ t, Machine.exec .takeoverComplete s = .next t ∧ t.lease.st = .holder ∧ t.lease.ownOut = true ∧ t.Raised 0x2D 0 ∧
        t.rd Reg.leaseCntAcquire = satInc (s.rd Reg.leaseCntAcquire) ∧
        ∀ k, s.compared k = true → (t.line k).latch = (s.line k).cmd ∧ (t.line k).pulse = (s.line k).cmdPulse) ∧
    (∀ since, s.lease.peerOwn = false → s.lease.st = .follower → s.lease.releaseWait = some since →
      s.lowAfter since + usTclks 1 ≤ since + usTclks 10 → s.passed (s.lowAfter since) (usTclks 1) = true →
      ∃ t, Machine.exec .releaseConfirm s = .next t ∧ t.lease.st = .holder ∧ t.lease.ownOut = true ∧ t.Raised 0x2D 0)) ∧
  (∀ (s : State), s.revertMet = true → s.lease.revertAt.any (fun t => s.passed t s.revertHold) = true → s.requestOpen = false →
    ∃ t r, Machine.exec .revertHoldExpiry s = .next t ∧ t.plk.tx = s.plk.tx ++ [r] ∧ r.kind = 3 ∧
      t.lease.requested = some (timeAdd s.now 20000)) ∧
  (∀ (s : State), s.lease.st = .follower → s.lease.peerOwn = true → s.passed s.lease.renewAt s.leaseLength = true →
    ∃ t, Machine.exec .leaseExpiry s = .next t ∧ t.lease = { s.lease with expired := true }) ∧
  (∀ (s : State), s.isPaired = true → s.lease.st = .holder → s.passed s.lease.sentAt (s.leaseLength - usTclks 1) = true →
    ∃ t, Machine.exec .selfExpiry s = .next t ∧ t.lease.ownOut = false ∧ t.lease.st = .follower ∧ t.Raised 0x2D 1 ∧
      t.rd Reg.leaseCntLost = satInc (s.rd Reg.leaseCntLost)) ∧
  (∀ (s : State), s.isPaired = true → s.lease.st = .holder → s.lease.peerOwn = true → s.lease.conflict = false →
    s.passed s.lease.peerAt 5 = true → s.passed s.lease.since 5 = true →
    ∃ t, Machine.exec .leaseConflict s = .next t ∧ t.rd Reg.leaseCntConflict = satInc (s.rd Reg.leaseCntConflict) ∧
      t.lease.conflict = true ∧
      (s.conflictLoses = true → t.lease.ownOut = false ∧ t.lease.st = .follower ∧ t.Raised 0x2D 1) ∧
      (s.conflictLoses = false → t.lease = { s.lease with conflict := true })) ∧
  (∀ (s : State) (h : Handover), s.lease.st = .handing → s.lease.hand = some h →
    (h.acted = none → h.wasHolder = true → s.due h.time = true → ∃ t, Machine.exec .handoverTime s = .next t ∧ t.lease.ownOut = false ∧
      t.lease.hand = some { h with acted := some s.tclks } ∧ t.rd Reg.leaseCntLost = satInc (s.rd Reg.leaseCntLost)) ∧
    (h.acted = none → h.wasHolder = false → s.due h.time = true → s.isFit = true →
      ∃ t, Machine.exec .handoverTime s = .next t ∧ t.lease.ownOut = true ∧
      t.lease.st = .holder ∧ t.rd Reg.leaseCntHandover = satInc (s.rd Reg.leaseCntHandover) ∧
      t.rd Reg.leaseCntAcquire = satInc (s.rd Reg.leaseCntAcquire)) ∧
    (∀ since, h.acted = some since → s.passed since (usTclks 1) = true →
      (s.lease.peerOwn = false → s.isFit = true → ∃ t, Machine.exec .handoverRetakeCheck s = .next t ∧ t.lease.ownOut = true ∧
        t.lease.st = .holder) ∧
      (s.lease.peerOwn = true → ∃ t, Machine.exec .handoverRetakeCheck s = .next t ∧ t.lease.st = .follower ∧
        t.lease.renewAt = since ∧ t.rd Reg.leaseCntHandover = satInc (s.rd Reg.leaseCntHandover)))) ∧
  (∀ (s : State), s.compareActive = true →
    (s.anyDiffers = true → s.lease.compareFail = false → s.lease.diffs.any (fun e => s.passed e.2 s.compareTol) = true →
      ∃ t, Machine.exec .compareFail s = .next t ∧ t.lease.compareFail = true ∧
      t.Raised 0x2D 2 ∧ t.rd Reg.leaseCntCompareFail = satInc (s.rd Reg.leaseCntCompareFail) ∧
      (s.isFit = false → s.lease.st = .holder → t.lease.ownOut = false ∧ t.lease.st = .follower)) ∧
    (s.anyDiffers = false → s.lease.compareFail = true → s.lease.agreeAt.any (fun t => s.passed t s.compareTol) = true →
      ∃ t, Machine.exec .compareClear s = .next t ∧ t.lease.compareFail = false ∧ t.Raised 0x2D 2)) ∧
  (∀ (s : State) (differs : Bool),
    (∃ t, Machine.exec (.ownOutReadbackFault differs) s = .next t ∧
      (differs = true → t.flag Reg.leaseFault 2 = true ∧ (s.flag Reg.leaseFault 2 = false → t.Raised 0x2D 5)) ∧
      (differs = false → t = s.setLease fun l => { l with ownPinDiffers := false }))) ∧
  (∀ (s : State) (v : Word),
    (∃ t, Machine.exec (.faultClr v) s = .next t ∧
      ∀ b, b < 6 → t.flag Reg.leaseFault b = (s.flag Reg.leaseFault b && (!bit v b || s.faultStands b))) ∧
    (∃ t, Machine.exec (.faultSet v) s = .next t ∧ (bit v 5 = true → t.flag Reg.leaseFault 5 = true) ∧ (bit v 5 = false → t = s)) ∧
    (∃ t, Machine.exec (.timingWrite v) s = .next t ∧
      (2 ≤ bits v 16 16 → bits v 16 16 ≤ 1000 → 2 * (bits v 0 16 * 40) ≤ bits v 16 16 * 1000 →
        t.rd Reg.leaseTiming = v ∧ t.lease.cfgErr = false) ∧
      (bits v 16 16 < 2 ∨ 1000 < bits v 16 16 ∨ bits v 16 16 * 1000 < 2 * (bits v 0 16 * 40) →
        t = s.setLease fun l => { l with cfgErr := true })))

/-- The CAN FD controllers (R364–R373, R376–R378): reception, errors, arbitration and the end of a transmission move the counters, the
error state and the mailboxes' bits; the states follow one another; mailboxes and the TX FIFO take, refuse and cancel frames. -/
def Obligations.CanControllersReceiveSendAndRecover : Prop :=
  (∀ (s : State) (n : Fin 16), s.canActive n = true →
    (∀ (f : CanFrame) (stamp : TimePoint), s.canLoop n ≠ 1 → bit f.id 29 = false ∨ s.flag (Reg.canMode n) 3 = true → ∃ t, Machine.exec (.canFrameReceived n f stamp) s = .next t ∧
      t.rd (Reg.canCntRxOk n) = satInc (s.rd (Reg.canCntRxOk n)) ∧ (t.can n).ackErrs = 0 ∧ (t.can n).alone = false ∧
      (s.canListen n = false → 0 < (s.can n).rec_ → (s.can n).rec_ ≤ 127 → (t.can n).rec_ = (s.can n).rec_ - 1) ∧
      (let kept := match s.canFilter n f.id with
        | some k => !s.flag (indKey (canPage n) (0x100 + 16 * k)) 30
        | none => s.flag (Reg.canMode n) 7
      (kept = false → t.rd (Reg.canCntFiltered n) = satInc (s.rd (Reg.canCntFiltered n))) ∧
      (kept = true → (s.fifo (canRxFifo n)).pkts.length < 64 → t.Raised (canPage n) 0) ∧
      (kept = true → 64 ≤ (s.fifo (canRxFifo n)).pkts.length →
        t.rd (Reg.canCntRxOverrun n) = satInc (s.rd (Reg.canCntRxOverrun n)) ∧ t.Raised (canPage n) 6))) ∧
    (∀ (f : CanFrame) (stamp : TimePoint), s.canLoop n ≠ 1 → bit f.id 29 = true → s.flag (Reg.canMode n) 3 = false →
      Machine.exec (.canFrameReceived n f stamp) s = Machine.exec (.canRxError n .form false false) s) ∧
    (∀ (e : CanErr) (dataPhase eight : Bool), s.canLoop n ≠ 1 → ∃ t, Machine.exec (.canRxError n e dataPhase eight) s = .next t ∧
      t.rd (canErrCnt n e) = satInc (s.rd (canErrCnt n e)) ∧
      t.rd (Reg.canLastErr n) = w32 (at_ 3 (b2n dataPhase) + canErrCode e) ∧ t.Raised (canPage n) 6 ∧
      (t.can n).rec_ = (if s.canListen n then (s.can n).rec_ else capAt 255 ((s.can n).rec_ + if eight then 8 else 1))) ∧
    (∀ (sof : TimePoint) (m : Nat), s.enabled (canPage n) = true → s.canListen n = false → (s.can n).sending = none → s.canPick n = some m →
      Machine.exec (.canArbitrationStart n sof) s = .next (s.setCan n fun x => { x with sending := some ⟨m, sof⟩ })) ∧
    (s.flag (Reg.canMode n) 4 = false → s.flag (Reg.canMode n) 3 = true → ∃ t, Machine.exec (.canProtocolException n) s = .next t ∧ (t.can n).st = 6 ∧
      (t.can n).left = (s.can n).st ∧ (t.can n).sending = none ∧ t.Raised (canPage n) 3)) ∧
  (∀ (s : State) (n : Fin 16) (x : CanTx), (s.can n).sending = some x →
    (∃ t, Machine.exec (.canArbitrationLost n) s = .next t ∧ (t.can n).sending = none ∧
      t.rd (Reg.canCntArbLost n) = satInc (s.rd (Reg.canCntArbLost n)) ∧ t.rd (Reg.canTxpend n) = s.rd (Reg.canTxpend n)) ∧
    (∀ tdcv : BitVec 7, tdcv.toNat + bits (s.canWord n 8) 0 7 ≤ 127 → ∃ t, Machine.exec (.canTxSuccess n tdcv) s = .next t ∧ (t.can n).sending = none ∧
      t.rd (Reg.canCntTxOk n) = satInc (s.rd (Reg.canCntTxOk n)) ∧ (t.can n).tec = (s.can n).tec - 1 ∧ t.Raised (canPage n) 1 ∧
      (x.who < 32 → bit (t.rd (Reg.canTxpend n)) x.who = false ∧ bit (t.rd (Reg.canTxdone n)) x.who = true)) ∧
    (∀ (e : CanErr) (dataPhase held : Bool), e ≠ .ack ∨ s.canLoop n = 0 → ∃ t, Machine.exec (.canTxError n e dataPhase held) s = .next t ∧
      (t.can n).sending = none ∧ t.rd (canErrCnt n e) = satInc (s.rd (canErrCnt n e)) ∧
      (t.can n).tec = (if held then (s.can n).tec else (s.can n).tec + 8) ∧
      (x.who < 32 → s.canRetx n x.who = 0 ∨ Tab.get 0 (s.can n).tries x.who + 1 < s.canRetx n x.who →
        t.rd (Reg.canTxpend n) = s.rd (Reg.canTxpend n)) ∧
      (x.who < 32 → s.canRetx n x.who ≠ 0 → s.canRetx n x.who ≤ Tab.get 0 (s.can n).tries x.who + 1 →
        bit (t.rd (Reg.canTxpend n)) x.who = false ∧ bit (t.rd (Reg.canTxfail n)) x.who = true ∧ t.Raised (canPage n) 2))) ∧
  (∀ (s : State) (n : Fin 16),
    ((s.can n).st = 1 → ∃ t, Machine.exec (.canBusIdle n) s = .next t ∧ (t.can n).st = 2 ∧ t.Raised (canPage n) 3) ∧
    ((s.can n).st = 6 → ∃ t, Machine.exec (.canBusIdle n) s = .next t ∧ (t.can n).st = (s.can n).left) ∧
    ((s.can n).st = 5 → ∃ t, Machine.exec (.canRecoveryComplete n) s = .next t ∧ (t.can n).st = 2 ∧ (t.can n).tec = 0 ∧
      (t.can n).rec_ = 0) ∧
    ((s.can n).st = 4 → ∃ t, Machine.exec (.canRecover n) s = .next t ∧ (t.can n).st = 5) ∧
    (s.enabled (canPage n) = false → (s.can n).st ≠ 0 → (s.can n).sending = none →
      ∃ t, Machine.exec (.canInitEntry n) s = .next t ∧ (t.can n).st = 0 ∧ (t.can n).tec = 0 ∧ (t.can n).rec_ = 0 ∧
        t.rd (Reg.canTxpend n) = 0 ∧ t.rd (Reg.canTxfail n) = s.rd (Reg.canTxfail n) ||| s.rd (Reg.canTxpend n))) ∧
  (∀ (s : State) (n : Fin 16) (v : Word),
    (∃ t, Machine.exec (.txreq n v) s = .next t ∧ ∀ m, m < 32 →
      bit (t.rd (Reg.canTxpend n)) m = (bit (s.rd (Reg.canTxpend n)) m || (bit v m && !s.canListen n))) ∧
    (∃ t, Machine.exec (.txcancel n v) s = .next t ∧ ∀ m, m < 32 →
      let cancelled := bit v m && bit (s.rd (Reg.canTxpend n)) m && (s.can n).sending.all fun x => decide (x.who ≠ m)
      bit (t.rd (Reg.canTxpend n)) m = (bit (s.rd (Reg.canTxpend n)) m && !cancelled) ∧
      bit (t.rd (Reg.canTxfail n)) m = (bit (s.rd (Reg.canTxfail n)) m || cancelled)) ∧
    (∃ t, Machine.exec (.txresClr n v) s = .next t ∧ t.rd (Reg.canTxdone n) = s.rd (Reg.canTxdone n) &&& ~~~ v ∧
      t.rd (Reg.canTxfail n) = s.rd (Reg.canTxfail n) &&& ~~~ v)) ∧
  (∀ (s : State) (n : Fin 16) (w : Word),
    let u := (s.txDataWrite (canTxFifo n) w).2
    let word (i : Nat) : Word := u.sramGet (u.fifoKey (canTxFifo n) (u.lastHeader (canTxFifo n) + i))
    ∃ t, Machine.exec (.canTxDataWrite n w) s = .next t ∧
      ((s.txDataWrite (canTxFifo n) w).1 = false ∨ canPacketOk (bits (word 0) 0 16) (word 1) (word 2) = true → t = u) ∧
      ((s.txDataWrite (canTxFifo n) w).1 = true → canPacketOk (bits (word 0) 0 16) (word 1) (word 2) = false →
        t.fifo (canTxFifo n) = (u.fifo (canTxFifo n)).dropLast ∧
        t.rd (Reg.canCntTxRewind n) = satInc (u.rd (Reg.canCntTxRewind n)) ∧ t.Raised (canPage n) 6)) ∧
  (∀ (s : State) (n : Fin 16),
    ((s.can n).sending.any (fun x => decide (x.who = 32)) = false → ∃ t, Machine.exec (.canTxFlush n) s = .next t ∧
      (t.fifo (canTxFifo n)).pkts = [] ∧ ((s.fifo (canTxFifo n)).pkts ≠ [] → t.Raised (canPage n) 2)) ∧
    (∀ x, (s.can n).sending = some x → x.who = 32 → ∃ t, Machine.exec (.canTxFlush n) s = .next t ∧
      (t.fifo (canTxFifo n)).pkts = (s.fifo (canTxFifo n)).pkts.take 1 ∧ t.Raised (canPage n) 5)) ∧
  (∀ (s : State) (n : Fin 16) (m : Fin 32) (i : Fin 18) (v : Word),
    Machine.exec (.canMbWrite n m i v) s = .next (if bit (s.rd (Reg.canTxpend n)) m then s.bump (Reg.canCntMbRefused n)
      else s.wr (indKey (canPage n) (0x1000 + 0x80 * m + 4 * i)) v))

/-- The serial functions of a channel (R381–R389, R392). A UART character is discarded with HALF = 1 while DE is asserted, and else stored
or failed with its counter; the RX packet ends after GAP; a TX packet begins after its idle time and ends after its time. SPI transactions
likewise. I2C transactions start on a free bus or in a chain and end with their result; SMBus timeouts, a bus that never came free, and
BUS_CLEAR. PPS_OUT pulses for WIDTH. Where the condition of a command that reports an event does not hold, the state stays as it is: the
model's choice (log entry 1). -/
def Obligations.SerialFunctionsReceiveAndSend : Prop :=
  (∀ (s : State) (c : Fin 64) (data : BitVec 9) (stamp : TimePoint) (fault : UartFault),
    let half := bit (s.rd (Reg.chUartCfg c)) 31 && s.uartDe c
    (s.runs c 2 = false → Machine.exec (.uartCharReceive c data stamp fault) s = .next s) ∧
    (s.runs c 2 = true → half = true →
      Machine.exec (.uartCharReceive c data stamp fault) s = .next (s.bump (Reg.chCntRxDe c))) ∧
    (s.runs c 2 = true → half = false → ∃ t, Machine.exec (.uartCharReceive c data stamp fault) s = .next t ∧
      (t.ser c).rxAt = some s.tclks ∧
      (fault = .fine → s.uartGapSeen c = false → s.serOpen c = true → s.fld (Reg.chUartMax c) 0 16 = 0 →
        (t.ser c).count = (s.ser c).count + (if bits (s.rd (Reg.chUartCfg c)) 21 4 = 9 then 2 else 1)) ∧
      (fault ≠ .fine → (fault = .gap → s.uartGapSeen c = true) →
        (t.ser c).count = 0 ∧ (t.ser c).part = [] ∧
        t.rd (uartStatus c fault).2 = satInc (s.rd (uartStatus c fault).2)) ∧
      (fault = .brk → t.Raised (0x80 + c) 11))) ∧
  (∀ (s : State) (c : Fin 64), s.runs c 2 = true →
    (s.serOpen c = true → s.idleFor (s.ser c).rxAt (s.uartUnits c (s.uartGap c)) = true →
      Machine.exec (.uartGapExpiry c) s = .next (s.serEnd c 0)) ∧
    ((s.ser c).busy = false → s.txReady (txFifo c) = true → s.uartIdle c = true →
      ∃ t, Machine.exec (.uartTxStart c) s = .next t ∧ (t.ser c).busy = true ∧ (t.ser c).startAt = s.tclks) ∧
    ((s.ser c).busy = true → s.nsPassed (s.ser c).startAt (s.uartTxTime c) = true →
      ∃ t, Machine.exec (.uartTxEnd c) s = .next t ∧ (t.ser c).busy = false ∧ (t.ser c).endAt = some s.tclks ∧
      (t.ser c).sent = (s.ser c).sent ++ [s.txBytes (txFifo c)] ∧ t.Raised (0x80 + c) 10)) ∧
  (∀ (s : State) (c : Fin 64) (rx : List Byte), s.runs c 3 = true →
    ((s.ser c).busy = false → s.txReady (txFifo c) = true → s.spiIdle c = true →
      ∃ t, Machine.exec (.spiTransactionStart c) s = .next t ∧ (t.ser c).busy = true ∧ (t.ser c).cs = true ∧
        (t.ser c).header = s.txHeader (txFifo c) ∧ (t.ser c).startAt = s.tclks) ∧
    ((s.ser c).busy = true → s.nsPassed (s.ser c).startAt (s.spiTime c) = true →
      ∃ t, Machine.exec (.spiTransactionEnd c rx) s = .next t ∧ (t.ser c).busy = false ∧
      (t.ser c).cs = bit (s.ser c).header 31 ∧ (t.ser c).endAt = some s.tclks ∧
      (t.ser c).sent = (s.ser c).sent ++ [s.txBytes (txFifo c)] ∧ t.Raised (0x80 + c) 10)) ∧
  (∀ (s : State) (c : Fin 64) (rx : List Byte) (cut : Bool), s.runs c 4 = true →
    ((s.ser c).cs = false → ∃ t, Machine.exec (.spiCsAssert c) s = .next t ∧ (t.ser c).cs = true ∧ (t.ser c).count = 0) ∧
    ((s.ser c).cs = true → ∃ t, Machine.exec (.spiCsRelease c rx cut) s = .next t ∧ (t.ser c).cs = false ∧ (t.ser c).busy = false ∧
      (t.ser c).count = 0 ∧ (cut = true → t.rd (Reg.chCntSpiPartial c) = satInc (s.rd (Reg.chCntSpiPartial c))))) ∧
  (∀ (s : State) (c : Fin 64) (acked : Byte) (read : List Byte), s.runs c 5 = true →
    ((s.ser c).busy = false → s.txReady (txFifo c) = true → ((s.ser c).chain = true ∨ s.i2cFree c = true) →
      ∃ t, Machine.exec (.i2cTransactionStart c) s = .next t ∧ (t.ser c).busy = true ∧ t.i2cBusBusy c = true ∧
        (t.ser c).header = s.txHeader (txFifo c)) ∧
    (∀ r : Fin 6, (s.ser c).busy = true → r.val < 4 → ∃ t, Machine.exec (.i2cTransactionEnd c r acked read) s = .next t ∧
      (t.ser c).busy = false ∧ t.Raised (0x80 + c) 10 ∧ (t.ser c).sent = (s.ser c).sent ++ [s.txBytes (txFifo c)] ∧
      ((s.ser c).clearWaits = false → (t.ser c).chain = (bit (s.ser c).header 22 && decide (r.val = 0)) ∧
        (t.ser c).bus = (s.ser c).bus ++
          i2cSequence (s.ser c).chain (s.txBytes (txFifo c)) (s.ser c).header r acked.toNat read) ∧
      (r.val ≠ 0 → t.Raised (0x80 + c) 12 ∧ t.rd (Reg.chCntI2cFail c) = satInc (s.rd (Reg.chCntI2cFail c)))) ∧
    ((s.ser c).busy = false → (s.ser c).chain = false → s.txReady (txFifo c) = true → s.i2cFree c = false →
      s.passed (s.ser c).wantAt (msTclks (s.i2cTimeout c)) = true →
      ∃ t, Machine.exec (.i2cTransactionEnd c 5 acked read) s = .next t ∧ (t.ser c).busy = false ∧
        t.Raised (0x80 + c) 10 ∧ t.Raised (0x80 + c) 12 ∧ t.rd (Reg.chCntI2cFail c) = satInc (s.rd (Reg.chCntI2cFail c))) ∧
    ((s.ser c).busy = true → s.smbTimedOut c = true → ∃ t, Machine.exec (.smbusTimeout c acked read) s = .next t ∧
      (t.ser c).busy = false ∧ t.Raised (0x80 + c) 12 ∧ t.Raised (0x80 + c) 13 ∧
      t.rd (Reg.chCntSmbTimeout c) = satInc (s.rd (Reg.chCntSmbTimeout c))) ∧
    (s.TileReady (c / 8) → ∃ t, Machine.exec (.i2cBusClear c) s = .next t ∧
      ((s.ser c).busy = true → (t.ser c).clearWaits = true ∧ (t.ser c).chain = (s.ser c).chain) ∧
      ((s.ser c).busy = false → (t.ser c).chain = false ∧ (t.ser c).endAt = some s.tclks))) ∧
  (∀ (s : State) (c : Fin 64),
    (∀ at_, (s.ser c).pulse = some at_ → s.nsPassed at_ (s.fld (Reg.chPpsOutWidth c) 0 30) = true →
      ∃ t, Machine.exec (.ppsOutEnd c) s = .next t ∧ (t.ser c).pulse = none) ∧
    (s.runs c 8 = true → s.ppsGateOpen c = true → (s.ser c).pulse = none →
      (s.fld (Reg.chPpsOutOffset c) 0 30 % 1000000000 + 1000000000 - s.now.ns) % 1000000000 ≤ 40 →
      ∃ t, Machine.exec (.ppsOutStart c) s = .next t ∧ (t.ser c).pulse = some s.tclks) ∧
    (s.runs c 8 = true → s.ppsGateOpen c = false → Machine.exec (.ppsOutStart c) s = .next s))

/-- The host port (R393–R402, R410, R416, R417): a request is taken while the link is up and the port gives credit. Configuration requests
are answered or retried, reads and writes of the BARs are translated, checked and bridged, a masked vector's message is kept until it is
unmasked, and the port's links, resets, abandoned reads and timeouts are counted and raised. Where the condition of a command that reports
an event does not hold, the state stays as it is: the model's choice (log entry 1). -/
def Obligations.TheHostPortAnswersAndBridges : Prop :=
  (∀ (s : State),
    (s.host.perst = true → ∃ t, Machine.exec .perstDeassert s = .next t ∧
      t.host = { s.host with perst := false, retrying := true, perstAt := s.tclks }) ∧
    (s.host.perst = false → s.passed s.host.perstAt (msTclks 1000) = true →
      ∃ t, Machine.exec .cfgRetryTimeout s = .next t ∧ t.host = { s.host with retrying := false })) ∧
  (∀ (s : State) (q : HostConfig),
    (s.hostLinked = false ∨ s.npBlocked = true → Machine.exec (.hostConfigRequest q) s = .next s) ∧
    (s.hostLinked = true → s.npBlocked = false → s.host.retrying = true → s.flag Reg.hostCfg 0 = false →
      ∃ t, Machine.exec (.hostConfigRequest q) s = .next t ∧ t.hostTx = s.hostTx ++ [.configRetry] ∧ t.host = s.host) ∧
    (s.hostLinked = true → s.npBlocked = false → (s.host.retrying = false ∨ s.flag Reg.hostCfg 0 = true) →
      ∃ t, Machine.exec (.hostConfigRequest q) s = .next t ∧ HostTlp.configDone ∈ t.hostTx ∧
        (∀ b, q = .busMaster b → t.host.busMaster = b) ∧ (∀ d, q = .power d → t.host.d3 = d) ∧
        (∀ en mask, q = .msix en mask → t.msixEnable = en ∧ t.msixFuncMask = mask))) ∧
  (∀ (s : State) (bar : HostBar) (off : BitVec 30) (len : BitVec 10) (bad : Bool),
    (s.hostLinked = false ∨ s.npBlocked = true → Machine.exec (.hostMemoryRead bar off len bad) s = .next s) ∧
    (s.hostLinked = true → s.npBlocked = false → (bad = true ∨ len = 0 ∨ 512 < len.toNat) →
      ∃ t, Machine.exec (.hostMemoryRead bar off len bad) s = .next t ∧
        t.rd Reg.hostCntBadTlp = satInc (s.rd Reg.hostCntBadTlp) ∧ t.Raised 0x23 4 ∧ t.host = s.host) ∧
    (s.hostLinked = true → s.npBlocked = false → bad = false → len ≠ 0 → len.toNat ≤ 512 →
      ∃ t, Machine.exec (.hostMemoryRead bar off len bad) s = .next t ∧
        (bar = .bar4 → ∃ d : List Byte, d.length = len.toNat ∧ t.hostTx = s.hostTx ++ [.readData d]) ∧
        (bar ≠ .bar4 → s.hostTarget bar off.toNat = none → t.Raised 0x23 3 ∧
          t.rd Reg.hostCntRdErr = satInc (s.rd Reg.hostCntRdErr) ∧ t.rd Reg.hostRdErrStatus = 1 ∧ t.host = s.host) ∧
        (bar ≠ .bar4 → ∀ node a, s.hostTarget bar off.toNat = some (node, a) →
          (touchesRs a len.toNat = true → (len.toNat ≠ 4 ∨ a % 4 ≠ 0) →
            t.rd Reg.hostCntBadSize = satInc (s.rd Reg.hostCntBadSize) ∧ t.rd Reg.hostRdErrStatus = 2 ∧ t.host = s.host) ∧
          ((touchesRs a len.toNat = false ∨ (len.toNat = 4 ∧ a % 4 = 0)) → t.host.nextRead = s.host.nextRead + 1 ∧
            ∃ r : HostRead, r.num = s.host.nextRead ∧ r.len = len.toNat ∧ r.skip = a % 4 ∧ t.host.reads = s.host.reads ++ [r])))) ∧
  (∀ (s : State) (bar : HostBar) (off : BitVec 30) (data : List Byte) (bad : Bool),
    (s.hostLinked = false ∨ s.postedBlocked = true → Machine.exec (.hostMemoryWrite bar off data bad) s = .next s) ∧
    (s.hostLinked = true → s.postedBlocked = false → (bad = true ∨ data = [] ∨ 256 < data.length) →
      ∃ t, Machine.exec (.hostMemoryWrite bar off data bad) s = .next t ∧
        t.rd Reg.hostCntBadTlp = satInc (s.rd Reg.hostCntBadTlp) ∧ t.Raised 0x23 4) ∧
    (s.hostLinked = true → s.postedBlocked = false → bad = false → data ≠ [] → data.length ≤ 256 →
      ∃ t, Machine.exec (.hostMemoryWrite bar off data bad) s = .next t ∧
        (bar = .bar4 → off.toNat % 4 = 0 → data.length = 4 → t = s.msixWord (off.toNat / 4) (w32 (bytesNat data))) ∧
        (bar ≠ .bar4 → s.hostTarget bar off.toNat = none → t.Raised 0x22 1) ∧
        (bar ≠ .bar4 → ∀ node a, s.hostTarget bar off.toNat = some (node, a) → a % 4096 + data.length ≤ 4096 →
          t = s.issue ⟨⟨0, BitVec.ofNat 16 node, .write, BitVec.ofNat 48 a, data.length, data, 0⟩, decide (bar = .bar0), 0⟩))) ∧
  (∀ (s : State) (v : Fin 64), let e := Tab.get MsixVec.init s.msix v
    ∃ t, Machine.exec (.msixUnmask v) s = .next t ∧ Tab.get MsixVec.init t.msix v = { e with masked := false } ∧
      (setHas s.msixPba v = true → s.msixEnable = true → s.msixFuncMask = false →
        setHas t.msixPba v = false ∧ t.hostTx = s.hostTx ++ [.msix v e.addr e.data])) ∧
  (∀ (s : State) (num : Nat) (r : HostRead), s.host.reads.find? (fun x => decide (x.num = num)) = some r →
    s.passed r.since (msTclks s.cplLimit) = true → ∃ t, Machine.exec (.hostReadAbandon num) s = .next t ∧ t.host.reads = s.host.reads.erase r ∧ t.Raised 0x23 3 ∧
      t.rd Reg.hostCntAbandon = satInc (s.rd Reg.hostCntAbandon) ∧ t.rd Reg.hostRdErrStatus = 6) ∧
  (∀ (s : State) (cause : HostReset), ∃ t, Machine.exec (.hostReset cause) s = .next t ∧ t.host.reads = [] ∧ t.msix = [] ∧
    t.rd Reg.hostCntHostReset = satInc (s.rd Reg.hostCntHostReset) ∧ t.Raised 0x23 2 ∧ (∀ w, w < 16 → t.rd (Reg.hostWinCtrl w) = 0) ∧
    (cause = .dlDown ∨ cause = .perst → t.host.up = false) ∧ (cause = .hot ∨ cause = .flr → t.host.up = s.host.up)) ∧
  (∀ (s : State) (speed : Fin 4) (width : Fin 8), s.hostOn = true → s.host.up = false →
    speed ≠ 0 → (width = 1 ∨ width = 2 ∨ width = 4) → setHas s.clk.failed 4 = false → setHas s.clk.unlocked 4 = false →
    ∃ t, Machine.exec (.hostLinkUp speed width) s = .next t ∧ t.Raised 0x23 0 ∧
      t.host = { s.host with up := true, speed := speed, width := width }) ∧
  (∀ (s : State) (c : Fin 8) (off : Nat) (r : DmaRead), (s.dmaCh c).srcHost = true → off < 2 ^ 32 → r.data = none →
    (s.dmaCh c).reads.find? (fun x => decide (x.off = off) && x.data.isNone) = some r →
    let d := s.dmaCh c
    (∀ b, Machine.exec (.hostCompletionReceive c off (.data b)) s = .next (s.dmaAnswer c off 0 b).dmaPumpAll) ∧
    (d.fail = none → ∃ t, Machine.exec (.hostCompletionReceive c off .failed) s = .next t ∧
      (t.dmaCh c).fail = some (9, sideAddr d.src off d.srcFixed)) ∧
    (s.passed r.since (msTclks 50) = true → ∃ t, Machine.exec (.hostReadTimeout c off) s = .next t ∧ t.Raised 0x23 4 ∧
      t.rd Reg.hostCntCplTimeout = satInc (s.rd Reg.hostCntCplTimeout) ∧
      (d.fail = none → (t.dmaCh c).fail = some (0xA, sideAddr d.src off d.srcFixed))))

/-- Event queues and DMA channels (R404, R407, R409, R412–R416): a queue's configuration is taken only while it is disabled, its consumer
index only where the fill does not grow; a channel starts, stops and is reset, begins the descriptor at DC_HEAD, and ends it with its
status. -/
def Obligations.QueuesAndDmaChannelsFollowTheirRegisters : Prop :=
  (∀ (s : State) (n : Fin 16) (v : Word),
    (∃ t, Machine.exec (.qCfgWrite n v) s = .next t ∧
      (s.flag (Reg.evqQCfg n) 31 = true → t = s.setFld (Reg.evqQCfg n) 31 1 (b2n (bit v 31))) ∧
      (s.flag (Reg.evqQCfg n) 31 = false → t.rd (Reg.evqQCfg n) = v &&& w32 (directMask 0x24 (Reg.evqQCfg n % 0x1000)) ∧
        (bit v 31 = true → t.evQueue n = EvQueue.init))) ∧
    (let moved := s.wr (Reg.evqQCi n) (v &&& 0xFFFF#32)
    ∃ t, Machine.exec (.qCiWrite n v) s = .next t ∧
      (moved.evFill n ≤ s.evFill n → t.rd (Reg.evqQCi n) = v &&& 0xFFFF#32) ∧
      (s.evFill n < moved.evFill n → t.rd (Reg.evqQCi n) = s.rd (Reg.evqQCi n) ∧
        t.rd Reg.evqCntBadCi = satInc (s.rd Reg.evqCntBadCi))) ∧
    (∀ since, s.flag (Reg.evqQCfg n) 31 = true → (s.evQueue n).holdoff = some since → s.passed since (usTclks (s.fld (Reg.evqQMod n) 16 16)) = true →
      0 < (s.evQueue n).unannounced → Machine.exec (.evqHoldoffExpiry n) s = .next (s.evAnnounce n))) ∧
  (∀ (s : State) (v : Word),
    (bit v 8 = true → Machine.exec (.postCmd v) s = .next (s.postFull 5 (bits v 6 2) .evq 0 (bits v 0 5) s.now s.qualSum
      (s.rd (Reg.evqPostW 0)) (s.rd (Reg.evqPostW 1)) (s.rd (Reg.evqPostW 2)) (s.rd (Reg.evqPostW 3)))) ∧
    (bit v 8 = false → Machine.exec (.postCmd v) s = .next s)) ∧
  (∀ (s : State) (c : Fin 8) (v : Word),
    (∃ t, Machine.exec (.dcRunWrite c v) s = .next t ∧ t.rd (Reg.dmaDcCtrl c) = w32 (b2n (bit v 0)) ∧
      (bit v 0 = true → t.flag (Reg.dmaDcStatus c) 31 = false) ∧
      (bit v 1 = true → t.rd (Reg.dmaDcHead c) = 0 ∧ t.rd (Reg.dmaDcTail c) = 0 ∧ t.dmaCh c = DmaSt.init)) ∧
    (∃ t, Machine.exec (.dcTailWrite c v) s = .next t ∧ t.rd (Reg.dmaDcTail c) = v &&& 0xFFF#32) ∧
    (∃ t, Machine.exec (.dcReset c) s = .next t ∧ t.rd (Reg.dmaDcCtrl c) = 0 ∧ t.rd (Reg.dmaDcHead c) = 0 ∧
      t.rd (Reg.dmaDcTail c) = 0 ∧ t.dmaCh c = DmaSt.init)) ∧
  (∀ (s : State) (c : Fin 8) (fetched : HostCpl), s.flag (Reg.dmaDcCtrl c) 0 = true → (s.dmaCh c).desc = none →
    s.dmaHead c ≠ s.dmaTail c → (s.dmaCh c).writes = [] →
    let a := s.descAddr c (s.dmaHead c)
    ∃ t, Machine.exec (.dmaDescriptorExecute c fetched) s = .next t ∧
      (s.ringInHost c = false → s.inMemory a 32 = false → (t.dmaCh c).fail = some (1, a)) ∧
      (s.ringInHost c = true → fetched = .failed → (t.dmaCh c).fail = some (9, a)) ∧
      (∀ b, (s.ringInHost c = false ∧ s.inMemory a 32 = true ∧ b = s.memTake a 32) ∨ (s.ringInHost c = true ∧ fetched = .data b) →
        (t.dmaCh c).desc = some ((upFrom 0 6).map fun i => w32 (bytesNat ((b.drop (4 * i)).take 4))) ∧
        ((t.dmaCh c).length = 0 → (t.dmaCh c).fail = some (0xB, 0)))) ∧
  (∀ (s : State) (c : Fin 8), let d := s.dmaCh c
    d.desc.isSome = true → d.writes = [] →
    (d.fail = none → d.length ≤ d.wrote → ∃ t, Machine.exec (.dmaDescriptorComplete c) s = .next t ∧ t.dmaCh c = DmaSt.init ∧
      t.rd (Reg.dmaDcHead c) = w32 ((s.dmaHead c + 1) % s.dmaRing c) ∧ (bit (d.w 0) 31 = true → t.Raised 0x25 c)) ∧
    (∀ status addr, d.fail = some (status, addr) → (∀ r ∈ d.reads, r.data.isSome = true) →
      ∃ t, Machine.exec (.dmaDescriptorComplete c) s = .next t ∧ t.dmaCh c = DmaSt.init ∧ t.rd (Reg.dmaDcCtrl c) = 0 ∧
        t.rd (Reg.dmaDcStatus c) = w32 (at_ 31 1 + status) ∧ t.rd (Reg.dmaDcHead c) = s.rd (Reg.dmaDcHead c) ∧
        t.Raised 0x25 (8 + c)))

/-- The interrupt controller (R421–R423, R426–R429, R435–R437): a claim takes the eligible source of highest priority, pushes its ID and
the threshold and raises the threshold; a complete undoes the latest claim; sources are configured, set by software, fired by IPI and
timers, and held off for HOLDOFF × 100 ns, by the agents that may. -/
def Obligations.TheInterruptControllerClaimsAndCompletes : Prop :=
  (∀ (s : State) (k : Fin 6) (a : Agent),
    (mayClaim a k = false → Machine.exec (.icuClaim k a) s = .next (s.answered 0) ∧
      ∀ v, Machine.exec (.icuComplete k a v) s = .next s) ∧
    (mayClaim a k = true → let b := s.bestSource k
      ∃ t, Machine.exec (.icuClaim k a) s = .next t ∧
      (b.2 = 0 → t.reply = ⟨0, wordBytes 0⟩ ∧ t.icu = s.icu ∧ t.rd (cntSpurious k) = satInc (s.rd (cntSpurious k))) ∧
      (b.2 ≠ 0 → 8 ≤ (s.nest k).length → t.reply = ⟨0, wordBytes 0⟩ ∧ t.nest k = s.nest k ∧
        t.rd (cntStackFull k) = satInc (s.rd (cntStackFull k)) ∧ setHas t.icu.full k = true) ∧
      (b.2 ≠ 0 → (s.nest k).length < 8 → t.reply = ⟨0, wordBytes (w32 (at_ 16 b.2 + b.1))⟩ ∧
        t.nest k = s.nest k ++ [(b.1, s.fld (thresholdKey k) 0 4)] ∧ t.rd (thresholdKey k) = w32 b.2 ∧
        (b.1 < 480 → setHas t.icu.pend b.1 = false) ∧
        (480 ≤ b.1 → setHas t.icu.priv (32 * k + (b.1 - 480)) = false))) ∧
    (mayClaim a k = true → ∀ v, ∃ t, Machine.exec (.icuComplete k a v) s = .next t ∧
      (s.nest k = [] → t.nest k = [] ∧ t.rd (cntMismatch k) = satInc (s.rd (cntMismatch k)) ∧
        t.rd (thresholdKey k) = s.rd (thresholdKey k)) ∧
      (∀ l id old, s.nest k = l ++ [(id, old)] → t.nest k = l ∧ t.rd (thresholdKey k) = w32 old ∧
        (id = bits v 0 9 → setHas t.icu.mismatch k = false ∧ setHas t.icu.full k = false) ∧
        (id ≠ bits v 0 9 → setHas t.icu.mismatch k = true ∧ t.rd (cntMismatch k) = satInc (s.rd (cntMismatch k))))) ∧
    (∀ v, ∃ t, Machine.exec (.thresholdWrite k a v) s = .next t ∧
      (mayConfigure a k = true → t.rd (thresholdKey k) = w32 (bits v 0 4) ∧ t.nest k = s.nest k) ∧
      (mayConfigure a k = false → t = s))) ∧
  (∀ (s : State) (k : Fin 6) (a : Agent) (v : Word),
    (k.val = 5 → ∃ t, Machine.exec (.swset k a v) s = .next t ∧
      let id := bits v 0 9
      let refused := a ≠ .steward ∧ s.fld (Reg.icuSrcCfg id) 8 3 = 0
      (id = 0 ∨ 448 < id → t = s) ∧
      (1 ≤ id → id ≤ 448 → refused → t = s.bump Reg.icuCntRefused) ∧
      (1 ≤ id → id ≤ 448 → ¬refused → t = s.icuPend id)) ∧
    (k.val ≠ 5 → Machine.exec (.swset k a v) s = .next (if mayConfigure a k then s.icuPrivate k (bits v 0 5) else s))) ∧
  (∀ (s : State) (i : Fin 448) (a : Agent) (v : Word), let old := s.rd (Reg.icuSrcCfg (i + 1))
    ∃ t, Machine.exec (.srcCfgWrite i a v) s = .next t ∧
      (a ≠ .steward → bits old 8 3 = 0 ∨ bits v 8 3 = 0 → t = s.bump Reg.icuCntRefused) ∧
      (a = .steward ∨ (bits old 8 3 ≠ 0 ∧ bits v 8 3 ≠ 0) →
        t.rd (Reg.icuSrcCfg (i + 1)) = v &&& (if i.val + 1 ≤ 208 then 0x8000070F#32 else 0x801F070F#32))) ∧
  (∀ (s : State) (k : Fin 5) (a : Agent) (v : Word),
    (∀ j : Fin 32, Machine.exec (.privCfgWrite k j a v) s =
      .next (if mayConfigure a k then s.wr (Reg.icupPrivCfg k j) (v &&& 0x801F000F#32) else s)) ∧
    (Machine.exec (.ipi k a v) s = .next (if bit v 0 then s.icuPrivate k (ipiSource a) else s)) ∧
    (∀ j : Fin 4, ∃ t, Machine.exec (.tmrWrite k j a v) s = .next t ∧ (mayConfigure a k = false → t = s) ∧
      (mayConfigure a k = true → t.rd (Reg.icupTmr k j) = v &&& 0xC0FFFFFF#32 ∧
        Tab.get none t.icu.timers (4 * k + j) = (if bit v 31 then some ⟨reloadOf v, 0⟩ else none)))) ∧
  (∀ (s : State) (k : Fin 5) (j : Fin 4) (x : TimerSt), Tab.get none s.icu.timers (4 * k + j) = some x → x.count = 0 →
    ∃ t, Machine.exec (.timerExpiry k j) s = .next t ∧ setHas t.icu.priv (32 * k + j) = true ∧
      (s.flag (Reg.icupTmr k j) 30 = true →
        Tab.get none t.icu.timers (4 * k + j) = some ⟨reloadOf (s.rd (Reg.icupTmr k j)), 0⟩) ∧
      (s.flag (Reg.icupTmr k j) 30 = false →
        Tab.get none t.icu.timers (4 * k + j) = none ∧ t.flag (Reg.icupTmr k j) 31 = false)) ∧
  (∀ (s : State) (g : Fin 32), s.passed (Tab.get 0 s.icu.holdAt g) (5 * s.fld (Reg.icuHoldoff g) 0 16 / 2) = true →
    ∃ t, Machine.exec (.holdoffEnd g) s = .next t ∧ setHas t.icu.holding g = false)

/-- Application pairs, watchdogs and ECC (R440, R444–R446): a miscompare or an expired watchdog halts its pair, counts and latches its
fault; a halted pair restarts and a fault is forgotten after its time; the scrubber's findings act as their memory says; records of a
memory are spaced. Where the condition of a command that reports an event does not hold, the state stays as it is: the model's choice (log
entry 1). -/
def Obligations.PairsWatchdogsAndScrubbingAct : Prop :=
  (∀ (s : State) (n : Fin 4) (pc : Word) (output : Fin 4),
    (s.pairHalted (n.val + 1) = true → Machine.exec (.lockstepMiscompare n pc output) s = .next s) ∧
    (s.pairHalted (n.val + 1) = false → s.inTrial = false →
      ∃ t, Machine.exec (.lockstepMiscompare n pc output) s = .next t ∧ t.pairHalted (n.val + 1) = true ∧ t.Raised 0x06 0 ∧
        t.flag Reg.stwLockstep n = true ∧ t.flag Reg.leaseFault 0 = true ∧ (t.core (n.val + 1)).haltedAt = some s.tclks ∧
        t.rd Reg.stwCntMiscompare = satInc (s.rd Reg.stwCntMiscompare))) ∧
  (∀ (s : State) (n : Fin 4) (since : Nat), s.inTrial = false → (s.core (n.val + 1)).haltedAt = some since →
    s.flag Reg.stwCfg 0 = true → (s.core (n.val + 1)).faults.length < 3 → 2500000 ≤ s.tclks - since → setHas s.clk.unlocked 1 = false →
    ∃ t, Machine.exec (.pairAutoRestart n) s = .next t ∧ t.pairHalted (n.val + 1) = false ∧ t.flag Reg.stwLockstep n = false ∧
      (t.core (n.val + 1)).haltedAt = none ∧ (t.core (n.val + 1)).runAt = some s.tclks) ∧
  (∀ (s : State) (n : Fin 4) (since b : Nat), (s.core (n.val + 1)).runAt = some since → 250000000 ≤ s.tclks - since →
    s.pairHalted (n.val + 1) = false → b ∈ (s.core (n.val + 1)).faultBits → s.faultBitFree (n.val + 1) b = true →
    ∃ t, Machine.exec (.lockstepFaultForget n) s = .next t ∧ t.flag Reg.leaseFault b = false) ∧
  (∀ (s : State) (n : Fin 5) (since : Nat) (pc : Word), (s.core n).wdt = some since →
    (∃ t, Machine.exec (.watchdogKick n 0xA5#32 pc) s = .next t ∧ (t.core n).warned = false ∧
      (t.core n).wdt = if s.flag (Reg.stwWdtCfg n) 31 then some s.tclks else none) ∧
    (∀ v, v ≠ 0xA5#32 → Machine.exec (.watchdogKick n v pc) s = .next (s.wdtExpire n pc)) ∧
    (s.wdtTimeout n * 25 ≤ s.tclks - since → Machine.exec (.watchdogExpiry n pc) s = .next (s.wdtExpire n pc)) ∧
    (s.tclks - since < s.wdtTimeout n * 25 → Machine.exec (.watchdogExpiry n pc) s = .next s) ∧
    (s.wdtTimeout n * 25 ≤ 2 * (s.tclks - since) → (s.core n).warned = false →
      ∃ t, Machine.exec (.watchdogWarning n) s = .next t ∧ (t.core n).warned = true ∧ setHas t.icu.priv (32 * n + 4) = true)) ∧
  (∀ (s : State) (n : Nat) (pc : Word), 1 ≤ n → n ≤ 4 → s.inTrial = false →
    let t := s.wdtExpire n pc
    t.pairHalted n = true ∧ t.flag Reg.leaseFault 4 = true ∧ t.Raised 0x06 1 ∧
      t.rd Reg.stwCntWatchdog = satInc (s.rd Reg.stwCntWatchdog)) ∧
  (∀ (s : State) (m : ScrubMem), Machine.exec (.memoryScrub m .clean) s = .next s) ∧
  (∀ (s : State) (a y : Word),
    (∀ n, ∃ t, Machine.exec (.memoryScrub (.drill n) (.uncorrectable a y)) s = .next t ∧ t.drill = Tab.drop s.drill n ∧
      t.flag Reg.leaseFault 1 = true) ∧
    (∀ n, ∃ t, Machine.exec (.memoryScrub (.rule n) (.uncorrectable a y)) s = .next t ∧ (t.rule n).armed = false ∧
      (t.rule n).eccBar = true ∧ t.Raised 0x14 1 ∧ t.flag Reg.leaseFault 1 = true) ∧
    (Machine.exec (.memoryScrub .steward (.uncorrectable a y)) s =
      .next ((s.eccNote true 0x06 0 true a y).leaseFault 1).keeperReboot) ∧
    (∀ p k, Machine.exec (.memoryScrub (.page p k) (.corrected a y)) s = .next (s.eccNote true p k false a y))) ∧
  (∀ (s : State) (page : Fin 256) (mem : Fin 16) (uncorr : Bool), let e := Tab.get EccSt.init s.ecc (eccKey page mem uncorr)
    (s.spaced e.last = false → 0 < e.count →
      Machine.exec (.eccReportRepost page mem uncorr) s = .next (s.eccPost page mem uncorr)) ∧
    (s.spaced e.last = true → Machine.exec (.eccReportRepost page mem uncorr) s = .next s)) ∧
  (∀ (s : State) (v : Word),
    (∃ t, Machine.exec (.coreCtrlReset v) s = .next t ∧ ∀ n, 1 ≤ n → n ≤ 4 →
      t.pairHalted n = (s.pairHalted n || bit v (7 + n))) ∧
    (∃ t, Machine.exec (.coreCtrlRun v) s = .next t ∧ ∀ n, 1 ≤ n → n ≤ 4 →
      t.pairHalted n = (s.pairHalted n && !bit v (n - 1)) ∧
      t.flag Reg.stwLockstep (n - 1) = (s.flag Reg.stwLockstep (n - 1) && !bit v (n - 1))))

/-- The start of the node, trials and the steward's services (R456–R461, R538): a service slot with GO set is answered with its status;
COMMIT, STAGE, MIGRATE_COMMIT, records and REBOOT act as they say; a start without a keeper image that verifies waits in BOOT_FAIL. Where
the condition of a command that reports an event does not hold, the state stays as it is: the model's choice (log entry 1). -/
def Obligations.TheNodeStartsAndServesItsSlots : Prop :=
  (∀ (s : State) (octal : Bool), s.canStart_ = false → Machine.exec (.nodeStart octal) s = .next s) ∧
  (∀ (s : State) (octal : Bool), s.canStart_ = true →
    let awake : State := if s.power = .held then s.hubRelease else { s with power := .active }
    let u := (((upFrom 0 4).foldl State.linkBegin awake).wdtStart 0).readFlash octal
    let k := (u.trialStep 1).2.loadImage 1 fun r => decide (r.ty = 1)
    ∃ t, Machine.exec (.nodeStart octal) s = .next t ∧
      ((u.trialStep 1).1 = true → t = (u.trialStep 1).2) ∧
      ((u.trialStep 1).1 = false → k.1 = none → t.fld Reg.stwStatus 0 4 = 15 ∧ t.boot.started = false) ∧
      (∀ im, (u.trialStep 1).1 = false → k.1 = some im →
        let v := (((k.2.setFld Reg.bootAo 0 1 0).wr Reg.bootKeeperVersion im.version).setPhase 1).startField
        (v.fld Reg.stwStatus 0 4 = 0 → t = v) ∧
        (v.fld Reg.stwStatus 0 4 ≠ 0 → t.boot.started = true ∧ t.rd (Reg.ospiProt 3) = 0))) ∧
  (∀ (s : State) (slot : Fin 5) (op : Nat), s.boot.started = true → bit (s.svcWord slot 0) 31 = true →
    bits (s.svcWord slot 0) 0 8 = op →
    let kind := (s.svcWord slot 2).toNat
    let answer (t : State) (status : Nat) : Prop := t.svcWord slot 0 = w32 (at_ 30 1 + at_ 16 status + op)
    (op = 1 → ∃ t, Machine.exec (.svcCommit slot) s = .next t ∧
      (kind = 1 → s.onTrial 1 = true → answer t 0 ∧ t.boot = s.passKeeper.boot ∧ t.flash = s.passKeeper.flash) ∧
      (kind = 1 → s.onTrial 1 = false → answer t 1 ∧ t.flash = s.flash) ∧
      (kind = 2 → s.onTrial 2 = true ∨ s.onTrial 1 = true →
        answer t 0 ∧ t.boot = s.commitField.boot ∧ t.flash = s.commitField.flash) ∧
      (kind = 2 → s.onTrial 2 = false → s.onTrial 1 = false → answer t 1 ∧ t.flash = s.flash) ∧
      (kind ≠ 1 → kind ≠ 2 → answer t 2 ∧ t.flash = s.flash)) ∧
    (op = 2 → ∃ t, Machine.exec (.svcMigrateCommit slot) s = .next t ∧ t.flash = s.migrateCommit.2.flash ∧
      (s.onTrial 2 = true ∨ s.bcb.1.pending = false → answer t 1) ∧ (s.onTrial 2 = false → s.bcb.1.pending = true → answer t 0)) ∧
    (op = 3 → ∃ t, Machine.exec (.stage slot) s = .next t ∧ (kind ≠ 1 → kind ≠ 2 → answer t 2 ∧ t.flash = s.flash) ∧
      (kind = 1 ∨ kind = 2 →
        (s.bcb.1.stateOf kind = 1 → answer t 1 ∧ t.flash = s.flash) ∧
        (s.bcb.1.stateOf kind ≠ 1 → ∀ im, s.verify kind (1 - s.bcb.1.slotOf kind) = .ok im → answer t 0) ∧
        (s.bcb.1.stateOf kind ≠ 1 → ∀ e, s.verify kind (1 - s.bcb.1.slotOf kind) = .error e → answer t 4))) ∧
    (op = 4 → Machine.exec (.svcReboot slot) s = .next (s.serve slot 4 fun s => (0, s)).keeperReboot) ∧
    (op = 5 → ∃ t, Machine.exec (.readRecord slot) s = .next t ∧ t.flash = s.flash ∧
      (∀ e, s.areaRecs s.bcb.1.area = .error e → answer t 2) ∧
      (∀ r l, s.areaRecs s.bcb.1.area = .ok r → recBytes kind r.2 = some l → kind < r.1.length →
        let d := (l.drop (s.svcWord slot 3).toNat).take 232
        answer t 0 ∧ t.memTake (svcAddr slot + 24) d.length = d)) ∧
    (op = 6 → let off := (s.svcWord slot 3).toNat
      ∃ t, Machine.exec (.writeRecord slot) s = .next t ∧
      (128 * 4088 < 32 + off + 232 → answer t 2 ∧ t.boot = s.boot) ∧
      (32 + off + 232 ≤ 128 * 4088 → answer t 0 ∧ (s.boot.pendOpen = true → t.boot.pendOpen = true) ∧
        ∀ i, i < 232 → some (Tab.get 0xFF t.boot.pend (off + i)) = (s.memTake (svcAddr slot + 24) 232)[i]?)) ∧
    (op = 7 → ∃ t, Machine.exec (.migrateDone slot) s = .next t ∧ (s.boot.pendOpen = true → answer t 0) ∧
      (s.boot.pendOpen = false → answer t 1 ∧ t.flash = s.flash))) ∧
  (∀ (s : State),
    (∃ t, Machine.exec .bootCommitField s = .next t ∧ t.boot.fieldPassed = true ∧ t.boot.trialAt = none ∧
      (s.onTrial 1 = false → s.bcb.1.kState ≠ 1 → t.onTrial 2 = false)) ∧
    (∃ t, Machine.exec .bootCommitKeeper s = .next t ∧ t.boot.keeperPassed = true ∧
      (s.onTrial 1 = true → s.boot.fieldPassed = true → t.onTrial 1 = false) ∧
      (s.boot.fieldPassed = false → t.onTrial 1 = s.onTrial 1)) ∧
    (∃ t, Machine.exec .bootMigrateCommit s = .next t ∧ (s.onTrial 2 = true ∨ s.bcb.1.pending = false → t = s) ∧
      (s.onTrial 2 = false → s.bcb.1.pending = true → t.flag Reg.bootStatus 7 = false))) ∧
  (∀ (s : State) (since : Nat), s.boot.trialAt = some since → s.onTrial 2 = true → 25000000 * s.trialLimit ≤ s.tclks - since →
    Machine.exec .trialTimeLimit s = .next (s.revert 2 3))

/-- The OSPI and SEC mailboxes (R462–R464, R466): flash is read, programmed and erased but for protected ranges, SFDP is read, fuses are
blown only with the check value and in range, and hashes and signatures are computed from the buffer. -/
def Obligations.FlashAndSecurityCommandsAct : Prop :=
  (∀ (s : State) (fail : Bool), s.mbxBusy 0x0A = false →
    (∃ t, Machine.exec (.ospiRead fail) s = .next t ∧ t.flash = s.flash ∧ (fail = true → t.Job 0x0A 2 none none none none) ∧
      (fail = false → t.Job 0x0A 0 none none none none ∧
        ∀ i, i < s.ospiLen → t.bufByte (Reg.ospiBuffer 0) i = s.flashGet (s.ospiAddr + i))) ∧
    (∃ t, Machine.exec (.readSfdp fail) s = .next t ∧ t.flash = s.flash ∧ (fail = true → t.Job 0x0A 2 none none none none) ∧
      (fail = false → t.Job 0x0A 0 none none none none ∧
        ∀ i, i < s.ospiLen → t.bufByte (Reg.ospiBuffer 0) i = Config.sfdp (s.ospiAddr + i))) ∧
    (let barred := s.ospiLen ≠ 0 ∧ s.flashProtected s.ospiAddr s.ospiLen = true
    ∃ t, Machine.exec (.program fail) s = .next t ∧ (fail = true → t.Job 0x0A 2 none none none none ∧ t.flash = s.flash) ∧
      (fail = false → barred → t.Job 0x0A 1 none none none none ∧ t.flash = s.flash) ∧
      (fail = false → ¬barred → t.Job 0x0A 0 none none none none ∧
        ∀ i, i < s.ospiLen → t.flashGet (s.ospiAddr + i) = s.bufByte (Reg.ospiBuffer 0) i)) ∧
    (∃ t, Machine.exec (.erase4k fail) s = .next t ∧ (fail = true → t.Job 0x0A 2 none none none none ∧ t.flash = s.flash) ∧
      (let a := s.ospiAddr - s.ospiAddr % 4096
      (fail = false → s.flashProtected a 4096 = true → t.Job 0x0A 1 none none none none ∧ t.flash = s.flash) ∧
      (fail = false → s.flashProtected a 4096 = false → t.Job 0x0A 0 none none none none ∧
        ∀ k, t.flashGet k = if a ≤ k ∧ k < a + 4096 then 0xFF else s.flashGet k))) ∧
    (∃ t, Machine.exec (.erase64k fail) s = .next t ∧ (fail = true → t.Job 0x0A 2 none none none none ∧ t.flash = s.flash) ∧
      (let a := s.ospiAddr - s.ospiAddr % 65536
      (fail = false → s.flashProtected a 65536 = true → t.Job 0x0A 1 none none none none ∧ t.flash = s.flash) ∧
      (fail = false → s.flashProtected a 65536 = false → t.Job 0x0A 0 none none none none ∧
        ∀ k, t.flashGet k = if a ≤ k ∧ k < a + 65536 then 0xFF else s.flashGet k)))) ∧
  (∀ (s : State) (n : Fin 4) (a : Agent) (v : Word),
    Machine.exec (.protWrite n a v) s = .next (if a = .steward then s.wrShown 0x0A (0x060 + 4 * n) (v &&& 0x8FFF0FFF#32) else s)) ∧
  (∀ (s : State) (arg : BitVec 16) (otpFail : Bool), s.mbxBusy 0x09 = false →
    let key := s.mbxD 0x09 0 = w32 arg.toNat ^^^ 0xA5A5A5A5#32
    (∃ t, Machine.exec (.revoke arg otpFail) s = .next t ∧
      (¬key → t.Job 0x09 1 none none none none ∧ t.otp = s.otp) ∧
      (key → 8 ≤ arg.toNat → t.Job 0x09 2 none none none none ∧ t.otp = s.otp) ∧
      (key → arg.toNat < 8 → otpFail = true → t.Job 0x09 3 none none none none ∧ t.otp = s.otp) ∧
      (key → arg.toNat < 8 → otpFail = false → t.Job 0x09 0 none none none none ∧
        t.otp = { s.otp with revoked := s.otp.revoked ||| BitVec.ofNat 8 (2 ^ arg.toNat) })) ∧
    (let inRange := 1 ≤ arg.toNat ∧ arg.toNat ≤ 64 ∧ s.otp.rollback ≤ arg.toNat
    ∃ t, Machine.exec (.advance arg otpFail) s = .next t ∧
      (¬key → t.Job 0x09 1 none none none none ∧ t.otp = s.otp) ∧
      (key → ¬inRange → t.Job 0x09 2 none none none none ∧ t.otp = s.otp) ∧
      (key → inRange → otpFail = true → t.Job 0x09 3 none none none none ∧ t.otp = s.otp) ∧
      (key → inRange → otpFail = false → t.Job 0x09 0 (some (w32 arg.toNat)) none none none ∧
        t.otp = { s.otp with rollback := arg.toNat })) ∧
    (∃ t, Machine.exec (.blowFuse arg otpFail) s = .next t ∧
      (¬key → t.Job 0x09 1 none none none none ∧ t.otp = s.otp) ∧
      (key → 3 ≤ arg.toNat → t.Job 0x09 2 none none none none ∧ t.otp = s.otp) ∧
      (key → arg.toNat < 3 → otpFail = true → t.Job 0x09 3 none none none none ∧ t.otp = s.otp) ∧
      (key → arg.toNat < 3 → otpFail = false → t.Job 0x09 0 none none none none ∧
        t.otp = { s.otp with fuses := s.otp.fuses ||| BitVec.ofNat 3 (2 ^ arg.toNat) })) ∧
    (∃ t, Machine.exec .shaInit s = .next t ∧ t.sha = [] ∧ t.Job 0x09 0 none none none none) ∧
    (∃ t, Machine.exec (.shaUpdate arg) s = .next t ∧ t.Job 0x09 0 none none none none ∧
      t.sha = s.sha ++ s.bufTake (Reg.secBuffer 0) 0 (capAt 256 arg.toNat)) ∧
    (∃ t, Machine.exec .shaFinal s = .next t ∧ t.Job 0x09 0 none none none none ∧ t.sha = s.sha ∧
      ∀ i b, i < 256 → (sha384 s.sha)[i]? = some b → t.bufByte (Reg.secBuffer 0) i = b) ∧
    (∃ t, Machine.exec .verify s = .next t ∧
      t.Job 0x09 0 (some (if ecdsaValid (s.secNumber 0) (s.secNumber 0x30) (s.secNumber 0x60) (s.secNumber 0x90) (s.secNumber 0xC0)
        then 0 else 1)) none none none))

/-- The power path (R468–R482): feeds are marked, turned off and returned to use; each after its time; seating starts and ends the stage;
RAMPING and ON are entered on their conditions; a fault turns the gate and every rail off and leads to another attempt or to LATCHED; the
thermal model and the sensor are followed; the commands and the dying gasp act. Where the condition of a command that reports an event
does not hold, the state stays as it is: the model's choice (log entry 1). -/
def Obligations.ThePowerPathStartsFaultsAndGasps : Prop :=
  (∀ (s : State) (b : Bool) (mv vbus : BitVec 16), ∃ t, Machine.exec (.feedVoltageChange b mv vbus) s = .next t ∧
    (t.feed b).mv = mv.toNat ∧
    (s.feedOv < mv.toNat → (s.feed b).mark ≠ 2 → (t.feed b).mark = 2 ∧ (t.feed b).gate = false ∧
      t.rd (feedCounter b) = satInc (s.rd (feedCounter b))) ∧
    (mv.toNat ≤ s.feedOv → (s.feed b).reverse = true → vbus.toNat + s.fld Reg.pwrIdeal 0 6 ≤ mv.toNat →
      (t.feed b).reverse = false ∧ (t.feed b).gate = decide ((s.feed b).mark = 0))) ∧
  (∀ (s : State) (b : Bool),
    ((s.feed b).mark ≠ 1 → s.ran (s.feed b).lowAt (usTclks 10) = true → ∃ t, Machine.exec (.feedUvMark b) s = .next t ∧ (t.feed b).mark = 1 ∧
      (t.feed b).gate = false ∧ t.rd (feedCounter b) = satInc (s.rd (feedCounter b))) ∧
    ((s.feed b).mark ≠ 0 → s.ran (s.feed b).rangeAt (msTclks (atLeast1 (s.fld Reg.pwrFeedWin 16 8))) = true →
      ∃ t, Machine.exec (.feedSettleExpiry b) s = .next t ∧ (t.feed b).mark = 0 ∧ (t.feed b).gate = !(s.feed b).reverse ∧
        t.rd (feedCounter b) = satInc (s.rd (feedCounter b))) ∧
    (∀ diff : BitVec 16, (s.feed b).gate = true → s.flag Reg.pwrIdeal (16 + b2n b) = true → s.fld Reg.pwrIdeal 8 6 < diff.toNat →
      ∃ t, Machine.exec (.reverseCurrent b diff) s = .next t ∧ (t.feed b).gate = false ∧ (t.feed b).reverse = true ∧
        t.rd (reverseCounter b) = satInc (s.rd (reverseCounter b)))) ∧
  (∀ (s : State) (b asserted : Bool), (if b then s.pwr.seatB else s.pwr.seatA) ≠ asserted → ∃ t, Machine.exec (.seatPinChange b asserted) s = .next t ∧
    t.pwr.seatA = (if b then s.pwr.seatA else asserted) ∧ t.pwr.seatB = (if b then asserted else s.pwr.seatB) ∧
    (t.pwr.seatA = true → t.pwr.seatB = true → s.pwr.hs = 0 → t.pwr.hs = 1) ∧
    (t.pwr.seatA = false ∨ t.pwr.seatB = false → s.pwr.hs = 1 → t.pwr.hs = 0)) ∧
  (∀ (s : State), s.pwr.hs = 1 → s.pwr.seatA = true → s.pwr.seatB = true →
    s.passed (max s.pwr.seatAAt s.pwr.seatBAt) (msTclks s.debounceMs) = true → ∃ t, Machine.exec .seatDebounceComplete s = .next t ∧ t.pwr.hs = 2 ∧ t.pwr.seated = true ∧ t.pwr.retry = 0 ∧
      t.pwr.held = (s.pwr.held || !s.flag Reg.pwrHsCfg 31)) ∧
  (∀ (s : State), s.pwr.seated = true → s.seatLost = true →
    ∃ t, Machine.exec .seatReleaseTimeout s = .next t ∧ t.pwr.hs = 0 ∧ t.pwr.seated = false ∧ t.pwr.gate = false ∧
      (s.pwr.hs = 3 → t.pwr.en = 0) ∧ (s.pwr.hs = 4 → s.pwr.dying = false → t.pwr.unseatedOn = true) ∧
      t.rd Reg.pwrCntSeatLoss = satInc (s.rd Reg.pwrCntSeatLoss)) ∧
  (∀ (s : State), s.pwr.hs = 2 → s.pwr.timer = none → s.governT ≤ (s.fld Reg.pwrThLimits 16 8 : Rat) →
    s.pwr.feedA.mark = 0 ∨ s.pwr.feedB.mark = 0 → s.pwr.held = false → s.pwr.dying = false →
    Machine.exec .rampStart s = .next ((s.enterHs 3).setPwr fun p => { p with gate := true, nearAt := none, limAt := none })) ∧
  (∀ (s : State), s.pwr.hs = 3 → s.ran s.pwr.nearAt (msTclks 1) = true → ∃ t, Machine.exec .rampComplete s = .next t ∧ t.pwr.hs = 4 ∧
    ∀ r, r < 8 → t.railOn r = (s.railOn r || decide (r ∈ s.railStep false fun k => s.railUsed k && !s.railOn k))) ∧
  (∀ (s : State) (cause shunt : Nat), s.pwr.hs = 3 ∨ s.pwr.hs = 4 → let t := s.powFault cause shunt
    t.pwr.gate = false ∧ t.pwr.en = 0 ∧ t.pwr.retry = s.pwr.retry + 1 ∧ t.pwr.timer = some (s.retryTime, s.tclks) ∧
      t.pwr.hs = if s.pwr.retry + 1 ≤ s.fld Reg.pwrRetry 16 4 then 2 else 5) ∧
  (∀ (s : State) (shunt : Byte), s.limitedTooLong = true →
    Machine.exec (.limitTimeout shunt) s = .next (s.powFault 3 shunt.toNat)) ∧
  (∀ (s : State) (shunt : Byte) (vout : BitVec 16), s.stageAs = 3 ∨ s.stageAs = 4 →
    25 + 5 * s.fld Reg.pwrHsCfg 16 4 ≤ shunt.toNat →
    ∃ t, Machine.exec (.fastTrip shunt vout) s = .next t ∧ t.pwr.gate = false ∧ t.pwr.en = 0 ∧ t.pwr.retry = s.pwr.retry + 1 ∧
      (s.pwr.hs = 3 ∨ s.pwr.hs = 4 → t.pwr.hs = if s.pwr.retry + 1 ≤ s.fld Reg.pwrRetry 16 4 then 2 else 5) ∧
      (s.stageAs = 3 → t.rd Reg.pwrCntShortRamp = satInc (s.rd Reg.pwrCntShortRamp)) ∧
      (s.stageAs = 4 → t.rd Reg.pwrCntFastTrip = satInc (s.rd Reg.pwrCntFastTrip))) ∧
  (∀ (s : State) (vbus vout uv : BitVec 16), let w := (s.fetPower vbus.toNat vout.toNat uv.toNat).1
    let tau := if s.fld Reg.pwrThModel 16 16 = 0 then 1 else s.fld Reg.pwrThModel 16 16
    s.passed s.pwr.modelAt (usTclks 1) = true →
    ∃ t, Machine.exec (.thermalModelStep vbus vout uv) s = .next t ∧ t.pwr.modelAt = s.tclks ∧ t.pwr.vout = vout.toNat ∧ t.pwr.shunt = uv.toNat / 1000 ∧
      t.pwr.rise = s.pwr.rise + (w * ((s.fld Reg.pwrThModel 0 16 : Rat) / 100) - s.pwr.rise) / (100 * (tau : Rat))) ∧
  (∀ (s : State) (x : Int), let m := s.fld Reg.pwrTsCfg 0 2
    (m ≠ 1 → m ≠ 2 → Machine.exec (.tsMeasure x) s = .next s) ∧
    (m = 1 ∨ m = 2 → s.passed s.pwr.tsAt (usTclks 100) = true → ∃ t, Machine.exec (.tsMeasure x) s = .next t ∧ (-440 ≤ x → x ≤ 1600 → t.pwr.ts = some x) ∧
      (x < -440 ∨ 1600 < x → t.pwr.ts = none ∧ t.rd Reg.pwrCntTsFail = satInc (s.rd Reg.pwrCntTsFail)))) ∧
  (∀ (s : State),
    (∀ ms since, s.pwr.timer = some (ms, since) → s.passed since (msTclks ms) = true →
      ∃ t, Machine.exec .retryTimerExpiry s = .next t ∧ t.pwr = { s.pwr with timer := none }) ∧
    (s.pwr.hs = 4 → s.passed s.pwr.hsAt (msTclks (1000 * atLeast1 (s.fld Reg.pwrRetry 24 8))) = true →
      ∃ t, Machine.exec .retryForget s = .next t ∧ t.pwr = { s.pwr with retry := 0 }) ∧
    (∃ t, Machine.exec .pwrStart s = .next t ∧ t.pwr = { s.pwr with held := false }) ∧
    (∃ t, Machine.exec .pwrStop s = .next t ∧ t.pwr.held = true ∧
      (s.pwr.hs = 3 → t.pwr.hs = 2 ∧ t.pwr.gate = false ∧ t.pwr.en = 0) ∧ (s.pwr.hs = 4 → t.pwr.hs = 2 ∧ t.pwr.en = s.pwr.en) ∧
      (s.pwr.hs ≠ 3 → s.pwr.hs ≠ 4 → t.pwr.hs = s.pwr.hs)) ∧
    (∃ t, Machine.exec .unlatch s = .next t ∧ t.pwr.retry = 0 ∧ t.pwr.hs = if s.pwr.hs = 5 then 2 else s.pwr.hs)) ∧
  (∀ (s : State) (us : Byte), s.pwr.dying = false →
    let filter := usTclks (atLeast1 (s.fld Reg.pwrDyingCfg 0 8))
    s.pwr.unseatedOn = true ∨ (s.ran s.pwr.feedA.lowAt filter = true ∧ s.ran s.pwr.feedB.lowAt filter = true ∧ (s.pwr.hs = 3 ∨ s.pwr.hs = 4)) →
    ∃ t, Machine.exec (.dyingGaspDecision us) s = .next t ∧ t.pwr.dying = true ∧ t.pwr.unseatedOn = false ∧
      t.rd Reg.pwrCntDying = satInc (s.rd Reg.pwrCntDying) ∧
      (s.hubUp = true → t.net.quiet = some s.tclks ∧ t.lease.ownOut = false)) ∧
  (∀ (s : State), s.pwr.dying = true → s.passed s.pwr.dyingAt (msTclks 2) = true →
    ∃ t, Machine.exec .dyingGaspEnd s = .next t ∧ t.pwr.dying = false ∧ t.pwr.gate = false ∧
    t.pwr.hs = if s.pwr.hs = 3 ∨ s.pwr.hs = 4 then 2 else s.pwr.hs)

/-- Rails and the monitor ADC (R485, R486, R488, R489, R493): the next order step is enabled UP_DELAY (the longest of its rails: the
model's choice, log entry 87) after the rails that are enabled have been good, and disabled in the reverse order, DOWN_DELAY apart; a rail
that shows no power-good in time, or loses it, is a fault; enabled channels are converted in turn, and one outside its window for its
filter, or not inside it in time, fails its check. Where the condition of a command that reports an event does not hold, the state stays
as it is: the model's choice (log entry 1). -/
def Obligations.RailsAreSequencedAndMonitored : Prop :=
  (∀ (s : State), s.pwr.seq = 1 → s.ran s.pwr.goodAt (s.stepDelay 16 s.nextUp) = true →
    ∃ t, Machine.exec .railStepEnable s = .next t ∧
      ∀ r, r < 8 → t.railOn r = (s.railOn r || decide (r ∈ s.railStep false fun k => s.railUsed k && !s.railOn k))) ∧
  (∀ (s : State), s.pwr.seq = 3 →
    let stays (r : Nat) : Bool := decide (s.power = .dormant) && decide (s.pwr.hs = 4) && s.flag Reg.clkDormantCfg (8 + r)
    (s.pwr.downAt = none ∨ s.ran s.pwr.downAt (s.stepDelay 0 (s.railStep true fun r => s.railOn r && !stays r)) = true) →
    ∃ t, Machine.exec .railStepDisable s = .next t ∧
      (∀ r, r < 8 → t.railOn r = (s.railOn r && !decide (r ∈ s.railStep true fun k => s.railOn k && !stays k))) ∧
      (t.pwr.en = 0 → t.pwr.seq = 0)) ∧
  (∀ (s : State) (r : Fin 8) (level : Bool), ∃ t, Machine.exec (.railPgChange r level) s = .next t ∧
    t.pwr.pg.toNat.testBit r = level ∧ t.pwr.en = s.pwr.en) ∧
  (∀ (s : State) (r : Fin 8), s.railOn r = true →
    (setHas s.pwr.shown r = false → s.passed (Tab.get 0 s.pwr.enAt r) (msTclks (atLeast1 (s.fld (Reg.seqRail r) 8 8))) = true →
      ∃ t, Machine.exec (.pgTimeout r) s = .next t ∧ t.rd Reg.seqCntPgTimeout = satInc (s.rd Reg.seqCntPgTimeout) ∧
      t.pwr.en = 0 ∧ t.pwr.gate = false ∧ (s.hubUp = true → t.flag Reg.leaseFault 3 = true)) ∧
    (setHas s.pwr.shown r = true → s.ran (Tab.get none s.pwr.badAt r) (usTclks 10) = true →
      ∃ t, Machine.exec (.pgLost r) s = .next t ∧ t.rd Reg.seqCntPgLost = satInc (s.rd Reg.seqCntPgLost) ∧
      t.pwr.en = 0 ∧ t.pwr.gate = false ∧ (s.hubUp = true → t.flag Reg.leaseFault 3 = true))) ∧
  (∀ (s : State) (c : Fin 16) (code : BitVec 12),
    (s.adcNext ≠ some c ∨ s.adcDue = false → Machine.exec (.adcConversion c code) s = .next s) ∧
    (s.adcNext = some c → s.adcDue = true →
      let inside := decide (s.fld (Reg.adcChWin c) 0 12 ≤ code.toNat) && decide (code.toNat ≤ s.fld (Reg.adcChWin c) 16 12)
      ∃ t, Machine.exec (.adcConversion c code) s = .next t ∧ t.rd (Reg.adcChVal c) = w32 (at_ 31 (b2n inside) + code.toNat) ∧
        (inside = true → setHas t.pwr.reached c = true) ∧
        (inside = false → s.adcArmed c = true → s.fld (Reg.adcChCfg c) 24 4 + 1 ≤ capAt 16 (Tab.get 0 s.pwr.outs c + 1) →
          s.qualStands 0x05 0x0D01 c = false →
          t.rd (Reg.adcCntFail c) = satInc (s.rd (Reg.adcCntFail c)) ∧ (s.hubUp = true → t.flag Reg.leaseFault 3 = true) ∧
          (s.flag (Reg.adcChCfg c) 30 = true → t.pwr.gate = false ∧ t.pwr.en = 0)) ∧
        (inside = false → s.adcArmed c = false → t.rd (Reg.adcCntFail c) = s.rd (Reg.adcCntFail c)))) ∧
  (∀ (s : State) (c : Fin 16), s.flag (Reg.adcChCfg c) 31 = true → s.flag (Reg.adcChCfg c) 29 = false → s.adcArmed c = true →
    setHas s.pwr.reached c = false → s.qualStands 0x05 0x0D02 c = false →
    s.passed (Tab.get 0 s.pwr.enAt (s.fld (Reg.adcChCfg c) 16 3)) (msTclks (atLeast1 (s.fld (Reg.adcChCfg c) 0 16))) = true →
    ∃ t, Machine.exec (.adcArmTimeout c) s = .next t ∧
      t.rd (Reg.adcCntFail c) = satInc (s.rd (Reg.adcCntFail c)) ∧ (s.hubUp = true → t.flag Reg.leaseFault 3 = true))

/-- Reference clocks and PLLs (R496–R498, R501): TCLK and the system PLL hold the hub die in its reset while they fail; the others fail
their check and stop the blocks that they clock. Where the condition of a command that reports an event does not hold, the state stays as
it is: the model's choice (log entry 1). -/
def Obligations.ClockFailuresStopWhatTheyClock : Prop :=
  (∀ (s : State) (n : Fin 4) (hz : Word),
    (setHas s.clk.failed (n.val + 1) = true → Machine.exec (.clockMonitorFail n hz) s = .next s) ∧
    (setHas s.clk.failed (n.val + 1) = false → ∃ t, Machine.exec (.clockMonitorFail n hz) s = .next t ∧
      setHas t.clk.failed (n.val + 1) = true ∧
      (n.val = 0 → s.hubUp = true → t.power = .held ∧ t.clk.hold = some 5 ∧ t.rd Reg.rstLastCause = 5 ∧ t.lease.ownOut = false) ∧
      (n.val ≠ 0 → t.rd (clkCounter (n.val + 1)) = satInc (s.rd (clkCounter (n.val + 1)))) ∧
      (n.val = 2 → t.plk.lane0 = false ∧ t.plk.lane1 = false ∧
        ∀ p, p < 4 → (t.link p).blockLock = false ∧ t.portUp p = false) ∧
      (n.val = 3 → t.host.up = false))) ∧
  (∀ (s : State) (n : Fin 4) (hz : Word), setHas s.clk.failed (n.val + 1) = true → s.clkClearDue (n.val + 1) = true →
    ∃ t, Machine.exec (.clockMonitorClear n hz) s = .next t ∧ setHas t.clk.failed (n.val + 1) = false ∧
      (n.val = 0 → s.power = .held → s.clk.hold = some 5 → t.power = .active ∧ t.clk.hold = none ∧ t.time.quality = 0xF)) ∧
  (∀ (s : State) (p : Fin 5) (hz : Word),
    (setHas s.clk.unlocked p = true → Machine.exec (.pllLockLost p hz) s = .next s) ∧
    (setHas s.clk.unlocked p = false → ∃ t, Machine.exec (.pllLockLost p hz) s = .next t ∧ setHas t.clk.unlocked p = true ∧
      (p.val = 0 → s.hubUp = true → t.power = .held ∧ t.clk.hold = some 6 ∧ t.rd Reg.rstLastCause = 6) ∧
      (p.val ≠ 0 → t.rd Reg.clkCntPll = satInc (s.rd Reg.clkCntPll)) ∧
      (p.val = 1 → ∀ n, 1 ≤ n → n ≤ 4 → t.pairHalted n = true) ∧
      (p.val = 2 → t.flag (Reg.status 0x0B) 0 = false) ∧
      (p.val = 3 → t.plk.lane0 = false ∧ t.plk.lane1 = false ∧ ∀ k, k < 4 → t.portUp k = false) ∧
      (p.val = 4 → t.host.up = false))) ∧
  (∀ (s : State) (p : Fin 5) (hz : Word), setHas s.clk.unlocked p = true →
    ∃ t, Machine.exec (.pllRelock p hz) s = .next t ∧ setHas t.clk.unlocked p = false ∧
      (p.val = 0 → s.power = .held → s.clk.hold = some 6 → t.power = .active ∧ t.clk.hold = none ∧ t.time.quality = 0xF))

/-- Power states and resets (R493, R499–R504, R509): what the steward's STATE_REQ and the wake sources lead to, DORMANT being refused to a
node that holds or hands the lease; the DORMANT_WAKE reset is released once rails 0–4 are good; and each reset with its cause, flash and
OTP keeping their contents. The straps are sampled once, 1 ms after power. Where the condition of a command that reports an event does not
hold, the state stays as it is: the model's choice (log entry 1). -/
def Obligations.PowerStatesAndResetsFollowTheirCauses : Prop :=
  (∀ (s : State) (a : Agent), a ≠ .steward ∨ s.hubUp = false →
    Machine.exec (.stateReqActive a) s = .next s ∧ Machine.exec (.stateReqFallow a) s = .next s ∧
      Machine.exec (.stateReqDormant a) s = .next s) ∧
  (∀ (s : State), s.hubUp = true →
    (s.power = .fallow → ∃ t, Machine.exec (.stateReqActive .steward) s = .next t ∧ t.power = .active ∧ t.Raised 0x02 2) ∧
    (s.power = .active → ∃ t, Machine.exec (.stateReqFallow .steward) s = .next t ∧ t.power = .fallow ∧ t.net.spilling = false ∧
      t.Raised 0x02 2) ∧
    (s.lease.st = .holder ∨ s.lease.st = .handing → ∃ t, Machine.exec (.stateReqDormant .steward) s = .next t ∧
      t.clk.reqErr = true ∧ t.power = s.power ∧ t.lease = s.lease ∧ t.Raised 0x02 3) ∧
    (s.lease.st ≠ .holder → s.lease.st ≠ .handing → ∃ t, Machine.exec (.stateReqDormant .steward) s = .next t ∧
      t.clk.reqErr = false ∧ t.power = .dormant ∧ t.boot.started = false)) ∧
  (∀ (s : State) (access : Bool), s.power = .fallow → s.flag Reg.clkFallowCfg 0 = true →
    access = true ∨ (∃ k, 1 ≤ k ∧ k ≤ 4 ∧ s.targetRequest k = true) →
    ∃ t, Machine.exec (.fallowAutoWake access) s = .next t ∧ t.power = .active ∧ t.Raised 0x02 2) ∧
  (∀ (s : State) (w : WakeSource),
    (s.power = .dormant → s.wakes w = true → ∃ t, Machine.exec (.dormantWake w) s = .next t ∧
      (t.hubRailsGood = true ∨ t.railsElsewhere = true → t.power = .active ∧ t.clk.hold = none ∧ t.net.quiet = some s.tclks) ∧
      (t.hubRailsGood = false → t.railsElsewhere = false → t.power = .held ∧ t.clk.hold = some 7) ∧
      t.rd Reg.rstLastCause = 7 ∧ t.time.quality = 0xF ∧ t.time.unc = 65280) ∧
    (s.power ≠ .dormant ∨ s.wakes w = false → Machine.exec (.dormantWake w) s = .next s)) ∧
  (∀ (s : State),
    (∃ t, Machine.exec .aoPor s = .next t ∧ t.power = .held ∧ t.clk.hold = some 1 ∧ t.flash = s.flash ∧ t.otp = s.otp ∧
      t.regs = (State.powerOn 0).regs ∧ t.lease = LeaseSt.init ∧ t.mem = []) ∧
    (∃ t, Machine.exec .vddAoLoss s = .next t ∧ t.power = .off ∧ t.flash = s.flash ∧ t.otp = s.otp) ∧
    (s.power ≠ .off → s.power ≠ .dormant → s.hubRailsGood = false → ∃ t, Machine.exec .hubDiePowerLoss s = .next t ∧ t.power = .held ∧
      t.clk.hold = some 1 ∧ t.lease.ownOut = false ∧ t.pwr = s.pwr ∧ t.flash = s.flash) ∧
    (s.hubUp = true → ∃ t, Machine.exec .rstNAssert s = .next t ∧ t.power = .held ∧ t.clk.hold = some 2 ∧
      t.rd Reg.rstLastCause = 2 ∧ t.rd (Reg.rstCnt 2) = satInc (s.rd (Reg.rstCnt 2)) ∧ t.lease.ownOut = false) ∧
    (∀ a v, (a = .steward → bit v 0 = true → s.hubUp = true → ∃ t, Machine.exec (.reboot a v) s = .next t ∧ t.power = .active ∧
        t.rd Reg.rstLastCause = 4 ∧ t.rd (Reg.rstCnt 4) = satInc (s.rd (Reg.rstCnt 4)) ∧ t.boot.started = false ∧
        t.lease.ownOut = false) ∧
      (a ≠ .steward ∨ bit v 0 = false ∨ s.hubUp = false → Machine.exec (.reboot a v) s = .next s)) ∧
    (∀ v : Byte, s.clk.strapped = false → s.power ≠ .off → s.passed 0 (msTclks 1) = true →
      ∃ t, Machine.exec (.strapSample v) s = .next t ∧ t.rd Reg.ringStrap = w32 v.toNat ∧ t.clk = { s.clk with strapped := true }))
end

