-- ==== Sys2Proof/Laws/Tab.lean ====
section
/-! SUPPORT. The laws of sparse tables: a read after a write, and the canonical form kept by every operation. -/

namespace Sys2Proof.Machine

variable {α : Type} {d v : α} {t : Tab α} {j k : Nat}

@[simp] theorem Tab.get_put_same : Tab.get d (Tab.put t k v) k = v := by
  induction t with
  | nil => simp [Tab.put, Tab.get]
  | cons e t ih =>
    obtain ⟨i, u⟩ := e
    simp only [Tab.put]
    split
    · simp [Tab.get]
    · split
      · simp [Tab.get]
      · rename_i h; simp [Tab.get, h, ih]

theorem Tab.get_put_other (h : j ≠ k) : Tab.get d (Tab.put t k v) j = Tab.get d t j := by
  induction t with
  | nil => simp [Tab.put, Tab.get, h]
  | cons e t ih =>
    obtain ⟨i, u⟩ := e
    simp only [Tab.put]
    split
    · simp [Tab.get, h]
    · split
      · rename_i h2; subst h2; simp [Tab.get, h]
      · simp only [Tab.get, ih]

@[simp] theorem Tab.get_drop_same : Tab.get d (Tab.drop t k) k = d := by
  induction t with
  | nil => rfl
  | cons e t ih =>
    obtain ⟨i, u⟩ := e
    simp only [Tab.drop]
    split
    · exact ih
    · rename_i h; simp [Tab.get, h, ih]

theorem Tab.get_drop_other (h : j ≠ k) : Tab.get d (Tab.drop t k) j = Tab.get d t j := by
  induction t with
  | nil => rfl
  | cons e t ih =>
    obtain ⟨i, u⟩ := e
    simp only [Tab.drop]
    split
    · rename_i h2; subst h2; simp [Tab.get, h, ih]
    · simp only [Tab.get, ih]

@[simp] theorem Tab.get_set_same [DecidableEq α] : Tab.get d (Tab.set d t k v) k = v := by
  unfold Tab.set
  split
  · rename_i h; simp [h]
  · simp

/-- A read of an entry that a write of another key leaves, whatever the two keys' unlisted values are. -/
theorem Tab.get_set_ne [DecidableEq α] {e : α} (h : j ≠ k) : Tab.get e (Tab.set d t k v) j = Tab.get e t j := by
  unfold Tab.set
  split
  · exact Tab.get_drop_other h
  · exact Tab.get_put_other h

/-! ### The canonical form -/

theorem Tab.above_put (h : Tab.above j t = true) (hk : j < k) : Tab.above j (Tab.put t k v) = true := by
  induction t with
  | nil => simp [Tab.put, Tab.above, hk]
  | cons e t ih =>
    obtain ⟨i, u⟩ := e
    simp only [Tab.above, Bool.and_eq_true, decide_eq_true_eq] at h
    simp only [Tab.put]
    split
    · simp [Tab.above, hk, h.1, h.2]
    · split
      · simp [Tab.above, hk, h.2]
      · simp [Tab.above, h.1, ih h.2]

theorem Tab.above_drop (h : Tab.above j t = true) : Tab.above j (Tab.drop t k) = true := by
  induction t with
  | nil => rfl
  | cons e t ih =>
    obtain ⟨i, u⟩ := e
    simp only [Tab.above, Bool.and_eq_true, decide_eq_true_eq] at h
    simp only [Tab.drop]
    split
    · exact ih h.2
    · simp [Tab.above, h.1, ih h.2]

theorem Tab.above_mono (h : Tab.above k t = true) (hj : j < k) : Tab.above j t = true := by
  induction t with
  | nil => rfl
  | cons e t ih =>
    obtain ⟨i, u⟩ := e
    simp only [Tab.above, Bool.and_eq_true, decide_eq_true_eq] at h ⊢
    exact ⟨Nat.lt_trans hj h.1, ih h.2⟩

theorem Tab.wf_put [DecidableEq α] {f : Nat → α} (h : Tab.wf f t = true) (hv : v ≠ f k) : Tab.wf f (Tab.put t k v) = true := by
  induction t with
  | nil => simp [Tab.put, Tab.wf, Tab.above, hv]
  | cons e t ih =>
    obtain ⟨i, u⟩ := e
    simp only [Tab.wf, Bool.and_eq_true, decide_eq_true_eq] at h
    simp only [Tab.put]
    split
    · rename_i hk
      simp [Tab.wf, Tab.above, hv, hk, h.1.1, h.1.2, h.2, Tab.above_mono h.1.1 hk]
    · split
      · rename_i hk; subst hk; simp [Tab.wf, hv, h.1.1, h.2]
      · rename_i h1 h2
        have hik : i < k := by omega
        simp [Tab.wf, h.1.2, ih h.2, Tab.above_put h.1.1 hik]

theorem Tab.wf_drop [DecidableEq α] {f : Nat → α} (h : Tab.wf f t = true) : Tab.wf f (Tab.drop t k) = true := by
  induction t with
  | nil => rfl
  | cons e t ih =>
    obtain ⟨i, u⟩ := e
    simp only [Tab.wf, Bool.and_eq_true, decide_eq_true_eq] at h
    simp only [Tab.drop]
    split
    · exact ih h.2
    · simp [Tab.wf, h.1.2, ih h.2, Tab.above_drop h.1.1]

/-- A write keeps the canonical form. -/
theorem Tab.wf_set [DecidableEq α] (h : Tab.wf (fun _ => d) t = true) : Tab.wf (fun _ => d) (Tab.set d t k v) = true := by
  unfold Tab.set
  split
  · exact Tab.wf_drop h
  · rename_i hv; exact Tab.wf_put h hv

end Sys2Proof.Machine
end

