-- ==== Sys2Proof/Laws/State.lean ====
section
/-! SUPPORT. The small laws of the state: what each update of one field gives back for that field and for every other, and the laws
of registers, memory and the tables of cells. -/

namespace Sys2Proof.Machine

/-! Registers and memory. -/

@[simp] theorem State.rd_wr_same (s : State) (k : Nat) (v : Word) : (s.wr k v).rd k = v := Tab.get_set_same
theorem State.rd_wr_ne (s : State) (v : Word) {j k : Nat} (h : j ≠ k) : (s.wr k v).rd j = s.rd j := Tab.get_set_ne h
theorem State.rd_setFld_ne (s : State) (lo w v : Nat) {j k : Nat} (h : j ≠ k) : (s.setFld k lo w v).rd j = s.rd j := Tab.get_set_ne h
theorem State.rd_bump_ne (s : State) {j k : Nat} (h : j ≠ k) : (s.bump k).rd j = s.rd j := Tab.get_set_ne h
@[simp] theorem State.rd_bump_same (s : State) (k : Nat) : (s.bump k).rd k = satInc (s.rd k) := Tab.get_set_same
@[simp] theorem State.rd_setFld_same (s : State) (k lo w v : Nat) : (s.setFld k lo w v).rd k = setBits (s.rd k) lo w v :=
  Tab.get_set_same
@[simp] theorem State.memGet_memSet_same (s : State) (a : Nat) (b : Byte) : (s.memSet a b).memGet a = b := Tab.get_set_same
theorem State.memGet_memSet_ne (s : State) (b : Byte) {a c : Nat} (h : c ≠ a) : (s.memSet a b).memGet c = s.memGet c :=
  Tab.get_set_ne h
/-- A store of one byte keeps the canonical form of the memory. -/
theorem State.memSet_wf (s : State) (a : Nat) (b : Byte) (h : Memory.wf s.mem = true) : Memory.wf (s.memSet a b).mem = true :=
  Tab.wf_set h
/-- A store of several bytes keeps it too. -/
theorem State.memPut_wf (s : State) (a : Nat) (l : List Byte) (h : Memory.wf s.mem = true) : Memory.wf (s.memPut a l).mem = true := by
  induction l generalizing s a with
  | nil => exact h
  | cons b l ih => exact ih (s.memSet a b) (a + 1) (State.memSet_wf s a b h)

/-! Cells of tables. -/

@[simp] theorem State.tile_setTile_same (s : State) (n : Nat) (f : TileSt → TileSt) : (s.setTile n f).tile n = f (s.tile n) :=
  Tab.get_set_same
theorem State.tile_setTile_ne (s : State) (f : TileSt → TileSt) {j n : Nat} (h : j ≠ n) : (s.setTile n f).tile j = s.tile j :=
  Tab.get_set_ne h
@[simp] theorem State.ctr_setCtr_same (s : State) (n : Nat) (f : CtrSt → CtrSt) : (s.setCtr n f).ctr n = f (s.ctr n) :=
  Tab.get_set_same
theorem State.ctr_setCtr_ne (s : State) (f : CtrSt → CtrSt) {j n : Nat} (h : j ≠ n) : (s.setCtr n f).ctr j = s.ctr j :=
  Tab.get_set_ne h
@[simp] theorem State.fifo_setFifo_same (s : State) (n : Nat) (f : FifoSt → FifoSt) : (s.setFifo n f).fifo n = f (s.fifo n) :=
  Tab.get_set_same
theorem State.fifo_setFifo_ne (s : State) (f : FifoSt → FifoSt) {j n : Nat} (h : j ≠ n) : (s.setFifo n f).fifo j = s.fifo j :=
  Tab.get_set_ne h
@[simp] theorem State.eng_setEng_same (s : State) (n : Nat) (f : EngSt → EngSt) : (s.setEng n f).eng n = f (s.eng n) :=
  Tab.get_set_same
theorem State.eng_setEng_ne (s : State) (f : EngSt → EngSt) {j n : Nat} (h : j ≠ n) : (s.setEng n f).eng j = s.eng j :=
  Tab.get_set_ne h
@[simp] theorem State.win_setWin_same (s : State) (n : Nat) (f : WinEnt → WinEnt) : (s.setWin n f).win n = f (s.win n) :=
  Tab.get_set_same
theorem State.win_setWin_ne (s : State) (f : WinEnt → WinEnt) {j n : Nat} (h : j ≠ n) : (s.setWin n f).win j = s.win j :=
  Tab.get_set_ne h
@[simp] theorem State.drl_setDrl_same (s : State) (n : Nat) (f : DrillEnt → DrillEnt) : (s.setDrl n f).drl n = f (s.drl n) :=
  Tab.get_set_same
theorem State.drl_setDrl_ne (s : State) (f : DrillEnt → DrillEnt) {j n : Nat} (h : j ≠ n) : (s.setDrl n f).drl j = s.drl j :=
  Tab.get_set_ne h
@[simp] theorem State.sub_setSub_same (s : State) (n : Nat) (f : SubEnt → SubEnt) : (s.setSub n f).sub n = f (s.sub n) :=
  Tab.get_set_same
theorem State.sub_setSub_ne (s : State) (f : SubEnt → SubEnt) {j n : Nat} (h : j ≠ n) : (s.setSub n f).sub j = s.sub j :=
  Tab.get_set_ne h
@[simp] theorem State.pub_setPub_same (s : State) (n : Nat) (f : PubSlot → PubSlot) : (s.setPub n f).pub n = f (s.pub n) :=
  Tab.get_set_same
theorem State.pub_setPub_ne (s : State) (f : PubSlot → PubSlot) {j n : Nat} (h : j ≠ n) : (s.setPub n f).pub j = s.pub j :=
  Tab.get_set_ne h
@[simp] theorem State.ser_setSer_same (s : State) (n : Nat) (f : SerSt → SerSt) : (s.setSer n f).ser n = f (s.ser n) :=
  Tab.get_set_same
theorem State.ser_setSer_ne (s : State) (f : SerSt → SerSt) {j n : Nat} (h : j ≠ n) : (s.setSer n f).ser j = s.ser j :=
  Tab.get_set_ne h
@[simp] theorem State.can_setCan_same (s : State) (n : Nat) (f : CanSt → CanSt) : (s.setCan n f).can n = f (s.can n) :=
  Tab.get_set_same
theorem State.can_setCan_ne (s : State) (f : CanSt → CanSt) {j n : Nat} (h : j ≠ n) : (s.setCan n f).can j = s.can j :=
  Tab.get_set_ne h
@[simp] theorem State.dmaCh_setDma_same (s : State) (n : Nat) (f : DmaSt → DmaSt) : (s.setDma n f).dmaCh n = f (s.dmaCh n) :=
  Tab.get_set_same
theorem State.dmaCh_setDma_ne (s : State) (f : DmaSt → DmaSt) {j n : Nat} (h : j ≠ n) : (s.setDma n f).dmaCh j = s.dmaCh j :=
  Tab.get_set_ne h
@[simp] theorem State.core_setCore_same (s : State) (n : Nat) (f : CoreSt → CoreSt) : (s.setCore n f).core n = f (s.core n) :=
  Tab.get_set_same
theorem State.core_setCore_ne (s : State) (f : CoreSt → CoreSt) {j n : Nat} (h : j ≠ n) : (s.setCore n f).core j = s.core j :=
  Tab.get_set_ne h
@[simp] theorem State.source_setSource_same (s : State) (n : Nat) (f : LocalSrc → LocalSrc) : (s.setSource n f).source n = f (s.source n) :=
  Tab.get_set_same
theorem State.source_setSource_ne (s : State) (f : LocalSrc → LocalSrc) {j n : Nat} (h : j ≠ n) : (s.setSource n f).source j = s.source j :=
  Tab.get_set_ne h
@[simp] theorem State.link_setLink_same (s : State) (n : Nat) (f : LinkSt → LinkSt) : (s.setLink n f).link n = f (s.link n) :=
  Tab.get_set_same
theorem State.link_setLink_ne (s : State) (f : LinkSt → LinkSt) {j n : Nat} (h : j ≠ n) : (s.setLink n f).link j = s.link j :=
  Tab.get_set_ne h
@[simp] theorem State.line_setLine_same (s : State) (k : Nat) (c : LineCell) : (s.setLine k c).line k = c := Tab.get_set_same
theorem State.line_setLine_ne (s : State) (c : LineCell) {j k : Nat} (h : j ≠ k) : (s.setLine k c).line j = s.line j :=
  Tab.get_set_ne h
@[simp] theorem State.rule_setRule_same (s : State) (r : Nat) (x : Rule) : (s.setRule r x).rule r = x := Tab.get_set_same
theorem State.rule_setRule_ne (s : State) (x : Rule) {j r : Nat} (h : j ≠ r) : (s.setRule r x).rule j = s.rule j :=
  Tab.get_set_ne h
@[simp] theorem State.tag_setTag_same (s : State) (n : Nat) (x : TagSt) : (s.setTag n x).tag n = x := Tab.get_set_same
theorem State.tag_setTag_ne (s : State) (x : TagSt) {j n : Nat} (h : j ≠ n) : (s.setTag n x).tag j = s.tag j :=
  Tab.get_set_ne h

/-! Each update changes its own field and no other. -/

@[simp] theorem State.wr_others (s : State) (k : Nat) (v : Word) :
    (s.wr k v).pending = s.pending ∧ (s.wr k v).frozen = s.frozen ∧ (s.wr k v).heldIrq = s.heldIrq ∧ (s.wr k v).mbx = s.mbx ∧
    (s.wr k v).ind = s.ind ∧ (s.wr k v).stalls = s.stalls ∧ (s.wr k v).checks = s.checks ∧ (s.wr k v).gathers = s.gathers ∧
    (s.wr k v).ecc = s.ecc ∧ (s.wr k v).recSeq = s.recSeq ∧ (s.wr k v).time = s.time ∧ (s.wr k v).mem = s.mem ∧
    (s.wr k v).evq = s.evq ∧ (s.wr k v).msix = s.msix ∧ (s.wr k v).msixPba = s.msixPba ∧
    (s.wr k v).msixEnable = s.msixEnable ∧ (s.wr k v).msixFuncMask = s.msixFuncMask ∧ (s.wr k v).hostTx = s.hostTx ∧
    (s.wr k v).icu = s.icu ∧ (s.wr k v).sram = s.sram ∧ (s.wr k v).lines = s.lines ∧ (s.wr k v).tiles = s.tiles ∧
    (s.wr k v).stampOrder = s.stampOrder ∧ (s.wr k v).stampsHeld = s.stampsHeld ∧ (s.wr k v).ctrs = s.ctrs ∧
    (s.wr k v).fifos = s.fifos ∧ (s.wr k v).lease = s.lease ∧ (s.wr k v).plk = s.plk ∧ (s.wr k v).wins = s.wins ∧
    (s.wr k v).winOpen = s.winOpen ∧ (s.wr k v).winEdges = s.winEdges ∧ (s.wr k v).drill = s.drill ∧
    (s.wr k v).launches = s.launches ∧ (s.wr k v).rules = s.rules ∧ (s.wr k v).express = s.express ∧
    (s.wr k v).normal = s.normal ∧ (s.wr k v).eval = s.eval ∧ (s.wr k v).sigOps = s.sigOps ∧ (s.wr k v).pubs = s.pubs ∧
    (s.wr k v).pubOpen = s.pubOpen ∧ (s.wr k v).hbAt = s.hbAt ∧ (s.wr k v).subs = s.subs ∧ (s.wr k v).net = s.net ∧
    (s.wr k v).ring = s.ring ∧ (s.wr k v).power = s.power ∧ (s.wr k v).pulseDone = s.pulseDone ∧ (s.wr k v).engs = s.engs ∧
    (s.wr k v).starts = s.starts ∧ (s.wr k v).ptp = s.ptp ∧ (s.wr k v).sources = s.sources ∧ (s.wr k v).serial = s.serial ∧
    (s.wr k v).cans = s.cans ∧ (s.wr k v).xbr = s.xbr ∧ (s.wr k v).host = s.host ∧ (s.wr k v).dma = s.dma ∧
    (s.wr k v).cores = s.cores ∧ (s.wr k v).tcm = s.tcm ∧ (s.wr k v).stwSram = s.stwSram ∧ (s.wr k v).flash = s.flash ∧
    (s.wr k v).boot = s.boot ∧ (s.wr k v).otp = s.otp ∧ (s.wr k v).sha = s.sha ∧ (s.wr k v).pwr = s.pwr ∧
    (s.wr k v).clk = s.clk ∧ (s.wr k v).reply = s.reply ∧ (s.wr k v).tclks = s.tclks ∧ (s.wr k v).freeTick = s.freeTick := by
  and_intros <;> rfl
@[simp] theorem State.setFld_others (s : State) (k lo w v : Nat) :
    (s.setFld k lo w v).pending = s.pending ∧ (s.setFld k lo w v).frozen = s.frozen ∧
    (s.setFld k lo w v).heldIrq = s.heldIrq ∧ (s.setFld k lo w v).mbx = s.mbx ∧ (s.setFld k lo w v).ind = s.ind ∧
    (s.setFld k lo w v).stalls = s.stalls ∧ (s.setFld k lo w v).checks = s.checks ∧ (s.setFld k lo w v).gathers = s.gathers ∧
    (s.setFld k lo w v).ecc = s.ecc ∧ (s.setFld k lo w v).recSeq = s.recSeq ∧ (s.setFld k lo w v).time = s.time ∧
    (s.setFld k lo w v).mem = s.mem ∧ (s.setFld k lo w v).evq = s.evq ∧ (s.setFld k lo w v).msix = s.msix ∧
    (s.setFld k lo w v).msixPba = s.msixPba ∧ (s.setFld k lo w v).msixEnable = s.msixEnable ∧
    (s.setFld k lo w v).msixFuncMask = s.msixFuncMask ∧ (s.setFld k lo w v).hostTx = s.hostTx ∧
    (s.setFld k lo w v).icu = s.icu ∧ (s.setFld k lo w v).sram = s.sram ∧ (s.setFld k lo w v).lines = s.lines ∧
    (s.setFld k lo w v).tiles = s.tiles ∧ (s.setFld k lo w v).stampOrder = s.stampOrder ∧
    (s.setFld k lo w v).stampsHeld = s.stampsHeld ∧ (s.setFld k lo w v).ctrs = s.ctrs ∧ (s.setFld k lo w v).fifos = s.fifos ∧
    (s.setFld k lo w v).lease = s.lease ∧ (s.setFld k lo w v).plk = s.plk ∧ (s.setFld k lo w v).wins = s.wins ∧
    (s.setFld k lo w v).winOpen = s.winOpen ∧ (s.setFld k lo w v).winEdges = s.winEdges ∧
    (s.setFld k lo w v).drill = s.drill ∧ (s.setFld k lo w v).launches = s.launches ∧ (s.setFld k lo w v).rules = s.rules ∧
    (s.setFld k lo w v).express = s.express ∧ (s.setFld k lo w v).normal = s.normal ∧ (s.setFld k lo w v).eval = s.eval ∧
    (s.setFld k lo w v).sigOps = s.sigOps ∧ (s.setFld k lo w v).pubs = s.pubs ∧ (s.setFld k lo w v).pubOpen = s.pubOpen ∧
    (s.setFld k lo w v).hbAt = s.hbAt ∧ (s.setFld k lo w v).subs = s.subs ∧ (s.setFld k lo w v).net = s.net ∧
    (s.setFld k lo w v).ring = s.ring ∧ (s.setFld k lo w v).power = s.power ∧ (s.setFld k lo w v).pulseDone = s.pulseDone ∧
    (s.setFld k lo w v).engs = s.engs ∧ (s.setFld k lo w v).starts = s.starts ∧ (s.setFld k lo w v).ptp = s.ptp ∧
    (s.setFld k lo w v).sources = s.sources ∧ (s.setFld k lo w v).serial = s.serial ∧ (s.setFld k lo w v).cans = s.cans ∧
    (s.setFld k lo w v).xbr = s.xbr ∧ (s.setFld k lo w v).host = s.host ∧ (s.setFld k lo w v).dma = s.dma ∧
    (s.setFld k lo w v).cores = s.cores ∧ (s.setFld k lo w v).tcm = s.tcm ∧ (s.setFld k lo w v).stwSram = s.stwSram ∧
    (s.setFld k lo w v).flash = s.flash ∧ (s.setFld k lo w v).boot = s.boot ∧ (s.setFld k lo w v).otp = s.otp ∧
    (s.setFld k lo w v).sha = s.sha ∧ (s.setFld k lo w v).pwr = s.pwr ∧ (s.setFld k lo w v).clk = s.clk ∧
    (s.setFld k lo w v).reply = s.reply ∧ (s.setFld k lo w v).tclks = s.tclks ∧ (s.setFld k lo w v).freeTick = s.freeTick := by
  and_intros <;> rfl
@[simp] theorem State.bump_others (s : State) (k : Nat) :
    (s.bump k).pending = s.pending ∧ (s.bump k).frozen = s.frozen ∧ (s.bump k).heldIrq = s.heldIrq ∧ (s.bump k).mbx = s.mbx ∧
    (s.bump k).ind = s.ind ∧ (s.bump k).stalls = s.stalls ∧ (s.bump k).checks = s.checks ∧ (s.bump k).gathers = s.gathers ∧
    (s.bump k).ecc = s.ecc ∧ (s.bump k).recSeq = s.recSeq ∧ (s.bump k).time = s.time ∧ (s.bump k).mem = s.mem ∧
    (s.bump k).evq = s.evq ∧ (s.bump k).msix = s.msix ∧ (s.bump k).msixPba = s.msixPba ∧
    (s.bump k).msixEnable = s.msixEnable ∧ (s.bump k).msixFuncMask = s.msixFuncMask ∧ (s.bump k).hostTx = s.hostTx ∧
    (s.bump k).icu = s.icu ∧ (s.bump k).sram = s.sram ∧ (s.bump k).lines = s.lines ∧ (s.bump k).tiles = s.tiles ∧
    (s.bump k).stampOrder = s.stampOrder ∧ (s.bump k).stampsHeld = s.stampsHeld ∧ (s.bump k).ctrs = s.ctrs ∧
    (s.bump k).fifos = s.fifos ∧ (s.bump k).lease = s.lease ∧ (s.bump k).plk = s.plk ∧ (s.bump k).wins = s.wins ∧
    (s.bump k).winOpen = s.winOpen ∧ (s.bump k).winEdges = s.winEdges ∧ (s.bump k).drill = s.drill ∧
    (s.bump k).launches = s.launches ∧ (s.bump k).rules = s.rules ∧ (s.bump k).express = s.express ∧
    (s.bump k).normal = s.normal ∧ (s.bump k).eval = s.eval ∧ (s.bump k).sigOps = s.sigOps ∧ (s.bump k).pubs = s.pubs ∧
    (s.bump k).pubOpen = s.pubOpen ∧ (s.bump k).hbAt = s.hbAt ∧ (s.bump k).subs = s.subs ∧ (s.bump k).net = s.net ∧
    (s.bump k).ring = s.ring ∧ (s.bump k).power = s.power ∧ (s.bump k).pulseDone = s.pulseDone ∧ (s.bump k).engs = s.engs ∧
    (s.bump k).starts = s.starts ∧ (s.bump k).ptp = s.ptp ∧ (s.bump k).sources = s.sources ∧ (s.bump k).serial = s.serial ∧
    (s.bump k).cans = s.cans ∧ (s.bump k).xbr = s.xbr ∧ (s.bump k).host = s.host ∧ (s.bump k).dma = s.dma ∧
    (s.bump k).cores = s.cores ∧ (s.bump k).tcm = s.tcm ∧ (s.bump k).stwSram = s.stwSram ∧ (s.bump k).flash = s.flash ∧
    (s.bump k).boot = s.boot ∧ (s.bump k).otp = s.otp ∧ (s.bump k).sha = s.sha ∧ (s.bump k).pwr = s.pwr ∧
    (s.bump k).clk = s.clk ∧ (s.bump k).reply = s.reply ∧ (s.bump k).tclks = s.tclks ∧ (s.bump k).freeTick = s.freeTick := by
  and_intros <;> rfl
@[simp] theorem State.bumpBy_others (s : State) (k n : Nat) :
    (s.bumpBy k n).pending = s.pending ∧ (s.bumpBy k n).frozen = s.frozen ∧ (s.bumpBy k n).heldIrq = s.heldIrq ∧
    (s.bumpBy k n).mbx = s.mbx ∧ (s.bumpBy k n).ind = s.ind ∧ (s.bumpBy k n).stalls = s.stalls ∧
    (s.bumpBy k n).checks = s.checks ∧ (s.bumpBy k n).gathers = s.gathers ∧ (s.bumpBy k n).ecc = s.ecc ∧
    (s.bumpBy k n).recSeq = s.recSeq ∧ (s.bumpBy k n).time = s.time ∧ (s.bumpBy k n).mem = s.mem ∧
    (s.bumpBy k n).evq = s.evq ∧ (s.bumpBy k n).msix = s.msix ∧ (s.bumpBy k n).msixPba = s.msixPba ∧
    (s.bumpBy k n).msixEnable = s.msixEnable ∧ (s.bumpBy k n).msixFuncMask = s.msixFuncMask ∧
    (s.bumpBy k n).hostTx = s.hostTx ∧ (s.bumpBy k n).icu = s.icu ∧ (s.bumpBy k n).sram = s.sram ∧
    (s.bumpBy k n).lines = s.lines ∧ (s.bumpBy k n).tiles = s.tiles ∧ (s.bumpBy k n).stampOrder = s.stampOrder ∧
    (s.bumpBy k n).stampsHeld = s.stampsHeld ∧ (s.bumpBy k n).ctrs = s.ctrs ∧ (s.bumpBy k n).fifos = s.fifos ∧
    (s.bumpBy k n).lease = s.lease ∧ (s.bumpBy k n).plk = s.plk ∧ (s.bumpBy k n).wins = s.wins ∧
    (s.bumpBy k n).winOpen = s.winOpen ∧ (s.bumpBy k n).winEdges = s.winEdges ∧ (s.bumpBy k n).drill = s.drill ∧
    (s.bumpBy k n).launches = s.launches ∧ (s.bumpBy k n).rules = s.rules ∧ (s.bumpBy k n).express = s.express ∧
    (s.bumpBy k n).normal = s.normal ∧ (s.bumpBy k n).eval = s.eval ∧ (s.bumpBy k n).sigOps = s.sigOps ∧
    (s.bumpBy k n).pubs = s.pubs ∧ (s.bumpBy k n).pubOpen = s.pubOpen ∧ (s.bumpBy k n).hbAt = s.hbAt ∧
    (s.bumpBy k n).subs = s.subs ∧ (s.bumpBy k n).net = s.net ∧ (s.bumpBy k n).ring = s.ring ∧
    (s.bumpBy k n).power = s.power ∧ (s.bumpBy k n).pulseDone = s.pulseDone ∧ (s.bumpBy k n).engs = s.engs ∧
    (s.bumpBy k n).starts = s.starts ∧ (s.bumpBy k n).ptp = s.ptp ∧ (s.bumpBy k n).sources = s.sources ∧
    (s.bumpBy k n).serial = s.serial ∧ (s.bumpBy k n).cans = s.cans ∧ (s.bumpBy k n).xbr = s.xbr ∧
    (s.bumpBy k n).host = s.host ∧ (s.bumpBy k n).dma = s.dma ∧ (s.bumpBy k n).cores = s.cores ∧ (s.bumpBy k n).tcm = s.tcm ∧
    (s.bumpBy k n).stwSram = s.stwSram ∧ (s.bumpBy k n).flash = s.flash ∧ (s.bumpBy k n).boot = s.boot ∧
    (s.bumpBy k n).otp = s.otp ∧ (s.bumpBy k n).sha = s.sha ∧ (s.bumpBy k n).pwr = s.pwr ∧ (s.bumpBy k n).clk = s.clk ∧
    (s.bumpBy k n).reply = s.reply ∧ (s.bumpBy k n).tclks = s.tclks ∧ (s.bumpBy k n).freeTick = s.freeTick := by
  and_intros <;> rfl
@[simp] theorem State.memSet_others (s : State) (a : Nat) (b : Byte) :
    (s.memSet a b).pending = s.pending ∧ (s.memSet a b).regs = s.regs ∧ (s.memSet a b).frozen = s.frozen ∧
    (s.memSet a b).heldIrq = s.heldIrq ∧ (s.memSet a b).mbx = s.mbx ∧ (s.memSet a b).ind = s.ind ∧
    (s.memSet a b).stalls = s.stalls ∧ (s.memSet a b).checks = s.checks ∧ (s.memSet a b).gathers = s.gathers ∧
    (s.memSet a b).ecc = s.ecc ∧ (s.memSet a b).recSeq = s.recSeq ∧ (s.memSet a b).time = s.time ∧
    (s.memSet a b).evq = s.evq ∧ (s.memSet a b).msix = s.msix ∧ (s.memSet a b).msixPba = s.msixPba ∧
    (s.memSet a b).msixEnable = s.msixEnable ∧ (s.memSet a b).msixFuncMask = s.msixFuncMask ∧
    (s.memSet a b).hostTx = s.hostTx ∧ (s.memSet a b).icu = s.icu ∧ (s.memSet a b).sram = s.sram ∧
    (s.memSet a b).lines = s.lines ∧ (s.memSet a b).tiles = s.tiles ∧ (s.memSet a b).stampOrder = s.stampOrder ∧
    (s.memSet a b).stampsHeld = s.stampsHeld ∧ (s.memSet a b).ctrs = s.ctrs ∧ (s.memSet a b).fifos = s.fifos ∧
    (s.memSet a b).lease = s.lease ∧ (s.memSet a b).plk = s.plk ∧ (s.memSet a b).wins = s.wins ∧
    (s.memSet a b).winOpen = s.winOpen ∧ (s.memSet a b).winEdges = s.winEdges ∧ (s.memSet a b).drill = s.drill ∧
    (s.memSet a b).launches = s.launches ∧ (s.memSet a b).rules = s.rules ∧ (s.memSet a b).express = s.express ∧
    (s.memSet a b).normal = s.normal ∧ (s.memSet a b).eval = s.eval ∧ (s.memSet a b).sigOps = s.sigOps ∧
    (s.memSet a b).pubs = s.pubs ∧ (s.memSet a b).pubOpen = s.pubOpen ∧ (s.memSet a b).hbAt = s.hbAt ∧
    (s.memSet a b).subs = s.subs ∧ (s.memSet a b).net = s.net ∧ (s.memSet a b).ring = s.ring ∧
    (s.memSet a b).power = s.power ∧ (s.memSet a b).pulseDone = s.pulseDone ∧ (s.memSet a b).engs = s.engs ∧
    (s.memSet a b).starts = s.starts ∧ (s.memSet a b).ptp = s.ptp ∧ (s.memSet a b).sources = s.sources ∧
    (s.memSet a b).serial = s.serial ∧ (s.memSet a b).cans = s.cans ∧ (s.memSet a b).xbr = s.xbr ∧
    (s.memSet a b).host = s.host ∧ (s.memSet a b).dma = s.dma ∧ (s.memSet a b).cores = s.cores ∧ (s.memSet a b).tcm = s.tcm ∧
    (s.memSet a b).stwSram = s.stwSram ∧ (s.memSet a b).flash = s.flash ∧ (s.memSet a b).boot = s.boot ∧
    (s.memSet a b).otp = s.otp ∧ (s.memSet a b).sha = s.sha ∧ (s.memSet a b).pwr = s.pwr ∧ (s.memSet a b).clk = s.clk ∧
    (s.memSet a b).reply = s.reply ∧ (s.memSet a b).tclks = s.tclks ∧ (s.memSet a b).freeTick = s.freeTick := by
  and_intros <;> rfl
@[simp] theorem State.answered_others (s : State) (w : Word) :
    (s.answered w).pending = s.pending ∧ (s.answered w).regs = s.regs ∧ (s.answered w).frozen = s.frozen ∧
    (s.answered w).heldIrq = s.heldIrq ∧ (s.answered w).mbx = s.mbx ∧ (s.answered w).ind = s.ind ∧
    (s.answered w).stalls = s.stalls ∧ (s.answered w).checks = s.checks ∧ (s.answered w).gathers = s.gathers ∧
    (s.answered w).ecc = s.ecc ∧ (s.answered w).recSeq = s.recSeq ∧ (s.answered w).time = s.time ∧
    (s.answered w).mem = s.mem ∧ (s.answered w).evq = s.evq ∧ (s.answered w).msix = s.msix ∧
    (s.answered w).msixPba = s.msixPba ∧ (s.answered w).msixEnable = s.msixEnable ∧
    (s.answered w).msixFuncMask = s.msixFuncMask ∧ (s.answered w).hostTx = s.hostTx ∧ (s.answered w).icu = s.icu ∧
    (s.answered w).sram = s.sram ∧ (s.answered w).lines = s.lines ∧ (s.answered w).tiles = s.tiles ∧
    (s.answered w).stampOrder = s.stampOrder ∧ (s.answered w).stampsHeld = s.stampsHeld ∧ (s.answered w).ctrs = s.ctrs ∧
    (s.answered w).fifos = s.fifos ∧ (s.answered w).lease = s.lease ∧ (s.answered w).plk = s.plk ∧
    (s.answered w).wins = s.wins ∧ (s.answered w).winOpen = s.winOpen ∧ (s.answered w).winEdges = s.winEdges ∧
    (s.answered w).drill = s.drill ∧ (s.answered w).launches = s.launches ∧ (s.answered w).rules = s.rules ∧
    (s.answered w).express = s.express ∧ (s.answered w).normal = s.normal ∧ (s.answered w).eval = s.eval ∧
    (s.answered w).sigOps = s.sigOps ∧ (s.answered w).pubs = s.pubs ∧ (s.answered w).pubOpen = s.pubOpen ∧
    (s.answered w).hbAt = s.hbAt ∧ (s.answered w).subs = s.subs ∧ (s.answered w).net = s.net ∧ (s.answered w).ring = s.ring ∧
    (s.answered w).power = s.power ∧ (s.answered w).pulseDone = s.pulseDone ∧ (s.answered w).engs = s.engs ∧
    (s.answered w).starts = s.starts ∧ (s.answered w).ptp = s.ptp ∧ (s.answered w).sources = s.sources ∧
    (s.answered w).serial = s.serial ∧ (s.answered w).cans = s.cans ∧ (s.answered w).xbr = s.xbr ∧
    (s.answered w).host = s.host ∧ (s.answered w).dma = s.dma ∧ (s.answered w).cores = s.cores ∧ (s.answered w).tcm = s.tcm ∧
    (s.answered w).stwSram = s.stwSram ∧ (s.answered w).flash = s.flash ∧ (s.answered w).boot = s.boot ∧
    (s.answered w).otp = s.otp ∧ (s.answered w).sha = s.sha ∧ (s.answered w).pwr = s.pwr ∧ (s.answered w).clk = s.clk ∧
    (s.answered w).tclks = s.tclks ∧ (s.answered w).freeTick = s.freeTick := by
  and_intros <;> rfl
@[simp] theorem State.sramSet_others (s : State) (k : Nat) (w : Word) :
    (s.sramSet k w).pending = s.pending ∧ (s.sramSet k w).regs = s.regs ∧ (s.sramSet k w).frozen = s.frozen ∧
    (s.sramSet k w).heldIrq = s.heldIrq ∧ (s.sramSet k w).mbx = s.mbx ∧ (s.sramSet k w).ind = s.ind ∧
    (s.sramSet k w).stalls = s.stalls ∧ (s.sramSet k w).checks = s.checks ∧ (s.sramSet k w).gathers = s.gathers ∧
    (s.sramSet k w).ecc = s.ecc ∧ (s.sramSet k w).recSeq = s.recSeq ∧ (s.sramSet k w).time = s.time ∧
    (s.sramSet k w).mem = s.mem ∧ (s.sramSet k w).evq = s.evq ∧ (s.sramSet k w).msix = s.msix ∧
    (s.sramSet k w).msixPba = s.msixPba ∧ (s.sramSet k w).msixEnable = s.msixEnable ∧
    (s.sramSet k w).msixFuncMask = s.msixFuncMask ∧ (s.sramSet k w).hostTx = s.hostTx ∧ (s.sramSet k w).icu = s.icu ∧
    (s.sramSet k w).lines = s.lines ∧ (s.sramSet k w).tiles = s.tiles ∧ (s.sramSet k w).stampOrder = s.stampOrder ∧
    (s.sramSet k w).stampsHeld = s.stampsHeld ∧ (s.sramSet k w).ctrs = s.ctrs ∧ (s.sramSet k w).fifos = s.fifos ∧
    (s.sramSet k w).lease = s.lease ∧ (s.sramSet k w).plk = s.plk ∧ (s.sramSet k w).wins = s.wins ∧
    (s.sramSet k w).winOpen = s.winOpen ∧ (s.sramSet k w).winEdges = s.winEdges ∧ (s.sramSet k w).drill = s.drill ∧
    (s.sramSet k w).launches = s.launches ∧ (s.sramSet k w).rules = s.rules ∧ (s.sramSet k w).express = s.express ∧
    (s.sramSet k w).normal = s.normal ∧ (s.sramSet k w).eval = s.eval ∧ (s.sramSet k w).sigOps = s.sigOps ∧
    (s.sramSet k w).pubs = s.pubs ∧ (s.sramSet k w).pubOpen = s.pubOpen ∧ (s.sramSet k w).hbAt = s.hbAt ∧
    (s.sramSet k w).subs = s.subs ∧ (s.sramSet k w).net = s.net ∧ (s.sramSet k w).ring = s.ring ∧
    (s.sramSet k w).power = s.power ∧ (s.sramSet k w).pulseDone = s.pulseDone ∧ (s.sramSet k w).engs = s.engs ∧
    (s.sramSet k w).starts = s.starts ∧ (s.sramSet k w).ptp = s.ptp ∧ (s.sramSet k w).sources = s.sources ∧
    (s.sramSet k w).serial = s.serial ∧ (s.sramSet k w).cans = s.cans ∧ (s.sramSet k w).xbr = s.xbr ∧
    (s.sramSet k w).host = s.host ∧ (s.sramSet k w).dma = s.dma ∧ (s.sramSet k w).cores = s.cores ∧
    (s.sramSet k w).tcm = s.tcm ∧ (s.sramSet k w).stwSram = s.stwSram ∧ (s.sramSet k w).flash = s.flash ∧
    (s.sramSet k w).boot = s.boot ∧ (s.sramSet k w).otp = s.otp ∧ (s.sramSet k w).sha = s.sha ∧ (s.sramSet k w).pwr = s.pwr ∧
    (s.sramSet k w).clk = s.clk ∧ (s.sramSet k w).reply = s.reply ∧ (s.sramSet k w).tclks = s.tclks ∧
    (s.sramSet k w).freeTick = s.freeTick := by
  and_intros <;> rfl
@[simp] theorem State.setLine_others (s : State) (k : Nat) (c : LineCell) :
    (s.setLine k c).pending = s.pending ∧ (s.setLine k c).regs = s.regs ∧ (s.setLine k c).frozen = s.frozen ∧
    (s.setLine k c).heldIrq = s.heldIrq ∧ (s.setLine k c).mbx = s.mbx ∧ (s.setLine k c).ind = s.ind ∧
    (s.setLine k c).stalls = s.stalls ∧ (s.setLine k c).checks = s.checks ∧ (s.setLine k c).gathers = s.gathers ∧
    (s.setLine k c).ecc = s.ecc ∧ (s.setLine k c).recSeq = s.recSeq ∧ (s.setLine k c).time = s.time ∧
    (s.setLine k c).mem = s.mem ∧ (s.setLine k c).evq = s.evq ∧ (s.setLine k c).msix = s.msix ∧
    (s.setLine k c).msixPba = s.msixPba ∧ (s.setLine k c).msixEnable = s.msixEnable ∧
    (s.setLine k c).msixFuncMask = s.msixFuncMask ∧ (s.setLine k c).hostTx = s.hostTx ∧ (s.setLine k c).icu = s.icu ∧
    (s.setLine k c).sram = s.sram ∧ (s.setLine k c).tiles = s.tiles ∧ (s.setLine k c).stampOrder = s.stampOrder ∧
    (s.setLine k c).stampsHeld = s.stampsHeld ∧ (s.setLine k c).ctrs = s.ctrs ∧ (s.setLine k c).fifos = s.fifos ∧
    (s.setLine k c).lease = s.lease ∧ (s.setLine k c).plk = s.plk ∧ (s.setLine k c).wins = s.wins ∧
    (s.setLine k c).winOpen = s.winOpen ∧ (s.setLine k c).winEdges = s.winEdges ∧ (s.setLine k c).drill = s.drill ∧
    (s.setLine k c).launches = s.launches ∧ (s.setLine k c).rules = s.rules ∧ (s.setLine k c).express = s.express ∧
    (s.setLine k c).normal = s.normal ∧ (s.setLine k c).eval = s.eval ∧ (s.setLine k c).sigOps = s.sigOps ∧
    (s.setLine k c).pubs = s.pubs ∧ (s.setLine k c).pubOpen = s.pubOpen ∧ (s.setLine k c).hbAt = s.hbAt ∧
    (s.setLine k c).subs = s.subs ∧ (s.setLine k c).net = s.net ∧ (s.setLine k c).ring = s.ring ∧
    (s.setLine k c).power = s.power ∧ (s.setLine k c).pulseDone = s.pulseDone ∧ (s.setLine k c).engs = s.engs ∧
    (s.setLine k c).starts = s.starts ∧ (s.setLine k c).ptp = s.ptp ∧ (s.setLine k c).sources = s.sources ∧
    (s.setLine k c).serial = s.serial ∧ (s.setLine k c).cans = s.cans ∧ (s.setLine k c).xbr = s.xbr ∧
    (s.setLine k c).host = s.host ∧ (s.setLine k c).dma = s.dma ∧ (s.setLine k c).cores = s.cores ∧
    (s.setLine k c).tcm = s.tcm ∧ (s.setLine k c).stwSram = s.stwSram ∧ (s.setLine k c).flash = s.flash ∧
    (s.setLine k c).boot = s.boot ∧ (s.setLine k c).otp = s.otp ∧ (s.setLine k c).sha = s.sha ∧ (s.setLine k c).pwr = s.pwr ∧
    (s.setLine k c).clk = s.clk ∧ (s.setLine k c).reply = s.reply ∧ (s.setLine k c).tclks = s.tclks ∧
    (s.setLine k c).freeTick = s.freeTick := by
  and_intros <;> rfl
@[simp] theorem State.setRule_others (s : State) (r : Nat) (x : Rule) :
    (s.setRule r x).pending = s.pending ∧ (s.setRule r x).regs = s.regs ∧ (s.setRule r x).frozen = s.frozen ∧
    (s.setRule r x).heldIrq = s.heldIrq ∧ (s.setRule r x).mbx = s.mbx ∧ (s.setRule r x).ind = s.ind ∧
    (s.setRule r x).stalls = s.stalls ∧ (s.setRule r x).checks = s.checks ∧ (s.setRule r x).gathers = s.gathers ∧
    (s.setRule r x).ecc = s.ecc ∧ (s.setRule r x).recSeq = s.recSeq ∧ (s.setRule r x).time = s.time ∧
    (s.setRule r x).mem = s.mem ∧ (s.setRule r x).evq = s.evq ∧ (s.setRule r x).msix = s.msix ∧
    (s.setRule r x).msixPba = s.msixPba ∧ (s.setRule r x).msixEnable = s.msixEnable ∧
    (s.setRule r x).msixFuncMask = s.msixFuncMask ∧ (s.setRule r x).hostTx = s.hostTx ∧ (s.setRule r x).icu = s.icu ∧
    (s.setRule r x).sram = s.sram ∧ (s.setRule r x).lines = s.lines ∧ (s.setRule r x).tiles = s.tiles ∧
    (s.setRule r x).stampOrder = s.stampOrder ∧ (s.setRule r x).stampsHeld = s.stampsHeld ∧ (s.setRule r x).ctrs = s.ctrs ∧
    (s.setRule r x).fifos = s.fifos ∧ (s.setRule r x).lease = s.lease ∧ (s.setRule r x).plk = s.plk ∧
    (s.setRule r x).wins = s.wins ∧ (s.setRule r x).winOpen = s.winOpen ∧ (s.setRule r x).winEdges = s.winEdges ∧
    (s.setRule r x).drill = s.drill ∧ (s.setRule r x).launches = s.launches ∧ (s.setRule r x).express = s.express ∧
    (s.setRule r x).normal = s.normal ∧ (s.setRule r x).eval = s.eval ∧ (s.setRule r x).sigOps = s.sigOps ∧
    (s.setRule r x).pubs = s.pubs ∧ (s.setRule r x).pubOpen = s.pubOpen ∧ (s.setRule r x).hbAt = s.hbAt ∧
    (s.setRule r x).subs = s.subs ∧ (s.setRule r x).net = s.net ∧ (s.setRule r x).ring = s.ring ∧
    (s.setRule r x).power = s.power ∧ (s.setRule r x).pulseDone = s.pulseDone ∧ (s.setRule r x).engs = s.engs ∧
    (s.setRule r x).starts = s.starts ∧ (s.setRule r x).ptp = s.ptp ∧ (s.setRule r x).sources = s.sources ∧
    (s.setRule r x).serial = s.serial ∧ (s.setRule r x).cans = s.cans ∧ (s.setRule r x).xbr = s.xbr ∧
    (s.setRule r x).host = s.host ∧ (s.setRule r x).dma = s.dma ∧ (s.setRule r x).cores = s.cores ∧
    (s.setRule r x).tcm = s.tcm ∧ (s.setRule r x).stwSram = s.stwSram ∧ (s.setRule r x).flash = s.flash ∧
    (s.setRule r x).boot = s.boot ∧ (s.setRule r x).otp = s.otp ∧ (s.setRule r x).sha = s.sha ∧ (s.setRule r x).pwr = s.pwr ∧
    (s.setRule r x).clk = s.clk ∧ (s.setRule r x).reply = s.reply ∧ (s.setRule r x).tclks = s.tclks ∧
    (s.setRule r x).freeTick = s.freeTick := by
  and_intros <;> rfl
@[simp] theorem State.setCheck_others (s : State) (p c : Nat) (x : CheckSt) :
    (s.setCheck p c x).pending = s.pending ∧ (s.setCheck p c x).regs = s.regs ∧ (s.setCheck p c x).frozen = s.frozen ∧
    (s.setCheck p c x).heldIrq = s.heldIrq ∧ (s.setCheck p c x).mbx = s.mbx ∧ (s.setCheck p c x).ind = s.ind ∧
    (s.setCheck p c x).stalls = s.stalls ∧ (s.setCheck p c x).gathers = s.gathers ∧ (s.setCheck p c x).ecc = s.ecc ∧
    (s.setCheck p c x).recSeq = s.recSeq ∧ (s.setCheck p c x).time = s.time ∧ (s.setCheck p c x).mem = s.mem ∧
    (s.setCheck p c x).evq = s.evq ∧ (s.setCheck p c x).msix = s.msix ∧ (s.setCheck p c x).msixPba = s.msixPba ∧
    (s.setCheck p c x).msixEnable = s.msixEnable ∧ (s.setCheck p c x).msixFuncMask = s.msixFuncMask ∧
    (s.setCheck p c x).hostTx = s.hostTx ∧ (s.setCheck p c x).icu = s.icu ∧ (s.setCheck p c x).sram = s.sram ∧
    (s.setCheck p c x).lines = s.lines ∧ (s.setCheck p c x).tiles = s.tiles ∧ (s.setCheck p c x).stampOrder = s.stampOrder ∧
    (s.setCheck p c x).stampsHeld = s.stampsHeld ∧ (s.setCheck p c x).ctrs = s.ctrs ∧ (s.setCheck p c x).fifos = s.fifos ∧
    (s.setCheck p c x).lease = s.lease ∧ (s.setCheck p c x).plk = s.plk ∧ (s.setCheck p c x).wins = s.wins ∧
    (s.setCheck p c x).winOpen = s.winOpen ∧ (s.setCheck p c x).winEdges = s.winEdges ∧ (s.setCheck p c x).drill = s.drill ∧
    (s.setCheck p c x).launches = s.launches ∧ (s.setCheck p c x).rules = s.rules ∧ (s.setCheck p c x).express = s.express ∧
    (s.setCheck p c x).normal = s.normal ∧ (s.setCheck p c x).eval = s.eval ∧ (s.setCheck p c x).sigOps = s.sigOps ∧
    (s.setCheck p c x).pubs = s.pubs ∧ (s.setCheck p c x).pubOpen = s.pubOpen ∧ (s.setCheck p c x).hbAt = s.hbAt ∧
    (s.setCheck p c x).subs = s.subs ∧ (s.setCheck p c x).net = s.net ∧ (s.setCheck p c x).ring = s.ring ∧
    (s.setCheck p c x).power = s.power ∧ (s.setCheck p c x).pulseDone = s.pulseDone ∧ (s.setCheck p c x).engs = s.engs ∧
    (s.setCheck p c x).starts = s.starts ∧ (s.setCheck p c x).ptp = s.ptp ∧ (s.setCheck p c x).sources = s.sources ∧
    (s.setCheck p c x).serial = s.serial ∧ (s.setCheck p c x).cans = s.cans ∧ (s.setCheck p c x).xbr = s.xbr ∧
    (s.setCheck p c x).host = s.host ∧ (s.setCheck p c x).dma = s.dma ∧ (s.setCheck p c x).cores = s.cores ∧
    (s.setCheck p c x).tcm = s.tcm ∧ (s.setCheck p c x).stwSram = s.stwSram ∧ (s.setCheck p c x).flash = s.flash ∧
    (s.setCheck p c x).boot = s.boot ∧ (s.setCheck p c x).otp = s.otp ∧ (s.setCheck p c x).sha = s.sha ∧
    (s.setCheck p c x).pwr = s.pwr ∧ (s.setCheck p c x).clk = s.clk ∧ (s.setCheck p c x).reply = s.reply ∧
    (s.setCheck p c x).tclks = s.tclks ∧ (s.setCheck p c x).freeTick = s.freeTick := by
  and_intros <;> rfl
@[simp] theorem State.setEvQueue_others (s : State) (n : Nat) (q : EvQueue) :
    (s.setEvQueue n q).pending = s.pending ∧ (s.setEvQueue n q).regs = s.regs ∧ (s.setEvQueue n q).frozen = s.frozen ∧
    (s.setEvQueue n q).heldIrq = s.heldIrq ∧ (s.setEvQueue n q).mbx = s.mbx ∧ (s.setEvQueue n q).ind = s.ind ∧
    (s.setEvQueue n q).stalls = s.stalls ∧ (s.setEvQueue n q).checks = s.checks ∧ (s.setEvQueue n q).gathers = s.gathers ∧
    (s.setEvQueue n q).ecc = s.ecc ∧ (s.setEvQueue n q).recSeq = s.recSeq ∧ (s.setEvQueue n q).time = s.time ∧
    (s.setEvQueue n q).mem = s.mem ∧ (s.setEvQueue n q).msix = s.msix ∧ (s.setEvQueue n q).msixPba = s.msixPba ∧
    (s.setEvQueue n q).msixEnable = s.msixEnable ∧ (s.setEvQueue n q).msixFuncMask = s.msixFuncMask ∧
    (s.setEvQueue n q).hostTx = s.hostTx ∧ (s.setEvQueue n q).icu = s.icu ∧ (s.setEvQueue n q).sram = s.sram ∧
    (s.setEvQueue n q).lines = s.lines ∧ (s.setEvQueue n q).tiles = s.tiles ∧ (s.setEvQueue n q).stampOrder = s.stampOrder ∧
    (s.setEvQueue n q).stampsHeld = s.stampsHeld ∧ (s.setEvQueue n q).ctrs = s.ctrs ∧ (s.setEvQueue n q).fifos = s.fifos ∧
    (s.setEvQueue n q).lease = s.lease ∧ (s.setEvQueue n q).plk = s.plk ∧ (s.setEvQueue n q).wins = s.wins ∧
    (s.setEvQueue n q).winOpen = s.winOpen ∧ (s.setEvQueue n q).winEdges = s.winEdges ∧ (s.setEvQueue n q).drill = s.drill ∧
    (s.setEvQueue n q).launches = s.launches ∧ (s.setEvQueue n q).rules = s.rules ∧ (s.setEvQueue n q).express = s.express ∧
    (s.setEvQueue n q).normal = s.normal ∧ (s.setEvQueue n q).eval = s.eval ∧ (s.setEvQueue n q).sigOps = s.sigOps ∧
    (s.setEvQueue n q).pubs = s.pubs ∧ (s.setEvQueue n q).pubOpen = s.pubOpen ∧ (s.setEvQueue n q).hbAt = s.hbAt ∧
    (s.setEvQueue n q).subs = s.subs ∧ (s.setEvQueue n q).net = s.net ∧ (s.setEvQueue n q).ring = s.ring ∧
    (s.setEvQueue n q).power = s.power ∧ (s.setEvQueue n q).pulseDone = s.pulseDone ∧ (s.setEvQueue n q).engs = s.engs ∧
    (s.setEvQueue n q).starts = s.starts ∧ (s.setEvQueue n q).ptp = s.ptp ∧ (s.setEvQueue n q).sources = s.sources ∧
    (s.setEvQueue n q).serial = s.serial ∧ (s.setEvQueue n q).cans = s.cans ∧ (s.setEvQueue n q).xbr = s.xbr ∧
    (s.setEvQueue n q).host = s.host ∧ (s.setEvQueue n q).dma = s.dma ∧ (s.setEvQueue n q).cores = s.cores ∧
    (s.setEvQueue n q).tcm = s.tcm ∧ (s.setEvQueue n q).stwSram = s.stwSram ∧ (s.setEvQueue n q).flash = s.flash ∧
    (s.setEvQueue n q).boot = s.boot ∧ (s.setEvQueue n q).otp = s.otp ∧ (s.setEvQueue n q).sha = s.sha ∧
    (s.setEvQueue n q).pwr = s.pwr ∧ (s.setEvQueue n q).clk = s.clk ∧ (s.setEvQueue n q).reply = s.reply ∧
    (s.setEvQueue n q).tclks = s.tclks ∧ (s.setEvQueue n q).freeTick = s.freeTick := by
  and_intros <;> rfl
@[simp] theorem State.setWaiting_others (s : State) (p : Nat) (l : List IndAccess) :
    (s.setWaiting p l).pending = s.pending ∧ (s.setWaiting p l).regs = s.regs ∧ (s.setWaiting p l).frozen = s.frozen ∧
    (s.setWaiting p l).heldIrq = s.heldIrq ∧ (s.setWaiting p l).mbx = s.mbx ∧ (s.setWaiting p l).stalls = s.stalls ∧
    (s.setWaiting p l).checks = s.checks ∧ (s.setWaiting p l).gathers = s.gathers ∧ (s.setWaiting p l).ecc = s.ecc ∧
    (s.setWaiting p l).recSeq = s.recSeq ∧ (s.setWaiting p l).time = s.time ∧ (s.setWaiting p l).mem = s.mem ∧
    (s.setWaiting p l).evq = s.evq ∧ (s.setWaiting p l).msix = s.msix ∧ (s.setWaiting p l).msixPba = s.msixPba ∧
    (s.setWaiting p l).msixEnable = s.msixEnable ∧ (s.setWaiting p l).msixFuncMask = s.msixFuncMask ∧
    (s.setWaiting p l).hostTx = s.hostTx ∧ (s.setWaiting p l).icu = s.icu ∧ (s.setWaiting p l).sram = s.sram ∧
    (s.setWaiting p l).lines = s.lines ∧ (s.setWaiting p l).tiles = s.tiles ∧ (s.setWaiting p l).stampOrder = s.stampOrder ∧
    (s.setWaiting p l).stampsHeld = s.stampsHeld ∧ (s.setWaiting p l).ctrs = s.ctrs ∧ (s.setWaiting p l).fifos = s.fifos ∧
    (s.setWaiting p l).lease = s.lease ∧ (s.setWaiting p l).plk = s.plk ∧ (s.setWaiting p l).wins = s.wins ∧
    (s.setWaiting p l).winOpen = s.winOpen ∧ (s.setWaiting p l).winEdges = s.winEdges ∧ (s.setWaiting p l).drill = s.drill ∧
    (s.setWaiting p l).launches = s.launches ∧ (s.setWaiting p l).rules = s.rules ∧ (s.setWaiting p l).express = s.express ∧
    (s.setWaiting p l).normal = s.normal ∧ (s.setWaiting p l).eval = s.eval ∧ (s.setWaiting p l).sigOps = s.sigOps ∧
    (s.setWaiting p l).pubs = s.pubs ∧ (s.setWaiting p l).pubOpen = s.pubOpen ∧ (s.setWaiting p l).hbAt = s.hbAt ∧
    (s.setWaiting p l).subs = s.subs ∧ (s.setWaiting p l).net = s.net ∧ (s.setWaiting p l).ring = s.ring ∧
    (s.setWaiting p l).power = s.power ∧ (s.setWaiting p l).pulseDone = s.pulseDone ∧ (s.setWaiting p l).engs = s.engs ∧
    (s.setWaiting p l).starts = s.starts ∧ (s.setWaiting p l).ptp = s.ptp ∧ (s.setWaiting p l).sources = s.sources ∧
    (s.setWaiting p l).serial = s.serial ∧ (s.setWaiting p l).cans = s.cans ∧ (s.setWaiting p l).xbr = s.xbr ∧
    (s.setWaiting p l).host = s.host ∧ (s.setWaiting p l).dma = s.dma ∧ (s.setWaiting p l).cores = s.cores ∧
    (s.setWaiting p l).tcm = s.tcm ∧ (s.setWaiting p l).stwSram = s.stwSram ∧ (s.setWaiting p l).flash = s.flash ∧
    (s.setWaiting p l).boot = s.boot ∧ (s.setWaiting p l).otp = s.otp ∧ (s.setWaiting p l).sha = s.sha ∧
    (s.setWaiting p l).pwr = s.pwr ∧ (s.setWaiting p l).clk = s.clk ∧ (s.setWaiting p l).reply = s.reply ∧
    (s.setWaiting p l).tclks = s.tclks ∧ (s.setWaiting p l).freeTick = s.freeTick := by
  and_intros <;> rfl
@[simp] theorem State.setTag_others (s : State) (n : Nat) (x : TagSt) :
    (s.setTag n x).pending = s.pending ∧ (s.setTag n x).regs = s.regs ∧ (s.setTag n x).frozen = s.frozen ∧
    (s.setTag n x).heldIrq = s.heldIrq ∧ (s.setTag n x).mbx = s.mbx ∧ (s.setTag n x).ind = s.ind ∧
    (s.setTag n x).stalls = s.stalls ∧ (s.setTag n x).checks = s.checks ∧ (s.setTag n x).gathers = s.gathers ∧
    (s.setTag n x).ecc = s.ecc ∧ (s.setTag n x).recSeq = s.recSeq ∧ (s.setTag n x).time = s.time ∧
    (s.setTag n x).mem = s.mem ∧ (s.setTag n x).evq = s.evq ∧ (s.setTag n x).msix = s.msix ∧
    (s.setTag n x).msixPba = s.msixPba ∧ (s.setTag n x).msixEnable = s.msixEnable ∧
    (s.setTag n x).msixFuncMask = s.msixFuncMask ∧ (s.setTag n x).hostTx = s.hostTx ∧ (s.setTag n x).icu = s.icu ∧
    (s.setTag n x).sram = s.sram ∧ (s.setTag n x).lines = s.lines ∧ (s.setTag n x).tiles = s.tiles ∧
    (s.setTag n x).stampOrder = s.stampOrder ∧ (s.setTag n x).stampsHeld = s.stampsHeld ∧ (s.setTag n x).ctrs = s.ctrs ∧
    (s.setTag n x).fifos = s.fifos ∧ (s.setTag n x).lease = s.lease ∧ (s.setTag n x).plk = s.plk ∧
    (s.setTag n x).wins = s.wins ∧ (s.setTag n x).winOpen = s.winOpen ∧ (s.setTag n x).winEdges = s.winEdges ∧
    (s.setTag n x).drill = s.drill ∧ (s.setTag n x).launches = s.launches ∧ (s.setTag n x).rules = s.rules ∧
    (s.setTag n x).express = s.express ∧ (s.setTag n x).normal = s.normal ∧ (s.setTag n x).eval = s.eval ∧
    (s.setTag n x).sigOps = s.sigOps ∧ (s.setTag n x).pubs = s.pubs ∧ (s.setTag n x).pubOpen = s.pubOpen ∧
    (s.setTag n x).hbAt = s.hbAt ∧ (s.setTag n x).subs = s.subs ∧ (s.setTag n x).net = s.net ∧ (s.setTag n x).ring = s.ring ∧
    (s.setTag n x).power = s.power ∧ (s.setTag n x).pulseDone = s.pulseDone ∧ (s.setTag n x).engs = s.engs ∧
    (s.setTag n x).starts = s.starts ∧ (s.setTag n x).ptp = s.ptp ∧ (s.setTag n x).sources = s.sources ∧
    (s.setTag n x).serial = s.serial ∧ (s.setTag n x).cans = s.cans ∧ (s.setTag n x).host = s.host ∧
    (s.setTag n x).dma = s.dma ∧ (s.setTag n x).cores = s.cores ∧ (s.setTag n x).tcm = s.tcm ∧
    (s.setTag n x).stwSram = s.stwSram ∧ (s.setTag n x).flash = s.flash ∧ (s.setTag n x).boot = s.boot ∧
    (s.setTag n x).otp = s.otp ∧ (s.setTag n x).sha = s.sha ∧ (s.setTag n x).pwr = s.pwr ∧ (s.setTag n x).clk = s.clk ∧
    (s.setTag n x).reply = s.reply ∧ (s.setTag n x).tclks = s.tclks ∧ (s.setTag n x).freeTick = s.freeTick := by
  and_intros <;> rfl
@[simp] theorem State.setTile_others (s : State) (n : Nat) (f : TileSt → TileSt) :
    (s.setTile n f).pending = s.pending ∧ (s.setTile n f).regs = s.regs ∧ (s.setTile n f).frozen = s.frozen ∧
    (s.setTile n f).heldIrq = s.heldIrq ∧ (s.setTile n f).mbx = s.mbx ∧ (s.setTile n f).ind = s.ind ∧
    (s.setTile n f).stalls = s.stalls ∧ (s.setTile n f).checks = s.checks ∧ (s.setTile n f).gathers = s.gathers ∧
    (s.setTile n f).ecc = s.ecc ∧ (s.setTile n f).recSeq = s.recSeq ∧ (s.setTile n f).time = s.time ∧
    (s.setTile n f).mem = s.mem ∧ (s.setTile n f).evq = s.evq ∧ (s.setTile n f).msix = s.msix ∧
    (s.setTile n f).msixPba = s.msixPba ∧ (s.setTile n f).msixEnable = s.msixEnable ∧
    (s.setTile n f).msixFuncMask = s.msixFuncMask ∧ (s.setTile n f).hostTx = s.hostTx ∧ (s.setTile n f).icu = s.icu ∧
    (s.setTile n f).sram = s.sram ∧ (s.setTile n f).lines = s.lines ∧ (s.setTile n f).stampOrder = s.stampOrder ∧
    (s.setTile n f).stampsHeld = s.stampsHeld ∧ (s.setTile n f).ctrs = s.ctrs ∧ (s.setTile n f).fifos = s.fifos ∧
    (s.setTile n f).lease = s.lease ∧ (s.setTile n f).plk = s.plk ∧ (s.setTile n f).wins = s.wins ∧
    (s.setTile n f).winOpen = s.winOpen ∧ (s.setTile n f).winEdges = s.winEdges ∧ (s.setTile n f).drill = s.drill ∧
    (s.setTile n f).launches = s.launches ∧ (s.setTile n f).rules = s.rules ∧ (s.setTile n f).express = s.express ∧
    (s.setTile n f).normal = s.normal ∧ (s.setTile n f).eval = s.eval ∧ (s.setTile n f).sigOps = s.sigOps ∧
    (s.setTile n f).pubs = s.pubs ∧ (s.setTile n f).pubOpen = s.pubOpen ∧ (s.setTile n f).hbAt = s.hbAt ∧
    (s.setTile n f).subs = s.subs ∧ (s.setTile n f).net = s.net ∧ (s.setTile n f).ring = s.ring ∧
    (s.setTile n f).power = s.power ∧ (s.setTile n f).pulseDone = s.pulseDone ∧ (s.setTile n f).engs = s.engs ∧
    (s.setTile n f).starts = s.starts ∧ (s.setTile n f).ptp = s.ptp ∧ (s.setTile n f).sources = s.sources ∧
    (s.setTile n f).serial = s.serial ∧ (s.setTile n f).cans = s.cans ∧ (s.setTile n f).xbr = s.xbr ∧
    (s.setTile n f).host = s.host ∧ (s.setTile n f).dma = s.dma ∧ (s.setTile n f).cores = s.cores ∧
    (s.setTile n f).tcm = s.tcm ∧ (s.setTile n f).stwSram = s.stwSram ∧ (s.setTile n f).flash = s.flash ∧
    (s.setTile n f).boot = s.boot ∧ (s.setTile n f).otp = s.otp ∧ (s.setTile n f).sha = s.sha ∧ (s.setTile n f).pwr = s.pwr ∧
    (s.setTile n f).clk = s.clk ∧ (s.setTile n f).reply = s.reply ∧ (s.setTile n f).tclks = s.tclks ∧
    (s.setTile n f).freeTick = s.freeTick := by
  and_intros <;> rfl
@[simp] theorem State.setCtr_others (s : State) (n : Nat) (f : CtrSt → CtrSt) :
    (s.setCtr n f).pending = s.pending ∧ (s.setCtr n f).regs = s.regs ∧ (s.setCtr n f).frozen = s.frozen ∧
    (s.setCtr n f).heldIrq = s.heldIrq ∧ (s.setCtr n f).mbx = s.mbx ∧ (s.setCtr n f).ind = s.ind ∧
    (s.setCtr n f).stalls = s.stalls ∧ (s.setCtr n f).checks = s.checks ∧ (s.setCtr n f).gathers = s.gathers ∧
    (s.setCtr n f).ecc = s.ecc ∧ (s.setCtr n f).recSeq = s.recSeq ∧ (s.setCtr n f).time = s.time ∧
    (s.setCtr n f).mem = s.mem ∧ (s.setCtr n f).evq = s.evq ∧ (s.setCtr n f).msix = s.msix ∧
    (s.setCtr n f).msixPba = s.msixPba ∧ (s.setCtr n f).msixEnable = s.msixEnable ∧
    (s.setCtr n f).msixFuncMask = s.msixFuncMask ∧ (s.setCtr n f).hostTx = s.hostTx ∧ (s.setCtr n f).icu = s.icu ∧
    (s.setCtr n f).sram = s.sram ∧ (s.setCtr n f).lines = s.lines ∧ (s.setCtr n f).tiles = s.tiles ∧
    (s.setCtr n f).stampOrder = s.stampOrder ∧ (s.setCtr n f).stampsHeld = s.stampsHeld ∧ (s.setCtr n f).fifos = s.fifos ∧
    (s.setCtr n f).lease = s.lease ∧ (s.setCtr n f).plk = s.plk ∧ (s.setCtr n f).wins = s.wins ∧
    (s.setCtr n f).winOpen = s.winOpen ∧ (s.setCtr n f).winEdges = s.winEdges ∧ (s.setCtr n f).drill = s.drill ∧
    (s.setCtr n f).launches = s.launches ∧ (s.setCtr n f).rules = s.rules ∧ (s.setCtr n f).express = s.express ∧
    (s.setCtr n f).normal = s.normal ∧ (s.setCtr n f).eval = s.eval ∧ (s.setCtr n f).sigOps = s.sigOps ∧
    (s.setCtr n f).pubs = s.pubs ∧ (s.setCtr n f).pubOpen = s.pubOpen ∧ (s.setCtr n f).hbAt = s.hbAt ∧
    (s.setCtr n f).subs = s.subs ∧ (s.setCtr n f).net = s.net ∧ (s.setCtr n f).ring = s.ring ∧
    (s.setCtr n f).power = s.power ∧ (s.setCtr n f).pulseDone = s.pulseDone ∧ (s.setCtr n f).engs = s.engs ∧
    (s.setCtr n f).starts = s.starts ∧ (s.setCtr n f).ptp = s.ptp ∧ (s.setCtr n f).sources = s.sources ∧
    (s.setCtr n f).serial = s.serial ∧ (s.setCtr n f).cans = s.cans ∧ (s.setCtr n f).xbr = s.xbr ∧
    (s.setCtr n f).host = s.host ∧ (s.setCtr n f).dma = s.dma ∧ (s.setCtr n f).cores = s.cores ∧ (s.setCtr n f).tcm = s.tcm ∧
    (s.setCtr n f).stwSram = s.stwSram ∧ (s.setCtr n f).flash = s.flash ∧ (s.setCtr n f).boot = s.boot ∧
    (s.setCtr n f).otp = s.otp ∧ (s.setCtr n f).sha = s.sha ∧ (s.setCtr n f).pwr = s.pwr ∧ (s.setCtr n f).clk = s.clk ∧
    (s.setCtr n f).reply = s.reply ∧ (s.setCtr n f).tclks = s.tclks ∧ (s.setCtr n f).freeTick = s.freeTick := by
  and_intros <;> rfl
@[simp] theorem State.setFifo_others (s : State) (n : Nat) (f : FifoSt → FifoSt) :
    (s.setFifo n f).pending = s.pending ∧ (s.setFifo n f).regs = s.regs ∧ (s.setFifo n f).frozen = s.frozen ∧
    (s.setFifo n f).heldIrq = s.heldIrq ∧ (s.setFifo n f).mbx = s.mbx ∧ (s.setFifo n f).ind = s.ind ∧
    (s.setFifo n f).stalls = s.stalls ∧ (s.setFifo n f).checks = s.checks ∧ (s.setFifo n f).gathers = s.gathers ∧
    (s.setFifo n f).ecc = s.ecc ∧ (s.setFifo n f).recSeq = s.recSeq ∧ (s.setFifo n f).time = s.time ∧
    (s.setFifo n f).mem = s.mem ∧ (s.setFifo n f).evq = s.evq ∧ (s.setFifo n f).msix = s.msix ∧
    (s.setFifo n f).msixPba = s.msixPba ∧ (s.setFifo n f).msixEnable = s.msixEnable ∧
    (s.setFifo n f).msixFuncMask = s.msixFuncMask ∧ (s.setFifo n f).hostTx = s.hostTx ∧ (s.setFifo n f).icu = s.icu ∧
    (s.setFifo n f).sram = s.sram ∧ (s.setFifo n f).lines = s.lines ∧ (s.setFifo n f).tiles = s.tiles ∧
    (s.setFifo n f).stampOrder = s.stampOrder ∧ (s.setFifo n f).stampsHeld = s.stampsHeld ∧ (s.setFifo n f).ctrs = s.ctrs ∧
    (s.setFifo n f).lease = s.lease ∧ (s.setFifo n f).plk = s.plk ∧ (s.setFifo n f).wins = s.wins ∧
    (s.setFifo n f).winOpen = s.winOpen ∧ (s.setFifo n f).winEdges = s.winEdges ∧ (s.setFifo n f).drill = s.drill ∧
    (s.setFifo n f).launches = s.launches ∧ (s.setFifo n f).rules = s.rules ∧ (s.setFifo n f).express = s.express ∧
    (s.setFifo n f).normal = s.normal ∧ (s.setFifo n f).eval = s.eval ∧ (s.setFifo n f).sigOps = s.sigOps ∧
    (s.setFifo n f).pubs = s.pubs ∧ (s.setFifo n f).pubOpen = s.pubOpen ∧ (s.setFifo n f).hbAt = s.hbAt ∧
    (s.setFifo n f).subs = s.subs ∧ (s.setFifo n f).net = s.net ∧ (s.setFifo n f).ring = s.ring ∧
    (s.setFifo n f).power = s.power ∧ (s.setFifo n f).pulseDone = s.pulseDone ∧ (s.setFifo n f).engs = s.engs ∧
    (s.setFifo n f).starts = s.starts ∧ (s.setFifo n f).ptp = s.ptp ∧ (s.setFifo n f).sources = s.sources ∧
    (s.setFifo n f).serial = s.serial ∧ (s.setFifo n f).cans = s.cans ∧ (s.setFifo n f).xbr = s.xbr ∧
    (s.setFifo n f).host = s.host ∧ (s.setFifo n f).dma = s.dma ∧ (s.setFifo n f).cores = s.cores ∧
    (s.setFifo n f).tcm = s.tcm ∧ (s.setFifo n f).stwSram = s.stwSram ∧ (s.setFifo n f).flash = s.flash ∧
    (s.setFifo n f).boot = s.boot ∧ (s.setFifo n f).otp = s.otp ∧ (s.setFifo n f).sha = s.sha ∧ (s.setFifo n f).pwr = s.pwr ∧
    (s.setFifo n f).clk = s.clk ∧ (s.setFifo n f).reply = s.reply ∧ (s.setFifo n f).tclks = s.tclks ∧
    (s.setFifo n f).freeTick = s.freeTick := by
  and_intros <;> rfl
@[simp] theorem State.setEng_others (s : State) (n : Nat) (f : EngSt → EngSt) :
    (s.setEng n f).pending = s.pending ∧ (s.setEng n f).regs = s.regs ∧ (s.setEng n f).frozen = s.frozen ∧
    (s.setEng n f).heldIrq = s.heldIrq ∧ (s.setEng n f).mbx = s.mbx ∧ (s.setEng n f).ind = s.ind ∧
    (s.setEng n f).stalls = s.stalls ∧ (s.setEng n f).checks = s.checks ∧ (s.setEng n f).gathers = s.gathers ∧
    (s.setEng n f).ecc = s.ecc ∧ (s.setEng n f).recSeq = s.recSeq ∧ (s.setEng n f).time = s.time ∧
    (s.setEng n f).mem = s.mem ∧ (s.setEng n f).evq = s.evq ∧ (s.setEng n f).msix = s.msix ∧
    (s.setEng n f).msixPba = s.msixPba ∧ (s.setEng n f).msixEnable = s.msixEnable ∧
    (s.setEng n f).msixFuncMask = s.msixFuncMask ∧ (s.setEng n f).hostTx = s.hostTx ∧ (s.setEng n f).icu = s.icu ∧
    (s.setEng n f).sram = s.sram ∧ (s.setEng n f).lines = s.lines ∧ (s.setEng n f).tiles = s.tiles ∧
    (s.setEng n f).stampOrder = s.stampOrder ∧ (s.setEng n f).stampsHeld = s.stampsHeld ∧ (s.setEng n f).ctrs = s.ctrs ∧
    (s.setEng n f).fifos = s.fifos ∧ (s.setEng n f).lease = s.lease ∧ (s.setEng n f).plk = s.plk ∧
    (s.setEng n f).wins = s.wins ∧ (s.setEng n f).winOpen = s.winOpen ∧ (s.setEng n f).winEdges = s.winEdges ∧
    (s.setEng n f).drill = s.drill ∧ (s.setEng n f).launches = s.launches ∧ (s.setEng n f).rules = s.rules ∧
    (s.setEng n f).express = s.express ∧ (s.setEng n f).normal = s.normal ∧ (s.setEng n f).eval = s.eval ∧
    (s.setEng n f).sigOps = s.sigOps ∧ (s.setEng n f).pubs = s.pubs ∧ (s.setEng n f).pubOpen = s.pubOpen ∧
    (s.setEng n f).hbAt = s.hbAt ∧ (s.setEng n f).subs = s.subs ∧ (s.setEng n f).net = s.net ∧ (s.setEng n f).ring = s.ring ∧
    (s.setEng n f).power = s.power ∧ (s.setEng n f).pulseDone = s.pulseDone ∧ (s.setEng n f).starts = s.starts ∧
    (s.setEng n f).ptp = s.ptp ∧ (s.setEng n f).sources = s.sources ∧ (s.setEng n f).serial = s.serial ∧
    (s.setEng n f).cans = s.cans ∧ (s.setEng n f).xbr = s.xbr ∧ (s.setEng n f).host = s.host ∧ (s.setEng n f).dma = s.dma ∧
    (s.setEng n f).cores = s.cores ∧ (s.setEng n f).tcm = s.tcm ∧ (s.setEng n f).stwSram = s.stwSram ∧
    (s.setEng n f).flash = s.flash ∧ (s.setEng n f).boot = s.boot ∧ (s.setEng n f).otp = s.otp ∧ (s.setEng n f).sha = s.sha ∧
    (s.setEng n f).pwr = s.pwr ∧ (s.setEng n f).clk = s.clk ∧ (s.setEng n f).reply = s.reply ∧
    (s.setEng n f).tclks = s.tclks ∧ (s.setEng n f).freeTick = s.freeTick := by
  and_intros <;> rfl
@[simp] theorem State.setWin_others (s : State) (n : Nat) (f : WinEnt → WinEnt) :
    (s.setWin n f).pending = s.pending ∧ (s.setWin n f).regs = s.regs ∧ (s.setWin n f).frozen = s.frozen ∧
    (s.setWin n f).heldIrq = s.heldIrq ∧ (s.setWin n f).mbx = s.mbx ∧ (s.setWin n f).ind = s.ind ∧
    (s.setWin n f).stalls = s.stalls ∧ (s.setWin n f).checks = s.checks ∧ (s.setWin n f).gathers = s.gathers ∧
    (s.setWin n f).ecc = s.ecc ∧ (s.setWin n f).recSeq = s.recSeq ∧ (s.setWin n f).time = s.time ∧
    (s.setWin n f).mem = s.mem ∧ (s.setWin n f).evq = s.evq ∧ (s.setWin n f).msix = s.msix ∧
    (s.setWin n f).msixPba = s.msixPba ∧ (s.setWin n f).msixEnable = s.msixEnable ∧
    (s.setWin n f).msixFuncMask = s.msixFuncMask ∧ (s.setWin n f).hostTx = s.hostTx ∧ (s.setWin n f).icu = s.icu ∧
    (s.setWin n f).sram = s.sram ∧ (s.setWin n f).lines = s.lines ∧ (s.setWin n f).tiles = s.tiles ∧
    (s.setWin n f).stampOrder = s.stampOrder ∧ (s.setWin n f).stampsHeld = s.stampsHeld ∧ (s.setWin n f).ctrs = s.ctrs ∧
    (s.setWin n f).fifos = s.fifos ∧ (s.setWin n f).lease = s.lease ∧ (s.setWin n f).plk = s.plk ∧
    (s.setWin n f).winOpen = s.winOpen ∧ (s.setWin n f).winEdges = s.winEdges ∧ (s.setWin n f).drill = s.drill ∧
    (s.setWin n f).launches = s.launches ∧ (s.setWin n f).rules = s.rules ∧ (s.setWin n f).express = s.express ∧
    (s.setWin n f).normal = s.normal ∧ (s.setWin n f).eval = s.eval ∧ (s.setWin n f).sigOps = s.sigOps ∧
    (s.setWin n f).pubs = s.pubs ∧ (s.setWin n f).pubOpen = s.pubOpen ∧ (s.setWin n f).hbAt = s.hbAt ∧
    (s.setWin n f).subs = s.subs ∧ (s.setWin n f).net = s.net ∧ (s.setWin n f).ring = s.ring ∧
    (s.setWin n f).power = s.power ∧ (s.setWin n f).pulseDone = s.pulseDone ∧ (s.setWin n f).engs = s.engs ∧
    (s.setWin n f).starts = s.starts ∧ (s.setWin n f).ptp = s.ptp ∧ (s.setWin n f).sources = s.sources ∧
    (s.setWin n f).serial = s.serial ∧ (s.setWin n f).cans = s.cans ∧ (s.setWin n f).xbr = s.xbr ∧
    (s.setWin n f).host = s.host ∧ (s.setWin n f).dma = s.dma ∧ (s.setWin n f).cores = s.cores ∧ (s.setWin n f).tcm = s.tcm ∧
    (s.setWin n f).stwSram = s.stwSram ∧ (s.setWin n f).flash = s.flash ∧ (s.setWin n f).boot = s.boot ∧
    (s.setWin n f).otp = s.otp ∧ (s.setWin n f).sha = s.sha ∧ (s.setWin n f).pwr = s.pwr ∧ (s.setWin n f).clk = s.clk ∧
    (s.setWin n f).reply = s.reply ∧ (s.setWin n f).tclks = s.tclks ∧ (s.setWin n f).freeTick = s.freeTick := by
  and_intros <;> rfl
@[simp] theorem State.setDrl_others (s : State) (n : Nat) (f : DrillEnt → DrillEnt) :
    (s.setDrl n f).pending = s.pending ∧ (s.setDrl n f).regs = s.regs ∧ (s.setDrl n f).frozen = s.frozen ∧
    (s.setDrl n f).heldIrq = s.heldIrq ∧ (s.setDrl n f).mbx = s.mbx ∧ (s.setDrl n f).ind = s.ind ∧
    (s.setDrl n f).stalls = s.stalls ∧ (s.setDrl n f).checks = s.checks ∧ (s.setDrl n f).gathers = s.gathers ∧
    (s.setDrl n f).ecc = s.ecc ∧ (s.setDrl n f).recSeq = s.recSeq ∧ (s.setDrl n f).time = s.time ∧
    (s.setDrl n f).mem = s.mem ∧ (s.setDrl n f).evq = s.evq ∧ (s.setDrl n f).msix = s.msix ∧
    (s.setDrl n f).msixPba = s.msixPba ∧ (s.setDrl n f).msixEnable = s.msixEnable ∧
    (s.setDrl n f).msixFuncMask = s.msixFuncMask ∧ (s.setDrl n f).hostTx = s.hostTx ∧ (s.setDrl n f).icu = s.icu ∧
    (s.setDrl n f).sram = s.sram ∧ (s.setDrl n f).lines = s.lines ∧ (s.setDrl n f).tiles = s.tiles ∧
    (s.setDrl n f).stampOrder = s.stampOrder ∧ (s.setDrl n f).stampsHeld = s.stampsHeld ∧ (s.setDrl n f).ctrs = s.ctrs ∧
    (s.setDrl n f).fifos = s.fifos ∧ (s.setDrl n f).lease = s.lease ∧ (s.setDrl n f).plk = s.plk ∧
    (s.setDrl n f).wins = s.wins ∧ (s.setDrl n f).winOpen = s.winOpen ∧ (s.setDrl n f).winEdges = s.winEdges ∧
    (s.setDrl n f).launches = s.launches ∧ (s.setDrl n f).rules = s.rules ∧ (s.setDrl n f).express = s.express ∧
    (s.setDrl n f).normal = s.normal ∧ (s.setDrl n f).eval = s.eval ∧ (s.setDrl n f).sigOps = s.sigOps ∧
    (s.setDrl n f).pubs = s.pubs ∧ (s.setDrl n f).pubOpen = s.pubOpen ∧ (s.setDrl n f).hbAt = s.hbAt ∧
    (s.setDrl n f).subs = s.subs ∧ (s.setDrl n f).net = s.net ∧ (s.setDrl n f).ring = s.ring ∧
    (s.setDrl n f).power = s.power ∧ (s.setDrl n f).pulseDone = s.pulseDone ∧ (s.setDrl n f).engs = s.engs ∧
    (s.setDrl n f).starts = s.starts ∧ (s.setDrl n f).ptp = s.ptp ∧ (s.setDrl n f).sources = s.sources ∧
    (s.setDrl n f).serial = s.serial ∧ (s.setDrl n f).cans = s.cans ∧ (s.setDrl n f).xbr = s.xbr ∧
    (s.setDrl n f).host = s.host ∧ (s.setDrl n f).dma = s.dma ∧ (s.setDrl n f).cores = s.cores ∧ (s.setDrl n f).tcm = s.tcm ∧
    (s.setDrl n f).stwSram = s.stwSram ∧ (s.setDrl n f).flash = s.flash ∧ (s.setDrl n f).boot = s.boot ∧
    (s.setDrl n f).otp = s.otp ∧ (s.setDrl n f).sha = s.sha ∧ (s.setDrl n f).pwr = s.pwr ∧ (s.setDrl n f).clk = s.clk ∧
    (s.setDrl n f).reply = s.reply ∧ (s.setDrl n f).tclks = s.tclks ∧ (s.setDrl n f).freeTick = s.freeTick := by
  and_intros <;> rfl
@[simp] theorem State.setSub_others (s : State) (n : Nat) (f : SubEnt → SubEnt) :
    (s.setSub n f).pending = s.pending ∧ (s.setSub n f).regs = s.regs ∧ (s.setSub n f).frozen = s.frozen ∧
    (s.setSub n f).heldIrq = s.heldIrq ∧ (s.setSub n f).mbx = s.mbx ∧ (s.setSub n f).ind = s.ind ∧
    (s.setSub n f).stalls = s.stalls ∧ (s.setSub n f).checks = s.checks ∧ (s.setSub n f).gathers = s.gathers ∧
    (s.setSub n f).ecc = s.ecc ∧ (s.setSub n f).recSeq = s.recSeq ∧ (s.setSub n f).time = s.time ∧
    (s.setSub n f).mem = s.mem ∧ (s.setSub n f).evq = s.evq ∧ (s.setSub n f).msix = s.msix ∧
    (s.setSub n f).msixPba = s.msixPba ∧ (s.setSub n f).msixEnable = s.msixEnable ∧
    (s.setSub n f).msixFuncMask = s.msixFuncMask ∧ (s.setSub n f).hostTx = s.hostTx ∧ (s.setSub n f).icu = s.icu ∧
    (s.setSub n f).sram = s.sram ∧ (s.setSub n f).lines = s.lines ∧ (s.setSub n f).tiles = s.tiles ∧
    (s.setSub n f).stampOrder = s.stampOrder ∧ (s.setSub n f).stampsHeld = s.stampsHeld ∧ (s.setSub n f).ctrs = s.ctrs ∧
    (s.setSub n f).fifos = s.fifos ∧ (s.setSub n f).lease = s.lease ∧ (s.setSub n f).plk = s.plk ∧
    (s.setSub n f).wins = s.wins ∧ (s.setSub n f).winOpen = s.winOpen ∧ (s.setSub n f).winEdges = s.winEdges ∧
    (s.setSub n f).drill = s.drill ∧ (s.setSub n f).launches = s.launches ∧ (s.setSub n f).rules = s.rules ∧
    (s.setSub n f).express = s.express ∧ (s.setSub n f).normal = s.normal ∧ (s.setSub n f).eval = s.eval ∧
    (s.setSub n f).sigOps = s.sigOps ∧ (s.setSub n f).pubs = s.pubs ∧ (s.setSub n f).pubOpen = s.pubOpen ∧
    (s.setSub n f).hbAt = s.hbAt ∧ (s.setSub n f).net = s.net ∧ (s.setSub n f).ring = s.ring ∧
    (s.setSub n f).power = s.power ∧ (s.setSub n f).pulseDone = s.pulseDone ∧ (s.setSub n f).engs = s.engs ∧
    (s.setSub n f).starts = s.starts ∧ (s.setSub n f).ptp = s.ptp ∧ (s.setSub n f).sources = s.sources ∧
    (s.setSub n f).serial = s.serial ∧ (s.setSub n f).cans = s.cans ∧ (s.setSub n f).xbr = s.xbr ∧
    (s.setSub n f).host = s.host ∧ (s.setSub n f).dma = s.dma ∧ (s.setSub n f).cores = s.cores ∧ (s.setSub n f).tcm = s.tcm ∧
    (s.setSub n f).stwSram = s.stwSram ∧ (s.setSub n f).flash = s.flash ∧ (s.setSub n f).boot = s.boot ∧
    (s.setSub n f).otp = s.otp ∧ (s.setSub n f).sha = s.sha ∧ (s.setSub n f).pwr = s.pwr ∧ (s.setSub n f).clk = s.clk ∧
    (s.setSub n f).reply = s.reply ∧ (s.setSub n f).tclks = s.tclks ∧ (s.setSub n f).freeTick = s.freeTick := by
  and_intros <;> rfl
@[simp] theorem State.setPub_others (s : State) (n : Nat) (f : PubSlot → PubSlot) :
    (s.setPub n f).pending = s.pending ∧ (s.setPub n f).regs = s.regs ∧ (s.setPub n f).frozen = s.frozen ∧
    (s.setPub n f).heldIrq = s.heldIrq ∧ (s.setPub n f).mbx = s.mbx ∧ (s.setPub n f).ind = s.ind ∧
    (s.setPub n f).stalls = s.stalls ∧ (s.setPub n f).checks = s.checks ∧ (s.setPub n f).gathers = s.gathers ∧
    (s.setPub n f).ecc = s.ecc ∧ (s.setPub n f).recSeq = s.recSeq ∧ (s.setPub n f).time = s.time ∧
    (s.setPub n f).mem = s.mem ∧ (s.setPub n f).evq = s.evq ∧ (s.setPub n f).msix = s.msix ∧
    (s.setPub n f).msixPba = s.msixPba ∧ (s.setPub n f).msixEnable = s.msixEnable ∧
    (s.setPub n f).msixFuncMask = s.msixFuncMask ∧ (s.setPub n f).hostTx = s.hostTx ∧ (s.setPub n f).icu = s.icu ∧
    (s.setPub n f).sram = s.sram ∧ (s.setPub n f).lines = s.lines ∧ (s.setPub n f).tiles = s.tiles ∧
    (s.setPub n f).stampOrder = s.stampOrder ∧ (s.setPub n f).stampsHeld = s.stampsHeld ∧ (s.setPub n f).ctrs = s.ctrs ∧
    (s.setPub n f).fifos = s.fifos ∧ (s.setPub n f).lease = s.lease ∧ (s.setPub n f).plk = s.plk ∧
    (s.setPub n f).wins = s.wins ∧ (s.setPub n f).winOpen = s.winOpen ∧ (s.setPub n f).winEdges = s.winEdges ∧
    (s.setPub n f).drill = s.drill ∧ (s.setPub n f).launches = s.launches ∧ (s.setPub n f).rules = s.rules ∧
    (s.setPub n f).express = s.express ∧ (s.setPub n f).normal = s.normal ∧ (s.setPub n f).eval = s.eval ∧
    (s.setPub n f).sigOps = s.sigOps ∧ (s.setPub n f).pubOpen = s.pubOpen ∧ (s.setPub n f).hbAt = s.hbAt ∧
    (s.setPub n f).subs = s.subs ∧ (s.setPub n f).net = s.net ∧ (s.setPub n f).ring = s.ring ∧
    (s.setPub n f).power = s.power ∧ (s.setPub n f).pulseDone = s.pulseDone ∧ (s.setPub n f).engs = s.engs ∧
    (s.setPub n f).starts = s.starts ∧ (s.setPub n f).ptp = s.ptp ∧ (s.setPub n f).sources = s.sources ∧
    (s.setPub n f).serial = s.serial ∧ (s.setPub n f).cans = s.cans ∧ (s.setPub n f).xbr = s.xbr ∧
    (s.setPub n f).host = s.host ∧ (s.setPub n f).dma = s.dma ∧ (s.setPub n f).cores = s.cores ∧ (s.setPub n f).tcm = s.tcm ∧
    (s.setPub n f).stwSram = s.stwSram ∧ (s.setPub n f).flash = s.flash ∧ (s.setPub n f).boot = s.boot ∧
    (s.setPub n f).otp = s.otp ∧ (s.setPub n f).sha = s.sha ∧ (s.setPub n f).pwr = s.pwr ∧ (s.setPub n f).clk = s.clk ∧
    (s.setPub n f).reply = s.reply ∧ (s.setPub n f).tclks = s.tclks ∧ (s.setPub n f).freeTick = s.freeTick := by
  and_intros <;> rfl
@[simp] theorem State.setSer_others (s : State) (n : Nat) (f : SerSt → SerSt) :
    (s.setSer n f).pending = s.pending ∧ (s.setSer n f).regs = s.regs ∧ (s.setSer n f).frozen = s.frozen ∧
    (s.setSer n f).heldIrq = s.heldIrq ∧ (s.setSer n f).mbx = s.mbx ∧ (s.setSer n f).ind = s.ind ∧
    (s.setSer n f).stalls = s.stalls ∧ (s.setSer n f).checks = s.checks ∧ (s.setSer n f).gathers = s.gathers ∧
    (s.setSer n f).ecc = s.ecc ∧ (s.setSer n f).recSeq = s.recSeq ∧ (s.setSer n f).time = s.time ∧
    (s.setSer n f).mem = s.mem ∧ (s.setSer n f).evq = s.evq ∧ (s.setSer n f).msix = s.msix ∧
    (s.setSer n f).msixPba = s.msixPba ∧ (s.setSer n f).msixEnable = s.msixEnable ∧
    (s.setSer n f).msixFuncMask = s.msixFuncMask ∧ (s.setSer n f).hostTx = s.hostTx ∧ (s.setSer n f).icu = s.icu ∧
    (s.setSer n f).sram = s.sram ∧ (s.setSer n f).lines = s.lines ∧ (s.setSer n f).tiles = s.tiles ∧
    (s.setSer n f).stampOrder = s.stampOrder ∧ (s.setSer n f).stampsHeld = s.stampsHeld ∧ (s.setSer n f).ctrs = s.ctrs ∧
    (s.setSer n f).fifos = s.fifos ∧ (s.setSer n f).lease = s.lease ∧ (s.setSer n f).plk = s.plk ∧
    (s.setSer n f).wins = s.wins ∧ (s.setSer n f).winOpen = s.winOpen ∧ (s.setSer n f).winEdges = s.winEdges ∧
    (s.setSer n f).drill = s.drill ∧ (s.setSer n f).launches = s.launches ∧ (s.setSer n f).rules = s.rules ∧
    (s.setSer n f).express = s.express ∧ (s.setSer n f).normal = s.normal ∧ (s.setSer n f).eval = s.eval ∧
    (s.setSer n f).sigOps = s.sigOps ∧ (s.setSer n f).pubs = s.pubs ∧ (s.setSer n f).pubOpen = s.pubOpen ∧
    (s.setSer n f).hbAt = s.hbAt ∧ (s.setSer n f).subs = s.subs ∧ (s.setSer n f).net = s.net ∧ (s.setSer n f).ring = s.ring ∧
    (s.setSer n f).power = s.power ∧ (s.setSer n f).pulseDone = s.pulseDone ∧ (s.setSer n f).engs = s.engs ∧
    (s.setSer n f).starts = s.starts ∧ (s.setSer n f).ptp = s.ptp ∧ (s.setSer n f).sources = s.sources ∧
    (s.setSer n f).cans = s.cans ∧ (s.setSer n f).xbr = s.xbr ∧ (s.setSer n f).host = s.host ∧ (s.setSer n f).dma = s.dma ∧
    (s.setSer n f).cores = s.cores ∧ (s.setSer n f).tcm = s.tcm ∧ (s.setSer n f).stwSram = s.stwSram ∧
    (s.setSer n f).flash = s.flash ∧ (s.setSer n f).boot = s.boot ∧ (s.setSer n f).otp = s.otp ∧ (s.setSer n f).sha = s.sha ∧
    (s.setSer n f).pwr = s.pwr ∧ (s.setSer n f).clk = s.clk ∧ (s.setSer n f).reply = s.reply ∧
    (s.setSer n f).tclks = s.tclks ∧ (s.setSer n f).freeTick = s.freeTick := by
  and_intros <;> rfl
@[simp] theorem State.setCan_others (s : State) (n : Nat) (f : CanSt → CanSt) :
    (s.setCan n f).pending = s.pending ∧ (s.setCan n f).regs = s.regs ∧ (s.setCan n f).frozen = s.frozen ∧
    (s.setCan n f).heldIrq = s.heldIrq ∧ (s.setCan n f).mbx = s.mbx ∧ (s.setCan n f).ind = s.ind ∧
    (s.setCan n f).stalls = s.stalls ∧ (s.setCan n f).checks = s.checks ∧ (s.setCan n f).gathers = s.gathers ∧
    (s.setCan n f).ecc = s.ecc ∧ (s.setCan n f).recSeq = s.recSeq ∧ (s.setCan n f).time = s.time ∧
    (s.setCan n f).mem = s.mem ∧ (s.setCan n f).evq = s.evq ∧ (s.setCan n f).msix = s.msix ∧
    (s.setCan n f).msixPba = s.msixPba ∧ (s.setCan n f).msixEnable = s.msixEnable ∧
    (s.setCan n f).msixFuncMask = s.msixFuncMask ∧ (s.setCan n f).hostTx = s.hostTx ∧ (s.setCan n f).icu = s.icu ∧
    (s.setCan n f).sram = s.sram ∧ (s.setCan n f).lines = s.lines ∧ (s.setCan n f).tiles = s.tiles ∧
    (s.setCan n f).stampOrder = s.stampOrder ∧ (s.setCan n f).stampsHeld = s.stampsHeld ∧ (s.setCan n f).ctrs = s.ctrs ∧
    (s.setCan n f).fifos = s.fifos ∧ (s.setCan n f).lease = s.lease ∧ (s.setCan n f).plk = s.plk ∧
    (s.setCan n f).wins = s.wins ∧ (s.setCan n f).winOpen = s.winOpen ∧ (s.setCan n f).winEdges = s.winEdges ∧
    (s.setCan n f).drill = s.drill ∧ (s.setCan n f).launches = s.launches ∧ (s.setCan n f).rules = s.rules ∧
    (s.setCan n f).express = s.express ∧ (s.setCan n f).normal = s.normal ∧ (s.setCan n f).eval = s.eval ∧
    (s.setCan n f).sigOps = s.sigOps ∧ (s.setCan n f).pubs = s.pubs ∧ (s.setCan n f).pubOpen = s.pubOpen ∧
    (s.setCan n f).hbAt = s.hbAt ∧ (s.setCan n f).subs = s.subs ∧ (s.setCan n f).net = s.net ∧ (s.setCan n f).ring = s.ring ∧
    (s.setCan n f).power = s.power ∧ (s.setCan n f).pulseDone = s.pulseDone ∧ (s.setCan n f).engs = s.engs ∧
    (s.setCan n f).starts = s.starts ∧ (s.setCan n f).ptp = s.ptp ∧ (s.setCan n f).sources = s.sources ∧
    (s.setCan n f).serial = s.serial ∧ (s.setCan n f).xbr = s.xbr ∧ (s.setCan n f).host = s.host ∧
    (s.setCan n f).dma = s.dma ∧ (s.setCan n f).cores = s.cores ∧ (s.setCan n f).tcm = s.tcm ∧
    (s.setCan n f).stwSram = s.stwSram ∧ (s.setCan n f).flash = s.flash ∧ (s.setCan n f).boot = s.boot ∧
    (s.setCan n f).otp = s.otp ∧ (s.setCan n f).sha = s.sha ∧ (s.setCan n f).pwr = s.pwr ∧ (s.setCan n f).clk = s.clk ∧
    (s.setCan n f).reply = s.reply ∧ (s.setCan n f).tclks = s.tclks ∧ (s.setCan n f).freeTick = s.freeTick := by
  and_intros <;> rfl
@[simp] theorem State.setDma_others (s : State) (n : Nat) (f : DmaSt → DmaSt) :
    (s.setDma n f).pending = s.pending ∧ (s.setDma n f).regs = s.regs ∧ (s.setDma n f).frozen = s.frozen ∧
    (s.setDma n f).heldIrq = s.heldIrq ∧ (s.setDma n f).mbx = s.mbx ∧ (s.setDma n f).ind = s.ind ∧
    (s.setDma n f).stalls = s.stalls ∧ (s.setDma n f).checks = s.checks ∧ (s.setDma n f).gathers = s.gathers ∧
    (s.setDma n f).ecc = s.ecc ∧ (s.setDma n f).recSeq = s.recSeq ∧ (s.setDma n f).time = s.time ∧
    (s.setDma n f).mem = s.mem ∧ (s.setDma n f).evq = s.evq ∧ (s.setDma n f).msix = s.msix ∧
    (s.setDma n f).msixPba = s.msixPba ∧ (s.setDma n f).msixEnable = s.msixEnable ∧
    (s.setDma n f).msixFuncMask = s.msixFuncMask ∧ (s.setDma n f).hostTx = s.hostTx ∧ (s.setDma n f).icu = s.icu ∧
    (s.setDma n f).sram = s.sram ∧ (s.setDma n f).lines = s.lines ∧ (s.setDma n f).tiles = s.tiles ∧
    (s.setDma n f).stampOrder = s.stampOrder ∧ (s.setDma n f).stampsHeld = s.stampsHeld ∧ (s.setDma n f).ctrs = s.ctrs ∧
    (s.setDma n f).fifos = s.fifos ∧ (s.setDma n f).lease = s.lease ∧ (s.setDma n f).plk = s.plk ∧
    (s.setDma n f).wins = s.wins ∧ (s.setDma n f).winOpen = s.winOpen ∧ (s.setDma n f).winEdges = s.winEdges ∧
    (s.setDma n f).drill = s.drill ∧ (s.setDma n f).launches = s.launches ∧ (s.setDma n f).rules = s.rules ∧
    (s.setDma n f).express = s.express ∧ (s.setDma n f).normal = s.normal ∧ (s.setDma n f).eval = s.eval ∧
    (s.setDma n f).sigOps = s.sigOps ∧ (s.setDma n f).pubs = s.pubs ∧ (s.setDma n f).pubOpen = s.pubOpen ∧
    (s.setDma n f).hbAt = s.hbAt ∧ (s.setDma n f).subs = s.subs ∧ (s.setDma n f).net = s.net ∧ (s.setDma n f).ring = s.ring ∧
    (s.setDma n f).power = s.power ∧ (s.setDma n f).pulseDone = s.pulseDone ∧ (s.setDma n f).engs = s.engs ∧
    (s.setDma n f).starts = s.starts ∧ (s.setDma n f).ptp = s.ptp ∧ (s.setDma n f).sources = s.sources ∧
    (s.setDma n f).serial = s.serial ∧ (s.setDma n f).cans = s.cans ∧ (s.setDma n f).xbr = s.xbr ∧
    (s.setDma n f).host = s.host ∧ (s.setDma n f).cores = s.cores ∧ (s.setDma n f).tcm = s.tcm ∧
    (s.setDma n f).stwSram = s.stwSram ∧ (s.setDma n f).flash = s.flash ∧ (s.setDma n f).boot = s.boot ∧
    (s.setDma n f).otp = s.otp ∧ (s.setDma n f).sha = s.sha ∧ (s.setDma n f).pwr = s.pwr ∧ (s.setDma n f).clk = s.clk ∧
    (s.setDma n f).reply = s.reply ∧ (s.setDma n f).tclks = s.tclks ∧ (s.setDma n f).freeTick = s.freeTick := by
  and_intros <;> rfl
@[simp] theorem State.setCore_others (s : State) (n : Nat) (f : CoreSt → CoreSt) :
    (s.setCore n f).pending = s.pending ∧ (s.setCore n f).regs = s.regs ∧ (s.setCore n f).frozen = s.frozen ∧
    (s.setCore n f).heldIrq = s.heldIrq ∧ (s.setCore n f).mbx = s.mbx ∧ (s.setCore n f).ind = s.ind ∧
    (s.setCore n f).stalls = s.stalls ∧ (s.setCore n f).checks = s.checks ∧ (s.setCore n f).gathers = s.gathers ∧
    (s.setCore n f).ecc = s.ecc ∧ (s.setCore n f).recSeq = s.recSeq ∧ (s.setCore n f).time = s.time ∧
    (s.setCore n f).mem = s.mem ∧ (s.setCore n f).evq = s.evq ∧ (s.setCore n f).msix = s.msix ∧
    (s.setCore n f).msixPba = s.msixPba ∧ (s.setCore n f).msixEnable = s.msixEnable ∧
    (s.setCore n f).msixFuncMask = s.msixFuncMask ∧ (s.setCore n f).hostTx = s.hostTx ∧ (s.setCore n f).icu = s.icu ∧
    (s.setCore n f).sram = s.sram ∧ (s.setCore n f).lines = s.lines ∧ (s.setCore n f).tiles = s.tiles ∧
    (s.setCore n f).stampOrder = s.stampOrder ∧ (s.setCore n f).stampsHeld = s.stampsHeld ∧ (s.setCore n f).ctrs = s.ctrs ∧
    (s.setCore n f).fifos = s.fifos ∧ (s.setCore n f).lease = s.lease ∧ (s.setCore n f).plk = s.plk ∧
    (s.setCore n f).wins = s.wins ∧ (s.setCore n f).winOpen = s.winOpen ∧ (s.setCore n f).winEdges = s.winEdges ∧
    (s.setCore n f).drill = s.drill ∧ (s.setCore n f).launches = s.launches ∧ (s.setCore n f).rules = s.rules ∧
    (s.setCore n f).express = s.express ∧ (s.setCore n f).normal = s.normal ∧ (s.setCore n f).eval = s.eval ∧
    (s.setCore n f).sigOps = s.sigOps ∧ (s.setCore n f).pubs = s.pubs ∧ (s.setCore n f).pubOpen = s.pubOpen ∧
    (s.setCore n f).hbAt = s.hbAt ∧ (s.setCore n f).subs = s.subs ∧ (s.setCore n f).net = s.net ∧
    (s.setCore n f).ring = s.ring ∧ (s.setCore n f).power = s.power ∧ (s.setCore n f).pulseDone = s.pulseDone ∧
    (s.setCore n f).engs = s.engs ∧ (s.setCore n f).starts = s.starts ∧ (s.setCore n f).ptp = s.ptp ∧
    (s.setCore n f).sources = s.sources ∧ (s.setCore n f).serial = s.serial ∧ (s.setCore n f).cans = s.cans ∧
    (s.setCore n f).xbr = s.xbr ∧ (s.setCore n f).host = s.host ∧ (s.setCore n f).dma = s.dma ∧ (s.setCore n f).tcm = s.tcm ∧
    (s.setCore n f).stwSram = s.stwSram ∧ (s.setCore n f).flash = s.flash ∧ (s.setCore n f).boot = s.boot ∧
    (s.setCore n f).otp = s.otp ∧ (s.setCore n f).sha = s.sha ∧ (s.setCore n f).pwr = s.pwr ∧ (s.setCore n f).clk = s.clk ∧
    (s.setCore n f).reply = s.reply ∧ (s.setCore n f).tclks = s.tclks ∧ (s.setCore n f).freeTick = s.freeTick := by
  and_intros <;> rfl
@[simp] theorem State.setSource_others (s : State) (n : Nat) (f : LocalSrc → LocalSrc) :
    (s.setSource n f).pending = s.pending ∧ (s.setSource n f).regs = s.regs ∧ (s.setSource n f).frozen = s.frozen ∧
    (s.setSource n f).heldIrq = s.heldIrq ∧ (s.setSource n f).mbx = s.mbx ∧ (s.setSource n f).ind = s.ind ∧
    (s.setSource n f).stalls = s.stalls ∧ (s.setSource n f).checks = s.checks ∧ (s.setSource n f).gathers = s.gathers ∧
    (s.setSource n f).ecc = s.ecc ∧ (s.setSource n f).recSeq = s.recSeq ∧ (s.setSource n f).time = s.time ∧
    (s.setSource n f).mem = s.mem ∧ (s.setSource n f).evq = s.evq ∧ (s.setSource n f).msix = s.msix ∧
    (s.setSource n f).msixPba = s.msixPba ∧ (s.setSource n f).msixEnable = s.msixEnable ∧
    (s.setSource n f).msixFuncMask = s.msixFuncMask ∧ (s.setSource n f).hostTx = s.hostTx ∧ (s.setSource n f).icu = s.icu ∧
    (s.setSource n f).sram = s.sram ∧ (s.setSource n f).lines = s.lines ∧ (s.setSource n f).tiles = s.tiles ∧
    (s.setSource n f).stampOrder = s.stampOrder ∧ (s.setSource n f).stampsHeld = s.stampsHeld ∧
    (s.setSource n f).ctrs = s.ctrs ∧ (s.setSource n f).fifos = s.fifos ∧ (s.setSource n f).lease = s.lease ∧
    (s.setSource n f).plk = s.plk ∧ (s.setSource n f).wins = s.wins ∧ (s.setSource n f).winOpen = s.winOpen ∧
    (s.setSource n f).winEdges = s.winEdges ∧ (s.setSource n f).drill = s.drill ∧ (s.setSource n f).launches = s.launches ∧
    (s.setSource n f).rules = s.rules ∧ (s.setSource n f).express = s.express ∧ (s.setSource n f).normal = s.normal ∧
    (s.setSource n f).eval = s.eval ∧ (s.setSource n f).sigOps = s.sigOps ∧ (s.setSource n f).pubs = s.pubs ∧
    (s.setSource n f).pubOpen = s.pubOpen ∧ (s.setSource n f).hbAt = s.hbAt ∧ (s.setSource n f).subs = s.subs ∧
    (s.setSource n f).net = s.net ∧ (s.setSource n f).ring = s.ring ∧ (s.setSource n f).power = s.power ∧
    (s.setSource n f).pulseDone = s.pulseDone ∧ (s.setSource n f).engs = s.engs ∧ (s.setSource n f).starts = s.starts ∧
    (s.setSource n f).ptp = s.ptp ∧ (s.setSource n f).serial = s.serial ∧ (s.setSource n f).cans = s.cans ∧
    (s.setSource n f).xbr = s.xbr ∧ (s.setSource n f).host = s.host ∧ (s.setSource n f).dma = s.dma ∧
    (s.setSource n f).cores = s.cores ∧ (s.setSource n f).tcm = s.tcm ∧ (s.setSource n f).stwSram = s.stwSram ∧
    (s.setSource n f).flash = s.flash ∧ (s.setSource n f).boot = s.boot ∧ (s.setSource n f).otp = s.otp ∧
    (s.setSource n f).sha = s.sha ∧ (s.setSource n f).pwr = s.pwr ∧ (s.setSource n f).clk = s.clk ∧
    (s.setSource n f).reply = s.reply ∧ (s.setSource n f).tclks = s.tclks ∧ (s.setSource n f).freeTick = s.freeTick := by
  and_intros <;> rfl
@[simp] theorem State.setLink_others (s : State) (n : Nat) (f : LinkSt → LinkSt) :
    (s.setLink n f).pending = s.pending ∧ (s.setLink n f).regs = s.regs ∧ (s.setLink n f).frozen = s.frozen ∧
    (s.setLink n f).heldIrq = s.heldIrq ∧ (s.setLink n f).mbx = s.mbx ∧ (s.setLink n f).ind = s.ind ∧
    (s.setLink n f).stalls = s.stalls ∧ (s.setLink n f).checks = s.checks ∧ (s.setLink n f).gathers = s.gathers ∧
    (s.setLink n f).ecc = s.ecc ∧ (s.setLink n f).recSeq = s.recSeq ∧ (s.setLink n f).time = s.time ∧
    (s.setLink n f).mem = s.mem ∧ (s.setLink n f).evq = s.evq ∧ (s.setLink n f).msix = s.msix ∧
    (s.setLink n f).msixPba = s.msixPba ∧ (s.setLink n f).msixEnable = s.msixEnable ∧
    (s.setLink n f).msixFuncMask = s.msixFuncMask ∧ (s.setLink n f).hostTx = s.hostTx ∧ (s.setLink n f).icu = s.icu ∧
    (s.setLink n f).sram = s.sram ∧ (s.setLink n f).lines = s.lines ∧ (s.setLink n f).tiles = s.tiles ∧
    (s.setLink n f).stampOrder = s.stampOrder ∧ (s.setLink n f).stampsHeld = s.stampsHeld ∧ (s.setLink n f).ctrs = s.ctrs ∧
    (s.setLink n f).fifos = s.fifos ∧ (s.setLink n f).lease = s.lease ∧ (s.setLink n f).plk = s.plk ∧
    (s.setLink n f).wins = s.wins ∧ (s.setLink n f).winOpen = s.winOpen ∧ (s.setLink n f).winEdges = s.winEdges ∧
    (s.setLink n f).drill = s.drill ∧ (s.setLink n f).launches = s.launches ∧ (s.setLink n f).rules = s.rules ∧
    (s.setLink n f).express = s.express ∧ (s.setLink n f).normal = s.normal ∧ (s.setLink n f).eval = s.eval ∧
    (s.setLink n f).sigOps = s.sigOps ∧ (s.setLink n f).pubs = s.pubs ∧ (s.setLink n f).pubOpen = s.pubOpen ∧
    (s.setLink n f).hbAt = s.hbAt ∧ (s.setLink n f).subs = s.subs ∧ (s.setLink n f).ring = s.ring ∧
    (s.setLink n f).power = s.power ∧ (s.setLink n f).pulseDone = s.pulseDone ∧ (s.setLink n f).engs = s.engs ∧
    (s.setLink n f).starts = s.starts ∧ (s.setLink n f).ptp = s.ptp ∧ (s.setLink n f).sources = s.sources ∧
    (s.setLink n f).serial = s.serial ∧ (s.setLink n f).cans = s.cans ∧ (s.setLink n f).xbr = s.xbr ∧
    (s.setLink n f).host = s.host ∧ (s.setLink n f).dma = s.dma ∧ (s.setLink n f).cores = s.cores ∧
    (s.setLink n f).tcm = s.tcm ∧ (s.setLink n f).stwSram = s.stwSram ∧ (s.setLink n f).flash = s.flash ∧
    (s.setLink n f).boot = s.boot ∧ (s.setLink n f).otp = s.otp ∧ (s.setLink n f).sha = s.sha ∧ (s.setLink n f).pwr = s.pwr ∧
    (s.setLink n f).clk = s.clk ∧ (s.setLink n f).reply = s.reply ∧ (s.setLink n f).tclks = s.tclks ∧
    (s.setLink n f).freeTick = s.freeTick := by
  and_intros <;> rfl
@[simp] theorem State.setLease_others (s : State) (f : LeaseSt → LeaseSt) :
    (s.setLease f).pending = s.pending ∧ (s.setLease f).regs = s.regs ∧ (s.setLease f).frozen = s.frozen ∧
    (s.setLease f).heldIrq = s.heldIrq ∧ (s.setLease f).mbx = s.mbx ∧ (s.setLease f).ind = s.ind ∧
    (s.setLease f).stalls = s.stalls ∧ (s.setLease f).checks = s.checks ∧ (s.setLease f).gathers = s.gathers ∧
    (s.setLease f).ecc = s.ecc ∧ (s.setLease f).recSeq = s.recSeq ∧ (s.setLease f).time = s.time ∧
    (s.setLease f).mem = s.mem ∧ (s.setLease f).evq = s.evq ∧ (s.setLease f).msix = s.msix ∧
    (s.setLease f).msixPba = s.msixPba ∧ (s.setLease f).msixEnable = s.msixEnable ∧
    (s.setLease f).msixFuncMask = s.msixFuncMask ∧ (s.setLease f).hostTx = s.hostTx ∧ (s.setLease f).icu = s.icu ∧
    (s.setLease f).sram = s.sram ∧ (s.setLease f).lines = s.lines ∧ (s.setLease f).tiles = s.tiles ∧
    (s.setLease f).stampOrder = s.stampOrder ∧ (s.setLease f).stampsHeld = s.stampsHeld ∧ (s.setLease f).ctrs = s.ctrs ∧
    (s.setLease f).fifos = s.fifos ∧ (s.setLease f).plk = s.plk ∧ (s.setLease f).wins = s.wins ∧
    (s.setLease f).winOpen = s.winOpen ∧ (s.setLease f).winEdges = s.winEdges ∧ (s.setLease f).drill = s.drill ∧
    (s.setLease f).launches = s.launches ∧ (s.setLease f).rules = s.rules ∧ (s.setLease f).express = s.express ∧
    (s.setLease f).normal = s.normal ∧ (s.setLease f).eval = s.eval ∧ (s.setLease f).sigOps = s.sigOps ∧
    (s.setLease f).pubs = s.pubs ∧ (s.setLease f).pubOpen = s.pubOpen ∧ (s.setLease f).hbAt = s.hbAt ∧
    (s.setLease f).subs = s.subs ∧ (s.setLease f).net = s.net ∧ (s.setLease f).ring = s.ring ∧
    (s.setLease f).power = s.power ∧ (s.setLease f).pulseDone = s.pulseDone ∧ (s.setLease f).engs = s.engs ∧
    (s.setLease f).starts = s.starts ∧ (s.setLease f).ptp = s.ptp ∧ (s.setLease f).sources = s.sources ∧
    (s.setLease f).serial = s.serial ∧ (s.setLease f).cans = s.cans ∧ (s.setLease f).xbr = s.xbr ∧
    (s.setLease f).host = s.host ∧ (s.setLease f).dma = s.dma ∧ (s.setLease f).cores = s.cores ∧ (s.setLease f).tcm = s.tcm ∧
    (s.setLease f).stwSram = s.stwSram ∧ (s.setLease f).flash = s.flash ∧ (s.setLease f).boot = s.boot ∧
    (s.setLease f).otp = s.otp ∧ (s.setLease f).sha = s.sha ∧ (s.setLease f).pwr = s.pwr ∧ (s.setLease f).clk = s.clk ∧
    (s.setLease f).reply = s.reply ∧ (s.setLease f).tclks = s.tclks ∧ (s.setLease f).freeTick = s.freeTick := by
  and_intros <;> rfl
@[simp] theorem State.setPlk_others (s : State) (f : PlkSt → PlkSt) :
    (s.setPlk f).pending = s.pending ∧ (s.setPlk f).regs = s.regs ∧ (s.setPlk f).frozen = s.frozen ∧
    (s.setPlk f).heldIrq = s.heldIrq ∧ (s.setPlk f).mbx = s.mbx ∧ (s.setPlk f).ind = s.ind ∧ (s.setPlk f).stalls = s.stalls ∧
    (s.setPlk f).checks = s.checks ∧ (s.setPlk f).gathers = s.gathers ∧ (s.setPlk f).ecc = s.ecc ∧
    (s.setPlk f).recSeq = s.recSeq ∧ (s.setPlk f).time = s.time ∧ (s.setPlk f).mem = s.mem ∧ (s.setPlk f).evq = s.evq ∧
    (s.setPlk f).msix = s.msix ∧ (s.setPlk f).msixPba = s.msixPba ∧ (s.setPlk f).msixEnable = s.msixEnable ∧
    (s.setPlk f).msixFuncMask = s.msixFuncMask ∧ (s.setPlk f).hostTx = s.hostTx ∧ (s.setPlk f).icu = s.icu ∧
    (s.setPlk f).sram = s.sram ∧ (s.setPlk f).lines = s.lines ∧ (s.setPlk f).tiles = s.tiles ∧
    (s.setPlk f).stampOrder = s.stampOrder ∧ (s.setPlk f).stampsHeld = s.stampsHeld ∧ (s.setPlk f).ctrs = s.ctrs ∧
    (s.setPlk f).fifos = s.fifos ∧ (s.setPlk f).lease = s.lease ∧ (s.setPlk f).wins = s.wins ∧
    (s.setPlk f).winOpen = s.winOpen ∧ (s.setPlk f).winEdges = s.winEdges ∧ (s.setPlk f).drill = s.drill ∧
    (s.setPlk f).launches = s.launches ∧ (s.setPlk f).rules = s.rules ∧ (s.setPlk f).express = s.express ∧
    (s.setPlk f).normal = s.normal ∧ (s.setPlk f).eval = s.eval ∧ (s.setPlk f).sigOps = s.sigOps ∧
    (s.setPlk f).pubs = s.pubs ∧ (s.setPlk f).pubOpen = s.pubOpen ∧ (s.setPlk f).hbAt = s.hbAt ∧ (s.setPlk f).subs = s.subs ∧
    (s.setPlk f).net = s.net ∧ (s.setPlk f).ring = s.ring ∧ (s.setPlk f).power = s.power ∧
    (s.setPlk f).pulseDone = s.pulseDone ∧ (s.setPlk f).engs = s.engs ∧ (s.setPlk f).starts = s.starts ∧
    (s.setPlk f).ptp = s.ptp ∧ (s.setPlk f).sources = s.sources ∧ (s.setPlk f).serial = s.serial ∧
    (s.setPlk f).cans = s.cans ∧ (s.setPlk f).xbr = s.xbr ∧ (s.setPlk f).host = s.host ∧ (s.setPlk f).dma = s.dma ∧
    (s.setPlk f).cores = s.cores ∧ (s.setPlk f).tcm = s.tcm ∧ (s.setPlk f).stwSram = s.stwSram ∧
    (s.setPlk f).flash = s.flash ∧ (s.setPlk f).boot = s.boot ∧ (s.setPlk f).otp = s.otp ∧ (s.setPlk f).sha = s.sha ∧
    (s.setPlk f).pwr = s.pwr ∧ (s.setPlk f).clk = s.clk ∧ (s.setPlk f).reply = s.reply ∧ (s.setPlk f).tclks = s.tclks ∧
    (s.setPlk f).freeTick = s.freeTick := by
  and_intros <;> rfl
@[simp] theorem State.setRing_others (s : State) (f : RingSt → RingSt) :
    (s.setRing f).pending = s.pending ∧ (s.setRing f).regs = s.regs ∧ (s.setRing f).frozen = s.frozen ∧
    (s.setRing f).heldIrq = s.heldIrq ∧ (s.setRing f).mbx = s.mbx ∧ (s.setRing f).ind = s.ind ∧
    (s.setRing f).stalls = s.stalls ∧ (s.setRing f).checks = s.checks ∧ (s.setRing f).gathers = s.gathers ∧
    (s.setRing f).ecc = s.ecc ∧ (s.setRing f).recSeq = s.recSeq ∧ (s.setRing f).time = s.time ∧ (s.setRing f).mem = s.mem ∧
    (s.setRing f).evq = s.evq ∧ (s.setRing f).msix = s.msix ∧ (s.setRing f).msixPba = s.msixPba ∧
    (s.setRing f).msixEnable = s.msixEnable ∧ (s.setRing f).msixFuncMask = s.msixFuncMask ∧ (s.setRing f).hostTx = s.hostTx ∧
    (s.setRing f).icu = s.icu ∧ (s.setRing f).sram = s.sram ∧ (s.setRing f).lines = s.lines ∧ (s.setRing f).tiles = s.tiles ∧
    (s.setRing f).stampOrder = s.stampOrder ∧ (s.setRing f).stampsHeld = s.stampsHeld ∧ (s.setRing f).ctrs = s.ctrs ∧
    (s.setRing f).fifos = s.fifos ∧ (s.setRing f).lease = s.lease ∧ (s.setRing f).plk = s.plk ∧ (s.setRing f).wins = s.wins ∧
    (s.setRing f).winOpen = s.winOpen ∧ (s.setRing f).winEdges = s.winEdges ∧ (s.setRing f).drill = s.drill ∧
    (s.setRing f).launches = s.launches ∧ (s.setRing f).rules = s.rules ∧ (s.setRing f).express = s.express ∧
    (s.setRing f).normal = s.normal ∧ (s.setRing f).eval = s.eval ∧ (s.setRing f).sigOps = s.sigOps ∧
    (s.setRing f).pubs = s.pubs ∧ (s.setRing f).pubOpen = s.pubOpen ∧ (s.setRing f).hbAt = s.hbAt ∧
    (s.setRing f).subs = s.subs ∧ (s.setRing f).net = s.net ∧ (s.setRing f).power = s.power ∧
    (s.setRing f).pulseDone = s.pulseDone ∧ (s.setRing f).engs = s.engs ∧ (s.setRing f).starts = s.starts ∧
    (s.setRing f).ptp = s.ptp ∧ (s.setRing f).sources = s.sources ∧ (s.setRing f).serial = s.serial ∧
    (s.setRing f).cans = s.cans ∧ (s.setRing f).xbr = s.xbr ∧ (s.setRing f).host = s.host ∧ (s.setRing f).dma = s.dma ∧
    (s.setRing f).cores = s.cores ∧ (s.setRing f).tcm = s.tcm ∧ (s.setRing f).stwSram = s.stwSram ∧
    (s.setRing f).flash = s.flash ∧ (s.setRing f).boot = s.boot ∧ (s.setRing f).otp = s.otp ∧ (s.setRing f).sha = s.sha ∧
    (s.setRing f).pwr = s.pwr ∧ (s.setRing f).clk = s.clk ∧ (s.setRing f).reply = s.reply ∧ (s.setRing f).tclks = s.tclks ∧
    (s.setRing f).freeTick = s.freeTick := by
  and_intros <;> rfl
@[simp] theorem State.setNet_others (s : State) (f : NetSt → NetSt) :
    (s.setNet f).pending = s.pending ∧ (s.setNet f).regs = s.regs ∧ (s.setNet f).frozen = s.frozen ∧
    (s.setNet f).heldIrq = s.heldIrq ∧ (s.setNet f).mbx = s.mbx ∧ (s.setNet f).ind = s.ind ∧ (s.setNet f).stalls = s.stalls ∧
    (s.setNet f).checks = s.checks ∧ (s.setNet f).gathers = s.gathers ∧ (s.setNet f).ecc = s.ecc ∧
    (s.setNet f).recSeq = s.recSeq ∧ (s.setNet f).time = s.time ∧ (s.setNet f).mem = s.mem ∧ (s.setNet f).evq = s.evq ∧
    (s.setNet f).msix = s.msix ∧ (s.setNet f).msixPba = s.msixPba ∧ (s.setNet f).msixEnable = s.msixEnable ∧
    (s.setNet f).msixFuncMask = s.msixFuncMask ∧ (s.setNet f).hostTx = s.hostTx ∧ (s.setNet f).icu = s.icu ∧
    (s.setNet f).sram = s.sram ∧ (s.setNet f).lines = s.lines ∧ (s.setNet f).tiles = s.tiles ∧
    (s.setNet f).stampOrder = s.stampOrder ∧ (s.setNet f).stampsHeld = s.stampsHeld ∧ (s.setNet f).ctrs = s.ctrs ∧
    (s.setNet f).fifos = s.fifos ∧ (s.setNet f).lease = s.lease ∧ (s.setNet f).plk = s.plk ∧ (s.setNet f).wins = s.wins ∧
    (s.setNet f).winOpen = s.winOpen ∧ (s.setNet f).winEdges = s.winEdges ∧ (s.setNet f).drill = s.drill ∧
    (s.setNet f).launches = s.launches ∧ (s.setNet f).rules = s.rules ∧ (s.setNet f).express = s.express ∧
    (s.setNet f).normal = s.normal ∧ (s.setNet f).eval = s.eval ∧ (s.setNet f).sigOps = s.sigOps ∧
    (s.setNet f).pubs = s.pubs ∧ (s.setNet f).pubOpen = s.pubOpen ∧ (s.setNet f).hbAt = s.hbAt ∧ (s.setNet f).subs = s.subs ∧
    (s.setNet f).ring = s.ring ∧ (s.setNet f).power = s.power ∧ (s.setNet f).pulseDone = s.pulseDone ∧
    (s.setNet f).engs = s.engs ∧ (s.setNet f).starts = s.starts ∧ (s.setNet f).ptp = s.ptp ∧
    (s.setNet f).sources = s.sources ∧ (s.setNet f).serial = s.serial ∧ (s.setNet f).cans = s.cans ∧
    (s.setNet f).xbr = s.xbr ∧ (s.setNet f).host = s.host ∧ (s.setNet f).dma = s.dma ∧ (s.setNet f).cores = s.cores ∧
    (s.setNet f).tcm = s.tcm ∧ (s.setNet f).stwSram = s.stwSram ∧ (s.setNet f).flash = s.flash ∧ (s.setNet f).boot = s.boot ∧
    (s.setNet f).otp = s.otp ∧ (s.setNet f).sha = s.sha ∧ (s.setNet f).pwr = s.pwr ∧ (s.setNet f).clk = s.clk ∧
    (s.setNet f).reply = s.reply ∧ (s.setNet f).tclks = s.tclks ∧ (s.setNet f).freeTick = s.freeTick := by
  and_intros <;> rfl
@[simp] theorem State.setHost_others (s : State) (f : HostSt → HostSt) :
    (s.setHost f).pending = s.pending ∧ (s.setHost f).regs = s.regs ∧ (s.setHost f).frozen = s.frozen ∧
    (s.setHost f).heldIrq = s.heldIrq ∧ (s.setHost f).mbx = s.mbx ∧ (s.setHost f).ind = s.ind ∧
    (s.setHost f).stalls = s.stalls ∧ (s.setHost f).checks = s.checks ∧ (s.setHost f).gathers = s.gathers ∧
    (s.setHost f).ecc = s.ecc ∧ (s.setHost f).recSeq = s.recSeq ∧ (s.setHost f).time = s.time ∧ (s.setHost f).mem = s.mem ∧
    (s.setHost f).evq = s.evq ∧ (s.setHost f).msix = s.msix ∧ (s.setHost f).msixPba = s.msixPba ∧
    (s.setHost f).msixEnable = s.msixEnable ∧ (s.setHost f).msixFuncMask = s.msixFuncMask ∧ (s.setHost f).hostTx = s.hostTx ∧
    (s.setHost f).icu = s.icu ∧ (s.setHost f).sram = s.sram ∧ (s.setHost f).lines = s.lines ∧ (s.setHost f).tiles = s.tiles ∧
    (s.setHost f).stampOrder = s.stampOrder ∧ (s.setHost f).stampsHeld = s.stampsHeld ∧ (s.setHost f).ctrs = s.ctrs ∧
    (s.setHost f).fifos = s.fifos ∧ (s.setHost f).lease = s.lease ∧ (s.setHost f).plk = s.plk ∧ (s.setHost f).wins = s.wins ∧
    (s.setHost f).winOpen = s.winOpen ∧ (s.setHost f).winEdges = s.winEdges ∧ (s.setHost f).drill = s.drill ∧
    (s.setHost f).launches = s.launches ∧ (s.setHost f).rules = s.rules ∧ (s.setHost f).express = s.express ∧
    (s.setHost f).normal = s.normal ∧ (s.setHost f).eval = s.eval ∧ (s.setHost f).sigOps = s.sigOps ∧
    (s.setHost f).pubs = s.pubs ∧ (s.setHost f).pubOpen = s.pubOpen ∧ (s.setHost f).hbAt = s.hbAt ∧
    (s.setHost f).subs = s.subs ∧ (s.setHost f).net = s.net ∧ (s.setHost f).ring = s.ring ∧ (s.setHost f).power = s.power ∧
    (s.setHost f).pulseDone = s.pulseDone ∧ (s.setHost f).engs = s.engs ∧ (s.setHost f).starts = s.starts ∧
    (s.setHost f).ptp = s.ptp ∧ (s.setHost f).sources = s.sources ∧ (s.setHost f).serial = s.serial ∧
    (s.setHost f).cans = s.cans ∧ (s.setHost f).xbr = s.xbr ∧ (s.setHost f).dma = s.dma ∧ (s.setHost f).cores = s.cores ∧
    (s.setHost f).tcm = s.tcm ∧ (s.setHost f).stwSram = s.stwSram ∧ (s.setHost f).flash = s.flash ∧
    (s.setHost f).boot = s.boot ∧ (s.setHost f).otp = s.otp ∧ (s.setHost f).sha = s.sha ∧ (s.setHost f).pwr = s.pwr ∧
    (s.setHost f).clk = s.clk ∧ (s.setHost f).reply = s.reply ∧ (s.setHost f).tclks = s.tclks ∧
    (s.setHost f).freeTick = s.freeTick := by
  and_intros <;> rfl
@[simp] theorem State.setIcu_others (s : State) (f : IcuSt → IcuSt) :
    (s.setIcu f).pending = s.pending ∧ (s.setIcu f).regs = s.regs ∧ (s.setIcu f).frozen = s.frozen ∧
    (s.setIcu f).heldIrq = s.heldIrq ∧ (s.setIcu f).mbx = s.mbx ∧ (s.setIcu f).ind = s.ind ∧ (s.setIcu f).stalls = s.stalls ∧
    (s.setIcu f).checks = s.checks ∧ (s.setIcu f).gathers = s.gathers ∧ (s.setIcu f).ecc = s.ecc ∧
    (s.setIcu f).recSeq = s.recSeq ∧ (s.setIcu f).time = s.time ∧ (s.setIcu f).mem = s.mem ∧ (s.setIcu f).evq = s.evq ∧
    (s.setIcu f).msix = s.msix ∧ (s.setIcu f).msixPba = s.msixPba ∧ (s.setIcu f).msixEnable = s.msixEnable ∧
    (s.setIcu f).msixFuncMask = s.msixFuncMask ∧ (s.setIcu f).hostTx = s.hostTx ∧ (s.setIcu f).sram = s.sram ∧
    (s.setIcu f).lines = s.lines ∧ (s.setIcu f).tiles = s.tiles ∧ (s.setIcu f).stampOrder = s.stampOrder ∧
    (s.setIcu f).stampsHeld = s.stampsHeld ∧ (s.setIcu f).ctrs = s.ctrs ∧ (s.setIcu f).fifos = s.fifos ∧
    (s.setIcu f).lease = s.lease ∧ (s.setIcu f).plk = s.plk ∧ (s.setIcu f).wins = s.wins ∧ (s.setIcu f).winOpen = s.winOpen ∧
    (s.setIcu f).winEdges = s.winEdges ∧ (s.setIcu f).drill = s.drill ∧ (s.setIcu f).launches = s.launches ∧
    (s.setIcu f).rules = s.rules ∧ (s.setIcu f).express = s.express ∧ (s.setIcu f).normal = s.normal ∧
    (s.setIcu f).eval = s.eval ∧ (s.setIcu f).sigOps = s.sigOps ∧ (s.setIcu f).pubs = s.pubs ∧
    (s.setIcu f).pubOpen = s.pubOpen ∧ (s.setIcu f).hbAt = s.hbAt ∧ (s.setIcu f).subs = s.subs ∧ (s.setIcu f).net = s.net ∧
    (s.setIcu f).ring = s.ring ∧ (s.setIcu f).power = s.power ∧ (s.setIcu f).pulseDone = s.pulseDone ∧
    (s.setIcu f).engs = s.engs ∧ (s.setIcu f).starts = s.starts ∧ (s.setIcu f).ptp = s.ptp ∧
    (s.setIcu f).sources = s.sources ∧ (s.setIcu f).serial = s.serial ∧ (s.setIcu f).cans = s.cans ∧
    (s.setIcu f).xbr = s.xbr ∧ (s.setIcu f).host = s.host ∧ (s.setIcu f).dma = s.dma ∧ (s.setIcu f).cores = s.cores ∧
    (s.setIcu f).tcm = s.tcm ∧ (s.setIcu f).stwSram = s.stwSram ∧ (s.setIcu f).flash = s.flash ∧ (s.setIcu f).boot = s.boot ∧
    (s.setIcu f).otp = s.otp ∧ (s.setIcu f).sha = s.sha ∧ (s.setIcu f).pwr = s.pwr ∧ (s.setIcu f).clk = s.clk ∧
    (s.setIcu f).reply = s.reply ∧ (s.setIcu f).tclks = s.tclks ∧ (s.setIcu f).freeTick = s.freeTick := by
  and_intros <;> rfl
@[simp] theorem State.setPtp_others (s : State) (f : PtpSt → PtpSt) :
    (s.setPtp f).pending = s.pending ∧ (s.setPtp f).regs = s.regs ∧ (s.setPtp f).frozen = s.frozen ∧
    (s.setPtp f).heldIrq = s.heldIrq ∧ (s.setPtp f).mbx = s.mbx ∧ (s.setPtp f).ind = s.ind ∧ (s.setPtp f).stalls = s.stalls ∧
    (s.setPtp f).checks = s.checks ∧ (s.setPtp f).gathers = s.gathers ∧ (s.setPtp f).ecc = s.ecc ∧
    (s.setPtp f).recSeq = s.recSeq ∧ (s.setPtp f).time = s.time ∧ (s.setPtp f).mem = s.mem ∧ (s.setPtp f).evq = s.evq ∧
    (s.setPtp f).msix = s.msix ∧ (s.setPtp f).msixPba = s.msixPba ∧ (s.setPtp f).msixEnable = s.msixEnable ∧
    (s.setPtp f).msixFuncMask = s.msixFuncMask ∧ (s.setPtp f).hostTx = s.hostTx ∧ (s.setPtp f).icu = s.icu ∧
    (s.setPtp f).sram = s.sram ∧ (s.setPtp f).lines = s.lines ∧ (s.setPtp f).tiles = s.tiles ∧
    (s.setPtp f).stampOrder = s.stampOrder ∧ (s.setPtp f).stampsHeld = s.stampsHeld ∧ (s.setPtp f).ctrs = s.ctrs ∧
    (s.setPtp f).fifos = s.fifos ∧ (s.setPtp f).lease = s.lease ∧ (s.setPtp f).plk = s.plk ∧ (s.setPtp f).wins = s.wins ∧
    (s.setPtp f).winOpen = s.winOpen ∧ (s.setPtp f).winEdges = s.winEdges ∧ (s.setPtp f).drill = s.drill ∧
    (s.setPtp f).launches = s.launches ∧ (s.setPtp f).rules = s.rules ∧ (s.setPtp f).express = s.express ∧
    (s.setPtp f).normal = s.normal ∧ (s.setPtp f).eval = s.eval ∧ (s.setPtp f).sigOps = s.sigOps ∧
    (s.setPtp f).pubs = s.pubs ∧ (s.setPtp f).pubOpen = s.pubOpen ∧ (s.setPtp f).hbAt = s.hbAt ∧ (s.setPtp f).subs = s.subs ∧
    (s.setPtp f).net = s.net ∧ (s.setPtp f).ring = s.ring ∧ (s.setPtp f).power = s.power ∧
    (s.setPtp f).pulseDone = s.pulseDone ∧ (s.setPtp f).engs = s.engs ∧ (s.setPtp f).starts = s.starts ∧
    (s.setPtp f).sources = s.sources ∧ (s.setPtp f).serial = s.serial ∧ (s.setPtp f).cans = s.cans ∧
    (s.setPtp f).xbr = s.xbr ∧ (s.setPtp f).host = s.host ∧ (s.setPtp f).dma = s.dma ∧ (s.setPtp f).cores = s.cores ∧
    (s.setPtp f).tcm = s.tcm ∧ (s.setPtp f).stwSram = s.stwSram ∧ (s.setPtp f).flash = s.flash ∧ (s.setPtp f).boot = s.boot ∧
    (s.setPtp f).otp = s.otp ∧ (s.setPtp f).sha = s.sha ∧ (s.setPtp f).pwr = s.pwr ∧ (s.setPtp f).clk = s.clk ∧
    (s.setPtp f).reply = s.reply ∧ (s.setPtp f).tclks = s.tclks ∧ (s.setPtp f).freeTick = s.freeTick := by
  and_intros <;> rfl
@[simp] theorem State.setXbr_others (s : State) (f : XbrSt → XbrSt) :
    (s.setXbr f).pending = s.pending ∧ (s.setXbr f).regs = s.regs ∧ (s.setXbr f).frozen = s.frozen ∧
    (s.setXbr f).heldIrq = s.heldIrq ∧ (s.setXbr f).mbx = s.mbx ∧ (s.setXbr f).ind = s.ind ∧ (s.setXbr f).stalls = s.stalls ∧
    (s.setXbr f).checks = s.checks ∧ (s.setXbr f).gathers = s.gathers ∧ (s.setXbr f).ecc = s.ecc ∧
    (s.setXbr f).recSeq = s.recSeq ∧ (s.setXbr f).time = s.time ∧ (s.setXbr f).mem = s.mem ∧ (s.setXbr f).evq = s.evq ∧
    (s.setXbr f).msix = s.msix ∧ (s.setXbr f).msixPba = s.msixPba ∧ (s.setXbr f).msixEnable = s.msixEnable ∧
    (s.setXbr f).msixFuncMask = s.msixFuncMask ∧ (s.setXbr f).hostTx = s.hostTx ∧ (s.setXbr f).icu = s.icu ∧
    (s.setXbr f).sram = s.sram ∧ (s.setXbr f).lines = s.lines ∧ (s.setXbr f).tiles = s.tiles ∧
    (s.setXbr f).stampOrder = s.stampOrder ∧ (s.setXbr f).stampsHeld = s.stampsHeld ∧ (s.setXbr f).ctrs = s.ctrs ∧
    (s.setXbr f).fifos = s.fifos ∧ (s.setXbr f).lease = s.lease ∧ (s.setXbr f).plk = s.plk ∧ (s.setXbr f).wins = s.wins ∧
    (s.setXbr f).winOpen = s.winOpen ∧ (s.setXbr f).winEdges = s.winEdges ∧ (s.setXbr f).drill = s.drill ∧
    (s.setXbr f).launches = s.launches ∧ (s.setXbr f).rules = s.rules ∧ (s.setXbr f).express = s.express ∧
    (s.setXbr f).normal = s.normal ∧ (s.setXbr f).eval = s.eval ∧ (s.setXbr f).sigOps = s.sigOps ∧
    (s.setXbr f).pubs = s.pubs ∧ (s.setXbr f).pubOpen = s.pubOpen ∧ (s.setXbr f).hbAt = s.hbAt ∧ (s.setXbr f).subs = s.subs ∧
    (s.setXbr f).net = s.net ∧ (s.setXbr f).ring = s.ring ∧ (s.setXbr f).power = s.power ∧
    (s.setXbr f).pulseDone = s.pulseDone ∧ (s.setXbr f).engs = s.engs ∧ (s.setXbr f).starts = s.starts ∧
    (s.setXbr f).ptp = s.ptp ∧ (s.setXbr f).sources = s.sources ∧ (s.setXbr f).serial = s.serial ∧
    (s.setXbr f).cans = s.cans ∧ (s.setXbr f).host = s.host ∧ (s.setXbr f).dma = s.dma ∧ (s.setXbr f).cores = s.cores ∧
    (s.setXbr f).tcm = s.tcm ∧ (s.setXbr f).stwSram = s.stwSram ∧ (s.setXbr f).flash = s.flash ∧ (s.setXbr f).boot = s.boot ∧
    (s.setXbr f).otp = s.otp ∧ (s.setXbr f).sha = s.sha ∧ (s.setXbr f).pwr = s.pwr ∧ (s.setXbr f).clk = s.clk ∧
    (s.setXbr f).reply = s.reply ∧ (s.setXbr f).tclks = s.tclks ∧ (s.setXbr f).freeTick = s.freeTick := by
  and_intros <;> rfl
@[simp] theorem State.setPwr_others (s : State) (f : PwrSt → PwrSt) :
    (s.setPwr f).pending = s.pending ∧ (s.setPwr f).regs = s.regs ∧ (s.setPwr f).frozen = s.frozen ∧
    (s.setPwr f).heldIrq = s.heldIrq ∧ (s.setPwr f).mbx = s.mbx ∧ (s.setPwr f).ind = s.ind ∧ (s.setPwr f).stalls = s.stalls ∧
    (s.setPwr f).checks = s.checks ∧ (s.setPwr f).gathers = s.gathers ∧ (s.setPwr f).ecc = s.ecc ∧
    (s.setPwr f).recSeq = s.recSeq ∧ (s.setPwr f).time = s.time ∧ (s.setPwr f).mem = s.mem ∧ (s.setPwr f).evq = s.evq ∧
    (s.setPwr f).msix = s.msix ∧ (s.setPwr f).msixPba = s.msixPba ∧ (s.setPwr f).msixEnable = s.msixEnable ∧
    (s.setPwr f).msixFuncMask = s.msixFuncMask ∧ (s.setPwr f).hostTx = s.hostTx ∧ (s.setPwr f).icu = s.icu ∧
    (s.setPwr f).sram = s.sram ∧ (s.setPwr f).lines = s.lines ∧ (s.setPwr f).tiles = s.tiles ∧
    (s.setPwr f).stampOrder = s.stampOrder ∧ (s.setPwr f).stampsHeld = s.stampsHeld ∧ (s.setPwr f).ctrs = s.ctrs ∧
    (s.setPwr f).fifos = s.fifos ∧ (s.setPwr f).lease = s.lease ∧ (s.setPwr f).plk = s.plk ∧ (s.setPwr f).wins = s.wins ∧
    (s.setPwr f).winOpen = s.winOpen ∧ (s.setPwr f).winEdges = s.winEdges ∧ (s.setPwr f).drill = s.drill ∧
    (s.setPwr f).launches = s.launches ∧ (s.setPwr f).rules = s.rules ∧ (s.setPwr f).express = s.express ∧
    (s.setPwr f).normal = s.normal ∧ (s.setPwr f).eval = s.eval ∧ (s.setPwr f).sigOps = s.sigOps ∧
    (s.setPwr f).pubs = s.pubs ∧ (s.setPwr f).pubOpen = s.pubOpen ∧ (s.setPwr f).hbAt = s.hbAt ∧ (s.setPwr f).subs = s.subs ∧
    (s.setPwr f).net = s.net ∧ (s.setPwr f).ring = s.ring ∧ (s.setPwr f).power = s.power ∧
    (s.setPwr f).pulseDone = s.pulseDone ∧ (s.setPwr f).engs = s.engs ∧ (s.setPwr f).starts = s.starts ∧
    (s.setPwr f).ptp = s.ptp ∧ (s.setPwr f).sources = s.sources ∧ (s.setPwr f).serial = s.serial ∧
    (s.setPwr f).cans = s.cans ∧ (s.setPwr f).xbr = s.xbr ∧ (s.setPwr f).host = s.host ∧ (s.setPwr f).dma = s.dma ∧
    (s.setPwr f).cores = s.cores ∧ (s.setPwr f).tcm = s.tcm ∧ (s.setPwr f).stwSram = s.stwSram ∧
    (s.setPwr f).flash = s.flash ∧ (s.setPwr f).boot = s.boot ∧ (s.setPwr f).otp = s.otp ∧ (s.setPwr f).sha = s.sha ∧
    (s.setPwr f).clk = s.clk ∧ (s.setPwr f).reply = s.reply ∧ (s.setPwr f).tclks = s.tclks ∧
    (s.setPwr f).freeTick = s.freeTick := by
  and_intros <;> rfl
@[simp] theorem State.setClk_others (s : State) (f : ClkSt → ClkSt) :
    (s.setClk f).pending = s.pending ∧ (s.setClk f).regs = s.regs ∧ (s.setClk f).frozen = s.frozen ∧
    (s.setClk f).heldIrq = s.heldIrq ∧ (s.setClk f).mbx = s.mbx ∧ (s.setClk f).ind = s.ind ∧ (s.setClk f).stalls = s.stalls ∧
    (s.setClk f).checks = s.checks ∧ (s.setClk f).gathers = s.gathers ∧ (s.setClk f).ecc = s.ecc ∧
    (s.setClk f).recSeq = s.recSeq ∧ (s.setClk f).time = s.time ∧ (s.setClk f).mem = s.mem ∧ (s.setClk f).evq = s.evq ∧
    (s.setClk f).msix = s.msix ∧ (s.setClk f).msixPba = s.msixPba ∧ (s.setClk f).msixEnable = s.msixEnable ∧
    (s.setClk f).msixFuncMask = s.msixFuncMask ∧ (s.setClk f).hostTx = s.hostTx ∧ (s.setClk f).icu = s.icu ∧
    (s.setClk f).sram = s.sram ∧ (s.setClk f).lines = s.lines ∧ (s.setClk f).tiles = s.tiles ∧
    (s.setClk f).stampOrder = s.stampOrder ∧ (s.setClk f).stampsHeld = s.stampsHeld ∧ (s.setClk f).ctrs = s.ctrs ∧
    (s.setClk f).fifos = s.fifos ∧ (s.setClk f).lease = s.lease ∧ (s.setClk f).plk = s.plk ∧ (s.setClk f).wins = s.wins ∧
    (s.setClk f).winOpen = s.winOpen ∧ (s.setClk f).winEdges = s.winEdges ∧ (s.setClk f).drill = s.drill ∧
    (s.setClk f).launches = s.launches ∧ (s.setClk f).rules = s.rules ∧ (s.setClk f).express = s.express ∧
    (s.setClk f).normal = s.normal ∧ (s.setClk f).eval = s.eval ∧ (s.setClk f).sigOps = s.sigOps ∧
    (s.setClk f).pubs = s.pubs ∧ (s.setClk f).pubOpen = s.pubOpen ∧ (s.setClk f).hbAt = s.hbAt ∧ (s.setClk f).subs = s.subs ∧
    (s.setClk f).net = s.net ∧ (s.setClk f).ring = s.ring ∧ (s.setClk f).power = s.power ∧
    (s.setClk f).pulseDone = s.pulseDone ∧ (s.setClk f).engs = s.engs ∧ (s.setClk f).starts = s.starts ∧
    (s.setClk f).ptp = s.ptp ∧ (s.setClk f).sources = s.sources ∧ (s.setClk f).serial = s.serial ∧
    (s.setClk f).cans = s.cans ∧ (s.setClk f).xbr = s.xbr ∧ (s.setClk f).host = s.host ∧ (s.setClk f).dma = s.dma ∧
    (s.setClk f).cores = s.cores ∧ (s.setClk f).tcm = s.tcm ∧ (s.setClk f).stwSram = s.stwSram ∧
    (s.setClk f).flash = s.flash ∧ (s.setClk f).boot = s.boot ∧ (s.setClk f).otp = s.otp ∧ (s.setClk f).sha = s.sha ∧
    (s.setClk f).pwr = s.pwr ∧ (s.setClk f).reply = s.reply ∧ (s.setClk f).tclks = s.tclks ∧
    (s.setClk f).freeTick = s.freeTick := by
  and_intros <;> rfl
@[simp] theorem State.setBoot_others (s : State) (f : BootSt → BootSt) :
    (s.setBoot f).pending = s.pending ∧ (s.setBoot f).regs = s.regs ∧ (s.setBoot f).frozen = s.frozen ∧
    (s.setBoot f).heldIrq = s.heldIrq ∧ (s.setBoot f).mbx = s.mbx ∧ (s.setBoot f).ind = s.ind ∧
    (s.setBoot f).stalls = s.stalls ∧ (s.setBoot f).checks = s.checks ∧ (s.setBoot f).gathers = s.gathers ∧
    (s.setBoot f).ecc = s.ecc ∧ (s.setBoot f).recSeq = s.recSeq ∧ (s.setBoot f).time = s.time ∧ (s.setBoot f).mem = s.mem ∧
    (s.setBoot f).evq = s.evq ∧ (s.setBoot f).msix = s.msix ∧ (s.setBoot f).msixPba = s.msixPba ∧
    (s.setBoot f).msixEnable = s.msixEnable ∧ (s.setBoot f).msixFuncMask = s.msixFuncMask ∧ (s.setBoot f).hostTx = s.hostTx ∧
    (s.setBoot f).icu = s.icu ∧ (s.setBoot f).sram = s.sram ∧ (s.setBoot f).lines = s.lines ∧ (s.setBoot f).tiles = s.tiles ∧
    (s.setBoot f).stampOrder = s.stampOrder ∧ (s.setBoot f).stampsHeld = s.stampsHeld ∧ (s.setBoot f).ctrs = s.ctrs ∧
    (s.setBoot f).fifos = s.fifos ∧ (s.setBoot f).lease = s.lease ∧ (s.setBoot f).plk = s.plk ∧ (s.setBoot f).wins = s.wins ∧
    (s.setBoot f).winOpen = s.winOpen ∧ (s.setBoot f).winEdges = s.winEdges ∧ (s.setBoot f).drill = s.drill ∧
    (s.setBoot f).launches = s.launches ∧ (s.setBoot f).rules = s.rules ∧ (s.setBoot f).express = s.express ∧
    (s.setBoot f).normal = s.normal ∧ (s.setBoot f).eval = s.eval ∧ (s.setBoot f).sigOps = s.sigOps ∧
    (s.setBoot f).pubs = s.pubs ∧ (s.setBoot f).pubOpen = s.pubOpen ∧ (s.setBoot f).hbAt = s.hbAt ∧
    (s.setBoot f).subs = s.subs ∧ (s.setBoot f).net = s.net ∧ (s.setBoot f).ring = s.ring ∧ (s.setBoot f).power = s.power ∧
    (s.setBoot f).pulseDone = s.pulseDone ∧ (s.setBoot f).engs = s.engs ∧ (s.setBoot f).starts = s.starts ∧
    (s.setBoot f).ptp = s.ptp ∧ (s.setBoot f).sources = s.sources ∧ (s.setBoot f).serial = s.serial ∧
    (s.setBoot f).cans = s.cans ∧ (s.setBoot f).xbr = s.xbr ∧ (s.setBoot f).host = s.host ∧ (s.setBoot f).dma = s.dma ∧
    (s.setBoot f).cores = s.cores ∧ (s.setBoot f).tcm = s.tcm ∧ (s.setBoot f).stwSram = s.stwSram ∧
    (s.setBoot f).flash = s.flash ∧ (s.setBoot f).otp = s.otp ∧ (s.setBoot f).sha = s.sha ∧ (s.setBoot f).pwr = s.pwr ∧
    (s.setBoot f).clk = s.clk ∧ (s.setBoot f).reply = s.reply ∧ (s.setBoot f).tclks = s.tclks ∧
    (s.setBoot f).freeTick = s.freeTick := by
  and_intros <;> rfl

end Sys2Proof.Machine
end

