-- ==== Sys2Proof/Laws/Word.lean ====
section
/-! SUPPORT. The laws of fields of words: what a field reads after a field of the word is replaced. -/

namespace Sys2Proof

theorem bits_testBit (w : Word) (lo k j : Nat) : (bits w lo k).testBit j = (decide (j < k) && w.getLsbD (lo + j)) := by
  simp [bits, Nat.testBit_mod_two_pow, Nat.testBit_shiftRight, BitVec.getLsbD]

/-- Replacing the field of `n` from `lo` up, `k` bits wide. -/
theorem replace_testBit (n lo k v j : Nat) :
    (n - (n >>> lo % 2 ^ k) <<< lo + (v % 2 ^ k) <<< lo).testBit j
      = if lo ≤ j ∧ j < lo + k then v.testBit (j - lo) else n.testBit j := by
  have hs : n = n >>> (lo + k) <<< (lo + k) + ((n >>> lo % 2 ^ k) <<< lo + n % 2 ^ lo) := by
    simp only [Nat.shiftRight_eq_div_pow, Nat.shiftLeft_eq, Nat.pow_add]
    have h1 := Nat.div_add_mod n (2 ^ lo)
    have h2 := Nat.div_add_mod (n / 2 ^ lo) (2 ^ k)
    rw [Nat.div_div_eq_div_mul] at h2
    generalize n / (2 ^ lo * 2 ^ k) = a at *
    generalize n / 2 ^ lo % 2 ^ k = m at *
    generalize n % 2 ^ lo = r at *
    rw [← h2] at h1
    rw [← h1]; ring
  have hr : n % 2 ^ lo < 2 ^ lo := Nat.mod_lt _ (Nat.two_pow_pos lo)
  have hv : v % 2 ^ k < 2 ^ k := Nat.mod_lt _ (Nat.two_pow_pos k)
  have e : n - (n >>> lo % 2 ^ k) <<< lo + (v % 2 ^ k) <<< lo
      = n >>> (lo + k) <<< (lo + k) + ((v % 2 ^ k) <<< lo + n % 2 ^ lo) := by
    generalize n >>> (lo + k) <<< (lo + k) = x at hs ⊢
    generalize (n >>> lo % 2 ^ k) <<< lo = y at hs ⊢
    omega
  have hlt : (v % 2 ^ k) <<< lo + n % 2 ^ lo < 2 ^ (lo + k) := by
    rw [Nat.shiftLeft_eq, Nat.pow_add]
    calc v % 2 ^ k * 2 ^ lo + n % 2 ^ lo < v % 2 ^ k * 2 ^ lo + 2 ^ lo := by omega
      _ = (v % 2 ^ k + 1) * 2 ^ lo := by ring
      _ ≤ 2 ^ k * 2 ^ lo := Nat.mul_le_mul_right _ hv
      _ = 2 ^ lo * 2 ^ k := by ring
  rw [e, Nat.shiftLeft_add_eq_or_of_lt hlt, Nat.shiftLeft_add_eq_or_of_lt hr]
  simp only [Nat.testBit_or, Nat.testBit_shiftLeft, Nat.testBit_shiftRight, Nat.testBit_mod_two_pow]
  by_cases h1 : j < lo
  · have h2 : ¬ lo ≤ j := by omega
    have h3 : ¬ lo + k ≤ j := by omega
    simp [h1, h2, h3]
  · by_cases h2 : j < lo + k
    · have : lo ≤ j := by omega
      have h3 : ¬ lo + k ≤ j := by omega
      have h4 : j - lo < k := by omega
      simp [h1, h2, h3, h4, this]
    · have h3 : lo + k ≤ j := by omega
      have h4 : ¬ j - lo < k := by omega
      have h5 : lo + k + (j - (lo + k)) = j := by omega
      simp [h1, h2, h3, h4, h5]

theorem setBits_getLsbD (w : Word) (lo k v j : Nat) :
    (setBits w lo k v).getLsbD j
      = (decide (j < 32) && if lo ≤ j ∧ j < lo + k then v.testBit (j - lo) else w.getLsbD j) := by
  unfold setBits w32 bits
  rw [BitVec.getLsbD_ofNat, replace_testBit]
  rfl

/-- A field reads the value put into it. -/
theorem bits_setBits_same (w : Word) (lo k v : Nat) (h : lo + k ≤ 32) : bits (setBits w lo k v) lo k = v % 2 ^ k := by
  apply Nat.eq_of_testBit_eq
  intro j
  rw [bits_testBit, setBits_getLsbD, Nat.testBit_mod_two_pow]
  by_cases hj : j < k
  · have : lo + j < 32 := by omega
    simp [hj, this]
  · simp [hj]

/-- A field that does not meet the one replaced keeps its value. -/
theorem bits_setBits_other (w : Word) (lo k v lo' k' : Nat) (h : lo' + k' ≤ lo ∨ lo + k ≤ lo') (h' : lo' + k' ≤ 32) :
    bits (setBits w lo k v) lo' k' = bits w lo' k' := by
  apply Nat.eq_of_testBit_eq
  intro j
  rw [bits_testBit, bits_testBit, setBits_getLsbD]
  by_cases hj : j < k'
  · have h1 : lo' + j < 32 := by omega
    have h2 : ¬ (lo ≤ lo' + j ∧ lo' + j < lo + k) := by omega
    simp [hj, h1, h2]
  · simp [hj]

theorem bit_setBits_same (w : Word) (i v : Nat) (h : i < 32) : bit (setBits w i 1 v) i = decide (v % 2 = 1) := by
  rw [bit, bits_setBits_same w i 1 v (by omega)]
  rcases Nat.mod_two_eq_zero_or_one v with h | h <;> simp [h]

theorem bit_setBits_other (w : Word) (lo k v i : Nat) (h : i < lo ∨ lo + k ≤ i) (h' : i < 32) :
    bit (setBits w lo k v) i = bit w i := by
  rw [bit, bit, bits_setBits_other w lo k v i 1 (by omega) (by omega)]

/-- A word with a field replaced by what it holds is the same word. -/
theorem setBits_self (w : Word) (lo k v : Nat) (hv : bits w lo k = v % 2 ^ k) : setBits w lo k v = w := by
  apply BitVec.eq_of_getLsbD_eq
  intro j hj
  rw [setBits_getLsbD]
  by_cases h1 : lo ≤ j ∧ j < lo + k
  · have e := congrArg (fun n => n.testBit (j - lo)) hv
    simp only [bits_testBit, Nat.testBit_mod_two_pow] at e
    have h2 : j - lo < k := by omega
    have h3 : lo + (j - lo) = j := by omega
    simp only [h2, decide_true, Bool.true_and, h3] at e
    rw [if_pos h1, e]; simp [hj]
  · simp [h1, hj]

/-- One bit of a word. -/
theorem bit_lsb (w : Word) (b : Nat) : bit w b = w.getLsbD b := by
  rw [bit, show (bits w b 1 == 1) = (bits w b 1).testBit 0 from ?_, bits_testBit]
  · simp
  · have : bits w b 1 < 2 := by unfold bits; omega
    interval_cases bits w b 1 <;> rfl

end Sys2Proof
end

