-- ==== Sys2Proof/Laws/Access.lean ====
section
/-! SUPPORT. What a register access by an agent of this node comes to: turned away, waiting, or the page's own write. -/

namespace Sys2Proof.Machine

theorem wordBytes_bytesNat (w : Word) : w32 (bytesNat (wordBytes w)) = w := by
  apply BitVec.eq_of_toNat_eq
  have h := w.isLt
  simp only [wordBytes, bytesNat, w32, BitVec.toNat_ofNat, Nat.shiftRight_eq_div_pow]
  omega

theorem pageBlock_lt {page : Nat} {x : Block × Nat} (h : pageBlock page = some x) : page < 0x100 := by
  by_contra hc
  unfold pageBlock at h
  repeat rw [if_neg (by omega)] at h
  cases h

/-- The tile whose clock an access waits for depends on the page alone. -/
theorem State.stalledTile_page (s : State) {page off : Nat} (ho : off < 0x1000) :
    s.stalledTile (pageKey page off) = s.stalledTile (pageKey page 0) := by
  have e : tileOfAddr (pageKey page off) = tileOfAddr (pageKey page 0) := by
    unfold tileOfAddr pageKey
    have c : page * 0x1000 + off < 0x1000000 ↔ page * 0x1000 + 0 < 0x1000000 := by omega
    rw [show (page * 0x1000 + off) / 0x1000 = (page * 0x1000 + 0) / 0x1000 by omega]
    simp only [c]
  unfold State.stalledTile
  rw [e]

theorem indPage_off {page off : Nat} (ho : off < 0x1000) (h8 : off ≠ 0x800) : indPage (pageKey page off) = none := by
  unfold indPage pageKey
  rw [if_neg]
  omega

theorem indPage_data {page : Nat} {b : Block} {i : Nat} (hb : pageBlock page = some (b, i)) (hi : hasInd b = true) :
    indPage (pageKey page 0x800) = some page := by
  have hp := pageBlock_lt hb
  have hd : pageKey page 0x800 / 0x1000 = page := by unfold pageKey; omega
  unfold indPage
  rw [hd, hb, if_pos ⟨by unfold pageKey; omega, by unfold pageKey; omega, hi⟩]

/-- An assigned page that the agent may use turns an access away only while the hub die does not run. -/
theorem State.turnedAway_page (s : State) {a : Agent} {page off n : Nat} {b : Block} {i : Nat} (hb : pageBlock page = some (b, i))
    (hs : stewardOwned b = true → a = .steward) (ho : off < 0x1000) :
    s.turnedAway (s.localOrigin a) (pageKey page off) n = if s.hubUp = true then none else some 2 := by
  have hp := pageBlock_lt hb
  have hd : pageKey page off / 0x1000 = page := by unfold pageKey; omega
  have hl : pageKey page off < 0x1000000 := by unfold pageKey; omega
  cases hu : s.hubUp
  · simp [State.turnedAway, hu]
  · simp [State.turnedAway, hu, hl, hd, hb, State.localOrigin]
    intro e
    simp [hs e]

theorem State.writeReaches_page (s : State) {a : Agent} {page off : Nat} {b : Block} {i : Nat} (hb : pageBlock page = some (b, i))
    (hs : stewardOwned b = true → a = .steward) (ho : off < 0x1000) (h4 : off % 4 = 0) :
    s.writeReaches (s.localOrigin a) (pageKey page off) 4 = s.hubUp := by
  have h4' : pageKey page off % 4 = 0 := by unfold pageKey; omega
  unfold State.writeReaches
  rw [s.turnedAway_page hb hs ho, h4']
  cases s.hubUp <;> simp

/-- A word written to a register now: the page's own write, answered OK; while the hub die does not run, TARGET_ABORT. -/
theorem State.writeNow_page (s : State) {a : Agent} {page off : Nat} {b : Block} {i : Nat} (v : Word) (hb : pageBlock page = some (b, i))
    (hs : stewardOwned b = true → a = .steward) (ho : off < 0x1000) (h4 : off % 4 = 0) :
    s.writeNow a (pageKey page off) (wordBytes v) =
      if s.hubUp = true then { s.pageWrite a page off v with reply := ⟨0, []⟩ } else s.localAnswer a (pageKey page off) 2 [] := by
  have hp := pageBlock_lt hb
  have hd : pageKey page off / 0x1000 = page := by unfold pageKey; omega
  have hm : pageKey page off % 0x1000 = off := by unfold pageKey; omega
  have hl : pageKey page off < 0x1000000 := by unfold pageKey; omega
  have h4' : pageKey page off % 4 = 0 := by unfold pageKey; omega
  have hw : (wordBytes v).length = 4 := rfl
  have ht := s.turnedAway_page (n := 4) hb hs ho
  unfold State.writeNow State.busWrite
  rw [hw]
  dsimp only
  rw [ht]
  cases s.hubUp
  · rfl
  · simp only [hl, h4', hd, hm, if_true, and_self, wordBytes_bytesNat, State.localAnswer]
    rfl

/-- All that a word written to a register by an agent that may use the page can come to, but for IND_DATA (R28, R128). -/
theorem State.agentReg_page (s : State) {a : Agent} {page off : Nat} {b : Block} {i : Nat} (v : Word) (hb : pageBlock page = some (b, i))
    (hs : stewardOwned b = true → a = .steward) (ho : off < 0x1000) (h4 : off % 4 = 0) (h8 : off ≠ 0x800) :
    s.agentReg a page off v =
      if s.hubUp = true then
        match s.stalledTile (pageKey page off) with
        | some t => s.stall t ⟨a, pageKey page off, some (wordBytes v), 0⟩
        | none => { s.pageWrite a page off v with reply := ⟨0, []⟩ }
      else s.localAnswer a (pageKey page off) 2 [] := by
  have hw : (wordBytes v).length = 4 := rfl
  unfold State.agentReg State.agentWrite
  rw [hw, s.writeReaches_page hb hs ho h4, indPage_off ho h8, s.writeNow_page v hb hs ho h4]
  cases s.hubUp
  · rfl
  · cases s.stalledTile (pageKey page off) <;> rfl

/-! The pages of tiles, channels and CAN controllers. -/

theorem pageBlock_ch {c : Nat} (h : c < 64) : pageBlock (0x80 + c) = some (.ch, c) := by
  revert c; decide +kernel

theorem pageBlock_tile {t : Nat} (h : t < 8) : pageBlock (0x40 + t) = some (.tile, t) := by
  revert t; decide +kernel

theorem pageBlock_can {n : Nat} (h : n < 16) : pageBlock (canPage n) = some (.can, n) := by
  revert n; decide +kernel

/-- A write of a channel's own registers. -/
theorem State.pageWrite_ch (s : State) (a : Agent) {c off : Nat} (v : Word) (hc : c < 64) (h1 : 0x050 ≤ off) (h2 : off < 0x800)
    (h3 : cntClrOff .ch ≠ some off) : s.pageWrite a (0x80 + c) off v = (s.tileWake (c / 8)).chWrite c off v := by
  unfold State.pageWrite
  rw [pageBlock_ch hc]
  dsimp only
  simp (disch := omega) only [if_neg, reduceCtorEq, if_false]
  rw [if_neg (fun e => h3 e.1)]
  rfl

/-- A write of a tile's own registers. -/
theorem State.pageWrite_tile (s : State) (a : Agent) {t off : Nat} (v : Word) (ht : t < 8) (h1 : 0x050 ≤ off) (h2 : off < 0x800) :
    s.pageWrite a (0x40 + t) off v = (s.tileWake t).tileWrite t off v := by
  unfold State.pageWrite
  rw [pageBlock_tile ht]
  dsimp only
  simp (disch := omega) only [if_neg, reduceCtorEq, if_false]
  rw [if_neg (fun e => e.2.2 rfl)]
  rfl

/-- A write of a CAN controller's own registers. -/
theorem State.pageWrite_can (s : State) (a : Agent) {n off : Nat} (v : Word) (hn : n < 16) (h1 : 0x050 ≤ off) (h2 : off < 0x800)
    (h3 : cntClrOff .can ≠ some off) : s.pageWrite a (canPage n) off v = s.canWrite n off v := by
  unfold State.pageWrite
  rw [pageBlock_can hn]
  dsimp only
  simp (disch := omega) only [if_neg, reduceCtorEq, if_false]
  rw [if_neg (fun e => h3 e.1)]
  rfl

end Sys2Proof.Machine
end

