-- ==== Sys2Proof/Laws/Keeps.lean ====
section
/-! SUPPORT. What every operation of the block keeps, and the small laws by which the lemma of an operation follows from those of the
operations it is made of. -/

namespace Sys2Proof.Machine

/-- `t` has the same commands waiting as `s`, its one-time programmable memory has only advanced, and it keeps the invariant. -/
structure Keeps (s t : State) : Prop where
  pending : t.pending = s.pending
  otp : OtpLe s.otp t.otp
  inv : s.Inv → t.Inv

theorem bv_or_keeps {w : Nat} (x y : BitVec w) : x &&& ~~~ (x ||| y) = 0 := by
  ext i hi
  cases hx : x.getLsbD i <;> simp_all [BitVec.getLsbD_eq_getElem]

theorem OtpLe.refl (a : OtpSt) : OtpLe a a := ⟨by simp, Nat.le_refl _, by simp⟩

theorem Keeps.refl (s : State) : Keeps s s := ⟨rfl, OtpLe.refl _, id⟩

theorem OtpLe.trans {a b c : OtpSt} (h : OtpLe a b) (k : OtpLe b c) : OtpLe a c := by
  refine ⟨?_, Nat.le_trans h.rollback k.rollback, ?_⟩
  · have h1 := h.revoked; have h2 := k.revoked
    generalize a.revoked = x at *; generalize b.revoked = y at *; generalize c.revoked = z at *
    ext i hi
    have e1 := congrArg (fun v => v.getLsbD i) h1
    have e2 := congrArg (fun v => v.getLsbD i) h2
    simp [hi] at e1 e2 ⊢
    grind
  · have h1 := h.fuses; have h2 := k.fuses
    generalize a.fuses = x at *; generalize b.fuses = y at *; generalize c.fuses = z at *
    ext i hi
    have e1 := congrArg (fun v => v.getLsbD i) h1
    have e2 := congrArg (fun v => v.getLsbD i) h2
    simp [hi] at e1 e2 ⊢
    grind

theorem Keeps.trans {a b c : State} (h : Keeps a b) (k : Keeps b c) : Keeps a c :=
  ⟨k.pending.trans h.pending, h.otp.trans k.otp, fun i => k.inv (h.inv i)⟩

theorem Tab.wf_set_at {α : Type} [DecidableEq α] {f : Nat → α} {t : Tab α} {k : Nat} {v : α} (h : Tab.wf f t = true) :
    Tab.wf f (Tab.set (f k) t k v) = true := by
  unfold Tab.set
  split
  · exact Tab.wf_drop h
  · exact Tab.wf_put h ‹_›

theorem Tab.above_filter {α : Type} {p : Nat × α → Bool} {t : Tab α} {j : Nat} (h : Tab.above j t = true) :
    Tab.above j (List.filter p t) = true := by
  induction t with
  | nil => rfl
  | cons e t ih =>
    obtain ⟨i, u⟩ := e
    simp only [Tab.above, Bool.and_eq_true] at h
    rw [List.filter_cons]
    split
    · simp only [Tab.above, Bool.and_eq_true]; exact ⟨h.1, ih h.2⟩
    · exact ih h.2

theorem Tab.wf_filter {α : Type} [DecidableEq α] {f : Nat → α} {p : Nat × α → Bool} {t : Tab α} (h : Tab.wf f t = true) :
    Tab.wf f (List.filter p t) = true := by
  induction t with
  | nil => rfl
  | cons e t ih =>
    obtain ⟨i, u⟩ := e
    simp only [Tab.wf, Bool.and_eq_true] at h
    rw [List.filter_cons]
    split
    · simp only [Tab.wf, Bool.and_eq_true]; exact ⟨⟨Tab.above_filter h.1.1, h.1.2⟩, ih h.2⟩
    · exact ih h.2

theorem Keeps.upd {s x t : State} (h : Keeps s x) (h1 : t.pending = x.pending) (h2 : t.otp = x.otp) (h3 : t.time.ns = x.time.ns)
   (h4 : t.mem = x.mem) (h5 : t.regs = x.regs) (h6 : t.lease = x.lease) : Keeps s t :=
  ⟨h1.trans h.pending, h2 ▸ h.otp, fun i => ⟨h3 ▸ (h.inv i).ns, h4 ▸ (h.inv i).mem, h5 ▸ (h.inv i).regs, h6 ▸ (h.inv i).lease⟩⟩

theorem Keeps.ite {s x y : State} {c : Prop} [Decidable c] (h : c → Keeps s x) (h' : ¬ c → Keeps s y) : Keeps s (if c then x else y) := by
  split
  · exact h ‹_›
  · exact h' ‹_›

theorem Keeps.ite2 {α : Type} {s : State} {x y : α × State} {c : Prop} [Decidable c] (h : c → Keeps s x.2) (h' : ¬ c → Keeps s y.2) :
    Keeps s (if c then x else y).2 := by
  split
  · exact h ‹_›
  · exact h' ‹_›

theorem Keeps.foldl {α : Type} {s : State} {l : List α} {f : State → α → State} {x : State} (hx : Keeps s x)
    (h : ∀ y a, Keeps s y → Keeps s (f y a)) : Keeps s (l.foldl f x) := by
  induction l generalizing x with
  | nil => exact hx
  | cons a l ih => exact ih (h x a hx)

theorem Keeps.of_snd {α : Type} {s x : State} {a : α} {p : α × State} (e : p = (a, x)) (h : Keeps s p.2) : Keeps s x := by
  subst e; exact h

theorem Keeps.mk_upd {s x : State} {tm : TimeSt} {frozen_ : Tab (Tab Word)} {heldIrq_ : Tab Word} {mbx_ : Tab (Option MbxJob)} {ind_ : Tab (List IndAccess)} {stalls_ : Tab (List Stall)} {checks_ : Tab CheckSt} {gathers_ : Tab Gather} {ecc_ : Tab EccSt} {recSeq_ : BitVec 16} {evq_ : Tab EvQueue} {msix_ : Tab MsixVec} {msixPba_ : List Nat} {msixEnable_ : Bool} {msixFuncMask_ : Bool} {hostTx_ : List HostTlp} {icu_ : IcuSt} {sram_ : Tab Word} {lines_ : Tab LineCell} {tiles_ : Tab TileSt} {stampOrder_ : Nat} {stampsHeld_ : Bool} {ctrs_ : Tab CtrSt} {fifos_ : Tab FifoSt} {plk_ : PlkSt} {wins_ : Tab WinEnt} {winOpen_ : List Nat} {winEdges_ : List WinEdge} {drill_ : Tab DrillEnt} {launches_ : List TimePoint} {rules_ : Tab Rule} {express_ : List Nat} {normal_ : List Nat} {eval_ : EvalSt} {sigOps_ : List Nat} {pubs_ : Tab PubSlot} {pubOpen_ : List PubOpen} {hbAt_ : Nat} {subs_ : Tab SubEnt} {net_ : NetSt} {ring_ : RingSt} {power_ : PowerState} {pulseDone_ : List PulseDone} {engs_ : Tab EngSt} {starts_ : List StartEvt} {ptp_ : PtpSt} {sources_ : Tab LocalSrc} {serial_ : Tab SerSt} {cans_ : Tab CanSt} {xbr_ : XbrSt} {host_ : HostSt} {dma_ : Tab DmaSt} {cores_ : Tab CoreSt} {tcm_ : Tab Byte} {stwSram_ : Tab Byte} {flash_ : Tab Byte} {boot_ : BootSt} {sha_ : List Byte} {pwr_ : PwrSt} {clk_ : ClkSt} {reply_ : Reply} {tclks_ : Nat} {freeTick_ : Nat} (h : Keeps s x) (ht : tm.ns = x.time.ns) :
    Keeps s { pending := x.pending, regs := x.regs, frozen := frozen_, heldIrq := heldIrq_, mbx := mbx_, ind := ind_, stalls := stalls_, checks := checks_, gathers := gathers_, ecc := ecc_, recSeq := recSeq_, time := tm, mem := x.mem, evq := evq_, msix := msix_, msixPba := msixPba_, msixEnable := msixEnable_, msixFuncMask := msixFuncMask_, hostTx := hostTx_, icu := icu_, sram := sram_, lines := lines_, tiles := tiles_, stampOrder := stampOrder_, stampsHeld := stampsHeld_, ctrs := ctrs_, fifos := fifos_, lease := x.lease, plk := plk_, wins := wins_, winOpen := winOpen_, winEdges := winEdges_, drill := drill_, launches := launches_, rules := rules_, express := express_, normal := normal_, eval := eval_, sigOps := sigOps_, pubs := pubs_, pubOpen := pubOpen_, hbAt := hbAt_, subs := subs_, net := net_, ring := ring_, power := power_, pulseDone := pulseDone_, engs := engs_, starts := starts_, ptp := ptp_, sources := sources_, serial := serial_, cans := cans_, xbr := xbr_, host := host_, dma := dma_, cores := cores_, tcm := tcm_, stwSram := stwSram_, flash := flash_, boot := boot_, otp := x.otp, sha := sha_, pwr := pwr_, clk := clk_, reply := reply_, tclks := tclks_, freeTick := freeTick_ } := h.upd rfl rfl ht rfl rfl rfl

/-- The command ends in a next state that keeps what every step keeps. -/
def Answers (s : State) (o : Host.Outcome State Fault Refusal) : Prop := ∃ t, o = .next t ∧ Keeps s t

theorem Keeps.ite1 {α : Type} {s : State} {x y : State × α} {c : Prop} [Decidable c] (h : c → Keeps s x.1) (h' : ¬ c → Keeps s y.1) :
    Keeps s (if c then x else y).1 := by
  split
  · exact h ‹_›
  · exact h' ‹_›
theorem Keeps.ite22 {α β : Type} {s : State} {x y : α × β × State} {c : Prop} [Decidable c] (h : c → Keeps s x.2.2) (h' : ¬ c → Keeps s y.2.2) :
    Keeps s (if c then x else y).2.2 := by
  split
  · exact h ‹_›
  · exact h' ‹_›
theorem Keeps.of2 {α : Type} {s x : State} {a : α} {p : α × State} (e : p = (a, x)) (h : Keeps s p.2) : Keeps s x := by
  subst e; exact h
theorem Keeps.of1 {α : Type} {s x : State} {a : α} {p : State × α} (e : p = (x, a)) (h : Keeps s p.1) : Keeps s x := by
  subst e; exact h
theorem Keeps.of22 {α β : Type} {s x : State} {a : α} {b : β} {p : α × β × State} (e : p = (a, b, x)) (h : Keeps s p.2.2) : Keeps s x := by
  subst e; exact h

theorem Keeps.pair2 {α : Type} {s x : State} {a : α} (h : Keeps s x) : Keeps s (a, x).2 := h
theorem Keeps.pair1 {α : Type} {s x : State} {a : α} (h : Keeps s x) : Keeps s (x, a).1 := h
theorem Keeps.pair22 {α β : Type} {s : State} {x : β × State} {a : α} (h : Keeps s x.2) : Keeps s (a, x).2.2 := h
theorem Keeps.pair222 {α β γ : Type} {s : State} {x : β × γ × State} {a : α} (h : Keeps s x.2.2) : Keeps s (a, x).2.2.2 := h

end Sys2Proof.Machine
end

