-- ==== Sys2Proof/Laws/KeepsField.lean ====
section
/-! SUPPORT. What each operation and each command keeps: records, the lease, FIFOs, time and its operands, windows, lines, drill entries, frames and signals. -/

namespace Sys2Proof.Machine

theorem State.wr_keeps {s0 s : State} (h : Keeps s0 s) (k : Nat) (v : Word) : Keeps s0 (s.wr k v) :=
  h.trans ⟨rfl, OtpLe.refl _, fun i => ⟨i.ns, i.mem, Tab.wf_set_at i.regs, i.lease⟩⟩

theorem State.wrShown_keeps {s0 s : State} (h : Keeps s0 s) (a_page : ℕ) (a_off : ℕ) (a_v : Sys2Proof.Word) :
    Keeps s0 (State.wrShown s a_page a_off a_v) := by
  unfold State.wrShown
  extract_lets -merge -useContext -underBinder +onlyGivenNames x0
  have h0 : Keeps s0 x0 := by
    unfold x0
    refine State.wr_keeps ?_ _ _
    exact h
  extract_lets -merge -useContext -underBinder +onlyGivenNames x1
  refine Keeps.ite (fun _ => ?_) (fun _ => ?_)
  · exact h0
  · refine Keeps.mk_upd ?_ rfl
    exact h0

theorem State.setFld_keeps {s0 s : State} (h : Keeps s0 s) (a_k : ℕ) (a_lo : ℕ) (a_width : ℕ) (a_v : ℕ) :
    Keeps s0 (State.setFld s a_k a_lo a_width a_v) := by
  unfold State.setFld
  refine State.wr_keeps ?_ _ _
  exact h

theorem State.bump_keeps {s0 s : State} (h : Keeps s0 s) (a_k : ℕ) :
    Keeps s0 (State.bump s a_k) := by
  unfold State.bump
  refine State.wr_keeps ?_ _ _
  exact h

theorem State.bumpBy_keeps {s0 s : State} (h : Keeps s0 s) (a_k : ℕ) (a_n : ℕ) :
    Keeps s0 (State.bumpBy s a_k a_n) := by
  unfold State.bumpBy
  refine State.wr_keeps ?_ _ _
  exact h

theorem State.zeroRegs_keeps {s0 s : State} (h : Keeps s0 s) (k n : Nat) : Keeps s0 (s.zeroRegs k n) := by
  refine h.trans ⟨rfl, OtpLe.refl _, fun i => ⟨i.ns, i.mem, ?_, i.lease⟩⟩
  have hr := i.regs
  unfold State.zeroRegs
  generalize s.regs = t at hr ⊢
  show Tab.wf regReset (List.foldl _ t (upFrom 0 n)) = true
  induction upFrom 0 n generalizing t with
  | nil => exact hr
  | cons j l ih => exact ih _ (Tab.wf_set_at hr)

theorem State.memSet_keeps {s0 s : State} (h : Keeps s0 s) (a : Nat) (b : Byte) : Keeps s0 (s.memSet a b) :=
  h.trans ⟨rfl, OtpLe.refl _, fun i => ⟨i.ns, Tab.wf_set i.mem, i.regs, i.lease⟩⟩

theorem State.memPut_keeps {s0 s : State} (h : Keeps s0 s) (a : Nat) (l : List Byte) : Keeps s0 (s.memPut a l) := by
  induction l generalizing s a with
  | nil => exact h
  | cons b l ih => exact ih (State.memSet_keeps h a b) (a + 1)

theorem State.answered_keeps {s0 s : State} (h : Keeps s0 s) (a_w : Sys2Proof.Word) :
    Keeps s0 (State.answered s a_w) := by
  unfold State.answered
  refine Keeps.mk_upd ?_ rfl
  exact h

theorem State.fresh_keeps {s0 s : State} (h : Keeps s0 s)  :
    Keeps s0 (State.fresh s).2 := by
  unfold State.fresh
  refine Keeps.pair2 ?_
  refine Keeps.mk_upd ?_ rfl
  exact h

theorem State.sendTlp_keeps {s0 s : State} (h : Keeps s0 s) (a_t : Sys2Proof.Machine.HostTlp) :
    Keeps s0 (State.sendTlp s a_t) := by
  unfold State.sendTlp
  refine Keeps.mk_upd ?_ rfl
  exact h

theorem State.msixSend_keeps {s0 s : State} (h : Keeps s0 s) (a_v : ℕ) :
    Keeps s0 (State.msixSend s a_v) := by
  unfold State.msixSend
  extract_lets -merge -useContext -underBinder +onlyGivenNames x0
  refine Keeps.ite (fun _ => ?_) (fun _ => ?_)
  · refine Keeps.mk_upd ?_ rfl
    exact h
  · refine State.sendTlp_keeps ?_ _
    exact h

theorem State.withHostRequest_keeps {s0 s : State} (h : Keeps s0 s) (a_f : Sys2Proof.Machine.State → Sys2Proof.Machine.State) (Ha_f : ∀ z0, Keeps s0 z0 → Keeps s0 (a_f z0)) :
    Keeps s0 (State.withHostRequest s a_f) := by
  unfold State.withHostRequest
  extract_lets -merge -useContext -underBinder +onlyGivenNames x0
  have h0 : Keeps s0 x0 := by
    unfold x0
    refine Ha_f _ ?_
    exact h
  refine Keeps.ite (fun _ => ?_) (fun _ => ?_)
  · refine State.msixSend_keeps ?_ _
    exact h0
  · exact h0

theorem State.icuPend_keeps {s0 s : State} (h : Keeps s0 s) (a_id : ℕ) :
    Keeps s0 (State.icuPend s a_id) := by
  unfold State.icuPend
  refine State.withHostRequest_keeps ?_ _ (fun y0 h0 => ?_)
  · exact h
  · refine Keeps.mk_upd ?_ rfl
    exact h0

theorem State.icuPrivate_keeps {s0 s : State} (h : Keeps s0 s) (a_t : ℕ) (a_j : ℕ) :
    Keeps s0 (State.icuPrivate s a_t a_j) := by
  unfold State.icuPrivate
  refine Keeps.mk_upd ?_ rfl
  exact h

theorem State.withRequest_keeps {s0 s : State} (h : Keeps s0 s) (a_page : ℕ) (a_f : Sys2Proof.Machine.State → Sys2Proof.Machine.State) (Ha_f : ∀ z0, Keeps s0 z0 → Keeps s0 (a_f z0)) :
    Keeps s0 (State.withRequest s a_page a_f) := by
  unfold State.withRequest
  extract_lets -merge -useContext -underBinder +onlyGivenNames x0
  have h0 : Keeps s0 x0 := by
    unfold x0
    refine Ha_f _ ?_
    exact h
  refine Keeps.ite (fun _ => ?_) (fun _ => ?_)
  · refine State.icuPend_keeps ?_ _
    exact h0
  · exact h0

theorem State.raise_keeps {s0 s : State} (h : Keeps s0 s) (a_page : ℕ) (a_b : ℕ) :
    Keeps s0 (State.raise s a_page a_b) := by
  unfold State.raise
  refine State.withRequest_keeps ?_ _ _ (fun y0 h0 => ?_)
  · exact h
  · refine Keeps.ite (fun _ => ?_) (fun _ => ?_)
    · refine Keeps.mk_upd ?_ rfl
      exact h0
    · refine State.wr_keeps ?_ _ _
      exact h0

theorem State.setEvQueue_keeps {s0 s : State} (h : Keeps s0 s) (a_n : ℕ) (a_q : Sys2Proof.Machine.EvQueue) :
    Keeps s0 (State.setEvQueue s a_n a_q) := by
  unfold State.setEvQueue
  refine Keeps.mk_upd ?_ rfl
  exact h

theorem State.evWrite_keeps {s0 s : State} (h : Keeps s0 s) (a_n : ℕ) (a_addr : ℕ) (a_ws : List Sys2Proof.Word) :
    Keeps s0 (State.evWrite s a_n a_addr a_ws) := by
  unfold State.evWrite
  refine Keeps.ite (fun _ => ?_) (fun _ => ?_)
  · refine Keeps.ite (fun _ => ?_) (fun _ => ?_)
    · refine State.memPut_keeps ?_ _ _
      exact h
    · exact h
  · refine State.sendTlp_keeps ?_ _
    exact h

theorem State.evWritePi_keeps {s0 s : State} (h : Keeps s0 s) (a_n : ℕ) :
    Keeps s0 (State.evWritePi s a_n) := by
  unfold State.evWritePi
  refine Keeps.ite (fun _ => ?_) (fun _ => ?_)
  · extract_lets -merge -useContext -underBinder +onlyGivenNames x0
    refine State.evWrite_keeps ?_ _ _ _
    exact h
  · exact h

theorem State.evAnnounce_keeps {s0 s : State} (h : Keeps s0 s) (a_n : ℕ) :
    Keeps s0 (State.evAnnounce s a_n) := by
  unfold State.evAnnounce
  extract_lets -merge -useContext -underBinder +onlyGivenNames x0
  have h0 : Keeps s0 x0 := by
    unfold x0
    refine State.evWritePi_keeps ?_ _
    exact h
  extract_lets -merge -useContext -underBinder +onlyGivenNames x1
  extract_lets -merge -useContext -underBinder +onlyGivenNames x2
  have h2 : Keeps s0 x2 := by
    unfold x2
    refine State.setEvQueue_keeps ?_ _ _
    exact h0
  refine Keeps.ite (fun _ => ?_) (fun _ => ?_)
  · refine State.raise_keeps ?_ _ _
    exact h2
  · refine State.msixSend_keeps ?_ _
    exact h2

theorem State.evStore_keeps {s0 s : State} (h : Keeps s0 s) (a_n : ℕ) (a_r : Sys2Proof.Machine.Rec) :
    Keeps s0 (State.evStore s a_n a_r) := by
  unfold State.evStore
  extract_lets -merge -useContext -underBinder +onlyGivenNames x0
  extract_lets -merge -useContext -underBinder +onlyGivenNames x1
  extract_lets -merge -useContext -underBinder +onlyGivenNames x2
  extract_lets -merge -useContext -underBinder +onlyGivenNames x3
  extract_lets -merge -useContext -underBinder +onlyGivenNames x4
  have h4 : Keeps s0 x4 := by
    unfold x4
    refine Keeps.ite (fun _ => ?_) (fun _ => ?_)
    · refine State.evWrite_keeps ?_ _ _ _
      refine State.evWrite_keeps ?_ _ _ _
      exact h
    · refine State.evWrite_keeps ?_ _ _ _
      exact h
  extract_lets -merge -useContext -underBinder +onlyGivenNames x5
  refine State.setEvQueue_keeps ?_ _ _
  exact h4

theorem State.evModerate_keeps {s0 s : State} (h : Keeps s0 s) (a_n : ℕ) :
    Keeps s0 (State.evModerate s a_n) := by
  unfold State.evModerate
  extract_lets -merge -useContext -underBinder +onlyGivenNames x0
  extract_lets -merge -useContext -underBinder +onlyGivenNames x1
  refine Keeps.ite (fun _ => ?_) (fun _ => ?_)
  · refine State.evAnnounce_keeps ?_ _
    exact h
  · exact h

theorem State.mkRec_keeps {s0 s : State} (h : Keeps s0 s) (a_ty : ℕ) (a_sev : ℕ) (a_b : Sys2Proof.Machine.Block) (a_inst : ℕ) (a_flags : ℕ) (a_t : Sys2Proof.TimePoint) (a_q : ℕ) (a_w4 : Sys2Proof.Word) (a_w5 : Sys2Proof.Word) (a_w6 : Sys2Proof.Word) (a_w7 : Sys2Proof.Word) :
    Keeps s0 (State.mkRec s a_ty a_sev a_b a_inst a_flags a_t a_q a_w4 a_w5 a_w6 a_w7).2 := by
  unfold State.mkRec
  refine Keeps.pair2 ?_
  refine Keeps.mk_upd ?_ rfl
  exact h

theorem State.evRecover_keeps {s0 s : State} (h : Keeps s0 s) (a_n : ℕ) :
    Keeps s0 (State.evRecover s a_n) := by
  unfold State.evRecover
  extract_lets -merge -useContext -underBinder +onlyGivenNames x0
  refine Keeps.ite (fun _ => ?_) (fun _ => ?_)
  · split
    · next y1_0 y1_1 e1 =>
        have g1 : Keeps s0 y1_1 := by
          refine Keeps.of2 e1 ?_
          refine State.mkRec_keeps ?_ _ _ _ _ _ _ _ _ _ _ _
          exact h
        extract_lets -merge -useContext -underBinder +onlyGivenNames x2
        extract_lets -merge -useContext -underBinder +onlyGivenNames x3
        have h3 : Keeps s0 x3 := by
          unfold x3
          refine State.setEvQueue_keeps ?_ _ _
          exact g1
        refine State.evModerate_keeps ?_ _
        refine State.evStore_keeps ?_ _ _
        exact h3
  · exact h

theorem State.evOffer_keeps {s0 s : State} (h : Keeps s0 s) (a_n : ℕ) (a_r : Sys2Proof.Machine.Rec) :
    Keeps s0 (State.evOffer s a_n a_r) := by
  unfold State.evOffer
  extract_lets -merge -useContext -underBinder +onlyGivenNames x0
  have h0 : Keeps s0 x0 := by
    unfold x0
    refine State.evRecover_keeps ?_ _
    exact h
  extract_lets -merge -useContext -underBinder +onlyGivenNames x1
  extract_lets -merge -useContext -underBinder +onlyGivenNames x2
  refine Keeps.ite (fun _ => ?_) (fun _ => ?_)
  · refine State.bump_keeps ?_ _
    refine State.setEvQueue_keeps ?_ _ _
    exact h0
  · refine Keeps.ite (fun _ => ?_) (fun _ => ?_)
    · refine State.evModerate_keeps ?_ _
      refine State.evStore_keeps ?_ _ _
      exact h0
    · extract_lets -merge -useContext -underBinder +onlyGivenNames x3
      have h3 : Keeps s0 x3 := by
        unfold x3
        refine State.setEvQueue_keeps ?_ _ _
        exact h0
      extract_lets -merge -useContext -underBinder +onlyGivenNames x4
      have h4 : Keeps s0 x4 := by
        unfold x4
        refine State.evWritePi_keeps ?_ _
        refine State.bump_keeps ?_ _
        exact h3
      extract_lets -merge -useContext -underBinder +onlyGivenNames x5
      have h5 : Keeps s0 x5 := by
        unfold x5
        refine State.raise_keeps ?_ _ _
        exact h4
      refine Keeps.ite (fun _ => ?_) (fun _ => ?_)
      · exact h5
      · refine State.msixSend_keeps ?_ _
        exact h5

theorem State.route_keeps {s0 s : State} (h : Keeps s0 s) (a_r : Sys2Proof.Machine.Rec) :
    Keeps s0 (State.route s a_r) := by
  unfold State.route
  extract_lets -merge -useContext -underBinder +onlyGivenNames x0
  extract_lets -merge -useContext -underBinder +onlyGivenNames x1
  extract_lets -merge -useContext -underBinder +onlyGivenNames x2
  refine Keeps.ite (fun _ => ?_) (fun _ => ?_)
  · refine State.evOffer_keeps ?_ _ _
    exact h
  · refine State.bump_keeps ?_ _
    exact h

theorem State.postFull_keeps {s0 s : State} (h : Keeps s0 s) (a_ty : ℕ) (a_sev : ℕ) (a_b : Sys2Proof.Machine.Block) (a_inst : ℕ) (a_flags : ℕ) (a_t : Sys2Proof.TimePoint) (a_q : ℕ) (a_w4 : Sys2Proof.Word) (a_w5 : Sys2Proof.Word) (a_w6 : Sys2Proof.Word) (a_w7 : Sys2Proof.Word) :
    Keeps s0 (State.postFull s a_ty a_sev a_b a_inst a_flags a_t a_q a_w4 a_w5 a_w6 a_w7) := by
  unfold State.postFull
  split
  · next y0_0 y0_1 e0 =>
      have g0 : Keeps s0 y0_1 := by
        refine Keeps.of2 e0 ?_
        refine State.mkRec_keeps ?_ _ _ _ _ _ _ _ _ _ _ _
        exact h
      refine State.route_keeps ?_ _
      exact g0

theorem State.postAt_keeps {s0 s : State} (h : Keeps s0 s) (a_ty : ℕ) (a_b : Sys2Proof.Machine.Block) (a_inst : ℕ) (a_flags : ℕ) (a_t : Sys2Proof.TimePoint) (a_q : ℕ) (a_w4 : Sys2Proof.Word) (a_w5 : Sys2Proof.Word) (a_w6 : Sys2Proof.Word) (a_w7 : Sys2Proof.Word) :
    Keeps s0 (State.postAt s a_ty a_b a_inst a_flags a_t a_q a_w4 a_w5 a_w6 a_w7) := by
  unfold State.postAt
  refine State.postFull_keeps ?_ _ _ _ _ _ _ _ _ _ _ _
  exact h

theorem State.post_keeps {s0 s : State} (h : Keeps s0 s) (a_ty : ℕ) (a_b : Sys2Proof.Machine.Block) (a_inst : ℕ) (a_flags : ℕ) (a_w4 : Sys2Proof.Word) (a_w5 : Sys2Proof.Word) (a_w6 : Sys2Proof.Word) (a_w7 : Sys2Proof.Word) :
    Keeps s0 (State.post s a_ty a_b a_inst a_flags a_w4 a_w5 a_w6 a_w7) := by
  unfold State.post
  refine State.postAt_keeps ?_ _ _ _ _ _ _ _ _ _ _
  exact h

theorem State.setCheck_keeps {s0 s : State} (h : Keeps s0 s) (a_page : ℕ) (a_check : ℕ) (a_c : Sys2Proof.Machine.CheckSt) :
    Keeps s0 (State.setCheck s a_page a_check a_c) := by
  unfold State.setCheck
  refine Keeps.mk_upd ?_ rfl
  exact h

theorem State.postPageAt_keeps {s0 s : State} (h : Keeps s0 s) (a_ty : ℕ) (a_page : ℕ) (a_flags : ℕ) (a_t : Sys2Proof.TimePoint) (a_q : ℕ) (a_w4 : Sys2Proof.Word) (a_w5 : Sys2Proof.Word) (a_w6 : Sys2Proof.Word) (a_w7 : Sys2Proof.Word) :
    Keeps s0 (State.postPageAt s a_ty a_page a_flags a_t a_q a_w4 a_w5 a_w6 a_w7) := by
  unfold State.postPageAt
  split
  · refine State.postAt_keeps ?_ _ _ _ _ _ _ _ _ _ _
    exact h
  · exact h

theorem State.postPage_keeps {s0 s : State} (h : Keeps s0 s) (a_ty : ℕ) (a_page : ℕ) (a_flags : ℕ) (a_w4 : Sys2Proof.Word) (a_w5 : Sys2Proof.Word) (a_w6 : Sys2Proof.Word) (a_w7 : Sys2Proof.Word) :
    Keeps s0 (State.postPage s a_ty a_page a_flags a_w4 a_w5 a_w6 a_w7) := by
  unfold State.postPage
  refine State.postPageAt_keeps ?_ _ _ _ _ _ _ _ _ _
  exact h

theorem State.powQueue_keeps {s0 s : State} (h : Keeps s0 s) (a_r : Sys2Proof.Machine.PowRec) :
    Keeps s0 (State.powQueue s a_r) := by
  unfold State.powQueue
  extract_lets -merge -useContext -underBinder +onlyGivenNames x0
  refine Keeps.mk_upd ?_ rfl
  exact h

theorem State.powEmit_keeps {s0 s : State} (h : Keeps s0 s) (a_r : Sys2Proof.Machine.PowRec) :
    Keeps s0 (State.powEmit s a_r) := by
  unfold State.powEmit
  extract_lets -merge -useContext -underBinder +onlyGivenNames x0
  extract_lets -merge -useContext -underBinder +onlyGivenNames x1
  extract_lets -merge -useContext -underBinder +onlyGivenNames x2
  have h2 : Keeps s0 x2 := by
    unfold x2
    refine Keeps.mk_upd ?_ rfl
    exact h
  extract_lets -merge -useContext -underBinder +onlyGivenNames x3
  have h3 : Keeps s0 x3 := by
    unfold x3
    split
    · refine State.raise_keeps ?_ _ _
      exact h2
    · exact h2
  refine State.postPageAt_keeps ?_ _ _ _ _ _ _ _ _ _
  exact h3

theorem State.powRecord_keeps {s0 s : State} (h : Keeps s0 s) (a_r : Sys2Proof.Machine.PowRec) :
    Keeps s0 (State.powRecord s a_r) := by
  unfold State.powRecord
  refine Keeps.ite (fun _ => ?_) (fun _ => ?_)
  · refine State.powEmit_keeps ?_ _
    exact h
  · refine State.powQueue_keeps ?_ _
    exact h

theorem State.qualRecord_keeps {s0 s : State} (h : Keeps s0 s) (a_ty : ℕ) (a_page : ℕ) (a_t : Sys2Proof.TimePoint) (a_q : ℕ) (a_w4 : Sys2Proof.Word) (a_w5 : Sys2Proof.Word) (a_w6 : Sys2Proof.Word) (a_w7 : Sys2Proof.Word) :
    Keeps s0 (State.qualRecord s a_ty a_page a_t a_q a_w4 a_w5 a_w6 a_w7) := by
  unfold State.qualRecord
  refine Keeps.ite (fun _ => ?_) (fun _ => ?_)
  · refine State.powRecord_keeps ?_ _
    exact h
  · refine State.postPageAt_keeps ?_ _ _ _ _ _ _ _ _ _
    exact h

theorem State.qualPost_keeps {s0 s : State} (h : Keeps s0 s) (a_page : ℕ) (a_check : ℕ) :
    Keeps s0 (State.qualPost s a_page a_check) := by
  unfold State.qualPost
  extract_lets -merge -useContext -underBinder +onlyGivenNames x0
  extract_lets -merge -useContext -underBinder +onlyGivenNames x1
  have h1 : Keeps s0 x1 := by
    unfold x1
    refine State.setCheck_keeps ?_ _ _ _
    exact h
  refine State.qualRecord_keeps ?_ _ _ _ _ _ _ _ _
  exact h1

theorem State.qualFailAt_keeps {s0 s : State} (h : Keeps s0 s) (a_page : ℕ) (a_check : ℕ) (a_item : ℕ) (a_value : Sys2Proof.Word) (a_counter : ℕ) (a_t : Sys2Proof.TimePoint) (a_q : ℕ) :
    Keeps s0 (State.qualFailAt s a_page a_check a_item a_value a_counter a_t a_q) := by
  unfold State.qualFailAt
  extract_lets -merge -useContext -underBinder +onlyGivenNames x0
  have h0 : Keeps s0 x0 := by
    unfold x0
    refine State.bump_keeps ?_ _
    exact h
  extract_lets -merge -useContext -underBinder +onlyGivenNames x1
  extract_lets -merge -useContext -underBinder +onlyGivenNames x2
  extract_lets -merge -useContext -underBinder +onlyGivenNames x3
  extract_lets -merge -useContext -underBinder +onlyGivenNames x4
  have h4 : Keeps s0 x4 := by
    unfold x4
    refine State.setCheck_keeps ?_ _ _ _
    exact h0
  refine Keeps.ite (fun _ => ?_) (fun _ => ?_)
  · exact h4
  · refine State.qualPost_keeps ?_ _ _
    exact h4

theorem State.qualFail_keeps {s0 s : State} (h : Keeps s0 s) (a_page : ℕ) (a_check : ℕ) (a_item : ℕ) (a_value : Sys2Proof.Word) (a_counter : ℕ) :
    Keeps s0 (State.qualFail s a_page a_check a_item a_value a_counter) := by
  unfold State.qualFail
  refine State.qualFailAt_keeps ?_ _ _ _ _ _ _ _
  exact h

theorem State.qualClear_keeps {s0 s : State} (h : Keeps s0 s) (a_page : ℕ) (a_check : ℕ) (a_item : ℕ) (a_value : Sys2Proof.Word) :
    Keeps s0 (State.qualClear s a_page a_check a_item a_value) := by
  unfold State.qualClear
  extract_lets -merge -useContext -underBinder +onlyGivenNames x0
  refine Keeps.ite (fun _ => ?_) (fun _ => ?_)
  · extract_lets -merge -useContext -underBinder +onlyGivenNames x1
    have h1 : Keeps s0 x1 := by
      unfold x1
      refine Keeps.ite (fun _ => ?_) (fun _ => ?_)
      · exact h
      · refine State.qualPost_keeps ?_ _ _
        exact h
    extract_lets -merge -useContext -underBinder +onlyGivenNames x2
    extract_lets -merge -useContext -underBinder +onlyGivenNames x3
    have h3 : Keeps s0 x3 := by
      unfold x3
      refine State.setCheck_keeps ?_ _ _ _
      exact h1
    refine State.qualRecord_keeps ?_ _ _ _ _ _ _ _ _
    exact h3
  · exact h

theorem State.gatherPost_keeps {s0 s : State} (h : Keeps s0 s) (a_k : ℕ) :
    Keeps s0 (State.gatherPost s a_k) := by
  unfold State.gatherPost
  extract_lets -merge -useContext -underBinder +onlyGivenNames x0
  extract_lets -merge -useContext -underBinder +onlyGivenNames x1
  have h1 : Keeps s0 x1 := by
    unfold x1
    refine Keeps.mk_upd ?_ rfl
    exact h
  extract_lets -merge -useContext -underBinder +onlyGivenNames x2
  refine State.postPageAt_keeps ?_ _ _ _ _ _ _ _ _ _
  exact h1

theorem State.gather_keeps {s0 s : State} (h : Keeps s0 s) (a_k : ℕ) (a_new : Sys2Proof.Machine.Gather) :
    Keeps s0 (State.gather s a_k a_new) := by
  unfold State.gather
  extract_lets -merge -useContext -underBinder +onlyGivenNames x0
  extract_lets -merge -useContext -underBinder +onlyGivenNames x1
  extract_lets -merge -useContext -underBinder +onlyGivenNames x2
  have h2 : Keeps s0 x2 := by
    unfold x2
    refine Keeps.mk_upd ?_ rfl
    exact h
  refine Keeps.ite (fun _ => ?_) (fun _ => ?_)
  · exact h2
  · refine State.gatherPost_keeps ?_ _
    exact h2

theorem State.eccPost_keeps {s0 s : State} (h : Keeps s0 s) (a_page : ℕ) (a_mem : ℕ) (a_uncorr : Bool) :
    Keeps s0 (State.eccPost s a_page a_mem a_uncorr) := by
  unfold State.eccPost
  extract_lets -merge -useContext -underBinder +onlyGivenNames x0
  extract_lets -merge -useContext -underBinder +onlyGivenNames x1
  have h1 : Keeps s0 x1 := by
    unfold x1
    refine Keeps.mk_upd ?_ rfl
    exact h
  refine State.postPageAt_keeps ?_ _ _ _ _ _ _ _ _ _
  exact h1

theorem State.eccNote_keeps {s0 s : State} (h : Keeps s0 s) (a_scrub : Bool) (a_page : ℕ) (a_mem : ℕ) (a_uncorr : Bool) (a_addr : Sys2Proof.Word) (a_syndrome : Sys2Proof.Word) :
    Keeps s0 (State.eccNote s a_scrub a_page a_mem a_uncorr a_addr a_syndrome) := by
  unfold State.eccNote
  extract_lets -merge -useContext -underBinder +onlyGivenNames x0
  extract_lets -merge -useContext -underBinder +onlyGivenNames x1
  extract_lets -merge -useContext -underBinder +onlyGivenNames x2
  extract_lets -merge -useContext -underBinder +onlyGivenNames x3
  have h3 : Keeps s0 x3 := by
    unfold x3
    refine Keeps.mk_upd ?_ rfl
    exact h
  refine Keeps.ite (fun _ => ?_) (fun _ => ?_)
  · exact h3
  · refine State.eccPost_keeps ?_ _ _ _
    exact h3

theorem State.eccError_keeps {s0 s : State} (h : Keeps s0 s) (a_page : ℕ) (a_mem : ℕ) (a_uncorr : Bool) (a_addr : Sys2Proof.Word) (a_syndrome : Sys2Proof.Word) :
    Keeps s0 (State.eccError s a_page a_mem a_uncorr a_addr a_syndrome) := by
  unfold State.eccError
  refine State.eccNote_keeps ?_ _ _ _ _ _ _
  exact h

theorem State.mbxAccept_keeps {s0 s : State} (h : Keeps s0 s) (a_page : ℕ) (a_start : Sys2Proof.Machine.State → Sys2Proof.Machine.State) (Ha_start : ∀ z0, Keeps s0 z0 → Keeps s0 (a_start z0)) :
    Keeps s0 (State.mbxAccept s a_page a_start) := by
  unfold State.mbxAccept
  refine Keeps.ite (fun _ => ?_) (fun _ => ?_)
  · refine State.setFld_keeps ?_ _ _ _ _
    exact h
  · refine Ha_start _ ?_
    refine State.wr_keeps ?_ _ _
    exact h

theorem State.mbxAnswer_keeps {s0 s : State} (h : Keeps s0 s) (a_page : ℕ) (a_a : Sys2Proof.Machine.MbxAns) :
    Keeps s0 (State.mbxAnswer s a_page a_a) := by
  unfold State.mbxAnswer
  refine Keeps.mk_upd ?_ rfl
  exact h

theorem State.mbxCommand_keeps {s0 s : State} (h : Keeps s0 s) (a_page : ℕ) (a_f : Sys2Proof.Machine.State → Sys2Proof.Machine.MbxAns × Sys2Proof.Machine.State) (Ha_f : ∀ z0, Keeps s0 z0 → Keeps s0 (a_f z0).2) :
    Keeps s0 (State.mbxCommand s a_page a_f) := by
  unfold State.mbxCommand
  refine State.mbxAccept_keeps ?_ _ _ (fun y0 h0 => ?_)
  · exact h
  · refine State.mbxAnswer_keeps ?_ _ _
    refine Ha_f _ ?_
    exact h0

theorem State.mbxResult_keeps {s0 s : State} (h : Keeps s0 s) (a_page : ℕ) (a_n : ℕ) (a_x : Option Sys2Proof.Word) :
    Keeps s0 (State.mbxResult s a_page a_n a_x) := by
  unfold State.mbxResult
  split
  · exact h
  · refine State.wr_keeps ?_ _ _
    exact h

theorem State.setLine_keeps {s0 s : State} (h : Keeps s0 s) (a_k : ℕ) (a_c : Sys2Proof.Machine.LineCell) :
    Keeps s0 (State.setLine s a_k a_c) := by
  unfold State.setLine
  refine Keeps.mk_upd ?_ rfl
  exact h

theorem State.setLease_keeps {s0 s : State} (h : Keeps s0 s) (f : LeaseSt → LeaseSt) (hf : s.lease.ok → (f s.lease).ok) :
    Keeps s0 (s.setLease f) := h.trans ⟨rfl, OtpLe.refl _, fun i => ⟨i.ns, i.mem, i.regs, hf i.lease⟩⟩

theorem State.leaseEnter_keeps {s0 s : State} (h : Keeps s0 s) (st : LeaseState) (f : LeaseSt → LeaseSt)
    (hf : s.lease.ok → LeaseSt.ok { f s.lease with st, since := s.tclks }) : Keeps s0 (s.leaseEnter st f) :=
  State.setLease_keeps h _ hf

theorem State.compareTrack_keeps {s0 s : State} (h : Keeps s0 s)  :
    Keeps s0 (State.compareTrack s) := by
  unfold State.compareTrack
  extract_lets -merge -useContext -underBinder +onlyGivenNames x0
  refine State.setLease_keeps ?_ _ (fun i => i)
  exact h

theorem State.leaseTrack_keeps {s0 s : State} (h : Keeps s0 s)  :
    Keeps s0 (State.leaseTrack s) := by
  unfold State.leaseTrack
  refine State.setLease_keeps ?_ _ (fun i => i)
  refine State.compareTrack_keeps ?_ 
  exact h

theorem State.leasePost_keeps {s0 s : State} (h : Keeps s0 s) (a_ty : ℕ) (a_irq : ℕ) (a_flags : ℕ) (a_w4 : Sys2Proof.Word) (a_w5 : Sys2Proof.Word) (a_w6 : Sys2Proof.Word) (a_w7 : Sys2Proof.Word) :
    Keeps s0 (State.leasePost s a_ty a_irq a_flags a_w4 a_w5 a_w6 a_w7) := by
  unfold State.leasePost
  refine State.post_keeps ?_ _ _ _ _ _ _ _ _
  refine State.raise_keeps ?_ _ _
  exact h

theorem State.plkSend_keeps {s0 s : State} (h : Keeps s0 s) (k : BitVec 8) (a b : Word) : Keeps s0 (s.plkSend k a b) := by
  unfold State.plkSend
  refine Keeps.ite (fun _ => h) (fun _ => ?_)
  extract_lets m x z y
  have hy : Keeps s0 y := Keeps.mk_upd (State.bump_keeps h _) rfl
  exact Keeps.ite (fun _ => State.setLease_keeps hy _ (fun i => i)) (fun _ => hy)

theorem State.loadLatches_keeps {s0 s : State} (h : Keeps s0 s)  :
    Keeps s0 (State.loadLatches s) := by
  unfold State.loadLatches
  refine Keeps.mk_upd ?_ rfl
  exact h

/-- A message sent changes at most the date of the latest renewal of the lease. -/
theorem State.plkSend_lease (s : State) (k : BitVec 8) (a b : Word) : ∃ n, (s.plkSend k a b).lease = { s.lease with sentAt := n } := by
  unfold State.plkSend
  split
  · exact ⟨s.lease.sentAt, rfl⟩
  · extract_lets m x y
    split
    · exact ⟨s.tclks, rfl⟩
    · exact ⟨s.lease.sentAt, rfl⟩

theorem State.postLost_keeps {s0 s : State} (h : Keeps s0 s) (a_cause : ℕ) :
    Keeps s0 (State.postLost s a_cause) := by
  unfold State.postLost
  refine State.leasePost_keeps ?_ _ _ _ _ _ _ _
  refine State.bump_keeps ?_ _
  exact h

theorem State.loseLease_keeps {s0 s : State} (h : Keeps s0 s) (c : Nat) : Keeps s0 (s.loseLease c) := by
  unfold State.loseLease
  extract_lets x y
  have hy : Keeps s0 y := by
    refine h.trans ⟨rfl, OtpLe.refl _, fun i => ⟨i.ns, i.mem, i.regs, ?_⟩⟩
    show false = (decide ((if x.isPaired = true then LeaseState.follower else .off) = .holder) ||
      (decide ((if x.isPaired = true then LeaseState.follower else .off) = .handing) && false))
    cases x.isPaired <;> rfl
  exact State.postLost_keeps hy _

theorem State.releaseLease_keeps {s0 s : State} (h : Keeps s0 s) (a_cause : ℕ) :
    Keeps s0 (State.releaseLease s a_cause) := by
  unfold State.releaseLease
  refine State.loseLease_keeps ?_ _
  refine Keeps.ite (fun _ => ?_) (fun _ => ?_)
  · refine State.plkSend_keeps ?_ _ _ _
    exact h
  · exact h

theorem State.postCompare_keeps {s0 s : State} (h : Keeps s0 s) (a_cleared : Bool) :
    Keeps s0 (State.postCompare s a_cleared) := by
  unfold State.postCompare
  extract_lets -merge -useContext -underBinder +onlyGivenNames x0
  extract_lets -merge -useContext -underBinder +onlyGivenNames x1
  extract_lets -merge -useContext -underBinder +onlyGivenNames x2
  refine State.leasePost_keeps ?_ _ _ _ _ _ _ _
  exact h

theorem State.decideCompare_keeps {s0 s : State} (h : Keeps s0 s)  :
    Keeps s0 (State.decideCompare s) := by
  unfold State.decideCompare
  refine Keeps.ite (fun _ => ?_) (fun _ => ?_)
  · refine Keeps.ite (fun _ => ?_) (fun _ => ?_)
    · refine State.releaseLease_keeps ?_ _
      exact h
    · exact h
  · refine Keeps.ite (fun _ => ?_) (fun _ => ?_)
    · extract_lets -merge -useContext -underBinder +onlyGivenNames x0
      extract_lets -merge -useContext -underBinder +onlyGivenNames x1
      have h1 : Keeps s0 x1 := by
        unfold x1
        refine State.bump_keeps ?_ _
        refine State.setLease_keeps ?_ _ (fun i => i)
        exact h
      refine State.leasePost_keeps ?_ _ _ _ _ _ _ _
      exact h1
    · exact h

theorem State.decideUnfit_keeps {s0 s : State} (h : Keeps s0 s)  :
    Keeps s0 (State.decideUnfit s) := by
  unfold State.decideUnfit
  refine Keeps.ite (fun _ => ?_) (fun _ => ?_)
  · exact h
  · refine Keeps.ite (fun _ => ?_) (fun _ => ?_)
    · refine State.decideCompare_keeps ?_ 
      exact h
    · refine Keeps.ite (fun _ => ?_) (fun _ => ?_)
      · refine State.releaseLease_keeps ?_ _
        exact h
      · exact h

theorem State.acquireLease_keeps {s0 s : State} (h : Keeps s0 s) (c : Nat) : Keeps s0 (s.acquireLease c) := by
  unfold State.acquireLease
  refine State.decideUnfit_keeps ?_
  refine State.leasePost_keeps ?_ _ _ _ _ _ _ _
  refine State.bump_keeps ?_ _
  exact (State.loadLatches_keeps h).trans ⟨rfl, OtpLe.refl _, fun i => ⟨i.ns, i.mem, i.regs, rfl⟩⟩

theorem State.tryTake_keeps {s0 s : State} (h : Keeps s0 s) : Keeps s0 s.tryTake := by
  unfold State.tryTake
  refine Keeps.ite (fun c => ?_) (fun _ => h)
  refine State.leaseEnter_keeps h _ _ (fun i => ?_)
  unfold LeaseSt.ok at i ⊢
  rcases c.2.2.2.2 with e | e <;> (rw [e] at i; exact i)

theorem State.postHandover_keeps {s0 s : State} (h : Keeps s0 s) (a_aborted : Bool) (a_was : Bool) (a_reason : ℕ) (a_t : Sys2Proof.TimePoint) :
    Keeps s0 (State.postHandover s a_aborted a_was a_reason a_t) := by
  unfold State.postHandover
  extract_lets -merge -useContext -underBinder +onlyGivenNames x0
  have h0 : Keeps s0 x0 := by
    unfold x0
    refine State.bump_keeps ?_ _
    exact h
  refine State.leasePost_keeps ?_ _ _ _ _ _ _ _
  exact h0

theorem State.abortHandover_keeps {s0 s : State} (h : Keeps s0 s) (r : Nat) (send : Bool) : Keeps s0 (s.abortHandover r send) := by
  unfold State.abortHandover
  split
  · rename_i x e
    refine Keeps.ite (fun c => ?_) (fun _ => h)
    have hs : Keeps s0 (if send then s.plkSend 5 (w32 x.time.sec.toNat) (cancelWord r x.time) else s) :=
      Keeps.ite (fun _ => State.plkSend_keeps h _ _ _) (fun _ => h)
    have hl : ∃ n, (if send then s.plkSend 5 (w32 x.time.sec.toNat) (cancelWord r x.time) else s).lease = { s.lease with sentAt := n } := by
      split
      · exact State.plkSend_lease _ _ _ _
      · exact ⟨s.lease.sentAt, rfl⟩
    generalize (if send then s.plkSend 5 (w32 x.time.sec.toNat) (cancelWord r x.time) else s) = y at hs hl ⊢
    obtain ⟨n, hl⟩ := hl
    refine State.postHandover_keeps (State.leaseEnter_keeps hs _ _ (fun i => ?_)) _ _ _ _
    rw [hl] at i ⊢
    unfold LeaseSt.ok at i ⊢
    have i2 : s.lease.ownOut = (decide (s.lease.st = .holder) || (decide (s.lease.st = .handing) &&
        s.lease.hand.any fun h => h.wasHolder && h.acted.isNone)) := i
    rw [c.1, e] at i2
    show s.lease.ownOut = _
    rw [i2]
    show (x.wasHolder && x.acted.isNone) = _
    rw [c.2]
    cases x.wasHolder <;> rfl
  · exact h

theorem State.commandsChanged_keeps {s0 s : State} (h : Keeps s0 s)  :
    Keeps s0 (State.commandsChanged s) := by
  unfold State.commandsChanged
  extract_lets -merge -useContext -underBinder +onlyGivenNames x0
  have h0 : Keeps s0 x0 := by
    unfold x0
    refine State.leaseTrack_keeps ?_ 
    exact h
  refine Keeps.ite (fun _ => ?_) (fun _ => ?_)
  · refine State.abortHandover_keeps ?_ _ _
    exact h0
  · exact h0

theorem State.leaseFault_keeps {s0 s : State} (h : Keeps s0 s) (a_b : ℕ) :
    Keeps s0 (State.leaseFault s a_b) := by
  unfold State.leaseFault
  refine Keeps.ite (fun _ => ?_) (fun _ => ?_)
  · exact h
  · extract_lets -merge -useContext -underBinder +onlyGivenNames x0
    have h0 : Keeps s0 x0 := by
      unfold x0
      refine State.raise_keeps ?_ _ _
      refine State.setFld_keeps ?_ _ _ _ _
      exact h
    refine State.leaseTrack_keeps ?_ 
    refine State.decideUnfit_keeps ?_ 
    refine State.abortHandover_keeps ?_ _ _
    exact h0

theorem State.setPlk_keeps {s0 s : State} (h : Keeps s0 s) (a_f : Sys2Proof.Machine.PlkSt → Sys2Proof.Machine.PlkSt) :
    Keeps s0 (State.setPlk s a_f) := by
  unfold State.setPlk
  refine Keeps.mk_upd ?_ rfl
  exact h

theorem State.plkEnter_keeps {s0 s : State} (h : Keeps s0 s) (a_st : Sys2Proof.Machine.PlkState) :
    Keeps s0 (State.plkEnter s a_st) := by
  unfold State.plkEnter
  refine State.setPlk_keeps ?_ _
  exact h

theorem State.plkLeaveUp_keeps {s0 s : State} (h : Keeps s0 s) (a_cause : ℕ) (a_dest : Sys2Proof.Machine.PlkState) :
    Keeps s0 (State.plkLeaveUp s a_cause a_dest) := by
  unfold State.plkLeaveUp
  refine Keeps.ite (fun _ => ?_) (fun _ => ?_)
  · extract_lets -merge -useContext -underBinder +onlyGivenNames x0
    have h0 : Keeps s0 x0 := by
      unfold x0
      refine State.bump_keeps ?_ _
      exact h
    extract_lets -merge -useContext -underBinder +onlyGivenNames x1
    extract_lets -merge -useContext -underBinder +onlyGivenNames x2
    have h2 : Keeps s0 x2 := by
      unfold x2
      refine State.setPlk_keeps ?_ _
      refine State.plkEnter_keeps ?_ _
      exact h0
    refine State.post_keeps ?_ _ _ _ _ _ _ _ _
    refine State.raise_keeps ?_ _ _
    exact h2
  · refine State.plkEnter_keeps ?_ _
    exact h

theorem State.plkGoUp_keeps {s0 s : State} (h : Keeps s0 s)  :
    Keeps s0 (State.plkGoUp s) := by
  unfold State.plkGoUp
  extract_lets -merge -useContext -underBinder +onlyGivenNames x0
  extract_lets -merge -useContext -underBinder +onlyGivenNames x1
  have h1 : Keeps s0 x1 := by
    unfold x1
    refine State.setPlk_keeps ?_ _
    refine State.plkEnter_keeps ?_ _
    exact h
  refine State.post_keeps ?_ _ _ _ _ _ _ _ _
  refine State.raise_keeps ?_ _ _
  exact h1

theorem State.plkEnable_keeps {s0 s : State} (h : Keeps s0 s) (a_en : Bool) :
    Keeps s0 (State.plkEnable s a_en) := by
  unfold State.plkEnable
  refine Keeps.ite (fun _ => ?_) (fun _ => ?_)
  · refine Keeps.ite (fun _ => ?_) (fun _ => ?_)
    · refine State.plkEnter_keeps ?_ _
      exact h
    · exact h
  · refine State.plkLeaveUp_keeps ?_ _ _
    exact h

theorem State.plkReject_keeps {s0 s : State} (h : Keeps s0 s) (a_m : Sys2Proof.PlkMsg) :
    Keeps s0 (State.plkReject s a_m) := by
  unfold State.plkReject
  extract_lets -merge -useContext -underBinder +onlyGivenNames x0
  have h0 : Keeps s0 x0 := by
    unfold x0
    refine State.raise_keeps ?_ _ _
    exact h
  extract_lets -merge -useContext -underBinder +onlyGivenNames x1
  have h1 : Keeps s0 x1 := by
    unfold x1
    refine Keeps.ite (fun _ => ?_) (fun _ => ?_)
    · refine State.qualFail_keeps ?_ _ _ _ _ _
      exact h0
    · refine State.qualFail_keeps ?_ _ _ _ _ _
      exact h0
  extract_lets -merge -useContext -underBinder +onlyGivenNames x2
  have h2 : Keeps s0 x2 := by
    unfold x2
    refine State.setPlk_keeps ?_ _
    exact h1
  refine Keeps.ite (fun _ => ?_) (fun _ => ?_)
  · refine State.plkLeaveUp_keeps ?_ _ _
    exact h2
  · exact h2

theorem State.leaseMessage_keeps {s0 s : State} (h : Keeps s0 s) (m : PlkMsg) : Keeps s0 (s.leaseMessage m) := by
  unfold State.leaseMessage
  refine Keeps.ite (fun _ => ?_) (fun _ => h)
  extract_lets x z y
  have h1 : Keeps s0 x := State.setLease_keeps h _ (fun i => i)
  have h2 : Keeps s0 z := State.setLease_keeps h1 _ (fun i => i)
  refine State.commandsChanged_keeps (Keeps.ite (fun _ => ?_) (fun _ => h1))
  refine Keeps.ite (fun c => State.leaseEnter_keeps h2 _ _ (fun i => ?_)) (fun _ => h2)
  unfold LeaseSt.ok at i ⊢
  rcases c with e | e <;> (rw [e] at i; exact i)

theorem State.plkReceive_keeps {s0 s : State} (h : Keeps s0 s) (a_kind : BitVec 8) (a_m : Sys2Proof.PlkMsg) (a_f : Sys2Proof.Machine.State → Sys2Proof.PlkMsg → Sys2Proof.Machine.State) (Ha_f : ∀ z0 z1, Keeps s0 z0 → Keeps s0 (a_f z0 z1)) :
    Keeps s0 (State.plkReceive s a_kind a_m a_f) := by
  unfold State.plkReceive
  extract_lets -merge -useContext -underBinder +onlyGivenNames x0
  refine Keeps.ite (fun _ => ?_) (fun _ => ?_)
  · exact h
  · refine Keeps.ite (fun _ => ?_) (fun _ => ?_)
    · refine State.plkReject_keeps ?_ _
      exact h
    · extract_lets -merge -useContext -underBinder +onlyGivenNames x1
      have h1 : Keeps s0 x1 := by
        unfold x1
        refine State.setPlk_keeps ?_ _
        refine State.bump_keeps ?_ _
        exact h
      extract_lets -merge -useContext -underBinder +onlyGivenNames x2
      have h2 : Keeps s0 x2 := by
        unfold x2
        refine Keeps.ite (fun _ => ?_) (fun _ => ?_)
        · refine State.plkGoUp_keeps ?_ 
          exact h1
        · exact h1
      refine Keeps.ite (fun _ => ?_) (fun _ => ?_)
      · refine Ha_f _ _ ?_
        refine State.leaseMessage_keeps ?_ _
        exact h2
      · exact h2

theorem execStateReceive_keeps {s0 s : State} (h : Keeps s0 s) (a_m : Sys2Proof.PlkMsg) :
    Answers s0 (execStateReceive a_m s) := by
  refine ⟨_, rfl, ?_⟩
  refine State.plkReceive_keeps ?_ _ _ _ (fun y0 _ h0 => ?_)
  · exact h
  · exact h0

theorem execReleaseReceive_keeps {s0 s : State} (h : Keeps s0 s) (a_m : Sys2Proof.PlkMsg) :
    Answers s0 (execReleaseReceive a_m s) := by
  refine ⟨_, rfl, ?_⟩
  refine State.plkReceive_keeps ?_ _ _ _ (fun y0 _ h0 => ?_)
  · exact h
  · refine Keeps.ite (fun _ => ?_) (fun _ => ?_)
    · refine State.setLease_keeps ?_ _ (fun i => i)
      exact h0
    · exact h0

theorem State.refusal_none {s : State} {t : TimePoint} (h : s.handoverRefusal t = none) : s.lease.st = .holder := by
  unfold State.handoverRefusal at h
  split at h
  · cases h
  · rename_i e; exact Decidable.not_not.mp e

theorem execHoReqReceive_keeps {s0 s : State} (h : Keeps s0 s) (m : PlkMsg) : Answers s0 (execHoReqReceive m s) := by
  refine ⟨_, rfl, State.plkReceive_keeps h _ _ _ (fun y m hy => ?_)⟩
  refine Keeps.ite (fun _ => hy) (fun _ => ?_)
  split
  · exact State.plkSend_keeps hy _ _ _
  · rename_i e
    refine State.leaseEnter_keeps (State.plkSend_keeps hy _ _ _) _ _ (fun i => ?_)
    obtain ⟨n, hl⟩ := State.plkSend_lease y 4 m.w8 m.w12
    rw [hl] at i ⊢
    have i2 : y.lease.ok := i
    unfold LeaseSt.ok at i2 ⊢
    rw [State.refusal_none e] at i2
    exact i2

theorem execHoAckReceive_keeps {s0 s : State} (h : Keeps s0 s) (m : PlkMsg) : Answers s0 (execHoAckReceive m s) := by
  refine ⟨_, rfl, State.plkReceive_keeps h _ _ _ (fun y m hy => ?_)⟩
  refine Keeps.ite (fun c => ?_) (fun _ => hy)
  have hz : Keeps s0 (y.leaseEnter .handing fun l =>
      { l with requested := none, hand := some ⟨⟨m.w8, m.w12.toNat % 2 ^ 30⟩, false, none⟩ }) := by
    refine State.leaseEnter_keeps hy _ _ (fun i => ?_)
    unfold LeaseSt.ok at i ⊢
    rw [c.2.1] at i
    exact i
  exact Keeps.ite (fun _ => State.commandsChanged_keeps hz) (fun _ => State.abortHandover_keeps hz _ _)

theorem execHoCancelReceive_keeps {s0 s : State} (h : Keeps s0 s) (a_m : Sys2Proof.PlkMsg) :
    Answers s0 (execHoCancelReceive a_m s) := by
  refine ⟨_, rfl, ?_⟩
  refine State.plkReceive_keeps ?_ _ _ _ (fun y0 _ h0 => ?_)
  · exact h
  · refine State.setLease_keeps ?_ _ (fun i => i)
    refine State.abortHandover_keeps ?_ _ _
    exact h0

theorem execEchoReceive_keeps {s0 s : State} (h : Keeps s0 s) (a_m : Sys2Proof.PlkMsg) (a_residence : Sys2Proof.Word) :
    Answers s0 (execEchoReceive a_m a_residence s) := by
  refine ⟨_, rfl, ?_⟩
  refine State.plkReceive_keeps ?_ _ _ _ (fun y0 _ h0 => ?_)
  · exact h
  · refine State.plkSend_keeps ?_ _ _ _
    exact h0

theorem execEchoReplyReceive_keeps {s0 s : State} (h : Keeps s0 s) (a_m : Sys2Proof.PlkMsg) (a_roundTrip : ℕ) :
    Answers s0 (execEchoReplyReceive a_m a_roundTrip s) := by
  refine ⟨_, rfl, ?_⟩
  refine State.plkReceive_keeps ?_ _ _ _ (fun y0 _ h0 => ?_)
  · exact h
  · refine Keeps.ite (fun _ => ?_) (fun _ => ?_)
    · extract_lets -merge -useContext -underBinder +onlyGivenNames x1
      extract_lets -merge -useContext -underBinder +onlyGivenNames x2
      refine State.wr_keeps ?_ _ _
      refine State.setPlk_keeps ?_ _
      exact h0
    · exact h0

theorem execPlkMessageRejected_keeps {s0 s : State} (h : Keeps s0 s) (a_m : Sys2Proof.PlkMsg) :
    Answers s0 (execPlkMessageRejected a_m s) := by
  refine ⟨_, rfl, ?_⟩
  refine Keeps.ite (fun _ => ?_) (fun _ => ?_)
  · exact h
  · refine State.plkReject_keeps ?_ _
    exact h

theorem execPlkLaneAlignment_keeps {s0 s : State} (h : Keeps s0 s) (a_lane0 : Bool) (a_lane1 : Bool) :
    Answers s0 (execPlkLaneAlignment a_lane0 a_lane1 s) := by
  refine ⟨_, rfl, ?_⟩
  refine Keeps.ite (fun _ => ?_) (fun _ => ?_)
  · exact h
  · refine State.setPlk_keeps ?_ _
    exact h

theorem execPlkAlignTimeout_keeps {s0 s : State} (h : Keeps s0 s)  :
    Answers s0 (execPlkAlignTimeout s) := by
  refine ⟨_, rfl, ?_⟩
  refine Keeps.ite (fun _ => ?_) (fun _ => ?_)
  · refine State.plkEnter_keeps ?_ _
    refine State.bump_keeps ?_ _
    exact h
  · exact h

theorem execPlkHoldExpiry_keeps {s0 s : State} (h : Keeps s0 s)  :
    Answers s0 (execPlkHoldExpiry s) := by
  refine ⟨_, rfl, ?_⟩
  refine Keeps.ite (fun _ => ?_) (fun _ => ?_)
  · refine State.plkEnter_keeps ?_ _
    exact h
  · exact h

theorem execPlkDownCondition_keeps {s0 s : State} (h : Keeps s0 s) (a_cause : Sys2Proof.PlkDown) :
    Answers s0 (execPlkDownCondition a_cause s) := by
  refine ⟨_, rfl, ?_⟩
  refine Keeps.ite (fun _ => ?_) (fun _ => ?_)
  · split
    · refine State.setPlk_keeps ?_ _
      refine State.plkLeaveUp_keeps ?_ _ _
      exact h
    · refine State.setPlk_keeps ?_ _
      refine State.plkLeaveUp_keeps ?_ _ _
      exact h
    · refine Keeps.ite (fun _ => ?_) (fun _ => ?_)
      · refine State.plkLeaveUp_keeps ?_ _ _
        exact h
      · exact h
  · exact h

theorem execPartnerSilent_keeps {s0 s : State} (h : Keeps s0 s)  :
    Answers s0 (execPartnerSilent s) := by
  refine ⟨_, rfl, ?_⟩
  refine Keeps.ite (fun _ => ?_) (fun _ => ?_)
  · refine State.plkLeaveUp_keeps ?_ _ _
    exact h
  · exact h

theorem execStateSend_keeps {s0 s : State} (h : Keeps s0 s)  :
    Answers s0 (execStateSend s) := by
  refine ⟨_, rfl, ?_⟩
  refine Keeps.ite (fun _ => ?_) (fun _ => ?_)
  · refine State.setPlk_keeps ?_ _
    refine State.plkSend_keeps ?_ _ _ _
    exact h
  · exact h

theorem execEchoSend_keeps {s0 s : State} (h : Keeps s0 s)  :
    Answers s0 (execEchoSend s) := by
  refine ⟨_, rfl, ?_⟩
  refine Keeps.ite (fun _ => ?_) (fun _ => ?_)
  · refine State.setPlk_keeps ?_ _
    refine State.plkSend_keeps ?_ _ _ _
    exact h
  · exact h

theorem execLeaseExpiry_keeps {s0 s : State} (h : Keeps s0 s)  :
    Answers s0 (execLeaseExpiry s) := by
  refine ⟨_, rfl, ?_⟩
  refine Keeps.ite (fun _ => ?_) (fun _ => ?_)
  · refine State.tryTake_keeps ?_ 
    refine State.setLease_keeps ?_ _ (fun i => i)
    exact h
  · exact h

theorem execStartingTimeout_keeps {s0 s : State} (h : Keeps s0 s)  :
    Answers s0 (execStartingTimeout s) := by
  refine ⟨_, rfl, ?_⟩
  refine Keeps.ite (fun _ => ?_) (fun _ => ?_)
  · refine State.tryTake_keeps ?_ 
    refine State.setLease_keeps ?_ _ (fun i => i)
    exact h
  · exact h

theorem execTakeoverComplete_keeps {s0 s : State} (h : Keeps s0 s)  :
    Answers s0 (execTakeoverComplete s) := by
  refine ⟨_, rfl, ?_⟩
  refine Keeps.ite (fun _ => ?_) (fun _ => ?_)
  · refine State.acquireLease_keeps ?_ _
    exact h
  · exact h

theorem execSelfExpiry_keeps {s0 s : State} (h : Keeps s0 s)  :
    Answers s0 (execSelfExpiry s) := by
  refine ⟨_, rfl, ?_⟩
  refine Keeps.ite (fun _ => ?_) (fun _ => ?_)
  · refine State.loseLease_keeps ?_ _
    exact h
  · exact h

theorem execPeerOwnChange_keeps {s0 s : State} (h : Keeps s0 s) (level : Bool) : Answers s0 (execPeerOwnChange level s) := by
  refine ⟨_, rfl, Keeps.ite (fun _ => h) (fun _ => ?_)⟩
  extract_lets y
  have h1 : Keeps s0 y := State.setLease_keeps h _ (fun i => i)
  clear_value y
  refine Keeps.ite (fun _ => h1) (fun _ => Keeps.ite (fun _ => Keeps.ite (fun c => ?_) (fun _ => h1)) (fun _ => State.tryTake_keeps h1))
  refine State.leaseEnter_keeps h1 _ _ (fun i => ?_)
  unfold LeaseSt.ok at i ⊢
  rw [c] at i
  exact i

theorem execLeaseConflict_keeps {s0 s : State} (h : Keeps s0 s)  :
    Answers s0 (execLeaseConflict s) := by
  refine ⟨_, rfl, ?_⟩
  refine Keeps.ite (fun _ => ?_) (fun _ => ?_)
  · extract_lets -merge -useContext -underBinder +onlyGivenNames x0
    have h0 : Keeps s0 x0 := by
      unfold x0
      refine State.bump_keeps ?_ _
      refine State.setLease_keeps ?_ _ (fun i => i)
      exact h
    refine Keeps.ite (fun _ => ?_) (fun _ => ?_)
    · extract_lets -merge -useContext -underBinder +onlyGivenNames x1
      refine State.loseLease_keeps ?_ _
      refine State.setLease_keeps ?_ _ (fun i => i)
      exact h0
    · exact h0
  · exact h

theorem execOwnOutReadbackFault_keeps {s0 s : State} (h : Keeps s0 s) (a_differs : Bool) :
    Answers s0 (execOwnOutReadbackFault a_differs s) := by
  refine ⟨_, rfl, ?_⟩
  extract_lets -merge -useContext -underBinder +onlyGivenNames x0
  have h0 : Keeps s0 x0 := by
    unfold x0
    refine State.setLease_keeps ?_ _ (fun i => i)
    exact h
  refine Keeps.ite (fun _ => ?_) (fun _ => ?_)
  · refine State.leaseFault_keeps ?_ _
    exact h0
  · exact h0

theorem execReleaseConfirm_keeps {s0 s : State} (h : Keeps s0 s)  :
    Answers s0 (execReleaseConfirm s) := by
  refine ⟨_, rfl, ?_⟩
  split
  · refine Keeps.ite (fun _ => ?_) (fun _ => ?_)
    · refine State.setLease_keeps ?_ _ (fun i => i)
      exact h
    · refine Keeps.ite (fun _ => ?_) (fun _ => ?_)
      · refine State.acquireLease_keeps ?_ _
        exact h
      · refine Keeps.ite (fun _ => ?_) (fun _ => ?_)
        · refine State.setLease_keeps ?_ _ (fun i => i)
          exact h
        · exact h
  · exact h

theorem execCompareFail_keeps {s0 s : State} (h : Keeps s0 s)  :
    Answers s0 (execCompareFail s) := by
  refine ⟨_, rfl, ?_⟩
  refine Keeps.ite (fun _ => ?_) (fun _ => ?_)
  · extract_lets -merge -useContext -underBinder +onlyGivenNames x0
    have h0 : Keeps s0 x0 := by
      unfold x0
      refine State.bump_keeps ?_ _
      refine State.setLease_keeps ?_ _ (fun i => i)
      exact h
    refine State.decideCompare_keeps ?_ 
    refine State.postCompare_keeps ?_ _
    exact h0
  · exact h

theorem execCompareClear_keeps {s0 s : State} (h : Keeps s0 s)  :
    Answers s0 (execCompareClear s) := by
  refine ⟨_, rfl, ?_⟩
  refine Keeps.ite (fun _ => ?_) (fun _ => ?_)
  · refine State.postCompare_keeps ?_ _
    refine State.setLease_keeps ?_ _ (fun i => i)
    exact h
  · exact h

theorem execFaultClr_keeps {s0 s : State} (h : Keeps s0 s) (a_v : Sys2Proof.Word) :
    Answers s0 (execFaultClr a_v s) := by
  refine ⟨_, rfl, ?_⟩
  extract_lets -merge -useContext -underBinder +onlyGivenNames x0
  have h0 : Keeps s0 x0 := by
    unfold x0
    refine State.wr_keeps ?_ _ _
    exact h
  extract_lets -merge -useContext -underBinder +onlyGivenNames x1
  have h1 : Keeps s0 x1 := by
    unfold x1
    refine Keeps.foldl ?_ (fun y2 a2 h2 => ?_)
    · exact h0
    · refine Keeps.ite (fun _ => ?_) (fun _ => ?_)
      · refine State.leaseFault_keeps ?_ _
        exact h2
      · exact h2
  refine State.leaseTrack_keeps ?_ 
  refine State.tryTake_keeps ?_ 
  exact h1

theorem execFaultSet_keeps {s0 s : State} (h : Keeps s0 s) (a_v : Sys2Proof.Word) :
    Answers s0 (execFaultSet a_v s) := by
  refine ⟨_, rfl, ?_⟩
  refine Keeps.ite (fun _ => ?_) (fun _ => ?_)
  · refine State.leaseFault_keeps ?_ _
    exact h
  · exact h

theorem execRevertHoldExpiry_keeps {s0 s : State} (h : Keeps s0 s)  :
    Answers s0 (execRevertHoldExpiry s) := by
  refine ⟨_, rfl, ?_⟩
  refine Keeps.ite (fun _ => ?_) (fun _ => ?_)
  · extract_lets -merge -useContext -underBinder +onlyGivenNames x0
    refine State.setLease_keeps ?_ _ (fun i => i)
    refine State.plkSend_keeps ?_ _ _ _
    exact h
  · exact h

theorem execHandoverTime_keeps {s0 s : State} (h : Keeps s0 s) : Answers s0 (execHandoverTime s) := by
  refine ⟨_, rfl, ?_⟩
  split
  · rename_i x e
    refine Keeps.ite (fun _ => h) (fun c => Keeps.ite (fun w => ?_) (fun _ => State.acquireLease_keeps (State.postHandover_keeps h _ _ _ _) _))
    extract_lets y
    have hy : Keeps s0 y := by
      refine h.trans ⟨rfl, OtpLe.refl _, fun i => ⟨i.ns, i.mem, i.regs, ?_⟩⟩
      have hs : s.lease.st = .handing := by
        by_cases hh : s.lease.st = .handing
        · exact hh
        · exact absurd (Or.inl hh) c
      show false = (decide (s.lease.st = .holder) || (decide (s.lease.st = .handing) && (x.wasHolder && false)))
      rw [hs]
      cases x.wasHolder <;> rfl
    exact State.postLost_keeps hy _
  · exact h

theorem execHandoverRetakeCheck_keeps {s0 s : State} (h : Keeps s0 s) : Answers s0 (execHandoverRetakeCheck s) := by
  refine ⟨_, rfl, ?_⟩
  split
  · rename_i x e
    split
    · rename_i n ha
      refine Keeps.ite (fun _ => h) (fun c => Keeps.ite (fun _ => State.acquireLease_keeps h _) (fun _ => ?_))
      refine State.postHandover_keeps (State.leaseEnter_keeps h _ _ (fun i => ?_)) _ _ _ _
      have hs : s.lease.st = .handing := by
        by_cases hh : s.lease.st = .handing
        · exact hh
        · exact absurd (Or.inl hh) c
      unfold LeaseSt.ok at i ⊢
      rw [hs, e] at i
      show s.lease.ownOut = false
      rw [i]
      show (x.wasHolder && x.acted.isNone) = false
      rw [ha]
      cases x.wasHolder <;> rfl
    · exact h
  · exact h

theorem execTimingWrite_keeps {s0 s : State} (h : Keeps s0 s) (a_v : Sys2Proof.Word) :
    Answers s0 (execTimingWrite a_v s) := by
  refine ⟨_, rfl, ?_⟩
  extract_lets -merge -useContext -underBinder +onlyGivenNames x0
  extract_lets -merge -useContext -underBinder +onlyGivenNames x1
  refine Keeps.ite (fun _ => ?_) (fun _ => ?_)
  · refine State.setLease_keeps ?_ _ (fun i => i)
    exact h
  · refine State.setLease_keeps ?_ _ (fun i => i)
    refine State.wr_keeps ?_ _ _
    exact h

theorem State.leaseEnable_keeps {s0 s : State} (h : Keeps s0 s) (en : Bool) : Keeps s0 (s.leaseEnable en) := by
  unfold State.leaseEnable
  refine Keeps.ite (fun _ => Keeps.ite (fun _ => h) (fun c => Keeps.ite (fun _ => ?_) (fun _ => State.acquireLease_keeps h _))) (fun _ => ?_)
  · refine State.leaseEnter_keeps h _ _ (fun i => ?_)
    unfold LeaseSt.ok at i ⊢
    rw [Decidable.not_not.mp c] at i
    exact i
  · extract_lets lost y
    have h1 : Keeps s0 y := h.trans ⟨rfl, OtpLe.refl _, fun i => ⟨i.ns, i.mem, i.regs, rfl⟩⟩
    exact Keeps.ite (fun _ => State.postLost_keeps h1 _) (fun _ => h1)

theorem State.setFifo_keeps {s0 s : State} (h : Keeps s0 s) (a_id : ℕ) (a_f : Sys2Proof.Machine.FifoSt → Sys2Proof.Machine.FifoSt) :
    Keeps s0 (State.setFifo s a_id a_f) := by
  unfold State.setFifo
  refine Keeps.mk_upd ?_ rfl
  exact h

theorem State.sramSet_keeps {s0 s : State} (h : Keeps s0 s) (a_k : ℕ) (a_w : Sys2Proof.Word) :
    Keeps s0 (State.sramSet s a_k a_w) := by
  unfold State.sramSet
  refine Keeps.mk_upd ?_ rfl
  exact h

theorem State.fifoBump_keeps {s0 s : State} (h : Keeps s0 s) (a_id : ℕ) (a_x : Sys2Proof.Machine.FifoCnt) (a_n : ℕ) :
    Keeps s0 (State.fifoBump s a_id a_x a_n) := by
  unfold State.fifoBump
  split
  · refine State.bumpBy_keeps ?_ _ _
    exact h
  · exact h

theorem State.fifoPost_keeps {s0 s : State} (h : Keeps s0 s) (a_id : ℕ) (a_ty : ℕ) (a_irq : ℕ) (a_flags : ℕ) (a_w5 : Sys2Proof.Word) :
    Keeps s0 (State.fifoPost s a_id a_ty a_irq a_flags a_w5) := by
  unfold State.fifoPost
  refine Keeps.ite (fun _ => ?_) (fun _ => ?_)
  · refine State.post_keeps ?_ _ _ _ _ _ _ _ _
    refine State.raise_keeps ?_ _ _
    exact h
  · exact h

theorem State.packetBad_keeps {s0 s : State} (h : Keeps s0 s) (a_id : ℕ) (a_status : ℕ) (a_bytes : ℕ) (a_rewound : Bool) :
    Keeps s0 (State.packetBad s a_id a_status a_bytes a_rewound) := by
  unfold State.packetBad
  refine Keeps.ite (fun _ => ?_) (fun _ => ?_)
  · refine State.gather_keeps ?_ _ _
    refine State.raise_keeps ?_ _ _
    exact h
  · exact h

theorem State.fifoRewind_keeps {s0 s : State} (h : Keeps s0 s) (a_id : ℕ) (a_status : ℕ) :
    Keeps s0 (State.fifoRewind s a_id a_status) := by
  unfold State.fifoRewind
  extract_lets -merge -useContext -underBinder +onlyGivenNames x0
  refine State.packetBad_keeps ?_ _ _ _ _
  refine State.fifoBump_keeps ?_ _ _ _
  refine State.setFifo_keeps ?_ _ _
  exact h

theorem State.rxTrailer_keeps {s0 s : State} (h : Keeps s0 s) (a_id : ℕ) (a_bad : Bool) (a_status : ℕ) :
    Keeps s0 (State.rxTrailer s a_id a_bad a_status) := by
  unfold State.rxTrailer
  split
  · extract_lets -merge -useContext -underBinder +onlyGivenNames x1
    refine State.setFifo_keeps ?_ _ _
    refine State.sramSet_keeps ?_ _ _
    exact h
  · exact h

theorem State.rxEndBad_keeps {s0 s : State} (h : Keeps s0 s) (a_id : ℕ) (a_status : ℕ) :
    Keeps s0 (State.rxEndBad s a_id a_status) := by
  unfold State.rxEndBad
  extract_lets -merge -useContext -underBinder +onlyGivenNames x0
  refine State.packetBad_keeps ?_ _ _ _ _
  refine State.fifoBump_keeps ?_ _ _ _
  refine State.rxTrailer_keeps ?_ _ _ _
  exact h

theorem State.rxFailPacket_keeps {s0 s : State} (h : Keeps s0 s) (a_id : ℕ) (a_status : ℕ) :
    Keeps s0 (State.rxFailPacket s a_id a_status) := by
  unfold State.rxFailPacket
  split
  · refine Keeps.ite (fun _ => ?_) (fun _ => ?_)
    · refine State.rxEndBad_keeps ?_ _ _
      exact h
    · refine State.fifoRewind_keeps ?_ _ _
      exact h
  · exact h

theorem State.rxOverrun_keeps {s0 s : State} (h : Keeps s0 s) (a_id : ℕ) :
    Keeps s0 (State.rxOverrun s a_id) := by
  unfold State.rxOverrun
  extract_lets -merge -useContext -underBinder +onlyGivenNames x0
  extract_lets -merge -useContext -underBinder +onlyGivenNames x1
  have h1 : Keeps s0 x1 := by
    unfold x1
    refine State.fifoBump_keeps ?_ _ _ _
    refine State.setFifo_keeps ?_ _ _
    exact h
  extract_lets -merge -useContext -underBinder +onlyGivenNames x2
  have h2 : Keeps s0 x2 := by
    unfold x2
    refine State.fifoPost_keeps ?_ _ _ _ _ _
    exact h1
  refine Keeps.ite (fun _ => ?_) (fun _ => ?_)
  · refine State.rxFailPacket_keeps ?_ _ _
    exact h2
  · refine State.packetBad_keeps ?_ _ _ _ _
    refine State.fifoBump_keeps ?_ _ _ _
    exact h2

theorem State.rxBegin_keeps {s0 s : State} (h : Keeps s0 s) (a_id : ℕ) :
    Keeps s0 (State.rxBegin s a_id) := by
  unfold State.rxBegin
  refine Keeps.ite (fun _ => ?_) (fun _ => ?_)
  · refine State.rxOverrun_keeps ?_ _
    exact h
  · extract_lets -merge -useContext -underBinder +onlyGivenNames x0
    have h0 : Keeps s0 x0 := by
      unfold x0
      refine State.setFifo_keeps ?_ _ _
      exact h
    refine State.sramSet_keeps ?_ _ _
    exact h0

theorem State.rxWord_keeps {s0 s : State} (h : Keeps s0 s) (a_id : ℕ) (a_w : Sys2Proof.Word) (a_n : ℕ) :
    Keeps s0 (State.rxWord s a_id a_w a_n) := by
  unfold State.rxWord
  split
  · exact h
  · refine Keeps.ite (fun _ => ?_) (fun _ => ?_)
    · exact h
    · refine Keeps.ite (fun _ => ?_) (fun _ => ?_)
      · refine State.rxOverrun_keeps ?_ _
        exact h
      · extract_lets -merge -useContext -underBinder +onlyGivenNames x2
        have h2 : Keeps s0 x2 := by
          unfold x2
          refine State.sramSet_keeps ?_ _ _
          exact h
        extract_lets -merge -useContext -underBinder +onlyGivenNames x3
        have h3 : Keeps s0 x3 := by
          unfold x3
          refine State.setFifo_keeps ?_ _ _
          exact h2
        extract_lets -merge -useContext -underBinder +onlyGivenNames x4
        refine Keeps.ite (fun _ => ?_) (fun _ => ?_)
        · refine State.raise_keeps ?_ _ _
          exact h3
        · exact h3

theorem State.rxCommit_keeps {s0 s : State} (h : Keeps s0 s) (a_id : ℕ) :
    Keeps s0 (State.rxCommit s a_id) := by
  unfold State.rxCommit
  refine Keeps.ite (fun _ => ?_) (fun _ => ?_)
  · refine State.setFifo_keeps ?_ _ _
    exact h
  · split
    · exact h
    · extract_lets -merge -useContext -underBinder +onlyGivenNames x2
      have h2 : Keeps s0 x2 := by
        unfold x2
        refine Keeps.ite (fun _ => ?_) (fun _ => ?_)
        · exact h
        · refine State.sramSet_keeps ?_ _ _
          exact h
      extract_lets -merge -useContext -underBinder +onlyGivenNames x3
      have h3 : Keeps s0 x3 := by
        unfold x3
        refine State.rxTrailer_keeps ?_ _ _ _
        exact h2
      refine Keeps.ite (fun _ => ?_) (fun _ => ?_)
      · refine State.raise_keeps ?_ _ _
        exact h3
      · exact h3

theorem State.rxFail_keeps {s0 s : State} (h : Keeps s0 s) (a_id : ℕ) (a_status : ℕ) :
    Keeps s0 (State.rxFail s a_id a_status) := by
  unfold State.rxFail
  refine Keeps.ite (fun _ => ?_) (fun _ => ?_)
  · refine State.setFifo_keeps ?_ _ _
    exact h
  · refine State.rxFailPacket_keeps ?_ _ _
    exact h

theorem State.rxBytes_keeps {s0 s : State} (h : Keeps s0 s) (a_id : ℕ) (a_b : List Sys2Proof.Byte) :
    Keeps s0 (State.rxBytes s a_id a_b) := by
  unfold State.rxBytes
  refine Keeps.foldl ?_ (fun y0 a0 h0 => ?_)
  · exact h
  · refine State.rxWord_keeps ?_ _ _ _
    exact h0

theorem State.rxPacket_keeps {s0 s : State} (h : Keeps s0 s) (a_id : ℕ) (a_b : List Sys2Proof.Byte) (a_status : ℕ) :
    Keeps s0 (State.rxPacket s a_id a_b a_status) := by
  unfold State.rxPacket
  extract_lets -merge -useContext -underBinder +onlyGivenNames x0
  have h0 : Keeps s0 x0 := by
    unfold x0
    refine State.rxBytes_keeps ?_ _ _
    refine State.rxBegin_keeps ?_ _
    exact h
  refine Keeps.ite (fun _ => ?_) (fun _ => ?_)
  · refine State.rxCommit_keeps ?_ _
    exact h0
  · refine State.rxFail_keeps ?_ _ _
    exact h0

theorem State.rxDataRead_keeps {s0 s : State} (h : Keeps s0 s) (a_id : ℕ) :
    Keeps s0 (State.rxDataRead s a_id).2 := by
  unfold State.rxDataRead
  extract_lets -merge -useContext -underBinder +onlyGivenNames x0
  refine Keeps.ite2 (fun _ => ?_) (fun _ => ?_)
  · extract_lets -merge -useContext -underBinder +onlyGivenNames x1
    have h1 : Keeps s0 x1 := by
      unfold x1
      refine State.fifoBump_keeps ?_ _ _ _
      refine State.setFifo_keeps ?_ _ _
      exact h
    refine Keeps.pair2 ?_
    refine Keeps.ite (fun _ => ?_) (fun _ => ?_)
    · exact h1
    · refine State.fifoPost_keeps ?_ _ _ _ _ _
      exact h1
  · extract_lets -merge -useContext -underBinder +onlyGivenNames x2
    extract_lets -merge -useContext -underBinder +onlyGivenNames x3
    refine Keeps.pair2 ?_
    refine State.setFifo_keeps ?_ _ _
    exact h

theorem State.txEmptyIrq_keeps {s0 s : State} (h : Keeps s0 s) (a_id : ℕ) :
    Keeps s0 (State.txEmptyIrq s a_id) := by
  unfold State.txEmptyIrq
  refine State.raise_keeps ?_ _ _
  exact h

theorem State.dropOldest_keeps {s0 s : State} (h : Keeps s0 s) (a_id : ℕ) :
    Keeps s0 (State.dropOldest s a_id) := by
  unfold State.dropOldest
  split
  · exact h
  · extract_lets -merge -useContext -underBinder +onlyGivenNames x2
    extract_lets -merge -useContext -underBinder +onlyGivenNames x3
    have h3 : Keeps s0 x3 := by
      unfold x3
      refine State.fifoBump_keeps ?_ _ _ _
      refine State.setFifo_keeps ?_ _ _
      exact h
    refine Keeps.ite (fun _ => ?_) (fun _ => ?_)
    · refine State.txEmptyIrq_keeps ?_ _
      exact h3
    · exact h3

theorem State.fifoDropRest_keeps {s0 s : State} (h : Keeps s0 s) (a_id : ℕ) :
    Keeps s0 (State.fifoDropRest s a_id) := by
  unfold State.fifoDropRest
  refine State.dropOldest_keeps ?_ _
  exact h

theorem State.fifoFlush_keeps {s0 s : State} (h : Keeps s0 s) (a_id : ℕ) :
    Keeps s0 (State.fifoFlush s a_id) := by
  unfold State.fifoFlush
  extract_lets -merge -useContext -underBinder +onlyGivenNames x0
  have h0 : Keeps s0 x0 := by
    unfold x0
    refine Keeps.foldl ?_ (fun y1 a1 h1 => ?_)
    · exact h
    · refine State.dropOldest_keeps ?_ _
      exact h1
  refine State.setFifo_keeps ?_ _ _
  exact h0

theorem State.fifoClear_keeps {s0 s : State} (h : Keeps s0 s) (a_id : ℕ) :
    Keeps s0 (State.fifoClear s a_id) := by
  unfold State.fifoClear
  refine State.setFifo_keeps ?_ _ _
  exact h

theorem State.txOverrun_keeps {s0 s : State} (h : Keeps s0 s) (a_id : ℕ) (a_left : ℕ) :
    Keeps s0 (State.txOverrun s a_id a_left) := by
  unfold State.txOverrun
  extract_lets -merge -useContext -underBinder +onlyGivenNames x0
  extract_lets -merge -useContext -underBinder +onlyGivenNames x1
  extract_lets -merge -useContext -underBinder +onlyGivenNames x2
  extract_lets -merge -useContext -underBinder +onlyGivenNames x3
  have h3 : Keeps s0 x3 := by
    unfold x3
    refine State.fifoBump_keeps ?_ _ _ _
    refine State.setFifo_keeps ?_ _ _
    exact h
  extract_lets -merge -useContext -underBinder +onlyGivenNames x4
  have h4 : Keeps s0 x4 := by
    unfold x4
    refine State.fifoPost_keeps ?_ _ _ _ _ _
    exact h3
  clear_value x4 x3 x2 x1 x0
  split
  · refine State.packetBad_keeps ?_ _ _ _ _
    refine State.fifoBump_keeps ?_ _ _ _
    exact h4
  · refine Keeps.ite (fun _ => ?_) (fun _ => ?_)
    · refine State.packetBad_keeps ?_ _ _ _ _
      refine State.fifoBump_keeps ?_ _ _ _
      refine State.setFifo_keeps ?_ _ _
      exact h4
    · refine State.fifoRewind_keeps ?_ _ _
      exact h4

theorem State.txDataWrite_keeps {s0 s : State} (h : Keeps s0 s) (a_id : ℕ) (a_w : Sys2Proof.Word) :
    Keeps s0 (State.txDataWrite s a_id a_w).2 := by
  unfold State.txDataWrite
  extract_lets -merge -useContext -underBinder +onlyGivenNames x0
  refine Keeps.ite2 (fun _ => ?_) (fun _ => ?_)
  · refine Keeps.pair2 ?_
    refine State.setFifo_keeps ?_ _ _
    exact h
  · split
    · extract_lets -merge -useContext -underBinder +onlyGivenNames x2
      refine Keeps.ite2 (fun _ => ?_) (fun _ => ?_)
      · refine Keeps.pair2 ?_
        refine State.fifoBump_keeps ?_ _ _ _
        exact h
      · refine Keeps.ite2 (fun _ => ?_) (fun _ => ?_)
        · refine Keeps.pair2 ?_
          refine State.txOverrun_keeps ?_ _ _
          exact h
        · extract_lets -merge -useContext -underBinder +onlyGivenNames x3
          have h3 : Keeps s0 x3 := by
            unfold x3
            refine State.setFifo_keeps ?_ _ _
            exact h
          refine Keeps.pair2 ?_
          refine State.sramSet_keeps ?_ _ _
          exact h3
    · extract_lets -merge -useContext -underBinder +onlyGivenNames x5
      refine Keeps.ite2 (fun _ => ?_) (fun _ => ?_)
      · refine Keeps.pair2 ?_
        refine State.txOverrun_keeps ?_ _ _
        exact h
      · extract_lets -merge -useContext -underBinder +onlyGivenNames x6
        have h6 : Keeps s0 x6 := by
          unfold x6
          refine State.sramSet_keeps ?_ _ _
          exact h
        extract_lets -merge -useContext -underBinder +onlyGivenNames x7
        extract_lets -merge -useContext -underBinder +onlyGivenNames x8
        have h8 : Keeps s0 x8 := by
          unfold x8
          refine State.setFifo_keeps ?_ _ _
          exact h6
        refine Keeps.pair2 ?_
        exact h8

theorem State.txBegin_keeps {s0 s : State} (h : Keeps s0 s) (a_id : ℕ) :
    Keeps s0 (State.txBegin s a_id).2 := by
  unfold State.txBegin
  split
  · refine Keeps.ite2 (fun _ => ?_) (fun _ => ?_)
    · extract_lets -merge -useContext -underBinder +onlyGivenNames x1
      refine Keeps.pair2 ?_
      refine State.setFifo_keeps ?_ _ _
      exact h
    · refine Keeps.pair2 ?_
      exact h
  · refine Keeps.pair2 ?_
    exact h

theorem State.txFinish_keeps {s0 s : State} (h : Keeps s0 s) (a_id : ℕ) :
    Keeps s0 (State.txFinish s a_id) := by
  unfold State.txFinish
  split
  · exact h
  · extract_lets -merge -useContext -underBinder +onlyGivenNames x2
    extract_lets -merge -useContext -underBinder +onlyGivenNames x3
    have h3 : Keeps s0 x3 := by
      unfold x3
      refine State.setFifo_keeps ?_ _ _
      exact h
    refine Keeps.ite (fun _ => ?_) (fun _ => ?_)
    · refine State.txEmptyIrq_keeps ?_ _
      exact h3
    · exact h3

theorem State.txUnderrun_keeps {s0 s : State} (h : Keeps s0 s) (a_id : ℕ) :
    Keeps s0 (State.txUnderrun s a_id) := by
  unfold State.txUnderrun
  extract_lets -merge -useContext -underBinder +onlyGivenNames x0
  extract_lets -merge -useContext -underBinder +onlyGivenNames x1
  extract_lets -merge -useContext -underBinder +onlyGivenNames x2
  have h2 : Keeps s0 x2 := by
    unfold x2
    refine State.fifoBump_keeps ?_ _ _ _
    refine State.fifoBump_keeps ?_ _ _ _
    refine State.setFifo_keeps ?_ _ _
    exact h
  extract_lets -merge -useContext -underBinder +onlyGivenNames x3
  have h3 : Keeps s0 x3 := by
    unfold x3
    refine Keeps.ite (fun _ => ?_) (fun _ => ?_)
    · exact h2
    · refine State.fifoPost_keeps ?_ _ _ _ _ _
      exact h2
  refine State.txFinish_keeps ?_ _
  refine State.packetBad_keeps ?_ _ _ _ _
  exact h3

theorem State.txNext_keeps {s0 s : State} (h : Keeps s0 s) (a_id : ℕ) :
    Keeps s0 (State.txNext s a_id).2 := by
  unfold State.txNext
  split
  · refine Keeps.ite2 (fun _ => ?_) (fun _ => ?_)
    · extract_lets -merge -useContext -underBinder +onlyGivenNames x1
      refine Keeps.pair2 ?_
      refine State.setFifo_keeps ?_ _ _
      exact h
    · refine Keeps.pair2 ?_
      exact h
  · refine Keeps.pair2 ?_
    exact h

theorem State.setCounter_keeps {s0 s : State} (h : Keeps s0 s) (n : Int) : Keeps s0 (s.setCounter n) := by
  refine h.trans ⟨rfl, OtpLe.refl _, fun i => ⟨?_, i.mem, i.regs, i.lease⟩⟩
  show ((n.fdiv (2 ^ 32)).fmod 1000000000).toNat < 1000000000
  have := Int.fmod_lt_of_pos (n.fdiv (2 ^ 32)) (b := 1000000000) (by decide)
  omega

theorem State.stepCounter_keeps {s0 s : State} (h : Keeps s0 s) (a_c : ℤ) :
    Keeps s0 (State.stepCounter s a_c) := by
  unfold State.stepCounter
  refine State.setCounter_keeps ?_ _
  exact h

theorem State.setQuality_keeps {s0 s : State} (h : Keeps s0 s) (a_code : BitVec 4) :
    Keeps s0 (State.setQuality s a_code) := by
  unfold State.setQuality
  extract_lets -merge -useContext -underBinder +onlyGivenNames x0
  refine Keeps.ite (fun _ => ?_) (fun _ => ?_)
  · exact h
  · extract_lets -merge -useContext -underBinder +onlyGivenNames x1
    extract_lets -merge -useContext -underBinder +onlyGivenNames x2
    extract_lets -merge -useContext -underBinder +onlyGivenNames x3
    have h3 : Keeps s0 x3 := by
      unfold x3
      refine Keeps.mk_upd ?_ rfl
      exact h
    refine State.post_keeps ?_ _ _ _ _ _ _ _ _
    refine State.raise_keeps ?_ _ _
    exact h3

theorem State.loseSync_keeps {s0 s : State} (h : Keeps s0 s)  :
    Keeps s0 (State.loseSync s) := by
  unfold State.loseSync
  refine State.setQuality_keeps ?_ _
  refine Keeps.mk_upd ?_ rfl
  exact h

theorem State.checkHoldLimit_keeps {s0 s : State} (h : Keeps s0 s)  :
    Keeps s0 (State.checkHoldLimit s) := by
  unfold State.checkHoldLimit
  refine Keeps.ite (fun _ => ?_) (fun _ => ?_)
  · refine State.setQuality_keeps ?_ _
    exact h
  · exact h

theorem State.tickTimers_keeps {s0 s : State} (h : Keeps s0 s)  :
    Keeps s0 (State.tickTimers s) := by
  unfold State.tickTimers
  refine Keeps.mk_upd ?_ rfl
  exact h

theorem execUncGrowthTick_keeps {s0 s : State} (h : Keeps s0 s)  :
    Answers s0 (execUncGrowthTick s) := by
  refine ⟨_, rfl, ?_⟩
  refine Keeps.ite (fun _ => ?_) (fun _ => ?_)
  · refine State.checkHoldLimit_keeps ?_ 
    refine Keeps.mk_upd ?_ rfl
    exact h
  · exact h

theorem State.timeAccept_keeps {s0 s : State} (h : Keeps s0 s) (a_a : Sys2Proof.Agent) (a_op : ℕ) (a_arg : ℕ) :
    Keeps s0 (State.timeAccept s a_a a_op a_arg) := by
  unfold State.timeAccept
  refine State.mbxAccept_keeps ?_ _ _ (fun y0 h0 => ?_)
  · exact h
  · refine Keeps.mk_upd ?_ rfl
    exact h0

theorem execReadTime_keeps {s0 s : State} (h : Keeps s0 s) (a_a : Sys2Proof.Agent) :
    Answers s0 (execReadTime a_a s) := by
  refine ⟨_, rfl, ?_⟩
  refine State.timeAccept_keeps ?_ _ _ _
  exact h

theorem execAdjPhase_keeps {s0 s : State} (h : Keeps s0 s) (a_a : Sys2Proof.Agent) :
    Answers s0 (execAdjPhase a_a s) := by
  refine ⟨_, rfl, ?_⟩
  refine State.timeAccept_keeps ?_ _ _ _
  exact h

theorem execAdjRate_keeps {s0 s : State} (h : Keeps s0 s) (a_a : Sys2Proof.Agent) :
    Answers s0 (execAdjRate a_a s) := by
  refine ⟨_, rfl, ?_⟩
  refine State.timeAccept_keeps ?_ _ _ _
  exact h

theorem execStepForce_keeps {s0 s : State} (h : Keeps s0 s)  :
    Answers s0 (execStepForce s) := by
  refine ⟨_, rfl, ?_⟩
  refine State.timeAccept_keeps ?_ _ _ _
  exact h

theorem execSetTime_keeps {s0 s : State} (h : Keeps s0 s)  :
    Answers s0 (execSetTime s) := by
  refine ⟨_, rfl, ?_⟩
  refine State.timeAccept_keeps ?_ _ _ _
  exact h

theorem execSetState_keeps {s0 s : State} (h : Keeps s0 s) (a_a : Sys2Proof.Agent) (a_arg : BitVec 16) :
    Answers s0 (execSetState a_a a_arg s) := by
  refine ⟨_, rfl, ?_⟩
  refine State.timeAccept_keeps ?_ _ _ _
  exact h

theorem State.readTime_keeps {s0 s : State} (h : Keeps s0 s)  :
    Keeps s0 (State.readTime s).2 := by
  unfold State.readTime
  refine Keeps.pair2 ?_
  exact h

theorem State.stateSet_keeps {s0 s : State} (h : Keeps s0 s) (a_code : BitVec 4) (a_u : ℕ) :
    Keeps s0 (State.stateSet s a_code a_u) := by
  unfold State.stateSet
  extract_lets -merge -useContext -underBinder +onlyGivenNames x0
  extract_lets -merge -useContext -underBinder +onlyGivenNames x1
  have h1 : Keeps s0 x1 := by
    unfold x1
    refine Keeps.ite (fun _ => ?_) (fun _ => ?_)
    · refine Keeps.mk_upd ?_ rfl
      exact h
    · exact h
  refine State.checkHoldLimit_keeps ?_ 
  refine State.setQuality_keeps ?_ _
  exact h1

theorem State.setState_keeps {s0 s : State} (h : Keeps s0 s) (a_steward : Bool) (a_arg : ℕ) :
    Keeps s0 (State.setState s a_steward a_arg).2 := by
  unfold State.setState
  extract_lets -merge -useContext -underBinder +onlyGivenNames x0
  refine Keeps.ite2 (fun _ => ?_) (fun _ => ?_)
  · refine Keeps.pair2 ?_
    exact h
  · refine Keeps.ite2 (fun _ => ?_) (fun _ => ?_)
    · refine Keeps.pair2 ?_
      exact h
    · refine Keeps.pair2 ?_
      refine State.stateSet_keeps ?_ _ _
      exact h

theorem State.rateSet_keeps {s0 s : State} (h : Keeps s0 s) (a_steward : Bool) :
    Keeps s0 (State.rateSet s a_steward).2 := by
  unfold State.rateSet
  refine Keeps.ite2 (fun _ => ?_) (fun _ => ?_)
  · refine Keeps.pair2 ?_
    refine State.wr_keeps ?_ _ _
    exact h
  · refine Keeps.pair2 ?_
    exact h

theorem State.xt32Advance_keeps {s0 s : State} (h : Keeps s0 s)  :
    Keeps s0 (State.xt32Advance s) := by
  unfold State.xt32Advance
  extract_lets -merge -useContext -underBinder +onlyGivenNames x0
  extract_lets -merge -useContext -underBinder +onlyGivenNames x1
  have h1 : Keeps s0 x1 := by
    unfold x1
    refine State.setCounter_keeps ?_ _
    exact h
  refine Keeps.mk_upd ?_ rfl
  exact h1

theorem State.memUncorr_keeps {s0 s : State} (h : Keeps s0 s) (a_page : ℕ) (a_mem : ℕ) (a_addr : Sys2Proof.Word) (a_syn : Sys2Proof.Word) :
    Keeps s0 (State.memUncorr s a_page a_mem a_addr a_syn) := by
  unfold State.memUncorr
  refine State.leaseFault_keeps ?_ _
  refine State.eccError_keeps ?_ _ _ _ _ _
  exact h

theorem State.memEcc_keeps {s0 s : State} (h : Keeps s0 s) (a_page : ℕ) (a_mem : ℕ) (a_x : Sys2Proof.ReadEcc) :
    Keeps s0 (State.memEcc s a_page a_mem a_x) := by
  unfold State.memEcc
  split
  · exact h
  · refine State.eccError_keeps ?_ _ _ _ _ _
    exact h
  · refine State.memUncorr_keeps ?_ _ _ _ _
    exact h

theorem State.setRule_keeps {s0 s : State} (h : Keeps s0 s) (a_r : ℕ) (a_x : Sys2Proof.Machine.Rule) :
    Keeps s0 (State.setRule s a_r a_x) := by
  unfold State.setRule
  refine Keeps.mk_upd ?_ rfl
  exact h

theorem State.notePeak_keeps {s0 s : State} (h : Keeps s0 s)  :
    Keeps s0 (State.notePeak s) := by
  unfold State.notePeak
  extract_lets -merge -useContext -underBinder +onlyGivenNames x0
  refine Keeps.ite (fun _ => ?_) (fun _ => ?_)
  · refine State.wr_keeps ?_ _ _
    exact h
  · exact h

theorem State.queueRule_keeps {s0 s : State} (h : Keeps s0 s) (a_n : ℕ) :
    Keeps s0 (State.queueRule s a_n) := by
  unfold State.queueRule
  refine Keeps.ite (fun _ => ?_) (fun _ => ?_)
  · exact h
  · refine State.notePeak_keeps ?_ 
    refine Keeps.ite (fun _ => ?_) (fun _ => ?_)
    · refine Keeps.mk_upd ?_ rfl
      exact h
    · refine Keeps.mk_upd ?_ rfl
      exact h

theorem State.dequeueRule_keeps {s0 s : State} (h : Keeps s0 s) (a_n : ℕ) :
    Keeps s0 (State.dequeueRule s a_n) := by
  unfold State.dequeueRule
  refine Keeps.mk_upd ?_ rfl
  exact h

theorem State.operandChanged_keeps {s0 s : State} (h : Keeps s0 s) (a_k : ℕ) (a_t : Sys2Proof.TimePoint) :
    Keeps s0 (State.operandChanged s a_k a_t) := by
  unfold State.operandChanged
  refine Keeps.foldl ?_ (fun y0 a0 h0 => ?_)
  · exact h
  · refine Keeps.ite (fun _ => ?_) (fun _ => ?_)
    · refine State.queueRule_keeps ?_ _
      refine State.setRule_keeps ?_ _ _
      exact h0
    · exact h0

theorem State.setWin_keeps {s0 s : State} (h : Keeps s0 s) (a_w : ℕ) (a_f : Sys2Proof.Machine.WinEnt → Sys2Proof.Machine.WinEnt) :
    Keeps s0 (State.setWin s a_w a_f) := by
  unfold State.setWin
  refine Keeps.mk_upd ?_ rfl
  exact h

theorem State.setWinBit_keeps {s0 s : State} (h : Keeps s0 s) (a_w : ℕ) (a_b : Bool) (a_t : Sys2Proof.TimePoint) :
    Keeps s0 (State.setWinBit s a_w a_b a_t) := by
  unfold State.setWinBit
  refine Keeps.ite (fun _ => ?_) (fun _ => ?_)
  · exact h
  · extract_lets -merge -useContext -underBinder +onlyGivenNames x0
    have h0 : Keeps s0 x0 := by
      unfold x0
      refine Keeps.mk_upd ?_ rfl
      exact h
    refine Keeps.ite (fun _ => ?_) (fun _ => ?_)
    · refine State.operandChanged_keeps ?_ _ _
      exact h0
    · exact h0

theorem State.winIgnored_keeps {s0 s : State} (h : Keeps s0 s)  :
    Keeps s0 (State.winIgnored s) := by
  unfold State.winIgnored
  refine State.raise_keeps ?_ _ _
  refine State.bump_keeps ?_ _
  exact h

theorem State.winTrigger_keeps {s0 s : State} (h : Keeps s0 s) (a_w : ℕ) (a_e : Sys2Proof.TimePoint) :
    Keeps s0 (State.winTrigger s a_w a_e) := by
  unfold State.winTrigger
  extract_lets -merge -useContext -underBinder +onlyGivenNames x0
  refine Keeps.ite (fun _ => ?_) (fun _ => ?_)
  · exact h
  · refine Keeps.ite (fun _ => ?_) (fun _ => ?_)
    · refine State.winIgnored_keeps ?_ 
      exact h
    · extract_lets -merge -useContext -underBinder +onlyGivenNames x1
      refine Keeps.ite (fun _ => ?_) (fun _ => ?_)
      · refine State.winIgnored_keeps ?_ 
        exact h
      · refine State.setWin_keeps ?_ _ _
        exact h

theorem State.winLineEdge_keeps {s0 s : State} (h : Keeps s0 s) (a_k : ℕ) (a_rise : Bool) (a_e : Sys2Proof.TimePoint) :
    Keeps s0 (State.winLineEdge s a_k a_rise a_e) := by
  unfold State.winLineEdge
  refine Keeps.foldl ?_ (fun y0 a0 h0 => ?_)
  · exact h
  · refine Keeps.ite (fun _ => ?_) (fun _ => ?_)
    · refine State.winTrigger_keeps ?_ _ _
      exact h0
    · exact h0

theorem State.winSignal_keeps {s0 s : State} (h : Keeps s0 s) (a_n : ℕ) (a_old : ℕ) (a_new : ℕ) (a_e : Sys2Proof.TimePoint) :
    Keeps s0 (State.winSignal s a_n a_old a_new a_e) := by
  unfold State.winSignal
  refine Keeps.ite (fun _ => ?_) (fun _ => ?_)
  · exact h
  · refine Keeps.foldl ?_ (fun y0 a0 h0 => ?_)
    · exact h
    · extract_lets -merge -useContext -underBinder +onlyGivenNames x1
      refine Keeps.ite (fun _ => ?_) (fun _ => ?_)
      · refine State.winTrigger_keeps ?_ _ _
        exact h0
      · exact h0

theorem State.winSubject_keeps {s0 s : State} (h : Keeps s0 s) (a_k : ℕ) (a_rise : Bool) (a_t : Sys2Proof.TimePoint) (a_u : ℕ) (a_q : BitVec 4) :
    Keeps s0 (State.winSubject s a_k a_rise a_t a_u a_q) := by
  unfold State.winSubject
  refine Keeps.foldl ?_ (fun y0 a0 h0 => ?_)
  · exact h
  · refine Keeps.ite (fun _ => ?_) (fun _ => ?_)
    · refine Keeps.mk_upd ?_ rfl
      exact h0
    · exact h0

theorem State.winDisarm_keeps {s0 s : State} (h : Keeps s0 s) (a_w : ℕ) :
    Keeps s0 (State.winDisarm s a_w) := by
  unfold State.winDisarm
  extract_lets -merge -useContext -underBinder +onlyGivenNames x0
  have h0 : Keeps s0 x0 := by
    unfold x0
    refine State.setWinBit_keeps ?_ _ _ _
    refine State.setWin_keeps ?_ _ _
    exact h
  refine Keeps.mk_upd ?_ rfl
  exact h0

theorem State.winClassify_keeps {s0 s : State} (h : Keeps s0 s) (a_e : Sys2Proof.Machine.WinEdge) :
    Keeps s0 (State.winClassify s a_e) := by
  unfold State.winClassify
  extract_lets -merge -useContext -underBinder +onlyGivenNames x0
  extract_lets -merge -useContext -underBinder +onlyGivenNames x1
  extract_lets -merge -useContext -underBinder +onlyGivenNames x2
  extract_lets -merge -useContext -underBinder +onlyGivenNames x3
  extract_lets -merge -useContext -underBinder +onlyGivenNames x4
  have h4 : Keeps s0 x4 := by
    unfold x4
    refine State.bump_keeps ?_ _
    exact h
  extract_lets -merge -useContext -underBinder +onlyGivenNames x5
  have h5 : Keeps s0 x5 := by
    unfold x5
    refine Keeps.ite (fun _ => ?_) (fun _ => ?_)
    · refine State.bump_keeps ?_ _
      exact h4
    · exact h4
  refine Keeps.ite (fun _ => ?_) (fun _ => ?_)
  · extract_lets -merge -useContext -underBinder +onlyGivenNames x6
    refine State.postAt_keeps ?_ _ _ _ _ _ _ _ _ _ _
    refine State.raise_keeps ?_ _ _
    exact h5
  · exact h5

theorem execWindowClassify_keeps {s0 s : State} (h : Keeps s0 s) (a_i : ℕ) :
    Answers s0 (execWindowClassify a_i s) := by
  refine ⟨_, rfl, ?_⟩
  split
  · refine Keeps.ite (fun _ => ?_) (fun _ => ?_)
    · refine State.winClassify_keeps ?_ _
      refine Keeps.mk_upd ?_ rfl
      exact h
    · exact h
  · exact h

theorem execWindowStateChange_keeps {s0 s : State} (h : Keeps s0 s) (w : Fin 256) : Answers s0 (execWindowStateChange w s) :=
  ⟨_, rfl, State.setWinBit_keeps h _ _ _⟩

theorem State.winCommand_keeps {s0 s : State} (h : Keeps s0 s) (a_arg : BitVec 16) (a_f : ℕ → Sys2Proof.Machine.State → Sys2Proof.Machine.MbxAns × Sys2Proof.Machine.State) (Ha_f : ∀ z0 z1, Keeps s0 z1 → Keeps s0 (a_f z0 z1).2) :
    Keeps s0 (State.winCommand s a_arg a_f) := by
  unfold State.winCommand
  refine State.mbxCommand_keeps ?_ _ _ (fun y0 h0 => ?_)
  · exact h
  · refine Keeps.ite2 (fun _ => ?_) (fun _ => ?_)
    · refine Keeps.pair2 ?_
      exact h0
    · refine Ha_f _ _ ?_
      exact h0

theorem execLoadTimes_keeps {s0 s : State} (h : Keeps s0 s) (a_arg : BitVec 16) :
    Answers s0 (execLoadTimes a_arg s) := by
  refine ⟨_, rfl, ?_⟩
  refine State.winCommand_keeps ?_ _ _ (fun _ y0 h0 => ?_)
  · exact h
  · extract_lets -merge -useContext -underBinder +onlyGivenNames x1
    extract_lets -merge -useContext -underBinder +onlyGivenNames x2
    refine Keeps.ite2 (fun _ => ?_) (fun _ => ?_)
    · refine Keeps.pair2 ?_
      exact h0
    · refine Keeps.ite2 (fun _ => ?_) (fun _ => ?_)
      · refine Keeps.pair2 ?_
        exact h0
      · refine Keeps.pair2 ?_
        refine State.setWin_keeps ?_ _ _
        exact h0

theorem execLoadCtrl_keeps {s0 s : State} (h : Keeps s0 s) (a_arg : BitVec 16) :
    Answers s0 (execLoadCtrl a_arg s) := by
  refine ⟨_, rfl, ?_⟩
  refine State.winCommand_keeps ?_ _ _ (fun _ y0 h0 => ?_)
  · exact h
  · extract_lets -merge -useContext -underBinder +onlyGivenNames x1
    refine Keeps.ite2 (fun _ => ?_) (fun _ => ?_)
    · refine Keeps.pair2 ?_
      exact h0
    · refine Keeps.ite2 (fun _ => ?_) (fun _ => ?_)
      · refine Keeps.pair2 ?_
        exact h0
      · refine Keeps.pair2 ?_
        refine State.setWin_keeps ?_ _ _
        exact h0

theorem execWinArm_keeps {s0 s : State} (h : Keeps s0 s) (a_arg : BitVec 16) :
    Answers s0 (execWinArm a_arg s) := by
  refine ⟨_, rfl, ?_⟩
  refine State.winCommand_keeps ?_ _ _ (fun _ y0 h0 => ?_)
  · exact h
  · extract_lets -merge -useContext -underBinder +onlyGivenNames x1
    refine Keeps.ite2 (fun _ => ?_) (fun _ => ?_)
    · refine Keeps.pair2 ?_
      exact h0
    · refine Keeps.ite2 (fun _ => ?_) (fun _ => ?_)
      · refine Keeps.pair2 ?_
        exact h0
      · refine Keeps.pair2 ?_
        refine State.setWin_keeps ?_ _ _
        exact h0

theorem execWinDisarm_keeps {s0 s : State} (h : Keeps s0 s) (a_arg : BitVec 16) :
    Answers s0 (execWinDisarm a_arg s) := by
  refine ⟨_, rfl, ?_⟩
  refine State.winCommand_keeps ?_ _ _ (fun _ y0 h0 => ?_)
  · exact h
  · refine Keeps.pair2 ?_
    refine State.winDisarm_keeps ?_ _
    exact h0

theorem execReadTimes_keeps {s0 s : State} (h : Keeps s0 s) (a_arg : BitVec 16) :
    Answers s0 (execReadTimes a_arg s) := by
  refine ⟨_, rfl, ?_⟩
  refine State.winCommand_keeps ?_ _ _ (fun _ y0 h0 => ?_)
  · exact h
  · extract_lets -merge -useContext -underBinder +onlyGivenNames x1
    refine Keeps.pair2 ?_
    exact h0

theorem execReadCtrl_keeps {s0 s : State} (h : Keeps s0 s) (a_arg : BitVec 16) :
    Answers s0 (execReadCtrl a_arg s) := by
  refine ⟨_, rfl, ?_⟩
  refine State.winCommand_keeps ?_ _ _ (fun _ y0 h0 => ?_)
  · exact h
  · extract_lets -merge -useContext -underBinder +onlyGivenNames x1
    refine Keeps.pair2 ?_
    exact h0

theorem execTrigger_keeps {s0 s : State} (h : Keeps s0 s) (a_arg : BitVec 16) :
    Answers s0 (execTrigger a_arg s) := by
  refine ⟨_, rfl, ?_⟩
  refine State.winCommand_keeps ?_ _ _ (fun _ y0 h0 => ?_)
  · exact h
  · refine Keeps.pair2 ?_
    refine State.winTrigger_keeps ?_ _ _
    exact h0

theorem State.winSoftReset_keeps {s0 s : State} (h : Keeps s0 s)  :
    Keeps s0 (State.winSoftReset s) := by
  unfold State.winSoftReset
  refine Keeps.foldl ?_ (fun y0 a0 h0 => ?_)
  · exact h
  · refine State.winDisarm_keeps ?_ _
    exact h0

theorem State.setEng_keeps {s0 s : State} (h : Keeps s0 s) (a_e : ℕ) (a_f : Sys2Proof.Machine.EngSt → Sys2Proof.Machine.EngSt) :
    Keeps s0 (State.setEng s a_e a_f) := by
  unfold State.setEng
  refine Keeps.mk_upd ?_ rfl
  exact h

theorem State.readbackTrack_keeps {s0 s : State} (h : Keeps s0 s) (a_k : ℕ) :
    Keeps s0 (State.readbackTrack s a_k) := by
  unfold State.readbackTrack
  extract_lets -merge -useContext -underBinder +onlyGivenNames x0
  extract_lets -merge -useContext -underBinder +onlyGivenNames x1
  refine Keeps.ite (fun _ => ?_) (fun _ => ?_)
  · exact h
  · refine State.setLine_keeps ?_ _ _
    exact h

theorem State.latchWrite_keeps {s0 s : State} (h : Keeps s0 s) (a_k : ℕ) (a_b : Bool) :
    Keeps s0 (State.latchWrite s a_k a_b) := by
  unfold State.latchWrite
  refine State.commandsChanged_keeps ?_ 
  refine State.readbackTrack_keeps ?_ _
  refine State.setLine_keeps ?_ _ _
  exact h

theorem State.cmdWrite_keeps {s0 s : State} (h : Keeps s0 s) (a_k : ℕ) (a_b : Bool) :
    Keeps s0 (State.cmdWrite s a_k a_b) := by
  unfold State.cmdWrite
  refine State.commandsChanged_keeps ?_ 
  refine State.setLine_keeps ?_ _ _
  exact h

theorem State.pulseStart_keeps {s0 s : State} (h : Keeps s0 s) (a_k : ℕ) (a_b : Bool) (a_stop : Sys2Proof.TimePoint) :
    Keeps s0 (State.pulseStart s a_k a_b a_stop) := by
  unfold State.pulseStart
  refine State.commandsChanged_keeps ?_ 
  refine State.readbackTrack_keeps ?_ _
  refine State.setLine_keeps ?_ _ _
  exact h

theorem State.cmdPulseStart_keeps {s0 s : State} (h : Keeps s0 s) (a_k : ℕ) (a_b : Bool) (a_stop : Sys2Proof.TimePoint) :
    Keeps s0 (State.cmdPulseStart s a_k a_b a_stop) := by
  unfold State.cmdPulseStart
  refine State.commandsChanged_keeps ?_ 
  refine State.setLine_keeps ?_ _ _
  exact h

theorem State.swWrite_keeps {s0 s : State} (h : Keeps s0 s) (a_k : ℕ) (a_b : Bool) :
    Keeps s0 (State.swWrite s a_k a_b) := by
  unfold State.swWrite
  refine Keeps.ite (fun _ => ?_) (fun _ => ?_)
  · refine State.bump_keeps ?_ _
    refine State.cmdWrite_keeps ?_ _ _
    exact h
  · refine State.latchWrite_keeps ?_ _ _
    exact h

theorem State.outWrite_keeps {s0 s : State} (h : Keeps s0 s) (a_c : ℕ) (a_mask : ℕ) (a_b : Bool) :
    Keeps s0 (State.outWrite s a_c a_mask a_b) := by
  unfold State.outWrite
  refine Keeps.foldl ?_ (fun y0 a0 h0 => ?_)
  · exact h
  · refine Keeps.ite (fun _ => ?_) (fun _ => ?_)
    · refine State.swWrite_keeps ?_ _ _
      exact h0
    · exact h0

theorem State.safeEnter_keeps {s0 s : State} (h : Keeps s0 s) (a_k : ℕ) :
    Keeps s0 (State.safeEnter s a_k) := by
  unfold State.safeEnter
  extract_lets -merge -useContext -underBinder +onlyGivenNames x0
  refine Keeps.ite (fun _ => ?_) (fun _ => ?_)
  · exact h
  · extract_lets -merge -useContext -underBinder +onlyGivenNames x1
    refine State.readbackTrack_keeps ?_ _
    refine State.setLine_keeps ?_ _ _
    exact h

theorem State.safeRelease_keeps {s0 s : State} (h : Keeps s0 s) (a_k : ℕ) :
    Keeps s0 (State.safeRelease s a_k) := by
  unfold State.safeRelease
  refine State.readbackTrack_keeps ?_ _
  refine State.setLine_keeps ?_ _ _
  exact h

theorem execPulseEnd_keeps {s0 s : State} (h : Keeps s0 s) (a_k : Fin 256) (a_inLatch : Bool) (a_inCommand : Bool) :
    Answers s0 (execPulseEnd a_k a_inLatch a_inCommand s) := by
  refine ⟨_, rfl, ?_⟩
  extract_lets -merge -useContext -underBinder +onlyGivenNames x0
  extract_lets -merge -useContext -underBinder +onlyGivenNames x1
  extract_lets -merge -useContext -underBinder +onlyGivenNames x2
  extract_lets -merge -useContext -underBinder +onlyGivenNames x3
  have h3 : Keeps s0 x3 := by
    unfold x3
    refine State.setLine_keeps ?_ _ _
    exact h
  extract_lets -merge -useContext -underBinder +onlyGivenNames x4
  have h4 : Keeps s0 x4 := by
    unfold x4
    refine State.commandsChanged_keeps ?_ 
    refine State.readbackTrack_keeps ?_ _
    exact h3
  refine Keeps.ite (fun _ => ?_) (fun _ => ?_)
  · extract_lets -merge -useContext -underBinder +onlyGivenNames x5
    extract_lets -merge -useContext -underBinder +onlyGivenNames x6
    have h6 : Keeps s0 x6 := by
      unfold x6
      refine Keeps.mk_upd ?_ rfl
      exact h4
    refine Keeps.foldl ?_ (fun y7 a7 h7 => ?_)
    · exact h6
    · refine State.postAt_keeps ?_ _ _ _ _ _ _ _ _ _ _
      refine State.raise_keeps ?_ _ _
      exact h7
  · exact h4

theorem execReadbackMismatch_keeps {s0 s : State} (h : Keeps s0 s) (a_k : Fin 256) :
    Answers s0 (execReadbackMismatch a_k s) := by
  refine ⟨_, rfl, ?_⟩
  extract_lets -merge -useContext -underBinder +onlyGivenNames x0
  extract_lets -merge -useContext -underBinder +onlyGivenNames x1
  refine Keeps.ite (fun _ => ?_) (fun _ => ?_)
  · extract_lets -merge -useContext -underBinder +onlyGivenNames x2
    extract_lets -merge -useContext -underBinder +onlyGivenNames x3
    have h3 : Keeps s0 x3 := by
      unfold x3
      refine State.bump_keeps ?_ _
      exact h
    extract_lets -merge -useContext -underBinder +onlyGivenNames x4
    have h4 : Keeps s0 x4 := by
      unfold x4
      refine State.setLine_keeps ?_ _ _
      exact h3
    extract_lets -merge -useContext -underBinder +onlyGivenNames x5
    extract_lets -merge -useContext -underBinder +onlyGivenNames x6
    have h6 : Keeps s0 x6 := by
      unfold x6
      refine Keeps.ite (fun _ => ?_) (fun _ => ?_)
      · refine State.safeEnter_keeps ?_ _
        exact h4
      · exact h4
    extract_lets -merge -useContext -underBinder +onlyGivenNames x7
    have h7 : Keeps s0 x7 := by
      unfold x7
      refine State.post_keeps ?_ _ _ _ _ _ _ _ _
      refine State.raise_keeps ?_ _ _
      exact h6
    refine Keeps.ite (fun _ => ?_) (fun _ => ?_)
    · refine State.leaseFault_keeps ?_ _
      exact h7
    · exact h7
  · exact h

theorem State.setTile_keeps {s0 s : State} (h : Keeps s0 s) (a_t : ℕ) (a_f : Sys2Proof.Machine.TileSt → Sys2Proof.Machine.TileSt) :
    Keeps s0 (State.setTile s a_t a_f) := by
  unfold State.setTile
  refine Keeps.mk_upd ?_ rfl
  exact h

theorem State.tileWake_keeps {s0 s : State} (h : Keeps s0 s) (a_t : ℕ) :
    Keeps s0 (State.tileWake s a_t) := by
  unfold State.tileWake
  split
  · refine Keeps.ite (fun _ => ?_) (fun _ => ?_)
    · refine State.bump_keeps ?_ _
      refine State.setTile_keeps ?_ _ _
      exact h
    · exact h
  · exact h
  · refine State.setTile_keeps ?_ _ _
    exact h

theorem State.tileLock_keeps {s0 s : State} (h : Keeps s0 s) (a_t : ℕ) :
    Keeps s0 (State.tileLock s a_t) := by
  unfold State.tileLock
  refine State.setTile_keeps ?_ _ _
  exact h

theorem execTileClockLockTimeout_keeps {s0 s : State} (h : Keeps s0 s) (a_t : Fin 8) :
    Answers s0 (execTileClockLockTimeout a_t s) := by
  refine ⟨_, rfl, ?_⟩
  refine Keeps.ite (fun _ => ?_) (fun _ => ?_)
  · refine State.qualFail_keeps ?_ _ _ _ _ _
    refine State.raise_keeps ?_ _ _
    refine State.bump_keeps ?_ _
    refine State.setTile_keeps ?_ _ _
    exact h
  · exact h

theorem execTileClockStop_keeps {s0 s : State} (h : Keeps s0 s) (a_t : Fin 8) :
    Answers s0 (execTileClockStop a_t s) := by
  refine ⟨_, rfl, ?_⟩
  refine Keeps.ite (fun _ => ?_) (fun _ => ?_)
  · refine State.setTile_keeps ?_ _ _
    exact h
  · exact h

theorem State.tileTrack_keeps {s0 s : State} (h : Keeps s0 s) (a_t : ℕ) :
    Keeps s0 (State.tileTrack s a_t) := by
  unfold State.tileTrack
  refine Keeps.ite (fun _ => ?_) (fun _ => ?_)
  · refine State.setTile_keeps ?_ _ _
    exact h
  · exact h

theorem State.tileSample_keeps {s0 s : State} (h : Keeps s0 s)  :
    Keeps s0 (State.tileSample s) := by
  unfold State.tileSample
  refine Keeps.foldl ?_ (fun y1 a1 h1 => ?_)
  · refine Keeps.foldl ?_ (fun y0 a0 h0 => ?_)
    · exact h
    · refine State.readbackTrack_keeps ?_ _
      exact h0
  · refine State.tileTrack_keeps ?_ _
    exact h1

theorem State.stampLost_keeps {s0 s : State} (h : Keeps s0 s) (a_t : ℕ) (a_x : Sys2Proof.Machine.Stamp) :
    Keeps s0 (State.stampLost s a_t a_x) := by
  unfold State.stampLost
  extract_lets -merge -useContext -underBinder +onlyGivenNames x0
  have h0 : Keeps s0 x0 := by
    unfold x0
    refine State.bump_keeps ?_ _
    exact h
  split
  · refine State.setTile_keeps ?_ _ _
    exact h0
  · refine State.post_keeps ?_ _ _ _ _ _ _ _ _
    refine State.raise_keeps ?_ _ _
    refine State.setTile_keeps ?_ _ _
    exact h0

theorem State.stampEdge_keeps {s0 s : State} (h : Keeps s0 s) (a_k : ℕ) (a_rise : Bool) (a_time : Sys2Proof.TimePoint) (a_unc : ℕ) (a_q : BitVec 4) :
    Keeps s0 (State.stampEdge s a_k a_rise a_time a_unc a_q) := by
  unfold State.stampEdge
  extract_lets -merge -useContext -underBinder +onlyGivenNames x0
  extract_lets -merge -useContext -underBinder +onlyGivenNames x1
  extract_lets -merge -useContext -underBinder +onlyGivenNames x2
  have h2 : Keeps s0 x2 := by
    unfold x2
    refine State.setTile_keeps ?_ _ _
    exact h
  extract_lets -merge -useContext -underBinder +onlyGivenNames x3
  have h3 : Keeps s0 x3 := by
    unfold x3
    refine Keeps.mk_upd ?_ rfl
    exact h2
  extract_lets -merge -useContext -underBinder +onlyGivenNames x4
  refine Keeps.ite (fun _ => ?_) (fun _ => ?_)
  · refine State.setLine_keeps ?_ _ _
    exact h3
  · refine State.stampLost_keeps ?_ _ _
    exact h3

theorem State.stampStore_keeps {s0 s : State} (h : Keeps s0 s) (a_t : ℕ) (a_ws : List Sys2Proof.Word) :
    Keeps s0 (State.stampStore s a_t a_ws) := by
  unfold State.stampStore
  extract_lets -merge -useContext -underBinder +onlyGivenNames x0
  extract_lets -merge -useContext -underBinder +onlyGivenNames x1
  have h1 : Keeps s0 x1 := by
    unfold x1
    refine Keeps.foldl ?_ (fun y2 a2 h2 => ?_)
    · exact h
    · refine State.sramSet_keeps ?_ _ _
      exact h2
  refine State.setTile_keeps ?_ _ _
  exact h1

theorem execStampTransfer_keeps {s0 s : State} (h : Keeps s0 s) (a_t : Fin 8) :
    Answers s0 (execStampTransfer a_t s) := by
  refine ⟨_, rfl, ?_⟩
  refine Keeps.ite (fun _ => ?_) (fun _ => ?_)
  · exact h
  · extract_lets -merge -useContext -underBinder +onlyGivenNames x0
    split
    · refine Keeps.ite (fun _ => ?_) (fun _ => ?_)
      · refine State.setTile_keeps ?_ _ _
        refine State.stampStore_keeps ?_ _ _
        exact h
      · split
        · refine State.stampLost_keeps ?_ _ _
          refine State.setLine_keeps ?_ _ _
          exact h
        · exact h
    · split
      · extract_lets -merge -useContext -underBinder +onlyGivenNames x6
        extract_lets -merge -useContext -underBinder +onlyGivenNames x7
        have h7 : Keeps s0 x7 := by
          unfold x7
          refine State.setLine_keeps ?_ _ _
          exact h
        refine Keeps.ite (fun _ => ?_) (fun _ => ?_)
        · refine State.stampStore_keeps ?_ _ _
          exact h7
        · refine State.stampLost_keeps ?_ _ _
          exact h7
      · exact h

theorem State.stampRead_keeps {s0 s : State} (h : Keeps s0 s) (a_t : ℕ) :
    Keeps s0 (State.stampRead s a_t).2 := by
  unfold State.stampRead
  extract_lets -merge -useContext -underBinder +onlyGivenNames x0
  refine Keeps.ite2 (fun _ => ?_) (fun _ => ?_)
  · refine Keeps.pair2 ?_
    refine State.setTile_keeps ?_ _ _
    exact h
  · extract_lets -merge -useContext -underBinder +onlyGivenNames x1
    refine Keeps.pair2 ?_
    refine State.setTile_keeps ?_ _ _
    exact h

theorem State.stampCfgWrite_keeps {s0 s : State} (h : Keeps s0 s) (a_t : ℕ) (a_v : Sys2Proof.Word) :
    Keeps s0 (State.stampCfgWrite s a_t a_v) := by
  unfold State.stampCfgWrite
  refine Keeps.ite (fun _ => ?_) (fun _ => ?_)
  · refine State.setTile_keeps ?_ _ _
    refine State.wr_keeps ?_ _ _
    exact h
  · exact h

theorem State.tileSoftReset_keeps {s0 s : State} (h : Keeps s0 s) (a_t : ℕ) :
    Keeps s0 (State.tileSoftReset s a_t) := by
  unfold State.tileSoftReset
  refine State.setTile_keeps ?_ _ _
  exact h

theorem State.setCtr_keeps {s0 s : State} (h : Keeps s0 s) (a_c : ℕ) (a_f : Sys2Proof.Machine.CtrSt → Sys2Proof.Machine.CtrSt) :
    Keeps s0 (State.setCtr s a_c a_f) := by
  unfold State.setCtr
  refine Keeps.mk_upd ?_ rfl
  exact h

theorem State.ctrCapture_keeps {s0 s : State} (h : Keeps s0 s) (a_c : ℕ) :
    Keeps s0 (State.ctrCapture s a_c) := by
  unfold State.ctrCapture
  extract_lets -merge -useContext -underBinder +onlyGivenNames x0
  extract_lets -merge -useContext -underBinder +onlyGivenNames x1
  extract_lets -merge -useContext -underBinder +onlyGivenNames x2
  extract_lets -merge -useContext -underBinder +onlyGivenNames x3
  have h3 : Keeps s0 x3 := by
    unfold x3
    refine Keeps.foldl ?_ (fun y4 a4 h4 => ?_)
    · exact h
    · refine State.wr_keeps ?_ _ _
      exact h4
  extract_lets -merge -useContext -underBinder +onlyGivenNames x5
  have h5 : Keeps s0 x5 := by
    unfold x5
    refine State.setCtr_keeps ?_ _ _
    exact h3
  extract_lets -merge -useContext -underBinder +onlyGivenNames x6
  have h6 : Keeps s0 x6 := by
    unfold x6
    refine State.raise_keeps ?_ _ _
    exact h5
  refine Keeps.ite (fun _ => ?_) (fun _ => ?_)
  · refine State.rxPacket_keeps ?_ _ _ _
    exact h6
  · exact h6

theorem State.ctrEdge_keeps {s0 s : State} (h : Keeps s0 s) (a_c : ℕ) (a_rise : Bool) (a_t : Sys2Proof.TimePoint) :
    Keeps s0 (State.ctrEdge s a_c a_rise a_t) := by
  unfold State.ctrEdge
  extract_lets -merge -useContext -underBinder +onlyGivenNames x0
  extract_lets -merge -useContext -underBinder +onlyGivenNames x1
  extract_lets -merge -useContext -underBinder +onlyGivenNames x2
  refine Keeps.ite (fun _ => ?_) (fun _ => ?_)
  · exact h
  · extract_lets -merge -useContext -underBinder +onlyGivenNames x3
    extract_lets -merge -useContext -underBinder +onlyGivenNames x4
    have h4 : Keeps s0 x4 := by
      unfold x4
      refine State.wr_keeps ?_ _ _
      exact h
    refine State.setCtr_keeps ?_ _ _
    exact h4

theorem execPeriodicCapture_keeps {s0 s : State} (h : Keeps s0 s) (a_c : Fin 64) :
    Answers s0 (execPeriodicCapture a_c s) := by
  refine ⟨_, rfl, ?_⟩
  extract_lets -merge -useContext -underBinder +onlyGivenNames x0
  extract_lets -merge -useContext -underBinder +onlyGivenNames x1
  refine Keeps.ite (fun _ => ?_) (fun _ => ?_)
  · refine State.ctrCapture_keeps ?_ _
    refine State.setCtr_keeps ?_ _ _
    exact h
  · exact h

theorem State.capSkip_keeps {s0 s : State} (h : Keeps s0 s) (a_d : ℤ) (a_c : ℕ) :
    Keeps s0 (State.capSkip s a_d a_c) := by
  unfold State.capSkip
  refine Keeps.ite (fun _ => ?_) (fun _ => ?_)
  · extract_lets -merge -useContext -underBinder +onlyGivenNames x0
    refine State.setCtr_keeps ?_ _ _
    exact h
  · exact h

theorem State.deliverEdge_keeps {s0 s : State} (h : Keeps s0 s) (a_k : ℕ) (a_rise : Bool) (a_time : Sys2Proof.TimePoint) (a_unc : ℕ) (a_q : BitVec 4) :
    Keeps s0 (State.deliverEdge s a_k a_rise a_time a_unc a_q) := by
  unfold State.deliverEdge
  extract_lets -merge -useContext -underBinder +onlyGivenNames x0
  extract_lets -merge -useContext -underBinder +onlyGivenNames x1
  have h1 : Keeps s0 x1 := by
    unfold x1
    refine State.setLine_keeps ?_ _ _
    exact h
  extract_lets -merge -useContext -underBinder +onlyGivenNames x2
  have h2 : Keeps s0 x2 := by
    unfold x2
    refine Keeps.ite (fun _ => ?_) (fun _ => ?_)
    · refine State.stampEdge_keeps ?_ _ _ _ _ _
      exact h1
    · exact h1
  extract_lets -merge -useContext -underBinder +onlyGivenNames x3
  have h3 : Keeps s0 x3 := by
    unfold x3
    refine State.operandChanged_keeps ?_ _ _
    exact h2
  extract_lets -merge -useContext -underBinder +onlyGivenNames x4
  have h4 : Keeps s0 x4 := by
    unfold x4
    refine State.winLineEdge_keeps ?_ _ _ _
    exact h3
  extract_lets -merge -useContext -underBinder +onlyGivenNames x5
  have h5 : Keeps s0 x5 := by
    unfold x5
    refine State.winSubject_keeps ?_ _ _ _ _ _
    exact h4
  refine Keeps.ite (fun _ => ?_) (fun _ => ?_)
  · refine Keeps.ite (fun _ => ?_) (fun _ => ?_)
    · refine State.ctrEdge_keeps ?_ _ _ _
      exact h5
    · refine Keeps.ite (fun _ => ?_) (fun _ => ?_)
      · refine State.ctrCapture_keeps ?_ _
        exact h5
      · exact h5
  · exact h5

theorem State.chatterPost_keeps {s0 s : State} (h : Keeps s0 s) (a_k : ℕ) (a_blocked : Bool) :
    Keeps s0 (State.chatterPost s a_k a_blocked) := by
  unfold State.chatterPost
  extract_lets -merge -useContext -underBinder +onlyGivenNames x0
  extract_lets -merge -useContext -underBinder +onlyGivenNames x1
  refine State.post_keeps ?_ _ _ _ _ _ _ _ _
  refine State.raise_keeps ?_ _ _
  exact h

theorem State.lineFail_keeps {s0 s : State} (h : Keeps s0 s) (a_k : ℕ) (a_check : ℕ) (a_value : ℕ) (a_counter : ℕ) :
    Keeps s0 (State.lineFail s a_k a_check a_value a_counter) := by
  unfold State.lineFail
  refine State.raise_keeps ?_ _ _
  refine State.qualFail_keeps ?_ _ _ _ _ _
  exact h

theorem State.rateCheck_keeps {s0 s : State} (h : Keeps s0 s) (a_k : ℕ) :
    Keeps s0 (State.rateCheck s a_k) := by
  unfold State.rateCheck
  extract_lets -merge -useContext -underBinder +onlyGivenNames x0
  extract_lets -merge -useContext -underBinder +onlyGivenNames x1
  extract_lets -merge -useContext -underBinder +onlyGivenNames x2
  refine Keeps.ite (fun _ => ?_) (fun _ => ?_)
  · exact h
  · refine Keeps.ite (fun _ => ?_) (fun _ => ?_)
    · refine State.bump_keeps ?_ _
      exact h
    · refine Keeps.ite (fun _ => ?_) (fun _ => ?_)
      · refine State.chatterPost_keeps ?_ _ _
        refine State.setLine_keeps ?_ _ _
        refine State.bump_keeps ?_ _
        exact h
      · refine State.lineFail_keeps ?_ _ _ _ _
        refine State.setLine_keeps ?_ _ _
        exact h

theorem State.widthChecks_keeps {s0 s : State} (h : Keeps s0 s) (a_k : ℕ) (a_old : Option Sys2Proof.TimePoint) (a_time : Sys2Proof.TimePoint) :
    Keeps s0 (State.widthChecks s a_k a_old a_time) := by
  unfold State.widthChecks
  extract_lets -merge -useContext -underBinder +onlyGivenNames x0
  extract_lets -merge -useContext -underBinder +onlyGivenNames x1
  extract_lets -merge -useContext -underBinder +onlyGivenNames x2
  extract_lets -merge -useContext -underBinder +onlyGivenNames x3
  extract_lets -merge -useContext -underBinder +onlyGivenNames x4
  extract_lets -merge -useContext -underBinder +onlyGivenNames x5
  have h5 : Keeps s0 x5 := by
    unfold x5
    refine Keeps.ite (fun _ => ?_) (fun _ => ?_)
    · refine State.lineFail_keeps ?_ _ _ _ _
      refine State.setLine_keeps ?_ _ _
      exact h
    · refine State.qualClear_keeps ?_ _ _ _ _
      refine State.setLine_keeps ?_ _ _
      exact h
  extract_lets -merge -useContext -underBinder +onlyGivenNames x6
  extract_lets -merge -useContext -underBinder +onlyGivenNames x7
  have h7 : Keeps s0 x7 := by
    unfold x7
    refine State.qualClear_keeps ?_ _ _ _ _
    refine State.setLine_keeps ?_ _ _
    exact h5
  refine State.qualClear_keeps ?_ _ _ _ _
  refine State.setLine_keeps ?_ _ _
  exact h7

theorem State.cellEdge_keeps {s0 s : State} (h : Keeps s0 s) (a_k : ℕ) (a_rise : Bool) (a_time : Sys2Proof.TimePoint) (a_unc : ℕ) (a_q : BitVec 4) :
    Keeps s0 (State.cellEdge s a_k a_rise a_time a_unc a_q) := by
  unfold State.cellEdge
  extract_lets -merge -useContext -underBinder +onlyGivenNames x0
  refine State.setLine_keeps ?_ _ _
  exact h

theorem State.lineWake_keeps {s0 s : State} (h : Keeps s0 s) (a_k : ℕ) :
    Keeps s0 (State.lineWake s a_k) := by
  unfold State.lineWake
  refine Keeps.ite (fun _ => ?_) (fun _ => ?_)
  · refine State.tileWake_keeps ?_ _
    exact h
  · exact h

theorem State.liveEdge_keeps {s0 s : State} (h : Keeps s0 s) (a_k : ℕ) (a_rise : Bool) (a_time : Sys2Proof.TimePoint) (a_unc : ℕ) (a_q : BitVec 4) :
    Keeps s0 (State.liveEdge s a_k a_rise a_time a_unc a_q) := by
  unfold State.liveEdge
  extract_lets -merge -useContext -underBinder +onlyGivenNames x0
  extract_lets -merge -useContext -underBinder +onlyGivenNames x1
  have h1 : Keeps s0 x1 := by
    unfold x1
    refine State.lineWake_keeps ?_ _
    refine State.widthChecks_keeps ?_ _ _ _
    refine State.rateCheck_keeps ?_ _
    refine State.cellEdge_keeps ?_ _ _ _ _ _
    exact h
  refine Keeps.ite (fun _ => ?_) (fun _ => ?_)
  · exact h1
  · refine State.deliverEdge_keeps ?_ _ _ _ _ _
    exact h1

theorem State.asleepEdge_keeps {s0 s : State} (h : Keeps s0 s) (a_k : ℕ) (a_rise : Bool) (a_time : Sys2Proof.TimePoint) (a_unc : ℕ) (a_q : BitVec 4) :
    Keeps s0 (State.asleepEdge s a_k a_rise a_time a_unc a_q) := by
  unfold State.asleepEdge
  extract_lets -merge -useContext -underBinder +onlyGivenNames x0
  have h0 : Keeps s0 x0 := by
    unfold x0
    refine State.cellEdge_keeps ?_ _ _ _ _ _
    exact h
  refine Keeps.ite (fun _ => ?_) (fun _ => ?_)
  · exact h0
  · extract_lets -merge -useContext -underBinder +onlyGivenNames x1
    extract_lets -merge -useContext -underBinder +onlyGivenNames x2
    have h2 : Keeps s0 x2 := by
      unfold x2
      refine State.setLine_keeps ?_ _ _
      exact h0
    refine Keeps.ite (fun _ => ?_) (fun _ => ?_)
    · refine State.stampEdge_keeps ?_ _ _ _ _ _
      exact h2
    · exact h2

theorem State.qualifyEdge_keeps {s0 s : State} (h : Keeps s0 s) (a_k : ℕ) (a_rise : Bool) (a_time : Sys2Proof.TimePoint) (a_unc : ℕ) (a_q : BitVec 4) :
    Keeps s0 (State.qualifyEdge s a_k a_rise a_time a_unc a_q) := by
  unfold State.qualifyEdge
  refine Keeps.ite (fun _ => ?_) (fun _ => ?_)
  · refine State.liveEdge_keeps ?_ _ _ _ _ _
    exact h
  · refine State.asleepEdge_keeps ?_ _ _ _ _ _
    exact h

theorem State.filterEnds_keeps {s0 s : State} (h : Keeps s0 s) (a_k : ℕ) (a_f : Sys2Proof.Machine.FiltSt) :
    Keeps s0 (State.filterEnds s a_k a_f) := by
  unfold State.filterEnds
  extract_lets -merge -useContext -underBinder +onlyGivenNames x0
  extract_lets -merge -useContext -underBinder +onlyGivenNames x1
  have h1 : Keeps s0 x1 := by
    unfold x1
    refine State.setLine_keeps ?_ _ _
    exact h
  refine Keeps.ite (fun _ => ?_) (fun _ => ?_)
  · refine State.setLine_keeps ?_ _ _
    exact h1
  · refine State.qualifyEdge_keeps ?_ _ _ _ _ _
    exact h1

theorem State.rawChange_keeps {s0 s : State} (h : Keeps s0 s) (a_k : ℕ) (a_ns : ℕ) :
    Keeps s0 (State.rawChange s a_k a_ns) := by
  unfold State.rawChange
  extract_lets -merge -useContext -underBinder +onlyGivenNames x0
  refine State.readbackTrack_keeps ?_ _
  refine State.setLine_keeps ?_ _ _
  exact h

theorem State.glitch_keeps {s0 s : State} (h : Keeps s0 s) (a_k : ℕ) (a_t : ℕ) (a_f : Sys2Proof.Machine.FiltSt) :
    Keeps s0 (State.glitch s a_k a_t a_f) := by
  unfold State.glitch
  extract_lets -merge -useContext -underBinder +onlyGivenNames x0
  extract_lets -merge -useContext -underBinder +onlyGivenNames x1
  have h1 : Keeps s0 x1 := by
    unfold x1
    refine State.setLine_keeps ?_ _ _
    exact h
  refine Keeps.ite (fun _ => ?_) (fun _ => ?_)
  · refine State.raise_keeps ?_ _ _
    refine State.qualFail_keeps ?_ _ _ _ _ _
    exact h1
  · exact h1

theorem State.filterStart_keeps {s0 s : State} (h : Keeps s0 s) (a_k : ℕ) (a_d : ℕ) :
    Keeps s0 (State.filterStart s a_k a_d) := by
  unfold State.filterStart
  extract_lets -merge -useContext -underBinder +onlyGivenNames x0
  refine State.setLine_keeps ?_ _ _
  exact h

theorem execLineTransition_keeps {s0 s : State} (h : Keeps s0 s) (a_k : Fin 256) (a_d : Fin 40) :
    Answers s0 (execLineTransition a_k a_d s) := by
  refine ⟨_, rfl, ?_⟩
  extract_lets -merge -useContext -underBinder +onlyGivenNames x0
  extract_lets -merge -useContext -underBinder +onlyGivenNames x1
  extract_lets -merge -useContext -underBinder +onlyGivenNames x2
  have h2 : Keeps s0 x2 := by
    unfold x2
    refine State.rawChange_keeps ?_ _ _
    exact h
  refine Keeps.ite (fun _ => ?_) (fun _ => ?_)
  · refine State.setLine_keeps ?_ _ _
    exact h2
  · split
    · refine Keeps.ite (fun _ => ?_) (fun _ => ?_)
      · refine State.filterStart_keeps ?_ _ _
        refine State.filterEnds_keeps ?_ _ _
        exact h2
      · refine State.glitch_keeps ?_ _ _ _
        exact h2
    · refine State.filterStart_keeps ?_ _ _
      exact h2

theorem execEdgeQualified_keeps {s0 s : State} (h : Keeps s0 s) (a_k : Fin 256) :
    Answers s0 (execEdgeQualified a_k s) := by
  refine ⟨_, rfl, ?_⟩
  split
  · refine Keeps.ite (fun _ => ?_) (fun _ => ?_)
    · refine State.filterEnds_keeps ?_ _ _
      exact h
    · exact h
  · exact h

theorem State.dormantStamp_keeps {s0 s : State} (h : Keeps s0 s) (a_k : ℕ) :
    Keeps s0 (State.dormantStamp s a_k) := by
  unfold State.dormantStamp
  split
  · refine State.asleepEdge_keeps ?_ _ _ _ _ _
    refine State.setLine_keeps ?_ _ _
    exact h
  · exact h

theorem State.dormantStamps_keeps {s0 s : State} (h : Keeps s0 s)  :
    Keeps s0 (State.dormantStamps s) := by
  unfold State.dormantStamps
  refine Keeps.foldl ?_ (fun y0 a0 h0 => ?_)
  · exact h
  · refine State.dormantStamp_keeps ?_ _
    exact h0

theorem execMaxWidthExpiry_keeps {s0 s : State} (h : Keeps s0 s) (a_k : Fin 256) :
    Answers s0 (execMaxWidthExpiry a_k s) := by
  refine ⟨_, rfl, ?_⟩
  extract_lets -merge -useContext -underBinder +onlyGivenNames x0
  extract_lets -merge -useContext -underBinder +onlyGivenNames x1
  extract_lets -merge -useContext -underBinder +onlyGivenNames x2
  refine Keeps.ite (fun _ => ?_) (fun _ => ?_)
  · refine State.lineFail_keeps ?_ _ _ _ _
    refine State.setLine_keeps ?_ _ _
    exact h
  · exact h

theorem execIdleExpiry_keeps {s0 s : State} (h : Keeps s0 s) (a_k : Fin 256) :
    Answers s0 (execIdleExpiry a_k s) := by
  refine ⟨_, rfl, ?_⟩
  extract_lets -merge -useContext -underBinder +onlyGivenNames x0
  extract_lets -merge -useContext -underBinder +onlyGivenNames x1
  extract_lets -merge -useContext -underBinder +onlyGivenNames x2
  refine Keeps.ite (fun _ => ?_) (fun _ => ?_)
  · refine State.lineFail_keeps ?_ _ _ _ _
    refine State.setLine_keeps ?_ _ _
    exact h
  · exact h

theorem State.blockEdge_keeps {s0 s : State} (h : Keeps s0 s) (a_k : ℕ) :
    Keeps s0 (State.blockEdge s a_k) := by
  unfold State.blockEdge
  extract_lets -merge -useContext -underBinder +onlyGivenNames x0
  refine Keeps.ite (fun _ => ?_) (fun _ => ?_)
  · exact h
  · split
    · refine State.deliverEdge_keeps ?_ _ _ _ _ _
      refine State.lineWake_keeps ?_ _
      exact h
    · exact h

theorem State.bucketEmpty_keeps {s0 s : State} (h : Keeps s0 s) (a_k : ℕ) :
    Keeps s0 (State.bucketEmpty s a_k) := by
  unfold State.bucketEmpty
  extract_lets -merge -useContext -underBinder +onlyGivenNames x0
  extract_lets -merge -useContext -underBinder +onlyGivenNames x1
  extract_lets -merge -useContext -underBinder +onlyGivenNames x2
  have h2 : Keeps s0 x2 := by
    unfold x2
    refine State.setLine_keeps ?_ _ _
    exact h
  refine Keeps.ite (fun _ => ?_) (fun _ => ?_)
  · refine State.setLine_keeps ?_ _ _
    exact h2
  · extract_lets -merge -useContext -underBinder +onlyGivenNames x3
    have h3 : Keeps s0 x3 := by
      unfold x3
      refine State.qualClear_keeps ?_ _ _ _ _
      exact h2
    refine Keeps.ite (fun _ => ?_) (fun _ => ?_)
    · refine State.chatterPost_keeps ?_ _ _
      refine State.blockEdge_keeps ?_ _
      exact h3
    · exact h3

theorem execLeakTick_keeps {s0 s : State} (h : Keeps s0 s) (a_k : Fin 256) :
    Answers s0 (execLeakTick a_k s) := by
  refine ⟨_, rfl, ?_⟩
  extract_lets -merge -useContext -underBinder +onlyGivenNames x0
  refine Keeps.ite (fun _ => ?_) (fun _ => ?_)
  · exact h
  · extract_lets -merge -useContext -underBinder +onlyGivenNames x1
    have h1 : Keeps s0 x1 := by
      unfold x1
      refine State.setLine_keeps ?_ _ _
      exact h
    refine Keeps.ite (fun _ => ?_) (fun _ => ?_)
    · refine State.bucketEmpty_keeps ?_ _
      exact h1
    · exact h1

theorem State.bankSee_keeps {s0 s : State} (h : Keeps s0 s) (a_t : ℕ) (a_v : Sys2Proof.BankLevel) :
    Keeps s0 (State.bankSee s a_t a_v) := by
  unfold State.bankSee
  refine State.setTile_keeps ?_ _ _
  exact h

theorem execVddioWindowChange_keeps {s0 s : State} (h : Keeps s0 s) (a_t : Fin 8) (a_v : Sys2Proof.BankLevel) :
    Answers s0 (execVddioWindowChange a_t a_v s) := by
  refine ⟨_, rfl, ?_⟩
  refine State.bankSee_keeps ?_ _ _
  exact h

theorem State.bankStands_keeps {s0 s : State} (h : Keeps s0 s) (a_t : ℕ) (a_b : Bool) :
    Keeps s0 (State.bankStands s a_t a_b) := by
  unfold State.bankStands
  extract_lets -merge -useContext -underBinder +onlyGivenNames x0
  refine State.setCheck_keeps ?_ _ _ _
  exact h

theorem execBankCheckFail_keeps {s0 s : State} (h : Keeps s0 s) (a_t : Fin 8) :
    Answers s0 (execBankCheckFail a_t s) := by
  refine ⟨_, rfl, ?_⟩
  extract_lets -merge -useContext -underBinder +onlyGivenNames x0
  refine Keeps.ite (fun _ => ?_) (fun _ => ?_)
  · exact h
  · extract_lets -merge -useContext -underBinder +onlyGivenNames x1
    have h1 : Keeps s0 x1 := by
      unfold x1
      refine State.setTile_keeps ?_ _ _
      exact h
    extract_lets -merge -useContext -underBinder +onlyGivenNames x2
    have h2 : Keeps s0 x2 := by
      unfold x2
      refine Keeps.foldl ?_ (fun y3 a3 h3 => ?_)
      · exact h1
      · refine State.setLine_keeps ?_ _ _
        exact h3
    refine Keeps.ite (fun _ => ?_) (fun _ => ?_)
    · refine State.leaseFault_keeps ?_ _
      refine State.qualFail_keeps ?_ _ _ _ _ _
      refine State.raise_keeps ?_ _ _
      exact h2
    · refine State.bankStands_keeps ?_ _ _
      exact h2

theorem State.bankEdge_keeps {s0 s : State} (h : Keeps s0 s) (a_k : ℕ) :
    Keeps s0 (State.bankEdge s a_k) := by
  unfold State.bankEdge
  extract_lets -merge -useContext -underBinder +onlyGivenNames x0
  extract_lets -merge -useContext -underBinder +onlyGivenNames x1
  have h1 : Keeps s0 x1 := by
    unfold x1
    refine State.setLine_keeps ?_ _ _
    exact h
  extract_lets -merge -useContext -underBinder +onlyGivenNames x2
  refine Keeps.ite (fun _ => ?_) (fun _ => ?_)
  · refine Keeps.ite (fun _ => ?_) (fun _ => ?_)
    · exact h1
    · refine State.setLine_keeps ?_ _ _
      exact h1
  · refine Keeps.ite (fun _ => ?_) (fun _ => ?_)
    · refine State.setLine_keeps ?_ _ _
      exact h1
    · refine State.qualifyEdge_keeps ?_ _ _ _ _ _
      exact h1

theorem execBankCheckClear_keeps {s0 s : State} (h : Keeps s0 s) (a_t : Fin 8) :
    Answers s0 (execBankCheckClear a_t s) := by
  refine ⟨_, rfl, ?_⟩
  extract_lets -merge -useContext -underBinder +onlyGivenNames x0
  refine Keeps.ite (fun _ => ?_) (fun _ => ?_)
  · exact h
  · extract_lets -merge -useContext -underBinder +onlyGivenNames x1
    have h1 : Keeps s0 x1 := by
      unfold x1
      refine State.setTile_keeps ?_ _ _
      exact h
    extract_lets -merge -useContext -underBinder +onlyGivenNames x2
    have h2 : Keeps s0 x2 := by
      unfold x2
      refine Keeps.ite (fun _ => ?_) (fun _ => ?_)
      · refine State.qualClear_keeps ?_ _ _ _ _
        refine State.raise_keeps ?_ _ _
        exact h1
      · refine State.bankStands_keeps ?_ _ _
        exact h1
    refine Keeps.foldl ?_ (fun y3 a3 h3 => ?_)
    · exact h2
    · refine State.bankEdge_keeps ?_ _
      exact h3

theorem State.bankCfgWrite_keeps {s0 s : State} (h : Keeps s0 s) (a_t : ℕ) (a_v : Sys2Proof.Word) :
    Keeps s0 (State.bankCfgWrite s a_t a_v) := by
  unfold State.bankCfgWrite
  extract_lets -merge -useContext -underBinder +onlyGivenNames x0
  have h0 : Keeps s0 x0 := by
    unfold x0
    refine State.wr_keeps ?_ _ _
    exact h
  refine Keeps.ite (fun _ => ?_) (fun _ => ?_)
  · refine State.bankSee_keeps ?_ _ _
    exact h0
  · exact h0

theorem State.safeAll_keeps {s0 s : State} (h : Keeps s0 s)  :
    Keeps s0 (State.safeAll s) := by
  unfold State.safeAll
  refine Keeps.foldl ?_ (fun y0 a0 h0 => ?_)
  · exact h
  · extract_lets -merge -useContext -underBinder +onlyGivenNames x1
    have h1 : Keeps s0 x1 := by
      unfold x1
      refine State.safeEnter_keeps ?_ _
      exact h0
    refine State.setLine_keeps ?_ _ _
    exact h1

theorem State.hubClear_keeps {s0 s : State} (h : Keeps s0 s) (wake : Bool) : Keeps s0 (s.hubClear wake) := by
  have h1 := State.safeAll_keeps h
  unfold State.hubClear
  generalize s.safeAll = s at h1 ⊢
  exact h1.trans ⟨rfl, OtpLe.refl _, fun i => ⟨i.ns, rfl, Tab.wf_filter i.regs, rfl⟩⟩

theorem State.noteReset_keeps {s0 s : State} (h : Keeps s0 s) (a_cause : ℕ) :
    Keeps s0 (State.noteReset s a_cause) := by
  unfold State.noteReset
  extract_lets -merge -useContext -underBinder +onlyGivenNames x0
  have h0 : Keeps s0 x0 := by
    unfold x0
    refine State.wr_keeps ?_ _ _
    refine State.wr_keeps ?_ _ _
    refine State.wr_keeps ?_ _ _
    exact h
  refine Keeps.ite (fun _ => ?_) (fun _ => ?_)
  · exact h0
  · refine State.bump_keeps ?_ _
    exact h0

theorem State.hubRelease_keeps {s0 s : State} (h : Keeps s0 s)  :
    Keeps s0 (State.hubRelease s) := by
  unfold State.hubRelease
  extract_lets -merge -useContext -underBinder +onlyGivenNames x0
  refine Keeps.mk_upd ?_ rfl
  exact h

theorem State.hubReset_keeps {s0 s : State} (h : Keeps s0 s) (a_cause : ℕ) :
    Keeps s0 (State.hubReset s a_cause) := by
  unfold State.hubReset
  extract_lets -merge -useContext -underBinder +onlyGivenNames x0
  have h0 : Keeps s0 x0 := by
    unfold x0
    refine State.hubRelease_keeps ?_ 
    refine State.hubClear_keeps ?_ _
    refine State.noteReset_keeps ?_ _
    exact h
  refine Keeps.mk_upd ?_ rfl
  exact h0

theorem State.hubHold_keeps {s0 s : State} (h : Keeps s0 s) (a_cause : ℕ) :
    Keeps s0 (State.hubHold s a_cause) := by
  unfold State.hubHold
  extract_lets -merge -useContext -underBinder +onlyGivenNames x0
  have h0 : Keeps s0 x0 := by
    unfold x0
    refine State.hubClear_keeps ?_ _
    refine State.noteReset_keeps ?_ _
    exact h
  refine Keeps.mk_upd ?_ rfl
  exact h0

theorem State.setDrl_keeps {s0 s : State} (h : Keeps s0 s) (a_n : ℕ) (a_f : Sys2Proof.Machine.DrillEnt → Sys2Proof.Machine.DrillEnt) :
    Keeps s0 (State.setDrl s a_n a_f) := by
  unfold State.setDrl
  refine Keeps.mk_upd ?_ rfl
  exact h

theorem State.drillLate_keeps {s0 s : State} (h : Keeps s0 s) (a_n : ℕ) (a_flags : ℕ) (a_missed : ℕ) (a_w : Sys2Proof.TimePoint) (a_t : Sys2Proof.TimePoint) :
    Keeps s0 (State.drillLate s a_n a_flags a_missed a_w a_t) := by
  unfold State.drillLate
  refine State.postAt_keeps ?_ _ _ _ _ _ _ _ _ _ _
  refine State.raise_keeps ?_ _ _
  exact h

theorem State.drillDone_keeps {s0 s : State} (h : Keeps s0 s) (a_n : ℕ) (a_flags : ℕ) (a_w : Sys2Proof.TimePoint) (a_t : Sys2Proof.TimePoint) :
    Keeps s0 (State.drillDone s a_n a_flags a_w a_t) := by
  unfold State.drillDone
  refine State.postAt_keeps ?_ _ _ _ _ _ _ _ _ _ _
  refine State.raise_keeps ?_ _ _
  exact h

theorem State.drillConsume_keeps {s0 s : State} (h : Keeps s0 s) (a_n : ℕ) (a_m : ℕ) :
    Keeps s0 (State.drillConsume s a_n a_m) := by
  unfold State.drillConsume
  refine State.setDrl_keeps ?_ _ _
  exact h

theorem State.drillJudge_keeps {s0 s : State} (h : Keeps s0 s) (a_n : ℕ) (a_now : Sys2Proof.TimePoint) (a_step : Bool) :
    Keeps s0 (State.drillJudge s a_n a_now a_step) := by
  unfold State.drillJudge
  extract_lets -merge -useContext -underBinder +onlyGivenNames x0
  extract_lets -merge -useContext -underBinder +onlyGivenNames x1
  extract_lets -merge -useContext -underBinder +onlyGivenNames x2
  extract_lets -merge -useContext -underBinder +onlyGivenNames x3
  have h3 : Keeps s0 x3 := by
    unfold x3
    refine State.drillLate_keeps ?_ _ _ _ _ _
    exact h
  extract_lets -merge -useContext -underBinder +onlyGivenNames x4
  have h4 : Keeps s0 x4 := by
    unfold x4
    refine State.drillConsume_keeps ?_ _ _
    refine State.bumpBy_keeps ?_ _ _
    exact h3
  extract_lets -merge -useContext -underBinder +onlyGivenNames x5
  have h5 : Keeps s0 x5 := by
    unfold x5
    refine Keeps.ite (fun _ => ?_) (fun _ => ?_)
    · refine State.setDrl_keeps ?_ _ _
      exact h4
    · exact h4
  extract_lets -merge -useContext -underBinder +onlyGivenNames x6
  extract_lets -merge -useContext -underBinder +onlyGivenNames x7
  have h7 : Keeps s0 x7 := by
    unfold x7
    refine Keeps.ite (fun _ => ?_) (fun _ => ?_)
    · exact h
    · refine Keeps.ite (fun _ => ?_) (fun _ => ?_)
      · refine State.drillDone_keeps ?_ _ _ _ _
        exact h5
      · exact h5
  refine State.setDrl_keeps ?_ _ _
  exact h7

theorem State.drillArm_keeps {s0 s : State} (h : Keeps s0 s) (a_n : ℕ) (a_now : Sys2Proof.TimePoint) :
    Keeps s0 (State.drillArm s a_n a_now) := by
  unfold State.drillArm
  refine State.drillJudge_keeps ?_ _ _ _
  refine State.setDrl_keeps ?_ _ _
  exact h

theorem State.drillRefused_keeps {s0 s : State} (h : Keeps s0 s)  :
    Keeps s0 (State.drillRefused s) := by
  unfold State.drillRefused
  refine State.raise_keeps ?_ _ _
  refine State.bump_keeps ?_ _
  exact h

theorem State.drillReflexArm_keeps {s0 s : State} (h : Keeps s0 s) (a_n : ℕ) (a_now : Sys2Proof.TimePoint) :
    Keeps s0 (State.drillReflexArm s a_n a_now) := by
  unfold State.drillReflexArm
  extract_lets -merge -useContext -underBinder +onlyGivenNames x0
  refine Keeps.ite (fun _ => ?_) (fun _ => ?_)
  · exact h
  · refine Keeps.ite (fun _ => ?_) (fun _ => ?_)
    · refine State.drillArm_keeps ?_ _ _
      exact h
    · refine State.drillRefused_keeps ?_ 
      exact h

theorem State.drillDisarm_keeps {s0 s : State} (h : Keeps s0 s) (a_n : ℕ) :
    Keeps s0 (State.drillDisarm s a_n) := by
  unfold State.drillDisarm
  refine State.setDrl_keeps ?_ _ _
  exact h

theorem State.drillStepCheck_keeps {s0 s : State} (h : Keeps s0 s)  :
    Keeps s0 (State.drillStepCheck s) := by
  unfold State.drillStepCheck
  refine Keeps.foldl ?_ (fun y0 a0 h0 => ?_)
  · exact h
  · refine Keeps.ite (fun _ => ?_) (fun _ => ?_)
    · refine State.drillJudge_keeps ?_ _ _ _
      refine State.setDrl_keeps ?_ _ _
      exact h0
    · exact h0

theorem State.drillEcc_keeps {s0 s : State} (h : Keeps s0 s) (a_n : ℕ) (a_ecc : Sys2Proof.ReadEcc) :
    Keeps s0 (State.drillEcc s a_n a_ecc) := by
  unfold State.drillEcc
  refine Keeps.ite (fun _ => ?_) (fun _ => ?_)
  · refine State.memEcc_keeps ?_ _ _ _
    exact h
  · refine State.memEcc_keeps ?_ _ _ _
    refine Keeps.mk_upd ?_ rfl
    exact h

theorem State.drlCommand_keeps {s0 s : State} (h : Keeps s0 s) (a_arg : BitVec 16) (a_f : ℕ → Sys2Proof.Machine.State → Sys2Proof.Machine.MbxAns × Sys2Proof.Machine.State) (Ha_f : ∀ z0 z1, Keeps s0 z1 → Keeps s0 (a_f z0 z1).2) :
    Keeps s0 (State.drlCommand s a_arg a_f) := by
  unfold State.drlCommand
  refine State.mbxCommand_keeps ?_ _ _ (fun y0 h0 => ?_)
  · exact h
  · refine Keeps.ite2 (fun _ => ?_) (fun _ => ?_)
    · refine Keeps.pair2 ?_
      exact h0
    · refine Ha_f _ _ ?_
      exact h0

theorem State.drlReading_keeps {s0 s : State} (h : Keeps s0 s) (a_arg : BitVec 16) (a_ecc : Sys2Proof.ReadEcc) (a_f : ℕ → Sys2Proof.Machine.State → Sys2Proof.Machine.MbxAns × Sys2Proof.Machine.State) (Ha_f : ∀ z0 z1, Keeps s0 z1 → Keeps s0 (a_f z0 z1).2) :
    Keeps s0 (State.drlReading s a_arg a_ecc a_f) := by
  unfold State.drlReading
  refine State.drlCommand_keeps ?_ _ _ (fun _ y0 h0 => ?_)
  · exact h
  · extract_lets -merge -useContext -underBinder +onlyGivenNames x1
    have h1 : Keeps s0 x1 := by
      unfold x1
      refine State.drillEcc_keeps ?_ _ _
      exact h0
    refine Keeps.ite2 (fun _ => ?_) (fun _ => ?_)
    · refine Ha_f _ _ ?_
      exact h1
    · refine Keeps.pair2 ?_
      exact h1

theorem execDrlLoadTime_keeps {s0 s : State} (h : Keeps s0 s) (a_arg : BitVec 16) :
    Answers s0 (execDrlLoadTime a_arg s) := by
  refine ⟨_, rfl, ?_⟩
  refine State.drlCommand_keeps ?_ _ _ (fun _ y0 h0 => ?_)
  · exact h
  · extract_lets -merge -useContext -underBinder +onlyGivenNames x1
    refine Keeps.ite2 (fun _ => ?_) (fun _ => ?_)
    · refine Keeps.pair2 ?_
      exact h0
    · refine Keeps.ite2 (fun _ => ?_) (fun _ => ?_)
      · refine Keeps.pair2 ?_
        exact h0
      · refine Keeps.pair2 ?_
        refine State.setDrl_keeps ?_ _ _
        exact h0

theorem execDrlLoadAction_keeps {s0 s : State} (h : Keeps s0 s) (a_arg : BitVec 16) :
    Answers s0 (execDrlLoadAction a_arg s) := by
  refine ⟨_, rfl, ?_⟩
  refine State.drlCommand_keeps ?_ _ _ (fun _ y0 h0 => ?_)
  · exact h
  · extract_lets -merge -useContext -underBinder +onlyGivenNames x1
    refine Keeps.ite2 (fun _ => ?_) (fun _ => ?_)
    · refine Keeps.pair2 ?_
      exact h0
    · refine Keeps.ite2 (fun _ => ?_) (fun _ => ?_)
      · refine Keeps.pair2 ?_
        exact h0
      · refine Keeps.pair2 ?_
        refine State.setDrl_keeps ?_ _ _
        exact h0

theorem execDrlArm_keeps {s0 s : State} (h : Keeps s0 s) (a_arg : BitVec 16) (a_ecc : Sys2Proof.ReadEcc) :
    Answers s0 (execDrlArm a_arg a_ecc s) := by
  refine ⟨_, rfl, ?_⟩
  refine State.drlReading_keeps ?_ _ _ _ (fun _ y0 h0 => ?_)
  · exact h
  · extract_lets -merge -useContext -underBinder +onlyGivenNames x1
    refine Keeps.ite2 (fun _ => ?_) (fun _ => ?_)
    · refine Keeps.pair2 ?_
      exact h0
    · refine Keeps.ite2 (fun _ => ?_) (fun _ => ?_)
      · refine Keeps.pair2 ?_
        exact h0
      · extract_lets -merge -useContext -underBinder +onlyGivenNames x2
        extract_lets -merge -useContext -underBinder +onlyGivenNames x3
        extract_lets -merge -useContext -underBinder +onlyGivenNames x4
        extract_lets -merge -useContext -underBinder +onlyGivenNames x5
        have h5 : Keeps s0 x5 := by
          unfold x5
          refine State.drillArm_keeps ?_ _ _
          exact h0
        refine Keeps.pair2 ?_
        exact h5

theorem execDrlDisarm_keeps {s0 s : State} (h : Keeps s0 s) (a_arg : BitVec 16) :
    Answers s0 (execDrlDisarm a_arg s) := by
  refine ⟨_, rfl, ?_⟩
  refine State.drlCommand_keeps ?_ _ _ (fun _ y0 h0 => ?_)
  · exact h
  · refine Keeps.pair2 ?_
    refine State.drillDisarm_keeps ?_ _
    exact h0

theorem execDrlReadTime_keeps {s0 s : State} (h : Keeps s0 s) (a_arg : BitVec 16) (a_ecc : Sys2Proof.ReadEcc) :
    Answers s0 (execDrlReadTime a_arg a_ecc s) := by
  refine ⟨_, rfl, ?_⟩
  refine State.drlReading_keeps ?_ _ _ _ (fun _ y0 h0 => ?_)
  · exact h
  · extract_lets -merge -useContext -underBinder +onlyGivenNames x1
    refine Keeps.pair2 ?_
    exact h0

theorem execDrlReadAction_keeps {s0 s : State} (h : Keeps s0 s) (a_arg : BitVec 16) (a_ecc : Sys2Proof.ReadEcc) :
    Answers s0 (execDrlReadAction a_arg a_ecc s) := by
  refine ⟨_, rfl, ?_⟩
  refine State.drlReading_keeps ?_ _ _ _ (fun _ y0 h0 => ?_)
  · exact h
  · extract_lets -merge -useContext -underBinder +onlyGivenNames x1
    refine Keeps.pair2 ?_
    exact h0

theorem execDrlReadState_keeps {s0 s : State} (h : Keeps s0 s) (a_arg : BitVec 16) (a_ecc : Sys2Proof.ReadEcc) :
    Answers s0 (execDrlReadState a_arg a_ecc s) := by
  refine ⟨_, rfl, ?_⟩
  refine State.drlReading_keeps ?_ _ _ _ (fun _ y0 h0 => ?_)
  · exact h
  · extract_lets -merge -useContext -underBinder +onlyGivenNames x1
    refine Keeps.pair2 ?_
    exact h0

theorem execDrlClear_keeps {s0 s : State} (h : Keeps s0 s) (a_arg : BitVec 16) :
    Answers s0 (execDrlClear a_arg s) := by
  refine ⟨_, rfl, ?_⟩
  refine State.drlCommand_keeps ?_ _ _ (fun _ y0 h0 => ?_)
  · exact h
  · refine Keeps.ite2 (fun _ => ?_) (fun _ => ?_)
    · refine Keeps.pair2 ?_
      exact h0
    · refine Keeps.pair2 ?_
      refine Keeps.mk_upd ?_ rfl
      exact h0

theorem State.drlSoftReset_keeps {s0 s : State} (h : Keeps s0 s)  :
    Keeps s0 (State.drlSoftReset s) := by
  unfold State.drlSoftReset
  refine Keeps.foldl ?_ (fun y0 a0 h0 => ?_)
  · refine Keeps.mk_upd ?_ rfl
    exact h
  · refine State.setDrl_keeps ?_ _ _
    refine State.drillDisarm_keeps ?_ _
    exact h0

theorem execDrillPrepare_keeps {s0 s : State} (h : Keeps s0 s) (a_n : Fin 4096) (a_ecc : Sys2Proof.ReadEcc) :
    Answers s0 (execDrillPrepare a_n a_ecc s) := by
  refine ⟨_, rfl, ?_⟩
  extract_lets -merge -useContext -underBinder +onlyGivenNames x0
  refine Keeps.ite (fun _ => ?_) (fun _ => ?_)
  · extract_lets -merge -useContext -underBinder +onlyGivenNames x1
    have h1 : Keeps s0 x1 := by
      unfold x1
      refine State.drillEcc_keeps ?_ _ _
      exact h
    refine Keeps.ite (fun _ => ?_) (fun _ => ?_)
    · refine Keeps.foldl ?_ (fun y2 a2 h2 => ?_)
      · refine State.setDrl_keeps ?_ _ _
        exact h1
      · refine Keeps.ite (fun _ => ?_) (fun _ => ?_)
        · refine State.tileWake_keeps ?_ _
          exact h2
        · exact h2
    · exact h1
  · exact h

theorem State.setNet_keeps {s0 s : State} (h : Keeps s0 s) (a_f : Sys2Proof.Machine.NetSt → Sys2Proof.Machine.NetSt) :
    Keeps s0 (State.setNet s a_f) := by
  unfold State.setNet
  refine Keeps.mk_upd ?_ rfl
  exact h

theorem State.setQueue_keeps {s0 s : State} (h : Keeps s0 s) (a_port : ℕ) (a_cls : ℕ) (a_q : List Sys2Proof.Machine.QFrame) :
    Keeps s0 (State.setQueue s a_port a_cls a_q) := by
  unfold State.setQueue
  refine State.setNet_keeps ?_ _
  exact h

theorem State.setSending_keeps {s0 s : State} (h : Keeps s0 s) (a_port : ℕ) (a_x : Sys2Proof.Machine.Sending) :
    Keeps s0 (State.setSending s a_port a_x) := by
  unfold State.setSending
  refine State.setNet_keeps ?_ _
  exact h

theorem State.spillCheck_keeps {s0 s : State} (h : Keeps s0 s)  :
    Keeps s0 (State.spillCheck s) := by
  unfold State.spillCheck
  extract_lets -merge -useContext -underBinder +onlyGivenNames x0
  refine Keeps.ite (fun _ => ?_) (fun _ => ?_)
  · refine Keeps.ite (fun _ => ?_) (fun _ => ?_)
    · extract_lets -merge -useContext -underBinder +onlyGivenNames x1
      have h1 : Keeps s0 x1 := by
        unfold x1
        refine State.setNet_keeps ?_ _
        exact h
      refine State.post_keeps ?_ _ _ _ _ _ _ _ _
      refine State.raise_keeps ?_ _ _
      exact h1
    · exact h
  · refine Keeps.ite (fun _ => ?_) (fun _ => ?_)
    · extract_lets -merge -useContext -underBinder +onlyGivenNames x2
      have h2 : Keeps s0 x2 := by
        unfold x2
        refine State.setNet_keeps ?_ _
        exact h
      refine State.post_keeps ?_ _ _ _ _ _ _ _ _
      refine State.raise_keeps ?_ _ _
      exact h2
    · exact h

theorem State.pushPost_keeps {s0 s : State} (h : Keeps s0 s) (a_port : ℕ) :
    Keeps s0 (State.pushPost s a_port) := by
  unfold State.pushPost
  extract_lets -merge -useContext -underBinder +onlyGivenNames x0
  extract_lets -merge -useContext -underBinder +onlyGivenNames x1
  have h1 : Keeps s0 x1 := by
    unfold x1
    refine State.setNet_keeps ?_ _
    exact h
  refine State.postAt_keeps ?_ _ _ _ _ _ _ _ _ _ _
  refine State.raise_keeps ?_ _ _
  exact h1

theorem State.notePush_keeps {s0 s : State} (h : Keeps s0 s) (a_port : ℕ) (a_evicted : ℕ) (a_dropped : ℕ) (a_lastOut : ℕ) (a_lastIn : ℕ) :
    Keeps s0 (State.notePush s a_port a_evicted a_dropped a_lastOut a_lastIn) := by
  unfold State.notePush
  refine Keeps.ite (fun _ => ?_) (fun _ => ?_)
  · exact h
  · extract_lets -merge -useContext -underBinder +onlyGivenNames x0
    extract_lets -merge -useContext -underBinder +onlyGivenNames x1
    extract_lets -merge -useContext -underBinder +onlyGivenNames x2
    extract_lets -merge -useContext -underBinder +onlyGivenNames x3
    have h3 : Keeps s0 x3 := by
      unfold x3
      refine State.setNet_keeps ?_ _
      exact h
    refine Keeps.ite (fun _ => ?_) (fun _ => ?_)
    · exact h3
    · refine State.pushPost_keeps ?_ _
      exact h3

theorem State.evictOne_keeps {s0 s t : State} (h : Keeps s0 s) (port lim c : Nat) (e : s.evictOne port lim = some (c, t)) : Keeps s0 t := by
  unfold State.evictOne at e
  obtain ⟨x, -, hx⟩ := Option.map_eq_some_iff.mp e
  injection hx with _ hx
  subst hx
  exact State.bump_keeps (State.setQueue_keeps h _ _ _) _
theorem State.evictWhile_keeps {s0 s : State} (h : Keeps s0 s) (port lim : Nat) (more : State → Bool) (n : Nat) :
    Keeps s0 (s.evictWhile port lim more n).2.2 := by
  induction n generalizing s with
  | zero => exact h
  | succ n ih =>
    unfold State.evictWhile
    split
    · split
      · exact h
      · exact ih (State.evictOne_keeps h _ _ _ ‹_›)
    · exact h

theorem State.pushForShare_keeps {s0 s : State} (h : Keeps s0 s) (a_port : ℕ) (a_cls : ℕ) (a_k : ℕ) :
    Keeps s0 (State.pushForShare s a_port a_cls a_k).2 := by
  unfold State.pushForShare
  extract_lets -merge -useContext -underBinder +onlyGivenNames x0
  refine Keeps.ite2 (fun _ => ?_) (fun _ => ?_)
  · refine Keeps.pair2 ?_
    exact h
  · refine Keeps.ite2 (fun _ => ?_) (fun _ => ?_)
    · split
      · next y1_0 y1_1 y1_2 e1 =>
          have g1 : Keeps s0 y1_2 := by
            refine Keeps.of22 e1 ?_
            refine State.evictWhile_keeps ?_ _ _ _ _
            exact h
          refine Keeps.pair2 ?_
          refine State.notePush_keeps ?_ _ _ _ _ _
          exact g1
    · refine Keeps.pair2 ?_
      exact h

theorem State.pushForCells_keeps {s0 s : State} (h : Keeps s0 s) (a_port : ℕ) (a_cls : ℕ) (a_k : ℕ) :
    Keeps s0 (State.pushForCells s a_port a_cls a_k) := by
  unfold State.pushForCells
  refine Keeps.ite (fun _ => ?_) (fun _ => ?_)
  · exact h
  · refine Keeps.foldl ?_ (fun y0 a0 h0 => ?_)
    · exact h
    · split
      · next y1_0 y1_1 y1_2 e1 =>
          have g1 : Keeps s0 y1_2 := by
            refine Keeps.of22 e1 ?_
            refine State.evictWhile_keeps ?_ _ _ _ _
            exact h0
          refine State.notePush_keeps ?_ _ _ _ _ _
          exact g1

theorem State.dropFrame_keeps {s0 s : State} (h : Keeps s0 s) (a_port : ℕ) (a_cls : ℕ) (a_counter : ℕ) :
    Keeps s0 (State.dropFrame s a_port a_cls a_counter) := by
  unfold State.dropFrame
  refine State.notePush_keeps ?_ _ _ _ _ _
  refine State.bump_keeps ?_ _
  exact h

theorem State.enqueue_keeps {s0 s : State} (h : Keeps s0 s) (a_port : ℕ) (a_f : Sys2Proof.Machine.QFrame) :
    Keeps s0 (State.enqueue s a_port a_f) := by
  unfold State.enqueue
  extract_lets -merge -useContext -underBinder +onlyGivenNames x0
  extract_lets -merge -useContext -underBinder +onlyGivenNames x1
  refine State.spillCheck_keeps ?_ 
  refine State.setQueue_keeps ?_ _ _ _
  exact h

theorem State.admitAs_keeps {s0 s : State} (h : Keeps s0 s) (a_port : ℕ) (a_f : Sys2Proof.Machine.QFrame) :
    Keeps s0 (State.admitAs s a_port a_f).2 := by
  unfold State.admitAs
  extract_lets -merge -useContext -underBinder +onlyGivenNames x0
  refine Keeps.ite2 (fun _ => ?_) (fun _ => ?_)
  · refine Keeps.pair2 ?_
    refine State.bump_keeps ?_ _
    exact h
  · refine Keeps.ite2 (fun _ => ?_) (fun _ => ?_)
    · refine Keeps.pair2 ?_
      refine State.dropFrame_keeps ?_ _ _ _
      exact h
    · split
      · next y1_0 y1_1 e1 =>
          have g1 : Keeps s0 y1_1 := by
            refine Keeps.of2 e1 ?_
            refine State.pushForShare_keeps ?_ _ _ _
            exact h
          refine Keeps.ite2 (fun _ => ?_) (fun _ => ?_)
          · refine Keeps.pair2 ?_
            refine State.dropFrame_keeps ?_ _ _ _
            exact g1
          · extract_lets -merge -useContext -underBinder +onlyGivenNames x2
            have h2 : Keeps s0 x2 := by
              unfold x2
              refine Keeps.ite (fun _ => ?_) (fun _ => ?_)
              · refine State.pushForCells_keeps ?_ _ _ _
                exact g1
              · exact g1
            refine Keeps.ite2 (fun _ => ?_) (fun _ => ?_)
            · refine Keeps.pair2 ?_
              refine State.dropFrame_keeps ?_ _ _ _
              exact h2
            · refine Keeps.pair2 ?_
              refine State.enqueue_keeps ?_ _ _
              exact h2

theorem State.takeFrame_keeps {s0 s : State} (h : Keeps s0 s) (a_port : ℕ) (a_f : Sys2Proof.Machine.QFrame) :
    Keeps s0 (State.takeFrame s a_port a_f) := by
  unfold State.takeFrame
  refine State.admitAs_keeps ?_ _ _
  exact h

theorem State.takeSeq_keeps {s0 s : State} (h : Keeps s0 s) (a_cls : ℕ) :
    Keeps s0 (State.takeSeq s a_cls).2 := by
  unfold State.takeSeq
  extract_lets -merge -useContext -underBinder +onlyGivenNames x0
  refine Keeps.pair2 ?_
  refine State.setNet_keeps ?_ _
  exact h

theorem State.mirCopy_keeps {s0 s : State} (h : Keeps s0 s) (a_i : ℕ) (a_f : Sys2Proof.Machine.QFrame) :
    Keeps s0 (State.mirCopy s a_i a_f).2 := by
  unfold State.mirCopy
  extract_lets -merge -useContext -underBinder +onlyGivenNames x0
  extract_lets -merge -useContext -underBinder +onlyGivenNames x1
  refine Keeps.ite2 (fun _ => ?_) (fun _ => ?_)
  · extract_lets -merge -useContext -underBinder +onlyGivenNames x2
    refine Keeps.ite2 (fun _ => ?_) (fun _ => ?_)
    · refine Keeps.pair2 ?_
      exact h
    · extract_lets -merge -useContext -underBinder +onlyGivenNames x3
      have h3 : Keeps s0 x3 := by
        unfold x3
        refine Keeps.ite (fun _ => ?_) (fun _ => ?_)
        · refine State.bump_keeps ?_ _
          exact h
        · exact h
      split
      · next y4_0 y4_1 e4 =>
          have g4 : Keeps s0 y4_1 := by
            refine Keeps.of2 e4 ?_
            refine State.takeSeq_keeps ?_ _
            exact h3
          extract_lets -merge -useContext -underBinder +onlyGivenNames x5
          refine Keeps.pair2 ?_
          exact g4
  · refine Keeps.pair2 ?_
    exact h

theorem State.mirror_keeps {s0 s : State} (h : Keeps s0 s) (a_port : ℕ) (a_rx : Bool) (a_f : Sys2Proof.Machine.QFrame) :
    Keeps s0 (State.mirror s a_port a_rx a_f) := by
  unfold State.mirror
  refine Keeps.foldl ?_ (fun y0 a0 h0 => ?_)
  · exact h
  · refine Keeps.ite (fun _ => ?_) (fun _ => ?_)
    · split
      · next y1_0 y1_1 e1 =>
          have g1 : Keeps s0 y1_1 := by
            refine Keeps.of2 e1 ?_
            refine State.mirCopy_keeps ?_ _ _
            exact h0
          refine State.setNet_keeps ?_ _
          exact g1
    · exact h0

theorem State.mirrorDrop_keeps {s0 s : State} (h : Keeps s0 s) (a_i : ℕ) (a_reason : ℕ) :
    Keeps s0 (State.mirrorDrop s a_i a_reason) := by
  unfold State.mirrorDrop
  refine State.gather_keeps ?_ _ _
  refine State.raise_keeps ?_ _ _
  refine State.bump_keeps ?_ _
  exact h

theorem State.mirrorIn_keeps {s0 s : State} (h : Keeps s0 s) (a_type : ℕ) (a_ingress : ℕ) (a_f : Sys2Proof.Machine.QFrame) :
    Keeps s0 (State.mirrorIn s a_type a_ingress a_f) := by
  unfold State.mirrorIn
  refine Keeps.ite (fun _ => ?_) (fun _ => ?_)
  · exact h
  · refine State.mirror_keeps ?_ _ _ _
    exact h

theorem State.originateTwo_keeps {s0 s : State} (h : Keeps s0 s) (a_side : ℕ) (a_cls : ℕ) (a_type : ℕ) (a_dst : ℕ) (a_group : Bool) (a_body : ℕ → List Sys2Proof.Byte) (a_ingress : ℕ) :
    Keeps s0 (State.originateTwo s a_side a_cls a_type a_dst a_group a_body a_ingress) := by
  unfold State.originateTwo
  refine Keeps.ite (fun _ => ?_) (fun _ => ?_)
  · exact h
  · split
    · next y0_0 y0_1 e0 =>
        have g0 : Keeps s0 y0_1 := by
          refine Keeps.of2 e0 ?_
          refine State.takeSeq_keeps ?_ _
          exact h
        extract_lets -merge -useContext -underBinder +onlyGivenNames x1
        extract_lets -merge -useContext -underBinder +onlyGivenNames x2
        refine State.takeFrame_keeps ?_ _ _
        refine State.takeFrame_keeps ?_ _ _
        refine State.mirrorIn_keeps ?_ _ _ _
        exact g0

theorem State.originateOn_keeps {s0 s : State} (h : Keeps s0 s) (a_side : ℕ) (a_cls : ℕ) (a_type : ℕ) (a_dst : ℕ) (a_group : Bool) (a_body : List Sys2Proof.Byte) (a_ingress : ℕ) :
    Keeps s0 (State.originateOn s a_side a_cls a_type a_dst a_group a_body a_ingress) := by
  unfold State.originateOn
  refine State.originateTwo_keeps ?_ _ _ _ _ _ _ _
  exact h

theorem State.originate_keeps {s0 s : State} (h : Keeps s0 s) (a_cls : ℕ) (a_type : ℕ) (a_dst : ℕ) (a_group : Bool) (a_body : List Sys2Proof.Byte) (a_ingress : ℕ) :
    Keeps s0 (State.originate s a_cls a_type a_dst a_group a_body a_ingress) := by
  unfold State.originate
  refine State.originateOn_keeps ?_ _ _ _ _ _ _ _
  exact h

theorem State.sendLinkLocal_keeps {s0 s : State} (h : Keeps s0 s) (a_port : ℕ) (a_type : ℕ) (a_body : List Sys2Proof.Byte) :
    Keeps s0 (State.sendLinkLocal s a_port a_type a_body) := by
  unfold State.sendLinkLocal
  extract_lets -merge -useContext -underBinder +onlyGivenNames x0
  refine Keeps.ite (fun _ => ?_) (fun _ => ?_)
  · exact h
  · extract_lets -merge -useContext -underBinder +onlyGivenNames x1
    extract_lets -merge -useContext -underBinder +onlyGivenNames x2
    extract_lets -merge -useContext -underBinder +onlyGivenNames x3
    refine State.takeFrame_keeps ?_ _ _
    refine State.mirrorIn_keeps ?_ _ _ _
    exact h

theorem State.giveEther_keeps {s0 s : State} (h : Keeps s0 s) (a_port : ℕ) (a_d : Sys2Proof.Machine.Delivered) :
    Keeps s0 (State.giveEther s a_port a_d) := by
  unfold State.giveEther
  refine State.setNet_keeps ?_ _
  exact h

theorem State.handOver_keeps {s0 s : State} (h : Keeps s0 s) (a_port : ℕ) (a_f : Sys2Proof.Machine.QFrame) :
    Keeps s0 (State.handOver s a_port a_f) := by
  unfold State.handOver
  extract_lets -merge -useContext -underBinder +onlyGivenNames x0
  refine Keeps.ite (fun _ => ?_) (fun _ => ?_)
  · refine State.giveEther_keeps ?_ _ _
    exact h
  · refine Keeps.ite (fun _ => ?_) (fun _ => ?_)
    · split
      · refine State.giveEther_keeps ?_ _ _
        exact h
      · exact h
    · refine State.setNet_keeps ?_ _
      exact h

theorem State.setSub_keeps {s0 s : State} (h : Keeps s0 s) (a_n : ℕ) (a_f : Sys2Proof.Machine.SubEnt → Sys2Proof.Machine.SubEnt) :
    Keeps s0 (State.setSub s a_n a_f) := by
  unfold State.setSub
  refine Keeps.mk_upd ?_ rfl
  exact h

theorem State.setSigOp_keeps {s0 s : State} (h : Keeps s0 s) (a_o : ℕ) (a_b : Bool) (a_t : Sys2Proof.TimePoint) :
    Keeps s0 (State.setSigOp s a_o a_b a_t) := by
  unfold State.setSigOp
  refine Keeps.ite (fun _ => ?_) (fun _ => ?_)
  · exact h
  · refine State.operandChanged_keeps ?_ _ _
    refine Keeps.mk_upd ?_ rfl
    exact h

theorem State.subDrive_keeps {s0 s : State} (h : Keeps s0 s) (a_n : ℕ) (a_t : Sys2Proof.TimePoint) :
    Keeps s0 (State.subDrive s a_n a_t) := by
  unfold State.subDrive
  extract_lets -merge -useContext -underBinder +onlyGivenNames x0
  extract_lets -merge -useContext -underBinder +onlyGivenNames x1
  extract_lets -merge -useContext -underBinder +onlyGivenNames x2
  have h2 : Keeps s0 x2 := by
    unfold x2
    refine State.setSub_keeps ?_ _ _
    exact h
  split
  · refine State.setSigOp_keeps ?_ _ _ _
    exact h2
  · refine State.setSigOp_keeps ?_ _ _ _
    refine State.setSigOp_keeps ?_ _ _ _
    exact h2
  · exact h2

theorem State.subStale_keeps {s0 s : State} (h : Keeps s0 s) (a_n : ℕ) :
    Keeps s0 (State.subStale s a_n) := by
  unfold State.subStale
  refine State.subDrive_keeps ?_ _ _
  refine State.bump_keeps ?_ _
  refine State.setSub_keeps ?_ _ _
  exact h

theorem State.subApply_keeps {s0 s : State} (h : Keeps s0 s) (a_n : ℕ) (a_r : Sys2Proof.Machine.SigRec) :
    Keeps s0 (State.subApply s a_n a_r) := by
  unfold State.subApply
  extract_lets -merge -useContext -underBinder +onlyGivenNames x0
  extract_lets -merge -useContext -underBinder +onlyGivenNames x1
  extract_lets -merge -useContext -underBinder +onlyGivenNames x2
  have h2 : Keeps s0 x2 := by
    unfold x2
    refine Keeps.ite (fun _ => ?_) (fun _ => ?_)
    · refine State.raise_keeps ?_ _ _
      exact h
    · exact h
  extract_lets -merge -useContext -underBinder +onlyGivenNames x3
  have h3 : Keeps s0 x3 := by
    unfold x3
    refine State.setSub_keeps ?_ _ _
    exact h2
  extract_lets -merge -useContext -underBinder +onlyGivenNames x4
  have h4 : Keeps s0 x4 := by
    unfold x4
    refine State.bump_keeps ?_ _
    exact h3
  extract_lets -merge -useContext -underBinder +onlyGivenNames x5
  have h5 : Keeps s0 x5 := by
    unfold x5
    refine Keeps.ite (fun _ => ?_) (fun _ => ?_)
    · refine State.post_keeps ?_ _ _ _ _ _ _ _ _
      refine State.raise_keeps ?_ _ _
      exact h4
    · exact h4
  refine State.winSignal_keeps ?_ _ _ _ _
  refine State.subDrive_keeps ?_ _ _
  exact h5

theorem State.dyingRecord_keeps {s0 s : State} (h : Keeps s0 s) (a_node : ℕ) (a_r : Sys2Proof.Machine.SigRec) :
    Keeps s0 (State.dyingRecord s a_node a_r) := by
  unfold State.dyingRecord
  extract_lets -merge -useContext -underBinder +onlyGivenNames x0
  extract_lets -merge -useContext -underBinder +onlyGivenNames x1
  extract_lets -merge -useContext -underBinder +onlyGivenNames x2
  have h2 : Keeps s0 x2 := by
    unfold x2
    refine Keeps.foldl ?_ (fun y3 a3 h3 => ?_)
    · exact h
    · refine State.subStale_keeps ?_ _
      exact h3
  refine Keeps.ite (fun _ => ?_) (fun _ => ?_)
  · refine State.post_keeps ?_ _ _ _ _ _ _ _ _
    refine State.raise_keeps ?_ _ _
    exact h2
  · exact h2

theorem State.sigRecord_keeps {s0 s : State} (h : Keeps s0 s) (a_node : ℕ) (a_r : Sys2Proof.Machine.SigRec) :
    Keeps s0 (State.sigRecord s a_node a_r) := by
  unfold State.sigRecord
  extract_lets -merge -useContext -underBinder +onlyGivenNames x0
  have h0 : Keeps s0 x0 := by
    unfold x0
    refine Keeps.ite (fun _ => ?_) (fun _ => ?_)
    · refine State.dyingRecord_keeps ?_ _ _
      exact h
    · exact h
  split
  · refine State.bump_keeps ?_ _
    exact h0
  · extract_lets -merge -useContext -underBinder +onlyGivenNames x3
    refine Keeps.ite (fun _ => ?_) (fun _ => ?_)
    · refine State.qualFail_keeps ?_ _ _ _ _ _
      refine State.raise_keeps ?_ _ _
      exact h0
    · extract_lets -merge -useContext -underBinder +onlyGivenNames x4
      have h4 : Keeps s0 x4 := by
        unfold x4
        refine State.setSub_keeps ?_ _ _
        exact h0
      refine Keeps.ite (fun _ => ?_) (fun _ => ?_)
      · refine State.bump_keeps ?_ _
        exact h4
      · refine State.subApply_keeps ?_ _ _
        exact h4

theorem execSubscriptionStale_keeps {s0 s : State} (h : Keeps s0 s) (a_n : Fin 8192) :
    Answers s0 (execSubscriptionStale a_n s) := by
  refine ⟨_, rfl, ?_⟩
  extract_lets -merge -useContext -underBinder +onlyGivenNames x0
  extract_lets -merge -useContext -underBinder +onlyGivenNames x1
  refine Keeps.ite (fun _ => ?_) (fun _ => ?_)
  · extract_lets -merge -useContext -underBinder +onlyGivenNames x2
    have h2 : Keeps s0 x2 := by
      unfold x2
      refine State.subStale_keeps ?_ _
      exact h
    refine Keeps.ite (fun _ => ?_) (fun _ => ?_)
    · refine State.post_keeps ?_ _ _ _ _ _ _ _ _
      refine State.raise_keeps ?_ _ _
      exact h2
    · exact h2
  · exact h

theorem State.setPub_keeps {s0 s : State} (h : Keeps s0 s) (a_n : ℕ) (a_f : Sys2Proof.Machine.PubSlot → Sys2Proof.Machine.PubSlot) :
    Keeps s0 (State.setPub s a_n a_f) := by
  unfold State.setPub
  refine Keeps.mk_upd ?_ rfl
  exact h

theorem State.sigSend_keeps {s0 s : State} (h : Keeps s0 s) (a_cls : ℕ) (a_hb : Bool) (a_dest : Sys2Proof.Word) (a_slots : List ℕ) (a_counter : ℕ) :
    Keeps s0 (State.sigSend s a_cls a_hb a_dest a_slots a_counter) := by
  unfold State.sigSend
  extract_lets -merge -useContext -underBinder +onlyGivenNames x0
  extract_lets -merge -useContext -underBinder +onlyGivenNames x1
  extract_lets -merge -useContext -underBinder +onlyGivenNames x2
  refine Keeps.ite (fun _ => ?_) (fun _ => ?_)
  · extract_lets -merge -useContext -underBinder +onlyGivenNames x3
    have h3 : Keeps s0 x3 := by
      unfold x3
      refine Keeps.foldl ?_ (fun y4 a4 h4 => ?_)
      · exact h
      · refine State.setPub_keeps ?_ _ _
        exact h4
    extract_lets -merge -useContext -underBinder +onlyGivenNames x5
    extract_lets -merge -useContext -underBinder +onlyGivenNames x6
    have h6 : Keeps s0 x6 := by
      unfold x6
      refine State.bump_keeps ?_ _
      refine State.originate_keeps ?_ _ _ _ _ _ _
      exact h3
    extract_lets -merge -useContext -underBinder +onlyGivenNames x7
    refine Keeps.foldl ?_ (fun y8 a8 h8 => ?_)
    · exact h6
    · refine Keeps.ite (fun _ => ?_) (fun _ => ?_)
      · refine State.sigRecord_keeps ?_ _ _
        exact h8
      · exact h8
  · exact h

theorem State.sigChange_keeps {s0 s : State} (h : Keeps s0 s) (a_n : ℕ) :
    Keeps s0 (State.sigChange s a_n) := by
  unfold State.sigChange
  extract_lets -merge -useContext -underBinder +onlyGivenNames x0
  refine Keeps.ite (fun _ => ?_) (fun _ => ?_)
  · refine State.sigSend_keeps ?_ _ _ _ _ _
    exact h
  · exact h

theorem State.pubClose_keeps {s0 s : State} (h : Keeps s0 s) (a_o : Sys2Proof.Machine.PubOpen) :
    Keeps s0 (State.pubClose s a_o) := by
  unfold State.pubClose
  extract_lets -merge -useContext -underBinder +onlyGivenNames x0
  refine Keeps.ite (fun _ => ?_) (fun _ => ?_)
  · refine State.sigChange_keeps ?_ _
    exact h
  · refine State.setPub_keeps ?_ _ _
    exact h

theorem State.pubFlush_keeps {s0 s : State} (h : Keeps s0 s) (a_keep : Option ℕ) :
    Keeps s0 (State.pubFlush s a_keep) := by
  unfold State.pubFlush
  extract_lets -merge -useContext -underBinder +onlyGivenNames x0
  refine Keeps.ite (fun _ => ?_) (fun _ => ?_)
  · exact h
  · refine Keeps.foldl ?_ (fun y1 a1 h1 => ?_)
    · refine Keeps.mk_upd ?_ rfl
      exact h
    · refine State.pubClose_keeps ?_ _
      exact h1

theorem State.pubWrite_keeps {s0 s : State} (h : Keeps s0 s) (a_n : ℕ) (a_value : ℕ) (a_quality : ℕ) (a_t : Sys2Proof.TimePoint) (a_force : Bool) (a_cycle : ℕ) :
    Keeps s0 (State.pubWrite s a_n a_value a_quality a_t a_force a_cycle) := by
  unfold State.pubWrite
  extract_lets -merge -useContext -underBinder +onlyGivenNames x0
  have h0 : Keeps s0 x0 := by
    unfold x0
    refine State.pubFlush_keeps ?_ _
    exact h
  extract_lets -merge -useContext -underBinder +onlyGivenNames x1
  extract_lets -merge -useContext -underBinder +onlyGivenNames x2
  extract_lets -merge -useContext -underBinder +onlyGivenNames x3
  have h3 : Keeps s0 x3 := by
    unfold x3
    refine Keeps.mk_upd ?_ rfl
    exact h0
  refine State.setPub_keeps ?_ _ _
  exact h3

theorem State.pubAlone_keeps {s0 s : State} (h : Keeps s0 s) (a_n : ℕ) (a_value : ℕ) (a_quality : ℕ) (a_t : Sys2Proof.TimePoint) (a_force : Bool) :
    Keeps s0 (State.pubAlone s a_n a_value a_quality a_t a_force) := by
  unfold State.pubAlone
  refine State.pubFlush_keeps ?_ _
  refine State.pubWrite_keeps ?_ _ _ _ _ _ _
  refine State.pubFlush_keeps ?_ _
  exact h

theorem State.pubAction_keeps {s0 s : State} (h : Keeps s0 s) (a_n : ℕ) (a_value : ℕ) (a_t : Sys2Proof.TimePoint) (a_force : Bool) (a_cycle : ℕ) :
    Keeps s0 (State.pubAction s a_n a_value a_t a_force a_cycle) := by
  unfold State.pubAction
  refine Keeps.ite (fun _ => ?_) (fun _ => ?_)
  · exact h
  · refine State.pubWrite_keeps ?_ _ _ _ _ _ _
    exact h

theorem State.pubDying_keeps {s0 s : State} (h : Keeps s0 s) (a_v : ℕ) :
    Keeps s0 (State.pubDying s a_v) := by
  unfold State.pubDying
  refine State.pubAlone_keeps ?_ _ _ _ _ _
  exact h

theorem State.hbFrames_keeps {s0 s : State} (h : Keeps s0 s) (n : Nat) (l : List Nat) : Keeps s0 (s.hbFrames n l) := by
  induction n generalizing s l with
  | zero => exact h
  | succ n ih =>
    cases l with
    | nil => exact h
    | cons m l => exact ih (State.sigSend_keeps h _ _ _ _ _) _

theorem execHeartbeatScan_keeps {s0 s : State} (h : Keeps s0 s)  :
    Answers s0 (execHeartbeatScan s) := by
  refine ⟨_, rfl, ?_⟩
  refine Keeps.ite (fun _ => ?_) (fun _ => ?_)
  · extract_lets -merge -useContext -underBinder +onlyGivenNames x0
    have h0 : Keeps s0 x0 := by
      unfold x0
      refine State.pubFlush_keeps ?_ _
      exact h
    extract_lets -merge -useContext -underBinder +onlyGivenNames x1
    have h1 : Keeps s0 x1 := by
      unfold x1
      refine Keeps.mk_upd ?_ rfl
      exact h0
    extract_lets -merge -useContext -underBinder +onlyGivenNames x2
    refine State.hbFrames_keeps ?_ _ _
    exact h1
  · exact h

theorem execSignalFrameReceive_keeps {s0 s : State} (h : Keeps s0 s)  :
    Answers s0 (execSignalFrameReceive s) := by
  refine ⟨_, rfl, ?_⟩
  extract_lets -merge -useContext -underBinder +onlyGivenNames x0
  have h0 : Keeps s0 x0 := by
    unfold x0
    refine State.pubFlush_keeps ?_ _
    exact h
  split
  · exact h0
  · extract_lets -merge -useContext -underBinder +onlyGivenNames x3
    have h3 : Keeps s0 x3 := by
      unfold x3
      refine State.setNet_keeps ?_ _
      exact h0
    extract_lets -merge -useContext -underBinder +onlyGivenNames x4
    split
    · refine State.qualFail_keeps ?_ _ _ _ _ _
      refine State.raise_keeps ?_ _ _
      exact h3
    · refine Keeps.foldl ?_ (fun y7 a7 h7 => ?_)
      · exact h3
      · refine State.sigRecord_keeps ?_ _ _
        exact h7

theorem State.pubCommand_keeps {s0 s : State} (h : Keeps s0 s) (a_arg : BitVec 16) (a_f : ℕ → Sys2Proof.Machine.State → Sys2Proof.Machine.MbxAns × Sys2Proof.Machine.State) (Ha_f : ∀ z0 z1, Keeps s0 z1 → Keeps s0 (a_f z0 z1).2) :
    Keeps s0 (State.pubCommand s a_arg a_f) := by
  unfold State.pubCommand
  refine State.mbxCommand_keeps ?_ _ _ (fun y0 h0 => ?_)
  · exact h
  · refine Keeps.ite2 (fun _ => ?_) (fun _ => ?_)
    · refine Keeps.pair2 ?_
      exact h0
    · refine Ha_f _ _ ?_
      exact h0

theorem State.subCommand_keeps {s0 s : State} (h : Keeps s0 s) (a_arg : BitVec 16) (a_f : ℕ → Sys2Proof.Machine.State → Sys2Proof.Machine.MbxAns × Sys2Proof.Machine.State) (Ha_f : ∀ z0 z1, Keeps s0 z1 → Keeps s0 (a_f z0 z1).2) :
    Keeps s0 (State.subCommand s a_arg a_f) := by
  unfold State.subCommand
  refine State.mbxCommand_keeps ?_ _ _ (fun y0 h0 => ?_)
  · exact h
  · refine Keeps.ite2 (fun _ => ?_) (fun _ => ?_)
    · refine Keeps.pair2 ?_
      exact h0
    · refine Ha_f _ _ ?_
      exact h0

theorem execLoadPub_keeps {s0 s : State} (h : Keeps s0 s) (a_arg : BitVec 16) :
    Answers s0 (execLoadPub a_arg s) := by
  refine ⟨_, rfl, ?_⟩
  refine State.pubCommand_keeps ?_ _ _ (fun _ y0 h0 => ?_)
  · exact h
  · extract_lets -merge -useContext -underBinder +onlyGivenNames x1
    extract_lets -merge -useContext -underBinder +onlyGivenNames x2
    extract_lets -merge -useContext -underBinder +onlyGivenNames x3
    refine Keeps.ite2 (fun _ => ?_) (fun _ => ?_)
    · refine Keeps.pair2 ?_
      exact h0
    · refine Keeps.ite2 (fun _ => ?_) (fun _ => ?_)
      · refine Keeps.pair2 ?_
        exact h0
      · refine Keeps.pair2 ?_
        refine State.setPub_keeps ?_ _ _
        exact h0

theorem execSetValue_keeps {s0 s : State} (h : Keeps s0 s) (a_arg : BitVec 16) :
    Answers s0 (execSetValue a_arg s) := by
  refine ⟨_, rfl, ?_⟩
  refine State.pubCommand_keeps ?_ _ _ (fun _ y0 h0 => ?_)
  · exact h
  · extract_lets -merge -useContext -underBinder +onlyGivenNames x1
    extract_lets -merge -useContext -underBinder +onlyGivenNames x2
    refine Keeps.ite2 (fun _ => ?_) (fun _ => ?_)
    · refine Keeps.pair2 ?_
      exact h0
    · refine Keeps.ite2 (fun _ => ?_) (fun _ => ?_)
      · refine Keeps.pair2 ?_
        exact h0
      · refine Keeps.ite2 (fun _ => ?_) (fun _ => ?_)
        · refine Keeps.pair2 ?_
          exact h0
        · refine Keeps.pair2 ?_
          refine State.pubAlone_keeps ?_ _ _ _ _ _
          exact h0

theorem execReadPub_keeps {s0 s : State} (h : Keeps s0 s) (a_arg : BitVec 16) :
    Answers s0 (execReadPub a_arg s) := by
  refine ⟨_, rfl, ?_⟩
  refine State.pubCommand_keeps ?_ _ _ (fun _ y0 h0 => ?_)
  · exact h
  · refine Keeps.pair2 ?_
    exact h0

theorem execReadPubcfg_keeps {s0 s : State} (h : Keeps s0 s) (a_arg : BitVec 16) :
    Answers s0 (execReadPubcfg a_arg s) := by
  refine ⟨_, rfl, ?_⟩
  refine State.pubCommand_keeps ?_ _ _ (fun _ y0 h0 => ?_)
  · exact h
  · refine Keeps.pair2 ?_
    exact h0

theorem State.subRelease_keeps {s0 s : State} (h : Keeps s0 s) (a_n : ℕ) :
    Keeps s0 (State.subRelease s a_n) := by
  unfold State.subRelease
  refine Keeps.foldl ?_ (fun y0 a0 h0 => ?_)
  · exact h
  · refine State.setSigOp_keeps ?_ _ _ _
    exact h0

theorem execLoadSub_keeps {s0 s : State} (h : Keeps s0 s) (a_arg : BitVec 16) :
    Answers s0 (execLoadSub a_arg s) := by
  refine ⟨_, rfl, ?_⟩
  refine State.subCommand_keeps ?_ _ _ (fun _ y0 h0 => ?_)
  · exact h
  · extract_lets -merge -useContext -underBinder +onlyGivenNames x1
    extract_lets -merge -useContext -underBinder +onlyGivenNames x2
    refine Keeps.ite2 (fun _ => ?_) (fun _ => ?_)
    · refine Keeps.pair2 ?_
      exact h0
    · refine Keeps.ite2 (fun _ => ?_) (fun _ => ?_)
      · refine Keeps.pair2 ?_
        exact h0
      · refine Keeps.ite2 (fun _ => ?_) (fun _ => ?_)
        · refine Keeps.pair2 ?_
          exact h0
        · extract_lets -merge -useContext -underBinder +onlyGivenNames x3
          have h3 : Keeps s0 x3 := by
            unfold x3
            refine State.subRelease_keeps ?_ _
            exact h0
          extract_lets -merge -useContext -underBinder +onlyGivenNames x4
          have h4 : Keeps s0 x4 := by
            unfold x4
            refine State.setSub_keeps ?_ _ _
            exact h3
          refine Keeps.pair2 ?_
          refine Keeps.ite (fun _ => ?_) (fun _ => ?_)
          · refine State.subDrive_keeps ?_ _ _
            exact h4
          · exact h4

theorem execReadSub_keeps {s0 s : State} (h : Keeps s0 s) (a_arg : BitVec 16) :
    Answers s0 (execReadSub a_arg s) := by
  refine ⟨_, rfl, ?_⟩
  refine State.subCommand_keeps ?_ _ _ (fun _ y0 h0 => ?_)
  · exact h
  · extract_lets -merge -useContext -underBinder +onlyGivenNames x1
    extract_lets -merge -useContext -underBinder +onlyGivenNames x2
    have h2 : Keeps s0 x2 := by
      unfold x2
      refine State.wr_keeps ?_ _ _
      exact h0
    refine Keeps.pair2 ?_
    refine State.setSub_keeps ?_ _ _
    exact h2

theorem execReadSubcfg_keeps {s0 s : State} (h : Keeps s0 s) (a_arg : BitVec 16) :
    Answers s0 (execReadSubcfg a_arg s) := by
  refine ⟨_, rfl, ?_⟩
  refine State.subCommand_keeps ?_ _ _ (fun _ y0 h0 => ?_)
  · exact h
  · refine Keeps.pair2 ?_
    exact h0

theorem execClearSub_keeps {s0 s : State} (h : Keeps s0 s) (a_arg : BitVec 16) :
    Answers s0 (execClearSub a_arg s) := by
  refine ⟨_, rfl, ?_⟩
  refine State.subCommand_keeps ?_ _ _ (fun _ y0 h0 => ?_)
  · exact h
  · refine Keeps.pair2 ?_
    refine State.setSub_keeps ?_ _ _
    refine State.subRelease_keeps ?_ _
    exact h0

end Sys2Proof.Machine
end

