-- ==== Sys2Proof/Laws/KeepsNet.lean ====
section
/-! SUPPORT. What each operation and each command keeps: power, the switch and its links, the ring, PTP, serial and CAN channels. -/

namespace Sys2Proof.Machine

theorem State.setPwr_keeps {s0 s : State} (h : Keeps s0 s) (a_f : Sys2Proof.Machine.PwrSt → Sys2Proof.Machine.PwrSt) :
    Keeps s0 (State.setPwr s a_f) := by
  unfold State.setPwr
  refine Keeps.mk_upd ?_ rfl
  exact h

theorem State.powPost_keeps {s0 s : State} (h : Keeps s0 s) (a_irq : Option ℕ) (a_ty : ℕ) (a_page : ℕ) (a_flags : ℕ) (a_w4 : Sys2Proof.Word) (a_w5 : Sys2Proof.Word) (a_w6 : Sys2Proof.Word) (a_w7 : Sys2Proof.Word) :
    Keeps s0 (State.powPost s a_irq a_ty a_page a_flags a_w4 a_w5 a_w6 a_w7) := by
  unfold State.powPost
  refine State.powRecord_keeps ?_ _
  exact h

theorem State.powDrain_keeps {s0 s : State} (h : Keeps s0 s)  :
    Keeps s0 (State.powDrain s) := by
  unfold State.powDrain
  extract_lets -merge -useContext -underBinder +onlyGivenNames x0
  refine Keeps.foldl ?_ (fun y1 a1 h1 => ?_)
  · refine State.setPwr_keeps ?_ _
    exact h
  · refine State.powEmit_keeps ?_ _
    exact h1

theorem State.powFail_keeps {s0 s : State} (h : Keeps s0 s) (a_page : ℕ) (a_check : ℕ) (a_item : ℕ) (a_value : Sys2Proof.Word) (a_counter : ℕ) :
    Keeps s0 (State.powFail s a_page a_check a_item a_value a_counter) := by
  unfold State.powFail
  extract_lets -merge -useContext -underBinder +onlyGivenNames x0
  have h0 : Keeps s0 x0 := by
    unfold x0
    refine Keeps.ite (fun _ => ?_) (fun _ => ?_)
    · refine State.raise_keeps ?_ _ _
      exact h
    · exact h
  refine State.qualFail_keeps ?_ _ _ _ _ _
  exact h0

theorem State.showTg_keeps {s0 s : State} (h : Keeps s0 s)  :
    Keeps s0 (State.showTg s) := by
  unfold State.showTg
  refine State.setPwr_keeps ?_ _
  exact h

theorem State.setRails_keeps {s0 s : State} (h : Keeps s0 s) (a_f : ℕ → Bool) :
    Keeps s0 (State.setRails s a_f) := by
  unfold State.setRails
  extract_lets -merge -useContext -underBinder +onlyGivenNames x0
  refine State.setPwr_keeps ?_ _
  exact h

theorem State.railTrack_keeps {s0 s : State} (h : Keeps s0 s)  :
    Keeps s0 (State.railTrack s) := by
  unfold State.railTrack
  extract_lets -merge -useContext -underBinder +onlyGivenNames x0
  extract_lets -merge -useContext -underBinder +onlyGivenNames x1
  extract_lets -merge -useContext -underBinder +onlyGivenNames x2
  extract_lets -merge -useContext -underBinder +onlyGivenNames x3
  refine State.setPwr_keeps ?_ _
  exact h

theorem State.railsCut_keeps {s0 s : State} (h : Keeps s0 s)  :
    Keeps s0 (State.railsCut s) := by
  unfold State.railsCut
  refine State.railTrack_keeps ?_ 
  refine State.setPwr_keeps ?_ _
  exact h

theorem State.railsDown_keeps {s0 s : State} (h : Keeps s0 s)  :
    Keeps s0 (State.railsDown s) := by
  unfold State.railsDown
  refine State.setPwr_keeps ?_ _
  exact h

theorem State.railsUpCheck_keeps {s0 s : State} (h : Keeps s0 s)  :
    Keeps s0 (State.railsUpCheck s) := by
  unfold State.railsUpCheck
  refine Keeps.ite (fun _ => ?_) (fun _ => ?_)
  · refine State.setPwr_keeps ?_ _
    exact h
  · exact h

theorem State.railsRise_keeps {s0 s : State} (h : Keeps s0 s)  :
    Keeps s0 (State.railsRise s) := by
  unfold State.railsRise
  extract_lets -merge -useContext -underBinder +onlyGivenNames x0
  extract_lets -merge -useContext -underBinder +onlyGivenNames x1
  extract_lets -merge -useContext -underBinder +onlyGivenNames x2
  extract_lets -merge -useContext -underBinder +onlyGivenNames x3
  have h3 : Keeps s0 x3 := by
    unfold x3
    refine State.setPwr_keeps ?_ _
    exact h
  refine State.railsUpCheck_keeps ?_ 
  refine State.railTrack_keeps ?_ 
  refine State.setRails_keeps ?_ _
  exact h3

theorem execRailStepEnable_keeps {s0 s : State} (h : Keeps s0 s)  :
    Answers s0 (execRailStepEnable s) := by
  refine ⟨_, rfl, ?_⟩
  refine Keeps.ite (fun _ => ?_) (fun _ => ?_)
  · refine State.railsRise_keeps ?_ 
    exact h
  · exact h

theorem execRailStepDisable_keeps {s0 s : State} (h : Keeps s0 s)  :
    Answers s0 (execRailStepDisable s) := by
  refine ⟨_, rfl, ?_⟩
  refine Keeps.ite (fun _ => ?_) (fun _ => ?_)
  · extract_lets -merge -useContext -underBinder +onlyGivenNames x0
    extract_lets -merge -useContext -underBinder +onlyGivenNames x1
    refine Keeps.ite (fun _ => ?_) (fun _ => ?_)
    · exact h
    · extract_lets -merge -useContext -underBinder +onlyGivenNames x2
      extract_lets -merge -useContext -underBinder +onlyGivenNames x3
      have h3 : Keeps s0 x3 := by
        unfold x3
        refine State.railTrack_keeps ?_ 
        refine State.setPwr_keeps ?_ _
        refine State.setRails_keeps ?_ _
        exact h
      refine Keeps.ite (fun _ => ?_) (fun _ => ?_)
      · exact h3
      · refine State.setPwr_keeps ?_ _
        exact h3
  · exact h

theorem State.countCause_keeps {s0 s : State} (h : Keeps s0 s) (a_cause : ℕ) :
    Keeps s0 (State.countCause s a_cause) := by
  unfold State.countCause
  refine Keeps.ite (fun _ => ?_) (fun _ => ?_)
  · refine State.bump_keeps ?_ _
    exact h
  · refine Keeps.ite (fun _ => ?_) (fun _ => ?_)
    · refine State.bump_keeps ?_ _
      exact h
    · refine Keeps.ite (fun _ => ?_) (fun _ => ?_)
      · refine State.bump_keeps ?_ _
        exact h
      · refine Keeps.ite (fun _ => ?_) (fun _ => ?_)
        · refine State.bump_keeps ?_ _
          exact h
        · refine Keeps.ite (fun _ => ?_) (fun _ => ?_)
          · refine State.bump_keeps ?_ _
            exact h
          · exact h

theorem State.enterHs_keeps {s0 s : State} (h : Keeps s0 s) (a_hs : ℕ) :
    Keeps s0 (State.enterHs s a_hs) := by
  unfold State.enterHs
  extract_lets -merge -useContext -underBinder +onlyGivenNames x0
  refine State.setPwr_keeps ?_ _
  exact h

theorem State.faultMove_keeps {s0 s : State} (h : Keeps s0 s) (a_cause : ℕ) :
    Keeps s0 (State.faultMove s a_cause) := by
  unfold State.faultMove
  refine Keeps.ite (fun _ => ?_) (fun _ => ?_)
  · extract_lets -merge -useContext -underBinder +onlyGivenNames x0
    have h0 : Keeps s0 x0 := by
      unfold x0
      refine State.bump_keeps ?_ _
      refine State.enterHs_keeps ?_ _
      exact h
    refine State.powPost_keeps ?_ _ _ _ _ _ _ _ _
    exact h0
  · extract_lets -merge -useContext -underBinder +onlyGivenNames x1
    have h1 : Keeps s0 x1 := by
      unfold x1
      refine State.bump_keeps ?_ _
      refine State.enterHs_keeps ?_ _
      exact h
    refine State.powPost_keeps ?_ _ _ _ _ _ _ _ _
    exact h1

theorem State.powFault_keeps {s0 s : State} (h : Keeps s0 s) (a_cause : ℕ) (a_shunt : ℕ) :
    Keeps s0 (State.powFault s a_cause a_shunt) := by
  unfold State.powFault
  extract_lets -merge -useContext -underBinder +onlyGivenNames x0
  extract_lets -merge -useContext -underBinder +onlyGivenNames x1
  have h1 : Keeps s0 x1 := by
    unfold x1
    refine State.wr_keeps ?_ _ _
    exact h
  extract_lets -merge -useContext -underBinder +onlyGivenNames x2
  have h2 : Keeps s0 x2 := by
    unfold x2
    refine State.setPwr_keeps ?_ _
    exact h1
  extract_lets -merge -useContext -underBinder +onlyGivenNames x3
  have h3 : Keeps s0 x3 := by
    unfold x3
    refine State.countCause_keeps ?_ _
    refine State.railsCut_keeps ?_ 
    exact h2
  extract_lets -merge -useContext -underBinder +onlyGivenNames x4
  have h4 : Keeps s0 x4 := by
    unfold x4
    refine Keeps.ite (fun _ => ?_) (fun _ => ?_)
    · refine State.raise_keeps ?_ _ _
      exact h3
    · exact h3
  refine Keeps.ite (fun _ => ?_) (fun _ => ?_)
  · refine State.faultMove_keeps ?_ _
    exact h4
  · exact h4

theorem State.supplyFault_keeps {s0 s : State} (h : Keeps s0 s)  :
    Keeps s0 (State.supplyFault s) := by
  unfold State.supplyFault
  refine Keeps.ite (fun _ => ?_) (fun _ => ?_)
  · refine State.leaseFault_keeps ?_ _
    exact h
  · exact h

theorem State.setFeed_keeps {s0 s : State} (h : Keeps s0 s) (a_b : Bool) (a_f : Sys2Proof.Machine.FeedSt → Sys2Proof.Machine.FeedSt) :
    Keeps s0 (State.setFeed s a_b a_f) := by
  unfold State.setFeed
  refine State.setPwr_keeps ?_ _
  exact h

theorem State.feedMark_keeps {s0 s : State} (h : Keeps s0 s) (a_b : Bool) (a_mark : ℕ) :
    Keeps s0 (State.feedMark s a_b a_mark) := by
  unfold State.feedMark
  extract_lets -merge -useContext -underBinder +onlyGivenNames x0
  have h0 : Keeps s0 x0 := by
    unfold x0
    refine State.setFeed_keeps ?_ _ _
    exact h
  extract_lets -merge -useContext -underBinder +onlyGivenNames x1
  extract_lets -merge -useContext -underBinder +onlyGivenNames x2
  have h2 : Keeps s0 x2 := by
    unfold x2
    refine Keeps.ite (fun _ => ?_) (fun _ => ?_)
    · refine State.qualClear_keeps ?_ _ _ _ _
      refine State.bump_keeps ?_ _
      exact h0
    · refine State.powFail_keeps ?_ _ _ _ _ _
      exact h0
  refine State.powPost_keeps ?_ _ _ _ _ _ _ _ _
  exact h2

theorem State.feedForward_keeps {s0 s : State} (h : Keeps s0 s) (a_b : Bool) (a_vbus : ℕ) :
    Keeps s0 (State.feedForward s a_b a_vbus) := by
  unfold State.feedForward
  refine Keeps.ite (fun _ => ?_) (fun _ => ?_)
  · extract_lets -merge -useContext -underBinder +onlyGivenNames x0
    have h0 : Keeps s0 x0 := by
      unfold x0
      refine State.setFeed_keeps ?_ _ _
      exact h
    refine State.qualClear_keeps ?_ _ _ _ _
    exact h0
  · exact h

theorem State.feedTrack_keeps {s0 s : State} (h : Keeps s0 s) (a_b : Bool) :
    Keeps s0 (State.feedTrack s a_b) := by
  unfold State.feedTrack
  extract_lets -merge -useContext -underBinder +onlyGivenNames x0
  extract_lets -merge -useContext -underBinder +onlyGivenNames x1
  extract_lets -merge -useContext -underBinder +onlyGivenNames x2
  refine State.setFeed_keeps ?_ _ _
  exact h

theorem State.feedCheck_keeps {s0 s : State} (h : Keeps s0 s) (a_b : Bool) :
    Keeps s0 (State.feedCheck s a_b) := by
  unfold State.feedCheck
  extract_lets -merge -useContext -underBinder +onlyGivenNames x0
  have h0 : Keeps s0 x0 := by
    unfold x0
    refine State.feedTrack_keeps ?_ _
    exact h
  refine Keeps.ite (fun _ => ?_) (fun _ => ?_)
  · refine State.feedMark_keeps ?_ _ _
    exact h0
  · exact h0

theorem execFeedVoltageChange_keeps {s0 s : State} (h : Keeps s0 s) (a_b : Bool) (a_mv : BitVec 16) (a_vbus : BitVec 16) :
    Answers s0 (execFeedVoltageChange a_b a_mv a_vbus s) := by
  refine ⟨_, rfl, ?_⟩
  refine State.feedForward_keeps ?_ _ _
  refine State.feedCheck_keeps ?_ _
  refine State.setFeed_keeps ?_ _ _
  exact h

theorem execFeedUvMark_keeps {s0 s : State} (h : Keeps s0 s) (a_b : Bool) :
    Answers s0 (execFeedUvMark a_b s) := by
  refine ⟨_, rfl, ?_⟩
  refine Keeps.ite (fun _ => ?_) (fun _ => ?_)
  · refine State.feedMark_keeps ?_ _ _
    exact h
  · exact h

theorem execFeedSettleExpiry_keeps {s0 s : State} (h : Keeps s0 s) (a_b : Bool) :
    Answers s0 (execFeedSettleExpiry a_b s) := by
  refine ⟨_, rfl, ?_⟩
  extract_lets -merge -useContext -underBinder +onlyGivenNames x0
  refine Keeps.ite (fun _ => ?_) (fun _ => ?_)
  · refine State.feedMark_keeps ?_ _ _
    exact h
  · exact h

theorem execReverseCurrent_keeps {s0 s : State} (h : Keeps s0 s) (a_b : Bool) (a_diff : BitVec 16) :
    Answers s0 (execReverseCurrent a_b a_diff s) := by
  refine ⟨_, rfl, ?_⟩
  refine Keeps.ite (fun _ => ?_) (fun _ => ?_)
  · extract_lets -merge -useContext -underBinder +onlyGivenNames x0
    have h0 : Keeps s0 x0 := by
      unfold x0
      refine State.setFeed_keeps ?_ _ _
      exact h
    refine State.powFail_keeps ?_ _ _ _ _ _
    exact h0
  · exact h

theorem execSeatPinChange_keeps {s0 s : State} (h : Keeps s0 s) (a_b : Bool) (a_asserted : Bool) :
    Answers s0 (execSeatPinChange a_b a_asserted s) := by
  refine ⟨_, rfl, ?_⟩
  extract_lets -merge -useContext -underBinder +onlyGivenNames x0
  extract_lets -merge -useContext -underBinder +onlyGivenNames x1
  refine Keeps.ite (fun _ => ?_) (fun _ => ?_)
  · exact h
  · extract_lets -merge -useContext -underBinder +onlyGivenNames x2
    have h2 : Keeps s0 x2 := by
      unfold x2
      refine State.setPwr_keeps ?_ _
      exact h
    refine Keeps.ite (fun _ => ?_) (fun _ => ?_)
    · refine Keeps.ite (fun _ => ?_) (fun _ => ?_)
      · refine State.enterHs_keeps ?_ _
        exact h2
      · exact h2
    · refine Keeps.ite (fun _ => ?_) (fun _ => ?_)
      · refine State.enterHs_keeps ?_ _
        exact h2
      · exact h2

theorem execSeatDebounceComplete_keeps {s0 s : State} (h : Keeps s0 s)  :
    Answers s0 (execSeatDebounceComplete s) := by
  refine ⟨_, rfl, ?_⟩
  extract_lets -merge -useContext -underBinder +onlyGivenNames x0
  refine Keeps.ite (fun _ => ?_) (fun _ => ?_)
  · extract_lets -merge -useContext -underBinder +onlyGivenNames x1
    extract_lets -merge -useContext -underBinder +onlyGivenNames x2
    have h2 : Keeps s0 x2 := by
      unfold x2
      refine State.setPwr_keeps ?_ _
      refine State.enterHs_keeps ?_ _
      exact h
    refine State.powPost_keeps ?_ _ _ _ _ _ _ _ _
    exact h2
  · exact h

theorem execSeatReleaseTimeout_keeps {s0 s : State} (h : Keeps s0 s)  :
    Answers s0 (execSeatReleaseTimeout s) := by
  refine ⟨_, rfl, ?_⟩
  refine Keeps.ite (fun _ => ?_) (fun _ => ?_)
  · extract_lets -merge -useContext -underBinder +onlyGivenNames x0
    extract_lets -merge -useContext -underBinder +onlyGivenNames x1
    extract_lets -merge -useContext -underBinder +onlyGivenNames x2
    have h2 : Keeps s0 x2 := by
      unfold x2
      refine State.setPwr_keeps ?_ _
      refine State.enterHs_keeps ?_ _
      exact h
    extract_lets -merge -useContext -underBinder +onlyGivenNames x3
    have h3 : Keeps s0 x3 := by
      unfold x3
      refine Keeps.ite (fun _ => ?_) (fun _ => ?_)
      · refine State.railsCut_keeps ?_ 
        exact h2
      · exact h2
    extract_lets -merge -useContext -underBinder +onlyGivenNames x4
    have h4 : Keeps s0 x4 := by
      unfold x4
      refine State.bump_keeps ?_ _
      exact h3
    refine State.powPost_keeps ?_ _ _ _ _ _ _ _ _
    exact h4
  · exact h

theorem execRampStart_keeps {s0 s : State} (h : Keeps s0 s)  :
    Answers s0 (execRampStart s) := by
  refine ⟨_, rfl, ?_⟩
  extract_lets -merge -useContext -underBinder +onlyGivenNames x0
  refine Keeps.ite (fun _ => ?_) (fun _ => ?_)
  · refine State.setPwr_keeps ?_ _
    refine State.enterHs_keeps ?_ _
    exact h
  · exact h

theorem execRampComplete_keeps {s0 s : State} (h : Keeps s0 s)  :
    Answers s0 (execRampComplete s) := by
  refine ⟨_, rfl, ?_⟩
  refine Keeps.ite (fun _ => ?_) (fun _ => ?_)
  · refine State.railsRise_keeps ?_ 
    refine State.setPwr_keeps ?_ _
    refine State.enterHs_keeps ?_ _
    exact h
  · exact h

theorem execLimitTimeout_keeps {s0 s : State} (h : Keeps s0 s) (a_shunt : Sys2Proof.Byte) :
    Answers s0 (execLimitTimeout a_shunt s) := by
  refine ⟨_, rfl, ?_⟩
  refine Keeps.ite (fun _ => ?_) (fun _ => ?_)
  · refine State.powFault_keeps ?_ _ _
    exact h
  · exact h

theorem execFastTrip_keeps {s0 s : State} (h : Keeps s0 s) (a_shunt : Sys2Proof.Byte) (a_vout : BitVec 16) :
    Answers s0 (execFastTrip a_shunt a_vout s) := by
  refine ⟨_, rfl, ?_⟩
  refine Keeps.ite (fun _ => ?_) (fun _ => ?_)
  · extract_lets -merge -useContext -underBinder +onlyGivenNames x0
    extract_lets -merge -useContext -underBinder +onlyGivenNames x1
    have h1 : Keeps s0 x1 := by
      unfold x1
      refine State.powPost_keeps ?_ _ _ _ _ _ _ _ _
      exact h
    refine State.powFault_keeps ?_ _ _
    exact h1
  · exact h

theorem State.thermalCheck_keeps {s0 s : State} (h : Keeps s0 s) (a_shunt : ℕ) :
    Keeps s0 (State.thermalCheck s a_shunt) := by
  unfold State.thermalCheck
  refine Keeps.ite (fun _ => ?_) (fun _ => ?_)
  · refine State.powFault_keeps ?_ _ _
    exact h
  · exact h

theorem State.fetPower_keeps {s0 s : State} (h : Keeps s0 s) (a_vbus : ℕ) (a_vout : ℕ) (a_shuntUv : ℕ) :
    Keeps s0 (State.fetPower s a_vbus a_vout a_shuntUv).2 := by
  unfold State.fetPower
  refine Keeps.ite2 (fun _ => ?_) (fun _ => ?_)
  · refine Keeps.pair2 ?_
    exact h
  · refine Keeps.ite2 (fun _ => ?_) (fun _ => ?_)
    · extract_lets -merge -useContext -underBinder +onlyGivenNames x0
      have h0 : Keeps s0 x0.2 := by
        unfold x0
        refine State.fresh_keeps ?_ 
        exact h
      refine Keeps.pair2 ?_
      exact h0
    · refine Keeps.pair2 ?_
      exact h

theorem State.stageTrack_keeps {s0 s : State} (h : Keeps s0 s) (a_vbus : ℕ) (a_vout : ℕ) (a_shuntUv : ℕ) :
    Keeps s0 (State.stageTrack s a_vbus a_vout a_shuntUv) := by
  unfold State.stageTrack
  extract_lets -merge -useContext -underBinder +onlyGivenNames x0
  extract_lets -merge -useContext -underBinder +onlyGivenNames x1
  extract_lets -merge -useContext -underBinder +onlyGivenNames x2
  refine State.setPwr_keeps ?_ _
  exact h

theorem execThermalModelStep_keeps {s0 s : State} (h : Keeps s0 s) (a_vbus : BitVec 16) (a_vout : BitVec 16) (a_shuntUv : BitVec 16) :
    Answers s0 (execThermalModelStep a_vbus a_vout a_shuntUv s) := by
  refine ⟨_, rfl, ?_⟩
  refine Keeps.ite (fun _ => ?_) (fun _ => ?_)
  · exact h
  · split
    · next y0_0 y0_1 e0 =>
        have g0 : Keeps s0 y0_1 := by
          refine Keeps.of2 e0 ?_
          refine State.fetPower_keeps ?_ _ _ _
          exact h
        extract_lets -merge -useContext -underBinder +onlyGivenNames x1
        extract_lets -merge -useContext -underBinder +onlyGivenNames x2
        extract_lets -merge -useContext -underBinder +onlyGivenNames x3
        extract_lets -merge -useContext -underBinder +onlyGivenNames x4
        have h4 : Keeps s0 x4 := by
          unfold x4
          refine State.setPwr_keeps ?_ _
          exact g0
        refine State.thermalCheck_keeps ?_ _
        refine State.showTg_keeps ?_ 
        refine State.stageTrack_keeps ?_ _ _ _
        exact h4

theorem execTsMeasure_keeps {s0 s : State} (h : Keeps s0 s) (a_t : ℤ) :
    Answers s0 (execTsMeasure a_t s) := by
  refine ⟨_, rfl, ?_⟩
  extract_lets -merge -useContext -underBinder +onlyGivenNames x0
  extract_lets -merge -useContext -underBinder +onlyGivenNames x1
  refine Keeps.ite (fun _ => ?_) (fun _ => ?_)
  · exact h
  · refine Keeps.ite (fun _ => ?_) (fun _ => ?_)
    · refine State.thermalCheck_keeps ?_ _
      refine State.showTg_keeps ?_ 
      refine State.qualClear_keeps ?_ _ _ _ _
      refine State.setPwr_keeps ?_ _
      exact h
    · extract_lets -merge -useContext -underBinder +onlyGivenNames x2
      have h2 : Keeps s0 x2 := by
        unfold x2
        refine State.showTg_keeps ?_ 
        refine State.setPwr_keeps ?_ _
        exact h
      refine State.thermalCheck_keeps ?_ _
      refine State.powFail_keeps ?_ _ _ _ _ _
      exact h2

theorem execRetryTimerExpiry_keeps {s0 s : State} (h : Keeps s0 s)  :
    Answers s0 (execRetryTimerExpiry s) := by
  refine ⟨_, rfl, ?_⟩
  split
  · exact h
  · refine Keeps.ite (fun _ => ?_) (fun _ => ?_)
    · refine State.setPwr_keeps ?_ _
      exact h
    · exact h

theorem execRetryForget_keeps {s0 s : State} (h : Keeps s0 s)  :
    Answers s0 (execRetryForget s) := by
  refine ⟨_, rfl, ?_⟩
  refine Keeps.ite (fun _ => ?_) (fun _ => ?_)
  · refine State.setPwr_keeps ?_ _
    exact h
  · exact h

theorem execPwrStart_keeps {s0 s : State} (h : Keeps s0 s)  :
    Answers s0 (execPwrStart s) := by
  refine ⟨_, rfl, ?_⟩
  refine State.setPwr_keeps ?_ _
  exact h

theorem State.powStop_keeps {s0 s : State} (h : Keeps s0 s)  :
    Keeps s0 (State.powStop s) := by
  unfold State.powStop
  extract_lets -merge -useContext -underBinder +onlyGivenNames x0
  extract_lets -merge -useContext -underBinder +onlyGivenNames x1
  have h1 : Keeps s0 x1 := by
    unfold x1
    refine State.setPwr_keeps ?_ _
    exact h
  refine Keeps.ite (fun _ => ?_) (fun _ => ?_)
  · refine State.railsCut_keeps ?_ 
    refine State.setPwr_keeps ?_ _
    refine State.enterHs_keeps ?_ _
    exact h1
  · refine Keeps.ite (fun _ => ?_) (fun _ => ?_)
    · refine State.railsDown_keeps ?_ 
      refine State.enterHs_keeps ?_ _
      exact h1
    · exact h1

theorem execPwrStop_keeps {s0 s : State} (h : Keeps s0 s)  :
    Answers s0 (execPwrStop s) := by
  refine ⟨_, rfl, ?_⟩
  refine State.powStop_keeps ?_ 
  exact h

theorem State.powUnlatch_keeps {s0 s : State} (h : Keeps s0 s)  :
    Keeps s0 (State.powUnlatch s) := by
  unfold State.powUnlatch
  extract_lets -merge -useContext -underBinder +onlyGivenNames x0
  have h0 : Keeps s0 x0 := by
    unfold x0
    refine Keeps.ite (fun _ => ?_) (fun _ => ?_)
    · refine State.enterHs_keeps ?_ _
      exact h
    · exact h
  refine State.setPwr_keeps ?_ _
  exact h0

theorem execUnlatch_keeps {s0 s : State} (h : Keeps s0 s)  :
    Answers s0 (execUnlatch s) := by
  refine ⟨_, rfl, ?_⟩
  refine State.powUnlatch_keeps ?_ 
  exact h

theorem State.powCmd_keeps {s0 s : State} (h : Keeps s0 s) (a_v : Sys2Proof.Word) :
    Keeps s0 (State.powCmd s a_v) := by
  unfold State.powCmd
  extract_lets -merge -useContext -underBinder +onlyGivenNames x0
  have h0 : Keeps s0 x0 := by
    unfold x0
    refine Keeps.ite (fun _ => ?_) (fun _ => ?_)
    · refine State.setPwr_keeps ?_ _
      exact h
    · exact h
  extract_lets -merge -useContext -underBinder +onlyGivenNames x1
  have h1 : Keeps s0 x1 := by
    unfold x1
    refine Keeps.ite (fun _ => ?_) (fun _ => ?_)
    · refine State.powStop_keeps ?_ 
      exact h0
    · exact h0
  refine Keeps.ite (fun _ => ?_) (fun _ => ?_)
  · refine State.powUnlatch_keeps ?_ 
    exact h1
  · exact h1

theorem State.announceAll_keeps {s0 s : State} (h : Keeps s0 s)  :
    Keeps s0 (State.announceAll s) := by
  unfold State.announceAll
  refine Keeps.foldl ?_ (fun y0 a0 h0 => ?_)
  · exact h
  · refine Keeps.ite (fun _ => ?_) (fun _ => ?_)
    · exact h0
    · refine State.evAnnounce_keeps ?_ _
      exact h0

theorem State.gaspActs_keeps {s0 s : State} (h : Keeps s0 s)  :
    Keeps s0 (State.gaspActs s) := by
  unfold State.gaspActs
  refine Keeps.ite (fun _ => ?_) (fun _ => ?_)
  · extract_lets -merge -useContext -underBinder +onlyGivenNames x0
    have h0 : Keeps s0 x0 := by
      unfold x0
      refine Keeps.ite (fun _ => ?_) (fun _ => ?_)
      · refine State.releaseLease_keeps ?_ _
        exact h
      · exact h
    extract_lets -merge -useContext -underBinder +onlyGivenNames x1
    have h1 : Keeps s0 x1 := by
      unfold x1
      refine State.pubDying_keeps ?_ _
      exact h0
    refine Keeps.foldl ?_ (fun y2 a2 h2 => ?_)
    · exact h1
    · refine State.safeEnter_keeps ?_ _
      exact h2
  · exact h

theorem execDyingGaspDecision_keeps {s0 s : State} (h : Keeps s0 s) (a_us : Sys2Proof.Byte) :
    Answers s0 (execDyingGaspDecision a_us s) := by
  refine ⟨_, rfl, ?_⟩
  extract_lets -merge -useContext -underBinder +onlyGivenNames x0
  extract_lets -merge -useContext -underBinder +onlyGivenNames x1
  extract_lets -merge -useContext -underBinder +onlyGivenNames x2
  extract_lets -merge -useContext -underBinder +onlyGivenNames x3
  refine Keeps.ite (fun _ => ?_) (fun _ => ?_)
  · extract_lets -merge -useContext -underBinder +onlyGivenNames x4
    extract_lets -merge -useContext -underBinder +onlyGivenNames x5
    have h5 : Keeps s0 x5 := by
      unfold x5
      refine State.bump_keeps ?_ _
      refine State.setPwr_keeps ?_ _
      exact h
    extract_lets -merge -useContext -underBinder +onlyGivenNames x6
    have h6 : Keeps s0 x6 := by
      unfold x6
      refine State.gaspActs_keeps ?_ 
      exact h5
    extract_lets -merge -useContext -underBinder +onlyGivenNames x7
    have h7 : Keeps s0 x7 := by
      unfold x7
      refine State.powPost_keeps ?_ _ _ _ _ _ _ _ _
      exact h6
    refine Keeps.ite (fun _ => ?_) (fun _ => ?_)
    · refine State.setNet_keeps ?_ _
      refine State.announceAll_keeps ?_ 
      exact h7
    · exact h7
  · exact h

theorem execDyingGaspEnd_keeps {s0 s : State} (h : Keeps s0 s)  :
    Answers s0 (execDyingGaspEnd s) := by
  refine ⟨_, rfl, ?_⟩
  refine Keeps.ite (fun _ => ?_) (fun _ => ?_)
  · extract_lets -merge -useContext -underBinder +onlyGivenNames x0
    have h0 : Keeps s0 x0 := by
      unfold x0
      refine Keeps.ite (fun _ => ?_) (fun _ => ?_)
      · refine State.enterHs_keeps ?_ _
        exact h
      · exact h
    refine State.railsDown_keeps ?_ 
    refine State.setPwr_keeps ?_ _
    exact h0
  · exact h

theorem State.hubPowerLoss_keeps {s0 s : State} (h : Keeps s0 s)  :
    Keeps s0 (State.hubPowerLoss s) := by
  unfold State.hubPowerLoss
  refine Keeps.ite (fun _ => ?_) (fun _ => ?_)
  · exact h
  · extract_lets -merge -useContext -underBinder +onlyGivenNames x0
    have h0 : Keeps s0 x0 := by
      unfold x0
      refine State.hubClear_keeps ?_ _
      exact h
    refine Keeps.mk_upd ?_ rfl
    exact h0

theorem State.hubPowerBack_keeps {s0 s : State} (h : Keeps s0 s)  :
    Keeps s0 (State.hubPowerBack s) := by
  unfold State.hubPowerBack
  refine Keeps.ite (fun _ => ?_) (fun _ => ?_)
  · refine Keeps.ite (fun _ => ?_) (fun _ => ?_)
    · refine State.hubReset_keeps ?_ _
      exact h
    · refine Keeps.ite (fun _ => ?_) (fun _ => ?_)
      · refine State.hubRelease_keeps ?_ 
        exact h
      · exact h
  · exact h

theorem execRailPgChange_keeps {s0 s : State} (h : Keeps s0 s) (a_r : Fin 8) (a_level : Bool) :
    Answers s0 (execRailPgChange a_r a_level s) := by
  refine ⟨_, rfl, ?_⟩
  extract_lets -merge -useContext -underBinder +onlyGivenNames x0
  extract_lets -merge -useContext -underBinder +onlyGivenNames x1
  extract_lets -merge -useContext -underBinder +onlyGivenNames x2
  extract_lets -merge -useContext -underBinder +onlyGivenNames x3
  have h3 : Keeps s0 x3 := by
    unfold x3
    refine State.railsUpCheck_keeps ?_ 
    refine State.railTrack_keeps ?_ 
    refine State.setPwr_keeps ?_ _
    exact h
  refine Keeps.ite (fun _ => ?_) (fun _ => ?_)
  · refine State.hubPowerBack_keeps ?_ 
    exact h3
  · refine Keeps.ite (fun _ => ?_) (fun _ => ?_)
    · refine State.hubPowerLoss_keeps ?_ 
      exact h3
    · exact h3

theorem State.railFault_keeps {s0 s : State} (h : Keeps s0 s) (a_kind : ℕ) (a_r : ℕ) :
    Keeps s0 (State.railFault s a_kind a_r) := by
  unfold State.railFault
  extract_lets -merge -useContext -underBinder +onlyGivenNames x0
  have h0 : Keeps s0 x0 := by
    unfold x0
    refine State.bump_keeps ?_ _
    exact h
  extract_lets -merge -useContext -underBinder +onlyGivenNames x1
  have h1 : Keeps s0 x1 := by
    unfold x1
    refine State.powPost_keeps ?_ _ _ _ _ _ _ _ _
    exact h0
  refine State.powFault_keeps ?_ _ _
  refine State.supplyFault_keeps ?_ 
  exact h1

theorem execPgTimeout_keeps {s0 s : State} (h : Keeps s0 s) (a_r : Fin 8) :
    Answers s0 (execPgTimeout a_r s) := by
  refine ⟨_, rfl, ?_⟩
  extract_lets -merge -useContext -underBinder +onlyGivenNames x0
  refine Keeps.ite (fun _ => ?_) (fun _ => ?_)
  · refine State.railFault_keeps ?_ _ _
    exact h
  · exact h

theorem execPgLost_keeps {s0 s : State} (h : Keeps s0 s) (a_r : Fin 8) :
    Answers s0 (execPgLost a_r s) := by
  refine ⟨_, rfl, ?_⟩
  extract_lets -merge -useContext -underBinder +onlyGivenNames x0
  refine Keeps.ite (fun _ => ?_) (fun _ => ?_)
  · refine State.railFault_keeps ?_ _ _
    exact h
  · exact h

theorem State.adcFail_keeps {s0 s : State} (h : Keeps s0 s) (a_check : ℕ) (a_c : ℕ) (a_code : Sys2Proof.Word) :
    Keeps s0 (State.adcFail s a_check a_c a_code) := by
  unfold State.adcFail
  extract_lets -merge -useContext -underBinder +onlyGivenNames x0
  have h0 : Keeps s0 x0 := by
    unfold x0
    refine State.supplyFault_keeps ?_ 
    refine State.powFail_keeps ?_ _ _ _ _ _
    exact h
  refine Keeps.ite (fun _ => ?_) (fun _ => ?_)
  · refine State.powFault_keeps ?_ _ _
    exact h0
  · exact h0

theorem execAdcConversion_keeps {s0 s : State} (h : Keeps s0 s) (a_c : Fin 16) (a_code : BitVec 12) :
    Answers s0 (execAdcConversion a_c a_code s) := by
  refine ⟨_, rfl, ?_⟩
  extract_lets -merge -useContext -underBinder +onlyGivenNames x0
  extract_lets -merge -useContext -underBinder +onlyGivenNames x1
  refine Keeps.ite (fun _ => ?_) (fun _ => ?_)
  · exact h
  · extract_lets -merge -useContext -underBinder +onlyGivenNames x2
    have h2 : Keeps s0 x2 := by
      unfold x2
      refine State.setPwr_keeps ?_ _
      exact h
    extract_lets -merge -useContext -underBinder +onlyGivenNames x3
    extract_lets -merge -useContext -underBinder +onlyGivenNames x4
    extract_lets -merge -useContext -underBinder +onlyGivenNames x5
    extract_lets -merge -useContext -underBinder +onlyGivenNames x6
    have h6 : Keeps s0 x6 := by
      unfold x6
      refine State.wr_keeps ?_ _ _
      exact h2
    refine Keeps.ite (fun _ => ?_) (fun _ => ?_)
    · extract_lets -merge -useContext -underBinder +onlyGivenNames x7
      extract_lets -merge -useContext -underBinder +onlyGivenNames x8
      have h8 : Keeps s0 x8 := by
        unfold x8
        refine State.setPwr_keeps ?_ _
        exact h6
      refine Keeps.ite (fun _ => ?_) (fun _ => ?_)
      · refine State.qualClear_keeps ?_ _ _ _ _
        refine State.qualClear_keeps ?_ _ _ _ _
        exact h8
      · exact h8
    · refine Keeps.ite (fun _ => ?_) (fun _ => ?_)
      · extract_lets -merge -useContext -underBinder +onlyGivenNames x9
        extract_lets -merge -useContext -underBinder +onlyGivenNames x10
        have h10 : Keeps s0 x10 := by
          unfold x10
          refine State.setPwr_keeps ?_ _
          exact h6
        refine Keeps.ite (fun _ => ?_) (fun _ => ?_)
        · refine State.adcFail_keeps ?_ _ _ _
          exact h10
        · exact h10
      · refine State.setPwr_keeps ?_ _
        exact h6

theorem execAdcArmTimeout_keeps {s0 s : State} (h : Keeps s0 s) (a_c : Fin 16) :
    Answers s0 (execAdcArmTimeout a_c s) := by
  refine ⟨_, rfl, ?_⟩
  extract_lets -merge -useContext -underBinder +onlyGivenNames x0
  extract_lets -merge -useContext -underBinder +onlyGivenNames x1
  extract_lets -merge -useContext -underBinder +onlyGivenNames x2
  refine Keeps.ite (fun _ => ?_) (fun _ => ?_)
  · refine State.adcFail_keeps ?_ _ _ _
    exact h
  · exact h

theorem State.bufEcc_keeps {s0 s : State} (h : Keeps s0 s) (a_x : Sys2Proof.ReadEcc) :
    Keeps s0 (State.bufEcc s a_x) := by
  unfold State.bufEcc
  split
  · exact h
  · refine State.eccError_keeps ?_ _ _ _ _ _
    exact h
  · refine State.eccError_keeps ?_ _ _ _ _ _
    refine State.bump_keeps ?_ _
    exact h

theorem State.ddrEcc_keeps {s0 s : State} (h : Keeps s0 s) (a_x : Sys2Proof.ReadEcc) :
    Keeps s0 (State.ddrEcc s a_x) := by
  unfold State.ddrEcc
  split
  · exact h
  · refine State.eccError_keeps ?_ _ _ _ _ _
    refine State.bump_keeps ?_ _
    exact h
  · extract_lets -merge -useContext -underBinder +onlyGivenNames x3
    refine State.eccError_keeps ?_ _ _ _ _ _
    refine State.raise_keeps ?_ _ _
    refine State.wr_keeps ?_ _ _
    refine State.wr_keeps ?_ _ _
    refine State.bump_keeps ?_ _
    exact h

theorem State.ptpSent_keeps {s0 s : State} (h : Keeps s0 s) (a_port : ℕ) (a_f : Sys2Proof.Machine.QFrame) :
    Keeps s0 (State.ptpSent s a_port a_f) := by
  unfold State.ptpSent
  extract_lets -merge -useContext -underBinder +onlyGivenNames x0
  refine Keeps.ite (fun _ => ?_) (fun _ => ?_)
  · exact h
  · split
    · refine Keeps.mk_upd ?_ rfl
      exact h
    · refine Keeps.mk_upd ?_ rfl
      exact h
    · exact h

theorem State.startFrame_keeps {s0 s : State} (h : Keeps s0 s) (a_port : ℕ) (a_cls : ℕ) (a_ecc : Sys2Proof.ReadEcc) :
    Keeps s0 (State.startFrame s a_port a_cls a_ecc) := by
  unfold State.startFrame
  split
  · exact h
  · extract_lets -merge -useContext -underBinder +onlyGivenNames x2
    have h2 : Keeps s0 x2 := by
      unfold x2
      refine State.bufEcc_keeps ?_ _
      refine State.setQueue_keeps ?_ _ _ _
      exact h
    split
    · refine State.spillCheck_keeps ?_ 
      exact h2
    · extract_lets -merge -useContext -underBinder +onlyGivenNames x5
      extract_lets -merge -useContext -underBinder +onlyGivenNames x6
      extract_lets -merge -useContext -underBinder +onlyGivenNames x7
      have h7 : Keeps s0 x7 := by
        unfold x7
        refine State.ptpSent_keeps ?_ _ _
        refine State.setSending_keeps ?_ _ _
        exact h2
      refine State.mirror_keeps ?_ _ _ _
      exact h7

theorem execEgressTransmitStart_keeps {s0 s : State} (h : Keeps s0 s) (a_port : Fin 8) (a_ecc : Sys2Proof.ReadEcc) :
    Answers s0 (execEgressTransmitStart a_port a_ecc s) := by
  refine ⟨_, rfl, ?_⟩
  extract_lets -merge -useContext -underBinder +onlyGivenNames x0
  have h0 : Keeps s0 x0 := by
    unfold x0
    refine State.pubFlush_keeps ?_ _
    exact h
  extract_lets -merge -useContext -underBinder +onlyGivenNames x1
  refine Keeps.ite (fun _ => ?_) (fun _ => ?_)
  · exact h0
  · refine Keeps.ite (fun _ => ?_) (fun _ => ?_)
    · refine Keeps.ite (fun _ => ?_) (fun _ => ?_)
      · exact h0
      · refine Keeps.ite (fun _ => ?_) (fun _ => ?_)
        · refine State.startFrame_keeps ?_ _ _ _
          exact h0
        · refine Keeps.ite (fun _ => ?_) (fun _ => ?_)
          · refine State.startFrame_keeps ?_ _ _ _
            exact h0
          · refine State.setSending_keeps ?_ _ _
            exact h0
    · split
      · extract_lets -merge -useContext -underBinder +onlyGivenNames x3
        have h3 : Keeps s0 x3 := by
          unfold x3
          refine State.setNet_keeps ?_ _
          exact h0
        split
        · exact h3
        · refine State.startFrame_keeps ?_ _ _ _
          exact h3

theorem State.settleCopies_keeps {s0 s : State} (h : Keeps s0 s) (a_mark : ℕ) (a_lost : Bool) :
    Keeps s0 (State.settleCopies s a_mark a_lost) := by
  unfold State.settleCopies
  refine State.setNet_keeps ?_ _
  exact h

theorem State.endFrame_keeps {s0 s : State} (h : Keeps s0 s) (a_port : ℕ) (a_express : Bool) (a_f : Sys2Proof.Machine.QFrame) (a_ecc : Sys2Proof.ReadEcc) :
    Keeps s0 (State.endFrame s a_port a_express a_f a_ecc) := by
  unfold State.endFrame
  extract_lets -merge -useContext -underBinder +onlyGivenNames x0
  have h0 : Keeps s0 x0 := by
    unfold x0
    refine State.bufEcc_keeps ?_ _
    exact h
  extract_lets -merge -useContext -underBinder +onlyGivenNames x1
  extract_lets -merge -useContext -underBinder +onlyGivenNames x2
  have h2 : Keeps s0 x2 := by
    unfold x2
    refine State.settleCopies_keeps ?_ _ _
    exact h0
  refine Keeps.ite (fun _ => ?_) (fun _ => ?_)
  · extract_lets -merge -useContext -underBinder +onlyGivenNames x3
    have h3 : Keeps s0 x3 := by
      unfold x3
      refine State.bump_keeps ?_ _
      exact h2
    refine Keeps.ite (fun _ => ?_) (fun _ => ?_)
    · refine State.bump_keeps ?_ _
      exact h3
    · exact h3
  · refine Keeps.ite (fun _ => ?_) (fun _ => ?_)
    · exact h2
    · refine State.handOver_keeps ?_ _ _
      exact h2

theorem execFrameTransmitEnd_keeps {s0 s : State} (h : Keeps s0 s) (a_port : Fin 8) (a_ecc : Sys2Proof.ReadEcc) :
    Answers s0 (execFrameTransmitEnd a_port a_ecc s) := by
  refine ⟨_, rfl, ?_⟩
  extract_lets -merge -useContext -underBinder +onlyGivenNames x0
  split
  · refine State.spillCheck_keeps ?_ 
    refine State.endFrame_keeps ?_ _ _ _ _
    refine State.setSending_keeps ?_ _ _
    exact h
  · split
    · refine Keeps.ite (fun _ => ?_) (fun _ => ?_)
      · exact h
      · refine State.spillCheck_keeps ?_ 
        refine State.endFrame_keeps ?_ _ _ _ _
        refine State.setSending_keeps ?_ _ _
        exact h
    · exact h

theorem execPreemption_keeps {s0 s : State} (h : Keeps s0 s) (a_port : Fin 4) :
    Answers s0 (execPreemption a_port s) := by
  refine ⟨_, rfl, ?_⟩
  extract_lets -merge -useContext -underBinder +onlyGivenNames x0
  refine Keeps.ite (fun _ => ?_) (fun _ => ?_)
  · refine State.bump_keeps ?_ _
    refine State.setSending_keeps ?_ _ _
    exact h
  · exact h

theorem State.writeCopy_keeps {s0 s : State} (h : Keeps s0 s) (a_c : Sys2Proof.Machine.PendingCopy) :
    Keeps s0 (State.writeCopy s a_c) := by
  unfold State.writeCopy
  split
  · next y0_0 y0_1 e0 =>
      have g0 : Keeps s0 y0_1 := by
        refine Keeps.of2 e0 ?_
        refine State.admitAs_keeps ?_ _ _
        exact h
      split
      · refine State.mirrorDrop_keeps ?_ _ _
        exact g0
      · refine State.mirrorDrop_keeps ?_ _ _
        exact g0
      · exact g0

theorem execCopyWrite_keeps {s0 s : State} (h : Keeps s0 s)  :
    Answers s0 (execCopyWrite s) := by
  refine ⟨_, rfl, ?_⟩
  split
  · exact h
  · split
    · extract_lets -merge -useContext -underBinder +onlyGivenNames x3
      have h3 : Keeps s0 x3 := by
        unfold x3
        refine State.setNet_keeps ?_ _
        exact h
      split
      · refine State.writeCopy_keeps ?_ _
        exact h3
      · exact h3

theorem execReplicationTimeout_keeps {s0 s : State} (h : Keeps s0 s) (a_i : ℕ) :
    Answers s0 (execReplicationTimeout a_i s) := by
  refine ⟨_, rfl, ?_⟩
  split
  · split
    · refine Keeps.ite (fun _ => ?_) (fun _ => ?_)
      · refine State.raise_keeps ?_ _ _
        refine State.bump_keeps ?_ _
        refine State.setNet_keeps ?_ _
        exact h
      · exact h
    · exact h

theorem execMirrorCopyTimeout_keeps {s0 s : State} (h : Keeps s0 s) (a_i : ℕ) :
    Answers s0 (execMirrorCopyTimeout a_i s) := by
  refine ⟨_, rfl, ?_⟩
  split
  · split
    · split
      · refine Keeps.ite (fun _ => ?_) (fun _ => ?_)
        · refine State.mirrorDrop_keeps ?_ _ _
          refine State.setNet_keeps ?_ _
          exact h
        · exact h
      · exact h
    · exact h

theorem execPushoutRepost_keeps {s0 s : State} (h : Keeps s0 s) (a_port : Fin 8) :
    Answers s0 (execPushoutRepost a_port s) := by
  refine ⟨_, rfl, ?_⟩
  extract_lets -merge -useContext -underBinder +onlyGivenNames x0
  refine Keeps.ite (fun _ => ?_) (fun _ => ?_)
  · exact h
  · refine State.pushPost_keeps ?_ _
    exact h

theorem State.storeFullCheck_keeps {s0 s : State} (h : Keeps s0 s)  :
    Keeps s0 (State.storeFullCheck s) := by
  unfold State.storeFullCheck
  refine Keeps.ite (fun _ => ?_) (fun _ => ?_)
  · refine State.setNet_keeps ?_ _
    exact h
  · exact h

theorem execMigration_keeps {s0 s : State} (h : Keeps s0 s) (a_port : Fin 8) (a_cls : Fin 5) :
    Answers s0 (execMigration a_port a_cls s) := by
  refine ⟨_, rfl, ?_⟩
  extract_lets -merge -useContext -underBinder +onlyGivenNames x0
  split
  · exact h
  · refine Keeps.ite (fun _ => ?_) (fun _ => ?_)
    · extract_lets -merge -useContext -underBinder +onlyGivenNames x3
      have h3 : Keeps s0 x3 := by
        unfold x3
        refine State.setQueue_keeps ?_ _ _ _
        exact h
      extract_lets -merge -useContext -underBinder +onlyGivenNames x4
      have h4 : Keeps s0 x4 := by
        unfold x4
        refine State.setNet_keeps ?_ _
        refine State.bump_keeps ?_ _
        exact h3
      extract_lets -merge -useContext -underBinder +onlyGivenNames x5
      have h5 : Keeps s0 x5 := by
        unfold x5
        refine Keeps.ite (fun _ => ?_) (fun _ => ?_)
        · refine State.wr_keeps ?_ _ _
          exact h4
        · exact h4
      refine State.spillCheck_keeps ?_ 
      exact h5
    · extract_lets -merge -useContext -underBinder +onlyGivenNames x6
      have h6 : Keeps s0 x6 := by
        unfold x6
        refine State.setQueue_keeps ?_ _ _ _
        exact h
      extract_lets -merge -useContext -underBinder +onlyGivenNames x7
      have h7 : Keeps s0 x7 := by
        unfold x7
        refine State.bump_keeps ?_ _
        exact h6
      extract_lets -merge -useContext -underBinder +onlyGivenNames x8
      have h8 : Keeps s0 x8 := by
        unfold x8
        refine State.setNet_keeps ?_ _
        exact h7
      extract_lets -merge -useContext -underBinder +onlyGivenNames x9
      have h9 : Keeps s0 x9 := by
        unfold x9
        refine Keeps.ite (fun _ => ?_) (fun _ => ?_)
        · exact h7
        · refine State.post_keeps ?_ _ _ _ _ _ _ _ _
          refine State.raise_keeps ?_ _ _
          exact h8
      refine State.spillCheck_keeps ?_ 
      exact h9

theorem execStoreReadback_keeps {s0 s : State} (h : Keeps s0 s) (a_port : Fin 8) (a_cls : Fin 5) (a_ecc : Sys2Proof.ReadEcc) :
    Answers s0 (execStoreReadback a_port a_cls a_ecc s) := by
  refine ⟨_, rfl, ?_⟩
  extract_lets -merge -useContext -underBinder +onlyGivenNames x0
  refine Keeps.ite (fun _ => ?_) (fun _ => ?_)
  · extract_lets -merge -useContext -underBinder +onlyGivenNames x1
    have h1 : Keeps s0 x1 := by
      unfold x1
      refine State.ddrEcc_keeps ?_ _
      exact h
    extract_lets -merge -useContext -underBinder +onlyGivenNames x2
    have h2 : Keeps s0 x2 := by
      unfold x2
      split
      · refine State.setQueue_keeps ?_ _ _ _
        refine State.bump_keeps ?_ _
        exact h1
      · refine State.setQueue_keeps ?_ _ _ _
        exact h1
    refine State.storeFullCheck_keeps ?_ 
    exact h2
  · exact h

theorem execStoreCfgWrite_keeps {s0 s : State} (h : Keeps s0 s) (a_size : Bool) (a_v : Sys2Proof.Word) :
    Answers s0 (execStoreCfgWrite a_size a_v s) := by
  refine ⟨_, rfl, ?_⟩
  refine Keeps.ite (fun _ => ?_) (fun _ => ?_)
  · extract_lets -merge -useContext -underBinder +onlyGivenNames x0
    have h0 : Keeps s0 x0 := by
      unfold x0
      refine Keeps.ite (fun _ => ?_) (fun _ => ?_)
      · refine State.wr_keeps ?_ _ _
        exact h
      · refine State.wr_keeps ?_ _ _
        exact h
    refine State.setNet_keeps ?_ _
    exact h0
  · exact h

theorem execBufMarksWrite_keeps {s0 s : State} (h : Keeps s0 s) (a_spill : Bool) (a_v : Sys2Proof.Word) :
    Answers s0 (execBufMarksWrite a_spill a_v s) := by
  refine ⟨_, rfl, ?_⟩
  extract_lets -merge -useContext -underBinder +onlyGivenNames x0
  extract_lets -merge -useContext -underBinder +onlyGivenNames x1
  extract_lets -merge -useContext -underBinder +onlyGivenNames x2
  refine Keeps.ite (fun _ => ?_) (fun _ => ?_)
  · refine State.spillCheck_keeps ?_ 
    refine State.setNet_keeps ?_ _
    refine State.wr_keeps ?_ _ _
    exact h
  · refine State.setNet_keeps ?_ _
    exact h

theorem State.storeRegionCheck_keeps {s0 s : State} (h : Keeps s0 s)  :
    Keeps s0 (State.storeRegionCheck s) := by
  unfold State.storeRegionCheck
  refine Keeps.ite (fun _ => ?_) (fun _ => ?_)
  · refine State.setNet_keeps ?_ _
    exact h
  · exact h

theorem execDdrTrainingDone_keeps {s0 s : State} (h : Keeps s0 s) (a_fail : Option (Fin 6)) :
    Answers s0 (execDdrTrainingDone a_fail s) := by
  refine ⟨_, rfl, ?_⟩
  refine Keeps.ite (fun _ => ?_) (fun _ => ?_)
  · split
    · refine State.storeRegionCheck_keeps ?_ 
      refine State.raise_keeps ?_ _ _
      refine State.wr_keeps ?_ _ _
      exact h
    · refine State.raise_keeps ?_ _ _
      refine State.wr_keeps ?_ _ _
      exact h
  · exact h

theorem execQuietPeriodEnd_keeps {s0 s : State} (h : Keeps s0 s)  :
    Answers s0 (execQuietPeriodEnd s) := by
  refine ⟨_, rfl, ?_⟩
  split
  · refine Keeps.ite (fun _ => ?_) (fun _ => ?_)
    · exact h
    · refine State.setNet_keeps ?_ _
      exact h
  · exact h

theorem State.setRing_keeps {s0 s : State} (h : Keeps s0 s) (a_f : Sys2Proof.Machine.RingSt → Sys2Proof.Machine.RingSt) :
    Keeps s0 (State.setRing s a_f) := by
  unfold State.setRing
  refine Keeps.mk_upd ?_ rfl
  exact h

theorem State.setSide_keeps {s0 s : State} (h : Keeps s0 s) (a_port : ℕ) (a_f : Sys2Proof.Machine.RingSide → Sys2Proof.Machine.RingSide) :
    Keeps s0 (State.setSide s a_port a_f) := by
  unfold State.setSide
  refine State.setRing_keeps ?_ _
  exact h

theorem State.ringPost_keeps {s0 s : State} (h : Keeps s0 s) (a_ty : ℕ) (a_irq : ℕ) (a_flags : ℕ) (a_w4 : Sys2Proof.Word) (a_w5 : Sys2Proof.Word) (a_w6 : Sys2Proof.Word) (a_w7 : Sys2Proof.Word) :
    Keeps s0 (State.ringPost s a_ty a_irq a_flags a_w4 a_w5 a_w6 a_w7) := by
  unfold State.ringPost
  refine State.post_keeps ?_ _ _ _ _ _ _ _ _
  refine State.raise_keeps ?_ _ _
  exact h

theorem State.ringBroken_keeps {s0 s : State} (h : Keeps s0 s) (a_port : ℕ) :
    Keeps s0 (State.ringBroken s a_port).2 := by
  unfold State.ringBroken
  refine Keeps.ite2 (fun _ => ?_) (fun _ => ?_)
  · refine Keeps.pair2 ?_
    refine State.bump_keeps ?_ _
    refine State.setSide_keeps ?_ _ _
    exact h
  · refine Keeps.pair2 ?_
    exact h

theorem State.portBroken_keeps {s0 s : State} (h : Keeps s0 s) (a_port : ℕ) (a_cause : ℕ) :
    Keeps s0 (State.portBroken s a_port a_cause) := by
  unfold State.portBroken
  refine Keeps.ite (fun _ => ?_) (fun _ => ?_)
  · exact h
  · extract_lets -merge -useContext -underBinder +onlyGivenNames x0
    have h0 : Keeps s0 x0 := by
      unfold x0
      refine State.setRing_keeps ?_ _
      exact h
    extract_lets -merge -useContext -underBinder +onlyGivenNames x1
    extract_lets -merge -useContext -underBinder +onlyGivenNames x2
    have h2 : Keeps s0 x2 := by
      unfold x2
      refine State.ringPost_keeps ?_ _ _ _ _ _ _ _
      exact h0
    extract_lets -merge -useContext -underBinder +onlyGivenNames x3
    have h3 : Keeps s0 x3 := by
      unfold x3
      refine State.ringBroken_keeps ?_ _
      exact h2
    refine State.originateTwo_keeps ?_ _ _ _ _ _ _ _
    exact h3

theorem State.portHeals_keeps {s0 s : State} (h : Keeps s0 s) (a_port : ℕ) :
    Keeps s0 (State.portHeals s a_port) := by
  unfold State.portHeals
  refine Keeps.ite (fun _ => ?_) (fun _ => ?_)
  · refine State.setRing_keeps ?_ _
    exact h
  · exact h

theorem State.couplerCheck_keeps {s0 s : State} (h : Keeps s0 s)  :
    Keeps s0 (State.couplerCheck s) := by
  unfold State.couplerCheck
  extract_lets -merge -useContext -underBinder +onlyGivenNames x0
  refine Keeps.ite (fun _ => ?_) (fun _ => ?_)
  · exact h
  · extract_lets -merge -useContext -underBinder +onlyGivenNames x1
    have h1 : Keeps s0 x1 := by
      unfold x1
      refine State.setRing_keeps ?_ _
      exact h
    refine Keeps.ite (fun _ => ?_) (fun _ => ?_)
    · refine State.ringPost_keeps ?_ _ _ _ _ _ _ _
      exact h1
    · exact h1

theorem State.setLink_keeps {s0 s : State} (h : Keeps s0 s) (a_n : ℕ) (a_f : Sys2Proof.Machine.LinkSt → Sys2Proof.Machine.LinkSt) :
    Keeps s0 (State.setLink s a_n a_f) := by
  unfold State.setLink
  refine State.setNet_keeps ?_ _
  exact h

theorem State.linkTo_keeps {s0 s : State} (h : Keeps s0 s) (a_n : ℕ) (a_st : ℕ) :
    Keeps s0 (State.linkTo s a_n a_st) := by
  unfold State.linkTo
  refine State.setLink_keeps ?_ _ _
  exact h

theorem State.fpFail_keeps {s0 s : State} (h : Keeps s0 s) (a_port : ℕ) (a_check : ℕ) (a_item : ℕ) (a_value : Sys2Proof.Word) (a_counter : ℕ) :
    Keeps s0 (State.fpFail s a_port a_check a_item a_value a_counter) := by
  unfold State.fpFail
  refine State.qualFail_keeps ?_ _ _ _ _ _
  refine State.raise_keeps ?_ _ _
  exact h

theorem State.emptyPort_keeps {s0 s : State} (h : Keeps s0 s) (a_port : ℕ) :
    Keeps s0 (State.emptyPort s a_port) := by
  unfold State.emptyPort
  extract_lets -merge -useContext -underBinder +onlyGivenNames x0
  extract_lets -merge -useContext -underBinder +onlyGivenNames x1
  have h1 : Keeps s0 x1 := by
    unfold x1
    refine Keeps.foldl ?_ (fun y2 a2 h2 => ?_)
    · exact h
    · refine State.setQueue_keeps ?_ _ _ _
      exact h2
  refine State.storeFullCheck_keeps ?_ 
  refine State.spillCheck_keeps ?_ 
  refine State.bumpBy_keeps ?_ _ _
  refine State.setSending_keeps ?_ _ _
  exact h1

theorem State.linkFail_keeps {s0 s : State} (h : Keeps s0 s) (a_port : ℕ) (a_cause : ℕ) :
    Keeps s0 (State.linkFail s a_port a_cause) := by
  unfold State.linkFail
  refine State.fpFail_keeps ?_ _ _ _ _ _
  refine State.linkTo_keeps ?_ _ _
  exact h

theorem State.linkLeaveUp_keeps {s0 s : State} (h : Keeps s0 s) (a_port : ℕ) (a_cause : ℕ) (a_dest : ℕ) :
    Keeps s0 (State.linkLeaveUp s a_port a_cause a_dest) := by
  unfold State.linkLeaveUp
  extract_lets -merge -useContext -underBinder +onlyGivenNames x0
  extract_lets -merge -useContext -underBinder +onlyGivenNames x1
  have h1 : Keeps s0 x1 := by
    unfold x1
    refine State.bump_keeps ?_ _
    refine State.setLink_keeps ?_ _ _
    exact h
  extract_lets -merge -useContext -underBinder +onlyGivenNames x2
  have h2 : Keeps s0 x2 := by
    unfold x2
    refine State.post_keeps ?_ _ _ _ _ _ _ _ _
    refine State.raise_keeps ?_ _ _
    exact h1
  refine State.couplerCheck_keeps ?_ 
  refine State.portBroken_keeps ?_ _ _
  refine State.emptyPort_keeps ?_ _
  exact h2

theorem State.linkStart_keeps {s0 s : State} (h : Keeps s0 s) (a_port : ℕ) :
    Keeps s0 (State.linkStart s a_port) := by
  unfold State.linkStart
  refine State.setLink_keeps ?_ _ _
  exact h

theorem State.fpEnable_keeps {s0 s : State} (h : Keeps s0 s) (a_port : ℕ) (a_en : Bool) :
    Keeps s0 (State.fpEnable s a_port a_en) := by
  unfold State.fpEnable
  extract_lets -merge -useContext -underBinder +onlyGivenNames x0
  refine Keeps.ite (fun _ => ?_) (fun _ => ?_)
  · refine Keeps.ite (fun _ => ?_) (fun _ => ?_)
    · refine State.linkStart_keeps ?_ _
      exact h
    · exact h
  · refine Keeps.ite (fun _ => ?_) (fun _ => ?_)
    · refine State.linkLeaveUp_keeps ?_ _ _ _
      exact h
    · refine State.linkTo_keeps ?_ _ _
      exact h

theorem State.linkBegin_keeps {s0 s : State} (h : Keeps s0 s) (a_port : ℕ) :
    Keeps s0 (State.linkBegin s a_port) := by
  unfold State.linkBegin
  refine Keeps.ite (fun _ => ?_) (fun _ => ?_)
  · refine State.fpEnable_keeps ?_ _ _
    exact h
  · exact h

theorem execTrainingComplete_keeps {s0 s : State} (h : Keeps s0 s) (a_port : Fin 4) (a_fec : Bool) (a_txeq : Sys2Proof.Word) (a_rxeq : Sys2Proof.Word) :
    Answers s0 (execTrainingComplete a_port a_fec a_txeq a_rxeq s) := by
  refine ⟨_, rfl, ?_⟩
  extract_lets -merge -useContext -underBinder +onlyGivenNames x0
  have h0 : Keeps s0 x0 := by
    unfold x0
    refine State.linkBegin_keeps ?_ _
    exact h
  refine Keeps.ite (fun _ => ?_) (fun _ => ?_)
  · extract_lets -merge -useContext -underBinder +onlyGivenNames x1
    have h1 : Keeps s0 x1 := by
      unfold x1
      refine State.setLink_keeps ?_ _ _
      exact h0
    refine State.wr_keeps ?_ _ _
    refine State.wr_keeps ?_ _ _
    exact h1
  · exact h0

theorem execTrainingTimeout_keeps {s0 s : State} (h : Keeps s0 s) (a_port : Fin 4) :
    Answers s0 (execTrainingTimeout a_port s) := by
  refine ⟨_, rfl, ?_⟩
  extract_lets -merge -useContext -underBinder +onlyGivenNames x0
  have h0 : Keeps s0 x0 := by
    unfold x0
    refine State.linkBegin_keeps ?_ _
    exact h
  refine Keeps.ite (fun _ => ?_) (fun _ => ?_)
  · refine State.linkFail_keeps ?_ _ _
    exact h0
  · exact h0

theorem execBlockLockAcquired_keeps {s0 s : State} (h : Keeps s0 s) (a_port : Fin 4) :
    Answers s0 (execBlockLockAcquired a_port s) := by
  refine ⟨_, rfl, ?_⟩
  extract_lets -merge -useContext -underBinder +onlyGivenNames x0
  have h0 : Keeps s0 x0 := by
    unfold x0
    refine State.linkBegin_keeps ?_ _
    exact h
  refine Keeps.ite (fun _ => ?_) (fun _ => ?_)
  · refine State.setLink_keeps ?_ _ _
    exact h0
  · exact h0

theorem execLockingTimeout_keeps {s0 s : State} (h : Keeps s0 s) (a_port : Fin 4) :
    Answers s0 (execLockingTimeout a_port s) := by
  refine ⟨_, rfl, ?_⟩
  extract_lets -merge -useContext -underBinder +onlyGivenNames x0
  have h0 : Keeps s0 x0 := by
    unfold x0
    refine State.linkBegin_keeps ?_ _
    exact h
  refine Keeps.ite (fun _ => ?_) (fun _ => ?_)
  · refine State.linkFail_keeps ?_ _ _
    exact h0
  · exact h0

theorem execUpHoldExpiry_keeps {s0 s : State} (h : Keeps s0 s) (a_port : Fin 4) :
    Answers s0 (execUpHoldExpiry a_port s) := by
  refine ⟨_, rfl, ?_⟩
  refine Keeps.ite (fun _ => ?_) (fun _ => ?_)
  · extract_lets -merge -useContext -underBinder +onlyGivenNames x0
    extract_lets -merge -useContext -underBinder +onlyGivenNames x1
    extract_lets -merge -useContext -underBinder +onlyGivenNames x2
    have h2 : Keeps s0 x2 := by
      unfold x2
      refine State.setLink_keeps ?_ _ _
      exact h
    extract_lets -merge -useContext -underBinder +onlyGivenNames x3
    have h3 : Keeps s0 x3 := by
      unfold x3
      refine State.post_keeps ?_ _ _ _ _ _ _ _ _
      refine State.raise_keeps ?_ _ _
      exact h2
    refine State.couplerCheck_keeps ?_ 
    refine State.portHeals_keeps ?_ _
    exact h3
  · exact h

theorem State.degrade_keeps {s0 s : State} (h : Keeps s0 s) (a_port : ℕ) :
    Keeps s0 (State.degrade s a_port) := by
  unfold State.degrade
  refine State.linkLeaveUp_keeps ?_ _ _ _
  refine State.raise_keeps ?_ _ _
  refine State.bump_keeps ?_ _
  exact h

theorem execHoldDownExpiry_keeps {s0 s : State} (h : Keeps s0 s) (a_port : Fin 4) :
    Answers s0 (execHoldDownExpiry a_port s) := by
  refine ⟨_, rfl, ?_⟩
  refine Keeps.ite (fun _ => ?_) (fun _ => ?_)
  · refine State.linkStart_keeps ?_ _
    exact h
  · exact h

theorem execFpCheckClear_keeps {s0 s : State} (h : Keeps s0 s) (a_port : Fin 4) (a_check : ℕ) :
    Answers s0 (execFpCheckClear a_port a_check s) := by
  refine ⟨_, rfl, ?_⟩
  extract_lets -merge -useContext -underBinder +onlyGivenNames x0
  refine Keeps.ite (fun _ => ?_) (fun _ => ?_)
  · refine Keeps.foldl ?_ (fun y1 a1 h1 => ?_)
    · exact h
    · refine State.qualClear_keeps ?_ _ _ _ _
      exact h1
  · exact h

theorem State.dupAccept_keeps {s0 s : State} (h : Keeps s0 s) (a_port : ℕ) (a_src : ℕ) (a_cls : ℕ) (a_seq : ℕ) :
    Keeps s0 (State.dupAccept s a_port a_src a_cls a_seq).2 := by
  unfold State.dupAccept
  split
  · extract_lets -merge -useContext -underBinder +onlyGivenNames x1
    have h1 : Keeps s0 x1 := by
      unfold x1
      refine State.setNet_keeps ?_ _
      exact h
    extract_lets -merge -useContext -underBinder +onlyGivenNames x2
    have h2 : Keeps s0 x2 := by
      unfold x2
      refine Keeps.ite (fun _ => ?_) (fun _ => ?_)
      · refine State.bump_keeps ?_ _
        exact h1
      · exact h1
    extract_lets -merge -useContext -underBinder +onlyGivenNames x3
    have h3 : Keeps s0 x3 := by
      unfold x3
      split
      · refine State.qualFail_keeps ?_ _ _ _ _ _
        refine State.raise_keeps ?_ _ _
        refine State.raise_keeps ?_ _ _
        exact h2
      · exact h2
    split
    · refine Keeps.pair2 ?_
      exact h3
    · refine Keeps.pair2 ?_
      refine State.bump_keeps ?_ _
      exact h3
    · refine Keeps.pair2 ?_
      refine State.bump_keeps ?_ _
      exact h3

theorem State.headlandAccept_keeps {s0 s : State} (h : Keeps s0 s) (a_src : ℕ) (a_cls : ℕ) (a_seq : ℕ) :
    Keeps s0 (State.headlandAccept s a_src a_cls a_seq).2 := by
  unfold State.headlandAccept
  split
  · extract_lets -merge -useContext -underBinder +onlyGivenNames x1
    have h1 : Keeps s0 x1 := by
      unfold x1
      refine State.setNet_keeps ?_ _
      exact h
    extract_lets -merge -useContext -underBinder +onlyGivenNames x2
    have h2 : Keeps s0 x2 := by
      unfold x2
      split
      · refine State.qualFail_keeps ?_ _ _ _ _ _
        refine State.raise_keeps ?_ _ _
        exact h1
      · exact h1
    refine Keeps.pair2 ?_
    exact h2

theorem execDupEntryAge_keeps {s0 s : State} (h : Keeps s0 s) (a_headland : Bool) (a_src : BitVec 16) :
    Answers s0 (execDupEntryAge a_headland a_src s) := by
  refine ⟨_, rfl, ?_⟩
  extract_lets -merge -useContext -underBinder +onlyGivenNames x0
  refine State.setNet_keeps ?_ _
  exact h

theorem State.noteError_keeps {s0 s : State} (h : Keeps s0 s) (a_port : ℕ) :
    Keeps s0 (State.noteError s a_port) := by
  unfold State.noteError
  extract_lets -merge -useContext -underBinder +onlyGivenNames x0
  have h0 : Keeps s0 x0 := by
    unfold x0
    refine State.setLink_keeps ?_ _ _
    exact h
  refine Keeps.ite (fun _ => ?_) (fun _ => ?_)
  · refine State.degrade_keeps ?_ _
    exact h0
  · exact h0

theorem State.fpFailNoted_keeps {s0 s : State} (h : Keeps s0 s) (a_port : ℕ) (a_check : ℕ) (a_value : Sys2Proof.Word) (a_counter : ℕ) :
    Keeps s0 (State.fpFailNoted s a_port a_check a_value a_counter) := by
  unfold State.fpFailNoted
  refine State.noteError_keeps ?_ _
  refine State.fpFail_keeps ?_ _ _ _ _ _
  exact h

theorem State.stompAt_keeps {s0 s : State} (h : Keeps s0 s) (a_e : ℕ) (a_f : Sys2Proof.Machine.QFrame) :
    Keeps s0 (State.stompAt s a_e a_f) := by
  unfold State.stompAt
  refine Keeps.ite (fun _ => ?_) (fun _ => ?_)
  · refine State.mirror_keeps ?_ _ _ _
    refine State.bump_keeps ?_ _
    refine State.bump_keeps ?_ _
    exact h
  · exact h

theorem State.stompAll_keeps {s0 s : State} (h : Keeps s0 s) (a_outs : List (ℕ × Sys2Proof.Machine.QFrame)) :
    Keeps s0 (State.stompAll s a_outs) := by
  unfold State.stompAll
  refine Keeps.foldl ?_ (fun y0 a0 h0 => ?_)
  · exact h
  · refine State.stompAt_keeps ?_ _ _
    exact h0

theorem State.badFcs_keeps {s0 s : State} (h : Keeps s0 s) (a_port : ℕ) (a_fcs : Sys2Proof.FcsEnd) (a_outs : List (ℕ × Sys2Proof.Machine.QFrame)) :
    Keeps s0 (State.badFcs s a_port a_fcs a_outs) := by
  unfold State.badFcs
  extract_lets -merge -useContext -underBinder +onlyGivenNames x0
  have h0 : Keeps s0 x0 := by
    unfold x0
    refine State.stompAll_keeps ?_ _
    exact h
  refine Keeps.ite (fun _ => ?_) (fun _ => ?_)
  · refine State.bump_keeps ?_ _
    exact h0
  · refine State.fpFailNoted_keeps ?_ _ _ _ _
    exact h0

theorem State.turnFrame_keeps {s0 s : State} (h : Keeps s0 s) (a_port : ℕ) (a_b : List Sys2Proof.Byte) (a_judged : Bool) (a_rx : Option Sys2Proof.TimePoint) :
    Keeps s0 (State.turnFrame s a_port a_b a_judged a_rx) := by
  unfold State.turnFrame
  refine Keeps.ite (fun _ => ?_) (fun _ => ?_)
  · exact h
  · refine Keeps.ite (fun _ => ?_) (fun _ => ?_)
    · refine Keeps.ite (fun _ => ?_) (fun _ => ?_)
      · refine State.bump_keeps ?_ _
        exact h
      · exact h
    · split
      · next y0_0 y0_1 e0 =>
          have g0 : Keeps s0 y0_1 := by
            refine Keeps.of2 e0 ?_
            refine Keeps.ite2 (fun _ => ?_) (fun _ => ?_)
            · refine Keeps.pair2 ?_
              exact h
            · refine State.headlandAccept_keeps ?_ _ _ _
              exact h
          refine Keeps.ite (fun _ => ?_) (fun _ => ?_)
          · refine State.bump_keeps ?_ _
            exact g0
          · extract_lets -merge -useContext -underBinder +onlyGivenNames x1
            extract_lets -merge -useContext -underBinder +onlyGivenNames x2
            refine State.setNet_keeps ?_ _
            refine State.bump_keeps ?_ _
            exact g0

theorem State.localCopy_keeps {s0 s : State} (h : Keeps s0 s) (a_f : Sys2Proof.Machine.QFrame) (a_primary : Bool) :
    Keeps s0 (State.localCopy s a_f a_primary) := by
  unfold State.localCopy
  refine Keeps.ite (fun _ => ?_) (fun _ => ?_)
  · refine State.takeFrame_keeps ?_ _ _
    exact h
  · refine State.setNet_keeps ?_ _
    exact h

theorem State.deliver_keeps {s0 s : State} (h : Keeps s0 s) (a_f : Sys2Proof.Machine.QFrame) (a_primary : Bool) :
    Keeps s0 (State.deliver s a_f a_primary) := by
  unfold State.deliver
  refine Keeps.ite (fun _ => ?_) (fun _ => ?_)
  · refine State.handOver_keeps ?_ _ _
    exact h
  · refine State.localCopy_keeps ?_ _ _
    exact h

theorem State.passFrame_keeps {s0 s : State} (h : Keeps s0 s) (a_port : ℕ) (a_b : List Sys2Proof.Byte) (a_judged : Bool) :
    Keeps s0 (State.passFrame s a_port a_b a_judged) := by
  unfold State.passFrame
  extract_lets -merge -useContext -underBinder +onlyGivenNames x0
  extract_lets -merge -useContext -underBinder +onlyGivenNames x1
  extract_lets -merge -useContext -underBinder +onlyGivenNames x2
  extract_lets -merge -useContext -underBinder +onlyGivenNames x3
  have h3 : Keeps s0 x3 := by
    unfold x3
    refine State.mirror_keeps ?_ _ _ _
    exact h
  refine Keeps.ite (fun _ => ?_) (fun _ => ?_)
  · refine State.deliver_keeps ?_ _ _
    exact h3
  · extract_lets -merge -useContext -underBinder +onlyGivenNames x4
    extract_lets -merge -useContext -underBinder +onlyGivenNames x5
    have h5 : Keeps s0 x5 := by
      unfold x5
      refine Keeps.ite (fun _ => ?_) (fun _ => ?_)
      · exact h3
      · refine State.takeFrame_keeps ?_ _ _
        exact h3
    extract_lets -merge -useContext -underBinder +onlyGivenNames x6
    have h6 : Keeps s0 x6 := by
      unfold x6
      refine State.turnFrame_keeps ?_ _ _ _ _
      exact h5
    refine Keeps.ite (fun _ => ?_) (fun _ => ?_)
    · split
      · next y7_0 y7_1 e7 =>
          have g7 : Keeps s0 y7_1 := by
            refine Keeps.of2 e7 ?_
            refine State.dupAccept_keeps ?_ _ _ _ _
            exact h6
          refine Keeps.ite (fun _ => ?_) (fun _ => ?_)
          · refine State.deliver_keeps ?_ _ _
            exact g7
          · exact g7
    · exact h6

theorem State.mirrorRx_keeps {s0 s : State} (h : Keeps s0 s) (a_port : ℕ) (a_w : Sys2Proof.WireFrame) (a_native : Bool) :
    Keeps s0 (State.mirrorRx s a_port a_w a_native) := by
  unfold State.mirrorRx
  refine Keeps.ite (fun _ => ?_) (fun _ => ?_)
  · refine State.mirror_keeps ?_ _ _ _
    exact h
  · exact h

theorem State.ptpFrame_keeps {s0 s : State} (h : Keeps s0 s) (a_port : ℕ) (a_b : List Sys2Proof.Byte) :
    Keeps s0 (State.ptpFrame s a_port a_b) := by
  unfold State.ptpFrame
  refine State.setNet_keeps ?_ _
  exact h

theorem State.receiveNative_keeps {s0 s : State} (h : Keeps s0 s) (a_port : ℕ) (a_w : Sys2Proof.WireFrame) :
    Keeps s0 (State.receiveNative s a_port a_w) := by
  unfold State.receiveNative
  extract_lets -merge -useContext -underBinder +onlyGivenNames x0
  extract_lets -merge -useContext -underBinder +onlyGivenNames x1
  refine Keeps.ite (fun _ => ?_) (fun _ => ?_)
  · refine Keeps.ite (fun _ => ?_) (fun _ => ?_)
    · refine Keeps.ite (fun _ => ?_) (fun _ => ?_)
      · refine State.ptpFrame_keeps ?_ _ _
        refine State.mirrorRx_keeps ?_ _ _ _
        exact h
      · refine State.badFcs_keeps ?_ _ _ _
        exact h
    · refine State.fpFail_keeps ?_ _ _ _ _ _
      exact h
  · refine Keeps.ite (fun _ => ?_) (fun _ => ?_)
    · refine State.fpFailNoted_keeps ?_ _ _ _ _
      exact h
    · refine Keeps.ite (fun _ => ?_) (fun _ => ?_)
      · refine State.fpFailNoted_keeps ?_ _ _ _ _
        exact h
      · refine Keeps.ite (fun _ => ?_) (fun _ => ?_)
        · refine State.fpFail_keeps ?_ _ _ _ _ _
          exact h
        · extract_lets -merge -useContext -underBinder +onlyGivenNames x2
          split
          · next y3_0 y3_1 e3 =>
              have g3 : Keeps s0 y3_1 := by
                refine Keeps.of2 e3 ?_
                refine Keeps.ite2 (fun _ => ?_) (fun _ => ?_)
                · refine State.headlandAccept_keeps ?_ _ _ _
                  exact h
                · refine Keeps.pair2 ?_
                  exact h
              refine Keeps.ite (fun _ => ?_) (fun _ => ?_)
              · refine State.bump_keeps ?_ _
                refine State.mirrorRx_keeps ?_ _ _ _
                exact g3
              · refine Keeps.ite (fun _ => ?_) (fun _ => ?_)
                · extract_lets -merge -useContext -underBinder +onlyGivenNames x4
                  have h4 : Keeps s0 x4 := by
                    unfold x4
                    refine State.mirrorRx_keeps ?_ _ _ _
                    exact g3
                  extract_lets -merge -useContext -underBinder +onlyGivenNames x5
                  have h5 : Keeps s0 x5 := by
                    unfold x5
                    refine Keeps.ite (fun _ => ?_) (fun _ => ?_)
                    · refine State.setNet_keeps ?_ _
                      exact h4
                    · exact h4
                  refine State.bump_keeps ?_ _
                  exact h5
                · refine Keeps.ite (fun _ => ?_) (fun _ => ?_)
                  · refine State.fpFail_keeps ?_ _ _ _ _ _
                    exact g3
                  · refine Keeps.ite (fun _ => ?_) (fun _ => ?_)
                    · refine State.badFcs_keeps ?_ _ _ _
                      exact g3
                    · refine State.passFrame_keeps ?_ _ _ _
                      exact g3

theorem State.deliverPlain_keeps {s0 s : State} (h : Keeps s0 s) (a_port : ℕ) (a_b : List Sys2Proof.Byte) (a_primary : Bool) :
    Keeps s0 (State.deliverPlain s a_port a_b a_primary) := by
  unfold State.deliverPlain
  refine Keeps.ite (fun _ => ?_) (fun _ => ?_)
  · refine State.ptpFrame_keeps ?_ _ _
    exact h
  · refine Keeps.ite (fun _ => ?_) (fun _ => ?_)
    · exact h
    · refine State.localCopy_keeps ?_ _ _
      exact h

theorem State.receiveHsr_keeps {s0 s : State} (h : Keeps s0 s) (a_port : ℕ) (a_b : List Sys2Proof.Byte) :
    Keeps s0 (State.receiveHsr s a_port a_b) := by
  unfold State.receiveHsr
  refine Keeps.ite (fun _ => ?_) (fun _ => ?_)
  · refine Keeps.ite (fun _ => ?_) (fun _ => ?_)
    · refine State.deliverPlain_keeps ?_ _ _ _
      exact h
    · exact h
  · extract_lets -merge -useContext -underBinder +onlyGivenNames x0
    extract_lets -merge -useContext -underBinder +onlyGivenNames x1
    extract_lets -merge -useContext -underBinder +onlyGivenNames x2
    refine Keeps.ite (fun _ => ?_) (fun _ => ?_)
    · refine State.bump_keeps ?_ _
      exact h
    · extract_lets -merge -useContext -underBinder +onlyGivenNames x3
      extract_lets -merge -useContext -underBinder +onlyGivenNames x4
      have h4 : Keeps s0 x4 := by
        unfold x4
        refine Keeps.ite (fun _ => ?_) (fun _ => ?_)
        · refine State.takeFrame_keeps ?_ _ _
          refine State.setNet_keeps ?_ _
          exact h
        · exact h
      refine Keeps.ite (fun _ => ?_) (fun _ => ?_)
      · refine State.bump_keeps ?_ _
        exact h4
      · extract_lets -merge -useContext -underBinder +onlyGivenNames x5
        have h5 : Keeps s0 x5 := by
          unfold x5
          refine State.setNet_keeps ?_ _
          exact h4
        refine Keeps.ite (fun _ => ?_) (fun _ => ?_)
        · refine State.deliverPlain_keeps ?_ _ _ _
          exact h5
        · exact h5

theorem State.receivePrp_keeps {s0 s : State} (h : Keeps s0 s) (a_port : ℕ) (a_b : List Sys2Proof.Byte) :
    Keeps s0 (State.receivePrp s a_port a_b) := by
  unfold State.receivePrp
  extract_lets -merge -useContext -underBinder +onlyGivenNames x0
  refine Keeps.ite (fun _ => ?_) (fun _ => ?_)
  · extract_lets -merge -useContext -underBinder +onlyGivenNames x1
    extract_lets -merge -useContext -underBinder +onlyGivenNames x2
    refine Keeps.ite (fun _ => ?_) (fun _ => ?_)
    · refine State.bump_keeps ?_ _
      exact h
    · refine State.deliverPlain_keeps ?_ _ _ _
      refine State.setNet_keeps ?_ _
      exact h
  · refine State.deliverPlain_keeps ?_ _ _ _
    exact h

theorem State.cutFrame_keeps {s0 s : State} (h : Keeps s0 s) (a_port : ℕ) (a_b : List Sys2Proof.Byte) :
    Keeps s0 (State.cutFrame s a_port a_b) := by
  unfold State.cutFrame
  refine Keeps.ite (fun _ => ?_) (fun _ => ?_)
  · refine Keeps.ite (fun _ => ?_) (fun _ => ?_)
    · refine State.stompAll_keeps ?_ _
      exact h
    · exact h
  · refine State.stompAll_keeps ?_ _
    exact h

theorem execLinkDownCondition_keeps {s0 s : State} (h : Keeps s0 s) (a_port : Fin 4) (a_event : Sys2Proof.DownEvent) :
    Answers s0 (execLinkDownCondition a_port a_event s) := by
  refine ⟨_, rfl, ?_⟩
  extract_lets -merge -useContext -underBinder +onlyGivenNames x0
  extract_lets -merge -useContext -underBinder +onlyGivenNames xc
  refine Keeps.ite (fun _ => ?_) (fun _ => ?_)
  · refine Keeps.ite (fun _ => ?_) (fun _ => ?_)
    · refine State.degrade_keeps ?_ _
      exact h
    · exact h
  · extract_lets -merge -useContext -underBinder +onlyGivenNames x1
    have h1 : Keeps s0 x1 := by
      unfold x1
      refine State.setLink_keeps ?_ _ _
      exact h
    refine Keeps.ite (fun _ => ?_) (fun _ => ?_)
    · refine State.linkLeaveUp_keeps ?_ _ _ _
      split
      · refine State.cutFrame_keeps ?_ _ _
        exact h1
      · exact h1
    · refine Keeps.ite (fun _ => ?_) (fun _ => ?_)
      · refine State.linkFail_keeps ?_ _ _
        exact h1
      · exact h1

theorem execFrameReceive_keeps {s0 s : State} (h : Keeps s0 s) (a_port : Fin 4) (a_w : Sys2Proof.WireFrame) :
    Answers s0 (execFrameReceive a_port a_w s) := by
  refine ⟨_, rfl, ?_⟩
  refine Keeps.ite (fun _ => ?_) (fun _ => ?_)
  · exact h
  · extract_lets -merge -useContext -underBinder +onlyGivenNames x0
    have h0 : Keeps s0 x0 := by
      unfold x0
      refine State.bump_keeps ?_ _
      exact h
    refine Keeps.ite (fun _ => ?_) (fun _ => ?_)
    · refine State.receiveNative_keeps ?_ _ _
      exact h0
    · refine Keeps.ite (fun _ => ?_) (fun _ => ?_)
      · refine State.fpFail_keeps ?_ _ _ _ _ _
        exact h0
      · refine Keeps.ite (fun _ => ?_) (fun _ => ?_)
        · refine State.badFcs_keeps ?_ _ _ _
          exact h0
        · extract_lets -merge -useContext -underBinder +onlyGivenNames x1
          have h1 : Keeps s0 x1 := by
            unfold x1
            refine State.mirror_keeps ?_ _ _ _
            exact h0
          refine Keeps.ite (fun _ => ?_) (fun _ => ?_)
          · refine State.receiveHsr_keeps ?_ _ _
            exact h1
          · refine Keeps.ite (fun _ => ?_) (fun _ => ?_)
            · refine State.receivePrp_keeps ?_ _ _
              exact h1
            · exact h1

theorem State.prbsRead_keeps {s0 s : State} (h : Keeps s0 s) (a_port : ℕ) :
    Keeps s0 (State.prbsRead s a_port).2 := by
  unfold State.prbsRead
  refine Keeps.pair2 ?_
  refine State.wr_keeps ?_ _ _
  exact h

theorem execPrbsErrRead_keeps {s0 s : State} (h : Keeps s0 s) (a_port : Fin 4) :
    Answers s0 (execPrbsErrRead a_port s) := by
  refine ⟨_, rfl, ?_⟩
  refine State.answered_keeps ?_ _
  refine State.prbsRead_keeps ?_ _
  exact h

theorem State.idDrop_keeps {s0 s : State} (h : Keeps s0 s) (a_far : Bool) :
    Keeps s0 (State.idDrop s a_far) := by
  unfold State.idDrop
  extract_lets -merge -useContext -underBinder +onlyGivenNames x0
  extract_lets -merge -useContext -underBinder +onlyGivenNames x1
  have h1 : Keeps s0 x1 := by
    unfold x1
    refine Keeps.ite (fun _ => ?_) (fun _ => ?_)
    · exact h
    · refine State.ringPost_keeps ?_ _ _ _ _ _ _ _
      exact h
  extract_lets -merge -useContext -underBinder +onlyGivenNames x2
  have h2 : Keeps s0 x2 := by
    unfold x2
    refine State.setSide_keeps ?_ _ _
    exact h1
  refine Keeps.ite (fun _ => ?_) (fun _ => ?_)
  · exact h2
  · refine State.wr_keeps ?_ _ _
    exact h2

theorem State.idWrite_keeps {s0 s : State} (h : Keeps s0 s) (a_far : Bool) (a_v : Sys2Proof.Word) :
    Keeps s0 (State.idWrite s a_far a_v) := by
  unfold State.idWrite
  extract_lets -merge -useContext -underBinder +onlyGivenNames x0
  extract_lets -merge -useContext -underBinder +onlyGivenNames x1
  refine Keeps.ite (fun _ => ?_) (fun _ => ?_)
  · refine Keeps.ite (fun _ => ?_) (fun _ => ?_)
    · exact h
    · refine State.idDrop_keeps ?_ _
      refine State.wr_keeps ?_ _ _
      exact h
  · extract_lets -merge -useContext -underBinder +onlyGivenNames x2
    have h2 : Keeps s0 x2 := by
      unfold x2
      refine State.wr_keeps ?_ _ _
      exact h
    refine Keeps.ite (fun _ => ?_) (fun _ => ?_)
    · refine State.setRing_keeps ?_ _
      refine State.setSide_keeps ?_ _ _
      exact h2
    · exact h2

theorem execIdCfgWrite_keeps {s0 s : State} (h : Keeps s0 s) (a_v : Sys2Proof.Word) :
    Answers s0 (execIdCfgWrite a_v s) := by
  refine ⟨_, rfl, ?_⟩
  refine State.idWrite_keeps ?_ _ _
  exact h

theorem execFarIdWrite_keeps {s0 s : State} (h : Keeps s0 s) (a_v : Sys2Proof.Word) :
    Answers s0 (execFarIdWrite a_v s) := by
  refine ⟨_, rfl, ?_⟩
  refine State.idWrite_keeps ?_ _ _
  exact h

theorem execIdActivate_keeps {s0 s : State} (h : Keeps s0 s) (a_far : Bool) :
    Answers s0 (execIdActivate a_far s) := by
  refine ⟨_, rfl, ?_⟩
  extract_lets -merge -useContext -underBinder +onlyGivenNames x0
  refine Keeps.ite (fun _ => ?_) (fun _ => ?_)
  · extract_lets -merge -useContext -underBinder +onlyGivenNames x1
    extract_lets -merge -useContext -underBinder +onlyGivenNames x2
    have h2 : Keeps s0 x2 := by
      unfold x2
      refine State.setSide_keeps ?_ _ _
      exact h
    refine Keeps.ite (fun _ => ?_) (fun _ => ?_)
    · exact h2
    · refine State.pubDying_keeps ?_ _
      refine State.wr_keeps ?_ _ _
      exact h2
  · exact h

theorem execNeighbourSend_keeps {s0 s : State} (h : Keeps s0 s)  :
    Answers s0 (execNeighbourSend s) := by
  refine ⟨_, rfl, ?_⟩
  refine Keeps.ite (fun _ => ?_) (fun _ => ?_)
  · refine Keeps.foldl ?_ (fun y0 a0 h0 => ?_)
    · refine State.setRing_keeps ?_ _
      exact h
    · refine Keeps.ite (fun _ => ?_) (fun _ => ?_)
      · refine State.sendLinkLocal_keeps ?_ _ _ _
        exact h0
      · exact h0
  · exact h

theorem execSupervisionSend_keeps {s0 s : State} (h : Keeps s0 s) (a_far : Bool) :
    Answers s0 (execSupervisionSend a_far s) := by
  refine ⟨_, rfl, ?_⟩
  extract_lets -merge -useContext -underBinder +onlyGivenNames x0
  extract_lets -merge -useContext -underBinder +onlyGivenNames x1
  refine Keeps.ite (fun _ => ?_) (fun _ => ?_)
  · extract_lets -merge -useContext -underBinder +onlyGivenNames x2
    have h2 : Keeps s0 x2 := by
      unfold x2
      refine Keeps.ite (fun _ => ?_) (fun _ => ?_)
      · refine State.setSide_keeps ?_ _ _
        exact h
      · exact h
    refine Keeps.ite (fun _ => ?_) (fun _ => ?_)
    · exact h2
    · extract_lets -merge -useContext -underBinder +onlyGivenNames x3
      refine State.setSide_keeps ?_ _ _
      refine State.originateOn_keeps ?_ _ _ _ _ _ _ _
      exact h2
  · exact h

theorem execHsrSupervisionSend_keeps {s0 s : State} (h : Keeps s0 s)  :
    Answers s0 (execHsrSupervisionSend s) := by
  refine ⟨_, rfl, ?_⟩
  extract_lets -merge -useContext -underBinder +onlyGivenNames x0
  have h0 : Keeps s0 x0 := by
    unfold x0
    refine State.setRing_keeps ?_ _
    exact h
  extract_lets -merge -useContext -underBinder +onlyGivenNames x1
  extract_lets -merge -useContext -underBinder +onlyGivenNames x2
  refine Keeps.ite (fun _ => ?_) (fun _ => ?_)
  · exact h
  · refine Keeps.ite (fun _ => ?_) (fun _ => ?_)
    · extract_lets -merge -useContext -underBinder +onlyGivenNames x3
      extract_lets -merge -useContext -underBinder +onlyGivenNames x4
      extract_lets -merge -useContext -underBinder +onlyGivenNames x5
      have h5 : Keeps s0 x5 := by
        unfold x5
        refine State.setNet_keeps ?_ _
        exact h0
      refine State.takeFrame_keeps ?_ _ _
      refine State.takeFrame_keeps ?_ _ _
      exact h5
    · refine Keeps.ite (fun _ => ?_) (fun _ => ?_)
      · extract_lets -merge -useContext -underBinder +onlyGivenNames x6
        extract_lets -merge -useContext -underBinder +onlyGivenNames x7
        extract_lets -merge -useContext -underBinder +onlyGivenNames x8
        have h8 : Keeps s0 x8 := by
          unfold x8
          refine State.setNet_keeps ?_ _
          exact h0
        refine State.takeFrame_keeps ?_ _ _
        refine State.takeFrame_keeps ?_ _ _
        exact h8
      · exact h

theorem State.tryClose_keeps {s0 s : State} (h : Keeps s0 s) (a_port : ℕ) :
    Keeps s0 (State.tryClose s a_port) := by
  unfold State.tryClose
  extract_lets -merge -useContext -underBinder +onlyGivenNames x0
  extract_lets -merge -useContext -underBinder +onlyGivenNames x1
  extract_lets -merge -useContext -underBinder +onlyGivenNames x2
  refine Keeps.ite (fun _ => ?_) (fun _ => ?_)
  · extract_lets -merge -useContext -underBinder +onlyGivenNames x3
    refine State.ringPost_keeps ?_ _ _ _ _ _ _ _
    refine State.setSide_keeps ?_ _ _
    exact h
  · exact h

theorem State.supReturn_keeps {s0 s : State} (h : Keeps s0 s) (a_port : ℕ) (a_seq : ℕ) :
    Keeps s0 (State.supReturn s a_port a_seq) := by
  unfold State.supReturn
  extract_lets -merge -useContext -underBinder +onlyGivenNames x0
  refine Keeps.ite (fun _ => ?_) (fun _ => ?_)
  · extract_lets -merge -useContext -underBinder +onlyGivenNames x1
    have h1 : Keeps s0 x1 := by
      unfold x1
      refine State.setSide_keeps ?_ _ _
      exact h
    extract_lets -merge -useContext -underBinder +onlyGivenNames x2
    refine Keeps.ite (fun _ => ?_) (fun _ => ?_)
    · refine State.tryClose_keeps ?_ _
      refine State.setSide_keeps ?_ _ _
      exact h1
    · exact h1
  · exact h

theorem State.idConflict_keeps {s0 s : State} (h : Keeps s0 s) (a_port : ℕ) (a_other : ℕ) :
    Keeps s0 (State.idConflict s a_port a_other) := by
  unfold State.idConflict
  refine Keeps.ite (fun _ => ?_) (fun _ => ?_)
  · exact h
  · extract_lets -merge -useContext -underBinder +onlyGivenNames x0
    have h0 : Keeps s0 x0 := by
      unfold x0
      refine State.bump_keeps ?_ _
      refine State.setRing_keeps ?_ _
      exact h
    extract_lets -merge -useContext -underBinder +onlyGivenNames x1
    extract_lets -merge -useContext -underBinder +onlyGivenNames x2
    have h2 : Keeps s0 x2 := by
      unfold x2
      refine State.ringPost_keeps ?_ _ _ _ _ _ _ _
      exact h0
    refine Keeps.ite (fun _ => ?_) (fun _ => ?_)
    · extract_lets -merge -useContext -underBinder +onlyGivenNames x3
      refine State.setSide_keeps ?_ _ _
      refine State.idDrop_keeps ?_ _
      refine State.setFld_keeps ?_ _ _ _ _
      exact h2
    · exact h2

theorem State.neighbourHeard_keeps {s0 s : State} (h : Keeps s0 s) (a_port : ℕ) (a_src : ℕ) :
    Keeps s0 (State.neighbourHeard s a_port a_src) := by
  unfold State.neighbourHeard
  extract_lets -merge -useContext -underBinder +onlyGivenNames x0
  have h0 : Keeps s0 x0 := by
    unfold x0
    refine State.setRing_keeps ?_ _
    refine State.wr_keeps ?_ _ _
    exact h
  extract_lets -merge -useContext -underBinder +onlyGivenNames x1
  have h1 : Keeps s0 x1 := by
    unfold x1
    refine Keeps.ite (fun _ => ?_) (fun _ => ?_)
    · refine State.qualClear_keeps ?_ _ _ _ _
      refine State.setRing_keeps ?_ _
      exact h0
    · exact h0
  refine State.portHeals_keeps ?_ _
  exact h1

theorem State.noticeHeard_keeps {s0 s : State} (h : Keeps s0 s) (a_port : ℕ) (a_src : ℕ) (a_p : List Sys2Proof.Byte) :
    Keeps s0 (State.noticeHeard s a_port a_src a_p) := by
  unfold State.noticeHeard
  split
  · next y0_0 y0_1 e0 =>
      have g0 : Keeps s0 y0_1 := by
        refine Keeps.of2 e0 ?_
        refine State.ringBroken_keeps ?_ _
        exact h
      refine Keeps.ite (fun _ => ?_) (fun _ => ?_)
      · refine State.ringPost_keeps ?_ _ _ _ _ _ _ _
        exact g0
      · exact g0

theorem execRingMgmtReceive_keeps {s0 s : State} (h : Keeps s0 s)  :
    Answers s0 (execRingMgmtReceive s) := by
  refine ⟨_, rfl, ?_⟩
  split
  · exact h
  · extract_lets -merge -useContext -underBinder +onlyGivenNames x2
    have h2 : Keeps s0 x2 := by
      unfold x2
      refine State.setNet_keeps ?_ _
      exact h
    extract_lets -merge -useContext -underBinder +onlyGivenNames x3
    extract_lets -merge -useContext -underBinder +onlyGivenNames x4
    extract_lets -merge -useContext -underBinder +onlyGivenNames x5
    extract_lets -merge -useContext -underBinder +onlyGivenNames x6
    refine Keeps.ite (fun _ => ?_) (fun _ => ?_)
    · refine State.qualFail_keeps ?_ _ _ _ _ _
      refine State.raise_keeps ?_ _ _
      exact h2
    · refine Keeps.ite (fun _ => ?_) (fun _ => ?_)
      · refine Keeps.ite (fun _ => ?_) (fun _ => ?_)
        · refine State.idConflict_keeps ?_ _ _
          exact h2
        · refine Keeps.ite (fun _ => ?_) (fun _ => ?_)
          · refine State.supReturn_keeps ?_ _ _
            exact h2
          · exact h2
      · split
        · refine State.neighbourHeard_keeps ?_ _ _
          exact h2
        · refine Keeps.ite (fun _ => ?_) (fun _ => ?_)
          · refine State.setRing_keeps ?_ _
            exact h2
          · exact h2
        · refine State.noticeHeard_keeps ?_ _ _ _
          exact h2

theorem execNeighbourSilent_keeps {s0 s : State} (h : Keeps s0 s) (a_port : Fin 4) :
    Answers s0 (execNeighbourSilent a_port s) := by
  refine ⟨_, rfl, ?_⟩
  refine Keeps.ite (fun _ => ?_) (fun _ => ?_)
  · extract_lets -merge -useContext -underBinder +onlyGivenNames x0
    extract_lets -merge -useContext -underBinder +onlyGivenNames x1
    have h1 : Keeps s0 x1 := by
      unfold x1
      refine State.setRing_keeps ?_ _
      exact h
    extract_lets -merge -useContext -underBinder +onlyGivenNames x2
    have h2 : Keeps s0 x2 := by
      unfold x2
      refine State.setFld_keeps ?_ _ _ _ _
      exact h1
    extract_lets -merge -useContext -underBinder +onlyGivenNames x3
    have h3 : Keeps s0 x3 := by
      unfold x3
      refine State.qualFail_keeps ?_ _ _ _ _ _
      refine State.raise_keeps ?_ _ _
      exact h2
    refine Keeps.ite (fun _ => ?_) (fun _ => ?_)
    · refine State.portBroken_keeps ?_ _ _
      exact h3
    · exact h3
  · exact h

theorem execStationTimeout_keeps {s0 s : State} (h : Keeps s0 s) (a_n : BitVec 8) :
    Answers s0 (execStationTimeout a_n s) := by
  refine ⟨_, rfl, ?_⟩
  refine Keeps.ite (fun _ => ?_) (fun _ => ?_)
  · refine State.setRing_keeps ?_ _
    exact h
  · exact h

theorem execSupervisionMissed_keeps {s0 s : State} (h : Keeps s0 s) (a_far : Bool) :
    Answers s0 (execSupervisionMissed a_far s) := by
  refine ⟨_, rfl, ?_⟩
  extract_lets -merge -useContext -underBinder +onlyGivenNames x0
  extract_lets -merge -useContext -underBinder +onlyGivenNames x1
  refine Keeps.ite (fun _ => ?_) (fun _ => ?_)
  · extract_lets -merge -useContext -underBinder +onlyGivenNames x2
    have h2 : Keeps s0 x2 := by
      unfold x2
      refine State.ringBroken_keeps ?_ _
      exact h
    refine State.ringPost_keeps ?_ _ _ _ _ _ _ _
    exact h2
  · exact h

theorem State.setPtp_keeps {s0 s : State} (h : Keeps s0 s) (a_f : Sys2Proof.Machine.PtpSt → Sys2Proof.Machine.PtpSt) :
    Keeps s0 (State.setPtp s a_f) := by
  unfold State.setPtp
  refine Keeps.mk_upd ?_ rfl
  exact h

theorem State.ptpBad_keeps {s0 s : State} (h : Keeps s0 s)  :
    Keeps s0 (State.ptpBad s) := by
  unfold State.ptpBad
  refine State.raise_keeps ?_ _ _
  refine State.bump_keeps ?_ _
  exact h

theorem State.ptpTake_keeps {s0 s : State} (h : Keeps s0 s) (a_p : Sys2Proof.Machine.Delivered → Bool) :
    Keeps s0 (State.ptpTake s a_p).2 := by
  unfold State.ptpTake
  split
  · extract_lets -merge -useContext -underBinder +onlyGivenNames x1
    have h1 : Keeps s0 x1 := by
      unfold x1
      refine State.setNet_keeps ?_ _
      exact h
    refine Keeps.pair2 ?_
    exact h1
  · refine Keeps.pair2 ?_
    exact h

theorem State.ptpSelect_keeps {s0 s : State} (h : Keeps s0 s)  :
    Keeps s0 (State.ptpSelect s) := by
  unfold State.ptpSelect
  extract_lets -merge -useContext -underBinder +onlyGivenNames x0
  split
  · refine State.setPtp_keeps ?_ _
    exact h
  · extract_lets -merge -useContext -underBinder +onlyGivenNames x3
    extract_lets -merge -useContext -underBinder +onlyGivenNames x4
    extract_lets -merge -useContext -underBinder +onlyGivenNames x5
    extract_lets -merge -useContext -underBinder +onlyGivenNames x6
    extract_lets -merge -useContext -underBinder +onlyGivenNames x7
    have h7 : Keeps s0 x7 := by
      unfold x7
      refine Keeps.ite (fun _ => ?_) (fun _ => ?_)
      · exact h
      · refine State.setPtp_keeps ?_ _
        exact h
    extract_lets -merge -useContext -underBinder +onlyGivenNames x8
    have h8 : Keeps s0 x8 := by
      unfold x8
      refine State.wr_keeps ?_ _ _
      refine State.wr_keeps ?_ _ _
      refine State.wr_keeps ?_ _ _
      exact h7
    extract_lets -merge -useContext -underBinder +onlyGivenNames x9
    have h9 : Keeps s0 x9 := by
      unfold x9
      refine State.wr_keeps ?_ _ _
      exact h8
    refine Keeps.ite (fun _ => ?_) (fun _ => ?_)
    · exact h9
    · refine State.post_keeps ?_ _ _ _ _ _ _ _ _
      refine State.raise_keeps ?_ _ _
      exact h9

theorem execAnnounceReceive_keeps {s0 s : State} (h : Keeps s0 s)  :
    Answers s0 (execAnnounceReceive s) := by
  refine ⟨_, rfl, ?_⟩
  split
  · next y0_0 y0_1 e0 =>
      have g0 : Keeps s0 y0_1 := by
        refine Keeps.of2 e0 ?_
        refine State.ptpTake_keeps ?_ _
        exact h
      extract_lets -merge -useContext -underBinder +onlyGivenNames x1
      refine Keeps.ite (fun _ => ?_) (fun _ => ?_)
      · refine State.ptpBad_keeps ?_ 
        exact g0
      · refine Keeps.ite (fun _ => ?_) (fun _ => ?_)
        · exact g0
        · extract_lets -merge -useContext -underBinder +onlyGivenNames x2
          have h2 : Keeps s0 x2 := by
            unfold x2
            refine State.bump_keeps ?_ _
            exact g0
          extract_lets -merge -useContext -underBinder +onlyGivenNames x3
          extract_lets -merge -useContext -underBinder +onlyGivenNames x4
          extract_lets -merge -useContext -underBinder +onlyGivenNames x5
          extract_lets -merge -useContext -underBinder +onlyGivenNames x6
          have h6 : Keeps s0 x6 := by
            unfold x6
            refine State.setPtp_keeps ?_ _
            exact h2
          refine State.ptpSelect_keeps ?_ 
          exact h6
  · next y7_0 e7 =>
      have g7 : Keeps s0 y7_0 := by
        refine Keeps.of2 e7 ?_
        refine State.ptpTake_keeps ?_ _
        exact h
      exact g7

theorem State.sourceGone_keeps {s0 s : State} (h : Keeps s0 s) (a_src : ℕ) :
    Keeps s0 (State.sourceGone s a_src) := by
  unfold State.sourceGone
  extract_lets -merge -useContext -underBinder +onlyGivenNames x0
  have h0 : Keeps s0 x0 := by
    unfold x0
    refine State.setPtp_keeps ?_ _
    exact h
  refine Keeps.ite (fun _ => ?_) (fun _ => ?_)
  · refine State.stateSet_keeps ?_ _ _
    exact h0
  · exact h0

theorem State.sourceLost_keeps {s0 s : State} (h : Keeps s0 s) (a_source : ℕ) (a_good : Sys2Proof.TimePoint) :
    Keeps s0 (State.sourceLost s a_source a_good) := by
  unfold State.sourceLost
  refine State.post_keeps ?_ _ _ _ _ _ _ _ _
  refine State.raise_keeps ?_ _ _
  exact h

theorem execAnnounceReceiptTimeout_keeps {s0 s : State} (h : Keeps s0 s)  :
    Answers s0 (execAnnounceReceiptTimeout s) := by
  refine ⟨_, rfl, ?_⟩
  split
  · exact h
  · refine Keeps.ite (fun _ => ?_) (fun _ => ?_)
    · exact h
    · extract_lets -merge -useContext -underBinder +onlyGivenNames x2
      have h2 : Keeps s0 x2 := by
        unfold x2
        refine State.setPtp_keeps ?_ _
        refine State.bump_keeps ?_ _
        exact h
      refine Keeps.ite (fun _ => ?_) (fun _ => ?_)
      · refine State.setPtp_keeps ?_ _
        exact h2
      · extract_lets -merge -useContext -underBinder +onlyGivenNames x3
        have h3 : Keeps s0 x3 := by
          unfold x3
          refine Keeps.ite (fun _ => ?_) (fun _ => ?_)
          · exact h2
          · refine State.sourceGone_keeps ?_ _
            refine State.sourceLost_keeps ?_ _ _
            exact h2
        extract_lets -merge -useContext -underBinder +onlyGivenNames x4
        have h4 : Keeps s0 x4 := by
          unfold x4
          refine State.setPtp_keeps ?_ _
          exact h3
        refine State.ptpSelect_keeps ?_ 
        exact h4

theorem execSyncTimeout_keeps {s0 s : State} (h : Keeps s0 s)  :
    Answers s0 (execSyncTimeout s) := by
  refine ⟨_, rfl, ?_⟩
  refine Keeps.ite (fun _ => ?_) (fun _ => ?_)
  · refine State.sourceGone_keeps ?_ _
    refine State.sourceLost_keeps ?_ _ _
    refine State.setPtp_keeps ?_ _
    exact h
  · exact h

theorem State.servoOffset_keeps {s0 s : State} (h : Keeps s0 s) (a_src : ℕ) (a_o : ℤ) (a_h : ℕ) (a_a : ℕ) :
    Keeps s0 (State.servoOffset s a_src a_o a_h a_a) := by
  unfold State.servoOffset
  extract_lets -merge -useContext -underBinder +onlyGivenNames x0
  extract_lets -merge -useContext -underBinder +onlyGivenNames x1
  extract_lets -merge -useContext -underBinder +onlyGivenNames x2
  have h2 : Keeps s0 x2 := by
    unfold x2
    refine State.setPtp_keeps ?_ _
    exact h
  refine Keeps.ite (fun _ => ?_) (fun _ => ?_)
  · refine State.stateSet_keeps ?_ _ _
    exact h2
  · exact h2

theorem State.servoUpdate_keeps {s0 s : State} (h : Keeps s0 s) (a_m : List Sys2Proof.Byte) (a_rx : Sys2Proof.TimePoint) (a_cf : ℤ) (a_h : ℕ) :
    Keeps s0 (State.servoUpdate s a_m a_rx a_cf a_h) := by
  unfold State.servoUpdate
  extract_lets -merge -useContext -underBinder +onlyGivenNames x0
  extract_lets -merge -useContext -underBinder +onlyGivenNames x1
  extract_lets -merge -useContext -underBinder +onlyGivenNames x2
  have h2 : Keeps s0 x2 := by
    unfold x2
    refine State.setPtp_keeps ?_ _
    refine State.bump_keeps ?_ _
    exact h
  refine State.servoOffset_keeps ?_ _ _ _ _
  exact h2

theorem execSyncReceive_keeps {s0 s : State} (h : Keeps s0 s)  :
    Answers s0 (execSyncReceive s) := by
  refine ⟨_, rfl, ?_⟩
  split
  · next y0_0 y0_1 e0 =>
      have g0 : Keeps s0 y0_1 := by
        refine Keeps.of2 e0 ?_
        refine State.ptpTake_keeps ?_ _
        exact h
      extract_lets -merge -useContext -underBinder +onlyGivenNames x1
      refine Keeps.ite (fun _ => ?_) (fun _ => ?_)
      · exact g0
      · refine Keeps.ite (fun _ => ?_) (fun _ => ?_)
        · refine State.ptpBad_keeps ?_ 
          exact g0
        · extract_lets -merge -useContext -underBinder +onlyGivenNames x2
          refine Keeps.ite (fun _ => ?_) (fun _ => ?_)
          · refine State.setPtp_keeps ?_ _
            exact g0
          · refine State.servoUpdate_keeps ?_ _ _ _ _
            exact g0
  · next y3_0 e3 =>
      have g3 : Keeps s0 y3_0 := by
        refine Keeps.of2 e3 ?_
        refine State.ptpTake_keeps ?_ _
        exact h
      exact g3

theorem execFollowUpReceive_keeps {s0 s : State} (h : Keeps s0 s)  :
    Answers s0 (execFollowUpReceive s) := by
  refine ⟨_, rfl, ?_⟩
  split
  · next y0_0 y0_1 e0 =>
      have g0 : Keeps s0 y0_1 := by
        refine Keeps.of2 e0 ?_
        refine State.ptpTake_keeps ?_ _
        exact h
      extract_lets -merge -useContext -underBinder +onlyGivenNames x1
      refine Keeps.ite (fun _ => ?_) (fun _ => ?_)
      · refine State.ptpBad_keeps ?_ 
        exact g0
      · split
        · refine Keeps.ite (fun _ => ?_) (fun _ => ?_)
          · refine State.servoUpdate_keeps ?_ _ _ _ _
            exact g0
          · exact g0
        · exact g0
  · next y4_0 e4 =>
      have g4 : Keeps s0 y4_0 := by
        refine Keeps.of2 e4 ?_
        refine State.ptpTake_keeps ?_ _
        exact h
      exact g4

theorem State.ptpRaw_keeps {s0 s : State} (h : Keeps s0 s) (a_p : ℕ) (a_b : List Sys2Proof.Byte) :
    Keeps s0 (State.ptpRaw s a_p a_b) := by
  unfold State.ptpRaw
  extract_lets -merge -useContext -underBinder +onlyGivenNames x0
  extract_lets -merge -useContext -underBinder +onlyGivenNames x1
  refine State.takeFrame_keeps ?_ _ _
  refine State.mirrorIn_keeps ?_ _ _ _
  exact h

theorem State.ptpLinkLocal_keeps {s0 s : State} (h : Keeps s0 s) (a_p : ℕ) (a_body : List Sys2Proof.Byte) :
    Keeps s0 (State.ptpLinkLocal s a_p a_body) := by
  unfold State.ptpLinkLocal
  refine Keeps.ite (fun _ => ?_) (fun _ => ?_)
  · refine State.sendLinkLocal_keeps ?_ _ _ _
    exact h
  · refine State.ptpRaw_keeps ?_ _ _
    exact h

theorem State.ptpSide_keeps {s0 s : State} (h : Keeps s0 s) (a_announce : Bool) (a_side : ℕ) :
    Keeps s0 (State.ptpSide s a_announce a_side) := by
  unfold State.ptpSide
  extract_lets -merge -useContext -underBinder +onlyGivenNames x0
  have h0 : ∀ w0_0 w0_1, Keeps s0 w0_0 → Keeps s0 (x0 w0_0 w0_1) := by
    intro w0_0 w0_1 hw0
    unfold x0
    refine State.ptpRaw_keeps ?_ _ _
    exact hw0
  refine Keeps.ite (fun _ => ?_) (fun _ => ?_)
  · exact h
  · refine Keeps.ite (fun _ => ?_) (fun _ => ?_)
    · refine Keeps.ite (fun _ => ?_) (fun _ => ?_)
      · extract_lets -merge -useContext -underBinder +onlyGivenNames x1
        refine State.setNet_keeps ?_ _
        refine State.ptpRaw_keeps ?_ _ _
        refine State.ptpRaw_keeps ?_ _ _
        exact h
      · refine State.originateOn_keeps ?_ _ _ _ _ _ _ _
        exact h
    · extract_lets -merge -useContext -underBinder +onlyGivenNames x2
      extract_lets -merge -useContext -underBinder +onlyGivenNames x3
      extract_lets -merge -useContext -underBinder +onlyGivenNames x4
      have h4 : Keeps s0 x4 := by
        unfold x4
        refine Keeps.foldl ?_ (fun y5 a5 h5 => ?_)
        · exact h
        · refine h0 _ _ ?_
          exact h5
      refine Keeps.ite (fun _ => ?_) (fun _ => ?_)
      · refine State.originateOn_keeps ?_ _ _ _ _ _ _ _
        exact h4
      · exact h4

theorem execSyncSend_keeps {s0 s : State} (h : Keeps s0 s) (a_announce : Bool) :
    Answers s0 (execSyncSend a_announce s) := by
  refine ⟨_, rfl, ?_⟩
  extract_lets -merge -useContext -underBinder +onlyGivenNames x0
  have h0 : Keeps s0 x0 := by
    unfold x0
    refine Keeps.ite (fun _ => ?_) (fun _ => ?_)
    · refine State.ptpSelect_keeps ?_ 
      exact h
    · exact h
  extract_lets -merge -useContext -underBinder +onlyGivenNames x1
  extract_lets -merge -useContext -underBinder +onlyGivenNames x2
  have h2 : ∀ w2_0, Keeps s0 w2_0 → Keeps s0 (x2 w2_0) := by
    intro w2_0 hw2
    unfold x2
    refine State.setPtp_keeps ?_ _
    exact hw2
  extract_lets -merge -useContext -underBinder +onlyGivenNames x3
  extract_lets -merge -useContext -underBinder +onlyGivenNames x4
  refine Keeps.ite (fun _ => ?_) (fun _ => ?_)
  · exact h0
  · split
    · refine Keeps.ite (fun _ => ?_) (fun _ => ?_)
      · extract_lets -merge -useContext -underBinder +onlyGivenNames x6
        have h6 : Keeps s0 x6 := by
          unfold x6
          refine State.ptpSide_keeps ?_ _ _
          exact h0
        refine h2 _ ?_
        refine Keeps.ite (fun _ => ?_) (fun _ => ?_)
        · refine State.ptpSide_keeps ?_ _ _
          exact h6
        · exact h6
      · exact h0
    · refine Keeps.ite (fun _ => ?_) (fun _ => ?_)
      · refine h2 _ ?_
        refine State.ptpSide_keeps ?_ _ _
        exact h0
      · exact h0

theorem execPdelayReqSend_keeps {s0 s : State} (h : Keeps s0 s)  :
    Answers s0 (execPdelayReqSend s) := by
  refine ⟨_, rfl, ?_⟩
  refine Keeps.ite (fun _ => ?_) (fun _ => ?_)
  · exact h
  · extract_lets -merge -useContext -underBinder +onlyGivenNames x0
    have h0 : Keeps s0 x0 := by
      unfold x0
      refine State.setPtp_keeps ?_ _
      exact h
    refine Keeps.foldl ?_ (fun y1 a1 h1 => ?_)
    · exact h0
    · refine Keeps.ite (fun _ => ?_) (fun _ => ?_)
      · extract_lets -merge -useContext -underBinder +onlyGivenNames x2
        have h2 : Keeps s0 x2 := by
          unfold x2
          refine Keeps.ite (fun _ => ?_) (fun _ => ?_)
          · refine State.bump_keeps ?_ _
            exact h1
          · exact h1
        extract_lets -merge -useContext -underBinder +onlyGivenNames x3
        refine State.ptpLinkLocal_keeps ?_ _ _
        refine State.setPtp_keeps ?_ _
        exact h2
      · exact h1

theorem execPdelayReqReceive_keeps {s0 s : State} (h : Keeps s0 s)  :
    Answers s0 (execPdelayReqReceive s) := by
  refine ⟨_, rfl, ?_⟩
  split
  · next y0_0 y0_1 e0 =>
      have g0 : Keeps s0 y0_1 := by
        refine Keeps.of2 e0 ?_
        refine State.ptpTake_keeps ?_ _
        exact h
      extract_lets -merge -useContext -underBinder +onlyGivenNames x1
      refine Keeps.ite (fun _ => ?_) (fun _ => ?_)
      · refine State.ptpBad_keeps ?_ 
        exact g0
      · extract_lets -merge -useContext -underBinder +onlyGivenNames x2
        extract_lets -merge -useContext -underBinder +onlyGivenNames x3
        extract_lets -merge -useContext -underBinder +onlyGivenNames x4
        have h4 : Keeps s0 x4 := by
          unfold x4
          refine State.ptpLinkLocal_keeps ?_ _ _
          exact g0
        refine State.ptpLinkLocal_keeps ?_ _ _
        exact h4
  · next y5_0 e5 =>
      have g5 : Keeps s0 y5_0 := by
        refine Keeps.of2 e5 ?_
        refine State.ptpTake_keeps ?_ _
        exact h
      exact g5

theorem State.pdelayDone_keeps {s0 s : State} (h : Keeps s0 s) (a_p : Fin 4) (a_x : ℤ) :
    Keeps s0 (State.pdelayDone s a_p a_x) := by
  unfold State.pdelayDone
  extract_lets -merge -useContext -underBinder +onlyGivenNames x0
  refine State.wr_keeps ?_ _ _
  refine State.setPtp_keeps ?_ _
  exact h

theorem State.pdelayTake_keeps {s0 s : State} (h : Keeps s0 s) (a_p : Fin 4) (a_d : Sys2Proof.Machine.Delivered) :
    Keeps s0 (State.pdelayTake s a_p a_d) := by
  unfold State.pdelayTake
  extract_lets -merge -useContext -underBinder +onlyGivenNames x0
  extract_lets -merge -useContext -underBinder +onlyGivenNames x1
  refine Keeps.ite (fun _ => ?_) (fun _ => ?_)
  · refine State.ptpBad_keeps ?_ 
    exact h
  · refine Keeps.ite (fun _ => ?_) (fun _ => ?_)
    · exact h
    · refine Keeps.ite (fun _ => ?_) (fun _ => ?_)
      · refine Keeps.ite (fun _ => ?_) (fun _ => ?_)
        · refine State.setPtp_keeps ?_ _
          exact h
        · refine State.pdelayDone_keeps ?_ _ _
          exact h
      · split
        · refine State.pdelayDone_keeps ?_ _ _
          exact h
        · exact h

theorem execPdelayRespReceive_keeps {s0 s : State} (h : Keeps s0 s) (a_port : Fin 4) (a_count : ℕ) :
    Answers s0 (execPdelayRespReceive a_port a_count s) := by
  refine ⟨_, rfl, ?_⟩
  extract_lets -merge -useContext -underBinder +onlyGivenNames x0
  extract_lets -merge -useContext -underBinder +onlyGivenNames x1
  extract_lets -merge -useContext -underBinder +onlyGivenNames x2
  extract_lets -merge -useContext -underBinder +onlyGivenNames x3
  have h3 : Keeps s0 x3 := by
    unfold x3
    refine State.setNet_keeps ?_ _
    exact h
  refine Keeps.ite (fun _ => ?_) (fun _ => ?_)
  · exact h3
  · refine Keeps.foldl ?_ (fun y4 a4 h4 => ?_)
    · exact h3
    · refine State.pdelayTake_keeps ?_ _ _
      exact h4

theorem State.setSource_keeps {s0 s : State} (h : Keeps s0 s) (a_k : ℕ) (a_f : Sys2Proof.Machine.LocalSrc → Sys2Proof.Machine.LocalSrc) :
    Keeps s0 (State.setSource s a_k a_f) := by
  unfold State.setSource
  refine Keeps.mk_upd ?_ rfl
  exact h

theorem State.pulseServo_keeps {s0 s : State} (h : Keeps s0 s) (a_k : ℕ) (a_t : Sys2Proof.TimePoint) :
    Keeps s0 (State.pulseServo s a_k a_t) := by
  unfold State.pulseServo
  refine Keeps.ite (fun _ => ?_) (fun _ => ?_)
  · split
    · refine State.servoOffset_keeps ?_ _ _ _ _
      exact h
    · exact h
  · exact h

theorem execPpsPulse_keeps {s0 s : State} (h : Keeps s0 s) (a_src : Fin 65) (a_edge : Sys2Proof.PpsEdge) (a_width : ℕ) :
    Answers s0 (execPpsPulse a_src a_edge a_width s) := by
  refine ⟨_, rfl, ?_⟩
  extract_lets -merge -useContext -underBinder +onlyGivenNames x0
  extract_lets -merge -useContext -underBinder +onlyGivenNames xt
  refine Keeps.ite (fun _ => ?_) (fun _ => ?_)
  · exact h
  · refine Keeps.ite (fun _ => ?_) (fun _ => ?_)
    · extract_lets -merge -useContext -underBinder +onlyGivenNames x1
      have h1 : Keeps s0 x1 := by
        unfold x1
        refine State.pulseServo_keeps ?_ _ _
        refine State.setSource_keeps ?_ _ _
        exact h
      refine Keeps.ite (fun _ => ?_) (fun _ => ?_)
      · exact h1
      · extract_lets -merge -useContext -underBinder +onlyGivenNames x2
        have h2 : Keeps s0 x2 := by
          unfold x2
          refine State.raise_keeps ?_ _ _
          exact h1
        refine Keeps.ite (fun _ => ?_) (fun _ => ?_)
        · refine State.rxPacket_keeps ?_ _ _ _
          exact h2
        · exact h2
    · extract_lets -merge -useContext -underBinder +onlyGivenNames x3
      have h3 : Keeps s0 x3 := by
        unfold x3
        refine State.setSource_keeps ?_ _ _
        exact h
      refine Keeps.ite (fun _ => ?_) (fun _ => ?_)
      · exact h3
      · refine State.qualFail_keeps ?_ _ _ _ _ _
        exact h3

theorem State.channelLost_keeps {s0 s : State} (h : Keeps s0 s) (a_c : ℕ) (a_source : ℕ) :
    Keeps s0 (State.channelLost s a_c a_source) := by
  unfold State.channelLost
  extract_lets -merge -useContext -underBinder +onlyGivenNames x0
  refine State.post_keeps ?_ _ _ _ _ _ _ _ _
  exact h

theorem execPpsSourceLost_keeps {s0 s : State} (h : Keeps s0 s) (a_src : Fin 65) :
    Answers s0 (execPpsSourceLost a_src s) := by
  refine ⟨_, rfl, ?_⟩
  extract_lets -merge -useContext -underBinder +onlyGivenNames x0
  split
  · refine Keeps.ite (fun _ => ?_) (fun _ => ?_)
    · extract_lets -merge -useContext -underBinder +onlyGivenNames x2
      have h2 : Keeps s0 x2 := by
        unfold x2
        refine Keeps.ite (fun _ => ?_) (fun _ => ?_)
        · refine State.sourceLost_keeps ?_ _ _
          exact h
        · refine State.channelLost_keeps ?_ _ _
          exact h
      extract_lets -merge -useContext -underBinder +onlyGivenNames x3
      have h3 : Keeps s0 x3 := by
        unfold x3
        refine Keeps.ite (fun _ => ?_) (fun _ => ?_)
        · refine State.sourceGone_keeps ?_ _
          exact h2
        · exact h2
      refine State.setSource_keeps ?_ _ _
      exact h3
    · exact h
  · exact h

theorem State.irigLost_keeps {s0 s : State} (h : Keeps s0 s) (a_k : ℕ) :
    Keeps s0 (State.irigLost s a_k) := by
  unfold State.irigLost
  extract_lets -merge -useContext -underBinder +onlyGivenNames x0
  have h0 : Keeps s0 x0 := by
    unfold x0
    refine State.channelLost_keeps ?_ _ _
    exact h
  refine State.setSource_keeps ?_ _ _
  refine Keeps.ite (fun _ => ?_) (fun _ => ?_)
  · refine State.sourceGone_keeps ?_ _
    exact h0
  · exact h0

theorem execIrigFrame_keeps {s0 s : State} (h : Keeps s0 s) (a_c : Fin 64) (a_b : BitVec 100) (a_t : Sys2Proof.TimePoint) (a_result : Sys2Proof.IrigEnd) :
    Answers s0 (execIrigFrame a_c a_b a_t a_result s) := by
  refine ⟨_, rfl, ?_⟩
  extract_lets -merge -useContext -underBinder +onlyGivenNames x0
  refine Keeps.ite (fun _ => ?_) (fun _ => ?_)
  · exact h
  · extract_lets -merge -useContext -underBinder +onlyGivenNames x1
    extract_lets -merge -useContext -underBinder +onlyGivenNames x2
    extract_lets -merge -useContext -underBinder +onlyGivenNames x3
    have h3 : ∀ w3_0 w3_1, Keeps s0 w3_0 → Keeps s0 (x3 w3_0 w3_1) := by
      intro w3_0 w3_1 hw3
      unfold x3
      refine Keeps.ite (fun _ => ?_) (fun _ => ?_)
      · refine State.rxPacket_keeps ?_ _ _ _
        exact hw3
      · exact hw3
    extract_lets -merge -useContext -underBinder +onlyGivenNames x4
    have h4 : ∀ w4_0 w4_1, Keeps s0 w4_0 → Keeps s0 (x4 w4_0 w4_1) := by
      intro w4_0 w4_1 hw4
      unfold x4
      extract_lets -merge -useContext -underBinder +onlyGivenNames x5
      have h5 : Keeps s0 x5 := by
        unfold x5
        refine State.qualFail_keeps ?_ _ _ _ _ _
        refine State.raise_keeps ?_ _ _
        exact hw4
      refine State.setSource_keeps ?_ _ _
      refine h3 _ _ ?_
      exact h5
    split
    · refine h4 _ _ ?_
      exact h
    · refine h4 _ _ ?_
      exact h
    · extract_lets -merge -useContext -underBinder +onlyGivenNames x9
      extract_lets -merge -useContext -underBinder +onlyGivenNames x10
      extract_lets -merge -useContext -underBinder +onlyGivenNames x11
      have h11 : Keeps s0 x11 := by
        unfold x11
        refine h3 _ _ ?_
        exact h
      refine Keeps.ite (fun _ => ?_) (fun _ => ?_)
      · refine Keeps.ite (fun _ => ?_) (fun _ => ?_)
        · refine State.irigLost_keeps ?_ _
          exact h11
        · refine State.setSource_keeps ?_ _ _
          exact h11
      · extract_lets -merge -useContext -underBinder +onlyGivenNames x12
        have h12 : Keeps s0 x12 := by
          unfold x12
          refine State.setSource_keeps ?_ _ _
          exact h11
        refine Keeps.ite (fun _ => ?_) (fun _ => ?_)
        · refine State.servoOffset_keeps ?_ _ _ _ _
          exact h12
        · exact h12

theorem execIrigSourceLost_keeps {s0 s : State} (h : Keeps s0 s) (a_c : Fin 64) :
    Answers s0 (execIrigSourceLost a_c s) := by
  refine ⟨_, rfl, ?_⟩
  refine Keeps.ite (fun _ => ?_) (fun _ => ?_)
  · refine State.irigLost_keeps ?_ _
    exact h
  · exact h

theorem State.chTxWrite_keeps {s0 s : State} (h : Keeps s0 s) (a_c : ℕ) (a_w : Sys2Proof.Word) :
    Keeps s0 (State.chTxWrite s a_c a_w) := by
  unfold State.chTxWrite
  extract_lets -merge -useContext -underBinder +onlyGivenNames x0
  extract_lets -merge -useContext -underBinder +onlyGivenNames x1
  have h1 : Keeps s0 x1 := by
    unfold x1
    refine State.tileWake_keeps ?_ _
    refine State.txDataWrite_keeps ?_ _ _
    exact h
  extract_lets -merge -useContext -underBinder +onlyGivenNames x2
  refine Keeps.ite (fun _ => ?_) (fun _ => ?_)
  · exact h1
  · refine Keeps.mk_upd ?_ rfl
    exact h1

theorem State.setSer_keeps {s0 s : State} (h : Keeps s0 s) (a_c : ℕ) (a_f : Sys2Proof.Machine.SerSt → Sys2Proof.Machine.SerSt) :
    Keeps s0 (State.setSer s a_c a_f) := by
  unfold State.setSer
  refine Keeps.mk_upd ?_ rfl
  exact h

theorem State.serStop_keeps {s0 s : State} (h : Keeps s0 s) (a_c : ℕ) :
    Keeps s0 (State.serStop s a_c) := by
  unfold State.serStop
  refine State.setSer_keeps ?_ _ _
  exact h

theorem State.serSent_keeps {s0 s : State} (h : Keeps s0 s) (a_c : ℕ) (a_b : List Sys2Proof.Byte) :
    Keeps s0 (State.serSent s a_c a_b) := by
  unfold State.serSent
  refine State.setSer_keeps ?_ _ _
  exact h

theorem State.serByte_keeps {s0 s : State} (h : Keeps s0 s) (a_c : ℕ) (a_b : Sys2Proof.Byte) :
    Keeps s0 (State.serByte s a_c a_b) := by
  unfold State.serByte
  extract_lets -merge -useContext -underBinder +onlyGivenNames x0
  extract_lets -merge -useContext -underBinder +onlyGivenNames x1
  have h1 : Keeps s0 x1 := by
    unfold x1
    refine State.setSer_keeps ?_ _ _
    exact h
  refine Keeps.ite (fun _ => ?_) (fun _ => ?_)
  · refine State.rxWord_keeps ?_ _ _ _
    exact h1
  · exact h1

theorem State.serBytes_keeps {s0 s : State} (h : Keeps s0 s) (a_c : ℕ) (a_l : List Sys2Proof.Byte) :
    Keeps s0 (State.serBytes s a_c a_l) := by
  unfold State.serBytes
  refine Keeps.foldl ?_ (fun y0 a0 h0 => ?_)
  · exact h
  · refine State.serByte_keeps ?_ _ _
    exact h0

theorem State.serBegin_keeps {s0 s : State} (h : Keeps s0 s) (a_c : ℕ) :
    Keeps s0 (State.serBegin s a_c) := by
  unfold State.serBegin
  refine State.rxBegin_keeps ?_ _
  refine State.setSer_keeps ?_ _ _
  exact h

theorem State.serEnd_keeps {s0 s : State} (h : Keeps s0 s) (a_c : ℕ) (a_status : ℕ) :
    Keeps s0 (State.serEnd s a_c a_status) := by
  unfold State.serEnd
  extract_lets -merge -useContext -underBinder +onlyGivenNames x0
  extract_lets -merge -useContext -underBinder +onlyGivenNames x1
  have h1 : Keeps s0 x1 := by
    unfold x1
    refine Keeps.ite (fun _ => ?_) (fun _ => ?_)
    · exact h
    · refine State.rxWord_keeps ?_ _ _ _
      exact h
  extract_lets -merge -useContext -underBinder +onlyGivenNames x2
  have h2 : Keeps s0 x2 := by
    unfold x2
    refine State.setSer_keeps ?_ _ _
    exact h1
  refine Keeps.ite (fun _ => ?_) (fun _ => ?_)
  · refine State.rxCommit_keeps ?_ _
    exact h2
  · refine State.rxFail_keeps ?_ _ _
    exact h2

theorem State.serTxEnd_keeps {s0 s : State} (h : Keeps s0 s) (a_c : ℕ) :
    Keeps s0 (State.serTxEnd s a_c) := by
  unfold State.serTxEnd
  extract_lets -merge -useContext -underBinder +onlyGivenNames x0
  refine Keeps.ite (fun _ => ?_) (fun _ => ?_)
  · refine State.txFinish_keeps ?_ _
    exact h
  · refine State.txUnderrun_keeps ?_ _
    exact h

theorem execUartCharReceive_keeps {s0 s : State} (h : Keeps s0 s) (a_c : Fin 64) (a_data : BitVec 9) (a_t : Sys2Proof.TimePoint) (a_fault : Sys2Proof.UartFault) :
    Answers s0 (execUartCharReceive a_c a_data a_t a_fault s) := by
  refine ⟨_, rfl, ?_⟩
  extract_lets -merge -useContext -underBinder +onlyGivenNames x0
  extract_lets -merge -useContext -underBinder +onlyGivenNames x1
  refine Keeps.ite (fun _ => ?_) (fun _ => ?_)
  · exact h
  · refine Keeps.ite (fun _ => ?_) (fun _ => ?_)
    · refine State.bump_keeps ?_ _
      exact h
    · extract_lets -merge -useContext -underBinder +onlyGivenNames x2
      extract_lets -merge -useContext -underBinder +onlyGivenNames x3
      extract_lets -merge -useContext -underBinder +onlyGivenNames x4
      have h4 : Keeps s0 x4 := by
        unfold x4
        refine State.setSer_keeps ?_ _ _
        exact h
      extract_lets -merge -useContext -underBinder +onlyGivenNames x5
      have h5 : Keeps s0 x5 := by
        unfold x5
        refine State.serBegin_keeps ?_ _
        exact h4
      extract_lets -merge -useContext -underBinder +onlyGivenNames x6
      have h6 : Keeps s0 x6 := by
        unfold x6
        refine Keeps.ite (fun _ => ?_) (fun _ => ?_)
        · exact h4
        · refine Keeps.ite (fun _ => ?_) (fun _ => ?_)
          · refine State.serBytes_keeps ?_ _ _
            exact h5
          · exact h5
      extract_lets -merge -useContext -underBinder +onlyGivenNames x7
      have h7 : Keeps s0 x7 := by
        unfold x7
        refine State.serByte_keeps ?_ _ _
        exact h6
      extract_lets -merge -useContext -underBinder +onlyGivenNames x8
      have h8 : Keeps s0 x8 := by
        unfold x8
        refine Keeps.ite (fun _ => ?_) (fun _ => ?_)
        · refine State.serByte_keeps ?_ _ _
          exact h7
        · exact h7
      extract_lets -merge -useContext -underBinder +onlyGivenNames x9
      extract_lets -merge -useContext -underBinder +onlyGivenNames x10
      split
      · split
        · refine Keeps.ite (fun _ => ?_) (fun _ => ?_)
          · exact h8
          · extract_lets -merge -useContext -underBinder +onlyGivenNames x13
            have h13 : Keeps s0 x13 := by
              unfold x13
              refine Keeps.ite (fun _ => ?_) (fun _ => ?_)
              · refine State.raise_keeps ?_ _ _
                exact h8
              · exact h8
            refine State.qualFail_keeps ?_ _ _ _ _ _
            refine State.serEnd_keeps ?_ _ _
            exact h13

theorem execUartGapExpiry_keeps {s0 s : State} (h : Keeps s0 s) (a_c : Fin 64) :
    Answers s0 (execUartGapExpiry a_c s) := by
  refine ⟨_, rfl, ?_⟩
  refine Keeps.ite (fun _ => ?_) (fun _ => ?_)
  · refine State.serEnd_keeps ?_ _ _
    exact h
  · exact h

theorem execUartTxStart_keeps {s0 s : State} (h : Keeps s0 s) (a_c : Fin 64) :
    Answers s0 (execUartTxStart a_c s) := by
  refine ⟨_, rfl, ?_⟩
  refine Keeps.ite (fun _ => ?_) (fun _ => ?_)
  · refine State.setSer_keeps ?_ _ _
    refine State.txBegin_keeps ?_ _
    exact h
  · exact h

theorem execUartTxEnd_keeps {s0 s : State} (h : Keeps s0 s) (a_c : Fin 64) :
    Answers s0 (execUartTxEnd a_c s) := by
  refine ⟨_, rfl, ?_⟩
  refine Keeps.ite (fun _ => ?_) (fun _ => ?_)
  · extract_lets -merge -useContext -underBinder +onlyGivenNames x0
    have h0 : Keeps s0 x0 := by
      unfold x0
      refine State.serTxEnd_keeps ?_ _
      refine State.serSent_keeps ?_ _ _
      exact h
    refine State.raise_keeps ?_ _ _
    refine State.setSer_keeps ?_ _ _
    exact h0
  · exact h

theorem execSpiTransactionStart_keeps {s0 s : State} (h : Keeps s0 s) (a_c : Fin 64) :
    Answers s0 (execSpiTransactionStart a_c s) := by
  refine ⟨_, rfl, ?_⟩
  refine Keeps.ite (fun _ => ?_) (fun _ => ?_)
  · extract_lets -merge -useContext -underBinder +onlyGivenNames x0
    extract_lets -merge -useContext -underBinder +onlyGivenNames x1
    have h1 : Keeps s0 x1 := by
      unfold x1
      refine State.setSer_keeps ?_ _ _
      refine State.txBegin_keeps ?_ _
      exact h
    refine Keeps.ite (fun _ => ?_) (fun _ => ?_)
    · exact h1
    · refine State.serBegin_keeps ?_ _
      exact h1
  · exact h

theorem execSpiTransactionEnd_keeps {s0 s : State} (h : Keeps s0 s) (a_c : Fin 64) (a_rx : List Sys2Proof.Byte) :
    Answers s0 (execSpiTransactionEnd a_c a_rx s) := by
  refine ⟨_, rfl, ?_⟩
  extract_lets -merge -useContext -underBinder +onlyGivenNames x0
  refine Keeps.ite (fun _ => ?_) (fun _ => ?_)
  · extract_lets -merge -useContext -underBinder +onlyGivenNames x1
    extract_lets -merge -useContext -underBinder +onlyGivenNames x2
    extract_lets -merge -useContext -underBinder +onlyGivenNames x3
    have h3 : Keeps s0 x3 := by
      unfold x3
      refine Keeps.ite (fun _ => ?_) (fun _ => ?_)
      · exact h
      · refine State.serEnd_keeps ?_ _ _
        refine State.serBytes_keeps ?_ _ _
        exact h
    extract_lets -merge -useContext -underBinder +onlyGivenNames x4
    have h4 : Keeps s0 x4 := by
      unfold x4
      refine State.serTxEnd_keeps ?_ _
      refine State.serSent_keeps ?_ _ _
      exact h3
    refine State.raise_keeps ?_ _ _
    refine State.setSer_keeps ?_ _ _
    exact h4
  · exact h

theorem execSpiCsAssert_keeps {s0 s : State} (h : Keeps s0 s) (a_c : Fin 64) :
    Answers s0 (execSpiCsAssert a_c s) := by
  refine ⟨_, rfl, ?_⟩
  refine Keeps.ite (fun _ => ?_) (fun _ => ?_)
  · extract_lets -merge -useContext -underBinder +onlyGivenNames x0
    have h0 : Keeps s0 x0 := by
      unfold x0
      refine State.setSer_keeps ?_ _ _
      refine State.serBegin_keeps ?_ _
      exact h
    refine State.txBegin_keeps ?_ _
    exact h0
  · exact h

theorem execSpiCsRelease_keeps {s0 s : State} (h : Keeps s0 s) (a_c : Fin 64) (a_rx : List Sys2Proof.Byte) (a_partial_ : Bool) :
    Answers s0 (execSpiCsRelease a_c a_rx a_partial_ s) := by
  refine ⟨_, rfl, ?_⟩
  extract_lets -merge -useContext -underBinder +onlyGivenNames x0
  refine Keeps.ite (fun _ => ?_) (fun _ => ?_)
  · extract_lets -merge -useContext -underBinder +onlyGivenNames x1
    have h1 : Keeps s0 x1 := by
      unfold x1
      refine State.serBytes_keeps ?_ _ _
      exact h
    extract_lets -merge -useContext -underBinder +onlyGivenNames x2
    have h2 : Keeps s0 x2 := by
      unfold x2
      refine Keeps.ite (fun _ => ?_) (fun _ => ?_)
      · refine State.qualFail_keeps ?_ _ _ _ _ _
        refine State.serEnd_keeps ?_ _ _
        exact h1
      · refine State.serEnd_keeps ?_ _ _
        exact h1
    extract_lets -merge -useContext -underBinder +onlyGivenNames x3
    extract_lets -merge -useContext -underBinder +onlyGivenNames x4
    extract_lets -merge -useContext -underBinder +onlyGivenNames x5
    extract_lets -merge -useContext -underBinder +onlyGivenNames x6
    have h6 : Keeps s0 x6 := by
      unfold x6
      refine State.serSent_keeps ?_ _ _
      exact h2
    extract_lets -merge -useContext -underBinder +onlyGivenNames x7
    extract_lets -merge -useContext -underBinder +onlyGivenNames x8
    extract_lets -merge -useContext -underBinder +onlyGivenNames x9
    extract_lets -merge -useContext -underBinder +onlyGivenNames x10
    have h10 : Keeps s0 x10 := by
      unfold x10
      refine Keeps.ite (fun _ => ?_) (fun _ => ?_)
      · exact h6
      · refine Keeps.ite (fun _ => ?_) (fun _ => ?_)
        · refine State.txUnderrun_keeps ?_ _
          exact h6
        · refine State.txFinish_keeps ?_ _
          refine State.bumpBy_keeps ?_ _ _
          exact h6
    refine State.setSer_keeps ?_ _ _
    exact h10
  · exact h

theorem execI2cTransactionStart_keeps {s0 s : State} (h : Keeps s0 s) (a_c : Fin 64) :
    Answers s0 (execI2cTransactionStart a_c s) := by
  refine ⟨_, rfl, ?_⟩
  refine Keeps.ite (fun _ => ?_) (fun _ => ?_)
  · extract_lets -merge -useContext -underBinder +onlyGivenNames x0
    refine State.setSer_keeps ?_ _ _
    refine State.txBegin_keeps ?_ _
    exact h
  · exact h

theorem State.i2cClear_keeps {s0 s : State} (h : Keeps s0 s) (a_c : ℕ) :
    Keeps s0 (State.i2cClear s a_c) := by
  unfold State.i2cClear
  refine State.setSer_keeps ?_ _ _
  exact h

theorem State.i2cEnd_keeps {s0 s : State} (h : Keeps s0 s) (a_c : ℕ) (a_result : ℕ) (a_acked : ℕ) (a_read : List Sys2Proof.Byte) :
    Keeps s0 (State.i2cEnd s a_c a_result a_acked a_read) := by
  unfold State.i2cEnd
  extract_lets -merge -useContext -underBinder +onlyGivenNames x0
  refine Keeps.ite (fun _ => ?_) (fun _ => ?_)
  · extract_lets -merge -useContext -underBinder +onlyGivenNames x1
    extract_lets -merge -useContext -underBinder +onlyGivenNames x2
    extract_lets -merge -useContext -underBinder +onlyGivenNames x3
    have h3 : Keeps s0 x3 := by
      unfold x3
      refine State.rxPacket_keeps ?_ _ _ _
      exact h
    extract_lets -merge -useContext -underBinder +onlyGivenNames x4
    have h4 : Keeps s0 x4 := by
      unfold x4
      refine State.serTxEnd_keeps ?_ _
      refine State.serSent_keeps ?_ _ _
      exact h3
    extract_lets -merge -useContext -underBinder +onlyGivenNames x5
    have h5 : Keeps s0 x5 := by
      unfold x5
      refine State.raise_keeps ?_ _ _
      exact h4
    extract_lets -merge -useContext -underBinder +onlyGivenNames x6
    have h6 : Keeps s0 x6 := by
      unfold x6
      refine Keeps.ite (fun _ => ?_) (fun _ => ?_)
      · exact h5
      · refine State.raise_keeps ?_ _ _
        exact h5
    extract_lets -merge -useContext -underBinder +onlyGivenNames x7
    have h7 : Keeps s0 x7 := by
      unfold x7
      refine Keeps.ite (fun _ => ?_) (fun _ => ?_)
      · refine State.qualFail_keeps ?_ _ _ _ _ _
        refine State.raise_keeps ?_ _ _
        exact h6
      · refine Keeps.ite (fun _ => ?_) (fun _ => ?_)
        · exact h6
        · refine State.bump_keeps ?_ _
          exact h6
    extract_lets -merge -useContext -underBinder +onlyGivenNames x8
    extract_lets -merge -useContext -underBinder +onlyGivenNames x9
    have h9 : Keeps s0 x9 := by
      unfold x9
      refine State.setSer_keeps ?_ _ _
      exact h7
    refine Keeps.ite (fun _ => ?_) (fun _ => ?_)
    · refine State.i2cClear_keeps ?_ _
      exact h9
    · exact h9
  · exact h

theorem State.i2cNotFree_keeps {s0 s : State} (h : Keeps s0 s) (a_c : ℕ) :
    Keeps s0 (State.i2cNotFree s a_c) := by
  unfold State.i2cNotFree
  refine Keeps.ite (fun _ => ?_) (fun _ => ?_)
  · extract_lets -merge -useContext -underBinder +onlyGivenNames x0
    refine State.i2cEnd_keeps ?_ _ _ _ _
    refine State.setSer_keeps ?_ _ _
    refine State.txBegin_keeps ?_ _
    exact h
  · exact h

theorem execI2cTransactionEnd_keeps {s0 s : State} (h : Keeps s0 s) (a_c : Fin 64) (a_result : Fin 6) (a_acked : Sys2Proof.Byte) (a_read : List Sys2Proof.Byte) :
    Answers s0 (execI2cTransactionEnd a_c a_result a_acked a_read s) := by
  refine ⟨_, rfl, ?_⟩
  extract_lets -merge -useContext -underBinder +onlyGivenNames x0
  refine Keeps.ite (fun _ => ?_) (fun _ => ?_)
  · refine State.i2cNotFree_keeps ?_ _
    exact h
  · refine Keeps.ite (fun _ => ?_) (fun _ => ?_)
    · exact h
    · refine State.i2cEnd_keeps ?_ _ _ _ _
      exact h

theorem execSmbusTimeout_keeps {s0 s : State} (h : Keeps s0 s) (a_c : Fin 64) (a_acked : Sys2Proof.Byte) (a_read : List Sys2Proof.Byte) :
    Answers s0 (execSmbusTimeout a_c a_acked a_read s) := by
  refine ⟨_, rfl, ?_⟩
  refine Keeps.ite (fun _ => ?_) (fun _ => ?_)
  · refine State.i2cEnd_keeps ?_ _ _ _ _
    exact h
  · exact h

theorem State.i2cBusClear_keeps {s0 s : State} (h : Keeps s0 s) (a_c : ℕ) :
    Keeps s0 (State.i2cBusClear s a_c) := by
  unfold State.i2cBusClear
  refine Keeps.ite (fun _ => ?_) (fun _ => ?_)
  · exact h
  · refine Keeps.ite (fun _ => ?_) (fun _ => ?_)
    · refine State.setSer_keeps ?_ _ _
      exact h
    · refine State.i2cClear_keeps ?_ _
      exact h

theorem execPpsOutStart_keeps {s0 s : State} (h : Keeps s0 s) (a_c : Fin 64) :
    Answers s0 (execPpsOutStart a_c s) := by
  refine ⟨_, rfl, ?_⟩
  extract_lets -merge -useContext -underBinder +onlyGivenNames x0
  refine Keeps.ite (fun _ => ?_) (fun _ => ?_)
  · refine State.setSer_keeps ?_ _ _
    exact h
  · exact h

theorem execPpsOutEnd_keeps {s0 s : State} (h : Keeps s0 s) (a_c : Fin 64) :
    Answers s0 (execPpsOutEnd a_c s) := by
  refine ⟨_, rfl, ?_⟩
  refine Keeps.ite (fun _ => ?_) (fun _ => ?_)
  · refine State.setSer_keeps ?_ _ _
    exact h
  · exact h

theorem State.setCan_keeps {s0 s : State} (h : Keeps s0 s) (a_n : ℕ) (a_f : Sys2Proof.Machine.CanSt → Sys2Proof.Machine.CanSt) :
    Keeps s0 (State.setCan s a_n a_f) := by
  unfold State.setCan
  refine Keeps.mk_upd ?_ rfl
  exact h

theorem State.canEnter_keeps {s0 s : State} (h : Keeps s0 s) (a_n : ℕ) (a_st : ℕ) :
    Keeps s0 (State.canEnter s a_n a_st) := by
  unfold State.canEnter
  extract_lets -merge -useContext -underBinder +onlyGivenNames x0
  have h0 : Keeps s0 x0 := by
    unfold x0
    refine State.raise_keeps ?_ _ _
    refine State.setCan_keeps ?_ _ _
    exact h
  extract_lets -merge -useContext -underBinder +onlyGivenNames x1
  have h1 : Keeps s0 x1 := by
    unfold x1
    refine Keeps.ite (fun _ => ?_) (fun _ => ?_)
    · refine State.bump_keeps ?_ _
      exact h0
    · exact h0
  extract_lets -merge -useContext -underBinder +onlyGivenNames x2
  refine Keeps.ite (fun _ => ?_) (fun _ => ?_)
  · refine State.post_keeps ?_ _ _ _ _ _ _ _ _
    exact h1
  · exact h1

theorem State.canJudge_keeps {s0 s : State} (h : Keeps s0 s) (a_n : ℕ) :
    Keeps s0 (State.canJudge s a_n) := by
  unfold State.canJudge
  extract_lets -merge -useContext -underBinder +onlyGivenNames x0
  refine Keeps.ite (fun _ => ?_) (fun _ => ?_)
  · exact h
  · refine Keeps.ite (fun _ => ?_) (fun _ => ?_)
    · extract_lets -merge -useContext -underBinder +onlyGivenNames x1
      have h1 : Keeps s0 x1 := by
        unfold x1
        refine State.canEnter_keeps ?_ _ _
        refine State.setCan_keeps ?_ _ _
        exact h
      refine Keeps.ite (fun _ => ?_) (fun _ => ?_)
      · refine State.canEnter_keeps ?_ _ _
        exact h1
      · exact h1
    · refine Keeps.ite (fun _ => ?_) (fun _ => ?_)
      · refine State.canEnter_keeps ?_ _ _
        exact h
      · refine Keeps.ite (fun _ => ?_) (fun _ => ?_)
        · refine State.canEnter_keeps ?_ _ _
          exact h
        · exact h

theorem State.canStart_keeps {s0 s : State} (h : Keeps s0 s) (a_n : ℕ) :
    Keeps s0 (State.canStart s a_n) := by
  unfold State.canStart
  refine Keeps.ite (fun _ => ?_) (fun _ => ?_)
  · refine State.canEnter_keeps ?_ _ _
    exact h
  · exact h

theorem execCanBusIdle_keeps {s0 s : State} (h : Keeps s0 s) (a_n : Fin 16) :
    Answers s0 (execCanBusIdle a_n s) := by
  refine ⟨_, rfl, ?_⟩
  extract_lets -merge -useContext -underBinder +onlyGivenNames x0
  refine Keeps.ite (fun _ => ?_) (fun _ => ?_)
  · refine State.canEnter_keeps ?_ _ _
    exact h
  · refine Keeps.ite (fun _ => ?_) (fun _ => ?_)
    · refine State.canEnter_keeps ?_ _ _
      exact h
    · exact h

theorem execCanProtocolException_keeps {s0 s : State} (h : Keeps s0 s) (a_n : Fin 16) :
    Answers s0 (execCanProtocolException a_n s) := by
  refine ⟨_, rfl, ?_⟩
  refine Keeps.ite (fun _ => ?_) (fun _ => ?_)
  · refine State.canEnter_keeps ?_ _ _
    refine State.setCan_keeps ?_ _ _
    exact h
  · exact h

theorem execCanRecoveryComplete_keeps {s0 s : State} (h : Keeps s0 s) (a_n : Fin 16) :
    Answers s0 (execCanRecoveryComplete a_n s) := by
  refine ⟨_, rfl, ?_⟩
  refine Keeps.ite (fun _ => ?_) (fun _ => ?_)
  · refine State.canEnter_keeps ?_ _ _
    refine State.setCan_keeps ?_ _ _
    exact h
  · exact h

theorem State.canRecover_keeps {s0 s : State} (h : Keeps s0 s) (a_n : ℕ) :
    Keeps s0 (State.canRecover s a_n) := by
  unfold State.canRecover
  refine Keeps.ite (fun _ => ?_) (fun _ => ?_)
  · refine State.canEnter_keeps ?_ _ _
    exact h
  · exact h

theorem execCanRecover_keeps {s0 s : State} (h : Keeps s0 s) (a_n : Fin 16) :
    Answers s0 (execCanRecover a_n s) := by
  refine ⟨_, rfl, ?_⟩
  refine State.canRecover_keeps ?_ _
  exact h

theorem execCanInitEntry_keeps {s0 s : State} (h : Keeps s0 s) (a_n : Fin 16) :
    Answers s0 (execCanInitEntry a_n s) := by
  refine ⟨_, rfl, ?_⟩
  extract_lets -merge -useContext -underBinder +onlyGivenNames x0
  extract_lets -merge -useContext -underBinder +onlyGivenNames x1
  refine Keeps.ite (fun _ => ?_) (fun _ => ?_)
  · exact h
  · extract_lets -merge -useContext -underBinder +onlyGivenNames x2
    extract_lets -merge -useContext -underBinder +onlyGivenNames x3
    have h3 : Keeps s0 x3 := by
      unfold x3
      refine State.wr_keeps ?_ _ _
      refine State.wr_keeps ?_ _ _
      exact h
    extract_lets -merge -useContext -underBinder +onlyGivenNames y4
    extract_lets -merge -useContext -underBinder +onlyGivenNames x4
    have h4 : Keeps s0 x4 := by
      unfold x4
      refine State.setCan_keeps ?_ _ _
      refine State.fifoFlush_keeps ?_ _
      exact h3
    refine State.canEnter_keeps ?_ _ _
    refine Keeps.ite (fun _ => ?_) (fun _ => ?_)
    · exact h4
    · refine State.raise_keeps ?_ _ _
      exact h4

theorem State.canStore_keeps {s0 s : State} (h : Keeps s0 s) (a_n : ℕ) (a_f : Sys2Proof.CanFrame) (a_echo : Option ℕ) (a_filter : Option ℕ) (a_t : Sys2Proof.TimePoint) :
    Keeps s0 (State.canStore s a_n a_f a_echo a_filter a_t) := by
  unfold State.canStore
  extract_lets -merge -useContext -underBinder +onlyGivenNames x0
  refine Keeps.ite (fun _ => ?_) (fun _ => ?_)
  · refine State.raise_keeps ?_ _ _
    refine State.qualFail_keeps ?_ _ _ _ _ _
    exact h
  · extract_lets -merge -useContext -underBinder +onlyGivenNames x1
    refine State.raise_keeps ?_ _ _
    refine State.rxPacket_keeps ?_ _ _ _
    exact h

theorem State.canOffer_keeps {s0 s : State} (h : Keeps s0 s) (a_n : ℕ) (a_f : Sys2Proof.CanFrame) (a_t : Sys2Proof.TimePoint) :
    Keeps s0 (State.canOffer s a_n a_f a_t) := by
  unfold State.canOffer
  split
  · refine Keeps.ite (fun _ => ?_) (fun _ => ?_)
    · refine State.bump_keeps ?_ _
      exact h
    · refine State.canStore_keeps ?_ _ _ _ _ _
      exact h
  · refine Keeps.ite (fun _ => ?_) (fun _ => ?_)
    · refine State.canStore_keeps ?_ _ _ _ _ _
      exact h
    · refine State.bump_keeps ?_ _
      exact h

theorem State.canHeard_keeps {s0 s : State} (h : Keeps s0 s) (a_n : ℕ) :
    Keeps s0 (State.canHeard s a_n) := by
  unfold State.canHeard
  extract_lets -merge -useContext -underBinder +onlyGivenNames x0
  extract_lets -merge -useContext -underBinder +onlyGivenNames x1
  have h1 : Keeps s0 x1 := by
    unfold x1
    refine State.setCan_keeps ?_ _ _
    exact h
  refine Keeps.ite (fun _ => ?_) (fun _ => ?_)
  · refine State.post_keeps ?_ _ _ _ _ _ _ _ _
    refine State.raise_keeps ?_ _ _
    exact h1
  · exact h1

theorem State.canGood_keeps {s0 s : State} (h : Keeps s0 s) (a_n : ℕ) :
    Keeps s0 (State.canGood s a_n) := by
  unfold State.canGood
  extract_lets -merge -useContext -underBinder +onlyGivenNames x0
  refine Keeps.ite (fun _ => ?_) (fun _ => ?_)
  · exact h
  · refine Keeps.ite (fun _ => ?_) (fun _ => ?_)
    · refine State.setCan_keeps ?_ _ _
      exact h
    · split
      · next y1_0 y1_1 e1 =>
          have g1 : Keeps s0 y1_1 := by
            refine Keeps.of2 e1 ?_
            refine State.fresh_keeps ?_ 
            exact h
          refine State.setCan_keeps ?_ _ _
          exact g1

theorem State.canErr_keeps {s0 s : State} (h : Keeps s0 s) (a_n : ℕ) (a_e : Sys2Proof.CanErr) (a_dataPhase : Bool) :
    Keeps s0 (State.canErr s a_n a_e a_dataPhase) := by
  unfold State.canErr
  extract_lets -merge -useContext -underBinder +onlyGivenNames x0
  refine State.raise_keeps ?_ _ _
  refine State.qualFail_keeps ?_ _ _ _ _ _
  refine State.wr_keeps ?_ _ _
  exact h

theorem State.canRxError_keeps {s0 s : State} (h : Keeps s0 s) (a_n : ℕ) (a_e : Sys2Proof.CanErr) (a_dataPhase : Bool) (a_eight : Bool) :
    Keeps s0 (State.canRxError s a_n a_e a_dataPhase a_eight) := by
  unfold State.canRxError
  extract_lets -merge -useContext -underBinder +onlyGivenNames x0
  have h0 : Keeps s0 x0 := by
    unfold x0
    refine State.canErr_keeps ?_ _ _ _
    exact h
  refine Keeps.ite (fun _ => ?_) (fun _ => ?_)
  · exact h0
  · refine State.canJudge_keeps ?_ _
    refine State.setCan_keeps ?_ _ _
    exact h0

theorem execCanRxError_keeps {s0 s : State} (h : Keeps s0 s) (a_n : Fin 16) (a_e : Sys2Proof.CanErr) (a_dataPhase : Bool) (a_eight : Bool) :
    Answers s0 (execCanRxError a_n a_e a_dataPhase a_eight s) := by
  refine ⟨_, rfl, ?_⟩
  refine Keeps.ite (fun _ => ?_) (fun _ => ?_)
  · refine State.canRxError_keeps ?_ _ _ _ _
    exact h
  · exact h

theorem execCanFrameReceived_keeps {s0 s : State} (h : Keeps s0 s) (a_n : Fin 16) (a_f : Sys2Proof.CanFrame) (a_t : Sys2Proof.TimePoint) :
    Answers s0 (execCanFrameReceived a_n a_f a_t s) := by
  refine ⟨_, rfl, ?_⟩
  refine Keeps.ite (fun _ => ?_) (fun _ => ?_)
  · exact h
  · refine Keeps.ite (fun _ => ?_) (fun _ => ?_)
    · refine State.canRxError_keeps ?_ _ _ _ _
      exact h
    · refine State.canOffer_keeps ?_ _ _ _
      refine State.canJudge_keeps ?_ _
      refine State.canGood_keeps ?_ _
      refine State.canHeard_keeps ?_ _
      refine State.bump_keeps ?_ _
      exact h

theorem execCanArbitrationStart_keeps {s0 s : State} (h : Keeps s0 s) (a_n : Fin 16) (a_sof : Sys2Proof.TimePoint) :
    Answers s0 (execCanArbitrationStart a_n a_sof s) := by
  refine ⟨_, rfl, ?_⟩
  refine Keeps.ite (fun _ => ?_) (fun _ => ?_)
  · split
    · refine State.setCan_keeps ?_ _ _
      exact h
    · exact h
  · exact h

theorem execCanArbitrationLost_keeps {s0 s : State} (h : Keeps s0 s) (a_n : Fin 16) :
    Answers s0 (execCanArbitrationLost a_n s) := by
  refine ⟨_, rfl, ?_⟩
  refine Keeps.ite (fun _ => ?_) (fun _ => ?_)
  · refine State.bump_keeps ?_ _
    refine State.setCan_keeps ?_ _ _
    exact h
  · exact h

theorem State.canTxEnd_keeps {s0 s : State} (h : Keeps s0 s) (a_n : ℕ) (a_m : ℕ) (a_ok : Bool) :
    Keeps s0 (State.canTxEnd s a_n a_m a_ok) := by
  unfold State.canTxEnd
  extract_lets -merge -useContext -underBinder +onlyGivenNames x0
  have h0 : Keeps s0 x0 := by
    unfold x0
    refine State.setCan_keeps ?_ _ _
    exact h
  refine Keeps.ite (fun _ => ?_) (fun _ => ?_)
  · extract_lets -merge -useContext -underBinder +onlyGivenNames x1
    extract_lets -merge -useContext -underBinder +onlyGivenNames x2
    have h2 : Keeps s0 x2 := by
      unfold x2
      refine State.wr_keeps ?_ _ _
      exact h0
    refine Keeps.ite (fun _ => ?_) (fun _ => ?_)
    · refine State.wr_keeps ?_ _ _
      exact h2
    · refine State.setCan_keeps ?_ _ _
      refine State.wr_keeps ?_ _ _
      exact h2
  · refine State.setCan_keeps ?_ _ _
    refine State.txFinish_keeps ?_ _
    exact h0

theorem execCanTxSuccess_keeps {s0 s : State} (h : Keeps s0 s) (a_n : Fin 16) (a_tdcv : BitVec 7) :
    Answers s0 (execCanTxSuccess a_n a_tdcv s) := by
  refine ⟨_, rfl, ?_⟩
  extract_lets -merge -useContext -underBinder +onlyGivenNames x0
  split
  · exact h
  · extract_lets -merge -useContext -underBinder +onlyGivenNames x3
    extract_lets -merge -useContext -underBinder +onlyGivenNames x4
    refine Keeps.ite (fun _ => ?_) (fun _ => ?_)
    · exact h
    · extract_lets -merge -useContext -underBinder +onlyGivenNames x5
      have h5 : Keeps s0 x5 := by
        unfold x5
        refine Keeps.ite (fun _ => ?_) (fun _ => ?_)
        · refine State.wr_keeps ?_ _ _
          exact h
        · exact h
      extract_lets -merge -useContext -underBinder +onlyGivenNames x6
      have h6 : Keeps s0 x6 := by
        unfold x6
        refine State.bump_keeps ?_ _
        refine State.canTxEnd_keeps ?_ _ _ _
        exact h5
      extract_lets -merge -useContext -underBinder +onlyGivenNames x7
      have h7 : Keeps s0 x7 := by
        unfold x7
        refine State.canHeard_keeps ?_ _
        refine State.raise_keeps ?_ _ _
        exact h6
      extract_lets -merge -useContext -underBinder +onlyGivenNames x8
      have h8 : Keeps s0 x8 := by
        unfold x8
        refine State.canJudge_keeps ?_ _
        refine State.setCan_keeps ?_ _ _
        exact h7
      extract_lets -merge -useContext -underBinder +onlyGivenNames x9
      have h9 : Keeps s0 x9 := by
        unfold x9
        refine Keeps.ite (fun _ => ?_) (fun _ => ?_)
        · refine State.canStore_keeps ?_ _ _ _ _ _
          exact h8
        · exact h8
      refine Keeps.ite (fun _ => ?_) (fun _ => ?_)
      · exact h9
      · refine State.canOffer_keeps ?_ _ _ _
        exact h9

theorem execCanTxError_keeps {s0 s : State} (h : Keeps s0 s) (a_n : Fin 16) (a_e : Sys2Proof.CanErr) (a_dataPhase : Bool) (a_held : Bool) :
    Answers s0 (execCanTxError a_n a_e a_dataPhase a_held s) := by
  refine ⟨_, rfl, ?_⟩
  extract_lets -merge -useContext -underBinder +onlyGivenNames x0
  split
  · exact h
  · extract_lets -merge -useContext -underBinder +onlyGivenNames x3
    refine Keeps.ite (fun _ => ?_) (fun _ => ?_)
    · exact h
    · extract_lets -merge -useContext -underBinder +onlyGivenNames x4
      have h4 : Keeps s0 x4 := by
        unfold x4
        refine State.canErr_keeps ?_ _ _ _
        exact h
      extract_lets -merge -useContext -underBinder +onlyGivenNames x5
      have h5 : Keeps s0 x5 := by
        unfold x5
        refine State.setCan_keeps ?_ _ _
        exact h4
      extract_lets -merge -useContext -underBinder +onlyGivenNames x6
      have h6 : Keeps s0 x6 := by
        unfold x6
        refine Keeps.ite (fun _ => ?_) (fun _ => ?_)
        · refine State.post_keeps ?_ _ _ _ _ _ _ _ _
          refine State.raise_keeps ?_ _ _
          refine State.setCan_keeps ?_ _ _
          exact h5
        · exact h5
      extract_lets -merge -useContext -underBinder +onlyGivenNames x7
      extract_lets -merge -useContext -underBinder +onlyGivenNames x8
      extract_lets -merge -useContext -underBinder +onlyGivenNames x9
      have h9 : Keeps s0 x9 := by
        unfold x9
        refine Keeps.ite (fun _ => ?_) (fun _ => ?_)
        · refine State.post_keeps ?_ _ _ _ _ _ _ _ _
          refine State.raise_keeps ?_ _ _
          refine State.canTxEnd_keeps ?_ _ _ _
          exact h6
        · exact h6
      refine State.canJudge_keeps ?_ _
      exact h9

theorem State.canTxreq_keeps {s0 s : State} (h : Keeps s0 s) (a_n : ℕ) (a_v : Sys2Proof.Word) :
    Keeps s0 (State.canTxreq s a_n a_v) := by
  unfold State.canTxreq
  refine Keeps.foldl ?_ (fun y0 a0 h0 => ?_)
  · exact h
  · refine Keeps.ite (fun _ => ?_) (fun _ => ?_)
    · exact h0
    · refine Keeps.ite (fun _ => ?_) (fun _ => ?_)
      · refine State.bump_keeps ?_ _
        exact h0
      · refine State.setCan_keeps ?_ _ _
        refine State.wr_keeps ?_ _ _
        exact h0

theorem execTxreq_keeps {s0 s : State} (h : Keeps s0 s) (a_n : Fin 16) (a_v : Sys2Proof.Word) :
    Answers s0 (execTxreq a_n a_v s) := by
  refine ⟨_, rfl, ?_⟩
  refine State.canTxreq_keeps ?_ _ _
  exact h

theorem State.cancelLate_keeps {s0 s : State} (h : Keeps s0 s) (a_n : ℕ) (a_x : Sys2Proof.Machine.CanTx) :
    Keeps s0 (State.cancelLate s a_n a_x) := by
  unfold State.cancelLate
  refine State.post_keeps ?_ _ _ _ _ _ _ _ _
  refine State.raise_keeps ?_ _ _
  exact h

theorem State.canCancelled_keeps {s0 s : State} (h : Keeps s0 s) (a_n : ℕ) (a_m : ℕ) :
    Keeps s0 (State.canCancelled s a_n a_m) := by
  unfold State.canCancelled
  extract_lets -merge -useContext -underBinder +onlyGivenNames x0
  extract_lets -merge -useContext -underBinder +onlyGivenNames x1
  have h1 : Keeps s0 x1 := by
    unfold x1
    refine State.wr_keeps ?_ _ _
    exact h
  extract_lets -merge -useContext -underBinder +onlyGivenNames x2
  have h2 : Keeps s0 x2 := by
    unfold x2
    refine State.setCan_keeps ?_ _ _
    refine State.wr_keeps ?_ _ _
    exact h1
  refine State.raise_keeps ?_ _ _
  exact h2

theorem State.canTxcancel_keeps {s0 s : State} (h : Keeps s0 s) (a_n : ℕ) (a_v : Sys2Proof.Word) :
    Keeps s0 (State.canTxcancel s a_n a_v) := by
  unfold State.canTxcancel
  refine Keeps.foldl ?_ (fun y0 a0 h0 => ?_)
  · exact h
  · refine Keeps.ite (fun _ => ?_) (fun _ => ?_)
    · exact h0
    · split
      · refine Keeps.ite (fun _ => ?_) (fun _ => ?_)
        · refine State.cancelLate_keeps ?_ _ _
          exact h0
        · refine State.canCancelled_keeps ?_ _ _
          exact h0
      · refine State.canCancelled_keeps ?_ _ _
        exact h0

theorem execTxcancel_keeps {s0 s : State} (h : Keeps s0 s) (a_n : Fin 16) (a_v : Sys2Proof.Word) :
    Answers s0 (execTxcancel a_n a_v s) := by
  refine ⟨_, rfl, ?_⟩
  refine State.canTxcancel_keeps ?_ _ _
  exact h

theorem State.canTxresClr_keeps {s0 s : State} (h : Keeps s0 s) (a_n : ℕ) (a_v : Sys2Proof.Word) :
    Keeps s0 (State.canTxresClr s a_n a_v) := by
  unfold State.canTxresClr
  refine State.wr_keeps ?_ _ _
  refine State.wr_keeps ?_ _ _
  exact h

theorem execTxresClr_keeps {s0 s : State} (h : Keeps s0 s) (a_n : Fin 16) (a_v : Sys2Proof.Word) :
    Answers s0 (execTxresClr a_n a_v s) := by
  refine ⟨_, rfl, ?_⟩
  refine State.canTxresClr_keeps ?_ _ _
  exact h

theorem State.canTxWrite_keeps {s0 s : State} (h : Keeps s0 s) (a_n : ℕ) (a_w : Sys2Proof.Word) :
    Keeps s0 (State.canTxWrite s a_n a_w) := by
  unfold State.canTxWrite
  extract_lets -merge -useContext -underBinder +onlyGivenNames x0
  split
  · next y1_0 y1_1 e1 =>
      have g1 : Keeps s0 y1_1 := by
        refine Keeps.of2 e1 ?_
        refine State.txDataWrite_keeps ?_ _ _
        exact h
      refine Keeps.ite (fun _ => ?_) (fun _ => ?_)
      · exact g1
      · extract_lets -merge -useContext -underBinder +onlyGivenNames x2
        extract_lets -merge -useContext -underBinder +onlyGivenNames x3
        refine Keeps.ite (fun _ => ?_) (fun _ => ?_)
        · exact g1
        · extract_lets -merge -useContext -underBinder +onlyGivenNames x4
          refine State.raise_keeps ?_ _ _
          refine State.qualFail_keeps ?_ _ _ _ _ _
          refine State.setFifo_keeps ?_ _ _
          exact g1

theorem execCanTxDataWrite_keeps {s0 s : State} (h : Keeps s0 s) (a_n : Fin 16) (a_w : Sys2Proof.Word) :
    Answers s0 (execCanTxDataWrite a_n a_w s) := by
  refine ⟨_, rfl, ?_⟩
  refine State.canTxWrite_keeps ?_ _ _
  exact h

theorem State.canTxFlush_keeps {s0 s : State} (h : Keeps s0 s) (a_n : ℕ) :
    Keeps s0 (State.canTxFlush s a_n) := by
  unfold State.canTxFlush
  extract_lets -merge -useContext -underBinder +onlyGivenNames x0
  extract_lets -merge -useContext -underBinder +onlyGivenNames x1
  extract_lets -merge -useContext -underBinder +onlyGivenNames x2
  extract_lets -merge -useContext -underBinder +onlyGivenNames x3
  have h3 : Keeps s0 x3 := by
    unfold x3
    refine State.setFifo_keeps ?_ _ _
    exact h
  extract_lets -merge -useContext -underBinder +onlyGivenNames x4
  have h4 : Keeps s0 x4 := by
    unfold x4
    refine Keeps.ite (fun _ => ?_) (fun _ => ?_)
    · refine State.raise_keeps ?_ _ _
      exact h3
    · exact h3
  extract_lets -merge -useContext -underBinder +onlyGivenNames x5
  have h5 : Keeps s0 x5 := by
    unfold x5
    refine Keeps.ite (fun _ => ?_) (fun _ => ?_)
    · refine State.setCan_keeps ?_ _ _
      refine State.raise_keeps ?_ _ _
      exact h4
    · exact h4
  split
  · refine Keeps.ite (fun _ => ?_) (fun _ => ?_)
    · refine State.cancelLate_keeps ?_ _ _
      exact h5
    · exact h5
  · exact h5

theorem execCanTxFlush_keeps {s0 s : State} (h : Keeps s0 s) (a_n : Fin 16) :
    Answers s0 (execCanTxFlush a_n s) := by
  refine ⟨_, rfl, ?_⟩
  refine State.canTxFlush_keeps ?_ _
  exact h

theorem State.canMbWrite_keeps {s0 s : State} (h : Keeps s0 s) (a_n : ℕ) (a_m : ℕ) (a_i : ℕ) (a_v : Sys2Proof.Word) :
    Keeps s0 (State.canMbWrite s a_n a_m a_i a_v) := by
  unfold State.canMbWrite
  refine Keeps.ite (fun _ => ?_) (fun _ => ?_)
  · refine State.bump_keeps ?_ _
    exact h
  · refine State.wr_keeps ?_ _ _
    exact h

theorem execCanMbWrite_keeps {s0 s : State} (h : Keeps s0 s) (a_n : Fin 16) (a_m : Fin 32) (a_i : Fin 18) (a_v : Sys2Proof.Word) :
    Answers s0 (execCanMbWrite a_n a_m a_i a_v s) := by
  refine ⟨_, rfl, ?_⟩
  refine State.canMbWrite_keeps ?_ _ _ _ _
  exact h

end Sys2Proof.Machine
end

