-- ==== Sys2Proof/Laws/KeepsChip.lean ====
section
/-! SUPPORT. What each operation and each command keeps: the fabric, DMA, the host, clocks, security, boot, rules and fired drill entries. -/

namespace Sys2Proof.Machine

theorem State.setXbr_keeps {s0 s : State} (h : Keeps s0 s) (a_f : Sys2Proof.Machine.XbrSt → Sys2Proof.Machine.XbrSt) :
    Keeps s0 (State.setXbr s a_f) := by
  unfold State.setXbr
  refine Keeps.mk_upd ?_ rfl
  exact h

theorem State.setTag_keeps {s0 s : State} (h : Keeps s0 s) (a_t : ℕ) (a_x : Sys2Proof.Machine.TagSt) :
    Keeps s0 (State.setTag s a_t a_x) := by
  unfold State.setTag
  refine State.setXbr_keeps ?_ _
  exact h

theorem State.streamOpen_keeps {s0 s : State} (h : Keeps s0 s) (a_dst : ℕ) :
    Keeps s0 (State.streamOpen s a_dst) := by
  unfold State.streamOpen
  refine State.setXbr_keeps ?_ _
  exact h

theorem State.logPosted_keeps {s0 s : State} (h : Keeps s0 s) (a_e : Sys2Proof.Machine.PostLog) :
    Keeps s0 (State.logPosted s a_e) := by
  unfold State.logPosted
  refine State.setXbr_keeps ?_ _
  exact h

theorem State.noteSent_keeps {s0 s : State} (h : Keeps s0 s) (a_tag : ℕ) (a_p : Option Sys2Proof.Machine.StreamPos) :
    Keeps s0 (State.noteSent s a_tag a_p) := by
  unfold State.noteSent
  extract_lets -merge -useContext -underBinder +onlyGivenNames x0
  extract_lets -merge -useContext -underBinder +onlyGivenNames x1
  refine Keeps.ite (fun _ => ?_) (fun _ => ?_)
  · refine State.setTag_keeps ?_ _ _
    exact h
  · exact h

theorem State.streamSend_keeps {s0 s : State} (h : Keeps s0 s) (f : XFrame) (x : Stream) : Keeps s0 (s.streamSend f x) := by
  unfold State.streamSend
  extract_lets p x1 x2 note x3
  have h1 : Keeps s0 x1 := State.setXbr_keeps h _
  have h2 : Keeps s0 x2 := Keeps.ite (fun _ => State.logPosted_keeps h1 _) (fun _ => h1)
  have h3 : Keeps s0 x3 :=
    Keeps.ite (fun _ => State.noteSent_keeps h2 _ _) (fun _ => Keeps.ite (fun _ => State.setXbr_keeps h2 _) (fun _ => h2))
  exact State.originate_keeps h3 _ _ _ _ _ _

theorem State.sendX_keeps {s0 s : State} (h : Keeps s0 s) (a_f : Sys2Proof.Machine.XFrame) :
    Keeps s0 (State.sendX s a_f) := by
  unfold State.sendX
  split
  · refine State.streamSend_keeps ?_ _ _
    exact h
  · refine Keeps.ite (fun _ => ?_) (fun _ => ?_)
    · extract_lets -merge -useContext -underBinder +onlyGivenNames x2
      have h2 : Keeps s0 x2 := by
        unfold x2
        refine State.streamOpen_keeps ?_ _
        exact h
      split
      · refine State.streamSend_keeps ?_ _ _
        exact h2
      · exact h2
    · refine State.bump_keeps ?_ _
      refine State.setXbr_keeps ?_ _
      exact h

theorem State.sendReport_keeps {s0 s : State} (h : Keeps s0 s) (a_dst : ℕ) (a_flags : ℕ) (a_w4 : Sys2Proof.Word) (a_w5 : Sys2Proof.Word) (a_w6 : Sys2Proof.Word) (a_w7 : Sys2Proof.Word) :
    Keeps s0 (State.sendReport s a_dst a_flags a_w4 a_w5 a_w6 a_w7) := by
  unfold State.sendReport
  split
  · next y0_0 y0_1 e0 =>
      have g0 : Keeps s0 y0_1 := by
        refine Keeps.of2 e0 ?_
        refine State.mkRec_keeps ?_ _ _ _ _ _ _ _ _ _ _ _
        exact h
      refine Keeps.ite (fun _ => ?_) (fun _ => ?_)
      · refine State.route_keeps ?_ _
        refine State.raise_keeps ?_ _ _
        exact g0
      · refine State.originate_keeps ?_ _ _ _ _ _ _
        exact g0

theorem State.postedFailed_keeps {s0 s : State} (h : Keeps s0 s) (a_p : Sys2Proof.Machine.PostReq) (a_status : ℕ) :
    Keeps s0 (State.postedFailed s a_p a_status) := by
  unfold State.postedFailed
  extract_lets -merge -useContext -underBinder +onlyGivenNames x0
  refine State.sendReport_keeps ?_ _ _ _ _ _ _
  refine State.bump_keeps ?_ _
  exact h

theorem State.strand_keeps {s0 s : State} (h : Keeps s0 s) (a_e : Sys2Proof.Machine.CacheEnt) (a_cause : ℕ) :
    Keeps s0 (State.strand s a_e a_cause) := by
  unfold State.strand
  refine Keeps.ite (fun _ => ?_) (fun _ => ?_)
  · exact h
  · extract_lets -merge -useContext -underBinder +onlyGivenNames x0
    extract_lets -merge -useContext -underBinder +onlyGivenNames x1
    have h1 : Keeps s0 x1 := by
      unfold x1
      refine State.setXbr_keeps ?_ _
      exact h
    refine State.post_keeps ?_ _ _ _ _ _ _ _ _
    refine State.raise_keeps ?_ _ _
    refine State.bump_keeps ?_ _
    exact h1

theorem State.releaseCompletion_keeps {s0 s : State} (h : Keeps s0 s) (a_source : ℕ) (a_body : List Sys2Proof.Byte) :
    Keeps s0 (State.releaseCompletion s a_source a_body) := by
  unfold State.releaseCompletion
  refine State.setXbr_keeps ?_ _
  exact h

theorem State.sendCompletion_keeps {s0 s : State} (h : Keeps s0 s) (a_e : Sys2Proof.Machine.CacheEnt) (a_fromCache : Bool) (a_cached : Bool) :
    Keeps s0 (State.sendCompletion s a_e a_fromCache a_cached) := by
  unfold State.sendCompletion
  refine Keeps.ite (fun _ => ?_) (fun _ => ?_)
  · refine State.releaseCompletion_keeps ?_ _ _
    exact h
  · extract_lets -merge -useContext -underBinder +onlyGivenNames x0
    extract_lets -merge -useContext -underBinder +onlyGivenNames x1
    extract_lets -merge -useContext -underBinder +onlyGivenNames x2
    have h2 : Keeps s0 x2 := by
      unfold x2
      refine State.sendX_keeps ?_ _
      exact h
    refine Keeps.ite (fun _ => ?_) (fun _ => ?_)
    · refine State.strand_keeps ?_ _ _
      exact h2
    · exact h2

theorem State.answerBusy_keeps {s0 s : State} (h : Keeps s0 s) (a_r : Sys2Proof.Machine.InReq) :
    Keeps s0 (State.answerBusy s a_r) := by
  unfold State.answerBusy
  extract_lets -merge -useContext -underBinder +onlyGivenNames x0
  refine State.sendCompletion_keeps ?_ _ _ _
  refine State.bump_keeps ?_ _
  exact h

theorem State.badFrame_keeps {s0 s : State} (h : Keeps s0 s) (a_source : ℕ) (a_b : List Sys2Proof.Byte) :
    Keeps s0 (State.badFrame s a_source a_b) := by
  unfold State.badFrame
  refine State.raise_keeps ?_ _ _
  refine State.qualFail_keeps ?_ _ _ _ _ _
  exact h

theorem State.releaseRequest_keeps {s0 s : State} (h : Keeps s0 s) (a_r : Sys2Proof.Machine.InReq) :
    Keeps s0 (State.releaseRequest s a_r) := by
  unfold State.releaseRequest
  extract_lets -merge -useContext -underBinder +onlyGivenNames x0
  extract_lets -merge -useContext -underBinder +onlyGivenNames x1
  extract_lets -merge -useContext -underBinder +onlyGivenNames x2
  refine Keeps.ite (fun _ => ?_) (fun _ => ?_)
  · refine State.bump_keeps ?_ _
    exact h
  · extract_lets -merge -useContext -underBinder +onlyGivenNames x3
    split
    · refine State.sendCompletion_keeps ?_ _ _ _
      refine State.bump_keeps ?_ _
      exact h
    · extract_lets -merge -useContext -underBinder +onlyGivenNames x6
      have h6 : Keeps s0 x6 := by
        unfold x6
        refine State.setXbr_keeps ?_ _
        exact h
      refine Keeps.ite (fun _ => ?_) (fun _ => ?_)
      · refine State.answerBusy_keeps ?_ _
        exact h6
      · refine State.setXbr_keeps ?_ _
        exact h6

theorem State.releasePosted_keeps {s0 s : State} (h : Keeps s0 s) (a_p : Sys2Proof.Machine.PostReq) :
    Keeps s0 (State.releasePosted s a_p) := by
  unfold State.releasePosted
  refine State.setXbr_keeps ?_ _
  exact h

theorem State.releaseFrame_keeps {s0 s : State} (h : Keeps s0 s) (a_source : ℕ) (a_f : Sys2Proof.Machine.XRecv) :
    Keeps s0 (State.releaseFrame s a_source a_f) := by
  unfold State.releaseFrame
  extract_lets -merge -useContext -underBinder +onlyGivenNames x0
  have h0 : Keeps s0 x0 := by
    unfold x0
    refine Keeps.ite (fun _ => ?_) (fun _ => ?_)
    · exact h
    · refine State.badFrame_keeps ?_ _ _
      exact h
  refine Keeps.ite (fun _ => ?_) (fun _ => ?_)
  · refine Keeps.ite (fun _ => ?_) (fun _ => ?_)
    · refine State.releaseCompletion_keeps ?_ _ _
      exact h0
    · exact h0
  · refine Keeps.ite (fun _ => ?_) (fun _ => ?_)
    · refine State.releaseRequest_keeps ?_ _
      exact h0
    · refine State.releasePosted_keeps ?_ _
      exact h0

theorem State.setOrder_keeps {s0 s : State} (h : Keeps s0 s) (a_source : ℕ) (a_o : Sys2Proof.Machine.Order) :
    Keeps s0 (State.setOrder s a_source a_o) := by
  unfold State.setOrder
  refine State.setXbr_keeps ?_ _
  exact h

theorem State.releaseRun_keeps {s0 s : State} (h : Keeps s0 s) (source n : Nat) : Keeps s0 (s.releaseRun source n) := by
  induction n generalizing s with
  | zero => exact h
  | succ n ih =>
    unfold State.releaseRun
    split
    · exact h
    · split
      · exact h
      · refine ih ?_
        split
        · exact State.releaseFrame_keeps (State.setOrder_keeps h _ _) _ _
        · exact State.setOrder_keeps h _ _

theorem State.orderPlace_keeps {s0 s : State} (h : Keeps s0 s) (a_source : ℕ) (a_place : ℕ) (a_f : Option Sys2Proof.Machine.XRecv) :
    Keeps s0 (State.orderPlace s a_source a_place a_f) := by
  unfold State.orderPlace
  split
  · exact h
  · extract_lets -merge -useContext -underBinder +onlyGivenNames x2
    refine Keeps.ite (fun _ => ?_) (fun _ => ?_)
    · refine Keeps.ite (fun _ => ?_) (fun _ => ?_)
      · refine State.bump_keeps ?_ _
        exact h
      · exact h
    · refine Keeps.ite (fun _ => ?_) (fun _ => ?_)
      · extract_lets -merge -useContext -underBinder +onlyGivenNames x3
        have h3 : Keeps s0 x3 := by
          unfold x3
          refine State.setOrder_keeps ?_ _ _
          exact h
        extract_lets -merge -useContext -underBinder +onlyGivenNames x4
        have h4 : Keeps s0 x4 := by
          unfold x4
          split
          · refine State.releaseFrame_keeps ?_ _ _
            exact h3
          · exact h3
        refine State.releaseRun_keeps ?_ _ _
        exact h4
      · refine Keeps.ite (fun _ => ?_) (fun _ => ?_)
        · refine Keeps.ite (fun _ => ?_) (fun _ => ?_)
          · refine State.bump_keeps ?_ _
            exact h
          · exact h
        · refine Keeps.ite (fun _ => ?_) (fun _ => ?_)
          · refine State.raise_keeps ?_ _ _
            refine State.qualFail_keeps ?_ _ _ _ _ _
            exact h
          · refine State.setOrder_keeps ?_ _ _
            exact h

theorem State.gapLost_keeps {s0 s : State} (h : Keeps s0 s) (a_source : ℕ) :
    Keeps s0 (State.gapLost s a_source) := by
  unfold State.gapLost
  split
  · exact h
  · extract_lets -merge -useContext -underBinder +onlyGivenNames x2
    clear_value x2
    split
    · exact h
    · extract_lets -merge -useContext -underBinder +onlyGivenNames x5
      extract_lets -merge -useContext -underBinder +onlyGivenNames x6
      have h6 : Keeps s0 x6 := by
        unfold x6
        refine State.raise_keeps ?_ _ _
        refine State.qualFail_keeps ?_ _ _ _ _ _
        exact h
      extract_lets -merge -useContext -underBinder +onlyGivenNames x7
      have h7 : Keeps s0 x7 := by
        unfold x7
        refine State.sendReport_keeps ?_ _ _ _ _ _ _
        exact h6
      refine State.releaseRun_keeps ?_ _ _
      refine State.setOrder_keeps ?_ _ _
      exact h7

theorem State.gapsLost_keeps {s0 s : State} (h : Keeps s0 s) (source n : Nat) : Keeps s0 (s.gapsLost source n) := by
  induction n generalizing s with
  | zero => exact h
  | succ n ih => exact ih (State.gapLost_keeps h _)

theorem State.orderRoom_keeps {s0 s t : State} (h : Keeps s0 s) (e : s.orderRoom = some t) : Keeps s0 t := by
  unfold State.orderRoom at e
  split at e
  · injection e with e; exact e ▸ h
  · split at e
    · injection e with e; exact e ▸ State.setXbr_keeps h _
    · cases e

theorem State.orderJudge_keeps {s0 s : State} (h : Keeps s0 s) (source : Nat) (f : XRecv) : Keeps s0 (s.orderJudge source f) := by
  unfold State.orderJudge
  extract_lets b fresh
  have hf : ∀ y, Keeps s0 y → Keeps s0 (fresh y) := fun y hy => State.orderPlace_keeps (State.setOrder_keeps hy _ _) _ _ _
  split
  · split
    · exact hf _ (State.orderRoom_keeps h ‹_›)
    · exact State.bump_keeps h _
  · refine Keeps.ite (fun _ => Keeps.ite (fun _ => hf _ (State.gapsLost_keeps h _ _)) (fun _ => State.bump_keeps h _)) (fun _ => ?_)
    have hs := fun o => State.setOrder_keeps h source o
    exact Keeps.ite (fun _ => State.orderPlace_keeps (State.orderPlace_keeps (hs _) _ _ _) _ _ _) (fun _ => State.orderPlace_keeps (hs _) _ _ _)

theorem execTransactionFrameReceive_keeps {s0 s : State} (h : Keeps s0 s)  :
    Answers s0 (execTransactionFrameReceive s) := by
  refine ⟨_, rfl, ?_⟩
  split
  · exact h
  · extract_lets -merge -useContext -underBinder +onlyGivenNames x2
    have h2 : Keeps s0 x2 := by
      unfold x2
      refine State.setNet_keeps ?_ _
      exact h
    extract_lets -merge -useContext -underBinder +onlyGivenNames x3
    extract_lets -merge -useContext -underBinder +onlyGivenNames x4
    refine Keeps.ite (fun _ => ?_) (fun _ => ?_)
    · refine State.badFrame_keeps ?_ _ _
      exact h2
    · refine State.orderJudge_keeps ?_ _ _
      exact h2

theorem execGapLost_keeps {s0 s : State} (h : Keeps s0 s) (a_source : BitVec 16) :
    Answers s0 (execGapLost a_source s) := by
  refine ⟨_, rfl, ?_⟩
  refine Keeps.ite (fun _ => ?_) (fun _ => ?_)
  · refine State.gapLost_keeps ?_ _
    exact h
  · exact h

theorem execStreamAgeExpiry_keeps {s0 s : State} (h : Keeps s0 s) (a_source : BitVec 16) :
    Answers s0 (execStreamAgeExpiry a_source s) := by
  refine ⟨_, rfl, ?_⟩
  split
  · refine Keeps.ite (fun _ => ?_) (fun _ => ?_)
    · refine State.setOrder_keeps ?_ _ _
      exact h
    · exact h
  · exact h

theorem execStreamEntryIdleExpiry_keeps {s0 s : State} (h : Keeps s0 s) (a_dst : BitVec 16) :
    Answers s0 (execStreamEntryIdleExpiry a_dst s) := by
  refine ⟨_, rfl, ?_⟩
  extract_lets -merge -useContext -underBinder +onlyGivenNames x0
  split
  · exact h
  · refine Keeps.ite (fun _ => ?_) (fun _ => ?_)
    · exact h
    · extract_lets -merge -useContext -underBinder +onlyGivenNames x3
      have h3 : Keeps s0 x3 := by
        unfold x3
        refine State.setXbr_keeps ?_ _
        exact h
      split
      · exact h3
      · extract_lets -merge -useContext -underBinder +onlyGivenNames x6
        extract_lets -merge -useContext -underBinder +onlyGivenNames x7
        have h7 : Keeps s0 x7 := by
          unfold x7
          refine State.setXbr_keeps ?_ _
          exact h3
        refine Keeps.foldl ?_ (fun y8 a8 h8 => ?_)
        · exact h7
        · refine State.sendX_keeps ?_ _
          exact h8

theorem State.sendDiscard_keeps {s0 s : State} (h : Keeps s0 s) (a_dst : ℕ) (a_code : ℕ) (a_tag : ℕ) (a_addr : ℕ) (a_own : Bool) :
    Keeps s0 (State.sendDiscard s a_dst a_code a_tag a_addr a_own) := by
  unfold State.sendDiscard
  refine Keeps.ite (fun _ => ?_) (fun _ => ?_)
  · refine State.releasePosted_keeps ?_ _
    exact h
  · refine State.sendX_keeps ?_ _
    exact h

theorem State.sendPosted_keeps {s0 s : State} (h : Keeps s0 s) (a_p : Sys2Proof.Machine.XPend) (a_op : ℕ) :
    Keeps s0 (State.sendPosted s a_p a_op) := by
  unfold State.sendPosted
  extract_lets -merge -useContext -underBinder +onlyGivenNames x0
  extract_lets -merge -useContext -underBinder +onlyGivenNames x1
  have h1 : Keeps s0 x1 := by
    unfold x1
    refine State.bump_keeps ?_ _
    exact h
  extract_lets -merge -useContext -underBinder +onlyGivenNames x2
  extract_lets -merge -useContext -underBinder +onlyGivenNames x3
  extract_lets -merge -useContext -underBinder +onlyGivenNames x4
  refine Keeps.ite (fun _ => ?_) (fun _ => ?_)
  · refine State.releasePosted_keeps ?_ _
    exact h1
  · refine State.sendX_keeps ?_ _
    exact h1

theorem State.sendRequest_keeps {s0 s : State} (h : Keeps s0 s) (a_t : ℕ) (a_retry : Bool) :
    Keeps s0 (State.sendRequest s a_t a_retry) := by
  unfold State.sendRequest
  extract_lets -merge -useContext -underBinder +onlyGivenNames x0
  split
  · exact h
  · extract_lets -merge -useContext -underBinder +onlyGivenNames x3
    extract_lets -merge -useContext -underBinder +onlyGivenNames x4
    extract_lets -merge -useContext -underBinder +onlyGivenNames x5
    extract_lets -merge -useContext -underBinder +onlyGivenNames x6
    have h6 : Keeps s0 x6 := by
      unfold x6
      refine State.setTag_keeps ?_ _ _
      exact h
    refine Keeps.ite (fun _ => ?_) (fun _ => ?_)
    · refine State.releaseRequest_keeps ?_ _
      refine State.noteSent_keeps ?_ _ _
      exact h6
    · refine State.sendX_keeps ?_ _
      exact h6

theorem State.issueTag_keeps {s0 s : State} (h : Keeps s0 s) (a_p : Sys2Proof.Machine.XPend) (a_t : ℕ) :
    Keeps s0 (State.issueTag s a_p a_t) := by
  unfold State.issueTag
  extract_lets -merge -useContext -underBinder +onlyGivenNames x0
  extract_lets -merge -useContext -underBinder +onlyGivenNames x1
  have h1 : Keeps s0 x1 := by
    unfold x1
    refine State.setTag_keeps ?_ _ _
    refine State.bump_keeps ?_ _
    exact h
  refine State.sendRequest_keeps ?_ _ _
  exact h1

theorem State.tagStall_keeps {s0 s : State} (h : Keeps s0 s) (a_p : Sys2Proof.Machine.XPend) :
    Keeps s0 (State.tagStall s a_p) := by
  unfold State.tagStall
  extract_lets -merge -useContext -underBinder +onlyGivenNames x0
  extract_lets -merge -useContext -underBinder +onlyGivenNames x1
  have h1 : Keeps s0 x1 := by
    unfold x1
    refine State.setXbr_keeps ?_ _
    exact h
  refine Keeps.ite (fun _ => ?_) (fun _ => ?_)
  · refine State.gather_keeps ?_ _ _
    refine State.raise_keeps ?_ _ _
    refine State.bump_keeps ?_ _
    exact h1
  · exact h1

theorem State.issue_keeps {s0 s : State} (h : Keeps s0 s) (a_p : Sys2Proof.Machine.XPend) :
    Keeps s0 (State.issue s a_p) := by
  unfold State.issue
  extract_lets -merge -useContext -underBinder +onlyGivenNames x0
  refine Keeps.ite (fun _ => ?_) (fun _ => ?_)
  · refine Keeps.ite (fun _ => ?_) (fun _ => ?_)
    · refine State.setXbr_keeps ?_ _
      exact h
    · refine State.sendPosted_keeps ?_ _ _
      exact h
  · refine Keeps.ite (fun _ => ?_) (fun _ => ?_)
    · refine State.sendPosted_keeps ?_ _ _
      exact h
    · split
      · refine State.issueTag_keeps ?_ _ _
        exact h
      · refine State.tagStall_keeps ?_ _
        exact h

theorem execRequestIssue_keeps {s0 s : State} (h : Keeps s0 s) (a_q : Sys2Proof.XReq) (a_user : ℕ) :
    Answers s0 (execRequestIssue a_q a_user s) := by
  refine ⟨_, rfl, ?_⟩
  refine Keeps.ite (fun _ => ?_) (fun _ => ?_)
  · refine State.issue_keeps ?_ _
    exact h
  · exact h

theorem execTagStallEnd_keeps {s0 s : State} (h : Keeps s0 s)  :
    Answers s0 (execTagStallEnd s) := by
  refine ⟨_, rfl, ?_⟩
  split
  · refine State.issueTag_keeps ?_ _ _
    refine State.setXbr_keeps ?_ _
    exact h
  · exact h

theorem execRetryTimer_keeps {s0 s : State} (h : Keeps s0 s) (a_t : Fin 512) :
    Answers s0 (execRetryTimer a_t s) := by
  refine ⟨_, rfl, ?_⟩
  split
  · refine Keeps.ite (fun _ => ?_) (fun _ => ?_)
    · refine State.sendRequest_keeps ?_ _ _
      refine State.bump_keeps ?_ _
      exact h
    · exact h
  · exact h

theorem execBusyBackoffExpiry_keeps {s0 s : State} (h : Keeps s0 s) (a_t : Fin 512) :
    Answers s0 (execBusyBackoffExpiry a_t s) := by
  refine ⟨_, rfl, ?_⟩
  split
  · refine Keeps.ite (fun _ => ?_) (fun _ => ?_)
    · refine State.sendRequest_keeps ?_ _ _
      refine State.bump_keeps ?_ _
      exact h
    · exact h
  · exact h

theorem State.takeRec_keeps {s0 s : State} (h : Keeps s0 s) (a_r : Sys2Proof.Machine.Rec) :
    Keeps s0 (State.takeRec s a_r) := by
  unfold State.takeRec
  refine Keeps.ite (fun _ => ?_) (fun _ => ?_)
  · exact h
  · refine State.route_keeps ?_ _
    refine Keeps.ite (fun _ => ?_) (fun _ => ?_)
    · refine State.raise_keeps ?_ _ _
      exact h
    · exact h

theorem State.takeLost_keeps {s0 s : State} (h : Keeps s0 s) (a_r : Sys2Proof.Machine.Rec) :
    Keeps s0 (State.takeLost s a_r) := by
  unfold State.takeLost
  extract_lets -merge -useContext -underBinder +onlyGivenNames x0
  extract_lets -merge -useContext -underBinder +onlyGivenNames x1
  extract_lets -merge -useContext -underBinder +onlyGivenNames x2
  extract_lets -merge -useContext -underBinder +onlyGivenNames x3
  extract_lets -merge -useContext -underBinder +onlyGivenNames x4
  extract_lets -merge -useContext -underBinder +onlyGivenNames x5
  extract_lets -merge -useContext -underBinder +onlyGivenNames x6
  extract_lets -merge -useContext -underBinder +onlyGivenNames x7
  extract_lets -merge -useContext -underBinder +onlyGivenNames x8
  have h8 : Keeps s0 x8 := by
    unfold x8
    refine Keeps.foldl ?_ (fun y9 a9 h9 => ?_)
    · exact h
    · refine State.takeRec_keeps ?_ _
      exact h9
  split
  · extract_lets -merge -useContext -underBinder +onlyGivenNames x11
    refine Keeps.ite (fun _ => ?_) (fun _ => ?_)
    · exact h8
    · refine State.takeRec_keeps ?_ _
      exact h8
  · exact h8

theorem State.takeReport_keeps {s0 s : State} (h : Keeps s0 s) (a_lost : Bool) :
    Keeps s0 (State.takeReport s a_lost) := by
  unfold State.takeReport
  split
  · exact h
  · extract_lets -merge -useContext -underBinder +onlyGivenNames x2
    have h2 : Keeps s0 x2 := by
      unfold x2
      refine State.setNet_keeps ?_ _
      exact h
    refine Keeps.foldl ?_ (fun y3 a3 h3 => ?_)
    · exact h2
    · refine Keeps.ite (fun _ => ?_) (fun _ => ?_)
      · refine State.takeLost_keeps ?_ _
        exact h3
      · refine State.takeRec_keeps ?_ _
        exact h3

theorem execLostReportReceive_keeps {s0 s : State} (h : Keeps s0 s)  :
    Answers s0 (execLostReportReceive s) := by
  refine ⟨_, rfl, ?_⟩
  refine State.takeReport_keeps ?_ _
  exact h

theorem execEventReportReceive_keeps {s0 s : State} (h : Keeps s0 s)  :
    Answers s0 (execEventReportReceive s) := by
  refine ⟨_, rfl, ?_⟩
  refine State.takeReport_keeps ?_ _
  exact h

theorem State.msgRead_keeps {s0 s : State} (h : Keeps s0 s)  :
    Keeps s0 (State.msgRead s).2 := by
  unfold State.msgRead
  split
  · refine Keeps.pair2 ?_
    refine State.setXbr_keeps ?_ _
    exact h
  · refine Keeps.ite2 (fun _ => ?_) (fun _ => ?_)
    · refine Keeps.pair2 ?_
      refine State.setXbr_keeps ?_ _
      exact h
    · refine Keeps.pair2 ?_
      refine State.setXbr_keeps ?_ _
      exact h

theorem execMsgDataRead_keeps {s0 s : State} (h : Keeps s0 s)  :
    Answers s0 (execMsgDataRead s) := by
  refine ⟨_, rfl, ?_⟩
  refine State.answered_keeps ?_ _
  refine State.msgRead_keeps ?_ 
  exact h

theorem execMsgUnderClr_keeps {s0 s : State} (h : Keeps s0 s)  :
    Answers s0 (execMsgUnderClr s) := by
  refine ⟨_, rfl, ?_⟩
  refine State.setXbr_keeps ?_ _
  exact h

theorem execCcHoldExpiry_keeps {s0 s : State} (h : Keeps s0 s) (a_source : BitVec 16) (a_code : Sys2Proof.Byte) (a_tag : BitVec 14) :
    Answers s0 (execCcHoldExpiry a_source a_code a_tag s) := by
  refine ⟨_, rfl, ?_⟩
  extract_lets -merge -useContext -underBinder +onlyGivenNames x0
  refine State.setXbr_keeps ?_ _
  exact h

theorem State.qCfgWrite_keeps {s0 s : State} (h : Keeps s0 s) (a_n : ℕ) (a_v : Sys2Proof.Word) :
    Keeps s0 (State.qCfgWrite s a_n a_v) := by
  unfold State.qCfgWrite
  extract_lets -merge -useContext -underBinder +onlyGivenNames x0
  refine Keeps.ite (fun _ => ?_) (fun _ => ?_)
  · refine State.setFld_keeps ?_ _ _ _ _
    exact h
  · extract_lets -merge -useContext -underBinder +onlyGivenNames x1
    have h1 : Keeps s0 x1 := by
      unfold x1
      refine State.wr_keeps ?_ _ _
      exact h
    refine Keeps.ite (fun _ => ?_) (fun _ => ?_)
    · refine State.setEvQueue_keeps ?_ _ _
      exact h1
    · exact h1

theorem execQCfgWrite_keeps {s0 s : State} (h : Keeps s0 s) (a_n : Fin 16) (a_v : Sys2Proof.Word) :
    Answers s0 (execQCfgWrite a_n a_v s) := by
  refine ⟨_, rfl, ?_⟩
  refine State.qCfgWrite_keeps ?_ _ _
  exact h

theorem State.qCiWrite_keeps {s0 s : State} (h : Keeps s0 s) (a_n : ℕ) (a_v : Sys2Proof.Word) :
    Keeps s0 (State.qCiWrite s a_n a_v) := by
  unfold State.qCiWrite
  extract_lets -merge -useContext -underBinder +onlyGivenNames x0
  have h0 : Keeps s0 x0 := by
    unfold x0
    refine State.wr_keeps ?_ _ _
    exact h
  refine Keeps.ite (fun _ => ?_) (fun _ => ?_)
  · refine State.qualFail_keeps ?_ _ _ _ _ _
    exact h
  · refine State.evRecover_keeps ?_ _
    exact h0

theorem execQCiWrite_keeps {s0 s : State} (h : Keeps s0 s) (a_n : Fin 16) (a_v : Sys2Proof.Word) :
    Answers s0 (execQCiWrite a_n a_v s) := by
  refine ⟨_, rfl, ?_⟩
  refine State.qCiWrite_keeps ?_ _ _
  exact h

theorem execEvqHoldoffExpiry_keeps {s0 s : State} (h : Keeps s0 s) (a_n : Fin 16) :
    Answers s0 (execEvqHoldoffExpiry a_n s) := by
  refine ⟨_, rfl, ?_⟩
  split
  · refine Keeps.ite (fun _ => ?_) (fun _ => ?_)
    · refine State.evAnnounce_keeps ?_ _
      exact h
    · exact h
  · exact h

theorem State.postCmd_keeps {s0 s : State} (h : Keeps s0 s) (a_v : Sys2Proof.Word) :
    Keeps s0 (State.postCmd s a_v) := by
  unfold State.postCmd
  refine Keeps.ite (fun _ => ?_) (fun _ => ?_)
  · refine State.postFull_keeps ?_ _ _ _ _ _ _ _ _ _ _ _
    exact h
  · exact h

theorem execPostCmd_keeps {s0 s : State} (h : Keeps s0 s) (a_v : Sys2Proof.Word) :
    Answers s0 (execPostCmd a_v s) := by
  refine ⟨_, rfl, ?_⟩
  refine State.postCmd_keeps ?_ _
  exact h

theorem State.setDma_keeps {s0 s : State} (h : Keeps s0 s) (a_c : ℕ) (a_f : Sys2Proof.Machine.DmaSt → Sys2Proof.Machine.DmaSt) :
    Keeps s0 (State.setDma s a_c a_f) := by
  unfold State.setDma
  refine Keeps.mk_upd ?_ rfl
  exact h

theorem State.dmaFail_keeps {s0 s : State} (h : Keeps s0 s) (a_c : ℕ) (a_status : ℕ) (a_addr : ℕ) :
    Keeps s0 (State.dmaFail s a_c a_status a_addr) := by
  unfold State.dmaFail
  refine State.setDma_keeps ?_ _ _
  exact h

theorem State.dmaRead_keeps {s0 s : State} (h : Keeps s0 s) (a_c : ℕ) :
    Keeps s0 (State.dmaRead s a_c) := by
  unfold State.dmaRead
  extract_lets -merge -useContext -underBinder +onlyGivenNames x0
  extract_lets -merge -useContext -underBinder +onlyGivenNames x1
  extract_lets -merge -useContext -underBinder +onlyGivenNames x2
  extract_lets -merge -useContext -underBinder +onlyGivenNames x3
  have h3 : Keeps s0 x3 := by
    unfold x3
    refine State.setDma_keeps ?_ _ _
    exact h
  refine Keeps.ite (fun _ => ?_) (fun _ => ?_)
  · refine State.sendTlp_keeps ?_ _
    exact h3
  · extract_lets -merge -useContext -underBinder +onlyGivenNames x4
    refine State.issue_keeps ?_ _
    exact h3

theorem State.dmaWrite_keeps {s0 s : State} (h : Keeps s0 s) (a_c : ℕ) (a_data : List Sys2Proof.Byte) :
    Keeps s0 (State.dmaWrite s a_c a_data) := by
  unfold State.dmaWrite
  extract_lets -merge -useContext -underBinder +onlyGivenNames x0
  extract_lets -merge -useContext -underBinder +onlyGivenNames x1
  extract_lets -merge -useContext -underBinder +onlyGivenNames x2
  extract_lets -merge -useContext -underBinder +onlyGivenNames x3
  extract_lets -merge -useContext -underBinder +onlyGivenNames x4
  extract_lets -merge -useContext -underBinder +onlyGivenNames x5
  have h5 : Keeps s0 x5 := by
    unfold x5
    refine State.setDma_keeps ?_ _ _
    exact h
  extract_lets -merge -useContext -underBinder +onlyGivenNames x6
  have h6 : Keeps s0 x6 := by
    unfold x6
    refine State.wr_keeps ?_ _ _
    exact h5
  refine Keeps.ite (fun _ => ?_) (fun _ => ?_)
  · refine State.sendTlp_keeps ?_ _
    exact h6
  · extract_lets -merge -useContext -underBinder +onlyGivenNames x7
    have h7 : Keeps s0 x7 := by
      unfold x7
      refine Keeps.ite (fun _ => ?_) (fun _ => ?_)
      · exact h6
      · refine State.setDma_keeps ?_ _ _
        exact h6
    refine State.issue_keeps ?_ _
    exact h7

theorem State.dmaPump_keeps {s0 s : State} (h : Keeps s0 s) (c n : Nat) : Keeps s0 (s.dmaPump c n) := by
  induction n generalizing s with
  | zero => exact h
  | succ n ih =>
    have h1 := State.setDma_keeps h c DmaSt.joined
    unfold State.dmaPump
    generalize s.setDma c DmaSt.joined = s at h1 ⊢
    refine Keeps.ite (fun _ => h1) (fun _ => ?_)
    extract_lets hand
    clear_value hand
    split
    · exact ih (State.dmaWrite_keeps h1 _ _)
    · exact Keeps.ite (fun _ => ih (State.dmaRead_keeps h1 _)) (fun _ => h1)

theorem State.dmaAnswer_keeps {s0 s : State} (h : Keeps s0 s) (a_c : ℕ) (a_user : ℕ) (a_status : ℕ) (a_data : List Sys2Proof.Byte) :
    Keeps s0 (State.dmaAnswer s a_c a_user a_status a_data) := by
  unfold State.dmaAnswer
  extract_lets -merge -useContext -underBinder +onlyGivenNames x0
  refine Keeps.ite (fun _ => ?_) (fun _ => ?_)
  · split
    · exact h
    · extract_lets -merge -useContext -underBinder +onlyGivenNames x3
      have h3 : Keeps s0 x3 := by
        unfold x3
        refine State.setDma_keeps ?_ _ _
        exact h
      refine Keeps.ite (fun _ => ?_) (fun _ => ?_)
      · exact h3
      · refine State.dmaFail_keeps ?_ _ _ _
        exact h3
  · split
    · exact h
    · extract_lets -merge -useContext -underBinder +onlyGivenNames x6
      extract_lets -merge -useContext -underBinder +onlyGivenNames x7
      extract_lets -merge -useContext -underBinder +onlyGivenNames x8
      extract_lets -merge -useContext -underBinder +onlyGivenNames x9
      have h9 : Keeps s0 x9 := by
        unfold x9
        refine State.setDma_keeps ?_ _ _
        exact h
      refine Keeps.ite (fun _ => ?_) (fun _ => ?_)
      · refine State.dmaPump_keeps ?_ _ _
        exact h9
      · refine State.dmaFail_keeps ?_ _ _ _
        exact h9

theorem State.dmaPumpAll_keeps {s0 s : State} (h : Keeps s0 s)  :
    Keeps s0 (State.dmaPumpAll s) := by
  unfold State.dmaPumpAll
  refine Keeps.foldl ?_ (fun y0 a0 h0 => ?_)
  · exact h
  · refine State.dmaPump_keeps ?_ _ _
    exact h0

theorem State.dmaForsake_keeps {s0 s : State} (h : Keeps s0 s) (a_c : ℕ) :
    Keeps s0 (State.dmaForsake s a_c) := by
  unfold State.dmaForsake
  extract_lets -merge -useContext -underBinder +onlyGivenNames x0
  extract_lets -merge -useContext -underBinder +onlyGivenNames x1
  refine State.setXbr_keeps ?_ _
  exact h

theorem State.dcReset_keeps {s0 s : State} (h : Keeps s0 s) (a_c : ℕ) :
    Keeps s0 (State.dcReset s a_c) := by
  unfold State.dcReset
  refine State.setDma_keeps ?_ _ _
  refine State.dmaForsake_keeps ?_ _
  refine State.wr_keeps ?_ _ _
  refine State.wr_keeps ?_ _ _
  refine State.wr_keeps ?_ _ _
  exact h

theorem State.dcCtrlWrite_keeps {s0 s : State} (h : Keeps s0 s) (a_c : ℕ) (a_v : Sys2Proof.Word) :
    Keeps s0 (State.dcCtrlWrite s a_c a_v) := by
  unfold State.dcCtrlWrite
  extract_lets -merge -useContext -underBinder +onlyGivenNames x0
  have h0 : Keeps s0 x0 := by
    unfold x0
    refine Keeps.ite (fun _ => ?_) (fun _ => ?_)
    · refine State.dcReset_keeps ?_ _
      exact h
    · exact h
  refine Keeps.ite (fun _ => ?_) (fun _ => ?_)
  · refine State.setFld_keeps ?_ _ _ _ _
    refine State.wr_keeps ?_ _ _
    exact h0
  · refine State.wr_keeps ?_ _ _
    exact h0

theorem execDcRunWrite_keeps {s0 s : State} (h : Keeps s0 s) (a_c : Fin 8) (a_v : Sys2Proof.Word) :
    Answers s0 (execDcRunWrite a_c a_v s) := by
  refine ⟨_, rfl, ?_⟩
  refine State.dcCtrlWrite_keeps ?_ _ _
  exact h

theorem execDcTailWrite_keeps {s0 s : State} (h : Keeps s0 s) (a_c : Fin 8) (a_v : Sys2Proof.Word) :
    Answers s0 (execDcTailWrite a_c a_v s) := by
  refine ⟨_, rfl, ?_⟩
  refine State.wr_keeps ?_ _ _
  exact h

theorem execDcReset_keeps {s0 s : State} (h : Keeps s0 s) (a_c : Fin 8) :
    Answers s0 (execDcReset a_c s) := by
  refine ⟨_, rfl, ?_⟩
  refine State.dcReset_keeps ?_ _
  exact h

theorem execDmaDescriptorExecute_keeps {s0 s : State} (h : Keeps s0 s) (a_c : Fin 8) (a_fetched : Sys2Proof.HostCpl) :
    Answers s0 (execDmaDescriptorExecute a_c a_fetched s) := by
  refine ⟨_, rfl, ?_⟩
  extract_lets -merge -useContext -underBinder +onlyGivenNames x0
  refine Keeps.ite (fun _ => ?_) (fun _ => ?_)
  · exact h
  · extract_lets -merge -useContext -underBinder +onlyGivenNames x1
    extract_lets -merge -useContext -underBinder +onlyGivenNames x2
    have h2 : ∀ w2_0, Keeps s0 (x2 w2_0) := by
      intro w2_0
      unfold x2
      extract_lets -merge -useContext -underBinder +onlyGivenNames x3
      extract_lets -merge -useContext -underBinder +onlyGivenNames x4
      refine Keeps.ite (fun _ => ?_) (fun _ => ?_)
      · exact h
      · extract_lets -merge -useContext -underBinder +onlyGivenNames x5
        have h5 : Keeps s0 x5 := by
          unfold x5
          refine State.setDma_keeps ?_ _ _
          exact h
        refine Keeps.ite (fun _ => ?_) (fun _ => ?_)
        · refine State.dmaFail_keeps ?_ _ _ _
          exact h5
        · refine State.dmaPump_keeps ?_ _ _
          exact h5
    extract_lets -merge -useContext -underBinder +onlyGivenNames x6
    have h6 : ∀ w6_0, Keeps s0 (x6 w6_0) := by
      intro w6_0
      unfold x6
      refine State.dmaFail_keeps ?_ _ _ _
      refine State.setDma_keeps ?_ _ _
      exact h
    refine Keeps.ite (fun _ => ?_) (fun _ => ?_)
    · split
      · exact h2 _
      · exact h6 _
    · refine Keeps.ite (fun _ => ?_) (fun _ => ?_)
      · exact h2 _
      · exact h6 _

theorem State.dmaWriteBack_keeps {s0 s : State} (h : Keeps s0 s) (a_c : ℕ) (a_status : ℕ) (a_bytes : ℕ) :
    Keeps s0 (State.dmaWriteBack s a_c a_status a_bytes) := by
  unfold State.dmaWriteBack
  extract_lets -merge -useContext -underBinder +onlyGivenNames x0
  extract_lets -merge -useContext -underBinder +onlyGivenNames x1
  refine Keeps.ite (fun _ => ?_) (fun _ => ?_)
  · refine State.sendTlp_keeps ?_ _
    exact h
  · refine Keeps.ite (fun _ => ?_) (fun _ => ?_)
    · refine State.memPut_keeps ?_ _ _
      exact h
    · exact h

theorem execDmaDescriptorComplete_keeps {s0 s : State} (h : Keeps s0 s) (a_c : Fin 8) :
    Answers s0 (execDmaDescriptorComplete a_c s) := by
  refine ⟨_, rfl, ?_⟩
  extract_lets -merge -useContext -underBinder +onlyGivenNames x0
  extract_lets -merge -useContext -underBinder +onlyGivenNames x1
  extract_lets -merge -useContext -underBinder +onlyGivenNames x2
  refine Keeps.ite (fun _ => ?_) (fun _ => ?_)
  · exact h
  · split
    · refine Keeps.ite (fun _ => ?_) (fun _ => ?_)
      · exact h
      · extract_lets -merge -useContext -underBinder +onlyGivenNames x4
        have h4 : Keeps s0 x4 := by
          unfold x4
          refine State.setDma_keeps ?_ _ _
          refine State.dmaWriteBack_keeps ?_ _ _ _
          exact h
        extract_lets -merge -useContext -underBinder +onlyGivenNames x5
        have h5 : Keeps s0 x5 := by
          unfold x5
          refine State.wr_keeps ?_ _ _
          refine State.wr_keeps ?_ _ _
          exact h4
        refine State.post_keeps ?_ _ _ _ _ _ _ _ _
        refine State.raise_keeps ?_ _ _
        exact h5
    · refine Keeps.ite (fun _ => ?_) (fun _ => ?_)
      · exact h
      · extract_lets -merge -useContext -underBinder +onlyGivenNames x7
        have h7 : Keeps s0 x7 := by
          unfold x7
          refine State.setDma_keeps ?_ _ _
          refine State.dmaWriteBack_keeps ?_ _ _ _
          exact h
        extract_lets -merge -useContext -underBinder +onlyGivenNames x8
        have h8 : Keeps s0 x8 := by
          unfold x8
          refine State.wr_keeps ?_ _ _
          refine State.setFld_keeps ?_ _ _ _ _
          exact h7
        refine Keeps.ite (fun _ => ?_) (fun _ => ?_)
        · refine State.post_keeps ?_ _ _ _ _ _ _ _ _
          refine State.raise_keeps ?_ _ _
          exact h8
        · exact h8

theorem State.dmaHostAbort_keeps {s0 s : State} (h : Keeps s0 s) (a_c : ℕ) :
    Keeps s0 (State.dmaHostAbort s a_c) := by
  unfold State.dmaHostAbort
  extract_lets -merge -useContext -underBinder +onlyGivenNames x0
  extract_lets -merge -useContext -underBinder +onlyGivenNames x1
  extract_lets -merge -useContext -underBinder +onlyGivenNames x2
  have h2 : Keeps s0 x2 := by
    unfold x2
    refine Keeps.ite (fun _ => ?_) (fun _ => ?_)
    · refine State.dmaWriteBack_keeps ?_ _ _ _
      exact h
    · exact h
  extract_lets -merge -useContext -underBinder +onlyGivenNames x3
  have h3 : Keeps s0 x3 := by
    unfold x3
    refine State.setDma_keeps ?_ _ _
    refine State.dmaForsake_keeps ?_ _
    exact h2
  extract_lets -merge -useContext -underBinder +onlyGivenNames x4
  have h4 : Keeps s0 x4 := by
    unfold x4
    refine State.wr_keeps ?_ _ _
    refine State.wr_keeps ?_ _ _
    exact h3
  extract_lets -merge -useContext -underBinder +onlyGivenNames x5
  have h5 : Keeps s0 x5 := by
    unfold x5
    refine State.raise_keeps ?_ _ _
    exact h4
  refine Keeps.ite (fun _ => ?_) (fun _ => ?_)
  · refine State.post_keeps ?_ _ _ _ _ _ _ _ _
    exact h5
  · exact h5

theorem State.setHost_keeps {s0 s : State} (h : Keeps s0 s) (a_f : Sys2Proof.Machine.HostSt → Sys2Proof.Machine.HostSt) :
    Keeps s0 (State.setHost s a_f) := by
  unfold State.setHost
  refine Keeps.mk_upd ?_ rfl
  exact h

theorem execPerstDeassert_keeps {s0 s : State} (h : Keeps s0 s)  :
    Answers s0 (execPerstDeassert s) := by
  refine ⟨_, rfl, ?_⟩
  refine Keeps.ite (fun _ => ?_) (fun _ => ?_)
  · refine State.setHost_keeps ?_ _
    exact h
  · exact h

theorem execCfgRetryTimeout_keeps {s0 s : State} (h : Keeps s0 s)  :
    Answers s0 (execCfgRetryTimeout s) := by
  refine ⟨_, rfl, ?_⟩
  refine Keeps.ite (fun _ => ?_) (fun _ => ?_)
  · refine State.setHost_keeps ?_ _
    exact h
  · exact h

theorem State.msixRelease_keeps {s0 s : State} (h : Keeps s0 s) (a_v : ℕ) :
    Keeps s0 (State.msixRelease s a_v) := by
  unfold State.msixRelease
  extract_lets -merge -useContext -underBinder +onlyGivenNames x0
  refine Keeps.ite (fun _ => ?_) (fun _ => ?_)
  · refine State.sendTlp_keeps ?_ _
    refine Keeps.mk_upd ?_ rfl
    exact h
  · exact h

theorem execHostConfigRequest_keeps {s0 s : State} (h : Keeps s0 s) (a_q : Sys2Proof.HostConfig) :
    Answers s0 (execHostConfigRequest a_q s) := by
  refine ⟨_, rfl, ?_⟩
  refine Keeps.ite (fun _ => ?_) (fun _ => ?_)
  · exact h
  · refine Keeps.ite (fun _ => ?_) (fun _ => ?_)
    · refine State.sendTlp_keeps ?_ _
      exact h
    · extract_lets -merge -useContext -underBinder +onlyGivenNames x0
      have h0 : Keeps s0 x0 := by
        unfold x0
        refine State.sendTlp_keeps ?_ _
        exact h
      split
      · exact h0
      · refine State.setHost_keeps ?_ _
        exact h0
      · refine State.setHost_keeps ?_ _
        exact h0
      · extract_lets -merge -useContext -underBinder +onlyGivenNames x5
        have h5 : Keeps s0 x5 := by
          unfold x5
          refine Keeps.mk_upd ?_ rfl
          exact h0
        refine Keeps.foldl ?_ (fun y6 a6 h6 => ?_)
        · exact h5
        · refine State.msixRelease_keeps ?_ _
          exact h6

theorem execMsixUnmask_keeps {s0 s : State} (h : Keeps s0 s) (a_v : Fin 64) :
    Answers s0 (execMsixUnmask a_v s) := by
  refine ⟨_, rfl, ?_⟩
  extract_lets -merge -useContext -underBinder +onlyGivenNames x0
  extract_lets -merge -useContext -underBinder +onlyGivenNames x1
  extract_lets -merge -useContext -underBinder +onlyGivenNames x2
  have h2 : Keeps s0 x2 := by
    unfold x2
    refine Keeps.mk_upd ?_ rfl
    exact h
  refine State.msixRelease_keeps ?_ _
  exact h2

theorem State.hostReadError_keeps {s0 s : State} (h : Keeps s0 s) (a_node : ℕ) (a_addr : ℕ) (a_status : ℕ) (a_len : ℕ) (a_answer : Bool) :
    Keeps s0 (State.hostReadError s a_node a_addr a_status a_len a_answer) := by
  unfold State.hostReadError
  extract_lets -merge -useContext -underBinder +onlyGivenNames x0
  have h0 : Keeps s0 x0 := by
    unfold x0
    refine State.wr_keeps ?_ _ _
    refine State.wr_keeps ?_ _ _
    refine State.wr_keeps ?_ _ _
    exact h
  extract_lets -merge -useContext -underBinder +onlyGivenNames x1
  have h1 : Keeps s0 x1 := by
    unfold x1
    refine State.raise_keeps ?_ _ _
    refine State.bump_keeps ?_ _
    exact h0
  refine Keeps.ite (fun _ => ?_) (fun _ => ?_)
  · exact h1
  · refine Keeps.ite (fun _ => ?_) (fun _ => ?_)
    · refine State.sendTlp_keeps ?_ _
      exact h1
    · refine State.sendTlp_keeps ?_ _
      exact h1

theorem State.hostRead_keeps {s0 s : State} (h : Keeps s0 s) (a_bar : Sys2Proof.HostBar) (a_off : ℕ) (a_len : ℕ) :
    Keeps s0 (State.hostRead s a_bar a_off a_len) := by
  unfold State.hostRead
  split
  · extract_lets -merge -useContext -underBinder +onlyGivenNames x1
    extract_lets -merge -useContext -underBinder +onlyGivenNames x2
    refine State.sendTlp_keeps ?_ _
    exact h
  · extract_lets -merge -useContext -underBinder +onlyGivenNames x4
    refine State.hostReadError_keeps ?_ _ _ _ _ _
    exact h
  · refine Keeps.ite (fun _ => ?_) (fun _ => ?_)
    · refine State.hostReadError_keeps ?_ _ _ _ _ _
      refine State.raise_keeps ?_ _ _
      refine State.qualFail_keeps ?_ _ _ _ _ _
      exact h
    · extract_lets -merge -useContext -underBinder +onlyGivenNames x6
      extract_lets -merge -useContext -underBinder +onlyGivenNames x7
      extract_lets -merge -useContext -underBinder +onlyGivenNames x8
      extract_lets -merge -useContext -underBinder +onlyGivenNames x9
      have h9 : Keeps s0 x9 := by
        unfold x9
        refine State.setHost_keeps ?_ _
        exact h
      refine Keeps.foldl ?_ (fun y10 a10 h10 => ?_)
      · exact h9
      · split
        · refine State.issue_keeps ?_ _
          exact h10
        · exact h10

theorem State.badTlp_keeps {s0 s : State} (h : Keeps s0 s) (a_ty : ℕ) :
    Keeps s0 (State.badTlp s a_ty) := by
  unfold State.badTlp
  refine State.raise_keeps ?_ _ _
  refine State.qualFail_keeps ?_ _ _ _ _ _
  exact h

theorem execHostMemoryRead_keeps {s0 s : State} (h : Keeps s0 s) (a_bar : Sys2Proof.HostBar) (a_off : BitVec 30) (a_len : BitVec 10) (a_bad : Bool) :
    Answers s0 (execHostMemoryRead a_bar a_off a_len a_bad s) := by
  refine ⟨_, rfl, ?_⟩
  refine Keeps.ite (fun _ => ?_) (fun _ => ?_)
  · exact h
  · refine Keeps.ite (fun _ => ?_) (fun _ => ?_)
    · refine State.badTlp_keeps ?_ _
      exact h
    · refine State.hostRead_keeps ?_ _ _ _
      exact h

theorem State.hostAnswer_keeps {s0 s : State} (h : Keeps s0 s) (a_user : ℕ) (a_status : ℕ) (a_data : List Sys2Proof.Byte) :
    Keeps s0 (State.hostAnswer s a_user a_status a_data) := by
  unfold State.hostAnswer
  extract_lets -merge -useContext -underBinder +onlyGivenNames x0
  extract_lets -merge -useContext -underBinder +onlyGivenNames x1
  split
  · exact h
  · extract_lets -merge -useContext -underBinder +onlyGivenNames x4
    refine Keeps.ite (fun _ => ?_) (fun _ => ?_)
    · extract_lets -merge -useContext -underBinder +onlyGivenNames x5
      have h5 : Keeps s0 x5 := by
        unfold x5
        refine State.setHost_keeps ?_ _
        exact h
      split
      · refine State.hostReadError_keeps ?_ _ _ _ _ _
        exact h5
      · extract_lets -merge -useContext -underBinder +onlyGivenNames x8
        refine State.sendTlp_keeps ?_ _
        exact h5
    · refine State.setHost_keeps ?_ _
      exact h

theorem State.abandon_keeps {s0 s : State} (h : Keeps s0 s) (a_r : Sys2Proof.Machine.HostRead) :
    Keeps s0 (State.abandon s a_r) := by
  unfold State.abandon
  refine State.bump_keeps ?_ _
  refine State.setHost_keeps ?_ _
  exact h

theorem execHostReadAbandon_keeps {s0 s : State} (h : Keeps s0 s) (a_num : ℕ) :
    Answers s0 (execHostReadAbandon a_num s) := by
  refine ⟨_, rfl, ?_⟩
  split
  · exact h
  · refine Keeps.ite (fun _ => ?_) (fun _ => ?_)
    · exact h
    · extract_lets -merge -useContext -underBinder +onlyGivenNames x2
      refine State.hostReadError_keeps ?_ _ _ _ _ _
      refine State.abandon_keeps ?_ _
      exact h

theorem State.npLate_keeps {s0 s : State} (h : Keeps s0 s) (a_hostWrite : Bool) (a_status : ℕ) (a_code : ℕ) (a_tag : ℕ) (a_node : ℕ) (a_addr : ℕ) :
    Keeps s0 (State.npLate s a_hostWrite a_status a_code a_tag a_node a_addr) := by
  unfold State.npLate
  refine State.post_keeps ?_ _ _ _ _ _ _ _ _
  refine State.raise_keeps ?_ _ _
  exact h

theorem State.msixWord_keeps {s0 s : State} (h : Keeps s0 s) (a_i : ℕ) (a_w : Sys2Proof.Word) :
    Keeps s0 (State.msixWord s a_i a_w) := by
  unfold State.msixWord
  refine Keeps.ite (fun _ => ?_) (fun _ => ?_)
  · exact h
  · extract_lets -merge -useContext -underBinder +onlyGivenNames x0
    extract_lets -merge -useContext -underBinder +onlyGivenNames x1
    extract_lets -merge -useContext -underBinder +onlyGivenNames x2
    extract_lets -merge -useContext -underBinder +onlyGivenNames x3
    have h3 : Keeps s0 x3 := by
      unfold x3
      refine Keeps.mk_upd ?_ rfl
      exact h
    refine State.msixRelease_keeps ?_ _
    exact h3

theorem execHostMemoryWrite_keeps {s0 s : State} (h : Keeps s0 s) (a_bar : Sys2Proof.HostBar) (a_off : BitVec 30) (a_data : List Sys2Proof.Byte) (a_bad : Bool) :
    Answers s0 (execHostMemoryWrite a_bar a_off a_data a_bad s) := by
  refine ⟨_, rfl, ?_⟩
  extract_lets -merge -useContext -underBinder +onlyGivenNames x0
  extract_lets -merge -useContext -underBinder +onlyGivenNames x1
  refine Keeps.ite (fun _ => ?_) (fun _ => ?_)
  · exact h
  · refine Keeps.ite (fun _ => ?_) (fun _ => ?_)
    · refine State.badTlp_keeps ?_ _
      exact h
    · split
      · refine Keeps.ite (fun _ => ?_) (fun _ => ?_)
        · refine Keeps.foldl ?_ (fun y3 a3 h3 => ?_)
          · exact h
          · refine State.msixWord_keeps ?_ _ _
            exact h3
        · exact h
      · extract_lets -merge -useContext -underBinder +onlyGivenNames x5
        refine State.npLate_keeps ?_ _ _ _ _ _ _
        exact h
      · refine Keeps.foldl ?_ (fun y7 a7 h7 => ?_)
        · exact h
        · refine State.issue_keeps ?_ _
          exact h7

theorem State.hostLink_keeps {s0 s : State} (h : Keeps s0 s) (a_cause : ℕ) (a_queues : ℕ) (a_channels : ℕ) :
    Keeps s0 (State.hostLink s a_cause a_queues a_channels) := by
  unfold State.hostLink
  extract_lets -merge -useContext -underBinder +onlyGivenNames x0
  refine State.post_keeps ?_ _ _ _ _ _ _ _ _
  exact h

theorem execHostLinkUp_keeps {s0 s : State} (h : Keeps s0 s) (a_speed : Fin 4) (a_width : Fin 8) :
    Answers s0 (execHostLinkUp a_speed a_width s) := by
  refine ⟨_, rfl, ?_⟩
  refine Keeps.ite (fun _ => ?_) (fun _ => ?_)
  · exact h
  · extract_lets -merge -useContext -underBinder +onlyGivenNames x0
    have h0 : Keeps s0 x0 := by
      unfold x0
      refine State.setHost_keeps ?_ _
      exact h
    refine State.hostLink_keeps ?_ _ _ _
    refine State.raise_keeps ?_ _ _
    exact h0

theorem State.hostReset_keeps {s0 s : State} (h : Keeps s0 s) (a_cause : Sys2Proof.HostReset) :
    Keeps s0 (State.hostReset s a_cause) := by
  unfold State.hostReset
  extract_lets -merge -useContext -underBinder +onlyGivenNames x0
  have h0 : Keeps s0 x0 := by
    unfold x0
    refine Keeps.foldl ?_ (fun y1 a1 h1 => ?_)
    · exact h
    · refine State.abandon_keeps ?_ _
      exact h1
  extract_lets -merge -useContext -underBinder +onlyGivenNames x2
  have h2 : Keeps s0 x2 := by
    unfold x2
    refine Keeps.mk_upd ?_ rfl
    exact h0
  extract_lets -merge -useContext -underBinder +onlyGivenNames x3
  have h3 : Keeps s0 x3 := by
    unfold x3
    refine Keeps.foldl ?_ (fun y4 a4 h4 => ?_)
    · exact h2
    · refine State.wr_keeps ?_ _ _
      refine State.wr_keeps ?_ _ _
      exact h4
  extract_lets -merge -useContext -underBinder +onlyGivenNames x5
  have h5 : Keeps s0 x5 := by
    unfold x5
    refine State.setFld_keeps ?_ _ _ _ _
    exact h3
  extract_lets -merge -useContext -underBinder +onlyGivenNames x6
  extract_lets -merge -useContext -underBinder +onlyGivenNames x7
  have h7 : Keeps s0 x7 := by
    unfold x7
    refine Keeps.foldl ?_ (fun y8 a8 h8 => ?_)
    · exact h5
    · refine State.setFld_keeps ?_ _ _ _ _
      exact h8
  extract_lets -merge -useContext -underBinder +onlyGivenNames x9
  extract_lets -merge -useContext -underBinder +onlyGivenNames x10
  have h10 : Keeps s0 x10 := by
    unfold x10
    refine Keeps.foldl ?_ (fun y11 a11 h11 => ?_)
    · exact h7
    · refine State.dmaHostAbort_keeps ?_ _
      exact h11
  extract_lets -merge -useContext -underBinder +onlyGivenNames x12
  extract_lets -merge -useContext -underBinder +onlyGivenNames x13
  have h13 : Keeps s0 x13 := by
    unfold x13
    refine Keeps.ite (fun _ => ?_) (fun _ => ?_)
    · refine State.raise_keeps ?_ _ _
      exact h10
    · exact h10
  extract_lets -merge -useContext -underBinder +onlyGivenNames x14
  have h14 : Keeps s0 x14 := by
    unfold x14
    refine State.setHost_keeps ?_ _
    exact h13
  extract_lets -merge -useContext -underBinder +onlyGivenNames x15
  extract_lets -merge -useContext -underBinder +onlyGivenNames x16
  refine State.hostLink_keeps ?_ _ _ _
  refine State.raise_keeps ?_ _ _
  refine State.bump_keeps ?_ _
  exact h14

theorem execHostReset_keeps {s0 s : State} (h : Keeps s0 s) (a_cause : Sys2Proof.HostReset) :
    Answers s0 (execHostReset a_cause s) := by
  refine ⟨_, rfl, ?_⟩
  refine State.hostReset_keeps ?_ _
  exact h

theorem execHostCompletionReceive_keeps {s0 s : State} (h : Keeps s0 s) (a_c : Fin 8) (a_off : ℕ) (a_r : Sys2Proof.HostCpl) :
    Answers s0 (execHostCompletionReceive a_c a_off a_r s) := by
  refine ⟨_, rfl, ?_⟩
  refine Keeps.ite (fun _ => ?_) (fun _ => ?_)
  · split
    · refine State.dmaPumpAll_keeps ?_ 
      refine State.dmaAnswer_keeps ?_ _ _ _ _
      exact h
    · refine State.dmaPumpAll_keeps ?_ 
      refine State.dmaAnswer_keeps ?_ _ _ _ _
      exact h
  · exact h

theorem execHostReadTimeout_keeps {s0 s : State} (h : Keeps s0 s) (a_c : Fin 8) (a_off : ℕ) :
    Answers s0 (execHostReadTimeout a_c a_off s) := by
  refine ⟨_, rfl, ?_⟩
  extract_lets -merge -useContext -underBinder +onlyGivenNames x0
  refine Keeps.ite (fun _ => ?_) (fun _ => ?_)
  · extract_lets -merge -useContext -underBinder +onlyGivenNames x1
    refine State.dmaPumpAll_keeps ?_ 
    refine State.dmaAnswer_keeps ?_ _ _ _ _
    refine State.raise_keeps ?_ _ _
    refine State.qualFail_keeps ?_ _ _ _ _ _
    exact h
  · exact h

theorem State.coreFault_keeps {s0 s : State} (h : Keeps s0 s) (a_n : ℕ) (a_status : ℕ) (a_dst : BitVec 16) (a_addr : BitVec 48) :
    Keeps s0 (State.coreFault s a_n a_status a_dst a_addr) := by
  unfold State.coreFault
  extract_lets -merge -useContext -underBinder +onlyGivenNames x0
  refine Keeps.mk_upd ?_ rfl
  exact h

theorem State.answer_keeps {s0 s : State} (h : Keeps s0 s) (a_o : Sys2Proof.Machine.OpenReq) (a_tag : ℕ) (a_status : ℕ) (a_data : List Sys2Proof.Byte) :
    Keeps s0 (State.answer s a_o a_tag a_status a_data) := by
  unfold State.answer
  extract_lets -merge -useContext -underBinder +onlyGivenNames x0
  refine Keeps.ite (fun _ => ?_) (fun _ => ?_)
  · refine Keeps.ite (fun _ => ?_) (fun _ => ?_)
    · refine State.hostAnswer_keeps ?_ _ _ _
      exact h
    · refine Keeps.ite (fun _ => ?_) (fun _ => ?_)
      · exact h
      · refine State.npLate_keeps ?_ _ _ _ _ _ _
        exact h
  · refine Keeps.ite (fun _ => ?_) (fun _ => ?_)
    · refine State.dmaAnswer_keeps ?_ _ _ _ _
      exact h
    · extract_lets -merge -useContext -underBinder +onlyGivenNames x1
      have h1 : Keeps s0 x1 := by
        unfold x1
        refine State.setXbr_keeps ?_ _
        exact h
      refine Keeps.ite (fun _ => ?_) (fun _ => ?_)
      · exact h1
      · refine Keeps.ite (fun _ => ?_) (fun _ => ?_)
        · refine State.npLate_keeps ?_ _ _ _ _ _ _
          exact h1
        · refine State.coreFault_keeps ?_ _ _ _ _
          exact h1

theorem State.lateCompletion_keeps {s0 s : State} (h : Keeps s0 s) (a_source : ℕ) (a_b : List Sys2Proof.Byte) :
    Keeps s0 (State.lateCompletion s a_source a_b) := by
  unfold State.lateCompletion
  extract_lets -merge -useContext -underBinder +onlyGivenNames x0
  extract_lets -merge -useContext -underBinder +onlyGivenNames x1
  have h1 : Keeps s0 x1 := by
    unfold x1
    refine Keeps.ite (fun _ => ?_) (fun _ => ?_)
    · refine State.bump_keeps ?_ _
      exact h
    · refine State.npLate_keeps ?_ _ _ _ _ _ _
      exact h
  refine Keeps.ite (fun _ => ?_) (fun _ => ?_)
  · refine State.sendDiscard_keeps ?_ _ _ _ _ _
    exact h1
  · exact h1

theorem execCompletionReceive_keeps {s0 s : State} (h : Keeps s0 s)  :
    Answers s0 (execCompletionReceive s) := by
  refine ⟨_, rfl, ?_⟩
  split
  · exact h
  · extract_lets -merge -useContext -underBinder +onlyGivenNames x2
    extract_lets -merge -useContext -underBinder +onlyGivenNames x3
    extract_lets -merge -useContext -underBinder +onlyGivenNames x4
    have h4 : Keeps s0 x4 := by
      unfold x4
      refine State.setXbr_keeps ?_ _
      exact h
    extract_lets -merge -useContext -underBinder +onlyGivenNames x5
    extract_lets -merge -useContext -underBinder +onlyGivenNames x6
    extract_lets -merge -useContext -underBinder +onlyGivenNames x7
    extract_lets -merge -useContext -underBinder +onlyGivenNames x8
    extract_lets -merge -useContext -underBinder +onlyGivenNames x9
    extract_lets -merge -useContext -underBinder +onlyGivenNames x10
    split
    · refine Keeps.ite (fun _ => ?_) (fun _ => ?_)
      · refine Keeps.ite (fun _ => ?_) (fun _ => ?_)
        · refine State.setTag_keeps ?_ _ _
          exact h4
        · extract_lets -merge -useContext -underBinder +onlyGivenNames x12
          extract_lets -merge -useContext -underBinder +onlyGivenNames x13
          extract_lets -merge -useContext -underBinder +onlyGivenNames x14
          have h14 : Keeps s0 x14 := by
            unfold x14
            refine State.setTag_keeps ?_ _ _
            exact h4
          extract_lets -merge -useContext -underBinder +onlyGivenNames x15
          have h15 : Keeps s0 x15 := by
            unfold x15
            refine State.answer_keeps ?_ _ _ _ _
            exact h14
          refine Keeps.ite (fun _ => ?_) (fun _ => ?_)
          · refine State.sendDiscard_keeps ?_ _ _ _ _ _
            exact h15
          · exact h15
      · refine State.lateCompletion_keeps ?_ _ _
        exact h4
    · refine State.lateCompletion_keeps ?_ _ _
      exact h4

theorem execNpTimeout_keeps {s0 s : State} (h : Keeps s0 s) (a_t : Fin 512) :
    Answers s0 (execNpTimeout a_t s) := by
  refine ⟨_, rfl, ?_⟩
  split
  · exact h
  · refine Keeps.ite (fun _ => ?_) (fun _ => ?_)
    · exact h
    · extract_lets -merge -useContext -underBinder +onlyGivenNames x2
      extract_lets -merge -useContext -underBinder +onlyGivenNames x3
      extract_lets -merge -useContext -underBinder +onlyGivenNames x4
      extract_lets -merge -useContext -underBinder +onlyGivenNames x5
      have h5 : Keeps s0 x5 := by
        unfold x5
        refine State.bump_keeps ?_ _
        refine State.setTag_keeps ?_ _ _
        exact h
      extract_lets -merge -useContext -underBinder +onlyGivenNames x6
      have h6 : Keeps s0 x6 := by
        unfold x6
        refine State.answer_keeps ?_ _ _ _ _
        exact h5
      refine Keeps.ite (fun _ => ?_) (fun _ => ?_)
      · refine State.sendDiscard_keeps ?_ _ _ _ _ _
        exact h6
      · exact h6

theorem State.setClk_keeps {s0 s : State} (h : Keeps s0 s) (a_f : Sys2Proof.Machine.ClkSt → Sys2Proof.Machine.ClkSt) :
    Keeps s0 (State.setClk s a_f) := by
  unfold State.setClk
  refine Keeps.mk_upd ?_ rfl
  exact h

theorem State.timeWakes_keeps {s0 s : State} (h : Keeps s0 s)  :
    Keeps s0 (State.timeWakes s) := by
  unfold State.timeWakes
  extract_lets -merge -useContext -underBinder +onlyGivenNames x0
  have h0 : Keeps s0 x0 := by
    unfold x0
    refine State.loseSync_keeps ?_ 
    exact h
  refine Keeps.mk_upd ?_ rfl
  exact h0

theorem State.holdEnds_keeps {s0 s : State} (h : Keeps s0 s) (a_cause : ℕ) :
    Keeps s0 (State.holdEnds s a_cause) := by
  unfold State.holdEnds
  refine Keeps.ite (fun _ => ?_) (fun _ => ?_)
  · refine State.timeWakes_keeps ?_ 
    refine State.hubRelease_keeps ?_ 
    exact h
  · exact h

theorem State.serdesStop_keeps {s0 s : State} (h : Keeps s0 s)  :
    Keeps s0 (State.serdesStop s) := by
  unfold State.serdesStop
  extract_lets -merge -useContext -underBinder +onlyGivenNames x0
  have h0 : Keeps s0 x0 := by
    unfold x0
    refine Keeps.foldl ?_ (fun y1 a1 h1 => ?_)
    · exact h
    · extract_lets -merge -useContext -underBinder +onlyGivenNames x2
      extract_lets -merge -useContext -underBinder +onlyGivenNames x3
      have h3 : Keeps s0 x3 := by
        unfold x3
        refine Keeps.ite (fun _ => ?_) (fun _ => ?_)
        · refine State.linkLeaveUp_keeps ?_ _ _ _
          exact h1
        · refine Keeps.ite (fun _ => ?_) (fun _ => ?_)
          · refine State.linkFail_keeps ?_ _ _
            exact h1
          · exact h1
      refine State.setLink_keeps ?_ _ _
      exact h3
  refine State.setPlk_keeps ?_ _
  refine State.plkLeaveUp_keeps ?_ _ _
  exact h0

theorem State.pcieStop_keeps {s0 s : State} (h : Keeps s0 s)  :
    Keeps s0 (State.pcieStop s) := by
  unfold State.pcieStop
  refine Keeps.ite (fun _ => ?_) (fun _ => ?_)
  · refine State.hostReset_keeps ?_ _
    exact h
  · exact h

theorem State.pairsStop_keeps {s0 s : State} (h : Keeps s0 s)  :
    Keeps s0 (State.pairsStop s) := by
  unfold State.pairsStop
  refine Keeps.foldl ?_ (fun y0 a0 h0 => ?_)
  · exact h
  · refine Keeps.ite (fun _ => ?_) (fun _ => ?_)
    · exact h0
    · extract_lets -merge -useContext -underBinder +onlyGivenNames x1
      extract_lets -merge -useContext -underBinder +onlyGivenNames x2
      have h2 : Keeps s0 x2 := by
        unfold x2
        refine State.setFld_keeps ?_ _ _ _ _
        exact h0
      refine Keeps.mk_upd ?_ rfl
      exact h2

theorem State.clkFail_keeps {s0 s : State} (h : Keeps s0 s) (a_check : ℕ) (a_item : ℕ) (a_value : Sys2Proof.Word) (a_counter : ℕ) :
    Keeps s0 (State.clkFail s a_check a_item a_value a_counter) := by
  unfold State.clkFail
  refine Keeps.ite (fun _ => ?_) (fun _ => ?_)
  · refine State.qualFail_keeps ?_ _ _ _ _ _
    refine State.raise_keeps ?_ _ _
    exact h
  · refine State.bump_keeps ?_ _
    exact h

theorem State.clkClear_keeps {s0 s : State} (h : Keeps s0 s) (a_check : ℕ) (a_item : ℕ) (a_value : Sys2Proof.Word) :
    Keeps s0 (State.clkClear s a_check a_item a_value) := by
  unfold State.clkClear
  refine Keeps.ite (fun _ => ?_) (fun _ => ?_)
  · refine State.qualClear_keeps ?_ _ _ _ _
    refine State.raise_keeps ?_ _ _
    exact h
  · exact h

theorem execClockMonitorFail_keeps {s0 s : State} (h : Keeps s0 s) (a_n : Fin 4) (a_hz : Sys2Proof.Word) :
    Answers s0 (execClockMonitorFail a_n a_hz s) := by
  refine ⟨_, rfl, ?_⟩
  extract_lets -merge -useContext -underBinder +onlyGivenNames x0
  refine Keeps.ite (fun _ => ?_) (fun _ => ?_)
  · exact h
  · extract_lets -merge -useContext -underBinder +onlyGivenNames x1
    extract_lets -merge -useContext -underBinder +onlyGivenNames x2
    have h2 : Keeps s0 x2 := by
      unfold x2
      refine State.setClk_keeps ?_ _
      exact h
    refine Keeps.ite (fun _ => ?_) (fun _ => ?_)
    · refine Keeps.ite (fun _ => ?_) (fun _ => ?_)
      · refine State.hubHold_keeps ?_ _
        refine State.setClk_keeps ?_ _
        exact h2
      · exact h2
    · extract_lets -merge -useContext -underBinder +onlyGivenNames x3
      have h3 : Keeps s0 x3 := by
        unfold x3
        refine State.clkFail_keeps ?_ _ _ _ _
        exact h2
      refine Keeps.ite (fun _ => ?_) (fun _ => ?_)
      · refine State.serdesStop_keeps ?_ 
        exact h3
      · refine Keeps.ite (fun _ => ?_) (fun _ => ?_)
        · refine State.pcieStop_keeps ?_ 
          exact h3
        · exact h3

theorem State.reportClears_keeps {s0 s : State} (h : Keeps s0 s) (a_hz : Sys2Proof.Word) :
    Keeps s0 (State.reportClears s a_hz) := by
  unfold State.reportClears
  refine State.setClk_keeps ?_ _
  exact h

theorem execClockMonitorClear_keeps {s0 s : State} (h : Keeps s0 s) (a_n : Fin 4) (a_hz : Sys2Proof.Word) :
    Answers s0 (execClockMonitorClear a_n a_hz s) := by
  refine ⟨_, rfl, ?_⟩
  extract_lets -merge -useContext -underBinder +onlyGivenNames x0
  refine Keeps.ite (fun _ => ?_) (fun _ => ?_)
  · extract_lets -merge -useContext -underBinder +onlyGivenNames x1
    have h1 : Keeps s0 x1 := by
      unfold x1
      refine State.setClk_keeps ?_ _
      exact h
    refine Keeps.ite (fun _ => ?_) (fun _ => ?_)
    · refine State.holdEnds_keeps ?_ _
      refine State.reportClears_keeps ?_ _
      exact h1
    · refine State.clkClear_keeps ?_ _ _ _
      exact h1
  · exact h

theorem execPllLockLost_keeps {s0 s : State} (h : Keeps s0 s) (a_p : Fin 5) (a_hz : Sys2Proof.Word) :
    Answers s0 (execPllLockLost a_p a_hz s) := by
  refine ⟨_, rfl, ?_⟩
  extract_lets -merge -useContext -underBinder +onlyGivenNames x0
  refine Keeps.ite (fun _ => ?_) (fun _ => ?_)
  · exact h
  · extract_lets -merge -useContext -underBinder +onlyGivenNames x1
    have h1 : Keeps s0 x1 := by
      unfold x1
      refine State.setClk_keeps ?_ _
      exact h
    refine Keeps.ite (fun _ => ?_) (fun _ => ?_)
    · refine Keeps.ite (fun _ => ?_) (fun _ => ?_)
      · refine State.hubHold_keeps ?_ _
        refine State.setClk_keeps ?_ _
        exact h1
      · exact h1
    · extract_lets -merge -useContext -underBinder +onlyGivenNames x2
      have h2 : Keeps s0 x2 := by
        unfold x2
        refine State.clkFail_keeps ?_ _ _ _ _
        exact h1
      refine Keeps.ite (fun _ => ?_) (fun _ => ?_)
      · refine State.pairsStop_keeps ?_ 
        exact h2
      · refine Keeps.ite (fun _ => ?_) (fun _ => ?_)
        · refine State.setFld_keeps ?_ _ _ _ _
          exact h2
        · refine Keeps.ite (fun _ => ?_) (fun _ => ?_)
          · refine State.serdesStop_keeps ?_ 
            exact h2
          · refine State.pcieStop_keeps ?_ 
            exact h2

theorem execPllRelock_keeps {s0 s : State} (h : Keeps s0 s) (a_p : Fin 5) (a_hz : Sys2Proof.Word) :
    Answers s0 (execPllRelock a_p a_hz s) := by
  refine ⟨_, rfl, ?_⟩
  extract_lets -merge -useContext -underBinder +onlyGivenNames x0
  refine Keeps.ite (fun _ => ?_) (fun _ => ?_)
  · extract_lets -merge -useContext -underBinder +onlyGivenNames x1
    have h1 : Keeps s0 x1 := by
      unfold x1
      refine State.setClk_keeps ?_ _
      exact h
    refine Keeps.ite (fun _ => ?_) (fun _ => ?_)
    · refine State.holdEnds_keeps ?_ _
      refine State.reportClears_keeps ?_ _
      exact h1
    · refine State.clkClear_keeps ?_ _ _ _
      exact h1
  · exact h

theorem State.setPower_keeps {s0 s : State} (h : Keeps s0 s) (a_p : Sys2Proof.Machine.PowerState) :
    Keeps s0 (State.setPower s a_p) := by
  unfold State.setPower
  refine State.raise_keeps ?_ _ _
  refine Keeps.mk_upd ?_ rfl
  exact h

theorem State.goFallow_keeps {s0 s : State} (h : Keeps s0 s)  :
    Keeps s0 (State.goFallow s) := by
  unfold State.goFallow
  refine State.setPower_keeps ?_ _
  refine State.setNet_keeps ?_ _
  exact h

theorem State.goDormant_keeps {s0 s : State} (h : Keeps s0 s)  :
    Keeps s0 (State.goDormant s) := by
  unfold State.goDormant
  extract_lets -merge -useContext -underBinder +onlyGivenNames x0
  have h0 : Keeps s0 x0 := by
    unfold x0
    refine State.railsDown_keeps ?_ 
    refine State.hubClear_keeps ?_ _
    exact h
  refine Keeps.mk_upd ?_ rfl
  exact h0

theorem State.stateReq_keeps {s0 s : State} (h : Keeps s0 s) (a_a : Sys2Proof.Agent) (a_req : ℕ) :
    Keeps s0 (State.stateReq s a_a a_req) := by
  unfold State.stateReq
  refine Keeps.ite (fun _ => ?_) (fun _ => ?_)
  · exact h
  · extract_lets -merge -useContext -underBinder +onlyGivenNames x0
    have h0 : Keeps s0 x0 := by
      unfold x0
      refine State.wrShown_keeps ?_ _ _ _
      exact h
    refine Keeps.ite (fun _ => ?_) (fun _ => ?_)
    · refine Keeps.ite (fun _ => ?_) (fun _ => ?_)
      · refine State.raise_keeps ?_ _ _
        refine State.setClk_keeps ?_ _
        exact h0
      · refine State.goDormant_keeps ?_ 
        refine State.setClk_keeps ?_ _
        exact h0
    · refine Keeps.ite (fun _ => ?_) (fun _ => ?_)
      · refine Keeps.ite (fun _ => ?_) (fun _ => ?_)
        · refine State.goFallow_keeps ?_ 
          refine State.setClk_keeps ?_ _
          exact h0
        · exact h0
      · refine Keeps.ite (fun _ => ?_) (fun _ => ?_)
        · refine State.setPower_keeps ?_ _
          refine State.setClk_keeps ?_ _
          exact h0
        · exact h0

theorem execStateReqActive_keeps {s0 s : State} (h : Keeps s0 s) (a_a : Sys2Proof.Agent) :
    Answers s0 (execStateReqActive a_a s) := by
  refine ⟨_, rfl, ?_⟩
  refine State.stateReq_keeps ?_ _ _
  exact h

theorem execStateReqFallow_keeps {s0 s : State} (h : Keeps s0 s) (a_a : Sys2Proof.Agent) :
    Answers s0 (execStateReqFallow a_a s) := by
  refine ⟨_, rfl, ?_⟩
  refine State.stateReq_keeps ?_ _ _
  exact h

theorem execStateReqDormant_keeps {s0 s : State} (h : Keeps s0 s) (a_a : Sys2Proof.Agent) :
    Answers s0 (execStateReqDormant a_a s) := by
  refine ⟨_, rfl, ?_⟩
  refine State.stateReq_keeps ?_ _ _
  exact h

theorem execFallowAutoWake_keeps {s0 s : State} (h : Keeps s0 s) (a_access : Bool) :
    Answers s0 (execFallowAutoWake a_access s) := by
  refine ⟨_, rfl, ?_⟩
  refine Keeps.ite (fun _ => ?_) (fun _ => ?_)
  · refine State.setPower_keeps ?_ _
    exact h
  · exact h

theorem execDormantWake_keeps {s0 s : State} (h : Keeps s0 s) (a_w : Sys2Proof.WakeSource) :
    Answers s0 (execDormantWake a_w s) := by
  refine ⟨_, rfl, ?_⟩
  refine Keeps.ite (fun _ => ?_) (fun _ => ?_)
  · extract_lets -merge -useContext -underBinder +onlyGivenNames x0
    have h0 : Keeps s0 x0 := by
      unfold x0
      refine State.dormantStamps_keeps ?_ 
      exact h
    extract_lets -merge -useContext -underBinder +onlyGivenNames x1
    have h1 : Keeps s0 x1 := by
      unfold x1
      refine Keeps.ite (fun _ => ?_) (fun _ => ?_)
      · refine State.railsRise_keeps ?_ 
        refine State.setPwr_keeps ?_ _
        exact h0
      · exact h0
    extract_lets -merge -useContext -underBinder +onlyGivenNames x2
    have h2 : Keeps s0 x2 := by
      unfold x2
      refine State.timeWakes_keeps ?_ 
      refine State.hubHold_keeps ?_ _
      exact h1
    refine Keeps.ite (fun _ => ?_) (fun _ => ?_)
    · refine State.hubRelease_keeps ?_ 
      exact h2
    · exact h2
  · exact h

theorem execAoPor_keeps {s0 s : State} (h : Keeps s0 s) : Answers s0 (execAoPor s) :=
  ⟨_, rfl, h.trans ⟨rfl, OtpLe.refl _, fun _ => ⟨(by decide : (0 : Nat) < 1000000000), rfl, rfl, rfl⟩⟩⟩

theorem execVddAoLoss_keeps {s0 s : State} (h : Keeps s0 s) : Answers s0 (execVddAoLoss s) :=
  ⟨_, rfl, h.trans ⟨rfl, OtpLe.refl _, fun _ => ⟨(by decide : (0 : Nat) < 1000000000), rfl, rfl, rfl⟩⟩⟩

theorem execHubDiePowerLoss_keeps {s0 s : State} (h : Keeps s0 s)  :
    Answers s0 (execHubDiePowerLoss s) := by
  refine ⟨_, rfl, ?_⟩
  refine State.hubPowerLoss_keeps ?_ 
  exact h

theorem execRstNAssert_keeps {s0 s : State} (h : Keeps s0 s)  :
    Answers s0 (execRstNAssert s) := by
  refine ⟨_, rfl, ?_⟩
  refine Keeps.ite (fun _ => ?_) (fun _ => ?_)
  · refine State.hubHold_keeps ?_ _
    exact h
  · exact h

theorem State.rstCmd_keeps {s0 s : State} (h : Keeps s0 s) (a_a : Sys2Proof.Agent) (a_v : Sys2Proof.Word) :
    Keeps s0 (State.rstCmd s a_a a_v) := by
  unfold State.rstCmd
  refine Keeps.ite (fun _ => ?_) (fun _ => ?_)
  · refine State.hubReset_keeps ?_ _
    exact h
  · exact h

theorem execReboot_keeps {s0 s : State} (h : Keeps s0 s) (a_a : Sys2Proof.Agent) (a_v : Sys2Proof.Word) :
    Answers s0 (execReboot a_a a_v s) := by
  refine ⟨_, rfl, ?_⟩
  refine State.rstCmd_keeps ?_ _ _
  exact h

theorem execStrapSample_keeps {s0 s : State} (h : Keeps s0 s) (a_v : Sys2Proof.Byte) :
    Answers s0 (execStrapSample a_v s) := by
  refine ⟨_, rfl, ?_⟩
  refine Keeps.ite (fun _ => ?_) (fun _ => ?_)
  · exact h
  · refine State.wr_keeps ?_ _ _
    refine State.setClk_keeps ?_ _
    exact h

theorem State.bufPut_keeps {s0 s : State} (h : Keeps s0 s) (k i : Nat) (l : List Byte) : Keeps s0 (s.bufPut k i l) := by
  induction l generalizing s i with
  | nil => exact h
  | cons b l ih => exact ih (Keeps.ite (fun _ => State.setFld_keeps h _ _ _ _) (fun _ => h)) (i + 1)

theorem State.flashSet_keeps {s0 s : State} (h : Keeps s0 s) (a_a : ℕ) (a_b : Sys2Proof.Byte) :
    Keeps s0 (State.flashSet s a_a a_b) := by
  unfold State.flashSet
  refine Keeps.mk_upd ?_ rfl
  exact h

theorem State.flashPut_keeps {s0 s : State} (h : Keeps s0 s) (a : Nat) (l : List Byte) : Keeps s0 (s.flashPut a l) := by
  induction l generalizing s a with
  | nil => exact h
  | cons b l ih => exact ih (State.flashSet_keeps h a b) (a + 1)

theorem State.flashErase_keeps {s0 s : State} (h : Keeps s0 s) (a_a : ℕ) (a_n : ℕ) :
    Keeps s0 (State.flashErase s a_a a_n) := by
  unfold State.flashErase
  refine Keeps.mk_upd ?_ rfl
  exact h

theorem State.ospi_keeps {s0 s : State} (h : Keeps s0 s) (a_fail : Bool) (a_f : Sys2Proof.Machine.State → Sys2Proof.Machine.MbxAns × Sys2Proof.Machine.State) (Ha_f : ∀ z0, Keeps s0 z0 → Keeps s0 (a_f z0).2) :
    Keeps s0 (State.ospi s a_fail a_f) := by
  unfold State.ospi
  refine State.mbxCommand_keeps ?_ _ _ (fun y0 h0 => ?_)
  · exact h
  · refine Keeps.ite2 (fun _ => ?_) (fun _ => ?_)
    · refine Keeps.pair2 ?_
      exact h0
    · refine Ha_f _ ?_
      exact h0

theorem execOspiRead_keeps {s0 s : State} (h : Keeps s0 s) (a_fail : Bool) :
    Answers s0 (execOspiRead a_fail s) := by
  refine ⟨_, rfl, ?_⟩
  refine State.ospi_keeps ?_ _ _ (fun y0 h0 => ?_)
  · exact h
  · refine Keeps.pair2 ?_
    refine State.bufPut_keeps ?_ _ _ _
    exact h0

theorem execProgram_keeps {s0 s : State} (h : Keeps s0 s) (a_fail : Bool) :
    Answers s0 (execProgram a_fail s) := by
  refine ⟨_, rfl, ?_⟩
  refine State.ospi_keeps ?_ _ _ (fun y0 h0 => ?_)
  · exact h
  · refine Keeps.ite2 (fun _ => ?_) (fun _ => ?_)
    · refine Keeps.pair2 ?_
      exact h0
    · refine Keeps.pair2 ?_
      refine State.flashPut_keeps ?_ _ _
      exact h0

theorem State.ospiErase_keeps {s0 s : State} (h : Keeps s0 s) (a_n : ℕ) :
    Keeps s0 (State.ospiErase s a_n).2 := by
  unfold State.ospiErase
  extract_lets -merge -useContext -underBinder +onlyGivenNames x0
  refine Keeps.ite2 (fun _ => ?_) (fun _ => ?_)
  · refine Keeps.pair2 ?_
    exact h
  · refine Keeps.pair2 ?_
    refine State.flashErase_keeps ?_ _ _
    exact h

theorem execErase4k_keeps {s0 s : State} (h : Keeps s0 s) (a_fail : Bool) :
    Answers s0 (execErase4k a_fail s) := by
  refine ⟨_, rfl, ?_⟩
  refine State.ospi_keeps ?_ _ _ (fun y0 h0 => ?_)
  · exact h
  · refine State.ospiErase_keeps ?_ _
    exact h0

theorem execErase64k_keeps {s0 s : State} (h : Keeps s0 s) (a_fail : Bool) :
    Answers s0 (execErase64k a_fail s) := by
  refine ⟨_, rfl, ?_⟩
  refine State.ospi_keeps ?_ _ _ (fun y0 h0 => ?_)
  · exact h
  · refine State.ospiErase_keeps ?_ _
    exact h0

theorem execReadSfdp_keeps {s0 s : State} (h : Keeps s0 s) (a_fail : Bool) :
    Answers s0 (execReadSfdp a_fail s) := by
  refine ⟨_, rfl, ?_⟩
  refine State.ospi_keeps ?_ _ _ (fun y0 h0 => ?_)
  · exact h
  · refine Keeps.pair2 ?_
    refine State.bufPut_keeps ?_ _ _ _
    exact h0

theorem State.protWrite_keeps {s0 s : State} (h : Keeps s0 s) (a_n : ℕ) (a_a : Sys2Proof.Agent) (a_v : Sys2Proof.Word) :
    Keeps s0 (State.protWrite s a_n a_a a_v) := by
  unfold State.protWrite
  refine Keeps.ite (fun _ => ?_) (fun _ => ?_)
  · refine State.wrShown_keeps ?_ _ _ _
    exact h
  · exact h

theorem execProtWrite_keeps {s0 s : State} (h : Keeps s0 s) (a_n : Fin 4) (a_a : Sys2Proof.Agent) (a_v : Sys2Proof.Word) :
    Answers s0 (execProtWrite a_n a_a a_v s) := by
  refine ⟨_, rfl, ?_⟩
  refine State.protWrite_keeps ?_ _ _ _
  exact h

theorem State.fuse_keeps {s0 s : State} (h : Keeps s0 s) (a_arg : BitVec 16) (a_inRange : Bool) (a_otpFail : Bool) (a_f : Sys2Proof.Machine.State → Sys2Proof.Machine.MbxAns × Sys2Proof.Machine.State) (Ha_f : ∀ z0, Keeps s0 z0 → Keeps s0 (a_f z0).2) :
    Keeps s0 (State.fuse s a_arg a_inRange a_otpFail a_f) := by
  unfold State.fuse
  refine State.mbxCommand_keeps ?_ _ _ (fun y0 h0 => ?_)
  · exact h
  · refine Keeps.ite2 (fun _ => ?_) (fun _ => ?_)
    · refine Keeps.pair2 ?_
      exact h0
    · refine Keeps.ite2 (fun _ => ?_) (fun _ => ?_)
      · refine Keeps.pair2 ?_
        exact h0
      · refine Keeps.ite2 (fun _ => ?_) (fun _ => ?_)
        · refine Keeps.pair2 ?_
          refine State.setFld_keeps ?_ _ _ _ _
          exact h0
        · refine Ha_f _ ?_
          exact h0

theorem execRevoke_keeps {s0 s : State} (h : Keeps s0 s) (arg : BitVec 16) (otpFail : Bool) : Answers s0 (execRevoke arg otpFail s) := by
  refine ⟨_, rfl, State.fuse_keeps h _ _ _ _ (fun y hy => hy.trans ⟨rfl, ⟨bv_or_keeps _ _, Nat.le_refl _, by simp⟩, fun i => ⟨i.ns, i.mem, i.regs, i.lease⟩⟩)⟩

theorem State.rollbackTo_keeps {s0 s : State} (h : Keeps s0 s) (v : Nat) : Keeps s0 (s.rollbackTo v) := by
  refine h.trans ⟨rfl, ⟨by simp [State.rollbackTo], ?_, by simp [State.rollbackTo]⟩, fun i => ⟨i.ns, i.mem, i.regs, i.lease⟩⟩
  simp only [State.rollbackTo]
  split <;> omega

theorem execAdvance_keeps {s0 s : State} (h : Keeps s0 s) (a_arg : BitVec 16) (a_otpFail : Bool) :
    Answers s0 (execAdvance a_arg a_otpFail s) := by
  refine ⟨_, rfl, ?_⟩
  refine State.fuse_keeps ?_ _ _ _ _ (fun y0 h0 => ?_)
  · exact h
  · refine Keeps.pair2 ?_
    refine State.rollbackTo_keeps ?_ _
    exact h0

theorem execBlowFuse_keeps {s0 s : State} (h : Keeps s0 s) (arg : BitVec 16) (otpFail : Bool) : Answers s0 (execBlowFuse arg otpFail s) := by
  refine ⟨_, rfl, State.fuse_keeps h _ _ _ _ (fun y hy => hy.trans ⟨rfl, ⟨by simp, Nat.le_refl _, bv_or_keeps _ _⟩, fun i => ⟨i.ns, i.mem, i.regs, i.lease⟩⟩)⟩

theorem execShaInit_keeps {s0 s : State} (h : Keeps s0 s)  :
    Answers s0 (execShaInit s) := by
  refine ⟨_, rfl, ?_⟩
  refine State.mbxCommand_keeps ?_ _ _ (fun y0 h0 => ?_)
  · exact h
  · refine Keeps.pair2 ?_
    refine Keeps.mk_upd ?_ rfl
    exact h0

theorem execShaUpdate_keeps {s0 s : State} (h : Keeps s0 s) (a_arg : BitVec 16) :
    Answers s0 (execShaUpdate a_arg s) := by
  refine ⟨_, rfl, ?_⟩
  refine State.mbxCommand_keeps ?_ _ _ (fun y0 h0 => ?_)
  · exact h
  · refine Keeps.pair2 ?_
    refine Keeps.mk_upd ?_ rfl
    exact h0

theorem execShaFinal_keeps {s0 s : State} (h : Keeps s0 s)  :
    Answers s0 (execShaFinal s) := by
  refine ⟨_, rfl, ?_⟩
  refine State.mbxCommand_keeps ?_ _ _ (fun y0 h0 => ?_)
  · exact h
  · refine Keeps.pair2 ?_
    refine State.bufPut_keeps ?_ _ _ _
    exact h0

theorem execVerify_keeps {s0 s : State} (h : Keeps s0 s)  :
    Answers s0 (execVerify s) := by
  refine ⟨_, rfl, ?_⟩
  refine State.mbxCommand_keeps ?_ _ _ (fun y0 h0 => ?_)
  · exact h
  · extract_lets -merge -useContext -underBinder +onlyGivenNames x1
    refine Keeps.pair2 ?_
    exact h0

theorem State.bootPost_keeps {s0 s : State} (h : Keeps s0 s) (a_irq : ℕ) (a_ty : ℕ) (a_w4 : Sys2Proof.Word) (a_w5 : Sys2Proof.Word) (a_w6 : Sys2Proof.Word) (a_w7 : Sys2Proof.Word) (a_flags : ℕ) :
    Keeps s0 (State.bootPost s a_irq a_ty a_w4 a_w5 a_w6 a_w7 a_flags) := by
  unfold State.bootPost
  extract_lets -merge -useContext -underBinder +onlyGivenNames x0
  refine Keeps.ite (fun _ => ?_) (fun _ => ?_)
  · refine State.powEmit_keeps ?_ _
    exact h
  · refine Keeps.mk_upd ?_ rfl
    exact h

theorem State.bootFlush_keeps {s0 s : State} (h : Keeps s0 s)  :
    Keeps s0 (State.bootFlush s) := by
  unfold State.bootFlush
  extract_lets -merge -useContext -underBinder +onlyGivenNames x0
  refine Keeps.foldl ?_ (fun y1 a1 h1 => ?_)
  · refine Keeps.mk_upd ?_ rfl
    exact h
  · refine State.powEmit_keeps ?_ _
    exact h1

theorem State.setBoot_keeps {s0 s : State} (h : Keeps s0 s) (a_f : Sys2Proof.Machine.BootSt → Sys2Proof.Machine.BootSt) :
    Keeps s0 (State.setBoot s a_f) := by
  unfold State.setBoot
  refine Keeps.mk_upd ?_ rfl
  exact h

theorem State.bootStatus_keeps {s0 s : State} (h : Keeps s0 s) (a_b : Sys2Proof.Machine.Bcb) :
    Keeps s0 (State.bootStatus s a_b) := by
  unfold State.bootStatus
  refine State.wr_keeps ?_ _ _
  exact h

theorem State.bcbWrite_keeps {s0 s : State} (h : Keeps s0 s) (a_b : Sys2Proof.Machine.Bcb) :
    Keeps s0 (State.bcbWrite s a_b) := by
  unfold State.bcbWrite
  extract_lets -merge -useContext -underBinder +onlyGivenNames x0
  extract_lets -merge -useContext -underBinder +onlyGivenNames x1
  extract_lets -merge -useContext -underBinder +onlyGivenNames x2
  refine State.bootStatus_keeps ?_ _
  refine State.flashPut_keeps ?_ _ _
  refine State.flashErase_keeps ?_ _ _
  exact h

theorem State.bcbChange_keeps {s0 s : State} (h : Keeps s0 s) (a_f : Sys2Proof.Machine.Bcb → Sys2Proof.Machine.Bcb) :
    Keeps s0 (State.bcbChange s a_f) := by
  unfold State.bcbChange
  refine State.bcbWrite_keeps ?_ _
  exact h

theorem State.blockWrite_keeps {s0 s : State} (h : Keeps s0 s) (a_base : ℕ) (a_i : ℕ) (a_content : List Sys2Proof.Byte) :
    Keeps s0 (State.blockWrite s a_base a_i a_content) := by
  unfold State.blockWrite
  extract_lets -merge -useContext -underBinder +onlyGivenNames x0
  refine State.flashPut_keeps ?_ _ _
  refine State.flashErase_keeps ?_ _ _
  exact h

theorem State.slotBad_keeps {s0 s : State} (h : Keeps s0 s) (a_kind : ℕ) (a_slot : ℕ) (a_e : Sys2Proof.Machine.BadSlot) (a_version : Sys2Proof.Word) :
    Keeps s0 (State.slotBad s a_kind a_slot a_e a_version) := by
  unfold State.slotBad
  refine State.bootPost_keeps ?_ _ _ _ _ _ _ _
  exact h

theorem State.markBad_keeps {s0 s : State} (h : Keeps s0 s) (a_kind : ℕ) (a_slot : ℕ) (a_e : Sys2Proof.Machine.BadSlot) (a_version : Sys2Proof.Word) :
    Keeps s0 (State.markBad s a_kind a_slot a_e a_version) := by
  unfold State.markBad
  refine State.slotBad_keeps ?_ _ _ _ _
  refine State.bcbChange_keeps ?_ _
  exact h

theorem State.keeperReboot_keeps {s0 s : State} (h : Keeps s0 s)  :
    Keeps s0 (State.keeperReboot s) := by
  unfold State.keeperReboot
  refine State.hubReset_keeps ?_ _
  refine State.leaseFault_keeps ?_ _
  exact h

theorem State.revert_keeps {s0 s : State} (h : Keeps s0 s) (a_kind : ℕ) (a_cause : ℕ) :
    Keeps s0 (State.revert s a_kind a_cause) := by
  unfold State.revert
  extract_lets -merge -useContext -underBinder +onlyGivenNames x0
  extract_lets -merge -useContext -underBinder +onlyGivenNames x1
  extract_lets -merge -useContext -underBinder +onlyGivenNames x2
  extract_lets -merge -useContext -underBinder +onlyGivenNames x3
  have h3 : Keeps s0 x3 := by
    unfold x3
    refine State.bcbChange_keeps ?_ _
    exact h
  extract_lets -merge -useContext -underBinder +onlyGivenNames x4
  have h4 : Keeps s0 x4 := by
    unfold x4
    refine State.bootPost_keeps ?_ _ _ _ _ _ _ _
    exact h3
  refine State.keeperReboot_keeps ?_ 
  refine State.bootFlush_keeps ?_ 
  exact h4

theorem State.commitImage_keeps {s0 s : State} (h : Keeps s0 s) (a_kind : ℕ) :
    Keeps s0 (State.commitImage s a_kind) := by
  unfold State.commitImage
  extract_lets -merge -useContext -underBinder +onlyGivenNames x0
  extract_lets -merge -useContext -underBinder +onlyGivenNames x1
  have h1 : Keeps s0 x1 := by
    unfold x1
    refine State.rollbackTo_keeps ?_ _
    refine State.bcbChange_keeps ?_ _
    exact h
  refine State.bootPost_keeps ?_ _ _ _ _ _ _ _
  exact h1

theorem State.commitKeeper_keeps {s0 s : State} (h : Keeps s0 s)  :
    Keeps s0 (State.commitKeeper s) := by
  unfold State.commitKeeper
  refine Keeps.ite (fun _ => ?_) (fun _ => ?_)
  · refine State.commitImage_keeps ?_ _
    exact h
  · exact h

theorem State.commitField_keeps {s0 s : State} (h : Keeps s0 s)  :
    Keeps s0 (State.commitField s) := by
  unfold State.commitField
  extract_lets -merge -useContext -underBinder +onlyGivenNames x0
  have h0 : Keeps s0 x0 := by
    unfold x0
    refine State.setBoot_keeps ?_ _
    exact h
  refine State.commitKeeper_keeps ?_ 
  refine Keeps.ite (fun _ => ?_) (fun _ => ?_)
  · refine State.commitImage_keeps ?_ _
    exact h0
  · exact h0

theorem State.passKeeper_keeps {s0 s : State} (h : Keeps s0 s)  :
    Keeps s0 (State.passKeeper s) := by
  unfold State.passKeeper
  refine State.commitKeeper_keeps ?_ 
  refine State.setBoot_keeps ?_ _
  exact h

theorem execBootCommitField_keeps {s0 s : State} (h : Keeps s0 s)  :
    Answers s0 (execBootCommitField s) := by
  refine ⟨_, rfl, ?_⟩
  refine State.commitField_keeps ?_ 
  exact h

theorem execBootCommitKeeper_keeps {s0 s : State} (h : Keeps s0 s)  :
    Answers s0 (execBootCommitKeeper s) := by
  refine ⟨_, rfl, ?_⟩
  refine State.passKeeper_keeps ?_ 
  exact h

theorem execTrialTimeLimit_keeps {s0 s : State} (h : Keeps s0 s)  :
    Answers s0 (execTrialTimeLimit s) := by
  refine ⟨_, rfl, ?_⟩
  split
  · refine Keeps.ite (fun _ => ?_) (fun _ => ?_)
    · refine State.revert_keeps ?_ _ _
      exact h
    · exact h
  · exact h

theorem State.postMigrated_keeps {s0 s : State} (h : Keeps s0 s) (a_committed : Bool) (a_count : ℕ) (a_old : ℕ) (a_new : ℕ) :
    Keeps s0 (State.postMigrated s a_committed a_count a_old a_new) := by
  unfold State.postMigrated
  refine State.bootPost_keeps ?_ _ _ _ _ _ _ _
  exact h

theorem State.migrateCommit_keeps {s0 s : State} (h : Keeps s0 s)  :
    Keeps s0 (State.migrateCommit s).2 := by
  unfold State.migrateCommit
  extract_lets -merge -useContext -underBinder +onlyGivenNames x0
  refine Keeps.ite2 (fun _ => ?_) (fun _ => ?_)
  · refine Keeps.pair2 ?_
    exact h
  · extract_lets -merge -useContext -underBinder +onlyGivenNames x1
    extract_lets -merge -useContext -underBinder +onlyGivenNames x2
    have h2 : Keeps s0 x2 := by
      unfold x2
      refine State.bcbChange_keeps ?_ _
      exact h
    refine Keeps.pair2 ?_
    refine State.postMigrated_keeps ?_ _ _ _ _
    exact h2

theorem execBootMigrateCommit_keeps {s0 s : State} (h : Keeps s0 s)  :
    Answers s0 (execBootMigrateCommit s) := by
  refine ⟨_, rfl, ?_⟩
  refine State.migrateCommit_keeps ?_ 
  exact h

theorem State.serve_keeps {s0 s : State} (h : Keeps s0 s) (a_slot : ℕ) (a_op : ℕ) (a_f : Sys2Proof.Machine.State → ℕ × Sys2Proof.Machine.State) (Ha_f : ∀ z0, Keeps s0 z0 → Keeps s0 (a_f z0).2) :
    Keeps s0 (State.serve s a_slot a_op a_f) := by
  unfold State.serve
  extract_lets -merge -useContext -underBinder +onlyGivenNames x0
  refine Keeps.ite (fun _ => ?_) (fun _ => ?_)
  · extract_lets -merge -useContext -underBinder +onlyGivenNames x1
    have h1 : Keeps s0 x1.2 := by
      unfold x1
      refine Ha_f _ ?_
      exact h
    refine State.memPut_keeps ?_ _ _
    exact h1
  · exact h

theorem execSvcCommit_keeps {s0 s : State} (h : Keeps s0 s) (a_slot : Fin 5) :
    Answers s0 (execSvcCommit a_slot s) := by
  refine ⟨_, rfl, ?_⟩
  refine State.serve_keeps ?_ _ _ _ (fun y0 h0 => ?_)
  · exact h
  · extract_lets -merge -useContext -underBinder +onlyGivenNames x1
    refine Keeps.ite2 (fun _ => ?_) (fun _ => ?_)
    · refine Keeps.ite2 (fun _ => ?_) (fun _ => ?_)
      · refine Keeps.pair2 ?_
        refine State.passKeeper_keeps ?_ 
        exact h0
      · refine Keeps.pair2 ?_
        exact h0
    · refine Keeps.ite2 (fun _ => ?_) (fun _ => ?_)
      · refine Keeps.ite2 (fun _ => ?_) (fun _ => ?_)
        · refine Keeps.pair2 ?_
          refine State.commitField_keeps ?_ 
          exact h0
        · refine Keeps.pair2 ?_
          exact h0
      · refine Keeps.pair2 ?_
        exact h0

theorem execSvcMigrateCommit_keeps {s0 s : State} (h : Keeps s0 s) (a_slot : Fin 5) :
    Answers s0 (execSvcMigrateCommit a_slot s) := by
  refine ⟨_, rfl, ?_⟩
  refine State.serve_keeps ?_ _ _ _ (fun y0 h0 => ?_)
  · exact h
  · refine Keeps.pair2 ?_
    refine State.migrateCommit_keeps ?_ 
    exact h0

theorem State.stage_keeps {s0 s : State} (h : Keeps s0 s) (a_kind : ℕ) :
    Keeps s0 (State.stage s a_kind).2 := by
  unfold State.stage
  extract_lets -merge -useContext -underBinder +onlyGivenNames x0
  refine Keeps.ite2 (fun _ => ?_) (fun _ => ?_)
  · refine Keeps.pair2 ?_
    exact h
  · refine Keeps.ite2 (fun _ => ?_) (fun _ => ?_)
    · refine Keeps.pair2 ?_
      exact h
    · extract_lets -merge -useContext -underBinder +onlyGivenNames x1
      split
      · refine Keeps.pair2 ?_
        refine State.markBad_keeps ?_ _ _ _ _
        exact h
      · refine Keeps.pair2 ?_
        refine State.bcbChange_keeps ?_ _
        exact h

theorem execStage_keeps {s0 s : State} (h : Keeps s0 s) (a_slot : Fin 5) :
    Answers s0 (execStage a_slot s) := by
  refine ⟨_, rfl, ?_⟩
  refine State.serve_keeps ?_ _ _ _ (fun y0 h0 => ?_)
  · exact h
  · refine State.stage_keeps ?_ _
    exact h0

theorem execSvcReboot_keeps {s0 s : State} (h : Keeps s0 s) (a_slot : Fin 5) :
    Answers s0 (execSvcReboot a_slot s) := by
  refine ⟨_, rfl, ?_⟩
  extract_lets -merge -useContext -underBinder +onlyGivenNames x0
  refine Keeps.ite (fun _ => ?_) (fun _ => ?_)
  · refine State.keeperReboot_keeps ?_ 
    refine State.serve_keeps ?_ _ _ _ (fun y1 h1 => ?_)
    · exact h
    · refine Keeps.pair2 ?_
      exact h1
  · exact h

theorem execReadRecord_keeps {s0 s : State} (h : Keeps s0 s) (a_slot : Fin 5) :
    Answers s0 (execReadRecord a_slot s) := by
  refine ⟨_, rfl, ?_⟩
  refine State.serve_keeps ?_ _ _ _ (fun y0 h0 => ?_)
  · exact h
  · split
    · refine Keeps.pair2 ?_
      exact h0
    · split
      · refine Keeps.pair2 ?_
        exact h0
      · refine Keeps.ite2 (fun _ => ?_) (fun _ => ?_)
        · refine Keeps.pair2 ?_
          exact h0
        · refine Keeps.pair2 ?_
          refine State.memPut_keeps ?_ _ _
          exact h0

theorem State.openPending_keeps {s0 s : State} (h : Keeps s0 s)  :
    Keeps s0 (State.openPending s) := by
  unfold State.openPending
  extract_lets -merge -useContext -underBinder +onlyGivenNames x0
  have h0 : Keeps s0 x0 := by
    unfold x0
    refine State.flashErase_keeps ?_ _ _
    exact h
  refine State.setBoot_keeps ?_ _
  exact h0

theorem execWriteRecord_keeps {s0 s : State} (h : Keeps s0 s) (a_slot : Fin 5) :
    Answers s0 (execWriteRecord a_slot s) := by
  refine ⟨_, rfl, ?_⟩
  refine State.serve_keeps ?_ _ _ _ (fun y0 h0 => ?_)
  · exact h
  · extract_lets -merge -useContext -underBinder +onlyGivenNames x1
    refine Keeps.ite2 (fun _ => ?_) (fun _ => ?_)
    · refine Keeps.pair2 ?_
      exact h0
    · extract_lets -merge -useContext -underBinder +onlyGivenNames x2
      have h2 : Keeps s0 x2 := by
        unfold x2
        refine Keeps.ite (fun _ => ?_) (fun _ => ?_)
        · exact h0
        · refine State.openPending_keeps ?_ 
          exact h0
      extract_lets -merge -useContext -underBinder +onlyGivenNames x3
      refine Keeps.pair2 ?_
      refine State.setBoot_keeps ?_ _
      exact h2

theorem State.closePending_keeps {s0 s : State} (h : Keeps s0 s)  :
    Keeps s0 (State.closePending s).2 := by
  unfold State.closePending
  extract_lets -merge -useContext -underBinder +onlyGivenNames x0
  extract_lets -merge -useContext -underBinder +onlyGivenNames x1
  extract_lets -merge -useContext -underBinder +onlyGivenNames x2
  extract_lets -merge -useContext -underBinder +onlyGivenNames x3
  extract_lets -merge -useContext -underBinder +onlyGivenNames x4
  extract_lets -merge -useContext -underBinder +onlyGivenNames x5
  extract_lets -merge -useContext -underBinder +onlyGivenNames x6
  extract_lets -merge -useContext -underBinder +onlyGivenNames x7
  have h7 : Keeps s0 x7 := by
    unfold x7
    refine Keeps.foldl ?_ (fun y8 a8 h8 => ?_)
    · exact h
    · refine State.blockWrite_keeps ?_ _ _ _
      exact h8
  extract_lets -merge -useContext -underBinder +onlyGivenNames x9
  have h9 : Keeps s0 x9 := by
    unfold x9
    refine State.setBoot_keeps ?_ _
    exact h7
  refine Keeps.pair2 ?_
  refine State.bcbChange_keeps ?_ _
  exact h9

theorem State.ruleLine_keeps {s0 s : State} (h : Keeps s0 s) (a_r : Sys2Proof.Machine.Rule) (a_t : Sys2Proof.TimePoint) (a_j : ℕ) :
    Keeps s0 (State.ruleLine s a_r a_t a_j) := by
  unfold State.ruleLine
  extract_lets -merge -useContext -underBinder +onlyGivenNames x0
  split
  · exact h
  · refine State.latchWrite_keeps ?_ _ _
    exact h
  · refine State.latchWrite_keeps ?_ _ _
    exact h
  · refine State.pulseStart_keeps ?_ _ _ _
    exact h

theorem State.rulePublish_keeps {s0 s : State} (h : Keeps s0 s) (a_r : Sys2Proof.Machine.Rule) (a_res : Bool) (a_t : Sys2Proof.TimePoint) (a_cycle : ℕ) :
    Keeps s0 (State.rulePublish s a_r a_res a_t a_cycle) := by
  unfold State.rulePublish
  extract_lets -merge -useContext -underBinder +onlyGivenNames x0
  extract_lets -merge -useContext -underBinder +onlyGivenNames x1
  refine Keeps.ite (fun _ => ?_) (fun _ => ?_)
  · refine State.bump_keeps ?_ _
    exact h
  · refine State.pubAction_keeps ?_ _ _ _ _ _
    exact h

theorem State.rulePost_keeps {s0 s : State} (h : Keeps s0 s) (a_n : ℕ) (a_r : Sys2Proof.Machine.Rule) (a_res : Bool) (a_tick : Bool) (a_seen : Option (ℕ × Sys2Proof.TimePoint)) (a_t : Sys2Proof.TimePoint) :
    Keeps s0 (State.rulePost s a_n a_r a_res a_tick a_seen a_t) := by
  unfold State.rulePost
  extract_lets -merge -useContext -underBinder +onlyGivenNames x0
  extract_lets -merge -useContext -underBinder +onlyGivenNames x1
  extract_lets -merge -useContext -underBinder +onlyGivenNames x2
  have h2 : Keeps s0 x2 := by
    unfold x2
    refine State.raise_keeps ?_ _ _
    exact h
  refine Keeps.ite (fun _ => ?_) (fun _ => ?_)
  · refine State.postFull_keeps ?_ _ _ _ _ _ _ _ _ _ _ _
    exact h2
  · refine State.postAt_keeps ?_ _ _ _ _ _ _ _ _ _ _
    exact h2

theorem State.ruleFire_keeps {s0 s : State} (h : Keeps s0 s) (a_n : ℕ) (a_r : Sys2Proof.Machine.Rule) (a_res : Bool) (a_tick : Bool) (a_first : Bool) (a_seen : Option (ℕ × Sys2Proof.TimePoint)) (a_own : Sys2Proof.TimePoint) (a_t : Sys2Proof.TimePoint) :
    Keeps s0 (State.ruleFire s a_n a_r a_res a_tick a_first a_seen a_own a_t) := by
  unfold State.ruleFire
  extract_lets -merge -useContext -underBinder +onlyGivenNames x0
  have h0 : Keeps s0 x0 := by
    unfold x0
    refine State.bump_keeps ?_ _
    exact h
  extract_lets -merge -useContext -underBinder +onlyGivenNames x1
  have h1 : Keeps s0 x1 := by
    unfold x1
    refine Keeps.foldl ?_ (fun y2 a2 h2 => ?_)
    · exact h0
    · refine State.ruleLine_keeps ?_ _ _ _
      exact h2
  extract_lets -merge -useContext -underBinder +onlyGivenNames x3
  have h3 : Keeps s0 x3 := by
    unfold x3
    refine Keeps.ite (fun _ => ?_) (fun _ => ?_)
    · refine State.rulePublish_keeps ?_ _ _ _ _
      exact h1
    · exact h1
  refine Keeps.ite (fun _ => ?_) (fun _ => ?_)
  · extract_lets -merge -useContext -underBinder +onlyGivenNames x4
    have h4 : Keeps s0 x4 := by
      unfold x4
      refine Keeps.ite (fun _ => ?_) (fun _ => ?_)
      · refine State.drillReflexArm_keeps ?_ _ _
        exact h3
      · exact h3
    extract_lets -merge -useContext -underBinder +onlyGivenNames x5
    have h5 : Keeps s0 x5 := by
      unfold x5
      refine Keeps.ite (fun _ => ?_) (fun _ => ?_)
      · refine State.winTrigger_keeps ?_ _ _
        exact h4
      · exact h4
    refine Keeps.ite (fun _ => ?_) (fun _ => ?_)
    · refine State.rulePost_keeps ?_ _ _ _ _ _ _
      exact h5
    · exact h5
  · exact h3

theorem State.ruleEvaluate_keeps {s0 s : State} (h : Keeps s0 s) (a_n : ℕ) (a_t : Sys2Proof.TimePoint) :
    Keeps s0 (State.ruleEvaluate s a_n a_t) := by
  unfold State.ruleEvaluate
  extract_lets -merge -useContext -underBinder +onlyGivenNames x0
  have h0 : Keeps s0 x0 := by
    unfold x0
    refine State.bump_keeps ?_ _
    refine State.dequeueRule_keeps ?_ _
    exact h
  extract_lets -merge -useContext -underBinder +onlyGivenNames x1
  extract_lets -merge -useContext -underBinder +onlyGivenNames x2
  extract_lets -merge -useContext -underBinder +onlyGivenNames x3
  have h3 : Keeps s0 x3 := by
    unfold x3
    refine State.setRule_keeps ?_ _ _
    exact h0
  extract_lets -merge -useContext -underBinder +onlyGivenNames x4
  refine Keeps.ite (fun _ => ?_) (fun _ => ?_)
  · refine State.ruleFire_keeps ?_ _ _ _ _ _ _ _ _
    exact h3
  · exact h3

theorem State.ruleEcc_keeps {s0 s : State} (h : Keeps s0 s) (a_n : ℕ) (a_ecc : Sys2Proof.ReadEcc) :
    Keeps s0 (State.ruleEcc s a_n a_ecc) := by
  unfold State.ruleEcc
  refine Keeps.ite (fun _ => ?_) (fun _ => ?_)
  · refine State.memEcc_keeps ?_ _ _ _
    exact h
  · extract_lets -merge -useContext -underBinder +onlyGivenNames x0
    extract_lets -merge -useContext -underBinder +onlyGivenNames x1
    have h1 : Keeps s0 x1 := by
      unfold x1
      refine State.setRule_keeps ?_ _ _
      refine State.dequeueRule_keeps ?_ _
      exact h
    refine State.memEcc_keeps ?_ _ _ _
    refine State.raise_keeps ?_ _ _
    exact h1

theorem State.evalTake_keeps {s0 s : State} (h : Keeps s0 s) (a_cycle : ℕ) :
    Keeps s0 (State.evalTake s a_cycle) := by
  unfold State.evalTake
  refine Keeps.mk_upd ?_ rfl
  exact h

theorem execRuleEvaluate_keeps {s0 s : State} (h : Keeps s0 s) (a_d : Fin 40) (a_ecc : Sys2Proof.ReadEcc) :
    Answers s0 (execRuleEvaluate a_d a_ecc s) := by
  refine ⟨_, rfl, ?_⟩
  extract_lets -merge -useContext -underBinder +onlyGivenNames x0
  split
  · exact h
  · refine Keeps.ite (fun _ => ?_) (fun _ => ?_)
    · extract_lets -merge -useContext -underBinder +onlyGivenNames x3
      have h3 : Keeps s0 x3 := by
        unfold x3
        refine State.ruleEcc_keeps ?_ _ _
        refine State.evalTake_keeps ?_ _
        refine State.pubFlush_keeps ?_ _
        exact h
      refine Keeps.ite (fun _ => ?_) (fun _ => ?_)
      · refine State.ruleEvaluate_keeps ?_ _ _
        exact h3
      · exact h3
    · exact h

theorem execRuleTick_keeps {s0 s : State} (h : Keeps s0 s) (a_n : Fin 1024) :
    Answers s0 (execRuleTick a_n s) := by
  refine ⟨_, rfl, ?_⟩
  extract_lets -merge -useContext -underBinder +onlyGivenNames x0
  extract_lets -merge -useContext -underBinder +onlyGivenNames x1
  refine Keeps.ite (fun _ => ?_) (fun _ => ?_)
  · extract_lets -merge -useContext -underBinder +onlyGivenNames x2
    refine Keeps.ite (fun _ => ?_) (fun _ => ?_)
    · refine State.setRule_keeps ?_ _ _
      exact h
    · refine State.queueRule_keeps ?_ _
      refine State.setRule_keeps ?_ _ _
      exact h
  · exact h

theorem State.ruleArm_keeps {s0 s : State} (h : Keeps s0 s) (a_n : ℕ) (a_t : Sys2Proof.TimePoint) :
    Keeps s0 (State.ruleArm s a_n a_t) := by
  unfold State.ruleArm
  extract_lets -merge -useContext -underBinder +onlyGivenNames x0
  refine Keeps.ite (fun _ => ?_) (fun _ => ?_)
  · exact h
  · extract_lets -merge -useContext -underBinder +onlyGivenNames x1
    have h1 : Keeps s0 x1 := by
      unfold x1
      refine State.bump_keeps ?_ _
      exact h
    extract_lets -merge -useContext -underBinder +onlyGivenNames x2
    extract_lets -merge -useContext -underBinder +onlyGivenNames x3
    have h3 : Keeps s0 x3 := by
      unfold x3
      refine State.setRule_keeps ?_ _ _
      exact h1
    refine Keeps.ite (fun _ => ?_) (fun _ => ?_)
    · refine State.ruleFire_keeps ?_ _ _ _ _ _ _ _ _
      exact h3
    · exact h3

theorem State.ruleArmNow_keeps {s0 s : State} (h : Keeps s0 s) (a_n : ℕ) :
    Keeps s0 (State.ruleArmNow s a_n) := by
  unfold State.ruleArmNow
  refine Keeps.ite (fun _ => ?_) (fun _ => ?_)
  · extract_lets -merge -useContext -underBinder +onlyGivenNames x0
    have h0 : Keeps s0 x0.2 := by
      unfold x0
      refine State.fresh_keeps ?_ 
      exact h
    refine State.ruleArm_keeps ?_ _ _
    exact h0
  · refine State.ruleArm_keeps ?_ _ _
    exact h

theorem State.ruleDisarm_keeps {s0 s : State} (h : Keeps s0 s) (a_n : ℕ) :
    Keeps s0 (State.ruleDisarm s a_n) := by
  unfold State.ruleDisarm
  refine State.setRule_keeps ?_ _ _
  refine State.dequeueRule_keeps ?_ _
  exact h

theorem State.swfWrite_keeps {s0 s : State} (h : Keeps s0 s) (a_v : Sys2Proof.Word) :
    Keeps s0 (State.swfWrite s a_v) := by
  unfold State.swfWrite
  extract_lets -merge -useContext -underBinder +onlyGivenNames x0
  refine Keeps.foldl ?_ (fun y1 a1 h1 => ?_)
  · refine State.wr_keeps ?_ _ _
    exact h
  · refine Keeps.ite (fun _ => ?_) (fun _ => ?_)
    · exact h1
    · refine State.operandChanged_keeps ?_ _ _
      exact h1

theorem execSwfSet_keeps {s0 s : State} (h : Keeps s0 s) (a_v : Sys2Proof.Word) :
    Answers s0 (execSwfSet a_v s) := by
  refine ⟨_, rfl, ?_⟩
  refine State.swfWrite_keeps ?_ _
  exact h

theorem execSwfClr_keeps {s0 s : State} (h : Keeps s0 s) (a_v : Sys2Proof.Word) :
    Answers s0 (execSwfClr a_v s) := by
  refine ⟨_, rfl, ?_⟩
  refine State.swfWrite_keeps ?_ _
  exact h

theorem State.rfxCommand_keeps {s0 s : State} (h : Keeps s0 s) (a_arg : BitVec 16) (a_f : ℕ → Sys2Proof.Machine.State → Sys2Proof.Machine.MbxAns × Sys2Proof.Machine.State) (Ha_f : ∀ z0 z1, Keeps s0 z1 → Keeps s0 (a_f z0 z1).2) :
    Keeps s0 (State.rfxCommand s a_arg a_f) := by
  unfold State.rfxCommand
  refine State.mbxCommand_keeps ?_ _ _ (fun y0 h0 => ?_)
  · exact h
  · refine Keeps.ite2 (fun _ => ?_) (fun _ => ?_)
    · refine Keeps.pair2 ?_
      exact h0
    · refine Ha_f _ _ ?_
      exact h0

theorem State.rfxReading_keeps {s0 s : State} (h : Keeps s0 s) (a_arg : BitVec 16) (a_ecc : Sys2Proof.ReadEcc) (a_f : ℕ → Sys2Proof.Machine.State → Sys2Proof.Machine.MbxAns × Sys2Proof.Machine.State) (Ha_f : ∀ z0 z1, Keeps s0 z1 → Keeps s0 (a_f z0 z1).2) :
    Keeps s0 (State.rfxReading s a_arg a_ecc a_f) := by
  unfold State.rfxReading
  refine State.rfxCommand_keeps ?_ _ _ (fun _ y0 h0 => ?_)
  · exact h
  · extract_lets -merge -useContext -underBinder +onlyGivenNames x1
    have h1 : Keeps s0 x1 := by
      unfold x1
      refine State.ruleEcc_keeps ?_ _ _
      exact h0
    refine Keeps.ite2 (fun _ => ?_) (fun _ => ?_)
    · refine Ha_f _ _ ?_
      exact h1
    · refine Keeps.pair2 ?_
      exact h1

theorem State.loadTerms_keeps {s0 s : State} (h : Keeps s0 s) (a_n : ℕ) (a_f : Sys2Proof.Machine.Rule → Sys2Proof.Machine.Rule) :
    Keeps s0 (State.loadTerms s a_n a_f).2 := by
  unfold State.loadTerms
  refine Keeps.ite2 (fun _ => ?_) (fun _ => ?_)
  · refine Keeps.pair2 ?_
    exact h
  · refine Keeps.ite2 (fun _ => ?_) (fun _ => ?_)
    · refine Keeps.pair2 ?_
      exact h
    · refine Keeps.pair2 ?_
      refine State.setRule_keeps ?_ _ _
      exact h

theorem execLoadTermsA_keeps {s0 s : State} (h : Keeps s0 s) (a_arg : BitVec 16) :
    Answers s0 (execLoadTermsA a_arg s) := by
  refine ⟨_, rfl, ?_⟩
  refine State.rfxCommand_keeps ?_ _ _ (fun _ y0 h0 => ?_)
  · exact h
  · refine State.loadTerms_keeps ?_ _ _
    exact h0

theorem execLoadTermsB_keeps {s0 s : State} (h : Keeps s0 s) (a_arg : BitVec 16) :
    Answers s0 (execLoadTermsB a_arg s) := by
  refine ⟨_, rfl, ?_⟩
  refine State.rfxCommand_keeps ?_ _ _ (fun _ y0 h0 => ?_)
  · exact h
  · refine State.loadTerms_keeps ?_ _ _
    exact h0

theorem execLoadAct_keeps {s0 s : State} (h : Keeps s0 s) (a_arg : BitVec 16) :
    Answers s0 (execLoadAct a_arg s) := by
  refine ⟨_, rfl, ?_⟩
  refine State.rfxCommand_keeps ?_ _ _ (fun _ y0 h0 => ?_)
  · exact h
  · extract_lets -merge -useContext -underBinder +onlyGivenNames x1
    extract_lets -merge -useContext -underBinder +onlyGivenNames x2
    extract_lets -merge -useContext -underBinder +onlyGivenNames x3
    refine Keeps.ite2 (fun _ => ?_) (fun _ => ?_)
    · refine Keeps.pair2 ?_
      exact h0
    · refine Keeps.ite2 (fun _ => ?_) (fun _ => ?_)
      · refine Keeps.pair2 ?_
        exact h0
      · refine Keeps.ite2 (fun _ => ?_) (fun _ => ?_)
        · refine Keeps.pair2 ?_
          exact h0
        · refine Keeps.pair2 ?_
          refine State.setRule_keeps ?_ _ _
          exact h0

theorem execRfxArm_keeps {s0 s : State} (h : Keeps s0 s) (a_arg : BitVec 16) (a_ecc : Sys2Proof.ReadEcc) :
    Answers s0 (execRfxArm a_arg a_ecc s) := by
  refine ⟨_, rfl, ?_⟩
  refine State.rfxReading_keeps ?_ _ _ _ (fun _ y0 h0 => ?_)
  · exact h
  · refine Keeps.ite2 (fun _ => ?_) (fun _ => ?_)
    · refine Keeps.pair2 ?_
      exact h0
    · extract_lets -merge -useContext -underBinder +onlyGivenNames x1
      have h1 : Keeps s0 x1 := by
        unfold x1
        refine State.ruleArmNow_keeps ?_ _
        exact h0
      refine Keeps.pair2 ?_
      exact h1

theorem execRfxDisarm_keeps {s0 s : State} (h : Keeps s0 s) (a_arg : BitVec 16) :
    Answers s0 (execRfxDisarm a_arg s) := by
  refine ⟨_, rfl, ?_⟩
  refine State.rfxCommand_keeps ?_ _ _ (fun _ y0 h0 => ?_)
  · exact h
  · refine Keeps.pair2 ?_
    refine State.ruleDisarm_keeps ?_ _
    exact h0

theorem execReadTermsA_keeps {s0 s : State} (h : Keeps s0 s) (a_arg : BitVec 16) (a_ecc : Sys2Proof.ReadEcc) :
    Answers s0 (execReadTermsA a_arg a_ecc s) := by
  refine ⟨_, rfl, ?_⟩
  refine State.rfxReading_keeps ?_ _ _ _ (fun _ y0 h0 => ?_)
  · exact h
  · extract_lets -merge -useContext -underBinder +onlyGivenNames x1
    refine Keeps.pair2 ?_
    exact h0

theorem execReadTermsB_keeps {s0 s : State} (h : Keeps s0 s) (a_arg : BitVec 16) (a_ecc : Sys2Proof.ReadEcc) :
    Answers s0 (execReadTermsB a_arg a_ecc s) := by
  refine ⟨_, rfl, ?_⟩
  refine State.rfxReading_keeps ?_ _ _ _ (fun _ y0 h0 => ?_)
  · exact h
  · extract_lets -merge -useContext -underBinder +onlyGivenNames x1
    refine Keeps.pair2 ?_
    exact h0

theorem execReadAct_keeps {s0 s : State} (h : Keeps s0 s) (a_arg : BitVec 16) (a_ecc : Sys2Proof.ReadEcc) :
    Answers s0 (execReadAct a_arg a_ecc s) := by
  refine ⟨_, rfl, ?_⟩
  refine State.rfxReading_keeps ?_ _ _ _ (fun _ y0 h0 => ?_)
  · exact h
  · extract_lets -merge -useContext -underBinder +onlyGivenNames x1
    refine Keeps.pair2 ?_
    exact h0

theorem execRfxClear_keeps {s0 s : State} (h : Keeps s0 s) (a_arg : BitVec 16) :
    Answers s0 (execRfxClear a_arg s) := by
  refine ⟨_, rfl, ?_⟩
  refine State.rfxCommand_keeps ?_ _ _ (fun _ y0 h0 => ?_)
  · exact h
  · refine Keeps.ite2 (fun _ => ?_) (fun _ => ?_)
    · refine Keeps.pair2 ?_
      exact h0
    · refine Keeps.pair2 ?_
      refine State.setRule_keeps ?_ _ _
      exact h0

theorem State.rfxSoftReset_keeps {s0 s : State} (h : Keeps s0 s)  :
    Keeps s0 (State.rfxSoftReset s) := by
  unfold State.rfxSoftReset
  extract_lets -merge -useContext -underBinder +onlyGivenNames x0
  have h0 : Keeps s0 x0 := by
    unfold x0
    refine Keeps.foldl ?_ (fun y1 a1 h1 => ?_)
    · exact h
    · refine State.ruleDisarm_keeps ?_ _
      exact h1
  refine Keeps.mk_upd ?_ rfl
  exact h0

theorem State.drillLine_keeps {s0 s : State} (h : Keeps s0 s) (a_code : ℕ) (a_k : ℕ) (a_level : Bool) (a_stop : Sys2Proof.TimePoint) :
    Keeps s0 (State.drillLine s a_code a_k a_level a_stop).2 := by
  unfold State.drillLine
  refine Keeps.ite2 (fun _ => ?_) (fun _ => ?_)
  · refine Keeps.pair2 ?_
    refine Keeps.ite (fun _ => ?_) (fun _ => ?_)
    · refine State.cmdPulseStart_keeps ?_ _ _ _
      exact h
    · refine State.cmdWrite_keeps ?_ _ _
      exact h
  · refine Keeps.pair2 ?_
    refine Keeps.ite (fun _ => ?_) (fun _ => ?_)
    · refine State.pulseStart_keeps ?_ _ _ _
      exact h
    · refine State.latchWrite_keeps ?_ _ _
      exact h

theorem State.drillAct_keeps {s0 s : State} (h : Keeps s0 s) (a_n : ℕ) (a_t : Sys2Proof.TimePoint) (a_w : Sys2Proof.TimePoint) (a_base : Sys2Proof.TimePoint) :
    Keeps s0 (State.drillAct s a_n a_t a_w a_base).2 := by
  unfold State.drillAct
  extract_lets -merge -useContext -underBinder +onlyGivenNames x0
  extract_lets -merge -useContext -underBinder +onlyGivenNames x1
  split
  · refine Keeps.pair2 ?_
    refine Keeps.mk_upd ?_ rfl
    exact h
  · refine Keeps.pair2 ?_
    refine State.pubAction_keeps ?_ _ _ _ _ _
    exact h
  · refine Keeps.pair2 ?_
    refine State.winTrigger_keeps ?_ _ _
    exact h
  · refine Keeps.pair2 ?_
    refine State.ruleArm_keeps ?_ _ _
    exact h
  · refine Keeps.pair2 ?_
    refine State.ruleDisarm_keeps ?_ _
    exact h
  · refine Keeps.pair2 ?_
    refine State.postFull_keeps ?_ _ _ _ _ _ _ _ _ _ _ _
    exact h
  · refine State.drillLine_keeps ?_ _ _ _ _
    exact h

theorem State.drillReport_keeps {s0 s : State} (h : Keeps s0 s) (a_n : ℕ) (a_flags : ℕ) (a_w : Sys2Proof.TimePoint) (a_t : Sys2Proof.TimePoint) (a_pulsed : Bool) :
    Keeps s0 (State.drillReport s a_n a_flags a_w a_t a_pulsed) := by
  unfold State.drillReport
  refine Keeps.ite (fun _ => ?_) (fun _ => ?_)
  · extract_lets -merge -useContext -underBinder +onlyGivenNames x0
    refine Keeps.mk_upd ?_ rfl
    exact h
  · refine State.drillDone_keeps ?_ _ _ _ _
    exact h

theorem State.drillLaunch_keeps {s0 s : State} (h : Keeps s0 s) (a_n : ℕ) (a_t : Sys2Proof.TimePoint) (a_w : Sys2Proof.TimePoint) (a_how : Sys2Proof.Machine.Launch) :
    Keeps s0 (State.drillLaunch s a_n a_t a_w a_how) := by
  unfold State.drillLaunch
  extract_lets -merge -useContext -underBinder +onlyGivenNames x0
  extract_lets -merge -useContext -underBinder +onlyGivenNames x1
  have h1 : ∀ w1_0, Keeps s0 w1_0 → Keeps s0 (x1 w1_0) := by
    intro w1_0 hw1
    unfold x1
    refine Keeps.ite (fun _ => ?_) (fun _ => ?_)
    · refine State.setDrl_keeps ?_ _ _
      exact hw1
    · refine State.drillConsume_keeps ?_ _ _
      exact hw1
  extract_lets -merge -useContext -underBinder +onlyGivenNames x2
  refine Keeps.ite (fun _ => ?_) (fun _ => ?_)
  · extract_lets -merge -useContext -underBinder +onlyGivenNames x3
    have h3 : Keeps s0 x3 := by
      unfold x3
      refine h1 _ ?_
      refine State.drillLate_keeps ?_ _ _ _ _ _
      refine State.bump_keeps ?_ _
      exact h
    refine Keeps.ite (fun _ => ?_) (fun _ => ?_)
    · refine State.drillDone_keeps ?_ _ _ _ _
      exact h3
    · exact h3
  · split
    · next y4_0 y4_1 e4 =>
        have g4 : Keeps s0 y4_1 := by
          refine Keeps.of2 e4 ?_
          refine State.drillAct_keeps ?_ _ _ _ _
          exact h
        refine Keeps.ite (fun _ => ?_) (fun _ => ?_)
        · extract_lets -merge -useContext -underBinder +onlyGivenNames x5
          have h5 : Keeps s0 x5 := by
            unfold x5
            refine State.bump_keeps ?_ _
            exact g4
          extract_lets -merge -useContext -underBinder +onlyGivenNames x6
          have h6 : Keeps s0 x6 := by
            unfold x6
            refine Keeps.ite (fun _ => ?_) (fun _ => ?_)
            · exact h5
            · refine State.bump_keeps ?_ _
              exact h5
          extract_lets -merge -useContext -underBinder +onlyGivenNames x7
          have h7 : Keeps s0 x7 := by
            unfold x7
            refine State.setDrl_keeps ?_ _ _
            exact h6
          extract_lets -merge -useContext -underBinder +onlyGivenNames x8
          have h8 : Keeps s0 x8 := by
            unfold x8
            split
            · refine State.postAt_keeps ?_ _ _ _ _ _ _ _ _ _ _
              refine State.raise_keeps ?_ _ _
              exact h7
            · refine State.postAt_keeps ?_ _ _ _ _ _ _ _ _ _ _
              refine State.raise_keeps ?_ _ _
              exact h7
            · exact h7
          extract_lets -merge -useContext -underBinder +onlyGivenNames x12
          have h12 : Keeps s0 x12 := by
            unfold x12
            refine h1 _ ?_
            exact h8
          extract_lets -merge -useContext -underBinder +onlyGivenNames x13
          refine Keeps.ite (fun _ => ?_) (fun _ => ?_)
          · refine State.drillReport_keeps ?_ _ _ _ _ _
            exact h12
          · exact h12
        · extract_lets -merge -useContext -underBinder +onlyGivenNames x14
          have h14 : Keeps s0 x14 := by
            unfold x14
            refine h1 _ ?_
            refine State.drillRefused_keeps ?_ 
            exact g4
          refine State.drillDone_keeps ?_ _ _ _ _
          exact h14

theorem State.noteLaunch_keeps {s0 s : State} (h : Keeps s0 s) (a_t : Sys2Proof.TimePoint) :
    Keeps s0 (State.noteLaunch s a_t) := by
  unfold State.noteLaunch
  refine Keeps.mk_upd ?_ rfl
  exact h

theorem execDrillFire_keeps {s0 s : State} (h : Keeps s0 s) (a_n : Fin 4096) (a_lateNs : ℕ) (a_lateRun : Bool) (a_ecc : Sys2Proof.ReadEcc) :
    Answers s0 (execDrillFire a_n a_lateNs a_lateRun a_ecc s) := by
  refine ⟨_, rfl, ?_⟩
  extract_lets -merge -useContext -underBinder +onlyGivenNames x0
  extract_lets -merge -useContext -underBinder +onlyGivenNames x1
  split
  · refine Keeps.ite (fun _ => ?_) (fun _ => ?_)
    · extract_lets -merge -useContext -underBinder +onlyGivenNames x3
      have h3 : Keeps s0 x3 := by
        unfold x3
        refine State.drillEcc_keeps ?_ _ _
        refine State.pubFlush_keeps ?_ _
        exact h
      refine Keeps.ite (fun _ => ?_) (fun _ => ?_)
      · refine State.drillLaunch_keeps ?_ _ _ _ _
        refine State.setDrl_keeps ?_ _ _
        exact h3
      · exact h3
    · exact h
  · extract_lets -merge -useContext -underBinder +onlyGivenNames x5
    refine Keeps.ite (fun _ => ?_) (fun _ => ?_)
    · extract_lets -merge -useContext -underBinder +onlyGivenNames x6
      have h6 : Keeps s0 x6 := by
        unfold x6
        refine State.drillEcc_keeps ?_ _ _
        refine State.pubFlush_keeps ?_ _
        exact h
      refine Keeps.ite (fun _ => ?_) (fun _ => ?_)
      · extract_lets -merge -useContext -underBinder +onlyGivenNames x7
        extract_lets -merge -useContext -underBinder +onlyGivenNames x8
        have h8 : Keeps s0 x8 := by
          unfold x8
          refine State.drillLaunch_keeps ?_ _ _ _ _
          refine State.noteLaunch_keeps ?_ _
          exact h6
        refine Keeps.ite (fun _ => ?_) (fun _ => ?_)
        · refine State.drillJudge_keeps ?_ _ _ _
          exact h8
        · exact h8
      · exact h6
    · exact h

theorem State.afterStep_keeps {s0 s : State} (h : Keeps s0 s) (a_c : ℤ) :
    Keeps s0 (State.afterStep s a_c) := by
  unfold State.afterStep
  refine State.drillStepCheck_keeps ?_ 
  refine Keeps.foldl ?_ (fun y0 a0 h0 => ?_)
  · exact h
  · refine State.capSkip_keeps ?_ _ _
    exact h0

theorem State.forcedStep_keeps {s0 s : State} (h : Keeps s0 s) (a_move : Sys2Proof.Machine.State → Sys2Proof.Machine.State) (a_c : ℤ) (a_flags : ℕ) (Ha_move : ∀ z0, Keeps s0 z0 → Keeps s0 (a_move z0)) :
    Keeps s0 (State.forcedStep s a_move a_c a_flags) := by
  unfold State.forcedStep
  extract_lets -merge -useContext -underBinder +onlyGivenNames x0
  extract_lets -merge -useContext -underBinder +onlyGivenNames x1
  extract_lets -merge -useContext -underBinder +onlyGivenNames x2
  have h2 : Keeps s0 x2 := by
    unfold x2
    refine State.wr_keeps ?_ _ _
    refine Ha_move _ ?_
    exact h
  extract_lets -merge -useContext -underBinder +onlyGivenNames x3
  have h3 : Keeps s0 x3 := by
    unfold x3
    refine State.raise_keeps ?_ _ _
    refine State.bump_keeps ?_ _
    exact h2
  extract_lets -merge -useContext -underBinder +onlyGivenNames x4
  have h4 : Keeps s0 x4 := by
    unfold x4
    refine State.postAt_keeps ?_ _ _ _ _ _ _ _ _ _ _
    exact h3
  refine State.afterStep_keeps ?_ _
  exact h4

theorem State.dropRefused_keeps {s0 s : State} (h : Keeps s0 s)  :
    Keeps s0 (State.dropRefused s) := by
  unfold State.dropRefused
  refine Keeps.mk_upd ?_ rfl
  exact h

theorem State.refuseCorr_keeps {s0 s : State} (h : Keeps s0 s) (a_c : ℤ) :
    Keeps s0 (State.refuseCorr s a_c) := by
  unfold State.refuseCorr
  extract_lets -merge -useContext -underBinder +onlyGivenNames x0
  extract_lets -merge -useContext -underBinder +onlyGivenNames x1
  extract_lets -merge -useContext -underBinder +onlyGivenNames x2
  have h2 : Keeps s0 x2 := by
    unfold x2
    refine Keeps.mk_upd ?_ rfl
    exact h
  extract_lets -merge -useContext -underBinder +onlyGivenNames x3
  have h3 : Keeps s0 x3 := by
    unfold x3
    refine State.bump_keeps ?_ _
    refine State.wr_keeps ?_ _ _
    refine State.wr_keeps ?_ _ _
    exact h2
  extract_lets -merge -useContext -underBinder +onlyGivenNames x4
  have h4 : Keeps s0 x4 := by
    unfold x4
    refine State.post_keeps ?_ _ _ _ _ _ _ _ _
    refine State.raise_keeps ?_ _ _
    exact h3
  refine Keeps.ite (fun _ => ?_) (fun _ => ?_)
  · refine State.checkHoldLimit_keeps ?_ 
    refine State.setQuality_keeps ?_ _
    exact h4
  · exact h4

theorem State.startSlew_keeps {s0 s : State} (h : Keeps s0 s) (a_c : ℤ) :
    Keeps s0 (State.startSlew s a_c) := by
  unfold State.startSlew
  extract_lets -merge -useContext -underBinder +onlyGivenNames x0
  extract_lets -merge -useContext -underBinder +onlyGivenNames x1
  have h1 : Keeps s0 x1 := by
    unfold x1
    refine Keeps.ite (fun _ => ?_) (fun _ => ?_)
    · refine Keeps.mk_upd ?_ rfl
      exact h
    · exact h
  refine State.wr_keeps ?_ _ _
  refine State.dropRefused_keeps ?_ 
  exact h1

theorem State.adjPhase_keeps {s0 s : State} (h : Keeps s0 s) (a_steward : Bool) :
    Keeps s0 (State.adjPhase s a_steward).2 := by
  unfold State.adjPhase
  extract_lets -merge -useContext -underBinder +onlyGivenNames x0
  refine Keeps.ite2 (fun _ => ?_) (fun _ => ?_)
  · refine Keeps.pair2 ?_
    exact h
  · refine Keeps.ite2 (fun _ => ?_) (fun _ => ?_)
    · extract_lets -merge -useContext -underBinder +onlyGivenNames x1
      extract_lets -merge -useContext -underBinder +onlyGivenNames x2
      have h2 : Keeps s0 x2 := by
        unfold x2
        refine Keeps.mk_upd ?_ rfl
        exact h
      refine Keeps.pair2 ?_
      refine State.forcedStep_keeps ?_ _ _ _ (fun y3 h3 => ?_)
      · refine State.dropRefused_keeps ?_ 
        exact h2
      · refine State.stepCounter_keeps ?_ _
        exact h3
    · refine Keeps.ite2 (fun _ => ?_) (fun _ => ?_)
      · refine Keeps.pair2 ?_
        refine State.startSlew_keeps ?_ _
        exact h
      · refine Keeps.pair2 ?_
        refine State.refuseCorr_keeps ?_ _
        exact h

theorem State.stepForce_keeps {s0 s : State} (h : Keeps s0 s)  :
    Keeps s0 (State.stepForce s).2 := by
  unfold State.stepForce
  refine Keeps.ite2 (fun _ => ?_) (fun _ => ?_)
  · refine Keeps.pair2 ?_
    exact h
  · extract_lets -merge -useContext -underBinder +onlyGivenNames x0
    refine Keeps.pair2 ?_
    refine State.forcedStep_keeps ?_ _ _ _ (fun y1 h1 => ?_)
    · refine State.dropRefused_keeps ?_ 
      exact h
    · refine State.stepCounter_keeps ?_ _
      exact h1

theorem State.setTime_keeps {s0 s : State} (h : Keeps s0 s)  :
    Keeps s0 (State.setTime s).2 := by
  unfold State.setTime
  refine Keeps.ite2 (fun _ => ?_) (fun _ => ?_)
  · refine Keeps.pair2 ?_
    exact h
  · extract_lets -merge -useContext -underBinder +onlyGivenNames x0
    refine Keeps.pair2 ?_
    refine State.forcedStep_keeps ?_ _ _ _ (fun y1 h1 => ?_)
    · refine State.dropRefused_keeps ?_ 
      exact h
    · refine State.setCounter_keeps ?_ _
      exact h1

theorem State.timeExecute_keeps {s0 s : State} (h : Keeps s0 s) (a_c : Sys2Proof.Machine.TimeCmd) :
    Keeps s0 (State.timeExecute s a_c).2 := by
  unfold State.timeExecute
  split
  · refine State.readTime_keeps ?_ 
    exact h
  · refine State.adjPhase_keeps ?_ _
    exact h
  · refine State.rateSet_keeps ?_ _
    exact h
  · refine State.stepForce_keeps ?_ 
    exact h
  · refine State.setTime_keeps ?_ 
    exact h
  · refine State.setState_keeps ?_ _ _
    exact h

theorem State.slewed_keeps {s0 s : State} (h : Keeps s0 s) (a_d : ℤ) :
    Keeps s0 (State.slewed s a_d) := by
  unfold State.slewed
  refine Keeps.ite (fun _ => ?_) (fun _ => ?_)
  · exact h
  · extract_lets -merge -useContext -underBinder +onlyGivenNames x0
    extract_lets -merge -useContext -underBinder +onlyGivenNames x1
    have h1 : Keeps s0 x1 := by
      unfold x1
      refine Keeps.mk_upd ?_ rfl
      exact h
    refine State.wr_keeps ?_ _ _
    exact h1

theorem State.tclkCount_keeps {s0 s : State} (h : Keeps s0 s)  :
    Keeps s0 (State.tclkCount s) := by
  unfold State.tclkCount
  extract_lets -merge -useContext -underBinder +onlyGivenNames x0
  extract_lets -merge -useContext -underBinder +onlyGivenNames x1
  have h1 : Keeps s0 x1 := by
    unfold x1
    refine State.tickTimers_keeps ?_ 
    refine State.setCounter_keeps ?_ _
    exact h
  extract_lets -merge -useContext -underBinder +onlyGivenNames x2
  have h2 : Keeps s0 x2 := by
    unfold x2
    refine State.slewed_keeps ?_ _
    refine Keeps.mk_upd ?_ rfl
    exact h1
  split
  · exact h2
  · extract_lets -merge -useContext -underBinder +onlyGivenNames x5
    extract_lets -merge -useContext -underBinder +onlyGivenNames x6
    have h6 : Keeps s0 x6.2 := by
      unfold x6
      refine State.timeExecute_keeps ?_ _
      refine Keeps.mk_upd ?_ rfl
      exact h2
    refine State.mbxAnswer_keeps ?_ _ _
    exact h6

end Sys2Proof.Machine
end

