-- ==== Sys2Proof/Laws/KeepsBus.lean ====
section
/-! SUPPORT. What each operation and each command keeps: cores, engines, interrupts, the register map, accesses executed and the start. -/

namespace Sys2Proof.Machine

theorem State.setCore_keeps {s0 s : State} (h : Keeps s0 s) (a_n : ℕ) (a_f : Sys2Proof.Machine.CoreSt → Sys2Proof.Machine.CoreSt) :
    Keeps s0 (State.setCore s a_n a_f) := by
  unfold State.setCore
  refine Keeps.mk_upd ?_ rfl
  exact h

theorem State.wdtStart_keeps {s0 s : State} (h : Keeps s0 s) (a_n : ℕ) :
    Keeps s0 (State.wdtStart s a_n) := by
  unfold State.wdtStart
  extract_lets -merge -useContext -underBinder +onlyGivenNames x0
  refine State.setCore_keeps ?_ _ _
  exact h

theorem State.pairRun_keeps {s0 s : State} (h : Keeps s0 s) (a_n : ℕ) :
    Keeps s0 (State.pairRun s a_n) := by
  unfold State.pairRun
  extract_lets -merge -useContext -underBinder +onlyGivenNames x0
  have h0 : Keeps s0 x0 := by
    unfold x0
    refine State.setFld_keeps ?_ _ _ _ _
    refine State.setFld_keeps ?_ _ _ _ _
    exact h
  extract_lets -merge -useContext -underBinder +onlyGivenNames x1
  have h1 : Keeps s0 x1 := by
    unfold x1
    refine State.setCore_keeps ?_ _ _
    exact h0
  refine State.wdtStart_keeps ?_ _
  exact h1

theorem State.pairHold_keeps {s0 s : State} (h : Keeps s0 s) (a_n : ℕ) :
    Keeps s0 (State.pairHold s a_n) := by
  unfold State.pairHold
  refine State.setCore_keeps ?_ _ _
  refine State.setFld_keeps ?_ _ _ _ _
  exact h

theorem State.noteFault_keeps {s0 s : State} (h : Keeps s0 s) (a_n : ℕ) :
    Keeps s0 (State.noteFault s a_n) := by
  unfold State.noteFault
  extract_lets -merge -useContext -underBinder +onlyGivenNames x0
  refine State.setCore_keeps ?_ _ _
  exact h

theorem State.pairFault_keeps {s0 s : State} (h : Keeps s0 s) (a_n : ℕ) (a_bit : ℕ) (a_cause : ℕ) :
    Keeps s0 (State.pairFault s a_n a_bit a_cause) := by
  unfold State.pairFault
  extract_lets -merge -useContext -underBinder +onlyGivenNames x0
  have h0 : Keeps s0 x0 := by
    unfold x0
    refine State.setFld_keeps ?_ _ _ _ _
    exact h
  extract_lets -merge -useContext -underBinder +onlyGivenNames x1
  have h1 : Keeps s0 x1 := by
    unfold x1
    refine State.icuPrivate_keeps ?_ _ _
    refine State.icuPrivate_keeps ?_ _ _
    exact h0
  extract_lets -merge -useContext -underBinder +onlyGivenNames x2
  have h2 : Keeps s0 x2 := by
    unfold x2
    refine State.setCore_keeps ?_ _ _
    refine State.pairHold_keeps ?_ _
    exact h1
  extract_lets -merge -useContext -underBinder +onlyGivenNames x3
  have h3 : Keeps s0 x3 := by
    unfold x3
    refine State.leaseFault_keeps ?_ _
    exact h2
  refine Keeps.ite (fun _ => ?_) (fun _ => ?_)
  · refine State.revert_keeps ?_ _ _
    exact h3
  · exact h3

theorem execLockstepMiscompare_keeps {s0 s : State} (h : Keeps s0 s) (a_n : Fin 4) (a_pc : Sys2Proof.Word) (a_output : Fin 4) :
    Answers s0 (execLockstepMiscompare a_n a_pc a_output s) := by
  refine ⟨_, rfl, ?_⟩
  extract_lets -merge -useContext -underBinder +onlyGivenNames x0
  refine Keeps.ite (fun _ => ?_) (fun _ => ?_)
  · exact h
  · extract_lets -merge -useContext -underBinder +onlyGivenNames x1
    have h1 : Keeps s0 x1 := by
      unfold x1
      refine State.bump_keeps ?_ _
      refine State.noteFault_keeps ?_ _
      exact h
    extract_lets -merge -useContext -underBinder +onlyGivenNames x2
    have h2 : Keeps s0 x2 := by
      unfold x2
      refine State.post_keeps ?_ _ _ _ _ _ _ _ _
      refine State.raise_keeps ?_ _ _
      exact h1
    refine State.pairFault_keeps ?_ _ _ _
    exact h2

theorem State.tcmPut_keeps {s0 s : State} (h : Keeps s0 s) (n off : Nat) (l : List Byte) : Keeps s0 (s.tcmPut n off l) := by
  induction l generalizing s off with
  | nil => exact h
  | cons b l ih => exact ih (Keeps.ite (fun _ => Keeps.mk_upd h rfl) (fun _ => h)) (off + 1)

theorem execPairAutoRestart_keeps {s0 s : State} (h : Keeps s0 s) (a_n : Fin 4) :
    Answers s0 (execPairAutoRestart a_n s) := by
  refine ⟨_, rfl, ?_⟩
  extract_lets -merge -useContext -underBinder +onlyGivenNames x0
  split
  · refine Keeps.ite (fun _ => ?_) (fun _ => ?_)
    · extract_lets -merge -useContext -underBinder +onlyGivenNames x2
      have h2 : Keeps s0 x2 := by
        unfold x2
        split
        · refine State.tcmPut_keeps ?_ _ _ _
          exact h
        · exact h
      refine State.pairRun_keeps ?_ _
      exact h2
    · exact h
  · exact h

theorem execLockstepFaultForget_keeps {s0 s : State} (h : Keeps s0 s) (a_n : Fin 4) :
    Answers s0 (execLockstepFaultForget a_n s) := by
  refine ⟨_, rfl, ?_⟩
  extract_lets -merge -useContext -underBinder +onlyGivenNames x0
  split
  · refine Keeps.ite (fun _ => ?_) (fun _ => ?_)
    · extract_lets -merge -useContext -underBinder +onlyGivenNames x2
      extract_lets -merge -useContext -underBinder +onlyGivenNames x3
      have h3 : Keeps s0 x3 := by
        unfold x3
        refine State.setCore_keeps ?_ _ _
        exact h
      refine Keeps.ite (fun _ => ?_) (fun _ => ?_)
      · exact h3
      · refine State.tryTake_keeps ?_ 
        exact Keeps.foldl h3 fun y b hy => State.setFld_keeps hy _ _ _ _
    · exact h
  · exact h

theorem State.postWatchdog_keeps {s0 s : State} (h : Keeps s0 s) (a_n : ℕ) (a_pc : Sys2Proof.Word) :
    Keeps s0 (State.postWatchdog s a_n a_pc) := by
  unfold State.postWatchdog
  extract_lets -merge -useContext -underBinder +onlyGivenNames x0
  refine State.post_keeps ?_ _ _ _ _ _ _ _ _
  refine State.raise_keeps ?_ _ _
  refine State.bump_keeps ?_ _
  exact h

theorem State.wdtExpire_keeps {s0 s : State} (h : Keeps s0 s) (a_n : ℕ) (a_pc : Sys2Proof.Word) :
    Keeps s0 (State.wdtExpire s a_n a_pc) := by
  unfold State.wdtExpire
  extract_lets -merge -useContext -underBinder +onlyGivenNames x0
  have h0 : Keeps s0 x0 := by
    unfold x0
    refine State.postWatchdog_keeps ?_ _ _
    exact h
  refine Keeps.ite (fun _ => ?_) (fun _ => ?_)
  · extract_lets -merge -useContext -underBinder +onlyGivenNames x1
    have h1 : Keeps s0 x1 := by
      unfold x1
      refine Keeps.ite (fun _ => ?_) (fun _ => ?_)
      · refine State.setFld_keeps ?_ _ _ _ _
        exact h0
      · exact h0
    refine State.hubReset_keeps ?_ _
    refine State.leaseFault_keeps ?_ _
    exact h1
  · refine State.pairFault_keeps ?_ _ _ _
    refine State.noteFault_keeps ?_ _
    exact h0

theorem execWatchdogKick_keeps {s0 s : State} (h : Keeps s0 s) (a_n : Fin 5) (a_v : Sys2Proof.Word) (a_pc : Sys2Proof.Word) :
    Answers s0 (execWatchdogKick a_n a_v a_pc s) := by
  refine ⟨_, rfl, ?_⟩
  refine Keeps.ite (fun _ => ?_) (fun _ => ?_)
  · refine Keeps.ite (fun _ => ?_) (fun _ => ?_)
    · refine State.wdtStart_keeps ?_ _
      exact h
    · refine State.wdtExpire_keeps ?_ _ _
      exact h
  · exact h

theorem execWatchdogWarning_keeps {s0 s : State} (h : Keeps s0 s) (a_n : Fin 5) :
    Answers s0 (execWatchdogWarning a_n s) := by
  refine ⟨_, rfl, ?_⟩
  extract_lets -merge -useContext -underBinder +onlyGivenNames x0
  split
  · refine Keeps.ite (fun _ => ?_) (fun _ => ?_)
    · refine State.icuPrivate_keeps ?_ _ _
      refine State.setCore_keeps ?_ _ _
      exact h
    · exact h
  · exact h

theorem execWatchdogExpiry_keeps {s0 s : State} (h : Keeps s0 s) (a_n : Fin 5) (a_pc : Sys2Proof.Word) :
    Answers s0 (execWatchdogExpiry a_n a_pc s) := by
  refine ⟨_, rfl, ?_⟩
  extract_lets -merge -useContext -underBinder +onlyGivenNames x0
  split
  · refine Keeps.ite (fun _ => ?_) (fun _ => ?_)
    · refine State.wdtExpire_keeps ?_ _ _
      exact h
    · exact h
  · exact h

theorem State.coreReset_keeps {s0 s : State} (h : Keeps s0 s) (a_v : Sys2Proof.Word) :
    Keeps s0 (State.coreReset s a_v) := by
  unfold State.coreReset
  refine Keeps.foldl ?_ (fun y0 a0 h0 => ?_)
  · exact h
  · refine Keeps.ite (fun _ => ?_) (fun _ => ?_)
    · refine State.setCore_keeps ?_ _ _
      refine State.pairHold_keeps ?_ _
      exact h0
    · exact h0

theorem State.coreRun_keeps {s0 s : State} (h : Keeps s0 s) (a_v : Sys2Proof.Word) :
    Keeps s0 (State.coreRun s a_v) := by
  unfold State.coreRun
  refine Keeps.foldl ?_ (fun y0 a0 h0 => ?_)
  · exact h
  · refine Keeps.ite (fun _ => ?_) (fun _ => ?_)
    · exact h0
    · refine Keeps.ite (fun _ => ?_) (fun _ => ?_)
      · refine State.pairRun_keeps ?_ _
        exact h0
      · refine State.setFld_keeps ?_ _ _ _ _
        exact h0

theorem execCoreCtrlReset_keeps {s0 s : State} (h : Keeps s0 s) (a_v : Sys2Proof.Word) :
    Answers s0 (execCoreCtrlReset a_v s) := by
  refine ⟨_, rfl, ?_⟩
  refine State.coreReset_keeps ?_ _
  exact h

theorem execCoreCtrlRun_keeps {s0 s : State} (h : Keeps s0 s) (a_v : Sys2Proof.Word) :
    Answers s0 (execCoreCtrlRun a_v s) := by
  refine ⟨_, rfl, ?_⟩
  refine State.coreRun_keeps ?_ _
  exact h

theorem State.wdtCfgWrite_keeps {s0 s : State} (h : Keeps s0 s) (a_n : ℕ) (a_v : Sys2Proof.Word) :
    Keeps s0 (State.wdtCfgWrite s a_n a_v) := by
  unfold State.wdtCfgWrite
  extract_lets -merge -useContext -underBinder +onlyGivenNames x0
  extract_lets -merge -useContext -underBinder +onlyGivenNames x1
  have h1 : Keeps s0 x1 := by
    unfold x1
    refine State.wr_keeps ?_ _ _
    exact h
  refine Keeps.ite (fun _ => ?_) (fun _ => ?_)
  · refine Keeps.ite (fun _ => ?_) (fun _ => ?_)
    · exact h1
    · refine State.wdtStart_keeps ?_ _
      exact h1
  · refine State.setCore_keeps ?_ _ _
    exact h1

theorem State.scrubFind_keeps {s0 s : State} (h : Keeps s0 s) (a_page : ℕ) (a_mem : ℕ) (a_fault : Bool) (a_ecc : Sys2Proof.ReadEcc) :
    Keeps s0 (State.scrubFind s a_page a_mem a_fault a_ecc) := by
  unfold State.scrubFind
  split
  · exact h
  · refine State.eccNote_keeps ?_ _ _ _ _ _ _
    exact h
  · extract_lets -merge -useContext -underBinder +onlyGivenNames x3
    have h3 : Keeps s0 x3 := by
      unfold x3
      refine State.eccNote_keeps ?_ _ _ _ _ _ _
      exact h
    refine Keeps.ite (fun _ => ?_) (fun _ => ?_)
    · refine State.leaseFault_keeps ?_ _
      exact h3
    · exact h3

theorem execMemoryScrub_keeps {s0 s : State} (h : Keeps s0 s) (a_m : Sys2Proof.ScrubMem) (a_ecc : Sys2Proof.ReadEcc) :
    Answers s0 (execMemoryScrub a_m a_ecc s) := by
  refine ⟨_, rfl, ?_⟩
  split
  · extract_lets -merge -useContext -underBinder +onlyGivenNames x1
    have h1 : Keeps s0 x1 := by
      unfold x1
      refine State.scrubFind_keeps ?_ _ _ _ _
      exact h
    refine Keeps.ite (fun _ => ?_) (fun _ => ?_)
    · exact h1
    · refine Keeps.mk_upd ?_ rfl
      exact h1
  · extract_lets -merge -useContext -underBinder +onlyGivenNames x3
    have h3 : Keeps s0 x3 := by
      unfold x3
      refine State.scrubFind_keeps ?_ _ _ _ _
      exact h
    refine Keeps.ite (fun _ => ?_) (fun _ => ?_)
    · exact h3
    · refine State.raise_keeps ?_ _ _
      refine State.setRule_keeps ?_ _ _
      refine State.dequeueRule_keeps ?_ _
      exact h3
  · extract_lets -merge -useContext -underBinder +onlyGivenNames x5
    have h5 : Keeps s0 x5 := by
      unfold x5
      refine State.scrubFind_keeps ?_ _ _ _ _
      exact h
    refine Keeps.ite (fun _ => ?_) (fun _ => ?_)
    · exact h5
    · refine State.keeperReboot_keeps ?_ 
      exact h5
  · refine State.scrubFind_keeps ?_ _ _ _ _
    exact h

theorem execEccReportRepost_keeps {s0 s : State} (h : Keeps s0 s) (a_page : Fin 256) (a_mem : Fin 16) (a_uncorr : Bool) :
    Answers s0 (execEccReportRepost a_page a_mem a_uncorr s) := by
  refine ⟨_, rfl, ?_⟩
  extract_lets -merge -useContext -underBinder +onlyGivenNames x0
  refine Keeps.ite (fun _ => ?_) (fun _ => ?_)
  · exact h
  · refine State.eccPost_keeps ?_ _ _ _
    exact h

theorem State.engSync_keeps {s0 s : State} (h : Keeps s0 s) (a_e : ℕ) (a_n : ℕ) (a_left : ℕ) :
    Keeps s0 (State.engSync s a_e a_n a_left) := by
  unfold State.engSync
  refine State.setEng_keeps ?_ _ _
  exact h

theorem State.engRestart_keeps {s0 s : State} (h : Keeps s0 s) (a_e : ℕ) (a_n : ℕ) (a_left : ℕ) :
    Keeps s0 (State.engRestart s a_e a_n a_left) := by
  unfold State.engRestart
  refine State.setEng_keeps ?_ _ _
  exact h

theorem State.engCfgWrite_keeps {s0 s : State} (h : Keeps s0 s) (a_e : ℕ) (a_v : Sys2Proof.Word) :
    Keeps s0 (State.engCfgWrite s a_e a_v) := by
  unfold State.engCfgWrite
  extract_lets -merge -useContext -underBinder +onlyGivenNames x0
  refine State.wr_keeps ?_ _ _
  refine State.engSync_keeps ?_ _ _ _
  exact h

theorem State.engPost_keeps {s0 s : State} (h : Keeps s0 s) (a_e : ℕ) (a_ty : ℕ) (a_flags : ℕ) (a_t : Sys2Proof.TimePoint) (a_w4 : Sys2Proof.Word) (a_w5 : Sys2Proof.Word) (a_w6 : Sys2Proof.Word) (a_w7 : Sys2Proof.Word) :
    Keeps s0 (State.engPost s a_e a_ty a_flags a_t a_w4 a_w5 a_w6 a_w7) := by
  unfold State.engPost
  refine State.postAt_keeps ?_ _ _ _ _ _ _ _ _ _ _
  exact h

theorem State.engHalt_keeps {s0 s : State} (h : Keeps s0 s) (a_e : ℕ) (a_cause : ℕ) (a_code : ℕ) (a_t : Sys2Proof.TimePoint) :
    Keeps s0 (State.engHalt s a_e a_cause a_code a_t) := by
  unfold State.engHalt
  extract_lets -merge -useContext -underBinder +onlyGivenNames x0
  refine Keeps.ite (fun _ => ?_) (fun _ => ?_)
  · extract_lets -merge -useContext -underBinder +onlyGivenNames x1
    have h1 : Keeps s0 x1 := by
      unfold x1
      refine State.setEng_keeps ?_ _ _
      exact h
    extract_lets -merge -useContext -underBinder +onlyGivenNames x2
    have h2 : Keeps s0 x2 := by
      unfold x2
      refine State.raise_keeps ?_ _ _
      exact h1
    refine Keeps.ite (fun _ => ?_) (fun _ => ?_)
    · refine State.engPost_keeps ?_ _ _ _ _ _ _ _ _
      exact h2
    · exact h2
  · exact h

theorem State.engDisable_keeps {s0 s : State} (h : Keeps s0 s) (a_e : ℕ) :
    Keeps s0 (State.engDisable s a_e) := by
  unfold State.engDisable
  refine Keeps.ite (fun _ => ?_) (fun _ => ?_)
  · refine State.setEng_keeps ?_ _ _
    refine State.engHalt_keeps ?_ _ _ _ _
    exact h
  · exact h

theorem State.engReset_keeps {s0 s : State} (h : Keeps s0 s) (a_e : ℕ) :
    Keeps s0 (State.engReset s a_e) := by
  unfold State.engReset
  extract_lets -merge -useContext -underBinder +onlyGivenNames x0
  refine State.setEng_keeps ?_ _ _
  exact h

theorem State.engGoto_keeps {s0 s : State} (h : Keeps s0 s) (a_e : ℕ) (a_a : ℕ) (a_t : Sys2Proof.TimePoint) :
    Keeps s0 (State.engGoto s a_e a_a a_t) := by
  unfold State.engGoto
  extract_lets -merge -useContext -underBinder +onlyGivenNames x0
  have h0 : Keeps s0 x0 := by
    unfold x0
    refine State.setEng_keeps ?_ _ _
    exact h
  refine Keeps.ite (fun _ => ?_) (fun _ => ?_)
  · exact h0
  · refine State.engHalt_keeps ?_ _ _ _ _
    exact h0

theorem State.engAdvance_keeps {s0 s : State} (h : Keeps s0 s) (a_e : ℕ) (a_t : Sys2Proof.TimePoint) :
    Keeps s0 (State.engAdvance s a_e a_t) := by
  unfold State.engAdvance
  extract_lets -merge -useContext -underBinder +onlyGivenNames x0
  extract_lets -merge -useContext -underBinder +onlyGivenNames x1
  refine Keeps.ite (fun _ => ?_) (fun _ => ?_)
  · refine Keeps.ite (fun _ => ?_) (fun _ => ?_)
    · refine State.setEng_keeps ?_ _ _
      exact h
    · refine State.engGoto_keeps ?_ _ _ _
      exact h
  · refine State.engGoto_keeps ?_ _ _ _
    exact h

theorem State.engSwap_keeps {s0 s : State} (h : Keeps s0 s) (a_e : ℕ) :
    Keeps s0 (State.engSwap s a_e) := by
  unfold State.engSwap
  extract_lets -merge -useContext -underBinder +onlyGivenNames x0
  extract_lets -merge -useContext -underBinder +onlyGivenNames x1
  have h1 : Keeps s0 x1 := by
    unfold x1
    refine State.wr_keeps ?_ _ _
    refine State.wr_keeps ?_ _ _
    exact h
  refine State.setEng_keeps ?_ _ _
  exact h1

theorem State.commitDone_keeps {s0 s : State} (h : Keeps s0 s) (a_e : ℕ) (a_next : ℕ) (a_immediate : Bool) (a_t : Sys2Proof.TimePoint) :
    Keeps s0 (State.commitDone s a_e a_next a_immediate a_t) := by
  unfold State.commitDone
  extract_lets -merge -useContext -underBinder +onlyGivenNames x0
  have h0 : Keeps s0 x0 := by
    unfold x0
    refine State.raise_keeps ?_ _ _
    exact h
  refine State.engPost_keeps ?_ _ _ _ _ _ _ _ _
  exact h0

theorem State.engAbandon_keeps {s0 s : State} (h : Keeps s0 s) (a_e : ℕ) (a_reason : ℕ) (a_t : Sys2Proof.TimePoint) :
    Keeps s0 (State.engAbandon s a_e a_reason a_t) := by
  unfold State.engAbandon
  extract_lets -merge -useContext -underBinder +onlyGivenNames x0
  extract_lets -merge -useContext -underBinder +onlyGivenNames x1
  have h1 : Keeps s0 x1 := by
    unfold x1
    refine State.setEng_keeps ?_ _ _
    exact h
  refine Keeps.ite (fun _ => ?_) (fun _ => ?_)
  · extract_lets -merge -useContext -underBinder +onlyGivenNames x2
    have h2 : Keeps s0 x2 := by
      unfold x2
      refine State.setEng_keeps ?_ _ _
      exact h1
    refine State.engPost_keeps ?_ _ _ _ _ _ _ _ _
    refine State.raise_keeps ?_ _ _
    exact h2
  · exact h1

theorem State.engCommit_keeps {s0 s : State} (h : Keeps s0 s) (a_e : ℕ) (a_immediate : Bool) :
    Keeps s0 (State.engCommit s a_e a_immediate) := by
  unfold State.engCommit
  extract_lets -merge -useContext -underBinder +onlyGivenNames x0
  extract_lets -merge -useContext -underBinder +onlyGivenNames x1
  extract_lets -merge -useContext -underBinder +onlyGivenNames x2
  refine Keeps.ite (fun _ => ?_) (fun _ => ?_)
  · refine State.bump_keeps ?_ _
    exact h
  · extract_lets -merge -useContext -underBinder +onlyGivenNames x3
    have h3 : Keeps s0 x3 := by
      unfold x3
      refine State.setEng_keeps ?_ _ _
      exact h
    extract_lets -merge -useContext -underBinder +onlyGivenNames x4
    extract_lets -merge -useContext -underBinder +onlyGivenNames x5
    have h5 : Keeps s0 x5 := by
      unfold x5
      refine Keeps.ite (fun _ => ?_) (fun _ => ?_)
      · refine State.engAbandon_keeps ?_ _ _ _
        exact h3
      · exact h3
    refine Keeps.ite (fun _ => ?_) (fun _ => ?_)
    · refine State.commitDone_keeps ?_ _ _ _ _
      refine State.engSwap_keeps ?_ _
      exact h5
    · refine Keeps.ite (fun _ => ?_) (fun _ => ?_)
      · refine State.engGoto_keeps ?_ _ _ _
        refine State.engSync_keeps ?_ _ _ _
        refine State.commitDone_keeps ?_ _ _ _ _
        refine State.engSwap_keeps ?_ _
        exact h5
      · refine State.setEng_keeps ?_ _ _
        exact h5

theorem execCommitSwap_keeps {s0 s : State} (h : Keeps s0 s) (a_c : Fin 64) (a_d : Fin 40) :
    Answers s0 (execCommitSwap a_c a_d s) := by
  refine ⟨_, rfl, ?_⟩
  extract_lets -merge -useContext -underBinder +onlyGivenNames x0
  refine Keeps.ite (fun _ => ?_) (fun _ => ?_)
  · extract_lets -merge -useContext -underBinder +onlyGivenNames x1
    have h1 : Keeps s0 x1 := by
      unfold x1
      refine State.engSwap_keeps ?_ _
      exact h
    extract_lets -merge -useContext -underBinder +onlyGivenNames x2
    refine State.engGoto_keeps ?_ _ _ _
    refine State.commitDone_keeps ?_ _ _ _ _
    exact h1
  · exact h

theorem State.engCancel_keeps {s0 s : State} (h : Keeps s0 s) (a_e : ℕ) :
    Keeps s0 (State.engCancel s a_e) := by
  unfold State.engCancel
  extract_lets -merge -useContext -underBinder +onlyGivenNames x0
  extract_lets -merge -useContext -underBinder +onlyGivenNames x1
  have h1 : Keeps s0 x1 := by
    unfold x1
    refine State.setEng_keeps ?_ _ _
    exact h
  refine Keeps.ite (fun _ => ?_) (fun _ => ?_)
  · refine State.engAdvance_keeps ?_ _ _
    exact h1
  · exact h1

theorem State.engCopy_keeps {s0 s : State} (h : Keeps s0 s) (a_e : ℕ) :
    Keeps s0 (State.engCopy s a_e) := by
  unfold State.engCopy
  refine State.setEng_keeps ?_ _ _
  exact h

theorem execCopyDone_keeps {s0 s : State} (h : Keeps s0 s) (a_c : Fin 64) :
    Answers s0 (execCopyDone a_c s) := by
  refine ⟨_, rfl, ?_⟩
  extract_lets -merge -useContext -underBinder +onlyGivenNames x0
  refine Keeps.ite (fun _ => ?_) (fun _ => ?_)
  · extract_lets -merge -useContext -underBinder +onlyGivenNames x1
    extract_lets -merge -useContext -underBinder +onlyGivenNames x2
    have h2 : Keeps s0 x2 := by
      unfold x2
      refine Keeps.foldl ?_ (fun y3 a3 h3 => ?_)
      · exact h
      · refine State.sramSet_keeps ?_ _ _
        exact h3
    refine State.setEng_keeps ?_ _ _
    exact h2
  · exact h

theorem State.startEvent_keeps {s0 s : State} (h : Keeps s0 s) (a_engines : BitVec 64) (a_target : Option Sys2Proof.TimePoint) :
    Keeps s0 (State.startEvent s a_engines a_target) := by
  unfold State.startEvent
  extract_lets -merge -useContext -underBinder +onlyGivenNames x0
  have h0 : Keeps s0 x0 := by
    unfold x0
    refine Keeps.mk_upd ?_ rfl
    exact h
  refine Keeps.foldl ?_ (fun y1 a1 h1 => ?_)
  · exact h0
  · refine Keeps.ite (fun _ => ?_) (fun _ => ?_)
    · exact h1
    · refine State.tileWake_keeps ?_ _
      exact h1

theorem State.engStart_keeps {s0 s : State} (h : Keeps s0 s) (a_e : ℕ) :
    Keeps s0 (State.engStart s a_e) := by
  unfold State.engStart
  refine State.startEvent_keeps ?_ _ _
  exact h

theorem State.grpStart_keeps {s0 s : State} (h : Keeps s0 s)  :
    Keeps s0 (State.grpStart s) := by
  unfold State.grpStart
  refine State.startEvent_keeps ?_ _ _
  exact h

theorem State.startEngine_keeps {s0 s : State} (h : Keeps s0 s) (a_e : ℕ) (a_n : ℕ) (a_t : Sys2Proof.TimePoint) :
    Keeps s0 (State.startEngine s a_e a_n a_t) := by
  unfold State.startEngine
  extract_lets -merge -useContext -underBinder +onlyGivenNames x0
  extract_lets -merge -useContext -underBinder +onlyGivenNames x1
  refine Keeps.ite (fun _ => ?_) (fun _ => ?_)
  · exact h
  · extract_lets -merge -useContext -underBinder +onlyGivenNames x2
    have h2 : Keeps s0 x2 := by
      unfold x2
      refine State.setEng_keeps ?_ _ _
      exact h
    refine Keeps.ite (fun _ => ?_) (fun _ => ?_)
    · refine State.bump_keeps ?_ _
      exact h2
    · extract_lets -merge -useContext -underBinder +onlyGivenNames x3
      have h3 : Keeps s0 x3 := by
        unfold x3
        refine State.raise_keeps ?_ _ _
        exact h2
      refine Keeps.ite (fun _ => ?_) (fun _ => ?_)
      · refine State.engGoto_keeps ?_ _ _ _
        refine State.engRestart_keeps ?_ _ _ _
        refine State.setEng_keeps ?_ _ _
        exact h3
      · refine Keeps.ite (fun _ => ?_) (fun _ => ?_)
        · refine State.engAdvance_keeps ?_ _ _
          refine State.engRestart_keeps ?_ _ _ _
          refine State.setEng_keeps ?_ _ _
          exact h3
        · refine Keeps.ite (fun _ => ?_) (fun _ => ?_)
          · refine State.engGoto_keeps ?_ _ _ _
            refine State.engRestart_keeps ?_ _ _ _
            refine State.engAbandon_keeps ?_ _ _ _
            exact h3
          · refine State.engRestart_keeps ?_ _ _ _
            exact h3

theorem execStartEventAct_keeps {s0 s : State} (h : Keeps s0 s) (a_i : ℕ) (a_d : Fin 40) :
    Answers s0 (execStartEventAct a_i a_d s) := by
  refine ⟨_, rfl, ?_⟩
  split
  · refine Keeps.ite (fun _ => ?_) (fun _ => ?_)
    · extract_lets -merge -useContext -underBinder +onlyGivenNames x1
      extract_lets -merge -useContext -underBinder +onlyGivenNames x2
      extract_lets -merge -useContext -underBinder +onlyGivenNames x3
      have h3 : Keeps s0 x3 := by
        unfold x3
        refine Keeps.mk_upd ?_ rfl
        exact h
      refine Keeps.foldl ?_ (fun y4 a4 h4 => ?_)
      · exact h3
      · refine State.startEngine_keeps ?_ _ _ _
        exact h4
    · exact h
  · exact h

theorem State.engCommand_keeps {s0 s : State} (h : Keeps s0 s) (a_e : ℕ) (a_v : Sys2Proof.Word) :
    Keeps s0 (State.engCommand s a_e a_v) := by
  unfold State.engCommand
  extract_lets -merge -useContext -underBinder +onlyGivenNames x0
  have h0 : Keeps s0 x0 := by
    unfold x0
    refine Keeps.ite (fun _ => ?_) (fun _ => ?_)
    · refine State.engReset_keeps ?_ _
      exact h
    · exact h
  extract_lets -merge -useContext -underBinder +onlyGivenNames x1
  have h1 : Keeps s0 x1 := by
    unfold x1
    refine Keeps.ite (fun _ => ?_) (fun _ => ?_)
    · refine State.engCommit_keeps ?_ _ _
      exact h0
    · exact h0
  extract_lets -merge -useContext -underBinder +onlyGivenNames x2
  have h2 : Keeps s0 x2 := by
    unfold x2
    refine Keeps.ite (fun _ => ?_) (fun _ => ?_)
    · refine State.engCancel_keeps ?_ _
      exact h1
    · exact h1
  extract_lets -merge -useContext -underBinder +onlyGivenNames x3
  have h3 : Keeps s0 x3 := by
    unfold x3
    refine Keeps.ite (fun _ => ?_) (fun _ => ?_)
    · refine State.engCopy_keeps ?_ _
      exact h2
    · exact h2
  extract_lets -merge -useContext -underBinder +onlyGivenNames x4
  have h4 : Keeps s0 x4 := by
    unfold x4
    refine Keeps.ite (fun _ => ?_) (fun _ => ?_)
    · refine State.engStart_keeps ?_ _
      exact h3
    · exact h3
  refine Keeps.ite (fun _ => ?_) (fun _ => ?_)
  · refine State.engHalt_keeps ?_ _ _ _ _
    exact h4
  · exact h4

theorem State.engSegWrite_keeps {s0 s : State} (h : Keeps s0 s) (a_e : ℕ) (a_v : Sys2Proof.Word) :
    Keeps s0 (State.engSegWrite s a_e a_v) := by
  unfold State.engSegWrite
  extract_lets -merge -useContext -underBinder +onlyGivenNames x0
  extract_lets -merge -useContext -underBinder +onlyGivenNames x1
  have h1 : Keeps s0 x1 := by
    unfold x1
    refine State.setEng_keeps ?_ _ _
    exact h
  refine Keeps.ite (fun _ => ?_) (fun _ => ?_)
  · exact h1
  · refine State.wr_keeps ?_ _ _
    exact h1

theorem State.engProgWrite_keeps {s0 s : State} (h : Keeps s0 s) (a_e : ℕ) (a_v : Sys2Proof.Word) :
    Keeps s0 (State.engProgWrite s a_e a_v) := by
  unfold State.engProgWrite
  extract_lets -merge -useContext -underBinder +onlyGivenNames x0
  extract_lets -merge -useContext -underBinder +onlyGivenNames x1
  extract_lets -merge -useContext -underBinder +onlyGivenNames x2
  refine Keeps.ite (fun _ => ?_) (fun _ => ?_)
  · refine State.bump_keeps ?_ _
    exact h
  · extract_lets -merge -useContext -underBinder +onlyGivenNames x3
    have h3 : Keeps s0 x3 := by
      unfold x3
      refine State.sramSet_keeps ?_ _ _
      exact h
    refine Keeps.ite (fun _ => ?_) (fun _ => ?_)
    · refine State.wr_keeps ?_ _ _
      exact h3
    · exact h3

theorem State.engFlagSet_keeps {s0 s : State} (h : Keeps s0 s) (a_e : ℕ) (a_v : Sys2Proof.Word) :
    Keeps s0 (State.engFlagSet s a_e a_v) := by
  unfold State.engFlagSet
  refine State.setEng_keeps ?_ _ _
  exact h

theorem State.engFlagClr_keeps {s0 s : State} (h : Keeps s0 s) (a_e : ℕ) (a_v : Sys2Proof.Word) :
    Keeps s0 (State.engFlagClr s a_e a_v) := by
  unfold State.engFlagClr
  refine State.setEng_keeps ?_ _ _
  exact h

theorem State.engMarkWrite_keeps {s0 s : State} (h : Keeps s0 s) (a_e : ℕ) (a_v : Sys2Proof.Word) :
    Keeps s0 (State.engMarkWrite s a_e a_v) := by
  unfold State.engMarkWrite
  refine State.setEng_keeps ?_ _ _
  exact h

theorem State.engOsrWrite_keeps {s0 s : State} (h : Keeps s0 s) (a_e : ℕ) (a_v : Sys2Proof.Word) :
    Keeps s0 (State.engOsrWrite s a_e a_v) := by
  unfold State.engOsrWrite
  refine State.setEng_keeps ?_ _ _
  exact h

theorem State.engXyWrite_keeps {s0 s : State} (h : Keeps s0 s) (a_e : ℕ) (a_v : Sys2Proof.Word) :
    Keeps s0 (State.engXyWrite s a_e a_v) := by
  unfold State.engXyWrite
  refine State.setEng_keeps ?_ _ _
  exact h

theorem State.engCntWrite_keeps {s0 s : State} (h : Keeps s0 s) (a_e : ℕ) (a_v : Sys2Proof.Word) :
    Keeps s0 (State.engCntWrite s a_e a_v) := by
  unfold State.engCntWrite
  refine State.setEng_keeps ?_ _ _
  exact h

theorem State.conflictsTo_keeps {s0 s : State} (h : Keeps s0 s) (a_t : ℕ) (a_n : ℕ) :
    Keeps s0 (State.conflictsTo s a_t a_n) := by
  unfold State.conflictsTo
  extract_lets -merge -useContext -underBinder +onlyGivenNames x0
  extract_lets -merge -useContext -underBinder +onlyGivenNames x1
  have h1 : Keeps s0 x1 := by
    unfold x1
    refine Keeps.foldl ?_ (fun y2 a2 h2 => ?_)
    · exact h
    · refine State.bumpBy_keeps ?_ _ _
      exact h2
  refine State.setTile_keeps ?_ _ _
  exact h1

theorem State.funcWrite_keeps {s0 s : State} (h : Keeps s0 s) (a_c : ℕ) (a_v : Sys2Proof.Word) :
    Keeps s0 (State.funcWrite s a_c a_v) := by
  unfold State.funcWrite
  extract_lets -merge -useContext -underBinder +onlyGivenNames x0
  refine Keeps.ite (fun _ => ?_) (fun _ => ?_)
  · refine State.wr_keeps ?_ _ _
    exact h
  · refine Keeps.ite (fun _ => ?_) (fun _ => ?_)
    · exact h
    · refine State.wr_keeps ?_ _ _
      refine State.wr_keeps ?_ _ _
      exact h

theorem State.engTake_keeps {s0 s : State} (h : Keeps s0 s) (a_e : ℕ) (a_n : ℕ) (a_w : Sys2Proof.Word) :
    Keeps s0 (State.engTake s a_e a_n a_w) := by
  unfold State.engTake
  refine State.engSync_keeps ?_ _ _ _
  exact h

theorem State.engRun_keeps {s0 s : State} (h : Keeps s0 s) (a_e : ℕ) (a_d : ℕ) (a_is : Sys2Proof.Word → Bool) (a_act : Sys2Proof.Word → Sys2Proof.Machine.State → Sys2Proof.Machine.State) (Ha_act : ∀ z0 z1, Keeps s0 z1 → Keeps s0 (a_act z0 z1)) :
    Keeps s0 (State.engRun s a_e a_d a_is a_act) := by
  unfold State.engRun
  extract_lets -merge -useContext -underBinder +onlyGivenNames x0
  refine Keeps.ite (fun _ => ?_) (fun _ => ?_)
  · refine Ha_act _ _ ?_
    refine State.engTake_keeps ?_ _ _ _
    exact h
  · exact h

theorem execHalt_keeps {s0 s : State} (h : Keeps s0 s) (a_c : Fin 64) (a_d : Fin 40) :
    Answers s0 (execHalt a_c a_d s) := by
  refine ⟨_, rfl, ?_⟩
  refine State.engRun_keeps ?_ _ _ _ _ (fun _ y0 h0 => ?_)
  · exact h
  · refine State.engHalt_keeps ?_ _ _ _ _
    exact h0

theorem execShiftOut_keeps {s0 s : State} (h : Keeps s0 s) (a_c : Fin 64) (a_d : Fin 40) :
    Answers s0 (execShiftOut a_c a_d s) := by
  refine ⟨_, rfl, ?_⟩
  refine State.engRun_keeps ?_ _ _ _ _ (fun _ y0 h0 => ?_)
  · exact h
  · extract_lets -merge -useContext -underBinder +onlyGivenNames x1
    split
    · extract_lets -merge -useContext -underBinder +onlyGivenNames x3
      extract_lets -merge -useContext -underBinder +onlyGivenNames x4
      have h4 : Keeps s0 x4 := by
        unfold x4
        refine State.setEng_keeps ?_ _ _
        exact h0
      extract_lets -merge -useContext -underBinder +onlyGivenNames x5
      have h5 : Keeps s0 x5 := by
        unfold x5
        refine State.setEng_keeps ?_ _ _
        exact h4
      refine State.engAdvance_keeps ?_ _ _
      exact h5

theorem execShiftIn_keeps {s0 s : State} (h : Keeps s0 s) (a_c : Fin 64) (a_d : Fin 40) :
    Answers s0 (execShiftIn a_c a_d s) := by
  refine ⟨_, rfl, ?_⟩
  refine State.engRun_keeps ?_ _ _ _ _ (fun _ y0 h0 => ?_)
  · exact h
  · extract_lets -merge -useContext -underBinder +onlyGivenNames x1
    extract_lets -merge -useContext -underBinder +onlyGivenNames x2
    extract_lets -merge -useContext -underBinder +onlyGivenNames x3
    extract_lets -merge -useContext -underBinder +onlyGivenNames x4
    have h4 : Keeps s0 x4 := by
      unfold x4
      refine State.setEng_keeps ?_ _ _
      exact h0
    refine State.engAdvance_keeps ?_ _ _
    exact h4

theorem execDrive_keeps {s0 s : State} (h : Keeps s0 s) (a_c : Fin 64) (a_d : Fin 40) :
    Answers s0 (execDrive a_c a_d s) := by
  refine ⟨_, rfl, ?_⟩
  refine State.engRun_keeps ?_ _ _ _ _ (fun _ y0 h0 => ?_)
  · exact h
  · extract_lets -merge -useContext -underBinder +onlyGivenNames x1
    have h1 : Keeps s0 x1 := by
      unfold x1
      refine State.conflictsTo_keeps ?_ _ _
      exact h0
    extract_lets -merge -useContext -underBinder +onlyGivenNames x2
    extract_lets -merge -useContext -underBinder +onlyGivenNames x3
    extract_lets -merge -useContext -underBinder +onlyGivenNames x4
    have h4 : Keeps s0 x4 := by
      unfold x4
      refine State.setEng_keeps ?_ _ _
      exact h1
    refine State.engAdvance_keeps ?_ _ _
    exact h4

theorem execSample_keeps {s0 s : State} (h : Keeps s0 s) (a_c : Fin 64) (a_d : Fin 40) :
    Answers s0 (execSample a_c a_d s) := by
  refine ⟨_, rfl, ?_⟩
  refine State.engRun_keeps ?_ _ _ _ _ (fun _ y0 h0 => ?_)
  · exact h
  · extract_lets -merge -useContext -underBinder +onlyGivenNames x1
    extract_lets -merge -useContext -underBinder +onlyGivenNames x2
    have h2 : Keeps s0 x2 := by
      unfold x2
      refine State.setEng_keeps ?_ _ _
      exact h0
    refine State.engAdvance_keeps ?_ _ _
    exact h2

theorem execLoad_keeps {s0 s : State} (h : Keeps s0 s) (a_c : Fin 64) (a_d : Fin 40) :
    Answers s0 (execLoad a_c a_d s) := by
  refine ⟨_, rfl, ?_⟩
  refine State.engRun_keeps ?_ _ _ _ _ (fun _ y0 h0 => ?_)
  · exact h
  · extract_lets -merge -useContext -underBinder +onlyGivenNames x1
    extract_lets -merge -useContext -underBinder +onlyGivenNames x2
    extract_lets -merge -useContext -underBinder +onlyGivenNames x3
    have h3 : Keeps s0 x3 := by
      unfold x3
      refine State.setEng_keeps ?_ _ _
      exact h0
    refine State.engAdvance_keeps ?_ _ _
    exact h3

theorem execBranch_keeps {s0 s : State} (h : Keeps s0 s) (a_c : Fin 64) (a_d : Fin 40) :
    Answers s0 (execBranch a_c a_d s) := by
  refine ⟨_, rfl, ?_⟩
  refine State.engRun_keeps ?_ _ _ _ _ (fun _ y0 h0 => ?_)
  · exact h
  · refine Keeps.ite (fun _ => ?_) (fun _ => ?_)
    · refine State.engGoto_keeps ?_ _ _ _
      refine State.setEng_keeps ?_ _ _
      exact h0
    · refine State.engAdvance_keeps ?_ _ _
      exact h0

theorem State.markEnd_keeps {s0 s : State} (h : Keeps s0 s) (a_e : ℕ) (a_t : Sys2Proof.TimePoint) (a_late : Bool) :
    Keeps s0 (State.markEnd s a_e a_t a_late) := by
  unfold State.markEnd
  extract_lets -merge -useContext -underBinder +onlyGivenNames x0
  extract_lets -merge -useContext -underBinder +onlyGivenNames x1
  extract_lets -merge -useContext -underBinder +onlyGivenNames x2
  extract_lets -merge -useContext -underBinder +onlyGivenNames x3
  have h3 : Keeps s0 x3 := by
    unfold x3
    refine State.setEng_keeps ?_ _ _
    exact h
  extract_lets -merge -useContext -underBinder +onlyGivenNames x4
  extract_lets -merge -useContext -underBinder +onlyGivenNames x5
  have h5 : Keeps s0 x5 := by
    unfold x5
    refine Keeps.ite (fun _ => ?_) (fun _ => ?_)
    · refine State.wr_keeps ?_ _ _
      exact h3
    · exact h3
  extract_lets -merge -useContext -underBinder +onlyGivenNames x6
  have h6 : Keeps s0 x6 := by
    unfold x6
    refine Keeps.ite (fun _ => ?_) (fun _ => ?_)
    · refine State.raise_keeps ?_ _ _
      refine State.bumpBy_keeps ?_ _ _
      exact h5
    · exact h5
  refine State.engAdvance_keeps ?_ _ _
  exact h6

theorem State.waitCycle_keeps {s0 s : State} (h : Keeps s0 s) (a_e : ℕ) (a_n : ℕ) (a_back : ℕ) (a_w : Sys2Proof.Word) (a_x : Sys2Proof.Machine.EngWait) (a_t : Sys2Proof.TimePoint) :
    Keeps s0 (State.waitCycle s a_e a_n a_back a_w a_x a_t) := by
  unfold State.waitCycle
  refine Keeps.ite (fun _ => ?_) (fun _ => ?_)
  · extract_lets -merge -useContext -underBinder +onlyGivenNames x0
    have h0 : Keeps s0 x0 := by
      unfold x0
      refine State.setEng_keeps ?_ _ _
      refine State.engTake_keeps ?_ _ _ _
      exact h
    refine State.engAdvance_keeps ?_ _ _
    exact h0
  · refine State.setEng_keeps ?_ _ _
    refine State.engSync_keeps ?_ _ _ _
    exact h

theorem execWait_keeps {s0 s : State} (h : Keeps s0 s) (a_c : Fin 64) (a_d : Fin 40) :
    Answers s0 (execWait a_c a_d s) := by
  refine ⟨_, rfl, ?_⟩
  refine State.engRun_keeps ?_ _ _ _ _ (fun _ y0 h0 => ?_)
  · exact h
  · extract_lets -merge -useContext -underBinder +onlyGivenNames x1
    extract_lets -merge -useContext -underBinder +onlyGivenNames x2
    refine Keeps.ite (fun _ => ?_) (fun _ => ?_)
    · refine State.waitCycle_keeps ?_ _ _ _ _ _ _
      exact h0
    · refine Keeps.ite (fun _ => ?_) (fun _ => ?_)
      · refine State.markEnd_keeps ?_ _ _ _
        exact h0
      · refine State.setEng_keeps ?_ _ _
        exact h0

theorem execWaitEnd_keeps {s0 s : State} (h : Keeps s0 s) (a_c : Fin 64) (a_d : Fin 40) :
    Answers s0 (execWaitEnd a_c a_d s) := by
  refine ⟨_, rfl, ?_⟩
  split
  · extract_lets -merge -useContext -underBinder +onlyGivenNames x1
    refine Keeps.ite (fun _ => ?_) (fun _ => ?_)
    · refine State.waitCycle_keeps ?_ _ _ _ _ _ _
      exact h
    · exact h
  · exact h

theorem execWaitTimeMark_keeps {s0 s : State} (h : Keeps s0 s) (a_c : Fin 64) (a_d : Fin 40) :
    Answers s0 (execWaitTimeMark a_c a_d s) := by
  refine ⟨_, rfl, ?_⟩
  extract_lets -merge -useContext -underBinder +onlyGivenNames x0
  extract_lets -merge -useContext -underBinder +onlyGivenNames x1
  extract_lets -merge -useContext -underBinder +onlyGivenNames x2
  extract_lets -merge -useContext -underBinder +onlyGivenNames x3
  extract_lets -merge -useContext -underBinder +onlyGivenNames x4
  refine Keeps.ite (fun _ => ?_) (fun _ => ?_)
  · refine Keeps.ite (fun _ => ?_) (fun _ => ?_)
    · refine Keeps.ite (fun _ => ?_) (fun _ => ?_)
      · refine State.markEnd_keeps ?_ _ _ _
        refine State.engTake_keeps ?_ _ _ _
        exact h
      · exact h
    · refine State.markEnd_keeps ?_ _ _ _
      refine State.engRestart_keeps ?_ _ _ _
      exact h
  · exact h

theorem execEngineMarkPrepare_keeps {s0 s : State} (h : Keeps s0 s) (a_c : Fin 64) :
    Answers s0 (execEngineMarkPrepare a_c s) := by
  refine ⟨_, rfl, ?_⟩
  extract_lets -merge -useContext -underBinder +onlyGivenNames x0
  extract_lets -merge -useContext -underBinder +onlyGivenNames x1
  refine Keeps.ite (fun _ => ?_) (fun _ => ?_)
  · refine State.tileWake_keeps ?_ _
    refine State.setEng_keeps ?_ _ _
    exact h
  · exact h

theorem State.pushAct_keeps {s0 s : State} (h : Keeps s0 s) (a_e : ℕ) (a_w : Sys2Proof.Word) :
    Keeps s0 (State.pushAct s a_e a_w) := by
  unfold State.pushAct
  extract_lets -merge -useContext -underBinder +onlyGivenNames x0
  extract_lets -merge -useContext -underBinder +onlyGivenNames x1
  extract_lets -merge -useContext -underBinder +onlyGivenNames x2
  extract_lets -merge -useContext -underBinder +onlyGivenNames x3
  have h3 : Keeps s0 x3 := by
    unfold x3
    refine Keeps.ite (fun _ => ?_) (fun _ => ?_)
    · exact h
    · refine State.rxBegin_keeps ?_ _
      exact h
  extract_lets -merge -useContext -underBinder +onlyGivenNames x4
  have h4 : Keeps s0 x4 := by
    unfold x4
    refine Keeps.ite (fun _ => ?_) (fun _ => ?_)
    · exact h3
    · refine State.rxWord_keeps ?_ _ _ _
      exact h3
  extract_lets -merge -useContext -underBinder +onlyGivenNames x5
  have h5 : Keeps s0 x5 := by
    unfold x5
    refine Keeps.ite (fun _ => ?_) (fun _ => ?_)
    · refine State.rxFail_keeps ?_ _ _
      exact h3
    · refine Keeps.ite (fun _ => ?_) (fun _ => ?_)
      · refine State.rxCommit_keeps ?_ _
        exact h4
      · refine Keeps.ite (fun _ => ?_) (fun _ => ?_)
        · refine State.rxFail_keeps ?_ _ _
          exact h4
        · exact h4
  refine State.setEng_keeps ?_ _ _
  exact h5

theorem State.stampAct_keeps {s0 s : State} (h : Keeps s0 s) (a_e : ℕ) (a_t : Sys2Proof.TimePoint) :
    Keeps s0 (State.stampAct s a_e a_t) := by
  unfold State.stampAct
  extract_lets -merge -useContext -underBinder +onlyGivenNames x0
  extract_lets -merge -useContext -underBinder +onlyGivenNames x1
  have h1 : Keeps s0 x1 := by
    unfold x1
    refine Keeps.ite (fun _ => ?_) (fun _ => ?_)
    · exact h
    · refine State.rxBegin_keeps ?_ _
      exact h
  refine Keeps.ite (fun _ => ?_) (fun _ => ?_)
  · refine State.rxFail_keeps ?_ _ _
    exact h1
  · refine State.rxWord_keeps ?_ _ _ _
    refine State.rxWord_keeps ?_ _ _ _
    exact h1

theorem State.pullWord_keeps {s0 s : State} (h : Keeps s0 s) (a_e : ℕ) :
    Keeps s0 (State.pullWord s a_e) := by
  unfold State.pullWord
  extract_lets -merge -useContext -underBinder +onlyGivenNames x0
  extract_lets -merge -useContext -underBinder +onlyGivenNames x1
  extract_lets -merge -useContext -underBinder +onlyGivenNames x2
  extract_lets -merge -useContext -underBinder +onlyGivenNames x3
  split
  · next y4_0 y4_1 e4 =>
      have g4 : Keeps s0 y4_1 := by
        refine Keeps.of2 e4 ?_
        refine State.txNext_keeps ?_ _
        exact h
      extract_lets -merge -useContext -underBinder +onlyGivenNames x5
      extract_lets -merge -useContext -underBinder +onlyGivenNames x6
      have h6 : Keeps s0 x6 := by
        unfold x6
        refine State.setEng_keeps ?_ _ _
        exact g4
      refine Keeps.ite (fun _ => ?_) (fun _ => ?_)
      · refine State.txFinish_keeps ?_ _
        exact h6
      · exact h6
  · next y7_0 e7 =>
      have g7 : Keeps s0 y7_0 := by
        refine Keeps.of2 e7 ?_
        refine State.txNext_keeps ?_ _
        exact h
      exact g7

theorem State.pullHeader_keeps {s0 s : State} (h : Keeps s0 s) (a_e : ℕ) :
    Keeps s0 (State.pullHeader s a_e) := by
  unfold State.pullHeader
  split
  · next y0_0 y0_1 e0 =>
      have g0 : Keeps s0 y0_1 := by
        refine Keeps.of2 e0 ?_
        refine State.txBegin_keeps ?_ _
        exact h
      refine State.setEng_keeps ?_ _ _
      exact g0
  · next y1_0 e1 =>
      have g1 : Keeps s0 y1_0 := by
        refine Keeps.of2 e1 ?_
        refine State.txBegin_keeps ?_ _
        exact h
      exact g1

theorem State.pullPrepare_keeps {s0 s : State} (h : Keeps s0 s) (a_e : ℕ) (a_hdr : Bool) :
    Keeps s0 (State.pullPrepare s a_e a_hdr) := by
  unfold State.pullPrepare
  refine Keeps.ite (fun _ => ?_) (fun _ => ?_)
  · refine Keeps.ite (fun _ => ?_) (fun _ => ?_)
    · refine State.dropOldest_keeps ?_ _
      exact h
    · exact h
  · refine Keeps.ite (fun _ => ?_) (fun _ => ?_)
    · refine State.txUnderrun_keeps ?_ _
      exact h
    · exact h

theorem State.pullAct_keeps {s0 s : State} (h : Keeps s0 s) (a_e : ℕ) (a_hdr : Bool) :
    Keeps s0 (State.pullAct s a_e a_hdr) := by
  unfold State.pullAct
  refine Keeps.ite (fun _ => ?_) (fun _ => ?_)
  · refine State.pullHeader_keeps ?_ _
    exact h
  · refine Keeps.ite (fun _ => ?_) (fun _ => ?_)
    · refine State.pullWord_keeps ?_ _
      exact h
    · refine State.pullWord_keeps ?_ _
      refine State.pullHeader_keeps ?_ _
      exact h

theorem State.exchange_keeps {s0 s : State} (h : Keeps s0 s) (a_e : ℕ) (a_w : Sys2Proof.Word) (a_t : Sys2Proof.TimePoint) :
    Keeps s0 (State.exchange s a_e a_w a_t).1 := by
  unfold State.exchange
  refine Keeps.ite1 (fun _ => ?_) (fun _ => ?_)
  · refine Keeps.pair1 ?_
    exact h
  · refine Keeps.ite1 (fun _ => ?_) (fun _ => ?_)
    · extract_lets -merge -useContext -underBinder +onlyGivenNames x0
      have h0 : Keeps s0 x0 := by
        unfold x0
        refine State.pullPrepare_keeps ?_ _ _
        exact h
      refine Keeps.ite1 (fun _ => ?_) (fun _ => ?_)
      · refine Keeps.pair1 ?_
        exact h
      · refine Keeps.pair1 ?_
        exact h0
    · extract_lets -merge -useContext -underBinder +onlyGivenNames x1
      refine Keeps.pair1 ?_
      exact h

theorem State.exchangeCycle_keeps {s0 s : State} (h : Keeps s0 s) (e n : Nat) (w : Word) (t : TimePoint) :
    Keeps s0 (s.exchangeCycle e n w t) := by
  have hx := State.exchange_keeps h e w t
  have hy : ∀ y, Keeps s0 y → Keeps s0 ((s.exchange e w t).2.2 y) := by
    intro y k
    unfold State.exchange
    split
    · exact State.stampAct_keeps k _ _
    · split
      · dsimp only
        split
        · exact k
        · exact State.pullAct_keeps k _ _
      · exact State.pushAct_keeps k _ _
  unfold State.exchangeCycle
  generalize s.exchange e w t = x at hx hy ⊢
  obtain ⟨p, can, act⟩ := x
  refine Keeps.ite (fun _ => ?_) (fun _ => Keeps.ite (fun _ => ?_) (fun _ => ?_))
  · exact State.engAdvance_keeps (State.setEng_keeps (hy _ (State.setEng_keeps (State.engTake_keeps hx _ _ _) _ _)) _ _) _ _
  · exact State.engAdvance_keeps (State.setEng_keeps (State.engTake_keeps hx _ _ _) _ _) _ _
  · exact State.bump_keeps (State.setEng_keeps (State.engSync_keeps hx _ _ _) _ _) _

theorem State.engExchange_keeps {s0 s : State} (h : Keeps s0 s) (a_e : ℕ) (a_d : ℕ) (a_is : Sys2Proof.Word → Bool) (a_t : Sys2Proof.TimePoint) :
    Keeps s0 (State.engExchange s a_e a_d a_is a_t) := by
  unfold State.engExchange
  extract_lets -merge -useContext -underBinder +onlyGivenNames x0
  refine Keeps.ite (fun _ => ?_) (fun _ => ?_)
  · refine State.exchangeCycle_keeps ?_ _ _ _ _
    exact h
  · exact h

theorem execPush_keeps {s0 s : State} (h : Keeps s0 s) (a_c : Fin 64) (a_d : Fin 40) :
    Answers s0 (execPush a_c a_d s) := by
  refine ⟨_, rfl, ?_⟩
  refine State.engExchange_keeps ?_ _ _ _ _
  exact h

theorem execPull_keeps {s0 s : State} (h : Keeps s0 s) (a_c : Fin 64) (a_d : Fin 40) :
    Answers s0 (execPull a_c a_d s) := by
  refine ⟨_, rfl, ?_⟩
  refine State.engExchange_keeps ?_ _ _ _ _
  exact h

theorem execStamp_keeps {s0 s : State} (h : Keeps s0 s) (a_c : Fin 64) (a_d : Fin 40) :
    Answers s0 (execStamp a_c a_d s) := by
  refine ⟨_, rfl, ?_⟩
  refine State.engExchange_keeps ?_ _ _ _ _
  exact h

theorem execStallEnd_keeps {s0 s : State} (h : Keeps s0 s) (a_c : Fin 64) (a_d : Fin 40) (a_cycles : ℕ) :
    Answers s0 (execStallEnd a_c a_d a_cycles s) := by
  refine ⟨_, rfl, ?_⟩
  extract_lets -merge -useContext -underBinder +onlyGivenNames x0
  extract_lets -merge -useContext -underBinder +onlyGivenNames x1
  refine Keeps.ite (fun _ => ?_) (fun _ => ?_)
  · refine State.exchangeCycle_keeps ?_ _ _ _ _
    refine State.bumpBy_keeps ?_ _ _
    exact h
  · exact h

theorem State.markIrq_keeps {s0 s : State} (h : Keeps s0 s) (a_e : ℕ) (a_w : Sys2Proof.Word) :
    Keeps s0 (State.markIrq s a_e a_w) := by
  unfold State.markIrq
  refine Keeps.ite (fun _ => ?_) (fun _ => ?_)
  · refine State.raise_keeps ?_ _ _
    exact h
  · exact h

theorem execMarkSetFlag_keeps {s0 s : State} (h : Keeps s0 s) (a_c : Fin 64) (a_d : Fin 40) :
    Answers s0 (execMarkSetFlag a_c a_d s) := by
  refine ⟨_, rfl, ?_⟩
  refine State.engRun_keeps ?_ _ _ _ _ (fun _ y0 h0 => ?_)
  · exact h
  · extract_lets -merge -useContext -underBinder +onlyGivenNames x1
    have h1 : Keeps s0 x1 := by
      unfold x1
      refine State.setEng_keeps ?_ _ _
      exact h0
    refine State.engAdvance_keeps ?_ _ _
    refine State.markIrq_keeps ?_ _ _
    exact h1

theorem execMarkClearFlag_keeps {s0 s : State} (h : Keeps s0 s) (a_c : Fin 64) (a_d : Fin 40) :
    Answers s0 (execMarkClearFlag a_c a_d s) := by
  refine ⟨_, rfl, ?_⟩
  refine State.engRun_keeps ?_ _ _ _ _ (fun _ y0 h0 => ?_)
  · exact h
  · extract_lets -merge -useContext -underBinder +onlyGivenNames x1
    have h1 : Keeps s0 x1 := by
      unfold x1
      refine State.setEng_keeps ?_ _ _
      exact h0
    refine State.engAdvance_keeps ?_ _ _
    refine State.markIrq_keeps ?_ _ _
    exact h1

theorem execMarkPost_keeps {s0 s : State} (h : Keeps s0 s) (a_c : Fin 64) (a_d : Fin 40) :
    Answers s0 (execMarkPost a_c a_d s) := by
  refine ⟨_, rfl, ?_⟩
  refine State.engRun_keeps ?_ _ _ _ _ (fun _ y0 h0 => ?_)
  · exact h
  · extract_lets -merge -useContext -underBinder +onlyGivenNames x1
    extract_lets -merge -useContext -underBinder +onlyGivenNames x2
    have h2 : Keeps s0 x2 := by
      unfold x2
      refine State.engPost_keeps ?_ _ _ _ _ _ _ _ _
      exact h0
    refine State.engAdvance_keeps ?_ _ _
    refine State.markIrq_keeps ?_ _ _
    exact h2

theorem execIllegalInstruction_keeps {s0 s : State} (h : Keeps s0 s) (a_c : Fin 64) (a_d : Fin 40) :
    Answers s0 (execIllegalInstruction a_c a_d s) := by
  refine ⟨_, rfl, ?_⟩
  refine Keeps.ite (fun _ => ?_) (fun _ => ?_)
  · refine State.engHalt_keeps ?_ _ _ _ _
    exact h
  · exact h

theorem execEngineFetchEcc_keeps {s0 s : State} (h : Keeps s0 s) (a_c : Fin 64) (a_d : Fin 40) (a_ecc : Sys2Proof.ReadEcc) :
    Answers s0 (execEngineFetchEcc a_c a_d a_ecc s) := by
  refine ⟨_, rfl, ?_⟩
  refine Keeps.ite (fun _ => ?_) (fun _ => ?_)
  · extract_lets -merge -useContext -underBinder +onlyGivenNames x0
    split
    · exact h
    · refine State.eccError_keeps ?_ _ _ _ _ _
      exact h
    · refine State.engHalt_keeps ?_ _ _ _ _
      refine State.memUncorr_keeps ?_ _ _ _ _
      exact h
  · exact h

theorem State.setIcu_keeps {s0 s : State} (h : Keeps s0 s) (a_f : Sys2Proof.Machine.IcuSt → Sys2Proof.Machine.IcuSt) :
    Keeps s0 (State.setIcu s a_f) := by
  unfold State.setIcu
  refine Keeps.mk_upd ?_ rfl
  exact h

theorem State.setNest_keeps {s0 s : State} (h : Keeps s0 s) (a_t : ℕ) (a_l : List (ℕ × ℕ)) :
    Keeps s0 (State.setNest s a_t a_l) := by
  unfold State.setNest
  refine State.setIcu_keeps ?_ _
  exact h

theorem State.claimTake_keeps {s0 s : State} (h : Keeps s0 s) (a_t : ℕ) (a_id : ℕ) (a_prio : ℕ) :
    Keeps s0 (State.claimTake s a_t a_id a_prio) := by
  unfold State.claimTake
  extract_lets -merge -useContext -underBinder +onlyGivenNames x0
  extract_lets -merge -useContext -underBinder +onlyGivenNames x1
  extract_lets -merge -useContext -underBinder +onlyGivenNames x2
  have h2 : Keeps s0 x2 := by
    unfold x2
    refine State.setIcu_keeps ?_ _
    exact h
  extract_lets -merge -useContext -underBinder +onlyGivenNames x3
  have h3 : Keeps s0 x3 := by
    unfold x3
    refine State.wr_keeps ?_ _ _
    refine State.setNest_keeps ?_ _ _
    exact h2
  extract_lets -merge -useContext -underBinder +onlyGivenNames x4
  refine Keeps.ite (fun _ => ?_) (fun _ => ?_)
  · exact h3
  · refine State.setIcu_keeps ?_ _
    exact h3

theorem State.icuClaim_keeps {s0 s : State} (h : Keeps s0 s) (a_t : ℕ) (a_a : Sys2Proof.Agent) :
    Keeps s0 (State.icuClaim s a_t a_a).2 := by
  unfold State.icuClaim
  refine Keeps.ite2 (fun _ => ?_) (fun _ => ?_)
  · refine Keeps.pair2 ?_
    exact h
  · extract_lets -merge -useContext -underBinder +onlyGivenNames x0
    refine Keeps.ite2 (fun _ => ?_) (fun _ => ?_)
    · refine Keeps.pair2 ?_
      refine State.bump_keeps ?_ _
      exact h
    · refine Keeps.ite2 (fun _ => ?_) (fun _ => ?_)
      · refine Keeps.pair2 ?_
        refine State.bump_keeps ?_ _
        refine State.setIcu_keeps ?_ _
        exact h
      · refine Keeps.pair2 ?_
        refine State.claimTake_keeps ?_ _ _ _
        exact h

theorem execIcuClaim_keeps {s0 s : State} (h : Keeps s0 s) (a_t : Fin 6) (a_a : Sys2Proof.Agent) :
    Answers s0 (execIcuClaim a_t a_a s) := by
  refine ⟨_, rfl, ?_⟩
  refine State.answered_keeps ?_ _
  refine State.icuClaim_keeps ?_ _ _
  exact h

theorem State.icuPop_keeps {s0 s : State} (h : Keeps s0 s) (a_t : ℕ) (a_id : ℕ) :
    Keeps s0 (State.icuPop s a_t a_id) := by
  unfold State.icuPop
  split
  · refine State.bump_keeps ?_ _
    exact h
  · extract_lets -merge -useContext -underBinder +onlyGivenNames x2
    have h2 : Keeps s0 x2 := by
      unfold x2
      refine State.wr_keeps ?_ _ _
      refine State.setNest_keeps ?_ _ _
      exact h
    refine Keeps.ite (fun _ => ?_) (fun _ => ?_)
    · refine State.setIcu_keeps ?_ _
      exact h2
    · refine State.bump_keeps ?_ _
      refine State.setIcu_keeps ?_ _
      exact h2

theorem State.icuComplete_keeps {s0 s : State} (h : Keeps s0 s) (a_t : ℕ) (a_a : Sys2Proof.Agent) (a_v : Sys2Proof.Word) :
    Keeps s0 (State.icuComplete s a_t a_a a_v) := by
  unfold State.icuComplete
  refine Keeps.ite (fun _ => ?_) (fun _ => ?_)
  · exact h
  · extract_lets -merge -useContext -underBinder +onlyGivenNames x0
    have h0 : Keeps s0 x0 := by
      unfold x0
      refine State.icuPop_keeps ?_ _ _
      exact h
    refine Keeps.ite (fun _ => ?_) (fun _ => ?_)
    · refine State.msixSend_keeps ?_ _
      exact h0
    · exact h0

theorem execIcuComplete_keeps {s0 s : State} (h : Keeps s0 s) (a_t : Fin 6) (a_a : Sys2Proof.Agent) (a_v : Sys2Proof.Word) :
    Answers s0 (execIcuComplete a_t a_a a_v s) := by
  refine ⟨_, rfl, ?_⟩
  refine State.icuComplete_keeps ?_ _ _ _
  exact h

theorem State.icuThreshold_keeps {s0 s : State} (h : Keeps s0 s) (a_t : ℕ) (a_a : Sys2Proof.Agent) (a_v : Sys2Proof.Word) :
    Keeps s0 (State.icuThreshold s a_t a_a a_v) := by
  unfold State.icuThreshold
  refine Keeps.ite (fun _ => ?_) (fun _ => ?_)
  · exact h
  · refine State.withHostRequest_keeps ?_ _ (fun y0 h0 => ?_)
    · exact h
    · refine State.wr_keeps ?_ _ _
      exact h0

theorem execThresholdWrite_keeps {s0 s : State} (h : Keeps s0 s) (a_t : Fin 6) (a_a : Sys2Proof.Agent) (a_v : Sys2Proof.Word) :
    Answers s0 (execThresholdWrite a_t a_a a_v s) := by
  refine ⟨_, rfl, ?_⟩
  refine State.icuThreshold_keeps ?_ _ _ _
  exact h

theorem State.icuSwset_keeps {s0 s : State} (h : Keeps s0 s) (a_a : Sys2Proof.Agent) (a_v : Sys2Proof.Word) :
    Keeps s0 (State.icuSwset s a_a a_v) := by
  unfold State.icuSwset
  extract_lets -merge -useContext -underBinder +onlyGivenNames x0
  refine Keeps.ite (fun _ => ?_) (fun _ => ?_)
  · exact h
  · refine Keeps.ite (fun _ => ?_) (fun _ => ?_)
    · refine State.bump_keeps ?_ _
      exact h
    · refine State.icuPend_keeps ?_ _
      exact h

theorem State.privSwset_keeps {s0 s : State} (h : Keeps s0 s) (a_t : ℕ) (a_a : Sys2Proof.Agent) (a_v : Sys2Proof.Word) :
    Keeps s0 (State.privSwset s a_t a_a a_v) := by
  unfold State.privSwset
  refine Keeps.ite (fun _ => ?_) (fun _ => ?_)
  · refine State.icuPrivate_keeps ?_ _ _
    exact h
  · exact h

theorem execSwset_keeps {s0 s : State} (h : Keeps s0 s) (a_t : Fin 6) (a_a : Sys2Proof.Agent) (a_v : Sys2Proof.Word) :
    Answers s0 (execSwset a_t a_a a_v s) := by
  refine ⟨_, rfl, ?_⟩
  refine Keeps.ite (fun _ => ?_) (fun _ => ?_)
  · refine State.icuSwset_keeps ?_ _ _
    exact h
  · refine State.privSwset_keeps ?_ _ _ _
    exact h

theorem State.srcCfgWrite_keeps {s0 s : State} (h : Keeps s0 s) (a_id : ℕ) (a_a : Sys2Proof.Agent) (a_v : Sys2Proof.Word) :
    Keeps s0 (State.srcCfgWrite s a_id a_a a_v) := by
  unfold State.srcCfgWrite
  extract_lets -merge -useContext -underBinder +onlyGivenNames x0
  refine Keeps.ite (fun _ => ?_) (fun _ => ?_)
  · refine State.bump_keeps ?_ _
    exact h
  · refine State.withHostRequest_keeps ?_ _ (fun y1 h1 => ?_)
    · exact h
    · refine State.wr_keeps ?_ _ _
      exact h1

theorem execSrcCfgWrite_keeps {s0 s : State} (h : Keeps s0 s) (a_i : Fin 448) (a_a : Sys2Proof.Agent) (a_v : Sys2Proof.Word) :
    Answers s0 (execSrcCfgWrite a_i a_a a_v s) := by
  refine ⟨_, rfl, ?_⟩
  refine State.srcCfgWrite_keeps ?_ _ _ _
  exact h

theorem State.privCfgWrite_keeps {s0 s : State} (h : Keeps s0 s) (a_t : ℕ) (a_j : ℕ) (a_a : Sys2Proof.Agent) (a_v : Sys2Proof.Word) :
    Keeps s0 (State.privCfgWrite s a_t a_j a_a a_v) := by
  unfold State.privCfgWrite
  refine Keeps.ite (fun _ => ?_) (fun _ => ?_)
  · refine State.wr_keeps ?_ _ _
    exact h
  · exact h

theorem execPrivCfgWrite_keeps {s0 s : State} (h : Keeps s0 s) (a_t : Fin 5) (a_j : Fin 32) (a_a : Sys2Proof.Agent) (a_v : Sys2Proof.Word) :
    Answers s0 (execPrivCfgWrite a_t a_j a_a a_v s) := by
  refine ⟨_, rfl, ?_⟩
  refine State.privCfgWrite_keeps ?_ _ _ _ _
  exact h

theorem State.ipi_keeps {s0 s : State} (h : Keeps s0 s) (a_t : ℕ) (a_a : Sys2Proof.Agent) (a_v : Sys2Proof.Word) :
    Keeps s0 (State.ipi s a_t a_a a_v) := by
  unfold State.ipi
  refine Keeps.ite (fun _ => ?_) (fun _ => ?_)
  · refine State.icuPrivate_keeps ?_ _ _
    exact h
  · exact h

theorem execIpi_keeps {s0 s : State} (h : Keeps s0 s) (a_t : Fin 5) (a_a : Sys2Proof.Agent) (a_v : Sys2Proof.Word) :
    Answers s0 (execIpi a_t a_a a_v s) := by
  refine ⟨_, rfl, ?_⟩
  refine State.ipi_keeps ?_ _ _ _
  exact h

theorem State.setTimer_keeps {s0 s : State} (h : Keeps s0 s) (a_t : ℕ) (a_k : ℕ) (a_x : Option Sys2Proof.Machine.TimerSt) :
    Keeps s0 (State.setTimer s a_t a_k a_x) := by
  unfold State.setTimer
  refine State.setIcu_keeps ?_ _
  exact h

theorem State.tmrWrite_keeps {s0 s : State} (h : Keeps s0 s) (a_t : ℕ) (a_k : ℕ) (a_a : Sys2Proof.Agent) (a_v : Sys2Proof.Word) :
    Keeps s0 (State.tmrWrite s a_t a_k a_a a_v) := by
  unfold State.tmrWrite
  refine Keeps.ite (fun _ => ?_) (fun _ => ?_)
  · refine State.setTimer_keeps ?_ _ _ _
    refine State.wr_keeps ?_ _ _
    exact h
  · exact h

theorem execTmrWrite_keeps {s0 s : State} (h : Keeps s0 s) (a_t : Fin 5) (a_k : Fin 4) (a_a : Sys2Proof.Agent) (a_v : Sys2Proof.Word) :
    Answers s0 (execTmrWrite a_t a_k a_a a_v s) := by
  refine ⟨_, rfl, ?_⟩
  refine State.tmrWrite_keeps ?_ _ _ _ _
  exact h

theorem execTimerExpiry_keeps {s0 s : State} (h : Keeps s0 s) (a_t : Fin 5) (a_k : Fin 4) :
    Answers s0 (execTimerExpiry a_t a_k s) := by
  refine ⟨_, rfl, ?_⟩
  extract_lets -merge -useContext -underBinder +onlyGivenNames x0
  extract_lets -merge -useContext -underBinder +onlyGivenNames x1
  split
  · refine Keeps.ite (fun _ => ?_) (fun _ => ?_)
    · extract_lets -merge -useContext -underBinder +onlyGivenNames x3
      have h3 : Keeps s0 x3 := by
        unfold x3
        refine State.icuPrivate_keeps ?_ _ _
        exact h
      extract_lets -merge -useContext -underBinder +onlyGivenNames x4
      refine Keeps.ite (fun _ => ?_) (fun _ => ?_)
      · refine State.setTimer_keeps ?_ _ _ _
        exact h3
      · refine State.setTimer_keeps ?_ _ _ _
        refine State.setFld_keeps ?_ _ _ _ _
        exact h3
    · exact h
  · exact h

theorem execHoldoffEnd_keeps {s0 s : State} (h : Keeps s0 s) (a_g : Fin 32) :
    Answers s0 (execHoldoffEnd a_g s) := by
  refine ⟨_, rfl, ?_⟩
  extract_lets -merge -useContext -underBinder +onlyGivenNames x0
  refine Keeps.ite (fun _ => ?_) (fun _ => ?_)
  · refine State.withHostRequest_keeps ?_ _ (fun y1 h1 => ?_)
    · exact h
    · refine State.setIcu_keeps ?_ _
      exact h1
  · exact h

theorem State.icuSoftReset_keeps {s0 s : State} (h : Keeps s0 s)  :
    Keeps s0 (State.icuSoftReset s) := by
  unfold State.icuSoftReset
  extract_lets -merge -useContext -underBinder +onlyGivenNames x0
  have h0 : Keeps s0 x0 := by
    unfold x0
    refine State.setIcu_keeps ?_ _
    exact h
  refine State.withHostRequest_keeps ?_ _ (fun y1 h1 => ?_)
  · exact h0
  · refine State.wr_keeps ?_ _ _
    exact h1

theorem State.icupSoftReset_keeps {s0 s : State} (h : Keeps s0 s) (a_t : ℕ) :
    Keeps s0 (State.icupSoftReset s a_t) := by
  unfold State.icupSoftReset
  extract_lets -merge -useContext -underBinder +onlyGivenNames x0
  have h0 : Keeps s0 x0 := by
    unfold x0
    refine State.setIcu_keeps ?_ _
    exact h
  refine State.wr_keeps ?_ _ _
  exact h0

theorem State.clearShown_keeps {s0 s : State} (h : Keeps s0 s) (a_page : ℕ) (a_addr : ℕ) :
    Keeps s0 (State.clearShown s a_page a_addr) := by
  unfold State.clearShown
  refine Keeps.mk_upd ?_ rfl
  exact h

theorem State.indTake_keeps {s0 s : State} (h : Keeps s0 s) (a_page : ℕ) (a_addr : ℕ) :
    Keeps s0 (State.indTake s a_page a_addr).2 := by
  unfold State.indTake
  split
  · refine Keeps.pair2 ?_
    refine Keeps.ite (fun _ => ?_) (fun _ => ?_)
    · refine State.clearShown_keeps ?_ _ _
      refine State.prbsRead_keeps ?_ _
      exact h
    · exact h
  · refine Keeps.pair2 ?_
    exact h

theorem after_keeps {s0 s : State} {o : Host.Outcome State Fault Refusal} (ho : Answers s0 o) (_ : Keeps s0 s) : Keeps s0 (after o s) := by
  obtain ⟨t, rfl, h⟩ := ho
  exact h

theorem State.clearRun_keeps {s0 s : State} (h : Keeps s0 s) (a_page : ℕ) (a_off : ℕ) (a_n : ℕ) :
    Keeps s0 (State.clearRun s a_page a_off a_n) := by
  unfold State.clearRun
  extract_lets -merge -useContext -underBinder +onlyGivenNames x0
  have h0 : Keeps s0 x0 := by
    unfold x0
    refine State.zeroRegs_keeps ?_ _ _
    exact h
  extract_lets -merge -useContext -underBinder +onlyGivenNames x1
  refine Keeps.mk_upd ?_ rfl
  exact h0

theorem State.clearCounters_keeps {s0 s : State} (h : Keeps s0 s) (a_page : ℕ) :
    Keeps s0 (State.clearCounters s a_page) := by
  unfold State.clearCounters
  split
  · refine Keeps.foldl ?_ (fun y1 a1 h1 => ?_)
    · exact h
    · refine State.clearRun_keeps ?_ _ _ _
      exact h1
  · exact h

theorem State.xbrSoftReset_keeps {s0 s : State} (h : Keeps s0 s)  :
    Keeps s0 (State.xbrSoftReset s) := by
  unfold State.xbrSoftReset
  extract_lets -merge -useContext -underBinder +onlyGivenNames x0
  have h0 : Keeps s0 x0 := by
    unfold x0
    refine State.setNet_keeps ?_ _
    refine State.setXbr_keeps ?_ _
    exact h
  refine Keeps.mk_upd ?_ rfl
  exact h0

theorem State.chSoftReset_keeps {s0 s : State} (h : Keeps s0 s) (a_c : ℕ) :
    Keeps s0 (State.chSoftReset s a_c) := by
  unfold State.chSoftReset
  extract_lets -merge -useContext -underBinder +onlyGivenNames x0
  have h0 : Keeps s0 x0 := by
    unfold x0
    refine State.serStop_keeps ?_ _
    refine State.fifoClear_keeps ?_ _
    refine State.fifoClear_keeps ?_ _
    refine State.engReset_keeps ?_ _
    exact h
  extract_lets -merge -useContext -underBinder +onlyGivenNames x1
  have h1 : Keeps s0 x1 := by
    unfold x1
    refine State.zeroRegs_keeps ?_ _ _
    refine State.setCtr_keeps ?_ _ _
    exact h0
  refine State.clearRun_keeps ?_ _ _ _
  refine State.clearRun_keeps ?_ _ _ _
  refine State.zeroRegs_keeps ?_ _ _
  exact h1

theorem State.canSoftReset_keeps {s0 s : State} (h : Keeps s0 s) (a_n : ℕ) :
    Keeps s0 (State.canSoftReset s a_n) := by
  unfold State.canSoftReset
  extract_lets -merge -useContext -underBinder +onlyGivenNames x0
  have h0 : Keeps s0 x0 := by
    unfold x0
    refine State.wr_keeps ?_ _ _
    refine State.wr_keeps ?_ _ _
    refine State.wr_keeps ?_ _ _
    exact h
  extract_lets -merge -useContext -underBinder +onlyGivenNames x1
  have h1 : Keeps s0 x1 := by
    unfold x1
    refine State.setCan_keeps ?_ _ _
    refine State.wr_keeps ?_ _ _
    refine State.wr_keeps ?_ _ _
    exact h0
  refine State.canStart_keeps ?_ _
  refine State.fifoClear_keeps ?_ _
  refine State.fifoClear_keeps ?_ _
  exact h1

theorem State.fpSoftReset_keeps {s0 s : State} (h : Keeps s0 s) (a_n : ℕ) :
    Keeps s0 (State.fpSoftReset s a_n) := by
  unfold State.fpSoftReset
  extract_lets -merge -useContext -underBinder +onlyGivenNames x0
  have h0 : Keeps s0 x0 := by
    unfold x0
    refine State.clearRun_keeps ?_ _ _ _
    refine State.wr_keeps ?_ _ _
    refine State.fpEnable_keeps ?_ _ _
    exact h
  refine Keeps.ite (fun _ => ?_) (fun _ => ?_)
  · refine State.fpEnable_keeps ?_ _ _
    exact h0
  · exact h0

theorem State.plkSoftReset_keeps {s0 s : State} (h : Keeps s0 s)  :
    Keeps s0 (State.plkSoftReset s) := by
  unfold State.plkSoftReset
  extract_lets -merge -useContext -underBinder +onlyGivenNames x0
  have h0 : Keeps s0 x0 := by
    unfold x0
    refine State.wr_keeps ?_ _ _
    refine State.plkEnable_keeps ?_ _
    exact h
  extract_lets -merge -useContext -underBinder +onlyGivenNames x1
  have h1 : Keeps s0 x1 := by
    unfold x1
    refine State.setPlk_keeps ?_ _
    exact h0
  refine Keeps.ite (fun _ => ?_) (fun _ => ?_)
  · refine State.plkEnable_keeps ?_ _
    exact h1
  · exact h1

theorem State.leaseSoftReset_keeps {s0 s : State} (h : Keeps s0 s) : Keeps s0 s.leaseSoftReset := by
  unfold State.leaseSoftReset
  extract_lets x y z
  have h1 : Keeps s0 z := State.setLease_keeps (State.leaseEnable_keeps h false)
    (fun l => { LeaseSt.init with peerOwn := l.peerOwn, peerAt := l.peerAt }) (fun _ => rfl)
  exact Keeps.ite (fun _ => State.leaseEnable_keeps h1 true) (fun _ => h1)

theorem State.ringSoftReset_keeps {s0 s : State} (h : Keeps s0 s)  :
    Keeps s0 (State.ringSoftReset s) := by
  unfold State.ringSoftReset
  extract_lets -merge -useContext -underBinder +onlyGivenNames x0
  extract_lets -merge -useContext -underBinder +onlyGivenNames x1
  have h1 : Keeps s0 x1 := by
    unfold x1
    refine State.setRing_keeps ?_ _
    exact h
  refine State.zeroRegs_keeps ?_ _ _
  exact h1

theorem State.bufSoftReset_keeps {s0 s : State} (h : Keeps s0 s)  :
    Keeps s0 (State.bufSoftReset s) := by
  unfold State.bufSoftReset
  refine State.setNet_keeps ?_ _
  exact h

theorem State.dmaSoftReset_keeps {s0 s : State} (h : Keeps s0 s)  :
    Keeps s0 (State.dmaSoftReset s) := by
  unfold State.dmaSoftReset
  refine Keeps.foldl ?_ (fun y0 a0 h0 => ?_)
  · exact h
  · refine State.setDma_keeps ?_ _ _
    refine State.wr_keeps ?_ _ _
    refine State.wr_keeps ?_ _ _
    refine State.wr_keeps ?_ _ _
    exact h0

theorem State.blockSoftReset_keeps {s0 s : State} (h : Keeps s0 s) (a_b : Sys2Proof.Machine.Block) (a_i : ℕ) :
    Keeps s0 (State.blockSoftReset s a_b a_i) := by
  unfold State.blockSoftReset
  split
  · extract_lets -merge -useContext -underBinder +onlyGivenNames x1
    have h1 : Keeps s0 x1 := by
      unfold x1
      refine State.zeroRegs_keeps ?_ _ _
      refine State.wr_keeps ?_ _ _
      exact h
    refine Keeps.mk_upd ?_ rfl
    exact h1
  · refine State.setNet_keeps ?_ _
    refine State.setPtp_keeps ?_ _
    exact h
  · refine State.winSoftReset_keeps ?_ 
    exact h
  · refine State.drlSoftReset_keeps ?_ 
    exact h
  · refine State.rfxSoftReset_keeps ?_ 
    exact h
  · refine State.setNet_keeps ?_ _
    refine State.wr_keeps ?_ _ _
    exact h
  · refine State.icuSoftReset_keeps ?_ 
    exact h
  · refine State.icupSoftReset_keeps ?_ _
    exact h
  · refine State.setNet_keeps ?_ _
    exact h
  · refine State.bufSoftReset_keeps ?_ 
    exact h
  · refine State.xbrSoftReset_keeps ?_ 
    exact h
  · refine State.setHost_keeps ?_ _
    exact h
  · refine State.setNet_keeps ?_ _
    refine Keeps.mk_upd ?_ rfl
    exact h
  · refine State.dmaSoftReset_keeps ?_ 
    exact h
  · refine State.fpSoftReset_keeps ?_ _
    exact h
  · refine State.plkSoftReset_keeps ?_ 
    exact h
  · refine State.leaseSoftReset_keeps ?_ 
    exact h
  · refine State.ringSoftReset_keeps ?_ 
    exact h
  · refine State.tileSoftReset_keeps ?_ _
    exact h
  · refine State.chSoftReset_keeps ?_ _
    exact h
  · refine State.canSoftReset_keeps ?_ _
    exact h
  · refine Keeps.mk_upd ?_ rfl
    exact h
  · refine State.zeroRegs_keeps ?_ _ _
    exact h
  · exact h
  · exact h
  · exact h
  · exact h
  · exact h
  · exact h
  · exact h
  · exact h
  · exact h
  · exact h

theorem State.softReset_keeps {s0 s : State} (h : Keeps s0 s) (a_page : ℕ) :
    Keeps s0 (State.softReset s a_page) := by
  unfold State.softReset
  split
  · exact h
  · extract_lets -merge -useContext -underBinder +onlyGivenNames x2
    have h2 : Keeps s0 x2 := by
      unfold x2
      refine State.clearCounters_keeps ?_ _
      refine State.blockSoftReset_keeps ?_ _ _
      exact h
    extract_lets -merge -useContext -underBinder +onlyGivenNames x3
    have h3 : Keeps s0 x3 := by
      unfold x3
      refine State.withRequest_keeps ?_ _ _ (fun y4 h4 => ?_)
      · exact h2
      · extract_lets -merge -useContext -underBinder +onlyGivenNames x5
        have h5 : Keeps s0 x5 := by
          unfold x5
          refine State.wr_keeps ?_ _ _
          exact h4
        refine Keeps.mk_upd ?_ rfl
        exact h5
    extract_lets -merge -useContext -underBinder +onlyGivenNames x6
    have h6 : Keeps s0 x6 := by
      unfold x6
      refine State.wr_keeps ?_ _ _
      refine State.wr_keeps ?_ _ _
      refine State.zeroRegs_keeps ?_ _ _
      exact h3
    refine Keeps.mk_upd ?_ rfl
    exact h6

theorem State.freezeWrite_keeps {s0 s : State} (h : Keeps s0 s) (a_page : ℕ) (a_on : Bool) :
    Keeps s0 (State.freezeWrite s a_page a_on) := by
  unfold State.freezeWrite
  refine Keeps.ite (fun _ => ?_) (fun _ => ?_)
  · refine Keeps.ite (fun _ => ?_) (fun _ => ?_)
    · exact h
    · refine State.setFld_keeps ?_ _ _ _ _
      refine Keeps.mk_upd ?_ rfl
      exact h
  · refine Keeps.ite (fun _ => ?_) (fun _ => ?_)
    · refine State.withRequest_keeps ?_ _ _ (fun y0 h0 => ?_)
      · exact h
      · extract_lets -merge -useContext -underBinder +onlyGivenNames x1
        have h1 : Keeps s0 x1 := by
          unfold x1
          refine State.wr_keeps ?_ _ _
          exact h0
        extract_lets -merge -useContext -underBinder +onlyGivenNames x2
        have h2 : Keeps s0 x2 := by
          unfold x2
          refine Keeps.mk_upd ?_ rfl
          exact h1
        refine State.setFld_keeps ?_ _ _ _ _
        exact h2
    · exact h

theorem State.blockEnable_keeps {s0 s : State} (h : Keeps s0 s) (a_b : Sys2Proof.Machine.Block) (a_i : ℕ) (a_on : Bool) :
    Keeps s0 (State.blockEnable s a_b a_i a_on) := by
  unfold State.blockEnable
  split
  · refine State.fpEnable_keeps ?_ _ _
    exact h
  · refine State.plkEnable_keeps ?_ _
    exact h
  · refine State.leaseEnable_keeps ?_ _
    exact h
  · refine Keeps.ite (fun _ => ?_) (fun _ => ?_)
    · refine State.canStart_keeps ?_ _
      exact h
    · exact h
  · refine Keeps.ite (fun _ => ?_) (fun _ => ?_)
    · refine Keeps.foldl ?_ (fun y5 a5 h5 => ?_)
      · exact h
      · refine State.canStart_keeps ?_ _
        exact h5
    · refine State.serStop_keeps ?_ _
      refine State.engDisable_keeps ?_ _
      exact h
  · refine State.wr_keeps ?_ _ _
    exact h
  · exact h

theorem State.enableWrite_keeps {s0 s : State} (h : Keeps s0 s) (a_page : ℕ) (a_on : Bool) :
    Keeps s0 (State.enableWrite s a_page a_on) := by
  unfold State.enableWrite
  split
  · refine Keeps.ite (fun _ => ?_) (fun _ => ?_)
    · exact h
    · refine State.blockEnable_keeps ?_ _ _ _
      refine State.setFld_keeps ?_ _ _ _ _
      exact h
  · exact h

theorem State.ctrlWrite_keeps {s0 s : State} (h : Keeps s0 s) (a_page : ℕ) (a_v : Sys2Proof.Word) :
    Keeps s0 (State.ctrlWrite s a_page a_v) := by
  unfold State.ctrlWrite
  extract_lets -merge -useContext -underBinder +onlyGivenNames x0
  have h0 : Keeps s0 x0 := by
    unfold x0
    refine Keeps.ite (fun _ => ?_) (fun _ => ?_)
    · refine State.softReset_keeps ?_ _
      exact h
    · exact h
  refine State.enableWrite_keeps ?_ _ _
  refine State.freezeWrite_keeps ?_ _ _
  exact h0

theorem State.timeOp_keeps {s0 s : State} (h : Keeps s0 s) (a_a : Sys2Proof.Agent) (a_arg : BitVec 16) (a_op : ℕ) :
    Keeps s0 (State.timeOp s a_a a_arg a_op) := by
  unfold State.timeOp
  split
  · refine after_keeps (execReadTime_keeps ?_ _) ?_
    · exact h
    · exact h
  · refine after_keeps (execAdjPhase_keeps ?_ _) ?_
    · exact h
    · exact h
  · refine after_keeps (execAdjRate_keeps ?_ _) ?_
    · exact h
    · exact h
  · refine after_keeps (execStepForce_keeps ?_ ) ?_
    · exact h
    · exact h
  · refine after_keeps (execSetTime_keeps ?_ ) ?_
    · exact h
    · exact h
  · refine after_keeps (execSetState_keeps ?_ _ _) ?_
    · exact h
    · exact h

theorem State.winOp_keeps {s0 s : State} (h : Keeps s0 s) (a_arg : BitVec 16) (a_op : ℕ) :
    Keeps s0 (State.winOp s a_arg a_op) := by
  unfold State.winOp
  split
  · refine after_keeps (execLoadTimes_keeps ?_ _) ?_
    · exact h
    · exact h
  · refine after_keeps (execLoadCtrl_keeps ?_ _) ?_
    · exact h
    · exact h
  · refine after_keeps (execWinArm_keeps ?_ _) ?_
    · exact h
    · exact h
  · refine after_keeps (execWinDisarm_keeps ?_ _) ?_
    · exact h
    · exact h
  · refine after_keeps (execReadTimes_keeps ?_ _) ?_
    · exact h
    · exact h
  · refine after_keeps (execReadCtrl_keeps ?_ _) ?_
    · exact h
    · exact h
  · refine after_keeps (execTrigger_keeps ?_ _) ?_
    · exact h
    · exact h

theorem State.drlOp_keeps {s0 s : State} (h : Keeps s0 s) (a_arg : BitVec 16) (a_op : ℕ) :
    Keeps s0 (State.drlOp s a_arg a_op) := by
  unfold State.drlOp
  split
  · refine after_keeps (execDrlLoadTime_keeps ?_ _) ?_
    · exact h
    · exact h
  · refine after_keeps (execDrlLoadAction_keeps ?_ _) ?_
    · exact h
    · exact h
  · refine after_keeps (execDrlArm_keeps ?_ _ _) ?_
    · exact h
    · exact h
  · refine after_keeps (execDrlDisarm_keeps ?_ _) ?_
    · exact h
    · exact h
  · refine after_keeps (execDrlReadTime_keeps ?_ _ _) ?_
    · exact h
    · exact h
  · refine after_keeps (execDrlReadAction_keeps ?_ _ _) ?_
    · exact h
    · exact h
  · refine after_keeps (execDrlReadState_keeps ?_ _ _) ?_
    · exact h
    · exact h
  · refine after_keeps (execDrlClear_keeps ?_ _) ?_
    · exact h
    · exact h

theorem State.rfxOp_keeps {s0 s : State} (h : Keeps s0 s) (a_arg : BitVec 16) (a_op : ℕ) :
    Keeps s0 (State.rfxOp s a_arg a_op) := by
  unfold State.rfxOp
  split
  · refine after_keeps (execLoadTermsA_keeps ?_ _) ?_
    · exact h
    · exact h
  · refine after_keeps (execLoadTermsB_keeps ?_ _) ?_
    · exact h
    · exact h
  · refine after_keeps (execLoadAct_keeps ?_ _) ?_
    · exact h
    · exact h
  · refine after_keeps (execRfxArm_keeps ?_ _ _) ?_
    · exact h
    · exact h
  · refine after_keeps (execRfxDisarm_keeps ?_ _) ?_
    · exact h
    · exact h
  · refine after_keeps (execReadTermsA_keeps ?_ _ _) ?_
    · exact h
    · exact h
  · refine after_keeps (execReadTermsB_keeps ?_ _ _) ?_
    · exact h
    · exact h
  · refine after_keeps (execReadAct_keeps ?_ _ _) ?_
    · exact h
    · exact h
  · refine after_keeps (execRfxClear_keeps ?_ _) ?_
    · exact h
    · exact h

theorem State.sigOp_keeps {s0 s : State} (h : Keeps s0 s) (a_arg : BitVec 16) (a_op : ℕ) :
    Keeps s0 (State.sigOp s a_arg a_op) := by
  unfold State.sigOp
  split
  · refine after_keeps (execLoadPub_keeps ?_ _) ?_
    · exact h
    · exact h
  · refine after_keeps (execSetValue_keeps ?_ _) ?_
    · exact h
    · exact h
  · refine after_keeps (execReadPub_keeps ?_ _) ?_
    · exact h
    · exact h
  · refine after_keeps (execLoadSub_keeps ?_ _) ?_
    · exact h
    · exact h
  · refine after_keeps (execReadSub_keeps ?_ _) ?_
    · exact h
    · exact h
  · refine after_keeps (execReadSubcfg_keeps ?_ _) ?_
    · exact h
    · exact h
  · refine after_keeps (execClearSub_keeps ?_ _) ?_
    · exact h
    · exact h
  · refine after_keeps (execReadPubcfg_keeps ?_ _) ?_
    · exact h
    · exact h

theorem State.secOp_keeps {s0 s : State} (h : Keeps s0 s) (a_arg : BitVec 16) (a_op : ℕ) :
    Keeps s0 (State.secOp s a_arg a_op) := by
  unfold State.secOp
  split
  · refine after_keeps (execRevoke_keeps ?_ _ _) ?_
    · exact h
    · exact h
  · refine after_keeps (execAdvance_keeps ?_ _ _) ?_
    · exact h
    · exact h
  · refine after_keeps (execBlowFuse_keeps ?_ _ _) ?_
    · exact h
    · exact h
  · refine after_keeps (execShaInit_keeps ?_ ) ?_
    · exact h
    · exact h
  · refine after_keeps (execShaUpdate_keeps ?_ _) ?_
    · exact h
    · exact h
  · refine after_keeps (execShaFinal_keeps ?_ ) ?_
    · exact h
    · exact h
  · refine after_keeps (execVerify_keeps ?_ ) ?_
    · exact h
    · exact h

theorem State.ospiOp_keeps {s0 s : State} (h : Keeps s0 s) (a_op : ℕ) :
    Keeps s0 (State.ospiOp s a_op) := by
  unfold State.ospiOp
  split
  · refine after_keeps (execOspiRead_keeps ?_ _) ?_
    · exact h
    · exact h
  · refine after_keeps (execProgram_keeps ?_ _) ?_
    · exact h
    · exact h
  · refine after_keeps (execErase4k_keeps ?_ _) ?_
    · exact h
    · exact h
  · refine after_keeps (execErase64k_keeps ?_ _) ?_
    · exact h
    · exact h
  · refine after_keeps (execReadSfdp_keeps ?_ _) ?_
    · exact h
    · exact h

theorem State.mbxWrite_keeps {s0 s : State} (h : Keeps s0 s) (a_a : Sys2Proof.Agent) (a_page : ℕ) (a_v : Sys2Proof.Word) :
    Keeps s0 (State.mbxWrite s a_a a_page a_v) := by
  unfold State.mbxWrite
  extract_lets -merge -useContext -underBinder +onlyGivenNames x0
  extract_lets -merge -useContext -underBinder +onlyGivenNames x1
  refine Keeps.ite (fun _ => ?_) (fun _ => ?_)
  · refine State.mbxCommand_keeps ?_ _ _ (fun y2 h2 => ?_)
    · exact h
    · refine Keeps.pair2 ?_
      exact h2
  · refine Keeps.ite (fun _ => ?_) (fun _ => ?_)
    · refine State.mbxCommand_keeps ?_ _ _ (fun y3 h3 => ?_)
      · exact h
      · refine Keeps.pair2 ?_
        exact h3
    · refine Keeps.ite (fun _ => ?_) (fun _ => ?_)
      · refine State.timeOp_keeps ?_ _ _ _
        exact h
      · refine Keeps.ite (fun _ => ?_) (fun _ => ?_)
        · refine State.winOp_keeps ?_ _ _
          exact h
        · refine Keeps.ite (fun _ => ?_) (fun _ => ?_)
          · refine State.drlOp_keeps ?_ _ _
            exact h
          · refine Keeps.ite (fun _ => ?_) (fun _ => ?_)
            · refine State.rfxOp_keeps ?_ _ _
              exact h
            · refine Keeps.ite (fun _ => ?_) (fun _ => ?_)
              · refine State.sigOp_keeps ?_ _ _
                exact h
              · refine Keeps.ite (fun _ => ?_) (fun _ => ?_)
                · refine State.secOp_keeps ?_ _ _
                  exact h
                · refine State.ospiOp_keeps ?_ _
                  exact h

theorem State.mbxDataWrite_keeps {s0 s : State} (h : Keeps s0 s) (a_page : ℕ) (a_n : ℕ) (a_v : Sys2Proof.Word) :
    Keeps s0 (State.mbxDataWrite s a_page a_n a_v) := by
  unfold State.mbxDataWrite
  refine Keeps.ite (fun _ => ?_) (fun _ => ?_)
  · refine State.setFld_keeps ?_ _ _ _ _
    exact h
  · refine State.wr_keeps ?_ _ _
    exact h

theorem State.indAddrWrite_keeps {s0 s : State} (h : Keeps s0 s) (a_page : ℕ) (a_v : Sys2Proof.Word) :
    Keeps s0 (State.indAddrWrite s a_page a_v) := by
  unfold State.indAddrWrite
  refine State.wr_keeps ?_ _ _
  exact h

theorem State.indAdvance_keeps {s0 s : State} (h : Keeps s0 s) (a_page : ℕ) :
    Keeps s0 (State.indAdvance s a_page) := by
  unfold State.indAdvance
  refine Keeps.ite (fun _ => ?_) (fun _ => ?_)
  · refine State.setFld_keeps ?_ _ _ _ _
    exact h
  · exact h

theorem State.indPlain_keeps {s0 s : State} (h : Keeps s0 s) (a_page : ℕ) (a_addr : ℕ) (a_v : Sys2Proof.Word) :
    Keeps s0 (State.indPlain s a_page a_addr a_v) := by
  unfold State.indPlain
  extract_lets -merge -useContext -underBinder +onlyGivenNames x0
  extract_lets -merge -useContext -underBinder +onlyGivenNames x1
  refine State.wr_keeps ?_ _ _
  exact h

theorem State.chIndWrite_keeps {s0 s : State} (h : Keeps s0 s) (a_a : Sys2Proof.Agent) (a_c : ℕ) (a_addr : ℕ) (a_v : Sys2Proof.Word) :
    Keeps s0 (State.chIndWrite s a_a a_c a_addr a_v) := by
  unfold State.chIndWrite
  extract_lets -merge -useContext -underBinder +onlyGivenNames x0
  refine State.commandsChanged_keeps ?_ 
  refine State.indPlain_keeps ?_ _ _ _
  exact h

theorem State.canIndWrite_keeps {s0 s : State} (h : Keeps s0 s) (a_n : ℕ) (a_addr : ℕ) (a_v : Sys2Proof.Word) :
    Keeps s0 (State.canIndWrite s a_n a_addr a_v) := by
  unfold State.canIndWrite
  extract_lets -merge -useContext -underBinder +onlyGivenNames x0
  refine Keeps.ite (fun _ => ?_) (fun _ => ?_)
  · refine Keeps.ite (fun _ => ?_) (fun _ => ?_)
    · refine State.canMbWrite_keeps ?_ _ _ _ _
      exact h
    · exact h
  · refine Keeps.ite (fun _ => ?_) (fun _ => ?_)
    · refine Keeps.ite (fun _ => ?_) (fun _ => ?_)
      · exact h
      · refine State.indPlain_keeps ?_ _ _ _
        exact h
    · refine Keeps.ite (fun _ => ?_) (fun _ => ?_)
      · refine Keeps.ite (fun _ => ?_) (fun _ => ?_)
        · exact h
        · refine State.indPlain_keeps ?_ _ _ _
          exact h
      · exact h

theorem State.fpIndWrite_keeps {s0 s : State} (h : Keeps s0 s) (a_n : ℕ) (a_addr : ℕ) (a_v : Sys2Proof.Word) :
    Keeps s0 (State.fpIndWrite s a_n a_addr a_v) := by
  unfold State.fpIndWrite
  refine Keeps.ite (fun _ => ?_) (fun _ => ?_)
  · refine Keeps.ite (fun _ => ?_) (fun _ => ?_)
    · exact h
    · refine State.indPlain_keeps ?_ _ _ _
      exact h
  · extract_lets -merge -useContext -underBinder +onlyGivenNames x0
    have h0 : Keeps s0 x0 := by
      unfold x0
      refine State.indPlain_keeps ?_ _ _ _
      exact h
    refine Keeps.ite (fun _ => ?_) (fun _ => ?_)
    · refine State.linkLeaveUp_keeps ?_ _ _ _
      exact h0
    · exact h0

theorem State.clearInds_keeps {s0 s : State} (h : Keeps s0 s) (a_page : ℕ) (a_addr : ℕ) (a_n : ℕ) :
    Keeps s0 (State.clearInds s a_page a_addr a_n) := by
  unfold State.clearInds
  refine Keeps.foldl ?_ (fun y0 a0 h0 => ?_)
  · refine State.zeroRegs_keeps ?_ _ _
    exact h
  · refine State.clearShown_keeps ?_ _ _
    exact h0

theorem State.indPut_keeps {s0 s : State} (h : Keeps s0 s) (a_a : Sys2Proof.Agent) (a_page : ℕ) (a_addr : ℕ) (a_v : Sys2Proof.Word) :
    Keeps s0 (State.indPut s a_a a_page a_addr a_v) := by
  unfold State.indPut
  split
  · exact h
  · split
    · refine State.chIndWrite_keeps ?_ _ _ _ _
      exact h
    · refine State.canIndWrite_keeps ?_ _ _ _
      exact h
    · refine State.fpIndWrite_keeps ?_ _ _ _
      exact h
    · refine Keeps.ite (fun _ => ?_) (fun _ => ?_)
      · refine Keeps.ite (fun _ => ?_) (fun _ => ?_)
        · refine State.sramSet_keeps ?_ _ _
          exact h
        · exact h
      · refine State.indPlain_keeps ?_ _ _ _
        exact h
    · refine Keeps.ite (fun _ => ?_) (fun _ => ?_)
      · refine State.powCmd_keeps ?_ _
        exact h
      · refine Keeps.ite (fun _ => ?_) (fun _ => ?_)
        · refine Keeps.ite (fun _ => ?_) (fun _ => ?_)
          · refine State.clearInds_keeps ?_ _ _ _
            exact h
          · exact h
        · refine Keeps.ite (fun _ => ?_) (fun _ => ?_)
          · refine State.feedCheck_keeps ?_ _
            refine State.feedCheck_keeps ?_ _
            refine State.indPlain_keeps ?_ _ _ _
            exact h
          · refine State.indPlain_keeps ?_ _ _ _
            exact h
    · refine Keeps.ite (fun _ => ?_) (fun _ => ?_)
      · refine State.clearInds_keeps ?_ _ _ _
        exact h
      · exact h
    · refine State.indPlain_keeps ?_ _ _ _
      exact h

theorem State.indRead_keeps {s0 s : State} (h : Keeps s0 s) (a_page : ℕ) :
    Keeps s0 (State.indRead s a_page).2 := by
  unfold State.indRead
  extract_lets -merge -useContext -underBinder +onlyGivenNames x0
  have h0 : Keeps s0 x0.2 := by
    unfold x0
    refine State.indTake_keeps ?_ _ _
    exact h
  refine Keeps.pair2 ?_
  refine State.indAdvance_keeps ?_ _
  exact h0

theorem State.indWrite_keeps {s0 s : State} (h : Keeps s0 s) (a_a : Sys2Proof.Agent) (a_page : ℕ) (a_v : Sys2Proof.Word) :
    Keeps s0 (State.indWrite s a_a a_page a_v) := by
  unfold State.indWrite
  refine State.indAdvance_keeps ?_ _
  refine State.indPut_keeps ?_ _ _ _ _
  exact h

theorem State.regPlain_keeps {s0 s : State} (h : Keeps s0 s) (a_page : ℕ) (a_off : ℕ) (a_v : Sys2Proof.Word) :
    Keeps s0 (State.regPlain s a_page a_off a_v) := by
  unfold State.regPlain
  extract_lets -merge -useContext -underBinder +onlyGivenNames x0
  extract_lets -merge -useContext -underBinder +onlyGivenNames x1
  refine State.wr_keeps ?_ _ _
  exact h

theorem State.tileWrite_keeps {s0 s : State} (h : Keeps s0 s) (a_t : ℕ) (a_off : ℕ) (a_v : Sys2Proof.Word) :
    Keeps s0 (State.tileWrite s a_t a_off a_v) := by
  unfold State.tileWrite
  split
  · refine State.bankCfgWrite_keeps ?_ _ _
    exact h
  · extract_lets -merge -useContext -underBinder +onlyGivenNames x2
    have h2 : Keeps s0 x2 := by
      unfold x2
      refine State.regPlain_keeps ?_ _ _ _
      exact h
    refine Keeps.ite (fun _ => ?_) (fun _ => ?_)
    · refine State.tileWake_keeps ?_ _
      exact h2
    · exact h2
  · extract_lets -merge -useContext -underBinder +onlyGivenNames x4
    have h4 : Keeps s0 x4 := by
      unfold x4
      refine Keeps.ite (fun _ => ?_) (fun _ => ?_)
      · refine State.clearCounters_keeps ?_ _
        exact h
      · exact h
    refine Keeps.ite (fun _ => ?_) (fun _ => ?_)
    · refine State.setTile_keeps ?_ _ _
      exact h4
    · exact h4
  · refine State.stampCfgWrite_keeps ?_ _ _
    exact h
  · refine State.wr_keeps ?_ _ _
    exact h
  · refine State.wr_keeps ?_ _ _
    exact h
  · refine Keeps.ite (fun _ => ?_) (fun _ => ?_)
    · refine State.grpStart_keeps ?_ 
      exact h
    · exact h
  · refine State.regPlain_keeps ?_ _ _ _
    exact h

theorem State.fifoCmd_keeps {s0 s : State} (h : Keeps s0 s) (a_id : ℕ) (a_v : Sys2Proof.Word) :
    Keeps s0 (State.fifoCmd s a_id a_v) := by
  unfold State.fifoCmd
  extract_lets -merge -useContext -underBinder +onlyGivenNames x0
  have h0 : Keeps s0 x0 := by
    unfold x0
    refine Keeps.ite (fun _ => ?_) (fun _ => ?_)
    · refine State.fifoDropRest_keeps ?_ _
      exact h
    · exact h
  extract_lets -merge -useContext -underBinder +onlyGivenNames x1
  have h1 : Keeps s0 x1 := by
    unfold x1
    refine Keeps.ite (fun _ => ?_) (fun _ => ?_)
    · refine State.fifoFlush_keeps ?_ _
      exact h0
    · exact h0
  refine Keeps.ite (fun _ => ?_) (fun _ => ?_)
  · refine State.setFifo_keeps ?_ _ _
    exact h1
  · exact h1

theorem State.safeCmd_keeps {s0 s : State} (h : Keeps s0 s) (a_c : ℕ) (a_v : Sys2Proof.Word) :
    Keeps s0 (State.safeCmd s a_c a_v) := by
  unfold State.safeCmd
  extract_lets -merge -useContext -underBinder +onlyGivenNames x0
  have h0 : Keeps s0 x0 := by
    unfold x0
    refine Keeps.foldl ?_ (fun y1 a1 h1 => ?_)
    · exact h
    · refine Keeps.ite (fun _ => ?_) (fun _ => ?_)
      · refine State.safeRelease_keeps ?_ _
        exact h1
      · exact h1
  refine Keeps.foldl ?_ (fun y2 a2 h2 => ?_)
  · exact h0
  · refine Keeps.ite (fun _ => ?_) (fun _ => ?_)
    · refine State.safeEnter_keeps ?_ _
      exact h2
    · exact h2

theorem State.ctrCmd_keeps {s0 s : State} (h : Keeps s0 s) (a_c : ℕ) (a_v : Sys2Proof.Word) :
    Keeps s0 (State.ctrCmd s a_c a_v) := by
  unfold State.ctrCmd
  extract_lets -merge -useContext -underBinder +onlyGivenNames x0
  have h0 : Keeps s0 x0 := by
    unfold x0
    refine Keeps.ite (fun _ => ?_) (fun _ => ?_)
    · refine State.ctrCapture_keeps ?_ _
      exact h
    · exact h
  refine Keeps.ite (fun _ => ?_) (fun _ => ?_)
  · refine State.wr_keeps ?_ _ _
    exact h0
  · exact h0

theorem State.engWrite_keeps {s0 s : State} (h : Keeps s0 s) (a_c : ℕ) (a_off : ℕ) (a_v : Sys2Proof.Word) :
    Keeps s0 (State.engWrite s a_c a_off a_v) := by
  unfold State.engWrite
  split
  · refine State.engCfgWrite_keeps ?_ _ _
    exact h
  · refine State.engSegWrite_keeps ?_ _ _
    exact h
  · refine Keeps.ite (fun _ => ?_) (fun _ => ?_)
    · exact h
    · refine State.regPlain_keeps ?_ _ _ _
      exact h
  · refine Keeps.ite (fun _ => ?_) (fun _ => ?_)
    · exact h
    · refine State.regPlain_keeps ?_ _ _ _
      exact h
  · refine State.engCommand_keeps ?_ _ _
    exact h
  · refine State.engOsrWrite_keeps ?_ _ _
    exact h
  · refine State.engXyWrite_keeps ?_ _ _
    exact h
  · refine State.engCntWrite_keeps ?_ _ _
    exact h
  · refine State.engFlagSet_keeps ?_ _ _
    exact h
  · refine State.engFlagClr_keeps ?_ _ _
    exact h
  · refine State.engMarkWrite_keeps ?_ _ _
    exact h
  · refine State.engProgWrite_keeps ?_ _ _
    exact h
  · refine Keeps.ite (fun _ => ?_) (fun _ => ?_)
    · refine State.clearRun_keeps ?_ _ _ _
      exact h
    · exact h
  · refine State.regPlain_keeps ?_ _ _ _
    exact h

theorem State.serialWrite_keeps {s0 s : State} (h : Keeps s0 s) (a_c : ℕ) (a_off : ℕ) (a_v : Sys2Proof.Word) :
    Keeps s0 (State.serialWrite s a_c a_off a_v) := by
  unfold State.serialWrite
  refine Keeps.ite (fun _ => ?_) (fun _ => ?_)
  · refine Keeps.ite (fun _ => ?_) (fun _ => ?_)
    · refine State.i2cBusClear_keeps ?_ _
      exact h
    · exact h
  · refine Keeps.ite (fun _ => ?_) (fun _ => ?_)
    · refine Keeps.ite (fun _ => ?_) (fun _ => ?_)
      · refine State.clearRun_keeps ?_ _ _ _
        exact h
      · exact h
    · refine Keeps.ite (fun _ => ?_) (fun _ => ?_)
      · exact h
      · refine State.regPlain_keeps ?_ _ _ _
        exact h

theorem State.chWrite_keeps {s0 s : State} (h : Keeps s0 s) (a_c : ℕ) (a_off : ℕ) (a_v : Sys2Proof.Word) :
    Keeps s0 (State.chWrite s a_c a_off a_v) := by
  unfold State.chWrite
  refine Keeps.ite (fun _ => ?_) (fun _ => ?_)
  · refine State.engWrite_keeps ?_ _ _ _
    exact h
  · refine Keeps.ite (fun _ => ?_) (fun _ => ?_)
    · refine State.serialWrite_keeps ?_ _ _ _
      exact h
    · split
      · refine Keeps.foldl ?_ (fun y1 a1 h1 => ?_)
        · refine State.funcWrite_keeps ?_ _ _
          exact h
        · refine State.canStart_keeps ?_ _
          exact h1
      · refine State.outWrite_keeps ?_ _ _ _
        exact h
      · refine State.outWrite_keeps ?_ _ _ _
        exact h
      · refine State.safeCmd_keeps ?_ _ _
        exact h
      · refine State.chTxWrite_keeps ?_ _ _
        exact h
      · refine State.regPlain_keeps ?_ _ _ _
        exact h
      · refine State.regPlain_keeps ?_ _ _ _
        exact h
      · refine State.fifoCmd_keeps ?_ _ _
        exact h
      · refine State.fifoCmd_keeps ?_ _ _
        exact h
      · refine State.ctrCmd_keeps ?_ _ _
        exact h
      · refine State.regPlain_keeps ?_ _ _ _
        exact h

theorem State.canWrite_keeps {s0 s : State} (h : Keeps s0 s) (a_n : ℕ) (a_off : ℕ) (a_v : Sys2Proof.Word) :
    Keeps s0 (State.canWrite s a_n a_off a_v) := by
  unfold State.canWrite
  split
  · refine Keeps.ite (fun _ => ?_) (fun _ => ?_)
    · exact h
    · refine State.regPlain_keeps ?_ _ _ _
      exact h
  · refine State.canTxreq_keeps ?_ _ _
    exact h
  · refine State.canTxcancel_keeps ?_ _ _
    exact h
  · refine State.canTxresClr_keeps ?_ _ _
    exact h
  · refine State.canTxWrite_keeps ?_ _ _
    exact h
  · refine Keeps.ite (fun _ => ?_) (fun _ => ?_)
    · refine State.canTxFlush_keeps ?_ _
      exact h
    · exact h
  · refine State.fifoCmd_keeps ?_ _ _
    exact h
  · refine Keeps.ite (fun _ => ?_) (fun _ => ?_)
    · refine State.canRecover_keeps ?_ _
      exact h
    · exact h
  · refine State.regPlain_keeps ?_ _ _ _
    exact h

theorem State.evqWrite_keeps {s0 s : State} (h : Keeps s0 s) (a_off : ℕ) (a_v : Sys2Proof.Word) :
    Keeps s0 (State.evqWrite s a_off a_v) := by
  unfold State.evqWrite
  refine Keeps.ite (fun _ => ?_) (fun _ => ?_)
  · refine State.postCmd_keeps ?_ _
    exact h
  · refine Keeps.ite (fun _ => ?_) (fun _ => ?_)
    · refine State.qCfgWrite_keeps ?_ _ _
      exact h
    · refine Keeps.ite (fun _ => ?_) (fun _ => ?_)
      · refine State.qCiWrite_keeps ?_ _ _
        exact h
      · refine State.regPlain_keeps ?_ _ _ _
        exact h

theorem State.dmaRegWrite_keeps {s0 s : State} (h : Keeps s0 s) (a_off : ℕ) (a_v : Sys2Proof.Word) :
    Keeps s0 (State.dmaRegWrite s a_off a_v) := by
  unfold State.dmaRegWrite
  extract_lets -merge -useContext -underBinder +onlyGivenNames x0
  refine Keeps.ite (fun _ => ?_) (fun _ => ?_)
  · refine State.dcCtrlWrite_keeps ?_ _ _
    exact h
  · refine Keeps.ite (fun _ => ?_) (fun _ => ?_)
    · refine State.regPlain_keeps ?_ _ _ _
      exact h
    · refine State.regPlain_keeps ?_ _ _ _
      exact h

theorem State.hostWrite_keeps {s0 s : State} (h : Keeps s0 s) (a_off : ℕ) (a_v : Sys2Proof.Word) :
    Keeps s0 (State.hostWrite s a_off a_v) := by
  unfold State.hostWrite
  split
  · extract_lets -merge -useContext -underBinder +onlyGivenNames x1
    have h1 : Keeps s0 x1 := by
      unfold x1
      refine State.regPlain_keeps ?_ _ _ _
      exact h
    refine Keeps.ite (fun _ => ?_) (fun _ => ?_)
    · refine State.setHost_keeps ?_ _
      exact h1
    · exact h1
  · refine Keeps.ite (fun _ => ?_) (fun _ => ?_)
    · exact h
    · refine State.regPlain_keeps ?_ _ _ _
      exact h
  · refine State.regPlain_keeps ?_ _ _ _
    exact h

theorem State.xbrWrite_keeps {s0 s : State} (h : Keeps s0 s) (a_off : ℕ) (a_v : Sys2Proof.Word) :
    Keeps s0 (State.xbrWrite s a_off a_v) := by
  unfold State.xbrWrite
  split
  · refine State.wr_keeps ?_ _ _
    exact h
  · refine State.wr_keeps ?_ _ _
    exact h
  · refine State.wr_keeps ?_ _ _
    exact h
  · refine State.wr_keeps ?_ _ _
    exact h
  · extract_lets -merge -useContext -underBinder +onlyGivenNames x5
    have h5 : Keeps s0 x5 := by
      unfold x5
      refine Keeps.ite (fun _ => ?_) (fun _ => ?_)
      · refine State.clearCounters_keeps ?_ _
        exact h
      · exact h
    refine Keeps.ite (fun _ => ?_) (fun _ => ?_)
    · refine State.setXbr_keeps ?_ _
      exact h5
    · exact h5
  · refine State.regPlain_keeps ?_ _ _ _
    exact h

theorem State.timeWrite_keeps {s0 s : State} (h : Keeps s0 s) (a_off : ℕ) (a_v : Sys2Proof.Word) :
    Keeps s0 (State.timeWrite s a_off a_v) := by
  unfold State.timeWrite
  refine Keeps.ite (fun _ => ?_) (fun _ => ?_)
  · refine State.wr_keeps ?_ _ _
    exact h
  · refine State.checkHoldLimit_keeps ?_ 
    refine State.regPlain_keeps ?_ _ _ _
    exact h

theorem State.leaseWrite_keeps {s0 s : State} (h : Keeps s0 s) (a_off : ℕ) (a_v : Sys2Proof.Word) :
    Keeps s0 (State.leaseWrite s a_off a_v) := by
  unfold State.leaseWrite
  split
  · refine Keeps.ite (fun _ => ?_) (fun _ => ?_)
    · exact h
    · refine State.regPlain_keeps ?_ _ _ _
      exact h
  · refine after_keeps (execTimingWrite_keeps ?_ _) ?_
    · exact h
    · exact h
  · refine after_keeps (execFaultClr_keeps ?_ _) ?_
    · exact h
    · exact h
  · refine after_keeps (execFaultSet_keeps ?_ _) ?_
    · exact h
    · exact h
  · refine State.commandsChanged_keeps ?_ 
    refine State.regPlain_keeps ?_ _ _ _
    exact h

theorem State.ringWrite_keeps {s0 s : State} (h : Keeps s0 s) (a_off : ℕ) (a_v : Sys2Proof.Word) :
    Keeps s0 (State.ringWrite s a_off a_v) := by
  unfold State.ringWrite
  split
  · refine State.idWrite_keeps ?_ _ _
    exact h
  · refine State.idWrite_keeps ?_ _ _
    exact h
  · extract_lets -merge -useContext -underBinder +onlyGivenNames x3
    refine State.regPlain_keeps ?_ _ _ _
    exact h
  · refine State.regPlain_keeps ?_ _ _ _
    exact h

theorem State.fpWrite_keeps {s0 s : State} (h : Keeps s0 s) (a_n : ℕ) (a_off : ℕ) (a_v : Sys2Proof.Word) :
    Keeps s0 (State.fpWrite s a_n a_off a_v) := by
  unfold State.fpWrite
  split
  · refine State.regPlain_keeps ?_ _ _ _
    exact h
  · refine Keeps.ite (fun _ => ?_) (fun _ => ?_)
    · refine State.clearRun_keeps ?_ _ _ _
      exact h
    · exact h
  · refine State.regPlain_keeps ?_ _ _ _
    exact h

theorem State.ptpWrite_keeps {s0 s : State} (h : Keeps s0 s) (a_a : Sys2Proof.Agent) (a_off : ℕ) (a_v : Sys2Proof.Word) :
    Keeps s0 (State.ptpWrite s a_a a_off a_v) := by
  unfold State.ptpWrite
  refine Keeps.ite (fun _ => ?_) (fun _ => ?_)
  · refine Keeps.ite (fun _ => ?_) (fun _ => ?_)
    · exact h
    · extract_lets -merge -useContext -underBinder +onlyGivenNames x0
      refine State.wrShown_keeps ?_ _ _ _
      exact h
  · refine State.regPlain_keeps ?_ _ _ _
    exact h

theorem State.icuWrite_keeps {s0 s : State} (h : Keeps s0 s) (a_a : Sys2Proof.Agent) (a_off : ℕ) (a_v : Sys2Proof.Word) :
    Keeps s0 (State.icuWrite s a_a a_off a_v) := by
  unfold State.icuWrite
  split
  · refine State.icuSwset_keeps ?_ _ _
    exact h
  · refine State.icuThreshold_keeps ?_ _ _ _
    exact h
  · refine State.icuComplete_keeps ?_ _ _ _
    exact h
  · refine Keeps.ite (fun _ => ?_) (fun _ => ?_)
    · refine State.srcCfgWrite_keeps ?_ _ _ _
      exact h
    · refine State.regPlain_keeps ?_ _ _ _
      exact h

theorem State.icupWrite_keeps {s0 s : State} (h : Keeps s0 s) (a_t : ℕ) (a_a : Sys2Proof.Agent) (a_off : ℕ) (a_v : Sys2Proof.Word) :
    Keeps s0 (State.icupWrite s a_t a_a a_off a_v) := by
  unfold State.icupWrite
  split
  · refine State.icuThreshold_keeps ?_ _ _ _
    exact h
  · refine State.icuComplete_keeps ?_ _ _ _
    exact h
  · refine State.privSwset_keeps ?_ _ _ _
    exact h
  · refine State.ipi_keeps ?_ _ _ _
    exact h
  · refine Keeps.ite (fun _ => ?_) (fun _ => ?_)
    · refine State.tmrWrite_keeps ?_ _ _ _ _
      exact h
    · refine Keeps.ite (fun _ => ?_) (fun _ => ?_)
      · refine State.privCfgWrite_keeps ?_ _ _ _ _
        exact h
      · refine State.regPlain_keeps ?_ _ _ _
        exact h

theorem State.bufWrite_keeps {s0 s : State} (h : Keeps s0 s) (a_off : ℕ) (a_v : Sys2Proof.Word) :
    Keeps s0 (State.bufWrite s a_off a_v) := by
  unfold State.bufWrite
  split
  · refine after_keeps (execBufMarksWrite_keeps ?_ _ _) ?_
    · exact h
    · exact h
  · refine after_keeps (execBufMarksWrite_keeps ?_ _ _) ?_
    · exact h
    · exact h
  · refine after_keeps (execStoreCfgWrite_keeps ?_ _ _) ?_
    · exact h
    · exact h
  · refine after_keeps (execStoreCfgWrite_keeps ?_ _ _) ?_
    · exact h
    · exact h
  · refine State.regPlain_keeps ?_ _ _ _
    exact h

theorem State.stwWrite_keeps {s0 s : State} (h : Keeps s0 s) (a_off : ℕ) (a_v : Sys2Proof.Word) :
    Keeps s0 (State.stwWrite s a_off a_v) := by
  unfold State.stwWrite
  refine Keeps.ite (fun _ => ?_) (fun _ => ?_)
  · extract_lets -merge -useContext -underBinder +onlyGivenNames x0
    have h0 : Keeps s0 x0 := by
      unfold x0
      refine Keeps.ite (fun _ => ?_) (fun _ => ?_)
      · exact h
      · refine State.coreReset_keeps ?_ _
        exact h
    refine Keeps.ite (fun _ => ?_) (fun _ => ?_)
    · exact h0
    · refine State.coreRun_keeps ?_ _
      exact h0
  · refine Keeps.ite (fun _ => ?_) (fun _ => ?_)
    · refine State.wdtCfgWrite_keeps ?_ _ _
      exact h
    · refine State.regPlain_keeps ?_ _ _ _
      exact h

theorem State.bootWrite_keeps {s0 s : State} (h : Keeps s0 s) (a_off : ℕ) (a_v : Sys2Proof.Word) :
    Keeps s0 (State.bootWrite s a_off a_v) := by
  unfold State.bootWrite
  split
  · extract_lets -merge -useContext -underBinder +onlyGivenNames x1
    have h1 : Keeps s0 x1 := by
      unfold x1
      refine Keeps.ite (fun _ => ?_) (fun _ => ?_)
      · refine after_keeps (execBootCommitField_keeps ?_ ) ?_
        · exact h
        · exact h
      · exact h
    refine Keeps.ite (fun _ => ?_) (fun _ => ?_)
    · refine after_keeps (execBootCommitKeeper_keeps ?_ ) ?_
      · exact h1
      · exact h1
    · exact h1
  · refine Keeps.ite (fun _ => ?_) (fun _ => ?_)
    · refine after_keeps (execBootMigrateCommit_keeps ?_ ) ?_
      · exact h
      · exact h
    · exact h
  · refine State.regPlain_keeps ?_ _ _ _
    exact h

theorem State.regBlockWrite_keeps {s0 s : State} (h : Keeps s0 s) (a_a : Sys2Proof.Agent) (a_b : Sys2Proof.Machine.Block) (a_i : ℕ) (a_page : ℕ) (a_off : ℕ) (a_v : Sys2Proof.Word) :
    Keeps s0 (State.regBlockWrite s a_a a_b a_i a_page a_off a_v) := by
  unfold State.regBlockWrite
  split
  · refine State.tileWrite_keeps ?_ _ _ _
    exact h
  · refine State.chWrite_keeps ?_ _ _ _
    exact h
  · refine State.canWrite_keeps ?_ _ _ _
    exact h
  · refine State.evqWrite_keeps ?_ _ _
    exact h
  · refine State.dmaRegWrite_keeps ?_ _ _
    exact h
  · refine State.hostWrite_keeps ?_ _ _
    exact h
  · refine State.xbrWrite_keeps ?_ _ _
    exact h
  · refine State.leaseWrite_keeps ?_ _ _
    exact h
  · refine State.ringWrite_keeps ?_ _ _
    exact h
  · refine State.fpWrite_keeps ?_ _ _ _
    exact h
  · refine Keeps.ite (fun _ => ?_) (fun _ => ?_)
    · exact h
    · refine State.regPlain_keeps ?_ _ _ _
      exact h
  · refine State.ptpWrite_keeps ?_ _ _ _
    exact h
  · refine State.icuWrite_keeps ?_ _ _ _
    exact h
  · refine State.icupWrite_keeps ?_ _ _ _ _
    exact h
  · refine State.bufWrite_keeps ?_ _ _
    exact h
  · refine State.stwWrite_keeps ?_ _ _
    exact h
  · refine State.bootWrite_keeps ?_ _ _
    exact h
  · refine Keeps.ite (fun _ => ?_) (fun _ => ?_)
    · exact h
    · refine State.regPlain_keeps ?_ _ _ _
      exact h
  · refine Keeps.ite (fun _ => ?_) (fun _ => ?_)
    · refine State.protWrite_keeps ?_ _ _ _
      exact h
    · refine State.regPlain_keeps ?_ _ _ _
      exact h
  · refine Keeps.ite (fun _ => ?_) (fun _ => ?_)
    · refine State.stateReq_keeps ?_ _ _
      exact h
    · refine State.regPlain_keeps ?_ _ _ _
      exact h
  · refine Keeps.ite (fun _ => ?_) (fun _ => ?_)
    · refine State.rstCmd_keeps ?_ _ _
      exact h
    · exact h
  · refine Keeps.ite (fun _ => ?_) (fun _ => ?_)
    · refine State.swfWrite_keeps ?_ _
      exact h
    · refine Keeps.ite (fun _ => ?_) (fun _ => ?_)
      · refine State.swfWrite_keeps ?_ _
        exact h
      · refine State.regPlain_keeps ?_ _ _ _
        exact h
  · refine State.timeWrite_keeps ?_ _ _
    exact h
  · refine State.railsUpCheck_keeps ?_ 
    refine State.railTrack_keeps ?_ 
    refine State.regPlain_keeps ?_ _ _ _
    exact h
  · refine State.regPlain_keeps ?_ _ _ _
    exact h
  · refine State.regPlain_keeps ?_ _ _ _
    exact h
  · refine State.regPlain_keeps ?_ _ _ _
    exact h
  · refine State.regPlain_keeps ?_ _ _ _
    exact h
  · refine State.regPlain_keeps ?_ _ _ _
    exact h
  · refine State.regPlain_keeps ?_ _ _ _
    exact h
  · refine State.regPlain_keeps ?_ _ _ _
    exact h
  · refine State.regPlain_keeps ?_ _ _ _
    exact h
  · refine State.regPlain_keeps ?_ _ _ _
    exact h

theorem State.pageWrite_keeps {s0 s : State} (h : Keeps s0 s) (a_a : Sys2Proof.Agent) (a_page : ℕ) (a_off : ℕ) (a_v : Sys2Proof.Word) :
    Keeps s0 (State.pageWrite s a_a a_page a_off a_v) := by
  unfold State.pageWrite
  split
  · exact h
  · extract_lets -merge -useContext -underBinder +onlyGivenNames x2
    have h2 : Keeps s0 x2 := by
      unfold x2
      refine Keeps.ite (fun _ => ?_) (fun _ => ?_)
      · refine State.tileWake_keeps ?_ _
        exact h
      · refine Keeps.ite (fun _ => ?_) (fun _ => ?_)
        · refine State.tileWake_keeps ?_ _
          exact h
        · exact h
    refine Keeps.ite (fun _ => ?_) (fun _ => ?_)
    · refine State.ctrlWrite_keeps ?_ _ _
      exact h2
    · refine Keeps.ite (fun _ => ?_) (fun _ => ?_)
      · refine State.withRequest_keeps ?_ _ _ (fun y3 h3 => ?_)
        · exact h2
        · refine State.regPlain_keeps ?_ _ _ _
          exact h3
      · refine Keeps.ite (fun _ => ?_) (fun _ => ?_)
        · refine State.withHostRequest_keeps ?_ _ (fun y4 h4 => ?_)
          · exact h2
          · refine State.regPlain_keeps ?_ _ _ _
            exact h4
        · refine Keeps.ite (fun _ => ?_) (fun _ => ?_)
          · refine Keeps.ite (fun _ => ?_) (fun _ => ?_)
            · refine State.indAddrWrite_keeps ?_ _ _
              exact h2
            · exact h2
          · refine Keeps.ite (fun _ => ?_) (fun _ => ?_)
            · refine Keeps.ite (fun _ => ?_) (fun _ => ?_)
              · refine State.mbxWrite_keeps ?_ _ _ _
                exact h2
              · exact h2
            · refine Keeps.ite (fun _ => ?_) (fun _ => ?_)
              · refine Keeps.ite (fun _ => ?_) (fun _ => ?_)
                · refine State.mbxDataWrite_keeps ?_ _ _ _
                  exact h2
                · exact h2
              · refine Keeps.ite (fun _ => ?_) (fun _ => ?_)
                · exact h2
                · refine Keeps.ite (fun _ => ?_) (fun _ => ?_)
                  · refine Keeps.ite (fun _ => ?_) (fun _ => ?_)
                    · refine State.indWrite_keeps ?_ _ _ _
                      exact h2
                    · exact h2
                  · refine Keeps.ite (fun _ => ?_) (fun _ => ?_)
                    · exact h2
                    · refine Keeps.ite (fun _ => ?_) (fun _ => ?_)
                      · refine Keeps.ite (fun _ => ?_) (fun _ => ?_)
                        · refine State.clearCounters_keeps ?_ _
                          exact h2
                        · exact h2
                      · refine State.regBlockWrite_keeps ?_ _ _ _ _ _ _
                        exact h2

theorem State.pageRead_keeps {s0 s : State} (h : Keeps s0 s) (a_a : Sys2Proof.Agent) (a_page : ℕ) (a_off : ℕ) :
    Keeps s0 (State.pageRead s a_a a_page a_off).2 := by
  unfold State.pageRead
  split
  · refine Keeps.pair2 ?_
    exact h
  · extract_lets -merge -useContext -underBinder +onlyGivenNames x2
    have h2 : Keeps s0 x2 := by
      unfold x2
      refine Keeps.ite (fun _ => ?_) (fun _ => ?_)
      · refine State.tileWake_keeps ?_ _
        exact h
      · refine Keeps.ite (fun _ => ?_) (fun _ => ?_)
        · refine State.tileWake_keeps ?_ _
          exact h
        · exact h
    refine Keeps.ite2 (fun _ => ?_) (fun _ => ?_)
    · refine Keeps.ite2 (fun _ => ?_) (fun _ => ?_)
      · refine State.indRead_keeps ?_ _
        exact h2
      · refine Keeps.pair2 ?_
        exact h2
    · refine Keeps.ite2 (fun _ => ?_) (fun _ => ?_)
      · split
        · refine State.stampRead_keeps ?_ _
          exact h2
        · refine State.rxDataRead_keeps ?_ _
          exact h2
        · refine State.rxDataRead_keeps ?_ _
          exact h2
        · refine State.msgRead_keeps ?_ 
          exact h2
        · refine State.icuClaim_keeps ?_ _ _
          exact h2
        · refine State.icuClaim_keeps ?_ _ _
          exact h2
        · refine Keeps.pair2 ?_
          exact h2
      · refine Keeps.ite2 (fun _ => ?_) (fun _ => ?_)
        · refine Keeps.pair2 ?_
          exact h2
        · refine Keeps.pair2 ?_
          exact h2

theorem State.deny_keeps {s0 s : State} (h : Keeps s0 s) (a_o : Sys2Proof.Machine.Origin) (a_write : Bool) (a_addr : ℕ) :
    Keeps s0 (State.deny s a_o a_write a_addr) := by
  unfold State.deny
  extract_lets -merge -useContext -underBinder +onlyGivenNames x0
  have h0 : Keeps s0 x0 := by
    unfold x0
    refine State.bump_keeps ?_ _
    exact h
  extract_lets -merge -useContext -underBinder +onlyGivenNames x1
  have h1 : Keeps s0 x1 := by
    unfold x1
    refine State.wr_keeps ?_ _ _
    refine State.wr_keeps ?_ _ _
    exact h0
  refine State.gather_keeps ?_ _ _
  refine State.raise_keeps ?_ _ _
  exact h1

theorem State.turnAway_keeps {s0 s : State} (h : Keeps s0 s) (a_o : Sys2Proof.Machine.Origin) (a_write : Bool) (a_addr : ℕ) (a_st : ℕ) :
    Keeps s0 (State.turnAway s a_o a_write a_addr a_st) := by
  unfold State.turnAway
  refine Keeps.ite (fun _ => ?_) (fun _ => ?_)
  · refine State.deny_keeps ?_ _ _ _
    exact h
  · exact h

theorem State.memoryWakes_keeps {s0 s : State} (h : Keeps s0 s)  :
    Keeps s0 (State.memoryWakes s) := by
  unfold State.memoryWakes
  refine Keeps.ite (fun _ => ?_) (fun _ => ?_)
  · refine State.setPower_keeps ?_ _
    exact h
  · exact h

theorem State.pageWords_keeps {s0 s : State} (h : Keeps s0 s) (a : Agent) (page off n : Nat) : Keeps s0 (s.pageWords a page off n).2 := by
  induction n generalizing s off with
  | zero => exact h
  | succ n ih => exact ih (State.pageRead_keeps h a page off) (off + 4)

theorem State.busRead_keeps {s0 s : State} (h : Keeps s0 s) (a_o : Sys2Proof.Machine.Origin) (a_addr : ℕ) (a_n : ℕ) :
    Keeps s0 (State.busRead s a_o a_addr a_n).2.2 := by
  unfold State.busRead
  split
  · refine Keeps.pair22 ?_
    refine Keeps.pair2 ?_
    refine State.turnAway_keeps ?_ _ _ _ _
    exact h
  · refine Keeps.ite22 (fun _ => ?_) (fun _ => ?_)
    · extract_lets -merge -useContext -underBinder +onlyGivenNames x2
      refine Keeps.ite22 (fun _ => ?_) (fun _ => ?_)
      · extract_lets -merge -useContext -underBinder +onlyGivenNames x3
        have h3 : Keeps s0 x3.2 := by
          unfold x3
          refine State.pageWords_keeps ?_ _ _ _ _
          exact h
        refine Keeps.pair22 ?_
        refine Keeps.pair2 ?_
        exact h3
      · refine Keeps.pair22 ?_
        refine Keeps.pair2 ?_
        exact h
    · refine Keeps.ite22 (fun _ => ?_) (fun _ => ?_)
      · refine Keeps.pair22 ?_
        refine Keeps.pair2 ?_
        exact h
      · refine Keeps.pair22 ?_
        refine Keeps.pair2 ?_
        refine State.memoryWakes_keeps ?_ 
        exact h

theorem State.busWrite_keeps {s0 s : State} (h : Keeps s0 s) (a_o : Sys2Proof.Machine.Origin) (a_addr : ℕ) (a_data : List Sys2Proof.Byte) :
    Keeps s0 (State.busWrite s a_o a_addr a_data).2 := by
  unfold State.busWrite
  extract_lets -merge -useContext -underBinder +onlyGivenNames x0
  split
  · refine Keeps.pair2 ?_
    refine State.turnAway_keeps ?_ _ _ _ _
    exact h
  · refine Keeps.ite2 (fun _ => ?_) (fun _ => ?_)
    · refine Keeps.ite2 (fun _ => ?_) (fun _ => ?_)
      · refine Keeps.pair2 ?_
        refine State.pageWrite_keeps ?_ _ _ _ _
        exact h
      · refine Keeps.pair2 ?_
        exact h
    · refine Keeps.ite2 (fun _ => ?_) (fun _ => ?_)
      · refine Keeps.pair2 ?_
        exact h
      · refine Keeps.pair2 ?_
        refine State.memPut_keeps ?_ _ _
        refine State.memoryWakes_keeps ?_ 
        exact h

theorem State.localAnswer_keeps {s0 s : State} (h : Keeps s0 s) (a_a : Sys2Proof.Agent) (a_addr : ℕ) (a_status : ℕ) (a_data : List Sys2Proof.Byte) :
    Keeps s0 (State.localAnswer s a_a a_addr a_status a_data) := by
  unfold State.localAnswer
  extract_lets -merge -useContext -underBinder +onlyGivenNames x0
  have h0 : Keeps s0 x0 := by
    unfold x0
    refine Keeps.mk_upd ?_ rfl
    exact h
  refine Keeps.ite (fun _ => ?_) (fun _ => ?_)
  · exact h0
  · split
    · refine State.coreFault_keeps ?_ _ _ _ _
      exact h0
    · refine State.coreFault_keeps ?_ _ _ _ _
      exact h0
    · exact h0

theorem State.setWaiting_keeps {s0 s : State} (h : Keeps s0 s) (a_page : ℕ) (a_l : List Sys2Proof.Machine.IndAccess) :
    Keeps s0 (State.setWaiting s a_page a_l) := by
  unfold State.setWaiting
  refine Keeps.mk_upd ?_ rfl
  exact h

theorem State.indQueue_keeps {s0 s : State} (h : Keeps s0 s) (a_page : ℕ) (a_who : Sys2Proof.Machine.AccWho) (a_data : Option Sys2Proof.Word) :
    Keeps s0 (State.indQueue s a_page a_who a_data) := by
  unfold State.indQueue
  refine State.setWaiting_keeps ?_ _ _
  exact h

theorem State.stall_keeps {s0 s : State} (h : Keeps s0 s) (a_t : ℕ) (a_x : Sys2Proof.Machine.Stall) :
    Keeps s0 (State.stall s a_t a_x) := by
  unfold State.stall
  extract_lets -merge -useContext -underBinder +onlyGivenNames x0
  have h0 : Keeps s0 x0 := by
    unfold x0
    refine State.tileWake_keeps ?_ _
    exact h
  refine Keeps.mk_upd ?_ rfl
  exact h0

theorem State.writeNow_keeps {s0 s : State} (h : Keeps s0 s) (a_a : Sys2Proof.Agent) (a_addr : ℕ) (a_data : List Sys2Proof.Byte) :
    Keeps s0 (State.writeNow s a_a a_addr a_data) := by
  unfold State.writeNow
  extract_lets -merge -useContext -underBinder +onlyGivenNames x0
  have h0 : Keeps s0 x0.2 := by
    unfold x0
    refine State.busWrite_keeps ?_ _ _ _
    exact h
  refine State.localAnswer_keeps ?_ _ _ _ _
  exact h0

theorem State.readNow_keeps {s0 s : State} (h : Keeps s0 s) (a_a : Sys2Proof.Agent) (a_addr : ℕ) (a_n : ℕ) :
    Keeps s0 (State.readNow s a_a a_addr a_n) := by
  unfold State.readNow
  extract_lets -merge -useContext -underBinder +onlyGivenNames x0
  have h0 : Keeps s0 x0.2.2 := by
    unfold x0
    refine State.busRead_keeps ?_ _ _ _
    exact h
  refine State.localAnswer_keeps ?_ _ _ _ _
  exact h0

theorem State.agentWrite_keeps {s0 s : State} (h : Keeps s0 s) (a_a : Sys2Proof.Agent) (a_addr : ℕ) (a_data : List Sys2Proof.Byte) :
    Keeps s0 (State.agentWrite s a_a a_addr a_data) := by
  unfold State.agentWrite
  refine Keeps.ite (fun _ => ?_) (fun _ => ?_)
  · split
    · refine State.stall_keeps ?_ _ _
      exact h
    · refine Keeps.ite (fun _ => ?_) (fun _ => ?_)
      · refine State.writeNow_keeps ?_ _ _ _
        exact h
      · refine State.indQueue_keeps ?_ _ _ _
        exact h
    · refine State.writeNow_keeps ?_ _ _ _
      exact h
  · refine State.writeNow_keeps ?_ _ _ _
    exact h

theorem State.agentRead_keeps {s0 s : State} (h : Keeps s0 s) (a_a : Sys2Proof.Agent) (a_addr : ℕ) (a_n : ℕ) :
    Keeps s0 (State.agentRead s a_a a_addr a_n) := by
  unfold State.agentRead
  refine Keeps.ite (fun _ => ?_) (fun _ => ?_)
  · split
    · refine State.stall_keeps ?_ _ _
      exact h
    · refine State.indQueue_keeps ?_ _ _ _
      exact h
    · refine State.readNow_keeps ?_ _ _ _
      exact h
  · refine State.readNow_keeps ?_ _ _ _
    exact h

theorem State.agentReg_keeps {s0 s : State} (h : Keeps s0 s) (a_a : Sys2Proof.Agent) (a_page : ℕ) (a_off : ℕ) (a_v : Sys2Proof.Word) :
    Keeps s0 (State.agentReg s a_a a_page a_off a_v) := by
  unfold State.agentReg
  refine State.agentWrite_keeps ?_ _ _ _
  exact h

theorem State.windowWrite_keeps {s0 s : State} (h : Keeps s0 s) (a_n : ℕ) (a_w : ℕ) (a_base : Bool) (a_v : Sys2Proof.Word) :
    Keeps s0 (State.windowWrite s a_n a_w a_base a_v) := by
  unfold State.windowWrite
  refine State.setCore_keeps ?_ _ _
  exact h

theorem execRegisterWrite_keeps {s0 s : State} (h : Keeps s0 s) (a_t : Sys2Proof.RegTarget) :
    Answers s0 (execRegisterWrite a_t s) := by
  refine ⟨_, rfl, ?_⟩
  split
  · refine State.agentWrite_keeps ?_ _ _ _
    exact h
  · refine State.windowWrite_keeps ?_ _ _ _ _
    exact h

theorem execMbxNop_keeps {s0 s : State} (h : Keeps s0 s) (a_a : Sys2Proof.Agent) (a_page : Fin 256) :
    Answers s0 (execMbxNop a_a a_page s) := by
  refine ⟨_, rfl, ?_⟩
  refine State.agentReg_keeps ?_ _ _ _ _
  exact h

theorem execMbxUnknownOp_keeps {s0 s : State} (h : Keeps s0 s) (a_a : Sys2Proof.Agent) (a_page : Fin 256) (a_op : Sys2Proof.Byte) (a_arg : BitVec 16) :
    Answers s0 (execMbxUnknownOp a_a a_page a_op a_arg s) := by
  refine ⟨_, rfl, ?_⟩
  refine Keeps.ite (fun _ => ?_) (fun _ => ?_)
  · refine State.agentReg_keeps ?_ _ _ _ _
    exact h
  · exact h

theorem execMbxWriteWhileBusy_keeps {s0 s : State} (h : Keeps s0 s) (a_a : Sys2Proof.Agent) (a_page : Fin 256) (a_n : Fin 5) (a_v : Sys2Proof.Word) :
    Answers s0 (execMbxWriteWhileBusy a_a a_page a_n a_v s) := by
  refine ⟨_, rfl, ?_⟩
  refine Keeps.ite (fun _ => ?_) (fun _ => ?_)
  · refine State.agentReg_keeps ?_ _ _ _ _
    exact h
  · exact h

theorem execMbxComplete_keeps {s0 s : State} (h : Keeps s0 s) (a_page : Fin 256) :
    Answers s0 (execMbxComplete a_page s) := by
  refine ⟨_, rfl, ?_⟩
  extract_lets -merge -useContext -underBinder +onlyGivenNames x0
  split
  · exact h
  · extract_lets -merge -useContext -underBinder +onlyGivenNames x3
    have h3 : Keeps s0 x3 := by
      unfold x3
      refine State.mbxResult_keeps ?_ _ _ _
      refine State.mbxResult_keeps ?_ _ _ _
      refine State.mbxResult_keeps ?_ _ _ _
      refine State.mbxResult_keeps ?_ _ _ _
      exact h
    extract_lets -merge -useContext -underBinder +onlyGivenNames x4
    have h4 : Keeps s0 x4 := by
      unfold x4
      refine State.wr_keeps ?_ _ _
      exact h3
    extract_lets -merge -useContext -underBinder +onlyGivenNames x5
    have h5 : Keeps s0 x5 := by
      unfold x5
      refine Keeps.mk_upd ?_ rfl
      exact h4
    refine Keeps.ite (fun _ => ?_) (fun _ => ?_)
    · refine State.raise_keeps ?_ _ _
      exact h5
    · exact h5

theorem execIndDataRead_keeps {s0 s : State} (h : Keeps s0 s) (a_a : Sys2Proof.Agent) (a_page : Fin 256) :
    Answers s0 (execIndDataRead a_a a_page s) := by
  refine ⟨_, rfl, ?_⟩
  refine State.agentRead_keeps ?_ _ _ _
  exact h

theorem execIndDataWrite_keeps {s0 s : State} (h : Keeps s0 s) (a_a : Sys2Proof.Agent) (a_page : Fin 256) (a_v : Sys2Proof.Word) :
    Answers s0 (execIndDataWrite a_a a_page a_v s) := by
  refine ⟨_, rfl, ?_⟩
  refine State.agentReg_keeps ?_ _ _ _ _
  exact h

theorem execIndAddrWrite_keeps {s0 s : State} (h : Keeps s0 s) (a_a : Sys2Proof.Agent) (a_page : Fin 256) (a_v : Sys2Proof.Word) :
    Answers s0 (execIndAddrWrite a_a a_page a_v s) := by
  refine ⟨_, rfl, ?_⟩
  refine State.agentReg_keeps ?_ _ _ _ _
  exact h

theorem execSoftReset_keeps {s0 s : State} (h : Keeps s0 s) (a_a : Sys2Proof.Agent) (a_page : Fin 256) :
    Answers s0 (execSoftReset a_a a_page s) := by
  refine ⟨_, rfl, ?_⟩
  refine State.agentReg_keeps ?_ _ _ _ _
  exact h

theorem execFreezeWrite_keeps {s0 s : State} (h : Keeps s0 s) (a_a : Sys2Proof.Agent) (a_page : Fin 256) (a_on : Bool) :
    Answers s0 (execFreezeWrite a_a a_page a_on s) := by
  refine ⟨_, rfl, ?_⟩
  refine State.agentReg_keeps ?_ _ _ _ _
  exact h

theorem execEnableWrite_keeps {s0 s : State} (h : Keeps s0 s) (a_a : Sys2Proof.Agent) (a_page : Fin 256) (a_on : Bool) :
    Answers s0 (execEnableWrite a_a a_page a_on s) := by
  refine ⟨_, rfl, ?_⟩
  refine State.agentReg_keeps ?_ _ _ _ _
  exact h

theorem execIrqPendWrite_keeps {s0 s : State} (h : Keeps s0 s) (a_a : Sys2Proof.Agent) (a_page : Fin 256) (a_v : Sys2Proof.Word) (a_edges : Sys2Proof.Word) :
    Answers s0 (execIrqPendWrite a_a a_page a_v a_edges s) := by
  refine ⟨_, rfl, ?_⟩
  extract_lets -merge -useContext -underBinder +onlyGivenNames x0
  extract_lets -merge -useContext -underBinder +onlyGivenNames x1
  have h1 : Keeps s0 x1 := by
    unfold x1
    refine State.agentReg_keeps ?_ _ _ _ _
    exact h
  refine Keeps.foldl ?_ (fun y2 a2 h2 => ?_)
  · exact h1
  · refine Keeps.ite (fun _ => ?_) (fun _ => ?_)
    · refine State.raise_keeps ?_ _ _
      exact h2
    · exact h2

theorem execCounterClear_keeps {s0 s : State} (h : Keeps s0 s) (a_a : Sys2Proof.Agent) (a_page : Fin 256) :
    Answers s0 (execCounterClear a_a a_page s) := by
  refine ⟨_, rfl, ?_⟩
  extract_lets -merge -useContext -underBinder +onlyGivenNames x0
  split
  · refine State.agentReg_keeps ?_ _ _ _ _
    exact h
  · exact h

theorem execQualFailRepost_keeps {s0 s : State} (h : Keeps s0 s) (a_r : Sys2Proof.Spaced) :
    Answers s0 (execQualFailRepost a_r s) := by
  refine ⟨_, rfl, ?_⟩
  split
  · extract_lets -merge -useContext -underBinder +onlyGivenNames x1
    extract_lets -merge -useContext -underBinder +onlyGivenNames x2
    refine Keeps.ite (fun _ => ?_) (fun _ => ?_)
    · exact h
    · refine State.qualPost_keeps ?_ _ _
      exact h
  · extract_lets -merge -useContext -underBinder +onlyGivenNames x4
    refine Keeps.ite (fun _ => ?_) (fun _ => ?_)
    · exact h
    · refine State.gatherPost_keeps ?_ _
      exact h

theorem State.accessEcc_keeps {s0 s : State} (h : Keeps s0 s) (a_addr : ℕ) (a_ecc : Sys2Proof.ReadEcc) :
    Keeps s0 (State.accessEcc s a_addr a_ecc) := by
  unfold State.accessEcc
  refine Keeps.ite (fun _ => ?_) (fun _ => ?_)
  · exact h
  · refine Keeps.ite (fun _ => ?_) (fun _ => ?_)
    · split
      · exact h
      · refine State.eccError_keeps ?_ _ _ _ _ _
        exact h
      · refine State.eccError_keeps ?_ _ _ _ _ _
        exact h
    · refine State.ddrEcc_keeps ?_ _
      exact h

theorem State.memPutPart_keeps {s0 s : State} (h : Keeps s0 s) (a : Nat) (l : List Byte) : Keeps s0 (s.memPutPart a l) := by
  induction l generalizing s a with
  | nil => exact h
  | cons b l ih =>
    exact ih (Keeps.ite (fun _ => State.memSet_keeps (State.fresh_keeps h) a b) (fun _ => State.fresh_keeps h)) (a + 1)

theorem State.targetWrite_keeps {s0 s : State} (h : Keeps s0 s) (a_o : Sys2Proof.Machine.Origin) (a_addr : ℕ) (a_data : List Sys2Proof.Byte) (a_ecc : Sys2Proof.ReadEcc) :
    Keeps s0 (State.targetWrite s a_o a_addr a_data a_ecc).2 := by
  unfold State.targetWrite
  refine Keeps.ite2 (fun _ => ?_) (fun _ => ?_)
  · refine Keeps.pair2 ?_
    refine State.memPutPart_keeps ?_ _ _
    refine State.accessEcc_keeps ?_ _ _
    exact h
  · extract_lets -merge -useContext -underBinder +onlyGivenNames x0
    have h0 : Keeps s0 x0.2 := by
      unfold x0
      refine State.busWrite_keeps ?_ _ _ _
      exact h
    refine Keeps.pair2 ?_
    refine Keeps.ite (fun _ => ?_) (fun _ => ?_)
    · refine State.accessEcc_keeps ?_ _ _
      exact h0
    · exact h0

theorem State.targetRead_keeps {s0 s : State} (h : Keeps s0 s) (a_o : Sys2Proof.Machine.Origin) (a_addr : ℕ) (a_n : ℕ) (a_ecc : Sys2Proof.ReadEcc) :
    Keeps s0 (State.targetRead s a_o a_addr a_n a_ecc).2.2 := by
  unfold State.targetRead
  refine Keeps.ite22 (fun _ => ?_) (fun _ => ?_)
  · refine Keeps.pair22 ?_
    refine Keeps.pair2 ?_
    refine State.accessEcc_keeps ?_ _ _
    exact h
  · extract_lets -merge -useContext -underBinder +onlyGivenNames x0
    have h0 : Keeps s0 x0.2.2 := by
      unfold x0
      refine State.busRead_keeps ?_ _ _ _
      exact h
    refine Keeps.pair22 ?_
    refine Keeps.pair2 ?_
    refine Keeps.ite (fun _ => ?_) (fun _ => ?_)
    · refine State.accessEcc_keeps ?_ _ _
      exact h0
    · exact h0

theorem State.targetAtomic_keeps {s0 s : State} (h : Keeps s0 s) (a_o : Sys2Proof.Machine.Origin) (a_op : ℕ) (a_addr : ℕ) (a_n : ℕ) (a_data : List Sys2Proof.Byte) (a_ecc : Sys2Proof.ReadEcc) :
    Keeps s0 (State.targetAtomic s a_o a_op a_addr a_n a_data a_ecc).2.2 := by
  unfold State.targetAtomic
  extract_lets -merge -useContext -underBinder +onlyGivenNames x0
  have h0 : Keeps s0 x0.2.2 := by
    unfold x0
    refine State.targetRead_keeps ?_ _ _ _ _
    exact h
  refine Keeps.ite22 (fun _ => ?_) (fun _ => ?_)
  · refine Keeps.pair22 ?_
    refine Keeps.pair2 ?_
    refine State.memPutPart_keeps ?_ _ _
    exact h0
  · refine Keeps.ite22 (fun _ => ?_) (fun _ => ?_)
    · refine Keeps.pair22 ?_
      refine Keeps.pair2 ?_
      refine State.memPut_keeps ?_ _ _
      exact h0
    · exact h0

theorem State.executeRequest_keeps {s0 s : State} (h : Keeps s0 s) (a_r : Sys2Proof.Machine.InReq) (a_ecc : Sys2Proof.ReadEcc) :
    Keeps s0 (State.executeRequest s a_r a_ecc).2.2 := by
  unfold State.executeRequest
  extract_lets -merge -useContext -underBinder +onlyGivenNames x0
  extract_lets -merge -useContext -underBinder +onlyGivenNames x1
  extract_lets -merge -useContext -underBinder +onlyGivenNames x2
  refine Keeps.ite22 (fun _ => ?_) (fun _ => ?_)
  · refine Keeps.pair22 ?_
    refine Keeps.pair2 ?_
    exact h
  · refine Keeps.ite22 (fun _ => ?_) (fun _ => ?_)
    · refine State.targetRead_keeps ?_ _ _ _ _
      exact h
    · refine Keeps.ite22 (fun _ => ?_) (fun _ => ?_)
      · extract_lets -merge -useContext -underBinder +onlyGivenNames x3
        have h3 : Keeps s0 x3.2 := by
          unfold x3
          refine State.targetWrite_keeps ?_ _ _ _ _
          exact h
        refine Keeps.pair22 ?_
        refine Keeps.pair2 ?_
        exact h3
      · refine State.targetAtomic_keeps ?_ _ _ _ _ _ _
        exact h

theorem State.completeRequest_keeps {s0 s : State} (h : Keeps s0 s) (a_r : Sys2Proof.Machine.InReq) (a_status : ℕ) (a_data : List Sys2Proof.Byte) :
    Keeps s0 (State.completeRequest s a_r a_status a_data) := by
  unfold State.completeRequest
  extract_lets -merge -useContext -underBinder +onlyGivenNames x0
  extract_lets -merge -useContext -underBinder +onlyGivenNames x1
  extract_lets -merge -useContext -underBinder +onlyGivenNames x2
  extract_lets -merge -useContext -underBinder +onlyGivenNames x3
  have h3 : Keeps s0 x3 := by
    unfold x3
    refine State.setXbr_keeps ?_ _
    exact h
  refine State.sendCompletion_keeps ?_ _ _ _
  exact h3

theorem State.executeHead_keeps {s0 s : State} (h : Keeps s0 s) (a_r : Sys2Proof.Machine.InReq) (a_ecc : Sys2Proof.ReadEcc) :
    Keeps s0 (State.executeHead s a_r a_ecc) := by
  unfold State.executeHead
  extract_lets -merge -useContext -underBinder +onlyGivenNames x0
  have h0 : Keeps s0 x0.2.2 := by
    unfold x0
    refine State.executeRequest_keeps ?_ _ _
    exact h
  refine State.completeRequest_keeps ?_ _ _ _
  exact h0

theorem State.frameWaits_keeps {s0 s t : State} (h : Keeps s0 s) {o : Origin} {who : AccWho} {addr n : Nat} {data : Option Word}
    (e : s.frameWaits o who addr n data = some t) : Keeps s0 t := by
  unfold State.frameWaits at e
  by_cases c : (!(if data.isSome then s.writeReaches o addr n else s.readReaches o addr n)) = true
  · rw [if_pos c] at e; cases e
  · rw [if_neg c] at e
    split at e
    · injection e with e; exact e ▸ State.tileWake_keeps h _
    · split at e
      · injection e with e; exact e ▸ h
      · split at e
        · cases e
        · injection e with e; exact e ▸ State.indQueue_keeps h _ _ _
    · cases e

theorem State.requestWaits_keeps {s0 s t : State} (h : Keeps s0 s) {r : InReq} (e : s.requestWaits r = some t) : Keeps s0 t := by
  unfold State.requestWaits at e
  dsimp only at e
  split at e
  · cases e
  · exact State.frameWaits_keeps h e

theorem execRequestExecute_keeps {s0 s : State} (h : Keeps s0 s) (ecc : ReadEcc) : Answers s0 (execRequestExecute ecc s) := by
  refine ⟨_, rfl, ?_⟩
  split
  · exact h
  · refine Keeps.ite (fun _ => h) (fun _ => Keeps.ite (fun _ => State.answerBusy_keeps (State.setXbr_keeps h _) _) (fun _ => ?_))
    split
    · exact State.requestWaits_keeps h ‹_›
    · exact State.executeHead_keeps h _ _

theorem State.dropPosted_keeps {s0 s : State} (h : Keeps s0 s) (a_p : Sys2Proof.Machine.PostReq) :
    Keeps s0 (State.dropPosted s a_p) := by
  unfold State.dropPosted
  refine State.setXbr_keeps ?_ _
  exact h

theorem State.beginPosted_keeps {s0 s : State} (h : Keeps s0 s) (a_p : Sys2Proof.Machine.PostReq) :
    Keeps s0 (State.beginPosted s a_p) := by
  unfold State.beginPosted
  refine State.setXbr_keeps ?_ _
  exact h

theorem State.finishPosted_keeps {s0 s : State} (h : Keeps s0 s) (a_p : Sys2Proof.Machine.PostReq) (a_status : ℕ) :
    Keeps s0 (State.finishPosted s a_p a_status) := by
  unfold State.finishPosted
  extract_lets -merge -useContext -underBinder +onlyGivenNames x0
  have h0 : Keeps s0 x0 := by
    unfold x0
    refine State.dropPosted_keeps ?_ _
    exact h
  refine Keeps.ite (fun _ => ?_) (fun _ => ?_)
  · exact h0
  · refine State.postedFailed_keeps ?_ _ _
    exact h0

theorem State.executePosted_keeps {s0 s : State} (h : Keeps s0 s) (a_p : Sys2Proof.Machine.PostReq) (a_ecc : Sys2Proof.ReadEcc) :
    Keeps s0 (State.executePosted s a_p a_ecc) := by
  unfold State.executePosted
  extract_lets -merge -useContext -underBinder +onlyGivenNames x0
  extract_lets -merge -useContext -underBinder +onlyGivenNames x1
  have h1 : Keeps s0 x1.2 := by
    unfold x1
    refine State.targetWrite_keeps ?_ _ _ _ _
    exact h
  refine State.finishPosted_keeps ?_ _ _
  exact h1

theorem execPostedWriteExecute_keeps {s0 s : State} (h : Keeps s0 s) (ecc : ReadEcc) : Answers s0 (execPostedWriteExecute ecc s) := by
  refine ⟨_, rfl, ?_⟩
  split
  · exact h
  · refine Keeps.ite (fun _ => State.finishPosted_keeps h _ _) (fun _ => ?_)
    split
    · rename_i e
      exact State.beginPosted_keeps (State.frameWaits_keeps h e) _
    · exact State.executePosted_keeps h _ _

theorem execMessageExecute_keeps {s0 s : State} (h : Keeps s0 s)  :
    Answers s0 (execMessageExecute s) := by
  refine ⟨_, rfl, ?_⟩
  split
  · exact h
  · extract_lets -merge -useContext -underBinder +onlyGivenNames x2
    extract_lets -merge -useContext -underBinder +onlyGivenNames x3
    have h3 : Keeps s0 x3 := by
      unfold x3
      refine State.dropPosted_keeps ?_ _
      exact h
    refine Keeps.ite (fun _ => ?_) (fun _ => ?_)
    · refine State.postedFailed_keeps ?_ _ _
      exact h3
    · refine Keeps.ite (fun _ => ?_) (fun _ => ?_)
      · refine State.postedFailed_keeps ?_ _ _
        refine State.bump_keeps ?_ _
        exact h3
      · extract_lets -merge -useContext -underBinder +onlyGivenNames x4
        refine State.raise_keeps ?_ _ _
        refine State.setXbr_keeps ?_ _
        exact h3

theorem execDiscardReceive_keeps {s0 s : State} (h : Keeps s0 s)  :
    Answers s0 (execDiscardReceive s) := by
  refine ⟨_, rfl, ?_⟩
  split
  · exact h
  · extract_lets -merge -useContext -underBinder +onlyGivenNames x2
    extract_lets -merge -useContext -underBinder +onlyGivenNames x3
    have h3 : Keeps s0 x3 := by
      unfold x3
      refine State.dropPosted_keeps ?_ _
      exact h
    refine Keeps.ite (fun _ => ?_) (fun _ => ?_)
    · refine State.postedFailed_keeps ?_ _ _
      exact h3
    · extract_lets -merge -useContext -underBinder +onlyGivenNames x4
      split
      · refine State.bump_keeps ?_ _
        exact h3
      · refine Keeps.ite (fun _ => ?_) (fun _ => ?_)
        · extract_lets -merge -useContext -underBinder +onlyGivenNames x7
          have h7 : Keeps s0 x7.2 := by
            unfold x7
            refine State.fresh_keeps ?_ 
            exact h3
          refine State.strand_keeps ?_ _ _
          exact h7
        · exact h3

theorem State.stallEnds_keeps {s0 s : State} (h : Keeps s0 s) (a_x : Sys2Proof.Machine.Stall) :
    Keeps s0 (State.stallEnds s a_x) := by
  unfold State.stallEnds
  split
  · refine State.agentWrite_keeps ?_ _ _ _
    exact h
  · refine State.agentRead_keeps ?_ _ _ _
    exact h

theorem execTileClockLock_keeps {s0 s : State} (h : Keeps s0 s) (a_t : Fin 8) :
    Answers s0 (execTileClockLock a_t s) := by
  refine ⟨_, rfl, ?_⟩
  extract_lets -merge -useContext -underBinder +onlyGivenNames x0
  refine Keeps.ite (fun _ => ?_) (fun _ => ?_)
  · extract_lets -merge -useContext -underBinder +onlyGivenNames x1
    extract_lets -merge -useContext -underBinder +onlyGivenNames x2
    have h2 : Keeps s0 x2 := by
      unfold x2
      refine State.tileLock_keeps ?_ _
      exact h
    refine Keeps.foldl ?_ (fun y3 a3 h3 => ?_)
    · refine Keeps.mk_upd ?_ rfl
      exact h2
    · refine State.stallEnds_keeps ?_ _
      exact h3
  · exact h

theorem State.indCarryOut_keeps {s0 s : State} (h : Keeps s0 s) (a_page : ℕ) (a_x : Sys2Proof.Machine.IndAccess) :
    Keeps s0 (State.indCarryOut s a_page a_x) := by
  unfold State.indCarryOut
  split
  · refine State.readNow_keeps ?_ _ _ _
    exact h
  · refine State.writeNow_keeps ?_ _ _ _
    exact h
  · split
    · refine State.executeHead_keeps ?_ _ _
      exact h
    · exact h
  · split
    · refine State.executePosted_keeps ?_ _ _
      exact h
    · exact h

theorem execIndAccessComplete_keeps {s0 s : State} (h : Keeps s0 s) (a_page : Fin 256) :
    Answers s0 (execIndAccessComplete a_page s) := by
  refine ⟨_, rfl, ?_⟩
  extract_lets -merge -useContext -underBinder +onlyGivenNames x0
  split
  · exact h
  · refine Keeps.ite (fun _ => ?_) (fun _ => ?_)
    · exact h
    · refine State.indCarryOut_keeps ?_ _ _
      refine State.setWaiting_keeps ?_ _ _
      exact h

theorem State.indAbort_keeps {s0 s : State} (h : Keeps s0 s) (a_page : ℕ) (a_who : Sys2Proof.Machine.AccWho) :
    Keeps s0 (State.indAbort s a_page a_who) := by
  unfold State.indAbort
  extract_lets -merge -useContext -underBinder +onlyGivenNames x0
  have h0 : Keeps s0 x0 := by
    unfold x0
    refine State.setFld_keeps ?_ _ _ _ _
    exact h
  split
  · refine State.localAnswer_keeps ?_ _ _ _ _
    exact h0
  · split
    · refine State.completeRequest_keeps ?_ _ _ _
      exact h0
    · exact h0
  · split
    · refine State.finishPosted_keeps ?_ _ _
      exact h0
    · exact h0

theorem execIndTimeout_keeps {s0 s : State} (h : Keeps s0 s) (a_a : Sys2Proof.Agent) (a_page : Fin 256) :
    Answers s0 (execIndTimeout a_a a_page s) := by
  refine ⟨_, rfl, ?_⟩
  extract_lets -merge -useContext -underBinder +onlyGivenNames x0
  split
  · refine Keeps.ite (fun _ => ?_) (fun _ => ?_)
    · refine State.indAbort_keeps ?_ _ _
      refine State.setWaiting_keeps ?_ _ _
      exact h
    · exact h
  · refine Keeps.ite (fun _ => ?_) (fun _ => ?_)
    · refine State.indAbort_keeps ?_ _ _
      exact h
    · exact h

theorem State.chReg_keeps {s0 s : State} (h : Keeps s0 s) (a_c : ℕ) (a_off : ℕ) (a_v : Sys2Proof.Word) :
    Keeps s0 (State.chReg s a_c a_off a_v) := by
  unfold State.chReg
  refine State.agentReg_keeps ?_ _ _ _ _
  exact h

theorem State.tileReg_keeps {s0 s : State} (h : Keeps s0 s) (a_t : ℕ) (a_off : ℕ) (a_v : Sys2Proof.Word) :
    Keeps s0 (State.tileReg s a_t a_off a_v) := by
  unfold State.tileReg
  refine State.agentReg_keeps ?_ _ _ _ _
  exact h

theorem execStampDataRead_keeps {s0 s : State} (h : Keeps s0 s) (a_t : Fin 8) :
    Answers s0 (execStampDataRead a_t s) := by
  refine ⟨_, rfl, ?_⟩
  refine State.agentRead_keeps ?_ _ _ _
  exact h

theorem execStampCfgWrite_keeps {s0 s : State} (h : Keeps s0 s) (a_t : Fin 8) (a_v : Sys2Proof.Word) :
    Answers s0 (execStampCfgWrite a_t a_v s) := by
  refine ⟨_, rfl, ?_⟩
  refine State.tileReg_keeps ?_ _ _ _
  exact h

theorem execStampUnderrunClear_keeps {s0 s : State} (h : Keeps s0 s) (a_t : Fin 8) :
    Answers s0 (execStampUnderrunClear a_t s) := by
  refine ⟨_, rfl, ?_⟩
  refine State.tileReg_keeps ?_ _ _ _
  exact h

theorem execBankCfgWrite_keeps {s0 s : State} (h : Keeps s0 s) (a_t : Fin 8) (a_v : Sys2Proof.Word) :
    Answers s0 (execBankCfgWrite a_t a_v s) := by
  refine ⟨_, rfl, ?_⟩
  refine State.tileReg_keeps ?_ _ _ _
  exact h

theorem execGrpStart_keeps {s0 s : State} (h : Keeps s0 s)  :
    Answers s0 (execGrpStart s) := by
  refine ⟨_, rfl, ?_⟩
  extract_lets -merge -useContext -underBinder +onlyGivenNames x0
  refine State.tileReg_keeps ?_ _ _ _
  exact h

theorem execFuncWrite_keeps {s0 s : State} (h : Keeps s0 s) (a_c : Fin 64) (a_v : Sys2Proof.Word) :
    Answers s0 (execFuncWrite a_c a_v s) := by
  refine ⟨_, rfl, ?_⟩
  refine State.chReg_keeps ?_ _ _ _
  exact h

theorem execOutSet_keeps {s0 s : State} (h : Keeps s0 s) (a_c : Fin 64) (a_v : Sys2Proof.Word) :
    Answers s0 (execOutSet a_c a_v s) := by
  refine ⟨_, rfl, ?_⟩
  refine State.chReg_keeps ?_ _ _ _
  exact h

theorem execOutClr_keeps {s0 s : State} (h : Keeps s0 s) (a_c : Fin 64) (a_v : Sys2Proof.Word) :
    Answers s0 (execOutClr a_c a_v s) := by
  refine ⟨_, rfl, ?_⟩
  refine State.chReg_keeps ?_ _ _ _
  exact h

theorem execSafeEnter_keeps {s0 s : State} (h : Keeps s0 s) (a_c : Fin 64) (a_v : Sys2Proof.Word) :
    Answers s0 (execSafeEnter a_c a_v s) := by
  refine ⟨_, rfl, ?_⟩
  refine State.chReg_keeps ?_ _ _ _
  exact h

theorem execSafeRelease_keeps {s0 s : State} (h : Keeps s0 s) (a_c : Fin 64) (a_v : Sys2Proof.Word) :
    Answers s0 (execSafeRelease a_c a_v s) := by
  refine ⟨_, rfl, ?_⟩
  refine State.chReg_keeps ?_ _ _ _
  exact h

theorem execCtrCapture_keeps {s0 s : State} (h : Keeps s0 s) (a_c : Fin 64) :
    Answers s0 (execCtrCapture a_c s) := by
  refine ⟨_, rfl, ?_⟩
  refine State.chReg_keeps ?_ _ _ _
  exact h

theorem execCtrZero_keeps {s0 s : State} (h : Keeps s0 s) (a_c : Fin 64) :
    Answers s0 (execCtrZero a_c s) := by
  refine ⟨_, rfl, ?_⟩
  refine State.chReg_keeps ?_ _ _ _
  exact h

theorem execRxDataRead_keeps {s0 s : State} (h : Keeps s0 s) (a_u : Fin 80) :
    Answers s0 (execRxDataRead a_u s) := by
  refine ⟨_, rfl, ?_⟩
  refine State.agentRead_keeps ?_ _ _ _
  exact h

theorem execRxDropRest_keeps {s0 s : State} (h : Keeps s0 s) (a_u : Fin 80) :
    Answers s0 (execRxDropRest a_u s) := by
  refine ⟨_, rfl, ?_⟩
  refine State.agentReg_keeps ?_ _ _ _ _
  exact h

theorem execRxFlush_keeps {s0 s : State} (h : Keeps s0 s) (a_u : Fin 80) :
    Answers s0 (execRxFlush a_u s) := by
  refine ⟨_, rfl, ?_⟩
  refine State.agentReg_keeps ?_ _ _ _ _
  exact h

theorem execRxUnderClr_keeps {s0 s : State} (h : Keeps s0 s) (a_u : Fin 80) :
    Answers s0 (execRxUnderClr a_u s) := by
  refine ⟨_, rfl, ?_⟩
  refine State.agentReg_keeps ?_ _ _ _ _
  exact h

theorem execTxDataWrite_keeps {s0 s : State} (h : Keeps s0 s) (a_c : Fin 64) (a_w : Sys2Proof.Word) :
    Answers s0 (execTxDataWrite a_c a_w s) := by
  refine ⟨_, rfl, ?_⟩
  refine State.chReg_keeps ?_ _ _ _
  exact h

theorem execTxDropRest_keeps {s0 s : State} (h : Keeps s0 s) (a_c : Fin 64) :
    Answers s0 (execTxDropRest a_c s) := by
  refine ⟨_, rfl, ?_⟩
  refine State.chReg_keeps ?_ _ _ _
  exact h

theorem execTxFlush_keeps {s0 s : State} (h : Keeps s0 s) (a_c : Fin 64) :
    Answers s0 (execTxFlush a_c s) := by
  refine ⟨_, rfl, ?_⟩
  refine State.chReg_keeps ?_ _ _ _
  exact h

theorem execTxUnderClr_keeps {s0 s : State} (h : Keeps s0 s) (a_c : Fin 64) :
    Answers s0 (execTxUnderClr a_c s) := by
  refine ⟨_, rfl, ?_⟩
  refine State.chReg_keeps ?_ _ _ _
  exact h

theorem execI2cBusClear_keeps {s0 s : State} (h : Keeps s0 s) (a_c : Fin 64) :
    Answers s0 (execI2cBusClear a_c s) := by
  refine ⟨_, rfl, ?_⟩
  refine State.chReg_keeps ?_ _ _ _
  exact h

theorem execEngStart_keeps {s0 s : State} (h : Keeps s0 s) (a_c : Fin 64) :
    Answers s0 (execEngStart a_c s) := by
  refine ⟨_, rfl, ?_⟩
  refine State.chReg_keeps ?_ _ _ _
  exact h

theorem execEngHalt_keeps {s0 s : State} (h : Keeps s0 s) (a_c : Fin 64) :
    Answers s0 (execEngHalt a_c s) := by
  refine ⟨_, rfl, ?_⟩
  refine State.chReg_keeps ?_ _ _ _
  exact h

theorem execEngineReset_keeps {s0 s : State} (h : Keeps s0 s) (a_c : Fin 64) :
    Answers s0 (execEngineReset a_c s) := by
  refine ⟨_, rfl, ?_⟩
  refine State.chReg_keeps ?_ _ _ _
  exact h

theorem execCommitAtWrap_keeps {s0 s : State} (h : Keeps s0 s) (a_c : Fin 64) :
    Answers s0 (execCommitAtWrap a_c s) := by
  refine ⟨_, rfl, ?_⟩
  refine State.chReg_keeps ?_ _ _ _
  exact h

theorem execCommitImmediate_keeps {s0 s : State} (h : Keeps s0 s) (a_c : Fin 64) (a_a : Sys2Proof.Agent) :
    Answers s0 (execCommitImmediate a_c a_a s) := by
  refine ⟨_, rfl, ?_⟩
  refine State.agentReg_keeps ?_ _ _ _ _
  exact h

theorem execCancelCommit_keeps {s0 s : State} (h : Keeps s0 s) (a_c : Fin 64) :
    Answers s0 (execCancelCommit a_c s) := by
  refine ⟨_, rfl, ?_⟩
  refine State.chReg_keeps ?_ _ _ _
  exact h

theorem execCopyActive_keeps {s0 s : State} (h : Keeps s0 s) (a_c : Fin 64) :
    Answers s0 (execCopyActive a_c s) := by
  refine ⟨_, rfl, ?_⟩
  refine State.chReg_keeps ?_ _ _ _
  exact h

theorem execEngSegWrite_keeps {s0 s : State} (h : Keeps s0 s) (a_c : Fin 64) (a_v : Sys2Proof.Word) :
    Answers s0 (execEngSegWrite a_c a_v s) := by
  refine ⟨_, rfl, ?_⟩
  refine State.chReg_keeps ?_ _ _ _
  exact h

theorem execProgDataWrite_keeps {s0 s : State} (h : Keeps s0 s) (a_c : Fin 64) (a_v : Sys2Proof.Word) :
    Answers s0 (execProgDataWrite a_c a_v s) := by
  refine ⟨_, rfl, ?_⟩
  refine State.chReg_keeps ?_ _ _ _
  exact h

theorem execEngFlagSet_keeps {s0 s : State} (h : Keeps s0 s) (a_c : Fin 64) (a_v : Sys2Proof.Word) :
    Answers s0 (execEngFlagSet a_c a_v s) := by
  refine ⟨_, rfl, ?_⟩
  refine State.chReg_keeps ?_ _ _ _
  exact h

theorem execEngFlagClr_keeps {s0 s : State} (h : Keeps s0 s) (a_c : Fin 64) (a_v : Sys2Proof.Word) (a_setToo : Sys2Proof.Word) :
    Answers s0 (execEngFlagClr a_c a_v a_setToo s) := by
  refine ⟨_, rfl, ?_⟩
  refine State.chReg_keeps ?_ _ _ _
  refine State.chReg_keeps ?_ _ _ _
  exact h

theorem execEngMarkWrite_keeps {s0 s : State} (h : Keeps s0 s) (a_c : Fin 64) (a_v : Sys2Proof.Word) :
    Answers s0 (execEngMarkWrite a_c a_v s) := by
  refine ⟨_, rfl, ?_⟩
  refine State.chReg_keeps ?_ _ _ _
  exact h

theorem execEngOsrWrite_keeps {s0 s : State} (h : Keeps s0 s) (a_c : Fin 64) (a_v : Sys2Proof.Word) :
    Answers s0 (execEngOsrWrite a_c a_v s) := by
  refine ⟨_, rfl, ?_⟩
  refine State.chReg_keeps ?_ _ _ _
  exact h

theorem State.hubSample_keeps {s0 s : State} (h : Keeps s0 s)  :
    Keeps s0 (State.hubSample s) := by
  unfold State.hubSample
  extract_lets -merge -useContext -underBinder +onlyGivenNames x0
  have h0 : Keeps s0 x0 := by
    unfold x0
    refine State.pubFlush_keeps ?_ _
    exact h
  extract_lets -merge -useContext -underBinder +onlyGivenNames x1
  have h1 : Keeps s0 x1 := by
    unfold x1
    refine Keeps.ite (fun _ => ?_) (fun _ => ?_)
    · exact h0
    · refine Keeps.foldl ?_ (fun y2 a2 h2 => ?_)
      · exact h0
      · refine State.conflictsTo_keeps ?_ _ _
        exact h2
  refine Keeps.foldl ?_ (fun y3 a3 h3 => ?_)
  · refine State.tileSample_keeps ?_ 
    refine State.leaseTrack_keeps ?_ 
    exact h1
  · refine State.linkBegin_keeps ?_ _
    exact h3

theorem State.tclkEdge_keeps {s0 s : State} (h : Keeps s0 s)  :
    Keeps s0 (State.tclkEdge s) := by
  unfold State.tclkEdge
  refine Keeps.ite (fun _ => ?_) (fun _ => ?_)
  · refine State.hubSample_keeps ?_ 
    refine State.tclkCount_keeps ?_ 
    exact h
  · refine State.tclkCount_keeps ?_ 
    exact h

theorem execTclkEdge_keeps {s0 s : State} (h : Keeps s0 s)  :
    Answers s0 (execTclkEdge s) := by
  refine ⟨_, rfl, ?_⟩
  refine Keeps.ite (fun _ => ?_) (fun _ => ?_)
  · exact h
  · refine State.tclkEdge_keeps ?_ 
    exact h

theorem execSlewStep_keeps {s0 s : State} (h : Keeps s0 s)  :
    Answers s0 (execSlewStep s) := by
  refine ⟨_, rfl, ?_⟩
  refine Keeps.ite (fun _ => ?_) (fun _ => ?_)
  · exact h
  · refine State.tclkEdge_keeps ?_ 
    exact h

theorem execXt32Edge_keeps {s0 s : State} (h : Keeps s0 s)  :
    Answers s0 (execXt32Edge s) := by
  refine ⟨_, rfl, ?_⟩
  refine Keeps.ite (fun _ => ?_) (fun _ => ?_)
  · refine State.dormantStamps_keeps ?_ 
    refine State.xt32Advance_keeps ?_ 
    exact h
  · exact h

theorem applyEach_keeps {s0 s : State} (h : Keeps s0 s) (f : State → List Byte → Bool × State) (l : List (List Byte))
    (hf : ∀ y e, Keeps s0 y → Keeps s0 (f y e).2) : Keeps s0 (applyEach f l s).2 := by
  induction l generalizing s with
  | nil => exact h
  | cons e l ih => exact Keeps.ite2 (fun _ => ih (hf _ _ h)) (fun _ => hf _ _ h)

theorem State.mailboxNow_keeps {s0 s : State} (h : Keeps s0 s) (a_page : Fin 256) (a_op : ℕ) (a_arg : ℕ) (a_d : List Sys2Proof.Word) :
    Keeps s0 (State.mailboxNow s a_page a_op a_arg a_d).2 := by
  unfold State.mailboxNow
  extract_lets -merge -useContext -underBinder +onlyGivenNames x0
  extract_lets -merge -useContext -underBinder +onlyGivenNames x1
  have h1 : Keeps s0 x1 := by
    unfold x1
    refine after_keeps (execMbxComplete_keeps ?_ _) ?_
    · exact h
    · exact h
  extract_lets -merge -useContext -underBinder +onlyGivenNames x2
  have h2 : Keeps s0 x2 := by
    unfold x2
    refine Keeps.foldl ?_ (fun y3 a3 h3 => ?_)
    · exact h1
    · refine State.wr_keeps ?_ _ _
      exact h3
  extract_lets -merge -useContext -underBinder +onlyGivenNames x4
  have h4 : Keeps s0 x4 := by
    unfold x4
    refine State.mbxWrite_keeps ?_ _ _ _
    exact h2
  extract_lets -merge -useContext -underBinder +onlyGivenNames x5
  have h5 : Keeps s0 x5 := by
    unfold x5
    refine after_keeps (execMbxComplete_keeps ?_ _) ?_
    · exact h4
    · exact h4
  refine Keeps.pair2 ?_
  exact h5

theorem State.mailboxAll_keeps {s0 s : State} (h : Keeps s0 s) (page : Fin 256) (arg : Nat) (l : List (Nat × List Word)) :
    Keeps s0 (s.mailboxAll page arg l).2 := by
  induction l generalizing s with
  | nil => exact h
  | cons c l ih => exact Keeps.ite2 (fun _ => ih (State.mailboxNow_keeps h _ _ _ _)) (fun _ => State.mailboxNow_keeps h _ _ _ _)

theorem State.noteArm_keeps {s0 s : State} (h : Keeps s0 s) (a_page : ℕ) (a_n : ℕ) (a_arm : Bool) :
    Keeps s0 (State.noteArm s a_page a_n a_arm) := by
  unfold State.noteArm
  refine Keeps.ite (fun _ => ?_) (fun _ => ?_)
  · refine State.setBoot_keeps ?_ _
    exact h
  · exact h

theorem State.loadEntry_keeps {s0 s : State} (h : Keeps s0 s) (a_page : Fin 256) (a_width : ℕ) (a_cmds : List Sys2Proof.Byte → List (ℕ × List Sys2Proof.Word)) (a_e : List Sys2Proof.Byte) :
    Keeps s0 (State.loadEntry s a_page a_width a_cmds a_e).2 := by
  unfold State.loadEntry
  extract_lets -merge -useContext -underBinder +onlyGivenNames x0
  extract_lets -merge -useContext -underBinder +onlyGivenNames x1
  extract_lets -merge -useContext -underBinder +onlyGivenNames x2
  have h2 : Keeps s0 x2.2 := by
    unfold x2
    refine State.mailboxAll_keeps ?_ _ _ _
    exact h
  refine Keeps.ite2 (fun _ => ?_) (fun _ => ?_)
  · refine Keeps.pair2 ?_
    refine State.noteArm_keeps ?_ _ _ _
    exact h2
  · exact h2

theorem State.applyPair_keeps {s0 s : State} (h : Keeps s0 s) (a_e : List Sys2Proof.Byte) :
    Keeps s0 (State.applyPair s a_e).2 := by
  unfold State.applyPair
  extract_lets -merge -useContext -underBinder +onlyGivenNames x0
  refine Keeps.ite2 (fun _ => ?_) (fun _ => ?_)
  · refine Keeps.pair2 ?_
    exact h
  · extract_lets -merge -useContext -underBinder +onlyGivenNames x1
    have h1 : Keeps s0 x1.2 := by
      unfold x1
      refine State.busWrite_keeps ?_ _ _ _
      exact h
    refine Keeps.pair2 ?_
    exact h1

theorem State.putProgram_keeps {s0 s : State} (h : Keeps s0 s) (t i : Nat) (l : List (List Byte)) : Keeps s0 (s.putProgram t i l) := by
  induction l generalizing s i with
  | nil => exact h
  | cons w l ih =>
    refine ih ?_ (i + 1)
    split
    · exact State.sramSet_keeps h _ _
    · exact h

theorem State.stwPut_keeps {s0 s : State} (h : Keeps s0 s) (i : Nat) (l : List Byte) : Keeps s0 (s.stwPut i l) := by
  induction l generalizing s i with
  | nil => exact h
  | cons b l ih => exact ih (Keeps.mk_upd h rfl) (i + 1)

theorem State.applyRec_keeps {s0 s : State} (h : Keeps s0 s) (a_r : Sys2Proof.Machine.LoadRec) :
    Keeps s0 (State.applyRec s a_r).2 := by
  unfold State.applyRec
  extract_lets -merge -useContext -underBinder +onlyGivenNames x0
  extract_lets -merge -useContext -underBinder +onlyGivenNames x1
  refine Keeps.ite2 (fun _ => ?_) (fun _ => ?_)
  · refine Keeps.pair2 ?_
    exact h
  · split
    · refine Keeps.ite2 (fun _ => ?_) (fun _ => ?_)
      · refine Keeps.pair2 ?_
        refine State.stwPut_keeps ?_ _ _
        exact h
      · refine Keeps.pair2 ?_
        exact h
    · refine Keeps.ite2 (fun _ => ?_) (fun _ => ?_)
      · refine Keeps.pair2 ?_
        refine State.tcmPut_keeps ?_ _ _ _
        exact h
      · refine Keeps.pair2 ?_
        exact h
    · refine Keeps.ite2 (fun _ => ?_) (fun _ => ?_)
      · refine Keeps.pair2 ?_
        refine State.memPut_keeps ?_ _ _
        exact h
      · refine Keeps.pair2 ?_
        exact h
    · extract_lets -merge -useContext -underBinder +onlyGivenNames x6
      refine Keeps.ite2 (fun _ => ?_) (fun _ => ?_)
      · refine Keeps.pair2 ?_
        refine State.putProgram_keeps ?_ _ _ _
        exact h
      · refine Keeps.pair2 ?_
        exact h
    · refine applyEach_keeps ?_ _ _ (fun y8 _ h8 => ?_)
      · exact h
      · refine State.applyPair_keeps ?_ _
        exact h8
    · extract_lets -merge -useContext -underBinder +onlyGivenNames x10
      refine applyEach_keeps ?_ _ _ (fun y11 _ h11 => ?_)
      · exact h
      · refine State.loadEntry_keeps ?_ _ _ _ _
        exact h11
    · extract_lets -merge -useContext -underBinder +onlyGivenNames x13
      refine applyEach_keeps ?_ _ _ (fun y14 _ h14 => ?_)
      · exact h
      · refine State.loadEntry_keeps ?_ _ _ _ _
        exact h14
    · extract_lets -merge -useContext -underBinder +onlyGivenNames x16
      refine applyEach_keeps ?_ _ _ (fun y17 _ h17 => ?_)
      · exact h
      · refine State.loadEntry_keeps ?_ _ _ _ _
        exact h17
    · refine applyEach_keeps ?_ _ _ (fun y19 _ h19 => ?_)
      · exact h
      · refine State.mailboxNow_keeps ?_ _ _ _ _
        exact h19
    · refine applyEach_keeps ?_ _ _ (fun y21 _ h21 => ?_)
      · exact h
      · refine State.mailboxNow_keeps ?_ _ _ _ _
        exact h21
    · refine Keeps.pair2 ?_
      exact h

theorem State.applyImage_keeps {s0 s : State} (h : Keeps s0 s) (kind count : Nat) (ours : LoadRec → Bool) (i : Nat) (l : List LoadRec) :
    Keeps s0 (s.applyImage kind count ours i l).2 := by
  induction l generalizing s i with
  | nil => exact h
  | cons r l ih =>
    have ha : Keeps s0 (if recTypeOk kind r.ty then s.applyRec r else (false, s)).2 :=
      Keeps.ite2 (fun _ => State.applyRec_keeps h r) (fun _ => h)
    exact Keeps.ite2 (fun _ => ih h (i + 1)) (fun _ => Keeps.ite2 (fun _ => ih ha (i + 1)) (fun _ => ha))

theorem State.applySettings_keeps {s0 s : State} (h : Keeps s0 s) (area i : Nat) (l : List LoadRec) : Keeps s0 (s.applySettings area i l) := by
  induction l generalizing s i with
  | nil => exact h
  | cons r l ih =>
    have ha : Keeps s0 (if !recTypeOk 2 r.ty then (false, s) else if recOld s.fieldTable r then (true, s) else s.applyRec r).2 :=
      Keeps.ite2 (fun _ => h) (fun _ => Keeps.ite2 (fun _ => h) (fun _ => State.applyRec_keeps h r))
    exact ih (Keeps.ite (fun _ => ha) (fun _ => State.slotBad_keeps ha _ _ _ _)) (i + 1)

theorem State.trialStep_keeps {s0 s : State} (h : Keeps s0 s) (a_kind : ℕ) :
    Keeps s0 (State.trialStep s a_kind).2 := by
  unfold State.trialStep
  extract_lets -merge -useContext -underBinder +onlyGivenNames x0
  extract_lets -merge -useContext -underBinder +onlyGivenNames x1
  have h1 : ∀ w1_0 w1_1, Keeps s0 (x1 w1_0 w1_1).2 := by
    intro w1_0 w1_1
    unfold x1
    extract_lets -merge -useContext -underBinder +onlyGivenNames x2
    have h2 : Keeps s0 x2 := by
      unfold x2
      refine State.bcbChange_keeps ?_ _
      exact h
    refine Keeps.pair2 ?_
    refine State.bootPost_keeps ?_ _ _ _ _ _ _ _
    exact h2
  refine Keeps.ite2 (fun _ => ?_) (fun _ => ?_)
  · exact h1 _ _
  · refine Keeps.ite2 (fun _ => ?_) (fun _ => ?_)
    · extract_lets -merge -useContext -underBinder +onlyGivenNames x3
      refine Keeps.ite2 (fun _ => ?_) (fun _ => ?_)
      · refine Keeps.pair2 ?_
        refine State.revert_keeps ?_ _ _
        refine State.setFld_keeps ?_ _ _ _ _
        exact h
      · refine Keeps.ite2 (fun _ => ?_) (fun _ => ?_)
        · refine Keeps.pair2 ?_
          refine State.revert_keeps ?_ _ _
          exact h
        · exact h1 _ _
    · refine Keeps.pair2 ?_
      exact h

theorem State.loadSlot_keeps {s0 s : State} (h : Keeps s0 s) (a_kind : ℕ) (a_slot : ℕ) (a_ours : Sys2Proof.Machine.LoadRec → Bool) :
    Keeps s0 (State.loadSlot s a_kind a_slot a_ours).2 := by
  unfold State.loadSlot
  split
  · refine Keeps.pair2 ?_
    refine State.markBad_keeps ?_ _ _ _ _
    exact h
  · extract_lets -merge -useContext -underBinder +onlyGivenNames x2
    have h2 : Keeps s0 x2.2 := by
      unfold x2
      refine State.applyImage_keeps ?_ _ _ _ _ _
      exact h
    split
    · refine Keeps.pair2 ?_
      exact h2
    · refine Keeps.pair2 ?_
      refine State.markBad_keeps ?_ _ _ _ _
      exact h2

theorem State.loadImage_keeps {s0 s : State} (h : Keeps s0 s) (a_kind : ℕ) (a_ours : Sys2Proof.Machine.LoadRec → Bool) :
    Keeps s0 (State.loadImage s a_kind a_ours).2 := by
  unfold State.loadImage
  extract_lets -merge -useContext -underBinder +onlyGivenNames x0
  extract_lets -merge -useContext -underBinder +onlyGivenNames x1
  have h1 : Keeps s0 x1.2 := by
    unfold x1
    refine State.loadSlot_keeps ?_ _ _ _
    exact h
  split
  · refine Keeps.pair2 ?_
    exact h1
  · extract_lets -merge -useContext -underBinder +onlyGivenNames x4
    have h4 : Keeps s0 x4.2 := by
      unfold x4
      refine State.loadSlot_keeps ?_ _ _ _
      exact h1
    refine Keeps.pair2 ?_
    refine Keeps.ite (fun _ => ?_) (fun _ => ?_)
    · refine State.bcbChange_keeps ?_ _
      exact h4
    · exact h4

theorem State.loadSettings_keeps {s0 s : State} (h : Keeps s0 s) (a_im : Sys2Proof.Machine.Image) :
    Keeps s0 (State.loadSettings s a_im).2 := by
  unfold State.loadSettings
  extract_lets -merge -useContext -underBinder +onlyGivenNames x0
  split
  · refine Keeps.pair2 ?_
    refine State.slotBad_keeps ?_ _ _ _ _
    exact h
  · refine Keeps.ite2 (fun _ => ?_) (fun _ => ?_)
    · extract_lets -merge -useContext -underBinder +onlyGivenNames x3
      have h3 : Keeps s0 x3 := by
        unfold x3
        refine State.setBoot_keeps ?_ _
        refine State.openPending_keeps ?_ 
        exact h
      refine Keeps.pair2 ?_
      refine State.bootStatus_keeps ?_ _
      exact h3
    · refine Keeps.pair2 ?_
      refine State.applySettings_keeps ?_ _ _ _
      exact h

theorem State.armPage_keeps {s0 s : State} (h : Keeps s0 s) (a_page : Fin 256) :
    Keeps s0 (State.armPage s a_page) := by
  unfold State.armPage
  extract_lets -merge -useContext -underBinder +onlyGivenNames x0
  extract_lets -merge -useContext -underBinder +onlyGivenNames x1
  refine Keeps.foldl ?_ (fun y2 a2 h2 => ?_)
  · exact h
  · refine State.mailboxNow_keeps ?_ _ _ _ _
    exact h2

theorem State.armAll_keeps {s0 s : State} (h : Keeps s0 s)  :
    Keeps s0 (State.armAll s) := by
  unfold State.armAll
  refine State.setBoot_keeps ?_ _
  refine State.armPage_keeps ?_ _
  refine State.armPage_keeps ?_ _
  refine State.armPage_keeps ?_ _
  exact h

theorem State.releasePairs_keeps {s0 s : State} (h : Keeps s0 s)  :
    Keeps s0 (State.releasePairs s) := by
  unfold State.releasePairs
  refine Keeps.foldl ?_ (fun y0 a0 h0 => ?_)
  · exact h
  · refine Keeps.ite (fun _ => ?_) (fun _ => ?_)
    · refine State.pairRun_keeps ?_ _
      exact h0
    · exact h0

theorem State.protectFlash_keeps {s0 s : State} (h : Keeps s0 s)  :
    Keeps s0 (State.protectFlash s) := by
  unfold State.protectFlash
  extract_lets -merge -useContext -underBinder +onlyGivenNames x0
  extract_lets -merge -useContext -underBinder +onlyGivenNames x1
  extract_lets -merge -useContext -underBinder +onlyGivenNames x2
  extract_lets -merge -useContext -underBinder +onlyGivenNames x3
  have h3 : Keeps s0 x3 := by
    unfold x3
    refine State.wr_keeps ?_ _ _
    refine State.wr_keeps ?_ _ _
    exact h
  refine State.wr_keeps ?_ _ _
  refine State.wr_keeps ?_ _ _
  exact h3

theorem State.setPhase_keeps {s0 s : State} (h : Keeps s0 s) (a_p : ℕ) :
    Keeps s0 (State.setPhase s a_p) := by
  unfold State.setPhase
  refine State.setFld_keeps ?_ _ _ _ _
  exact h

theorem State.finishStart_keeps {s0 s : State} (h : Keeps s0 s)  :
    Keeps s0 (State.finishStart s) := by
  unfold State.finishStart
  extract_lets -merge -useContext -underBinder +onlyGivenNames x0
  have h0 : Keeps s0 x0 := by
    unfold x0
    refine State.armAll_keeps ?_ 
    exact h
  extract_lets -merge -useContext -underBinder +onlyGivenNames x1
  have h1 : Keeps s0 x1 := by
    unfold x1
    refine Keeps.foldl ?_ (fun y2 a2 h2 => ?_)
    · refine Keeps.mk_upd ?_ rfl
      exact h0
    · refine Keeps.ite (fun _ => ?_) (fun _ => ?_)
      · refine State.tileWake_keeps ?_ _
        exact h2
      · exact h2
  extract_lets -merge -useContext -underBinder +onlyGivenNames x3
  have h3 : Keeps s0 x3 := by
    unfold x3
    refine State.releasePairs_keeps ?_ 
    exact h1
  extract_lets -merge -useContext -underBinder +onlyGivenNames x4
  have h4 : Keeps s0 x4 := by
    unfold x4
    refine State.setPhase_keeps ?_ _
    refine State.enableWrite_keeps ?_ _ _
    exact h3
  refine Keeps.ite (fun _ => ?_) (fun _ => ?_)
  · extract_lets -merge -useContext -underBinder +onlyGivenNames x5
    refine State.setBoot_keeps ?_ _
    exact h4
  · exact h4

theorem State.readFlash_keeps {s0 s : State} (h : Keeps s0 s) (a_octal : Bool) :
    Keeps s0 (State.readFlash s a_octal) := by
  unfold State.readFlash
  extract_lets -merge -useContext -underBinder +onlyGivenNames x0
  have h0 : Keeps s0 x0 := by
    unfold x0
    refine State.wr_keeps ?_ _ _
    refine State.wr_keeps ?_ _ _
    exact h
  split
  · refine State.bcbWrite_keeps ?_ _
    exact h0
  · refine State.bootStatus_keeps ?_ _
    exact h0

theorem State.startField_keeps {s0 s : State} (h : Keeps s0 s)  :
    Keeps s0 (State.startField s) := by
  unfold State.startField
  extract_lets -merge -useContext -underBinder +onlyGivenNames x0
  have h0 : Keeps s0 x0.2 := by
    unfold x0
    refine State.trialStep_keeps ?_ _
    exact h
  refine Keeps.ite (fun _ => ?_) (fun _ => ?_)
  · exact h0
  · extract_lets -merge -useContext -underBinder +onlyGivenNames x1
    have h1 : Keeps s0 x1.2 := by
      unfold x1
      refine State.loadImage_keeps ?_ _ _
      refine State.setPhase_keeps ?_ _
      exact h0
    split
    · refine State.setPhase_keeps ?_ _
      exact h1
    · extract_lets -merge -useContext -underBinder +onlyGivenNames x4
      have h4 : Keeps s0 x4.2 := by
        unfold x4
        refine State.loadSettings_keeps ?_ _
        refine State.wr_keeps ?_ _ _
        exact h1
      refine Keeps.ite (fun _ => ?_) (fun _ => ?_)
      · refine State.releasePairs_keeps ?_ 
        exact h4
      · refine State.finishStart_keeps ?_ 
        exact h4

theorem State.postClkReport_keeps {s0 s : State} (h : Keeps s0 s)  :
    Keeps s0 (State.postClkReport s) := by
  unfold State.postClkReport
  split
  · exact h
  · extract_lets -merge -useContext -underBinder +onlyGivenNames x2
    have h2 : Keeps s0 x2 := by
      unfold x2
      refine State.setClk_keeps ?_ _
      exact h
    extract_lets -merge -useContext -underBinder +onlyGivenNames x3
    extract_lets -merge -useContext -underBinder +onlyGivenNames x4
    have h4 : Keeps s0 x4 := by
      unfold x4
      refine State.qualFailAt_keeps ?_ _ _ _ _ _ _ _
      refine State.raise_keeps ?_ _ _
      exact h2
    refine State.clkClear_keeps ?_ _ _ _
    exact h4

theorem State.startEnds_keeps {s0 s : State} (h : Keeps s0 s)  :
    Keeps s0 (State.startEnds s) := by
  unfold State.startEnds
  refine State.postClkReport_keeps ?_ 
  refine State.powDrain_keeps ?_ 
  refine State.bootFlush_keeps ?_ 
  refine State.setBoot_keeps ?_ _
  exact h

theorem execNodeStart_keeps {s0 s : State} (h : Keeps s0 s) (a_octal : Bool) :
    Answers s0 (execNodeStart a_octal s) := by
  refine ⟨_, rfl, ?_⟩
  refine Keeps.ite (fun _ => ?_) (fun _ => ?_)
  · exact h
  · extract_lets -merge -useContext -underBinder +onlyGivenNames x0
    have h0 : Keeps s0 x0 := by
      unfold x0
      refine Keeps.ite (fun _ => ?_) (fun _ => ?_)
      · refine State.hubRelease_keeps ?_ 
        exact h
      · refine Keeps.mk_upd ?_ rfl
        exact h
    extract_lets -merge -useContext -underBinder +onlyGivenNames x1
    have h1 : Keeps s0 x1 := by
      unfold x1
      refine Keeps.foldl ?_ (fun y2 a2 h2 => ?_)
      · exact h0
      · refine State.linkBegin_keeps ?_ _
        exact h2
    extract_lets -merge -useContext -underBinder +onlyGivenNames x3
    have h3 : Keeps s0 x3 := by
      unfold x3
      refine State.readFlash_keeps ?_ _
      refine State.wdtStart_keeps ?_ _
      exact h1
    extract_lets -merge -useContext -underBinder +onlyGivenNames x4
    have h4 : Keeps s0 x4.2 := by
      unfold x4
      refine State.trialStep_keeps ?_ _
      exact h3
    refine Keeps.ite (fun _ => ?_) (fun _ => ?_)
    · exact h4
    · extract_lets -merge -useContext -underBinder +onlyGivenNames x5
      have h5 : Keeps s0 x5.2 := by
        unfold x5
        refine State.loadImage_keeps ?_ _ _
        exact h4
      split
      · refine State.bootFlush_keeps ?_ 
        refine State.setPhase_keeps ?_ _
        exact h5
      · extract_lets -merge -useContext -underBinder +onlyGivenNames x8
        have h8 : Keeps s0 x8 := by
          unfold x8
          refine State.setPhase_keeps ?_ _
          refine State.wr_keeps ?_ _ _
          refine State.setFld_keeps ?_ _ _ _ _
          exact h5
        extract_lets -merge -useContext -underBinder +onlyGivenNames x9
        have h9 : Keeps s0 x9 := by
          unfold x9
          refine State.startField_keeps ?_ 
          exact h8
        refine Keeps.ite (fun _ => ?_) (fun _ => ?_)
        · exact h9
        · refine State.startEnds_keeps ?_ 
          refine State.protectFlash_keeps ?_ 
          exact h9

theorem State.migrateDone_keeps {s0 s : State} (h : Keeps s0 s)  :
    Keeps s0 (State.migrateDone s).2 := by
  unfold State.migrateDone
  refine Keeps.ite2 (fun _ => ?_) (fun _ => ?_)
  · refine Keeps.pair2 ?_
    exact h
  · extract_lets -merge -useContext -underBinder +onlyGivenNames x0
    extract_lets -merge -useContext -underBinder +onlyGivenNames x1
    extract_lets -merge -useContext -underBinder +onlyGivenNames x2
    have h2 : Keeps s0 x2.2 := by
      unfold x2
      refine State.closePending_keeps ?_ 
      exact h
    extract_lets -merge -useContext -underBinder +onlyGivenNames x3
    have h3 : Keeps s0 x3 := by
      unfold x3
      refine State.postMigrated_keeps ?_ _ _ _ _
      refine State.applySettings_keeps ?_ _ _ _
      exact h2
    refine Keeps.pair2 ?_
    refine Keeps.ite (fun _ => ?_) (fun _ => ?_)
    · refine State.finishStart_keeps ?_ 
      exact h3
    · refine State.armAll_keeps ?_ 
      exact h3

theorem execMigrateDone_keeps {s0 s : State} (h : Keeps s0 s) (a_slot : Fin 5) :
    Answers s0 (execMigrateDone a_slot s) := by
  refine ⟨_, rfl, ?_⟩
  refine State.serve_keeps ?_ _ _ _ (fun y0 h0 => ?_)
  · exact h
  · refine State.migrateDone_keeps ?_ 
    exact h0

end Sys2Proof.Machine
end

