-- ==== Sys2Proof/Laws/Commands.lean ====
section
/-! SUPPORT. Every command answers a next state and keeps what every step keeps. -/

namespace Sys2Proof.Machine

theorem exec_keeps (c : Instr) (s : State) : Answers s (Machine.exec c s) :=
  match c with
  | .registerWrite t => execRegisterWrite_keeps (Keeps.refl s) t
  | .mbxNop a page => execMbxNop_keeps (Keeps.refl s) a page
  | .mbxUnknownOp a page op arg => execMbxUnknownOp_keeps (Keeps.refl s) a page op arg
  | .mbxWriteWhileBusy a page n v => execMbxWriteWhileBusy_keeps (Keeps.refl s) a page n v
  | .mbxComplete page => execMbxComplete_keeps (Keeps.refl s) page
  | .indAddrWrite a page v => execIndAddrWrite_keeps (Keeps.refl s) a page v
  | .indDataRead a page => execIndDataRead_keeps (Keeps.refl s) a page
  | .indDataWrite a page v => execIndDataWrite_keeps (Keeps.refl s) a page v
  | .indAccessComplete page => execIndAccessComplete_keeps (Keeps.refl s) page
  | .indTimeout a page => execIndTimeout_keeps (Keeps.refl s) a page
  | .softReset a page => execSoftReset_keeps (Keeps.refl s) a page
  | .freezeWrite a page on => execFreezeWrite_keeps (Keeps.refl s) a page on
  | .enableWrite a page on => execEnableWrite_keeps (Keeps.refl s) a page on
  | .irqPendWrite a page v edges => execIrqPendWrite_keeps (Keeps.refl s) a page v edges
  | .counterClear a page => execCounterClear_keeps (Keeps.refl s) a page
  | .qualFailRepost r => execQualFailRepost_keeps (Keeps.refl s) r
  | .readTime _a => execReadTime_keeps (Keeps.refl s) _a
  | .adjPhase a => execAdjPhase_keeps (Keeps.refl s) a
  | .adjRate a => execAdjRate_keeps (Keeps.refl s) a
  | .stepForce => execStepForce_keeps (Keeps.refl s)
  | .setTime => execSetTime_keeps (Keeps.refl s)
  | .setState a arg => execSetState_keeps (Keeps.refl s) a arg
  | .slewStep => execSlewStep_keeps (Keeps.refl s)
  | .uncGrowthTick => execUncGrowthTick_keeps (Keeps.refl s)
  | .syncReceive => execSyncReceive_keeps (Keeps.refl s)
  | .announceReceive => execAnnounceReceive_keeps (Keeps.refl s)
  | .announceReceiptTimeout => execAnnounceReceiptTimeout_keeps (Keeps.refl s)
  | .syncTimeout => execSyncTimeout_keeps (Keeps.refl s)
  | .syncSend announce => execSyncSend_keeps (Keeps.refl s) announce
  | .pdelayReqSend => execPdelayReqSend_keeps (Keeps.refl s)
  | .pdelayReqReceive => execPdelayReqReceive_keeps (Keeps.refl s)
  | .pdelayRespReceive port count => execPdelayRespReceive_keeps (Keeps.refl s) port count
  | .ppsPulse src edge width => execPpsPulse_keeps (Keeps.refl s) src edge width
  | .ppsSourceLost src => execPpsSourceLost_keeps (Keeps.refl s) src
  | .irigFrame c b t result => execIrigFrame_keeps (Keeps.refl s) c b t result
  | .irigSourceLost c => execIrigSourceLost_keeps (Keeps.refl s) c
  | .lineTransition k d => execLineTransition_keeps (Keeps.refl s) k d
  | .edgeQualified k => execEdgeQualified_keeps (Keeps.refl s) k
  | .stampTransfer t => execStampTransfer_keeps (Keeps.refl s) t
  | .stampDataRead t => execStampDataRead_keeps (Keeps.refl s) t
  | .stampCfgWrite t v => execStampCfgWrite_keeps (Keeps.refl s) t v
  | .stampUnderrunClear t => execStampUnderrunClear_keeps (Keeps.refl s) t
  | .loadTimes arg => execLoadTimes_keeps (Keeps.refl s) arg
  | .loadCtrl arg => execLoadCtrl_keeps (Keeps.refl s) arg
  | .winArm arg => execWinArm_keeps (Keeps.refl s) arg
  | .winDisarm arg => execWinDisarm_keeps (Keeps.refl s) arg
  | .readTimes arg => execReadTimes_keeps (Keeps.refl s) arg
  | .readCtrl arg => execReadCtrl_keeps (Keeps.refl s) arg
  | .trigger arg => execTrigger_keeps (Keeps.refl s) arg
  | .windowStateChange w => execWindowStateChange_keeps (Keeps.refl s) w
  | .windowClassify k => execWindowClassify_keeps (Keeps.refl s) k
  | .drlLoadTime arg => execDrlLoadTime_keeps (Keeps.refl s) arg
  | .drlLoadAction arg => execDrlLoadAction_keeps (Keeps.refl s) arg
  | .drlArm arg ecc => execDrlArm_keeps (Keeps.refl s) arg ecc
  | .drlDisarm arg => execDrlDisarm_keeps (Keeps.refl s) arg
  | .drlReadTime arg ecc => execDrlReadTime_keeps (Keeps.refl s) arg ecc
  | .drlReadAction arg ecc => execDrlReadAction_keeps (Keeps.refl s) arg ecc
  | .drlReadState arg ecc => execDrlReadState_keeps (Keeps.refl s) arg ecc
  | .drlClear arg => execDrlClear_keeps (Keeps.refl s) arg
  | .drillPrepare n ecc => execDrillPrepare_keeps (Keeps.refl s) n ecc
  | .drillFire n lateNs lateRun ecc => execDrillFire_keeps (Keeps.refl s) n lateNs lateRun ecc
  | .pulseEnd k inLatch inCommand => execPulseEnd_keeps (Keeps.refl s) k inLatch inCommand
  | .vddioWindowChange t v => execVddioWindowChange_keeps (Keeps.refl s) t v
  | .bankCheckFail t => execBankCheckFail_keeps (Keeps.refl s) t
  | .bankCheckClear t => execBankCheckClear_keeps (Keeps.refl s) t
  | .bankCfgWrite t v => execBankCfgWrite_keeps (Keeps.refl s) t v
  | .tileClockLock t => execTileClockLock_keeps (Keeps.refl s) t
  | .tileClockLockTimeout t => execTileClockLockTimeout_keeps (Keeps.refl s) t
  | .tileClockStop t => execTileClockStop_keeps (Keeps.refl s) t
  | .funcWrite c v => execFuncWrite_keeps (Keeps.refl s) c v
  | .outSet c v => execOutSet_keeps (Keeps.refl s) c v
  | .outClr c v => execOutClr_keeps (Keeps.refl s) c v
  | .safeEnter c v => execSafeEnter_keeps (Keeps.refl s) c v
  | .safeRelease c v => execSafeRelease_keeps (Keeps.refl s) c v
  | .maxWidthExpiry k => execMaxWidthExpiry_keeps (Keeps.refl s) k
  | .idleExpiry k => execIdleExpiry_keeps (Keeps.refl s) k
  | .leakTick k => execLeakTick_keeps (Keeps.refl s) k
  | .readbackMismatch k => execReadbackMismatch_keeps (Keeps.refl s) k
  | .ctrCapture c => execCtrCapture_keeps (Keeps.refl s) c
  | .ctrZero c => execCtrZero_keeps (Keeps.refl s) c
  | .periodicCapture c => execPeriodicCapture_keeps (Keeps.refl s) c
  | .rxDataRead u => execRxDataRead_keeps (Keeps.refl s) u
  | .rxDropRest u => execRxDropRest_keeps (Keeps.refl s) u
  | .rxFlush u => execRxFlush_keeps (Keeps.refl s) u
  | .rxUnderClr u => execRxUnderClr_keeps (Keeps.refl s) u
  | .txDataWrite c w => execTxDataWrite_keeps (Keeps.refl s) c w
  | .txDropRest c => execTxDropRest_keeps (Keeps.refl s) c
  | .txFlush c => execTxFlush_keeps (Keeps.refl s) c
  | .txUnderClr c => execTxUnderClr_keeps (Keeps.refl s) c
  | .halt c d => execHalt_keeps (Keeps.refl s) c d
  | .shiftOut c d => execShiftOut_keeps (Keeps.refl s) c d
  | .shiftIn c d => execShiftIn_keeps (Keeps.refl s) c d
  | .drive c d => execDrive_keeps (Keeps.refl s) c d
  | .sample c d => execSample_keeps (Keeps.refl s) c d
  | .load c d => execLoad_keeps (Keeps.refl s) c d
  | .branch c d => execBranch_keeps (Keeps.refl s) c d
  | .wait c d => execWait_keeps (Keeps.refl s) c d
  | .waitEnd c d => execWaitEnd_keeps (Keeps.refl s) c d
  | .waitTimeMark c d => execWaitTimeMark_keeps (Keeps.refl s) c d
  | .engineMarkPrepare c => execEngineMarkPrepare_keeps (Keeps.refl s) c
  | .push c d => execPush_keeps (Keeps.refl s) c d
  | .pull c d => execPull_keeps (Keeps.refl s) c d
  | .stamp c d => execStamp_keeps (Keeps.refl s) c d
  | .markSetFlag c d => execMarkSetFlag_keeps (Keeps.refl s) c d
  | .markClearFlag c d => execMarkClearFlag_keeps (Keeps.refl s) c d
  | .markPost c d => execMarkPost_keeps (Keeps.refl s) c d
  | .stallEnd c d cycles => execStallEnd_keeps (Keeps.refl s) c d cycles
  | .engStart c => execEngStart_keeps (Keeps.refl s) c
  | .engHalt c => execEngHalt_keeps (Keeps.refl s) c
  | .engineReset c => execEngineReset_keeps (Keeps.refl s) c
  | .commitAtWrap c => execCommitAtWrap_keeps (Keeps.refl s) c
  | .commitImmediate c a => execCommitImmediate_keeps (Keeps.refl s) c a
  | .commitSwap c d => execCommitSwap_keeps (Keeps.refl s) c d
  | .cancelCommit c => execCancelCommit_keeps (Keeps.refl s) c
  | .copyActive c => execCopyActive_keeps (Keeps.refl s) c
  | .copyDone c => execCopyDone_keeps (Keeps.refl s) c
  | .grpStart => execGrpStart_keeps (Keeps.refl s)
  | .startEventAct k d => execStartEventAct_keeps (Keeps.refl s) k d
  | .engSegWrite c v => execEngSegWrite_keeps (Keeps.refl s) c v
  | .progDataWrite c v => execProgDataWrite_keeps (Keeps.refl s) c v
  | .engFlagSet c v => execEngFlagSet_keeps (Keeps.refl s) c v
  | .engFlagClr c v setToo => execEngFlagClr_keeps (Keeps.refl s) c v setToo
  | .engMarkWrite c v => execEngMarkWrite_keeps (Keeps.refl s) c v
  | .engOsrWrite c v => execEngOsrWrite_keeps (Keeps.refl s) c v
  | .ruleEvaluate d ecc => execRuleEvaluate_keeps (Keeps.refl s) d ecc
  | .ruleTick n => execRuleTick_keeps (Keeps.refl s) n
  | .loadTermsA arg => execLoadTermsA_keeps (Keeps.refl s) arg
  | .loadTermsB arg => execLoadTermsB_keeps (Keeps.refl s) arg
  | .loadAct arg => execLoadAct_keeps (Keeps.refl s) arg
  | .rfxArm arg ecc => execRfxArm_keeps (Keeps.refl s) arg ecc
  | .rfxDisarm arg => execRfxDisarm_keeps (Keeps.refl s) arg
  | .readTermsA arg ecc => execReadTermsA_keeps (Keeps.refl s) arg ecc
  | .readTermsB arg ecc => execReadTermsB_keeps (Keeps.refl s) arg ecc
  | .readAct arg ecc => execReadAct_keeps (Keeps.refl s) arg ecc
  | .rfxClear arg => execRfxClear_keeps (Keeps.refl s) arg
  | .swfSet v => execSwfSet_keeps (Keeps.refl s) v
  | .swfClr v => execSwfClr_keeps (Keeps.refl s) v
  | .loadPub arg => execLoadPub_keeps (Keeps.refl s) arg
  | .setValue arg => execSetValue_keeps (Keeps.refl s) arg
  | .readPub arg => execReadPub_keeps (Keeps.refl s) arg
  | .loadSub arg => execLoadSub_keeps (Keeps.refl s) arg
  | .readSub arg => execReadSub_keeps (Keeps.refl s) arg
  | .readSubcfg arg => execReadSubcfg_keeps (Keeps.refl s) arg
  | .clearSub arg => execClearSub_keeps (Keeps.refl s) arg
  | .readPubcfg arg => execReadPubcfg_keeps (Keeps.refl s) arg
  | .heartbeatScan => execHeartbeatScan_keeps (Keeps.refl s)
  | .signalFrameReceive => execSignalFrameReceive_keeps (Keeps.refl s)
  | .subscriptionStale n => execSubscriptionStale_keeps (Keeps.refl s) n
  | .frameReceive port w => execFrameReceive_keeps (Keeps.refl s) port w
  | .egressTransmitStart port ecc => execEgressTransmitStart_keeps (Keeps.refl s) port ecc
  | .frameTransmitEnd port ecc => execFrameTransmitEnd_keeps (Keeps.refl s) port ecc
  | .preemption port => execPreemption_keeps (Keeps.refl s) port
  | .trainingComplete port fec txeq rxeq => execTrainingComplete_keeps (Keeps.refl s) port fec txeq rxeq
  | .trainingTimeout port => execTrainingTimeout_keeps (Keeps.refl s) port
  | .blockLockAcquired port => execBlockLockAcquired_keeps (Keeps.refl s) port
  | .lockingTimeout port => execLockingTimeout_keeps (Keeps.refl s) port
  | .upHoldExpiry port => execUpHoldExpiry_keeps (Keeps.refl s) port
  | .linkDownCondition port event => execLinkDownCondition_keeps (Keeps.refl s) port event
  | .holdDownExpiry port => execHoldDownExpiry_keeps (Keeps.refl s) port
  | .dupEntryAge headland src => execDupEntryAge_keeps (Keeps.refl s) headland src
  | .quietPeriodEnd => execQuietPeriodEnd_keeps (Keeps.refl s)
  | .fpCheckClear port check => execFpCheckClear_keeps (Keeps.refl s) port check
  | .prbsErrRead port => execPrbsErrRead_keeps (Keeps.refl s) port
  | .idCfgWrite v => execIdCfgWrite_keeps (Keeps.refl s) v
  | .farIdWrite v => execFarIdWrite_keeps (Keeps.refl s) v
  | .idActivate far => execIdActivate_keeps (Keeps.refl s) far
  | .neighbourSend => execNeighbourSend_keeps (Keeps.refl s)
  | .supervisionSend far => execSupervisionSend_keeps (Keeps.refl s) far
  | .ringMgmtReceive => execRingMgmtReceive_keeps (Keeps.refl s)
  | .neighbourSilent port => execNeighbourSilent_keeps (Keeps.refl s) port
  | .stationTimeout n => execStationTimeout_keeps (Keeps.refl s) n
  | .supervisionMissed far => execSupervisionMissed_keeps (Keeps.refl s) far
  | .hsrSupervisionSend => execHsrSupervisionSend_keeps (Keeps.refl s)
  | .copyWrite => execCopyWrite_keeps (Keeps.refl s)
  | .replicationTimeout k => execReplicationTimeout_keeps (Keeps.refl s) k
  | .mirrorCopyTimeout k => execMirrorCopyTimeout_keeps (Keeps.refl s) k
  | .pushoutRepost port => execPushoutRepost_keeps (Keeps.refl s) port
  | .migration port cls => execMigration_keeps (Keeps.refl s) port cls
  | .storeReadback port cls ecc => execStoreReadback_keeps (Keeps.refl s) port cls ecc
  | .storeCfgWrite size v => execStoreCfgWrite_keeps (Keeps.refl s) size v
  | .bufMarksWrite spill v => execBufMarksWrite_keeps (Keeps.refl s) spill v
  | .ddrTrainingDone fail => execDdrTrainingDone_keeps (Keeps.refl s) fail
  | .requestIssue q user => execRequestIssue_keeps (Keeps.refl s) q user
  | .tagStallEnd => execTagStallEnd_keeps (Keeps.refl s)
  | .transactionFrameReceive => execTransactionFrameReceive_keeps (Keeps.refl s)
  | .gapLost source => execGapLost_keeps (Keeps.refl s) source
  | .streamAgeExpiry source => execStreamAgeExpiry_keeps (Keeps.refl s) source
  | .requestExecute ecc => execRequestExecute_keeps (Keeps.refl s) ecc
  | .postedWriteExecute ecc => execPostedWriteExecute_keeps (Keeps.refl s) ecc
  | .messageExecute => execMessageExecute_keeps (Keeps.refl s)
  | .discardReceive => execDiscardReceive_keeps (Keeps.refl s)
  | .completionReceive => execCompletionReceive_keeps (Keeps.refl s)
  | .retryTimer t => execRetryTimer_keeps (Keeps.refl s) t
  | .busyBackoffExpiry t => execBusyBackoffExpiry_keeps (Keeps.refl s) t
  | .npTimeout t => execNpTimeout_keeps (Keeps.refl s) t
  | .ccHoldExpiry source code tag => execCcHoldExpiry_keeps (Keeps.refl s) source code tag
  | .lostReportReceive => execLostReportReceive_keeps (Keeps.refl s)
  | .eventReportReceive => execEventReportReceive_keeps (Keeps.refl s)
  | .msgDataRead => execMsgDataRead_keeps (Keeps.refl s)
  | .msgUnderClr => execMsgUnderClr_keeps (Keeps.refl s)
  | .stateReceive m => execStateReceive_keeps (Keeps.refl s) m
  | .releaseReceive m => execReleaseReceive_keeps (Keeps.refl s) m
  | .hoReqReceive m => execHoReqReceive_keeps (Keeps.refl s) m
  | .hoAckReceive m => execHoAckReceive_keeps (Keeps.refl s) m
  | .hoCancelReceive m => execHoCancelReceive_keeps (Keeps.refl s) m
  | .echoReceive m residence => execEchoReceive_keeps (Keeps.refl s) m residence
  | .echoReplyReceive m roundTrip => execEchoReplyReceive_keeps (Keeps.refl s) m roundTrip
  | .plkAlignTimeout => execPlkAlignTimeout_keeps (Keeps.refl s)
  | .plkHoldExpiry => execPlkHoldExpiry_keeps (Keeps.refl s)
  | .plkDownCondition cause => execPlkDownCondition_keeps (Keeps.refl s) cause
  | .partnerSilent => execPartnerSilent_keeps (Keeps.refl s)
  | .stateSend => execStateSend_keeps (Keeps.refl s)
  | .echoSend => execEchoSend_keeps (Keeps.refl s)
  | .leaseExpiry => execLeaseExpiry_keeps (Keeps.refl s)
  | .startingTimeout => execStartingTimeout_keeps (Keeps.refl s)
  | .takeoverComplete => execTakeoverComplete_keeps (Keeps.refl s)
  | .selfExpiry => execSelfExpiry_keeps (Keeps.refl s)
  | .peerOwnChange level => execPeerOwnChange_keeps (Keeps.refl s) level
  | .leaseConflict => execLeaseConflict_keeps (Keeps.refl s)
  | .ownOutReadbackFault differs => execOwnOutReadbackFault_keeps (Keeps.refl s) differs
  | .releaseConfirm => execReleaseConfirm_keeps (Keeps.refl s)
  | .compareFail => execCompareFail_keeps (Keeps.refl s)
  | .compareClear => execCompareClear_keeps (Keeps.refl s)
  | .faultClr v => execFaultClr_keeps (Keeps.refl s) v
  | .faultSet v => execFaultSet_keeps (Keeps.refl s) v
  | .revertHoldExpiry => execRevertHoldExpiry_keeps (Keeps.refl s)
  | .handoverTime => execHandoverTime_keeps (Keeps.refl s)
  | .handoverRetakeCheck => execHandoverRetakeCheck_keeps (Keeps.refl s)
  | .timingWrite v => execTimingWrite_keeps (Keeps.refl s) v
  | .canFrameReceived n f t => execCanFrameReceived_keeps (Keeps.refl s) n f t
  | .canRxError n e dataPhase eight => execCanRxError_keeps (Keeps.refl s) n e dataPhase eight
  | .canArbitrationStart n sof => execCanArbitrationStart_keeps (Keeps.refl s) n sof
  | .canArbitrationLost n => execCanArbitrationLost_keeps (Keeps.refl s) n
  | .canTxSuccess n tdcv => execCanTxSuccess_keeps (Keeps.refl s) n tdcv
  | .canTxError n e dataPhase held => execCanTxError_keeps (Keeps.refl s) n e dataPhase held
  | .canProtocolException n => execCanProtocolException_keeps (Keeps.refl s) n
  | .canBusIdle n => execCanBusIdle_keeps (Keeps.refl s) n
  | .canRecoveryComplete n => execCanRecoveryComplete_keeps (Keeps.refl s) n
  | .canInitEntry n => execCanInitEntry_keeps (Keeps.refl s) n
  | .txreq n v => execTxreq_keeps (Keeps.refl s) n v
  | .txcancel n v => execTxcancel_keeps (Keeps.refl s) n v
  | .txresClr n v => execTxresClr_keeps (Keeps.refl s) n v
  | .canTxDataWrite n w => execCanTxDataWrite_keeps (Keeps.refl s) n w
  | .canTxFlush n => execCanTxFlush_keeps (Keeps.refl s) n
  | .canRecover n => execCanRecover_keeps (Keeps.refl s) n
  | .canMbWrite n m k v => execCanMbWrite_keeps (Keeps.refl s) n m k v
  | .uartCharReceive c data t fault => execUartCharReceive_keeps (Keeps.refl s) c data t fault
  | .uartGapExpiry c => execUartGapExpiry_keeps (Keeps.refl s) c
  | .uartTxStart c => execUartTxStart_keeps (Keeps.refl s) c
  | .uartTxEnd c => execUartTxEnd_keeps (Keeps.refl s) c
  | .spiTransactionStart c => execSpiTransactionStart_keeps (Keeps.refl s) c
  | .spiTransactionEnd c rx => execSpiTransactionEnd_keeps (Keeps.refl s) c rx
  | .spiCsAssert c => execSpiCsAssert_keeps (Keeps.refl s) c
  | .spiCsRelease c rx partial_ => execSpiCsRelease_keeps (Keeps.refl s) c rx partial_
  | .i2cTransactionStart c => execI2cTransactionStart_keeps (Keeps.refl s) c
  | .i2cTransactionEnd c result acked read => execI2cTransactionEnd_keeps (Keeps.refl s) c result acked read
  | .smbusTimeout c acked read => execSmbusTimeout_keeps (Keeps.refl s) c acked read
  | .i2cBusClear c => execI2cBusClear_keeps (Keeps.refl s) c
  | .ppsOutStart c => execPpsOutStart_keeps (Keeps.refl s) c
  | .ppsOutEnd c => execPpsOutEnd_keeps (Keeps.refl s) c
  | .perstDeassert => execPerstDeassert_keeps (Keeps.refl s)
  | .cfgRetryTimeout => execCfgRetryTimeout_keeps (Keeps.refl s)
  | .hostConfigRequest q => execHostConfigRequest_keeps (Keeps.refl s) q
  | .hostMemoryRead bar off len bad => execHostMemoryRead_keeps (Keeps.refl s) bar off len bad
  | .hostMemoryWrite bar off data bad => execHostMemoryWrite_keeps (Keeps.refl s) bar off data bad
  | .msixUnmask v => execMsixUnmask_keeps (Keeps.refl s) v
  | .hostReadAbandon num => execHostReadAbandon_keeps (Keeps.refl s) num
  | .hostReset cause => execHostReset_keeps (Keeps.refl s) cause
  | .hostLinkUp speed width => execHostLinkUp_keeps (Keeps.refl s) speed width
  | .hostCompletionReceive c off r => execHostCompletionReceive_keeps (Keeps.refl s) c off r
  | .hostReadTimeout c off => execHostReadTimeout_keeps (Keeps.refl s) c off
  | .qCfgWrite n v => execQCfgWrite_keeps (Keeps.refl s) n v
  | .qCiWrite n v => execQCiWrite_keeps (Keeps.refl s) n v
  | .evqHoldoffExpiry n => execEvqHoldoffExpiry_keeps (Keeps.refl s) n
  | .postCmd v => execPostCmd_keeps (Keeps.refl s) v
  | .dcRunWrite c v => execDcRunWrite_keeps (Keeps.refl s) c v
  | .dcTailWrite c v => execDcTailWrite_keeps (Keeps.refl s) c v
  | .dcReset c => execDcReset_keeps (Keeps.refl s) c
  | .dmaDescriptorExecute c fetched => execDmaDescriptorExecute_keeps (Keeps.refl s) c fetched
  | .dmaDescriptorComplete c => execDmaDescriptorComplete_keeps (Keeps.refl s) c
  | .icuClaim t a => execIcuClaim_keeps (Keeps.refl s) t a
  | .icuComplete t a v => execIcuComplete_keeps (Keeps.refl s) t a v
  | .thresholdWrite t a v => execThresholdWrite_keeps (Keeps.refl s) t a v
  | .swset t a v => execSwset_keeps (Keeps.refl s) t a v
  | .srcCfgWrite k a v => execSrcCfgWrite_keeps (Keeps.refl s) k a v
  | .privCfgWrite t j a v => execPrivCfgWrite_keeps (Keeps.refl s) t j a v
  | .ipi t a v => execIpi_keeps (Keeps.refl s) t a v
  | .tmrWrite t k a v => execTmrWrite_keeps (Keeps.refl s) t k a v
  | .timerExpiry t k => execTimerExpiry_keeps (Keeps.refl s) t k
  | .holdoffEnd g => execHoldoffEnd_keeps (Keeps.refl s) g
  | .lockstepMiscompare n pc output => execLockstepMiscompare_keeps (Keeps.refl s) n pc output
  | .pairAutoRestart n => execPairAutoRestart_keeps (Keeps.refl s) n
  | .lockstepFaultForget n => execLockstepFaultForget_keeps (Keeps.refl s) n
  | .watchdogKick n v pc => execWatchdogKick_keeps (Keeps.refl s) n v pc
  | .watchdogWarning n => execWatchdogWarning_keeps (Keeps.refl s) n
  | .watchdogExpiry n pc => execWatchdogExpiry_keeps (Keeps.refl s) n pc
  | .memoryScrub m ecc => execMemoryScrub_keeps (Keeps.refl s) m ecc
  | .eccReportRepost page mem uncorr => execEccReportRepost_keeps (Keeps.refl s) page mem uncorr
  | .coreCtrlReset v => execCoreCtrlReset_keeps (Keeps.refl s) v
  | .coreCtrlRun v => execCoreCtrlRun_keeps (Keeps.refl s) v
  | .nodeStart octal => execNodeStart_keeps (Keeps.refl s) octal
  | .svcCommit slot => execSvcCommit_keeps (Keeps.refl s) slot
  | .svcMigrateCommit slot => execSvcMigrateCommit_keeps (Keeps.refl s) slot
  | .stage slot => execStage_keeps (Keeps.refl s) slot
  | .svcReboot slot => execSvcReboot_keeps (Keeps.refl s) slot
  | .readRecord slot => execReadRecord_keeps (Keeps.refl s) slot
  | .writeRecord slot => execWriteRecord_keeps (Keeps.refl s) slot
  | .migrateDone slot => execMigrateDone_keeps (Keeps.refl s) slot
  | .bootCommitField => execBootCommitField_keeps (Keeps.refl s)
  | .bootCommitKeeper => execBootCommitKeeper_keeps (Keeps.refl s)
  | .bootMigrateCommit => execBootMigrateCommit_keeps (Keeps.refl s)
  | .trialTimeLimit => execTrialTimeLimit_keeps (Keeps.refl s)
  | .ospiRead fail => execOspiRead_keeps (Keeps.refl s) fail
  | .program fail => execProgram_keeps (Keeps.refl s) fail
  | .erase4k fail => execErase4k_keeps (Keeps.refl s) fail
  | .erase64k fail => execErase64k_keeps (Keeps.refl s) fail
  | .readSfdp fail => execReadSfdp_keeps (Keeps.refl s) fail
  | .protWrite n a v => execProtWrite_keeps (Keeps.refl s) n a v
  | .revoke arg otpFail => execRevoke_keeps (Keeps.refl s) arg otpFail
  | .advance arg otpFail => execAdvance_keeps (Keeps.refl s) arg otpFail
  | .blowFuse arg otpFail => execBlowFuse_keeps (Keeps.refl s) arg otpFail
  | .shaInit => execShaInit_keeps (Keeps.refl s)
  | .shaUpdate arg => execShaUpdate_keeps (Keeps.refl s) arg
  | .shaFinal => execShaFinal_keeps (Keeps.refl s)
  | .verify => execVerify_keeps (Keeps.refl s)
  | .feedVoltageChange b mv vbus => execFeedVoltageChange_keeps (Keeps.refl s) b mv vbus
  | .feedUvMark b => execFeedUvMark_keeps (Keeps.refl s) b
  | .feedSettleExpiry b => execFeedSettleExpiry_keeps (Keeps.refl s) b
  | .reverseCurrent b diff => execReverseCurrent_keeps (Keeps.refl s) b diff
  | .seatPinChange b asserted => execSeatPinChange_keeps (Keeps.refl s) b asserted
  | .seatDebounceComplete => execSeatDebounceComplete_keeps (Keeps.refl s)
  | .seatReleaseTimeout => execSeatReleaseTimeout_keeps (Keeps.refl s)
  | .rampStart => execRampStart_keeps (Keeps.refl s)
  | .rampComplete => execRampComplete_keeps (Keeps.refl s)
  | .limitTimeout shunt => execLimitTimeout_keeps (Keeps.refl s) shunt
  | .fastTrip shunt vout => execFastTrip_keeps (Keeps.refl s) shunt vout
  | .thermalModelStep vbus vout shuntUv => execThermalModelStep_keeps (Keeps.refl s) vbus vout shuntUv
  | .tsMeasure t => execTsMeasure_keeps (Keeps.refl s) t
  | .retryTimerExpiry => execRetryTimerExpiry_keeps (Keeps.refl s)
  | .retryForget => execRetryForget_keeps (Keeps.refl s)
  | .pwrStart => execPwrStart_keeps (Keeps.refl s)
  | .pwrStop => execPwrStop_keeps (Keeps.refl s)
  | .unlatch => execUnlatch_keeps (Keeps.refl s)
  | .dyingGaspDecision us => execDyingGaspDecision_keeps (Keeps.refl s) us
  | .dyingGaspEnd => execDyingGaspEnd_keeps (Keeps.refl s)
  | .railStepEnable => execRailStepEnable_keeps (Keeps.refl s)
  | .railStepDisable => execRailStepDisable_keeps (Keeps.refl s)
  | .railPgChange r level => execRailPgChange_keeps (Keeps.refl s) r level
  | .pgTimeout r => execPgTimeout_keeps (Keeps.refl s) r
  | .pgLost r => execPgLost_keeps (Keeps.refl s) r
  | .adcConversion c code => execAdcConversion_keeps (Keeps.refl s) c code
  | .adcArmTimeout c => execAdcArmTimeout_keeps (Keeps.refl s) c
  | .clockMonitorFail n hz => execClockMonitorFail_keeps (Keeps.refl s) n hz
  | .clockMonitorClear n hz => execClockMonitorClear_keeps (Keeps.refl s) n hz
  | .pllLockLost p hz => execPllLockLost_keeps (Keeps.refl s) p hz
  | .pllRelock p hz => execPllRelock_keeps (Keeps.refl s) p hz
  | .stateReqActive a => execStateReqActive_keeps (Keeps.refl s) a
  | .stateReqFallow a => execStateReqFallow_keeps (Keeps.refl s) a
  | .stateReqDormant a => execStateReqDormant_keeps (Keeps.refl s) a
  | .fallowAutoWake access => execFallowAutoWake_keeps (Keeps.refl s) access
  | .dormantWake w => execDormantWake_keeps (Keeps.refl s) w
  | .aoPor => execAoPor_keeps (Keeps.refl s)
  | .vddAoLoss => execVddAoLoss_keeps (Keeps.refl s)
  | .hubDiePowerLoss => execHubDiePowerLoss_keeps (Keeps.refl s)
  | .rstNAssert => execRstNAssert_keeps (Keeps.refl s)
  | .reboot a v => execReboot_keeps (Keeps.refl s) a v
  | .strapSample v => execStrapSample_keeps (Keeps.refl s) v
  | .tclkEdge => execTclkEdge_keeps (Keeps.refl s)
  | .xt32Edge => execXt32Edge_keeps (Keeps.refl s)
  | .followUpReceive => execFollowUpReceive_keeps (Keeps.refl s)
  | .illegalInstruction c d => execIllegalInstruction_keeps (Keeps.refl s) c d
  | .engineFetchEcc c d ecc => execEngineFetchEcc_keeps (Keeps.refl s) c d ecc
  | .plkMessageRejected m => execPlkMessageRejected_keeps (Keeps.refl s) m
  | .plkLaneAlignment lane0 lane1 => execPlkLaneAlignment_keeps (Keeps.refl s) lane0 lane1
  | .streamEntryIdleExpiry dst => execStreamEntryIdleExpiry_keeps (Keeps.refl s) dst

end Sys2Proof.Machine
end

