-- ==== Sys2Proof/Laws/Frame.lean ====
section
/-! SUPPORT. The laws of frames: which register is of which group, and what an update of one field may change. -/

namespace Sys2Proof.Machine

theorem Frame.refl (P : Part → Prop) (s : State) : Frame P s s := by
  constructor <;> first | exact fun _ => rfl | exact fun _ _ => rfl | exact fun _ _ _ _ _ => rfl | exact fun _ _ _ _ _ => Or.inl rfl

/-- A register that says where an event queue lies: five words of each queue. -/
def EvCfg (k : Nat) : Prop := ∃ n j, n < 16 ∧ j < 5 ∧ k = Reg.evqQCfg n + 4 * j

/-- CTRL, IRQ_MASK or IRQ_GROUP of a page. -/
def LowKey (k : Nat) : Prop := ∃ page off, page < 0x100 ∧ (off = 0x008 ∨ off = 0x014 ∨ off = 0x018) ∧ k = pageKey page off

/-- No register of a bank is one of `Q`. -/
def Away (Q f : Nat → Prop) : Prop := ∀ k, f k → ¬ Q k

theorem Away.one {Q : Nat → Prop} {r : Nat} (h : ¬ Q r) : Away Q (Bank.one r) := fun _ e => e ▸ h
theorem Away.all {Q : Nat → Prop} {f : Nat → Nat} (h : ∀ i, ¬ Q (f i)) : Away Q (Bank.all f) := fun _ ⟨i, e⟩ => e ▸ h i
theorem Away.below {Q : Nat → Prop} {b : Nat} {f : Nat → Nat} (h : ∀ i, i < b → ¬ Q (f i)) : Away Q (Bank.below b f) :=
  fun _ ⟨i, hi, e⟩ => e ▸ h i hi
theorem Away.all2 {Q : Nat → Prop} {f : Nat → Nat → Nat} (h : ∀ i j, ¬ Q (f i j)) : Away Q (Bank.all2 f) := fun _ ⟨i, j, e⟩ => e ▸ h i j
theorem Away.below2 {Q : Nat → Prop} {b : Nat} {f : Nat → Nat → Nat} (h : ∀ i j, j < b → ¬ Q (f i j)) : Away Q (Bank.below2 b f) :=
  fun _ ⟨i, j, hj, e⟩ => e ▸ h i j hj
theorem Away.grid {Q : Nat → Prop} {a b : Nat} {f : Nat → Nat → Nat} (h : ∀ i j, i < a → j < b → ¬ Q (f i j)) : Away Q (Bank.grid a b f) :=
  fun _ ⟨i, j, hi, hj, e⟩ => e ▸ h i j hi hj

theorem Part.has_away {Q : Nat → Prop} {p : Part} {k : Nat} (ha : ∀ f, f ∈ p.banks → Away Q f) (hk : p.has k) (h : Q k) : False := by
  obtain ⟨f, hf, hk⟩ := hk
  exact ha f hf k hk h

/-- A register of the group's bank number `n`. -/
theorem RegIn.of {P : Part → Prop} {p : Part} {f : Nat → Prop} {k : Nat} (h : P p) (n : Nat) (e : p.banks[n]? = some f) (hf : f k) :
    RegIn P k := ⟨p, h, f, List.mem_of_getElem? e, hf⟩

theorem Part.regIrq_away : ∀ f, f ∈ Part.banks .regIrq → Away (fun k => EvCfg k ∨ LowKey k) f := by
  delta Part.banks
  simp only [List.forall_mem_cons, List.not_mem_nil, false_implies, implies_true, and_true]
  refine Away.all fun i => ?_
  rintro (⟨m, q, hm, hq, e⟩ | ⟨m, q, hm, hq, e⟩)
  · dsimp only [Reg.evqQCfg, pageKey, indKey, Reg.irqPend] at e
    omega
  · dsimp only [pageKey, indKey, Reg.irqPend] at e
    omega

theorem Part.regMbx_away : ∀ f, f ∈ Part.banks .regMbx → Away (fun k => EvCfg k ∨ LowKey k) f := by
  delta Part.banks
  simp only [List.forall_mem_cons, List.not_mem_nil, false_implies, implies_true, and_true]
  and_intros
  all_goals (first | refine Away.all fun i => ?_ | refine Away.below2 fun i j hj => ?_)
  all_goals
    rintro (⟨m, q, hm, hq, e⟩ | ⟨m, q, hm, hq, e⟩)
    · dsimp only [Reg.evqQCfg, pageKey, indKey, Reg.mbxD, Reg.mbxFlag] at e
      omega
    · dsimp only [pageKey, indKey, Reg.mbxD, Reg.mbxFlag] at e
      omega

theorem Part.regCtrl_away : ∀ f, f ∈ Part.banks .regCtrl → Away (EvCfg) f := by
  delta Part.banks
  simp only [List.forall_mem_cons, List.not_mem_nil, false_implies, implies_true, and_true]
  refine Away.all fun i => ?_
  rintro ⟨m, q, hm, hq, e⟩
  dsimp only [Reg.evqQCfg, pageKey, indKey, Reg.ctrl] at e
  omega

theorem Part.regStatus_away : ∀ f, f ∈ Part.banks .regStatus → Away (fun k => EvCfg k ∨ LowKey k) f := by
  delta Part.banks
  simp only [List.forall_mem_cons, List.not_mem_nil, false_implies, implies_true, and_true]
  refine Away.all fun i => ?_
  rintro (⟨m, q, hm, hq, e⟩ | ⟨m, q, hm, hq, e⟩)
  · dsimp only [Reg.evqQCfg, pageKey, indKey, Reg.status] at e
    omega
  · dsimp only [pageKey, indKey, Reg.status] at e
    omega

theorem Part.regInd_away : ∀ f, f ∈ Part.banks .regInd → Away (fun k => EvCfg k ∨ LowKey k) f := by
  delta Part.banks
  simp only [List.forall_mem_cons, List.not_mem_nil, false_implies, implies_true, and_true]
  refine Away.all fun i => ?_
  rintro (⟨m, q, hm, hq, e⟩ | ⟨m, q, hm, hq, e⟩)
  · dsimp only [Reg.evqQCfg, pageKey, indKey, Reg.indAddr] at e
    omega
  · dsimp only [pageKey, indKey, Reg.indAddr] at e
    omega

theorem Part.regAdc_away : ∀ f, f ∈ Part.banks .regAdc → Away (fun k => EvCfg k ∨ LowKey k) f := by
  delta Part.banks
  simp only [List.forall_mem_cons, List.not_mem_nil, false_implies, implies_true, and_true]
  and_intros
  all_goals refine Away.below fun i hi => ?_
  all_goals
    rintro (⟨m, q, hm, hq, e⟩ | ⟨m, q, hm, hq, e⟩)
    · dsimp only [Reg.evqQCfg, pageKey, indKey, Reg.adcChVal, Reg.adcCntFail] at e
      omega
    · dsimp only [pageKey, indKey, Reg.adcChVal, Reg.adcCntFail] at e
      omega

theorem Part.regBoot_away : ∀ f, f ∈ Part.banks .regBoot → Away (fun k => EvCfg k ∨ LowKey k) f := by
  delta Part.banks
  simp only [List.forall_mem_cons, List.not_mem_nil, false_implies, implies_true, and_true]
  and_intros
  all_goals refine Away.one ?_
  all_goals
    rintro (⟨m, q, hm, hq, e⟩ | ⟨m, q, hm, hq, e⟩)
    · dsimp only [Reg.evqQCfg, pageKey, indKey, Reg.bootAo, Reg.bootFieldVersion, Reg.bootKeeperVersion, Reg.bootStatus] at e
      omega
    · dsimp only [pageKey, indKey, Reg.bootAo, Reg.bootFieldVersion, Reg.bootKeeperVersion, Reg.bootStatus] at e
      omega

theorem Part.regBuf_away : ∀ f, f ∈ Part.banks .regBuf → Away (fun k => EvCfg k ∨ LowKey k) f := by
  delta Part.banks
  simp only [List.forall_mem_cons, List.not_mem_nil, false_implies, implies_true, and_true]
  and_intros
  all_goals (first | refine Away.one ?_ | refine Away.below fun i hi => ?_)
  all_goals
    rintro (⟨m, q, hm, hq, e⟩ | ⟨m, q, hm, hq, e⟩)
    · dsimp only [Reg.evqQCfg, pageKey, indKey, Reg.bufCntDropFloor, Reg.bufCntDropShare, Reg.bufCntEccDiscard, Reg.bufCntPushed, Reg.bufCntSpilled, Reg.bufCntStoreDrop, Reg.bufFloors, Reg.bufSpill, Reg.bufStoreBase, Reg.bufStorePeak, Reg.bufStoreSize] at e
      omega
    · dsimp only [pageKey, indKey, Reg.bufCntDropFloor, Reg.bufCntDropShare, Reg.bufCntEccDiscard, Reg.bufCntPushed, Reg.bufCntSpilled, Reg.bufCntStoreDrop, Reg.bufFloors, Reg.bufSpill, Reg.bufStoreBase, Reg.bufStorePeak, Reg.bufStoreSize] at e
      omega

theorem Part.regCan_away : ∀ f, f ∈ Part.banks .regCan → Away (fun k => EvCfg k ∨ LowKey k) f := by
  delta Part.banks
  simp only [List.forall_mem_cons, List.not_mem_nil, false_implies, implies_true, and_true]
  and_intros
  all_goals (first | refine Away.all fun i => ?_ | refine Away.all2 fun i j => ?_)
  all_goals
    rintro (⟨m, q, hm, hq, e⟩ | ⟨m, q, hm, hq, e⟩)
    · dsimp only [Reg.evqQCfg, pageKey, indKey, Reg.canCntAck, Reg.canCntArbLost, Reg.canCntBit, Reg.canCntBusOff, Reg.canCntCrc, Reg.canCntFiltered, Reg.canCntForm, Reg.canCntMbRefused, Reg.canCntRxOk, Reg.canCntRxOverrun, Reg.canCntStuff, Reg.canCntTxOk, Reg.canCntTxRewind, Reg.canLastErr, Reg.canTdcStatus, Reg.canTxdone, Reg.canTxfail, Reg.canTxpend, canPage] at e
      omega
    · dsimp only [pageKey, indKey, Reg.canCntAck, Reg.canCntArbLost, Reg.canCntBit, Reg.canCntBusOff, Reg.canCntCrc, Reg.canCntFiltered, Reg.canCntForm, Reg.canCntMbRefused, Reg.canCntRxOk, Reg.canCntRxOverrun, Reg.canCntStuff, Reg.canCntTxOk, Reg.canCntTxRewind, Reg.canLastErr, Reg.canTdcStatus, Reg.canTxdone, Reg.canTxfail, Reg.canTxpend, canPage] at e
      omega

theorem Part.regCh_away : ∀ f, f ∈ Part.banks .regCh → Away (fun k => EvCfg k ∨ LowKey k) f := by
  delta Part.banks
  simp only [List.forall_mem_cons, List.not_mem_nil, false_implies, implies_true, and_true]
  and_intros
  all_goals (first | refine Away.all fun i => ?_ | refine Away.below2 fun i j hj => ?_)
  all_goals
    rintro (⟨m, q, hm, hq, e⟩ | ⟨m, q, hm, hq, e⟩)
    · dsimp only [Reg.evqQCfg, pageKey, indKey, Reg.chCntBreak, Reg.chCntDriveConflict, Reg.chCntEdgeRate, Reg.chCntEngStall, Reg.chCntFraming, Reg.chCntGapErr, Reg.chCntI2cFail, Reg.chCntIdle, Reg.chCntIrigBad, Reg.chCntMaxWidth, Reg.chCntMinWidth, Reg.chCntParity, Reg.chCntPpsBad, Reg.chCntProgRefused, Reg.chCntProtRefused, Reg.chCntReadback, Reg.chCntRxBad, Reg.chCntRxDe, Reg.chCntRxDropped, Reg.chCntRxOverrun, Reg.chCntRxRewind, Reg.chCntRxUnderrun, Reg.chCntSmbTimeout, Reg.chCntSpiPartial, Reg.chCntStartIgnored, Reg.chCntTimeLate, Reg.chCntTxBad, Reg.chCntTxDropped, Reg.chCntTxOverrun, Reg.chCntTxRewind, Reg.chCntTxUnderrun, Reg.chCtrCap, Reg.chCtrCount, Reg.chEngCfg, Reg.chEngEntry, Reg.chEngMarkSec, Reg.chEngProgAddr, Reg.chEngSeg, Reg.chEngWrap, Reg.chFunc] at e
      omega
    · dsimp only [pageKey, indKey, Reg.chCntBreak, Reg.chCntDriveConflict, Reg.chCntEdgeRate, Reg.chCntEngStall, Reg.chCntFraming, Reg.chCntGapErr, Reg.chCntI2cFail, Reg.chCntIdle, Reg.chCntIrigBad, Reg.chCntMaxWidth, Reg.chCntMinWidth, Reg.chCntParity, Reg.chCntPpsBad, Reg.chCntProgRefused, Reg.chCntProtRefused, Reg.chCntReadback, Reg.chCntRxBad, Reg.chCntRxDe, Reg.chCntRxDropped, Reg.chCntRxOverrun, Reg.chCntRxRewind, Reg.chCntRxUnderrun, Reg.chCntSmbTimeout, Reg.chCntSpiPartial, Reg.chCntStartIgnored, Reg.chCntTimeLate, Reg.chCntTxBad, Reg.chCntTxDropped, Reg.chCntTxOverrun, Reg.chCntTxRewind, Reg.chCntTxUnderrun, Reg.chCtrCap, Reg.chCtrCount, Reg.chEngCfg, Reg.chEngEntry, Reg.chEngMarkSec, Reg.chEngProgAddr, Reg.chEngSeg, Reg.chEngWrap, Reg.chFunc] at e
      omega

theorem Part.regClk_away : ∀ f, f ∈ Part.banks .regClk → Away (fun k => EvCfg k ∨ LowKey k) f := by
  delta Part.banks
  simp only [List.forall_mem_cons, List.not_mem_nil, false_implies, implies_true, and_true]
  and_intros
  all_goals refine Away.one ?_
  all_goals
    rintro (⟨m, q, hm, hq, e⟩ | ⟨m, q, hm, hq, e⟩)
    · dsimp only [Reg.evqQCfg, pageKey, indKey, Reg.clkCntPcieRefclk, Reg.clkCntPll, Reg.clkCntRefclkSd, Reg.clkCntTclk, Reg.clkCntTileLock, Reg.clkCntXt32, Reg.clkStateReq] at e
      omega
    · dsimp only [pageKey, indKey, Reg.clkCntPcieRefclk, Reg.clkCntPll, Reg.clkCntRefclkSd, Reg.clkCntTclk, Reg.clkCntTileLock, Reg.clkCntXt32, Reg.clkStateReq] at e
      omega

theorem Part.regDdr_away : ∀ f, f ∈ Part.banks .regDdr → Away (fun k => EvCfg k ∨ LowKey k) f := by
  delta Part.banks
  simp only [List.forall_mem_cons, List.not_mem_nil, false_implies, implies_true, and_true]
  and_intros
  all_goals refine Away.one ?_
  all_goals
    rintro (⟨m, q, hm, hq, e⟩ | ⟨m, q, hm, hq, e⟩)
    · dsimp only [Reg.evqQCfg, pageKey, indKey, Reg.ddrCntEccCorr, Reg.ddrCntEccUncorr, Reg.ddrEccAddrHi, Reg.ddrEccAddrLo] at e
      omega
    · dsimp only [pageKey, indKey, Reg.ddrCntEccCorr, Reg.ddrCntEccUncorr, Reg.ddrEccAddrHi, Reg.ddrEccAddrLo] at e
      omega

theorem Part.regDma_away : ∀ f, f ∈ Part.banks .regDma → Away (EvCfg) f := by
  delta Part.banks
  simp only [List.forall_mem_cons, List.not_mem_nil, false_implies, implies_true, and_true]
  and_intros
  all_goals refine Away.all fun i => ?_
  all_goals
    rintro ⟨m, q, hm, hq, e⟩
    dsimp only [Reg.evqQCfg, pageKey, indKey, Reg.dmaDcBytes, Reg.dmaDcCtrl, Reg.dmaDcHead, Reg.dmaDcStatus, Reg.dmaDcTail] at e
    omega

theorem Part.regDrl_away : ∀ f, f ∈ Part.banks .regDrl → Away (fun k => EvCfg k ∨ LowKey k) f := by
  delta Part.banks
  simp only [List.forall_mem_cons, List.not_mem_nil, false_implies, implies_true, and_true]
  and_intros
  all_goals refine Away.one ?_
  all_goals
    rintro (⟨m, q, hm, hq, e⟩ | ⟨m, q, hm, hq, e⟩)
    · dsimp only [Reg.evqQCfg, pageKey, indKey, Reg.drlCntFired, Reg.drlCntLateRun, Reg.drlCntLateSkip, Reg.drlCntRefused, Reg.drlCntUnlocked] at e
      omega
    · dsimp only [pageKey, indKey, Reg.drlCntFired, Reg.drlCntLateRun, Reg.drlCntLateSkip, Reg.drlCntRefused, Reg.drlCntUnlocked] at e
      omega

theorem Part.regEvq_away : ∀ f, f ∈ Part.banks .regEvq → Away (fun k => EvCfg k ∨ LowKey k) f := by
  delta Part.banks
  simp only [List.forall_mem_cons, List.not_mem_nil, false_implies, implies_true, and_true]
  and_intros
  all_goals (first | refine Away.one ?_ | refine Away.below fun i hi => ?_)
  all_goals
    rintro (⟨m, q, hm, hq, e⟩ | ⟨m, q, hm, hq, e⟩)
    · dsimp only [Reg.evqQCfg, pageKey, indKey, Reg.evqCntBadCi, Reg.evqCntDrop, Reg.evqCntUnrouted, Reg.evqQCi] at e
      omega
    · dsimp only [pageKey, indKey, Reg.evqCntBadCi, Reg.evqCntDrop, Reg.evqCntUnrouted, Reg.evqQCi] at e
      omega

theorem Part.regFp_away : ∀ f, f ∈ Part.banks .regFp → Away (fun k => EvCfg k ∨ LowKey k) f := by
  delta Part.banks
  simp only [List.forall_mem_cons, List.not_mem_nil, false_implies, implies_true, and_true]
  and_intros
  all_goals refine Away.all fun i => ?_
  all_goals
    rintro (⟨m, q, hm, hq, e⟩ | ⟨m, q, hm, hq, e⟩)
    · dsimp only [Reg.evqQCfg, pageKey, indKey, Reg.fpCntDegrade, Reg.fpCntDup, Reg.fpCntDupEvict, Reg.fpCntDupResync, Reg.fpCntHopExpired, Reg.fpCntLinkDown, Reg.fpCntLinkFail, Reg.fpCntPreempt, Reg.fpCntRxFcs, Reg.fpCntRxForeign, Reg.fpCntRxFrames, Reg.fpCntRxHeader, Reg.fpCntRxLength, Reg.fpCntRxPath, Reg.fpCntRxStomp, Reg.fpCntSeqStale, Reg.fpCntStripped, Reg.fpCntTxDiscardDown, Reg.fpCntTxFrames, Reg.fpCntTxStomp, Reg.fpPrbsErr, Reg.fpRxeq, Reg.fpTxeq] at e
      omega
    · dsimp only [pageKey, indKey, Reg.fpCntDegrade, Reg.fpCntDup, Reg.fpCntDupEvict, Reg.fpCntDupResync, Reg.fpCntHopExpired, Reg.fpCntLinkDown, Reg.fpCntLinkFail, Reg.fpCntPreempt, Reg.fpCntRxFcs, Reg.fpCntRxForeign, Reg.fpCntRxFrames, Reg.fpCntRxHeader, Reg.fpCntRxLength, Reg.fpCntRxPath, Reg.fpCntRxStomp, Reg.fpCntSeqStale, Reg.fpCntStripped, Reg.fpCntTxDiscardDown, Reg.fpCntTxFrames, Reg.fpCntTxStomp, Reg.fpPrbsErr, Reg.fpRxeq, Reg.fpTxeq] at e
      omega

theorem Part.regFwl_away : ∀ f, f ∈ Part.banks .regFwl → Away (fun k => EvCfg k ∨ LowKey k) f := by
  delta Part.banks
  simp only [List.forall_mem_cons, List.not_mem_nil, false_implies, implies_true, and_true]
  and_intros
  all_goals refine Away.one ?_
  all_goals
    rintro (⟨m, q, hm, hq, e⟩ | ⟨m, q, hm, hq, e⟩)
    · dsimp only [Reg.evqQCfg, pageKey, indKey, Reg.fwlCntDeny, Reg.fwlLastAddr, Reg.fwlLastDeny] at e
      omega
    · dsimp only [pageKey, indKey, Reg.fwlCntDeny, Reg.fwlLastAddr, Reg.fwlLastDeny] at e
      omega

theorem Part.regHost_away : ∀ f, f ∈ Part.banks .regHost → Away (fun k => EvCfg k ∨ LowKey k) f := by
  delta Part.banks
  simp only [List.forall_mem_cons, List.not_mem_nil, false_implies, implies_true, and_true]
  and_intros
  all_goals (first | refine Away.one ?_ | refine Away.below fun i hi => ?_)
  all_goals
    rintro (⟨m, q, hm, hq, e⟩ | ⟨m, q, hm, hq, e⟩)
    · dsimp only [Reg.evqQCfg, pageKey, indKey, Reg.hostCfg, Reg.hostCntAbandon, Reg.hostCntBadSize, Reg.hostCntBadTlp, Reg.hostCntCplTimeout, Reg.hostCntHostReset, Reg.hostCntRdErr, Reg.hostRdErrAddrHi, Reg.hostRdErrAddrLo, Reg.hostRdErrStatus, Reg.hostWinBase, Reg.hostWinCtrl] at e
      omega
    · dsimp only [pageKey, indKey, Reg.hostCfg, Reg.hostCntAbandon, Reg.hostCntBadSize, Reg.hostCntBadTlp, Reg.hostCntCplTimeout, Reg.hostCntHostReset, Reg.hostCntRdErr, Reg.hostRdErrAddrHi, Reg.hostRdErrAddrLo, Reg.hostRdErrStatus, Reg.hostWinBase, Reg.hostWinCtrl] at e
      omega

theorem Part.regIcu_away : ∀ f, f ∈ Part.banks .regIcu → Away (fun k => EvCfg k ∨ LowKey k) f := by
  delta Part.banks
  simp only [List.forall_mem_cons, List.not_mem_nil, false_implies, implies_true, and_true]
  and_intros
  all_goals (first | refine Away.one ?_ | refine Away.below fun i hi => ?_)
  all_goals
    rintro (⟨m, q, hm, hq, e⟩ | ⟨m, q, hm, hq, e⟩)
    · dsimp only [Reg.evqQCfg, pageKey, indKey, Reg.icuCntMismatch, Reg.icuCntRefused, Reg.icuCntSpurious, Reg.icuCntStackFull, Reg.icuHostThreshold, Reg.icuSrcCfg] at e
      omega
    · dsimp only [pageKey, indKey, Reg.icuCntMismatch, Reg.icuCntRefused, Reg.icuCntSpurious, Reg.icuCntStackFull, Reg.icuHostThreshold, Reg.icuSrcCfg] at e
      omega

theorem Part.regIcup_away : ∀ f, f ∈ Part.banks .regIcup → Away (fun k => EvCfg k ∨ LowKey k) f := by
  delta Part.banks
  simp only [List.forall_mem_cons, List.not_mem_nil, false_implies, implies_true, and_true]
  and_intros
  all_goals (first | refine Away.below fun i hi => ?_ | refine Away.grid fun i j hi hj => ?_)
  all_goals
    rintro (⟨m, q, hm, hq, e⟩ | ⟨m, q, hm, hq, e⟩)
    · dsimp only [Reg.evqQCfg, pageKey, indKey, Reg.icupCntMismatch, Reg.icupCntSpurious, Reg.icupCntStackFull, Reg.icupPrivCfg, Reg.icupThreshold, Reg.icupTmr] at e
      omega
    · dsimp only [pageKey, indKey, Reg.icupCntMismatch, Reg.icupCntSpurious, Reg.icupCntStackFull, Reg.icupPrivCfg, Reg.icupThreshold, Reg.icupTmr] at e
      omega

theorem Part.regLease_away : ∀ f, f ∈ Part.banks .regLease → Away (fun k => EvCfg k ∨ LowKey k) f := by
  delta Part.banks
  simp only [List.forall_mem_cons, List.not_mem_nil, false_implies, implies_true, and_true]
  and_intros
  all_goals refine Away.one ?_
  all_goals
    rintro (⟨m, q, hm, hq, e⟩ | ⟨m, q, hm, hq, e⟩)
    · dsimp only [Reg.evqQCfg, pageKey, indKey, Reg.leaseCntAcquire, Reg.leaseCntAmbiguous, Reg.leaseCntCompareFail, Reg.leaseCntConflict, Reg.leaseCntHandover, Reg.leaseCntHandoverAbort, Reg.leaseCntLost, Reg.leaseFault, Reg.leaseTiming] at e
      omega
    · dsimp only [pageKey, indKey, Reg.leaseCntAcquire, Reg.leaseCntAmbiguous, Reg.leaseCntCompareFail, Reg.leaseCntConflict, Reg.leaseCntHandover, Reg.leaseCntHandoverAbort, Reg.leaseCntLost, Reg.leaseFault, Reg.leaseTiming] at e
      omega

theorem Part.regOspi_away : ∀ f, f ∈ Part.banks .regOspi → Away (fun k => EvCfg k ∨ LowKey k) f := by
  delta Part.banks
  simp only [List.forall_mem_cons, List.not_mem_nil, false_implies, implies_true, and_true]
  and_intros
  all_goals (first | refine Away.one ?_ | refine Away.below fun i hi => ?_)
  all_goals
    rintro (⟨m, q, hm, hq, e⟩ | ⟨m, q, hm, hq, e⟩)
    · dsimp only [Reg.evqQCfg, pageKey, indKey, Reg.ospiBuffer, Reg.ospiClock, Reg.ospiProt] at e
      omega
    · dsimp only [pageKey, indKey, Reg.ospiBuffer, Reg.ospiClock, Reg.ospiProt] at e
      omega

theorem Part.regPlk_away : ∀ f, f ∈ Part.banks .regPlk → Away (fun k => EvCfg k ∨ LowKey k) f := by
  delta Part.banks
  simp only [List.forall_mem_cons, List.not_mem_nil, false_implies, implies_true, and_true]
  and_intros
  all_goals refine Away.one ?_
  all_goals
    rintro (⟨m, q, hm, hq, e⟩ | ⟨m, q, hm, hq, e⟩)
    · dsimp only [Reg.evqQCfg, pageKey, indKey, Reg.plkCntCrc, Reg.plkCntLinkDown, Reg.plkCntLinkFail, Reg.plkCntMalformed, Reg.plkCntRxMsg, Reg.plkCntTxMsg, Reg.plkLatency] at e
      omega
    · dsimp only [pageKey, indKey, Reg.plkCntCrc, Reg.plkCntLinkDown, Reg.plkCntLinkFail, Reg.plkCntMalformed, Reg.plkCntRxMsg, Reg.plkCntTxMsg, Reg.plkLatency] at e
      omega

theorem Part.regPtp_away : ∀ f, f ∈ Part.banks .regPtp → Away (fun k => EvCfg k ∨ LowKey k) f := by
  delta Part.banks
  simp only [List.forall_mem_cons, List.not_mem_nil, false_implies, implies_true, and_true]
  and_intros
  all_goals (first | refine Away.one ?_ | refine Away.below fun i hi => ?_)
  all_goals
    rintro (⟨m, q, hm, hq, e⟩ | ⟨m, q, hm, hq, e⟩)
    · dsimp only [Reg.evqQCfg, pageKey, indKey, Reg.ptpCntAnnTimeout, Reg.ptpCntAnnounce, Reg.ptpCntBad, Reg.ptpCntPdelayFail, Reg.ptpCntSync, Reg.ptpCurGmHi, Reg.ptpCurGmLo, Reg.ptpGmInfo, Reg.ptpPdelay, Reg.ptpUtc] at e
      omega
    · dsimp only [pageKey, indKey, Reg.ptpCntAnnTimeout, Reg.ptpCntAnnounce, Reg.ptpCntBad, Reg.ptpCntPdelayFail, Reg.ptpCntSync, Reg.ptpCurGmHi, Reg.ptpCurGmLo, Reg.ptpGmInfo, Reg.ptpPdelay, Reg.ptpUtc] at e
      omega

theorem Part.regPwr_away : ∀ f, f ∈ Part.banks .regPwr → Away (fun k => EvCfg k ∨ LowKey k) f := by
  delta Part.banks
  simp only [List.forall_mem_cons, List.not_mem_nil, false_implies, implies_true, and_true]
  and_intros
  all_goals refine Away.one ?_
  all_goals
    rintro (⟨m, q, hm, hq, e⟩ | ⟨m, q, hm, hq, e⟩)
    · dsimp only [Reg.evqQCfg, pageKey, indKey, Reg.pwrCntDying, Reg.pwrCntFastTrip, Reg.pwrCntFeedA, Reg.pwrCntFeedB, Reg.pwrCntLatched, Reg.pwrCntLimit, Reg.pwrCntRail, Reg.pwrCntRetry, Reg.pwrCntReverseA, Reg.pwrCntReverseB, Reg.pwrCntSeatLoss, Reg.pwrCntShortRamp, Reg.pwrCntThermal, Reg.pwrCntTsFail, Reg.pwrLastFault] at e
      omega
    · dsimp only [pageKey, indKey, Reg.pwrCntDying, Reg.pwrCntFastTrip, Reg.pwrCntFeedA, Reg.pwrCntFeedB, Reg.pwrCntLatched, Reg.pwrCntLimit, Reg.pwrCntRail, Reg.pwrCntRetry, Reg.pwrCntReverseA, Reg.pwrCntReverseB, Reg.pwrCntSeatLoss, Reg.pwrCntShortRamp, Reg.pwrCntThermal, Reg.pwrCntTsFail, Reg.pwrLastFault] at e
      omega

theorem Part.regRfx_away : ∀ f, f ∈ Part.banks .regRfx → Away (fun k => EvCfg k ∨ LowKey k) f := by
  delta Part.banks
  simp only [List.forall_mem_cons, List.not_mem_nil, false_implies, implies_true, and_true]
  and_intros
  all_goals refine Away.one ?_
  all_goals
    rintro (⟨m, q, hm, hq, e⟩ | ⟨m, q, hm, hq, e⟩)
    · dsimp only [Reg.evqQCfg, pageKey, indKey, Reg.rfxCntEval, Reg.rfxCntFired, Reg.rfxCntRefused, Reg.rfxQueuePeak, Reg.rfxSwf] at e
      omega
    · dsimp only [pageKey, indKey, Reg.rfxCntEval, Reg.rfxCntFired, Reg.rfxCntRefused, Reg.rfxQueuePeak, Reg.rfxSwf] at e
      omega

theorem Part.regRing_away : ∀ f, f ∈ Part.banks .regRing → Away (fun k => EvCfg k ∨ LowKey k) f := by
  delta Part.banks
  simp only [List.forall_mem_cons, List.not_mem_nil, false_implies, implies_true, and_true]
  and_intros
  all_goals (first | refine Away.one ?_ | refine Away.below fun i hi => ?_)
  all_goals
    rintro (⟨m, q, hm, hq, e⟩ | ⟨m, q, hm, hq, e⟩)
    · dsimp only [Reg.evqQCfg, pageKey, indKey, Reg.ringCntBreak, Reg.ringCntConflict, Reg.ringCntHlEvict, Reg.ringCntHsrDup, Reg.ringCntMgmtBad, Reg.ringCntPrpDup, Reg.ringCntSilent, Reg.ringCntTurnBack, Reg.ringCntTurnDup, Reg.ringCntTurnStrip, Reg.ringCntTurned, Reg.ringFarId, Reg.ringIdCfg, Reg.ringNeighbour, Reg.ringNodeId, Reg.ringStrap] at e
      omega
    · dsimp only [pageKey, indKey, Reg.ringCntBreak, Reg.ringCntConflict, Reg.ringCntHlEvict, Reg.ringCntHsrDup, Reg.ringCntMgmtBad, Reg.ringCntPrpDup, Reg.ringCntSilent, Reg.ringCntTurnBack, Reg.ringCntTurnDup, Reg.ringCntTurnStrip, Reg.ringCntTurned, Reg.ringFarId, Reg.ringIdCfg, Reg.ringNeighbour, Reg.ringNodeId, Reg.ringStrap] at e
      omega

theorem Part.regRst_away : ∀ f, f ∈ Part.banks .regRst → Away (EvCfg) f := by
  delta Part.banks
  simp only [List.forall_mem_cons, List.not_mem_nil, false_implies, implies_true, and_true]
  and_intros
  all_goals (first | refine Away.one ?_ | refine Away.all fun i => ?_)
  all_goals
    rintro ⟨m, q, hm, hq, e⟩
    dsimp only [Reg.evqQCfg, pageKey, indKey, Reg.rstCnt, Reg.rstLastCause, Reg.rstLastNs, Reg.rstLastSec] at e
    omega

theorem Part.regSec_away : ∀ f, f ∈ Part.banks .regSec → Away (fun k => EvCfg k ∨ LowKey k) f := by
  delta Part.banks
  simp only [List.forall_mem_cons, List.not_mem_nil, false_implies, implies_true, and_true]
  refine Away.below fun i hi => ?_
  rintro (⟨m, q, hm, hq, e⟩ | ⟨m, q, hm, hq, e⟩)
  · dsimp only [Reg.evqQCfg, pageKey, indKey, Reg.secBuffer] at e
    omega
  · dsimp only [pageKey, indKey, Reg.secBuffer] at e
    omega

theorem Part.regSeq_away : ∀ f, f ∈ Part.banks .regSeq → Away (fun k => EvCfg k ∨ LowKey k) f := by
  delta Part.banks
  simp only [List.forall_mem_cons, List.not_mem_nil, false_implies, implies_true, and_true]
  and_intros
  all_goals refine Away.one ?_
  all_goals
    rintro (⟨m, q, hm, hq, e⟩ | ⟨m, q, hm, hq, e⟩)
    · dsimp only [Reg.evqQCfg, pageKey, indKey, Reg.seqCntPgLost, Reg.seqCntPgTimeout] at e
      omega
    · dsimp only [pageKey, indKey, Reg.seqCntPgLost, Reg.seqCntPgTimeout] at e
      omega

theorem Part.regSig_away : ∀ f, f ∈ Part.banks .regSig → Away (fun k => EvCfg k ∨ LowKey k) f := by
  delta Part.banks
  simp only [List.forall_mem_cons, List.not_mem_nil, false_implies, implies_true, and_true]
  and_intros
  all_goals refine Away.one ?_
  all_goals
    rintro (⟨m, q, hm, hq, e⟩ | ⟨m, q, hm, hq, e⟩)
    · dsimp only [Reg.evqQCfg, pageKey, indKey, Reg.sigCntApplied, Reg.sigCntBadFrame, Reg.sigCntOld, Reg.sigCntStale, Reg.sigCntTxChange, Reg.sigCntTxHb, Reg.sigCntType, Reg.sigCntUnsub, Reg.sigSubMeta] at e
      omega
    · dsimp only [pageKey, indKey, Reg.sigCntApplied, Reg.sigCntBadFrame, Reg.sigCntOld, Reg.sigCntStale, Reg.sigCntTxChange, Reg.sigCntTxHb, Reg.sigCntType, Reg.sigCntUnsub, Reg.sigSubMeta] at e
      omega

theorem Part.regStw_away : ∀ f, f ∈ Part.banks .regStw → Away (fun k => EvCfg k ∨ LowKey k) f := by
  delta Part.banks
  simp only [List.forall_mem_cons, List.not_mem_nil, false_implies, implies_true, and_true]
  and_intros
  all_goals (first | refine Away.one ?_ | refine Away.below fun i hi => ?_)
  all_goals
    rintro (⟨m, q, hm, hq, e⟩ | ⟨m, q, hm, hq, e⟩)
    · dsimp only [Reg.evqQCfg, pageKey, indKey, Reg.stwCntMiscompare, Reg.stwCntWatchdog, Reg.stwLockstep, Reg.stwStatus, Reg.stwWdtCfg] at e
      omega
    · dsimp only [pageKey, indKey, Reg.stwCntMiscompare, Reg.stwCntWatchdog, Reg.stwLockstep, Reg.stwStatus, Reg.stwWdtCfg] at e
      omega

theorem Part.regSwc_away : ∀ f, f ∈ Part.banks .regSwc → Away (fun k => EvCfg k ∨ LowKey k) f := by
  delta Part.banks
  simp only [List.forall_mem_cons, List.not_mem_nil, false_implies, implies_true, and_true]
  and_intros
  all_goals refine Away.one ?_
  all_goals
    rintro (⟨m, q, hm, hq, e⟩ | ⟨m, q, hm, hq, e⟩)
    · dsimp only [Reg.evqQCfg, pageKey, indKey, Reg.swcCntMirrorDrop, Reg.swcCntMirrorTrunc, Reg.swcCntReplDrop] at e
      omega
    · dsimp only [pageKey, indKey, Reg.swcCntMirrorDrop, Reg.swcCntMirrorTrunc, Reg.swcCntReplDrop] at e
      omega

theorem Part.regTile_away : ∀ f, f ∈ Part.banks .regTile → Away (fun k => EvCfg k ∨ LowKey k) f := by
  delta Part.banks
  simp only [List.forall_mem_cons, List.not_mem_nil, false_implies, implies_true, and_true]
  and_intros
  all_goals refine Away.all fun i => ?_
  all_goals
    rintro (⟨m, q, hm, hq, e⟩ | ⟨m, q, hm, hq, e⟩)
    · dsimp only [Reg.evqQCfg, pageKey, indKey, Reg.tileBankCfg, Reg.tileCntBank, Reg.tileCntGlitch, Reg.tileCntStampLost, Reg.tileCntWake, Reg.tileGrpMaskHi, Reg.tileGrpMaskLo, Reg.tileStampCfg] at e
      omega
    · dsimp only [pageKey, indKey, Reg.tileBankCfg, Reg.tileCntBank, Reg.tileCntGlitch, Reg.tileCntStampLost, Reg.tileCntWake, Reg.tileGrpMaskHi, Reg.tileGrpMaskLo, Reg.tileStampCfg] at e
      omega

theorem Part.regTime_away : ∀ f, f ∈ Part.banks .regTime → Away (fun k => EvCfg k ∨ LowKey k) f := by
  delta Part.banks
  simp only [List.forall_mem_cons, List.not_mem_nil, false_implies, implies_true, and_true]
  and_intros
  all_goals refine Away.one ?_
  all_goals
    rintro (⟨m, q, hm, hq, e⟩ | ⟨m, q, hm, hq, e⟩)
    · dsimp only [Reg.evqQCfg, pageKey, indKey, Reg.timeCntRefused, Reg.timeCntStep, Reg.timePendCorr, Reg.timeRate, Reg.timeRefusedHi, Reg.timeRefusedLo, Reg.timeStepLimit] at e
      omega
    · dsimp only [pageKey, indKey, Reg.timeCntRefused, Reg.timeCntStep, Reg.timePendCorr, Reg.timeRate, Reg.timeRefusedHi, Reg.timeRefusedLo, Reg.timeStepLimit] at e
      omega

theorem Part.regWin_away : ∀ f, f ∈ Part.banks .regWin → Away (fun k => EvCfg k ∨ LowKey k) f := by
  delta Part.banks
  simp only [List.forall_mem_cons, List.not_mem_nil, false_implies, implies_true, and_true]
  and_intros
  all_goals refine Away.one ?_
  all_goals
    rintro (⟨m, q, hm, hq, e⟩ | ⟨m, q, hm, hq, e⟩)
    · dsimp only [Reg.evqQCfg, pageKey, indKey, Reg.winCntBoundary, Reg.winCntResult, Reg.winCntRetrigIgn] at e
      omega
    · dsimp only [pageKey, indKey, Reg.winCntBoundary, Reg.winCntResult, Reg.winCntRetrigIgn] at e
      omega

theorem Part.regXbr_away : ∀ f, f ∈ Part.banks .regXbr → Away (fun k => EvCfg k ∨ LowKey k) f := by
  delta Part.banks
  simp only [List.forall_mem_cons, List.not_mem_nil, false_implies, implies_true, and_true]
  and_intros
  all_goals refine Away.one ?_
  all_goals
    rintro (⟨m, q, hm, hq, e⟩ | ⟨m, q, hm, hq, e⟩)
    · dsimp only [Reg.evqQCfg, pageKey, indKey, Reg.xbrCcHold, Reg.xbrCntBadReq, Reg.xbrCntBusySent, Reg.xbrCntCcHit, Reg.xbrCntDiscardMiss, Reg.xbrCntGapLost, Reg.xbrCntHoldDrop, Reg.xbrCntLateCpl, Reg.xbrCntMsgDrop, Reg.xbrCntNpIssued, Reg.xbrCntPostedIssued, Reg.xbrCntPwError, Reg.xbrCntRetry, Reg.xbrCntRetryPending, Reg.xbrCntStranded, Reg.xbrCntStreamStale, Reg.xbrCntStreamStall, Reg.xbrCntTagStall, Reg.xbrCntTimeout, Reg.xbrGapWait, Reg.xbrNpTimeout, Reg.xbrStreamAge] at e
      omega
    · dsimp only [pageKey, indKey, Reg.xbrCcHold, Reg.xbrCntBadReq, Reg.xbrCntBusySent, Reg.xbrCntCcHit, Reg.xbrCntDiscardMiss, Reg.xbrCntGapLost, Reg.xbrCntHoldDrop, Reg.xbrCntLateCpl, Reg.xbrCntMsgDrop, Reg.xbrCntNpIssued, Reg.xbrCntPostedIssued, Reg.xbrCntPwError, Reg.xbrCntRetry, Reg.xbrCntRetryPending, Reg.xbrCntStranded, Reg.xbrCntStreamStale, Reg.xbrCntStreamStall, Reg.xbrCntTagStall, Reg.xbrCntTimeout, Reg.xbrGapWait, Reg.xbrNpTimeout, Reg.xbrStreamAge] at e
      omega

theorem Part.evqCfg_away : ∀ f, f ∈ Part.banks .evqCfg → Away (LowKey) f := by
  delta Part.banks
  simp only [List.forall_mem_cons, List.not_mem_nil, false_implies, implies_true, and_true]
  and_intros
  all_goals refine Away.below fun i hi => ?_
  all_goals
    rintro ⟨m, q, hm, hq, e⟩
    dsimp only [pageKey, indKey, Reg.evqQBaseHi, Reg.evqQBaseLo, Reg.evqQCfg, Reg.evqQPiAddrHi, Reg.evqQPiAddrLo] at e
    omega

theorem evCfg_out {P : Part → Prop} {k : Nat} (h1 : ¬ P .evqCfg) (h2 : ¬ P .regAny) (h : EvCfg k) : ¬ RegIn P k := by
  rintro ⟨p, hp, hk⟩
  cases p
  case frozen => exact (hk.elim fun _ q => nomatch q.1)
  case heldIrq => exact (hk.elim fun _ q => nomatch q.1)
  case mbx => exact (hk.elim fun _ q => nomatch q.1)
  case ind => exact (hk.elim fun _ q => nomatch q.1)
  case stalls => exact (hk.elim fun _ q => nomatch q.1)
  case checks => exact (hk.elim fun _ q => nomatch q.1)
  case gathers => exact (hk.elim fun _ q => nomatch q.1)
  case ecc => exact (hk.elim fun _ q => nomatch q.1)
  case recSeq => exact (hk.elim fun _ q => nomatch q.1)
  case time => exact (hk.elim fun _ q => nomatch q.1)
  case mem => exact (hk.elim fun _ q => nomatch q.1)
  case evq => exact (hk.elim fun _ q => nomatch q.1)
  case msix => exact (hk.elim fun _ q => nomatch q.1)
  case msixPba => exact (hk.elim fun _ q => nomatch q.1)
  case msixEnable => exact (hk.elim fun _ q => nomatch q.1)
  case msixFuncMask => exact (hk.elim fun _ q => nomatch q.1)
  case hostTx => exact (hk.elim fun _ q => nomatch q.1)
  case icu => exact (hk.elim fun _ q => nomatch q.1)
  case sram => exact (hk.elim fun _ q => nomatch q.1)
  case lines => exact (hk.elim fun _ q => nomatch q.1)
  case tiles => exact (hk.elim fun _ q => nomatch q.1)
  case stampOrder => exact (hk.elim fun _ q => nomatch q.1)
  case stampsHeld => exact (hk.elim fun _ q => nomatch q.1)
  case ctrs => exact (hk.elim fun _ q => nomatch q.1)
  case fifos => exact (hk.elim fun _ q => nomatch q.1)
  case lease => exact (hk.elim fun _ q => nomatch q.1)
  case plk => exact (hk.elim fun _ q => nomatch q.1)
  case wins => exact (hk.elim fun _ q => nomatch q.1)
  case winOpen => exact (hk.elim fun _ q => nomatch q.1)
  case winEdges => exact (hk.elim fun _ q => nomatch q.1)
  case drill => exact (hk.elim fun _ q => nomatch q.1)
  case launches => exact (hk.elim fun _ q => nomatch q.1)
  case rules => exact (hk.elim fun _ q => nomatch q.1)
  case express => exact (hk.elim fun _ q => nomatch q.1)
  case normal => exact (hk.elim fun _ q => nomatch q.1)
  case eval => exact (hk.elim fun _ q => nomatch q.1)
  case sigOps => exact (hk.elim fun _ q => nomatch q.1)
  case pubs => exact (hk.elim fun _ q => nomatch q.1)
  case pubOpen => exact (hk.elim fun _ q => nomatch q.1)
  case hbAt => exact (hk.elim fun _ q => nomatch q.1)
  case subs => exact (hk.elim fun _ q => nomatch q.1)
  case net => exact (hk.elim fun _ q => nomatch q.1)
  case ring => exact (hk.elim fun _ q => nomatch q.1)
  case power => exact (hk.elim fun _ q => nomatch q.1)
  case pulseDone => exact (hk.elim fun _ q => nomatch q.1)
  case engs => exact (hk.elim fun _ q => nomatch q.1)
  case starts => exact (hk.elim fun _ q => nomatch q.1)
  case ptp => exact (hk.elim fun _ q => nomatch q.1)
  case sources => exact (hk.elim fun _ q => nomatch q.1)
  case serial => exact (hk.elim fun _ q => nomatch q.1)
  case cans => exact (hk.elim fun _ q => nomatch q.1)
  case xbr => exact (hk.elim fun _ q => nomatch q.1)
  case host => exact (hk.elim fun _ q => nomatch q.1)
  case dma => exact (hk.elim fun _ q => nomatch q.1)
  case cores => exact (hk.elim fun _ q => nomatch q.1)
  case tcm => exact (hk.elim fun _ q => nomatch q.1)
  case stwSram => exact (hk.elim fun _ q => nomatch q.1)
  case flash => exact (hk.elim fun _ q => nomatch q.1)
  case boot => exact (hk.elim fun _ q => nomatch q.1)
  case otp => exact (hk.elim fun _ q => nomatch q.1)
  case sha => exact (hk.elim fun _ q => nomatch q.1)
  case pwr => exact (hk.elim fun _ q => nomatch q.1)
  case clk => exact (hk.elim fun _ q => nomatch q.1)
  case reply => exact (hk.elim fun _ q => nomatch q.1)
  case tclks => exact (hk.elim fun _ q => nomatch q.1)
  case freeTick => exact (hk.elim fun _ q => nomatch q.1)
  case regIrq => exact Part.has_away Part.regIrq_away hk (Or.inl h)
  case regMbx => exact Part.has_away Part.regMbx_away hk (Or.inl h)
  case regCtrl => exact Part.has_away Part.regCtrl_away hk h
  case regStatus => exact Part.has_away Part.regStatus_away hk (Or.inl h)
  case regInd => exact Part.has_away Part.regInd_away hk (Or.inl h)
  case regAdc => exact Part.has_away Part.regAdc_away hk (Or.inl h)
  case regBoot => exact Part.has_away Part.regBoot_away hk (Or.inl h)
  case regBuf => exact Part.has_away Part.regBuf_away hk (Or.inl h)
  case regCan => exact Part.has_away Part.regCan_away hk (Or.inl h)
  case regCh => exact Part.has_away Part.regCh_away hk (Or.inl h)
  case regClk => exact Part.has_away Part.regClk_away hk (Or.inl h)
  case regDdr => exact Part.has_away Part.regDdr_away hk (Or.inl h)
  case regDma => exact Part.has_away Part.regDma_away hk h
  case regDrl => exact Part.has_away Part.regDrl_away hk (Or.inl h)
  case regEvq => exact Part.has_away Part.regEvq_away hk (Or.inl h)
  case regFp => exact Part.has_away Part.regFp_away hk (Or.inl h)
  case regFwl => exact Part.has_away Part.regFwl_away hk (Or.inl h)
  case regHost => exact Part.has_away Part.regHost_away hk (Or.inl h)
  case regIcu => exact Part.has_away Part.regIcu_away hk (Or.inl h)
  case regIcup => exact Part.has_away Part.regIcup_away hk (Or.inl h)
  case regLease => exact Part.has_away Part.regLease_away hk (Or.inl h)
  case regOspi => exact Part.has_away Part.regOspi_away hk (Or.inl h)
  case regPlk => exact Part.has_away Part.regPlk_away hk (Or.inl h)
  case regPtp => exact Part.has_away Part.regPtp_away hk (Or.inl h)
  case regPwr => exact Part.has_away Part.regPwr_away hk (Or.inl h)
  case regRfx => exact Part.has_away Part.regRfx_away hk (Or.inl h)
  case regRing => exact Part.has_away Part.regRing_away hk (Or.inl h)
  case regRst => exact Part.has_away Part.regRst_away hk h
  case regSec => exact Part.has_away Part.regSec_away hk (Or.inl h)
  case regSeq => exact Part.has_away Part.regSeq_away hk (Or.inl h)
  case regSig => exact Part.has_away Part.regSig_away hk (Or.inl h)
  case regStw => exact Part.has_away Part.regStw_away hk (Or.inl h)
  case regSwc => exact Part.has_away Part.regSwc_away hk (Or.inl h)
  case regTile => exact Part.has_away Part.regTile_away hk (Or.inl h)
  case regTime => exact Part.has_away Part.regTime_away hk (Or.inl h)
  case regWin => exact Part.has_away Part.regWin_away hk (Or.inl h)
  case regXbr => exact Part.has_away Part.regXbr_away hk (Or.inl h)
  case evqCfg => exact h1 hp
  case regAny => exact h2 hp

/-- CTRL, IRQ_MASK and IRQ_GROUP of a page are changed by no operation that touches neither CTRL nor any of a few groups: software alone
writes IRQ_MASK and IRQ_GROUP. -/
theorem Part.low_out {p : Part} {page off : Nat} (hp : page < 0x100) (ho : off = 0x008 ∨ off = 0x014 ∨ off = 0x018)
    (h1 : p ≠ .regCtrl) (h2 : p ≠ .regDma) (h3 : p ≠ .regAny) (h4 : p ≠ .regRst) (hk : p.has (pageKey page off)) : False := by
  have h : LowKey (pageKey page off) := ⟨page, off, hp, ho, rfl⟩
  cases p
  case frozen => exact (hk.elim fun _ q => nomatch q.1)
  case heldIrq => exact (hk.elim fun _ q => nomatch q.1)
  case mbx => exact (hk.elim fun _ q => nomatch q.1)
  case ind => exact (hk.elim fun _ q => nomatch q.1)
  case stalls => exact (hk.elim fun _ q => nomatch q.1)
  case checks => exact (hk.elim fun _ q => nomatch q.1)
  case gathers => exact (hk.elim fun _ q => nomatch q.1)
  case ecc => exact (hk.elim fun _ q => nomatch q.1)
  case recSeq => exact (hk.elim fun _ q => nomatch q.1)
  case time => exact (hk.elim fun _ q => nomatch q.1)
  case mem => exact (hk.elim fun _ q => nomatch q.1)
  case evq => exact (hk.elim fun _ q => nomatch q.1)
  case msix => exact (hk.elim fun _ q => nomatch q.1)
  case msixPba => exact (hk.elim fun _ q => nomatch q.1)
  case msixEnable => exact (hk.elim fun _ q => nomatch q.1)
  case msixFuncMask => exact (hk.elim fun _ q => nomatch q.1)
  case hostTx => exact (hk.elim fun _ q => nomatch q.1)
  case icu => exact (hk.elim fun _ q => nomatch q.1)
  case sram => exact (hk.elim fun _ q => nomatch q.1)
  case lines => exact (hk.elim fun _ q => nomatch q.1)
  case tiles => exact (hk.elim fun _ q => nomatch q.1)
  case stampOrder => exact (hk.elim fun _ q => nomatch q.1)
  case stampsHeld => exact (hk.elim fun _ q => nomatch q.1)
  case ctrs => exact (hk.elim fun _ q => nomatch q.1)
  case fifos => exact (hk.elim fun _ q => nomatch q.1)
  case lease => exact (hk.elim fun _ q => nomatch q.1)
  case plk => exact (hk.elim fun _ q => nomatch q.1)
  case wins => exact (hk.elim fun _ q => nomatch q.1)
  case winOpen => exact (hk.elim fun _ q => nomatch q.1)
  case winEdges => exact (hk.elim fun _ q => nomatch q.1)
  case drill => exact (hk.elim fun _ q => nomatch q.1)
  case launches => exact (hk.elim fun _ q => nomatch q.1)
  case rules => exact (hk.elim fun _ q => nomatch q.1)
  case express => exact (hk.elim fun _ q => nomatch q.1)
  case normal => exact (hk.elim fun _ q => nomatch q.1)
  case eval => exact (hk.elim fun _ q => nomatch q.1)
  case sigOps => exact (hk.elim fun _ q => nomatch q.1)
  case pubs => exact (hk.elim fun _ q => nomatch q.1)
  case pubOpen => exact (hk.elim fun _ q => nomatch q.1)
  case hbAt => exact (hk.elim fun _ q => nomatch q.1)
  case subs => exact (hk.elim fun _ q => nomatch q.1)
  case net => exact (hk.elim fun _ q => nomatch q.1)
  case ring => exact (hk.elim fun _ q => nomatch q.1)
  case power => exact (hk.elim fun _ q => nomatch q.1)
  case pulseDone => exact (hk.elim fun _ q => nomatch q.1)
  case engs => exact (hk.elim fun _ q => nomatch q.1)
  case starts => exact (hk.elim fun _ q => nomatch q.1)
  case ptp => exact (hk.elim fun _ q => nomatch q.1)
  case sources => exact (hk.elim fun _ q => nomatch q.1)
  case serial => exact (hk.elim fun _ q => nomatch q.1)
  case cans => exact (hk.elim fun _ q => nomatch q.1)
  case xbr => exact (hk.elim fun _ q => nomatch q.1)
  case host => exact (hk.elim fun _ q => nomatch q.1)
  case dma => exact (hk.elim fun _ q => nomatch q.1)
  case cores => exact (hk.elim fun _ q => nomatch q.1)
  case tcm => exact (hk.elim fun _ q => nomatch q.1)
  case stwSram => exact (hk.elim fun _ q => nomatch q.1)
  case flash => exact (hk.elim fun _ q => nomatch q.1)
  case boot => exact (hk.elim fun _ q => nomatch q.1)
  case otp => exact (hk.elim fun _ q => nomatch q.1)
  case sha => exact (hk.elim fun _ q => nomatch q.1)
  case pwr => exact (hk.elim fun _ q => nomatch q.1)
  case clk => exact (hk.elim fun _ q => nomatch q.1)
  case reply => exact (hk.elim fun _ q => nomatch q.1)
  case tclks => exact (hk.elim fun _ q => nomatch q.1)
  case freeTick => exact (hk.elim fun _ q => nomatch q.1)
  case regIrq => exact Part.has_away Part.regIrq_away hk (Or.inr h)
  case regMbx => exact Part.has_away Part.regMbx_away hk (Or.inr h)
  case regCtrl => exact h1 rfl
  case regStatus => exact Part.has_away Part.regStatus_away hk (Or.inr h)
  case regInd => exact Part.has_away Part.regInd_away hk (Or.inr h)
  case regAdc => exact Part.has_away Part.regAdc_away hk (Or.inr h)
  case regBoot => exact Part.has_away Part.regBoot_away hk (Or.inr h)
  case regBuf => exact Part.has_away Part.regBuf_away hk (Or.inr h)
  case regCan => exact Part.has_away Part.regCan_away hk (Or.inr h)
  case regCh => exact Part.has_away Part.regCh_away hk (Or.inr h)
  case regClk => exact Part.has_away Part.regClk_away hk (Or.inr h)
  case regDdr => exact Part.has_away Part.regDdr_away hk (Or.inr h)
  case regDma => exact h2 rfl
  case regDrl => exact Part.has_away Part.regDrl_away hk (Or.inr h)
  case regEvq => exact Part.has_away Part.regEvq_away hk (Or.inr h)
  case regFp => exact Part.has_away Part.regFp_away hk (Or.inr h)
  case regFwl => exact Part.has_away Part.regFwl_away hk (Or.inr h)
  case regHost => exact Part.has_away Part.regHost_away hk (Or.inr h)
  case regIcu => exact Part.has_away Part.regIcu_away hk (Or.inr h)
  case regIcup => exact Part.has_away Part.regIcup_away hk (Or.inr h)
  case regLease => exact Part.has_away Part.regLease_away hk (Or.inr h)
  case regOspi => exact Part.has_away Part.regOspi_away hk (Or.inr h)
  case regPlk => exact Part.has_away Part.regPlk_away hk (Or.inr h)
  case regPtp => exact Part.has_away Part.regPtp_away hk (Or.inr h)
  case regPwr => exact Part.has_away Part.regPwr_away hk (Or.inr h)
  case regRfx => exact Part.has_away Part.regRfx_away hk (Or.inr h)
  case regRing => exact Part.has_away Part.regRing_away hk (Or.inr h)
  case regRst => exact h4 rfl
  case regSec => exact Part.has_away Part.regSec_away hk (Or.inr h)
  case regSeq => exact Part.has_away Part.regSeq_away hk (Or.inr h)
  case regSig => exact Part.has_away Part.regSig_away hk (Or.inr h)
  case regStw => exact Part.has_away Part.regStw_away hk (Or.inr h)
  case regSwc => exact Part.has_away Part.regSwc_away hk (Or.inr h)
  case regTile => exact Part.has_away Part.regTile_away hk (Or.inr h)
  case regTime => exact Part.has_away Part.regTime_away hk (Or.inr h)
  case regWin => exact Part.has_away Part.regWin_away hk (Or.inr h)
  case regXbr => exact Part.has_away Part.regXbr_away hk (Or.inr h)
  case evqCfg => exact Part.has_away Part.evqCfg_away hk h
  case regAny => exact h3 rfl

theorem Frame.evCfg {P : Part → Prop} {s t : State} (h : Frame P s t) (h1 : ¬ P .evqCfg) (h2 : ¬ P .regAny) {n : Nat} (hn : n < 16) :
    t.evSize n = s.evSize n ∧ t.evBase n = s.evBase n ∧ t.evPiAddr n = s.evPiAddr n := by
  have r (j : Nat) (hj : j < 5) : t.rd (Reg.evqQCfg n + 4 * j) = s.rd (Reg.evqQCfg n + 4 * j) :=
    h.regs _ (evCfg_out h1 h2 ⟨n, j, hn, hj, rfl⟩)
  have w (k j : Nat) (hj : j < 5) (e : k = Reg.evqQCfg n + 4 * j) : t.rd k = s.rd k := by rw [e]; exact r j hj
  have e1 : t.rd (Reg.evqQCfg n) = s.rd (Reg.evqQCfg n) := w _ 0 (by decide) (by omega)
  have e2 : t.rd (Reg.evqQBaseLo n) = s.rd (Reg.evqQBaseLo n) := w _ 1 (by decide) (by dsimp only [Reg.evqQBaseLo, Reg.evqQCfg, pageKey]; omega)
  have e3 : t.rd (Reg.evqQBaseHi n) = s.rd (Reg.evqQBaseHi n) := w _ 2 (by decide) (by dsimp only [Reg.evqQBaseHi, Reg.evqQCfg, pageKey]; omega)
  have e4 : t.rd (Reg.evqQPiAddrLo n) = s.rd (Reg.evqQPiAddrLo n) := w _ 3 (by decide) (by dsimp only [Reg.evqQPiAddrLo, Reg.evqQCfg, pageKey]; omega)
  have e5 : t.rd (Reg.evqQPiAddrHi n) = s.rd (Reg.evqQPiAddrHi n) := w _ 4 (by decide) (by dsimp only [Reg.evqQPiAddrHi, Reg.evqQCfg, pageKey]; omega)
  have es : t.evSize n = s.evSize n := by unfold State.evSize State.fld; rw [e1]
  refine ⟨es, ?_, ?_⟩
  · simp only [State.evBase, e2, e3, es]
  · simp only [State.evPiAddr, e4, e5]

theorem Frame.evAddr {P : Part → Prop} {s t : State} (h : Frame P s t) (h0 : ¬ P .mem) (h1 : ¬ P .evqCfg) (h2 : ¬ P .regAny) {a : Nat}
    (ha : t.EvAddr a) : s.EvAddr a := by
  obtain ⟨n, hn, hc⟩ := ha
  obtain ⟨e1, e2, e3⟩ := h.evCfg h1 h2 hn
  refine ⟨n, hn, ?_⟩
  rw [e1, e2, e3] at hc
  rcases hc with ⟨p, j, hj, e, hp⟩ | hc
  · refine Or.inl ⟨p, j, hj, e, ?_⟩
    rcases hp with hp | hp
    · exact Or.inl hp
    · rcases h.prods h0 h1 h2 n hn with q | q
      · exact Or.inr (hp.trans q)
      · exact Or.inl (hp ▸ q)
  · exact Or.inr hc


theorem Frame.trans {P : Part → Prop} {s x t : State} (h : Frame P s x) (k : Frame P x t) : Frame P s t where
  frozen := fun p => (k.frozen p).trans (h.frozen p)
  heldIrq := fun p => (k.heldIrq p).trans (h.heldIrq p)
  mbx := fun p => (k.mbx p).trans (h.mbx p)
  ind := fun p => (k.ind p).trans (h.ind p)
  stalls := fun p => (k.stalls p).trans (h.stalls p)
  checks := fun p => (k.checks p).trans (h.checks p)
  gathers := fun p => (k.gathers p).trans (h.gathers p)
  ecc := fun p => (k.ecc p).trans (h.ecc p)
  recSeq := fun p => (k.recSeq p).trans (h.recSeq p)
  time := fun p => (k.time p).trans (h.time p)
  evq := fun p => (k.evq p).trans (h.evq p)
  msix := fun p => (k.msix p).trans (h.msix p)
  msixPba := fun p => (k.msixPba p).trans (h.msixPba p)
  msixEnable := fun p => (k.msixEnable p).trans (h.msixEnable p)
  msixFuncMask := fun p => (k.msixFuncMask p).trans (h.msixFuncMask p)
  hostTx := fun p => (k.hostTx p).trans (h.hostTx p)
  icu := fun p => (k.icu p).trans (h.icu p)
  sram := fun p => (k.sram p).trans (h.sram p)
  lines := fun p => (k.lines p).trans (h.lines p)
  tiles := fun p => (k.tiles p).trans (h.tiles p)
  stampOrder := fun p => (k.stampOrder p).trans (h.stampOrder p)
  stampsHeld := fun p => (k.stampsHeld p).trans (h.stampsHeld p)
  ctrs := fun p => (k.ctrs p).trans (h.ctrs p)
  fifos := fun p => (k.fifos p).trans (h.fifos p)
  lease := fun p => (k.lease p).trans (h.lease p)
  plk := fun p => (k.plk p).trans (h.plk p)
  wins := fun p => (k.wins p).trans (h.wins p)
  winOpen := fun p => (k.winOpen p).trans (h.winOpen p)
  winEdges := fun p => (k.winEdges p).trans (h.winEdges p)
  drill := fun p => (k.drill p).trans (h.drill p)
  launches := fun p => (k.launches p).trans (h.launches p)
  rules := fun p => (k.rules p).trans (h.rules p)
  express := fun p => (k.express p).trans (h.express p)
  normal := fun p => (k.normal p).trans (h.normal p)
  eval := fun p => (k.eval p).trans (h.eval p)
  sigOps := fun p => (k.sigOps p).trans (h.sigOps p)
  pubs := fun p => (k.pubs p).trans (h.pubs p)
  pubOpen := fun p => (k.pubOpen p).trans (h.pubOpen p)
  hbAt := fun p => (k.hbAt p).trans (h.hbAt p)
  subs := fun p => (k.subs p).trans (h.subs p)
  net := fun p => (k.net p).trans (h.net p)
  ring := fun p => (k.ring p).trans (h.ring p)
  power := fun p => (k.power p).trans (h.power p)
  pulseDone := fun p => (k.pulseDone p).trans (h.pulseDone p)
  engs := fun p => (k.engs p).trans (h.engs p)
  starts := fun p => (k.starts p).trans (h.starts p)
  ptp := fun p => (k.ptp p).trans (h.ptp p)
  sources := fun p => (k.sources p).trans (h.sources p)
  serial := fun p => (k.serial p).trans (h.serial p)
  cans := fun p => (k.cans p).trans (h.cans p)
  xbr := fun p => (k.xbr p).trans (h.xbr p)
  host := fun p => (k.host p).trans (h.host p)
  dma := fun p => (k.dma p).trans (h.dma p)
  cores := fun p => (k.cores p).trans (h.cores p)
  tcm := fun p => (k.tcm p).trans (h.tcm p)
  stwSram := fun p => (k.stwSram p).trans (h.stwSram p)
  flash := fun p => (k.flash p).trans (h.flash p)
  boot := fun p => (k.boot p).trans (h.boot p)
  otp := fun p => (k.otp p).trans (h.otp p)
  sha := fun p => (k.sha p).trans (h.sha p)
  pwr := fun p => (k.pwr p).trans (h.pwr p)
  clk := fun p => (k.clk p).trans (h.clk p)
  reply := fun p => (k.reply p).trans (h.reply p)
  tclks := fun p => (k.tclks p).trans (h.tclks p)
  freeTick := fun p => (k.freeTick p).trans (h.freeTick p)
  regs := fun r p => (k.regs r p).trans (h.regs r p)
  mem := fun h0 h1 h2 a ha => (k.mem h0 h1 h2 a (fun ha' => ha (h.evAddr h0 h1 h2 ha'))).trans (h.mem h0 h1 h2 a ha)
  prods := fun h0 h1 h2 n hn => by
    rcases k.prods h0 h1 h2 n hn with e | e
    · rcases h.prods h0 h1 h2 n hn with q | q
      · exact Or.inl (e.trans q)
      · exact Or.inr (e ▸ q)
    · exact Or.inr ((h.evCfg h1 h2 hn).1 ▸ e)

theorem Frame.set_frozen {P : Part → Prop} {s x : State} (h : Frame P s x) (p : P .frozen) (v : Tab (Tab Word)) : Frame P s { x with frozen := v } :=
  { h with frozen := fun n => absurd p n }

theorem Frame.set_heldIrq {P : Part → Prop} {s x : State} (h : Frame P s x) (p : P .heldIrq) (v : Tab Word) : Frame P s { x with heldIrq := v } :=
  { h with heldIrq := fun n => absurd p n }

theorem Frame.set_mbx {P : Part → Prop} {s x : State} (h : Frame P s x) (p : P .mbx) (v : Tab (Option MbxJob)) : Frame P s { x with mbx := v } :=
  { h with mbx := fun n => absurd p n }

theorem Frame.set_ind {P : Part → Prop} {s x : State} (h : Frame P s x) (p : P .ind) (v : Tab (List IndAccess)) : Frame P s { x with ind := v } :=
  { h with ind := fun n => absurd p n }

theorem Frame.set_stalls {P : Part → Prop} {s x : State} (h : Frame P s x) (p : P .stalls) (v : Tab (List Stall)) : Frame P s { x with stalls := v } :=
  { h with stalls := fun n => absurd p n }

theorem Frame.set_checks {P : Part → Prop} {s x : State} (h : Frame P s x) (p : P .checks) (v : Tab CheckSt) : Frame P s { x with checks := v } :=
  { h with checks := fun n => absurd p n }

theorem Frame.set_gathers {P : Part → Prop} {s x : State} (h : Frame P s x) (p : P .gathers) (v : Tab Gather) : Frame P s { x with gathers := v } :=
  { h with gathers := fun n => absurd p n }

theorem Frame.set_ecc {P : Part → Prop} {s x : State} (h : Frame P s x) (p : P .ecc) (v : Tab EccSt) : Frame P s { x with ecc := v } :=
  { h with ecc := fun n => absurd p n }

theorem Frame.set_recSeq {P : Part → Prop} {s x : State} (h : Frame P s x) (p : P .recSeq) (v : BitVec 16) : Frame P s { x with recSeq := v } :=
  { h with recSeq := fun n => absurd p n }

theorem Frame.set_time {P : Part → Prop} {s x : State} (h : Frame P s x) (p : P .time) (v : TimeSt) : Frame P s { x with time := v } :=
  { h with time := fun n => absurd p n }

theorem Frame.set_msix {P : Part → Prop} {s x : State} (h : Frame P s x) (p : P .msix) (v : Tab MsixVec) : Frame P s { x with msix := v } :=
  { h with msix := fun n => absurd p n }

theorem Frame.set_msixPba {P : Part → Prop} {s x : State} (h : Frame P s x) (p : P .msixPba) (v : List Nat) : Frame P s { x with msixPba := v } :=
  { h with msixPba := fun n => absurd p n }

theorem Frame.set_msixEnable {P : Part → Prop} {s x : State} (h : Frame P s x) (p : P .msixEnable) (v : Bool) : Frame P s { x with msixEnable := v } :=
  { h with msixEnable := fun n => absurd p n }

theorem Frame.set_msixFuncMask {P : Part → Prop} {s x : State} (h : Frame P s x) (p : P .msixFuncMask) (v : Bool) : Frame P s { x with msixFuncMask := v } :=
  { h with msixFuncMask := fun n => absurd p n }

theorem Frame.set_hostTx {P : Part → Prop} {s x : State} (h : Frame P s x) (p : P .hostTx) (v : List HostTlp) : Frame P s { x with hostTx := v } :=
  { h with hostTx := fun n => absurd p n }

theorem Frame.set_icu {P : Part → Prop} {s x : State} (h : Frame P s x) (p : P .icu) (v : IcuSt) : Frame P s { x with icu := v } :=
  { h with icu := fun n => absurd p n }

theorem Frame.set_sram {P : Part → Prop} {s x : State} (h : Frame P s x) (p : P .sram) (v : Tab Word) : Frame P s { x with sram := v } :=
  { h with sram := fun n => absurd p n }

theorem Frame.set_lines {P : Part → Prop} {s x : State} (h : Frame P s x) (p : P .lines) (v : Tab LineCell) : Frame P s { x with lines := v } :=
  { h with lines := fun n => absurd p n }

theorem Frame.set_tiles {P : Part → Prop} {s x : State} (h : Frame P s x) (p : P .tiles) (v : Tab TileSt) : Frame P s { x with tiles := v } :=
  { h with tiles := fun n => absurd p n }

theorem Frame.set_stampOrder {P : Part → Prop} {s x : State} (h : Frame P s x) (p : P .stampOrder) (v : Nat) : Frame P s { x with stampOrder := v } :=
  { h with stampOrder := fun n => absurd p n }

theorem Frame.set_stampsHeld {P : Part → Prop} {s x : State} (h : Frame P s x) (p : P .stampsHeld) (v : Bool) : Frame P s { x with stampsHeld := v } :=
  { h with stampsHeld := fun n => absurd p n }

theorem Frame.set_ctrs {P : Part → Prop} {s x : State} (h : Frame P s x) (p : P .ctrs) (v : Tab CtrSt) : Frame P s { x with ctrs := v } :=
  { h with ctrs := fun n => absurd p n }

theorem Frame.set_fifos {P : Part → Prop} {s x : State} (h : Frame P s x) (p : P .fifos) (v : Tab FifoSt) : Frame P s { x with fifos := v } :=
  { h with fifos := fun n => absurd p n }

theorem Frame.set_lease {P : Part → Prop} {s x : State} (h : Frame P s x) (p : P .lease) (v : LeaseSt) : Frame P s { x with lease := v } :=
  { h with lease := fun n => absurd p n }

theorem Frame.set_plk {P : Part → Prop} {s x : State} (h : Frame P s x) (p : P .plk) (v : PlkSt) : Frame P s { x with plk := v } :=
  { h with plk := fun n => absurd p n }

theorem Frame.set_wins {P : Part → Prop} {s x : State} (h : Frame P s x) (p : P .wins) (v : Tab WinEnt) : Frame P s { x with wins := v } :=
  { h with wins := fun n => absurd p n }

theorem Frame.set_winOpen {P : Part → Prop} {s x : State} (h : Frame P s x) (p : P .winOpen) (v : List Nat) : Frame P s { x with winOpen := v } :=
  { h with winOpen := fun n => absurd p n }

theorem Frame.set_winEdges {P : Part → Prop} {s x : State} (h : Frame P s x) (p : P .winEdges) (v : List WinEdge) : Frame P s { x with winEdges := v } :=
  { h with winEdges := fun n => absurd p n }

theorem Frame.set_drill {P : Part → Prop} {s x : State} (h : Frame P s x) (p : P .drill) (v : Tab DrillEnt) : Frame P s { x with drill := v } :=
  { h with drill := fun n => absurd p n }

theorem Frame.set_launches {P : Part → Prop} {s x : State} (h : Frame P s x) (p : P .launches) (v : List TimePoint) : Frame P s { x with launches := v } :=
  { h with launches := fun n => absurd p n }

theorem Frame.set_rules {P : Part → Prop} {s x : State} (h : Frame P s x) (p : P .rules) (v : Tab Rule) : Frame P s { x with rules := v } :=
  { h with rules := fun n => absurd p n }

theorem Frame.set_express {P : Part → Prop} {s x : State} (h : Frame P s x) (p : P .express) (v : List Nat) : Frame P s { x with express := v } :=
  { h with express := fun n => absurd p n }

theorem Frame.set_normal {P : Part → Prop} {s x : State} (h : Frame P s x) (p : P .normal) (v : List Nat) : Frame P s { x with normal := v } :=
  { h with normal := fun n => absurd p n }

theorem Frame.set_eval {P : Part → Prop} {s x : State} (h : Frame P s x) (p : P .eval) (v : EvalSt) : Frame P s { x with eval := v } :=
  { h with eval := fun n => absurd p n }

theorem Frame.set_sigOps {P : Part → Prop} {s x : State} (h : Frame P s x) (p : P .sigOps) (v : List Nat) : Frame P s { x with sigOps := v } :=
  { h with sigOps := fun n => absurd p n }

theorem Frame.set_pubs {P : Part → Prop} {s x : State} (h : Frame P s x) (p : P .pubs) (v : Tab PubSlot) : Frame P s { x with pubs := v } :=
  { h with pubs := fun n => absurd p n }

theorem Frame.set_pubOpen {P : Part → Prop} {s x : State} (h : Frame P s x) (p : P .pubOpen) (v : List PubOpen) : Frame P s { x with pubOpen := v } :=
  { h with pubOpen := fun n => absurd p n }

theorem Frame.set_hbAt {P : Part → Prop} {s x : State} (h : Frame P s x) (p : P .hbAt) (v : Nat) : Frame P s { x with hbAt := v } :=
  { h with hbAt := fun n => absurd p n }

theorem Frame.set_subs {P : Part → Prop} {s x : State} (h : Frame P s x) (p : P .subs) (v : Tab SubEnt) : Frame P s { x with subs := v } :=
  { h with subs := fun n => absurd p n }

theorem Frame.set_net {P : Part → Prop} {s x : State} (h : Frame P s x) (p : P .net) (v : NetSt) : Frame P s { x with net := v } :=
  { h with net := fun n => absurd p n }

theorem Frame.set_ring {P : Part → Prop} {s x : State} (h : Frame P s x) (p : P .ring) (v : RingSt) : Frame P s { x with ring := v } :=
  { h with ring := fun n => absurd p n }

theorem Frame.set_power {P : Part → Prop} {s x : State} (h : Frame P s x) (p : P .power) (v : PowerState) : Frame P s { x with power := v } :=
  { h with power := fun n => absurd p n }

theorem Frame.set_pulseDone {P : Part → Prop} {s x : State} (h : Frame P s x) (p : P .pulseDone) (v : List PulseDone) : Frame P s { x with pulseDone := v } :=
  { h with pulseDone := fun n => absurd p n }

theorem Frame.set_engs {P : Part → Prop} {s x : State} (h : Frame P s x) (p : P .engs) (v : Tab EngSt) : Frame P s { x with engs := v } :=
  { h with engs := fun n => absurd p n }

theorem Frame.set_starts {P : Part → Prop} {s x : State} (h : Frame P s x) (p : P .starts) (v : List StartEvt) : Frame P s { x with starts := v } :=
  { h with starts := fun n => absurd p n }

theorem Frame.set_ptp {P : Part → Prop} {s x : State} (h : Frame P s x) (p : P .ptp) (v : PtpSt) : Frame P s { x with ptp := v } :=
  { h with ptp := fun n => absurd p n }

theorem Frame.set_sources {P : Part → Prop} {s x : State} (h : Frame P s x) (p : P .sources) (v : Tab LocalSrc) : Frame P s { x with sources := v } :=
  { h with sources := fun n => absurd p n }

theorem Frame.set_serial {P : Part → Prop} {s x : State} (h : Frame P s x) (p : P .serial) (v : Tab SerSt) : Frame P s { x with serial := v } :=
  { h with serial := fun n => absurd p n }

theorem Frame.set_cans {P : Part → Prop} {s x : State} (h : Frame P s x) (p : P .cans) (v : Tab CanSt) : Frame P s { x with cans := v } :=
  { h with cans := fun n => absurd p n }

theorem Frame.set_xbr {P : Part → Prop} {s x : State} (h : Frame P s x) (p : P .xbr) (v : XbrSt) : Frame P s { x with xbr := v } :=
  { h with xbr := fun n => absurd p n }

theorem Frame.set_host {P : Part → Prop} {s x : State} (h : Frame P s x) (p : P .host) (v : HostSt) : Frame P s { x with host := v } :=
  { h with host := fun n => absurd p n }

theorem Frame.set_dma {P : Part → Prop} {s x : State} (h : Frame P s x) (p : P .dma) (v : Tab DmaSt) : Frame P s { x with dma := v } :=
  { h with dma := fun n => absurd p n }

theorem Frame.set_cores {P : Part → Prop} {s x : State} (h : Frame P s x) (p : P .cores) (v : Tab CoreSt) : Frame P s { x with cores := v } :=
  { h with cores := fun n => absurd p n }

theorem Frame.set_tcm {P : Part → Prop} {s x : State} (h : Frame P s x) (p : P .tcm) (v : Tab Byte) : Frame P s { x with tcm := v } :=
  { h with tcm := fun n => absurd p n }

theorem Frame.set_stwSram {P : Part → Prop} {s x : State} (h : Frame P s x) (p : P .stwSram) (v : Tab Byte) : Frame P s { x with stwSram := v } :=
  { h with stwSram := fun n => absurd p n }

theorem Frame.set_flash {P : Part → Prop} {s x : State} (h : Frame P s x) (p : P .flash) (v : Tab Byte) : Frame P s { x with flash := v } :=
  { h with flash := fun n => absurd p n }

theorem Frame.set_boot {P : Part → Prop} {s x : State} (h : Frame P s x) (p : P .boot) (v : BootSt) : Frame P s { x with boot := v } :=
  { h with boot := fun n => absurd p n }

theorem Frame.set_otp {P : Part → Prop} {s x : State} (h : Frame P s x) (p : P .otp) (v : OtpSt) : Frame P s { x with otp := v } :=
  { h with otp := fun n => absurd p n }

theorem Frame.set_sha {P : Part → Prop} {s x : State} (h : Frame P s x) (p : P .sha) (v : List Byte) : Frame P s { x with sha := v } :=
  { h with sha := fun n => absurd p n }

theorem Frame.set_pwr {P : Part → Prop} {s x : State} (h : Frame P s x) (p : P .pwr) (v : PwrSt) : Frame P s { x with pwr := v } :=
  { h with pwr := fun n => absurd p n }

theorem Frame.set_clk {P : Part → Prop} {s x : State} (h : Frame P s x) (p : P .clk) (v : ClkSt) : Frame P s { x with clk := v } :=
  { h with clk := fun n => absurd p n }

theorem Frame.set_reply {P : Part → Prop} {s x : State} (h : Frame P s x) (p : P .reply) (v : Reply) : Frame P s { x with reply := v } :=
  { h with reply := fun n => absurd p n }

theorem Frame.set_tclks {P : Part → Prop} {s x : State} (h : Frame P s x) (p : P .tclks) (v : Nat) : Frame P s { x with tclks := v } :=
  { h with tclks := fun n => absurd p n }

theorem Frame.set_freeTick {P : Part → Prop} {s x : State} (h : Frame P s x) (p : P .freeTick) (v : Nat) : Frame P s { x with freeTick := v } :=
  { h with freeTick := fun n => absurd p n }

theorem Frame.set_express_normal {P : Part → Prop} {s x : State} (h : Frame P s x) (p_express : P .express) (p_normal : P .normal) (v_express : List Nat) (v_normal : List Nat) :
    Frame P s { x with express := v_express, normal := v_normal } :=
  { h with express := fun n => absurd p_express n, normal := fun n => absurd p_normal n }

theorem Frame.set_express_normal_eval {P : Part → Prop} {s x : State} (h : Frame P s x) (p_express : P .express) (p_normal : P .normal) (p_eval : P .eval) (v_express : List Nat) (v_normal : List Nat) (v_eval : EvalSt) :
    Frame P s { x with express := v_express, normal := v_normal, eval := v_eval } :=
  { h with express := fun n => absurd p_express n, normal := fun n => absurd p_normal n, eval := fun n => absurd p_eval n }

theorem Frame.set_frozen_heldIrq {P : Part → Prop} {s x : State} (h : Frame P s x) (p_frozen : P .frozen) (p_heldIrq : P .heldIrq) (v_frozen : Tab (Tab Word)) (v_heldIrq : Tab Word) :
    Frame P s { x with frozen := v_frozen, heldIrq := v_heldIrq } :=
  { h with frozen := fun n => absurd p_frozen n, heldIrq := fun n => absurd p_heldIrq n }

theorem Frame.set_msixEnable_msixFuncMask {P : Part → Prop} {s x : State} (h : Frame P s x) (p_msixEnable : P .msixEnable) (p_msixFuncMask : P .msixFuncMask) (v_msixEnable : Bool) (v_msixFuncMask : Bool) :
    Frame P s { x with msixEnable := v_msixEnable, msixFuncMask := v_msixFuncMask } :=
  { h with msixEnable := fun n => absurd p_msixEnable n, msixFuncMask := fun n => absurd p_msixFuncMask n }

theorem Frame.set_msix_msixPba_msixEnable_msixFuncMask {P : Part → Prop} {s x : State} (h : Frame P s x) (p_msix : P .msix) (p_msixPba : P .msixPba) (p_msixEnable : P .msixEnable) (p_msixFuncMask : P .msixFuncMask) (v_msix : Tab MsixVec) (v_msixPba : List Nat) (v_msixEnable : Bool) (v_msixFuncMask : Bool) :
    Frame P s { x with msix := v_msix, msixPba := v_msixPba, msixEnable := v_msixEnable, msixFuncMask := v_msixFuncMask } :=
  { h with msix := fun n => absurd p_msix n, msixPba := fun n => absurd p_msixPba n, msixEnable := fun n => absurd p_msixEnable n, msixFuncMask := fun n => absurd p_msixFuncMask n }

theorem Frame.set_net_power_clk {P : Part → Prop} {s x : State} (h : Frame P s x) (p_net : P .net) (p_power : P .power) (p_clk : P .clk) (v_net : NetSt) (v_power : PowerState) (v_clk : ClkSt) :
    Frame P s { x with net := v_net, power := v_power, clk := v_clk } :=
  { h with net := fun n => absurd p_net n, power := fun n => absurd p_power n, clk := fun n => absurd p_clk n }

theorem Frame.set_time_tclks {P : Part → Prop} {s x : State} (h : Frame P s x) (p_time : P .time) (p_tclks : P .tclks) (v_time : TimeSt) (v_tclks : Nat) :
    Frame P s { x with time := v_time, tclks := v_tclks } :=
  { h with time := fun n => absurd p_time n, tclks := fun n => absurd p_tclks n }

theorem Reg.adcChVal_in {P : Part → Prop} (n : Nat) (hb : n < 16) (h : P .regAdc) : RegIn P (Reg.adcChVal n) :=
  RegIn.of h 0 rfl ⟨n, hb, rfl⟩

theorem Reg.adcCntFail_in {P : Part → Prop} (n : Nat) (hb : n < 16) (h : P .regAdc) : RegIn P (Reg.adcCntFail n) :=
  RegIn.of h 1 rfl ⟨n, hb, rfl⟩

theorem Reg.bootAo_in {P : Part → Prop} (h : P .regBoot) : RegIn P (Reg.bootAo) :=
  RegIn.of h 0 rfl rfl

theorem Reg.bootFieldVersion_in {P : Part → Prop} (h : P .regBoot) : RegIn P (Reg.bootFieldVersion) :=
  RegIn.of h 1 rfl rfl

theorem Reg.bootKeeperVersion_in {P : Part → Prop} (h : P .regBoot) : RegIn P (Reg.bootKeeperVersion) :=
  RegIn.of h 2 rfl rfl

theorem Reg.bootStatus_in {P : Part → Prop} (h : P .regBoot) : RegIn P (Reg.bootStatus) :=
  RegIn.of h 3 rfl rfl

theorem Reg.bufCntDropFloor_in {P : Part → Prop} (n : Nat) (hb : n < 8) (h : P .regBuf) : RegIn P (Reg.bufCntDropFloor n) :=
  RegIn.of h 0 rfl ⟨n, hb, rfl⟩

theorem Reg.bufCntDropShare_in {P : Part → Prop} (n : Nat) (hb : n < 8) (h : P .regBuf) : RegIn P (Reg.bufCntDropShare n) :=
  RegIn.of h 1 rfl ⟨n, hb, rfl⟩

theorem Reg.bufCntEccDiscard_in {P : Part → Prop} (h : P .regBuf) : RegIn P (Reg.bufCntEccDiscard) :=
  RegIn.of h 2 rfl rfl

theorem Reg.bufCntPushed_in {P : Part → Prop} (n : Nat) (hb : n < 8) (h : P .regBuf) : RegIn P (Reg.bufCntPushed n) :=
  RegIn.of h 3 rfl ⟨n, hb, rfl⟩

theorem Reg.bufCntSpilled_in {P : Part → Prop} (n : Nat) (hb : n < 8) (h : P .regBuf) : RegIn P (Reg.bufCntSpilled n) :=
  RegIn.of h 4 rfl ⟨n, hb, rfl⟩

theorem Reg.bufCntStoreDrop_in {P : Part → Prop} (h : P .regBuf) : RegIn P (Reg.bufCntStoreDrop) :=
  RegIn.of h 5 rfl rfl

theorem Reg.bufFloors_in {P : Part → Prop} (h : P .regBuf) : RegIn P (Reg.bufFloors) :=
  RegIn.of h 6 rfl rfl

theorem Reg.bufSpill_in {P : Part → Prop} (h : P .regBuf) : RegIn P (Reg.bufSpill) :=
  RegIn.of h 7 rfl rfl

theorem Reg.bufStoreBase_in {P : Part → Prop} (h : P .regBuf) : RegIn P (Reg.bufStoreBase) :=
  RegIn.of h 8 rfl rfl

theorem Reg.bufStorePeak_in {P : Part → Prop} (h : P .regBuf) : RegIn P (Reg.bufStorePeak) :=
  RegIn.of h 9 rfl rfl

theorem Reg.bufStoreSize_in {P : Part → Prop} (h : P .regBuf) : RegIn P (Reg.bufStoreSize) :=
  RegIn.of h 10 rfl rfl

theorem Reg.canCntAck_in {P : Part → Prop} (i : Nat) (h : P .regCan) : RegIn P (Reg.canCntAck i) :=
  RegIn.of h 0 rfl ⟨i, rfl⟩

theorem Reg.canCntArbLost_in {P : Part → Prop} (i : Nat) (h : P .regCan) : RegIn P (Reg.canCntArbLost i) :=
  RegIn.of h 1 rfl ⟨i, rfl⟩

theorem Reg.canCntBit_in {P : Part → Prop} (i : Nat) (h : P .regCan) : RegIn P (Reg.canCntBit i) :=
  RegIn.of h 2 rfl ⟨i, rfl⟩

theorem Reg.canCntBusOff_in {P : Part → Prop} (i : Nat) (h : P .regCan) : RegIn P (Reg.canCntBusOff i) :=
  RegIn.of h 3 rfl ⟨i, rfl⟩

theorem Reg.canCntCrc_in {P : Part → Prop} (i : Nat) (h : P .regCan) : RegIn P (Reg.canCntCrc i) :=
  RegIn.of h 4 rfl ⟨i, rfl⟩

theorem Reg.canCntFiltered_in {P : Part → Prop} (i : Nat) (h : P .regCan) : RegIn P (Reg.canCntFiltered i) :=
  RegIn.of h 5 rfl ⟨i, rfl⟩

theorem Reg.canCntForm_in {P : Part → Prop} (i : Nat) (h : P .regCan) : RegIn P (Reg.canCntForm i) :=
  RegIn.of h 6 rfl ⟨i, rfl⟩

theorem Reg.canCntMbRefused_in {P : Part → Prop} (i : Nat) (h : P .regCan) : RegIn P (Reg.canCntMbRefused i) :=
  RegIn.of h 7 rfl ⟨i, rfl⟩

theorem Reg.canCntRxOk_in {P : Part → Prop} (i : Nat) (h : P .regCan) : RegIn P (Reg.canCntRxOk i) :=
  RegIn.of h 8 rfl ⟨i, rfl⟩

theorem Reg.canCntRxOverrun_in {P : Part → Prop} (i : Nat) (h : P .regCan) : RegIn P (Reg.canCntRxOverrun i) :=
  RegIn.of h 9 rfl ⟨i, rfl⟩

theorem Reg.canCntStuff_in {P : Part → Prop} (i : Nat) (h : P .regCan) : RegIn P (Reg.canCntStuff i) :=
  RegIn.of h 10 rfl ⟨i, rfl⟩

theorem Reg.canCntTxOk_in {P : Part → Prop} (i : Nat) (h : P .regCan) : RegIn P (Reg.canCntTxOk i) :=
  RegIn.of h 11 rfl ⟨i, rfl⟩

theorem Reg.canCntTxRewind_in {P : Part → Prop} (i : Nat) (h : P .regCan) : RegIn P (Reg.canCntTxRewind i) :=
  RegIn.of h 12 rfl ⟨i, rfl⟩

theorem Reg.canLastErr_in {P : Part → Prop} (i : Nat) (h : P .regCan) : RegIn P (Reg.canLastErr i) :=
  RegIn.of h 13 rfl ⟨i, rfl⟩

theorem Reg.canTdcStatus_in {P : Part → Prop} (i : Nat) (h : P .regCan) : RegIn P (Reg.canTdcStatus i) :=
  RegIn.of h 14 rfl ⟨i, rfl⟩

theorem Reg.canTxdone_in {P : Part → Prop} (i : Nat) (h : P .regCan) : RegIn P (Reg.canTxdone i) :=
  RegIn.of h 15 rfl ⟨i, rfl⟩

theorem Reg.canTxfail_in {P : Part → Prop} (i : Nat) (h : P .regCan) : RegIn P (Reg.canTxfail i) :=
  RegIn.of h 16 rfl ⟨i, rfl⟩

theorem Reg.canTxpend_in {P : Part → Prop} (i : Nat) (h : P .regCan) : RegIn P (Reg.canTxpend i) :=
  RegIn.of h 17 rfl ⟨i, rfl⟩

theorem Reg.chCntBreak_in {P : Part → Prop} (i : Nat) (h : P .regCh) : RegIn P (Reg.chCntBreak i) :=
  RegIn.of h 0 rfl ⟨i, rfl⟩

theorem Reg.chCntDriveConflict_in {P : Part → Prop} (i : Nat) (h : P .regCh) : RegIn P (Reg.chCntDriveConflict i) :=
  RegIn.of h 1 rfl ⟨i, rfl⟩

theorem Reg.chCntEdgeRate_in {P : Part → Prop} (i : Nat) (h : P .regCh) : RegIn P (Reg.chCntEdgeRate i) :=
  RegIn.of h 2 rfl ⟨i, rfl⟩

theorem Reg.chCntEngStall_in {P : Part → Prop} (i : Nat) (h : P .regCh) : RegIn P (Reg.chCntEngStall i) :=
  RegIn.of h 3 rfl ⟨i, rfl⟩

theorem Reg.chCntFraming_in {P : Part → Prop} (i : Nat) (h : P .regCh) : RegIn P (Reg.chCntFraming i) :=
  RegIn.of h 4 rfl ⟨i, rfl⟩

theorem Reg.chCntGapErr_in {P : Part → Prop} (i : Nat) (h : P .regCh) : RegIn P (Reg.chCntGapErr i) :=
  RegIn.of h 5 rfl ⟨i, rfl⟩

theorem Reg.chCntI2cFail_in {P : Part → Prop} (i : Nat) (h : P .regCh) : RegIn P (Reg.chCntI2cFail i) :=
  RegIn.of h 6 rfl ⟨i, rfl⟩

theorem Reg.chCntIdle_in {P : Part → Prop} (i : Nat) (h : P .regCh) : RegIn P (Reg.chCntIdle i) :=
  RegIn.of h 7 rfl ⟨i, rfl⟩

theorem Reg.chCntIrigBad_in {P : Part → Prop} (i : Nat) (h : P .regCh) : RegIn P (Reg.chCntIrigBad i) :=
  RegIn.of h 8 rfl ⟨i, rfl⟩

theorem Reg.chCntMaxWidth_in {P : Part → Prop} (i : Nat) (h : P .regCh) : RegIn P (Reg.chCntMaxWidth i) :=
  RegIn.of h 9 rfl ⟨i, rfl⟩

theorem Reg.chCntMinWidth_in {P : Part → Prop} (i : Nat) (h : P .regCh) : RegIn P (Reg.chCntMinWidth i) :=
  RegIn.of h 10 rfl ⟨i, rfl⟩

theorem Reg.chCntParity_in {P : Part → Prop} (i : Nat) (h : P .regCh) : RegIn P (Reg.chCntParity i) :=
  RegIn.of h 11 rfl ⟨i, rfl⟩

theorem Reg.chCntPpsBad_in {P : Part → Prop} (i : Nat) (h : P .regCh) : RegIn P (Reg.chCntPpsBad i) :=
  RegIn.of h 12 rfl ⟨i, rfl⟩

theorem Reg.chCntProgRefused_in {P : Part → Prop} (i : Nat) (h : P .regCh) : RegIn P (Reg.chCntProgRefused i) :=
  RegIn.of h 13 rfl ⟨i, rfl⟩

theorem Reg.chCntProtRefused_in {P : Part → Prop} (i : Nat) (h : P .regCh) : RegIn P (Reg.chCntProtRefused i) :=
  RegIn.of h 14 rfl ⟨i, rfl⟩

theorem Reg.chCntReadback_in {P : Part → Prop} (i : Nat) (h : P .regCh) : RegIn P (Reg.chCntReadback i) :=
  RegIn.of h 15 rfl ⟨i, rfl⟩

theorem Reg.chCntRxBad_in {P : Part → Prop} (i : Nat) (h : P .regCh) : RegIn P (Reg.chCntRxBad i) :=
  RegIn.of h 16 rfl ⟨i, rfl⟩

theorem Reg.chCntRxDe_in {P : Part → Prop} (i : Nat) (h : P .regCh) : RegIn P (Reg.chCntRxDe i) :=
  RegIn.of h 17 rfl ⟨i, rfl⟩

theorem Reg.chCntRxDropped_in {P : Part → Prop} (i : Nat) (h : P .regCh) : RegIn P (Reg.chCntRxDropped i) :=
  RegIn.of h 18 rfl ⟨i, rfl⟩

theorem Reg.chCntRxOverrun_in {P : Part → Prop} (i : Nat) (h : P .regCh) : RegIn P (Reg.chCntRxOverrun i) :=
  RegIn.of h 19 rfl ⟨i, rfl⟩

theorem Reg.chCntRxRewind_in {P : Part → Prop} (i : Nat) (h : P .regCh) : RegIn P (Reg.chCntRxRewind i) :=
  RegIn.of h 20 rfl ⟨i, rfl⟩

theorem Reg.chCntRxUnderrun_in {P : Part → Prop} (i : Nat) (h : P .regCh) : RegIn P (Reg.chCntRxUnderrun i) :=
  RegIn.of h 21 rfl ⟨i, rfl⟩

theorem Reg.chCntSmbTimeout_in {P : Part → Prop} (i : Nat) (h : P .regCh) : RegIn P (Reg.chCntSmbTimeout i) :=
  RegIn.of h 22 rfl ⟨i, rfl⟩

theorem Reg.chCntSpiPartial_in {P : Part → Prop} (i : Nat) (h : P .regCh) : RegIn P (Reg.chCntSpiPartial i) :=
  RegIn.of h 23 rfl ⟨i, rfl⟩

theorem Reg.chCntStartIgnored_in {P : Part → Prop} (i : Nat) (h : P .regCh) : RegIn P (Reg.chCntStartIgnored i) :=
  RegIn.of h 24 rfl ⟨i, rfl⟩

theorem Reg.chCntTimeLate_in {P : Part → Prop} (i : Nat) (h : P .regCh) : RegIn P (Reg.chCntTimeLate i) :=
  RegIn.of h 25 rfl ⟨i, rfl⟩

theorem Reg.chCntTxBad_in {P : Part → Prop} (i : Nat) (h : P .regCh) : RegIn P (Reg.chCntTxBad i) :=
  RegIn.of h 26 rfl ⟨i, rfl⟩

theorem Reg.chCntTxDropped_in {P : Part → Prop} (i : Nat) (h : P .regCh) : RegIn P (Reg.chCntTxDropped i) :=
  RegIn.of h 27 rfl ⟨i, rfl⟩

theorem Reg.chCntTxOverrun_in {P : Part → Prop} (i : Nat) (h : P .regCh) : RegIn P (Reg.chCntTxOverrun i) :=
  RegIn.of h 28 rfl ⟨i, rfl⟩

theorem Reg.chCntTxRewind_in {P : Part → Prop} (i : Nat) (h : P .regCh) : RegIn P (Reg.chCntTxRewind i) :=
  RegIn.of h 29 rfl ⟨i, rfl⟩

theorem Reg.chCntTxUnderrun_in {P : Part → Prop} (i : Nat) (h : P .regCh) : RegIn P (Reg.chCntTxUnderrun i) :=
  RegIn.of h 30 rfl ⟨i, rfl⟩

theorem Reg.chCtrCap_in {P : Part → Prop} (i n : Nat) (hb : n < 6) (h : P .regCh) : RegIn P (Reg.chCtrCap i n) :=
  RegIn.of h 31 rfl ⟨i, n, hb, rfl⟩

theorem Reg.chCtrCount_in {P : Part → Prop} (i : Nat) (h : P .regCh) : RegIn P (Reg.chCtrCount i) :=
  RegIn.of h 32 rfl ⟨i, rfl⟩

theorem Reg.chEngCfg_in {P : Part → Prop} (i : Nat) (h : P .regCh) : RegIn P (Reg.chEngCfg i) :=
  RegIn.of h 33 rfl ⟨i, rfl⟩

theorem Reg.chEngEntry_in {P : Part → Prop} (i : Nat) (h : P .regCh) : RegIn P (Reg.chEngEntry i) :=
  RegIn.of h 34 rfl ⟨i, rfl⟩

theorem Reg.chEngMarkSec_in {P : Part → Prop} (i : Nat) (h : P .regCh) : RegIn P (Reg.chEngMarkSec i) :=
  RegIn.of h 35 rfl ⟨i, rfl⟩

theorem Reg.chEngProgAddr_in {P : Part → Prop} (i : Nat) (h : P .regCh) : RegIn P (Reg.chEngProgAddr i) :=
  RegIn.of h 36 rfl ⟨i, rfl⟩

theorem Reg.chEngSeg_in {P : Part → Prop} (i : Nat) (h : P .regCh) : RegIn P (Reg.chEngSeg i) :=
  RegIn.of h 37 rfl ⟨i, rfl⟩

theorem Reg.chEngWrap_in {P : Part → Prop} (i : Nat) (h : P .regCh) : RegIn P (Reg.chEngWrap i) :=
  RegIn.of h 38 rfl ⟨i, rfl⟩

theorem Reg.chFunc_in {P : Part → Prop} (i : Nat) (h : P .regCh) : RegIn P (Reg.chFunc i) :=
  RegIn.of h 39 rfl ⟨i, rfl⟩

theorem Reg.clkCntPcieRefclk_in {P : Part → Prop} (h : P .regClk) : RegIn P (Reg.clkCntPcieRefclk) :=
  RegIn.of h 0 rfl rfl

theorem Reg.clkCntPll_in {P : Part → Prop} (h : P .regClk) : RegIn P (Reg.clkCntPll) :=
  RegIn.of h 1 rfl rfl

theorem Reg.clkCntRefclkSd_in {P : Part → Prop} (h : P .regClk) : RegIn P (Reg.clkCntRefclkSd) :=
  RegIn.of h 2 rfl rfl

theorem Reg.clkCntTclk_in {P : Part → Prop} (h : P .regClk) : RegIn P (Reg.clkCntTclk) :=
  RegIn.of h 3 rfl rfl

theorem Reg.clkCntTileLock_in {P : Part → Prop} (h : P .regClk) : RegIn P (Reg.clkCntTileLock) :=
  RegIn.of h 4 rfl rfl

theorem Reg.clkCntXt32_in {P : Part → Prop} (h : P .regClk) : RegIn P (Reg.clkCntXt32) :=
  RegIn.of h 5 rfl rfl

theorem Reg.clkStateReq_in {P : Part → Prop} (h : P .regClk) : RegIn P (Reg.clkStateReq) :=
  RegIn.of h 6 rfl rfl

theorem Reg.ctrl_in {P : Part → Prop} (page : Nat) (h : P .regCtrl) : RegIn P (Reg.ctrl page) :=
  RegIn.of h 0 rfl ⟨page, rfl⟩

theorem Reg.ddrCntEccCorr_in {P : Part → Prop} (h : P .regDdr) : RegIn P (Reg.ddrCntEccCorr) :=
  RegIn.of h 0 rfl rfl

theorem Reg.ddrCntEccUncorr_in {P : Part → Prop} (h : P .regDdr) : RegIn P (Reg.ddrCntEccUncorr) :=
  RegIn.of h 1 rfl rfl

theorem Reg.ddrEccAddrHi_in {P : Part → Prop} (h : P .regDdr) : RegIn P (Reg.ddrEccAddrHi) :=
  RegIn.of h 2 rfl rfl

theorem Reg.ddrEccAddrLo_in {P : Part → Prop} (h : P .regDdr) : RegIn P (Reg.ddrEccAddrLo) :=
  RegIn.of h 3 rfl rfl

theorem Reg.dmaDcBytes_in {P : Part → Prop} (n : Nat) (h : P .regDma) : RegIn P (Reg.dmaDcBytes n) :=
  RegIn.of h 0 rfl ⟨n, rfl⟩

theorem Reg.dmaDcCtrl_in {P : Part → Prop} (n : Nat) (h : P .regDma) : RegIn P (Reg.dmaDcCtrl n) :=
  RegIn.of h 1 rfl ⟨n, rfl⟩

theorem Reg.dmaDcHead_in {P : Part → Prop} (n : Nat) (h : P .regDma) : RegIn P (Reg.dmaDcHead n) :=
  RegIn.of h 2 rfl ⟨n, rfl⟩

theorem Reg.dmaDcStatus_in {P : Part → Prop} (n : Nat) (h : P .regDma) : RegIn P (Reg.dmaDcStatus n) :=
  RegIn.of h 3 rfl ⟨n, rfl⟩

theorem Reg.dmaDcTail_in {P : Part → Prop} (n : Nat) (h : P .regDma) : RegIn P (Reg.dmaDcTail n) :=
  RegIn.of h 4 rfl ⟨n, rfl⟩

theorem Reg.drlCntFired_in {P : Part → Prop} (h : P .regDrl) : RegIn P (Reg.drlCntFired) :=
  RegIn.of h 0 rfl rfl

theorem Reg.drlCntLateRun_in {P : Part → Prop} (h : P .regDrl) : RegIn P (Reg.drlCntLateRun) :=
  RegIn.of h 1 rfl rfl

theorem Reg.drlCntLateSkip_in {P : Part → Prop} (h : P .regDrl) : RegIn P (Reg.drlCntLateSkip) :=
  RegIn.of h 2 rfl rfl

theorem Reg.drlCntRefused_in {P : Part → Prop} (h : P .regDrl) : RegIn P (Reg.drlCntRefused) :=
  RegIn.of h 3 rfl rfl

theorem Reg.drlCntUnlocked_in {P : Part → Prop} (h : P .regDrl) : RegIn P (Reg.drlCntUnlocked) :=
  RegIn.of h 4 rfl rfl

theorem Reg.evqCntBadCi_in {P : Part → Prop} (h : P .regEvq) : RegIn P (Reg.evqCntBadCi) :=
  RegIn.of h 0 rfl rfl

theorem Reg.evqCntDrop_in {P : Part → Prop} (n : Nat) (hb : n < 16) (h : P .regEvq) : RegIn P (Reg.evqCntDrop n) :=
  RegIn.of h 1 rfl ⟨n, hb, rfl⟩

theorem Reg.evqCntUnrouted_in {P : Part → Prop} (h : P .regEvq) : RegIn P (Reg.evqCntUnrouted) :=
  RegIn.of h 2 rfl rfl

theorem Reg.evqQBaseHi_in {P : Part → Prop} (n : Nat) (hb : n < 16) (h : P .evqCfg) : RegIn P (Reg.evqQBaseHi n) :=
  RegIn.of h 0 rfl ⟨n, hb, rfl⟩

theorem Reg.evqQBaseLo_in {P : Part → Prop} (n : Nat) (hb : n < 16) (h : P .evqCfg) : RegIn P (Reg.evqQBaseLo n) :=
  RegIn.of h 1 rfl ⟨n, hb, rfl⟩

theorem Reg.evqQCfg_in {P : Part → Prop} (n : Nat) (hb : n < 16) (h : P .evqCfg) : RegIn P (Reg.evqQCfg n) :=
  RegIn.of h 2 rfl ⟨n, hb, rfl⟩

theorem Reg.evqQCi_in {P : Part → Prop} (n : Nat) (hb : n < 16) (h : P .regEvq) : RegIn P (Reg.evqQCi n) :=
  RegIn.of h 3 rfl ⟨n, hb, rfl⟩

theorem Reg.evqQPiAddrHi_in {P : Part → Prop} (n : Nat) (hb : n < 16) (h : P .evqCfg) : RegIn P (Reg.evqQPiAddrHi n) :=
  RegIn.of h 3 rfl ⟨n, hb, rfl⟩

theorem Reg.evqQPiAddrLo_in {P : Part → Prop} (n : Nat) (hb : n < 16) (h : P .evqCfg) : RegIn P (Reg.evqQPiAddrLo n) :=
  RegIn.of h 4 rfl ⟨n, hb, rfl⟩

theorem Reg.fpCntDegrade_in {P : Part → Prop} (i : Nat) (h : P .regFp) : RegIn P (Reg.fpCntDegrade i) :=
  RegIn.of h 0 rfl ⟨i, rfl⟩

theorem Reg.fpCntDup_in {P : Part → Prop} (i : Nat) (h : P .regFp) : RegIn P (Reg.fpCntDup i) :=
  RegIn.of h 1 rfl ⟨i, rfl⟩

theorem Reg.fpCntDupEvict_in {P : Part → Prop} (i : Nat) (h : P .regFp) : RegIn P (Reg.fpCntDupEvict i) :=
  RegIn.of h 2 rfl ⟨i, rfl⟩

theorem Reg.fpCntDupResync_in {P : Part → Prop} (i : Nat) (h : P .regFp) : RegIn P (Reg.fpCntDupResync i) :=
  RegIn.of h 3 rfl ⟨i, rfl⟩

theorem Reg.fpCntHopExpired_in {P : Part → Prop} (i : Nat) (h : P .regFp) : RegIn P (Reg.fpCntHopExpired i) :=
  RegIn.of h 4 rfl ⟨i, rfl⟩

theorem Reg.fpCntLinkDown_in {P : Part → Prop} (i : Nat) (h : P .regFp) : RegIn P (Reg.fpCntLinkDown i) :=
  RegIn.of h 5 rfl ⟨i, rfl⟩

theorem Reg.fpCntLinkFail_in {P : Part → Prop} (i : Nat) (h : P .regFp) : RegIn P (Reg.fpCntLinkFail i) :=
  RegIn.of h 6 rfl ⟨i, rfl⟩

theorem Reg.fpCntPreempt_in {P : Part → Prop} (i : Nat) (h : P .regFp) : RegIn P (Reg.fpCntPreempt i) :=
  RegIn.of h 7 rfl ⟨i, rfl⟩

theorem Reg.fpCntRxFcs_in {P : Part → Prop} (i : Nat) (h : P .regFp) : RegIn P (Reg.fpCntRxFcs i) :=
  RegIn.of h 8 rfl ⟨i, rfl⟩

theorem Reg.fpCntRxForeign_in {P : Part → Prop} (i : Nat) (h : P .regFp) : RegIn P (Reg.fpCntRxForeign i) :=
  RegIn.of h 9 rfl ⟨i, rfl⟩

theorem Reg.fpCntRxFrames_in {P : Part → Prop} (i : Nat) (h : P .regFp) : RegIn P (Reg.fpCntRxFrames i) :=
  RegIn.of h 10 rfl ⟨i, rfl⟩

theorem Reg.fpCntRxHeader_in {P : Part → Prop} (i : Nat) (h : P .regFp) : RegIn P (Reg.fpCntRxHeader i) :=
  RegIn.of h 11 rfl ⟨i, rfl⟩

theorem Reg.fpCntRxLength_in {P : Part → Prop} (i : Nat) (h : P .regFp) : RegIn P (Reg.fpCntRxLength i) :=
  RegIn.of h 12 rfl ⟨i, rfl⟩

theorem Reg.fpCntRxPath_in {P : Part → Prop} (i : Nat) (h : P .regFp) : RegIn P (Reg.fpCntRxPath i) :=
  RegIn.of h 13 rfl ⟨i, rfl⟩

theorem Reg.fpCntRxStomp_in {P : Part → Prop} (i : Nat) (h : P .regFp) : RegIn P (Reg.fpCntRxStomp i) :=
  RegIn.of h 14 rfl ⟨i, rfl⟩

theorem Reg.fpCntSeqStale_in {P : Part → Prop} (i : Nat) (h : P .regFp) : RegIn P (Reg.fpCntSeqStale i) :=
  RegIn.of h 15 rfl ⟨i, rfl⟩

theorem Reg.fpCntStripped_in {P : Part → Prop} (i : Nat) (h : P .regFp) : RegIn P (Reg.fpCntStripped i) :=
  RegIn.of h 16 rfl ⟨i, rfl⟩

theorem Reg.fpCntTxDiscardDown_in {P : Part → Prop} (i : Nat) (h : P .regFp) : RegIn P (Reg.fpCntTxDiscardDown i) :=
  RegIn.of h 17 rfl ⟨i, rfl⟩

theorem Reg.fpCntTxFrames_in {P : Part → Prop} (i : Nat) (h : P .regFp) : RegIn P (Reg.fpCntTxFrames i) :=
  RegIn.of h 18 rfl ⟨i, rfl⟩

theorem Reg.fpCntTxStomp_in {P : Part → Prop} (i : Nat) (h : P .regFp) : RegIn P (Reg.fpCntTxStomp i) :=
  RegIn.of h 19 rfl ⟨i, rfl⟩

theorem Reg.fpPrbsErr_in {P : Part → Prop} (i : Nat) (h : P .regFp) : RegIn P (Reg.fpPrbsErr i) :=
  RegIn.of h 20 rfl ⟨i, rfl⟩

theorem Reg.fpRxeq_in {P : Part → Prop} (i : Nat) (h : P .regFp) : RegIn P (Reg.fpRxeq i) :=
  RegIn.of h 21 rfl ⟨i, rfl⟩

theorem Reg.fpTxeq_in {P : Part → Prop} (i : Nat) (h : P .regFp) : RegIn P (Reg.fpTxeq i) :=
  RegIn.of h 22 rfl ⟨i, rfl⟩

theorem Reg.fwlCntDeny_in {P : Part → Prop} (h : P .regFwl) : RegIn P (Reg.fwlCntDeny) :=
  RegIn.of h 0 rfl rfl

theorem Reg.fwlLastAddr_in {P : Part → Prop} (h : P .regFwl) : RegIn P (Reg.fwlLastAddr) :=
  RegIn.of h 1 rfl rfl

theorem Reg.fwlLastDeny_in {P : Part → Prop} (h : P .regFwl) : RegIn P (Reg.fwlLastDeny) :=
  RegIn.of h 2 rfl rfl

theorem Reg.hostCfg_in {P : Part → Prop} (h : P .regHost) : RegIn P (Reg.hostCfg) :=
  RegIn.of h 0 rfl rfl

theorem Reg.hostCntAbandon_in {P : Part → Prop} (h : P .regHost) : RegIn P (Reg.hostCntAbandon) :=
  RegIn.of h 1 rfl rfl

theorem Reg.hostCntBadSize_in {P : Part → Prop} (h : P .regHost) : RegIn P (Reg.hostCntBadSize) :=
  RegIn.of h 2 rfl rfl

theorem Reg.hostCntBadTlp_in {P : Part → Prop} (h : P .regHost) : RegIn P (Reg.hostCntBadTlp) :=
  RegIn.of h 3 rfl rfl

theorem Reg.hostCntCplTimeout_in {P : Part → Prop} (h : P .regHost) : RegIn P (Reg.hostCntCplTimeout) :=
  RegIn.of h 4 rfl rfl

theorem Reg.hostCntHostReset_in {P : Part → Prop} (h : P .regHost) : RegIn P (Reg.hostCntHostReset) :=
  RegIn.of h 5 rfl rfl

theorem Reg.hostCntRdErr_in {P : Part → Prop} (h : P .regHost) : RegIn P (Reg.hostCntRdErr) :=
  RegIn.of h 6 rfl rfl

theorem Reg.hostRdErrAddrHi_in {P : Part → Prop} (h : P .regHost) : RegIn P (Reg.hostRdErrAddrHi) :=
  RegIn.of h 7 rfl rfl

theorem Reg.hostRdErrAddrLo_in {P : Part → Prop} (h : P .regHost) : RegIn P (Reg.hostRdErrAddrLo) :=
  RegIn.of h 8 rfl rfl

theorem Reg.hostRdErrStatus_in {P : Part → Prop} (h : P .regHost) : RegIn P (Reg.hostRdErrStatus) :=
  RegIn.of h 9 rfl rfl

theorem Reg.hostWinBase_in {P : Part → Prop} (n : Nat) (hb : n < 16) (h : P .regHost) : RegIn P (Reg.hostWinBase n) :=
  RegIn.of h 10 rfl ⟨n, hb, rfl⟩

theorem Reg.hostWinCtrl_in {P : Part → Prop} (n : Nat) (hb : n < 16) (h : P .regHost) : RegIn P (Reg.hostWinCtrl n) :=
  RegIn.of h 11 rfl ⟨n, hb, rfl⟩

theorem Reg.icuCntMismatch_in {P : Part → Prop} (h : P .regIcu) : RegIn P (Reg.icuCntMismatch) :=
  RegIn.of h 0 rfl rfl

theorem Reg.icuCntRefused_in {P : Part → Prop} (h : P .regIcu) : RegIn P (Reg.icuCntRefused) :=
  RegIn.of h 1 rfl rfl

theorem Reg.icuCntSpurious_in {P : Part → Prop} (h : P .regIcu) : RegIn P (Reg.icuCntSpurious) :=
  RegIn.of h 2 rfl rfl

theorem Reg.icuCntStackFull_in {P : Part → Prop} (h : P .regIcu) : RegIn P (Reg.icuCntStackFull) :=
  RegIn.of h 3 rfl rfl

theorem Reg.icuHostThreshold_in {P : Part → Prop} (h : P .regIcu) : RegIn P (Reg.icuHostThreshold) :=
  RegIn.of h 4 rfl rfl

theorem Reg.icuSrcCfg_in {P : Part → Prop} (n : Nat) (hb : n < 449) (h : P .regIcu) : RegIn P (Reg.icuSrcCfg n) :=
  RegIn.of h 5 rfl ⟨n, hb, rfl⟩

theorem Reg.icupCntMismatch_in {P : Part → Prop} (i : Nat) (hb : i < 8) (h : P .regIcup) : RegIn P (Reg.icupCntMismatch i) :=
  RegIn.of h 0 rfl ⟨i, hb, rfl⟩

theorem Reg.icupCntSpurious_in {P : Part → Prop} (i : Nat) (hb : i < 8) (h : P .regIcup) : RegIn P (Reg.icupCntSpurious i) :=
  RegIn.of h 1 rfl ⟨i, hb, rfl⟩

theorem Reg.icupCntStackFull_in {P : Part → Prop} (i : Nat) (hb : i < 8) (h : P .regIcup) : RegIn P (Reg.icupCntStackFull i) :=
  RegIn.of h 2 rfl ⟨i, hb, rfl⟩

theorem Reg.icupPrivCfg_in {P : Part → Prop} (i n : Nat) (hb : i < 8 ∧ n < 64) (h : P .regIcup) : RegIn P (Reg.icupPrivCfg i n) :=
  RegIn.of h 3 rfl ⟨i, n, hb.1, hb.2, rfl⟩

theorem Reg.icupThreshold_in {P : Part → Prop} (i : Nat) (hb : i < 8) (h : P .regIcup) : RegIn P (Reg.icupThreshold i) :=
  RegIn.of h 4 rfl ⟨i, hb, rfl⟩

theorem Reg.icupTmr_in {P : Part → Prop} (i n : Nat) (hb : i < 8 ∧ n < 64) (h : P .regIcup) : RegIn P (Reg.icupTmr i n) :=
  RegIn.of h 5 rfl ⟨i, n, hb.1, hb.2, rfl⟩

theorem Reg.indAddr_in {P : Part → Prop} (page : Nat) (h : P .regInd) : RegIn P (Reg.indAddr page) :=
  RegIn.of h 0 rfl ⟨page, rfl⟩

theorem Reg.irqPend_in {P : Part → Prop} (page : Nat) (h : P .regIrq) : RegIn P (Reg.irqPend page) :=
  RegIn.of h 0 rfl ⟨page, rfl⟩

theorem Reg.leaseCntAcquire_in {P : Part → Prop} (h : P .regLease) : RegIn P (Reg.leaseCntAcquire) :=
  RegIn.of h 0 rfl rfl

theorem Reg.leaseCntAmbiguous_in {P : Part → Prop} (h : P .regLease) : RegIn P (Reg.leaseCntAmbiguous) :=
  RegIn.of h 1 rfl rfl

theorem Reg.leaseCntCompareFail_in {P : Part → Prop} (h : P .regLease) : RegIn P (Reg.leaseCntCompareFail) :=
  RegIn.of h 2 rfl rfl

theorem Reg.leaseCntConflict_in {P : Part → Prop} (h : P .regLease) : RegIn P (Reg.leaseCntConflict) :=
  RegIn.of h 3 rfl rfl

theorem Reg.leaseCntHandover_in {P : Part → Prop} (h : P .regLease) : RegIn P (Reg.leaseCntHandover) :=
  RegIn.of h 4 rfl rfl

theorem Reg.leaseCntHandoverAbort_in {P : Part → Prop} (h : P .regLease) : RegIn P (Reg.leaseCntHandoverAbort) :=
  RegIn.of h 5 rfl rfl

theorem Reg.leaseCntLost_in {P : Part → Prop} (h : P .regLease) : RegIn P (Reg.leaseCntLost) :=
  RegIn.of h 6 rfl rfl

theorem Reg.leaseFault_in {P : Part → Prop} (h : P .regLease) : RegIn P (Reg.leaseFault) :=
  RegIn.of h 7 rfl rfl

theorem Reg.leaseTiming_in {P : Part → Prop} (h : P .regLease) : RegIn P (Reg.leaseTiming) :=
  RegIn.of h 8 rfl rfl

theorem Reg.mbxD_in {P : Part → Prop} (page n : Nat) (hb : n < 4) (h : P .regMbx) : RegIn P (Reg.mbxD page n) :=
  RegIn.of h 0 rfl ⟨page, n, hb, rfl⟩

theorem Reg.mbxFlag_in {P : Part → Prop} (page : Nat) (h : P .regMbx) : RegIn P (Reg.mbxFlag page) :=
  RegIn.of h 1 rfl ⟨page, rfl⟩

theorem Reg.ospiBuffer_in {P : Part → Prop} (n : Nat) (hb : n < 64) (h : P .regOspi) : RegIn P (Reg.ospiBuffer n) :=
  RegIn.of h 0 rfl ⟨n, hb, rfl⟩

theorem Reg.ospiClock_in {P : Part → Prop} (h : P .regOspi) : RegIn P (Reg.ospiClock) :=
  RegIn.of h 1 rfl rfl

theorem Reg.ospiProt_in {P : Part → Prop} (n : Nat) (hb : n < 4) (h : P .regOspi) : RegIn P (Reg.ospiProt n) :=
  RegIn.of h 2 rfl ⟨n, hb, rfl⟩

theorem Reg.plkCntCrc_in {P : Part → Prop} (h : P .regPlk) : RegIn P (Reg.plkCntCrc) :=
  RegIn.of h 0 rfl rfl

theorem Reg.plkCntLinkDown_in {P : Part → Prop} (h : P .regPlk) : RegIn P (Reg.plkCntLinkDown) :=
  RegIn.of h 1 rfl rfl

theorem Reg.plkCntLinkFail_in {P : Part → Prop} (h : P .regPlk) : RegIn P (Reg.plkCntLinkFail) :=
  RegIn.of h 2 rfl rfl

theorem Reg.plkCntMalformed_in {P : Part → Prop} (h : P .regPlk) : RegIn P (Reg.plkCntMalformed) :=
  RegIn.of h 3 rfl rfl

theorem Reg.plkCntRxMsg_in {P : Part → Prop} (h : P .regPlk) : RegIn P (Reg.plkCntRxMsg) :=
  RegIn.of h 4 rfl rfl

theorem Reg.plkCntTxMsg_in {P : Part → Prop} (h : P .regPlk) : RegIn P (Reg.plkCntTxMsg) :=
  RegIn.of h 5 rfl rfl

theorem Reg.plkLatency_in {P : Part → Prop} (h : P .regPlk) : RegIn P (Reg.plkLatency) :=
  RegIn.of h 6 rfl rfl

theorem Reg.ptpCntAnnTimeout_in {P : Part → Prop} (h : P .regPtp) : RegIn P (Reg.ptpCntAnnTimeout) :=
  RegIn.of h 0 rfl rfl

theorem Reg.ptpCntAnnounce_in {P : Part → Prop} (h : P .regPtp) : RegIn P (Reg.ptpCntAnnounce) :=
  RegIn.of h 1 rfl rfl

theorem Reg.ptpCntBad_in {P : Part → Prop} (h : P .regPtp) : RegIn P (Reg.ptpCntBad) :=
  RegIn.of h 2 rfl rfl

theorem Reg.ptpCntPdelayFail_in {P : Part → Prop} (h : P .regPtp) : RegIn P (Reg.ptpCntPdelayFail) :=
  RegIn.of h 3 rfl rfl

theorem Reg.ptpCntSync_in {P : Part → Prop} (h : P .regPtp) : RegIn P (Reg.ptpCntSync) :=
  RegIn.of h 4 rfl rfl

theorem Reg.ptpCurGmHi_in {P : Part → Prop} (h : P .regPtp) : RegIn P (Reg.ptpCurGmHi) :=
  RegIn.of h 5 rfl rfl

theorem Reg.ptpCurGmLo_in {P : Part → Prop} (h : P .regPtp) : RegIn P (Reg.ptpCurGmLo) :=
  RegIn.of h 6 rfl rfl

theorem Reg.ptpGmInfo_in {P : Part → Prop} (h : P .regPtp) : RegIn P (Reg.ptpGmInfo) :=
  RegIn.of h 7 rfl rfl

theorem Reg.ptpPdelay_in {P : Part → Prop} (n : Nat) (hb : n < 4) (h : P .regPtp) : RegIn P (Reg.ptpPdelay n) :=
  RegIn.of h 8 rfl ⟨n, hb, rfl⟩

theorem Reg.ptpUtc_in {P : Part → Prop} (h : P .regPtp) : RegIn P (Reg.ptpUtc) :=
  RegIn.of h 9 rfl rfl

theorem Reg.pwrCntDying_in {P : Part → Prop} (h : P .regPwr) : RegIn P (Reg.pwrCntDying) :=
  RegIn.of h 0 rfl rfl

theorem Reg.pwrCntFastTrip_in {P : Part → Prop} (h : P .regPwr) : RegIn P (Reg.pwrCntFastTrip) :=
  RegIn.of h 1 rfl rfl

theorem Reg.pwrCntFeedA_in {P : Part → Prop} (h : P .regPwr) : RegIn P (Reg.pwrCntFeedA) :=
  RegIn.of h 2 rfl rfl

theorem Reg.pwrCntFeedB_in {P : Part → Prop} (h : P .regPwr) : RegIn P (Reg.pwrCntFeedB) :=
  RegIn.of h 3 rfl rfl

theorem Reg.pwrCntLatched_in {P : Part → Prop} (h : P .regPwr) : RegIn P (Reg.pwrCntLatched) :=
  RegIn.of h 4 rfl rfl

theorem Reg.pwrCntLimit_in {P : Part → Prop} (h : P .regPwr) : RegIn P (Reg.pwrCntLimit) :=
  RegIn.of h 5 rfl rfl

theorem Reg.pwrCntRail_in {P : Part → Prop} (h : P .regPwr) : RegIn P (Reg.pwrCntRail) :=
  RegIn.of h 6 rfl rfl

theorem Reg.pwrCntRetry_in {P : Part → Prop} (h : P .regPwr) : RegIn P (Reg.pwrCntRetry) :=
  RegIn.of h 7 rfl rfl

theorem Reg.pwrCntReverseA_in {P : Part → Prop} (h : P .regPwr) : RegIn P (Reg.pwrCntReverseA) :=
  RegIn.of h 8 rfl rfl

theorem Reg.pwrCntReverseB_in {P : Part → Prop} (h : P .regPwr) : RegIn P (Reg.pwrCntReverseB) :=
  RegIn.of h 9 rfl rfl

theorem Reg.pwrCntSeatLoss_in {P : Part → Prop} (h : P .regPwr) : RegIn P (Reg.pwrCntSeatLoss) :=
  RegIn.of h 10 rfl rfl

theorem Reg.pwrCntShortRamp_in {P : Part → Prop} (h : P .regPwr) : RegIn P (Reg.pwrCntShortRamp) :=
  RegIn.of h 11 rfl rfl

theorem Reg.pwrCntThermal_in {P : Part → Prop} (h : P .regPwr) : RegIn P (Reg.pwrCntThermal) :=
  RegIn.of h 12 rfl rfl

theorem Reg.pwrCntTsFail_in {P : Part → Prop} (h : P .regPwr) : RegIn P (Reg.pwrCntTsFail) :=
  RegIn.of h 13 rfl rfl

theorem Reg.pwrLastFault_in {P : Part → Prop} (h : P .regPwr) : RegIn P (Reg.pwrLastFault) :=
  RegIn.of h 14 rfl rfl

theorem Reg.rfxCntEval_in {P : Part → Prop} (h : P .regRfx) : RegIn P (Reg.rfxCntEval) :=
  RegIn.of h 0 rfl rfl

theorem Reg.rfxCntFired_in {P : Part → Prop} (h : P .regRfx) : RegIn P (Reg.rfxCntFired) :=
  RegIn.of h 1 rfl rfl

theorem Reg.rfxCntRefused_in {P : Part → Prop} (h : P .regRfx) : RegIn P (Reg.rfxCntRefused) :=
  RegIn.of h 2 rfl rfl

theorem Reg.rfxQueuePeak_in {P : Part → Prop} (h : P .regRfx) : RegIn P (Reg.rfxQueuePeak) :=
  RegIn.of h 3 rfl rfl

theorem Reg.rfxSwf_in {P : Part → Prop} (h : P .regRfx) : RegIn P (Reg.rfxSwf) :=
  RegIn.of h 4 rfl rfl

theorem Reg.ringCntBreak_in {P : Part → Prop} (h : P .regRing) : RegIn P (Reg.ringCntBreak) :=
  RegIn.of h 0 rfl rfl

theorem Reg.ringCntConflict_in {P : Part → Prop} (h : P .regRing) : RegIn P (Reg.ringCntConflict) :=
  RegIn.of h 1 rfl rfl

theorem Reg.ringCntHlEvict_in {P : Part → Prop} (h : P .regRing) : RegIn P (Reg.ringCntHlEvict) :=
  RegIn.of h 2 rfl rfl

theorem Reg.ringCntHsrDup_in {P : Part → Prop} (h : P .regRing) : RegIn P (Reg.ringCntHsrDup) :=
  RegIn.of h 3 rfl rfl

theorem Reg.ringCntMgmtBad_in {P : Part → Prop} (h : P .regRing) : RegIn P (Reg.ringCntMgmtBad) :=
  RegIn.of h 4 rfl rfl

theorem Reg.ringCntPrpDup_in {P : Part → Prop} (h : P .regRing) : RegIn P (Reg.ringCntPrpDup) :=
  RegIn.of h 5 rfl rfl

theorem Reg.ringCntSilent_in {P : Part → Prop} (h : P .regRing) : RegIn P (Reg.ringCntSilent) :=
  RegIn.of h 6 rfl rfl

theorem Reg.ringCntTurnBack_in {P : Part → Prop} (h : P .regRing) : RegIn P (Reg.ringCntTurnBack) :=
  RegIn.of h 7 rfl rfl

theorem Reg.ringCntTurnDup_in {P : Part → Prop} (h : P .regRing) : RegIn P (Reg.ringCntTurnDup) :=
  RegIn.of h 8 rfl rfl

theorem Reg.ringCntTurnStrip_in {P : Part → Prop} (h : P .regRing) : RegIn P (Reg.ringCntTurnStrip) :=
  RegIn.of h 9 rfl rfl

theorem Reg.ringCntTurned_in {P : Part → Prop} (h : P .regRing) : RegIn P (Reg.ringCntTurned) :=
  RegIn.of h 10 rfl rfl

theorem Reg.ringFarId_in {P : Part → Prop} (h : P .regRing) : RegIn P (Reg.ringFarId) :=
  RegIn.of h 11 rfl rfl

theorem Reg.ringIdCfg_in {P : Part → Prop} (h : P .regRing) : RegIn P (Reg.ringIdCfg) :=
  RegIn.of h 12 rfl rfl

theorem Reg.ringNeighbour_in {P : Part → Prop} (n : Nat) (hb : n < 4) (h : P .regRing) : RegIn P (Reg.ringNeighbour n) :=
  RegIn.of h 13 rfl ⟨n, hb, rfl⟩

theorem Reg.ringNodeId_in {P : Part → Prop} (h : P .regRing) : RegIn P (Reg.ringNodeId) :=
  RegIn.of h 14 rfl rfl

theorem Reg.ringStrap_in {P : Part → Prop} (h : P .regRing) : RegIn P (Reg.ringStrap) :=
  RegIn.of h 15 rfl rfl

theorem Reg.rstCnt_in {P : Part → Prop} (n : Nat) (h : P .regRst) : RegIn P (Reg.rstCnt n) :=
  RegIn.of h 0 rfl ⟨n, rfl⟩

theorem Reg.rstLastCause_in {P : Part → Prop} (h : P .regRst) : RegIn P (Reg.rstLastCause) :=
  RegIn.of h 1 rfl rfl

theorem Reg.rstLastNs_in {P : Part → Prop} (h : P .regRst) : RegIn P (Reg.rstLastNs) :=
  RegIn.of h 2 rfl rfl

theorem Reg.rstLastSec_in {P : Part → Prop} (h : P .regRst) : RegIn P (Reg.rstLastSec) :=
  RegIn.of h 3 rfl rfl

theorem Reg.secBuffer_in {P : Part → Prop} (n : Nat) (hb : n < 64) (h : P .regSec) : RegIn P (Reg.secBuffer n) :=
  RegIn.of h 0 rfl ⟨n, hb, rfl⟩

theorem Reg.seqCntPgLost_in {P : Part → Prop} (h : P .regSeq) : RegIn P (Reg.seqCntPgLost) :=
  RegIn.of h 0 rfl rfl

theorem Reg.seqCntPgTimeout_in {P : Part → Prop} (h : P .regSeq) : RegIn P (Reg.seqCntPgTimeout) :=
  RegIn.of h 1 rfl rfl

theorem Reg.sigCntApplied_in {P : Part → Prop} (h : P .regSig) : RegIn P (Reg.sigCntApplied) :=
  RegIn.of h 0 rfl rfl

theorem Reg.sigCntBadFrame_in {P : Part → Prop} (h : P .regSig) : RegIn P (Reg.sigCntBadFrame) :=
  RegIn.of h 1 rfl rfl

theorem Reg.sigCntOld_in {P : Part → Prop} (h : P .regSig) : RegIn P (Reg.sigCntOld) :=
  RegIn.of h 2 rfl rfl

theorem Reg.sigCntStale_in {P : Part → Prop} (h : P .regSig) : RegIn P (Reg.sigCntStale) :=
  RegIn.of h 3 rfl rfl

theorem Reg.sigCntTxChange_in {P : Part → Prop} (h : P .regSig) : RegIn P (Reg.sigCntTxChange) :=
  RegIn.of h 4 rfl rfl

theorem Reg.sigCntTxHb_in {P : Part → Prop} (h : P .regSig) : RegIn P (Reg.sigCntTxHb) :=
  RegIn.of h 5 rfl rfl

theorem Reg.sigCntType_in {P : Part → Prop} (h : P .regSig) : RegIn P (Reg.sigCntType) :=
  RegIn.of h 6 rfl rfl

theorem Reg.sigCntUnsub_in {P : Part → Prop} (h : P .regSig) : RegIn P (Reg.sigCntUnsub) :=
  RegIn.of h 7 rfl rfl

theorem Reg.sigSubMeta_in {P : Part → Prop} (h : P .regSig) : RegIn P (Reg.sigSubMeta) :=
  RegIn.of h 8 rfl rfl

theorem Reg.status_in {P : Part → Prop} (page : Nat) (h : P .regStatus) : RegIn P (Reg.status page) :=
  RegIn.of h 0 rfl ⟨page, rfl⟩

theorem Reg.stwCntMiscompare_in {P : Part → Prop} (h : P .regStw) : RegIn P (Reg.stwCntMiscompare) :=
  RegIn.of h 0 rfl rfl

theorem Reg.stwCntWatchdog_in {P : Part → Prop} (h : P .regStw) : RegIn P (Reg.stwCntWatchdog) :=
  RegIn.of h 1 rfl rfl

theorem Reg.stwLockstep_in {P : Part → Prop} (h : P .regStw) : RegIn P (Reg.stwLockstep) :=
  RegIn.of h 2 rfl rfl

theorem Reg.stwStatus_in {P : Part → Prop} (h : P .regStw) : RegIn P (Reg.stwStatus) :=
  RegIn.of h 3 rfl rfl

theorem Reg.stwWdtCfg_in {P : Part → Prop} (n : Nat) (hb : n < 8) (h : P .regStw) : RegIn P (Reg.stwWdtCfg n) :=
  RegIn.of h 4 rfl ⟨n, hb, rfl⟩

theorem Reg.swcCntMirrorDrop_in {P : Part → Prop} (h : P .regSwc) : RegIn P (Reg.swcCntMirrorDrop) :=
  RegIn.of h 0 rfl rfl

theorem Reg.swcCntMirrorTrunc_in {P : Part → Prop} (h : P .regSwc) : RegIn P (Reg.swcCntMirrorTrunc) :=
  RegIn.of h 1 rfl rfl

theorem Reg.swcCntReplDrop_in {P : Part → Prop} (h : P .regSwc) : RegIn P (Reg.swcCntReplDrop) :=
  RegIn.of h 2 rfl rfl

theorem Reg.tileBankCfg_in {P : Part → Prop} (i : Nat) (h : P .regTile) : RegIn P (Reg.tileBankCfg i) :=
  RegIn.of h 0 rfl ⟨i, rfl⟩

theorem Reg.tileCntBank_in {P : Part → Prop} (i : Nat) (h : P .regTile) : RegIn P (Reg.tileCntBank i) :=
  RegIn.of h 1 rfl ⟨i, rfl⟩

theorem Reg.tileCntGlitch_in {P : Part → Prop} (i : Nat) (h : P .regTile) : RegIn P (Reg.tileCntGlitch i) :=
  RegIn.of h 2 rfl ⟨i, rfl⟩

theorem Reg.tileCntStampLost_in {P : Part → Prop} (i : Nat) (h : P .regTile) : RegIn P (Reg.tileCntStampLost i) :=
  RegIn.of h 3 rfl ⟨i, rfl⟩

theorem Reg.tileCntWake_in {P : Part → Prop} (i : Nat) (h : P .regTile) : RegIn P (Reg.tileCntWake i) :=
  RegIn.of h 4 rfl ⟨i, rfl⟩

theorem Reg.tileGrpMaskHi_in {P : Part → Prop} (i : Nat) (h : P .regTile) : RegIn P (Reg.tileGrpMaskHi i) :=
  RegIn.of h 5 rfl ⟨i, rfl⟩

theorem Reg.tileGrpMaskLo_in {P : Part → Prop} (i : Nat) (h : P .regTile) : RegIn P (Reg.tileGrpMaskLo i) :=
  RegIn.of h 6 rfl ⟨i, rfl⟩

theorem Reg.tileStampCfg_in {P : Part → Prop} (i : Nat) (h : P .regTile) : RegIn P (Reg.tileStampCfg i) :=
  RegIn.of h 7 rfl ⟨i, rfl⟩

theorem Reg.timeCntRefused_in {P : Part → Prop} (h : P .regTime) : RegIn P (Reg.timeCntRefused) :=
  RegIn.of h 0 rfl rfl

theorem Reg.timeCntStep_in {P : Part → Prop} (h : P .regTime) : RegIn P (Reg.timeCntStep) :=
  RegIn.of h 1 rfl rfl

theorem Reg.timePendCorr_in {P : Part → Prop} (h : P .regTime) : RegIn P (Reg.timePendCorr) :=
  RegIn.of h 2 rfl rfl

theorem Reg.timeRate_in {P : Part → Prop} (h : P .regTime) : RegIn P (Reg.timeRate) :=
  RegIn.of h 3 rfl rfl

theorem Reg.timeRefusedHi_in {P : Part → Prop} (h : P .regTime) : RegIn P (Reg.timeRefusedHi) :=
  RegIn.of h 4 rfl rfl

theorem Reg.timeRefusedLo_in {P : Part → Prop} (h : P .regTime) : RegIn P (Reg.timeRefusedLo) :=
  RegIn.of h 5 rfl rfl

theorem Reg.timeStepLimit_in {P : Part → Prop} (h : P .regTime) : RegIn P (Reg.timeStepLimit) :=
  RegIn.of h 6 rfl rfl

theorem Reg.winCntBoundary_in {P : Part → Prop} (h : P .regWin) : RegIn P (Reg.winCntBoundary) :=
  RegIn.of h 0 rfl rfl

theorem Reg.winCntResult_in {P : Part → Prop} (h : P .regWin) : RegIn P (Reg.winCntResult) :=
  RegIn.of h 1 rfl rfl

theorem Reg.winCntRetrigIgn_in {P : Part → Prop} (h : P .regWin) : RegIn P (Reg.winCntRetrigIgn) :=
  RegIn.of h 2 rfl rfl

theorem Reg.xbrCcHold_in {P : Part → Prop} (h : P .regXbr) : RegIn P (Reg.xbrCcHold) :=
  RegIn.of h 0 rfl rfl

theorem Reg.xbrCntBadReq_in {P : Part → Prop} (h : P .regXbr) : RegIn P (Reg.xbrCntBadReq) :=
  RegIn.of h 1 rfl rfl

theorem Reg.xbrCntBusySent_in {P : Part → Prop} (h : P .regXbr) : RegIn P (Reg.xbrCntBusySent) :=
  RegIn.of h 2 rfl rfl

theorem Reg.xbrCntCcHit_in {P : Part → Prop} (h : P .regXbr) : RegIn P (Reg.xbrCntCcHit) :=
  RegIn.of h 3 rfl rfl

theorem Reg.xbrCntDiscardMiss_in {P : Part → Prop} (h : P .regXbr) : RegIn P (Reg.xbrCntDiscardMiss) :=
  RegIn.of h 4 rfl rfl

theorem Reg.xbrCntGapLost_in {P : Part → Prop} (h : P .regXbr) : RegIn P (Reg.xbrCntGapLost) :=
  RegIn.of h 5 rfl rfl

theorem Reg.xbrCntHoldDrop_in {P : Part → Prop} (h : P .regXbr) : RegIn P (Reg.xbrCntHoldDrop) :=
  RegIn.of h 6 rfl rfl

theorem Reg.xbrCntLateCpl_in {P : Part → Prop} (h : P .regXbr) : RegIn P (Reg.xbrCntLateCpl) :=
  RegIn.of h 7 rfl rfl

theorem Reg.xbrCntMsgDrop_in {P : Part → Prop} (h : P .regXbr) : RegIn P (Reg.xbrCntMsgDrop) :=
  RegIn.of h 8 rfl rfl

theorem Reg.xbrCntNpIssued_in {P : Part → Prop} (h : P .regXbr) : RegIn P (Reg.xbrCntNpIssued) :=
  RegIn.of h 9 rfl rfl

theorem Reg.xbrCntPostedIssued_in {P : Part → Prop} (h : P .regXbr) : RegIn P (Reg.xbrCntPostedIssued) :=
  RegIn.of h 10 rfl rfl

theorem Reg.xbrCntPwError_in {P : Part → Prop} (h : P .regXbr) : RegIn P (Reg.xbrCntPwError) :=
  RegIn.of h 11 rfl rfl

theorem Reg.xbrCntRetry_in {P : Part → Prop} (h : P .regXbr) : RegIn P (Reg.xbrCntRetry) :=
  RegIn.of h 12 rfl rfl

theorem Reg.xbrCntRetryPending_in {P : Part → Prop} (h : P .regXbr) : RegIn P (Reg.xbrCntRetryPending) :=
  RegIn.of h 13 rfl rfl

theorem Reg.xbrCntStranded_in {P : Part → Prop} (h : P .regXbr) : RegIn P (Reg.xbrCntStranded) :=
  RegIn.of h 14 rfl rfl

theorem Reg.xbrCntStreamStale_in {P : Part → Prop} (h : P .regXbr) : RegIn P (Reg.xbrCntStreamStale) :=
  RegIn.of h 15 rfl rfl

theorem Reg.xbrCntStreamStall_in {P : Part → Prop} (h : P .regXbr) : RegIn P (Reg.xbrCntStreamStall) :=
  RegIn.of h 16 rfl rfl

theorem Reg.xbrCntTagStall_in {P : Part → Prop} (h : P .regXbr) : RegIn P (Reg.xbrCntTagStall) :=
  RegIn.of h 17 rfl rfl

theorem Reg.xbrCntTimeout_in {P : Part → Prop} (h : P .regXbr) : RegIn P (Reg.xbrCntTimeout) :=
  RegIn.of h 18 rfl rfl

theorem Reg.xbrGapWait_in {P : Part → Prop} (h : P .regXbr) : RegIn P (Reg.xbrGapWait) :=
  RegIn.of h 19 rfl rfl

theorem Reg.xbrNpTimeout_in {P : Part → Prop} (h : P .regXbr) : RegIn P (Reg.xbrNpTimeout) :=
  RegIn.of h 20 rfl rfl

theorem Reg.xbrStreamAge_in {P : Part → Prop} (h : P .regXbr) : RegIn P (Reg.xbrStreamAge) :=
  RegIn.of h 21 rfl rfl

theorem Reg.canMb_in {P : Part → Prop} (n a : Nat) (h : P .regCan) : RegIn P (indKey (canPage n) a) :=
  RegIn.of h 18 rfl ⟨n, a, rfl⟩

def Part.code : Part → Nat
  | .frozen => 0
  | .heldIrq => 1
  | .mbx => 2
  | .ind => 3
  | .stalls => 4
  | .checks => 5
  | .gathers => 6
  | .ecc => 7
  | .recSeq => 8
  | .time => 9
  | .mem => 10
  | .evq => 11
  | .msix => 12
  | .msixPba => 13
  | .msixEnable => 14
  | .msixFuncMask => 15
  | .hostTx => 16
  | .icu => 17
  | .sram => 18
  | .lines => 19
  | .tiles => 20
  | .stampOrder => 21
  | .stampsHeld => 22
  | .ctrs => 23
  | .fifos => 24
  | .lease => 25
  | .plk => 26
  | .wins => 27
  | .winOpen => 28
  | .winEdges => 29
  | .drill => 30
  | .launches => 31
  | .rules => 32
  | .express => 33
  | .normal => 34
  | .eval => 35
  | .sigOps => 36
  | .pubs => 37
  | .pubOpen => 38
  | .hbAt => 39
  | .subs => 40
  | .net => 41
  | .ring => 42
  | .power => 43
  | .pulseDone => 44
  | .engs => 45
  | .starts => 46
  | .ptp => 47
  | .sources => 48
  | .serial => 49
  | .cans => 50
  | .xbr => 51
  | .host => 52
  | .dma => 53
  | .cores => 54
  | .tcm => 55
  | .stwSram => 56
  | .flash => 57
  | .boot => 58
  | .otp => 59
  | .sha => 60
  | .pwr => 61
  | .clk => 62
  | .reply => 63
  | .tclks => 64
  | .freeTick => 65
  | .regIrq => 66
  | .regMbx => 67
  | .regCtrl => 68
  | .regStatus => 69
  | .regInd => 70
  | .regAdc => 71
  | .regBoot => 72
  | .regBuf => 73
  | .regCan => 74
  | .regCh => 75
  | .regClk => 76
  | .regDdr => 77
  | .regDma => 78
  | .regDrl => 79
  | .regEvq => 80
  | .regFp => 81
  | .regFwl => 82
  | .regHost => 83
  | .regIcu => 84
  | .regIcup => 85
  | .regLease => 86
  | .regOspi => 87
  | .regPlk => 88
  | .regPtp => 89
  | .regPwr => 90
  | .regRfx => 91
  | .regRing => 92
  | .regRst => 93
  | .regSec => 94
  | .regSeq => 95
  | .regSig => 96
  | .regStw => 97
  | .regSwc => 98
  | .regTile => 99
  | .regTime => 100
  | .regWin => 101
  | .regXbr => 102
  | .evqCfg => 103
  | .regAny => 104

def Part.ofCode : Nat → Part
  | 0 => .frozen
  | 1 => .heldIrq
  | 2 => .mbx
  | 3 => .ind
  | 4 => .stalls
  | 5 => .checks
  | 6 => .gathers
  | 7 => .ecc
  | 8 => .recSeq
  | 9 => .time
  | 10 => .mem
  | 11 => .evq
  | 12 => .msix
  | 13 => .msixPba
  | 14 => .msixEnable
  | 15 => .msixFuncMask
  | 16 => .hostTx
  | 17 => .icu
  | 18 => .sram
  | 19 => .lines
  | 20 => .tiles
  | 21 => .stampOrder
  | 22 => .stampsHeld
  | 23 => .ctrs
  | 24 => .fifos
  | 25 => .lease
  | 26 => .plk
  | 27 => .wins
  | 28 => .winOpen
  | 29 => .winEdges
  | 30 => .drill
  | 31 => .launches
  | 32 => .rules
  | 33 => .express
  | 34 => .normal
  | 35 => .eval
  | 36 => .sigOps
  | 37 => .pubs
  | 38 => .pubOpen
  | 39 => .hbAt
  | 40 => .subs
  | 41 => .net
  | 42 => .ring
  | 43 => .power
  | 44 => .pulseDone
  | 45 => .engs
  | 46 => .starts
  | 47 => .ptp
  | 48 => .sources
  | 49 => .serial
  | 50 => .cans
  | 51 => .xbr
  | 52 => .host
  | 53 => .dma
  | 54 => .cores
  | 55 => .tcm
  | 56 => .stwSram
  | 57 => .flash
  | 58 => .boot
  | 59 => .otp
  | 60 => .sha
  | 61 => .pwr
  | 62 => .clk
  | 63 => .reply
  | 64 => .tclks
  | 65 => .freeTick
  | 66 => .regIrq
  | 67 => .regMbx
  | 68 => .regCtrl
  | 69 => .regStatus
  | 70 => .regInd
  | 71 => .regAdc
  | 72 => .regBoot
  | 73 => .regBuf
  | 74 => .regCan
  | 75 => .regCh
  | 76 => .regClk
  | 77 => .regDdr
  | 78 => .regDma
  | 79 => .regDrl
  | 80 => .regEvq
  | 81 => .regFp
  | 82 => .regFwl
  | 83 => .regHost
  | 84 => .regIcu
  | 85 => .regIcup
  | 86 => .regLease
  | 87 => .regOspi
  | 88 => .regPlk
  | 89 => .regPtp
  | 90 => .regPwr
  | 91 => .regRfx
  | 92 => .regRing
  | 93 => .regRst
  | 94 => .regSec
  | 95 => .regSeq
  | 96 => .regSig
  | 97 => .regStw
  | 98 => .regSwc
  | 99 => .regTile
  | 100 => .regTime
  | 101 => .regWin
  | 102 => .regXbr
  | 103 => .evqCfg
  | 104 => .regAny
  | _ => .regAny

theorem Part.code_inj {p q : Part} (h : p.code = q.code) : p = q := by
  have hp : ∀ r : Part, (Part.ofCode r.code) = r := by intro r; cases r <;> rfl
  rw [← hp p, h, hp q]

/-- Every part whose bit of `l` is set is in `P`. -/
def Sub (l : Nat) (P : Part → Prop) : Prop := ∀ p : Part, l.testBit p.code = true → P p

theorem Sub.le {P : Part → Prop} {a b : Nat} (h : a ||| b = b) (hp : Sub b P) : Sub a P := fun p hb => hp p (by
  rw [← h, Nat.testBit_or, hb]; rfl)

theorem RegIn.ite {P : Part → Prop} {c : Prop} [Decidable c] {a b : Nat} (ha : RegIn P a) (hb : RegIn P b) : RegIn P (if c then a else b) := by
  split
  · exact ha
  · exact hb

/-- The command ends in a next state that differs at most in the parts of `P`. -/
def AnswersIn (P : Part → Prop) (s : State) (o : Host.Outcome State Fault Refusal) : Prop := ∃ t, o = .next t ∧ Frame P s t

theorem Frame.ite {P : Part → Prop} {s x y : State} {c : Prop} [Decidable c] (h : c → Frame P s x) (h' : ¬ c → Frame P s y) :
    Frame P s (if c then x else y) := by
  split
  · exact h ‹_›
  · exact h' ‹_›
theorem Frame.foldl {α : Type} {P : Part → Prop} {s : State} {l : List α} {f : State → α → State} {x : State} (hx : Frame P s x)
    (h : ∀ y a, Frame P s y → Frame P s (f y a)) : Frame P s (l.foldl f x) := by
  induction l generalizing x with
  | nil => exact hx
  | cons a l ih => exact ih (h x a hx)
theorem Frame.ite1 {α : Type} {P : Part → Prop} {s : State} {x y : State × α} {c : Prop} [Decidable c] (h : c → Frame P s x.1)
    (h' : ¬ c → Frame P s y.1) : Frame P s (if c then x else y).1 := by
  split
  · exact h ‹_›
  · exact h' ‹_›
theorem Frame.ite2 {α : Type} {P : Part → Prop} {s : State} {x y : α × State} {c : Prop} [Decidable c] (h : c → Frame P s x.2)
    (h' : ¬ c → Frame P s y.2) : Frame P s (if c then x else y).2 := by
  split
  · exact h ‹_›
  · exact h' ‹_›
theorem Frame.ite22 {α β : Type} {P : Part → Prop} {s : State} {x y : α × β × State} {c : Prop} [Decidable c]
    (h : c → Frame P s x.2.2) (h' : ¬ c → Frame P s y.2.2) : Frame P s (if c then x else y).2.2 := by
  split
  · exact h ‹_›
  · exact h' ‹_›
theorem Frame.of2 {α : Type} {P : Part → Prop} {s x : State} {a : α} {p : α × State} (e : p = (a, x)) (h : Frame P s p.2) : Frame P s x := by
  subst e; exact h
theorem Frame.of1 {α : Type} {P : Part → Prop} {s x : State} {a : α} {p : State × α} (e : p = (x, a)) (h : Frame P s p.1) : Frame P s x := by
  subst e; exact h
theorem Frame.of22 {α β : Type} {P : Part → Prop} {s x : State} {a : α} {b : β} {p : α × β × State} (e : p = (a, b, x))
    (h : Frame P s p.2.2) : Frame P s x := by
  subst e; exact h
theorem Frame.pair2 {α : Type} {P : Part → Prop} {s x : State} {a : α} (h : Frame P s x) : Frame P s (a, x).2 := h
theorem Frame.pair1 {α : Type} {P : Part → Prop} {s x : State} {a : α} (h : Frame P s x) : Frame P s (x, a).1 := h
theorem Frame.pair22 {α β : Type} {P : Part → Prop} {s : State} {x : β × State} {a : α} (h : Frame P s x.2) : Frame P s (a, x).2.2 := h
theorem Frame.pair222 {α β γ : Type} {P : Part → Prop} {s : State} {x : β × γ × State} {a : α} (h : Frame P s x.2.2) :
    Frame P s (a, x).2.2.2 := h

theorem mem_upFrom {x lo n : Nat} (h : x ∈ upFrom lo n) : x < lo + n := by
  induction n generalizing lo with
  | zero => cases h
  | succ n ih =>
    rcases List.mem_cons.mp h with e | e
    · omega
    · have := ih e; omega

theorem Frame.foldl_mem {α : Type} {P : Part → Prop} {s : State} {l : List α} {f : State → α → State} {x : State} (hx : Frame P s x)
    (h : ∀ y a, a ∈ l → Frame P s y → Frame P s (f y a)) : Frame P s (l.foldl f x) := by
  induction l generalizing x with
  | nil => exact hx
  | cons a l ih => exact ih (h x a List.mem_cons_self hx) (fun y b hb => h y b (List.mem_cons_of_mem _ hb))

/-- Nothing is left out. -/
theorem Frame.all {P : Part → Prop} {s t : State} (hp : Sub 40564819207303340847894502572031 P) : Frame P s t where
  frozen := fun n => absurd (hp .frozen rfl) n
  heldIrq := fun n => absurd (hp .heldIrq rfl) n
  mbx := fun n => absurd (hp .mbx rfl) n
  ind := fun n => absurd (hp .ind rfl) n
  stalls := fun n => absurd (hp .stalls rfl) n
  checks := fun n => absurd (hp .checks rfl) n
  gathers := fun n => absurd (hp .gathers rfl) n
  ecc := fun n => absurd (hp .ecc rfl) n
  recSeq := fun n => absurd (hp .recSeq rfl) n
  time := fun n => absurd (hp .time rfl) n
  evq := fun n => absurd (hp .evq rfl) n
  msix := fun n => absurd (hp .msix rfl) n
  msixPba := fun n => absurd (hp .msixPba rfl) n
  msixEnable := fun n => absurd (hp .msixEnable rfl) n
  msixFuncMask := fun n => absurd (hp .msixFuncMask rfl) n
  hostTx := fun n => absurd (hp .hostTx rfl) n
  icu := fun n => absurd (hp .icu rfl) n
  sram := fun n => absurd (hp .sram rfl) n
  lines := fun n => absurd (hp .lines rfl) n
  tiles := fun n => absurd (hp .tiles rfl) n
  stampOrder := fun n => absurd (hp .stampOrder rfl) n
  stampsHeld := fun n => absurd (hp .stampsHeld rfl) n
  ctrs := fun n => absurd (hp .ctrs rfl) n
  fifos := fun n => absurd (hp .fifos rfl) n
  lease := fun n => absurd (hp .lease rfl) n
  plk := fun n => absurd (hp .plk rfl) n
  wins := fun n => absurd (hp .wins rfl) n
  winOpen := fun n => absurd (hp .winOpen rfl) n
  winEdges := fun n => absurd (hp .winEdges rfl) n
  drill := fun n => absurd (hp .drill rfl) n
  launches := fun n => absurd (hp .launches rfl) n
  rules := fun n => absurd (hp .rules rfl) n
  express := fun n => absurd (hp .express rfl) n
  normal := fun n => absurd (hp .normal rfl) n
  eval := fun n => absurd (hp .eval rfl) n
  sigOps := fun n => absurd (hp .sigOps rfl) n
  pubs := fun n => absurd (hp .pubs rfl) n
  pubOpen := fun n => absurd (hp .pubOpen rfl) n
  hbAt := fun n => absurd (hp .hbAt rfl) n
  subs := fun n => absurd (hp .subs rfl) n
  net := fun n => absurd (hp .net rfl) n
  ring := fun n => absurd (hp .ring rfl) n
  power := fun n => absurd (hp .power rfl) n
  pulseDone := fun n => absurd (hp .pulseDone rfl) n
  engs := fun n => absurd (hp .engs rfl) n
  starts := fun n => absurd (hp .starts rfl) n
  ptp := fun n => absurd (hp .ptp rfl) n
  sources := fun n => absurd (hp .sources rfl) n
  serial := fun n => absurd (hp .serial rfl) n
  cans := fun n => absurd (hp .cans rfl) n
  xbr := fun n => absurd (hp .xbr rfl) n
  host := fun n => absurd (hp .host rfl) n
  dma := fun n => absurd (hp .dma rfl) n
  cores := fun n => absurd (hp .cores rfl) n
  tcm := fun n => absurd (hp .tcm rfl) n
  stwSram := fun n => absurd (hp .stwSram rfl) n
  flash := fun n => absurd (hp .flash rfl) n
  boot := fun n => absurd (hp .boot rfl) n
  otp := fun n => absurd (hp .otp rfl) n
  sha := fun n => absurd (hp .sha rfl) n
  pwr := fun n => absurd (hp .pwr rfl) n
  clk := fun n => absurd (hp .clk rfl) n
  reply := fun n => absurd (hp .reply rfl) n
  tclks := fun n => absurd (hp .tclks rfl) n
  freeTick := fun n => absurd (hp .freeTick rfl) n
  regs := fun k n => absurd (RegIn.of (hp .regAny rfl) 0 rfl trivial) n
  mem := fun n => absurd (hp .mem rfl) n
  prods := fun n => absurd (hp .mem rfl) n

/-- The codes of a list of parts as one number, a bit for each. -/
def maskOf : List Part → Nat
  | [] => 0
  | p :: l => 2 ^ p.code ||| maskOf l
theorem mem_of_maskOf {p : Part} {l : List Part} (h : (maskOf l).testBit p.code = true) : p ∈ l := by
  induction l with
  | nil => simp [maskOf] at h
  | cons q l ih =>
    simp only [maskOf, Nat.testBit_or, Bool.or_eq_true] at h
    rcases h with h | h
    · rw [Nat.testBit_two_pow] at h
      rw [Part.code_inj (of_decide_eq_true h)]
      exact List.mem_cons_self
    · exact List.mem_cons_of_mem _ (ih h)
/-- The parts of a number lie in a list where the number adds nothing to the list's own; with the list written out, `rfl` shows it. -/
theorem Sub.of_maskOf {m : Nat} {l : List Part} (h : m ||| maskOf l = maskOf l) : Sub m (fun p => p ∈ l) := fun p hp =>
  mem_of_maskOf (by rw [← h, Nat.testBit_or, hp]; rfl)

/-- The parts that a number names. -/
theorem Sub.self (m : Nat) : Sub m (fun p => m.testBit p.code = true) := fun _ h => h

theorem testBit_zero_of {m k : Nat} (h : m &&& 2 ^ k = 0) : m.testBit k = false := by
  have := congrArg (fun n => n.testBit k) h
  simpa [Nat.testBit_and, Nat.testBit_two_pow] using this

/-- CTRL, IRQ_MASK and IRQ_GROUP of a page read the same after an operation that touches none of those groups. -/
theorem Frame.low {m : Nat} {s t : State} (h : Frame (fun p => m.testBit p.code = true) s t) {page off : Nat} (hp : page < 0x100)
    (ho : off = 0x008 ∨ off = 0x014 ∨ off = 0x018)
    (hm : m &&& (2 ^ Part.regCtrl.code + 2 ^ Part.regDma.code + 2 ^ Part.regAny.code + 2 ^ Part.regRst.code) = 0) :
    t.rd (pageKey page off) = s.rd (pageKey page off) := by
  refine h.regs _ ?_
  rintro ⟨p, hmp, hk⟩
  have hx : ∀ q : Part, (2 ^ Part.regCtrl.code + 2 ^ Part.regDma.code + 2 ^ Part.regAny.code + 2 ^ Part.regRst.code).testBit q.code
      = true → p ≠ q := by
    intro q hq e
    subst e
    have := congrArg (fun n => n.testBit p.code) hm
    rw [Nat.testBit_and, hmp, hq] at this
    simp at this
  exact Part.low_out hp ho (hx _ (by decide)) (hx _ (by decide)) (hx _ (by decide)) (hx _ (by decide)) hk

end Sys2Proof.Machine
end

