-- ==== Sys2Proof/Laws/FrameField.lean ====
section
/-! SUPPORT. What each operation and each command may change: records, the lease, FIFOs, time and its operands, windows, lines, drill entries, frames and signals. -/

namespace Sys2Proof.Machine

theorem feedCounter_in {P : Part → Prop} (b : Bool) (hp : Sub 1237940039285380274899124224 P) : RegIn P (feedCounter b) :=
  RegIn.ite (Reg.pwrCntFeedB_in (hp .regPwr rfl)) (Reg.pwrCntFeedA_in (hp .regPwr rfl))
theorem reverseCounter_in {P : Part → Prop} (b : Bool) (hp : Sub 1237940039285380274899124224 P) : RegIn P (reverseCounter b) :=
  RegIn.ite (Reg.pwrCntReverseB_in (hp .regPwr rfl)) (Reg.pwrCntReverseA_in (hp .regPwr rfl))
theorem clkCounter_in {P : Part → Prop} (n : Nat) (hp : Sub 75557863725914323419136 P) : RegIn P (clkCounter n) :=
  RegIn.ite (Reg.clkCntTclk_in (hp .regClk rfl)) (RegIn.ite (Reg.clkCntXt32_in (hp .regClk rfl))
    (RegIn.ite (Reg.clkCntRefclkSd_in (hp .regClk rfl)) (Reg.clkCntPcieRefclk_in (hp .regClk rfl))))
theorem mod8 (n : Nat) : n % 8 < 8 := Nat.mod_lt _ (by decide)
theorem thresholdKey_in {P : Part → Prop} (t : Nat) (hp : Sub 58028439341502200385896448 P) : RegIn P (thresholdKey t) :=
  RegIn.ite (Reg.icuHostThreshold_in (hp .regIcu rfl)) (Reg.icupThreshold_in _ (mod8 t) (hp .regIcup rfl))
theorem cntSpurious_in {P : Part → Prop} (t : Nat) (hp : Sub 58028439341502200385896448 P) : RegIn P (cntSpurious t) :=
  RegIn.ite (Reg.icuCntSpurious_in (hp .regIcu rfl)) (Reg.icupCntSpurious_in _ (mod8 t) (hp .regIcup rfl))
theorem cntStackFull_in {P : Part → Prop} (t : Nat) (hp : Sub 58028439341502200385896448 P) : RegIn P (cntStackFull t) :=
  RegIn.ite (Reg.icuCntStackFull_in (hp .regIcu rfl)) (Reg.icupCntStackFull_in _ (mod8 t) (hp .regIcup rfl))
theorem cntMismatch_in {P : Part → Prop} (t : Nat) (hp : Sub 58028439341502200385896448 P) : RegIn P (cntMismatch t) :=
  RegIn.ite (Reg.icuCntMismatch_in (hp .regIcu rfl)) (Reg.icupCntMismatch_in _ (mod8 t) (hp .regIcup rfl))
theorem canErrCnt_in {P : Part → Prop} (n : Nat) (e : CanErr) (hp : Sub 18889465931478580854784 P) : RegIn P (canErrCnt n e) := by
  have h := hp .regCan rfl
  cases e
  · exact Reg.canCntStuff_in _ h
  · exact Reg.canCntForm_in _ h
  · exact Reg.canCntAck_in _ h
  · exact Reg.canCntBit_in _ h
  · exact Reg.canCntBit_in _ h
  · exact Reg.canCntCrc_in _ h

theorem State.wr_frame {P : Part → Prop} {s0 s : State} (h : Frame P s0 s) (k : Nat) (v : Word) (K : RegIn P k) (_ : Sub 0 P) :
    Frame P s0 (s.wr k v) :=
  { h with regs := fun j hj => (Tab.get_set_ne (fun e => hj (by rw [e]; exact K))).trans (h.regs j hj) }

theorem State.wrShown_frame {P : Part → Prop} {s0 s : State} (h : Frame P s0 s) (page off : Nat) (v : Word)
    (K : RegIn P (pageKey page off)) (hp : Sub 1 P) : Frame P s0 (s.wrShown page off v) := by
  have h1 := State.wr_frame h (pageKey page off) v K (Sub.le (by decide) hp)
  exact Frame.ite (fun _ => h1) (fun _ => Frame.set_frozen h1 (hp .frozen rfl) _)

theorem State.setFld_frame {P : Part → Prop} {s0 s : State} (h : Frame P s0 s) (a_k : ℕ) (a_lo : ℕ) (a_width : ℕ) (a_v : ℕ) (K_a_k : RegIn P a_k) (hp : Sub 0 P) :
    Frame P s0 (State.setFld s a_k a_lo a_width a_v) := by
  unfold State.setFld
  refine State.wr_frame ?_ _ _ K_a_k (Sub.le (by decide) hp)
  exact h

theorem State.bump_frame {P : Part → Prop} {s0 s : State} (h : Frame P s0 s) (a_k : ℕ) (K_a_k : RegIn P a_k) (hp : Sub 0 P) :
    Frame P s0 (State.bump s a_k) := by
  unfold State.bump
  refine State.wr_frame ?_ _ _ K_a_k (Sub.le (by decide) hp)
  exact h

theorem State.bumpBy_frame {P : Part → Prop} {s0 s : State} (h : Frame P s0 s) (a_k : ℕ) (a_n : ℕ) (K_a_k : RegIn P a_k) (hp : Sub 0 P) :
    Frame P s0 (State.bumpBy s a_k a_n) := by
  unfold State.bumpBy
  refine State.wr_frame ?_ _ _ K_a_k (Sub.le (by decide) hp)
  exact h

theorem State.zeroRegs_frame {P : Part → Prop} {s0 s : State} (_ : Frame P s0 s) (k n : Nat) (_ : RegIn P k) (hp : Sub 40564819207303340847894502572031 P) :
    Frame P s0 (s.zeroRegs k n) := Frame.all hp

theorem State.memSet_frame {P : Part → Prop} {s0 s : State} (h : Frame P s0 s) (a : Nat) (b : Byte) (hp : Sub 1024 P) :
    Frame P s0 (s.memSet a b) :=
  { h with mem := fun n => absurd (hp .mem rfl) n, prods := fun n => absurd (hp .mem rfl) n }

theorem State.memPut_frame {P : Part → Prop} {s0 s : State} (h : Frame P s0 s) (a : Nat) (l : List Byte) (hp : Sub 1024 P) :
    Frame P s0 (s.memPut a l) := by
  induction l generalizing s a with
  | nil => exact h
  | cons b l ih => exact ih (State.memSet_frame h a b (Sub.le (by decide) hp)) (a + 1)

theorem State.answered_frame {P : Part → Prop} {s0 s : State} (h : Frame P s0 s) (a_w : Sys2Proof.Word) (hp : Sub 9223372036854775808 P) :
    Frame P s0 (State.answered s a_w) := by
  unfold State.answered
  refine Frame.set_reply ?_ (hp .reply rfl) _
  exact h

theorem State.fresh_frame {P : Part → Prop} {s0 s : State} (h : Frame P s0 s)  (hp : Sub 36893488147419103232 P) :
    Frame P s0 (State.fresh s).2 := by
  unfold State.fresh
  refine Frame.pair2 ?_
  refine Frame.set_freeTick ?_ (hp .freeTick rfl) _
  exact h

theorem State.sendTlp_frame {P : Part → Prop} {s0 s : State} (h : Frame P s0 s) (a_t : Sys2Proof.Machine.HostTlp) (hp : Sub 65536 P) :
    Frame P s0 (State.sendTlp s a_t) := by
  unfold State.sendTlp
  refine Frame.set_hostTx ?_ (hp .hostTx rfl) _
  exact h

theorem State.msixSend_frame {P : Part → Prop} {s0 s : State} (h : Frame P s0 s) (a_v : ℕ) (hp : Sub 73728 P) :
    Frame P s0 (State.msixSend s a_v) := by
  unfold State.msixSend
  extract_lets -merge -useContext -underBinder +onlyGivenNames x0
  refine Frame.ite (fun _ => ?_) (fun _ => ?_)
  · refine Frame.set_msixPba ?_ (hp .msixPba rfl) _
    exact h
  · refine State.sendTlp_frame ?_ _ (Sub.le (by decide) hp)
    exact h

theorem State.withHostRequest_frame {P : Part → Prop} {s0 s : State} (h : Frame P s0 s) (a_f : Sys2Proof.Machine.State → Sys2Proof.Machine.State) (Ha_f : ∀ z0, Frame P s0 z0 → Frame P s0 (a_f z0)) (hp : Sub 73728 P) :
    Frame P s0 (State.withHostRequest s a_f) := by
  unfold State.withHostRequest
  extract_lets -merge -useContext -underBinder +onlyGivenNames x0
  have h0 : Frame P s0 x0 := by
    unfold x0
    refine Ha_f _ ?_
    exact h
  refine Frame.ite (fun _ => ?_) (fun _ => ?_)
  · refine State.msixSend_frame ?_ _ (Sub.le (by decide) hp)
    exact h0
  · exact h0

theorem State.icuPend_frame {P : Part → Prop} {s0 s : State} (h : Frame P s0 s) (a_id : ℕ) (hp : Sub 204800 P) :
    Frame P s0 (State.icuPend s a_id) := by
  unfold State.icuPend
  refine State.withHostRequest_frame ?_ _ (fun y0 h0 => ?_) (Sub.le (by decide) hp)
  · exact h
  · refine Frame.set_icu ?_ (hp .icu rfl) _
    exact h0

theorem State.icuPrivate_frame {P : Part → Prop} {s0 s : State} (h : Frame P s0 s) (a_t : ℕ) (a_j : ℕ) (hp : Sub 131072 P) :
    Frame P s0 (State.icuPrivate s a_t a_j) := by
  unfold State.icuPrivate
  refine Frame.set_icu ?_ (hp .icu rfl) _
  exact h

theorem State.withRequest_frame {P : Part → Prop} {s0 s : State} (h : Frame P s0 s) (a_page : ℕ) (a_f : Sys2Proof.Machine.State → Sys2Proof.Machine.State) (Ha_f : ∀ z0, Frame P s0 z0 → Frame P s0 (a_f z0)) (hp : Sub 204800 P) :
    Frame P s0 (State.withRequest s a_page a_f) := by
  unfold State.withRequest
  extract_lets -merge -useContext -underBinder +onlyGivenNames x0
  have h0 : Frame P s0 x0 := by
    unfold x0
    refine Ha_f _ ?_
    exact h
  refine Frame.ite (fun _ => ?_) (fun _ => ?_)
  · refine State.icuPend_frame ?_ _ (Sub.le (by decide) hp)
    exact h0
  · exact h0

theorem State.raise_frame {P : Part → Prop} {s0 s : State} (h : Frame P s0 s) (a_page : ℕ) (a_b : ℕ) (hp : Sub 73786976294838411266 P) :
    Frame P s0 (State.raise s a_page a_b) := by
  unfold State.raise
  refine State.withRequest_frame ?_ _ _ (fun y0 h0 => ?_) (Sub.le (by decide) hp)
  · exact h
  · refine Frame.ite (fun _ => ?_) (fun _ => ?_)
    · refine Frame.set_heldIrq ?_ (hp .heldIrq rfl) _
      exact h0
    · refine State.wr_frame ?_ _ _ (Reg.irqPend_in _ (hp .regIrq rfl)) (Sub.le (by decide) hp)
      exact h0

theorem State.setEvQueue_frame {P : Part → Prop} {s0 s : State} (h : Frame P s0 s) (n : Nat) (q : EvQueue)
    (hq : q.prod = (s.evQueue n).prod ∨ q.prod < s.evSize n) (hp : Sub 2048 P) : Frame P s0 (s.setEvQueue n q) :=
  h.trans { Frame.refl P s with
    evq := fun e => absurd (hp .evq rfl) e
    prods := fun _ _ _ m _ => by
      by_cases e : m = n
      · subst e
        rw [show ((s.setEvQueue m q).evQueue m) = q from Tab.get_set_same]
        exact hq
      · exact Or.inl (congrArg EvQueue.prod (Tab.get_set_ne e)) }

theorem State.memPut_mem (s : State) (a : Nat) (l : List Byte) : s.memPut a l = { s with mem := (s.memPut a l).mem } := by
  induction l generalizing s a with
  | nil => rfl
  | cons b l ih => exact (ih (s.memSet a b) (a + 1))

theorem State.memGet_memPut (s : State) (a x : Nat) (l : List Byte) (hx : ∀ j, j < l.length → x ≠ a + j) :
    (s.memPut a l).memGet x = s.memGet x := by
  induction l generalizing s a with
  | nil => rfl
  | cons b l ih =>
    refine (ih (s.memSet a b) (a + 1) (fun j hj => ?_)).trans (Tab.get_set_ne ?_)
    · have := hx (j + 1) (Nat.succ_lt_succ hj); omega
    · exact hx 0 (Nat.zero_lt_succ _)

theorem wordsBytes_length (ws : List Word) : (wordsBytes ws).length = 4 * ws.length := by
  induction ws with
  | nil => rfl
  | cons w ws ih => rw [wordsBytes, List.length_append, ih, wordBytes, List.length_cons]; simp; omega

theorem State.evWrite_frame {P : Part → Prop} {s0 s : State} (h : Frame P s0 s) (n addr : Nat) (ws : List Word)
    (ha : ∀ j, j < 4 * ws.length → s.EvAddr (addr + j)) (hp : Sub 65536 P) : Frame P s0 (s.evWrite n addr ws) := by
  unfold State.evWrite
  refine Frame.ite (fun _ => Frame.ite (fun _ => h.trans ?_) (fun _ => h)) (fun _ => State.sendTlp_frame h _ (Sub.le (by decide) hp))
  have e := State.memPut_mem s addr (wordsBytes ws)
  have hm : ∀ x, ¬ s.EvAddr x → (s.memPut addr (wordsBytes ws)).memGet x = s.memGet x := fun x hx =>
    State.memGet_memPut s addr x _ (fun j hj ej => hx (ej ▸ ha j (wordsBytes_length ws ▸ hj)))
  rw [e] at hm ⊢
  exact { Frame.refl P s with mem := fun _ _ _ x hx => hm x hx }

theorem State.evWritePi_frame {P : Part → Prop} {s0 s : State} (h : Frame P s0 s) (n : Nat) (hn : n < 16) (hp : Sub 65536 P) :
    Frame P s0 (s.evWritePi n) := by
  unfold State.evWritePi
  exact Frame.ite (fun _ => State.evWrite_frame h n _ _ (fun j hj => ⟨n, hn, Or.inr ⟨j, by simpa using hj, rfl⟩⟩) (Sub.le (by decide) hp))
    (fun _ => h)

theorem State.evAnnounce_frame {P : Part → Prop} {s0 s : State} (h : Frame P s0 s) (n : Nat) (hn : n < 16) (hp : Sub 73786976294838413314 P) :
    Frame P s0 (s.evAnnounce n) := by
  have h1 := State.evWritePi_frame h n hn (Sub.le (by decide) hp)
  unfold State.evAnnounce
  generalize s.evWritePi n = s at h1 ⊢
  have h2 := State.setEvQueue_frame h1 n { s.evQueue n with unannounced := 0, holdoff := none } (Or.inl rfl) (Sub.le (by decide) hp)
  exact Frame.ite (fun _ => State.raise_frame h2 _ _ (Sub.le (by decide) hp)) (fun _ => State.msixSend_frame h2 _ (Sub.le (by decide) hp))

theorem State.evSize_pos (s : State) (n : Nat) : 0 < s.evSize n := by
  unfold State.evSize
  extract_lets l
  clear_value l
  split
  · exact Nat.two_pow_pos _
  · decide

theorem State.evWrite_evq (s : State) (n a : Nat) (ws : List Word) : (s.evWrite n a ws).evq = s.evq ∧ (s.evWrite n a ws).regs = s.regs := by
  unfold State.evWrite
  split
  · split
    · rw [State.memPut_mem]; exact ⟨rfl, rfl⟩
    · exact ⟨rfl, rfl⟩
  · exact ⟨rfl, rfl⟩

theorem State.evAddr_congr {s t : State} (he : t.evq = s.evq) (hr : t.regs = s.regs) {a : Nat} (h : s.EvAddr a) : t.EvAddr a := by
  obtain ⟨n, hn, hc⟩ := h
  refine ⟨n, hn, ?_⟩
  have e1 : t.evSize n = s.evSize n := by unfold State.evSize State.fld State.rd; rw [hr]
  have e2 : t.evBase n = s.evBase n := by unfold State.evBase State.rd; rw [hr, e1]
  have e3 : t.evPiAddr n = s.evPiAddr n := by unfold State.evPiAddr State.rd; rw [hr]
  have e4 : (t.evQueue n) = s.evQueue n := by unfold State.evQueue; rw [he]
  rw [e1, e2, e3, e4]; exact hc

theorem State.evStore_frame {P : Part → Prop} {s0 s : State} (h : Frame P s0 s) (n : Nat) (r : Rec) (hn : n < 16) (hp : Sub 67584 P) :
    Frame P s0 (s.evStore n r) := by
  have hw : Sub 65536 P := Sub.le (by decide) hp
  have ha : ∀ j, j < 32 → s.EvAddr (s.evBase n + 32 * (s.evQueue n).prod + j) := fun j hj =>
    ⟨n, hn, Or.inl ⟨_, j, hj, rfl, Or.inr rfl⟩⟩
  have hw1 : ∀ x ws, (∀ j, j < 4 * ws.length → s.EvAddr (x + j)) → Frame P s0 (s.evWrite n x ws) := fun x ws hx =>
    State.evWrite_frame h n x ws hx hw
  unfold State.evStore
  have key : ∀ (y : State), Frame P s0 y → y.evq = s.evq → y.regs = s.regs →
      Frame P s0 (y.setEvQueue n { s.evQueue n with
        prod := ((s.evQueue n).prod + 1) % s.evSize n, written := (s.evQueue n).written + 1,
        phase := if ((s.evQueue n).prod + 1) % s.evSize n = 0 then !(s.evQueue n).phase else (s.evQueue n).phase,
        unannounced := (s.evQueue n).unannounced + 1, holdoff := some ((s.evQueue n).holdoff.getD y.tclks) }) := fun y hy _ hr => by
    refine State.setEvQueue_frame hy n _ (Or.inr ?_) (Sub.le (by decide) hp)
    have e1 : y.evSize n = s.evSize n := by unfold State.evSize State.fld State.rd; rw [hr]
    rw [e1]
    exact Nat.mod_lt _ (State.evSize_pos s n)
  extract_lets q a w0 rest y next
  have hev : y.evSize n = s.evSize n := by
    have hr : y.regs = s.regs := by
      unfold y
      split
      · rw [(State.evWrite_evq _ _ _ _).2, (State.evWrite_evq _ _ _ _).2]
      · rw [(State.evWrite_evq _ _ _ _).2]
    unfold State.evSize State.fld State.rd; rw [hr]
  have hnext : next = ((s.evQueue n).prod + 1) % s.evSize n := by
    show (q.prod + 1) % y.evSize n = _
    rw [hev]
  rw [hnext]
  refine key _ ?_ ?_ ?_
  · unfold y
    refine Frame.ite (fun _ => ?_) (fun _ => ?_)
    · have h1 := hw1 (a + 4) rest (fun j hj => by
        have : j < 28 := hj
        have := ha (4 + j) (by omega)
        rwa [show s.evBase n + 32 * (s.evQueue n).prod + (4 + j) = a + 4 + j from by rw [Nat.add_assoc a]] at this)
      refine State.evWrite_frame h1 n a [w0] (fun j hj => ?_) hw
      have := ha j (by have : j < 4 := hj; omega)
      exact State.evAddr_congr (State.evWrite_evq _ _ _ _).1 (State.evWrite_evq _ _ _ _).2 this
    · exact hw1 a (w0 :: rest) (fun j hj => ha j hj)
  · unfold y
    split
    · rw [(State.evWrite_evq _ _ _ _).1, (State.evWrite_evq _ _ _ _).1]
    · rw [(State.evWrite_evq _ _ _ _).1]
  · unfold y
    split
    · rw [(State.evWrite_evq _ _ _ _).2, (State.evWrite_evq _ _ _ _).2]
    · rw [(State.evWrite_evq _ _ _ _).2]

theorem State.evModerate_frame {P : Part → Prop} {s0 s : State} (h : Frame P s0 s) (n : Nat) (hn : n < 16) (hp : Sub 73786976294838413314 P) :
    Frame P s0 (s.evModerate n) := by
  unfold State.evModerate
  exact Frame.ite (fun _ => State.evAnnounce_frame h n hn (Sub.le (by decide) hp)) (fun _ => h)

theorem State.mkRec_frame {P : Part → Prop} {s0 s : State} (h : Frame P s0 s) (a_ty : ℕ) (a_sev : ℕ) (a_b : Sys2Proof.Machine.Block) (a_inst : ℕ) (a_flags : ℕ) (a_t : Sys2Proof.TimePoint) (a_q : ℕ) (a_w4 : Sys2Proof.Word) (a_w5 : Sys2Proof.Word) (a_w6 : Sys2Proof.Word) (a_w7 : Sys2Proof.Word) (hp : Sub 256 P) :
    Frame P s0 (State.mkRec s a_ty a_sev a_b a_inst a_flags a_t a_q a_w4 a_w5 a_w6 a_w7).2 := by
  unfold State.mkRec
  refine Frame.pair2 ?_
  refine Frame.set_recSeq ?_ (hp .recSeq rfl) _
  exact h

theorem State.evRecover_frame {P : Part → Prop} {s0 s : State} (h : Frame P s0 s) (n : Nat) (hn : n < 16) (hp : Sub 73786976294838413570 P) :
    Frame P s0 (s.evRecover n) := by
  unfold State.evRecover
  refine Frame.ite (fun _ => ?_) (fun _ => h)
  split
  · next r y e =>
    have hy : Frame P s0 y := Frame.of2 e (State.mkRec_frame h _ _ _ _ _ _ _ _ _ _ _ (Sub.le (by decide) hp))
    have h2 := State.setEvQueue_frame hy n { y.evQueue n with overflow := false, dropped := 0 } (Or.inl rfl) (Sub.le (by decide) hp)
    exact State.evModerate_frame (State.evStore_frame h2 n _ hn (Sub.le (by decide) hp)) n hn (Sub.le (by decide) hp)

theorem State.evOffer_frame {P : Part → Prop} {s0 s : State} (h : Frame P s0 s) (n : Nat) (r : Rec) (hn : n < 16) (hp : Sub 1208999606590924013119746 P) :
    Frame P s0 (s.evOffer n r) := by
  have h1 := State.evRecover_frame h n hn (Sub.le (by decide) hp)
  unfold State.evOffer
  generalize s.evRecover n = s at h1 ⊢
  have hk : RegIn P (Reg.evqCntDrop n) := Reg.evqCntDrop_in _ hn (hp .regEvq rfl)
  refine Frame.ite (fun _ => ?_) (fun _ => Frame.ite (fun _ => ?_) (fun _ => ?_))
  · exact State.bump_frame (State.setEvQueue_frame h1 n { s.evQueue n with
      dropped := (s.evQueue n).dropped + 1, lastLost := BitVec.ofNat 16 r.w3.toNat } (Or.inl rfl) (Sub.le (by decide) hp)) _ hk
      (Sub.le (by decide) hp)
  · exact State.evModerate_frame (State.evStore_frame h1 n r hn (Sub.le (by decide) hp)) n hn (Sub.le (by decide) hp)
  · have h2 := State.setEvQueue_frame h1 n { s.evQueue n with
      overflow := true, dropped := 1, firstLost := BitVec.ofNat 16 r.w3.toNat, lastLost := BitVec.ofNat 16 r.w3.toNat,
      overflowAt := s.now, overflowQual := s.qualSum } (Or.inl rfl) (Sub.le (by decide) hp)
    have h3 := State.raise_frame (State.evWritePi_frame (State.bump_frame h2 _ hk (Sub.le (by decide) hp)) n hn (Sub.le (by decide) hp))
      0x24 (16 + n) (Sub.le (by decide) hp)
    exact Frame.ite (fun _ => h3) (fun _ => State.msixSend_frame h3 _ (Sub.le (by decide) hp))

theorem State.route_frame {P : Part → Prop} {s0 s : State} (h : Frame P s0 s) (r : Rec) (hp : Sub 1208999606590924013119746 P) : Frame P s0 (s.route r) := by
  unfold State.route
  exact Frame.ite (fun _ => State.evOffer_frame h _ r (Nat.mod_lt _ (by decide)) (Sub.le (by decide) hp))
    (fun _ => State.bump_frame h _ (Reg.evqCntUnrouted_in (hp .regEvq rfl)) (Sub.le (by decide) hp))

theorem State.postFull_frame {P : Part → Prop} {s0 s : State} (h : Frame P s0 s) (a_ty : ℕ) (a_sev : ℕ) (a_b : Sys2Proof.Machine.Block) (a_inst : ℕ) (a_flags : ℕ) (a_t : Sys2Proof.TimePoint) (a_q : ℕ) (a_w4 : Sys2Proof.Word) (a_w5 : Sys2Proof.Word) (a_w6 : Sys2Proof.Word) (a_w7 : Sys2Proof.Word) (hp : Sub 1208999606590924013119746 P) :
    Frame P s0 (State.postFull s a_ty a_sev a_b a_inst a_flags a_t a_q a_w4 a_w5 a_w6 a_w7) := by
  unfold State.postFull
  split
  · next y0_0 y0_1 e0 =>
      have g0 : Frame P s0 y0_1 := by
        refine Frame.of2 e0 ?_
        refine State.mkRec_frame ?_ _ _ _ _ _ _ _ _ _ _ _ (Sub.le (by decide) hp)
        exact h
      refine State.route_frame ?_ _ (Sub.le (by decide) hp)
      exact g0

theorem State.postAt_frame {P : Part → Prop} {s0 s : State} (h : Frame P s0 s) (a_ty : ℕ) (a_b : Sys2Proof.Machine.Block) (a_inst : ℕ) (a_flags : ℕ) (a_t : Sys2Proof.TimePoint) (a_q : ℕ) (a_w4 : Sys2Proof.Word) (a_w5 : Sys2Proof.Word) (a_w6 : Sys2Proof.Word) (a_w7 : Sys2Proof.Word) (hp : Sub 1208999606590924013119746 P) :
    Frame P s0 (State.postAt s a_ty a_b a_inst a_flags a_t a_q a_w4 a_w5 a_w6 a_w7) := by
  unfold State.postAt
  refine State.postFull_frame ?_ _ _ _ _ _ _ _ _ _ _ _ (Sub.le (by decide) hp)
  exact h

theorem State.post_frame {P : Part → Prop} {s0 s : State} (h : Frame P s0 s) (a_ty : ℕ) (a_b : Sys2Proof.Machine.Block) (a_inst : ℕ) (a_flags : ℕ) (a_w4 : Sys2Proof.Word) (a_w5 : Sys2Proof.Word) (a_w6 : Sys2Proof.Word) (a_w7 : Sys2Proof.Word) (hp : Sub 1208999606590924013119746 P) :
    Frame P s0 (State.post s a_ty a_b a_inst a_flags a_w4 a_w5 a_w6 a_w7) := by
  unfold State.post
  refine State.postAt_frame ?_ _ _ _ _ _ _ _ _ _ _ (Sub.le (by decide) hp)
  exact h

theorem State.setCheck_frame {P : Part → Prop} {s0 s : State} (h : Frame P s0 s) (a_page : ℕ) (a_check : ℕ) (a_c : Sys2Proof.Machine.CheckSt) (hp : Sub 32 P) :
    Frame P s0 (State.setCheck s a_page a_check a_c) := by
  unfold State.setCheck
  refine Frame.set_checks ?_ (hp .checks rfl) _
  exact h

theorem State.postPageAt_frame {P : Part → Prop} {s0 s : State} (h : Frame P s0 s) (a_ty : ℕ) (a_page : ℕ) (a_flags : ℕ) (a_t : Sys2Proof.TimePoint) (a_q : ℕ) (a_w4 : Sys2Proof.Word) (a_w5 : Sys2Proof.Word) (a_w6 : Sys2Proof.Word) (a_w7 : Sys2Proof.Word) (hp : Sub 1208999606590924013119746 P) :
    Frame P s0 (State.postPageAt s a_ty a_page a_flags a_t a_q a_w4 a_w5 a_w6 a_w7) := by
  unfold State.postPageAt
  split
  · refine State.postAt_frame ?_ _ _ _ _ _ _ _ _ _ _ (Sub.le (by decide) hp)
    exact h
  · exact h

theorem State.postPage_frame {P : Part → Prop} {s0 s : State} (h : Frame P s0 s) (a_ty : ℕ) (a_page : ℕ) (a_flags : ℕ) (a_w4 : Sys2Proof.Word) (a_w5 : Sys2Proof.Word) (a_w6 : Sys2Proof.Word) (a_w7 : Sys2Proof.Word) (hp : Sub 1208999606590924013119746 P) :
    Frame P s0 (State.postPage s a_ty a_page a_flags a_w4 a_w5 a_w6 a_w7) := by
  unfold State.postPage
  refine State.postPageAt_frame ?_ _ _ _ _ _ _ _ _ _ (Sub.le (by decide) hp)
  exact h

theorem State.powQueue_frame {P : Part → Prop} {s0 s : State} (h : Frame P s0 s) (a_r : Sys2Proof.Machine.PowRec) (hp : Sub 2305843009213693952 P) :
    Frame P s0 (State.powQueue s a_r) := by
  unfold State.powQueue
  extract_lets -merge -useContext -underBinder +onlyGivenNames x0
  refine Frame.set_pwr ?_ (hp .pwr rfl) _
  exact h

theorem State.powEmit_frame {P : Part → Prop} {s0 s : State} (h : Frame P s0 s) (a_r : Sys2Proof.Machine.PowRec) (hp : Sub 1209001912433933226813698 P) :
    Frame P s0 (State.powEmit s a_r) := by
  unfold State.powEmit
  extract_lets -merge -useContext -underBinder +onlyGivenNames x0
  extract_lets -merge -useContext -underBinder +onlyGivenNames x1
  extract_lets -merge -useContext -underBinder +onlyGivenNames x2
  have h2 : Frame P s0 x2 := by
    unfold x2
    refine Frame.set_pwr ?_ (hp .pwr rfl) _
    exact h
  extract_lets -merge -useContext -underBinder +onlyGivenNames x3
  have h3 : Frame P s0 x3 := by
    unfold x3
    split
    · refine State.raise_frame ?_ _ _ (Sub.le (by decide) hp)
      exact h2
    · exact h2
  refine State.postPageAt_frame ?_ _ _ _ _ _ _ _ _ _ (Sub.le (by decide) hp)
  exact h3

theorem State.powRecord_frame {P : Part → Prop} {s0 s : State} (h : Frame P s0 s) (a_r : Sys2Proof.Machine.PowRec) (hp : Sub 1209001912433933226813698 P) :
    Frame P s0 (State.powRecord s a_r) := by
  unfold State.powRecord
  refine Frame.ite (fun _ => ?_) (fun _ => ?_)
  · refine State.powEmit_frame ?_ _ (Sub.le (by decide) hp)
    exact h
  · refine State.powQueue_frame ?_ _ (Sub.le (by decide) hp)
    exact h

theorem State.qualRecord_frame {P : Part → Prop} {s0 s : State} (h : Frame P s0 s) (a_ty : ℕ) (a_page : ℕ) (a_t : Sys2Proof.TimePoint) (a_q : ℕ) (a_w4 : Sys2Proof.Word) (a_w5 : Sys2Proof.Word) (a_w6 : Sys2Proof.Word) (a_w7 : Sys2Proof.Word) (hp : Sub 1209001912433933226813698 P) :
    Frame P s0 (State.qualRecord s a_ty a_page a_t a_q a_w4 a_w5 a_w6 a_w7) := by
  unfold State.qualRecord
  refine Frame.ite (fun _ => ?_) (fun _ => ?_)
  · refine State.powRecord_frame ?_ _ (Sub.le (by decide) hp)
    exact h
  · refine State.postPageAt_frame ?_ _ _ _ _ _ _ _ _ _ (Sub.le (by decide) hp)
    exact h

theorem State.qualPost_frame {P : Part → Prop} {s0 s : State} (h : Frame P s0 s) (a_page : ℕ) (a_check : ℕ) (hp : Sub 1209001912433933226813730 P) :
    Frame P s0 (State.qualPost s a_page a_check) := by
  unfold State.qualPost
  extract_lets -merge -useContext -underBinder +onlyGivenNames x0
  extract_lets -merge -useContext -underBinder +onlyGivenNames x1
  have h1 : Frame P s0 x1 := by
    unfold x1
    refine State.setCheck_frame ?_ _ _ _ (Sub.le (by decide) hp)
    exact h
  refine State.qualRecord_frame ?_ _ _ _ _ _ _ _ _ (Sub.le (by decide) hp)
  exact h1

theorem State.qualFailAt_frame {P : Part → Prop} {s0 s : State} (h : Frame P s0 s) (a_page : ℕ) (a_check : ℕ) (a_item : ℕ) (a_value : Sys2Proof.Word) (a_counter : ℕ) (a_t : Sys2Proof.TimePoint) (a_q : ℕ) (K_a_counter : RegIn P a_counter) (hp : Sub 1209001912433933226813730 P) :
    Frame P s0 (State.qualFailAt s a_page a_check a_item a_value a_counter a_t a_q) := by
  unfold State.qualFailAt
  extract_lets -merge -useContext -underBinder +onlyGivenNames x0
  have h0 : Frame P s0 x0 := by
    unfold x0
    refine State.bump_frame ?_ _ K_a_counter (Sub.le (by decide) hp)
    exact h
  extract_lets -merge -useContext -underBinder +onlyGivenNames x1
  extract_lets -merge -useContext -underBinder +onlyGivenNames x2
  extract_lets -merge -useContext -underBinder +onlyGivenNames x3
  extract_lets -merge -useContext -underBinder +onlyGivenNames x4
  have h4 : Frame P s0 x4 := by
    unfold x4
    refine State.setCheck_frame ?_ _ _ _ (Sub.le (by decide) hp)
    exact h0
  refine Frame.ite (fun _ => ?_) (fun _ => ?_)
  · exact h4
  · refine State.qualPost_frame ?_ _ _ (Sub.le (by decide) hp)
    exact h4

theorem State.qualFail_frame {P : Part → Prop} {s0 s : State} (h : Frame P s0 s) (a_page : ℕ) (a_check : ℕ) (a_item : ℕ) (a_value : Sys2Proof.Word) (a_counter : ℕ) (K_a_counter : RegIn P a_counter) (hp : Sub 1209001912433933226813730 P) :
    Frame P s0 (State.qualFail s a_page a_check a_item a_value a_counter) := by
  unfold State.qualFail
  refine State.qualFailAt_frame ?_ _ _ _ _ _ _ _ K_a_counter (Sub.le (by decide) hp)
  exact h

theorem State.qualClear_frame {P : Part → Prop} {s0 s : State} (h : Frame P s0 s) (a_page : ℕ) (a_check : ℕ) (a_item : ℕ) (a_value : Sys2Proof.Word) (hp : Sub 1209001912433933226813730 P) :
    Frame P s0 (State.qualClear s a_page a_check a_item a_value) := by
  unfold State.qualClear
  extract_lets -merge -useContext -underBinder +onlyGivenNames x0
  refine Frame.ite (fun _ => ?_) (fun _ => ?_)
  · extract_lets -merge -useContext -underBinder +onlyGivenNames x1
    have h1 : Frame P s0 x1 := by
      unfold x1
      refine Frame.ite (fun _ => ?_) (fun _ => ?_)
      · exact h
      · refine State.qualPost_frame ?_ _ _ (Sub.le (by decide) hp)
        exact h
    extract_lets -merge -useContext -underBinder +onlyGivenNames x2
    extract_lets -merge -useContext -underBinder +onlyGivenNames x3
    have h3 : Frame P s0 x3 := by
      unfold x3
      refine State.setCheck_frame ?_ _ _ _ (Sub.le (by decide) hp)
      exact h1
    refine State.qualRecord_frame ?_ _ _ _ _ _ _ _ _ (Sub.le (by decide) hp)
    exact h3
  · exact h

theorem State.gatherPost_frame {P : Part → Prop} {s0 s : State} (h : Frame P s0 s) (a_k : ℕ) (hp : Sub 1208999606590924013119810 P) :
    Frame P s0 (State.gatherPost s a_k) := by
  unfold State.gatherPost
  extract_lets -merge -useContext -underBinder +onlyGivenNames x0
  extract_lets -merge -useContext -underBinder +onlyGivenNames x1
  have h1 : Frame P s0 x1 := by
    unfold x1
    refine Frame.set_gathers ?_ (hp .gathers rfl) _
    exact h
  extract_lets -merge -useContext -underBinder +onlyGivenNames x2
  refine State.postPageAt_frame ?_ _ _ _ _ _ _ _ _ _ (Sub.le (by decide) hp)
  exact h1

theorem State.gather_frame {P : Part → Prop} {s0 s : State} (h : Frame P s0 s) (a_k : ℕ) (a_new : Sys2Proof.Machine.Gather) (hp : Sub 1208999606590924013119810 P) :
    Frame P s0 (State.gather s a_k a_new) := by
  unfold State.gather
  extract_lets -merge -useContext -underBinder +onlyGivenNames x0
  extract_lets -merge -useContext -underBinder +onlyGivenNames x1
  extract_lets -merge -useContext -underBinder +onlyGivenNames x2
  have h2 : Frame P s0 x2 := by
    unfold x2
    refine Frame.set_gathers ?_ (hp .gathers rfl) _
    exact h
  refine Frame.ite (fun _ => ?_) (fun _ => ?_)
  · exact h2
  · refine State.gatherPost_frame ?_ _ (Sub.le (by decide) hp)
    exact h2

theorem State.eccPost_frame {P : Part → Prop} {s0 s : State} (h : Frame P s0 s) (a_page : ℕ) (a_mem : ℕ) (a_uncorr : Bool) (hp : Sub 1208999606590924013119874 P) :
    Frame P s0 (State.eccPost s a_page a_mem a_uncorr) := by
  unfold State.eccPost
  extract_lets -merge -useContext -underBinder +onlyGivenNames x0
  extract_lets -merge -useContext -underBinder +onlyGivenNames x1
  have h1 : Frame P s0 x1 := by
    unfold x1
    refine Frame.set_ecc ?_ (hp .ecc rfl) _
    exact h
  refine State.postPageAt_frame ?_ _ _ _ _ _ _ _ _ _ (Sub.le (by decide) hp)
  exact h1

theorem State.eccNote_frame {P : Part → Prop} {s0 s : State} (h : Frame P s0 s) (a_scrub : Bool) (a_page : ℕ) (a_mem : ℕ) (a_uncorr : Bool) (a_addr : Sys2Proof.Word) (a_syndrome : Sys2Proof.Word) (hp : Sub 1208999606590924013119874 P) :
    Frame P s0 (State.eccNote s a_scrub a_page a_mem a_uncorr a_addr a_syndrome) := by
  unfold State.eccNote
  extract_lets -merge -useContext -underBinder +onlyGivenNames x0
  extract_lets -merge -useContext -underBinder +onlyGivenNames x1
  extract_lets -merge -useContext -underBinder +onlyGivenNames x2
  extract_lets -merge -useContext -underBinder +onlyGivenNames x3
  have h3 : Frame P s0 x3 := by
    unfold x3
    refine Frame.set_ecc ?_ (hp .ecc rfl) _
    exact h
  refine Frame.ite (fun _ => ?_) (fun _ => ?_)
  · exact h3
  · refine State.eccPost_frame ?_ _ _ _ (Sub.le (by decide) hp)
    exact h3

theorem State.eccError_frame {P : Part → Prop} {s0 s : State} (h : Frame P s0 s) (a_page : ℕ) (a_mem : ℕ) (a_uncorr : Bool) (a_addr : Sys2Proof.Word) (a_syndrome : Sys2Proof.Word) (hp : Sub 1208999606590924013119874 P) :
    Frame P s0 (State.eccError s a_page a_mem a_uncorr a_addr a_syndrome) := by
  unfold State.eccError
  refine State.eccNote_frame ?_ _ _ _ _ _ _ (Sub.le (by decide) hp)
  exact h

theorem State.mbxAccept_frame {P : Part → Prop} {s0 s : State} (h : Frame P s0 s) (a_page : ℕ) (a_start : Sys2Proof.Machine.State → Sys2Proof.Machine.State) (Ha_start : ∀ z0, Frame P s0 z0 → Frame P s0 (a_start z0)) (hp : Sub 147573952589676412928 P) :
    Frame P s0 (State.mbxAccept s a_page a_start) := by
  unfold State.mbxAccept
  refine Frame.ite (fun _ => ?_) (fun _ => ?_)
  · refine State.setFld_frame ?_ _ _ _ _ (Reg.mbxFlag_in _ (hp .regMbx rfl)) (Sub.le (by decide) hp)
    exact h
  · refine Ha_start _ ?_
    refine State.wr_frame ?_ _ _ (Reg.mbxFlag_in _ (hp .regMbx rfl)) (Sub.le (by decide) hp)
    exact h

theorem State.mbxAnswer_frame {P : Part → Prop} {s0 s : State} (h : Frame P s0 s) (a_page : ℕ) (a_a : Sys2Proof.Machine.MbxAns) (hp : Sub 4 P) :
    Frame P s0 (State.mbxAnswer s a_page a_a) := by
  unfold State.mbxAnswer
  refine Frame.set_mbx ?_ (hp .mbx rfl) _
  exact h

theorem State.mbxCommand_frame {P : Part → Prop} {s0 s : State} (h : Frame P s0 s) (a_page : ℕ) (a_f : Sys2Proof.Machine.State → Sys2Proof.Machine.MbxAns × Sys2Proof.Machine.State) (Ha_f : ∀ z0, Frame P s0 z0 → Frame P s0 (a_f z0).2) (hp : Sub 147573952589676412932 P) :
    Frame P s0 (State.mbxCommand s a_page a_f) := by
  unfold State.mbxCommand
  refine State.mbxAccept_frame ?_ _ _ (fun y0 h0 => ?_) (Sub.le (by decide) hp)
  · exact h
  · refine State.mbxAnswer_frame ?_ _ _ (Sub.le (by decide) hp)
    refine Ha_f _ ?_
    exact h0

theorem State.mbxResult_frame {P : Part → Prop} {s0 s : State} (h : Frame P s0 s) (a_page : ℕ) (a_n : ℕ) (a_x : Option Sys2Proof.Word) (hp : Sub 147573952589676412928 P) :
    Frame P s0 (State.mbxResult s a_page a_n a_x) := by
  unfold State.mbxResult
  split
  · exact h
  · refine State.wr_frame ?_ _ _ (Reg.mbxD_in _ _ (by omega) (hp .regMbx rfl)) (Sub.le (by decide) hp)
    exact h

theorem State.setLine_frame {P : Part → Prop} {s0 s : State} (h : Frame P s0 s) (a_k : ℕ) (a_c : Sys2Proof.Machine.LineCell) (hp : Sub 524288 P) :
    Frame P s0 (State.setLine s a_k a_c) := by
  unfold State.setLine
  refine Frame.set_lines ?_ (hp .lines rfl) _
  exact h

theorem State.setLease_frame {P : Part → Prop} {s0 s : State} (h : Frame P s0 s) (a_f : Sys2Proof.Machine.LeaseSt → Sys2Proof.Machine.LeaseSt) (hp : Sub 33554432 P) :
    Frame P s0 (State.setLease s a_f) := by
  unfold State.setLease
  refine Frame.set_lease ?_ (hp .lease rfl) _
  exact h

theorem State.leaseEnter_frame {P : Part → Prop} {s0 s : State} (h : Frame P s0 s) (a_st : Sys2Proof.Machine.LeaseState) (a_f : Sys2Proof.Machine.LeaseSt → Sys2Proof.Machine.LeaseSt) (hp : Sub 33554432 P) :
    Frame P s0 (State.leaseEnter s a_st a_f) := by
  unfold State.leaseEnter
  refine State.setLease_frame ?_ _ (Sub.le (by decide) hp)
  exact h

theorem State.compareTrack_frame {P : Part → Prop} {s0 s : State} (h : Frame P s0 s)  (hp : Sub 33554432 P) :
    Frame P s0 (State.compareTrack s) := by
  unfold State.compareTrack
  extract_lets -merge -useContext -underBinder +onlyGivenNames x0
  refine State.setLease_frame ?_ _ (Sub.le (by decide) hp)
  exact h

theorem State.leaseTrack_frame {P : Part → Prop} {s0 s : State} (h : Frame P s0 s)  (hp : Sub 33554432 P) :
    Frame P s0 (State.leaseTrack s) := by
  unfold State.leaseTrack
  refine State.setLease_frame ?_ _ (Sub.le (by decide) hp)
  refine State.compareTrack_frame ?_  (Sub.le (by decide) hp)
  exact h

theorem State.leasePost_frame {P : Part → Prop} {s0 s : State} (h : Frame P s0 s) (a_ty : ℕ) (a_irq : ℕ) (a_flags : ℕ) (a_w4 : Sys2Proof.Word) (a_w5 : Sys2Proof.Word) (a_w6 : Sys2Proof.Word) (a_w7 : Sys2Proof.Word) (hp : Sub 1208999606590924013119746 P) :
    Frame P s0 (State.leasePost s a_ty a_irq a_flags a_w4 a_w5 a_w6 a_w7) := by
  unfold State.leasePost
  refine State.post_frame ?_ _ _ _ _ _ _ _ _ (Sub.le (by decide) hp)
  refine State.raise_frame ?_ _ _ (Sub.le (by decide) hp)
  exact h

theorem State.plkSend_frame {P : Part → Prop} {s0 s : State} (h : Frame P s0 s) (a_kind : BitVec 8) (a_w8 : Sys2Proof.Word) (a_w12 : Sys2Proof.Word) (hp : Sub 309485009821345068825444352 P) :
    Frame P s0 (State.plkSend s a_kind a_w8 a_w12) := by
  unfold State.plkSend
  refine Frame.ite (fun _ => ?_) (fun _ => ?_)
  · exact h
  · extract_lets -merge -useContext -underBinder +onlyGivenNames x0
    extract_lets -merge -useContext -underBinder +onlyGivenNames x1
    have h1 : Frame P s0 x1 := by
      unfold x1
      refine State.bump_frame ?_ _ (Reg.plkCntTxMsg_in (hp .regPlk rfl)) (Sub.le (by decide) hp)
      exact h
    extract_lets -merge -useContext -underBinder +onlyGivenNames x2
    extract_lets -merge -useContext -underBinder +onlyGivenNames x3
    have h3 : Frame P s0 x3 := by
      unfold x3
      refine Frame.set_plk ?_ (hp .plk rfl) _
      exact h1
    refine Frame.ite (fun _ => ?_) (fun _ => ?_)
    · refine State.setLease_frame ?_ _ (Sub.le (by decide) hp)
      exact h3
    · exact h3

theorem State.loadLatches_frame {P : Part → Prop} {s0 s : State} (h : Frame P s0 s)  (hp : Sub 524288 P) :
    Frame P s0 (State.loadLatches s) := by
  unfold State.loadLatches
  refine Frame.set_lines ?_ (hp .lines rfl) _
  exact h

theorem State.driveOwn_frame {P : Part → Prop} {s0 s : State} (h : Frame P s0 s) (a_b : Bool) (hp : Sub 33554432 P) :
    Frame P s0 (State.driveOwn s a_b) := by
  unfold State.driveOwn
  refine State.setLease_frame ?_ _ (Sub.le (by decide) hp)
  exact h

theorem State.postLost_frame {P : Part → Prop} {s0 s : State} (h : Frame P s0 s) (a_cause : ℕ) (hp : Sub 78580252061927191194315010 P) :
    Frame P s0 (State.postLost s a_cause) := by
  unfold State.postLost
  refine State.leasePost_frame ?_ _ _ _ _ _ _ _ (Sub.le (by decide) hp)
  refine State.bump_frame ?_ _ (Reg.leaseCntLost_in (hp .regLease rfl)) (Sub.le (by decide) hp)
  exact h

theorem State.loseLease_frame {P : Part → Prop} {s0 s : State} (h : Frame P s0 s) (a_cause : ℕ) (hp : Sub 78580252061927191227869442 P) :
    Frame P s0 (State.loseLease s a_cause) := by
  unfold State.loseLease
  extract_lets -merge -useContext -underBinder +onlyGivenNames x0
  have h0 : Frame P s0 x0 := by
    unfold x0
    refine State.driveOwn_frame ?_ _ (Sub.le (by decide) hp)
    exact h
  extract_lets -merge -useContext -underBinder +onlyGivenNames x1
  have h1 : Frame P s0 x1 := by
    unfold x1
    refine State.leaseEnter_frame ?_ _ _ (Sub.le (by decide) hp)
    exact h0
  refine State.postLost_frame ?_ _ (Sub.le (by decide) hp)
  exact h1

theorem State.releaseLease_frame {P : Part → Prop} {s0 s : State} (h : Frame P s0 s) (a_cause : ℕ) (hp : Sub 388065261883272260019759362 P) :
    Frame P s0 (State.releaseLease s a_cause) := by
  unfold State.releaseLease
  refine State.loseLease_frame ?_ _ (Sub.le (by decide) hp)
  refine Frame.ite (fun _ => ?_) (fun _ => ?_)
  · refine State.plkSend_frame ?_ _ _ _ (Sub.le (by decide) hp)
    exact h
  · exact h

theorem State.postCompare_frame {P : Part → Prop} {s0 s : State} (h : Frame P s0 s) (a_cleared : Bool) (hp : Sub 1208999606590924013119746 P) :
    Frame P s0 (State.postCompare s a_cleared) := by
  unfold State.postCompare
  extract_lets -merge -useContext -underBinder +onlyGivenNames x0
  extract_lets -merge -useContext -underBinder +onlyGivenNames x1
  extract_lets -merge -useContext -underBinder +onlyGivenNames x2
  refine State.leasePost_frame ?_ _ _ _ _ _ _ _ (Sub.le (by decide) hp)
  exact h

theorem State.decideCompare_frame {P : Part → Prop} {s0 s : State} (h : Frame P s0 s)  (hp : Sub 388065261883272260019759362 P) :
    Frame P s0 (State.decideCompare s) := by
  unfold State.decideCompare
  refine Frame.ite (fun _ => ?_) (fun _ => ?_)
  · refine Frame.ite (fun _ => ?_) (fun _ => ?_)
    · refine State.releaseLease_frame ?_ _ (Sub.le (by decide) hp)
      exact h
    · exact h
  · refine Frame.ite (fun _ => ?_) (fun _ => ?_)
    · extract_lets -merge -useContext -underBinder +onlyGivenNames x0
      extract_lets -merge -useContext -underBinder +onlyGivenNames x1
      have h1 : Frame P s0 x1 := by
        unfold x1
        refine State.bump_frame ?_ _ (Reg.leaseCntAmbiguous_in (hp .regLease rfl)) (Sub.le (by decide) hp)
        refine State.setLease_frame ?_ _ (Sub.le (by decide) hp)
        exact h
      refine State.leasePost_frame ?_ _ _ _ _ _ _ _ (Sub.le (by decide) hp)
      exact h1
    · exact h

theorem State.decideUnfit_frame {P : Part → Prop} {s0 s : State} (h : Frame P s0 s)  (hp : Sub 388065261883272260019759362 P) :
    Frame P s0 (State.decideUnfit s) := by
  unfold State.decideUnfit
  refine Frame.ite (fun _ => ?_) (fun _ => ?_)
  · exact h
  · refine Frame.ite (fun _ => ?_) (fun _ => ?_)
    · refine State.decideCompare_frame ?_  (Sub.le (by decide) hp)
      exact h
    · refine Frame.ite (fun _ => ?_) (fun _ => ?_)
      · refine State.releaseLease_frame ?_ _ (Sub.le (by decide) hp)
        exact h
      · exact h

theorem State.acquireLease_frame {P : Part → Prop} {s0 s : State} (h : Frame P s0 s) (a_cause : ℕ) (hp : Sub 388065261883272260020283650 P) :
    Frame P s0 (State.acquireLease s a_cause) := by
  unfold State.acquireLease
  extract_lets -merge -useContext -underBinder +onlyGivenNames x0
  extract_lets -merge -useContext -underBinder +onlyGivenNames x1
  have h1 : Frame P s0 x1 := by
    unfold x1
    refine State.leaseEnter_frame ?_ _ _ (Sub.le (by decide) hp)
    refine State.driveOwn_frame ?_ _ (Sub.le (by decide) hp)
    refine State.loadLatches_frame ?_  (Sub.le (by decide) hp)
    exact h
  extract_lets -merge -useContext -underBinder +onlyGivenNames x2
  have h2 : Frame P s0 x2 := by
    unfold x2
    refine State.leasePost_frame ?_ _ _ _ _ _ _ _ (Sub.le (by decide) hp)
    refine State.bump_frame ?_ _ (Reg.leaseCntAcquire_in (hp .regLease rfl)) (Sub.le (by decide) hp)
    exact h1
  refine State.decideUnfit_frame ?_  (Sub.le (by decide) hp)
  exact h2

theorem State.tryTake_frame {P : Part → Prop} {s0 s : State} (h : Frame P s0 s)  (hp : Sub 33554432 P) :
    Frame P s0 (State.tryTake s) := by
  unfold State.tryTake
  refine Frame.ite (fun _ => ?_) (fun _ => ?_)
  · refine State.leaseEnter_frame ?_ _ _ (Sub.le (by decide) hp)
    exact h
  · exact h

theorem State.postHandover_frame {P : Part → Prop} {s0 s : State} (h : Frame P s0 s) (a_aborted : Bool) (a_was : Bool) (a_reason : ℕ) (a_t : Sys2Proof.TimePoint) (hp : Sub 78580252061927191194315010 P) :
    Frame P s0 (State.postHandover s a_aborted a_was a_reason a_t) := by
  unfold State.postHandover
  extract_lets -merge -useContext -underBinder +onlyGivenNames x0
  have h0 : Frame P s0 x0 := by
    unfold x0
    refine State.bump_frame ?_ _ (RegIn.ite (Reg.leaseCntHandoverAbort_in (hp .regLease rfl)) (Reg.leaseCntHandover_in (hp .regLease rfl))) (Sub.le (by decide) hp)
    exact h
  refine State.leasePost_frame ?_ _ _ _ _ _ _ _ (Sub.le (by decide) hp)
  exact h0

theorem State.abortHandover_frame {P : Part → Prop} {s0 s : State} (h : Frame P s0 s) (a_reason : ℕ) (a_send : Bool) (hp : Sub 388065261883272260019759362 P) :
    Frame P s0 (State.abortHandover s a_reason a_send) := by
  unfold State.abortHandover
  split
  · refine Frame.ite (fun _ => ?_) (fun _ => ?_)
    · extract_lets -merge -useContext -underBinder +onlyGivenNames x1
      have h1 : Frame P s0 x1 := by
        unfold x1
        refine Frame.ite (fun _ => ?_) (fun _ => ?_)
        · refine State.plkSend_frame ?_ _ _ _ (Sub.le (by decide) hp)
          exact h
        · exact h
      extract_lets -merge -useContext -underBinder +onlyGivenNames x2
      have h2 : Frame P s0 x2 := by
        unfold x2
        refine State.leaseEnter_frame ?_ _ _ (Sub.le (by decide) hp)
        exact h1
      refine State.postHandover_frame ?_ _ _ _ _ (Sub.le (by decide) hp)
      exact h2
    · exact h
  · exact h

theorem State.commandsChanged_frame {P : Part → Prop} {s0 s : State} (h : Frame P s0 s)  (hp : Sub 388065261883272260019759362 P) :
    Frame P s0 (State.commandsChanged s) := by
  unfold State.commandsChanged
  extract_lets -merge -useContext -underBinder +onlyGivenNames x0
  have h0 : Frame P s0 x0 := by
    unfold x0
    refine State.leaseTrack_frame ?_  (Sub.le (by decide) hp)
    exact h
  refine Frame.ite (fun _ => ?_) (fun _ => ?_)
  · refine State.abortHandover_frame ?_ _ _ (Sub.le (by decide) hp)
    exact h0
  · exact h0

theorem State.leaseFault_frame {P : Part → Prop} {s0 s : State} (h : Frame P s0 s) (a_b : ℕ) (hp : Sub 388065261883272260019759362 P) :
    Frame P s0 (State.leaseFault s a_b) := by
  unfold State.leaseFault
  refine Frame.ite (fun _ => ?_) (fun _ => ?_)
  · exact h
  · extract_lets -merge -useContext -underBinder +onlyGivenNames x0
    have h0 : Frame P s0 x0 := by
      unfold x0
      refine State.raise_frame ?_ _ _ (Sub.le (by decide) hp)
      refine State.setFld_frame ?_ _ _ _ _ (Reg.leaseFault_in (hp .regLease rfl)) (Sub.le (by decide) hp)
      exact h
    refine State.leaseTrack_frame ?_  (Sub.le (by decide) hp)
    refine State.decideUnfit_frame ?_  (Sub.le (by decide) hp)
    refine State.abortHandover_frame ?_ _ _ (Sub.le (by decide) hp)
    exact h0

theorem State.setPlk_frame {P : Part → Prop} {s0 s : State} (h : Frame P s0 s) (a_f : Sys2Proof.Machine.PlkSt → Sys2Proof.Machine.PlkSt) (hp : Sub 67108864 P) :
    Frame P s0 (State.setPlk s a_f) := by
  unfold State.setPlk
  refine Frame.set_plk ?_ (hp .plk rfl) _
  exact h

theorem State.plkEnter_frame {P : Part → Prop} {s0 s : State} (h : Frame P s0 s) (a_st : Sys2Proof.Machine.PlkState) (hp : Sub 67108864 P) :
    Frame P s0 (State.plkEnter s a_st) := by
  unfold State.plkEnter
  refine State.setPlk_frame ?_ _ (Sub.le (by decide) hp)
  exact h

theorem State.plkLeaveUp_frame {P : Part → Prop} {s0 s : State} (h : Frame P s0 s) (a_cause : ℕ) (a_dest : Sys2Proof.Machine.PlkState) (hp : Sub 310694009427935992805009666 P) :
    Frame P s0 (State.plkLeaveUp s a_cause a_dest) := by
  unfold State.plkLeaveUp
  refine Frame.ite (fun _ => ?_) (fun _ => ?_)
  · extract_lets -merge -useContext -underBinder +onlyGivenNames x0
    have h0 : Frame P s0 x0 := by
      unfold x0
      refine State.bump_frame ?_ _ (Reg.plkCntLinkDown_in (hp .regPlk rfl)) (Sub.le (by decide) hp)
      exact h
    extract_lets -merge -useContext -underBinder +onlyGivenNames x1
    extract_lets -merge -useContext -underBinder +onlyGivenNames x2
    have h2 : Frame P s0 x2 := by
      unfold x2
      refine State.setPlk_frame ?_ _ (Sub.le (by decide) hp)
      refine State.plkEnter_frame ?_ _ (Sub.le (by decide) hp)
      exact h0
    refine State.post_frame ?_ _ _ _ _ _ _ _ _ (Sub.le (by decide) hp)
    refine State.raise_frame ?_ _ _ (Sub.le (by decide) hp)
    exact h2
  · refine State.plkEnter_frame ?_ _ (Sub.le (by decide) hp)
    exact h

theorem State.plkGoUp_frame {P : Part → Prop} {s0 s : State} (h : Frame P s0 s)  (hp : Sub 1208999606590924080228610 P) :
    Frame P s0 (State.plkGoUp s) := by
  unfold State.plkGoUp
  extract_lets -merge -useContext -underBinder +onlyGivenNames x0
  extract_lets -merge -useContext -underBinder +onlyGivenNames x1
  have h1 : Frame P s0 x1 := by
    unfold x1
    refine State.setPlk_frame ?_ _ (Sub.le (by decide) hp)
    refine State.plkEnter_frame ?_ _ (Sub.le (by decide) hp)
    exact h
  refine State.post_frame ?_ _ _ _ _ _ _ _ _ (Sub.le (by decide) hp)
  refine State.raise_frame ?_ _ _ (Sub.le (by decide) hp)
  exact h1

theorem State.plkEnable_frame {P : Part → Prop} {s0 s : State} (h : Frame P s0 s) (a_en : Bool) (hp : Sub 310694009427935992805009666 P) :
    Frame P s0 (State.plkEnable s a_en) := by
  unfold State.plkEnable
  refine Frame.ite (fun _ => ?_) (fun _ => ?_)
  · refine Frame.ite (fun _ => ?_) (fun _ => ?_)
    · refine State.plkEnter_frame ?_ _ (Sub.le (by decide) hp)
      exact h
    · exact h
  · refine State.plkLeaveUp_frame ?_ _ _ (Sub.le (by decide) hp)
    exact h

theorem State.plkReject_frame {P : Part → Prop} {s0 s : State} (h : Frame P s0 s) (a_m : Sys2Proof.PlkMsg) (hp : Sub 310694011733779002018703650 P) :
    Frame P s0 (State.plkReject s a_m) := by
  unfold State.plkReject
  extract_lets -merge -useContext -underBinder +onlyGivenNames x0
  have h0 : Frame P s0 x0 := by
    unfold x0
    refine State.raise_frame ?_ _ _ (Sub.le (by decide) hp)
    exact h
  extract_lets -merge -useContext -underBinder +onlyGivenNames x1
  have h1 : Frame P s0 x1 := by
    unfold x1
    refine Frame.ite (fun _ => ?_) (fun _ => ?_)
    · refine State.qualFail_frame ?_ _ _ _ _ _ (Reg.plkCntCrc_in (hp .regPlk rfl)) (Sub.le (by decide) hp)
      exact h0
    · refine State.qualFail_frame ?_ _ _ _ _ _ (Reg.plkCntMalformed_in (hp .regPlk rfl)) (Sub.le (by decide) hp)
      exact h0
  extract_lets -merge -useContext -underBinder +onlyGivenNames x2
  have h2 : Frame P s0 x2 := by
    unfold x2
    refine State.setPlk_frame ?_ _ (Sub.le (by decide) hp)
    exact h1
  refine Frame.ite (fun _ => ?_) (fun _ => ?_)
  · refine State.plkLeaveUp_frame ?_ _ _ (Sub.le (by decide) hp)
    exact h2
  · exact h2

theorem State.leaseMessage_frame {P : Part → Prop} {s0 s : State} (h : Frame P s0 s) (a_m : Sys2Proof.PlkMsg) (hp : Sub 388065261883272260019759362 P) :
    Frame P s0 (State.leaseMessage s a_m) := by
  unfold State.leaseMessage
  refine Frame.ite (fun _ => ?_) (fun _ => ?_)
  · extract_lets -merge -useContext -underBinder +onlyGivenNames x0
    have h0 : Frame P s0 x0 := by
      unfold x0
      refine State.setLease_frame ?_ _ (Sub.le (by decide) hp)
      exact h
    extract_lets -merge -useContext -underBinder +onlyGivenNames x1
    have h1 : Frame P s0 x1 := by
      unfold x1
      refine State.setLease_frame ?_ _ (Sub.le (by decide) hp)
      exact h0
    extract_lets -merge -useContext -underBinder +onlyGivenNames x2
    have h2 : Frame P s0 x2 := by
      unfold x2
      refine Frame.ite (fun _ => ?_) (fun _ => ?_)
      · refine Frame.ite (fun _ => ?_) (fun _ => ?_)
        · refine State.leaseEnter_frame ?_ _ _ (Sub.le (by decide) hp)
          exact h1
        · exact h1
      · exact h0
    refine State.commandsChanged_frame ?_  (Sub.le (by decide) hp)
    exact h2
  · exact h

theorem State.plkReceive_frame {P : Part → Prop} {s0 s : State} (h : Frame P s0 s) (a_kind : BitVec 8) (a_m : Sys2Proof.PlkMsg) (a_f : Sys2Proof.Machine.State → Sys2Proof.PlkMsg → Sys2Proof.Machine.State) (Ha_f : ∀ z0 z1, Frame P s0 z0 → Frame P s0 (a_f z0 z1)) (hp : Sub 388065264189115269233453346 P) :
    Frame P s0 (State.plkReceive s a_kind a_m a_f) := by
  unfold State.plkReceive
  extract_lets -merge -useContext -underBinder +onlyGivenNames x0
  refine Frame.ite (fun _ => ?_) (fun _ => ?_)
  · exact h
  · refine Frame.ite (fun _ => ?_) (fun _ => ?_)
    · refine State.plkReject_frame ?_ _ (Sub.le (by decide) hp)
      exact h
    · extract_lets -merge -useContext -underBinder +onlyGivenNames x1
      have h1 : Frame P s0 x1 := by
        unfold x1
        refine State.setPlk_frame ?_ _ (Sub.le (by decide) hp)
        refine State.bump_frame ?_ _ (Reg.plkCntRxMsg_in (hp .regPlk rfl)) (Sub.le (by decide) hp)
        exact h
      extract_lets -merge -useContext -underBinder +onlyGivenNames x2
      have h2 : Frame P s0 x2 := by
        unfold x2
        refine Frame.ite (fun _ => ?_) (fun _ => ?_)
        · refine State.plkGoUp_frame ?_  (Sub.le (by decide) hp)
          exact h1
        · exact h1
      refine Frame.ite (fun _ => ?_) (fun _ => ?_)
      · refine Ha_f _ _ ?_
        refine State.leaseMessage_frame ?_ _ (Sub.le (by decide) hp)
        exact h2
      · exact h2

theorem execStateReceive_frame {P : Part → Prop} {s0 s : State} (h : Frame P s0 s) (a_m : Sys2Proof.PlkMsg) (hp : Sub 388065264189115269233453346 P) :
    AnswersIn P s0 (execStateReceive a_m s) := by
  refine ⟨_, rfl, ?_⟩
  refine State.plkReceive_frame ?_ _ _ _ (fun y0 _ h0 => ?_) (Sub.le (by decide) hp)
  · exact h
  · exact h0

theorem execReleaseReceive_frame {P : Part → Prop} {s0 s : State} (h : Frame P s0 s) (a_m : Sys2Proof.PlkMsg) (hp : Sub 388065264189115269233453346 P) :
    AnswersIn P s0 (execReleaseReceive a_m s) := by
  refine ⟨_, rfl, ?_⟩
  refine State.plkReceive_frame ?_ _ _ _ (fun y0 _ h0 => ?_) (Sub.le (by decide) hp)
  · exact h
  · refine Frame.ite (fun _ => ?_) (fun _ => ?_)
    · refine State.setLease_frame ?_ _ (Sub.le (by decide) hp)
      exact h0
    · exact h0

theorem execHoReqReceive_frame {P : Part → Prop} {s0 s : State} (h : Frame P s0 s) (a_m : Sys2Proof.PlkMsg) (hp : Sub 388065264189115269233453346 P) :
    AnswersIn P s0 (execHoReqReceive a_m s) := by
  refine ⟨_, rfl, ?_⟩
  refine State.plkReceive_frame ?_ _ _ _ (fun y0 _ h0 => ?_) (Sub.le (by decide) hp)
  · exact h
  · extract_lets -merge -useContext -underBinder +onlyGivenNames x1
    refine Frame.ite (fun _ => ?_) (fun _ => ?_)
    · exact h0
    · split
      · refine State.plkSend_frame ?_ _ _ _ (Sub.le (by decide) hp)
        exact h0
      · refine State.leaseEnter_frame ?_ _ _ (Sub.le (by decide) hp)
        refine State.plkSend_frame ?_ _ _ _ (Sub.le (by decide) hp)
        exact h0

theorem execHoAckReceive_frame {P : Part → Prop} {s0 s : State} (h : Frame P s0 s) (a_m : Sys2Proof.PlkMsg) (hp : Sub 388065264189115269233453346 P) :
    AnswersIn P s0 (execHoAckReceive a_m s) := by
  refine ⟨_, rfl, ?_⟩
  refine State.plkReceive_frame ?_ _ _ _ (fun y0 _ h0 => ?_) (Sub.le (by decide) hp)
  · exact h
  · extract_lets -merge -useContext -underBinder +onlyGivenNames x1
    refine Frame.ite (fun _ => ?_) (fun _ => ?_)
    · extract_lets -merge -useContext -underBinder +onlyGivenNames x2
      have h2 : Frame P s0 x2 := by
        unfold x2
        refine State.leaseEnter_frame ?_ _ _ (Sub.le (by decide) hp)
        exact h0
      refine Frame.ite (fun _ => ?_) (fun _ => ?_)
      · refine State.commandsChanged_frame ?_  (Sub.le (by decide) hp)
        exact h2
      · refine State.abortHandover_frame ?_ _ _ (Sub.le (by decide) hp)
        exact h2
    · exact h0

theorem execHoCancelReceive_frame {P : Part → Prop} {s0 s : State} (h : Frame P s0 s) (a_m : Sys2Proof.PlkMsg) (hp : Sub 388065264189115269233453346 P) :
    AnswersIn P s0 (execHoCancelReceive a_m s) := by
  refine ⟨_, rfl, ?_⟩
  refine State.plkReceive_frame ?_ _ _ _ (fun y0 _ h0 => ?_) (Sub.le (by decide) hp)
  · exact h
  · refine State.setLease_frame ?_ _ (Sub.le (by decide) hp)
    refine State.abortHandover_frame ?_ _ _ (Sub.le (by decide) hp)
    exact h0

theorem execEchoReceive_frame {P : Part → Prop} {s0 s : State} (h : Frame P s0 s) (a_m : Sys2Proof.PlkMsg) (a_residence : Sys2Proof.Word) (hp : Sub 388065264189115269233453346 P) :
    AnswersIn P s0 (execEchoReceive a_m a_residence s) := by
  refine ⟨_, rfl, ?_⟩
  refine State.plkReceive_frame ?_ _ _ _ (fun y0 _ h0 => ?_) (Sub.le (by decide) hp)
  · exact h
  · refine State.plkSend_frame ?_ _ _ _ (Sub.le (by decide) hp)
    exact h0

theorem execEchoReplyReceive_frame {P : Part → Prop} {s0 s : State} (h : Frame P s0 s) (a_m : Sys2Proof.PlkMsg) (a_roundTrip : ℕ) (hp : Sub 388065264189115269233453346 P) :
    AnswersIn P s0 (execEchoReplyReceive a_m a_roundTrip s) := by
  refine ⟨_, rfl, ?_⟩
  refine State.plkReceive_frame ?_ _ _ _ (fun y0 _ h0 => ?_) (Sub.le (by decide) hp)
  · exact h
  · refine Frame.ite (fun _ => ?_) (fun _ => ?_)
    · extract_lets -merge -useContext -underBinder +onlyGivenNames x1
      extract_lets -merge -useContext -underBinder +onlyGivenNames x2
      refine State.wr_frame ?_ _ _ (Reg.plkLatency_in (hp .regPlk rfl)) (Sub.le (by decide) hp)
      refine State.setPlk_frame ?_ _ (Sub.le (by decide) hp)
      exact h0
    · exact h0

theorem execPlkMessageRejected_frame {P : Part → Prop} {s0 s : State} (h : Frame P s0 s) (a_m : Sys2Proof.PlkMsg) (hp : Sub 310694011733779002018703650 P) :
    AnswersIn P s0 (execPlkMessageRejected a_m s) := by
  refine ⟨_, rfl, ?_⟩
  refine Frame.ite (fun _ => ?_) (fun _ => ?_)
  · exact h
  · refine State.plkReject_frame ?_ _ (Sub.le (by decide) hp)
    exact h

theorem execPlkLaneAlignment_frame {P : Part → Prop} {s0 s : State} (h : Frame P s0 s) (a_lane0 : Bool) (a_lane1 : Bool) (hp : Sub 67108864 P) :
    AnswersIn P s0 (execPlkLaneAlignment a_lane0 a_lane1 s) := by
  refine ⟨_, rfl, ?_⟩
  refine Frame.ite (fun _ => ?_) (fun _ => ?_)
  · exact h
  · refine State.setPlk_frame ?_ _ (Sub.le (by decide) hp)
    exact h

theorem execPlkAlignTimeout_frame {P : Part → Prop} {s0 s : State} (h : Frame P s0 s)  (hp : Sub 309485009821345068791889920 P) :
    AnswersIn P s0 (execPlkAlignTimeout s) := by
  refine ⟨_, rfl, ?_⟩
  refine Frame.ite (fun _ => ?_) (fun _ => ?_)
  · refine State.plkEnter_frame ?_ _ (Sub.le (by decide) hp)
    refine State.bump_frame ?_ _ (Reg.plkCntLinkFail_in (hp .regPlk rfl)) (Sub.le (by decide) hp)
    exact h
  · exact h

theorem execPlkHoldExpiry_frame {P : Part → Prop} {s0 s : State} (h : Frame P s0 s)  (hp : Sub 67108864 P) :
    AnswersIn P s0 (execPlkHoldExpiry s) := by
  refine ⟨_, rfl, ?_⟩
  refine Frame.ite (fun _ => ?_) (fun _ => ?_)
  · refine State.plkEnter_frame ?_ _ (Sub.le (by decide) hp)
    exact h
  · exact h

theorem execPlkDownCondition_frame {P : Part → Prop} {s0 s : State} (h : Frame P s0 s) (a_cause : Sys2Proof.PlkDown) (hp : Sub 310694009427935992805009666 P) :
    AnswersIn P s0 (execPlkDownCondition a_cause s) := by
  refine ⟨_, rfl, ?_⟩
  refine Frame.ite (fun _ => ?_) (fun _ => ?_)
  · split
    · refine State.setPlk_frame ?_ _ (Sub.le (by decide) hp)
      refine State.plkLeaveUp_frame ?_ _ _ (Sub.le (by decide) hp)
      exact h
    · refine State.setPlk_frame ?_ _ (Sub.le (by decide) hp)
      refine State.plkLeaveUp_frame ?_ _ _ (Sub.le (by decide) hp)
      exact h
    · refine Frame.ite (fun _ => ?_) (fun _ => ?_)
      · refine State.plkLeaveUp_frame ?_ _ _ (Sub.le (by decide) hp)
        exact h
      · exact h
  · exact h

theorem execPartnerSilent_frame {P : Part → Prop} {s0 s : State} (h : Frame P s0 s)  (hp : Sub 310694009427935992805009666 P) :
    AnswersIn P s0 (execPartnerSilent s) := by
  refine ⟨_, rfl, ?_⟩
  refine Frame.ite (fun _ => ?_) (fun _ => ?_)
  · refine State.plkLeaveUp_frame ?_ _ _ (Sub.le (by decide) hp)
    exact h
  · exact h

theorem execStateSend_frame {P : Part → Prop} {s0 s : State} (h : Frame P s0 s)  (hp : Sub 309485009821345068825444352 P) :
    AnswersIn P s0 (execStateSend s) := by
  refine ⟨_, rfl, ?_⟩
  refine Frame.ite (fun _ => ?_) (fun _ => ?_)
  · refine State.setPlk_frame ?_ _ (Sub.le (by decide) hp)
    refine State.plkSend_frame ?_ _ _ _ (Sub.le (by decide) hp)
    exact h
  · exact h

theorem execEchoSend_frame {P : Part → Prop} {s0 s : State} (h : Frame P s0 s)  (hp : Sub 309485009821345068825444352 P) :
    AnswersIn P s0 (execEchoSend s) := by
  refine ⟨_, rfl, ?_⟩
  refine Frame.ite (fun _ => ?_) (fun _ => ?_)
  · refine State.setPlk_frame ?_ _ (Sub.le (by decide) hp)
    refine State.plkSend_frame ?_ _ _ _ (Sub.le (by decide) hp)
    exact h
  · exact h

theorem execLeaseExpiry_frame {P : Part → Prop} {s0 s : State} (h : Frame P s0 s)  (hp : Sub 33554432 P) :
    AnswersIn P s0 (execLeaseExpiry s) := by
  refine ⟨_, rfl, ?_⟩
  refine Frame.ite (fun _ => ?_) (fun _ => ?_)
  · refine State.tryTake_frame ?_  (Sub.le (by decide) hp)
    refine State.setLease_frame ?_ _ (Sub.le (by decide) hp)
    exact h
  · exact h

theorem execStartingTimeout_frame {P : Part → Prop} {s0 s : State} (h : Frame P s0 s)  (hp : Sub 33554432 P) :
    AnswersIn P s0 (execStartingTimeout s) := by
  refine ⟨_, rfl, ?_⟩
  refine Frame.ite (fun _ => ?_) (fun _ => ?_)
  · refine State.tryTake_frame ?_  (Sub.le (by decide) hp)
    refine State.setLease_frame ?_ _ (Sub.le (by decide) hp)
    exact h
  · exact h

theorem execTakeoverComplete_frame {P : Part → Prop} {s0 s : State} (h : Frame P s0 s)  (hp : Sub 388065261883272260020283650 P) :
    AnswersIn P s0 (execTakeoverComplete s) := by
  refine ⟨_, rfl, ?_⟩
  refine Frame.ite (fun _ => ?_) (fun _ => ?_)
  · refine State.acquireLease_frame ?_ _ (Sub.le (by decide) hp)
    exact h
  · exact h

theorem execSelfExpiry_frame {P : Part → Prop} {s0 s : State} (h : Frame P s0 s)  (hp : Sub 78580252061927191227869442 P) :
    AnswersIn P s0 (execSelfExpiry s) := by
  refine ⟨_, rfl, ?_⟩
  refine Frame.ite (fun _ => ?_) (fun _ => ?_)
  · refine State.loseLease_frame ?_ _ (Sub.le (by decide) hp)
    exact h
  · exact h

theorem execPeerOwnChange_frame {P : Part → Prop} {s0 s : State} (h : Frame P s0 s) (a_level : Bool) (hp : Sub 33554432 P) :
    AnswersIn P s0 (execPeerOwnChange a_level s) := by
  refine ⟨_, rfl, ?_⟩
  refine Frame.ite (fun _ => ?_) (fun _ => ?_)
  · exact h
  · extract_lets -merge -useContext -underBinder +onlyGivenNames x0
    have h0 : Frame P s0 x0 := by
      unfold x0
      refine State.setLease_frame ?_ _ (Sub.le (by decide) hp)
      exact h
    refine Frame.ite (fun _ => ?_) (fun _ => ?_)
    · exact h0
    · refine Frame.ite (fun _ => ?_) (fun _ => ?_)
      · refine Frame.ite (fun _ => ?_) (fun _ => ?_)
        · refine State.leaseEnter_frame ?_ _ _ (Sub.le (by decide) hp)
          exact h0
        · exact h0
      · refine State.tryTake_frame ?_  (Sub.le (by decide) hp)
        exact h0

theorem execLeaseConflict_frame {P : Part → Prop} {s0 s : State} (h : Frame P s0 s)  (hp : Sub 78580252061927191227869442 P) :
    AnswersIn P s0 (execLeaseConflict s) := by
  refine ⟨_, rfl, ?_⟩
  refine Frame.ite (fun _ => ?_) (fun _ => ?_)
  · extract_lets -merge -useContext -underBinder +onlyGivenNames x0
    have h0 : Frame P s0 x0 := by
      unfold x0
      refine State.bump_frame ?_ _ (Reg.leaseCntConflict_in (hp .regLease rfl)) (Sub.le (by decide) hp)
      refine State.setLease_frame ?_ _ (Sub.le (by decide) hp)
      exact h
    refine Frame.ite (fun _ => ?_) (fun _ => ?_)
    · extract_lets -merge -useContext -underBinder +onlyGivenNames x1
      refine State.loseLease_frame ?_ _ (Sub.le (by decide) hp)
      refine State.setLease_frame ?_ _ (Sub.le (by decide) hp)
      exact h0
    · exact h0
  · exact h

theorem execOwnOutReadbackFault_frame {P : Part → Prop} {s0 s : State} (h : Frame P s0 s) (a_differs : Bool) (hp : Sub 388065261883272260019759362 P) :
    AnswersIn P s0 (execOwnOutReadbackFault a_differs s) := by
  refine ⟨_, rfl, ?_⟩
  extract_lets -merge -useContext -underBinder +onlyGivenNames x0
  have h0 : Frame P s0 x0 := by
    unfold x0
    refine State.setLease_frame ?_ _ (Sub.le (by decide) hp)
    exact h
  refine Frame.ite (fun _ => ?_) (fun _ => ?_)
  · refine State.leaseFault_frame ?_ _ (Sub.le (by decide) hp)
    exact h0
  · exact h0

theorem execReleaseConfirm_frame {P : Part → Prop} {s0 s : State} (h : Frame P s0 s)  (hp : Sub 388065261883272260020283650 P) :
    AnswersIn P s0 (execReleaseConfirm s) := by
  refine ⟨_, rfl, ?_⟩
  split
  · refine Frame.ite (fun _ => ?_) (fun _ => ?_)
    · refine State.setLease_frame ?_ _ (Sub.le (by decide) hp)
      exact h
    · refine Frame.ite (fun _ => ?_) (fun _ => ?_)
      · refine State.acquireLease_frame ?_ _ (Sub.le (by decide) hp)
        exact h
      · refine Frame.ite (fun _ => ?_) (fun _ => ?_)
        · refine State.setLease_frame ?_ _ (Sub.le (by decide) hp)
          exact h
        · exact h
  · exact h

theorem execCompareFail_frame {P : Part → Prop} {s0 s : State} (h : Frame P s0 s)  (hp : Sub 388065261883272260019759362 P) :
    AnswersIn P s0 (execCompareFail s) := by
  refine ⟨_, rfl, ?_⟩
  refine Frame.ite (fun _ => ?_) (fun _ => ?_)
  · extract_lets -merge -useContext -underBinder +onlyGivenNames x0
    have h0 : Frame P s0 x0 := by
      unfold x0
      refine State.bump_frame ?_ _ (Reg.leaseCntCompareFail_in (hp .regLease rfl)) (Sub.le (by decide) hp)
      refine State.setLease_frame ?_ _ (Sub.le (by decide) hp)
      exact h
    refine State.decideCompare_frame ?_  (Sub.le (by decide) hp)
    refine State.postCompare_frame ?_ _ (Sub.le (by decide) hp)
    exact h0
  · exact h

theorem execCompareClear_frame {P : Part → Prop} {s0 s : State} (h : Frame P s0 s)  (hp : Sub 1208999606590924046674178 P) :
    AnswersIn P s0 (execCompareClear s) := by
  refine ⟨_, rfl, ?_⟩
  refine Frame.ite (fun _ => ?_) (fun _ => ?_)
  · refine State.postCompare_frame ?_ _ (Sub.le (by decide) hp)
    refine State.setLease_frame ?_ _ (Sub.le (by decide) hp)
    exact h
  · exact h

theorem execFaultClr_frame {P : Part → Prop} {s0 s : State} (h : Frame P s0 s) (a_v : Sys2Proof.Word) (hp : Sub 388065261883272260019759362 P) :
    AnswersIn P s0 (execFaultClr a_v s) := by
  refine ⟨_, rfl, ?_⟩
  extract_lets -merge -useContext -underBinder +onlyGivenNames x0
  have h0 : Frame P s0 x0 := by
    unfold x0
    refine State.wr_frame ?_ _ _ (Reg.leaseFault_in (hp .regLease rfl)) (Sub.le (by decide) hp)
    exact h
  extract_lets -merge -useContext -underBinder +onlyGivenNames x1
  have h1 : Frame P s0 x1 := by
    unfold x1
    refine Frame.foldl ?_ (fun y2 a2 h2 => ?_)
    · exact h0
    · refine Frame.ite (fun _ => ?_) (fun _ => ?_)
      · refine State.leaseFault_frame ?_ _ (Sub.le (by decide) hp)
        exact h2
      · exact h2
  refine State.leaseTrack_frame ?_  (Sub.le (by decide) hp)
  refine State.tryTake_frame ?_  (Sub.le (by decide) hp)
  exact h1

theorem execFaultSet_frame {P : Part → Prop} {s0 s : State} (h : Frame P s0 s) (a_v : Sys2Proof.Word) (hp : Sub 388065261883272260019759362 P) :
    AnswersIn P s0 (execFaultSet a_v s) := by
  refine ⟨_, rfl, ?_⟩
  refine Frame.ite (fun _ => ?_) (fun _ => ?_)
  · refine State.leaseFault_frame ?_ _ (Sub.le (by decide) hp)
    exact h
  · exact h

theorem execRevertHoldExpiry_frame {P : Part → Prop} {s0 s : State} (h : Frame P s0 s)  (hp : Sub 309485009821345068825444352 P) :
    AnswersIn P s0 (execRevertHoldExpiry s) := by
  refine ⟨_, rfl, ?_⟩
  refine Frame.ite (fun _ => ?_) (fun _ => ?_)
  · extract_lets -merge -useContext -underBinder +onlyGivenNames x0
    refine State.setLease_frame ?_ _ (Sub.le (by decide) hp)
    refine State.plkSend_frame ?_ _ _ _ (Sub.le (by decide) hp)
    exact h
  · exact h

theorem execHandoverTime_frame {P : Part → Prop} {s0 s : State} (h : Frame P s0 s)  (hp : Sub 388065261883272260020283650 P) :
    AnswersIn P s0 (execHandoverTime s) := by
  refine ⟨_, rfl, ?_⟩
  split
  · refine Frame.ite (fun _ => ?_) (fun _ => ?_)
    · exact h
    · refine Frame.ite (fun _ => ?_) (fun _ => ?_)
      · extract_lets -merge -useContext -underBinder +onlyGivenNames x1
        have h1 : Frame P s0 x1 := by
          unfold x1
          refine State.setLease_frame ?_ _ (Sub.le (by decide) hp)
          refine State.driveOwn_frame ?_ _ (Sub.le (by decide) hp)
          exact h
        refine State.postLost_frame ?_ _ (Sub.le (by decide) hp)
        exact h1
      · refine State.acquireLease_frame ?_ _ (Sub.le (by decide) hp)
        refine State.postHandover_frame ?_ _ _ _ _ (Sub.le (by decide) hp)
        exact h
  · exact h

theorem execHandoverRetakeCheck_frame {P : Part → Prop} {s0 s : State} (h : Frame P s0 s)  (hp : Sub 388065261883272260020283650 P) :
    AnswersIn P s0 (execHandoverRetakeCheck s) := by
  refine ⟨_, rfl, ?_⟩
  split
  · split
    · refine Frame.ite (fun _ => ?_) (fun _ => ?_)
      · exact h
      · refine Frame.ite (fun _ => ?_) (fun _ => ?_)
        · refine State.acquireLease_frame ?_ _ (Sub.le (by decide) hp)
          exact h
        · refine State.postHandover_frame ?_ _ _ _ _ (Sub.le (by decide) hp)
          refine State.leaseEnter_frame ?_ _ _ (Sub.le (by decide) hp)
          exact h
    · exact h
  · exact h

theorem execTimingWrite_frame {P : Part → Prop} {s0 s : State} (h : Frame P s0 s) (a_v : Sys2Proof.Word) (hp : Sub 77371252455336267214749696 P) :
    AnswersIn P s0 (execTimingWrite a_v s) := by
  refine ⟨_, rfl, ?_⟩
  extract_lets -merge -useContext -underBinder +onlyGivenNames x0
  extract_lets -merge -useContext -underBinder +onlyGivenNames x1
  refine Frame.ite (fun _ => ?_) (fun _ => ?_)
  · refine State.setLease_frame ?_ _ (Sub.le (by decide) hp)
    exact h
  · refine State.setLease_frame ?_ _ (Sub.le (by decide) hp)
    refine State.wr_frame ?_ _ _ (Reg.leaseTiming_in (hp .regLease rfl)) (Sub.le (by decide) hp)
    exact h

theorem State.leaseEnable_frame {P : Part → Prop} {s0 s : State} (h : Frame P s0 s) (a_en : Bool) (hp : Sub 388065261883272260020283650 P) :
    Frame P s0 (State.leaseEnable s a_en) := by
  unfold State.leaseEnable
  refine Frame.ite (fun _ => ?_) (fun _ => ?_)
  · refine Frame.ite (fun _ => ?_) (fun _ => ?_)
    · exact h
    · refine Frame.ite (fun _ => ?_) (fun _ => ?_)
      · refine State.leaseEnter_frame ?_ _ _ (Sub.le (by decide) hp)
        exact h
      · refine State.acquireLease_frame ?_ _ (Sub.le (by decide) hp)
        exact h
  · extract_lets -merge -useContext -underBinder +onlyGivenNames x0
    extract_lets -merge -useContext -underBinder +onlyGivenNames x1
    have h1 : Frame P s0 x1 := by
      unfold x1
      refine State.leaseEnter_frame ?_ _ _ (Sub.le (by decide) hp)
      refine State.driveOwn_frame ?_ _ (Sub.le (by decide) hp)
      exact h
    refine Frame.ite (fun _ => ?_) (fun _ => ?_)
    · refine State.postLost_frame ?_ _ (Sub.le (by decide) hp)
      exact h1
    · exact h1

theorem State.setFifo_frame {P : Part → Prop} {s0 s : State} (h : Frame P s0 s) (a_id : ℕ) (a_f : Sys2Proof.Machine.FifoSt → Sys2Proof.Machine.FifoSt) (hp : Sub 16777216 P) :
    Frame P s0 (State.setFifo s a_id a_f) := by
  unfold State.setFifo
  refine Frame.set_fifos ?_ (hp .fifos rfl) _
  exact h

theorem State.sramSet_frame {P : Part → Prop} {s0 s : State} (h : Frame P s0 s) (a_k : ℕ) (a_w : Sys2Proof.Word) (hp : Sub 262144 P) :
    Frame P s0 (State.sramSet s a_k a_w) := by
  unfold State.sramSet
  refine Frame.set_sram ?_ (hp .sram rfl) _
  exact h

theorem fifoCounter_in {P : Part → Prop} {id : Nat} {x : FifoCnt} {k : Nat} (e : fifoCounter id x = some k) (h1 : P .regCh) (h2 : P .regCan) :
    RegIn P k := by
  unfold fifoCounter at e
  split at e
  · injection e with e
    subst e
    cases fifoIsTx id <;> cases x
    · exact Reg.chCntRxRewind_in _ h1
    · exact Reg.chCntRxBad_in _ h1
    · exact Reg.chCntRxOverrun_in _ h1
    · exact Reg.chCntRxUnderrun_in _ h1
    · exact Reg.chCntRxDropped_in _ h1
    · exact Reg.chCntTxRewind_in _ h1
    · exact Reg.chCntTxBad_in _ h1
    · exact Reg.chCntTxOverrun_in _ h1
    · exact Reg.chCntTxUnderrun_in _ h1
    · exact Reg.chCntTxDropped_in _ h1
  · split at e
    · injection e with e
      subst e
      exact Reg.canCntTxRewind_in _ h2
    · cases e

theorem State.fifoBump_frame {P : Part → Prop} {s0 s : State} (h : Frame P s0 s) (id : Nat) (x : FifoCnt) (n : Nat) (hp : Sub 56668397794435742564352 P) :
    Frame P s0 (s.fifoBump id x n) := by
  unfold State.fifoBump
  split
  · next k e => exact State.bumpBy_frame h _ _ (fifoCounter_in e (hp .regCh rfl) (hp .regCan rfl)) (Sub.le (by decide) hp)
  · exact h

theorem State.fifoPost_frame {P : Part → Prop} {s0 s : State} (h : Frame P s0 s) (a_id : ℕ) (a_ty : ℕ) (a_irq : ℕ) (a_flags : ℕ) (a_w5 : Sys2Proof.Word) (hp : Sub 1208999606590924013119746 P) :
    Frame P s0 (State.fifoPost s a_id a_ty a_irq a_flags a_w5) := by
  unfold State.fifoPost
  refine Frame.ite (fun _ => ?_) (fun _ => ?_)
  · refine State.post_frame ?_ _ _ _ _ _ _ _ _ (Sub.le (by decide) hp)
    refine State.raise_frame ?_ _ _ (Sub.le (by decide) hp)
    exact h
  · exact h

theorem State.packetBad_frame {P : Part → Prop} {s0 s : State} (h : Frame P s0 s) (a_id : ℕ) (a_status : ℕ) (a_bytes : ℕ) (a_rewound : Bool) (hp : Sub 1208999606590924013119810 P) :
    Frame P s0 (State.packetBad s a_id a_status a_bytes a_rewound) := by
  unfold State.packetBad
  refine Frame.ite (fun _ => ?_) (fun _ => ?_)
  · refine State.gather_frame ?_ _ _ (Sub.le (by decide) hp)
    refine State.raise_frame ?_ _ _ (Sub.le (by decide) hp)
    exact h
  · exact h

theorem State.fifoRewind_frame {P : Part → Prop} {s0 s : State} (h : Frame P s0 s) (a_id : ℕ) (a_status : ℕ) (hp : Sub 1265668004385359772461378 P) :
    Frame P s0 (State.fifoRewind s a_id a_status) := by
  unfold State.fifoRewind
  extract_lets -merge -useContext -underBinder +onlyGivenNames x0
  refine State.packetBad_frame ?_ _ _ _ _ (Sub.le (by decide) hp)
  refine State.fifoBump_frame ?_ _ _ _ (Sub.le (by decide) hp)
  refine State.setFifo_frame ?_ _ _ (Sub.le (by decide) hp)
  exact h

theorem State.rxTrailer_frame {P : Part → Prop} {s0 s : State} (h : Frame P s0 s) (a_id : ℕ) (a_bad : Bool) (a_status : ℕ) (hp : Sub 17039360 P) :
    Frame P s0 (State.rxTrailer s a_id a_bad a_status) := by
  unfold State.rxTrailer
  split
  · extract_lets -merge -useContext -underBinder +onlyGivenNames x1
    refine State.setFifo_frame ?_ _ _ (Sub.le (by decide) hp)
    refine State.sramSet_frame ?_ _ _ (Sub.le (by decide) hp)
    exact h
  · exact h

theorem State.rxEndBad_frame {P : Part → Prop} {s0 s : State} (h : Frame P s0 s) (a_id : ℕ) (a_status : ℕ) (hp : Sub 1265668004385359772723522 P) :
    Frame P s0 (State.rxEndBad s a_id a_status) := by
  unfold State.rxEndBad
  extract_lets -merge -useContext -underBinder +onlyGivenNames x0
  refine State.packetBad_frame ?_ _ _ _ _ (Sub.le (by decide) hp)
  refine State.fifoBump_frame ?_ _ _ _ (Sub.le (by decide) hp)
  refine State.rxTrailer_frame ?_ _ _ _ (Sub.le (by decide) hp)
  exact h

theorem State.rxFailPacket_frame {P : Part → Prop} {s0 s : State} (h : Frame P s0 s) (a_id : ℕ) (a_status : ℕ) (hp : Sub 1265668004385359772723522 P) :
    Frame P s0 (State.rxFailPacket s a_id a_status) := by
  unfold State.rxFailPacket
  split
  · refine Frame.ite (fun _ => ?_) (fun _ => ?_)
    · refine State.rxEndBad_frame ?_ _ _ (Sub.le (by decide) hp)
      exact h
    · refine State.fifoRewind_frame ?_ _ _ (Sub.le (by decide) hp)
      exact h
  · exact h

theorem State.rxOverrun_frame {P : Part → Prop} {s0 s : State} (h : Frame P s0 s) (a_id : ℕ) (hp : Sub 1265668004385359772723522 P) :
    Frame P s0 (State.rxOverrun s a_id) := by
  unfold State.rxOverrun
  extract_lets -merge -useContext -underBinder +onlyGivenNames x0
  extract_lets -merge -useContext -underBinder +onlyGivenNames x1
  have h1 : Frame P s0 x1 := by
    unfold x1
    refine State.fifoBump_frame ?_ _ _ _ (Sub.le (by decide) hp)
    refine State.setFifo_frame ?_ _ _ (Sub.le (by decide) hp)
    exact h
  extract_lets -merge -useContext -underBinder +onlyGivenNames x2
  have h2 : Frame P s0 x2 := by
    unfold x2
    refine State.fifoPost_frame ?_ _ _ _ _ _ (Sub.le (by decide) hp)
    exact h1
  refine Frame.ite (fun _ => ?_) (fun _ => ?_)
  · refine State.rxFailPacket_frame ?_ _ _ (Sub.le (by decide) hp)
    exact h2
  · refine State.packetBad_frame ?_ _ _ _ _ (Sub.le (by decide) hp)
    refine State.fifoBump_frame ?_ _ _ _ (Sub.le (by decide) hp)
    exact h2

theorem State.rxBegin_frame {P : Part → Prop} {s0 s : State} (h : Frame P s0 s) (a_id : ℕ) (hp : Sub 1265668004385359772723522 P) :
    Frame P s0 (State.rxBegin s a_id) := by
  unfold State.rxBegin
  refine Frame.ite (fun _ => ?_) (fun _ => ?_)
  · refine State.rxOverrun_frame ?_ _ (Sub.le (by decide) hp)
    exact h
  · extract_lets -merge -useContext -underBinder +onlyGivenNames x0
    have h0 : Frame P s0 x0 := by
      unfold x0
      refine State.setFifo_frame ?_ _ _ (Sub.le (by decide) hp)
      exact h
    refine State.sramSet_frame ?_ _ _ (Sub.le (by decide) hp)
    exact h0

theorem State.rxWord_frame {P : Part → Prop} {s0 s : State} (h : Frame P s0 s) (a_id : ℕ) (a_w : Sys2Proof.Word) (a_n : ℕ) (hp : Sub 1265668004385359772723522 P) :
    Frame P s0 (State.rxWord s a_id a_w a_n) := by
  unfold State.rxWord
  split
  · exact h
  · refine Frame.ite (fun _ => ?_) (fun _ => ?_)
    · exact h
    · refine Frame.ite (fun _ => ?_) (fun _ => ?_)
      · refine State.rxOverrun_frame ?_ _ (Sub.le (by decide) hp)
        exact h
      · extract_lets -merge -useContext -underBinder +onlyGivenNames x2
        have h2 : Frame P s0 x2 := by
          unfold x2
          refine State.sramSet_frame ?_ _ _ (Sub.le (by decide) hp)
          exact h
        extract_lets -merge -useContext -underBinder +onlyGivenNames x3
        have h3 : Frame P s0 x3 := by
          unfold x3
          refine State.setFifo_frame ?_ _ _ (Sub.le (by decide) hp)
          exact h2
        extract_lets -merge -useContext -underBinder +onlyGivenNames x4
        refine Frame.ite (fun _ => ?_) (fun _ => ?_)
        · refine State.raise_frame ?_ _ _ (Sub.le (by decide) hp)
          exact h3
        · exact h3

theorem State.rxCommit_frame {P : Part → Prop} {s0 s : State} (h : Frame P s0 s) (a_id : ℕ) (hp : Sub 73786976294855450626 P) :
    Frame P s0 (State.rxCommit s a_id) := by
  unfold State.rxCommit
  refine Frame.ite (fun _ => ?_) (fun _ => ?_)
  · refine State.setFifo_frame ?_ _ _ (Sub.le (by decide) hp)
    exact h
  · split
    · exact h
    · extract_lets -merge -useContext -underBinder +onlyGivenNames x2
      have h2 : Frame P s0 x2 := by
        unfold x2
        refine Frame.ite (fun _ => ?_) (fun _ => ?_)
        · exact h
        · refine State.sramSet_frame ?_ _ _ (Sub.le (by decide) hp)
          exact h
      extract_lets -merge -useContext -underBinder +onlyGivenNames x3
      have h3 : Frame P s0 x3 := by
        unfold x3
        refine State.rxTrailer_frame ?_ _ _ _ (Sub.le (by decide) hp)
        exact h2
      refine Frame.ite (fun _ => ?_) (fun _ => ?_)
      · refine State.raise_frame ?_ _ _ (Sub.le (by decide) hp)
        exact h3
      · exact h3

theorem State.rxFail_frame {P : Part → Prop} {s0 s : State} (h : Frame P s0 s) (a_id : ℕ) (a_status : ℕ) (hp : Sub 1265668004385359772723522 P) :
    Frame P s0 (State.rxFail s a_id a_status) := by
  unfold State.rxFail
  refine Frame.ite (fun _ => ?_) (fun _ => ?_)
  · refine State.setFifo_frame ?_ _ _ (Sub.le (by decide) hp)
    exact h
  · refine State.rxFailPacket_frame ?_ _ _ (Sub.le (by decide) hp)
    exact h

theorem State.rxBytes_frame {P : Part → Prop} {s0 s : State} (h : Frame P s0 s) (a_id : ℕ) (a_b : List Sys2Proof.Byte) (hp : Sub 1265668004385359772723522 P) :
    Frame P s0 (State.rxBytes s a_id a_b) := by
  unfold State.rxBytes
  refine Frame.foldl ?_ (fun y0 a0 h0 => ?_)
  · exact h
  · refine State.rxWord_frame ?_ _ _ _ (Sub.le (by decide) hp)
    exact h0

theorem State.rxPacket_frame {P : Part → Prop} {s0 s : State} (h : Frame P s0 s) (a_id : ℕ) (a_b : List Sys2Proof.Byte) (a_status : ℕ) (hp : Sub 1265668004385359772723522 P) :
    Frame P s0 (State.rxPacket s a_id a_b a_status) := by
  unfold State.rxPacket
  extract_lets -merge -useContext -underBinder +onlyGivenNames x0
  have h0 : Frame P s0 x0 := by
    unfold x0
    refine State.rxBytes_frame ?_ _ _ (Sub.le (by decide) hp)
    refine State.rxBegin_frame ?_ _ (Sub.le (by decide) hp)
    exact h
  refine Frame.ite (fun _ => ?_) (fun _ => ?_)
  · refine State.rxCommit_frame ?_ _ (Sub.le (by decide) hp)
    exact h0
  · refine State.rxFail_frame ?_ _ _ (Sub.le (by decide) hp)
    exact h0

theorem State.rxDataRead_frame {P : Part → Prop} {s0 s : State} (h : Frame P s0 s) (a_id : ℕ) (hp : Sub 1265668004385359772461314 P) :
    Frame P s0 (State.rxDataRead s a_id).2 := by
  unfold State.rxDataRead
  extract_lets -merge -useContext -underBinder +onlyGivenNames x0
  refine Frame.ite2 (fun _ => ?_) (fun _ => ?_)
  · extract_lets -merge -useContext -underBinder +onlyGivenNames x1
    have h1 : Frame P s0 x1 := by
      unfold x1
      refine State.fifoBump_frame ?_ _ _ _ (Sub.le (by decide) hp)
      refine State.setFifo_frame ?_ _ _ (Sub.le (by decide) hp)
      exact h
    refine Frame.pair2 ?_
    refine Frame.ite (fun _ => ?_) (fun _ => ?_)
    · exact h1
    · refine State.fifoPost_frame ?_ _ _ _ _ _ (Sub.le (by decide) hp)
      exact h1
  · extract_lets -merge -useContext -underBinder +onlyGivenNames x2
    extract_lets -merge -useContext -underBinder +onlyGivenNames x3
    refine Frame.pair2 ?_
    refine State.setFifo_frame ?_ _ _ (Sub.le (by decide) hp)
    exact h

theorem State.txEmptyIrq_frame {P : Part → Prop} {s0 s : State} (h : Frame P s0 s) (a_id : ℕ) (hp : Sub 73786976294838411266 P) :
    Frame P s0 (State.txEmptyIrq s a_id) := by
  unfold State.txEmptyIrq
  refine State.raise_frame ?_ _ _ (Sub.le (by decide) hp)
  exact h

theorem State.dropOldest_frame {P : Part → Prop} {s0 s : State} (h : Frame P s0 s) (a_id : ℕ) (hp : Sub 56742184770730597752834 P) :
    Frame P s0 (State.dropOldest s a_id) := by
  unfold State.dropOldest
  split
  · exact h
  · extract_lets -merge -useContext -underBinder +onlyGivenNames x2
    extract_lets -merge -useContext -underBinder +onlyGivenNames x3
    have h3 : Frame P s0 x3 := by
      unfold x3
      refine State.fifoBump_frame ?_ _ _ _ (Sub.le (by decide) hp)
      refine State.setFifo_frame ?_ _ _ (Sub.le (by decide) hp)
      exact h
    refine Frame.ite (fun _ => ?_) (fun _ => ?_)
    · refine State.txEmptyIrq_frame ?_ _ (Sub.le (by decide) hp)
      exact h3
    · exact h3

theorem State.fifoDropRest_frame {P : Part → Prop} {s0 s : State} (h : Frame P s0 s) (a_id : ℕ) (hp : Sub 56742184770730597752834 P) :
    Frame P s0 (State.fifoDropRest s a_id) := by
  unfold State.fifoDropRest
  refine State.dropOldest_frame ?_ _ (Sub.le (by decide) hp)
  exact h

theorem State.fifoFlush_frame {P : Part → Prop} {s0 s : State} (h : Frame P s0 s) (a_id : ℕ) (hp : Sub 56742184770730597752834 P) :
    Frame P s0 (State.fifoFlush s a_id) := by
  unfold State.fifoFlush
  extract_lets -merge -useContext -underBinder +onlyGivenNames x0
  have h0 : Frame P s0 x0 := by
    unfold x0
    refine Frame.foldl ?_ (fun y1 a1 h1 => ?_)
    · exact h
    · refine State.dropOldest_frame ?_ _ (Sub.le (by decide) hp)
      exact h1
  refine State.setFifo_frame ?_ _ _ (Sub.le (by decide) hp)
  exact h0

theorem State.fifoClear_frame {P : Part → Prop} {s0 s : State} (h : Frame P s0 s) (a_id : ℕ) (hp : Sub 16777216 P) :
    Frame P s0 (State.fifoClear s a_id) := by
  unfold State.fifoClear
  refine State.setFifo_frame ?_ _ _ (Sub.le (by decide) hp)
  exact h

theorem State.txOverrun_frame {P : Part → Prop} {s0 s : State} (h : Frame P s0 s) (a_id : ℕ) (a_left : ℕ) (hp : Sub 1265668004385359772461378 P) :
    Frame P s0 (State.txOverrun s a_id a_left) := by
  unfold State.txOverrun
  extract_lets -merge -useContext -underBinder +onlyGivenNames x0
  extract_lets -merge -useContext -underBinder +onlyGivenNames x1
  extract_lets -merge -useContext -underBinder +onlyGivenNames x2
  extract_lets -merge -useContext -underBinder +onlyGivenNames x3
  have h3 : Frame P s0 x3 := by
    unfold x3
    refine State.fifoBump_frame ?_ _ _ _ (Sub.le (by decide) hp)
    refine State.setFifo_frame ?_ _ _ (Sub.le (by decide) hp)
    exact h
  extract_lets -merge -useContext -underBinder +onlyGivenNames x4
  have h4 : Frame P s0 x4 := by
    unfold x4
    refine State.fifoPost_frame ?_ _ _ _ _ _ (Sub.le (by decide) hp)
    exact h3
  clear_value x4 x3 x2 x1 x0
  split
  · refine State.packetBad_frame ?_ _ _ _ _ (Sub.le (by decide) hp)
    refine State.fifoBump_frame ?_ _ _ _ (Sub.le (by decide) hp)
    exact h4
  · refine Frame.ite (fun _ => ?_) (fun _ => ?_)
    · refine State.packetBad_frame ?_ _ _ _ _ (Sub.le (by decide) hp)
      refine State.fifoBump_frame ?_ _ _ _ (Sub.le (by decide) hp)
      refine State.setFifo_frame ?_ _ _ (Sub.le (by decide) hp)
      exact h4
    · refine State.fifoRewind_frame ?_ _ _ (Sub.le (by decide) hp)
      exact h4

theorem State.txDataWrite_frame {P : Part → Prop} {s0 s : State} (h : Frame P s0 s) (a_id : ℕ) (a_w : Sys2Proof.Word) (hp : Sub 1265668004385359772723522 P) :
    Frame P s0 (State.txDataWrite s a_id a_w).2 := by
  unfold State.txDataWrite
  extract_lets -merge -useContext -underBinder +onlyGivenNames x0
  refine Frame.ite2 (fun _ => ?_) (fun _ => ?_)
  · refine Frame.pair2 ?_
    refine State.setFifo_frame ?_ _ _ (Sub.le (by decide) hp)
    exact h
  · split
    · extract_lets -merge -useContext -underBinder +onlyGivenNames x2
      refine Frame.ite2 (fun _ => ?_) (fun _ => ?_)
      · refine Frame.pair2 ?_
        refine State.fifoBump_frame ?_ _ _ _ (Sub.le (by decide) hp)
        exact h
      · refine Frame.ite2 (fun _ => ?_) (fun _ => ?_)
        · refine Frame.pair2 ?_
          refine State.txOverrun_frame ?_ _ _ (Sub.le (by decide) hp)
          exact h
        · extract_lets -merge -useContext -underBinder +onlyGivenNames x3
          have h3 : Frame P s0 x3 := by
            unfold x3
            refine State.setFifo_frame ?_ _ _ (Sub.le (by decide) hp)
            exact h
          refine Frame.pair2 ?_
          refine State.sramSet_frame ?_ _ _ (Sub.le (by decide) hp)
          exact h3
    · extract_lets -merge -useContext -underBinder +onlyGivenNames x5
      refine Frame.ite2 (fun _ => ?_) (fun _ => ?_)
      · refine Frame.pair2 ?_
        refine State.txOverrun_frame ?_ _ _ (Sub.le (by decide) hp)
        exact h
      · extract_lets -merge -useContext -underBinder +onlyGivenNames x6
        have h6 : Frame P s0 x6 := by
          unfold x6
          refine State.sramSet_frame ?_ _ _ (Sub.le (by decide) hp)
          exact h
        extract_lets -merge -useContext -underBinder +onlyGivenNames x7
        extract_lets -merge -useContext -underBinder +onlyGivenNames x8
        have h8 : Frame P s0 x8 := by
          unfold x8
          refine State.setFifo_frame ?_ _ _ (Sub.le (by decide) hp)
          exact h6
        refine Frame.pair2 ?_
        exact h8

theorem State.txBegin_frame {P : Part → Prop} {s0 s : State} (h : Frame P s0 s) (a_id : ℕ) (hp : Sub 16777216 P) :
    Frame P s0 (State.txBegin s a_id).2 := by
  unfold State.txBegin
  split
  · refine Frame.ite2 (fun _ => ?_) (fun _ => ?_)
    · extract_lets -merge -useContext -underBinder +onlyGivenNames x1
      refine Frame.pair2 ?_
      refine State.setFifo_frame ?_ _ _ (Sub.le (by decide) hp)
      exact h
    · refine Frame.pair2 ?_
      exact h
  · refine Frame.pair2 ?_
    exact h

theorem State.txFinish_frame {P : Part → Prop} {s0 s : State} (h : Frame P s0 s) (a_id : ℕ) (hp : Sub 73786976294855188482 P) :
    Frame P s0 (State.txFinish s a_id) := by
  unfold State.txFinish
  split
  · exact h
  · extract_lets -merge -useContext -underBinder +onlyGivenNames x2
    extract_lets -merge -useContext -underBinder +onlyGivenNames x3
    have h3 : Frame P s0 x3 := by
      unfold x3
      refine State.setFifo_frame ?_ _ _ (Sub.le (by decide) hp)
      exact h
    refine Frame.ite (fun _ => ?_) (fun _ => ?_)
    · refine State.txEmptyIrq_frame ?_ _ (Sub.le (by decide) hp)
      exact h3
    · exact h3

theorem State.txUnderrun_frame {P : Part → Prop} {s0 s : State} (h : Frame P s0 s) (a_id : ℕ) (hp : Sub 1265668004385359772461378 P) :
    Frame P s0 (State.txUnderrun s a_id) := by
  unfold State.txUnderrun
  extract_lets -merge -useContext -underBinder +onlyGivenNames x0
  extract_lets -merge -useContext -underBinder +onlyGivenNames x1
  extract_lets -merge -useContext -underBinder +onlyGivenNames x2
  have h2 : Frame P s0 x2 := by
    unfold x2
    refine State.fifoBump_frame ?_ _ _ _ (Sub.le (by decide) hp)
    refine State.fifoBump_frame ?_ _ _ _ (Sub.le (by decide) hp)
    refine State.setFifo_frame ?_ _ _ (Sub.le (by decide) hp)
    exact h
  extract_lets -merge -useContext -underBinder +onlyGivenNames x3
  have h3 : Frame P s0 x3 := by
    unfold x3
    refine Frame.ite (fun _ => ?_) (fun _ => ?_)
    · exact h2
    · refine State.fifoPost_frame ?_ _ _ _ _ _ (Sub.le (by decide) hp)
      exact h2
  refine State.txFinish_frame ?_ _ (Sub.le (by decide) hp)
  refine State.packetBad_frame ?_ _ _ _ _ (Sub.le (by decide) hp)
  exact h3

theorem State.txNext_frame {P : Part → Prop} {s0 s : State} (h : Frame P s0 s) (a_id : ℕ) (hp : Sub 16777216 P) :
    Frame P s0 (State.txNext s a_id).2 := by
  unfold State.txNext
  split
  · refine Frame.ite2 (fun _ => ?_) (fun _ => ?_)
    · extract_lets -merge -useContext -underBinder +onlyGivenNames x1
      refine Frame.pair2 ?_
      refine State.setFifo_frame ?_ _ _ (Sub.le (by decide) hp)
      exact h
    · refine Frame.pair2 ?_
      exact h
  · refine Frame.pair2 ?_
    exact h

theorem State.setCounter_frame {P : Part → Prop} {s0 s : State} (h : Frame P s0 s) (a_total : ℤ) (hp : Sub 512 P) :
    Frame P s0 (State.setCounter s a_total) := by
  unfold State.setCounter
  extract_lets -merge -useContext -underBinder +onlyGivenNames x0
  refine Frame.set_time ?_ (hp .time rfl) _
  exact h

theorem State.stepCounter_frame {P : Part → Prop} {s0 s : State} (h : Frame P s0 s) (a_c : ℤ) (hp : Sub 512 P) :
    Frame P s0 (State.stepCounter s a_c) := by
  unfold State.stepCounter
  refine State.setCounter_frame ?_ _ (Sub.le (by decide) hp)
  exact h

theorem State.setQuality_frame {P : Part → Prop} {s0 s : State} (h : Frame P s0 s) (a_code : BitVec 4) (hp : Sub 1208999606590924013120258 P) :
    Frame P s0 (State.setQuality s a_code) := by
  unfold State.setQuality
  extract_lets -merge -useContext -underBinder +onlyGivenNames x0
  refine Frame.ite (fun _ => ?_) (fun _ => ?_)
  · exact h
  · extract_lets -merge -useContext -underBinder +onlyGivenNames x1
    extract_lets -merge -useContext -underBinder +onlyGivenNames x2
    extract_lets -merge -useContext -underBinder +onlyGivenNames x3
    have h3 : Frame P s0 x3 := by
      unfold x3
      refine Frame.set_time ?_ (hp .time rfl) _
      exact h
    refine State.post_frame ?_ _ _ _ _ _ _ _ _ (Sub.le (by decide) hp)
    refine State.raise_frame ?_ _ _ (Sub.le (by decide) hp)
    exact h3

theorem State.loseSync_frame {P : Part → Prop} {s0 s : State} (h : Frame P s0 s)  (hp : Sub 1208999606590924013120258 P) :
    Frame P s0 (State.loseSync s) := by
  unfold State.loseSync
  refine State.setQuality_frame ?_ _ (Sub.le (by decide) hp)
  refine Frame.set_time ?_ (hp .time rfl) _
  exact h

theorem State.checkHoldLimit_frame {P : Part → Prop} {s0 s : State} (h : Frame P s0 s)  (hp : Sub 1208999606590924013120258 P) :
    Frame P s0 (State.checkHoldLimit s) := by
  unfold State.checkHoldLimit
  refine Frame.ite (fun _ => ?_) (fun _ => ?_)
  · refine State.setQuality_frame ?_ _ (Sub.le (by decide) hp)
    exact h
  · exact h

theorem State.tickTimers_frame {P : Part → Prop} {s0 s : State} (h : Frame P s0 s)  (hp : Sub 131072 P) :
    Frame P s0 (State.tickTimers s) := by
  unfold State.tickTimers
  refine Frame.set_icu ?_ (hp .icu rfl) _
  exact h

theorem execUncGrowthTick_frame {P : Part → Prop} {s0 s : State} (h : Frame P s0 s)  (hp : Sub 1208999606590924013120258 P) :
    AnswersIn P s0 (execUncGrowthTick s) := by
  refine ⟨_, rfl, ?_⟩
  refine Frame.ite (fun _ => ?_) (fun _ => ?_)
  · refine State.checkHoldLimit_frame ?_  (Sub.le (by decide) hp)
    refine Frame.set_time ?_ (hp .time rfl) _
    exact h
  · exact h

theorem State.timeAccept_frame {P : Part → Prop} {s0 s : State} (h : Frame P s0 s) (a_a : Sys2Proof.Agent) (a_op : ℕ) (a_arg : ℕ) (hp : Sub 147573952589676413440 P) :
    Frame P s0 (State.timeAccept s a_a a_op a_arg) := by
  unfold State.timeAccept
  refine State.mbxAccept_frame ?_ _ _ (fun y0 h0 => ?_) (Sub.le (by decide) hp)
  · exact h
  · refine Frame.set_time ?_ (hp .time rfl) _
    exact h0

theorem execReadTime_frame {P : Part → Prop} {s0 s : State} (h : Frame P s0 s) (a_a : Sys2Proof.Agent) (hp : Sub 147573952589676413440 P) :
    AnswersIn P s0 (execReadTime a_a s) := by
  refine ⟨_, rfl, ?_⟩
  refine State.timeAccept_frame ?_ _ _ _ (Sub.le (by decide) hp)
  exact h

theorem execAdjPhase_frame {P : Part → Prop} {s0 s : State} (h : Frame P s0 s) (a_a : Sys2Proof.Agent) (hp : Sub 147573952589676413440 P) :
    AnswersIn P s0 (execAdjPhase a_a s) := by
  refine ⟨_, rfl, ?_⟩
  refine State.timeAccept_frame ?_ _ _ _ (Sub.le (by decide) hp)
  exact h

theorem execAdjRate_frame {P : Part → Prop} {s0 s : State} (h : Frame P s0 s) (a_a : Sys2Proof.Agent) (hp : Sub 147573952589676413440 P) :
    AnswersIn P s0 (execAdjRate a_a s) := by
  refine ⟨_, rfl, ?_⟩
  refine State.timeAccept_frame ?_ _ _ _ (Sub.le (by decide) hp)
  exact h

theorem execStepForce_frame {P : Part → Prop} {s0 s : State} (h : Frame P s0 s)  (hp : Sub 147573952589676413440 P) :
    AnswersIn P s0 (execStepForce s) := by
  refine ⟨_, rfl, ?_⟩
  refine State.timeAccept_frame ?_ _ _ _ (Sub.le (by decide) hp)
  exact h

theorem execSetTime_frame {P : Part → Prop} {s0 s : State} (h : Frame P s0 s)  (hp : Sub 147573952589676413440 P) :
    AnswersIn P s0 (execSetTime s) := by
  refine ⟨_, rfl, ?_⟩
  refine State.timeAccept_frame ?_ _ _ _ (Sub.le (by decide) hp)
  exact h

theorem execSetState_frame {P : Part → Prop} {s0 s : State} (h : Frame P s0 s) (a_a : Sys2Proof.Agent) (a_arg : BitVec 16) (hp : Sub 147573952589676413440 P) :
    AnswersIn P s0 (execSetState a_a a_arg s) := by
  refine ⟨_, rfl, ?_⟩
  refine State.timeAccept_frame ?_ _ _ _ (Sub.le (by decide) hp)
  exact h

theorem State.readTime_frame {P : Part → Prop} {s0 s : State} (h : Frame P s0 s)  (hp : Sub 0 P) :
    Frame P s0 (State.readTime s).2 := by
  unfold State.readTime
  refine Frame.pair2 ?_
  exact h

theorem State.stateSet_frame {P : Part → Prop} {s0 s : State} (h : Frame P s0 s) (a_code : BitVec 4) (a_u : ℕ) (hp : Sub 1208999606590924013120258 P) :
    Frame P s0 (State.stateSet s a_code a_u) := by
  unfold State.stateSet
  extract_lets -merge -useContext -underBinder +onlyGivenNames x0
  extract_lets -merge -useContext -underBinder +onlyGivenNames x1
  have h1 : Frame P s0 x1 := by
    unfold x1
    refine Frame.ite (fun _ => ?_) (fun _ => ?_)
    · refine Frame.set_time ?_ (hp .time rfl) _
      exact h
    · exact h
  refine State.checkHoldLimit_frame ?_  (Sub.le (by decide) hp)
  refine State.setQuality_frame ?_ _ (Sub.le (by decide) hp)
  exact h1

theorem State.setState_frame {P : Part → Prop} {s0 s : State} (h : Frame P s0 s) (a_steward : Bool) (a_arg : ℕ) (hp : Sub 1208999606590924013120258 P) :
    Frame P s0 (State.setState s a_steward a_arg).2 := by
  unfold State.setState
  extract_lets -merge -useContext -underBinder +onlyGivenNames x0
  refine Frame.ite2 (fun _ => ?_) (fun _ => ?_)
  · refine Frame.pair2 ?_
    exact h
  · refine Frame.ite2 (fun _ => ?_) (fun _ => ?_)
    · refine Frame.pair2 ?_
      exact h
    · refine Frame.pair2 ?_
      refine State.stateSet_frame ?_ _ _ (Sub.le (by decide) hp)
      exact h

theorem State.rateSet_frame {P : Part → Prop} {s0 s : State} (h : Frame P s0 s) (a_steward : Bool) (hp : Sub 1267650600228229401496703205376 P) :
    Frame P s0 (State.rateSet s a_steward).2 := by
  unfold State.rateSet
  refine Frame.ite2 (fun _ => ?_) (fun _ => ?_)
  · refine Frame.pair2 ?_
    refine State.wr_frame ?_ _ _ (Reg.timeRate_in (hp .regTime rfl)) (Sub.le (by decide) hp)
    exact h
  · refine Frame.pair2 ?_
    exact h

theorem State.xt32Advance_frame {P : Part → Prop} {s0 s : State} (h : Frame P s0 s)  (hp : Sub 18446744073709552128 P) :
    Frame P s0 (State.xt32Advance s) := by
  unfold State.xt32Advance
  extract_lets -merge -useContext -underBinder +onlyGivenNames x0
  extract_lets -merge -useContext -underBinder +onlyGivenNames x1
  have h1 : Frame P s0 x1 := by
    unfold x1
    refine State.setCounter_frame ?_ _ (Sub.le (by decide) hp)
    exact h
  refine Frame.set_time_tclks ?_ (hp .time rfl) (hp .tclks rfl) _ _
  exact h1

theorem State.memUncorr_frame {P : Part → Prop} {s0 s : State} (h : Frame P s0 s) (a_page : ℕ) (a_mem : ℕ) (a_addr : Sys2Proof.Word) (a_syn : Sys2Proof.Word) (hp : Sub 388065261883272260019759490 P) :
    Frame P s0 (State.memUncorr s a_page a_mem a_addr a_syn) := by
  unfold State.memUncorr
  refine State.leaseFault_frame ?_ _ (Sub.le (by decide) hp)
  refine State.eccError_frame ?_ _ _ _ _ _ (Sub.le (by decide) hp)
  exact h

theorem State.memEcc_frame {P : Part → Prop} {s0 s : State} (h : Frame P s0 s) (a_page : ℕ) (a_mem : ℕ) (a_x : Sys2Proof.ReadEcc) (hp : Sub 388065261883272260019759490 P) :
    Frame P s0 (State.memEcc s a_page a_mem a_x) := by
  unfold State.memEcc
  split
  · exact h
  · refine State.eccError_frame ?_ _ _ _ _ _ (Sub.le (by decide) hp)
    exact h
  · refine State.memUncorr_frame ?_ _ _ _ _ (Sub.le (by decide) hp)
    exact h

theorem State.setRule_frame {P : Part → Prop} {s0 s : State} (h : Frame P s0 s) (a_r : ℕ) (a_x : Sys2Proof.Machine.Rule) (hp : Sub 4294967296 P) :
    Frame P s0 (State.setRule s a_r a_x) := by
  unfold State.setRule
  refine Frame.set_rules ?_ (hp .rules rfl) _
  exact h

theorem State.notePeak_frame {P : Part → Prop} {s0 s : State} (h : Frame P s0 s)  (hp : Sub 2475880078570760549798248448 P) :
    Frame P s0 (State.notePeak s) := by
  unfold State.notePeak
  extract_lets -merge -useContext -underBinder +onlyGivenNames x0
  refine Frame.ite (fun _ => ?_) (fun _ => ?_)
  · refine State.wr_frame ?_ _ _ (Reg.rfxQueuePeak_in (hp .regRfx rfl)) (Sub.le (by decide) hp)
    exact h
  · exact h

theorem State.queueRule_frame {P : Part → Prop} {s0 s : State} (h : Frame P s0 s) (a_n : ℕ) (hp : Sub 2475880078570760575568052224 P) :
    Frame P s0 (State.queueRule s a_n) := by
  unfold State.queueRule
  refine Frame.ite (fun _ => ?_) (fun _ => ?_)
  · exact h
  · refine State.notePeak_frame ?_  (Sub.le (by decide) hp)
    refine Frame.ite (fun _ => ?_) (fun _ => ?_)
    · refine Frame.set_express ?_ (hp .express rfl) _
      exact h
    · refine Frame.set_normal ?_ (hp .normal rfl) _
      exact h

theorem State.dequeueRule_frame {P : Part → Prop} {s0 s : State} (h : Frame P s0 s) (a_n : ℕ) (hp : Sub 25769803776 P) :
    Frame P s0 (State.dequeueRule s a_n) := by
  unfold State.dequeueRule
  refine Frame.set_express_normal ?_ (hp .express rfl) (hp .normal rfl) _ _
  exact h

theorem State.operandChanged_frame {P : Part → Prop} {s0 s : State} (h : Frame P s0 s) (a_k : ℕ) (a_t : Sys2Proof.TimePoint) (hp : Sub 2475880078570760579863019520 P) :
    Frame P s0 (State.operandChanged s a_k a_t) := by
  unfold State.operandChanged
  refine Frame.foldl ?_ (fun y0 a0 h0 => ?_)
  · exact h
  · refine Frame.ite (fun _ => ?_) (fun _ => ?_)
    · refine State.queueRule_frame ?_ _ (Sub.le (by decide) hp)
      refine State.setRule_frame ?_ _ _ (Sub.le (by decide) hp)
      exact h0
    · exact h0

theorem State.setWin_frame {P : Part → Prop} {s0 s : State} (h : Frame P s0 s) (a_w : ℕ) (a_f : Sys2Proof.Machine.WinEnt → Sys2Proof.Machine.WinEnt) (hp : Sub 134217728 P) :
    Frame P s0 (State.setWin s a_w a_f) := by
  unfold State.setWin
  refine Frame.set_wins ?_ (hp .wins rfl) _
  exact h

theorem State.setWinBit_frame {P : Part → Prop} {s0 s : State} (h : Frame P s0 s) (a_w : ℕ) (a_b : Bool) (a_t : Sys2Proof.TimePoint) (hp : Sub 2475880078570760580131454976 P) :
    Frame P s0 (State.setWinBit s a_w a_b a_t) := by
  unfold State.setWinBit
  refine Frame.ite (fun _ => ?_) (fun _ => ?_)
  · exact h
  · extract_lets -merge -useContext -underBinder +onlyGivenNames x0
    have h0 : Frame P s0 x0 := by
      unfold x0
      refine Frame.set_winOpen ?_ (hp .winOpen rfl) _
      exact h
    refine Frame.ite (fun _ => ?_) (fun _ => ?_)
    · refine State.operandChanged_frame ?_ _ _ (Sub.le (by decide) hp)
      exact h0
    · exact h0

theorem State.winIgnored_frame {P : Part → Prop} {s0 s : State} (h : Frame P s0 s)  (hp : Sub 2535301200530245779288244822018 P) :
    Frame P s0 (State.winIgnored s) := by
  unfold State.winIgnored
  refine State.raise_frame ?_ _ _ (Sub.le (by decide) hp)
  refine State.bump_frame ?_ _ (Reg.winCntRetrigIgn_in (hp .regWin rfl)) (Sub.le (by decide) hp)
  exact h

theorem State.winTrigger_frame {P : Part → Prop} {s0 s : State} (h : Frame P s0 s) (a_w : ℕ) (a_e : Sys2Proof.TimePoint) (hp : Sub 2535301200530245779288379039746 P) :
    Frame P s0 (State.winTrigger s a_w a_e) := by
  unfold State.winTrigger
  extract_lets -merge -useContext -underBinder +onlyGivenNames x0
  refine Frame.ite (fun _ => ?_) (fun _ => ?_)
  · exact h
  · refine Frame.ite (fun _ => ?_) (fun _ => ?_)
    · refine State.winIgnored_frame ?_  (Sub.le (by decide) hp)
      exact h
    · extract_lets -merge -useContext -underBinder +onlyGivenNames x1
      refine Frame.ite (fun _ => ?_) (fun _ => ?_)
      · refine State.winIgnored_frame ?_  (Sub.le (by decide) hp)
        exact h
      · refine State.setWin_frame ?_ _ _ (Sub.le (by decide) hp)
        exact h

theorem State.winLineEdge_frame {P : Part → Prop} {s0 s : State} (h : Frame P s0 s) (a_k : ℕ) (a_rise : Bool) (a_e : Sys2Proof.TimePoint) (hp : Sub 2535301200530245779288379039746 P) :
    Frame P s0 (State.winLineEdge s a_k a_rise a_e) := by
  unfold State.winLineEdge
  refine Frame.foldl ?_ (fun y0 a0 h0 => ?_)
  · exact h
  · refine Frame.ite (fun _ => ?_) (fun _ => ?_)
    · refine State.winTrigger_frame ?_ _ _ (Sub.le (by decide) hp)
      exact h0
    · exact h0

theorem State.winSignal_frame {P : Part → Prop} {s0 s : State} (h : Frame P s0 s) (a_n : ℕ) (a_old : ℕ) (a_new : ℕ) (a_e : Sys2Proof.TimePoint) (hp : Sub 2535301200530245779288379039746 P) :
    Frame P s0 (State.winSignal s a_n a_old a_new a_e) := by
  unfold State.winSignal
  refine Frame.ite (fun _ => ?_) (fun _ => ?_)
  · exact h
  · refine Frame.foldl ?_ (fun y0 a0 h0 => ?_)
    · exact h
    · extract_lets -merge -useContext -underBinder +onlyGivenNames x1
      refine Frame.ite (fun _ => ?_) (fun _ => ?_)
      · refine State.winTrigger_frame ?_ _ _ (Sub.le (by decide) hp)
        exact h0
      · exact h0

theorem State.winSubject_frame {P : Part → Prop} {s0 s : State} (h : Frame P s0 s) (a_k : ℕ) (a_rise : Bool) (a_t : Sys2Proof.TimePoint) (a_u : ℕ) (a_q : BitVec 4) (hp : Sub 536870912 P) :
    Frame P s0 (State.winSubject s a_k a_rise a_t a_u a_q) := by
  unfold State.winSubject
  refine Frame.foldl ?_ (fun y0 a0 h0 => ?_)
  · exact h
  · refine Frame.ite (fun _ => ?_) (fun _ => ?_)
    · refine Frame.set_winEdges ?_ (hp .winEdges rfl) _
      exact h0
    · exact h0

theorem State.winDisarm_frame {P : Part → Prop} {s0 s : State} (h : Frame P s0 s) (a_w : ℕ) (hp : Sub 2475880078570760580802543616 P) :
    Frame P s0 (State.winDisarm s a_w) := by
  unfold State.winDisarm
  extract_lets -merge -useContext -underBinder +onlyGivenNames x0
  have h0 : Frame P s0 x0 := by
    unfold x0
    refine State.setWinBit_frame ?_ _ _ _ (Sub.le (by decide) hp)
    refine State.setWin_frame ?_ _ _ (Sub.le (by decide) hp)
    exact h
  refine Frame.set_winEdges ?_ (hp .winEdges rfl) _
  exact h0

theorem State.winClassify_frame {P : Part → Prop} {s0 s : State} (h : Frame P s0 s) (a_e : Sys2Proof.Machine.WinEdge) (hp : Sub 2535302409456065393917419530498 P) :
    Frame P s0 (State.winClassify s a_e) := by
  unfold State.winClassify
  extract_lets -merge -useContext -underBinder +onlyGivenNames x0
  extract_lets -merge -useContext -underBinder +onlyGivenNames x1
  extract_lets -merge -useContext -underBinder +onlyGivenNames x2
  extract_lets -merge -useContext -underBinder +onlyGivenNames x3
  extract_lets -merge -useContext -underBinder +onlyGivenNames x4
  have h4 : Frame P s0 x4 := by
    unfold x4
    refine State.bump_frame ?_ _ (Reg.winCntResult_in (hp .regWin rfl)) (Sub.le (by decide) hp)
    exact h
  extract_lets -merge -useContext -underBinder +onlyGivenNames x5
  have h5 : Frame P s0 x5 := by
    unfold x5
    refine Frame.ite (fun _ => ?_) (fun _ => ?_)
    · refine State.bump_frame ?_ _ (Reg.winCntBoundary_in (hp .regWin rfl)) (Sub.le (by decide) hp)
      exact h4
    · exact h4
  refine Frame.ite (fun _ => ?_) (fun _ => ?_)
  · extract_lets -merge -useContext -underBinder +onlyGivenNames x6
    refine State.postAt_frame ?_ _ _ _ _ _ _ _ _ _ _ (Sub.le (by decide) hp)
    refine State.raise_frame ?_ _ _ (Sub.le (by decide) hp)
    exact h5
  · exact h5

theorem execWindowClassify_frame {P : Part → Prop} {s0 s : State} (h : Frame P s0 s) (a_i : ℕ) (hp : Sub 2535302409456065393917956401410 P) :
    AnswersIn P s0 (execWindowClassify a_i s) := by
  refine ⟨_, rfl, ?_⟩
  split
  · refine Frame.ite (fun _ => ?_) (fun _ => ?_)
    · refine State.winClassify_frame ?_ _ (Sub.le (by decide) hp)
      refine Frame.set_winEdges ?_ (hp .winEdges rfl) _
      exact h
    · exact h
  · exact h

theorem execWindowStateChange_frame {P : Part → Prop} {s0 s : State} (h : Frame P s0 s) (w : Fin 256) (hp : Sub 2475880078570760580131454976 P) :
    AnswersIn P s0 (execWindowStateChange w s) := ⟨_, rfl, State.setWinBit_frame h _ _ _ (Sub.le (by decide) hp)⟩

theorem State.winCommand_frame {P : Part → Prop} {s0 s : State} (h : Frame P s0 s) (a_arg : BitVec 16) (a_f : ℕ → Sys2Proof.Machine.State → Sys2Proof.Machine.MbxAns × Sys2Proof.Machine.State) (Ha_f : ∀ z0 z1, Frame P s0 z1 → Frame P s0 (a_f z0 z1).2) (hp : Sub 147573952589676412932 P) :
    Frame P s0 (State.winCommand s a_arg a_f) := by
  unfold State.winCommand
  refine State.mbxCommand_frame ?_ _ _ (fun y0 h0 => ?_) (Sub.le (by decide) hp)
  · exact h
  · refine Frame.ite2 (fun _ => ?_) (fun _ => ?_)
    · refine Frame.pair2 ?_
      exact h0
    · refine Ha_f _ _ ?_
      exact h0

theorem execLoadTimes_frame {P : Part → Prop} {s0 s : State} (h : Frame P s0 s) (a_arg : BitVec 16) (hp : Sub 147573952589810630660 P) :
    AnswersIn P s0 (execLoadTimes a_arg s) := by
  refine ⟨_, rfl, ?_⟩
  refine State.winCommand_frame ?_ _ _ (fun _ y0 h0 => ?_) (Sub.le (by decide) hp)
  · exact h
  · extract_lets -merge -useContext -underBinder +onlyGivenNames x1
    extract_lets -merge -useContext -underBinder +onlyGivenNames x2
    refine Frame.ite2 (fun _ => ?_) (fun _ => ?_)
    · refine Frame.pair2 ?_
      exact h0
    · refine Frame.ite2 (fun _ => ?_) (fun _ => ?_)
      · refine Frame.pair2 ?_
        exact h0
      · refine Frame.pair2 ?_
        refine State.setWin_frame ?_ _ _ (Sub.le (by decide) hp)
        exact h0

theorem execLoadCtrl_frame {P : Part → Prop} {s0 s : State} (h : Frame P s0 s) (a_arg : BitVec 16) (hp : Sub 147573952589810630660 P) :
    AnswersIn P s0 (execLoadCtrl a_arg s) := by
  refine ⟨_, rfl, ?_⟩
  refine State.winCommand_frame ?_ _ _ (fun _ y0 h0 => ?_) (Sub.le (by decide) hp)
  · exact h
  · extract_lets -merge -useContext -underBinder +onlyGivenNames x1
    refine Frame.ite2 (fun _ => ?_) (fun _ => ?_)
    · refine Frame.pair2 ?_
      exact h0
    · refine Frame.ite2 (fun _ => ?_) (fun _ => ?_)
      · refine Frame.pair2 ?_
        exact h0
      · refine Frame.pair2 ?_
        refine State.setWin_frame ?_ _ _ (Sub.le (by decide) hp)
        exact h0

theorem execWinArm_frame {P : Part → Prop} {s0 s : State} (h : Frame P s0 s) (a_arg : BitVec 16) (hp : Sub 147573952589810630660 P) :
    AnswersIn P s0 (execWinArm a_arg s) := by
  refine ⟨_, rfl, ?_⟩
  refine State.winCommand_frame ?_ _ _ (fun _ y0 h0 => ?_) (Sub.le (by decide) hp)
  · exact h
  · extract_lets -merge -useContext -underBinder +onlyGivenNames x1
    refine Frame.ite2 (fun _ => ?_) (fun _ => ?_)
    · refine Frame.pair2 ?_
      exact h0
    · refine Frame.ite2 (fun _ => ?_) (fun _ => ?_)
      · refine Frame.pair2 ?_
        exact h0
      · refine Frame.pair2 ?_
        refine State.setWin_frame ?_ _ _ (Sub.le (by decide) hp)
        exact h0

theorem execWinDisarm_frame {P : Part → Prop} {s0 s : State} (h : Frame P s0 s) (a_arg : BitVec 16) (hp : Sub 2475880226144713170478956548 P) :
    AnswersIn P s0 (execWinDisarm a_arg s) := by
  refine ⟨_, rfl, ?_⟩
  refine State.winCommand_frame ?_ _ _ (fun _ y0 h0 => ?_) (Sub.le (by decide) hp)
  · exact h
  · refine Frame.pair2 ?_
    refine State.winDisarm_frame ?_ _ (Sub.le (by decide) hp)
    exact h0

theorem execReadTimes_frame {P : Part → Prop} {s0 s : State} (h : Frame P s0 s) (a_arg : BitVec 16) (hp : Sub 147573952589676412932 P) :
    AnswersIn P s0 (execReadTimes a_arg s) := by
  refine ⟨_, rfl, ?_⟩
  refine State.winCommand_frame ?_ _ _ (fun _ y0 h0 => ?_) (Sub.le (by decide) hp)
  · exact h
  · extract_lets -merge -useContext -underBinder +onlyGivenNames x1
    refine Frame.pair2 ?_
    exact h0

theorem execReadCtrl_frame {P : Part → Prop} {s0 s : State} (h : Frame P s0 s) (a_arg : BitVec 16) (hp : Sub 147573952589676412932 P) :
    AnswersIn P s0 (execReadCtrl a_arg s) := by
  refine ⟨_, rfl, ?_⟩
  refine State.winCommand_frame ?_ _ _ (fun _ y0 h0 => ?_) (Sub.le (by decide) hp)
  · exact h
  · extract_lets -merge -useContext -underBinder +onlyGivenNames x1
    refine Frame.pair2 ?_
    exact h0

theorem execTrigger_frame {P : Part → Prop} {s0 s : State} (h : Frame P s0 s) (a_arg : BitVec 16) (hp : Sub 2535301200677819731878055452678 P) :
    AnswersIn P s0 (execTrigger a_arg s) := by
  refine ⟨_, rfl, ?_⟩
  refine State.winCommand_frame ?_ _ _ (fun _ y0 h0 => ?_) (Sub.le (by decide) hp)
  · exact h
  · refine Frame.pair2 ?_
    refine State.winTrigger_frame ?_ _ _ (Sub.le (by decide) hp)
    exact h0

theorem State.winSoftReset_frame {P : Part → Prop} {s0 s : State} (h : Frame P s0 s)  (hp : Sub 2475880078570760580802543616 P) :
    Frame P s0 (State.winSoftReset s) := by
  unfold State.winSoftReset
  refine Frame.foldl ?_ (fun y0 a0 h0 => ?_)
  · exact h
  · refine State.winDisarm_frame ?_ _ (Sub.le (by decide) hp)
    exact h0

theorem State.setEng_frame {P : Part → Prop} {s0 s : State} (h : Frame P s0 s) (a_e : ℕ) (a_f : Sys2Proof.Machine.EngSt → Sys2Proof.Machine.EngSt) (hp : Sub 35184372088832 P) :
    Frame P s0 (State.setEng s a_e a_f) := by
  unfold State.setEng
  refine Frame.set_engs ?_ (hp .engs rfl) _
  exact h

theorem State.readbackTrack_frame {P : Part → Prop} {s0 s : State} (h : Frame P s0 s) (a_k : ℕ) (hp : Sub 524288 P) :
    Frame P s0 (State.readbackTrack s a_k) := by
  unfold State.readbackTrack
  extract_lets -merge -useContext -underBinder +onlyGivenNames x0
  extract_lets -merge -useContext -underBinder +onlyGivenNames x1
  refine Frame.ite (fun _ => ?_) (fun _ => ?_)
  · exact h
  · refine State.setLine_frame ?_ _ _ (Sub.le (by decide) hp)
    exact h

theorem State.latchWrite_frame {P : Part → Prop} {s0 s : State} (h : Frame P s0 s) (a_k : ℕ) (a_b : Bool) (hp : Sub 388065261883272260020283650 P) :
    Frame P s0 (State.latchWrite s a_k a_b) := by
  unfold State.latchWrite
  refine State.commandsChanged_frame ?_  (Sub.le (by decide) hp)
  refine State.readbackTrack_frame ?_ _ (Sub.le (by decide) hp)
  refine State.setLine_frame ?_ _ _ (Sub.le (by decide) hp)
  exact h

theorem State.cmdWrite_frame {P : Part → Prop} {s0 s : State} (h : Frame P s0 s) (a_k : ℕ) (a_b : Bool) (hp : Sub 388065261883272260020283650 P) :
    Frame P s0 (State.cmdWrite s a_k a_b) := by
  unfold State.cmdWrite
  refine State.commandsChanged_frame ?_  (Sub.le (by decide) hp)
  refine State.setLine_frame ?_ _ _ (Sub.le (by decide) hp)
  exact h

theorem State.pulseStart_frame {P : Part → Prop} {s0 s : State} (h : Frame P s0 s) (a_k : ℕ) (a_b : Bool) (a_stop : Sys2Proof.TimePoint) (hp : Sub 388065261883272260020283650 P) :
    Frame P s0 (State.pulseStart s a_k a_b a_stop) := by
  unfold State.pulseStart
  refine State.commandsChanged_frame ?_  (Sub.le (by decide) hp)
  refine State.readbackTrack_frame ?_ _ (Sub.le (by decide) hp)
  refine State.setLine_frame ?_ _ _ (Sub.le (by decide) hp)
  exact h

theorem State.cmdPulseStart_frame {P : Part → Prop} {s0 s : State} (h : Frame P s0 s) (a_k : ℕ) (a_b : Bool) (a_stop : Sys2Proof.TimePoint) (hp : Sub 388065261883272260020283650 P) :
    Frame P s0 (State.cmdPulseStart s a_k a_b a_stop) := by
  unfold State.cmdPulseStart
  refine State.commandsChanged_frame ?_  (Sub.le (by decide) hp)
  refine State.setLine_frame ?_ _ _ (Sub.le (by decide) hp)
  exact h

theorem State.swWrite_frame {P : Part → Prop} {s0 s : State} (h : Frame P s0 s) (a_k : ℕ) (a_b : Bool) (hp : Sub 388103040815135217181993218 P) :
    Frame P s0 (State.swWrite s a_k a_b) := by
  unfold State.swWrite
  refine Frame.ite (fun _ => ?_) (fun _ => ?_)
  · refine State.bump_frame ?_ _ (Reg.chCntProtRefused_in _ (hp .regCh rfl)) (Sub.le (by decide) hp)
    refine State.cmdWrite_frame ?_ _ _ (Sub.le (by decide) hp)
    exact h
  · refine State.latchWrite_frame ?_ _ _ (Sub.le (by decide) hp)
    exact h

theorem State.outWrite_frame {P : Part → Prop} {s0 s : State} (h : Frame P s0 s) (a_c : ℕ) (a_mask : ℕ) (a_b : Bool) (hp : Sub 388103040815135217181993218 P) :
    Frame P s0 (State.outWrite s a_c a_mask a_b) := by
  unfold State.outWrite
  refine Frame.foldl ?_ (fun y0 a0 h0 => ?_)
  · exact h
  · refine Frame.ite (fun _ => ?_) (fun _ => ?_)
    · refine State.swWrite_frame ?_ _ _ (Sub.le (by decide) hp)
      exact h0
    · exact h0

theorem State.safeEnter_frame {P : Part → Prop} {s0 s : State} (h : Frame P s0 s) (a_k : ℕ) (hp : Sub 524288 P) :
    Frame P s0 (State.safeEnter s a_k) := by
  unfold State.safeEnter
  extract_lets -merge -useContext -underBinder +onlyGivenNames x0
  refine Frame.ite (fun _ => ?_) (fun _ => ?_)
  · exact h
  · extract_lets -merge -useContext -underBinder +onlyGivenNames x1
    refine State.readbackTrack_frame ?_ _ (Sub.le (by decide) hp)
    refine State.setLine_frame ?_ _ _ (Sub.le (by decide) hp)
    exact h

theorem State.safeRelease_frame {P : Part → Prop} {s0 s : State} (h : Frame P s0 s) (a_k : ℕ) (hp : Sub 524288 P) :
    Frame P s0 (State.safeRelease s a_k) := by
  unfold State.safeRelease
  refine State.readbackTrack_frame ?_ _ (Sub.le (by decide) hp)
  refine State.setLine_frame ?_ _ _ (Sub.le (by decide) hp)
  exact h

theorem execPulseEnd_frame {P : Part → Prop} {s0 s : State} (h : Frame P s0 s) (a_k : Fin 256) (a_inLatch : Bool) (a_inCommand : Bool) (hp : Sub 388065261883289852206328066 P) :
    AnswersIn P s0 (execPulseEnd a_k a_inLatch a_inCommand s) := by
  refine ⟨_, rfl, ?_⟩
  extract_lets -merge -useContext -underBinder +onlyGivenNames x0
  extract_lets -merge -useContext -underBinder +onlyGivenNames x1
  extract_lets -merge -useContext -underBinder +onlyGivenNames x2
  extract_lets -merge -useContext -underBinder +onlyGivenNames x3
  have h3 : Frame P s0 x3 := by
    unfold x3
    refine State.setLine_frame ?_ _ _ (Sub.le (by decide) hp)
    exact h
  extract_lets -merge -useContext -underBinder +onlyGivenNames x4
  have h4 : Frame P s0 x4 := by
    unfold x4
    refine State.commandsChanged_frame ?_  (Sub.le (by decide) hp)
    refine State.readbackTrack_frame ?_ _ (Sub.le (by decide) hp)
    exact h3
  refine Frame.ite (fun _ => ?_) (fun _ => ?_)
  · extract_lets -merge -useContext -underBinder +onlyGivenNames x5
    extract_lets -merge -useContext -underBinder +onlyGivenNames x6
    have h6 : Frame P s0 x6 := by
      unfold x6
      refine Frame.set_pulseDone ?_ (hp .pulseDone rfl) _
      exact h4
    refine Frame.foldl ?_ (fun y7 a7 h7 => ?_)
    · exact h6
    · refine State.postAt_frame ?_ _ _ _ _ _ _ _ _ _ _ (Sub.le (by decide) hp)
      refine State.raise_frame ?_ _ _ (Sub.le (by decide) hp)
      exact h7
  · exact h4

theorem execReadbackMismatch_frame {P : Part → Prop} {s0 s : State} (h : Frame P s0 s) (a_k : Fin 256) (hp : Sub 388103040815135217181993218 P) :
    AnswersIn P s0 (execReadbackMismatch a_k s) := by
  refine ⟨_, rfl, ?_⟩
  extract_lets -merge -useContext -underBinder +onlyGivenNames x0
  extract_lets -merge -useContext -underBinder +onlyGivenNames x1
  refine Frame.ite (fun _ => ?_) (fun _ => ?_)
  · extract_lets -merge -useContext -underBinder +onlyGivenNames x2
    extract_lets -merge -useContext -underBinder +onlyGivenNames x3
    have h3 : Frame P s0 x3 := by
      unfold x3
      refine State.bump_frame ?_ _ (Reg.chCntReadback_in _ (hp .regCh rfl)) (Sub.le (by decide) hp)
      exact h
    extract_lets -merge -useContext -underBinder +onlyGivenNames x4
    have h4 : Frame P s0 x4 := by
      unfold x4
      refine State.setLine_frame ?_ _ _ (Sub.le (by decide) hp)
      exact h3
    extract_lets -merge -useContext -underBinder +onlyGivenNames x5
    extract_lets -merge -useContext -underBinder +onlyGivenNames x6
    have h6 : Frame P s0 x6 := by
      unfold x6
      refine Frame.ite (fun _ => ?_) (fun _ => ?_)
      · refine State.safeEnter_frame ?_ _ (Sub.le (by decide) hp)
        exact h4
      · exact h4
    extract_lets -merge -useContext -underBinder +onlyGivenNames x7
    have h7 : Frame P s0 x7 := by
      unfold x7
      refine State.post_frame ?_ _ _ _ _ _ _ _ _ (Sub.le (by decide) hp)
      refine State.raise_frame ?_ _ _ (Sub.le (by decide) hp)
      exact h6
    refine Frame.ite (fun _ => ?_) (fun _ => ?_)
    · refine State.leaseFault_frame ?_ _ (Sub.le (by decide) hp)
      exact h7
    · exact h7
  · exact h

theorem State.setTile_frame {P : Part → Prop} {s0 s : State} (h : Frame P s0 s) (a_t : ℕ) (a_f : Sys2Proof.Machine.TileSt → Sys2Proof.Machine.TileSt) (hp : Sub 1048576 P) :
    Frame P s0 (State.setTile s a_t a_f) := by
  unfold State.setTile
  refine Frame.set_tiles ?_ (hp .tiles rfl) _
  exact h

theorem State.tileWake_frame {P : Part → Prop} {s0 s : State} (h : Frame P s0 s) (a_t : ℕ) (hp : Sub 633825300114114700748352651264 P) :
    Frame P s0 (State.tileWake s a_t) := by
  unfold State.tileWake
  split
  · refine Frame.ite (fun _ => ?_) (fun _ => ?_)
    · refine State.bump_frame ?_ _ (Reg.tileCntWake_in _ (hp .regTile rfl)) (Sub.le (by decide) hp)
      refine State.setTile_frame ?_ _ _ (Sub.le (by decide) hp)
      exact h
    · exact h
  · exact h
  · refine State.setTile_frame ?_ _ _ (Sub.le (by decide) hp)
    exact h

theorem State.tileLock_frame {P : Part → Prop} {s0 s : State} (h : Frame P s0 s) (a_t : ℕ) (hp : Sub 1048576 P) :
    Frame P s0 (State.tileLock s a_t) := by
  unfold State.tileLock
  refine State.setTile_frame ?_ _ _ (Sub.le (by decide) hp)
  exact h

theorem execTileClockLockTimeout_frame {P : Part → Prop} {s0 s : State} (h : Frame P s0 s) (a_t : Fin 8) (hp : Sub 633826584673890860595902884130 P) :
    AnswersIn P s0 (execTileClockLockTimeout a_t s) := by
  refine ⟨_, rfl, ?_⟩
  refine Frame.ite (fun _ => ?_) (fun _ => ?_)
  · refine State.qualFail_frame ?_ _ _ _ _ _ (Reg.clkCntTileLock_in (hp .regClk rfl)) (Sub.le (by decide) hp)
    refine State.raise_frame ?_ _ _ (Sub.le (by decide) hp)
    refine State.bump_frame ?_ _ (Reg.tileCntWake_in _ (hp .regTile rfl)) (Sub.le (by decide) hp)
    refine State.setTile_frame ?_ _ _ (Sub.le (by decide) hp)
    exact h
  · exact h

theorem execTileClockStop_frame {P : Part → Prop} {s0 s : State} (h : Frame P s0 s) (a_t : Fin 8) (hp : Sub 1048576 P) :
    AnswersIn P s0 (execTileClockStop a_t s) := by
  refine ⟨_, rfl, ?_⟩
  refine Frame.ite (fun _ => ?_) (fun _ => ?_)
  · refine State.setTile_frame ?_ _ _ (Sub.le (by decide) hp)
    exact h
  · exact h

theorem State.tileTrack_frame {P : Part → Prop} {s0 s : State} (h : Frame P s0 s) (a_t : ℕ) (hp : Sub 1048576 P) :
    Frame P s0 (State.tileTrack s a_t) := by
  unfold State.tileTrack
  refine Frame.ite (fun _ => ?_) (fun _ => ?_)
  · refine State.setTile_frame ?_ _ _ (Sub.le (by decide) hp)
    exact h
  · exact h

theorem State.tileSample_frame {P : Part → Prop} {s0 s : State} (h : Frame P s0 s)  (hp : Sub 1572864 P) :
    Frame P s0 (State.tileSample s) := by
  unfold State.tileSample
  refine Frame.foldl ?_ (fun y1 a1 h1 => ?_)
  · refine Frame.foldl ?_ (fun y0 a0 h0 => ?_)
    · exact h
    · refine State.readbackTrack_frame ?_ _ (Sub.le (by decide) hp)
      exact h0
  · refine State.tileTrack_frame ?_ _ (Sub.le (by decide) hp)
    exact h1

theorem State.stampLost_frame {P : Part → Prop} {s0 s : State} (h : Frame P s0 s) (a_t : ℕ) (a_x : Sys2Proof.Machine.Stamp) (hp : Sub 633826509113721291672365771010 P) :
    Frame P s0 (State.stampLost s a_t a_x) := by
  unfold State.stampLost
  extract_lets -merge -useContext -underBinder +onlyGivenNames x0
  have h0 : Frame P s0 x0 := by
    unfold x0
    refine State.bump_frame ?_ _ (Reg.tileCntStampLost_in _ (hp .regTile rfl)) (Sub.le (by decide) hp)
    exact h
  split
  · refine State.setTile_frame ?_ _ _ (Sub.le (by decide) hp)
    exact h0
  · refine State.post_frame ?_ _ _ _ _ _ _ _ _ (Sub.le (by decide) hp)
    refine State.raise_frame ?_ _ _ (Sub.le (by decide) hp)
    refine State.setTile_frame ?_ _ _ (Sub.le (by decide) hp)
    exact h0

theorem State.stampEdge_frame {P : Part → Prop} {s0 s : State} (h : Frame P s0 s) (a_k : ℕ) (a_rise : Bool) (a_time : Sys2Proof.TimePoint) (a_unc : ℕ) (a_q : BitVec 4) (hp : Sub 633826509113721291672368392450 P) :
    Frame P s0 (State.stampEdge s a_k a_rise a_time a_unc a_q) := by
  unfold State.stampEdge
  extract_lets -merge -useContext -underBinder +onlyGivenNames x0
  extract_lets -merge -useContext -underBinder +onlyGivenNames x1
  extract_lets -merge -useContext -underBinder +onlyGivenNames x2
  have h2 : Frame P s0 x2 := by
    unfold x2
    refine State.setTile_frame ?_ _ _ (Sub.le (by decide) hp)
    exact h
  extract_lets -merge -useContext -underBinder +onlyGivenNames x3
  have h3 : Frame P s0 x3 := by
    unfold x3
    refine Frame.set_stampOrder ?_ (hp .stampOrder rfl) _
    exact h2
  extract_lets -merge -useContext -underBinder +onlyGivenNames x4
  refine Frame.ite (fun _ => ?_) (fun _ => ?_)
  · refine State.setLine_frame ?_ _ _ (Sub.le (by decide) hp)
    exact h3
  · refine State.stampLost_frame ?_ _ _ (Sub.le (by decide) hp)
    exact h3

theorem State.stampStore_frame {P : Part → Prop} {s0 s : State} (h : Frame P s0 s) (a_t : ℕ) (a_ws : List Sys2Proof.Word) (hp : Sub 1310720 P) :
    Frame P s0 (State.stampStore s a_t a_ws) := by
  unfold State.stampStore
  extract_lets -merge -useContext -underBinder +onlyGivenNames x0
  extract_lets -merge -useContext -underBinder +onlyGivenNames x1
  have h1 : Frame P s0 x1 := by
    unfold x1
    refine Frame.foldl ?_ (fun y2 a2 h2 => ?_)
    · exact h
    · refine State.sramSet_frame ?_ _ _ (Sub.le (by decide) hp)
      exact h2
  refine State.setTile_frame ?_ _ _ (Sub.le (by decide) hp)
  exact h1

theorem execStampTransfer_frame {P : Part → Prop} {s0 s : State} (h : Frame P s0 s) (a_t : Fin 8) (hp : Sub 633826509113721291672366557442 P) :
    AnswersIn P s0 (execStampTransfer a_t s) := by
  refine ⟨_, rfl, ?_⟩
  refine Frame.ite (fun _ => ?_) (fun _ => ?_)
  · exact h
  · extract_lets -merge -useContext -underBinder +onlyGivenNames x0
    split
    · refine Frame.ite (fun _ => ?_) (fun _ => ?_)
      · refine State.setTile_frame ?_ _ _ (Sub.le (by decide) hp)
        refine State.stampStore_frame ?_ _ _ (Sub.le (by decide) hp)
        exact h
      · split
        · refine State.stampLost_frame ?_ _ _ (Sub.le (by decide) hp)
          refine State.setLine_frame ?_ _ _ (Sub.le (by decide) hp)
          exact h
        · exact h
    · split
      · extract_lets -merge -useContext -underBinder +onlyGivenNames x6
        extract_lets -merge -useContext -underBinder +onlyGivenNames x7
        have h7 : Frame P s0 x7 := by
          unfold x7
          refine State.setLine_frame ?_ _ _ (Sub.le (by decide) hp)
          exact h
        refine Frame.ite (fun _ => ?_) (fun _ => ?_)
        · refine State.stampStore_frame ?_ _ _ (Sub.le (by decide) hp)
          exact h7
        · refine State.stampLost_frame ?_ _ _ (Sub.le (by decide) hp)
          exact h7
      · exact h

theorem State.stampRead_frame {P : Part → Prop} {s0 s : State} (h : Frame P s0 s) (a_t : ℕ) (hp : Sub 1048576 P) :
    Frame P s0 (State.stampRead s a_t).2 := by
  unfold State.stampRead
  extract_lets -merge -useContext -underBinder +onlyGivenNames x0
  refine Frame.ite2 (fun _ => ?_) (fun _ => ?_)
  · refine Frame.pair2 ?_
    refine State.setTile_frame ?_ _ _ (Sub.le (by decide) hp)
    exact h
  · extract_lets -merge -useContext -underBinder +onlyGivenNames x1
    refine Frame.pair2 ?_
    refine State.setTile_frame ?_ _ _ (Sub.le (by decide) hp)
    exact h

theorem State.stampCfgWrite_frame {P : Part → Prop} {s0 s : State} (h : Frame P s0 s) (a_t : ℕ) (a_v : Sys2Proof.Word) (hp : Sub 633825300114114700748352651264 P) :
    Frame P s0 (State.stampCfgWrite s a_t a_v) := by
  unfold State.stampCfgWrite
  refine Frame.ite (fun _ => ?_) (fun _ => ?_)
  · refine State.setTile_frame ?_ _ _ (Sub.le (by decide) hp)
    refine State.wr_frame ?_ _ _ (Reg.tileStampCfg_in _ (hp .regTile rfl)) (Sub.le (by decide) hp)
    exact h
  · exact h

theorem State.tileSoftReset_frame {P : Part → Prop} {s0 s : State} (h : Frame P s0 s) (a_t : ℕ) (hp : Sub 1048576 P) :
    Frame P s0 (State.tileSoftReset s a_t) := by
  unfold State.tileSoftReset
  refine State.setTile_frame ?_ _ _ (Sub.le (by decide) hp)
  exact h

theorem State.setCtr_frame {P : Part → Prop} {s0 s : State} (h : Frame P s0 s) (a_c : ℕ) (a_f : Sys2Proof.Machine.CtrSt → Sys2Proof.Machine.CtrSt) (hp : Sub 8388608 P) :
    Frame P s0 (State.setCtr s a_c a_f) := by
  unfold State.setCtr
  refine Frame.set_ctrs ?_ (hp .ctrs rfl) _
  exact h

theorem State.ctrCapture_frame {P : Part → Prop} {s0 s : State} (h : Frame P s0 s) (a_c : ℕ) (hp : Sub 1265668004385359781112130 P) :
    Frame P s0 (State.ctrCapture s a_c) := by
  unfold State.ctrCapture
  extract_lets -merge -useContext -underBinder +onlyGivenNames x0
  extract_lets -merge -useContext -underBinder +onlyGivenNames x1
  extract_lets -merge -useContext -underBinder +onlyGivenNames x2
  extract_lets -merge -useContext -underBinder +onlyGivenNames x3
  have h3 : Frame P s0 x3 := by
    unfold x3
    refine Frame.foldl_mem ?_ (fun y4 a4 m4 h4 => ?_)
    · exact h
    · refine State.wr_frame ?_ _ _ (Reg.chCtrCap_in _ _ (by have := mem_upFrom m4; omega) (hp .regCh rfl)) (Sub.le (by decide) hp)
      exact h4
  extract_lets -merge -useContext -underBinder +onlyGivenNames x5
  have h5 : Frame P s0 x5 := by
    unfold x5
    refine State.setCtr_frame ?_ _ _ (Sub.le (by decide) hp)
    exact h3
  extract_lets -merge -useContext -underBinder +onlyGivenNames x6
  have h6 : Frame P s0 x6 := by
    unfold x6
    refine State.raise_frame ?_ _ _ (Sub.le (by decide) hp)
    exact h5
  refine Frame.ite (fun _ => ?_) (fun _ => ?_)
  · refine State.rxPacket_frame ?_ _ _ _ (Sub.le (by decide) hp)
    exact h6
  · exact h6

theorem State.ctrEdge_frame {P : Part → Prop} {s0 s : State} (h : Frame P s0 s) (a_c : ℕ) (a_rise : Bool) (a_t : Sys2Proof.TimePoint) (hp : Sub 37778931862957170098176 P) :
    Frame P s0 (State.ctrEdge s a_c a_rise a_t) := by
  unfold State.ctrEdge
  extract_lets -merge -useContext -underBinder +onlyGivenNames x0
  extract_lets -merge -useContext -underBinder +onlyGivenNames x1
  extract_lets -merge -useContext -underBinder +onlyGivenNames x2
  refine Frame.ite (fun _ => ?_) (fun _ => ?_)
  · exact h
  · extract_lets -merge -useContext -underBinder +onlyGivenNames x3
    extract_lets -merge -useContext -underBinder +onlyGivenNames x4
    have h4 : Frame P s0 x4 := by
      unfold x4
      refine State.wr_frame ?_ _ _ (Reg.chCtrCount_in _ (hp .regCh rfl)) (Sub.le (by decide) hp)
      exact h
    refine State.setCtr_frame ?_ _ _ (Sub.le (by decide) hp)
    exact h4

theorem execPeriodicCapture_frame {P : Part → Prop} {s0 s : State} (h : Frame P s0 s) (a_c : Fin 64) (hp : Sub 1265668004385359781112130 P) :
    AnswersIn P s0 (execPeriodicCapture a_c s) := by
  refine ⟨_, rfl, ?_⟩
  extract_lets -merge -useContext -underBinder +onlyGivenNames x0
  extract_lets -merge -useContext -underBinder +onlyGivenNames x1
  refine Frame.ite (fun _ => ?_) (fun _ => ?_)
  · refine State.ctrCapture_frame ?_ _ (Sub.le (by decide) hp)
    refine State.setCtr_frame ?_ _ _ (Sub.le (by decide) hp)
    exact h
  · exact h

theorem State.capSkip_frame {P : Part → Prop} {s0 s : State} (h : Frame P s0 s) (a_d : ℤ) (a_c : ℕ) (hp : Sub 8388608 P) :
    Frame P s0 (State.capSkip s a_d a_c) := by
  unfold State.capSkip
  refine Frame.ite (fun _ => ?_) (fun _ => ?_)
  · extract_lets -merge -useContext -underBinder +onlyGivenNames x0
    refine State.setCtr_frame ?_ _ _ (Sub.le (by decide) hp)
    exact h
  · exact h

theorem State.deliverEdge_frame {P : Part → Prop} {s0 s : State} (h : Frame P s0 s) (a_k : ℕ) (a_rise : Bool) (a_time : Sys2Proof.TimePoint) (a_unc : ℕ) (a_q : BitVec 4) (hp : Sub 3171603646317148649682076903746 P) :
    Frame P s0 (State.deliverEdge s a_k a_rise a_time a_unc a_q) := by
  unfold State.deliverEdge
  extract_lets -merge -useContext -underBinder +onlyGivenNames x0
  extract_lets -merge -useContext -underBinder +onlyGivenNames x1
  have h1 : Frame P s0 x1 := by
    unfold x1
    refine State.setLine_frame ?_ _ _ (Sub.le (by decide) hp)
    exact h
  extract_lets -merge -useContext -underBinder +onlyGivenNames x2
  have h2 : Frame P s0 x2 := by
    unfold x2
    refine Frame.ite (fun _ => ?_) (fun _ => ?_)
    · refine State.stampEdge_frame ?_ _ _ _ _ _ (Sub.le (by decide) hp)
      exact h1
    · exact h1
  extract_lets -merge -useContext -underBinder +onlyGivenNames x3
  have h3 : Frame P s0 x3 := by
    unfold x3
    refine State.operandChanged_frame ?_ _ _ (Sub.le (by decide) hp)
    exact h2
  extract_lets -merge -useContext -underBinder +onlyGivenNames x4
  have h4 : Frame P s0 x4 := by
    unfold x4
    refine State.winLineEdge_frame ?_ _ _ _ (Sub.le (by decide) hp)
    exact h3
  extract_lets -merge -useContext -underBinder +onlyGivenNames x5
  have h5 : Frame P s0 x5 := by
    unfold x5
    refine State.winSubject_frame ?_ _ _ _ _ _ (Sub.le (by decide) hp)
    exact h4
  refine Frame.ite (fun _ => ?_) (fun _ => ?_)
  · refine Frame.ite (fun _ => ?_) (fun _ => ?_)
    · refine State.ctrEdge_frame ?_ _ _ _ (Sub.le (by decide) hp)
      exact h5
    · refine Frame.ite (fun _ => ?_) (fun _ => ?_)
      · refine State.ctrCapture_frame ?_ _ (Sub.le (by decide) hp)
        exact h5
      · exact h5
  · exact h5

theorem State.chatterPost_frame {P : Part → Prop} {s0 s : State} (h : Frame P s0 s) (a_k : ℕ) (a_blocked : Bool) (hp : Sub 1208999606590924013119746 P) :
    Frame P s0 (State.chatterPost s a_k a_blocked) := by
  unfold State.chatterPost
  extract_lets -merge -useContext -underBinder +onlyGivenNames x0
  extract_lets -merge -useContext -underBinder +onlyGivenNames x1
  refine State.post_frame ?_ _ _ _ _ _ _ _ _ (Sub.le (by decide) hp)
  refine State.raise_frame ?_ _ _ (Sub.le (by decide) hp)
  exact h

theorem State.lineFail_frame {P : Part → Prop} {s0 s : State} (h : Frame P s0 s) (a_k : ℕ) (a_check : ℕ) (a_value : ℕ) (a_counter : ℕ) (K_a_counter : RegIn P a_counter) (hp : Sub 1209001912433933226813730 P) :
    Frame P s0 (State.lineFail s a_k a_check a_value a_counter) := by
  unfold State.lineFail
  refine State.raise_frame ?_ _ _ (Sub.le (by decide) hp)
  refine State.qualFail_frame ?_ _ _ _ _ _ K_a_counter (Sub.le (by decide) hp)
  exact h

theorem State.rateCheck_frame {P : Part → Prop} {s0 s : State} (h : Frame P s0 s) (a_k : ℕ) (hp : Sub 1246780844296890389047586 P) :
    Frame P s0 (State.rateCheck s a_k) := by
  unfold State.rateCheck
  extract_lets -merge -useContext -underBinder +onlyGivenNames x0
  extract_lets -merge -useContext -underBinder +onlyGivenNames x1
  extract_lets -merge -useContext -underBinder +onlyGivenNames x2
  refine Frame.ite (fun _ => ?_) (fun _ => ?_)
  · exact h
  · refine Frame.ite (fun _ => ?_) (fun _ => ?_)
    · refine State.bump_frame ?_ _ (Reg.chCntEdgeRate_in _ (hp .regCh rfl)) (Sub.le (by decide) hp)
      exact h
    · refine Frame.ite (fun _ => ?_) (fun _ => ?_)
      · refine State.chatterPost_frame ?_ _ _ (Sub.le (by decide) hp)
        refine State.setLine_frame ?_ _ _ (Sub.le (by decide) hp)
        refine State.bump_frame ?_ _ (Reg.chCntEdgeRate_in _ (hp .regCh rfl)) (Sub.le (by decide) hp)
        exact h
      · refine State.lineFail_frame ?_ _ _ _ _ (Reg.chCntEdgeRate_in _ (hp .regCh rfl)) (Sub.le (by decide) hp)
        refine State.setLine_frame ?_ _ _ (Sub.le (by decide) hp)
        exact h

theorem State.widthChecks_frame {P : Part → Prop} {s0 s : State} (h : Frame P s0 s) (a_k : ℕ) (a_old : Option Sys2Proof.TimePoint) (a_time : Sys2Proof.TimePoint) (hp : Sub 1246780844296890389047586 P) :
    Frame P s0 (State.widthChecks s a_k a_old a_time) := by
  unfold State.widthChecks
  extract_lets -merge -useContext -underBinder +onlyGivenNames x0
  extract_lets -merge -useContext -underBinder +onlyGivenNames x1
  extract_lets -merge -useContext -underBinder +onlyGivenNames x2
  extract_lets -merge -useContext -underBinder +onlyGivenNames x3
  extract_lets -merge -useContext -underBinder +onlyGivenNames x4
  extract_lets -merge -useContext -underBinder +onlyGivenNames x5
  have h5 : Frame P s0 x5 := by
    unfold x5
    refine Frame.ite (fun _ => ?_) (fun _ => ?_)
    · refine State.lineFail_frame ?_ _ _ _ _ (Reg.chCntMinWidth_in _ (hp .regCh rfl)) (Sub.le (by decide) hp)
      refine State.setLine_frame ?_ _ _ (Sub.le (by decide) hp)
      exact h
    · refine State.qualClear_frame ?_ _ _ _ _ (Sub.le (by decide) hp)
      refine State.setLine_frame ?_ _ _ (Sub.le (by decide) hp)
      exact h
  extract_lets -merge -useContext -underBinder +onlyGivenNames x6
  extract_lets -merge -useContext -underBinder +onlyGivenNames x7
  have h7 : Frame P s0 x7 := by
    unfold x7
    refine State.qualClear_frame ?_ _ _ _ _ (Sub.le (by decide) hp)
    refine State.setLine_frame ?_ _ _ (Sub.le (by decide) hp)
    exact h5
  refine State.qualClear_frame ?_ _ _ _ _ (Sub.le (by decide) hp)
  refine State.setLine_frame ?_ _ _ (Sub.le (by decide) hp)
  exact h7

theorem State.cellEdge_frame {P : Part → Prop} {s0 s : State} (h : Frame P s0 s) (a_k : ℕ) (a_rise : Bool) (a_time : Sys2Proof.TimePoint) (a_unc : ℕ) (a_q : BitVec 4) (hp : Sub 524288 P) :
    Frame P s0 (State.cellEdge s a_k a_rise a_time a_unc a_q) := by
  unfold State.cellEdge
  extract_lets -merge -useContext -underBinder +onlyGivenNames x0
  refine State.setLine_frame ?_ _ _ (Sub.le (by decide) hp)
  exact h

theorem State.lineWake_frame {P : Part → Prop} {s0 s : State} (h : Frame P s0 s) (a_k : ℕ) (hp : Sub 633825300114114700748352651264 P) :
    Frame P s0 (State.lineWake s a_k) := by
  unfold State.lineWake
  refine Frame.ite (fun _ => ?_) (fun _ => ?_)
  · refine State.tileWake_frame ?_ _ (Sub.le (by decide) hp)
    exact h
  · exact h

theorem State.liveEdge_frame {P : Part → Prop} {s0 s : State} (h : Frame P s0 s) (a_k : ℕ) (a_rise : Bool) (a_time : Sys2Proof.TimePoint) (a_unc : ℕ) (a_q : BitVec 4) (hp : Sub 3171603646319454492691290597730 P) :
    Frame P s0 (State.liveEdge s a_k a_rise a_time a_unc a_q) := by
  unfold State.liveEdge
  extract_lets -merge -useContext -underBinder +onlyGivenNames x0
  extract_lets -merge -useContext -underBinder +onlyGivenNames x1
  have h1 : Frame P s0 x1 := by
    unfold x1
    refine State.lineWake_frame ?_ _ (Sub.le (by decide) hp)
    refine State.widthChecks_frame ?_ _ _ _ (Sub.le (by decide) hp)
    refine State.rateCheck_frame ?_ _ (Sub.le (by decide) hp)
    refine State.cellEdge_frame ?_ _ _ _ _ _ (Sub.le (by decide) hp)
    exact h
  refine Frame.ite (fun _ => ?_) (fun _ => ?_)
  · exact h1
  · refine State.deliverEdge_frame ?_ _ _ _ _ _ (Sub.le (by decide) hp)
    exact h1

theorem State.asleepEdge_frame {P : Part → Prop} {s0 s : State} (h : Frame P s0 s) (a_k : ℕ) (a_rise : Bool) (a_time : Sys2Proof.TimePoint) (a_unc : ℕ) (a_q : BitVec 4) (hp : Sub 633826509113721291672368392450 P) :
    Frame P s0 (State.asleepEdge s a_k a_rise a_time a_unc a_q) := by
  unfold State.asleepEdge
  extract_lets -merge -useContext -underBinder +onlyGivenNames x0
  have h0 : Frame P s0 x0 := by
    unfold x0
    refine State.cellEdge_frame ?_ _ _ _ _ _ (Sub.le (by decide) hp)
    exact h
  refine Frame.ite (fun _ => ?_) (fun _ => ?_)
  · exact h0
  · extract_lets -merge -useContext -underBinder +onlyGivenNames x1
    extract_lets -merge -useContext -underBinder +onlyGivenNames x2
    have h2 : Frame P s0 x2 := by
      unfold x2
      refine State.setLine_frame ?_ _ _ (Sub.le (by decide) hp)
      exact h0
    refine Frame.ite (fun _ => ?_) (fun _ => ?_)
    · refine State.stampEdge_frame ?_ _ _ _ _ _ (Sub.le (by decide) hp)
      exact h2
    · exact h2

theorem State.qualifyEdge_frame {P : Part → Prop} {s0 s : State} (h : Frame P s0 s) (a_k : ℕ) (a_rise : Bool) (a_time : Sys2Proof.TimePoint) (a_unc : ℕ) (a_q : BitVec 4) (hp : Sub 3171603646319454492691290597730 P) :
    Frame P s0 (State.qualifyEdge s a_k a_rise a_time a_unc a_q) := by
  unfold State.qualifyEdge
  refine Frame.ite (fun _ => ?_) (fun _ => ?_)
  · refine State.liveEdge_frame ?_ _ _ _ _ _ (Sub.le (by decide) hp)
    exact h
  · refine State.asleepEdge_frame ?_ _ _ _ _ _ (Sub.le (by decide) hp)
    exact h

theorem State.filterEnds_frame {P : Part → Prop} {s0 s : State} (h : Frame P s0 s) (a_k : ℕ) (a_f : Sys2Proof.Machine.FiltSt) (hp : Sub 3171603646319454492691290597730 P) :
    Frame P s0 (State.filterEnds s a_k a_f) := by
  unfold State.filterEnds
  extract_lets -merge -useContext -underBinder +onlyGivenNames x0
  extract_lets -merge -useContext -underBinder +onlyGivenNames x1
  have h1 : Frame P s0 x1 := by
    unfold x1
    refine State.setLine_frame ?_ _ _ (Sub.le (by decide) hp)
    exact h
  refine Frame.ite (fun _ => ?_) (fun _ => ?_)
  · refine State.setLine_frame ?_ _ _ (Sub.le (by decide) hp)
    exact h1
  · refine State.qualifyEdge_frame ?_ _ _ _ _ _ (Sub.le (by decide) hp)
    exact h1

theorem State.rawChange_frame {P : Part → Prop} {s0 s : State} (h : Frame P s0 s) (a_k : ℕ) (a_ns : ℕ) (hp : Sub 524288 P) :
    Frame P s0 (State.rawChange s a_k a_ns) := by
  unfold State.rawChange
  extract_lets -merge -useContext -underBinder +onlyGivenNames x0
  refine State.readbackTrack_frame ?_ _ (Sub.le (by decide) hp)
  refine State.setLine_frame ?_ _ _ (Sub.le (by decide) hp)
  exact h

theorem State.glitch_frame {P : Part → Prop} {s0 s : State} (h : Frame P s0 s) (a_k : ℕ) (a_t : ℕ) (a_f : Sys2Proof.Machine.FiltSt) (hp : Sub 633826509116027134681578940706 P) :
    Frame P s0 (State.glitch s a_k a_t a_f) := by
  unfold State.glitch
  extract_lets -merge -useContext -underBinder +onlyGivenNames x0
  extract_lets -merge -useContext -underBinder +onlyGivenNames x1
  have h1 : Frame P s0 x1 := by
    unfold x1
    refine State.setLine_frame ?_ _ _ (Sub.le (by decide) hp)
    exact h
  refine Frame.ite (fun _ => ?_) (fun _ => ?_)
  · refine State.raise_frame ?_ _ _ (Sub.le (by decide) hp)
    refine State.qualFail_frame ?_ _ _ _ _ _ (Reg.tileCntGlitch_in _ (hp .regTile rfl)) (Sub.le (by decide) hp)
    exact h1
  · exact h1

theorem State.filterStart_frame {P : Part → Prop} {s0 s : State} (h : Frame P s0 s) (a_k : ℕ) (a_d : ℕ) (hp : Sub 524288 P) :
    Frame P s0 (State.filterStart s a_k a_d) := by
  unfold State.filterStart
  extract_lets -merge -useContext -underBinder +onlyGivenNames x0
  refine State.setLine_frame ?_ _ _ (Sub.le (by decide) hp)
  exact h

theorem execLineTransition_frame {P : Part → Prop} {s0 s : State} (h : Frame P s0 s) (a_k : Fin 256) (a_d : Fin 40) (hp : Sub 3171603646319454492691290597730 P) :
    AnswersIn P s0 (execLineTransition a_k a_d s) := by
  refine ⟨_, rfl, ?_⟩
  extract_lets -merge -useContext -underBinder +onlyGivenNames x0
  extract_lets -merge -useContext -underBinder +onlyGivenNames x1
  extract_lets -merge -useContext -underBinder +onlyGivenNames x2
  have h2 : Frame P s0 x2 := by
    unfold x2
    refine State.rawChange_frame ?_ _ _ (Sub.le (by decide) hp)
    exact h
  refine Frame.ite (fun _ => ?_) (fun _ => ?_)
  · refine State.setLine_frame ?_ _ _ (Sub.le (by decide) hp)
    exact h2
  · split
    · refine Frame.ite (fun _ => ?_) (fun _ => ?_)
      · refine State.filterStart_frame ?_ _ _ (Sub.le (by decide) hp)
        refine State.filterEnds_frame ?_ _ _ (Sub.le (by decide) hp)
        exact h2
      · refine State.glitch_frame ?_ _ _ _ (Sub.le (by decide) hp)
        exact h2
    · refine State.filterStart_frame ?_ _ _ (Sub.le (by decide) hp)
      exact h2

theorem execEdgeQualified_frame {P : Part → Prop} {s0 s : State} (h : Frame P s0 s) (a_k : Fin 256) (hp : Sub 3171603646319454492691290597730 P) :
    AnswersIn P s0 (execEdgeQualified a_k s) := by
  refine ⟨_, rfl, ?_⟩
  split
  · refine Frame.ite (fun _ => ?_) (fun _ => ?_)
    · refine State.filterEnds_frame ?_ _ _ (Sub.le (by decide) hp)
      exact h
    · exact h
  · exact h

theorem State.dormantStamp_frame {P : Part → Prop} {s0 s : State} (h : Frame P s0 s) (a_k : ℕ) (hp : Sub 633826509113721291672368392450 P) :
    Frame P s0 (State.dormantStamp s a_k) := by
  unfold State.dormantStamp
  split
  · refine State.asleepEdge_frame ?_ _ _ _ _ _ (Sub.le (by decide) hp)
    refine State.setLine_frame ?_ _ _ (Sub.le (by decide) hp)
    exact h
  · exact h

theorem State.dormantStamps_frame {P : Part → Prop} {s0 s : State} (h : Frame P s0 s)  (hp : Sub 633826509113721291672368392450 P) :
    Frame P s0 (State.dormantStamps s) := by
  unfold State.dormantStamps
  refine Frame.foldl ?_ (fun y0 a0 h0 => ?_)
  · exact h
  · refine State.dormantStamp_frame ?_ _ (Sub.le (by decide) hp)
    exact h0

theorem execMaxWidthExpiry_frame {P : Part → Prop} {s0 s : State} (h : Frame P s0 s) (a_k : Fin 256) (hp : Sub 1246780844296890389047586 P) :
    AnswersIn P s0 (execMaxWidthExpiry a_k s) := by
  refine ⟨_, rfl, ?_⟩
  extract_lets -merge -useContext -underBinder +onlyGivenNames x0
  extract_lets -merge -useContext -underBinder +onlyGivenNames x1
  extract_lets -merge -useContext -underBinder +onlyGivenNames x2
  refine Frame.ite (fun _ => ?_) (fun _ => ?_)
  · refine State.lineFail_frame ?_ _ _ _ _ (Reg.chCntMaxWidth_in _ (hp .regCh rfl)) (Sub.le (by decide) hp)
    refine State.setLine_frame ?_ _ _ (Sub.le (by decide) hp)
    exact h
  · exact h

theorem execIdleExpiry_frame {P : Part → Prop} {s0 s : State} (h : Frame P s0 s) (a_k : Fin 256) (hp : Sub 1246780844296890389047586 P) :
    AnswersIn P s0 (execIdleExpiry a_k s) := by
  refine ⟨_, rfl, ?_⟩
  extract_lets -merge -useContext -underBinder +onlyGivenNames x0
  extract_lets -merge -useContext -underBinder +onlyGivenNames x1
  extract_lets -merge -useContext -underBinder +onlyGivenNames x2
  refine Frame.ite (fun _ => ?_) (fun _ => ?_)
  · refine State.lineFail_frame ?_ _ _ _ _ (Reg.chCntIdle_in _ (hp .regCh rfl)) (Sub.le (by decide) hp)
    refine State.setLine_frame ?_ _ _ (Sub.le (by decide) hp)
    exact h
  · exact h

theorem State.blockEdge_frame {P : Part → Prop} {s0 s : State} (h : Frame P s0 s) (a_k : ℕ) (hp : Sub 3171603646317148649682076903746 P) :
    Frame P s0 (State.blockEdge s a_k) := by
  unfold State.blockEdge
  extract_lets -merge -useContext -underBinder +onlyGivenNames x0
  refine Frame.ite (fun _ => ?_) (fun _ => ?_)
  · exact h
  · split
    · refine State.deliverEdge_frame ?_ _ _ _ _ _ (Sub.le (by decide) hp)
      refine State.lineWake_frame ?_ _ (Sub.le (by decide) hp)
      exact h
    · exact h

theorem State.bucketEmpty_frame {P : Part → Prop} {s0 s : State} (h : Frame P s0 s) (a_k : ℕ) (hp : Sub 3171603646319454492691290597730 P) :
    Frame P s0 (State.bucketEmpty s a_k) := by
  unfold State.bucketEmpty
  extract_lets -merge -useContext -underBinder +onlyGivenNames x0
  extract_lets -merge -useContext -underBinder +onlyGivenNames x1
  extract_lets -merge -useContext -underBinder +onlyGivenNames x2
  have h2 : Frame P s0 x2 := by
    unfold x2
    refine State.setLine_frame ?_ _ _ (Sub.le (by decide) hp)
    exact h
  refine Frame.ite (fun _ => ?_) (fun _ => ?_)
  · refine State.setLine_frame ?_ _ _ (Sub.le (by decide) hp)
    exact h2
  · extract_lets -merge -useContext -underBinder +onlyGivenNames x3
    have h3 : Frame P s0 x3 := by
      unfold x3
      refine State.qualClear_frame ?_ _ _ _ _ (Sub.le (by decide) hp)
      exact h2
    refine Frame.ite (fun _ => ?_) (fun _ => ?_)
    · refine State.chatterPost_frame ?_ _ _ (Sub.le (by decide) hp)
      refine State.blockEdge_frame ?_ _ (Sub.le (by decide) hp)
      exact h3
    · exact h3

theorem execLeakTick_frame {P : Part → Prop} {s0 s : State} (h : Frame P s0 s) (a_k : Fin 256) (hp : Sub 3171603646319454492691290597730 P) :
    AnswersIn P s0 (execLeakTick a_k s) := by
  refine ⟨_, rfl, ?_⟩
  extract_lets -merge -useContext -underBinder +onlyGivenNames x0
  refine Frame.ite (fun _ => ?_) (fun _ => ?_)
  · exact h
  · extract_lets -merge -useContext -underBinder +onlyGivenNames x1
    have h1 : Frame P s0 x1 := by
      unfold x1
      refine State.setLine_frame ?_ _ _ (Sub.le (by decide) hp)
      exact h
    refine Frame.ite (fun _ => ?_) (fun _ => ?_)
    · refine State.bucketEmpty_frame ?_ _ (Sub.le (by decide) hp)
      exact h1
    · exact h1

theorem State.bankSee_frame {P : Part → Prop} {s0 s : State} (h : Frame P s0 s) (a_t : ℕ) (a_v : Sys2Proof.BankLevel) (hp : Sub 1048576 P) :
    Frame P s0 (State.bankSee s a_t a_v) := by
  unfold State.bankSee
  refine State.setTile_frame ?_ _ _ (Sub.le (by decide) hp)
  exact h

theorem execVddioWindowChange_frame {P : Part → Prop} {s0 s : State} (h : Frame P s0 s) (a_t : Fin 8) (a_v : Sys2Proof.BankLevel) (hp : Sub 1048576 P) :
    AnswersIn P s0 (execVddioWindowChange a_t a_v s) := by
  refine ⟨_, rfl, ?_⟩
  refine State.bankSee_frame ?_ _ _ (Sub.le (by decide) hp)
  exact h

theorem State.bankStands_frame {P : Part → Prop} {s0 s : State} (h : Frame P s0 s) (a_t : ℕ) (a_b : Bool) (hp : Sub 32 P) :
    Frame P s0 (State.bankStands s a_t a_b) := by
  unfold State.bankStands
  extract_lets -merge -useContext -underBinder +onlyGivenNames x0
  refine State.setCheck_frame ?_ _ _ _ (Sub.le (by decide) hp)
  exact h

theorem execBankCheckFail_frame {P : Part → Prop} {s0 s : State} (h : Frame P s0 s) (a_t : Fin 8) (hp : Sub 634213365378303816017586628898 P) :
    AnswersIn P s0 (execBankCheckFail a_t s) := by
  refine ⟨_, rfl, ?_⟩
  extract_lets -merge -useContext -underBinder +onlyGivenNames x0
  refine Frame.ite (fun _ => ?_) (fun _ => ?_)
  · exact h
  · extract_lets -merge -useContext -underBinder +onlyGivenNames x1
    have h1 : Frame P s0 x1 := by
      unfold x1
      refine State.setTile_frame ?_ _ _ (Sub.le (by decide) hp)
      exact h
    extract_lets -merge -useContext -underBinder +onlyGivenNames x2
    have h2 : Frame P s0 x2 := by
      unfold x2
      refine Frame.foldl ?_ (fun y3 a3 h3 => ?_)
      · exact h1
      · refine State.setLine_frame ?_ _ _ (Sub.le (by decide) hp)
        exact h3
    refine Frame.ite (fun _ => ?_) (fun _ => ?_)
    · refine State.leaseFault_frame ?_ _ (Sub.le (by decide) hp)
      refine State.qualFail_frame ?_ _ _ _ _ _ (Reg.tileCntBank_in _ (hp .regTile rfl)) (Sub.le (by decide) hp)
      refine State.raise_frame ?_ _ _ (Sub.le (by decide) hp)
      exact h2
    · refine State.bankStands_frame ?_ _ _ (Sub.le (by decide) hp)
      exact h2

theorem State.bankEdge_frame {P : Part → Prop} {s0 s : State} (h : Frame P s0 s) (a_k : ℕ) (hp : Sub 3171603646319454492691290597730 P) :
    Frame P s0 (State.bankEdge s a_k) := by
  unfold State.bankEdge
  extract_lets -merge -useContext -underBinder +onlyGivenNames x0
  extract_lets -merge -useContext -underBinder +onlyGivenNames x1
  have h1 : Frame P s0 x1 := by
    unfold x1
    refine State.setLine_frame ?_ _ _ (Sub.le (by decide) hp)
    exact h
  extract_lets -merge -useContext -underBinder +onlyGivenNames x2
  refine Frame.ite (fun _ => ?_) (fun _ => ?_)
  · refine Frame.ite (fun _ => ?_) (fun _ => ?_)
    · exact h1
    · refine State.setLine_frame ?_ _ _ (Sub.le (by decide) hp)
      exact h1
  · refine Frame.ite (fun _ => ?_) (fun _ => ?_)
    · refine State.setLine_frame ?_ _ _ (Sub.le (by decide) hp)
      exact h1
    · refine State.qualifyEdge_frame ?_ _ _ _ _ _ (Sub.le (by decide) hp)
      exact h1

theorem execBankCheckClear_frame {P : Part → Prop} {s0 s : State} (h : Frame P s0 s) (a_t : Fin 8) (hp : Sub 3171603646319454492691290597730 P) :
    AnswersIn P s0 (execBankCheckClear a_t s) := by
  refine ⟨_, rfl, ?_⟩
  extract_lets -merge -useContext -underBinder +onlyGivenNames x0
  refine Frame.ite (fun _ => ?_) (fun _ => ?_)
  · exact h
  · extract_lets -merge -useContext -underBinder +onlyGivenNames x1
    have h1 : Frame P s0 x1 := by
      unfold x1
      refine State.setTile_frame ?_ _ _ (Sub.le (by decide) hp)
      exact h
    extract_lets -merge -useContext -underBinder +onlyGivenNames x2
    have h2 : Frame P s0 x2 := by
      unfold x2
      refine Frame.ite (fun _ => ?_) (fun _ => ?_)
      · refine State.qualClear_frame ?_ _ _ _ _ (Sub.le (by decide) hp)
        refine State.raise_frame ?_ _ _ (Sub.le (by decide) hp)
        exact h1
      · refine State.bankStands_frame ?_ _ _ (Sub.le (by decide) hp)
        exact h1
    refine Frame.foldl ?_ (fun y3 a3 h3 => ?_)
    · exact h2
    · refine State.bankEdge_frame ?_ _ (Sub.le (by decide) hp)
      exact h3

theorem State.bankCfgWrite_frame {P : Part → Prop} {s0 s : State} (h : Frame P s0 s) (a_t : ℕ) (a_v : Sys2Proof.Word) (hp : Sub 633825300114114700748352651264 P) :
    Frame P s0 (State.bankCfgWrite s a_t a_v) := by
  unfold State.bankCfgWrite
  extract_lets -merge -useContext -underBinder +onlyGivenNames x0
  have h0 : Frame P s0 x0 := by
    unfold x0
    refine State.wr_frame ?_ _ _ (Reg.tileBankCfg_in _ (hp .regTile rfl)) (Sub.le (by decide) hp)
    exact h
  refine Frame.ite (fun _ => ?_) (fun _ => ?_)
  · refine State.bankSee_frame ?_ _ _ (Sub.le (by decide) hp)
    exact h0
  · exact h0

theorem State.safeAll_frame {P : Part → Prop} {s0 s : State} (h : Frame P s0 s)  (hp : Sub 524288 P) :
    Frame P s0 (State.safeAll s) := by
  unfold State.safeAll
  refine Frame.foldl ?_ (fun y0 a0 h0 => ?_)
  · exact h
  · extract_lets -merge -useContext -underBinder +onlyGivenNames x1
    have h1 : Frame P s0 x1 := by
      unfold x1
      refine State.safeEnter_frame ?_ _ (Sub.le (by decide) hp)
      exact h0
    refine State.setLine_frame ?_ _ _ (Sub.le (by decide) hp)
    exact h1

theorem State.hubClear_frame {P : Part → Prop} {s0 s : State} (_ : Frame P s0 s) (wake : Bool) (hp : Sub 40564819207303340847894502572031 P) :
    Frame P s0 (s.hubClear wake) := Frame.all hp

theorem State.noteReset_frame {P : Part → Prop} {s0 s : State} (h : Frame P s0 s) (a_cause : ℕ) (hp : Sub 9903520314283042199192993792 P) :
    Frame P s0 (State.noteReset s a_cause) := by
  unfold State.noteReset
  extract_lets -merge -useContext -underBinder +onlyGivenNames x0
  have h0 : Frame P s0 x0 := by
    unfold x0
    refine State.wr_frame ?_ _ _ (Reg.rstLastNs_in (hp .regRst rfl)) (Sub.le (by decide) hp)
    refine State.wr_frame ?_ _ _ (Reg.rstLastSec_in (hp .regRst rfl)) (Sub.le (by decide) hp)
    refine State.wr_frame ?_ _ _ (Reg.rstLastCause_in (hp .regRst rfl)) (Sub.le (by decide) hp)
    exact h
  refine Frame.ite (fun _ => ?_) (fun _ => ?_)
  · exact h0
  · refine State.bump_frame ?_ _ (Reg.rstCnt_in _ (hp .regRst rfl)) (Sub.le (by decide) hp)
    exact h0

theorem State.hubRelease_frame {P : Part → Prop} {s0 s : State} (h : Frame P s0 s)  (hp : Sub 4611697013543665664 P) :
    Frame P s0 (State.hubRelease s) := by
  unfold State.hubRelease
  extract_lets -merge -useContext -underBinder +onlyGivenNames x0
  refine Frame.set_net_power_clk ?_ (hp .net rfl) (hp .power rfl) (hp .clk rfl) _ _ _
  exact h

theorem State.hubReset_frame {P : Part → Prop} {s0 s : State} (_ : Frame P s0 s) (a_cause : ℕ) (hp : Sub 40564819207303340847894502572031 P) :
    Frame P s0 (State.hubReset s a_cause) := Frame.all hp

theorem State.hubHold_frame {P : Part → Prop} {s0 s : State} (_ : Frame P s0 s) (a_cause : ℕ) (hp : Sub 40564819207303340847894502572031 P) :
    Frame P s0 (State.hubHold s a_cause) := Frame.all hp

theorem State.setDrl_frame {P : Part → Prop} {s0 s : State} (h : Frame P s0 s) (a_n : ℕ) (a_f : Sys2Proof.Machine.DrillEnt → Sys2Proof.Machine.DrillEnt) (hp : Sub 1073741824 P) :
    Frame P s0 (State.setDrl s a_n a_f) := by
  unfold State.setDrl
  refine Frame.set_drill ?_ (hp .drill rfl) _
  exact h

theorem State.drillLate_frame {P : Part → Prop} {s0 s : State} (h : Frame P s0 s) (a_n : ℕ) (a_flags : ℕ) (a_missed : ℕ) (a_w : Sys2Proof.TimePoint) (a_t : Sys2Proof.TimePoint) (hp : Sub 1208999606590924013119746 P) :
    Frame P s0 (State.drillLate s a_n a_flags a_missed a_w a_t) := by
  unfold State.drillLate
  refine State.postAt_frame ?_ _ _ _ _ _ _ _ _ _ _ (Sub.le (by decide) hp)
  refine State.raise_frame ?_ _ _ (Sub.le (by decide) hp)
  exact h

theorem State.drillDone_frame {P : Part → Prop} {s0 s : State} (h : Frame P s0 s) (a_n : ℕ) (a_flags : ℕ) (a_w : Sys2Proof.TimePoint) (a_t : Sys2Proof.TimePoint) (hp : Sub 1208999606590924013119746 P) :
    Frame P s0 (State.drillDone s a_n a_flags a_w a_t) := by
  unfold State.drillDone
  refine State.postAt_frame ?_ _ _ _ _ _ _ _ _ _ _ (Sub.le (by decide) hp)
  refine State.raise_frame ?_ _ _ (Sub.le (by decide) hp)
  exact h

theorem State.drillConsume_frame {P : Part → Prop} {s0 s : State} (h : Frame P s0 s) (a_n : ℕ) (a_m : ℕ) (hp : Sub 1073741824 P) :
    Frame P s0 (State.drillConsume s a_n a_m) := by
  unfold State.drillConsume
  refine State.setDrl_frame ?_ _ _ (Sub.le (by decide) hp)
  exact h

theorem State.drillJudge_frame {P : Part → Prop} {s0 s : State} (h : Frame P s0 s) (a_n : ℕ) (a_now : Sys2Proof.TimePoint) (a_step : Bool) (hp : Sub 1813462516398239674214658 P) :
    Frame P s0 (State.drillJudge s a_n a_now a_step) := by
  unfold State.drillJudge
  extract_lets -merge -useContext -underBinder +onlyGivenNames x0
  extract_lets -merge -useContext -underBinder +onlyGivenNames x1
  extract_lets -merge -useContext -underBinder +onlyGivenNames x2
  extract_lets -merge -useContext -underBinder +onlyGivenNames x3
  have h3 : Frame P s0 x3 := by
    unfold x3
    refine State.drillLate_frame ?_ _ _ _ _ _ (Sub.le (by decide) hp)
    exact h
  extract_lets -merge -useContext -underBinder +onlyGivenNames x4
  have h4 : Frame P s0 x4 := by
    unfold x4
    refine State.drillConsume_frame ?_ _ _ (Sub.le (by decide) hp)
    refine State.bumpBy_frame ?_ _ _ (Reg.drlCntLateSkip_in (hp .regDrl rfl)) (Sub.le (by decide) hp)
    exact h3
  extract_lets -merge -useContext -underBinder +onlyGivenNames x5
  have h5 : Frame P s0 x5 := by
    unfold x5
    refine Frame.ite (fun _ => ?_) (fun _ => ?_)
    · refine State.setDrl_frame ?_ _ _ (Sub.le (by decide) hp)
      exact h4
    · exact h4
  extract_lets -merge -useContext -underBinder +onlyGivenNames x6
  extract_lets -merge -useContext -underBinder +onlyGivenNames x7
  have h7 : Frame P s0 x7 := by
    unfold x7
    refine Frame.ite (fun _ => ?_) (fun _ => ?_)
    · exact h
    · refine Frame.ite (fun _ => ?_) (fun _ => ?_)
      · refine State.drillDone_frame ?_ _ _ _ _ (Sub.le (by decide) hp)
        exact h5
      · exact h5
  refine State.setDrl_frame ?_ _ _ (Sub.le (by decide) hp)
  exact h7

theorem State.drillArm_frame {P : Part → Prop} {s0 s : State} (h : Frame P s0 s) (a_n : ℕ) (a_now : Sys2Proof.TimePoint) (hp : Sub 1813462516398239674214658 P) :
    Frame P s0 (State.drillArm s a_n a_now) := by
  unfold State.drillArm
  refine State.drillJudge_frame ?_ _ _ _ (Sub.le (by decide) hp)
  refine State.setDrl_frame ?_ _ _ (Sub.le (by decide) hp)
  exact h

theorem State.drillRefused_frame {P : Part → Prop} {s0 s : State} (h : Frame P s0 s)  (hp : Sub 604536696783609425764354 P) :
    Frame P s0 (State.drillRefused s) := by
  unfold State.drillRefused
  refine State.raise_frame ?_ _ _ (Sub.le (by decide) hp)
  refine State.bump_frame ?_ _ (Reg.drlCntRefused_in (hp .regDrl rfl)) (Sub.le (by decide) hp)
  exact h

theorem State.drillReflexArm_frame {P : Part → Prop} {s0 s : State} (h : Frame P s0 s) (a_n : ℕ) (a_now : Sys2Proof.TimePoint) (hp : Sub 1813462516398239674214658 P) :
    Frame P s0 (State.drillReflexArm s a_n a_now) := by
  unfold State.drillReflexArm
  extract_lets -merge -useContext -underBinder +onlyGivenNames x0
  refine Frame.ite (fun _ => ?_) (fun _ => ?_)
  · exact h
  · refine Frame.ite (fun _ => ?_) (fun _ => ?_)
    · refine State.drillArm_frame ?_ _ _ (Sub.le (by decide) hp)
      exact h
    · refine State.drillRefused_frame ?_  (Sub.le (by decide) hp)
      exact h

theorem State.drillDisarm_frame {P : Part → Prop} {s0 s : State} (h : Frame P s0 s) (a_n : ℕ) (hp : Sub 1073741824 P) :
    Frame P s0 (State.drillDisarm s a_n) := by
  unfold State.drillDisarm
  refine State.setDrl_frame ?_ _ _ (Sub.le (by decide) hp)
  exact h

theorem State.drillStepCheck_frame {P : Part → Prop} {s0 s : State} (h : Frame P s0 s)  (hp : Sub 1813462516398239674214658 P) :
    Frame P s0 (State.drillStepCheck s) := by
  unfold State.drillStepCheck
  refine Frame.foldl ?_ (fun y0 a0 h0 => ?_)
  · exact h
  · refine Frame.ite (fun _ => ?_) (fun _ => ?_)
    · refine State.drillJudge_frame ?_ _ _ _ (Sub.le (by decide) hp)
      refine State.setDrl_frame ?_ _ _ (Sub.le (by decide) hp)
      exact h0
    · exact h0

theorem State.drillEcc_frame {P : Part → Prop} {s0 s : State} (h : Frame P s0 s) (a_n : ℕ) (a_ecc : Sys2Proof.ReadEcc) (hp : Sub 388065261883272261093501314 P) :
    Frame P s0 (State.drillEcc s a_n a_ecc) := by
  unfold State.drillEcc
  refine Frame.ite (fun _ => ?_) (fun _ => ?_)
  · refine State.memEcc_frame ?_ _ _ _ (Sub.le (by decide) hp)
    exact h
  · refine State.memEcc_frame ?_ _ _ _ (Sub.le (by decide) hp)
    refine Frame.set_drill ?_ (hp .drill rfl) _
    exact h

theorem State.drlCommand_frame {P : Part → Prop} {s0 s : State} (h : Frame P s0 s) (a_arg : BitVec 16) (a_f : ℕ → Sys2Proof.Machine.State → Sys2Proof.Machine.MbxAns × Sys2Proof.Machine.State) (Ha_f : ∀ z0 z1, Frame P s0 z1 → Frame P s0 (a_f z0 z1).2) (hp : Sub 147573952589676412932 P) :
    Frame P s0 (State.drlCommand s a_arg a_f) := by
  unfold State.drlCommand
  refine State.mbxCommand_frame ?_ _ _ (fun y0 h0 => ?_) (Sub.le (by decide) hp)
  · exact h
  · refine Frame.ite2 (fun _ => ?_) (fun _ => ?_)
    · refine Frame.pair2 ?_
      exact h0
    · refine Ha_f _ _ ?_
      exact h0

theorem State.drlReading_frame {P : Part → Prop} {s0 s : State} (h : Frame P s0 s) (a_arg : BitVec 16) (a_ecc : Sys2Proof.ReadEcc) (a_f : ℕ → Sys2Proof.Machine.State → Sys2Proof.Machine.MbxAns × Sys2Proof.Machine.State) (Ha_f : ∀ z0 z1, Frame P s0 z1 → Frame P s0 (a_f z0 z1).2) (hp : Sub 388065409457224850769914246 P) :
    Frame P s0 (State.drlReading s a_arg a_ecc a_f) := by
  unfold State.drlReading
  refine State.drlCommand_frame ?_ _ _ (fun _ y0 h0 => ?_) (Sub.le (by decide) hp)
  · exact h
  · extract_lets -merge -useContext -underBinder +onlyGivenNames x1
    have h1 : Frame P s0 x1 := by
      unfold x1
      refine State.drillEcc_frame ?_ _ _ (Sub.le (by decide) hp)
      exact h0
    refine Frame.ite2 (fun _ => ?_) (fun _ => ?_)
    · refine Ha_f _ _ ?_
      exact h1
    · refine Frame.pair2 ?_
      exact h1

theorem execDrlLoadTime_frame {P : Part → Prop} {s0 s : State} (h : Frame P s0 s) (a_arg : BitVec 16) (hp : Sub 147573952590750154756 P) :
    AnswersIn P s0 (execDrlLoadTime a_arg s) := by
  refine ⟨_, rfl, ?_⟩
  refine State.drlCommand_frame ?_ _ _ (fun _ y0 h0 => ?_) (Sub.le (by decide) hp)
  · exact h
  · extract_lets -merge -useContext -underBinder +onlyGivenNames x1
    refine Frame.ite2 (fun _ => ?_) (fun _ => ?_)
    · refine Frame.pair2 ?_
      exact h0
    · refine Frame.ite2 (fun _ => ?_) (fun _ => ?_)
      · refine Frame.pair2 ?_
        exact h0
      · refine Frame.pair2 ?_
        refine State.setDrl_frame ?_ _ _ (Sub.le (by decide) hp)
        exact h0

theorem execDrlLoadAction_frame {P : Part → Prop} {s0 s : State} (h : Frame P s0 s) (a_arg : BitVec 16) (hp : Sub 147573952590750154756 P) :
    AnswersIn P s0 (execDrlLoadAction a_arg s) := by
  refine ⟨_, rfl, ?_⟩
  refine State.drlCommand_frame ?_ _ _ (fun _ y0 h0 => ?_) (Sub.le (by decide) hp)
  · exact h
  · extract_lets -merge -useContext -underBinder +onlyGivenNames x1
    refine Frame.ite2 (fun _ => ?_) (fun _ => ?_)
    · refine Frame.pair2 ?_
      exact h0
    · refine Frame.ite2 (fun _ => ?_) (fun _ => ?_)
      · refine Frame.pair2 ?_
        exact h0
      · refine Frame.pair2 ?_
        refine State.setDrl_frame ?_ _ _ (Sub.le (by decide) hp)
        exact h0

theorem execDrlArm_frame {P : Part → Prop} {s0 s : State} (h : Frame P s0 s) (a_arg : BitVec 16) (a_ecc : Sys2Proof.ReadEcc) (hp : Sub 388669872367032165357267334 P) :
    AnswersIn P s0 (execDrlArm a_arg a_ecc s) := by
  refine ⟨_, rfl, ?_⟩
  refine State.drlReading_frame ?_ _ _ _ (fun _ y0 h0 => ?_) (Sub.le (by decide) hp)
  · exact h
  · extract_lets -merge -useContext -underBinder +onlyGivenNames x1
    refine Frame.ite2 (fun _ => ?_) (fun _ => ?_)
    · refine Frame.pair2 ?_
      exact h0
    · refine Frame.ite2 (fun _ => ?_) (fun _ => ?_)
      · refine Frame.pair2 ?_
        exact h0
      · extract_lets -merge -useContext -underBinder +onlyGivenNames x2
        extract_lets -merge -useContext -underBinder +onlyGivenNames x3
        extract_lets -merge -useContext -underBinder +onlyGivenNames x4
        extract_lets -merge -useContext -underBinder +onlyGivenNames x5
        have h5 : Frame P s0 x5 := by
          unfold x5
          refine State.drillArm_frame ?_ _ _ (Sub.le (by decide) hp)
          exact h0
        refine Frame.pair2 ?_
        exact h5

theorem execDrlDisarm_frame {P : Part → Prop} {s0 s : State} (h : Frame P s0 s) (a_arg : BitVec 16) (hp : Sub 147573952590750154756 P) :
    AnswersIn P s0 (execDrlDisarm a_arg s) := by
  refine ⟨_, rfl, ?_⟩
  refine State.drlCommand_frame ?_ _ _ (fun _ y0 h0 => ?_) (Sub.le (by decide) hp)
  · exact h
  · refine Frame.pair2 ?_
    refine State.drillDisarm_frame ?_ _ (Sub.le (by decide) hp)
    exact h0

theorem execDrlReadTime_frame {P : Part → Prop} {s0 s : State} (h : Frame P s0 s) (a_arg : BitVec 16) (a_ecc : Sys2Proof.ReadEcc) (hp : Sub 388065409457224850769914246 P) :
    AnswersIn P s0 (execDrlReadTime a_arg a_ecc s) := by
  refine ⟨_, rfl, ?_⟩
  refine State.drlReading_frame ?_ _ _ _ (fun _ y0 h0 => ?_) (Sub.le (by decide) hp)
  · exact h
  · extract_lets -merge -useContext -underBinder +onlyGivenNames x1
    refine Frame.pair2 ?_
    exact h0

theorem execDrlReadAction_frame {P : Part → Prop} {s0 s : State} (h : Frame P s0 s) (a_arg : BitVec 16) (a_ecc : Sys2Proof.ReadEcc) (hp : Sub 388065409457224850769914246 P) :
    AnswersIn P s0 (execDrlReadAction a_arg a_ecc s) := by
  refine ⟨_, rfl, ?_⟩
  refine State.drlReading_frame ?_ _ _ _ (fun _ y0 h0 => ?_) (Sub.le (by decide) hp)
  · exact h
  · extract_lets -merge -useContext -underBinder +onlyGivenNames x1
    refine Frame.pair2 ?_
    exact h0

theorem execDrlReadState_frame {P : Part → Prop} {s0 s : State} (h : Frame P s0 s) (a_arg : BitVec 16) (a_ecc : Sys2Proof.ReadEcc) (hp : Sub 388065409457224850769914246 P) :
    AnswersIn P s0 (execDrlReadState a_arg a_ecc s) := by
  refine ⟨_, rfl, ?_⟩
  refine State.drlReading_frame ?_ _ _ _ (fun _ y0 h0 => ?_) (Sub.le (by decide) hp)
  · exact h
  · extract_lets -merge -useContext -underBinder +onlyGivenNames x1
    refine Frame.pair2 ?_
    exact h0

theorem execDrlClear_frame {P : Part → Prop} {s0 s : State} (h : Frame P s0 s) (a_arg : BitVec 16) (hp : Sub 147573952590750154756 P) :
    AnswersIn P s0 (execDrlClear a_arg s) := by
  refine ⟨_, rfl, ?_⟩
  refine State.drlCommand_frame ?_ _ _ (fun _ y0 h0 => ?_) (Sub.le (by decide) hp)
  · exact h
  · refine Frame.ite2 (fun _ => ?_) (fun _ => ?_)
    · refine Frame.pair2 ?_
      exact h0
    · refine Frame.pair2 ?_
      refine Frame.set_drill ?_ (hp .drill rfl) _
      exact h0

theorem State.drlSoftReset_frame {P : Part → Prop} {s0 s : State} (h : Frame P s0 s)  (hp : Sub 3221225472 P) :
    Frame P s0 (State.drlSoftReset s) := by
  unfold State.drlSoftReset
  refine Frame.foldl ?_ (fun y0 a0 h0 => ?_)
  · refine Frame.set_launches ?_ (hp .launches rfl) _
    exact h
  · refine State.setDrl_frame ?_ _ _ (Sub.le (by decide) hp)
    refine State.drillDisarm_frame ?_ _ (Sub.le (by decide) hp)
    exact h0

theorem execDrillPrepare_frame {P : Part → Prop} {s0 s : State} (h : Frame P s0 s) (a_n : Fin 4096) (a_ecc : Sys2Proof.ReadEcc) (hp : Sub 634213365375997973009446152578 P) :
    AnswersIn P s0 (execDrillPrepare a_n a_ecc s) := by
  refine ⟨_, rfl, ?_⟩
  extract_lets -merge -useContext -underBinder +onlyGivenNames x0
  refine Frame.ite (fun _ => ?_) (fun _ => ?_)
  · extract_lets -merge -useContext -underBinder +onlyGivenNames x1
    have h1 : Frame P s0 x1 := by
      unfold x1
      refine State.drillEcc_frame ?_ _ _ (Sub.le (by decide) hp)
      exact h
    refine Frame.ite (fun _ => ?_) (fun _ => ?_)
    · refine Frame.foldl ?_ (fun y2 a2 h2 => ?_)
      · refine State.setDrl_frame ?_ _ _ (Sub.le (by decide) hp)
        exact h1
      · refine Frame.ite (fun _ => ?_) (fun _ => ?_)
        · refine State.tileWake_frame ?_ _ (Sub.le (by decide) hp)
          exact h2
        · exact h2
    · exact h1
  · exact h

theorem State.setNet_frame {P : Part → Prop} {s0 s : State} (h : Frame P s0 s) (a_f : Sys2Proof.Machine.NetSt → Sys2Proof.Machine.NetSt) (hp : Sub 2199023255552 P) :
    Frame P s0 (State.setNet s a_f) := by
  unfold State.setNet
  refine Frame.set_net ?_ (hp .net rfl) _
  exact h

theorem State.setQueue_frame {P : Part → Prop} {s0 s : State} (h : Frame P s0 s) (a_port : ℕ) (a_cls : ℕ) (a_q : List Sys2Proof.Machine.QFrame) (hp : Sub 2199023255552 P) :
    Frame P s0 (State.setQueue s a_port a_cls a_q) := by
  unfold State.setQueue
  refine State.setNet_frame ?_ _ (Sub.le (by decide) hp)
  exact h

theorem State.setSending_frame {P : Part → Prop} {s0 s : State} (h : Frame P s0 s) (a_port : ℕ) (a_x : Sys2Proof.Machine.Sending) (hp : Sub 2199023255552 P) :
    Frame P s0 (State.setSending s a_port a_x) := by
  unfold State.setSending
  refine State.setNet_frame ?_ _ (Sub.le (by decide) hp)
  exact h

theorem State.spillCheck_frame {P : Part → Prop} {s0 s : State} (h : Frame P s0 s)  (hp : Sub 1208999606593123036375298 P) :
    Frame P s0 (State.spillCheck s) := by
  unfold State.spillCheck
  extract_lets -merge -useContext -underBinder +onlyGivenNames x0
  refine Frame.ite (fun _ => ?_) (fun _ => ?_)
  · refine Frame.ite (fun _ => ?_) (fun _ => ?_)
    · extract_lets -merge -useContext -underBinder +onlyGivenNames x1
      have h1 : Frame P s0 x1 := by
        unfold x1
        refine State.setNet_frame ?_ _ (Sub.le (by decide) hp)
        exact h
      refine State.post_frame ?_ _ _ _ _ _ _ _ _ (Sub.le (by decide) hp)
      refine State.raise_frame ?_ _ _ (Sub.le (by decide) hp)
      exact h1
    · exact h
  · refine Frame.ite (fun _ => ?_) (fun _ => ?_)
    · extract_lets -merge -useContext -underBinder +onlyGivenNames x2
      have h2 : Frame P s0 x2 := by
        unfold x2
        refine State.setNet_frame ?_ _ (Sub.le (by decide) hp)
        exact h
      refine State.post_frame ?_ _ _ _ _ _ _ _ _ (Sub.le (by decide) hp)
      refine State.raise_frame ?_ _ _ (Sub.le (by decide) hp)
      exact h2
    · exact h

theorem State.pushPost_frame {P : Part → Prop} {s0 s : State} (h : Frame P s0 s) (a_port : ℕ) (hp : Sub 1208999606593123036375298 P) :
    Frame P s0 (State.pushPost s a_port) := by
  unfold State.pushPost
  extract_lets -merge -useContext -underBinder +onlyGivenNames x0
  extract_lets -merge -useContext -underBinder +onlyGivenNames x1
  have h1 : Frame P s0 x1 := by
    unfold x1
    refine State.setNet_frame ?_ _ (Sub.le (by decide) hp)
    exact h
  refine State.postAt_frame ?_ _ _ _ _ _ _ _ _ _ _ (Sub.le (by decide) hp)
  refine State.raise_frame ?_ _ _ (Sub.le (by decide) hp)
  exact h1

theorem State.notePush_frame {P : Part → Prop} {s0 s : State} (h : Frame P s0 s) (a_port : ℕ) (a_evicted : ℕ) (a_dropped : ℕ) (a_lastOut : ℕ) (a_lastIn : ℕ) (hp : Sub 1208999606593123036375298 P) :
    Frame P s0 (State.notePush s a_port a_evicted a_dropped a_lastOut a_lastIn) := by
  unfold State.notePush
  refine Frame.ite (fun _ => ?_) (fun _ => ?_)
  · exact h
  · extract_lets -merge -useContext -underBinder +onlyGivenNames x0
    extract_lets -merge -useContext -underBinder +onlyGivenNames x1
    extract_lets -merge -useContext -underBinder +onlyGivenNames x2
    extract_lets -merge -useContext -underBinder +onlyGivenNames x3
    have h3 : Frame P s0 x3 := by
      unfold x3
      refine State.setNet_frame ?_ _ (Sub.le (by decide) hp)
      exact h
    refine Frame.ite (fun _ => ?_) (fun _ => ?_)
    · exact h3
    · refine State.pushPost_frame ?_ _ (Sub.le (by decide) hp)
      exact h3

theorem State.evictOne_frame {P : Part → Prop} {s0 s t : State} (h : Frame P s0 s) (port lim c : Nat) (e : s.evictOne port lim = some (c, t))
    (hp : Sub 9444732967938313682944 P) : Frame P s0 t := by
  unfold State.evictOne at e
  obtain ⟨x, -, hx⟩ := Option.map_eq_some_iff.mp e
  injection hx with _ hx
  subst hx
  exact State.bump_frame (State.setQueue_frame h _ _ _ (Sub.le (by decide) hp)) _
    (Reg.bufCntPushed_in _ (Nat.mod_lt _ (by decide)) (hp .regBuf rfl)) (Sub.le (by decide) hp)
theorem State.evictWhile_frame {P : Part → Prop} {s0 s : State} (h : Frame P s0 s) (port lim : Nat) (more : State → Bool) (n : Nat)
    (hp : Sub 9444732967938313682944 P) : Frame P s0 (s.evictWhile port lim more n).2.2 := by
  induction n generalizing s with
  | zero => exact h
  | succ n ih =>
    unfold State.evictWhile
    split
    · split
      · exact h
      · exact ih (State.evictOne_frame h _ _ _ ‹_› (Sub.le (by decide) hp))
    · exact h

theorem State.pushForShare_frame {P : Part → Prop} {s0 s : State} (h : Frame P s0 s) (a_port : ℕ) (a_cls : ℕ) (a_k : ℕ) (hp : Sub 1218444339558862326802690 P) :
    Frame P s0 (State.pushForShare s a_port a_cls a_k).2 := by
  unfold State.pushForShare
  extract_lets -merge -useContext -underBinder +onlyGivenNames x0
  refine Frame.ite2 (fun _ => ?_) (fun _ => ?_)
  · refine Frame.pair2 ?_
    exact h
  · refine Frame.ite2 (fun _ => ?_) (fun _ => ?_)
    · split
      · next y1_0 y1_1 y1_2 e1 =>
          have g1 : Frame P s0 y1_2 := by
            refine Frame.of22 e1 ?_
            refine State.evictWhile_frame ?_ _ _ _ _ (Sub.le (by decide) hp)
            exact h
          refine Frame.pair2 ?_
          refine State.notePush_frame ?_ _ _ _ _ _ (Sub.le (by decide) hp)
          exact g1
    · refine Frame.pair2 ?_
      exact h

theorem State.pushForCells_frame {P : Part → Prop} {s0 s : State} (h : Frame P s0 s) (a_port : ℕ) (a_cls : ℕ) (a_k : ℕ) (hp : Sub 1218444339558862326802690 P) :
    Frame P s0 (State.pushForCells s a_port a_cls a_k) := by
  unfold State.pushForCells
  refine Frame.ite (fun _ => ?_) (fun _ => ?_)
  · exact h
  · refine Frame.foldl ?_ (fun y0 a0 h0 => ?_)
    · exact h
    · split
      · next y1_0 y1_1 y1_2 e1 =>
          have g1 : Frame P s0 y1_2 := by
            refine Frame.of22 e1 ?_
            refine State.evictWhile_frame ?_ _ _ _ _ (Sub.le (by decide) hp)
            exact h0
          refine State.notePush_frame ?_ _ _ _ _ _ (Sub.le (by decide) hp)
          exact g1

theorem State.dropFrame_frame {P : Part → Prop} {s0 s : State} (h : Frame P s0 s) (a_port : ℕ) (a_cls : ℕ) (a_counter : ℕ) (K_a_counter : RegIn P a_counter) (hp : Sub 1208999606593123036375298 P) :
    Frame P s0 (State.dropFrame s a_port a_cls a_counter) := by
  unfold State.dropFrame
  refine State.notePush_frame ?_ _ _ _ _ _ (Sub.le (by decide) hp)
  refine State.bump_frame ?_ _ K_a_counter (Sub.le (by decide) hp)
  exact h

theorem State.enqueue_frame {P : Part → Prop} {s0 s : State} (h : Frame P s0 s) (a_port : ℕ) (a_f : Sys2Proof.Machine.QFrame) (hp : Sub 1208999606593123036375298 P) :
    Frame P s0 (State.enqueue s a_port a_f) := by
  unfold State.enqueue
  extract_lets -merge -useContext -underBinder +onlyGivenNames x0
  extract_lets -merge -useContext -underBinder +onlyGivenNames x1
  refine State.spillCheck_frame ?_  (Sub.le (by decide) hp)
  refine State.setQueue_frame ?_ _ _ _ (Sub.le (by decide) hp)
  exact h

theorem State.admitAs_frame {P : Part → Prop} {s0 s : State} (h : Frame P s0 s) (a_port : ℕ) (a_f : Sys2Proof.Machine.QFrame) (hp : Sub 3636295978788120676215042 P) :
    Frame P s0 (State.admitAs s a_port a_f).2 := by
  unfold State.admitAs
  extract_lets -merge -useContext -underBinder +onlyGivenNames x0
  refine Frame.ite2 (fun _ => ?_) (fun _ => ?_)
  · refine Frame.pair2 ?_
    refine State.bump_frame ?_ _ (Reg.fpCntTxDiscardDown_in _ (hp .regFp rfl)) (Sub.le (by decide) hp)
    exact h
  · refine Frame.ite2 (fun _ => ?_) (fun _ => ?_)
    · refine Frame.pair2 ?_
      refine State.dropFrame_frame ?_ _ _ _ (Reg.bufCntDropFloor_in _ (by omega) (hp .regBuf rfl)) (Sub.le (by decide) hp)
      exact h
    · split
      · next y1_0 y1_1 e1 =>
          have g1 : Frame P s0 y1_1 := by
            refine Frame.of2 e1 ?_
            refine State.pushForShare_frame ?_ _ _ _ (Sub.le (by decide) hp)
            exact h
          refine Frame.ite2 (fun _ => ?_) (fun _ => ?_)
          · refine Frame.pair2 ?_
            refine State.dropFrame_frame ?_ _ _ _ (Reg.bufCntDropShare_in _ (by omega) (hp .regBuf rfl)) (Sub.le (by decide) hp)
            exact g1
          · extract_lets -merge -useContext -underBinder +onlyGivenNames x2
            have h2 : Frame P s0 x2 := by
              unfold x2
              refine Frame.ite (fun _ => ?_) (fun _ => ?_)
              · refine State.pushForCells_frame ?_ _ _ _ (Sub.le (by decide) hp)
                exact g1
              · exact g1
            refine Frame.ite2 (fun _ => ?_) (fun _ => ?_)
            · refine Frame.pair2 ?_
              refine State.dropFrame_frame ?_ _ _ _ (Reg.bufCntDropFloor_in _ (by omega) (hp .regBuf rfl)) (Sub.le (by decide) hp)
              exact h2
            · refine Frame.pair2 ?_
              refine State.enqueue_frame ?_ _ _ (Sub.le (by decide) hp)
              exact h2

theorem State.takeFrame_frame {P : Part → Prop} {s0 s : State} (h : Frame P s0 s) (a_port : ℕ) (a_f : Sys2Proof.Machine.QFrame) (hp : Sub 3636295978788120676215042 P) :
    Frame P s0 (State.takeFrame s a_port a_f) := by
  unfold State.takeFrame
  refine State.admitAs_frame ?_ _ _ (Sub.le (by decide) hp)
  exact h

theorem State.takeSeq_frame {P : Part → Prop} {s0 s : State} (h : Frame P s0 s) (a_cls : ℕ) (hp : Sub 2199023255552 P) :
    Frame P s0 (State.takeSeq s a_cls).2 := by
  unfold State.takeSeq
  extract_lets -merge -useContext -underBinder +onlyGivenNames x0
  refine Frame.pair2 ?_
  refine State.setNet_frame ?_ _ (Sub.le (by decide) hp)
  exact h

theorem State.mirCopy_frame {P : Part → Prop} {s0 s : State} (h : Frame P s0 s) (a_i : ℕ) (a_f : Sys2Proof.Machine.QFrame) (hp : Sub 316912650057057352573199056896 P) :
    Frame P s0 (State.mirCopy s a_i a_f).2 := by
  unfold State.mirCopy
  extract_lets -merge -useContext -underBinder +onlyGivenNames x0
  extract_lets -merge -useContext -underBinder +onlyGivenNames x1
  refine Frame.ite2 (fun _ => ?_) (fun _ => ?_)
  · extract_lets -merge -useContext -underBinder +onlyGivenNames x2
    refine Frame.ite2 (fun _ => ?_) (fun _ => ?_)
    · refine Frame.pair2 ?_
      exact h
    · extract_lets -merge -useContext -underBinder +onlyGivenNames x3
      have h3 : Frame P s0 x3 := by
        unfold x3
        refine Frame.ite (fun _ => ?_) (fun _ => ?_)
        · refine State.bump_frame ?_ _ (Reg.swcCntMirrorTrunc_in (hp .regSwc rfl)) (Sub.le (by decide) hp)
          exact h
        · exact h
      split
      · next y4_0 y4_1 e4 =>
          have g4 : Frame P s0 y4_1 := by
            refine Frame.of2 e4 ?_
            refine State.takeSeq_frame ?_ _ (Sub.le (by decide) hp)
            exact h3
          extract_lets -merge -useContext -underBinder +onlyGivenNames x5
          refine Frame.pair2 ?_
          exact g4
  · refine Frame.pair2 ?_
    exact h

theorem State.mirror_frame {P : Part → Prop} {s0 s : State} (h : Frame P s0 s) (a_port : ℕ) (a_rx : Bool) (a_f : Sys2Proof.Machine.QFrame) (hp : Sub 316912650057057352573199056896 P) :
    Frame P s0 (State.mirror s a_port a_rx a_f) := by
  unfold State.mirror
  refine Frame.foldl ?_ (fun y0 a0 h0 => ?_)
  · exact h
  · refine Frame.ite (fun _ => ?_) (fun _ => ?_)
    · split
      · next y1_0 y1_1 e1 =>
          have g1 : Frame P s0 y1_1 := by
            refine Frame.of2 e1 ?_
            refine State.mirCopy_frame ?_ _ _ (Sub.le (by decide) hp)
            exact h0
          refine State.setNet_frame ?_ _ (Sub.le (by decide) hp)
          exact g1
    · exact h0

theorem State.mirrorDrop_frame {P : Part → Prop} {s0 s : State} (h : Frame P s0 s) (a_i : ℕ) (a_reason : ℕ) (hp : Sub 316913859056663941298188921154 P) :
    Frame P s0 (State.mirrorDrop s a_i a_reason) := by
  unfold State.mirrorDrop
  refine State.gather_frame ?_ _ _ (Sub.le (by decide) hp)
  refine State.raise_frame ?_ _ _ (Sub.le (by decide) hp)
  refine State.bump_frame ?_ _ (Reg.swcCntMirrorDrop_in (hp .regSwc rfl)) (Sub.le (by decide) hp)
  exact h

theorem State.mirrorIn_frame {P : Part → Prop} {s0 s : State} (h : Frame P s0 s) (a_type : ℕ) (a_ingress : ℕ) (a_f : Sys2Proof.Machine.QFrame) (hp : Sub 316912650057057352573199056896 P) :
    Frame P s0 (State.mirrorIn s a_type a_ingress a_f) := by
  unfold State.mirrorIn
  refine Frame.ite (fun _ => ?_) (fun _ => ?_)
  · exact h
  · refine State.mirror_frame ?_ _ _ _ (Sub.le (by decide) hp)
    exact h

theorem State.originateTwo_frame {P : Part → Prop} {s0 s : State} (h : Frame P s0 s) (a_side : ℕ) (a_cls : ℕ) (a_type : ℕ) (a_dst : ℕ) (a_group : Bool) (a_body : ℕ → List Sys2Proof.Byte) (a_ingress : ℕ) (hp : Sub 316916286353036138494852016386 P) :
    Frame P s0 (State.originateTwo s a_side a_cls a_type a_dst a_group a_body a_ingress) := by
  unfold State.originateTwo
  refine Frame.ite (fun _ => ?_) (fun _ => ?_)
  · exact h
  · split
    · next y0_0 y0_1 e0 =>
        have g0 : Frame P s0 y0_1 := by
          refine Frame.of2 e0 ?_
          refine State.takeSeq_frame ?_ _ (Sub.le (by decide) hp)
          exact h
        extract_lets -merge -useContext -underBinder +onlyGivenNames x1
        extract_lets -merge -useContext -underBinder +onlyGivenNames x2
        refine State.takeFrame_frame ?_ _ _ (Sub.le (by decide) hp)
        refine State.takeFrame_frame ?_ _ _ (Sub.le (by decide) hp)
        refine State.mirrorIn_frame ?_ _ _ _ (Sub.le (by decide) hp)
        exact g0

theorem State.originateOn_frame {P : Part → Prop} {s0 s : State} (h : Frame P s0 s) (a_side : ℕ) (a_cls : ℕ) (a_type : ℕ) (a_dst : ℕ) (a_group : Bool) (a_body : List Sys2Proof.Byte) (a_ingress : ℕ) (hp : Sub 316916286353036138494852016386 P) :
    Frame P s0 (State.originateOn s a_side a_cls a_type a_dst a_group a_body a_ingress) := by
  unfold State.originateOn
  refine State.originateTwo_frame ?_ _ _ _ _ _ _ _ (Sub.le (by decide) hp)
  exact h

theorem State.originate_frame {P : Part → Prop} {s0 s : State} (h : Frame P s0 s) (a_cls : ℕ) (a_type : ℕ) (a_dst : ℕ) (a_group : Bool) (a_body : List Sys2Proof.Byte) (a_ingress : ℕ) (hp : Sub 316916286353036138494852016386 P) :
    Frame P s0 (State.originate s a_cls a_type a_dst a_group a_body a_ingress) := by
  unfold State.originate
  refine State.originateOn_frame ?_ _ _ _ _ _ _ _ (Sub.le (by decide) hp)
  exact h

theorem State.sendLinkLocal_frame {P : Part → Prop} {s0 s : State} (h : Frame P s0 s) (a_port : ℕ) (a_type : ℕ) (a_body : List Sys2Proof.Byte) (hp : Sub 316916286353036138494852016386 P) :
    Frame P s0 (State.sendLinkLocal s a_port a_type a_body) := by
  unfold State.sendLinkLocal
  extract_lets -merge -useContext -underBinder +onlyGivenNames x0
  refine Frame.ite (fun _ => ?_) (fun _ => ?_)
  · exact h
  · extract_lets -merge -useContext -underBinder +onlyGivenNames x1
    extract_lets -merge -useContext -underBinder +onlyGivenNames x2
    extract_lets -merge -useContext -underBinder +onlyGivenNames x3
    refine State.takeFrame_frame ?_ _ _ (Sub.le (by decide) hp)
    refine State.mirrorIn_frame ?_ _ _ _ (Sub.le (by decide) hp)
    exact h

theorem State.giveEther_frame {P : Part → Prop} {s0 s : State} (h : Frame P s0 s) (a_port : ℕ) (a_d : Sys2Proof.Machine.Delivered) (hp : Sub 2199023255552 P) :
    Frame P s0 (State.giveEther s a_port a_d) := by
  unfold State.giveEther
  refine State.setNet_frame ?_ _ (Sub.le (by decide) hp)
  exact h

theorem State.handOver_frame {P : Part → Prop} {s0 s : State} (h : Frame P s0 s) (a_port : ℕ) (a_f : Sys2Proof.Machine.QFrame) (hp : Sub 2199023255552 P) :
    Frame P s0 (State.handOver s a_port a_f) := by
  unfold State.handOver
  extract_lets -merge -useContext -underBinder +onlyGivenNames x0
  refine Frame.ite (fun _ => ?_) (fun _ => ?_)
  · refine State.giveEther_frame ?_ _ _ (Sub.le (by decide) hp)
    exact h
  · refine Frame.ite (fun _ => ?_) (fun _ => ?_)
    · split
      · refine State.giveEther_frame ?_ _ _ (Sub.le (by decide) hp)
        exact h
      · exact h
    · refine State.setNet_frame ?_ _ (Sub.le (by decide) hp)
      exact h

theorem State.setSub_frame {P : Part → Prop} {s0 s : State} (h : Frame P s0 s) (a_n : ℕ) (a_f : Sys2Proof.Machine.SubEnt → Sys2Proof.Machine.SubEnt) (hp : Sub 1099511627776 P) :
    Frame P s0 (State.setSub s a_n a_f) := by
  unfold State.setSub
  refine Frame.set_subs ?_ (hp .subs rfl) _
  exact h

theorem State.setSigOp_frame {P : Part → Prop} {s0 s : State} (h : Frame P s0 s) (a_o : ℕ) (a_b : Bool) (a_t : Sys2Proof.TimePoint) (hp : Sub 2475880078570760648582496256 P) :
    Frame P s0 (State.setSigOp s a_o a_b a_t) := by
  unfold State.setSigOp
  refine Frame.ite (fun _ => ?_) (fun _ => ?_)
  · exact h
  · refine State.operandChanged_frame ?_ _ _ (Sub.le (by decide) hp)
    refine Frame.set_sigOps ?_ (hp .sigOps rfl) _
    exact h

theorem State.subDrive_frame {P : Part → Prop} {s0 s : State} (h : Frame P s0 s) (a_n : ℕ) (a_t : Sys2Proof.TimePoint) (hp : Sub 2475880078570761748094124032 P) :
    Frame P s0 (State.subDrive s a_n a_t) := by
  unfold State.subDrive
  extract_lets -merge -useContext -underBinder +onlyGivenNames x0
  extract_lets -merge -useContext -underBinder +onlyGivenNames x1
  extract_lets -merge -useContext -underBinder +onlyGivenNames x2
  have h2 : Frame P s0 x2 := by
    unfold x2
    refine State.setSub_frame ?_ _ _ (Sub.le (by decide) hp)
    exact h
  split
  · refine State.setSigOp_frame ?_ _ _ _ (Sub.le (by decide) hp)
    exact h2
  · refine State.setSigOp_frame ?_ _ _ _ (Sub.le (by decide) hp)
    refine State.setSigOp_frame ?_ _ _ _ (Sub.le (by decide) hp)
    exact h2
  · exact h2

theorem State.subStale_frame {P : Part → Prop} {s0 s : State} (h : Frame P s0 s) (a_n : ℕ) (hp : Sub 81704042592835099341638074368 P) :
    Frame P s0 (State.subStale s a_n) := by
  unfold State.subStale
  refine State.subDrive_frame ?_ _ _ (Sub.le (by decide) hp)
  refine State.bump_frame ?_ _ (Reg.sigCntStale_in (hp .regSig rfl)) (Sub.le (by decide) hp)
  refine State.setSub_frame ?_ _ _ (Sub.le (by decide) hp)
  exact h

theorem State.subApply_frame {P : Part → Prop} {s0 s : State} (h : Frame P s0 s) (a_n : ℕ) (a_r : Sys2Proof.Machine.SigRec) (hp : Sub 2617006452048900493259191822594 P) :
    Frame P s0 (State.subApply s a_n a_r) := by
  unfold State.subApply
  extract_lets -merge -useContext -underBinder +onlyGivenNames x0
  extract_lets -merge -useContext -underBinder +onlyGivenNames x1
  extract_lets -merge -useContext -underBinder +onlyGivenNames x2
  have h2 : Frame P s0 x2 := by
    unfold x2
    refine Frame.ite (fun _ => ?_) (fun _ => ?_)
    · refine State.raise_frame ?_ _ _ (Sub.le (by decide) hp)
      exact h
    · exact h
  extract_lets -merge -useContext -underBinder +onlyGivenNames x3
  have h3 : Frame P s0 x3 := by
    unfold x3
    refine State.setSub_frame ?_ _ _ (Sub.le (by decide) hp)
    exact h2
  extract_lets -merge -useContext -underBinder +onlyGivenNames x4
  have h4 : Frame P s0 x4 := by
    unfold x4
    refine State.bump_frame ?_ _ (Reg.sigCntApplied_in (hp .regSig rfl)) (Sub.le (by decide) hp)
    exact h3
  extract_lets -merge -useContext -underBinder +onlyGivenNames x5
  have h5 : Frame P s0 x5 := by
    unfold x5
    refine Frame.ite (fun _ => ?_) (fun _ => ?_)
    · refine State.post_frame ?_ _ _ _ _ _ _ _ _ (Sub.le (by decide) hp)
      refine State.raise_frame ?_ _ _ (Sub.le (by decide) hp)
      exact h4
    · exact h4
  refine State.winSignal_frame ?_ _ _ _ _ (Sub.le (by decide) hp)
  refine State.subDrive_frame ?_ _ _ (Sub.le (by decide) hp)
  exact h5

theorem State.dyingRecord_frame {P : Part → Prop} {s0 s : State} (h : Frame P s0 s) (a_node : ℕ) (a_r : Sys2Proof.Machine.SigRec) (hp : Sub 81705251592441690265651194114 P) :
    Frame P s0 (State.dyingRecord s a_node a_r) := by
  unfold State.dyingRecord
  extract_lets -merge -useContext -underBinder +onlyGivenNames x0
  extract_lets -merge -useContext -underBinder +onlyGivenNames x1
  extract_lets -merge -useContext -underBinder +onlyGivenNames x2
  have h2 : Frame P s0 x2 := by
    unfold x2
    refine Frame.foldl ?_ (fun y3 a3 h3 => ?_)
    · exact h
    · refine State.subStale_frame ?_ _ (Sub.le (by decide) hp)
      exact h3
  refine Frame.ite (fun _ => ?_) (fun _ => ?_)
  · refine State.post_frame ?_ _ _ _ _ _ _ _ _ (Sub.le (by decide) hp)
    refine State.raise_frame ?_ _ _ (Sub.le (by decide) hp)
    exact h2
  · exact h2

theorem State.sigRecord_frame {P : Part → Prop} {s0 s : State} (h : Frame P s0 s) (a_node : ℕ) (a_r : Sys2Proof.Machine.SigRec) (hp : Sub 2617006452051206336268405516578 P) :
    Frame P s0 (State.sigRecord s a_node a_r) := by
  unfold State.sigRecord
  extract_lets -merge -useContext -underBinder +onlyGivenNames x0
  have h0 : Frame P s0 x0 := by
    unfold x0
    refine Frame.ite (fun _ => ?_) (fun _ => ?_)
    · refine State.dyingRecord_frame ?_ _ _ (Sub.le (by decide) hp)
      exact h
    · exact h
  split
  · refine State.bump_frame ?_ _ (Reg.sigCntUnsub_in (hp .regSig rfl)) (Sub.le (by decide) hp)
    exact h0
  · extract_lets -merge -useContext -underBinder +onlyGivenNames x3
    refine Frame.ite (fun _ => ?_) (fun _ => ?_)
    · refine State.qualFail_frame ?_ _ _ _ _ _ (Reg.sigCntType_in (hp .regSig rfl)) (Sub.le (by decide) hp)
      refine State.raise_frame ?_ _ _ (Sub.le (by decide) hp)
      exact h0
    · extract_lets -merge -useContext -underBinder +onlyGivenNames x4
      have h4 : Frame P s0 x4 := by
        unfold x4
        refine State.setSub_frame ?_ _ _ (Sub.le (by decide) hp)
        exact h0
      refine Frame.ite (fun _ => ?_) (fun _ => ?_)
      · refine State.bump_frame ?_ _ (Reg.sigCntOld_in (hp .regSig rfl)) (Sub.le (by decide) hp)
        exact h4
      · refine State.subApply_frame ?_ _ _ (Sub.le (by decide) hp)
        exact h4

theorem execSubscriptionStale_frame {P : Part → Prop} {s0 s : State} (h : Frame P s0 s) (a_n : Fin 8192) (hp : Sub 81705251592441690265651194114 P) :
    AnswersIn P s0 (execSubscriptionStale a_n s) := by
  refine ⟨_, rfl, ?_⟩
  extract_lets -merge -useContext -underBinder +onlyGivenNames x0
  extract_lets -merge -useContext -underBinder +onlyGivenNames x1
  refine Frame.ite (fun _ => ?_) (fun _ => ?_)
  · extract_lets -merge -useContext -underBinder +onlyGivenNames x2
    have h2 : Frame P s0 x2 := by
      unfold x2
      refine State.subStale_frame ?_ _ (Sub.le (by decide) hp)
      exact h
    refine Frame.ite (fun _ => ?_) (fun _ => ?_)
    · refine State.post_frame ?_ _ _ _ _ _ _ _ _ (Sub.le (by decide) hp)
      refine State.raise_frame ?_ _ _ (Sub.le (by decide) hp)
      exact h2
    · exact h2
  · exact h

theorem State.setPub_frame {P : Part → Prop} {s0 s : State} (h : Frame P s0 s) (a_n : ℕ) (a_f : Sys2Proof.Machine.PubSlot → Sys2Proof.Machine.PubSlot) (hp : Sub 137438953472 P) :
    Frame P s0 (State.setPub s a_n a_f) := by
  unfold State.setPub
  refine Frame.set_pubs ?_ (hp .pubs rfl) _
  exact h

theorem State.sigSend_frame {P : Part → Prop} {s0 s : State} (h : Frame P s0 s) (a_cls : ℕ) (a_hb : Bool) (a_dest : Sys2Proof.Word) (a_slots : List ℕ) (a_counter : ℕ) (K_a_counter : RegIn P a_counter) (hp : Sub 2933921529404635883976683366690 P) :
    Frame P s0 (State.sigSend s a_cls a_hb a_dest a_slots a_counter) := by
  unfold State.sigSend
  extract_lets -merge -useContext -underBinder +onlyGivenNames x0
  extract_lets -merge -useContext -underBinder +onlyGivenNames x1
  extract_lets -merge -useContext -underBinder +onlyGivenNames x2
  refine Frame.ite (fun _ => ?_) (fun _ => ?_)
  · extract_lets -merge -useContext -underBinder +onlyGivenNames x3
    have h3 : Frame P s0 x3 := by
      unfold x3
      refine Frame.foldl ?_ (fun y4 a4 h4 => ?_)
      · exact h
      · refine State.setPub_frame ?_ _ _ (Sub.le (by decide) hp)
        exact h4
    extract_lets -merge -useContext -underBinder +onlyGivenNames x5
    extract_lets -merge -useContext -underBinder +onlyGivenNames x6
    have h6 : Frame P s0 x6 := by
      unfold x6
      refine State.bump_frame ?_ _ K_a_counter (Sub.le (by decide) hp)
      refine State.originate_frame ?_ _ _ _ _ _ _ (Sub.le (by decide) hp)
      exact h3
    extract_lets -merge -useContext -underBinder +onlyGivenNames x7
    refine Frame.foldl ?_ (fun y8 a8 h8 => ?_)
    · exact h6
    · refine Frame.ite (fun _ => ?_) (fun _ => ?_)
      · refine State.sigRecord_frame ?_ _ _ (Sub.le (by decide) hp)
        exact h8
      · exact h8
  · exact h

theorem State.sigChange_frame {P : Part → Prop} {s0 s : State} (h : Frame P s0 s) (a_n : ℕ) (hp : Sub 2933921529404635883976683366690 P) :
    Frame P s0 (State.sigChange s a_n) := by
  unfold State.sigChange
  extract_lets -merge -useContext -underBinder +onlyGivenNames x0
  refine Frame.ite (fun _ => ?_) (fun _ => ?_)
  · refine State.sigSend_frame ?_ _ _ _ _ _ (Reg.sigCntTxChange_in (hp .regSig rfl)) (Sub.le (by decide) hp)
    exact h
  · exact h

theorem State.pubClose_frame {P : Part → Prop} {s0 s : State} (h : Frame P s0 s) (a_o : Sys2Proof.Machine.PubOpen) (hp : Sub 2933921529404635883976683366690 P) :
    Frame P s0 (State.pubClose s a_o) := by
  unfold State.pubClose
  extract_lets -merge -useContext -underBinder +onlyGivenNames x0
  refine Frame.ite (fun _ => ?_) (fun _ => ?_)
  · refine State.sigChange_frame ?_ _ (Sub.le (by decide) hp)
    exact h
  · refine State.setPub_frame ?_ _ _ (Sub.le (by decide) hp)
    exact h

theorem State.pubFlush_frame {P : Part → Prop} {s0 s : State} (h : Frame P s0 s) (a_keep : Option ℕ) (hp : Sub 2933921529404635884251561273634 P) :
    Frame P s0 (State.pubFlush s a_keep) := by
  unfold State.pubFlush
  extract_lets -merge -useContext -underBinder +onlyGivenNames x0
  refine Frame.ite (fun _ => ?_) (fun _ => ?_)
  · exact h
  · refine Frame.foldl ?_ (fun y1 a1 h1 => ?_)
    · refine Frame.set_pubOpen ?_ (hp .pubOpen rfl) _
      exact h
    · refine State.pubClose_frame ?_ _ (Sub.le (by decide) hp)
      exact h1

theorem State.pubWrite_frame {P : Part → Prop} {s0 s : State} (h : Frame P s0 s) (a_n : ℕ) (a_value : ℕ) (a_quality : ℕ) (a_t : Sys2Proof.TimePoint) (a_force : Bool) (a_cycle : ℕ) (hp : Sub 2933921529404635884251561273634 P) :
    Frame P s0 (State.pubWrite s a_n a_value a_quality a_t a_force a_cycle) := by
  unfold State.pubWrite
  extract_lets -merge -useContext -underBinder +onlyGivenNames x0
  have h0 : Frame P s0 x0 := by
    unfold x0
    refine State.pubFlush_frame ?_ _ (Sub.le (by decide) hp)
    exact h
  extract_lets -merge -useContext -underBinder +onlyGivenNames x1
  extract_lets -merge -useContext -underBinder +onlyGivenNames x2
  extract_lets -merge -useContext -underBinder +onlyGivenNames x3
  have h3 : Frame P s0 x3 := by
    unfold x3
    refine Frame.set_pubOpen ?_ (hp .pubOpen rfl) _
    exact h0
  refine State.setPub_frame ?_ _ _ (Sub.le (by decide) hp)
  exact h3

theorem State.pubAlone_frame {P : Part → Prop} {s0 s : State} (h : Frame P s0 s) (a_n : ℕ) (a_value : ℕ) (a_quality : ℕ) (a_t : Sys2Proof.TimePoint) (a_force : Bool) (hp : Sub 2933921529404635884251561273634 P) :
    Frame P s0 (State.pubAlone s a_n a_value a_quality a_t a_force) := by
  unfold State.pubAlone
  refine State.pubFlush_frame ?_ _ (Sub.le (by decide) hp)
  refine State.pubWrite_frame ?_ _ _ _ _ _ _ (Sub.le (by decide) hp)
  refine State.pubFlush_frame ?_ _ (Sub.le (by decide) hp)
  exact h

theorem State.pubAction_frame {P : Part → Prop} {s0 s : State} (h : Frame P s0 s) (a_n : ℕ) (a_value : ℕ) (a_t : Sys2Proof.TimePoint) (a_force : Bool) (a_cycle : ℕ) (hp : Sub 2933921529404635884251561273634 P) :
    Frame P s0 (State.pubAction s a_n a_value a_t a_force a_cycle) := by
  unfold State.pubAction
  refine Frame.ite (fun _ => ?_) (fun _ => ?_)
  · exact h
  · refine State.pubWrite_frame ?_ _ _ _ _ _ _ (Sub.le (by decide) hp)
    exact h

theorem State.pubDying_frame {P : Part → Prop} {s0 s : State} (h : Frame P s0 s) (a_v : ℕ) (hp : Sub 2933921529404635884251561273634 P) :
    Frame P s0 (State.pubDying s a_v) := by
  unfold State.pubDying
  refine State.pubAlone_frame ?_ _ _ _ _ _ (Sub.le (by decide) hp)
  exact h

theorem State.hbFrames_frame {P : Part → Prop} {s0 s : State} (h : Frame P s0 s) (n : Nat) (l : List Nat) (hp : Sub 2933921529404635883976683366690 P) :
    Frame P s0 (s.hbFrames n l) := by
  induction n generalizing s l with
  | zero => exact h
  | succ n ih =>
    cases l with
    | nil => exact h
    | cons m l => exact ih (State.sigSend_frame h _ _ _ _ _ (Reg.sigCntTxHb_in (hp .regSig rfl)) (Sub.le (by decide) hp)) _

theorem execHeartbeatScan_frame {P : Part → Prop} {s0 s : State} (h : Frame P s0 s)  (hp : Sub 2933921529404635884801317087522 P) :
    AnswersIn P s0 (execHeartbeatScan s) := by
  refine ⟨_, rfl, ?_⟩
  refine Frame.ite (fun _ => ?_) (fun _ => ?_)
  · extract_lets -merge -useContext -underBinder +onlyGivenNames x0
    have h0 : Frame P s0 x0 := by
      unfold x0
      refine State.pubFlush_frame ?_ _ (Sub.le (by decide) hp)
      exact h
    extract_lets -merge -useContext -underBinder +onlyGivenNames x1
    have h1 : Frame P s0 x1 := by
      unfold x1
      refine Frame.set_hbAt ?_ (hp .hbAt rfl) _
      exact h0
    extract_lets -merge -useContext -underBinder +onlyGivenNames x2
    refine State.hbFrames_frame ?_ _ _ (Sub.le (by decide) hp)
    exact h1
  · exact h

theorem execSignalFrameReceive_frame {P : Part → Prop} {s0 s : State} (h : Frame P s0 s)  (hp : Sub 2933921529404635884251561273634 P) :
    AnswersIn P s0 (execSignalFrameReceive s) := by
  refine ⟨_, rfl, ?_⟩
  extract_lets -merge -useContext -underBinder +onlyGivenNames x0
  have h0 : Frame P s0 x0 := by
    unfold x0
    refine State.pubFlush_frame ?_ _ (Sub.le (by decide) hp)
    exact h
  split
  · exact h0
  · extract_lets -merge -useContext -underBinder +onlyGivenNames x3
    have h3 : Frame P s0 x3 := by
      unfold x3
      refine State.setNet_frame ?_ _ (Sub.le (by decide) hp)
      exact h0
    extract_lets -merge -useContext -underBinder +onlyGivenNames x4
    split
    · refine State.qualFail_frame ?_ _ _ _ _ _ (Reg.sigCntBadFrame_in (hp .regSig rfl)) (Sub.le (by decide) hp)
      refine State.raise_frame ?_ _ _ (Sub.le (by decide) hp)
      exact h3
    · refine Frame.foldl ?_ (fun y7 a7 h7 => ?_)
      · exact h3
      · refine State.sigRecord_frame ?_ _ _ (Sub.le (by decide) hp)
        exact h7

theorem State.pubCommand_frame {P : Part → Prop} {s0 s : State} (h : Frame P s0 s) (a_arg : BitVec 16) (a_f : ℕ → Sys2Proof.Machine.State → Sys2Proof.Machine.MbxAns × Sys2Proof.Machine.State) (Ha_f : ∀ z0 z1, Frame P s0 z1 → Frame P s0 (a_f z0 z1).2) (hp : Sub 147573952589676412932 P) :
    Frame P s0 (State.pubCommand s a_arg a_f) := by
  unfold State.pubCommand
  refine State.mbxCommand_frame ?_ _ _ (fun y0 h0 => ?_) (Sub.le (by decide) hp)
  · exact h
  · refine Frame.ite2 (fun _ => ?_) (fun _ => ?_)
    · refine Frame.pair2 ?_
      exact h0
    · refine Ha_f _ _ ?_
      exact h0

theorem State.subCommand_frame {P : Part → Prop} {s0 s : State} (h : Frame P s0 s) (a_arg : BitVec 16) (a_f : ℕ → Sys2Proof.Machine.State → Sys2Proof.Machine.MbxAns × Sys2Proof.Machine.State) (Ha_f : ∀ z0 z1, Frame P s0 z1 → Frame P s0 (a_f z0 z1).2) (hp : Sub 147573952589676412932 P) :
    Frame P s0 (State.subCommand s a_arg a_f) := by
  unfold State.subCommand
  refine State.mbxCommand_frame ?_ _ _ (fun y0 h0 => ?_) (Sub.le (by decide) hp)
  · exact h
  · refine Frame.ite2 (fun _ => ?_) (fun _ => ?_)
    · refine Frame.pair2 ?_
      exact h0
    · refine Ha_f _ _ ?_
      exact h0

theorem execLoadPub_frame {P : Part → Prop} {s0 s : State} (h : Frame P s0 s) (a_arg : BitVec 16) (hp : Sub 147573952727115366404 P) :
    AnswersIn P s0 (execLoadPub a_arg s) := by
  refine ⟨_, rfl, ?_⟩
  refine State.pubCommand_frame ?_ _ _ (fun _ y0 h0 => ?_) (Sub.le (by decide) hp)
  · exact h
  · extract_lets -merge -useContext -underBinder +onlyGivenNames x1
    extract_lets -merge -useContext -underBinder +onlyGivenNames x2
    extract_lets -merge -useContext -underBinder +onlyGivenNames x3
    refine Frame.ite2 (fun _ => ?_) (fun _ => ?_)
    · refine Frame.pair2 ?_
      exact h0
    · refine Frame.ite2 (fun _ => ?_) (fun _ => ?_)
      · refine Frame.pair2 ?_
        exact h0
      · refine Frame.pair2 ?_
        refine State.setPub_frame ?_ _ _ (Sub.le (by decide) hp)
        exact h0

theorem execSetValue_frame {P : Part → Prop} {s0 s : State} (h : Frame P s0 s) (a_arg : BitVec 16) (hp : Sub 2933921529552209836841237686566 P) :
    AnswersIn P s0 (execSetValue a_arg s) := by
  refine ⟨_, rfl, ?_⟩
  refine State.pubCommand_frame ?_ _ _ (fun _ y0 h0 => ?_) (Sub.le (by decide) hp)
  · exact h
  · extract_lets -merge -useContext -underBinder +onlyGivenNames x1
    extract_lets -merge -useContext -underBinder +onlyGivenNames x2
    refine Frame.ite2 (fun _ => ?_) (fun _ => ?_)
    · refine Frame.pair2 ?_
      exact h0
    · refine Frame.ite2 (fun _ => ?_) (fun _ => ?_)
      · refine Frame.pair2 ?_
        exact h0
      · refine Frame.ite2 (fun _ => ?_) (fun _ => ?_)
        · refine Frame.pair2 ?_
          exact h0
        · refine Frame.pair2 ?_
          refine State.pubAlone_frame ?_ _ _ _ _ _ (Sub.le (by decide) hp)
          exact h0

theorem execReadPub_frame {P : Part → Prop} {s0 s : State} (h : Frame P s0 s) (a_arg : BitVec 16) (hp : Sub 147573952589676412932 P) :
    AnswersIn P s0 (execReadPub a_arg s) := by
  refine ⟨_, rfl, ?_⟩
  refine State.pubCommand_frame ?_ _ _ (fun _ y0 h0 => ?_) (Sub.le (by decide) hp)
  · exact h
  · refine Frame.pair2 ?_
    exact h0

theorem execReadPubcfg_frame {P : Part → Prop} {s0 s : State} (h : Frame P s0 s) (a_arg : BitVec 16) (hp : Sub 147573952589676412932 P) :
    AnswersIn P s0 (execReadPubcfg a_arg s) := by
  refine ⟨_, rfl, ?_⟩
  refine State.pubCommand_frame ?_ _ _ (fun _ y0 h0 => ?_) (Sub.le (by decide) hp)
  · exact h
  · refine Frame.pair2 ?_
    exact h0

theorem State.subRelease_frame {P : Part → Prop} {s0 s : State} (h : Frame P s0 s) (a_n : ℕ) (hp : Sub 2475880078570760648582496256 P) :
    Frame P s0 (State.subRelease s a_n) := by
  unfold State.subRelease
  refine Frame.foldl ?_ (fun y0 a0 h0 => ?_)
  · exact h
  · refine State.setSigOp_frame ?_ _ _ _ (Sub.le (by decide) hp)
    exact h0

theorem execLoadSub_frame {P : Part → Prop} {s0 s : State} (h : Frame P s0 s) (a_arg : BitVec 16) (hp : Sub 2475880226144714337770536964 P) :
    AnswersIn P s0 (execLoadSub a_arg s) := by
  refine ⟨_, rfl, ?_⟩
  refine State.subCommand_frame ?_ _ _ (fun _ y0 h0 => ?_) (Sub.le (by decide) hp)
  · exact h
  · extract_lets -merge -useContext -underBinder +onlyGivenNames x1
    extract_lets -merge -useContext -underBinder +onlyGivenNames x2
    refine Frame.ite2 (fun _ => ?_) (fun _ => ?_)
    · refine Frame.pair2 ?_
      exact h0
    · refine Frame.ite2 (fun _ => ?_) (fun _ => ?_)
      · refine Frame.pair2 ?_
        exact h0
      · refine Frame.ite2 (fun _ => ?_) (fun _ => ?_)
        · refine Frame.pair2 ?_
          exact h0
        · extract_lets -merge -useContext -underBinder +onlyGivenNames x3
          have h3 : Frame P s0 x3 := by
            unfold x3
            refine State.subRelease_frame ?_ _ (Sub.le (by decide) hp)
            exact h0
          extract_lets -merge -useContext -underBinder +onlyGivenNames x4
          have h4 : Frame P s0 x4 := by
            unfold x4
            refine State.setSub_frame ?_ _ _ (Sub.le (by decide) hp)
            exact h3
          refine Frame.pair2 ?_
          refine Frame.ite (fun _ => ?_) (fun _ => ?_)
          · refine State.subDrive_frame ?_ _ _ (Sub.le (by decide) hp)
            exact h4
          · exact h4

theorem execReadSub_frame {P : Part → Prop} {s0 s : State} (h : Frame P s0 s) (a_arg : BitVec 16) (hp : Sub 79228162661838291282731991044 P) :
    AnswersIn P s0 (execReadSub a_arg s) := by
  refine ⟨_, rfl, ?_⟩
  refine State.subCommand_frame ?_ _ _ (fun _ y0 h0 => ?_) (Sub.le (by decide) hp)
  · exact h
  · extract_lets -merge -useContext -underBinder +onlyGivenNames x1
    extract_lets -merge -useContext -underBinder +onlyGivenNames x2
    have h2 : Frame P s0 x2 := by
      unfold x2
      refine State.wr_frame ?_ _ _ (Reg.sigSubMeta_in (hp .regSig rfl)) (Sub.le (by decide) hp)
      exact h0
    refine Frame.pair2 ?_
    refine State.setSub_frame ?_ _ _ (Sub.le (by decide) hp)
    exact h2

theorem execReadSubcfg_frame {P : Part → Prop} {s0 s : State} (h : Frame P s0 s) (a_arg : BitVec 16) (hp : Sub 147573952589676412932 P) :
    AnswersIn P s0 (execReadSubcfg a_arg s) := by
  refine ⟨_, rfl, ?_⟩
  refine State.subCommand_frame ?_ _ _ (fun _ y0 h0 => ?_) (Sub.le (by decide) hp)
  · exact h
  · refine Frame.pair2 ?_
    exact h0

theorem execClearSub_frame {P : Part → Prop} {s0 s : State} (h : Frame P s0 s) (a_arg : BitVec 16) (hp : Sub 2475880226144714337770536964 P) :
    AnswersIn P s0 (execClearSub a_arg s) := by
  refine ⟨_, rfl, ?_⟩
  refine State.subCommand_frame ?_ _ _ (fun _ y0 h0 => ?_) (Sub.le (by decide) hp)
  · exact h
  · refine Frame.pair2 ?_
    refine State.setSub_frame ?_ _ _ (Sub.le (by decide) hp)
    refine State.subRelease_frame ?_ _ (Sub.le (by decide) hp)
    exact h0

end Sys2Proof.Machine
end

