-- ==== Sys2Proof/Laws/FrameNet.lean ====
section
/-! SUPPORT. What each operation and each command may change: power, the switch and its links, the ring, PTP, serial and CAN channels. -/

namespace Sys2Proof.Machine

theorem State.setPwr_frame {P : Part → Prop} {s0 s : State} (h : Frame P s0 s) (a_f : Sys2Proof.Machine.PwrSt → Sys2Proof.Machine.PwrSt) (hp : Sub 2305843009213693952 P) :
    Frame P s0 (State.setPwr s a_f) := by
  unfold State.setPwr
  refine Frame.set_pwr ?_ (hp .pwr rfl) _
  exact h

theorem State.powPost_frame {P : Part → Prop} {s0 s : State} (h : Frame P s0 s) (a_irq : Option ℕ) (a_ty : ℕ) (a_page : ℕ) (a_flags : ℕ) (a_w4 : Sys2Proof.Word) (a_w5 : Sys2Proof.Word) (a_w6 : Sys2Proof.Word) (a_w7 : Sys2Proof.Word) (hp : Sub 1209001912433933226813698 P) :
    Frame P s0 (State.powPost s a_irq a_ty a_page a_flags a_w4 a_w5 a_w6 a_w7) := by
  unfold State.powPost
  refine State.powRecord_frame ?_ _ (Sub.le (by decide) hp)
  exact h

theorem State.powDrain_frame {P : Part → Prop} {s0 s : State} (h : Frame P s0 s)  (hp : Sub 1209001912433933226813698 P) :
    Frame P s0 (State.powDrain s) := by
  unfold State.powDrain
  extract_lets -merge -useContext -underBinder +onlyGivenNames x0
  refine Frame.foldl ?_ (fun y1 a1 h1 => ?_)
  · refine State.setPwr_frame ?_ _ (Sub.le (by decide) hp)
    exact h
  · refine State.powEmit_frame ?_ _ (Sub.le (by decide) hp)
    exact h1

theorem State.powFail_frame {P : Part → Prop} {s0 s : State} (h : Frame P s0 s) (a_page : ℕ) (a_check : ℕ) (a_item : ℕ) (a_value : Sys2Proof.Word) (a_counter : ℕ) (K_a_counter : RegIn P a_counter) (hp : Sub 1209001912433933226813730 P) :
    Frame P s0 (State.powFail s a_page a_check a_item a_value a_counter) := by
  unfold State.powFail
  extract_lets -merge -useContext -underBinder +onlyGivenNames x0
  have h0 : Frame P s0 x0 := by
    unfold x0
    refine Frame.ite (fun _ => ?_) (fun _ => ?_)
    · refine State.raise_frame ?_ _ _ (Sub.le (by decide) hp)
      exact h
    · exact h
  refine State.qualFail_frame ?_ _ _ _ _ _ K_a_counter (Sub.le (by decide) hp)
  exact h0

theorem State.showTg_frame {P : Part → Prop} {s0 s : State} (h : Frame P s0 s)  (hp : Sub 2305843009213693952 P) :
    Frame P s0 (State.showTg s) := by
  unfold State.showTg
  refine State.setPwr_frame ?_ _ (Sub.le (by decide) hp)
  exact h

theorem State.setRails_frame {P : Part → Prop} {s0 s : State} (h : Frame P s0 s) (a_f : ℕ → Bool) (hp : Sub 2305843009213693952 P) :
    Frame P s0 (State.setRails s a_f) := by
  unfold State.setRails
  extract_lets -merge -useContext -underBinder +onlyGivenNames x0
  refine State.setPwr_frame ?_ _ (Sub.le (by decide) hp)
  exact h

theorem State.railTrack_frame {P : Part → Prop} {s0 s : State} (h : Frame P s0 s)  (hp : Sub 2305843009213693952 P) :
    Frame P s0 (State.railTrack s) := by
  unfold State.railTrack
  extract_lets -merge -useContext -underBinder +onlyGivenNames x0
  extract_lets -merge -useContext -underBinder +onlyGivenNames x1
  extract_lets -merge -useContext -underBinder +onlyGivenNames x2
  extract_lets -merge -useContext -underBinder +onlyGivenNames x3
  refine State.setPwr_frame ?_ _ (Sub.le (by decide) hp)
  exact h

theorem State.railsCut_frame {P : Part → Prop} {s0 s : State} (h : Frame P s0 s)  (hp : Sub 2305843009213693952 P) :
    Frame P s0 (State.railsCut s) := by
  unfold State.railsCut
  refine State.railTrack_frame ?_  (Sub.le (by decide) hp)
  refine State.setPwr_frame ?_ _ (Sub.le (by decide) hp)
  exact h

theorem State.railsDown_frame {P : Part → Prop} {s0 s : State} (h : Frame P s0 s)  (hp : Sub 2305843009213693952 P) :
    Frame P s0 (State.railsDown s) := by
  unfold State.railsDown
  refine State.setPwr_frame ?_ _ (Sub.le (by decide) hp)
  exact h

theorem State.railsUpCheck_frame {P : Part → Prop} {s0 s : State} (h : Frame P s0 s)  (hp : Sub 2305843009213693952 P) :
    Frame P s0 (State.railsUpCheck s) := by
  unfold State.railsUpCheck
  refine Frame.ite (fun _ => ?_) (fun _ => ?_)
  · refine State.setPwr_frame ?_ _ (Sub.le (by decide) hp)
    exact h
  · exact h

theorem State.railsRise_frame {P : Part → Prop} {s0 s : State} (h : Frame P s0 s)  (hp : Sub 2305843009213693952 P) :
    Frame P s0 (State.railsRise s) := by
  unfold State.railsRise
  extract_lets -merge -useContext -underBinder +onlyGivenNames x0
  extract_lets -merge -useContext -underBinder +onlyGivenNames x1
  extract_lets -merge -useContext -underBinder +onlyGivenNames x2
  extract_lets -merge -useContext -underBinder +onlyGivenNames x3
  have h3 : Frame P s0 x3 := by
    unfold x3
    refine State.setPwr_frame ?_ _ (Sub.le (by decide) hp)
    exact h
  refine State.railsUpCheck_frame ?_  (Sub.le (by decide) hp)
  refine State.railTrack_frame ?_  (Sub.le (by decide) hp)
  refine State.setRails_frame ?_ _ (Sub.le (by decide) hp)
  exact h3

theorem execRailStepEnable_frame {P : Part → Prop} {s0 s : State} (h : Frame P s0 s)  (hp : Sub 2305843009213693952 P) :
    AnswersIn P s0 (execRailStepEnable s) := by
  refine ⟨_, rfl, ?_⟩
  refine Frame.ite (fun _ => ?_) (fun _ => ?_)
  · refine State.railsRise_frame ?_  (Sub.le (by decide) hp)
    exact h
  · exact h

theorem execRailStepDisable_frame {P : Part → Prop} {s0 s : State} (h : Frame P s0 s)  (hp : Sub 2305843009213693952 P) :
    AnswersIn P s0 (execRailStepDisable s) := by
  refine ⟨_, rfl, ?_⟩
  refine Frame.ite (fun _ => ?_) (fun _ => ?_)
  · extract_lets -merge -useContext -underBinder +onlyGivenNames x0
    extract_lets -merge -useContext -underBinder +onlyGivenNames x1
    refine Frame.ite (fun _ => ?_) (fun _ => ?_)
    · exact h
    · extract_lets -merge -useContext -underBinder +onlyGivenNames x2
      extract_lets -merge -useContext -underBinder +onlyGivenNames x3
      have h3 : Frame P s0 x3 := by
        unfold x3
        refine State.railTrack_frame ?_  (Sub.le (by decide) hp)
        refine State.setPwr_frame ?_ _ (Sub.le (by decide) hp)
        refine State.setRails_frame ?_ _ (Sub.le (by decide) hp)
        exact h
      refine Frame.ite (fun _ => ?_) (fun _ => ?_)
      · exact h3
      · refine State.setPwr_frame ?_ _ (Sub.le (by decide) hp)
        exact h3
  · exact h

theorem State.countCause_frame {P : Part → Prop} {s0 s : State} (h : Frame P s0 s) (a_cause : ℕ) (hp : Sub 1237940039285380274899124224 P) :
    Frame P s0 (State.countCause s a_cause) := by
  unfold State.countCause
  refine Frame.ite (fun _ => ?_) (fun _ => ?_)
  · refine State.bump_frame ?_ _ (Reg.pwrCntFastTrip_in (hp .regPwr rfl)) (Sub.le (by decide) hp)
    exact h
  · refine Frame.ite (fun _ => ?_) (fun _ => ?_)
    · refine State.bump_frame ?_ _ (Reg.pwrCntShortRamp_in (hp .regPwr rfl)) (Sub.le (by decide) hp)
      exact h
    · refine Frame.ite (fun _ => ?_) (fun _ => ?_)
      · refine State.bump_frame ?_ _ (Reg.pwrCntLimit_in (hp .regPwr rfl)) (Sub.le (by decide) hp)
        exact h
      · refine Frame.ite (fun _ => ?_) (fun _ => ?_)
        · refine State.bump_frame ?_ _ (Reg.pwrCntThermal_in (hp .regPwr rfl)) (Sub.le (by decide) hp)
          exact h
        · refine Frame.ite (fun _ => ?_) (fun _ => ?_)
          · refine State.bump_frame ?_ _ (Reg.pwrCntRail_in (hp .regPwr rfl)) (Sub.le (by decide) hp)
            exact h
          · exact h

theorem State.enterHs_frame {P : Part → Prop} {s0 s : State} (h : Frame P s0 s) (a_hs : ℕ) (hp : Sub 2305843009213693952 P) :
    Frame P s0 (State.enterHs s a_hs) := by
  unfold State.enterHs
  extract_lets -merge -useContext -underBinder +onlyGivenNames x0
  refine State.setPwr_frame ?_ _ (Sub.le (by decide) hp)
  exact h

theorem State.faultMove_frame {P : Part → Prop} {s0 s : State} (h : Frame P s0 s) (a_cause : ℕ) (hp : Sub 1239149041197814208125937922 P) :
    Frame P s0 (State.faultMove s a_cause) := by
  unfold State.faultMove
  refine Frame.ite (fun _ => ?_) (fun _ => ?_)
  · extract_lets -merge -useContext -underBinder +onlyGivenNames x0
    have h0 : Frame P s0 x0 := by
      unfold x0
      refine State.bump_frame ?_ _ (Reg.pwrCntRetry_in (hp .regPwr rfl)) (Sub.le (by decide) hp)
      refine State.enterHs_frame ?_ _ (Sub.le (by decide) hp)
      exact h
    refine State.powPost_frame ?_ _ _ _ _ _ _ _ _ (Sub.le (by decide) hp)
    exact h0
  · extract_lets -merge -useContext -underBinder +onlyGivenNames x1
    have h1 : Frame P s0 x1 := by
      unfold x1
      refine State.bump_frame ?_ _ (Reg.pwrCntLatched_in (hp .regPwr rfl)) (Sub.le (by decide) hp)
      refine State.enterHs_frame ?_ _ (Sub.le (by decide) hp)
      exact h
    refine State.powPost_frame ?_ _ _ _ _ _ _ _ _ (Sub.le (by decide) hp)
    exact h1

theorem State.powFault_frame {P : Part → Prop} {s0 s : State} (h : Frame P s0 s) (a_cause : ℕ) (a_shunt : ℕ) (hp : Sub 1239149041197814208125937922 P) :
    Frame P s0 (State.powFault s a_cause a_shunt) := by
  unfold State.powFault
  extract_lets -merge -useContext -underBinder +onlyGivenNames x0
  extract_lets -merge -useContext -underBinder +onlyGivenNames x1
  have h1 : Frame P s0 x1 := by
    unfold x1
    refine State.wr_frame ?_ _ _ (Reg.pwrLastFault_in (hp .regPwr rfl)) (Sub.le (by decide) hp)
    exact h
  extract_lets -merge -useContext -underBinder +onlyGivenNames x2
  have h2 : Frame P s0 x2 := by
    unfold x2
    refine State.setPwr_frame ?_ _ (Sub.le (by decide) hp)
    exact h1
  extract_lets -merge -useContext -underBinder +onlyGivenNames x3
  have h3 : Frame P s0 x3 := by
    unfold x3
    refine State.countCause_frame ?_ _ (Sub.le (by decide) hp)
    refine State.railsCut_frame ?_  (Sub.le (by decide) hp)
    exact h2
  extract_lets -merge -useContext -underBinder +onlyGivenNames x4
  have h4 : Frame P s0 x4 := by
    unfold x4
    refine Frame.ite (fun _ => ?_) (fun _ => ?_)
    · refine State.raise_frame ?_ _ _ (Sub.le (by decide) hp)
      exact h3
    · exact h3
  refine Frame.ite (fun _ => ?_) (fun _ => ?_)
  · refine State.faultMove_frame ?_ _ (Sub.le (by decide) hp)
    exact h4
  · exact h4

theorem State.supplyFault_frame {P : Part → Prop} {s0 s : State} (h : Frame P s0 s)  (hp : Sub 388065261883272260019759362 P) :
    Frame P s0 (State.supplyFault s) := by
  unfold State.supplyFault
  refine Frame.ite (fun _ => ?_) (fun _ => ?_)
  · refine State.leaseFault_frame ?_ _ (Sub.le (by decide) hp)
    exact h
  · exact h

theorem State.setFeed_frame {P : Part → Prop} {s0 s : State} (h : Frame P s0 s) (a_b : Bool) (a_f : Sys2Proof.Machine.FeedSt → Sys2Proof.Machine.FeedSt) (hp : Sub 2305843009213693952 P) :
    Frame P s0 (State.setFeed s a_b a_f) := by
  unfold State.setFeed
  refine State.setPwr_frame ?_ _ (Sub.le (by decide) hp)
  exact h

theorem State.feedMark_frame {P : Part → Prop} {s0 s : State} (h : Frame P s0 s) (a_b : Bool) (a_mark : ℕ) (hp : Sub 1239149041197814208125937954 P) :
    Frame P s0 (State.feedMark s a_b a_mark) := by
  unfold State.feedMark
  extract_lets -merge -useContext -underBinder +onlyGivenNames x0
  have h0 : Frame P s0 x0 := by
    unfold x0
    refine State.setFeed_frame ?_ _ _ (Sub.le (by decide) hp)
    exact h
  extract_lets -merge -useContext -underBinder +onlyGivenNames x1
  extract_lets -merge -useContext -underBinder +onlyGivenNames x2
  have h2 : Frame P s0 x2 := by
    unfold x2
    refine Frame.ite (fun _ => ?_) (fun _ => ?_)
    · refine State.qualClear_frame ?_ _ _ _ _ (Sub.le (by decide) hp)
      refine State.bump_frame ?_ _ (feedCounter_in _ (Sub.le (by decide) hp)) (Sub.le (by decide) hp)
      exact h0
    · refine State.powFail_frame ?_ _ _ _ _ _ (feedCounter_in _ (Sub.le (by decide) hp)) (Sub.le (by decide) hp)
      exact h0
  refine State.powPost_frame ?_ _ _ _ _ _ _ _ _ (Sub.le (by decide) hp)
  exact h2

theorem State.feedForward_frame {P : Part → Prop} {s0 s : State} (h : Frame P s0 s) (a_b : Bool) (a_vbus : ℕ) (hp : Sub 1209001912433933226813730 P) :
    Frame P s0 (State.feedForward s a_b a_vbus) := by
  unfold State.feedForward
  refine Frame.ite (fun _ => ?_) (fun _ => ?_)
  · extract_lets -merge -useContext -underBinder +onlyGivenNames x0
    have h0 : Frame P s0 x0 := by
      unfold x0
      refine State.setFeed_frame ?_ _ _ (Sub.le (by decide) hp)
      exact h
    refine State.qualClear_frame ?_ _ _ _ _ (Sub.le (by decide) hp)
    exact h0
  · exact h

theorem State.feedTrack_frame {P : Part → Prop} {s0 s : State} (h : Frame P s0 s) (a_b : Bool) (hp : Sub 2305843009213693952 P) :
    Frame P s0 (State.feedTrack s a_b) := by
  unfold State.feedTrack
  extract_lets -merge -useContext -underBinder +onlyGivenNames x0
  extract_lets -merge -useContext -underBinder +onlyGivenNames x1
  extract_lets -merge -useContext -underBinder +onlyGivenNames x2
  refine State.setFeed_frame ?_ _ _ (Sub.le (by decide) hp)
  exact h

theorem State.feedCheck_frame {P : Part → Prop} {s0 s : State} (h : Frame P s0 s) (a_b : Bool) (hp : Sub 1239149041197814208125937954 P) :
    Frame P s0 (State.feedCheck s a_b) := by
  unfold State.feedCheck
  extract_lets -merge -useContext -underBinder +onlyGivenNames x0
  have h0 : Frame P s0 x0 := by
    unfold x0
    refine State.feedTrack_frame ?_ _ (Sub.le (by decide) hp)
    exact h
  refine Frame.ite (fun _ => ?_) (fun _ => ?_)
  · refine State.feedMark_frame ?_ _ _ (Sub.le (by decide) hp)
    exact h0
  · exact h0

theorem execFeedVoltageChange_frame {P : Part → Prop} {s0 s : State} (h : Frame P s0 s) (a_b : Bool) (a_mv : BitVec 16) (a_vbus : BitVec 16) (hp : Sub 1239149041197814208125937954 P) :
    AnswersIn P s0 (execFeedVoltageChange a_b a_mv a_vbus s) := by
  refine ⟨_, rfl, ?_⟩
  refine State.feedForward_frame ?_ _ _ (Sub.le (by decide) hp)
  refine State.feedCheck_frame ?_ _ (Sub.le (by decide) hp)
  refine State.setFeed_frame ?_ _ _ (Sub.le (by decide) hp)
  exact h

theorem execFeedUvMark_frame {P : Part → Prop} {s0 s : State} (h : Frame P s0 s) (a_b : Bool) (hp : Sub 1239149041197814208125937954 P) :
    AnswersIn P s0 (execFeedUvMark a_b s) := by
  refine ⟨_, rfl, ?_⟩
  refine Frame.ite (fun _ => ?_) (fun _ => ?_)
  · refine State.feedMark_frame ?_ _ _ (Sub.le (by decide) hp)
    exact h
  · exact h

theorem execFeedSettleExpiry_frame {P : Part → Prop} {s0 s : State} (h : Frame P s0 s) (a_b : Bool) (hp : Sub 1239149041197814208125937954 P) :
    AnswersIn P s0 (execFeedSettleExpiry a_b s) := by
  refine ⟨_, rfl, ?_⟩
  extract_lets -merge -useContext -underBinder +onlyGivenNames x0
  refine Frame.ite (fun _ => ?_) (fun _ => ?_)
  · refine State.feedMark_frame ?_ _ _ (Sub.le (by decide) hp)
    exact h
  · exact h

theorem execReverseCurrent_frame {P : Part → Prop} {s0 s : State} (h : Frame P s0 s) (a_b : Bool) (a_diff : BitVec 16) (hp : Sub 1239149041197814208125937954 P) :
    AnswersIn P s0 (execReverseCurrent a_b a_diff s) := by
  refine ⟨_, rfl, ?_⟩
  refine Frame.ite (fun _ => ?_) (fun _ => ?_)
  · extract_lets -merge -useContext -underBinder +onlyGivenNames x0
    have h0 : Frame P s0 x0 := by
      unfold x0
      refine State.setFeed_frame ?_ _ _ (Sub.le (by decide) hp)
      exact h
    refine State.powFail_frame ?_ _ _ _ _ _ (reverseCounter_in _ (Sub.le (by decide) hp)) (Sub.le (by decide) hp)
    exact h0
  · exact h

theorem execSeatPinChange_frame {P : Part → Prop} {s0 s : State} (h : Frame P s0 s) (a_b : Bool) (a_asserted : Bool) (hp : Sub 2305843009213693952 P) :
    AnswersIn P s0 (execSeatPinChange a_b a_asserted s) := by
  refine ⟨_, rfl, ?_⟩
  extract_lets -merge -useContext -underBinder +onlyGivenNames x0
  extract_lets -merge -useContext -underBinder +onlyGivenNames x1
  refine Frame.ite (fun _ => ?_) (fun _ => ?_)
  · exact h
  · extract_lets -merge -useContext -underBinder +onlyGivenNames x2
    have h2 : Frame P s0 x2 := by
      unfold x2
      refine State.setPwr_frame ?_ _ (Sub.le (by decide) hp)
      exact h
    refine Frame.ite (fun _ => ?_) (fun _ => ?_)
    · refine Frame.ite (fun _ => ?_) (fun _ => ?_)
      · refine State.enterHs_frame ?_ _ (Sub.le (by decide) hp)
        exact h2
      · exact h2
    · refine Frame.ite (fun _ => ?_) (fun _ => ?_)
      · refine State.enterHs_frame ?_ _ (Sub.le (by decide) hp)
        exact h2
      · exact h2

theorem execSeatDebounceComplete_frame {P : Part → Prop} {s0 s : State} (h : Frame P s0 s)  (hp : Sub 1209001912433933226813698 P) :
    AnswersIn P s0 (execSeatDebounceComplete s) := by
  refine ⟨_, rfl, ?_⟩
  extract_lets -merge -useContext -underBinder +onlyGivenNames x0
  refine Frame.ite (fun _ => ?_) (fun _ => ?_)
  · extract_lets -merge -useContext -underBinder +onlyGivenNames x1
    extract_lets -merge -useContext -underBinder +onlyGivenNames x2
    have h2 : Frame P s0 x2 := by
      unfold x2
      refine State.setPwr_frame ?_ _ (Sub.le (by decide) hp)
      refine State.enterHs_frame ?_ _ (Sub.le (by decide) hp)
      exact h
    refine State.powPost_frame ?_ _ _ _ _ _ _ _ _ (Sub.le (by decide) hp)
    exact h2
  · exact h

theorem execSeatReleaseTimeout_frame {P : Part → Prop} {s0 s : State} (h : Frame P s0 s)  (hp : Sub 1239149041197814208125937922 P) :
    AnswersIn P s0 (execSeatReleaseTimeout s) := by
  refine ⟨_, rfl, ?_⟩
  refine Frame.ite (fun _ => ?_) (fun _ => ?_)
  · extract_lets -merge -useContext -underBinder +onlyGivenNames x0
    extract_lets -merge -useContext -underBinder +onlyGivenNames x1
    extract_lets -merge -useContext -underBinder +onlyGivenNames x2
    have h2 : Frame P s0 x2 := by
      unfold x2
      refine State.setPwr_frame ?_ _ (Sub.le (by decide) hp)
      refine State.enterHs_frame ?_ _ (Sub.le (by decide) hp)
      exact h
    extract_lets -merge -useContext -underBinder +onlyGivenNames x3
    have h3 : Frame P s0 x3 := by
      unfold x3
      refine Frame.ite (fun _ => ?_) (fun _ => ?_)
      · refine State.railsCut_frame ?_  (Sub.le (by decide) hp)
        exact h2
      · exact h2
    extract_lets -merge -useContext -underBinder +onlyGivenNames x4
    have h4 : Frame P s0 x4 := by
      unfold x4
      refine State.bump_frame ?_ _ (Reg.pwrCntSeatLoss_in (hp .regPwr rfl)) (Sub.le (by decide) hp)
      exact h3
    refine State.powPost_frame ?_ _ _ _ _ _ _ _ _ (Sub.le (by decide) hp)
    exact h4
  · exact h

theorem execRampStart_frame {P : Part → Prop} {s0 s : State} (h : Frame P s0 s)  (hp : Sub 2305843009213693952 P) :
    AnswersIn P s0 (execRampStart s) := by
  refine ⟨_, rfl, ?_⟩
  extract_lets -merge -useContext -underBinder +onlyGivenNames x0
  refine Frame.ite (fun _ => ?_) (fun _ => ?_)
  · refine State.setPwr_frame ?_ _ (Sub.le (by decide) hp)
    refine State.enterHs_frame ?_ _ (Sub.le (by decide) hp)
    exact h
  · exact h

theorem execRampComplete_frame {P : Part → Prop} {s0 s : State} (h : Frame P s0 s)  (hp : Sub 2305843009213693952 P) :
    AnswersIn P s0 (execRampComplete s) := by
  refine ⟨_, rfl, ?_⟩
  refine Frame.ite (fun _ => ?_) (fun _ => ?_)
  · refine State.railsRise_frame ?_  (Sub.le (by decide) hp)
    refine State.setPwr_frame ?_ _ (Sub.le (by decide) hp)
    refine State.enterHs_frame ?_ _ (Sub.le (by decide) hp)
    exact h
  · exact h

theorem execLimitTimeout_frame {P : Part → Prop} {s0 s : State} (h : Frame P s0 s) (a_shunt : Sys2Proof.Byte) (hp : Sub 1239149041197814208125937922 P) :
    AnswersIn P s0 (execLimitTimeout a_shunt s) := by
  refine ⟨_, rfl, ?_⟩
  refine Frame.ite (fun _ => ?_) (fun _ => ?_)
  · refine State.powFault_frame ?_ _ _ (Sub.le (by decide) hp)
    exact h
  · exact h

theorem execFastTrip_frame {P : Part → Prop} {s0 s : State} (h : Frame P s0 s) (a_shunt : Sys2Proof.Byte) (a_vout : BitVec 16) (hp : Sub 1239149041197814208125937922 P) :
    AnswersIn P s0 (execFastTrip a_shunt a_vout s) := by
  refine ⟨_, rfl, ?_⟩
  refine Frame.ite (fun _ => ?_) (fun _ => ?_)
  · extract_lets -merge -useContext -underBinder +onlyGivenNames x0
    extract_lets -merge -useContext -underBinder +onlyGivenNames x1
    have h1 : Frame P s0 x1 := by
      unfold x1
      refine State.powPost_frame ?_ _ _ _ _ _ _ _ _ (Sub.le (by decide) hp)
      exact h
    refine State.powFault_frame ?_ _ _ (Sub.le (by decide) hp)
    exact h1
  · exact h

theorem State.thermalCheck_frame {P : Part → Prop} {s0 s : State} (h : Frame P s0 s) (a_shunt : ℕ) (hp : Sub 1239149041197814208125937922 P) :
    Frame P s0 (State.thermalCheck s a_shunt) := by
  unfold State.thermalCheck
  refine Frame.ite (fun _ => ?_) (fun _ => ?_)
  · refine State.powFault_frame ?_ _ _ (Sub.le (by decide) hp)
    exact h
  · exact h

theorem State.fetPower_frame {P : Part → Prop} {s0 s : State} (h : Frame P s0 s) (a_vbus : ℕ) (a_vout : ℕ) (a_shuntUv : ℕ) (hp : Sub 36893488147419103232 P) :
    Frame P s0 (State.fetPower s a_vbus a_vout a_shuntUv).2 := by
  unfold State.fetPower
  refine Frame.ite2 (fun _ => ?_) (fun _ => ?_)
  · refine Frame.pair2 ?_
    exact h
  · refine Frame.ite2 (fun _ => ?_) (fun _ => ?_)
    · extract_lets -merge -useContext -underBinder +onlyGivenNames x0
      have h0 : Frame P s0 x0.2 := by
        unfold x0
        refine State.fresh_frame ?_  (Sub.le (by decide) hp)
        exact h
      refine Frame.pair2 ?_
      exact h0
    · refine Frame.pair2 ?_
      exact h

theorem State.stageTrack_frame {P : Part → Prop} {s0 s : State} (h : Frame P s0 s) (a_vbus : ℕ) (a_vout : ℕ) (a_shuntUv : ℕ) (hp : Sub 2305843009213693952 P) :
    Frame P s0 (State.stageTrack s a_vbus a_vout a_shuntUv) := by
  unfold State.stageTrack
  extract_lets -merge -useContext -underBinder +onlyGivenNames x0
  extract_lets -merge -useContext -underBinder +onlyGivenNames x1
  extract_lets -merge -useContext -underBinder +onlyGivenNames x2
  refine State.setPwr_frame ?_ _ (Sub.le (by decide) hp)
  exact h

theorem execThermalModelStep_frame {P : Part → Prop} {s0 s : State} (h : Frame P s0 s) (a_vbus : BitVec 16) (a_vout : BitVec 16) (a_shuntUv : BitVec 16) (hp : Sub 1239149078091302355545041154 P) :
    AnswersIn P s0 (execThermalModelStep a_vbus a_vout a_shuntUv s) := by
  refine ⟨_, rfl, ?_⟩
  refine Frame.ite (fun _ => ?_) (fun _ => ?_)
  · exact h
  · split
    · next y0_0 y0_1 e0 =>
        have g0 : Frame P s0 y0_1 := by
          refine Frame.of2 e0 ?_
          refine State.fetPower_frame ?_ _ _ _ (Sub.le (by decide) hp)
          exact h
        extract_lets -merge -useContext -underBinder +onlyGivenNames x1
        extract_lets -merge -useContext -underBinder +onlyGivenNames x2
        extract_lets -merge -useContext -underBinder +onlyGivenNames x3
        extract_lets -merge -useContext -underBinder +onlyGivenNames x4
        have h4 : Frame P s0 x4 := by
          unfold x4
          refine State.setPwr_frame ?_ _ (Sub.le (by decide) hp)
          exact g0
        refine State.thermalCheck_frame ?_ _ (Sub.le (by decide) hp)
        refine State.showTg_frame ?_  (Sub.le (by decide) hp)
        refine State.stageTrack_frame ?_ _ _ _ (Sub.le (by decide) hp)
        exact h4

theorem execTsMeasure_frame {P : Part → Prop} {s0 s : State} (h : Frame P s0 s) (a_t : ℤ) (hp : Sub 1239149041197814208125937954 P) :
    AnswersIn P s0 (execTsMeasure a_t s) := by
  refine ⟨_, rfl, ?_⟩
  extract_lets -merge -useContext -underBinder +onlyGivenNames x0
  extract_lets -merge -useContext -underBinder +onlyGivenNames x1
  refine Frame.ite (fun _ => ?_) (fun _ => ?_)
  · exact h
  · refine Frame.ite (fun _ => ?_) (fun _ => ?_)
    · refine State.thermalCheck_frame ?_ _ (Sub.le (by decide) hp)
      refine State.showTg_frame ?_  (Sub.le (by decide) hp)
      refine State.qualClear_frame ?_ _ _ _ _ (Sub.le (by decide) hp)
      refine State.setPwr_frame ?_ _ (Sub.le (by decide) hp)
      exact h
    · extract_lets -merge -useContext -underBinder +onlyGivenNames x2
      have h2 : Frame P s0 x2 := by
        unfold x2
        refine State.showTg_frame ?_  (Sub.le (by decide) hp)
        refine State.setPwr_frame ?_ _ (Sub.le (by decide) hp)
        exact h
      refine State.thermalCheck_frame ?_ _ (Sub.le (by decide) hp)
      refine State.powFail_frame ?_ _ _ _ _ _ (Reg.pwrCntTsFail_in (hp .regPwr rfl)) (Sub.le (by decide) hp)
      exact h2

theorem execRetryTimerExpiry_frame {P : Part → Prop} {s0 s : State} (h : Frame P s0 s)  (hp : Sub 2305843009213693952 P) :
    AnswersIn P s0 (execRetryTimerExpiry s) := by
  refine ⟨_, rfl, ?_⟩
  split
  · exact h
  · refine Frame.ite (fun _ => ?_) (fun _ => ?_)
    · refine State.setPwr_frame ?_ _ (Sub.le (by decide) hp)
      exact h
    · exact h

theorem execRetryForget_frame {P : Part → Prop} {s0 s : State} (h : Frame P s0 s)  (hp : Sub 2305843009213693952 P) :
    AnswersIn P s0 (execRetryForget s) := by
  refine ⟨_, rfl, ?_⟩
  refine Frame.ite (fun _ => ?_) (fun _ => ?_)
  · refine State.setPwr_frame ?_ _ (Sub.le (by decide) hp)
    exact h
  · exact h

theorem execPwrStart_frame {P : Part → Prop} {s0 s : State} (h : Frame P s0 s)  (hp : Sub 2305843009213693952 P) :
    AnswersIn P s0 (execPwrStart s) := by
  refine ⟨_, rfl, ?_⟩
  refine State.setPwr_frame ?_ _ (Sub.le (by decide) hp)
  exact h

theorem State.powStop_frame {P : Part → Prop} {s0 s : State} (h : Frame P s0 s)  (hp : Sub 2305843009213693952 P) :
    Frame P s0 (State.powStop s) := by
  unfold State.powStop
  extract_lets -merge -useContext -underBinder +onlyGivenNames x0
  extract_lets -merge -useContext -underBinder +onlyGivenNames x1
  have h1 : Frame P s0 x1 := by
    unfold x1
    refine State.setPwr_frame ?_ _ (Sub.le (by decide) hp)
    exact h
  refine Frame.ite (fun _ => ?_) (fun _ => ?_)
  · refine State.railsCut_frame ?_  (Sub.le (by decide) hp)
    refine State.setPwr_frame ?_ _ (Sub.le (by decide) hp)
    refine State.enterHs_frame ?_ _ (Sub.le (by decide) hp)
    exact h1
  · refine Frame.ite (fun _ => ?_) (fun _ => ?_)
    · refine State.railsDown_frame ?_  (Sub.le (by decide) hp)
      refine State.enterHs_frame ?_ _ (Sub.le (by decide) hp)
      exact h1
    · exact h1

theorem execPwrStop_frame {P : Part → Prop} {s0 s : State} (h : Frame P s0 s)  (hp : Sub 2305843009213693952 P) :
    AnswersIn P s0 (execPwrStop s) := by
  refine ⟨_, rfl, ?_⟩
  refine State.powStop_frame ?_  (Sub.le (by decide) hp)
  exact h

theorem State.powUnlatch_frame {P : Part → Prop} {s0 s : State} (h : Frame P s0 s)  (hp : Sub 2305843009213693952 P) :
    Frame P s0 (State.powUnlatch s) := by
  unfold State.powUnlatch
  extract_lets -merge -useContext -underBinder +onlyGivenNames x0
  have h0 : Frame P s0 x0 := by
    unfold x0
    refine Frame.ite (fun _ => ?_) (fun _ => ?_)
    · refine State.enterHs_frame ?_ _ (Sub.le (by decide) hp)
      exact h
    · exact h
  refine State.setPwr_frame ?_ _ (Sub.le (by decide) hp)
  exact h0

theorem execUnlatch_frame {P : Part → Prop} {s0 s : State} (h : Frame P s0 s)  (hp : Sub 2305843009213693952 P) :
    AnswersIn P s0 (execUnlatch s) := by
  refine ⟨_, rfl, ?_⟩
  refine State.powUnlatch_frame ?_  (Sub.le (by decide) hp)
  exact h

theorem State.powCmd_frame {P : Part → Prop} {s0 s : State} (h : Frame P s0 s) (a_v : Sys2Proof.Word) (hp : Sub 2305843009213693952 P) :
    Frame P s0 (State.powCmd s a_v) := by
  unfold State.powCmd
  extract_lets -merge -useContext -underBinder +onlyGivenNames x0
  have h0 : Frame P s0 x0 := by
    unfold x0
    refine Frame.ite (fun _ => ?_) (fun _ => ?_)
    · refine State.setPwr_frame ?_ _ (Sub.le (by decide) hp)
      exact h
    · exact h
  extract_lets -merge -useContext -underBinder +onlyGivenNames x1
  have h1 : Frame P s0 x1 := by
    unfold x1
    refine Frame.ite (fun _ => ?_) (fun _ => ?_)
    · refine State.powStop_frame ?_  (Sub.le (by decide) hp)
      exact h0
    · exact h0
  refine Frame.ite (fun _ => ?_) (fun _ => ?_)
  · refine State.powUnlatch_frame ?_  (Sub.le (by decide) hp)
    exact h1
  · exact h1

theorem State.announceAll_frame {P : Part → Prop} {s0 s : State} (h : Frame P s0 s) (hp : Sub 73786976294838413314 P) : Frame P s0 s.announceAll := by
  unfold State.announceAll
  exact Frame.foldl_mem h (fun y n hn hy => Frame.ite (fun _ => hy)
    (fun _ => State.evAnnounce_frame hy n (by have := mem_upFrom hn; omega) (Sub.le (by decide) hp)))

theorem State.gaspActs_frame {P : Part → Prop} {s0 s : State} (h : Frame P s0 s)  (hp : Sub 2934308385666912565587568437538 P) :
    Frame P s0 (State.gaspActs s) := by
  unfold State.gaspActs
  refine Frame.ite (fun _ => ?_) (fun _ => ?_)
  · extract_lets -merge -useContext -underBinder +onlyGivenNames x0
    have h0 : Frame P s0 x0 := by
      unfold x0
      refine Frame.ite (fun _ => ?_) (fun _ => ?_)
      · refine State.releaseLease_frame ?_ _ (Sub.le (by decide) hp)
        exact h
      · exact h
    extract_lets -merge -useContext -underBinder +onlyGivenNames x1
    have h1 : Frame P s0 x1 := by
      unfold x1
      refine State.pubDying_frame ?_ _ (Sub.le (by decide) hp)
      exact h0
    refine Frame.foldl ?_ (fun y2 a2 h2 => ?_)
    · exact h1
    · refine State.safeEnter_frame ?_ _ (Sub.le (by decide) hp)
      exact h2
  · exact h

theorem execDyingGaspDecision_frame {P : Part → Prop} {s0 s : State} (h : Frame P s0 s) (a_us : Sys2Proof.Byte) (hp : Sub 2935546325706197945862467561762 P) :
    AnswersIn P s0 (execDyingGaspDecision a_us s) := by
  refine ⟨_, rfl, ?_⟩
  extract_lets -merge -useContext -underBinder +onlyGivenNames x0
  extract_lets -merge -useContext -underBinder +onlyGivenNames x1
  extract_lets -merge -useContext -underBinder +onlyGivenNames x2
  extract_lets -merge -useContext -underBinder +onlyGivenNames x3
  refine Frame.ite (fun _ => ?_) (fun _ => ?_)
  · extract_lets -merge -useContext -underBinder +onlyGivenNames x4
    extract_lets -merge -useContext -underBinder +onlyGivenNames x5
    have h5 : Frame P s0 x5 := by
      unfold x5
      refine State.bump_frame ?_ _ (Reg.pwrCntDying_in (hp .regPwr rfl)) (Sub.le (by decide) hp)
      refine State.setPwr_frame ?_ _ (Sub.le (by decide) hp)
      exact h
    extract_lets -merge -useContext -underBinder +onlyGivenNames x6
    have h6 : Frame P s0 x6 := by
      unfold x6
      refine State.gaspActs_frame ?_  (Sub.le (by decide) hp)
      exact h5
    extract_lets -merge -useContext -underBinder +onlyGivenNames x7
    have h7 : Frame P s0 x7 := by
      unfold x7
      refine State.powPost_frame ?_ _ _ _ _ _ _ _ _ (Sub.le (by decide) hp)
      exact h6
    refine Frame.ite (fun _ => ?_) (fun _ => ?_)
    · refine State.setNet_frame ?_ _ (Sub.le (by decide) hp)
      refine State.announceAll_frame ?_  (Sub.le (by decide) hp)
      exact h7
    · exact h7
  · exact h

theorem execDyingGaspEnd_frame {P : Part → Prop} {s0 s : State} (h : Frame P s0 s)  (hp : Sub 2305843009213693952 P) :
    AnswersIn P s0 (execDyingGaspEnd s) := by
  refine ⟨_, rfl, ?_⟩
  refine Frame.ite (fun _ => ?_) (fun _ => ?_)
  · extract_lets -merge -useContext -underBinder +onlyGivenNames x0
    have h0 : Frame P s0 x0 := by
      unfold x0
      refine Frame.ite (fun _ => ?_) (fun _ => ?_)
      · refine State.enterHs_frame ?_ _ (Sub.le (by decide) hp)
        exact h
      · exact h
    refine State.railsDown_frame ?_  (Sub.le (by decide) hp)
    refine State.setPwr_frame ?_ _ (Sub.le (by decide) hp)
    exact h0
  · exact h

theorem State.hubPowerLoss_frame {P : Part → Prop} {s0 s : State} (_ : Frame P s0 s)  (hp : Sub 40564819207303340847894502572031 P) :
    Frame P s0 (State.hubPowerLoss s) := Frame.all hp

theorem State.hubPowerBack_frame {P : Part → Prop} {s0 s : State} (_ : Frame P s0 s)  (hp : Sub 40564819207303340847894502572031 P) :
    Frame P s0 (State.hubPowerBack s) := Frame.all hp

theorem execRailPgChange_frame {P : Part → Prop} {s0 s : State} (_ : Frame P s0 s) (a_r : Fin 8) (a_level : Bool) (hp : Sub 40564819207303340847894502572031 P) :
    AnswersIn P s0 (execRailPgChange a_r a_level s) := ⟨_, rfl, Frame.all hp⟩

theorem State.railFault_frame {P : Part → Prop} {s0 s : State} (h : Frame P s0 s) (a_kind : ℕ) (a_r : ℕ) (hp : Sub 41240086560606664340904552706 P) :
    Frame P s0 (State.railFault s a_kind a_r) := by
  unfold State.railFault
  extract_lets -merge -useContext -underBinder +onlyGivenNames x0
  have h0 : Frame P s0 x0 := by
    unfold x0
    refine State.bump_frame ?_ _ (RegIn.ite (Reg.seqCntPgTimeout_in (hp .regSeq rfl)) (Reg.seqCntPgLost_in (hp .regSeq rfl))) (Sub.le (by decide) hp)
    exact h
  extract_lets -merge -useContext -underBinder +onlyGivenNames x1
  have h1 : Frame P s0 x1 := by
    unfold x1
    refine State.powPost_frame ?_ _ _ _ _ _ _ _ _ (Sub.le (by decide) hp)
    exact h0
  refine State.powFault_frame ?_ _ _ (Sub.le (by decide) hp)
  refine State.supplyFault_frame ?_  (Sub.le (by decide) hp)
  exact h1

theorem execPgTimeout_frame {P : Part → Prop} {s0 s : State} (h : Frame P s0 s) (a_r : Fin 8) (hp : Sub 41240086560606664340904552706 P) :
    AnswersIn P s0 (execPgTimeout a_r s) := by
  refine ⟨_, rfl, ?_⟩
  extract_lets -merge -useContext -underBinder +onlyGivenNames x0
  refine Frame.ite (fun _ => ?_) (fun _ => ?_)
  · refine State.railFault_frame ?_ _ _ (Sub.le (by decide) hp)
    exact h
  · exact h

theorem execPgLost_frame {P : Part → Prop} {s0 s : State} (h : Frame P s0 s) (a_r : Fin 8) (hp : Sub 41240086560606664340904552706 P) :
    AnswersIn P s0 (execPgLost a_r s) := by
  refine ⟨_, rfl, ?_⟩
  extract_lets -merge -useContext -underBinder +onlyGivenNames x0
  refine Frame.ite (fun _ => ?_) (fun _ => ?_)
  · refine State.railFault_frame ?_ _ _ (Sub.le (by decide) hp)
    exact h
  · exact h

theorem State.adcFail_frame {P : Part → Prop} {s0 s : State} (h : Frame P s0 s) (a_check : ℕ) (a_c : ℕ) (a_code : Sys2Proof.Word) (hp : Sub 1626007664657736978955184418 P) :
    Frame P s0 (State.adcFail s a_check a_c a_code) := by
  unfold State.adcFail
  extract_lets -merge -useContext -underBinder +onlyGivenNames x0
  have h0 : Frame P s0 x0 := by
    unfold x0
    refine State.supplyFault_frame ?_  (Sub.le (by decide) hp)
    refine State.powFail_frame ?_ _ _ _ _ _ (Reg.adcCntFail_in _ (by omega) (hp .regAdc rfl)) (Sub.le (by decide) hp)
    exact h
  refine Frame.ite (fun _ => ?_) (fun _ => ?_)
  · refine State.powFault_frame ?_ _ _ (Sub.le (by decide) hp)
    exact h0
  · exact h0

theorem execAdcConversion_frame {P : Part → Prop} {s0 s : State} (h : Frame P s0 s) (a_c : Fin 16) (a_code : BitVec 12) (hp : Sub 1626007664657736978955184418 P) :
    AnswersIn P s0 (execAdcConversion a_c a_code s) := by
  refine ⟨_, rfl, ?_⟩
  extract_lets -merge -useContext -underBinder +onlyGivenNames x0
  extract_lets -merge -useContext -underBinder +onlyGivenNames x1
  refine Frame.ite (fun _ => ?_) (fun _ => ?_)
  · exact h
  · extract_lets -merge -useContext -underBinder +onlyGivenNames x2
    have h2 : Frame P s0 x2 := by
      unfold x2
      refine State.setPwr_frame ?_ _ (Sub.le (by decide) hp)
      exact h
    extract_lets -merge -useContext -underBinder +onlyGivenNames x3
    extract_lets -merge -useContext -underBinder +onlyGivenNames x4
    extract_lets -merge -useContext -underBinder +onlyGivenNames x5
    extract_lets -merge -useContext -underBinder +onlyGivenNames x6
    have h6 : Frame P s0 x6 := by
      unfold x6
      refine State.wr_frame ?_ _ _ (Reg.adcChVal_in _ (by omega) (hp .regAdc rfl)) (Sub.le (by decide) hp)
      exact h2
    refine Frame.ite (fun _ => ?_) (fun _ => ?_)
    · extract_lets -merge -useContext -underBinder +onlyGivenNames x7
      extract_lets -merge -useContext -underBinder +onlyGivenNames x8
      have h8 : Frame P s0 x8 := by
        unfold x8
        refine State.setPwr_frame ?_ _ (Sub.le (by decide) hp)
        exact h6
      refine Frame.ite (fun _ => ?_) (fun _ => ?_)
      · refine State.qualClear_frame ?_ _ _ _ _ (Sub.le (by decide) hp)
        refine State.qualClear_frame ?_ _ _ _ _ (Sub.le (by decide) hp)
        exact h8
      · exact h8
    · refine Frame.ite (fun _ => ?_) (fun _ => ?_)
      · extract_lets -merge -useContext -underBinder +onlyGivenNames x9
        extract_lets -merge -useContext -underBinder +onlyGivenNames x10
        have h10 : Frame P s0 x10 := by
          unfold x10
          refine State.setPwr_frame ?_ _ (Sub.le (by decide) hp)
          exact h6
        refine Frame.ite (fun _ => ?_) (fun _ => ?_)
        · refine State.adcFail_frame ?_ _ _ _ (Sub.le (by decide) hp)
          exact h10
        · exact h10
      · refine State.setPwr_frame ?_ _ (Sub.le (by decide) hp)
        exact h6

theorem execAdcArmTimeout_frame {P : Part → Prop} {s0 s : State} (h : Frame P s0 s) (a_c : Fin 16) (hp : Sub 1626007664657736978955184418 P) :
    AnswersIn P s0 (execAdcArmTimeout a_c s) := by
  refine ⟨_, rfl, ?_⟩
  extract_lets -merge -useContext -underBinder +onlyGivenNames x0
  extract_lets -merge -useContext -underBinder +onlyGivenNames x1
  extract_lets -merge -useContext -underBinder +onlyGivenNames x2
  refine Frame.ite (fun _ => ?_) (fun _ => ?_)
  · refine State.adcFail_frame ?_ _ _ _ (Sub.le (by decide) hp)
    exact h
  · exact h

theorem State.bufEcc_frame {P : Part → Prop} {s0 s : State} (h : Frame P s0 s) (a_x : Sys2Proof.ReadEcc) (hp : Sub 1218444339556663303547266 P) :
    Frame P s0 (State.bufEcc s a_x) := by
  unfold State.bufEcc
  split
  · exact h
  · refine State.eccError_frame ?_ _ _ _ _ _ (Sub.le (by decide) hp)
    exact h
  · refine State.eccError_frame ?_ _ _ _ _ _ (Sub.le (by decide) hp)
    refine State.bump_frame ?_ _ (Reg.bufCntEccDiscard_in (hp .regBuf rfl)) (Sub.le (by decide) hp)
    exact h

theorem State.ddrEcc_frame {P : Part → Prop} {s0 s : State} (h : Frame P s0 s) (a_x : Sys2Proof.ReadEcc) (hp : Sub 1360115334042752659958146 P) :
    Frame P s0 (State.ddrEcc s a_x) := by
  unfold State.ddrEcc
  split
  · exact h
  · refine State.eccError_frame ?_ _ _ _ _ _ (Sub.le (by decide) hp)
    refine State.bump_frame ?_ _ (Reg.ddrCntEccCorr_in (hp .regDdr rfl)) (Sub.le (by decide) hp)
    exact h
  · extract_lets -merge -useContext -underBinder +onlyGivenNames x3
    refine State.eccError_frame ?_ _ _ _ _ _ (Sub.le (by decide) hp)
    refine State.raise_frame ?_ _ _ (Sub.le (by decide) hp)
    refine State.wr_frame ?_ _ _ (Reg.ddrEccAddrHi_in (hp .regDdr rfl)) (Sub.le (by decide) hp)
    refine State.wr_frame ?_ _ _ (Reg.ddrEccAddrLo_in (hp .regDdr rfl)) (Sub.le (by decide) hp)
    refine State.bump_frame ?_ _ (Reg.ddrCntEccUncorr_in (hp .regDdr rfl)) (Sub.le (by decide) hp)
    exact h

theorem State.ptpSent_frame {P : Part → Prop} {s0 s : State} (h : Frame P s0 s) (a_port : ℕ) (a_f : Sys2Proof.Machine.QFrame) (hp : Sub 140737488355328 P) :
    Frame P s0 (State.ptpSent s a_port a_f) := by
  unfold State.ptpSent
  extract_lets -merge -useContext -underBinder +onlyGivenNames x0
  refine Frame.ite (fun _ => ?_) (fun _ => ?_)
  · exact h
  · split
    · refine Frame.set_ptp ?_ (hp .ptp rfl) _
      exact h
    · refine Frame.set_ptp ?_ (hp .ptp rfl) _
      exact h
    · exact h

theorem State.startFrame_frame {P : Part → Prop} {s0 s : State} (h : Frame P s0 s) (a_port : ℕ) (a_cls : ℕ) (a_ecc : Sys2Proof.ReadEcc) (hp : Sub 316913868501397049973990959490 P) :
    Frame P s0 (State.startFrame s a_port a_cls a_ecc) := by
  unfold State.startFrame
  split
  · exact h
  · extract_lets -merge -useContext -underBinder +onlyGivenNames x2
    have h2 : Frame P s0 x2 := by
      unfold x2
      refine State.bufEcc_frame ?_ _ (Sub.le (by decide) hp)
      refine State.setQueue_frame ?_ _ _ _ (Sub.le (by decide) hp)
      exact h
    split
    · refine State.spillCheck_frame ?_  (Sub.le (by decide) hp)
      exact h2
    · extract_lets -merge -useContext -underBinder +onlyGivenNames x5
      extract_lets -merge -useContext -underBinder +onlyGivenNames x6
      extract_lets -merge -useContext -underBinder +onlyGivenNames x7
      have h7 : Frame P s0 x7 := by
        unfold x7
        refine State.ptpSent_frame ?_ _ _ (Sub.le (by decide) hp)
        refine State.setSending_frame ?_ _ _ (Sub.le (by decide) hp)
        exact h2
      refine State.mirror_frame ?_ _ _ _ (Sub.le (by decide) hp)
      exact h7

theorem execEgressTransmitStart_frame {P : Part → Prop} {s0 s : State} (h : Frame P s0 s) (a_port : Fin 8) (a_ecc : Sys2Proof.ReadEcc) (hp : Sub 2933921529404636024989049629090 P) :
    AnswersIn P s0 (execEgressTransmitStart a_port a_ecc s) := by
  refine ⟨_, rfl, ?_⟩
  extract_lets -merge -useContext -underBinder +onlyGivenNames x0
  have h0 : Frame P s0 x0 := by
    unfold x0
    refine State.pubFlush_frame ?_ _ (Sub.le (by decide) hp)
    exact h
  extract_lets -merge -useContext -underBinder +onlyGivenNames x1
  refine Frame.ite (fun _ => ?_) (fun _ => ?_)
  · exact h0
  · refine Frame.ite (fun _ => ?_) (fun _ => ?_)
    · refine Frame.ite (fun _ => ?_) (fun _ => ?_)
      · exact h0
      · refine Frame.ite (fun _ => ?_) (fun _ => ?_)
        · refine State.startFrame_frame ?_ _ _ _ (Sub.le (by decide) hp)
          exact h0
        · refine Frame.ite (fun _ => ?_) (fun _ => ?_)
          · refine State.startFrame_frame ?_ _ _ _ (Sub.le (by decide) hp)
            exact h0
          · refine State.setSending_frame ?_ _ _ (Sub.le (by decide) hp)
            exact h0
    · split
      · extract_lets -merge -useContext -underBinder +onlyGivenNames x3
        have h3 : Frame P s0 x3 := by
          unfold x3
          refine State.setNet_frame ?_ _ (Sub.le (by decide) hp)
          exact h0
        split
        · exact h3
        · refine State.startFrame_frame ?_ _ _ _ (Sub.le (by decide) hp)
          exact h3

theorem State.settleCopies_frame {P : Part → Prop} {s0 s : State} (h : Frame P s0 s) (a_mark : ℕ) (a_lost : Bool) (hp : Sub 2199023255552 P) :
    Frame P s0 (State.settleCopies s a_mark a_lost) := by
  unfold State.settleCopies
  refine State.setNet_frame ?_ _ (Sub.le (by decide) hp)
  exact h

theorem State.endFrame_frame {P : Part → Prop} {s0 s : State} (h : Frame P s0 s) (a_port : ℕ) (a_express : Bool) (a_f : Sys2Proof.Machine.QFrame) (a_ecc : Sys2Proof.ReadEcc) (hp : Sub 3636295978788120676215170 P) :
    Frame P s0 (State.endFrame s a_port a_express a_f a_ecc) := by
  unfold State.endFrame
  extract_lets -merge -useContext -underBinder +onlyGivenNames x0
  have h0 : Frame P s0 x0 := by
    unfold x0
    refine State.bufEcc_frame ?_ _ (Sub.le (by decide) hp)
    exact h
  extract_lets -merge -useContext -underBinder +onlyGivenNames x1
  extract_lets -merge -useContext -underBinder +onlyGivenNames x2
  have h2 : Frame P s0 x2 := by
    unfold x2
    refine State.settleCopies_frame ?_ _ _ (Sub.le (by decide) hp)
    exact h0
  refine Frame.ite (fun _ => ?_) (fun _ => ?_)
  · extract_lets -merge -useContext -underBinder +onlyGivenNames x3
    have h3 : Frame P s0 x3 := by
      unfold x3
      refine State.bump_frame ?_ _ (Reg.fpCntTxFrames_in _ (hp .regFp rfl)) (Sub.le (by decide) hp)
      exact h2
    refine Frame.ite (fun _ => ?_) (fun _ => ?_)
    · refine State.bump_frame ?_ _ (Reg.fpCntTxStomp_in _ (hp .regFp rfl)) (Sub.le (by decide) hp)
      exact h3
    · exact h3
  · refine Frame.ite (fun _ => ?_) (fun _ => ?_)
    · exact h2
    · refine State.handOver_frame ?_ _ _ (Sub.le (by decide) hp)
      exact h2

theorem execFrameTransmitEnd_frame {P : Part → Prop} {s0 s : State} (h : Frame P s0 s) (a_port : Fin 8) (a_ecc : Sys2Proof.ReadEcc) (hp : Sub 3636295978788120676215170 P) :
    AnswersIn P s0 (execFrameTransmitEnd a_port a_ecc s) := by
  refine ⟨_, rfl, ?_⟩
  extract_lets -merge -useContext -underBinder +onlyGivenNames x0
  split
  · refine State.spillCheck_frame ?_  (Sub.le (by decide) hp)
    refine State.endFrame_frame ?_ _ _ _ _ (Sub.le (by decide) hp)
    refine State.setSending_frame ?_ _ _ (Sub.le (by decide) hp)
    exact h
  · split
    · refine Frame.ite (fun _ => ?_) (fun _ => ?_)
      · exact h
      · refine State.spillCheck_frame ?_  (Sub.le (by decide) hp)
        refine State.endFrame_frame ?_ _ _ _ _ (Sub.le (by decide) hp)
        refine State.setSending_frame ?_ _ _ (Sub.le (by decide) hp)
        exact h
    · exact h

theorem execPreemption_frame {P : Part → Prop} {s0 s : State} (h : Frame P s0 s) (a_port : Fin 4) (hp : Sub 2417851639231457372667904 P) :
    AnswersIn P s0 (execPreemption a_port s) := by
  refine ⟨_, rfl, ?_⟩
  extract_lets -merge -useContext -underBinder +onlyGivenNames x0
  refine Frame.ite (fun _ => ?_) (fun _ => ?_)
  · refine State.bump_frame ?_ _ (Reg.fpCntPreempt_in _ (hp .regFp rfl)) (Sub.le (by decide) hp)
    refine State.setSending_frame ?_ _ _ (Sub.le (by decide) hp)
    exact h
  · exact h

theorem State.writeCopy_frame {P : Part → Prop} {s0 s : State} (h : Frame P s0 s) (a_c : Sys2Proof.Machine.PendingCopy) (hp : Sub 316916286353036138494852016450 P) :
    Frame P s0 (State.writeCopy s a_c) := by
  unfold State.writeCopy
  split
  · next y0_0 y0_1 e0 =>
      have g0 : Frame P s0 y0_1 := by
        refine Frame.of2 e0 ?_
        refine State.admitAs_frame ?_ _ _ (Sub.le (by decide) hp)
        exact h
      split
      · refine State.mirrorDrop_frame ?_ _ _ (Sub.le (by decide) hp)
        exact g0
      · refine State.mirrorDrop_frame ?_ _ _ (Sub.le (by decide) hp)
        exact g0
      · exact g0

theorem execCopyWrite_frame {P : Part → Prop} {s0 s : State} (h : Frame P s0 s)  (hp : Sub 316916286353036138494852016450 P) :
    AnswersIn P s0 (execCopyWrite s) := by
  refine ⟨_, rfl, ?_⟩
  split
  · exact h
  · split
    · extract_lets -merge -useContext -underBinder +onlyGivenNames x3
      have h3 : Frame P s0 x3 := by
        unfold x3
        refine State.setNet_frame ?_ _ (Sub.le (by decide) hp)
        exact h
      split
      · refine State.writeCopy_frame ?_ _ (Sub.le (by decide) hp)
        exact h3
      · exact h3

theorem execReplicationTimeout_frame {P : Part → Prop} {s0 s : State} (h : Frame P s0 s) (a_i : ℕ) (hp : Sub 316912650130844328868037468162 P) :
    AnswersIn P s0 (execReplicationTimeout a_i s) := by
  refine ⟨_, rfl, ?_⟩
  split
  · split
    · refine Frame.ite (fun _ => ?_) (fun _ => ?_)
      · refine State.raise_frame ?_ _ _ (Sub.le (by decide) hp)
        refine State.bump_frame ?_ _ (Reg.swcCntReplDrop_in (hp .regSwc rfl)) (Sub.le (by decide) hp)
        refine State.setNet_frame ?_ _ (Sub.le (by decide) hp)
        exact h
      · exact h
    · exact h

theorem execMirrorCopyTimeout_frame {P : Part → Prop} {s0 s : State} (h : Frame P s0 s) (a_i : ℕ) (hp : Sub 316913859056663943497212176706 P) :
    AnswersIn P s0 (execMirrorCopyTimeout a_i s) := by
  refine ⟨_, rfl, ?_⟩
  split
  · split
    · split
      · refine Frame.ite (fun _ => ?_) (fun _ => ?_)
        · refine State.mirrorDrop_frame ?_ _ _ (Sub.le (by decide) hp)
          refine State.setNet_frame ?_ _ (Sub.le (by decide) hp)
          exact h
        · exact h
      · exact h
    · exact h

theorem execPushoutRepost_frame {P : Part → Prop} {s0 s : State} (h : Frame P s0 s) (a_port : Fin 8) (hp : Sub 1208999606593123036375298 P) :
    AnswersIn P s0 (execPushoutRepost a_port s) := by
  refine ⟨_, rfl, ?_⟩
  extract_lets -merge -useContext -underBinder +onlyGivenNames x0
  refine Frame.ite (fun _ => ?_) (fun _ => ?_)
  · exact h
  · refine State.pushPost_frame ?_ _ (Sub.le (by decide) hp)
    exact h

theorem State.storeFullCheck_frame {P : Part → Prop} {s0 s : State} (h : Frame P s0 s)  (hp : Sub 2199023255552 P) :
    Frame P s0 (State.storeFullCheck s) := by
  unfold State.storeFullCheck
  refine Frame.ite (fun _ => ?_) (fun _ => ?_)
  · refine State.setNet_frame ?_ _ (Sub.le (by decide) hp)
    exact h
  · exact h

theorem execMigration_frame {P : Part → Prop} {s0 s : State} (h : Frame P s0 s) (a_port : Fin 8) (a_cls : Fin 5) (hp : Sub 1218444339558862326802690 P) :
    AnswersIn P s0 (execMigration a_port a_cls s) := by
  refine ⟨_, rfl, ?_⟩
  extract_lets -merge -useContext -underBinder +onlyGivenNames x0
  split
  · exact h
  · refine Frame.ite (fun _ => ?_) (fun _ => ?_)
    · extract_lets -merge -useContext -underBinder +onlyGivenNames x3
      have h3 : Frame P s0 x3 := by
        unfold x3
        refine State.setQueue_frame ?_ _ _ _ (Sub.le (by decide) hp)
        exact h
      extract_lets -merge -useContext -underBinder +onlyGivenNames x4
      have h4 : Frame P s0 x4 := by
        unfold x4
        refine State.setNet_frame ?_ _ (Sub.le (by decide) hp)
        refine State.bump_frame ?_ _ (Reg.bufCntSpilled_in _ (by omega) (hp .regBuf rfl)) (Sub.le (by decide) hp)
        exact h3
      extract_lets -merge -useContext -underBinder +onlyGivenNames x5
      have h5 : Frame P s0 x5 := by
        unfold x5
        refine Frame.ite (fun _ => ?_) (fun _ => ?_)
        · refine State.wr_frame ?_ _ _ (Reg.bufStorePeak_in (hp .regBuf rfl)) (Sub.le (by decide) hp)
          exact h4
        · exact h4
      refine State.spillCheck_frame ?_  (Sub.le (by decide) hp)
      exact h5
    · extract_lets -merge -useContext -underBinder +onlyGivenNames x6
      have h6 : Frame P s0 x6 := by
        unfold x6
        refine State.setQueue_frame ?_ _ _ _ (Sub.le (by decide) hp)
        exact h
      extract_lets -merge -useContext -underBinder +onlyGivenNames x7
      have h7 : Frame P s0 x7 := by
        unfold x7
        refine State.bump_frame ?_ _ (Reg.bufCntStoreDrop_in (hp .regBuf rfl)) (Sub.le (by decide) hp)
        exact h6
      extract_lets -merge -useContext -underBinder +onlyGivenNames x8
      have h8 : Frame P s0 x8 := by
        unfold x8
        refine State.setNet_frame ?_ _ (Sub.le (by decide) hp)
        exact h7
      extract_lets -merge -useContext -underBinder +onlyGivenNames x9
      have h9 : Frame P s0 x9 := by
        unfold x9
        refine Frame.ite (fun _ => ?_) (fun _ => ?_)
        · exact h7
        · refine State.post_frame ?_ _ _ _ _ _ _ _ _ (Sub.le (by decide) hp)
          refine State.raise_frame ?_ _ _ (Sub.le (by decide) hp)
          exact h8
      refine State.spillCheck_frame ?_  (Sub.le (by decide) hp)
      exact h9

theorem execStoreReadback_frame {P : Part → Prop} {s0 s : State} (h : Frame P s0 s) (a_port : Fin 8) (a_cls : Fin 5) (a_ecc : Sys2Proof.ReadEcc) (hp : Sub 1369560067010690973641090 P) :
    AnswersIn P s0 (execStoreReadback a_port a_cls a_ecc s) := by
  refine ⟨_, rfl, ?_⟩
  extract_lets -merge -useContext -underBinder +onlyGivenNames x0
  refine Frame.ite (fun _ => ?_) (fun _ => ?_)
  · extract_lets -merge -useContext -underBinder +onlyGivenNames x1
    have h1 : Frame P s0 x1 := by
      unfold x1
      refine State.ddrEcc_frame ?_ _ (Sub.le (by decide) hp)
      exact h
    extract_lets -merge -useContext -underBinder +onlyGivenNames x2
    have h2 : Frame P s0 x2 := by
      unfold x2
      split
      · refine State.setQueue_frame ?_ _ _ _ (Sub.le (by decide) hp)
        refine State.bump_frame ?_ _ (Reg.bufCntEccDiscard_in (hp .regBuf rfl)) (Sub.le (by decide) hp)
        exact h1
      · refine State.setQueue_frame ?_ _ _ _ (Sub.le (by decide) hp)
        exact h1
    refine State.storeFullCheck_frame ?_  (Sub.le (by decide) hp)
    exact h2
  · exact h

theorem execStoreCfgWrite_frame {P : Part → Prop} {s0 s : State} (h : Frame P s0 s) (a_size : Bool) (a_v : Sys2Proof.Word) (hp : Sub 9444732967938313682944 P) :
    AnswersIn P s0 (execStoreCfgWrite a_size a_v s) := by
  refine ⟨_, rfl, ?_⟩
  refine Frame.ite (fun _ => ?_) (fun _ => ?_)
  · extract_lets -merge -useContext -underBinder +onlyGivenNames x0
    have h0 : Frame P s0 x0 := by
      unfold x0
      refine Frame.ite (fun _ => ?_) (fun _ => ?_)
      · refine State.wr_frame ?_ _ _ (Reg.bufStoreSize_in (hp .regBuf rfl)) (Sub.le (by decide) hp)
        exact h
      · refine State.wr_frame ?_ _ _ (Reg.bufStoreBase_in (hp .regBuf rfl)) (Sub.le (by decide) hp)
        exact h
    refine State.setNet_frame ?_ _ (Sub.le (by decide) hp)
    exact h0
  · exact h

theorem execBufMarksWrite_frame {P : Part → Prop} {s0 s : State} (h : Frame P s0 s) (a_spill : Bool) (a_v : Sys2Proof.Word) (hp : Sub 1218444339558862326802690 P) :
    AnswersIn P s0 (execBufMarksWrite a_spill a_v s) := by
  refine ⟨_, rfl, ?_⟩
  extract_lets -merge -useContext -underBinder +onlyGivenNames x0
  extract_lets -merge -useContext -underBinder +onlyGivenNames x1
  extract_lets -merge -useContext -underBinder +onlyGivenNames x2
  refine Frame.ite (fun _ => ?_) (fun _ => ?_)
  · refine State.spillCheck_frame ?_  (Sub.le (by decide) hp)
    refine State.setNet_frame ?_ _ (Sub.le (by decide) hp)
    refine State.wr_frame ?_ _ _ (RegIn.ite (Reg.bufSpill_in (hp .regBuf rfl)) (Reg.bufFloors_in (hp .regBuf rfl))) (Sub.le (by decide) hp)
    exact h
  · refine State.setNet_frame ?_ _ (Sub.le (by decide) hp)
    exact h

theorem State.storeRegionCheck_frame {P : Part → Prop} {s0 s : State} (h : Frame P s0 s)  (hp : Sub 2199023255552 P) :
    Frame P s0 (State.storeRegionCheck s) := by
  unfold State.storeRegionCheck
  refine Frame.ite (fun _ => ?_) (fun _ => ?_)
  · refine State.setNet_frame ?_ _ (Sub.le (by decide) hp)
    exact h
  · exact h

theorem execDdrTrainingDone_frame {P : Part → Prop} {s0 s : State} (h : Frame P s0 s) (a_fail : Option (Fin 6)) (hp : Sub 664082788852567318530 P) :
    AnswersIn P s0 (execDdrTrainingDone a_fail s) := by
  refine ⟨_, rfl, ?_⟩
  refine Frame.ite (fun _ => ?_) (fun _ => ?_)
  · split
    · refine State.storeRegionCheck_frame ?_  (Sub.le (by decide) hp)
      refine State.raise_frame ?_ _ _ (Sub.le (by decide) hp)
      refine State.wr_frame ?_ _ _ (Reg.status_in _ (hp .regStatus rfl)) (Sub.le (by decide) hp)
      exact h
    · refine State.raise_frame ?_ _ _ (Sub.le (by decide) hp)
      refine State.wr_frame ?_ _ _ (Reg.status_in _ (hp .regStatus rfl)) (Sub.le (by decide) hp)
      exact h
  · exact h

theorem execQuietPeriodEnd_frame {P : Part → Prop} {s0 s : State} (h : Frame P s0 s)  (hp : Sub 2199023255552 P) :
    AnswersIn P s0 (execQuietPeriodEnd s) := by
  refine ⟨_, rfl, ?_⟩
  split
  · refine Frame.ite (fun _ => ?_) (fun _ => ?_)
    · exact h
    · refine State.setNet_frame ?_ _ (Sub.le (by decide) hp)
      exact h
  · exact h

theorem State.setRing_frame {P : Part → Prop} {s0 s : State} (h : Frame P s0 s) (a_f : Sys2Proof.Machine.RingSt → Sys2Proof.Machine.RingSt) (hp : Sub 4398046511104 P) :
    Frame P s0 (State.setRing s a_f) := by
  unfold State.setRing
  refine Frame.set_ring ?_ (hp .ring rfl) _
  exact h

theorem State.setSide_frame {P : Part → Prop} {s0 s : State} (h : Frame P s0 s) (a_port : ℕ) (a_f : Sys2Proof.Machine.RingSide → Sys2Proof.Machine.RingSide) (hp : Sub 4398046511104 P) :
    Frame P s0 (State.setSide s a_port a_f) := by
  unfold State.setSide
  refine State.setRing_frame ?_ _ (Sub.le (by decide) hp)
  exact h

theorem State.ringPost_frame {P : Part → Prop} {s0 s : State} (h : Frame P s0 s) (a_ty : ℕ) (a_irq : ℕ) (a_flags : ℕ) (a_w4 : Sys2Proof.Word) (a_w5 : Sys2Proof.Word) (a_w6 : Sys2Proof.Word) (a_w7 : Sys2Proof.Word) (hp : Sub 1208999606590924013119746 P) :
    Frame P s0 (State.ringPost s a_ty a_irq a_flags a_w4 a_w5 a_w6 a_w7) := by
  unfold State.ringPost
  refine State.post_frame ?_ _ _ _ _ _ _ _ _ (Sub.le (by decide) hp)
  refine State.raise_frame ?_ _ _ (Sub.le (by decide) hp)
  exact h

theorem State.ringBroken_frame {P : Part → Prop} {s0 s : State} (h : Frame P s0 s) (a_port : ℕ) (hp : Sub 4951760157141525497643008000 P) :
    Frame P s0 (State.ringBroken s a_port).2 := by
  unfold State.ringBroken
  refine Frame.ite2 (fun _ => ?_) (fun _ => ?_)
  · refine Frame.pair2 ?_
    refine State.bump_frame ?_ _ (Reg.ringCntBreak_in (hp .regRing rfl)) (Sub.le (by decide) hp)
    refine State.setSide_frame ?_ _ _ (Sub.le (by decide) hp)
    exact h
  · refine Frame.pair2 ?_
    exact h

theorem State.portBroken_frame {P : Part → Prop} {s0 s : State} (h : Frame P s0 s) (a_port : ℕ) (a_cause : ℕ) (hp : Sub 321868046510177663992495024386 P) :
    Frame P s0 (State.portBroken s a_port a_cause) := by
  unfold State.portBroken
  refine Frame.ite (fun _ => ?_) (fun _ => ?_)
  · exact h
  · extract_lets -merge -useContext -underBinder +onlyGivenNames x0
    have h0 : Frame P s0 x0 := by
      unfold x0
      refine State.setRing_frame ?_ _ (Sub.le (by decide) hp)
      exact h
    extract_lets -merge -useContext -underBinder +onlyGivenNames x1
    extract_lets -merge -useContext -underBinder +onlyGivenNames x2
    have h2 : Frame P s0 x2 := by
      unfold x2
      refine State.ringPost_frame ?_ _ _ _ _ _ _ _ (Sub.le (by decide) hp)
      exact h0
    extract_lets -merge -useContext -underBinder +onlyGivenNames x3
    have h3 : Frame P s0 x3 := by
      unfold x3
      refine State.ringBroken_frame ?_ _ (Sub.le (by decide) hp)
      exact h2
    refine State.originateTwo_frame ?_ _ _ _ _ _ _ _ (Sub.le (by decide) hp)
    exact h3

theorem State.portHeals_frame {P : Part → Prop} {s0 s : State} (h : Frame P s0 s) (a_port : ℕ) (hp : Sub 4398046511104 P) :
    Frame P s0 (State.portHeals s a_port) := by
  unfold State.portHeals
  refine Frame.ite (fun _ => ?_) (fun _ => ?_)
  · refine State.setRing_frame ?_ _ (Sub.le (by decide) hp)
    exact h
  · exact h

theorem State.couplerCheck_frame {P : Part → Prop} {s0 s : State} (h : Frame P s0 s)  (hp : Sub 1208999606595322059630850 P) :
    Frame P s0 (State.couplerCheck s) := by
  unfold State.couplerCheck
  extract_lets -merge -useContext -underBinder +onlyGivenNames x0
  refine Frame.ite (fun _ => ?_) (fun _ => ?_)
  · exact h
  · extract_lets -merge -useContext -underBinder +onlyGivenNames x1
    have h1 : Frame P s0 x1 := by
      unfold x1
      refine State.setRing_frame ?_ _ (Sub.le (by decide) hp)
      exact h
    refine Frame.ite (fun _ => ?_) (fun _ => ?_)
    · refine State.ringPost_frame ?_ _ _ _ _ _ _ _ (Sub.le (by decide) hp)
      exact h1
    · exact h1

theorem State.setLink_frame {P : Part → Prop} {s0 s : State} (h : Frame P s0 s) (a_n : ℕ) (a_f : Sys2Proof.Machine.LinkSt → Sys2Proof.Machine.LinkSt) (hp : Sub 2199023255552 P) :
    Frame P s0 (State.setLink s a_n a_f) := by
  unfold State.setLink
  refine State.setNet_frame ?_ _ (Sub.le (by decide) hp)
  exact h

theorem State.linkTo_frame {P : Part → Prop} {s0 s : State} (h : Frame P s0 s) (a_n : ℕ) (a_st : ℕ) (hp : Sub 2199023255552 P) :
    Frame P s0 (State.linkTo s a_n a_st) := by
  unfold State.linkTo
  refine State.setLink_frame ?_ _ _ (Sub.le (by decide) hp)
  exact h

theorem State.fpFail_frame {P : Part → Prop} {s0 s : State} (h : Frame P s0 s) (a_port : ℕ) (a_check : ℕ) (a_item : ℕ) (a_value : Sys2Proof.Word) (a_counter : ℕ) (K_a_counter : RegIn P a_counter) (hp : Sub 1209001912433933226813730 P) :
    Frame P s0 (State.fpFail s a_port a_check a_item a_value a_counter) := by
  unfold State.fpFail
  refine State.qualFail_frame ?_ _ _ _ _ _ K_a_counter (Sub.le (by decide) hp)
  refine State.raise_frame ?_ _ _ (Sub.le (by decide) hp)
  exact h

theorem State.emptyPort_frame {P : Part → Prop} {s0 s : State} (h : Frame P s0 s) (a_port : ℕ) (hp : Sub 3626851245822381385787650 P) :
    Frame P s0 (State.emptyPort s a_port) := by
  unfold State.emptyPort
  extract_lets -merge -useContext -underBinder +onlyGivenNames x0
  extract_lets -merge -useContext -underBinder +onlyGivenNames x1
  have h1 : Frame P s0 x1 := by
    unfold x1
    refine Frame.foldl ?_ (fun y2 a2 h2 => ?_)
    · exact h
    · refine State.setQueue_frame ?_ _ _ _ (Sub.le (by decide) hp)
      exact h2
  refine State.storeFullCheck_frame ?_  (Sub.le (by decide) hp)
  refine State.spillCheck_frame ?_  (Sub.le (by decide) hp)
  refine State.bumpBy_frame ?_ _ _ (Reg.fpCntTxDiscardDown_in _ (hp .regFp rfl)) (Sub.le (by decide) hp)
  refine State.setSending_frame ?_ _ _ (Sub.le (by decide) hp)
  exact h1

theorem State.linkFail_frame {P : Part → Prop} {s0 s : State} (h : Frame P s0 s) (a_port : ℕ) (a_cause : ℕ) (hp : Sub 3626853551665390599481634 P) :
    Frame P s0 (State.linkFail s a_port a_cause) := by
  unfold State.linkFail
  refine State.fpFail_frame ?_ _ _ _ _ _ (Reg.fpCntLinkFail_in _ (hp .regFp rfl)) (Sub.le (by decide) hp)
  refine State.linkTo_frame ?_ _ _ (Sub.le (by decide) hp)
  exact h

theorem State.linkLeaveUp_frame {P : Part → Prop} {s0 s : State} (h : Frame P s0 s) (a_port : ℕ) (a_cause : ℕ) (a_dest : ℕ) (hp : Sub 321868046510177663992495024386 P) :
    Frame P s0 (State.linkLeaveUp s a_port a_cause a_dest) := by
  unfold State.linkLeaveUp
  extract_lets -merge -useContext -underBinder +onlyGivenNames x0
  extract_lets -merge -useContext -underBinder +onlyGivenNames x1
  have h1 : Frame P s0 x1 := by
    unfold x1
    refine State.bump_frame ?_ _ (Reg.fpCntLinkDown_in _ (hp .regFp rfl)) (Sub.le (by decide) hp)
    refine State.setLink_frame ?_ _ _ (Sub.le (by decide) hp)
    exact h
  extract_lets -merge -useContext -underBinder +onlyGivenNames x2
  have h2 : Frame P s0 x2 := by
    unfold x2
    refine State.post_frame ?_ _ _ _ _ _ _ _ _ (Sub.le (by decide) hp)
    refine State.raise_frame ?_ _ _ (Sub.le (by decide) hp)
    exact h1
  refine State.couplerCheck_frame ?_  (Sub.le (by decide) hp)
  refine State.portBroken_frame ?_ _ _ (Sub.le (by decide) hp)
  refine State.emptyPort_frame ?_ _ (Sub.le (by decide) hp)
  exact h2

theorem State.linkStart_frame {P : Part → Prop} {s0 s : State} (h : Frame P s0 s) (a_port : ℕ) (hp : Sub 2199023255552 P) :
    Frame P s0 (State.linkStart s a_port) := by
  unfold State.linkStart
  refine State.setLink_frame ?_ _ _ (Sub.le (by decide) hp)
  exact h

theorem State.fpEnable_frame {P : Part → Prop} {s0 s : State} (h : Frame P s0 s) (a_port : ℕ) (a_en : Bool) (hp : Sub 321868046510177663992495024386 P) :
    Frame P s0 (State.fpEnable s a_port a_en) := by
  unfold State.fpEnable
  extract_lets -merge -useContext -underBinder +onlyGivenNames x0
  refine Frame.ite (fun _ => ?_) (fun _ => ?_)
  · refine Frame.ite (fun _ => ?_) (fun _ => ?_)
    · refine State.linkStart_frame ?_ _ (Sub.le (by decide) hp)
      exact h
    · exact h
  · refine Frame.ite (fun _ => ?_) (fun _ => ?_)
    · refine State.linkLeaveUp_frame ?_ _ _ _ (Sub.le (by decide) hp)
      exact h
    · refine State.linkTo_frame ?_ _ _ (Sub.le (by decide) hp)
      exact h

theorem State.linkBegin_frame {P : Part → Prop} {s0 s : State} (h : Frame P s0 s) (a_port : ℕ) (hp : Sub 321868046510177663992495024386 P) :
    Frame P s0 (State.linkBegin s a_port) := by
  unfold State.linkBegin
  refine Frame.ite (fun _ => ?_) (fun _ => ?_)
  · refine State.fpEnable_frame ?_ _ _ (Sub.le (by decide) hp)
    exact h
  · exact h

theorem execTrainingComplete_frame {P : Part → Prop} {s0 s : State} (h : Frame P s0 s) (a_port : Fin 4) (a_fec : Bool) (a_txeq : Sys2Proof.Word) (a_rxeq : Sys2Proof.Word) (hp : Sub 321868046510177663992495024386 P) :
    AnswersIn P s0 (execTrainingComplete a_port a_fec a_txeq a_rxeq s) := by
  refine ⟨_, rfl, ?_⟩
  extract_lets -merge -useContext -underBinder +onlyGivenNames x0
  have h0 : Frame P s0 x0 := by
    unfold x0
    refine State.linkBegin_frame ?_ _ (Sub.le (by decide) hp)
    exact h
  refine Frame.ite (fun _ => ?_) (fun _ => ?_)
  · extract_lets -merge -useContext -underBinder +onlyGivenNames x1
    have h1 : Frame P s0 x1 := by
      unfold x1
      refine State.setLink_frame ?_ _ _ (Sub.le (by decide) hp)
      exact h0
    refine State.wr_frame ?_ _ _ (Reg.fpRxeq_in _ (hp .regFp rfl)) (Sub.le (by decide) hp)
    refine State.wr_frame ?_ _ _ (Reg.fpTxeq_in _ (hp .regFp rfl)) (Sub.le (by decide) hp)
    exact h1
  · exact h0

theorem execTrainingTimeout_frame {P : Part → Prop} {s0 s : State} (h : Frame P s0 s) (a_port : Fin 4) (hp : Sub 321868046512483507001708718370 P) :
    AnswersIn P s0 (execTrainingTimeout a_port s) := by
  refine ⟨_, rfl, ?_⟩
  extract_lets -merge -useContext -underBinder +onlyGivenNames x0
  have h0 : Frame P s0 x0 := by
    unfold x0
    refine State.linkBegin_frame ?_ _ (Sub.le (by decide) hp)
    exact h
  refine Frame.ite (fun _ => ?_) (fun _ => ?_)
  · refine State.linkFail_frame ?_ _ _ (Sub.le (by decide) hp)
    exact h0
  · exact h0

theorem execBlockLockAcquired_frame {P : Part → Prop} {s0 s : State} (h : Frame P s0 s) (a_port : Fin 4) (hp : Sub 321868046510177663992495024386 P) :
    AnswersIn P s0 (execBlockLockAcquired a_port s) := by
  refine ⟨_, rfl, ?_⟩
  extract_lets -merge -useContext -underBinder +onlyGivenNames x0
  have h0 : Frame P s0 x0 := by
    unfold x0
    refine State.linkBegin_frame ?_ _ (Sub.le (by decide) hp)
    exact h
  refine Frame.ite (fun _ => ?_) (fun _ => ?_)
  · refine State.setLink_frame ?_ _ _ (Sub.le (by decide) hp)
    exact h0
  · exact h0

theorem execLockingTimeout_frame {P : Part → Prop} {s0 s : State} (h : Frame P s0 s) (a_port : Fin 4) (hp : Sub 321868046512483507001708718370 P) :
    AnswersIn P s0 (execLockingTimeout a_port s) := by
  refine ⟨_, rfl, ?_⟩
  extract_lets -merge -useContext -underBinder +onlyGivenNames x0
  have h0 : Frame P s0 x0 := by
    unfold x0
    refine State.linkBegin_frame ?_ _ (Sub.le (by decide) hp)
    exact h
  refine Frame.ite (fun _ => ?_) (fun _ => ?_)
  · refine State.linkFail_frame ?_ _ _ (Sub.le (by decide) hp)
    exact h0
  · exact h0

theorem execUpHoldExpiry_frame {P : Part → Prop} {s0 s : State} (h : Frame P s0 s) (a_port : Fin 4) (hp : Sub 1208999606597521082886402 P) :
    AnswersIn P s0 (execUpHoldExpiry a_port s) := by
  refine ⟨_, rfl, ?_⟩
  refine Frame.ite (fun _ => ?_) (fun _ => ?_)
  · extract_lets -merge -useContext -underBinder +onlyGivenNames x0
    extract_lets -merge -useContext -underBinder +onlyGivenNames x1
    extract_lets -merge -useContext -underBinder +onlyGivenNames x2
    have h2 : Frame P s0 x2 := by
      unfold x2
      refine State.setLink_frame ?_ _ _ (Sub.le (by decide) hp)
      exact h
    extract_lets -merge -useContext -underBinder +onlyGivenNames x3
    have h3 : Frame P s0 x3 := by
      unfold x3
      refine State.post_frame ?_ _ _ _ _ _ _ _ _ (Sub.le (by decide) hp)
      refine State.raise_frame ?_ _ _ (Sub.le (by decide) hp)
      exact h2
    refine State.couplerCheck_frame ?_  (Sub.le (by decide) hp)
    refine State.portHeals_frame ?_ _ (Sub.le (by decide) hp)
    exact h3
  · exact h

theorem State.degrade_frame {P : Part → Prop} {s0 s : State} (h : Frame P s0 s) (a_port : ℕ) (hp : Sub 321868046510177663992495024386 P) :
    Frame P s0 (State.degrade s a_port) := by
  unfold State.degrade
  refine State.linkLeaveUp_frame ?_ _ _ _ (Sub.le (by decide) hp)
  refine State.raise_frame ?_ _ _ (Sub.le (by decide) hp)
  refine State.bump_frame ?_ _ (Reg.fpCntDegrade_in _ (hp .regFp rfl)) (Sub.le (by decide) hp)
  exact h

theorem execHoldDownExpiry_frame {P : Part → Prop} {s0 s : State} (h : Frame P s0 s) (a_port : Fin 4) (hp : Sub 2199023255552 P) :
    AnswersIn P s0 (execHoldDownExpiry a_port s) := by
  refine ⟨_, rfl, ?_⟩
  refine Frame.ite (fun _ => ?_) (fun _ => ?_)
  · refine State.linkStart_frame ?_ _ (Sub.le (by decide) hp)
    exact h
  · exact h

theorem execFpCheckClear_frame {P : Part → Prop} {s0 s : State} (h : Frame P s0 s) (a_port : Fin 4) (a_check : ℕ) (hp : Sub 1209001912433933226813730 P) :
    AnswersIn P s0 (execFpCheckClear a_port a_check s) := by
  refine ⟨_, rfl, ?_⟩
  extract_lets -merge -useContext -underBinder +onlyGivenNames x0
  refine Frame.ite (fun _ => ?_) (fun _ => ?_)
  · refine Frame.foldl ?_ (fun y1 a1 h1 => ?_)
    · exact h
    · refine State.qualClear_frame ?_ _ _ _ _ (Sub.le (by decide) hp)
      exact h1
  · exact h

theorem State.dupAccept_frame {P : Part → Prop} {s0 s : State} (h : Frame P s0 s) (a_port : ℕ) (a_src : ℕ) (a_cls : ℕ) (a_seq : ℕ) (hp : Sub 3626853551665390599481634 P) :
    Frame P s0 (State.dupAccept s a_port a_src a_cls a_seq).2 := by
  unfold State.dupAccept
  split
  · extract_lets -merge -useContext -underBinder +onlyGivenNames x1
    have h1 : Frame P s0 x1 := by
      unfold x1
      refine State.setNet_frame ?_ _ (Sub.le (by decide) hp)
      exact h
    extract_lets -merge -useContext -underBinder +onlyGivenNames x2
    have h2 : Frame P s0 x2 := by
      unfold x2
      refine Frame.ite (fun _ => ?_) (fun _ => ?_)
      · refine State.bump_frame ?_ _ (Reg.fpCntDupResync_in _ (hp .regFp rfl)) (Sub.le (by decide) hp)
        exact h1
      · exact h1
    extract_lets -merge -useContext -underBinder +onlyGivenNames x3
    have h3 : Frame P s0 x3 := by
      unfold x3
      split
      · refine State.qualFail_frame ?_ _ _ _ _ _ (Reg.fpCntDupEvict_in _ (hp .regFp rfl)) (Sub.le (by decide) hp)
        refine State.raise_frame ?_ _ _ (Sub.le (by decide) hp)
        refine State.raise_frame ?_ _ _ (Sub.le (by decide) hp)
        exact h2
      · exact h2
    split
    · refine Frame.pair2 ?_
      exact h3
    · refine Frame.pair2 ?_
      refine State.bump_frame ?_ _ (Reg.fpCntDup_in _ (hp .regFp rfl)) (Sub.le (by decide) hp)
      exact h3
    · refine Frame.pair2 ?_
      refine State.bump_frame ?_ _ (Reg.fpCntSeqStale_in _ (hp .regFp rfl)) (Sub.le (by decide) hp)
      exact h3

theorem State.headlandAccept_frame {P : Part → Prop} {s0 s : State} (h : Frame P s0 s) (a_src : ℕ) (a_cls : ℕ) (a_seq : ℕ) (hp : Sub 4952969159053957231846566178 P) :
    Frame P s0 (State.headlandAccept s a_src a_cls a_seq).2 := by
  unfold State.headlandAccept
  split
  · extract_lets -merge -useContext -underBinder +onlyGivenNames x1
    have h1 : Frame P s0 x1 := by
      unfold x1
      refine State.setNet_frame ?_ _ (Sub.le (by decide) hp)
      exact h
    extract_lets -merge -useContext -underBinder +onlyGivenNames x2
    have h2 : Frame P s0 x2 := by
      unfold x2
      split
      · refine State.qualFail_frame ?_ _ _ _ _ _ (Reg.ringCntHlEvict_in (hp .regRing rfl)) (Sub.le (by decide) hp)
        refine State.raise_frame ?_ _ _ (Sub.le (by decide) hp)
        exact h1
      · exact h1
    refine Frame.pair2 ?_
    exact h2

theorem execDupEntryAge_frame {P : Part → Prop} {s0 s : State} (h : Frame P s0 s) (a_headland : Bool) (a_src : BitVec 16) (hp : Sub 2199023255552 P) :
    AnswersIn P s0 (execDupEntryAge a_headland a_src s) := by
  refine ⟨_, rfl, ?_⟩
  extract_lets -merge -useContext -underBinder +onlyGivenNames x0
  refine State.setNet_frame ?_ _ (Sub.le (by decide) hp)
  exact h

theorem State.noteError_frame {P : Part → Prop} {s0 s : State} (h : Frame P s0 s) (a_port : ℕ) (hp : Sub 321868046510177663992495024386 P) :
    Frame P s0 (State.noteError s a_port) := by
  unfold State.noteError
  extract_lets -merge -useContext -underBinder +onlyGivenNames x0
  have h0 : Frame P s0 x0 := by
    unfold x0
    refine State.setLink_frame ?_ _ _ (Sub.le (by decide) hp)
    exact h
  refine Frame.ite (fun _ => ?_) (fun _ => ?_)
  · refine State.degrade_frame ?_ _ (Sub.le (by decide) hp)
    exact h0
  · exact h0

theorem State.fpFailNoted_frame {P : Part → Prop} {s0 s : State} (h : Frame P s0 s) (a_port : ℕ) (a_check : ℕ) (a_value : Sys2Proof.Word) (a_counter : ℕ) (K_a_counter : RegIn P a_counter) (hp : Sub 321868046512483507001708718370 P) :
    Frame P s0 (State.fpFailNoted s a_port a_check a_value a_counter) := by
  unfold State.fpFailNoted
  refine State.noteError_frame ?_ _ (Sub.le (by decide) hp)
  refine State.fpFail_frame ?_ _ _ _ _ _ K_a_counter (Sub.le (by decide) hp)
  exact h

theorem State.stompAt_frame {P : Part → Prop} {s0 s : State} (h : Frame P s0 s) (a_e : ℕ) (a_f : Sys2Proof.Machine.QFrame) (hp : Sub 316915067908696581831548469248 P) :
    Frame P s0 (State.stompAt s a_e a_f) := by
  unfold State.stompAt
  refine Frame.ite (fun _ => ?_) (fun _ => ?_)
  · refine State.mirror_frame ?_ _ _ _ (Sub.le (by decide) hp)
    refine State.bump_frame ?_ _ (Reg.fpCntTxStomp_in _ (hp .regFp rfl)) (Sub.le (by decide) hp)
    refine State.bump_frame ?_ _ (Reg.fpCntTxFrames_in _ (hp .regFp rfl)) (Sub.le (by decide) hp)
    exact h
  · exact h

theorem State.stompAll_frame {P : Part → Prop} {s0 s : State} (h : Frame P s0 s) (a_outs : List (ℕ × Sys2Proof.Machine.QFrame)) (hp : Sub 316915067908696581831548469248 P) :
    Frame P s0 (State.stompAll s a_outs) := by
  unfold State.stompAll
  refine Frame.foldl ?_ (fun y0 a0 h0 => ?_)
  · exact h
  · refine State.stompAt_frame ?_ _ _ (Sub.le (by decide) hp)
    exact h0

theorem State.badFcs_frame {P : Part → Prop} {s0 s : State} (h : Frame P s0 s) (a_port : ℕ) (a_fcs : Sys2Proof.FcsEnd) (a_outs : List (ℕ × Sys2Proof.Machine.QFrame)) (hp : Sub 321868046512483507001708718370 P) :
    Frame P s0 (State.badFcs s a_port a_fcs a_outs) := by
  unfold State.badFcs
  extract_lets -merge -useContext -underBinder +onlyGivenNames x0
  have h0 : Frame P s0 x0 := by
    unfold x0
    refine State.stompAll_frame ?_ _ (Sub.le (by decide) hp)
    exact h
  refine Frame.ite (fun _ => ?_) (fun _ => ?_)
  · refine State.bump_frame ?_ _ (Reg.fpCntRxStomp_in _ (hp .regFp rfl)) (Sub.le (by decide) hp)
    exact h0
  · refine State.fpFailNoted_frame ?_ _ _ _ _ (Reg.fpCntRxFcs_in _ (hp .regFp rfl)) (Sub.le (by decide) hp)
    exact h0

theorem State.turnFrame_frame {P : Part → Prop} {s0 s : State} (h : Frame P s0 s) (a_port : ℕ) (a_b : List Sys2Proof.Byte) (a_judged : Bool) (a_rx : Option Sys2Proof.TimePoint) (hp : Sub 4952969159053957231846566178 P) :
    Frame P s0 (State.turnFrame s a_port a_b a_judged a_rx) := by
  unfold State.turnFrame
  refine Frame.ite (fun _ => ?_) (fun _ => ?_)
  · exact h
  · refine Frame.ite (fun _ => ?_) (fun _ => ?_)
    · refine Frame.ite (fun _ => ?_) (fun _ => ?_)
      · refine State.bump_frame ?_ _ (Reg.ringCntTurnBack_in (hp .regRing rfl)) (Sub.le (by decide) hp)
        exact h
      · exact h
    · split
      · next y0_0 y0_1 e0 =>
          have g0 : Frame P s0 y0_1 := by
            refine Frame.of2 e0 ?_
            refine Frame.ite2 (fun _ => ?_) (fun _ => ?_)
            · refine Frame.pair2 ?_
              exact h
            · refine State.headlandAccept_frame ?_ _ _ _ (Sub.le (by decide) hp)
              exact h
          refine Frame.ite (fun _ => ?_) (fun _ => ?_)
          · refine State.bump_frame ?_ _ (Reg.ringCntTurnDup_in (hp .regRing rfl)) (Sub.le (by decide) hp)
            exact g0
          · extract_lets -merge -useContext -underBinder +onlyGivenNames x1
            extract_lets -merge -useContext -underBinder +onlyGivenNames x2
            refine State.setNet_frame ?_ _ (Sub.le (by decide) hp)
            refine State.bump_frame ?_ _ (Reg.ringCntTurned_in (hp .regRing rfl)) (Sub.le (by decide) hp)
            exact g0

theorem State.localCopy_frame {P : Part → Prop} {s0 s : State} (h : Frame P s0 s) (a_f : Sys2Proof.Machine.QFrame) (a_primary : Bool) (hp : Sub 3636295978788120676215042 P) :
    Frame P s0 (State.localCopy s a_f a_primary) := by
  unfold State.localCopy
  refine Frame.ite (fun _ => ?_) (fun _ => ?_)
  · refine State.takeFrame_frame ?_ _ _ (Sub.le (by decide) hp)
    exact h
  · refine State.setNet_frame ?_ _ (Sub.le (by decide) hp)
    exact h

theorem State.deliver_frame {P : Part → Prop} {s0 s : State} (h : Frame P s0 s) (a_f : Sys2Proof.Machine.QFrame) (a_primary : Bool) (hp : Sub 3636295978788120676215042 P) :
    Frame P s0 (State.deliver s a_f a_primary) := by
  unfold State.deliver
  refine Frame.ite (fun _ => ?_) (fun _ => ?_)
  · refine State.handOver_frame ?_ _ _ (Sub.le (by decide) hp)
    exact h
  · refine State.localCopy_frame ?_ _ _ (Sub.le (by decide) hp)
    exact h

theorem State.passFrame_frame {P : Part → Prop} {s0 s : State} (h : Frame P s0 s) (a_port : ℕ) (a_b : List Sys2Proof.Byte) (a_judged : Bool) (hp : Sub 321868046512483502603662207266 P) :
    Frame P s0 (State.passFrame s a_port a_b a_judged) := by
  unfold State.passFrame
  extract_lets -merge -useContext -underBinder +onlyGivenNames x0
  extract_lets -merge -useContext -underBinder +onlyGivenNames x1
  extract_lets -merge -useContext -underBinder +onlyGivenNames x2
  extract_lets -merge -useContext -underBinder +onlyGivenNames x3
  have h3 : Frame P s0 x3 := by
    unfold x3
    refine State.mirror_frame ?_ _ _ _ (Sub.le (by decide) hp)
    exact h
  refine Frame.ite (fun _ => ?_) (fun _ => ?_)
  · refine State.deliver_frame ?_ _ _ (Sub.le (by decide) hp)
    exact h3
  · extract_lets -merge -useContext -underBinder +onlyGivenNames x4
    extract_lets -merge -useContext -underBinder +onlyGivenNames x5
    have h5 : Frame P s0 x5 := by
      unfold x5
      refine Frame.ite (fun _ => ?_) (fun _ => ?_)
      · exact h3
      · refine State.takeFrame_frame ?_ _ _ (Sub.le (by decide) hp)
        exact h3
    extract_lets -merge -useContext -underBinder +onlyGivenNames x6
    have h6 : Frame P s0 x6 := by
      unfold x6
      refine State.turnFrame_frame ?_ _ _ _ _ (Sub.le (by decide) hp)
      exact h5
    refine Frame.ite (fun _ => ?_) (fun _ => ?_)
    · split
      · next y7_0 y7_1 e7 =>
          have g7 : Frame P s0 y7_1 := by
            refine Frame.of2 e7 ?_
            refine State.dupAccept_frame ?_ _ _ _ _ (Sub.le (by decide) hp)
            exact h6
          refine Frame.ite (fun _ => ?_) (fun _ => ?_)
          · refine State.deliver_frame ?_ _ _ (Sub.le (by decide) hp)
            exact g7
          · exact g7
    · exact h6

theorem State.mirrorRx_frame {P : Part → Prop} {s0 s : State} (h : Frame P s0 s) (a_port : ℕ) (a_w : Sys2Proof.WireFrame) (a_native : Bool) (hp : Sub 316912650057057352573199056896 P) :
    Frame P s0 (State.mirrorRx s a_port a_w a_native) := by
  unfold State.mirrorRx
  refine Frame.ite (fun _ => ?_) (fun _ => ?_)
  · refine State.mirror_frame ?_ _ _ _ (Sub.le (by decide) hp)
    exact h
  · exact h

theorem State.ptpFrame_frame {P : Part → Prop} {s0 s : State} (h : Frame P s0 s) (a_port : ℕ) (a_b : List Sys2Proof.Byte) (hp : Sub 2199023255552 P) :
    Frame P s0 (State.ptpFrame s a_port a_b) := by
  unfold State.ptpFrame
  refine State.setNet_frame ?_ _ (Sub.le (by decide) hp)
  exact h

theorem State.receiveNative_frame {P : Part → Prop} {s0 s : State} (h : Frame P s0 s) (a_port : ℕ) (a_w : Sys2Proof.WireFrame) (hp : Sub 321868046512483507001708718370 P) :
    Frame P s0 (State.receiveNative s a_port a_w) := by
  unfold State.receiveNative
  extract_lets -merge -useContext -underBinder +onlyGivenNames x0
  extract_lets -merge -useContext -underBinder +onlyGivenNames x1
  refine Frame.ite (fun _ => ?_) (fun _ => ?_)
  · refine Frame.ite (fun _ => ?_) (fun _ => ?_)
    · refine Frame.ite (fun _ => ?_) (fun _ => ?_)
      · refine State.ptpFrame_frame ?_ _ _ (Sub.le (by decide) hp)
        refine State.mirrorRx_frame ?_ _ _ _ (Sub.le (by decide) hp)
        exact h
      · refine State.badFcs_frame ?_ _ _ _ (Sub.le (by decide) hp)
        exact h
    · refine State.fpFail_frame ?_ _ _ _ _ _ (Reg.fpCntRxForeign_in _ (hp .regFp rfl)) (Sub.le (by decide) hp)
      exact h
  · refine Frame.ite (fun _ => ?_) (fun _ => ?_)
    · refine State.fpFailNoted_frame ?_ _ _ _ _ (Reg.fpCntRxLength_in _ (hp .regFp rfl)) (Sub.le (by decide) hp)
      exact h
    · refine Frame.ite (fun _ => ?_) (fun _ => ?_)
      · refine State.fpFailNoted_frame ?_ _ _ _ _ (Reg.fpCntRxHeader_in _ (hp .regFp rfl)) (Sub.le (by decide) hp)
        exact h
      · refine Frame.ite (fun _ => ?_) (fun _ => ?_)
        · refine State.fpFail_frame ?_ _ _ _ _ _ (Reg.fpCntRxPath_in _ (hp .regFp rfl)) (Sub.le (by decide) hp)
          exact h
        · extract_lets -merge -useContext -underBinder +onlyGivenNames x2
          split
          · next y3_0 y3_1 e3 =>
              have g3 : Frame P s0 y3_1 := by
                refine Frame.of2 e3 ?_
                refine Frame.ite2 (fun _ => ?_) (fun _ => ?_)
                · refine State.headlandAccept_frame ?_ _ _ _ (Sub.le (by decide) hp)
                  exact h
                · refine Frame.pair2 ?_
                  exact h
              refine Frame.ite (fun _ => ?_) (fun _ => ?_)
              · refine State.bump_frame ?_ _ (Reg.ringCntTurnStrip_in (hp .regRing rfl)) (Sub.le (by decide) hp)
                refine State.mirrorRx_frame ?_ _ _ _ (Sub.le (by decide) hp)
                exact g3
              · refine Frame.ite (fun _ => ?_) (fun _ => ?_)
                · extract_lets -merge -useContext -underBinder +onlyGivenNames x4
                  have h4 : Frame P s0 x4 := by
                    unfold x4
                    refine State.mirrorRx_frame ?_ _ _ _ (Sub.le (by decide) hp)
                    exact g3
                  extract_lets -merge -useContext -underBinder +onlyGivenNames x5
                  have h5 : Frame P s0 x5 := by
                    unfold x5
                    refine Frame.ite (fun _ => ?_) (fun _ => ?_)
                    · refine State.setNet_frame ?_ _ (Sub.le (by decide) hp)
                      exact h4
                    · exact h4
                  refine State.bump_frame ?_ _ (Reg.fpCntStripped_in _ (hp .regFp rfl)) (Sub.le (by decide) hp)
                  exact h5
                · refine Frame.ite (fun _ => ?_) (fun _ => ?_)
                  · refine State.fpFail_frame ?_ _ _ _ _ _ (Reg.fpCntHopExpired_in _ (hp .regFp rfl)) (Sub.le (by decide) hp)
                    exact g3
                  · refine Frame.ite (fun _ => ?_) (fun _ => ?_)
                    · refine State.badFcs_frame ?_ _ _ _ (Sub.le (by decide) hp)
                      exact g3
                    · refine State.passFrame_frame ?_ _ _ _ (Sub.le (by decide) hp)
                      exact g3

theorem State.deliverPlain_frame {P : Part → Prop} {s0 s : State} (h : Frame P s0 s) (a_port : ℕ) (a_b : List Sys2Proof.Byte) (a_primary : Bool) (hp : Sub 3636295978788120676215042 P) :
    Frame P s0 (State.deliverPlain s a_port a_b a_primary) := by
  unfold State.deliverPlain
  refine Frame.ite (fun _ => ?_) (fun _ => ?_)
  · refine State.ptpFrame_frame ?_ _ _ (Sub.le (by decide) hp)
    exact h
  · refine Frame.ite (fun _ => ?_) (fun _ => ?_)
    · exact h
    · refine State.localCopy_frame ?_ _ _ (Sub.le (by decide) hp)
      exact h

theorem State.receiveHsr_frame {P : Part → Prop} {s0 s : State} (h : Frame P s0 s) (a_port : ℕ) (a_b : List Sys2Proof.Byte) (hp : Sub 4955396453120309220272711938 P) :
    Frame P s0 (State.receiveHsr s a_port a_b) := by
  unfold State.receiveHsr
  refine Frame.ite (fun _ => ?_) (fun _ => ?_)
  · refine Frame.ite (fun _ => ?_) (fun _ => ?_)
    · refine State.deliverPlain_frame ?_ _ _ _ (Sub.le (by decide) hp)
      exact h
    · exact h
  · extract_lets -merge -useContext -underBinder +onlyGivenNames x0
    extract_lets -merge -useContext -underBinder +onlyGivenNames x1
    extract_lets -merge -useContext -underBinder +onlyGivenNames x2
    refine Frame.ite (fun _ => ?_) (fun _ => ?_)
    · refine State.bump_frame ?_ _ (Reg.fpCntStripped_in _ (hp .regFp rfl)) (Sub.le (by decide) hp)
      exact h
    · extract_lets -merge -useContext -underBinder +onlyGivenNames x3
      extract_lets -merge -useContext -underBinder +onlyGivenNames x4
      have h4 : Frame P s0 x4 := by
        unfold x4
        refine Frame.ite (fun _ => ?_) (fun _ => ?_)
        · refine State.takeFrame_frame ?_ _ _ (Sub.le (by decide) hp)
          refine State.setNet_frame ?_ _ (Sub.le (by decide) hp)
          exact h
        · exact h
      refine Frame.ite (fun _ => ?_) (fun _ => ?_)
      · refine State.bump_frame ?_ _ (Reg.ringCntHsrDup_in (hp .regRing rfl)) (Sub.le (by decide) hp)
        exact h4
      · extract_lets -merge -useContext -underBinder +onlyGivenNames x5
        have h5 : Frame P s0 x5 := by
          unfold x5
          refine State.setNet_frame ?_ _ (Sub.le (by decide) hp)
          exact h4
        refine Frame.ite (fun _ => ?_) (fun _ => ?_)
        · refine State.deliverPlain_frame ?_ _ _ _ (Sub.le (by decide) hp)
          exact h5
        · exact h5

theorem State.receivePrp_frame {P : Part → Prop} {s0 s : State} (h : Frame P s0 s) (a_port : ℕ) (a_b : List Sys2Proof.Byte) (hp : Sub 4955396453120309220272711938 P) :
    Frame P s0 (State.receivePrp s a_port a_b) := by
  unfold State.receivePrp
  extract_lets -merge -useContext -underBinder +onlyGivenNames x0
  refine Frame.ite (fun _ => ?_) (fun _ => ?_)
  · extract_lets -merge -useContext -underBinder +onlyGivenNames x1
    extract_lets -merge -useContext -underBinder +onlyGivenNames x2
    refine Frame.ite (fun _ => ?_) (fun _ => ?_)
    · refine State.bump_frame ?_ _ (Reg.ringCntPrpDup_in (hp .regRing rfl)) (Sub.le (by decide) hp)
      exact h
    · refine State.deliverPlain_frame ?_ _ _ _ (Sub.le (by decide) hp)
      refine State.setNet_frame ?_ _ (Sub.le (by decide) hp)
      exact h
  · refine State.deliverPlain_frame ?_ _ _ _ (Sub.le (by decide) hp)
    exact h

theorem State.cutFrame_frame {P : Part → Prop} {s0 s : State} (h : Frame P s0 s) (a_port : ℕ) (a_b : List Sys2Proof.Byte) (hp : Sub 316915067908696581831548469248 P) :
    Frame P s0 (State.cutFrame s a_port a_b) := by
  unfold State.cutFrame
  refine Frame.ite (fun _ => ?_) (fun _ => ?_)
  · refine Frame.ite (fun _ => ?_) (fun _ => ?_)
    · refine State.stompAll_frame ?_ _ (Sub.le (by decide) hp)
      exact h
    · exact h
  · refine State.stompAll_frame ?_ _ (Sub.le (by decide) hp)
    exact h

theorem execLinkDownCondition_frame {P : Part → Prop} {s0 s : State} (h : Frame P s0 s) (a_port : Fin 4) (a_event : Sys2Proof.DownEvent) (hp : Sub 321868046512483507001708718370 P) :
    AnswersIn P s0 (execLinkDownCondition a_port a_event s) := by
  refine ⟨_, rfl, ?_⟩
  extract_lets -merge -useContext -underBinder +onlyGivenNames x0
  extract_lets -merge -useContext -underBinder +onlyGivenNames xc
  refine Frame.ite (fun _ => ?_) (fun _ => ?_)
  · refine Frame.ite (fun _ => ?_) (fun _ => ?_)
    · refine State.degrade_frame ?_ _ (Sub.le (by decide) hp)
      exact h
    · exact h
  · extract_lets -merge -useContext -underBinder +onlyGivenNames x1
    have h1 : Frame P s0 x1 := by
      unfold x1
      refine State.setLink_frame ?_ _ _ (Sub.le (by decide) hp)
      exact h
    refine Frame.ite (fun _ => ?_) (fun _ => ?_)
    · refine State.linkLeaveUp_frame ?_ _ _ _ (Sub.le (by decide) hp)
      split
      · refine State.cutFrame_frame ?_ _ _ (Sub.le (by decide) hp)
        exact h1
      · exact h1
    · refine Frame.ite (fun _ => ?_) (fun _ => ?_)
      · refine State.linkFail_frame ?_ _ _ (Sub.le (by decide) hp)
        exact h1
      · exact h1

theorem execFrameReceive_frame {P : Part → Prop} {s0 s : State} (h : Frame P s0 s) (a_port : Fin 4) (a_w : Sys2Proof.WireFrame) (hp : Sub 321868046512483507001708718370 P) :
    AnswersIn P s0 (execFrameReceive a_port a_w s) := by
  refine ⟨_, rfl, ?_⟩
  refine Frame.ite (fun _ => ?_) (fun _ => ?_)
  · exact h
  · extract_lets -merge -useContext -underBinder +onlyGivenNames x0
    have h0 : Frame P s0 x0 := by
      unfold x0
      refine State.bump_frame ?_ _ (Reg.fpCntRxFrames_in _ (hp .regFp rfl)) (Sub.le (by decide) hp)
      exact h
    refine Frame.ite (fun _ => ?_) (fun _ => ?_)
    · refine State.receiveNative_frame ?_ _ _ (Sub.le (by decide) hp)
      exact h0
    · refine Frame.ite (fun _ => ?_) (fun _ => ?_)
      · refine State.fpFail_frame ?_ _ _ _ _ _ (Reg.fpCntRxForeign_in _ (hp .regFp rfl)) (Sub.le (by decide) hp)
        exact h0
      · refine Frame.ite (fun _ => ?_) (fun _ => ?_)
        · refine State.badFcs_frame ?_ _ _ _ (Sub.le (by decide) hp)
          exact h0
        · extract_lets -merge -useContext -underBinder +onlyGivenNames x1
          have h1 : Frame P s0 x1 := by
            unfold x1
            refine State.mirror_frame ?_ _ _ _ (Sub.le (by decide) hp)
            exact h0
          refine Frame.ite (fun _ => ?_) (fun _ => ?_)
          · refine State.receiveHsr_frame ?_ _ _ (Sub.le (by decide) hp)
            exact h1
          · refine Frame.ite (fun _ => ?_) (fun _ => ?_)
            · refine State.receivePrp_frame ?_ _ _ (Sub.le (by decide) hp)
              exact h1
            · exact h1

theorem State.prbsRead_frame {P : Part → Prop} {s0 s : State} (h : Frame P s0 s) (a_port : ℕ) (hp : Sub 2417851639229258349412352 P) :
    Frame P s0 (State.prbsRead s a_port).2 := by
  unfold State.prbsRead
  refine Frame.pair2 ?_
  refine State.wr_frame ?_ _ _ (Reg.fpPrbsErr_in _ (hp .regFp rfl)) (Sub.le (by decide) hp)
  exact h

theorem execPrbsErrRead_frame {P : Part → Prop} {s0 s : State} (h : Frame P s0 s) (a_port : Fin 4) (hp : Sub 2417860862601295204188160 P) :
    AnswersIn P s0 (execPrbsErrRead a_port s) := by
  refine ⟨_, rfl, ?_⟩
  refine State.answered_frame ?_ _ (Sub.le (by decide) hp)
  refine State.prbsRead_frame ?_ _ (Sub.le (by decide) hp)
  exact h

theorem State.idDrop_frame {P : Part → Prop} {s0 s : State} (h : Frame P s0 s) (a_far : Bool) (hp : Sub 4952969156748116421656127746 P) :
    Frame P s0 (State.idDrop s a_far) := by
  unfold State.idDrop
  extract_lets -merge -useContext -underBinder +onlyGivenNames x0
  extract_lets -merge -useContext -underBinder +onlyGivenNames x1
  have h1 : Frame P s0 x1 := by
    unfold x1
    refine Frame.ite (fun _ => ?_) (fun _ => ?_)
    · exact h
    · refine State.ringPost_frame ?_ _ _ _ _ _ _ _ (Sub.le (by decide) hp)
      exact h
  extract_lets -merge -useContext -underBinder +onlyGivenNames x2
  have h2 : Frame P s0 x2 := by
    unfold x2
    refine State.setSide_frame ?_ _ _ (Sub.le (by decide) hp)
    exact h1
  refine Frame.ite (fun _ => ?_) (fun _ => ?_)
  · exact h2
  · refine State.wr_frame ?_ _ _ (Reg.ringNodeId_in (hp .regRing rfl)) (Sub.le (by decide) hp)
    exact h2

theorem State.idWrite_frame {P : Part → Prop} {s0 s : State} (h : Frame P s0 s) (a_far : Bool) (a_v : Sys2Proof.Word) (hp : Sub 4952969156748116421656127746 P) :
    Frame P s0 (State.idWrite s a_far a_v) := by
  unfold State.idWrite
  extract_lets -merge -useContext -underBinder +onlyGivenNames x0
  extract_lets -merge -useContext -underBinder +onlyGivenNames x1
  refine Frame.ite (fun _ => ?_) (fun _ => ?_)
  · refine Frame.ite (fun _ => ?_) (fun _ => ?_)
    · exact h
    · refine State.idDrop_frame ?_ _ (Sub.le (by decide) hp)
      refine State.wr_frame ?_ _ _ (RegIn.ite (Reg.ringFarId_in (hp .regRing rfl)) (Reg.ringIdCfg_in (hp .regRing rfl))) (Sub.le (by decide) hp)
      exact h
  · extract_lets -merge -useContext -underBinder +onlyGivenNames x2
    have h2 : Frame P s0 x2 := by
      unfold x2
      refine State.wr_frame ?_ _ _ (RegIn.ite (Reg.ringFarId_in (hp .regRing rfl)) (Reg.ringIdCfg_in (hp .regRing rfl))) (Sub.le (by decide) hp)
      exact h
    refine Frame.ite (fun _ => ?_) (fun _ => ?_)
    · refine State.setRing_frame ?_ _ (Sub.le (by decide) hp)
      refine State.setSide_frame ?_ _ _ (Sub.le (by decide) hp)
      exact h2
    · exact h2

theorem execIdCfgWrite_frame {P : Part → Prop} {s0 s : State} (h : Frame P s0 s) (a_v : Sys2Proof.Word) (hp : Sub 4952969156748116421656127746 P) :
    AnswersIn P s0 (execIdCfgWrite a_v s) := by
  refine ⟨_, rfl, ?_⟩
  refine State.idWrite_frame ?_ _ _ (Sub.le (by decide) hp)
  exact h

theorem execFarIdWrite_frame {P : Part → Prop} {s0 s : State} (h : Frame P s0 s) (a_v : Sys2Proof.Word) (hp : Sub 4952969156748116421656127746 P) :
    AnswersIn P s0 (execFarIdWrite a_v s) := by
  refine ⟨_, rfl, ?_⟩
  refine State.idWrite_frame ?_ _ _ (Sub.le (by decide) hp)
  exact h

theorem execIdActivate_frame {P : Part → Prop} {s0 s : State} (h : Frame P s0 s) (a_far : Bool) (hp : Sub 2938873289561777409749204281634 P) :
    AnswersIn P s0 (execIdActivate a_far s) := by
  refine ⟨_, rfl, ?_⟩
  extract_lets -merge -useContext -underBinder +onlyGivenNames x0
  refine Frame.ite (fun _ => ?_) (fun _ => ?_)
  · extract_lets -merge -useContext -underBinder +onlyGivenNames x1
    extract_lets -merge -useContext -underBinder +onlyGivenNames x2
    have h2 : Frame P s0 x2 := by
      unfold x2
      refine State.setSide_frame ?_ _ _ (Sub.le (by decide) hp)
      exact h
    refine Frame.ite (fun _ => ?_) (fun _ => ?_)
    · exact h2
    · refine State.pubDying_frame ?_ _ (Sub.le (by decide) hp)
      refine State.wr_frame ?_ _ _ (Reg.ringNodeId_in (hp .regRing rfl)) (Sub.le (by decide) hp)
      exact h2
  · exact h

theorem execNeighbourSend_frame {P : Part → Prop} {s0 s : State} (h : Frame P s0 s)  (hp : Sub 316916286353036142892898527490 P) :
    AnswersIn P s0 (execNeighbourSend s) := by
  refine ⟨_, rfl, ?_⟩
  refine Frame.ite (fun _ => ?_) (fun _ => ?_)
  · refine Frame.foldl ?_ (fun y0 a0 h0 => ?_)
    · refine State.setRing_frame ?_ _ (Sub.le (by decide) hp)
      exact h
    · refine Frame.ite (fun _ => ?_) (fun _ => ?_)
      · refine State.sendLinkLocal_frame ?_ _ _ _ (Sub.le (by decide) hp)
        exact h0
      · exact h0
  · exact h

theorem execSupervisionSend_frame {P : Part → Prop} {s0 s : State} (h : Frame P s0 s) (a_far : Bool) (hp : Sub 316916286353036142892898527490 P) :
    AnswersIn P s0 (execSupervisionSend a_far s) := by
  refine ⟨_, rfl, ?_⟩
  extract_lets -merge -useContext -underBinder +onlyGivenNames x0
  extract_lets -merge -useContext -underBinder +onlyGivenNames x1
  refine Frame.ite (fun _ => ?_) (fun _ => ?_)
  · extract_lets -merge -useContext -underBinder +onlyGivenNames x2
    have h2 : Frame P s0 x2 := by
      unfold x2
      refine Frame.ite (fun _ => ?_) (fun _ => ?_)
      · refine State.setSide_frame ?_ _ _ (Sub.le (by decide) hp)
        exact h
      · exact h
    refine Frame.ite (fun _ => ?_) (fun _ => ?_)
    · exact h2
    · extract_lets -merge -useContext -underBinder +onlyGivenNames x3
      refine State.setSide_frame ?_ _ _ (Sub.le (by decide) hp)
      refine State.originateOn_frame ?_ _ _ _ _ _ _ _ (Sub.le (by decide) hp)
      exact h2
  · exact h

theorem execHsrSupervisionSend_frame {P : Part → Prop} {s0 s : State} (h : Frame P s0 s)  (hp : Sub 3636295978792518722726146 P) :
    AnswersIn P s0 (execHsrSupervisionSend s) := by
  refine ⟨_, rfl, ?_⟩
  extract_lets -merge -useContext -underBinder +onlyGivenNames x0
  have h0 : Frame P s0 x0 := by
    unfold x0
    refine State.setRing_frame ?_ _ (Sub.le (by decide) hp)
    exact h
  extract_lets -merge -useContext -underBinder +onlyGivenNames x1
  extract_lets -merge -useContext -underBinder +onlyGivenNames x2
  refine Frame.ite (fun _ => ?_) (fun _ => ?_)
  · exact h
  · refine Frame.ite (fun _ => ?_) (fun _ => ?_)
    · extract_lets -merge -useContext -underBinder +onlyGivenNames x3
      extract_lets -merge -useContext -underBinder +onlyGivenNames x4
      extract_lets -merge -useContext -underBinder +onlyGivenNames x5
      have h5 : Frame P s0 x5 := by
        unfold x5
        refine State.setNet_frame ?_ _ (Sub.le (by decide) hp)
        exact h0
      refine State.takeFrame_frame ?_ _ _ (Sub.le (by decide) hp)
      refine State.takeFrame_frame ?_ _ _ (Sub.le (by decide) hp)
      exact h5
    · refine Frame.ite (fun _ => ?_) (fun _ => ?_)
      · extract_lets -merge -useContext -underBinder +onlyGivenNames x6
        extract_lets -merge -useContext -underBinder +onlyGivenNames x7
        extract_lets -merge -useContext -underBinder +onlyGivenNames x8
        have h8 : Frame P s0 x8 := by
          unfold x8
          refine State.setNet_frame ?_ _ (Sub.le (by decide) hp)
          exact h0
        refine State.takeFrame_frame ?_ _ _ (Sub.le (by decide) hp)
        refine State.takeFrame_frame ?_ _ _ (Sub.le (by decide) hp)
        exact h8
      · exact h

theorem State.tryClose_frame {P : Part → Prop} {s0 s : State} (h : Frame P s0 s) (a_port : ℕ) (hp : Sub 1208999606595322059630850 P) :
    Frame P s0 (State.tryClose s a_port) := by
  unfold State.tryClose
  extract_lets -merge -useContext -underBinder +onlyGivenNames x0
  extract_lets -merge -useContext -underBinder +onlyGivenNames x1
  extract_lets -merge -useContext -underBinder +onlyGivenNames x2
  refine Frame.ite (fun _ => ?_) (fun _ => ?_)
  · extract_lets -merge -useContext -underBinder +onlyGivenNames x3
    refine State.ringPost_frame ?_ _ _ _ _ _ _ _ (Sub.le (by decide) hp)
    refine State.setSide_frame ?_ _ _ (Sub.le (by decide) hp)
    exact h
  · exact h

theorem State.supReturn_frame {P : Part → Prop} {s0 s : State} (h : Frame P s0 s) (a_port : ℕ) (a_seq : ℕ) (hp : Sub 1208999606595322059630850 P) :
    Frame P s0 (State.supReturn s a_port a_seq) := by
  unfold State.supReturn
  extract_lets -merge -useContext -underBinder +onlyGivenNames x0
  refine Frame.ite (fun _ => ?_) (fun _ => ?_)
  · extract_lets -merge -useContext -underBinder +onlyGivenNames x1
    have h1 : Frame P s0 x1 := by
      unfold x1
      refine State.setSide_frame ?_ _ _ (Sub.le (by decide) hp)
      exact h
    extract_lets -merge -useContext -underBinder +onlyGivenNames x2
    refine Frame.ite (fun _ => ?_) (fun _ => ?_)
    · refine State.tryClose_frame ?_ _ (Sub.le (by decide) hp)
      refine State.setSide_frame ?_ _ _ (Sub.le (by decide) hp)
      exact h1
    · exact h1
  · exact h

theorem State.idConflict_frame {P : Part → Prop} {s0 s : State} (h : Frame P s0 s) (a_port : ℕ) (a_other : ℕ) (hp : Sub 4952969156748116421656127746 P) :
    Frame P s0 (State.idConflict s a_port a_other) := by
  unfold State.idConflict
  refine Frame.ite (fun _ => ?_) (fun _ => ?_)
  · exact h
  · extract_lets -merge -useContext -underBinder +onlyGivenNames x0
    have h0 : Frame P s0 x0 := by
      unfold x0
      refine State.bump_frame ?_ _ (Reg.ringCntConflict_in (hp .regRing rfl)) (Sub.le (by decide) hp)
      refine State.setRing_frame ?_ _ (Sub.le (by decide) hp)
      exact h
    extract_lets -merge -useContext -underBinder +onlyGivenNames x1
    extract_lets -merge -useContext -underBinder +onlyGivenNames x2
    have h2 : Frame P s0 x2 := by
      unfold x2
      refine State.ringPost_frame ?_ _ _ _ _ _ _ _ (Sub.le (by decide) hp)
      exact h0
    refine Frame.ite (fun _ => ?_) (fun _ => ?_)
    · extract_lets -merge -useContext -underBinder +onlyGivenNames x3
      refine State.setSide_frame ?_ _ _ (Sub.le (by decide) hp)
      refine State.idDrop_frame ?_ _ (Sub.le (by decide) hp)
      refine State.setFld_frame ?_ _ _ _ _ (RegIn.ite (Reg.ringIdCfg_in (hp .regRing rfl)) (Reg.ringFarId_in (hp .regRing rfl))) (Sub.le (by decide) hp)
      exact h2
    · exact h2

theorem State.neighbourHeard_frame {P : Part → Prop} {s0 s : State} (h : Frame P s0 s) (a_port : ℕ) (a_src : ℕ) (hp : Sub 4952969159053959430869821730 P) :
    Frame P s0 (State.neighbourHeard s a_port a_src) := by
  unfold State.neighbourHeard
  extract_lets -merge -useContext -underBinder +onlyGivenNames x0
  have h0 : Frame P s0 x0 := by
    unfold x0
    refine State.setRing_frame ?_ _ (Sub.le (by decide) hp)
    refine State.wr_frame ?_ _ _ (Reg.ringNeighbour_in _ (by omega) (hp .regRing rfl)) (Sub.le (by decide) hp)
    exact h
  extract_lets -merge -useContext -underBinder +onlyGivenNames x1
  have h1 : Frame P s0 x1 := by
    unfold x1
    refine Frame.ite (fun _ => ?_) (fun _ => ?_)
    · refine State.qualClear_frame ?_ _ _ _ _ (Sub.le (by decide) hp)
      refine State.setRing_frame ?_ _ (Sub.le (by decide) hp)
      exact h0
    · exact h0
  refine State.portHeals_frame ?_ _ (Sub.le (by decide) hp)
  exact h1

theorem State.noticeHeard_frame {P : Part → Prop} {s0 s : State} (h : Frame P s0 s) (a_port : ℕ) (a_src : ℕ) (a_p : List Sys2Proof.Byte) (hp : Sub 4952969156748116421656127746 P) :
    Frame P s0 (State.noticeHeard s a_port a_src a_p) := by
  unfold State.noticeHeard
  split
  · next y0_0 y0_1 e0 =>
      have g0 : Frame P s0 y0_1 := by
        refine Frame.of2 e0 ?_
        refine State.ringBroken_frame ?_ _ (Sub.le (by decide) hp)
        exact h
      refine Frame.ite (fun _ => ?_) (fun _ => ?_)
      · refine State.ringPost_frame ?_ _ _ _ _ _ _ _ (Sub.le (by decide) hp)
        exact g0
      · exact g0

theorem execRingMgmtReceive_frame {P : Part → Prop} {s0 s : State} (h : Frame P s0 s)  (hp : Sub 4952969159053961629893077282 P) :
    AnswersIn P s0 (execRingMgmtReceive s) := by
  refine ⟨_, rfl, ?_⟩
  split
  · exact h
  · extract_lets -merge -useContext -underBinder +onlyGivenNames x2
    have h2 : Frame P s0 x2 := by
      unfold x2
      refine State.setNet_frame ?_ _ (Sub.le (by decide) hp)
      exact h
    extract_lets -merge -useContext -underBinder +onlyGivenNames x3
    extract_lets -merge -useContext -underBinder +onlyGivenNames x4
    extract_lets -merge -useContext -underBinder +onlyGivenNames x5
    extract_lets -merge -useContext -underBinder +onlyGivenNames x6
    refine Frame.ite (fun _ => ?_) (fun _ => ?_)
    · refine State.qualFail_frame ?_ _ _ _ _ _ (Reg.ringCntMgmtBad_in (hp .regRing rfl)) (Sub.le (by decide) hp)
      refine State.raise_frame ?_ _ _ (Sub.le (by decide) hp)
      exact h2
    · refine Frame.ite (fun _ => ?_) (fun _ => ?_)
      · refine Frame.ite (fun _ => ?_) (fun _ => ?_)
        · refine State.idConflict_frame ?_ _ _ (Sub.le (by decide) hp)
          exact h2
        · refine Frame.ite (fun _ => ?_) (fun _ => ?_)
          · refine State.supReturn_frame ?_ _ _ (Sub.le (by decide) hp)
            exact h2
          · exact h2
      · split
        · refine State.neighbourHeard_frame ?_ _ _ (Sub.le (by decide) hp)
          exact h2
        · refine Frame.ite (fun _ => ?_) (fun _ => ?_)
          · refine State.setRing_frame ?_ _ (Sub.le (by decide) hp)
            exact h2
          · exact h2
        · refine State.noticeHeard_frame ?_ _ _ _ (Sub.le (by decide) hp)
          exact h2

theorem execNeighbourSilent_frame {P : Part → Prop} {s0 s : State} (h : Frame P s0 s) (a_port : Fin 4) (hp : Sub 321868046512483507001708718370 P) :
    AnswersIn P s0 (execNeighbourSilent a_port s) := by
  refine ⟨_, rfl, ?_⟩
  refine Frame.ite (fun _ => ?_) (fun _ => ?_)
  · extract_lets -merge -useContext -underBinder +onlyGivenNames x0
    extract_lets -merge -useContext -underBinder +onlyGivenNames x1
    have h1 : Frame P s0 x1 := by
      unfold x1
      refine State.setRing_frame ?_ _ (Sub.le (by decide) hp)
      exact h
    extract_lets -merge -useContext -underBinder +onlyGivenNames x2
    have h2 : Frame P s0 x2 := by
      unfold x2
      refine State.setFld_frame ?_ _ _ _ _ (Reg.ringNeighbour_in _ (by omega) (hp .regRing rfl)) (Sub.le (by decide) hp)
      exact h1
    extract_lets -merge -useContext -underBinder +onlyGivenNames x3
    have h3 : Frame P s0 x3 := by
      unfold x3
      refine State.qualFail_frame ?_ _ _ _ _ _ (Reg.ringCntSilent_in (hp .regRing rfl)) (Sub.le (by decide) hp)
      refine State.raise_frame ?_ _ _ (Sub.le (by decide) hp)
      exact h2
    refine Frame.ite (fun _ => ?_) (fun _ => ?_)
    · refine State.portBroken_frame ?_ _ _ (Sub.le (by decide) hp)
      exact h3
    · exact h3
  · exact h

theorem execStationTimeout_frame {P : Part → Prop} {s0 s : State} (h : Frame P s0 s) (a_n : BitVec 8) (hp : Sub 4398046511104 P) :
    AnswersIn P s0 (execStationTimeout a_n s) := by
  refine ⟨_, rfl, ?_⟩
  refine Frame.ite (fun _ => ?_) (fun _ => ?_)
  · refine State.setRing_frame ?_ _ (Sub.le (by decide) hp)
    exact h
  · exact h

theorem execSupervisionMissed_frame {P : Part → Prop} {s0 s : State} (h : Frame P s0 s) (a_far : Bool) (hp : Sub 4952969156748116421656127746 P) :
    AnswersIn P s0 (execSupervisionMissed a_far s) := by
  refine ⟨_, rfl, ?_⟩
  extract_lets -merge -useContext -underBinder +onlyGivenNames x0
  extract_lets -merge -useContext -underBinder +onlyGivenNames x1
  refine Frame.ite (fun _ => ?_) (fun _ => ?_)
  · extract_lets -merge -useContext -underBinder +onlyGivenNames x2
    have h2 : Frame P s0 x2 := by
      unfold x2
      refine State.ringBroken_frame ?_ _ (Sub.le (by decide) hp)
      exact h
    refine State.ringPost_frame ?_ _ _ _ _ _ _ _ (Sub.le (by decide) hp)
    exact h2
  · exact h

theorem State.setPtp_frame {P : Part → Prop} {s0 s : State} (h : Frame P s0 s) (a_f : Sys2Proof.Machine.PtpSt → Sys2Proof.Machine.PtpSt) (hp : Sub 140737488355328 P) :
    Frame P s0 (State.setPtp s a_f) := by
  unfold State.setPtp
  refine Frame.set_ptp ?_ (hp .ptp rfl) _
  exact h

theorem State.ptpBad_frame {P : Part → Prop} {s0 s : State} (h : Frame P s0 s)  (hp : Sub 618970093429666432287973378 P) :
    Frame P s0 (State.ptpBad s) := by
  unfold State.ptpBad
  refine State.raise_frame ?_ _ _ (Sub.le (by decide) hp)
  refine State.bump_frame ?_ _ (Reg.ptpCntBad_in (hp .regPtp rfl)) (Sub.le (by decide) hp)
  exact h

theorem State.ptpTake_frame {P : Part → Prop} {s0 s : State} (h : Frame P s0 s) (a_p : Sys2Proof.Machine.Delivered → Bool) (hp : Sub 2199023255552 P) :
    Frame P s0 (State.ptpTake s a_p).2 := by
  unfold State.ptpTake
  split
  · extract_lets -merge -useContext -underBinder +onlyGivenNames x1
    have h1 : Frame P s0 x1 := by
      unfold x1
      refine State.setNet_frame ?_ _ (Sub.le (by decide) hp)
      exact h
    refine Frame.pair2 ?_
    exact h1
  · refine Frame.pair2 ?_
    exact h

theorem State.ptpSelect_frame {P : Part → Prop} {s0 s : State} (h : Frame P s0 s)  (hp : Sub 620179019249421798951037186 P) :
    Frame P s0 (State.ptpSelect s) := by
  unfold State.ptpSelect
  extract_lets -merge -useContext -underBinder +onlyGivenNames x0
  split
  · refine State.setPtp_frame ?_ _ (Sub.le (by decide) hp)
    exact h
  · extract_lets -merge -useContext -underBinder +onlyGivenNames x3
    extract_lets -merge -useContext -underBinder +onlyGivenNames x4
    extract_lets -merge -useContext -underBinder +onlyGivenNames x5
    extract_lets -merge -useContext -underBinder +onlyGivenNames x6
    extract_lets -merge -useContext -underBinder +onlyGivenNames x7
    have h7 : Frame P s0 x7 := by
      unfold x7
      refine Frame.ite (fun _ => ?_) (fun _ => ?_)
      · exact h
      · refine State.setPtp_frame ?_ _ (Sub.le (by decide) hp)
        exact h
    extract_lets -merge -useContext -underBinder +onlyGivenNames x8
    have h8 : Frame P s0 x8 := by
      unfold x8
      refine State.wr_frame ?_ _ _ (Reg.ptpGmInfo_in (hp .regPtp rfl)) (Sub.le (by decide) hp)
      refine State.wr_frame ?_ _ _ (Reg.ptpCurGmLo_in (hp .regPtp rfl)) (Sub.le (by decide) hp)
      refine State.wr_frame ?_ _ _ (Reg.ptpCurGmHi_in (hp .regPtp rfl)) (Sub.le (by decide) hp)
      exact h7
    extract_lets -merge -useContext -underBinder +onlyGivenNames x9
    have h9 : Frame P s0 x9 := by
      unfold x9
      refine State.wr_frame ?_ _ _ (Reg.ptpUtc_in (hp .regPtp rfl)) (Sub.le (by decide) hp)
      exact h8
    refine Frame.ite (fun _ => ?_) (fun _ => ?_)
    · exact h9
    · refine State.post_frame ?_ _ _ _ _ _ _ _ _ (Sub.le (by decide) hp)
      refine State.raise_frame ?_ _ _ (Sub.le (by decide) hp)
      exact h9

theorem execAnnounceReceive_frame {P : Part → Prop} {s0 s : State} (h : Frame P s0 s)  (hp : Sub 620179019249423997974292738 P) :
    AnswersIn P s0 (execAnnounceReceive s) := by
  refine ⟨_, rfl, ?_⟩
  split
  · next y0_0 y0_1 e0 =>
      have g0 : Frame P s0 y0_1 := by
        refine Frame.of2 e0 ?_
        refine State.ptpTake_frame ?_ _ (Sub.le (by decide) hp)
        exact h
      extract_lets -merge -useContext -underBinder +onlyGivenNames x1
      refine Frame.ite (fun _ => ?_) (fun _ => ?_)
      · refine State.ptpBad_frame ?_  (Sub.le (by decide) hp)
        exact g0
      · refine Frame.ite (fun _ => ?_) (fun _ => ?_)
        · exact g0
        · extract_lets -merge -useContext -underBinder +onlyGivenNames x2
          have h2 : Frame P s0 x2 := by
            unfold x2
            refine State.bump_frame ?_ _ (Reg.ptpCntAnnounce_in (hp .regPtp rfl)) (Sub.le (by decide) hp)
            exact g0
          extract_lets -merge -useContext -underBinder +onlyGivenNames x3
          extract_lets -merge -useContext -underBinder +onlyGivenNames x4
          extract_lets -merge -useContext -underBinder +onlyGivenNames x5
          extract_lets -merge -useContext -underBinder +onlyGivenNames x6
          have h6 : Frame P s0 x6 := by
            unfold x6
            refine State.setPtp_frame ?_ _ (Sub.le (by decide) hp)
            exact h2
          refine State.ptpSelect_frame ?_  (Sub.le (by decide) hp)
          exact h6
  · next y7_0 e7 =>
      have g7 : Frame P s0 y7_0 := by
        refine Frame.of2 e7 ?_
        refine State.ptpTake_frame ?_ _ (Sub.le (by decide) hp)
        exact h
      exact g7

theorem State.sourceGone_frame {P : Part → Prop} {s0 s : State} (h : Frame P s0 s) (a_src : ℕ) (hp : Sub 1208999606731661501475586 P) :
    Frame P s0 (State.sourceGone s a_src) := by
  unfold State.sourceGone
  extract_lets -merge -useContext -underBinder +onlyGivenNames x0
  have h0 : Frame P s0 x0 := by
    unfold x0
    refine State.setPtp_frame ?_ _ (Sub.le (by decide) hp)
    exact h
  refine Frame.ite (fun _ => ?_) (fun _ => ?_)
  · refine State.stateSet_frame ?_ _ _ (Sub.le (by decide) hp)
    exact h0
  · exact h0

theorem State.sourceLost_frame {P : Part → Prop} {s0 s : State} (h : Frame P s0 s) (a_source : ℕ) (a_good : Sys2Proof.TimePoint) (hp : Sub 1208999606590924013119746 P) :
    Frame P s0 (State.sourceLost s a_source a_good) := by
  unfold State.sourceLost
  refine State.post_frame ?_ _ _ _ _ _ _ _ _ (Sub.le (by decide) hp)
  refine State.raise_frame ?_ _ _ (Sub.le (by decide) hp)
  exact h

theorem execAnnounceReceiptTimeout_frame {P : Part → Prop} {s0 s : State} (h : Frame P s0 s)  (hp : Sub 620179019249421798951037698 P) :
    AnswersIn P s0 (execAnnounceReceiptTimeout s) := by
  refine ⟨_, rfl, ?_⟩
  split
  · exact h
  · refine Frame.ite (fun _ => ?_) (fun _ => ?_)
    · exact h
    · extract_lets -merge -useContext -underBinder +onlyGivenNames x2
      have h2 : Frame P s0 x2 := by
        unfold x2
        refine State.setPtp_frame ?_ _ (Sub.le (by decide) hp)
        refine State.bump_frame ?_ _ (Reg.ptpCntAnnTimeout_in (hp .regPtp rfl)) (Sub.le (by decide) hp)
        exact h
      refine Frame.ite (fun _ => ?_) (fun _ => ?_)
      · refine State.setPtp_frame ?_ _ (Sub.le (by decide) hp)
        exact h2
      · extract_lets -merge -useContext -underBinder +onlyGivenNames x3
        have h3 : Frame P s0 x3 := by
          unfold x3
          refine Frame.ite (fun _ => ?_) (fun _ => ?_)
          · exact h2
          · refine State.sourceGone_frame ?_ _ (Sub.le (by decide) hp)
            refine State.sourceLost_frame ?_ _ _ (Sub.le (by decide) hp)
            exact h2
        extract_lets -merge -useContext -underBinder +onlyGivenNames x4
        have h4 : Frame P s0 x4 := by
          unfold x4
          refine State.setPtp_frame ?_ _ (Sub.le (by decide) hp)
          exact h3
        refine State.ptpSelect_frame ?_  (Sub.le (by decide) hp)
        exact h4

theorem execSyncTimeout_frame {P : Part → Prop} {s0 s : State} (h : Frame P s0 s)  (hp : Sub 1208999606731661501475586 P) :
    AnswersIn P s0 (execSyncTimeout s) := by
  refine ⟨_, rfl, ?_⟩
  refine Frame.ite (fun _ => ?_) (fun _ => ?_)
  · refine State.sourceGone_frame ?_ _ (Sub.le (by decide) hp)
    refine State.sourceLost_frame ?_ _ _ (Sub.le (by decide) hp)
    refine State.setPtp_frame ?_ _ (Sub.le (by decide) hp)
    exact h
  · exact h

theorem State.servoOffset_frame {P : Part → Prop} {s0 s : State} (h : Frame P s0 s) (a_src : ℕ) (a_o : ℤ) (a_h : ℕ) (a_a : ℕ) (hp : Sub 1208999606731661501475586 P) :
    Frame P s0 (State.servoOffset s a_src a_o a_h a_a) := by
  unfold State.servoOffset
  extract_lets -merge -useContext -underBinder +onlyGivenNames x0
  extract_lets -merge -useContext -underBinder +onlyGivenNames x1
  extract_lets -merge -useContext -underBinder +onlyGivenNames x2
  have h2 : Frame P s0 x2 := by
    unfold x2
    refine State.setPtp_frame ?_ _ (Sub.le (by decide) hp)
    exact h
  refine Frame.ite (fun _ => ?_) (fun _ => ?_)
  · refine State.stateSet_frame ?_ _ _ (Sub.le (by decide) hp)
    exact h2
  · exact h2

theorem State.servoUpdate_frame {P : Part → Prop} {s0 s : State} (h : Frame P s0 s) (a_m : List Sys2Proof.Byte) (a_rx : Sys2Proof.TimePoint) (a_cf : ℤ) (a_h : ℕ) (hp : Sub 620179019249421798951037698 P) :
    Frame P s0 (State.servoUpdate s a_m a_rx a_cf a_h) := by
  unfold State.servoUpdate
  extract_lets -merge -useContext -underBinder +onlyGivenNames x0
  extract_lets -merge -useContext -underBinder +onlyGivenNames x1
  extract_lets -merge -useContext -underBinder +onlyGivenNames x2
  have h2 : Frame P s0 x2 := by
    unfold x2
    refine State.setPtp_frame ?_ _ (Sub.le (by decide) hp)
    refine State.bump_frame ?_ _ (Reg.ptpCntSync_in (hp .regPtp rfl)) (Sub.le (by decide) hp)
    exact h
  refine State.servoOffset_frame ?_ _ _ _ _ (Sub.le (by decide) hp)
  exact h2

theorem execSyncReceive_frame {P : Part → Prop} {s0 s : State} (h : Frame P s0 s)  (hp : Sub 620179019249423997974293250 P) :
    AnswersIn P s0 (execSyncReceive s) := by
  refine ⟨_, rfl, ?_⟩
  split
  · next y0_0 y0_1 e0 =>
      have g0 : Frame P s0 y0_1 := by
        refine Frame.of2 e0 ?_
        refine State.ptpTake_frame ?_ _ (Sub.le (by decide) hp)
        exact h
      extract_lets -merge -useContext -underBinder +onlyGivenNames x1
      refine Frame.ite (fun _ => ?_) (fun _ => ?_)
      · exact g0
      · refine Frame.ite (fun _ => ?_) (fun _ => ?_)
        · refine State.ptpBad_frame ?_  (Sub.le (by decide) hp)
          exact g0
        · extract_lets -merge -useContext -underBinder +onlyGivenNames x2
          refine Frame.ite (fun _ => ?_) (fun _ => ?_)
          · refine State.setPtp_frame ?_ _ (Sub.le (by decide) hp)
            exact g0
          · refine State.servoUpdate_frame ?_ _ _ _ _ (Sub.le (by decide) hp)
            exact g0
  · next y3_0 e3 =>
      have g3 : Frame P s0 y3_0 := by
        refine Frame.of2 e3 ?_
        refine State.ptpTake_frame ?_ _ (Sub.le (by decide) hp)
        exact h
      exact g3

theorem execFollowUpReceive_frame {P : Part → Prop} {s0 s : State} (h : Frame P s0 s)  (hp : Sub 620179019249423997974293250 P) :
    AnswersIn P s0 (execFollowUpReceive s) := by
  refine ⟨_, rfl, ?_⟩
  split
  · next y0_0 y0_1 e0 =>
      have g0 : Frame P s0 y0_1 := by
        refine Frame.of2 e0 ?_
        refine State.ptpTake_frame ?_ _ (Sub.le (by decide) hp)
        exact h
      extract_lets -merge -useContext -underBinder +onlyGivenNames x1
      refine Frame.ite (fun _ => ?_) (fun _ => ?_)
      · refine State.ptpBad_frame ?_  (Sub.le (by decide) hp)
        exact g0
      · split
        · refine Frame.ite (fun _ => ?_) (fun _ => ?_)
          · refine State.servoUpdate_frame ?_ _ _ _ _ (Sub.le (by decide) hp)
            exact g0
          · exact g0
        · exact g0
  · next y4_0 e4 =>
      have g4 : Frame P s0 y4_0 := by
        refine Frame.of2 e4 ?_
        refine State.ptpTake_frame ?_ _ (Sub.le (by decide) hp)
        exact h
      exact g4

theorem State.ptpRaw_frame {P : Part → Prop} {s0 s : State} (h : Frame P s0 s) (a_p : ℕ) (a_b : List Sys2Proof.Byte) (hp : Sub 316916286353036138494852016386 P) :
    Frame P s0 (State.ptpRaw s a_p a_b) := by
  unfold State.ptpRaw
  extract_lets -merge -useContext -underBinder +onlyGivenNames x0
  extract_lets -merge -useContext -underBinder +onlyGivenNames x1
  refine State.takeFrame_frame ?_ _ _ (Sub.le (by decide) hp)
  refine State.mirrorIn_frame ?_ _ _ _ (Sub.le (by decide) hp)
  exact h

theorem State.ptpLinkLocal_frame {P : Part → Prop} {s0 s : State} (h : Frame P s0 s) (a_p : ℕ) (a_body : List Sys2Proof.Byte) (hp : Sub 316916286353036138494852016386 P) :
    Frame P s0 (State.ptpLinkLocal s a_p a_body) := by
  unfold State.ptpLinkLocal
  refine Frame.ite (fun _ => ?_) (fun _ => ?_)
  · refine State.sendLinkLocal_frame ?_ _ _ _ (Sub.le (by decide) hp)
    exact h
  · refine State.ptpRaw_frame ?_ _ _ (Sub.le (by decide) hp)
    exact h

theorem State.ptpSide_frame {P : Part → Prop} {s0 s : State} (h : Frame P s0 s) (a_announce : Bool) (a_side : ℕ) (hp : Sub 316916286353036138494852016386 P) :
    Frame P s0 (State.ptpSide s a_announce a_side) := by
  unfold State.ptpSide
  extract_lets -merge -useContext -underBinder +onlyGivenNames x0
  have h0 : ∀ w0_0 w0_1, Frame P s0 w0_0 → Frame P s0 (x0 w0_0 w0_1) := by
    intro w0_0 w0_1 hw0
    unfold x0
    refine State.ptpRaw_frame ?_ _ _ (Sub.le (by decide) hp)
    exact hw0
  refine Frame.ite (fun _ => ?_) (fun _ => ?_)
  · exact h
  · refine Frame.ite (fun _ => ?_) (fun _ => ?_)
    · refine Frame.ite (fun _ => ?_) (fun _ => ?_)
      · extract_lets -merge -useContext -underBinder +onlyGivenNames x1
        refine State.setNet_frame ?_ _ (Sub.le (by decide) hp)
        refine State.ptpRaw_frame ?_ _ _ (Sub.le (by decide) hp)
        refine State.ptpRaw_frame ?_ _ _ (Sub.le (by decide) hp)
        exact h
      · refine State.originateOn_frame ?_ _ _ _ _ _ _ _ (Sub.le (by decide) hp)
        exact h
    · extract_lets -merge -useContext -underBinder +onlyGivenNames x2
      extract_lets -merge -useContext -underBinder +onlyGivenNames x3
      extract_lets -merge -useContext -underBinder +onlyGivenNames x4
      have h4 : Frame P s0 x4 := by
        unfold x4
        refine Frame.foldl ?_ (fun y5 a5 h5 => ?_)
        · exact h
        · refine h0 _ _ ?_
          exact h5
      refine Frame.ite (fun _ => ?_) (fun _ => ?_)
      · refine State.originateOn_frame ?_ _ _ _ _ _ _ _ (Sub.le (by decide) hp)
        exact h4
      · exact h4

theorem execSyncSend_frame {P : Part → Prop} {s0 s : State} (h : Frame P s0 s) (a_announce : Bool) (hp : Sub 317535256372678969369789933826 P) :
    AnswersIn P s0 (execSyncSend a_announce s) := by
  refine ⟨_, rfl, ?_⟩
  extract_lets -merge -useContext -underBinder +onlyGivenNames x0
  have h0 : Frame P s0 x0 := by
    unfold x0
    refine Frame.ite (fun _ => ?_) (fun _ => ?_)
    · refine State.ptpSelect_frame ?_  (Sub.le (by decide) hp)
      exact h
    · exact h
  extract_lets -merge -useContext -underBinder +onlyGivenNames x1
  extract_lets -merge -useContext -underBinder +onlyGivenNames x2
  have h2 : ∀ w2_0, Frame P s0 w2_0 → Frame P s0 (x2 w2_0) := by
    intro w2_0 hw2
    unfold x2
    refine State.setPtp_frame ?_ _ (Sub.le (by decide) hp)
    exact hw2
  extract_lets -merge -useContext -underBinder +onlyGivenNames x3
  extract_lets -merge -useContext -underBinder +onlyGivenNames x4
  refine Frame.ite (fun _ => ?_) (fun _ => ?_)
  · exact h0
  · split
    · refine Frame.ite (fun _ => ?_) (fun _ => ?_)
      · extract_lets -merge -useContext -underBinder +onlyGivenNames x6
        have h6 : Frame P s0 x6 := by
          unfold x6
          refine State.ptpSide_frame ?_ _ _ (Sub.le (by decide) hp)
          exact h0
        refine h2 _ ?_
        refine Frame.ite (fun _ => ?_) (fun _ => ?_)
        · refine State.ptpSide_frame ?_ _ _ (Sub.le (by decide) hp)
          exact h6
        · exact h6
      · exact h0
    · refine Frame.ite (fun _ => ?_) (fun _ => ?_)
      · refine h2 _ ?_
        refine State.ptpSide_frame ?_ _ _ (Sub.le (by decide) hp)
        exact h0
      · exact h0

theorem execPdelayReqSend_frame {P : Part → Prop} {s0 s : State} (h : Frame P s0 s)  (hp : Sub 317535256372678969369789933826 P) :
    AnswersIn P s0 (execPdelayReqSend s) := by
  refine ⟨_, rfl, ?_⟩
  refine Frame.ite (fun _ => ?_) (fun _ => ?_)
  · exact h
  · extract_lets -merge -useContext -underBinder +onlyGivenNames x0
    have h0 : Frame P s0 x0 := by
      unfold x0
      refine State.setPtp_frame ?_ _ (Sub.le (by decide) hp)
      exact h
    refine Frame.foldl ?_ (fun y1 a1 h1 => ?_)
    · exact h0
    · refine Frame.ite (fun _ => ?_) (fun _ => ?_)
      · extract_lets -merge -useContext -underBinder +onlyGivenNames x2
        have h2 : Frame P s0 x2 := by
          unfold x2
          refine Frame.ite (fun _ => ?_) (fun _ => ?_)
          · refine State.bump_frame ?_ _ (Reg.ptpCntPdelayFail_in (hp .regPtp rfl)) (Sub.le (by decide) hp)
            exact h1
          · exact h1
        extract_lets -merge -useContext -underBinder +onlyGivenNames x3
        refine State.ptpLinkLocal_frame ?_ _ _ (Sub.le (by decide) hp)
        refine State.setPtp_frame ?_ _ (Sub.le (by decide) hp)
        exact h2
      · exact h1

theorem execPdelayReqReceive_frame {P : Part → Prop} {s0 s : State} (h : Frame P s0 s)  (hp : Sub 317535256372678828632301578498 P) :
    AnswersIn P s0 (execPdelayReqReceive s) := by
  refine ⟨_, rfl, ?_⟩
  split
  · next y0_0 y0_1 e0 =>
      have g0 : Frame P s0 y0_1 := by
        refine Frame.of2 e0 ?_
        refine State.ptpTake_frame ?_ _ (Sub.le (by decide) hp)
        exact h
      extract_lets -merge -useContext -underBinder +onlyGivenNames x1
      refine Frame.ite (fun _ => ?_) (fun _ => ?_)
      · refine State.ptpBad_frame ?_  (Sub.le (by decide) hp)
        exact g0
      · extract_lets -merge -useContext -underBinder +onlyGivenNames x2
        extract_lets -merge -useContext -underBinder +onlyGivenNames x3
        extract_lets -merge -useContext -underBinder +onlyGivenNames x4
        have h4 : Frame P s0 x4 := by
          unfold x4
          refine State.ptpLinkLocal_frame ?_ _ _ (Sub.le (by decide) hp)
          exact g0
        refine State.ptpLinkLocal_frame ?_ _ _ (Sub.le (by decide) hp)
        exact h4
  · next y5_0 e5 =>
      have g5 : Frame P s0 y5_0 := by
        refine Frame.of2 e5 ?_
        refine State.ptpTake_frame ?_ _ (Sub.le (by decide) hp)
        exact h
      exact g5

theorem State.pdelayDone_frame {P : Part → Prop} {s0 s : State} (h : Frame P s0 s) (a_p : Fin 4) (a_x : ℤ) (hp : Sub 618970019642830874937917440 P) :
    Frame P s0 (State.pdelayDone s a_p a_x) := by
  unfold State.pdelayDone
  extract_lets -merge -useContext -underBinder +onlyGivenNames x0
  refine State.wr_frame ?_ _ _ (Reg.ptpPdelay_in _ (by omega) (hp .regPtp rfl)) (Sub.le (by decide) hp)
  refine State.setPtp_frame ?_ _ (Sub.le (by decide) hp)
  exact h

theorem State.pdelayTake_frame {P : Part → Prop} {s0 s : State} (h : Frame P s0 s) (a_p : Fin 4) (a_d : Sys2Proof.Machine.Delivered) (hp : Sub 618970093429807169776328706 P) :
    Frame P s0 (State.pdelayTake s a_p a_d) := by
  unfold State.pdelayTake
  extract_lets -merge -useContext -underBinder +onlyGivenNames x0
  extract_lets -merge -useContext -underBinder +onlyGivenNames x1
  refine Frame.ite (fun _ => ?_) (fun _ => ?_)
  · refine State.ptpBad_frame ?_  (Sub.le (by decide) hp)
    exact h
  · refine Frame.ite (fun _ => ?_) (fun _ => ?_)
    · exact h
    · refine Frame.ite (fun _ => ?_) (fun _ => ?_)
      · refine Frame.ite (fun _ => ?_) (fun _ => ?_)
        · refine State.setPtp_frame ?_ _ (Sub.le (by decide) hp)
          exact h
        · refine State.pdelayDone_frame ?_ _ _ (Sub.le (by decide) hp)
          exact h
      · split
        · refine State.pdelayDone_frame ?_ _ _ (Sub.le (by decide) hp)
          exact h
        · exact h

theorem execPdelayRespReceive_frame {P : Part → Prop} {s0 s : State} (h : Frame P s0 s) (a_port : Fin 4) (a_count : ℕ) (hp : Sub 618970093429809368799584258 P) :
    AnswersIn P s0 (execPdelayRespReceive a_port a_count s) := by
  refine ⟨_, rfl, ?_⟩
  extract_lets -merge -useContext -underBinder +onlyGivenNames x0
  extract_lets -merge -useContext -underBinder +onlyGivenNames x1
  extract_lets -merge -useContext -underBinder +onlyGivenNames x2
  extract_lets -merge -useContext -underBinder +onlyGivenNames x3
  have h3 : Frame P s0 x3 := by
    unfold x3
    refine State.setNet_frame ?_ _ (Sub.le (by decide) hp)
    exact h
  refine Frame.ite (fun _ => ?_) (fun _ => ?_)
  · exact h3
  · refine Frame.foldl ?_ (fun y4 a4 h4 => ?_)
    · exact h3
    · refine State.pdelayTake_frame ?_ _ _ (Sub.le (by decide) hp)
      exact h4

theorem State.setSource_frame {P : Part → Prop} {s0 s : State} (h : Frame P s0 s) (a_k : ℕ) (a_f : Sys2Proof.Machine.LocalSrc → Sys2Proof.Machine.LocalSrc) (hp : Sub 281474976710656 P) :
    Frame P s0 (State.setSource s a_k a_f) := by
  unfold State.setSource
  refine Frame.set_sources ?_ (hp .sources rfl) _
  exact h

theorem State.pulseServo_frame {P : Part → Prop} {s0 s : State} (h : Frame P s0 s) (a_k : ℕ) (a_t : Sys2Proof.TimePoint) (hp : Sub 1208999606731661501475586 P) :
    Frame P s0 (State.pulseServo s a_k a_t) := by
  unfold State.pulseServo
  refine Frame.ite (fun _ => ?_) (fun _ => ?_)
  · split
    · refine State.servoOffset_frame ?_ _ _ _ _ (Sub.le (by decide) hp)
      exact h
    · exact h
  · exact h

theorem execPpsPulse_frame {P : Part → Prop} {s0 s : State} (h : Frame P s0 s) (a_src : Fin 65) (a_edge : Sys2Proof.PpsEdge) (a_width : ℕ) (hp : Sub 1265670310650581451484002 P) :
    AnswersIn P s0 (execPpsPulse a_src a_edge a_width s) := by
  refine ⟨_, rfl, ?_⟩
  extract_lets -merge -useContext -underBinder +onlyGivenNames x0
  extract_lets -merge -useContext -underBinder +onlyGivenNames xt
  refine Frame.ite (fun _ => ?_) (fun _ => ?_)
  · exact h
  · refine Frame.ite (fun _ => ?_) (fun _ => ?_)
    · extract_lets -merge -useContext -underBinder +onlyGivenNames x1
      have h1 : Frame P s0 x1 := by
        unfold x1
        refine State.pulseServo_frame ?_ _ _ (Sub.le (by decide) hp)
        refine State.setSource_frame ?_ _ _ (Sub.le (by decide) hp)
        exact h
      refine Frame.ite (fun _ => ?_) (fun _ => ?_)
      · exact h1
      · extract_lets -merge -useContext -underBinder +onlyGivenNames x2
        have h2 : Frame P s0 x2 := by
          unfold x2
          refine State.raise_frame ?_ _ _ (Sub.le (by decide) hp)
          exact h1
        refine Frame.ite (fun _ => ?_) (fun _ => ?_)
        · refine State.rxPacket_frame ?_ _ _ _ (Sub.le (by decide) hp)
          exact h2
        · exact h2
    · extract_lets -merge -useContext -underBinder +onlyGivenNames x3
      have h3 : Frame P s0 x3 := by
        unfold x3
        refine State.setSource_frame ?_ _ _ (Sub.le (by decide) hp)
        exact h
      refine Frame.ite (fun _ => ?_) (fun _ => ?_)
      · exact h3
      · refine State.qualFail_frame ?_ _ _ _ _ _ (Reg.chCntPpsBad_in _ (hp .regCh rfl)) (Sub.le (by decide) hp)
        exact h3

theorem State.channelLost_frame {P : Part → Prop} {s0 s : State} (h : Frame P s0 s) (a_c : ℕ) (a_source : ℕ) (hp : Sub 1208999606590924013119746 P) :
    Frame P s0 (State.channelLost s a_c a_source) := by
  unfold State.channelLost
  extract_lets -merge -useContext -underBinder +onlyGivenNames x0
  refine State.post_frame ?_ _ _ _ _ _ _ _ _ (Sub.le (by decide) hp)
  exact h

theorem execPpsSourceLost_frame {P : Part → Prop} {s0 s : State} (h : Frame P s0 s) (a_src : Fin 65) (hp : Sub 1208999607013136478186242 P) :
    AnswersIn P s0 (execPpsSourceLost a_src s) := by
  refine ⟨_, rfl, ?_⟩
  extract_lets -merge -useContext -underBinder +onlyGivenNames x0
  split
  · refine Frame.ite (fun _ => ?_) (fun _ => ?_)
    · extract_lets -merge -useContext -underBinder +onlyGivenNames x2
      have h2 : Frame P s0 x2 := by
        unfold x2
        refine Frame.ite (fun _ => ?_) (fun _ => ?_)
        · refine State.sourceLost_frame ?_ _ _ (Sub.le (by decide) hp)
          exact h
        · refine State.channelLost_frame ?_ _ _ (Sub.le (by decide) hp)
          exact h
      extract_lets -merge -useContext -underBinder +onlyGivenNames x3
      have h3 : Frame P s0 x3 := by
        unfold x3
        refine Frame.ite (fun _ => ?_) (fun _ => ?_)
        · refine State.sourceGone_frame ?_ _ (Sub.le (by decide) hp)
          exact h2
        · exact h2
      refine State.setSource_frame ?_ _ _ (Sub.le (by decide) hp)
      exact h3
    · exact h
  · exact h

theorem State.irigLost_frame {P : Part → Prop} {s0 s : State} (h : Frame P s0 s) (a_k : ℕ) (hp : Sub 1208999607013136478186242 P) :
    Frame P s0 (State.irigLost s a_k) := by
  unfold State.irigLost
  extract_lets -merge -useContext -underBinder +onlyGivenNames x0
  have h0 : Frame P s0 x0 := by
    unfold x0
    refine State.channelLost_frame ?_ _ _ (Sub.le (by decide) hp)
    exact h
  refine State.setSource_frame ?_ _ _ (Sub.le (by decide) hp)
  refine Frame.ite (fun _ => ?_) (fun _ => ?_)
  · refine State.sourceGone_frame ?_ _ (Sub.le (by decide) hp)
    exact h0
  · exact h0

theorem execIrigFrame_frame {P : Part → Prop} {s0 s : State} (h : Frame P s0 s) (a_c : Fin 64) (a_b : BitVec 100) (a_t : Sys2Proof.TimePoint) (a_result : Sys2Proof.IrigEnd) (hp : Sub 1265670310650581451484002 P) :
    AnswersIn P s0 (execIrigFrame a_c a_b a_t a_result s) := by
  refine ⟨_, rfl, ?_⟩
  extract_lets -merge -useContext -underBinder +onlyGivenNames x0
  refine Frame.ite (fun _ => ?_) (fun _ => ?_)
  · exact h
  · extract_lets -merge -useContext -underBinder +onlyGivenNames x1
    extract_lets -merge -useContext -underBinder +onlyGivenNames x2
    extract_lets -merge -useContext -underBinder +onlyGivenNames x3
    have h3 : ∀ w3_0 w3_1, Frame P s0 w3_0 → Frame P s0 (x3 w3_0 w3_1) := by
      intro w3_0 w3_1 hw3
      unfold x3
      refine Frame.ite (fun _ => ?_) (fun _ => ?_)
      · refine State.rxPacket_frame ?_ _ _ _ (Sub.le (by decide) hp)
        exact hw3
      · exact hw3
    extract_lets -merge -useContext -underBinder +onlyGivenNames x4
    have h4 : ∀ w4_0 w4_1, Frame P s0 w4_0 → Frame P s0 (x4 w4_0 w4_1) := by
      intro w4_0 w4_1 hw4
      unfold x4
      extract_lets -merge -useContext -underBinder +onlyGivenNames x5
      have h5 : Frame P s0 x5 := by
        unfold x5
        refine State.qualFail_frame ?_ _ _ _ _ _ (Reg.chCntIrigBad_in _ (hp .regCh rfl)) (Sub.le (by decide) hp)
        refine State.raise_frame ?_ _ _ (Sub.le (by decide) hp)
        exact hw4
      refine State.setSource_frame ?_ _ _ (Sub.le (by decide) hp)
      refine h3 _ _ ?_
      exact h5
    split
    · refine h4 _ _ ?_
      exact h
    · refine h4 _ _ ?_
      exact h
    · extract_lets -merge -useContext -underBinder +onlyGivenNames x9
      extract_lets -merge -useContext -underBinder +onlyGivenNames x10
      extract_lets -merge -useContext -underBinder +onlyGivenNames x11
      have h11 : Frame P s0 x11 := by
        unfold x11
        refine h3 _ _ ?_
        exact h
      refine Frame.ite (fun _ => ?_) (fun _ => ?_)
      · refine Frame.ite (fun _ => ?_) (fun _ => ?_)
        · refine State.irigLost_frame ?_ _ (Sub.le (by decide) hp)
          exact h11
        · refine State.setSource_frame ?_ _ _ (Sub.le (by decide) hp)
          exact h11
      · extract_lets -merge -useContext -underBinder +onlyGivenNames x12
        have h12 : Frame P s0 x12 := by
          unfold x12
          refine State.setSource_frame ?_ _ _ (Sub.le (by decide) hp)
          exact h11
        refine Frame.ite (fun _ => ?_) (fun _ => ?_)
        · refine State.servoOffset_frame ?_ _ _ _ _ (Sub.le (by decide) hp)
          exact h12
        · exact h12

theorem execIrigSourceLost_frame {P : Part → Prop} {s0 s : State} (h : Frame P s0 s) (a_c : Fin 64) (hp : Sub 1208999607013136478186242 P) :
    AnswersIn P s0 (execIrigSourceLost a_c s) := by
  refine ⟨_, rfl, ?_⟩
  refine Frame.ite (fun _ => ?_) (fun _ => ?_)
  · refine State.irigLost_frame ?_ _ (Sub.le (by decide) hp)
    exact h
  · exact h

theorem State.chTxWrite_frame {P : Part → Prop} {s0 s : State} (h : Frame P s0 s) (a_c : ℕ) (a_w : Sys2Proof.Word) (hp : Sub 633826565782119649058078796098 P) :
    Frame P s0 (State.chTxWrite s a_c a_w) := by
  unfold State.chTxWrite
  extract_lets -merge -useContext -underBinder +onlyGivenNames x0
  extract_lets -merge -useContext -underBinder +onlyGivenNames x1
  have h1 : Frame P s0 x1 := by
    unfold x1
    refine State.tileWake_frame ?_ _ (Sub.le (by decide) hp)
    refine State.txDataWrite_frame ?_ _ _ (Sub.le (by decide) hp)
    exact h
  extract_lets -merge -useContext -underBinder +onlyGivenNames x2
  refine Frame.ite (fun _ => ?_) (fun _ => ?_)
  · exact h1
  · refine Frame.set_serial ?_ (hp .serial rfl) _
    exact h1

theorem State.setSer_frame {P : Part → Prop} {s0 s : State} (h : Frame P s0 s) (a_c : ℕ) (a_f : Sys2Proof.Machine.SerSt → Sys2Proof.Machine.SerSt) (hp : Sub 562949953421312 P) :
    Frame P s0 (State.setSer s a_c a_f) := by
  unfold State.setSer
  refine Frame.set_serial ?_ (hp .serial rfl) _
  exact h

theorem State.serStop_frame {P : Part → Prop} {s0 s : State} (h : Frame P s0 s) (a_c : ℕ) (hp : Sub 562949953421312 P) :
    Frame P s0 (State.serStop s a_c) := by
  unfold State.serStop
  refine State.setSer_frame ?_ _ _ (Sub.le (by decide) hp)
  exact h

theorem State.serSent_frame {P : Part → Prop} {s0 s : State} (h : Frame P s0 s) (a_c : ℕ) (a_b : List Sys2Proof.Byte) (hp : Sub 562949953421312 P) :
    Frame P s0 (State.serSent s a_c a_b) := by
  unfold State.serSent
  refine State.setSer_frame ?_ _ _ (Sub.le (by decide) hp)
  exact h

theorem State.serByte_frame {P : Part → Prop} {s0 s : State} (h : Frame P s0 s) (a_c : ℕ) (a_b : Sys2Proof.Byte) (hp : Sub 1265668004948309726144834 P) :
    Frame P s0 (State.serByte s a_c a_b) := by
  unfold State.serByte
  extract_lets -merge -useContext -underBinder +onlyGivenNames x0
  extract_lets -merge -useContext -underBinder +onlyGivenNames x1
  have h1 : Frame P s0 x1 := by
    unfold x1
    refine State.setSer_frame ?_ _ _ (Sub.le (by decide) hp)
    exact h
  refine Frame.ite (fun _ => ?_) (fun _ => ?_)
  · refine State.rxWord_frame ?_ _ _ _ (Sub.le (by decide) hp)
    exact h1
  · exact h1

theorem State.serBytes_frame {P : Part → Prop} {s0 s : State} (h : Frame P s0 s) (a_c : ℕ) (a_l : List Sys2Proof.Byte) (hp : Sub 1265668004948309726144834 P) :
    Frame P s0 (State.serBytes s a_c a_l) := by
  unfold State.serBytes
  refine Frame.foldl ?_ (fun y0 a0 h0 => ?_)
  · exact h
  · refine State.serByte_frame ?_ _ _ (Sub.le (by decide) hp)
    exact h0

theorem State.serBegin_frame {P : Part → Prop} {s0 s : State} (h : Frame P s0 s) (a_c : ℕ) (hp : Sub 1265668004948309726144834 P) :
    Frame P s0 (State.serBegin s a_c) := by
  unfold State.serBegin
  refine State.rxBegin_frame ?_ _ (Sub.le (by decide) hp)
  refine State.setSer_frame ?_ _ _ (Sub.le (by decide) hp)
  exact h

theorem State.serEnd_frame {P : Part → Prop} {s0 s : State} (h : Frame P s0 s) (a_c : ℕ) (a_status : ℕ) (hp : Sub 1265668004948309726144834 P) :
    Frame P s0 (State.serEnd s a_c a_status) := by
  unfold State.serEnd
  extract_lets -merge -useContext -underBinder +onlyGivenNames x0
  extract_lets -merge -useContext -underBinder +onlyGivenNames x1
  have h1 : Frame P s0 x1 := by
    unfold x1
    refine Frame.ite (fun _ => ?_) (fun _ => ?_)
    · exact h
    · refine State.rxWord_frame ?_ _ _ _ (Sub.le (by decide) hp)
      exact h
  extract_lets -merge -useContext -underBinder +onlyGivenNames x2
  have h2 : Frame P s0 x2 := by
    unfold x2
    refine State.setSer_frame ?_ _ _ (Sub.le (by decide) hp)
    exact h1
  refine Frame.ite (fun _ => ?_) (fun _ => ?_)
  · refine State.rxCommit_frame ?_ _ (Sub.le (by decide) hp)
    exact h2
  · refine State.rxFail_frame ?_ _ _ (Sub.le (by decide) hp)
    exact h2

theorem State.serTxEnd_frame {P : Part → Prop} {s0 s : State} (h : Frame P s0 s) (a_c : ℕ) (hp : Sub 1265668004385359772461378 P) :
    Frame P s0 (State.serTxEnd s a_c) := by
  unfold State.serTxEnd
  extract_lets -merge -useContext -underBinder +onlyGivenNames x0
  refine Frame.ite (fun _ => ?_) (fun _ => ?_)
  · refine State.txFinish_frame ?_ _ (Sub.le (by decide) hp)
    exact h
  · refine State.txUnderrun_frame ?_ _ (Sub.le (by decide) hp)
    exact h

theorem uartStatus_in {P : Part → Prop} (c : Nat) (f : UartFault) (h : P .regCh) : RegIn P (uartStatus c f).2 ∨ (uartStatus c f).1 = 0 := by
  cases f
  · exact Or.inr rfl
  · exact Or.inl (Reg.chCntParity_in _ h)
  · exact Or.inl (Reg.chCntFraming_in _ h)
  · exact Or.inl (Reg.chCntBreak_in _ h)
  · exact Or.inl (Reg.chCntGapErr_in _ h)

theorem execUartCharReceive_frame {P : Part → Prop} {s0 s : State} (h : Frame P s0 s) (c : Fin 64) (data : BitVec 9) (t : TimePoint)
    (fault : UartFault) (hp : Sub 1265670310791318939838818 P) : AnswersIn P s0 (execUartCharReceive c data t fault s) := by
  refine ⟨_, rfl, ?_⟩
  extract_lets -merge -useContext -underBinder +onlyGivenNames k cfg
  refine Frame.ite (fun _ => h) (fun _ => Frame.ite (fun _ => State.bump_frame h _ (Reg.chCntRxDe_in _ (hp .regCh rfl)) (Sub.le (by decide) hp))
    (fun _ => ?_))
  extract_lets -merge -useContext -underBinder +onlyGivenNames f d y0
  have h0 : Frame P s0 y0 := State.setSer_frame h _ _ (Sub.le (by decide) hp)
  extract_lets -merge -useContext -underBinder +onlyGivenNames y1 x1
  have hb : Frame P s0 y1 := State.serBegin_frame h0 k (Sub.le (by decide) hp)
  have h1 : Frame P s0 x1 :=
    Frame.ite (fun _ => h0) (fun _ => Frame.ite (fun _ => State.serBytes_frame hb _ _ (Sub.le (by decide) hp)) (fun _ => hb))
  extract_lets -merge -useContext -underBinder +onlyGivenNames x2 x3
  have h2 : Frame P s0 x2 := State.serByte_frame h1 _ _ (Sub.le (by decide) hp)
  have h3 : Frame P s0 x3 := Frame.ite (fun _ => State.serByte_frame h2 _ _ (Sub.le (by decide) hp)) (fun _ => h2)
  extract_lets -merge -useContext -underBinder +onlyGivenNames most n
  have hu := uartStatus_in k f (hp .regCh rfl)
  clear_value n most x3 f
  split
  next st cnt e =>
  rw [e] at hu
  split
  next st2 cnt2 e2 =>
  refine Frame.ite (fun _ => h3) (fun hz => ?_)
  have hk : RegIn P cnt2 := by
    split at e2
    · injection e2 with _ e2
      exact e2 ▸ Reg.chCntGapErr_in _ (hp .regCh rfl)
    · injection e2 with ea eb
      subst ea eb
      exact hu.resolve_right hz
  have hr : Frame P s0 (if st2 = 3 then x3.raise (0x80 + k) 11 else x3) :=
    Frame.ite (fun _ => State.raise_frame h3 _ _ (Sub.le (by decide) hp)) (fun _ => h3)
  exact State.qualFail_frame (State.serEnd_frame hr _ _ (Sub.le (by decide) hp)) _ _ _ _ _ hk (Sub.le (by decide) hp)

theorem execUartGapExpiry_frame {P : Part → Prop} {s0 s : State} (h : Frame P s0 s) (a_c : Fin 64) (hp : Sub 1265668004948309726144834 P) :
    AnswersIn P s0 (execUartGapExpiry a_c s) := by
  refine ⟨_, rfl, ?_⟩
  refine Frame.ite (fun _ => ?_) (fun _ => ?_)
  · refine State.serEnd_frame ?_ _ _ (Sub.le (by decide) hp)
    exact h
  · exact h

theorem execUartTxStart_frame {P : Part → Prop} {s0 s : State} (h : Frame P s0 s) (a_c : Fin 64) (hp : Sub 562949970198528 P) :
    AnswersIn P s0 (execUartTxStart a_c s) := by
  refine ⟨_, rfl, ?_⟩
  refine Frame.ite (fun _ => ?_) (fun _ => ?_)
  · refine State.setSer_frame ?_ _ _ (Sub.le (by decide) hp)
    refine State.txBegin_frame ?_ _ (Sub.le (by decide) hp)
    exact h
  · exact h

theorem execUartTxEnd_frame {P : Part → Prop} {s0 s : State} (h : Frame P s0 s) (a_c : Fin 64) (hp : Sub 1265668004948309725882690 P) :
    AnswersIn P s0 (execUartTxEnd a_c s) := by
  refine ⟨_, rfl, ?_⟩
  refine Frame.ite (fun _ => ?_) (fun _ => ?_)
  · extract_lets -merge -useContext -underBinder +onlyGivenNames x0
    have h0 : Frame P s0 x0 := by
      unfold x0
      refine State.serTxEnd_frame ?_ _ (Sub.le (by decide) hp)
      refine State.serSent_frame ?_ _ _ (Sub.le (by decide) hp)
      exact h
    refine State.raise_frame ?_ _ _ (Sub.le (by decide) hp)
    refine State.setSer_frame ?_ _ _ (Sub.le (by decide) hp)
    exact h0
  · exact h

theorem execSpiTransactionStart_frame {P : Part → Prop} {s0 s : State} (h : Frame P s0 s) (a_c : Fin 64) (hp : Sub 1265668004948309726144834 P) :
    AnswersIn P s0 (execSpiTransactionStart a_c s) := by
  refine ⟨_, rfl, ?_⟩
  refine Frame.ite (fun _ => ?_) (fun _ => ?_)
  · extract_lets -merge -useContext -underBinder +onlyGivenNames x0
    extract_lets -merge -useContext -underBinder +onlyGivenNames x1
    have h1 : Frame P s0 x1 := by
      unfold x1
      refine State.setSer_frame ?_ _ _ (Sub.le (by decide) hp)
      refine State.txBegin_frame ?_ _ (Sub.le (by decide) hp)
      exact h
    refine Frame.ite (fun _ => ?_) (fun _ => ?_)
    · exact h1
    · refine State.serBegin_frame ?_ _ (Sub.le (by decide) hp)
      exact h1
  · exact h

theorem execSpiTransactionEnd_frame {P : Part → Prop} {s0 s : State} (h : Frame P s0 s) (a_c : Fin 64) (a_rx : List Sys2Proof.Byte) (hp : Sub 1265668004948309726144834 P) :
    AnswersIn P s0 (execSpiTransactionEnd a_c a_rx s) := by
  refine ⟨_, rfl, ?_⟩
  extract_lets -merge -useContext -underBinder +onlyGivenNames x0
  refine Frame.ite (fun _ => ?_) (fun _ => ?_)
  · extract_lets -merge -useContext -underBinder +onlyGivenNames x1
    extract_lets -merge -useContext -underBinder +onlyGivenNames x2
    extract_lets -merge -useContext -underBinder +onlyGivenNames x3
    have h3 : Frame P s0 x3 := by
      unfold x3
      refine Frame.ite (fun _ => ?_) (fun _ => ?_)
      · exact h
      · refine State.serEnd_frame ?_ _ _ (Sub.le (by decide) hp)
        refine State.serBytes_frame ?_ _ _ (Sub.le (by decide) hp)
        exact h
    extract_lets -merge -useContext -underBinder +onlyGivenNames x4
    have h4 : Frame P s0 x4 := by
      unfold x4
      refine State.serTxEnd_frame ?_ _ (Sub.le (by decide) hp)
      refine State.serSent_frame ?_ _ _ (Sub.le (by decide) hp)
      exact h3
    refine State.raise_frame ?_ _ _ (Sub.le (by decide) hp)
    refine State.setSer_frame ?_ _ _ (Sub.le (by decide) hp)
    exact h4
  · exact h

theorem execSpiCsAssert_frame {P : Part → Prop} {s0 s : State} (h : Frame P s0 s) (a_c : Fin 64) (hp : Sub 1265668004948309726144834 P) :
    AnswersIn P s0 (execSpiCsAssert a_c s) := by
  refine ⟨_, rfl, ?_⟩
  refine Frame.ite (fun _ => ?_) (fun _ => ?_)
  · extract_lets -merge -useContext -underBinder +onlyGivenNames x0
    have h0 : Frame P s0 x0 := by
      unfold x0
      refine State.setSer_frame ?_ _ _ (Sub.le (by decide) hp)
      refine State.serBegin_frame ?_ _ (Sub.le (by decide) hp)
      exact h
    refine State.txBegin_frame ?_ _ (Sub.le (by decide) hp)
    exact h0
  · exact h

theorem execSpiCsRelease_frame {P : Part → Prop} {s0 s : State} (h : Frame P s0 s) (a_c : Fin 64) (a_rx : List Sys2Proof.Byte) (a_partial_ : Bool) (hp : Sub 1265670310791318939838818 P) :
    AnswersIn P s0 (execSpiCsRelease a_c a_rx a_partial_ s) := by
  refine ⟨_, rfl, ?_⟩
  extract_lets -merge -useContext -underBinder +onlyGivenNames x0
  refine Frame.ite (fun _ => ?_) (fun _ => ?_)
  · extract_lets -merge -useContext -underBinder +onlyGivenNames x1
    have h1 : Frame P s0 x1 := by
      unfold x1
      refine State.serBytes_frame ?_ _ _ (Sub.le (by decide) hp)
      exact h
    extract_lets -merge -useContext -underBinder +onlyGivenNames x2
    have h2 : Frame P s0 x2 := by
      unfold x2
      refine Frame.ite (fun _ => ?_) (fun _ => ?_)
      · refine State.qualFail_frame ?_ _ _ _ _ _ (Reg.chCntSpiPartial_in _ (hp .regCh rfl)) (Sub.le (by decide) hp)
        refine State.serEnd_frame ?_ _ _ (Sub.le (by decide) hp)
        exact h1
      · refine State.serEnd_frame ?_ _ _ (Sub.le (by decide) hp)
        exact h1
    extract_lets -merge -useContext -underBinder +onlyGivenNames x3
    extract_lets -merge -useContext -underBinder +onlyGivenNames x4
    extract_lets -merge -useContext -underBinder +onlyGivenNames x5
    extract_lets -merge -useContext -underBinder +onlyGivenNames x6
    have h6 : Frame P s0 x6 := by
      unfold x6
      refine State.serSent_frame ?_ _ _ (Sub.le (by decide) hp)
      exact h2
    extract_lets -merge -useContext -underBinder +onlyGivenNames x7
    extract_lets -merge -useContext -underBinder +onlyGivenNames x8
    extract_lets -merge -useContext -underBinder +onlyGivenNames x9
    extract_lets -merge -useContext -underBinder +onlyGivenNames x10
    have h10 : Frame P s0 x10 := by
      unfold x10
      refine Frame.ite (fun _ => ?_) (fun _ => ?_)
      · exact h6
      · refine Frame.ite (fun _ => ?_) (fun _ => ?_)
        · refine State.txUnderrun_frame ?_ _ (Sub.le (by decide) hp)
          exact h6
        · refine State.txFinish_frame ?_ _ (Sub.le (by decide) hp)
          refine State.bumpBy_frame ?_ _ _ (Reg.chCntTxDropped_in _ (hp .regCh rfl)) (Sub.le (by decide) hp)
          exact h6
    refine State.setSer_frame ?_ _ _ (Sub.le (by decide) hp)
    exact h10
  · exact h

theorem execI2cTransactionStart_frame {P : Part → Prop} {s0 s : State} (h : Frame P s0 s) (a_c : Fin 64) (hp : Sub 562949970198528 P) :
    AnswersIn P s0 (execI2cTransactionStart a_c s) := by
  refine ⟨_, rfl, ?_⟩
  refine Frame.ite (fun _ => ?_) (fun _ => ?_)
  · extract_lets -merge -useContext -underBinder +onlyGivenNames x0
    refine State.setSer_frame ?_ _ _ (Sub.le (by decide) hp)
    refine State.txBegin_frame ?_ _ (Sub.le (by decide) hp)
    exact h
  · exact h

theorem State.i2cClear_frame {P : Part → Prop} {s0 s : State} (h : Frame P s0 s) (a_c : ℕ) (hp : Sub 562949953421312 P) :
    Frame P s0 (State.i2cClear s a_c) := by
  unfold State.i2cClear
  refine State.setSer_frame ?_ _ _ (Sub.le (by decide) hp)
  exact h

theorem State.i2cEnd_frame {P : Part → Prop} {s0 s : State} (h : Frame P s0 s) (a_c : ℕ) (a_result : ℕ) (a_acked : ℕ) (a_read : List Sys2Proof.Byte) (hp : Sub 1265670310791318939838818 P) :
    Frame P s0 (State.i2cEnd s a_c a_result a_acked a_read) := by
  unfold State.i2cEnd
  extract_lets -merge -useContext -underBinder +onlyGivenNames x0
  refine Frame.ite (fun _ => ?_) (fun _ => ?_)
  · extract_lets -merge -useContext -underBinder +onlyGivenNames x1
    extract_lets -merge -useContext -underBinder +onlyGivenNames x2
    extract_lets -merge -useContext -underBinder +onlyGivenNames x3
    have h3 : Frame P s0 x3 := by
      unfold x3
      refine State.rxPacket_frame ?_ _ _ _ (Sub.le (by decide) hp)
      exact h
    extract_lets -merge -useContext -underBinder +onlyGivenNames x4
    have h4 : Frame P s0 x4 := by
      unfold x4
      refine State.serTxEnd_frame ?_ _ (Sub.le (by decide) hp)
      refine State.serSent_frame ?_ _ _ (Sub.le (by decide) hp)
      exact h3
    extract_lets -merge -useContext -underBinder +onlyGivenNames x5
    have h5 : Frame P s0 x5 := by
      unfold x5
      refine State.raise_frame ?_ _ _ (Sub.le (by decide) hp)
      exact h4
    extract_lets -merge -useContext -underBinder +onlyGivenNames x6
    have h6 : Frame P s0 x6 := by
      unfold x6
      refine Frame.ite (fun _ => ?_) (fun _ => ?_)
      · exact h5
      · refine State.raise_frame ?_ _ _ (Sub.le (by decide) hp)
        exact h5
    extract_lets -merge -useContext -underBinder +onlyGivenNames x7
    have h7 : Frame P s0 x7 := by
      unfold x7
      refine Frame.ite (fun _ => ?_) (fun _ => ?_)
      · refine State.qualFail_frame ?_ _ _ _ _ _ (Reg.chCntSmbTimeout_in _ (hp .regCh rfl)) (Sub.le (by decide) hp)
        refine State.raise_frame ?_ _ _ (Sub.le (by decide) hp)
        exact h6
      · refine Frame.ite (fun _ => ?_) (fun _ => ?_)
        · exact h6
        · refine State.bump_frame ?_ _ (Reg.chCntI2cFail_in _ (hp .regCh rfl)) (Sub.le (by decide) hp)
          exact h6
    extract_lets -merge -useContext -underBinder +onlyGivenNames x8
    extract_lets -merge -useContext -underBinder +onlyGivenNames x9
    have h9 : Frame P s0 x9 := by
      unfold x9
      refine State.setSer_frame ?_ _ _ (Sub.le (by decide) hp)
      exact h7
    refine Frame.ite (fun _ => ?_) (fun _ => ?_)
    · refine State.i2cClear_frame ?_ _ (Sub.le (by decide) hp)
      exact h9
    · exact h9
  · exact h

theorem State.i2cNotFree_frame {P : Part → Prop} {s0 s : State} (h : Frame P s0 s) (a_c : ℕ) (hp : Sub 1265670310791318939838818 P) :
    Frame P s0 (State.i2cNotFree s a_c) := by
  unfold State.i2cNotFree
  refine Frame.ite (fun _ => ?_) (fun _ => ?_)
  · extract_lets -merge -useContext -underBinder +onlyGivenNames x0
    refine State.i2cEnd_frame ?_ _ _ _ _ (Sub.le (by decide) hp)
    refine State.setSer_frame ?_ _ _ (Sub.le (by decide) hp)
    refine State.txBegin_frame ?_ _ (Sub.le (by decide) hp)
    exact h
  · exact h

theorem execI2cTransactionEnd_frame {P : Part → Prop} {s0 s : State} (h : Frame P s0 s) (a_c : Fin 64) (a_result : Fin 6) (a_acked : Sys2Proof.Byte) (a_read : List Sys2Proof.Byte) (hp : Sub 1265670310791318939838818 P) :
    AnswersIn P s0 (execI2cTransactionEnd a_c a_result a_acked a_read s) := by
  refine ⟨_, rfl, ?_⟩
  extract_lets -merge -useContext -underBinder +onlyGivenNames x0
  refine Frame.ite (fun _ => ?_) (fun _ => ?_)
  · refine State.i2cNotFree_frame ?_ _ (Sub.le (by decide) hp)
    exact h
  · refine Frame.ite (fun _ => ?_) (fun _ => ?_)
    · exact h
    · refine State.i2cEnd_frame ?_ _ _ _ _ (Sub.le (by decide) hp)
      exact h

theorem execSmbusTimeout_frame {P : Part → Prop} {s0 s : State} (h : Frame P s0 s) (a_c : Fin 64) (a_acked : Sys2Proof.Byte) (a_read : List Sys2Proof.Byte) (hp : Sub 1265670310791318939838818 P) :
    AnswersIn P s0 (execSmbusTimeout a_c a_acked a_read s) := by
  refine ⟨_, rfl, ?_⟩
  refine Frame.ite (fun _ => ?_) (fun _ => ?_)
  · refine State.i2cEnd_frame ?_ _ _ _ _ (Sub.le (by decide) hp)
    exact h
  · exact h

theorem State.i2cBusClear_frame {P : Part → Prop} {s0 s : State} (h : Frame P s0 s) (a_c : ℕ) (hp : Sub 562949953421312 P) :
    Frame P s0 (State.i2cBusClear s a_c) := by
  unfold State.i2cBusClear
  refine Frame.ite (fun _ => ?_) (fun _ => ?_)
  · exact h
  · refine Frame.ite (fun _ => ?_) (fun _ => ?_)
    · refine State.setSer_frame ?_ _ _ (Sub.le (by decide) hp)
      exact h
    · refine State.i2cClear_frame ?_ _ (Sub.le (by decide) hp)
      exact h

theorem execPpsOutStart_frame {P : Part → Prop} {s0 s : State} (h : Frame P s0 s) (a_c : Fin 64) (hp : Sub 562949953421312 P) :
    AnswersIn P s0 (execPpsOutStart a_c s) := by
  refine ⟨_, rfl, ?_⟩
  extract_lets -merge -useContext -underBinder +onlyGivenNames x0
  refine Frame.ite (fun _ => ?_) (fun _ => ?_)
  · refine State.setSer_frame ?_ _ _ (Sub.le (by decide) hp)
    exact h
  · exact h

theorem execPpsOutEnd_frame {P : Part → Prop} {s0 s : State} (h : Frame P s0 s) (a_c : Fin 64) (hp : Sub 562949953421312 P) :
    AnswersIn P s0 (execPpsOutEnd a_c s) := by
  refine ⟨_, rfl, ?_⟩
  refine Frame.ite (fun _ => ?_) (fun _ => ?_)
  · refine State.setSer_frame ?_ _ _ (Sub.le (by decide) hp)
    exact h
  · exact h

theorem State.setCan_frame {P : Part → Prop} {s0 s : State} (h : Frame P s0 s) (a_n : ℕ) (a_f : Sys2Proof.Machine.CanSt → Sys2Proof.Machine.CanSt) (hp : Sub 1125899906842624 P) :
    Frame P s0 (State.setCan s a_n a_f) := by
  unfold State.setCan
  refine Frame.set_cans ?_ (hp .cans rfl) _
  exact h

theorem State.canEnter_frame {P : Part → Prop} {s0 s : State} (h : Frame P s0 s) (a_n : ℕ) (a_st : ℕ) (hp : Sub 1227889073648302500817154 P) :
    Frame P s0 (State.canEnter s a_n a_st) := by
  unfold State.canEnter
  extract_lets -merge -useContext -underBinder +onlyGivenNames x0
  have h0 : Frame P s0 x0 := by
    unfold x0
    refine State.raise_frame ?_ _ _ (Sub.le (by decide) hp)
    refine State.setCan_frame ?_ _ _ (Sub.le (by decide) hp)
    exact h
  extract_lets -merge -useContext -underBinder +onlyGivenNames x1
  have h1 : Frame P s0 x1 := by
    unfold x1
    refine Frame.ite (fun _ => ?_) (fun _ => ?_)
    · refine State.bump_frame ?_ _ (Reg.canCntBusOff_in _ (hp .regCan rfl)) (Sub.le (by decide) hp)
      exact h0
    · exact h0
  extract_lets -merge -useContext -underBinder +onlyGivenNames x2
  refine Frame.ite (fun _ => ?_) (fun _ => ?_)
  · refine State.post_frame ?_ _ _ _ _ _ _ _ _ (Sub.le (by decide) hp)
    exact h1
  · exact h1

theorem State.canJudge_frame {P : Part → Prop} {s0 s : State} (h : Frame P s0 s) (a_n : ℕ) (hp : Sub 1227889073648302500817154 P) :
    Frame P s0 (State.canJudge s a_n) := by
  unfold State.canJudge
  extract_lets -merge -useContext -underBinder +onlyGivenNames x0
  refine Frame.ite (fun _ => ?_) (fun _ => ?_)
  · exact h
  · refine Frame.ite (fun _ => ?_) (fun _ => ?_)
    · extract_lets -merge -useContext -underBinder +onlyGivenNames x1
      have h1 : Frame P s0 x1 := by
        unfold x1
        refine State.canEnter_frame ?_ _ _ (Sub.le (by decide) hp)
        refine State.setCan_frame ?_ _ _ (Sub.le (by decide) hp)
        exact h
      refine Frame.ite (fun _ => ?_) (fun _ => ?_)
      · refine State.canEnter_frame ?_ _ _ (Sub.le (by decide) hp)
        exact h1
      · exact h1
    · refine Frame.ite (fun _ => ?_) (fun _ => ?_)
      · refine State.canEnter_frame ?_ _ _ (Sub.le (by decide) hp)
        exact h
      · refine Frame.ite (fun _ => ?_) (fun _ => ?_)
        · refine State.canEnter_frame ?_ _ _ (Sub.le (by decide) hp)
          exact h
        · exact h

theorem State.canStart_frame {P : Part → Prop} {s0 s : State} (h : Frame P s0 s) (a_n : ℕ) (hp : Sub 1227889073648302500817154 P) :
    Frame P s0 (State.canStart s a_n) := by
  unfold State.canStart
  refine Frame.ite (fun _ => ?_) (fun _ => ?_)
  · refine State.canEnter_frame ?_ _ _ (Sub.le (by decide) hp)
    exact h
  · exact h

theorem execCanBusIdle_frame {P : Part → Prop} {s0 s : State} (h : Frame P s0 s) (a_n : Fin 16) (hp : Sub 1227889073648302500817154 P) :
    AnswersIn P s0 (execCanBusIdle a_n s) := by
  refine ⟨_, rfl, ?_⟩
  extract_lets -merge -useContext -underBinder +onlyGivenNames x0
  refine Frame.ite (fun _ => ?_) (fun _ => ?_)
  · refine State.canEnter_frame ?_ _ _ (Sub.le (by decide) hp)
    exact h
  · refine Frame.ite (fun _ => ?_) (fun _ => ?_)
    · refine State.canEnter_frame ?_ _ _ (Sub.le (by decide) hp)
      exact h
    · exact h

theorem execCanProtocolException_frame {P : Part → Prop} {s0 s : State} (h : Frame P s0 s) (a_n : Fin 16) (hp : Sub 1227889073648302500817154 P) :
    AnswersIn P s0 (execCanProtocolException a_n s) := by
  refine ⟨_, rfl, ?_⟩
  refine Frame.ite (fun _ => ?_) (fun _ => ?_)
  · refine State.canEnter_frame ?_ _ _ (Sub.le (by decide) hp)
    refine State.setCan_frame ?_ _ _ (Sub.le (by decide) hp)
    exact h
  · exact h

theorem execCanRecoveryComplete_frame {P : Part → Prop} {s0 s : State} (h : Frame P s0 s) (a_n : Fin 16) (hp : Sub 1227889073648302500817154 P) :
    AnswersIn P s0 (execCanRecoveryComplete a_n s) := by
  refine ⟨_, rfl, ?_⟩
  refine Frame.ite (fun _ => ?_) (fun _ => ?_)
  · refine State.canEnter_frame ?_ _ _ (Sub.le (by decide) hp)
    refine State.setCan_frame ?_ _ _ (Sub.le (by decide) hp)
    exact h
  · exact h

theorem State.canRecover_frame {P : Part → Prop} {s0 s : State} (h : Frame P s0 s) (a_n : ℕ) (hp : Sub 1227889073648302500817154 P) :
    Frame P s0 (State.canRecover s a_n) := by
  unfold State.canRecover
  refine Frame.ite (fun _ => ?_) (fun _ => ?_)
  · refine State.canEnter_frame ?_ _ _ (Sub.le (by decide) hp)
    exact h
  · exact h

theorem execCanRecover_frame {P : Part → Prop} {s0 s : State} (h : Frame P s0 s) (a_n : Fin 16) (hp : Sub 1227889073648302500817154 P) :
    AnswersIn P s0 (execCanRecover a_n s) := by
  refine ⟨_, rfl, ?_⟩
  refine State.canRecover_frame ?_ _ (Sub.le (by decide) hp)
  exact h

theorem execCanInitEntry_frame {P : Part → Prop} {s0 s : State} (h : Frame P s0 s) (a_n : Fin 16) (hp : Sub 1265668005511259679303938 P) :
    AnswersIn P s0 (execCanInitEntry a_n s) := by
  refine ⟨_, rfl, ?_⟩
  extract_lets -merge -useContext -underBinder +onlyGivenNames x0
  extract_lets -merge -useContext -underBinder +onlyGivenNames x1
  refine Frame.ite (fun _ => ?_) (fun _ => ?_)
  · exact h
  · extract_lets -merge -useContext -underBinder +onlyGivenNames x2
    extract_lets -merge -useContext -underBinder +onlyGivenNames x3
    have h3 : Frame P s0 x3 := by
      unfold x3
      refine State.wr_frame ?_ _ _ (Reg.canTxpend_in _ (hp .regCan rfl)) (Sub.le (by decide) hp)
      refine State.wr_frame ?_ _ _ (Reg.canTxfail_in _ (hp .regCan rfl)) (Sub.le (by decide) hp)
      exact h
    extract_lets -merge -useContext -underBinder +onlyGivenNames y4
    extract_lets -merge -useContext -underBinder +onlyGivenNames x4
    have h4 : Frame P s0 x4 := by
      unfold x4
      refine State.setCan_frame ?_ _ _ (Sub.le (by decide) hp)
      refine State.fifoFlush_frame ?_ _ (Sub.le (by decide) hp)
      exact h3
    refine State.canEnter_frame ?_ _ _ (Sub.le (by decide) hp)
    refine Frame.ite (fun _ => ?_) (fun _ => ?_)
    · exact h4
    · refine State.raise_frame ?_ _ _ (Sub.le (by decide) hp)
      exact h4

theorem State.canStore_frame {P : Part → Prop} {s0 s : State} (h : Frame P s0 s) (a_n : ℕ) (a_f : Sys2Proof.CanFrame) (a_echo : Option ℕ) (a_filter : Option ℕ) (a_t : Sys2Proof.TimePoint) (hp : Sub 1265670310228368986417506 P) :
    Frame P s0 (State.canStore s a_n a_f a_echo a_filter a_t) := by
  unfold State.canStore
  extract_lets -merge -useContext -underBinder +onlyGivenNames x0
  refine Frame.ite (fun _ => ?_) (fun _ => ?_)
  · refine State.raise_frame ?_ _ _ (Sub.le (by decide) hp)
    refine State.qualFail_frame ?_ _ _ _ _ _ (Reg.canCntRxOverrun_in _ (hp .regCan rfl)) (Sub.le (by decide) hp)
    exact h
  · extract_lets -merge -useContext -underBinder +onlyGivenNames x1
    refine State.raise_frame ?_ _ _ (Sub.le (by decide) hp)
    refine State.rxPacket_frame ?_ _ _ _ (Sub.le (by decide) hp)
    exact h

theorem State.canOffer_frame {P : Part → Prop} {s0 s : State} (h : Frame P s0 s) (a_n : ℕ) (a_f : Sys2Proof.CanFrame) (a_t : Sys2Proof.TimePoint) (hp : Sub 1265670310228368986417506 P) :
    Frame P s0 (State.canOffer s a_n a_f a_t) := by
  unfold State.canOffer
  split
  · refine Frame.ite (fun _ => ?_) (fun _ => ?_)
    · refine State.bump_frame ?_ _ (Reg.canCntFiltered_in _ (hp .regCan rfl)) (Sub.le (by decide) hp)
      exact h
    · refine State.canStore_frame ?_ _ _ _ _ _ (Sub.le (by decide) hp)
      exact h
  · refine Frame.ite (fun _ => ?_) (fun _ => ?_)
    · refine State.canStore_frame ?_ _ _ _ _ _ (Sub.le (by decide) hp)
      exact h
    · refine State.bump_frame ?_ _ (Reg.canCntFiltered_in _ (hp .regCan rfl)) (Sub.le (by decide) hp)
      exact h

theorem State.canHeard_frame {P : Part → Prop} {s0 s : State} (h : Frame P s0 s) (a_n : ℕ) (hp : Sub 1208999607716823919962370 P) :
    Frame P s0 (State.canHeard s a_n) := by
  unfold State.canHeard
  extract_lets -merge -useContext -underBinder +onlyGivenNames x0
  extract_lets -merge -useContext -underBinder +onlyGivenNames x1
  have h1 : Frame P s0 x1 := by
    unfold x1
    refine State.setCan_frame ?_ _ _ (Sub.le (by decide) hp)
    exact h
  refine Frame.ite (fun _ => ?_) (fun _ => ?_)
  · refine State.post_frame ?_ _ _ _ _ _ _ _ _ (Sub.le (by decide) hp)
    refine State.raise_frame ?_ _ _ (Sub.le (by decide) hp)
    exact h1
  · exact h1

theorem State.canGood_frame {P : Part → Prop} {s0 s : State} (h : Frame P s0 s) (a_n : ℕ) (hp : Sub 36894614047325945856 P) :
    Frame P s0 (State.canGood s a_n) := by
  unfold State.canGood
  extract_lets -merge -useContext -underBinder +onlyGivenNames x0
  refine Frame.ite (fun _ => ?_) (fun _ => ?_)
  · exact h
  · refine Frame.ite (fun _ => ?_) (fun _ => ?_)
    · refine State.setCan_frame ?_ _ _ (Sub.le (by decide) hp)
      exact h
    · split
      · next y1_0 y1_1 e1 =>
          have g1 : Frame P s0 y1_1 := by
            refine Frame.of2 e1 ?_
            refine State.fresh_frame ?_  (Sub.le (by decide) hp)
            exact h
          refine State.setCan_frame ?_ _ _ (Sub.le (by decide) hp)
          exact g1

theorem State.canErr_frame {P : Part → Prop} {s0 s : State} (h : Frame P s0 s) (a_n : ℕ) (a_e : Sys2Proof.CanErr) (a_dataPhase : Bool) (hp : Sub 1227891378365411807668514 P) :
    Frame P s0 (State.canErr s a_n a_e a_dataPhase) := by
  unfold State.canErr
  extract_lets -merge -useContext -underBinder +onlyGivenNames x0
  refine State.raise_frame ?_ _ _ (Sub.le (by decide) hp)
  refine State.qualFail_frame ?_ _ _ _ _ _ (canErrCnt_in _ _ (Sub.le (by decide) hp)) (Sub.le (by decide) hp)
  refine State.wr_frame ?_ _ _ (Reg.canLastErr_in _ (hp .regCan rfl)) (Sub.le (by decide) hp)
  exact h

theorem State.canRxError_frame {P : Part → Prop} {s0 s : State} (h : Frame P s0 s) (a_n : ℕ) (a_e : Sys2Proof.CanErr) (a_dataPhase : Bool) (a_eight : Bool) (hp : Sub 1227891379491311714511138 P) :
    Frame P s0 (State.canRxError s a_n a_e a_dataPhase a_eight) := by
  unfold State.canRxError
  extract_lets -merge -useContext -underBinder +onlyGivenNames x0
  have h0 : Frame P s0 x0 := by
    unfold x0
    refine State.canErr_frame ?_ _ _ _ (Sub.le (by decide) hp)
    exact h
  refine Frame.ite (fun _ => ?_) (fun _ => ?_)
  · exact h0
  · refine State.canJudge_frame ?_ _ (Sub.le (by decide) hp)
    refine State.setCan_frame ?_ _ _ (Sub.le (by decide) hp)
    exact h0

theorem execCanRxError_frame {P : Part → Prop} {s0 s : State} (h : Frame P s0 s) (a_n : Fin 16) (a_e : Sys2Proof.CanErr) (a_dataPhase : Bool) (a_eight : Bool) (hp : Sub 1227891379491311714511138 P) :
    AnswersIn P s0 (execCanRxError a_n a_e a_dataPhase a_eight s) := by
  refine ⟨_, rfl, ?_⟩
  refine Frame.ite (fun _ => ?_) (fun _ => ?_)
  · refine State.canRxError_frame ?_ _ _ _ _ (Sub.le (by decide) hp)
    exact h
  · exact h

theorem execCanFrameReceived_frame {P : Part → Prop} {s0 s : State} (h : Frame P s0 s) (a_n : Fin 16) (a_f : Sys2Proof.CanFrame) (a_t : Sys2Proof.TimePoint) (hp : Sub 1265707204842416312363362 P) :
    AnswersIn P s0 (execCanFrameReceived a_n a_f a_t s) := by
  refine ⟨_, rfl, ?_⟩
  refine Frame.ite (fun _ => ?_) (fun _ => ?_)
  · exact h
  · refine Frame.ite (fun _ => ?_) (fun _ => ?_)
    · refine State.canRxError_frame ?_ _ _ _ _ (Sub.le (by decide) hp)
      exact h
    · refine State.canOffer_frame ?_ _ _ _ (Sub.le (by decide) hp)
      refine State.canJudge_frame ?_ _ (Sub.le (by decide) hp)
      refine State.canGood_frame ?_ _ (Sub.le (by decide) hp)
      refine State.canHeard_frame ?_ _ (Sub.le (by decide) hp)
      refine State.bump_frame ?_ _ (Reg.canCntRxOk_in _ (hp .regCan rfl)) (Sub.le (by decide) hp)
      exact h

theorem execCanArbitrationStart_frame {P : Part → Prop} {s0 s : State} (h : Frame P s0 s) (a_n : Fin 16) (a_sof : Sys2Proof.TimePoint) (hp : Sub 1125899906842624 P) :
    AnswersIn P s0 (execCanArbitrationStart a_n a_sof s) := by
  refine ⟨_, rfl, ?_⟩
  refine Frame.ite (fun _ => ?_) (fun _ => ?_)
  · split
    · refine State.setCan_frame ?_ _ _ (Sub.le (by decide) hp)
      exact h
    · exact h
  · exact h

theorem execCanArbitrationLost_frame {P : Part → Prop} {s0 s : State} (h : Frame P s0 s) (a_n : Fin 16) (hp : Sub 18889467057378487697408 P) :
    AnswersIn P s0 (execCanArbitrationLost a_n s) := by
  refine ⟨_, rfl, ?_⟩
  refine Frame.ite (fun _ => ?_) (fun _ => ?_)
  · refine State.bump_frame ?_ _ (Reg.canCntArbLost_in _ (hp .regCan rfl)) (Sub.le (by decide) hp)
    refine State.setCan_frame ?_ _ _ (Sub.le (by decide) hp)
    exact h
  · exact h

theorem State.canTxEnd_frame {P : Part → Prop} {s0 s : State} (h : Frame P s0 s) (a_n : ℕ) (a_m : ℕ) (a_ok : Bool) (hp : Sub 18963254033673342885890 P) :
    Frame P s0 (State.canTxEnd s a_n a_m a_ok) := by
  unfold State.canTxEnd
  extract_lets -merge -useContext -underBinder +onlyGivenNames x0
  have h0 : Frame P s0 x0 := by
    unfold x0
    refine State.setCan_frame ?_ _ _ (Sub.le (by decide) hp)
    exact h
  refine Frame.ite (fun _ => ?_) (fun _ => ?_)
  · extract_lets -merge -useContext -underBinder +onlyGivenNames x1
    extract_lets -merge -useContext -underBinder +onlyGivenNames x2
    have h2 : Frame P s0 x2 := by
      unfold x2
      refine State.wr_frame ?_ _ _ (Reg.canTxpend_in _ (hp .regCan rfl)) (Sub.le (by decide) hp)
      exact h0
    refine Frame.ite (fun _ => ?_) (fun _ => ?_)
    · refine State.wr_frame ?_ _ _ (Reg.canTxdone_in _ (hp .regCan rfl)) (Sub.le (by decide) hp)
      exact h2
    · refine State.setCan_frame ?_ _ _ (Sub.le (by decide) hp)
      refine State.wr_frame ?_ _ _ (Reg.canTxfail_in _ (hp .regCan rfl)) (Sub.le (by decide) hp)
      exact h2
  · refine State.setCan_frame ?_ _ _ (Sub.le (by decide) hp)
    refine State.txFinish_frame ?_ _ (Sub.le (by decide) hp)
    exact h0

theorem execCanTxSuccess_frame {P : Part → Prop} {s0 s : State} (h : Frame P s0 s) (a_n : Fin 16) (a_tdcv : BitVec 7) (hp : Sub 1265670311354268893260130 P) :
    AnswersIn P s0 (execCanTxSuccess a_n a_tdcv s) := by
  refine ⟨_, rfl, ?_⟩
  extract_lets -merge -useContext -underBinder +onlyGivenNames x0
  split
  · exact h
  · extract_lets -merge -useContext -underBinder +onlyGivenNames x3
    extract_lets -merge -useContext -underBinder +onlyGivenNames x4
    refine Frame.ite (fun _ => ?_) (fun _ => ?_)
    · exact h
    · extract_lets -merge -useContext -underBinder +onlyGivenNames x5
      have h5 : Frame P s0 x5 := by
        unfold x5
        refine Frame.ite (fun _ => ?_) (fun _ => ?_)
        · refine State.wr_frame ?_ _ _ (Reg.canTdcStatus_in _ (hp .regCan rfl)) (Sub.le (by decide) hp)
          exact h
        · exact h
      extract_lets -merge -useContext -underBinder +onlyGivenNames x6
      have h6 : Frame P s0 x6 := by
        unfold x6
        refine State.bump_frame ?_ _ (Reg.canCntTxOk_in _ (hp .regCan rfl)) (Sub.le (by decide) hp)
        refine State.canTxEnd_frame ?_ _ _ _ (Sub.le (by decide) hp)
        exact h5
      extract_lets -merge -useContext -underBinder +onlyGivenNames x7
      have h7 : Frame P s0 x7 := by
        unfold x7
        refine State.canHeard_frame ?_ _ (Sub.le (by decide) hp)
        refine State.raise_frame ?_ _ _ (Sub.le (by decide) hp)
        exact h6
      extract_lets -merge -useContext -underBinder +onlyGivenNames x8
      have h8 : Frame P s0 x8 := by
        unfold x8
        refine State.canJudge_frame ?_ _ (Sub.le (by decide) hp)
        refine State.setCan_frame ?_ _ _ (Sub.le (by decide) hp)
        exact h7
      extract_lets -merge -useContext -underBinder +onlyGivenNames x9
      have h9 : Frame P s0 x9 := by
        unfold x9
        refine Frame.ite (fun _ => ?_) (fun _ => ?_)
        · refine State.canStore_frame ?_ _ _ _ _ _ (Sub.le (by decide) hp)
          exact h8
        · exact h8
      refine Frame.ite (fun _ => ?_) (fun _ => ?_)
      · exact h9
      · refine State.canOffer_frame ?_ _ _ _ (Sub.le (by decide) hp)
        exact h9

theorem execCanTxError_frame {P : Part → Prop} {s0 s : State} (h : Frame P s0 s) (a_n : Fin 16) (a_e : Sys2Proof.CanErr) (a_dataPhase : Bool) (a_held : Bool) (hp : Sub 1227891379491311731288354 P) :
    AnswersIn P s0 (execCanTxError a_n a_e a_dataPhase a_held s) := by
  refine ⟨_, rfl, ?_⟩
  extract_lets -merge -useContext -underBinder +onlyGivenNames x0
  split
  · exact h
  · extract_lets -merge -useContext -underBinder +onlyGivenNames x3
    refine Frame.ite (fun _ => ?_) (fun _ => ?_)
    · exact h
    · extract_lets -merge -useContext -underBinder +onlyGivenNames x4
      have h4 : Frame P s0 x4 := by
        unfold x4
        refine State.canErr_frame ?_ _ _ _ (Sub.le (by decide) hp)
        exact h
      extract_lets -merge -useContext -underBinder +onlyGivenNames x5
      have h5 : Frame P s0 x5 := by
        unfold x5
        refine State.setCan_frame ?_ _ _ (Sub.le (by decide) hp)
        exact h4
      extract_lets -merge -useContext -underBinder +onlyGivenNames x6
      have h6 : Frame P s0 x6 := by
        unfold x6
        refine Frame.ite (fun _ => ?_) (fun _ => ?_)
        · refine State.post_frame ?_ _ _ _ _ _ _ _ _ (Sub.le (by decide) hp)
          refine State.raise_frame ?_ _ _ (Sub.le (by decide) hp)
          refine State.setCan_frame ?_ _ _ (Sub.le (by decide) hp)
          exact h5
        · exact h5
      extract_lets -merge -useContext -underBinder +onlyGivenNames x7
      extract_lets -merge -useContext -underBinder +onlyGivenNames x8
      extract_lets -merge -useContext -underBinder +onlyGivenNames x9
      have h9 : Frame P s0 x9 := by
        unfold x9
        refine Frame.ite (fun _ => ?_) (fun _ => ?_)
        · refine State.post_frame ?_ _ _ _ _ _ _ _ _ (Sub.le (by decide) hp)
          refine State.raise_frame ?_ _ _ (Sub.le (by decide) hp)
          refine State.canTxEnd_frame ?_ _ _ _ (Sub.le (by decide) hp)
          exact h6
        · exact h6
      refine State.canJudge_frame ?_ _ (Sub.le (by decide) hp)
      exact h9

theorem State.canTxreq_frame {P : Part → Prop} {s0 s : State} (h : Frame P s0 s) (a_n : ℕ) (a_v : Sys2Proof.Word) (hp : Sub 18889467057378487697408 P) :
    Frame P s0 (State.canTxreq s a_n a_v) := by
  unfold State.canTxreq
  refine Frame.foldl ?_ (fun y0 a0 h0 => ?_)
  · exact h
  · refine Frame.ite (fun _ => ?_) (fun _ => ?_)
    · exact h0
    · refine Frame.ite (fun _ => ?_) (fun _ => ?_)
      · refine State.bump_frame ?_ _ (Reg.canCntMbRefused_in _ (hp .regCan rfl)) (Sub.le (by decide) hp)
        exact h0
      · refine State.setCan_frame ?_ _ _ (Sub.le (by decide) hp)
        refine State.wr_frame ?_ _ _ (Reg.canTxpend_in _ (hp .regCan rfl)) (Sub.le (by decide) hp)
        exact h0

theorem execTxreq_frame {P : Part → Prop} {s0 s : State} (h : Frame P s0 s) (a_n : Fin 16) (a_v : Sys2Proof.Word) (hp : Sub 18889467057378487697408 P) :
    AnswersIn P s0 (execTxreq a_n a_v s) := by
  refine ⟨_, rfl, ?_⟩
  refine State.canTxreq_frame ?_ _ _ (Sub.le (by decide) hp)
  exact h

theorem State.cancelLate_frame {P : Part → Prop} {s0 s : State} (h : Frame P s0 s) (a_n : ℕ) (a_x : Sys2Proof.Machine.CanTx) (hp : Sub 1208999606590924013119746 P) :
    Frame P s0 (State.cancelLate s a_n a_x) := by
  unfold State.cancelLate
  refine State.post_frame ?_ _ _ _ _ _ _ _ _ (Sub.le (by decide) hp)
  refine State.raise_frame ?_ _ _ (Sub.le (by decide) hp)
  exact h

theorem State.canCancelled_frame {P : Part → Prop} {s0 s : State} (h : Frame P s0 s) (a_n : ℕ) (a_m : ℕ) (hp : Sub 18963254033673326108674 P) :
    Frame P s0 (State.canCancelled s a_n a_m) := by
  unfold State.canCancelled
  extract_lets -merge -useContext -underBinder +onlyGivenNames x0
  extract_lets -merge -useContext -underBinder +onlyGivenNames x1
  have h1 : Frame P s0 x1 := by
    unfold x1
    refine State.wr_frame ?_ _ _ (Reg.canTxpend_in _ (hp .regCan rfl)) (Sub.le (by decide) hp)
    exact h
  extract_lets -merge -useContext -underBinder +onlyGivenNames x2
  have h2 : Frame P s0 x2 := by
    unfold x2
    refine State.setCan_frame ?_ _ _ (Sub.le (by decide) hp)
    refine State.wr_frame ?_ _ _ (Reg.canTxfail_in _ (hp .regCan rfl)) (Sub.le (by decide) hp)
    exact h1
  refine State.raise_frame ?_ _ _ (Sub.le (by decide) hp)
  exact h2

theorem State.canTxcancel_frame {P : Part → Prop} {s0 s : State} (h : Frame P s0 s) (a_n : ℕ) (a_v : Sys2Proof.Word) (hp : Sub 1227889073648302500817154 P) :
    Frame P s0 (State.canTxcancel s a_n a_v) := by
  unfold State.canTxcancel
  refine Frame.foldl ?_ (fun y0 a0 h0 => ?_)
  · exact h
  · refine Frame.ite (fun _ => ?_) (fun _ => ?_)
    · exact h0
    · split
      · refine Frame.ite (fun _ => ?_) (fun _ => ?_)
        · refine State.cancelLate_frame ?_ _ _ (Sub.le (by decide) hp)
          exact h0
        · refine State.canCancelled_frame ?_ _ _ (Sub.le (by decide) hp)
          exact h0
      · refine State.canCancelled_frame ?_ _ _ (Sub.le (by decide) hp)
        exact h0

theorem execTxcancel_frame {P : Part → Prop} {s0 s : State} (h : Frame P s0 s) (a_n : Fin 16) (a_v : Sys2Proof.Word) (hp : Sub 1227889073648302500817154 P) :
    AnswersIn P s0 (execTxcancel a_n a_v s) := by
  refine ⟨_, rfl, ?_⟩
  refine State.canTxcancel_frame ?_ _ _ (Sub.le (by decide) hp)
  exact h

theorem State.canTxresClr_frame {P : Part → Prop} {s0 s : State} (h : Frame P s0 s) (a_n : ℕ) (a_v : Sys2Proof.Word) (hp : Sub 18889465931478580854784 P) :
    Frame P s0 (State.canTxresClr s a_n a_v) := by
  unfold State.canTxresClr
  refine State.wr_frame ?_ _ _ (Reg.canTxfail_in _ (hp .regCan rfl)) (Sub.le (by decide) hp)
  refine State.wr_frame ?_ _ _ (Reg.canTxdone_in _ (hp .regCan rfl)) (Sub.le (by decide) hp)
  exact h

theorem execTxresClr_frame {P : Part → Prop} {s0 s : State} (h : Frame P s0 s) (a_n : Fin 16) (a_v : Sys2Proof.Word) (hp : Sub 18889465931478580854784 P) :
    AnswersIn P s0 (execTxresClr a_n a_v s) := by
  refine ⟨_, rfl, ?_⟩
  refine State.canTxresClr_frame ?_ _ _ (Sub.le (by decide) hp)
  exact h

theorem State.canTxWrite_frame {P : Part → Prop} {s0 s : State} (h : Frame P s0 s) (a_n : ℕ) (a_w : Sys2Proof.Word) (hp : Sub 1265670310228368986417506 P) :
    Frame P s0 (State.canTxWrite s a_n a_w) := by
  unfold State.canTxWrite
  extract_lets -merge -useContext -underBinder +onlyGivenNames x0
  split
  · next y1_0 y1_1 e1 =>
      have g1 : Frame P s0 y1_1 := by
        refine Frame.of2 e1 ?_
        refine State.txDataWrite_frame ?_ _ _ (Sub.le (by decide) hp)
        exact h
      refine Frame.ite (fun _ => ?_) (fun _ => ?_)
      · exact g1
      · extract_lets -merge -useContext -underBinder +onlyGivenNames x2
        extract_lets -merge -useContext -underBinder +onlyGivenNames x3
        refine Frame.ite (fun _ => ?_) (fun _ => ?_)
        · exact g1
        · extract_lets -merge -useContext -underBinder +onlyGivenNames x4
          refine State.raise_frame ?_ _ _ (Sub.le (by decide) hp)
          refine State.qualFail_frame ?_ _ _ _ _ _ (Reg.canCntTxRewind_in _ (hp .regCan rfl)) (Sub.le (by decide) hp)
          refine State.setFifo_frame ?_ _ _ (Sub.le (by decide) hp)
          exact g1

theorem execCanTxDataWrite_frame {P : Part → Prop} {s0 s : State} (h : Frame P s0 s) (a_n : Fin 16) (a_w : Sys2Proof.Word) (hp : Sub 1265670310228368986417506 P) :
    AnswersIn P s0 (execCanTxDataWrite a_n a_w s) := by
  refine ⟨_, rfl, ?_⟩
  refine State.canTxWrite_frame ?_ _ _ (Sub.le (by decide) hp)
  exact h

theorem State.canTxFlush_frame {P : Part → Prop} {s0 s : State} (h : Frame P s0 s) (a_n : ℕ) (hp : Sub 1208999607716823936739586 P) :
    Frame P s0 (State.canTxFlush s a_n) := by
  unfold State.canTxFlush
  extract_lets -merge -useContext -underBinder +onlyGivenNames x0
  extract_lets -merge -useContext -underBinder +onlyGivenNames x1
  extract_lets -merge -useContext -underBinder +onlyGivenNames x2
  extract_lets -merge -useContext -underBinder +onlyGivenNames x3
  have h3 : Frame P s0 x3 := by
    unfold x3
    refine State.setFifo_frame ?_ _ _ (Sub.le (by decide) hp)
    exact h
  extract_lets -merge -useContext -underBinder +onlyGivenNames x4
  have h4 : Frame P s0 x4 := by
    unfold x4
    refine Frame.ite (fun _ => ?_) (fun _ => ?_)
    · refine State.raise_frame ?_ _ _ (Sub.le (by decide) hp)
      exact h3
    · exact h3
  extract_lets -merge -useContext -underBinder +onlyGivenNames x5
  have h5 : Frame P s0 x5 := by
    unfold x5
    refine Frame.ite (fun _ => ?_) (fun _ => ?_)
    · refine State.setCan_frame ?_ _ _ (Sub.le (by decide) hp)
      refine State.raise_frame ?_ _ _ (Sub.le (by decide) hp)
      exact h4
    · exact h4
  split
  · refine Frame.ite (fun _ => ?_) (fun _ => ?_)
    · refine State.cancelLate_frame ?_ _ _ (Sub.le (by decide) hp)
      exact h5
    · exact h5
  · exact h5

theorem execCanTxFlush_frame {P : Part → Prop} {s0 s : State} (h : Frame P s0 s) (a_n : Fin 16) (hp : Sub 1208999607716823936739586 P) :
    AnswersIn P s0 (execCanTxFlush a_n s) := by
  refine ⟨_, rfl, ?_⟩
  refine State.canTxFlush_frame ?_ _ (Sub.le (by decide) hp)
  exact h

theorem State.canMbWrite_frame {P : Part → Prop} {s0 s : State} (h : Frame P s0 s) (a_n : ℕ) (a_m : ℕ) (a_i : ℕ) (a_v : Sys2Proof.Word) (hp : Sub 18889465931478580854784 P) :
    Frame P s0 (State.canMbWrite s a_n a_m a_i a_v) := by
  unfold State.canMbWrite
  refine Frame.ite (fun _ => ?_) (fun _ => ?_)
  · refine State.bump_frame ?_ _ (Reg.canCntMbRefused_in _ (hp .regCan rfl)) (Sub.le (by decide) hp)
    exact h
  · refine State.wr_frame ?_ _ _ (Reg.canMb_in _ _ (hp .regCan rfl)) (Sub.le (by decide) hp)
    exact h

theorem execCanMbWrite_frame {P : Part → Prop} {s0 s : State} (h : Frame P s0 s) (a_n : Fin 16) (a_m : Fin 32) (a_i : Fin 18) (a_v : Sys2Proof.Word) (hp : Sub 18889465931478580854784 P) :
    AnswersIn P s0 (execCanMbWrite a_n a_m a_i a_v s) := by
  refine ⟨_, rfl, ?_⟩
  refine State.canMbWrite_frame ?_ _ _ _ _ (Sub.le (by decide) hp)
  exact h

end Sys2Proof.Machine
end

