-- ==== Sys2Proof/Laws/FrameChip.lean ====
section
/-! SUPPORT. What each operation and each command may change: the fabric, DMA, the host, clocks, security, boot, rules and fired drill entries. -/

namespace Sys2Proof.Machine

theorem State.setXbr_frame {P : Part → Prop} {s0 s : State} (h : Frame P s0 s) (a_f : Sys2Proof.Machine.XbrSt → Sys2Proof.Machine.XbrSt) (hp : Sub 2251799813685248 P) :
    Frame P s0 (State.setXbr s a_f) := by
  unfold State.setXbr
  refine Frame.set_xbr ?_ (hp .xbr rfl) _
  exact h

theorem State.setTag_frame {P : Part → Prop} {s0 s : State} (h : Frame P s0 s) (a_t : ℕ) (a_x : Sys2Proof.Machine.TagSt) (hp : Sub 2251799813685248 P) :
    Frame P s0 (State.setTag s a_t a_x) := by
  unfold State.setTag
  refine State.setXbr_frame ?_ _ (Sub.le (by decide) hp)
  exact h

theorem State.streamOpen_frame {P : Part → Prop} {s0 s : State} (h : Frame P s0 s) (a_dst : ℕ) (hp : Sub 2251799813685248 P) :
    Frame P s0 (State.streamOpen s a_dst) := by
  unfold State.streamOpen
  refine State.setXbr_frame ?_ _ (Sub.le (by decide) hp)
  exact h

theorem State.logPosted_frame {P : Part → Prop} {s0 s : State} (h : Frame P s0 s) (a_e : Sys2Proof.Machine.PostLog) (hp : Sub 2251799813685248 P) :
    Frame P s0 (State.logPosted s a_e) := by
  unfold State.logPosted
  refine State.setXbr_frame ?_ _ (Sub.le (by decide) hp)
  exact h

theorem State.noteSent_frame {P : Part → Prop} {s0 s : State} (h : Frame P s0 s) (a_tag : ℕ) (a_p : Option Sys2Proof.Machine.StreamPos) (hp : Sub 2251799813685248 P) :
    Frame P s0 (State.noteSent s a_tag a_p) := by
  unfold State.noteSent
  extract_lets -merge -useContext -underBinder +onlyGivenNames x0
  extract_lets -merge -useContext -underBinder +onlyGivenNames x1
  refine Frame.ite (fun _ => ?_) (fun _ => ?_)
  · refine State.setTag_frame ?_ _ _ (Sub.le (by decide) hp)
    exact h
  · exact h

theorem State.streamSend_frame {P : Part → Prop} {s0 s : State} (h : Frame P s0 s) (a_f : Sys2Proof.Machine.XFrame) (a_x : Sys2Proof.Machine.Stream) (hp : Sub 316916286353038390294665701634 P) :
    Frame P s0 (State.streamSend s a_f a_x) := by
  unfold State.streamSend
  extract_lets -merge -useContext -underBinder +onlyGivenNames x0
  extract_lets -merge -useContext -underBinder +onlyGivenNames x1
  have h1 : Frame P s0 x1 := by
    unfold x1
    refine State.setXbr_frame ?_ _ (Sub.le (by decide) hp)
    exact h
  extract_lets -merge -useContext -underBinder +onlyGivenNames x2
  have h2 : Frame P s0 x2 := by
    unfold x2
    refine Frame.ite (fun _ => ?_) (fun _ => ?_)
    · refine State.logPosted_frame ?_ _ (Sub.le (by decide) hp)
      exact h1
    · exact h1
  extract_lets -merge -useContext -underBinder +onlyGivenNames x4 x3
  have h3 : Frame P s0 x3 := by
    unfold x3
    refine Frame.ite (fun _ => ?_) (fun _ => ?_)
    · refine State.noteSent_frame ?_ _ _ (Sub.le (by decide) hp)
      exact h2
    · refine Frame.ite (fun _ => ?_) (fun _ => ?_)
      · refine State.setXbr_frame ?_ _ (Sub.le (by decide) hp)
        exact h2
      · exact h2
  refine State.originate_frame ?_ _ _ _ _ _ _ (Sub.le (by decide) hp)
  exact h3

theorem State.sendX_frame {P : Part → Prop} {s0 s : State} (h : Frame P s0 s) (a_f : Sys2Proof.Machine.XFrame) (hp : Sub 5387518687265955996281478523138 P) :
    Frame P s0 (State.sendX s a_f) := by
  unfold State.sendX
  split
  · refine State.streamSend_frame ?_ _ _ (Sub.le (by decide) hp)
    exact h
  · refine Frame.ite (fun _ => ?_) (fun _ => ?_)
    · extract_lets -merge -useContext -underBinder +onlyGivenNames x2
      have h2 : Frame P s0 x2 := by
        unfold x2
        refine State.streamOpen_frame ?_ _ (Sub.le (by decide) hp)
        exact h
      split
      · refine State.streamSend_frame ?_ _ _ (Sub.le (by decide) hp)
        exact h2
      · exact h2
    · refine State.bump_frame ?_ _ (Reg.xbrCntStreamStall_in (hp .regXbr rfl)) (Sub.le (by decide) hp)
      refine State.setXbr_frame ?_ _ (Sub.le (by decide) hp)
      exact h

theorem State.sendReport_frame {P : Part → Prop} {s0 s : State} (h : Frame P s0 s) (a_dst : ℕ) (a_flags : ℕ) (a_w4 : Sys2Proof.Word) (a_w5 : Sys2Proof.Word) (a_w6 : Sys2Proof.Word) (a_w7 : Sys2Proof.Word) (hp : Sub 316916286353036138494852016386 P) :
    Frame P s0 (State.sendReport s a_dst a_flags a_w4 a_w5 a_w6 a_w7) := by
  unfold State.sendReport
  split
  · next y0_0 y0_1 e0 =>
      have g0 : Frame P s0 y0_1 := by
        refine Frame.of2 e0 ?_
        refine State.mkRec_frame ?_ _ _ _ _ _ _ _ _ _ _ _ (Sub.le (by decide) hp)
        exact h
      refine Frame.ite (fun _ => ?_) (fun _ => ?_)
      · refine State.route_frame ?_ _ (Sub.le (by decide) hp)
        refine State.raise_frame ?_ _ _ (Sub.le (by decide) hp)
        exact g0
      · refine State.originate_frame ?_ _ _ _ _ _ _ (Sub.le (by decide) hp)
        exact g0

theorem State.postedFailed_frame {P : Part → Prop} {s0 s : State} (h : Frame P s0 s) (a_p : Sys2Proof.Machine.PostReq) (a_status : ℕ) (hp : Sub 5387518687265953744481664837890 P) :
    Frame P s0 (State.postedFailed s a_p a_status) := by
  unfold State.postedFailed
  extract_lets -merge -useContext -underBinder +onlyGivenNames x0
  refine State.sendReport_frame ?_ _ _ _ _ _ _ (Sub.le (by decide) hp)
  refine State.bump_frame ?_ _ (Reg.xbrCntPwError_in (hp .regXbr rfl)) (Sub.le (by decide) hp)
  exact h

theorem State.strand_frame {P : Part → Prop} {s0 s : State} (h : Frame P s0 s) (a_e : Sys2Proof.Machine.CacheEnt) (a_cause : ℕ) (hp : Sub 5070603609912526448710639626498 P) :
    Frame P s0 (State.strand s a_e a_cause) := by
  unfold State.strand
  refine Frame.ite (fun _ => ?_) (fun _ => ?_)
  · exact h
  · extract_lets -merge -useContext -underBinder +onlyGivenNames x0
    extract_lets -merge -useContext -underBinder +onlyGivenNames x1
    have h1 : Frame P s0 x1 := by
      unfold x1
      refine State.setXbr_frame ?_ _ (Sub.le (by decide) hp)
      exact h
    refine State.post_frame ?_ _ _ _ _ _ _ _ _ (Sub.le (by decide) hp)
    refine State.raise_frame ?_ _ _ (Sub.le (by decide) hp)
    refine State.bump_frame ?_ _ (Reg.xbrCntStranded_in (hp .regXbr rfl)) (Sub.le (by decide) hp)
    exact h1

theorem State.releaseCompletion_frame {P : Part → Prop} {s0 s : State} (h : Frame P s0 s) (a_source : ℕ) (a_body : List Sys2Proof.Byte) (hp : Sub 2251799813685248 P) :
    Frame P s0 (State.releaseCompletion s a_source a_body) := by
  unfold State.releaseCompletion
  refine State.setXbr_frame ?_ _ (Sub.le (by decide) hp)
  exact h

theorem State.sendCompletion_frame {P : Part → Prop} {s0 s : State} (h : Frame P s0 s) (a_e : Sys2Proof.Machine.CacheEnt) (a_fromCache : Bool) (a_cached : Bool) (hp : Sub 5387518687265955996281478523138 P) :
    Frame P s0 (State.sendCompletion s a_e a_fromCache a_cached) := by
  unfold State.sendCompletion
  refine Frame.ite (fun _ => ?_) (fun _ => ?_)
  · refine State.releaseCompletion_frame ?_ _ _ (Sub.le (by decide) hp)
    exact h
  · extract_lets -merge -useContext -underBinder +onlyGivenNames x0
    extract_lets -merge -useContext -underBinder +onlyGivenNames x1
    extract_lets -merge -useContext -underBinder +onlyGivenNames x2
    have h2 : Frame P s0 x2 := by
      unfold x2
      refine State.sendX_frame ?_ _ (Sub.le (by decide) hp)
      exact h
    refine Frame.ite (fun _ => ?_) (fun _ => ?_)
    · refine State.strand_frame ?_ _ _ (Sub.le (by decide) hp)
      exact h2
    · exact h2

theorem State.answerBusy_frame {P : Part → Prop} {s0 s : State} (h : Frame P s0 s) (a_r : Sys2Proof.Machine.InReq) (hp : Sub 5387518687265955996281478523138 P) :
    Frame P s0 (State.answerBusy s a_r) := by
  unfold State.answerBusy
  extract_lets -merge -useContext -underBinder +onlyGivenNames x0
  refine State.sendCompletion_frame ?_ _ _ _ (Sub.le (by decide) hp)
  refine State.bump_frame ?_ _ (Reg.xbrCntBusySent_in (hp .regXbr rfl)) (Sub.le (by decide) hp)
  exact h

theorem State.badFrame_frame {P : Part → Prop} {s0 s : State} (h : Frame P s0 s) (a_source : ℕ) (a_b : List Sys2Proof.Byte) (hp : Sub 5070603609914830039920039635234 P) :
    Frame P s0 (State.badFrame s a_source a_b) := by
  unfold State.badFrame
  refine State.raise_frame ?_ _ _ (Sub.le (by decide) hp)
  refine State.qualFail_frame ?_ _ _ _ _ _ (Reg.xbrCntBadReq_in (hp .regXbr rfl)) (Sub.le (by decide) hp)
  exact h

theorem State.releaseRequest_frame {P : Part → Prop} {s0 s : State} (h : Frame P s0 s) (a_r : Sys2Proof.Machine.InReq) (hp : Sub 5387518687265955996281478523138 P) :
    Frame P s0 (State.releaseRequest s a_r) := by
  unfold State.releaseRequest
  extract_lets -merge -useContext -underBinder +onlyGivenNames x0
  extract_lets -merge -useContext -underBinder +onlyGivenNames x1
  extract_lets -merge -useContext -underBinder +onlyGivenNames x2
  refine Frame.ite (fun _ => ?_) (fun _ => ?_)
  · refine State.bump_frame ?_ _ (Reg.xbrCntRetryPending_in (hp .regXbr rfl)) (Sub.le (by decide) hp)
    exact h
  · extract_lets -merge -useContext -underBinder +onlyGivenNames x3
    split
    · refine State.sendCompletion_frame ?_ _ _ _ (Sub.le (by decide) hp)
      refine State.bump_frame ?_ _ (Reg.xbrCntCcHit_in (hp .regXbr rfl)) (Sub.le (by decide) hp)
      exact h
    · extract_lets -merge -useContext -underBinder +onlyGivenNames x6
      have h6 : Frame P s0 x6 := by
        unfold x6
        refine State.setXbr_frame ?_ _ (Sub.le (by decide) hp)
        exact h
      refine Frame.ite (fun _ => ?_) (fun _ => ?_)
      · refine State.answerBusy_frame ?_ _ (Sub.le (by decide) hp)
        exact h6
      · refine State.setXbr_frame ?_ _ (Sub.le (by decide) hp)
        exact h6

theorem State.releasePosted_frame {P : Part → Prop} {s0 s : State} (h : Frame P s0 s) (a_p : Sys2Proof.Machine.PostReq) (hp : Sub 2251799813685248 P) :
    Frame P s0 (State.releasePosted s a_p) := by
  unfold State.releasePosted
  refine State.setXbr_frame ?_ _ (Sub.le (by decide) hp)
  exact h

theorem State.releaseFrame_frame {P : Part → Prop} {s0 s : State} (h : Frame P s0 s) (a_source : ℕ) (a_f : Sys2Proof.Machine.XRecv) (hp : Sub 5387518687268261839290692217122 P) :
    Frame P s0 (State.releaseFrame s a_source a_f) := by
  unfold State.releaseFrame
  extract_lets -merge -useContext -underBinder +onlyGivenNames x0
  have h0 : Frame P s0 x0 := by
    unfold x0
    refine Frame.ite (fun _ => ?_) (fun _ => ?_)
    · exact h
    · refine State.badFrame_frame ?_ _ _ (Sub.le (by decide) hp)
      exact h
  refine Frame.ite (fun _ => ?_) (fun _ => ?_)
  · refine Frame.ite (fun _ => ?_) (fun _ => ?_)
    · refine State.releaseCompletion_frame ?_ _ _ (Sub.le (by decide) hp)
      exact h0
    · exact h0
  · refine Frame.ite (fun _ => ?_) (fun _ => ?_)
    · refine State.releaseRequest_frame ?_ _ (Sub.le (by decide) hp)
      exact h0
    · refine State.releasePosted_frame ?_ _ (Sub.le (by decide) hp)
      exact h0

theorem State.setOrder_frame {P : Part → Prop} {s0 s : State} (h : Frame P s0 s) (a_source : ℕ) (a_o : Sys2Proof.Machine.Order) (hp : Sub 2251799813685248 P) :
    Frame P s0 (State.setOrder s a_source a_o) := by
  unfold State.setOrder
  refine State.setXbr_frame ?_ _ (Sub.le (by decide) hp)
  exact h

theorem State.releaseRun_frame {P : Part → Prop} {s0 s : State} (h : Frame P s0 s) (source n : Nat) (hp : Sub 5387518687268261839290692217122 P) :
    Frame P s0 (s.releaseRun source n) := by
  induction n generalizing s with
  | zero => exact h
  | succ n ih =>
    unfold State.releaseRun
    split
    · exact h
    · split
      · exact h
      · refine ih ?_
        split
        · exact State.releaseFrame_frame (State.setOrder_frame h _ _ (Sub.le (by decide) hp)) _ _ (Sub.le (by decide) hp)
        · exact State.setOrder_frame h _ _ (Sub.le (by decide) hp)

theorem State.orderPlace_frame {P : Part → Prop} {s0 s : State} (h : Frame P s0 s) (a_source : ℕ) (a_place : ℕ) (a_f : Option Sys2Proof.Machine.XRecv) (hp : Sub 5387518687268261839290692217122 P) :
    Frame P s0 (State.orderPlace s a_source a_place a_f) := by
  unfold State.orderPlace
  split
  · exact h
  · extract_lets -merge -useContext -underBinder +onlyGivenNames x2
    refine Frame.ite (fun _ => ?_) (fun _ => ?_)
    · refine Frame.ite (fun _ => ?_) (fun _ => ?_)
      · refine State.bump_frame ?_ _ (Reg.xbrCntStreamStale_in (hp .regXbr rfl)) (Sub.le (by decide) hp)
        exact h
      · exact h
    · refine Frame.ite (fun _ => ?_) (fun _ => ?_)
      · extract_lets -merge -useContext -underBinder +onlyGivenNames x3
        have h3 : Frame P s0 x3 := by
          unfold x3
          refine State.setOrder_frame ?_ _ _ (Sub.le (by decide) hp)
          exact h
        extract_lets -merge -useContext -underBinder +onlyGivenNames x4
        have h4 : Frame P s0 x4 := by
          unfold x4
          split
          · refine State.releaseFrame_frame ?_ _ _ (Sub.le (by decide) hp)
            exact h3
          · exact h3
        refine State.releaseRun_frame ?_ _ _ (Sub.le (by decide) hp)
        exact h4
      · refine Frame.ite (fun _ => ?_) (fun _ => ?_)
        · refine Frame.ite (fun _ => ?_) (fun _ => ?_)
          · refine State.bump_frame ?_ _ (Reg.xbrCntHoldDrop_in (hp .regXbr rfl)) (Sub.le (by decide) hp)
            exact h
          · exact h
        · refine Frame.ite (fun _ => ?_) (fun _ => ?_)
          · refine State.raise_frame ?_ _ _ (Sub.le (by decide) hp)
            refine State.qualFail_frame ?_ _ _ _ _ _ (Reg.xbrCntHoldDrop_in (hp .regXbr rfl)) (Sub.le (by decide) hp)
            exact h
          · refine State.setOrder_frame ?_ _ _ (Sub.le (by decide) hp)
            exact h

theorem State.gapLost_frame {P : Part → Prop} {s0 s : State} (h : Frame P s0 s) (a_source : ℕ) (hp : Sub 5387518687268261839290692217122 P) :
    Frame P s0 (State.gapLost s a_source) := by
  unfold State.gapLost
  split
  · exact h
  · extract_lets -merge -useContext -underBinder +onlyGivenNames x2
    clear_value x2
    split
    · exact h
    · extract_lets -merge -useContext -underBinder +onlyGivenNames x5
      extract_lets -merge -useContext -underBinder +onlyGivenNames x6
      have h6 : Frame P s0 x6 := by
        unfold x6
        refine State.raise_frame ?_ _ _ (Sub.le (by decide) hp)
        refine State.qualFail_frame ?_ _ _ _ _ _ (Reg.xbrCntGapLost_in (hp .regXbr rfl)) (Sub.le (by decide) hp)
        exact h
      extract_lets -merge -useContext -underBinder +onlyGivenNames x7
      have h7 : Frame P s0 x7 := by
        unfold x7
        refine State.sendReport_frame ?_ _ _ _ _ _ _ (Sub.le (by decide) hp)
        exact h6
      refine State.releaseRun_frame ?_ _ _ (Sub.le (by decide) hp)
      refine State.setOrder_frame ?_ _ _ (Sub.le (by decide) hp)
      exact h7

theorem State.gapsLost_frame {P : Part → Prop} {s0 s : State} (h : Frame P s0 s) (source n : Nat) (hp : Sub 5387518687268261839290692217122 P) :
    Frame P s0 (s.gapsLost source n) := by
  induction n generalizing s with
  | zero => exact h
  | succ n ih => exact ih (State.gapLost_frame h _ (Sub.le (by decide) hp))

theorem State.orderRoom_frame {P : Part → Prop} {s0 s t : State} (h : Frame P s0 s) (e : s.orderRoom = some t) (hp : Sub 5387518687268261839290692217122 P) :
    Frame P s0 t := by
  unfold State.orderRoom at e
  split at e
  · injection e with e; exact e ▸ h
  · split at e
    · injection e with e; exact e ▸ State.setXbr_frame h _ (Sub.le (by decide) hp)
    · cases e

theorem State.orderJudge_frame {P : Part → Prop} {s0 s : State} (h : Frame P s0 s) (source : Nat) (f : XRecv) (hp : Sub 5387518687268261839290692217122 P) :
    Frame P s0 (s.orderJudge source f) := by
  unfold State.orderJudge
  extract_lets b fresh
  have pl : ∀ y k x, Frame P s0 y → Frame P s0 (State.orderPlace y source k x) := fun y k x hy =>
    State.orderPlace_frame hy _ _ _ (Sub.le (by decide) hp)
  have so : ∀ y o, Frame P s0 y → Frame P s0 (State.setOrder y source o) := fun y o hy => State.setOrder_frame hy _ _ (Sub.le (by decide) hp)
  have hf : ∀ y, Frame P s0 y → Frame P s0 (fresh y) := fun y hy => pl _ _ _ (so _ _ hy)
  split
  · split
    · exact hf _ (State.orderRoom_frame h ‹_› hp)
    · exact State.bump_frame h _ (Reg.xbrCntHoldDrop_in (hp .regXbr rfl)) (Sub.le (by decide) hp)
  · refine Frame.ite (fun _ => Frame.ite (fun _ => hf _ (State.gapsLost_frame h _ _ (Sub.le (by decide) hp)))
      (fun _ => State.bump_frame h _ (Reg.xbrCntStreamStale_in (hp .regXbr rfl)) (Sub.le (by decide) hp))) (fun _ => ?_)
    exact Frame.ite (fun _ => pl _ _ _ (pl _ _ _ (so _ _ h))) (fun _ => pl _ _ _ (so _ _ h))

theorem execTransactionFrameReceive_frame {P : Part → Prop} {s0 s : State} (h : Frame P s0 s)  (hp : Sub 5387518687268261839290692217122 P) :
    AnswersIn P s0 (execTransactionFrameReceive s) := by
  refine ⟨_, rfl, ?_⟩
  split
  · exact h
  · extract_lets -merge -useContext -underBinder +onlyGivenNames x2
    have h2 : Frame P s0 x2 := by
      unfold x2
      refine State.setNet_frame ?_ _ (Sub.le (by decide) hp)
      exact h
    extract_lets -merge -useContext -underBinder +onlyGivenNames x3
    extract_lets -merge -useContext -underBinder +onlyGivenNames x4
    refine Frame.ite (fun _ => ?_) (fun _ => ?_)
    · refine State.badFrame_frame ?_ _ _ (Sub.le (by decide) hp)
      exact h2
    · refine State.orderJudge_frame ?_ _ _ (Sub.le (by decide) hp)
      exact h2

theorem execGapLost_frame {P : Part → Prop} {s0 s : State} (h : Frame P s0 s) (a_source : BitVec 16) (hp : Sub 5387518687268261839290692217122 P) :
    AnswersIn P s0 (execGapLost a_source s) := by
  refine ⟨_, rfl, ?_⟩
  refine Frame.ite (fun _ => ?_) (fun _ => ?_)
  · refine State.gapLost_frame ?_ _ (Sub.le (by decide) hp)
    exact h
  · exact h

theorem execStreamAgeExpiry_frame {P : Part → Prop} {s0 s : State} (h : Frame P s0 s) (a_source : BitVec 16) (hp : Sub 2251799813685248 P) :
    AnswersIn P s0 (execStreamAgeExpiry a_source s) := by
  refine ⟨_, rfl, ?_⟩
  split
  · refine Frame.ite (fun _ => ?_) (fun _ => ?_)
    · refine State.setOrder_frame ?_ _ _ (Sub.le (by decide) hp)
      exact h
    · exact h
  · exact h

theorem execStreamEntryIdleExpiry_frame {P : Part → Prop} {s0 s : State} (h : Frame P s0 s) (a_dst : BitVec 16) (hp : Sub 5387518687265955996281478523138 P) :
    AnswersIn P s0 (execStreamEntryIdleExpiry a_dst s) := by
  refine ⟨_, rfl, ?_⟩
  extract_lets -merge -useContext -underBinder +onlyGivenNames x0
  split
  · exact h
  · refine Frame.ite (fun _ => ?_) (fun _ => ?_)
    · exact h
    · extract_lets -merge -useContext -underBinder +onlyGivenNames x3
      have h3 : Frame P s0 x3 := by
        unfold x3
        refine State.setXbr_frame ?_ _ (Sub.le (by decide) hp)
        exact h
      split
      · exact h3
      · extract_lets -merge -useContext -underBinder +onlyGivenNames x6
        extract_lets -merge -useContext -underBinder +onlyGivenNames x7
        have h7 : Frame P s0 x7 := by
          unfold x7
          refine State.setXbr_frame ?_ _ (Sub.le (by decide) hp)
          exact h3
        refine Frame.foldl ?_ (fun y8 a8 h8 => ?_)
        · exact h7
        · refine State.sendX_frame ?_ _ (Sub.le (by decide) hp)
          exact h8

theorem State.sendDiscard_frame {P : Part → Prop} {s0 s : State} (h : Frame P s0 s) (a_dst : ℕ) (a_code : ℕ) (a_tag : ℕ) (a_addr : ℕ) (a_own : Bool) (hp : Sub 5387518687265955996281478523138 P) :
    Frame P s0 (State.sendDiscard s a_dst a_code a_tag a_addr a_own) := by
  unfold State.sendDiscard
  refine Frame.ite (fun _ => ?_) (fun _ => ?_)
  · refine State.releasePosted_frame ?_ _ (Sub.le (by decide) hp)
    exact h
  · refine State.sendX_frame ?_ _ (Sub.le (by decide) hp)
    exact h

theorem State.sendPosted_frame {P : Part → Prop} {s0 s : State} (h : Frame P s0 s) (a_p : Sys2Proof.Machine.XPend) (a_op : ℕ) (hp : Sub 5387518687265955996281478523138 P) :
    Frame P s0 (State.sendPosted s a_p a_op) := by
  unfold State.sendPosted
  extract_lets -merge -useContext -underBinder +onlyGivenNames x0
  extract_lets -merge -useContext -underBinder +onlyGivenNames x1
  have h1 : Frame P s0 x1 := by
    unfold x1
    refine State.bump_frame ?_ _ (Reg.xbrCntPostedIssued_in (hp .regXbr rfl)) (Sub.le (by decide) hp)
    exact h
  extract_lets -merge -useContext -underBinder +onlyGivenNames x2
  extract_lets -merge -useContext -underBinder +onlyGivenNames x3
  extract_lets -merge -useContext -underBinder +onlyGivenNames x4
  refine Frame.ite (fun _ => ?_) (fun _ => ?_)
  · refine State.releasePosted_frame ?_ _ (Sub.le (by decide) hp)
    exact h1
  · refine State.sendX_frame ?_ _ (Sub.le (by decide) hp)
    exact h1

theorem State.sendRequest_frame {P : Part → Prop} {s0 s : State} (h : Frame P s0 s) (a_t : ℕ) (a_retry : Bool) (hp : Sub 5387518687265955996281478523138 P) :
    Frame P s0 (State.sendRequest s a_t a_retry) := by
  unfold State.sendRequest
  extract_lets -merge -useContext -underBinder +onlyGivenNames x0
  split
  · exact h
  · extract_lets -merge -useContext -underBinder +onlyGivenNames x3
    extract_lets -merge -useContext -underBinder +onlyGivenNames x4
    extract_lets -merge -useContext -underBinder +onlyGivenNames x5
    extract_lets -merge -useContext -underBinder +onlyGivenNames x6
    have h6 : Frame P s0 x6 := by
      unfold x6
      refine State.setTag_frame ?_ _ _ (Sub.le (by decide) hp)
      exact h
    refine Frame.ite (fun _ => ?_) (fun _ => ?_)
    · refine State.releaseRequest_frame ?_ _ (Sub.le (by decide) hp)
      refine State.noteSent_frame ?_ _ _ (Sub.le (by decide) hp)
      exact h6
    · refine State.sendX_frame ?_ _ (Sub.le (by decide) hp)
      exact h6

theorem State.issueTag_frame {P : Part → Prop} {s0 s : State} (h : Frame P s0 s) (a_p : Sys2Proof.Machine.XPend) (a_t : ℕ) (hp : Sub 5387518687265955996281478523138 P) :
    Frame P s0 (State.issueTag s a_p a_t) := by
  unfold State.issueTag
  extract_lets -merge -useContext -underBinder +onlyGivenNames x0
  extract_lets -merge -useContext -underBinder +onlyGivenNames x1
  have h1 : Frame P s0 x1 := by
    unfold x1
    refine State.setTag_frame ?_ _ _ (Sub.le (by decide) hp)
    refine State.bump_frame ?_ _ (Reg.xbrCntNpIssued_in (hp .regXbr rfl)) (Sub.le (by decide) hp)
    exact h
  refine State.sendRequest_frame ?_ _ _ (Sub.le (by decide) hp)
  exact h1

theorem State.tagStall_frame {P : Part → Prop} {s0 s : State} (h : Frame P s0 s) (a_p : Sys2Proof.Machine.XPend) (hp : Sub 5070603609912526448710639626562 P) :
    Frame P s0 (State.tagStall s a_p) := by
  unfold State.tagStall
  extract_lets -merge -useContext -underBinder +onlyGivenNames x0
  extract_lets -merge -useContext -underBinder +onlyGivenNames x1
  have h1 : Frame P s0 x1 := by
    unfold x1
    refine State.setXbr_frame ?_ _ (Sub.le (by decide) hp)
    exact h
  refine Frame.ite (fun _ => ?_) (fun _ => ?_)
  · refine State.gather_frame ?_ _ _ (Sub.le (by decide) hp)
    refine State.raise_frame ?_ _ _ (Sub.le (by decide) hp)
    refine State.bump_frame ?_ _ (Reg.xbrCntTagStall_in (hp .regXbr rfl)) (Sub.le (by decide) hp)
    exact h1
  · exact h1

theorem State.issue_frame {P : Part → Prop} {s0 s : State} (h : Frame P s0 s) (a_p : Sys2Proof.Machine.XPend) (hp : Sub 5387518687265955996281478523202 P) :
    Frame P s0 (State.issue s a_p) := by
  unfold State.issue
  extract_lets -merge -useContext -underBinder +onlyGivenNames x0
  refine Frame.ite (fun _ => ?_) (fun _ => ?_)
  · refine Frame.ite (fun _ => ?_) (fun _ => ?_)
    · refine State.setXbr_frame ?_ _ (Sub.le (by decide) hp)
      exact h
    · refine State.sendPosted_frame ?_ _ _ (Sub.le (by decide) hp)
      exact h
  · refine Frame.ite (fun _ => ?_) (fun _ => ?_)
    · refine State.sendPosted_frame ?_ _ _ (Sub.le (by decide) hp)
      exact h
    · split
      · refine State.issueTag_frame ?_ _ _ (Sub.le (by decide) hp)
        exact h
      · refine State.tagStall_frame ?_ _ (Sub.le (by decide) hp)
        exact h

theorem execRequestIssue_frame {P : Part → Prop} {s0 s : State} (h : Frame P s0 s) (a_q : Sys2Proof.XReq) (a_user : ℕ) (hp : Sub 5387518687265955996281478523202 P) :
    AnswersIn P s0 (execRequestIssue a_q a_user s) := by
  refine ⟨_, rfl, ?_⟩
  refine Frame.ite (fun _ => ?_) (fun _ => ?_)
  · refine State.issue_frame ?_ _ (Sub.le (by decide) hp)
    exact h
  · exact h

theorem execTagStallEnd_frame {P : Part → Prop} {s0 s : State} (h : Frame P s0 s)  (hp : Sub 5387518687265955996281478523138 P) :
    AnswersIn P s0 (execTagStallEnd s) := by
  refine ⟨_, rfl, ?_⟩
  split
  · refine State.issueTag_frame ?_ _ _ (Sub.le (by decide) hp)
    refine State.setXbr_frame ?_ _ (Sub.le (by decide) hp)
    exact h
  · exact h

theorem execRetryTimer_frame {P : Part → Prop} {s0 s : State} (h : Frame P s0 s) (a_t : Fin 512) (hp : Sub 5387518687265955996281478523138 P) :
    AnswersIn P s0 (execRetryTimer a_t s) := by
  refine ⟨_, rfl, ?_⟩
  split
  · refine Frame.ite (fun _ => ?_) (fun _ => ?_)
    · refine State.sendRequest_frame ?_ _ _ (Sub.le (by decide) hp)
      refine State.bump_frame ?_ _ (Reg.xbrCntRetry_in (hp .regXbr rfl)) (Sub.le (by decide) hp)
      exact h
    · exact h
  · exact h

theorem execBusyBackoffExpiry_frame {P : Part → Prop} {s0 s : State} (h : Frame P s0 s) (a_t : Fin 512) (hp : Sub 5387518687265955996281478523138 P) :
    AnswersIn P s0 (execBusyBackoffExpiry a_t s) := by
  refine ⟨_, rfl, ?_⟩
  split
  · refine Frame.ite (fun _ => ?_) (fun _ => ?_)
    · refine State.sendRequest_frame ?_ _ _ (Sub.le (by decide) hp)
      refine State.bump_frame ?_ _ (Reg.xbrCntRetry_in (hp .regXbr rfl)) (Sub.le (by decide) hp)
      exact h
    · exact h
  · exact h

theorem State.takeRec_frame {P : Part → Prop} {s0 s : State} (h : Frame P s0 s) (a_r : Sys2Proof.Machine.Rec) (hp : Sub 1208999606590924013119746 P) :
    Frame P s0 (State.takeRec s a_r) := by
  unfold State.takeRec
  refine Frame.ite (fun _ => ?_) (fun _ => ?_)
  · exact h
  · refine State.route_frame ?_ _ (Sub.le (by decide) hp)
    refine Frame.ite (fun _ => ?_) (fun _ => ?_)
    · refine State.raise_frame ?_ _ _ (Sub.le (by decide) hp)
      exact h
    · exact h

theorem State.takeLost_frame {P : Part → Prop} {s0 s : State} (h : Frame P s0 s) (a_r : Sys2Proof.Machine.Rec) (hp : Sub 1208999606590924013119746 P) :
    Frame P s0 (State.takeLost s a_r) := by
  unfold State.takeLost
  extract_lets -merge -useContext -underBinder +onlyGivenNames x0
  extract_lets -merge -useContext -underBinder +onlyGivenNames x1
  extract_lets -merge -useContext -underBinder +onlyGivenNames x2
  extract_lets -merge -useContext -underBinder +onlyGivenNames x3
  extract_lets -merge -useContext -underBinder +onlyGivenNames x4
  extract_lets -merge -useContext -underBinder +onlyGivenNames x5
  extract_lets -merge -useContext -underBinder +onlyGivenNames x6
  extract_lets -merge -useContext -underBinder +onlyGivenNames x7
  extract_lets -merge -useContext -underBinder +onlyGivenNames x8
  have h8 : Frame P s0 x8 := by
    unfold x8
    refine Frame.foldl ?_ (fun y9 a9 h9 => ?_)
    · exact h
    · refine State.takeRec_frame ?_ _ (Sub.le (by decide) hp)
      exact h9
  split
  · extract_lets -merge -useContext -underBinder +onlyGivenNames x11
    refine Frame.ite (fun _ => ?_) (fun _ => ?_)
    · exact h8
    · refine State.takeRec_frame ?_ _ (Sub.le (by decide) hp)
      exact h8
  · exact h8

theorem State.takeReport_frame {P : Part → Prop} {s0 s : State} (h : Frame P s0 s) (a_lost : Bool) (hp : Sub 1208999606593123036375298 P) :
    Frame P s0 (State.takeReport s a_lost) := by
  unfold State.takeReport
  split
  · exact h
  · extract_lets -merge -useContext -underBinder +onlyGivenNames x2
    have h2 : Frame P s0 x2 := by
      unfold x2
      refine State.setNet_frame ?_ _ (Sub.le (by decide) hp)
      exact h
    refine Frame.foldl ?_ (fun y3 a3 h3 => ?_)
    · exact h2
    · refine Frame.ite (fun _ => ?_) (fun _ => ?_)
      · refine State.takeLost_frame ?_ _ (Sub.le (by decide) hp)
        exact h3
      · refine State.takeRec_frame ?_ _ (Sub.le (by decide) hp)
        exact h3

theorem execLostReportReceive_frame {P : Part → Prop} {s0 s : State} (h : Frame P s0 s)  (hp : Sub 1208999606593123036375298 P) :
    AnswersIn P s0 (execLostReportReceive s) := by
  refine ⟨_, rfl, ?_⟩
  refine State.takeReport_frame ?_ _ (Sub.le (by decide) hp)
  exact h

theorem execEventReportReceive_frame {P : Part → Prop} {s0 s : State} (h : Frame P s0 s)  (hp : Sub 1208999606593123036375298 P) :
    AnswersIn P s0 (execEventReportReceive s) := by
  refine ⟨_, rfl, ?_⟩
  refine State.takeReport_frame ?_ _ (Sub.le (by decide) hp)
  exact h

theorem State.msgRead_frame {P : Part → Prop} {s0 s : State} (h : Frame P s0 s)  (hp : Sub 2251799813685248 P) :
    Frame P s0 (State.msgRead s).2 := by
  unfold State.msgRead
  split
  · refine Frame.pair2 ?_
    refine State.setXbr_frame ?_ _ (Sub.le (by decide) hp)
    exact h
  · refine Frame.ite2 (fun _ => ?_) (fun _ => ?_)
    · refine Frame.pair2 ?_
      refine State.setXbr_frame ?_ _ (Sub.le (by decide) hp)
      exact h
    · refine Frame.pair2 ?_
      refine State.setXbr_frame ?_ _ (Sub.le (by decide) hp)
      exact h

theorem execMsgDataRead_frame {P : Part → Prop} {s0 s : State} (h : Frame P s0 s)  (hp : Sub 9225623836668461056 P) :
    AnswersIn P s0 (execMsgDataRead s) := by
  refine ⟨_, rfl, ?_⟩
  refine State.answered_frame ?_ _ (Sub.le (by decide) hp)
  refine State.msgRead_frame ?_  (Sub.le (by decide) hp)
  exact h

theorem execMsgUnderClr_frame {P : Part → Prop} {s0 s : State} (h : Frame P s0 s)  (hp : Sub 2251799813685248 P) :
    AnswersIn P s0 (execMsgUnderClr s) := by
  refine ⟨_, rfl, ?_⟩
  refine State.setXbr_frame ?_ _ (Sub.le (by decide) hp)
  exact h

theorem execCcHoldExpiry_frame {P : Part → Prop} {s0 s : State} (h : Frame P s0 s) (a_source : BitVec 16) (a_code : Sys2Proof.Byte) (a_tag : BitVec 14) (hp : Sub 2251799813685248 P) :
    AnswersIn P s0 (execCcHoldExpiry a_source a_code a_tag s) := by
  refine ⟨_, rfl, ?_⟩
  extract_lets -merge -useContext -underBinder +onlyGivenNames x0
  refine State.setXbr_frame ?_ _ (Sub.le (by decide) hp)
  exact h

theorem State.qCfgWrite_frame {P : Part → Prop} {s0 s : State} (h : Frame P s0 s) (n : Nat) (v : Word) (hn : n < 16) (hp : Sub 10141206010751654826602800351232 P) :
    Frame P s0 (s.qCfgWrite n v) := by
  have hk : RegIn P (Reg.evqQCfg n) := Reg.evqQCfg_in _ hn (hp .evqCfg rfl)
  unfold State.qCfgWrite
  refine Frame.ite (fun _ => State.setFld_frame h _ _ _ _ hk (Sub.le (by decide) hp)) (fun _ => ?_)
  have h1 := State.wr_frame h (Reg.evqQCfg n) (v &&& w32 (directMask 0x24 (Reg.evqQCfg n % 0x1000))) hk (Sub.le (by decide) hp)
  refine Frame.ite (fun _ => ?_) (fun _ => h1)
  exact { h1 with
    evq := fun e => absurd (hp .evq rfl) e
    prods := fun _ e => absurd (hp .evqCfg rfl) e }

theorem execQCfgWrite_frame {P : Part → Prop} {s0 s : State} (h : Frame P s0 s) (n : Fin 16) (v : Word) (hp : Sub 10141206010751654826602800351232 P) :
    AnswersIn P s0 (execQCfgWrite n v s) := ⟨_, rfl, State.qCfgWrite_frame h _ _ n.isLt (Sub.le (by decide) hp)⟩

theorem State.qCiWrite_frame {P : Part → Prop} {s0 s : State} (h : Frame P s0 s) (n : Nat) (v : Word) (hn : n < 16) (hp : Sub 1209001912433933226813730 P) :
    Frame P s0 (s.qCiWrite n v) := by
  unfold State.qCiWrite
  exact Frame.ite (fun _ => State.qualFail_frame h _ _ _ _ _ (Reg.evqCntBadCi_in (hp .regEvq rfl)) (Sub.le (by decide) hp))
    (fun _ => State.evRecover_frame (State.wr_frame h _ _ (Reg.evqQCi_in _ hn (hp .regEvq rfl)) (Sub.le (by decide) hp)) n hn
      (Sub.le (by decide) hp))

theorem execQCiWrite_frame {P : Part → Prop} {s0 s : State} (h : Frame P s0 s) (n : Fin 16) (v : Word) (hp : Sub 1209001912433933226813730 P) :
    AnswersIn P s0 (execQCiWrite n v s) := ⟨_, rfl, State.qCiWrite_frame h _ _ n.isLt (Sub.le (by decide) hp)⟩

theorem execEvqHoldoffExpiry_frame {P : Part → Prop} {s0 s : State} (h : Frame P s0 s) (n : Fin 16) (hp : Sub 73786976294838413314 P) :
    AnswersIn P s0 (execEvqHoldoffExpiry n s) := by
  refine ⟨_, rfl, ?_⟩
  split
  · exact Frame.ite (fun _ => State.evAnnounce_frame h _ n.isLt (Sub.le (by decide) hp)) (fun _ => h)
  · exact h

theorem State.postCmd_frame {P : Part → Prop} {s0 s : State} (h : Frame P s0 s) (a_v : Sys2Proof.Word) (hp : Sub 1208999606590924013119746 P) :
    Frame P s0 (State.postCmd s a_v) := by
  unfold State.postCmd
  refine Frame.ite (fun _ => ?_) (fun _ => ?_)
  · refine State.postFull_frame ?_ _ _ _ _ _ _ _ _ _ _ _ (Sub.le (by decide) hp)
    exact h
  · exact h

theorem execPostCmd_frame {P : Part → Prop} {s0 s : State} (h : Frame P s0 s) (a_v : Sys2Proof.Word) (hp : Sub 1208999606590924013119746 P) :
    AnswersIn P s0 (execPostCmd a_v s) := by
  refine ⟨_, rfl, ?_⟩
  refine State.postCmd_frame ?_ _ (Sub.le (by decide) hp)
  exact h

theorem State.setDma_frame {P : Part → Prop} {s0 s : State} (h : Frame P s0 s) (a_c : ℕ) (a_f : Sys2Proof.Machine.DmaSt → Sys2Proof.Machine.DmaSt) (hp : Sub 9007199254740992 P) :
    Frame P s0 (State.setDma s a_c a_f) := by
  unfold State.setDma
  refine Frame.set_dma ?_ (hp .dma rfl) _
  exact h

theorem State.dmaFail_frame {P : Part → Prop} {s0 s : State} (h : Frame P s0 s) (a_c : ℕ) (a_status : ℕ) (a_addr : ℕ) (hp : Sub 9007199254740992 P) :
    Frame P s0 (State.dmaFail s a_c a_status a_addr) := by
  unfold State.dmaFail
  refine State.setDma_frame ?_ _ _ (Sub.le (by decide) hp)
  exact h

theorem State.dmaRead_frame {P : Part → Prop} {s0 s : State} (h : Frame P s0 s) (a_c : ℕ) (hp : Sub 5387518687265965003480733264194 P) :
    Frame P s0 (State.dmaRead s a_c) := by
  unfold State.dmaRead
  extract_lets -merge -useContext -underBinder +onlyGivenNames x0
  extract_lets -merge -useContext -underBinder +onlyGivenNames x1
  extract_lets -merge -useContext -underBinder +onlyGivenNames x2
  extract_lets -merge -useContext -underBinder +onlyGivenNames x3
  have h3 : Frame P s0 x3 := by
    unfold x3
    refine State.setDma_frame ?_ _ _ (Sub.le (by decide) hp)
    exact h
  refine Frame.ite (fun _ => ?_) (fun _ => ?_)
  · refine State.sendTlp_frame ?_ _ (Sub.le (by decide) hp)
    exact h3
  · extract_lets -merge -useContext -underBinder +onlyGivenNames x4
    refine State.issue_frame ?_ _ (Sub.le (by decide) hp)
    exact h3

theorem State.dmaWrite_frame {P : Part → Prop} {s0 s : State} (h : Frame P s0 s) (a_c : ℕ) (a_data : List Sys2Proof.Byte) (hp : Sub 5387518989497419907138026940738 P) :
    Frame P s0 (State.dmaWrite s a_c a_data) := by
  unfold State.dmaWrite
  extract_lets -merge -useContext -underBinder +onlyGivenNames x0
  extract_lets -merge -useContext -underBinder +onlyGivenNames x1
  extract_lets -merge -useContext -underBinder +onlyGivenNames x2
  extract_lets -merge -useContext -underBinder +onlyGivenNames x3
  extract_lets -merge -useContext -underBinder +onlyGivenNames x4
  extract_lets -merge -useContext -underBinder +onlyGivenNames x5
  have h5 : Frame P s0 x5 := by
    unfold x5
    refine State.setDma_frame ?_ _ _ (Sub.le (by decide) hp)
    exact h
  extract_lets -merge -useContext -underBinder +onlyGivenNames x6
  have h6 : Frame P s0 x6 := by
    unfold x6
    refine State.wr_frame ?_ _ _ (Reg.dmaDcBytes_in _ (hp .regDma rfl)) (Sub.le (by decide) hp)
    exact h5
  refine Frame.ite (fun _ => ?_) (fun _ => ?_)
  · refine State.sendTlp_frame ?_ _ (Sub.le (by decide) hp)
    exact h6
  · extract_lets -merge -useContext -underBinder +onlyGivenNames x7
    have h7 : Frame P s0 x7 := by
      unfold x7
      refine Frame.ite (fun _ => ?_) (fun _ => ?_)
      · exact h6
      · refine State.setDma_frame ?_ _ _ (Sub.le (by decide) hp)
        exact h6
    refine State.issue_frame ?_ _ (Sub.le (by decide) hp)
    exact h7

theorem State.dmaPump_frame {P : Part → Prop} {s0 s : State} (h : Frame P s0 s) (c n : Nat) (hp : Sub 5387518989497419907138026940738 P) : Frame P s0 (s.dmaPump c n) := by
  induction n generalizing s with
  | zero => exact h
  | succ n ih =>
    have h1 := State.setDma_frame h c DmaSt.joined (Sub.le (by decide) hp)
    unfold State.dmaPump
    generalize s.setDma c DmaSt.joined = s at h1 ⊢
    refine Frame.ite (fun _ => h1) (fun _ => ?_)
    extract_lets hand
    clear_value hand
    split
    · exact ih (State.dmaWrite_frame h1 _ _ (Sub.le (by decide) hp))
    · exact Frame.ite (fun _ => ih (State.dmaRead_frame h1 _ (Sub.le (by decide) hp))) (fun _ => h1)

theorem State.dmaAnswer_frame {P : Part → Prop} {s0 s : State} (h : Frame P s0 s) (a_c : ℕ) (a_user : ℕ) (a_status : ℕ) (a_data : List Sys2Proof.Byte) (hp : Sub 5387518989497419907138026940738 P) :
    Frame P s0 (State.dmaAnswer s a_c a_user a_status a_data) := by
  unfold State.dmaAnswer
  extract_lets -merge -useContext -underBinder +onlyGivenNames x0
  refine Frame.ite (fun _ => ?_) (fun _ => ?_)
  · split
    · exact h
    · extract_lets -merge -useContext -underBinder +onlyGivenNames x3
      have h3 : Frame P s0 x3 := by
        unfold x3
        refine State.setDma_frame ?_ _ _ (Sub.le (by decide) hp)
        exact h
      refine Frame.ite (fun _ => ?_) (fun _ => ?_)
      · exact h3
      · refine State.dmaFail_frame ?_ _ _ _ (Sub.le (by decide) hp)
        exact h3
  · split
    · exact h
    · extract_lets -merge -useContext -underBinder +onlyGivenNames x6
      extract_lets -merge -useContext -underBinder +onlyGivenNames x7
      extract_lets -merge -useContext -underBinder +onlyGivenNames x8
      extract_lets -merge -useContext -underBinder +onlyGivenNames x9
      have h9 : Frame P s0 x9 := by
        unfold x9
        refine State.setDma_frame ?_ _ _ (Sub.le (by decide) hp)
        exact h
      refine Frame.ite (fun _ => ?_) (fun _ => ?_)
      · refine State.dmaPump_frame ?_ _ _ (Sub.le (by decide) hp)
        exact h9
      · refine State.dmaFail_frame ?_ _ _ _ (Sub.le (by decide) hp)
        exact h9

theorem State.dmaPumpAll_frame {P : Part → Prop} {s0 s : State} (h : Frame P s0 s)  (hp : Sub 5387518989497419907138026940738 P) :
    Frame P s0 (State.dmaPumpAll s) := by
  unfold State.dmaPumpAll
  refine Frame.foldl ?_ (fun y0 a0 h0 => ?_)
  · exact h
  · refine State.dmaPump_frame ?_ _ _ (Sub.le (by decide) hp)
    exact h0

theorem State.dmaForsake_frame {P : Part → Prop} {s0 s : State} (h : Frame P s0 s) (a_c : ℕ) (hp : Sub 2251799813685248 P) :
    Frame P s0 (State.dmaForsake s a_c) := by
  unfold State.dmaForsake
  extract_lets -merge -useContext -underBinder +onlyGivenNames x0
  extract_lets -merge -useContext -underBinder +onlyGivenNames x1
  refine State.setXbr_frame ?_ _ (Sub.le (by decide) hp)
  exact h

theorem State.dcReset_frame {P : Part → Prop} {s0 s : State} (h : Frame P s0 s) (a_c : ℕ) (hp : Sub 302231466162656362102784 P) :
    Frame P s0 (State.dcReset s a_c) := by
  unfold State.dcReset
  refine State.setDma_frame ?_ _ _ (Sub.le (by decide) hp)
  refine State.dmaForsake_frame ?_ _ (Sub.le (by decide) hp)
  refine State.wr_frame ?_ _ _ (Reg.dmaDcTail_in _ (hp .regDma rfl)) (Sub.le (by decide) hp)
  refine State.wr_frame ?_ _ _ (Reg.dmaDcHead_in _ (hp .regDma rfl)) (Sub.le (by decide) hp)
  refine State.wr_frame ?_ _ _ (Reg.dmaDcCtrl_in _ (hp .regDma rfl)) (Sub.le (by decide) hp)
  exact h

theorem State.dcCtrlWrite_frame {P : Part → Prop} {s0 s : State} (h : Frame P s0 s) (a_c : ℕ) (a_v : Sys2Proof.Word) (hp : Sub 302231466162656362102784 P) :
    Frame P s0 (State.dcCtrlWrite s a_c a_v) := by
  unfold State.dcCtrlWrite
  extract_lets -merge -useContext -underBinder +onlyGivenNames x0
  have h0 : Frame P s0 x0 := by
    unfold x0
    refine Frame.ite (fun _ => ?_) (fun _ => ?_)
    · refine State.dcReset_frame ?_ _ (Sub.le (by decide) hp)
      exact h
    · exact h
  refine Frame.ite (fun _ => ?_) (fun _ => ?_)
  · refine State.setFld_frame ?_ _ _ _ _ (Reg.dmaDcStatus_in _ (hp .regDma rfl)) (Sub.le (by decide) hp)
    refine State.wr_frame ?_ _ _ (Reg.dmaDcCtrl_in _ (hp .regDma rfl)) (Sub.le (by decide) hp)
    exact h0
  · refine State.wr_frame ?_ _ _ (Reg.dmaDcCtrl_in _ (hp .regDma rfl)) (Sub.le (by decide) hp)
    exact h0

theorem execDcRunWrite_frame {P : Part → Prop} {s0 s : State} (h : Frame P s0 s) (a_c : Fin 8) (a_v : Sys2Proof.Word) (hp : Sub 302231466162656362102784 P) :
    AnswersIn P s0 (execDcRunWrite a_c a_v s) := by
  refine ⟨_, rfl, ?_⟩
  refine State.dcCtrlWrite_frame ?_ _ _ (Sub.le (by decide) hp)
  exact h

theorem execDcTailWrite_frame {P : Part → Prop} {s0 s : State} (h : Frame P s0 s) (a_c : Fin 8) (a_v : Sys2Proof.Word) (hp : Sub 302231454903657293676544 P) :
    AnswersIn P s0 (execDcTailWrite a_c a_v s) := by
  refine ⟨_, rfl, ?_⟩
  refine State.wr_frame ?_ _ _ (Reg.dmaDcTail_in _ (hp .regDma rfl)) (Sub.le (by decide) hp)
  exact h

theorem execDcReset_frame {P : Part → Prop} {s0 s : State} (h : Frame P s0 s) (a_c : Fin 8) (hp : Sub 302231466162656362102784 P) :
    AnswersIn P s0 (execDcReset a_c s) := by
  refine ⟨_, rfl, ?_⟩
  refine State.dcReset_frame ?_ _ (Sub.le (by decide) hp)
  exact h

theorem execDmaDescriptorExecute_frame {P : Part → Prop} {s0 s : State} (h : Frame P s0 s) (a_c : Fin 8) (a_fetched : Sys2Proof.HostCpl) (hp : Sub 5387518989497419907138026940738 P) :
    AnswersIn P s0 (execDmaDescriptorExecute a_c a_fetched s) := by
  refine ⟨_, rfl, ?_⟩
  extract_lets -merge -useContext -underBinder +onlyGivenNames x0
  refine Frame.ite (fun _ => ?_) (fun _ => ?_)
  · exact h
  · extract_lets -merge -useContext -underBinder +onlyGivenNames x1
    extract_lets -merge -useContext -underBinder +onlyGivenNames x2
    have h2 : ∀ w2_0, Frame P s0 (x2 w2_0) := by
      intro w2_0
      unfold x2
      extract_lets -merge -useContext -underBinder +onlyGivenNames x3
      extract_lets -merge -useContext -underBinder +onlyGivenNames x4
      refine Frame.ite (fun _ => ?_) (fun _ => ?_)
      · exact h
      · extract_lets -merge -useContext -underBinder +onlyGivenNames x5
        have h5 : Frame P s0 x5 := by
          unfold x5
          refine State.setDma_frame ?_ _ _ (Sub.le (by decide) hp)
          exact h
        refine Frame.ite (fun _ => ?_) (fun _ => ?_)
        · refine State.dmaFail_frame ?_ _ _ _ (Sub.le (by decide) hp)
          exact h5
        · refine State.dmaPump_frame ?_ _ _ (Sub.le (by decide) hp)
          exact h5
    extract_lets -merge -useContext -underBinder +onlyGivenNames x6
    have h6 : ∀ w6_0, Frame P s0 (x6 w6_0) := by
      intro w6_0
      unfold x6
      refine State.dmaFail_frame ?_ _ _ _ (Sub.le (by decide) hp)
      refine State.setDma_frame ?_ _ _ (Sub.le (by decide) hp)
      exact h
    refine Frame.ite (fun _ => ?_) (fun _ => ?_)
    · split
      · exact h2 _
      · exact h6 _
    · refine Frame.ite (fun _ => ?_) (fun _ => ?_)
      · exact h2 _
      · exact h6 _

theorem State.dmaWriteBack_frame {P : Part → Prop} {s0 s : State} (h : Frame P s0 s) (a_c : ℕ) (a_status : ℕ) (a_bytes : ℕ) (hp : Sub 66560 P) :
    Frame P s0 (State.dmaWriteBack s a_c a_status a_bytes) := by
  unfold State.dmaWriteBack
  extract_lets -merge -useContext -underBinder +onlyGivenNames x0
  extract_lets -merge -useContext -underBinder +onlyGivenNames x1
  refine Frame.ite (fun _ => ?_) (fun _ => ?_)
  · refine State.sendTlp_frame ?_ _ (Sub.le (by decide) hp)
    exact h
  · refine Frame.ite (fun _ => ?_) (fun _ => ?_)
    · refine State.memPut_frame ?_ _ _ (Sub.le (by decide) hp)
      exact h
    · exact h

theorem execDmaDescriptorComplete_frame {P : Part → Prop} {s0 s : State} (h : Frame P s0 s) (a_c : Fin 8) (hp : Sub 1511231070501780561538306 P) :
    AnswersIn P s0 (execDmaDescriptorComplete a_c s) := by
  refine ⟨_, rfl, ?_⟩
  extract_lets -merge -useContext -underBinder +onlyGivenNames x0
  extract_lets -merge -useContext -underBinder +onlyGivenNames x1
  extract_lets -merge -useContext -underBinder +onlyGivenNames x2
  refine Frame.ite (fun _ => ?_) (fun _ => ?_)
  · exact h
  · split
    · refine Frame.ite (fun _ => ?_) (fun _ => ?_)
      · exact h
      · extract_lets -merge -useContext -underBinder +onlyGivenNames x4
        have h4 : Frame P s0 x4 := by
          unfold x4
          refine State.setDma_frame ?_ _ _ (Sub.le (by decide) hp)
          refine State.dmaWriteBack_frame ?_ _ _ _ (Sub.le (by decide) hp)
          exact h
        extract_lets -merge -useContext -underBinder +onlyGivenNames x5
        have h5 : Frame P s0 x5 := by
          unfold x5
          refine State.wr_frame ?_ _ _ (Reg.dmaDcStatus_in _ (hp .regDma rfl)) (Sub.le (by decide) hp)
          refine State.wr_frame ?_ _ _ (Reg.dmaDcCtrl_in _ (hp .regDma rfl)) (Sub.le (by decide) hp)
          exact h4
        refine State.post_frame ?_ _ _ _ _ _ _ _ _ (Sub.le (by decide) hp)
        refine State.raise_frame ?_ _ _ (Sub.le (by decide) hp)
        exact h5
    · refine Frame.ite (fun _ => ?_) (fun _ => ?_)
      · exact h
      · extract_lets -merge -useContext -underBinder +onlyGivenNames x7
        have h7 : Frame P s0 x7 := by
          unfold x7
          refine State.setDma_frame ?_ _ _ (Sub.le (by decide) hp)
          refine State.dmaWriteBack_frame ?_ _ _ _ (Sub.le (by decide) hp)
          exact h
        extract_lets -merge -useContext -underBinder +onlyGivenNames x8
        have h8 : Frame P s0 x8 := by
          unfold x8
          refine State.wr_frame ?_ _ _ (Reg.dmaDcHead_in _ (hp .regDma rfl)) (Sub.le (by decide) hp)
          refine State.setFld_frame ?_ _ _ _ _ (Reg.dmaDcStatus_in _ (hp .regDma rfl)) (Sub.le (by decide) hp)
          exact h7
        refine Frame.ite (fun _ => ?_) (fun _ => ?_)
        · refine State.post_frame ?_ _ _ _ _ _ _ _ _ (Sub.le (by decide) hp)
          refine State.raise_frame ?_ _ _ (Sub.le (by decide) hp)
          exact h8
        · exact h8

theorem State.dmaHostAbort_frame {P : Part → Prop} {s0 s : State} (h : Frame P s0 s) (a_c : ℕ) (hp : Sub 1511231072753580375223554 P) :
    Frame P s0 (State.dmaHostAbort s a_c) := by
  unfold State.dmaHostAbort
  extract_lets -merge -useContext -underBinder +onlyGivenNames x0
  extract_lets -merge -useContext -underBinder +onlyGivenNames x1
  extract_lets -merge -useContext -underBinder +onlyGivenNames x2
  have h2 : Frame P s0 x2 := by
    unfold x2
    refine Frame.ite (fun _ => ?_) (fun _ => ?_)
    · refine State.dmaWriteBack_frame ?_ _ _ _ (Sub.le (by decide) hp)
      exact h
    · exact h
  extract_lets -merge -useContext -underBinder +onlyGivenNames x3
  have h3 : Frame P s0 x3 := by
    unfold x3
    refine State.setDma_frame ?_ _ _ (Sub.le (by decide) hp)
    refine State.dmaForsake_frame ?_ _ (Sub.le (by decide) hp)
    exact h2
  extract_lets -merge -useContext -underBinder +onlyGivenNames x4
  have h4 : Frame P s0 x4 := by
    unfold x4
    refine State.wr_frame ?_ _ _ (Reg.dmaDcStatus_in _ (hp .regDma rfl)) (Sub.le (by decide) hp)
    refine State.wr_frame ?_ _ _ (Reg.dmaDcCtrl_in _ (hp .regDma rfl)) (Sub.le (by decide) hp)
    exact h3
  extract_lets -merge -useContext -underBinder +onlyGivenNames x5
  have h5 : Frame P s0 x5 := by
    unfold x5
    refine State.raise_frame ?_ _ _ (Sub.le (by decide) hp)
    exact h4
  refine Frame.ite (fun _ => ?_) (fun _ => ?_)
  · refine State.post_frame ?_ _ _ _ _ _ _ _ _ (Sub.le (by decide) hp)
    exact h5
  · exact h5

theorem State.setHost_frame {P : Part → Prop} {s0 s : State} (h : Frame P s0 s) (a_f : Sys2Proof.Machine.HostSt → Sys2Proof.Machine.HostSt) (hp : Sub 4503599627370496 P) :
    Frame P s0 (State.setHost s a_f) := by
  unfold State.setHost
  refine Frame.set_host ?_ (hp .host rfl) _
  exact h

theorem execPerstDeassert_frame {P : Part → Prop} {s0 s : State} (h : Frame P s0 s)  (hp : Sub 4503599627370496 P) :
    AnswersIn P s0 (execPerstDeassert s) := by
  refine ⟨_, rfl, ?_⟩
  refine Frame.ite (fun _ => ?_) (fun _ => ?_)
  · refine State.setHost_frame ?_ _ (Sub.le (by decide) hp)
    exact h
  · exact h

theorem execCfgRetryTimeout_frame {P : Part → Prop} {s0 s : State} (h : Frame P s0 s)  (hp : Sub 4503599627370496 P) :
    AnswersIn P s0 (execCfgRetryTimeout s) := by
  refine ⟨_, rfl, ?_⟩
  refine Frame.ite (fun _ => ?_) (fun _ => ?_)
  · refine State.setHost_frame ?_ _ (Sub.le (by decide) hp)
    exact h
  · exact h

theorem State.msixRelease_frame {P : Part → Prop} {s0 s : State} (h : Frame P s0 s) (a_v : ℕ) (hp : Sub 73728 P) :
    Frame P s0 (State.msixRelease s a_v) := by
  unfold State.msixRelease
  extract_lets -merge -useContext -underBinder +onlyGivenNames x0
  refine Frame.ite (fun _ => ?_) (fun _ => ?_)
  · refine State.sendTlp_frame ?_ _ (Sub.le (by decide) hp)
    refine Frame.set_msixPba ?_ (hp .msixPba rfl) _
    exact h
  · exact h

theorem execHostConfigRequest_frame {P : Part → Prop} {s0 s : State} (h : Frame P s0 s) (a_q : Sys2Proof.HostConfig) (hp : Sub 4503599627493376 P) :
    AnswersIn P s0 (execHostConfigRequest a_q s) := by
  refine ⟨_, rfl, ?_⟩
  refine Frame.ite (fun _ => ?_) (fun _ => ?_)
  · exact h
  · refine Frame.ite (fun _ => ?_) (fun _ => ?_)
    · refine State.sendTlp_frame ?_ _ (Sub.le (by decide) hp)
      exact h
    · extract_lets -merge -useContext -underBinder +onlyGivenNames x0
      have h0 : Frame P s0 x0 := by
        unfold x0
        refine State.sendTlp_frame ?_ _ (Sub.le (by decide) hp)
        exact h
      split
      · exact h0
      · refine State.setHost_frame ?_ _ (Sub.le (by decide) hp)
        exact h0
      · refine State.setHost_frame ?_ _ (Sub.le (by decide) hp)
        exact h0
      · extract_lets -merge -useContext -underBinder +onlyGivenNames x5
        have h5 : Frame P s0 x5 := by
          unfold x5
          refine Frame.set_msixEnable_msixFuncMask ?_ (hp .msixEnable rfl) (hp .msixFuncMask rfl) _ _
          exact h0
        refine Frame.foldl ?_ (fun y6 a6 h6 => ?_)
        · exact h5
        · refine State.msixRelease_frame ?_ _ (Sub.le (by decide) hp)
          exact h6

theorem execMsixUnmask_frame {P : Part → Prop} {s0 s : State} (h : Frame P s0 s) (a_v : Fin 64) (hp : Sub 77824 P) :
    AnswersIn P s0 (execMsixUnmask a_v s) := by
  refine ⟨_, rfl, ?_⟩
  extract_lets -merge -useContext -underBinder +onlyGivenNames x0
  extract_lets -merge -useContext -underBinder +onlyGivenNames x1
  extract_lets -merge -useContext -underBinder +onlyGivenNames x2
  have h2 : Frame P s0 x2 := by
    unfold x2
    refine Frame.set_msix ?_ (hp .msix rfl) _
    exact h
  refine State.msixRelease_frame ?_ _ (Sub.le (by decide) hp)
  exact h2

theorem State.hostReadError_frame {P : Part → Prop} {s0 s : State} (h : Frame P s0 s) (a_node : ℕ) (a_addr : ℕ) (a_status : ℕ) (a_len : ℕ) (a_answer : Bool) (hp : Sub 9671480343893328236060674 P) :
    Frame P s0 (State.hostReadError s a_node a_addr a_status a_len a_answer) := by
  unfold State.hostReadError
  extract_lets -merge -useContext -underBinder +onlyGivenNames x0
  have h0 : Frame P s0 x0 := by
    unfold x0
    refine State.wr_frame ?_ _ _ (Reg.hostRdErrAddrHi_in (hp .regHost rfl)) (Sub.le (by decide) hp)
    refine State.wr_frame ?_ _ _ (Reg.hostRdErrAddrLo_in (hp .regHost rfl)) (Sub.le (by decide) hp)
    refine State.wr_frame ?_ _ _ (Reg.hostRdErrStatus_in (hp .regHost rfl)) (Sub.le (by decide) hp)
    exact h
  extract_lets -merge -useContext -underBinder +onlyGivenNames x1
  have h1 : Frame P s0 x1 := by
    unfold x1
    refine State.raise_frame ?_ _ _ (Sub.le (by decide) hp)
    refine State.bump_frame ?_ _ (Reg.hostCntRdErr_in (hp .regHost rfl)) (Sub.le (by decide) hp)
    exact h0
  refine Frame.ite (fun _ => ?_) (fun _ => ?_)
  · exact h1
  · refine Frame.ite (fun _ => ?_) (fun _ => ?_)
    · refine State.sendTlp_frame ?_ _ (Sub.le (by decide) hp)
      exact h1
    · refine State.sendTlp_frame ?_ _ (Sub.le (by decide) hp)
      exact h1

theorem State.hostRead_frame {P : Part → Prop} {s0 s : State} (h : Frame P s0 s) (a_bar : Sys2Proof.HostBar) (a_off : ℕ) (a_len : ℕ) (hp : Sub 5387528358674823259923717237090 P) :
    Frame P s0 (State.hostRead s a_bar a_off a_len) := by
  unfold State.hostRead
  split
  · extract_lets -merge -useContext -underBinder +onlyGivenNames x1
    extract_lets -merge -useContext -underBinder +onlyGivenNames x2
    refine State.sendTlp_frame ?_ _ (Sub.le (by decide) hp)
    exact h
  · extract_lets -merge -useContext -underBinder +onlyGivenNames x4
    refine State.hostReadError_frame ?_ _ _ _ _ _ (Sub.le (by decide) hp)
    exact h
  · refine Frame.ite (fun _ => ?_) (fun _ => ?_)
    · refine State.hostReadError_frame ?_ _ _ _ _ _ (Sub.le (by decide) hp)
      refine State.raise_frame ?_ _ _ (Sub.le (by decide) hp)
      refine State.qualFail_frame ?_ _ _ _ _ _ (Reg.hostCntBadSize_in (hp .regHost rfl)) (Sub.le (by decide) hp)
      exact h
    · extract_lets -merge -useContext -underBinder +onlyGivenNames x6
      extract_lets -merge -useContext -underBinder +onlyGivenNames x7
      extract_lets -merge -useContext -underBinder +onlyGivenNames x8
      extract_lets -merge -useContext -underBinder +onlyGivenNames x9
      have h9 : Frame P s0 x9 := by
        unfold x9
        refine State.setHost_frame ?_ _ (Sub.le (by decide) hp)
        exact h
      refine Frame.foldl ?_ (fun y10 a10 h10 => ?_)
      · exact h9
      · split
        · refine State.issue_frame ?_ _ (Sub.le (by decide) hp)
          exact h10
        · exact h10

theorem State.badTlp_frame {P : Part → Prop} {s0 s : State} (h : Frame P s0 s) (a_ty : ℕ) (hp : Sub 10880408469350966624463138 P) :
    Frame P s0 (State.badTlp s a_ty) := by
  unfold State.badTlp
  refine State.raise_frame ?_ _ _ (Sub.le (by decide) hp)
  refine State.qualFail_frame ?_ _ _ _ _ _ (Reg.hostCntBadTlp_in (hp .regHost rfl)) (Sub.le (by decide) hp)
  exact h

theorem execHostMemoryRead_frame {P : Part → Prop} {s0 s : State} (h : Frame P s0 s) (a_bar : Sys2Proof.HostBar) (a_off : BitVec 30) (a_len : BitVec 10) (a_bad : Bool) (hp : Sub 5387528358674823259923717237090 P) :
    AnswersIn P s0 (execHostMemoryRead a_bar a_off a_len a_bad s) := by
  refine ⟨_, rfl, ?_⟩
  refine Frame.ite (fun _ => ?_) (fun _ => ?_)
  · exact h
  · refine Frame.ite (fun _ => ?_) (fun _ => ?_)
    · refine State.badTlp_frame ?_ _ (Sub.le (by decide) hp)
      exact h
    · refine State.hostRead_frame ?_ _ _ _ (Sub.le (by decide) hp)
      exact h

theorem State.hostAnswer_frame {P : Part → Prop} {s0 s : State} (h : Frame P s0 s) (a_user : ℕ) (a_status : ℕ) (a_data : List Sys2Proof.Byte) (hp : Sub 9671480348396927863431170 P) :
    Frame P s0 (State.hostAnswer s a_user a_status a_data) := by
  unfold State.hostAnswer
  extract_lets -merge -useContext -underBinder +onlyGivenNames x0
  extract_lets -merge -useContext -underBinder +onlyGivenNames x1
  split
  · exact h
  · extract_lets -merge -useContext -underBinder +onlyGivenNames x4
    refine Frame.ite (fun _ => ?_) (fun _ => ?_)
    · extract_lets -merge -useContext -underBinder +onlyGivenNames x5
      have h5 : Frame P s0 x5 := by
        unfold x5
        refine State.setHost_frame ?_ _ (Sub.le (by decide) hp)
        exact h
      split
      · refine State.hostReadError_frame ?_ _ _ _ _ _ (Sub.le (by decide) hp)
        exact h5
      · extract_lets -merge -useContext -underBinder +onlyGivenNames x8
        refine State.sendTlp_frame ?_ _ (Sub.le (by decide) hp)
        exact h5
    · refine State.setHost_frame ?_ _ (Sub.le (by decide) hp)
      exact h

theorem State.abandon_frame {P : Part → Prop} {s0 s : State} (h : Frame P s0 s) (a_r : Sys2Proof.Machine.HostRead) (hp : Sub 9671406561420633025019904 P) :
    Frame P s0 (State.abandon s a_r) := by
  unfold State.abandon
  refine State.bump_frame ?_ _ (Reg.hostCntAbandon_in (hp .regHost rfl)) (Sub.le (by decide) hp)
  refine State.setHost_frame ?_ _ (Sub.le (by decide) hp)
  exact h

theorem execHostReadAbandon_frame {P : Part → Prop} {s0 s : State} (h : Frame P s0 s) (a_num : ℕ) (hp : Sub 9671480348396927863431170 P) :
    AnswersIn P s0 (execHostReadAbandon a_num s) := by
  refine ⟨_, rfl, ?_⟩
  split
  · exact h
  · refine Frame.ite (fun _ => ?_) (fun _ => ?_)
    · exact h
    · extract_lets -merge -useContext -underBinder +onlyGivenNames x2
      refine State.hostReadError_frame ?_ _ _ _ _ _ (Sub.le (by decide) hp)
      refine State.abandon_frame ?_ _ (Sub.le (by decide) hp)
      exact h

theorem State.npLate_frame {P : Part → Prop} {s0 s : State} (h : Frame P s0 s) (a_hostWrite : Bool) (a_status : ℕ) (a_code : ℕ) (a_tag : ℕ) (a_node : ℕ) (a_addr : ℕ) (hp : Sub 1208999606590924013119746 P) :
    Frame P s0 (State.npLate s a_hostWrite a_status a_code a_tag a_node a_addr) := by
  unfold State.npLate
  refine State.post_frame ?_ _ _ _ _ _ _ _ _ (Sub.le (by decide) hp)
  refine State.raise_frame ?_ _ _ (Sub.le (by decide) hp)
  exact h

theorem State.msixWord_frame {P : Part → Prop} {s0 s : State} (h : Frame P s0 s) (a_i : ℕ) (a_w : Sys2Proof.Word) (hp : Sub 77824 P) :
    Frame P s0 (State.msixWord s a_i a_w) := by
  unfold State.msixWord
  refine Frame.ite (fun _ => ?_) (fun _ => ?_)
  · exact h
  · extract_lets -merge -useContext -underBinder +onlyGivenNames x0
    extract_lets -merge -useContext -underBinder +onlyGivenNames x1
    extract_lets -merge -useContext -underBinder +onlyGivenNames x2
    extract_lets -merge -useContext -underBinder +onlyGivenNames x3
    have h3 : Frame P s0 x3 := by
      unfold x3
      refine Frame.set_msix ?_ (hp .msix rfl) _
      exact h
    refine State.msixRelease_frame ?_ _ (Sub.le (by decide) hp)
    exact h3

theorem execHostMemoryWrite_frame {P : Part → Prop} {s0 s : State} (h : Frame P s0 s) (a_bar : Sys2Proof.HostBar) (a_off : BitVec 30) (a_data : List Sys2Proof.Byte) (a_bad : Bool) (hp : Sub 5387528358674818756324089870690 P) :
    AnswersIn P s0 (execHostMemoryWrite a_bar a_off a_data a_bad s) := by
  refine ⟨_, rfl, ?_⟩
  extract_lets -merge -useContext -underBinder +onlyGivenNames x0
  extract_lets -merge -useContext -underBinder +onlyGivenNames x1
  refine Frame.ite (fun _ => ?_) (fun _ => ?_)
  · exact h
  · refine Frame.ite (fun _ => ?_) (fun _ => ?_)
    · refine State.badTlp_frame ?_ _ (Sub.le (by decide) hp)
      exact h
    · split
      · refine Frame.ite (fun _ => ?_) (fun _ => ?_)
        · refine Frame.foldl ?_ (fun y3 a3 h3 => ?_)
          · exact h
          · refine State.msixWord_frame ?_ _ _ (Sub.le (by decide) hp)
            exact h3
        · exact h
      · extract_lets -merge -useContext -underBinder +onlyGivenNames x5
        refine State.npLate_frame ?_ _ _ _ _ _ _ (Sub.le (by decide) hp)
        exact h
      · refine Frame.foldl ?_ (fun y7 a7 h7 => ?_)
        · exact h
        · refine State.issue_frame ?_ _ (Sub.le (by decide) hp)
          exact h7

theorem State.hostLink_frame {P : Part → Prop} {s0 s : State} (h : Frame P s0 s) (a_cause : ℕ) (a_queues : ℕ) (a_channels : ℕ) (hp : Sub 1208999606590924013119746 P) :
    Frame P s0 (State.hostLink s a_cause a_queues a_channels) := by
  unfold State.hostLink
  extract_lets -merge -useContext -underBinder +onlyGivenNames x0
  refine State.post_frame ?_ _ _ _ _ _ _ _ _ (Sub.le (by decide) hp)
  exact h

theorem execHostLinkUp_frame {P : Part → Prop} {s0 s : State} (h : Frame P s0 s) (a_speed : Fin 4) (a_width : Fin 8) (hp : Sub 1208999611094523640490242 P) :
    AnswersIn P s0 (execHostLinkUp a_speed a_width s) := by
  refine ⟨_, rfl, ?_⟩
  refine Frame.ite (fun _ => ?_) (fun _ => ?_)
  · exact h
  · extract_lets -merge -useContext -underBinder +onlyGivenNames x0
    have h0 : Frame P s0 x0 := by
      unfold x0
      refine State.setHost_frame ?_ _ (Sub.le (by decide) hp)
      exact h
    refine State.hostLink_frame ?_ _ _ _ (Sub.le (by decide) hp)
    refine State.raise_frame ?_ _ _ (Sub.le (by decide) hp)
    exact h0

theorem State.hostReset_frame {P : Part → Prop} {s0 s : State} (h : Frame P s0 s) (a_cause : Sys2Proof.HostReset) (hp : Sub 10141215984463469386187025939714 P) :
    Frame P s0 (State.hostReset s a_cause) := by
  unfold State.hostReset
  extract_lets -merge -useContext -underBinder +onlyGivenNames x0
  have h0 : Frame P s0 x0 := by
    unfold x0
    refine Frame.foldl ?_ (fun y1 a1 h1 => ?_)
    · exact h
    · refine State.abandon_frame ?_ _ (Sub.le (by decide) hp)
      exact h1
  extract_lets -merge -useContext -underBinder +onlyGivenNames x2
  have h2 : Frame P s0 x2 := by
    unfold x2
    refine Frame.set_msix_msixPba_msixEnable_msixFuncMask ?_ (hp .msix rfl) (hp .msixPba rfl) (hp .msixEnable rfl) (hp .msixFuncMask rfl) _ _ _ _
    exact h0
  extract_lets -merge -useContext -underBinder +onlyGivenNames x3
  have h3 : Frame P s0 x3 := by
    unfold x3
    refine Frame.foldl_mem ?_ (fun y4 a4 m4 h4 => ?_)
    · exact h2
    · refine State.wr_frame ?_ _ _ (Reg.hostWinBase_in _ (by have := mem_upFrom m4; omega) (hp .regHost rfl)) (Sub.le (by decide) hp)
      refine State.wr_frame ?_ _ _ (Reg.hostWinCtrl_in _ (by have := mem_upFrom m4; omega) (hp .regHost rfl)) (Sub.le (by decide) hp)
      exact h4
  extract_lets -merge -useContext -underBinder +onlyGivenNames x5
  have h5 : Frame P s0 x5 := by
    unfold x5
    refine State.setFld_frame ?_ _ _ _ _ (Reg.hostCfg_in (hp .regHost rfl)) (Sub.le (by decide) hp)
    exact h3
  extract_lets -merge -useContext -underBinder +onlyGivenNames x6
  extract_lets -merge -useContext -underBinder +onlyGivenNames x7
  have h7 : Frame P s0 x7 := by
    unfold x7
    refine Frame.foldl_mem ?_ (fun y8 a8 m8 h8 => ?_)
    · exact h5
    · refine State.setFld_frame ?_ _ _ _ _ (Reg.evqQCfg_in _ (by have := mem_upFrom (List.mem_filter.mp m8).1; omega) (hp .evqCfg rfl)) (Sub.le (by decide) hp)
      exact h8
  extract_lets -merge -useContext -underBinder +onlyGivenNames x9
  extract_lets -merge -useContext -underBinder +onlyGivenNames x10
  have h10 : Frame P s0 x10 := by
    unfold x10
    refine Frame.foldl ?_ (fun y11 a11 h11 => ?_)
    · exact h7
    · refine State.dmaHostAbort_frame ?_ _ (Sub.le (by decide) hp)
      exact h11
  extract_lets -merge -useContext -underBinder +onlyGivenNames x12
  extract_lets -merge -useContext -underBinder +onlyGivenNames x13
  have h13 : Frame P s0 x13 := by
    unfold x13
    refine Frame.ite (fun _ => ?_) (fun _ => ?_)
    · refine State.raise_frame ?_ _ _ (Sub.le (by decide) hp)
      exact h10
    · exact h10
  extract_lets -merge -useContext -underBinder +onlyGivenNames x14
  have h14 : Frame P s0 x14 := by
    unfold x14
    refine State.setHost_frame ?_ _ (Sub.le (by decide) hp)
    exact h13
  extract_lets -merge -useContext -underBinder +onlyGivenNames x15
  extract_lets -merge -useContext -underBinder +onlyGivenNames x16
  refine State.hostLink_frame ?_ _ _ _ (Sub.le (by decide) hp)
  refine State.raise_frame ?_ _ _ (Sub.le (by decide) hp)
  refine State.bump_frame ?_ _ (Reg.hostCntHostReset_in (hp .regHost rfl)) (Sub.le (by decide) hp)
  exact h14

theorem execHostReset_frame {P : Part → Prop} {s0 s : State} (h : Frame P s0 s) (a_cause : Sys2Proof.HostReset) (hp : Sub 10141215984463469386187025939714 P) :
    AnswersIn P s0 (execHostReset a_cause s) := by
  refine ⟨_, rfl, ?_⟩
  refine State.hostReset_frame ?_ _ (Sub.le (by decide) hp)
  exact h

theorem execHostCompletionReceive_frame {P : Part → Prop} {s0 s : State} (h : Frame P s0 s) (a_c : Fin 8) (a_off : ℕ) (a_r : Sys2Proof.HostCpl) (hp : Sub 5387518989497419907138026940738 P) :
    AnswersIn P s0 (execHostCompletionReceive a_c a_off a_r s) := by
  refine ⟨_, rfl, ?_⟩
  refine Frame.ite (fun _ => ?_) (fun _ => ?_)
  · split
    · refine State.dmaPumpAll_frame ?_  (Sub.le (by decide) hp)
      refine State.dmaAnswer_frame ?_ _ _ _ _ (Sub.le (by decide) hp)
      exact h
    · refine State.dmaPumpAll_frame ?_  (Sub.le (by decide) hp)
      refine State.dmaAnswer_frame ?_ _ _ _ _ (Sub.le (by decide) hp)
      exact h
  · exact h

theorem execHostReadTimeout_frame {P : Part → Prop} {s0 s : State} (h : Frame P s0 s) (a_c : Fin 8) (a_off : ℕ) (hp : Sub 5387528660906282667180638284130 P) :
    AnswersIn P s0 (execHostReadTimeout a_c a_off s) := by
  refine ⟨_, rfl, ?_⟩
  extract_lets -merge -useContext -underBinder +onlyGivenNames x0
  refine Frame.ite (fun _ => ?_) (fun _ => ?_)
  · extract_lets -merge -useContext -underBinder +onlyGivenNames x1
    refine State.dmaPumpAll_frame ?_  (Sub.le (by decide) hp)
    refine State.dmaAnswer_frame ?_ _ _ _ _ (Sub.le (by decide) hp)
    refine State.raise_frame ?_ _ _ (Sub.le (by decide) hp)
    refine State.qualFail_frame ?_ _ _ _ _ _ (Reg.hostCntCplTimeout_in (hp .regHost rfl)) (Sub.le (by decide) hp)
    exact h
  · exact h

theorem State.coreFault_frame {P : Part → Prop} {s0 s : State} (h : Frame P s0 s) (a_n : ℕ) (a_status : ℕ) (a_dst : BitVec 16) (a_addr : BitVec 48) (hp : Sub 18014398509481984 P) :
    Frame P s0 (State.coreFault s a_n a_status a_dst a_addr) := by
  unfold State.coreFault
  extract_lets -merge -useContext -underBinder +onlyGivenNames x0
  refine Frame.set_cores ?_ (hp .cores rfl) _
  exact h

theorem State.answer_frame {P : Part → Prop} {s0 s : State} (h : Frame P s0 s) (a_o : Sys2Proof.Machine.OpenReq) (a_tag : ℕ) (a_status : ℕ) (a_data : List Sys2Proof.Byte) (hp : Sub 5387528660903999342169561442626 P) :
    Frame P s0 (State.answer s a_o a_tag a_status a_data) := by
  unfold State.answer
  extract_lets -merge -useContext -underBinder +onlyGivenNames x0
  refine Frame.ite (fun _ => ?_) (fun _ => ?_)
  · refine Frame.ite (fun _ => ?_) (fun _ => ?_)
    · refine State.hostAnswer_frame ?_ _ _ _ (Sub.le (by decide) hp)
      exact h
    · refine Frame.ite (fun _ => ?_) (fun _ => ?_)
      · exact h
      · refine State.npLate_frame ?_ _ _ _ _ _ _ (Sub.le (by decide) hp)
        exact h
  · refine Frame.ite (fun _ => ?_) (fun _ => ?_)
    · refine State.dmaAnswer_frame ?_ _ _ _ _ (Sub.le (by decide) hp)
      exact h
    · extract_lets -merge -useContext -underBinder +onlyGivenNames x1
      have h1 : Frame P s0 x1 := by
        unfold x1
        refine State.setXbr_frame ?_ _ (Sub.le (by decide) hp)
        exact h
      refine Frame.ite (fun _ => ?_) (fun _ => ?_)
      · exact h1
      · refine Frame.ite (fun _ => ?_) (fun _ => ?_)
        · refine State.npLate_frame ?_ _ _ _ _ _ _ (Sub.le (by decide) hp)
          exact h1
        · refine State.coreFault_frame ?_ _ _ _ _ (Sub.le (by decide) hp)
          exact h1

theorem State.lateCompletion_frame {P : Part → Prop} {s0 s : State} (h : Frame P s0 s) (a_source : ℕ) (a_b : List Sys2Proof.Byte) (hp : Sub 5387518687265955996281478523138 P) :
    Frame P s0 (State.lateCompletion s a_source a_b) := by
  unfold State.lateCompletion
  extract_lets -merge -useContext -underBinder +onlyGivenNames x0
  extract_lets -merge -useContext -underBinder +onlyGivenNames x1
  have h1 : Frame P s0 x1 := by
    unfold x1
    refine Frame.ite (fun _ => ?_) (fun _ => ?_)
    · refine State.bump_frame ?_ _ (Reg.xbrCntLateCpl_in (hp .regXbr rfl)) (Sub.le (by decide) hp)
      exact h
    · refine State.npLate_frame ?_ _ _ _ _ _ _ (Sub.le (by decide) hp)
      exact h
  refine Frame.ite (fun _ => ?_) (fun _ => ?_)
  · refine State.sendDiscard_frame ?_ _ _ _ _ _ (Sub.le (by decide) hp)
    exact h1
  · exact h1

theorem execCompletionReceive_frame {P : Part → Prop} {s0 s : State} (h : Frame P s0 s)  (hp : Sub 5387528660903999342169561442626 P) :
    AnswersIn P s0 (execCompletionReceive s) := by
  refine ⟨_, rfl, ?_⟩
  split
  · exact h
  · extract_lets -merge -useContext -underBinder +onlyGivenNames x2
    extract_lets -merge -useContext -underBinder +onlyGivenNames x3
    extract_lets -merge -useContext -underBinder +onlyGivenNames x4
    have h4 : Frame P s0 x4 := by
      unfold x4
      refine State.setXbr_frame ?_ _ (Sub.le (by decide) hp)
      exact h
    extract_lets -merge -useContext -underBinder +onlyGivenNames x5
    extract_lets -merge -useContext -underBinder +onlyGivenNames x6
    extract_lets -merge -useContext -underBinder +onlyGivenNames x7
    extract_lets -merge -useContext -underBinder +onlyGivenNames x8
    extract_lets -merge -useContext -underBinder +onlyGivenNames x9
    extract_lets -merge -useContext -underBinder +onlyGivenNames x10
    split
    · refine Frame.ite (fun _ => ?_) (fun _ => ?_)
      · refine Frame.ite (fun _ => ?_) (fun _ => ?_)
        · refine State.setTag_frame ?_ _ _ (Sub.le (by decide) hp)
          exact h4
        · extract_lets -merge -useContext -underBinder +onlyGivenNames x12
          extract_lets -merge -useContext -underBinder +onlyGivenNames x13
          extract_lets -merge -useContext -underBinder +onlyGivenNames x14
          have h14 : Frame P s0 x14 := by
            unfold x14
            refine State.setTag_frame ?_ _ _ (Sub.le (by decide) hp)
            exact h4
          extract_lets -merge -useContext -underBinder +onlyGivenNames x15
          have h15 : Frame P s0 x15 := by
            unfold x15
            refine State.answer_frame ?_ _ _ _ _ (Sub.le (by decide) hp)
            exact h14
          refine Frame.ite (fun _ => ?_) (fun _ => ?_)
          · refine State.sendDiscard_frame ?_ _ _ _ _ _ (Sub.le (by decide) hp)
            exact h15
          · exact h15
      · refine State.lateCompletion_frame ?_ _ _ (Sub.le (by decide) hp)
        exact h4
    · refine State.lateCompletion_frame ?_ _ _ (Sub.le (by decide) hp)
      exact h4

theorem execNpTimeout_frame {P : Part → Prop} {s0 s : State} (h : Frame P s0 s) (a_t : Fin 512) (hp : Sub 5387528660903999342169561442626 P) :
    AnswersIn P s0 (execNpTimeout a_t s) := by
  refine ⟨_, rfl, ?_⟩
  split
  · exact h
  · refine Frame.ite (fun _ => ?_) (fun _ => ?_)
    · exact h
    · extract_lets -merge -useContext -underBinder +onlyGivenNames x2
      extract_lets -merge -useContext -underBinder +onlyGivenNames x3
      extract_lets -merge -useContext -underBinder +onlyGivenNames x4
      extract_lets -merge -useContext -underBinder +onlyGivenNames x5
      have h5 : Frame P s0 x5 := by
        unfold x5
        refine State.bump_frame ?_ _ (Reg.xbrCntTimeout_in (hp .regXbr rfl)) (Sub.le (by decide) hp)
        refine State.setTag_frame ?_ _ _ (Sub.le (by decide) hp)
        exact h
      extract_lets -merge -useContext -underBinder +onlyGivenNames x6
      have h6 : Frame P s0 x6 := by
        unfold x6
        refine State.answer_frame ?_ _ _ _ _ (Sub.le (by decide) hp)
        exact h5
      refine Frame.ite (fun _ => ?_) (fun _ => ?_)
      · refine State.sendDiscard_frame ?_ _ _ _ _ _ (Sub.le (by decide) hp)
        exact h6
      · exact h6

theorem State.setClk_frame {P : Part → Prop} {s0 s : State} (h : Frame P s0 s) (a_f : Sys2Proof.Machine.ClkSt → Sys2Proof.Machine.ClkSt) (hp : Sub 4611686018427387904 P) :
    Frame P s0 (State.setClk s a_f) := by
  unfold State.setClk
  refine Frame.set_clk ?_ (hp .clk rfl) _
  exact h

theorem State.timeWakes_frame {P : Part → Prop} {s0 s : State} (h : Frame P s0 s)  (hp : Sub 1208999606590924013120258 P) :
    Frame P s0 (State.timeWakes s) := by
  unfold State.timeWakes
  extract_lets -merge -useContext -underBinder +onlyGivenNames x0
  have h0 : Frame P s0 x0 := by
    unfold x0
    refine State.loseSync_frame ?_  (Sub.le (by decide) hp)
    exact h
  refine Frame.set_time ?_ (hp .time rfl) _
  exact h0

theorem State.holdEnds_frame {P : Part → Prop} {s0 s : State} (h : Frame P s0 s) (a_cause : ℕ) (hp : Sub 1209004218287937556785922 P) :
    Frame P s0 (State.holdEnds s a_cause) := by
  unfold State.holdEnds
  refine Frame.ite (fun _ => ?_) (fun _ => ?_)
  · refine State.timeWakes_frame ?_  (Sub.le (by decide) hp)
    refine State.hubRelease_frame ?_  (Sub.le (by decide) hp)
    exact h
  · exact h

theorem State.serdesStop_frame {P : Part → Prop} {s0 s : State} (h : Frame P s0 s)  (hp : Sub 322177531522304852070500608290 P) :
    Frame P s0 (State.serdesStop s) := by
  unfold State.serdesStop
  extract_lets -merge -useContext -underBinder +onlyGivenNames x0
  have h0 : Frame P s0 x0 := by
    unfold x0
    refine Frame.foldl ?_ (fun y1 a1 h1 => ?_)
    · exact h
    · extract_lets -merge -useContext -underBinder +onlyGivenNames x2
      extract_lets -merge -useContext -underBinder +onlyGivenNames x3
      have h3 : Frame P s0 x3 := by
        unfold x3
        refine Frame.ite (fun _ => ?_) (fun _ => ?_)
        · refine State.linkLeaveUp_frame ?_ _ _ _ (Sub.le (by decide) hp)
          exact h1
        · refine Frame.ite (fun _ => ?_) (fun _ => ?_)
          · refine State.linkFail_frame ?_ _ _ (Sub.le (by decide) hp)
            exact h1
          · exact h1
      refine State.setLink_frame ?_ _ _ (Sub.le (by decide) hp)
      exact h3
  refine State.setPlk_frame ?_ _ (Sub.le (by decide) hp)
  refine State.plkLeaveUp_frame ?_ _ _ (Sub.le (by decide) hp)
  exact h0

theorem State.pcieStop_frame {P : Part → Prop} {s0 s : State} (h : Frame P s0 s)  (hp : Sub 10141215984463469386187025939714 P) :
    Frame P s0 (State.pcieStop s) := by
  unfold State.pcieStop
  refine Frame.ite (fun _ => ?_) (fun _ => ?_)
  · refine State.hostReset_frame ?_ _ (Sub.le (by decide) hp)
    exact h
  · exact h

theorem State.pairsStop_frame {P : Part → Prop} {s0 s : State} (h : Frame P s0 s)  (hp : Sub 158456325028546689585597382656 P) :
    Frame P s0 (State.pairsStop s) := by
  unfold State.pairsStop
  refine Frame.foldl ?_ (fun y0 a0 h0 => ?_)
  · exact h
  · refine Frame.ite (fun _ => ?_) (fun _ => ?_)
    · exact h0
    · extract_lets -merge -useContext -underBinder +onlyGivenNames x1
      extract_lets -merge -useContext -underBinder +onlyGivenNames x2
      have h2 : Frame P s0 x2 := by
        unfold x2
        refine State.setFld_frame ?_ _ _ _ _ (Reg.stwStatus_in (hp .regStw rfl)) (Sub.le (by decide) hp)
        exact h0
      refine Frame.set_cores ?_ (hp .cores rfl) _
      exact h2

theorem State.clkFail_frame {P : Part → Prop} {s0 s : State} (h : Frame P s0 s) (a_check : ℕ) (a_item : ℕ) (a_value : Sys2Proof.Word) (a_counter : ℕ) (K_a_counter : RegIn P a_counter) (hp : Sub 1209001912433933226813730 P) :
    Frame P s0 (State.clkFail s a_check a_item a_value a_counter) := by
  unfold State.clkFail
  refine Frame.ite (fun _ => ?_) (fun _ => ?_)
  · refine State.qualFail_frame ?_ _ _ _ _ _ K_a_counter (Sub.le (by decide) hp)
    refine State.raise_frame ?_ _ _ (Sub.le (by decide) hp)
    exact h
  · refine State.bump_frame ?_ _ K_a_counter (Sub.le (by decide) hp)
    exact h

theorem State.clkClear_frame {P : Part → Prop} {s0 s : State} (h : Frame P s0 s) (a_check : ℕ) (a_item : ℕ) (a_value : Sys2Proof.Word) (hp : Sub 1209001912433933226813730 P) :
    Frame P s0 (State.clkClear s a_check a_item a_value) := by
  unfold State.clkClear
  refine Frame.ite (fun _ => ?_) (fun _ => ?_)
  · refine State.qualClear_frame ?_ _ _ _ _ (Sub.le (by decide) hp)
    refine State.raise_frame ?_ _ _ (Sub.le (by decide) hp)
    exact h
  · exact h

theorem execClockMonitorFail_frame {P : Part → Prop} {s0 s : State} (_ : Frame P s0 s) (a_n : Fin 4) (a_hz : Sys2Proof.Word) (hp : Sub 40564819207303340847894502572031 P) :
    AnswersIn P s0 (execClockMonitorFail a_n a_hz s) := ⟨_, rfl, Frame.all hp⟩

theorem State.reportClears_frame {P : Part → Prop} {s0 s : State} (h : Frame P s0 s) (a_hz : Sys2Proof.Word) (hp : Sub 4611686018427387904 P) :
    Frame P s0 (State.reportClears s a_hz) := by
  unfold State.reportClears
  refine State.setClk_frame ?_ _ (Sub.le (by decide) hp)
  exact h

theorem execClockMonitorClear_frame {P : Part → Prop} {s0 s : State} (h : Frame P s0 s) (a_n : Fin 4) (a_hz : Sys2Proof.Word) (hp : Sub 1209006524130946770479906 P) :
    AnswersIn P s0 (execClockMonitorClear a_n a_hz s) := by
  refine ⟨_, rfl, ?_⟩
  extract_lets -merge -useContext -underBinder +onlyGivenNames x0
  refine Frame.ite (fun _ => ?_) (fun _ => ?_)
  · extract_lets -merge -useContext -underBinder +onlyGivenNames x1
    have h1 : Frame P s0 x1 := by
      unfold x1
      refine State.setClk_frame ?_ _ (Sub.le (by decide) hp)
      exact h
    refine Frame.ite (fun _ => ?_) (fun _ => ?_)
    · refine State.holdEnds_frame ?_ _ (Sub.le (by decide) hp)
      refine State.reportClears_frame ?_ _ (Sub.le (by decide) hp)
      exact h1
    · refine State.clkClear_frame ?_ _ _ _ (Sub.le (by decide) hp)
      exact h1
  · exact h

theorem execPllLockLost_frame {P : Part → Prop} {s0 s : State} (_ : Frame P s0 s) (a_p : Fin 5) (a_hz : Sys2Proof.Word) (hp : Sub 40564819207303340847894502572031 P) :
    AnswersIn P s0 (execPllLockLost a_p a_hz s) := ⟨_, rfl, Frame.all hp⟩

theorem execPllRelock_frame {P : Part → Prop} {s0 s : State} (h : Frame P s0 s) (a_p : Fin 5) (a_hz : Sys2Proof.Word) (hp : Sub 1209006524130946770479906 P) :
    AnswersIn P s0 (execPllRelock a_p a_hz s) := by
  refine ⟨_, rfl, ?_⟩
  extract_lets -merge -useContext -underBinder +onlyGivenNames x0
  refine Frame.ite (fun _ => ?_) (fun _ => ?_)
  · extract_lets -merge -useContext -underBinder +onlyGivenNames x1
    have h1 : Frame P s0 x1 := by
      unfold x1
      refine State.setClk_frame ?_ _ (Sub.le (by decide) hp)
      exact h
    refine Frame.ite (fun _ => ?_) (fun _ => ?_)
    · refine State.holdEnds_frame ?_ _ (Sub.le (by decide) hp)
      refine State.reportClears_frame ?_ _ (Sub.le (by decide) hp)
      exact h1
    · refine State.clkClear_frame ?_ _ _ _ (Sub.le (by decide) hp)
      exact h1
  · exact h

theorem State.setPower_frame {P : Part → Prop} {s0 s : State} (h : Frame P s0 s) (a_p : Sys2Proof.Machine.PowerState) (hp : Sub 73786985090931433474 P) :
    Frame P s0 (State.setPower s a_p) := by
  unfold State.setPower
  refine State.raise_frame ?_ _ _ (Sub.le (by decide) hp)
  refine Frame.set_power ?_ (hp .power rfl) _
  exact h

theorem State.goFallow_frame {P : Part → Prop} {s0 s : State} (h : Frame P s0 s)  (hp : Sub 73786987289954689026 P) :
    Frame P s0 (State.goFallow s) := by
  unfold State.goFallow
  refine State.setPower_frame ?_ _ (Sub.le (by decide) hp)
  refine State.setNet_frame ?_ _ (Sub.le (by decide) hp)
  exact h

theorem State.goDormant_frame {P : Part → Prop} {s0 s : State} (_ : Frame P s0 s)  (hp : Sub 40564819207303340847894502572031 P) :
    Frame P s0 (State.goDormant s) := Frame.all hp

theorem State.stateReq_frame {P : Part → Prop} {s0 s : State} (_ : Frame P s0 s) (a_a : Sys2Proof.Agent) (a_req : ℕ) (hp : Sub 40564819207303340847894502572031 P) :
    Frame P s0 (State.stateReq s a_a a_req) := Frame.all hp

theorem execStateReqActive_frame {P : Part → Prop} {s0 s : State} (_ : Frame P s0 s) (a_a : Sys2Proof.Agent) (hp : Sub 40564819207303340847894502572031 P) :
    AnswersIn P s0 (execStateReqActive a_a s) := ⟨_, rfl, Frame.all hp⟩

theorem execStateReqFallow_frame {P : Part → Prop} {s0 s : State} (_ : Frame P s0 s) (a_a : Sys2Proof.Agent) (hp : Sub 40564819207303340847894502572031 P) :
    AnswersIn P s0 (execStateReqFallow a_a s) := ⟨_, rfl, Frame.all hp⟩

theorem execStateReqDormant_frame {P : Part → Prop} {s0 s : State} (_ : Frame P s0 s) (a_a : Sys2Proof.Agent) (hp : Sub 40564819207303340847894502572031 P) :
    AnswersIn P s0 (execStateReqDormant a_a s) := ⟨_, rfl, Frame.all hp⟩

theorem execFallowAutoWake_frame {P : Part → Prop} {s0 s : State} (h : Frame P s0 s) (a_access : Bool) (hp : Sub 73786985090931433474 P) :
    AnswersIn P s0 (execFallowAutoWake a_access s) := by
  refine ⟨_, rfl, ?_⟩
  refine Frame.ite (fun _ => ?_) (fun _ => ?_)
  · refine State.setPower_frame ?_ _ (Sub.le (by decide) hp)
    exact h
  · exact h

theorem execDormantWake_frame {P : Part → Prop} {s0 s : State} (_ : Frame P s0 s) (a_w : Sys2Proof.WakeSource) (hp : Sub 40564819207303340847894502572031 P) :
    AnswersIn P s0 (execDormantWake a_w s) := ⟨_, rfl, Frame.all hp⟩

theorem execAoPor_frame {P : Part → Prop} {s0 s : State} (_ : Frame P s0 s) (hp : Sub 40564819207303340847894502572031 P) : AnswersIn P s0 (execAoPor s) :=
  ⟨_, rfl, Frame.all hp⟩

theorem execVddAoLoss_frame {P : Part → Prop} {s0 s : State} (_ : Frame P s0 s) (hp : Sub 40564819207303340847894502572031 P) : AnswersIn P s0 (execVddAoLoss s) :=
  ⟨_, rfl, Frame.all hp⟩

theorem execHubDiePowerLoss_frame {P : Part → Prop} {s0 s : State} (_ : Frame P s0 s)  (hp : Sub 40564819207303340847894502572031 P) :
    AnswersIn P s0 (execHubDiePowerLoss s) := ⟨_, rfl, Frame.all hp⟩

theorem execRstNAssert_frame {P : Part → Prop} {s0 s : State} (_ : Frame P s0 s)  (hp : Sub 40564819207303340847894502572031 P) :
    AnswersIn P s0 (execRstNAssert s) := ⟨_, rfl, Frame.all hp⟩

theorem State.rstCmd_frame {P : Part → Prop} {s0 s : State} (_ : Frame P s0 s) (a_a : Sys2Proof.Agent) (a_v : Sys2Proof.Word) (hp : Sub 40564819207303340847894502572031 P) :
    Frame P s0 (State.rstCmd s a_a a_v) := Frame.all hp

theorem execReboot_frame {P : Part → Prop} {s0 s : State} (_ : Frame P s0 s) (a_a : Sys2Proof.Agent) (a_v : Sys2Proof.Word) (hp : Sub 40564819207303340847894502572031 P) :
    AnswersIn P s0 (execReboot a_a a_v s) := ⟨_, rfl, Frame.all hp⟩

theorem execStrapSample_frame {P : Part → Prop} {s0 s : State} (h : Frame P s0 s) (a_v : Sys2Proof.Byte) (hp : Sub 4951760161753207118023884800 P) :
    AnswersIn P s0 (execStrapSample a_v s) := by
  refine ⟨_, rfl, ?_⟩
  refine Frame.ite (fun _ => ?_) (fun _ => ?_)
  · exact h
  · refine State.wr_frame ?_ _ _ (Reg.ringStrap_in (hp .regRing rfl)) (Sub.le (by decide) hp)
    refine State.setClk_frame ?_ _ (Sub.le (by decide) hp)
    exact h

theorem ospiBuffer_all {P : Part → Prop} (h : P .regOspi) : ∀ i, i < 64 → RegIn P (Reg.ospiBuffer 0 + 4 * i) := fun i hi => by
  have := Reg.ospiBuffer_in i hi h
  have e : Reg.ospiBuffer 0 + 4 * i = Reg.ospiBuffer i := by dsimp only [Reg.ospiBuffer, pageKey]; omega
  exact e ▸ this
theorem secBuffer_all {P : Part → Prop} (h : P .regSec) : ∀ i, i < 64 → RegIn P (Reg.secBuffer 0 + 4 * i) := fun i hi => by
  have := Reg.secBuffer_in i hi h
  have e : Reg.secBuffer 0 + 4 * i = Reg.secBuffer i := by dsimp only [Reg.secBuffer, pageKey]; omega
  exact e ▸ this
theorem State.bufPut_frame {P : Part → Prop} {s0 s : State} (h : Frame P s0 s) (k i : Nat) (l : List Byte)
    (K : ∀ j, j < 64 → RegIn P (k + 4 * j)) (hp : Sub 0 P) : Frame P s0 (s.bufPut k i l) := by
  induction l generalizing s i with
  | nil => exact h
  | cons b l ih =>
    exact ih (Frame.ite (fun c => State.setFld_frame h _ _ _ _ (K _ (by omega)) (Sub.le (by decide) hp)) (fun _ => h)) (i + 1)

theorem State.flashSet_frame {P : Part → Prop} {s0 s : State} (h : Frame P s0 s) (a_a : ℕ) (a_b : Sys2Proof.Byte) (hp : Sub 144115188075855872 P) :
    Frame P s0 (State.flashSet s a_a a_b) := by
  unfold State.flashSet
  refine Frame.set_flash ?_ (hp .flash rfl) _
  exact h

theorem State.flashPut_frame {P : Part → Prop} {s0 s : State} (h : Frame P s0 s) (a : Nat) (l : List Byte) (hp : Sub 144115188075855872 P) :
    Frame P s0 (s.flashPut a l) := by
  induction l generalizing s a with
  | nil => exact h
  | cons b l ih => exact ih (State.flashSet_frame h a b (Sub.le (by decide) hp)) (a + 1)

theorem State.flashErase_frame {P : Part → Prop} {s0 s : State} (h : Frame P s0 s) (a_a : ℕ) (a_n : ℕ) (hp : Sub 144115188075855872 P) :
    Frame P s0 (State.flashErase s a_a a_n) := by
  unfold State.flashErase
  refine Frame.set_flash ?_ (hp .flash rfl) _
  exact h

theorem State.ospi_frame {P : Part → Prop} {s0 s : State} (h : Frame P s0 s) (a_fail : Bool) (a_f : Sys2Proof.Machine.State → Sys2Proof.Machine.MbxAns × Sys2Proof.Machine.State) (Ha_f : ∀ z0, Frame P s0 z0 → Frame P s0 (a_f z0).2) (hp : Sub 147573952589676412932 P) :
    Frame P s0 (State.ospi s a_fail a_f) := by
  unfold State.ospi
  refine State.mbxCommand_frame ?_ _ _ (fun y0 h0 => ?_) (Sub.le (by decide) hp)
  · exact h
  · refine Frame.ite2 (fun _ => ?_) (fun _ => ?_)
    · refine Frame.pair2 ?_
      exact h0
    · refine Ha_f _ ?_
      exact h0

theorem execOspiRead_frame {P : Part → Prop} {s0 s : State} (h : Frame P s0 s) (a_fail : Bool) (hp : Sub 154742652484625124038803460 P) :
    AnswersIn P s0 (execOspiRead a_fail s) := by
  refine ⟨_, rfl, ?_⟩
  refine State.ospi_frame ?_ _ _ (fun y0 h0 => ?_) (Sub.le (by decide) hp)
  · exact h
  · refine Frame.pair2 ?_
    refine State.bufPut_frame ?_ _ _ _ (ospiBuffer_all (hp .regOspi rfl)) (Sub.le (by decide) hp)
    exact h0

theorem execProgram_frame {P : Part → Prop} {s0 s : State} (h : Frame P s0 s) (a_fail : Bool) (hp : Sub 147718067777752268804 P) :
    AnswersIn P s0 (execProgram a_fail s) := by
  refine ⟨_, rfl, ?_⟩
  refine State.ospi_frame ?_ _ _ (fun y0 h0 => ?_) (Sub.le (by decide) hp)
  · exact h
  · refine Frame.ite2 (fun _ => ?_) (fun _ => ?_)
    · refine Frame.pair2 ?_
      exact h0
    · refine Frame.pair2 ?_
      refine State.flashPut_frame ?_ _ _ (Sub.le (by decide) hp)
      exact h0

theorem State.ospiErase_frame {P : Part → Prop} {s0 s : State} (h : Frame P s0 s) (a_n : ℕ) (hp : Sub 144115188075855872 P) :
    Frame P s0 (State.ospiErase s a_n).2 := by
  unfold State.ospiErase
  extract_lets -merge -useContext -underBinder +onlyGivenNames x0
  refine Frame.ite2 (fun _ => ?_) (fun _ => ?_)
  · refine Frame.pair2 ?_
    exact h
  · refine Frame.pair2 ?_
    refine State.flashErase_frame ?_ _ _ (Sub.le (by decide) hp)
    exact h

theorem execErase4k_frame {P : Part → Prop} {s0 s : State} (h : Frame P s0 s) (a_fail : Bool) (hp : Sub 147718067777752268804 P) :
    AnswersIn P s0 (execErase4k a_fail s) := by
  refine ⟨_, rfl, ?_⟩
  refine State.ospi_frame ?_ _ _ (fun y0 h0 => ?_) (Sub.le (by decide) hp)
  · exact h
  · refine State.ospiErase_frame ?_ _ (Sub.le (by decide) hp)
    exact h0

theorem execErase64k_frame {P : Part → Prop} {s0 s : State} (h : Frame P s0 s) (a_fail : Bool) (hp : Sub 147718067777752268804 P) :
    AnswersIn P s0 (execErase64k a_fail s) := by
  refine ⟨_, rfl, ?_⟩
  refine State.ospi_frame ?_ _ _ (fun y0 h0 => ?_) (Sub.le (by decide) hp)
  · exact h
  · refine State.ospiErase_frame ?_ _ (Sub.le (by decide) hp)
    exact h0

theorem execReadSfdp_frame {P : Part → Prop} {s0 s : State} (h : Frame P s0 s) (a_fail : Bool) (hp : Sub 154742652484625124038803460 P) :
    AnswersIn P s0 (execReadSfdp a_fail s) := by
  refine ⟨_, rfl, ?_⟩
  refine State.ospi_frame ?_ _ _ (fun y0 h0 => ?_) (Sub.le (by decide) hp)
  · exact h
  · refine Frame.pair2 ?_
    refine State.bufPut_frame ?_ _ _ _ (ospiBuffer_all (hp .regOspi rfl)) (Sub.le (by decide) hp)
    exact h0

theorem State.protWrite_frame {P : Part → Prop} {s0 s : State} (h : Frame P s0 s) (a_n : ℕ) (a_a : Sys2Proof.Agent) (a_v : Sys2Proof.Word) (hp : Sub 154742504910672534362390529 P) :
    Frame P s0 (State.protWrite s a_n a_a a_v) := by
  unfold State.protWrite
  refine Frame.ite (fun _ => ?_) (fun _ => ?_)
  · refine State.wrShown_frame ?_ _ _ _ (Reg.ospiProt_in _ (by omega) (hp .regOspi rfl)) (Sub.le (by decide) hp)
    exact h
  · exact h

theorem execProtWrite_frame {P : Part → Prop} {s0 s : State} (h : Frame P s0 s) (a_n : Fin 4) (a_a : Sys2Proof.Agent) (a_v : Sys2Proof.Word) (hp : Sub 154742504910672534362390529 P) :
    AnswersIn P s0 (execProtWrite a_n a_a a_v s) := by
  refine ⟨_, rfl, ?_⟩
  refine State.protWrite_frame ?_ _ _ _ (Sub.le (by decide) hp)
  exact h

theorem State.fuse_frame {P : Part → Prop} {s0 s : State} (h : Frame P s0 s) (a_arg : BitVec 16) (a_inRange : Bool) (a_otpFail : Bool) (a_f : Sys2Proof.Machine.State → Sys2Proof.Machine.MbxAns × Sys2Proof.Machine.State) (Ha_f : ∀ z0, Frame P s0 z0 → Frame P s0 (a_f z0).2) (hp : Sub 737869762948382064644 P) :
    Frame P s0 (State.fuse s a_arg a_inRange a_otpFail a_f) := by
  unfold State.fuse
  refine State.mbxCommand_frame ?_ _ _ (fun y0 h0 => ?_) (Sub.le (by decide) hp)
  · exact h
  · refine Frame.ite2 (fun _ => ?_) (fun _ => ?_)
    · refine Frame.pair2 ?_
      exact h0
    · refine Frame.ite2 (fun _ => ?_) (fun _ => ?_)
      · refine Frame.pair2 ?_
        exact h0
      · refine Frame.ite2 (fun _ => ?_) (fun _ => ?_)
        · refine Frame.pair2 ?_
          refine State.setFld_frame ?_ _ _ _ _ (Reg.status_in _ (hp .regStatus rfl)) (Sub.le (by decide) hp)
          exact h0
        · refine Ha_f _ ?_
          exact h0

theorem execRevoke_frame {P : Part → Prop} {s0 s : State} (h : Frame P s0 s) (a_arg : BitVec 16) (a_otpFail : Bool) (hp : Sub 738446223700685488132 P) :
    AnswersIn P s0 (execRevoke a_arg a_otpFail s) := by
  refine ⟨_, rfl, ?_⟩
  refine State.fuse_frame ?_ _ _ _ _ (fun y0 h0 => ?_) (Sub.le (by decide) hp)
  · exact h
  · refine Frame.pair2 ?_
    refine Frame.set_otp ?_ (hp .otp rfl) _
    exact h0

theorem State.rollbackTo_frame {P : Part → Prop} {s0 s : State} (h : Frame P s0 s) (a_v : ℕ) (hp : Sub 576460752303423488 P) :
    Frame P s0 (State.rollbackTo s a_v) := by
  unfold State.rollbackTo
  refine Frame.set_otp ?_ (hp .otp rfl) _
  exact h

theorem execAdvance_frame {P : Part → Prop} {s0 s : State} (h : Frame P s0 s) (a_arg : BitVec 16) (a_otpFail : Bool) (hp : Sub 738446223700685488132 P) :
    AnswersIn P s0 (execAdvance a_arg a_otpFail s) := by
  refine ⟨_, rfl, ?_⟩
  refine State.fuse_frame ?_ _ _ _ _ (fun y0 h0 => ?_) (Sub.le (by decide) hp)
  · exact h
  · refine Frame.pair2 ?_
    refine State.rollbackTo_frame ?_ _ (Sub.le (by decide) hp)
    exact h0

theorem execBlowFuse_frame {P : Part → Prop} {s0 s : State} (h : Frame P s0 s) (a_arg : BitVec 16) (a_otpFail : Bool) (hp : Sub 738446223700685488132 P) :
    AnswersIn P s0 (execBlowFuse a_arg a_otpFail s) := by
  refine ⟨_, rfl, ?_⟩
  refine State.fuse_frame ?_ _ _ _ _ (fun y0 h0 => ?_) (Sub.le (by decide) hp)
  · exact h
  · refine Frame.pair2 ?_
    refine Frame.set_otp ?_ (hp .otp rfl) _
    exact h0

theorem execShaInit_frame {P : Part → Prop} {s0 s : State} (h : Frame P s0 s)  (hp : Sub 148726874094283259908 P) :
    AnswersIn P s0 (execShaInit s) := by
  refine ⟨_, rfl, ?_⟩
  refine State.mbxCommand_frame ?_ _ _ (fun y0 h0 => ?_) (Sub.le (by decide) hp)
  · exact h
  · refine Frame.pair2 ?_
    refine Frame.set_sha ?_ (hp .sha rfl) _
    exact h0

theorem execShaUpdate_frame {P : Part → Prop} {s0 s : State} (h : Frame P s0 s) (a_arg : BitVec 16) (hp : Sub 148726874094283259908 P) :
    AnswersIn P s0 (execShaUpdate a_arg s) := by
  refine ⟨_, rfl, ?_⟩
  refine State.mbxCommand_frame ?_ _ _ (fun y0 h0 => ?_) (Sub.le (by decide) hp)
  · exact h
  · refine Frame.pair2 ?_
    refine Frame.set_sha ?_ (hp .sha rfl) _
    exact h0

theorem execShaFinal_frame {P : Part → Prop} {s0 s : State} (h : Frame P s0 s)  (hp : Sub 19807040776140036988062400516 P) :
    AnswersIn P s0 (execShaFinal s) := by
  refine ⟨_, rfl, ?_⟩
  refine State.mbxCommand_frame ?_ _ _ (fun y0 h0 => ?_) (Sub.le (by decide) hp)
  · exact h
  · refine Frame.pair2 ?_
    refine State.bufPut_frame ?_ _ _ _ (secBuffer_all (hp .regSec rfl)) (Sub.le (by decide) hp)
    exact h0

theorem execVerify_frame {P : Part → Prop} {s0 s : State} (h : Frame P s0 s)  (hp : Sub 147573952589676412932 P) :
    AnswersIn P s0 (execVerify s) := by
  refine ⟨_, rfl, ?_⟩
  refine State.mbxCommand_frame ?_ _ _ (fun y0 h0 => ?_) (Sub.le (by decide) hp)
  · exact h
  · extract_lets -merge -useContext -underBinder +onlyGivenNames x1
    refine Frame.pair2 ?_
    exact h0

theorem State.bootPost_frame {P : Part → Prop} {s0 s : State} (h : Frame P s0 s) (a_irq : ℕ) (a_ty : ℕ) (a_w4 : Sys2Proof.Word) (a_w5 : Sys2Proof.Word) (a_w6 : Sys2Proof.Word) (a_w7 : Sys2Proof.Word) (a_flags : ℕ) (hp : Sub 1209002200664309378525442 P) :
    Frame P s0 (State.bootPost s a_irq a_ty a_w4 a_w5 a_w6 a_w7 a_flags) := by
  unfold State.bootPost
  extract_lets -merge -useContext -underBinder +onlyGivenNames x0
  refine Frame.ite (fun _ => ?_) (fun _ => ?_)
  · refine State.powEmit_frame ?_ _ (Sub.le (by decide) hp)
    exact h
  · refine Frame.set_boot ?_ (hp .boot rfl) _
    exact h

theorem State.bootFlush_frame {P : Part → Prop} {s0 s : State} (h : Frame P s0 s)  (hp : Sub 1209002200664309378525442 P) :
    Frame P s0 (State.bootFlush s) := by
  unfold State.bootFlush
  extract_lets -merge -useContext -underBinder +onlyGivenNames x0
  refine Frame.foldl ?_ (fun y1 a1 h1 => ?_)
  · refine Frame.set_boot ?_ (hp .boot rfl) _
    exact h
  · refine State.powEmit_frame ?_ _ (Sub.le (by decide) hp)
    exact h1

theorem State.setBoot_frame {P : Part → Prop} {s0 s : State} (h : Frame P s0 s) (a_f : Sys2Proof.Machine.BootSt → Sys2Proof.Machine.BootSt) (hp : Sub 288230376151711744 P) :
    Frame P s0 (State.setBoot s a_f) := by
  unfold State.setBoot
  refine Frame.set_boot ?_ (hp .boot rfl) _
  exact h

theorem State.bootStatus_frame {P : Part → Prop} {s0 s : State} (h : Frame P s0 s) (a_b : Sys2Proof.Machine.Bcb) (hp : Sub 4722366482869645213696 P) :
    Frame P s0 (State.bootStatus s a_b) := by
  unfold State.bootStatus
  refine State.wr_frame ?_ _ _ (Reg.bootStatus_in (hp .regBoot rfl)) (Sub.le (by decide) hp)
  exact h

theorem State.bcbWrite_frame {P : Part → Prop} {s0 s : State} (h : Frame P s0 s) (a_b : Sys2Proof.Machine.Bcb) (hp : Sub 4722510598057721069568 P) :
    Frame P s0 (State.bcbWrite s a_b) := by
  unfold State.bcbWrite
  extract_lets -merge -useContext -underBinder +onlyGivenNames x0
  extract_lets -merge -useContext -underBinder +onlyGivenNames x1
  extract_lets -merge -useContext -underBinder +onlyGivenNames x2
  refine State.bootStatus_frame ?_ _ (Sub.le (by decide) hp)
  refine State.flashPut_frame ?_ _ _ (Sub.le (by decide) hp)
  refine State.flashErase_frame ?_ _ _ (Sub.le (by decide) hp)
  exact h

theorem State.bcbChange_frame {P : Part → Prop} {s0 s : State} (h : Frame P s0 s) (a_f : Sys2Proof.Machine.Bcb → Sys2Proof.Machine.Bcb) (hp : Sub 4722510598057721069568 P) :
    Frame P s0 (State.bcbChange s a_f) := by
  unfold State.bcbChange
  refine State.bcbWrite_frame ?_ _ (Sub.le (by decide) hp)
  exact h

theorem State.blockWrite_frame {P : Part → Prop} {s0 s : State} (h : Frame P s0 s) (a_base : ℕ) (a_i : ℕ) (a_content : List Sys2Proof.Byte) (hp : Sub 144115188075855872 P) :
    Frame P s0 (State.blockWrite s a_base a_i a_content) := by
  unfold State.blockWrite
  extract_lets -merge -useContext -underBinder +onlyGivenNames x0
  refine State.flashPut_frame ?_ _ _ (Sub.le (by decide) hp)
  refine State.flashErase_frame ?_ _ _ (Sub.le (by decide) hp)
  exact h

theorem State.slotBad_frame {P : Part → Prop} {s0 s : State} (h : Frame P s0 s) (a_kind : ℕ) (a_slot : ℕ) (a_e : Sys2Proof.Machine.BadSlot) (a_version : Sys2Proof.Word) (hp : Sub 1209002200664309378525442 P) :
    Frame P s0 (State.slotBad s a_kind a_slot a_e a_version) := by
  unfold State.slotBad
  refine State.bootPost_frame ?_ _ _ _ _ _ _ _ (Sub.le (by decide) hp)
  exact h

theorem State.markBad_frame {P : Part → Prop} {s0 s : State} (h : Frame P s0 s) (a_kind : ℕ) (a_slot : ℕ) (a_e : Sys2Proof.Machine.BadSlot) (a_version : Sys2Proof.Word) (hp : Sub 1213724711262367099595010 P) :
    Frame P s0 (State.markBad s a_kind a_slot a_e a_version) := by
  unfold State.markBad
  refine State.slotBad_frame ?_ _ _ _ _ (Sub.le (by decide) hp)
  refine State.bcbChange_frame ?_ _ (Sub.le (by decide) hp)
  exact h

theorem State.keeperReboot_frame {P : Part → Prop} {s0 s : State} (_ : Frame P s0 s)  (hp : Sub 40564819207303340847894502572031 P) :
    Frame P s0 (State.keeperReboot s) := Frame.all hp

theorem State.revert_frame {P : Part → Prop} {s0 s : State} (_ : Frame P s0 s) (a_kind : ℕ) (a_cause : ℕ) (hp : Sub 40564819207303340847894502572031 P) :
    Frame P s0 (State.revert s a_kind a_cause) := Frame.all hp

theorem State.commitImage_frame {P : Part → Prop} {s0 s : State} (h : Frame P s0 s) (a_kind : ℕ) (hp : Sub 1213725287723119403018498 P) :
    Frame P s0 (State.commitImage s a_kind) := by
  unfold State.commitImage
  extract_lets -merge -useContext -underBinder +onlyGivenNames x0
  extract_lets -merge -useContext -underBinder +onlyGivenNames x1
  have h1 : Frame P s0 x1 := by
    unfold x1
    refine State.rollbackTo_frame ?_ _ (Sub.le (by decide) hp)
    refine State.bcbChange_frame ?_ _ (Sub.le (by decide) hp)
    exact h
  refine State.bootPost_frame ?_ _ _ _ _ _ _ _ (Sub.le (by decide) hp)
  exact h1

theorem State.commitKeeper_frame {P : Part → Prop} {s0 s : State} (h : Frame P s0 s)  (hp : Sub 1213725287723119403018498 P) :
    Frame P s0 (State.commitKeeper s) := by
  unfold State.commitKeeper
  refine Frame.ite (fun _ => ?_) (fun _ => ?_)
  · refine State.commitImage_frame ?_ _ (Sub.le (by decide) hp)
    exact h
  · exact h

theorem State.commitField_frame {P : Part → Prop} {s0 s : State} (h : Frame P s0 s)  (hp : Sub 1213725287723119403018498 P) :
    Frame P s0 (State.commitField s) := by
  unfold State.commitField
  extract_lets -merge -useContext -underBinder +onlyGivenNames x0
  have h0 : Frame P s0 x0 := by
    unfold x0
    refine State.setBoot_frame ?_ _ (Sub.le (by decide) hp)
    exact h
  refine State.commitKeeper_frame ?_  (Sub.le (by decide) hp)
  refine Frame.ite (fun _ => ?_) (fun _ => ?_)
  · refine State.commitImage_frame ?_ _ (Sub.le (by decide) hp)
    exact h0
  · exact h0

theorem State.passKeeper_frame {P : Part → Prop} {s0 s : State} (h : Frame P s0 s)  (hp : Sub 1213725287723119403018498 P) :
    Frame P s0 (State.passKeeper s) := by
  unfold State.passKeeper
  refine State.commitKeeper_frame ?_  (Sub.le (by decide) hp)
  refine State.setBoot_frame ?_ _ (Sub.le (by decide) hp)
  exact h

theorem execBootCommitField_frame {P : Part → Prop} {s0 s : State} (h : Frame P s0 s)  (hp : Sub 1213725287723119403018498 P) :
    AnswersIn P s0 (execBootCommitField s) := by
  refine ⟨_, rfl, ?_⟩
  refine State.commitField_frame ?_  (Sub.le (by decide) hp)
  exact h

theorem execBootCommitKeeper_frame {P : Part → Prop} {s0 s : State} (h : Frame P s0 s)  (hp : Sub 1213725287723119403018498 P) :
    AnswersIn P s0 (execBootCommitKeeper s) := by
  refine ⟨_, rfl, ?_⟩
  refine State.passKeeper_frame ?_  (Sub.le (by decide) hp)
  exact h

theorem execTrialTimeLimit_frame {P : Part → Prop} {s0 s : State} (_ : Frame P s0 s)  (hp : Sub 40564819207303340847894502572031 P) :
    AnswersIn P s0 (execTrialTimeLimit s) := ⟨_, rfl, Frame.all hp⟩

theorem State.postMigrated_frame {P : Part → Prop} {s0 s : State} (h : Frame P s0 s) (a_committed : Bool) (a_count : ℕ) (a_old : ℕ) (a_new : ℕ) (hp : Sub 1209002200664309378525442 P) :
    Frame P s0 (State.postMigrated s a_committed a_count a_old a_new) := by
  unfold State.postMigrated
  refine State.bootPost_frame ?_ _ _ _ _ _ _ _ (Sub.le (by decide) hp)
  exact h

theorem State.migrateCommit_frame {P : Part → Prop} {s0 s : State} (h : Frame P s0 s)  (hp : Sub 1213724711262367099595010 P) :
    Frame P s0 (State.migrateCommit s).2 := by
  unfold State.migrateCommit
  extract_lets -merge -useContext -underBinder +onlyGivenNames x0
  refine Frame.ite2 (fun _ => ?_) (fun _ => ?_)
  · refine Frame.pair2 ?_
    exact h
  · extract_lets -merge -useContext -underBinder +onlyGivenNames x1
    extract_lets -merge -useContext -underBinder +onlyGivenNames x2
    have h2 : Frame P s0 x2 := by
      unfold x2
      refine State.bcbChange_frame ?_ _ (Sub.le (by decide) hp)
      exact h
    refine Frame.pair2 ?_
    refine State.postMigrated_frame ?_ _ _ _ _ (Sub.le (by decide) hp)
    exact h2

theorem execBootMigrateCommit_frame {P : Part → Prop} {s0 s : State} (h : Frame P s0 s)  (hp : Sub 1213724711262367099595010 P) :
    AnswersIn P s0 (execBootMigrateCommit s) := by
  refine ⟨_, rfl, ?_⟩
  refine State.migrateCommit_frame ?_  (Sub.le (by decide) hp)
  exact h

theorem State.serve_frame {P : Part → Prop} {s0 s : State} (h : Frame P s0 s) (a_slot : ℕ) (a_op : ℕ) (a_f : Sys2Proof.Machine.State → ℕ × Sys2Proof.Machine.State) (Ha_f : ∀ z0, Frame P s0 z0 → Frame P s0 (a_f z0).2) (hp : Sub 1024 P) :
    Frame P s0 (State.serve s a_slot a_op a_f) := by
  unfold State.serve
  extract_lets -merge -useContext -underBinder +onlyGivenNames x0
  refine Frame.ite (fun _ => ?_) (fun _ => ?_)
  · extract_lets -merge -useContext -underBinder +onlyGivenNames x1
    have h1 : Frame P s0 x1.2 := by
      unfold x1
      refine Ha_f _ ?_
      exact h
    refine State.memPut_frame ?_ _ _ (Sub.le (by decide) hp)
    exact h1
  · exact h

theorem execSvcCommit_frame {P : Part → Prop} {s0 s : State} (h : Frame P s0 s) (a_slot : Fin 5) (hp : Sub 1213725287723119403019522 P) :
    AnswersIn P s0 (execSvcCommit a_slot s) := by
  refine ⟨_, rfl, ?_⟩
  refine State.serve_frame ?_ _ _ _ (fun y0 h0 => ?_) (Sub.le (by decide) hp)
  · exact h
  · extract_lets -merge -useContext -underBinder +onlyGivenNames x1
    refine Frame.ite2 (fun _ => ?_) (fun _ => ?_)
    · refine Frame.ite2 (fun _ => ?_) (fun _ => ?_)
      · refine Frame.pair2 ?_
        refine State.passKeeper_frame ?_  (Sub.le (by decide) hp)
        exact h0
      · refine Frame.pair2 ?_
        exact h0
    · refine Frame.ite2 (fun _ => ?_) (fun _ => ?_)
      · refine Frame.ite2 (fun _ => ?_) (fun _ => ?_)
        · refine Frame.pair2 ?_
          refine State.commitField_frame ?_  (Sub.le (by decide) hp)
          exact h0
        · refine Frame.pair2 ?_
          exact h0
      · refine Frame.pair2 ?_
        exact h0

theorem execSvcMigrateCommit_frame {P : Part → Prop} {s0 s : State} (h : Frame P s0 s) (a_slot : Fin 5) (hp : Sub 1213724711262367099596034 P) :
    AnswersIn P s0 (execSvcMigrateCommit a_slot s) := by
  refine ⟨_, rfl, ?_⟩
  refine State.serve_frame ?_ _ _ _ (fun y0 h0 => ?_) (Sub.le (by decide) hp)
  · exact h
  · refine Frame.pair2 ?_
    refine State.migrateCommit_frame ?_  (Sub.le (by decide) hp)
    exact h0

theorem State.stage_frame {P : Part → Prop} {s0 s : State} (h : Frame P s0 s) (a_kind : ℕ) (hp : Sub 1213724711262367099595010 P) :
    Frame P s0 (State.stage s a_kind).2 := by
  unfold State.stage
  extract_lets -merge -useContext -underBinder +onlyGivenNames x0
  refine Frame.ite2 (fun _ => ?_) (fun _ => ?_)
  · refine Frame.pair2 ?_
    exact h
  · refine Frame.ite2 (fun _ => ?_) (fun _ => ?_)
    · refine Frame.pair2 ?_
      exact h
    · extract_lets -merge -useContext -underBinder +onlyGivenNames x1
      split
      · refine Frame.pair2 ?_
        refine State.markBad_frame ?_ _ _ _ _ (Sub.le (by decide) hp)
        exact h
      · refine Frame.pair2 ?_
        refine State.bcbChange_frame ?_ _ (Sub.le (by decide) hp)
        exact h

theorem execStage_frame {P : Part → Prop} {s0 s : State} (h : Frame P s0 s) (a_slot : Fin 5) (hp : Sub 1213724711262367099596034 P) :
    AnswersIn P s0 (execStage a_slot s) := by
  refine ⟨_, rfl, ?_⟩
  refine State.serve_frame ?_ _ _ _ (fun y0 h0 => ?_) (Sub.le (by decide) hp)
  · exact h
  · refine State.stage_frame ?_ _ (Sub.le (by decide) hp)
    exact h0

theorem execSvcReboot_frame {P : Part → Prop} {s0 s : State} (_ : Frame P s0 s) (a_slot : Fin 5) (hp : Sub 40564819207303340847894502572031 P) :
    AnswersIn P s0 (execSvcReboot a_slot s) := ⟨_, rfl, Frame.all hp⟩

theorem execReadRecord_frame {P : Part → Prop} {s0 s : State} (h : Frame P s0 s) (a_slot : Fin 5) (hp : Sub 1024 P) :
    AnswersIn P s0 (execReadRecord a_slot s) := by
  refine ⟨_, rfl, ?_⟩
  refine State.serve_frame ?_ _ _ _ (fun y0 h0 => ?_) (Sub.le (by decide) hp)
  · exact h
  · split
    · refine Frame.pair2 ?_
      exact h0
    · split
      · refine Frame.pair2 ?_
        exact h0
      · refine Frame.ite2 (fun _ => ?_) (fun _ => ?_)
        · refine Frame.pair2 ?_
          exact h0
        · refine Frame.pair2 ?_
          refine State.memPut_frame ?_ _ _ (Sub.le (by decide) hp)
          exact h0

theorem State.openPending_frame {P : Part → Prop} {s0 s : State} (h : Frame P s0 s)  (hp : Sub 432345564227567616 P) :
    Frame P s0 (State.openPending s) := by
  unfold State.openPending
  extract_lets -merge -useContext -underBinder +onlyGivenNames x0
  have h0 : Frame P s0 x0 := by
    unfold x0
    refine State.flashErase_frame ?_ _ _ (Sub.le (by decide) hp)
    exact h
  refine State.setBoot_frame ?_ _ (Sub.le (by decide) hp)
  exact h0

theorem execWriteRecord_frame {P : Part → Prop} {s0 s : State} (h : Frame P s0 s) (a_slot : Fin 5) (hp : Sub 432345564227568640 P) :
    AnswersIn P s0 (execWriteRecord a_slot s) := by
  refine ⟨_, rfl, ?_⟩
  refine State.serve_frame ?_ _ _ _ (fun y0 h0 => ?_) (Sub.le (by decide) hp)
  · exact h
  · extract_lets -merge -useContext -underBinder +onlyGivenNames x1
    refine Frame.ite2 (fun _ => ?_) (fun _ => ?_)
    · refine Frame.pair2 ?_
      exact h0
    · extract_lets -merge -useContext -underBinder +onlyGivenNames x2
      have h2 : Frame P s0 x2 := by
        unfold x2
        refine Frame.ite (fun _ => ?_) (fun _ => ?_)
        · exact h0
        · refine State.openPending_frame ?_  (Sub.le (by decide) hp)
          exact h0
      extract_lets -merge -useContext -underBinder +onlyGivenNames x3
      refine Frame.pair2 ?_
      refine State.setBoot_frame ?_ _ (Sub.le (by decide) hp)
      exact h2

theorem State.closePending_frame {P : Part → Prop} {s0 s : State} (h : Frame P s0 s)  (hp : Sub 4722798828433872781312 P) :
    Frame P s0 (State.closePending s).2 := by
  unfold State.closePending
  extract_lets -merge -useContext -underBinder +onlyGivenNames x0
  extract_lets -merge -useContext -underBinder +onlyGivenNames x1
  extract_lets -merge -useContext -underBinder +onlyGivenNames x2
  extract_lets -merge -useContext -underBinder +onlyGivenNames x3
  extract_lets -merge -useContext -underBinder +onlyGivenNames x4
  extract_lets -merge -useContext -underBinder +onlyGivenNames x5
  extract_lets -merge -useContext -underBinder +onlyGivenNames x6
  extract_lets -merge -useContext -underBinder +onlyGivenNames x7
  have h7 : Frame P s0 x7 := by
    unfold x7
    refine Frame.foldl ?_ (fun y8 a8 h8 => ?_)
    · exact h
    · refine State.blockWrite_frame ?_ _ _ _ (Sub.le (by decide) hp)
      exact h8
  extract_lets -merge -useContext -underBinder +onlyGivenNames x9
  have h9 : Frame P s0 x9 := by
    unfold x9
    refine State.setBoot_frame ?_ _ (Sub.le (by decide) hp)
    exact h7
  refine Frame.pair2 ?_
  refine State.bcbChange_frame ?_ _ (Sub.le (by decide) hp)
  exact h9

theorem State.ruleLine_frame {P : Part → Prop} {s0 s : State} (h : Frame P s0 s) (a_r : Sys2Proof.Machine.Rule) (a_t : Sys2Proof.TimePoint) (a_j : ℕ) (hp : Sub 388065261883272260020283650 P) :
    Frame P s0 (State.ruleLine s a_r a_t a_j) := by
  unfold State.ruleLine
  extract_lets -merge -useContext -underBinder +onlyGivenNames x0
  split
  · exact h
  · refine State.latchWrite_frame ?_ _ _ (Sub.le (by decide) hp)
    exact h
  · refine State.latchWrite_frame ?_ _ _ (Sub.le (by decide) hp)
    exact h
  · refine State.pulseStart_frame ?_ _ _ _ (Sub.le (by decide) hp)
    exact h

theorem State.rulePublish_frame {P : Part → Prop} {s0 s : State} (h : Frame P s0 s) (a_r : Sys2Proof.Machine.Rule) (a_res : Bool) (a_t : Sys2Proof.TimePoint) (a_cycle : ℕ) (hp : Sub 2933921529404635884251561273634 P) :
    Frame P s0 (State.rulePublish s a_r a_res a_t a_cycle) := by
  unfold State.rulePublish
  extract_lets -merge -useContext -underBinder +onlyGivenNames x0
  extract_lets -merge -useContext -underBinder +onlyGivenNames x1
  refine Frame.ite (fun _ => ?_) (fun _ => ?_)
  · refine State.bump_frame ?_ _ (Reg.rfxCntRefused_in (hp .regRfx rfl)) (Sub.le (by decide) hp)
    exact h
  · refine State.pubAction_frame ?_ _ _ _ _ _ (Sub.le (by decide) hp)
    exact h

theorem State.rulePost_frame {P : Part → Prop} {s0 s : State} (h : Frame P s0 s) (a_n : ℕ) (a_r : Sys2Proof.Machine.Rule) (a_res : Bool) (a_tick : Bool) (a_seen : Option (ℕ × Sys2Proof.TimePoint)) (a_t : Sys2Proof.TimePoint) (hp : Sub 1208999606590924013119746 P) :
    Frame P s0 (State.rulePost s a_n a_r a_res a_tick a_seen a_t) := by
  unfold State.rulePost
  extract_lets -merge -useContext -underBinder +onlyGivenNames x0
  extract_lets -merge -useContext -underBinder +onlyGivenNames x1
  extract_lets -merge -useContext -underBinder +onlyGivenNames x2
  have h2 : Frame P s0 x2 := by
    unfold x2
    refine State.raise_frame ?_ _ _ (Sub.le (by decide) hp)
    exact h
  refine Frame.ite (fun _ => ?_) (fun _ => ?_)
  · refine State.postFull_frame ?_ _ _ _ _ _ _ _ _ _ _ _ (Sub.le (by decide) hp)
    exact h2
  · refine State.postAt_frame ?_ _ _ _ _ _ _ _ _ _ _ (Sub.le (by decide) hp)
    exact h2

theorem State.ruleFire_frame {P : Part → Prop} {s0 s : State} (h : Frame P s0 s) (a_n : ℕ) (a_r : Sys2Proof.Machine.Rule) (a_res : Bool) (a_tick : Bool) (a_first : Bool) (a_seen : Option (ℕ × Sys2Proof.TimePoint)) (a_own : Sys2Proof.TimePoint) (a_t : Sys2Proof.TimePoint) (hp : Sub 2934308990129822372903229532450 P) :
    Frame P s0 (State.ruleFire s a_n a_r a_res a_tick a_first a_seen a_own a_t) := by
  unfold State.ruleFire
  extract_lets -merge -useContext -underBinder +onlyGivenNames x0
  have h0 : Frame P s0 x0 := by
    unfold x0
    refine State.bump_frame ?_ _ (Reg.rfxCntFired_in (hp .regRfx rfl)) (Sub.le (by decide) hp)
    exact h
  extract_lets -merge -useContext -underBinder +onlyGivenNames x1
  have h1 : Frame P s0 x1 := by
    unfold x1
    refine Frame.foldl ?_ (fun y2 a2 h2 => ?_)
    · exact h0
    · refine State.ruleLine_frame ?_ _ _ _ (Sub.le (by decide) hp)
      exact h2
  extract_lets -merge -useContext -underBinder +onlyGivenNames x3
  have h3 : Frame P s0 x3 := by
    unfold x3
    refine Frame.ite (fun _ => ?_) (fun _ => ?_)
    · refine State.rulePublish_frame ?_ _ _ _ _ (Sub.le (by decide) hp)
      exact h1
    · exact h1
  refine Frame.ite (fun _ => ?_) (fun _ => ?_)
  · extract_lets -merge -useContext -underBinder +onlyGivenNames x4
    have h4 : Frame P s0 x4 := by
      unfold x4
      refine Frame.ite (fun _ => ?_) (fun _ => ?_)
      · refine State.drillReflexArm_frame ?_ _ _ (Sub.le (by decide) hp)
        exact h3
      · exact h3
    extract_lets -merge -useContext -underBinder +onlyGivenNames x5
    have h5 : Frame P s0 x5 := by
      unfold x5
      refine Frame.ite (fun _ => ?_) (fun _ => ?_)
      · refine State.winTrigger_frame ?_ _ _ (Sub.le (by decide) hp)
        exact h4
      · exact h4
    refine Frame.ite (fun _ => ?_) (fun _ => ?_)
    · refine State.rulePost_frame ?_ _ _ _ _ _ _ (Sub.le (by decide) hp)
      exact h5
    · exact h5
  · exact h3

theorem State.ruleEvaluate_frame {P : Part → Prop} {s0 s : State} (h : Frame P s0 s) (a_n : ℕ) (a_t : Sys2Proof.TimePoint) (hp : Sub 2934308990129822372903229532450 P) :
    Frame P s0 (State.ruleEvaluate s a_n a_t) := by
  unfold State.ruleEvaluate
  extract_lets -merge -useContext -underBinder +onlyGivenNames x0
  have h0 : Frame P s0 x0 := by
    unfold x0
    refine State.bump_frame ?_ _ (Reg.rfxCntEval_in (hp .regRfx rfl)) (Sub.le (by decide) hp)
    refine State.dequeueRule_frame ?_ _ (Sub.le (by decide) hp)
    exact h
  extract_lets -merge -useContext -underBinder +onlyGivenNames x1
  extract_lets -merge -useContext -underBinder +onlyGivenNames x2
  extract_lets -merge -useContext -underBinder +onlyGivenNames x3
  have h3 : Frame P s0 x3 := by
    unfold x3
    refine State.setRule_frame ?_ _ _ (Sub.le (by decide) hp)
    exact h0
  extract_lets -merge -useContext -underBinder +onlyGivenNames x4
  refine Frame.ite (fun _ => ?_) (fun _ => ?_)
  · refine State.ruleFire_frame ?_ _ _ _ _ _ _ _ _ (Sub.le (by decide) hp)
    exact h3
  · exact h3

theorem State.ruleEcc_frame {P : Part → Prop} {s0 s : State} (h : Frame P s0 s) (a_n : ℕ) (a_ecc : Sys2Proof.ReadEcc) (hp : Sub 388065261883272290084530562 P) :
    Frame P s0 (State.ruleEcc s a_n a_ecc) := by
  unfold State.ruleEcc
  refine Frame.ite (fun _ => ?_) (fun _ => ?_)
  · refine State.memEcc_frame ?_ _ _ _ (Sub.le (by decide) hp)
    exact h
  · extract_lets -merge -useContext -underBinder +onlyGivenNames x0
    extract_lets -merge -useContext -underBinder +onlyGivenNames x1
    have h1 : Frame P s0 x1 := by
      unfold x1
      refine State.setRule_frame ?_ _ _ (Sub.le (by decide) hp)
      refine State.dequeueRule_frame ?_ _ (Sub.le (by decide) hp)
      exact h
    refine State.memEcc_frame ?_ _ _ _ (Sub.le (by decide) hp)
    refine State.raise_frame ?_ _ _ (Sub.le (by decide) hp)
    exact h1

theorem State.evalTake_frame {P : Part → Prop} {s0 s : State} (h : Frame P s0 s) (a_cycle : ℕ) (hp : Sub 34359738368 P) :
    Frame P s0 (State.evalTake s a_cycle) := by
  unfold State.evalTake
  refine Frame.set_eval ?_ (hp .eval rfl) _
  exact h

theorem execRuleEvaluate_frame {P : Part → Prop} {s0 s : State} (h : Frame P s0 s) (a_d : Fin 40) (a_ecc : Sys2Proof.ReadEcc) (hp : Sub 2934308990129822372937589270946 P) :
    AnswersIn P s0 (execRuleEvaluate a_d a_ecc s) := by
  refine ⟨_, rfl, ?_⟩
  extract_lets -merge -useContext -underBinder +onlyGivenNames x0
  split
  · exact h
  · refine Frame.ite (fun _ => ?_) (fun _ => ?_)
    · extract_lets -merge -useContext -underBinder +onlyGivenNames x3
      have h3 : Frame P s0 x3 := by
        unfold x3
        refine State.ruleEcc_frame ?_ _ _ (Sub.le (by decide) hp)
        refine State.evalTake_frame ?_ _ (Sub.le (by decide) hp)
        refine State.pubFlush_frame ?_ _ (Sub.le (by decide) hp)
        exact h
      refine Frame.ite (fun _ => ?_) (fun _ => ?_)
      · refine State.ruleEvaluate_frame ?_ _ _ (Sub.le (by decide) hp)
        exact h3
      · exact h3
    · exact h

theorem execRuleTick_frame {P : Part → Prop} {s0 s : State} (h : Frame P s0 s) (a_n : Fin 1024) (hp : Sub 2475880078570760579863019520 P) :
    AnswersIn P s0 (execRuleTick a_n s) := by
  refine ⟨_, rfl, ?_⟩
  extract_lets -merge -useContext -underBinder +onlyGivenNames x0
  extract_lets -merge -useContext -underBinder +onlyGivenNames x1
  refine Frame.ite (fun _ => ?_) (fun _ => ?_)
  · extract_lets -merge -useContext -underBinder +onlyGivenNames x2
    refine Frame.ite (fun _ => ?_) (fun _ => ?_)
    · refine State.setRule_frame ?_ _ _ (Sub.le (by decide) hp)
      exact h
    · refine State.queueRule_frame ?_ _ (Sub.le (by decide) hp)
      refine State.setRule_frame ?_ _ _ (Sub.le (by decide) hp)
      exact h
  · exact h

theorem State.ruleArm_frame {P : Part → Prop} {s0 s : State} (h : Frame P s0 s) (a_n : ℕ) (a_t : Sys2Proof.TimePoint) (hp : Sub 2934308990129822372903229532450 P) :
    Frame P s0 (State.ruleArm s a_n a_t) := by
  unfold State.ruleArm
  extract_lets -merge -useContext -underBinder +onlyGivenNames x0
  refine Frame.ite (fun _ => ?_) (fun _ => ?_)
  · exact h
  · extract_lets -merge -useContext -underBinder +onlyGivenNames x1
    have h1 : Frame P s0 x1 := by
      unfold x1
      refine State.bump_frame ?_ _ (Reg.rfxCntEval_in (hp .regRfx rfl)) (Sub.le (by decide) hp)
      exact h
    extract_lets -merge -useContext -underBinder +onlyGivenNames x2
    extract_lets -merge -useContext -underBinder +onlyGivenNames x3
    have h3 : Frame P s0 x3 := by
      unfold x3
      refine State.setRule_frame ?_ _ _ (Sub.le (by decide) hp)
      exact h1
    refine Frame.ite (fun _ => ?_) (fun _ => ?_)
    · refine State.ruleFire_frame ?_ _ _ _ _ _ _ _ _ (Sub.le (by decide) hp)
      exact h3
    · exact h3

theorem State.ruleArmNow_frame {P : Part → Prop} {s0 s : State} (h : Frame P s0 s) (a_n : ℕ) (hp : Sub 2934308990166715861050648635682 P) :
    Frame P s0 (State.ruleArmNow s a_n) := by
  unfold State.ruleArmNow
  refine Frame.ite (fun _ => ?_) (fun _ => ?_)
  · extract_lets -merge -useContext -underBinder +onlyGivenNames x0
    have h0 : Frame P s0 x0.2 := by
      unfold x0
      refine State.fresh_frame ?_  (Sub.le (by decide) hp)
      exact h
    refine State.ruleArm_frame ?_ _ _ (Sub.le (by decide) hp)
    exact h0
  · refine State.ruleArm_frame ?_ _ _ (Sub.le (by decide) hp)
    exact h

theorem State.ruleDisarm_frame {P : Part → Prop} {s0 s : State} (h : Frame P s0 s) (a_n : ℕ) (hp : Sub 30064771072 P) :
    Frame P s0 (State.ruleDisarm s a_n) := by
  unfold State.ruleDisarm
  refine State.setRule_frame ?_ _ _ (Sub.le (by decide) hp)
  refine State.dequeueRule_frame ?_ _ (Sub.le (by decide) hp)
  exact h

theorem State.swfWrite_frame {P : Part → Prop} {s0 s : State} (h : Frame P s0 s) (a_v : Sys2Proof.Word) (hp : Sub 2475880078570760579863019520 P) :
    Frame P s0 (State.swfWrite s a_v) := by
  unfold State.swfWrite
  extract_lets -merge -useContext -underBinder +onlyGivenNames x0
  refine Frame.foldl ?_ (fun y1 a1 h1 => ?_)
  · refine State.wr_frame ?_ _ _ (Reg.rfxSwf_in (hp .regRfx rfl)) (Sub.le (by decide) hp)
    exact h
  · refine Frame.ite (fun _ => ?_) (fun _ => ?_)
    · exact h1
    · refine State.operandChanged_frame ?_ _ _ (Sub.le (by decide) hp)
      exact h1

theorem execSwfSet_frame {P : Part → Prop} {s0 s : State} (h : Frame P s0 s) (a_v : Sys2Proof.Word) (hp : Sub 2475880078570760579863019520 P) :
    AnswersIn P s0 (execSwfSet a_v s) := by
  refine ⟨_, rfl, ?_⟩
  refine State.swfWrite_frame ?_ _ (Sub.le (by decide) hp)
  exact h

theorem execSwfClr_frame {P : Part → Prop} {s0 s : State} (h : Frame P s0 s) (a_v : Sys2Proof.Word) (hp : Sub 2475880078570760579863019520 P) :
    AnswersIn P s0 (execSwfClr a_v s) := by
  refine ⟨_, rfl, ?_⟩
  refine State.swfWrite_frame ?_ _ (Sub.le (by decide) hp)
  exact h

theorem State.rfxCommand_frame {P : Part → Prop} {s0 s : State} (h : Frame P s0 s) (a_arg : BitVec 16) (a_f : ℕ → Sys2Proof.Machine.State → Sys2Proof.Machine.MbxAns × Sys2Proof.Machine.State) (Ha_f : ∀ z0 z1, Frame P s0 z1 → Frame P s0 (a_f z0 z1).2) (hp : Sub 147573952589676412932 P) :
    Frame P s0 (State.rfxCommand s a_arg a_f) := by
  unfold State.rfxCommand
  refine State.mbxCommand_frame ?_ _ _ (fun y0 h0 => ?_) (Sub.le (by decide) hp)
  · exact h
  · refine Frame.ite2 (fun _ => ?_) (fun _ => ?_)
    · refine Frame.pair2 ?_
      exact h0
    · refine Ha_f _ _ ?_
      exact h0

theorem State.rfxReading_frame {P : Part → Prop} {s0 s : State} (h : Frame P s0 s) (a_arg : BitVec 16) (a_ecc : Sys2Proof.ReadEcc) (a_f : ℕ → Sys2Proof.Machine.State → Sys2Proof.Machine.MbxAns × Sys2Proof.Machine.State) (Ha_f : ∀ z0 z1, Frame P s0 z1 → Frame P s0 (a_f z0 z1).2) (hp : Sub 388065409457224879760943494 P) :
    Frame P s0 (State.rfxReading s a_arg a_ecc a_f) := by
  unfold State.rfxReading
  refine State.rfxCommand_frame ?_ _ _ (fun _ y0 h0 => ?_) (Sub.le (by decide) hp)
  · exact h
  · extract_lets -merge -useContext -underBinder +onlyGivenNames x1
    have h1 : Frame P s0 x1 := by
      unfold x1
      refine State.ruleEcc_frame ?_ _ _ (Sub.le (by decide) hp)
      exact h0
    refine Frame.ite2 (fun _ => ?_) (fun _ => ?_)
    · refine Ha_f _ _ ?_
      exact h1
    · refine Frame.pair2 ?_
      exact h1

theorem State.loadTerms_frame {P : Part → Prop} {s0 s : State} (h : Frame P s0 s) (a_n : ℕ) (a_f : Sys2Proof.Machine.Rule → Sys2Proof.Machine.Rule) (hp : Sub 4294967296 P) :
    Frame P s0 (State.loadTerms s a_n a_f).2 := by
  unfold State.loadTerms
  refine Frame.ite2 (fun _ => ?_) (fun _ => ?_)
  · refine Frame.pair2 ?_
    exact h
  · refine Frame.ite2 (fun _ => ?_) (fun _ => ?_)
    · refine Frame.pair2 ?_
      exact h
    · refine Frame.pair2 ?_
      refine State.setRule_frame ?_ _ _ (Sub.le (by decide) hp)
      exact h

theorem execLoadTermsA_frame {P : Part → Prop} {s0 s : State} (h : Frame P s0 s) (a_arg : BitVec 16) (hp : Sub 147573952593971380228 P) :
    AnswersIn P s0 (execLoadTermsA a_arg s) := by
  refine ⟨_, rfl, ?_⟩
  refine State.rfxCommand_frame ?_ _ _ (fun _ y0 h0 => ?_) (Sub.le (by decide) hp)
  · exact h
  · refine State.loadTerms_frame ?_ _ _ (Sub.le (by decide) hp)
    exact h0

theorem execLoadTermsB_frame {P : Part → Prop} {s0 s : State} (h : Frame P s0 s) (a_arg : BitVec 16) (hp : Sub 147573952593971380228 P) :
    AnswersIn P s0 (execLoadTermsB a_arg s) := by
  refine ⟨_, rfl, ?_⟩
  refine State.rfxCommand_frame ?_ _ _ (fun _ y0 h0 => ?_) (Sub.le (by decide) hp)
  · exact h
  · refine State.loadTerms_frame ?_ _ _ (Sub.le (by decide) hp)
    exact h0

theorem execLoadAct_frame {P : Part → Prop} {s0 s : State} (h : Frame P s0 s) (a_arg : BitVec 16) (hp : Sub 147573952593971380228 P) :
    AnswersIn P s0 (execLoadAct a_arg s) := by
  refine ⟨_, rfl, ?_⟩
  refine State.rfxCommand_frame ?_ _ _ (fun _ y0 h0 => ?_) (Sub.le (by decide) hp)
  · exact h
  · extract_lets -merge -useContext -underBinder +onlyGivenNames x1
    extract_lets -merge -useContext -underBinder +onlyGivenNames x2
    extract_lets -merge -useContext -underBinder +onlyGivenNames x3
    refine Frame.ite2 (fun _ => ?_) (fun _ => ?_)
    · refine Frame.pair2 ?_
      exact h0
    · refine Frame.ite2 (fun _ => ?_) (fun _ => ?_)
      · refine Frame.pair2 ?_
        exact h0
      · refine Frame.ite2 (fun _ => ?_) (fun _ => ?_)
        · refine Frame.pair2 ?_
          exact h0
        · refine Frame.pair2 ?_
          refine State.setRule_frame ?_ _ _ (Sub.le (by decide) hp)
          exact h0

theorem execRfxArm_frame {P : Part → Prop} {s0 s : State} (h : Frame P s0 s) (a_arg : BitVec 16) (a_ecc : Sys2Proof.ReadEcc) (hp : Sub 2934308990314289813640325048742 P) :
    AnswersIn P s0 (execRfxArm a_arg a_ecc s) := by
  refine ⟨_, rfl, ?_⟩
  refine State.rfxReading_frame ?_ _ _ _ (fun _ y0 h0 => ?_) (Sub.le (by decide) hp)
  · exact h
  · refine Frame.ite2 (fun _ => ?_) (fun _ => ?_)
    · refine Frame.pair2 ?_
      exact h0
    · extract_lets -merge -useContext -underBinder +onlyGivenNames x1
      have h1 : Frame P s0 x1 := by
        unfold x1
        refine State.ruleArmNow_frame ?_ _ (Sub.le (by decide) hp)
        exact h0
      refine Frame.pair2 ?_
      exact h1

theorem execRfxDisarm_frame {P : Part → Prop} {s0 s : State} (h : Frame P s0 s) (a_arg : BitVec 16) (hp : Sub 147573952619741184004 P) :
    AnswersIn P s0 (execRfxDisarm a_arg s) := by
  refine ⟨_, rfl, ?_⟩
  refine State.rfxCommand_frame ?_ _ _ (fun _ y0 h0 => ?_) (Sub.le (by decide) hp)
  · exact h
  · refine Frame.pair2 ?_
    refine State.ruleDisarm_frame ?_ _ (Sub.le (by decide) hp)
    exact h0

theorem execReadTermsA_frame {P : Part → Prop} {s0 s : State} (h : Frame P s0 s) (a_arg : BitVec 16) (a_ecc : Sys2Proof.ReadEcc) (hp : Sub 388065409457224879760943494 P) :
    AnswersIn P s0 (execReadTermsA a_arg a_ecc s) := by
  refine ⟨_, rfl, ?_⟩
  refine State.rfxReading_frame ?_ _ _ _ (fun _ y0 h0 => ?_) (Sub.le (by decide) hp)
  · exact h
  · extract_lets -merge -useContext -underBinder +onlyGivenNames x1
    refine Frame.pair2 ?_
    exact h0

theorem execReadTermsB_frame {P : Part → Prop} {s0 s : State} (h : Frame P s0 s) (a_arg : BitVec 16) (a_ecc : Sys2Proof.ReadEcc) (hp : Sub 388065409457224879760943494 P) :
    AnswersIn P s0 (execReadTermsB a_arg a_ecc s) := by
  refine ⟨_, rfl, ?_⟩
  refine State.rfxReading_frame ?_ _ _ _ (fun _ y0 h0 => ?_) (Sub.le (by decide) hp)
  · exact h
  · extract_lets -merge -useContext -underBinder +onlyGivenNames x1
    refine Frame.pair2 ?_
    exact h0

theorem execReadAct_frame {P : Part → Prop} {s0 s : State} (h : Frame P s0 s) (a_arg : BitVec 16) (a_ecc : Sys2Proof.ReadEcc) (hp : Sub 388065409457224879760943494 P) :
    AnswersIn P s0 (execReadAct a_arg a_ecc s) := by
  refine ⟨_, rfl, ?_⟩
  refine State.rfxReading_frame ?_ _ _ _ (fun _ y0 h0 => ?_) (Sub.le (by decide) hp)
  · exact h
  · extract_lets -merge -useContext -underBinder +onlyGivenNames x1
    refine Frame.pair2 ?_
    exact h0

theorem execRfxClear_frame {P : Part → Prop} {s0 s : State} (h : Frame P s0 s) (a_arg : BitVec 16) (hp : Sub 147573952593971380228 P) :
    AnswersIn P s0 (execRfxClear a_arg s) := by
  refine ⟨_, rfl, ?_⟩
  refine State.rfxCommand_frame ?_ _ _ (fun _ y0 h0 => ?_) (Sub.le (by decide) hp)
  · exact h
  · refine Frame.ite2 (fun _ => ?_) (fun _ => ?_)
    · refine Frame.pair2 ?_
      exact h0
    · refine Frame.pair2 ?_
      refine State.setRule_frame ?_ _ _ (Sub.le (by decide) hp)
      exact h0

theorem State.rfxSoftReset_frame {P : Part → Prop} {s0 s : State} (h : Frame P s0 s)  (hp : Sub 64424509440 P) :
    Frame P s0 (State.rfxSoftReset s) := by
  unfold State.rfxSoftReset
  extract_lets -merge -useContext -underBinder +onlyGivenNames x0
  have h0 : Frame P s0 x0 := by
    unfold x0
    refine Frame.foldl ?_ (fun y1 a1 h1 => ?_)
    · exact h
    · refine State.ruleDisarm_frame ?_ _ (Sub.le (by decide) hp)
      exact h1
  refine Frame.set_express_normal_eval ?_ (hp .express rfl) (hp .normal rfl) (hp .eval rfl) _ _ _
  exact h0

theorem State.drillLine_frame {P : Part → Prop} {s0 s : State} (h : Frame P s0 s) (a_code : ℕ) (a_k : ℕ) (a_level : Bool) (a_stop : Sys2Proof.TimePoint) (hp : Sub 388065261883272260020283650 P) :
    Frame P s0 (State.drillLine s a_code a_k a_level a_stop).2 := by
  unfold State.drillLine
  refine Frame.ite2 (fun _ => ?_) (fun _ => ?_)
  · refine Frame.pair2 ?_
    refine Frame.ite (fun _ => ?_) (fun _ => ?_)
    · refine State.cmdPulseStart_frame ?_ _ _ _ (Sub.le (by decide) hp)
      exact h
    · refine State.cmdWrite_frame ?_ _ _ (Sub.le (by decide) hp)
      exact h
  · refine Frame.pair2 ?_
    refine Frame.ite (fun _ => ?_) (fun _ => ?_)
    · refine State.pulseStart_frame ?_ _ _ _ (Sub.le (by decide) hp)
      exact h
    · refine State.latchWrite_frame ?_ _ _ (Sub.le (by decide) hp)
      exact h

theorem State.drillAct_frame {P : Part → Prop} {s0 s : State} (h : Frame P s0 s) (a_n : ℕ) (a_t : Sys2Proof.TimePoint) (a_w : Sys2Proof.TimePoint) (a_base : Sys2Proof.TimePoint) (hp : Sub 2934308990129822443271973710114 P) :
    Frame P s0 (State.drillAct s a_n a_t a_w a_base).2 := by
  unfold State.drillAct
  extract_lets -merge -useContext -underBinder +onlyGivenNames x0
  extract_lets -merge -useContext -underBinder +onlyGivenNames x1
  split
  · refine Frame.pair2 ?_
    refine Frame.set_starts ?_ (hp .starts rfl) _
    exact h
  · refine Frame.pair2 ?_
    refine State.pubAction_frame ?_ _ _ _ _ _ (Sub.le (by decide) hp)
    exact h
  · refine Frame.pair2 ?_
    refine State.winTrigger_frame ?_ _ _ (Sub.le (by decide) hp)
    exact h
  · refine Frame.pair2 ?_
    refine State.ruleArm_frame ?_ _ _ (Sub.le (by decide) hp)
    exact h
  · refine Frame.pair2 ?_
    refine State.ruleDisarm_frame ?_ _ (Sub.le (by decide) hp)
    exact h
  · refine Frame.pair2 ?_
    refine State.postFull_frame ?_ _ _ _ _ _ _ _ _ _ _ _ (Sub.le (by decide) hp)
    exact h
  · refine State.drillLine_frame ?_ _ _ _ _ (Sub.le (by decide) hp)
    exact h

theorem State.drillReport_frame {P : Part → Prop} {s0 s : State} (h : Frame P s0 s) (a_n : ℕ) (a_flags : ℕ) (a_w : Sys2Proof.TimePoint) (a_t : Sys2Proof.TimePoint) (a_pulsed : Bool) (hp : Sub 1208999606608516199164162 P) :
    Frame P s0 (State.drillReport s a_n a_flags a_w a_t a_pulsed) := by
  unfold State.drillReport
  refine Frame.ite (fun _ => ?_) (fun _ => ?_)
  · extract_lets -merge -useContext -underBinder +onlyGivenNames x0
    refine Frame.set_pulseDone ?_ (hp .pulseDone rfl) _
    exact h
  · refine State.drillDone_frame ?_ _ _ _ _ (Sub.le (by decide) hp)
    exact h

theorem State.drillLaunch_frame {P : Part → Prop} {s0 s : State} (h : Frame P s0 s) (a_n : ℕ) (a_t : Sys2Proof.TimePoint) (a_w : Sys2Proof.TimePoint) (a_how : Sys2Proof.Machine.Launch) (hp : Sub 2934308990129822460864159754530 P) :
    Frame P s0 (State.drillLaunch s a_n a_t a_w a_how) := by
  unfold State.drillLaunch
  extract_lets -merge -useContext -underBinder +onlyGivenNames x0
  extract_lets -merge -useContext -underBinder +onlyGivenNames x1
  have h1 : ∀ w1_0, Frame P s0 w1_0 → Frame P s0 (x1 w1_0) := by
    intro w1_0 hw1
    unfold x1
    refine Frame.ite (fun _ => ?_) (fun _ => ?_)
    · refine State.setDrl_frame ?_ _ _ (Sub.le (by decide) hp)
      exact hw1
    · refine State.drillConsume_frame ?_ _ _ (Sub.le (by decide) hp)
      exact hw1
  extract_lets -merge -useContext -underBinder +onlyGivenNames x2
  refine Frame.ite (fun _ => ?_) (fun _ => ?_)
  · extract_lets -merge -useContext -underBinder +onlyGivenNames x3
    have h3 : Frame P s0 x3 := by
      unfold x3
      refine h1 _ ?_
      refine State.drillLate_frame ?_ _ _ _ _ _ (Sub.le (by decide) hp)
      refine State.bump_frame ?_ _ (Reg.drlCntUnlocked_in (hp .regDrl rfl)) (Sub.le (by decide) hp)
      exact h
    refine Frame.ite (fun _ => ?_) (fun _ => ?_)
    · refine State.drillDone_frame ?_ _ _ _ _ (Sub.le (by decide) hp)
      exact h3
    · exact h3
  · split
    · next y4_0 y4_1 e4 =>
        have g4 : Frame P s0 y4_1 := by
          refine Frame.of2 e4 ?_
          refine State.drillAct_frame ?_ _ _ _ _ (Sub.le (by decide) hp)
          exact h
        refine Frame.ite (fun _ => ?_) (fun _ => ?_)
        · extract_lets -merge -useContext -underBinder +onlyGivenNames x5
          have h5 : Frame P s0 x5 := by
            unfold x5
            refine State.bump_frame ?_ _ (Reg.drlCntFired_in (hp .regDrl rfl)) (Sub.le (by decide) hp)
            exact g4
          extract_lets -merge -useContext -underBinder +onlyGivenNames x6
          have h6 : Frame P s0 x6 := by
            unfold x6
            refine Frame.ite (fun _ => ?_) (fun _ => ?_)
            · exact h5
            · refine State.bump_frame ?_ _ (Reg.drlCntLateRun_in (hp .regDrl rfl)) (Sub.le (by decide) hp)
              exact h5
          extract_lets -merge -useContext -underBinder +onlyGivenNames x7
          have h7 : Frame P s0 x7 := by
            unfold x7
            refine State.setDrl_frame ?_ _ _ (Sub.le (by decide) hp)
            exact h6
          extract_lets -merge -useContext -underBinder +onlyGivenNames x8
          have h8 : Frame P s0 x8 := by
            unfold x8
            split
            · refine State.postAt_frame ?_ _ _ _ _ _ _ _ _ _ _ (Sub.le (by decide) hp)
              refine State.raise_frame ?_ _ _ (Sub.le (by decide) hp)
              exact h7
            · refine State.postAt_frame ?_ _ _ _ _ _ _ _ _ _ _ (Sub.le (by decide) hp)
              refine State.raise_frame ?_ _ _ (Sub.le (by decide) hp)
              exact h7
            · exact h7
          extract_lets -merge -useContext -underBinder +onlyGivenNames x12
          have h12 : Frame P s0 x12 := by
            unfold x12
            refine h1 _ ?_
            exact h8
          extract_lets -merge -useContext -underBinder +onlyGivenNames x13
          refine Frame.ite (fun _ => ?_) (fun _ => ?_)
          · refine State.drillReport_frame ?_ _ _ _ _ _ (Sub.le (by decide) hp)
            exact h12
          · exact h12
        · extract_lets -merge -useContext -underBinder +onlyGivenNames x14
          have h14 : Frame P s0 x14 := by
            unfold x14
            refine h1 _ ?_
            refine State.drillRefused_frame ?_  (Sub.le (by decide) hp)
            exact g4
          refine State.drillDone_frame ?_ _ _ _ _ (Sub.le (by decide) hp)
          exact h14

theorem State.noteLaunch_frame {P : Part → Prop} {s0 s : State} (h : Frame P s0 s) (a_t : Sys2Proof.TimePoint) (hp : Sub 2147483648 P) :
    Frame P s0 (State.noteLaunch s a_t) := by
  unfold State.noteLaunch
  refine Frame.set_launches ?_ (hp .launches rfl) _
  exact h

theorem execDrillFire_frame {P : Part → Prop} {s0 s : State} (h : Frame P s0 s) (a_n : Fin 4096) (a_lateNs : ℕ) (a_lateRun : Bool) (a_ecc : Sys2Proof.ReadEcc) (hp : Sub 2934308990129822460866307238306 P) :
    AnswersIn P s0 (execDrillFire a_n a_lateNs a_lateRun a_ecc s) := by
  refine ⟨_, rfl, ?_⟩
  extract_lets -merge -useContext -underBinder +onlyGivenNames x0
  extract_lets -merge -useContext -underBinder +onlyGivenNames x1
  split
  · refine Frame.ite (fun _ => ?_) (fun _ => ?_)
    · extract_lets -merge -useContext -underBinder +onlyGivenNames x3
      have h3 : Frame P s0 x3 := by
        unfold x3
        refine State.drillEcc_frame ?_ _ _ (Sub.le (by decide) hp)
        refine State.pubFlush_frame ?_ _ (Sub.le (by decide) hp)
        exact h
      refine Frame.ite (fun _ => ?_) (fun _ => ?_)
      · refine State.drillLaunch_frame ?_ _ _ _ _ (Sub.le (by decide) hp)
        refine State.setDrl_frame ?_ _ _ (Sub.le (by decide) hp)
        exact h3
      · exact h3
    · exact h
  · extract_lets -merge -useContext -underBinder +onlyGivenNames x5
    refine Frame.ite (fun _ => ?_) (fun _ => ?_)
    · extract_lets -merge -useContext -underBinder +onlyGivenNames x6
      have h6 : Frame P s0 x6 := by
        unfold x6
        refine State.drillEcc_frame ?_ _ _ (Sub.le (by decide) hp)
        refine State.pubFlush_frame ?_ _ (Sub.le (by decide) hp)
        exact h
      refine Frame.ite (fun _ => ?_) (fun _ => ?_)
      · extract_lets -merge -useContext -underBinder +onlyGivenNames x7
        extract_lets -merge -useContext -underBinder +onlyGivenNames x8
        have h8 : Frame P s0 x8 := by
          unfold x8
          refine State.drillLaunch_frame ?_ _ _ _ _ (Sub.le (by decide) hp)
          refine State.noteLaunch_frame ?_ _ (Sub.le (by decide) hp)
          exact h6
        refine Frame.ite (fun _ => ?_) (fun _ => ?_)
        · refine State.drillJudge_frame ?_ _ _ _ (Sub.le (by decide) hp)
          exact h8
        · exact h8
      · exact h6
    · exact h

theorem State.afterStep_frame {P : Part → Prop} {s0 s : State} (h : Frame P s0 s) (a_c : ℤ) (hp : Sub 1813462516398239682603266 P) :
    Frame P s0 (State.afterStep s a_c) := by
  unfold State.afterStep
  refine State.drillStepCheck_frame ?_  (Sub.le (by decide) hp)
  refine Frame.foldl ?_ (fun y0 a0 h0 => ?_)
  · exact h
  · refine State.capSkip_frame ?_ _ _ (Sub.le (by decide) hp)
    exact h0

theorem State.forcedStep_frame {P : Part → Prop} {s0 s : State} (h : Frame P s0 s) (a_move : Sys2Proof.Machine.State → Sys2Proof.Machine.State) (a_c : ℤ) (a_flags : ℕ) (Ha_move : ∀ z0, Frame P s0 z0 → Frame P s0 (a_move z0)) (hp : Sub 1267652413690745799736385808642 P) :
    Frame P s0 (State.forcedStep s a_move a_c a_flags) := by
  unfold State.forcedStep
  extract_lets -merge -useContext -underBinder +onlyGivenNames x0
  extract_lets -merge -useContext -underBinder +onlyGivenNames x1
  extract_lets -merge -useContext -underBinder +onlyGivenNames x2
  have h2 : Frame P s0 x2 := by
    unfold x2
    refine State.wr_frame ?_ _ _ (Reg.timePendCorr_in (hp .regTime rfl)) (Sub.le (by decide) hp)
    refine Ha_move _ ?_
    exact h
  extract_lets -merge -useContext -underBinder +onlyGivenNames x3
  have h3 : Frame P s0 x3 := by
    unfold x3
    refine State.raise_frame ?_ _ _ (Sub.le (by decide) hp)
    refine State.bump_frame ?_ _ (Reg.timeCntStep_in (hp .regTime rfl)) (Sub.le (by decide) hp)
    exact h2
  extract_lets -merge -useContext -underBinder +onlyGivenNames x4
  have h4 : Frame P s0 x4 := by
    unfold x4
    refine State.postAt_frame ?_ _ _ _ _ _ _ _ _ _ _ (Sub.le (by decide) hp)
    exact h3
  refine State.afterStep_frame ?_ _ (Sub.le (by decide) hp)
  exact h4

theorem State.dropRefused_frame {P : Part → Prop} {s0 s : State} (h : Frame P s0 s)  (hp : Sub 512 P) :
    Frame P s0 (State.dropRefused s) := by
  unfold State.dropRefused
  refine Frame.set_time ?_ (hp .time rfl) _
  exact h

theorem State.refuseCorr_frame {P : Part → Prop} {s0 s : State} (h : Frame P s0 s) (a_c : ℤ) (hp : Sub 1267651809227835992420716325634 P) :
    Frame P s0 (State.refuseCorr s a_c) := by
  unfold State.refuseCorr
  extract_lets -merge -useContext -underBinder +onlyGivenNames x0
  extract_lets -merge -useContext -underBinder +onlyGivenNames x1
  extract_lets -merge -useContext -underBinder +onlyGivenNames x2
  have h2 : Frame P s0 x2 := by
    unfold x2
    refine Frame.set_time ?_ (hp .time rfl) _
    exact h
  extract_lets -merge -useContext -underBinder +onlyGivenNames x3
  have h3 : Frame P s0 x3 := by
    unfold x3
    refine State.bump_frame ?_ _ (Reg.timeCntRefused_in (hp .regTime rfl)) (Sub.le (by decide) hp)
    refine State.wr_frame ?_ _ _ (Reg.timeRefusedHi_in (hp .regTime rfl)) (Sub.le (by decide) hp)
    refine State.wr_frame ?_ _ _ (Reg.timeRefusedLo_in (hp .regTime rfl)) (Sub.le (by decide) hp)
    exact h2
  extract_lets -merge -useContext -underBinder +onlyGivenNames x4
  have h4 : Frame P s0 x4 := by
    unfold x4
    refine State.post_frame ?_ _ _ _ _ _ _ _ _ (Sub.le (by decide) hp)
    refine State.raise_frame ?_ _ _ (Sub.le (by decide) hp)
    exact h3
  refine Frame.ite (fun _ => ?_) (fun _ => ?_)
  · refine State.checkHoldLimit_frame ?_  (Sub.le (by decide) hp)
    refine State.setQuality_frame ?_ _ (Sub.le (by decide) hp)
    exact h4
  · exact h4

theorem State.startSlew_frame {P : Part → Prop} {s0 s : State} (h : Frame P s0 s) (a_c : ℤ) (hp : Sub 1267650600228229401496703205888 P) :
    Frame P s0 (State.startSlew s a_c) := by
  unfold State.startSlew
  extract_lets -merge -useContext -underBinder +onlyGivenNames x0
  extract_lets -merge -useContext -underBinder +onlyGivenNames x1
  have h1 : Frame P s0 x1 := by
    unfold x1
    refine Frame.ite (fun _ => ?_) (fun _ => ?_)
    · refine Frame.set_time ?_ (hp .time rfl) _
      exact h
    · exact h
  refine State.wr_frame ?_ _ _ (Reg.timePendCorr_in (hp .regTime rfl)) (Sub.le (by decide) hp)
  refine State.dropRefused_frame ?_  (Sub.le (by decide) hp)
  exact h1

theorem State.adjPhase_frame {P : Part → Prop} {s0 s : State} (h : Frame P s0 s) (a_steward : Bool) (hp : Sub 1267652413690745799736385809154 P) :
    Frame P s0 (State.adjPhase s a_steward).2 := by
  unfold State.adjPhase
  extract_lets -merge -useContext -underBinder +onlyGivenNames x0
  refine Frame.ite2 (fun _ => ?_) (fun _ => ?_)
  · refine Frame.pair2 ?_
    exact h
  · refine Frame.ite2 (fun _ => ?_) (fun _ => ?_)
    · extract_lets -merge -useContext -underBinder +onlyGivenNames x1
      extract_lets -merge -useContext -underBinder +onlyGivenNames x2
      have h2 : Frame P s0 x2 := by
        unfold x2
        refine Frame.set_time ?_ (hp .time rfl) _
        exact h
      refine Frame.pair2 ?_
      refine State.forcedStep_frame ?_ _ _ _ (fun y3 h3 => ?_) (Sub.le (by decide) hp)
      · refine State.dropRefused_frame ?_  (Sub.le (by decide) hp)
        exact h2
      · refine State.stepCounter_frame ?_ _ (Sub.le (by decide) hp)
        exact h3
    · refine Frame.ite2 (fun _ => ?_) (fun _ => ?_)
      · refine Frame.pair2 ?_
        refine State.startSlew_frame ?_ _ (Sub.le (by decide) hp)
        exact h
      · refine Frame.pair2 ?_
        refine State.refuseCorr_frame ?_ _ (Sub.le (by decide) hp)
        exact h

theorem State.stepForce_frame {P : Part → Prop} {s0 s : State} (h : Frame P s0 s)  (hp : Sub 1267652413690745799736385809154 P) :
    Frame P s0 (State.stepForce s).2 := by
  unfold State.stepForce
  refine Frame.ite2 (fun _ => ?_) (fun _ => ?_)
  · refine Frame.pair2 ?_
    exact h
  · extract_lets -merge -useContext -underBinder +onlyGivenNames x0
    refine Frame.pair2 ?_
    refine State.forcedStep_frame ?_ _ _ _ (fun y1 h1 => ?_) (Sub.le (by decide) hp)
    · refine State.dropRefused_frame ?_  (Sub.le (by decide) hp)
      exact h
    · refine State.stepCounter_frame ?_ _ (Sub.le (by decide) hp)
      exact h1

theorem State.setTime_frame {P : Part → Prop} {s0 s : State} (h : Frame P s0 s)  (hp : Sub 1267652413690745799736385809154 P) :
    Frame P s0 (State.setTime s).2 := by
  unfold State.setTime
  refine Frame.ite2 (fun _ => ?_) (fun _ => ?_)
  · refine Frame.pair2 ?_
    exact h
  · extract_lets -merge -useContext -underBinder +onlyGivenNames x0
    refine Frame.pair2 ?_
    refine State.forcedStep_frame ?_ _ _ _ (fun y1 h1 => ?_) (Sub.le (by decide) hp)
    · refine State.dropRefused_frame ?_  (Sub.le (by decide) hp)
      exact h
    · refine State.setCounter_frame ?_ _ (Sub.le (by decide) hp)
      exact h1

theorem State.timeExecute_frame {P : Part → Prop} {s0 s : State} (h : Frame P s0 s) (a_c : Sys2Proof.Machine.TimeCmd) (hp : Sub 1267652413690745799736385809154 P) :
    Frame P s0 (State.timeExecute s a_c).2 := by
  unfold State.timeExecute
  split
  · refine State.readTime_frame ?_  (Sub.le (by decide) hp)
    exact h
  · refine State.adjPhase_frame ?_ _ (Sub.le (by decide) hp)
    exact h
  · refine State.rateSet_frame ?_ _ (Sub.le (by decide) hp)
    exact h
  · refine State.stepForce_frame ?_  (Sub.le (by decide) hp)
    exact h
  · refine State.setTime_frame ?_  (Sub.le (by decide) hp)
    exact h
  · refine State.setState_frame ?_ _ _ (Sub.le (by decide) hp)
    exact h

theorem State.slewed_frame {P : Part → Prop} {s0 s : State} (h : Frame P s0 s) (a_d : ℤ) (hp : Sub 1267650600228229401496703205888 P) :
    Frame P s0 (State.slewed s a_d) := by
  unfold State.slewed
  refine Frame.ite (fun _ => ?_) (fun _ => ?_)
  · exact h
  · extract_lets -merge -useContext -underBinder +onlyGivenNames x0
    extract_lets -merge -useContext -underBinder +onlyGivenNames x1
    have h1 : Frame P s0 x1 := by
      unfold x1
      refine Frame.set_time ?_ (hp .time rfl) _
      exact h
    refine State.wr_frame ?_ _ _ (Reg.timePendCorr_in (hp .regTime rfl)) (Sub.le (by decide) hp)
    exact h1

theorem State.tclkCount_frame {P : Part → Prop} {s0 s : State} (h : Frame P s0 s)  (hp : Sub 1267652413709192543810095360774 P) :
    Frame P s0 (State.tclkCount s) := by
  unfold State.tclkCount
  extract_lets -merge -useContext -underBinder +onlyGivenNames x0
  extract_lets -merge -useContext -underBinder +onlyGivenNames x1
  have h1 : Frame P s0 x1 := by
    unfold x1
    refine State.tickTimers_frame ?_  (Sub.le (by decide) hp)
    refine State.setCounter_frame ?_ _ (Sub.le (by decide) hp)
    exact h
  extract_lets -merge -useContext -underBinder +onlyGivenNames x2
  have h2 : Frame P s0 x2 := by
    unfold x2
    refine State.slewed_frame ?_ _ (Sub.le (by decide) hp)
    refine Frame.set_tclks ?_ (hp .tclks rfl) _
    exact h1
  split
  · exact h2
  · extract_lets -merge -useContext -underBinder +onlyGivenNames x5
    extract_lets -merge -useContext -underBinder +onlyGivenNames x6
    have h6 : Frame P s0 x6.2 := by
      unfold x6
      refine State.timeExecute_frame ?_ _ (Sub.le (by decide) hp)
      refine Frame.set_time ?_ (hp .time rfl) _
      exact h2
    refine State.mbxAnswer_frame ?_ _ _ (Sub.le (by decide) hp)
    exact h6

end Sys2Proof.Machine
end

