-- ==== Sys2Proof/Laws/FrameBus.lean ====
section
/-! SUPPORT. What each operation and each command may change: cores, engines, interrupts, the register map, accesses executed and the start. -/

namespace Sys2Proof.Machine

theorem State.setCore_frame {P : Part → Prop} {s0 s : State} (h : Frame P s0 s) (a_n : ℕ) (a_f : Sys2Proof.Machine.CoreSt → Sys2Proof.Machine.CoreSt) (hp : Sub 18014398509481984 P) :
    Frame P s0 (State.setCore s a_n a_f) := by
  unfold State.setCore
  refine Frame.set_cores ?_ (hp .cores rfl) _
  exact h

theorem State.wdtStart_frame {P : Part → Prop} {s0 s : State} (h : Frame P s0 s) (a_n : ℕ) (hp : Sub 18014398509481984 P) :
    Frame P s0 (State.wdtStart s a_n) := by
  unfold State.wdtStart
  extract_lets -merge -useContext -underBinder +onlyGivenNames x0
  refine State.setCore_frame ?_ _ _ (Sub.le (by decide) hp)
  exact h

theorem State.pairRun_frame {P : Part → Prop} {s0 s : State} (h : Frame P s0 s) (a_n : ℕ) (hp : Sub 158456325028546689585597382656 P) :
    Frame P s0 (State.pairRun s a_n) := by
  unfold State.pairRun
  extract_lets -merge -useContext -underBinder +onlyGivenNames x0
  have h0 : Frame P s0 x0 := by
    unfold x0
    refine State.setFld_frame ?_ _ _ _ _ (Reg.stwLockstep_in (hp .regStw rfl)) (Sub.le (by decide) hp)
    refine State.setFld_frame ?_ _ _ _ _ (Reg.stwStatus_in (hp .regStw rfl)) (Sub.le (by decide) hp)
    exact h
  extract_lets -merge -useContext -underBinder +onlyGivenNames x1
  have h1 : Frame P s0 x1 := by
    unfold x1
    refine State.setCore_frame ?_ _ _ (Sub.le (by decide) hp)
    exact h0
  refine State.wdtStart_frame ?_ _ (Sub.le (by decide) hp)
  exact h1

theorem State.pairHold_frame {P : Part → Prop} {s0 s : State} (h : Frame P s0 s) (a_n : ℕ) (hp : Sub 158456325028546689585597382656 P) :
    Frame P s0 (State.pairHold s a_n) := by
  unfold State.pairHold
  refine State.setCore_frame ?_ _ _ (Sub.le (by decide) hp)
  refine State.setFld_frame ?_ _ _ _ _ (Reg.stwStatus_in (hp .regStw rfl)) (Sub.le (by decide) hp)
  exact h

theorem State.noteFault_frame {P : Part → Prop} {s0 s : State} (h : Frame P s0 s) (a_n : ℕ) (hp : Sub 18014398509481984 P) :
    Frame P s0 (State.noteFault s a_n) := by
  unfold State.noteFault
  extract_lets -merge -useContext -underBinder +onlyGivenNames x0
  refine State.setCore_frame ?_ _ _ (Sub.le (by decide) hp)
  exact h

theorem State.pairFault_frame {P : Part → Prop} {s0 s : State} (_ : Frame P s0 s) (a_n : ℕ) (a_bit : ℕ) (a_cause : ℕ) (hp : Sub 40564819207303340847894502572031 P) :
    Frame P s0 (State.pairFault s a_n a_bit a_cause) := Frame.all hp

theorem execLockstepMiscompare_frame {P : Part → Prop} {s0 s : State} (_ : Frame P s0 s) (a_n : Fin 4) (a_pc : Sys2Proof.Word) (a_output : Fin 4) (hp : Sub 40564819207303340847894502572031 P) :
    AnswersIn P s0 (execLockstepMiscompare a_n a_pc a_output s) := ⟨_, rfl, Frame.all hp⟩

theorem State.tcmPut_frame {P : Part → Prop} {s0 s : State} (h : Frame P s0 s) (n off : Nat) (l : List Byte) (hp : Sub 36028797018963968 P) :
    Frame P s0 (s.tcmPut n off l) := by
  induction l generalizing s off with
  | nil => exact h
  | cons b l ih => exact ih (Frame.ite (fun _ => Frame.set_tcm h (hp .tcm rfl) _) (fun _ => h)) (off + 1)

theorem execPairAutoRestart_frame {P : Part → Prop} {s0 s : State} (h : Frame P s0 s) (a_n : Fin 4) (hp : Sub 158456325028582718382616346624 P) :
    AnswersIn P s0 (execPairAutoRestart a_n s) := by
  refine ⟨_, rfl, ?_⟩
  extract_lets -merge -useContext -underBinder +onlyGivenNames x0
  split
  · refine Frame.ite (fun _ => ?_) (fun _ => ?_)
    · extract_lets -merge -useContext -underBinder +onlyGivenNames x2
      have h2 : Frame P s0 x2 := by
        unfold x2
        split
        · refine State.tcmPut_frame ?_ _ _ _ (Sub.le (by decide) hp)
          exact h
        · exact h
      refine State.pairRun_frame ?_ _ (Sub.le (by decide) hp)
      exact h2
    · exact h
  · exact h

theorem execLockstepFaultForget_frame {P : Part → Prop} {s0 s : State} (h : Frame P s0 s) (a_n : Fin 4) (hp : Sub 77371252473350665724231680 P) :
    AnswersIn P s0 (execLockstepFaultForget a_n s) := by
  refine ⟨_, rfl, ?_⟩
  extract_lets -merge -useContext -underBinder +onlyGivenNames x0
  split
  · refine Frame.ite (fun _ => ?_) (fun _ => ?_)
    · extract_lets -merge -useContext -underBinder +onlyGivenNames x2
      extract_lets -merge -useContext -underBinder +onlyGivenNames x3
      have h3 : Frame P s0 x3 := by
        unfold x3
        refine State.setCore_frame ?_ _ _ (Sub.le (by decide) hp)
        exact h
      refine Frame.ite (fun _ => ?_) (fun _ => ?_)
      · exact h3
      · refine State.tryTake_frame ?_  (Sub.le (by decide) hp)
        exact Frame.foldl h3 fun y b hy => State.setFld_frame hy _ _ _ _ (Reg.leaseFault_in (hp .regLease rfl)) (Sub.le (by decide) hp)
    · exact h
  · exact h

theorem State.postWatchdog_frame {P : Part → Prop} {s0 s : State} (h : Frame P s0 s) (a_n : ℕ) (a_pc : Sys2Proof.Word) (hp : Sub 158457534028135266111101020418 P) :
    Frame P s0 (State.postWatchdog s a_n a_pc) := by
  unfold State.postWatchdog
  extract_lets -merge -useContext -underBinder +onlyGivenNames x0
  refine State.post_frame ?_ _ _ _ _ _ _ _ _ (Sub.le (by decide) hp)
  refine State.raise_frame ?_ _ _ (Sub.le (by decide) hp)
  refine State.bump_frame ?_ _ (Reg.stwCntWatchdog_in (hp .regStw rfl)) (Sub.le (by decide) hp)
  exact h

theorem State.wdtExpire_frame {P : Part → Prop} {s0 s : State} (_ : Frame P s0 s) (a_n : ℕ) (a_pc : Sys2Proof.Word) (hp : Sub 40564819207303340847894502572031 P) :
    Frame P s0 (State.wdtExpire s a_n a_pc) := Frame.all hp

theorem execWatchdogKick_frame {P : Part → Prop} {s0 s : State} (_ : Frame P s0 s) (a_n : Fin 5) (a_v : Sys2Proof.Word) (a_pc : Sys2Proof.Word) (hp : Sub 40564819207303340847894502572031 P) :
    AnswersIn P s0 (execWatchdogKick a_n a_v a_pc s) := ⟨_, rfl, Frame.all hp⟩

theorem execWatchdogWarning_frame {P : Part → Prop} {s0 s : State} (h : Frame P s0 s) (a_n : Fin 5) (hp : Sub 18014398509613056 P) :
    AnswersIn P s0 (execWatchdogWarning a_n s) := by
  refine ⟨_, rfl, ?_⟩
  extract_lets -merge -useContext -underBinder +onlyGivenNames x0
  split
  · refine Frame.ite (fun _ => ?_) (fun _ => ?_)
    · refine State.icuPrivate_frame ?_ _ _ (Sub.le (by decide) hp)
      refine State.setCore_frame ?_ _ _ (Sub.le (by decide) hp)
      exact h
    · exact h
  · exact h

theorem execWatchdogExpiry_frame {P : Part → Prop} {s0 s : State} (_ : Frame P s0 s) (a_n : Fin 5) (a_pc : Sys2Proof.Word) (hp : Sub 40564819207303340847894502572031 P) :
    AnswersIn P s0 (execWatchdogExpiry a_n a_pc s) := ⟨_, rfl, Frame.all hp⟩

theorem State.coreReset_frame {P : Part → Prop} {s0 s : State} (h : Frame P s0 s) (a_v : Sys2Proof.Word) (hp : Sub 158456325028546689585597382656 P) :
    Frame P s0 (State.coreReset s a_v) := by
  unfold State.coreReset
  refine Frame.foldl ?_ (fun y0 a0 h0 => ?_)
  · exact h
  · refine Frame.ite (fun _ => ?_) (fun _ => ?_)
    · refine State.setCore_frame ?_ _ _ (Sub.le (by decide) hp)
      refine State.pairHold_frame ?_ _ (Sub.le (by decide) hp)
      exact h0
    · exact h0

theorem State.coreRun_frame {P : Part → Prop} {s0 s : State} (h : Frame P s0 s) (a_v : Sys2Proof.Word) (hp : Sub 158456325028546689585597382656 P) :
    Frame P s0 (State.coreRun s a_v) := by
  unfold State.coreRun
  refine Frame.foldl ?_ (fun y0 a0 h0 => ?_)
  · exact h
  · refine Frame.ite (fun _ => ?_) (fun _ => ?_)
    · exact h0
    · refine Frame.ite (fun _ => ?_) (fun _ => ?_)
      · refine State.pairRun_frame ?_ _ (Sub.le (by decide) hp)
        exact h0
      · refine State.setFld_frame ?_ _ _ _ _ (Reg.stwLockstep_in (hp .regStw rfl)) (Sub.le (by decide) hp)
        exact h0

theorem execCoreCtrlReset_frame {P : Part → Prop} {s0 s : State} (h : Frame P s0 s) (a_v : Sys2Proof.Word) (hp : Sub 158456325028546689585597382656 P) :
    AnswersIn P s0 (execCoreCtrlReset a_v s) := by
  refine ⟨_, rfl, ?_⟩
  refine State.coreReset_frame ?_ _ (Sub.le (by decide) hp)
  exact h

theorem execCoreCtrlRun_frame {P : Part → Prop} {s0 s : State} (h : Frame P s0 s) (a_v : Sys2Proof.Word) (hp : Sub 158456325028546689585597382656 P) :
    AnswersIn P s0 (execCoreCtrlRun a_v s) := by
  refine ⟨_, rfl, ?_⟩
  refine State.coreRun_frame ?_ _ (Sub.le (by decide) hp)
  exact h

theorem State.wdtCfgWrite_frame {P : Part → Prop} {s0 s : State} (h : Frame P s0 s) (a_n : ℕ) (a_v : Sys2Proof.Word) (hp : Sub 158456325028546689585597382656 P) :
    Frame P s0 (State.wdtCfgWrite s a_n a_v) := by
  unfold State.wdtCfgWrite
  extract_lets -merge -useContext -underBinder +onlyGivenNames x0
  extract_lets -merge -useContext -underBinder +onlyGivenNames x1
  have h1 : Frame P s0 x1 := by
    unfold x1
    refine State.wr_frame ?_ _ _ (Reg.stwWdtCfg_in _ (by omega) (hp .regStw rfl)) (Sub.le (by decide) hp)
    exact h
  refine Frame.ite (fun _ => ?_) (fun _ => ?_)
  · refine Frame.ite (fun _ => ?_) (fun _ => ?_)
    · exact h1
    · refine State.wdtStart_frame ?_ _ (Sub.le (by decide) hp)
      exact h1
  · refine State.setCore_frame ?_ _ _ (Sub.le (by decide) hp)
    exact h1

theorem State.scrubFind_frame {P : Part → Prop} {s0 s : State} (h : Frame P s0 s) (a_page : ℕ) (a_mem : ℕ) (a_fault : Bool) (a_ecc : Sys2Proof.ReadEcc) (hp : Sub 388065261883272260019759490 P) :
    Frame P s0 (State.scrubFind s a_page a_mem a_fault a_ecc) := by
  unfold State.scrubFind
  split
  · exact h
  · refine State.eccNote_frame ?_ _ _ _ _ _ _ (Sub.le (by decide) hp)
    exact h
  · extract_lets -merge -useContext -underBinder +onlyGivenNames x3
    have h3 : Frame P s0 x3 := by
      unfold x3
      refine State.eccNote_frame ?_ _ _ _ _ _ _ (Sub.le (by decide) hp)
      exact h
    refine Frame.ite (fun _ => ?_) (fun _ => ?_)
    · refine State.leaseFault_frame ?_ _ (Sub.le (by decide) hp)
      exact h3
    · exact h3

theorem execMemoryScrub_frame {P : Part → Prop} {s0 s : State} (_ : Frame P s0 s) (a_m : Sys2Proof.ScrubMem) (a_ecc : Sys2Proof.ReadEcc) (hp : Sub 40564819207303340847894502572031 P) :
    AnswersIn P s0 (execMemoryScrub a_m a_ecc s) := ⟨_, rfl, Frame.all hp⟩

theorem execEccReportRepost_frame {P : Part → Prop} {s0 s : State} (h : Frame P s0 s) (a_page : Fin 256) (a_mem : Fin 16) (a_uncorr : Bool) (hp : Sub 1208999606590924013119874 P) :
    AnswersIn P s0 (execEccReportRepost a_page a_mem a_uncorr s) := by
  refine ⟨_, rfl, ?_⟩
  extract_lets -merge -useContext -underBinder +onlyGivenNames x0
  refine Frame.ite (fun _ => ?_) (fun _ => ?_)
  · exact h
  · refine State.eccPost_frame ?_ _ _ _ (Sub.le (by decide) hp)
    exact h

theorem State.engSync_frame {P : Part → Prop} {s0 s : State} (h : Frame P s0 s) (a_e : ℕ) (a_n : ℕ) (a_left : ℕ) (hp : Sub 35184372088832 P) :
    Frame P s0 (State.engSync s a_e a_n a_left) := by
  unfold State.engSync
  refine State.setEng_frame ?_ _ _ (Sub.le (by decide) hp)
  exact h

theorem State.engRestart_frame {P : Part → Prop} {s0 s : State} (h : Frame P s0 s) (a_e : ℕ) (a_n : ℕ) (a_left : ℕ) (hp : Sub 35184372088832 P) :
    Frame P s0 (State.engRestart s a_e a_n a_left) := by
  unfold State.engRestart
  refine State.setEng_frame ?_ _ _ (Sub.le (by decide) hp)
  exact h

theorem State.engCfgWrite_frame {P : Part → Prop} {s0 s : State} (h : Frame P s0 s) (a_e : ℕ) (a_v : Sys2Proof.Word) (hp : Sub 37778931898141533798400 P) :
    Frame P s0 (State.engCfgWrite s a_e a_v) := by
  unfold State.engCfgWrite
  extract_lets -merge -useContext -underBinder +onlyGivenNames x0
  refine State.wr_frame ?_ _ _ (Reg.chEngCfg_in _ (hp .regCh rfl)) (Sub.le (by decide) hp)
  refine State.engSync_frame ?_ _ _ _ (Sub.le (by decide) hp)
  exact h

theorem State.engPost_frame {P : Part → Prop} {s0 s : State} (h : Frame P s0 s) (a_e : ℕ) (a_ty : ℕ) (a_flags : ℕ) (a_t : Sys2Proof.TimePoint) (a_w4 : Sys2Proof.Word) (a_w5 : Sys2Proof.Word) (a_w6 : Sys2Proof.Word) (a_w7 : Sys2Proof.Word) (hp : Sub 1208999606590924013119746 P) :
    Frame P s0 (State.engPost s a_e a_ty a_flags a_t a_w4 a_w5 a_w6 a_w7) := by
  unfold State.engPost
  refine State.postAt_frame ?_ _ _ _ _ _ _ _ _ _ _ (Sub.le (by decide) hp)
  exact h

theorem State.engHalt_frame {P : Part → Prop} {s0 s : State} (h : Frame P s0 s) (a_e : ℕ) (a_cause : ℕ) (a_code : ℕ) (a_t : Sys2Proof.TimePoint) (hp : Sub 1208999606626108385208578 P) :
    Frame P s0 (State.engHalt s a_e a_cause a_code a_t) := by
  unfold State.engHalt
  extract_lets -merge -useContext -underBinder +onlyGivenNames x0
  refine Frame.ite (fun _ => ?_) (fun _ => ?_)
  · extract_lets -merge -useContext -underBinder +onlyGivenNames x1
    have h1 : Frame P s0 x1 := by
      unfold x1
      refine State.setEng_frame ?_ _ _ (Sub.le (by decide) hp)
      exact h
    extract_lets -merge -useContext -underBinder +onlyGivenNames x2
    have h2 : Frame P s0 x2 := by
      unfold x2
      refine State.raise_frame ?_ _ _ (Sub.le (by decide) hp)
      exact h1
    refine Frame.ite (fun _ => ?_) (fun _ => ?_)
    · refine State.engPost_frame ?_ _ _ _ _ _ _ _ _ (Sub.le (by decide) hp)
      exact h2
    · exact h2
  · exact h

theorem State.engDisable_frame {P : Part → Prop} {s0 s : State} (h : Frame P s0 s) (a_e : ℕ) (hp : Sub 1208999606626108385208578 P) :
    Frame P s0 (State.engDisable s a_e) := by
  unfold State.engDisable
  refine Frame.ite (fun _ => ?_) (fun _ => ?_)
  · refine State.setEng_frame ?_ _ _ (Sub.le (by decide) hp)
    refine State.engHalt_frame ?_ _ _ _ _ (Sub.le (by decide) hp)
    exact h
  · exact h

theorem State.engReset_frame {P : Part → Prop} {s0 s : State} (h : Frame P s0 s) (a_e : ℕ) (hp : Sub 35184372088832 P) :
    Frame P s0 (State.engReset s a_e) := by
  unfold State.engReset
  extract_lets -merge -useContext -underBinder +onlyGivenNames x0
  refine State.setEng_frame ?_ _ _ (Sub.le (by decide) hp)
  exact h

theorem State.engGoto_frame {P : Part → Prop} {s0 s : State} (h : Frame P s0 s) (a_e : ℕ) (a_a : ℕ) (a_t : Sys2Proof.TimePoint) (hp : Sub 1208999606626108385208578 P) :
    Frame P s0 (State.engGoto s a_e a_a a_t) := by
  unfold State.engGoto
  extract_lets -merge -useContext -underBinder +onlyGivenNames x0
  have h0 : Frame P s0 x0 := by
    unfold x0
    refine State.setEng_frame ?_ _ _ (Sub.le (by decide) hp)
    exact h
  refine Frame.ite (fun _ => ?_) (fun _ => ?_)
  · exact h0
  · refine State.engHalt_frame ?_ _ _ _ _ (Sub.le (by decide) hp)
    exact h0

theorem State.engAdvance_frame {P : Part → Prop} {s0 s : State} (h : Frame P s0 s) (a_e : ℕ) (a_t : Sys2Proof.TimePoint) (hp : Sub 1208999606626108385208578 P) :
    Frame P s0 (State.engAdvance s a_e a_t) := by
  unfold State.engAdvance
  extract_lets -merge -useContext -underBinder +onlyGivenNames x0
  extract_lets -merge -useContext -underBinder +onlyGivenNames x1
  refine Frame.ite (fun _ => ?_) (fun _ => ?_)
  · refine Frame.ite (fun _ => ?_) (fun _ => ?_)
    · refine State.setEng_frame ?_ _ _ (Sub.le (by decide) hp)
      exact h
    · refine State.engGoto_frame ?_ _ _ _ (Sub.le (by decide) hp)
      exact h
  · refine State.engGoto_frame ?_ _ _ _ (Sub.le (by decide) hp)
    exact h

theorem State.engSwap_frame {P : Part → Prop} {s0 s : State} (h : Frame P s0 s) (a_e : ℕ) (hp : Sub 37778931898141533798400 P) :
    Frame P s0 (State.engSwap s a_e) := by
  unfold State.engSwap
  extract_lets -merge -useContext -underBinder +onlyGivenNames x0
  extract_lets -merge -useContext -underBinder +onlyGivenNames x1
  have h1 : Frame P s0 x1 := by
    unfold x1
    refine State.wr_frame ?_ _ _ (Reg.chEngWrap_in _ (hp .regCh rfl)) (Sub.le (by decide) hp)
    refine State.wr_frame ?_ _ _ (Reg.chEngEntry_in _ (hp .regCh rfl)) (Sub.le (by decide) hp)
    exact h
  refine State.setEng_frame ?_ _ _ (Sub.le (by decide) hp)
  exact h1

theorem State.commitDone_frame {P : Part → Prop} {s0 s : State} (h : Frame P s0 s) (a_e : ℕ) (a_next : ℕ) (a_immediate : Bool) (a_t : Sys2Proof.TimePoint) (hp : Sub 1208999606590924013119746 P) :
    Frame P s0 (State.commitDone s a_e a_next a_immediate a_t) := by
  unfold State.commitDone
  extract_lets -merge -useContext -underBinder +onlyGivenNames x0
  have h0 : Frame P s0 x0 := by
    unfold x0
    refine State.raise_frame ?_ _ _ (Sub.le (by decide) hp)
    exact h
  refine State.engPost_frame ?_ _ _ _ _ _ _ _ _ (Sub.le (by decide) hp)
  exact h0

theorem State.engAbandon_frame {P : Part → Prop} {s0 s : State} (h : Frame P s0 s) (a_e : ℕ) (a_reason : ℕ) (a_t : Sys2Proof.TimePoint) (hp : Sub 1208999606626108385208578 P) :
    Frame P s0 (State.engAbandon s a_e a_reason a_t) := by
  unfold State.engAbandon
  extract_lets -merge -useContext -underBinder +onlyGivenNames x0
  extract_lets -merge -useContext -underBinder +onlyGivenNames x1
  have h1 : Frame P s0 x1 := by
    unfold x1
    refine State.setEng_frame ?_ _ _ (Sub.le (by decide) hp)
    exact h
  refine Frame.ite (fun _ => ?_) (fun _ => ?_)
  · extract_lets -merge -useContext -underBinder +onlyGivenNames x2
    have h2 : Frame P s0 x2 := by
      unfold x2
      refine State.setEng_frame ?_ _ _ (Sub.le (by decide) hp)
      exact h1
    refine State.engPost_frame ?_ _ _ _ _ _ _ _ _ (Sub.le (by decide) hp)
    refine State.raise_frame ?_ _ _ (Sub.le (by decide) hp)
    exact h2
  · exact h1

theorem State.engCommit_frame {P : Part → Prop} {s0 s : State} (h : Frame P s0 s) (a_e : ℕ) (a_immediate : Bool) (hp : Sub 1246778538489065546918146 P) :
    Frame P s0 (State.engCommit s a_e a_immediate) := by
  unfold State.engCommit
  extract_lets -merge -useContext -underBinder +onlyGivenNames x0
  extract_lets -merge -useContext -underBinder +onlyGivenNames x1
  extract_lets -merge -useContext -underBinder +onlyGivenNames x2
  refine Frame.ite (fun _ => ?_) (fun _ => ?_)
  · refine State.bump_frame ?_ _ (Reg.chCntProgRefused_in _ (hp .regCh rfl)) (Sub.le (by decide) hp)
    exact h
  · extract_lets -merge -useContext -underBinder +onlyGivenNames x3
    have h3 : Frame P s0 x3 := by
      unfold x3
      refine State.setEng_frame ?_ _ _ (Sub.le (by decide) hp)
      exact h
    extract_lets -merge -useContext -underBinder +onlyGivenNames x4
    extract_lets -merge -useContext -underBinder +onlyGivenNames x5
    have h5 : Frame P s0 x5 := by
      unfold x5
      refine Frame.ite (fun _ => ?_) (fun _ => ?_)
      · refine State.engAbandon_frame ?_ _ _ _ (Sub.le (by decide) hp)
        exact h3
      · exact h3
    refine Frame.ite (fun _ => ?_) (fun _ => ?_)
    · refine State.commitDone_frame ?_ _ _ _ _ (Sub.le (by decide) hp)
      refine State.engSwap_frame ?_ _ (Sub.le (by decide) hp)
      exact h5
    · refine Frame.ite (fun _ => ?_) (fun _ => ?_)
      · refine State.engGoto_frame ?_ _ _ _ (Sub.le (by decide) hp)
        refine State.engSync_frame ?_ _ _ _ (Sub.le (by decide) hp)
        refine State.commitDone_frame ?_ _ _ _ _ (Sub.le (by decide) hp)
        refine State.engSwap_frame ?_ _ (Sub.le (by decide) hp)
        exact h5
      · refine State.setEng_frame ?_ _ _ (Sub.le (by decide) hp)
        exact h5

theorem execCommitSwap_frame {P : Part → Prop} {s0 s : State} (h : Frame P s0 s) (a_c : Fin 64) (a_d : Fin 40) (hp : Sub 1246778538489065546918146 P) :
    AnswersIn P s0 (execCommitSwap a_c a_d s) := by
  refine ⟨_, rfl, ?_⟩
  extract_lets -merge -useContext -underBinder +onlyGivenNames x0
  refine Frame.ite (fun _ => ?_) (fun _ => ?_)
  · extract_lets -merge -useContext -underBinder +onlyGivenNames x1
    have h1 : Frame P s0 x1 := by
      unfold x1
      refine State.engSwap_frame ?_ _ (Sub.le (by decide) hp)
      exact h
    extract_lets -merge -useContext -underBinder +onlyGivenNames x2
    refine State.engGoto_frame ?_ _ _ _ (Sub.le (by decide) hp)
    refine State.commitDone_frame ?_ _ _ _ _ (Sub.le (by decide) hp)
    exact h1
  · exact h

theorem State.engCancel_frame {P : Part → Prop} {s0 s : State} (h : Frame P s0 s) (a_e : ℕ) (hp : Sub 1208999606626108385208578 P) :
    Frame P s0 (State.engCancel s a_e) := by
  unfold State.engCancel
  extract_lets -merge -useContext -underBinder +onlyGivenNames x0
  extract_lets -merge -useContext -underBinder +onlyGivenNames x1
  have h1 : Frame P s0 x1 := by
    unfold x1
    refine State.setEng_frame ?_ _ _ (Sub.le (by decide) hp)
    exact h
  refine Frame.ite (fun _ => ?_) (fun _ => ?_)
  · refine State.engAdvance_frame ?_ _ _ (Sub.le (by decide) hp)
    exact h1
  · exact h1

theorem State.engCopy_frame {P : Part → Prop} {s0 s : State} (h : Frame P s0 s) (a_e : ℕ) (hp : Sub 35184372088832 P) :
    Frame P s0 (State.engCopy s a_e) := by
  unfold State.engCopy
  refine State.setEng_frame ?_ _ _ (Sub.le (by decide) hp)
  exact h

theorem execCopyDone_frame {P : Part → Prop} {s0 s : State} (h : Frame P s0 s) (a_c : Fin 64) (hp : Sub 35184372350976 P) :
    AnswersIn P s0 (execCopyDone a_c s) := by
  refine ⟨_, rfl, ?_⟩
  extract_lets -merge -useContext -underBinder +onlyGivenNames x0
  refine Frame.ite (fun _ => ?_) (fun _ => ?_)
  · extract_lets -merge -useContext -underBinder +onlyGivenNames x1
    extract_lets -merge -useContext -underBinder +onlyGivenNames x2
    have h2 : Frame P s0 x2 := by
      unfold x2
      refine Frame.foldl ?_ (fun y3 a3 h3 => ?_)
      · exact h
      · refine State.sramSet_frame ?_ _ _ (Sub.le (by decide) hp)
        exact h3
    refine State.setEng_frame ?_ _ _ (Sub.le (by decide) hp)
    exact h2
  · exact h

theorem State.startEvent_frame {P : Part → Prop} {s0 s : State} (h : Frame P s0 s) (a_engines : BitVec 64) (a_target : Option Sys2Proof.TimePoint) (hp : Sub 633825300114114771117096828928 P) :
    Frame P s0 (State.startEvent s a_engines a_target) := by
  unfold State.startEvent
  extract_lets -merge -useContext -underBinder +onlyGivenNames x0
  have h0 : Frame P s0 x0 := by
    unfold x0
    refine Frame.set_starts ?_ (hp .starts rfl) _
    exact h
  refine Frame.foldl ?_ (fun y1 a1 h1 => ?_)
  · exact h0
  · refine Frame.ite (fun _ => ?_) (fun _ => ?_)
    · exact h1
    · refine State.tileWake_frame ?_ _ (Sub.le (by decide) hp)
      exact h1

theorem State.engStart_frame {P : Part → Prop} {s0 s : State} (h : Frame P s0 s) (a_e : ℕ) (hp : Sub 633825300114114771117096828928 P) :
    Frame P s0 (State.engStart s a_e) := by
  unfold State.engStart
  refine State.startEvent_frame ?_ _ _ (Sub.le (by decide) hp)
  exact h

theorem State.grpStart_frame {P : Part → Prop} {s0 s : State} (h : Frame P s0 s)  (hp : Sub 633825300114114771117096828928 P) :
    Frame P s0 (State.grpStart s) := by
  unfold State.grpStart
  refine State.startEvent_frame ?_ _ _ (Sub.le (by decide) hp)
  exact h

theorem State.startEngine_frame {P : Part → Prop} {s0 s : State} (h : Frame P s0 s) (a_e : ℕ) (a_n : ℕ) (a_t : Sys2Proof.TimePoint) (hp : Sub 1246778538489065546918146 P) :
    Frame P s0 (State.startEngine s a_e a_n a_t) := by
  unfold State.startEngine
  extract_lets -merge -useContext -underBinder +onlyGivenNames x0
  extract_lets -merge -useContext -underBinder +onlyGivenNames x1
  refine Frame.ite (fun _ => ?_) (fun _ => ?_)
  · exact h
  · extract_lets -merge -useContext -underBinder +onlyGivenNames x2
    have h2 : Frame P s0 x2 := by
      unfold x2
      refine State.setEng_frame ?_ _ _ (Sub.le (by decide) hp)
      exact h
    refine Frame.ite (fun _ => ?_) (fun _ => ?_)
    · refine State.bump_frame ?_ _ (Reg.chCntStartIgnored_in _ (hp .regCh rfl)) (Sub.le (by decide) hp)
      exact h2
    · extract_lets -merge -useContext -underBinder +onlyGivenNames x3
      have h3 : Frame P s0 x3 := by
        unfold x3
        refine State.raise_frame ?_ _ _ (Sub.le (by decide) hp)
        exact h2
      refine Frame.ite (fun _ => ?_) (fun _ => ?_)
      · refine State.engGoto_frame ?_ _ _ _ (Sub.le (by decide) hp)
        refine State.engRestart_frame ?_ _ _ _ (Sub.le (by decide) hp)
        refine State.setEng_frame ?_ _ _ (Sub.le (by decide) hp)
        exact h3
      · refine Frame.ite (fun _ => ?_) (fun _ => ?_)
        · refine State.engAdvance_frame ?_ _ _ (Sub.le (by decide) hp)
          refine State.engRestart_frame ?_ _ _ _ (Sub.le (by decide) hp)
          refine State.setEng_frame ?_ _ _ (Sub.le (by decide) hp)
          exact h3
        · refine Frame.ite (fun _ => ?_) (fun _ => ?_)
          · refine State.engGoto_frame ?_ _ _ _ (Sub.le (by decide) hp)
            refine State.engRestart_frame ?_ _ _ _ (Sub.le (by decide) hp)
            refine State.engAbandon_frame ?_ _ _ _ (Sub.le (by decide) hp)
            exact h3
          · refine State.engRestart_frame ?_ _ _ _ (Sub.le (by decide) hp)
            exact h3

theorem execStartEventAct_frame {P : Part → Prop} {s0 s : State} (h : Frame P s0 s) (a_i : ℕ) (a_d : Fin 40) (hp : Sub 1246778538559434291095810 P) :
    AnswersIn P s0 (execStartEventAct a_i a_d s) := by
  refine ⟨_, rfl, ?_⟩
  split
  · refine Frame.ite (fun _ => ?_) (fun _ => ?_)
    · extract_lets -merge -useContext -underBinder +onlyGivenNames x1
      extract_lets -merge -useContext -underBinder +onlyGivenNames x2
      extract_lets -merge -useContext -underBinder +onlyGivenNames x3
      have h3 : Frame P s0 x3 := by
        unfold x3
        refine Frame.set_starts ?_ (hp .starts rfl) _
        exact h
      refine Frame.foldl ?_ (fun y4 a4 h4 => ?_)
      · exact h3
      · refine State.startEngine_frame ?_ _ _ _ (Sub.le (by decide) hp)
        exact h4
    · exact h
  · exact h

theorem State.engCommand_frame {P : Part → Prop} {s0 s : State} (h : Frame P s0 s) (a_e : ℕ) (a_v : Sys2Proof.Word) (hp : Sub 633826546892653260182643747074 P) :
    Frame P s0 (State.engCommand s a_e a_v) := by
  unfold State.engCommand
  extract_lets -merge -useContext -underBinder +onlyGivenNames x0
  have h0 : Frame P s0 x0 := by
    unfold x0
    refine Frame.ite (fun _ => ?_) (fun _ => ?_)
    · refine State.engReset_frame ?_ _ (Sub.le (by decide) hp)
      exact h
    · exact h
  extract_lets -merge -useContext -underBinder +onlyGivenNames x1
  have h1 : Frame P s0 x1 := by
    unfold x1
    refine Frame.ite (fun _ => ?_) (fun _ => ?_)
    · refine State.engCommit_frame ?_ _ _ (Sub.le (by decide) hp)
      exact h0
    · exact h0
  extract_lets -merge -useContext -underBinder +onlyGivenNames x2
  have h2 : Frame P s0 x2 := by
    unfold x2
    refine Frame.ite (fun _ => ?_) (fun _ => ?_)
    · refine State.engCancel_frame ?_ _ (Sub.le (by decide) hp)
      exact h1
    · exact h1
  extract_lets -merge -useContext -underBinder +onlyGivenNames x3
  have h3 : Frame P s0 x3 := by
    unfold x3
    refine Frame.ite (fun _ => ?_) (fun _ => ?_)
    · refine State.engCopy_frame ?_ _ (Sub.le (by decide) hp)
      exact h2
    · exact h2
  extract_lets -merge -useContext -underBinder +onlyGivenNames x4
  have h4 : Frame P s0 x4 := by
    unfold x4
    refine Frame.ite (fun _ => ?_) (fun _ => ?_)
    · refine State.engStart_frame ?_ _ (Sub.le (by decide) hp)
      exact h3
    · exact h3
  refine Frame.ite (fun _ => ?_) (fun _ => ?_)
  · refine State.engHalt_frame ?_ _ _ _ _ (Sub.le (by decide) hp)
    exact h4
  · exact h4

theorem State.engSegWrite_frame {P : Part → Prop} {s0 s : State} (h : Frame P s0 s) (a_e : ℕ) (a_v : Sys2Proof.Word) (hp : Sub 37778931898141533798400 P) :
    Frame P s0 (State.engSegWrite s a_e a_v) := by
  unfold State.engSegWrite
  extract_lets -merge -useContext -underBinder +onlyGivenNames x0
  extract_lets -merge -useContext -underBinder +onlyGivenNames x1
  have h1 : Frame P s0 x1 := by
    unfold x1
    refine State.setEng_frame ?_ _ _ (Sub.le (by decide) hp)
    exact h
  refine Frame.ite (fun _ => ?_) (fun _ => ?_)
  · exact h1
  · refine State.wr_frame ?_ _ _ (Reg.chEngSeg_in _ (hp .regCh rfl)) (Sub.le (by decide) hp)
    exact h1

theorem State.engProgWrite_frame {P : Part → Prop} {s0 s : State} (h : Frame P s0 s) (a_e : ℕ) (a_v : Sys2Proof.Word) (hp : Sub 37778931862957161971712 P) :
    Frame P s0 (State.engProgWrite s a_e a_v) := by
  unfold State.engProgWrite
  extract_lets -merge -useContext -underBinder +onlyGivenNames x0
  extract_lets -merge -useContext -underBinder +onlyGivenNames x1
  extract_lets -merge -useContext -underBinder +onlyGivenNames x2
  refine Frame.ite (fun _ => ?_) (fun _ => ?_)
  · refine State.bump_frame ?_ _ (Reg.chCntProgRefused_in _ (hp .regCh rfl)) (Sub.le (by decide) hp)
    exact h
  · extract_lets -merge -useContext -underBinder +onlyGivenNames x3
    have h3 : Frame P s0 x3 := by
      unfold x3
      refine State.sramSet_frame ?_ _ _ (Sub.le (by decide) hp)
      exact h
    refine Frame.ite (fun _ => ?_) (fun _ => ?_)
    · refine State.wr_frame ?_ _ _ (Reg.chEngProgAddr_in _ (hp .regCh rfl)) (Sub.le (by decide) hp)
      exact h3
    · exact h3

theorem State.engFlagSet_frame {P : Part → Prop} {s0 s : State} (h : Frame P s0 s) (a_e : ℕ) (a_v : Sys2Proof.Word) (hp : Sub 35184372088832 P) :
    Frame P s0 (State.engFlagSet s a_e a_v) := by
  unfold State.engFlagSet
  refine State.setEng_frame ?_ _ _ (Sub.le (by decide) hp)
  exact h

theorem State.engFlagClr_frame {P : Part → Prop} {s0 s : State} (h : Frame P s0 s) (a_e : ℕ) (a_v : Sys2Proof.Word) (hp : Sub 35184372088832 P) :
    Frame P s0 (State.engFlagClr s a_e a_v) := by
  unfold State.engFlagClr
  refine State.setEng_frame ?_ _ _ (Sub.le (by decide) hp)
  exact h

theorem State.engMarkWrite_frame {P : Part → Prop} {s0 s : State} (h : Frame P s0 s) (a_e : ℕ) (a_v : Sys2Proof.Word) (hp : Sub 35184372088832 P) :
    Frame P s0 (State.engMarkWrite s a_e a_v) := by
  unfold State.engMarkWrite
  refine State.setEng_frame ?_ _ _ (Sub.le (by decide) hp)
  exact h

theorem State.engOsrWrite_frame {P : Part → Prop} {s0 s : State} (h : Frame P s0 s) (a_e : ℕ) (a_v : Sys2Proof.Word) (hp : Sub 35184372088832 P) :
    Frame P s0 (State.engOsrWrite s a_e a_v) := by
  unfold State.engOsrWrite
  refine State.setEng_frame ?_ _ _ (Sub.le (by decide) hp)
  exact h

theorem State.engXyWrite_frame {P : Part → Prop} {s0 s : State} (h : Frame P s0 s) (a_e : ℕ) (a_v : Sys2Proof.Word) (hp : Sub 35184372088832 P) :
    Frame P s0 (State.engXyWrite s a_e a_v) := by
  unfold State.engXyWrite
  refine State.setEng_frame ?_ _ _ (Sub.le (by decide) hp)
  exact h

theorem State.engCntWrite_frame {P : Part → Prop} {s0 s : State} (h : Frame P s0 s) (a_e : ℕ) (a_v : Sys2Proof.Word) (hp : Sub 35184372088832 P) :
    Frame P s0 (State.engCntWrite s a_e a_v) := by
  unfold State.engCntWrite
  refine State.setEng_frame ?_ _ _ (Sub.le (by decide) hp)
  exact h

theorem State.conflictsTo_frame {P : Part → Prop} {s0 s : State} (h : Frame P s0 s) (a_t : ℕ) (a_n : ℕ) (hp : Sub 37778931862957162758144 P) :
    Frame P s0 (State.conflictsTo s a_t a_n) := by
  unfold State.conflictsTo
  extract_lets -merge -useContext -underBinder +onlyGivenNames x0
  extract_lets -merge -useContext -underBinder +onlyGivenNames x1
  have h1 : Frame P s0 x1 := by
    unfold x1
    refine Frame.foldl ?_ (fun y2 a2 h2 => ?_)
    · exact h
    · refine State.bumpBy_frame ?_ _ _ (Reg.chCntDriveConflict_in _ (hp .regCh rfl)) (Sub.le (by decide) hp)
      exact h2
  refine State.setTile_frame ?_ _ _ (Sub.le (by decide) hp)
  exact h1

theorem State.funcWrite_frame {P : Part → Prop} {s0 s : State} (h : Frame P s0 s) (a_c : ℕ) (a_v : Sys2Proof.Word) (hp : Sub 38369227673315867361280 P) :
    Frame P s0 (State.funcWrite s a_c a_v) := by
  unfold State.funcWrite
  extract_lets -merge -useContext -underBinder +onlyGivenNames x0
  refine Frame.ite (fun _ => ?_) (fun _ => ?_)
  · refine State.wr_frame ?_ _ _ (Reg.status_in _ (hp .regStatus rfl)) (Sub.le (by decide) hp)
    exact h
  · refine Frame.ite (fun _ => ?_) (fun _ => ?_)
    · exact h
    · refine State.wr_frame ?_ _ _ (Reg.chFunc_in _ (hp .regCh rfl)) (Sub.le (by decide) hp)
      refine State.wr_frame ?_ _ _ (Reg.status_in _ (hp .regStatus rfl)) (Sub.le (by decide) hp)
      exact h

theorem State.engTake_frame {P : Part → Prop} {s0 s : State} (h : Frame P s0 s) (a_e : ℕ) (a_n : ℕ) (a_w : Sys2Proof.Word) (hp : Sub 35184372088832 P) :
    Frame P s0 (State.engTake s a_e a_n a_w) := by
  unfold State.engTake
  refine State.engSync_frame ?_ _ _ _ (Sub.le (by decide) hp)
  exact h

theorem State.engRun_frame {P : Part → Prop} {s0 s : State} (h : Frame P s0 s) (a_e : ℕ) (a_d : ℕ) (a_is : Sys2Proof.Word → Bool) (a_act : Sys2Proof.Word → Sys2Proof.Machine.State → Sys2Proof.Machine.State) (Ha_act : ∀ z0 z1, Frame P s0 z1 → Frame P s0 (a_act z0 z1)) (hp : Sub 35184372088832 P) :
    Frame P s0 (State.engRun s a_e a_d a_is a_act) := by
  unfold State.engRun
  extract_lets -merge -useContext -underBinder +onlyGivenNames x0
  refine Frame.ite (fun _ => ?_) (fun _ => ?_)
  · refine Ha_act _ _ ?_
    refine State.engTake_frame ?_ _ _ _ (Sub.le (by decide) hp)
    exact h
  · exact h

theorem execHalt_frame {P : Part → Prop} {s0 s : State} (h : Frame P s0 s) (a_c : Fin 64) (a_d : Fin 40) (hp : Sub 1208999606626108385208578 P) :
    AnswersIn P s0 (execHalt a_c a_d s) := by
  refine ⟨_, rfl, ?_⟩
  refine State.engRun_frame ?_ _ _ _ _ (fun _ y0 h0 => ?_) (Sub.le (by decide) hp)
  · exact h
  · refine State.engHalt_frame ?_ _ _ _ _ (Sub.le (by decide) hp)
    exact h0

theorem execShiftOut_frame {P : Part → Prop} {s0 s : State} (h : Frame P s0 s) (a_c : Fin 64) (a_d : Fin 40) (hp : Sub 1208999606626108385208578 P) :
    AnswersIn P s0 (execShiftOut a_c a_d s) := by
  refine ⟨_, rfl, ?_⟩
  refine State.engRun_frame ?_ _ _ _ _ (fun _ y0 h0 => ?_) (Sub.le (by decide) hp)
  · exact h
  · extract_lets -merge -useContext -underBinder +onlyGivenNames x1
    split
    · extract_lets -merge -useContext -underBinder +onlyGivenNames x3
      extract_lets -merge -useContext -underBinder +onlyGivenNames x4
      have h4 : Frame P s0 x4 := by
        unfold x4
        refine State.setEng_frame ?_ _ _ (Sub.le (by decide) hp)
        exact h0
      extract_lets -merge -useContext -underBinder +onlyGivenNames x5
      have h5 : Frame P s0 x5 := by
        unfold x5
        refine State.setEng_frame ?_ _ _ (Sub.le (by decide) hp)
        exact h4
      refine State.engAdvance_frame ?_ _ _ (Sub.le (by decide) hp)
      exact h5

theorem execShiftIn_frame {P : Part → Prop} {s0 s : State} (h : Frame P s0 s) (a_c : Fin 64) (a_d : Fin 40) (hp : Sub 1208999606626108385208578 P) :
    AnswersIn P s0 (execShiftIn a_c a_d s) := by
  refine ⟨_, rfl, ?_⟩
  refine State.engRun_frame ?_ _ _ _ _ (fun _ y0 h0 => ?_) (Sub.le (by decide) hp)
  · exact h
  · extract_lets -merge -useContext -underBinder +onlyGivenNames x1
    extract_lets -merge -useContext -underBinder +onlyGivenNames x2
    extract_lets -merge -useContext -underBinder +onlyGivenNames x3
    extract_lets -merge -useContext -underBinder +onlyGivenNames x4
    have h4 : Frame P s0 x4 := by
      unfold x4
      refine State.setEng_frame ?_ _ _ (Sub.le (by decide) hp)
      exact h0
    refine State.engAdvance_frame ?_ _ _ (Sub.le (by decide) hp)
    exact h4

theorem execDrive_frame {P : Part → Prop} {s0 s : State} (h : Frame P s0 s) (a_c : Fin 64) (a_d : Fin 40) (hp : Sub 1246778538489065547966722 P) :
    AnswersIn P s0 (execDrive a_c a_d s) := by
  refine ⟨_, rfl, ?_⟩
  refine State.engRun_frame ?_ _ _ _ _ (fun _ y0 h0 => ?_) (Sub.le (by decide) hp)
  · exact h
  · extract_lets -merge -useContext -underBinder +onlyGivenNames x1
    have h1 : Frame P s0 x1 := by
      unfold x1
      refine State.conflictsTo_frame ?_ _ _ (Sub.le (by decide) hp)
      exact h0
    extract_lets -merge -useContext -underBinder +onlyGivenNames x2
    extract_lets -merge -useContext -underBinder +onlyGivenNames x3
    extract_lets -merge -useContext -underBinder +onlyGivenNames x4
    have h4 : Frame P s0 x4 := by
      unfold x4
      refine State.setEng_frame ?_ _ _ (Sub.le (by decide) hp)
      exact h1
    refine State.engAdvance_frame ?_ _ _ (Sub.le (by decide) hp)
    exact h4

theorem execSample_frame {P : Part → Prop} {s0 s : State} (h : Frame P s0 s) (a_c : Fin 64) (a_d : Fin 40) (hp : Sub 1208999606626108385208578 P) :
    AnswersIn P s0 (execSample a_c a_d s) := by
  refine ⟨_, rfl, ?_⟩
  refine State.engRun_frame ?_ _ _ _ _ (fun _ y0 h0 => ?_) (Sub.le (by decide) hp)
  · exact h
  · extract_lets -merge -useContext -underBinder +onlyGivenNames x1
    extract_lets -merge -useContext -underBinder +onlyGivenNames x2
    have h2 : Frame P s0 x2 := by
      unfold x2
      refine State.setEng_frame ?_ _ _ (Sub.le (by decide) hp)
      exact h0
    refine State.engAdvance_frame ?_ _ _ (Sub.le (by decide) hp)
    exact h2

theorem execLoad_frame {P : Part → Prop} {s0 s : State} (h : Frame P s0 s) (a_c : Fin 64) (a_d : Fin 40) (hp : Sub 1208999606626108385208578 P) :
    AnswersIn P s0 (execLoad a_c a_d s) := by
  refine ⟨_, rfl, ?_⟩
  refine State.engRun_frame ?_ _ _ _ _ (fun _ y0 h0 => ?_) (Sub.le (by decide) hp)
  · exact h
  · extract_lets -merge -useContext -underBinder +onlyGivenNames x1
    extract_lets -merge -useContext -underBinder +onlyGivenNames x2
    extract_lets -merge -useContext -underBinder +onlyGivenNames x3
    have h3 : Frame P s0 x3 := by
      unfold x3
      refine State.setEng_frame ?_ _ _ (Sub.le (by decide) hp)
      exact h0
    refine State.engAdvance_frame ?_ _ _ (Sub.le (by decide) hp)
    exact h3

theorem execBranch_frame {P : Part → Prop} {s0 s : State} (h : Frame P s0 s) (a_c : Fin 64) (a_d : Fin 40) (hp : Sub 1208999606626108385208578 P) :
    AnswersIn P s0 (execBranch a_c a_d s) := by
  refine ⟨_, rfl, ?_⟩
  refine State.engRun_frame ?_ _ _ _ _ (fun _ y0 h0 => ?_) (Sub.le (by decide) hp)
  · exact h
  · refine Frame.ite (fun _ => ?_) (fun _ => ?_)
    · refine State.engGoto_frame ?_ _ _ _ (Sub.le (by decide) hp)
      refine State.setEng_frame ?_ _ _ (Sub.le (by decide) hp)
      exact h0
    · refine State.engAdvance_frame ?_ _ _ (Sub.le (by decide) hp)
      exact h0

theorem State.markEnd_frame {P : Part → Prop} {s0 s : State} (h : Frame P s0 s) (a_e : ℕ) (a_t : Sys2Proof.TimePoint) (a_late : Bool) (hp : Sub 1246778538489065546918146 P) :
    Frame P s0 (State.markEnd s a_e a_t a_late) := by
  unfold State.markEnd
  extract_lets -merge -useContext -underBinder +onlyGivenNames x0
  extract_lets -merge -useContext -underBinder +onlyGivenNames x1
  extract_lets -merge -useContext -underBinder +onlyGivenNames x2
  extract_lets -merge -useContext -underBinder +onlyGivenNames x3
  have h3 : Frame P s0 x3 := by
    unfold x3
    refine State.setEng_frame ?_ _ _ (Sub.le (by decide) hp)
    exact h
  extract_lets -merge -useContext -underBinder +onlyGivenNames x4
  extract_lets -merge -useContext -underBinder +onlyGivenNames x5
  have h5 : Frame P s0 x5 := by
    unfold x5
    refine Frame.ite (fun _ => ?_) (fun _ => ?_)
    · refine State.wr_frame ?_ _ _ (Reg.chEngMarkSec_in _ (hp .regCh rfl)) (Sub.le (by decide) hp)
      exact h3
    · exact h3
  extract_lets -merge -useContext -underBinder +onlyGivenNames x6
  have h6 : Frame P s0 x6 := by
    unfold x6
    refine Frame.ite (fun _ => ?_) (fun _ => ?_)
    · refine State.raise_frame ?_ _ _ (Sub.le (by decide) hp)
      refine State.bumpBy_frame ?_ _ _ (Reg.chCntTimeLate_in _ (hp .regCh rfl)) (Sub.le (by decide) hp)
      exact h5
    · exact h5
  refine State.engAdvance_frame ?_ _ _ (Sub.le (by decide) hp)
  exact h6

theorem State.waitCycle_frame {P : Part → Prop} {s0 s : State} (h : Frame P s0 s) (a_e : ℕ) (a_n : ℕ) (a_back : ℕ) (a_w : Sys2Proof.Word) (a_x : Sys2Proof.Machine.EngWait) (a_t : Sys2Proof.TimePoint) (hp : Sub 1208999606626108385208578 P) :
    Frame P s0 (State.waitCycle s a_e a_n a_back a_w a_x a_t) := by
  unfold State.waitCycle
  refine Frame.ite (fun _ => ?_) (fun _ => ?_)
  · extract_lets -merge -useContext -underBinder +onlyGivenNames x0
    have h0 : Frame P s0 x0 := by
      unfold x0
      refine State.setEng_frame ?_ _ _ (Sub.le (by decide) hp)
      refine State.engTake_frame ?_ _ _ _ (Sub.le (by decide) hp)
      exact h
    refine State.engAdvance_frame ?_ _ _ (Sub.le (by decide) hp)
    exact h0
  · refine State.setEng_frame ?_ _ _ (Sub.le (by decide) hp)
    refine State.engSync_frame ?_ _ _ _ (Sub.le (by decide) hp)
    exact h

theorem execWait_frame {P : Part → Prop} {s0 s : State} (h : Frame P s0 s) (a_c : Fin 64) (a_d : Fin 40) (hp : Sub 1246778538489065546918146 P) :
    AnswersIn P s0 (execWait a_c a_d s) := by
  refine ⟨_, rfl, ?_⟩
  refine State.engRun_frame ?_ _ _ _ _ (fun _ y0 h0 => ?_) (Sub.le (by decide) hp)
  · exact h
  · extract_lets -merge -useContext -underBinder +onlyGivenNames x1
    extract_lets -merge -useContext -underBinder +onlyGivenNames x2
    refine Frame.ite (fun _ => ?_) (fun _ => ?_)
    · refine State.waitCycle_frame ?_ _ _ _ _ _ _ (Sub.le (by decide) hp)
      exact h0
    · refine Frame.ite (fun _ => ?_) (fun _ => ?_)
      · refine State.markEnd_frame ?_ _ _ _ (Sub.le (by decide) hp)
        exact h0
      · refine State.setEng_frame ?_ _ _ (Sub.le (by decide) hp)
        exact h0

theorem execWaitEnd_frame {P : Part → Prop} {s0 s : State} (h : Frame P s0 s) (a_c : Fin 64) (a_d : Fin 40) (hp : Sub 1208999606626108385208578 P) :
    AnswersIn P s0 (execWaitEnd a_c a_d s) := by
  refine ⟨_, rfl, ?_⟩
  split
  · extract_lets -merge -useContext -underBinder +onlyGivenNames x1
    refine Frame.ite (fun _ => ?_) (fun _ => ?_)
    · refine State.waitCycle_frame ?_ _ _ _ _ _ _ (Sub.le (by decide) hp)
      exact h
    · exact h
  · exact h

theorem execWaitTimeMark_frame {P : Part → Prop} {s0 s : State} (h : Frame P s0 s) (a_c : Fin 64) (a_d : Fin 40) (hp : Sub 1246778538489065546918146 P) :
    AnswersIn P s0 (execWaitTimeMark a_c a_d s) := by
  refine ⟨_, rfl, ?_⟩
  extract_lets -merge -useContext -underBinder +onlyGivenNames x0
  extract_lets -merge -useContext -underBinder +onlyGivenNames x1
  extract_lets -merge -useContext -underBinder +onlyGivenNames x2
  extract_lets -merge -useContext -underBinder +onlyGivenNames x3
  extract_lets -merge -useContext -underBinder +onlyGivenNames x4
  refine Frame.ite (fun _ => ?_) (fun _ => ?_)
  · refine Frame.ite (fun _ => ?_) (fun _ => ?_)
    · refine Frame.ite (fun _ => ?_) (fun _ => ?_)
      · refine State.markEnd_frame ?_ _ _ _ (Sub.le (by decide) hp)
        refine State.engTake_frame ?_ _ _ _ (Sub.le (by decide) hp)
        exact h
      · exact h
    · refine State.markEnd_frame ?_ _ _ _ (Sub.le (by decide) hp)
      refine State.engRestart_frame ?_ _ _ _ (Sub.le (by decide) hp)
      exact h
  · exact h

theorem execEngineMarkPrepare_frame {P : Part → Prop} {s0 s : State} (h : Frame P s0 s) (a_c : Fin 64) (hp : Sub 633825300114114735932724740096 P) :
    AnswersIn P s0 (execEngineMarkPrepare a_c s) := by
  refine ⟨_, rfl, ?_⟩
  extract_lets -merge -useContext -underBinder +onlyGivenNames x0
  extract_lets -merge -useContext -underBinder +onlyGivenNames x1
  refine Frame.ite (fun _ => ?_) (fun _ => ?_)
  · refine State.tileWake_frame ?_ _ (Sub.le (by decide) hp)
    refine State.setEng_frame ?_ _ _ (Sub.le (by decide) hp)
    exact h
  · exact h

theorem State.pushAct_frame {P : Part → Prop} {s0 s : State} (h : Frame P s0 s) (a_e : ℕ) (a_w : Sys2Proof.Word) (hp : Sub 1265668004420544144812354 P) :
    Frame P s0 (State.pushAct s a_e a_w) := by
  unfold State.pushAct
  extract_lets -merge -useContext -underBinder +onlyGivenNames x0
  extract_lets -merge -useContext -underBinder +onlyGivenNames x1
  extract_lets -merge -useContext -underBinder +onlyGivenNames x2
  extract_lets -merge -useContext -underBinder +onlyGivenNames x3
  have h3 : Frame P s0 x3 := by
    unfold x3
    refine Frame.ite (fun _ => ?_) (fun _ => ?_)
    · exact h
    · refine State.rxBegin_frame ?_ _ (Sub.le (by decide) hp)
      exact h
  extract_lets -merge -useContext -underBinder +onlyGivenNames x4
  have h4 : Frame P s0 x4 := by
    unfold x4
    refine Frame.ite (fun _ => ?_) (fun _ => ?_)
    · exact h3
    · refine State.rxWord_frame ?_ _ _ _ (Sub.le (by decide) hp)
      exact h3
  extract_lets -merge -useContext -underBinder +onlyGivenNames x5
  have h5 : Frame P s0 x5 := by
    unfold x5
    refine Frame.ite (fun _ => ?_) (fun _ => ?_)
    · refine State.rxFail_frame ?_ _ _ (Sub.le (by decide) hp)
      exact h3
    · refine Frame.ite (fun _ => ?_) (fun _ => ?_)
      · refine State.rxCommit_frame ?_ _ (Sub.le (by decide) hp)
        exact h4
      · refine Frame.ite (fun _ => ?_) (fun _ => ?_)
        · refine State.rxFail_frame ?_ _ _ (Sub.le (by decide) hp)
          exact h4
        · exact h4
  refine State.setEng_frame ?_ _ _ (Sub.le (by decide) hp)
  exact h5

theorem State.stampAct_frame {P : Part → Prop} {s0 s : State} (h : Frame P s0 s) (a_e : ℕ) (a_t : Sys2Proof.TimePoint) (hp : Sub 1265668004385359772723522 P) :
    Frame P s0 (State.stampAct s a_e a_t) := by
  unfold State.stampAct
  extract_lets -merge -useContext -underBinder +onlyGivenNames x0
  extract_lets -merge -useContext -underBinder +onlyGivenNames x1
  have h1 : Frame P s0 x1 := by
    unfold x1
    refine Frame.ite (fun _ => ?_) (fun _ => ?_)
    · exact h
    · refine State.rxBegin_frame ?_ _ (Sub.le (by decide) hp)
      exact h
  refine Frame.ite (fun _ => ?_) (fun _ => ?_)
  · refine State.rxFail_frame ?_ _ _ (Sub.le (by decide) hp)
    exact h1
  · refine State.rxWord_frame ?_ _ _ _ (Sub.le (by decide) hp)
    refine State.rxWord_frame ?_ _ _ _ (Sub.le (by decide) hp)
    exact h1

theorem State.pullWord_frame {P : Part → Prop} {s0 s : State} (h : Frame P s0 s) (a_e : ℕ) (hp : Sub 73787011479227277314 P) :
    Frame P s0 (State.pullWord s a_e) := by
  unfold State.pullWord
  extract_lets -merge -useContext -underBinder +onlyGivenNames x0
  extract_lets -merge -useContext -underBinder +onlyGivenNames x1
  extract_lets -merge -useContext -underBinder +onlyGivenNames x2
  extract_lets -merge -useContext -underBinder +onlyGivenNames x3
  split
  · next y4_0 y4_1 e4 =>
      have g4 : Frame P s0 y4_1 := by
        refine Frame.of2 e4 ?_
        refine State.txNext_frame ?_ _ (Sub.le (by decide) hp)
        exact h
      extract_lets -merge -useContext -underBinder +onlyGivenNames x5
      extract_lets -merge -useContext -underBinder +onlyGivenNames x6
      have h6 : Frame P s0 x6 := by
        unfold x6
        refine State.setEng_frame ?_ _ _ (Sub.le (by decide) hp)
        exact g4
      refine Frame.ite (fun _ => ?_) (fun _ => ?_)
      · refine State.txFinish_frame ?_ _ (Sub.le (by decide) hp)
        exact h6
      · exact h6
  · next y7_0 e7 =>
      have g7 : Frame P s0 y7_0 := by
        refine Frame.of2 e7 ?_
        refine State.txNext_frame ?_ _ (Sub.le (by decide) hp)
        exact h
      exact g7

theorem State.pullHeader_frame {P : Part → Prop} {s0 s : State} (h : Frame P s0 s) (a_e : ℕ) (hp : Sub 35184388866048 P) :
    Frame P s0 (State.pullHeader s a_e) := by
  unfold State.pullHeader
  split
  · next y0_0 y0_1 e0 =>
      have g0 : Frame P s0 y0_1 := by
        refine Frame.of2 e0 ?_
        refine State.txBegin_frame ?_ _ (Sub.le (by decide) hp)
        exact h
      refine State.setEng_frame ?_ _ _ (Sub.le (by decide) hp)
      exact g0
  · next y1_0 e1 =>
      have g1 : Frame P s0 y1_0 := by
        refine Frame.of2 e1 ?_
        refine State.txBegin_frame ?_ _ (Sub.le (by decide) hp)
        exact h
      exact g1

theorem State.pullPrepare_frame {P : Part → Prop} {s0 s : State} (h : Frame P s0 s) (a_e : ℕ) (a_hdr : Bool) (hp : Sub 1265668004385359772461378 P) :
    Frame P s0 (State.pullPrepare s a_e a_hdr) := by
  unfold State.pullPrepare
  refine Frame.ite (fun _ => ?_) (fun _ => ?_)
  · refine Frame.ite (fun _ => ?_) (fun _ => ?_)
    · refine State.dropOldest_frame ?_ _ (Sub.le (by decide) hp)
      exact h
    · exact h
  · refine Frame.ite (fun _ => ?_) (fun _ => ?_)
    · refine State.txUnderrun_frame ?_ _ (Sub.le (by decide) hp)
      exact h
    · exact h

theorem State.pullAct_frame {P : Part → Prop} {s0 s : State} (h : Frame P s0 s) (a_e : ℕ) (a_hdr : Bool) (hp : Sub 73787011479227277314 P) :
    Frame P s0 (State.pullAct s a_e a_hdr) := by
  unfold State.pullAct
  refine Frame.ite (fun _ => ?_) (fun _ => ?_)
  · refine State.pullHeader_frame ?_ _ (Sub.le (by decide) hp)
    exact h
  · refine Frame.ite (fun _ => ?_) (fun _ => ?_)
    · refine State.pullWord_frame ?_ _ (Sub.le (by decide) hp)
      exact h
    · refine State.pullWord_frame ?_ _ (Sub.le (by decide) hp)
      refine State.pullHeader_frame ?_ _ (Sub.le (by decide) hp)
      exact h

theorem State.exchange_frame {P : Part → Prop} {s0 s : State} (h : Frame P s0 s) (a_e : ℕ) (a_w : Sys2Proof.Word) (a_t : Sys2Proof.TimePoint) (hp : Sub 1265668004385359772461378 P) :
    Frame P s0 (State.exchange s a_e a_w a_t).1 := by
  unfold State.exchange
  refine Frame.ite1 (fun _ => ?_) (fun _ => ?_)
  · refine Frame.pair1 ?_
    exact h
  · refine Frame.ite1 (fun _ => ?_) (fun _ => ?_)
    · extract_lets -merge -useContext -underBinder +onlyGivenNames x0
      have h0 : Frame P s0 x0 := by
        unfold x0
        refine State.pullPrepare_frame ?_ _ _ (Sub.le (by decide) hp)
        exact h
      refine Frame.ite1 (fun _ => ?_) (fun _ => ?_)
      · refine Frame.pair1 ?_
        exact h
      · refine Frame.pair1 ?_
        exact h0
    · extract_lets -merge -useContext -underBinder +onlyGivenNames x1
      refine Frame.pair1 ?_
      exact h

theorem State.exchangeCycle_frame {P : Part → Prop} {s0 s : State} (h : Frame P s0 s) (e n : Nat) (w : Word) (t : TimePoint) (hp : Sub 1265668004420544144812354 P) :
    Frame P s0 (s.exchangeCycle e n w t) := by
  have hx := State.exchange_frame h e w t (Sub.le (by decide) hp)
  have hy : ∀ y, Frame P s0 y → Frame P s0 ((s.exchange e w t).2.2 y) := by
    intro y k
    unfold State.exchange
    split
    · exact State.stampAct_frame k _ _ (Sub.le (by decide) hp)
    · split
      · dsimp only
        split
        · exact k
        · exact State.pullAct_frame k _ _ (Sub.le (by decide) hp)
      · exact State.pushAct_frame k _ _ (Sub.le (by decide) hp)
  unfold State.exchangeCycle
  generalize s.exchange e w t = x at hx hy ⊢
  obtain ⟨p, can, act⟩ := x
  have se : ∀ y f, Frame P s0 y → Frame P s0 (State.setEng y e f) := fun y f k => State.setEng_frame k _ _ (Sub.le (by decide) hp)
  have tk : Frame P s0 (State.engTake p e n w) := State.engTake_frame hx _ _ _ (Sub.le (by decide) hp)
  refine Frame.ite (fun _ => ?_) (fun _ => Frame.ite (fun _ => ?_) (fun _ => ?_))
  · exact State.engAdvance_frame (se _ _ (hy _ (se _ _ tk))) _ _ (Sub.le (by decide) hp)
  · exact State.engAdvance_frame (se _ _ tk) _ _ (Sub.le (by decide) hp)
  · exact State.bump_frame (se _ _ (State.engSync_frame hx _ _ _ (Sub.le (by decide) hp))) _ (Reg.chCntEngStall_in _ (hp .regCh rfl))
      (Sub.le (by decide) hp)

theorem State.engExchange_frame {P : Part → Prop} {s0 s : State} (h : Frame P s0 s) (a_e : ℕ) (a_d : ℕ) (a_is : Sys2Proof.Word → Bool) (a_t : Sys2Proof.TimePoint) (hp : Sub 1265668004420544144812354 P) :
    Frame P s0 (State.engExchange s a_e a_d a_is a_t) := by
  unfold State.engExchange
  extract_lets -merge -useContext -underBinder +onlyGivenNames x0
  refine Frame.ite (fun _ => ?_) (fun _ => ?_)
  · refine State.exchangeCycle_frame ?_ _ _ _ _ (Sub.le (by decide) hp)
    exact h
  · exact h

theorem execPush_frame {P : Part → Prop} {s0 s : State} (h : Frame P s0 s) (a_c : Fin 64) (a_d : Fin 40) (hp : Sub 1265668004420544144812354 P) :
    AnswersIn P s0 (execPush a_c a_d s) := by
  refine ⟨_, rfl, ?_⟩
  refine State.engExchange_frame ?_ _ _ _ _ (Sub.le (by decide) hp)
  exact h

theorem execPull_frame {P : Part → Prop} {s0 s : State} (h : Frame P s0 s) (a_c : Fin 64) (a_d : Fin 40) (hp : Sub 1265668004420544144812354 P) :
    AnswersIn P s0 (execPull a_c a_d s) := by
  refine ⟨_, rfl, ?_⟩
  refine State.engExchange_frame ?_ _ _ _ _ (Sub.le (by decide) hp)
  exact h

theorem execStamp_frame {P : Part → Prop} {s0 s : State} (h : Frame P s0 s) (a_c : Fin 64) (a_d : Fin 40) (hp : Sub 1265668004420544144812354 P) :
    AnswersIn P s0 (execStamp a_c a_d s) := by
  refine ⟨_, rfl, ?_⟩
  refine State.engExchange_frame ?_ _ _ _ _ (Sub.le (by decide) hp)
  exact h

theorem execStallEnd_frame {P : Part → Prop} {s0 s : State} (h : Frame P s0 s) (a_c : Fin 64) (a_d : Fin 40) (a_cycles : ℕ) (hp : Sub 1265668004420544144812354 P) :
    AnswersIn P s0 (execStallEnd a_c a_d a_cycles s) := by
  refine ⟨_, rfl, ?_⟩
  extract_lets -merge -useContext -underBinder +onlyGivenNames x0
  extract_lets -merge -useContext -underBinder +onlyGivenNames x1
  refine Frame.ite (fun _ => ?_) (fun _ => ?_)
  · refine State.exchangeCycle_frame ?_ _ _ _ _ (Sub.le (by decide) hp)
    refine State.bumpBy_frame ?_ _ _ (Reg.chCntEngStall_in _ (hp .regCh rfl)) (Sub.le (by decide) hp)
    exact h
  · exact h

theorem State.markIrq_frame {P : Part → Prop} {s0 s : State} (h : Frame P s0 s) (a_e : ℕ) (a_w : Sys2Proof.Word) (hp : Sub 73786976294838411266 P) :
    Frame P s0 (State.markIrq s a_e a_w) := by
  unfold State.markIrq
  refine Frame.ite (fun _ => ?_) (fun _ => ?_)
  · refine State.raise_frame ?_ _ _ (Sub.le (by decide) hp)
    exact h
  · exact h

theorem execMarkSetFlag_frame {P : Part → Prop} {s0 s : State} (h : Frame P s0 s) (a_c : Fin 64) (a_d : Fin 40) (hp : Sub 1208999606626108385208578 P) :
    AnswersIn P s0 (execMarkSetFlag a_c a_d s) := by
  refine ⟨_, rfl, ?_⟩
  refine State.engRun_frame ?_ _ _ _ _ (fun _ y0 h0 => ?_) (Sub.le (by decide) hp)
  · exact h
  · extract_lets -merge -useContext -underBinder +onlyGivenNames x1
    have h1 : Frame P s0 x1 := by
      unfold x1
      refine State.setEng_frame ?_ _ _ (Sub.le (by decide) hp)
      exact h0
    refine State.engAdvance_frame ?_ _ _ (Sub.le (by decide) hp)
    refine State.markIrq_frame ?_ _ _ (Sub.le (by decide) hp)
    exact h1

theorem execMarkClearFlag_frame {P : Part → Prop} {s0 s : State} (h : Frame P s0 s) (a_c : Fin 64) (a_d : Fin 40) (hp : Sub 1208999606626108385208578 P) :
    AnswersIn P s0 (execMarkClearFlag a_c a_d s) := by
  refine ⟨_, rfl, ?_⟩
  refine State.engRun_frame ?_ _ _ _ _ (fun _ y0 h0 => ?_) (Sub.le (by decide) hp)
  · exact h
  · extract_lets -merge -useContext -underBinder +onlyGivenNames x1
    have h1 : Frame P s0 x1 := by
      unfold x1
      refine State.setEng_frame ?_ _ _ (Sub.le (by decide) hp)
      exact h0
    refine State.engAdvance_frame ?_ _ _ (Sub.le (by decide) hp)
    refine State.markIrq_frame ?_ _ _ (Sub.le (by decide) hp)
    exact h1

theorem execMarkPost_frame {P : Part → Prop} {s0 s : State} (h : Frame P s0 s) (a_c : Fin 64) (a_d : Fin 40) (hp : Sub 1208999606626108385208578 P) :
    AnswersIn P s0 (execMarkPost a_c a_d s) := by
  refine ⟨_, rfl, ?_⟩
  refine State.engRun_frame ?_ _ _ _ _ (fun _ y0 h0 => ?_) (Sub.le (by decide) hp)
  · exact h
  · extract_lets -merge -useContext -underBinder +onlyGivenNames x1
    extract_lets -merge -useContext -underBinder +onlyGivenNames x2
    have h2 : Frame P s0 x2 := by
      unfold x2
      refine State.engPost_frame ?_ _ _ _ _ _ _ _ _ (Sub.le (by decide) hp)
      exact h0
    refine State.engAdvance_frame ?_ _ _ (Sub.le (by decide) hp)
    refine State.markIrq_frame ?_ _ _ (Sub.le (by decide) hp)
    exact h2

theorem execIllegalInstruction_frame {P : Part → Prop} {s0 s : State} (h : Frame P s0 s) (a_c : Fin 64) (a_d : Fin 40) (hp : Sub 1208999606626108385208578 P) :
    AnswersIn P s0 (execIllegalInstruction a_c a_d s) := by
  refine ⟨_, rfl, ?_⟩
  refine Frame.ite (fun _ => ?_) (fun _ => ?_)
  · refine State.engHalt_frame ?_ _ _ _ _ (Sub.le (by decide) hp)
    exact h
  · exact h

theorem execEngineFetchEcc_frame {P : Part → Prop} {s0 s : State} (h : Frame P s0 s) (a_c : Fin 64) (a_d : Fin 40) (a_ecc : Sys2Proof.ReadEcc) (hp : Sub 388065261883307444391848322 P) :
    AnswersIn P s0 (execEngineFetchEcc a_c a_d a_ecc s) := by
  refine ⟨_, rfl, ?_⟩
  refine Frame.ite (fun _ => ?_) (fun _ => ?_)
  · extract_lets -merge -useContext -underBinder +onlyGivenNames x0
    split
    · exact h
    · refine State.eccError_frame ?_ _ _ _ _ _ (Sub.le (by decide) hp)
      exact h
    · refine State.engHalt_frame ?_ _ _ _ _ (Sub.le (by decide) hp)
      refine State.memUncorr_frame ?_ _ _ _ _ (Sub.le (by decide) hp)
      exact h
  · exact h

theorem State.setIcu_frame {P : Part → Prop} {s0 s : State} (h : Frame P s0 s) (a_f : Sys2Proof.Machine.IcuSt → Sys2Proof.Machine.IcuSt) (hp : Sub 131072 P) :
    Frame P s0 (State.setIcu s a_f) := by
  unfold State.setIcu
  refine Frame.set_icu ?_ (hp .icu rfl) _
  exact h

theorem State.setNest_frame {P : Part → Prop} {s0 s : State} (h : Frame P s0 s) (a_t : ℕ) (a_l : List (ℕ × ℕ)) (hp : Sub 131072 P) :
    Frame P s0 (State.setNest s a_t a_l) := by
  unfold State.setNest
  refine State.setIcu_frame ?_ _ (Sub.le (by decide) hp)
  exact h

theorem State.claimTake_frame {P : Part → Prop} {s0 s : State} (h : Frame P s0 s) (a_t : ℕ) (a_id : ℕ) (a_prio : ℕ) (hp : Sub 58028439341502200386027520 P) :
    Frame P s0 (State.claimTake s a_t a_id a_prio) := by
  unfold State.claimTake
  extract_lets -merge -useContext -underBinder +onlyGivenNames x0
  extract_lets -merge -useContext -underBinder +onlyGivenNames x1
  extract_lets -merge -useContext -underBinder +onlyGivenNames x2
  have h2 : Frame P s0 x2 := by
    unfold x2
    refine State.setIcu_frame ?_ _ (Sub.le (by decide) hp)
    exact h
  extract_lets -merge -useContext -underBinder +onlyGivenNames x3
  have h3 : Frame P s0 x3 := by
    unfold x3
    refine State.wr_frame ?_ _ _ (thresholdKey_in _ (Sub.le (by decide) hp)) (Sub.le (by decide) hp)
    refine State.setNest_frame ?_ _ _ (Sub.le (by decide) hp)
    exact h2
  extract_lets -merge -useContext -underBinder +onlyGivenNames x4
  refine Frame.ite (fun _ => ?_) (fun _ => ?_)
  · exact h3
  · refine State.setIcu_frame ?_ _ (Sub.le (by decide) hp)
    exact h3

theorem State.icuClaim_frame {P : Part → Prop} {s0 s : State} (h : Frame P s0 s) (a_t : ℕ) (a_a : Sys2Proof.Agent) (hp : Sub 58028439341502200386027520 P) :
    Frame P s0 (State.icuClaim s a_t a_a).2 := by
  unfold State.icuClaim
  refine Frame.ite2 (fun _ => ?_) (fun _ => ?_)
  · refine Frame.pair2 ?_
    exact h
  · extract_lets -merge -useContext -underBinder +onlyGivenNames x0
    refine Frame.ite2 (fun _ => ?_) (fun _ => ?_)
    · refine Frame.pair2 ?_
      refine State.bump_frame ?_ _ (cntSpurious_in _ (Sub.le (by decide) hp)) (Sub.le (by decide) hp)
      exact h
    · refine Frame.ite2 (fun _ => ?_) (fun _ => ?_)
      · refine Frame.pair2 ?_
        refine State.bump_frame ?_ _ (cntStackFull_in _ (Sub.le (by decide) hp)) (Sub.le (by decide) hp)
        refine State.setIcu_frame ?_ _ (Sub.le (by decide) hp)
        exact h
      · refine Frame.pair2 ?_
        refine State.claimTake_frame ?_ _ _ _ (Sub.le (by decide) hp)
        exact h

theorem execIcuClaim_frame {P : Part → Prop} {s0 s : State} (h : Frame P s0 s) (a_t : Fin 6) (a_a : Sys2Proof.Agent) (hp : Sub 58028448564874237240803328 P) :
    AnswersIn P s0 (execIcuClaim a_t a_a s) := by
  refine ⟨_, rfl, ?_⟩
  refine State.answered_frame ?_ _ (Sub.le (by decide) hp)
  refine State.icuClaim_frame ?_ _ _ (Sub.le (by decide) hp)
  exact h

theorem State.icuPop_frame {P : Part → Prop} {s0 s : State} (h : Frame P s0 s) (a_t : ℕ) (a_id : ℕ) (hp : Sub 58028439341502200386027520 P) :
    Frame P s0 (State.icuPop s a_t a_id) := by
  unfold State.icuPop
  split
  · refine State.bump_frame ?_ _ (cntMismatch_in _ (Sub.le (by decide) hp)) (Sub.le (by decide) hp)
    exact h
  · extract_lets -merge -useContext -underBinder +onlyGivenNames x2
    have h2 : Frame P s0 x2 := by
      unfold x2
      refine State.wr_frame ?_ _ _ (thresholdKey_in _ (Sub.le (by decide) hp)) (Sub.le (by decide) hp)
      refine State.setNest_frame ?_ _ _ (Sub.le (by decide) hp)
      exact h
    refine Frame.ite (fun _ => ?_) (fun _ => ?_)
    · refine State.setIcu_frame ?_ _ (Sub.le (by decide) hp)
      exact h2
    · refine State.bump_frame ?_ _ (cntMismatch_in _ (Sub.le (by decide) hp)) (Sub.le (by decide) hp)
      refine State.setIcu_frame ?_ _ (Sub.le (by decide) hp)
      exact h2

theorem State.icuComplete_frame {P : Part → Prop} {s0 s : State} (h : Frame P s0 s) (a_t : ℕ) (a_a : Sys2Proof.Agent) (a_v : Sys2Proof.Word) (hp : Sub 58028439341502200386101248 P) :
    Frame P s0 (State.icuComplete s a_t a_a a_v) := by
  unfold State.icuComplete
  refine Frame.ite (fun _ => ?_) (fun _ => ?_)
  · exact h
  · extract_lets -merge -useContext -underBinder +onlyGivenNames x0
    have h0 : Frame P s0 x0 := by
      unfold x0
      refine State.icuPop_frame ?_ _ _ (Sub.le (by decide) hp)
      exact h
    refine Frame.ite (fun _ => ?_) (fun _ => ?_)
    · refine State.msixSend_frame ?_ _ (Sub.le (by decide) hp)
      exact h0
    · exact h0

theorem execIcuComplete_frame {P : Part → Prop} {s0 s : State} (h : Frame P s0 s) (a_t : Fin 6) (a_a : Sys2Proof.Agent) (a_v : Sys2Proof.Word) (hp : Sub 58028439341502200386101248 P) :
    AnswersIn P s0 (execIcuComplete a_t a_a a_v s) := by
  refine ⟨_, rfl, ?_⟩
  refine State.icuComplete_frame ?_ _ _ _ (Sub.le (by decide) hp)
  exact h

theorem State.icuThreshold_frame {P : Part → Prop} {s0 s : State} (h : Frame P s0 s) (a_t : ℕ) (a_a : Sys2Proof.Agent) (a_v : Sys2Proof.Word) (hp : Sub 58028439341502200385970176 P) :
    Frame P s0 (State.icuThreshold s a_t a_a a_v) := by
  unfold State.icuThreshold
  refine Frame.ite (fun _ => ?_) (fun _ => ?_)
  · exact h
  · refine State.withHostRequest_frame ?_ _ (fun y0 h0 => ?_) (Sub.le (by decide) hp)
    · exact h
    · refine State.wr_frame ?_ _ _ (thresholdKey_in _ (Sub.le (by decide) hp)) (Sub.le (by decide) hp)
      exact h0

theorem execThresholdWrite_frame {P : Part → Prop} {s0 s : State} (h : Frame P s0 s) (a_t : Fin 6) (a_a : Sys2Proof.Agent) (a_v : Sys2Proof.Word) (hp : Sub 58028439341502200385970176 P) :
    AnswersIn P s0 (execThresholdWrite a_t a_a a_v s) := by
  refine ⟨_, rfl, ?_⟩
  refine State.icuThreshold_frame ?_ _ _ _ (Sub.le (by decide) hp)
  exact h

theorem State.icuSwset_frame {P : Part → Prop} {s0 s : State} (h : Frame P s0 s) (a_a : Sys2Proof.Agent) (a_v : Sys2Proof.Word) (hp : Sub 19342813113834066795503616 P) :
    Frame P s0 (State.icuSwset s a_a a_v) := by
  unfold State.icuSwset
  extract_lets -merge -useContext -underBinder +onlyGivenNames x0
  refine Frame.ite (fun _ => ?_) (fun _ => ?_)
  · exact h
  · refine Frame.ite (fun _ => ?_) (fun _ => ?_)
    · refine State.bump_frame ?_ _ (Reg.icuCntRefused_in (hp .regIcu rfl)) (Sub.le (by decide) hp)
      exact h
    · refine State.icuPend_frame ?_ _ (Sub.le (by decide) hp)
      exact h

theorem State.privSwset_frame {P : Part → Prop} {s0 s : State} (h : Frame P s0 s) (a_t : ℕ) (a_a : Sys2Proof.Agent) (a_v : Sys2Proof.Word) (hp : Sub 131072 P) :
    Frame P s0 (State.privSwset s a_t a_a a_v) := by
  unfold State.privSwset
  refine Frame.ite (fun _ => ?_) (fun _ => ?_)
  · refine State.icuPrivate_frame ?_ _ _ (Sub.le (by decide) hp)
    exact h
  · exact h

theorem execSwset_frame {P : Part → Prop} {s0 s : State} (h : Frame P s0 s) (a_t : Fin 6) (a_a : Sys2Proof.Agent) (a_v : Sys2Proof.Word) (hp : Sub 19342813113834066795503616 P) :
    AnswersIn P s0 (execSwset a_t a_a a_v s) := by
  refine ⟨_, rfl, ?_⟩
  refine Frame.ite (fun _ => ?_) (fun _ => ?_)
  · refine State.icuSwset_frame ?_ _ _ (Sub.le (by decide) hp)
    exact h
  · refine State.privSwset_frame ?_ _ _ _ (Sub.le (by decide) hp)
    exact h

theorem State.srcCfgWrite_frame {P : Part → Prop} {s0 s : State} (h : Frame P s0 s) (a_id : ℕ) (a_a : Sys2Proof.Agent) (a_v : Sys2Proof.Word) (hp : Sub 19342813113834066795372544 P) :
    Frame P s0 (State.srcCfgWrite s a_id a_a a_v) := by
  unfold State.srcCfgWrite
  extract_lets -merge -useContext -underBinder +onlyGivenNames x0
  refine Frame.ite (fun _ => ?_) (fun _ => ?_)
  · refine State.bump_frame ?_ _ (Reg.icuCntRefused_in (hp .regIcu rfl)) (Sub.le (by decide) hp)
    exact h
  · refine State.withHostRequest_frame ?_ _ (fun y1 h1 => ?_) (Sub.le (by decide) hp)
    · exact h
    · refine State.wr_frame ?_ _ _ (Reg.icuSrcCfg_in _ (by omega) (hp .regIcu rfl)) (Sub.le (by decide) hp)
      exact h1

theorem execSrcCfgWrite_frame {P : Part → Prop} {s0 s : State} (h : Frame P s0 s) (a_i : Fin 448) (a_a : Sys2Proof.Agent) (a_v : Sys2Proof.Word) (hp : Sub 19342813113834066795372544 P) :
    AnswersIn P s0 (execSrcCfgWrite a_i a_a a_v s) := by
  refine ⟨_, rfl, ?_⟩
  refine State.srcCfgWrite_frame ?_ _ _ _ (Sub.le (by decide) hp)
  exact h

theorem State.privCfgWrite_frame {P : Part → Prop} {s0 s : State} (h : Frame P s0 s) (a_t : ℕ) (a_j : ℕ) (a_a : Sys2Proof.Agent) (a_v : Sys2Proof.Word) (hp : Sub 38685626227668133590597632 P) :
    Frame P s0 (State.privCfgWrite s a_t a_j a_a a_v) := by
  unfold State.privCfgWrite
  refine Frame.ite (fun _ => ?_) (fun _ => ?_)
  · refine State.wr_frame ?_ _ _ (Reg.icupPrivCfg_in _ _ (by omega) (hp .regIcup rfl)) (Sub.le (by decide) hp)
    exact h
  · exact h

theorem execPrivCfgWrite_frame {P : Part → Prop} {s0 s : State} (h : Frame P s0 s) (a_t : Fin 5) (a_j : Fin 32) (a_a : Sys2Proof.Agent) (a_v : Sys2Proof.Word) (hp : Sub 38685626227668133590597632 P) :
    AnswersIn P s0 (execPrivCfgWrite a_t a_j a_a a_v s) := by
  refine ⟨_, rfl, ?_⟩
  refine State.privCfgWrite_frame ?_ _ _ _ _ (Sub.le (by decide) hp)
  exact h

theorem State.ipi_frame {P : Part → Prop} {s0 s : State} (h : Frame P s0 s) (a_t : ℕ) (a_a : Sys2Proof.Agent) (a_v : Sys2Proof.Word) (hp : Sub 131072 P) :
    Frame P s0 (State.ipi s a_t a_a a_v) := by
  unfold State.ipi
  refine Frame.ite (fun _ => ?_) (fun _ => ?_)
  · refine State.icuPrivate_frame ?_ _ _ (Sub.le (by decide) hp)
    exact h
  · exact h

theorem execIpi_frame {P : Part → Prop} {s0 s : State} (h : Frame P s0 s) (a_t : Fin 5) (a_a : Sys2Proof.Agent) (a_v : Sys2Proof.Word) (hp : Sub 131072 P) :
    AnswersIn P s0 (execIpi a_t a_a a_v s) := by
  refine ⟨_, rfl, ?_⟩
  refine State.ipi_frame ?_ _ _ _ (Sub.le (by decide) hp)
  exact h

theorem State.setTimer_frame {P : Part → Prop} {s0 s : State} (h : Frame P s0 s) (a_t : ℕ) (a_k : ℕ) (a_x : Option Sys2Proof.Machine.TimerSt) (hp : Sub 131072 P) :
    Frame P s0 (State.setTimer s a_t a_k a_x) := by
  unfold State.setTimer
  refine State.setIcu_frame ?_ _ (Sub.le (by decide) hp)
  exact h

theorem State.tmrWrite_frame {P : Part → Prop} {s0 s : State} (h : Frame P s0 s) (a_t : ℕ) (a_k : ℕ) (a_a : Sys2Proof.Agent) (a_v : Sys2Proof.Word) (hp : Sub 38685626227668133590728704 P) :
    Frame P s0 (State.tmrWrite s a_t a_k a_a a_v) := by
  unfold State.tmrWrite
  refine Frame.ite (fun _ => ?_) (fun _ => ?_)
  · refine State.setTimer_frame ?_ _ _ _ (Sub.le (by decide) hp)
    refine State.wr_frame ?_ _ _ (Reg.icupTmr_in _ _ (by omega) (hp .regIcup rfl)) (Sub.le (by decide) hp)
    exact h
  · exact h

theorem execTmrWrite_frame {P : Part → Prop} {s0 s : State} (h : Frame P s0 s) (a_t : Fin 5) (a_k : Fin 4) (a_a : Sys2Proof.Agent) (a_v : Sys2Proof.Word) (hp : Sub 38685626227668133590728704 P) :
    AnswersIn P s0 (execTmrWrite a_t a_k a_a a_v s) := by
  refine ⟨_, rfl, ?_⟩
  refine State.tmrWrite_frame ?_ _ _ _ _ (Sub.le (by decide) hp)
  exact h

theorem execTimerExpiry_frame {P : Part → Prop} {s0 s : State} (h : Frame P s0 s) (a_t : Fin 5) (a_k : Fin 4) (hp : Sub 38685626227668133590728704 P) :
    AnswersIn P s0 (execTimerExpiry a_t a_k s) := by
  refine ⟨_, rfl, ?_⟩
  extract_lets -merge -useContext -underBinder +onlyGivenNames x0
  extract_lets -merge -useContext -underBinder +onlyGivenNames x1
  split
  · refine Frame.ite (fun _ => ?_) (fun _ => ?_)
    · extract_lets -merge -useContext -underBinder +onlyGivenNames x3
      have h3 : Frame P s0 x3 := by
        unfold x3
        refine State.icuPrivate_frame ?_ _ _ (Sub.le (by decide) hp)
        exact h
      extract_lets -merge -useContext -underBinder +onlyGivenNames x4
      refine Frame.ite (fun _ => ?_) (fun _ => ?_)
      · refine State.setTimer_frame ?_ _ _ _ (Sub.le (by decide) hp)
        exact h3
      · refine State.setTimer_frame ?_ _ _ _ (Sub.le (by decide) hp)
        refine State.setFld_frame ?_ _ _ _ _ (Reg.icupTmr_in _ _ (by omega) (hp .regIcup rfl)) (Sub.le (by decide) hp)
        exact h3
    · exact h
  · exact h

theorem execHoldoffEnd_frame {P : Part → Prop} {s0 s : State} (h : Frame P s0 s) (a_g : Fin 32) (hp : Sub 204800 P) :
    AnswersIn P s0 (execHoldoffEnd a_g s) := by
  refine ⟨_, rfl, ?_⟩
  extract_lets -merge -useContext -underBinder +onlyGivenNames x0
  refine Frame.ite (fun _ => ?_) (fun _ => ?_)
  · refine State.withHostRequest_frame ?_ _ (fun y1 h1 => ?_) (Sub.le (by decide) hp)
    · exact h
    · refine State.setIcu_frame ?_ _ (Sub.le (by decide) hp)
      exact h1
  · exact h

theorem State.icuSoftReset_frame {P : Part → Prop} {s0 s : State} (h : Frame P s0 s)  (hp : Sub 19342813113834066795503616 P) :
    Frame P s0 (State.icuSoftReset s) := by
  unfold State.icuSoftReset
  extract_lets -merge -useContext -underBinder +onlyGivenNames x0
  have h0 : Frame P s0 x0 := by
    unfold x0
    refine State.setIcu_frame ?_ _ (Sub.le (by decide) hp)
    exact h
  refine State.withHostRequest_frame ?_ _ (fun y1 h1 => ?_) (Sub.le (by decide) hp)
  · exact h0
  · refine State.wr_frame ?_ _ _ (Reg.icuHostThreshold_in (hp .regIcu rfl)) (Sub.le (by decide) hp)
    exact h1

theorem State.icupSoftReset_frame {P : Part → Prop} {s0 s : State} (h : Frame P s0 s) (a_t : ℕ) (hp : Sub 38685626227668133590728704 P) :
    Frame P s0 (State.icupSoftReset s a_t) := by
  unfold State.icupSoftReset
  extract_lets -merge -useContext -underBinder +onlyGivenNames x0
  have h0 : Frame P s0 x0 := by
    unfold x0
    refine State.setIcu_frame ?_ _ (Sub.le (by decide) hp)
    exact h
  refine State.wr_frame ?_ _ _ (Reg.icupThreshold_in _ (by omega) (hp .regIcup rfl)) (Sub.le (by decide) hp)
  exact h0

theorem State.clearShown_frame {P : Part → Prop} {s0 s : State} (h : Frame P s0 s) (a_page : ℕ) (a_addr : ℕ) (hp : Sub 1 P) :
    Frame P s0 (State.clearShown s a_page a_addr) := by
  unfold State.clearShown
  refine Frame.set_frozen ?_ (hp .frozen rfl) _
  exact h

theorem State.indTake_frame {P : Part → Prop} {s0 s : State} (h : Frame P s0 s) (a_page : ℕ) (a_addr : ℕ) (hp : Sub 2417851639229258349412353 P) :
    Frame P s0 (State.indTake s a_page a_addr).2 := by
  unfold State.indTake
  split
  · refine Frame.pair2 ?_
    refine Frame.ite (fun _ => ?_) (fun _ => ?_)
    · refine State.clearShown_frame ?_ _ _ (Sub.le (by decide) hp)
      refine State.prbsRead_frame ?_ _ (Sub.le (by decide) hp)
      exact h
    · exact h
  · refine Frame.pair2 ?_
    exact h

theorem after_frame {P : Part → Prop} {s0 s : State} {o : Host.Outcome State Fault Refusal} (ho : AnswersIn P s0 o) (_ : Frame P s0 s) :
    Frame P s0 (after o s) := by
  obtain ⟨t, rfl, h⟩ := ho
  exact h

theorem State.clearRun_frame {P : Part → Prop} {s0 s : State} (_ : Frame P s0 s) (a_page : ℕ) (a_off : ℕ) (a_n : ℕ) (hp : Sub 40564819207303340847894502572031 P) :
    Frame P s0 (State.clearRun s a_page a_off a_n) := Frame.all hp

theorem State.clearCounters_frame {P : Part → Prop} {s0 s : State} (_ : Frame P s0 s) (a_page : ℕ) (hp : Sub 40564819207303340847894502572031 P) :
    Frame P s0 (State.clearCounters s a_page) := Frame.all hp

theorem State.xbrSoftReset_frame {P : Part → Prop} {s0 s : State} (h : Frame P s0 s)  (hp : Sub 2253998836940808 P) :
    Frame P s0 (State.xbrSoftReset s) := by
  unfold State.xbrSoftReset
  extract_lets -merge -useContext -underBinder +onlyGivenNames x0
  have h0 : Frame P s0 x0 := by
    unfold x0
    refine State.setNet_frame ?_ _ (Sub.le (by decide) hp)
    refine State.setXbr_frame ?_ _ (Sub.le (by decide) hp)
    exact h
  refine Frame.set_ind ?_ (hp .ind rfl) _
  exact h0

theorem State.chSoftReset_frame {P : Part → Prop} {s0 s : State} (_ : Frame P s0 s) (a_c : ℕ) (hp : Sub 40564819207303340847894502572031 P) :
    Frame P s0 (State.chSoftReset s a_c) := Frame.all hp

theorem State.canSoftReset_frame {P : Part → Prop} {s0 s : State} (h : Frame P s0 s) (a_n : ℕ) (hp : Sub 1227889073648302517594370 P) :
    Frame P s0 (State.canSoftReset s a_n) := by
  unfold State.canSoftReset
  extract_lets -merge -useContext -underBinder +onlyGivenNames x0
  have h0 : Frame P s0 x0 := by
    unfold x0
    refine State.wr_frame ?_ _ _ (Reg.canTxfail_in _ (hp .regCan rfl)) (Sub.le (by decide) hp)
    refine State.wr_frame ?_ _ _ (Reg.canTxdone_in _ (hp .regCan rfl)) (Sub.le (by decide) hp)
    refine State.wr_frame ?_ _ _ (Reg.canTxpend_in _ (hp .regCan rfl)) (Sub.le (by decide) hp)
    exact h
  extract_lets -merge -useContext -underBinder +onlyGivenNames x1
  have h1 : Frame P s0 x1 := by
    unfold x1
    refine State.setCan_frame ?_ _ _ (Sub.le (by decide) hp)
    refine State.wr_frame ?_ _ _ (Reg.canTdcStatus_in _ (hp .regCan rfl)) (Sub.le (by decide) hp)
    refine State.wr_frame ?_ _ _ (Reg.canLastErr_in _ (hp .regCan rfl)) (Sub.le (by decide) hp)
    exact h0
  refine State.canStart_frame ?_ _ (Sub.le (by decide) hp)
  refine State.fifoClear_frame ?_ _ (Sub.le (by decide) hp)
  refine State.fifoClear_frame ?_ _ (Sub.le (by decide) hp)
  exact h1

theorem State.fpSoftReset_frame {P : Part → Prop} {s0 s : State} (_ : Frame P s0 s) (a_n : ℕ) (hp : Sub 40564819207303340847894502572031 P) :
    Frame P s0 (State.fpSoftReset s a_n) := Frame.all hp

theorem State.plkSoftReset_frame {P : Part → Prop} {s0 s : State} (h : Frame P s0 s)  (hp : Sub 310694009427935992805009666 P) :
    Frame P s0 (State.plkSoftReset s) := by
  unfold State.plkSoftReset
  extract_lets -merge -useContext -underBinder +onlyGivenNames x0
  have h0 : Frame P s0 x0 := by
    unfold x0
    refine State.wr_frame ?_ _ _ (Reg.plkLatency_in (hp .regPlk rfl)) (Sub.le (by decide) hp)
    refine State.plkEnable_frame ?_ _ (Sub.le (by decide) hp)
    exact h
  extract_lets -merge -useContext -underBinder +onlyGivenNames x1
  have h1 : Frame P s0 x1 := by
    unfold x1
    refine State.setPlk_frame ?_ _ (Sub.le (by decide) hp)
    exact h0
  refine Frame.ite (fun _ => ?_) (fun _ => ?_)
  · refine State.plkEnable_frame ?_ _ (Sub.le (by decide) hp)
    exact h1
  · exact h1

theorem State.leaseSoftReset_frame {P : Part → Prop} {s0 s : State} (h : Frame P s0 s)  (hp : Sub 388065261883272260020283650 P) :
    Frame P s0 (State.leaseSoftReset s) := by
  unfold State.leaseSoftReset
  extract_lets -merge -useContext -underBinder +onlyGivenNames x0
  have h0 : Frame P s0 x0 := by
    unfold x0
    refine State.leaseEnable_frame ?_ _ (Sub.le (by decide) hp)
    exact h
  extract_lets -merge -useContext -underBinder +onlyGivenNames x1
  have h1 : Frame P s0 x1 := by
    unfold x1
    refine State.setLease_frame ?_ _ (Sub.le (by decide) hp)
    exact h0
  refine Frame.ite (fun _ => ?_) (fun _ => ?_)
  · refine State.leaseEnable_frame ?_ _ (Sub.le (by decide) hp)
    exact h1
  · exact h1

theorem State.ringSoftReset_frame {P : Part → Prop} {s0 s : State} (_ : Frame P s0 s)  (hp : Sub 40564819207303340847894502572031 P) :
    Frame P s0 (State.ringSoftReset s) := Frame.all hp

theorem State.bufSoftReset_frame {P : Part → Prop} {s0 s : State} (h : Frame P s0 s)  (hp : Sub 2199023255552 P) :
    Frame P s0 (State.bufSoftReset s) := by
  unfold State.bufSoftReset
  refine State.setNet_frame ?_ _ (Sub.le (by decide) hp)
  exact h

theorem State.dmaSoftReset_frame {P : Part → Prop} {s0 s : State} (h : Frame P s0 s)  (hp : Sub 302231463910856548417536 P) :
    Frame P s0 (State.dmaSoftReset s) := by
  unfold State.dmaSoftReset
  refine Frame.foldl ?_ (fun y0 a0 h0 => ?_)
  · exact h
  · refine State.setDma_frame ?_ _ _ (Sub.le (by decide) hp)
    refine State.wr_frame ?_ _ _ (Reg.dmaDcBytes_in _ (hp .regDma rfl)) (Sub.le (by decide) hp)
    refine State.wr_frame ?_ _ _ (Reg.dmaDcStatus_in _ (hp .regDma rfl)) (Sub.le (by decide) hp)
    refine State.wr_frame ?_ _ _ (Reg.dmaDcHead_in _ (hp .regDma rfl)) (Sub.le (by decide) hp)
    exact h0

theorem State.blockSoftReset_frame {P : Part → Prop} {s0 s : State} (_ : Frame P s0 s) (a_b : Sys2Proof.Machine.Block) (a_i : ℕ) (hp : Sub 40564819207303340847894502572031 P) :
    Frame P s0 (State.blockSoftReset s a_b a_i) := Frame.all hp

theorem State.softReset_frame {P : Part → Prop} {s0 s : State} (_ : Frame P s0 s) (a_page : ℕ) (hp : Sub 40564819207303340847894502572031 P) :
    Frame P s0 (State.softReset s a_page) := Frame.all hp

theorem State.freezeWrite_frame {P : Part → Prop} {s0 s : State} (h : Frame P s0 s) (a_page : ℕ) (a_on : Bool) (hp : Sub 368934881474191237123 P) :
    Frame P s0 (State.freezeWrite s a_page a_on) := by
  unfold State.freezeWrite
  refine Frame.ite (fun _ => ?_) (fun _ => ?_)
  · refine Frame.ite (fun _ => ?_) (fun _ => ?_)
    · exact h
    · refine State.setFld_frame ?_ _ _ _ _ (Reg.ctrl_in _ (hp .regCtrl rfl)) (Sub.le (by decide) hp)
      refine Frame.set_frozen ?_ (hp .frozen rfl) _
      exact h
  · refine Frame.ite (fun _ => ?_) (fun _ => ?_)
    · refine State.withRequest_frame ?_ _ _ (fun y0 h0 => ?_) (Sub.le (by decide) hp)
      · exact h
      · extract_lets -merge -useContext -underBinder +onlyGivenNames x1
        have h1 : Frame P s0 x1 := by
          unfold x1
          refine State.wr_frame ?_ _ _ (Reg.irqPend_in _ (hp .regIrq rfl)) (Sub.le (by decide) hp)
          exact h0
        extract_lets -merge -useContext -underBinder +onlyGivenNames x2
        have h2 : Frame P s0 x2 := by
          unfold x2
          refine Frame.set_frozen_heldIrq ?_ (hp .frozen rfl) (hp .heldIrq rfl) _ _
          exact h1
        refine State.setFld_frame ?_ _ _ _ _ (Reg.ctrl_in _ (hp .regCtrl rfl)) (Sub.le (by decide) hp)
        exact h2
    · exact h

theorem State.blockEnable_frame {P : Part → Prop} {s0 s : State} (h : Frame P s0 s) (a_b : Sys2Proof.Machine.Block) (a_i : ℕ) (a_on : Bool) (hp : Sub 322254922252217811200021047554 P) :
    Frame P s0 (State.blockEnable s a_b a_i a_on) := by
  unfold State.blockEnable
  split
  · refine State.fpEnable_frame ?_ _ _ (Sub.le (by decide) hp)
    exact h
  · refine State.plkEnable_frame ?_ _ (Sub.le (by decide) hp)
    exact h
  · refine State.leaseEnable_frame ?_ _ (Sub.le (by decide) hp)
    exact h
  · refine Frame.ite (fun _ => ?_) (fun _ => ?_)
    · refine State.canStart_frame ?_ _ (Sub.le (by decide) hp)
      exact h
    · exact h
  · refine Frame.ite (fun _ => ?_) (fun _ => ?_)
    · refine Frame.foldl ?_ (fun y5 a5 h5 => ?_)
      · exact h
      · refine State.canStart_frame ?_ _ (Sub.le (by decide) hp)
        exact h5
    · refine State.serStop_frame ?_ _ (Sub.le (by decide) hp)
      refine State.engDisable_frame ?_ _ (Sub.le (by decide) hp)
      exact h
  · refine State.wr_frame ?_ _ _ (Reg.status_in _ (hp .regStatus rfl)) (Sub.le (by decide) hp)
    exact h
  · exact h

theorem State.enableWrite_frame {P : Part → Prop} {s0 s : State} (h : Frame P s0 s) (a_page : ℕ) (a_on : Bool) (hp : Sub 322254922547365716379373873410 P) :
    Frame P s0 (State.enableWrite s a_page a_on) := by
  unfold State.enableWrite
  split
  · refine Frame.ite (fun _ => ?_) (fun _ => ?_)
    · exact h
    · refine State.blockEnable_frame ?_ _ _ _ (Sub.le (by decide) hp)
      refine State.setFld_frame ?_ _ _ _ _ (Reg.ctrl_in _ (hp .regCtrl rfl)) (Sub.le (by decide) hp)
      exact h
  · exact h

theorem State.ctrlWrite_frame {P : Part → Prop} {s0 s : State} (_ : Frame P s0 s) (a_page : ℕ) (a_v : Sys2Proof.Word) (hp : Sub 40564819207303340847894502572031 P) :
    Frame P s0 (State.ctrlWrite s a_page a_v) := Frame.all hp

theorem State.timeOp_frame {P : Part → Prop} {s0 s : State} (h : Frame P s0 s) (a_a : Sys2Proof.Agent) (a_arg : BitVec 16) (a_op : ℕ) (hp : Sub 147573952589676413440 P) :
    Frame P s0 (State.timeOp s a_a a_arg a_op) := by
  unfold State.timeOp
  split
  · refine after_frame (execReadTime_frame ?_ _ (Sub.le (by decide) hp)) ?_
    · exact h
    · exact h
  · refine after_frame (execAdjPhase_frame ?_ _ (Sub.le (by decide) hp)) ?_
    · exact h
    · exact h
  · refine after_frame (execAdjRate_frame ?_ _ (Sub.le (by decide) hp)) ?_
    · exact h
    · exact h
  · refine after_frame (execStepForce_frame ?_  (Sub.le (by decide) hp)) ?_
    · exact h
    · exact h
  · refine after_frame (execSetTime_frame ?_  (Sub.le (by decide) hp)) ?_
    · exact h
    · exact h
  · refine after_frame (execSetState_frame ?_ _ _ (Sub.le (by decide) hp)) ?_
    · exact h
    · exact h

theorem State.winOp_frame {P : Part → Prop} {s0 s : State} (h : Frame P s0 s) (a_arg : BitVec 16) (a_op : ℕ) (hp : Sub 2537777080756390492458723778566 P) :
    Frame P s0 (State.winOp s a_arg a_op) := by
  unfold State.winOp
  split
  · refine after_frame (execLoadTimes_frame ?_ _ (Sub.le (by decide) hp)) ?_
    · exact h
    · exact h
  · refine after_frame (execLoadCtrl_frame ?_ _ (Sub.le (by decide) hp)) ?_
    · exact h
    · exact h
  · refine after_frame (execWinArm_frame ?_ _ (Sub.le (by decide) hp)) ?_
    · exact h
    · exact h
  · refine after_frame (execWinDisarm_frame ?_ _ (Sub.le (by decide) hp)) ?_
    · exact h
    · exact h
  · refine after_frame (execReadTimes_frame ?_ _ (Sub.le (by decide) hp)) ?_
    · exact h
    · exact h
  · refine after_frame (execReadCtrl_frame ?_ _ (Sub.le (by decide) hp)) ?_
    · exact h
    · exact h
  · refine after_frame (execTrigger_frame ?_ _ (Sub.le (by decide) hp)) ?_
    · exact h
    · exact h

theorem State.drlOp_frame {P : Part → Prop} {s0 s : State} (h : Frame P s0 s) (a_arg : BitVec 16) (a_op : ℕ) (hp : Sub 388669872367032165357267334 P) :
    Frame P s0 (State.drlOp s a_arg a_op) := by
  unfold State.drlOp
  split
  · refine after_frame (execDrlLoadTime_frame ?_ _ (Sub.le (by decide) hp)) ?_
    · exact h
    · exact h
  · refine after_frame (execDrlLoadAction_frame ?_ _ (Sub.le (by decide) hp)) ?_
    · exact h
    · exact h
  · refine after_frame (execDrlArm_frame ?_ _ _ (Sub.le (by decide) hp)) ?_
    · exact h
    · exact h
  · refine after_frame (execDrlDisarm_frame ?_ _ (Sub.le (by decide) hp)) ?_
    · exact h
    · exact h
  · refine after_frame (execDrlReadTime_frame ?_ _ _ (Sub.le (by decide) hp)) ?_
    · exact h
    · exact h
  · refine after_frame (execDrlReadAction_frame ?_ _ _ (Sub.le (by decide) hp)) ?_
    · exact h
    · exact h
  · refine after_frame (execDrlReadState_frame ?_ _ _ (Sub.le (by decide) hp)) ?_
    · exact h
    · exact h
  · refine after_frame (execDrlClear_frame ?_ _ (Sub.le (by decide) hp)) ?_
    · exact h
    · exact h

theorem State.rfxOp_frame {P : Part → Prop} {s0 s : State} (h : Frame P s0 s) (a_arg : BitVec 16) (a_op : ℕ) (hp : Sub 2934308990314289813640325048742 P) :
    Frame P s0 (State.rfxOp s a_arg a_op) := by
  unfold State.rfxOp
  split
  · refine after_frame (execLoadTermsA_frame ?_ _ (Sub.le (by decide) hp)) ?_
    · exact h
    · exact h
  · refine after_frame (execLoadTermsB_frame ?_ _ (Sub.le (by decide) hp)) ?_
    · exact h
    · exact h
  · refine after_frame (execLoadAct_frame ?_ _ (Sub.le (by decide) hp)) ?_
    · exact h
    · exact h
  · refine after_frame (execRfxArm_frame ?_ _ _ (Sub.le (by decide) hp)) ?_
    · exact h
    · exact h
  · refine after_frame (execRfxDisarm_frame ?_ _ (Sub.le (by decide) hp)) ?_
    · exact h
    · exact h
  · refine after_frame (execReadTermsA_frame ?_ _ _ (Sub.le (by decide) hp)) ?_
    · exact h
    · exact h
  · refine after_frame (execReadTermsB_frame ?_ _ _ (Sub.le (by decide) hp)) ?_
    · exact h
    · exact h
  · refine after_frame (execReadAct_frame ?_ _ _ (Sub.le (by decide) hp)) ?_
    · exact h
    · exact h
  · refine after_frame (execRfxClear_frame ?_ _ (Sub.le (by decide) hp)) ?_
    · exact h
    · exact h

theorem State.sigOp_frame {P : Part → Prop} {s0 s : State} (h : Frame P s0 s) (a_arg : BitVec 16) (a_op : ℕ) (hp : Sub 2933921529552209836841237686566 P) :
    Frame P s0 (State.sigOp s a_arg a_op) := by
  unfold State.sigOp
  split
  · refine after_frame (execLoadPub_frame ?_ _ (Sub.le (by decide) hp)) ?_
    · exact h
    · exact h
  · refine after_frame (execSetValue_frame ?_ _ (Sub.le (by decide) hp)) ?_
    · exact h
    · exact h
  · refine after_frame (execReadPub_frame ?_ _ (Sub.le (by decide) hp)) ?_
    · exact h
    · exact h
  · refine after_frame (execLoadSub_frame ?_ _ (Sub.le (by decide) hp)) ?_
    · exact h
    · exact h
  · refine after_frame (execReadSub_frame ?_ _ (Sub.le (by decide) hp)) ?_
    · exact h
    · exact h
  · refine after_frame (execReadSubcfg_frame ?_ _ (Sub.le (by decide) hp)) ?_
    · exact h
    · exact h
  · refine after_frame (execClearSub_frame ?_ _ (Sub.le (by decide) hp)) ?_
    · exact h
    · exact h
  · refine after_frame (execReadPubcfg_frame ?_ _ (Sub.le (by decide) hp)) ?_
    · exact h
    · exact h

theorem State.secOp_frame {P : Part → Prop} {s0 s : State} (h : Frame P s0 s) (a_arg : BitVec 16) (a_op : ℕ) (hp : Sub 19807041368165229603678322692 P) :
    Frame P s0 (State.secOp s a_arg a_op) := by
  unfold State.secOp
  split
  · refine after_frame (execRevoke_frame ?_ _ _ (Sub.le (by decide) hp)) ?_
    · exact h
    · exact h
  · refine after_frame (execAdvance_frame ?_ _ _ (Sub.le (by decide) hp)) ?_
    · exact h
    · exact h
  · refine after_frame (execBlowFuse_frame ?_ _ _ (Sub.le (by decide) hp)) ?_
    · exact h
    · exact h
  · refine after_frame (execShaInit_frame ?_  (Sub.le (by decide) hp)) ?_
    · exact h
    · exact h
  · refine after_frame (execShaUpdate_frame ?_ _ (Sub.le (by decide) hp)) ?_
    · exact h
    · exact h
  · refine after_frame (execShaFinal_frame ?_  (Sub.le (by decide) hp)) ?_
    · exact h
    · exact h
  · refine after_frame (execVerify_frame ?_  (Sub.le (by decide) hp)) ?_
    · exact h
    · exact h

theorem State.ospiOp_frame {P : Part → Prop} {s0 s : State} (h : Frame P s0 s) (a_op : ℕ) (hp : Sub 154742652628740312114659332 P) :
    Frame P s0 (State.ospiOp s a_op) := by
  unfold State.ospiOp
  split
  · refine after_frame (execOspiRead_frame ?_ _ (Sub.le (by decide) hp)) ?_
    · exact h
    · exact h
  · refine after_frame (execProgram_frame ?_ _ (Sub.le (by decide) hp)) ?_
    · exact h
    · exact h
  · refine after_frame (execErase4k_frame ?_ _ (Sub.le (by decide) hp)) ?_
    · exact h
    · exact h
  · refine after_frame (execErase64k_frame ?_ _ (Sub.le (by decide) hp)) ?_
    · exact h
    · exact h
  · refine after_frame (execReadSfdp_frame ?_ _ (Sub.le (by decide) hp)) ?_
    · exact h
    · exact h

theorem State.mbxWrite_frame {P : Part → Prop} {s0 s : State} (h : Frame P s0 s) (a_a : Sys2Proof.Agent) (a_page : ℕ) (a_v : Sys2Proof.Word) (hp : Sub 2954270774039935878377570511782 P) :
    Frame P s0 (State.mbxWrite s a_a a_page a_v) := by
  unfold State.mbxWrite
  extract_lets -merge -useContext -underBinder +onlyGivenNames x0
  extract_lets -merge -useContext -underBinder +onlyGivenNames x1
  refine Frame.ite (fun _ => ?_) (fun _ => ?_)
  · refine State.mbxCommand_frame ?_ _ _ (fun y2 h2 => ?_) (Sub.le (by decide) hp)
    · exact h
    · refine Frame.pair2 ?_
      exact h2
  · refine Frame.ite (fun _ => ?_) (fun _ => ?_)
    · refine State.mbxCommand_frame ?_ _ _ (fun y3 h3 => ?_) (Sub.le (by decide) hp)
      · exact h
      · refine Frame.pair2 ?_
        exact h3
    · refine Frame.ite (fun _ => ?_) (fun _ => ?_)
      · refine State.timeOp_frame ?_ _ _ _ (Sub.le (by decide) hp)
        exact h
      · refine Frame.ite (fun _ => ?_) (fun _ => ?_)
        · refine State.winOp_frame ?_ _ _ (Sub.le (by decide) hp)
          exact h
        · refine Frame.ite (fun _ => ?_) (fun _ => ?_)
          · refine State.drlOp_frame ?_ _ _ (Sub.le (by decide) hp)
            exact h
          · refine Frame.ite (fun _ => ?_) (fun _ => ?_)
            · refine State.rfxOp_frame ?_ _ _ (Sub.le (by decide) hp)
              exact h
            · refine Frame.ite (fun _ => ?_) (fun _ => ?_)
              · refine State.sigOp_frame ?_ _ _ (Sub.le (by decide) hp)
                exact h
              · refine Frame.ite (fun _ => ?_) (fun _ => ?_)
                · refine State.secOp_frame ?_ _ _ (Sub.le (by decide) hp)
                  exact h
                · refine State.ospiOp_frame ?_ _ (Sub.le (by decide) hp)
                  exact h

theorem State.mbxDataWrite_frame {P : Part → Prop} {s0 s : State} (h : Frame P s0 s) (a_page : ℕ) (a_n : ℕ) (a_v : Sys2Proof.Word) (hp : Sub 147573952589676412928 P) :
    Frame P s0 (State.mbxDataWrite s a_page a_n a_v) := by
  unfold State.mbxDataWrite
  refine Frame.ite (fun _ => ?_) (fun _ => ?_)
  · refine State.setFld_frame ?_ _ _ _ _ (Reg.mbxFlag_in _ (hp .regMbx rfl)) (Sub.le (by decide) hp)
    exact h
  · refine State.wr_frame ?_ _ _ (Reg.mbxD_in _ _ (by omega) (hp .regMbx rfl)) (Sub.le (by decide) hp)
    exact h

theorem State.indAddrWrite_frame {P : Part → Prop} {s0 s : State} (h : Frame P s0 s) (a_page : ℕ) (a_v : Sys2Proof.Word) (hp : Sub 1180591620717411303424 P) :
    Frame P s0 (State.indAddrWrite s a_page a_v) := by
  unfold State.indAddrWrite
  refine State.wr_frame ?_ _ _ (Reg.indAddr_in _ (hp .regInd rfl)) (Sub.le (by decide) hp)
  exact h

theorem State.indAdvance_frame {P : Part → Prop} {s0 s : State} (h : Frame P s0 s) (a_page : ℕ) (hp : Sub 1180591620717411303424 P) :
    Frame P s0 (State.indAdvance s a_page) := by
  unfold State.indAdvance
  refine Frame.ite (fun _ => ?_) (fun _ => ?_)
  · refine State.setFld_frame ?_ _ _ _ _ (Reg.indAddr_in _ (hp .regInd rfl)) (Sub.le (by decide) hp)
    exact h
  · exact h

theorem State.indPlain_frame {P : Part → Prop} {s0 s : State} (_ : Frame P s0 s) (a_page : ℕ) (a_addr : ℕ) (a_v : Sys2Proof.Word) (hp : Sub 40564819207303340847894502572031 P) :
    Frame P s0 (State.indPlain s a_page a_addr a_v) := Frame.all hp

theorem State.chIndWrite_frame {P : Part → Prop} {s0 s : State} (_ : Frame P s0 s) (a_a : Sys2Proof.Agent) (a_c : ℕ) (a_addr : ℕ) (a_v : Sys2Proof.Word) (hp : Sub 40564819207303340847894502572031 P) :
    Frame P s0 (State.chIndWrite s a_a a_c a_addr a_v) := Frame.all hp

theorem State.canIndWrite_frame {P : Part → Prop} {s0 s : State} (_ : Frame P s0 s) (a_n : ℕ) (a_addr : ℕ) (a_v : Sys2Proof.Word) (hp : Sub 40564819207303340847894502572031 P) :
    Frame P s0 (State.canIndWrite s a_n a_addr a_v) := Frame.all hp

theorem State.fpIndWrite_frame {P : Part → Prop} {s0 s : State} (_ : Frame P s0 s) (a_n : ℕ) (a_addr : ℕ) (a_v : Sys2Proof.Word) (hp : Sub 40564819207303340847894502572031 P) :
    Frame P s0 (State.fpIndWrite s a_n a_addr a_v) := Frame.all hp

theorem State.clearInds_frame {P : Part → Prop} {s0 s : State} (_ : Frame P s0 s) (a_page : ℕ) (a_addr : ℕ) (a_n : ℕ) (hp : Sub 40564819207303340847894502572031 P) :
    Frame P s0 (State.clearInds s a_page a_addr a_n) := Frame.all hp

theorem State.indPut_frame {P : Part → Prop} {s0 s : State} (_ : Frame P s0 s) (a_a : Sys2Proof.Agent) (a_page : ℕ) (a_addr : ℕ) (a_v : Sys2Proof.Word) (hp : Sub 40564819207303340847894502572031 P) :
    Frame P s0 (State.indPut s a_a a_page a_addr a_v) := Frame.all hp

theorem State.indRead_frame {P : Part → Prop} {s0 s : State} (h : Frame P s0 s) (a_page : ℕ) (hp : Sub 2419032230849975760715777 P) :
    Frame P s0 (State.indRead s a_page).2 := by
  unfold State.indRead
  extract_lets -merge -useContext -underBinder +onlyGivenNames x0
  have h0 : Frame P s0 x0.2 := by
    unfold x0
    refine State.indTake_frame ?_ _ _ (Sub.le (by decide) hp)
    exact h
  refine Frame.pair2 ?_
  refine State.indAdvance_frame ?_ _ (Sub.le (by decide) hp)
  exact h0

theorem State.indWrite_frame {P : Part → Prop} {s0 s : State} (_ : Frame P s0 s) (a_a : Sys2Proof.Agent) (a_page : ℕ) (a_v : Sys2Proof.Word) (hp : Sub 40564819207303340847894502572031 P) :
    Frame P s0 (State.indWrite s a_a a_page a_v) := Frame.all hp

theorem State.regPlain_frame {P : Part → Prop} {s0 s : State} (_ : Frame P s0 s) (a_page : ℕ) (a_off : ℕ) (a_v : Sys2Proof.Word) (hp : Sub 40564819207303340847894502572031 P) :
    Frame P s0 (State.regPlain s a_page a_off a_v) := Frame.all hp

theorem State.tileWrite_frame {P : Part → Prop} {s0 s : State} (_ : Frame P s0 s) (a_t : ℕ) (a_off : ℕ) (a_v : Sys2Proof.Word) (hp : Sub 40564819207303340847894502572031 P) :
    Frame P s0 (State.tileWrite s a_t a_off a_v) := Frame.all hp

theorem State.fifoCmd_frame {P : Part → Prop} {s0 s : State} (h : Frame P s0 s) (a_id : ℕ) (a_v : Sys2Proof.Word) (hp : Sub 56742184770730597752834 P) :
    Frame P s0 (State.fifoCmd s a_id a_v) := by
  unfold State.fifoCmd
  extract_lets -merge -useContext -underBinder +onlyGivenNames x0
  have h0 : Frame P s0 x0 := by
    unfold x0
    refine Frame.ite (fun _ => ?_) (fun _ => ?_)
    · refine State.fifoDropRest_frame ?_ _ (Sub.le (by decide) hp)
      exact h
    · exact h
  extract_lets -merge -useContext -underBinder +onlyGivenNames x1
  have h1 : Frame P s0 x1 := by
    unfold x1
    refine Frame.ite (fun _ => ?_) (fun _ => ?_)
    · refine State.fifoFlush_frame ?_ _ (Sub.le (by decide) hp)
      exact h0
    · exact h0
  refine Frame.ite (fun _ => ?_) (fun _ => ?_)
  · refine State.setFifo_frame ?_ _ _ (Sub.le (by decide) hp)
    exact h1
  · exact h1

theorem State.safeCmd_frame {P : Part → Prop} {s0 s : State} (h : Frame P s0 s) (a_c : ℕ) (a_v : Sys2Proof.Word) (hp : Sub 524288 P) :
    Frame P s0 (State.safeCmd s a_c a_v) := by
  unfold State.safeCmd
  extract_lets -merge -useContext -underBinder +onlyGivenNames x0
  have h0 : Frame P s0 x0 := by
    unfold x0
    refine Frame.foldl ?_ (fun y1 a1 h1 => ?_)
    · exact h
    · refine Frame.ite (fun _ => ?_) (fun _ => ?_)
      · refine State.safeRelease_frame ?_ _ (Sub.le (by decide) hp)
        exact h1
      · exact h1
  refine Frame.foldl ?_ (fun y2 a2 h2 => ?_)
  · exact h0
  · refine Frame.ite (fun _ => ?_) (fun _ => ?_)
    · refine State.safeEnter_frame ?_ _ (Sub.le (by decide) hp)
      exact h2
    · exact h2

theorem State.ctrCmd_frame {P : Part → Prop} {s0 s : State} (h : Frame P s0 s) (a_c : ℕ) (a_v : Sys2Proof.Word) (hp : Sub 1265668004385359781112130 P) :
    Frame P s0 (State.ctrCmd s a_c a_v) := by
  unfold State.ctrCmd
  extract_lets -merge -useContext -underBinder +onlyGivenNames x0
  have h0 : Frame P s0 x0 := by
    unfold x0
    refine Frame.ite (fun _ => ?_) (fun _ => ?_)
    · refine State.ctrCapture_frame ?_ _ (Sub.le (by decide) hp)
      exact h
    · exact h
  refine Frame.ite (fun _ => ?_) (fun _ => ?_)
  · refine State.wr_frame ?_ _ _ (Reg.chCtrCount_in _ (hp .regCh rfl)) (Sub.le (by decide) hp)
    exact h0
  · exact h0

theorem State.engWrite_frame {P : Part → Prop} {s0 s : State} (_ : Frame P s0 s) (a_c : ℕ) (a_off : ℕ) (a_v : Sys2Proof.Word) (hp : Sub 40564819207303340847894502572031 P) :
    Frame P s0 (State.engWrite s a_c a_off a_v) := Frame.all hp

theorem State.serialWrite_frame {P : Part → Prop} {s0 s : State} (_ : Frame P s0 s) (a_c : ℕ) (a_off : ℕ) (a_v : Sys2Proof.Word) (hp : Sub 40564819207303340847894502572031 P) :
    Frame P s0 (State.serialWrite s a_c a_off a_v) := Frame.all hp

theorem State.chWrite_frame {P : Part → Prop} {s0 s : State} (_ : Frame P s0 s) (a_c : ℕ) (a_off : ℕ) (a_v : Sys2Proof.Word) (hp : Sub 40564819207303340847894502572031 P) :
    Frame P s0 (State.chWrite s a_c a_off a_v) := Frame.all hp

theorem State.canWrite_frame {P : Part → Prop} {s0 s : State} (_ : Frame P s0 s) (a_n : ℕ) (a_off : ℕ) (a_v : Sys2Proof.Word) (hp : Sub 40564819207303340847894502572031 P) :
    Frame P s0 (State.canWrite s a_n a_off a_v) := Frame.all hp

theorem State.evqWrite_frame {P : Part → Prop} {s0 s : State} (_ : Frame P s0 s) (a_off : ℕ) (a_v : Sys2Proof.Word) (hp : Sub 40564819207303340847894502572031 P) :
    Frame P s0 (State.evqWrite s a_off a_v) := Frame.all hp

theorem State.dmaRegWrite_frame {P : Part → Prop} {s0 s : State} (_ : Frame P s0 s) (a_off : ℕ) (a_v : Sys2Proof.Word) (hp : Sub 40564819207303340847894502572031 P) :
    Frame P s0 (State.dmaRegWrite s a_off a_v) := Frame.all hp

theorem State.hostWrite_frame {P : Part → Prop} {s0 s : State} (_ : Frame P s0 s) (a_off : ℕ) (a_v : Sys2Proof.Word) (hp : Sub 40564819207303340847894502572031 P) :
    Frame P s0 (State.hostWrite s a_off a_v) := Frame.all hp

theorem State.xbrWrite_frame {P : Part → Prop} {s0 s : State} (_ : Frame P s0 s) (a_off : ℕ) (a_v : Sys2Proof.Word) (hp : Sub 40564819207303340847894502572031 P) :
    Frame P s0 (State.xbrWrite s a_off a_v) := Frame.all hp

theorem State.timeWrite_frame {P : Part → Prop} {s0 s : State} (_ : Frame P s0 s) (a_off : ℕ) (a_v : Sys2Proof.Word) (hp : Sub 40564819207303340847894502572031 P) :
    Frame P s0 (State.timeWrite s a_off a_v) := Frame.all hp

theorem State.leaseWrite_frame {P : Part → Prop} {s0 s : State} (_ : Frame P s0 s) (a_off : ℕ) (a_v : Sys2Proof.Word) (hp : Sub 40564819207303340847894502572031 P) :
    Frame P s0 (State.leaseWrite s a_off a_v) := Frame.all hp

theorem State.ringWrite_frame {P : Part → Prop} {s0 s : State} (_ : Frame P s0 s) (a_off : ℕ) (a_v : Sys2Proof.Word) (hp : Sub 40564819207303340847894502572031 P) :
    Frame P s0 (State.ringWrite s a_off a_v) := Frame.all hp

theorem State.fpWrite_frame {P : Part → Prop} {s0 s : State} (_ : Frame P s0 s) (a_n : ℕ) (a_off : ℕ) (a_v : Sys2Proof.Word) (hp : Sub 40564819207303340847894502572031 P) :
    Frame P s0 (State.fpWrite s a_n a_off a_v) := Frame.all hp

theorem State.ptpWrite_frame {P : Part → Prop} {s0 s : State} (_ : Frame P s0 s) (a_a : Sys2Proof.Agent) (a_off : ℕ) (a_v : Sys2Proof.Word) (hp : Sub 40564819207303340847894502572031 P) :
    Frame P s0 (State.ptpWrite s a_a a_off a_v) := Frame.all hp

theorem State.icuWrite_frame {P : Part → Prop} {s0 s : State} (_ : Frame P s0 s) (a_a : Sys2Proof.Agent) (a_off : ℕ) (a_v : Sys2Proof.Word) (hp : Sub 40564819207303340847894502572031 P) :
    Frame P s0 (State.icuWrite s a_a a_off a_v) := Frame.all hp

theorem State.icupWrite_frame {P : Part → Prop} {s0 s : State} (_ : Frame P s0 s) (a_t : ℕ) (a_a : Sys2Proof.Agent) (a_off : ℕ) (a_v : Sys2Proof.Word) (hp : Sub 40564819207303340847894502572031 P) :
    Frame P s0 (State.icupWrite s a_t a_a a_off a_v) := Frame.all hp

theorem State.bufWrite_frame {P : Part → Prop} {s0 s : State} (_ : Frame P s0 s) (a_off : ℕ) (a_v : Sys2Proof.Word) (hp : Sub 40564819207303340847894502572031 P) :
    Frame P s0 (State.bufWrite s a_off a_v) := Frame.all hp

theorem State.stwWrite_frame {P : Part → Prop} {s0 s : State} (_ : Frame P s0 s) (a_off : ℕ) (a_v : Sys2Proof.Word) (hp : Sub 40564819207303340847894502572031 P) :
    Frame P s0 (State.stwWrite s a_off a_v) := Frame.all hp

theorem State.bootWrite_frame {P : Part → Prop} {s0 s : State} (_ : Frame P s0 s) (a_off : ℕ) (a_v : Sys2Proof.Word) (hp : Sub 40564819207303340847894502572031 P) :
    Frame P s0 (State.bootWrite s a_off a_v) := Frame.all hp

theorem State.regBlockWrite_frame {P : Part → Prop} {s0 s : State} (_ : Frame P s0 s) (a_a : Sys2Proof.Agent) (a_b : Sys2Proof.Machine.Block) (a_i : ℕ) (a_page : ℕ) (a_off : ℕ) (a_v : Sys2Proof.Word) (hp : Sub 40564819207303340847894502572031 P) :
    Frame P s0 (State.regBlockWrite s a_a a_b a_i a_page a_off a_v) := Frame.all hp

theorem State.pageWrite_frame {P : Part → Prop} {s0 s : State} (_ : Frame P s0 s) (a_a : Sys2Proof.Agent) (a_page : ℕ) (a_off : ℕ) (a_v : Sys2Proof.Word) (hp : Sub 40564819207303340847894502572031 P) :
    Frame P s0 (State.pageWrite s a_a a_page a_off a_v) := Frame.all hp

theorem State.pageRead_frame {P : Part → Prop} {s0 s : State} (h : Frame P s0 s) (a_a : Sys2Proof.Agent) (a_page : ℕ) (a_off : ℕ) (hp : Sub 633887013253693690084085410051 P) :
    Frame P s0 (State.pageRead s a_a a_page a_off).2 := by
  unfold State.pageRead
  split
  · refine Frame.pair2 ?_
    exact h
  · extract_lets -merge -useContext -underBinder +onlyGivenNames x2
    have h2 : Frame P s0 x2 := by
      unfold x2
      refine Frame.ite (fun _ => ?_) (fun _ => ?_)
      · refine State.tileWake_frame ?_ _ (Sub.le (by decide) hp)
        exact h
      · refine Frame.ite (fun _ => ?_) (fun _ => ?_)
        · refine State.tileWake_frame ?_ _ (Sub.le (by decide) hp)
          exact h
        · exact h
    refine Frame.ite2 (fun _ => ?_) (fun _ => ?_)
    · refine Frame.ite2 (fun _ => ?_) (fun _ => ?_)
      · refine State.indRead_frame ?_ _ (Sub.le (by decide) hp)
        exact h2
      · refine Frame.pair2 ?_
        exact h2
    · refine Frame.ite2 (fun _ => ?_) (fun _ => ?_)
      · split
        · refine State.stampRead_frame ?_ _ (Sub.le (by decide) hp)
          exact h2
        · refine State.rxDataRead_frame ?_ _ (Sub.le (by decide) hp)
          exact h2
        · refine State.rxDataRead_frame ?_ _ (Sub.le (by decide) hp)
          exact h2
        · refine State.msgRead_frame ?_  (Sub.le (by decide) hp)
          exact h2
        · refine State.icuClaim_frame ?_ _ _ (Sub.le (by decide) hp)
          exact h2
        · refine State.icuClaim_frame ?_ _ _ (Sub.le (by decide) hp)
          exact h2
        · refine Frame.pair2 ?_
          exact h2
      · refine Frame.ite2 (fun _ => ?_) (fun _ => ?_)
        · refine Frame.pair2 ?_
          exact h2
        · refine Frame.pair2 ?_
          exact h2

theorem State.deny_frame {P : Part → Prop} {s0 s : State} (h : Frame P s0 s) (a_o : Sys2Proof.Machine.Origin) (a_write : Bool) (a_addr : ℕ) (hp : Sub 6044702885049440711944514 P) :
    Frame P s0 (State.deny s a_o a_write a_addr) := by
  unfold State.deny
  extract_lets -merge -useContext -underBinder +onlyGivenNames x0
  have h0 : Frame P s0 x0 := by
    unfold x0
    refine State.bump_frame ?_ _ (Reg.fwlCntDeny_in (hp .regFwl rfl)) (Sub.le (by decide) hp)
    exact h
  extract_lets -merge -useContext -underBinder +onlyGivenNames x1
  have h1 : Frame P s0 x1 := by
    unfold x1
    refine State.wr_frame ?_ _ _ (Reg.fwlLastAddr_in (hp .regFwl rfl)) (Sub.le (by decide) hp)
    refine State.wr_frame ?_ _ _ (Reg.fwlLastDeny_in (hp .regFwl rfl)) (Sub.le (by decide) hp)
    exact h0
  refine State.gather_frame ?_ _ _ (Sub.le (by decide) hp)
  refine State.raise_frame ?_ _ _ (Sub.le (by decide) hp)
  exact h1

theorem State.turnAway_frame {P : Part → Prop} {s0 s : State} (h : Frame P s0 s) (a_o : Sys2Proof.Machine.Origin) (a_write : Bool) (a_addr : ℕ) (a_st : ℕ) (hp : Sub 6044702885049440711944514 P) :
    Frame P s0 (State.turnAway s a_o a_write a_addr a_st) := by
  unfold State.turnAway
  refine Frame.ite (fun _ => ?_) (fun _ => ?_)
  · refine State.deny_frame ?_ _ _ _ (Sub.le (by decide) hp)
    exact h
  · exact h

theorem State.memoryWakes_frame {P : Part → Prop} {s0 s : State} (h : Frame P s0 s)  (hp : Sub 73786985090931433474 P) :
    Frame P s0 (State.memoryWakes s) := by
  unfold State.memoryWakes
  refine Frame.ite (fun _ => ?_) (fun _ => ?_)
  · refine State.setPower_frame ?_ _ (Sub.le (by decide) hp)
    exact h
  · exact h

theorem State.pageWords_frame {P : Part → Prop} {s0 s : State} (h : Frame P s0 s) (a : Agent) (page off n : Nat) (hp : Sub 633887013253693690084085410051 P) :
    Frame P s0 (s.pageWords a page off n).2 := by
  induction n generalizing s off with
  | zero => exact h
  | succ n ih => exact ih (State.pageRead_frame h a page off (Sub.le (by decide) hp)) (off + 4)

theorem State.busRead_frame {P : Part → Prop} {s0 s : State} (h : Frame P s0 s) (a_o : Sys2Proof.Machine.Origin) (a_addr : ℕ) (a_n : ℕ) (hp : Sub 633891848956972157396877257027 P) :
    Frame P s0 (State.busRead s a_o a_addr a_n).2.2 := by
  unfold State.busRead
  split
  · refine Frame.pair22 ?_
    refine Frame.pair2 ?_
    refine State.turnAway_frame ?_ _ _ _ _ (Sub.le (by decide) hp)
    exact h
  · refine Frame.ite22 (fun _ => ?_) (fun _ => ?_)
    · extract_lets -merge -useContext -underBinder +onlyGivenNames x2
      refine Frame.ite22 (fun _ => ?_) (fun _ => ?_)
      · extract_lets -merge -useContext -underBinder +onlyGivenNames x3
        have h3 : Frame P s0 x3.2 := by
          unfold x3
          refine State.pageWords_frame ?_ _ _ _ _ (Sub.le (by decide) hp)
          exact h
        refine Frame.pair22 ?_
        refine Frame.pair2 ?_
        exact h3
      · refine Frame.pair22 ?_
        refine Frame.pair2 ?_
        exact h
    · refine Frame.ite22 (fun _ => ?_) (fun _ => ?_)
      · refine Frame.pair22 ?_
        refine Frame.pair2 ?_
        exact h
      · refine Frame.pair22 ?_
        refine Frame.pair2 ?_
        refine State.memoryWakes_frame ?_  (Sub.le (by decide) hp)
        exact h

theorem State.busWrite_frame {P : Part → Prop} {s0 s : State} (_ : Frame P s0 s) (a_o : Sys2Proof.Machine.Origin) (a_addr : ℕ) (a_data : List Sys2Proof.Byte) (hp : Sub 40564819207303340847894502572031 P) :
    Frame P s0 (State.busWrite s a_o a_addr a_data).2 := Frame.all hp

theorem State.localAnswer_frame {P : Part → Prop} {s0 s : State} (h : Frame P s0 s) (a_a : Sys2Proof.Agent) (a_addr : ℕ) (a_status : ℕ) (a_data : List Sys2Proof.Byte) (hp : Sub 9241386435364257792 P) :
    Frame P s0 (State.localAnswer s a_a a_addr a_status a_data) := by
  unfold State.localAnswer
  extract_lets -merge -useContext -underBinder +onlyGivenNames x0
  have h0 : Frame P s0 x0 := by
    unfold x0
    refine Frame.set_reply ?_ (hp .reply rfl) _
    exact h
  refine Frame.ite (fun _ => ?_) (fun _ => ?_)
  · exact h0
  · split
    · refine State.coreFault_frame ?_ _ _ _ _ (Sub.le (by decide) hp)
      exact h0
    · refine State.coreFault_frame ?_ _ _ _ _ (Sub.le (by decide) hp)
      exact h0
    · exact h0

theorem State.setWaiting_frame {P : Part → Prop} {s0 s : State} (h : Frame P s0 s) (a_page : ℕ) (a_l : List Sys2Proof.Machine.IndAccess) (hp : Sub 8 P) :
    Frame P s0 (State.setWaiting s a_page a_l) := by
  unfold State.setWaiting
  refine Frame.set_ind ?_ (hp .ind rfl) _
  exact h

theorem State.indQueue_frame {P : Part → Prop} {s0 s : State} (h : Frame P s0 s) (a_page : ℕ) (a_who : Sys2Proof.Machine.AccWho) (a_data : Option Sys2Proof.Word) (hp : Sub 8 P) :
    Frame P s0 (State.indQueue s a_page a_who a_data) := by
  unfold State.indQueue
  refine State.setWaiting_frame ?_ _ _ (Sub.le (by decide) hp)
  exact h

theorem State.stall_frame {P : Part → Prop} {s0 s : State} (h : Frame P s0 s) (a_t : ℕ) (a_x : Sys2Proof.Machine.Stall) (hp : Sub 633825300114114700748352651280 P) :
    Frame P s0 (State.stall s a_t a_x) := by
  unfold State.stall
  extract_lets -merge -useContext -underBinder +onlyGivenNames x0
  have h0 : Frame P s0 x0 := by
    unfold x0
    refine State.tileWake_frame ?_ _ (Sub.le (by decide) hp)
    exact h
  refine Frame.set_stalls ?_ (hp .stalls rfl) _
  exact h0

theorem State.writeNow_frame {P : Part → Prop} {s0 s : State} (_ : Frame P s0 s) (a_a : Sys2Proof.Agent) (a_addr : ℕ) (a_data : List Sys2Proof.Byte) (hp : Sub 40564819207303340847894502572031 P) :
    Frame P s0 (State.writeNow s a_a a_addr a_data) := Frame.all hp

theorem State.readNow_frame {P : Part → Prop} {s0 s : State} (h : Frame P s0 s) (a_a : Sys2Proof.Agent) (a_addr : ℕ) (a_n : ℕ) (hp : Sub 633891848966213543832241514819 P) :
    Frame P s0 (State.readNow s a_a a_addr a_n) := by
  unfold State.readNow
  extract_lets -merge -useContext -underBinder +onlyGivenNames x0
  have h0 : Frame P s0 x0.2.2 := by
    unfold x0
    refine State.busRead_frame ?_ _ _ _ (Sub.le (by decide) hp)
    exact h
  refine State.localAnswer_frame ?_ _ _ _ _ (Sub.le (by decide) hp)
  exact h0

theorem State.agentWrite_frame {P : Part → Prop} {s0 s : State} (_ : Frame P s0 s) (a_a : Sys2Proof.Agent) (a_addr : ℕ) (a_data : List Sys2Proof.Byte) (hp : Sub 40564819207303340847894502572031 P) :
    Frame P s0 (State.agentWrite s a_a a_addr a_data) := Frame.all hp

theorem State.agentRead_frame {P : Part → Prop} {s0 s : State} (h : Frame P s0 s) (a_a : Sys2Proof.Agent) (a_addr : ℕ) (a_n : ℕ) (hp : Sub 633891848966213543832241514843 P) :
    Frame P s0 (State.agentRead s a_a a_addr a_n) := by
  unfold State.agentRead
  refine Frame.ite (fun _ => ?_) (fun _ => ?_)
  · split
    · refine State.stall_frame ?_ _ _ (Sub.le (by decide) hp)
      exact h
    · refine State.indQueue_frame ?_ _ _ _ (Sub.le (by decide) hp)
      exact h
    · refine State.readNow_frame ?_ _ _ _ (Sub.le (by decide) hp)
      exact h
  · refine State.readNow_frame ?_ _ _ _ (Sub.le (by decide) hp)
    exact h

theorem State.agentReg_frame {P : Part → Prop} {s0 s : State} (_ : Frame P s0 s) (a_a : Sys2Proof.Agent) (a_page : ℕ) (a_off : ℕ) (a_v : Sys2Proof.Word) (hp : Sub 40564819207303340847894502572031 P) :
    Frame P s0 (State.agentReg s a_a a_page a_off a_v) := Frame.all hp

theorem State.windowWrite_frame {P : Part → Prop} {s0 s : State} (h : Frame P s0 s) (a_n : ℕ) (a_w : ℕ) (a_base : Bool) (a_v : Sys2Proof.Word) (hp : Sub 18014398509481984 P) :
    Frame P s0 (State.windowWrite s a_n a_w a_base a_v) := by
  unfold State.windowWrite
  refine State.setCore_frame ?_ _ _ (Sub.le (by decide) hp)
  exact h

theorem execRegisterWrite_frame {P : Part → Prop} {s0 s : State} (_ : Frame P s0 s) (a_t : Sys2Proof.RegTarget) (hp : Sub 40564819207303340847894502572031 P) :
    AnswersIn P s0 (execRegisterWrite a_t s) := ⟨_, rfl, Frame.all hp⟩

theorem execMbxNop_frame {P : Part → Prop} {s0 s : State} (_ : Frame P s0 s) (a_a : Sys2Proof.Agent) (a_page : Fin 256) (hp : Sub 40564819207303340847894502572031 P) :
    AnswersIn P s0 (execMbxNop a_a a_page s) := ⟨_, rfl, Frame.all hp⟩

theorem execMbxUnknownOp_frame {P : Part → Prop} {s0 s : State} (_ : Frame P s0 s) (a_a : Sys2Proof.Agent) (a_page : Fin 256) (a_op : Sys2Proof.Byte) (a_arg : BitVec 16) (hp : Sub 40564819207303340847894502572031 P) :
    AnswersIn P s0 (execMbxUnknownOp a_a a_page a_op a_arg s) := ⟨_, rfl, Frame.all hp⟩

theorem execMbxWriteWhileBusy_frame {P : Part → Prop} {s0 s : State} (_ : Frame P s0 s) (a_a : Sys2Proof.Agent) (a_page : Fin 256) (a_n : Fin 5) (a_v : Sys2Proof.Word) (hp : Sub 40564819207303340847894502572031 P) :
    AnswersIn P s0 (execMbxWriteWhileBusy a_a a_page a_n a_v s) := ⟨_, rfl, Frame.all hp⟩

theorem execMbxComplete_frame {P : Part → Prop} {s0 s : State} (h : Frame P s0 s) (a_page : Fin 256) (hp : Sub 221360928884514824198 P) :
    AnswersIn P s0 (execMbxComplete a_page s) := by
  refine ⟨_, rfl, ?_⟩
  extract_lets -merge -useContext -underBinder +onlyGivenNames x0
  split
  · exact h
  · extract_lets -merge -useContext -underBinder +onlyGivenNames x3
    have h3 : Frame P s0 x3 := by
      unfold x3
      refine State.mbxResult_frame ?_ _ _ _ (Sub.le (by decide) hp)
      refine State.mbxResult_frame ?_ _ _ _ (Sub.le (by decide) hp)
      refine State.mbxResult_frame ?_ _ _ _ (Sub.le (by decide) hp)
      refine State.mbxResult_frame ?_ _ _ _ (Sub.le (by decide) hp)
      exact h
    extract_lets -merge -useContext -underBinder +onlyGivenNames x4
    have h4 : Frame P s0 x4 := by
      unfold x4
      refine State.wr_frame ?_ _ _ (Reg.mbxFlag_in _ (hp .regMbx rfl)) (Sub.le (by decide) hp)
      exact h3
    extract_lets -merge -useContext -underBinder +onlyGivenNames x5
    have h5 : Frame P s0 x5 := by
      unfold x5
      refine Frame.set_mbx ?_ (hp .mbx rfl) _
      exact h4
    refine Frame.ite (fun _ => ?_) (fun _ => ?_)
    · refine State.raise_frame ?_ _ _ (Sub.le (by decide) hp)
      exact h5
    · exact h5

theorem execIndDataRead_frame {P : Part → Prop} {s0 s : State} (h : Frame P s0 s) (a_a : Sys2Proof.Agent) (a_page : Fin 256) (hp : Sub 633891848966213543832241514843 P) :
    AnswersIn P s0 (execIndDataRead a_a a_page s) := by
  refine ⟨_, rfl, ?_⟩
  refine State.agentRead_frame ?_ _ _ _ (Sub.le (by decide) hp)
  exact h

theorem execIndDataWrite_frame {P : Part → Prop} {s0 s : State} (_ : Frame P s0 s) (a_a : Sys2Proof.Agent) (a_page : Fin 256) (a_v : Sys2Proof.Word) (hp : Sub 40564819207303340847894502572031 P) :
    AnswersIn P s0 (execIndDataWrite a_a a_page a_v s) := ⟨_, rfl, Frame.all hp⟩

theorem execIndAddrWrite_frame {P : Part → Prop} {s0 s : State} (_ : Frame P s0 s) (a_a : Sys2Proof.Agent) (a_page : Fin 256) (a_v : Sys2Proof.Word) (hp : Sub 40564819207303340847894502572031 P) :
    AnswersIn P s0 (execIndAddrWrite a_a a_page a_v s) := ⟨_, rfl, Frame.all hp⟩

theorem execSoftReset_frame {P : Part → Prop} {s0 s : State} (_ : Frame P s0 s) (a_a : Sys2Proof.Agent) (a_page : Fin 256) (hp : Sub 40564819207303340847894502572031 P) :
    AnswersIn P s0 (execSoftReset a_a a_page s) := ⟨_, rfl, Frame.all hp⟩

theorem execFreezeWrite_frame {P : Part → Prop} {s0 s : State} (_ : Frame P s0 s) (a_a : Sys2Proof.Agent) (a_page : Fin 256) (a_on : Bool) (hp : Sub 40564819207303340847894502572031 P) :
    AnswersIn P s0 (execFreezeWrite a_a a_page a_on s) := ⟨_, rfl, Frame.all hp⟩

theorem execEnableWrite_frame {P : Part → Prop} {s0 s : State} (_ : Frame P s0 s) (a_a : Sys2Proof.Agent) (a_page : Fin 256) (a_on : Bool) (hp : Sub 40564819207303340847894502572031 P) :
    AnswersIn P s0 (execEnableWrite a_a a_page a_on s) := ⟨_, rfl, Frame.all hp⟩

theorem execIrqPendWrite_frame {P : Part → Prop} {s0 s : State} (_ : Frame P s0 s) (a_a : Sys2Proof.Agent) (a_page : Fin 256) (a_v : Sys2Proof.Word) (a_edges : Sys2Proof.Word) (hp : Sub 40564819207303340847894502572031 P) :
    AnswersIn P s0 (execIrqPendWrite a_a a_page a_v a_edges s) := ⟨_, rfl, Frame.all hp⟩

theorem execCounterClear_frame {P : Part → Prop} {s0 s : State} (_ : Frame P s0 s) (a_a : Sys2Proof.Agent) (a_page : Fin 256) (hp : Sub 40564819207303340847894502572031 P) :
    AnswersIn P s0 (execCounterClear a_a a_page s) := ⟨_, rfl, Frame.all hp⟩

theorem execQualFailRepost_frame {P : Part → Prop} {s0 s : State} (h : Frame P s0 s) (a_r : Sys2Proof.Spaced) (hp : Sub 1209001912433933226813794 P) :
    AnswersIn P s0 (execQualFailRepost a_r s) := by
  refine ⟨_, rfl, ?_⟩
  split
  · extract_lets -merge -useContext -underBinder +onlyGivenNames x1
    extract_lets -merge -useContext -underBinder +onlyGivenNames x2
    refine Frame.ite (fun _ => ?_) (fun _ => ?_)
    · exact h
    · refine State.qualPost_frame ?_ _ _ (Sub.le (by decide) hp)
      exact h
  · extract_lets -merge -useContext -underBinder +onlyGivenNames x4
    refine Frame.ite (fun _ => ?_) (fun _ => ?_)
    · exact h
    · refine State.gatherPost_frame ?_ _ (Sub.le (by decide) hp)
      exact h

theorem State.accessEcc_frame {P : Part → Prop} {s0 s : State} (h : Frame P s0 s) (a_addr : ℕ) (a_ecc : Sys2Proof.ReadEcc) (hp : Sub 1360115334042752659958146 P) :
    Frame P s0 (State.accessEcc s a_addr a_ecc) := by
  unfold State.accessEcc
  refine Frame.ite (fun _ => ?_) (fun _ => ?_)
  · exact h
  · refine Frame.ite (fun _ => ?_) (fun _ => ?_)
    · split
      · exact h
      · refine State.eccError_frame ?_ _ _ _ _ _ (Sub.le (by decide) hp)
        exact h
      · refine State.eccError_frame ?_ _ _ _ _ _ (Sub.le (by decide) hp)
        exact h
    · refine State.ddrEcc_frame ?_ _ (Sub.le (by decide) hp)
      exact h

theorem State.memPutPart_frame {P : Part → Prop} {s0 s : State} (h : Frame P s0 s) (a : Nat) (l : List Byte) (hp : Sub 36893488147419104256 P) :
    Frame P s0 (s.memPutPart a l) := by
  induction l generalizing s a with
  | nil => exact h
  | cons b l ih =>
    have h1 : Frame P s0 s.fresh.2 := State.fresh_frame h (Sub.le (by decide) hp)
    exact ih (Frame.ite (fun _ => State.memSet_frame h1 a b (Sub.le (by decide) hp)) (fun _ => h1)) (a + 1)

theorem State.targetWrite_frame {P : Part → Prop} {s0 s : State} (_ : Frame P s0 s) (a_o : Sys2Proof.Machine.Origin) (a_addr : ℕ) (a_data : List Sys2Proof.Byte) (a_ecc : Sys2Proof.ReadEcc) (hp : Sub 40564819207303340847894502572031 P) :
    Frame P s0 (State.targetWrite s a_o a_addr a_data a_ecc).2 := Frame.all hp

theorem State.targetRead_frame {P : Part → Prop} {s0 s : State} (h : Frame P s0 s) (a_o : Sys2Proof.Machine.Origin) (a_addr : ℕ) (a_n : ℕ) (a_ecc : Sys2Proof.ReadEcc) (hp : Sub 633892000072699609225524095427 P) :
    Frame P s0 (State.targetRead s a_o a_addr a_n a_ecc).2.2 := by
  unfold State.targetRead
  refine Frame.ite22 (fun _ => ?_) (fun _ => ?_)
  · refine Frame.pair22 ?_
    refine Frame.pair2 ?_
    refine State.accessEcc_frame ?_ _ _ (Sub.le (by decide) hp)
    exact h
  · extract_lets -merge -useContext -underBinder +onlyGivenNames x0
    have h0 : Frame P s0 x0.2.2 := by
      unfold x0
      refine State.busRead_frame ?_ _ _ _ (Sub.le (by decide) hp)
      exact h
    refine Frame.pair22 ?_
    refine Frame.pair2 ?_
    refine Frame.ite (fun _ => ?_) (fun _ => ?_)
    · refine State.accessEcc_frame ?_ _ _ (Sub.le (by decide) hp)
      exact h0
    · exact h0

theorem State.targetAtomic_frame {P : Part → Prop} {s0 s : State} (h : Frame P s0 s) (a_o : Sys2Proof.Machine.Origin) (a_op : ℕ) (a_addr : ℕ) (a_n : ℕ) (a_data : List Sys2Proof.Byte) (a_ecc : Sys2Proof.ReadEcc) (hp : Sub 633892000109593097372943199683 P) :
    Frame P s0 (State.targetAtomic s a_o a_op a_addr a_n a_data a_ecc).2.2 := by
  unfold State.targetAtomic
  extract_lets -merge -useContext -underBinder +onlyGivenNames x0
  have h0 : Frame P s0 x0.2.2 := by
    unfold x0
    refine State.targetRead_frame ?_ _ _ _ _ (Sub.le (by decide) hp)
    exact h
  refine Frame.ite22 (fun _ => ?_) (fun _ => ?_)
  · refine Frame.pair22 ?_
    refine Frame.pair2 ?_
    refine State.memPutPart_frame ?_ _ _ (Sub.le (by decide) hp)
    exact h0
  · refine Frame.ite22 (fun _ => ?_) (fun _ => ?_)
    · refine Frame.pair22 ?_
      refine Frame.pair2 ?_
      refine State.memPut_frame ?_ _ _ (Sub.le (by decide) hp)
      exact h0
    · exact h0

theorem State.executeRequest_frame {P : Part → Prop} {s0 s : State} (_ : Frame P s0 s) (a_r : Sys2Proof.Machine.InReq) (a_ecc : Sys2Proof.ReadEcc) (hp : Sub 40564819207303340847894502572031 P) :
    Frame P s0 (State.executeRequest s a_r a_ecc).2.2 := Frame.all hp

theorem State.completeRequest_frame {P : Part → Prop} {s0 s : State} (h : Frame P s0 s) (a_r : Sys2Proof.Machine.InReq) (a_status : ℕ) (a_data : List Sys2Proof.Byte) (hp : Sub 5387518687265955996281478523138 P) :
    Frame P s0 (State.completeRequest s a_r a_status a_data) := by
  unfold State.completeRequest
  extract_lets -merge -useContext -underBinder +onlyGivenNames x0
  extract_lets -merge -useContext -underBinder +onlyGivenNames x1
  extract_lets -merge -useContext -underBinder +onlyGivenNames x2
  extract_lets -merge -useContext -underBinder +onlyGivenNames x3
  have h3 : Frame P s0 x3 := by
    unfold x3
    refine State.setXbr_frame ?_ _ (Sub.le (by decide) hp)
    exact h
  refine State.sendCompletion_frame ?_ _ _ _ (Sub.le (by decide) hp)
  exact h3

theorem State.executeHead_frame {P : Part → Prop} {s0 s : State} (_ : Frame P s0 s) (a_r : Sys2Proof.Machine.InReq) (a_ecc : Sys2Proof.ReadEcc) (hp : Sub 40564819207303340847894502572031 P) :
    Frame P s0 (State.executeHead s a_r a_ecc) := Frame.all hp

theorem State.frameWaits_frame {P : Part → Prop} {s0 s t : State} (h : Frame P s0 s) {o : Origin} {who : AccWho} {addr n : Nat}
    {data : Option Word} (e : s.frameWaits o who addr n data = some t)
    (hw : ∀ k, Frame P s0 (s.tileWake k)) (hq : ∀ p, Frame P s0 (s.indQueue p who data)) : Frame P s0 t := by
  unfold State.frameWaits at e
  by_cases c : (!(if data.isSome then s.writeReaches o addr n else s.readReaches o addr n)) = true
  · rw [if_pos c] at e; cases e
  · rw [if_neg c] at e
    split at e
    · injection e with e; exact e ▸ hw _
    · split at e
      · injection e with e; exact e ▸ h
      · split at e
        · cases e
        · injection e with e; exact e ▸ hq _
    · cases e

theorem execRequestExecute_frame {P : Part → Prop} {s0 s : State} (h : Frame P s0 s) (ecc : ReadEcc) (hp : Sub 40564819207303340847894502572031 P) :
    AnswersIn P s0 (execRequestExecute ecc s) := by
  refine ⟨_, rfl, ?_⟩
  split
  · exact h
  · refine Frame.ite (fun _ => h) (fun _ => Frame.ite (fun _ => State.answerBusy_frame (State.setXbr_frame h _ (Sub.le (by decide) hp)) _
      (Sub.le (by decide) hp)) (fun _ => ?_))
    split
    · rename_i e
      unfold State.requestWaits at e
      dsimp only at e
      split at e
      · cases e
      · exact State.frameWaits_frame h e (fun _ => State.tileWake_frame h _ (Sub.le (by decide) hp))
          (fun _ => State.indQueue_frame h _ _ _ (Sub.le (by decide) hp))
    · exact State.executeHead_frame h _ _ (Sub.le (by decide) hp)

theorem State.dropPosted_frame {P : Part → Prop} {s0 s : State} (h : Frame P s0 s) (a_p : Sys2Proof.Machine.PostReq) (hp : Sub 2251799813685248 P) :
    Frame P s0 (State.dropPosted s a_p) := by
  unfold State.dropPosted
  refine State.setXbr_frame ?_ _ (Sub.le (by decide) hp)
  exact h

theorem State.beginPosted_frame {P : Part → Prop} {s0 s : State} (h : Frame P s0 s) (a_p : Sys2Proof.Machine.PostReq) (hp : Sub 2251799813685248 P) :
    Frame P s0 (State.beginPosted s a_p) := by
  unfold State.beginPosted
  refine State.setXbr_frame ?_ _ (Sub.le (by decide) hp)
  exact h

theorem State.finishPosted_frame {P : Part → Prop} {s0 s : State} (h : Frame P s0 s) (a_p : Sys2Proof.Machine.PostReq) (a_status : ℕ) (hp : Sub 5387518687265955996281478523138 P) :
    Frame P s0 (State.finishPosted s a_p a_status) := by
  unfold State.finishPosted
  extract_lets -merge -useContext -underBinder +onlyGivenNames x0
  have h0 : Frame P s0 x0 := by
    unfold x0
    refine State.dropPosted_frame ?_ _ (Sub.le (by decide) hp)
    exact h
  refine Frame.ite (fun _ => ?_) (fun _ => ?_)
  · exact h0
  · refine State.postedFailed_frame ?_ _ _ (Sub.le (by decide) hp)
    exact h0

theorem State.executePosted_frame {P : Part → Prop} {s0 s : State} (_ : Frame P s0 s) (a_p : Sys2Proof.Machine.PostReq) (a_ecc : Sys2Proof.ReadEcc) (hp : Sub 40564819207303340847894502572031 P) :
    Frame P s0 (State.executePosted s a_p a_ecc) := Frame.all hp

theorem execPostedWriteExecute_frame {P : Part → Prop} {s0 s : State} (h : Frame P s0 s) (ecc : ReadEcc) (hp : Sub 40564819207303340847894502572031 P) :
    AnswersIn P s0 (execPostedWriteExecute ecc s) := by
  refine ⟨_, rfl, ?_⟩
  split
  · exact h
  · refine Frame.ite (fun _ => State.finishPosted_frame h _ _ (Sub.le (by decide) hp)) (fun _ => ?_)
    split
    · rename_i e
      exact State.beginPosted_frame (State.frameWaits_frame h e (fun _ => State.tileWake_frame h _ (Sub.le (by decide) hp))
        (fun _ => State.indQueue_frame h _ _ _ (Sub.le (by decide) hp))) _ (Sub.le (by decide) hp)
    · exact State.executePosted_frame h _ _ (Sub.le (by decide) hp)

theorem execMessageExecute_frame {P : Part → Prop} {s0 s : State} (h : Frame P s0 s)  (hp : Sub 5387518687265955996281478523138 P) :
    AnswersIn P s0 (execMessageExecute s) := by
  refine ⟨_, rfl, ?_⟩
  split
  · exact h
  · extract_lets -merge -useContext -underBinder +onlyGivenNames x2
    extract_lets -merge -useContext -underBinder +onlyGivenNames x3
    have h3 : Frame P s0 x3 := by
      unfold x3
      refine State.dropPosted_frame ?_ _ (Sub.le (by decide) hp)
      exact h
    refine Frame.ite (fun _ => ?_) (fun _ => ?_)
    · refine State.postedFailed_frame ?_ _ _ (Sub.le (by decide) hp)
      exact h3
    · refine Frame.ite (fun _ => ?_) (fun _ => ?_)
      · refine State.postedFailed_frame ?_ _ _ (Sub.le (by decide) hp)
        refine State.bump_frame ?_ _ (Reg.xbrCntMsgDrop_in (hp .regXbr rfl)) (Sub.le (by decide) hp)
        exact h3
      · extract_lets -merge -useContext -underBinder +onlyGivenNames x4
        refine State.raise_frame ?_ _ _ (Sub.le (by decide) hp)
        refine State.setXbr_frame ?_ _ (Sub.le (by decide) hp)
        exact h3

theorem execDiscardReceive_frame {P : Part → Prop} {s0 s : State} (h : Frame P s0 s)  (hp : Sub 5387518687302849484428897626370 P) :
    AnswersIn P s0 (execDiscardReceive s) := by
  refine ⟨_, rfl, ?_⟩
  split
  · exact h
  · extract_lets -merge -useContext -underBinder +onlyGivenNames x2
    extract_lets -merge -useContext -underBinder +onlyGivenNames x3
    have h3 : Frame P s0 x3 := by
      unfold x3
      refine State.dropPosted_frame ?_ _ (Sub.le (by decide) hp)
      exact h
    refine Frame.ite (fun _ => ?_) (fun _ => ?_)
    · refine State.postedFailed_frame ?_ _ _ (Sub.le (by decide) hp)
      exact h3
    · extract_lets -merge -useContext -underBinder +onlyGivenNames x4
      split
      · refine State.bump_frame ?_ _ (Reg.xbrCntDiscardMiss_in (hp .regXbr rfl)) (Sub.le (by decide) hp)
        exact h3
      · refine Frame.ite (fun _ => ?_) (fun _ => ?_)
        · extract_lets -merge -useContext -underBinder +onlyGivenNames x7
          have h7 : Frame P s0 x7.2 := by
            unfold x7
            refine State.fresh_frame ?_  (Sub.le (by decide) hp)
            exact h3
          refine State.strand_frame ?_ _ _ (Sub.le (by decide) hp)
          exact h7
        · exact h3

theorem State.stallEnds_frame {P : Part → Prop} {s0 s : State} (_ : Frame P s0 s) (a_x : Sys2Proof.Machine.Stall) (hp : Sub 40564819207303340847894502572031 P) :
    Frame P s0 (State.stallEnds s a_x) := Frame.all hp

theorem execTileClockLock_frame {P : Part → Prop} {s0 s : State} (_ : Frame P s0 s) (a_t : Fin 8) (hp : Sub 40564819207303340847894502572031 P) :
    AnswersIn P s0 (execTileClockLock a_t s) := ⟨_, rfl, Frame.all hp⟩

theorem State.indCarryOut_frame {P : Part → Prop} {s0 s : State} (_ : Frame P s0 s) (a_page : ℕ) (a_x : Sys2Proof.Machine.IndAccess) (hp : Sub 40564819207303340847894502572031 P) :
    Frame P s0 (State.indCarryOut s a_page a_x) := Frame.all hp

theorem execIndAccessComplete_frame {P : Part → Prop} {s0 s : State} (_ : Frame P s0 s) (a_page : Fin 256) (hp : Sub 40564819207303340847894502572031 P) :
    AnswersIn P s0 (execIndAccessComplete a_page s) := ⟨_, rfl, Frame.all hp⟩

theorem State.indAbort_frame {P : Part → Prop} {s0 s : State} (h : Frame P s0 s) (a_page : ℕ) (a_who : Sys2Proof.Machine.AccWho) (hp : Sub 5387518688455789003434254084354 P) :
    Frame P s0 (State.indAbort s a_page a_who) := by
  unfold State.indAbort
  extract_lets -merge -useContext -underBinder +onlyGivenNames x0
  have h0 : Frame P s0 x0 := by
    unfold x0
    refine State.setFld_frame ?_ _ _ _ _ (Reg.indAddr_in _ (hp .regInd rfl)) (Sub.le (by decide) hp)
    exact h
  split
  · refine State.localAnswer_frame ?_ _ _ _ _ (Sub.le (by decide) hp)
    exact h0
  · split
    · refine State.completeRequest_frame ?_ _ _ _ (Sub.le (by decide) hp)
      exact h0
    · exact h0
  · split
    · refine State.finishPosted_frame ?_ _ _ (Sub.le (by decide) hp)
      exact h0
    · exact h0

theorem execIndTimeout_frame {P : Part → Prop} {s0 s : State} (h : Frame P s0 s) (a_a : Sys2Proof.Agent) (a_page : Fin 256) (hp : Sub 5387518688455789003434254084362 P) :
    AnswersIn P s0 (execIndTimeout a_a a_page s) := by
  refine ⟨_, rfl, ?_⟩
  extract_lets -merge -useContext -underBinder +onlyGivenNames x0
  split
  · refine Frame.ite (fun _ => ?_) (fun _ => ?_)
    · refine State.indAbort_frame ?_ _ _ (Sub.le (by decide) hp)
      refine State.setWaiting_frame ?_ _ _ (Sub.le (by decide) hp)
      exact h
    · exact h
  · refine Frame.ite (fun _ => ?_) (fun _ => ?_)
    · refine State.indAbort_frame ?_ _ _ (Sub.le (by decide) hp)
      exact h
    · exact h

theorem State.hostReg_frame {P : Part → Prop} {s0 s : State} (h : Frame P s0 s) {page off : Nat} {b : Block} {i : Nat} (v : Word)
    (hb : pageBlock page = some (b, i)) (hs : stewardOwned b = true → Agent.host = .steward) (ho : off < 0x1000) (h4 : off % 4 = 0)
    (h8 : off ≠ 0x800) (hw : Frame P s0 (s.pageWrite .host page off v)) (hp : Sub 633825300123338072785207427088 P) : Frame P s0 (s.agentReg .host page off v) := by
  rw [s.agentReg_page v hb hs ho h4 h8]
  refine Frame.ite (fun _ => ?_) (fun _ => Frame.set_reply h (hp .reply rfl) _)
  split
  · exact State.stall_frame h _ _ (Sub.le (by decide) hp)
  · exact Frame.set_reply hw (hp .reply rfl) _

theorem State.chReg_frame {P : Part → Prop} {s0 s : State} (h : Frame P s0 s) {c off : Nat} (v : Word) (hc : c < 64) (h1 : 0x050 ≤ off)
    (h2 : off < 0x800) (h3 : cntClrOff .ch ≠ some off) (h4 : off % 4 = 0) (hp : Sub 633825300123338072785207427088 P)
    (hw : Frame P s0 (s.tileWake (c / 8)) → Frame P s0 ((s.tileWake (c / 8)).chWrite c off v)) : Frame P s0 (s.chReg c off v) := by
  refine State.hostReg_frame h v (pageBlock_ch hc) (fun e => nomatch e) (by omega) h4 (by omega) ?_ (Sub.le (by decide) hp)
  rw [s.pageWrite_ch .host v hc h1 h2 h3]
  exact hw (State.tileWake_frame h _ (Sub.le (by decide) hp))

/-- A register of a channel, written by any agent: a core's access may fail. -/
theorem State.chWord_frame {P : Part → Prop} {s0 s : State} (h : Frame P s0 s) {a : Sys2Proof.Agent} {c off : Nat} (v : Word) (hc : c < 64)
    (h1 : 0x050 ≤ off) (h2 : off < 0x800) (h3 : cntClrOff .ch ≠ some off) (h4 : off % 4 = 0) (hp : Sub 633825300123356087183716909072 P)
    (hw : Frame P s0 (s.tileWake (c / 8)) → Frame P s0 ((s.tileWake (c / 8)).chWrite c off v)) :
    Frame P s0 (s.agentReg a (0x80 + c) off v) := by
  rw [s.agentReg_page v (pageBlock_ch hc) (fun e => nomatch e) (by omega) h4 (by omega), s.pageWrite_ch a v hc h1 h2 h3]
  refine Frame.ite (fun _ => ?_) (fun _ => State.localAnswer_frame h _ _ _ _ (Sub.le (by decide) hp))
  split
  · exact State.stall_frame h _ _ (Sub.le (by decide) hp)
  · exact Frame.set_reply (hw (State.tileWake_frame h _ (Sub.le (by decide) hp))) (hp .reply rfl) _

theorem State.tileReg_frame {P : Part → Prop} {s0 s : State} (h : Frame P s0 s) {t off : Nat} (v : Word) (ht : t < 8) (h1 : 0x050 ≤ off)
    (h2 : off < 0x800) (h4 : off % 4 = 0) (hp : Sub 633825300123338072785207427088 P)
    (hw : Frame P s0 (s.tileWake t) → Frame P s0 ((s.tileWake t).tileWrite t off v)) : Frame P s0 (s.tileReg t off v) := by
  refine State.hostReg_frame h v (pageBlock_tile ht) (fun e => nomatch e) (by omega) h4 (by omega) ?_ (Sub.le (by decide) hp)
  rw [s.pageWrite_tile .host v ht h1 h2]
  exact hw (State.tileWake_frame h _ (Sub.le (by decide) hp))

theorem execStampDataRead_frame {P : Part → Prop} {s0 s : State} (h : Frame P s0 s) (a_t : Fin 8) (hp : Sub 633891848966213543832241514843 P) :
    AnswersIn P s0 (execStampDataRead a_t s) := by
  refine ⟨_, rfl, ?_⟩
  refine State.agentRead_frame ?_ _ _ _ (Sub.le (by decide) hp)
  exact h

theorem execStampCfgWrite_frame {P : Part → Prop} {s0 s : State} (h : Frame P s0 s) (t : Fin 8) (v : Word) (hp : Sub 633825300123338072785207427088 P) :
    AnswersIn P s0 (execStampCfgWrite t v s) :=
  ⟨_, rfl, State.tileReg_frame h v t.isLt (by decide) (by decide) (by decide) (Sub.le (by decide) hp) (fun k => State.stampCfgWrite_frame k _ _ (Sub.le (by decide) hp))⟩

theorem execStampUnderrunClear_frame {P : Part → Prop} {s0 s : State} (h : Frame P s0 s) (t : Fin 8) (hp : Sub 633825300123338072785207427088 P) :
    AnswersIn P s0 (execStampUnderrunClear t s) :=
  ⟨_, rfl, State.tileReg_frame h _ t.isLt (by decide) (by decide) (by decide) (Sub.le (by decide) hp) (fun k => State.setTile_frame k t (fun y => { y with underrun := false }) (Sub.le (by decide) hp))⟩

theorem execBankCfgWrite_frame {P : Part → Prop} {s0 s : State} (h : Frame P s0 s) (t : Fin 8) (v : Word) (hp : Sub 633825300123338072785207427088 P) :
    AnswersIn P s0 (execBankCfgWrite t v s) :=
  ⟨_, rfl, State.tileReg_frame h v t.isLt (by decide) (by decide) (by decide) (Sub.le (by decide) hp) (fun k => State.bankCfgWrite_frame k _ _ (Sub.le (by decide) hp))⟩

theorem execGrpStart_frame {P : Part → Prop} {s0 s : State} (h : Frame P s0 s) (hp : Sub 633825300123338143153951604752 P) : AnswersIn P s0 (execGrpStart s) := by
  refine ⟨_, rfl, ?_⟩
  extract_lets t
  have ht : t < 8 := by
    unfold t
    cases e : (upFrom 0 8).find? fun t => decide ((s.tile t).clk = .running) with
    | none => decide
    | some x => have := mem_upFrom (List.mem_of_find?_eq_some e); simpa using this
  exact State.tileReg_frame h _ ht (by decide) (by decide) (by decide) (Sub.le (by decide) hp) (fun k => State.grpStart_frame k (Sub.le (by decide) hp))

theorem execFuncWrite_frame {P : Part → Prop} {s0 s : State} (h : Frame P s0 s) (c : Fin 64) (v : Word) (hp : Sub 633826566381639394403575605522 P) :
    AnswersIn P s0 (execFuncWrite c v s) :=
  ⟨_, rfl, State.chReg_frame h v c.isLt (by decide) (by decide) (by decide) (by decide) (Sub.le (by decide) hp) (fun k => Frame.foldl (State.funcWrite_frame k _ _ (Sub.le (by decide) hp)) (fun y a hy => State.canStart_frame hy _ (Sub.le (by decide) hp)))⟩

theorem execOutSet_frame {P : Part → Prop} {s0 s : State} (h : Frame P s0 s) (c : Fin 64) (v : Word) (hp : Sub 634213403164153208002389420306 P) :
    AnswersIn P s0 (execOutSet c v s) :=
  ⟨_, rfl, State.chReg_frame h v c.isLt (by decide) (by decide) (by decide) (by decide) (Sub.le (by decide) hp) (fun k => State.outWrite_frame k _ _ _ (Sub.le (by decide) hp))⟩

theorem execOutClr_frame {P : Part → Prop} {s0 s : State} (h : Frame P s0 s) (c : Fin 64) (v : Word) (hp : Sub 634213403164153208002389420306 P) :
    AnswersIn P s0 (execOutClr c v s) :=
  ⟨_, rfl, State.chReg_frame h v c.isLt (by decide) (by decide) (by decide) (by decide) (Sub.le (by decide) hp) (fun k => State.outWrite_frame k _ _ _ (Sub.le (by decide) hp))⟩

theorem execSafeEnter_frame {P : Part → Prop} {s0 s : State} (h : Frame P s0 s) (c : Fin 64) (v : Word) (hp : Sub 633825300123338072785207951376 P) :
    AnswersIn P s0 (execSafeEnter c v s) :=
  ⟨_, rfl, State.chReg_frame h _ c.isLt (by decide) (by decide) (by decide) (by decide) (Sub.le (by decide) hp) (fun k => State.safeCmd_frame k _ _ (Sub.le (by decide) hp))⟩

theorem execSafeRelease_frame {P : Part → Prop} {s0 s : State} (h : Frame P s0 s) (c : Fin 64) (v : Word) (hp : Sub 633825300123338072785207951376 P) :
    AnswersIn P s0 (execSafeRelease c v s) :=
  ⟨_, rfl, State.chReg_frame h _ c.isLt (by decide) (by decide) (by decide) (by decide) (Sub.le (by decide) hp) (fun k => State.safeCmd_frame k _ _ (Sub.le (by decide) hp))⟩

theorem execCtrCapture_frame {P : Part → Prop} {s0 s : State} (h : Frame P s0 s) (c : Fin 64) (hp : Sub 633826565791342458144988539218 P) :
    AnswersIn P s0 (execCtrCapture c s) :=
  ⟨_, rfl, State.chReg_frame h _ c.isLt (by decide) (by decide) (by decide) (by decide) (Sub.le (by decide) hp) (fun k => State.ctrCmd_frame k c 2 (Sub.le (by decide) hp))⟩

theorem execCtrZero_frame {P : Part → Prop} {s0 s : State} (h : Frame P s0 s) (c : Fin 64) (hp : Sub 633825337902269935742369136656 P) :
    AnswersIn P s0 (execCtrZero c s) :=
  ⟨_, rfl, State.chReg_frame h _ c.isLt (by decide) (by decide) (by decide) (by decide) (Sub.le (by decide) hp) (fun k => State.wr_frame k _ _ (Reg.chCtrCount_in _ (hp .regCh rfl)) (Sub.le (by decide) hp))⟩

theorem execRxDataRead_frame {P : Part → Prop} {s0 s : State} (h : Frame P s0 s) (a_u : Fin 80) (hp : Sub 633891848966213543832241514843 P) :
    AnswersIn P s0 (execRxDataRead a_u s) := by
  refine ⟨_, rfl, ?_⟩
  refine State.agentRead_frame ?_ _ _ _ (Sub.le (by decide) hp)
  exact h

theorem execRxDropRest_frame {P : Part → Prop} {s0 s : State} (h : Frame P s0 s) (u : Fin 80) (hp : Sub 633825356865522843515805179922 P) :
    AnswersIn P s0 (execRxDropRest u s) := by
  have hu := u.isLt
  refine ⟨_, rfl, ?_⟩
  unfold rxUnitPage rxUnitCmd
  split
  · exact State.chReg_frame h _ ‹_› (by decide) (by decide) (by decide) (by decide) (Sub.le (by decide) hp) (fun k => State.fifoDropRest_frame k _ (Sub.le (by decide) hp))
  · refine State.hostReg_frame h _ (pageBlock_can (n := u - 64) (by omega)) (fun e => nomatch e) (by decide) (by decide) (by decide) ?_ (Sub.le (by decide) hp)
    rw [s.pageWrite_can .host _ (by omega) (by decide) (by decide) (by decide)]
    exact State.fifoDropRest_frame h _ (Sub.le (by decide) hp)

theorem execRxFlush_frame {P : Part → Prop} {s0 s : State} (h : Frame P s0 s) (u : Fin 80) (hp : Sub 633825356865522843515805179922 P) :
    AnswersIn P s0 (execRxFlush u s) := by
  have hu := u.isLt
  refine ⟨_, rfl, ?_⟩
  unfold rxUnitPage rxUnitCmd
  split
  · exact State.chReg_frame h _ ‹_› (by decide) (by decide) (by decide) (by decide) (Sub.le (by decide) hp) (fun k => State.fifoFlush_frame k _ (Sub.le (by decide) hp))
  · refine State.hostReg_frame h _ (pageBlock_can (n := u - 64) (by omega)) (fun e => nomatch e) (by decide) (by decide) (by decide) ?_ (Sub.le (by decide) hp)
    rw [s.pageWrite_can .host _ (by omega) (by decide) (by decide) (by decide)]
    exact State.fifoFlush_frame h _ (Sub.le (by decide) hp)

theorem execRxUnderClr_frame {P : Part → Prop} {s0 s : State} (h : Frame P s0 s) (u : Fin 80) (hp : Sub 633825300123338072785224204304 P) :
    AnswersIn P s0 (execRxUnderClr u s) := by
  have hu := u.isLt
  refine ⟨_, rfl, ?_⟩
  unfold rxUnitPage rxUnitCmd
  split
  · exact State.chReg_frame h _ ‹_› (by decide) (by decide) (by decide) (by decide) (Sub.le (by decide) hp) (fun k => State.setFifo_frame k (rxFifo u) (fun f => { f with underrun := false }) (Sub.le (by decide) hp))
  · refine State.hostReg_frame h _ (pageBlock_can (n := u - 64) (by omega)) (fun e => nomatch e) (by decide) (by decide) (by decide) ?_ (Sub.le (by decide) hp)
    rw [s.pageWrite_can .host _ (by omega) (by decide) (by decide) (by decide)]
    exact State.setFifo_frame h (canRxFifo (u - 64)) (fun f => { f with underrun := false }) (Sub.le (by decide) hp)

theorem execTxDataWrite_frame {P : Part → Prop} {s0 s : State} (h : Frame P s0 s) (c : Fin 64) (w : Word) (hp : Sub 633826565791343021094933571922 P) :
    AnswersIn P s0 (execTxDataWrite c w s) :=
  ⟨_, rfl, State.chReg_frame h w c.isLt (by decide) (by decide) (by decide) (by decide) (Sub.le (by decide) hp) (fun k => State.chTxWrite_frame k _ _ (Sub.le (by decide) hp))⟩

theorem execTxDropRest_frame {P : Part → Prop} {s0 s : State} (h : Frame P s0 s) (c : Fin 64) (hp : Sub 633825356865522843515805179922 P) :
    AnswersIn P s0 (execTxDropRest c s) :=
  ⟨_, rfl, State.chReg_frame h _ c.isLt (by decide) (by decide) (by decide) (by decide) (Sub.le (by decide) hp) (fun k => State.fifoDropRest_frame k _ (Sub.le (by decide) hp))⟩

theorem execTxFlush_frame {P : Part → Prop} {s0 s : State} (h : Frame P s0 s) (c : Fin 64) (hp : Sub 633825356865522843515805179922 P) :
    AnswersIn P s0 (execTxFlush c s) :=
  ⟨_, rfl, State.chReg_frame h _ c.isLt (by decide) (by decide) (by decide) (by decide) (Sub.le (by decide) hp) (fun k => State.fifoFlush_frame k _ (Sub.le (by decide) hp))⟩

theorem execTxUnderClr_frame {P : Part → Prop} {s0 s : State} (h : Frame P s0 s) (c : Fin 64) (hp : Sub 633825300123338072785224204304 P) :
    AnswersIn P s0 (execTxUnderClr c s) :=
  ⟨_, rfl, State.chReg_frame h _ c.isLt (by decide) (by decide) (by decide) (by decide) (Sub.le (by decide) hp) (fun k => State.setFifo_frame k (txFifo c) (fun f => { f with underrun := false }) (Sub.le (by decide) hp))⟩

theorem execI2cBusClear_frame {P : Part → Prop} {s0 s : State} (h : Frame P s0 s) (c : Fin 64) (hp : Sub 633825300123338635735160848400 P) :
    AnswersIn P s0 (execI2cBusClear c s) :=
  ⟨_, rfl, State.chReg_frame h _ c.isLt (by decide) (by decide) (by decide) (by decide) (Sub.le (by decide) hp) (fun k => State.i2cBusClear_frame k _ (Sub.le (by decide) hp))⟩

theorem execEngStart_frame {P : Part → Prop} {s0 s : State} (h : Frame P s0 s) (c : Fin 64) (hp : Sub 633825300123338143153951604752 P) :
    AnswersIn P s0 (execEngStart c s) :=
  ⟨_, rfl, State.chReg_frame h _ c.isLt (by decide) (by decide) (by decide) (by decide) (Sub.le (by decide) hp) (fun k => State.engStart_frame k _ (Sub.le (by decide) hp))⟩

theorem execEngHalt_frame {P : Part → Prop} {s0 s : State} (h : Frame P s0 s) (c : Fin 64) (hp : Sub 633826509122944698893592635666 P) :
    AnswersIn P s0 (execEngHalt c s) :=
  ⟨_, rfl, State.chReg_frame h _ c.isLt (by decide) (by decide) (by decide) (by decide) (Sub.le (by decide) hp) (fun k => State.engHalt_frame k _ _ _ _ (Sub.le (by decide) hp))⟩

theorem execEngineReset_frame {P : Part → Prop} {s0 s : State} (h : Frame P s0 s) (c : Fin 64) (hp : Sub 633825300123338107969579515920 P) :
    AnswersIn P s0 (execEngineReset c s) :=
  ⟨_, rfl, State.chReg_frame h _ c.isLt (by decide) (by decide) (by decide) (by decide) (Sub.le (by decide) hp) (fun k => State.engReset_frame k _ (Sub.le (by decide) hp))⟩

theorem execCommitAtWrap_frame {P : Part → Prop} {s0 s : State} (h : Frame P s0 s) (c : Fin 64) (hp : Sub 633826546901876561850754345234 P) :
    AnswersIn P s0 (execCommitAtWrap c s) :=
  ⟨_, rfl, State.chReg_frame h _ c.isLt (by decide) (by decide) (by decide) (by decide) (Sub.le (by decide) hp) (fun k => State.engCommit_frame k _ _ (Sub.le (by decide) hp))⟩

theorem execCommitImmediate_frame {P : Part → Prop} {s0 s : State} (h : Frame P s0 s) (c : Fin 64) (a : Sys2Proof.Agent) (hp : Sub 633826546901894576249263827218 P) :
    AnswersIn P s0 (execCommitImmediate c a s) :=
  ⟨_, rfl, State.chWord_frame h _ c.isLt (by decide) (by decide) (by decide) (by decide) (Sub.le (by decide) hp) (fun k => State.engCommit_frame k _ _ (Sub.le (by decide) hp))⟩

theorem execCancelCommit_frame {P : Part → Prop} {s0 s : State} (h : Frame P s0 s) (c : Fin 64) (hp : Sub 633826509122944698893592635666 P) :
    AnswersIn P s0 (execCancelCommit c s) :=
  ⟨_, rfl, State.chReg_frame h _ c.isLt (by decide) (by decide) (by decide) (by decide) (Sub.le (by decide) hp) (fun k => State.engCancel_frame k _ (Sub.le (by decide) hp))⟩

theorem execCopyActive_frame {P : Part → Prop} {s0 s : State} (h : Frame P s0 s) (c : Fin 64) (hp : Sub 633825300123338107969579515920 P) :
    AnswersIn P s0 (execCopyActive c s) :=
  ⟨_, rfl, State.chReg_frame h _ c.isLt (by decide) (by decide) (by decide) (by decide) (Sub.le (by decide) hp) (fun k => State.engCopy_frame k _ (Sub.le (by decide) hp))⟩

theorem execEngSegWrite_frame {P : Part → Prop} {s0 s : State} (h : Frame P s0 s) (c : Fin 64) (v : Word) (hp : Sub 633825337902269970926741225488 P) :
    AnswersIn P s0 (execEngSegWrite c v s) :=
  ⟨_, rfl, State.chReg_frame h v c.isLt (by decide) (by decide) (by decide) (by decide) (Sub.le (by decide) hp) (fun k => State.engSegWrite_frame k _ _ (Sub.le (by decide) hp))⟩

theorem execProgDataWrite_frame {P : Part → Prop} {s0 s : State} (h : Frame P s0 s) (c : Fin 64) (v : Word) (hp : Sub 633825337902269935742369398800 P) :
    AnswersIn P s0 (execProgDataWrite c v s) :=
  ⟨_, rfl, State.chReg_frame h v c.isLt (by decide) (by decide) (by decide) (by decide) (Sub.le (by decide) hp) (fun k => State.engProgWrite_frame k _ _ (Sub.le (by decide) hp))⟩

theorem execEngFlagSet_frame {P : Part → Prop} {s0 s : State} (h : Frame P s0 s) (c : Fin 64) (v : Word) (hp : Sub 633825300123338107969579515920 P) :
    AnswersIn P s0 (execEngFlagSet c v s) :=
  ⟨_, rfl, State.chReg_frame h v c.isLt (by decide) (by decide) (by decide) (by decide) (Sub.le (by decide) hp) (fun k => State.engFlagSet_frame k _ _ (Sub.le (by decide) hp))⟩

theorem execEngFlagClr_frame {P : Part → Prop} {s0 s : State} (h : Frame P s0 s) (c : Fin 64) (v setToo : Word) (hp : Sub 633825300123338107969579515920 P) :
    AnswersIn P s0 (execEngFlagClr c v setToo s) := by
  have h1 : Frame P s0 (s.chReg c 0x444 v) :=
    State.chReg_frame h v c.isLt (by decide) (by decide) (by decide) (by decide) (Sub.le (by decide) hp) (fun k => State.engFlagClr_frame k _ _ (Sub.le (by decide) hp))
  exact ⟨_, rfl, State.chReg_frame h1 setToo c.isLt (by decide) (by decide) (by decide) (by decide) (Sub.le (by decide) hp)
    (fun k => State.engFlagSet_frame k _ _ (Sub.le (by decide) hp))⟩

theorem execEngMarkWrite_frame {P : Part → Prop} {s0 s : State} (h : Frame P s0 s) (c : Fin 64) (v : Word) (hp : Sub 633825300123338107969579515920 P) :
    AnswersIn P s0 (execEngMarkWrite c v s) :=
  ⟨_, rfl, State.chReg_frame h v c.isLt (by decide) (by decide) (by decide) (by decide) (Sub.le (by decide) hp) (fun k => State.engMarkWrite_frame k _ _ (Sub.le (by decide) hp))⟩

theorem execEngOsrWrite_frame {P : Part → Prop} {s0 s : State} (h : Frame P s0 s) (c : Fin 64) (v : Word) (hp : Sub 633825300123338107969579515920 P) :
    AnswersIn P s0 (execEngOsrWrite c v s) :=
  ⟨_, rfl, State.chReg_frame h v c.isLt (by decide) (by decide) (by decide) (by decide) (Sub.le (by decide) hp) (fun k => State.engOsrWrite_frame k _ _ (Sub.le (by decide) hp))⟩

theorem State.hubSample_frame {P : Part → Prop} {s0 s : State} (h : Frame P s0 s)  (hp : Sub 2938873327340709272706401118498 P) :
    Frame P s0 (State.hubSample s) := by
  unfold State.hubSample
  extract_lets -merge -useContext -underBinder +onlyGivenNames x0
  have h0 : Frame P s0 x0 := by
    unfold x0
    refine State.pubFlush_frame ?_ _ (Sub.le (by decide) hp)
    exact h
  extract_lets -merge -useContext -underBinder +onlyGivenNames x1
  have h1 : Frame P s0 x1 := by
    unfold x1
    refine Frame.ite (fun _ => ?_) (fun _ => ?_)
    · exact h0
    · refine Frame.foldl ?_ (fun y2 a2 h2 => ?_)
      · exact h0
      · refine State.conflictsTo_frame ?_ _ _ (Sub.le (by decide) hp)
        exact h2
  refine Frame.foldl ?_ (fun y3 a3 h3 => ?_)
  · refine State.tileSample_frame ?_  (Sub.le (by decide) hp)
    refine State.leaseTrack_frame ?_  (Sub.le (by decide) hp)
    exact h1
  · refine State.linkBegin_frame ?_ _ (Sub.le (by decide) hp)
    exact h3

theorem State.tclkEdge_frame {P : Part → Prop} {s0 s : State} (h : Frame P s0 s)  (hp : Sub 4206524532050295225592483359526 P) :
    Frame P s0 (State.tclkEdge s) := by
  unfold State.tclkEdge
  refine Frame.ite (fun _ => ?_) (fun _ => ?_)
  · refine State.hubSample_frame ?_  (Sub.le (by decide) hp)
    refine State.tclkCount_frame ?_  (Sub.le (by decide) hp)
    exact h
  · refine State.tclkCount_frame ?_  (Sub.le (by decide) hp)
    exact h

theorem execTclkEdge_frame {P : Part → Prop} {s0 s : State} (h : Frame P s0 s)  (hp : Sub 4206524532050295225592483359526 P) :
    AnswersIn P s0 (execTclkEdge s) := by
  refine ⟨_, rfl, ?_⟩
  refine Frame.ite (fun _ => ?_) (fun _ => ?_)
  · exact h
  · refine State.tclkEdge_frame ?_  (Sub.le (by decide) hp)
    exact h

theorem execSlewStep_frame {P : Part → Prop} {s0 s : State} (h : Frame P s0 s)  (hp : Sub 4206524532050295225592483359526 P) :
    AnswersIn P s0 (execSlewStep s) := by
  refine ⟨_, rfl, ?_⟩
  refine Frame.ite (fun _ => ?_) (fun _ => ?_)
  · exact h
  · refine State.tclkEdge_frame ?_  (Sub.le (by decide) hp)
    exact h

theorem execXt32Edge_frame {P : Part → Prop} {s0 s : State} (h : Frame P s0 s)  (hp : Sub 633826509132168035746077944578 P) :
    AnswersIn P s0 (execXt32Edge s) := by
  refine ⟨_, rfl, ?_⟩
  refine Frame.ite (fun _ => ?_) (fun _ => ?_)
  · refine State.dormantStamps_frame ?_  (Sub.le (by decide) hp)
    refine State.xt32Advance_frame ?_  (Sub.le (by decide) hp)
    exact h
  · exact h

theorem applyEach_frame {P : Part → Prop} {s0 s : State} (h : Frame P s0 s) (f : State → List Byte → Bool × State) (l : List (List Byte))
    (hf : ∀ y e, Frame P s0 y → Frame P s0 (f y e).2) (hp : Sub 0 P) : Frame P s0 (applyEach f l s).2 := by
  induction l generalizing s with
  | nil => exact h
  | cons e l ih => exact Frame.ite2 (fun _ => ih (hf _ _ h)) (fun _ => hf _ _ h)

theorem State.mailboxNow_frame {P : Part → Prop} {s0 s : State} (h : Frame P s0 s) (a_page : Fin 256) (a_op : ℕ) (a_arg : ℕ) (a_d : List Sys2Proof.Word) (hp : Sub 2954270774039935878377570511782 P) :
    Frame P s0 (State.mailboxNow s a_page a_op a_arg a_d).2 := by
  unfold State.mailboxNow
  extract_lets -merge -useContext -underBinder +onlyGivenNames x0
  extract_lets -merge -useContext -underBinder +onlyGivenNames x1
  have h1 : Frame P s0 x1 := by
    unfold x1
    refine after_frame (execMbxComplete_frame ?_ _ (Sub.le (by decide) hp)) ?_
    · exact h
    · exact h
  extract_lets -merge -useContext -underBinder +onlyGivenNames x2
  have h2 : Frame P s0 x2 := by
    unfold x2
    refine Frame.foldl ?_ (fun y3 a3 h3 => ?_)
    · exact h1
    · refine State.wr_frame ?_ _ _ (Reg.mbxD_in _ _ (by omega) (hp .regMbx rfl)) (Sub.le (by decide) hp)
      exact h3
  extract_lets -merge -useContext -underBinder +onlyGivenNames x4
  have h4 : Frame P s0 x4 := by
    unfold x4
    refine State.mbxWrite_frame ?_ _ _ _ (Sub.le (by decide) hp)
    exact h2
  extract_lets -merge -useContext -underBinder +onlyGivenNames x5
  have h5 : Frame P s0 x5 := by
    unfold x5
    refine after_frame (execMbxComplete_frame ?_ _ (Sub.le (by decide) hp)) ?_
    · exact h4
    · exact h4
  refine Frame.pair2 ?_
  exact h5

theorem State.mailboxAll_frame {P : Part → Prop} {s0 s : State} (h : Frame P s0 s) (page : Fin 256) (arg : Nat) (l : List (Nat × List Word))
    (hp : Sub 2954270774039935878377570511782 P) : Frame P s0 (s.mailboxAll page arg l).2 := by
  induction l generalizing s with
  | nil => exact h
  | cons c l ih =>
    have k := State.mailboxNow_frame h page c.1 arg c.2 (Sub.le (by decide) hp)
    exact Frame.ite2 (fun _ => ih k) (fun _ => k)

theorem State.noteArm_frame {P : Part → Prop} {s0 s : State} (h : Frame P s0 s) (a_page : ℕ) (a_n : ℕ) (a_arm : Bool) (hp : Sub 288230376151711744 P) :
    Frame P s0 (State.noteArm s a_page a_n a_arm) := by
  unfold State.noteArm
  refine Frame.ite (fun _ => ?_) (fun _ => ?_)
  · refine State.setBoot_frame ?_ _ (Sub.le (by decide) hp)
    exact h
  · exact h

theorem State.loadEntry_frame {P : Part → Prop} {s0 s : State} (h : Frame P s0 s) (a_page : Fin 256) (a_width : ℕ) (a_cmds : List Sys2Proof.Byte → List (ℕ × List Sys2Proof.Word)) (a_e : List Sys2Proof.Byte) (hp : Sub 2954270774040224108753722223526 P) :
    Frame P s0 (State.loadEntry s a_page a_width a_cmds a_e).2 := by
  unfold State.loadEntry
  extract_lets -merge -useContext -underBinder +onlyGivenNames x0
  extract_lets -merge -useContext -underBinder +onlyGivenNames x1
  extract_lets -merge -useContext -underBinder +onlyGivenNames x2
  have h2 : Frame P s0 x2.2 := by
    unfold x2
    refine State.mailboxAll_frame ?_ _ _ _ (Sub.le (by decide) hp)
    exact h
  refine Frame.ite2 (fun _ => ?_) (fun _ => ?_)
  · refine Frame.pair2 ?_
    refine State.noteArm_frame ?_ _ _ _ (Sub.le (by decide) hp)
    exact h2
  · exact h2

theorem State.applyPair_frame {P : Part → Prop} {s0 s : State} (_ : Frame P s0 s) (a_e : List Sys2Proof.Byte) (hp : Sub 40564819207303340847894502572031 P) :
    Frame P s0 (State.applyPair s a_e).2 := Frame.all hp

theorem State.putProgram_frame {P : Part → Prop} {s0 s : State} (h : Frame P s0 s) (t i : Nat) (l : List (List Byte)) (hp : Sub 262144 P) :
    Frame P s0 (s.putProgram t i l) := by
  induction l generalizing s i with
  | nil => exact h
  | cons w l ih =>
    refine ih ?_ (i + 1)
    split
    · exact State.sramSet_frame h _ _ (Sub.le (by decide) hp)
    · exact h

theorem State.stwPut_frame {P : Part → Prop} {s0 s : State} (h : Frame P s0 s) (i : Nat) (l : List Byte) (hp : Sub 72057594037927936 P) :
    Frame P s0 (s.stwPut i l) := by
  induction l generalizing s i with
  | nil => exact h
  | cons b l ih => exact ih (Frame.set_stwSram h (hp .stwSram rfl) _) (i + 1)

theorem State.applyRec_frame {P : Part → Prop} {s0 s : State} (_ : Frame P s0 s) (a_r : Sys2Proof.Machine.LoadRec) (hp : Sub 40564819207303340847894502572031 P) :
    Frame P s0 (State.applyRec s a_r).2 := Frame.all hp

theorem State.applyImage_frame {P : Part → Prop} {s0 s : State} (h : Frame P s0 s) (kind count : Nat) (ours : LoadRec → Bool) (i : Nat)
    (l : List LoadRec) (hp : Sub 40564819207303340847894502572031 P) : Frame P s0 (s.applyImage kind count ours i l).2 := by
  induction l generalizing s i with
  | nil => exact h
  | cons r l ih =>
    have k : Frame P s0 (if recTypeOk kind r.ty then s.applyRec r else (false, s)).2 :=
      Frame.ite2 (fun _ => State.applyRec_frame h r (Sub.le (by decide) hp)) (fun _ => h)
    exact Frame.ite2 (fun _ => ih h (i + 1)) (fun _ => Frame.ite2 (fun _ => ih k (i + 1)) (fun _ => k))

theorem State.applySettings_frame {P : Part → Prop} {s0 s : State} (h : Frame P s0 s) (area i : Nat) (l : List LoadRec) (hp : Sub 40564819207303340847894502572031 P) :
    Frame P s0 (s.applySettings area i l) := by
  induction l generalizing s i with
  | nil => exact h
  | cons r l ih =>
    have ha : Frame P s0 (if !recTypeOk 2 r.ty then (false, s) else if recOld s.fieldTable r then (true, s) else s.applyRec r).2 :=
      Frame.ite2 (fun _ => h) (fun _ => Frame.ite2 (fun _ => h) (fun _ => State.applyRec_frame h r (Sub.le (by decide) hp)))
    exact ih (Frame.ite (fun _ => ha) (fun _ => State.slotBad_frame ha _ _ _ _ (Sub.le (by decide) hp))) (i + 1)

theorem State.trialStep_frame {P : Part → Prop} {s0 s : State} (_ : Frame P s0 s) (a_kind : ℕ) (hp : Sub 40564819207303340847894502572031 P) :
    Frame P s0 (State.trialStep s a_kind).2 := Frame.all hp

theorem State.loadSlot_frame {P : Part → Prop} {s0 s : State} (_ : Frame P s0 s) (a_kind : ℕ) (a_slot : ℕ) (a_ours : Sys2Proof.Machine.LoadRec → Bool) (hp : Sub 40564819207303340847894502572031 P) :
    Frame P s0 (State.loadSlot s a_kind a_slot a_ours).2 := Frame.all hp

theorem State.loadImage_frame {P : Part → Prop} {s0 s : State} (_ : Frame P s0 s) (a_kind : ℕ) (a_ours : Sys2Proof.Machine.LoadRec → Bool) (hp : Sub 40564819207303340847894502572031 P) :
    Frame P s0 (State.loadImage s a_kind a_ours).2 := Frame.all hp

theorem State.loadSettings_frame {P : Part → Prop} {s0 s : State} (_ : Frame P s0 s) (a_im : Sys2Proof.Machine.Image) (hp : Sub 40564819207303340847894502572031 P) :
    Frame P s0 (State.loadSettings s a_im).2 := Frame.all hp

theorem State.armPage_frame {P : Part → Prop} {s0 s : State} (h : Frame P s0 s) (a_page : Fin 256) (hp : Sub 2954270774039935878377570511782 P) :
    Frame P s0 (State.armPage s a_page) := by
  unfold State.armPage
  extract_lets -merge -useContext -underBinder +onlyGivenNames x0
  extract_lets -merge -useContext -underBinder +onlyGivenNames x1
  refine Frame.foldl ?_ (fun y2 a2 h2 => ?_)
  · exact h
  · refine State.mailboxNow_frame ?_ _ _ _ _ (Sub.le (by decide) hp)
    exact h2

theorem State.armAll_frame {P : Part → Prop} {s0 s : State} (h : Frame P s0 s)  (hp : Sub 2954270774040224108753722223526 P) :
    Frame P s0 (State.armAll s) := by
  unfold State.armAll
  refine State.setBoot_frame ?_ _ (Sub.le (by decide) hp)
  refine State.armPage_frame ?_ _ (Sub.le (by decide) hp)
  refine State.armPage_frame ?_ _ (Sub.le (by decide) hp)
  refine State.armPage_frame ?_ _ (Sub.le (by decide) hp)
  exact h

theorem State.releasePairs_frame {P : Part → Prop} {s0 s : State} (h : Frame P s0 s)  (hp : Sub 158456325028546689585597382656 P) :
    Frame P s0 (State.releasePairs s) := by
  unfold State.releasePairs
  refine Frame.foldl ?_ (fun y0 a0 h0 => ?_)
  · exact h
  · refine Frame.ite (fun _ => ?_) (fun _ => ?_)
    · refine State.pairRun_frame ?_ _ (Sub.le (by decide) hp)
      exact h0
    · exact h0

theorem State.protectFlash_frame {P : Part → Prop} {s0 s : State} (h : Frame P s0 s)  (hp : Sub 154742504910672534362390528 P) :
    Frame P s0 (State.protectFlash s) := by
  unfold State.protectFlash
  extract_lets -merge -useContext -underBinder +onlyGivenNames x0
  extract_lets -merge -useContext -underBinder +onlyGivenNames x1
  extract_lets -merge -useContext -underBinder +onlyGivenNames x2
  extract_lets -merge -useContext -underBinder +onlyGivenNames x3
  have h3 : Frame P s0 x3 := by
    unfold x3
    refine State.wr_frame ?_ _ _ (Reg.ospiProt_in _ (by omega) (hp .regOspi rfl)) (Sub.le (by decide) hp)
    refine State.wr_frame ?_ _ _ (Reg.ospiProt_in _ (by omega) (hp .regOspi rfl)) (Sub.le (by decide) hp)
    exact h
  refine State.wr_frame ?_ _ _ (Reg.ospiProt_in _ (by omega) (hp .regOspi rfl)) (Sub.le (by decide) hp)
  refine State.wr_frame ?_ _ _ (Reg.ospiProt_in _ (by omega) (hp .regOspi rfl)) (Sub.le (by decide) hp)
  exact h3

theorem State.setPhase_frame {P : Part → Prop} {s0 s : State} (h : Frame P s0 s) (a_p : ℕ) (hp : Sub 158456325028528675187087900672 P) :
    Frame P s0 (State.setPhase s a_p) := by
  unfold State.setPhase
  refine State.setFld_frame ?_ _ _ _ _ (Reg.stwStatus_in (hp .regStw rfl)) (Sub.le (by decide) hp)
  exact h

theorem State.finishStart_frame {P : Part → Prop} {s0 s : State} (h : Frame P s0 s)  (hp : Sub 3751504178524642585277485493158 P) :
    Frame P s0 (State.finishStart s) := by
  unfold State.finishStart
  extract_lets -merge -useContext -underBinder +onlyGivenNames x0
  have h0 : Frame P s0 x0 := by
    unfold x0
    refine State.armAll_frame ?_  (Sub.le (by decide) hp)
    exact h
  extract_lets -merge -useContext -underBinder +onlyGivenNames x1
  have h1 : Frame P s0 x1 := by
    unfold x1
    refine Frame.foldl ?_ (fun y2 a2 h2 => ?_)
    · refine Frame.set_stampsHeld ?_ (hp .stampsHeld rfl) _
      exact h0
    · refine Frame.ite (fun _ => ?_) (fun _ => ?_)
      · refine State.tileWake_frame ?_ _ (Sub.le (by decide) hp)
        exact h2
      · exact h2
  extract_lets -merge -useContext -underBinder +onlyGivenNames x3
  have h3 : Frame P s0 x3 := by
    unfold x3
    refine State.releasePairs_frame ?_  (Sub.le (by decide) hp)
    exact h1
  extract_lets -merge -useContext -underBinder +onlyGivenNames x4
  have h4 : Frame P s0 x4 := by
    unfold x4
    refine State.setPhase_frame ?_ _ (Sub.le (by decide) hp)
    refine State.enableWrite_frame ?_ _ _ (Sub.le (by decide) hp)
    exact h3
  refine Frame.ite (fun _ => ?_) (fun _ => ?_)
  · extract_lets -merge -useContext -underBinder +onlyGivenNames x5
    refine State.setBoot_frame ?_ _ (Sub.le (by decide) hp)
    exact h4
  · exact h4

theorem State.readFlash_frame {P : Part → Prop} {s0 s : State} (h : Frame P s0 s) (a_octal : Bool) (hp : Sub 154747817717080950789111808 P) :
    Frame P s0 (State.readFlash s a_octal) := by
  unfold State.readFlash
  extract_lets -merge -useContext -underBinder +onlyGivenNames x0
  have h0 : Frame P s0 x0 := by
    unfold x0
    refine State.wr_frame ?_ _ _ (Reg.ospiClock_in (hp .regOspi rfl)) (Sub.le (by decide) hp)
    refine State.wr_frame ?_ _ _ (Reg.status_in _ (hp .regStatus rfl)) (Sub.le (by decide) hp)
    exact h
  split
  · refine State.bcbWrite_frame ?_ _ (Sub.le (by decide) hp)
    exact h0
  · refine State.bootStatus_frame ?_ _ (Sub.le (by decide) hp)
    exact h0

theorem State.startField_frame {P : Part → Prop} {s0 s : State} (_ : Frame P s0 s)  (hp : Sub 40564819207303340847894502572031 P) :
    Frame P s0 (State.startField s) := Frame.all hp

theorem State.postClkReport_frame {P : Part → Prop} {s0 s : State} (h : Frame P s0 s)  (hp : Sub 1284564387845865977620770 P) :
    Frame P s0 (State.postClkReport s) := by
  unfold State.postClkReport
  split
  · exact h
  · extract_lets -merge -useContext -underBinder +onlyGivenNames x2
    have h2 : Frame P s0 x2 := by
      unfold x2
      refine State.setClk_frame ?_ _ (Sub.le (by decide) hp)
      exact h
    extract_lets -merge -useContext -underBinder +onlyGivenNames x3
    extract_lets -merge -useContext -underBinder +onlyGivenNames x4
    have h4 : Frame P s0 x4 := by
      unfold x4
      refine State.qualFailAt_frame ?_ _ _ _ _ _ _ _ (RegIn.ite (Reg.clkCntPll_in (hp .regClk rfl)) (Reg.clkCntTclk_in (hp .regClk rfl))) (Sub.le (by decide) hp)
      refine State.raise_frame ?_ _ _ (Sub.le (by decide) hp)
      exact h2
    refine State.clkClear_frame ?_ _ _ _ (Sub.le (by decide) hp)
    exact h4

theorem State.startEnds_frame {P : Part → Prop} {s0 s : State} (h : Frame P s0 s)  (hp : Sub 1284564676076242129332514 P) :
    Frame P s0 (State.startEnds s) := by
  unfold State.startEnds
  refine State.postClkReport_frame ?_  (Sub.le (by decide) hp)
  refine State.powDrain_frame ?_  (Sub.le (by decide) hp)
  refine State.bootFlush_frame ?_  (Sub.le (by decide) hp)
  refine State.setBoot_frame ?_ _ (Sub.le (by decide) hp)
  exact h

theorem execNodeStart_frame {P : Part → Prop} {s0 s : State} (_ : Frame P s0 s) (a_octal : Bool) (hp : Sub 40564819207303340847894502572031 P) :
    AnswersIn P s0 (execNodeStart a_octal s) := ⟨_, rfl, Frame.all hp⟩

theorem State.migrateDone_frame {P : Part → Prop} {s0 s : State} (_ : Frame P s0 s)  (hp : Sub 40564819207303340847894502572031 P) :
    Frame P s0 (State.migrateDone s).2 := Frame.all hp

theorem execMigrateDone_frame {P : Part → Prop} {s0 s : State} (_ : Frame P s0 s) (a_slot : Fin 5) (hp : Sub 40564819207303340847894502572031 P) :
    AnswersIn P s0 (execMigrateDone a_slot s) := ⟨_, rfl, Frame.all hp⟩

end Sys2Proof.Machine
end

