-- ==== Sys2Proof/Laws/Irq.lean ====
section
/-! SUPPORT. What a raised interrupt bit and a source made pending come to. -/

namespace Sys2Proof.Machine

theorem State.rd_congr {s t : State} (h : t.regs = s.regs) (k : Nat) : t.rd k = s.rd k := by unfold State.rd; rw [h]
theorem State.msixSend_regs (s : State) (v : Nat) : (s.msixSend v).regs = s.regs := by
  unfold State.msixSend State.sendTlp; dsimp only; split <;> rfl
theorem State.msixSend_icu (s : State) (v : Nat) : (s.msixSend v).icu = s.icu := by
  unfold State.msixSend State.sendTlp; dsimp only; split <;> rfl
theorem State.msixSend_held (s : State) (v : Nat) : (s.msixSend v).heldIrq = s.heldIrq := by
  unfold State.msixSend State.sendTlp; dsimp only; split <;> rfl
theorem State.icuPend_regs (s : State) (v : Nat) : (s.icuPend v).regs = s.regs := by
  unfold State.icuPend State.withHostRequest; dsimp only; split
  · rw [State.msixSend_regs]
  · rfl
theorem State.icuPend_held (s : State) (v : Nat) : (s.icuPend v).heldIrq = s.heldIrq := by
  unfold State.icuPend State.withHostRequest; dsimp only; split
  · rw [State.msixSend_held]
  · rfl
theorem State.icuPend_pend (s : State) (v : Nat) : (s.icuPend v).icu.pend = setAdd s.icu.pend v := by
  unfold State.icuPend State.withHostRequest; dsimp only; split
  · rw [State.msixSend_icu]
  · rfl
theorem setHas_setAdd (l : List Nat) (k : Nat) : setHas (setAdd l k) k = true := by
  induction l with
  | nil => simp [setAdd, setHas]
  | cons j l ih =>
    simp only [setAdd]
    split
    · simp [setHas]
    · split
      · subst_vars; simp [setHas]
      · simp only [setHas, ih]; simp
theorem State.withRequest_request (s : State) (page : Nat) (f : State → State) :
    (s.withRequest page f).request page = (f s).request page := by
  unfold State.withRequest; dsimp only
  generalize f s = u
  split
  · unfold State.request State.heldOf
    rw [State.rd_congr (State.icuPend_regs _ _), State.rd_congr (State.icuPend_regs _ _), State.icuPend_held]
  · rfl

/-- A request that rises makes the page's source pending. -/
theorem State.withRequest_pend (s : State) (page : Nat) (f : State → State) (h : s.request page = false)
    (h' : (f s).request page = true) : setHas (s.withRequest page f).icu.pend (page + 1) = true := by
  unfold State.withRequest; dsimp only
  rw [h, h']
  simp only [Bool.not_false, Bool.and_self, if_true, State.icuPend_pend, setHas_setAdd]

theorem State.withRequest_rd (s : State) (page : Nat) (f : State → State) (k : Nat) :
    (s.withRequest page f).rd k = (f s).rd k := by
  unfold State.withRequest; dsimp only
  split
  · exact State.rd_congr (State.icuPend_regs _ _) k
  · rfl

theorem State.raise_core (s : State) (page b : Nat) :
    (∀ k, (s.raise page b).rd k = (if s.isFrozen page then s else s.wr (Reg.irqPend page) (s.rd (Reg.irqPend page) ||| w32 (2 ^ b))).rd k) ∧
    (s.raise page b).heldIrq = (if s.isFrozen page then Tab.set 0 s.heldIrq page (s.heldOf page ||| w32 (2 ^ b)) else s.heldIrq) := by
  unfold State.raise State.withRequest; dsimp only
  by_cases hf : s.isFrozen page = true <;> simp only [hf, if_true, Bool.false_eq_true, if_false] <;> split <;>
    constructor <;> (try intro k) <;> first | rfl | (rw [State.rd_congr (State.icuPend_regs _ _)]; rfl) | rw [State.rd_congr (State.icuPend_regs _ _)] | (rw [State.icuPend_held]; rfl) | rw [State.icuPend_held]

end Sys2Proof.Machine
end

