-- ==== Sys2Proof/Laws/PageWrites.lean ====
section
/-! SUPPORT. What the common layout of a page comes to: counters cleared, SOFT_RESET, FREEZE and EN. -/

namespace Sys2Proof.Machine

theorem zero_go (l : List Nat) (k j : Nat) (t : Tab Word) :
    Tab.get (regReset j) (l.foldl (fun t i => Tab.set (regReset (k + 4 * i)) t (k + 4 * i) 0) t) j
      = if ∃ i ∈ l, j = k + 4 * i then 0 else Tab.get (regReset j) t j := by
  induction l generalizing t with
  | nil => simp
  | cons i l ih =>
    rw [List.foldl_cons, ih]
    by_cases h1 : ∃ x ∈ l, j = k + 4 * x
    · obtain ⟨x, hx, e⟩ := h1
      rw [if_pos ⟨x, hx, e⟩, if_pos ⟨x, List.mem_cons_of_mem _ hx, e⟩]
    · rw [if_neg h1]
      by_cases h2 : j = k + 4 * i
      · rw [if_pos ⟨i, List.mem_cons_self, h2⟩, ← h2, Tab.get_set_same]
      · rw [Tab.get_set_ne h2, if_neg]
        rintro ⟨x, hx, e⟩
        rcases List.mem_cons.mp hx with rfl | hx
        · exact h2 e
        · exact h1 ⟨x, hx, e⟩

theorem mem_upFrom_iff {m a k : Nat} : k ∈ upFrom a m ↔ a ≤ k ∧ k < a + m := by
  induction m generalizing a with
  | zero => simp [upFrom]
  | succ m ih =>
    simp only [upFrom, List.mem_cons, ih]
    omega

/-- Registers cleared from `k`, `n` of them: those read 0 and every other reads as before. -/
theorem State.rd_zeroRegs (s : State) (k n j : Nat) :
    (s.zeroRegs k n).rd j = if ∃ i, i < n ∧ j = k + 4 * i then 0 else s.rd j := by
  unfold State.rd State.zeroRegs
  dsimp only
  rw [zero_go]
  congr 1
  apply propext
  constructor
  · rintro ⟨i, hi, e⟩; exact ⟨i, by have := mem_upFrom_iff.mp hi; omega, e⟩
  · rintro ⟨i, hi, e⟩; exact ⟨i, mem_upFrom_iff.mpr ⟨by omega, by omega⟩, e⟩

theorem State.rd_clearRun (s : State) (page off n j : Nat) :
    (s.clearRun page off n).rd j = if ∃ i, i < n ∧ j = pageKey page off + 4 * i then 0 else s.rd j :=
  State.rd_zeroRegs s _ n j

theorem clear_go (page : Nat) (l : List (Nat × Nat)) (s : State) (j : Nat) :
    (l.foldl (fun s r => s.clearRun page r.1 r.2) s).rd j
      = if ∃ r ∈ l, ∃ i, i < r.2 ∧ j = pageKey page r.1 + 4 * i then 0 else s.rd j := by
  induction l generalizing s with
  | nil => simp
  | cons r l ih =>
    rw [List.foldl_cons, ih, State.rd_clearRun]
    by_cases h1 : ∃ x ∈ l, ∃ i, i < x.2 ∧ j = pageKey page x.1 + 4 * i
    · obtain ⟨x, hx, e⟩ := h1
      rw [if_pos ⟨x, hx, e⟩, if_pos ⟨x, List.mem_cons_of_mem _ hx, e⟩]
    · rw [if_neg h1]
      by_cases h2 : ∃ i, i < r.2 ∧ j = pageKey page r.1 + 4 * i
      · rw [if_pos h2, if_pos ⟨r, List.mem_cons_self, h2⟩]
      · rw [if_neg h2, if_neg]
        rintro ⟨x, hx, e⟩
        rcases List.mem_cons.mp hx with rfl | hx
        · exact h2 e
        · exact h1 ⟨x, hx, e⟩

/-- CNT_CLR of a page clears its counters and no other register. -/
theorem State.rd_clearCounters (s : State) (page j : Nat) {b : Block} {i : Nat} (h : pageBlock page = some (b, i)) :
    (s.clearCounters page).rd j
      = if ∃ r ∈ cntRuns b, ∃ i, i < r.2 ∧ j = pageKey page r.1 + 4 * i then 0 else s.rd j := by
  unfold State.clearCounters
  rw [h]
  exact clear_go page _ s j

theorem cntRuns_high {b : Block} {r : Nat × Nat} (h : r ∈ cntRuns b) : 0x050 ≤ r.1 ∧ r.1 + 4 * r.2 ≤ 0x1000 := by
  cases b <;> revert r <;> decide

/-- SOFT_RESET of a block leaves CTRL and IRQ_MASK of every page alone. -/
theorem State.blockSoftReset_low (s : State) (b : Block) (i page off : Nat) (hp : page < 0x100)
    (ho : off = 0x008 ∨ off = 0x014 ∨ off = 0x018) : (s.blockSoftReset b i).rd (pageKey page off) = s.rd (pageKey page off) := by
  have z (u : State) (k n : Nat) (hk : k % 4 = 0) (h : k < 0x1000000 → 0x020 ≤ k % 0x1000 ∧ k % 0x1000 + 4 * n ≤ 0x1000) :
      (u.zeroRegs k n).rd (pageKey page off) = u.rd (pageKey page off) := by
    rw [State.rd_zeroRegs, if_neg]
    rintro ⟨j, hj, e⟩
    unfold pageKey at e
    by_cases hk2 : k < 0x1000000
    · have := h hk2; omega
    · omega
  have w (u : State) (k : Nat) (v : Word) (h : k ≠ pageKey page off) : (u.wr k v).rd (pageKey page off) = u.rd (pageKey page off) :=
    State.rd_wr_ne u v (fun e => h e.symm)
  cases b
  case time =>
    show ((s.wr Reg.timePendCorr 0).zeroRegs Reg.timeRefusedLo 2).rd _ = _
    rw [z _ _ _ (by decide) (by decide), w]
    simp only [pageKey, Reg.timePendCorr]; omega
  case win => exact (State.winSoftReset_frame (Frame.refl _ s) (Sub.self _)).low hp ho (by decide)
  case drl => exact (State.drlSoftReset_frame (Frame.refl _ s) (Sub.self _)).low hp ho (by decide)
  case rfx => exact (State.rfxSoftReset_frame (Frame.refl _ s) (Sub.self _)).low hp ho (by decide)
  case icu => exact (State.icuSoftReset_frame (Frame.refl _ s) (Sub.self _)).low hp ho (by decide)
  case icup => exact (State.icupSoftReset_frame (Frame.refl _ s) i (Sub.self _)).low hp ho (by decide)
  case sig =>
    show (s.wr Reg.sigSubMeta 0).rd _ = _
    rw [w]
    simp only [pageKey, Reg.sigSubMeta]; omega
  case fp =>
    have e (u : State) (on : Bool) : (u.fpEnable i on).rd (pageKey page off) = u.rd (pageKey page off) :=
      (State.fpEnable_frame (Frame.refl _ u) i on (Sub.self _)).low hp ho (by decide)
    have k : (((s.fpEnable i false).wr (indKey (0x28 + i) 0x00C) 0).clearRun 0x28 0x104 2).rd (pageKey page off)
        = s.rd (pageKey page off) := by
      rw [State.rd_clearRun, if_neg, w, e]
      · unfold indKey pageKey; omega
      · rintro ⟨j, hj, q⟩; unfold pageKey at q; omega
    show (s.fpSoftReset i).rd _ = _
    unfold State.fpSoftReset
    extract_lets y
    split
    · exact (e y true).trans k
    · exact k
  case plk => exact (State.plkSoftReset_frame (Frame.refl _ s) (Sub.self _)).low hp ho (by decide)
  case lease => exact (State.leaseSoftReset_frame (Frame.refl _ s) (Sub.self _)).low hp ho (by decide)
  case tile => exact (State.tileSoftReset_frame (Frame.refl _ s) i (Sub.self _)).low hp ho (by decide)
  case can => exact (State.canSoftReset_frame (Frame.refl _ s) i (Sub.self _)).low hp ho (by decide)
  case ring =>
    show ((s.setRing _).zeroRegs (Reg.ringNeighbour 0) 4).rd _ = _
    rw [z _ _ _ (by decide) (by decide)]; rfl
  case ddr =>
    show (s.zeroRegs Reg.ddrEccAddrLo 2).rd _ = _
    rw [z _ _ _ (by decide) (by decide)]
  case dma =>
    show (s.dmaSoftReset).rd _ = _
    unfold State.dmaSoftReset
    have hl : ∀ c ∈ upFrom 0 8, c < 8 := fun c hc => by have := mem_upFrom_iff.mp hc; omega
    generalize upFrom 0 8 = l at hl
    induction l generalizing s with
    | nil => rfl
    | cons c l ih =>
      have hc := hl c List.mem_cons_self
      rw [List.foldl_cons, ih _ (fun x hx => hl x (List.mem_cons_of_mem _ hx))]
      show (((s.wr (Reg.dmaDcHead c) 0).wr (Reg.dmaDcStatus c) 0).wr (Reg.dmaDcBytes c) 0).rd _ = _
      rw [w, w, w] <;> simp only [pageKey, Reg.dmaDcHead, Reg.dmaDcStatus, Reg.dmaDcBytes] <;> omega
  case ch =>
    show (s.chSoftReset i).rd _ = _
    unfold State.chSoftReset
    dsimp only
    have r (u : State) (o n : Nat) (h0 : 0 < n) (h4 : o % 4 = 0) (h1 : 0x020 ≤ o) (h2 : o + 4 * n ≤ 0x1000) :
        (u.clearRun (0x80 + i) o n).rd (pageKey page off) = u.rd (pageKey page off) :=
      z u _ n (by unfold pageKey; omega) (fun _ => by unfold pageKey; omega)
    rw [r _ _ _ (by decide) (by decide) (by decide) (by decide), r _ _ _ (by decide) (by decide) (by decide) (by decide),
      z _ _ _ (by simp only [Reg.chCtrCap, pageKey]; omega) (fun _ => by simp only [Reg.chCtrCap, pageKey]; omega),
      z _ _ _ (by simp only [Reg.chCtrCount, pageKey]; omega) (fun _ => by simp only [Reg.chCtrCount, pageKey]; omega)]
    show ((((s.engReset i).fifoClear (rxFifo i)).fifoClear (txFifo i)).serStop i).rd _ = _
    rw [(State.serStop_frame (Frame.refl _ _) i (Sub.self _)).low hp ho (by decide),
      (State.fifoClear_frame (Frame.refl _ _) _ (Sub.self _)).low hp ho (by decide),
      (State.fifoClear_frame (Frame.refl _ _) _ (Sub.self _)).low hp ho (by decide),
      (State.engReset_frame (Frame.refl _ _) i (Sub.self _)).low hp ho (by decide)]
  all_goals rfl

theorem irqPend_ne_mbxFlag (page : Nat) : Reg.irqPend page ≠ Reg.mbxFlag page := by unfold Reg.irqPend Reg.mbxFlag pageKey; omega
theorem irqPend_ne_indAddr (page : Nat) : Reg.irqPend page ≠ Reg.indAddr page := by unfold Reg.irqPend Reg.indAddr pageKey; omega

theorem mbxFlag_ne_indAddr (page : Nat) : Reg.mbxFlag page ≠ Reg.indAddr page := by unfold Reg.mbxFlag Reg.indAddr pageKey; omega

/-- SOFT_RESET of a page: what its common registers read after it. -/
theorem State.softReset_common (s : State) (page : Nat) {b : Block} {i : Nat} (h : pageBlock page = some (b, i)) :
    let t := s.softReset page
    t.rd (Reg.irqPend page) = 0 ∧ t.heldOf page = 0 ∧ t.rd (Reg.mbxFlag page) = 0 ∧ (∀ n, n < 4 → t.mbxD page n = 0) ∧
    t.rd (Reg.indAddr page) = 0 ∧ Tab.get none t.mbx page = none ∧
    (∀ off, off = 0x008 ∨ off = 0x014 ∨ off = 0x018 → t.rd (pageKey page off) = s.rd (pageKey page off)) := by
  have hp := pageBlock_lt h
  have n2 := irqPend_ne_mbxFlag page
  have n3 := irqPend_ne_indAddr page
  unfold State.softReset
  rw [h]
  dsimp only
  generalize hu : (s.blockSoftReset b i).clearCounters page = u
  have hlow : ∀ off, off = 0x008 ∨ off = 0x014 ∨ off = 0x018 → u.rd (pageKey page off) = s.rd (pageKey page off) := by
    intro off ho
    rw [← hu, State.rd_clearCounters _ _ _ h, if_neg, State.blockSoftReset_low s b i page off hp ho]
    rintro ⟨r, hr, j, hj, e⟩
    have := cntRuns_high hr
    unfold pageKey at e; omega
  generalize hv : u.withRequest page _ = v
  have hvr : ∀ k, v.rd k = (u.wr (Reg.irqPend page) 0).rd k := by
    intro k; rw [← hv, State.withRequest_rd]; rfl
  have hz (x : Tab Word) : Tab.get (0 : Word) (Tab.set 0 x page 0) page = 0 := Tab.get_set_same
  have hvh : v.heldOf page = 0 := by
    rw [← hv]; unfold State.withRequest; dsimp only; unfold State.heldOf
    split
    · rw [State.icuPend_held]; exact hz _
    · exact hz _
  clear hv
  generalize hw : v.zeroRegs (Reg.mbxD page 0) 4 = w
  have hwr := State.rd_zeroRegs v (Reg.mbxD page 0) 4
  rw [hw] at hwr
  have hwh : w.heldIrq = v.heldIrq := by rw [← hw]; rfl
  clear hw
  generalize hx : (w.wr (Reg.mbxFlag page) 0).wr (Reg.indAddr page) 0 = x
  have hxr : ∀ k, x.rd k = ((w.wr (Reg.mbxFlag page) 0).wr (Reg.indAddr page) 0).rd k := by intro k; rw [hx]
  have hxh : x.heldIrq = w.heldIrq := by rw [← hx]; rfl
  show x.rd _ = 0 ∧ Tab.get 0 x.heldIrq page = 0 ∧ x.rd _ = 0 ∧ (∀ n, n < 4 → x.rd _ = 0) ∧ x.rd _ = 0 ∧ _ ∧
    ∀ off, off = 0x008 ∨ off = 0x014 ∨ off = 0x018 → x.rd _ = _
  have n1 := mbxFlag_ne_indAddr page
  refine ⟨?_, ?_, ?_, ?_, ?_, ?_, ?_⟩
  · rw [hxr, State.rd_wr_ne, State.rd_wr_ne, hwr, if_neg, hvr, State.rd_wr_same]
    · rintro ⟨j, hj, e⟩; unfold Reg.irqPend Reg.mbxD pageKey at e; omega
    · exact n2
    · exact n3
  · rw [hxh, hwh]; exact hvh
  · rw [hxr, State.rd_wr_ne _ _ n1, State.rd_wr_same]
  · intro n hn
    rw [hxr, State.rd_wr_ne, State.rd_wr_ne, hwr, if_pos ⟨n, hn, by unfold Reg.mbxD pageKey; omega⟩]
    · unfold Reg.mbxD Reg.mbxFlag pageKey; omega
    · unfold Reg.mbxD Reg.indAddr pageKey; omega
  · rw [hxr, State.rd_wr_same]
  · exact Tab.get_set_same
  · intro off ho
    rw [hxr, State.rd_wr_ne, State.rd_wr_ne, hwr, if_neg, hvr, State.rd_wr_ne, hlow off ho]
    · unfold Reg.irqPend pageKey; omega
    · rintro ⟨j, hj, e⟩; unfold Reg.mbxD pageKey at e; omega
    · unfold Reg.mbxFlag pageKey; omega
    · unfold Reg.indAddr pageKey; omega

/-- FREEZE takes the value written and EN stays. -/
theorem State.freezeWrite_common (s : State) (page : Nat) (on : Bool) :
    let t := s.freezeWrite page on
    t.isFrozen page = on ∧ t.enabled page = s.enabled page ∧
    (s.isFrozen page = true → on = false →
      t.rd (Reg.irqPend page) = s.rd (Reg.irqPend page) ||| s.heldOf page ∧ t.heldOf page = 0) ∧
    (s.isFrozen page = on → t = s) := by
  have nc : Reg.irqPend page ≠ Reg.ctrl page := by simp only [Reg.irqPend, Reg.ctrl, pageKey]; omega
  unfold State.freezeWrite
  cases on
  · by_cases hf : s.isFrozen page = true
    · simp only [Bool.false_eq_true, if_false, hf, if_true]
      generalize hv : s.withRequest page _ = v
      have hvr : ∀ k, v.rd k = ((s.wr (Reg.irqPend page) (s.rd (Reg.irqPend page) ||| s.heldOf page)).setFld (Reg.ctrl page) 2 1 0).rd k := by
        intro k; rw [← hv, State.withRequest_rd]; rfl
      have hz (x : Tab Word) : Tab.get (0 : Word) (Tab.set 0 x page 0) page = 0 := Tab.get_set_same
      have hvh : v.heldOf page = 0 := by
        rw [← hv]; unfold State.withRequest; dsimp only; unfold State.heldOf
        split
        · rw [State.icuPend_held]; exact hz _
        · exact hz _
      refine ⟨?_, ?_, ?_, ?_⟩
      · unfold State.isFrozen State.flag
        rw [hvr, State.rd_setFld_same, bit_setBits_same _ _ _ (by decide)]; rfl
      · unfold State.enabled State.flag
        rw [hvr, State.rd_setFld_same, bit_setBits_other _ _ _ _ _ (by decide) (by decide), State.rd_wr_ne _ _ nc.symm]
      · intro _ _
        exact ⟨by rw [hvr, State.rd_setFld_ne _ _ _ _ nc, State.rd_wr_same], hvh⟩
      · intro h; cases h
    · simp only [Bool.false_eq_true, if_false, hf]
      exact ⟨by simp, trivial, fun h => absurd h (by simp), fun _ => trivial⟩
  · by_cases hf : s.isFrozen page = true
    · simp only [if_true, hf]
      refine ⟨trivial, trivial, ?_, fun _ => trivial⟩
      intro _ h; cases h
    · simp only [if_true, hf, Bool.false_eq_true, if_false]
      refine ⟨?_, ?_, ?_, ?_⟩
      · unfold State.isFrozen State.flag
        rw [State.rd_setFld_same, bit_setBits_same _ _ _ (by decide)]; rfl
      · unfold State.enabled State.flag
        rw [State.rd_setFld_same, bit_setBits_other _ _ _ _ _ (by decide) (by decide)]; rfl
      · intro h; cases h
      · intro h; cases h

/-- EN takes the value written and FREEZE stays. -/
theorem State.enableWrite_common (s : State) (page : Nat) (on : Bool) {b : Block} {i : Nat} (h : pageBlock page = some (b, i)) :
    let t := s.enableWrite page on
    t.enabled page = on ∧ t.isFrozen page = s.isFrozen page ∧ (s.enabled page = on → t = s) := by
  have hp := pageBlock_lt h
  unfold State.enableWrite
  rw [h]
  dsimp only
  by_cases he : s.enabled page = on
  · rw [if_pos he]; exact ⟨he, rfl, fun _ => rfl⟩
  · rw [if_neg he]
    have k := (State.blockEnable_frame (Frame.refl _ (s.setFld (Reg.ctrl page) 0 1 (b2n on))) b i on (Sub.self _)).low hp
      (Or.inl rfl) (by decide)
    have k' : ((s.setFld (Reg.ctrl page) 0 1 (b2n on)).blockEnable b i on).rd (Reg.ctrl page)
        = setBits (s.rd (Reg.ctrl page)) 0 1 (b2n on) := k.trans (State.rd_setFld_same _ _ _ _ _)
    refine ⟨?_, ?_, fun h => absurd h he⟩
    · unfold State.enabled State.flag
      rw [k', bit_setBits_same _ _ _ (by decide)]; cases on <;> rfl
    · unfold State.isFrozen State.flag
      rw [k', bit_setBits_other _ _ _ _ _ (by decide) (by decide)]

end Sys2Proof.Machine
end

