-- ==== Sys2Proof/Laws/Reach.lean ====
section
/-! SUPPORT. A register access that reaches its page and need not wait. -/

namespace Sys2Proof.Machine

/-- A word written to an offset of a page that the agent reaches: the page's own write, answered OK. -/
theorem State.agentReg_reached {s : State} {a : Agent} {page off : Nat} {b : Block} {i : Nat} (v : Word)
    (h : s.Reaches a page b i) (ho : off < 0x1000) (h4 : off % 4 = 0) (h8 : off = 0x800 → s.indWaiting page = []) :
    s.agentReg a page off v = { s.pageWrite a page off v with reply := ⟨0, []⟩ } := by
  obtain ⟨hu, hb, hs, ht⟩ := h
  have ht' : s.stalledTile (pageKey page off) = none := (s.stalledTile_page ho).trans ht
  by_cases e : off = 0x800
  · subst e
    have hn : s.writeNow a (pageKey page 0x800) (wordBytes v) = { s.pageWrite a page 0x800 v with reply := ⟨0, []⟩ } := by
      rw [s.writeNow_page v hb hs ho h4, if_pos hu]
    have hw : (wordBytes v).length = 4 := rfl
    unfold State.agentReg State.agentWrite
    rw [hw, s.writeReaches_page hb hs ho h4, ht', hn, if_pos hu]
    cases hi : hasInd b
    · have : indPage (pageKey page 0x800) = none := by
        have hp := pageBlock_lt hb
        have hd : pageKey page 0x800 / 0x1000 = page := by unfold pageKey; omega
        unfold indPage
        rw [hd, hb]
        simp [hi]
      rw [this]
    · rw [indPage_data hb hi]
      simp [h8 rfl]
  · rw [s.agentReg_page v hb hs ho h4 e, if_pos hu, ht']

end Sys2Proof.Machine
end

