-- ==== Sys2Proof/Laws/Resets.lean ====
section
/-! SUPPORT. Bytes stored, records written to their ring, and what a hub-die reset does to the line cells and the map of RST. -/

namespace Sys2Proof.Machine

theorem State.memPut_get (s : State) (a : Nat) (l : List Byte) (x : Nat) :
    (s.memPut a l).memGet x = if a ≤ x ∧ x < a + l.length then l.getD (x - a) 0 else s.memGet x := by
  induction l generalizing s a with
  | nil => simp [State.memPut]
  | cons b l ih =>
    rw [State.memPut, ih]
    by_cases h1 : x = a
    · subst h1
      have : ¬ (x + 1 ≤ x) := by omega
      simp [this]
    · rw [State.memGet_memSet_ne _ _ h1]
      by_cases h2 : a + 1 ≤ x ∧ x < a + 1 + l.length
      · have h3 : a ≤ x ∧ x < a + (b :: l).length := by simp; omega
        have h4 : x - a = (x - (a + 1)) + 1 := by omega
        rw [if_pos h2, if_pos h3, h4]; simp
      · have h3 : ¬ (a ≤ x ∧ x < a + (b :: l).length) := by simp; omega
        rw [if_neg h2, if_neg h3]

theorem State.memPut_evq (s : State) (a : Nat) (l : List Byte) : (s.memPut a l).evq = s.evq ∧ (s.memPut a l).regs = s.regs := by
  induction l generalizing s a with
  | nil => exact ⟨rfl, rfl⟩
  | cons b l ih => rw [State.memPut, (ih _ _).1, (ih _ _).2]; exact ⟨rfl, rfl⟩

theorem State.memPut_rest (s : State) (a : Nat) (l : List Byte) : ∃ m, s.memPut a l = { s with mem := m } := by
  induction l generalizing s a with
  | nil => exact ⟨s.mem, rfl⟩
  | cons b l ih => obtain ⟨m, h⟩ := ih (s.memSet a b) (a + 1); exact ⟨m, by rw [State.memPut, h]; rfl⟩

theorem State.evStore_eq (s : State) (n : Nat) (r : Rec) (hl : s.evLocal n = true) (hs : s.flag (Reg.evqQCfg n) 29 = false)
    (h0 : inAppSram (s.evBase n + 32 * (s.evQueue n).prod) = true) :
    ∃ L, L = wordsBytes [setBits r.w0 31 1 (b2n (s.evQueue n).phase), r.w1, r.w2, r.w3, r.w4, r.w5, r.w6, r.w7] ∧ L.length = 32 ∧
    s.evStore n r = (s.memPut (s.evBase n + 32 * (s.evQueue n).prod) L).setEvQueue n
      { s.evQueue n with
        prod := ((s.evQueue n).prod + 1) % s.evSize n, written := (s.evQueue n).written + 1,
        phase := if ((s.evQueue n).prod + 1) % s.evSize n = 0 then !(s.evQueue n).phase else (s.evQueue n).phase,
        unannounced := (s.evQueue n).unannounced + 1, holdoff := some ((s.evQueue n).holdoff.getD s.tclks) } := by
  refine ⟨_, rfl, rfl, ?_⟩
  unfold State.evStore State.evWrite
  simp only [hs, hl, h0, if_true, Bool.false_eq_true, if_false]
  generalize wordsBytes _ = L
  have : State.evSize (s.memPut (s.evBase n + 32 * (s.evQueue n).prod) L) n = s.evSize n := by
    unfold State.evSize State.fld State.rd; rw [(State.memPut_evq _ _ _).2]
  have ht : (s.memPut (s.evBase n + 32 * (s.evQueue n).prod) L).tclks = s.tclks := by
    obtain ⟨m, hm⟩ := State.memPut_rest s (s.evBase n + 32 * (s.evQueue n).prod) L
    rw [hm]
  rw [this, ht]

theorem upFrom_get : ∀ (m a i : Nat) (h : i < (upFrom a m).length), (upFrom a m)[i] = a + i := by
  intro m; induction m with
  | zero => intro a i h; simp [upFrom] at h
  | succ m ih => intro a i h; cases i with
    | zero => simp [upFrom]
    | succ i => simp only [upFrom, List.getElem_cons_succ]; rw [ih]; omega

theorem upFrom_length (m a : Nat) : (upFrom a m).length = m := by
  induction m generalizing a with
  | zero => rfl
  | succ m ih => simp [upFrom, ih]

/-- A difference that begins or ends is noted in the line's own cell. -/
theorem State.readbackTrack_props (s : State) (k : Nat) :
    (∃ a b, (s.readbackTrack k).line k = { s.line k with differAt := a, differTold := b }) ∧
    (∀ j, j ≠ k → (s.readbackTrack k).line j = s.line j) ∧ (∃ l, s.readbackTrack k = { s with lines := l }) := by
  unfold State.readbackTrack
  dsimp only
  split
  · exact ⟨⟨_, _, rfl⟩, fun _ _ => rfl, s.lines, rfl⟩
  · exact ⟨⟨_, _, State.line_setLine_same _ _ _⟩, fun _ h => State.line_setLine_ne _ _ h, _, rfl⟩

/-- A cell that has at most entered or left its safe state or ended its pulses: everything else in it is kept. -/
abbrev LineCell.SafeOf (c d : LineCell) : Prop :=
  ∃ a b p q x y, d = { c with safe := a, held := b, pulse := p, cmdPulse := q, differAt := x, differTold := y }

theorem LineCell.SafeOf.rfl' (c : LineCell) : c.SafeOf c := ⟨_, _, _, _, _, _, rfl⟩

theorem LineCell.SafeOf.trans {c d e : LineCell} (h : c.SafeOf d) (g : d.SafeOf e) : c.SafeOf e := by
  obtain ⟨a, b, p, q, x, y, rfl⟩ := h
  obtain ⟨a, b, p, q, x, y, rfl⟩ := g
  exact ⟨_, _, _, _, _, _, rfl⟩

theorem State.safeEnter_props (s : State) (k j : Nat) :
    ((s.safeEnter k).line k).safe = true ∧ (s.line j).SafeOf ((s.safeEnter k).line j) ∧
    (j ≠ k → (s.safeEnter k).line j = s.line j) ∧ (∃ l, s.safeEnter k = { s with lines := l }) := by
  unfold State.safeEnter
  dsimp only
  split
  · exact ⟨‹_›, .rfl' _, fun _ => rfl, s.lines, rfl⟩
  · generalize hc : ({ s.line k with safe := true, held := _ } : LineCell) = c
    obtain ⟨⟨a, b, h1⟩, h2, l, h3⟩ := State.readbackTrack_props (s.setLine k c) k
    rw [State.line_setLine_same] at h1
    have hne : ∀ j, j ≠ k → ((s.setLine k c).readbackTrack k).line j = s.line j := fun j h =>
      (h2 j h).trans (State.line_setLine_ne _ _ h)
    refine ⟨by rw [h1, ← hc], ?_, hne j, l, h3⟩
    by_cases h : j = k
    · subst h; rw [h1, ← hc]; exact ⟨_, _, _, _, _, _, rfl⟩
    · rw [hne j h]; exact .rfl' _

theorem safeAll_go (l : List Nat) (s : State) : ∃ t, (l.foldl (fun s k =>
    let s := s.safeEnter k
    s.setLine k { s.line k with pulse := none, cmdPulse := none }) s) = t ∧ (∃ x, t = { s with lines := x }) ∧
    (∀ k, (s.line k).SafeOf (t.line k)) ∧
    (∀ k, (k ∈ l ∨ ((s.line k).safe = true ∧ (s.line k).pulse = none ∧ (s.line k).cmdPulse = none)) →
      (t.line k).safe = true ∧ (t.line k).pulse = none ∧ (t.line k).cmdPulse = none) := by
  induction l generalizing s with
  | nil => exact ⟨_, rfl, ⟨s.lines, rfl⟩, fun _ => .rfl' _, fun k h => by simpa using h⟩
  | cons k l ih =>
    obtain ⟨t, ht, ⟨x, hx⟩, hq, hs⟩ := ih (let s := s.safeEnter k; s.setLine k { s.line k with pulse := none, cmdPulse := none })
    obtain ⟨y, hy⟩ := (State.safeEnter_props s k k).2.2.2
    refine ⟨t, ht, ⟨x, ?_⟩, ?_, ?_⟩
    · rw [hx]; simp only [State.setLine]; rw [hy]
    · intro j
      refine LineCell.SafeOf.trans ?_ (hq j)
      dsimp only
      by_cases hj : j = k
      · subst hj; rw [State.line_setLine_same]; exact (State.safeEnter_props s j j).2.1.trans ⟨_, _, _, _, _, _, rfl⟩
      · rw [State.line_setLine_ne _ _ hj]; exact (State.safeEnter_props s k j).2.1
    · intro j hj
      apply hs
      by_cases hjl : j ∈ l
      · exact Or.inl hjl
      · right
        dsimp only
        by_cases hjk : j = k
        · subst hjk; rw [State.line_setLine_same]; exact ⟨(State.safeEnter_props s j j).1, rfl, rfl⟩
        · rw [State.line_setLine_ne _ _ hjk, (State.safeEnter_props s k j).2.2.1 hjk]
          rcases hj with h | h
          · rcases List.mem_cons.mp h with h | h
            · exact absurd h hjk
            · exact absurd h hjl
          · exact h

theorem Tab.get_filter (p : Nat → Bool) (t : Tab Word) (d : Word) (k : Nat) :
    Tab.get d (t.filter fun e => p e.1) k = if p k then Tab.get d t k else d := by
  induction t with
  | nil => simp [Tab.get]
  | cons e t ih =>
    obtain ⟨i, u⟩ := e
    rw [List.filter_cons]
    by_cases hp : p i = true
    · simp only [hp, if_true, Tab.get]
      by_cases h : k = i
      · subst h; simp [hp]
      · simp only [h, if_false]; exact ih
    · simp only [hp, if_false, Tab.get, Bool.false_eq_true]
      by_cases h : k = i
      · subst h; simp only [if_true]; rw [ih]; simp [hp]
      · simp only [h, if_false]; exact ih

theorem State.noteReset_props (s : State) (cause : Nat) (hc : cause < 8) : ∃ r, s.noteReset cause = { s with regs := r } ∧
    (s.noteReset cause).rd Reg.rstLastCause = w32 cause ∧ (s.noteReset cause).rd Reg.rstLastSec = s.now.sec ∧
    (s.noteReset cause).rd Reg.rstLastNs = w32 s.now.ns ∧
    (∀ k, k ≠ Reg.rstLastCause → k ≠ Reg.rstLastSec → k ≠ Reg.rstLastNs → k ≠ Reg.rstCnt cause → (s.noteReset cause).rd k = s.rd k) ∧
    (0 < cause → (s.noteReset cause).rd (Reg.rstCnt cause) = satInc (s.rd (Reg.rstCnt cause))) := by
  have a1 : Reg.rstLastCause ≠ Reg.rstLastSec := by decide
  have a2 : Reg.rstLastCause ≠ Reg.rstLastNs := by decide
  have a3 : Reg.rstLastSec ≠ Reg.rstLastNs := by decide
  have b1 : Reg.rstLastCause ≠ Reg.rstCnt cause := by unfold Reg.rstLastCause Reg.rstCnt indKey; omega
  have b2 : Reg.rstLastSec ≠ Reg.rstCnt cause := by unfold Reg.rstLastSec Reg.rstCnt indKey; omega
  have b3 : Reg.rstLastNs ≠ Reg.rstCnt cause := by unfold Reg.rstLastNs Reg.rstCnt indKey; omega
  unfold State.noteReset
  dsimp only
  split
  · refine ⟨_, rfl, ?_, ?_, ?_, ?_, fun h => absurd h (by omega)⟩
    · rw [State.rd_wr_ne _ _ a2, State.rd_wr_ne _ _ a1, State.rd_wr_same]
    · rw [State.rd_wr_ne _ _ a3, State.rd_wr_same]
    · rw [State.rd_wr_same]
    · intro k h1 h2 h3 _
      rw [State.rd_wr_ne _ _ h3, State.rd_wr_ne _ _ h2, State.rd_wr_ne _ _ h1]
  · refine ⟨_, rfl, ?_, ?_, ?_, ?_, fun _ => ?_⟩
    · rw [State.rd_bump_ne _ b1, State.rd_wr_ne _ _ a2, State.rd_wr_ne _ _ a1, State.rd_wr_same]
    · rw [State.rd_bump_ne _ b2, State.rd_wr_ne _ _ a3, State.rd_wr_same]
    · rw [State.rd_bump_ne _ b3, State.rd_wr_same]
    · intro k h1 h2 h3 h4
      rw [State.rd_bump_ne _ h4, State.rd_wr_ne _ _ h3, State.rd_wr_ne _ _ h2, State.rd_wr_ne _ _ h1]
    · rw [State.bump, State.rd_wr_same, State.rd_wr_ne _ _ b3.symm, State.rd_wr_ne _ _ b2.symm, State.rd_wr_ne _ _ b1.symm]

theorem State.safeAll_props (s : State) : ∃ t, s.safeAll = t ∧ (∃ x, t = { s with lines := x }) ∧
    (∀ k, (s.line k).SafeOf (t.line k)) ∧
    (∀ k, k < 256 → (t.line k).safe = true ∧ (t.line k).pulse = none ∧ (t.line k).cmdPulse = none) := by
  unfold State.safeAll
  have hL : ∀ k, k < 256 → k ∈ upFrom 0 256 := fun k hk => mem_upFrom_iff.mpr ⟨by omega, by omega⟩
  generalize upFrom 0 256 = L at hL ⊢
  obtain ⟨t, ht, h1, h2, h3⟩ := safeAll_go L s
  exact ⟨t, ht, h1, h2, fun k hk => h3 k (Or.inl (hL k hk))⟩

end Sys2Proof.Machine
end

