-- ==== Sys2Proof/Tests/Slice0.lean ====
section
/-! SUPPORT. Tests: the ill-formed terms that the well-formedness checks refuse, the decoder's answer, and for every statement of
`Certificates/Slice0/Obligations.lean` the states and operands that meet its hypotheses.

A witness `witness_X` takes the statement `X` as `h` and lists, clause by clause, what `h` says at concrete states and operands, at the
ends of their ranges where a clause has ranges. The hypotheses of each clause stand inside the listed term as proofs by evaluation, so
that the theorem's type exists only because they hold together. Where the conclusion can be evaluated in little time, its proof
evaluates the model and does not use `h`. -/

open Sys2Proof Sys2Proof.Machine

namespace Sys2Proof.Tests

/-! ### Well-formedness: one ill-formed term for each check -/

/-- A TIME register pair of a second or more. -/
abbrev lateTime : TimePoint := ⟨0, 1000000000⟩
/-- A CAN frame with 65 data bytes. -/
abbrev longCan : CanFrame := ⟨0, false, false, 0, List.replicate 65 0⟩
/-- A request with data of its own. -/
abbrev request (k : ReqKind) (n : Nat) : XReq := ⟨0, 0, k, 0, 8, List.replicate n 0, 0⟩

theorem test_time_point_refused : lateTime.wf = false := by decide
theorem test_wire_frame_refused : WireFrame.wf ⟨List.replicate 13 0, .good⟩ = false := by decide
theorem test_can_frame_refused : longCan.wf = false := by decide
theorem test_no_data_refused : dataWf [] = false := by decide
theorem test_long_data_refused : dataWf (List.replicate 257 0) = false := by decide +kernel
theorem test_target_refused : RegTarget.wf (.bus .steward 0 []) = false := by decide
theorem test_read_with_data_refused : (request .read 1).wf = false := by decide
theorem test_short_write_refused : (request .write 7).wf = false := by decide
theorem test_fetch_add_32_refused : (request .fetchAdd32 8).wf = false := by decide
theorem test_fetch_add_64_refused : (request .fetchAdd64 4).wf = false := by decide
theorem test_cas_32_refused : (request .cas32 4).wf = false := by decide
theorem test_cas_64_refused : (request .cas64 8).wf = false := by decide
theorem test_message_refused : (request .message 0).wf = false := by decide
theorem test_host_completion_refused : HostCpl.wf (.data (List.replicate 257 0)) = false := by decide +kernel
theorem test_register_write_refused : Instr.wf (.registerWrite (.bus .host 0 [])) = false := by decide
theorem test_pps_pulse_refused : Instr.wf (.ppsPulse 64 ⟨true, lateTime⟩ 1) = false := by decide
theorem test_irig_frame_refused : Instr.wf (.irigFrame 63 0 lateTime .good) = false := by decide
theorem test_frame_receive_refused : Instr.wf (.frameReceive 3 ⟨[], .good⟩) = false := by decide
theorem test_can_received_refused : Instr.wf (.canFrameReceived 15 longCan ⟨0, 0⟩) = false := by decide
theorem test_can_received_late_refused : Instr.wf (.canFrameReceived 15 ⟨0, false, false, 0, []⟩ lateTime) = false := by decide
theorem test_can_start_refused : Instr.wf (.canArbitrationStart 15 lateTime) = false := by decide
theorem test_uart_char_refused : Instr.wf (.uartCharReceive 63 0 lateTime .fine) = false := by decide
theorem test_request_issue_refused : Instr.wf (.requestIssue (request .write 7) 0) = false := by decide
theorem test_host_write_refused : Instr.wf (.hostMemoryWrite .bar4 0 [] false) = false := by decide
theorem test_dma_descriptor_refused : Instr.wf (.dmaDescriptorExecute 7 (.data (List.replicate 257 0))) = false := by decide +kernel
theorem test_completion_refused : Instr.wf (.hostCompletionReceive 7 0 (.data (List.replicate 257 0))) = false := by decide +kernel

/-! ### The bus sequences of I2C transactions (R387): a write and a read of two bytes, and a quick command in a chain -/

theorem test_i2c_write_then_read : i2cSequence false [0x50, 7] 0x02000002 0 1 [8, 9] =
    [.start, .address 0x50 false false, .wrote 7, .restart, .address 0x50 false true, .got 8, .got 9, .stop] := by decide
theorem test_i2c_quick_in_chain : i2cSequence true [0x50] 0x00400001 0 0 [] = [.restart, .address 0x50 false false] := by decide

/-! ### The decoder: the table gives no row any bits, so no word spells a command and no queue changes -/

theorem test_no_word_decodes : decodeTableWord 32 0xFFFFFFFF = none := by decide
theorem test_no_word_is_queued : (State.reset.withFetchWord 32 0xFFFFFFFF).pending = [] := by decide

/-! ### What the witnesses share -/

/-- The answer is a next state that meets `p`. -/
def answers (o : Host.Outcome State Fault Refusal) (p : State → Prop) [DecidablePred p] : Bool :=
  match o with
  | .next t => decide (p t)
  | _ => false

theorem answers_next {o : Host.Outcome State Fault Refusal} {p : State → Prop} [DecidablePred p] (h : answers o p = true) :
    ∃ t, o = .next t ∧ p t := by
  cases o with
  | next t => exact ⟨t, rfl, of_decide_eq_true h⟩
  | fault f => exact absurd h Bool.false_ne_true
  | refused r => exact absurd h Bool.false_ne_true

/-- The answer sends one message more on PLK, as `p` says. -/
theorem answers_sent {o : Host.Outcome State Fault Refusal} {l : List PlkMsg} {p : State → PlkMsg → Prop}
    [∀ t r, Decidable (p t r)]
    (h : answers o (fun t => (t.plk.tx.getLast?.any fun r => decide (t.plk.tx = l ++ [r] ∧ p t r)) = true) = true) :
    ∃ t r, o = .next t ∧ t.plk.tx = l ++ [r] ∧ p t r := by
  obtain ⟨t, e, g⟩ := answers_next h
  cases x : t.plk.tx.getLast? with
  | none => rw [x] at g; exact absurd g Bool.false_ne_true
  | some r =>
    rw [x] at g
    exact ⟨t, r, e, of_decide_eq_true g⟩

/-- The state at reset. -/
abbrev z : State := State.reset
/-- The state after command `c`. -/
abbrev did (c : Instr) (s : State) : State := after (Machine.exec c s) s
/-- The command answers the state that `did` names. -/
theorem next_did {c : Instr} {s : State} (h : answers (Machine.exec c s) (fun _ => True) = true) : Machine.exec c s = .next (did c s) := by
  unfold did
  cases x : Machine.exec c s with
  | next t => rfl
  | fault f => rw [x] at h; exact absurd h Bool.false_ne_true
  | refused r => rw [x] at h; exact absurd h Bool.false_ne_true

theorem witness_CountersSaturate (h : Obligations.CountersSaturate) :
    type_of% ((h (z.wr 5 0xFFFFFFFE) 5).1 (by decide +kernel)) ∧ type_of% ((h (z.wr 5 0xFFFFFFFF) 5).2.1 (by decide +kernel)) :=
  ⟨by decide +kernel, by decide +kernel⟩

/-! ### Basics: times, interrupts, records, mailboxes -/

namespace Basics

abbrev zns (n : Nat) : State := { z with time := { z.time with ns := n } }
/-- Queue 0 enabled in application SRAM, 64 entries at 0x1000000. -/
abbrev zq : State := (z.wr (Reg.evqQCfg 0) 0xC0000006).wr (Reg.evqQBaseLo 0) 0x1000000
abbrev recA : Rec := ⟨0x10, 1, 2, 3, 4, 5, 6, 7⟩
/-- A QUAL_FAIL of check 0x0001 of the TIME page with `g` failures gathered. -/
abbrev zf (g : Nat) : State := z.setCheck 0x10 1 { CheckSt.init with gathered := g }
/-- The TIME mailbox words D0 to D2. -/
abbrev zd (d0 d1 d2 : Word) : State := ((z.wr (Reg.mbxD 0x10 0) d0).wr (Reg.mbxD 0x10 1) d1).wr (Reg.mbxD 0x10 2) d2
/-- A TIME command waits for the edge. -/
abbrev waits (op : Nat) (steward : Bool) (arg : Nat) (s : State) : State := { s with time := { s.time with cmd := some ⟨op, steward, arg⟩ } }
abbrev quality (q : BitVec 4) (s : State) : State := { s with time := { s.time with quality := q } }
abbrev tick (n : Nat) (s : State) : State := { s with tclks := n }

theorem witness_StepCarriesOutTheFrontCommand (h : Obligations.StepCarriesOutTheFrontCommand) :
    type_of% (h.1 .tclkEdge [.setTime] { z with pending := [.tclkEdge, .setTime] } (by decide +kernel)) ∧
    type_of% (h.2 z (by decide +kernel)) :=
  ⟨rfl,
   rfl⟩

theorem witness_EveryStepKeepsTheInvariant (h : Obligations.EveryStepKeepsTheInvariant) :
    type_of% (h { z with pending := [.tclkEdge] } (did .tclkEdge z) ⟨by decide +kernel, by decide +kernel, by decide +kernel, rfl⟩ (next_did (c := .tclkEdge) (s := z) (by decide +kernel))) :=
  h { z with pending := [.tclkEdge] } (did .tclkEdge z) ⟨by decide +kernel, by decide +kernel, by decide +kernel, rfl⟩ (next_did (c := .tclkEdge) (s := z) (by decide +kernel))

theorem witness_OneTimeMemoryOnlyAdvances (h : Obligations.OneTimeMemoryOnlyAdvances) :
    type_of% (h { z with pending := [.revoke 7 false] } (did (.revoke 7 false) z) (next_did (c := .revoke 7 false) (s := z) (by decide +kernel))) :=
  h { z with pending := [.revoke 7 false] } (did (.revoke 7 false) z) (next_did (c := .revoke 7 false) (s := z) (by decide +kernel))

theorem witness_EveryCommandTouchesOnlyItsParts (h : Obligations.EveryCommandTouchesOnlyItsParts) :
    type_of% (h .tclkEdge z (did .tclkEdge z) (next_did (by decide +kernel))) :=
  h .tclkEdge z (did .tclkEdge z) (next_did (by decide +kernel))

theorem witness_HubDieResetKeepsTheAlwaysOnState (h : Obligations.HubDieResetKeepsTheAlwaysOnState) :
    type_of% (h z 7 (by decide +kernel)) :=
  h z 7 (by decide +kernel)

theorem witness_TimesCompareByTheSignedDifference (h : Obligations.TimesCompareByTheSignedDifference) :
    type_of% (h.2.2 ⟨0,999999999⟩ 999999999999999999 (by decide +kernel) (by decide +kernel) (by decide +kernel)) ∧
    type_of% (h.2.2 ⟨0xFFFFFFFF,0⟩ (-999999999999999999) (by decide +kernel) (by decide +kernel) (by decide +kernel)) :=
  ⟨(by decide +kernel),
   (by decide +kernel)⟩

theorem witness_AnEdgeSetsItsInterruptBit (h : Obligations.AnEdgeSetsItsInterruptBit) :
    type_of% (h z 0x10 31 (by decide +kernel)) :=
  h z 0x10 31 (by decide +kernel)

theorem witness_RecordsCarryTheirHeaderAndAreQueued (h : Obligations.RecordsCarryTheirHeaderAndAreQueued) :
    type_of% (h.1 z 127 3 255 31 3 .evq ⟨5,999999999⟩ 1 2 3 4 (by decide +kernel) (by decide +kernel) (by decide +kernel) (by decide +kernel) (show _ from by decide +kernel) (by decide +kernel)) ∧
    type_of% (h.2.1 zq 0 recA (by decide +kernel) (by decide +kernel) (by decide +kernel) (by decide +kernel) (show _ from by decide +kernel)) ∧
    type_of% (h.2.1 (zq.setEvQueue 0 { EvQueue.init with prod := 63 }) 0 recA (by decide +kernel) (by decide +kernel) (by decide +kernel) (by decide +kernel) (show _ from by decide +kernel)) ∧
    type_of% (h.2.2 (zq.setEvQueue 0 { EvQueue.init with prod := 63 }) 0 recA (by decide +kernel) (by decide +kernel)) ∧
    type_of% (h.2.2 (zq.setEvQueue 0 { EvQueue.init with prod := 63, overflow := true, dropped := 1 }) 0 recA (by decide +kernel) (by decide +kernel)) :=
  ⟨(by decide +kernel),
   h.2.1 zq 0 recA (by decide +kernel) (by decide +kernel) (by decide +kernel) (by decide +kernel) (show _ from by decide +kernel),
   h.2.1 (zq.setEvQueue 0 { EvQueue.init with prod := 63 }) 0 recA (by decide +kernel) (by decide +kernel) (by decide +kernel) (by decide +kernel) (show _ from by decide +kernel),
   (by decide +kernel),
   (by decide +kernel)⟩

theorem witness_AccessesStoreOrAreRefused (h : Obligations.AccessesStoreOrAreRefused) :
    type_of% (h.1.1 z .steward 0x13FFFFF [7] (by decide +kernel) (by decide +kernel) (by decide +kernel) (by decide +kernel) (show _ from by decide +kernel)) ∧
    type_of% (h.1.1 z .host 0x1000000 [1,2] (by decide +kernel) (by decide +kernel) (by decide +kernel) (by decide +kernel) (show _ from by decide +kernel)) ∧
    type_of% (h.1.2.1 z 4 7 false 0xFFFFFFFF) ∧
    type_of% (h.1.2.1 z 0 0 true 0xFFFFFFFF) ∧
    type_of% (h.1.2.2 z .steward 0x24 .evq 0 0xFFFFFFFF (by decide +kernel)) ∧
    type_of% (h.2.1 z .host 0xFFF 0xFFC 1 (by decide +kernel) (by decide +kernel) (by decide +kernel) (by decide +kernel)) ∧
    type_of% (h.2.2 z 7 0x07 0x14 .fwl 0 1 (by decide +kernel) (by decide +kernel) (by decide +kernel) (by decide +kernel)) :=
  ⟨h.1.1 z .steward 0x13FFFFF [7] (by decide +kernel) (by decide +kernel) (by decide +kernel) (by decide +kernel) (show _ from by decide +kernel),
   h.1.1 z .host 0x1000000 [1,2] (by decide +kernel) (by decide +kernel) (by decide +kernel) (by decide +kernel) (show _ from by decide +kernel),
   h.1.2.1 z 4 7 false 0xFFFFFFFF,
   h.1.2.1 z 0 0 true 0xFFFFFFFF,
   answers_next (by decide +kernel),
   h.2.1 z .host 0xFFF 0xFFC 1 (by decide +kernel) (by decide +kernel) (by decide +kernel) (by decide +kernel),
   answers_next (by decide +kernel)⟩

theorem witness_MailboxesAcceptAndComplete (h : Obligations.MailboxesAcceptAndComplete) :
    type_of% (h.1.1 z .steward 0x10 .time 0 (by decide +kernel) (by decide +kernel) (by decide +kernel)) ∧
    type_of% (h.1.2 z .host 0x10 7 0xFFFF .time 0 (by decide +kernel) (by decide +kernel) (by decide +kernel) (by decide +kernel)) ∧
    type_of% (h.2 (did (.mbxNop .steward 0x12) z) 0x12 0 none none none none (by decide +kernel) (by decide +kernel)) ∧
    type_of% (h.2 (did (.mbxUnknownOp .steward 0x12 255 0) z) 0x12 255 none none none none (by decide +kernel) (by decide +kernel)) :=
  ⟨answers_next (by decide +kernel),
   answers_next (by decide +kernel),
   (by exact answers_next (by decide +kernel)),
   answers_next (by decide +kernel)⟩

theorem witness_BusyMailboxIgnoresWrites (h : Obligations.BusyMailboxIgnoresWrites) :
    type_of% (h (did (.mbxNop .steward 0x12) z) .host 0x12 0 7 .drl 0 (by decide +kernel) (by decide +kernel) (by decide +kernel)) ∧
    type_of% (h (did (.mbxNop .steward 0x12) z) .host 0x12 4 7 .drl 0 (by decide +kernel) (by decide +kernel) (by decide +kernel)) :=
  ⟨h (did (.mbxNop .steward 0x12) z) .host 0x12 0 7 .drl 0 (by decide +kernel) (by decide +kernel) (by decide +kernel),
   h (did (.mbxNop .steward 0x12) z) .host 0x12 4 7 .drl 0 (by decide +kernel) (by decide +kernel) (by decide +kernel)⟩

theorem witness_IndirectAccessesWaitAndAreCarriedOut (h : Obligations.IndirectAccessesWaitAndAreCarriedOut) :
    type_of% (h.1.1 z .steward 0x12 0xFFFFFFFF .drl 0 (by decide +kernel) (by decide +kernel)) ∧
    type_of% (h.1.2.1 z .steward 0x12 .drl 0 (by decide +kernel) (by decide +kernel)) ∧
    type_of% (h.1.2.2.1 (did (.indDataRead .steward 0x12) z) .host 0x12 5 .drl 0 (by decide +kernel) (by decide +kernel) (by decide +kernel)) ∧
    type_of% (h.1.2.2.2 (tick 250 (did (.indDataRead .steward 0x12) z)) .host .steward none 0 [] 0x12 (by decide +kernel) (by decide +kernel)) ∧
    type_of% (h.2.1 (did (.indAddrWrite .steward 0x12 0x80000000) z) .steward 0x12 5 .drl 0 (by decide +kernel) (by decide +kernel) (by decide +kernel)) ∧
    type_of% (h.2.2.1 { z with ind := [(0x12, [⟨.agent .steward, some 7, 0⟩])] } .steward 0x12 7 0 [] .drl 0 (by decide +kernel) (by decide +kernel) (by decide +kernel)) ∧
    type_of% (h.2.2.2 (did (.indDataRead .steward 0x15) z) .steward 0x15 0 [] .sig 0 (by decide +kernel) (by decide +kernel) (by decide +kernel)) :=
  ⟨answers_next (by decide +kernel),
   h.1.2.1 z .steward 0x12 .drl 0 (by decide +kernel) (by decide +kernel),
   h.1.2.2.1 (did (.indDataRead .steward 0x12) z) .host 0x12 5 .drl 0 (by decide +kernel) (by decide +kernel) (by decide +kernel),
   answers_next (by decide +kernel),
   (by exact answers_next (by decide +kernel)),
   answers_next (by decide +kernel),
   answers_next (by decide +kernel)⟩

theorem witness_PageControlsTakeEffect (h : Obligations.PageControlsTakeEffect) :
    type_of% (h.1 (z.raise 0x10 3) .steward 0x10 .time 0 (by decide +kernel)) ∧
    type_of% (h.2.1.1 ((did (.freezeWrite .steward 0x10 true) z).raise 0x10 3) .steward 0x10 false .time 0 (by decide +kernel)) ∧
    type_of% (h.2.1.2 z .steward 0x10 false .time 0 (by decide +kernel)) ∧
    type_of% (h.2.2.1 z .steward 0x10 0xFFFFFFFF 1 .time 0 (by decide +kernel) (by decide +kernel)) ∧
    type_of% (h.2.2.2 (z.bump Reg.timeCntStep) .steward 0x10 .time 0 0x080 (by decide +kernel) (by decide +kernel)) :=
  ⟨answers_next (by decide +kernel),
   answers_next (by decide +kernel),
   (by exact answers_next (by decide +kernel)),
   answers_next (by decide +kernel),
   answers_next (by decide +kernel)⟩

theorem witness_GatheredFailuresAreReportedOnceMore (h : Obligations.GatheredFailuresAreReportedOnceMore) :
    type_of% (h.1 (zf 2) 0x10 1 .time 0 (by decide +kernel) (by decide +kernel) (by decide +kernel) (by decide +kernel)) ∧
    type_of% (h.2 { z with gathers := [(5, { Gather.init with count := 1, page := 0x10 })] } 5 .time 0 (by decide +kernel) (by decide +kernel) (by decide +kernel)) :=
  ⟨rfl,
   rfl⟩

theorem witness_EdgesAndWritesSetPendingBits (h : Obligations.EdgesAndWritesSetPendingBits) :
    type_of% (h.1 z 0x10 31 (by decide +kernel) (by decide +kernel)) ∧
    type_of% (h.2 (z.raise 0x10 0) .steward 0x10 0xFFFFFFFF 1 .time 0 (by decide +kernel) (by decide +kernel) (by decide +kernel)) :=
  ⟨rfl,
   answers_next (by decide +kernel)⟩

theorem witness_TheConsumerIndexBoundsTheFill (h : Obligations.TheConsumerIndexBoundsTheFill) :
    type_of% (h.2.1 (zq.setEvQueue 0 { EvQueue.init with prod := 62 }) 0 recA (by decide +kernel)) ∧
    type_of% (h.2.1 (zq.setEvQueue 0 { EvQueue.init with prod := 63 }) 0 recA (by decide +kernel)) ∧
    type_of% (h.2.2 zq 0 1) ∧
    type_of% (h.2.2 (zq.setEvQueue 0 { EvQueue.init with prod := 2 }) 0 1) :=
  ⟨(by decide +kernel),
   (by decide +kernel),
   answers_next (by decide +kernel),
   answers_next (by decide +kernel)⟩

theorem witness_TheTimePageReadsSetsAndCorrects (h : Obligations.TheTimePageReadsSetsAndCorrects) :
    type_of% ((h.1.1 z .host 0xFFFF (by decide +kernel)).1) ∧
    type_of% ((h.1.1 z .steward 0xFFFF (by decide +kernel)).2.1) ∧
    type_of% ((h.1.1 z .host 5 (by decide +kernel)).2.2.1) ∧
    type_of% ((h.1.1 z .host 5 (by decide +kernel)).2.2.2.1) ∧
    type_of% ((h.1.1 z .host 5 (by decide +kernel)).2.2.2.2.1) ∧
    type_of% ((h.1.1 z .steward 5 (by decide +kernel)).2.2.2.2.2) ∧
    type_of% (h.1.2.1 (waits 1 true 0 (zns 999999960)) true (by decide +kernel) (by decide +kernel)) ∧
    type_of% (h.1.2.2.1 (waits 3 true 0 (zd 0xFFFFFFFF 0 0)) (by decide +kernel) (by decide +kernel) (by decide +kernel)) ∧
    type_of% (h.1.2.2.2.1 (waits 6 true 5 (quality 0 (zd 9 0 0))) 5 (by decide +kernel) (by decide +kernel) (by decide +kernel)) ∧
    type_of% (h.1.2.2.2.1 (waits 6 true 0 z) 0 (by decide +kernel) (by decide +kernel) (by decide +kernel)) ∧
    type_of% (h.1.2.2.2.1 (waits 6 true 0xF z) 0xF (by decide +kernel) (by decide +kernel) (by decide +kernel)) ∧
    type_of% ((h.1.2.2.2.2 (waits 3 false 0 z) 0 (by decide +kernel)).1 (by decide +kernel)) ∧
    type_of% ((h.1.2.2.2.2 (waits 6 false 3 z) 3 (by decide +kernel)).2.1 (by decide +kernel)) ∧
    type_of% ((h.1.2.2.2.2 (waits 6 true 5 z) 5 (by decide +kernel)).2.2 (by decide +kernel) (by decide +kernel)) ∧
    type_of% ((h.2.1 (waits 2 true 0 (quality 0 (zd 1000 0 0))) (by decide +kernel) (by decide +kernel) (by decide +kernel)).1 (by decide +kernel)) ∧
    type_of% ((h.2.1 (waits 2 true 0 (quality 0 (zd 0xFFFFFC17 0xFFFFFFFF 0))) (by decide +kernel) (by decide +kernel) (by decide +kernel)).2 (by decide +kernel)) ∧
    type_of% (h.2.2.1 (waits 2 true 0 ((zd 5 0 0).wr Reg.timeCfg 1)) (by decide +kernel) (by decide +kernel) (by decide +kernel)) ∧
    type_of% ((h.2.2.2.1 { waits 4 false 0 z with time := { (waits 4 false 0 z).time with refusedHeld := true } } false (by decide +kernel) (by decide +kernel)).1 (by decide +kernel)) ∧
    type_of% ((h.2.2.2.1 (waits 4 false 0 z) false (by decide +kernel) (by decide +kernel)).2 (by decide +kernel)) ∧
    type_of% ((h.2.2.2.2.1 (waits 5 false 0 (zd 5 999999999 0xFFFF)) false (by decide +kernel) (by decide +kernel)).1 (by decide +kernel)) ∧
    type_of% ((h.2.2.2.2.1 (waits 5 false 0 (zd 5 1000000000 0)) false (by decide +kernel) (by decide +kernel)).2 (by decide +kernel)) ∧
    type_of% (h.2.2.2.2.2 (tick 2000 (z.wr Reg.timePendCorr 1)) (by decide +kernel) (by decide +kernel) (by decide +kernel) (by decide +kernel)) ∧
    type_of% (h.2.2.2.2.2 (tick 2000 (z.wr Reg.timePendCorr 0xFFFFFFFF)) (by decide +kernel) (by decide +kernel) (by decide +kernel) (by decide +kernel)) :=
  ⟨answers_next (by decide +kernel),
   answers_next (by decide +kernel),
   (by exact answers_next (by decide +kernel)),
   answers_next (by decide +kernel),
   answers_next (by decide +kernel),
   (by exact answers_next (by decide +kernel)),
   answers_next (by decide +kernel),
   answers_next (by decide +kernel),
   (by exact answers_next (by decide +kernel)),
   answers_next (by decide +kernel),
   answers_next (by decide +kernel),
   (by exact answers_next (by decide +kernel)),
   answers_next (by decide +kernel),
   answers_next (by decide +kernel),
   (by exact answers_next (by decide +kernel)),
   answers_next (by decide +kernel),
   answers_next (by decide +kernel),
   (by exact answers_next (by decide +kernel)),
   answers_next (by decide +kernel),
   answers_next (by decide +kernel),
   (by exact answers_next (by decide +kernel)),
   answers_next (by decide +kernel),
   answers_next (by decide +kernel)⟩

theorem witness_TheCounterAdvancesAndItsUncertaintyGrows (h : Obligations.TheCounterAdvancesAndItsUncertaintyGrows) :
    type_of% ((h.1.1 (zns 999999999) (by decide +kernel) (by decide +kernel)).1) ∧
    type_of% (h.1.2.1 { z with power := .off } (by decide +kernel)) ∧
    type_of% (h.1.2.2.1 { z with power := .dormant } (by decide +kernel)) ∧
    type_of% (h.1.2.2.2 z (by decide +kernel)) ∧
    type_of% (h.2.1 (tick 25000 { z with time := { z.time with quality := 4, unc := 10 } }) (by decide +kernel) (by decide +kernel)) ∧
    type_of% (h.2.1 (tick 25000 { z with time := { z.time with quality := 4, unc := 65279 } }) (by decide +kernel) (by decide +kernel)) ∧
    type_of% (h.2.2 z (by decide +kernel)) ∧
    type_of% (h.2.2 (tick 24999 { z with time := { z.time with quality := 4, unc := 10 } }) (by decide +kernel)) :=
  ⟨answers_next (by decide +kernel),
   rfl,
   answers_next (by decide +kernel),
   rfl,
   (by exact answers_next (by decide +kernel)),
   answers_next (by decide +kernel),
   rfl,
   rfl⟩

end Basics

/-! ### Pins: time sources, lines, counters, windows -/

namespace Pins

/-- A PTP message of type `ty`, `n` bytes long, domain 0, no correction, from source port identity 0x0102030405060708. -/
abbrev ptpM (ty n flags : Byte) : Delivered :=
  ⟨0, [0x01, 0x80, 0xC2, 0, 0, 0x0E, 2, 0, 0, 0, 0, 1, 0x88, 0xF7, ty, 2, 0, n, 0, 0, flags, 0, 0, 0, 0, 0, 0, 0, 0, 0, 0, 0, 0, 0,
    1, 2, 3, 4, 5, 6, 7, 8, 0, 1, 0, 9, 0, 0] ++ List.replicate (n.toNat - 34) 0, ⟨5, 100⟩⟩
abbrev zp (ty n flags : Byte) : State :=
  { (z.wr (Reg.ptpPortCfg 0) 1) with
    net := { z.net with toTime := [ptpM ty n flags] }, ptp := { z.ptp with parent := some (0x0102030405060708, 0) } }
/-- The same heard on port 2, in the boundary role, with a two-step Sync of sequence 9 awaited where `two`. -/
abbrev zp2 (ty n flags : Byte) (two : Bool) : State :=
  { (z.wr (Reg.ptpPortCfg 2) 2) with
    net := { z.net with toTime := [{ ptpM ty n flags with port := 2 }] },
    ptp := { z.ptp with parent := some (0x0102030405060708, 2), twoStep := if two then some (9, ⟨5, 90⟩, 0) else none } }
abbrev tick (n : Nat) (s : State) : State := { s with tclks := n }
abbrev zpps (on : Bool) : State :=
  { ((z.wr (Reg.ctrl 0x80) 1).wr (Reg.chFunc 0) 7) with sources := [(0, { LocalSrc.init with last := if on then some ⟨7, 0⟩ else none })] }
abbrev zirig : State := (z.wr (Reg.ctrl 0xBF) 1).wr (Reg.chFunc 63) 6
abbrev flt (b : Bool) : FiltSt := ⟨b, 0, ⟨3, 50⟩, 1, 2, 40⟩
abbrev st1 (k : Nat) : Stamp := ⟨⟨3, 50⟩, true, k, 1, 2, false, 9, 0⟩
/-- Line 255 with a filter running; blocked or not; its stamps wanted. -/
abbrev zl (b : Bool) : State := (z.setLine 255 { LineCell.init with filt := some (flt true), blocked := b, raw := true }).wr (Reg.lcfg 7 31) 0x30000
/-- Tile 7 running, its oldest stamp of line 255, `n` records stored. -/
abbrev zt (n : Nat) (l : Option (Stamp × Nat)) : State :=
  { (z.setLine 255 { LineCell.init with queue := [st1 255] }) with
    stampsHeld := false, tiles := [(7, { TileSt.init with clk := .running, count := n, loss := l })] }
abbrev zx (n w : Nat) : State := { z with tiles := [(7, { TileSt.init with clk := .running, count := n, word := w, rd := 255 })] }
/-- Window 255 loaded, its control word `c`; the WIN mailbox words. -/
abbrev zw (c len per : Nat) (armed : Bool) (i : Option TimePoint) : State :=
  z.setWin 255 fun x => { x with ctrl := w32 c, length := len, period := per, armed := armed, inst := i }
abbrev zm (p : Nat) (d0 d1 d2 d3 : Word) (s : State) : State :=
  (((s.wr (Reg.mbxD p 0) d0).wr (Reg.mbxD p 1) d1).wr (Reg.mbxD p 2) d2).wr (Reg.mbxD p 3) d3
abbrev we : WinEdge := ⟨255, 0, ⟨0, 0⟩, 0, 0⟩
def zc (n : Nat) : State := { (zw 0xF002 10 0 true (some ⟨0, 0⟩)) with winEdges := [we], time := { z.time with ns := n } }
/-- A grandmaster-capable node that hears no master: its own dataset is the best. -/
abbrev zgm : State := z.wr Reg.ptpCfg 1
/-- An edge whose SETTLE has passed: the hypotheses of clause 4 hold together, and the edge is classified. -/
theorem witness_WindowsOpenCloseAndJudgeEdges_4 :
    ((zc 5).wr Reg.winSettle 5).winEdges.drop 0 = we :: [] ∧
    timeReached ((zc 5).wr Reg.winSettle 5).now (timeAdd we.time (((zc 5).wr Reg.winSettle 5).fld Reg.winSettle 0 16)) = true ∧
    answers (Machine.exec (.windowClassify 0) ((zc 5).wr Reg.winSettle 5)) (fun t =>
      t.winEdges = [] ∧ t.rd Reg.winCntResult = 1 ∧ t.rd Reg.winCntBoundary = 0 ∧ t.Raised 0x13 0) = true := by decide +kernel

theorem witness_SyncsUpdateTheServo (h : Obligations.SyncsUpdateTheServo) :
    type_of% (h.1 (zp 0 44 0) (ptpM 0 44 0) (by decide +kernel) (by decide +kernel)) ∧
    type_of% (h.1 (zp2 0 44 2 false) { ptpM 0 44 2 with port := 2 } (by decide +kernel) (by decide +kernel)) ∧
    type_of% (h.1 (zp 0 43 0) (ptpM 0 43 0) (by decide +kernel) (by decide +kernel)) ∧
    type_of% (h.2 (zp2 8 44 0 true) { ptpM 8 44 0 with port := 2 } (by decide +kernel)) ∧
    type_of% (h.2 (zp2 8 44 0 false) { ptpM 8 44 0 with port := 2 } (by decide +kernel)) ∧
    type_of% (h.2 (zp2 8 43 0 true) { ptpM 8 43 0 with port := 2 } (by decide +kernel)) :=
  ⟨h.1 (zp 0 44 0) (ptpM 0 44 0) (by decide +kernel) (by decide +kernel),
   h.1 (zp2 0 44 2 false) { ptpM 0 44 2 with port := 2 } (by decide +kernel) (by decide +kernel),
   h.1 (zp 0 43 0) (ptpM 0 43 0) (by decide +kernel) (by decide +kernel),
   h.2 (zp2 8 44 0 true) { ptpM 8 44 0 with port := 2 } (by decide +kernel),
   h.2 (zp2 8 44 0 false) { ptpM 8 44 0 with port := 2 } (by decide +kernel),
   h.2 (zp2 8 43 0 true) { ptpM 8 43 0 with port := 2 } (by decide +kernel)⟩

theorem witness_AnnouncesSelectAndDelaysAreMeasured (h : Obligations.AnnouncesSelectAndDelaysAreMeasured) :
    type_of% (h.1 (zp 0xB 64 0) (ptpM 0xB 64 0) (by decide +kernel)) ∧
    type_of% ((h.2.1 (zp 2 54 0) (ptpM 2 54 0) (by decide +kernel)).1 (by decide +kernel)) ∧
    type_of% ((h.2.1 (zp 2 53 0) (ptpM 2 53 0) (by decide +kernel)).2 (by decide +kernel)) ∧
    type_of% (h.2.2 (zp 3 54 0) 0 0 (ptpM 3 54 0) (by decide +kernel) (by decide +kernel)) ∧
    type_of% ((h.2.2 (zp 3 53 0) 0 0 (ptpM 3 53 0) (by decide +kernel) (by decide +kernel)).2.2.2 (by decide +kernel)) :=
  ⟨h.1 (zp 0xB 64 0) (ptpM 0xB 64 0) (by decide +kernel),
   answers_next (by decide +kernel),
   answers_next (by decide +kernel),
   h.2.2 (zp 3 54 0) 0 0 (ptpM 3 54 0) (by decide +kernel) (by decide +kernel),
   (by exact answers_next (by decide +kernel))⟩

theorem witness_PtpSendsAndLocalSourcesQualify (h : Obligations.PtpSendsAndLocalSourcesQualify) :
    type_of% (h.1.1 zgm true (by decide +kernel) rfl (by decide +kernel)) ∧
    type_of% (h.1.1 zgm false (by decide +kernel) rfl (by decide +kernel)) ∧
    type_of% (h.1.2.1 z (by decide +kernel)) ∧
    type_of% (h.1.2.1 (tick 25000000 { z with ptp := { z.ptp with pdelayAt := some 0 } }) (by decide +kernel)) ∧
    type_of% (h.1.2.2.1 (tick 75000000 { z with ptp := { z.ptp with parent := some (7, 0), annTimeouts := 2 } }) 7 0 (by decide +kernel) (by decide +kernel)) ∧
    type_of% (h.1.2.2.2 (tick 0x40000000 { z with ptp := { z.ptp with parent := some (7, 0) } }) (by decide +kernel) (by decide +kernel) (by decide +kernel)) ∧
    type_of% (h.2.1 (zpps false) 0 ⟨8, 0⟩ 1000 (by decide +kernel) (by decide +kernel) (by decide +kernel) (fun _ e => nomatch e)) ∧
    type_of% (h.2.1 z 64 ⟨8, 0⟩ 500000000 (by decide +kernel) (by decide +kernel) (by decide +kernel) (fun _ e => nomatch e)) ∧
    type_of% (h.2.2.1 (zpps true) 0 ⟨8, 1000001⟩ 1000 (by decide +kernel) (by decide +kernel)) ∧
    type_of% (h.2.2.1 (zpps true) 0 ⟨8, 0⟩ 999 (by decide +kernel) (by decide +kernel)) ∧
    type_of% (h.2.2.2.1 (zpps true) 0 ⟨8, 0⟩ 1000) ∧
    type_of% (h.2.2.2.2.1 { zpps true with sources := [(0, { LocalSrc.init with last := some ⟨7, 0⟩, fails := 3 })] } 0 ⟨7, 0⟩ (by decide +kernel) (by decide +kernel)) ∧
    type_of% (h.2.2.2.2.1 { z with sources := [(64, { LocalSrc.init with last := some ⟨0, 0⟩ })], time := { z.time with sec := 3, ns := 1000000 } } 64 ⟨0, 0⟩ (by decide +kernel) (by decide +kernel)) ∧
    type_of% ((h.2.2.2.2.2.1 zirig 63 0 ⟨8, 0⟩ (by decide +kernel)).1 (by decide +kernel)) ∧
    type_of% ((h.2.2.2.2.2.1 (zirig.wr (Reg.chIrigCfg 63) 0x40000000) 63 (15 * 2 ^ 71) ⟨8, 0⟩ (by decide +kernel)).2.1 (by decide +kernel)) ∧
    type_of% ((h.2.2.2.2.2.1 zirig 63 0 ⟨8, 0⟩ (by decide +kernel)).2.2 .width (by decide +kernel)) ∧
    type_of% (h.2.2.2.2.2.2 (tick 75000000 { zirig with sources := [(63, { LocalSrc.init with irig := some 5, run := 2 })] }) 63 (by decide +kernel) (by decide +kernel) (by decide +kernel)) :=
  ⟨h.1.1 zgm true (by decide +kernel) rfl (by decide +kernel),
   h.1.1 zgm false (by decide +kernel) rfl (by decide +kernel),
   answers_next (by decide +kernel),
   answers_next (by decide +kernel),
   (by exact answers_next (by decide +kernel)),
   rfl,
   answers_next (by decide +kernel),
   answers_next (by decide +kernel),
   (by exact answers_next (by decide +kernel)),
   answers_next (by decide +kernel),
   rfl,
   answers_next (by decide +kernel),
   (by exact answers_next (by decide +kernel)),
   answers_next (by decide +kernel),
   answers_next (by decide +kernel),
   (by exact answers_next (by decide +kernel)),
   answers_next (by decide +kernel)⟩

theorem witness_TransitionsAreFilteredStampedAndDelivered (h : Obligations.TransitionsAreFilteredStampedAndDelivered) :
    type_of% ((h.1 { z with tiles := [(7, { TileSt.init with bankFail := true })] } 255 0).1 (by decide +kernel)) ∧
    type_of% ((h.1 z 255 39).2.1 (by decide +kernel) (by decide +kernel)) ∧
    type_of% ((h.1 (zl false) 255 0).2.2.1 (flt true) (by decide +kernel) (by decide +kernel) (by decide +kernel) (by decide +kernel)) ∧
    type_of% ((h.1 (tick 2 { (zl false) with power := .dormant }) 255 39).2.2.2 (flt true) (by decide +kernel) (by decide +kernel) (by decide +kernel) (by decide +kernel)) ∧
    type_of% (h.2.1.1 (zl false) 255 (flt true) (by decide +kernel) (by decide +kernel) (by decide +kernel) (by decide +kernel)) ∧
    type_of% (h.2.1.1 (zl true) 255 (flt true) (by decide +kernel) (by decide +kernel) (by decide +kernel) (by decide +kernel)) ∧
    type_of% (h.2.1.2 { (zl false) with power := .dormant } 255 (flt true) (by decide +kernel) (by decide +kernel) (by decide +kernel)) ∧
    type_of% (h.2.2.1 (zt 255 none) 7 (st1 255) (by decide +kernel) (by decide +kernel) (by decide +kernel) (by decide +kernel)) ∧
    type_of% (h.2.2.1 (zt 256 none) 7 (st1 255) (by decide +kernel) (by decide +kernel) (by decide +kernel) (by decide +kernel)) ∧
    type_of% (h.2.2.2.1 (zt 255 (some (st1 255, 3))) 7 (st1 255) 3 (by decide +kernel) (by decide +kernel) (by decide +kernel) (by decide +kernel)) ∧
    type_of% (h.2.2.2.2.1 (zx 0 0) 7 (by decide +kernel) (by decide +kernel)) ∧
    type_of% (h.2.2.2.2.2.1 (zx 1 3) 7 (by decide +kernel) (by decide +kernel)) ∧
    type_of% (h.2.2.2.2.2.1 (zx 2 0) 7 (by decide +kernel) (by decide +kernel)) ∧
    type_of% ((h.2.2.2.2.2.2.1 (zx 0 0) 7 0xFFFFFFFF (by decide +kernel)).1 (by decide +kernel) (by decide +kernel)) ∧
    type_of% ((h.2.2.2.2.2.2.1 (zx 1 0) 7 5 (by decide +kernel)).2 (by decide +kernel)) ∧
    type_of% ((h.2.2.2.2.2.2.1 (zt 0 (some (st1 255, 3))) 7 5 (by decide +kernel)).2 (by decide +kernel)) ∧
    type_of% (h.2.2.2.2.2.2.2 { z with tiles := [(7, { TileSt.init with clk := .running, underrun := true })] } 7 (by decide +kernel)) :=
  ⟨(h.1 { z with tiles := [(7, { TileSt.init with bankFail := true })] } 255 0).1 (by decide +kernel),
   (h.1 z 255 39).2.1 (by decide +kernel) (by decide +kernel),
   (h.1 (zl false) 255 0).2.2.1 (flt true) (by decide +kernel) (by decide +kernel) (by decide +kernel) (by decide +kernel),
   answers_next (by decide +kernel),
   h.2.1.1 (zl false) 255 (flt true) (by decide +kernel) (by decide +kernel) (by decide +kernel) (by decide +kernel),
   h.2.1.1 (zl true) 255 (flt true) (by decide +kernel) (by decide +kernel) (by decide +kernel) (by decide +kernel),
   answers_next (by decide +kernel),
   (by exact answers_next (by decide +kernel)),
   answers_next (by decide +kernel),
   answers_next (by decide +kernel),
   (by exact answers_next (by decide +kernel)),
   answers_next (by decide +kernel),
   answers_next (by decide +kernel),
   (by exact answers_next (by decide +kernel)),
   (h.2.2.2.2.2.2.1 (zx 1 0) 7 5 (by decide +kernel)).2 (by decide +kernel),
   (h.2.2.2.2.2.2.1 (zt 0 (some (st1 255, 3))) 7 5 (by decide +kernel)).2 (by decide +kernel),
   answers_next (by decide +kernel)⟩

theorem witness_WindowsAreLoadedArmedAndRead (h : Obligations.WindowsAreLoadedArmedAndRead) :
    type_of% ((h.1 (zm 0x13 1 999999999 1 0 z) 255 (by decide +kernel) (by decide +kernel)).1.1 (by decide +kernel) (by decide +kernel) (by decide +kernel)) ∧
    type_of% ((h.1 (zm 0x13 1 1000000000 1 0 z) 255 (by decide +kernel) (by decide +kernel)).1.2.1 (by decide +kernel) (by decide +kernel)) ∧
    type_of% ((h.1 (zm 0x13 1 1 0 0 z) 255 (by decide +kernel) (by decide +kernel)).1.2.1 (by decide +kernel) (by decide +kernel)) ∧
    type_of% ((h.1 (zw 2 5 0 true none) 255 (by decide +kernel) (by decide +kernel)).1.2.2.1 (by decide +kernel)) ∧
    type_of% ((h.1 (zm 0x13 0xFFFFFFFC 1 0xFFFFFFFF 0 z) 255 (by decide +kernel) (by decide +kernel)).1.2.2.2.1 (by decide +kernel) (by decide +kernel)) ∧
    type_of% ((h.1 (zm 0x13 5 1 0 0 z) 255 (by decide +kernel) (by decide +kernel)).1.2.2.2.2 (by decide +kernel) (by decide +kernel)) ∧
    type_of% ((h.1 (zw 1 5 6 false none) 255 (by decide +kernel) (by decide +kernel)).2.1.1 (by decide +kernel) (by decide +kernel) (by decide +kernel)) ∧
    type_of% ((h.1 (zw 1 5 5 false none) 255 (by decide +kernel) (by decide +kernel)).2.1.2.1 (by decide +kernel) (by decide +kernel)) ∧
    type_of% ((h.1 (zw 2 0 5 false none) 255 (by decide +kernel) (by decide +kernel)).2.1.2.1 (by decide +kernel) (by decide +kernel)) ∧
    type_of% ((h.1 (zc 5) 255 (by decide +kernel) (by decide +kernel)).2.1.2.2 (by decide +kernel)) ∧
    type_of% ((h.1 (zc 5) 255 (by decide +kernel) (by decide +kernel)).2.2.1) ∧
    type_of% ((h.1 (zc 5) 255 (by decide +kernel) (by decide +kernel)).2.2.2.1) ∧
    type_of% ((h.1 (zc 5) 255 (by decide +kernel) (by decide +kernel)).2.2.2.2) ∧
    type_of% (h.2 z 256 (.trigger 256) (by decide +kernel) (by decide +kernel) (by decide +kernel)) :=
  ⟨(h.1 (zm 0x13 1 999999999 1 0 z) 255 (by decide +kernel) (by decide +kernel)).1.1 (by decide +kernel) (by decide +kernel) (by decide +kernel),
   answers_next (by decide +kernel),
   answers_next (by decide +kernel),
   ⟨answers_next (by decide +kernel), answers_next (by decide +kernel)⟩,
   (h.1 (zm 0x13 0xFFFFFFFC 1 0xFFFFFFFF 0 z) 255 (by decide +kernel) (by decide +kernel)).1.2.2.2.1 (by decide +kernel) (by decide +kernel),
   (by exact answers_next (by decide +kernel)),
   (h.1 (zw 1 5 6 false none) 255 (by decide +kernel) (by decide +kernel)).2.1.1 (by decide +kernel) (by decide +kernel) (by decide +kernel),
   answers_next (by decide +kernel),
   answers_next (by decide +kernel),
   (by exact answers_next (by decide +kernel)),
   (h.1 (zc 5) 255 (by decide +kernel) (by decide +kernel)).2.2.1,
   answers_next (by decide +kernel),
   answers_next (by decide +kernel),
   (by exact answers_next (by decide +kernel))⟩

theorem witness_WindowsOpenCloseAndJudgeEdges (h : Obligations.WindowsOpenCloseAndJudgeEdges) :
    type_of% (h.1 (zw 2 5 0 true none) 255 (by decide +kernel) (by decide +kernel) (by decide +kernel)) ∧
    type_of% (h.1 (zw 0x12 5 0 true (some ⟨0, 0⟩)) 255 (by decide +kernel) (by decide +kernel) (by decide +kernel)) ∧
    type_of% (h.1 (zw 2 5 0 true (some ⟨0, 0⟩)) 255 (by decide +kernel) (by decide +kernel) (by decide +kernel)) ∧
    type_of% (h.2.1 (zw 2 5 0 false none) 255 (by decide +kernel) (by decide +kernel) (by decide +kernel)) ∧
    type_of% (h.2.2.2.2 ((zc 4).wr Reg.winSettle 5) 0 we [] (by decide +kernel) (by decide +kernel)) ∧
    type_of% (h.2.2.1 (zc 5) 255) :=
  ⟨answers_next (by decide +kernel),
   answers_next (by decide +kernel),
   (by exact answers_next (by decide +kernel)),
   h.2.1 (zw 2 5 0 false none) 255 (by decide +kernel) (by decide +kernel) (by decide +kernel),
   rfl,
   answers_next (by decide +kernel)⟩

end Pins

/-! ### Drills: drills and FIFOs -/

namespace Drills

abbrev zm (p : Nat) (d0 d1 d2 d3 : Word) (s : State) : State :=
  (((s.wr (Reg.mbxD p 0) d0).wr (Reg.mbxD p 1) d1).wr (Reg.mbxD p 2) d2).wr (Reg.mbxD p 3) d3
abbrev ztile (x : TileSt) : State := { z with tiles := [(7, x)] }
/-- Tile 7 with its clock running. -/
abbrev zr : State := ztile { TileSt.init with clk := .running }
/-- Drill entry 4095 in state `st`, its action word `a`, its target in the first TCLK period, one run and no period. -/
abbrev zd' (st : DrillState) (a : Word) : State :=
  zr.setDrl 4095 fun e => { e with st := st, action := a, target := ⟨0, 36⟩, ns := 36, count := 1, hasTime := true, hasAction := true, p1 := 8, p2 := 1 }
abbrev bad : ReadEcc := .uncorrectable 3 1
abbrev tick (n : Nat) (s : State) : State := { s with tclks := n }
/-- Channel 63 counting, with two edges in the interval. -/
abbrev zk : State :=
  { (((zr.wr (Reg.ctrl 0xBF) 1).wr (Reg.chFunc 63) 1).wr (Reg.chCtrCount 63) 77).wr (Reg.chCtrCfg 63) 0x10000 with
    ctrs := [(63, { CtrSt.init with count := 2, first := ⟨1, 2⟩, last := ⟨1, 5⟩ })] }
abbrev zlc (c : LineCell) : State := z.setLine 255 c
abbrev pkt (w : Nat) (c : Bool) : FifoPkt := ⟨w, 4 * w, 8, false, 0, c⟩
abbrev zfifo (id : Nat) (l : List FifoPkt) (k : Nat) : State := zr.setFifo id fun f => { f with pkts := l, skip := k, lastRead := 7 }

theorem witness_DrillEntriesAreLoadedArmedAndRead (h : Obligations.DrillEntriesAreLoadedArmedAndRead) :
    type_of% (((h.1 (zm 0x12 1 999999999 0 0 z) 4095 .clean (by decide +kernel) (by decide +kernel) (by decide +kernel)).1 (by decide +kernel)).1 (by decide +kernel)) ∧
    type_of% (((h.1 (zm 0x12 1 1000000000 0 0 z) 4095 .clean (by decide +kernel) (by decide +kernel) (by decide +kernel)).1 (by decide +kernel)).2.1 (by decide +kernel)) ∧
    type_of% (((h.1 (zm 0x12 3 8 0 0 z) 4095 .clean (by decide +kernel) (by decide +kernel) (by decide +kernel)).1 (by decide +kernel)).2.2.1 (by decide +kernel)) ∧
    type_of% (((h.1 (zm 0x12 4 0 0 0 z) 4095 .clean (by decide +kernel) (by decide +kernel) (by decide +kernel)).1 (by decide +kernel)).2.2.2.1 (by decide +kernel)) ∧
    type_of% (((h.1 (zm 0x12 3 7 0 0 z) 4095 .clean (by decide +kernel) (by decide +kernel) (by decide +kernel)).1 (by decide +kernel)).2.2.2.1 (by decide +kernel)) ∧
    type_of% (((h.1 z 4095 .clean (by decide +kernel) (by decide +kernel) (by decide +kernel)).1 (by decide +kernel)).2.2.2.2) ∧
    type_of% ((h.1 (zd' .armed 1) 4095 .clean (by decide +kernel) (by decide +kernel) (by decide +kernel)).2.1 (by decide +kernel) (.drlClear 4095) (by decide +kernel)) ∧
    type_of% (((h.1 (zd' .done 0x41) 4095 .clean (by decide +kernel) (by decide +kernel) (by decide +kernel)).2.2.1 (by decide +kernel) (by decide +kernel)).1 (by decide +kernel)) ∧
    type_of% (((h.1 (zd' .loaded 1) 4095 .clean (by decide +kernel) (by decide +kernel) (by decide +kernel)).2.2.1 (by decide +kernel) (by decide +kernel)).2 (by decide +kernel)) ∧
    type_of% (((h.1 (zd' .loaded 0x11) 4095 .clean (by decide +kernel) (by decide +kernel) (by decide +kernel)).2.2.1 (by decide +kernel) (by decide +kernel)).2 (by decide +kernel)) ∧
    type_of% ((h.1 (zd' .armed 1) 4095 .clean (by decide +kernel) (by decide +kernel) (by decide +kernel)).2.2.2.1 (by decide +kernel)) ∧
    type_of% ((h.1 ((zd' .loaded 1).setDrl 4095 fun e => { e with period := 1 }) 4095 .clean (by decide +kernel) (by decide +kernel) (by decide +kernel)).2.2.2.2.1 (by decide +kernel) (by decide +kernel)) ∧
    type_of% ((h.1 (zd' .armed 1) 4095 .clean (by decide +kernel) (by decide +kernel) (by decide +kernel)).2.2.2.2.2.1) ∧
    type_of% ((h.1 (zd' .done 1) 4095 .clean (by decide +kernel) (by decide +kernel) (by decide +kernel)).2.2.2.2.2.1) ∧
    type_of% ((h.1 (zd' .armed 1) 4095 (.corrected 1 1) (by decide +kernel) (by decide +kernel) (by decide +kernel)).2.2.2.2.2.2.1) ∧
    type_of% ((h.1 (zd' .armed 1) 4095 .clean (by decide +kernel) (by decide +kernel) (by decide +kernel)).2.2.2.2.2.2.2.1) ∧
    type_of% ((h.1 (zd' .armed 1) 4095 .clean (by decide +kernel) (by decide +kernel) (by decide +kernel)).2.2.2.2.2.2.2.2) ∧
    type_of% (h.2.1 z 4096 bad (.drlArm 4096 bad) (by decide +kernel) (by decide +kernel) (by decide +kernel)) ∧
    type_of% (h.2.2 (zd' .armed 1) 4095 bad (.drlReadState 4095 bad) (by decide +kernel) (by decide +kernel) (by decide +kernel) (by decide +kernel)) :=
  ⟨((h.1 (zm 0x12 1 999999999 0 0 z) 4095 .clean (by decide +kernel) (by decide +kernel) (by decide +kernel)).1 (by decide +kernel)).1 (by decide +kernel),
   answers_next (by decide +kernel),
   ((h.1 (zm 0x12 3 8 0 0 z) 4095 .clean (by decide +kernel) (by decide +kernel) (by decide +kernel)).1 (by decide +kernel)).2.2.1 (by decide +kernel),
   answers_next (by decide +kernel),
   (by exact answers_next (by decide +kernel)),
   ((h.1 z 4095 .clean (by decide +kernel) (by decide +kernel) (by decide +kernel)).1 (by decide +kernel)).2.2.2.2,
   answers_next (by decide +kernel),
   ((h.1 (zd' .done 0x41) 4095 .clean (by decide +kernel) (by decide +kernel) (by decide +kernel)).2.2.1 (by decide +kernel) (by decide +kernel)).1 (by decide +kernel),
   ((h.1 (zd' .loaded 1) 4095 .clean (by decide +kernel) (by decide +kernel) (by decide +kernel)).2.2.1 (by decide +kernel) (by decide +kernel)).2 (by decide +kernel),
   ((h.1 (zd' .loaded 0x11) 4095 .clean (by decide +kernel) (by decide +kernel) (by decide +kernel)).2.2.1 (by decide +kernel) (by decide +kernel)).2 (by decide +kernel),
   answers_next (by decide +kernel),
   (by exact answers_next (by decide +kernel)),
   (h.1 (zd' .armed 1) 4095 .clean (by decide +kernel) (by decide +kernel) (by decide +kernel)).2.2.2.2.2.1,
   (h.1 (zd' .done 1) 4095 .clean (by decide +kernel) (by decide +kernel) (by decide +kernel)).2.2.2.2.2.1,
   answers_next (by decide +kernel),
   answers_next (by decide +kernel),
   (by exact answers_next (by decide +kernel)),
   answers_next (by decide +kernel),
   answers_next (by decide +kernel)⟩

theorem witness_ArmedEntriesFireAtTheirTargets (h : Obligations.ArmedEntriesFireAtTheirTargets) :
    type_of% (h.1 (zd' .armed 0xFF01) 4095 .clean (by decide +kernel) (by decide +kernel) (by decide +kernel) (by decide +kernel) (show _ from by decide +kernel)) ∧
    type_of% (h.1 { zd' .armed 0xFF01 with tiles := [] } 4095 .clean (by decide +kernel) (by decide +kernel) (by decide +kernel) (by decide +kernel) (show _ from by decide +kernel)) ∧
    type_of% (h.2.1 (zd' .armed 0xFF01) 4095 0 .clean (by decide +kernel) (by decide +kernel) (by decide +kernel) (by decide +kernel) (show _ from by decide +kernel)) ∧
    type_of% (h.2.1 (zd' .armed 0xFF03) 4095 4 .clean (by decide +kernel) (by decide +kernel) (by decide +kernel) (by decide +kernel) (show _ from by decide +kernel)) ∧
    type_of% (h.2.1 (zd' .armed 4) 4095 0 .clean (by decide +kernel) (by decide +kernel) (by decide +kernel) (by decide +kernel) (show _ from by decide +kernel)) ∧
    type_of% (h.2.1 (zd' .armed 0x100FF01) 4095 0 .clean (by decide +kernel) (by decide +kernel) (by decide +kernel) (by decide +kernel) (show _ from by decide +kernel)) ∧
    type_of% (h.2.1 ((zd' .armed 0xFF02).wr (Reg.chLout 63 3) 2) 4095 0 .clean (by decide +kernel) (by decide +kernel) (by decide +kernel) (by decide +kernel) (show _ from by decide +kernel)) ∧
    type_of% (h.2.2.1 ((zd' .armed 4).setDrl 4095 fun e => { e with target := ⟨0, 30⟩ }) 4095 5 .clean (by decide +kernel) (by decide +kernel) (by decide +kernel) (by decide +kernel) (show _ from by decide +kernel)) ∧
    type_of% (h.2.2.1 { zd' .armed 0xFF03 with launches := List.replicate 256 ⟨0, 36⟩ } 4095 0 .clean (by decide +kernel) (by decide +kernel) (by decide +kernel) (by decide +kernel) (show _ from by decide +kernel)) ∧
    type_of% (h.2.2.2.1 ((zd' .armed 4).setDrl 4095 fun e => { e with run := some ⟨0, 40⟩ }) 4095 40 .clean ⟨0, 40⟩ (by decide +kernel) (by decide +kernel) (by decide +kernel) (by decide +kernel) (show _ from by decide +kernel) (by decide +kernel)) ∧
    type_of% (h.2.2.2.1 ((zd' .armed 9).setDrl 4095 fun e => { e with run := some ⟨0, 40⟩ }) 4095 0 .clean ⟨0, 40⟩ (by decide +kernel) (by decide +kernel) (by decide +kernel) (by decide +kernel) (show _ from by decide +kernel) (by decide +kernel)) ∧
    type_of% (h.2.2.2.2 (zlc { LineCell.init with pulse := some ⟨true, ⟨0, 30⟩⟩, cmdPulse := some ⟨false, ⟨0, 500⟩⟩ }) 255 true true) :=
  ⟨answers_next (by decide +kernel),
   answers_next (by decide +kernel),
   h.2.1 (zd' .armed 0xFF01) 4095 0 .clean (by decide +kernel) (by decide +kernel) (by decide +kernel) (by decide +kernel) (show _ from by decide +kernel),
   h.2.1 (zd' .armed 0xFF03) 4095 4 .clean (by decide +kernel) (by decide +kernel) (by decide +kernel) (by decide +kernel) (show _ from by decide +kernel),
   h.2.1 (zd' .armed 4) 4095 0 .clean (by decide +kernel) (by decide +kernel) (by decide +kernel) (by decide +kernel) (show _ from by decide +kernel),
   h.2.1 (zd' .armed 0x100FF01) 4095 0 .clean (by decide +kernel) (by decide +kernel) (by decide +kernel) (by decide +kernel) (show _ from by decide +kernel),
   h.2.1 ((zd' .armed 0xFF02).wr (Reg.chLout 63 3) 2) 4095 0 .clean (by decide +kernel) (by decide +kernel) (by decide +kernel) (by decide +kernel) (show _ from by decide +kernel),
   (by exact answers_next (by decide +kernel)),
   answers_next (by decide +kernel),
   answers_next (by decide +kernel),
   (by exact answers_next (by decide +kernel)),
   answers_next (by decide +kernel)⟩

theorem witness_TilesAndCountersFollowTheirChecks (h : Obligations.TilesAndCountersFollowTheirChecks) :
    type_of% (h.1.1 z 7 .low) ∧
    type_of% (h.1.1 (z.wr (Reg.tileBankCfg 7) 0) 7 .high) ∧
    type_of% (h.1.2.1 (tick 250 (ztile { TileSt.init with bank := .high })) 7 (by decide +kernel) (by decide +kernel) (by decide +kernel) (by decide +kernel)) ∧
    type_of% (h.1.2.2.1 (tick 25000 (ztile { TileSt.init with bankFail := true })) 7 (by decide +kernel) (by decide +kernel) (by decide +kernel) (by decide +kernel)) ∧
    type_of% (h.1.2.2.2.1 (ztile { TileSt.init with bank := .high, clk := .running }) 7 0xFFFFFFFF (by decide +kernel)) ∧
    type_of% (h.1.2.2.2.2.1 z .steward 7 0x050 5 (by decide +kernel) (by decide +kernel) (by decide +kernel) (by decide +kernel)) ∧
    type_of% ((h.1.2.2.2.2.2.1 (ztile { TileSt.init with clk := .starting }) 7 (by decide +kernel)).1 [] rfl) ∧
    type_of% ((h.1.2.2.2.2.2.1 (ztile { TileSt.init with clk := .starting }) 7 (by decide +kernel)).2.1 (by decide +kernel)) ∧
    type_of% ((h.1.2.2.2.2.2.1 (tick 25 (ztile { TileSt.init with clk := .starting })) 7 (by decide +kernel)).2.2 (by decide +kernel)) ∧
    type_of% ((h.1.2.2.2.2.2.2 (tick 25000 zr) 7 (by decide +kernel)).1 (by decide +kernel) (by decide +kernel)) ∧
    type_of% ((h.1.2.2.2.2.2.2 (zr.wr (Reg.tileClkCfg 7) 1) 7 (by decide +kernel)).2 (by decide +kernel)) ∧
    type_of% (h.2.1 zk 63 (by decide +kernel) (by decide +kernel)) ∧
    type_of% (h.2.2.1 zk 63 (by decide +kernel)) ∧
    type_of% (h.2.2.2 zk 63 (by decide +kernel) (by decide +kernel) (by decide +kernel) (fun _ e => nomatch e) (show _ from by decide +kernel)) :=
  ⟨answers_next (by decide +kernel),
   answers_next (by decide +kernel),
   h.1.2.1 (tick 250 (ztile { TileSt.init with bank := .high })) 7 (by decide +kernel) (by decide +kernel) (by decide +kernel) (by decide +kernel),
   h.1.2.2.1 (tick 25000 (ztile { TileSt.init with bankFail := true })) 7 (by decide +kernel) (by decide +kernel) (by decide +kernel) (by decide +kernel),
   (by exact answers_next (by decide +kernel)),
   h.1.2.2.2.2.1 z .steward 7 0x050 5 (by decide +kernel) (by decide +kernel) (by decide +kernel) (by decide +kernel),
   rfl,
   (h.1.2.2.2.2.2.1 (ztile { TileSt.init with clk := .starting }) 7 (by decide +kernel)).2.1 (by decide +kernel),
   answers_next (by decide +kernel),
   (h.1.2.2.2.2.2.2 (tick 25000 zr) 7 (by decide +kernel)).1 (by decide +kernel) (by decide +kernel),
   rfl,
   answers_next (by decide +kernel),
   (by exact answers_next (by decide +kernel)),
   answers_next (by decide +kernel)⟩

theorem witness_LinesAreDrivenAndChecked (h : Obligations.LinesAreDrivenAndChecked) :
    type_of% (h.1.1 (zr.wr (Reg.chLout 63 3) 2) 63 0xF (by decide +kernel) rfl) ∧
    type_of% (h.1.2.1 zr 63 0x1 (by decide +kernel) rfl) ∧
    type_of% (h.1.2.2.1 (zr.wr (Reg.chLout 63 3) 1) 63 0x8 (by decide +kernel)) ∧
    type_of% (h.1.2.2.2.1 (zr.setLine 255 { LineCell.init with safe := true, rbFault := true }) 63 0x800 (by decide +kernel)) ∧
    type_of% (h.1.2.2.2.2 (zr.wr (Reg.ctrl 0xBF) 1) 63 1 (by decide +kernel)) ∧
    type_of% (h.1.2.2.2.2 (zr.wr (Reg.chFunc 0) 0x309) 63 0x309 (by decide +kernel)) ∧
    type_of% (h.1.2.2.2.2 ((zr.wr (Reg.chFunc 0) 0x309).wr (Reg.ctrl 0xBF) 1) 63 0x309 (by decide +kernel)) ∧
    type_of% (h.1.2.2.2.2 zr 63 0xFFFFFFFF (by decide +kernel)) ∧
    type_of% (h.2.1 (tick 25000 ((zlc { LineCell.init with qual := bit (z.rd (Reg.chLqCfg 63 3)) 2 }).wr (Reg.chLqWidth 63 3) 0x10000)) 255 (by decide +kernel) (by decide +kernel) (by decide +kernel) (by decide +kernel) (show _ from by decide +kernel) (by decide +kernel)) ∧
    type_of% (h.2.2.1 (tick 25000 (z.wr (Reg.chLqIdle 63 3) 1)) 255 (by decide +kernel) (by decide +kernel) (by decide +kernel) (by decide +kernel) (show _ from by decide +kernel)) ∧
    type_of% (h.2.2.2.1 (zlc { LineCell.init with bucket := 2 }) 255 (by decide +kernel) (by decide +kernel)) ∧
    type_of% (h.2.2.2.2.1 (zlc { LineCell.init with bucket := 1, blocked := true, last := some (⟨1, 2⟩, 3, 0), qual := true }) 255 (by decide +kernel) (by decide +kernel) (by decide +kernel)) ∧
    type_of% (h.2.2.2.2.2 (tick 1 ((zlc { LineCell.init with latch := true, differAt := some 0 }).wr (Reg.chLout 63 3) 0x10041)) 255 true 0 (by decide +kernel) (by decide +kernel) (by decide +kernel) (by decide +kernel) (show _ from by decide +kernel) (by decide +kernel) (by decide +kernel)) :=
  ⟨answers_next (by decide +kernel),
   answers_next (by decide +kernel),
   (by exact answers_next (by decide +kernel)),
   answers_next (by decide +kernel),
   answers_next (by decide +kernel),
   (by exact answers_next (by decide +kernel)),
   answers_next (by decide +kernel),
   answers_next (by decide +kernel),
   (by exact answers_next (by decide +kernel)),
   answers_next (by decide +kernel),
   rfl,
   answers_next (by decide +kernel),
   (by exact answers_next (by decide +kernel))⟩

theorem witness_FifosPassTheirPacketsInOrder (h : Obligations.FifosPassTheirPacketsInOrder) :
    type_of% (h.1.1 (zfifo 126 [pkt 2 true] 0) 63 ⟨rfl, fun _ => rfl⟩ (by decide +kernel)) ∧
    type_of% (h.1.1 (zfifo 158 [pkt 2 true] 0) 79 ⟨rfl, fun h => absurd h (by decide)⟩ (by decide +kernel)) ∧
    type_of% (h.1.2.1 (zfifo 126 [pkt 2 false] 0) 63 ⟨rfl, fun _ => rfl⟩ (by decide +kernel)) ∧
    type_of% (h.1.2.1 z 79 ⟨rfl, fun h => absurd h (by decide)⟩ (by decide +kernel)) ∧
    type_of% (h.1.2.2.1 (zfifo 126 [pkt 2 true, pkt 1 false] 0) 63 (pkt 2 true) [pkt 1 false] ⟨rfl, fun _ => rfl⟩ (by decide +kernel)) ∧
    type_of% (h.1.2.2.2.1 (zfifo 126 [pkt 2 true] 0) 63 ⟨rfl, fun _ => rfl⟩) ∧
    type_of% (h.1.2.2.2.2.1 (zfifo 126 [pkt 2 true] 0) 63 ⟨rfl, fun _ => rfl⟩) ∧
    type_of% (h.1.2.2.2.2.2.1 (zfifo 127 [pkt 2 true] 0) 63 (pkt 2 true) [] (by decide +kernel) (by decide +kernel)) ∧
    type_of% (h.1.2.2.2.2.2.2.1 (zfifo 127 [pkt 2 true] 0) 63 (by decide +kernel)) ∧
    type_of% (h.1.2.2.2.2.2.2.2 (zfifo 127 [pkt 2 true] 0) 63 (by decide +kernel)) ∧
    type_of% (h.2.1 (zfifo 127 [pkt 2 true] 0) 63 0xABCD0001 (by decide +kernel) (by decide +kernel) (by decide +kernel) (by decide +kernel) (show _ from by decide +kernel)) ∧
    type_of% (h.2.2.1 (zfifo 127 [pkt 2 true, pkt 1 false] 0) 63 5 (pkt 1 false) (by decide +kernel) (by decide +kernel) (by decide +kernel) (by decide +kernel)) ∧
    type_of% (h.2.2.1 (zfifo 127 [pkt 0 false] 0) 63 5 (pkt 0 false) (by decide +kernel) (by decide +kernel) (by decide +kernel) (by decide +kernel)) ∧
    type_of% (h.2.2.2.1 zr 63 0xFFFF0000 (by decide +kernel) (by decide +kernel) (by decide +kernel) (by decide +kernel)) ∧
    type_of% (h.2.2.2.2 (zfifo 127 [] 1) 63 7 (by decide +kernel) (by decide +kernel)) :=
  ⟨h.1.1 (zfifo 126 [pkt 2 true] 0) 63 ⟨rfl, fun _ => rfl⟩ (by decide +kernel),
   h.1.1 (zfifo 158 [pkt 2 true] 0) 79 ⟨rfl, fun h => absurd h (by decide)⟩ (by decide +kernel),
   answers_next (by decide +kernel),
   answers_next (by decide +kernel),
   (by exact answers_next (by decide +kernel)),
   answers_next (by decide +kernel),
   answers_next (by decide +kernel),
   (by exact answers_next (by decide +kernel)),
   answers_next (by decide +kernel),
   answers_next (by decide +kernel),
   (by exact answers_next (by decide +kernel)),
   answers_next (by decide +kernel),
   answers_next (by decide +kernel),
   (by exact answers_next (by decide +kernel)),
   answers_next (by decide +kernel)⟩

end Drills

/-! ### Engines: engines -/

namespace Engines

/-- Engine 63 running at address 0, the instruction `w` there, its segment all 1,024 words, its state changed by `f`. -/
abbrev zE (w : Word) (f : EngSt → EngSt) : State :=
  { (((z.wr (Reg.ctrl 0xBF) 1).wr (Reg.chFunc 63) 10).wr (Reg.chEngSeg 63) 0x04000000) with
    tiles := [(7, { TileSt.init with clk := .running })], sram := [(instrKey 63 false 0, w)],
    engs := [(63, f { EngSt.init 7 with st := 1, pc := 0 })] }
abbrev pk (w : Nat) (c : Bool) (r : Nat) : FifoPkt := ⟨w, 4 * w, 8, decide (r ≠ 0), r, c⟩
/-- Tile 7 with its clock running. -/
abbrev zc7 : State := { z with tiles := [(7, { TileSt.init with clk := .running })] }

theorem witness_EngineInstructionsComputeAndAdvance (h : Obligations.EngineInstructionsComputeAndAdvance) :
    type_of% ((h (zE 0 (fun x => { x with left := 20 })) 63 38).1 (by decide +kernel)) ∧
    type_of% ((h (zE 0x04000008 (fun x => { x with osr := 0x12345678, osrN := 32 })) 63 0).2.1 (by decide +kernel)) ∧
    type_of% ((h (zE 0x04040000 (fun x => { x with osr := 0x12345678, osrN := 5 })) 63 0).2.1 (by decide +kernel)) ∧
    type_of% ((h (zE 0x04080010 (fun x => { x with osr := 0x12345678, osrN := 5, commitPend := true })) 63 0).2.1 (by decide +kernel)) ∧
    type_of% ((h (zE 0x08000004 (fun x => { x with isr := 0xF0000001, isrN := 30 })) 63 0).2.2.1 (by decide +kernel)) ∧
    type_of% ((h (zE 0x08040000 (fun x => { x with x := 7 })) 63 0).2.2.1 (by decide +kernel)) ∧
    type_of% ((h (zE 0x08080010 (fun x => { x with y := 7, isr := 0xF0000001 })) 63 0).2.2.1 (by decide +kernel)) ∧
    type_of% ((h (zE 0x0C01AA0F (fun x => { x with val := 0xFF })) 63 0).2.2.2.1 (by decide +kernel)) ∧
    type_of% ((h (zE 0x0C00FF0F (fun x => { x with oe := 0xFF })) 63 0).2.2.2.1 (by decide +kernel)) ∧
    type_of% ((h (zE 0x10040000 id) 63 0).2.2.2.2.1 (by decide +kernel)) ∧
    type_of% ((h (zE 0x14140000 (fun x => { x with x := 7 })) 63 0).2.2.2.2.2.1 (by decide +kernel)) ∧
    type_of% ((h (zE 0x1401FFFF id) 63 0).2.2.2.2.2.1 (by decide +kernel)) ∧
    type_of% ((h (zE 0x180103FF (fun x => { x with c0 := 1 })) 63 0).2.2.2.2.2.2.1 (by decide +kernel)) ∧
    type_of% ((h (zE 0x180203FF id) 63 0).2.2.2.2.2.2.1 (by decide +kernel)) ∧
    type_of% ((h (zE 0x28070000 id) 63 0).2.2.2.2.2.2.2.1 (by decide +kernel) (by decide +kernel)) ∧
    type_of% ((h (zE 0x280F0000 (fun x => { x with flags := 15 })) 63 0).2.2.2.2.2.2.2.2.1 (by decide +kernel) (by decide +kernel)) ∧
    type_of% ((h (zE 0x281700FF id) 63 0).2.2.2.2.2.2.2.2.2 (by decide +kernel) (by decide +kernel)) :=
  ⟨(h (zE 0 (fun x => { x with left := 20 })) 63 38).1 (by decide +kernel),
   (h (zE 0x04000008 (fun x => { x with osr := 0x12345678, osrN := 32 })) 63 0).2.1 (by decide +kernel),
   (h (zE 0x04040000 (fun x => { x with osr := 0x12345678, osrN := 5 })) 63 0).2.1 (by decide +kernel),
   (h (zE 0x04080010 (fun x => { x with osr := 0x12345678, osrN := 5, commitPend := true })) 63 0).2.1 (by decide +kernel),
   answers_next (by decide +kernel),
   answers_next (by decide +kernel),
   (by exact answers_next (by decide +kernel)),
   answers_next (by decide +kernel),
   answers_next (by decide +kernel),
   (by exact answers_next (by decide +kernel)),
   answers_next (by decide +kernel),
   answers_next (by decide +kernel),
   (by exact answers_next (by decide +kernel)),
   answers_next (by decide +kernel),
   answers_next (by decide +kernel),
   (by exact answers_next (by decide +kernel)),
   answers_next (by decide +kernel)⟩

theorem witness_EnginesWaitExchangeAndHalt (h : Obligations.EnginesWaitExchangeAndHalt) :
    type_of% ((h.1.1 (zE 0x1C000000 id) 63 0 (by decide +kernel)).1 (by decide +kernel) (by decide +kernel)) ∧
    type_of% ((h.1.1 (zE 0x1C004000 id) 63 0 (by decide +kernel)).2.1 (by decide +kernel) (by decide +kernel)) ∧
    type_of% ((h.1.1 (zE 0x1C0C0000 id) 63 0 (by decide +kernel)).2.2.1 (by decide +kernel) (by decide +kernel)) ∧
    type_of% ((h.1.1 (zE 0x1C0C0000 (fun x => { x with mark := ⟨0, 1⟩ })) 63 0 (by decide +kernel)).2.2.2 (by decide +kernel)) ∧
    type_of% ((h.1.1 (zE 0x1C100000 id) 63 0 (by decide +kernel)).2.2.2 (by decide +kernel)) ∧
    type_of% ((h.1.2.1 (zE 0x1C086000 (fun x => { x with flags := 1, wait := some ⟨2, true⟩, left := 1 })) 63 0 ⟨2, true⟩ (by decide +kernel) (by decide +kernel) (by decide +kernel) (by decide +kernel) (show _ from by decide +kernel)).1 (by decide +kernel)) ∧
    type_of% ((h.1.2.1 (zE 0x1C044000 (fun x => { x with wait := some ⟨1, false⟩ })) 63 0 ⟨1, false⟩ (by decide +kernel) (by decide +kernel) (by decide +kernel) (by decide +kernel) (show _ from by decide +kernel)).2 (by decide +kernel)) ∧
    type_of% (h.1.2.2.1 (zE 0x1C0C0000 (fun x => { x with mark := ⟨0, 1⟩, wait := some ⟨3, false⟩ })) 63 0 false (by decide +kernel) (by decide +kernel) (by decide +kernel) (by decide +kernel) (show _ from by decide +kernel)) ∧
    type_of% (h.1.2.2.1 (zE 0x1C0C0000 (fun x => { x with mark := ⟨0xFFFFFFFF, 999999998⟩, wait := some ⟨3, false⟩ })) 63 0 false (by decide +kernel) (by decide +kernel) (by decide +kernel) (by decide +kernel) (show _ from by decide +kernel)) ∧
    type_of% (h.1.2.2.2.1 (zE 0x1C0C0000 (fun x => { x with mark := ⟨0, 1000⟩, wait := some ⟨3, false⟩ })) 63 false (by decide +kernel) (by decide +kernel)) ∧
    type_of% ((h.1.2.2.2.2.1 ((zE 0x20000000 (fun x => { x with isr := 5, isrN := 32 })).setFifo 126 fun f => { f with pkts := [pk 1 false 0] }) 63 0 (by decide +kernel) (by decide +kernel)).1 (by decide +kernel)) ∧
    type_of% ((h.1.2.2.2.2.1 ((zE 0x20080000 (fun x => { x with isr := 5, isrN := 32 })).setFifo 126 fun f => { f with pkts := [pk 512 true 0] }) 63 0 (by decide +kernel) (by decide +kernel)).2.1 (by decide +kernel) (by decide +kernel)) ∧
    type_of% ((h.1.2.2.2.2.1 ((zE 0x20000000 (fun x => { x with isr := 5, isrN := 32 })).setFifo 126 fun f => { f with pkts := [pk 512 true 0] }) 63 0 (by decide +kernel) (by decide +kernel)).2.2 (by decide +kernel) (by decide +kernel)) ∧
    type_of% ((h.1.2.2.2.2.2.1 ((zE 0x20120000 id).setFifo 127 fun f => { f with pkts := [pk 2 true 0] }) 63 0 (by decide +kernel) (by decide +kernel)).1 (pk 2 true 0) [] (by decide +kernel) (by decide +kernel) (by decide +kernel) (by decide +kernel)) ∧
    type_of% ((h.1.2.2.2.2.2.1 ((zE 0x20100000 id).setFifo 127 fun f => { f with pkts := [pk 2 true 2], rd := 2 }) 63 0 (by decide +kernel) (by decide +kernel)).2.1 (pk 2 true 2) [] (by decide +kernel) (by decide +kernel) (by decide +kernel) (by decide +kernel)) ∧
    type_of% ((h.1.2.2.2.2.2.1 (zE 0x20180000 id) 63 0 (by decide +kernel) (by decide +kernel)).2.2.1 (by decide +kernel) (by decide +kernel)) ∧
    type_of% ((h.1.2.2.2.2.2.1 (zE 0x20100000 id) 63 0 (by decide +kernel) (by decide +kernel)).2.2.2 (by decide +kernel) (by decide +kernel)) ∧
    type_of% ((h.1.2.2.2.2.2.2.1 ((zE 0x24000000 id).setFifo 126 fun f => { f with pkts := [pk 1 false 0] }) 63 0 (by decide +kernel)).1 (by decide +kernel)) ∧
    type_of% ((h.1.2.2.2.2.2.2.1 ((zE 0x24000000 id).setFifo 126 fun f => { f with pkts := [pk 510 true 0] }) 63 0 (by decide +kernel)).2 (by decide +kernel) (by decide +kernel)) ∧
    type_of% (h.1.2.2.2.2.2.2.2 ((zE 0x20100000 (fun x => { x with stalled := true })).setFifo 127 fun f => { f with pkts := [pk 2 true 0] }) 63 0 (by decide +kernel) (by decide +kernel) (by decide +kernel) (by decide +kernel) (show _ from by decide +kernel)) ∧
    type_of% (h.2.1 (zE 0x2C000000 id) 63 0 (by decide +kernel) (by decide +kernel) (by decide +kernel)) ∧
    type_of% (h.2.1 (zE 0x04100000 id) 63 0 (by decide +kernel) (by decide +kernel) (by decide +kernel)) ∧
    type_of% ((h.2.2.1 (zE 0 id) 63 0 5 6 (by decide +kernel)).1) ∧
    type_of% ((h.2.2.1 (zE 0 id) 63 0 5 6 (by decide +kernel)).2) ∧
    type_of% (h.2.2.2.1 (zE 0 id) 63 (by decide +kernel) (by decide +kernel)) ∧
    type_of% (h.2.2.2.2 zc7 63 (by decide +kernel) (by decide +kernel)) :=
  ⟨answers_next (by decide +kernel),
   answers_next (by decide +kernel),
   (by exact answers_next (by decide +kernel)),
   answers_next (by decide +kernel),
   answers_next (by decide +kernel),
   (by exact answers_next (by decide +kernel)),
   answers_next (by decide +kernel),
   answers_next (by decide +kernel),
   (by exact answers_next (by decide +kernel)),
   answers_next (by decide +kernel),
   (h.1.2.2.2.2.1 ((zE 0x20000000 (fun x => { x with isr := 5, isrN := 32 })).setFifo 126 fun f => { f with pkts := [pk 1 false 0] }) 63 0 (by decide +kernel) (by decide +kernel)).1 (by decide +kernel),
   answers_next (by decide +kernel),
   (by exact answers_next (by decide +kernel)),
   answers_next (by decide +kernel),
   answers_next (by decide +kernel),
   (by exact answers_next (by decide +kernel)),
   answers_next (by decide +kernel),
   answers_next (by decide +kernel),
   (by exact answers_next (by decide +kernel)),
   answers_next (by decide +kernel),
   answers_next (by decide +kernel),
   (by exact answers_next (by decide +kernel)),
   answers_next (by decide +kernel),
   answers_next (by decide +kernel),
   (by exact answers_next (by decide +kernel)),
   answers_next (by decide +kernel)⟩

theorem witness_EngineCommandsAndStartsAct (h : Obligations.EngineCommandsAndStartsAct) :
    type_of% (h.1.1 (zE 0 (fun x => { x with isr := 5, flags := 3, bank := true })) 63 (by decide +kernel)) ∧
    type_of% ((h.1.2.1 (zE 0 (fun x => { x with copyBusy := true })) 63 (by decide +kernel)).1 (by decide +kernel) .host (.commitAtWrap 63) (by decide +kernel)) ∧
    type_of% ((h.1.2.1 (zE 0 (fun x => { x with st := 2 })) 63 (by decide +kernel)).2.1 (by decide +kernel) (by decide +kernel) .steward (.commitImmediate 63 .steward) (by decide +kernel)) ∧
    type_of% ((h.1.2.1 (zE 0 id) 63 (by decide +kernel)).2.2.1 (by decide +kernel) (by decide +kernel)) ∧
    type_of% ((h.1.2.1 (zE 0 (fun x => { x with next := .swap })) 63 (by decide +kernel)).2.2.2 (by decide +kernel) (by decide +kernel) 0) ∧
    type_of% (h.1.2.2.1 (zE 0 (fun x => { x with commitPend := true })) 63 (by decide +kernel)) ∧
    type_of% (h.1.2.2.2.1 (zE 0 id) 63 (by decide +kernel)) ∧
    type_of% (h.1.2.2.2.2.1 { (zE 0 (fun x => { x with copyBusy := true })) with tclks := 60 } 63 (by decide +kernel) (by decide +kernel)) ∧
    type_of% (h.1.2.2.2.2.2.1 (zE 0 (fun x => { x with st := 2 })) 63 0x00010000 (by decide +kernel)) ∧
    type_of% (h.1.2.2.2.2.2.1 zc7 63 0x047F0380 (by decide +kernel)) ∧
    type_of% (h.1.2.2.2.2.2.2.1 (zE 0 id) 63 7 (by decide +kernel)) ∧
    type_of% (h.1.2.2.2.2.2.2.1 ((zE 0 id).wr (Reg.chEngProgAddr 63) 0x800003FF) 63 7 (by decide +kernel)) ∧
    type_of% (h.1.2.2.2.2.2.2.1 (zE 0 (fun x => { x with commitPend := true })) 63 7 (by decide +kernel)) ∧
    type_of% ((h.1.2.2.2.2.2.2.2 (zE 0 id) 63 0xF 1 (by decide +kernel)).1) ∧
    type_of% ((h.1.2.2.2.2.2.2.2 (zE 0 id) 63 0xF 1 (by decide +kernel)).2.1) ∧
    type_of% ((h.1.2.2.2.2.2.2.2 (zE 0 id) 63 0x3FFFFFFF 1 (by decide +kernel)).2.2.1) ∧
    type_of% ((h.1.2.2.2.2.2.2.2 zc7 63 5 1 (by decide +kernel)).2.2.2.1 (by decide +kernel)) ∧
    type_of% ((h.1.2.2.2.2.2.2.2 (zE 0 id) 63 5 1 (by decide +kernel)).2.2.2.2 (by decide +kernel)) ∧
    type_of% (h.2.1 zc7 63 (by decide +kernel)) ∧
    type_of% (h.2.2.1 (zc7.wr (Reg.tileGrpMaskHi 0) 0x80000000) 7 (by decide +kernel)) ∧
    type_of% (h.2.2.2 { (zE 0 (fun x => { x with st := 2 })) with starts := [⟨0x8000000000000000, some ⟨0, 39⟩, 0⟩] } 0 38 ⟨0x8000000000000000, some ⟨0, 39⟩, 0⟩ 63 (by decide +kernel) (by decide +kernel) (by decide +kernel) (by decide +kernel)) ∧
    type_of% (h.2.2.2 { z with starts := [⟨0x8000000000000000, none, 0⟩] } 0 16 ⟨0x8000000000000000, none, 0⟩ 63 (by decide +kernel) (by decide +kernel) (by decide +kernel) (by decide +kernel)) :=
  ⟨h.1.1 (zE 0 (fun x => { x with isr := 5, flags := 3, bank := true })) 63 (by decide +kernel),
   answers_next (by decide +kernel),
   answers_next (by decide +kernel),
   ⟨answers_next (by decide +kernel), ((h.1.2.1 (zE 0 id) 63 (by decide +kernel)).2.2.1 (by decide +kernel) (by decide +kernel)).2⟩,
   (by exact answers_next (by decide +kernel)),
   answers_next (by decide +kernel),
   answers_next (by decide +kernel),
   h.1.2.2.2.2.1 { (zE 0 (fun x => { x with copyBusy := true })) with tclks := 60 } 63 (by decide +kernel) (by decide +kernel),
   (by exact answers_next (by decide +kernel)),
   answers_next (by decide +kernel),
   answers_next (by decide +kernel),
   (by exact answers_next (by decide +kernel)),
   answers_next (by decide +kernel),
   answers_next (by decide +kernel),
   (by exact answers_next (by decide +kernel)),
   answers_next (by decide +kernel),
   answers_next (by decide +kernel),
   (by exact answers_next (by decide +kernel)),
   answers_next (by decide +kernel),
   answers_next (by decide +kernel),
   h.2.2.2 { (zE 0 (fun x => { x with st := 2 })) with starts := [⟨0x8000000000000000, some ⟨0, 39⟩, 0⟩] } 0 38 ⟨0x8000000000000000, some ⟨0, 39⟩, 0⟩ 63 (by decide +kernel) (by decide +kernel) (by decide +kernel) (by decide +kernel),
   h.2.2.2 { z with starts := [⟨0x8000000000000000, none, 0⟩] } 0 16 ⟨0x8000000000000000, none, 0⟩ 63 (by decide +kernel) (by decide +kernel) (by decide +kernel) (by decide +kernel)⟩

end Engines

/-! ### Rules: reflex rules and signals -/

namespace Rules

abbrev zm (p : Nat) (d0 d1 d2 d3 : Word) (s : State) : State :=
  (((s.wr (Reg.mbxD p 0) d0).wr (Reg.mbxD p 1) d1).wr (Reg.mbxD p 2) d2).wr (Reg.mbxD p 3) d3
/-- Rule 1023: its first literal is operand 0 inverted (true at reset), CTRL `c`, operations `o` on line 255. -/
abbrev zr (c o : Word) (f : Rule → Rule) : State :=
  { z with rules := [(1023, f { Rule.init with t0 := 0xFFFFC000, ctrl := c, ops := o, lines := 255 })] }
abbrev bad : ReadEcc := .uncorrectable 3 1
abbrev rec1 (ty slot v : Nat) : SigRec := ⟨ty, slot, 1, 5, ⟨9, 5⟩, 0, v⟩
abbrev sigD (b : List Byte) (cls : Nat) : Delivered := ⟨0, nativeFrame cls 0x10 0x0102 0xFFFF true false false 0 b, ⟨0, 0⟩⟩
abbrev zs (d : Delivered) (l : Tab SubEnt) : State := { z with net := { z.net with toSig := [d] }, subs := l }
abbrev sub1 (w : Word) (f : SubEnt → SubEnt) : Tab SubEnt := [(8191, f { SubEnt.init with id := 0x0102007, word := w })]
abbrev tk (n : Nat) (s : State) : State := { s with tclks := n }
/-- A publish slot whose change of the cycle `c` has no frame yet. -/
abbrev zo (c : Nat) (s : State) : State :=
  { s.setPub 4094 (fun p => { p with loaded := true, word := 7, value := 3 }) with pubOpen := [⟨4094, c, 1, 0, ⟨0, 0⟩, 0, false⟩] }

theorem witness_RulesAreLoadedEvaluatedAndFire (h : Obligations.RulesAreLoadedEvaluatedAndFire) :
    type_of% (h.1.1 (zo 3 { (zr 0 0x01 (fun r => { r with armed := true })) with normal := [1023] }) 38 .clean 1023 (by decide +kernel) (by decide +kernel) (by decide +kernel) (by decide +kernel)) ∧
    type_of% (h.1.1 { (zr 1 0x02 (fun r => { r with armed := true })) with express := [1023] } 38 .clean 1023 (by decide +kernel) (by decide +kernel) (by decide +kernel) (by decide +kernel)) ∧
    type_of% (h.1.1 { (zr 2 0x02 (fun r => { r with armed := true, result := true })) with express := [1023] } 38 .clean 1023 (by decide +kernel) (by decide +kernel) (by decide +kernel) (by decide +kernel)) ∧
    type_of% (h.1.2.1 { (zr 0 0x01 (fun r => { r with armed := true })) with normal := [1023] } 0 1023 3 1 (by decide +kernel) (by decide +kernel) (by decide +kernel)) ∧
    type_of% (h.1.2.2.1 (tk 1000000 (zr 3 0 (fun r => { r with armed := true, result := true }))) 1023 (by decide +kernel) (by decide +kernel) (by decide +kernel) (by decide +kernel) (show _ from by decide +kernel)) ∧
    type_of% ((h.1.2.2.2 z 0x80000000).1) ∧
    type_of% ((h.1.2.2.2 z 0x80000000).2) ∧
    type_of% ((h.2.1 (zm 0x14 1 2 3 0xC1FFC1FF z) 1023 .clean (by decide +kernel) (by decide +kernel) (by decide +kernel)).1 (by decide +kernel) (by decide +kernel)) ∧
    type_of% ((h.2.1 (zm 0x14 0x200 2 3 4 z) 1023 .clean (by decide +kernel) (by decide +kernel) (by decide +kernel)).2.1 (by decide +kernel) (by decide +kernel) (.loadTermsB 1023) (by decide +kernel)) ∧
    type_of% (((h.2.1 (zm 0x14 0x8000 2 1 4 z) 1023 .clean (by decide +kernel) (by decide +kernel) (by decide +kernel)).2.2.1 (by decide +kernel)).1 (by decide +kernel) (by decide +kernel)) ∧
    type_of% (((h.2.1 (zm 0x14 0x8000 2 1 4 { z with rules := (List.range 512).map fun n => (n, { Rule.init with ctrl := 0x8000 }) }) 1023 .clean (by decide +kernel) (by decide +kernel) (by decide +kernel)).2.2.1 (by decide +kernel)).2.2 (by decide +kernel) (by decide +kernel)) ∧
    type_of% (((h.2.1 (zm 0x14 0x10000 2 3 4 z) 1023 .clean (by decide +kernel) (by decide +kernel) (by decide +kernel)).2.2.1 (by decide +kernel)).2.1 (by decide +kernel)) ∧
    type_of% (((h.2.1 (zm 0x14 0x0000 2 0x03 4 z) 1023 .clean (by decide +kernel) (by decide +kernel) (by decide +kernel)).2.2.1 (by decide +kernel)).2.1 (by decide +kernel)) ∧
    type_of% ((h.2.1 (zr 0 0 (fun r => { r with armed := true })) 1023 .clean (by decide +kernel) (by decide +kernel) (by decide +kernel)).2.2.2.1 (by decide +kernel) (.rfxClear 1023) (by decide +kernel)) ∧
    type_of% ((h.2.1 (zr 0 0 id) 1023 .clean (by decide +kernel) (by decide +kernel) (by decide +kernel)).2.2.2.2.1 (by decide +kernel) (by decide +kernel)) ∧
    type_of% ((h.2.1 (zr 0 0 (fun r => { r with eccBar := true })) 1023 .clean (by decide +kernel) (by decide +kernel) (by decide +kernel)).2.2.2.2.2.1 (by decide +kernel)) ∧
    type_of% ((h.2.1 { (zr 0 0 (fun r => { r with armed := true })) with normal := [1023] } 1023 .clean (by decide +kernel) (by decide +kernel) (by decide +kernel)).2.2.2.2.2.2.1) ∧
    type_of% ((h.2.1 (zr 0 0 id) 1023 .clean (by decide +kernel) (by decide +kernel) (by decide +kernel)).2.2.2.2.2.2.2.1) ∧
    type_of% ((h.2.1 (zr 0 0 id) 1023 .clean (by decide +kernel) (by decide +kernel) (by decide +kernel)).2.2.2.2.2.2.2.2.1) ∧
    type_of% ((h.2.1 (zr 0 0 id) 1023 (.corrected 1 1) (by decide +kernel) (by decide +kernel) (by decide +kernel)).2.2.2.2.2.2.2.2.2.1) ∧
    type_of% ((h.2.1 (zr 0 0 (fun r => { r with result := true })) 1023 .clean (by decide +kernel) (by decide +kernel) (by decide +kernel)).2.2.2.2.2.2.2.2.2.2 (by decide +kernel)) ∧
    type_of% (h.2.2.1 z 1024 bad (.rfxDisarm 1024) (by decide +kernel) (by decide +kernel) (by decide +kernel)) ∧
    type_of% (h.2.2.2 (zr 0 0 id) 1023 3 1 (.readAct 1023 bad) (by decide +kernel) (by decide +kernel) (by decide +kernel)) :=
  ⟨h.1.1 (zo 3 { (zr 0 0x01 (fun r => { r with armed := true })) with normal := [1023] }) 38 .clean 1023 (by decide +kernel) (by decide +kernel) (by decide +kernel) (by decide +kernel),
   h.1.1 { (zr 1 0x02 (fun r => { r with armed := true })) with express := [1023] } 38 .clean 1023 (by decide +kernel) (by decide +kernel) (by decide +kernel) (by decide +kernel),
   h.1.1 { (zr 2 0x02 (fun r => { r with armed := true, result := true })) with express := [1023] } 38 .clean 1023 (by decide +kernel) (by decide +kernel) (by decide +kernel) (by decide +kernel),
   answers_next (by decide +kernel),
   answers_next (by decide +kernel),
   (h.1.2.2.2 z 0x80000000).1,
   (h.1.2.2.2 z 0x80000000).2,
   ⟨answers_next (by decide +kernel), answers_next (by decide +kernel)⟩,
   (by exact answers_next (by decide +kernel)),
   answers_next (by decide +kernel),
   answers_next (by decide +kernel),
   (by exact answers_next (by decide +kernel)),
   answers_next (by decide +kernel),
   answers_next (by decide +kernel),
   (by exact answers_next (by decide +kernel)),
   answers_next (by decide +kernel),
   answers_next (by decide +kernel),
   (by exact answers_next (by decide +kernel)),
   answers_next (by decide +kernel),
   answers_next (by decide +kernel),
   (by exact answers_next (by decide +kernel)),
   answers_next (by decide +kernel),
   answers_next (by decide +kernel)⟩

theorem witness_SignalsArePublishedAndFollowed (h : Obligations.SignalsArePublishedAndFollowed) :
    type_of% ((h.1.1 (zm 0x15 0x1A2 0x1FFFF 0 0 z) 4094 (by decide +kernel) (by decide +kernel)).1 (by decide +kernel)) ∧
    type_of% ((h.1.1 (zm 0x15 0xB0 0 0 0 z) 4094 (by decide +kernel) (by decide +kernel)).2.1 (by decide +kernel)) ∧
    type_of% ((h.1.1 (zm 0x15 0xFFFFFFFF 0xFFFFFFFF 29 0 (z.setPub 4094 fun p => { p with loaded := true, word := 7 })) 4094 (by decide +kernel) (by decide +kernel)).2.2.1 (by decide +kernel) (by decide +kernel) (by decide +kernel)) ∧
    type_of% ((h.1.1 (zm 0x15 1 0 32 0 z) 4094 (by decide +kernel) (by decide +kernel)).2.2.2.1 (by decide +kernel)) ∧
    type_of% ((h.1.1 (zm 0x15 2 0 0 0 z) 4094 (by decide +kernel) (by decide +kernel)).2.2.2.2 (by decide +kernel) (by decide +kernel)) ∧
    type_of% ((h.1.2.1 (zm 0x15 2 0 0 0 z) 4095 (by decide +kernel) (by decide +kernel)).1 (by decide +kernel) (.setValue 4095) (by decide +kernel)) ∧
    type_of% ((h.1.2.1 (z.setPub 4094 fun p => { p with loaded := true, word := 7, value := 0x100000002 }) 4094 (by decide +kernel) (by decide +kernel)).2.1) ∧
    type_of% ((h.1.2.1 (z.setPub 4094 fun p => { p with loaded := true, word := 7, value := 0x100000002 }) 4094 (by decide +kernel) (by decide +kernel)).2.2) ∧
    type_of% (h.1.2.2.1 z 4096 (.readPubcfg 4096) (by decide +kernel) (by decide +kernel) (by decide +kernel)) ∧
    type_of% (h.1.2.2.2 (tk 6250 z) (by decide +kernel)) ∧
    type_of% ((h.2.1 (zm 0x15 0x0FFFFFFF 0x1FF04 0 0 z) 8191 (by decide +kernel) (by decide +kernel)).1 (by decide +kernel) (by decide +kernel) (by decide +kernel)) ∧
    type_of% ((h.2.1 (zm 0x15 0 0xBF01 0 0 z) 8191 (by decide +kernel) (by decide +kernel)).2.1 (by decide +kernel)) ∧
    type_of% ((h.2.1 (zm 0x15 5 0x0004 0 0 { z with subs := [(0, { SubEnt.init with id := 9, word := 4 })] }) 8191 (by decide +kernel) (by decide +kernel)).2.2.1 (by decide +kernel) (by decide +kernel)) ∧
    type_of% ((h.2.1 (zm 0x15 9 0x1FF04 0 0 { z with subs := [(0, { SubEnt.init with id := 9, word := 4 })] }) 8191 (by decide +kernel) (by decide +kernel)).2.2.2.1 (by decide +kernel) (by decide +kernel) (by decide +kernel)) ∧
    type_of% ((h.2.1 { z with subs := sub1 4 (fun e => { e with count := 3, value := 1, quality := 1 }) } 8191 (by decide +kernel) (by decide +kernel)).2.2.2.2.1) ∧
    type_of% ((h.2.1 { z with subs := sub1 4 id } 8191 (by decide +kernel) (by decide +kernel)).2.2.2.2.2.1) ∧
    type_of% ((h.2.1 { z with subs := sub1 0x105 id, sigOps := [1, 2] } 8191 (by decide +kernel) (by decide +kernel)).2.2.2.2.2.2) ∧
    type_of% (h.2.2.1 (zo 3 (zs (sigD [0, 0] 7) [])) (sigD [0, 0] 7) [] (by decide +kernel) (by decide +kernel)) ∧
    type_of% ((h.2.2.2.1 (zs (sigD ([1, 0] ++ (rec1 0 7 1).bytes) 7) []) (sigD ([1, 0] ++ (rec1 0 7 1).bytes) 7) [] (rec1 0 7 1) (by decide +kernel) (by decide +kernel) (by decide +kernel)).1 (by decide +kernel)) ∧
    type_of% (((h.2.2.2.1 (zs (sigD ([1, 0] ++ (rec1 0 7 1).bytes) 7) (sub1 5 id)) (sigD ([1, 0] ++ (rec1 0 7 1).bytes) 7) [] (rec1 0 7 1) (by decide +kernel) (by decide +kernel) (by decide +kernel)).2 8191 (by decide +kernel)).1 (by decide +kernel)) ∧
    type_of% (((h.2.2.2.1 (zs (sigD ([1, 0] ++ (rec1 0 7 1).bytes) 7) (sub1 4 id)) (sigD ([1, 0] ++ (rec1 0 7 1).bytes) 7) [] (rec1 0 7 1) (by decide +kernel) (by decide +kernel) (by decide +kernel)).2 8191 (by decide +kernel)).2.1 (by decide +kernel) (by decide +kernel) (by decide +kernel)) ∧
    type_of% (((h.2.2.2.1 (zs (sigD ([1, 0] ++ (rec1 0 7 1).bytes) 7) (sub1 4 (fun e => { e with reached := true, time := ⟨9, 6⟩ }))) (sigD ([1, 0] ++ (rec1 0 7 1).bytes) 7) [] (rec1 0 7 1) (by decide +kernel) (by decide +kernel) (by decide +kernel)).2 8191 (by decide +kernel)).2.2 (by decide +kernel) (by decide +kernel) (by decide +kernel) (by decide +kernel)) ∧
    type_of% (h.2.2.2.2 (tk 102400000 { z with subs := sub1 0x24 (fun e => { e with hb := 10 }) }) 8191 (by decide +kernel) (by decide +kernel) (by decide +kernel) (by decide +kernel) (show _ from by decide +kernel)) :=
  ⟨(h.1.1 (zm 0x15 0x1A2 0x1FFFF 0 0 z) 4094 (by decide +kernel) (by decide +kernel)).1 (by decide +kernel),
   answers_next (by decide +kernel),
   answers_next (by decide +kernel),
   (by exact answers_next (by decide +kernel)),
   answers_next (by decide +kernel),
   answers_next (by decide +kernel),
   (by exact answers_next (by decide +kernel)),
   answers_next (by decide +kernel),
   answers_next (by decide +kernel),
   h.1.2.2.2 (tk 6250 z) (by decide +kernel),
   (h.2.1 (zm 0x15 0x0FFFFFFF 0x1FF04 0 0 z) 8191 (by decide +kernel) (by decide +kernel)).1 (by decide +kernel) (by decide +kernel) (by decide +kernel),
   (by exact answers_next (by decide +kernel)),
   answers_next (by decide +kernel),
   answers_next (by decide +kernel),
   (by exact answers_next (by decide +kernel)),
   answers_next (by decide +kernel),
   answers_next (by decide +kernel),
   (by exact answers_next (by decide +kernel)),
   answers_next (by decide +kernel),
   answers_next (by decide +kernel),
   (by exact answers_next (by decide +kernel)),
   answers_next (by decide +kernel),
   answers_next (by decide +kernel)⟩

end Rules

/-! ### Links: frames, links, the ring -/

namespace Links

/-- Port `p` in link state `st`; node ID 0x0102 in use on the home side. -/
abbrev zL (p st : Nat) : State :=
  { z with
    regs := [(Reg.ptpClockIdHi, 1), (Reg.ptpClockIdLo, 1), (Reg.ringNodeId, 0x0102)],
    net := { z.net with quiet := none, links := [(p, { LinkSt.init with st := st })] },
    ring := { z.ring with home := { z.ring.home with active := true, st := 1 } } }
/-- A native unicast frame of class 4 and type `ty` from `src` to `dst`, its PATH bit `path`. -/
abbrev fr (ty src dst : Nat) (path : Bool) : List Byte := nativeFrame 4 ty src dst false path false 9 [1, 2, 3, 4]
abbrev qf (p : Place) : QFrame := ⟨fr 2 7 8 true, 4, 1, p, true, false, 4, none, none, false⟩
abbrev zq (p c : Nat) (l : List QFrame) (x : Sending) : State :=
  { (zL p 4) with net := { (zL p 4).net with queues := [(8 * p + c, l)], sending := [(p, x)] } }
abbrev zcp (c : PendingCopy) : State := { z with net := { z.net with copies := [c] } }
/-- DDR4 ready, the overflow store of 1 MiB at 0. -/
abbrev zdd (s : State) : State := ((s.wr (Reg.status 0x0B) 1).wr Reg.bufStoreSize 1).wr Reg.ddrCfg 1
abbrev mg (src : Nat) (p : List Byte) : Delivered := ⟨0, nativeFrame 6 7 src 0xFFFE true true false 9 p, ⟨0, 0⟩⟩
abbrev zg (d : Delivered) (f : RingSide → RingSide) : State :=
  { (zL 0 4) with net := { (zL 0 4).net with toRing := [d] }, ring := { (zL 0 4).ring with home := f (zL 0 4).ring.home } }
abbrev mgB (k fl : Byte) (e : Byte) : List Byte := [k, fl, 0, 0, 0, e, 0, 0, 0, e, 0, 0, 0, 0, 0, 0, 0, 0, 0, 0]
/-- A publish slot whose change of cycle 3 has no frame yet. -/
abbrev zo (s : State) : State :=
  { s.setPub 4094 (fun p => { p with loaded := true, word := 7, value := 3 }) with pubOpen := [⟨4094, 3, 1, 0, ⟨0, 0⟩, 0, false⟩] }
abbrev tk (n : Nat) (s : State) : State := { s with tclks := n }

theorem witness_ReceivedFramesAreCheckedInOrder (h : Obligations.ReceivedFramesAreCheckedInOrder) :
    type_of% (h.1 z 3 ⟨fr 2 7 8 true, .good⟩ (by decide +kernel)) ∧
    type_of% (h.2.1 (zL 3 4) 3 ⟨List.replicate 60 0, .good⟩ (by decide +kernel) (by decide +kernel) (by decide +kernel) (by decide +kernel)) ∧
    type_of% (h.2.1 (zL 0 4) 0 ⟨List.replicate 12 255 ++ [0x88, 0xF7] ++ List.replicate 46 0, .good⟩ (by decide +kernel) (by decide +kernel) (by decide +kernel) (by decide +kernel)) ∧
    type_of% (h.2.2 (zL 0 4) 0 ⟨(fr 2 7 0x0102 true).set 28 0, .good⟩ (by decide +kernel) (by decide +kernel) (by decide +kernel)) ∧
    type_of% (h.2.2 (zL 0 4) 0 ⟨(fr 2 7 0x0102 true) ++ [0], .good⟩ (by decide +kernel) (by decide +kernel) (by decide +kernel)) ∧
    type_of% (h.2.2 (zL 0 4) 0 ⟨fr 2 7 0x0102 false, .good⟩ (by decide +kernel) (by decide +kernel) (by decide +kernel)) ∧
    type_of% (h.2.2 (zL 1 4) 1 ⟨fr 2 0x0102 7 false, .good⟩ (by decide +kernel) (by decide +kernel) (by decide +kernel)) ∧
    type_of% (h.2.2 (zL 0 4) 0 ⟨recheck ((fr 2 7 0x0102 true).set 21 0), .good⟩ (by decide +kernel) (by decide +kernel) (by decide +kernel)) ∧
    type_of% (h.2.2 (zL 0 4) 0 ⟨fr 2 7 0x0102 true, .bad⟩ (by decide +kernel) (by decide +kernel) (by decide +kernel)) ∧
    type_of% (h.2.2 (zL 0 4) 0 ⟨fr 2 7 0x0102 true, .stomped⟩ (by decide +kernel) (by decide +kernel) (by decide +kernel)) ∧
    type_of% (h.2.2 (zL 0 4) 0 ⟨fr 2 7 0x0102 true, .good⟩ (by decide +kernel) (by decide +kernel) (by decide +kernel)) ∧
    type_of% (h.2.2 (did (.frameReceive 0 ⟨fr 2 7 0x0102 true, .good⟩) (zL 0 4)) 0 ⟨fr 2 7 0x0102 true, .good⟩ (by decide +kernel) (by decide +kernel) (by decide +kernel)) :=
  ⟨rfl,
   answers_next (by decide +kernel),
   answers_next (by decide +kernel),
   h.2.2 (zL 0 4) 0 ⟨(fr 2 7 0x0102 true).set 28 0, .good⟩ (by decide +kernel) (by decide +kernel) (by decide +kernel),
   h.2.2 (zL 0 4) 0 ⟨(fr 2 7 0x0102 true) ++ [0], .good⟩ (by decide +kernel) (by decide +kernel) (by decide +kernel),
   h.2.2 (zL 0 4) 0 ⟨fr 2 7 0x0102 false, .good⟩ (by decide +kernel) (by decide +kernel) (by decide +kernel),
   h.2.2 (zL 1 4) 1 ⟨fr 2 0x0102 7 false, .good⟩ (by decide +kernel) (by decide +kernel) (by decide +kernel),
   h.2.2 (zL 0 4) 0 ⟨recheck ((fr 2 7 0x0102 true).set 21 0), .good⟩ (by decide +kernel) (by decide +kernel) (by decide +kernel),
   h.2.2 (zL 0 4) 0 ⟨fr 2 7 0x0102 true, .bad⟩ (by decide +kernel) (by decide +kernel) (by decide +kernel),
   h.2.2 (zL 0 4) 0 ⟨fr 2 7 0x0102 true, .stomped⟩ (by decide +kernel) (by decide +kernel) (by decide +kernel),
   h.2.2 (zL 0 4) 0 ⟨fr 2 7 0x0102 true, .good⟩ (by decide +kernel) (by decide +kernel) (by decide +kernel),
   h.2.2 (did (.frameReceive 0 ⟨fr 2 7 0x0102 true, .good⟩) (zL 0 4)) 0 ⟨fr 2 7 0x0102 true, .good⟩ (by decide +kernel) (by decide +kernel) (by decide +kernel)⟩

theorem witness_LinksMoveThroughTheirStates (h : Obligations.LinksMoveThroughTheirStates) :
    type_of% ((h.1 (zL 3 1) 3 true 0xFFFFFFFF 0xFFFFFFFF (by decide +kernel)).1 (by decide +kernel)) ∧
    type_of% ((h.1 (tk 12500000 (zL 3 1)) 3 true 0xFFFFFFFF 0xFFFFFFFF (by decide +kernel)).2 (by decide +kernel)) ∧
    type_of% ((h.2.1 (zL 3 2) 3 (by decide +kernel)).1 (by decide +kernel)) ∧
    type_of% ((h.2.1 (tk 2500000 (zL 3 2)) 3 (by decide +kernel)).2 (by decide +kernel)) ∧
    type_of% ((h.2.2.1 (tk 2500000 (zL 3 3)) 3 (by decide +kernel)).1 (by decide +kernel)) ∧
    type_of% ((h.2.2.1 (zL 3 3) 3 (by decide +kernel)).2 .signal (some (fr 2 7 8 true)) (by decide +kernel)) ∧
    type_of% (h.2.2.2.1 (zq 3 0 [qf .chip] ⟨some (qf .chip), none, false⟩) 3 .signal none (by decide +kernel) (by decide +kernel)) ∧
    type_of% (h.2.2.2.1 { zL 3 4 with net := { (zL 3 4).net with links := [(3, { LinkSt.init with st := 4, errs := [0, 0] })] }, regs := (Reg.fpErrLimit 3, 1) :: (Reg.fpCfg 3, 0x100) :: (zL 3 4).regs } 3 .degraded none (by decide +kernel) (by decide +kernel)) ∧
    type_of% (h.2.2.2.2.1 (tk 2500000 (zL 3 5)) 3 (by decide +kernel) (by decide +kernel)) ∧
    type_of% ((h.2.2.2.2.2.1 (tk 250000 { z with net := { z.net with dup := ⟨[(7, some ⟨[], false, 0, 0⟩)], 1⟩ } }) 7 ⟨[], false, 0, 0⟩ (by decide +kernel)).1 (by decide +kernel)) ∧
    type_of% ((h.2.2.2.2.2.1 (tk 250000 { z with net := { z.net with headland := ⟨[(7, some ⟨[], false, 0, 0⟩)], 1⟩ } }) 7 ⟨[], false, 0, 0⟩ (by decide +kernel)).2 (by decide +kernel)) ∧
    type_of% (h.2.2.2.2.2.2.1 (tk 25000000 (z.setCheck 0x2B 0x0401 { CheckSt.init with standing := [0] })) 3 0x0401 (by decide +kernel)) ∧
    type_of% (h.2.2.2.2.2.2.2 (z.wr (Reg.fpPrbsErr 3) 77) 3) :=
  ⟨answers_next (by decide +kernel),
   answers_next (by decide +kernel),
   (by exact answers_next (by decide +kernel)),
   answers_next (by decide +kernel),
   answers_next (by decide +kernel),
   (by exact answers_next (by decide +kernel)),
   answers_next (by decide +kernel),
   answers_next (by decide +kernel),
   (by exact answers_next (by decide +kernel)),
   answers_next (by decide +kernel),
   answers_next (by decide +kernel),
   h.2.2.2.2.2.2.1 (tk 25000000 (z.setCheck 0x2B 0x0401 { CheckSt.init with standing := [0] })) 3 0x0401 (by decide +kernel),
   (by exact answers_next (by decide +kernel))⟩

theorem witness_FramesAreTransmittedCopiedAndStored (h : Obligations.FramesAreTransmittedCopiedAndStored) :
    type_of% ((h.1.1 (zo (zq 3 7 [qf .chip, qf .chip] Sending.init)) 3 7 (qf .chip) [qf .chip] (by decide +kernel) (by decide +kernel) (by decide +kernel) (by decide +kernel) (show _ from by decide +kernel)).1 .clean (by decide +kernel)) ∧
    type_of% ((h.1.1 (zq 3 0 [qf .chip] Sending.init) 3 0 (qf .chip) [] (by decide +kernel) (by decide +kernel) (by decide +kernel) (by decide +kernel) (show _ from by decide +kernel)).1 .clean (by decide +kernel)) ∧
    type_of% ((h.1.1 (zq 3 7 [qf .chip] Sending.init) 3 7 (qf .chip) [] (by decide +kernel) (by decide +kernel) (by decide +kernel) (by decide +kernel) (show _ from by decide +kernel)).2 3 1) ∧
    type_of% (h.1.2.1 (zq 3 6 [qf .chip] Sending.init) 3) ∧
    type_of% (h.1.2.2.1 (zq 3 0 [] ⟨some (qf .chip), none, true⟩) 3 .clean (qf .chip) (by decide +kernel) (by decide +kernel) (by decide +kernel) (by decide +kernel) (show _ from by decide +kernel) (by decide +kernel)) ∧
    type_of% ((h.1.2.2.2.1 (zq 3 0 [] ⟨none, some (qf .chip), false⟩) 3 (qf .chip)).1 (by decide +kernel)) ∧
    type_of% ((h.1.2.2.2.1 (zq 3 0 [] ⟨some (qf .chip), none, false⟩) 3 (qf .chip)).2 (by decide +kernel) (by decide +kernel) (by decide +kernel)) ∧
    type_of% (h.1.2.2.2.2.1 ((zq 3 6 [qf .chip] ⟨some (qf .chip), none, false⟩).wr (Reg.fpCfg 3) 0x80) 3 (by decide +kernel) (by decide +kernel) (by decide +kernel) (by decide +kernel) (show _ from by decide +kernel) (by decide +kernel)) ∧
    type_of% (h.1.2.2.2.2.2 (tk 300000 z) 0 (by decide +kernel) (by decide +kernel) (by decide +kernel) (by decide +kernel) (show _ from by decide +kernel)) ∧
    type_of% ((h.2.1 (zcp ⟨qf .chip, 0, none, 0⟩) 0 ⟨qf .chip, 0, none, 0⟩ [] (by decide +kernel)).1 (by decide +kernel)) ∧
    type_of% ((h.2.1 (tk 6400 (zcp ⟨qf .chip, 0, none, 0⟩)) 0 ⟨qf .chip, 0, none, 0⟩ [] (by decide +kernel)).2.1 (by decide +kernel) (by decide +kernel)) ∧
    type_of% ((h.2.1 (tk 25 (zcp ⟨qf .chip, 0, some 3, 0⟩)) 0 ⟨qf .chip, 0, some 3, 0⟩ [] (by decide +kernel)).2.2 3 (by decide +kernel) (by decide +kernel)) ∧
    type_of% ((h.2.2.1 { z with net := { z.net with push := [(7, { PushSt.init with last := some 0 })] } } 7).1 (by decide +kernel)) ∧
    type_of% ((h.2.2.1 (tk 25000 { z with net := { z.net with push := [(7, { PushSt.init with last := some 0, evicted := 2 })] } }) 7).2 (by decide +kernel) (by decide +kernel)) ∧
    type_of% ((h.2.2.2.1 (zdd (zq 7 4 [qf .chip, qf .marked] Sending.init)) 7 4 (qf .marked) (by decide +kernel)).1 (by decide +kernel)) ∧
    type_of% ((h.2.2.2.1 (zq 7 4 [qf .chip, qf .marked] Sending.init) 7 4 (qf .marked) (by decide +kernel)).2 (by decide +kernel)) ∧
    type_of% ((h.2.2.2.2.1 (zq 7 4 [qf .stored] Sending.init) 7 4 (by decide +kernel)).1 .clean (by decide +kernel)) ∧
    type_of% ((h.2.2.2.2.1 (zq 7 4 [qf .stored] Sending.init) 7 4 (by decide +kernel)).2 3 1) ∧
    type_of% (h.2.2.2.2.2.1 (zdd z) 0xFFFFFFFF (by decide +kernel) (by decide +kernel)) ∧
    type_of% (h.2.2.2.2.2.2.1 z true 0x40 (by decide +kernel)) ∧
    type_of% (h.2.2.2.2.2.2.1 (zdd (zq 7 4 [qf .stored] Sending.init)) true 0x40 (by decide +kernel)) ∧
    type_of% ((h.2.2.2.2.2.2.2.1 z 0x00020001).1 (by decide +kernel)) ∧
    type_of% ((h.2.2.2.2.2.2.2.1 z 0x00010002).2.1 (by decide +kernel)) ∧
    type_of% ((h.2.2.2.2.2.2.2.1 (z.wr Reg.bufFloors 0x00020001) 0x00030003).2.2.1 (by decide +kernel) (by decide +kernel)) ∧
    type_of% ((h.2.2.2.2.2.2.2.1 (z.wr Reg.bufFloors 0x00020001) 0x00020002).2.2.2 (by decide +kernel)) ∧
    type_of% ((h.2.2.2.2.2.2.2.2 (z.wr (Reg.ctrl 0x0B) 1) (by decide +kernel) (by decide +kernel) (by decide +kernel)).1) ∧
    type_of% ((h.2.2.2.2.2.2.2.2 (z.wr (Reg.ctrl 0x0B) 1) (by decide +kernel) (by decide +kernel) (by decide +kernel)).2 5) :=
  ⟨answers_next (by decide +kernel),
   answers_next (by decide +kernel),
   (by exact answers_next (by decide +kernel)),
   (by decide +kernel),
   answers_next (by decide +kernel),
   answers_next (by decide +kernel),
   (by exact answers_next (by decide +kernel)),
   answers_next (by decide +kernel),
   answers_next (by decide +kernel),
   (by exact answers_next (by decide +kernel)),
   answers_next (by decide +kernel),
   answers_next (by decide +kernel),
   rfl,
   (by exact answers_next (by decide +kernel)),
   answers_next (by decide +kernel),
   answers_next (by decide +kernel),
   (by exact answers_next (by decide +kernel)),
   answers_next (by decide +kernel),
   ⟨answers_next (by decide +kernel), answers_next (by decide +kernel)⟩,
   rfl,
   rfl,
   answers_next (by decide +kernel),
   (by exact answers_next (by decide +kernel)),
   answers_next (by decide +kernel),
   answers_next (by decide +kernel),
   (by exact answers_next (by decide +kernel)),
   answers_next (by decide +kernel)⟩

theorem witness_NodeIdsAreActivatedAndSupervisionIsSent (h : Obligations.NodeIdsAreActivatedAndSupervisionIsSent) :
    type_of% (h.1 (z.wr Reg.ringIdCfg 0x80000102) 0x80000105) ∧
    type_of% (h.1 (z.wr Reg.ringIdCfg 0x80000102) 0x105) ∧
    type_of% (h.1 z 0xFFFFFFFF) ∧
    type_of% (h.1 z 0x00000105) ∧
    type_of% (h.2.1 (z.wr Reg.ringFarId 0x80000102) 0x80000105) ∧
    type_of% (h.2.1 (z.wr Reg.ringFarId 0x80000102) 0x105) ∧
    type_of% (h.2.1 z 0xFFFFFFFF) ∧
    type_of% (h.2.1 z 0x00000105) ∧
    type_of% ((h.2.2.1 (tk 300000 ({ z with ring := { z.ring with home := { z.ring.home with idPending := true } } }.wr Reg.ringIdCfg 0xC0000102))).1 (by decide +kernel) (by decide +kernel)) ∧
    type_of% ((h.2.2.1 (tk 300000 ({ z with ring := { z.ring with far := { z.ring.far with idPending := true } } }.wr Reg.ringFarId 0x80000102))).2 (by decide +kernel) (by decide +kernel)) ∧
    type_of% (h.2.2.2.1 { (zL 1 4) with ring := { (zL 1 4).ring with neighbourAt := some 0 } } (by decide +kernel)) ∧
    type_of% (h.2.2.2.2.1 (zL 1 4) 1 (by decide +kernel) (by decide +kernel) (by decide +kernel) (by decide +kernel) (show _ from by decide +kernel)) ∧
    type_of% (h.2.2.2.2.2.1 { (zL 0 4) with ring := { (zL 0 4).ring with home := { (zL 0 4).ring.home with sent := true } } } false (by decide +kernel) (by decide +kernel) (by decide +kernel)) ∧
    type_of% ((h.2.2.2.2.2.2 (z.wr Reg.ringCfg 1)).2 (by decide +kernel)) ∧
    type_of% (((h.2.2.2.2.2.2 { (z.wr Reg.ringCfg 1) with net := { z.net with quiet := none } }).1 (by decide +kernel) (by decide +kernel)).1 (by decide +kernel)) ∧
    type_of% (((h.2.2.2.2.2.2 { (z.wr Reg.ringCfg 0x200) with net := { z.net with quiet := none } }).1 (by decide +kernel) (by decide +kernel)).2 (by decide +kernel) (by decide +kernel)) :=
  ⟨h.1 (z.wr Reg.ringIdCfg 0x80000102) 0x80000105,
   h.1 (z.wr Reg.ringIdCfg 0x80000102) 0x105,
   h.1 z 0xFFFFFFFF,
   h.1 z 0x00000105,
   h.2.1 (z.wr Reg.ringFarId 0x80000102) 0x80000105,
   h.2.1 (z.wr Reg.ringFarId 0x80000102) 0x105,
   h.2.1 z 0xFFFFFFFF,
   h.2.1 z 0x00000105,
   answers_next (by decide +kernel),
   answers_next (by decide +kernel),
   rfl,
   h.2.2.2.2.1 (zL 1 4) 1 (by decide +kernel) (by decide +kernel) (by decide +kernel) (by decide +kernel) (show _ from by decide +kernel),
   (by exact answers_next (by decide +kernel)),
   rfl,
   answers_next (by decide +kernel),
   answers_next (by decide +kernel)⟩

theorem witness_TheRingHearsItsNeighboursAndBreaks (h : Obligations.TheRingHearsItsNeighboursAndBreaks) :
    type_of% (h.1 (zg (mg 0x0107 [9]) id) (mg 0x0107 [9]) [] (by decide +kernel)) ∧
    type_of% (h.1 (zg (mg 0x0102 (mgB 1 0x20 0)) id) (mg 0x0102 (mgB 1 0x20 0)) [] (by decide +kernel)) ∧
    type_of% (h.1 (zg (mg 0x0102 (mgB 1 0x20 2)) id) (mg 0x0102 (mgB 1 0x20 2)) [] (by decide +kernel)) ∧
    type_of% (h.1 (zg (mg 0x0102 (mgB 2 0x20 1)) (fun r => { r with sent := true, sentSeq := 9, backEast := true })) (mg 0x0102 (mgB 2 0x20 1)) [] (by decide +kernel)) ∧
    type_of% (h.1 (zg (mg 0x0102 (mgB 2 0x20 1)) (fun r => { r with sent := true, sentSeq := 9 })) (mg 0x0102 (mgB 2 0x20 1)) [] (by decide +kernel)) ∧
    type_of% (h.1 (zg (mg 0x0107 (mgB 1 0x20 2)) id) (mg 0x0107 (mgB 1 0x20 2)) [] (by decide +kernel)) ∧
    type_of% (h.1 (zg (mg 0x0107 (mgB 2 0x20 2)) id) (mg 0x0107 (mgB 2 0x20 2)) [] (by decide +kernel)) ∧
    type_of% (h.1 (zg (mg 0x0107 (mgB 3 0x20 2)) id) (mg 0x0107 (mgB 3 0x20 2)) [] (by decide +kernel)) ∧
    type_of% (h.2.1 (tk 75000 (zL 1 4)) 1 (by decide +kernel) (by decide +kernel) (by decide +kernel) (by decide +kernel)) ∧
    type_of% (h.2.1 (tk 75000 (zL 0 4)) 1 (by decide +kernel) (by decide +kernel) (by decide +kernel) (by decide +kernel)) ∧
    type_of% (h.2.2.1 (tk 25000000 { z with ring := { z.ring with stations := [255] } }) 255 (by decide +kernel)) ∧
    type_of% (h.2.2.2 (tk 25000000 (zg (mg 0 []) (fun r => { r with missed := 1, sent := true, sentAt := some 0 }))) false (by decide +kernel) (by decide +kernel)) :=
  ⟨h.1 (zg (mg 0x0107 [9]) id) (mg 0x0107 [9]) [] (by decide +kernel),
   h.1 (zg (mg 0x0102 (mgB 1 0x20 0)) id) (mg 0x0102 (mgB 1 0x20 0)) [] (by decide +kernel),
   h.1 (zg (mg 0x0102 (mgB 1 0x20 2)) id) (mg 0x0102 (mgB 1 0x20 2)) [] (by decide +kernel),
   h.1 (zg (mg 0x0102 (mgB 2 0x20 1)) (fun r => { r with sent := true, sentSeq := 9, backEast := true })) (mg 0x0102 (mgB 2 0x20 1)) [] (by decide +kernel),
   h.1 (zg (mg 0x0102 (mgB 2 0x20 1)) (fun r => { r with sent := true, sentSeq := 9 })) (mg 0x0102 (mgB 2 0x20 1)) [] (by decide +kernel),
   h.1 (zg (mg 0x0107 (mgB 1 0x20 2)) id) (mg 0x0107 (mgB 1 0x20 2)) [] (by decide +kernel),
   h.1 (zg (mg 0x0107 (mgB 2 0x20 2)) id) (mg 0x0107 (mgB 2 0x20 2)) [] (by decide +kernel),
   h.1 (zg (mg 0x0107 (mgB 3 0x20 2)) id) (mg 0x0107 (mgB 3 0x20 2)) [] (by decide +kernel),
   answers_next (by decide +kernel),
   answers_next (by decide +kernel),
   (by exact answers_next (by decide +kernel)),
   answers_next (by decide +kernel)⟩

end Links

/-! ### Crossbar: XBR -/

namespace Crossbar

abbrev rq (k : ReqKind) (len : Nat) (d : List Byte) : XReq := ⟨1, 0x0107, k, 0x1000000, len, d, 0⟩
abbrev zX (f : XbrSt → XbrSt) : State := { (z.wr Reg.ringNodeId 0x0102) with xbr := f z.xbr }
abbrev op1 (b : Bool) : OpenReq := ⟨⟨rq .read 4 [], false, 7⟩, 0, none, if b then 1 else 0, b, some ⟨0, 0⟩, some ⟨0, 0⟩, ⟨0, 0⟩⟩
abbrev tg (b : Bool) (x : XbrSt) : XbrSt := { x with tags := [(256, ⟨3, some (op1 b)⟩)] }
/-- A transaction body: op or status, requester code, tag, stream position, epoch byte, address in SRAM, length and data. -/
abbrev bd (op code : Nat) (tag oseq ep len : Nat) (d : List Byte) : List Byte :=
  beBytes 1 op ++ beBytes 1 code ++ beBytes 2 tag ++ beBytes 2 oseq ++ beBytes 1 (16 * ep) ++ [0] ++ beBytes 6 0x1000000 ++ beBytes 2 len ++ d
abbrev xd (b : List Byte) : Delivered := ⟨0, nativeFrame 2 2 0x0107 0x0102 false true false 9 b, ⟨0, 0⟩⟩
abbrev zD (d : Delivered) (l : Tab (Option Order)) : State :=
  { (zX id) with net := { z.net with toXbr := [d] }, xbr := { z.xbr with orders := l } }
abbrev inr (b : List Byte) : InReq := ⟨0x0102, 2, b, true, true, 0⟩
abbrev po (b : List Byte) : PostReq := ⟨0x0107, b, true, 0, false⟩
abbrev zP (b : List Byte) : State := zX fun x => { x with posts := [po b] }
abbrev rdE : CacheEnt := ⟨0x0107, 2, 3, 5, 0, true, 0x1000000, [1], none, false, false, ⟨0, 0⟩⟩
abbrev rcd (st : Nat) : List Byte := [0x50000000, 1, 2, 0x01070000, 2 ^ 28 * st, 5, 6, 7].flatMap (beBytes 4)
abbrev zev (b : List Byte) : State := { z with net := { z.net with toEvq := [xd b] } }
/-- The state 100,000 s later. -/
abbrev hr (s : State) : State := { s with time := { s.time with sec := 100000 } }
abbrev ord (e n : Nat) (l : List HeldPlace) : Order := ⟨e, n, l, ⟨0, 0⟩, false⟩
abbrev cpl (b : List Byte) : ComplReq := ⟨0x0107, b, 0⟩
/-- A read of CH0's FUNC register. -/
abbrev rch : InReq := inr ((bd 1 1 5 0 0 4 []).take 8 ++ beBytes 6 (Reg.chFunc 0) ++ (bd 1 1 5 0 0 4 []).drop 14)
abbrev zrch : State := zX fun x => { x with inq := [rch] }

theorem witness_RequestsAreIssuedRetriedAndEnded (h : Obligations.RequestsAreIssuedRetriedAndEnded) :
    type_of% ((h.1 z ⟨6, 0x0107, .read, 0x1000000, 4, [], 0⟩ 7).1 (by decide +kernel)) ∧
    type_of% ((h.1 z (rq .message 4 [1, 2, 3, 4]) 7).2 (by decide +kernel)) ∧
    type_of% ((h.1 (zX id) (rq .message 4 [1, 2, 3, 4]) 7).2 (by decide +kernel)) ∧
    type_of% ((h.1 (zX id) (rq .read 4 []) 7).2 (by decide +kernel)) ∧
    type_of% ((h.1 ((zX id).wr (Reg.xbrReqCfg 1) 0x100) (rq .write 4 [1, 2, 3, 4]) 7).2 (by decide +kernel)) ∧
    type_of% ((h.1 (zX fun x => { x with stalled := [⟨rq .read 4 [], false, 3⟩] }) (rq .read 4 []) 7).2 (by decide +kernel)) ∧
    type_of% (h.2.1 (zX fun x => { x with stalled := [⟨rq .read 4 [], false, 3⟩] }) ⟨rq .read 4 [], false, 3⟩ 256 (by decide +kernel)) ∧
    type_of% ((h.2.2.1 (hr (zX (tg false))) 256 (op1 false) (by decide +kernel)).1 (by decide +kernel)) ∧
    type_of% ((h.2.2.1 (hr (zX (tg true))) 256 (op1 true) (by decide +kernel)).2.1 (by decide +kernel) (by decide +kernel)) ∧
    type_of% ((h.2.2.1 (hr (zX (tg false))) 256 (op1 false) (by decide +kernel)).2.2 (by decide +kernel)) ∧
    type_of% (((h.2.2.2 (zX fun x => { (tg false x) with compl := [cpl (bd 3 1 (3 * 1024 + 256) 0 0 0 [])] }) (cpl (bd 3 1 (3 * 1024 + 256) 0 0 0 [])) (by decide +kernel)).1 (op1 false) (by decide +kernel) (by decide +kernel) (by decide +kernel)).1 (by decide +kernel)) ∧
    type_of% (((h.2.2.2 (zX fun x => { (tg false x) with compl := [cpl (bd 0 1 (3 * 1024 + 256) 0 0 4 [1, 2, 3, 4])] }) (cpl (bd 0 1 (3 * 1024 + 256) 0 0 4 [1, 2, 3, 4])) (by decide +kernel)).1 (op1 false) (by decide +kernel) (by decide +kernel) (by decide +kernel)).2 (by decide +kernel) (by decide +kernel) (by decide +kernel)) ∧
    type_of% ((h.2.2.2 (zX fun x => { x with compl := [cpl (bd 0 1 (3 * 1024 + 256) 0 0 0 [])] }) (cpl (bd 0 1 (3 * 1024 + 256) 0 0 0 [])) (by decide +kernel)).2 (fun o e => nomatch e)) :=
  ⟨rfl,
   (h.1 z (rq .message 4 [1, 2, 3, 4]) 7).2 (by decide +kernel),
   (h.1 (zX id) (rq .message 4 [1, 2, 3, 4]) 7).2 (by decide +kernel),
   (h.1 (zX id) (rq .read 4 []) 7).2 (by decide +kernel),
   (h.1 ((zX id).wr (Reg.xbrReqCfg 1) 0x100) (rq .write 4 [1, 2, 3, 4]) 7).2 (by decide +kernel),
   (h.1 (zX fun x => { x with stalled := [⟨rq .read 4 [], false, 3⟩] }) (rq .read 4 []) 7).2 (by decide +kernel),
   answers_next (by decide +kernel),
   answers_next (by decide +kernel),
   (by exact answers_next (by decide +kernel)),
   answers_next (by decide +kernel),
   answers_next (by decide +kernel),
   (by exact answers_next (by decide +kernel)),
   answers_next (by decide +kernel)⟩

theorem witness_TargetsExecuteReleasedFrames (h : Obligations.TargetsExecuteReleasedFrames) :
    type_of% (h.1 (zD (xd [1, 2]) []) (xd [1, 2]) [] (by decide +kernel)) ∧
    type_of% (h.1 (zD (xd (bd 1 1 5 4 2 4 [])) []) (xd (bd 1 1 5 4 2 4 [])) [] (by decide +kernel)) ∧
    type_of% (h.1 (zD (xd (bd 1 1 5 4 2 4 [])) [(0x0107, some (ord 2 5 []))]) (xd (bd 1 1 5 4 2 4 [])) [] (by decide +kernel)) ∧
    type_of% (h.1 (zD (xd (bd 1 1 5 7 2 4 [])) [(0x0107, some (ord 2 5 []))]) (xd (bd 1 1 5 7 2 4 [])) [] (by decide +kernel)) ∧
    type_of% (h.1 (zD (xd (bd 1 1 5 7 2 4 [])) [(0x0107, some (ord 3 5 []))]) (xd (bd 1 1 5 7 2 4 [])) [] (by decide +kernel)) ∧
    type_of% ((h.2.1 (hr (zX fun x => { x with orders := [(0x0107, some (ord 2 5 []))] })) 0x0107 (ord 2 5 []) (by decide +kernel)).1 (by decide +kernel) (by decide +kernel)) ∧
    type_of% ((h.2.1 (hr (zX fun x => { x with orders := [(0x0107, some (ord 2 5 [⟨7, some ⟨2, 2, [1]⟩, ⟨0, 0⟩⟩]))] })) 0x0107 (ord 2 5 [⟨7, some ⟨2, 2, [1]⟩, ⟨0, 0⟩⟩]) (by decide +kernel)).2 ⟨7, some ⟨2, 2, [1]⟩, ⟨0, 0⟩⟩ (by decide +kernel) (by decide +kernel)) ∧
    type_of% ((h.2.2.1 (zX fun x => { x with inq := [inr (bd 1 1 5 0 0 4 [])] }) .clean (inr (bd 1 1 5 0 0 4 [])) [] (by decide +kernel) (by decide +kernel)).2.2 (by decide +kernel) (by decide +kernel)) ∧
    type_of% ((h.2.2.1 (zX fun x => { x with inq := [inr (bd 1 1 5 0 0 4 [])], cache := List.replicate 1024 ⟨1, 2, 1, 0, 0, false, 0, [], none, false, true, ⟨0, 0⟩⟩ }) .clean (inr (bd 1 1 5 0 0 4 [])) [] (by decide +kernel) (by decide +kernel)).1 (by decide +kernel)) ∧
    type_of% (((h.2.2.1 zrch .clean rch [] (by decide +kernel) (by decide +kernel)).2.1 (by decide +kernel) (zrch.tileWake 0) (by decide +kernel)).1) ∧
    type_of% ((h.2.2.2.1 (zX id) (inr (bd 1 1 5 0 0 4 [])) (by decide +kernel) (by decide +kernel) (by decide +kernel) (by decide +kernel)).1 (by decide +kernel)) ∧
    type_of% ((h.2.2.2.1 (zX id) (inr (bd 2 1 5 0 0 4 [1, 2, 3, 4])) (by decide +kernel) (by decide +kernel) (by decide +kernel) (by decide +kernel)).2.1 (by decide +kernel)) ∧
    type_of% ((h.2.2.2.1 (zX id) (inr (bd 3 1 5 0 0 4 [1, 2, 3, 4])) (by decide +kernel) (by decide +kernel) (by decide +kernel) (by decide +kernel)).2.2 (by decide +kernel)) ∧
    type_of% (h.2.2.2.2.1 (zP (bd 1 8 5 0 0 4 [1, 2, 3, 4])) (po (bd 1 8 5 0 0 4 [1, 2, 3, 4])) .clean (by decide +kernel)) ∧
    type_of% (h.2.2.2.2.1 (zP (bd 4 8 5 0 0 4 [1, 2, 3, 4])) (po (bd 4 8 5 0 0 4 [1, 2, 3, 4])) .clean (by decide +kernel)) ∧
    type_of% (h.2.2.2.2.2.1 (zP (bd 2 8 5 0 0 4 [1, 2, 3, 4])) (po (bd 2 8 5 0 0 4 [1, 2, 3, 4])) (by decide +kernel) (by decide +kernel)) ∧
    type_of% (h.2.2.2.2.2.1 ((zP (bd 2 8 5 0 0 4 [1, 2, 3, 4])).setXbr fun x => { x with msgs := List.replicate 256 (0, 0) }) (po (bd 2 8 5 0 0 4 [1, 2, 3, 4])) (by decide +kernel) (by decide +kernel)) ∧
    type_of% (h.2.2.2.2.2.2.1 (zP (bd 3 3 5 0 0 0 [])) (po (bd 3 3 5 0 0 0 [])) (by decide +kernel) (by decide +kernel)) ∧
    type_of% (h.2.2.2.2.2.2.1 ((zP (bd 3 3 5 0 0 0 [])).setXbr fun x => { x with cache := [rdE] }) (po (bd 3 3 5 0 0 0 [])) (by decide +kernel) (by decide +kernel)) ∧
    type_of% (h.2.2.2.2.2.2.2.1 (hr (zX fun x => { x with cache := [rdE] })) 0x0107 3 5) ∧
    type_of% (h.2.2.2.2.2.2.2.2.1 (zev (rcd 7)) (xd (rcd 7)) (by decide +kernel)) ∧
    type_of% (h.2.2.2.2.2.2.2.2.2.1 (zev (rcd 2)) (xd (rcd 2)) (by decide +kernel)) ∧
    type_of% (h.2.2.2.2.2.2.2.2.2.2.1 z) ∧
    type_of% (h.2.2.2.2.2.2.2.2.2.2.1 (zX fun x => { x with msgs := [(1, 2), (3, 4)], msgHalf := true })) ∧
    type_of% (h.2.2.2.2.2.2.2.2.2.2.2.1 (zX fun x => { x with msgUnderrun := true })) ∧
    type_of% (h.2.2.2.2.2.2.2.2.2.2.2.2 (hr (zX fun x => { x with streams := [(7, some ⟨1, 2, ⟨0, 0⟩, false⟩)] })) 7 ⟨1, 2, ⟨0, 0⟩, false⟩ (by decide +kernel) (by decide +kernel)) :=
  ⟨h.1 (zD (xd [1, 2]) []) (xd [1, 2]) [] (by decide +kernel),
   h.1 (zD (xd (bd 1 1 5 4 2 4 [])) []) (xd (bd 1 1 5 4 2 4 [])) [] (by decide +kernel),
   h.1 (zD (xd (bd 1 1 5 4 2 4 [])) [(0x0107, some (ord 2 5 []))]) (xd (bd 1 1 5 4 2 4 [])) [] (by decide +kernel),
   h.1 (zD (xd (bd 1 1 5 7 2 4 [])) [(0x0107, some (ord 2 5 []))]) (xd (bd 1 1 5 7 2 4 [])) [] (by decide +kernel),
   h.1 (zD (xd (bd 1 1 5 7 2 4 [])) [(0x0107, some (ord 3 5 []))]) (xd (bd 1 1 5 7 2 4 [])) [] (by decide +kernel),
   answers_next (by decide +kernel),
   answers_next (by decide +kernel),
   (by exact answers_next (by decide +kernel)),
   (h.2.2.1 (zX fun x => { x with inq := [inr (bd 1 1 5 0 0 4 [])], cache := List.replicate 1024 ⟨1, 2, 1, 0, 0, false, 0, [], none, false, true, ⟨0, 0⟩⟩ }) .clean (inr (bd 1 1 5 0 0 4 [])) [] (by decide +kernel) (by decide +kernel)).1 (by decide +kernel),
   rfl,
   (by decide +kernel),
   (by decide +kernel),
   (by decide +kernel),
   h.2.2.2.2.1 (zP (bd 1 8 5 0 0 4 [1, 2, 3, 4])) (po (bd 1 8 5 0 0 4 [1, 2, 3, 4])) .clean (by decide +kernel),
   h.2.2.2.2.1 (zP (bd 4 8 5 0 0 4 [1, 2, 3, 4])) (po (bd 4 8 5 0 0 4 [1, 2, 3, 4])) .clean (by decide +kernel),
   answers_next (by decide +kernel),
   answers_next (by decide +kernel),
   (by exact answers_next (by decide +kernel)),
   answers_next (by decide +kernel),
   h.2.2.2.2.2.2.2.1 (hr (zX fun x => { x with cache := [rdE] })) 0x0107 3 5,
   h.2.2.2.2.2.2.2.2.1 (zev (rcd 7)) (xd (rcd 7)) (by decide +kernel),
   h.2.2.2.2.2.2.2.2.2.1 (zev (rcd 2)) (xd (rcd 2)) (by decide +kernel),
   h.2.2.2.2.2.2.2.2.2.2.1 z,
   h.2.2.2.2.2.2.2.2.2.2.1 (zX fun x => { x with msgs := [(1, 2), (3, 4)], msgHalf := true }),
   answers_next (by decide +kernel),
   h.2.2.2.2.2.2.2.2.2.2.2.2 (hr (zX fun x => { x with streams := [(7, some ⟨1, 2, ⟨0, 0⟩, false⟩)] })) 7 ⟨1, 2, ⟨0, 0⟩, false⟩ (by decide +kernel) (by decide +kernel)⟩

end Crossbar

/-! ### Pair: PLK and the lease -/

namespace Pair

/-- A paired node with PLK UP; its lease `f`. -/
abbrev zK (f : LeaseSt → LeaseSt) : State :=
  { ((z.wr (Reg.ctrl 0x2D) 1).wr Reg.leaseCfg 7) with
    time := { z.time with quality := 0 },
    plk := { z.plk with st := .up, lane0 := true, lane1 := true, echoOut := true }, lease := f z.lease }
abbrev zS (p : PlkState) : State := { z with plk := { z.plk with st := p, lane0 := true, lane1 := true } }
abbrev pm (fl : BitVec 8) (w8 w12 : Word) : PlkMsg := ⟨0, fl, 5, 0x0107, 0, w8, w12, 0, 0⟩
abbrev st (x : LeaseState) : LeaseSt → LeaseSt := fun l => { l with st := x }
abbrev tk (n : Nat) (s : State) : State := { s with tclks := n }

theorem witness_PlkMessagesAreTestedAndUsed (h : Obligations.PlkMessagesAreTestedAndUsed) :
    type_of% ((h.1 (zK (st .taking)) (pm 0x80 0 0) 1 (by decide +kernel) (by decide +kernel) (by decide +kernel) (by decide +kernel)).1 (by decide +kernel)) ∧
    type_of% ((h.1 (zK (st .follower)) (pm 0 0 0) 2 (by decide +kernel) (by decide +kernel) (by decide +kernel) (by decide +kernel)).2.1 (by decide +kernel) (by decide +kernel) (by decide +kernel) (by decide +kernel)) ∧
    type_of% (((h.1 (zK (fun l => { l with st := .holder, ownOut := true })) (pm 0 0 10000) 3 (by decide +kernel) (by decide +kernel) (by decide +kernel) (by decide +kernel)).2.2.1 (by decide +kernel) (by decide +kernel)).1 (by decide +kernel) (by decide +kernel) (by decide +kernel) (by decide +kernel) (show _ from by decide +kernel)) ∧
    type_of% (((h.1 (zK (fun l => { l with st := .holder, ownOut := true })) (pm 0 0 9999) 3 (by decide +kernel) (by decide +kernel) (by decide +kernel) (by decide +kernel)).2.2.1 (by decide +kernel) (by decide +kernel)).2 (by decide +kernel)) ∧
    type_of% (((h.1 (zK (st .follower)) (pm 0 0 10000) 3 (by decide +kernel) (by decide +kernel) (by decide +kernel) (by decide +kernel)).2.2.1 (by decide +kernel) (by decide +kernel)).2 (by decide +kernel)) ∧
    type_of% (((h.1 (zK (fun l => { l with st := .follower, requested := some ⟨0, 10000⟩ })) (pm 0 0 10000) 4 (by decide +kernel) (by decide +kernel) (by decide +kernel) (by decide +kernel)).2.2.2.1 (by decide +kernel) (by decide +kernel) (by decide +kernel) (by decide +kernel)).1 (by decide +kernel) (by decide +kernel)) ∧
    type_of% (((h.1 ((zK (fun l => { l with st := .follower, requested := some ⟨0, 10000⟩ })).wr Reg.leaseFault 1) (pm 0 0 10000) 4 (by decide +kernel) (by decide +kernel) (by decide +kernel) (by decide +kernel)).2.2.2.1 (by decide +kernel) (by decide +kernel) (by decide +kernel) (by decide +kernel)).2 (by decide +kernel)) ∧
    type_of% ((h.1 (zK (fun l => { l with st := .handing, ownOut := true, hand := some ⟨⟨0, 10000⟩, true, none⟩ })) (pm 0 0 10000) 5 (by decide +kernel) (by decide +kernel) (by decide +kernel) (by decide +kernel)).2.2.2.2.1 (by decide +kernel)) ∧
    type_of% ((h.1 (zK (st .follower)) (pm 0 0 0) 6 (by decide +kernel) (by decide +kernel) (by decide +kernel) (by decide +kernel)).2.2.2.2.2.1 (by decide +kernel) 3) ∧
    type_of% ((h.1 (zK (st .follower)) (pm 0 10 0) 7 (by decide +kernel) (by decide +kernel) (by decide +kernel) (by decide +kernel)).2.2.2.2.2.2 (by decide +kernel) (by decide +kernel) 30) ∧
    type_of% (h.2.1 (zS .aligning) (pm 1 0 0) (by decide +kernel) (by decide +kernel) (by decide +kernel) (by decide +kernel)) ∧
    type_of% (h.2.1 (zS .up) (plkSeal { (pm 0 0 0) with kind := 8 }) (by decide +kernel) (by decide +kernel) (by decide +kernel) (by decide +kernel)) ∧
    type_of% (h.2.1 ((zS .up).wr Reg.plkErrLimit 0) (pm 1 0 0) (by decide +kernel) (by decide +kernel) (by decide +kernel) (by decide +kernel)) ∧
    type_of% (h.2.2.1 (zS .hold) true false (by decide +kernel)) ∧
    type_of% (h.2.2.2.1 (tk 250000 (zS .aligning)) (by decide +kernel) (by decide +kernel)) ∧
    type_of% (h.2.2.2.2.1 (tk 25000 (zS .hold)) (by decide +kernel) (by decide +kernel)) ∧
    type_of% ((h.2.2.2.2.2.1 { zS .up with plk := { (zS .up).plk with errs := [0, 0] }, regs := (Reg.plkErrLimit, 1) :: z.regs } (by decide +kernel)).1 .errors (by decide +kernel)) ∧
    type_of% ((h.2.2.2.2.2.1 (tk 25000000 (zS .up)) (by decide +kernel)).2.1 (by decide +kernel)) ∧
    type_of% ((h.2.2.2.2.2.1 (tk 25000000 (zS .up)) (by decide +kernel)).2.2 (by decide +kernel)) ∧
    type_of% (h.2.2.2.2.2.2 (zS .aligning) (by decide +kernel) (by decide +kernel)) :=
  ⟨answers_next (by decide +kernel),
   answers_next (by decide +kernel),
   answers_sent (by decide +kernel),
   answers_sent (by decide +kernel),
   answers_sent (by decide +kernel),
   (by exact answers_next (by decide +kernel)),
   answers_next (by decide +kernel),
   (h.1 (zK (fun l => { l with st := .handing, ownOut := true, hand := some ⟨⟨0, 10000⟩, true, none⟩ })) (pm 0 0 10000) 5 (by decide +kernel) (by decide +kernel) (by decide +kernel) (by decide +kernel)).2.2.2.2.1 (by decide +kernel),
   (h.1 (zK (st .follower)) (pm 0 0 0) 6 (by decide +kernel) (by decide +kernel) (by decide +kernel) (by decide +kernel)).2.2.2.2.2.1 (by decide +kernel) 3,
   answers_next (by decide +kernel),
   (by exact answers_next (by decide +kernel)),
   answers_next (by decide +kernel),
   answers_next (by decide +kernel),
   rfl,
   (by exact answers_next (by decide +kernel)),
   answers_next (by decide +kernel),
   answers_next (by decide +kernel),
   (by exact answers_next (by decide +kernel)),
   answers_sent (by decide +kernel),
   answers_sent (by decide +kernel)⟩

theorem witness_TheLeaseIsTakenHeldAndReleased (h : Obligations.TheLeaseIsTakenHeldAndReleased) :
    type_of% ((h.1 (tk 25000000 (zK (st .follower))) (by decide +kernel) (by decide +kernel)).1 (by decide +kernel) (by decide +kernel) (by decide +kernel)) ∧
    type_of% ((h.1 (tk 25000000 (zK (st .starting))) (by decide +kernel) (by decide +kernel)).2.1 (by decide +kernel) (by decide +kernel) (by decide +kernel)) ∧
    type_of% ((h.1 (zK (fun l => { l with st := .follower, peerOwn := true, expired := true })) (by decide +kernel) (by decide +kernel)).2.2.1 (by decide +kernel) (by decide +kernel) (by decide +kernel)) ∧
    type_of% ((h.1 (zK (st .taking)) (by decide +kernel) (by decide +kernel)).2.2.2.1 (by decide +kernel) (by decide +kernel)) ∧
    type_of% ((h.1 (tk 100 (zK (st .taking))) (by decide +kernel) (by decide +kernel)).2.2.2.2.1 (by decide +kernel) (by decide +kernel) (by decide +kernel)) ∧
    type_of% ((h.1 (tk 250 (zK (fun l => { l with st := .follower, releaseWait := some 0, peerAt := 225 }))) (by decide +kernel) (by decide +kernel)).2.2.2.2.2 0 (by decide +kernel) (by decide +kernel) (by decide +kernel) (by decide +kernel) (show _ from by decide +kernel)) ∧
    type_of% (h.2.1 (tk 10000000000 (zK (fun l => { l with st := .follower, revertAt := some 0 }))) (by decide +kernel) (by decide +kernel) (by decide +kernel)) ∧
    type_of% (h.2.2.1 (tk 25000000 (zK (fun l => { l with st := .follower, peerOwn := true }))) (by decide +kernel) (by decide +kernel) (by decide +kernel)) ∧
    type_of% (h.2.2.2.1 (tk 25000000 (zK (fun l => { l with st := .holder, ownOut := true }))) (by decide +kernel) (by decide +kernel) (by decide +kernel)) ∧
    type_of% (h.2.2.2.2.1 (tk 5 (zK (fun l => { l with st := .holder, ownOut := true, peerOwn := true }))) (by decide +kernel) (by decide +kernel) (by decide +kernel) (by decide +kernel) (show _ from by decide +kernel) (by decide +kernel)) ∧
    type_of% ((h.2.2.2.2.2.1 (zK (fun l => { l with st := .handing, ownOut := true, hand := some ⟨⟨0, 40⟩, true, none⟩ })) ⟨⟨0, 40⟩, true, none⟩ (by decide +kernel) (by decide +kernel)).1 (by decide +kernel) (by decide +kernel) (by decide +kernel)) ∧
    type_of% ((h.2.2.2.2.2.1 (zK (fun l => { l with st := .handing, hand := some ⟨⟨0, 0⟩, false, none⟩ })) ⟨⟨0, 0⟩, false, none⟩ (by decide +kernel) (by decide +kernel)).2.1 (by decide +kernel) (by decide +kernel) (by decide +kernel) (by decide +kernel)) ∧
    type_of% (((h.2.2.2.2.2.1 (tk 25 (zK (fun l => { l with st := .handing, hand := some ⟨⟨0, 0⟩, true, some 0⟩ }))) ⟨⟨0, 0⟩, true, some 0⟩ (by decide +kernel) (by decide +kernel)).2.2 0 (by decide +kernel) (by decide +kernel)).1 (by decide +kernel) (by decide +kernel)) ∧
    type_of% (((h.2.2.2.2.2.1 (tk 25 (zK (fun l => { l with st := .handing, peerOwn := true, hand := some ⟨⟨0, 0⟩, true, some 0⟩ }))) ⟨⟨0, 0⟩, true, some 0⟩ (by decide +kernel) (by decide +kernel)).2.2 0 (by decide +kernel) (by decide +kernel)).2 (by decide +kernel)) ∧
    type_of% ((h.2.2.2.2.2.2.1 (tk 25000 ((zK (fun l => { l with st := .holder, ownOut := true, diffs := [(0, 0)], partner := some { (pm 0 0 0) with vec := 1 } })).wr (Reg.leaseCompareMask 0) 1)) (by decide +kernel)).1 (by decide +kernel) (by decide +kernel) (by decide +kernel)) ∧
    type_of% ((h.2.2.2.2.2.2.1 (tk 25000 ((zK (fun l => { l with st := .holder, ownOut := true, compareFail := true, agreeAt := some 0, partner := some (pm 0 0 0) })))) (by decide +kernel)).2 (by decide +kernel) (by decide +kernel) (by decide +kernel)) ∧
    type_of% (h.2.2.2.2.2.2.2.1 z true) ∧
    type_of% (h.2.2.2.2.2.2.2.1 (z.setLease fun l => { l with ownPinDiffers := true }) false) ∧
    type_of% ((h.2.2.2.2.2.2.2.2 (z.wr Reg.leaseFault 0x3F) 0x3F).1) ∧
    type_of% ((h.2.2.2.2.2.2.2.2 z 0x20).2.1) ∧
    type_of% ((h.2.2.2.2.2.2.2.2 z 0x00020019).2.2) ∧
    type_of% ((h.2.2.2.2.2.2.2.2 z 0x03E81388).2.2) ∧
    type_of% ((h.2.2.2.2.2.2.2.2 z 0x00010001).2.2) ∧
    type_of% ((h.2.2.2.2.2.2.2.2 z 0x03E90001).2.2) ∧
    type_of% ((h.2.2.2.2.2.2.2.2 z 0x0002001A).2.2) :=
  ⟨answers_next (by decide +kernel),
   answers_next (by decide +kernel),
   (by exact answers_next (by decide +kernel)),
   answers_next (by decide +kernel),
   (h.1 (tk 100 (zK (st .taking))) (by decide +kernel) (by decide +kernel)).2.2.2.2.1 (by decide +kernel) (by decide +kernel) (by decide +kernel),
   answers_next (by decide +kernel),
   answers_sent (by decide +kernel),
   (by exact answers_next (by decide +kernel)),
   answers_next (by decide +kernel),
   answers_next (by decide +kernel),
   (by exact answers_next (by decide +kernel)),
   answers_next (by decide +kernel),
   answers_next (by decide +kernel),
   (by exact answers_next (by decide +kernel)),
   answers_next (by decide +kernel),
   answers_next (by decide +kernel),
   (by exact answers_next (by decide +kernel)),
   answers_next (by decide +kernel),
   answers_next (by decide +kernel),
   (by exact answers_next (by decide +kernel)),
   answers_next (by decide +kernel),
   answers_next (by decide +kernel),
   (by exact answers_next (by decide +kernel)),
   answers_next (by decide +kernel),
   answers_next (by decide +kernel)⟩

end Pair

/-! ### Devices: CAN, serial, the host, DMA -/

namespace Devices

/-- CAN controller 15 in state `st`, its working state changed by `f`. -/
abbrev zC (st : Nat) (f : CanSt → CanSt) : State := { (z.wr (Reg.ctrl 0xCF) 1) with cans := [(15, f { CanSt.init with st := st })] }
abbrev cf : CanFrame := ⟨0x123, false, false, 2, [1, 2]⟩
abbrev snd (w : Nat) (x : CanSt) : CanSt := { x with sending := some ⟨w, ⟨0, 5⟩⟩, tec := 8, tries := [(31, 2)] }
/-- Channel 63 running function `f`, its serial state changed by `g`. -/
abbrev zY (f : Word) (g : SerSt → SerSt) : State :=
  { ((z.wr (Reg.ctrl 0xBF) 1).wr (Reg.chFunc 63) f) with serial := [(63, g SerSt.init)] }
abbrev pk (w : Nat) (c : Bool) : FifoPkt := ⟨w, 4 * w, 4 * w, false, 0, c⟩
abbrev pkr (w : Nat) : FifoPkt := ⟨w, 4 * w, 4 * w, true, 1 + w, true⟩
abbrev tx (s : State) (p : FifoPkt) : State := s.setFifo 127 fun f => { f with pkts := [p] }
/-- The host port out of PERST#, its link up. -/
abbrev zH (f : HostSt → HostSt) : State := { (z.wr (Reg.ctrl 0x23) 1) with host := f { z.host with perst := false, up := true } }
abbrev tk (n : Nat) (s : State) : State := { s with tclks := n }
/-- Channel 63 as an I2C controller, SCL and SDA high since the reset. -/
abbrev zI (g : SerSt → SerSt) : State :=
  { zY 5 g with lines := [(252, { LineCell.init with raw := true }), (253, { LineCell.init with raw := true })], tclks := 100000 }
/-- DMA channel 7 reading 8 bytes of host memory. -/
abbrev zdm (n : Nat) : State :=
  { z with tclks := n, dma := [(7, { DmaSt.init with desc := some [0x10000008, 0, 0, 0, 0, 0], asked := 8, reads := [⟨0, 8, none, 0⟩] })] }

theorem witness_CanControllersReceiveSendAndRecover (h : Obligations.CanControllersReceiveSendAndRecover) :
    type_of% ((h.1 (zC 2 (fun x => { x with rec_ := 127 })) 15 (by decide +kernel)).1 cf ⟨0, 5⟩ (by decide +kernel) (by decide +kernel)) ∧
    type_of% ((h.1 ((zC 3 id).wr (Reg.canMode 15) 0) 15 (by decide +kernel)).1 cf ⟨0, 5⟩ (by decide +kernel) (by decide +kernel)) ∧
    type_of% ((h.1 ((zC 2 id).setFifo 158 fun f => { f with pkts := List.replicate 64 (pk 3 true) }) 15 (by decide +kernel)).1 cf ⟨0, 5⟩ (by decide +kernel) (by decide +kernel)) ∧
    type_of% ((h.1 ((zC 2 id).wr (Reg.canMode 15) 0) 15 (by decide +kernel)).2.1 { cf with id := 0x20000000 } ⟨0, 5⟩ (by decide +kernel) (by decide +kernel) (by decide +kernel)) ∧
    type_of% ((h.1 (zC 2 (fun x => { x with rec_ := 250 })) 15 (by decide +kernel)).2.2.1 .crc true true (by decide +kernel)) ∧
    type_of% ((h.1 ((zC 2 id).wr (Reg.canTxpend 15) 0x80000000) 15 (by decide +kernel)).2.2.2.1 ⟨0, 5⟩ 31 (by decide +kernel) (by decide +kernel) (by decide +kernel) (by decide +kernel)) ∧
    type_of% ((h.1 ((zC 2 id).wr (Reg.canMode 15) 8) 15 (by decide +kernel)).2.2.2.2 (by decide +kernel) (by decide +kernel)) ∧
    type_of% ((h.2.1 ((zC 2 (snd 31)).wr (Reg.canTxpend 15) 0x80000000) 15 ⟨31, ⟨0, 5⟩⟩ (by decide +kernel)).1) ∧
    type_of% ((h.2.1 ((zC 2 (snd 31)).wr (Reg.canTxpend 15) 0x80000000) 15 ⟨31, ⟨0, 5⟩⟩ (by decide +kernel)).2.1 3 (by decide +kernel)) ∧
    type_of% ((h.2.1 (((zC 2 (snd 31)).wr (Reg.canTxpend 15) 0x80000000).wr (indKey 0xCF 0x1F88) 3) 15 ⟨31, ⟨0, 5⟩⟩ (by decide +kernel)).2.2 .crc false false (by decide +kernel)) ∧
    type_of% ((h.2.1 (((zC 2 (snd 31)).wr (Reg.canTxpend 15) 0x80000000).wr (indKey 0xCF 0x1F88) 4) 15 ⟨31, ⟨0, 5⟩⟩ (by decide +kernel)).2.2 .crc false true (by decide +kernel)) ∧
    type_of% ((h.2.2.1 (zC 1 id) 15).1 (by decide +kernel)) ∧
    type_of% ((h.2.2.1 (zC 6 (fun x => { x with left := 3 })) 15).2.1 (by decide +kernel)) ∧
    type_of% ((h.2.2.1 (zC 5 (fun x => { x with tec := 256 })) 15).2.2.1 (by decide +kernel)) ∧
    type_of% ((h.2.2.1 (zC 4 (fun x => { x with tec := 256 })) 15).2.2.2.1 (by decide +kernel)) ∧
    type_of% ((h.2.2.1 (((zC 3 id).wr (Reg.ctrl 0xCF) 0).wr (Reg.canTxpend 15) 5) 15).2.2.2.2 (by decide +kernel) (by decide +kernel) (by decide +kernel)) ∧
    type_of% ((h.2.2.2.1 ((zC 2 id).wr (Reg.canTxpend 15) 5) 15 0x80000000).1) ∧
    type_of% ((h.2.2.2.1 ((zC 2 (snd 0)).wr (Reg.canTxpend 15) 5) 15 0xF).2.1) ∧
    type_of% ((h.2.2.2.1 (((zC 2 id).wr (Reg.canTxdone 15) 5).wr (Reg.canTxfail 15) 6) 15 4).2.2) ∧
    type_of% (h.2.2.2.2.1 (zC 2 id) 15 10) ∧
    type_of% (h.2.2.2.2.1 ((zC 2 id).setFifo 159 fun f => { f with pkts := [⟨1, 4, 8, false, 0, false⟩] }) 15 0x20000) ∧
    type_of% ((h.2.2.2.2.2.1 ((zC 2 (snd 3)).setFifo 159 fun f => { f with pkts := [pk 3 true] }) 15).1 (by decide +kernel)) ∧
    type_of% ((h.2.2.2.2.2.1 ((zC 2 (snd 32)).setFifo 159 fun f => { f with pkts := [pk 3 true, pk 2 true] }) 15).2 ⟨32, ⟨0, 5⟩⟩ (by decide +kernel) (by decide +kernel)) ∧
    type_of% (h.2.2.2.2.2.2 ((zC 2 id).wr (Reg.canTxpend 15) 0x80000000) 15 31 17 5) ∧
    type_of% (h.2.2.2.2.2.2 (zC 2 id) 15 31 17 5) :=
  ⟨answers_next (by decide +kernel),
   answers_next (by decide +kernel),
   (by exact answers_next (by decide +kernel)),
   rfl,
   answers_next (by decide +kernel),
   rfl,
   answers_next (by decide +kernel),
   (by exact answers_next (by decide +kernel)),
   answers_next (by decide +kernel),
   answers_next (by decide +kernel),
   (by exact answers_next (by decide +kernel)),
   answers_next (by decide +kernel),
   answers_next (by decide +kernel),
   (by exact answers_next (by decide +kernel)),
   answers_next (by decide +kernel),
   answers_next (by decide +kernel),
   (by exact answers_next (by decide +kernel)),
   answers_next (by decide +kernel),
   answers_next (by decide +kernel),
   (by exact answers_next (by decide +kernel)),
   answers_next (by decide +kernel),
   answers_next (by decide +kernel),
   (by exact answers_next (by decide +kernel)),
   rfl,
   rfl⟩

theorem witness_SerialFunctionsReceiveAndSend (h : Obligations.SerialFunctionsReceiveAndSend) :
    type_of% ((h.1 z 63 65 ⟨0, 5⟩ .fine).1 (by decide +kernel)) ∧
    type_of% ((h.1 ((zY 2 (fun x => { x with busy := true })).wr (Reg.chUartCfg 63) 0x80000000) 63 65 ⟨0, 5⟩ .fine).2.1 (by decide +kernel) (by decide +kernel)) ∧
    type_of% ((h.1 ((zY 2 id).setFifo 126 fun f => { f with pkts := [⟨0, 0, 0, false, 0, false⟩] }) 63 65 ⟨0, 5⟩ .fine).2.2 (by decide +kernel) (by decide +kernel)) ∧
    type_of% ((h.1 (zY 2 id) 63 65 ⟨0, 5⟩ .brk).2.2 (by decide +kernel) (by decide +kernel)) ∧
    type_of% ((h.1 ((tk 100000 ((zY 2 (fun x => { x with rxAt := some 0 })).setFifo 126 fun f => { f with pkts := [⟨0, 0, 0, false, 0, false⟩] })).wr (Reg.chUartGap 63) 0x00070003) 63 65 ⟨0, 5⟩ .gap).2.2 (by decide +kernel) (by decide +kernel)) ∧
    type_of% ((h.2.1 (tk 100000 ((zY 2 (fun x => { x with rxAt := some 0 })).setFifo 126 fun f => { f with pkts := [⟨0, 0, 0, false, 0, false⟩] })) 63 (by decide +kernel)).1 (by decide +kernel) (by decide +kernel)) ∧
    type_of% ((h.2.1 (tx (zY 2 id) (pk 1 true)) 63 (by decide +kernel)).2.1 (by decide +kernel) (by decide +kernel) (by decide +kernel)) ∧
    type_of% ((h.2.1 (tk 100000 (tx (zY 2 (fun x => { x with busy := true })) (pkr 1))) 63 (by decide +kernel)).2.2 (by decide +kernel) (by decide +kernel)) ∧
    type_of% ((h.2.2.1 (tx (zY 3 id) (pk 1 true)) 63 [1] (by decide +kernel)).1 (by decide +kernel) (by decide +kernel) (by decide +kernel)) ∧
    type_of% ((h.2.2.1 (tk 100000 (tx (zY 3 (fun x => { x with busy := true, cs := true, header := 0x80000004 })) (pkr 1))) 63 [1] (by decide +kernel)).2 (by decide +kernel) (by decide +kernel)) ∧
    type_of% ((h.2.2.2.1 (zY 4 id) 63 [1] true (by decide +kernel)).1 (by decide +kernel)) ∧
    type_of% ((h.2.2.2.1 (zY 4 (fun x => { x with cs := true })) 63 [1] true (by decide +kernel)).2 (by decide +kernel)) ∧
    type_of% ((h.2.2.2.2.1 (tx (zI id) (pk 1 true)) 63 0 [] (by decide +kernel)).1 (by decide +kernel) (by decide +kernel) (by decide +kernel)) ∧
    type_of% ((h.2.2.2.2.1 (tx (zY 5 (fun x => { x with busy := true, header := 0x00400004 })) (pkr 1)) 63 0 [] (by decide +kernel)).2.1 0 (by decide +kernel) (by decide +kernel)) ∧
    type_of% ((h.2.2.2.2.1 (tx (zY 5 (fun x => { x with busy := true, header := 0x00400004 })) (pkr 1)) 63 0 [] (by decide +kernel)).2.1 3 (by decide +kernel) (by decide +kernel)) ∧
    type_of% ((h.2.2.2.2.1 (tk 25000000 (tx (zY 5 id) (pk 1 true))) 63 0 [] (by decide +kernel)).2.2.1 (by decide +kernel) (by decide +kernel) (by decide +kernel) (by decide +kernel) (show _ from by decide +kernel)) ∧
    type_of% ((h.2.2.2.2.1 (tk 25000000 ((tx (zY 5 (fun x => { x with busy := true })) (pkr 1)).wr (Reg.chI2cCfg 63) 0x80000000)) 63 0 [] (by decide +kernel)).2.2.2.1 (by decide +kernel) (by decide +kernel)) ∧
    type_of% ((h.2.2.2.2.1 { (zY 5 (fun x => { x with chain := true })) with tiles := [(7, { TileSt.init with clk := .running })] } 63 0 [] (by decide +kernel)).2.2.2.2 (by decide +kernel)) ∧
    type_of% ((h.2.2.2.2.1 { (zY 5 (fun x => { x with busy := true })) with tiles := [(7, { TileSt.init with clk := .running })] } 63 0 [] (by decide +kernel)).2.2.2.2 (by decide +kernel)) ∧
    type_of% ((h.2.2.2.2.2 (tk 25000000 (zY 8 (fun x => { x with pulse := some 0 }))) 63).1 0 (by decide +kernel) (by decide +kernel)) ∧
    type_of% ((h.2.2.2.2.2 ((zY 8 id).wr (Reg.chPpsOutCfg 63) 0) 63).2.1 (by decide +kernel) (by decide +kernel) (by decide +kernel) (by decide +kernel)) ∧
    type_of% ((h.2.2.2.2.2 ((zY 8 id).wr (Reg.chPpsOutCfg 63) 0x40000000) 63).2.2 (by decide +kernel) (by decide +kernel)) :=
  ⟨rfl,
   rfl,
   answers_next (by decide +kernel),
   answers_next (by decide +kernel),
   answers_next (by decide +kernel),
   (h.2.1 (tk 100000 ((zY 2 (fun x => { x with rxAt := some 0 })).setFifo 126 fun f => { f with pkts := [⟨0, 0, 0, false, 0, false⟩] })) 63 (by decide +kernel)).1 (by decide +kernel) (by decide +kernel),
   (by exact answers_next (by decide +kernel)),
   answers_next (by decide +kernel),
   answers_next (by decide +kernel),
   (by exact answers_next (by decide +kernel)),
   answers_next (by decide +kernel),
   answers_next (by decide +kernel),
   (by exact answers_next (by decide +kernel)),
   answers_next (by decide +kernel),
   answers_next (by decide +kernel),
   (by exact answers_next (by decide +kernel)),
   answers_next (by decide +kernel),
   answers_next (by decide +kernel),
   (by exact answers_next (by decide +kernel)),
   answers_next (by decide +kernel),
   answers_next (by decide +kernel),
   rfl⟩

theorem witness_TheHostPortAnswersAndBridges (h : Obligations.TheHostPortAnswersAndBridges) :
    type_of% ((h.1 z).1 (by decide +kernel)) ∧
    type_of% ((h.1 (tk 25000000 (zH id))).2 (by decide +kernel) (by decide +kernel)) ∧
    type_of% ((h.2.1 z .read).1 (by decide +kernel)) ∧
    type_of% ((h.2.1 (zH id) .read).2.1 (by decide +kernel) (by decide +kernel) (by decide +kernel) (by decide +kernel)) ∧
    type_of% ((h.2.1 (zH (fun h => { h with retrying := false })) (.busMaster true)).2.2 (by decide +kernel) (by decide +kernel) (by decide +kernel)) ∧
    type_of% ((h.2.2.1 z .bar0 0 4 false).1 (by decide +kernel)) ∧
    type_of% ((h.2.2.1 (zH fun h => h) .bar0 0 513 false).2.1 (by decide +kernel) (by decide +kernel) (by decide +kernel)) ∧
    type_of% ((h.2.2.1 (zH id) .bar0 0x24800 8 false).2.2 (by decide +kernel) (by decide +kernel) (by decide +kernel) (by decide +kernel) (show _ from by decide +kernel)) ∧
    type_of% ((h.2.2.1 (zH id) .bar0 0x24000 512 false).2.2 (by decide +kernel) (by decide +kernel) (by decide +kernel) (by decide +kernel) (show _ from by decide +kernel)) ∧
    type_of% ((h.2.2.1 (zH id) .bar2 0 4 false).2.2 (by decide +kernel) (by decide +kernel) (by decide +kernel) (by decide +kernel) (show _ from by decide +kernel)) ∧
    type_of% ((h.2.2.2.1 z .bar0 0 [1] false).1 (by decide +kernel)) ∧
    type_of% ((h.2.2.2.1 (zH id) .bar0 0 (List.replicate 257 0) false).2.1 (by decide +kernel) (by decide +kernel) (by decide +kernel)) ∧
    type_of% ((h.2.2.2.1 (zH id) .bar2 0 [1, 2, 3, 4] false).2.2 (by decide +kernel) (by decide +kernel) (by decide +kernel) (by decide +kernel) (show _ from by decide +kernel)) ∧
    type_of% ((h.2.2.2.1 (zH id) .bar0 0x24014 [1, 2, 3, 4] false).2.2 (by decide +kernel) (by decide +kernel) (by decide +kernel) (by decide +kernel) (show _ from by decide +kernel)) ∧
    type_of% ((h.2.2.2.1 (zH id) .bar4 8 [1, 2, 3, 4] false).2.2 (by decide +kernel) (by decide +kernel) (by decide +kernel) (by decide +kernel) (show _ from by decide +kernel)) ∧
    type_of% (h.2.2.2.2.1 { z with msixPba := [63], msixEnable := true, msix := [(63, ⟨0x1000, 7, true⟩)] } 63) ∧
    type_of% (h.2.2.2.2.2.1 (tk 25000000 (zH (fun h => { h with reads := [⟨3, [], 0, 4, 0⟩] }))) 3 ⟨3, [], 0, 4, 0⟩ (by decide +kernel) (by decide +kernel)) ∧
    type_of% (h.2.2.2.2.2.2.1 ((zH (fun h => { h with reads := [⟨3, [], 0, 4, 0⟩] })).wr (Reg.hostWinCtrl 15) 0x80000107) .perst) ∧
    type_of% (h.2.2.2.2.2.2.1 ((zH (fun h => { h with reads := [⟨3, [], 0, 4, 0⟩] })).wr (Reg.hostWinCtrl 15) 0x80000107) .flr) ∧
    type_of% (h.2.2.2.2.2.2.2.1 (zH fun h => { h with up := false }) 3 4 (by decide +kernel) (by decide +kernel) (by decide +kernel) (by decide +kernel) (show _ from by decide +kernel) (by decide +kernel)) ∧
    type_of% ((h.2.2.2.2.2.2.2.2 (zdm 0) 7 0 ⟨0, 8, none, 0⟩ (by decide +kernel) (by decide +kernel) (by decide +kernel) (by decide +kernel)).1 [1, 2, 3, 4, 5, 6, 7, 8]) ∧
    type_of% ((h.2.2.2.2.2.2.2.2 (zdm 0) 7 0 ⟨0, 8, none, 0⟩ (by decide +kernel) (by decide +kernel) (by decide +kernel) (by decide +kernel)).2.1 (by decide +kernel)) ∧
    type_of% ((h.2.2.2.2.2.2.2.2 (zdm 1250000) 7 0 ⟨0, 8, none, 0⟩ (by decide +kernel) (by decide +kernel) (by decide +kernel) (by decide +kernel)).2.2 (by decide +kernel)) :=
  ⟨answers_next (by decide +kernel),
   answers_next (by decide +kernel),
   rfl,
   (by exact answers_next (by decide +kernel)),
   answers_next (by decide +kernel),
   rfl,
   answers_next (by decide +kernel),
   (h.2.2.1 (zH id) .bar0 0x24800 8 false).2.2 (by decide +kernel) (by decide +kernel) (by decide +kernel) (by decide +kernel) (show _ from by decide +kernel),
   (h.2.2.1 (zH id) .bar0 0x24000 512 false).2.2 (by decide +kernel) (by decide +kernel) (by decide +kernel) (by decide +kernel) (show _ from by decide +kernel),
   (h.2.2.1 (zH id) .bar2 0 4 false).2.2 (by decide +kernel) (by decide +kernel) (by decide +kernel) (by decide +kernel) (show _ from by decide +kernel),
   rfl,
   (by exact answers_next (by decide +kernel)),
   (h.2.2.2.1 (zH id) .bar2 0 [1, 2, 3, 4] false).2.2 (by decide +kernel) (by decide +kernel) (by decide +kernel) (by decide +kernel) (show _ from by decide +kernel),
   (h.2.2.2.1 (zH id) .bar0 0x24014 [1, 2, 3, 4] false).2.2 (by decide +kernel) (by decide +kernel) (by decide +kernel) (by decide +kernel) (show _ from by decide +kernel),
   (h.2.2.2.1 (zH id) .bar4 8 [1, 2, 3, 4] false).2.2 (by decide +kernel) (by decide +kernel) (by decide +kernel) (by decide +kernel) (show _ from by decide +kernel),
   answers_next (by decide +kernel),
   answers_next (by decide +kernel),
   (by exact answers_next (by decide +kernel)),
   answers_next (by decide +kernel),
   answers_next (by decide +kernel),
   rfl,
   (by exact answers_next (by decide +kernel)),
   answers_next (by decide +kernel)⟩

theorem witness_QueuesAndDmaChannelsFollowTheirRegisters (h : Obligations.QueuesAndDmaChannelsFollowTheirRegisters) :
    type_of% ((h.1 z 15 0xFFFFFFFF).1) ∧
    type_of% ((h.1 (z.wr (Reg.evqQCfg 15) 0x80000006) 15 0x7FFFFFFF).1) ∧
    type_of% ((h.1 z 15 1).2.1) ∧
    type_of% ((h.1 (tk 25000000 ((z.wr (Reg.evqQCfg 15) 0x80000000).setEvQueue 15 { EvQueue.init with holdoff := some 0, unannounced := 1 })) 15 1).2.2 0 (by decide +kernel) (by decide +kernel) (by decide +kernel) (by decide +kernel)) ∧
    type_of% ((h.2.1 z 0x1FF).1 (by decide +kernel)) ∧
    type_of% ((h.2.1 z 0xFF).2 (by decide +kernel)) ∧
    type_of% ((h.2.2.1 z 7 3).1) ∧
    type_of% ((h.2.2.1 z 7 0xFFFFFFFF).2.1) ∧
    type_of% ((h.2.2.1 ((z.wr (Reg.dmaDcCtrl 7) 1).wr (Reg.dmaDcTail 7) 1) 7 0).2.2) ∧
    type_of% (h.2.2.2.1 ((z.wr (Reg.dmaDcCtrl 7) 1).wr (Reg.dmaDcTail 7) 1) 7 (.data (List.replicate 32 0)) (by decide +kernel) (by decide +kernel) (by decide +kernel) (by decide +kernel)) ∧
    type_of% (h.2.2.2.1 ((z.wr (Reg.dmaDcCtrl 7) 1).wr (Reg.dmaDcTail 7) 1) 7 .failed (by decide +kernel) (by decide +kernel) (by decide +kernel) (by decide +kernel)) ∧
    type_of% (h.2.2.2.1 (((z.wr (Reg.dmaDcCtrl 7) 1).wr (Reg.dmaDcTail 7) 1).wr (Reg.dmaDcCfg 7) 0x80000004) 7 .failed (by decide +kernel) (by decide +kernel) (by decide +kernel) (by decide +kernel)) ∧
    type_of% (h.2.2.2.1 ((((z.wr (Reg.dmaDcCtrl 7) 1).wr (Reg.dmaDcTail 7) 1).wr (Reg.dmaDcCfg 7) 0x80000004).wr (Reg.dmaDcRingLo 7) 0x13FFFE0) 7 .failed (by decide +kernel) (by decide +kernel) (by decide +kernel) (by decide +kernel)) ∧
    type_of% ((h.2.2.2.2 { z with dma := [(7, { DmaSt.init with desc := some [0x80000008, 0, 0, 0, 0, 0], asked := 8, wrote := 8 })] } 7 (by decide +kernel) (by decide +kernel)).1 (by decide +kernel) (by decide +kernel)) ∧
    type_of% ((h.2.2.2.2 { z with dma := [(7, { DmaSt.init with desc := some [0x80000008, 0, 0, 0, 0, 0], asked := 8, fail := some (9, 5) })] } 7 (by decide +kernel) (by decide +kernel)).2 9 5 (by decide +kernel) (by decide +kernel)) :=
  ⟨answers_next (by decide +kernel),
   answers_next (by decide +kernel),
   (by exact answers_next (by decide +kernel)),
   rfl,
   rfl,
   rfl,
   answers_next (by decide +kernel),
   answers_next (by decide +kernel),
   (by exact answers_next (by decide +kernel)),
   h.2.2.2.1 ((z.wr (Reg.dmaDcCtrl 7) 1).wr (Reg.dmaDcTail 7) 1) 7 (.data (List.replicate 32 0)) (by decide +kernel) (by decide +kernel) (by decide +kernel) (by decide +kernel),
   h.2.2.2.1 ((z.wr (Reg.dmaDcCtrl 7) 1).wr (Reg.dmaDcTail 7) 1) 7 .failed (by decide +kernel) (by decide +kernel) (by decide +kernel) (by decide +kernel),
   h.2.2.2.1 (((z.wr (Reg.dmaDcCtrl 7) 1).wr (Reg.dmaDcTail 7) 1).wr (Reg.dmaDcCfg 7) 0x80000004) 7 .failed (by decide +kernel) (by decide +kernel) (by decide +kernel) (by decide +kernel),
   h.2.2.2.1 ((((z.wr (Reg.dmaDcCtrl 7) 1).wr (Reg.dmaDcTail 7) 1).wr (Reg.dmaDcCfg 7) 0x80000004).wr (Reg.dmaDcRingLo 7) 0x13FFFE0) 7 .failed (by decide +kernel) (by decide +kernel) (by decide +kernel) (by decide +kernel),
   answers_next (by decide +kernel),
   answers_next (by decide +kernel)⟩

end Devices

/-! ### Chip: interrupt controller, cores, boot, security, power, clocks -/

namespace Chip

/-- Target `k` with source 448 pending at priority 5, its stack `l`. -/
abbrev zI (l : List (Nat × Nat)) : State :=
  { (z.wr (Reg.icuSrcCfg 448) 0x0505) with icu := { z.icu with pend := [448], nest := [(5, l)] } }
abbrev zI2 (k : Nat) : State := { (z.wr (Reg.icupPrivCfg k 31) 0x9) with icu := { z.icu with priv := [32 * k + 31] } }
abbrev zcore (n : Nat) (f : CoreSt → CoreSt) (now : Nat) : State :=
  { z with cores := [(n, f CoreSt.init)], tclks := now }
abbrev bad : ReadEcc := .uncorrectable 3 1
/-- A running node whose service slot 4 holds four words. -/
abbrev zv (w0 w1 w2 w3 : Word) : State :=
  { (z.memPut (svcAddr 4) (wordsBytes [w0, w1, w2, w3])) with boot := { z.boot with started := true } }
abbrev zo (d0 d1 : Word) : State := (z.wr (Reg.mbxD 0x0A 0) d0).wr (Reg.mbxD 0x0A 1) d1
abbrev zs (d0 : Word) : State := z.wr (Reg.mbxD 0x09 0) d0
abbrev zpw (f : PwrSt → PwrSt) : State := { z with pwr := f z.pwr }
abbrev tk (n : Nat) (s : State) : State := { s with tclks := n }

theorem witness_TheInterruptControllerClaimsAndCompletes (h : Obligations.TheInterruptControllerClaimsAndCompletes) :
    type_of% ((h.1 z 1 .host).1 (by decide +kernel)) ∧
    type_of% ((h.1 (zI []) 5 .host).2.1 (by decide +kernel)) ∧
    type_of% ((h.1 (zI (List.replicate 8 (3, 0))) 5 .host).2.1 (by decide +kernel)) ∧
    type_of% ((h.1 (zI2 4) 4 (.core 3)).2.1 (by decide +kernel)) ∧
    type_of% ((h.1 z 0 .steward).2.1 (by decide +kernel)) ∧
    type_of% ((h.1 (zI [(2, 1), (448, 3)]) 5 .host).2.2.1 (by decide +kernel) 448) ∧
    type_of% ((h.1 (zI [(2, 1), (448, 3)]) 5 .host).2.2.1 (by decide +kernel) 447) ∧
    type_of% ((h.1 z 5 .host).2.2.1 (by decide +kernel) 447) ∧
    type_of% ((h.1 z 1 .steward).2.2.2 0xFFFFFFFF) ∧
    type_of% ((h.1 z 1 .host).2.2.2 0xFFFFFFFF) ∧
    type_of% ((h.2.1 z 5 .steward 448).1 (by decide +kernel)) ∧
    type_of% ((h.2.1 z 5 .host 448).1 (by decide +kernel)) ∧
    type_of% ((h.2.1 z 5 .host 449).1 (by decide +kernel)) ∧
    type_of% ((h.2.1 z 4 (.core 3) 31).2 (by decide +kernel)) ∧
    type_of% (h.2.2.1 z 447 .steward 0xFFFFFFFF) ∧
    type_of% (h.2.2.1 z 207 .host 0xFFFFFFFF) ∧
    type_of% (h.2.2.1 (zI []) 447 .host 0xFFFFFFFF) ∧
    type_of% ((h.2.2.2.1 z 4 .steward 0xFFFFFFFF).1 31) ∧
    type_of% ((h.2.2.2.1 z 4 .host 0xFFFFFFFF).2.1) ∧
    type_of% ((h.2.2.2.1 z 4 .steward 0xFFFFFFFF).2.2 3) ∧
    type_of% (h.2.2.2.2.1 { (z.wr (Reg.icupTmr 4 3) 0x80000005) with icu := { z.icu with timers := [(19, some ⟨0, 0⟩)] } } 4 3 ⟨0, 0⟩ (by decide +kernel) (by decide +kernel)) ∧
    type_of% (h.2.2.2.2.1 { (z.wr (Reg.icupTmr 4 3) 0xC0000005) with icu := { z.icu with timers := [(19, some ⟨0, 0⟩)] } } 4 3 ⟨0, 0⟩ (by decide +kernel) (by decide +kernel)) ∧
    type_of% (h.2.2.2.2.2 { z with icu := { z.icu with holding := [31] } } 31 (by decide +kernel)) :=
  ⟨(h.1 z 1 .host).1 (by decide +kernel),
   (h.1 (zI []) 5 .host).2.1 (by decide +kernel),
   (h.1 (zI (List.replicate 8 (3, 0))) 5 .host).2.1 (by decide +kernel),
   (h.1 (zI2 4) 4 (.core 3)).2.1 (by decide +kernel),
   (h.1 z 0 .steward).2.1 (by decide +kernel),
   (h.1 (zI [(2, 1), (448, 3)]) 5 .host).2.2.1 (by decide +kernel) 448,
   (h.1 (zI [(2, 1), (448, 3)]) 5 .host).2.2.1 (by decide +kernel) 447,
   (h.1 z 5 .host).2.2.1 (by decide +kernel) 447,
   answers_next (by decide +kernel),
   answers_next (by decide +kernel),
   (by exact answers_next (by decide +kernel)),
   answers_next (by decide +kernel),
   answers_next (by decide +kernel),
   rfl,
   (by exact answers_next (by decide +kernel)),
   answers_next (by decide +kernel),
   answers_next (by decide +kernel),
   rfl,
   rfl,
   (by exact answers_next (by decide +kernel)),
   answers_next (by decide +kernel),
   answers_next (by decide +kernel),
   (by exact answers_next (by decide +kernel))⟩

theorem witness_PairsWatchdogsAndScrubbingAct (h : Obligations.PairsWatchdogsAndScrubbingAct) :
    type_of% ((h.1 (z.wr (Reg.stwStatus) 0x8000) 3 5 1).1 (by decide +kernel)) ∧
    type_of% ((h.1 (z.wr (Reg.stwStatus) 0) 3 5 1).2 (by decide +kernel) (by decide +kernel)) ∧
    type_of% (h.2.1 ((zcore 4 (fun c => { c with haltedAt := some 0, faults := [0, 0] }) 2500000).wr Reg.stwLockstep 8) 3 0 (by decide +kernel) (by decide +kernel) (by decide +kernel) (by decide +kernel) (show _ from by decide +kernel) (by decide +kernel)) ∧
    type_of% (h.2.2.1 (((zcore 4 (fun c => { c with runAt := some 0, faultBits := [0, 4] }) 250000000).wr Reg.leaseFault 0x3F).wr (Reg.stwStatus) 0) 3 0 4 (by decide +kernel) (by decide +kernel) (by decide +kernel) (by decide +kernel) (show _ from by decide +kernel)) ∧
    type_of% ((h.2.2.2.1 (zcore 4 (fun c => { c with wdt := some 0, warned := true }) 5) 4 0 9 (by decide +kernel)).1) ∧
    type_of% ((h.2.2.2.1 (zcore 4 (fun c => { c with wdt := some 0 }) 5) 4 0 9 (by decide +kernel)).2.1 0xA4 (by decide +kernel)) ∧
    type_of% ((h.2.2.2.1 (zcore 4 (fun c => { c with wdt := some 0 }) 25000000) 4 0 9 (by decide +kernel)).2.2.1 (by decide +kernel)) ∧
    type_of% ((h.2.2.2.1 (zcore 4 (fun c => { c with wdt := some 0 }) 24999999) 4 0 9 (by decide +kernel)).2.2.2.1 (by decide +kernel)) ∧
    type_of% ((h.2.2.2.1 (zcore 4 (fun c => { c with wdt := some 0 }) 12500000) 4 0 9 (by decide +kernel)).2.2.2.2 (by decide +kernel) (by decide +kernel)) ∧
    type_of% (h.2.2.2.2.1 z 4 9 (by decide +kernel) (by decide +kernel) (by decide +kernel)) ∧
    type_of% (h.2.2.2.2.2.1 z (.rule 1023)) ∧
    type_of% ((h.2.2.2.2.2.2.1 { z with drill := [(4095, { DrillEnt.init with st := .armed })] } 3 1).1 4095) ∧
    type_of% ((h.2.2.2.2.2.2.1 { z with rules := [(1023, { Rule.init with armed := true })] } 3 1).2.1 1023) ∧
    type_of% ((h.2.2.2.2.2.2.1 z 3 1).2.2.1) ∧
    type_of% ((h.2.2.2.2.2.2.1 z 3 1).2.2.2 0x0B 15) ∧
    type_of% ((h.2.2.2.2.2.2.2.1 { z with ecc := [(eccKey 0x0B 15 true, { EccSt.init with count := 1 })] } 0x0B 15 true).1 (by decide +kernel) (by decide +kernel)) ∧
    type_of% ((h.2.2.2.2.2.2.2.1 { z with ecc := [(eccKey 0x0B 15 true, { EccSt.init with last := some 0 })] } 0x0B 15 true).2 (by decide +kernel)) ∧
    type_of% ((h.2.2.2.2.2.2.2.2 z 0xFFFFFFFF).1) ∧
    type_of% ((h.2.2.2.2.2.2.2.2 z 0xFFFFFFFF).2) :=
  ⟨rfl,
   answers_next (by decide +kernel),
   h.2.1 ((zcore 4 (fun c => { c with haltedAt := some 0, faults := [0, 0] }) 2500000).wr Reg.stwLockstep 8) 3 0 (by decide +kernel) (by decide +kernel) (by decide +kernel) (by decide +kernel) (show _ from by decide +kernel) (by decide +kernel),
   answers_next (by decide +kernel),
   (by exact answers_next (by decide +kernel)),
   (h.2.2.2.1 (zcore 4 (fun c => { c with wdt := some 0 }) 5) 4 0 9 (by decide +kernel)).2.1 0xA4 (by decide +kernel),
   (h.2.2.2.1 (zcore 4 (fun c => { c with wdt := some 0 }) 25000000) 4 0 9 (by decide +kernel)).2.2.1 (by decide +kernel),
   rfl,
   answers_next (by decide +kernel),
   (by decide +kernel),
   rfl,
   answers_next (by decide +kernel),
   (by exact answers_next (by decide +kernel)),
   (h.2.2.2.2.2.2.1 z 3 1).2.2.1,
   rfl,
   rfl,
   rfl,
   answers_next (by decide +kernel),
   answers_next (by decide +kernel)⟩

theorem witness_TheNodeStartsAndServesItsSlots (h : Obligations.TheNodeStartsAndServesItsSlots) :
    type_of% (h.1 { z with power := .off } true (by decide +kernel)) ∧
    type_of% (h.2.1 z true (by decide +kernel)) ∧
    type_of% ((h.2.2.1 (zv 0x80000001 0 1 0) 4 1 (by decide +kernel) (by decide +kernel) (by decide +kernel)).1 (by decide +kernel)) ∧
    type_of% ((h.2.2.1 ((zv 0x80000001 0 2 0).setFld Reg.bootStatus 3 1 1) 4 1 (by decide +kernel) (by decide +kernel) (by decide +kernel)).1 (by decide +kernel)) ∧
    type_of% ((h.2.2.1 (zv 0x80000001 0 3 0) 4 1 (by decide +kernel) (by decide +kernel) (by decide +kernel)).1 (by decide +kernel)) ∧
    type_of% ((h.2.2.1 (zv 0x80000002 0 0 0) 4 2 (by decide +kernel) (by decide +kernel) (by decide +kernel)).2.1 (by decide +kernel)) ∧
    type_of% ((h.2.2.1 (zv 0x80000003 0 2 0) 4 3 (by decide +kernel) (by decide +kernel) (by decide +kernel)).2.2.1 (by decide +kernel)) ∧
    type_of% ((h.2.2.1 (zv 0x80000003 0 7 0) 4 3 (by decide +kernel) (by decide +kernel) (by decide +kernel)).2.2.1 (by decide +kernel)) ∧
    type_of% ((h.2.2.1 (zv 0x80000004 0 0 0) 4 4 (by decide +kernel) (by decide +kernel) (by decide +kernel)).2.2.2.1 (by decide +kernel)) ∧
    type_of% ((h.2.2.1 (zv 0x80000005 0 0 0) 4 5 (by decide +kernel) (by decide +kernel) (by decide +kernel)).2.2.2.2.1 (by decide +kernel)) ∧
    type_of% ((h.2.2.1 (zv 0x80000006 0 0 0x7FE98) 4 6 (by decide +kernel) (by decide +kernel) (by decide +kernel)).2.2.2.2.2.1 (by decide +kernel)) ∧
    type_of% ((h.2.2.1 (zv 0x80000006 0 0 0x7F000) 4 6 (by decide +kernel) (by decide +kernel) (by decide +kernel)).2.2.2.2.2.1 (by decide +kernel)) ∧
    type_of% ((h.2.2.1 (zv 0x80000007 0 0 0) 4 7 (by decide +kernel) (by decide +kernel) (by decide +kernel)).2.2.2.2.2.2 (by decide +kernel)) ∧
    type_of% ((h.2.2.2.1 z).1) ∧
    type_of% ((h.2.2.2.1 z).2.1) ∧
    type_of% ((h.2.2.2.1 z).2.2) ∧
    type_of% (h.2.2.2.2 { ((z.setFld Reg.bootStatus 3 1 1).wr Reg.bootTrialLimit 1) with boot := { z.boot with trialAt := some 0 }, tclks := 25000000 } 0 (by decide +kernel) (by decide +kernel) (by decide +kernel)) :=
  ⟨rfl,
   h.2.1 z true (by decide +kernel),
   (h.2.2.1 (zv 0x80000001 0 1 0) 4 1 (by decide +kernel) (by decide +kernel) (by decide +kernel)).1 (by decide +kernel),
   (h.2.2.1 ((zv 0x80000001 0 2 0).setFld Reg.bootStatus 3 1 1) 4 1 (by decide +kernel) (by decide +kernel) (by decide +kernel)).1 (by decide +kernel),
   (h.2.2.1 (zv 0x80000001 0 3 0) 4 1 (by decide +kernel) (by decide +kernel) (by decide +kernel)).1 (by decide +kernel),
   answers_next (by decide +kernel),
   (h.2.2.1 (zv 0x80000003 0 2 0) 4 3 (by decide +kernel) (by decide +kernel) (by decide +kernel)).2.2.1 (by decide +kernel),
   (h.2.2.1 (zv 0x80000003 0 7 0) 4 3 (by decide +kernel) (by decide +kernel) (by decide +kernel)).2.2.1 (by decide +kernel),
   rfl,
   (h.2.2.1 (zv 0x80000005 0 0 0) 4 5 (by decide +kernel) (by decide +kernel) (by decide +kernel)).2.2.2.2.1 (by decide +kernel),
   answers_next (by decide +kernel),
   (h.2.2.1 (zv 0x80000006 0 0 0x7F000) 4 6 (by decide +kernel) (by decide +kernel) (by decide +kernel)).2.2.2.2.2.1 (by decide +kernel),
   (by exact answers_next (by decide +kernel)),
   answers_next (by decide +kernel),
   answers_next (by decide +kernel),
   (by exact answers_next (by decide +kernel)),
   rfl⟩

theorem witness_FlashAndSecurityCommandsAct (h : Obligations.FlashAndSecurityCommandsAct) :
    type_of% ((h.1 (zo 0x100 257) false (by decide +kernel)).1) ∧
    type_of% ((h.1 (zo 0x100 4) true (by decide +kernel)).2.1) ∧
    type_of% ((h.1 (zo 0x100 4) false (by decide +kernel)).2.1) ∧
    type_of% ((h.1 (zo 0x100 4) false (by decide +kernel)).2.2.1) ∧
    type_of% ((h.1 ((zo 0x10000 4).wr (Reg.ospiProt 3) 0x80010001) false (by decide +kernel)).2.2.1) ∧
    type_of% ((h.1 (zo 0x1FFF 4) false (by decide +kernel)).2.2.2.1) ∧
    type_of% ((h.1 ((zo 0x1FFF 4).wr (Reg.ospiProt 3) 0x80000000) false (by decide +kernel)).2.2.2.1) ∧
    type_of% ((h.1 (zo 0x1FFFF 4) false (by decide +kernel)).2.2.2.2) ∧
    type_of% (h.2.1 z 3 .steward 0xFFFFFFFF) ∧
    type_of% (h.2.1 z 3 .host 0xFFFFFFFF) ∧
    type_of% ((h.2.2 (zs 0xA5A5A5A2) 7 false (by decide +kernel)).1) ∧
    type_of% ((h.2.2 (zs 0xA5A5A5AD) 8 false (by decide +kernel)).1) ∧
    type_of% ((h.2.2 (zs 0xA5A5A5A2) 7 true (by decide +kernel)).1) ∧
    type_of% ((h.2.2 (zs 0) 7 true (by decide +kernel)).1) ∧
    type_of% ((h.2.2 (zs 0xA5A5A5E5) 64 false (by decide +kernel)).2.1) ∧
    type_of% ((h.2.2 (zs 0xA5A5A5A5) 0 false (by decide +kernel)).2.1) ∧
    type_of% ((h.2.2 (zs 0xA5A5A5A7) 2 false (by decide +kernel)).2.2.1) ∧
    type_of% ((h.2.2 (zs 0xA5A5A5A6) 3 false (by decide +kernel)).2.2.1) ∧
    type_of% ((h.2.2 z 0 false (by decide +kernel)).2.2.2.1) ∧
    type_of% ((h.2.2 z 0xFFFF false (by decide +kernel)).2.2.2.2.1) ∧
    type_of% ((h.2.2 z 0 false (by decide +kernel)).2.2.2.2.2.1) ∧
    type_of% ((h.2.2 z 0 false (by decide +kernel)).2.2.2.2.2.2) :=
  ⟨(h.1 (zo 0x100 257) false (by decide +kernel)).1,
   answers_next (by decide +kernel),
   (h.1 (zo 0x100 4) false (by decide +kernel)).2.1,
   (h.1 (zo 0x100 4) false (by decide +kernel)).2.2.1,
   (h.1 ((zo 0x10000 4).wr (Reg.ospiProt 3) 0x80010001) false (by decide +kernel)).2.2.1,
   (h.1 (zo 0x1FFF 4) false (by decide +kernel)).2.2.2.1,
   (h.1 ((zo 0x1FFF 4).wr (Reg.ospiProt 3) 0x80000000) false (by decide +kernel)).2.2.2.1,
   (h.1 (zo 0x1FFFF 4) false (by decide +kernel)).2.2.2.2,
   rfl,
   rfl,
   (h.2.2 (zs 0xA5A5A5A2) 7 false (by decide +kernel)).1,
   (h.2.2 (zs 0xA5A5A5AD) 8 false (by decide +kernel)).1,
   (h.2.2 (zs 0xA5A5A5A2) 7 true (by decide +kernel)).1,
   (h.2.2 (zs 0) 7 true (by decide +kernel)).1,
   (h.2.2 (zs 0xA5A5A5E5) 64 false (by decide +kernel)).2.1,
   (h.2.2 (zs 0xA5A5A5A5) 0 false (by decide +kernel)).2.1,
   (h.2.2 (zs 0xA5A5A5A7) 2 false (by decide +kernel)).2.2.1,
   (h.2.2 (zs 0xA5A5A5A6) 3 false (by decide +kernel)).2.2.1,
   answers_next (by decide +kernel),
   (by exact answers_next (by decide +kernel)),
   (h.2.2 z 0 false (by decide +kernel)).2.2.2.2.2.1,
   (h.2.2 z 0 false (by decide +kernel)).2.2.2.2.2.2⟩

theorem witness_ThePowerPathStartsFaultsAndGasps (h : Obligations.ThePowerPathStartsFaultsAndGasps) :
    type_of% (h.1 (zpw (fun p => { p with feedA := { p.feedA with mark := 0, gate := true } })) false 0xFFFF 0) ∧
    type_of% (h.1 (zpw (fun p => { p with feedA := { p.feedA with mark := 0, reverse := true } })) false 1000 900) ∧
    type_of% ((h.2.1 (tk 250 (zpw (fun p => { p with feedB := ⟨0, 0, true, false, some 0, none⟩ }))) true).1 (by decide +kernel) (by decide +kernel)) ∧
    type_of% ((h.2.1 (tk 25000000 (zpw (fun p => { p with feedB := ⟨1, (z.feedUv + 300), false, false, none, some 0⟩ }))) true).2.1 (by decide +kernel) (by decide +kernel)) ∧
    type_of% ((h.2.1 (zpw (fun p => { p with feedB := ⟨0, 0, true, false, none, none⟩ })) true).2.2 0xFFFF (by decide +kernel) (by decide +kernel) (by decide +kernel)) ∧
    type_of% (h.2.2.1 (zpw (fun p => { p with seatA := true })) true true (by decide +kernel)) ∧
    type_of% (h.2.2.1 (zpw (fun p => { p with seatA := true, seatB := true, hs := 1 })) false false (by decide +kernel)) ∧
    type_of% (h.2.2.2.1 (tk 25000000 (zpw (fun p => { p with seatA := true, seatB := true, hs := 1, retry := 3 }))) (by decide +kernel) (by decide +kernel) (by decide +kernel) (by decide +kernel)) ∧
    type_of% (h.2.2.2.2.1 (tk 12 (zpw (fun p => { p with seatA := true, seated := true, hs := 3, gate := true, en := 255 }))) (by decide +kernel) (by decide +kernel)) ∧
    type_of% (h.2.2.2.2.1 (tk 12 (zpw (fun p => { p with seatB := true, seated := true, hs := 4, gate := true, en := 255 }))) (by decide +kernel) (by decide +kernel)) ∧
    type_of% (h.2.2.2.2.2.1 (zpw (fun p => { p with hs := 2, timer := none, feedA := { p.feedA with mark := 0 }, ts := some 300, rise := 0 })) (by decide +kernel) (by decide +kernel) (by decide +kernel) (by decide +kernel) (show _ from by decide +kernel) (by decide +kernel)) ∧
    type_of% (h.2.2.2.2.2.2.1 (tk 25000 (zpw (fun p => { p with hs := 3, nearAt := some 0 }))) (by decide +kernel) (by decide +kernel)) ∧
    type_of% (h.2.2.2.2.2.2.2.1 (zpw (fun p => { p with hs := 4, gate := true, en := 255 })) 3 9 (by decide +kernel)) ∧
    type_of% (h.2.2.2.2.2.2.2.1 (zpw (fun p => { p with hs := 3, gate := true, en := 255, retry := 15 })) 3 9 (by decide +kernel)) ∧
    type_of% (h.2.2.2.2.2.2.2.2.1 (tk 25000000 (zpw (fun p => { p with hs := 4, gate := true, en := 255, limAt := some 0 }))) 9 (by decide +kernel)) ∧
    type_of% (h.2.2.2.2.2.2.2.2.1 (tk 25000000 (zpw (fun p => { p with hs := 3, gate := true, en := 255 }))) 9 (by decide +kernel)) ∧
    type_of% (h.2.2.2.2.2.2.2.2.2.1 (zpw (fun p => { p with hs := 3, gate := true, en := 255 })) 255 0 (by decide +kernel) (by decide +kernel)) ∧
    type_of% (h.2.2.2.2.2.2.2.2.2.1 (zpw (fun p => { p with hs := 4, gate := true, en := 255 })) 255 0 (by decide +kernel) (by decide +kernel)) ∧
    type_of% (h.2.2.2.2.2.2.2.2.2.1 (zpw (fun p => { p with hs := 0, lossAt := some (0, 4) })) 255 0 (by decide +kernel) (by decide +kernel)) ∧
    type_of% (h.2.2.2.2.2.2.2.2.2.2.1 (tk 25 z) 24000 24000 1000 (by decide +kernel)) ∧
    type_of% ((h.2.2.2.2.2.2.2.2.2.2.2.1 (z.wr Reg.pwrTsCfg 0) 5).1 (by decide +kernel) (by decide +kernel)) ∧
    type_of% ((h.2.2.2.2.2.2.2.2.2.2.2.1 (tk 2500 (z.wr Reg.pwrTsCfg 2)) 1600).2 (by decide +kernel) (by decide +kernel)) ∧
    type_of% ((h.2.2.2.2.2.2.2.2.2.2.2.1 (tk 2500 (z.wr Reg.pwrTsCfg 1)) (-441)).2 (by decide +kernel) (by decide +kernel)) ∧
    type_of% ((h.2.2.2.2.2.2.2.2.2.2.2.2.1 (tk 250000 (zpw (fun p => { p with timer := some (10, 0) })))).1 10 0 (by decide +kernel) (by decide +kernel)) ∧
    type_of% ((h.2.2.2.2.2.2.2.2.2.2.2.2.1 (tk 25000000000 (zpw (fun p => { p with hs := 4, retry := 3 })))).2.1 (by decide +kernel) (by decide +kernel)) ∧
    type_of% ((h.2.2.2.2.2.2.2.2.2.2.2.2.1 (zpw (fun p => { p with held := true }))).2.2.1) ∧
    type_of% ((h.2.2.2.2.2.2.2.2.2.2.2.2.1 (zpw (fun p => { p with hs := 3, gate := true, en := 255 }))).2.2.2.1) ∧
    type_of% ((h.2.2.2.2.2.2.2.2.2.2.2.2.1 (zpw (fun p => { p with hs := 4, gate := true, en := 255 }))).2.2.2.1) ∧
    type_of% ((h.2.2.2.2.2.2.2.2.2.2.2.2.1 (zpw (fun p => { p with hs := 5, retry := 4 }))).2.2.2.2) ∧
    type_of% (h.2.2.2.2.2.2.2.2.2.2.2.2.2.1 (zpw (fun p => { p with unseatedOn := true, hs := 0 })) 9 (by decide +kernel) (by decide +kernel)) ∧
    type_of% (h.2.2.2.2.2.2.2.2.2.2.2.2.2.1 (tk 25000000 (zpw (fun p => { p with hs := 3, feedA := { p.feedA with lowAt := some 0 }, feedB := { p.feedB with lowAt := some 0 } }))) 9 (by decide +kernel) (by decide +kernel)) ∧
    type_of% (h.2.2.2.2.2.2.2.2.2.2.2.2.2.2 (tk 50000 (zpw (fun p => { p with hs := 4, dying := true, gate := true }))) (by decide +kernel) (by decide +kernel)) :=
  ⟨answers_next (by decide +kernel),
   answers_next (by decide +kernel),
   (by exact answers_next (by decide +kernel)),
   answers_next (by decide +kernel),
   answers_next (by decide +kernel),
   (by exact answers_next (by decide +kernel)),
   answers_next (by decide +kernel),
   answers_next (by decide +kernel),
   (by exact answers_next (by decide +kernel)),
   answers_next (by decide +kernel),
   h.2.2.2.2.2.1 (zpw (fun p => { p with hs := 2, timer := none, feedA := { p.feedA with mark := 0 }, ts := some 300, rise := 0 })) (by decide +kernel) (by decide +kernel) (by decide +kernel) (by decide +kernel) (show _ from by decide +kernel) (by decide +kernel),
   answers_next (by decide +kernel),
   (by decide +kernel),
   (by decide +kernel),
   rfl,
   rfl,
   (by exact answers_next (by decide +kernel)),
   answers_next (by decide +kernel),
   answers_next (by decide +kernel),
   (by exact answers_next (by decide +kernel)),
   rfl,
   answers_next (by decide +kernel),
   answers_next (by decide +kernel),
   (h.2.2.2.2.2.2.2.2.2.2.2.2.1 (tk 250000 (zpw (fun p => { p with timer := some (10, 0) })))).1 10 0 (by decide +kernel) (by decide +kernel),
   (h.2.2.2.2.2.2.2.2.2.2.2.2.1 (tk 25000000000 (zpw (fun p => { p with hs := 4, retry := 3 })))).2.1 (by decide +kernel) (by decide +kernel),
   (by exact answers_next (by decide +kernel)),
   answers_next (by decide +kernel),
   answers_next (by decide +kernel),
   (by exact answers_next (by decide +kernel)),
   answers_next (by decide +kernel),
   answers_next (by decide +kernel),
   (by exact answers_next (by decide +kernel))⟩

theorem witness_RailsAreSequencedAndMonitored (h : Obligations.RailsAreSequencedAndMonitored) :
    type_of% (h.1 (tk 25000000 (zpw (fun p => { p with seq := 1, goodAt := some 0 }))) (by decide +kernel) (by decide +kernel)) ∧
    type_of% (h.2.1 (zpw (fun p => { p with seq := 3, en := 255 })) (by decide +kernel) (by decide +kernel)) ∧
    type_of% (h.2.1 (tk 25000000 (zpw (fun p => { p with seq := 3, en := 255, downAt := some 0 }))) (by decide +kernel) (by decide +kernel)) ∧
    type_of% (h.2.2.1 z 7 true) ∧
    type_of% ((h.2.2.2.1 (tk 25000000 (zpw (fun p => { p with seq := 2, en := 255, hs := 4 }))) 7 (by decide +kernel)).1 (by decide +kernel) (by decide +kernel)) ∧
    type_of% ((h.2.2.2.1 (tk 25000000 (zpw (fun p => { p with seq := 2, en := 255, hs := 4, shown := [7], badAt := [(7, some 0)] }))) 7 (by decide +kernel)).2 (by decide +kernel) (by decide +kernel)) ∧
    type_of% ((h.2.2.2.2.1 (z.wr (Reg.adcChCfg 15) 0) 15 0xFFF).1 (by decide +kernel)) ∧
    type_of% ((h.2.2.2.2.1 (tk 156 (((zpw (fun p => { p with adcLast := some (14, 0) })).wr (Reg.adcChCfg 15) 0xE0000000).wr (Reg.adcChWin 15) 0x0FFF0FFF)) 15 0xFFF).2 (by decide +kernel) (by decide +kernel)) ∧
    type_of% ((h.2.2.2.2.1 (tk 156 ((zpw (fun p => { p with hs := 4, en := 255, gate := true, adcLast := some (14, 0) })).wr (Reg.adcChCfg 15) 0xE0000000)) 15 0xFFF).2 (by decide +kernel) (by decide +kernel)) ∧
    type_of% (h.2.2.2.2.2 (tk 25000000 ((zpw (fun p => { p with hs := 4, en := 255, gate := true })).wr (Reg.adcChCfg 15) 0x80000000)) 15 (by decide +kernel) (by decide +kernel) (by decide +kernel) (by decide +kernel) (show _ from by decide +kernel) (by decide +kernel)) :=
  ⟨answers_next (by decide +kernel),
   answers_next (by decide +kernel),
   (by exact answers_next (by decide +kernel)),
   answers_next (by decide +kernel),
   answers_next (by decide +kernel),
   (by exact answers_next (by decide +kernel)),
   rfl,
   answers_next (by decide +kernel),
   answers_next (by decide +kernel),
   (by exact answers_next (by decide +kernel))⟩

theorem witness_ClockFailuresStopWhatTheyClock (h : Obligations.ClockFailuresStopWhatTheyClock) :
    type_of% ((h.1 { z with clk := { z.clk with failed := [1] } } 0 5).1 (by decide +kernel)) ∧
    type_of% ((h.1 z 0 5).2 (by decide +kernel)) ∧
    type_of% ((h.1 z 1 5).2 (by decide +kernel)) ∧
    type_of% ((h.1 z 2 5).2 (by decide +kernel)) ∧
    type_of% ((h.1 z 3 5).2 (by decide +kernel)) ∧
    type_of% (h.2.1 { z with clk := { z.clk with failed := [1], hold := some 5 }, power := .held } 0 5 (by decide +kernel) (by decide +kernel)) ∧
    type_of% (h.2.1 (tk 250000 { z with clk := { z.clk with failed := [4] } }) 3 5 (by decide +kernel) (by decide +kernel)) ∧
    type_of% ((h.2.2.1 { z with clk := { z.clk with unlocked := [4] } } 4 5).1 (by decide +kernel)) ∧
    type_of% ((h.2.2.1 z 0 5).2 (by decide +kernel)) ∧
    type_of% ((h.2.2.1 z 1 5).2 (by decide +kernel)) ∧
    type_of% ((h.2.2.1 (z.wr (Reg.status 0x0B) 1) 2 5).2 (by decide +kernel)) ∧
    type_of% ((h.2.2.1 z 3 5).2 (by decide +kernel)) ∧
    type_of% ((h.2.2.1 z 4 5).2 (by decide +kernel)) ∧
    type_of% (h.2.2.2 { z with clk := { z.clk with unlocked := [0], hold := some 6 }, power := .held } 0 5 (by decide +kernel)) ∧
    type_of% (h.2.2.2 { z with clk := { z.clk with unlocked := [4] } } 4 5 (by decide +kernel)) :=
  ⟨rfl,
   (h.1 z 0 5).2 (by decide +kernel),
   answers_next (by decide +kernel),
   answers_next (by decide +kernel),
   (by exact answers_next (by decide +kernel)),
   answers_next (by decide +kernel),
   answers_next (by decide +kernel),
   rfl,
   (h.2.2.1 z 0 5).2 (by decide +kernel),
   (by exact answers_next (by decide +kernel)),
   answers_next (by decide +kernel),
   answers_next (by decide +kernel),
   (by exact answers_next (by decide +kernel)),
   answers_next (by decide +kernel),
   answers_next (by decide +kernel)⟩

theorem witness_PowerStatesAndResetsFollowTheirCauses (h : Obligations.PowerStatesAndResetsFollowTheirCauses) :
    type_of% ((h.1 z .host (by decide +kernel)).1) ∧
    type_of% ((h.1 { z with power := .held } .steward (by decide +kernel)).2.2) ∧
    type_of% ((h.2.1 { z with power := .fallow } (by decide +kernel)).1 (by decide +kernel)) ∧
    type_of% ((h.2.1 z (by decide +kernel)).2.1 (by decide +kernel)) ∧
    type_of% ((h.2.1 (z.setLease fun l => { l with st := .holder, ownOut := true }) (by decide +kernel)).2.2.1 (by decide +kernel)) ∧
    type_of% ((h.2.1 z (by decide +kernel)).2.2.2 (by decide +kernel) (by decide +kernel)) ∧
    type_of% (h.2.2.1 { (z.wr (Reg.clkFallowCfg) 1) with power := .fallow } true (by decide +kernel) (by decide +kernel) (Or.inl rfl)) ∧
    type_of% ((h.2.2.2.1 { z with power := .dormant } (.line 3)).2 (by decide +kernel)) ∧
    type_of% ((h.2.2.2.1 { (z.wr (Reg.clkDormantCfg) 2) with power := .dormant } .pin).1 (by decide +kernel) (by decide +kernel)) ∧
    type_of% ((h.2.2.2.2 z).1) ∧
    type_of% ((h.2.2.2.2 z).2.1) ∧
    type_of% ((h.2.2.2.2 z).2.2.1 (by decide +kernel) (by decide +kernel) (by decide +kernel)) ∧
    type_of% ((h.2.2.2.2 z).2.2.2.1 (by decide +kernel)) ∧
    type_of% (((h.2.2.2.2 z).2.2.2.2.1 .steward 1).1 (by decide +kernel) (by decide +kernel) (by decide +kernel)) ∧
    type_of% (((h.2.2.2.2 z).2.2.2.2.1 .host 1).2 (by decide +kernel)) ∧
    type_of% ((h.2.2.2.2 (tk 25000 z)).2.2.2.2.2 7 (by decide +kernel) (by decide +kernel) (by decide +kernel)) :=
  ⟨rfl,
   rfl,
   answers_next (by decide +kernel),
   answers_next (by decide +kernel),
   (by exact answers_next (by decide +kernel)),
   (h.2.1 z (by decide +kernel)).2.2.2 (by decide +kernel) (by decide +kernel),
   answers_next (by decide +kernel),
   rfl,
   (h.2.2.2.1 { (z.wr (Reg.clkDormantCfg) 2) with power := .dormant } .pin).1 (by decide +kernel) (by decide +kernel),
   answers_next (by decide +kernel),
   (by exact answers_next (by decide +kernel)),
   (h.2.2.2.2 z).2.2.1 (by decide +kernel) (by decide +kernel) (by decide +kernel),
   (h.2.2.2.2 z).2.2.2.1 (by decide +kernel),
   ((h.2.2.2.2 z).2.2.2.2.1 .steward 1).1 (by decide +kernel) (by decide +kernel) (by decide +kernel),
   rfl,
   answers_next (by decide +kernel)⟩

end Chip

end Sys2Proof.Tests
end

section
/-! Node and fabric: counters that saturate (R21), and failures and conditions gathered under the spacing of R22 that are
reported once more. -/

namespace Sys2Proof

theorem capAt_eq_min (m n : Nat) : capAt m n = min m n := by
  unfold capAt
  split
  · omega
  · omega

theorem w32_capAt_toNat (n : Nat) : (w32 (capAt 0xFFFFFFFF n)).toNat = min 0xFFFFFFFF n := by
  rw [capAt_eq_min, w32, BitVec.toNat_ofNat]
  omega

theorem satInc_toNat_of_lt {w : Word} (h : w.toNat < 0xFFFFFFFF) : (satInc w).toNat = w.toNat + 1 := by
  have hne : w ≠ 0xFFFFFFFF#32 := by
    rintro rfl
    exact absurd h (by decide)
  rw [satInc, if_neg hne]
  bv_omega

theorem satInc_of_greatest {w : Word} (h : w.toNat = 0xFFFFFFFF) : satInc w = w :=
  ite_eq_left_iff.mpr fun below => absurd (BitVec.eq_of_toNat_eq h) below

namespace Machine

@[simp] theorem State.rd_bumpBy_same (s : State) (k n : Nat) :
    (s.bumpBy k n).rd k = w32 (capAt 0xFFFFFFFF ((s.rd k).toNat + n)) :=
  State.rd_wr_same s k _

/-- Settles O10: `satInc` has one case below the greatest word and one at it, and `bumpBy` caps the sum. -/
theorem countersSaturate : Obligations.CountersSaturate := by
  intro s k
  refine ⟨fun below => ?_, fun greatest => ?_, fun j other => s.rd_bump_ne other, fun n => ?_⟩
  · rw [State.rd_bump_same, satInc_toNat_of_lt below]
  · rw [State.rd_bump_same, satInc_of_greatest greatest]
  · rw [State.rd_bumpBy_same, w32_capAt_toNat]

/-! Where a record of a page goes. -/

theorem State.postPageAt_of_block (s : State) (ty flags q : Nat) (t : TimePoint) (w4 w5 w6 w7 : Word) {page i : Nat} {b : Block}
    (hb : pageBlock page = some (b, i)) :
    s.postPageAt ty page flags t q w4 w5 w6 w7 = s.postAt ty b i flags t q w4 w5 w6 w7 := by
  rw [State.postPageAt, hb]

/-- After no overwrite, a record that raises no interrupt bit is posted with the flags it has (R484). -/
theorem State.powEmit_of_no_overwrite {s : State} {r : PowRec} (hr : r.irq = none) (ho : s.pwr.overwrote = false) :
    s.powEmit r = s.postPageAt r.ty r.page r.flags r.time r.quality r.w4 r.w5 r.w6 r.w7 := by
  have same : { s with pwr := { s.pwr with overwrote := false } } = s := by rw [← ho]
  have flags : r.flags + at_ 4 (b2n s.pwr.overwrote) = r.flags := by rw [ho]; rfl
  rw [State.powEmit, flags, hr, same]

/-- A page outside the power-path die posts its QUAL_FAIL or QUAL_CLEAR at once, and the power-path die does so while the hub die takes
records (R484, R490). -/
theorem State.qualRecord_posted {s : State} (ty q : Nat) (t : TimePoint) (w4 w5 w6 w7 : Word) {page i : Nat} {b : Block}
    (hb : pageBlock page = some (b, i))
    (hp : ¬ (3 ≤ page ∧ page ≤ 5) ∨ s.takesRecords = true ∧ s.pwr.overwrote = false) :
    s.qualRecord ty page t q w4 w5 w6 w7 = s.postAt ty b i 0 t q w4 w5 w6 w7 := by
  rw [State.qualRecord, ← s.postPageAt_of_block ty 0 q t w4 w5 w6 w7 hb]
  by_cases power : 3 ≤ page ∧ page ≤ 5
  · obtain ⟨takes, noOverwrite⟩ := hp.resolve_left (not_not_intro power)
    rw [if_pos power, State.powRecord, if_pos takes, State.powEmit_of_no_overwrite (by simp [takes]) noOverwrite]
  · rw [if_neg power]

/-! What QUAL_FAIL_REPOST comes to once the 1 ms has passed and something was gathered (R22). -/

theorem exec_qualFailRepost_check {s : State} {page : Fin 256} {id : BitVec 16}
    (hs : s.spaced (s.check page id.toNat).last = false) (hg : (s.check page id.toNat).gathered ≠ 0) :
    exec (.qualFailRepost (.check page id)) s = .next (s.qualPost page id.toNat) := by
  have due : ¬ (s.spaced (s.check page id.toNat).last || decide ((s.check page id.toNat).gathered = 0)) = true := by
    simp [hs, hg]
  exact congrArg Host.Outcome.next (if_neg due)

theorem exec_qualFailRepost_other {s : State} {k : Nat}
    (hs : s.spaced (Tab.get Gather.init s.gathers k).last = false) (hg : (Tab.get Gather.init s.gathers k).count ≠ 0) :
    exec (.qualFailRepost (.other k)) s = .next (s.gatherPost k) := by
  have due : ¬ (s.spaced (Tab.get Gather.init s.gathers k).last || decide ((Tab.get Gather.init s.gathers k).count = 0)) = true := by
    simp [hs, hg]
  exact congrArg Host.Outcome.next (if_neg due)

/-- Settles O18: once due, a check's repost is `qualPost`, whose record its page's block posts, and another event's is `gatherPost`. -/
theorem gatheredFailuresAreReportedOnceMore : Obligations.GatheredFailuresAreReportedOnceMore := by
  refine ⟨fun s page id b i hs hg hb hp => ?_, fun s k b i hs hg hb => ?_⟩
  · exact (exec_qualFailRepost_check hs hg).trans (congrArg _ (State.qualRecord_posted _ _ _ _ _ _ _ hb hp))
  · exact (exec_qualFailRepost_other hs hg).trans (congrArg _ (State.postPageAt_of_block _ _ _ _ _ _ _ _ _ hb))

end Machine

end Sys2Proof
end

section
/-! The frame of every command: from the frame of each command's operation (Laws/Frame*) to the lists of `touches`. -/

namespace Sys2Proof.Machine

/-- `m` names no part outside `l` and the parts `acc` already read. Unlike `m ||| maskOf l = maskOf l`, it computes by running down `l`, so
`rfl` shows it also where `l` is `touches c` for a command whose operands are variables. -/
def coveredBy (m acc : Nat) : List Part → Bool
  | [] => m ||| acc == acc
  | p :: l => coveredBy m (acc ||| 2 ^ p.code) l

theorem coveredBy_iff (m acc : Nat) (l : List Part) :
    coveredBy m acc l = true ↔ m ||| (acc ||| maskOf l) = acc ||| maskOf l := by
  induction l generalizing acc with
  | nil => simp [coveredBy, maskOf]
  | cons p l ih => rw [coveredBy, ih, maskOf, Nat.or_assoc]

/-- An operation's parts lie among those of a command. -/
theorem Sub.of_coveredBy {m : Nat} {l : List Part} (h : coveredBy m 0 l = true) : Sub m (fun p => p ∈ l) :=
  Sub.of_maskOf (by simpa using (coveredBy_iff m 0 l).mp h)

/-- The frame of every command, arm by arm of `exec`: the frame of the command's own operation, whose parts the command's list covers. -/
theorem exec_answersIn_touches (c : Instr) (s : State) : AnswersIn (fun p => p ∈ touches c) s (exec c s) :=
  match c with
  | .registerWrite t => execRegisterWrite_frame (Frame.refl _ s) t (.of_coveredBy rfl)
  | .mbxNop a page => execMbxNop_frame (Frame.refl _ s) a page (.of_coveredBy rfl)
  | .mbxUnknownOp a page op arg => execMbxUnknownOp_frame (Frame.refl _ s) a page op arg (.of_coveredBy rfl)
  | .mbxWriteWhileBusy a page n v => execMbxWriteWhileBusy_frame (Frame.refl _ s) a page n v (.of_coveredBy rfl)
  | .mbxComplete page => execMbxComplete_frame (Frame.refl _ s) page (.of_coveredBy rfl)
  | .indAddrWrite a page v => execIndAddrWrite_frame (Frame.refl _ s) a page v (.of_coveredBy rfl)
  | .indDataRead a page => execIndDataRead_frame (Frame.refl _ s) a page (.of_coveredBy rfl)
  | .indDataWrite a page v => execIndDataWrite_frame (Frame.refl _ s) a page v (.of_coveredBy rfl)
  | .indAccessComplete page => execIndAccessComplete_frame (Frame.refl _ s) page (.of_coveredBy rfl)
  | .indTimeout a page => execIndTimeout_frame (Frame.refl _ s) a page (.of_coveredBy rfl)
  | .softReset a page => execSoftReset_frame (Frame.refl _ s) a page (.of_coveredBy rfl)
  | .freezeWrite a page on => execFreezeWrite_frame (Frame.refl _ s) a page on (.of_coveredBy rfl)
  | .enableWrite a page on => execEnableWrite_frame (Frame.refl _ s) a page on (.of_coveredBy rfl)
  | .irqPendWrite a page v edges => execIrqPendWrite_frame (Frame.refl _ s) a page v edges (.of_coveredBy rfl)
  | .counterClear a page => execCounterClear_frame (Frame.refl _ s) a page (.of_coveredBy rfl)
  | .qualFailRepost r => execQualFailRepost_frame (Frame.refl _ s) r (.of_coveredBy rfl)
  | .readTime _a => execReadTime_frame (Frame.refl _ s) _a (.of_coveredBy rfl)
  | .adjPhase a => execAdjPhase_frame (Frame.refl _ s) a (.of_coveredBy rfl)
  | .adjRate a => execAdjRate_frame (Frame.refl _ s) a (.of_coveredBy rfl)
  | .stepForce => execStepForce_frame (Frame.refl _ s) (.of_coveredBy rfl)
  | .setTime => execSetTime_frame (Frame.refl _ s) (.of_coveredBy rfl)
  | .setState a arg => execSetState_frame (Frame.refl _ s) a arg (.of_coveredBy rfl)
  | .slewStep => execSlewStep_frame (Frame.refl _ s) (.of_coveredBy rfl)
  | .uncGrowthTick => execUncGrowthTick_frame (Frame.refl _ s) (.of_coveredBy rfl)
  | .syncReceive => execSyncReceive_frame (Frame.refl _ s) (.of_coveredBy rfl)
  | .announceReceive => execAnnounceReceive_frame (Frame.refl _ s) (.of_coveredBy rfl)
  | .announceReceiptTimeout => execAnnounceReceiptTimeout_frame (Frame.refl _ s) (.of_coveredBy rfl)
  | .syncTimeout => execSyncTimeout_frame (Frame.refl _ s) (.of_coveredBy rfl)
  | .syncSend announce => execSyncSend_frame (Frame.refl _ s) announce (.of_coveredBy rfl)
  | .pdelayReqSend => execPdelayReqSend_frame (Frame.refl _ s) (.of_coveredBy rfl)
  | .pdelayReqReceive => execPdelayReqReceive_frame (Frame.refl _ s) (.of_coveredBy rfl)
  | .pdelayRespReceive port count => execPdelayRespReceive_frame (Frame.refl _ s) port count (.of_coveredBy rfl)
  | .ppsPulse src edge width => execPpsPulse_frame (Frame.refl _ s) src edge width (.of_coveredBy rfl)
  | .ppsSourceLost src => execPpsSourceLost_frame (Frame.refl _ s) src (.of_coveredBy rfl)
  | .irigFrame c b t result => execIrigFrame_frame (Frame.refl _ s) c b t result (.of_coveredBy rfl)
  | .irigSourceLost c => execIrigSourceLost_frame (Frame.refl _ s) c (.of_coveredBy rfl)
  | .lineTransition k d => execLineTransition_frame (Frame.refl _ s) k d (.of_coveredBy rfl)
  | .edgeQualified k => execEdgeQualified_frame (Frame.refl _ s) k (.of_coveredBy rfl)
  | .stampTransfer t => execStampTransfer_frame (Frame.refl _ s) t (.of_coveredBy rfl)
  | .stampDataRead t => execStampDataRead_frame (Frame.refl _ s) t (.of_coveredBy rfl)
  | .stampCfgWrite t v => execStampCfgWrite_frame (Frame.refl _ s) t v (.of_coveredBy rfl)
  | .stampUnderrunClear t => execStampUnderrunClear_frame (Frame.refl _ s) t (.of_coveredBy rfl)
  | .loadTimes arg => execLoadTimes_frame (Frame.refl _ s) arg (.of_coveredBy rfl)
  | .loadCtrl arg => execLoadCtrl_frame (Frame.refl _ s) arg (.of_coveredBy rfl)
  | .winArm arg => execWinArm_frame (Frame.refl _ s) arg (.of_coveredBy rfl)
  | .winDisarm arg => execWinDisarm_frame (Frame.refl _ s) arg (.of_coveredBy rfl)
  | .readTimes arg => execReadTimes_frame (Frame.refl _ s) arg (.of_coveredBy rfl)
  | .readCtrl arg => execReadCtrl_frame (Frame.refl _ s) arg (.of_coveredBy rfl)
  | .trigger arg => execTrigger_frame (Frame.refl _ s) arg (.of_coveredBy rfl)
  | .windowStateChange w => execWindowStateChange_frame (Frame.refl _ s) w (.of_coveredBy rfl)
  | .windowClassify k => execWindowClassify_frame (Frame.refl _ s) k (.of_coveredBy rfl)
  | .drlLoadTime arg => execDrlLoadTime_frame (Frame.refl _ s) arg (.of_coveredBy rfl)
  | .drlLoadAction arg => execDrlLoadAction_frame (Frame.refl _ s) arg (.of_coveredBy rfl)
  | .drlArm arg ecc => execDrlArm_frame (Frame.refl _ s) arg ecc (.of_coveredBy rfl)
  | .drlDisarm arg => execDrlDisarm_frame (Frame.refl _ s) arg (.of_coveredBy rfl)
  | .drlReadTime arg ecc => execDrlReadTime_frame (Frame.refl _ s) arg ecc (.of_coveredBy rfl)
  | .drlReadAction arg ecc => execDrlReadAction_frame (Frame.refl _ s) arg ecc (.of_coveredBy rfl)
  | .drlReadState arg ecc => execDrlReadState_frame (Frame.refl _ s) arg ecc (.of_coveredBy rfl)
  | .drlClear arg => execDrlClear_frame (Frame.refl _ s) arg (.of_coveredBy rfl)
  | .drillPrepare n ecc => execDrillPrepare_frame (Frame.refl _ s) n ecc (.of_coveredBy rfl)
  | .drillFire n lateNs lateRun ecc => execDrillFire_frame (Frame.refl _ s) n lateNs lateRun ecc (.of_coveredBy rfl)
  | .pulseEnd k inLatch inCommand => execPulseEnd_frame (Frame.refl _ s) k inLatch inCommand (.of_coveredBy rfl)
  | .vddioWindowChange t v => execVddioWindowChange_frame (Frame.refl _ s) t v (.of_coveredBy rfl)
  | .bankCheckFail t => execBankCheckFail_frame (Frame.refl _ s) t (.of_coveredBy rfl)
  | .bankCheckClear t => execBankCheckClear_frame (Frame.refl _ s) t (.of_coveredBy rfl)
  | .bankCfgWrite t v => execBankCfgWrite_frame (Frame.refl _ s) t v (.of_coveredBy rfl)
  | .tileClockLock t => execTileClockLock_frame (Frame.refl _ s) t (.of_coveredBy rfl)
  | .tileClockLockTimeout t => execTileClockLockTimeout_frame (Frame.refl _ s) t (.of_coveredBy rfl)
  | .tileClockStop t => execTileClockStop_frame (Frame.refl _ s) t (.of_coveredBy rfl)
  | .funcWrite c v => execFuncWrite_frame (Frame.refl _ s) c v (.of_coveredBy rfl)
  | .outSet c v => execOutSet_frame (Frame.refl _ s) c v (.of_coveredBy rfl)
  | .outClr c v => execOutClr_frame (Frame.refl _ s) c v (.of_coveredBy rfl)
  | .safeEnter c v => execSafeEnter_frame (Frame.refl _ s) c v (.of_coveredBy rfl)
  | .safeRelease c v => execSafeRelease_frame (Frame.refl _ s) c v (.of_coveredBy rfl)
  | .maxWidthExpiry k => execMaxWidthExpiry_frame (Frame.refl _ s) k (.of_coveredBy rfl)
  | .idleExpiry k => execIdleExpiry_frame (Frame.refl _ s) k (.of_coveredBy rfl)
  | .leakTick k => execLeakTick_frame (Frame.refl _ s) k (.of_coveredBy rfl)
  | .readbackMismatch k => execReadbackMismatch_frame (Frame.refl _ s) k (.of_coveredBy rfl)
  | .ctrCapture c => execCtrCapture_frame (Frame.refl _ s) c (.of_coveredBy rfl)
  | .ctrZero c => execCtrZero_frame (Frame.refl _ s) c (.of_coveredBy rfl)
  | .periodicCapture c => execPeriodicCapture_frame (Frame.refl _ s) c (.of_coveredBy rfl)
  | .rxDataRead u => execRxDataRead_frame (Frame.refl _ s) u (.of_coveredBy rfl)
  | .rxDropRest u => execRxDropRest_frame (Frame.refl _ s) u (.of_coveredBy rfl)
  | .rxFlush u => execRxFlush_frame (Frame.refl _ s) u (.of_coveredBy rfl)
  | .rxUnderClr u => execRxUnderClr_frame (Frame.refl _ s) u (.of_coveredBy rfl)
  | .txDataWrite c w => execTxDataWrite_frame (Frame.refl _ s) c w (.of_coveredBy rfl)
  | .txDropRest c => execTxDropRest_frame (Frame.refl _ s) c (.of_coveredBy rfl)
  | .txFlush c => execTxFlush_frame (Frame.refl _ s) c (.of_coveredBy rfl)
  | .txUnderClr c => execTxUnderClr_frame (Frame.refl _ s) c (.of_coveredBy rfl)
  | .halt c d => execHalt_frame (Frame.refl _ s) c d (.of_coveredBy rfl)
  | .shiftOut c d => execShiftOut_frame (Frame.refl _ s) c d (.of_coveredBy rfl)
  | .shiftIn c d => execShiftIn_frame (Frame.refl _ s) c d (.of_coveredBy rfl)
  | .drive c d => execDrive_frame (Frame.refl _ s) c d (.of_coveredBy rfl)
  | .sample c d => execSample_frame (Frame.refl _ s) c d (.of_coveredBy rfl)
  | .load c d => execLoad_frame (Frame.refl _ s) c d (.of_coveredBy rfl)
  | .branch c d => execBranch_frame (Frame.refl _ s) c d (.of_coveredBy rfl)
  | .wait c d => execWait_frame (Frame.refl _ s) c d (.of_coveredBy rfl)
  | .waitEnd c d => execWaitEnd_frame (Frame.refl _ s) c d (.of_coveredBy rfl)
  | .waitTimeMark c d => execWaitTimeMark_frame (Frame.refl _ s) c d (.of_coveredBy rfl)
  | .engineMarkPrepare c => execEngineMarkPrepare_frame (Frame.refl _ s) c (.of_coveredBy rfl)
  | .push c d => execPush_frame (Frame.refl _ s) c d (.of_coveredBy rfl)
  | .pull c d => execPull_frame (Frame.refl _ s) c d (.of_coveredBy rfl)
  | .stamp c d => execStamp_frame (Frame.refl _ s) c d (.of_coveredBy rfl)
  | .markSetFlag c d => execMarkSetFlag_frame (Frame.refl _ s) c d (.of_coveredBy rfl)
  | .markClearFlag c d => execMarkClearFlag_frame (Frame.refl _ s) c d (.of_coveredBy rfl)
  | .markPost c d => execMarkPost_frame (Frame.refl _ s) c d (.of_coveredBy rfl)
  | .stallEnd c d cycles => execStallEnd_frame (Frame.refl _ s) c d cycles (.of_coveredBy rfl)
  | .engStart c => execEngStart_frame (Frame.refl _ s) c (.of_coveredBy rfl)
  | .engHalt c => execEngHalt_frame (Frame.refl _ s) c (.of_coveredBy rfl)
  | .engineReset c => execEngineReset_frame (Frame.refl _ s) c (.of_coveredBy rfl)
  | .commitAtWrap c => execCommitAtWrap_frame (Frame.refl _ s) c (.of_coveredBy rfl)
  | .commitImmediate c a => execCommitImmediate_frame (Frame.refl _ s) c a (.of_coveredBy rfl)
  | .commitSwap c d => execCommitSwap_frame (Frame.refl _ s) c d (.of_coveredBy rfl)
  | .cancelCommit c => execCancelCommit_frame (Frame.refl _ s) c (.of_coveredBy rfl)
  | .copyActive c => execCopyActive_frame (Frame.refl _ s) c (.of_coveredBy rfl)
  | .copyDone c => execCopyDone_frame (Frame.refl _ s) c (.of_coveredBy rfl)
  | .grpStart => execGrpStart_frame (Frame.refl _ s) (.of_coveredBy rfl)
  | .startEventAct k d => execStartEventAct_frame (Frame.refl _ s) k d (.of_coveredBy rfl)
  | .engSegWrite c v => execEngSegWrite_frame (Frame.refl _ s) c v (.of_coveredBy rfl)
  | .progDataWrite c v => execProgDataWrite_frame (Frame.refl _ s) c v (.of_coveredBy rfl)
  | .engFlagSet c v => execEngFlagSet_frame (Frame.refl _ s) c v (.of_coveredBy rfl)
  | .engFlagClr c v setToo => execEngFlagClr_frame (Frame.refl _ s) c v setToo (.of_coveredBy rfl)
  | .engMarkWrite c v => execEngMarkWrite_frame (Frame.refl _ s) c v (.of_coveredBy rfl)
  | .engOsrWrite c v => execEngOsrWrite_frame (Frame.refl _ s) c v (.of_coveredBy rfl)
  | .ruleEvaluate d ecc => execRuleEvaluate_frame (Frame.refl _ s) d ecc (.of_coveredBy rfl)
  | .ruleTick n => execRuleTick_frame (Frame.refl _ s) n (.of_coveredBy rfl)
  | .loadTermsA arg => execLoadTermsA_frame (Frame.refl _ s) arg (.of_coveredBy rfl)
  | .loadTermsB arg => execLoadTermsB_frame (Frame.refl _ s) arg (.of_coveredBy rfl)
  | .loadAct arg => execLoadAct_frame (Frame.refl _ s) arg (.of_coveredBy rfl)
  | .rfxArm arg ecc => execRfxArm_frame (Frame.refl _ s) arg ecc (.of_coveredBy rfl)
  | .rfxDisarm arg => execRfxDisarm_frame (Frame.refl _ s) arg (.of_coveredBy rfl)
  | .readTermsA arg ecc => execReadTermsA_frame (Frame.refl _ s) arg ecc (.of_coveredBy rfl)
  | .readTermsB arg ecc => execReadTermsB_frame (Frame.refl _ s) arg ecc (.of_coveredBy rfl)
  | .readAct arg ecc => execReadAct_frame (Frame.refl _ s) arg ecc (.of_coveredBy rfl)
  | .rfxClear arg => execRfxClear_frame (Frame.refl _ s) arg (.of_coveredBy rfl)
  | .swfSet v => execSwfSet_frame (Frame.refl _ s) v (.of_coveredBy rfl)
  | .swfClr v => execSwfClr_frame (Frame.refl _ s) v (.of_coveredBy rfl)
  | .loadPub arg => execLoadPub_frame (Frame.refl _ s) arg (.of_coveredBy rfl)
  | .setValue arg => execSetValue_frame (Frame.refl _ s) arg (.of_coveredBy rfl)
  | .readPub arg => execReadPub_frame (Frame.refl _ s) arg (.of_coveredBy rfl)
  | .loadSub arg => execLoadSub_frame (Frame.refl _ s) arg (.of_coveredBy rfl)
  | .readSub arg => execReadSub_frame (Frame.refl _ s) arg (.of_coveredBy rfl)
  | .readSubcfg arg => execReadSubcfg_frame (Frame.refl _ s) arg (.of_coveredBy rfl)
  | .clearSub arg => execClearSub_frame (Frame.refl _ s) arg (.of_coveredBy rfl)
  | .readPubcfg arg => execReadPubcfg_frame (Frame.refl _ s) arg (.of_coveredBy rfl)
  | .heartbeatScan => execHeartbeatScan_frame (Frame.refl _ s) (.of_coveredBy rfl)
  | .signalFrameReceive => execSignalFrameReceive_frame (Frame.refl _ s) (.of_coveredBy rfl)
  | .subscriptionStale n => execSubscriptionStale_frame (Frame.refl _ s) n (.of_coveredBy rfl)
  | .frameReceive port w => execFrameReceive_frame (Frame.refl _ s) port w (.of_coveredBy rfl)
  | .egressTransmitStart port ecc => execEgressTransmitStart_frame (Frame.refl _ s) port ecc (.of_coveredBy rfl)
  | .frameTransmitEnd port ecc => execFrameTransmitEnd_frame (Frame.refl _ s) port ecc (.of_coveredBy rfl)
  | .preemption port => execPreemption_frame (Frame.refl _ s) port (.of_coveredBy rfl)
  | .trainingComplete port fec txeq rxeq => execTrainingComplete_frame (Frame.refl _ s) port fec txeq rxeq (.of_coveredBy rfl)
  | .trainingTimeout port => execTrainingTimeout_frame (Frame.refl _ s) port (.of_coveredBy rfl)
  | .blockLockAcquired port => execBlockLockAcquired_frame (Frame.refl _ s) port (.of_coveredBy rfl)
  | .lockingTimeout port => execLockingTimeout_frame (Frame.refl _ s) port (.of_coveredBy rfl)
  | .upHoldExpiry port => execUpHoldExpiry_frame (Frame.refl _ s) port (.of_coveredBy rfl)
  | .linkDownCondition port event => execLinkDownCondition_frame (Frame.refl _ s) port event (.of_coveredBy rfl)
  | .holdDownExpiry port => execHoldDownExpiry_frame (Frame.refl _ s) port (.of_coveredBy rfl)
  | .dupEntryAge headland src => execDupEntryAge_frame (Frame.refl _ s) headland src (.of_coveredBy rfl)
  | .quietPeriodEnd => execQuietPeriodEnd_frame (Frame.refl _ s) (.of_coveredBy rfl)
  | .fpCheckClear port check => execFpCheckClear_frame (Frame.refl _ s) port check (.of_coveredBy rfl)
  | .prbsErrRead port => execPrbsErrRead_frame (Frame.refl _ s) port (.of_coveredBy rfl)
  | .idCfgWrite v => execIdCfgWrite_frame (Frame.refl _ s) v (.of_coveredBy rfl)
  | .farIdWrite v => execFarIdWrite_frame (Frame.refl _ s) v (.of_coveredBy rfl)
  | .idActivate far => execIdActivate_frame (Frame.refl _ s) far (.of_coveredBy rfl)
  | .neighbourSend => execNeighbourSend_frame (Frame.refl _ s) (.of_coveredBy rfl)
  | .supervisionSend far => execSupervisionSend_frame (Frame.refl _ s) far (.of_coveredBy rfl)
  | .ringMgmtReceive => execRingMgmtReceive_frame (Frame.refl _ s) (.of_coveredBy rfl)
  | .neighbourSilent port => execNeighbourSilent_frame (Frame.refl _ s) port (.of_coveredBy rfl)
  | .stationTimeout n => execStationTimeout_frame (Frame.refl _ s) n (.of_coveredBy rfl)
  | .supervisionMissed far => execSupervisionMissed_frame (Frame.refl _ s) far (.of_coveredBy rfl)
  | .hsrSupervisionSend => execHsrSupervisionSend_frame (Frame.refl _ s) (.of_coveredBy rfl)
  | .copyWrite => execCopyWrite_frame (Frame.refl _ s) (.of_coveredBy rfl)
  | .replicationTimeout k => execReplicationTimeout_frame (Frame.refl _ s) k (.of_coveredBy rfl)
  | .mirrorCopyTimeout k => execMirrorCopyTimeout_frame (Frame.refl _ s) k (.of_coveredBy rfl)
  | .pushoutRepost port => execPushoutRepost_frame (Frame.refl _ s) port (.of_coveredBy rfl)
  | .migration port cls => execMigration_frame (Frame.refl _ s) port cls (.of_coveredBy rfl)
  | .storeReadback port cls ecc => execStoreReadback_frame (Frame.refl _ s) port cls ecc (.of_coveredBy rfl)
  | .storeCfgWrite size v => execStoreCfgWrite_frame (Frame.refl _ s) size v (.of_coveredBy rfl)
  | .bufMarksWrite spill v => execBufMarksWrite_frame (Frame.refl _ s) spill v (.of_coveredBy rfl)
  | .ddrTrainingDone fail => execDdrTrainingDone_frame (Frame.refl _ s) fail (.of_coveredBy rfl)
  | .requestIssue q user => execRequestIssue_frame (Frame.refl _ s) q user (.of_coveredBy rfl)
  | .tagStallEnd => execTagStallEnd_frame (Frame.refl _ s) (.of_coveredBy rfl)
  | .transactionFrameReceive => execTransactionFrameReceive_frame (Frame.refl _ s) (.of_coveredBy rfl)
  | .gapLost source => execGapLost_frame (Frame.refl _ s) source (.of_coveredBy rfl)
  | .streamAgeExpiry source => execStreamAgeExpiry_frame (Frame.refl _ s) source (.of_coveredBy rfl)
  | .requestExecute ecc => execRequestExecute_frame (Frame.refl _ s) ecc (.of_coveredBy rfl)
  | .postedWriteExecute ecc => execPostedWriteExecute_frame (Frame.refl _ s) ecc (.of_coveredBy rfl)
  | .messageExecute => execMessageExecute_frame (Frame.refl _ s) (.of_coveredBy rfl)
  | .discardReceive => execDiscardReceive_frame (Frame.refl _ s) (.of_coveredBy rfl)
  | .completionReceive => execCompletionReceive_frame (Frame.refl _ s) (.of_coveredBy rfl)
  | .retryTimer t => execRetryTimer_frame (Frame.refl _ s) t (.of_coveredBy rfl)
  | .busyBackoffExpiry t => execBusyBackoffExpiry_frame (Frame.refl _ s) t (.of_coveredBy rfl)
  | .npTimeout t => execNpTimeout_frame (Frame.refl _ s) t (.of_coveredBy rfl)
  | .ccHoldExpiry source code tag => execCcHoldExpiry_frame (Frame.refl _ s) source code tag (.of_coveredBy rfl)
  | .lostReportReceive => execLostReportReceive_frame (Frame.refl _ s) (.of_coveredBy rfl)
  | .eventReportReceive => execEventReportReceive_frame (Frame.refl _ s) (.of_coveredBy rfl)
  | .msgDataRead => execMsgDataRead_frame (Frame.refl _ s) (.of_coveredBy rfl)
  | .msgUnderClr => execMsgUnderClr_frame (Frame.refl _ s) (.of_coveredBy rfl)
  | .stateReceive m => execStateReceive_frame (Frame.refl _ s) m (.of_coveredBy rfl)
  | .releaseReceive m => execReleaseReceive_frame (Frame.refl _ s) m (.of_coveredBy rfl)
  | .hoReqReceive m => execHoReqReceive_frame (Frame.refl _ s) m (.of_coveredBy rfl)
  | .hoAckReceive m => execHoAckReceive_frame (Frame.refl _ s) m (.of_coveredBy rfl)
  | .hoCancelReceive m => execHoCancelReceive_frame (Frame.refl _ s) m (.of_coveredBy rfl)
  | .echoReceive m residence => execEchoReceive_frame (Frame.refl _ s) m residence (.of_coveredBy rfl)
  | .echoReplyReceive m roundTrip => execEchoReplyReceive_frame (Frame.refl _ s) m roundTrip (.of_coveredBy rfl)
  | .plkAlignTimeout => execPlkAlignTimeout_frame (Frame.refl _ s) (.of_coveredBy rfl)
  | .plkHoldExpiry => execPlkHoldExpiry_frame (Frame.refl _ s) (.of_coveredBy rfl)
  | .plkDownCondition cause => execPlkDownCondition_frame (Frame.refl _ s) cause (.of_coveredBy rfl)
  | .partnerSilent => execPartnerSilent_frame (Frame.refl _ s) (.of_coveredBy rfl)
  | .stateSend => execStateSend_frame (Frame.refl _ s) (.of_coveredBy rfl)
  | .echoSend => execEchoSend_frame (Frame.refl _ s) (.of_coveredBy rfl)
  | .leaseExpiry => execLeaseExpiry_frame (Frame.refl _ s) (.of_coveredBy rfl)
  | .startingTimeout => execStartingTimeout_frame (Frame.refl _ s) (.of_coveredBy rfl)
  | .takeoverComplete => execTakeoverComplete_frame (Frame.refl _ s) (.of_coveredBy rfl)
  | .selfExpiry => execSelfExpiry_frame (Frame.refl _ s) (.of_coveredBy rfl)
  | .peerOwnChange level => execPeerOwnChange_frame (Frame.refl _ s) level (.of_coveredBy rfl)
  | .leaseConflict => execLeaseConflict_frame (Frame.refl _ s) (.of_coveredBy rfl)
  | .ownOutReadbackFault differs => execOwnOutReadbackFault_frame (Frame.refl _ s) differs (.of_coveredBy rfl)
  | .releaseConfirm => execReleaseConfirm_frame (Frame.refl _ s) (.of_coveredBy rfl)
  | .compareFail => execCompareFail_frame (Frame.refl _ s) (.of_coveredBy rfl)
  | .compareClear => execCompareClear_frame (Frame.refl _ s) (.of_coveredBy rfl)
  | .faultClr v => execFaultClr_frame (Frame.refl _ s) v (.of_coveredBy rfl)
  | .faultSet v => execFaultSet_frame (Frame.refl _ s) v (.of_coveredBy rfl)
  | .revertHoldExpiry => execRevertHoldExpiry_frame (Frame.refl _ s) (.of_coveredBy rfl)
  | .handoverTime => execHandoverTime_frame (Frame.refl _ s) (.of_coveredBy rfl)
  | .handoverRetakeCheck => execHandoverRetakeCheck_frame (Frame.refl _ s) (.of_coveredBy rfl)
  | .timingWrite v => execTimingWrite_frame (Frame.refl _ s) v (.of_coveredBy rfl)
  | .canFrameReceived n f t => execCanFrameReceived_frame (Frame.refl _ s) n f t (.of_coveredBy rfl)
  | .canRxError n e dataPhase eight => execCanRxError_frame (Frame.refl _ s) n e dataPhase eight (.of_coveredBy rfl)
  | .canArbitrationStart n sof => execCanArbitrationStart_frame (Frame.refl _ s) n sof (.of_coveredBy rfl)
  | .canArbitrationLost n => execCanArbitrationLost_frame (Frame.refl _ s) n (.of_coveredBy rfl)
  | .canTxSuccess n tdcv => execCanTxSuccess_frame (Frame.refl _ s) n tdcv (.of_coveredBy rfl)
  | .canTxError n e dataPhase held => execCanTxError_frame (Frame.refl _ s) n e dataPhase held (.of_coveredBy rfl)
  | .canProtocolException n => execCanProtocolException_frame (Frame.refl _ s) n (.of_coveredBy rfl)
  | .canBusIdle n => execCanBusIdle_frame (Frame.refl _ s) n (.of_coveredBy rfl)
  | .canRecoveryComplete n => execCanRecoveryComplete_frame (Frame.refl _ s) n (.of_coveredBy rfl)
  | .canInitEntry n => execCanInitEntry_frame (Frame.refl _ s) n (.of_coveredBy rfl)
  | .txreq n v => execTxreq_frame (Frame.refl _ s) n v (.of_coveredBy rfl)
  | .txcancel n v => execTxcancel_frame (Frame.refl _ s) n v (.of_coveredBy rfl)
  | .txresClr n v => execTxresClr_frame (Frame.refl _ s) n v (.of_coveredBy rfl)
  | .canTxDataWrite n w => execCanTxDataWrite_frame (Frame.refl _ s) n w (.of_coveredBy rfl)
  | .canTxFlush n => execCanTxFlush_frame (Frame.refl _ s) n (.of_coveredBy rfl)
  | .canRecover n => execCanRecover_frame (Frame.refl _ s) n (.of_coveredBy rfl)
  | .canMbWrite n m k v => execCanMbWrite_frame (Frame.refl _ s) n m k v (.of_coveredBy rfl)
  | .uartCharReceive c data t fault => execUartCharReceive_frame (Frame.refl _ s) c data t fault (.of_coveredBy rfl)
  | .uartGapExpiry c => execUartGapExpiry_frame (Frame.refl _ s) c (.of_coveredBy rfl)
  | .uartTxStart c => execUartTxStart_frame (Frame.refl _ s) c (.of_coveredBy rfl)
  | .uartTxEnd c => execUartTxEnd_frame (Frame.refl _ s) c (.of_coveredBy rfl)
  | .spiTransactionStart c => execSpiTransactionStart_frame (Frame.refl _ s) c (.of_coveredBy rfl)
  | .spiTransactionEnd c rx => execSpiTransactionEnd_frame (Frame.refl _ s) c rx (.of_coveredBy rfl)
  | .spiCsAssert c => execSpiCsAssert_frame (Frame.refl _ s) c (.of_coveredBy rfl)
  | .spiCsRelease c rx partial_ => execSpiCsRelease_frame (Frame.refl _ s) c rx partial_ (.of_coveredBy rfl)
  | .i2cTransactionStart c => execI2cTransactionStart_frame (Frame.refl _ s) c (.of_coveredBy rfl)
  | .i2cTransactionEnd c result acked read => execI2cTransactionEnd_frame (Frame.refl _ s) c result acked read (.of_coveredBy rfl)
  | .smbusTimeout c acked read => execSmbusTimeout_frame (Frame.refl _ s) c acked read (.of_coveredBy rfl)
  | .i2cBusClear c => execI2cBusClear_frame (Frame.refl _ s) c (.of_coveredBy rfl)
  | .ppsOutStart c => execPpsOutStart_frame (Frame.refl _ s) c (.of_coveredBy rfl)
  | .ppsOutEnd c => execPpsOutEnd_frame (Frame.refl _ s) c (.of_coveredBy rfl)
  | .perstDeassert => execPerstDeassert_frame (Frame.refl _ s) (.of_coveredBy rfl)
  | .cfgRetryTimeout => execCfgRetryTimeout_frame (Frame.refl _ s) (.of_coveredBy rfl)
  | .hostConfigRequest q => execHostConfigRequest_frame (Frame.refl _ s) q (.of_coveredBy rfl)
  | .hostMemoryRead bar off len bad => execHostMemoryRead_frame (Frame.refl _ s) bar off len bad (.of_coveredBy rfl)
  | .hostMemoryWrite bar off data bad => execHostMemoryWrite_frame (Frame.refl _ s) bar off data bad (.of_coveredBy rfl)
  | .msixUnmask v => execMsixUnmask_frame (Frame.refl _ s) v (.of_coveredBy rfl)
  | .hostReadAbandon num => execHostReadAbandon_frame (Frame.refl _ s) num (.of_coveredBy rfl)
  | .hostReset cause => execHostReset_frame (Frame.refl _ s) cause (.of_coveredBy rfl)
  | .hostLinkUp speed width => execHostLinkUp_frame (Frame.refl _ s) speed width (.of_coveredBy rfl)
  | .hostCompletionReceive c off r => execHostCompletionReceive_frame (Frame.refl _ s) c off r (.of_coveredBy rfl)
  | .hostReadTimeout c off => execHostReadTimeout_frame (Frame.refl _ s) c off (.of_coveredBy rfl)
  | .qCfgWrite n v => execQCfgWrite_frame (Frame.refl _ s) n v (.of_coveredBy rfl)
  | .qCiWrite n v => execQCiWrite_frame (Frame.refl _ s) n v (.of_coveredBy rfl)
  | .evqHoldoffExpiry n => execEvqHoldoffExpiry_frame (Frame.refl _ s) n (.of_coveredBy rfl)
  | .postCmd v => execPostCmd_frame (Frame.refl _ s) v (.of_coveredBy rfl)
  | .dcRunWrite c v => execDcRunWrite_frame (Frame.refl _ s) c v (.of_coveredBy rfl)
  | .dcTailWrite c v => execDcTailWrite_frame (Frame.refl _ s) c v (.of_coveredBy rfl)
  | .dcReset c => execDcReset_frame (Frame.refl _ s) c (.of_coveredBy rfl)
  | .dmaDescriptorExecute c fetched => execDmaDescriptorExecute_frame (Frame.refl _ s) c fetched (.of_coveredBy rfl)
  | .dmaDescriptorComplete c => execDmaDescriptorComplete_frame (Frame.refl _ s) c (.of_coveredBy rfl)
  | .icuClaim t a => execIcuClaim_frame (Frame.refl _ s) t a (.of_coveredBy rfl)
  | .icuComplete t a v => execIcuComplete_frame (Frame.refl _ s) t a v (.of_coveredBy rfl)
  | .thresholdWrite t a v => execThresholdWrite_frame (Frame.refl _ s) t a v (.of_coveredBy rfl)
  | .swset t a v => execSwset_frame (Frame.refl _ s) t a v (.of_coveredBy rfl)
  | .srcCfgWrite k a v => execSrcCfgWrite_frame (Frame.refl _ s) k a v (.of_coveredBy rfl)
  | .privCfgWrite t j a v => execPrivCfgWrite_frame (Frame.refl _ s) t j a v (.of_coveredBy rfl)
  | .ipi t a v => execIpi_frame (Frame.refl _ s) t a v (.of_coveredBy rfl)
  | .tmrWrite t k a v => execTmrWrite_frame (Frame.refl _ s) t k a v (.of_coveredBy rfl)
  | .timerExpiry t k => execTimerExpiry_frame (Frame.refl _ s) t k (.of_coveredBy rfl)
  | .holdoffEnd g => execHoldoffEnd_frame (Frame.refl _ s) g (.of_coveredBy rfl)
  | .lockstepMiscompare n pc output => execLockstepMiscompare_frame (Frame.refl _ s) n pc output (.of_coveredBy rfl)
  | .pairAutoRestart n => execPairAutoRestart_frame (Frame.refl _ s) n (.of_coveredBy rfl)
  | .lockstepFaultForget n => execLockstepFaultForget_frame (Frame.refl _ s) n (.of_coveredBy rfl)
  | .watchdogKick n v pc => execWatchdogKick_frame (Frame.refl _ s) n v pc (.of_coveredBy rfl)
  | .watchdogWarning n => execWatchdogWarning_frame (Frame.refl _ s) n (.of_coveredBy rfl)
  | .watchdogExpiry n pc => execWatchdogExpiry_frame (Frame.refl _ s) n pc (.of_coveredBy rfl)
  | .memoryScrub m ecc => execMemoryScrub_frame (Frame.refl _ s) m ecc (.of_coveredBy rfl)
  | .eccReportRepost page mem uncorr => execEccReportRepost_frame (Frame.refl _ s) page mem uncorr (.of_coveredBy rfl)
  | .coreCtrlReset v => execCoreCtrlReset_frame (Frame.refl _ s) v (.of_coveredBy rfl)
  | .coreCtrlRun v => execCoreCtrlRun_frame (Frame.refl _ s) v (.of_coveredBy rfl)
  | .nodeStart octal => execNodeStart_frame (Frame.refl _ s) octal (.of_coveredBy rfl)
  | .svcCommit slot => execSvcCommit_frame (Frame.refl _ s) slot (.of_coveredBy rfl)
  | .svcMigrateCommit slot => execSvcMigrateCommit_frame (Frame.refl _ s) slot (.of_coveredBy rfl)
  | .stage slot => execStage_frame (Frame.refl _ s) slot (.of_coveredBy rfl)
  | .svcReboot slot => execSvcReboot_frame (Frame.refl _ s) slot (.of_coveredBy rfl)
  | .readRecord slot => execReadRecord_frame (Frame.refl _ s) slot (.of_coveredBy rfl)
  | .writeRecord slot => execWriteRecord_frame (Frame.refl _ s) slot (.of_coveredBy rfl)
  | .migrateDone slot => execMigrateDone_frame (Frame.refl _ s) slot (.of_coveredBy rfl)
  | .bootCommitField => execBootCommitField_frame (Frame.refl _ s) (.of_coveredBy rfl)
  | .bootCommitKeeper => execBootCommitKeeper_frame (Frame.refl _ s) (.of_coveredBy rfl)
  | .bootMigrateCommit => execBootMigrateCommit_frame (Frame.refl _ s) (.of_coveredBy rfl)
  | .trialTimeLimit => execTrialTimeLimit_frame (Frame.refl _ s) (.of_coveredBy rfl)
  | .ospiRead fail => execOspiRead_frame (Frame.refl _ s) fail (.of_coveredBy rfl)
  | .program fail => execProgram_frame (Frame.refl _ s) fail (.of_coveredBy rfl)
  | .erase4k fail => execErase4k_frame (Frame.refl _ s) fail (.of_coveredBy rfl)
  | .erase64k fail => execErase64k_frame (Frame.refl _ s) fail (.of_coveredBy rfl)
  | .readSfdp fail => execReadSfdp_frame (Frame.refl _ s) fail (.of_coveredBy rfl)
  | .protWrite n a v => execProtWrite_frame (Frame.refl _ s) n a v (.of_coveredBy rfl)
  | .revoke arg otpFail => execRevoke_frame (Frame.refl _ s) arg otpFail (.of_coveredBy rfl)
  | .advance arg otpFail => execAdvance_frame (Frame.refl _ s) arg otpFail (.of_coveredBy rfl)
  | .blowFuse arg otpFail => execBlowFuse_frame (Frame.refl _ s) arg otpFail (.of_coveredBy rfl)
  | .shaInit => execShaInit_frame (Frame.refl _ s) (.of_coveredBy rfl)
  | .shaUpdate arg => execShaUpdate_frame (Frame.refl _ s) arg (.of_coveredBy rfl)
  | .shaFinal => execShaFinal_frame (Frame.refl _ s) (.of_coveredBy rfl)
  | .verify => execVerify_frame (Frame.refl _ s) (.of_coveredBy rfl)
  | .feedVoltageChange b mv vbus => execFeedVoltageChange_frame (Frame.refl _ s) b mv vbus (.of_coveredBy rfl)
  | .feedUvMark b => execFeedUvMark_frame (Frame.refl _ s) b (.of_coveredBy rfl)
  | .feedSettleExpiry b => execFeedSettleExpiry_frame (Frame.refl _ s) b (.of_coveredBy rfl)
  | .reverseCurrent b diff => execReverseCurrent_frame (Frame.refl _ s) b diff (.of_coveredBy rfl)
  | .seatPinChange b asserted => execSeatPinChange_frame (Frame.refl _ s) b asserted (.of_coveredBy rfl)
  | .seatDebounceComplete => execSeatDebounceComplete_frame (Frame.refl _ s) (.of_coveredBy rfl)
  | .seatReleaseTimeout => execSeatReleaseTimeout_frame (Frame.refl _ s) (.of_coveredBy rfl)
  | .rampStart => execRampStart_frame (Frame.refl _ s) (.of_coveredBy rfl)
  | .rampComplete => execRampComplete_frame (Frame.refl _ s) (.of_coveredBy rfl)
  | .limitTimeout shunt => execLimitTimeout_frame (Frame.refl _ s) shunt (.of_coveredBy rfl)
  | .fastTrip shunt vout => execFastTrip_frame (Frame.refl _ s) shunt vout (.of_coveredBy rfl)
  | .thermalModelStep vbus vout shuntUv => execThermalModelStep_frame (Frame.refl _ s) vbus vout shuntUv (.of_coveredBy rfl)
  | .tsMeasure t => execTsMeasure_frame (Frame.refl _ s) t (.of_coveredBy rfl)
  | .retryTimerExpiry => execRetryTimerExpiry_frame (Frame.refl _ s) (.of_coveredBy rfl)
  | .retryForget => execRetryForget_frame (Frame.refl _ s) (.of_coveredBy rfl)
  | .pwrStart => execPwrStart_frame (Frame.refl _ s) (.of_coveredBy rfl)
  | .pwrStop => execPwrStop_frame (Frame.refl _ s) (.of_coveredBy rfl)
  | .unlatch => execUnlatch_frame (Frame.refl _ s) (.of_coveredBy rfl)
  | .dyingGaspDecision us => execDyingGaspDecision_frame (Frame.refl _ s) us (.of_coveredBy rfl)
  | .dyingGaspEnd => execDyingGaspEnd_frame (Frame.refl _ s) (.of_coveredBy rfl)
  | .railStepEnable => execRailStepEnable_frame (Frame.refl _ s) (.of_coveredBy rfl)
  | .railStepDisable => execRailStepDisable_frame (Frame.refl _ s) (.of_coveredBy rfl)
  | .railPgChange r level => execRailPgChange_frame (Frame.refl _ s) r level (.of_coveredBy rfl)
  | .pgTimeout r => execPgTimeout_frame (Frame.refl _ s) r (.of_coveredBy rfl)
  | .pgLost r => execPgLost_frame (Frame.refl _ s) r (.of_coveredBy rfl)
  | .adcConversion c code => execAdcConversion_frame (Frame.refl _ s) c code (.of_coveredBy rfl)
  | .adcArmTimeout c => execAdcArmTimeout_frame (Frame.refl _ s) c (.of_coveredBy rfl)
  | .clockMonitorFail n hz => execClockMonitorFail_frame (Frame.refl _ s) n hz (.of_coveredBy rfl)
  | .clockMonitorClear n hz => execClockMonitorClear_frame (Frame.refl _ s) n hz (.of_coveredBy rfl)
  | .pllLockLost p hz => execPllLockLost_frame (Frame.refl _ s) p hz (.of_coveredBy rfl)
  | .pllRelock p hz => execPllRelock_frame (Frame.refl _ s) p hz (.of_coveredBy rfl)
  | .stateReqActive a => execStateReqActive_frame (Frame.refl _ s) a (.of_coveredBy rfl)
  | .stateReqFallow a => execStateReqFallow_frame (Frame.refl _ s) a (.of_coveredBy rfl)
  | .stateReqDormant a => execStateReqDormant_frame (Frame.refl _ s) a (.of_coveredBy rfl)
  | .fallowAutoWake access => execFallowAutoWake_frame (Frame.refl _ s) access (.of_coveredBy rfl)
  | .dormantWake w => execDormantWake_frame (Frame.refl _ s) w (.of_coveredBy rfl)
  | .aoPor => execAoPor_frame (Frame.refl _ s) (.of_coveredBy rfl)
  | .vddAoLoss => execVddAoLoss_frame (Frame.refl _ s) (.of_coveredBy rfl)
  | .hubDiePowerLoss => execHubDiePowerLoss_frame (Frame.refl _ s) (.of_coveredBy rfl)
  | .rstNAssert => execRstNAssert_frame (Frame.refl _ s) (.of_coveredBy rfl)
  | .reboot a v => execReboot_frame (Frame.refl _ s) a v (.of_coveredBy rfl)
  | .strapSample v => execStrapSample_frame (Frame.refl _ s) v (.of_coveredBy rfl)
  | .tclkEdge => execTclkEdge_frame (Frame.refl _ s) (.of_coveredBy rfl)
  | .xt32Edge => execXt32Edge_frame (Frame.refl _ s) (.of_coveredBy rfl)
  | .followUpReceive => execFollowUpReceive_frame (Frame.refl _ s) (.of_coveredBy rfl)
  | .illegalInstruction c d => execIllegalInstruction_frame (Frame.refl _ s) c d (.of_coveredBy rfl)
  | .engineFetchEcc c d ecc => execEngineFetchEcc_frame (Frame.refl _ s) c d ecc (.of_coveredBy rfl)
  | .plkMessageRejected m => execPlkMessageRejected_frame (Frame.refl _ s) m (.of_coveredBy rfl)
  | .plkLaneAlignment lane0 lane1 => execPlkLaneAlignment_frame (Frame.refl _ s) lane0 lane1 (.of_coveredBy rfl)
  | .streamEntryIdleExpiry dst => execStreamEntryIdleExpiry_frame (Frame.refl _ s) dst (.of_coveredBy rfl)

/-- Settles O6: every command answers within its own list of parts, and its answer is the only one. -/
theorem everyCommandTouchesOnlyItsParts : Obligations.EveryCommandTouchesOnlyItsParts := by
  intro c s t answer
  obtain ⟨u, answer', frame⟩ := exec_answersIn_touches c s
  obtain rfl : t = u := Host.Outcome.next.inj (answer.symm.trans answer')
  exact frame

end Sys2Proof.Machine
end

section
/-! Interrupt bits of a page (R39, R40): one rising edge, its request, and the edges that arrive together with a write of IRQ_PEND. -/

namespace Sys2Proof

theorem bit_and (v w : Word) (i : Nat) : bit (v &&& w) i = (bit v i && bit w i) := by
  simp only [bit_lsb, BitVec.getLsbD_and]

theorem bit_or (v w : Word) (i : Nat) : bit (v ||| w) i = (bit v i || bit w i) := by
  simp only [bit_lsb, BitVec.getLsbD_or]

theorem bit_compl (w : Word) {i : Nat} (hi : i < 32) : bit (~~~ w) i = !bit w i := by
  simp [bit_lsb, hi]

theorem bit_two_pow (b i : Nat) : bit (w32 (2 ^ b)) i = decide (i < 32 ∧ i = b) := by
  simp only [bit_lsb, w32, BitVec.getLsbD_ofNat, Nat.testBit_two_pow, Bool.decide_and, eq_comm]

/-- Words whose 32 bits agree are the same word. -/
theorem word_ext {v w : Word} (h : ∀ i, i < 32 → bit v i = bit w i) : v = w :=
  BitVec.eq_of_getLsbD_eq fun i hi => by rw [← bit_lsb, ← bit_lsb, h i hi]

namespace Machine

theorem irqMask_ne_irqPend (page : Nat) : Reg.irqMask page ≠ Reg.irqPend page := by unfold Reg.irqPend Reg.irqMask pageKey; omega
theorem ctrl_ne_irqPend (page : Nat) : Reg.ctrl page ≠ Reg.irqPend page := by unfold Reg.irqPend Reg.ctrl pageKey; omega

theorem State.raise_rd_of_running {s : State} {page : Nat} (b k : Nat) (hf : s.isFrozen page = false) :
    (s.raise page b).rd k = (s.wr (Reg.irqPend page) (s.rd (Reg.irqPend page) ||| w32 (2 ^ b))).rd k := by
  simpa [hf] using (s.raise_core page b).1 k

theorem State.raise_rd_of_frozen {s : State} {page : Nat} (b k : Nat) (hf : s.isFrozen page = true) : (s.raise page b).rd k = s.rd k := by
  simpa [hf] using (s.raise_core page b).1 k

theorem State.raise_heldOf_of_frozen {s : State} {page : Nat} (b : Nat) (hf : s.isFrozen page = true) :
    (s.raise page b).heldOf page = s.heldOf page ||| w32 (2 ^ b) := by
  have held := (s.raise_core page b).2
  rw [if_pos hf] at held
  rw [State.heldOf, held, Tab.get_set_same]

theorem State.raise_pend {s : State} {page : Nat} (b : Nat) (hf : s.isFrozen page = false) :
    (s.raise page b).rd (Reg.irqPend page) = s.rd (Reg.irqPend page) ||| w32 (2 ^ b) := by
  rw [State.raise_rd_of_running b _ hf, State.rd_wr_same]

/-- An edge changes no register but the page's IRQ_PEND. -/
theorem State.raise_rd_ne (s : State) {page k : Nat} (b : Nat) (hk : k ≠ Reg.irqPend page) : (s.raise page b).rd k = s.rd k := by
  cases hf : s.isFrozen page
  · rw [State.raise_rd_of_running b k hf, State.rd_wr_ne _ _ hk]
  · exact State.raise_rd_of_frozen b k hf

/-- An edge leaves its bit pending, or held by FREEZE. -/
theorem State.raise_raised (s : State) (page : Nat) {b : Nat} (hb : b < 32) : (s.raise page b).Raised page b := by
  cases hf : s.isFrozen page
  · left
    simp [State.raise_pend b hf, bit_or, bit_two_pow, hb]
  · right
    simp [State.raise_heldOf_of_frozen b hf, bit_or, bit_two_pow, hb]

/-- A pending or held bit that is not masked makes the block's request (R40). -/
theorem State.request_of_raised {t : State} {page b : Nat} (hb : b < 32) (hr : t.Raised page b)
    (hm : bit (t.rd (Reg.irqMask page)) b = false) : t.request page = true := by
  have counts : bit ((t.rd (Reg.irqPend page) ||| t.heldOf page) &&& ~~~ t.rd (Reg.irqMask page)) b = true := by
    rw [bit_and, bit_or, bit_compl _ hb, hm]
    simpa using hr
  rw [State.request, bne_iff_ne]
  intro none
  rw [none, bit_lsb, BitVec.getLsbD_zero] at counts
  cases counts

theorem State.raise_request (s : State) (page : Nat) {b : Nat} (hb : b < 32) (hm : bit (s.rd (Reg.irqMask page)) b = false) :
    (s.raise page b).request page = true :=
  State.request_of_raised hb (s.raise_raised page hb) (by rw [State.raise_rd_ne s b (irqMask_ne_irqPend page), hm])

/-- A request that rises with the edge makes the page's source pending (R419, R420). -/
theorem State.raise_pends_source (s : State) (page : Nat) {b : Nat} (hb : b < 32) (quiet : s.request page = false)
    (hm : bit (s.rd (Reg.irqMask page)) b = false) : setHas (s.raise page b).icu.pend (page + 1) = true := by
  have rises := s.raise_request page hb hm
  unfold State.raise at rises ⊢
  rw [State.withRequest_request] at rises
  exact State.withRequest_pend s page _ quiet rises

/-- Settles O11: the edge is set or held, so the bit counts in the request, and a request that rises pends the page's source. -/
theorem anEdgeSetsItsInterruptBit : Obligations.AnEdgeSetsItsInterruptBit := by
  intro s page b hb t
  refine ⟨State.raise_pend b, fun hf => ?_, s.raise_request page hb, s.raise_pends_source page hb, fun k hk => s.raise_rd_ne b hk⟩
  exact ⟨State.raise_rd_of_frozen b _ hf, State.raise_heldOf_of_frozen b hf⟩

/-! The parts of the state that an edge changes. -/

/-- A message to the host changes the messages pending and sent. -/
theorem State.msixSend_only (s : State) (v : Nat) : ∃ p x, s.msixSend v = { s with msixPba := p, hostTx := x } := by
  unfold State.msixSend
  dsimp only
  split
  · exact ⟨_, s.hostTx, rfl⟩
  · exact ⟨s.msixPba, _, rfl⟩

/-- A source made pending changes the interrupt unit and the messages to the host. -/
theorem State.icuPend_only (s : State) (id : Nat) : ∃ u p x, s.icuPend id = { s with icu := u, msixPba := p, hostTx := x } := by
  unfold State.icuPend State.withHostRequest
  dsimp only
  split
  · let pended : State := { s with icu := { s.icu with pend := setAdd s.icu.pend id } }
    obtain ⟨p, x, sent⟩ := pended.msixSend_only (pended.fld Reg.evqIcuVec 0 6)
    exact ⟨pended.icu, p, x, sent⟩
  · exact ⟨_, s.msixPba, s.hostTx, rfl⟩

/-- So does a request that rises with a change of a page's interrupt registers, beside that change. -/
theorem State.withRequest_only (s : State) (page : Nat) (f : State → State) :
    ∃ u p x, s.withRequest page f = { f s with icu := u, msixPba := p, hostTx := x } := by
  unfold State.withRequest
  dsimp only
  split
  · exact State.icuPend_only (f s) (page + 1)
  · exact ⟨(f s).icu, (f s).msixPba, (f s).hostTx, rfl⟩

/-- An edge changes IRQ_PEND or what FREEZE holds, the interrupt unit and the messages to the host. -/
theorem State.raise_only (s : State) (page b : Nat) :
    ∃ r h u p x, s.raise page b = { s with regs := r, heldIrq := h, icu := u, msixPba := p, hostTx := x } := by
  unfold State.raise
  obtain ⟨u, p, x, raised⟩ := s.withRequest_only page _
  rw [raised]
  split
  · exact ⟨s.regs, _, u, p, x, rfl⟩
  · exact ⟨_, s.heldIrq, u, p, x, rfl⟩

/-! The edges of one cycle. -/

/-- The edges of a list of bits, of those that both words have: each is ORed into IRQ_PEND, and no other register changes. -/
theorem State.foldl_raise (page : Nat) (edges mask : Word) (l : List Nat) {s : State} (hf : s.isFrozen page = false) :
    let t := l.foldl (fun s b => if bit edges b && bit mask b then s.raise page b else s) s
    (∀ k, k ≠ Reg.irqPend page → t.rd k = s.rd k) ∧
    ∀ i, i < 32 →
      bit (t.rd (Reg.irqPend page)) i = (bit (s.rd (Reg.irqPend page)) i || (decide (i ∈ l) && bit (edges &&& mask) i)) := by
  induction l generalizing s with
  | nil => exact ⟨fun _ _ => rfl, fun i _ => by simp⟩
  | cons b l ih =>
    rw [List.foldl_cons]
    by_cases he : (bit edges b && bit mask b) = true
    · have hf' : (s.raise page b).isFrozen page = false := by
        rw [State.isFrozen, State.flag, s.raise_rd_ne b (ctrl_ne_irqPend page)]
        exact hf
      obtain ⟨others, pend⟩ := ih hf'
      rw [if_pos he]
      refine ⟨fun k hk => (others k hk).trans (s.raise_rd_ne b hk), fun i hi => ?_⟩
      rw [pend i hi, State.raise_pend b hf, bit_or, bit_two_pow]
      by_cases hib : i = b
      · subst hib
        simp [hi, bit_and, he]
      · simp [hib]
    · obtain ⟨others, pend⟩ := ih hf
      rw [if_neg he]
      refine ⟨others, fun i hi => ?_⟩
      rw [pend i hi]
      by_cases hib : i = b
      · subst hib
        simp [bit_and, Bool.eq_false_iff.mpr he]
      · simp [hib]

end Machine

end Sys2Proof
end

section
/-! Writes of the common layout (R30) by an agent that reaches its page: what REGISTER_WRITE comes to at each offset of it. -/

namespace Sys2Proof.Machine

/-- What holds of every entry of the page map holds of the entry of a page: the map is run through once, by computation. -/
theorem pageBlock_of_all {Q : Nat → Block → Nat → Bool}
    (all : ((List.range 0x100).all fun p => (pageBlock p).all fun x => Q p x.1 x.2) = true)
    {page : Nat} {b : Block} {i : Nat} (hb : pageBlock page = some (b, i)) : Q page b i = true := by
  have entry := List.all_eq_true.mp all page (List.mem_range.mpr (pageBlock_lt hb))
  rwa [hb] at entry

/-- The pages of the blocks whose writes depend on the page's number. -/
theorem pageBlock_page {page : Nat} {b : Block} {i : Nat} (hb : pageBlock page = some (b, i)) :
    (b = .tile → page = 0x40 + i ∧ i < 8) ∧ (b = .ch → page = 0x80 + i ∧ i < 64) ∧ (b = .xbr → page = 0x22) := by
  have entry := pageBlock_of_all (Q := fun p b i => decide
    ((b = .tile → p = 0x40 + i ∧ i < 8) ∧ (b = .ch → p = 0x80 + i ∧ i < 64) ∧ (b = .xbr → p = 0x22))) (by decide +kernel) hb
  exact of_decide_eq_true entry

theorem tileOfPage_tile {i : Nat} (hi : i < 8) : tileOfPage (0x40 + i) = some i := by
  rw [tileOfPage, if_pos (by omega), Nat.add_sub_cancel_left]

theorem tileOfPage_ch {i : Nat} (hi : i < 64) : tileOfPage (0x80 + i) = some (i / 8) := by
  rw [tileOfPage, if_neg (by omega), if_pos (by omega), Nat.add_sub_cancel_left]

/-- The state with other tiles: what an access that need not wait starts from, its tile's clock having noted the access. -/
def State.withTiles (s : State) (x : Tab TileSt) : State := { s with tiles := x }

/-- The answer of a write that was carried out. -/
def State.written (s : State) : State := { s with reply := ⟨0, []⟩ }

section Unchanged

variable (s : State) (x : Tab TileSt)

@[simp] theorem State.rd_withTiles (k : Nat) : (s.withTiles x).rd k = s.rd k := rfl
@[simp] theorem State.mbx_withTiles : (s.withTiles x).mbx = s.mbx := rfl
@[simp] theorem State.heldOf_withTiles (page : Nat) : (s.withTiles x).heldOf page = s.heldOf page := rfl
@[simp] theorem State.isFrozen_withTiles (page : Nat) : (s.withTiles x).isFrozen page = s.isFrozen page := rfl
@[simp] theorem State.enabled_withTiles (page : Nat) : (s.withTiles x).enabled page = s.enabled page := rfl
@[simp] theorem State.mbxBusy_withTiles (page : Nat) : (s.withTiles x).mbxBusy page = s.mbxBusy page := rfl
@[simp] theorem State.mbxD_withTiles (page n : Nat) : (s.withTiles x).mbxD page n = s.mbxD page n := rfl
@[simp] theorem State.rd_written (k : Nat) : s.written.rd k = s.rd k := rfl
@[simp] theorem State.mbx_written : s.written.mbx = s.mbx := rfl
@[simp] theorem State.heldOf_written (page : Nat) : s.written.heldOf page = s.heldOf page := rfl
@[simp] theorem State.isFrozen_written (page : Nat) : s.written.isFrozen page = s.isFrozen page := rfl
@[simp] theorem State.enabled_written (page : Nat) : s.written.enabled page = s.enabled page := rfl
@[simp] theorem State.mbxD_written (page n : Nat) : s.written.mbxD page n = s.mbxD page n := rfl

end Unchanged

/-- Where a write of a page's word begins: an access to a TILE or CH page wakes the tile's clock (R128). -/
def State.entered (s : State) (b : Block) (i : Nat) : State :=
  if b = .tile then s.tileWake i else if b = .ch then s.tileWake (i / 8) else s

theorem State.pageBlock_of_reaches {s : State} {a : Agent} {page : Nat} {b : Block} {i : Nat} (h : s.Reaches a page b i) :
    pageBlock page = some (b, i) := h.2.1

theorem State.tileWake_of_running {s : State} {t : Nat} (h : (s.tile t).clk = .running) :
    s.tileWake t = s.setTile t fun x => { x with clkAt := s.tclks } := by
  rw [State.tileWake, h]

theorem State.tile_running_of_reaches {s : State} {a : Agent} {page : Nat} {b : Block} {i t : Nat} (h : s.Reaches a page b i)
    (ht : tileOfPage page = some t) : (s.tile t).clk = .running := by
  obtain ⟨_, hb, _, notStalled⟩ := h
  have lt : page * 0x1000 + 0 < 0x1000000 := by have := pageBlock_lt hb; omega
  have page_eq : (page * 0x1000 + 0) / 0x1000 = page := by omega
  rw [State.stalledTile, pageKey, tileOfAddr, if_pos lt, page_eq, ht] at notStalled
  simpa using notStalled

/-- An access that need not wait finds the tile's clock running, and only notes its time there. -/
theorem State.entered_of_reaches {s : State} {a : Agent} {page : Nat} {b : Block} {i : Nat} (h : s.Reaches a page b i) :
    ∃ x, s.entered b i = s.withTiles x := by
  obtain ⟨tile, ch, _⟩ := pageBlock_page (State.pageBlock_of_reaches h)
  have wakes (t : Nat) (ht : tileOfPage page = some t) : ∃ x, s.tileWake t = s.withTiles x :=
    ⟨_, State.tileWake_of_running (State.tile_running_of_reaches h ht)⟩
  rw [State.entered]
  split
  · next isTile =>
    obtain ⟨page_eq, i_lt⟩ := tile isTile
    exact wakes i (by rw [page_eq, tileOfPage_tile i_lt])
  · split
    · next isCh =>
      obtain ⟨page_eq, i_lt⟩ := ch isCh
      exact wakes (i / 8) (by rw [page_eq, tileOfPage_ch i_lt])
    · exact ⟨s.tiles, rfl⟩

section Offsets

variable {s : State} {a : Agent} {page : Nat} {b : Block} {i : Nat} (v : Word)

theorem State.pageWrite_ctrl (hb : pageBlock page = some (b, i)) :
    s.pageWrite a page 0x008 v = (s.entered b i).ctrlWrite page v := by
  rw [State.pageWrite, hb]
  rfl

theorem State.pageWrite_irqPend (hb : pageBlock page = some (b, i)) :
    s.pageWrite a page 0x010 v = (s.entered b i).withRequest page fun s => s.regPlain page 0x010 v := by
  rw [State.pageWrite, hb]
  rfl

theorem State.pageWrite_mbxCmd (hb : pageBlock page = some (b, i)) (hm : hasMbx b = true) :
    s.pageWrite a page 0x030 v = (s.entered b i).mbxWrite a page v := by
  rw [State.pageWrite, hb]
  exact if_pos hm

theorem State.pageWrite_mbxData (hb : pageBlock page = some (b, i)) (hm : hasMbx b = true) {n : Nat} (hn : n < 4) :
    s.pageWrite a page (0x040 + 4 * n) v = (s.entered b i).mbxDataWrite page n v := by
  have n_eq : (0x040 + 4 * n - 0x040) / 4 = n := by omega
  rw [State.pageWrite, hb]
  dsimp only
  simp (disch := omega) only [if_neg, if_pos, hm, n_eq]
  rfl

/-- CNT_CLR lies beyond the common layout, below the FIFO words. -/
theorem cntClrOff_bounds {b : Block} {off : Nat} (hc : cntClrOff b = some off) : 0x050 ≤ off ∧ off < 0x800 ∧ off % 4 = 0 := by
  have all : ∀ o ∈ cntClrOff b, 0x050 ≤ o ∧ o < 0x800 ∧ o % 4 = 0 := by cases b <;> decide
  exact all off hc

/-- CNT_CLR.CLR of a page, in whichever of the two places the page's block has it. -/
theorem State.pageWrite_cntClr (hb : pageBlock page = some (b, i)) {off : Nat} (hc : cntClrOff b = some off) :
    s.pageWrite a page off 1 = (s.entered b i).clearCounters page := by
  obtain ⟨low, high, _⟩ := cntClrOff_bounds hc
  obtain ⟨tile, _, xbr⟩ := pageBlock_page hb
  rw [State.pageWrite, hb]
  dsimp only
  simp (disch := omega) only [if_neg]
  by_cases own : b = .xbr ∨ b = .tile
  · rw [if_neg (by rintro ⟨-, notXbr, notTile⟩; exact own.elim notXbr notTile)]
    obtain rfl | rfl := own
    · cases hc
      rw [xbr rfl]
      rfl
    · cases hc
      rw [(tile rfl).1]
      rfl
  · rw [if_pos ⟨hc, not_or.mp own⟩]
    rfl

/-- A word that an agent writes to a page it reaches: the page's own write from the tiles that entering it leaves, answered OK. -/
theorem State.agentReg_entered (h : s.Reaches a page b i) {off : Nat} (ho : off < 0x800) (h4 : off % 4 = 0) {f : State → State}
    (write : pageBlock page = some (b, i) → s.pageWrite a page off v = f (s.entered b i)) :
    ∃ x, s.agentReg a page off v = (f (s.withTiles x)).written := by
  obtain ⟨x, entered⟩ := State.entered_of_reaches h
  rw [State.agentReg_reached v h (by omega) h4 (by omega), write (State.pageBlock_of_reaches h), entered]
  exact ⟨x, rfl⟩

theorem State.agentReg_ctrl (h : s.Reaches a page b i) :
    ∃ x, s.agentReg a page 0x008 v = ((s.withTiles x).ctrlWrite page v).written :=
  State.agentReg_entered v h (by decide) (by decide) (f := (·.ctrlWrite page v)) (State.pageWrite_ctrl v)

theorem State.agentReg_irqPend (h : s.Reaches a page b i) :
    ∃ x, s.agentReg a page 0x010 v = ((s.withTiles x).withRequest page fun s => s.regPlain page 0x010 v).written :=
  State.agentReg_entered v h (by decide) (by decide) (f := (·.withRequest page fun s => s.regPlain page 0x010 v))
    (State.pageWrite_irqPend v)

theorem State.agentReg_mbxCmd (h : s.Reaches a page b i) (hm : hasMbx b = true) :
    ∃ x, s.agentReg a page 0x030 v = ((s.withTiles x).mbxWrite a page v).written :=
  State.agentReg_entered v h (by decide) (by decide) (f := (·.mbxWrite a page v)) (State.pageWrite_mbxCmd v · hm)

theorem State.agentReg_mbxData (h : s.Reaches a page b i) (hm : hasMbx b = true) {n : Nat} (hn : n < 4) :
    ∃ x, s.agentReg a page (0x040 + 4 * n) v = ((s.withTiles x).mbxDataWrite page n v).written :=
  State.agentReg_entered v h (by omega) (by omega) (f := (·.mbxDataWrite page n v)) (State.pageWrite_mbxData v · hm hn)

theorem State.agentReg_cntClr (h : s.Reaches a page b i) {off : Nat} (hc : cntClrOff b = some off) :
    ∃ x, s.agentReg a page off 1 = ((s.withTiles x).clearCounters page).written := by
  obtain ⟨_, high, aligned⟩ := cntClrOff_bounds hc
  exact State.agentReg_entered 1 h high aligned (f := (·.clearCounters page)) (State.pageWrite_cntClr · hc)

end Offsets

end Sys2Proof.Machine
end

section
/-! Mailboxes (R32–R34, R539): a write of MBX_CMD is an acceptance whatever its OP; what one is while BUSY = 1 and while BUSY = 0; and
what a completion stores. -/

namespace Sys2Proof

/-- The fields of the flag that a completion leaves: VALID or ERROR with its code, and BUSY cleared (R33). -/
theorem mbxDone_fields (flag : Word) {err : Nat} (he : err < 256) :
    bit (Machine.mbxDone flag err) 0 = decide (err = 0) ∧ bit (Machine.mbxDone flag err) 1 = false ∧
    bit (Machine.mbxDone flag err) 2 = decide (err ≠ 0) ∧ bits (Machine.mbxDone flag err) 8 8 = err := by
  have collide : bits flag 3 1 < 2 := Nat.mod_lt _ (by decide)
  unfold Machine.mbxDone
  generalize bits flag 3 1 = c at collide
  by_cases h0 : err = 0
  · subst h0
    obtain rfl | rfl : c = 0 ∨ c = 1 := by omega
    · decide
    · decide
  · rw [if_neg h0]
    simp only [bit, bits, w32, at_, h0, BitVec.toNat_ofNat, Nat.shiftLeft_eq, Nat.shiftRight_eq_div_pow, decide_false,
      not_false_eq_true, decide_true, ne_eq, beq_eq_false_iff_ne, beq_iff_eq]
    omega

namespace Machine

theorem mbxD_ne_mbxFlag (page : Nat) {n : Nat} (hn : n < 4) : Reg.mbxD page n ≠ Reg.mbxFlag page := by
  unfold Reg.mbxD Reg.mbxFlag pageKey
  omega

theorem mbxD_ne_mbxD (page : Nat) {m n : Nat} (h : m ≠ n) : Reg.mbxD page m ≠ Reg.mbxD page n := by
  unfold Reg.mbxD pageKey
  omega

/-! Acceptance. -/

theorem State.mbxAccept_busy {s : State} {page : Nat} (start : State → State) (h : s.mbxBusy page = true) :
    s.mbxAccept page start = s.setFld (Reg.mbxFlag page) 3 1 1 := if_pos h

theorem State.mbxAccept_idle {s : State} {page : Nat} (start : State → State) (h : s.mbxBusy page = false) :
    s.mbxAccept page start = start (s.wr (Reg.mbxFlag page) 2) := if_neg (by simp [h])

theorem State.timeOp_busy {s : State} (a : Agent) (arg : BitVec 16) (op : Nat) (busy : s.mbxBusy 0x10 = true) :
    s.timeOp a arg op = s.setFld (Reg.mbxFlag 0x10) 3 1 1 := by
  unfold State.timeOp
  split <;> exact if_pos busy

theorem State.winOp_busy {s : State} (arg : BitVec 16) (op : Nat) (busy : s.mbxBusy 0x13 = true) :
    s.winOp arg op = s.setFld (Reg.mbxFlag 0x13) 3 1 1 := by
  unfold State.winOp
  split <;> exact if_pos busy

theorem State.drlOp_busy {s : State} (arg : BitVec 16) (op : Nat) (busy : s.mbxBusy 0x12 = true) :
    s.drlOp arg op = s.setFld (Reg.mbxFlag 0x12) 3 1 1 := by
  unfold State.drlOp
  split <;> exact if_pos busy

theorem State.rfxOp_busy {s : State} (arg : BitVec 16) (op : Nat) (busy : s.mbxBusy 0x14 = true) :
    s.rfxOp arg op = s.setFld (Reg.mbxFlag 0x14) 3 1 1 := by
  unfold State.rfxOp
  split <;> exact if_pos busy

theorem State.sigOp_busy {s : State} (arg : BitVec 16) (op : Nat) (busy : s.mbxBusy 0x15 = true) :
    s.sigOp arg op = s.setFld (Reg.mbxFlag 0x15) 3 1 1 := by
  unfold State.sigOp
  split <;> exact if_pos busy

theorem State.secOp_busy {s : State} (arg : BitVec 16) (op : Nat) (busy : s.mbxBusy 0x09 = true) :
    s.secOp arg op = s.setFld (Reg.mbxFlag 0x09) 3 1 1 := by
  unfold State.secOp
  split <;> exact if_pos busy

theorem State.ospiOp_busy {s : State} (op : Nat) (busy : s.mbxBusy 0x0A = true) :
    s.ospiOp op = s.setFld (Reg.mbxFlag 0x0A) 3 1 1 := by
  unfold State.ospiOp
  split <;> exact if_pos busy

/-- The pages with a mailbox. -/
theorem page_of_hasMbx {page : Nat} {b : Block} {i : Nat} (hb : pageBlock page = some (b, i)) (hm : hasMbx b = true) :
    page = 0x10 ∨ page = 0x13 ∨ page = 0x12 ∨ page = 0x14 ∨ page = 0x15 ∨ page = 0x09 ∨ page = 0x0A := by
  have entry := pageBlock_of_all (Q := fun p b _ => decide (hasMbx b = true →
    p = 0x10 ∨ p = 0x13 ∨ p = 0x12 ∨ p = 0x14 ∨ p = 0x15 ∨ p = 0x09 ∨ p = 0x0A)) (by decide +kernel) hb
  exact of_decide_eq_true entry hm

/-- A write of MBX_CMD while BUSY = 1, whatever its OP: no command acts before BUSY is looked at (R34). -/
theorem State.mbxWrite_busy {s : State} (a : Agent) {page : Nat} {b : Block} {i : Nat} (v : Word)
    (hb : pageBlock page = some (b, i)) (hm : hasMbx b = true) (busy : s.mbxBusy page = true) :
    s.mbxWrite a page v = s.setFld (Reg.mbxFlag page) 3 1 1 := by
  unfold State.mbxWrite
  extract_lets op arg
  by_cases nop : op = 0
  · rw [if_pos nop]
    exact State.mbxAccept_busy _ busy
  rw [if_neg nop]
  by_cases undefined : mbxOps page < op
  · rw [if_pos undefined]
    exact State.mbxAccept_busy _ busy
  rw [if_neg undefined]
  obtain rfl | rfl | rfl | rfl | rfl | rfl | rfl := page_of_hasMbx hb hm
  · exact State.timeOp_busy a arg op busy
  · exact State.winOp_busy arg op busy
  · exact State.drlOp_busy arg op busy
  · exact State.rfxOp_busy arg op busy
  · exact State.sigOp_busy arg op busy
  · exact State.secOp_busy arg op busy
  · exact State.ospiOp_busy op busy

@[simp] theorem State.rd_mbxAnswer (s : State) (page k : Nat) (A : MbxAns) : (s.mbxAnswer page A).rd k = s.rd k := rfl

@[simp] theorem State.mbxAnswer_job (s : State) (page : Nat) (A : MbxAns) :
    Tab.get none (s.mbxAnswer page A).mbx page = some A.job := by
  rw [State.mbxAnswer, Tab.get_set_same]

/-- A command that answers at once and changes nothing: its answer waits, BUSY is set, and the input words stand. -/
theorem State.mbxCommand_answers {s : State} {page : Nat} (A : MbxAns) (idle : s.mbxBusy page = false) :
    let t := s.mbxCommand page fun s => (A, s)
    Tab.get none t.mbx page = some A.job ∧ t.rd (Reg.mbxFlag page) = 2 ∧ ∀ n, n < 4 → t.mbxD page n = s.mbxD page n := by
  rw [State.mbxCommand, State.mbxAccept_idle _ idle]
  refine ⟨State.mbxAnswer_job _ page A, by simp, fun n hn => ?_⟩
  rw [State.mbxD, State.rd_mbxAnswer, State.rd_wr_ne _ _ (mbxD_ne_mbxFlag page hn), State.mbxD]

theorem State.mbxWrite_nop (s : State) (a : Agent) (page : Nat) : s.mbxWrite a page 0 = s.mbxCommand page fun s => (.done, s) := by
  unfold State.mbxWrite
  exact if_pos rfl

theorem State.mbxWrite_undefined (s : State) (a : Agent) {page : Nat} {v : Word} (h : mbxOps page < bits v 0 8) :
    s.mbxWrite a page v = s.mbxCommand page fun s => (.err 0xFF, s) := by
  unfold State.mbxWrite
  exact (if_neg (by omega)).trans (if_pos h)

/-- The OP of the word that MBX_UNKNOWN_OP writes. -/
theorem bits_op (op : Byte) (arg : BitVec 16) : bits (w32 (at_ 16 arg.toNat + op.toNat)) 0 8 = op.toNat := by
  have := op.isLt
  have := arg.isLt
  simp only [bits, w32, at_, BitVec.toNat_ofNat, Nat.shiftLeft_eq, Nat.shiftRight_zero]
  omega

/-! Completion. -/

theorem State.rd_mbxResult_ne (s : State) {page n k : Nat} (d : Option Word) (h : k ≠ Reg.mbxD page (n % 4)) :
    (s.mbxResult page n d).rd k = s.rd k := by
  cases d with
  | none => rfl
  | some w => exact State.rd_wr_ne s w h

theorem State.mbxD_mbxResult_same (s : State) (page : Nat) {n : Nat} (d : Option Word) (hn : n < 4) :
    (s.mbxResult page n d).mbxD page n = d.getD (s.mbxD page n) := by
  cases d with
  | none => rfl
  | some w =>
    rw [State.mbxResult, Nat.mod_eq_of_lt hn]
    exact State.rd_wr_same s _ w

theorem State.mbxD_mbxResult_ne (s : State) (page : Nat) {m n : Nat} (d : Option Word) (hn : n < 4) (h : m ≠ n) :
    (s.mbxResult page n d).mbxD page m = s.mbxD page m :=
  State.rd_mbxResult_ne s d (by rw [Nat.mod_eq_of_lt hn]; exact mbxD_ne_mbxD page h)

/-- The four result words of an answer, stored in one step. -/
def State.mbxResults (s : State) (page : Nat) (j : MbxJob) : State :=
  (((s.mbxResult page 0 j.d0).mbxResult page 1 j.d1).mbxResult page 2 j.d2).mbxResult page 3 j.d3

theorem State.mbxD_mbxResults (s : State) (page : Nat) (j : MbxJob) :
    (s.mbxResults page j).mbxD page 0 = j.d0.getD (s.mbxD page 0) ∧ (s.mbxResults page j).mbxD page 1 = j.d1.getD (s.mbxD page 1) ∧
    (s.mbxResults page j).mbxD page 2 = j.d2.getD (s.mbxD page 2) ∧ (s.mbxResults page j).mbxD page 3 = j.d3.getD (s.mbxD page 3) := by
  simp [State.mbxResults, State.mbxD_mbxResult_same, State.mbxD_mbxResult_ne]

theorem mbxReg_ne_irqPend (page p : Nat) : (∀ n, n < 4 → Reg.mbxD page n ≠ Reg.irqPend p) ∧ Reg.mbxFlag page ≠ Reg.irqPend p := by
  simp only [Reg.mbxD, Reg.mbxFlag, Reg.irqPend, pageKey]
  exact ⟨fun n hn => by omega, by omega⟩

/-- A completion: the result words, the flag and no command waiting; a completed OSPI command also raises its interrupt (R33). -/
theorem exec_mbxComplete {s : State} {page : Fin 256} {j : MbxJob} (hj : Tab.get none s.mbx page = some j) :
    ∃ t, exec (.mbxComplete page) s = .next t ∧ (∀ n, n < 4 → t.mbxD page n = (s.mbxResults page j).mbxD page n) ∧
      t.rd (Reg.mbxFlag page) = mbxDone ((s.mbxResults page j).rd (Reg.mbxFlag page)) j.err ∧ Tab.get none t.mbx page = none := by
  let r := (s.mbxResults page j).wr (Reg.mbxFlag page) (mbxDone ((s.mbxResults page j).rd (Reg.mbxFlag page)) j.err)
  let u : State := { r with mbx := Tab.set none r.mbx page none }
  have words : ∀ n, n < 4 → u.mbxD page n = (s.mbxResults page j).mbxD page n := fun n hn =>
    State.rd_wr_ne _ _ (mbxD_ne_mbxFlag page hn)
  have flag : u.rd (Reg.mbxFlag page) = _ := State.rd_wr_same _ _ _
  have idle : Tab.get none (Tab.set none r.mbx page none) page = none := Tab.get_set_same
  have done : exec (.mbxComplete page) s = .next (if (page : Nat) = 0x0A then u.raise 0x0A 0 else u) := by
    show execMbxComplete page s = _
    unfold execMbxComplete
    dsimp only
    rw [hj]
    rfl
  refine ⟨_, done, ?_⟩
  split
  · obtain ⟨words', flag'⟩ := mbxReg_ne_irqPend page 0x0A
    obtain ⟨_, _, _, _, _, raised⟩ := u.raise_only 0x0A 0
    refine ⟨fun n hn => (u.raise_rd_ne 0 (words' n hn)).trans (words n hn), (u.raise_rd_ne 0 flag').trans flag, ?_⟩
    rw [raised]
    exact idle
  · exact ⟨words, flag, idle⟩

/-- Settles O14: both commands reach `mbxCommand` with a fixed answer; a completion is `exec_mbxComplete`, its flag `mbxDone`. -/
theorem mailboxesAcceptAndComplete : Obligations.MailboxesAcceptAndComplete := by
  refine ⟨⟨fun s a page b i reaches hm idle => ?_, fun s a page op arg b i reaches hm idle undefined => ?_⟩,
    fun s page err d0 d1 d2 d3 job err_lt => ?_⟩
  · obtain ⟨x, accepted⟩ := State.agentReg_mbxCmd 0 reaches hm
    rw [State.mbxWrite_nop] at accepted
    exact ⟨_, congrArg Host.Outcome.next accepted, State.mbxCommand_answers (s := s.withTiles x) .done idle⟩
  · obtain ⟨x, accepted⟩ := State.agentReg_mbxCmd (w32 (at_ 16 arg.toNat + op.toNat)) reaches hm
    rw [State.mbxWrite_undefined _ _ (by rwa [bits_op])] at accepted
    exact ⟨_, congrArg Host.Outcome.next ((if_pos undefined).trans accepted),
      State.mbxCommand_answers (s := s.withTiles x) (.err 0xFF) idle⟩
  · obtain ⟨t, done, words, flag, noJob⟩ := exec_mbxComplete job
    obtain ⟨w0, w1, w2, w3⟩ := s.mbxD_mbxResults page ⟨err, d0, d1, d2, d3⟩
    obtain ⟨valid, notBusy, error, code⟩ := mbxDone_fields ((s.mbxResults page ⟨err, d0, d1, d2, d3⟩).rd (Reg.mbxFlag page)) err_lt
    refine ⟨t, done, (words 0 (by decide)).trans w0, (words 1 (by decide)).trans w1, (words 2 (by decide)).trans w2,
      (words 3 (by decide)).trans w3, ?_, ?_, ?_, ?_, noJob⟩
    · rw [State.mbxBusy, State.flag, flag, notBusy]
    · rw [flag, valid]
    · rw [flag, error]
    · rw [flag, code]

/-- While BUSY = 1, a write to MBX_CMD (4) or to MBX_Dn is a write of COLLIDE (R34). -/
theorem State.agentReg_mbx_busy {s : State} {a : Agent} {page : Nat} {b : Block} {i : Nat} (n : Fin 5) (v : Word)
    (h : s.Reaches a page b i) (hm : hasMbx b = true) (busy : s.mbxBusy page = true) :
    ∃ x, s.agentReg a page (if n.toNat = 4 then 0x030 else 0x040 + 4 * n.toNat) v =
      ((s.withTiles x).setFld (Reg.mbxFlag page) 3 1 1).written := by
  by_cases cmd : n.toNat = 4
  · obtain ⟨x, command⟩ := State.agentReg_mbxCmd v h hm
    rw [State.mbxWrite_busy a v (State.pageBlock_of_reaches h) hm (by simpa using busy)] at command
    exact ⟨x, by rw [if_pos cmd, command]⟩
  · have n_lt : n.toNat < 5 := n.isLt
    obtain ⟨x, data⟩ := State.agentReg_mbxData v h hm (show n.toNat < 4 by omega)
    rw [State.mbxDataWrite, if_pos (by simpa using busy)] at data
    exact ⟨x, by rw [if_neg cmd, data]⟩

/-- Settles O15: such a write sets bit 3 of the flag, and nothing else of the registers or of the mailboxes. -/
theorem busyMailboxIgnoresWrites : Obligations.BusyMailboxIgnoresWrites := by
  intro s a page n v b i reaches hm busy
  obtain ⟨x, ignored⟩ := State.agentReg_mbx_busy n v reaches hm busy
  refine ⟨_, congrArg Host.Outcome.next ((if_pos busy).trans ignored), ?_, ?_, fun k hk => ?_, rfl⟩
  · simp [bit_setBits_same]
  · simp [bits_setBits_other]
  · simp [State.rd_setFld_ne _ _ _ _ hk]

end Machine

end Sys2Proof
end

section
/-! The controls of a page: SOFT_RESET, FREEZE and EN in CTRL, IRQ_PEND with the edges of its cycle, and CNT_CLR (R21, R30, R31, R38,
R39). -/

namespace Sys2Proof.Machine

theorem State.isFrozen_of_ctrl {s t : State} {page : Nat} (h : t.rd (Reg.ctrl page) = s.rd (Reg.ctrl page)) :
    t.isFrozen page = s.isFrozen page := by
  rw [State.isFrozen, State.isFrozen, State.flag, State.flag, h]

theorem State.enabled_of_ctrl {s t : State} {page : Nat} (h : t.rd (Reg.ctrl page) = s.rd (Reg.ctrl page)) :
    t.enabled page = s.enabled page := by
  rw [State.enabled, State.enabled, State.flag, State.flag, h]

/-! CTRL as it stands, with no SOFT_RESET in it. -/

theorem State.bit_ctrlNow (s : State) (page : Nat) : bit (s.ctrlNow page) 0 = s.enabled page ∧ bit (s.ctrlNow page) 1 = false ∧
    bit (s.ctrlNow page) 2 = s.isFrozen page := by
  have five : bit (0x5#32) 0 = true ∧ bit (0x5#32) 1 = false ∧ bit (0x5#32) 2 = true := by decide
  simp [State.ctrlNow, bit_and, five, State.enabled, State.isFrozen, State.flag]

@[simp] theorem State.ctrlNow_withTiles (s : State) (x : Tab TileSt) (page : Nat) :
    (s.withTiles x).ctrlNow page = s.ctrlNow page := rfl

theorem bit_b2n (on : Bool) : decide (b2n on % 2 = 1) = on := by cases on <;> rfl

theorem State.freezeWrite_same {s : State} {page : Nat} {on : Bool} (h : s.isFrozen page = on) : s.freezeWrite page on = s :=
  (s.freezeWrite_common page on).2.2.2 h

theorem State.enableWrite_same {s : State} {page : Nat} {on : Bool} {b : Block} {i : Nat} (hb : pageBlock page = some (b, i))
    (h : s.enabled page = on) : s.enableWrite page on = s :=
  (s.enableWrite_common page on hb).2.2 h

section Ctrl

variable {s : State} {page : Nat} {b : Block} {i : Nat}

/-- SOFT_RESET leaves FREEZE and EN, so that the rest of the same write of CTRL changes nothing. -/
theorem State.ctrlWrite_softReset (hb : pageBlock page = some (b, i)) :
    s.ctrlWrite page (setBits (s.ctrlNow page) 1 1 1) = s.softReset page := by
  obtain ⟨en, _, freeze⟩ := s.bit_ctrlNow page
  obtain ⟨_, _, _, _, _, _, low⟩ := s.softReset_common page hb
  have kept : (s.softReset page).rd (Reg.ctrl page) = s.rd (Reg.ctrl page) := low 0x008 (.inl rfl)
  have reset : bit (setBits (s.ctrlNow page) 1 1 1) 1 = true := by rw [bit_setBits_same _ 1 1 (by decide)]; rfl
  rw [State.ctrlWrite, if_pos reset, bit_setBits_other _ 1 1 1 2 (by decide) (by decide),
    bit_setBits_other _ 1 1 1 0 (by decide) (by decide), en, freeze,
    State.freezeWrite_same (State.isFrozen_of_ctrl kept), State.enableWrite_same hb (State.enabled_of_ctrl kept)]

/-- A write of FREEZE with EN as it stands. -/
theorem State.ctrlWrite_freeze (hb : pageBlock page = some (b, i)) (on : Bool) :
    s.ctrlWrite page (setBits (s.ctrlNow page) 2 1 (b2n on)) = s.freezeWrite page on := by
  obtain ⟨en, noReset, _⟩ := s.bit_ctrlNow page
  have kept : (s.freezeWrite page on).enabled page = s.enabled page := (s.freezeWrite_common page on).2.1
  rw [State.ctrlWrite, bit_setBits_same _ 2 _ (by decide), bit_b2n, bit_setBits_other _ 2 1 _ 1 (by decide) (by decide), noReset,
    if_neg (by decide), bit_setBits_other _ 2 1 _ 0 (by decide) (by decide), en, State.enableWrite_same hb kept]

/-- A write of EN with FREEZE as it stands. -/
theorem State.ctrlWrite_enable (on : Bool) :
    s.ctrlWrite page (setBits (s.ctrlNow page) 0 1 (b2n on)) = s.enableWrite page on := by
  obtain ⟨_, noReset, freeze⟩ := s.bit_ctrlNow page
  rw [State.ctrlWrite, bit_setBits_same _ 0 _ (by decide), bit_b2n, bit_setBits_other _ 0 1 _ 1 (by decide) (by decide), noReset,
    if_neg (by decide), bit_setBits_other _ 0 1 _ 2 (by decide) (by decide), freeze, State.freezeWrite_same rfl]

end Ctrl

section Commands

variable {s : State} {a : Agent} {page : Fin 256} {b : Block} {i : Nat}

theorem exec_softReset (h : s.Reaches a page b i) :
    ∃ x, exec (.softReset a page) s = .next ((s.withTiles x).softReset page).written := by
  obtain ⟨x, ctrl⟩ := State.agentReg_ctrl (setBits (s.ctrlNow page) 1 1 1) h
  rw [← s.ctrlNow_withTiles x, State.ctrlWrite_softReset (State.pageBlock_of_reaches h)] at ctrl
  exact ⟨x, congrArg Host.Outcome.next ctrl⟩

theorem exec_freezeWrite (h : s.Reaches a page b i) (on : Bool) :
    ∃ x, exec (.freezeWrite a page on) s = .next ((s.withTiles x).freezeWrite page on).written := by
  obtain ⟨x, ctrl⟩ := State.agentReg_ctrl (setBits (s.ctrlNow page) 2 1 (b2n on)) h
  rw [← s.ctrlNow_withTiles x, State.ctrlWrite_freeze (State.pageBlock_of_reaches h)] at ctrl
  exact ⟨x, congrArg Host.Outcome.next ctrl⟩

theorem exec_enableWrite (h : s.Reaches a page b i) (on : Bool) :
    ∃ x, exec (.enableWrite a page on) s = .next ((s.withTiles x).enableWrite page on).written := by
  obtain ⟨x, ctrl⟩ := State.agentReg_ctrl (setBits (s.ctrlNow page) 0 1 (b2n on)) h
  rw [← s.ctrlNow_withTiles x, State.ctrlWrite_enable] at ctrl
  exact ⟨x, congrArg Host.Outcome.next ctrl⟩

theorem exec_counterClear (h : s.Reaches a page b i) {off : Nat} (hc : cntClrOff b = some off) :
    ∃ x, exec (.counterClear a page) s = .next ((s.withTiles x).clearCounters page).written := by
  obtain ⟨x, cleared⟩ := State.agentReg_cntClr h hc
  have place : (pageBlock page).bind (fun y => cntClrOff y.1) = some off := by rw [(State.pageBlock_of_reaches h)]; exact hc
  refine ⟨x, congrArg Host.Outcome.next ?_⟩
  dsimp only
  rw [place]
  exact cleared

/-- The bits of a page's interrupt registers that software writes. -/
abbrev irqMaskBits (page : Nat) : Word := w32 (directMask page 0x010)

/-- A write of IRQ_PEND stores the page's bits of the value, and the edges of its cycle are ORed in after it; no other register changes. -/
theorem exec_irqPendWrite (h : s.Reaches a page b i) (running : s.isFrozen page = false) (v edges : Word) :
    ∃ t, exec (.irqPendWrite a page v edges) s = .next t ∧ (∀ k, k ≠ Reg.irqPend page → t.rd k = s.rd k) ∧
      t.rd (Reg.irqPend page) = ((v &&& irqMaskBits page) ||| (s.rd (Reg.irqPend page) &&& ~~~ irqMaskBits page))
        ||| (edges &&& irqMaskBits page) := by
  obtain ⟨x, written⟩ := State.agentReg_irqPend v h
  let u := s.agentReg a page 0x010 v
  have stored : ∀ k, u.rd k = ((s.withTiles x).regPlain page 0x010 v).rd k := fun k => by
    simp only [u, written, State.rd_written, State.withRequest_rd]
  have others : ∀ k, k ≠ Reg.irqPend page → u.rd k = s.rd k := fun k hk => (stored k).trans (State.rd_wr_ne (s.withTiles x) _ hk)
  have pend : u.rd (Reg.irqPend page) = (v &&& irqMaskBits page) ||| (s.rd (Reg.irqPend page) &&& ~~~ irqMaskBits page) :=
    (stored _).trans (State.rd_wr_same (s.withTiles x) _ _)
  have running' : u.isFrozen page = false := (State.isFrozen_of_ctrl (others _ (ctrl_ne_irqPend page))).trans running
  obtain ⟨others', pend'⟩ := State.foldl_raise page edges (irqMaskBits page) (upFrom 0 32) running'
  refine ⟨_, rfl, fun k hk => (others' k hk).trans (others k hk), word_ext fun j hj => (pend' j hj).trans ?_⟩
  have listed : j ∈ upFrom 0 32 := mem_upFrom_iff.mpr ⟨by omega, by omega⟩
  rw [pend, decide_eq_true listed, Bool.true_and, ← bit_or]

end Commands

/-- Settles O17: each command is the page's own operation (`exec_softReset` and its neighbours), whose effect its law gives. -/
theorem pageControlsTakeEffect : Obligations.PageControlsTakeEffect := by
  refine ⟨fun s a page b i reaches => ?_, ⟨fun s a page on b i reaches => ?_, fun s a page on b i reaches => ?_⟩,
    fun s a page v edges b i reaches running => ?_, fun s a page b i off reaches clr => ?_⟩
  · obtain ⟨x, done⟩ := exec_softReset reaches
    obtain ⟨pend, held, flag, words, ind, job, low⟩ := (s.withTiles x).softReset_common page (State.pageBlock_of_reaches reaches)
    have ctrl := low 0x008 (.inl rfl)
    exact ⟨_, done, pend, held, flag, words, ind, job, State.isFrozen_of_ctrl ctrl, State.enabled_of_ctrl ctrl,
      low 0x014 (.inr (.inl rfl))⟩
  · obtain ⟨x, done⟩ := exec_freezeWrite reaches on
    obtain ⟨frozen, en, applied, _⟩ := (s.withTiles x).freezeWrite_common page on
    exact ⟨_, done, frozen, en, applied⟩
  · obtain ⟨x, done⟩ := exec_enableWrite reaches on
    obtain ⟨en, frozen, _⟩ := (s.withTiles x).enableWrite_common page on (State.pageBlock_of_reaches reaches)
    exact ⟨_, done, en, frozen⟩
  · obtain ⟨t, done, others, pend⟩ := exec_irqPendWrite reaches running v edges
    exact ⟨t, done, pend, others _ (irqMask_ne_irqPend page)⟩
  · obtain ⟨x, done⟩ := exec_counterClear reaches clr
    refine ⟨_, done, fun r hr j hj => ?_⟩
    have counter : pageKey page (r.1 + 4 * j) = pageKey page r.1 + 4 * j := by unfold pageKey; omega
    rw [State.rd_written, State.rd_clearCounters _ _ _ (State.pageBlock_of_reaches reaches), if_pos ⟨r, hr, j, hj, counter⟩]

/-- Settles O19: an edge is `raise_pend`; a write with its edges is `exec_irqPendWrite`, where no bit stands that the page lacks. -/
theorem edgesAndWritesSetPendingBits : Obligations.EdgesAndWritesSetPendingBits := by
  refine ⟨fun s page b _ running => State.raise_pend b running, fun s a page v edges b i reaches running assigned => ?_⟩
  obtain ⟨t, done, _, pend⟩ := exec_irqPendWrite reaches running v edges
  refine ⟨t, done, ?_⟩
  rw [pend, assigned, BitVec.ofNat_eq_ofNat, BitVec.or_zero]
  exact word_ext fun j _ => by simp only [bit_or, bit_and, Bool.and_or_distrib_right]

end Sys2Proof.Machine
end

section
/-! Event records and their queues (R42–R45, R404–R408): the header of a record, a record written to its ring, and a record that finds
its queue full. -/

namespace Sys2Proof.Machine

/-! The header (R42). -/

theorem typeCode_lt (b : Block) : typeCode b < 256 := by cases b <;> decide

theorem State.nodeId_lt (s : State) : s.nodeId < 65536 := Nat.mod_lt _ (by decide)

/-- Word 0 of a record: its type, the reporting block and its number, the severity and the flags, with PHASE 0. -/
theorem header_word0 {ty code inst sev flags : Nat} (hty : ty < 128) (hcode : code < 256) (hinst : inst < 256) (hsev : sev < 4)
    (hflags : flags < 32) : let w := w32 (at_ 24 ty + at_ 16 code + at_ 8 inst + at_ 6 sev + flags % 32)
    bits w 24 7 = ty ∧ bits w 31 1 = 0 ∧ bits w 16 8 = code ∧ bits w 8 8 = inst ∧ bits w 6 2 = sev ∧ bits w 5 1 = 0 ∧
    bits w 0 5 = flags := by
  simp only [bits, w32, at_, BitVec.toNat_ofNat, Nat.shiftLeft_eq, Nat.shiftRight_eq_div_pow]
  omega

/-- Word 2 of a record: the nanoseconds and the quality summary. -/
theorem header_word2 {ns q : Nat} (hns : ns < 1000000000) (hq : q < 4) :
    bits (w32 (at_ 30 q + ns)) 0 30 = ns ∧ bits (w32 (at_ 30 q + ns)) 30 2 = q := by
  simp only [bits, w32, at_, BitVec.toNat_ofNat, Nat.shiftLeft_eq, Nat.shiftRight_eq_div_pow]
  omega

/-- Word 3 of a record: the node and the sequence number. -/
theorem header_word3 {node seq : Nat} (hnode : node < 65536) (hseq : seq < 65536) :
    bits (w32 (at_ 16 node + seq)) 16 16 = node ∧ bits (w32 (at_ 16 node + seq)) 0 16 = seq := by
  simp only [bits, w32, at_, BitVec.toNat_ofNat, Nat.shiftLeft_eq, Nat.shiftRight_eq_div_pow]
  omega

/-! The ring. -/

@[simp] theorem State.evQueue_setEvQueue_same (s : State) (n : Nat) (q : EvQueue) : (s.setEvQueue n q).evQueue n = q := Tab.get_set_same

@[simp] theorem State.memGet_setEvQueue (s : State) (n : Nat) (q : EvQueue) (a : Nat) : (s.setEvQueue n q).memGet a = s.memGet a := rfl

/-- Bytes put in memory read back. -/
theorem State.memTake_memPut (s : State) (a : Nat) (l : List Byte) : (s.memPut a l).memTake a l.length = l := by
  have length : ((s.memPut a l).memTake a l.length).length = l.length := by rw [State.memTake, List.length_map, upFrom_length]
  refine List.ext_getElem length fun j _ hj => ?_
  have inside : a ≤ a + j ∧ a + j < a + l.length := ⟨by omega, by omega⟩
  simp only [State.memTake, List.getElem_map, upFrom_get]
  rw [State.memPut_get, if_pos inside, Nat.add_sub_cancel_left, List.getD_eq_getElem _ _ hj]

/-- A queue that is full takes no recovery: its fill leaves no room for EVQ_OVERFLOW and a record (R408). -/
theorem State.evRecover_full {s : State} {n : Nat} (full : s.evSize n < s.evFill n + 2) : s.evRecover n = s := by
  have noRoom : ¬ s.evFill n + 2 ≤ s.evSize n := by omega
  simp [State.evRecover, noRoom]

/-- A write to the space of a queue changes the memory, or what is sent to the host. -/
theorem State.evWrite_only (s : State) (n addr : Nat) (ws : List Word) :
    ∃ m x, s.evWrite n addr ws = { s with mem := m, hostTx := x } := by
  unfold State.evWrite
  split
  · split
    · obtain ⟨m, put⟩ := State.memPut_rest s addr (wordsBytes ws)
      exact ⟨m, s.hostTx, put⟩
    · exact ⟨s.mem, s.hostTx, rfl⟩
  · exact ⟨s.mem, _, rfl⟩

/-- So does the written count, which only PI_EN = 1 writes (R406). -/
theorem State.evWritePi_only (s : State) (n : Nat) :
    ∃ m x, s.evWritePi n = { s with mem := m, hostTx := x } ∧ (s.flag (Reg.evqQCfg n) 28 = false → m = s.mem) := by
  unfold State.evWritePi
  split
  · next enabled =>
    obtain ⟨m, x, put⟩ := s.evWrite_only n _ _
    exact ⟨m, x, put, fun off => absurd (enabled.symm.trans off) (by decide)⟩
  · exact ⟨s.mem, s.hostTx, rfl, fun _ => rfl⟩

theorem evqCntDrop_ne_irqPend (n : Nat) : Reg.evqCntDrop n ≠ Reg.irqPend 0x24 := by
  unfold Reg.evqCntDrop Reg.irqPend pageKey
  omega

theorem evqQCfg_ne_evqCntDrop (n : Nat) : Reg.evqQCfg n ≠ Reg.evqCntDrop n := by
  unfold Reg.evqQCfg Reg.evqCntDrop pageKey
  omega

/-- What tells software of a queue that enters OVERFLOW: its interrupt bit, and for a queue in host space its message (R408). -/
def State.evSignal (s : State) (n : Nat) : State :=
  let u := s.raise 0x24 (16 + n)
  if u.evLocal n then u else u.msixSend (u.fld (Reg.evqQCfg n) 16 6)

theorem State.evSignal_keeps (s : State) (n : Nat) : (s.evSignal n).evq = s.evq ∧ (s.evSignal n).mem = s.mem ∧
    ∀ k, k ≠ Reg.irqPend 0x24 → (s.evSignal n).rd k = s.rd k := by
  obtain ⟨_, _, _, _, _, raised⟩ := s.raise_only 0x24 (16 + n)
  have edge : (s.raise 0x24 (16 + n)).evq = s.evq ∧ (s.raise 0x24 (16 + n)).mem = s.mem := by rw [raised]; exact ⟨rfl, rfl⟩
  have others := fun k (hk : k ≠ Reg.irqPend 0x24) => s.raise_rd_ne (16 + n) hk
  unfold State.evSignal
  generalize s.raise 0x24 (16 + n) = u at edge others
  dsimp only
  split
  · exact ⟨edge.1, edge.2, others⟩
  · obtain ⟨_, _, sent⟩ := u.msixSend_only (u.fld (Reg.evqQCfg n) 16 6)
    rw [sent]
    exact ⟨edge.1, edge.2, others⟩

/-- A record dropped by queue `n`: it is counted, and the queue goes over to `q`. -/
def State.evDrop (s : State) (n : Nat) (q : EvQueue) : State := (s.setEvQueue n q).bump (Reg.evqCntDrop n)

theorem State.evDrop_spec (s : State) (n : Nat) (q : EvQueue) :
    (s.evDrop n q).evQueue n = q ∧ (s.evDrop n q).rd (Reg.evqCntDrop n) = satInc (s.rd (Reg.evqCntDrop n)) ∧
    (s.evDrop n q).mem = s.mem :=
  ⟨Tab.get_set_same, State.rd_bump_same (s.setEvQueue n q) _, rfl⟩

/-- What the queue's state is when it enters OVERFLOW with the record of sequence number `sq`. -/
def State.overflowed (s : State) (n : Nat) (sq : BitVec 16) : EvQueue :=
  { s.evQueue n with overflow := true, dropped := 1, firstLost := sq, lastLost := sq, overflowAt := s.now, overflowQual := s.qualSum }

/-- A record offered to a full queue is dropped: in OVERFLOW one more is counted; otherwise the queue enters it, and its written count,
its interrupt and its message follow (R408). -/
theorem State.evOffer_full {s : State} {n : Nat} (r : Rec) (full : s.evSize n < s.evFill n + 2) :
    s.evOffer n r =
      if (s.evQueue n).overflow then
        s.evDrop n { s.evQueue n with dropped := (s.evQueue n).dropped + 1, lastLost := BitVec.ofNat 16 r.w3.toNat }
      else
        ((s.evDrop n (s.overflowed n (BitVec.ofNat 16 r.w3.toNat))).evWritePi n).evSignal n := by
  have noRoom : ¬ s.evFill n + 2 ≤ s.evSize n := by omega
  unfold State.evOffer
  rw [State.evRecover_full full]
  dsimp only
  rw [if_neg noRoom]
  rfl

/-- What a drop leaves: the queue in OVERFLOW with its index P, one more counted, and the memory as it was but for the written count. -/
theorem State.evOffer_full_effect {s : State} {n : Nat} (r : Rec) (full : s.evSize n < s.evFill n + 2) : let t := s.evOffer n r
    (t.evQueue n).overflow = true ∧ (t.evQueue n).prod = (s.evQueue n).prod ∧
    t.rd (Reg.evqCntDrop n) = satInc (s.rd (Reg.evqCntDrop n)) ∧
    ((s.evQueue n).overflow = false → s.flag (Reg.evqQCfg n) 28 = false → t.mem = s.mem) ∧
    ((s.evQueue n).overflow = true → t.mem = s.mem) := by
  rw [State.evOffer_full r full]
  cases dropping : (s.evQueue n).overflow
  · let d := s.evDrop n (s.overflowed n (BitVec.ofNat 16 r.w3.toNat))
    obtain ⟨queue, count, mem⟩ : d.evQueue n = _ ∧ d.rd (Reg.evqCntDrop n) = _ ∧ d.mem = _ := s.evDrop_spec n _
    obtain ⟨m, x, written, noCount⟩ := d.evWritePi_only n
    obtain ⟨queues, memory, others⟩ := (d.evWritePi n).evSignal_keeps n
    have queue' : ((d.evWritePi n).evSignal n).evQueue n = s.overflowed n (BitVec.ofNat 16 r.w3.toNat) := by
      rw [State.evQueue, queues, written]
      exact queue
    have count' : ((d.evWritePi n).evSignal n).rd (Reg.evqCntDrop n) = satInc (s.rd (Reg.evqCntDrop n)) := by
      rw [others _ (evqCntDrop_ne_irqPend n), written]
      exact count
    have pi : d.flag (Reg.evqQCfg n) 28 = s.flag (Reg.evqQCfg n) 28 :=
      congrArg (bit · 28) (State.rd_bump_ne (s.setEvQueue n _) (evqQCfg_ne_evqCntDrop n))
    rw [if_neg (by decide)]
    refine ⟨by rw [queue']; rfl, by rw [queue']; rfl, count', fun _ off => ?_, nofun⟩
    rw [memory, written]
    exact (noCount (pi.trans off)).trans mem
  · obtain ⟨queue, count, mem⟩ :=
      s.evDrop_spec n { s.evQueue n with dropped := (s.evQueue n).dropped + 1, lastLost := BitVec.ofNat 16 r.w3.toNat }
    rw [if_pos rfl]
    exact ⟨by rw [queue, dropping], by rw [queue], count, nofun, fun _ => mem⟩

/-- Settles O12: the header word by word; `evStore_eq` for a record that is written; `evOffer_full` for one that is dropped. -/
theorem recordsCarryTheirHeaderAndAreQueued : Obligations.RecordsCarryTheirHeaderAndAreQueued := by
  refine ⟨fun s ty sev inst flags q b t w4 w5 w6 w7 hty hsev hinst hflags hq hns => ?_, fun s n r _ isLocal whole _ inSram => ?_,
    fun s n r _ full => State.evOffer_full_effect r full⟩
  · obtain ⟨type, phase, block, number, severity, reserved, flag⟩ := header_word0 hty (typeCode_lt b) hinst hsev hflags
    obtain ⟨ns, quality⟩ := header_word2 hns hq
    obtain ⟨node, sequence⟩ := header_word3 s.nodeId_lt s.recSeq.isLt
    exact ⟨type, phase, block, number, severity, reserved, flag, rfl, ns, quality, node, sequence, rfl, rfl, rfl, rfl, rfl⟩
  · obtain ⟨L, words, length, stored⟩ := s.evStore_eq n r isLocal whole (by simpa using inSram 0 (by decide))
    have read := s.memTake_memPut (s.evBase n + 32 * (s.evQueue n).prod) L
    rw [length] at read
    rw [stored, ← words]
    refine ⟨read, fun x outside => ?_, ?_, ?_, ?_⟩
    · rw [State.memGet_setEvQueue, State.memPut_get, if_neg (by omega)]
    all_goals rw [State.evQueue_setEvQueue_same]

end Sys2Proof.Machine
end

section
/-! The invariant (R49, R342, R352, R357): the state after reset meets it, and every step keeps it. -/

namespace Sys2Proof.Machine

/-- A lease that is off has OWN_OUT low, whenever its peer was last heard. -/
theorem LeaseSt.init_ok (peer : Nat) : ({ LeaseSt.init with peerAt := peer } : LeaseSt).ok := rfl

/-- Settles O3: at reset the counter is 0, no byte and no register is listed, and the lease is off. -/
theorem resetMeetsTheInvariant : Obligations.ResetMeetsTheInvariant :=
  ⟨by decide, rfl, rfl, LeaseSt.init_ok 0⟩

/-- The invariant speaks of no command that waits. -/
theorem State.Inv.withPending {s : State} (inv : s.Inv) (l : List Instr) : ({ s with pending := l } : State).Inv :=
  ⟨inv.ns, inv.mem, inv.regs, inv.lease⟩

/-- Settles O4: an idle step changes nothing, and any other is a command, which keeps the invariant by `exec_keeps`. -/
theorem everyStepKeepsTheInvariant : Obligations.EveryStepKeepsTheInvariant := by
  intro s t inv stepped
  unfold step at stepped
  split at stepped
  · cases stepped
    exact inv
  · next c rest _ =>
    obtain ⟨u, answer, keeps⟩ := exec_keeps c { s with pending := rest }
    cases stepped.symm.trans answer
    exact keeps.inv (inv.withPending rest)

end Sys2Proof.Machine
end

section
/-! Two fabric times (R54, R55): their signed difference, and what moving a time by less than 10^9 seconds does to it. -/

namespace Sys2Proof.Machine

theorem timeReached_iff (a b : TimePoint) : timeReached a b = true ↔ ¬ timeDiff a b < 0 := by
  rw [timeReached, decide_eq_true_iff, Int.not_lt]

/-- The nanoseconds left over by whole seconds. -/
theorem fmod_second (x : Int) : 0 ≤ x.fmod 1000000000 ∧ x.fmod 1000000000 < 1000000000 :=
  ⟨Int.fmod_nonneg_of_pos x (by decide), Int.fmod_lt_of_pos x (by decide)⟩

theorem timeAdd_ns_lt (t : TimePoint) (d : Int) : (timeAdd t d).ns < 1000000000 := by
  have := fmod_second (t.ns + d)
  show (((t.ns : Int) + d).fmod 1000000000).toNat < _
  omega

/-- The seconds moved by fit in 32 bits, so that the difference gives back the nanoseconds moved by. -/
theorem timeDiff_timeAdd {t : TimePoint} {d : Int} (ns : t.ns < 1000000000) (low : -1000000000000000000 < d)
    (high : d < 1000000000000000000) : timeDiff (timeAdd t d) t = d := by
  have whole := Int.fmod_add_mul_fdiv ((t.ns : Int) + d) 1000000000
  have := fmod_second (t.ns + d)
  have sec : (BitVec.ofInt 32 (((t.ns : Int) + d).fdiv 1000000000)).toInt = ((t.ns : Int) + d).fdiv 1000000000 := by
    rw [BitVec.toInt_ofInt]
    exact Int.bmod_eq_of_le (by omega) (by omega)
  simp only [timeDiff, timeAdd, BitVec.add_comm t.sec, BitVec.add_sub_cancel, sec]
  omega

/-- Settles O9: the difference is R54's by definition; `timeReached_iff` and `timeDiff_timeAdd` say what it decides. -/
theorem timesCompareByTheSignedDifference : Obligations.TimesCompareByTheSignedDifference :=
  ⟨fun _ _ => rfl, timeReached_iff, fun t d ns low high => ⟨timeDiff_timeAdd ns low high, timeAdd_ns_lt t d⟩⟩

end Sys2Proof.Machine
end

section
/-! What an operation leaves of the time counter and of the pages TIME and PTP, read off its frame: the registers of every other group lie on
higher pages, and of IRQ_PEND a frame says only that some page's changed. -/

namespace Sys2Proof.Machine

/-- A register of a page up to PTP that is no IRQ_PEND. -/
abbrev ClockReg (k : Nat) : Prop := k < 0x12000 ∧ k % 0x1000 ≠ 0x010

/-- Groups whose registers all lie above the PTP page. -/
def Part.higher : Part → Bool
  | .regBuf | .regCh | .regDrl | .regEvq | .regFp | .regRfx | .regRing | .regSig | .regSwc | .regTile | .regWin => true
  | _ => false

theorem Part.higher_away {p : Part} (hp : p.higher = true) : ∀ f, f ∈ p.banks → Away (· < 0x12000) f := by
  cases p <;> (try cases hp)
  all_goals
    delta Part.banks
    simp only [List.forall_mem_cons, List.not_mem_nil, false_implies, implies_true, and_true]
    and_intros
    all_goals first
      | refine Away.one ?_ | refine Away.all fun i => ?_ | refine Away.below fun i hi => ?_ | refine Away.below2 fun i j hj => ?_
    all_goals refine Nat.not_lt.mpr ?_
    all_goals first
      | (show _ ≤ _ * 0x1000 + _; omega)
      | (show _ ≤ _ + _ * 0x1000000 + _; omega)

/-- A part that is neither the waiting answers of mailboxes, the count of edges nor a register of the pages up to PTP. -/
def Part.offClock (p : Part) : Bool :=
  decide (p ≠ .mbx) && decide (p ≠ .tclks) && (p.banks.isEmpty || decide (p = .regIrq) || p.higher)

theorem Part.offClock_has {p : Part} {k : Nat} (hp : p.offClock = true) (hk : ClockReg k) : ¬ p.has k := by
  simp only [Part.offClock, Bool.and_eq_true, Bool.or_eq_true, List.isEmpty_iff, decide_eq_true_iff] at hp
  obtain ⟨_, (none | rfl) | high⟩ := hp
  · rintro ⟨f, hf, _⟩
    rw [none] at hf
    exact List.not_mem_nil hf
  · rintro ⟨f, hf, at_k⟩
    obtain rfl := List.mem_singleton.mp hf
    obtain ⟨page, rfl⟩ := at_k
    have := hk.2
    unfold Reg.irqPend pageKey at this
    omega
  · exact fun has => Part.has_away (Part.higher_away high) has hk.1

/-- `t` has the waiting answers, the count of edges and the registers of the pages up to PTP that `s` has, IRQ_PEND aside. -/
structure SamePages (s t : State) : Prop where
  mbx : t.mbx = s.mbx
  tclks : t.tclks = s.tclks
  rd : ∀ {k}, ClockReg k → t.rd k = s.rd k

theorem SamePages.refl (s : State) : SamePages s s := ⟨rfl, rfl, fun _ => rfl⟩

theorem SamePages.trans {s t u : State} (h : SamePages s t) (h' : SamePages t u) : SamePages s u :=
  ⟨h'.mbx.trans h.mbx, h'.tclks.trans h.tclks, fun hk => (h'.rd hk).trans (h.rd hk)⟩

theorem Frame.samePages {l : List Part} {s t : State} (h : Frame (fun p => p ∈ l) s t) (off : l.all Part.offClock = true) :
    SamePages s t := by
  have offClock := List.all_eq_true.mp off
  refine ⟨h.mbx fun listed => ?_, h.tclks fun listed => ?_, fun hk => h.regs _ ?_⟩
  · exact absurd (offClock _ listed) (by decide)
  · exact absurd (offClock _ listed) (by decide)
  · rintro ⟨p, listed, has⟩
    exact Part.offClock_has (offClock p listed) hk has

/-- What a TCLK edge does beyond the counter: the hub die's samples. -/
def Part.sampled : List Part :=
  Part.reports ++ Part.ruleUnit ++ [.checks, .lines, .tiles, .lease, .wins, .sigOps, .pubs, .pubOpen, .subs, .net, .ring, .pwr, .regBuf,
    .regCh, .regFp, .regRing, .regSig, .regSwc, .regWin]

theorem State.hubSample_touches (s : State) : Frame (fun p => p ∈ Part.sampled) s s.hubSample :=
  State.hubSample_frame (Frame.refl _ s) (.of_coveredBy rfl)

theorem State.hubSample_samePages (s : State) : SamePages s s.hubSample := s.hubSample_touches.samePages rfl

theorem State.hubSample_time (s : State) : s.hubSample.time = s.time := s.hubSample_touches.time (by decide)

theorem State.raise_touches (s : State) (page b : Nat) : Frame (fun p => p ∈ Part.reports) s (s.raise page b) :=
  State.raise_frame (Frame.refl _ s) _ _ (.of_coveredBy rfl)

theorem State.postAt_touches (s : State) (ty : Nat) (b : Block) (inst flags : Nat) (t : TimePoint) (q : Nat) (w4 w5 w6 w7 : Word) :
    Frame (fun p => p ∈ Part.reports) s (s.postAt ty b inst flags t q w4 w5 w6 w7) :=
  State.postAt_frame (Frame.refl _ s) _ _ _ _ _ _ _ _ _ _ (.of_coveredBy rfl)

theorem State.post_touches (s : State) (ty : Nat) (b : Block) (inst flags : Nat) (w4 w5 w6 w7 : Word) :
    Frame (fun p => p ∈ Part.reports) s (s.post ty b inst flags w4 w5 w6 w7) :=
  State.post_frame (Frame.refl _ s) _ _ _ _ _ _ _ _ (.of_coveredBy rfl)

theorem Part.reports_offClock : Part.reports.all Part.offClock = true := rfl

end Sys2Proof.Machine
end

section
/-! The quality code and the uncertainty (R56–R58): what a change of the code leaves, and what HOLD_LIMIT makes of it. -/

namespace Sys2Proof.Machine

/-- From `s` to `t` the quality code became `code`, with its history and the start of U's growth; the rest of the time and of the pages is
the same. -/
structure Requalified (code : BitVec 4) (s t : State) : Prop where
  time : ∃ history growAt, t.time = { s.time with quality := code, history, growAt }
  pages : SamePages s t

theorem Requalified.quality {code : BitVec 4} {s t : State} (h : Requalified code s t) : t.time.quality = code := by
  obtain ⟨_, _, time⟩ := h.time
  rw [time]

theorem Requalified.unc {code : BitVec 4} {s t : State} (h : Requalified code s t) : t.time.unc = s.time.unc := by
  obtain ⟨_, _, time⟩ := h.time
  rw [time]

theorem Requalified.cmd {code : BitVec 4} {s t : State} (h : Requalified code s t) : t.time.cmd = s.time.cmd := by
  obtain ⟨_, _, time⟩ := h.time
  rw [time]

theorem Requalified.refusedHeld {code : BitVec 4} {s t : State} (h : Requalified code s t) : t.time.refusedHeld = s.time.refusedHeld := by
  obtain ⟨_, _, time⟩ := h.time
  rw [time]

theorem Requalified.counter {code : BitVec 4} {s t : State} (h : Requalified code s t) : t.counter = s.counter := by
  obtain ⟨_, _, time⟩ := h.time
  rw [State.counter, State.counter, time]

theorem Requalified.timeState {code : BitVec 4} {s t : State} (h : Requalified code s t) : t.timeState = code.toNat / 4 := by
  rw [State.timeState, h.quality]

theorem Requalified.fld {code : BitVec 4} {s t : State} (h : Requalified code s t) {k : Nat} (hk : ClockReg k) (lo width : Nat) :
    t.fld k lo width = s.fld k lo width := by
  rw [State.fld, h.pages.rd hk, State.fld]

theorem Requalified.refl (s : State) : Requalified s.time.quality s s := ⟨⟨_, _, rfl⟩, .refl s⟩

theorem Requalified.trans {c c' : BitVec 4} {s t u : State} (h : Requalified c s t) (h' : Requalified c' t u) : Requalified c' s u := by
  obtain ⟨_, _, time⟩ := h.time
  obtain ⟨_, _, time'⟩ := h'.time
  exact ⟨⟨_, _, by rw [time', time]⟩, h.pages.trans h'.pages⟩

theorem State.setQuality_requalified (s : State) (code : BitVec 4) : Requalified code s (s.setQuality code) := by
  unfold State.setQuality
  extract_lets old enters _ u
  split
  · next same =>
    rw [same]
    exact .refl s
  · have reported := (u.raise_touches 0x10 0).trans ((u.raise 0x10 0).post_touches 0x10 .time 0 0
      (w32 (at_ 28 old.toNat + at_ 24 code.toNat + u.uncNs)) 0 0 0)
    have pages : SamePages s u := ⟨rfl, rfl, fun _ => rfl⟩
    exact ⟨⟨_, _, reported.time (by decide)⟩, pages.trans (reported.samePages Part.reports_offClock)⟩

/-- The code that HOLD_LIMIT makes of `code` while U is `unc`: HOLDOVER at the limit is FREERUN (R57). -/
def State.heldCode (s : State) (code : BitVec 4) (unc : Nat) : BitVec 4 :=
  if code.toNat / 4 = 1 ∧ s.fld Reg.timeHoldLimit 0 8 * 256 ≤ unc then BitVec.ofNat 4 (8 + code.toNat % 4) else code

theorem State.checkHoldLimit_requalified (s : State) :
    Requalified (s.heldCode s.time.quality s.time.unc) s s.checkHoldLimit := by
  unfold State.checkHoldLimit State.heldCode State.timeState
  split
  · exact s.setQuality_requalified _
  · exact .refl s

theorem State.setQuality_checkHoldLimit (s : State) (code : BitVec 4) :
    Requalified (s.heldCode code s.time.unc) s (s.setQuality code).checkHoldLimit := by
  have set := s.setQuality_requalified code
  have limit := set.trans (s.setQuality code).checkHoldLimit_requalified
  have same : (s.setQuality code).heldCode (s.setQuality code).time.quality (s.setQuality code).time.unc =
      s.heldCode code s.time.unc := by
    rw [State.heldCode, set.quality, set.unc, set.fld (by decide), State.heldCode]
  rwa [same] at limit

/-- FREERUN's code keeps the source bits. -/
theorem freerun_div (q : Nat) : (BitVec.ofNat 4 (8 + q % 4)).toNat / 4 = 2 := by
  rw [BitVec.toNat_ofNat]
  omega

/-- HOLDOVER is left for FREERUN alone. -/
theorem State.heldCode_div (s : State) (code : BitVec 4) (unc : Nat) :
    (s.heldCode code unc).toNat / 4 =
      if code.toNat / 4 = 1 ∧ s.fld Reg.timeHoldLimit 0 8 * 256 ≤ unc then 2 else code.toNat / 4 := by
  unfold State.heldCode
  split
  · exact freerun_div _
  · rfl

/-- A code of LOCKED is never the outcome of HOLD_LIMIT on another state's code. -/
theorem State.heldCode_ne_locked (s : State) {code : BitVec 4} (unc : Nat) (h : code.toNat / 4 ≠ 0) :
    (s.heldCode code unc).toNat / 4 ≠ 0 := by
  rw [State.heldCode_div]
  split
  · decide
  · exact h

/-- A change of state by the steward: U as given in LOCKED and HOLDOVER, and HOLDOVER at its limit is FREERUN (R57, R58). -/
theorem State.stateSet_effect (s : State) (code : BitVec 4) (u : Nat) :
    let unc := if code.toNat < 8 then 256 * u else s.time.unc
    Requalified (s.heldCode code unc) { s with time := { s.time with unc } } (s.stateSet code u) := by
  intro unc
  have same : s.stateSet code u = (({ s with time := { s.time with unc } } : State).setQuality code).checkHoldLimit := by
    simp only [State.stateSet, unc]
    split <;> rfl
  rw [same]
  exact State.setQuality_checkHoldLimit { s with time := { s.time with unc } } code

/-- UNC_GROWTH_TICK where a millisecond of HOLDOVER has passed. -/
theorem exec_uncGrowthTick {s : State} (holdover : s.timeState = 1) (passed : s.passed s.time.growAt (msTclks 1) = true) :
    ∃ t, exec .uncGrowthTick s = .next t ∧ t.time.unc = capAt 65535 (s.time.unc + s.fld Reg.timeUncGrowth 0 16) ∧
      t.timeState = (if s.fld Reg.timeHoldLimit 0 8 * 256 ≤ t.time.unc then 2 else 1) ∧ t.counter = s.counter := by
  let grown : State := { s with time := { s.time with
    unc := capAt 65535 (s.time.unc + s.fld Reg.timeUncGrowth 0 16), growAt := s.time.growAt + msTclks 1 } }
  have limit := grown.checkHoldLimit_requalified
  have inHoldover : grown.time.quality.toNat / 4 = 1 := holdover
  refine ⟨_, congrArg Host.Outcome.next (if_pos ⟨holdover, passed⟩), limit.unc, ?_, limit.counter⟩
  rw [limit.timeState, State.heldCode_div, inHoldover, limit.unc]
  simp only [true_and]
  rfl

end Sys2Proof.Machine
end

section
/-! A TCLK edge of the counter (R50, R51, R60): the increment with its slew step, and where a command waits for it, the command after it. -/

namespace Sys2Proof.Machine

/-- The edge before any command: the increment, the timers, the count of edges and the slew step. -/
def State.advanced (s : State) : State :=
  ({ (s.setCounter s.edgeCount).tickTimers with tclks := s.tclks + 1 } : State).slewed s.slewNext

theorem State.slewed_time (s : State) (d : Int) :
    (s.slewed d).time = { s.time with slewAt := if d = 0 then s.time.slewAt else s.tclks } := by
  unfold State.slewed
  split <;> rfl

theorem State.slewed_rd_ne (s : State) (d : Int) {k : Nat} (hk : k ≠ Reg.timePendCorr) : (s.slewed d).rd k = s.rd k := by
  unfold State.slewed
  split
  · rfl
  · exact State.rd_wr_ne _ _ hk

theorem State.slewed_rest (s : State) (d : Int) :
    (s.slewed d).mbx = s.mbx ∧ (s.slewed d).tclks = s.tclks ∧ (s.slewed d).icu = s.icu := by
  unfold State.slewed
  split <;> exact ⟨rfl, rfl, rfl⟩

theorem State.slewed_pendCorr (s : State) {d : Int} (hd : d ≠ 0) : (s.slewed d).pendCorr = (wOfInt (s.pendCorr - d)).toInt := by
  unfold State.slewed
  rw [if_neg hd]
  exact congrArg BitVec.toInt (State.rd_wr_same _ _ _)

theorem State.advanced_time (s : State) : s.advanced.time =
    { (s.setCounter s.edgeCount).time with slewAt := if s.slewNext = 0 then s.time.slewAt else s.tclks + 1 } :=
  State.slewed_time _ _

theorem State.advanced_rd_ne (s : State) {k : Nat} (hk : k ≠ Reg.timePendCorr) : s.advanced.rd k = s.rd k :=
  State.slewed_rd_ne _ _ hk

theorem State.advanced_tclks (s : State) : s.advanced.tclks = s.tclks + 1 := (State.slewed_rest _ _).2.1

/-- The state in which a waiting command executes. -/
def State.atEdge (s : State) : State := { s.advanced with time := { s.advanced.time with cmd := none } }

theorem State.atEdge_time (s : State) : s.atEdge.time =
    { (s.setCounter s.edgeCount).time with
      cmd := none, slewAt := if s.slewNext = 0 then s.time.slewAt else s.tclks + 1 } := by
  show ({ s.advanced.time with cmd := none } : TimeSt) = _
  rw [s.advanced_time]

theorem State.atEdge_rd_ne (s : State) {k : Nat} (hk : k ≠ Reg.timePendCorr) : s.atEdge.rd k = s.rd k := s.advanced_rd_ne hk

theorem State.tclkCount_idle {s : State} (idle : s.time.cmd = none) : s.tclkCount = s.advanced := by
  have waits : s.advanced.time.cmd = none := by
    rw [s.advanced_time]
    exact idle
  unfold State.tclkCount
  dsimp only
  rw [← State.advanced, waits]

theorem State.tclkCount_command {s : State} {c : TimeCmd} (waits : s.time.cmd = some c) :
    s.tclkCount = (s.atEdge.timeExecute c).2.mbxAnswer 0x10 (s.atEdge.timeExecute c).1 := by
  have waits' : s.advanced.time.cmd = some c := by
    rw [s.advanced_time]
    exact waits
  unfold State.tclkCount
  dsimp only
  rw [← State.advanced, waits']
  rfl

theorem State.tclkEdge_pages (s : State) : s.tclkEdge.time = s.tclkCount.time ∧ SamePages s.tclkCount s.tclkEdge := by
  unfold State.tclkEdge
  split
  · exact ⟨State.hubSample_time _, State.hubSample_samePages _⟩
  · exact ⟨rfl, .refl _⟩

theorem exec_tclkEdge {s : State} (on : s.OnTclk) : exec .tclkEdge s = .next s.tclkEdge := by
  obtain ⟨noXt32, powered⟩ := on
  exact congrArg Host.Outcome.next (if_neg (by simp [noXt32, powered]))

/-- TCLK_EDGE with no command waiting. -/
theorem exec_tclkEdge_idle {s : State} (on : s.OnTclk) (idle : s.time.cmd = none) :
    ∃ t, exec .tclkEdge s = .next t ∧ t.time = s.advanced.time ∧ SamePages s.advanced t := by
  obtain ⟨time, pages⟩ := s.tclkEdge_pages
  rw [State.tclkCount_idle idle] at time pages
  exact ⟨_, exec_tclkEdge on, time, pages⟩

/-- TCLK_EDGE with a command waiting: what it executes to in the state after the increment, and its answer. -/
theorem exec_tclkEdge_command {s : State} {c : TimeCmd} {u : State} {A : MbxAns} (on : s.OnTclk) (waits : s.time.cmd = some c)
    (result : s.atEdge.timeExecute c = (A, u)) :
    ∃ t, exec .tclkEdge s = .next t ∧ t.time = u.time ∧ Tab.get none t.mbx 0x10 = some A.job ∧
      ∀ {k}, ClockReg k → t.rd k = u.rd k := by
  obtain ⟨time, pages⟩ := s.tclkEdge_pages
  rw [State.tclkCount_command waits, result] at time pages
  exact ⟨_, exec_tclkEdge on, time, by rw [pages.mbx, State.mbxAnswer_job], pages.rd⟩

/-! What commands read at the edge stands as at their acceptance. -/

theorem State.atEdge_counter (s : State) : s.atEdge.counter = (s.setCounter s.edgeCount).counter := by
  rw [State.counter, s.atEdge_time]
  rfl

theorem State.counter_congr {s t : State} (h : t.time = s.time) : t.counter = s.counter := by
  rw [State.counter, h, State.counter]

theorem State.timeState_congr {s t : State} (h : t.time = s.time) : t.timeState = s.timeState := by
  rw [State.timeState, h, State.timeState]

theorem State.atEdge_timeState (s : State) : s.atEdge.timeState = s.timeState := by
  rw [State.timeState, s.atEdge_time]
  rfl

theorem State.atEdge_mbxD (s : State) {n : Nat} (hn : n < 4) : s.atEdge.mbxD 0x10 n = s.mbxD 0x10 n :=
  s.atEdge_rd_ne (by unfold Reg.mbxD Reg.timePendCorr pageKey; omega)

theorem State.atEdge_fld (s : State) {k : Nat} (hk : k ≠ Reg.timePendCorr) (lo width : Nat) :
    s.atEdge.fld k lo width = s.fld k lo width := by
  rw [State.fld, s.atEdge_rd_ne hk, State.fld]

theorem State.atEdge_corrInput (s : State) : s.atEdge.corrInput = s.corrInput := by
  rw [State.corrInput, s.atEdge_mbxD (by decide), s.atEdge_mbxD (by decide), State.corrInput]

theorem State.atEdge_heldCorr (s : State) : s.atEdge.heldCorr = s.heldCorr := by
  rw [State.heldCorr, s.atEdge_rd_ne (by decide), s.atEdge_rd_ne (by decide), State.heldCorr]

theorem State.atEdge_initialSet (s : State) : s.atEdge.initialSet = s.initialSet := by
  rw [State.initialSet, s.atEdge_timeState, State.flag, s.atEdge_rd_ne (by decide), s.atEdge_time]
  rfl

theorem State.atEdge_uncNs (s : State) : s.atEdge.uncNs = s.uncNs := by
  rw [State.uncNs, s.atEdge_timeState, s.atEdge_time]
  rfl

/-- With no command of ADJ_RATE waiting the edge's rate is TIME.RATE. -/
theorem State.edgeCount_idle {s : State} (idle : s.time.cmd = none) :
    s.edgeCount = s.counter + (40 * 2 ^ 32 + (s.rd Reg.timeRate).toInt) + s.slewNext * 2 ^ 32 := by
  rw [State.edgeCount, State.tclkInc, State.edgeRate, idle]
  rfl

/-- The counts of edges are no part of the counter. -/
theorem State.counter_counted (s : State) (xts tclks : Nat) :
    ({ s with time := { s.time with xts }, tclks } : State).counter = s.counter := rfl

/-- Settles O22: the idle edge is `advanced`; XT32 moves the counter alone; U grows by `exec_uncGrowthTick`. -/
theorem theCounterAdvancesAndItsUncertaintyGrows : Obligations.TheCounterAdvancesAndItsUncertaintyGrows := by
  refine ⟨⟨fun s on idle => ⟨?_, ?_⟩, fun s off => ?_, fun s on => ?_, fun s off => ?_⟩, fun s => exec_uncGrowthTick, fun s none => ?_⟩
  · obtain ⟨t, answer, time, pages⟩ := exec_tclkEdge_idle on idle
    refine ⟨t, answer, ?_, pages.tclks.trans s.advanced_tclks, ?_⟩
    · rw [← State.edgeCount_idle idle, State.counter, time, s.advanced_time]
      rfl
    · rw [time, s.advanced_time]
      rfl
  · rw [State.tclkCount_idle idle, State.advanced, (State.slewed_rest _ _).2.2]
    rfl
  · exact congrArg Host.Outcome.next (if_pos off)
  · have stamps : Frame (fun p => p ∈ Part.reports ++ [.lines, .tiles, .stampOrder, .regTile]) s.xt32Advance s.xt32Advance.dormantStamps :=
      State.dormantStamps_frame (Frame.refl _ _) (.of_coveredBy rfl)
    exact ⟨_, congrArg Host.Outcome.next (if_pos on), (State.counter_congr (stamps.time (by decide))).trans (State.counter_counted _ _ _)⟩
  · exact congrArg Host.Outcome.next (if_neg (by simp [off]))
  · refine congrArg Host.Outcome.next (if_neg ?_)
    rintro ⟨holdover, passed⟩
    obtain h | h := none
    · exact h holdover
    · exact Bool.false_ne_true (h.symm.trans passed)

end Sys2Proof.Machine
end

section
/-! The TIME mailbox and the corrections of the counter (R51, R53, R57, R60–R63, R75). -/

namespace Sys2Proof.Machine

theorem State.timeAccept_accepts {s : State} (a : Agent) (op arg : Nat) (idle : s.mbxBusy 0x10 = false) :
    s.TimeAccepts (s.timeAccept a op arg) ⟨op, decide (a = .steward), arg⟩ := by
  have busy : (s.wr (Reg.mbxFlag 0x10) 2).rd (Reg.mbxFlag 0x10) = 2 := State.rd_wr_same s _ _
  rw [State.timeAccept, State.mbxAccept_idle _ idle]
  exact ⟨rfl, busy⟩

/-! Forced steps. -/

/-- What follows a forced step: multiples of CAP_PERIOD skipped and the drill's check, and no part of the time or of the pages up to PTP. -/
theorem State.afterStep_touches (s : State) (c : Int) :
    Frame (fun p => p ∈ Part.reports ++ [.ctrs, .drill, .regDrl]) s (s.afterStep c) :=
  State.afterStep_frame (Frame.refl _ s) c (.of_coveredBy rfl)

/-- A forced step moves the counter, cancels the pending slew and is counted. -/
theorem State.forcedStep_effect (s : State) (move : State → State) (c : Int) (flags : Nat) (kept : (move s).regs = s.regs) :
    let t := s.forcedStep move c flags
    t.time = (move s).time ∧ t.rd Reg.timePendCorr = 0 ∧ t.rd Reg.timeCntStep = satInc (s.rd Reg.timeCntStep) := by
  let moved := (move s).wr Reg.timePendCorr 0
  let counted := moved.bump Reg.timeCntStep
  let raised := counted.raise 0x10 2
  let posted := raised.postAt 0x12 .time 0 flags s.now s.qualSum (corrLo c) (corrHi c) raised.now.sec (w32 raised.now.ns)
  have reported : Frame (fun p => p ∈ Part.reports) counted posted :=
    (counted.raise_touches 0x10 2).trans (raised.postAt_touches _ _ _ _ _ _ _ _ _ _)
  have after := posted.afterStep_touches c
  have pages := (reported.samePages rfl).trans (after.samePages rfl)
  refine ⟨(after.time (by decide)).trans (reported.time (by decide)), (pages.rd (by decide)).trans ?_, (pages.rd (by decide)).trans ?_⟩
  · rw [State.rd_bump_ne _ (by decide), State.rd_wr_same]
  · rw [State.rd_bump_same, State.rd_wr_ne _ _ (by decide), State.rd_congr kept]

/-! The commands at their edge. -/

theorem State.startSlew_effect (s : State) (c : Int) :
    (s.startSlew c).rd Reg.timePendCorr = wOfInt c ∧ (s.startSlew c).counter = s.counter ∧ (s.startSlew c).time.refusedHeld = false := by
  unfold State.startSlew State.dropRefused
  refine ⟨State.rd_wr_same _ _ _, ?_⟩
  dsimp only
  split <;> exact ⟨rfl, rfl⟩

/-- HOLDOVER's code keeps the source bits. -/
theorem holdover_div_ne_zero (q : Nat) : (BitVec.ofNat 4 (4 + q % 4)).toNat / 4 ≠ 0 := by
  rw [BitVec.toNat_ofNat]
  omega

/-- A refused correction held and counted, before it is reported (R61). -/
def State.refused (s : State) (c : Int) : State :=
  let held : State := { s with time := { s.time with refusedHeld := true } }
  ((held.wr Reg.timeRefusedLo (corrLo c)).wr Reg.timeRefusedHi (corrHi c)).bump Reg.timeCntRefused

/-- A refusal reported, and LOCKED left for HOLDOVER or, at HOLD_LIMIT, for FREERUN (R57, R61). -/
theorem State.refuseCorr_requalified (s : State) (c : Int) :
    ∃ u code, Frame (fun p => p ∈ Part.reports) (s.refused c) u ∧ Requalified code u (s.refuseCorr c) ∧ code.toNat / 4 ≠ 0 := by
  unfold State.refuseCorr
  extract_lets code _ held stored posted
  have reported : Frame (fun p => p ∈ Part.reports) stored posted :=
    (stored.raise_touches 0x10 1).trans (State.post_touches _ _ _ _ _ _ _ _ _)
  split
  · exact ⟨posted, _, reported, posted.setQuality_checkHoldLimit _, posted.heldCode_ne_locked _ (holdover_div_ne_zero _)⟩
  · next unlocked => exact ⟨posted, _, reported, .refl posted, unlocked⟩

theorem State.refuseCorr_effect (s : State) (c : Int) : let t := s.refuseCorr c
    t.counter = s.counter ∧ t.rd Reg.timeRefusedLo = corrLo c ∧ t.rd Reg.timeRefusedHi = corrHi c ∧
    t.rd Reg.timeCntRefused = satInc (s.rd Reg.timeCntRefused) ∧ t.time.refusedHeld = true ∧ t.timeState ≠ 0 := by
  obtain ⟨u, code, reported, changed, unlocked⟩ := s.refuseCorr_requalified c
  have time : u.time = { s.time with refusedHeld := true } := reported.time (by decide)
  have pages := (reported.samePages rfl).trans changed.pages
  refine ⟨changed.counter.trans ?_, (pages.rd (by decide)).trans ?_, (pages.rd (by decide)).trans ?_,
    (pages.rd (by decide)).trans ?_, ?_, ?_⟩
  · rw [State.counter, time, State.counter]
  · rw [State.refused, State.rd_bump_ne _ (by decide), State.rd_wr_ne _ _ (by decide), State.rd_wr_same]
  · rw [State.refused, State.rd_bump_ne _ (by decide), State.rd_wr_same]
  · rw [State.refused, State.rd_bump_same, State.rd_wr_ne _ _ (by decide), State.rd_wr_ne _ _ (by decide)]
    rfl
  · rw [changed.refusedHeld, time]
  · rwa [changed.timeState]

/-- A counter set to a whole number of nanoseconds, `sec` seconds and `ns` of them. -/
theorem State.setCounter_whole (s : State) {sec ns : Nat} (hs : sec < 2 ^ 48) (hn : ns < 1000000000) :
    let t := (s.setCounter (((sec : Int) * 1000000000 + ns) * 2 ^ 32)).time
    t.sec.toNat = sec ∧ t.ns = ns ∧ t.frac = 0 := by
  have whole : (((sec : Int) * 1000000000 + ns) * 2 ^ 32).fdiv (2 ^ 32) = (sec : Int) * 1000000000 + ns :=
    Int.mul_fdiv_cancel _ (by decide)
  have fraction : (((sec : Int) * 1000000000 + ns) * 2 ^ 32).fmod (2 ^ 32) = 0 := Int.mul_fmod_left _ _
  have seconds : ((sec : Int) * 1000000000 + ns).fdiv 1000000000 = sec := by
    rw [Int.fdiv_eq_ediv_of_nonneg _ (by decide)]
    omega
  have nanoseconds : ((sec : Int) * 1000000000 + ns).fmod 1000000000 = ns := by
    rw [Int.fmod_eq_emod_of_nonneg _ (by decide)]
    omega
  unfold State.setCounter
  dsimp only
  rw [whole, fraction, seconds, nanoseconds, BitVec.toNat_ofInt]
  exact ⟨by omega, rfl, rfl⟩

/-- SET_TIME's input as a counter value (R63). -/
theorem State.setCounter_setTimeInput (s u : State) (ok : (s.mbxD 0x10 1).toNat < 1000000000) :
    let t := (u.setCounter s.setTimeInput).time
    t.sec.toNat = (s.mbxD 0x10 0).toNat + bits (s.mbxD 0x10 2) 0 16 * 2 ^ 32 ∧ t.ns = (s.mbxD 0x10 1).toNat ∧ t.frac = 0 := by
  have high : bits (s.mbxD 0x10 2) 0 16 < 2 ^ 16 := Nat.mod_lt _ (by decide)
  have low := (s.mbxD 0x10 0).isLt
  exact u.setCounter_whole (by omega) ok

/-! The edge of each command: what it leaves, and its answer. -/

/-- READ_TIME at its edge (R53). -/
theorem exec_tclkEdge_readTime {s : State} {x : Bool} (on : s.OnTclk) (waits : s.time.cmd = some ⟨1, x, 0⟩) :
    ∃ t, exec .tclkEdge s = .next t ∧ t.time.cmd = none ∧ t.counter = (s.setCounter s.edgeCount).counter ∧
      t.Job 0x10 0 (some (w32 t.time.sec.toNat)) (some (w32 t.time.ns))
        (some (w32 (at_ 16 (t.time.sec.toNat / 2 ^ 32) + at_ 12 s.time.quality.toNat + s.uncNs))) (some t.time.frac) := by
  obtain ⟨t, answer, time, job, _⟩ := exec_tclkEdge_command on waits rfl
  have quality : s.atEdge.time.quality = s.time.quality := by rw [s.atEdge_time]; rfl
  refine ⟨t, answer, ?_, (State.counter_congr time).trans s.atEdge_counter, ?_⟩
  · rw [time]
    rfl
  · rw [State.Job, job, time, ← quality, ← s.atEdge_uncNs]
    rfl

/-- ADJ_RATE at its edge (R50). -/
theorem exec_tclkEdge_adjRate {s : State} (on : s.OnTclk) (waits : s.time.cmd = some ⟨3, true, 0⟩) (noSlew : s.pendCorr = 0) :
    ∃ t, exec .tclkEdge s = .next t ∧ t.time.cmd = none ∧ t.Job 0x10 0 none none none none ∧
      t.rd Reg.timeRate = s.mbxD 0x10 0 ∧
      t.counter = (s.setCounter (s.counter + (40 * 2 ^ 32 + (s.mbxD 0x10 0).toInt))).counter := by
  obtain ⟨t, answer, time, job, rd⟩ := exec_tclkEdge_command on waits rfl
  have rate : s.edgeCount = s.counter + (40 * 2 ^ 32 + (s.mbxD 0x10 0).toInt) := by
    have noStep : s.slewNext = 0 := if_pos (Or.inl noSlew)
    rw [State.edgeCount, State.tclkInc, State.edgeRate, waits, noStep, Int.zero_mul, Int.add_zero]
    rfl
  refine ⟨t, answer, ?_, job, (rd (by decide)).trans ((State.rd_wr_same _ _ _).trans (s.atEdge_mbxD (by decide))), ?_⟩
  · rw [time]
    rfl
  · exact (State.counter_congr time).trans (s.atEdge_counter.trans (by rw [rate]))

theorem State.setState_steward (s : State) (arg : Nat) : s.setState true arg =
    if stateAllowed s.timeState ((BitVec.ofNat 4 arg).toNat / 4) then
      (.done, s.stateSet (BitVec.ofNat 4 arg) ((s.mbxD 0x10 0).toNat % 256))
    else (.err 4, s) := by
  unfold State.setState
  dsimp only
  cases stateAllowed s.timeState ((BitVec.ofNat 4 arg).toNat / 4) <;> rfl

/-- SET_STATE of the steward at its edge (R57, R58). -/
theorem exec_tclkEdge_setState {s : State} {arg : Nat} (on : s.OnTclk) (waits : s.time.cmd = some ⟨6, true, arg⟩)
    (allowed : stateAllowed s.timeState ((BitVec.ofNat 4 arg).toNat / 4) = true) :
    ∃ t, exec .tclkEdge s = .next t ∧ t.time.cmd = none ∧ t.Job 0x10 0 none none none none ∧
      let unc := if (BitVec.ofNat 4 arg).toNat < 8 then 256 * ((s.mbxD 0x10 0).toNat % 256) else s.time.unc
      t.time.unc = unc ∧ t.time.quality = s.heldCode (BitVec.ofNat 4 arg) unc := by
  let u := (s.atEdge.mbxD 0x10 0).toNat % 256
  have result : s.atEdge.timeExecute ⟨6, true, arg⟩ = (.done, s.atEdge.stateSet (BitVec.ofNat 4 arg) u) := by
    have steward := s.atEdge.setState_steward arg
    rwa [s.atEdge_timeState, if_pos allowed] at steward
  obtain ⟨t, answer, time, job, _⟩ := exec_tclkEdge_command on waits result
  have set := s.atEdge.stateSet_effect (BitVec.ofNat 4 arg) u
  have unc : s.atEdge.time.unc = s.time.unc := by rw [s.atEdge_time]; rfl
  have held : ∀ unc, s.atEdge.heldCode (BitVec.ofNat 4 arg) unc = s.heldCode (BitVec.ofNat 4 arg) unc := fun unc => by
    rw [State.heldCode, s.atEdge_fld (by decide), State.heldCode]
  refine ⟨t, answer, ?_, job, ?_, ?_⟩
  · rw [time, set.cmd]
    rfl
  · rw [time, set.unc, ← unc, ← s.atEdge_mbxD (by decide)]
  · rw [time, set.quality, held, ← unc, ← s.atEdge_mbxD (by decide)]

/-- A command refused at its edge leaves the state after the increment. -/
theorem exec_tclkEdge_refused {s : State} {c : TimeCmd} {code : Nat} (on : s.OnTclk) (waits : s.time.cmd = some c)
    (refused : s.atEdge.timeExecute c = (.err code, s.atEdge)) :
    ∃ t, exec .tclkEdge s = .next t ∧ t.Job 0x10 code none none none none ∧ t.counter = (s.setCounter s.edgeCount).counter ∧
      t.time.quality = s.time.quality ∧ t.rd Reg.timeRate = s.rd Reg.timeRate := by
  obtain ⟨t, answer, time, job, rd⟩ := exec_tclkEdge_command on waits refused
  refine ⟨t, answer, job, (State.counter_congr time).trans s.atEdge_counter, ?_, (rd (by decide)).trans (s.atEdge_rd_ne (by decide))⟩
  rw [time, s.atEdge_time]
  rfl

theorem State.adjPhase_slewed {s : State} (noInit : s.initialSet = false) (within : s.corrInput.natAbs ≤ s.fld Reg.timeStepLimit 0 30) :
    s.adjPhase true = (.ok (some 0) none none none, s.startSlew s.corrInput) := by
  unfold State.adjPhase
  simp [noInit, within]

theorem State.adjPhase_refused {s : State} (noInit : s.initialSet = false) (beyond : s.fld Reg.timeStepLimit 0 30 < s.corrInput.natAbs) :
    s.adjPhase true = (.err 1, s.refuseCorr s.corrInput) := by
  unfold State.adjPhase
  simp [noInit, beyond]

/-- The state in which an initial set is applied: it is allowed no more, and no refused correction is held (R61, R62). -/
def State.initSet (s : State) : State := ({ s with time := { s.time with initSetDone := true } } : State).dropRefused

theorem State.adjPhase_initial {s : State} (init : s.initialSet = true) :
    s.adjPhase true = (.ok (some 1) none none none, s.initSet.forcedStep (fun s' => s'.stepCounter s.corrInput) s.corrInput 1) := by
  unfold State.adjPhase
  simp [init, State.initSet]

/-- ADJ_PHASE within STEP_LIMIT at its edge: the correction is to be slewed (R60). -/
theorem exec_tclkEdge_slewed {s : State} (on : s.OnTclk) (waits : s.time.cmd = some ⟨2, true, 0⟩) (noInit : s.initialSet = false)
    (within : s.corrInput.natAbs ≤ s.fld Reg.timeStepLimit 0 30) :
    ∃ t, exec .tclkEdge s = .next t ∧ t.Job 0x10 0 (some 0) none none none ∧
      t.rd Reg.timePendCorr = wOfInt s.corrInput ∧ t.counter = (s.setCounter s.edgeCount).counter ∧ t.time.refusedHeld = false := by
  rw [← s.atEdge_initialSet] at noInit
  rw [← s.atEdge_corrInput, ← s.atEdge_fld (by decide)] at within
  obtain ⟨t, answer, time, job, rd⟩ := exec_tclkEdge_command on waits (State.adjPhase_slewed noInit within)
  obtain ⟨pend, counter, dropped⟩ := s.atEdge.startSlew_effect s.atEdge.corrInput
  refine ⟨t, answer, job, ?_, (State.counter_congr time).trans (counter.trans s.atEdge_counter), by rw [time, dropped]⟩
  rw [rd (by decide), pend, s.atEdge_corrInput]

/-- ADJ_PHASE beyond STEP_LIMIT at its edge (R61). -/
theorem exec_tclkEdge_beyond {s : State} (on : s.OnTclk) (waits : s.time.cmd = some ⟨2, true, 0⟩) (noInit : s.initialSet = false)
    (beyond : s.fld Reg.timeStepLimit 0 30 < s.corrInput.natAbs) :
    ∃ t, exec .tclkEdge s = .next t ∧ t.Job 0x10 1 none none none none ∧ t.counter = (s.setCounter s.edgeCount).counter ∧
      t.rd Reg.timeRefusedLo = corrLo s.corrInput ∧ t.rd Reg.timeRefusedHi = corrHi s.corrInput ∧
      t.rd Reg.timeCntRefused = satInc (s.rd Reg.timeCntRefused) ∧ t.time.refusedHeld = true ∧ t.timeState ≠ 0 := by
  rw [← s.atEdge_initialSet] at noInit
  rw [← s.atEdge_corrInput, ← s.atEdge_fld (by decide)] at beyond
  obtain ⟨t, answer, time, job, rd⟩ := exec_tclkEdge_command on waits (State.adjPhase_refused noInit beyond)
  obtain ⟨counter, lo, hi, count, held, unlocked⟩ := s.atEdge.refuseCorr_effect s.atEdge.corrInput
  rw [s.atEdge_corrInput] at lo hi time rd counter count held unlocked
  rw [s.atEdge_rd_ne (by decide)] at count
  exact ⟨t, answer, job, (State.counter_congr time).trans (counter.trans s.atEdge_counter), (rd (by decide)).trans lo,
    (rd (by decide)).trans hi, (rd (by decide)).trans count, by rw [time, held], by rwa [State.timeState_congr time]⟩

/-- A command that steps the counter at its edge: counted, and the pending slew cancelled (R62, R63). -/
theorem exec_tclkEdge_stepped {s u : State} {c : TimeCmd} {A : MbxAns} {move : State → State} {d : Int} {flags : Nat} (on : s.OnTclk)
    (waits : s.time.cmd = some c) (result : s.atEdge.timeExecute c = (A, u.forcedStep move d flags)) (regs : u.regs = s.atEdge.regs)
    (kept : (move u).regs = u.regs) :
    ∃ t, exec .tclkEdge s = .next t ∧ Tab.get none t.mbx 0x10 = some A.job ∧ t.time = (move u).time ∧ t.rd Reg.timePendCorr = 0 ∧
      t.rd Reg.timeCntStep = satInc (s.rd Reg.timeCntStep) := by
  obtain ⟨t, answer, time, job, rd⟩ := exec_tclkEdge_command on waits result
  obtain ⟨moved, noSlew, count⟩ := u.forcedStep_effect move d flags kept
  refine ⟨t, answer, job, time.trans moved, (rd (by decide)).trans noSlew, (rd (by decide)).trans (count.trans ?_)⟩
  rw [State.rd_congr regs, s.atEdge_rd_ne (by decide)]

/-- A step by `c` ns moves the counter as from the state after the increment. -/
theorem State.stepCounter_counter {s t : State} (h : t.counter = s.counter) (c : Int) :
    (t.stepCounter c).counter = (s.stepCounter c).counter := by
  unfold State.stepCounter
  rw [h]
  rfl

/-- An initial set (R62). -/
theorem exec_tclkEdge_initial {s : State} (on : s.OnTclk) (waits : s.time.cmd = some ⟨2, true, 0⟩) (init : s.initialSet = true) :
    ∃ t, exec .tclkEdge s = .next t ∧ t.Job 0x10 0 (some 1) none none none ∧
      t.counter = ((s.setCounter s.edgeCount).stepCounter s.corrInput).counter ∧ t.time.initSetDone = true ∧
      t.rd Reg.timePendCorr = 0 ∧ t.rd Reg.timeCntStep = satInc (s.rd Reg.timeCntStep) := by
  rw [← s.atEdge_initialSet] at init
  obtain ⟨t, answer, job, time, noSlew, count⟩ := exec_tclkEdge_stepped on waits (State.adjPhase_initial init) rfl rfl
  refine ⟨t, answer, job, ?_, by rw [time]; rfl, noSlew, count⟩
  rw [State.counter_congr time, s.atEdge_corrInput]
  exact State.stepCounter_counter s.atEdge_counter _

theorem State.stepForce_held {s : State} (held : s.time.refusedHeld = true) : s.stepForce =
    (.ok (some (s.rd Reg.timeRefusedLo)) (some (s.rd Reg.timeRefusedHi)) none none,
      s.dropRefused.forcedStep (fun s' => s'.stepCounter s.heldCorr) s.heldCorr 0) := by
  unfold State.stepForce
  simp [held]

theorem State.stepForce_none {s : State} (none : s.time.refusedHeld = false) : s.stepForce = (.err 3, s) := by
  unfold State.stepForce
  simp [none]

theorem State.atEdge_refusedHeld (s : State) : s.atEdge.time.refusedHeld = s.time.refusedHeld := by
  rw [s.atEdge_time]
  rfl

/-- STEP_FORCE with a correction held (R63). -/
theorem exec_tclkEdge_stepForce {s : State} {x : Bool} (on : s.OnTclk) (waits : s.time.cmd = some ⟨4, x, 0⟩)
    (held : s.time.refusedHeld = true) :
    ∃ t, exec .tclkEdge s = .next t ∧
      t.Job 0x10 0 (some (s.rd Reg.timeRefusedLo)) (some (s.rd Reg.timeRefusedHi)) none none ∧
      t.counter = ((s.setCounter s.edgeCount).stepCounter s.heldCorr).counter ∧ t.time.refusedHeld = false ∧
      t.rd Reg.timePendCorr = 0 ∧ t.rd Reg.timeCntStep = satInc (s.rd Reg.timeCntStep) := by
  rw [← s.atEdge_refusedHeld] at held
  obtain ⟨t, answer, job, time, noSlew, count⟩ := exec_tclkEdge_stepped on waits (State.stepForce_held held) rfl rfl
  rw [s.atEdge_rd_ne (by decide), s.atEdge_rd_ne (by decide)] at job
  refine ⟨t, answer, job, ?_, by rw [time]; rfl, noSlew, count⟩
  rw [State.counter_congr time, s.atEdge_heldCorr]
  exact State.stepCounter_counter s.atEdge_counter _

theorem State.atEdge_setTimeInput (s : State) : s.atEdge.setTimeInput = s.setTimeInput ∧ s.atEdge.setTimeOk = s.setTimeOk := by
  simp only [State.setTimeInput, State.setTimeOk, s.atEdge_mbxD (n := 0) (by decide), s.atEdge_mbxD (n := 1) (by decide),
    s.atEdge_mbxD (n := 2) (by decide), and_self]

theorem State.setTime_ok {s : State} (ok : s.setTimeOk = true) : s.setTime =
    (.done, s.dropRefused.forcedStep (fun s' => s'.setCounter s.setTimeInput) ((s.setTimeInput - s.counter).fdiv (2 ^ 32)) 2) := by
  unfold State.setTime
  simp [ok]

theorem State.setTime_err {s : State} (bad : s.setTimeOk = false) : s.setTime = (.err 4, s) := by
  unfold State.setTime
  simp [bad]

/-- SET_TIME with its nanoseconds in range (R63). -/
theorem exec_tclkEdge_setTime {s : State} {x : Bool} (on : s.OnTclk) (waits : s.time.cmd = some ⟨5, x, 0⟩)
    (range : (s.mbxD 0x10 1).toNat < 1000000000) :
    ∃ t, exec .tclkEdge s = .next t ∧ t.Job 0x10 0 none none none none ∧
      t.time.sec.toNat = (s.mbxD 0x10 0).toNat + bits (s.mbxD 0x10 2) 0 16 * 2 ^ 32 ∧ t.time.ns = (s.mbxD 0x10 1).toNat ∧
      t.time.frac = 0 ∧ t.time.refusedHeld = false ∧ t.rd Reg.timePendCorr = 0 ∧
      t.rd Reg.timeCntStep = satInc (s.rd Reg.timeCntStep) := by
  obtain ⟨input, ok⟩ := s.atEdge_setTimeInput
  have result := State.setTime_ok (ok.trans (decide_eq_true range))
  rw [input] at result
  obtain ⟨t, answer, job, time, noSlew, count⟩ := exec_tclkEdge_stepped on waits result rfl rfl
  obtain ⟨sec, ns, frac⟩ := s.setCounter_setTimeInput s.atEdge.dropRefused range
  rw [← time] at sec ns frac
  exact ⟨t, answer, job, sec, ns, frac, by rw [time]; rfl, noSlew, count⟩

/-- A slew step towards 0 leaves the rest of the correction (R60). -/
theorem wOfInt_towards_zero {w : Word} {d : Int} (dir : d = if 0 < w.toInt then 1 else -1) :
    (wOfInt (w.toInt - d)).toInt = w.toInt - d := by
  have low := BitVec.le_toInt w
  have high := BitVec.toInt_lt (x := w)
  rw [wOfInt, BitVec.toInt_ofInt]
  refine Int.bmod_eq_of_le ?_ ?_ <;> (subst dir; split <;> omega)

/-- SLEW_STEP at the edge of a slew step (R60). -/
theorem exec_slewStep {s : State} (on : s.OnTclk) (idle : s.time.cmd = none) (pending : s.pendCorr ≠ 0)
    (due : s.time.slewAt + s.slewEvery ≤ s.tclks + 1) : let d : Int := if 0 < s.pendCorr then 1 else -1
    ∃ t, exec .slewStep s = .next t ∧ t.pendCorr = s.pendCorr - d ∧
      t.counter = (s.setCounter (s.counter + s.tclkInc + d * 2 ^ 32)).counter := by
  intro d
  obtain ⟨noXt32, powered⟩ := on
  have step : s.slewNext = d := if_neg (by omega)
  have moves : d ≠ 0 := by
    show (if 0 < s.pendCorr then 1 else -1 : Int) ≠ 0
    split <;> decide
  obtain ⟨time, pages⟩ := s.tclkEdge_pages
  rw [State.tclkCount_idle idle] at time pages
  refine ⟨s.tclkEdge, congrArg Host.Outcome.next (if_neg (by simp [noXt32, powered, step, moves])), ?_, ?_⟩
  · have rest : s.advanced.pendCorr = _ := State.slewed_pendCorr _ (by rwa [step])
    rw [State.pendCorr, pages.rd (by decide), ← State.pendCorr, rest, step]
    exact wOfInt_towards_zero rfl
  · rw [State.counter, time, s.advanced_time, State.edgeCount, step]
    rfl

/-- The states that the steward may ask for (R57). -/
theorem stateAllowed_of {cur req : Nat} (h : req = cur ∨ req = 0 ∨ cur = 0 ∧ req = 1) : stateAllowed cur req = true := by
  simpa [stateAllowed, or_assoc] using h

/-- Settles O21: acceptance is `timeAccept_accepts`; each command's edge is its `exec_tclkEdge` lemma. -/
theorem theTimePageReadsSetsAndCorrects : Obligations.TheTimePageReadsSetsAndCorrects := by
  refine ⟨⟨fun s a arg idle => ?_, fun s x on waits => exec_tclkEdge_readTime on waits,
      fun s on waits noSlew => exec_tclkEdge_adjRate on waits noSlew, fun s arg on waits => ?_, fun s arg on => ⟨fun waits => ?_,
      fun waits => ?_, fun waits refused => ?_⟩⟩,
    fun s on waits noInit => ⟨exec_tclkEdge_slewed on waits noInit, exec_tclkEdge_beyond on waits noInit⟩,
    fun s on waits init => exec_tclkEdge_initial on waits init,
    fun s x on waits => ⟨exec_tclkEdge_stepForce on waits, fun none => ?_⟩,
    fun s x on waits => ⟨exec_tclkEdge_setTime on waits, fun beyond => ?_⟩,
    fun s on idle pending due => exec_slewStep on idle pending due⟩
  · exact ⟨⟨_, rfl, State.timeAccept_accepts _ _ _ idle⟩, ⟨_, rfl, State.timeAccept_accepts _ _ _ idle⟩,
      ⟨_, rfl, State.timeAccept_accepts _ _ _ idle⟩, ⟨_, rfl, State.timeAccept_accepts _ _ _ idle⟩,
      ⟨_, rfl, State.timeAccept_accepts _ _ _ idle⟩, ⟨_, rfl, State.timeAccept_accepts _ _ _ idle⟩⟩
  · intro code req unc allowed
    obtain ⟨t, answer, cmd, job, loaded, quality⟩ := exec_tclkEdge_setState on waits (stateAllowed_of allowed)
    have low : (BitVec.ofNat 4 arg).toNat < 8 ↔ (BitVec.ofNat 4 arg).toNat / 4 < 2 := by omega
    simp only [low] at loaded quality
    exact ⟨t, answer, cmd, job, loaded, quality⟩
  · obtain ⟨t, answer, job, _, _, rate⟩ := exec_tclkEdge_refused on waits rfl
    exact ⟨t, answer, job, rate⟩
  · obtain ⟨t, answer, job, _, quality, _⟩ := exec_tclkEdge_refused on waits rfl
    exact ⟨t, answer, job, quality⟩
  · have steward := s.atEdge.setState_steward arg
    rw [s.atEdge_timeState, refused] at steward
    obtain ⟨t, answer, job, _, quality, _⟩ := exec_tclkEdge_refused on waits steward
    exact ⟨t, answer, job, quality⟩
  · obtain ⟨t, answer, job, counter, _⟩ :=
      exec_tclkEdge_refused on waits (State.stepForce_none (s.atEdge_refusedHeld.trans none))
    exact ⟨t, answer, job, counter⟩
  · have bad : s.atEdge.setTimeOk = false := s.atEdge_setTimeInput.2.trans (decide_eq_false (by omega))
    obtain ⟨t, answer, job, counter, _⟩ := exec_tclkEdge_refused on waits (State.setTime_err bad)
    exact ⟨t, answer, job, counter⟩

end Sys2Proof.Machine
end

section
/-! Reports (R39–R48, R403–R409, R540): a record, a message, a gathered condition or a packet of a FIFO takes no interrupt bit back, and of the
registers it changes IRQ_PENDs, those of the event queues and the counters named. -/

namespace Sys2Proof.Machine

/-- From `s` to `t` no interrupt bit pending or held was taken back, and of the registers only IRQ_PENDs, those of the EVQ page and those of
`W` changed. -/
structure Reported (W : Nat → Prop) (s t : State) : Prop where
  raised : ∀ {page b}, s.Raised page b → t.Raised page b
  rd : ∀ {k}, k % 0x1000 ≠ 0x010 → k / 0x1000 ≠ 0x24 → ¬ W k → t.rd k = s.rd k

namespace Reported

variable {W : Nat → Prop} {s0 s t : State}

theorem refl (s : State) : Reported W s s := ⟨id, fun _ _ _ => rfl⟩

theorem trans (h : Reported W s0 s) (h' : Reported W s t) : Reported W s0 t :=
  ⟨fun r => h'.raised (h.raised r), fun irq evq w => (h'.rd irq evq w).trans (h.rd irq evq w)⟩

/-- An update of fields other than the registers and what FREEZE holds. -/
theorem same (h : Reported W s0 s) (regs : t.regs = s.regs) (held : t.heldIrq = s.heldIrq) : Reported W s0 t := by
  refine h.trans ⟨fun r => ?_, fun _ _ _ => State.rd_congr regs _⟩
  rwa [State.Raised, State.rd_congr regs, State.heldOf, held]

theorem ite {c : Prop} [Decidable c] (h : c → Reported W s0 s) (h' : ¬ c → Reported W s0 t) : Reported W s0 (if c then s else t) := by
  split
  · exact h ‹_›
  · exact h' ‹_›

theorem foldl {α : Type} {l : List α} {f : State → α → State} (h : Reported W s0 s) (step : ∀ {x} a, Reported W s0 x → Reported W s0 (f x a)) :
    Reported W s0 (l.foldl f s) := by
  induction l generalizing s with
  | nil => exact h
  | cons a l ih => exact ih (step a h)

/-- A register of the EVQ page or of `W` is written, and it is no IRQ_PEND. -/
theorem wr (h : Reported W s0 s) {k : Nat} (v : Word) (irq : k % 0x1000 ≠ 0x010) (listed : k / 0x1000 = 0x24 ∨ W k) :
    Reported W s0 (s.wr k v) := by
  refine h.trans ⟨fun {page b} r => ?_, fun _ evq w => State.rd_wr_ne s v ?_⟩
  · have other : Reg.irqPend page ≠ k := by
      unfold Reg.irqPend pageKey
      omega
    rwa [State.Raised, State.rd_wr_ne s v other]
  · rintro rfl
    exact listed.elim evq w

theorem raise (h : Reported W s0 s) (page b : Nat) : Reported W s0 (s.raise page b) := by
  refine h.trans ⟨fun {p c} r => ?_, fun {k} irq _ _ => State.raise_rd_ne s b ?_⟩
  · by_cases same : p = page
    · subst same
      cases hf : s.isFrozen p
      · exact r.imp (fun pend => by rw [State.raise_pend b hf, bit_or, pend, Bool.true_or])
          fun held => by rwa [State.heldOf, (s.raise_core p b).2, hf]
      · refine r.imp (fun pend => by rwa [State.raise_rd_of_frozen b _ hf]) fun held => ?_
        rw [State.raise_heldOf_of_frozen b hf, bit_or, held, Bool.true_or]
    · refine r.imp (fun pend => ?_) fun held => ?_
      · rwa [State.raise_rd_ne s b (by unfold Reg.irqPend pageKey; omega)]
      · rw [State.heldOf, (s.raise_core page b).2]
        split
        · rwa [Tab.get_set_ne same]
        · exact held
  · rintro rfl
    unfold Reg.irqPend pageKey at irq
    omega

/-! Records and event queues. -/

theorem msixSend (h : Reported W s0 s) (v : Nat) : Reported W s0 (s.msixSend v) :=
  h.same (State.msixSend_regs s v) (State.msixSend_held s v)

theorem evWrite (h : Reported W s0 s) (n addr : Nat) (ws : List Word) : Reported W s0 (s.evWrite n addr ws) := by
  obtain ⟨_, _, written⟩ := s.evWrite_only n addr ws
  rw [written]
  exact h.same rfl rfl

theorem evWritePi (h : Reported W s0 s) (n : Nat) : Reported W s0 (s.evWritePi n) := by
  obtain ⟨_, _, written, _⟩ := s.evWritePi_only n
  rw [written]
  exact h.same rfl rfl

theorem setEvQueue (h : Reported W s0 s) (n : Nat) (q : EvQueue) : Reported W s0 (s.setEvQueue n q) := h.same rfl rfl

theorem evAnnounce (h : Reported W s0 s) (n : Nat) : Reported W s0 (s.evAnnounce n) :=
  have announced := (h.evWritePi n).setEvQueue n _
  .ite (fun _ => announced.raise 0x24 n) fun _ => announced.msixSend _

theorem evStore (h : Reported W s0 s) (n : Nat) (r : Rec) : Reported W s0 (s.evStore n r) :=
  .setEvQueue (.ite (fun _ => (h.evWrite n _ _).evWrite n _ _) fun _ => h.evWrite n _ _) n _

theorem evModerate (h : Reported W s0 s) (n : Nat) : Reported W s0 (s.evModerate n) :=
  .ite (fun _ => h.evAnnounce n) fun _ => h

theorem numbered (h : Reported W s0 s) : Reported W s0 { s with recSeq := s.recSeq + 1 } := h.same rfl rfl

theorem evRecover (h : Reported W s0 s) (n : Nat) : Reported W s0 (s.evRecover n) := by
  unfold State.evRecover
  extract_lets q
  refine .ite (fun _ => ?_) fun _ => h
  exact ((h.numbered.setEvQueue n _).evStore n _).evModerate n

theorem bumpEvq (h : Reported W s0 s) {k : Nat} (page : k / 0x1000 = 0x24) (irq : k % 0x1000 ≠ 0x010) : Reported W s0 (s.bump k) :=
  h.wr _ irq (.inl page)

theorem evOffer (h : Reported W s0 s) {n : Nat} (hn : n < 16) (r : Rec) : Reported W s0 (s.evOffer n r) := by
  have place : Reg.evqCntDrop n / 0x1000 = 0x24 ∧ Reg.evqCntDrop n % 0x1000 ≠ 0x010 := by
    unfold Reg.evqCntDrop pageKey
    omega
  unfold State.evOffer
  extract_lets u q sq full dropped raised
  have recovered : Reported W s0 u := h.evRecover n
  refine .ite (fun _ => (recovered.setEvQueue n _).bumpEvq place.1 place.2) fun _ => .ite (fun _ => (recovered.evStore n r).evModerate n) fun _ => ?_
  have signalled : Reported W s0 raised := (((recovered.setEvQueue n _).bumpEvq place.1 place.2).evWritePi n).raise 0x24 (16 + n)
  exact .ite (fun _ => signalled) fun _ => signalled.msixSend _

theorem route (h : Reported W s0 s) (r : Rec) : Reported W s0 (s.route r) :=
  .ite (fun _ => h.evOffer (Nat.mod_lt _ (by decide)) r) fun _ => h.bumpEvq (by decide) (by decide)

theorem postAt (h : Reported W s0 s) (ty : Nat) (b : Block) (inst flags : Nat) (t : TimePoint) (q : Nat) (w4 w5 w6 w7 : Word) :
    Reported W s0 (s.postAt ty b inst flags t q w4 w5 w6 w7) := by
  unfold State.postAt State.postFull
  exact h.numbered.route _

theorem post (h : Reported W s0 s) (ty : Nat) (b : Block) (inst flags : Nat) (w4 w5 w6 w7 : Word) :
    Reported W s0 (s.post ty b inst flags w4 w5 w6 w7) := h.postAt ty b inst flags _ _ w4 w5 w6 w7

theorem postPageAt (h : Reported W s0 s) (ty page flags : Nat) (t : TimePoint) (q : Nat) (w4 w5 w6 w7 : Word) :
    Reported W s0 (s.postPageAt ty page flags t q w4 w5 w6 w7) := by
  unfold State.postPageAt
  split
  · exact h.postAt _ _ _ _ _ _ _ _ _ _
  · exact h

/-! Checks and gathered conditions. -/

theorem gatherPost (h : Reported W s0 s) (k : Nat) : Reported W s0 (s.gatherPost k) := by
  unfold State.gatherPost
  extract_lets -merge g closed
  have hclosed : Reported W s0 closed := h.same rfl rfl
  exact hclosed.postPageAt _ _ _ _ _ _ _ _ _

theorem gather (h : Reported W s0 s) (k : Nat) (g : Gather) : Reported W s0 (s.gather k g) := by
  unfold State.gather
  extract_lets -merge old next gathered
  have hgathered : Reported W s0 gathered := h.same rfl rfl
  exact .ite (fun _ => hgathered) fun _ => hgathered.gatherPost k

theorem powRecord (h : Reported W s0 s) (r : PowRec) : Reported W s0 (s.powRecord r) := by
  refine .ite (fun _ => ?_) fun _ => h.same rfl rfl
  unfold State.powEmit
  extract_lets -merge flags _ told raised
  have htold : Reported W s0 told := h.same rfl rfl
  have hraised : Reported W s0 raised := by
    unfold raised
    split
    · exact htold.raise _ _
    · exact htold
  exact hraised.postPageAt _ _ _ _ _ _ _ _ _

theorem qualRecord (h : Reported W s0 s) (ty page : Nat) (t : TimePoint) (q : Nat) (w4 w5 w6 w7 : Word) :
    Reported W s0 (s.qualRecord ty page t q w4 w5 w6 w7) :=
  .ite (fun _ => h.powRecord _) fun _ => h.postPageAt _ _ _ _ _ _ _ _ _

theorem setCheck (h : Reported W s0 s) (page check : Nat) (c : CheckSt) : Reported W s0 (s.setCheck page check c) := h.same rfl rfl

theorem qualPost (h : Reported W s0 s) (page check : Nat) : Reported W s0 (s.qualPost page check) :=
  (h.setCheck page check _).qualRecord _ _ _ _ _ _ _ _

/-- A failure of a check, from the state in which it is counted. -/
theorem qualFail {page check item : Nat} {value : Word} {counter : Nat} (h : Reported W s0 (s.bump counter)) :
    Reported W s0 (s.qualFail page check item value counter) := by
  unfold State.qualFail State.qualFailAt
  extract_lets counted c first c'
  have noted : Reported W s0 (counted.setCheck page check c') := h.setCheck page check c'
  exact .ite (fun _ => noted) fun _ => noted.qualPost page check

/-! Packets of a FIFO (R143–R154). -/

theorem fifoPost (h : Reported W s0 s) (id ty irq flags : Nat) (w5 : Word) : Reported W s0 (s.fifoPost id ty irq flags w5) :=
  .ite (fun _ => (h.raise _ _).post _ _ _ _ _ _ _ _) fun _ => h

theorem packetBad (h : Reported W s0 s) (id status bytes : Nat) (rewound : Bool) : Reported W s0 (s.packetBad id status bytes rewound) :=
  .ite (fun _ => (h.raise _ _).gather _ _) fun _ => h

theorem setFifo (h : Reported W s0 s) (id : Nat) (f : FifoSt → FifoSt) : Reported W s0 (s.setFifo id f) := h.same rfl rfl

theorem sramSet (h : Reported W s0 s) (k : Nat) (w : Word) : Reported W s0 (s.sramSet k w) := h.same rfl rfl

end Reported

/-- A counter of FIFO `id`. -/
def CountsFifo (id k : Nat) : Prop := ∃ x, fifoCounter id x = some k

/-- The counters of FIFOs lie from offset 0x0A0 of a page to 0x0C4. -/
theorem CountsFifo.offset {id k : Nat} (h : CountsFifo id k) : 0x0A0 ≤ k % 0x1000 ∧ k % 0x1000 ≤ 0x0C4 := by
  obtain ⟨x, counter⟩ := h
  unfold fifoCounter at counter
  split at counter
  · obtain rfl := Option.some.inj counter
    cases fifoIsTx id <;> cases x <;> simp
  · split at counter
    · obtain rfl := Option.some.inj counter
      simp
    · contradiction

namespace Reported

variable {s0 s : State} {id : Nat}

theorem fifoBump (h : Reported (CountsFifo id) s0 s) (x : FifoCnt) (n : Nat) : Reported (CountsFifo id) s0 (s.fifoBump id x n) := by
  unfold State.fifoBump
  split
  · next k counter =>
    have irq : k % 0x1000 ≠ 0x010 := by
      have := CountsFifo.offset ⟨x, counter⟩
      omega
    exact h.wr _ irq (.inr ⟨x, counter⟩)
  · exact h

theorem fifoRewind (h : Reported (CountsFifo id) s0 s) (status : Nat) : Reported (CountsFifo id) s0 (s.fifoRewind id status) :=
  ((h.setFifo id _).fifoBump .rewind 1).packetBad id _ _ _

theorem rxTrailer (h : Reported (CountsFifo id) s0 s) (bad : Bool) (status : Nat) : Reported (CountsFifo id) s0 (s.rxTrailer id bad status) := by
  unfold State.rxTrailer
  split
  · exact (h.sramSet _ _).setFifo id _
  · exact h

theorem rxEndBad (h : Reported (CountsFifo id) s0 s) (status : Nat) : Reported (CountsFifo id) s0 (s.rxEndBad id status) :=
  ((h.rxTrailer true status).fifoBump .bad 1).packetBad id _ _ _

theorem rxFailPacket (h : Reported (CountsFifo id) s0 s) (status : Nat) : Reported (CountsFifo id) s0 (s.rxFailPacket id status) := by
  unfold State.rxFailPacket
  split
  · exact .ite (fun _ => h.rxEndBad status) fun _ => h.fifoRewind status
  · exact h

theorem rxOverrun (h : Reported (CountsFifo id) s0 s) : Reported (CountsFifo id) s0 (s.rxOverrun id) :=
  have posted := ((h.setFifo id _).fifoBump .overrun 1).fifoPost id _ _ _ _
  .ite (fun _ => posted.rxFailPacket _) fun _ => (posted.fifoBump .rewind 1).packetBad id _ _ _

theorem rxBegin (h : Reported (CountsFifo id) s0 s) : Reported (CountsFifo id) s0 (s.rxBegin id) :=
  .ite (fun _ => h.rxOverrun) fun _ => (h.setFifo id _).sramSet _ _

theorem rxWord (h : Reported (CountsFifo id) s0 s) (w : Word) (n : Nat) : Reported (CountsFifo id) s0 (s.rxWord id w n) := by
  unfold State.rxWord
  split
  · exact h
  · refine .ite (fun _ => h) fun _ => .ite (fun _ => h.rxOverrun) fun _ => ?_
    extract_lets stored grown cut
    have hgrown : Reported (CountsFifo id) s0 grown := (h.sramSet _ _).setFifo id _
    exact .ite (fun _ => hgrown.raise _ _) fun _ => hgrown

theorem rxCommit (h : Reported (CountsFifo id) s0 s) : Reported (CountsFifo id) s0 (s.rxCommit id) := by
  unfold State.rxCommit
  refine .ite (fun _ => h.setFifo id _) fun _ => ?_
  split
  · exact h
  · extract_lets headed ended
    have hheaded : Reported (CountsFifo id) s0 headed := .ite (fun _ => h) fun _ => h.sramSet _ _
    have hended : Reported (CountsFifo id) s0 ended := hheaded.rxTrailer false 0
    exact .ite (fun _ => hended.raise _ _) fun _ => hended

theorem rxFail (h : Reported (CountsFifo id) s0 s) (status : Nat) : Reported (CountsFifo id) s0 (s.rxFail id status) :=
  .ite (fun _ => h.setFifo id _) fun _ => h.rxFailPacket status

theorem rxPacket (h : Reported (CountsFifo id) s0 s) (b : List Byte) (status : Nat) : Reported (CountsFifo id) s0 (s.rxPacket id b status) :=
  have written : Reported (CountsFifo id) s0 ((s.rxBegin id).rxBytes id b) := .foldl h.rxBegin fun e hx => hx.rxWord e.1 e.2
  .ite (fun _ => written.rxCommit) fun _ => written.rxFail status

end Reported

end Sys2Proof.Machine
end

section
/-! The grandmaster's selection (R69): what it reads, and what the best dataset makes of the master that is followed, CUR_GM and GM_INFO. -/

namespace Sys2Proof.Machine

/-- The datasets that the selection compares. -/
def State.candidates (s : State) : List PtpMaster :=
  s.ptp.masters.filter s.masterQualified ++ if s.flag Reg.ptpCfg 0 then [s.ownMaster] else []

/-- CUR_GM. -/
def State.curGm (s : State) : Nat := (s.rd Reg.ptpCurGmHi).toNat * 2 ^ 32 + (s.rd Reg.ptpCurGmLo).toNat

/-- The parent that follows from the best dataset: none for a node that follows no other clock. -/
def State.parentOf (s : State) (b : PtpMaster) : Option (Nat × Nat) := if s.ptpFollows b then some (b.source, b.port) else none

/-- The parent becomes `parent`; a new one starts with no Sync and no Announce missed. -/
def State.adopt (s : State) (parent : Option (Nat × Nat)) : State :=
  if parent = s.ptp.parent then s
  else s.setPtp fun p => { p with
    parent, lost := false, annTimeouts := 0, heardSync := s.tclks, heardAnn := s.tclks, inRow := 0, twoStep := none }

/-- The registers in which the PTP page shows the best dataset `b`. -/
def State.showMaster (s : State) (b : PtpMaster) : State :=
  (((s.wr Reg.ptpCurGmHi (w32 (b.gm / 2 ^ 32))).wr Reg.ptpCurGmLo (w32 b.gm)).wr Reg.ptpGmInfo
    (w32 (at_ 16 b.prio1 + at_ 8 b.accuracy + b.cls))).wr Reg.ptpUtc b.utc

/-- GM_CHANGE, where CUR_GM was `old` and is another one. -/
def State.noteMaster (s : State) (old : Nat) (b : PtpMaster) : State :=
  if old = b.gm then s
  else (s.raise 0x11 0).post 0x13 .ptp 0 0 (w32 (b.gm / 2 ^ 32)) (w32 b.gm) (w32 b.cls) (w32 (at_ 16 (old % 65536)))

theorem State.ptpSelect_of_best {s : State} {b : PtpMaster} (best : bestMaster s.candidates = some b) :
    s.ptpSelect = ((s.adopt (s.parentOf b)).showMaster b).noteMaster s.curGm b := by
  unfold State.ptpSelect
  extract_lets all
  have same : bestMaster all = some b := best
  rw [same]
  rfl

theorem State.ptpSelect_of_none {s : State} (best : bestMaster s.candidates = none) :
    s.ptpSelect = s.setPtp fun p => { p with parent := none } := by
  unfold State.ptpSelect
  extract_lets all
  have same : bestMaster all = none := best
  rw [same]

/-- GM_CHANGE is a report. -/
theorem State.noteMaster_touches (s : State) (old : Nat) (b : PtpMaster) :
    Frame (fun p => p ∈ Part.reports) s (s.noteMaster old b) := by
  unfold State.noteMaster
  split
  · exact Frame.refl _ s
  · exact (s.raise_touches 0x11 0).trans ((s.raise 0x11 0).post_touches _ _ _ _ _ _ _ _)

theorem State.noteMaster_reported (s : State) (W : Nat → Prop) (old : Nat) (b : PtpMaster) : Reported W s (s.noteMaster old b) :=
  .ite (fun _ => .refl s) fun _ => ((Reported.refl s).raise 0x11 0).post _ _ _ _ _ _ _ _

/-- A new grandmaster raises its bit. -/
theorem State.noteMaster_raised (s : State) {old : Nat} {b : PtpMaster} (changed : old ≠ b.gm) : (s.noteMaster old b).Raised 0x11 0 := by
  unfold State.noteMaster
  rw [if_neg changed]
  exact ((Reported.refl (W := fun _ => False) (s.raise 0x11 0)).post _ _ _ _ _ _ _ _).raised (s.raise_raised 0x11 (by decide))

/-- The registers that show the best dataset. -/
def ShowsMaster (k : Nat) : Prop := k = Reg.ptpCurGmHi ∨ k = Reg.ptpCurGmLo ∨ k = Reg.ptpGmInfo ∨ k = Reg.ptpUtc

theorem Reported.showMaster {s0 s : State} (h : Reported ShowsMaster s0 s) (b : PtpMaster) : Reported ShowsMaster s0 (s.showMaster b) :=
  (((h.wr _ (by decide) (.inr (.inl rfl))).wr _ (by decide) (.inr (.inr (.inl rfl)))).wr _ (by decide)
    (.inr (.inr (.inr (.inl rfl))))).wr _ (by decide) (.inr (.inr (.inr (.inr rfl))))

theorem State.adopt_reported (s : State) (W : Nat → Prop) (parent : Option (Nat × Nat)) : Reported W s (s.adopt parent) :=
  .ite (fun _ => .refl s) fun _ => (Reported.refl s).same rfl rfl

theorem State.ptpSelect_reported (s : State) : Reported ShowsMaster s s.ptpSelect := by
  cases best : bestMaster s.candidates with
  | none =>
    rw [State.ptpSelect_of_none best]
    exact (Reported.refl s).same rfl rfl
  | some b =>
    rw [State.ptpSelect_of_best best]
    exact ((s.adopt_reported _ _).showMaster b).trans (State.noteMaster_reported _ _ _ _)

theorem State.ptpSelect_touches (s : State) : Frame (fun p => p ∈ Part.reports ++ [.ptp, .regPtp]) s s.ptpSelect :=
  State.ptpSelect_frame (Frame.refl _ s) (.of_coveredBy rfl)

theorem State.ptpSelect_net (s : State) : s.ptpSelect.net = s.net := s.ptpSelect_touches.net (by decide)

theorem State.adopt_parent (s : State) (parent : Option (Nat × Nat)) : (s.adopt parent).ptp.parent = parent := by
  unfold State.adopt
  split
  · exact Eq.symm ‹_›
  · rfl

theorem State.adopt_masters (s : State) (parent : Option (Nat × Nat)) : (s.adopt parent).ptp.masters = s.ptp.masters := by
  unfold State.adopt
  split <;> rfl

theorem State.ptpSelect_ptp {s : State} {b : PtpMaster} (best : bestMaster s.candidates = some b) :
    s.ptpSelect.ptp = (s.adopt (s.parentOf b)).ptp := by
  rw [State.ptpSelect_of_best best]
  exact (State.noteMaster_touches _ _ b).ptp (by decide)

theorem State.ptpSelect_masters (s : State) : s.ptpSelect.ptp.masters = s.ptp.masters := by
  cases best : bestMaster s.candidates with
  | none => rw [State.ptpSelect_of_none best]; rfl
  | some b => rw [State.ptpSelect_ptp best, State.adopt_masters]

/-- What the selection shows of the best dataset. -/
theorem State.ptpSelect_shows {s : State} {b : PtpMaster} (best : bestMaster s.candidates = some b) :
    s.ptpSelect.ptp.parent = s.parentOf b ∧ s.ptpSelect.rd Reg.ptpCurGmHi = w32 (b.gm / 2 ^ 32) ∧
      s.ptpSelect.rd Reg.ptpCurGmLo = w32 b.gm ∧ s.ptpSelect.rd Reg.ptpGmInfo = w32 (at_ 16 b.prio1 + at_ 8 b.accuracy + b.cls) ∧
      (s.curGm ≠ b.gm → s.ptpSelect.Raised 0x11 0) := by
  refine ⟨by rw [State.ptpSelect_ptp best, State.adopt_parent], ?_⟩
  rw [State.ptpSelect_of_best best]
  have noted := ((s.adopt (s.parentOf b)).showMaster b).noteMaster_reported (fun _ => False) s.curGm b
  refine ⟨?_, ?_, ?_, State.noteMaster_raised _⟩
  all_goals rw [noted.rd (by decide) (by decide) id]; unfold State.showMaster
  · rw [State.rd_wr_ne _ _ (by decide), State.rd_wr_ne _ _ (by decide), State.rd_wr_ne _ _ (by decide), State.rd_wr_same]
  · rw [State.rd_wr_ne _ _ (by decide), State.rd_wr_ne _ _ (by decide), State.rd_wr_same]
  · rw [State.rd_wr_ne _ _ (by decide), State.rd_wr_same]

/-! What the selection reads. -/

/-- `t` has of what the selection reads the registers and the quality code that `s` has. -/
structure SameOwn (s t : State) : Prop where
  cfg : t.rd Reg.ptpCfg = s.rd Reg.ptpCfg
  prio : t.rd Reg.ptpPrio = s.rd Reg.ptpPrio
  utc : t.rd Reg.ptpUtc = s.rd Reg.ptpUtc
  quality : t.time.quality = s.time.quality

theorem SameOwn.ownClass {s t : State} (h : SameOwn s t) : t.ownClass = s.ownClass := by
  unfold State.ownClass State.flag State.timeState
  rw [h.cfg, h.quality]

theorem SameOwn.ownMaster {s t : State} (h : SameOwn s t) : t.ownMaster = s.ownMaster := by
  unfold State.ownMaster State.fld
  rw [h.prio, h.utc, h.ownClass]
  rfl

theorem SameOwn.parentOf {s t : State} (h : SameOwn s t) (b : PtpMaster) : t.parentOf b = s.parentOf b := by
  unfold State.parentOf State.ptpFollows
  rw [h.ownClass]
  rfl

/-! The messages that wait. -/

/-- A message is taken from those that wait. -/
abbrev State.without (s : State) (d : Delivered) : State := s.setNet fun n => { n with toTime := n.toTime.erase d }

theorem State.ptpTake_of_next {s : State} {p : Nat → Bool} {d : Delivered} (h : s.NextPtp p d) :
    (s.ptpTake fun d => p (ptpType (ptpBytes d.bytes))) = (some d, s.without d) := by
  obtain ⟨found, role⟩ := h
  unfold State.ptpTake
  rw [found]
  exact congrArg (·, _) (if_neg role)

/-- A message that fails qualification is counted. -/
theorem State.ptpBad_effect (s : State) : s.ptpBad.rd Reg.ptpCntBad = satInc (s.rd Reg.ptpCntBad) ∧ s.ptpBad.Raised 0x11 2 ∧
    s.ptpBad.ptp = s.ptp := by
  refine ⟨?_, State.raise_raised _ _ (by decide), ((s.bump Reg.ptpCntBad).raise_touches 0x11 2).ptp (by decide)⟩
  rw [State.ptpBad, State.raise_rd_ne _ _ (by decide), State.rd_bump_same]

theorem State.ptpBad_net (s : State) : s.ptpBad.net = s.net := ((s.bump Reg.ptpCntBad).raise_touches 0x11 2).net (by decide)

/-! Announce (R69). -/

/-- A good Announce `m` of another clock by port `port` is counted, and its dataset takes the place of its sender's. -/
def State.announceHeard (s : State) (m : List Byte) (port : Nat) : State :=
  let mine := s.ptp.parent.any fun x => decide (x.1 = ptpSource m)
  let old := ((s.ptp.masters.find? fun x => decide (x.source = ptpSource m)).map fun x => x.heard).getD []
  let heard := s.tclks :: old.filter fun t => !s.passed t (msTclks 4000)
  (s.bump Reg.ptpCntAnnounce).setPtp fun p => { p with
    masters := (p.masters.filter fun x => decide (x.source ≠ ptpSource m)) ++ [announced m port heard],
    annTimeouts := if mine then 0 else p.annTimeouts, heardAnn := if mine then s.tclks else p.heardAnn }

theorem State.announceHeard_sameOwn (s : State) (m : List Byte) (port : Nat) : SameOwn s (s.announceHeard m port) := by
  refine ⟨?_, ?_, ?_, rfl⟩
  · exact State.rd_bump_ne s (by decide)
  · exact State.rd_bump_ne s (by decide)
  · exact State.rd_bump_ne s (by decide)

theorem State.announceHeard_candidates (s : State) (m : List Byte) (port : Nat) :
    (s.announceHeard m port).candidates =
      (s.announceHeard m port).ptp.masters.filter s.masterQualified ++ if s.flag Reg.ptpCfg 0 then [s.ownMaster] else [] := by
  have own := s.announceHeard_sameOwn m port
  rw [State.candidates, own.ownMaster, State.flag, own.cfg, State.flag]
  rfl

theorem exec_announceReceive {s : State} {d : Delivered} (h : s.NextPtp (fun ty => decide (ty = 0xB)) d) :
    exec .announceReceive s = .next
      (let u := s.without d
       if !s.ptpGood (ptpBytes d.bytes) then u.ptpBad
       else if ptpSource (ptpBytes d.bytes) = s.clockId then u
       else (u.announceHeard (ptpBytes d.bytes) d.port).ptpSelect) := by
  show execAnnounceReceive s = _
  unfold execAnnounceReceive
  rw [State.ptpTake_of_next h]
  rfl

/-- The message that an ANNOUNCE_RECEIVE takes, good, and of another clock. -/
theorem State.announce_selects (s : State) (m : List Byte) (port : Nat) :
    let t := (s.announceHeard m port).ptpSelect
    t.rd Reg.ptpCntAnnounce = satInc (s.rd Reg.ptpCntAnnounce) ∧ t.ptp.masters = (s.announceHeard m port).ptp.masters ∧
      ∀ b, bestMaster (t.ptp.masters.filter s.masterQualified ++ if s.flag Reg.ptpCfg 0 then [s.ownMaster] else []) = some b →
        t.ptp.parent = s.parentOf b ∧ t.rd Reg.ptpCurGmHi = w32 (b.gm / 2 ^ 32) ∧ t.rd Reg.ptpCurGmLo = w32 b.gm ∧
          t.rd Reg.ptpGmInfo = w32 (at_ 16 b.prio1 + at_ 8 b.accuracy + b.cls) ∧ (s.curGm ≠ b.gm → t.Raised 0x11 0) := by
  intro t
  have counted : (s.announceHeard m port).rd Reg.ptpCntAnnounce = satInc (s.rd Reg.ptpCntAnnounce) := s.rd_bump_same _
  have masters : t.ptp.masters = (s.announceHeard m port).ptp.masters := State.ptpSelect_masters _
  refine ⟨?_, masters, fun b best => ?_⟩
  · rw [← counted]
    exact (State.ptpSelect_reported _).rd (by decide) (by decide) (by unfold ShowsMaster; decide)
  · rw [masters, ← State.announceHeard_candidates] at best
    have shown := State.ptpSelect_shows best
    have gm : (s.announceHeard m port).curGm = s.curGm := by
      unfold State.curGm State.announceHeard
      exact congrArg₂ (fun hi lo : Word => hi.toNat * 2 ^ 32 + lo.toNat) (s.rd_bump_ne (by decide)) (s.rd_bump_ne (by decide))
    rwa [(s.announceHeard_sameOwn m port).parentOf, gm] at shown

/-! Peer delays (R67). -/

/-- What a message sent by a port changes. -/
def Part.sent : List Part := Part.reports ++ [.net, .regBuf, .regFp, .regSwc]

theorem State.ptpLinkLocal_touches (s : State) (p : Nat) (body : List Byte) : Frame (fun x => x ∈ Part.sent) s (s.ptpLinkLocal p body) :=
  State.ptpLinkLocal_frame (Frame.refl _ s) p body (.of_coveredBy rfl)

theorem State.ptpHeader_congr {s t : State} (cfg : t.rd Reg.ptpCfg = s.rd Reg.ptpCfg) (ty p seq log flags : Nat) :
    t.ptpHeader ty p seq log flags = s.ptpHeader ty p seq log flags := by
  unfold State.ptpHeader State.fld
  rw [cfg]
  rfl

theorem State.ptpNow_congr {s t : State} (time : t.time = s.time) : t.ptpNow = s.ptpNow := by
  unfold State.ptpNow State.now
  rw [time]

/-- The answers to a Pdelay_Req `m` received at `rx` by port `p`. -/
def State.pdelayAnswer (s : State) (p : Nat) (m : List Byte) (rx : TimePoint) : State :=
  (s.ptpLinkLocal p (s.ptpHeader 3 p (ptpSeq m) 0x7F 0x0200 ++ ptpTime rx (s.time.sec.toNat / 2 ^ 32) ++ (m.drop 20).take 10)).ptpLinkLocal p
    (s.ptpHeader 0xA p (ptpSeq m) 0x7F 0 ++ s.ptpNow ++ (m.drop 20).take 10)

theorem exec_pdelayReqReceive {s : State} {d : Delivered} (h : s.NextPtp (fun ty => decide (ty = 2)) d) :
    exec .pdelayReqReceive s = .next
      (if !s.ptpGood (ptpBytes d.bytes) then (s.without d).ptpBad
       else (s.without d).pdelayAnswer d.port (ptpBytes d.bytes) d.time) := by
  show execPdelayReqReceive s = _
  unfold execPdelayReqReceive
  rw [State.ptpTake_of_next h]
  have good : (s.without d).ptpGood (ptpBytes d.bytes) = s.ptpGood (ptpBytes d.bytes) := rfl
  dsimp only
  rw [good]
  generalize s.without d = u
  have sent (body : List Byte) := u.ptpLinkLocal_touches d.port body
  have header (body : List Byte) := State.ptpHeader_congr ((sent body).samePages rfl |>.rd (k := Reg.ptpCfg) (by decide))
  have now (body : List Byte) := State.ptpNow_congr ((sent body).time (by decide))
  simp only [header, now, State.pdelayAnswer]

/-- The responses that wait at a port. -/
def isResponse (port : Nat) (d : Delivered) : Bool :=
  decide (d.port = port) && (decide (ptpType (ptpBytes d.bytes) = 3) || decide (ptpType (ptpBytes d.bytes) = 0xA))

/-- One response that waits at a port is taken. -/
theorem exec_pdelayRespReceive {s : State} {port : Fin 4} (k : Nat) {d : Delivered} (role : s.ptpRole port ≠ 0)
    (one : s.net.toTime.filter (isResponse port) = [d]) :
    exec (.pdelayRespReceive port (k + 1)) s = .next ((s.without d).pdelayTake port d) := by
  show execPdelayRespReceive port (k + 1) s = _
  have mine : (s.net.toTime.filter (isResponse port)).take (k + 1) = [d] := by rw [one, List.take_succ_cons, List.take_nil]
  unfold execPdelayRespReceive
  extract_lets p resp mine' u
  have same : mine' = [d] := mine
  have erased : u = s.without d := by
    unfold u
    rw [same]
    rfl
  rw [erased, same]
  exact congrArg Host.Outcome.next (if_neg role)

theorem setHas_setDel (l : List Nat) (k : Nat) : setHas (setDel l k) k = false := by
  induction l with
  | nil => rfl
  | cons j l ih =>
    unfold setDel
    split
    · exact ih
    · next other => simp [setHas, ih, other]

/-- An exchange is complete. -/
theorem State.pdelayDone_measured (s : State) (port : Fin 4) (x : Int) : s.Measured (s.pdelayDone port x) port x := by
  unfold State.Measured
  intro l
  have delays : (s.pdelayDone port x).ptp.delays = Tab.set [] s.ptp.delays port l := rfl
  have resps : (s.pdelayDone port x).ptp.resps = Tab.set none s.ptp.resps port none := rfl
  exact ⟨setHas_setDel _ _, by rw [resps, Tab.get_set_same], by rw [delays, Tab.get_set_same], State.rd_wr_same _ _ _⟩


/-- A good answer to the outstanding request of a port. -/
theorem State.pdelayTake_answer {s : State} {p : Fin 4} {d : Delivered} (good : s.ptpGood (ptpBytes d.bytes) = true)
    (mine : setHas s.ptp.asked p = true ∧ ptpSeq (ptpBytes d.bytes) = s.ptp.pdelaySeq.toNat ∧
      beAt (ptpBytes d.bytes) 44 8 = s.clockId ∧ beAt (ptpBytes d.bytes) 52 2 = p + 1) :
    s.pdelayTake p d =
      (let m := ptpBytes d.bytes
       let t1 := Tab.get ⟨0, 0⟩ s.ptp.txReq p
       if ptpType m = 3 then
         if ptpTwoStep m then
           s.setPtp fun x => { x with resps := Tab.set none x.resps p (some ⟨ptpSeq m, ptpStamp m, d.time, ptpCorrection m⟩) }
         else s.pdelayDone p (timeDiff d.time t1 * 65536 - ptpCorrection m)
       else (Tab.get none s.ptp.resps p).elim s fun r =>
         s.pdelayDone p ((timeDiff r.t4 t1 - timeDiff (ptpStamp m) r.t2) * 65536 - r.cf - ptpCorrection m)) := by
  obtain ⟨asked, seq, clock, port⟩ := mine
  unfold State.pdelayTake
  extract_lets m t1
  rw [if_neg (by simp [m, good]), if_neg (by simp [m, asked, seq, clock, port])]
  cases Tab.get none s.ptp.resps p <;> rfl

theorem State.pdelayTake_bad {s : State} {p : Fin 4} {d : Delivered} (bad : s.ptpGood (ptpBytes d.bytes) = false) :
    s.pdelayTake p d = s.ptpBad := by
  simp [State.pdelayTake, bad]

/-- Settles O24: the candidates that the selection compares are those of the state before the message, with its sender's dataset replaced; an
answer of a port is a case of `pdelayTake`. -/
theorem announcesSelectAndDelaysAreMeasured : Obligations.AnnouncesSelectAndDelaysAreMeasured := by
  unfold Obligations.AnnouncesSelectAndDelaysAreMeasured
  refine ⟨fun s d next => ?_, fun s d next => ?_, fun s port k d role one => ?_⟩
  · intro m
    refine ⟨_, exec_announceReceive next, ?_, fun good other => ?_, fun good own => ?_, fun bad => ?_⟩
    · dsimp only
      split
      · exact congrArg NetSt.toTime (s.without d).ptpBad_net
      · split
        · rfl
        · exact congrArg NetSt.toTime (State.ptpSelect_net _)
    · rw [if_neg (by simpa using good), if_neg other]
      exact (s.without d).announce_selects m d.port
    · rw [if_neg (by simpa using good), if_pos own]
      exact ⟨rfl, fun _ => rfl⟩
    · rw [if_pos (by simpa using bad)]
      exact (s.without d).ptpBad_effect
  · intro m u
    refine ⟨fun good => ⟨_, exec_pdelayReqReceive next, ?_⟩, fun bad => ⟨_, exec_pdelayReqReceive next, ?_⟩⟩
    · exact if_neg (by simpa using good)
    · rw [if_pos (by simpa using bad)]
      obtain ⟨counted, raised, _⟩ := (s.without d).ptpBad_effect
      exact ⟨congrArg NetSt.toTime (s.without d).ptpBad_net, counted, raised⟩
  · intro m t1 mine
    have taken := exec_pdelayRespReceive k role one
    refine ⟨fun good answer ty oneStep => ⟨_, taken, ?_⟩, fun good answer ty twoStep => ⟨_, taken, ?_⟩,
      fun r good answer ty waits => ⟨_, taken, ?_⟩, fun bad => ⟨_, taken, ?_⟩⟩
    · rw [State.pdelayTake_answer (s := s.without d) good answer, if_pos ty, if_neg (by simpa using oneStep)]
      exact (s.without d).pdelayDone_measured port _
    · rw [State.pdelayTake_answer (s := s.without d) good answer, if_pos ty, if_pos twoStep]
      refine ⟨answer.1, ?_⟩
      have resps (r : PdelayResp) : ((s.without d).setPtp fun x => { x with resps := Tab.set none x.resps port (some r) }).ptp.resps =
          Tab.set none s.ptp.resps port (some r) := rfl
      rw [resps, Tab.get_set_same]
    · have other : ptpType m ≠ 3 := by rw [ty]; decide
      have held : Tab.get none (s.without d).ptp.resps port = some r := waits
      rw [State.pdelayTake_answer (s := s.without d) good answer, if_neg other, held]
      exact (s.without d).pdelayDone_measured port _
    · rw [State.pdelayTake_bad (s := s.without d) bad]
      obtain ⟨counted, raised, _⟩ := (s.without d).ptpBad_effect
      exact ⟨counted, raised⟩

end Sys2Proof.Machine
end

section
/-! What the PTP page sends (R67–R70): a message goes to the queues of its ports; the links, the ring mode and what the page keeps of its
own sending stand. -/

namespace Sys2Proof.Machine

/-! A frame sent changes no link (R227, R282–R297). -/

/-- `t` has the links of the ports that `s` has. -/
abbrev SameLinks (s t : State) : Prop := t.net.links = s.net.links

namespace SameLinks

variable {s0 s : State}

theorem reports {t : State} (h : SameLinks s0 s) (touched : Frame (fun p => p ∈ Part.reports) s t) : SameLinks s0 t := by
  rw [SameLinks, touched.net (by decide)]
  exact h

theorem raise_post (h : SameLinks s0 s) (page b ty : Nat) (blk : Block) (inst flags : Nat) (t : TimePoint) (q : Nat)
    (w4 w5 w6 w7 : Word) : SameLinks s0 ((s.raise page b).postAt ty blk inst flags t q w4 w5 w6 w7) :=
  h.reports ((s.raise_touches page b).trans (State.postAt_touches _ _ _ _ _ _ _ _ _ _ _))

theorem bump (h : SameLinks s0 s) (k : Nat) : SameLinks s0 (s.bump k) := h

theorem setQueue (h : SameLinks s0 s) (port cls : Nat) (q : List QFrame) : SameLinks s0 (s.setQueue port cls q) := h

theorem spillCheck (h : SameLinks s0 s) : SameLinks s0 s.spillCheck := by
  unfold State.spillCheck
  extract_lets mark spills stops
  have hspills : SameLinks s0 spills := h
  have hstops : SameLinks s0 stops := h
  split
  · split
    · exact hspills.raise_post _ _ _ _ _ _ _ _ _ _ _ _
    · exact h
  · split
    · exact hstops.raise_post _ _ _ _ _ _ _ _ _ _ _ _
    · exact h

theorem pushPost (h : SameLinks s0 s) (port : Nat) : SameLinks s0 (s.pushPost port) := by
  unfold State.pushPost
  extract_lets p u
  have hu : SameLinks s0 u := h
  exact hu.raise_post _ _ _ _ _ _ _ _ _ _ _ _

theorem notePush (h : SameLinks s0 s) (port evicted dropped lastOut lastIn : Nat) :
    SameLinks s0 (s.notePush port evicted dropped lastOut lastIn) := by
  unfold State.notePush
  split
  · exact h
  · extract_lets -merge old first noted u
    have hu : SameLinks s0 u := h
    split
    · exact hu
    · exact hu.pushPost port

theorem evictOne (h : SameLinks s0 s) {port lim c : Nat} {t : State} (e : s.evictOne port lim = some (c, t)) : SameLinks s0 t := by
  unfold State.evictOne at e
  obtain ⟨c, -, evicted⟩ := Option.map_eq_some_iff.mp e
  obtain ⟨-, rfl⟩ := Prod.mk.inj evicted
  exact (h.setQueue _ _ _).bump _

theorem evictWhile (h : SameLinks s0 s) (port lim : Nat) (more : State → Bool) (n : Nat) :
    SameLinks s0 (s.evictWhile port lim more n).2.2 := by
  induction n generalizing s with
  | zero => exact h
  | succ n ih =>
    unfold State.evictWhile
    split
    · split
      · exact h
      · exact ih (h.evictOne ‹_›)
    · exact h

theorem pushForShare (h : SameLinks s0 s) (port cls k : Nat) : SameLinks s0 (s.pushForShare port cls k).2 := by
  unfold State.pushForShare
  extract_lets tooFull
  split
  · exact h
  · split
    · exact (h.evictWhile _ _ _ _).notePush _ _ _ _ _
    · exact h

theorem pushForCells (h : SameLinks s0 s) (port cls k : Nat) : SameLinks s0 (s.pushForCells port cls k) := by
  unfold State.pushForCells
  split
  · exact h
  · refine List.foldlRecOn _ _ h fun u hu p _ => ?_
    exact (hu.evictWhile _ _ _ _).notePush _ _ _ _ _

theorem dropFrame (h : SameLinks s0 s) (port cls counter : Nat) : SameLinks s0 (s.dropFrame port cls counter) :=
  (h.bump counter).notePush _ _ _ _ _

theorem enqueue (h : SameLinks s0 s) (port : Nat) (f : QFrame) : SameLinks s0 (s.enqueue port f) := (h.setQueue _ _ _).spillCheck

theorem takeFrame (h : SameLinks s0 s) (port : Nat) (f : QFrame) : SameLinks s0 (s.takeFrame port f) := by
  unfold State.takeFrame State.admitAs
  extract_lets g
  split
  · exact h.bump _
  · split
    · exact h.dropFrame _ _ _
    · have shared := h.pushForShare port g.cls g.cells
      generalize s.pushForShare port g.cls g.cells = pushed at shared
      obtain ⟨room, u⟩ := pushed
      dsimp only at shared ⊢
      split
      · exact shared.dropFrame _ _ _
      · have freed : SameLinks s0 (if u.freeCells < g.cells then u.pushForCells port g.cls g.cells else u) := by
          split
          · exact shared.pushForCells _ _ _
          · exact shared
        generalize (if u.freeCells < g.cells then u.pushForCells port g.cls g.cells else u) = v at freed ⊢
        split
        · exact freed.dropFrame _ _ _
        · exact freed.enqueue _ _

theorem takeSeq (h : SameLinks s0 s) (cls : Nat) : SameLinks s0 (s.takeSeq cls).2 := h

theorem mirCopy (h : SameLinks s0 s) (i : Nat) (f : QFrame) : SameLinks s0 (s.mirCopy i f).2 := by
  unfold State.mirCopy
  extract_lets d put side u
  have counted : SameLinks s0 u := by
    unfold u
    split
    · exact h.bump _
    · exact h
  split
  · split
    · exact h
    · exact counted.takeSeq 0
  · exact h

theorem mirrorIn (h : SameLinks s0 s) (type ingress : Nat) (f : QFrame) : SameLinks s0 (s.mirrorIn type ingress f) := by
  unfold State.mirrorIn State.mirror
  split
  · exact h
  · refine List.foldlRecOn _ _ h fun u hu i _ => ?_
    split
    · exact hu.mirCopy i f
    · exact hu

theorem sendLinkLocal (h : SameLinks s0 s) (port type : Nat) (body : List Byte) : SameLinks s0 (s.sendLinkLocal port type body) := by
  unfold State.sendLinkLocal
  extract_lets side src f
  split
  · exact h
  · exact (h.mirrorIn _ _ _).takeFrame _ _

theorem ptpLinkLocal (h : SameLinks s0 s) (p : Nat) (body : List Byte) : SameLinks s0 (s.ptpLinkLocal p body) := by
  unfold State.ptpLinkLocal State.ptpRaw
  split
  · exact h.sendLinkLocal p 6 body
  · exact (h.mirrorIn _ _ _).takeFrame _ _

end SameLinks

/-- RING_CFG is in no group of registers that a frame sent changes. -/
theorem Part.sent_away {p : Part} (hp : decide (p ∈ Part.sent) = true) : ∀ f, f ∈ p.banks → Away (· = Reg.ringCfg) f := by
  cases p <;> (try cases hp)
  all_goals
    delta Part.banks
    simp only [List.forall_mem_cons, List.not_mem_nil, false_implies, implies_true, and_true]
  all_goals
    and_intros
    all_goals first
      | refine Away.one ?_ | refine Away.all fun i => ?_ | refine Away.below fun i hi => ?_
    all_goals first
      | (show ¬ _ * 0x1000 + _ = 0x2E05C; omega)
      | (show ¬ _ + _ * 0x1000000 + _ = 0x2E05C; omega)

theorem State.ptpLinkLocal_ringCfg (s : State) (p : Nat) (body : List Byte) :
    (s.ptpLinkLocal p body).rd Reg.ringCfg = s.rd Reg.ringCfg := by
  refine (s.ptpLinkLocal_touches p body).regs _ ?_
  rintro ⟨part, listed, has⟩
  exact Part.has_away (Part.sent_away (decide_eq_true listed)) has rfl

/-! Pdelay_Req (R67). -/

/-- A port that asks its neighbour: UP, taking PTP messages and, in a native ring, with an active ID. -/
def State.mayAsk (s : State) (p : Nat) : Prop := s.ptpRole p ≠ 0 ∧ s.portUp p ∧ (s.ptpNative p → s.sideActive (p / 2 * 2))

/-- Port `p` sends the round's Pdelay_Req: one still unanswered is counted, and its answer is awaited. -/
def State.askPort (s : State) (p : Nat) : State :=
  let u := if setHas s.ptp.asked p then s.bump Reg.ptpCntPdelayFail else s
  (u.setPtp fun x => { x with asked := setAdd x.asked p, resps := Tab.set none x.resps p none }).ptpLinkLocal p
    (u.ptpHeader 2 p u.ptp.pdelaySeq.toNat 0 0 ++ u.ptpNow ++ beBytes 10 0)

/-- From `s` to `t` every port may ask as before, and every port asked still is. -/
structure Asking (s t : State) : Prop where
  may : ∀ {p}, p < 4 → s.mayAsk p → t.mayAsk p
  seq : t.ptp.pdelaySeq = s.ptp.pdelaySeq
  sent : t.ptp.pdelayAt = s.ptp.pdelayAt
  asked : ∀ {p}, setHas s.ptp.asked p = true → setHas t.ptp.asked p = true

theorem Asking.refl (s : State) : Asking s s := ⟨fun _ => id, rfl, rfl, id⟩

theorem Asking.trans {s t u : State} (h : Asking s t) (h' : Asking t u) : Asking s u :=
  ⟨fun hp m => h'.may hp (h.may hp m), h'.seq.trans h.seq, h'.sent.trans h.sent, fun a => h'.asked (h.asked a)⟩

/-- What a port may ask with reads the configuration, the links and the activity of the ring's IDs. -/
theorem State.mayAsk_congr {s t : State} {p : Nat} (ring : t.rd Reg.ringCfg = s.rd Reg.ringCfg)
    (port : t.rd (Reg.ptpPortCfg p) = s.rd (Reg.ptpPortCfg p)) (links : SameLinks s t) (ids : t.ring = s.ring) (h : s.mayAsk p) :
    t.mayAsk p := by
  have mode : t.ringMode = s.ringMode := by
    unfold State.ringMode State.fld State.flag
    rw [ring]
  have prp : t.prpOn = s.prpOn := by
    unfold State.prpOn State.fld State.flag
    rw [ring]
  have native : t.ptpNative p = s.ptpNative p := by
    unfold State.ptpNative State.nativePort State.flag
    rw [mode, prp, port]
  obtain ⟨role, up, active⟩ := h
  refine ⟨?_, ?_, fun n => ?_⟩
  · rwa [State.ptpRole, State.fld, port]
  · rwa [State.portUp, State.link, links]
  · rw [State.sideActive, ids]
    exact active (native ▸ n)

theorem Asking.ptpLinkLocal {s t : State} (h : Asking s t) (p : Nat) (body : List Byte) : Asking s (t.ptpLinkLocal p body) := by
  have sent := t.ptpLinkLocal_touches p body
  have ptp := sent.ptp (by decide)
  refine h.trans ⟨fun {q} hq => ?_, by rw [ptp], by rw [ptp], by rw [ptp]; exact id⟩
  have config : ClockReg (Reg.ptpPortCfg q) := by
    unfold ClockReg Reg.ptpPortCfg pageKey
    omega
  exact State.mayAsk_congr (t.ptpLinkLocal_ringCfg p body) ((sent.samePages rfl).rd config)
    (SameLinks.ptpLinkLocal rfl p body) (sent.ring (by decide))

theorem setHas_setAdd_of {l : List Nat} {k : Nat} (j : Nat) (h : setHas l k = true) : setHas (setAdd l j) k = true := by
  induction l with
  | nil => cases h
  | cons i l ih =>
    simp only [setHas, Bool.or_eq_true, decide_eq_true_eq] at h
    unfold setAdd
    split
    · simp [setHas, h]
    · split
      · simp [setHas, h]
      · obtain here | later := h
        · simp [setHas, here]
        · simp [setHas, ih later]

/-- The request noted: the port awaits its answer. -/
theorem Asking.note (s : State) (p : Nat) :
    Asking s (s.setPtp fun x => { x with asked := setAdd x.asked p, resps := Tab.set none x.resps p none }) :=
  ⟨fun _ => id, rfl, rfl, setHas_setAdd_of p⟩

theorem Asking.bump (s : State) {k : Nat} (ring : Reg.ringCfg ≠ k) (ports : ∀ {p}, p < 4 → Reg.ptpPortCfg p ≠ k) : Asking s (s.bump k) :=
  ⟨fun hp => State.mayAsk_congr (s.rd_bump_ne ring) (s.rd_bump_ne (ports hp)) rfl rfl, rfl, rfl, id⟩

theorem State.askPort_asking (s : State) (p : Nat) : Asking s (s.askPort p) ∧ setHas (s.askPort p).ptp.asked p = true := by
  unfold State.askPort
  extract_lets u
  have counted : Asking s u := by
    unfold u
    split
    · refine .bump s (by decide) fun {p} hp => ?_
      unfold Reg.ptpPortCfg Reg.ptpCntPdelayFail pageKey
      omega
    · exact .refl s
  have noted := Asking.note u p
  refine ⟨(counted.trans noted).ptpLinkLocal p _, ?_⟩
  exact ((Asking.refl _).ptpLinkLocal p _).asked (setHas_setAdd u.ptp.asked p)

/-- The round of one port of a PDELAY_REQ_SEND. -/
def State.askRound (s : State) (p : Nat) : State :=
  if s.ptpRole p ≠ 0 ∧ s.portUp p ∧ (s.ptpNative p → s.sideActive (p / 2 * 2)) then s.askPort p else s

/-- Every port of the round that may ask has asked at its end. -/
theorem State.askRound_foldl (s : State) (l : List Nat) :
    Asking s (l.foldl State.askRound s) ∧
      ∀ p, p ∈ l → p < 4 → s.mayAsk p → setHas (l.foldl State.askRound s).ptp.asked p = true := by
  induction l generalizing s with
  | nil => exact ⟨.refl s, fun p hp => absurd hp List.not_mem_nil⟩
  | cons q l ih =>
    have first : Asking s (s.askRound q) ∧ (s.mayAsk q → setHas (s.askRound q).ptp.asked q = true) := by
      unfold State.askRound
      split
      · exact ⟨(s.askPort_asking q).1, fun _ => (s.askPort_asking q).2⟩
      · next not => exact ⟨.refl s, fun may => absurd may not⟩
    obtain ⟨rest, asks⟩ := ih (s.askRound q)
    refine ⟨first.1.trans rest, fun p hp four may => ?_⟩
    obtain rfl | later := List.mem_cons.mp hp
    · exact rest.asked (first.2 may)
    · exact asks p later four (first.1.may four may)

theorem exec_pdelayReqSend {s : State} (due : s.sendDue s.ptp.pdelayAt (msTclks 1000) = true) :
    exec .pdelayReqSend s = .next ((upFrom 0 4).foldl State.askRound
      (s.setPtp fun p => { p with pdelaySeq := p.pdelaySeq + 1, pdelayAt := some s.tclks })) :=
  congrArg Host.Outcome.next (if_neg (by simp [due]))

/-- Each port that may ask asks its neighbour. -/
theorem State.pdelayReqSend_asks (s : State) (due : s.sendDue s.ptp.pdelayAt (msTclks 1000) = true) :
    ∃ t, exec .pdelayReqSend s = .next t ∧ t.ptp.pdelaySeq = s.ptp.pdelaySeq + 1 ∧ t.ptp.pdelayAt = some s.tclks ∧
      ∀ p, p < 4 → s.ptpRole p ≠ 0 → s.portUp p = true → (s.ptpNative p = true → s.sideActive (p / 2 * 2) = true) →
        setHas t.ptp.asked p = true := by
  obtain ⟨round, asked⟩ := State.askRound_foldl
    (s.setPtp fun p => { p with pdelaySeq := p.pdelaySeq + 1, pdelayAt := some s.tclks }) (upFrom 0 4)
  refine ⟨_, exec_pdelayReqSend due, round.seq, round.sent, fun p four role up active => asked p ?_ four ⟨role, up, active⟩⟩
  simp only [upFrom, List.mem_cons, List.not_mem_nil, or_false]
  omega

/-! Sync and Announce (R68, R69). -/

theorem State.ptpSide_touches (s : State) (announce : Bool) (side : Nat) : Frame (fun x => x ∈ Part.sent) s (s.ptpSide announce side) :=
  State.ptpSide_frame (Frame.refl _ s) announce side (.of_coveredBy rfl)

/-- A boundary clock port is there. -/
def State.boundary (s : State) : Bool := decide (s.ptpRole 2 = 2) || decide (s.ptpRole 3 = 2)

/-- A Sync or Announce sent: its sequence number and its time. -/
def State.countSent (s : State) (announce : Bool) : State := s.setPtp fun p =>
  if announce then { p with annSeq := p.annSeq + 1, annAt := some s.tclks }
  else { p with syncSeq := p.syncSeq + 1, syncAt := some s.tclks }

/-- A grandmaster sends on both sides; without a boundary clock port, on the home side alone. -/
def State.sendAsMaster (s : State) (announce : Bool) : State :=
  let t := s.ptpSide announce 0
  (if s.boundary then t.ptpSide announce 2 else t).countSent announce

/-- The time after which the next Sync or Announce is due. -/
def State.nextDue (s : State) (announce : Bool) : Bool :=
  s.sendDue (if announce then s.ptp.annAt else s.ptp.syncAt) (if announce then msTclks 1000 else s.syncTclks)

theorem exec_syncSend {s : State} {announce : Bool} (capable : s.flag Reg.ptpCfg 0 = true)
    (capable' : s.ptpSelect.flag Reg.ptpCfg 0 = true) (due : s.ptpSelect.nextDue announce = true)
    (none : s.ptpSelect.ptp.parent = none) (own : s.ptpSelect.curGm = s.clockId) :
    exec (.syncSend announce) s = .next (s.ptpSelect.sendAsMaster announce) := by
  show execSyncSend announce s = _
  unfold execSyncSend
  rw [if_pos capable]
  have own' : s.ptpSelect.curGm = s.ptpSelect.clockId := own
  extract_lets u boundary done isDue gm
  have now : isDue = true := by cases announce <;> exact due
  have alone : u.ptp.parent = Option.none := none
  have acts : (u.flag Reg.ptpCfg 0 && decide (gm = u.clockId)) = true := by
    rw [Bool.and_eq_true, decide_eq_true_eq]
    exact ⟨capable', own'⟩
  rw [now, alone]
  exact congrArg Host.Outcome.next (if_pos acts)

/-- Two words show every number below 2^64. -/
theorem words_toNat {x : Nat} (h : x < 2 ^ 64) : (w32 (x / 2 ^ 32)).toNat * 2 ^ 32 + (w32 x).toNat = x := by
  unfold w32
  rw [BitVec.toNat_ofNat, BitVec.toNat_ofNat]
  omega

/-- A node whose own dataset is the best follows no master, and CUR_GM is its own. -/
theorem State.ptpSelect_own {s : State} (best : bestMaster s.candidates = some s.ownMaster) :
    s.ptpSelect.ptp.parent = none ∧ s.ptpSelect.curGm = s.clockId := by
  obtain ⟨parent, hi, lo, _, _⟩ := State.ptpSelect_shows best
  refine ⟨?_, ?_⟩
  · rw [parent, State.parentOf, State.ptpFollows]
    exact if_neg (by simp [State.ownMaster])
  · rw [State.curGm, hi, lo]
    exact words_toNat (Nat.mod_lt _ (by decide))

theorem State.adopt_schedule (s : State) (parent : Option (Nat × Nat)) :
    (s.adopt parent).ptp.syncSeq = s.ptp.syncSeq ∧ (s.adopt parent).ptp.annSeq = s.ptp.annSeq ∧
      (s.adopt parent).ptp.syncAt = s.ptp.syncAt ∧ (s.adopt parent).ptp.annAt = s.ptp.annAt := by
  unfold State.adopt
  split <;> exact ⟨rfl, rfl, rfl, rfl⟩

theorem State.countSent_congr {s t : State} (ptp : t.ptp = s.ptp) (tclks : t.tclks = s.tclks) (announce : Bool) :
    (t.countSent announce).ptp = (s.countSent announce).ptp := by
  simp only [State.countSent, State.setPtp, ptp, tclks]

/-- The sequence numbers and times after a message sent. -/
theorem State.countSent_schedule (s : State) (announce : Bool) :
    (s.countSent announce).ptp.syncSeq = s.ptp.syncSeq + (if announce then 0 else 1) ∧
      (s.countSent announce).ptp.annSeq = s.ptp.annSeq + (if announce then 1 else 0) ∧
      (if announce then (s.countSent announce).ptp.annAt else (s.countSent announce).ptp.syncAt) = some s.tclks := by
  cases announce
  · exact ⟨rfl, (BitVec.add_zero _).symm, rfl⟩
  · exact ⟨(BitVec.add_zero _).symm, rfl, rfl⟩

theorem State.sendAsMaster_ptp (s : State) (announce : Bool) :
    (s.sendAsMaster announce).ptp = (s.countSent announce).ptp ∧
      (s.boundary = false → (s.sendAsMaster announce).net = (s.ptpSide announce 0).net) := by
  unfold State.sendAsMaster
  extract_lets t
  have home := s.ptpSide_touches announce 0
  refine ⟨?_, fun none => by rw [none]; rfl⟩
  have sent : Frame (fun p => p ∈ Part.sent) s (if s.boundary then t.ptpSide announce 2 else t) := by
    split
    · exact home.trans (t.ptpSide_touches announce 2)
    · exact home
  exact State.countSent_congr (sent.ptp (by decide)) (sent.tclks (by decide)) announce

/-- A grandmaster's Sync or Announce that is due. -/
theorem State.syncSend_sends {s : State} {announce : Bool} (capable : s.flag Reg.ptpCfg 0 = true)
    (best : bestMaster s.candidates = some s.ownMaster) (due : s.nextDue announce = true) :
    ∃ t, exec (.syncSend announce) s = .next t ∧ t.ptp.syncSeq = s.ptp.syncSeq + (if announce then 0 else 1) ∧
      t.ptp.annSeq = s.ptp.annSeq + (if announce then 1 else 0) ∧ (if announce then t.ptp.annAt else t.ptp.syncAt) = some s.tclks ∧
      ((∀ p, s.ptpRole p ≠ 2) → t.net = (s.ptpSelect.ptpSide announce 0).net) := by
  obtain ⟨parent, gm⟩ := State.ptpSelect_own best
  obtain ⟨syncSeq, annSeq, syncAt, annAt⟩ := s.adopt_schedule (s.parentOf s.ownMaster)
  rw [← State.ptpSelect_ptp best] at syncSeq annSeq syncAt annAt
  have cfg : s.ptpSelect.rd Reg.ptpCfg = s.rd Reg.ptpCfg := s.ptpSelect_reported.rd (by decide) (by decide) (by unfold ShowsMaster; decide)
  have tclks : s.ptpSelect.tclks = s.tclks := s.ptpSelect_touches.tclks (by decide)
  have capable' : s.ptpSelect.flag Reg.ptpCfg 0 = true := by rwa [State.flag, cfg]
  have due' : s.ptpSelect.nextDue announce = true := by
    have interval : s.ptpSelect.syncTclks = s.syncTclks := by
      unfold State.syncTclks State.logSync State.fld
      rw [cfg]
    unfold State.nextDue State.sendDue State.passed at due ⊢
    rwa [syncAt, annAt, interval, tclks]
  obtain ⟨ptp, net⟩ := s.ptpSelect.sendAsMaster_ptp announce
  obtain ⟨sync, ann, sent⟩ := s.ptpSelect.countSent_schedule announce
  refine ⟨_, exec_syncSend capable capable' due' parent gm, ?_, ?_, ?_, fun slave => net ?_⟩
  · rw [ptp, sync, syncSeq]
  · rw [ptp, ann, annSeq]
  · rw [ptp, sent, tclks]
  · have role (p : Nat) (hp : p < 4) : s.ptpSelect.ptpRole p ≠ 2 := by
      have config : s.ptpSelect.rd (Reg.ptpPortCfg p) = s.rd (Reg.ptpPortCfg p) :=
        s.ptpSelect_reported.rd (by unfold Reg.ptpPortCfg pageKey; omega) (by unfold Reg.ptpPortCfg pageKey; omega)
          (by unfold ShowsMaster Reg.ptpPortCfg Reg.ptpCurGmHi Reg.ptpCurGmLo Reg.ptpGmInfo Reg.ptpUtc pageKey; omega)
      rw [State.ptpRole, State.fld, config]
      exact slave p
    simp [State.boundary, role]

end Sys2Proof.Machine
end

section
/-! The loss of a source, and the local sources PPS and IRIG-B (R70–R72, R76, R391). -/

namespace Sys2Proof.Machine

/-! A change of the quality code is a report. -/

namespace Reported

variable {W : Nat → Prop} {s0 s : State}

theorem setQuality (h : Reported W s0 s) (code : BitVec 4) : Reported W s0 (s.setQuality code) := by
  unfold State.setQuality
  extract_lets old enters _ u
  have hu : Reported W s0 u := h.same rfl rfl
  exact .ite (fun _ => h) fun _ => (hu.raise _ _).post _ _ _ _ _ _ _ _

theorem stateSet (h : Reported W s0 s) (code : BitVec 4) (u : Nat) : Reported W s0 (s.stateSet code u) := by
  unfold State.stateSet
  extract_lets _ v
  have hv : Reported W s0 v := .ite (fun _ => h.same rfl rfl) fun _ => h
  have set := hv.setQuality code
  exact .ite (fun _ => set.setQuality _) fun _ => set

theorem setPtp (h : Reported W s0 s) (f : PtpSt → PtpSt) : Reported W s0 (s.setPtp f) := h.same rfl rfl

theorem sourceGone (h : Reported W s0 s) (src : Nat) : Reported W s0 (s.sourceGone src) :=
  .ite (fun _ => (h.setPtp _).stateSet _ _) fun _ => h.setPtp _

theorem sourceLost (h : Reported W s0 s) (source : Nat) (good : TimePoint) : Reported W s0 (s.sourceLost source good) :=
  (h.raise _ _).post _ _ _ _ _ _ _ _

end Reported

/-- The loss of a source raises its bit. -/
theorem State.sourceLost_raised (s : State) (source : Nat) (good : TimePoint) : (s.sourceLost source good).Raised 0x11 1 :=
  ((Reported.refl (W := fun _ => False) (s.raise 0x11 1)).post _ _ _ _ _ _ _ _).raised (s.raise_raised 0x11 (by decide))

theorem State.sourceLost_touches (s : State) (source : Nat) (good : TimePoint) :
    Frame (fun p => p ∈ Part.reports) s (s.sourceLost source good) :=
  State.sourceLost_frame (Frame.refl _ s) _ _ (.of_coveredBy rfl)

/-- What a change of the servo or of the state changes. -/
def Part.steered : List Part := Part.reports ++ [.time, .ptp]

theorem State.sourceGone_touches (s : State) (src : Nat) : Frame (fun p => p ∈ Part.steered) s (s.sourceGone src) :=
  State.sourceGone_frame (Frame.refl _ s) _ (.of_coveredBy rfl)

theorem State.stateSet_ptp (s : State) (code : BitVec 4) (u : Nat) : (s.stateSet code u).ptp = s.ptp :=
  (State.stateSet_frame (P := fun p => p ∈ Part.reports ++ [.time]) (Frame.refl _ s) code u (.of_coveredBy rfl)).ptp (by decide)

theorem State.sourceGone_ptp (s : State) (src : Nat) : (s.sourceGone src).ptp = { s.ptp with inRow := 0 } := by
  unfold State.sourceGone
  extract_lets u
  split
  · rw [State.stateSet_ptp]
    rfl
  · rfl

/-- LOCKED to the source that is lost is left. -/
theorem State.sourceGone_unlocks {s : State} {src : Nat} (four : src < 4) (source : s.time.quality.toNat % 4 = src) (locked : s.timeState = 0) :
    (s.sourceGone src).timeState ≠ 0 := by
  have left : s.sourceGone src = (s.setPtp fun p => { p with inRow := 0 }).stateSet (BitVec.ofNat 4 (4 + src)) s.uncNs :=
    if_pos ⟨locked, source⟩
  rw [left, (State.stateSet_effect _ _ _).timeState]
  refine State.heldCode_ne_locked _ _ ?_
  rw [BitVec.toNat_ofNat]
  omega

/-! The PTP source (R65, R70). -/

/-- The PTP source is lost, where it is not already. -/
def State.losePtp (s : State) : State := if s.ptp.lost then s else (s.sourceLost 0 s.ptp.lastGood).sourceGone 0

/-- The master `src` is dropped. -/
def State.dropMaster (s : State) (src : Nat) : State := s.setPtp fun p => { p with
  masters := p.masters.filter fun x => decide (x.source ≠ src), annTimeouts := 0, lost := false, twoStep := none, parent := none }

/-- A missed Announce is counted. -/
def State.announceMissed (s : State) : State := (s.bump Reg.ptpCntAnnTimeout).setPtp fun p => { p with heardAnn := s.tclks }

theorem exec_announceReceiptTimeout {s : State} {src p : Nat} (parent : s.ptp.parent = some (src, p))
    (passed : s.passed s.ptp.heardAnn (msTclks 3000) = true) :
    exec .announceReceiptTimeout s = .next
      (if s.ptp.annTimeouts < 2 then s.announceMissed.setPtp fun p => { p with annTimeouts := p.annTimeouts + 1 }
       else (s.announceMissed.losePtp.dropMaster src).ptpSelect) := by
  show execAnnounceReceiptTimeout s = _
  unfold execAnnounceReceiptTimeout
  rw [parent]
  exact congrArg Host.Outcome.next (if_neg (by simp [passed]))

theorem State.losePtp_masters (s : State) : s.losePtp.ptp.masters = s.ptp.masters := by
  unfold State.losePtp
  split
  · rfl
  · rw [State.sourceGone_ptp, (s.sourceLost_touches _ _).ptp (by decide)]

theorem Reported.losePtp {W : Nat → Prop} {s0 s : State} (h : Reported W s0 s) : Reported W s0 s.losePtp :=
  .ite (fun _ => h) fun _ => (h.sourceLost _ _).sourceGone _

theorem State.losePtp_raised {s : State} (h : s.ptp.lost = false) : s.losePtp.Raised 0x11 1 := by
  unfold State.losePtp
  rw [if_neg (by simp [h])]
  exact ((Reported.refl (W := fun _ => False) _).sourceGone 0).raised (s.sourceLost_raised _ _)

theorem State.adopt_annTimeouts {s : State} (h : s.ptp.annTimeouts = 0) (parent : Option (Nat × Nat)) : (s.adopt parent).ptp.annTimeouts = 0 := by
  unfold State.adopt
  split
  · exact h
  · rfl

theorem State.ptpSelect_annTimeouts {s : State} (h : s.ptp.annTimeouts = 0) : s.ptpSelect.ptp.annTimeouts = 0 := by
  cases best : bestMaster s.candidates with
  | none =>
    rw [State.ptpSelect_of_none best]
    exact h
  | some b =>
    rw [State.ptpSelect_ptp best]
    exact State.adopt_annTimeouts h _

/-- Three seconds without an Announce of the chosen master. -/
theorem State.announceTimeout_effect {s : State} {src p : Nat} (parent : s.ptp.parent = some (src, p))
    (passed : s.passed s.ptp.heardAnn (msTclks 3000) = true) :
    ∃ t, exec .announceReceiptTimeout s = .next t ∧ t.rd Reg.ptpCntAnnTimeout = satInc (s.rd Reg.ptpCntAnnTimeout) ∧
      (s.ptp.annTimeouts < 2 → t.ptp.annTimeouts = s.ptp.annTimeouts + 1 ∧ t.ptp.masters = s.ptp.masters ∧
        t.ptp.parent = s.ptp.parent) ∧
      (2 ≤ s.ptp.annTimeouts → t.ptp.annTimeouts = 0 ∧
        t.ptp.masters = s.ptp.masters.filter (fun x => decide (x.source ≠ src)) ∧ (s.ptp.lost = false → t.Raised 0x11 1)) := by
  have counted : s.announceMissed.rd Reg.ptpCntAnnTimeout = satInc (s.rd Reg.ptpCntAnnTimeout) := s.rd_bump_same _
  refine ⟨_, exec_announceReceiptTimeout parent passed, ?_⟩
  split
  · exact ⟨counted, fun _ => ⟨rfl, rfl, rfl⟩, fun third => absurd third (by omega)⟩
  · have dropped : Reported ShowsMaster s.announceMissed.losePtp (s.announceMissed.losePtp.dropMaster src).ptpSelect :=
      ((Reported.refl _).setPtp _).trans (State.ptpSelect_reported _)
    have reported := (Reported.refl (W := ShowsMaster) s.announceMissed).losePtp.trans dropped
    refine ⟨?_, fun early => absurd early ‹_›, fun _ => ⟨?_, ?_, fun good => ?_⟩⟩
    · rw [← counted]
      exact reported.rd (by decide) (by decide) (by unfold ShowsMaster; decide)
    · exact State.ptpSelect_annTimeouts rfl
    · rw [State.ptpSelect_masters]
      exact congrArg (List.filter _) s.announceMissed.losePtp_masters
    · exact dropped.raised (State.losePtp_raised good)

/-- Four sync intervals without a Sync. -/
theorem exec_syncTimeout {s : State} (follows : s.ptp.parent.isSome = true) (good : s.ptp.lost = false)
    (passed : s.passed s.ptp.heardSync (4 * s.syncTclks) = true) :
    exec .syncTimeout s = .next
      ((((s.setPtp fun p => { p with lost := true }).raise 0x11 1).post 0x14 .ptp 0 0 (w32 (at_ 16 0xFFFF))
        s.ptp.lastGood.sec (w32 s.ptp.lastGood.ns) 0).sourceGone 0) :=
  congrArg Host.Outcome.next (if_pos ⟨follows, by simp [good], passed⟩)

end Sys2Proof.Machine
end

section
/-! Pulses of PPS and frames of IRIG-B (R71, R72, R76, R390, R391). -/

namespace Sys2Proof.Machine

theorem State.source_congr {s t : State} (h : t.sources = s.sources) (k : Nat) : t.source k = s.source k := by
  rw [State.source, h, State.source]

theorem State.source_setSource (s : State) (k : Nat) (f : LocalSrc → LocalSrc) : (s.setSource k f).source k = f (s.source k) :=
  Tab.get_set_same

theorem Reported.setSource {W : Nat → Prop} {s0 s : State} (h : Reported W s0 s) (k : Nat) (f : LocalSrc → LocalSrc) :
    Reported W s0 (s.setSource k f) := h.same rfl rfl

/-! No operation but a source's own update touches one. -/

theorem State.raise_source (s : State) (page b k : Nat) : (s.raise page b).source k = s.source k :=
  State.source_congr ((s.raise_touches page b).sources (by decide)) k

theorem State.servoOffset_source (s : State) (src : Nat) (o : Int) (h a k : Nat) : (s.servoOffset src o h a).source k = s.source k :=
  State.source_congr ((State.servoOffset_frame (P := fun p => p ∈ Part.steered) (Frame.refl _ s) src o h a
    (.of_coveredBy rfl)).sources (by decide)) k

theorem State.pulseServo_source (s : State) (j : Nat) (t : TimePoint) (k : Nat) : (s.pulseServo j t).source k = s.source k :=
  State.source_congr ((State.pulseServo_frame (P := fun p => p ∈ Part.steered) (Frame.refl _ s) j t (.of_coveredBy rfl)).sources
    (by decide)) k

theorem State.rxPacket_source (s : State) (id : Nat) (b : List Byte) (status k : Nat) : (s.rxPacket id b status).source k = s.source k :=
  State.source_congr ((State.rxPacket_frame (P := fun p => p ∈ Part.reports ++ Part.fifoUnit) (Frame.refl _ s) id b status
    (.of_coveredBy rfl)).sources (by decide)) k

/-- What a failed check of a channel changes. -/
def Part.failed : List Part := Part.reports ++ [.checks, .pwr, .regCh]

theorem State.qualFail_source (s : State) (page check item : Nat) (value : Word) {counter : Nat}
    (counts : RegIn (fun p => p ∈ Part.failed) counter) (k : Nat) : (s.qualFail page check item value counter).source k = s.source k :=
  State.source_congr ((State.qualFail_frame (Frame.refl _ s) page check item value counter counts (.of_coveredBy rfl)).sources
    (by decide)) k

/-! PPS pulses. -/

/-- The pulse is the source's newest good one. -/
def State.pulseGood (s : State) (k : Nat) (p : TimePoint) : State :=
  (s.setSource k fun x => { x with last := some p, good := p, fails := 0 }).pulseServo k p

/-- The pulse fails. -/
def State.pulseFailed (s : State) (k : Nat) : State := s.setSource k fun x => { x with fails := x.fails + 1 }

/-- What a channel reports of a good pulse. -/
def State.pulseReported (s : State) (k : Nat) (p : TimePoint) (width : Nat) : State :=
  let u := s.raise (0x80 + k) 15
  if u.flag (Reg.chPpsInCfg k) 0 then u.rxPacket (rxFifo k) (u.stampBytes p ++ wordBytes (w32 width)) 0 else u

theorem exec_ppsPulse {s : State} {k : Fin 65} (p : TimePoint) (width : Nat) (runs : k.val = 64 ∨ s.runs k 7 = true) :
    exec (.ppsPulse k ⟨!s.flag Reg.ptpGmSrc 16, p⟩ width) s = .next
      (if (s.source k).pulseOk p width then
        if k.val = 64 then s.pulseGood k p else (s.pulseGood k p).pulseReported k p width
      else if k.val = 64 then s.pulseFailed k else (s.pulseFailed k).qualFail (0x80 + k) 0x0114 k 0 (Reg.chCntPpsBad k)) := by
  refine congrArg Host.Outcome.next (if_neg ?_)
  rintro (⟨channel, stopped⟩ | edge)
  · obtain pin | runs := runs
    · omega
    · simp [runs] at stopped
  · simp at edge

/-- The edge that PPS_POL does not select begins no pulse. -/
theorem exec_ppsPulse_other (s : State) (k : Fin 65) (p : TimePoint) (width : Nat) :
    exec (.ppsPulse k ⟨s.flag Reg.ptpGmSrc 16, p⟩ width) s = .next s :=
  congrArg Host.Outcome.next (if_pos (.inr rfl))

theorem LocalSrc.pulseOk_of {x : LocalSrc} {p : TimePoint} {width : Nat} (long : 1000 ≤ width) (short : width ≤ 500000000)
    (placed : ∀ l, x.last = some l → (timeDiff p l - 1000000000).natAbs ≤ 1000000) : x.pulseOk p width = true := by
  unfold LocalSrc.pulseOk
  cases last : x.last with
  | none => simp [long, short]
  | some l => simp [long, short, placed l last]

theorem State.pulseGood_source (s : State) (k : Nat) (p : TimePoint) :
    (s.pulseGood k p).source k = { s.source k with last := some p, good := p, fails := 0 } := by
  rw [State.pulseGood, State.pulseServo_source, State.source_setSource]

theorem State.pulseReported_source (s : State) (k : Nat) (p : TimePoint) (width j : Nat) :
    (s.pulseReported k p width).source j = s.source j := by
  unfold State.pulseReported
  extract_lets u
  split
  · rw [State.rxPacket_source, State.raise_source]
  · exact s.raise_source _ _ j

theorem State.pulseReported_raised (s : State) (k : Nat) (p : TimePoint) (width : Nat) : (s.pulseReported k p width).Raised (0x80 + k) 15 := by
  unfold State.pulseReported
  extract_lets u
  have raised : u.Raised (0x80 + k) 15 := s.raise_raised _ (by decide)
  split
  · exact ((Reported.refl u).rxPacket (id := rxFifo k) _ 0).raised raised
  · exact raised

/-- A pulse that qualifies. -/
theorem State.ppsPulse_good {s : State} {k : Fin 65} {p : TimePoint} {width : Nat} (runs : k.val = 64 ∨ s.runs k 7 = true)
    (ok : (s.source k).pulseOk p width = true) :
    ∃ t, exec (.ppsPulse k ⟨!s.flag Reg.ptpGmSrc 16, p⟩ width) s = .next t ∧ (t.source k).last = some p ∧
      (t.source k).good = p ∧ (t.source k).fails = 0 ∧ (k.val < 64 → t.Raised (0x80 + k) 15) := by
  refine ⟨_, exec_ppsPulse p width runs, ?_⟩
  rw [if_pos ok]
  split
  · rw [State.pulseGood_source]
    exact ⟨rfl, rfl, rfl, fun channel => by omega⟩
  · rw [State.pulseReported_source, State.pulseGood_source]
    exact ⟨rfl, rfl, rfl, fun _ => State.pulseReported_raised _ _ _ _⟩

/-- A pulse that fails. -/
theorem State.ppsPulse_failing {s : State} {k : Fin 65} {p : TimePoint} {width : Nat} (runs : k.val = 64 ∨ s.runs k 7 = true)
    (bad : (s.source k).pulseOk p width = false) :
    ∃ t, exec (.ppsPulse k ⟨!s.flag Reg.ptpGmSrc 16, p⟩ width) s = .next t ∧ (t.source k).fails = (s.source k).fails + 1 ∧
      (t.source k).last = (s.source k).last ∧
      (k.val < 64 → t = (s.pulseFailed k).qualFail (0x80 + k) 0x0114 k 0 (Reg.chCntPpsBad k)) := by
  refine ⟨_, exec_ppsPulse p width runs, ?_⟩
  rw [if_neg (by simp [bad])]
  split
  · rw [State.pulseFailed, State.source_setSource]
    exact ⟨rfl, rfl, fun channel => by omega⟩
  · rw [State.qualFail_source _ _ _ _ _ (Reg.chCntPpsBad_in k (by decide)), State.pulseFailed, State.source_setSource]
    exact ⟨rfl, rfl, fun _ => rfl⟩

/-- SOURCE_LOST of pulse source `k`. -/
def State.pulseLostReport (s : State) (k : Nat) : State :=
  if k = 64 then s.sourceLost 1 (s.source k).good else s.channelLost k 3

/-- The node that follows pulse source `k` loses it. -/
def State.pulseGone (s : State) (k : Nat) : State := if s.pulseSelected k then s.sourceGone 1 else s

theorem exec_ppsSourceLost {s : State} {k : Fin 65} {l : TimePoint} (last : (s.source k).last = some l)
    (lost : 3 ≤ (s.source k).fails ∨ 3001000000 ≤ timeDiff s.now l) :
    exec (.ppsSourceLost k) s = .next
      (((s.pulseLostReport k).pulseGone k).setSource k fun x => { x with last := none, fails := 0 }) := by
  show execPpsSourceLost k s = _
  unfold execPpsSourceLost
  extract_lets j
  have same : (s.source j).last = some l := last
  rw [same]
  exact congrArg Host.Outcome.next (if_pos lost)

/-- Three failing pulses, or three places without one. -/
theorem State.ppsSourceLost_effect {s : State} {k : Fin 65} {l : TimePoint} (last : (s.source k).last = some l)
    (lost : 3 ≤ (s.source k).fails ∨ 3001000000 ≤ timeDiff s.now l) :
    ∃ t, exec (.ppsSourceLost k) s = .next t ∧ (t.source k).last = none ∧ (t.source k).fails = 0 ∧
      (k.val = 64 → t.Raised 0x11 1) := by
  refine ⟨_, exec_ppsSourceLost last lost, ?_⟩
  rw [State.source_setSource]
  refine ⟨rfl, rfl, fun pin => ?_⟩
  have raised : (s.pulseLostReport k).Raised 0x11 1 := by
    unfold State.pulseLostReport
    rw [if_pos pin]
    exact s.sourceLost_raised _ _
  have gone : Reported (fun _ => False) (s.pulseLostReport k) ((s.pulseLostReport k).pulseGone k) :=
    .ite (fun _ => (Reported.refl _).sourceGone 1) fun _ => .refl _
  exact (gone.setSource k _).raised raised

/-! IRIG-B frames. -/

/-- The run of good frames ends. -/
def State.irigEnd (s : State) (k : Nat) : State := s.setSource k fun x => { x with irig := none, run := 0 }

/-- A frame `b` stamped `p` with a status, as the packet that channel `k` stores of it in state `u` (R390). -/
def State.irigStore (s : State) (k : Nat) (b : BitVec 100) (p : TimePoint) (u : State) (status : Nat) : State :=
  if bit (s.rd (Reg.chIrigCfg k)) 31 then
    u.rxPacket (rxFifo k) (s.stampBytes p ++ ((upFrom 0 13).map fun i => BitVec.ofNat 8 (b.toNat >>> (8 * i))) ++ [0, 0, 0]) status
  else u

/-- A frame that fails check 0x0113. -/
def State.irigFailed (s : State) (k : Nat) (b : BitVec 100) (p : TimePoint) (status : Nat) : State :=
  (s.irigStore k b p ((s.raise (0x80 + k) 14).qualFail (0x80 + k) 0x0113 k (w32 status) (Reg.chCntIrigBad k)) status).irigEnd k

/-- The frame decodes to 1 s after the one before. -/
def State.irigFollows (s : State) (k : Nat) (b : BitVec 100) : Bool := decide ((s.source k).irig.map (· + 1) = some (s.irigTime b))

/-- The good frame's time is taken in state `u`, and used where it follows the frame before. -/
def State.irigTake (s : State) (k : Nat) (b : BitVec 100) (p : TimePoint) (u : State) : State :=
  let taken := u.setSource k fun x => { x with
    irig := some (s.irigTime b), irigAt := p, run := if s.irigFollows k b then 2 else 1,
    good := if s.irigFollows k b then p else x.good, usedAt := if s.irigFollows k b then u.tclks else x.usedAt }
  if s.irigFollows k b && taken.irigSelected k && taken.localActs then
    taken.servoOffset 2 (timeDiff p ⟨BitVec.ofNat 32 (s.irigTime b), 0⟩) 0 0
  else taken

theorem exec_irigFrame_good {s : State} {c : Fin 64} (b : BitVec 100) (p : TimePoint) (runs : s.runs c 6 = true) :
    exec (.irigFrame c b p .good) s = .next
      (let u := s.irigStore c b p s 0
       if bit (s.rd (Reg.chIrigCfg c)) 30 && decide (irigQuality b = 15) then
         if (u.source c).run = 2 then u.irigLost c else u.irigEnd c
       else s.irigTake c b p u) :=
  congrArg Host.Outcome.next (if_neg (by simp [runs]))

theorem exec_irigFrame_bad {s : State} {c : Fin 64} (b : BitVec 100) (p : TimePoint) (runs : s.runs c 6 = true) {r : IrigEnd}
    (bad : r ≠ .good) : exec (.irigFrame c b p r) s = .next (s.irigFailed c b p (if r = .width then 0x20 else 0x21)) := by
  cases r with
  | good => exact absurd rfl bad
  | width => exact congrArg Host.Outcome.next (if_neg (by simp [runs]))
  | identifier => exact congrArg Host.Outcome.next (if_neg (by simp [runs]))

theorem Reported.irigStore {s0 u : State} {k : Nat} (h : Reported (CountsFifo (rxFifo k)) s0 u) (s : State) (b : BitVec 100)
    (p : TimePoint) (status : Nat) : Reported (CountsFifo (rxFifo k)) s0 (s.irigStore k b p u status) :=
  .ite (fun _ => h.rxPacket _ status) fun _ => h

theorem Reported.irigEnd {W : Nat → Prop} {s0 s : State} (h : Reported W s0 s) (k : Nat) : Reported W s0 (s.irigEnd k) := h.setSource k _

theorem State.irigTake_source (s : State) (k : Nat) (b : BitVec 100) (p : TimePoint) (u : State) :
    ((s.irigTake k b p u).source k).irig = some (s.irigTime b) ∧ ((s.irigTake k b p u).source k).irigAt = p ∧
      ((s.irigTake k b p u).source k).run = if (s.source k).irig.map (· + 1) = some (s.irigTime b) then 2 else 1 := by
  have taken : (s.irigTake k b p u).source k = { u.source k with
      irig := some (s.irigTime b), irigAt := p, run := if s.irigFollows k b then 2 else 1,
      good := if s.irigFollows k b then p else (u.source k).good,
      usedAt := if s.irigFollows k b then u.tclks else (u.source k).usedAt } := by
    unfold State.irigTake
    extract_lets v
    have set : v.source k = _ := u.source_setSource k _
    rw [← set]
    split
    · exact v.servoOffset_source _ _ _ _ k
    · rfl
  rw [taken]
  exact ⟨rfl, rfl, by simp [State.irigFollows]⟩

theorem State.irigEnd_source (s : State) (k : Nat) : ((s.irigEnd k).source k).irig = none ∧ ((s.irigEnd k).source k).run = 0 := by
  rw [State.irigEnd, State.source_setSource]
  exact ⟨rfl, rfl⟩

/-- The node that follows IRIG-B channel `k` loses it. -/
def State.irigGone (s : State) (k : Nat) : State := if s.irigSelected k then s.sourceGone 2 else s

theorem State.irigLost_eq (s : State) (k : Nat) : s.irigLost k = ((s.channelLost k 2).irigGone k).irigEnd k := rfl

/-- A frame that fails its check. -/
theorem State.irigFailed_effect (s : State) (c : Fin 64) (b : BitVec 100) (p : TimePoint) (status : Nat) :
    let t := s.irigFailed c b p status
    (t.source c).irig = none ∧ (t.source c).run = 0 ∧ t.Raised (0x80 + c) 14 ∧
      t.rd (Reg.chCntIrigBad c) = satInc (s.rd (Reg.chCntIrigBad c)) := by
  intro t
  let raised := s.raise (0x80 + c) 14
  have noPend : Reg.chCntIrigBad c % 0x1000 ≠ 0x010 := by unfold Reg.chCntIrigBad pageKey; omega
  have noEvq : Reg.chCntIrigBad c / 0x1000 ≠ 0x24 := by unfold Reg.chCntIrigBad pageKey; omega
  have checked : Reported (CountsFifo (rxFifo c)) (raised.bump (Reg.chCntIrigBad c))
      (raised.qualFail (0x80 + c) 0x0113 c (w32 status) (Reg.chCntIrigBad c)) := (Reported.refl _).qualFail
  have failed : Reported (CountsFifo (rxFifo c)) (raised.bump (Reg.chCntIrigBad c)) t := (checked.irigStore s b p status).irigEnd c
  have counting : Reported (· = Reg.chCntIrigBad c) raised (raised.bump (Reg.chCntIrigBad c)) := (Reported.refl _).wr _ noPend (.inr rfl)
  obtain ⟨irig, run⟩ := State.irigEnd_source
    (s.irigStore c b p (raised.qualFail (0x80 + c) 0x0113 c (w32 status) (Reg.chCntIrigBad c)) status) c
  refine ⟨irig, run, failed.raised (counting.raised (s.raise_raised _ (by decide))), ?_⟩
  have noFifo : ¬ CountsFifo (rxFifo c) (Reg.chCntIrigBad c) := fun counts => by
    have := counts.offset
    unfold Reg.chCntIrigBad pageKey at this
    omega
  have other : Reg.chCntIrigBad c ≠ Reg.irqPend (0x80 + c) := by unfold Reg.chCntIrigBad Reg.irqPend pageKey; omega
  rw [failed.rd noPend noEvq noFifo, State.rd_bump_same, State.raise_rd_ne s _ other]

/-- A frame of a channel in IRIG-B function. -/
theorem State.irigFrame_effect {s : State} {c : Fin 64} (b : BitVec 100) (p : TimePoint) (runs : s.runs c 6 = true) :
    let lost := bit (s.rd (Reg.chIrigCfg c)) 30 && decide (irigQuality b = 15)
    (lost = false → ∃ t, exec (.irigFrame c b p .good) s = .next t ∧ (t.source c).irig = some (s.irigTime b) ∧
      (t.source c).irigAt = p ∧ (t.source c).run = (if (s.source c).irig.map (· + 1) = some (s.irigTime b) then 2 else 1)) ∧
    (lost = true → ∃ t, exec (.irigFrame c b p .good) s = .next t ∧ (t.source c).irig = none ∧ (t.source c).run = 0) ∧
    (∀ r, r ≠ IrigEnd.good → ∃ t, exec (.irigFrame c b p r) s = .next t ∧ (t.source c).irig = none ∧
      (t.source c).run = 0 ∧ t.Raised (0x80 + c) 14 ∧ t.rd (Reg.chCntIrigBad c) = satInc (s.rd (Reg.chCntIrigBad c))) := by
  intro lost
  refine ⟨fun kept => ⟨_, exec_irigFrame_good b p runs, ?_⟩, fun gone => ⟨_, exec_irigFrame_good b p runs, ?_⟩,
    fun r bad => ⟨_, exec_irigFrame_bad b p runs bad, s.irigFailed_effect c b p _⟩⟩
  · dsimp only
    rw [if_neg (ne_true_of_eq_false kept)]
    exact s.irigTake_source c b p _
  · dsimp only
    rw [if_pos gone]
    split
    · exact State.irigEnd_source _ c
    · exact State.irigEnd_source _ c

/-- Three seconds without a usable frame. -/
theorem State.irigSourceLost_effect {s : State} {c : Fin 64} (runs : s.runs c 6 = true) (used : (s.source c).run = 2)
    (passed : s.passed (s.source c).usedAt (msTclks 3000) = true) :
    ∃ t, exec (.irigSourceLost c) s = .next t ∧ (t.source c).irig = none ∧ (t.source c).run = 0 ∧
      (s.irigSelected c = true → s.timeState = 0 → s.time.quality.toNat % 4 = 2 → t.timeState ≠ 0) := by
  obtain ⟨irig, run⟩ := State.irigEnd_source ((s.channelLost c 2).irigGone c) c
  refine ⟨s.irigLost c, congrArg Host.Outcome.next (if_pos ⟨runs, used, passed⟩), irig, run, fun selected locked source => ?_⟩
  have reported : Frame (fun p => p ∈ Part.reports) s (s.channelLost c 2) :=
    State.channelLost_frame (Frame.refl _ s) c 2 (.of_coveredBy rfl)
  have time : (s.channelLost c 2).time = s.time := reported.time (by decide)
  have still : (s.channelLost c 2).irigSelected c = true := by
    unfold State.irigSelected State.gmSrc State.fld at selected ⊢
    rwa [(reported.samePages Part.reports_offClock).rd (by decide)]
  have gone : (s.channelLost c 2).irigGone c = (s.channelLost c 2).sourceGone 2 := if_pos still
  have left := State.sourceGone_unlocks (s := s.channelLost c 2) (src := 2) (by decide) (by rw [time]; exact source)
    (by rw [State.timeState_congr time]; exact locked)
  rw [State.irigLost_eq, gone]
  exact left

/-- Settles O25: each command's outcome is one of the states above; a report takes no bit back, and leaves the links, the sources and the
registers that a later step of the same command reads. -/
theorem ptpSendsAndLocalSourcesQualify : Obligations.PtpSendsAndLocalSourcesQualify := by
  unfold Obligations.PtpSendsAndLocalSourcesQualify
  refine ⟨⟨fun s announce capable best due => ?_, State.pdelayReqSend_asks, fun s src p => State.announceTimeout_effect,
    fun s => exec_syncTimeout⟩, fun s k p width runs long short placed => ?_, fun s k p width => State.ppsPulse_failing,
    exec_ppsPulse_other, fun s k l => State.ppsSourceLost_effect, fun s c b p => State.irigFrame_effect b p,
    fun s c => State.irigSourceLost_effect⟩
  · refine State.syncSend_sends capable ?_ due
    rwa [State.candidates, if_pos capable]
  · exact State.ppsPulse_good runs (LocalSrc.pulseOk_of long short placed)

end Sys2Proof.Machine
end

section
/-! The WIN mailbox (R99): what each command answers and does while BUSY = 0, by the state of the window that it names. -/

namespace Sys2Proof.Machine

/-- The WIN mailbox has accepted a command: its flags are cleared and BUSY is set (R32). -/
def State.winAccepted (s : State) : State := s.wr (Reg.mbxFlag 0x13) 2

theorem State.winAccepted_rd (s : State) {k : Nat} (other : k ≠ Reg.mbxFlag 0x13) : s.winAccepted.rd k = s.rd k :=
  State.rd_wr_ne s 2 other

theorem State.mbxD_winAccepted (s : State) {n : Nat} (hn : n < 4) : s.winAccepted.mbxD 0x13 n = s.mbxD 0x13 n :=
  s.winAccepted_rd (mbxD_ne_mbxFlag 0x13 hn)

/-- What a command of the WIN mailbox answers waits for the completion in the state that it leaves (R33). -/
def winReply (r : MbxAns × State) : State := r.2.mbxAnswer 0x13 r.1

theorem winReply_job (r : MbxAns × State) : Tab.get none (winReply r).mbx 0x13 = some r.1.job := State.mbxAnswer_job r.2 0x13 r.1

/-- A command of the WIN mailbox that answers and leaves the windows as they are. -/
def State.winAnswered (s : State) (A : MbxAns) : State := winReply (A, s.winAccepted)

theorem State.winAnswered_spec (s : State) (A : MbxAns) :
    Tab.get none (s.winAnswered A).mbx 0x13 = some A.job ∧ (s.winAnswered A).wins = s.wins :=
  ⟨winReply_job _, rfl⟩

/-- A command of the WIN mailbox that changes window `w`. -/
def State.winUpdated (s : State) (w : Nat) (f : WinEnt → WinEnt) : State := winReply (.done, s.winAccepted.setWin w f)

theorem State.winUpdated_spec (s : State) (w : Nat) (f : WinEnt → WinEnt) :
    (s.winUpdated w f).Job 0x13 0 none none none none ∧ (s.winUpdated w f).win w = f (s.win w) ∧
    ∀ v, v ≠ w → (s.winUpdated w f).win v = s.win v :=
  ⟨winReply_job _, s.winAccepted.win_setWin_same w f, fun _ other => s.winAccepted.win_setWin_ne f other⟩

/-- The contents that LOAD_TIMES gives a window. -/
def State.loadedTimes (s : State) (x : WinEnt) : WinEnt :=
  { x with open_ := ⟨s.mbxD 0x13 0, (s.mbxD 0x13 1).toNat⟩, length := (s.mbxD 0x13 2).toNat, period := (s.mbxD 0x13 3).toNat }

/-- The contents that LOAD_CTRL gives a window. -/
def State.loadedCtrl (s : State) (x : WinEnt) : WinEnt :=
  { x with ctrl := s.mbxD 0x13 0 &&& 0x00FFF31F#32, offset := (s.mbxD 0x13 1).toNat, trigger := s.mbxD 0x13 2 &&& 0x7FFF#32 }

section Commands

variable {s : State} {arg : BitVec 16} (idle : s.mbxBusy 0x13 = false)
include idle

/-- An ARG above the table is refused, whatever the command. -/
theorem State.winCommand_beyond (beyond : 255 < arg.toNat) (f : Nat → State → MbxAns × State) :
    s.winCommand arg f = s.winAnswered (.err 2) := by
  rw [State.winCommand, State.mbxCommand, State.mbxAccept_idle _ idle, if_pos beyond]
  rfl

variable (inTable : arg.toNat ≤ 255)
include inTable

/-- An accepted command on a window of the table: its answer waits in what it makes of the state. -/
theorem State.winCommand_accepted (f : Nat → State → MbxAns × State) : s.winCommand arg f = winReply (f arg.toNat s.winAccepted) := by
  rw [State.winCommand, State.mbxCommand, State.mbxAccept_idle _ idle, if_neg (by omega)]
  rfl

theorem exec_loadTimes : exec (.loadTimes arg) s = .next
    (if (s.win arg.toNat).armed then s.winAnswered (.err 1)
     else if 1000000000 ≤ (s.mbxD 0x13 1).toNat ∨ s.mbxD 0x13 2 = 0 then s.winAnswered (.err 2)
     else s.winUpdated arg.toNat s.loadedTimes) := by
  refine congrArg Host.Outcome.next ((State.winCommand_accepted idle inTable _).trans ?_)
  have noLength : (s.mbxD 0x13 2).toNat = 0 ↔ s.mbxD 0x13 2 = 0 := BitVec.toNat_inj (y := 0#32)
  simp only [apply_ite winReply, State.mbxD_winAccepted, Nat.reduceLT, noLength]
  rfl

theorem exec_loadCtrl : exec (.loadCtrl arg) s = .next
    (if (s.win arg.toNat).armed then s.winAnswered (.err 1)
     else if 4 < bits (s.mbxD 0x13 0) 0 3 then s.winAnswered (.err 3)
     else s.winUpdated arg.toNat s.loadedCtrl) := by
  refine congrArg Host.Outcome.next ((State.winCommand_accepted idle inTable _).trans ?_)
  simp only [apply_ite winReply, State.mbxD_winAccepted, Nat.reduceLT]
  rfl

theorem exec_winArm : exec (.winArm arg) s = .next
    (if (s.win arg.toNat).armed then s.winAnswered .done
     else if (s.win arg.toNat).length = 0 ∨ ((s.win arg.toNat).kind = 1 ∧ (s.win arg.toNat).period ≤ (s.win arg.toNat).length) then
       s.winAnswered (.err 2)
     else s.winUpdated arg.toNat fun x => { x with armed := true, inst := none }) := by
  refine congrArg Host.Outcome.next ((State.winCommand_accepted idle inTable _).trans ?_)
  simp only [apply_ite winReply]
  rfl

theorem exec_winDisarm : exec (.winDisarm arg) s = .next (winReply (.done, s.winAccepted.winDisarm arg.toNat)) :=
  congrArg Host.Outcome.next (State.winCommand_accepted idle inTable _)

theorem exec_readTimes : exec (.readTimes arg) s = .next (s.winAnswered (.ok (some (s.win arg.toNat).open_.sec)
    (some (w32 (s.win arg.toNat).open_.ns)) (some (w32 (s.win arg.toNat).length)) (some (w32 (s.win arg.toNat).period)))) :=
  congrArg Host.Outcome.next (State.winCommand_accepted idle inTable _)

theorem exec_readCtrl : exec (.readCtrl arg) s = .next (s.winAnswered (.ok (some (s.win arg.toNat).ctrl)
    (some (w32 (s.win arg.toNat).offset)) (some (s.win arg.toNat).trigger) (some (w32 (b2n (s.win arg.toNat).armed))))) :=
  congrArg Host.Outcome.next (State.winCommand_accepted idle inTable _)

theorem exec_trigger : exec (.trigger arg) s = .next (winReply (.done, s.winAccepted.winTrigger arg.toNat s.now)) :=
  congrArg Host.Outcome.next (State.winCommand_accepted idle inTable _)

end Commands

/-- The commands of the WIN mailbox on window `arg`. -/
def winCommands (arg : BitVec 16) : List Instr :=
  [.loadTimes arg, .loadCtrl arg, .winArm arg, .winDisarm arg, .readTimes arg, .readCtrl arg, .trigger arg]

theorem exec_of_mem_winCommands {c : Instr} {arg : BitVec 16} (hc : c ∈ winCommands arg) (s : State) :
    ∃ f, exec c s = .next (s.winCommand arg f) := by
  simp only [winCommands, List.mem_cons, List.not_mem_nil, or_false] at hc
  obtain rfl | rfl | rfl | rfl | rfl | rfl | rfl := hc
  all_goals exact ⟨_, rfl⟩

/-! The state bit of a window (R93). -/

theorem State.setHas_winOpen_setWinBit (s : State) (w : Nat) (b : Bool) (t : TimePoint) :
    setHas (s.setWinBit w b t).winOpen w = b := by
  unfold State.setWinBit
  split
  · assumption
  · extract_lets u
    have stored : setHas u.winOpen w = b := by
      cases b
      · exact setHas_setDel s.winOpen w
      · exact setHas_setAdd s.winOpen w
    split
    · have changed : Frame (fun p => p ∈ Part.ruleUnit) u (u.operandChanged (448 + w) t) :=
        State.operandChanged_frame (Frame.refl _ u) _ t (.of_coveredBy rfl)
      rwa [changed.winOpen (by decide)]
    · exact stored

theorem State.setWinBit_touches (s : State) (w : Nat) (b : Bool) (t : TimePoint) :
    Frame (fun p => p ∈ Part.ruleUnit ++ [.winOpen]) s (s.setWinBit w b t) :=
  State.setWinBit_frame (Frame.refl _ s) w b t (.of_coveredBy rfl)

theorem State.winDisarm_spec (s : State) (w : Nat) :
    ((s.winDisarm w).win w).armed = false ∧ setHas (s.winDisarm w).winOpen w = false ∧ (∀ e ∈ (s.winDisarm w).winEdges, e.win ≠ w) ∧
    ∀ v, v ≠ w → (s.winDisarm w).win v = s.win v := by
  let u := s.setWin w fun x => { x with armed := false, inst := none }
  have wins : (s.winDisarm w).wins = u.wins := (u.setWinBit_touches w false s.nextEdge).wins (by decide)
  have win : ∀ v, (s.winDisarm w).win v = u.win v := fun v => by rw [State.win, wins, State.win]
  refine ⟨?_, u.setHas_winOpen_setWinBit w false s.nextEdge, fun e listed => ?_, fun v other => ?_⟩
  · rw [win, State.win_setWin_same]
  · exact of_decide_eq_true (List.mem_filter.mp listed).2
  · rw [win, State.win_setWin_ne _ _ other]

/-- Settles O27: each command's answer is its `exec` law above; an ARG above the table is refused before the command looks at a window. -/
theorem windowsAreLoadedArmedAndRead : Obligations.WindowsAreLoadedArmedAndRead := by
  unfold Obligations.WindowsAreLoadedArmedAndRead
  refine ⟨fun s arg idle inTable => ?_, fun s arg c idle beyond listed => ?_⟩
  · refine ⟨⟨fun disarmed ns length => ?_, fun disarmed unsound => ?_, fun armed => ⟨?_, ?_⟩, fun disarmed kind => ?_,
      fun disarmed kind => ?_⟩, ⟨fun disarmed length period => ?_, fun disarmed unsound => ?_, fun armed => ?_⟩, ?_, ?_, ?_⟩
    · rw [exec_loadTimes idle inTable, if_neg (ne_true_of_eq_false disarmed), if_neg (not_or.mpr ⟨Nat.not_le.mpr ns, length⟩)]
      exact ⟨_, rfl, s.winUpdated_spec _ _⟩
    · rw [exec_loadTimes idle inTable, if_neg (ne_true_of_eq_false disarmed), if_pos unsound]
      exact ⟨_, rfl, s.winAnswered_spec _⟩
    · rw [exec_loadTimes idle inTable, if_pos armed]
      exact ⟨_, rfl, s.winAnswered_spec _⟩
    · rw [exec_loadCtrl idle inTable, if_pos armed]
      exact ⟨_, rfl, s.winAnswered_spec _⟩
    · rw [exec_loadCtrl idle inTable, if_neg (ne_true_of_eq_false disarmed), if_neg (Nat.not_lt.mpr kind)]
      exact ⟨_, rfl, s.winUpdated_spec _ _⟩
    · rw [exec_loadCtrl idle inTable, if_neg (ne_true_of_eq_false disarmed), if_pos kind]
      exact ⟨_, rfl, s.winAnswered_spec _⟩
    · rw [exec_winArm idle inTable, if_neg (ne_true_of_eq_false disarmed),
        if_neg (not_or.mpr ⟨length, fun ⟨recurring, short⟩ => absurd (period recurring) (Nat.not_lt.mpr short)⟩)]
      exact ⟨_, rfl, s.winUpdated_spec _ _⟩
    · rw [exec_winArm idle inTable, if_neg (ne_true_of_eq_false disarmed), if_pos unsound]
      exact ⟨_, rfl, s.winAnswered_spec _⟩
    · rw [exec_winArm idle inTable, if_pos armed]
      exact ⟨_, rfl, s.winAnswered_spec _⟩
    · exact ⟨_, exec_winDisarm idle inTable, winReply_job _, s.winAccepted.winDisarm_spec arg.toNat⟩
    · exact ⟨_, exec_readTimes idle inTable, (s.winAnswered_spec _).symm⟩
    · exact ⟨_, exec_readCtrl idle inTable, (s.winAnswered_spec _).symm⟩
  · obtain ⟨f, command⟩ := exec_of_mem_winCommands listed s
    obtain ⟨job, wins⟩ := s.winAnswered_spec (.err 2)
    exact ⟨_, command.trans (congrArg _ (State.winCommand_beyond idle beyond f)), job, wins, rfl⟩

end Sys2Proof.Machine
end

section
/-! Windows at work: a trigger that is taken or ignored (R91, R92), and the judgement of an edge (R94–R98). -/

namespace Sys2Proof.Machine

/-! Triggers. -/

/-- A trigger of an armed window is taken: of KIND 2 to 4, and with RETRIGGER = 0 only where no earlier one is still current (R92). -/
def State.takesTrigger (s : State) (x : WinEnt) : Bool :=
  decide (2 ≤ x.kind) && (bit x.ctrl 4 || !(x.inst.any fun o => !timeReached s.now (x.close o)))

/-- A window opened by a trigger at `e`, after its offset (R91). -/
def WinEnt.triggered (e : TimePoint) (x : WinEnt) : WinEnt := { x with inst := some (timeAdd e x.offset) }

theorem State.winTrigger_disarmed {s : State} {w : Nat} (e : TimePoint) (disarmed : (s.win w).armed = false) : s.winTrigger w e = s := by
  simp [State.winTrigger, disarmed]

theorem State.winTrigger_armed {s : State} {w : Nat} (e : TimePoint) (armed : (s.win w).armed = true) :
    s.winTrigger w e = if s.takesTrigger (s.win w) then s.setWin w (.triggered e) else s.winIgnored := by
  unfold State.winTrigger State.takesTrigger
  extract_lets x busy
  have current : busy = x.inst.any fun o => !timeReached s.now (x.close o) := by
    unfold busy
    cases x.inst <;> rfl
  rw [current, if_neg (by simp [x, armed])]
  by_cases one : x.kind < 2
  · rw [if_pos one, if_neg (by simp [show ¬ 2 ≤ (s.win w).kind from Nat.not_le.mpr one])]
  · rw [if_neg one, decide_eq_true (show 2 ≤ x.kind by omega)]
    cases bit x.ctrl 4 <;> cases (x.inst.any fun o => !timeReached s.now (x.close o)) <;> rfl

/-- A trigger ignored is counted and raises its bit, and leaves the windows. -/
theorem State.winIgnored_spec (s : State) : s.winIgnored.wins = s.wins ∧
    s.winIgnored.rd Reg.winCntRetrigIgn = satInc (s.rd Reg.winCntRetrigIgn) ∧ s.winIgnored.Raised 0x13 1 := by
  refine ⟨((s.bump _).raise_touches 0x13 1).wins (by decide), ?_, State.raise_raised _ _ (by decide)⟩
  rw [State.winIgnored, State.raise_rd_ne _ _ (by decide), State.rd_bump_same]

/-! Classification. -/

/-- The raw result of edge `e` of window `x` against the open it is judged by: 3 where there is none (R95, R96). -/
def WinEnt.rawResult (x : WinEnt) (e : WinEdge) : Option TimePoint → Nat
  | some o => classify e.time e.unc o (x.close o)
  | none => 3

/-- An edge counted by its raw result. -/
def State.winCounted (s : State) (raw : Nat) : State :=
  if raw = 2 then (s.bump Reg.winCntResult).bump Reg.winCntBoundary else s.bump Reg.winCntResult

theorem State.winCounted_spec (s : State) (raw : Nat) :
    (s.winCounted raw).rd Reg.winCntResult = satInc (s.rd Reg.winCntResult) ∧
    (s.winCounted raw).rd Reg.winCntBoundary = if raw = 2 then satInc (s.rd Reg.winCntBoundary) else s.rd Reg.winCntBoundary := by
  have result : Reg.winCntResult ≠ Reg.winCntBoundary := by decide
  unfold State.winCounted
  split
  · exact ⟨by rw [State.rd_bump_ne _ result, State.rd_bump_same], by rw [State.rd_bump_same, State.rd_bump_ne _ result.symm]⟩
  · exact ⟨State.rd_bump_same s _, State.rd_bump_ne s result.symm⟩

/-- A record keeps the interrupt bit that was raised before it. -/
theorem State.raise_postAt_raised (s : State) {page b ty inst flags q : Nat} {bl : Block} {t : TimePoint} {w4 w5 w6 w7 : Word} (hb : b < 32) :
    ((s.raise page b).postAt ty bl inst flags t q w4 w5 w6 w7).Raised page b :=
  ((Reported.refl (W := fun _ => False) _).postAt ty bl inst flags t q w4 w5 w6 w7).raised (s.raise_raised page hb)

/-- An edge classified: it is counted, and where REPORT selects its result the bit is raised and a record follows. -/
theorem State.winClassify_reported (s : State) (e : WinEdge) :
    let x := s.win e.win
    let raw := x.rawResult e (s.judged x e)
    Reported (fun _ => False) (s.winCounted raw) (s.winClassify e) ∧
    (bit x.ctrl (12 + raw) = true → (s.winClassify e).Raised 0x13 0) := by
  intro x raw
  unfold State.winClassify
  extract_lets -merge _ _ _ _ _ v
  have counted : v = s.winCounted raw := by
    unfold State.winCounted
    rfl
  rw [← counted]
  split
  · exact ⟨((Reported.refl v).raise 0x13 0).postAt _ _ _ _ _ _ _ _ _ _, fun _ => v.raise_postAt_raised (by decide)⟩
  · next silent => exact ⟨.refl v, fun selected => absurd selected silent⟩

theorem State.winClassify_winEdges (s : State) (e : WinEdge) : (s.winClassify e).winEdges = s.winEdges :=
  (State.winClassify_frame (P := fun p => p ∈ Part.reports ++ [.regWin]) (Frame.refl _ s) e (.of_coveredBy rfl)).winEdges (by decide)

theorem exec_windowClassify {s : State} {i : Nat} {e : WinEdge} {rest : List WinEdge} (next : s.winEdges.drop i = e :: rest) :
    exec (.windowClassify i) s = .next
    (if timeReached s.now (timeAdd e.time (s.fld Reg.winSettle 0 16)) then { s with winEdges := s.winEdges.take i ++ rest }.winClassify e
     else s) := by
  show execWindowClassify i s = _
  rw [execWindowClassify, next]

/-- Settles O28: a trigger of an armed window is `winTrigger_armed`, the state bit is what `setWinBit` sets, and an edge is counted and
reported by its raw result. -/
theorem windowsOpenCloseAndJudgeEdges : Obligations.WindowsOpenCloseAndJudgeEdges := by
  unfold Obligations.WindowsOpenCloseAndJudgeEdges
  refine ⟨fun s arg idle inTable armed => ?_, fun s arg idle inTable disarmed => ?_, fun s w => ?_,
    fun s i e rest next settled => ?_, fun s i e rest next early => ?_⟩
  · intro x taken
    have triggered := State.winTrigger_armed (s := s.winAccepted) (w := arg.toNat) s.now armed
    refine ⟨_, exec_trigger idle inTable, winReply_job _, fun made => ?_, fun ignored => ?_⟩
    · rw [triggered.trans (if_pos made)]
      exact ⟨congrArg WinEnt.inst (s.winAccepted.win_setWin_same arg.toNat (.triggered s.now)), s.winAccepted_rd (by decide)⟩
    · obtain ⟨wins, count, raised⟩ := s.winAccepted.winIgnored_spec
      rw [triggered.trans (if_neg (ne_true_of_eq_false ignored))]
      exact ⟨congrArg (Tab.get WinEnt.init · arg.toNat) wins, count.trans (congrArg satInc (s.winAccepted_rd (by decide))), raised⟩
  · have left := State.winTrigger_disarmed (s := s.winAccepted) (w := arg.toNat) s.now disarmed
    refine ⟨_, exec_trigger idle inTable, winReply_job _, ?_⟩
    rw [left]
    exact ⟨rfl, fun k => s.winAccepted_rd⟩
  · exact ⟨_, rfl, s.setHas_winOpen_setWinBit w _ _, (s.setWinBit_touches w _ _).wins (by decide)⟩
  · intro x raw
    let u : State := { s with winEdges := s.winEdges.take i ++ rest }
    obtain ⟨reported, raised⟩ := u.winClassify_reported e
    obtain ⟨result, boundary⟩ := u.winCounted_spec raw
    refine ⟨u.winClassify e, ?_, u.winClassify_winEdges e, ?_, ?_, raised⟩
    · rw [exec_windowClassify next, if_pos settled]
    · exact (reported.rd (by decide) (by decide) id).trans result
    · exact (reported.rd (by decide) (by decide) id).trans boundary
  · rw [exec_windowClassify next, if_neg (ne_true_of_eq_false early)]

end Sys2Proof.Machine
end

section
/-! Arming a drill entry (R106, R119): what ARM does to an entry that may be armed, what it leaves where no repetition is missed, and a first
target half the range of the seconds away, which R55 keeps software from comparing and which is earlier than now by R54 either way. -/

namespace Sys2Proof.Machine

/-- Seconds 2^31 apart are negative as a signed number whichever is subtracted, so each of the two times is earlier than the other. -/
theorem timeDiff_neg_of_half_range {a b : TimePoint} (half : a.sec - b.sec = 0x80000000#32) (ns : a.ns < 1000000000 + b.ns) :
    timeDiff a b < 0 := by
  have seconds : (a.sec - b.sec).toInt = -2147483648 := by
    rw [half]
    rfl
  rw [timeDiff, seconds]
  omega

/-! Arming with nothing missed. -/

/-- The first target of an entry that is armed at `now` (R106). -/
def DrillEnt.firstTarget (e : DrillEnt) (now : TimePoint) : TimePoint :=
  if bit e.action 6 then timeAdd now ((e.sec.toNat : Int) * 1000000000 + e.ns.toNat) else ⟨e.sec, e.ns.toNat⟩

/-- A target that is not before the counter by R54 leaves no repetition missed. -/
theorem DrillEnt.missed_eq_zero {e : DrillEnt} {now : TimePoint} (ahead : timeDiff now e.target ≤ 0) : e.missed now = 0 := by
  have none_due : (timeDiff now e.target).toNat = 0 := Int.toNat_of_nonpos ahead
  rw [DrillEnt.missed, if_pos none_due]
  by_cases endless : e.count = 0
  · exact if_pos endless
  · rw [if_neg endless, capAt_eq_min, Nat.min_zero]

theorem State.drillJudge_of_none_missed {s : State} {n : Nat} {now : TimePoint} (step : Bool) (none_missed : (s.drl n).missed now = 0) :
    s.drillJudge n now step = s.setDrl n fun x => { x with short := decide (timeDiff x.target now < 1000) } := by
  simp only [State.drillJudge, none_missed, if_true]

/-- Where no repetition is missed, arming changes the drill's table alone: nothing is counted, posted or raised (R119). -/
theorem State.drillArm_of_none_missed {s : State} {n : Nat} {now : TimePoint}
    (ahead : timeDiff now ((s.drl n).firstTarget now) ≤ 0) : ∃ table, s.drillArm n now = { s with drill := table } := by
  refine ⟨_, State.drillJudge_of_none_missed false (DrillEnt.missed_eq_zero ?_)⟩
  rw [State.drl_setDrl_same]
  exact ahead

/-! The ARM command. -/

/-- The DRL mailbox has accepted a command that reads entry `n` (R32, R109). -/
def State.drlRead (s : State) (n : Nat) (ecc : ReadEcc) : State := (s.wr (Reg.mbxFlag 0x12) 2).drillEcc n ecc

/-- What a command of the DRL mailbox answers waits for the completion in the state that it leaves (R33). -/
def drlReply (r : MbxAns × State) : State := r.2.mbxAnswer 0x12 r.1

/-- An accepted command that reads an entry of the table without an uncorrectable error. -/
theorem State.drlReading_usable {s : State} {arg : BitVec 16} {ecc : ReadEcc} (idle : s.mbxBusy 0x12 = false)
    (inTable : arg.toNat ≤ 4095) (usable : eccUsable ecc = true) (f : Nat → State → MbxAns × State) :
    s.drlReading arg ecc f = drlReply (f arg.toNat (s.drlRead arg.toNat ecc)) := by
  rw [State.drlReading, State.drlCommand, State.mbxCommand, State.mbxAccept_idle _ idle, if_neg (Nat.not_lt.mpr inTable), if_pos usable]
  rfl

/-- ARM of an entry of the table that is LOADED or DONE and whose period is sound arms it at the TCLK edge that follows (R106, R110, R111). -/
theorem exec_drlArm_sound {s u : State} {arg : BitVec 16} {ecc : ReadEcc} (idle : s.mbxBusy 0x12 = false) (inTable : arg.toNat ≤ 4095)
    (usable : eccUsable ecc = true) (read : s.drlRead arg.toNat ecc = u)
    (takes : (u.drl arg.toNat).st = .loaded ∨ (u.drl arg.toNat).st = .done) (sound : (u.drl arg.toNat).periodOk = true) :
    ∃ A, exec (.drlArm arg ecc) s = .next (drlReply (A, u.drillArm arg.toNat u.nextEdge)) := by
  subst read
  have not_refused : ¬ (!((s.drlRead arg.toNat ecc).drl arg.toNat).periodOk) = true := by simp [sound]
  have answered := State.drlReading_usable idle inTable usable
  exact ⟨_, congrArg Host.Outcome.next ((answered _).trans
    (congrArg drlReply ((if_neg (not_not_intro takes)).trans (if_neg not_refused))))⟩

/-! The counterexample. -/

/-- After reset, entry 0 loaded with a LINE_SET, once, at second 2^31: the counter stands at 0. -/
def halfRangeAway : State := State.reset.setDrl 0 fun e =>
  { e with st := .loaded, sec := 0x80000000, action := 1, count := 1, hasTime := true, hasAction := true }

/-- The state in which ARM of `halfRangeAway`'s entry 0 is carried out. -/
def halfRangeRead : State := halfRangeAway.drlRead 0 .clean

theorem halfRangeRead_nextEdge : halfRangeRead.nextEdge = ⟨0, 40⟩ := by decide

theorem halfRangeRead_firstTarget : (halfRangeRead.drl 0).firstTarget halfRangeRead.nextEdge = ⟨0x80000000, 0⟩ := by decide

theorem halfRangeAway_idle : halfRangeAway.mbxBusy 0x12 = false := by decide

/-- The moment of arming is before the target by R54, so that ARM misses no repetition and raises nothing. -/
theorem exec_drlArm_halfRangeAway : ∃ t, exec (.drlArm 0 .clean) halfRangeAway = .next t ∧ ¬ t.Raised 0x12 0 := by
  have ahead : timeDiff halfRangeRead.nextEdge ⟨0x80000000, 0⟩ < 0 := by
    rw [halfRangeRead_nextEdge]
    exact timeDiff_neg_of_half_range rfl (by decide)
  obtain ⟨A, executed⟩ := exec_drlArm_sound (arg := 0) halfRangeAway_idle (by decide) rfl (show _ = halfRangeRead from rfl) (.inl rfl) rfl
  obtain ⟨table, armed⟩ := State.drillArm_of_none_missed (s := halfRangeRead) (n := 0) (halfRangeRead_firstTarget ▸ ahead.le)
  have calm : ¬ halfRangeRead.Raised 0x12 0 := by decide
  refine ⟨_, executed, ?_⟩
  change ¬ (drlReply (A, halfRangeRead.drillArm 0 halfRangeRead.nextEdge)).Raised 0x12 0
  rw [armed]
  exact calm

/-- Refutes O29: the clause on an entry late at arming fails for a target exactly 2^31 s from the moment of arming. By R54 the target of
`halfRangeAway` is before that moment, so that the clause asks for DRILL_LATE; by R54 that moment is before the target too, so that no
repetition is missed and nothing is reported. R55 keeps such times out of comparisons, but the statement does not. -/
theorem not_drillEntriesAreLoadedArmedAndRead : ¬ Obligations.DrillEntriesAreLoadedArmedAndRead := by
  intro h
  have late : timeDiff ⟨0x80000000, 0⟩ halfRangeRead.nextEdge < 0 := by
    rw [halfRangeRead_nextEdge]
    exact timeDiff_neg_of_half_range rfl (by decide)
  obtain ⟨-, -, arm, -⟩ := h.1 halfRangeAway 0 .clean halfRangeAway_idle (by decide) rfl
  obtain ⟨t, x, armed, -, -, raised, -⟩ := (arm (.inl rfl) rfl).2 late
  obtain ⟨u, executed, quiet⟩ := exec_drlArm_halfRangeAway
  cases armed.symm.trans executed
  exact quiet raised

end Sys2Proof.Machine
end

section
/-! Accesses that reach the pages of tiles, channels and CAN controllers and need not wait (R27, R128): a write is the page's own from the
tiles that the access leaves, and a read of a word answers it. -/

namespace Sys2Proof.Machine

/-- A page that the steward does not own is reached while the clock of its tile, where it has one, runs. -/
theorem State.reaches_of_running {s : State} (a : Agent) {page : Nat} {b : Block} {i : Nat} (up : s.hubUp = true)
    (assigned : pageBlock page = some (b, i)) (shared : stewardOwned b = false)
    (running : ∀ t, tileOfPage page = some t → (s.tile t).clk = .running) : s.Reaches a page b i := by
  have low := pageBlock_lt assigned
  have address : tileOfAddr (pageKey page 0) = tileOfPage page := by
    rw [tileOfAddr, pageKey, if_pos (by omega), show (page * 0x1000 + 0) / 0x1000 = page by omega]
  refine ⟨up, assigned, fun owned => absurd owned (by simp [shared]), ?_⟩
  rw [State.stalledTile, address, Option.filter_eq_none_iff]
  intro t tile
  simp [running t tile]

theorem State.reaches_ch {s : State} (a : Agent) {c : Nat} (hc : c < 64) (ready : s.TileReady (c / 8)) : s.Reaches a (0x80 + c) .ch c := by
  obtain ⟨up, running⟩ := ready
  refine State.reaches_of_running a up (pageBlock_ch hc) rfl fun t tile => ?_
  rw [tileOfPage_ch hc] at tile
  rwa [← Option.some.inj tile]

theorem State.reaches_tile {s : State} (a : Agent) {n : Nat} (hn : n < 8) (ready : s.TileReady n) : s.Reaches a (0x40 + n) .tile n := by
  obtain ⟨up, running⟩ := ready
  refine State.reaches_of_running a up (pageBlock_tile hn) rfl fun t tile => ?_
  rw [tileOfPage_tile hn] at tile
  rwa [← Option.some.inj tile]

/-- A CAN page has no tile. -/
theorem State.reaches_can {s : State} (a : Agent) {n : Nat} (hn : n < 16) (up : s.hubUp = true) : s.Reaches a (canPage n) .can n := by
  refine State.reaches_of_running a up (pageBlock_can hn) rfl fun t tile => ?_
  rw [canPage, tileOfPage, if_neg (by omega), if_neg (by omega)] at tile
  cases tile

/-- A write of a channel's own register. -/
theorem State.chReg_ready {s : State} {c off : Nat} (v : Word) (hc : c < 64) (ready : s.TileReady (c / 8)) (low : 0x050 ≤ off)
    (high : off < 0x800) (aligned : off % 4 = 0) (notClear : cntClrOff .ch ≠ some off) :
    ∃ x, s.chReg c off v = ((s.withTiles x).chWrite c off v).written :=
  State.agentReg_entered v (State.reaches_ch .host hc ready) high aligned (f := (·.chWrite c off v))
    fun _ => s.pageWrite_ch .host v hc low high notClear

/-- A write of a tile's own register. -/
theorem State.tileReg_ready {s : State} {n off : Nat} (v : Word) (hn : n < 8) (ready : s.TileReady n) (low : 0x050 ≤ off)
    (high : off < 0x800) (aligned : off % 4 = 0) : ∃ x, s.tileReg n off v = ((s.withTiles x).tileWrite n off v).written :=
  State.agentReg_entered v (State.reaches_tile .host hn ready) high aligned (f := (·.tileWrite n off v))
    fun _ => s.pageWrite_tile .host v hn low high

/-- A read of a word that the agent reaches and that waits for no indirect domain: the page's own read, answered with its word. -/
theorem State.agentRead_reached {s : State} {a : Agent} {page off : Nat} {b : Block} {i : Nat} (h : s.Reaches a page b i)
    (ho : off < 0x1000) (h4 : off % 4 = 0) (h8 : off ≠ 0x800) :
    s.agentRead a (pageKey page off) 4 = (s.pageRead a page off).2.answered (s.pageRead a page off).1 := by
  obtain ⟨up, assigned, own, noTile⟩ := h
  have low := pageBlock_lt assigned
  have address : pageKey page off < 0x1000000 := by unfold pageKey; omega
  have inPage : pageKey page off / 0x1000 = page ∧ pageKey page off % 0x1000 = off := by unfold pageKey; omega
  have size : readSizeOk off 4 = true := by
    unfold readSizeOk
    split
    · simp [h4]
    · simp [h4]
  have taken : s.turnedAway (s.localOrigin a) (pageKey page off) 4 = none := by rw [s.turnedAway_page assigned own ho, if_pos up]
  have reaches : s.readReaches (s.localOrigin a) (pageKey page off) 4 = true := by
    simp [State.readReaches, taken, inPage, size]
  have read : s.busRead (s.localOrigin a) (pageKey page off) 4 =
      (0, wordBytes (s.pageRead a page off).1, (s.pageRead a page off).2) := by
    have whole : off / 4 * 4 = off ∧ (off % 4 + 4 + 3) / 4 = 1 ∧ off % 4 = 0 := by omega
    simp only [State.busRead, taken, if_pos address, inPage, size, whole, if_true]
    rfl
  rw [State.agentRead, if_pos reaches, (s.stalledTile_page ho).trans noTile, indPage_off ho h8, State.readNow, read]
  rfl

end Sys2Proof.Machine
end

section
/-! The consumer's side of a FIFO (R145, R149–R151): a word read, an underrun, packets dropped and flushed. -/

namespace Sys2Proof.Machine

/-! The registers and the packets that the shared operations leave. -/

@[simp] theorem State.fifo_withTiles (s : State) (x : Tab TileSt) (id : Nat) : (s.withTiles x).fifo id = s.fifo id := rfl
@[simp] theorem State.fifo_written (s : State) (id : Nat) : s.written.fifo id = s.fifo id := rfl
@[simp] theorem State.fifo_answered (s : State) (w : Word) (id : Nat) : (s.answered w).fifo id = s.fifo id := rfl
@[simp] theorem State.fifo_sramSet (s : State) (k : Nat) (w : Word) (id : Nat) : (s.sramSet k w).fifo id = s.fifo id := rfl

theorem State.fifo_congr {s t : State} (h : t.fifos = s.fifos) (id : Nat) : t.fifo id = s.fifo id := by
  rw [State.fifo, h, State.fifo]

theorem State.fifoBump_fifos (s : State) (id : Nat) (x : FifoCnt) (n : Nat) : (s.fifoBump id x n).fifos = s.fifos := by
  unfold State.fifoBump
  split <;> rfl

theorem State.fifo_fifoBump (s : State) (id : Nat) (x : FifoCnt) (n j : Nat) : (s.fifoBump id x n).fifo j = s.fifo j :=
  State.fifo_congr (s.fifoBump_fifos id x n) j

/-- A FIFO's event raised and counted: its counter, where it has one. -/
theorem State.rd_fifoBump {id : Nat} {x : FifoCnt} {k : Nat} (s : State) (counter : fifoCounter id x = some k) (n : Nat) :
    (s.fifoBump id x n).rd k = w32 (capAt 0xFFFFFFFF ((s.rd k).toNat + n)) := by
  rw [State.fifoBump, counter]
  exact s.rd_bumpBy_same k n

theorem fifoCounter_rxUnderrun {c : Nat} (hc : c < 64) : fifoCounter (rxFifo c) .underrun = some (Reg.chCntRxUnderrun c) := by
  have receives : fifoIsTx (2 * c) = false := decide_eq_false (by omega)
  simp only [rxFifo, fifoCounter, if_pos (show 2 * c < 128 by omega), receives, Nat.mul_div_cancel_left c Nat.two_pos]

/-- The counters of a TX FIFO that its commands and its producer advance. -/
theorem fifoCounter_tx {c : Nat} (hc : c < 64) : fifoCounter (txFifo c) .dropped = some (Reg.chCntTxDropped c) ∧
    fifoCounter (txFifo c) .rewind = some (Reg.chCntTxRewind c) := by
  have sends : fifoIsTx (2 * c + 1) = true := decide_eq_true (by omega)
  have channel : (2 * c + 1) / 2 = c := by omega
  simp only [txFifo, fifoCounter, if_pos (show 2 * c + 1 < 128 by omega), sends, channel, and_self]

/-! Reading (R145, R151). -/

/-- The packets after the next word of the oldest is read: its last word takes it away. -/
def pktsRead (id : Nat) : List FifoPkt → List FifoPkt
  | p :: rest => if p.complete = true ∧ pktSpan id p ≤ p.read + 1 then rest else { p with begun := true, read := p.read + 1 } :: rest
  | [] => []

theorem State.rxDataRead_word {s : State} {id : Nat} (avail : s.fifoAvail id ≠ 0) :
    s.rxDataRead id = (s.sramGet (s.fifoKey id (s.fifo id).rd), s.setFifo id fun f => { f with
      rd := f.rd + 1, lastRead := s.sramGet (s.fifoKey id (s.fifo id).rd), pkts := pktsRead id (s.fifo id).pkts }) := by
  unfold State.rxDataRead
  rw [if_neg avail]
  cases (s.fifo id).pkts <;> rfl

/-- A FIFO's event posted leaves the FIFOs. -/
theorem State.fifoPost_fifos (s : State) (id ty irq flags : Nat) (w5 : Word) : (s.fifoPost id ty irq flags w5).fifos = s.fifos := by
  unfold State.fifoPost
  split
  · exact ((s.raise_touches _ _).trans (State.post_touches _ _ _ _ _ _ _ _ _)).fifos (by decide)
  · rfl

/-- A read with nothing readable: the value last read, and the underrun marked and counted. -/
theorem State.rxDataRead_underrun {s : State} {id : Nat} (empty : s.fifoAvail id = 0) :
    (s.rxDataRead id).1 = (s.fifo id).lastRead ∧ (s.rxDataRead id).2.fifo id = { s.fifo id with underrun := true } ∧
      ∀ k, fifoCounter id .underrun = some k → k % 0x1000 ≠ 0x010 → k / 0x1000 ≠ 0x24 →
        (s.rxDataRead id).2.rd k = w32 (capAt 0xFFFFFFFF ((s.rd k).toNat + 1)) := by
  let u := (s.setFifo id fun f => { f with underrun := true }).fifoBump id .underrun 1
  have answer : s.rxDataRead id = ((s.fifo id).lastRead,
      if (s.fifo id).underrun then u else u.fifoPost id 0x2B 5 0 (u.fifoCount id .underrun)) := if_pos empty
  have marked : u.fifo id = { s.fifo id with underrun := true } := by
    rw [State.fifo_fifoBump, State.fifo_setFifo_same]
  have reported : Reported (fun _ => False) u (s.rxDataRead id).2 := by
    rw [answer]
    exact .ite (fun _ => .refl u) fun _ => (Reported.refl u).fifoPost _ _ _ _ _
  refine ⟨by rw [answer], ?_, fun k counter irq evq => ?_⟩
  · rw [answer, ← marked]
    split
    · rfl
    · exact State.fifo_congr (State.fifoPost_fifos _ _ _ _ _ _) id
  · exact (reported.rd irq evq not_false).trans (State.rd_fifoBump _ counter 1)

/-! Dropping and flushing (R149, R150). -/

theorem State.txEmptyIrq_fifos (s : State) (id : Nat) : (s.txEmptyIrq id).fifos = s.fifos := (s.raise_touches _ _).fifos (by decide)

/-- The oldest packet is removed and counted. -/
theorem State.dropOldest_cons {s : State} {id : Nat} {p : FifoPkt} {rest : List FifoPkt} (packets : (s.fifo id).pkts = p :: rest) :
    ((s.dropOldest id).fifo id).pkts = rest ∧
      ∀ k, fifoCounter id .dropped = some k → k ≠ Reg.irqPend (fifoPage id) →
        (s.dropOldest id).rd k = w32 (capAt 0xFFFFFFFF ((s.rd k).toNat + 1)) := by
  simp only [State.dropOldest, packets]
  generalize removed : s.setFifo id _ = u
  have kept : (u.fifo id).pkts = rest := by rw [← removed, State.fifo_setFifo_same]
  have counted (k : Nat) (counter : fifoCounter id .dropped = some k) :
      (u.fifoBump id .dropped 1).rd k = w32 (capAt 0xFFFFFFFF ((s.rd k).toNat + 1)) := by
    rw [State.rd_fifoBump u counter, ← removed]
    rfl
  split
  · refine ⟨?_, fun k counter irq => ?_⟩
    · rw [State.fifo_congr (State.txEmptyIrq_fifos _ _), State.fifo_fifoBump, kept]
    · rw [State.txEmptyIrq, State.raise_rd_ne _ _ irq, counted k counter]
  · exact ⟨by rw [State.fifo_fifoBump, kept], fun k counter _ => counted k counter⟩

theorem State.dropOldest_pkts (s : State) (id : Nat) : ((s.dropOldest id).fifo id).pkts = (s.fifo id).pkts.tail := by
  cases packets : (s.fifo id).pkts with
  | nil => rw [State.dropOldest, packets, packets, List.tail_nil]
  | cons p rest => exact (State.dropOldest_cons packets).1

/-- As many drops as there are packets leave none. -/
theorem State.foldl_dropOldest (id : Nat) (l : List FifoPkt) (s : State) (enough : (s.fifo id).pkts.length ≤ l.length) :
    ((l.foldl (fun s _ => s.dropOldest id) s).fifo id).pkts = [] := by
  induction l generalizing s with
  | nil => exact List.eq_nil_of_length_eq_zero (Nat.le_zero.mp enough)
  | cons p l ih =>
    refine ih (s.dropOldest id) ?_
    rw [State.dropOldest_pkts, List.length_tail]
    exact Nat.sub_le_of_le_add enough

theorem State.fifoFlush_spec (s : State) (id : Nat) :
    ((s.fifoFlush id).fifo id).pkts = [] ∧ ((s.fifoFlush id).fifo id).underrun = false := by
  have none := State.foldl_dropOldest id (s.fifo id).pkts s (Nat.le_refl _)
  unfold State.fifoFlush
  rw [State.fifo_setFifo_same]
  exact ⟨none, rfl⟩

/-! The units' pages. -/

/-- A write of RX_CMD of a unit's page. -/
theorem State.rxCmd_ready {s : State} (u : Fin 80) (ready : s.UnitReady u) (v : Word) :
    ∃ x, s.agentReg .host (rxUnitPage u) (rxUnitCmd u) v = ((s.withTiles x).fifoCmd (rxUnit u) v).written := by
  obtain ⟨up, running⟩ := ready
  by_cases channel : u.val < 64
  · rw [rxUnitPage, rxUnitCmd, rxUnit, if_pos channel, if_pos channel, if_pos channel]
    exact State.chReg_ready v channel ⟨up, running channel⟩ (by decide) (by decide) (by decide) (by decide)
  · have can : u.val - 64 < 16 := by omega
    rw [rxUnitPage, rxUnitCmd, rxUnit, if_neg channel, if_neg channel, if_neg channel]
    exact State.agentReg_entered v (State.reaches_can .host can up) (by decide) (by decide) (f := (·.fifoCmd _ v))
      fun _ => s.pageWrite_can .host v can (by decide) (by decide) (by decide)

/-- A read of RX_DATA of a unit's page. -/
theorem exec_rxDataRead {s : State} {u : Fin 80} (ready : s.UnitReady u) :
    ∃ x, exec (.rxDataRead u) s = .next
      (((s.withTiles x).rxDataRead (rxUnit u)).2.answered ((s.withTiles x).rxDataRead (rxUnit u)).1) := by
  obtain ⟨up, running⟩ := ready
  show ∃ x, execRxDataRead u s = _
  by_cases channel : u.val < 64
  · have reaches := State.reaches_ch .host channel ⟨up, running channel⟩
    obtain ⟨x, entered⟩ := State.entered_of_reaches reaches
    have read : s.pageRead .host (0x80 + u) 0x804 = (s.withTiles x).rxDataRead (rxFifo u) := by
      rw [← entered, State.pageRead, pageBlock_ch channel]
      rfl
    rw [execRxDataRead, rxUnitPage, rxUnit, if_pos channel, if_pos channel,
      State.agentRead_reached reaches (by decide) (by decide) (by decide), read]
    exact ⟨x, rfl⟩
  · have can : u.val - 64 < 16 := by omega
    have read : s.pageRead .host (canPage (u.val - 64)) 0x804 = s.rxDataRead (canRxFifo (u.val - 64)) := by
      rw [State.pageRead, pageBlock_can can]
      rfl
    rw [execRxDataRead, rxUnitPage, rxUnit, if_neg channel, if_neg channel,
      State.agentRead_reached (State.reaches_can .host can up) (by decide) (by decide) (by decide), read]
    exact ⟨s.tiles, rfl⟩

end Sys2Proof.Machine
end

section
/-! The producer's side of a TX FIFO (R144, R152): a word written to TX_DATA opens a packet, fills it, completes it or is discarded. -/

namespace Sys2Proof.Machine

/-! Where a FIFO's words lie. -/

theorem State.fifoKey_congr {s t : State} {id : Nat} (cfg : t.rd (fifoCfg id) = s.rd (fifoCfg id)) (i : Nat) :
    t.fifoKey id i = s.fifoKey id i := by
  have words : t.fifoWords id = s.fifoWords id := by
    unfold State.fifoWords State.fld
    rw [cfg]
  unfold State.fifoKey State.fld
  rw [cfg, words]

theorem State.lastHeader_congr {s t : State} {id : Nat} (fifo : t.fifo id = s.fifo id) : t.lastHeader id = s.lastHeader id := by
  simp only [State.lastHeader, fifo]

theorem State.sramGet_sramSet_same (s : State) (k : Nat) (w : Word) : (s.sramSet k w).sramGet k = w := Tab.get_set_same

/-! A word written. -/

theorem State.txDataWrite_skips {s : State} {id : Nat} (w : Word) (skip : (s.fifo id).skip ≠ 0) :
    s.txDataWrite id w = (false, s.setFifo id fun f => { f with skip := f.skip - 1 }) := if_pos (Nat.pos_of_ne_zero skip)

/-- A header of length 0 opens nothing and is counted. -/
theorem State.txDataWrite_empty {s : State} {id : Nat} {w : Word} (skip : (s.fifo id).skip = 0) (between : (s.fifo id).writing = none)
    (length : bits w 0 16 = 0) : s.txDataWrite id w = (false, s.fifoBump id .rewind 1) := by
  simp only [State.txDataWrite, skip, between, length, Nat.lt_irrefl, if_true, if_false]

/-- The packet that a header opens. -/
def openedPkt (w : Word) : FifoPkt := ⟨0, 0, bits w 0 16, false, 0, false⟩

theorem State.txDataWrite_opens {s : State} {id : Nat} {w : Word} (skip : (s.fifo id).skip = 0) (between : (s.fifo id).writing = none)
    (length : bits w 0 16 ≠ 0) (free : s.fifoFree id ≠ 0) :
    let u := s.setFifo id fun f => { f with pkts := f.pkts ++ [openedPkt w] }
    s.txDataWrite id w = (false, u.sramSet (u.fifoKey id (u.lastHeader id)) w) := by
  have room : ¬ s.fifoFree id < 1 := by omega
  simp only [State.txDataWrite, skip, between, length, room, Nat.lt_irrefl, if_false, openedPkt]

/-- A packet after its next word. -/
def FifoPkt.grown (p : FifoPkt) : FifoPkt :=
  { p with words := p.words + 1, bytes := capAt p.declared (4 * (p.words + 1)), complete := decide ((p.declared + 3) / 4 ≤ p.words + 1) }

/-- What an update makes of a FIFO counts alone. -/
theorem State.setFifo_congr {s : State} {id : Nat} {f g : FifoSt → FifoSt} (h : f (s.fifo id) = g (s.fifo id)) :
    s.setFifo id f = s.setFifo id g := by
  rw [State.setFifo, h, State.setFifo]

theorem FifoSt.setLast_of_writing {f : FifoSt} {p : FifoPkt} (open_ : f.writing = some p) (g : FifoPkt → FifoPkt) :
    f.setLast g = { f with pkts := f.pkts.dropLast ++ [g p] } := by
  unfold FifoSt.writing at open_
  unfold FifoSt.setLast
  split at open_
  · next q _ =>
    split at open_
    · cases open_
    · rw [← Option.some.inj open_]
  · cases open_

theorem State.txDataWrite_fills {s : State} {id : Nat} {p : FifoPkt} (w : Word) (skip : (s.fifo id).skip = 0)
    (open_ : (s.fifo id).writing = some p) (free : s.fifoFree id ≠ 0) :
    (s.txDataWrite id w).2 = (s.sramSet (s.fifoKey id (s.lastHeader id + 1 + p.words)) w).setFifo id
      fun f => { f with pkts := f.pkts.dropLast ++ [p.grown] } := by
  have room : ¬ s.fifoFree id < 1 := by omega
  simp only [State.txDataWrite, skip, open_, room, Nat.lt_irrefl, if_false]
  exact State.setFifo_congr (FifoSt.setLast_of_writing open_ _)

/-! TX_DATA of a channel. -/

/-- The wake of a tile leaves the FIFOs, their words and every register but its own counter. -/
theorem State.tileWake_rest (s : State) (t : Nat) : (s.tileWake t).fifos = s.fifos ∧ (s.tileWake t).sram = s.sram ∧
    ∀ k, k ≠ Reg.tileCntWake t → (s.tileWake t).rd k = s.rd k := by
  unfold State.tileWake
  split
  · split
    · exact ⟨rfl, rfl, fun k => State.rd_bump_ne _⟩
    · exact ⟨rfl, rfl, fun _ _ => rfl⟩
  · exact ⟨rfl, rfl, fun _ _ => rfl⟩
  · exact ⟨rfl, rfl, fun _ _ => rfl⟩

theorem State.chTxWrite_rest (s : State) (c : Nat) (w : Word) :
    let u := (s.txDataWrite (txFifo c) w).2
    (s.chTxWrite c w).fifos = u.fifos ∧ (s.chTxWrite c w).sram = u.sram ∧
      ∀ k, k ≠ Reg.tileCntWake (c / 8) → (s.chTxWrite c w).rd k = u.rd k := by
  intro u
  unfold State.chTxWrite
  extract_lets was woken note
  have rest := u.tileWake_rest (c / 8)
  split
  · exact rest
  · exact rest

theorem exec_txDataWrite {s : State} {c : Fin 64} (ready : s.TileReady (c / 8)) (w : Word) :
    ∃ x, exec (.txDataWrite c w) s = .next ((s.withTiles x).chTxWrite c w).written := by
  obtain ⟨x, write⟩ := State.chReg_ready (off := 0x070) w c.isLt ready (by decide) (by decide) (by decide) (by decide)
  exact ⟨x, congrArg Host.Outcome.next write⟩

end Sys2Proof.Machine
end

section
/-! Packets pass a FIFO in order (R144, R145, R149–R152): each command of a consumer or producer, from the law of its operation. -/

namespace Sys2Proof.Machine

/-! The consumer's commands. -/

theorem exec_rxDropRest {s : State} {u : Fin 80} (ready : s.UnitReady u) :
    ∃ x, exec (.rxDropRest u) s = .next ((s.withTiles x).dropOldest (rxUnit u)).written := by
  obtain ⟨x, write⟩ := State.rxCmd_ready u ready 1
  exact ⟨x, congrArg Host.Outcome.next write⟩

theorem exec_rxFlush {s : State} {u : Fin 80} (ready : s.UnitReady u) :
    ∃ x, exec (.rxFlush u) s = .next ((s.withTiles x).fifoFlush (rxUnit u)).written := by
  obtain ⟨x, write⟩ := State.rxCmd_ready u ready 2
  exact ⟨x, congrArg Host.Outcome.next write⟩

theorem exec_rxUnderClr {s : State} {u : Fin 80} (ready : s.UnitReady u) :
    ∃ x, exec (.rxUnderClr u) s = .next ((s.withTiles x).setFifo (rxUnit u) fun f => { f with underrun := false }).written := by
  obtain ⟨x, write⟩ := State.rxCmd_ready u ready 4
  exact ⟨x, congrArg Host.Outcome.next write⟩

/-- A write of TX_CMD. -/
theorem State.txCmd_ready {s : State} {c : Nat} (hc : c < 64) (ready : s.TileReady (c / 8)) (v : Word) :
    ∃ x, s.chReg c 0x09C v = ((s.withTiles x).fifoCmd (txFifo c) v).written :=
  State.chReg_ready v hc ready (by decide) (by decide) (by decide) (by decide)

theorem exec_txDropRest {s : State} {c : Fin 64} (ready : s.TileReady (c / 8)) :
    ∃ x, exec (.txDropRest c) s = .next ((s.withTiles x).dropOldest (txFifo c)).written := by
  obtain ⟨x, write⟩ := State.txCmd_ready c.isLt ready 1
  exact ⟨x, congrArg Host.Outcome.next write⟩

theorem exec_txFlush {s : State} {c : Fin 64} (ready : s.TileReady (c / 8)) :
    ∃ x, exec (.txFlush c) s = .next ((s.withTiles x).fifoFlush (txFifo c)).written := by
  obtain ⟨x, write⟩ := State.txCmd_ready c.isLt ready 2
  exact ⟨x, congrArg Host.Outcome.next write⟩

theorem exec_txUnderClr {s : State} {c : Fin 64} (ready : s.TileReady (c / 8)) :
    ∃ x, exec (.txUnderClr c) s = .next ((s.withTiles x).setFifo (txFifo c) fun f => { f with underrun := false }).written := by
  obtain ⟨x, write⟩ := State.txCmd_ready c.isLt ready 4
  exact ⟨x, congrArg Host.Outcome.next write⟩

/-- A word that can be read. -/
theorem exec_rxDataRead_word {s : State} {u : Fin 80} (ready : s.UnitReady u) (avail : s.fifoAvail (rxUnit u) ≠ 0) :
    let w := s.sramGet (s.fifoKey (rxUnit u) (s.fifo (rxUnit u)).rd)
    ∃ t, exec (.rxDataRead u) s = .next t ∧ t.reply = ⟨0, wordBytes w⟩ ∧ t.sram = s.sram ∧
      t.fifo (rxUnit u) = { s.fifo (rxUnit u) with
        rd := (s.fifo (rxUnit u)).rd + 1, lastRead := w, pkts := pktsRead (rxUnit u) (s.fifo (rxUnit u)).pkts } := by
  obtain ⟨x, read⟩ := exec_rxDataRead ready
  rw [State.rxDataRead_word (s := s.withTiles x) avail] at read
  refine ⟨_, read, rfl, rfl, ?_⟩
  rw [State.fifo_answered, State.fifo_setFifo_same]
  rfl

/-- Nothing that can be read. -/
theorem exec_rxDataRead_underrun {s : State} {u : Fin 80} (ready : s.UnitReady u) (empty : s.fifoAvail (rxUnit u) = 0) :
    ∃ t, exec (.rxDataRead u) s = .next t ∧ t.reply = ⟨0, wordBytes (s.fifo (rxUnit u)).lastRead⟩ ∧
      t.fifo (rxUnit u) = { s.fifo (rxUnit u) with underrun := true } ∧
      (u.val < 64 → t.rd (Reg.chCntRxUnderrun u) = w32 (capAt 0xFFFFFFFF ((s.rd (Reg.chCntRxUnderrun u)).toNat + 1))) := by
  obtain ⟨x, read⟩ := exec_rxDataRead ready
  obtain ⟨word, marked, counted⟩ := State.rxDataRead_underrun (s := s.withTiles x) empty
  rw [word] at read
  refine ⟨_, read, rfl, marked, fun channel => counted _ ?_ ?_ ?_⟩
  · rw [rxUnit, if_pos channel, fifoCounter_rxUnderrun channel]
  · unfold Reg.chCntRxUnderrun pageKey; omega
  · unfold Reg.chCntRxUnderrun pageKey; omega

/-- The oldest TX packet dropped. -/
theorem exec_txDropRest_counts {s : State} {c : Fin 64} {p : FifoPkt} {rest : List FifoPkt} (ready : s.TileReady (c / 8))
    (packets : (s.fifo (txFifo c)).pkts = p :: rest) :
    ∃ t, exec (.txDropRest c) s = .next t ∧ (t.fifo (txFifo c)).pkts = rest ∧
      t.rd (Reg.chCntTxDropped c) = w32 (capAt 0xFFFFFFFF ((s.rd (Reg.chCntTxDropped c)).toNat + 1)) := by
  obtain ⟨x, done⟩ := exec_txDropRest ready
  obtain ⟨removed, counted⟩ := State.dropOldest_cons (s := s.withTiles x) packets
  refine ⟨_, done, removed, counted _ (fifoCounter_tx c.isLt).1 ?_⟩
  unfold Reg.chCntTxDropped Reg.irqPend pageKey
  omega

/-! The producer's words. -/

/-- What a word written to TX_DATA leaves is what the FIFO makes of it. -/
theorem exec_txDataWrite_effect {s : State} {c : Fin 64} (ready : s.TileReady (c / 8)) (w : Word) :
    ∃ x t, exec (.txDataWrite c w) s = .next t ∧
      let u := ((s.withTiles x).txDataWrite (txFifo c) w).2
      t.fifo (txFifo c) = u.fifo (txFifo c) ∧ t.sram = u.sram ∧ ∀ k : Nat, k / 0x1000 = 0x80 + c.val → t.rd k = u.rd k := by
  obtain ⟨x, done⟩ := exec_txDataWrite ready w
  obtain ⟨fifos, sram, rd⟩ := (s.withTiles x).chTxWrite_rest c w
  refine ⟨x, _, done, State.fifo_congr fifos _, sram, fun k page => rd k ?_⟩
  unfold Reg.tileCntWake pageKey
  omega

theorem fifoCfg_tx (c : Nat) : fifoCfg (txFifo c) = Reg.chTxCfg c := by
  have sends : fifoIsTx (2 * c + 1) = true := decide_eq_true (by omega)
  have channel : (2 * c + 1) / 2 = c := by omega
  rw [fifoCfg, txFifo, if_pos sends, channel]

/-- The first word of a packet opens it and lies at its header's place. -/
theorem exec_txDataWrite_opens {s : State} {c : Fin 64} {w : Word} (ready : s.TileReady (c / 8)) (skip : (s.fifo (txFifo c)).skip = 0)
    (between : (s.fifo (txFifo c)).writing = none) (length : bits w 0 16 ≠ 0) (free : s.fifoFree (txFifo c) ≠ 0) :
    ∃ t, exec (.txDataWrite c w) s = .next t ∧ (t.fifo (txFifo c)).pkts = (s.fifo (txFifo c)).pkts ++ [openedPkt w] ∧
      t.sramGet (t.fifoKey (txFifo c) (t.lastHeader (txFifo c))) = w := by
  obtain ⟨x, t, done, fifo, sram, rd⟩ := exec_txDataWrite_effect ready w
  rw [State.txDataWrite_opens (s := s.withTiles x) skip between length free] at fifo sram rd
  have cfg : fifoCfg (txFifo c) / 0x1000 = 0x80 + c.val := by
    rw [fifoCfg_tx]
    unfold Reg.chTxCfg pageKey
    omega
  refine ⟨t, done, ?_, ?_⟩
  · rw [fifo, State.fifo_sramSet, State.fifo_setFifo_same, State.fifo_withTiles]
  · rw [State.sramGet, sram, State.fifoKey_congr (rd _ cfg), State.lastHeader_congr fifo]
    exact State.sramGet_sramSet_same _ _ _

/-- Each further word lies behind the packet's header and words. -/
theorem exec_txDataWrite_fills {s : State} {c : Fin 64} {p : FifoPkt} (w : Word) (ready : s.TileReady (c / 8))
    (skip : (s.fifo (txFifo c)).skip = 0) (open_ : (s.fifo (txFifo c)).writing = some p) (free : s.fifoFree (txFifo c) ≠ 0) :
    ∃ t, exec (.txDataWrite c w) s = .next t ∧ (t.fifo (txFifo c)).pkts = (s.fifo (txFifo c)).pkts.dropLast ++ [p.grown] ∧
      t.sramGet (s.fifoKey (txFifo c) (s.lastHeader (txFifo c) + 1 + p.words)) = w := by
  obtain ⟨x, t, done, fifo, sram, -⟩ := exec_txDataWrite_effect ready w
  rw [State.txDataWrite_fills (s := s.withTiles x) w skip open_ free] at fifo sram
  refine ⟨t, done, ?_, ?_⟩
  · rw [fifo, State.fifo_setFifo_same, State.fifo_sramSet, State.fifo_withTiles]
  · rw [State.sramGet, sram]
    exact (s.withTiles x).sramGet_sramSet_same _ w

/-- Settles O33: each command comes to its FIFO's operation, whose law says what it reads, stores, counts and removes. -/
theorem fifosPassTheirPacketsInOrder : Obligations.FifosPassTheirPacketsInOrder := by
  unfold Obligations.FifosPassTheirPacketsInOrder
  refine ⟨⟨fun s u ready avail => ?_, fun s u ready empty => ?_, fun s u p rest ready packets => ?_, fun s u ready => ?_,
    fun s u ready => ?_, fun s c p rest ready packets => exec_txDropRest_counts ready packets, fun s c ready => ?_, fun s c ready => ?_⟩,
    fun s c w ready skip between length free => exec_txDataWrite_opens ready skip between length free,
    fun s c w p ready skip open_ free => exec_txDataWrite_fills w ready skip open_ free,
    fun s c w ready skip between length => ?_, fun s c w ready skip => ?_⟩
  · obtain ⟨t, done, answer, sram, fifo⟩ := exec_rxDataRead_word ready avail
    refine ⟨t, done, answer, by rw [fifo], by rw [fifo], sram, fun p rest packets => ?_⟩
    rw [fifo, packets]
    rfl
  · obtain ⟨t, done, answer, fifo, counted⟩ := exec_rxDataRead_underrun ready empty
    exact ⟨t, done, answer, by rw [fifo], by rw [fifo], counted⟩
  · obtain ⟨x, done⟩ := exec_rxDropRest ready
    exact ⟨_, done, (State.dropOldest_cons (s := s.withTiles x) packets).1⟩
  · obtain ⟨x, done⟩ := exec_rxFlush ready
    exact ⟨_, done, (s.withTiles x).fifoFlush_spec _⟩
  · obtain ⟨x, done⟩ := exec_rxUnderClr ready
    refine ⟨_, done, ?_⟩
    rw [State.fifo_written, State.fifo_setFifo_same]
    exact ⟨rfl, rfl, rfl⟩
  · obtain ⟨x, done⟩ := exec_txFlush ready
    exact ⟨_, done, ((s.withTiles x).fifoFlush_spec _).1⟩
  · obtain ⟨x, done⟩ := exec_txUnderClr ready
    refine ⟨_, done, ?_⟩
    rw [State.fifo_written, State.fifo_setFifo_same]
    exact ⟨rfl, rfl⟩
  · obtain ⟨x, t, done, fifo, -, rd⟩ := exec_txDataWrite_effect ready w
    rw [State.txDataWrite_empty (s := s.withTiles x) skip between length] at fifo rd
    refine ⟨t, done, ?_, (rd _ ?_).trans (State.rd_fifoBump _ (fifoCounter_tx c.isLt).2 1)⟩
    · rw [fifo, State.fifo_fifoBump]
      rfl
    · unfold Reg.chCntTxRewind pageKey
      omega
  · obtain ⟨x, t, done, fifo, sram, -⟩ := exec_txDataWrite_effect ready w
    rw [State.txDataWrite_skips (s := s.withTiles x) w skip] at fifo sram
    refine ⟨t, done, ?_⟩
    rw [fifo, State.fifo_setFifo_same]
    exact ⟨rfl, rfl, sram⟩

end Sys2Proof.Machine
end

section
/-! Reports of the lease and of the lines: what a fault of the lease, a change of a command bit, a line's checks and a delivered edge
leave of the interrupt bits and of the registers (R39, R82–R98, R134–R142, R186, R349–R357). -/

namespace Sys2Proof.Machine

/-- The counters of the LEASE page, and the registers of the PLK page. -/
def CountsLease (k : Nat) : Prop := k / 0x1000 = 0x2C ∨ (k / 0x1000 = 0x2D ∧ 0x070 ≤ k % 0x1000)

namespace Reported

variable {W W' : Nat → Prop} {s0 s : State}

/-- A wider set of registers says less. -/
theorem mono (h : Reported W s0 s) (wider : ∀ k, W k → W' k) : Reported W' s0 s :=
  ⟨h.raised, fun irq evq w => h.rd irq evq fun inW => w (wider _ inW)⟩

theorem bump (h : Reported W s0 s) {k : Nat} (irq : k % 0x1000 ≠ 0x010) (listed : W k) : Reported W s0 (s.bump k) :=
  h.wr _ irq (.inr listed)

/-! The lease. -/

theorem setLease (h : Reported W s0 s) (f : LeaseSt → LeaseSt) : Reported W s0 (s.setLease f) := h.same rfl rfl

theorem leaseEnter (h : Reported W s0 s) (st : LeaseState) (f : LeaseSt → LeaseSt) : Reported W s0 (s.leaseEnter st f) := h.same rfl rfl

theorem leaseTrack (h : Reported W s0 s) : Reported W s0 s.leaseTrack := h.same rfl rfl

theorem leasePost (h : Reported W s0 s) (ty irq flags : Nat) (w4 w5 w6 w7 : Word) : Reported W s0 (s.leasePost ty irq flags w4 w5 w6 w7) :=
  (h.raise _ _).post _ _ _ _ _ _ _ _

theorem plkSend (h : Reported CountsLease s0 s) (kind : BitVec 8) (w8 w12 : Word) : Reported CountsLease s0 (s.plkSend kind w8 w12) := by
  unfold State.plkSend
  refine .ite (fun _ => h) fun _ => ?_
  extract_lets -merge m counted link sent
  have hcounted : Reported CountsLease s0 counted := h.bump (by decide) (.inl rfl)
  have hsent : Reported CountsLease s0 sent := hcounted.same rfl rfl
  exact .ite (fun _ => hsent.setLease _) fun _ => hsent

theorem loseLease (h : Reported CountsLease s0 s) (cause : Nat) : Reported CountsLease s0 (s.loseLease cause) := by
  unfold State.loseLease
  extract_lets released left
  have hleft : Reported CountsLease s0 left := h.same rfl rfl
  exact (hleft.bump (by decide) (.inr (by decide))).leasePost _ _ _ _ _ _ _

theorem releaseLease (h : Reported CountsLease s0 s) (cause : Nat) : Reported CountsLease s0 (s.releaseLease cause) :=
  .loseLease (.ite (fun _ => h.plkSend _ _ _) fun _ => h) cause

theorem postHandover (h : Reported CountsLease s0 s) (aborted was : Bool) (reason : Nat) (t : TimePoint) :
    Reported CountsLease s0 (s.postHandover aborted was reason t) := by
  unfold State.postHandover
  refine .leasePost (.bump h ?_ ?_) _ _ _ _ _ _ _
  · cases aborted <;> decide
  · cases aborted <;> exact .inr (by decide)

theorem abortHandover (h : Reported CountsLease s0 s) (reason : Nat) (send : Bool) :
    Reported CountsLease s0 (s.abortHandover reason send) := by
  unfold State.abortHandover
  split
  · refine .ite (fun _ => ?_) fun _ => h
    exact (Reported.leaseEnter (.ite (fun _ => h.plkSend _ _ _) fun _ => h) _ _).postHandover _ _ _ _
  · exact h

theorem decideCompare (h : Reported CountsLease s0 s) : Reported CountsLease s0 s.decideCompare := by
  unfold State.decideCompare
  refine .ite (fun _ => .ite (fun _ => h.releaseLease 2) fun _ => h) fun _ => .ite (fun _ => ?_) fun _ => h
  exact ((h.setLease _).bump (by decide) (.inr (by decide))).leasePost _ _ _ _ _ _ _

theorem decideUnfit (h : Reported CountsLease s0 s) : Reported CountsLease s0 s.decideUnfit :=
  .ite (fun _ => h) fun _ => .ite (fun _ => h.decideCompare) fun _ => .ite (fun _ => h.releaseLease 1) fun _ => h

theorem commandsChanged (h : Reported CountsLease s0 s) : Reported CountsLease s0 s.commandsChanged :=
  .ite (fun _ => h.leaseTrack.abortHandover _ _) fun _ => h.leaseTrack

/-! Checks. -/

theorem qualClear (h : Reported W s0 s) (page check item : Nat) (value : Word) : Reported W s0 (s.qualClear page check item value) := by
  unfold State.qualClear
  refine .ite (fun _ => ?_) fun _ => h
  have posted : Reported W s0 (if (s.check page check).gathered = 0 then s else s.qualPost page check) :=
    .ite (fun _ => h) fun _ => h.qualPost page check
  exact (posted.setCheck _ _ _).qualRecord _ _ _ _ _ _ _ _

theorem lineFail {k check value counter : Nat} (h : Reported W s0 (s.bump counter)) : Reported W s0 (s.lineFail k check value counter) :=
  h.qualFail.raise _ _

theorem chatterPost (h : Reported W s0 s) (k : Nat) (blocked : Bool) : Reported W s0 (s.chatterPost k blocked) :=
  (h.raise _ _).post _ _ _ _ _ _ _ _

end Reported

/-- A fault of the lease sets its bit, keeps every interrupt bit, and beside FAULT changes the counters of the lease alone (R351). -/
theorem State.leaseFault_reported (s : State) {b : Nat} (hb : b < 32) :
    Reported (fun k => k = Reg.leaseFault ∨ CountsLease k) s (s.leaseFault b) ∧ (s.leaseFault b).flag Reg.leaseFault b = true := by
  unfold State.leaseFault
  split
  · next set => exact ⟨.refl s, set⟩
  · extract_lets latched
    have rest : Reported CountsLease latched (latched.abortHandover 3 true).decideUnfit.leaseTrack :=
      ((Reported.refl latched).abortHandover 3 true).decideUnfit.leaseTrack
    have stored : Reported (fun k => k = Reg.leaseFault ∨ CountsLease k) s latched :=
      ((Reported.refl s).wr _ (by decide) (.inr (.inl rfl))).raise 0x2D 5
    have counter : ¬ CountsLease Reg.leaseFault := by unfold CountsLease; decide
    refine ⟨stored.trans (rest.mono fun _ => .inr), ?_⟩
    rw [State.flag, rest.rd (by decide) (by decide) counter, State.raise_rd_ne _ _ (by decide), State.rd_setFld_same,
      bit_setBits_same _ _ _ hb]
    rfl

end Sys2Proof.Machine
end

section
/-! Edges of a line (R77–R90, R125, R127, R134–R136): which cell, which power state and which bank checks an edge leaves, and that it takes
no interrupt bit back. -/

namespace Sys2Proof.Machine

/-- Every interrupt bit of `s` that is pending or held is so in `t`. -/
abbrev KeepsRaised : State → State → Prop := Reported fun _ => True

/-- The next number of tile `n`'s stamps is taken (R88). -/
def State.stampNumbered (s : State) (n : Nat) : State :=
  { (s.setTile n fun y => { y with seq := (y.seq + 1) % 4096 }) with stampOrder := s.stampOrder + 1 }

/-- A stamped edge waits in its line's queue, or is lost (R86, R88, R89). -/
theorem State.stampEdge_eq (s : State) (k : Nat) (rise : Bool) (time : TimePoint) (unc : Nat) (q : BitVec 4) : ∃ x,
    s.stampEdge k rise time unc q =
      if (s.line k).queue.length < 4 then
        (s.stampNumbered (k / 32)).setLine k { s.line k with queue := (s.line k).queue ++ [x] }
      else (s.stampNumbered (k / 32)).stampLost (k / 32) x :=
  ⟨_, rfl⟩

namespace Reported

variable {W : Nat → Prop} {s0 s : State}

theorem setTile (h : Reported W s0 s) (n : Nat) (f : TileSt → TileSt) : Reported W s0 (s.setTile n f) := h.same rfl rfl
theorem setLine (h : Reported W s0 s) (k : Nat) (c : LineCell) : Reported W s0 (s.setLine k c) := h.same rfl rfl
theorem setCtr (h : Reported W s0 s) (c : Nat) (f : CtrSt → CtrSt) : Reported W s0 (s.setCtr c f) := h.same rfl rfl
theorem setRule (h : Reported W s0 s) (r : Nat) (x : Rule) : Reported W s0 (s.setRule r x) := h.same rfl rfl
theorem setWin (h : Reported W s0 s) (w : Nat) (f : WinEnt → WinEnt) : Reported W s0 (s.setWin w f) := h.same rfl rfl

theorem tileWake (h : KeepsRaised s0 s) (n : Nat) : KeepsRaised s0 (s.tileWake n) := by
  unfold State.tileWake
  split
  · exact .ite (fun _ => (h.setTile _ _).bump (by unfold Reg.tileCntWake pageKey; omega) trivial) fun _ => h
  · exact h
  · exact h.setTile _ _

theorem stampLost (h : KeepsRaised s0 s) (n : Nat) (x : Stamp) : KeepsRaised s0 (s.stampLost n x) := by
  have counted : KeepsRaised s0 (s.bump (Reg.tileCntStampLost n)) :=
    h.bump (by unfold Reg.tileCntStampLost pageKey; omega) trivial
  unfold State.stampLost
  extract_lets u
  split
  · exact counted.setTile _ _
  · exact ((counted.setTile _ _).raise _ _).post _ _ _ _ _ _ _ _

theorem stampEdge (h : KeepsRaised s0 s) (k : Nat) (rise : Bool) (time : TimePoint) (unc : Nat) (q : BitVec 4) :
    KeepsRaised s0 (s.stampEdge k rise time unc q) := by
  have numbered : KeepsRaised s0 (s.stampNumbered (k / 32)) := h.same rfl rfl
  obtain ⟨x, edge⟩ := s.stampEdge_eq k rise time unc q
  exact edge ▸ .ite (fun _ => numbered.setLine k _) fun _ => numbered.stampLost _ x

theorem notePeak (h : KeepsRaised s0 s) : KeepsRaised s0 s.notePeak := .ite (fun _ => h.wr _ (by decide) (.inr trivial)) fun _ => h

theorem queueRule (h : KeepsRaised s0 s) (n : Nat) : KeepsRaised s0 (s.queueRule n) :=
  .ite (fun _ => h) fun _ => .notePeak (.ite (fun _ => h.same rfl rfl) fun _ => h.same rfl rfl)

theorem operandChanged (h : KeepsRaised s0 s) (k : Nat) (t : TimePoint) : KeepsRaised s0 (s.operandChanged k t) :=
  .foldl h fun _ hx => .ite (fun _ => .queueRule (hx.setRule _ _) _) fun _ => hx

theorem winIgnored (h : KeepsRaised s0 s) : KeepsRaised s0 s.winIgnored := (h.bump (by decide) trivial).raise _ _

theorem winTrigger (h : KeepsRaised s0 s) (w : Nat) (e : TimePoint) : KeepsRaised s0 (s.winTrigger w e) :=
  .ite (fun _ => h) fun _ => .ite (fun _ => h.winIgnored) fun _ => .ite (fun _ => h.winIgnored) fun _ => h.setWin _ _

theorem winLineEdge (h : KeepsRaised s0 s) (k : Nat) (rise : Bool) (e : TimePoint) : KeepsRaised s0 (s.winLineEdge k rise e) :=
  .foldl h fun _ hx => .ite (fun _ => hx.winTrigger _ e) fun _ => hx

theorem winSubject (h : KeepsRaised s0 s) (k : Nat) (rise : Bool) (t : TimePoint) (u : Nat) (q : BitVec 4) :
    KeepsRaised s0 (s.winSubject k rise t u q) :=
  .foldl h fun _ hx => .ite (fun _ => hx.same rfl rfl) fun _ => hx

theorem ctrEdge (h : KeepsRaised s0 s) (c : Nat) (rise : Bool) (t : TimePoint) : KeepsRaised s0 (s.ctrEdge c rise t) :=
  .ite (fun _ => h) fun _ => .setCtr (h.wr _ (by unfold Reg.chCtrCount pageKey; omega) (.inr trivial)) c _

end Reported

/-! A capture of the counter function (R142). -/

/-- Registers of a bank written one after the other, each with the value of its number. -/
theorem State.rd_foldl_wr {f : Nat → Nat} (apart : ∀ i j, f i = f j → i = j) (g : Nat → Word) (l : List Nat) (s : State) (j : Nat) :
    (l.foldl (fun s i => s.wr (f i) (g i)) s).rd (f j) = if j ∈ l then g j else s.rd (f j) := by
  induction l generalizing s with
  | nil => exact (if_neg List.not_mem_nil).symm
  | cons i l ih =>
    rw [List.foldl_cons, ih]
    by_cases later : j ∈ l
    · rw [if_pos later, if_pos (List.mem_cons_of_mem i later)]
    · by_cases here : j = i
      · rw [if_neg later, if_pos (here ▸ List.mem_cons_self), here, State.rd_wr_same]
      · rw [if_neg later, if_neg (List.not_mem_cons_of_ne_of_not_mem here later), State.rd_wr_ne _ _ fun same => here (apart _ _ same)]

/-- The words of a capture of channel `c`: the count, the number of edges, and the stamps of the first and the last. -/
def State.captureWords (s : State) (c : Nat) : List Word :=
  let x := s.ctr c
  let stamp (t : TimePoint) : List Word := if x.count = 0 then [0, 0] else [t.sec, w32 t.ns]
  [s.rd (Reg.chCtrCount c), w32 x.count] ++ stamp x.first ++ stamp x.last

/-- CTR_CAP0–CTR_CAP5 written. -/
def State.captureStored (s : State) (c : Nat) : State :=
  (upFrom 0 6).foldl (fun u i => u.wr (Reg.chCtrCap c i) (((s.captureWords c).drop i).headD 0)) s

theorem State.rd_captureStored (s : State) (c : Nat) {i : Nat} (hi : i < 6) :
    (s.captureStored c).rd (Reg.chCtrCap c i) = ((s.captureWords c).drop i).headD 0 := by
  have apart : ∀ i j, Reg.chCtrCap c i = Reg.chCtrCap c j → i = j := fun i j => by unfold Reg.chCtrCap pageKey; omega
  have written := State.rd_foldl_wr apart (fun i => ((s.captureWords c).drop i).headD 0) (upFrom 0 6) s i
  rwa [if_pos (mem_upFrom_iff.mpr ⟨Nat.zero_le i, by omega⟩)] at written

/-- The words stored, a new interval begun and the capture's bit raised. -/
def State.captured (s : State) (c : Nat) : State :=
  ((s.captureStored c).setCtr c fun y => { y with count := 0 }).raise (0x80 + c) 9

theorem State.ctrCapture_eq (s : State) (c : Nat) : s.ctrCapture c =
    if (s.captured c).flag (Reg.chCtrCfg c) 5 then (s.captured c).rxPacket (rxFifo c) (wordsBytes (s.captureWords c)) 0
    else s.captured c := rfl

/-- What a capture does past its registers is a packet of the channel's RX FIFO. -/
theorem State.ctrCapture_reported (s : State) (c : Nat) : Reported (CountsFifo (rxFifo c)) (s.captured c) (s.ctrCapture c) := by
  rw [State.ctrCapture_eq]
  exact .ite (fun _ => (Reported.refl _).rxPacket _ _) fun _ => .refl _

theorem State.ctrCapture_ctrs (s : State) (c : Nat) : (s.ctrCapture c).ctrs = (s.captured c).ctrs := by
  rw [State.ctrCapture_eq]
  split
  · exact (State.rxPacket_frame (P := fun p => p ∈ Part.reports ++ Part.fifoUnit) (Frame.refl _ _) _ _ _ (.of_coveredBy rfl)).ctrs
      (by decide)
  · rfl

theorem Reported.ctrCapture {s0 s : State} (h : KeepsRaised s0 s) (c : Nat) : KeepsRaised s0 (s.ctrCapture c) := by
  have stored : KeepsRaised s0 (s.captureStored c) := List.foldlRecOn _ _ h fun u hu i listed => by
    have low : i < 6 := by have := mem_upFrom_iff.mp listed; omega
    exact hu.wr _ (by unfold Reg.chCtrCap pageKey; omega) (.inr trivial)
  exact ((stored.setCtr c _).raise _ _).trans ((s.ctrCapture_reported c).mono fun _ _ => trivial)

/-! What an edge leaves of the lines. -/

/-- From `s` to `t` the cell of line `k` became `c`; the other cells, the power state and the bank checks are the same, and no interrupt bit
was taken back. -/
structure OneLine (k : Nat) (c : LineCell) (s t : State) : Prop where
  cell : t.line k = c
  others : ∀ j, j ≠ k → t.line j = s.line j
  power : t.power = s.power
  bankFail : ∀ n, (t.tile n).bankFail = (s.tile n).bankFail
  raised : KeepsRaised s t

namespace OneLine

variable {k : Nat} {c c' : LineCell} {s t u : State}

theorem refl (k : Nat) (s : State) : OneLine k (s.line k) s s := ⟨rfl, fun _ _ => rfl, rfl, fun _ => rfl, .refl s⟩

theorem trans (h : OneLine k c s t) (h' : OneLine k c' t u) : OneLine k c' s u :=
  ⟨h'.cell, fun j other => (h'.others j other).trans (h.others j other), h'.power.trans h.power,
    fun n => (h'.bankFail n).trans (h.bankFail n), h.raised.trans h'.raised⟩

theorem setLine (k : Nat) (c : LineCell) (s : State) : OneLine k c s (s.setLine k c) :=
  ⟨State.line_setLine_same s k c, fun _ other => State.line_setLine_ne s c other, rfl, fun _ => rfl, (Reported.refl s).setLine k c⟩

/-- A step that leaves every line. -/
theorem off (h : OneLine k c s t) (lines : u.lines = t.lines) (power : u.power = t.power)
    (bankFail : ∀ n, (u.tile n).bankFail = (t.tile n).bankFail) (raised : KeepsRaised t u) : OneLine k c s u := by
  have line (j : Nat) : u.line j = t.line j := by rw [State.line, lines, State.line]
  exact ⟨(line k).trans h.cell, fun j other => (line j).trans (h.others j other), power.trans h.power,
    fun n => (bankFail n).trans (h.bankFail n), h.raised.trans raised⟩

/-- A step whose frame names neither lines nor tiles nor the power state. -/
theorem frame {l : List Part} (h : OneLine k c s t) (frame : Frame (fun p => p ∈ l) t u)
    (out : (decide (Part.lines ∉ l) && decide (Part.tiles ∉ l) && decide (Part.power ∉ l)) = true) (raised : KeepsRaised t u) :
    OneLine k c s u := by
  simp only [Bool.and_eq_true, decide_eq_true_eq] at out
  obtain ⟨⟨noLines, noTiles⟩, noPower⟩ := out
  exact h.off (frame.lines noLines) (frame.power noPower) (fun n => by rw [State.tile, frame.tiles noTiles, State.tile]) raised

end OneLine

/-- An update of a tile that keeps its bank check. -/
theorem State.bankFail_setTile (s : State) {n : Nat} {f : TileSt → TileSt} (keeps : (f (s.tile n)).bankFail = (s.tile n).bankFail)
    (m : Nat) : ((s.setTile n f).tile m).bankFail = (s.tile m).bankFail := by
  by_cases same : m = n
  · rw [same, State.tile_setTile_same, keeps]
  · rw [State.tile_setTile_ne _ _ same]

theorem State.tileWake_only (s : State) (n : Nat) : (s.tileWake n).lines = s.lines ∧ (s.tileWake n).power = s.power ∧
    ∀ m, ((s.tileWake n).tile m).bankFail = (s.tile m).bankFail := by
  unfold State.tileWake
  split
  · split
    · exact ⟨rfl, rfl, s.bankFail_setTile (f := fun x => { x with clk := .starting, clkAt := s.tclks }) rfl⟩
    · exact ⟨rfl, rfl, fun _ => rfl⟩
  · exact ⟨rfl, rfl, fun _ => rfl⟩
  · exact ⟨rfl, rfl, s.bankFail_setTile rfl⟩

theorem State.lineWake_oneLine (s : State) (k : Nat) : OneLine k (s.line k) s (s.lineWake k) := by
  obtain ⟨lines, power, bankFail⟩ := s.tileWake_only (k / 32)
  unfold State.lineWake
  split
  · exact (OneLine.refl k s).off lines power bankFail ((Reported.refl s).tileWake _)
  · exact .refl k s

theorem State.stampLost_only (s : State) (n : Nat) (x : Stamp) : (s.stampLost n x).lines = s.lines ∧ (s.stampLost n x).power = s.power ∧
    ∀ m, ((s.stampLost n x).tile m).bankFail = (s.tile m).bankFail := by
  have touched : Frame (fun p => p ∈ Part.reports ++ [.tiles, .regTile]) s (s.stampLost n x) :=
    State.stampLost_frame (Frame.refl _ s) n x (.of_coveredBy rfl)
  refine ⟨touched.lines (by decide), touched.power (by decide), fun m => ?_⟩
  unfold State.stampLost
  extract_lets u
  have kept : (u.tile m).bankFail = (s.tile m).bankFail := by simp [u, State.bump, State.tile]
  rw [← kept]
  split
  · next f count _ =>
    exact u.bankFail_setTile (f := fun y => { y with loss := some (f, capAt 0xFFFF (count + 1)) }) rfl m
  · have posted := ((u.setTile n fun y => { y with loss := some (x, 1) }).raise_touches (0x40 + n) 0).trans
      (State.post_touches _ 0x18 .tile n 0 (w32 x.seq) (u.rd (Reg.tileCntStampLost n)) 0 0)
    rw [State.tile, posted.tiles (by decide)]
    exact u.bankFail_setTile (f := fun y => { y with loss := some (x, 1) }) rfl m

theorem State.stampEdge_oneLine (s : State) (k : Nat) (rise : Bool) (time : TimePoint) (unc : Nat) (q : BitVec 4) :
    ∃ queue, OneLine k { s.line k with queue } s (s.stampEdge k rise time unc q) := by
  have numbered : OneLine k (s.line k) s (s.stampNumbered (k / 32)) :=
    (OneLine.refl k s).off rfl rfl (s.bankFail_setTile (n := k / 32) (f := fun y => { y with seq := (y.seq + 1) % 4096 }) rfl)
      ((Reported.refl s).same rfl rfl)
  obtain ⟨x, edge⟩ := s.stampEdge_eq k rise time unc q
  rw [edge]
  split
  · exact ⟨_, numbered.trans (.setLine k _ _)⟩
  · obtain ⟨lines, power, kept⟩ := (s.stampNumbered (k / 32)).stampLost_only (k / 32) x
    exact ⟨(s.line k).queue, numbered.off lines power kept ((Reported.refl _).stampLost _ x)⟩

/-- An edge delivered sets the line's level and may add a stamp to its queue; of the other cells it touches none. -/
theorem State.deliverEdge_oneLine (s : State) (k : Nat) (rise : Bool) (time : TimePoint) (unc : Nat) (q : BitVec 4) :
    ∃ queue, OneLine k { s.line k with level := rise, queue } s (s.deliverEdge k rise time unc q) := by
  unfold State.deliverEdge
  extract_lets -merge _ cell leveled stamped operands windows subject
  have level : OneLine k { s.line k with level := rise } s leveled := .setLine k _ s
  have stamp : ∃ queue, OneLine k { s.line k with level := rise, queue } s stamped := by
    by_cases stamps : bit (leveled.lcfg k) (if rise then 16 else 17) = true
    · obtain ⟨queue, stamp⟩ := leveled.stampEdge_oneLine k rise time unc q
      rw [level.cell] at stamp
      have taken : stamped = leveled.stampEdge k rise time unc q := if_pos stamps
      exact ⟨queue, taken ▸ level.trans stamp⟩
    · have kept : stamped = leveled := if_neg stamps
      exact ⟨(s.line k).queue, kept ▸ level⟩
  obtain ⟨queue, stamp⟩ := stamp
  have operand : OneLine k _ s operands :=
    stamp.frame (State.operandChanged_frame (P := fun p => p ∈ [.rules, .express, .normal, .regRfx]) (Frame.refl _ _) _ _
      (.of_coveredBy rfl)) rfl ((Reported.refl _).operandChanged _ _)
  have window : OneLine k _ s windows :=
    operand.frame (State.winLineEdge_frame (P := fun p => p ∈ Part.reports ++ [.wins, .regWin]) (Frame.refl _ _) _ _ _
      (.of_coveredBy rfl)) rfl ((Reported.refl _).winLineEdge _ _ _)
  have subj : OneLine k _ s subject :=
    window.frame (State.winSubject_frame (P := fun p => p ∈ [.winEdges]) (Frame.refl _ _) _ _ _ _ _ (.of_coveredBy rfl)) rfl
      ((Reported.refl _).winSubject _ _ _ _ _)
  refine ⟨queue, ?_⟩
  split
  · split
    · exact subj.frame (State.ctrEdge_frame (P := fun p => p ∈ [.ctrs, .regCh]) (Frame.refl _ _) _ _ _ (.of_coveredBy rfl)) rfl
        ((Reported.refl _).ctrEdge _ _ _)
    · split
      · exact subj.frame (State.ctrCapture_frame (P := fun p => p ∈ Part.reports ++ Part.fifoUnit ++ [.ctrs]) (Frame.refl _ _) _
          (.of_coveredBy rfl)) rfl ((Reported.refl _).ctrCapture _)
      · exact subj
  · exact subj

end Sys2Proof.Machine
end

section
/-! Qualified edges (R77, R125, R134–R136): what one leaves of the lines, and the edges of a bank whose check clears. -/

namespace Sys2Proof.Machine

namespace OneLine

variable {k : Nat} {c : LineCell} {s t : State}

theorem bump (h : OneLine k c s t) {key : Nat} (irq : key % 0x1000 ≠ 0x010) : OneLine k c s (t.bump key) :=
  h.off rfl rfl (fun _ => rfl) ((Reported.refl t).bump irq trivial)

theorem qualClear (h : OneLine k c s t) (page check item : Nat) (value : Word) : OneLine k c s (t.qualClear page check item value) :=
  h.frame (State.qualClear_frame (P := fun p => p ∈ Part.reports ++ [.checks, .pwr]) (Frame.refl _ _) _ _ _ _ (.of_coveredBy rfl)) rfl
    ((Reported.refl t).qualClear _ _ _ _)

/-- A line check's failure, counted in a register of the channel's page. -/
theorem lineFail (h : OneLine k c s t) (check value : Nat) {counter : Nat} (irq : counter % 0x1000 ≠ 0x010)
    (counts : RegIn (fun p => p ∈ Part.reports ++ [.checks, .pwr, .regCh]) counter) : OneLine k c s (t.lineFail k check value counter) :=
  h.frame (State.lineFail_frame (Frame.refl _ _) _ _ _ _ counts (.of_coveredBy rfl)) rfl
    ((Reported.refl t).bump irq trivial).lineFail

theorem chatterPost (h : OneLine k c s t) (blocked : Bool) : OneLine k c s (t.chatterPost k blocked) :=
  h.frame (State.chatterPost_frame (P := fun p => p ∈ Part.reports) (Frame.refl _ _) _ _ (.of_coveredBy rfl)) rfl
    ((Reported.refl t).chatterPost _ _)

end OneLine

/-- From `s` to `t` of all cells only that of line `k` changed, and in it neither the pin's level nor the qualified level. -/
def SameQual (k : Nat) (s t : State) : Prop := ∃ c, c.raw = (s.line k).raw ∧ c.qual = (s.line k).qual ∧ OneLine k c s t

theorem OneLine.sameQual {k : Nat} {c : LineCell} {s t : State} (h : OneLine k c s t) (raw : c.raw = (s.line k).raw)
    (qual : c.qual = (s.line k).qual) : SameQual k s t := ⟨c, raw, qual, h⟩

namespace SameQual

variable {k : Nat} {s t u : State}

theorem refl (k : Nat) (s : State) : SameQual k s s := (OneLine.refl k s).sameQual rfl rfl

theorem trans (h : SameQual k s t) (h' : SameQual k t u) : SameQual k s u := by
  obtain ⟨c, raw, qual, only⟩ := h
  obtain ⟨c', raw', qual', only'⟩ := h'
  rw [only.cell] at raw' qual'
  exact ⟨c', raw'.trans raw, qual'.trans qual, only.trans only'⟩

end SameQual

theorem State.rateCheck_sameQual (s : State) (k : Nat) : SameQual k s (s.rateCheck k) := by
  have irq : Reg.chCntEdgeRate (k / 4) % 0x1000 ≠ 0x010 := by unfold Reg.chCntEdgeRate pageKey; omega
  unfold State.rateCheck
  extract_lets -merge cell cfg limit
  split
  · exact .refl k s
  · split
    · exact ((OneLine.refl k s).bump irq).sameQual rfl rfl
    · split
      · exact ((((OneLine.refl k s).bump irq).trans (.setLine k { cell with blocked := true } _)).chatterPost true).sameQual rfl rfl
      · exact ((OneLine.setLine k { cell with rateFail := true } s).lineFail _ _ irq
          (Reg.chCntEdgeRate_in _ (by decide))).sameQual rfl rfl

theorem State.widthChecks_sameQual (s : State) (k : Nat) (old : Option TimePoint) (time : TimePoint) :
    SameQual k s (s.widthChecks k old time) := by
  have irq : Reg.chCntMinWidth (k / 4) % 0x1000 ≠ 0x010 := by unfold Reg.chCntMinWidth pageKey; omega
  unfold State.widthChecks
  extract_lets -merge page held min _ _ width _ longest
  have least : SameQual k s width := by
    unfold width
    split
    · exact ((OneLine.setLine k { s.line k with minFail := true } s).lineFail _ _ irq (Reg.chCntMinWidth_in _ (by decide))).sameQual rfl rfl
    · exact ((OneLine.setLine k { s.line k with minFail := false } s).qualClear _ _ _ _).sameQual rfl rfl
  have most : SameQual k width longest :=
    ((OneLine.setLine k { width.line k with maxFail := false } width).qualClear _ _ _ _).sameQual rfl rfl
  refine (least.trans most).trans ?_
  exact ((OneLine.setLine k { longest.line k with idleFail := false } longest).qualClear _ _ _ _).sameQual rfl rfl

theorem State.lineWake_sameQual (s : State) (k : Nat) : SameQual k s (s.lineWake k) := (s.lineWake_oneLine k).sameQual rfl rfl

theorem State.deliverEdge_sameQual (s : State) (k : Nat) (rise : Bool) (time : TimePoint) (unc : Nat) (q : BitVec 4) :
    SameQual k s (s.deliverEdge k rise time unc q) := by
  obtain ⟨queue, only⟩ := s.deliverEdge_oneLine k rise time unc q
  exact (only).sameQual rfl rfl

/-- A qualified edge gives its line the edge's level (R77). -/
theorem State.liveEdge_oneLine (s : State) (k : Nat) (rise : Bool) (time : TimePoint) (unc : Nat) (q : BitVec 4) :
    ∃ c, c.raw = (s.line k).raw ∧ c.qual = rise ∧ OneLine k c s (s.liveEdge k rise time unc q) := by
  unfold State.liveEdge
  extract_lets old checked
  have cell : (s.cellEdge k rise time unc q).line k =
      { s.line k with qual := rise, last := some (time, unc, q), edgeAt := s.tclks, bucket := capAt 1023 ((s.line k).bucket + 1), leakAt :=
          if (s.line k).bucket = 0 then s.tclks + usTclks (s.leakUs k) else (s.line k).leakAt } := State.line_setLine_same ..
  have edge : OneLine k _ s (s.cellEdge k rise time unc q) := .setLine k _ s
  have checks : SameQual k (s.cellEdge k rise time unc q) checked :=
    ((State.rateCheck_sameQual _ k).trans (State.widthChecks_sameQual _ k old time)).trans (State.lineWake_sameQual _ k)
  have delivered : SameQual k (s.cellEdge k rise time unc q)
      (if (checked.line k).blocked then checked else checked.deliverEdge k rise time unc q) := by
    split
    · exact checks
    · exact checks.trans (checked.deliverEdge_sameQual ..)
  obtain ⟨c, raw, qual, only⟩ := delivered
  rw [cell] at raw qual
  exact ⟨c, raw, qual, edge.trans only⟩

/-! The bank check clears (R125). -/

theorem State.tdcStopped_of_hubUp {s : State} (up : s.hubUp = true) : s.tdcStopped = false := by
  unfold State.hubUp at up
  unfold State.tdcStopped State.onXt32
  cases power : s.power <;> simp_all

/-- A line of a bank whose check clears is qualified at its pin's level (R125). -/
theorem State.bankEdge_oneLine {s : State} (up : s.hubUp = true) (k : Nat) :
    ∃ c, c.raw = (s.line k).raw ∧ c.qual = (s.line k).raw ∧ OneLine k c s (s.bankEdge k) := by
  unfold State.bankEdge
  extract_lets -merge _ timed cell
  have own : cell = { s.line k with edgeAt := s.tclks } := State.line_setLine_same ..
  have edge : OneLine k cell s timed := own ▸ .setLine k _ s
  have raw : cell.raw = (s.line k).raw := by rw [own]
  have moving : timed.tdcStopped = false := State.tdcStopped_of_hubUp (s := timed) up
  rw [← raw]
  have delivered : ∃ c, c.raw = cell.raw ∧ c.qual = cell.raw ∧
      OneLine k c s (timed.qualifyEdge k cell.raw timed.now timed.stampUnc timed.time.quality) := by
    rw [State.qualifyEdge, if_pos (show timed.hubUp = true from up)]
    obtain ⟨c, kept, qual, only⟩ := timed.liveEdge_oneLine k cell.raw timed.now timed.stampUnc timed.time.quality
    exact ⟨c, kept, qual, edge.trans only⟩
  rw [moving]
  by_cases blocked : cell.blocked = true
  · simp only [if_pos blocked, if_neg Bool.false_ne_true]
    split
    · next level => exact ⟨cell, rfl, level.symm, edge⟩
    · exact delivered
  · simp only [if_neg blocked, if_neg Bool.false_ne_true]
    split
    · exact ⟨{ cell with qual := cell.raw }, rfl, rfl, edge.trans (.setLine k _ timed)⟩
    · exact delivered

/-- Of a run of lines whose bank's check clears, each is qualified at its pin's level, and no other line's pin is touched. -/
theorem State.bankEdges {s : State} (up : s.hubUp = true) (l : List Nat) :
    ((l.foldl (fun u k => u.bankEdge k) s).hubUp = true ∧
    (∀ n, ((l.foldl (fun u k => u.bankEdge k) s).tile n).bankFail = (s.tile n).bankFail) ∧
    KeepsRaised s (l.foldl (fun u k => u.bankEdge k) s)) ∧
    ∀ k, ((l.foldl (fun u k => u.bankEdge k) s).line k).raw = (s.line k).raw ∧
      (k ∈ l → ((l.foldl (fun u k => u.bankEdge k) s).line k).qual = (s.line k).raw) ∧
      (k ∉ l → (l.foldl (fun u k => u.bankEdge k) s).line k = s.line k) := by
  induction l generalizing s with
  | nil => exact ⟨⟨up, fun _ => rfl, .refl s⟩, fun k => ⟨rfl, fun listed => absurd listed List.not_mem_nil, fun _ => rfl⟩⟩
  | cons i l ih =>
    obtain ⟨c, raw, qual, only⟩ := State.bankEdge_oneLine up i
    obtain ⟨⟨upAfter, bankFail, raised⟩, lines⟩ := ih (s := s.bankEdge i) (by rw [State.hubUp, only.power]; exact up)
    refine ⟨⟨upAfter, fun n => (bankFail n).trans (only.bankFail n), only.raised.trans raised⟩, fun k => ?_⟩
    obtain ⟨rawAfter, within, apart⟩ := lines k
    have rawHere : ((s.bankEdge i).line k).raw = (s.line k).raw := by
      by_cases same : k = i
      · rw [same, only.cell, raw]
      · rw [only.others k same]
    refine ⟨rawAfter.trans rawHere, fun listed => ?_, fun listed => ?_⟩
    · by_cases later : k ∈ l
      · exact (within later).trans rawHere
      · have same : k = i := (List.mem_cons.mp listed).resolve_right later
        rw [List.foldl_cons, apart later, same, only.cell, qual]
    · rw [List.mem_cons, not_or] at listed
      rw [List.foldl_cons, apart listed.2, only.others k listed.1]

end Sys2Proof.Machine
end

section
/-! The bank check and the clock of a tile, and captures of the counter function (R125, R127, R128, R141, R142, R495). -/

namespace Sys2Proof.Machine

/-- A check's failure is counted, and of the registers outside reports its counter alone changes (R186). -/
theorem State.qualFail_counts (s : State) (page check item : Nat) (value : Word) {counter : Nat} (irq : counter % 0x1000 ≠ 0x010)
    (evq : counter / 0x1000 ≠ 0x24) :
    Reported (fun k => k = counter) s (s.qualFail page check item value counter) ∧
      (s.qualFail page check item value counter).rd counter = satInc (s.rd counter) := by
  have rest : Reported (fun _ => False) (s.bump counter) (s.qualFail page check item value counter) := .qualFail (.refl _)
  exact ⟨(Reported.bump (W := fun k => k = counter) (.refl s) irq rfl).trans (rest.mono fun _ => False.elim),
    (rest.rd irq evq id).trans (State.rd_bump_same s counter)⟩

/-! The bank check (R125). -/

/-- The filters of a run of lines are abandoned. -/
def State.filtersAbandoned (s : State) (l : List Nat) : State := l.foldl (fun u k => u.setLine k { u.line k with filt := none }) s

theorem State.filtersAbandoned_touches (s : State) (l : List Nat) : Frame (fun p => p ∈ [Part.lines]) s (s.filtersAbandoned l) :=
  List.foldlRecOn _ _ (Frame.refl _ s) fun _ kept _ _ => State.setLine_frame kept _ _ (.of_coveredBy rfl)

theorem State.filtersAbandoned_reported (s : State) (l : List Nat) : Reported (fun _ => False) s (s.filtersAbandoned l) :=
  .foldl (.refl s) fun _ h => h.setLine _ _

theorem State.filt_filtersAbandoned (s : State) {l : List Nat} {k : Nat} (listed : k ∈ l ∨ (s.line k).filt = none) :
    ((s.filtersAbandoned l).line k).filt = none := by
  induction l generalizing s with
  | nil => exact listed.resolve_left List.not_mem_nil
  | cons i l ih =>
    refine ih _ ?_
    by_cases same : k = i
    · exact .inr (by rw [same, State.line_setLine_same])
    · rw [State.line_setLine_ne _ _ same, List.mem_cons] at *
      exact listed.imp_left fun listed => listed.resolve_left same

/-- VDDIO outside its window for 10 µs: the check fails, and no filter of the tile goes on (R125). -/
theorem exec_bankCheckFail {s : State} {n : Fin 8} (up : s.hubUp = true) (outside : (s.tile n).bank ≠ .inside)
    (standing : (s.tile n).bankFail = false) (since : s.passed (s.tile n).bankAt (usTclks 10) = true) :
    ∃ t, exec (.bankCheckFail n) s = .next t ∧ (t.tile n).bankFail = true ∧
      t.rd (Reg.tileCntBank n) = satInc (s.rd (Reg.tileCntBank n)) ∧ t.Raised (0x40 + n) 1 ∧ t.flag Reg.leaseFault 3 = true ∧
      ∀ k, k / 32 = n.val → (t.line k).filt = none := by
  have place : Reg.tileCntBank n % 0x1000 ≠ 0x010 ∧ Reg.tileCntBank n / 0x1000 ≠ 0x24 ∧ ¬ CountsLease (Reg.tileCntBank n) ∧
      Reg.tileCntBank n ≠ Reg.leaseFault ∧ Reg.tileCntBank n ≠ Reg.irqPend (0x40 + n) := by
    unfold CountsLease Reg.tileCntBank Reg.leaseFault Reg.irqPend pageKey
    omega
  obtain ⟨irq, evq, notLease, notFault, notPend⟩ := place
  let failed := s.setTile n fun y => { y with bankFail := true }
  let idle := failed.filtersAbandoned (upFrom (32 * n) 32)
  let raised := idle.raise (0x40 + n) 1
  let counted := raised.qualFail (0x40 + n) 0x0002 n (if (s.tile n).bank = .high then 1 else 0) (Reg.tileCntBank n)
  have idleUp : idle.hubUp = true := by
    rw [State.hubUp, (failed.filtersAbandoned_touches _).power (by decide)]
    exact up
  have done : exec (.bankCheckFail n) s = .next (counted.leaseFault 3) := by
    refine congrArg _ ((if_neg ?_).trans (if_pos idleUp))
    simp [outside, standing, since]
  obtain ⟨report, count⟩ := raised.qualFail_counts (0x40 + n) 0x0002 n (if (s.tile n).bank = .high then 1 else 0) irq evq
  obtain ⟨lease, fault⟩ := counted.leaseFault_reported (b := 3) (by decide)
  have touched : Frame (fun p => p ∈ Part.reports ++ Part.leaseUnit ++ [.checks, .pwr, .regTile]) idle (counted.leaseFault 3) :=
    State.leaseFault_frame (State.qualFail_frame (State.raise_frame (Frame.refl _ _) _ _ (.of_coveredBy rfl)) _ _ _ _ _
      (Reg.tileCntBank_in _ (by decide)) (.of_coveredBy rfl)) _ (.of_coveredBy rfl)
  refine ⟨_, done, ?_, ?_, lease.raised (report.raised (idle.raise_raised _ (by decide))), fault, fun k tile => ?_⟩
  · rw [State.tile, touched.tiles (by decide), (failed.filtersAbandoned_touches _).tiles (by decide)]
    exact congrArg TileSt.bankFail (s.tile_setTile_same n _)
  · rw [lease.rd irq evq fun listed => listed.elim notFault notLease, count, State.raise_rd_ne _ _ notPend,
      (failed.filtersAbandoned_reported _).rd irq evq id]
    rfl
  · rw [State.line, touched.lines (by decide)]
    change (idle.line k).filt = none
    exact failed.filt_filtersAbandoned (.inl (mem_upFrom_iff.mpr (by omega)))

/-- VDDIO inside its window for 1 ms: the check clears, and every line of the tile is qualified at its pin's level (R125). -/
theorem exec_bankCheckClear {s : State} {n : Fin 8} (up : s.hubUp = true) (inside : (s.tile n).bank = .inside)
    (failed : (s.tile n).bankFail = true) (since : s.passed (s.tile n).bankAt (msTclks 1) = true) :
    ∃ t, exec (.bankCheckClear n) s = .next t ∧ (t.tile n).bankFail = false ∧ t.Raised (0x40 + n) 2 ∧
      ∀ k, k / 32 = n.val → (t.line k).qual = (s.line k).raw := by
  let cleared := s.setTile n fun y => { y with bankFail := false }
  let told := (cleared.raise (0x40 + n) 2).qualClear (0x40 + n) 0x0002 n 0
  have touched : Frame (fun p => p ∈ Part.reports ++ [.checks, .pwr]) cleared told :=
    State.qualClear_frame (State.raise_frame (Frame.refl _ _) _ _ (.of_coveredBy rfl)) _ _ _ _ (.of_coveredBy rfl)
  have toldUp : told.hubUp = true := by
    rw [State.hubUp, touched.power (by decide)]
    exact up
  have done : exec (.bankCheckClear n) s = .next ((upFrom (32 * n) 32).foldl (fun u k => u.bankEdge k) told) := by
    have cond : ¬ ((s.tile n).bank ≠ .inside ∨ (!(s.tile n).bankFail) = true ∨ (!s.passed (s.tile n).bankAt (msTclks 1)) = true) := by
      simp [inside, failed, since]
    change Host.Outcome.next (ite _ s (List.foldl _ (ite _ _ _) _)) = _
    rw [if_neg cond, if_pos (show cleared.hubUp = true from up)]
  obtain ⟨⟨-, bankFail, raised⟩, lines⟩ := State.bankEdges toldUp (upFrom (32 * n) 32)
  refine ⟨_, done, ?_, raised.raised ?_, fun k tile => ?_⟩
  · rw [bankFail, State.tile, touched.tiles (by decide)]
    exact congrArg TileSt.bankFail (s.tile_setTile_same n _)
  · exact ((Reported.refl (W := fun _ => False) _).qualClear _ _ _ _).raised (cleared.raise_raised _ (by decide))
  · obtain ⟨-, within, -⟩ := lines k
    rw [within (mem_upFrom_iff.mpr (by omega)), State.line, touched.lines (by decide)]
    rfl

theorem State.bank_bankSee (s : State) (n : Nat) (v : BankLevel) : ((s.bankSee n v).tile n).bank = v := by
  rw [State.bankSee, State.tile_setTile_same]

/-- VSEL applies from its write, and VSEL = 3 makes VDDIO count as inside its window (R125). -/
theorem exec_bankCfgWrite {s : State} {n : Fin 8} (v : Word) (ready : s.TileReady n) : ∃ t, exec (.bankCfgWrite n v) s = .next t ∧
    t.rd (Reg.tileBankCfg n) = v &&& 3#32 ∧ (bits v 0 2 = 3 → (t.tile n).bank = .inside) := by
  obtain ⟨x, reg⟩ := State.tileReg_ready (off := 0x050) v n.isLt ready (by decide) (by decide) rfl
  let stored := (s.withTiles x).wr (Reg.tileBankCfg n) (v &&& 3#32)
  have stored_rd : stored.rd (Reg.tileBankCfg n) = v &&& 3#32 := State.rd_wr_same ..
  have done : exec (.bankCfgWrite n v) s = .next (State.written (if bits v 0 2 = 3 then stored.bankSee n .inside else stored)) :=
    congrArg _ reg
  refine ⟨_, done, ?_, fun vsel => ?_⟩
  · split
    · exact stored_rd
    · exact stored_rd
  · rw [if_pos vsel]
    exact stored.bank_bankSee n .inside

/-! The clock of a tile (R127, R128, R495). -/

/-- An access that meets a stopped clock starts it, which is counted, and waits behind those that stall on it (R127, R128). -/
theorem State.stall_starts {s : State} {n : Nat} (up : s.hubUp = true) (stopped : (s.tile n).clk = .off) (x : Stall) :
    ((s.stall n x).tile n).clk = .starting ∧ (s.stall n x).rd (Reg.tileCntWake n) = satInc (s.rd (Reg.tileCntWake n)) ∧
      (∀ k, k ≠ Reg.tileCntWake n → (s.stall n x).rd k = s.rd k) ∧
      Tab.get [] (s.stall n x).stalls n = Tab.get [] s.stalls n ++ [x] := by
  let starting := s.setTile n fun y => { y with clk := .starting, clkAt := s.tclks }
  have wakes : s.tileWake n = starting.bump (Reg.tileCntWake n) := by
    rw [State.tileWake, stopped]
    exact if_pos up
  unfold State.stall
  rw [wakes]
  exact ⟨congrArg TileSt.clk (s.tile_setTile_same n fun y => { y with clk := .starting, clkAt := s.tclks }), 
    starting.rd_bump_same _, fun k other => starting.rd_bump_ne other, Tab.get_set_same⟩

/-- A write to a page of a tile whose clock does not run stalls (R128). -/
theorem exec_registerWrite_stalls {s : State} (a : Agent) {n : Fin 8} {off : Nat} (v : Word) (up : s.hubUp = true)
    (stopped : (s.tile n).clk ≠ .running) (low : off < 0x1000) (aligned : off % 4 = 0) :
    exec (.registerWrite (.bus a (BitVec.ofNat 48 (pageKey (0x40 + n) off)) (wordBytes v))) s =
      .next (s.stall n ⟨a, pageKey (0x40 + n) off, some (wordBytes v), 0⟩) := by
  have address : (BitVec.ofNat 48 (pageKey (0x40 + n) off)).toNat = pageKey (0x40 + n) off := by
    rw [BitVec.toNat_ofNat]
    unfold pageKey
    omega
  have reaches : s.writeReaches (s.localOrigin a) (pageKey (0x40 + n) off) (wordBytes v).length = true := by
    rw [show (wordBytes v).length = 4 from rfl,
      s.writeReaches_page (pageBlock_tile n.isLt) (fun owned => absurd owned (by decide)) low aligned, up]
  have page : tileOfAddr (pageKey (0x40 + n) 0) = some n.val := by
    rw [tileOfAddr, if_pos (by unfold pageKey; omega), show pageKey (0x40 + n) 0 / 0x1000 = 0x40 + n by unfold pageKey; omega,
      tileOfPage_tile n.isLt]
  have waits : s.stalledTile (pageKey (0x40 + n) off) = some n.val := by
    rw [s.stalledTile_page low, State.stalledTile, page, Option.filter_some, if_pos (by simpa using stopped)]
  change Host.Outcome.next (s.agentWrite a (BitVec.ofNat 48 (pageKey (0x40 + n) off)).toNat (wordBytes v)) = _
  rw [address, State.agentWrite, if_pos reaches, waits]

/-- The clock locks, and the accesses that stall on it go on in their order (R128, R495). -/
theorem exec_tileClockLock {s : State} {n : Fin 8} (starting : (s.tile n).clk = .starting) : exec (.tileClockLock n) s =
    .next ((Tab.get [] s.stalls n).foldl State.stallEnds { s.tileLock n with stalls := Tab.set [] s.stalls n [] }) :=
  congrArg _ (if_pos starting)

/-- A clock that has not locked within 1 µs is started again (R495). -/
theorem exec_tileClockLockTimeout {s : State} {n : Fin 8} (starting : (s.tile n).clk = .starting)
    (since : s.passed (s.tile n).clkAt (usTclks 1) = true) :
    ∃ t, exec (.tileClockLockTimeout n) s = .next t ∧ (t.tile n).clk = .starting ∧
      t.rd (Reg.tileCntWake n) = satInc (s.rd (Reg.tileCntWake n)) ∧ t.rd Reg.clkCntTileLock = satInc (s.rd Reg.clkCntTileLock) ∧
      t.Raised 0x02 0 := by
  have place : Reg.tileCntWake n % 0x1000 ≠ 0x010 ∧ Reg.tileCntWake n / 0x1000 ≠ 0x24 ∧ Reg.tileCntWake n ≠ Reg.clkCntTileLock ∧
      Reg.tileCntWake n ≠ Reg.irqPend 0x02 := by
    unfold Reg.tileCntWake Reg.clkCntTileLock Reg.irqPend pageKey
    omega
  obtain ⟨irq, evq, notLock, notPend⟩ := place
  let restarted := s.setTile n fun x => { x with clkAt := s.tclks }
  let woken := restarted.bump (Reg.tileCntWake n)
  let raised := woken.raise 0x02 0
  have done : exec (.tileClockLockTimeout n) s = .next (raised.qualFail 0x02 0x0C06 n 0 Reg.clkCntTileLock) :=
    congrArg _ (if_pos ⟨starting, since⟩)
  obtain ⟨report, count⟩ := raised.qualFail_counts (counter := Reg.clkCntTileLock) 0x02 0x0C06 n 0 (by decide) (by decide)
  have touched : Frame (fun p => p ∈ Part.reports ++ [.checks, .pwr, .regClk]) woken (raised.qualFail 0x02 0x0C06 n 0 Reg.clkCntTileLock) :=
    State.qualFail_frame (State.raise_frame (Frame.refl _ _) _ _ (.of_coveredBy rfl)) _ _ _ _ _ (Reg.clkCntTileLock_in (by decide))
      (.of_coveredBy rfl)
  refine ⟨_, done, ?_, ?_, ?_, report.raised (woken.raise_raised _ (by decide))⟩
  · rw [State.tile, touched.tiles (by decide)]
    exact (congrArg TileSt.clk (s.tile_setTile_same n fun x => { x with clkAt := s.tclks })).trans starting
  · rw [report.rd irq evq notLock, State.raise_rd_ne _ _ notPend]
    exact restarted.rd_bump_same _
  · rw [count, State.raise_rd_ne _ _ (by decide)]
    exact congrArg satInc (restarted.rd_bump_ne notLock.symm)

/-- The clock stops when nothing has needed it for IDLE_STOP, and not before (R127). -/
theorem exec_tileClockStop {s : State} {n : Fin 8} (running : (s.tile n).clk = .running) : exec (.tileClockStop n) s =
    .next (if s.tileNeeded n = false ∧ s.passed (s.tile n).clkAt (usTclks (s.idleStop n)) = true then
        s.setTile n fun x => { x with clk := .off }
      else s) := by
  change Host.Outcome.next (ite _ _ _) = _
  simp [running]

/-! The counter function (R141, R142). -/

theorem State.rd_setCtr (s : State) (c : Nat) (f : CtrSt → CtrSt) (k : Nat) : (s.setCtr c f).rd k = s.rd k := rfl

/-- A capture stores its words, begins a new interval and raises its bit (R142). -/
theorem State.ctrCapture_spec (s : State) (c : Nat) :
    (∀ i, i < 6 → (s.ctrCapture c).rd (Reg.chCtrCap c i) = ((s.captureWords c).drop i).headD 0) ∧
      (s.ctrCapture c).ctr c = { s.ctr c with count := 0 } ∧ (s.ctrCapture c).Raised (0x80 + c) 9 := by
  have reported := s.ctrCapture_reported c
  have storedCtrs : (s.captureStored c).ctrs = s.ctrs :=
    List.foldlRecOn (motive := fun u : State => u.ctrs = s.ctrs) _ _ rfl fun _ kept _ _ => kept
  refine ⟨fun i low => ?_, ?_, reported.raised (State.raise_raised _ _ (by decide))⟩
  · have place : Reg.chCtrCap c i % 0x1000 = 0x110 + 4 * i ∧ Reg.chCtrCap c i / 0x1000 = 0x80 + c ∧
        Reg.chCtrCap c i ≠ Reg.irqPend (0x80 + c) := by
      unfold Reg.chCtrCap Reg.irqPend pageKey
      omega
    obtain ⟨offset, page, notPend⟩ := place
    rw [reported.rd (by omega) (by omega) fun counts => by have := counts.offset; omega, State.captured, State.raise_rd_ne _ _ notPend]
    rw [State.rd_setCtr, s.rd_captureStored c low]
  · let interval := (s.captureStored c).setCtr c fun y => { y with count := 0 }
    have ctrs : (s.ctrCapture c).ctrs = interval.ctrs :=
      (s.ctrCapture_ctrs c).trans ((interval.raise_touches (0x80 + c) 9).ctrs (by decide))
    have kept : (s.captureStored c).ctr c = s.ctr c := by rw [State.ctr, storedCtrs, State.ctr]
    rw [State.ctr, ctrs, ← kept]
    exact (s.captureStored c).ctr_setCtr_same c _

/-- Where the interval holds an edge, a capture stores the stamps of its first and last one (R142). -/
theorem State.ctrCapture_words (s : State) (c : Nat) :
    (s.ctrCapture c).rd (Reg.chCtrCap c 0) = s.rd (Reg.chCtrCount c) ∧ (s.ctrCapture c).rd (Reg.chCtrCap c 1) = w32 (s.ctr c).count ∧
      ((s.ctr c).count ≠ 0 → (s.ctrCapture c).rd (Reg.chCtrCap c 2) = (s.ctr c).first.sec ∧
        (s.ctrCapture c).rd (Reg.chCtrCap c 3) = w32 (s.ctr c).first.ns ∧
        (s.ctrCapture c).rd (Reg.chCtrCap c 4) = (s.ctr c).last.sec ∧ (s.ctrCapture c).rd (Reg.chCtrCap c 5) = w32 (s.ctr c).last.ns) := by
  obtain ⟨stored, -, -⟩ := s.ctrCapture_spec c
  refine ⟨stored 0 (by decide), stored 1 (by decide), fun edges => ?_⟩
  rw [stored 2 (by decide), stored 3 (by decide), stored 4 (by decide), stored 5 (by decide), State.captureWords]
  simp [edges]

theorem exec_ctrCapture {s : State} {c : Fin 64} (ready : s.TileReady (c / 8)) (runs : s.runs c 1 = true) :
    ∃ x, exec (.ctrCapture c) s = .next ((s.withTiles x).ctrCapture c).written := by
  obtain ⟨x, reg⟩ := State.chReg_ready (off := 0x108) 2 c.isLt ready (by decide) (by decide) rfl (by decide)
  refine ⟨x, congrArg _ (reg.trans (congrArg State.written ?_))⟩
  change State.ctrCmd (s.withTiles x) c 2 = _
  have here : (bit (2 : Word) 1 && (s.withTiles x).runs c 1) = true := (Bool.and_eq_true ..).mpr ⟨by decide, runs⟩
  rw [State.ctrCmd, if_pos here]
  rfl

/-- ZERO clears the count (R142). -/
theorem exec_ctrZero {s : State} {c : Fin 64} (ready : s.TileReady (c / 8)) :
    ∃ t, exec (.ctrZero c) s = .next t ∧ t.rd (Reg.chCtrCount c) = 0 := by
  obtain ⟨x, reg⟩ := State.chReg_ready (off := 0x108) 1 c.isLt ready (by decide) (by decide) rfl (by decide)
  exact ⟨_, congrArg Host.Outcome.next reg, State.rd_wr_same (s.withTiles x) (Reg.chCtrCount c) 0⟩

/-- A multiple of CAP_PERIOD that the counter has reached, later than the last one captured and not passed over, is captured (R142). -/
theorem exec_periodicCapture {s : State} {c : Fin 64} (runs : s.runs c 1 = true) (period : s.fld (Reg.chCtrCfg c) 16 16 ≠ 0)
    (reached : timeDiff s.now (s.capMultiple c) ≤ 41) (later : ∀ l, (s.ctr c).multiple = some l → 0 < timeDiff (s.capMultiple c) l)
    (counted : (s.ctr c).skipped ≠ some (s.capMultiple c)) :
    exec (.periodicCapture c) s = .next ((s.setCtr c fun y => { y with multiple := some (s.capMultiple c) }).ctrCapture c) := by
  refine congrArg _ (if_pos ⟨runs, period, reached, ?_, counted⟩)
  cases last : (s.ctr c).multiple with
  | none => rfl
  | some l => exact decide_eq_true (later l last)

/-- Settles O31: the bank check clause by clause from `exec_bankCheckFail` and `exec_bankCheckClear`, the clock from the laws of its stalls,
its lock and its stop, and the captures from what `State.ctrCapture` stores. -/
theorem tilesAndCountersFollowTheirChecks : Obligations.TilesAndCountersFollowTheirChecks := by
  unfold Obligations.TilesAndCountersFollowTheirChecks
  refine ⟨⟨fun s n v => ⟨_, rfl, s.bank_bankSee n _, rfl⟩,
    fun s n up outside standing since => exec_bankCheckFail up outside standing since,
    fun s n up inside failed since => exec_bankCheckClear up inside failed since, fun s n v ready => exec_bankCfgWrite v ready,
    fun s a n off v up stopped low aligned => ?_,
    fun s n starting => ⟨fun l stalled => ?_, fun stalled => ?_, exec_tileClockLockTimeout starting⟩,
    fun s n running => ⟨fun idle since => ?_, fun needed => ?_⟩⟩, fun s c ready runs => ?_, fun s c ready => exec_ctrZero ready,
    fun s c runs period reached later counted => ?_⟩
  · exact ⟨_, exec_registerWrite_stalls a v up (by rw [stopped]; decide) low aligned, State.stall_starts up stopped _⟩
  · rw [exec_tileClockLock starting, stalled]
  · refine ⟨_, exec_tileClockLock starting, ?_⟩
    rw [stalled]
    exact ⟨congrArg TileSt.clk (s.tile_setTile_same n fun x => { x with clk := .running, clkAt := s.tclks }), fun _ => rfl⟩
  · refine ⟨_, (exec_tileClockStop running).trans (congrArg _ (if_pos ⟨idle, since⟩)), ?_, fun _ => rfl⟩
    rw [State.tile_setTile_same]
  · rw [exec_tileClockStop running, if_neg]
    rintro ⟨idle, since⟩
    simp [idle, since] at needed
  · obtain ⟨x, done⟩ := exec_ctrCapture ready runs
    obtain ⟨count, edges, stamps⟩ := (s.withTiles x).ctrCapture_words c
    obtain ⟨-, interval, raised⟩ := (s.withTiles x).ctrCapture_spec c
    exact ⟨_, done, count, edges, stamps, congrArg CtrSt.count interval, raised⟩
  · obtain ⟨count, -, -⟩ := (s.setCtr c fun y => { y with multiple := some (s.capMultiple c) }).ctrCapture_words c
    obtain ⟨-, interval, -⟩ := (s.setCtr c fun y => { y with multiple := some (s.capMultiple c) }).ctrCapture_spec c
    refine ⟨_, exec_periodicCapture runs period reached later counted, ?_, congrArg CtrSt.count interval, count⟩
    rw [interval, State.ctr_setCtr_same]

end Sys2Proof.Machine
end

section
/-! Writes that drive the lines of a channel (R131–R133, R139, R140): one line after the other, each of which touches its own cell alone. -/

namespace Sys2Proof.Machine

/-! The lines of a channel in turn. -/

/-- The lines that a mask names, in turn: where the step of a line touches that line's cell alone and keeps `R`, a named line is as its own
step leaves it, and a line that is not named is as it was. -/
theorem State.foldl_lines {R : State → State → Prop} {f : State → Nat → State} (refl : ∀ s, R s s)
    (trans : ∀ {s t u}, R s t → R t u → R s u) (keeps : ∀ s k, R s (f s k)) (others : ∀ s k j, j ≠ k → (f s k).line j = s.line j)
    (mask : Nat → Bool) (base : Nat) (l : List Nat) (s : State) :
    R s (l.foldl (fun u i => if mask i then f u (base + i) else u) s) ∧
      ∀ j, (j ∈ l → l.Nodup → mask j = true → ∃ u, R s u ∧ u.line (base + j) = s.line (base + j) ∧
          (l.foldl (fun u i => if mask i then f u (base + i) else u) s).line (base + j) = (f u (base + j)).line (base + j)) ∧
        (j ∉ l ∨ mask j = false → (l.foldl (fun u i => if mask i then f u (base + i) else u) s).line (base + j) = s.line (base + j)) := by
  induction l generalizing s with
  | nil => exact ⟨refl s, fun j => ⟨fun listed => absurd listed List.not_mem_nil, fun _ => rfl⟩⟩
  | cons i l ih =>
    obtain ⟨kept, rest⟩ := ih (if mask i then f s (base + i) else s)
    have first : R s (if mask i then f s (base + i) else s) := by
      split
      · exact keeps s _
      · exact refl s
    have apart : ∀ j, j ≠ i ∨ mask j = false → (if mask i then f s (base + i) else s).line (base + j) = s.line (base + j) := by
      intro j away
      split
      · next named =>
        refine others s _ _ fun same => ?_
        have here : j = i := Nat.add_left_cancel same
        subst here
        exact away.elim (fun other => other rfl) fun unnamed => by simp [unnamed] at named
      · rfl
    refine ⟨trans first kept, fun j => ?_⟩
    obtain ⟨within, out⟩ := rest j
    refine ⟨fun listed nodup named => ?_, fun away => ?_⟩
    · obtain ⟨notLater, nodup⟩ := List.nodup_cons.mp nodup
      obtain rfl | later := List.mem_cons.mp listed
      · refine ⟨s, refl s, rfl, (out (.inl notLater)).trans ?_⟩
        rw [if_pos named]
      · have other : j ≠ i := fun same => notLater (same ▸ later)
        obtain ⟨u, keptU, cell, done⟩ := within later nodup named
        exact ⟨u, trans first keptU, cell.trans (apart j (.inl other)), done⟩
    · refine (out (away.imp_left fun away => (not_or.mp (mt List.mem_cons.mpr away)).2)).trans (apart j (away.imp_left fun away => ?_))
      exact (not_or.mp (mt List.mem_cons.mpr away)).1

/-- Of the four lines of a channel. -/
theorem State.foldl_four {R : State → State → Prop} {f : State → Nat → State} (refl : ∀ s, R s s)
    (trans : ∀ {s t u}, R s t → R t u → R s u) (keeps : ∀ s k, R s (f s k)) (others : ∀ s k j, j ≠ k → (f s k).line j = s.line j)
    (mask : Nat → Bool) (base : Nat) (s : State) {j : Nat} (hj : j < 4) :
    (mask j = true → ∃ u, R s u ∧ u.line (base + j) = s.line (base + j) ∧
        ((upFrom 0 4).foldl (fun u i => if mask i then f u (base + i) else u) s).line (base + j) = (f u (base + j)).line (base + j)) ∧
      (mask j = false → ((upFrom 0 4).foldl (fun u i => if mask i then f u (base + i) else u) s).line (base + j) = s.line (base + j)) := by
  obtain ⟨-, lines⟩ := State.foldl_lines refl trans keeps others mask base (upFrom 0 4) s
  obtain ⟨within, out⟩ := lines j
  exact ⟨within (mem_upFrom_iff.mpr (by omega)) (by decide), fun unnamed => out (.inr unnamed)⟩

theorem foldl_unmasked {f : State → Nat → State} {mask : Nat → Bool} {l : List Nat} (none : ∀ i ∈ l, mask i = false) (s : State) :
    l.foldl (fun u i => if mask i then f u i else u) s = s :=
  List.foldlRecOn (motive := (· = s)) _ _ rfl fun u same i listed => by rw [none i listed, same, if_neg Bool.false_ne_true]

/-! Latches and command bits (R131–R133, R348). -/

theorem State.postHandover_lease (s : State) (aborted was : Bool) (reason : Nat) (t : TimePoint) :
    (s.postHandover aborted was reason t).lease = s.lease :=
  ((State.post_touches ..).lease (by decide)).trans ((State.raise_touches ..).lease (by decide))

/-- Nothing but a lease taken or lost drives OWN_OUT: the end of a handover keeps it (R342, R356). -/
theorem State.abortHandover_ownOut (s : State) (reason : Nat) (send : Bool) :
    (s.abortHandover reason send).lease.ownOut = s.lease.ownOut := by
  have sent (kind : BitVec 8) (w8 w12 : Word) : (s.plkSend kind w8 w12).lease.ownOut = s.lease.ownOut := by
    unfold State.plkSend
    split
    · rfl
    · extract_lets m counted sent
      split <;> rfl
  unfold State.abortHandover
  split
  · split
    · rw [State.postHandover_lease]
      split
      · exact sent ..
      · rfl
    · rfl
  · rfl

/-- A changed command bit may end a handover, which keeps OWN_OUT (R349, R356). -/
theorem State.commandsChanged_ownOut (s : State) : s.commandsChanged.lease.ownOut = s.lease.ownOut := by
  unfold State.commandsChanged
  extract_lets tracked
  split
  · exact tracked.abortHandover_ownOut 2 true
  · rfl

/-- A register that is no line's LOUT. -/
def NoLout (k : Nat) : Prop := ∀ c i, k ≠ Reg.chLout c i

/-- LOUT of every line and OWN_OUT are the same. -/
structure KeepsOutputs (s t : State) : Prop where
  ownOut : t.lease.ownOut = s.lease.ownOut
  rd : Reported NoLout s t

theorem KeepsOutputs.refl (s : State) : KeepsOutputs s s := ⟨rfl, .refl s⟩

theorem KeepsOutputs.trans {s t u : State} (h : KeepsOutputs s t) (h' : KeepsOutputs t u) : KeepsOutputs s u :=
  ⟨h'.ownOut.trans h.ownOut, h.rd.trans h'.rd⟩

theorem KeepsOutputs.lout {s t : State} (h : KeepsOutputs s t) (k : Nat) : t.lout k = s.lout k := by
  have place : Reg.chLout (k / 4) (k % 4) % 0x1000 ≠ 0x010 ∧ Reg.chLout (k / 4) (k % 4) / 0x1000 ≠ 0x24 := by
    unfold Reg.chLout indKey
    omega
  exact h.rd.rd place.1 place.2 fun none => none _ _ rfl

theorem KeepsOutputs.latchRefused {s t : State} (h : KeepsOutputs s t) (k : Nat) : t.latchRefused k = s.latchRefused k := by
  rw [State.latchRefused, State.isProtected, h.lout, State.holdsLease, h.ownOut]
  rfl

theorem State.commandsChanged_keepsOutputs (s : State) : KeepsOutputs s s.commandsChanged := by
  refine ⟨s.commandsChanged_ownOut, (Reported.refl s).commandsChanged.mono fun k counts c i => ?_⟩
  unfold CountsLease at counts
  unfold Reg.chLout indKey
  omega

theorem KeepsOutputs.setLine (s : State) (k : Nat) (c : LineCell) : KeepsOutputs s (s.setLine k c) := ⟨rfl, (Reported.refl s).setLine k c⟩

theorem State.commandsChanged_line (s : State) (k : Nat) : s.commandsChanged.line k = s.line k := by
  have touched : Frame (fun p => p ∈ Part.reports ++ Part.leaseUnit) s s.commandsChanged :=
    State.commandsChanged_frame (Frame.refl _ s) (.of_coveredBy rfl)
  rw [State.line, touched.lines (by decide), State.line]

theorem State.cmdWrite_spec (s : State) (k : Nat) (b : Bool) : KeepsOutputs s (s.cmdWrite k b) ∧
    (∀ j, j ≠ k → (s.cmdWrite k b).line j = s.line j) ∧ (s.cmdWrite k b).line k = { s.line k with cmd := b } := by
  unfold State.cmdWrite
  refine ⟨(KeepsOutputs.setLine s k _).trans (State.commandsChanged_keepsOutputs _), fun j other => ?_, ?_⟩
  · rw [State.commandsChanged_line, State.line_setLine_ne _ _ other]
  · rw [State.commandsChanged_line, State.line_setLine_same]

theorem State.latchWrite_spec (s : State) (k : Nat) (b : Bool) : KeepsOutputs s (s.latchWrite k b) ∧
    (∀ j, j ≠ k → (s.latchWrite k b).line j = s.line j) ∧ ((s.latchWrite k b).line k).latch = b ∧ ((s.latchWrite k b).line k).cmd = b := by
  unfold State.latchWrite
  obtain ⟨⟨since, told, own⟩, others, ⟨cells, tracked⟩⟩ := State.readbackTrack_props (s.setLine k { s.line k with latch := b, cmd := b }) k
  rw [State.line_setLine_same] at own
  refine ⟨.trans ?_ (State.commandsChanged_keepsOutputs _), fun j other => ?_, ?_, ?_⟩
  · rw [tracked]
    exact ⟨rfl, (Reported.refl s).same rfl rfl⟩
  · rw [State.commandsChanged_line, others j other, State.line_setLine_ne _ _ other]
  · rw [State.commandsChanged_line, own]
  · rw [State.commandsChanged_line, own]

theorem State.line_bump (s : State) (key k : Nat) : (s.bump key).line k = s.line k := rfl

/-- A software write of a latch: the command bit always, the base level unless the lease refuses it (R132, R133). -/
theorem State.swWrite_spec (s : State) (k : Nat) (b : Bool) : KeepsOutputs s (s.swWrite k b) ∧
    (∀ j, j ≠ k → (s.swWrite k b).line j = s.line j) ∧ ((s.swWrite k b).line k).cmd = b ∧
    ((s.swWrite k b).line k).latch = if s.latchRefused k then (s.line k).latch else b := by
  unfold State.swWrite
  split
  · next refused =>
    obtain ⟨kept, others, own⟩ := s.cmdWrite_spec k b
    have irq : Reg.chCntProtRefused (k / 4) % 0x1000 ≠ 0x010 := by unfold Reg.chCntProtRefused pageKey; omega
    have noLout : NoLout (Reg.chCntProtRefused (k / 4)) := fun c i => by unfold Reg.chCntProtRefused Reg.chLout pageKey indKey; omega
    refine ⟨kept.trans ⟨rfl, (Reported.refl _).bump irq noLout⟩, others, ?_, ?_⟩
    · rw [State.line_bump, own]
    · rw [State.line_bump, own]
  · obtain ⟨kept, others, latch, cmd⟩ := s.latchWrite_spec k b
    exact ⟨kept, others, cmd, latch⟩

/-- OUT_SET and OUT_CLR, line by line of the channel (R132, R133). -/
theorem State.outWrite_spec (s : State) (c : Nat) (v : Word) (b : Bool) {j : Nat} (hj : j < 4) :
    (bit v j = true → ((s.outWrite c v.toNat b).line (4 * c + j)).cmd = b ∧
      ((s.outWrite c v.toNat b).line (4 * c + j)).latch = if s.latchRefused (4 * c + j) then (s.line (4 * c + j)).latch else b) ∧
    (bit v j = false → (s.outWrite c v.toNat b).line (4 * c + j) = s.line (4 * c + j)) := by
  obtain ⟨named, unnamed⟩ := State.foldl_four KeepsOutputs.refl KeepsOutputs.trans (f := fun s k => s.swWrite k b)
    (fun s k => (s.swWrite_spec k b).1) (fun s k => (s.swWrite_spec k b).2.1) (fun j => v.toNat.testBit j) (4 * c) s hj
  have mask : v.toNat.testBit j = bit v j := (bit_lsb v j).symm
  refine ⟨fun set => ?_, fun clear => unnamed (mask.trans clear)⟩
  obtain ⟨u, kept, cell, own⟩ := named (mask.trans set)
  obtain ⟨-, -, cmd, latch⟩ := u.swWrite_spec (4 * c + j) b
  rw [State.outWrite, own, cmd, latch, kept.latchRefused, cell]
  exact ⟨rfl, rfl⟩

/-! The safe state (R139, R140). -/

/-- Only cells of lines differ. -/
def OnlyCells (s t : State) : Prop := ∃ l, t = { s with lines := l }

theorem OnlyCells.refl (s : State) : OnlyCells s s := ⟨s.lines, rfl⟩

theorem OnlyCells.trans {s t u : State} (h : OnlyCells s t) (h' : OnlyCells t u) : OnlyCells s u := by
  obtain ⟨l, rfl⟩ := h
  obtain ⟨l', rfl⟩ := h'
  exact ⟨l', rfl⟩

/-- What a line's pin would be given but for the safe state depends on its own cell alone of all cells. -/
theorem OnlyCells.roleDrive {s t : State} {k : Nat} (h : OnlyCells s t) (cell : t.line k = s.line k) : t.roleDrive k = s.roleDrive k := by
  obtain ⟨l, rfl⟩ := h
  unfold State.roleDrive
  rw [cell]
  rfl

/-- A line that enters its safe state holds the level that it drove (R139, R140). -/
theorem State.safeEnter_held {s : State} {k : Nat} {b : Bool} (out : (s.line k).safe = false) (drives : s.roleDrive k = .level b) :
    ((s.safeEnter k).line k).held = b := by
  have enters : s.safeEnter k = (s.setLine k { s.line k with safe := true, held := b }).readbackTrack k := by
    unfold State.safeEnter
    dsimp only
    rw [out, drives, if_neg Bool.false_ne_true]
  obtain ⟨⟨since, told, own⟩, -⟩ := State.readbackTrack_props (s.setLine k { s.line k with safe := true, held := b }) k
  rw [enters, own, State.line_setLine_same]

theorem State.safeRelease_spec (s : State) (k : Nat) : OnlyCells s (s.safeRelease k) ∧
    (∀ j, j ≠ k → (s.safeRelease k).line j = s.line j) ∧ ((s.safeRelease k).line k).safe = false ∧
    ((s.safeRelease k).line k).rbFault = false := by
  unfold State.safeRelease
  obtain ⟨⟨since, told, own⟩, others, ⟨cells, tracked⟩⟩ :=
    State.readbackTrack_props (s.setLine k { s.line k with safe := false, rbFault := false }) k
  rw [State.line_setLine_same] at own
  refine ⟨⟨cells, tracked⟩, fun j other => ?_, ?_, ?_⟩
  · rw [others j other, State.line_setLine_ne _ _ other]
  · rw [own]
  · rw [own]

/-- SAFE_CMD.ENTER, line by line of the channel (R139, R140). -/
theorem State.safeCmd_enter (s : State) (c : Nat) (v : Word) {j : Nat} (hj : j < 4) :
    (bit v j = true → ((s.safeCmd c (v &&& 0xF#32)).line (4 * c + j)).safe = true ∧
      ∀ b, (s.line (4 * c + j)).safe = false → s.roleDrive (4 * c + j) = .level b →
        ((s.safeCmd c (v &&& 0xF#32)).line (4 * c + j)).held = b) ∧
    (bit v j = false → (s.safeCmd c (v &&& 0xF#32)).line (4 * c + j) = s.line (4 * c + j)) := by
  have noRelease : ∀ i ∈ upFrom 0 4, bit (v &&& 0xF#32) (8 + i) = false := by
    have zero : ∀ i ∈ upFrom 0 4, bit 0xF#32 (8 + i) = false := by decide
    intro i listed
    rw [bit_and, zero i listed, Bool.and_false]
  have enters : s.safeCmd c (v &&& 0xF#32) =
      (upFrom 0 4).foldl (fun u i => if bit (v &&& 0xF#32) i then u.safeEnter (4 * c + i) else u) s :=
    congrArg ((upFrom 0 4).foldl fun u i => if bit (v &&& 0xF#32) i then State.safeEnter u (4 * c + i) else u)
      (foldl_unmasked (f := fun u i => u.safeRelease (4 * c + i)) noRelease s)
  have mask : bit (v &&& 0xF#32) j = bit v j := by
    have one : ∀ j, j < 4 → bit 0xF#32 j = true := by decide
    rw [bit_and, one j hj, Bool.and_true]
  obtain ⟨named, unnamed⟩ := State.foldl_four OnlyCells.refl OnlyCells.trans (f := State.safeEnter)
    (fun s k => (s.safeEnter_props k k).2.2.2) (fun s k j => (s.safeEnter_props k j).2.2.1) (bit (v &&& 0xF#32)) (4 * c) s hj
  rw [enters]
  refine ⟨fun set => ?_, fun clear => unnamed (mask.trans clear)⟩
  obtain ⟨u, kept, cell, own⟩ := named (mask.trans set)
  rw [own]
  refine ⟨(u.safeEnter_props (4 * c + j) 0).1, fun b out drives => State.safeEnter_held ?_ ?_⟩
  · rw [cell, out]
  · rw [kept.roleDrive cell, drives]

/-- SAFE_CMD.RELEASE, line by line of the channel (R137, R140). -/
theorem State.safeCmd_release (s : State) (c : Nat) (v : Word) {j : Nat} (hj : j < 4) :
    (bit v (8 + j) = true → ((s.safeCmd c (v &&& 0xF00#32)).line (4 * c + j)).safe = false ∧
      ((s.safeCmd c (v &&& 0xF00#32)).line (4 * c + j)).rbFault = false) ∧
    (bit v (8 + j) = false → (s.safeCmd c (v &&& 0xF00#32)).line (4 * c + j) = s.line (4 * c + j)) := by
  have noEnter : ∀ i ∈ upFrom 0 4, bit (v &&& 0xF00#32) i = false := by
    have zero : ∀ i ∈ upFrom 0 4, bit 0xF00#32 i = false := by decide
    intro i listed
    rw [bit_and, zero i listed, Bool.and_false]
  have releases : s.safeCmd c (v &&& 0xF00#32) =
      (upFrom 0 4).foldl (fun u i => if bit (v &&& 0xF00#32) (8 + i) then u.safeRelease (4 * c + i) else u) s :=
    foldl_unmasked (f := fun u i => u.safeEnter (4 * c + i)) noEnter _
  have mask : bit (v &&& 0xF00#32) (8 + j) = bit v (8 + j) := by
    have one : ∀ j, j < 4 → bit 0xF00#32 (8 + j) = true := by decide
    rw [bit_and, one j hj, Bool.and_true]
  obtain ⟨named, unnamed⟩ := State.foldl_four OnlyCells.refl OnlyCells.trans (f := State.safeRelease)
    (fun s k => (s.safeRelease_spec k).1) (fun s k => (s.safeRelease_spec k).2.1) (fun i => bit (v &&& 0xF00#32) (8 + i)) (4 * c) s hj
  rw [releases]
  refine ⟨fun set => ?_, fun clear => unnamed (mask.trans clear)⟩
  obtain ⟨u, -, -, own⟩ := named (mask.trans set)
  obtain ⟨-, -, safe, fault⟩ := u.safeRelease_spec (4 * c + j)
  exact own ▸ ⟨safe, fault⟩

end Sys2Proof.Machine
end

section
/-! The function of a channel, the checks of its lines, and the end of a block (R130, R134–R138). -/

namespace Sys2Proof.Machine

/-! FUNC (R130). -/

/-- A start of a CAN controller is reported, and counts nothing (R364). -/
theorem Reported.canStart {W : Nat → Prop} {s0 s : State} (h : Reported W s0 s) (n : Nat) : Reported W s0 (s.canStart n) := by
  unfold State.canStart
  refine .ite (fun _ => ?_) fun _ => h
  exact Reported.raise (h.same (t := s.setCan n fun x => { x with st := 1 }) rfl rfl) (canPage n) 3

/-- A write of FUNC: the write itself, and then a CAN controller that it selects may start (R130, R360). -/
theorem exec_funcWrite {s : State} {c : Fin 64} (v : Word) (ready : s.TileReady (c / 8)) :
    ∃ x t, exec (.funcWrite c v) s = .next t ∧
      ∀ k, k % 0x1000 ≠ 0x010 → k / 0x1000 ≠ 0x24 → t.rd k = ((s.withTiles x).funcWrite c v).rd k := by
  obtain ⟨x, reg⟩ := State.chReg_ready (off := 0x050) v c.isLt ready (by decide) (by decide) rfl (by decide)
  have starts : (s.withTiles x).chWrite c 0x050 v = (upFrom 0 16).foldl (fun u n => u.canStart n) ((s.withTiles x).funcWrite c v) := rfl
  have started : Reported (fun _ => False) ((s.withTiles x).funcWrite c v) ((s.withTiles x).chWrite c 0x050 v) := by
    rw [starts]
    exact .foldl (.refl _) fun n h => h.canStart n
  exact ⟨x, _, congrArg Host.Outcome.next reg, fun k irq evq => (State.rd_written ..).trans (started.rd irq evq id)⟩

/-- Another channel has selected the CAN controller that a value of FUNC selects (R130). -/
def State.CanTaken (s : State) (c : Nat) (v : Word) : Prop :=
  bits v 0 4 = 9 ∧ ∃ d, d < 64 ∧ d ≠ c ∧ s.chFunc d = 9 ∧ s.fld (Reg.chFunc d) 8 4 = bits v 8 4

theorem State.canTaken_iff (s : State) (c : Nat) (v : Word) : s.CanTaken c v ↔
    (bits v 0 4 = 9 && (upFrom 0 64).any fun d =>
      decide (d ≠ c) && decide (s.chFunc d = 9) && decide (s.fld (Reg.chFunc d) 8 4 = bits v 8 4)) = true := by
  simp [State.CanTaken, mem_upFrom_iff, and_assoc]

theorem State.funcWrite_taken {s : State} {c : Nat} {v : Word} (taken : s.CanTaken c v) :
    s.funcWrite c v = s.wr (Reg.status (0x80 + c)) 1 := if_pos ((s.canTaken_iff c v).mp taken)

theorem State.funcWrite_free {s : State} {c : Nat} {v : Word} (free : ¬ s.CanTaken c v) :
    s.funcWrite c v = if s.enabled (0x80 + c) then s else (s.wr (Reg.status (0x80 + c)) 0).wr (Reg.chFunc c) (v &&& 0xF0F#32) :=
  if_neg fun taken => free ((s.canTaken_iff c v).mpr taken)

/-! The checks of a line (R134). -/

/-- A line check's failure is counted and reported, and leaves the cells (R134). -/
theorem State.lineFail_spec (s : State) (k check value : Nat) {counter : Nat} (irq : counter % 0x1000 ≠ 0x010)
    (evq : counter / 0x1000 ≠ 0x24) (notPend : counter ≠ Reg.irqPend (0x80 + k / 4)) (counts : RegIn (fun p => p ∈ Part.reports ++ [.checks, .pwr, .regCh]) counter) :
    (s.lineFail k check value counter).lines = s.lines ∧ (s.lineFail k check value counter).Raised (0x80 + k / 4) 8 ∧
      (s.lineFail k check value counter).rd counter = satInc (s.rd counter) := by
  obtain ⟨-, counted⟩ := s.qualFail_counts (0x80 + k / 4) check k (w32 value) irq evq
  have touched := State.lineFail_frame (Frame.refl _ s) k check value counter counts (.of_coveredBy rfl)
  exact ⟨touched.lines (by decide), State.raise_raised _ _ (by decide), (State.raise_rd_ne _ _ notPend).trans counted⟩

/-- A level held beyond MAX_WIDTH fails once (R134). -/
theorem exec_maxWidthExpiry {s : State} {k : Fin 256} (set : bits (s.rd (Reg.chLqWidth (k / 4) (k % 4))) 16 16 ≠ 0)
    (active : (s.line k).qual = bit (s.rd (Reg.chLqCfg (k / 4) (k % 4))) 2) (standing : (s.line k).maxFail = false)
    (bank : (s.tile (k / 32)).bankFail = false)
    (since : s.passed (s.line k).edgeAt (msTclks (bits (s.rd (Reg.chLqWidth (k / 4) (k % 4))) 16 16)) = true) (up : s.hubUp = true) :
    ∃ t, exec (.maxWidthExpiry k) s = .next t ∧ (t.line k).maxFail = true ∧ t.Raised (0x80 + k / 4) 8 ∧
      t.rd (Reg.chCntMaxWidth (k / 4)) = satInc (s.rd (Reg.chCntMaxWidth (k / 4))) := by
  have place : Reg.chCntMaxWidth (k / 4) % 0x1000 ≠ 0x010 ∧ Reg.chCntMaxWidth (k / 4) / 0x1000 ≠ 0x24 ∧
      Reg.chCntMaxWidth (k / 4) ≠ Reg.irqPend (0x80 + k / 4) := by
    unfold Reg.chCntMaxWidth Reg.irqPend pageKey
    omega
  obtain ⟨irq, evq, notPend⟩ := place
  let failed := s.setLine k { s.line k with maxFail := true }
  obtain ⟨lines, raised, counted⟩ := failed.lineFail_spec k 0x0102 (bits (s.rd (Reg.chLqWidth (k / 4) (k % 4))) 16 16) irq evq notPend
    (Reg.chCntMaxWidth_in _ (by decide))
  refine ⟨_, congrArg Host.Outcome.next (if_pos ⟨set, active, by simpa using standing, by simpa using bank, since, up⟩), ?_, raised,
    counted⟩
  rw [State.line, lines]
  exact congrArg LineCell.maxFail (s.line_setLine_same k { s.line k with maxFail := true })

/-- A line idle beyond IDLE fails once (R134). -/
theorem exec_idleExpiry {s : State} {k : Fin 256} (set : s.fld (Reg.chLqIdle (k / 4) (k % 4)) 0 16 ≠ 0)
    (standing : (s.line k).idleFail = false) (bank : (s.tile (k / 32)).bankFail = false)
    (since : s.passed (s.line k).edgeAt (msTclks (s.fld (Reg.chLqIdle (k / 4) (k % 4)) 0 16)) = true) (up : s.hubUp = true) :
    ∃ t, exec (.idleExpiry k) s = .next t ∧ (t.line k).idleFail = true ∧ t.Raised (0x80 + k / 4) 8 ∧
      t.rd (Reg.chCntIdle (k / 4)) = satInc (s.rd (Reg.chCntIdle (k / 4))) := by
  have place : Reg.chCntIdle (k / 4) % 0x1000 ≠ 0x010 ∧ Reg.chCntIdle (k / 4) / 0x1000 ≠ 0x24 ∧
      Reg.chCntIdle (k / 4) ≠ Reg.irqPend (0x80 + k / 4) := by
    unfold Reg.chCntIdle Reg.irqPend pageKey
    omega
  obtain ⟨irq, evq, notPend⟩ := place
  let failed := s.setLine k { s.line k with idleFail := true }
  obtain ⟨lines, raised, counted⟩ := failed.lineFail_spec k 0x0104 (s.fld (Reg.chLqIdle (k / 4) (k % 4)) 0 16) irq evq notPend
    (Reg.chCntIdle_in _ (by decide))
  refine ⟨_, congrArg Host.Outcome.next (if_pos ⟨set, by simpa using standing, by simpa using bank, since, up⟩), ?_, raised, counted⟩
  rw [State.line, lines]
  exact congrArg LineCell.idleFail (s.line_setLine_same k { s.line k with idleFail := true })

/-! The bucket (R135, R136). -/

/-- LEAK_TICK once LEAK has passed: 1 less in the bucket, and at 0 what follows from it (R135). -/
theorem exec_leakTick {s : State} {k : Fin 256} (filled : (s.line k).bucket ≠ 0) (since : (s.line k).leakAt ≤ s.tclks) :
    let drained := s.setLine k { s.line k with
      bucket := (s.line k).bucket - 1, leakAt := (s.line k).leakAt + usTclks (s.leakUs k) }
    exec (.leakTick k) s = .next (if (s.line k).bucket = 1 then drained.bucketEmpty k else drained) :=
  congrArg Host.Outcome.next (if_neg (by omega))

/-- The edge at the end of a block gives the line the level of its qualified level, unless the bank check stands failed or the line has had
no edge (R125, R136). -/
theorem State.blockEdge_oneLine (s : State) (k : Nat) : ∃ level queue, OneLine k { s.line k with level, queue } s (s.blockEdge k) ∧
    ((s.tile (k / 32)).bankFail = false → (s.line k).last.isSome = true → level = (s.line k).qual) := by
  unfold State.blockEdge
  extract_lets c
  split
  · next held => exact ⟨c.level, c.queue, .refl k s, fun bank _ => (held.resolve_right (by simp [bank])).symm⟩
  · split
    · next time unc q _ =>
      have woken := s.lineWake_oneLine k
      obtain ⟨queue, delivered⟩ := (s.lineWake k).deliverEdge_oneLine k c.qual time unc q
      rw [woken.cell] at delivered
      exact ⟨c.qual, queue, woken.trans delivered, fun _ _ => rfl⟩
    · next none => exact ⟨c.level, c.queue, .refl k s, fun _ some => by simp [c, none] at some⟩

/-- The bucket is empty: the edge-rate failure clears, and a block ends (R134, R136). -/
theorem State.bucketEmpty_spec {s : State} (up : s.hubUp = true) (k : Nat) : ∃ level queue,
    (s.bucketEmpty k).line k = { s.line k with rateFail := false, blocked := false, level, queue } ∧
    ((s.line k).blocked = true → (s.tile (k / 32)).bankFail = false → (s.line k).last.isSome = true → level = (s.line k).qual) ∧
    ((s.line k).blocked = true → (s.bucketEmpty k).Raised (0x80 + k / 4) 7) := by
  let freed := s.setLine k { s.line k with rateFail := false, blocked := false }
  let cleared := freed.qualClear (0x80 + k / 4) 0x0103 k 0
  have empties : s.bucketEmpty k = if (s.line k).blocked then (cleared.blockEdge k).chatterPost k false else cleared :=
    if_neg (by simpa using show freed.hubUp = true from up)
  have clear : OneLine k { s.line k with rateFail := false, blocked := false } s cleared := (OneLine.setLine k _ s).qualClear _ _ _ _
  rw [empties]
  by_cases was : (s.line k).blocked = true
  · obtain ⟨level, queue, delivered, same⟩ := cleared.blockEdge_oneLine k
    rw [clear.cell, clear.bankFail] at same
    rw [clear.cell] at delivered
    rw [if_pos was]
    refine ⟨level, queue, (delivered.chatterPost false).cell, fun _ => same, fun _ => ?_⟩
    exact ((Reported.refl (W := fun _ => False) _).post ..).raised (State.raise_raised _ _ (by decide))
  · rw [if_neg was]
    exact ⟨_, _, clear.cell, fun blocked => absurd blocked was, fun blocked => absurd blocked was⟩

/-! The readback check (R137, R138). -/

/-- A pin that has differed from the driven level for RB_TIME is due to be reported (R137). -/
theorem State.mismatchDue_of_differs {s : State} {k : Nat} {b : Bool} {since : Nat} (out : bit (s.lout k) 0 = true)
    (timed : bits (s.lout k) 16 16 ≠ 0) (drives : s.pinDrive k = .level b) (differs : b ≠ (s.line k).raw)
    (told : (s.line k).differTold = false) (begun : (s.line k).differAt = some since)
    (passed : s.passed since (bits (s.lout k) 16 16) = true) : s.mismatchDue k = true := by
  simp [State.mismatchDue, State.pinDiffers, drives, out, timed, told, begun, passed, differs]

/-- A mismatch counted, and its line faulty (R137). -/
def State.faultMarked (s : State) (k : Nat) : State :=
  (s.bump (Reg.chCntReadback (k / 4))).setLine k { s.line k with rbFault := true, differTold := true }

/-- Its line in its safe state, where LOUT says so (R138). -/
def State.faultEntered (s : State) (k : Nat) : State := if bit (s.lout k) 6 then (s.faultMarked k).safeEnter k else s.faultMarked k

/-- A mismatch as far as the lease: marked, the safe state entered, and the event posted (R137, R138). -/
def State.mismatched (s : State) (k : Nat) : State :=
  ((s.faultEntered k).raise (0x80 + k / 4) 0).post 0x29 .ch (k / 4) (b2n (bit (s.lout k) 6))
    (w32 (at_ 17 (b2n (s.line k).raw) + at_ 16 (b2n (!(s.line k).raw)) + k)) (w32 (40 * bits (s.lout k) 16 16))
    ((s.faultEntered k).rd (Reg.chCntReadback (k / 4))) 0

theorem exec_readbackMismatch {s : State} {k : Fin 256} (due : s.mismatchDue k = true) : exec (.readbackMismatch k) s =
    .next (if (s.mismatched k).compared k then (s.mismatched k).leaseFault 2 else s.mismatched k) :=
  congrArg Host.Outcome.next (if_pos due)

theorem State.faultEntered_spec (s : State) (k : Nat) : ((s.faultEntered k).line k).rbFault = true ∧
    (bit (s.lout k) 6 = true → ((s.faultEntered k).line k).safe = true) ∧
    OnlyCells (s.bump (Reg.chCntReadback (k / 4))) (s.faultEntered k) := by
  have cell : (s.faultMarked k).line k = { s.line k with rbFault := true, differTold := true } := State.line_setLine_same ..
  have marked : OnlyCells (s.bump (Reg.chCntReadback (k / 4))) (s.faultMarked k) := ⟨_, rfl⟩
  obtain ⟨entered, ⟨_, _, _, _, _, _, same⟩, -, only⟩ := (s.faultMarked k).safeEnter_props k k
  unfold State.faultEntered
  split
  · exact ⟨by rw [same, cell], fun _ => entered, marked.trans only⟩
  · next stays => exact ⟨by rw [cell], fun applies => absurd applies stays, marked⟩

/-- A mismatch is counted and raises its bit; of the registers outside reports its counter alone changes (R137). -/
theorem State.mismatched_reported (s : State) (k : Nat) :
    Reported (fun key => key = Reg.chCntReadback (k / 4)) s (s.mismatched k) ∧ (s.mismatched k).Raised (0x80 + k / 4) 0 ∧
    (s.mismatched k).rd (Reg.chCntReadback (k / 4)) = satInc (s.rd (Reg.chCntReadback (k / 4))) := by
  have place : Reg.chCntReadback (k / 4) % 0x1000 ≠ 0x010 ∧ Reg.chCntReadback (k / 4) / 0x1000 ≠ 0x24 := by
    unfold Reg.chCntReadback pageKey
    omega
  obtain ⟨irq, evq⟩ := place
  obtain ⟨-, -, ⟨cells, entered⟩⟩ := s.faultEntered_spec k
  have counted : Reported (fun key => key = Reg.chCntReadback (k / 4)) s (s.bump (Reg.chCntReadback (k / 4))) :=
    (Reported.refl s).bump irq rfl
  have told : Reported (fun _ => False) (s.faultEntered k) (s.mismatched k) := ((Reported.refl _).raise _ _).post _ _ _ _ _ _ _ _
  have posted : Reported (fun _ => False) ((s.faultEntered k).raise (0x80 + k / 4) 0) (s.mismatched k) :=
    (Reported.refl _).post _ _ _ _ _ _ _ _
  refine ⟨(counted.same (t := s.faultEntered k) ?_ ?_).trans (told.mono fun _ => False.elim),
    posted.raised (State.raise_raised _ _ (by decide)), ?_⟩
  · rw [entered]
  · rw [entered]
  · rw [told.rd irq evq id, entered]
    exact s.rd_bump_same _

theorem State.mismatched_line (s : State) (k : Nat) : (s.mismatched k).line k = (s.faultEntered k).line k := by
  have touched : Frame (fun p => p ∈ Part.reports) (s.faultEntered k) (s.mismatched k) :=
    ((s.faultEntered k).raise_touches _ _).trans (State.post_touches ..)
  rw [State.line, touched.lines (by decide), State.line]

/-- Whether a line is compared is in its LOUT and the compare mask alone (R348). -/
theorem State.mismatched_compared (s : State) {k : Nat} (hk : k < 256) : (s.mismatched k).compared k = s.compared k := by
  obtain ⟨reported, -, -⟩ := s.mismatched_reported k
  have lout : (s.mismatched k).lout k = s.lout k := by
    have place : Reg.chLout (k / 4) (k % 4) % 0x1000 ≠ 0x010 ∧ Reg.chLout (k / 4) (k % 4) / 0x1000 ≠ 0x24 ∧
        Reg.chLout (k / 4) (k % 4) ≠ Reg.chCntReadback (k / 4) := by
      unfold Reg.chLout Reg.chCntReadback indKey pageKey
      omega
    exact reported.rd place.1 place.2.1 place.2.2
  have mask : (s.mismatched k).rd (Reg.leaseCompareMask (k / 32)) = s.rd (Reg.leaseCompareMask (k / 32)) := by
    have place : Reg.leaseCompareMask (k / 32) % 0x1000 ≠ 0x010 ∧ Reg.leaseCompareMask (k / 32) / 0x1000 ≠ 0x24 ∧
        Reg.leaseCompareMask (k / 32) ≠ Reg.chCntReadback (k / 4) := by
      unfold Reg.leaseCompareMask Reg.chCntReadback pageKey
      omega
    exact reported.rd place.1 place.2.1 place.2.2
  rw [State.compared, State.isProtected, lout, State.flag, mask]
  rfl

end Sys2Proof.Machine
end

section
/-! The obligation on the writes that drive lines and on the checks of a line (R130–R140). -/

namespace Sys2Proof.Machine

/-! The writes. -/

theorem exec_outSet {s : State} {c : Fin 64} (v : Word) (ready : s.TileReady (c / 8)) :
    ∃ x, exec (.outSet c v) s = .next ((s.withTiles x).outWrite c v.toNat true).written := by
  obtain ⟨x, reg⟩ := State.chReg_ready (off := 0x058) v c.isLt ready (by decide) (by decide) rfl (by decide)
  exact ⟨x, congrArg Host.Outcome.next reg⟩

theorem exec_outClr {s : State} {c : Fin 64} (v : Word) (ready : s.TileReady (c / 8)) :
    ∃ x, exec (.outClr c v) s = .next ((s.withTiles x).outWrite c v.toNat false).written := by
  obtain ⟨x, reg⟩ := State.chReg_ready (off := 0x05C) v c.isLt ready (by decide) (by decide) rfl (by decide)
  exact ⟨x, congrArg Host.Outcome.next reg⟩

theorem exec_safeEnter {s : State} {c : Fin 64} (v : Word) (ready : s.TileReady (c / 8)) :
    ∃ x, exec (.safeEnter c v) s = .next ((s.withTiles x).safeCmd c (v &&& 0xF#32)).written := by
  obtain ⟨x, reg⟩ := State.chReg_ready (off := 0x060) (v &&& 0xF#32) c.isLt ready (by decide) (by decide) rfl (by decide)
  exact ⟨x, congrArg Host.Outcome.next reg⟩

theorem exec_safeRelease {s : State} {c : Fin 64} (v : Word) (ready : s.TileReady (c / 8)) :
    ∃ x, exec (.safeRelease c v) s = .next ((s.withTiles x).safeCmd c (v &&& 0xF00#32)).written := by
  obtain ⟨x, reg⟩ := State.chReg_ready (off := 0x060) (v &&& 0xF00#32) c.isLt ready (by decide) (by decide) rfl (by decide)
  exact ⟨x, congrArg Host.Outcome.next reg⟩

/-- What FUNC and its status bit hold after a write of FUNC (R130). -/
theorem exec_funcWrite_spec {s : State} {c : Fin 64} (v : Word) (ready : s.TileReady (c / 8)) : ∃ t, exec (.funcWrite c v) s = .next t ∧
    (s.CanTaken c v → t.rd (Reg.chFunc c) = s.rd (Reg.chFunc c) ∧ bit (t.rd (Reg.status (0x80 + c))) 0 = true) ∧
    (¬ s.CanTaken c v → s.enabled (0x80 + c) = false →
      t.rd (Reg.chFunc c) = v &&& 0xF0F#32 ∧ bit (t.rd (Reg.status (0x80 + c))) 0 = false) ∧
    (¬ s.CanTaken c v → s.enabled (0x80 + c) = true →
      t.rd (Reg.chFunc c) = s.rd (Reg.chFunc c) ∧ t.rd (Reg.status (0x80 + c)) = s.rd (Reg.status (0x80 + c))) := by
  obtain ⟨x, t, done, rd⟩ := exec_funcWrite v ready
  have place : Reg.chFunc c % 0x1000 ≠ 0x010 ∧ Reg.chFunc c / 0x1000 ≠ 0x24 ∧ Reg.status (0x80 + c) % 0x1000 ≠ 0x010 ∧
      Reg.status (0x80 + c) / 0x1000 ≠ 0x24 ∧ Reg.chFunc c ≠ Reg.status (0x80 + c) := by
    unfold Reg.chFunc Reg.status pageKey
    omega
  obtain ⟨funcIrq, funcEvq, statusIrq, statusEvq, apart⟩ := place
  refine ⟨t, done, fun taken => ?_, fun free off => ?_, fun free on => ?_⟩
  · rw [rd _ funcIrq funcEvq, rd _ statusIrq statusEvq, State.funcWrite_taken (s := s.withTiles x) taken, State.rd_wr_ne _ _ apart,
      State.rd_wr_same]
    exact ⟨rfl, by decide⟩
  · rw [rd _ funcIrq funcEvq, rd _ statusIrq statusEvq, State.funcWrite_free (s := s.withTiles x) free,
      if_neg (by simpa using off), State.rd_wr_same, State.rd_wr_ne _ _ apart.symm, State.rd_wr_same]
    exact ⟨rfl, by decide⟩
  · rw [rd _ funcIrq funcEvq, rd _ statusIrq statusEvq, State.funcWrite_free (s := s.withTiles x) free,
      if_pos (show (s.withTiles x).enabled (0x80 + c) = true from on)]
    exact ⟨rfl, rfl⟩

/-! The checks. -/

/-- A fault of the lease leaves the lines (R351). -/
theorem State.leaseFault_line (s : State) (b k : Nat) : (s.leaseFault b).line k = s.line k := by
  have touched : Frame (fun p => p ∈ Part.reports ++ Part.leaseUnit) s (s.leaseFault b) :=
    State.leaseFault_frame (Frame.refl _ s) _ (.of_coveredBy rfl)
  rw [State.line, touched.lines (by decide), State.line]

/-- A mismatch reported: the line faulty and, where LOUT says so, in its safe state, counted, and the lease faulted where the line is
compared (R137, R138, R351). -/
theorem exec_readbackMismatch_spec {s : State} {k : Fin 256} (due : s.mismatchDue k = true) : ∃ t, exec (.readbackMismatch k) s = .next t ∧
    (t.line k).rbFault = true ∧ t.Raised (0x80 + k / 4) 0 ∧
    t.rd (Reg.chCntReadback (k / 4)) = satInc (s.rd (Reg.chCntReadback (k / 4))) ∧
    (bit (s.lout k) 6 = true → (t.line k).safe = true) ∧ (s.compared k = true → t.flag Reg.leaseFault 2 = true) := by
  obtain ⟨fault, safe, -⟩ := s.faultEntered_spec k
  rw [← s.mismatched_line] at fault safe
  obtain ⟨-, raised, counted⟩ := s.mismatched_reported k
  refine ⟨_, exec_readbackMismatch due, ?_⟩
  rw [s.mismatched_compared k.isLt]
  by_cases compared : s.compared k = true
  · have place : Reg.chCntReadback (k / 4) % 0x1000 ≠ 0x010 ∧ Reg.chCntReadback (k / 4) / 0x1000 ≠ 0x24 ∧
        Reg.chCntReadback (k / 4) ≠ Reg.leaseFault ∧ ¬ CountsLease (Reg.chCntReadback (k / 4)) := by
      unfold CountsLease Reg.chCntReadback Reg.leaseFault pageKey
      omega
    obtain ⟨irq, evq, notFault, notLease⟩ := place
    obtain ⟨lease, flag⟩ := (s.mismatched k).leaseFault_reported (b := 2) (by decide)
    rw [if_pos compared, State.leaseFault_line, lease.rd irq evq fun listed => listed.elim notFault notLease]
    exact ⟨fault, lease.raised raised, counted, safe, fun _ => flag⟩
  · rw [if_neg compared]
    exact ⟨fault, raised, counted, safe, fun is => absurd is compared⟩

/-- The last drain of a bucket: the edge-rate failure clears, and a block ends with the qualified level delivered (R134–R136). -/
theorem exec_leakTick_empties {s : State} {k : Fin 256} (last : (s.line k).bucket = 1) (since : (s.line k).leakAt ≤ s.tclks)
    (up : s.hubUp = true) : ∃ t, exec (.leakTick k) s = .next t ∧ (t.line k).bucket = 0 ∧ (t.line k).blocked = false ∧
      (t.line k).rateFail = false ∧
      ((s.line k).blocked = true → (s.tile (k / 32)).bankFail = false → (s.line k).last.isSome = true →
        (t.line k).level = (s.line k).qual) ∧
      ((s.line k).blocked = true → t.Raised (0x80 + k / 4) 7) := by
  let drained := s.setLine k { s.line k with
    bucket := (s.line k).bucket - 1, leakAt := (s.line k).leakAt + usTclks (s.leakUs k) }
  have cell : drained.line k = { s.line k with
      bucket := (s.line k).bucket - 1, leakAt := (s.line k).leakAt + usTclks (s.leakUs k) } := State.line_setLine_same ..
  obtain ⟨level, queue, emptied, delivered, raised⟩ := State.bucketEmpty_spec (s := drained) up k
  rw [cell] at emptied delivered raised
  refine ⟨_, (exec_leakTick (by omega) since).trans (congrArg Host.Outcome.next (if_pos last)), ?_⟩
  rw [emptied]
  exact ⟨by rw [last], rfl, rfl, delivered, raised⟩

/-- Settles O32: each write line by line of its channel, and each check from the law of its command. -/
theorem linesAreDrivenAndChecked : Obligations.LinesAreDrivenAndChecked := by
  unfold Obligations.LinesAreDrivenAndChecked
  refine ⟨⟨fun s c v ready _ => ?_, fun s c v ready _ => ?_, fun s c v ready => ?_, fun s c v ready => ?_,
    fun s c v ready => exec_funcWrite_spec v ready⟩,
    fun s k set active standing bank since up => exec_maxWidthExpiry set active standing bank since up,
    fun s k set standing bank since up => exec_idleExpiry set standing bank since up, fun s k filled since => ?_,
    fun s k last since up => exec_leakTick_empties last since up,
    fun s k b c out timed drives differs told begun passed => ?_⟩
  · obtain ⟨x, done⟩ := exec_outSet v ready
    exact ⟨_, done, fun j hj => (s.withTiles x).outWrite_spec c v true hj⟩
  · obtain ⟨x, done⟩ := exec_outClr v ready
    exact ⟨_, done, fun j hj => (s.withTiles x).outWrite_spec c v false hj⟩
  · obtain ⟨x, done⟩ := exec_safeEnter v ready
    exact ⟨_, done, fun j hj => (s.withTiles x).safeCmd_enter c v hj⟩
  · obtain ⟨x, done⟩ := exec_safeRelease v ready
    exact ⟨_, done, fun j hj => (s.withTiles x).safeCmd_release c v hj⟩
  · exact (exec_leakTick (by omega) since).trans (congrArg Host.Outcome.next (if_neg (by omega)))
  · exact exec_readbackMismatch_spec (State.mismatchDue_of_differs out timed drives differs told begun passed)

end Sys2Proof.Machine
end

section
/-! The clause on ENGINE_MARK_PREPARE (R168): the tile's clock is prepared only while the hub die runs. -/

namespace Sys2Proof.Machine

/-- The hub die is down in DORMANT with the clocks of its tiles off, and engine 0 stands in a WAIT TIME whose mark is the present time. -/
def waitsWithHubDown : State :=
  { State.reset with power := .dormant, engs := [(0, { EngSt.init 0 with wait := some ⟨3, false⟩ })] }

/-- The mark is prepared, but nothing starts a tile's clock while the hub die is down (R127). -/
theorem exec_engineMarkPrepare_hubDown : ∃ t, exec (.engineMarkPrepare 0) waitsWithHubDown = .next t ∧ (t.tile 0).clk = .off :=
  ⟨_, rfl, by decide⟩

/-- Refutes O35: its clause on the preparation 1 µs before the mark asks for a tile clock that is not off in every state, and of a state whose
hub die does not run `waitsWithHubDown` shows that the clock stays off. -/
theorem not_enginesWaitExchangeAndHalt : ¬ Obligations.EnginesWaitExchangeAndHalt := by
  intro h
  obtain ⟨⟨-, -, -, prepare, -⟩, -⟩ := h
  obtain ⟨t, executed, -, starts⟩ := prepare waitsWithHubDown 0 false (by decide) (by decide)
  obtain ⟨u, prepared, off⟩ := exec_engineMarkPrepare_hubDown
  cases executed.symm.trans prepared
  exact starts off

end Sys2Proof.Machine
end

section
/-! The cell of a tine engine under the operations that its instructions and commands share (R156, R176, R178, R181): what each makes of it,
and that beside it only interrupt bits and records change. -/

namespace Sys2Proof.Machine

theorem State.eng_congr {s t : State} (h : t.engs = s.engs) (e : Nat) : t.eng e = s.eng e := by
  rw [State.eng, h, State.eng]

/-! The cell. -/

/-- A RUNNING engine halted with a cause (R156). -/
def EngSt.halted (x : EngSt) (cause : Nat) : EngSt :=
  if x.st = 1 then { x with st := 2, cause, wait := none, stalled := false, next := .run, prepared := false } else x

/-- The PC moved in a segment; outside it the engine halts with SEG_FAULT (R176). -/
def EngSt.gone (x : EngSt) (seg : Word) (a : Nat) : EngSt :=
  if inSeg seg (a % 1024) then { x with pc := a % 1024 } else { x with pc := a % 1024 }.halted 2

/-- An instruction completed: the next address, or at WRAP_TOP WRAP_BOTTOM or a pending swap (R176, R178). -/
def EngSt.advanced (x : EngSt) (seg wrap : Word) : EngSt :=
  if x.pc = bits wrap 16 10 then (if x.commitPend then { x with next := .swap } else x.gone seg (bits wrap 0 10))
  else x.gone seg (x.pc + 1)

/-- What an engine holds beside its PC, its running state with the cause, and what halting ends. -/
def EngSt.data (x : EngSt) : EngSt :=
  { x with pc := 0, st := 0, cause := 0, wait := none, stalled := false, next := .run, prepared := false }

theorem EngSt.halted_data (x : EngSt) (cause : Nat) : (x.halted cause).data = x.data := by
  unfold EngSt.halted
  split <;> rfl

theorem EngSt.halted_of_running {x : EngSt} (running : x.st = 1) (cause : Nat) : x.halted cause =
    { x with st := 2, cause, wait := none, stalled := false, next := .run, prepared := false } := if_pos running

theorem EngSt.gone_data (x : EngSt) (seg : Word) (a : Nat) : (x.gone seg a).data = x.data := by
  unfold EngSt.gone
  split
  · rfl
  · exact EngSt.halted_data _ 2

theorem EngSt.advanced_data (x : EngSt) (seg wrap : Word) : (x.advanced seg wrap).data = x.data := by
  unfold EngSt.advanced
  split
  · split
    · rfl
    · exact x.gone_data seg _
  · exact x.gone_data seg _

theorem EngSt.gone_pc (x : EngSt) (seg : Word) (a : Nat) : (x.gone seg a).pc = a % 1024 := by
  unfold EngSt.gone EngSt.halted
  split
  · rfl
  · split <;> rfl

theorem EngSt.gone_st (x : EngSt) (seg : Word) (a : Nat) :
    (x.gone seg a).st = if inSeg seg (a % 1024) then x.st else if x.st = 1 then 2 else x.st := by
  unfold EngSt.gone EngSt.halted
  split
  · rfl
  · split <;> rfl

theorem EngSt.gone_next {x : EngSt} (run : x.next = .run) (seg : Word) (a : Nat) : (x.gone seg a).next = .run := by
  unfold EngSt.gone EngSt.halted
  split
  · exact run
  · split
    · rfl
    · exact run

theorem EngSt.gone_wait {x : EngSt} (none : x.wait = none) (seg : Word) (a : Nat) : (x.gone seg a).wait = .none := by
  unfold EngSt.gone EngSt.halted
  split
  · exact none
  · split
    · rfl
    · exact none

theorem EngSt.advanced_wait {x : EngSt} (none : x.wait = none) (seg wrap : Word) : (x.advanced seg wrap).wait = .none := by
  unfold EngSt.advanced
  split
  · split
    · exact none
    · exact EngSt.gone_wait none seg _
  · exact EngSt.gone_wait none seg _

/-! One engine's cell. -/

/-- From `s` to `t` the cell of engine `e` became `x`, and the other engines are the same; no interrupt bit was taken back, and of the
registers only IRQ_PENDs, those of the EVQ page and those of `W` changed. -/
structure OneEng (W : Nat → Prop) (e : Nat) (x : EngSt) (s t : State) : Prop where
  cell : t.eng e = x
  others : ∀ j, j ≠ e → t.eng j = s.eng j
  reported : Reported W s t

namespace OneEng

variable {W : Nat → Prop} {e : Nat} {x y : EngSt} {s t u : State}

theorem refl (W : Nat → Prop) (e : Nat) (s : State) : OneEng W e (s.eng e) s s := ⟨rfl, fun _ _ => rfl, .refl s⟩

theorem trans (h : OneEng W e x s t) (h' : OneEng W e y t u) : OneEng W e y s u :=
  ⟨h'.cell, fun j other => (h'.others j other).trans (h.others j other), h.reported.trans h'.reported⟩

theorem setEng (h : OneEng W e x s t) (f : EngSt → EngSt) : OneEng W e (f x) s (t.setEng e f) := by
  refine h.trans ⟨?_, fun j other => State.eng_setEng_ne t f other, (Reported.refl t).same rfl rfl⟩
  rw [State.eng_setEng_same, h.cell]

/-- A step that leaves the engines. -/
theorem report (h : OneEng W e x s t) (engs : u.engs = t.engs) (reported : Reported W t u) : OneEng W e x s u :=
  ⟨(State.eng_congr engs e).trans h.cell, fun j other => (State.eng_congr engs j).trans (h.others j other), h.reported.trans reported⟩

theorem wr (h : OneEng W e x s t) {k : Nat} (v : Word) (irq : k % 0x1000 ≠ 0x010) (listed : W k) : OneEng W e x s (t.wr k v) :=
  h.report rfl ((Reported.refl t).wr v irq (.inr listed))

theorem raise (h : OneEng W e x s t) (page b : Nat) : OneEng W e x s (t.raise page b) :=
  h.report ((t.raise_touches page b).engs (by decide)) ((Reported.refl t).raise page b)

theorem engPost (h : OneEng W e x s t) (c ty flags : Nat) (time : TimePoint) (w4 w5 w6 w7 : Word) :
    OneEng W e x s (t.engPost c ty flags time w4 w5 w6 w7) :=
  h.report ((t.postAt_touches ty .ch c flags time _ w4 w5 w6 w7).engs (by decide)) ((Reported.refl t).postAt _ _ _ _ _ _ _ _ _ _)

theorem engHalt (h : OneEng W e x s t) (cause code : Nat) (time : TimePoint) :
    OneEng W e (x.halted cause) s (t.engHalt e cause code time) := by
  unfold State.engHalt EngSt.halted
  extract_lets old ended told
  rw [show old = x from h.cell]
  split
  · have halted := (h.setEng fun x =>
      { x with st := 2, cause, wait := none, stalled := false, next := .run, prepared := false }).raise (0x80 + e) 17
    split
    · exact halted.engPost e _ _ _ _ _ _ _
    · exact halted
  · exact h

theorem engGoto (h : OneEng W e x s t) (a : Nat) (time : TimePoint) :
    OneEng W e (x.gone (t.engSeg e) a) s (t.engGoto e a time) := by
  have moved := h.setEng fun x => { x with pc := a % 1024 }
  unfold State.engGoto EngSt.gone
  dsimp only
  rw [show (t.setEng e fun x => { x with pc := a % 1024 }).engSeg e = t.engSeg e from rfl]
  split
  · exact moved
  · exact moved.engHalt 2 0 time

theorem engAdvance (h : OneEng W e x s t) (time : TimePoint) :
    OneEng W e (x.advanced (t.engSeg e) (t.rd (Reg.chEngWrap e))) s (t.engAdvance e time) := by
  unfold State.engAdvance EngSt.advanced
  dsimp only
  rw [h.cell]
  split
  · split
    · exact h.setEng fun x => { x with next := .swap }
    · exact h.engGoto _ time
  · exact h.engGoto _ time

end OneEng

/-! The program counter past a completed instruction (R176, R178). -/

theorem bits_lt (w : Word) (lo k : Nat) : bits w lo k < 2 ^ k := Nat.mod_lt _ (Nat.two_pow_pos k)

/-- Registers of a channel's page that a report leaves. -/
theorem Reported.rd_ch {W : Nat → Prop} {s t : State} (h : Reported W s t) {e off : Nat} (low : off < 0x1000) (irq : off ≠ 0x010)
    (out : ¬ W (pageKey (0x80 + e) off)) : t.rd (pageKey (0x80 + e) off) = s.rd (pageKey (0x80 + e) off) := by
  refine h.rd ?_ ?_ out
  · unfold pageKey
    omega
  · unfold pageKey
    omega

/-- An engine that stands where `s` has it advances as `s` has it advance. -/
theorem State.advanced_of_cell {s t : State} {e : Nat} {x : EngSt} (pc : x.pc = (s.eng e).pc) (st : x.st = (s.eng e).st)
    (pend : x.commitPend = (s.eng e).commitPend) (cell : t.eng e = x.advanced (s.engSeg e) (s.rd (Reg.chEngWrap e))) :
    s.Advanced t e := by
  have bottom : bits (s.rd (Reg.chEngWrap e)) 0 10 % 1024 = bits (s.rd (Reg.chEngWrap e)) 0 10 := Nat.mod_eq_of_lt (bits_lt _ 0 10)
  unfold State.Advanced State.nextPc
  rw [cell, EngSt.advanced]
  rw [← pc, ← st, ← pend]
  by_cases top : x.pc = bits (s.rd (Reg.chEngWrap e)) 16 10
  · by_cases commits : x.commitPend = true
    · rw [if_pos top, if_pos commits, if_pos ⟨top, commits⟩]
      exact ⟨rfl, rfl, rfl⟩
    · rw [if_pos top, if_neg commits, if_neg (fun both => commits both.2), if_pos top, EngSt.gone_pc, EngSt.gone_st, bottom]
      exact ⟨rfl, rfl⟩
  · rw [if_neg top, if_neg (fun both => top both.1), if_neg top, EngSt.gone_pc, EngSt.gone_st]
    exact ⟨rfl, rfl⟩

/-- The engine completes an instruction from `u`, where it stands as in `s` with its segment and its wrap addresses: its PC moves on, and
what it holds beside the PC and its running state stays as in `u`. -/
theorem OneEng.advances {W : Nat → Prop} {e : Nat} {x : EngSt} {s u : State} (h : OneEng W e x s u)
    (stands : x.pc = (s.eng e).pc ∧ x.st = (s.eng e).st ∧ x.commitPend = (s.eng e).commitPend)
    (seg : ¬ W (Reg.chEngSeg e)) (wrap : ¬ W (Reg.chEngWrap e)) (time : TimePoint) :
    let t := u.engAdvance e time
    s.Advanced t e ∧ (t.eng e).data = x.data ∧ (x.wait = none → (t.eng e).wait = none) ∧ (∀ j, j ≠ e → t.eng j = s.eng j) ∧
      Reported W s t ∧ ∀ {page b}, u.Raised page b → t.Raised page b := by
  obtain ⟨pc, st, pend⟩ := stands
  obtain ⟨cell, others, reported⟩ := h.engAdvance time
  have sameSeg : u.engSeg e = s.engSeg e := h.reported.rd_ch (by decide) (by decide) seg
  have sameWrap : u.rd (Reg.chEngWrap e) = s.rd (Reg.chEngWrap e) := h.reported.rd_ch (by decide) (by decide) wrap
  have kept := ((OneEng.refl (fun _ => False) e u).engAdvance time).reported
  refine ⟨State.advanced_of_cell pc st pend ?_, ?_, fun none => ?_, others, reported, kept.raised⟩
  · rw [cell, sameSeg, sameWrap]
  · rw [cell, EngSt.advanced_data]
  · rw [cell, EngSt.advanced_wait none]

end Sys2Proof.Machine
end

section
/-! Engine instructions that end in the cycle in which they execute (R164–R166, R176, R183, R184). -/

namespace Sys2Proof.Machine

/-! The cycle taken. -/

/-- The state in which the instruction at the PC acts: its cycle and DELAY are counted. -/
abbrev State.taken (s : State) (e d : Nat) : State := s.engTake e (s.tileEdge d) (s.engFetch e)

theorem State.flag_taken (s : State) (e d k i : Nat) : (s.taken e d).flag k i = s.flag k i := rfl
theorem State.fld_taken (s : State) (e d k lo n : Nat) : (s.taken e d).fld k lo n = s.fld k lo n := rfl
theorem State.cycleTime_taken (s : State) (e d n : Nat) : (s.taken e d).cycleTime n = s.cycleTime n := rfl
theorem State.tileEdge_taken (s : State) (e d n : Nat) : (s.taken e d).tileEdge n = s.tileEdge n := rfl
theorem State.slotLevels_taken (s : State) (e d c base n : Nat) : (s.taken e d).slotLevels c base n = s.slotLevels c base n := rfl
theorem State.cycleTime_setEng (s : State) (e n : Nat) (f : EngSt → EngSt) : (s.setEng e f).cycleTime n = s.cycleTime n := rfl

/-- The engine's cell there. -/
def State.takenCell (s : State) (e d : Nat) : EngSt := { s.eng e with
  acc := s.engAcc e (s.tileEdge d) % s.engDivider e, edge := s.tileEdge d, left := 1 + insDelay (s.engFetch e) }

theorem State.eng_taken (s : State) (e d : Nat) : (s.taken e d).eng e = s.takenCell e d := State.eng_setEng_same s e _

theorem State.taken_oneEng (W : Nat → Prop) (s : State) (e d : Nat) : OneEng W e (s.takenCell e d) s (s.taken e d) :=
  (OneEng.refl W e s).setEng fun x => { x with
    acc := s.engAcc e (s.tileEdge d) % s.engDivider e, edge := s.tileEdge d, left := 1 + insDelay (s.engFetch e) }

/-- The engine executes the instruction at its PC. -/
theorem State.engRun_of_executes {s : State} {e d op : Nat} (h : s.Executes e d op) {is : Word → Bool} (named : is (s.engFetch e) = true)
    (act : Word → State → State) : s.engRun e d is act = act (s.engFetch e) (s.taken e d) := by
  obtain ⟨now, going, legal, -⟩ := h
  simp only [State.engRun, now, going, legal, named, Bool.not_false, Bool.and_self, if_true]

theorem exec_of_executes {s : State} {e d op : Nat} {i : Instr} {is : Word → Bool} {act : Word → State → State}
    (means : exec i s = .next (s.engRun e d is act)) (h : s.Executes e d op) (named : is (s.engFetch e) = true) :
    exec i s = .next (act (s.engFetch e) (s.taken e d)) := by
  rw [means, State.engRun_of_executes h named]

theorem isOp_of_executes {s : State} {e d op : Nat} (h : s.Executes e d op) : isOp op (s.engFetch e) = true := decide_eq_true h.2.2.2

theorem State.running_of_engNow {s : State} {e d : Nat} (now : s.engNow e d = true) : (s.eng e).st = 1 := by
  simp only [State.engNow, State.engReady, Bool.and_eq_true, decide_eq_true_eq] at now
  obtain ⟨⟨⟨⟨⟨⟨running, -⟩, -⟩, -⟩, -⟩, -⟩, -⟩ := now
  exact running

/-- A command that comes to the completion of an engine's instruction in `u`, where the engine still stands at it. -/
theorem OneEng.completes {W : Nat → Prop} {e : Nat} {x : EngSt} {s u : State} {i : Instr} {time : TimePoint} (cell : OneEng W e x s u)
    (stands : x.pc = (s.eng e).pc ∧ x.st = (s.eng e).st ∧ x.commitPend = (s.eng e).commitPend)
    (seg : ¬ W (Reg.chEngSeg e)) (wrap : ¬ W (Reg.chEngWrap e)) (executed : exec i s = .next (u.engAdvance e time)) :
    ∃ t, exec i s = .next t ∧ s.Advanced t e ∧ (t.eng e).data = x.data ∧ (∀ j, j ≠ e → t.eng j = s.eng j) ∧
      ∀ {page b}, u.Raised page b → t.Raised page b := by
  obtain ⟨advanced, data, -, others, -, raised⟩ := cell.advances stands seg wrap time
  exact ⟨_, executed, advanced, data, others, raised⟩

/-! HALT. -/

theorem State.engHalt_raised {s : State} {e : Nat} (running : (s.eng e).st = 1) (cause code : Nat) (t : TimePoint) :
    (s.engHalt e cause code t).Raised (0x80 + e) 17 := by
  unfold State.engHalt
  extract_lets x ended told
  have raised : told.Raised (0x80 + e) 17 := ended.raise_raised _ (by decide)
  rw [if_pos running]
  split
  · exact ((Reported.refl (W := fun _ => False) told).postAt _ _ _ _ _ _ _ _ _ _).raised raised
  · exact raised

theorem exec_halt {s : State} {c : Fin 64} {d : Fin 40} (h : s.Executes c d 0) : ∃ t, exec (.halt c d) s = .next t ∧
    (t.eng c).st = 2 ∧ (t.eng c).cause = 0 ∧ (t.eng c).pc = (s.eng c).pc ∧ t.Raised (0x80 + c) 17 ∧
    ∀ e : Nat, e ≠ c → t.eng e = s.eng e := by
  have running := State.running_of_engNow h.1
  obtain ⟨cell, others, -⟩ := (s.taken_oneEng (fun _ => False) c d).engHalt 0 (bits (s.engFetch c) 0 8) (s.cycleTime d)
  have halted := cell.trans (EngSt.halted_of_running (x := s.takenCell c d) running 0)
  have pc := congrArg EngSt.pc halted
  have executed := exec_of_executes (i := .halt c d) rfl h (isOp_of_executes h)
  rw [State.cycleTime_taken] at executed
  refine ⟨_, executed, ?_, ?_, ?_, State.engHalt_raised ?_ _ _ _, others⟩
  · exact congrArg EngSt.st halted
  · exact congrArg EngSt.cause halted
  · exact pc
  · rw [State.eng_taken]
    exact running

/-! Shifts (R165). -/

/-- OSR after a SHIFT_OUT of n bits, and its count. -/
def EngSt.osrShifted (x : EngSt) (osr : Word) (n : Nat) : EngSt := { x with osr, osrN := x.osrN - n }

/-- What a SHIFT_OUT gives its target: slots, X or Y. -/
def shiftTarget (w : Word) (base v : Nat) (x : EngSt) : EngSt :=
  match insSel w with
  | 0 => { x with val := outSlots x.val base v (insCount w) }
  | 1 => { x with x := BitVec.ofNat 16 v }
  | 2 => { x with y := BitVec.ofNat 16 v }
  | _ => x

theorem shiftTarget_keeps (w : Word) (base v : Nat) (x : EngSt) : let y := shiftTarget w base v x
    (y.pc = x.pc ∧ y.st = x.st ∧ y.commitPend = x.commitPend) ∧ y.osr = x.osr ∧ y.osrN = x.osrN := by
  unfold shiftTarget
  split <;> exact ⟨⟨rfl, rfl, rfl⟩, rfl, rfl⟩

/-- What SHIFT_OUT shifts out of OSR, and OSR after it. -/
def State.shiftedOut (s : State) (e : Nat) : Nat × Word :=
  shiftOutValue (s.flag (Reg.chEngCfg e) 1) (s.eng e).osr (insCount (s.engFetch e))

theorem exec_shiftOut {s : State} {c : Fin 64} {d : Fin 40} (h : s.Executes c d 1) : exec (.shiftOut c d) s =
    .next ((((s.taken c d).setEng c (·.osrShifted (s.shiftedOut c).2 (insCount (s.engFetch c)))).setEng c
      (shiftTarget (s.engFetch c) (s.fld (Reg.chEngIobase c) 8 3) (s.shiftedOut c).1)).engAdvance c (s.cycleTime d)) := by
  have same : ((s.taken c d).eng c).osr = (s.eng c).osr := by rw [State.eng_taken]; rfl
  have out : shiftOutValue (s.flag (Reg.chEngCfg c) 1) (s.eng c).osr (insCount (s.engFetch c)) =
    ((s.shiftedOut c).1, (s.shiftedOut c).2) := rfl
  rw [exec_of_executes (i := .shiftOut c d) rfl h (isOp_of_executes h), same, State.flag_taken]
  extract_lets n
  rw [show shiftOutValue _ _ n = _ from out]
  simp only [State.cycleTime_setEng, State.cycleTime_taken]
  rfl

theorem exec_shiftOut_spec {s : State} {c : Fin 64} {d : Fin 40} (h : s.Executes c d 1) :
    let w := s.engFetch c
    let out := s.shiftedOut c
    ∃ t, exec (.shiftOut c d) s = .next t ∧ s.Advanced t c ∧ (t.eng c).osrN = (s.eng c).osrN - insCount w ∧ (t.eng c).osr = out.2 ∧
      (insSel w = 0 → (t.eng c).val = outSlots (s.eng c).val (s.fld (Reg.chEngIobase c) 8 3) out.1 (insCount w)) ∧
      (insSel w = 1 → (t.eng c).x = BitVec.ofNat 16 out.1) ∧ (insSel w = 2 → (t.eng c).y = BitVec.ofNat 16 out.1) ∧
      ∀ e : Nat, e ≠ c → t.eng e = s.eng e := by
  intro w out
  let base := s.fld (Reg.chEngIobase c) 8 3
  have shifted := ((s.taken_oneEng (fun _ => False) c d).setEng (·.osrShifted out.2 (insCount w))).setEng (shiftTarget w base out.1)
  obtain ⟨stands, osr, osrN⟩ := shiftTarget_keeps w base out.1 ((s.takenCell c d).osrShifted out.2 (insCount w))
  obtain ⟨t, executed, advanced, data, others, -⟩ := shifted.completes stands id id (exec_shiftOut h)
  refine ⟨t, executed, advanced, (congrArg EngSt.osrN data).trans osrN, (congrArg EngSt.osr data).trans osr, fun sel => ?_, fun sel => ?_,
    fun sel => ?_, others⟩
  · refine (congrArg EngSt.val data).trans ?_
    rw [shiftTarget, sel]
    rfl
  · refine (congrArg EngSt.x data).trans ?_
    rw [shiftTarget, sel]
    rfl
  · refine (congrArg EngSt.y data).trans ?_
    rw [shiftTarget, sel]
    rfl

/-- What SHIFT_IN shifts into ISR. -/
def State.shiftedIn (s : State) (e d : Nat) : Nat :=
  match insSel (s.engFetch e) with
  | 0 => s.slotLevels e (s.fld (Reg.chEngIobase e) 0 3) (s.tileEdge d) % 2 ^ insCount (s.engFetch e)
  | 1 => (s.eng e).x.toNat % 2 ^ insCount (s.engFetch e)
  | 2 => (s.eng e).y.toNat % 2 ^ insCount (s.engFetch e)
  | _ => 0

/-- ISR after a SHIFT_IN of n bits v, and its count. -/
def EngSt.isrShifted (x : EngSt) (right : Bool) (v n : Nat) : EngSt :=
  { x with isr := shiftInValue right x.isr v n, isrN := capAt 32 (x.isrN + n) }

theorem exec_shiftIn {s : State} {c : Fin 64} {d : Fin 40} (h : s.Executes c d 2) : exec (.shiftIn c d) s =
    .next (((s.taken c d).setEng c (·.isrShifted (s.flag (Reg.chEngCfg c) 2) (s.shiftedIn c d) (insCount (s.engFetch c)))).engAdvance c
      (s.cycleTime d)) := by
  rw [exec_of_executes (i := .shiftIn c d) rfl h (isOp_of_executes h), State.eng_taken]
  simp only [State.cycleTime_setEng, State.cycleTime_taken, State.fld_taken, State.flag_taken, State.slotLevels_taken, State.tileEdge_taken]
  rfl

theorem exec_shiftIn_spec {s : State} {c : Fin 64} {d : Fin 40} (h : s.Executes c d 2) :
    let w := s.engFetch c
    let n := insCount w
    let isr (v : Nat) := shiftInValue (s.flag (Reg.chEngCfg c) 2) (s.eng c).isr v n
    ∃ t, exec (.shiftIn c d) s = .next t ∧ s.Advanced t c ∧ (t.eng c).isrN = capAt 32 ((s.eng c).isrN + n) ∧
      (insSel w = 0 → (t.eng c).isr = isr (s.slotLevels c (s.fld (Reg.chEngIobase c) 0 3) (s.tileEdge d) % 2 ^ n)) ∧
      (insSel w = 1 → (t.eng c).isr = isr ((s.eng c).x.toNat % 2 ^ n)) ∧
      (insSel w = 2 → (t.eng c).isr = isr ((s.eng c).y.toNat % 2 ^ n)) := by
  intro w n isr
  have shifted := (s.taken_oneEng (fun _ => False) c d).setEng (·.isrShifted (s.flag (Reg.chEngCfg c) 2) (s.shiftedIn c d) n)
  obtain ⟨t, executed, advanced, data, -⟩ := shifted.completes ⟨rfl, rfl, rfl⟩ id id (exec_shiftIn h)
  have taken {v : Nat} (is : s.shiftedIn c d = v) : (t.eng c).isr = isr v := (congrArg EngSt.isr data).trans (congrArg isr is)
  refine ⟨t, executed, advanced, congrArg EngSt.isrN data, fun sel => taken ?_, fun sel => taken ?_, fun sel => taken ?_⟩
  · rw [State.shiftedIn, sel]
    rfl
  · rw [State.shiftedIn, sel]
    rfl
  · rw [State.shiftedIn, sel]
    rfl

/-! DRIVE (R160). -/

/-- The slots of a mask enabled with values, or disabled. -/
def EngSt.driven (x : EngSt) (on : Bool) (m v : BitVec 8) : EngSt :=
  if on then { x with oe := x.oe ||| m, val := (x.val &&& ~~~ m) ||| (v &&& m) } else { x with oe := x.oe &&& ~~~ m }

theorem State.conflictsTo_oneEng (s : State) (n edge e : Nat) : OneEng (Bank.all Reg.chCntDriveConflict) e (s.eng e) s (s.conflictsTo n edge) := by
  have counted : Reported (Bank.all Reg.chCntDriveConflict) s (s.conflictsTo n edge) := by
    have counts {u : State} (k : Nat) (h : Reported (Bank.all Reg.chCntDriveConflict) s u) :
        Reported (Bank.all Reg.chCntDriveConflict) s (u.bumpBy (Reg.chCntDriveConflict k) (edge - (s.tile n).lossAt)) := by
      refine h.wr _ ?_ (.inr ⟨k, rfl⟩)
      unfold Reg.chCntDriveConflict pageKey
      omega
    unfold State.conflictsTo
    exact (Reported.foldl (.refl s) counts).setTile n _
  exact (OneEng.refl _ e s).report ((State.conflictsTo_frame (P := fun p => p ∈ [.tiles, .regCh]) (.refl _ s) n edge (.of_coveredBy rfl)).engs
    (by decide)) counted

/-- Drive conflicts are counted apart from an engine's segment and wrap addresses. -/
theorem chEngReg_not_conflicts {e off : Nat} (low : 0x400 ≤ off) (high : off < 0x1000) (apart : off ≠ 0x480) :
    ¬ Bank.all Reg.chCntDriveConflict (pageKey (0x80 + e) off) := by
  rintro ⟨i, same⟩
  unfold Reg.chCntDriveConflict pageKey at same
  omega

theorem testBit_ofNat8 (n : Nat) {p : Nat} (hp : p < 8) : (BitVec.ofNat 8 n).toNat.testBit p = n.testBit p := by
  rw [BitVec.toNat_ofNat, Nat.testBit_mod_two_pow, decide_eq_true hp, Bool.true_and]

theorem testBit_iff_div (n p : Nat) : n / 2 ^ p % 2 = 1 ↔ n.testBit p = true := by
  rw [Nat.testBit_eq_decide_div_mod_eq, decide_eq_true_iff]

theorem EngSt.driven_slots (x : EngSt) (w : Word) {p : Nat} (hp : p < 8) :
    let y := x.driven (bit w 16) (BitVec.ofNat 8 (bits w 8 8)) (BitVec.ofNat 8 (bits w 0 8))
    y.oe.toNat.testBit p = (if bits w 8 8 / 2 ^ p % 2 = 1 then bit w 16 else x.oe.toNat.testBit p) ∧
    y.val.toNat.testBit p = (if bits w 8 8 / 2 ^ p % 2 = 1 ∧ bit w 16 = true then bit w p else x.val.toNat.testBit p) := by
  have mask := testBit_ofNat8 (bits w 8 8) hp
  have value : (BitVec.ofNat 8 (bits w 0 8)).toNat.testBit p = bit w p := by
    rw [testBit_ofNat8 _ hp, bits_testBit, decide_eq_true hp, Bool.true_and, Nat.zero_add, bit_lsb]
  generalize BitVec.ofNat 8 (bits w 8 8) = m at mask ⊢
  generalize BitVec.ofNat 8 (bits w 0 8) = v at value ⊢
  simp only [testBit_iff_div, ← mask, ← value, BitVec.testBit_toNat]
  unfold EngSt.driven
  rcases on : bit w 16 <;> rcases masked : m.getLsbD p <;>
    simp only [BitVec.getLsbD_or, BitVec.getLsbD_and, BitVec.getLsbD_not, masked, decide_eq_true hp, Bool.and_true,
      Bool.and_false, Bool.false_or, Bool.or_false, Bool.or_true, Bool.not_true, Bool.not_false, and_self, and_true, and_false, if_true, if_false,
      Bool.false_eq_true]

theorem exec_drive_spec {s : State} {c : Fin 64} {d : Fin 40} (h : s.Executes c d 3) :
    let w := s.engFetch c
    ∃ t, exec (.drive c d) s = .next t ∧ s.Advanced t c ∧ ∀ p, p < 8 →
      (t.eng c).oe.toNat.testBit p = (if bits w 8 8 / 2 ^ p % 2 = 1 then bit w 16 else (s.eng c).oe.toNat.testBit p) ∧
      (t.eng c).val.toNat.testBit p =
        (if bits w 8 8 / 2 ^ p % 2 = 1 ∧ bit w 16 = true then bit w p else (s.eng c).val.toNat.testBit p) := by
  intro w
  let m := BitVec.ofNat 8 (bits w 8 8)
  let v := BitVec.ofNat 8 (bits w 0 8)
  let on := bit w 16
  have counted := (s.taken_oneEng _ c d).trans ((s.taken c d).conflictsTo_oneEng (c / 8) ((s.taken c d).tileEdge d) c)
  have driven := counted.setEng (·.driven on m v)
  rw [State.eng_taken] at driven
  have stands : ((s.takenCell c d).driven on m v).pc = (s.eng c).pc ∧ ((s.takenCell c d).driven on m v).st = (s.eng c).st ∧
      ((s.takenCell c d).driven on m v).commitPend = (s.eng c).commitPend := by
    unfold EngSt.driven
    split <;> exact ⟨rfl, rfl, rfl⟩
  obtain ⟨t, executed, advanced, data, -⟩ := driven.completes stands (chEngReg_not_conflicts (by decide) (by decide) (by decide))
    (chEngReg_not_conflicts (by decide) (by decide) (by decide)) (exec_of_executes (i := .drive c d) rfl h (isOp_of_executes h))
  have oe := congrArg EngSt.oe data
  have val := congrArg EngSt.val data
  refine ⟨t, executed, advanced, fun p hp => ?_⟩
  obtain ⟨enabled, values⟩ := EngSt.driven_slots (s.takenCell c d) w hp
  exact ⟨(congrArg (·.toNat.testBit p) oe).trans enabled, (congrArg (·.toNat.testBit p) val).trans values⟩

/-! SAMPLE and LOAD (R165). -/

/-- X or Y given the levels of the slots. -/
def EngSt.sampled (x : EngSt) (w : Word) (v : BitVec 16) : EngSt := if insSel w = 1 then { x with x := v } else { x with y := v }

theorem exec_sample_spec {s : State} {c : Fin 64} {d : Fin 40} (h : s.Executes c d 4) :
    let w := s.engFetch c
    let v := BitVec.ofNat 16 (s.slotLevels c 0 (s.tileEdge d))
    ∃ t, exec (.sample c d) s = .next t ∧ s.Advanced t c ∧ (insSel w = 1 → (t.eng c).x = v ∧ (t.eng c).y = (s.eng c).y) ∧
      (insSel w = 2 → (t.eng c).y = v ∧ (t.eng c).x = (s.eng c).x) := by
  intro w v
  have sampled := (s.taken_oneEng (fun _ => False) c d).setEng (·.sampled w v)
  have stands : ((s.takenCell c d).sampled w v).pc = (s.eng c).pc ∧ ((s.takenCell c d).sampled w v).st = (s.eng c).st ∧
      ((s.takenCell c d).sampled w v).commitPend = (s.eng c).commitPend := by
    unfold EngSt.sampled
    split <;> exact ⟨rfl, rfl, rfl⟩
  obtain ⟨t, executed, advanced, data, -⟩ := sampled.completes stands id id (exec_of_executes (i := .sample c d) rfl h (isOp_of_executes h))
  have x := congrArg EngSt.x data
  have y := congrArg EngSt.y data
  refine ⟨t, executed, advanced, fun sel => ?_, fun sel => ?_⟩
  · rw [EngSt.sampled, if_pos sel] at x y
    exact ⟨x, y⟩
  · rw [EngSt.sampled, if_neg (by omega)] at x y
    exact ⟨y, x⟩

/-- What LOAD gives a counter. -/
def EngSt.loadValue (x : EngSt) (w : Word) : BitVec 16 :=
  match bits w 18 2 with
  | 0 => BitVec.ofNat 16 (bits w 0 16)
  | 1 => x.x
  | _ => x.y

theorem EngSt.loadValue_eq (x : EngSt) (w : Word) : x.loadValue w =
    if bits w 18 2 = 0 then BitVec.ofNat 16 (bits w 0 16) else if bits w 18 2 = 1 then x.x else x.y := by
  unfold EngSt.loadValue
  split
  · next is => rw [if_pos is]
  · next is => rw [if_neg (by omega), if_pos is]
  · next no one => rw [if_neg no, if_neg one]

/-- A counter loaded. -/
def EngSt.loaded (x : EngSt) (second : Bool) (v : BitVec 16) : EngSt := if second then { x with c1 := v } else { x with c0 := v }

theorem exec_load_spec {s : State} {c : Fin 64} {d : Fin 40} (h : s.Executes c d 5) :
    let w := s.engFetch c
    let x := s.eng c
    ∃ t, exec (.load c d) s = .next t ∧ s.Advanced t c ∧
      (if bit w 20 then (t.eng c).c1 else (t.eng c).c0) =
        (if bits w 18 2 = 0 then BitVec.ofNat 16 (bits w 0 16) else if bits w 18 2 = 1 then x.x else x.y) ∧
      (if bit w 20 then (t.eng c).c0 = x.c0 else (t.eng c).c1 = x.c1) := by
  intro w x
  let v := ((s.taken c d).eng c).loadValue w
  have value : v = (s.takenCell c d).loadValue w := congrArg (EngSt.loadValue · w) (State.eng_taken s c d)
  have loaded := (s.taken_oneEng (fun _ => False) c d).setEng (·.loaded (bit w 20) v)
  have stands : ((s.takenCell c d).loaded (bit w 20) v).pc = x.pc ∧ ((s.takenCell c d).loaded (bit w 20) v).st = x.st ∧
      ((s.takenCell c d).loaded (bit w 20) v).commitPend = x.commitPend := by
    unfold EngSt.loaded
    split <;> exact ⟨rfl, rfl, rfl⟩
  obtain ⟨t, executed, advanced, data, -⟩ := loaded.completes stands id id (exec_of_executes (i := .load c d) rfl h (isOp_of_executes h))
  have c0 := congrArg EngSt.c0 data
  have c1 := congrArg EngSt.c1 data
  refine ⟨t, executed, advanced, ?_⟩
  rw [← EngSt.loadValue_eq, show x.loadValue w = v from value.symm]
  cases second : bit w 20
  · rw [EngSt.loaded, second] at c0 c1
    exact ⟨c0, c1⟩
  · rw [EngSt.loaded, second] at c0 c1
    exact ⟨c1, c0⟩

/-! BRANCH (R166, R176). -/

theorem State.branchTaken_taken (s : State) (e d : Nat) (w : Word) (n : Nat) : (s.taken e d).branchTaken e w n = s.branchTaken e w n := by
  unfold State.branchTaken
  rw [State.eng_taken]
  rfl

theorem branchEffect_spec (w : Word) (x : EngSt) : let y := branchEffect w x
    y.st = x.st ∧ y.c0 = (if bits w 16 5 = 1 then x.c0 - 1 else x.c0) ∧ y.c1 = (if bits w 16 5 = 2 then x.c1 - 1 else x.c1) ∧
    y.flags = (if 0x18 ≤ bits w 16 5 ∧ bits w 16 5 < 0x1C ∧ bits w 10 6 % 2 = 1 then
      x.flags &&& ~~~ BitVec.ofNat 4 (2 ^ (bits w 16 5 - 0x18)) else x.flags) := by
  unfold branchEffect
  generalize bits w 16 5 = cond
  dsimp only
  split
  · next is =>
    subst is
    exact ⟨rfl, rfl, rfl, rfl⟩
  · next notFirst =>
    split
    · next is =>
      subst is
      exact ⟨rfl, rfl, rfl, rfl⟩
    · next notSecond =>
      split
      · exact ⟨rfl, rfl, rfl, rfl⟩
      · exact ⟨rfl, rfl, rfl, rfl⟩

theorem exec_branch_taken {s : State} {c : Fin 64} {d : Fin 40} (h : s.Executes c d 6)
    (taken : s.branchTaken c (s.engFetch c) (s.tileEdge d) = true) :
    let w := s.engFetch c
    let x := s.eng c
    ∃ t, exec (.branch c d) s = .next t ∧ (t.eng c).pc = bits w 0 10 ∧ (t.eng c).c0 = (if bits w 16 5 = 1 then x.c0 - 1 else x.c0) ∧
      (t.eng c).c1 = (if bits w 16 5 = 2 then x.c1 - 1 else x.c1) ∧
      (t.eng c).flags = (if 0x18 ≤ bits w 16 5 ∧ bits w 16 5 < 0x1C ∧ bits w 10 6 % 2 = 1 then
        x.flags &&& ~~~ BitVec.ofNat 4 (2 ^ (bits w 16 5 - 0x18)) else x.flags) ∧
      (t.eng c).st = if inSeg (s.engSeg c) (bits w 0 10) then 1 else 2 := by
  intro w x
  have jumped := ((s.taken_oneEng (fun _ => False) c d).setEng (branchEffect w)).engGoto (bits w 0 10) (s.cycleTime d)
  have executed := exec_of_executes (i := .branch c d) rfl h (isOp_of_executes h)
  rw [State.tileEdge_taken, State.branchTaken_taken, if_pos taken, State.cycleTime_taken] at executed
  have place : bits w 0 10 % 1024 = bits w 0 10 := Nat.mod_eq_of_lt (bits_lt w 0 10)
  obtain ⟨st, c0, c1, flags⟩ := branchEffect_spec w (s.takenCell c d)
  have running : (branchEffect w (s.takenCell c d)).st = 1 := st.trans (State.running_of_engNow h.1)
  have data := (congrArg EngSt.data jumped.cell).trans (EngSt.gone_data ..)
  have jumped_c0 := congrArg EngSt.c0 data
  have jumped_c1 := congrArg EngSt.c1 data
  have jumped_flags := congrArg EngSt.flags data
  refine ⟨_, executed, ?_, ?_, ?_, ?_, ?_⟩
  · rw [jumped.cell, EngSt.gone_pc, place]
  · exact jumped_c0.trans c0
  · exact jumped_c1.trans c1
  · exact jumped_flags.trans flags
  · rw [jumped.cell, EngSt.gone_st, place, running]
    rfl

theorem exec_branch_passed {s : State} {c : Fin 64} {d : Fin 40} (h : s.Executes c d 6)
    (passed : s.branchTaken c (s.engFetch c) (s.tileEdge d) = false) :
    let x := s.eng c
    ∃ t, exec (.branch c d) s = .next t ∧ s.Advanced t c ∧ (t.eng c).c0 = x.c0 ∧ (t.eng c).c1 = x.c1 ∧ (t.eng c).flags = x.flags := by
  intro x
  have executed := exec_of_executes (i := .branch c d) rfl h (isOp_of_executes h)
  rw [State.tileEdge_taken, State.branchTaken_taken, passed] at executed
  obtain ⟨t, executed, advanced, data, -⟩ := (s.taken_oneEng (fun _ => False) c d).completes ⟨rfl, rfl, rfl⟩ id id executed
  have c0 := congrArg EngSt.c0 data
  have c1 := congrArg EngSt.c1 data
  have flags := congrArg EngSt.flags data
  exact ⟨t, executed, advanced, c0, c1, flags⟩

/-! MARK (R164, R183). -/

theorem isMark_of_executes {s : State} {e d : Nat} (h : s.Executes e d 10) {kind : Nat} (is : bits (s.engFetch e) 19 2 = kind) :
    (isOp 10 (s.engFetch e) && decide (markKind (s.engFetch e) = kind)) = true := by
  rw [isOp_of_executes h, markKind, decide_eq_true is, Bool.and_self]

theorem OneEng.markIrq {W : Nat → Prop} {e : Nat} {x : EngSt} {s u : State} (h : OneEng W e x s u) (w : Word) : OneEng W e x s (u.markIrq e w) := by
  unfold State.markIrq
  split
  · exact h.raise _ _
  · exact h

theorem State.markIrq_raised (u : State) (e : Nat) {w : Word} (irq : bit w 16 = true) : (u.markIrq e w).Raised (0x80 + e) 16 := by
  rw [State.markIrq, if_pos irq]
  exact u.raise_raised _ (by decide)

theorem exec_markSetFlag_spec {s : State} {c : Fin 64} {d : Fin 40} (h : s.Executes c d 10) (kind : bits (s.engFetch c) 19 2 = 0) :
    let w := s.engFetch c
    ∃ t, exec (.markSetFlag c d) s = .next t ∧ s.Advanced t c ∧ (t.eng c).flags = (s.eng c).flags ||| BitVec.ofNat 4 (2 ^ bits w 17 2) ∧
      (bit w 16 = true → t.Raised (0x80 + c) 16) := by
  intro w
  have marked := ((s.taken_oneEng (fun _ => False) c d).setEng fun x => { x with flags := x.flags ||| markFlag w }).markIrq w
  obtain ⟨t, executed, advanced, data, -, raised⟩ := marked.completes ⟨rfl, rfl, rfl⟩ id id
    (exec_of_executes (i := .markSetFlag c d) rfl h (isMark_of_executes h kind))
  have flags := congrArg EngSt.flags data
  exact ⟨t, executed, advanced, flags, fun irq => raised (State.markIrq_raised _ c irq)⟩

theorem exec_markClearFlag_spec {s : State} {c : Fin 64} {d : Fin 40} (h : s.Executes c d 10) (kind : bits (s.engFetch c) 19 2 = 1) :
    let w := s.engFetch c
    ∃ t, exec (.markClearFlag c d) s = .next t ∧ s.Advanced t c ∧ (t.eng c).flags = (s.eng c).flags &&& ~~~ BitVec.ofNat 4 (2 ^ bits w 17 2) ∧
      (bit w 16 = true → t.Raised (0x80 + c) 16) := by
  intro w
  have marked := ((s.taken_oneEng (fun _ => False) c d).setEng fun x => { x with flags := x.flags &&& ~~~ markFlag w }).markIrq w
  obtain ⟨t, executed, advanced, data, -, raised⟩ := marked.completes ⟨rfl, rfl, rfl⟩ id id
    (exec_of_executes (i := .markClearFlag c d) rfl h (isMark_of_executes h kind))
  have flags := congrArg EngSt.flags data
  exact ⟨t, executed, advanced, flags, fun irq => raised (State.markIrq_raised _ c irq)⟩

theorem State.cycleTime_postAt (s : State) (n ty : Nat) (b : Block) (inst flags : Nat) (time : TimePoint) (q : Nat) (w4 w5 w6 w7 : Word) :
    (s.postAt ty b inst flags time q w4 w5 w6 w7).cycleTime n = s.cycleTime n := by
  rw [State.cycleTime, State.now, (s.postAt_touches ty b inst flags time q w4 w5 w6 w7).time (by decide), State.cycleTime, State.now]

theorem State.engPost_taken (s : State) (e d c ty flags : Nat) (time : TimePoint) (w4 w5 w6 w7 : Word) :
    (s.taken e d).engPost c ty flags time w4 w5 w6 w7 = (s.taken e d).postAt ty .ch c flags time s.qualSum w4 w5 w6 w7 := rfl

theorem exec_markPost {s : State} {c : Fin 64} {d : Fin 40} (h : s.Executes c d 10) (kind : bits (s.engFetch c) 19 2 = 2) :
    let w := s.engFetch c
    let x := s.eng c
    let u := (s.taken c d).postAt 0x30 .ch c 0 (s.cycleTime d) s.qualSum (w32 (at_ 16 (bits w 0 8) + x.pc))
      (w32 (at_ 16 x.y.toNat + x.x.toNat)) (countsWord x.isrN x.osrN) (w32 x.flags.toNat)
    exec (.markPost c d) s = .next ((u.markIrq c w).engAdvance c (s.cycleTime d)) := by
  intro w x u
  rw [exec_of_executes (i := .markPost c d) rfl h (isMark_of_executes h kind)]
  dsimp only
  rw [State.eng_taken, State.cycleTime_taken, State.engPost_taken, State.cycleTime_postAt, State.cycleTime_taken]
  rfl

theorem exec_markPost_spec {s : State} {c : Fin 64} {d : Fin 40} (h : s.Executes c d 10) (kind : bits (s.engFetch c) 19 2 = 2) :
    let w := s.engFetch c
    let x := s.eng c
    let u := (s.engTake c (s.tileEdge d) w).postAt 0x30 .ch c 0 (s.cycleTime d) s.qualSum (w32 (at_ 16 (bits w 0 8) + x.pc))
      (w32 (at_ 16 x.y.toNat + x.x.toNat)) (countsWord x.isrN x.osrN) (w32 x.flags.toNat)
    ∃ t, exec (.markPost c d) s = .next t ∧ t = (u.markIrq c w).engAdvance c (s.cycleTime d) ∧ s.Advanced t c := by
  intro w x u
  have posted := ((s.taken_oneEng (fun _ => False) c d).engPost c 0x30 0 (s.cycleTime d) (w32 (at_ 16 (bits w 0 8) + x.pc))
      (w32 (at_ 16 x.y.toNat + x.x.toNat)) (countsWord x.isrN x.osrN) (w32 x.flags.toNat)).markIrq w
  obtain ⟨advanced, -⟩ := posted.advances ⟨rfl, rfl, rfl⟩ id id (s.cycleTime d)
  exact ⟨_, exec_markPost h kind, rfl, advanced⟩

/-- Settles O34: each instruction acts on its engine's cell in the cycle taken, and completes. -/
theorem engineInstructionsComputeAndAdvance : Obligations.EngineInstructionsComputeAndAdvance := by
  intro s c d w x n
  refine ⟨exec_halt, exec_shiftOut_spec, exec_shiftIn_spec, exec_drive_spec, exec_sample_spec, exec_load_spec, fun h => ?_,
    exec_markSetFlag_spec, exec_markClearFlag_spec, exec_markPost_spec⟩
  cases taken : s.branchTaken c w (s.tileEdge d)
  · obtain ⟨t, executed, passed⟩ := exec_branch_passed h taken
    exact ⟨t, executed, fun is => absurd is (by decide), fun _ => passed⟩
  · obtain ⟨t, executed, jumped⟩ := exec_branch_taken h taken
    exact ⟨t, executed, fun _ => jumped, fun is => absurd is (by decide)⟩

end Sys2Proof.Machine
end

section
/-! Commands and register writes of a tine engine (R168, R174, R175, R178, R179). -/

namespace Sys2Proof.Machine

/-! A write of an engine's register while the hub die and the tile's clock run. -/

/-- A tile whose running clock is noted as needed now. -/
def State.tileSeen (s : State) (n : Nat) : State := s.setTile n fun x => { x with clkAt := s.tclks }

theorem State.tileReady_tileSeen {s : State} {n : Nat} (ready : s.TileReady n) : (s.tileSeen n).TileReady n := by
  obtain ⟨up, running⟩ := ready
  refine ⟨up, ?_⟩
  rw [State.tileSeen, State.tile_setTile_same]
  exact running

theorem State.agentReg_eng {s : State} (a : Agent) {c : Fin 64} {off : Nat} (v : Word) (ready : s.TileReady (c / 8)) (low : 0x400 ≤ off)
    (high : off < 0x490) (aligned : off % 4 = 0) :
    s.agentReg a (0x80 + c) off v = ((s.tileSeen (c / 8)).engWrite c off v).written := by
  have apart : cntClrOff .ch ≠ some off := by
    intro clears
    cases clears
    omega
  have engine (u : State) : u.chWrite c off v = u.engWrite c off v := if_pos ⟨low, high⟩
  rw [State.agentReg_reached v (State.reaches_ch a c.isLt ready) (by omega) aligned (by omega),
    s.pageWrite_ch a v c.isLt (by omega) (by omega) apart, State.tileWake_of_running ready.2, engine]
  rfl

/-- A write of ENG_CMD. -/
theorem State.agentReg_engCmd {s : State} (a : Agent) {c : Fin 64} {v : Word} {f : State → State} (ready : s.TileReady (c / 8))
    (does : ∀ u : State, u.engCommand c v = f u) : s.agentReg a (0x80 + c) 0x420 v = (f (s.tileSeen (c / 8))).written := by
  rw [State.agentReg_eng a v ready (by decide) (by decide) (by decide), ← does]
  rfl

section Commands

variable (s : State) (e : Nat)

theorem State.engCommand_start : s.engCommand e 0x01 = s.engStart e := rfl
theorem State.engCommand_reset : s.engCommand e 0x04 = s.engReset e := rfl
theorem State.engCommand_commit : s.engCommand e 0x08 = s.engCommit e false := rfl
theorem State.engCommand_commitNow : s.engCommand e 0x18 = s.engCommit e true := rfl
theorem State.engCommand_copy : s.engCommand e 0x40 = s.engCopy e := rfl
theorem State.engCommand_cancel : s.engCommand e 0x80 = s.engCancel e := rfl

end Commands

theorem State.rd_tileSeen (s : State) (n k : Nat) : (s.tileSeen n).rd k = s.rd k := rfl
theorem State.sram_tileSeen (s : State) (n : Nat) : (s.tileSeen n).sram = s.sram := rfl
theorem State.sram_written (s : State) : s.written.sram = s.sram := rfl
theorem State.engs_written (s : State) : s.written.engs = s.engs := rfl
theorem State.eng_written (s : State) (e : Nat) : s.written.eng e = s.eng e := rfl

theorem OneEng.seen (W : Nat → Prop) (e n : Nat) (s : State) : OneEng W e (s.eng e) s (s.tileSeen n) :=
  (OneEng.refl W e s).report rfl ((Reported.refl s).same rfl rfl)

theorem OneEng.written {W : Nat → Prop} {e : Nat} {x : EngSt} {s t : State} (h : OneEng W e x s t) : OneEng W e x s t.written :=
  h.report rfl ((Reported.refl t).same rfl rfl)

/-! Commits (R178, R179). -/

/-- No register beside IRQ_PENDs and those of the EVQ page. -/
abbrev NoReg : Nat → Prop := fun _ => False

/-- ENG_ENTRY and ENG_WRAP, which a swap of the banks takes from ENG_NEXT. -/
def CommitRegs (e : Nat) : Nat → Prop := fun k => k = Reg.chEngEntry e ∨ k = Reg.chEngWrap e

/-- The banks swapped. -/
def EngSt.swapped (x : EngSt) : EngSt := { x with bank := !x.bank, commitPend := false, next := .run }

/-- What an abandoned instruction leaves. -/
def EngSt.abandoned (x : EngSt) : EngSt :=
  let y := { x with wait := none, stalled := false, next := .run, prepared := false }
  if x.isrN ≠ 0 ∨ x.osrN ≠ 0 then { y with partialShift := true, partialIsr := x.isrN, partialOsr := x.osrN } else y

theorem EngSt.abandoned_keeps (x : EngSt) : x.abandoned.wait = none ∧ x.abandoned.pc = x.pc ∧ x.abandoned.st = x.st ∧
    x.abandoned.bank = x.bank ∧ x.abandoned.startedAt = x.startedAt := by
  unfold EngSt.abandoned
  dsimp only
  split <;> exact ⟨rfl, rfl, rfl, rfl, rfl⟩

theorem OneEng.engAbandon {W : Nat → Prop} {e : Nat} {x : EngSt} {s t : State} (h : OneEng W e x s t) (reason : Nat) (time : TimePoint) :
    OneEng W e x.abandoned s (t.engAbandon e reason time) := by
  have left := h.setEng fun x => { x with wait := none, stalled := false, next := .run, prepared := false }
  unfold State.engAbandon EngSt.abandoned
  dsimp only
  rw [h.cell]
  split
  · exact ((left.setEng fun y => { y with partialShift := true, partialIsr := y.isrN, partialOsr := y.osrN }).raise (0x80 + e) 18).engPost
      e 0x32 0 time (w32 (at_ 28 reason + x.pc)) (countsWord x.isrN x.osrN) x.isr x.osr
  · exact left

theorem OneEng.engSwap {e : Nat} {x : EngSt} {s t : State} (h : OneEng (CommitRegs e) e x s t) :
    OneEng (CommitRegs e) e x.swapped s (t.engSwap e) := by
  have irq {off : Nat} (low : off < 0x1000) (apart : off ≠ 0x010) : pageKey (0x80 + e) off % 0x1000 ≠ 0x010 := by
    unfold pageKey
    omega
  exact ((h.wr _ (irq (by decide) (by decide)) (.inl rfl)).wr _ (irq (by decide) (by decide)) (.inr rfl)).setEng EngSt.swapped

/-- An engine's cell with its clock set. -/
def EngSt.clocked (x : EngSt) (acc edge left : Nat) : EngSt := { x with acc, edge, left }

theorem OneEng.engSync {W : Nat → Prop} {e : Nat} {x : EngSt} {s t : State} (h : OneEng W e x s t) (n left : Nat) :
    OneEng W e (x.clocked (t.engAcc e n % t.engDivider e) n left) s (t.engSync e n left) := h.setEng (·.clocked _ n left)

theorem OneEng.commitDone {W : Nat → Prop} {e : Nat} {x : EngSt} {s t : State} (h : OneEng W e x s t) (next : Nat) (immediate : Bool)
    (time : TimePoint) : OneEng W e x s (t.commitDone e next immediate time) := (h.raise _ _).engPost ..

theorem State.commitDone_raised (s : State) (e next : Nat) (immediate : Bool) (time : TimePoint) :
    (s.commitDone e next immediate time).Raised (0x80 + e) 19 :=
  ((Reported.refl (W := NoReg) _).postAt _ _ _ _ _ _ _ _ _ _).raised (s.raise_raised _ (by decide))

theorem OneEng.mono {W V : Nat → Prop} {e : Nat} {x : EngSt} {s t : State} (h : OneEng W e x s t) (sub : ∀ k, W k → V k) :
    OneEng V e x s t := ⟨h.cell, h.others, h.reported.mono sub⟩

theorem State.rd_setEng (s : State) (e k : Nat) (f : EngSt → EngSt) : (s.setEng e f).rd k = s.rd k := rfl

theorem State.engSwap_entry (s : State) (e : Nat) :
    (s.engSwap e).rd (Reg.chEngEntry e) = w32 (bits (s.rd (Reg.chEngNext e)) 20 10) := by
  have apart : Reg.chEngEntry e ≠ Reg.chEngWrap e := by
    unfold Reg.chEngEntry Reg.chEngWrap pageKey
    omega
  unfold State.engSwap
  dsimp only
  rw [State.rd_setEng, State.rd_wr_ne _ _ apart, State.rd_wr_same]

theorem State.engSwap_wrap (s : State) (e : Nat) : (s.engSwap e).rd (Reg.chEngWrap e) =
    w32 (at_ 16 (bits (s.rd (Reg.chEngNext e)) 10 10) + bits (s.rd (Reg.chEngNext e)) 0 10) := by
  unfold State.engSwap
  dsimp only
  rw [State.rd_setEng, State.rd_wr_same]

/-- The banks of an engine were swapped, ENTRY and the wrap addresses taken from ENG_NEXT, and COMMIT_DONE is raised (R178). -/
def State.Swapped (s t : State) (e : Nat) : Prop :=
  let n := s.rd (Reg.chEngNext e)
  (t.eng e).bank = (!(s.eng e).bank) ∧ t.rd (Reg.chEngEntry e) = w32 (bits n 20 10) ∧
    t.rd (Reg.chEngWrap e) = w32 (at_ 16 (bits n 10 10) + bits n 0 10) ∧ (t.eng e).commitPend = false ∧ t.Raised (0x80 + e) 19

/-- A swap and its report, after which the engine's banks stay swapped. -/
theorem OneEng.swapped {e : Nat} {x y : EngSt} {s u t : State} {next : Nat} {immediate : Bool} {time : TimePoint}
    (before : OneEng NoReg e x s u) (after : Reported NoReg ((u.engSwap e).commitDone e next immediate time) t)
    (data : (t.eng e).data = y.data) (bank : y.bank = !(s.eng e).bank) (pend : y.commitPend = false) : s.Swapped t e := by
  have nowBank := congrArg EngSt.bank data
  have nowPend := congrArg EngSt.commitPend data
  have done := (OneEng.refl NoReg e (u.engSwap e)).commitDone next immediate time
  have live {off : Nat} (low : off < 0x1000) (irq : off ≠ 0x010) :
      t.rd (pageKey (0x80 + e) off) = (u.engSwap e).rd (pageKey (0x80 + e) off) :=
    (after.rd_ch low irq id).trans (done.reported.rd_ch low irq id)
  have entry := u.engSwap_entry e
  have wrap := u.engSwap_wrap e
  have same : u.rd (Reg.chEngNext e) = s.rd (Reg.chEngNext e) := before.reported.rd_ch (by decide) (by decide) id
  rw [same] at entry wrap
  exact ⟨nowBank.trans bank, (live (by decide) (by decide)).trans entry, (live (by decide) (by decide)).trans wrap, nowPend.trans pend,
    after.raised (State.commitDone_raised ..)⟩

/-- Where a commit that is not refused begins: PARTIAL_SHIFT is cleared, and with IMMEDIATE = 1 what executes is abandoned. -/
def State.commitBegun (s : State) (e : Nat) (immediate : Bool) (time : TimePoint) : State :=
  let s := s.setEng e fun x => { x with partialShift := false }
  if immediate then s.engAbandon e 0 time else s

def EngSt.commitBegun (x : EngSt) (immediate : Bool) : EngSt :=
  if immediate then EngSt.abandoned { x with partialShift := false } else { x with partialShift := false }

theorem OneEng.commitBegun {W : Nat → Prop} {e : Nat} {x : EngSt} {s t : State} (h : OneEng W e x s t) (immediate : Bool) (time : TimePoint) :
    OneEng W e (x.commitBegun immediate) s (t.commitBegun e immediate time) := by
  have cleared := h.setEng fun x => { x with partialShift := false }
  cases immediate
  · exact cleared
  · exact cleared.engAbandon 0 time

theorem EngSt.commitBegun_keeps (x : EngSt) (immediate : Bool) :
    (x.commitBegun immediate).pc = x.pc ∧ (x.commitBegun immediate).bank = x.bank := by
  cases immediate
  · exact ⟨rfl, rfl⟩
  · obtain ⟨-, pc, -, bank, -⟩ := EngSt.abandoned_keeps { x with partialShift := false }
    exact ⟨pc, bank⟩

theorem State.engCommit_busy {s : State} {e : Nat} (busy : (s.eng e).copyBusy = true) (immediate : Bool) :
    s.engCommit e immediate = s.bump (Reg.chCntProgRefused e) := by
  unfold State.engCommit
  exact if_pos busy

theorem State.engCommit_stopped {s : State} {e : Nat} (free : (s.eng e).copyBusy = false) (stopped : (s.eng e).st ≠ 1) (immediate : Bool) :
    s.engCommit e immediate = ((s.commitBegun e immediate (s.nextCycleTime e)).engSwap e).commitDone e
      (bits (s.rd (Reg.chEngNext e)) 20 10) immediate (s.nextCycleTime e) := by
  unfold State.engCommit
  dsimp only
  rw [if_neg (by rw [free]; decide), if_pos stopped]
  rfl

theorem State.engCommit_running {s : State} {e : Nat} (free : (s.eng e).copyBusy = false) (running : (s.eng e).st = 1) :
    s.engCommit e true = ((((s.commitBegun e true (s.nextCycleTime e)).engSwap e).commitDone e (bits (s.rd (Reg.chEngNext e)) 20 10) true
      (s.nextCycleTime e)).engSync e (s.tileNow e) 1).engGoto e (bits (s.rd (Reg.chEngNext e)) 20 10) (s.nextCycleTime e) := by
  unfold State.engCommit
  dsimp only
  rw [if_neg (by rw [free]; decide), if_neg (fun stopped => stopped running)]
  rfl

theorem State.engCommit_atWrap {s : State} {e : Nat} (free : (s.eng e).copyBusy = false) (running : (s.eng e).st = 1) :
    s.engCommit e false =
      (s.setEng e fun x => { x with partialShift := false }).setEng e fun x => { x with commitPend := true } := by
  unfold State.engCommit
  dsimp only
  rw [if_neg (by rw [free]; decide), if_neg (fun stopped => stopped running)]
  rfl

theorem State.engs_bump (s : State) (k : Nat) : (s.bump k).engs = s.engs := rfl

theorem State.engCommit_busy_spec {s : State} {c : Fin 64} (busy : (s.eng c).copyBusy = true) (immediate : Bool) (n : Nat) :
    let t := ((s.tileSeen n).engCommit c immediate).written
    t.engs = s.engs ∧ t.rd (Reg.chCntProgRefused c) = satInc (s.rd (Reg.chCntProgRefused c)) := by
  rw [State.engCommit_busy (s := s.tileSeen n) busy]
  dsimp only
  rw [State.engs_written, State.engs_bump, State.rd_written, State.rd_bump_same, State.rd_tileSeen]
  exact ⟨rfl, rfl⟩

theorem State.engCommit_stopped_spec {s : State} {c : Fin 64} (free : (s.eng c).copyBusy = false) (stopped : (s.eng c).st ≠ 1)
    (immediate : Bool) (n : Nat) : let t := ((s.tileSeen n).engCommit c immediate).written
    s.Swapped t c ∧ (t.eng c).pc = (s.eng c).pc := by
  rw [State.engCommit_stopped (s := s.tileSeen n) free stopped]
  intro t
  have begun := (OneEng.seen NoReg c n s).commitBegun immediate ((s.tileSeen n).nextCycleTime c)
  have swapped := ((begun.mono fun _ => False.elim).engSwap.commitDone (bits ((s.tileSeen n).rd (Reg.chEngNext c)) 20 10) immediate
    ((s.tileSeen n).nextCycleTime c)).written
  obtain ⟨pc, bank⟩ := (s.eng c).commitBegun_keeps immediate
  have data := congrArg EngSt.data swapped.cell
  have nowPc := congrArg EngSt.pc swapped.cell
  exact ⟨begun.swapped (OneEng.refl NoReg c _).written.reported data (congrArg Bool.not bank) rfl, nowPc.trans pc⟩

theorem State.engCommit_running_spec {s : State} {c : Fin 64} (free : (s.eng c).copyBusy = false) (running : (s.eng c).st = 1) (n : Nat) :
    let t := ((s.tileSeen n).engCommit c true).written
    s.Swapped t c ∧ (t.eng c).pc = bits (s.rd (Reg.chEngNext c)) 20 10 ∧ (t.eng c).wait = none := by
  rw [State.engCommit_running (s := s.tileSeen n) free running]
  intro t
  let time := (s.tileSeen n).nextCycleTime c
  let entry := bits ((s.tileSeen n).rd (Reg.chEngNext c)) 20 10
  let done := (((s.tileSeen n).commitBegun c true time).engSwap c).commitDone c entry true time
  have begun := (OneEng.seen NoReg c n s).commitBegun true time
  have swapped : OneEng (CommitRegs c) c _ s done := (begun.mono fun _ => False.elim).engSwap.commitDone entry true time
  have after := (((OneEng.refl NoReg c done).engSync ((s.tileSeen n).tileNow c) 1).engGoto entry time).written
  have cell := after.cell
  rw [swapped.cell] at cell
  obtain ⟨-, bank⟩ := (s.eng c).commitBegun_keeps true
  obtain ⟨wait, -⟩ := EngSt.abandoned_keeps { s.eng c with partialShift := false }
  have data := (congrArg EngSt.data cell).trans (EngSt.gone_data ..)
  have nowPc := (congrArg EngSt.pc cell).trans (EngSt.gone_pc ..)
  have nowWait := (congrArg EngSt.wait cell).trans (EngSt.gone_wait (by exact wait) ..)
  exact ⟨begun.swapped after.reported data (congrArg Bool.not bank) rfl,
    nowPc.trans (Nat.mod_eq_of_lt (bits_lt _ 20 10)), nowWait⟩

theorem bits_low_at (n : Word) : bits (w32 (at_ 16 (bits n 10 10) + bits n 0 10)) 0 10 = bits n 0 10 := by
  have low := bits_lt n 0 10
  have high := bits_lt n 10 10
  generalize bits n 0 10 = a at low ⊢
  generalize bits n 10 10 = b at high ⊢
  unfold bits w32 at_
  rw [BitVec.toNat_ofNat]
  omega

theorem exec_commit_busy {s : State} {c : Fin 64} (ready : s.TileReady (c / 8)) (busy : (s.eng c).copyBusy = true) (a : Agent) :
    ∀ i ∈ [Instr.commitAtWrap c, .commitImmediate c a],
      ∃ t, exec i s = .next t ∧ t.engs = s.engs ∧ t.rd (Reg.chCntProgRefused c) = satInc (s.rd (Reg.chCntProgRefused c)) := by
  rintro i (_ | ⟨_, _ | ⟨_, ⟨⟩⟩⟩)
  · exact ⟨_, congrArg Host.Outcome.next (State.agentReg_engCmd .host ready fun u => u.engCommand_commit c),
      State.engCommit_busy_spec busy false _⟩
  · exact ⟨_, congrArg Host.Outcome.next (State.agentReg_engCmd a ready fun u => u.engCommand_commitNow c),
      State.engCommit_busy_spec busy true _⟩

theorem exec_commit_stopped {s : State} {c : Fin 64} (ready : s.TileReady (c / 8)) (free : (s.eng c).copyBusy = false)
    (stopped : (s.eng c).st ≠ 1) (a : Agent) : ∀ i ∈ [Instr.commitAtWrap c, .commitImmediate c a],
      ∃ t, exec i s = .next t ∧ s.Swapped t c ∧ (t.eng c).pc = (s.eng c).pc := by
  rintro i (_ | ⟨_, _ | ⟨_, ⟨⟩⟩⟩)
  · exact ⟨_, congrArg Host.Outcome.next (State.agentReg_engCmd .host ready fun u => u.engCommand_commit c),
      State.engCommit_stopped_spec free stopped false _⟩
  · exact ⟨_, congrArg Host.Outcome.next (State.agentReg_engCmd a ready fun u => u.engCommand_commitNow c),
      State.engCommit_stopped_spec free stopped true _⟩

theorem exec_commitAtWrap {s : State} {c : Fin 64} (ready : s.TileReady (c / 8)) (free : (s.eng c).copyBusy = false)
    (running : (s.eng c).st = 1) : ∃ t, exec (.commitAtWrap c) s = .next t ∧ (t.eng c).commitPend = true ∧
      (t.eng c).partialShift = false ∧ (t.eng c).pc = (s.eng c).pc ∧ (t.eng c).bank = (s.eng c).bank := by
  have write := State.agentReg_engCmd .host ready fun u => u.engCommand_commit c
  rw [State.engCommit_atWrap (s := s.tileSeen (c / 8)) free running] at write
  have cell := (((OneEng.seen NoReg c (c / 8) s).setEng fun x => { x with partialShift := false }).setEng
    fun x => { x with commitPend := true }).written.cell
  have pend := congrArg EngSt.commitPend cell
  have shift := congrArg EngSt.partialShift cell
  have pc := congrArg EngSt.pc cell
  have bank := congrArg EngSt.bank cell
  exact ⟨_, congrArg Host.Outcome.next write, pend, shift, pc, bank⟩

theorem exec_commitImmediate {s : State} {c : Fin 64} (ready : s.TileReady (c / 8)) (free : (s.eng c).copyBusy = false)
    (running : (s.eng c).st = 1) (a : Agent) : ∃ t, exec (.commitImmediate c a) s = .next t ∧ s.Swapped t c ∧
      (t.eng c).pc = bits (s.rd (Reg.chEngNext c)) 20 10 ∧ (t.eng c).wait = none :=
  ⟨_, congrArg Host.Outcome.next (State.agentReg_engCmd a ready fun u => u.engCommand_commitNow c),
    State.engCommit_running_spec free running _⟩

theorem exec_commitSwap {s : State} {c : Fin 64} (running : (s.eng c).st = 1) (pending : (s.eng c).next = .swap) (d : Fin 40) :
    ∃ t, exec (.commitSwap c d) s = .next t ∧ s.Swapped t c ∧ (t.eng c).pc = bits (s.rd (Reg.chEngNext c)) 0 10 ∧
      (t.eng c).next = .run := by
  let u := s.engSwap c
  let bottom := u.fld (Reg.chEngWrap c) 0 10
  have executed : exec (.commitSwap c d) s =
      .next ((u.commitDone c bottom false (u.cycleTime d)).engGoto c bottom (u.cycleTime d)) :=
    congrArg Host.Outcome.next (if_pos ⟨running, pending⟩)
  have low : bottom = bits (s.rd (Reg.chEngNext c)) 0 10 := by
    rw [show bottom = bits (u.rd (Reg.chEngWrap c)) 0 10 from rfl, s.engSwap_wrap c, bits_low_at]
  have swapped := (OneEng.refl (CommitRegs c) c s).engSwap.commitDone bottom false (u.cycleTime d)
  have after := (OneEng.refl NoReg c (u.commitDone c bottom false (u.cycleTime d))).engGoto bottom (u.cycleTime d)
  have cell := after.cell
  rw [swapped.cell] at cell
  have data := (congrArg EngSt.data cell).trans (EngSt.gone_data ..)
  refine ⟨_, executed, (OneEng.refl NoReg c s).swapped after.reported data rfl rfl, ?_, ?_⟩
  · rw [cell, EngSt.gone_pc, low]
    exact Nat.mod_eq_of_lt (bits_lt _ 0 10)
  · rw [cell]
    exact EngSt.gone_next rfl ..

/-- An instruction that completes without a pending commit leaves no swap to be made. -/
theorem EngSt.advanced_next {x : EngSt} (pend : x.commitPend = false) (run : x.next = .run) (seg wrap : Word) :
    (x.advanced seg wrap).next = .run := by
  unfold EngSt.advanced
  rw [pend]
  split
  · exact EngSt.gone_next run ..
  · exact EngSt.gone_next run ..

theorem EngSt.advanced_commitPend (x : EngSt) (seg wrap : Word) : (x.advanced seg wrap).commitPend = x.commitPend := by
  have same := congrArg EngSt.commitPend (x.advanced_data seg wrap)
  exact same

theorem State.engCancel_spec (s : State) (c n : Nat) : let t := ((s.tileSeen n).engCancel c).written
    (t.eng c).commitPend = false ∧ (t.eng c).next = .run ∧ ((s.eng c).next = .run → (t.eng c).pc = (s.eng c).pc) := by
  have cancelled := (OneEng.seen NoReg c n s).setEng fun x => { x with commitPend := false, next := .run }
  unfold State.engCancel
  dsimp only
  rw [State.eng_written]
  by_cases passed : (s.eng c).next = .swap
  · rw [if_pos (show ((s.tileSeen n).eng c).next = .swap from passed)]
    have advanced := cancelled.engAdvance (s.tileSeen n).now
    have pend := (congrArg EngSt.commitPend advanced.cell).trans (EngSt.advanced_commitPend ..)
    have next := (congrArg EngSt.next advanced.cell).trans (EngSt.advanced_next rfl rfl ..)
    exact ⟨pend, next, fun run => absurd (passed.symm.trans run) (by decide)⟩
  · rw [if_neg (show ¬ ((s.tileSeen n).eng c).next = .swap from passed)]
    have cell := cancelled.cell
    have pend := congrArg EngSt.commitPend cell
    have next := congrArg EngSt.next cell
    have pc := congrArg EngSt.pc cell
    exact ⟨pend, next, fun _ => pc⟩

theorem exec_cancelCommit {s : State} {c : Fin 64} (ready : s.TileReady (c / 8)) : ∃ t, exec (.cancelCommit c) s = .next t ∧
    (t.eng c).commitPend = false ∧ (t.eng c).next = .run ∧ ((s.eng c).next = .run → (t.eng c).pc = (s.eng c).pc) :=
  ⟨_, congrArg Host.Outcome.next (State.agentReg_engCmd .host ready fun u => u.engCommand_cancel c), s.engCancel_spec c _⟩

/-! ENGINE_RESET (R156). -/

/-- An engine's cell reset: what ENGINE_RESET leaves of it. -/
def EngSt.reset (x : EngSt) (entry : Nat) : EngSt := { x with
  st := 0, pc := entry, isr := 0, osr := 0, isrN := 0, osrN := 0, x := 0, y := 0, c0 := 0, c1 := 0, flags := 0, oe := 0, val := 0,
  partialShift := false, commitPend := false, wait := none, stalled := false, next := .run, prepared := false }

theorem exec_engineReset {s : State} {c : Fin 64} (ready : s.TileReady (c / 8)) : ∃ t, exec (.engineReset c) s = .next t ∧
    (t.eng c).st = 0 ∧ (t.eng c).pc = s.fld (Reg.chEngEntry c) 0 10 ∧ (t.eng c).isr = 0 ∧ (t.eng c).osr = 0 ∧ (t.eng c).oe = 0 ∧
    (t.eng c).val = 0 ∧ (t.eng c).flags = 0 ∧ (t.eng c).bank = (s.eng c).bank ∧ ∀ e : Nat, e ≠ c → t.eng e = s.eng e := by
  have write := State.agentReg_engCmd .host ready fun u => u.engCommand_reset c
  obtain ⟨cell, others, -⟩ := ((OneEng.seen NoReg c (c / 8) s).setEng (·.reset (s.fld (Reg.chEngEntry c) 0 10))).written
  have st := congrArg EngSt.st cell
  have pc := congrArg EngSt.pc cell
  have isr := congrArg EngSt.isr cell
  have osr := congrArg EngSt.osr cell
  have oe := congrArg EngSt.oe cell
  have val := congrArg EngSt.val cell
  have flags := congrArg EngSt.flags cell
  have bank := congrArg EngSt.bank cell
  exact ⟨_, congrArg Host.Outcome.next write, st, pc, isr, osr, oe, val, flags, bank, others⟩

/-! Copies and segments (R174, R175). -/

theorem State.sram_engCopy (s : State) (e : Nat) : (s.engCopy e).sram = s.sram := rfl

theorem exec_copyActive {s : State} {c : Fin 64} (ready : s.TileReady (c / 8)) :
    ∃ t, exec (.copyActive c) s = .next t ∧ (t.eng c).copyBusy = true ∧ t.sram = s.sram := by
  have write := State.agentReg_engCmd .host ready fun u => u.engCommand_copy c
  have cell := ((OneEng.seen NoReg c (c / 8) s).setEng fun x => { x with copyBusy := true, copyAt := (s.tileSeen (c / 8)).tileNow c }).written.cell
  have busy := congrArg EngSt.copyBusy cell
  refine ⟨_, congrArg Host.Outcome.next write, busy, ?_⟩
  rw [State.sram_written, State.sram_engCopy, State.sram_tileSeen]

/-- One instruction of the active bank copied into the other. -/
def State.copyWord (e : Nat) (bank : Bool) (s : State) (i : Nat) : State := s.sramSet (instrKey e (!bank) i) (s.sramGet (instrKey e bank i))

theorem State.sramGet_sramSet_ne (s : State) {j k : Nat} (w : Word) (h : j ≠ k) : (s.sramSet k w).sramGet j = s.sramGet j := Tab.get_set_ne h

theorem instrKey_ne (e : Nat) (bank : Bool) (i j : Nat) : instrKey e bank i ≠ instrKey e (!bank) j := by
  unfold instrKey
  cases bank
  · rw [if_neg (by decide), if_pos (by decide)]
    omega
  · rw [if_pos (by decide), if_neg (by decide)]
    omega

theorem instrKey_congr {e i j : Nat} {bank : Bool} (h : instrKey e bank i = instrKey e bank j) (b : Bool) :
    instrKey e b i = instrKey e b j := by
  unfold instrKey at h ⊢
  omega

/-- Copying leaves the active bank, and gives every address copied the active bank's instruction. -/
theorem State.copied (e : Nat) (bank : Bool) (s : State) (is : List Nat) : let t := is.foldl (State.copyWord e bank) s
    (∀ j, t.sramGet (instrKey e bank j) = s.sramGet (instrKey e bank j)) ∧
      ∀ i ∈ is, t.sramGet (instrKey e (!bank) i) = s.sramGet (instrKey e bank i) := by
  induction is using List.reverseRecOn with
  | nil => exact ⟨fun _ => rfl, fun i no => absurd no (List.not_mem_nil)⟩
  | append_singleton is a ih =>
    obtain ⟨active, copied⟩ := ih
    rw [List.foldl_concat]
    refine ⟨fun j => ?_, fun i listed => ?_⟩
    · rw [State.copyWord, State.sramGet_sramSet_ne _ _ (instrKey_ne e bank j a), active]
    · rw [State.copyWord]
      by_cases last : instrKey e (!bank) i = instrKey e (!bank) a
      · rw [last, State.sramGet_sramSet_same, active, instrKey_congr last bank]
      · rw [State.sramGet_sramSet_ne _ _ last]
        refine copied i ?_
        rcases List.mem_append.mp listed with before | is
        · exact before
        · exact absurd (congrArg _ (List.mem_singleton.mp is)) last

theorem exec_copyDone {s : State} {c : Fin 64} (busy : (s.eng c).copyBusy = true)
    (due : (s.eng c).copyAt + segLen (s.engSeg c) ≤ 20 * s.tclks + 20) : ∃ t, exec (.copyDone c) s = .next t ∧
      (t.eng c).copyBusy = false ∧ ∀ i, segBase (s.engSeg c) ≤ i → i < segBase (s.engSeg c) + segLen (s.engSeg c) →
        t.sramGet (instrKey c (!(s.eng c).bank) i) = s.sramGet (instrKey c (s.eng c).bank i) := by
  let u := (upFrom (segBase (s.engSeg c)) (segLen (s.engSeg c))).foldl (State.copyWord c (s.eng c).bank) s
  have executed : exec (.copyDone c) s = .next (u.setEng c fun x => { x with copyBusy := false }) :=
    congrArg Host.Outcome.next (if_pos ⟨busy, due⟩)
  have free := congrArg EngSt.copyBusy (State.eng_setEng_same u c fun x => { x with copyBusy := false })
  obtain ⟨-, copied⟩ := State.copied c (s.eng c).bank s (upFrom (segBase (s.engSeg c)) (segLen (s.engSeg c)))
  exact ⟨_, executed, free, fun i low high => copied i (mem_upFrom_iff.mpr ⟨low, high⟩)⟩

end Sys2Proof.Machine
end

section
/-! Writes of a tine engine's segment, program, flags, mark and shift register (R155, R168, R174, R175). -/

namespace Sys2Proof.Machine

/-- A write of an engine's register, other than ENG_CMD. -/
theorem State.chReg_eng {s : State} {c : Fin 64} (off : Nat) (v : Word) {f : State → State} (ready : s.TileReady (c / 8)) (low : 0x400 ≤ off)
    (high : off < 0x490) (aligned : off % 4 = 0) (does : ∀ u : State, u.engWrite c off v = f u) :
    s.chReg c off v = (f (s.tileSeen (c / 8))).written := by
  rw [State.chReg, State.agentReg_eng .host v ready low high aligned, does]

theorem State.sram_bump (s : State) (k : Nat) : (s.bump k).sram = s.sram := rfl
theorem State.eng_wr (s : State) (k : Nat) (v : Word) (e : Nat) : (s.wr k v).eng e = s.eng e := rfl
theorem State.sramGet_wr (s : State) (k : Nat) (v : Word) (j : Nat) : (s.wr k v).sramGet j = s.sramGet j := rfl

/-! ENG_SEG (R174). -/

/-- What makes a segment refused. -/
def State.segBad (s : State) (e : Nat) (v : Word) : Bool :=
  decide ((s.eng e).st = 1) || s.segOverlaps e v || decide (1024 < segBase v + segLen v)

theorem State.engSegWrite_spec (s : State) (e : Nat) (v : Word) : let t := s.engSegWrite e v
    (t.eng e).segConflict = s.segBad e v ∧
      t.rd (Reg.chEngSeg e) = if s.segBad e v then s.rd (Reg.chEngSeg e) else v &&& 0x07FF03FF#32 := by
  let u := s.setEng e fun x => { x with segConflict := s.segBad e v }
  have does : s.engSegWrite e v = if s.segBad e v then u else u.wr (Reg.chEngSeg e) (v &&& 0x07FF03FF#32) := rfl
  have conflict : (u.eng e).segConflict = s.segBad e v :=
    congrArg EngSt.segConflict (State.eng_setEng_same s e fun x => { x with segConflict := s.segBad e v })
  dsimp only
  rw [does]
  by_cases refused : s.segBad e v = true
  · rw [if_pos refused, if_pos refused]
    exact ⟨conflict, rfl⟩
  · rw [if_neg refused, if_neg refused, State.eng_wr, State.rd_wr_same]
    exact ⟨conflict, rfl⟩

theorem exec_engSegWrite {s : State} {c : Fin 64} (v : Word) (ready : s.TileReady (c / 8)) :
    ∃ t, exec (.engSegWrite c v) s = .next t ∧ (t.eng c).segConflict = s.segBad c v ∧
      t.rd (Reg.chEngSeg c) = if s.segBad c v then s.rd (Reg.chEngSeg c) else v &&& 0x07FF03FF#32 := by
  have write := State.chReg_eng 0x404 v (f := (·.engSegWrite c v)) ready (by decide) (by decide) (by decide) fun _ => rfl
  refine ⟨_, congrArg Host.Outcome.next write, ?_⟩
  rw [State.eng_written, State.rd_written]
  exact (s.tileSeen (c / 8)).engSegWrite_spec c v

/-! ENG_PROG_DATA (R175). -/

theorem State.engProgWrite_refused {s : State} {e : Nat} (v : Word)
    (refused : inSeg (s.engSeg e) (s.fld (Reg.chEngProgAddr e) 0 10) = false ∨ (s.eng e).commitPend = true ∨ (s.eng e).copyBusy = true) :
    s.engProgWrite e v = s.bump (Reg.chCntProgRefused e) := by
  refine if_pos ?_
  rcases refused with out | pending | copying
  · rw [show inSeg (s.engSeg e) (bits (s.rd (Reg.chEngProgAddr e)) 0 10) = false from out]
    rfl
  · rw [pending, Bool.or_true, Bool.true_or]
  · rw [copying, Bool.or_true]

theorem State.engProgWrite_taken {s : State} {e : Nat} (v : Word) (inside : inSeg (s.engSeg e) (s.fld (Reg.chEngProgAddr e) 0 10) = true)
    (free : (s.eng e).commitPend = false) (still : (s.eng e).copyBusy = false) :
    let p := s.rd (Reg.chEngProgAddr e)
    let u := s.sramSet (instrKey e (!(s.eng e).bank) (bits p 0 10)) v
    s.engProgWrite e v = if bit p 31 then u.wr (Reg.chEngProgAddr e) (setBits p 0 10 (bits p 0 10 + 1)) else u := by
  refine if_neg ?_
  rw [show inSeg (s.engSeg e) (bits (s.rd (Reg.chEngProgAddr e)) 0 10) = true from inside, free, still]
  decide

theorem State.engProgWrite_spec {s : State} {e : Nat} (v : Word) (inside : inSeg (s.engSeg e) (s.fld (Reg.chEngProgAddr e) 0 10) = true)
    (free : (s.eng e).commitPend = false) (still : (s.eng e).copyBusy = false) :
    let a := s.fld (Reg.chEngProgAddr e) 0 10
    let t := s.engProgWrite e v
    t.sramGet (instrKey e (!(s.eng e).bank) a) = v ∧
      (s.flag (Reg.chEngProgAddr e) 31 = true → t.fld (Reg.chEngProgAddr e) 0 10 = (a + 1) % 1024) := by
  intro a t
  let u := s.sramSet (instrKey e (!(s.eng e).bank) a) v
  have stored : u.sramGet (instrKey e (!(s.eng e).bank) a) = v := State.sramGet_sramSet_same ..
  have does : t = if s.flag (Reg.chEngProgAddr e) 31 then
      u.wr (Reg.chEngProgAddr e) (setBits (s.rd (Reg.chEngProgAddr e)) 0 10 (a + 1)) else u :=
    State.engProgWrite_taken v inside free still
  rw [does]
  by_cases counts : s.flag (Reg.chEngProgAddr e) 31 = true
  · rw [if_pos counts, State.sramGet_wr]
    refine ⟨stored, fun _ => ?_⟩
    rw [State.fld, State.rd_wr_same]
    exact bits_setBits_same _ 0 10 _ (by decide)
  · rw [if_neg counts]
    exact ⟨stored, fun is => absurd is counts⟩

theorem exec_progDataWrite {s : State} {c : Fin 64} (v : Word) (ready : s.TileReady (c / 8)) :
    let a := s.fld (Reg.chEngProgAddr c) 0 10
    ∃ t, exec (.progDataWrite c v) s = .next t ∧
      (inSeg (s.engSeg c) a = true → (s.eng c).commitPend = false → (s.eng c).copyBusy = false →
        t.sramGet (instrKey c (!(s.eng c).bank) a) = v ∧
          (s.flag (Reg.chEngProgAddr c) 31 = true → t.fld (Reg.chEngProgAddr c) 0 10 = (a + 1) % 1024)) ∧
      (inSeg (s.engSeg c) a = false ∨ (s.eng c).commitPend = true ∨ (s.eng c).copyBusy = true →
        t.sram = s.sram ∧ t.rd (Reg.chCntProgRefused c) = satInc (s.rd (Reg.chCntProgRefused c))) := by
  intro a
  have write := State.chReg_eng 0x458 v (f := (·.engProgWrite c v)) ready (by decide) (by decide) (by decide) fun _ => rfl
  refine ⟨_, congrArg Host.Outcome.next write, fun inside free still => ?_, fun refused => ?_⟩
  · exact State.engProgWrite_spec (s := s.tileSeen (c / 8)) v inside free still
  · rw [State.engProgWrite_refused (s := s.tileSeen (c / 8)) v refused, State.sram_written, State.sram_bump,
      State.sram_tileSeen, State.rd_written, State.rd_bump_same, State.rd_tileSeen]
    exact ⟨rfl, rfl⟩

/-! Flags, mark and OSR (R155, R168). -/

theorem exec_engFlagSet {s : State} {c : Fin 64} (v : Word) (ready : s.TileReady (c / 8)) :
    ∃ t, exec (.engFlagSet c v) s = .next t ∧ (t.eng c).flags = (s.eng c).flags ||| BitVec.ofNat 4 v.toNat := by
  have write := State.chReg_eng 0x440 v (f := (·.engFlagSet c v)) ready (by decide) (by decide) (by decide) fun _ => rfl
  have cell := ((OneEng.seen NoReg c (c / 8) s).setEng fun x => { x with flags := x.flags ||| BitVec.ofNat 4 v.toNat }).written.cell
  have flags := congrArg EngSt.flags cell
  exact ⟨_, congrArg Host.Outcome.next write, flags⟩

theorem exec_engFlagClr {s : State} {c : Fin 64} (v setToo : Word) (ready : s.TileReady (c / 8)) :
    ∃ t, exec (.engFlagClr c v setToo) s = .next t ∧
      (t.eng c).flags = ((s.eng c).flags &&& ~~~ BitVec.ofNat 4 v.toNat) ||| BitVec.ofNat 4 setToo.toNat := by
  have write := State.chReg_eng 0x444 v (f := (·.engFlagClr c v)) ready (by decide) (by decide) (by decide) fun _ => rfl
  have cell := ((OneEng.seen NoReg c (c / 8) s).setEng fun x => { x with flags := x.flags &&& ~~~ BitVec.ofNat 4 v.toNat }).written.cell
  have cleared := congrArg EngSt.flags cell
  obtain ⟨up, running⟩ := State.tileReady_tileSeen ready
  have again : ((s.tileSeen (c / 8)).engFlagClr c v).written.TileReady (c / 8) := ⟨up, running⟩
  obtain ⟨t, executed, flags⟩ := exec_engFlagSet setToo again
  refine ⟨t, ?_, flags.trans (congrArg (· ||| BitVec.ofNat 4 setToo.toNat) cleared)⟩
  rw [← executed]
  exact congrArg (fun u : State => Host.Outcome.next (u.chReg c 0x440 setToo)) write

theorem exec_engMarkWrite {s : State} {c : Fin 64} (v : Word) (ready : s.TileReady (c / 8)) :
    ∃ t, exec (.engMarkWrite c v) s = .next t ∧
      (t.eng c).mark = ⟨s.rd (Reg.chEngMarkSec c), capAt 999999999 (bits v 0 30)⟩ := by
  have write := State.chReg_eng 0x44C v (f := (·.engMarkWrite c v)) ready (by decide) (by decide) (by decide) fun _ => rfl
  have cell := ((OneEng.seen NoReg c (c / 8) s).setEng fun x =>
    { x with mark := ⟨s.rd (Reg.chEngMarkSec c), capAt 999999999 (bits v 0 30)⟩, prepared := false }).written.cell
  have mark := congrArg EngSt.mark cell
  exact ⟨_, congrArg Host.Outcome.next write, mark⟩

/-- OSR written, unless the engine runs. -/
def EngSt.osrWritten (v : Word) (x : EngSt) : EngSt := if x.st = 1 then x else { x with osr := v, osrN := 32 }

theorem exec_engOsrWrite {s : State} {c : Fin 64} (v : Word) (ready : s.TileReady (c / 8)) :
    ∃ t, exec (.engOsrWrite c v) s = .next t ∧ t.eng c = (s.eng c).osrWritten v := by
  have write := State.chReg_eng 0x430 v (f := (·.engOsrWrite c v)) ready (by decide) (by decide) (by decide) fun _ => rfl
  exact ⟨_, congrArg Host.Outcome.next write, ((OneEng.seen NoReg c (c / 8) s).setEng (EngSt.osrWritten v)).written.cell⟩

theorem exec_engOsrWrite_stopped {s : State} {c : Fin 64} (v : Word) (ready : s.TileReady (c / 8)) (stopped : (s.eng c).st ≠ 1) :
    ∃ t, exec (.engOsrWrite c v) s = .next t ∧ (t.eng c).osr = v ∧ (t.eng c).osrN = 32 := by
  obtain ⟨t, executed, cell⟩ := exec_engOsrWrite v ready
  rw [EngSt.osrWritten, if_neg stopped] at cell
  have osr := congrArg EngSt.osr cell
  have count := congrArg EngSt.osrN cell
  exact ⟨t, executed, osr, count⟩

theorem exec_engOsrWrite_running {s : State} {c : Fin 64} (v : Word) (ready : s.TileReady (c / 8)) (running : (s.eng c).st = 1) :
    ∃ t, exec (.engOsrWrite c v) s = .next t ∧ t.eng c = s.eng c := by
  obtain ⟨t, executed, cell⟩ := exec_engOsrWrite v ready
  rw [EngSt.osrWritten, if_pos running] at cell
  exact ⟨t, executed, cell⟩

end Sys2Proof.Machine
end

section
/-! Start events of the tine engines (R157, R180–R182). -/

namespace Sys2Proof.Machine

/-! Start events put in the queue (R180). -/

theorem State.starts_tileWake (s : State) (n : Nat) : (s.tileWake n).starts = s.starts :=
  (State.tileWake_frame (P := fun p => p ∈ [.tiles, .regTile]) (.refl _ s) n (.of_coveredBy rfl)).starts (by decide)

theorem State.starts_startEvent (s : State) (engines : BitVec 64) (target : Option TimePoint) :
    (s.startEvent engines target).starts = s.starts ++ [⟨engines, target, 20 * s.tclks⟩] := by
  unfold State.startEvent
  dsimp only
  refine List.foldlRecOn (motive := fun t : State => t.starts = s.starts ++ [⟨engines, target, 20 * s.tclks⟩]) _ _ ?_ fun t kept n _ => ?_
  · rfl
  split
  · exact kept
  · exact (State.starts_tileWake t n).trans kept

theorem State.starts_written (s : State) : s.written.starts = s.starts := rfl

theorem exec_engStart {s : State} {c : Fin 64} (ready : s.TileReady (c / 8)) : ∃ t, exec (.engStart c) s = .next t ∧
    t.starts = s.starts ++ [⟨BitVec.ofNat 64 (2 ^ c.val), none, 20 * s.tclks⟩] := by
  have write := State.agentReg_engCmd .host ready fun u => u.engCommand_start c
  refine ⟨_, congrArg Host.Outcome.next write, ?_⟩
  rw [State.starts_written, State.engStart, State.starts_startEvent]
  rfl

/-- Where a tile's clock runs, GRP_START is written through one whose clock does. -/
theorem State.tileReady_found {s : State} {n : Nat} (hn : n < 8) (ready : s.TileReady n) :
    let m := ((upFrom 0 8).find? fun t => decide ((s.tile t).clk = .running)).getD 0
    m < 8 ∧ s.TileReady m := by
  obtain ⟨up, running⟩ := ready
  have found : ((upFrom 0 8).find? fun t => decide ((s.tile t).clk = .running)).isSome = true :=
    List.find?_isSome.mpr ⟨n, mem_upFrom_iff.mpr (by omega), decide_eq_true running⟩
  obtain ⟨m, is⟩ := Option.isSome_iff_exists.mp found
  have low := mem_upFrom_iff.mp (List.mem_of_find?_eq_some is)
  rw [is, Option.getD_some]
  exact ⟨by omega, up, of_decide_eq_true (List.find?_some (p := fun t => decide ((s.tile t).clk = .running)) is)⟩

theorem exec_grpStart {s : State} {n : Fin 8} (ready : s.TileReady n) : ∃ t, exec .grpStart s = .next t ∧
    t.starts = s.starts ++ [⟨BitVec.ofNat 64 ((s.rd (Reg.tileGrpMaskLo 0)).toNat + (s.rd (Reg.tileGrpMaskHi 0)).toNat * 2 ^ 32),
      some (timeAdd s.nextEdge 1000), 20 * s.tclks⟩] := by
  obtain ⟨low, usable⟩ := State.tileReady_found n.isLt ready
  obtain ⟨x, write⟩ := State.tileReg_ready (off := 0x308) 1 low usable (by decide) (by decide) (by decide)
  have starts : ((s.withTiles x).tileWrite (((upFrom 0 8).find? fun t => decide ((s.tile t).clk = .running)).getD 0) 0x308 1) =
    (s.withTiles x).grpStart := rfl
  rw [starts] at write
  refine ⟨_, congrArg Host.Outcome.next write, ?_⟩
  rw [State.starts_written, State.grpStart, State.starts_startEvent]
  rfl

theorem State.eng_bump (s : State) (k e : Nat) : (s.bump k).eng e = s.eng e := rfl

/-! A start event acts on an engine (R157, R181). -/

theorem OneEng.engRestart {W : Nat → Prop} {e : Nat} {x : EngSt} {s t : State} (h : OneEng W e x s t) (n left : Nat) :
    OneEng W e (x.clocked (t.engDivider e) n left) s (t.engRestart e n left) := h.setEng (·.clocked (t.engDivider e) n left)

/-- An engine that has acted on the start edge n. -/
def EngSt.startedOn (x : EngSt) (n : Nat) : EngSt := { x with startedAt := some n }

/-- An engine that begins to run. -/
def EngSt.begun (x : EngSt) : EngSt := { x with st := 1, wait := none, stalled := false, next := .run }

/-- A start event has come to an engine that the channel runs: interrupt bit 20. -/
def State.startTold (s : State) (e n : Nat) : State := (s.setEng e (·.startedOn n)).raise (0x80 + e) 20

theorem State.startTold_oneEng (s : State) (e n : Nat) : OneEng NoReg e ((s.eng e).startedOn n) s (s.startTold e n) :=
  ((OneEng.refl NoReg e s).setEng (·.startedOn n)).raise (0x80 + e) 20

theorem State.startTold_raised (s : State) (e n : Nat) : (s.startTold e n).Raised (0x80 + e) 20 := State.raise_raised _ _ (by decide)

/-- Whether the engine stands in a WAIT LAUNCH. -/
def State.awaitsLaunch (s : State) (e : Nat) : Bool := (s.eng e).wait.any fun w => decide (w.kind = 4)

section Cases

variable {s : State} {e n : Nat} {time : TimePoint}

theorem State.startEngine_done (done : (s.eng e).startedAt = some n) : s.startEngine e n time = s := if_pos done

theorem State.startEngine_ignored (fresh : (s.eng e).startedAt ≠ some n) (idle : s.runs e 10 = false) :
    s.startEngine e n time = (s.setEng e (·.startedOn n)).bump (Reg.chCntStartIgnored e) := by
  have off : (!(s.setEng e (·.startedOn n)).runs e 10) = true := by
    rw [show (s.setEng e (·.startedOn n)).runs e 10 = false from idle]
    rfl
  exact (if_neg fresh).trans (if_pos off)

theorem State.startEngine_told (fresh : (s.eng e).startedAt ≠ some n) (runs : s.runs e 10 = true) :
    let told := s.startTold e n
    let entry := s.fld (Reg.chEngEntry e) 0 10
    s.startEngine e n time =
      if (s.eng e).st ≠ 1 then ((told.setEng e (·.begun)).engRestart e n 1).engGoto e entry time
      else if s.awaitsLaunch e then
        ((told.setEng e fun x => { x with wait := none }).engRestart e n (1 + bits (told.engFetch e) 21 5)).engAdvance e time
      else if told.flag (Reg.chEngCfg e) 3 then ((told.engAbandon e 1 time).engRestart e n 1).engGoto e entry time
      else told.engRestart e n ((s.eng e).left - told.engCount e (n - 1)) := by
  have on : ¬ (!(s.setEng e (·.startedOn n)).runs e 10) = true := by
    rw [show (s.setEng e (·.startedOn n)).runs e 10 = true from runs]
    decide
  exact (if_neg fresh).trans (if_neg on)

end Cases

theorem EngSt.data_startedAt (x : EngSt) : x.data.startedAt = x.startedAt := rfl

theorem EngSt.gone_startedAt (x : EngSt) (seg : Word) (a : Nat) : (x.gone seg a).startedAt = x.startedAt := by
  rw [← EngSt.data_startedAt, EngSt.gone_data, EngSt.data_startedAt]

/-- An engine that runs with nothing waited for goes to an address: outside the segment it halts. -/
theorem OneEng.goes {e a : Nat} {x : EngSt} {s u : State} (h : OneEng NoReg e x s u) (running : x.st = 1) (idle : x.wait = none)
    (low : a < 1024) (time : TimePoint) : let t := u.engGoto e a time
    (t.eng e).startedAt = x.startedAt ∧ (t.eng e).pc = a ∧ (t.eng e).wait = none ∧ (t.eng e).st = (if inSeg (s.engSeg e) a then 1 else 2) ∧
      ∀ {page b}, u.Raised page b → t.Raised page b := by
  have place : a % 1024 = a := Nat.mod_eq_of_lt low
  have seg : u.engSeg e = s.engSeg e := h.reported.rd_ch (by decide) (by decide) id
  have cell := (h.engGoto a time).cell
  refine ⟨?_, ?_, ?_, ?_, ((OneEng.refl NoReg e u).engGoto a time).reported.raised⟩
  · rw [cell, EngSt.gone_startedAt]
  · rw [cell, EngSt.gone_pc, place]
  · rw [cell, EngSt.gone_wait idle]
  · rw [cell, EngSt.gone_st, place, seg, running, if_pos rfl]

/-- What a start event has made of an engine (R157, R181): the state that the model's statement gives. -/
def State.StartedAs (s t : State) (e n : Nat) : Prop :=
  let entry := s.fld (Reg.chEngEntry e) 0 10
  (t.eng e).startedAt = some n ∧
  (s.runs e 10 = false → t.rd (Reg.chCntStartIgnored e) = satInc (s.rd (Reg.chCntStartIgnored e)) ∧ (t.eng e).st = (s.eng e).st ∧
    (t.eng e).pc = (s.eng e).pc) ∧
  (s.runs e 10 = true → t.Raised (0x80 + e) 20) ∧
  (s.runs e 10 = true → (s.eng e).st ≠ 1 → (t.eng e).pc = entry ∧ (t.eng e).wait = none ∧
    (t.eng e).st = (if inSeg (s.engSeg e) entry then 1 else 2)) ∧
  (s.runs e 10 = true → (s.eng e).st = 1 →
    (s.awaitsLaunch e = true → s.Advanced t e ∧ (t.eng e).wait = none) ∧
    (s.awaitsLaunch e = false → s.flag (Reg.chEngCfg e) 3 = true → (t.eng e).pc = entry ∧ (t.eng e).wait = none ∧
      (t.eng e).st = (if inSeg (s.engSeg e) entry then 1 else 2)) ∧
    (s.awaitsLaunch e = false → s.flag (Reg.chEngCfg e) 3 = false → (t.eng e).pc = (s.eng e).pc ∧ (t.eng e).wait = (s.eng e).wait ∧
      (t.eng e).st = 1))

section Started

variable {s t : State} {e n : Nat}

/-! An engine falls under one of the cases, each of which gives what the others do not speak of. -/

theorem State.StartedAs.of_ignored (idle : s.runs e 10 = false) (started : (t.eng e).startedAt = some n)
    (counted : t.rd (Reg.chCntStartIgnored e) = satInc (s.rd (Reg.chCntStartIgnored e))) (st : (t.eng e).st = (s.eng e).st)
    (pc : (t.eng e).pc = (s.eng e).pc) : s.StartedAs t e n := by
  have never {p : Prop} (runs : s.runs e 10 = true) : p := absurd (idle.symm.trans runs) (by decide)
  exact ⟨started, fun _ => ⟨counted, st, pc⟩, never, never, never⟩

theorem State.StartedAs.of_told (runs : s.runs e 10 = true) (started : (t.eng e).startedAt = some n) (raised : t.Raised (0x80 + e) 20)
    (stopped : (s.eng e).st ≠ 1 → (t.eng e).pc = s.fld (Reg.chEngEntry e) 0 10 ∧ (t.eng e).wait = none ∧
      (t.eng e).st = (if inSeg (s.engSeg e) (s.fld (Reg.chEngEntry e) 0 10) then 1 else 2))
    (running : (s.eng e).st = 1 →
      (s.awaitsLaunch e = true → s.Advanced t e ∧ (t.eng e).wait = none) ∧
      (s.awaitsLaunch e = false → s.flag (Reg.chEngCfg e) 3 = true → (t.eng e).pc = s.fld (Reg.chEngEntry e) 0 10 ∧
        (t.eng e).wait = none ∧ (t.eng e).st = (if inSeg (s.engSeg e) (s.fld (Reg.chEngEntry e) 0 10) then 1 else 2)) ∧
      (s.awaitsLaunch e = false → s.flag (Reg.chEngCfg e) 3 = false → (t.eng e).pc = (s.eng e).pc ∧ (t.eng e).wait = (s.eng e).wait ∧
        (t.eng e).st = 1)) : s.StartedAs t e n :=
  ⟨started, fun idle => absurd (runs.symm.trans idle) (by decide), fun _ => raised, fun _ => stopped, fun _ => running⟩

end Started

theorem State.startEngine_ignored_spec {s : State} {e n : Nat} (time : TimePoint) (fresh : (s.eng e).startedAt ≠ some n)
    (idle : s.runs e 10 = false) : s.StartedAs (s.startEngine e n time) e n := by
  have cell := State.eng_setEng_same s e (·.startedOn n)
  have started := congrArg EngSt.startedAt cell
  have st := congrArg EngSt.st cell
  have pc := congrArg EngSt.pc cell
  rw [State.startEngine_ignored fresh idle]
  refine .of_ignored idle ?_ ?_ ?_ ?_
  · rw [State.eng_bump, started]
    rfl
  · rw [State.rd_bump_same, State.rd_setEng]
  · rw [State.eng_bump, st]
    rfl
  · rw [State.eng_bump, pc]
    rfl

section Told

variable {s : State} {e n : Nat} (time : TimePoint) (runs : s.runs e 10 = true)

include runs

theorem State.startTold_begun (stopped : (s.eng e).st ≠ 1) :
    s.StartedAs ((((s.startTold e n).setEng e (·.begun)).engRestart e n 1).engGoto e (s.fld (Reg.chEngEntry e) 0 10) time) e n := by
  have left := ((OneEng.refl NoReg e (s.startTold e n)).setEng (·.begun)).engRestart n 1
  have begun := ((s.startTold_oneEng e n).setEng (·.begun)).engRestart n 1
  obtain ⟨started, pc, wait, st, kept⟩ := begun.goes rfl rfl (bits_lt _ 0 10) time
  exact .of_told runs started (kept (left.reported.raised (s.startTold_raised e n))) (fun _ => ⟨pc, wait, st⟩) fun is => absurd is stopped

theorem State.startTold_launched (running : (s.eng e).st = 1) (launch : s.awaitsLaunch e = true) (delay : Nat) :
    s.StartedAs ((((s.startTold e n).setEng e fun x => { x with wait := none }).engRestart e n delay).engAdvance e time) e n := by
  have left := ((OneEng.refl NoReg e (s.startTold e n)).setEng fun x => { x with wait := none }).engRestart n delay
  have goesOn := ((s.startTold_oneEng e n).setEng fun x => { x with wait := none }).engRestart n delay
  obtain ⟨advanced, data, waits, -, -, kept⟩ := goesOn.advances ⟨rfl, rfl, rfl⟩ id id time
  have started := congrArg EngSt.startedAt data
  rw [EngSt.data_startedAt, EngSt.data_startedAt] at started
  refine .of_told runs started (kept (left.reported.raised (s.startTold_raised e n))) (fun stopped => absurd running stopped)
    fun _ => ⟨fun _ => ⟨advanced, waits rfl⟩, fun is => ?_, fun is => ?_⟩
  · exact absurd (launch.symm.trans is) (by decide)
  · exact absurd (launch.symm.trans is) (by decide)

theorem State.startTold_anew (running : (s.eng e).st = 1) (other : s.awaitsLaunch e = false) (anew : s.flag (Reg.chEngCfg e) 3 = true) :
    s.StartedAs ((((s.startTold e n).engAbandon e 1 time).engRestart e n 1).engGoto e (s.fld (Reg.chEngEntry e) 0 10) time) e n := by
  obtain ⟨wait, -, st, -, on⟩ := ((s.eng e).startedOn n).abandoned_keeps
  have left := ((OneEng.refl NoReg e (s.startTold e n)).engAbandon 1 time).engRestart n 1
  have restarted := ((s.startTold_oneEng e n).engAbandon 1 time).engRestart n 1
  obtain ⟨started, pc, waits, goes, kept⟩ := restarted.goes (st.trans running) wait (bits_lt _ 0 10) time
  refine .of_told runs (started.trans on) (kept (left.reported.raised (s.startTold_raised e n))) (fun stopped => absurd running stopped)
    fun _ => ⟨fun is => ?_, fun _ _ => ⟨pc, waits, goes⟩, fun _ is => ?_⟩
  · exact absurd (other.symm.trans is) (by decide)
  · exact absurd (anew.symm.trans is) (by decide)

theorem State.startTold_kept (running : (s.eng e).st = 1) (other : s.awaitsLaunch e = false) (keeps : s.flag (Reg.chEngCfg e) 3 = false)
    (cycles : Nat) : s.StartedAs ((s.startTold e n).engRestart e n cycles) e n := by
  have left := (OneEng.refl NoReg e (s.startTold e n)).engRestart n cycles
  have cell := ((s.startTold_oneEng e n).engRestart n cycles).cell
  have started := congrArg EngSt.startedAt cell
  have pc := congrArg EngSt.pc cell
  have wait := congrArg EngSt.wait cell
  have st := congrArg EngSt.st cell
  refine .of_told runs started (left.reported.raised (s.startTold_raised e n)) (fun stopped => absurd running stopped)
    fun _ => ⟨fun is => ?_, fun _ is => ?_, fun _ _ => ⟨pc, wait, st.trans running⟩⟩
  · exact absurd (other.symm.trans is) (by decide)
  · exact absurd (keeps.symm.trans is) (by decide)

theorem State.startEngine_told_spec (fresh : (s.eng e).startedAt ≠ some n) : s.StartedAs (s.startEngine e n time) e n := by
  have restarts : (s.startTold e n).flag (Reg.chEngCfg e) 3 = s.flag (Reg.chEngCfg e) 3 :=
    congrArg (bit · 3) ((s.startTold_oneEng e n).reported.rd_ch (by decide) (by decide) id)
  rw [State.startEngine_told fresh runs, restarts]
  split
  · next stopped => exact State.startTold_begun time runs stopped
  · next goesOn =>
    have running := not_not.mp goesOn
    split
    · next launch => exact State.startTold_launched time runs running launch _
    · next other =>
      have other := eq_false_of_ne_true other
      split
      · next anew => exact State.startTold_anew time runs running other anew
      · next keeps => exact State.startTold_kept runs running other (eq_false_of_ne_true keeps) _

end Told

end Sys2Proof.Machine
end

section
/-! A start event acts on each engine it names, and the engine statements together (R156, R174–R182). -/

namespace Sys2Proof.Machine

theorem State.starts_startEngine (s : State) (e n : Nat) (time : TimePoint) : (s.startEngine e n time).starts = s.starts :=
  (State.startEngine_frame (P := fun p => p ∈ Part.reports ++ [.engs, .regCh]) (.refl _ s) e n time (.of_coveredBy rfl)).starts (by decide)

theorem State.tileEdge_startEngine (s : State) (e n : Nat) (time : TimePoint) (d : Nat) :
    (s.startEngine e n time).tileEdge d = s.tileEdge d := by
  rw [State.tileEdge, (State.startEngine_frame (P := fun p => p ∈ Part.reports ++ [.engs, .regCh]) (.refl _ s) e n time
    (.of_coveredBy rfl)).tclks (by decide), State.tileEdge]

/-- Of the registers a start event changes the count of ignored ones. -/
theorem State.startEngine_oneEng (s : State) (e n : Nat) (time : TimePoint) :
    ∃ x, OneEng (· = Reg.chCntStartIgnored e) e x s (s.startEngine e n time) := by
  have irq : Reg.chCntStartIgnored e % 0x1000 ≠ 0x010 := by
    unfold Reg.chCntStartIgnored pageKey
    omega
  have told := (s.startTold_oneEng e n).mono (V := (· = Reg.chCntStartIgnored e)) fun _ => False.elim
  by_cases fresh : (s.eng e).startedAt = some n
  · rw [State.startEngine_done fresh]
    exact ⟨_, .refl ..⟩
  · cases runs : s.runs e 10
    · rw [State.startEngine_ignored fresh runs]
      exact ⟨_, ((OneEng.refl _ e s).setEng (·.startedOn n)).wr _ irq rfl⟩
    · rw [State.startEngine_told fresh runs]
      split
      · exact ⟨_, ((told.setEng (·.begun)).engRestart n 1).engGoto _ time⟩
      · split
        · exact ⟨_, ((told.setEng fun x => { x with wait := none }).engRestart n _).engAdvance time⟩
        · split
          · exact ⟨_, ((told.engAbandon 1 time).engRestart n 1).engGoto _ time⟩
          · exact ⟨_, told.engRestart n _⟩

/-- From `s` to `t` the start edge d came to engines other than `e`. -/
structure StartsOthers (e d : Nat) (s t : State) : Prop where
  cell : t.eng e = s.eng e
  reported : Reported (fun k => ∃ j, j ≠ e ∧ k = Reg.chCntStartIgnored j) s t
  edge : t.tileEdge d = s.tileEdge d
  starts : t.starts = s.starts

/-- The start edge d comes to engine `e`. -/
def State.startOn (d : Nat) (s : State) (e : Nat) : State := s.startEngine e (s.tileEdge d) (s.cycleTime d)

namespace StartsOthers

variable {e d n : Nat} {s t u : State}

theorem refl (e d : Nat) (s : State) : StartsOthers e d s s := ⟨rfl, .refl s, rfl, rfl⟩

theorem trans (h : StartsOthers e d s t) (h' : StartsOthers e d t u) : StartsOthers e d s u :=
  ⟨h'.cell.trans h.cell, h.reported.trans h'.reported, h'.edge.trans h.edge, h'.starts.trans h.starts⟩

theorem startOn {j : Nat} (other : j ≠ e) (s : State) : StartsOthers e d s (s.startOn d j) := by
  obtain ⟨x, -, others, reported⟩ := s.startEngine_oneEng j (s.tileEdge d) (s.cycleTime d)
  exact ⟨others e other.symm, reported.mono fun k is => ⟨j, other, is⟩, s.tileEdge_startEngine .., s.starts_startEngine ..⟩

theorem foldl (js : List Nat) (apart : e ∉ js) (s : State) : StartsOthers e d s (js.foldl (State.startOn d) s) := by
  induction js generalizing s with
  | nil => exact .refl e d s
  | cons j js ih =>
    rw [List.mem_cons, not_or] at apart
    obtain ⟨other, apart⟩ := apart
    exact (startOn (Ne.symm other) s).trans (ih apart _)

theorem rd (h : StartsOthers e d s t) {off : Nat} (low : off < 0x1000) (irq : off ≠ 0x010) :
    t.rd (pageKey (0x80 + e) off) = s.rd (pageKey (0x80 + e) off) := by
  refine h.reported.rd_ch low irq ?_
  rintro ⟨j, other, same⟩
  unfold Reg.chCntStartIgnored pageKey at same
  omega

theorem runs (h : StartsOthers e d s t) : t.runs e 10 = s.runs e 10 := by
  have ctrl : t.rd (Reg.ctrl (0x80 + e)) = s.rd (Reg.ctrl (0x80 + e)) := h.rd (by decide) (by decide)
  have func : t.rd (Reg.chFunc e) = s.rd (Reg.chFunc e) := h.rd (by decide) (by decide)
  unfold State.runs State.enabled State.flag State.chFunc State.fld
  rw [ctrl, func]

theorem startedAs_before (h : StartsOthers e d s t) (started : t.StartedAs u e n) : s.StartedAs u e n := by
  have entry : t.rd (Reg.chEngEntry e) = s.rd (Reg.chEngEntry e) := h.rd (by decide) (by decide)
  have cfg : t.rd (Reg.chEngCfg e) = s.rd (Reg.chEngCfg e) := h.rd (by decide) (by decide)
  have seg : t.rd (Reg.chEngSeg e) = s.rd (Reg.chEngSeg e) := h.rd (by decide) (by decide)
  have wrap : t.rd (Reg.chEngWrap e) = s.rd (Reg.chEngWrap e) := h.rd (by decide) (by decide)
  have count : t.rd (Reg.chCntStartIgnored e) = s.rd (Reg.chCntStartIgnored e) := h.rd (by decide) (by decide)
  unfold State.StartedAs State.awaitsLaunch State.Advanced State.nextPc State.engSeg State.fld State.flag at started ⊢
  rwa [h.cell, h.runs, entry, cfg, seg, wrap, count] at started

theorem startedAs_after (h : StartsOthers e d t u) (started : s.StartedAs t e n) : s.StartedAs u e n := by
  have count : u.rd (Reg.chCntStartIgnored e) = t.rd (Reg.chCntStartIgnored e) := h.rd (by decide) (by decide)
  obtain ⟨edge, ignored, raised, stopped, running⟩ := started
  unfold State.StartedAs State.Advanced
  rw [h.cell, count]
  exact ⟨edge, ignored, fun runs => h.reported.raised (raised runs), stopped, running⟩

end StartsOthers

theorem State.startOn_spec {s : State} {e d : Nat} (fresh : (s.eng e).startedAt ≠ some (s.tileEdge d)) :
    s.StartedAs (s.startOn d e) e (s.tileEdge d) := by
  cases runs : s.runs e 10
  · exact State.startEngine_ignored_spec _ fresh runs
  · exact State.startEngine_told_spec _ runs fresh

theorem upFrom_nodup (a m : Nat) : (upFrom a m).Nodup := by
  induction m generalizing a with
  | zero => exact List.nodup_nil
  | succ m ih =>
    refine List.nodup_cons.mpr ⟨fun again => ?_, ih (a + 1)⟩
    have := mem_upFrom_iff.mp again
    omega

theorem namedEngines_nodup (m : BitVec 64) : (namedEngines m).Nodup := (upFrom_nodup 0 64).filter _

/-- A start edge acts on an engine it names as on that engine alone. -/
theorem State.startOn_foldl {s : State} {e d : Nat} {js : List Nat} (nodup : js.Nodup) (named : e ∈ js)
    (fresh : (s.eng e).startedAt ≠ some (s.tileEdge d)) : s.StartedAs (js.foldl (State.startOn d) s) e (s.tileEdge d) := by
  obtain ⟨before, after, rfl⟩ := List.append_of_mem named
  obtain ⟨-, rest, apart⟩ := List.nodup_append.mp nodup
  have notBefore : e ∉ before := fun listed => apart e listed e (List.mem_cons_self ..) rfl
  have notAfter : e ∉ after := (List.nodup_cons.mp rest).1
  rw [List.foldl_append, List.foldl_cons]
  have first := StartsOthers.foldl (d := d) before notBefore s
  have started : State.StartedAs _ (State.startOn d _ e) e _ := State.startOn_spec (s := before.foldl (State.startOn d) s) (e := e) (d := d)
    (by rwa [first.cell, first.edge])
  rw [first.edge] at started
  exact (StartsOthers.foldl after notAfter _).startedAs_after (first.startedAs_before started)

theorem State.starts_startOn_foldl (js : List Nat) (d : Nat) (s : State) : (js.foldl (State.startOn d) s).starts = s.starts :=
  List.foldlRecOn (motive := fun t : State => t.starts = s.starts) js (State.startOn d) rfl
    fun t kept e _ => (t.starts_startEngine e _ _).trans kept

/-- The start events in the queue that act with one of a target. -/
def StartEvt.sameTarget (x y : StartEvt) : Bool := x.target.isSome && decide (y.target = x.target)

/-- The engines of a start event and of those that act with it. -/
def State.namedWith (s : State) (x : StartEvt) : BitVec 64 :=
  s.starts.foldl (fun a y => if x.sameTarget y then a ||| y.engines else a) x.engines

theorem State.namedWith_own (s : State) {x : StartEvt} {e : Nat} (named : x.engines.toNat.testBit e = true) :
    (s.namedWith x).toNat.testBit e = true := by
  refine List.foldlRecOn (motive := fun a : BitVec 64 => a.toNat.testBit e = true) s.starts _ named fun a kept y _ => ?_
  split
  · rw [BitVec.toNat_or, Nat.testBit_or, kept, Bool.true_or]
  · exact kept

theorem exec_startEventAct {s : State} {i : Nat} {d : Fin 40} {x : StartEvt} {e : Fin 64} (queued : s.starts[i]? = some x)
    (due : s.startDue x d = true) (named : x.engines.toNat.testBit e = true) (fresh : (s.eng e).startedAt ≠ some (s.tileEdge d)) :
    ∃ t, exec (.startEventAct i d) s = .next t ∧
      t.starts = (s.starts.eraseIdx i).filter (fun y => !x.sameTarget y) ∧ s.StartedAs t e (s.tileEdge d) := by
  let u : State := { s with starts := (s.starts.eraseIdx i).filter fun y => !x.sameTarget y }
  have executed : exec (.startEventAct i d) s = .next ((namedEngines (s.namedWith x)).foldl (State.startOn d) u) := by
    change Host.Outcome.next (match s.starts[i]? with | some x => _ | none => s) = _
    rw [queued]
    exact congrArg Host.Outcome.next (if_pos due)
  have listed : (e : Nat) ∈ namedEngines (s.namedWith x) :=
    List.mem_filter.mpr ⟨mem_upFrom_iff.mpr ⟨Nat.zero_le _, by omega⟩, s.namedWith_own named⟩
  have started : u.StartedAs _ e (u.tileEdge d) := State.startOn_foldl (namedEngines_nodup _) listed fresh
  exact ⟨_, executed, State.starts_startOn_foldl .., started⟩

/-- Settles O36: commands and register writes act on their engine's cell, and a start edge on each engine named as on it alone. -/
theorem engineCommandsAndStartsAct : Obligations.EngineCommandsAndStartsAct := by
  refine ⟨⟨fun s c => exec_engineReset, fun s c ready => ⟨exec_commit_busy ready, exec_commit_stopped ready, fun free running =>
      ⟨exec_commitAtWrap ready free running, exec_commitImmediate ready free running⟩, exec_commitSwap⟩,
    fun s c => exec_cancelCommit, fun s c => exec_copyActive, fun s c => exec_copyDone, fun s c => exec_engSegWrite,
    fun s c => exec_progDataWrite, fun s c v setToo ready => ⟨exec_engFlagSet v ready, exec_engFlagClr v setToo ready,
      exec_engMarkWrite v ready, exec_engOsrWrite_stopped v ready, exec_engOsrWrite_running v ready⟩⟩,
    fun s c => exec_engStart, fun s n => exec_grpStart, fun s i d x e => exec_startEventAct⟩

end Sys2Proof.Machine
end

section
/-! A mailbox whose BUSY is 0 takes a command (R32, R33): the command runs in the state that has accepted it, and its answer waits. -/

namespace Sys2Proof.Machine

/-- The mailbox of a page has accepted a command: its flags are cleared and BUSY is set (R32). -/
def State.accepted (s : State) (page : Nat) : State := s.wr (Reg.mbxFlag page) 2

theorem State.accepted_rd (s : State) {page k : Nat} (other : k ≠ Reg.mbxFlag page) : (s.accepted page).rd k = s.rd k :=
  State.rd_wr_ne s 2 other

theorem State.mbxD_accepted (s : State) (page : Nat) {n : Nat} (hn : n < 4) : (s.accepted page).mbxD page n = s.mbxD page n :=
  s.accepted_rd (mbxD_ne_mbxFlag page hn)

/-- What a mailbox command answers waits for the completion in the state that it leaves (R33). -/
def mbxReply (page : Nat) (r : MbxAns × State) : State := r.2.mbxAnswer page r.1

theorem mbxReply_job (page : Nat) (r : MbxAns × State) : Tab.get none (mbxReply page r).mbx page = some r.1.job :=
  State.mbxAnswer_job r.2 page r.1

theorem State.mbxCommand_accepted {s : State} {page : Nat} (idle : s.mbxBusy page = false) (f : State → MbxAns × State) :
    s.mbxCommand page f = mbxReply page (f (s.accepted page)) :=
  State.mbxAccept_idle _ idle

end Sys2Proof.Machine
end

section
/-! The clause on ARM (R190) in a state whose table of rules is not in its canonical form: it lists rule 0 twice. A rule is read at its first
place; an operand change rewrites a rule at every place where it is listed armed, so that the last of them stands. -/

namespace Sys2Proof.Machine

/-- A command that reads a rule of the table, without an uncorrectable error (R196, R221). -/
theorem State.rfxReading_usable {s : State} {arg : BitVec 16} {ecc : ReadEcc} (idle : s.mbxBusy 0x14 = false)
    (inTable : arg.toNat ≤ 1023) (usable : eccUsable ecc = true) (f : Nat → State → MbxAns × State) :
    s.rfxReading arg ecc f = mbxReply 0x14 (f arg.toNat ((s.accepted 0x14).ruleEcc arg.toNat ecc)) := by
  rw [State.rfxReading, State.rfxCommand, State.mbxCommand_accepted idle, if_neg (Nat.not_lt.mpr inTable), if_pos usable]

/-- ARM of a rule that no ECC error bars. -/
theorem exec_rfxArm {s : State} {arg : BitVec 16} {ecc : ReadEcc} (idle : s.mbxBusy 0x14 = false) (inTable : arg.toNat ≤ 1023)
    (usable : eccUsable ecc = true) (unbarred : (((s.accepted 0x14).ruleEcc arg.toNat ecc).rule arg.toNat).eccBar = false) :
    ∃ A, exec (.rfxArm arg ecc) s = .next (mbxReply 0x14 (A, ((s.accepted 0x14).ruleEcc arg.toNat ecc).ruleArmNow arg.toNat)) :=
  ⟨_, congrArg Host.Outcome.next ((State.rfxReading_usable idle inTable usable _).trans
    (congrArg (mbxReply 0x14) (if_neg (ne_true_of_eq_false unbarred))))⟩

theorem State.ruleArmNow_whileTrue {s : State} {n : Nat} (trigger : bits (s.rule n).ctrl 0 2 = 3) :
    s.ruleArmNow n = s.fresh.2.ruleArm n (timeAdd s.now (2 * (s.fresh.1.toNat % 20))) := if_pos trigger

/-- A WHILE_TRUE rule whose one literal, line 0 inverted, holds after reset; its action PUBLISHes slot 0. -/
def publishingRule : Rule := { Rule.init with t0 := 0xFFFFC000, ctrl := 0x103 }

/-- An armed rule on SIGOP 0, result 0. -/
def signalRule : Rule := { Rule.init with armed := true, t0 := 0x8100 }

/-- After reset and its quiet period, rule 0 is listed twice; slot 0 was set to 1 in an earlier cycle and its change frame is yet to be built;
subscription entry 0 follows the slot and drives SIGOP 0. -/
def ruleListedTwice : State :=
  { State.reset with
    rules := [(0, publishingRule), (0, signalRule)]
    pubs := [(0, { PubSlot.init with loaded := true, word := 0x100, value := 1, quality := 1 })]
    pubOpen := [⟨0, 20, 0, 0, ⟨0, 0⟩, 0, false⟩]
    subs := [(0, { SubEnt.init with word := 4 })]
    net := { State.reset.net with quiet := none }
    ring := { State.reset.ring with home := { State.reset.ring.home with active := true } } }

theorem ruleListedTwice_idle : ruleListedTwice.mbxBusy 0x14 = false := by decide

theorem ruleListedTwice_ruleResult : ruleListedTwice.ruleResult (ruleListedTwice.rule 0) = true := by decide

/-- In whichever cycle of the TCLK period ARM executes, the firing has the change frame built, the entry takes its record, and the change of
SIGOP 0 puts the second listing of rule 0 in the place of the first. -/
theorem ruleListedTwice_ruleArm (c : Fin 20) : let u := ruleListedTwice.accepted 0x14
    ((u.fresh.2.ruleArm 0 (timeAdd u.now (2 * (c : Nat)))).rule 0).result = false := by
  revert c
  decide +kernel

theorem exec_rfxArm_ruleListedTwice : ∃ t, exec (.rfxArm 0 .clean) ruleListedTwice = .next t ∧ (t.rule 0).result = false := by
  obtain ⟨A, executed⟩ := exec_rfxArm (arg := 0) ruleListedTwice_idle (by decide) (ecc := .clean) rfl rfl
  have armed := State.ruleArmNow_whileTrue (s := ruleListedTwice.accepted 0x14) (n := 0) rfl
  refine ⟨_, executed, ?_⟩
  change (((ruleListedTwice.accepted 0x14).ruleArmNow 0).rule 0).result = false
  rw [armed]
  exact ruleListedTwice_ruleArm ⟨_, Nat.mod_lt _ (by decide)⟩

/-- Refutes O37: its clause on ARM asks for the result of the evaluation in every state, canonical table of rules or not, and in
`ruleListedTwice` the rule that ARM evaluates to 1 stands with result 0 after the firing that follows. -/
theorem not_rulesAreLoadedEvaluatedAndFire : ¬ Obligations.RulesAreLoadedEvaluatedAndFire := by
  intro h
  obtain ⟨-, mailbox, -⟩ := h
  obtain ⟨-, -, -, -, arms, -⟩ := mailbox ruleListedTwice 0 .clean ruleListedTwice_idle (by decide) rfl
  obtain ⟨t, executed, -, result, -⟩ := arms rfl rfl
  obtain ⟨u, armed, zero⟩ := exec_rfxArm_ruleListedTwice
  cases executed.symm.trans armed
  exact absurd (zero.symm.trans result) (by simp [ruleListedTwice_ruleResult])

end Sys2Proof.Machine
end

section
/-! The SIG mailbox (R222): what each command answers while BUSY = 0, by what it names. -/

namespace Sys2Proof.Machine

/-- The SIG mailbox has accepted a command (R32). -/
abbrev State.sigAccepted (s : State) : State := s.accepted 0x15

/-- What a command of the SIG mailbox answers waits for the completion in the state that it leaves (R33). -/
abbrev sigReply (r : MbxAns × State) : State := mbxReply 0x15 r

/-- A command of the SIG mailbox that answers and leaves the slots and the entries as they are. -/
def State.sigAnswered (s : State) (A : MbxAns) : State := sigReply (A, s.sigAccepted)

theorem sigAnswered_pubs {c : Instr} {s : State} {A : MbxAns} (run : exec c s = .next (s.sigAnswered A)) :
    ∃ t, exec c s = .next t ∧ Tab.get none t.mbx 0x15 = some A.job ∧ t.pubs = s.pubs :=
  ⟨_, run, mbxReply_job _ _, rfl⟩

theorem sigAnswered_subs {c : Instr} {s : State} {A : MbxAns} (run : exec c s = .next (s.sigAnswered A)) :
    ∃ t, exec c s = .next t ∧ Tab.get none t.mbx 0x15 = some A.job ∧ t.subs = s.subs :=
  ⟨_, run, mbxReply_job _ _, rfl⟩

/-- The TIME registers that the count at the next TCLK edge depends on. -/
def edgeRegs : List Nat :=
  [Reg.mbxD 0x10 0, Reg.mbxD 0x10 1, Reg.mbxD 0x10 2, Reg.timePendCorr, Reg.timeRate, Reg.timeCfg, Reg.timeRefusedLo, Reg.timeRefusedHi]

/-- The count at the next TCLK edge depends on the time, its registers and the TCLK count. -/
theorem State.nextEdge_congr {s t : State} (time : t.time = s.time) (tclks : t.tclks = s.tclks)
    (regs : ∀ k ∈ edgeRegs, t.rd k = s.rd k) : t.nextEdge = s.nextEdge := by
  simp only [edgeRegs, List.forall_mem_cons, List.not_mem_nil, false_implies, implies_true, and_true] at regs
  obtain ⟨d0, d1, d2, pend, rate, cfg, lo, hi⟩ := regs
  have state : t.timeState = s.timeState := State.timeState_congr time
  have counter : t.counter = s.counter := by unfold State.counter; rw [time]
  have inc : t.tclkInc = s.tclkInc := by unfold State.tclkInc State.edgeRate State.mbxD; rw [time, d0, rate]
  have slew : t.slewNext = s.slewNext := by
    unfold State.slewNext State.pendCorr State.slewEvery State.fld
    rw [time, tclks, pend, cfg]
  have count : t.edgeCount = s.edgeCount := by unfold State.edgeCount; rw [counter, inc, slew]
  have initial : t.initialSet = s.initialSet := by unfold State.initialSet State.flag; rw [state, cfg, time]
  have corr : t.corrInput = s.corrInput := by unfold State.corrInput State.mbxD; rw [d0, d1]
  have held : t.heldCorr = s.heldCorr := by unfold State.heldCorr; rw [lo, hi]
  have ok : t.setTimeOk = s.setTimeOk := by unfold State.setTimeOk State.mbxD; rw [d1]
  have input : t.setTimeInput = s.setTimeInput := by unfold State.setTimeInput State.mbxD; rw [d0, d1, d2]
  unfold State.nextEdge State.edgeTotal
  rw [time, count, initial, corr, held, ok, input]

/-- Accepting a command of the SIG mailbox leaves the count at the next TCLK edge. -/
theorem State.sigAccepted_nextEdge (s : State) : s.sigAccepted.nextEdge = s.nextEdge :=
  State.nextEdge_congr rfl rfl fun _ listed => s.accepted_rd fun same => absurd (same ▸ listed) (by decide)

/-- A load of a publish slot with a reserved bit set, or with an HB that R213 does not know. -/
abbrev pubBad (w d : Word) : Prop :=
  bits w 9 23 ≠ 0 ∨ bits w 2 2 ≠ 0 ∨ bits d 17 15 ≠ 0 ∨ 11 ≤ bits w 4 4 ∧ bits w 4 4 ≤ 14

/-- A publish slot as LOAD_PUB leaves it. -/
def State.loadedPub (s : State) : PubSlot :=
  { PubSlot.init with loaded := true, word := s.mbxD 0x15 0, dest := s.mbxD 0x15 1, sentAt := s.tclks }

/-- The value and the quality that SET_VALUE names. -/
def State.valueInput (s : State) : Nat := (s.mbxD 0x15 0).toNat + (s.mbxD 0x15 1).toNat * 2 ^ 32
def State.qualityInput (s : State) : Nat := (s.mbxD 0x15 2).toNat

/-- The signal ID that LOAD_SUB names. -/
def State.subIdInput (s : State) : Nat := bits (s.mbxD 0x15 0) 0 28

/-- Another entry drives an operand that an entry word `w` for entry `n` would drive. -/
abbrev State.subClash (s : State) (n : Nat) (w : Word) : Prop :=
  bit w 2 = true ∧ (s.subs.any fun x => decide (x.1 ≠ n) && x.2.ops.any fun o => decide (o ∈ wordOps w)) = true

/-- Another enabled entry follows the signal `id`. -/
abbrev State.subTwice (s : State) (n id : Nat) (w : Word) : Prop :=
  bit w 2 = true ∧ (s.subs.any fun x => decide (x.1 ≠ n) && x.2.en && decide (x.2.id = id)) = true

/-- An entry as LOAD_SUB begins it; one for a DYING signal begins VALID (R217). -/
def SubEnt.loaded (id : Nat) (w : Word) : SubEnt :=
  { SubEnt.init with id, word := w, quality := if id % 4096 = 4095 then 1 else 0 }

/-- Entry `n` as LOAD_SUB leaves the state, before and after it drives its operand. -/
def State.subEntered (s : State) (n id : Nat) (w : Word) : State := (s.subRelease n).setSub n fun _ => .loaded id w
def State.subLoaded (s : State) (n id : Nat) (w : Word) : State :=
  if bit w 2 then (s.subEntered n id w).subDrive n (s.subEntered n id w).now else s.subEntered n id w

/-- Entry `n` shown by READ_SUB. -/
def State.subShown (s : State) (n : Nat) : State :=
  (s.wr Reg.sigSubMeta (w32 (at_ 16 ((s.sub n).count - 1) + (s.sub n).quality))).setSub n fun x => { x with count := 0, dirty := false }

/-- Entry `n` unloaded by CLEAR_SUB. -/
def State.subCleared (s : State) (n : Nat) : State :=
  (s.subRelease n).setSub n fun e => { SubEnt.init with id := e.id, word := setBits e.word 2 1 0 }

section Commands

variable {s : State} {arg : BitVec 16} (idle : s.mbxBusy 0x15 = false)
include idle

/-- An ARG above the slots is refused, whatever the command. -/
theorem State.pubCommand_beyond (beyond : 4095 < arg.toNat) (f : Nat → State → MbxAns × State) :
    s.pubCommand arg f = s.sigAnswered (.err 2) := by
  rw [State.pubCommand, State.mbxCommand_accepted idle, if_pos beyond, State.sigAnswered]

theorem State.pubCommand_accepted (inTable : arg.toNat ≤ 4095) (f : Nat → State → MbxAns × State) :
    s.pubCommand arg f = sigReply (f arg.toNat s.sigAccepted) := by
  rw [State.pubCommand, State.mbxCommand_accepted idle, if_neg (Nat.not_lt.mpr inTable)]

theorem State.subCommand_accepted (inTable : arg.toNat ≤ 8191) (f : Nat → State → MbxAns × State) :
    s.subCommand arg f = sigReply (f arg.toNat s.sigAccepted) := by
  rw [State.subCommand, State.mbxCommand_accepted idle, if_neg (Nat.not_lt.mpr inTable)]

section Slots

variable (inTable : arg.toNat ≤ 4095)
include inTable

theorem exec_loadPub : exec (.loadPub arg) s = .next
    (if arg.toNat = 4095 then s.sigAnswered (.err 1)
     else if pubBad (s.mbxD 0x15 0) (s.mbxD 0x15 1) then s.sigAnswered (.err 2)
     else sigReply (.done, s.sigAccepted.setPub arg.toNat fun _ => s.loadedPub)) := by
  refine congrArg Host.Outcome.next ((State.pubCommand_accepted idle inTable _).trans ?_)
  simp only [apply_ite sigReply, State.mbxD_accepted, Nat.reduceLT]
  rfl

theorem exec_setValue : exec (.setValue arg) s = .next
    (if arg.toNat = 4095 then s.sigAnswered (.err 1)
     else if 32 ≤ s.qualityInput then s.sigAnswered (.err 2)
     else if s.qualityInput.testBit 1 ∨ 2 ^ sigBits (s.pub arg.toNat).ty ≤ s.valueInput then s.sigAnswered (.err 5)
     else sigReply (.done, s.sigAccepted.pubAlone arg.toNat s.valueInput s.qualityInput s.sigAccepted.nextEdge false)) := by
  refine congrArg Host.Outcome.next ((State.pubCommand_accepted idle inTable _).trans ?_)
  simp only [apply_ite sigReply, State.mbxD_accepted, Nat.reduceLT]
  rfl

/-- Slot 4,095 is the DYING signal's: software loads and writes it not (R209). -/
theorem exec_loadPub_dying (dying : arg.toNat = 4095) : exec (.loadPub arg) s = .next (s.sigAnswered (.err 1)) :=
  (exec_loadPub idle inTable).trans (congrArg Host.Outcome.next (if_pos dying))

theorem exec_setValue_dying (dying : arg.toNat = 4095) : exec (.setValue arg) s = .next (s.sigAnswered (.err 1)) :=
  (exec_setValue idle inTable).trans (congrArg Host.Outcome.next (if_pos dying))

theorem exec_readPub : exec (.readPub arg) s = .next (s.sigAnswered
    (valueWords (s.pub arg.toNat).value (s.pub arg.toNat).time (s.pub arg.toNat).timeQual)) :=
  congrArg Host.Outcome.next (State.pubCommand_accepted idle inTable _)

theorem exec_readPubcfg : exec (.readPubcfg arg) s = .next (s.sigAnswered
    (.ok (some (s.pub arg.toNat).word) (some (s.pub arg.toNat).dest) none none)) :=
  congrArg Host.Outcome.next (State.pubCommand_accepted idle inTable _)

end Slots

section OwnSlots

variable (below : arg.toNat < 4095)
include below

theorem exec_loadPub_good (good : ¬ pubBad (s.mbxD 0x15 0) (s.mbxD 0x15 1)) :
    exec (.loadPub arg) s = .next (sigReply (.done, s.sigAccepted.setPub arg.toNat fun _ => s.loadedPub)) :=
  (exec_loadPub idle below.le).trans (congrArg Host.Outcome.next ((if_neg below.ne).trans (if_neg good)))

theorem exec_loadPub_bad (bad : pubBad (s.mbxD 0x15 0) (s.mbxD 0x15 1)) : exec (.loadPub arg) s = .next (s.sigAnswered (.err 2)) :=
  (exec_loadPub idle below.le).trans (congrArg Host.Outcome.next ((if_neg below.ne).trans (if_pos bad)))

theorem exec_setValue_good (low : s.qualityInput < 32) (valid : s.qualityInput.testBit 1 = false)
    (fits : s.valueInput < 2 ^ sigBits (s.pub arg.toNat).ty) : exec (.setValue arg) s =
      .next (sigReply (.done, s.sigAccepted.pubAlone arg.toNat s.valueInput s.qualityInput s.nextEdge false)) := by
  have taken : ¬ (s.qualityInput.testBit 1 = true ∨ 2 ^ sigBits (s.pub arg.toNat).ty ≤ s.valueInput) :=
    not_or.mpr ⟨ne_true_of_eq_false valid, Nat.not_le.mpr fits⟩
  rw [exec_setValue idle below.le, if_neg below.ne, if_neg (Nat.not_le.mpr low), if_neg taken, State.sigAccepted_nextEdge]

theorem exec_setValue_high (high : 32 ≤ s.qualityInput) : exec (.setValue arg) s = .next (s.sigAnswered (.err 2)) :=
  (exec_setValue idle below.le).trans (congrArg Host.Outcome.next ((if_neg below.ne).trans (if_pos high)))

theorem exec_setValue_refused (low : s.qualityInput < 32)
    (refused : s.qualityInput.testBit 1 = true ∨ 2 ^ sigBits (s.pub arg.toNat).ty ≤ s.valueInput) :
    exec (.setValue arg) s = .next (s.sigAnswered (.err 5)) :=
  (exec_setValue idle below.le).trans (congrArg Host.Outcome.next
    ((if_neg below.ne).trans ((if_neg (Nat.not_le.mpr low)).trans (if_pos refused))))

end OwnSlots

section Entries

variable (inTable : arg.toNat ≤ 8191)
include inTable

theorem exec_loadSub : exec (.loadSub arg) s = .next
    (if subBad (s.mbxD 0x15 0) (s.mbxD 0x15 1) then s.sigAnswered (.err 2)
     else if s.subClash arg.toNat (s.mbxD 0x15 1) then s.sigAnswered (.err 3)
     else if s.subTwice arg.toNat s.subIdInput (s.mbxD 0x15 1) then s.sigAnswered (.err 4)
     else sigReply (.done, s.sigAccepted.subLoaded arg.toNat s.subIdInput (s.mbxD 0x15 1))) := by
  refine congrArg Host.Outcome.next ((State.subCommand_accepted idle inTable _).trans ?_)
  simp only [apply_ite sigReply, State.mbxD_accepted, Nat.reduceLT]
  rfl

section Load

variable (good : subBad (s.mbxD 0x15 0) (s.mbxD 0x15 1) = false)

theorem exec_loadSub_bad (bad : subBad (s.mbxD 0x15 0) (s.mbxD 0x15 1) = true) :
    exec (.loadSub arg) s = .next (s.sigAnswered (.err 2)) :=
  (exec_loadSub idle inTable).trans (congrArg Host.Outcome.next (if_pos bad))

include good

theorem exec_loadSub_clash (clash : s.subClash arg.toNat (s.mbxD 0x15 1)) : exec (.loadSub arg) s = .next (s.sigAnswered (.err 3)) :=
  (exec_loadSub idle inTable).trans (congrArg Host.Outcome.next ((if_neg (ne_true_of_eq_false good)).trans (if_pos clash)))

theorem exec_loadSub_twice (free : ¬ s.subClash arg.toNat (s.mbxD 0x15 1)) (twice : s.subTwice arg.toNat s.subIdInput (s.mbxD 0x15 1)) :
    exec (.loadSub arg) s = .next (s.sigAnswered (.err 4)) :=
  (exec_loadSub idle inTable).trans (congrArg Host.Outcome.next
    ((if_neg (ne_true_of_eq_false good)).trans ((if_neg free).trans (if_pos twice))))

theorem exec_loadSub_good (free : ¬ s.subClash arg.toNat (s.mbxD 0x15 1)) (once : ¬ s.subTwice arg.toNat s.subIdInput (s.mbxD 0x15 1)) :
    exec (.loadSub arg) s = .next (sigReply (.done, s.sigAccepted.subLoaded arg.toNat s.subIdInput (s.mbxD 0x15 1))) :=
  (exec_loadSub idle inTable).trans (congrArg Host.Outcome.next
    ((if_neg (ne_true_of_eq_false good)).trans ((if_neg free).trans (if_neg once))))

end Load

theorem exec_readSub : exec (.readSub arg) s = .next (sigReply
    (valueWords (s.sub arg.toNat).value (s.sub arg.toNat).time (s.sub arg.toNat).timeQual, s.sigAccepted.subShown arg.toNat)) :=
  congrArg Host.Outcome.next (State.subCommand_accepted idle inTable _)

theorem exec_readSubcfg : exec (.readSubcfg arg) s = .next (s.sigAnswered
    (.ok (some (w32 (s.sub arg.toNat).id)) (some (s.sub arg.toNat).word) none none)) :=
  congrArg Host.Outcome.next (State.subCommand_accepted idle inTable _)

theorem exec_clearSub : exec (.clearSub arg) s = .next (sigReply (.done, s.sigAccepted.subCleared arg.toNat)) :=
  congrArg Host.Outcome.next (State.subCommand_accepted idle inTable _)

end Entries

end Commands

/-- The commands of the SIG mailbox on slot `arg`. -/
def pubCommands (arg : BitVec 16) : List Instr := [.loadPub arg, .setValue arg, .readPub arg, .readPubcfg arg]

theorem exec_of_mem_pubCommands {c : Instr} {arg : BitVec 16} (hc : c ∈ pubCommands arg) (s : State) :
    ∃ f, exec c s = .next (s.pubCommand arg f) := by
  simp only [pubCommands, List.mem_cons, List.not_mem_nil, or_false] at hc
  obtain rfl | rfl | rfl | rfl := hc
  all_goals exact ⟨_, rfl⟩

end Sys2Proof.Machine
end

section
/-! What decides whether a frame can be originated (R237, R242, R260, R267): the IDs of the rings, the quiet time after a reset, RING_CFG and
the far route map. A frame admitted, mirrored or originated changes none of them. -/

namespace Sys2Proof.Machine

/-- RING_CFG and the words of the far route map (R267). -/
def SendKey (k : Nat) : Prop := k = Reg.ringCfg ∨ ∃ i, i < 8 ∧ k = Reg.ringFarRoute i

/-- A direct register of a page before RING's, or one that the words of a far route map cannot meet, is none of them. -/
theorem not_sendKey {page off : Nat} (h : off = 0x010 ∨ off = 0x094 ∨ page < 0x2E ∧ off < 0x1000) : ¬ SendKey (page * 0x1000 + off) := by
  rintro (same | ⟨j, hj, same⟩)
  · replace same : page * 0x1000 + off = 0x2E * 0x1000 + 0x05C := same
    omega
  · replace same : page * 0x1000 + off = 0x10000000000 + 0x2E * 0x1000000 + (0x100 + 4 * j) := same
    omega

/-- In `t` the same frames can be originated as in `s`. -/
structure SendsAlike (s t : State) : Prop where
  quiet : t.net.quiet = s.net.quiet
  ring : t.ring = s.ring
  rd : ∀ {k}, SendKey k → t.rd k = s.rd k

/-- The parts that a report or a record of a signal changes, and the publish slots. -/
def Part.signalled : List Part :=
  [.heldIrq, .checks, .recSeq, .evq, .msixPba, .hostTx, .icu, .wins, .rules, .express, .normal, .sigOps, .subs, .pubs, .pubOpen, .pwr,
   .regIrq, .regEvq, .regRfx, .regSig, .regWin]

theorem Part.signalled_away {p : Part} (hp : decide (p ∈ Part.signalled) = true) : ∀ f, f ∈ p.banks → Away SendKey f := by
  cases p <;> (try cases hp)
  all_goals
    delta Part.banks
    simp only [List.forall_mem_cons, List.not_mem_nil, false_implies, implies_true, and_true]
  all_goals
    and_intros
    all_goals first
      | refine Away.one ?_ | refine Away.all fun i => ?_ | refine Away.below fun i hi => ?_
    all_goals
      show ¬ SendKey (_ * 0x1000 + _)
      exact not_sendKey (by omega)

namespace SendsAlike

variable {s0 s t : State}

theorem refl (s : State) : SendsAlike s s := ⟨rfl, rfl, fun _ => rfl⟩

theorem trans (h : SendsAlike s0 s) (h' : SendsAlike s t) : SendsAlike s0 t :=
  ⟨h'.quiet.trans h.quiet, h'.ring.trans h.ring, fun key => (h'.rd key).trans (h.rd key)⟩

theorem canSend (h : SendsAlike s t) {group : Bool} {dst : Nat} (hdst : dst < 0x10000) : t.canSend group dst = s.canSend group dst := by
  have cfg : t.rd Reg.ringCfg = s.rd Reg.ringCfg := h.rd (.inl rfl)
  have route : t.rd (Reg.ringFarRoute (dst / 256 / 32)) = s.rd (Reg.ringFarRoute (dst / 256 / 32)) := h.rd (.inr ⟨_, by omega, rfl⟩)
  have mode : t.ringMode = s.ringMode := by unfold State.ringMode State.fld State.flag; rw [cfg]
  have coupler : t.coupler = s.coupler := by unfold State.coupler State.prpOn State.flag State.fld; rw [cfg, mode]
  have side : t.originSide group dst = s.originSide group dst := by
    unfold State.originSide State.flag
    dsimp only
    rw [coupler, h.ring, route]
  unfold State.canSend State.mayOriginate State.sideActive
  rw [side, h.ring, h.quiet, mode]

theorem signalled {P : Part → Prop} (h : SendsAlike s0 s) (touched : Frame P s t) (hP : ∀ p, P p → decide (p ∈ Part.signalled) = true) :
    SendsAlike s0 t := by
  have out {p : Part} (hp : decide (p ∈ Part.signalled) = false) : ¬ P p := fun h => by rw [hP p h] at hp; cases hp
  refine h.trans ⟨by rw [touched.net (out rfl)], touched.ring (out rfl), fun {k} key => touched.regs _ ?_⟩
  rintro ⟨part, listed, has⟩
  exact Part.has_away (Part.signalled_away (hP _ listed)) has key

theorem raise_post (h : SendsAlike s0 s) (page b ty : Nat) (blk : Block) (inst flags : Nat) (t : TimePoint) (q : Nat)
    (w4 w5 w6 w7 : Word) : SendsAlike s0 ((s.raise page b).postAt ty blk inst flags t q w4 w5 w6 w7) :=
  h.signalled ((s.raise_touches page b).trans (State.postAt_touches _ _ _ _ _ _ _ _ _ _ _)) fun p => by cases p <;> decide

theorem bump (h : SendsAlike s0 s) {page off : Nat} (away : off = 0x010 ∨ off = 0x094 ∨ page < 0x2E ∧ off < 0x1000) :
    SendsAlike s0 (s.bump (pageKey page off)) :=
  h.trans ⟨rfl, rfl, fun key => State.rd_bump_ne _ fun same => not_sendKey away (show SendKey (pageKey page off) from same ▸ key)⟩

/-- The network changed but for its quiet time. -/
theorem setNet (h : SendsAlike s0 s) {f : NetSt → NetSt} (quiet : (f s.net).quiet = s.net.quiet) : SendsAlike s0 (s.setNet f) :=
  ⟨quiet.trans h.quiet, h.ring, h.rd⟩

theorem setQueue (h : SendsAlike s0 s) (port cls : Nat) (q : List QFrame) : SendsAlike s0 (s.setQueue port cls q) := h.setNet rfl

theorem spillCheck (h : SendsAlike s0 s) : SendsAlike s0 s.spillCheck := by
  unfold State.spillCheck
  extract_lets mark spills stops
  have hspills : SendsAlike s0 spills := h.setNet rfl
  have hstops : SendsAlike s0 stops := h.setNet rfl
  split
  · split
    · exact hspills.raise_post _ _ _ _ _ _ _ _ _ _ _ _
    · exact h
  · split
    · exact hstops.raise_post _ _ _ _ _ _ _ _ _ _ _ _
    · exact h

theorem pushPost (h : SendsAlike s0 s) (port : Nat) : SendsAlike s0 (s.pushPost port) := by
  unfold State.pushPost
  extract_lets p u
  have hu : SendsAlike s0 u := h.setNet rfl
  exact hu.raise_post _ _ _ _ _ _ _ _ _ _ _ _

theorem notePush (h : SendsAlike s0 s) (port evicted dropped lastOut lastIn : Nat) :
    SendsAlike s0 (s.notePush port evicted dropped lastOut lastIn) := by
  unfold State.notePush
  split
  · exact h
  · extract_lets -merge old first noted u
    have hu : SendsAlike s0 u := h.setNet rfl
    split
    · exact hu
    · exact hu.pushPost port

theorem evictOne (h : SendsAlike s0 s) {port lim c : Nat} {t : State} (e : s.evictOne port lim = some (c, t)) : SendsAlike s0 t := by
  unfold State.evictOne at e
  obtain ⟨c, -, evicted⟩ := Option.map_eq_some_iff.mp e
  obtain ⟨-, rfl⟩ := Prod.mk.inj evicted
  exact (h.setQueue _ _ _).bump (by omega)

theorem evictWhile (h : SendsAlike s0 s) (port lim : Nat) (more : State → Bool) (n : Nat) :
    SendsAlike s0 (s.evictWhile port lim more n).2.2 := by
  induction n generalizing s with
  | zero => exact h
  | succ n ih =>
    unfold State.evictWhile
    split
    · split
      · exact h
      · exact ih (h.evictOne ‹_›)
    · exact h

theorem pushForShare (h : SendsAlike s0 s) (port cls k : Nat) : SendsAlike s0 (s.pushForShare port cls k).2 := by
  unfold State.pushForShare
  extract_lets tooFull
  split
  · exact h
  · split
    · exact (h.evictWhile _ _ _ _).notePush _ _ _ _ _
    · exact h

theorem pushForCells (h : SendsAlike s0 s) (port cls k : Nat) : SendsAlike s0 (s.pushForCells port cls k) := by
  unfold State.pushForCells
  split
  · exact h
  · exact List.foldlRecOn _ _ h fun u hu p _ => (hu.evictWhile _ _ _ _).notePush _ _ _ _ _

theorem dropFrame (h : SendsAlike s0 s) (port cls : Nat) {page off : Nat} (away : off = 0x010 ∨ off = 0x094 ∨ page < 0x2E ∧ off < 0x1000) :
    SendsAlike s0 (s.dropFrame port cls (pageKey page off)) :=
  (h.bump away).notePush _ _ _ _ _

theorem enqueue (h : SendsAlike s0 s) (port : Nat) (f : QFrame) : SendsAlike s0 (s.enqueue port f) := (h.setQueue _ _ _).spillCheck

theorem takeFrame (h : SendsAlike s0 s) (port : Nat) (f : QFrame) : SendsAlike s0 (s.takeFrame port f) := by
  unfold State.takeFrame State.admitAs
  extract_lets g
  split
  · exact h.bump (.inr (.inl rfl))
  · split
    · exact h.dropFrame _ _ (by omega)
    · have shared := h.pushForShare port g.cls g.cells
      generalize s.pushForShare port g.cls g.cells = pushed at shared
      obtain ⟨room, u⟩ := pushed
      dsimp only at shared ⊢
      split
      · exact shared.dropFrame _ _ (by omega)
      · have freed : SendsAlike s0 (if u.freeCells < g.cells then u.pushForCells port g.cls g.cells else u) := by
          split
          · exact shared.pushForCells _ _ _
          · exact shared
        generalize (if u.freeCells < g.cells then u.pushForCells port g.cls g.cells else u) = v at freed ⊢
        split
        · exact freed.dropFrame _ _ (by omega)
        · exact freed.enqueue _ _

theorem takeSeq (h : SendsAlike s0 s) (cls : Nat) : SendsAlike s0 (s.takeSeq cls).2 := ⟨h.quiet, h.ring, h.rd⟩

theorem mirCopy (h : SendsAlike s0 s) (i : Nat) (f : QFrame) : SendsAlike s0 (s.mirCopy i f).2 := by
  unfold State.mirCopy
  extract_lets d put side u
  have counted : SendsAlike s0 u := by
    unfold u
    split
    · exact h.bump (by omega)
    · exact h
  split
  · split
    · exact h
    · exact counted.takeSeq 0
  · exact h

theorem mirrorIn (h : SendsAlike s0 s) (type ingress : Nat) (f : QFrame) : SendsAlike s0 (s.mirrorIn type ingress f) := by
  unfold State.mirrorIn State.mirror
  split
  · exact h
  · refine List.foldlRecOn _ _ h fun u hu i _ => ?_
    split
    · exact (hu.mirCopy i f).setNet rfl
    · exact hu

theorem originate (h : SendsAlike s0 s) (cls type dst : Nat) (group : Bool) (body : List Byte) (ingress : Nat) :
    SendsAlike s0 (s.originate cls type dst group body ingress) := by
  unfold State.originate State.originateOn State.originateTwo
  split
  · exact h
  · exact (((h.takeSeq cls).mirrorIn _ _ _).takeFrame _ _).takeFrame _ _

end SendsAlike

end Sys2Proof.Machine
end

section
/-! Publish slots (R209–R213): a frame of slots restarts their intervals, and takes nothing else of them. -/

namespace Sys2Proof.Machine

/-- The slots are marked sent now, which restarts their intervals (R213). -/
def State.markSent (s : State) (slots : List Nat) : State :=
  slots.foldl (fun s n => s.setPub n fun p => { p with sentAt := s.tclks }) s

/-- A frame of records is originated and counted, and the node's own subscriptions take the records (R212). -/
def State.sigLaunch (s : State) (cls : Nat) (hb : Bool) (dest : Word) (recs : List SigRec) (counter : Nat) : State :=
  let body := beBytes 1 recs.length ++ beBytes 1 (at_ 7 (b2n hb)) ++ recs.flatMap SigRec.bytes
  let s := (s.originate cls 1 (bits dest 0 16) (bit dest 16) body 7).bump counter
  let me := s.sideId (s.originSide (bit dest 16) (bits dest 0 16))
  recs.foldl (fun s r => if (s.subFor (me * 4096 + r.slot)).isSome then s.sigRecord me r else s) s

/-- A frame to the destination that a slot names can be originated now. -/
abbrev State.canSendTo (s : State) (dest : Word) : Bool := s.canSend (bit dest 16) (bits dest 0 16)

theorem State.sigSend_eq (s : State) (cls : Nat) (hb : Bool) (dest : Word) (slots : List Nat) (counter : Nat) :
    s.sigSend cls hb dest slots counter =
      if s.canSendTo dest then (s.markSent slots).sigLaunch cls hb dest (slots.map fun n => (s.pub n).record n) counter else s :=
  rfl

theorem State.pub_markSent (s : State) (slots : List Nat) (n : Nat) :
    (s.markSent slots).pub n = if n ∈ slots then { s.pub n with sentAt := s.tclks } else s.pub n := by
  induction slots generalizing s with
  | nil => rfl
  | cons m rest ih =>
    refine (ih _).trans ?_
    by_cases same : n = m
    · subst same
      simp only [State.pub_setPub_same, List.mem_cons_self, if_true]
      exact ite_self _
    · rw [State.pub_setPub_ne s _ same]
      simp only [List.mem_cons, same, false_or]
      rfl

theorem State.markSent_touches (s : State) (slots : List Nat) : Frame (fun p => p ∈ [Part.pubs]) s (s.markSent slots) :=
  Frame.foldl (Frame.refl _ s) fun _ _ h => State.setPub_frame h _ _ (.of_coveredBy rfl)

/-- The counters of frames of signals (R211, R213). -/
def SendCounter (k : Nat) : Prop := k = Reg.sigCntTxChange ∨ k = Reg.sigCntTxHb

theorem SendCounter.regIn {P : Part → Prop} {k : Nat} (hk : SendCounter k) (h : P .regSig) : RegIn P k :=
  hk.elim (fun e => e ▸ Reg.sigCntTxChange_in h) fun e => e ▸ Reg.sigCntTxHb_in h

/-- What a frame of records and its records change. -/
def Part.sigSent : List Part := Part.netUnit ++ .regSwc :: Part.signalled.filter (fun p => p ≠ .pubs && p ≠ .pubOpen)

theorem State.sigLaunch_touches (s : State) (cls : Nat) (hb : Bool) (dest : Word) (recs : List SigRec) {k : Nat} (hk : SendCounter k) :
    Frame (fun p => p ∈ Part.sigSent) s (s.sigLaunch cls hb dest recs k) := by
  refine Frame.foldl ?_ fun u r hu => Frame.ite (fun _ => ?_) fun _ => hu
  · exact State.bump_frame (State.originate_frame (Frame.refl _ s) _ _ _ _ _ _ (.of_coveredBy rfl)) _ (hk.regIn (by decide))
      (.of_coveredBy rfl)
  · exact State.sigRecord_frame hu _ _ (.of_coveredBy rfl)

theorem SendsAlike.sigRecord {s0 s : State} (h : SendsAlike s0 s) (node : Nat) (r : SigRec) : SendsAlike s0 (s.sigRecord node r) :=
  h.signalled (State.sigRecord_frame (Frame.refl (fun p => p ∈ Part.signalled) s) _ _ (.of_coveredBy rfl)) fun _ => decide_eq_true

theorem SendsAlike.sigLaunch {s0 s : State} (h : SendsAlike s0 s) (cls : Nat) (hb : Bool) (dest : Word) (recs : List SigRec) {k : Nat}
    (hk : SendCounter k) : SendsAlike s0 (s.sigLaunch cls hb dest recs k) := by
  refine List.foldlRecOn _ _ ?_ fun u hu r _ => ?_
  · have sent := h.originate cls 1 (bits dest 0 16) (bit dest 16)
    obtain rfl | rfl := hk
    · exact (sent _ _).bump (by omega)
    · exact (sent _ _).bump (by omega)
  · split
    · exact hu.sigRecord _ r
    · exact hu

/-- A frame of slots restarts their intervals where it can be originated, and nothing else of a slot changes. -/
theorem State.pub_sigSend (s : State) (cls : Nat) (hb : Bool) (dest : Word) (slots : List Nat) {k : Nat} (hk : SendCounter k) (n : Nat) :
    (s.sigSend cls hb dest slots k).pub n =
      if s.canSendTo dest = true ∧ n ∈ slots then { s.pub n with sentAt := s.tclks } else s.pub n := by
  rw [State.sigSend_eq]
  by_cases sends : s.canSendTo dest = true
  · have kept := ((s.markSent slots).sigLaunch_touches cls hb dest (slots.map fun n => (s.pub n).record n) hk).pubs (by decide)
    simp only [sends, if_true, true_and]
    exact (congrArg (Tab.get (pubDefault n) · n) kept).trans (s.pub_markSent slots n)
  · rw [if_neg sends, if_neg fun h => sends h.1]

/-- Slot `q` is slot `p` but for its source time and, where it was sent at count `c`, its interval. -/
structure PubSlot.SentBy (c : Nat) (p q : PubSlot) : Prop where
  word : q.word = p.word
  dest : q.dest = p.dest
  value : q.value = p.value
  quality : q.quality = p.quality
  sentAt : q.sentAt = p.sentAt ∨ q.sentAt = c

theorem PubSlot.SentBy.trans {c : Nat} {p q r : PubSlot} (h : SentBy c p q) (h' : SentBy c q r) : SentBy c p r :=
  ⟨h'.word.trans h.word, h'.dest.trans h.dest, h'.value.trans h.value, h'.quality.trans h.quality,
   h'.sentAt.elim (fun e => h.sentAt.imp e.trans e.trans) .inr⟩

/-- From `s` to `t` frames of slots were sent: a slot's source time may be put back and its interval restarted. -/
structure PubsSent (s t : State) : Prop where
  sends : SendsAlike s t
  tclks : t.tclks = s.tclks
  pub : ∀ n, PubSlot.SentBy s.tclks (s.pub n) (t.pub n)

namespace PubsSent

variable {s0 s t : State}

theorem refl (s : State) : PubsSent s s := ⟨.refl s, rfl, fun _ => ⟨rfl, rfl, rfl, rfl, .inl rfl⟩⟩

theorem trans (h : PubsSent s0 s) (h' : PubsSent s t) : PubsSent s0 t :=
  ⟨h.sends.trans h'.sends, h'.tclks.trans h.tclks, fun n => (h.pub n).trans (h.tclks ▸ h'.pub n)⟩

/-- An update of none of the parts that frames of slots concern. -/
theorem same (h : PubsSent s0 s) (net : t.net = s.net) (ring : t.ring = s.ring) (regs : t.regs = s.regs) (tclks : t.tclks = s.tclks)
    (pubs : t.pubs = s.pubs) : PubsSent s0 t := by
  refine h.trans ⟨⟨by rw [net], ring, fun _ => State.rd_congr regs _⟩, tclks, fun n => ?_⟩
  have slot : t.pub n = s.pub n := congrArg (Tab.get (pubDefault n) · n) pubs
  rw [slot]
  exact ⟨rfl, rfl, rfl, rfl, .inl rfl⟩

theorem sigSend (h : PubsSent s0 s) (cls : Nat) (hb : Bool) (dest : Word) (slots : List Nat) {k : Nat} (hk : SendCounter k) :
    PubsSent s0 (s.sigSend cls hb dest slots k) := by
  refine h.trans ⟨?_, ?_, fun n => ?_⟩
  · rw [State.sigSend_eq]
    split
    · refine SendsAlike.sigLaunch ?_ _ _ _ _ hk
      exact (SendsAlike.refl s).signalled (s.markSent_touches slots) fun p => by cases p <;> decide
    · exact .refl s
  · exact (State.sigSend_frame (Frame.refl (fun p => p ∈ .pubs :: Part.sigSent) s) _ _ _ _ _ (hk.regIn (by decide)) (.of_coveredBy rfl)).tclks
      (by decide)
  · rw [State.pub_sigSend s _ _ _ _ hk]
    split
    · exact ⟨rfl, rfl, rfl, rfl, .inr rfl⟩
    · exact ⟨rfl, rfl, rfl, rfl, .inl rfl⟩

theorem sigChange (h : PubsSent s0 s) (n : Nat) : PubsSent s0 (s.sigChange n) := by
  unfold State.sigChange
  dsimp only
  split
  · exact h.sigSend _ _ _ _ (.inl rfl)
  · exact h

/-- The source time of a slot that no write changed is put back (R210). -/
theorem retime (h : PubsSent s0 s) (n : Nat) (time : TimePoint) (qual : Nat) :
    PubsSent s0 (s.setPub n fun p => { p with time := time, timeQual := qual }) := by
  refine h.trans ⟨⟨rfl, rfl, fun _ => rfl⟩, rfl, fun m => ?_⟩
  by_cases same : m = n
  · subst same
    rw [State.pub_setPub_same]
    exact ⟨rfl, rfl, rfl, rfl, .inl rfl⟩
  · rw [State.pub_setPub_ne s _ same]
    exact ⟨rfl, rfl, rfl, rfl, .inl rfl⟩

theorem pubClose (h : PubsSent s0 s) (o : PubOpen) : PubsSent s0 (s.pubClose o) := by
  unfold State.pubClose
  dsimp only
  split
  · exact h.sigChange _
  · exact h.retime _ _ _

theorem pubFlush (h : PubsSent s0 s) (keep : Option Nat) : PubsSent s0 (s.pubFlush keep) := by
  unfold State.pubFlush
  dsimp only
  split
  · exact h
  · exact List.foldlRecOn _ _ (h.same rfl rfl rfl rfl rfl) fun u hu o _ => hu.pubClose o

end PubsSent

end Sys2Proof.Machine
end

section
/-! A write of a slot in a cycle of its own (R210, R222), and the heartbeat scan (R213). -/

namespace Sys2Proof.Machine

theorem State.pubFlush_nil {s : State} (closed : s.pubOpen = []) (keep : Option Nat) : s.pubFlush keep = s := by
  unfold State.pubFlush
  rw [closed]
  rfl

theorem State.pubFlush_one {s : State} {o : PubOpen} (only : s.pubOpen = [o]) :
    s.pubFlush none = State.pubClose { s with pubOpen := [] } o := by
  unfold State.pubFlush
  rw [only]
  rfl

theorem State.pubClose_pubOpen (s : State) (o : PubOpen) : (s.pubClose o).pubOpen = s.pubOpen :=
  (State.pubClose_frame (Frame.refl (fun p => p ∈ .pubs :: Part.sigSent) s) o (.of_coveredBy rfl)).pubOpen (by decide)

/-- Once the cycles before have ended, no slot awaits its frame. -/
theorem State.pubFlush_pubOpen (s : State) : (s.pubFlush none).pubOpen = [] := by
  unfold State.pubFlush
  simp only [reduceCtorEq, not_false_eq_true, ne_eq, decide_true, decide_false, List.filter_true, List.filter_false]
  split
  · exact List.isEmpty_iff.mp ‹_›
  · exact List.foldlRecOn (motive := fun u : State => u.pubOpen = []) _ _ rfl fun u hu o _ => (u.pubClose_pubOpen o).trans hu

/-- Slot `n` as it stood before the writes of a cycle. -/
def PubSlot.opened (p : PubSlot) (n cycle : Nat) (force : Bool) : PubOpen := ⟨n, cycle, p.value, p.quality, p.time, p.timeQual, force⟩

/-- Slot `n` with a value, quality and source time written. -/
def State.pubWritten (s : State) (n value quality : Nat) (t : TimePoint) : State :=
  s.setPub n fun p => { p with value := value % 2 ^ sigBits p.ty, quality, time := t, timeQual := s.qualAt t }

/-- A write where no slot awaits its frame, and the end of its cycle. -/
theorem State.pubWrite_pubFlush {s : State} (closed : s.pubOpen = []) (n value quality : Nat) (t : TimePoint) (force : Bool) (cycle : Nat) :
    (s.pubWrite n value quality t force cycle).pubFlush none =
      (s.pubWritten n value quality t).pubClose ((s.pub n).opened n cycle force) := by
  unfold State.pubWrite
  rw [State.pubFlush_nil closed]
  dsimp only
  rw [closed]
  refine (State.pubFlush_one rfl).trans ?_
  cases s
  cases closed
  rfl

/-- A slot whose value or quality the cycle changed keeps its source time as its cycle ends. -/
theorem State.pubClose_time {s : State} {o : PubOpen} (changed : (s.pub o.slot).value ≠ o.value ∨ (s.pub o.slot).quality ≠ o.quality) :
    ((s.pubClose o).pub o.slot).time = (s.pub o.slot).time := by
  unfold State.pubClose State.sigChange
  dsimp only
  rw [if_pos (.inr changed)]
  split
  · rw [State.pub_sigSend _ _ _ _ _ (.inl rfl)]
    split <;> rfl
  · rfl

/-- A slot written in a cycle of its own has the value and the quality of the write, and its time where one of them differs (R210). -/
theorem State.pub_pubAlone {s : State} {n v : Nat} (fits : v < 2 ^ sigBits (s.pub n).ty) (q : Nat) (t : TimePoint) (force : Bool) :
    ((s.pubAlone n v q t force).pub n).value = v ∧ ((s.pubAlone n v q t force).pub n).quality = q ∧
      ((s.pub n).value ≠ v ∨ (s.pub n).quality ≠ q → ((s.pubAlone n v q t force).pub n).time = t) := by
  have flushed := ((PubsSent.refl s).pubFlush none).pub n
  have ty : ((s.pubFlush none).pub n).ty = (s.pub n).ty := congrArg (bits · 0 2) flushed.word
  have written : ((s.pubFlush none).pubWritten n v q t).pub n = _ := State.pub_setPub_same ..
  rw [ty, Nat.mod_eq_of_lt fits] at written
  unfold State.pubAlone
  rw [State.pubWrite_pubFlush s.pubFlush_pubOpen]
  generalize (s.pubFlush none).pubWritten n v q t = u at written ⊢
  have closed := ((PubsSent.refl u).pubClose (((s.pubFlush none).pub n).opened n (20 * s.tclks) force)).pub n
  refine ⟨closed.value.trans (by rw [written]), closed.quality.trans (by rw [written]), fun changed => ?_⟩
  refine (State.pubClose_time ?_).trans (congrArg PubSlot.time written)
  change (u.pub n).value ≠ ((s.pubFlush none).pub n).value ∨ (u.pub n).quality ≠ ((s.pubFlush none).pub n).quality
  rw [written, flushed.value, flushed.quality]
  exact changed.imp Ne.symm Ne.symm

theorem PubsSent.canSendTo {s t : State} (h : PubsSent s t) (dest : Word) : t.canSendTo dest = s.canSendTo dest :=
  h.sends.canSend (dst := bits dest 0 16) (Nat.mod_lt _ (by decide))

/-- What a table lists under a key that does not have the default. -/
theorem Tab.mem_of_get_ne {α : Type} {d : α} {t : Tab α} {k : Nat} (h : Tab.get d t k ≠ d) : (k, Tab.get d t k) ∈ t := by
  induction t with
  | nil => exact absurd rfl h
  | cons e t ih =>
    obtain ⟨j, v⟩ := e
    unfold Tab.get at h ⊢
    split at h
    case isTrue same =>
      rw [if_pos same, same]
      exact List.mem_cons_self
    case isFalse other =>
      rw [if_neg other]
      exact List.mem_cons_of_mem _ (ih h)

/-- The slots of a list that share the destination of slot `n`, and the others. -/
def State.pubsWith (s : State) (n : Nat) (l : List Nat) : List Nat := l.filter fun m => decide ((s.pub m).dest = (s.pub n).dest)
def State.pubsBut (s : State) (n : Nat) (l : List Nat) : List Nat := l.filter fun m => decide ((s.pub m).dest ≠ (s.pub n).dest)

/-- One frame of a heartbeat scan sent, and the slots that it leaves. -/
def State.hbFrame (s : State) (n : Nat) (rest : List Nat) : State :=
  s.sigSend 5 true (s.pub n).dest ((s.pubsWith n (n :: rest)).take 32) Reg.sigCntTxHb
def State.hbRest (s : State) (n : Nat) (rest : List Nat) : List Nat := (s.pubsWith n (n :: rest)).drop 32 ++ s.pubsBut n (n :: rest)

theorem State.hbFrames_cons (s : State) (fuel n : Nat) (rest : List Nat) :
    s.hbFrames (fuel + 1) (n :: rest) = (s.hbFrame n rest).hbFrames fuel (s.hbRest n rest) := rfl

theorem State.hbRest_length (s : State) (n : Nat) (rest : List Nat) : (s.hbRest n rest).length ≤ rest.length := by
  have parts : (n :: rest).length = (s.pubsWith n (n :: rest)).length + (s.pubsBut n (n :: rest)).length := by
    have complement : s.pubsBut n (n :: rest) = (n :: rest).filter fun m => !decide ((s.pub m).dest = (s.pub n).dest) :=
      List.filter_congr fun m _ => decide_not
    rw [complement]
    exact List.length_eq_length_filter_add _
  have first : 0 < (s.pubsWith n (n :: rest)).length :=
    List.length_pos_of_mem (List.mem_filter.mpr ⟨List.mem_cons_self, decide_eq_true rfl⟩)
  rw [State.hbRest, List.length_append, List.length_drop]
  rw [List.length_cons] at parts
  omega

/-- A slot of the list is in the frame or in the list that it leaves. -/
theorem State.mem_hbRest (s : State) {n m : Nat} {rest : List Nat} (listed : n ∈ m :: rest) :
    ((s.pub n).dest = (s.pub m).dest ∧ n ∈ (s.pubsWith m (m :: rest)).take 32) ∨ n ∈ s.hbRest m rest := by
  by_cases same : (s.pub n).dest = (s.pub m).dest
  · have mine : n ∈ (s.pubsWith m (m :: rest)).take 32 ++ (s.pubsWith m (m :: rest)).drop 32 := by
      rw [List.take_append_drop]
      exact List.mem_filter.mpr ⟨listed, decide_eq_true same⟩
    exact (List.mem_append.mp mine).imp (.intro same) (List.mem_append_left _)
  · exact .inr (List.mem_append_right _ (List.mem_filter.mpr ⟨listed, decide_eq_true same⟩))

/-- A slot that a heartbeat scan is to send, or that was sent in this TCLK period, has its interval restarted (R213). -/
theorem State.hbFrames_sentAt {n : Nat} (fuel : Nat) (l : List Nat) {s : State} (enough : l.length ≤ fuel)
    (due : n ∈ l ∨ (s.pub n).sentAt = s.tclks) (sends : s.canSendTo (s.pub n).dest = true) :
    ((s.hbFrames fuel l).pub n).sentAt = s.tclks := by
  induction fuel generalizing l s with
  | zero =>
    rw [List.length_eq_zero_iff.mp (Nat.le_zero.mp enough)] at due
    exact due.resolve_left List.not_mem_nil
  | succ fuel ih =>
    match l with
    | [] => exact due.resolve_left List.not_mem_nil
    | m :: rest =>
      have sent : PubsSent s (s.hbFrame m rest) := (PubsSent.refl s).sigSend _ _ _ _ (.inr rfl)
      rw [State.hbFrames_cons]
      refine (ih _ ((s.hbRest_length m rest).trans (Nat.le_of_succ_le_succ enough)) ?_ ?_).trans sent.tclks
      · rw [sent.tclks]
        obtain listed | now := due
        · obtain ⟨same, taken⟩ | left := s.mem_hbRest listed
          · rw [State.hbFrame, State.pub_sigSend _ _ _ _ _ (.inr rfl), if_pos ⟨same ▸ sends, taken⟩]
            exact .inr rfl
          · exact .inl left
        · exact .inr ((sent.pub n).sentAt.elim (·.trans now) id)
      · rw [(sent.pub n).dest, sent.canSendTo]
        exact sends

theorem State.hbFrames_hbAt (s : State) (fuel : Nat) (l : List Nat) : (s.hbFrames fuel l).hbAt = s.hbAt :=
  (State.hbFrames_frame (Frame.refl (fun p => p ∈ .pubs :: Part.sigSent) s) fuel l (.of_coveredBy rfl)).hbAt (by decide)

/-- The slots that are due in a state. -/
def State.pubsDue (s : State) : List Nat := (s.pubs.filter fun p => s.pubDue p.2).map fun p => p.1

/-- The state in which a heartbeat scan sends: the frames of earlier cycles' writes are built (R203), and the scan's interval restarts. -/
def State.hbScanned (s : State) : State := { s.pubFlush none with hbAt := s.tclks }

theorem PubsSent.hbScanned (s : State) : PubsSent s s.hbScanned :=
  ((PubsSent.refl s).pubFlush none).same rfl rfl rfl rfl rfl

theorem exec_heartbeatScan {s : State} (atScan : s.passed s.hbAt (usTclks 250) = true) :
    exec .heartbeatScan s = .next (s.hbScanned.hbFrames s.hbScanned.pubsDue.length s.hbScanned.pubsDue) :=
  congrArg Host.Outcome.next (if_pos atScan)

theorem not_pubDue_default (s : State) (n : Nat) : s.pubDue (pubDefault n) = false := by
  unfold pubDefault
  split <;> rfl

/-- A slot that is due is in the list of the due slots. -/
theorem State.mem_pubsDue {s : State} {n : Nat} (due : s.pubDue (s.pub n) = true) : n ∈ s.pubsDue := by
  refine List.mem_map.mpr ⟨(n, s.pub n), List.mem_filter.mpr ⟨Tab.mem_of_get_ne fun same => ?_, due⟩, rfl⟩
  rw [State.pub, same, not_pubDue_default] at due
  cases due

/-- A slot that is due stays so as others are sent, unless it was sent itself. -/
theorem PubsSent.pubDue {s t : State} (h : PubsSent s t) {n : Nat} (due : s.pubDue (s.pub n) = true) :
    t.pubDue (t.pub n) = true ∨ (t.pub n).sentAt = t.tclks := by
  refine (h.pub n).sentAt.imp (fun kept => ?_) fun now => now.trans h.tclks.symm
  unfold State.pubDue PubSlot.en PubSlot.hb at due ⊢
  rwa [h.tclks, kept, (h.pub n).word]

/-- A heartbeat scan restarts the interval of a slot that is due and can be sent (R213). -/
theorem State.hbScanned_sentAt {s : State} {n : Nat} (due : s.pubDue (s.pub n) = true) (sends : s.canSendTo (s.pub n).dest = true) :
    ((s.hbScanned.hbFrames s.hbScanned.pubsDue.length s.hbScanned.pubsDue).pub n).sentAt = s.tclks := by
  have scanned := PubsSent.hbScanned s
  refine (State.hbFrames_sentAt _ _ le_rfl ((scanned.pubDue due).imp_left State.mem_pubsDue) ?_).trans scanned.tclks
  rwa [(scanned.pub n).dest, scanned.canSendTo]

end Sys2Proof.Machine
end

section
/-! Subscription entries (R214–R218): an entry drives its operand, a record is applied to it, and it becomes STALE. What follows from it for
rules and windows is kept apart from the SIG page's own registers. -/

namespace Sys2Proof.Machine

/-! What follows from an entry for rules, windows and reports. -/

/-- The parts that reports, rules and windows change, and the signal operands. -/
def Part.driven : List Part := Part.reports ++ Part.ruleUnit ++ [.checks, .pwr, .wins, .sigOps, .regWin]

/-- `t` differs from `s` at most in what reports, rules and windows change. -/
abbrev Drives : State → State → Prop := Frame fun p => p ∈ Part.driven

/-- A register of the SIG page other than its IRQ_PEND. -/
abbrev SigKey (k : Nat) : Prop := k / 0x1000 = 0x15 ∧ k % 0x1000 ≠ 0x010

theorem not_sigKey {page off : Nat} (h : off = 0x010 ∨ page ≠ 0x15 ∧ off < 0x1000) : ¬ SigKey (page * 0x1000 + off) := by
  rintro ⟨samePage, sameOff⟩
  omega

theorem Part.driven_away {p : Part} (hp : decide (p ∈ Part.driven) = true) : ∀ f, f ∈ p.banks → Away SigKey f := by
  cases p <;> (try cases hp)
  all_goals
    delta Part.banks
    simp only [List.forall_mem_cons, List.not_mem_nil, false_implies, implies_true, and_true]
  all_goals
    and_intros
    all_goals first
      | refine Away.one ?_ | refine Away.all fun i => ?_ | refine Away.below fun i hi => ?_
    all_goals
      show ¬ SigKey (_ * 0x1000 + _)
      exact not_sigKey (by omega)

theorem Drives.sigKey {s t : State} (h : Drives s t) {k : Nat} (key : SigKey k) : t.rd k = s.rd k := by
  refine h.regs _ ?_
  rintro ⟨part, listed, has⟩
  exact Part.has_away (Part.driven_away (decide_eq_true listed)) has key

theorem Drives.sub {s t : State} (h : Drives s t) (n : Nat) : t.sub n = s.sub n :=
  congrArg (Tab.get SubEnt.init · n) (h.subs (by decide))

theorem State.raise_drives (s : State) (page b : Nat) : Drives s (s.raise page b) :=
  State.raise_frame (.refl _ s) page b (.of_coveredBy rfl)

theorem State.raise_post_drives (s : State) (page b ty : Nat) (blk : Block) (inst flags : Nat) (w4 w5 w6 w7 : Word) :
    Drives s ((s.raise page b).post ty blk inst flags w4 w5 w6 w7) :=
  State.post_frame (s.raise_drives page b) _ _ _ _ _ _ _ _ (.of_coveredBy rfl)

/-! Signal operands (R186, R215). -/

theorem setHas_setDel_of {l : List Nat} {k : Nat} (j : Nat) (h : setHas l k = false) : setHas (setDel l j) k = false := by
  induction l with
  | nil => rfl
  | cons i l ih =>
    rw [setHas, Bool.or_eq_false_iff] at h
    unfold setDel
    split
    · exact ih h.2
    · rw [setHas, h.1, ih h.2, Bool.or_self]

theorem State.setSigOp_sigOps (s : State) (o : Nat) (b : Bool) (t : TimePoint) :
    (s.setSigOp o b t).sigOps = if setHas s.sigOps o = b then s.sigOps else if b then setAdd s.sigOps o else setDel s.sigOps o := by
  unfold State.setSigOp
  split
  · rfl
  · exact (State.operandChanged_frame (Frame.refl (fun p => p ∈ Part.ruleUnit) _) _ t (.of_coveredBy rfl)).sigOps (by decide)

/-- An operand brought to 0 is 0, and an operand that is 0 stays so as another is brought to 0. -/
theorem State.setHas_setSigOp_false (s : State) {o p : Nat} (t : TimePoint) (h : p = o ∨ setHas s.sigOps p = false) :
    setHas (s.setSigOp o false t).sigOps p = false := by
  rw [State.setSigOp_sigOps, if_neg (c := false = true) Bool.false_ne_true]
  split
  next zero => exact h.elim (fun same => same ▸ zero) id
  next =>
    obtain rfl | zero := h
    · exact setHas_setDel _ _
    · exact setHas_setDel_of o zero

theorem State.setHas_foldl_setSigOp {p : Nat} (l : List Nat) {s : State} (h : p ∈ l ∨ setHas s.sigOps p = false) :
    setHas (l.foldl (fun s o => s.setSigOp o false s.now) s).sigOps p = false := by
  induction l generalizing s with
  | nil => exact h.resolve_left List.not_mem_nil
  | cons o l ih =>
    refine ih ?_
    obtain listed | zero := h
    · exact (List.mem_cons.mp listed).elim (fun same => .inr (s.setHas_setSigOp_false s.now (.inl same))) .inl
    · exact .inr (s.setHas_setSigOp_false s.now (.inr zero))

theorem State.subRelease_drives (s : State) (n : Nat) : Drives s (s.subRelease n) :=
  State.subRelease_frame (.refl _ s) n (.of_coveredBy rfl)

/-! An entry drives its operand. -/

/-- Entry `n` shows its value. -/
def State.subShowing (s : State) (n : Nat) : State := s.setSub n fun x => { x with shown := (s.sub n).shows }

theorem State.subDrive_drives (s : State) (n : Nat) (t : TimePoint) : Drives (s.subShowing n) (s.subDrive n t) := by
  unfold State.subDrive
  extract_lets e v u
  have shown : Drives (s.subShowing n) u := .refl _ _
  split
  · exact State.setSigOp_frame shown _ _ _ (.of_coveredBy rfl)
  · exact State.setSigOp_frame (State.setSigOp_frame shown _ _ _ (.of_coveredBy rfl)) _ _ _ (.of_coveredBy rfl)
  · exact shown

theorem State.sub_subDrive (s : State) (n : Nat) (t : TimePoint) :
    (s.subDrive n t).sub n = { s.sub n with shown := (s.sub n).shows } :=
  ((s.subDrive_drives n t).sub n).trans (State.sub_setSub_same ..)

theorem State.sub_subDrive_ne (s : State) {n m : Nat} (other : m ≠ n) (t : TimePoint) : (s.subDrive n t).sub m = s.sub m :=
  ((s.subDrive_drives n t).sub m).trans (State.sub_setSub_ne _ _ other)

/-- The registers of the SIG page do not change. -/
theorem State.subDrive_sigKey (s : State) (n : Nat) (t : TimePoint) {k : Nat} (key : SigKey k) : (s.subDrive n t).rd k = s.rd k :=
  (s.subDrive_drives n t).sigKey key

/-! A record applied (R214–R216, R218, R545). -/

/-- A record changes the value or the quality of an entry. -/
def SubEnt.changedBy (e : SubEnt) (r : SigRec) : Bool := decide (r.value ≠ e.value) || decide (r.quality ≠ e.quality)

/-- An entry as a record leaves it, before it drives its operand. -/
def SubEnt.taken (changed : Bool) (r : SigRec) (e : SubEnt) : SubEnt :=
  { e with
    value := r.value, quality := r.quality, time := r.time, timeQual := r.timeQual, reached := true,
    count := if changed then capAt 65535 (e.count + 1) else e.count, dirty := e.dirty || changed }

/-- The interrupt of an entry's first change since it was read (R218). -/
def State.subAlerted (s : State) (n : Nat) (r : SigRec) : State :=
  if (s.sub n).changedBy r && !(s.sub n).dirty && bit (s.sub n).word 4 then s.raise 0x15 3 else s

/-- A record taken by entry `n` and counted. -/
def State.subCounted (s : State) (n : Nat) (r : SigRec) : State :=
  ((s.subAlerted n r).setSub n (.taken ((s.sub n).changedBy r) r)).bump Reg.sigCntApplied

/-- The end of entry `n`'s STALE state reported (R216). -/
def State.subRevived (s : State) (n : Nat) (e : SubEnt) (r : SigRec) : State :=
  if e.quality.testBit 1 && bit e.word 5 then
    (s.raise 0x15 1).post 0x3A .sig 0 0 (w32 n) (w32 e.id) r.time.sec (w32 r.time.ns)
  else s

theorem State.subApply_eq (s : State) (n : Nat) (r : SigRec) : s.subApply n r =
    (((s.subCounted n r).subRevived n (s.sub n) r).subDrive n r.time).winSignal n (s.sub n).value r.value r.time := rfl

theorem State.subAlerted_drives (s : State) (n : Nat) (r : SigRec) : Drives s (s.subAlerted n r) :=
  .ite (fun _ => s.raise_drives 0x15 3) fun _ => .refl _ s

theorem State.subRevived_drives (s : State) (n : Nat) (e : SubEnt) (r : SigRec) : Drives s (s.subRevived n e r) :=
  .ite (fun _ => s.raise_post_drives ..) fun _ => .refl _ s

theorem State.winSignal_drives (s : State) (n old new : Nat) (t : TimePoint) : Drives s (s.winSignal n old new t) :=
  State.winSignal_frame (.refl _ s) _ _ _ _ (.of_coveredBy rfl)

theorem State.sub_subCounted (s : State) (n : Nat) (r : SigRec) :
    (s.subCounted n r).sub n = (s.sub n).taken ((s.sub n).changedBy r) r :=
  (State.sub_setSub_same ..).trans (congrArg (SubEnt.taken _ r) ((s.subAlerted_drives n r).sub n))

/-- A record applied is counted, and the entry is as the record leaves it but for what it shows. -/
theorem State.subApply_spec (s : State) (n : Nat) (r : SigRec) :
    (s.subApply n r).rd Reg.sigCntApplied = satInc (s.rd Reg.sigCntApplied) ∧
    ∃ shown, (s.subApply n r).sub n = { (s.sub n).taken ((s.sub n).changedBy r) r with shown } := by
  have key : SigKey Reg.sigCntApplied := by decide
  have revived := (s.subCounted n r).subRevived_drives n (s.sub n) r
  have signalled := (((s.subCounted n r).subRevived n (s.sub n) r).subDrive n r.time).winSignal_drives n (s.sub n).value r.value r.time
  rw [State.subApply_eq]
  constructor
  · calc
      _ = _ := signalled.sigKey key
      _ = _ := State.subDrive_sigKey _ n r.time key
      _ = _ := revived.sigKey key
      _ = _ := State.rd_bump_same _ _
      _ = _ := congrArg satInc ((s.subAlerted_drives n r).sigKey key)
  · have entry := (signalled.sub n).trans (State.sub_subDrive ..)
    rw [revived.sub, State.sub_subCounted] at entry
    exact ⟨_, entry⟩

/-! A record of a node (R214, R217). -/

/-- A record of entry `n`'s signal was received now. -/
def State.subHeard (s : State) (n : Nat) (r : SigRec) : State :=
  s.setSub n fun x => { x with hb := r.hb, receipt := s.now, heardAt := s.tclks }

section Record

variable {s : State} {node : Nat} {r : SigRec} (live : r.slot ≠ 4095)
include live

theorem State.sigRecord_unsubscribed (free : s.subFor (node * 4096 + r.slot) = none) : s.sigRecord node r = s.bump Reg.sigCntUnsub := by
  unfold State.sigRecord
  rw [if_neg fun h => live h.1]
  dsimp only
  rw [free]

/-- A record of an entry's signal: of another type it is a failure of check 0x0302, older than the entry it is counted, and otherwise it is
applied (R214). -/
theorem State.sigRecord_subscribed {n : Nat} (entry : s.subFor (node * 4096 + r.slot) = some n) : s.sigRecord node r =
    if r.ty ≠ (s.sub n).ty then (s.raise 0x15 4).qualFail 0x15 0x0302 n (w32 (s.sub n).id) Reg.sigCntType
    else if (s.sub n).reached ∧ !(s.sub n).isDying ∧ timeDiff r.time (s.sub n).time < 0 then (s.subHeard n r).bump Reg.sigCntOld
    else (s.subHeard n r).subApply n r := by
  unfold State.sigRecord
  rw [if_neg fun h => live h.1]
  dsimp only
  rw [entry]
  rfl

end Record

end Sys2Proof.Machine
end

section
/-! The SIG block's commands (R207–R219, R222): what each leaves of the slots, the entries and the counters. -/

namespace Sys2Proof.Machine

/-! A silent entry (R216). -/

/-- Entry `n` marked STALE and counted, before it drives its operand. -/
def State.subStaled (s : State) (n : Nat) : State :=
  (s.setSub n fun e => { e with quality := e.quality ||| 2 }).bump Reg.sigCntStale

theorem State.subStale_spec (s : State) (n : Nat) :
    ((s.subStale n).sub n).quality = (s.sub n).quality ||| 2 ∧ (s.subStale n).rd Reg.sigCntStale = satInc (s.rd Reg.sigCntStale) := by
  have stale : (s.subStaled n).sub n = { s.sub n with quality := (s.sub n).quality ||| 2 } :=
    s.sub_setSub_same n fun e => { e with quality := e.quality ||| 2 }
  constructor
  · exact (congrArg SubEnt.quality (State.sub_subDrive (s.subStaled n) n s.now)).trans (congrArg SubEnt.quality stale)
  · exact (State.subDrive_sigKey _ n s.now (by decide)).trans (State.rd_bump_same _ _)

/-- SIGNAL_STALE of entry `n`, as it was, reported where its word asks for it. -/
def State.staleReported (s : State) (n : Nat) (e : SubEnt) : State :=
  if bit e.word 5 then (s.raise 0x15 0).post 0x39 .sig 0 0 (w32 n) (w32 e.id) e.receipt.sec (w32 e.receipt.ns) else s

theorem State.staleReported_drives (s : State) (n : Nat) (e : SubEnt) : Drives s (s.staleReported n e) :=
  .ite (fun _ => s.raise_post_drives ..) fun _ => .refl _ s

theorem State.staleReported_raised (s : State) (n : Nat) {e : SubEnt} (asked : bit e.word 5 = true) : (s.staleReported n e).Raised 0x15 0 := by
  rw [State.staleReported, if_pos asked]
  exact s.raise_postAt_raised (by decide)

theorem exec_subscriptionStale {s : State} {n : Fin 8192} (due : (s.sub n).en ∧ (s.sub n).hb ≤ 10 ∧ !(s.sub n).isDying ∧
    !(s.sub n).quality.testBit 1 ∧ s.passed (s.sub n).heardAt (msTclks (4 * 2 ^ (s.sub n).hb))) :
    exec (.subscriptionStale n) s = .next ((s.subStale n).staleReported n (s.sub n)) :=
  congrArg Host.Outcome.next (if_pos due)

/-! A frame received (R214, R219). -/

/-- The oldest frame delivered to SIG is taken, after the change frames of earlier cycles' writes. -/
def State.sigTaken (s : State) (rest : List Delivered) : State := (s.pubFlush none).setNet fun n => { n with toSig := rest }

section Frames

variable {s : State} {d : Delivered} {rest : List Delivered} (oldest : (s.pubFlush none).net.toSig = d :: rest)
include oldest

theorem exec_signalFrameReceive_bad (bad : sigFrame (hdrClass d.bytes) (payload d.bytes) = none) : exec .signalFrameReceive s =
    .next (((s.sigTaken rest).raise 0x15 4).qualFail 0x15 0x0301 (hdrSource d.bytes) 0 Reg.sigCntBadFrame) := by
  show execSignalFrameReceive s = _
  unfold execSignalFrameReceive
  dsimp only
  rw [oldest]
  dsimp only
  rw [bad]
  rfl

theorem exec_signalFrameReceive_one {r : SigRec} (one : sigFrame (hdrClass d.bytes) (payload d.bytes) = some [r]) :
    exec .signalFrameReceive s = .next ((s.sigTaken rest).sigRecord (hdrSource d.bytes) r) := by
  show execSignalFrameReceive s = _
  unfold execSignalFrameReceive
  dsimp only
  rw [oldest]
  dsimp only
  rw [one]
  rfl

end Frames

/-- A failure of one of SIG's checks, with the bit of such failures: counted in `counter`. -/
def State.sigFail (s : State) (check item : Nat) (value : Word) (counter : Nat) : State :=
  (s.raise 0x15 4).qualFail 0x15 check item value counter

theorem State.sigFail_spec (s : State) (check item : Nat) (value : Word) {counter : Nat} (key : SigKey counter)
    (listed : RegIn (fun p => p ∈ .regSig :: Part.driven) counter) :
    (s.sigFail check item value counter).Raised 0x15 4 ∧
    (s.sigFail check item value counter).rd counter = satInc (s.rd counter) ∧
    (s.sigFail check item value counter).subs = s.subs ∧ (s.sigFail check item value counter).net = s.net := by
  have touched := State.qualFail_frame (.refl (fun p => p ∈ .regSig :: Part.driven) (s.raise 0x15 4)) 0x15 check item value counter listed
    (.of_coveredBy rfl)
  have raised := s.raise_drives 0x15 4
  obtain ⟨page, irq⟩ := key
  obtain ⟨reported, counted⟩ := (s.raise 0x15 4).qualFail_counts 0x15 check item value irq (by rw [page]; decide)
  exact ⟨reported.raised (s.raise_raised 0x15 (by decide)), counted.trans (congrArg satInc (raised.sigKey ⟨page, irq⟩)),
    (touched.subs (by decide)).trans (raised.subs (by decide)), (touched.net (by decide)).trans (raised.net (by decide))⟩

section Record

variable {s : State} {node n : Nat} {r : SigRec} (live : r.slot ≠ 4095) (entry : s.subFor (node * 4096 + r.slot) = some n)
include live entry

/-- A record of another type than its entry's is a failure of check 0x0302, and leaves the entry. -/
theorem State.sigRecord_otherType (other : r.ty ≠ (s.sub n).ty) :
    (s.sigRecord node r).rd Reg.sigCntType = satInc (s.rd Reg.sigCntType) ∧ (s.sigRecord node r).sub n = s.sub n := by
  obtain ⟨-, counted, subs, -⟩ := s.sigFail_spec 0x0302 n (w32 (s.sub n).id) (counter := Reg.sigCntType) (by decide)
    (Reg.sigCntType_in (by decide))
  rw [(State.sigRecord_subscribed live entry).trans (if_pos other)]
  exact ⟨counted, congrArg (Tab.get SubEnt.init · n) subs⟩

variable (same : r.ty = (s.sub n).ty)
include same

/-- A record older than its entry, other than one for a DYING signal, is heard and counted. -/
theorem State.sigRecord_older (notDying : (s.sub n).isDying = false) (reached : (s.sub n).reached = true)
    (older : timeDiff r.time (s.sub n).time < 0) :
    ((s.sigRecord node r).sub n).value = (s.sub n).value ∧ ((s.sigRecord node r).sub n).receipt = s.now ∧
    (s.sigRecord node r).rd Reg.sigCntOld = satInc (s.rd Reg.sigCntOld) := by
  have counted := (State.sigRecord_subscribed live entry).trans (if_neg (not_not_intro same))
  have heard : (s.subHeard n r).sub n = _ := State.sub_setSub_same ..
  rw [counted.trans (if_pos ⟨reached, by rw [notDying]; rfl, older⟩)]
  exact ⟨(congrArg SubEnt.value heard :), (congrArg SubEnt.receipt heard :), State.rd_bump_same _ _⟩

/-- A record that is not older than its entry is applied to it. -/
theorem State.sigRecord_applied (inOrder : (s.sub n).reached = false ∨ 0 ≤ timeDiff r.time (s.sub n).time) :
    (s.sigRecord node r).rd Reg.sigCntApplied = satInc (s.rd Reg.sigCntApplied) ∧
    ∃ changed shown, (s.sigRecord node r).sub n =
      { (s.sub n).taken changed r with shown, hb := r.hb, receipt := s.now, heardAt := s.tclks } := by
  have counted := (State.sigRecord_subscribed live entry).trans (if_neg (not_not_intro same))
  have newer : ¬ ((s.sub n).reached = true ∧ (!(s.sub n).isDying) = true ∧ timeDiff r.time (s.sub n).time < 0) :=
    fun ⟨reached, _, older⟩ => inOrder.elim (ne_true_of_eq_false · reached) (Int.not_le.mpr older)
  have heard : (s.subHeard n r).sub n = _ := State.sub_setSub_same ..
  obtain ⟨applied, shown, left⟩ := (s.subHeard n r).subApply_spec n r
  rw [counted.trans (if_neg newer)]
  rw [heard] at left
  exact ⟨applied, _, shown, left⟩

end Record

theorem State.sigRecord_net (s : State) (node : Nat) (r : SigRec) : (s.sigRecord node r).net = s.net :=
  (State.sigRecord_frame (.refl (fun p => p ∈ Part.signalled) s) node r (.of_coveredBy rfl)).net (by decide)

/-- The time of a receipt is the time of the command. -/
theorem State.sigTaken_now (s : State) (rest : List Delivered) : (s.sigTaken rest).now = s.now := by
  have time : (s.pubFlush none).time = s.time :=
    (State.pubFlush_frame (.refl (fun p => p ∈ .pubOpen :: .pubs :: Part.sigSent) s) none (.of_coveredBy rfl)).time (by decide)
  change (⟨BitVec.ofNat 32 (s.pubFlush none).time.sec.toNat, (s.pubFlush none).time.ns⟩ : TimePoint) = _
  rw [time]
  rfl

/-! An entry loaded, shown and unloaded (R218, R222). -/

theorem State.sub_subLoaded (s : State) (n id : Nat) (w : Word) :
    ∃ shown, (s.subLoaded n id w).sub n = { SubEnt.loaded id w with shown } := by
  have entered : (s.subEntered n id w).sub n = .loaded id w := State.sub_setSub_same ..
  unfold State.subLoaded
  split
  · exact ⟨_, entered ▸ State.sub_subDrive ..⟩
  · exact ⟨_, entered⟩

theorem State.sub_subLoaded_ne (s : State) {n m : Nat} (other : m ≠ n) (id : Nat) (w : Word) : (s.subLoaded n id w).sub m = s.sub m := by
  have entered : (s.subEntered n id w).sub m = s.sub m := (State.sub_setSub_ne _ _ other).trans ((s.subRelease_drives n).sub m)
  unfold State.subLoaded
  split
  · exact (State.sub_subDrive_ne _ other _).trans entered
  · exact entered

theorem State.subShown_spec (s : State) (n : Nat) :
    (s.subShown n).rd Reg.sigSubMeta = w32 (at_ 16 ((s.sub n).count - 1) + (s.sub n).quality) ∧ ((s.subShown n).sub n).count = 0 :=
  ⟨State.rd_wr_same .., congrArg SubEnt.count (State.sub_setSub_same ..)⟩

theorem State.setHas_subRelease (s : State) {n o : Nat} (listed : o ∈ (s.sub n).ops) : setHas (s.subRelease n).sigOps o = false :=
  State.setHas_foldl_setSigOp _ (.inl listed)

theorem State.subCleared_spec (s : State) (n : Nat) :
    ((s.subCleared n).sub n).en = false ∧ ((s.subCleared n).sub n).id = (s.sub n).id ∧
    ∀ o ∈ (s.sub n).ops, setHas (s.subCleared n).sigOps o = false := by
  have cleared := (s.subRelease n).sub_setSub_same n fun e => { SubEnt.init with id := e.id, word := setBits e.word 2 1 0 }
  refine ⟨?_, ?_, fun o listed => s.setHas_subRelease listed⟩
  · exact (congrArg SubEnt.en cleared).trans (bit_setBits_same ((s.subRelease n).sub n).word 2 0 (by decide))
  · have kept : ((s.subRelease n).sub n).id = (s.sub n).id := congrArg SubEnt.id ((s.subRelease_drives n).sub n)
    exact (congrArg SubEnt.id cleared).trans kept

end Sys2Proof.Machine
end

section
/-! Publishing and subscriptions (R207–R219, R222): the clauses of O38, and their conjunction. -/

namespace Sys2Proof.Machine

/-- Settles O38: a write of a slot is `pub_pubAlone`, a heartbeat scan `hbScanned_sentAt`, and a record `sigRecord_subscribed`; every other
clause says what one command of the SIG block answers and leaves. -/
theorem signalsArePublishedAndFollowed : Obligations.SignalsArePublishedAndFollowed := by
  unfold Obligations.SignalsArePublishedAndFollowed
  refine ⟨⟨fun s arg idle below => ?_, fun s arg idle inTable => ?_, fun s arg c idle beyond hc => ?_, fun s atScan => ?_⟩,
    fun s arg idle inTable => ?_, fun s d rest oldest bad => ?_, fun s d rest r oldest one live => ?_, fun s n en hb dying fresh silent => ?_⟩
  · intro n w d bad v q
    refine ⟨fun good => ?_, fun isBad => ?_, fun low valid fits => ?_, fun high => ?_, fun low refused => ?_⟩
    · have loaded := s.sigAccepted.pub_setPub_same n fun _ => s.loadedPub
      have others (m : Nat) (other : m ≠ n) := s.sigAccepted.pub_setPub_ne (fun _ => s.loadedPub) other
      exact ⟨_, exec_loadPub_good idle below good, mbxReply_job _ _, congrArg PubSlot.loaded loaded, congrArg PubSlot.word loaded,
        congrArg PubSlot.dest loaded, others⟩
    · exact sigAnswered_pubs (exec_loadPub_bad idle below isBad)
    · exact ⟨_, exec_setValue_good idle below low valid fits, mbxReply_job _ _,
        State.pub_pubAlone (s := s.sigAccepted) fits q s.nextEdge false⟩
    · exact sigAnswered_pubs (exec_setValue_high idle below high)
    · exact sigAnswered_pubs (exec_setValue_refused idle below low refused)
  · intro p
    refine ⟨fun dying => ?_, ?_, ?_⟩
    · simp only [List.forall_mem_cons, List.not_mem_nil, false_implies, implies_true, and_true]
      exact ⟨sigAnswered_pubs (exec_loadPub_dying idle inTable dying), sigAnswered_pubs (exec_setValue_dying idle inTable dying)⟩
    · exact ⟨_, exec_readPub idle inTable, rfl, mbxReply_job _ _⟩
    · exact ⟨_, exec_readPubcfg idle inTable, rfl, mbxReply_job _ _⟩
  · obtain ⟨f, run⟩ := exec_of_mem_pubCommands hc s
    rw [State.pubCommand_beyond idle beyond] at run
    exact sigAnswered_pubs run
  · exact ⟨_, exec_heartbeatScan atScan, State.hbFrames_hbAt _ _ _, fun n _ due sends => State.hbScanned_sentAt due sends⟩
  · intro n e id w clash twice
    refine ⟨fun good free once => ?_, fun bad => ?_, fun good taken => ?_, fun good free again => ?_, ?_, ?_, ?_⟩
    · obtain ⟨shown, entry⟩ := s.sigAccepted.sub_subLoaded n id w
      exact ⟨_, exec_loadSub_good idle inTable good free once, mbxReply_job _ _, congrArg SubEnt.id entry, congrArg SubEnt.word entry,
        congrArg SubEnt.value entry, congrArg SubEnt.reached entry, fun m other => s.sigAccepted.sub_subLoaded_ne other id w⟩
    · exact sigAnswered_subs (exec_loadSub_bad idle inTable bad)
    · exact sigAnswered_subs (exec_loadSub_clash idle inTable good taken)
    · exact sigAnswered_subs (exec_loadSub_twice idle inTable good free again)
    · obtain ⟨info, count⟩ := s.sigAccepted.subShown_spec n
      exact ⟨_, exec_readSub idle inTable, mbxReply_job _ _, info, count⟩
    · exact ⟨_, exec_readSubcfg idle inTable, mbxReply_job _ _, rfl⟩
    · exact ⟨_, exec_clearSub idle inTable, mbxReply_job _ _, s.sigAccepted.subCleared_spec n⟩
  · intro u
    obtain ⟨raised, counted, subs, net⟩ := (s.sigTaken rest).sigFail_spec 0x0301 (hdrSource d.bytes) 0
      (counter := Reg.sigCntBadFrame) (by decide) (Reg.sigCntBadFrame_in (by decide))
    exact ⟨_, exec_signalFrameReceive_bad oldest bad, congrArg NetSt.toSig net, raised, counted, subs⟩
  · intro u
    have run := exec_signalFrameReceive_one oldest one
    have net : ((s.sigTaken rest).sigRecord (hdrSource d.bytes) r).net.toSig = rest := congrArg NetSt.toSig (State.sigRecord_net _ _ r)
    refine ⟨fun free => ?_, fun n entry => ?_⟩
    · refine ⟨_, run, net, ?_⟩
      rw [State.sigRecord_unsubscribed (s := s.sigTaken rest) live free]
      exact ⟨State.rd_bump_same _ _, rfl⟩
    · refine ⟨fun other => ?_, fun same notDying inOrder => ?_, fun same notDying reached older => ?_⟩
      · exact ⟨_, run, net, State.sigRecord_otherType (s := s.sigTaken rest) live entry other⟩
      · obtain ⟨applied, _, _, left⟩ := State.sigRecord_applied (s := s.sigTaken rest) live entry same inOrder
        rw [State.sigTaken_now] at left
        exact ⟨_, run, net, congrArg SubEnt.value left, congrArg SubEnt.quality left, congrArg SubEnt.time left,
          congrArg SubEnt.receipt left, congrArg SubEnt.hb left, applied⟩
      · obtain ⟨value, receipt, old⟩ := State.sigRecord_older (s := s.sigTaken rest) live entry same notDying reached older
        exact ⟨_, run, net, value, receipt.trans (s.sigTaken_now rest), old⟩
  · obtain ⟨quality, counted⟩ := s.subStale_spec n
    have reported := (s.subStale n).staleReported_drives n (s.sub n)
    refine ⟨_, exec_subscriptionStale ⟨en, hb, by rw [dying]; rfl, by rw [fresh]; rfl, silent⟩, ?_,
      (reported.sigKey (by decide)).trans counted, (s.subStale n).staleReported_raised n⟩
    rw [reported.sub, quality, Nat.testBit_or]
    exact Bool.or_true _

end Sys2Proof.Machine
end

section
/-! The switch (R280–R300): what admission, push-out, spilling and mirroring of frames leave alone. Of the registers they count in the
buffer's, the switch's and the ports' sending counters; of the network they change the queues, the sequence numbers and what is noted of push-out and
spilling, and a mirror session its copies. -/

namespace Sys2Proof.Machine

/-- The counters of what happens to frames beyond their checks: those of the switch, of its buffer and of the ring, and TX_FRAMES,
TX_STOMP and TX_DISCARD_DOWN of a port. -/
def Onward (k : Nat) : Prop :=
  k % 0x1000 ≠ 0x010 ∧
    (k / 0x1000 = 0x20 ∨ k / 0x1000 = 0x21 ∨ (k / 0x1000 = 0x2E ∧ 0x080 ≤ k % 0x1000) ∨ k % 0x1000 = 0x064 ∨ k % 0x1000 = 0x070 ∨
      k % 0x1000 = 0x094)

/-- A direct register of page SWC or BUF, a counter of page RING, or one at one of the three offsets. -/
theorem Onward.of {page off : Nat} (low : off < 0x1000 ∧ off ≠ 0x010)
    (place : page = 0x20 ∨ page = 0x21 ∨ (page = 0x2E ∧ 0x080 ≤ off) ∨ off = 0x064 ∨ off = 0x070 ∨ off = 0x094) : Onward (pageKey page off) := by
  have key : pageKey page off / 0x1000 = page ∧ pageKey page off % 0x1000 = off := by
    unfold pageKey
    omega
  rwa [Onward, key.1, key.2, and_iff_right low.2]

/-- The network but for its queues, the numbers of frames sent, and what is noted of push-out and spilling. -/
def NetSt.unqueued (n : NetSt) : NetSt :=
  { n with seqs := [], queues := [], push := [], spilling := false, spillSince := 0, spillMoved := 0 }

/-- From `s` to `t` frames were admitted or pushed out: the counters changed are `Onward`, the network differs in its queues and in what is
noted of them, and of the empty queues none but those of `Q` was filled. -/
structure Admits (Q : Nat → Prop) (s t : State) : Prop where
  reported : Reported Onward s t
  net : t.net.unqueued = s.net.unqueued
  empty : ∀ {k}, ¬ Q k → Tab.get [] s.net.queues k = [] → Tab.get [] t.net.queues k = []

/-! Spilling (R297). -/

/-- The network with other notes of the spilling. -/
def NetSt.spilled (n : NetSt) (spilling : Bool) (since moved : Nat) : NetSt :=
  { n with spilling, spillSince := since, spillMoved := moved }

theorem State.spillCheck_net (s : State) : ∃ a b c, s.spillCheck.net = s.net.spilled a b c := by
  have posted (u : State) (b ty : Nat) (w4 w5 w6 w7 : Word) : ((u.raise 0x21 b).post ty .buf 0 0 w4 w5 w6 w7).net = u.net :=
    ((u.raise_touches 0x21 b).trans (State.post_touches _ _ _ _ _ _ _ _ _)).net (by decide)
  unfold State.spillCheck
  extract_lets mark spills stops
  split
  · split
    · exact ⟨_, _, _, posted spills _ _ _ _ _ _⟩
    · exact ⟨_, _, _, rfl⟩
  · split
    · exact ⟨_, _, _, posted stops _ _ _ _ _ _⟩
    · exact ⟨_, _, _, rfl⟩

/-- What a port gathers after a PUSHOUT posted at count `c` (R288). -/
def PushSt.posted (p : PushSt) (c : Nat) : PushSt := { p with last := some c, evicted := 0, dropped := 0 }

theorem State.pushPost_net (s : State) (port : Nat) : (s.pushPost port).net =
    { s.net with push := Tab.set PushSt.init s.net.push port ((Tab.get PushSt.init s.net.push port).posted s.tclks) } := by
  unfold State.pushPost
  extract_lets p u
  exact ((u.raise_touches 0x21 0).trans (State.postAt_touches _ _ _ _ _ _ _ _ _ _ _)).net (by decide)

theorem Reported.setNet {W : Nat → Prop} {s0 s : State} (h : Reported W s0 s) (f : NetSt → NetSt) : Reported W s0 (s.setNet f) :=
  h.same rfl rfl

theorem Reported.spillCheck {W : Nat → Prop} {s0 s : State} (h : Reported W s0 s) : Reported W s0 s.spillCheck := by
  unfold State.spillCheck
  extract_lets mark spills stops
  have hspills : Reported W s0 spills := h.setNet _
  have hstops : Reported W s0 stops := h.setNet _
  exact .ite (fun _ => .ite (fun _ => (hspills.raise _ _).post _ _ _ _ _ _ _ _) fun _ => h)
    fun _ => .ite (fun _ => (hstops.raise _ _).post _ _ _ _ _ _ _ _) fun _ => h

theorem Reported.pushPost {W : Nat → Prop} {s0 s : State} (h : Reported W s0 s) (port : Nat) : Reported W s0 (s.pushPost port) := by
  unfold State.pushPost
  extract_lets p u
  have hu : Reported W s0 u := h.setNet _
  exact (hu.raise _ _).postAt _ _ _ _ _ _ _ _ _ _

theorem State.spillCheck_queue (s : State) (port cls : Nat) : s.spillCheck.queue port cls = s.queue port cls := by
  obtain ⟨_, _, _, net⟩ := s.spillCheck_net
  rw [State.queue, net]
  rfl

theorem State.spillCheck_sendingAt (s : State) (port : Nat) : s.spillCheck.sendingAt port = s.sendingAt port := by
  obtain ⟨_, _, _, net⟩ := s.spillCheck_net
  rw [State.sendingAt, net]
  rfl

/-! Queues. -/

@[simp] theorem State.queue_setQueue_same (s : State) (port cls : Nat) (q : List QFrame) : (s.setQueue port cls q).queue port cls = q :=
  Tab.get_set_same

theorem State.queue_setQueue_ne (s : State) {port cls p c : Nat} (q : List QFrame) (other : 8 * p + c ≠ 8 * port + cls) :
    (s.setQueue port cls q).queue p c = s.queue p c := Tab.get_set_ne other

@[simp] theorem State.sendingAt_setSending_same (s : State) (port : Nat) (x : Sending) : (s.setSending port x).sendingAt port = x :=
  Tab.get_set_same

namespace Admits

variable {Q : Nat → Prop} {s0 s t : State}

theorem refl (s : State) : Admits Q s s := ⟨.refl s, rfl, fun _ => id⟩

theorem trans (h : Admits Q s0 s) (h' : Admits Q s t) : Admits Q s0 t :=
  ⟨h.reported.trans h'.reported, h'.net.trans h.net, fun away none => h'.empty away (h.empty away none)⟩

/-- A field of the network that admission leaves. -/
theorem field {α : Type} (h : Admits Q s t) (f : NetSt → α) (reads : ∀ n, f n.unqueued = f n) : f t.net = f s.net := by
  rw [← reads, h.net, reads]

theorem links (h : Admits Q s t) : t.net.links = s.net.links := h.field NetSt.links fun _ => rfl

theorem portUp (h : Admits Q s t) (port : Nat) : t.portUp port = s.portUp port := by
  rw [State.portUp, State.link, h.links]
  rfl

/-- An update that reports and leaves the network. -/
theorem aside (h : Admits Q s0 s) (reported : Reported Onward s t) (net : t.net = s.net) : Admits Q s0 t :=
  h.trans ⟨reported, by rw [net], fun _ none => by rwa [net]⟩

theorem bump (h : Admits Q s0 s) {k : Nat} (onward : Onward k) : Admits Q s0 (s.bump k) :=
  h.aside ((Reported.refl s).bump onward.1 onward) rfl

theorem spillCheck (h : Admits Q s0 s) : Admits Q s0 s.spillCheck := by
  obtain ⟨_, _, _, net⟩ := s.spillCheck_net
  exact h.trans ⟨(Reported.refl s).spillCheck, by rw [net]; rfl, fun _ none => by rw [net]; exact none⟩

theorem pushPost (h : Admits Q s0 s) (port : Nat) : Admits Q s0 (s.pushPost port) := by
  have net := s.pushPost_net port
  exact h.trans ⟨(Reported.refl s).pushPost port, by rw [net]; rfl, fun _ none => by rw [net]; exact none⟩

theorem notePush (h : Admits Q s0 s) (port evicted dropped lastOut lastIn : Nat) :
    Admits Q s0 (s.notePush port evicted dropped lastOut lastIn) := by
  unfold State.notePush
  split
  · exact h
  · extract_lets -merge old first noted u
    have hu : Admits Q s0 u := h.trans ⟨(Reported.refl s).setNet _, rfl, fun _ => id⟩
    split
    · exact hu
    · exact hu.pushPost port

/-- A queue is set that is not empty, or that may be filled. -/
theorem setQueue (h : Admits Q s0 s) {port cls : Nat} (q : List QFrame) (may : s.queue port cls = [] → Q (8 * port + cls)) :
    Admits Q s0 (s.setQueue port cls q) := by
  refine h.trans ⟨(Reported.refl s).setNet _, rfl, fun {k} away none => ?_⟩
  have other : k ≠ 8 * port + cls := by
    rintro rfl
    exact away (may none)
  exact (Tab.get_set_ne other).trans none

theorem evictOne (h : Admits Q s0 s) {port lim c : Nat} {t : State} (e : s.evictOne port lim = some (c, t)) : Admits Q s0 t := by
  unfold State.evictOne at e
  obtain ⟨d, found, evicted⟩ := Option.map_eq_some_iff.mp e
  obtain ⟨rfl, rfl⟩ := Prod.mk.inj evicted
  refine (h.setQueue _ fun none => ?_).bump (.of (by omega) (by omega))
  have holds := List.find?_some found
  rw [none] at holds
  cases holds

theorem evictWhile (h : Admits Q s0 s) (port lim : Nat) (more : State → Bool) (n : Nat) :
    Admits Q s0 (s.evictWhile port lim more n).2.2 := by
  induction n generalizing s with
  | zero => exact h
  | succ n ih =>
    unfold State.evictWhile
    split
    · split
      · exact h
      · exact ih (h.evictOne ‹_›)
    · exact h

theorem pushForShare (h : Admits Q s0 s) (port cls k : Nat) : Admits Q s0 (s.pushForShare port cls k).2 := by
  unfold State.pushForShare
  extract_lets tooFull
  split
  · exact h
  · split
    · exact (h.evictWhile _ _ _ _).notePush _ _ _ _ _
    · exact h

theorem pushForCells (h : Admits Q s0 s) (port cls k : Nat) : Admits Q s0 (s.pushForCells port cls k) := by
  unfold State.pushForCells
  split
  · exact h
  · exact List.foldlRecOn _ _ h fun u hu p _ => (hu.evictWhile _ _ _ _).notePush _ _ _ _ _

theorem dropFrame (h : Admits Q s0 s) (port cls : Nat) {k : Nat} (onward : Onward k) : Admits Q s0 (s.dropFrame port cls k) :=
  (h.bump onward).notePush _ _ _ _ _

theorem enqueue (h : Admits Q s0 s) {port : Nat} {f : QFrame} (may : Q (8 * port + f.cls)) : Admits Q s0 (s.enqueue port f) :=
  (h.setQueue _ fun _ => may).spillCheck

/-- A frame offered to a port fills no queue but that of its port and class, and that only where the port is UP. -/
theorem admitAs (h : Admits Q s0 s) {port : Nat} {f : QFrame} (may : s.portUp port = true → Q (8 * port + f.cls)) :
    Admits Q s0 (s.admitAs port f).2 := by
  unfold State.admitAs
  extract_lets g
  split
  · exact h.bump (.of (by omega) (by omega))
  · next up =>
    have may : Q (8 * port + g.cls) := may (by simpa using up)
    split
    · exact h.dropFrame _ _ (.of (by omega) (by omega))
    · have shared := h.pushForShare port g.cls g.cells
      generalize s.pushForShare port g.cls g.cells = pushed at shared
      obtain ⟨room, u⟩ := pushed
      dsimp only at shared ⊢
      split
      · exact shared.dropFrame _ _ (.of (by omega) (by omega))
      · have freed : Admits Q s0 (if u.freeCells < g.cells then u.pushForCells port g.cls g.cells else u) := by
          split
          · exact shared.pushForCells _ _ _
          · exact shared
        generalize (if u.freeCells < g.cells then u.pushForCells port g.cls g.cells else u) = v at freed ⊢
        split
        · exact freed.dropFrame _ _ (.of (by omega) (by omega))
        · exact freed.enqueue may

theorem takeFrame (h : Admits Q s0 s) {port : Nat} {f : QFrame} (may : s.portUp port = true → Q (8 * port + f.cls)) :
    Admits Q s0 (s.takeFrame port f) := h.admitAs may

end Admits

/-- Any frame offered to any port. -/
theorem State.takeFrame_admits (s : State) (port : Nat) (f : QFrame) : Admits (fun _ => True) s (s.takeFrame port f) :=
  (Admits.refl s).takeFrame fun _ => trivial

end Sys2Proof.Machine
end

section
/-! Mirror copies and the frames that a ring port's break sends (R264, R265, R294). -/

namespace Sys2Proof.Machine

/-- The network but for the copies that wait and the numbers of frames sent. -/
def NetSt.uncopied (n : NetSt) : NetSt := { n with copies := [], seqs := [] }

theorem Reported.takeSeq {W : Nat → Prop} {s0 s : State} (h : Reported W s0 s) (cls : Nat) : Reported W s0 (s.takeSeq cls).2 :=
  h.same rfl rfl

theorem State.takeSeq_net (s : State) (cls : Nat) : (s.takeSeq cls).2.net.uncopied = s.net.uncopied := rfl

theorem State.mirCopy_only (s : State) (i : Nat) (f : QFrame) :
    Reported Onward s (s.mirCopy i f).2 ∧ (s.mirCopy i f).2.net.uncopied = s.net.uncopied := by
  unfold State.mirCopy
  extract_lets d put side u
  have counted : Reported Onward s u :=
    .ite (fun _ => (Reported.refl s).bump (by decide) (.of (by decide) (by decide))) fun _ => .refl s
  have net : u.net = s.net := by
    unfold u
    split <;> rfl
  split
  · split
    · exact ⟨.refl s, rfl⟩
    · exact ⟨counted.takeSeq 0, (u.takeSeq_net 0).trans (by rw [net])⟩
  · exact ⟨.refl s, rfl⟩

/-- The mirror sessions add copies, and number those that are wrapped. -/
theorem State.mirror_only (s : State) (port : Nat) (rx : Bool) (f : QFrame) :
    Reported Onward s (s.mirror port rx f) ∧ (s.mirror port rx f).net.uncopied = s.net.uncopied := by
  unfold State.mirror
  refine List.foldlRecOn (motive := fun u => Reported Onward s u ∧ u.net.uncopied = s.net.uncopied) _ _ ⟨.refl s, rfl⟩
    fun u ⟨reported, net⟩ i _ => ?_
  split
  · obtain ⟨copied, net'⟩ := u.mirCopy_only i f
    exact ⟨(reported.trans copied).setNet _, net'.trans net⟩
  · exact ⟨reported, net⟩

theorem State.mirror_reported (s : State) (port : Nat) (rx : Bool) (f : QFrame) : Reported Onward s (s.mirror port rx f) :=
  (s.mirror_only port rx f).1

/-- A field of the network other than the copies and the numbers of frames. -/
theorem State.mirror_field {α : Type} (s : State) (port : Nat) (rx : Bool) (f : QFrame) (g : NetSt → α) (reads : ∀ n, g n.uncopied = g n) :
    g (s.mirror port rx f).net = g s.net := by
  rw [← reads, (s.mirror_only port rx f).2, reads]

theorem State.mirror_touches (s : State) (port : Nat) (rx : Bool) (f : QFrame) :
    Frame (fun p => p ∈ Part.sent) s (s.mirror port rx f) :=
  State.mirror_frame (Frame.refl _ s) port rx f (.of_coveredBy rfl)

/-! A ring management frame sent out of both ports of a side. -/

theorem Admits.takeSeq {Q : Nat → Prop} {s0 s : State} (h : Admits Q s0 s) (cls : Nat) : Admits Q s0 (s.takeSeq cls).2 :=
  h.trans ⟨(Reported.refl s).takeSeq cls, rfl, fun _ => id⟩

/-- A frame of ring management fills no queue of a port that is not UP. -/
theorem Admits.originateRing {p : Nat} {s0 s : State} (h : Admits (fun k => k / 8 ≠ p) s0 s) (down : s.portUp p = false)
    (side dst : Nat) (group : Bool) (body : Nat → List Byte) (ingress : Nat) :
    Admits (fun k => k / 8 ≠ p) s0 (s.originateTwo side 6 7 dst group body ingress) := by
  unfold State.originateTwo
  split
  · exact h
  · have took := h.takeSeq 6
    have away {u : State} (sent : Admits (fun k => k / 8 ≠ p) (s.takeSeq 6).2 u) {port : Nat} (up : u.portUp port = true) :
        (8 * port + 6) / 8 ≠ p := by
      rintro rfl
      have here : (8 * port + 6) / 8 = port := by omega
      rw [sent.portUp] at up
      rw [here] at down
      exact Bool.false_ne_true (down.symm.trans up)
    have first := (Admits.refl (Q := fun k => k / 8 ≠ p) (s.takeSeq 6).2).takeFrame (port := side)
      (f := { mkQFrame (nativeFrame 6 7 (s.sideId side) dst group false false (s.takeSeq 6).1 (body side)) 6 ingress true with
        rxTime := none }) (away (.refl _))
    exact (took.trans first).takeFrame (away first)

/-! A break of a ring (R264, R265). -/

theorem Admits.ringPost {Q : Nat → Prop} {s0 s : State} (h : Admits Q s0 s) (ty irq flags : Nat) (w4 w5 w6 w7 : Word) :
    Admits Q s0 (s.ringPost ty irq flags w4 w5 w6 w7) :=
  h.aside (((Reported.refl s).raise _ _).post _ _ _ _ _ _ _ _)
    (((s.raise_touches _ _).trans (State.post_touches _ _ _ _ _ _ _ _ _)).net (by decide))

theorem Admits.setRing {Q : Nat → Prop} {s0 s : State} (h : Admits Q s0 s) (f : RingSt → RingSt) : Admits Q s0 (s.setRing f) :=
  h.aside ((Reported.refl s).same rfl rfl) rfl

theorem Admits.ringBroken {Q : Nat → Prop} {s0 s : State} (h : Admits Q s0 s) (port : Nat) : Admits Q s0 (s.ringBroken port).2 := by
  unfold State.ringBroken
  split
  · exact (h.setRing _).bump (.of (by decide) (by decide))
  · exact h

/-- A port that breaks sends its BREAK_NOTICE, which fills no queue of its own. -/
theorem State.portBroken_admits {s : State} {p : Nat} (down : s.portUp p = false) (cause : Nat) :
    Admits (fun k => k / 8 ≠ p) s (s.portBroken p cause) := by
  unfold State.portBroken
  split
  · exact .refl s
  · extract_lets broke last told opened
    have hopened : Admits (fun k => k / 8 ≠ p) s opened := (((Admits.refl s).setRing _).ringPost _ _ _ _ _ _ _).ringBroken p
    exact hopened.originateRing (by rw [hopened.portUp, down]) _ _ _ _ _

theorem State.couplerCheck_reported {W : Nat → Prop} (s : State) : Reported W s s.couplerCheck := by
  unfold State.couplerCheck
  extract_lets v noted
  have hnoted : Reported W s noted := (Reported.refl s).same rfl rfl
  exact .ite (fun _ => .refl s) fun _ => .ite (fun _ => (hnoted.raise _ _).post _ _ _ _ _ _ _ _) fun _ => hnoted

theorem State.couplerCheck_net (s : State) : s.couplerCheck.net = s.net :=
  (State.couplerCheck_frame (P := fun p => p ∈ .ring :: Part.reports) (Frame.refl _ s) (.of_coveredBy rfl)).net (by decide)

end Sys2Proof.Machine
end

section
/-! The link state machine (R226–R229, R255–R257): a failure of a link, and what leaving UP leaves. -/

namespace Sys2Proof.Machine

/-! A port that is not UP has its queues emptied (R229, R287). -/

theorem State.storeFullCheck_net (s : State) : ∃ b, s.storeFullCheck.net = { s.net with storeFull := b } := by
  unfold State.storeFullCheck
  split
  · exact ⟨_, rfl⟩
  · exact ⟨_, rfl⟩

theorem Reported.storeFullCheck {W : Nat → Prop} {s0 s : State} (h : Reported W s0 s) : Reported W s0 s.storeFullCheck :=
  .ite (fun _ => h.setNet _) fun _ => h

/-- Queues of a port emptied one after another. -/
theorem State.foldl_setQueue_nil (s : State) (port : Nat) (l : List Nat) :
    ∃ q, l.foldl (fun s c => s.setQueue port c []) s = { s with net := { s.net with queues := q } } ∧
      ∀ c, c ∈ l ∨ s.queue port c = [] → Tab.get [] q (8 * port + c) = [] := by
  induction l generalizing s with
  | nil => exact ⟨_, rfl, fun c h => h.resolve_left List.not_mem_nil⟩
  | cons a l ih =>
    obtain ⟨q, emptied, none⟩ := ih (s.setQueue port a [])
    refine ⟨q, emptied, fun c h => none c ?_⟩
    by_cases same : c = a
    · subst same
      exact .inr (s.queue_setQueue_same port c [])
    · have kept : (s.setQueue port a []).queue port c = s.queue port c := s.queue_setQueue_ne [] (by omega)
      exact h.imp (fun listed => (List.mem_cons.mp listed).resolve_left same) fun none => kept.trans none

/-- What a port that left UP holds no more: its queues and the frames it was sending. -/
structure Emptied (p : Nat) (s : State) : Prop where
  queue : ∀ c, c < 8 → s.queue p c = []
  sending : s.sendingAt p = Sending.init

/-- What the spilling and the store note of themselves touches neither queues, nor links, nor duplicate tables. -/
theorem State.checked_field {α : Type} (s : State) (g : NetSt → α) (reads : ∀ n b x y z, g { n.spilled x y z with storeFull := b } = g n) :
    g s.spillCheck.storeFullCheck.net = g s.net := by
  obtain ⟨b, full⟩ := s.spillCheck.storeFullCheck_net
  obtain ⟨x, y, z, spilled⟩ := s.spillCheck_net
  rw [full, spilled, reads]

theorem State.emptyPort_spec (s : State) (p : Nat) : Reported Onward s (s.emptyPort p) ∧ Emptied p (s.emptyPort p) ∧
    (s.emptyPort p).net.links = s.net.links ∧ (s.emptyPort p).net.dup = s.net.dup := by
  unfold State.emptyPort
  extract_lets n cleared
  obtain ⟨q, only, none⟩ := s.foldl_setQueue_nil p (upFrom 0 8)
  have hcleared : cleared = { s with net := { s.net with queues := q } } := only
  clear_value cleared
  subst hcleared
  refine ⟨?_, ⟨fun c hc => ?_, ?_⟩, ?_, ?_⟩
  · have onward : Onward (Reg.fpCntTxDiscardDown p) := .of (by omega) (by omega)
    have dropped : Reported Onward s { s with net := { s.net with queues := q } } := (Reported.refl s).same rfl rfl
    exact ((dropped.setNet _).wr _ onward.1 (.inr onward)).spillCheck.storeFullCheck
  · have listed : c ∈ upFrom 0 8 := by
      simp only [upFrom, List.mem_cons, List.not_mem_nil, or_false]
      omega
    exact (State.checked_field _ (fun n => Tab.get [] n.queues (8 * p + c)) fun _ _ _ _ _ => rfl).trans (none c (.inl listed))
  · refine (State.checked_field _ (fun n => Tab.get Sending.init n.sending p) fun _ _ _ _ _ => rfl).trans ?_
    exact State.sendingAt_setSending_same _ p Sending.init
  · exact State.checked_field _ NetSt.links fun _ _ _ _ _ => rfl
  · exact State.checked_field _ NetSt.dup fun _ _ _ _ _ => rfl

/-! A failed check of a port's page (R255). -/

/-- A failed check of a page, with whatever counter it has, changes nothing of the network. -/
theorem State.qualFail_net (s : State) (page check item : Nat) (value : Word) (counter : Nat) :
    (s.qualFail page check item value counter).net = s.net :=
  (State.qualFail_frame (P := fun p => p ∈ .regAny :: Part.failed) (Frame.refl _ s) _ _ _ _ _
    ⟨.regAny, by decide, _, List.mem_singleton.mpr rfl, trivial⟩ (.of_coveredBy rfl)).net (by decide)

/-- A failure is counted and leaves bit 2 of the port's page. -/
theorem State.fpFail_spec (s : State) (port check item : Nat) (value : Word) {counter : Nat} (irq : counter % 0x1000 ≠ 0x010)
    (evq : counter / 0x1000 ≠ 0x24) :
    let t := s.fpFail port check item value counter
    Reported (fun k => k = counter) s t ∧ t.rd counter = satInc (s.rd counter) ∧ t.Raised (0x28 + port) 2 ∧ t.net = s.net := by
  intro t
  obtain ⟨reported, counted⟩ := (s.raise (0x28 + port) 2).qualFail_counts (0x28 + port) check item value irq evq
  have other : (s.raise (0x28 + port) 2).rd counter = s.rd counter := s.raise_rd_ne 2 (by unfold Reg.irqPend pageKey; omega)
  exact ⟨((Reported.refl s).raise _ _).trans reported, by rw [← other]; exact counted,
    reported.raised (s.raise_raised _ (by decide)), (State.qualFail_net _ _ _ _ _ _).trans ((s.raise_touches _ _).net (by decide))⟩

/-- A move to HOLD from TRAINING, LOCKING or CHECKING (R227, R255). -/
theorem State.linkFail_spec (s : State) (p cause : Nat) :
    ((s.linkFail p cause).link p).st = 5 ∧ (s.linkFail p cause).rd (Reg.fpCntLinkFail p) = satInc (s.rd (Reg.fpCntLinkFail p)) ∧
      (s.linkFail p cause).Raised (0x28 + p) 2 := by
  obtain ⟨_, counted, raised, net⟩ := (s.linkTo p 5).fpFail_spec p 0x0407 p (w32 cause) (counter := Reg.fpCntLinkFail p)
    (by unfold Reg.fpCntLinkFail pageKey; omega) (by unfold Reg.fpCntLinkFail pageKey; omega)
  have link : (s.linkFail p cause).link p = (s.linkTo p 5).link p := congrArg (fun n : NetSt => Tab.get LinkSt.init n.links p) net
  exact ⟨by rw [link, State.linkTo, State.link_setLink_same], counted, raised⟩

/-! UP left (R227–R229, R257, R265). -/

/-- The registers that count a link gone down, beside those that a port's break changes. -/
def LeavesUp (k : Nat) : Prop := Onward k ∨ k % 0x1000 = 0x0A0

/-- The link of a port that leaves UP. -/
def LinkSt.dropped (l : LinkSt) (dest cause now : Nat) : LinkSt :=
  { l with st := dest, lastCause := cause, since := now, stAt := now, errs := [] }

/-- A link leaves UP: it carries the cause, and LINK_DOWN is counted, raised and posted. -/
def State.linkDropped (s : State) (p cause dest : Nat) : State :=
  let left := s.setLink p fun l => l.dropped dest cause s.tclks
  let counted := (left.bump (Reg.fpCntLinkDown p)).raise (0x28 + p) 1
  counted.post 0x41 .fp p 0 (w32 cause) (w32 (s.msSince (s.link p).since))
    ((left.bump (Reg.fpCntLinkDown p)).rd (Reg.fpCntLinkDown p)) 0

theorem State.linkLeaveUp_eq (s : State) (p cause dest : Nat) :
    s.linkLeaveUp p cause dest = (((s.linkDropped p cause dest).emptyPort p).portBroken p cause).couplerCheck := rfl

theorem State.linkDropped_spec (s : State) (p cause dest : Nat) :
    let t := s.linkDropped p cause dest
    Reported (· = Reg.fpCntLinkDown p) s t ∧ t.net.dup = s.net.dup ∧ t.link p = (s.link p).dropped dest cause s.tclks ∧
      t.rd (Reg.fpCntLinkDown p) = satInc (s.rd (Reg.fpCntLinkDown p)) ∧ t.Raised (0x28 + p) 1 := by
  have irq : Reg.fpCntLinkDown p % 0x1000 ≠ 0x010 := by unfold Reg.fpCntLinkDown pageKey; omega
  let left := s.setLink p fun l => l.dropped dest cause s.tclks
  let counted := left.bump (Reg.fpCntLinkDown p)
  have rest : Reported (fun _ => False) (counted.raise (0x28 + p) 1) (s.linkDropped p cause dest) := (Reported.refl _).post _ _ _ _ _ _ _ _
  have net : (s.linkDropped p cause dest).net = left.net :=
    ((counted.raise_touches (0x28 + p) 1).trans (State.post_touches _ _ _ _ _ _ _ _ _)).net (by decide)
  refine ⟨?_, (congrArg NetSt.dup net :), ?_, ?_, rest.raised (counted.raise_raised _ (by decide))⟩
  · have leftReported : Reported (· = Reg.fpCntLinkDown p) s left := (Reported.refl s).same rfl rfl
    exact ((leftReported.bump irq rfl).raise _ _).trans (rest.mono fun _ => False.elim)
  · rw [State.link, net]
    exact s.link_setLink_same p _
  · rw [rest.rd irq (by unfold Reg.fpCntLinkDown pageKey; omega) id, State.raise_rd_ne _ _ (by unfold Reg.fpCntLinkDown Reg.irqPend pageKey; omega)]
    exact left.rd_bump_same _

/-- UP left for another state: the link carries the cause, the port's queues are empty, the loss is counted and raises bit 1. -/
theorem State.linkLeaveUp_spec (s : State) {p : Nat} (port : p < 4) (cause : Nat) {dest : Nat} (down : dest ≠ 4) :
    let t := s.linkLeaveUp p cause dest
    Reported LeavesUp s t ∧ t.net.dup = s.net.dup ∧ Emptied p t ∧ t.link p = (s.link p).dropped dest cause s.tclks ∧
      t.rd (Reg.fpCntLinkDown p) = satInc (s.rd (Reg.fpCntLinkDown p)) ∧ t.Raised (0x28 + p) 1 := by
  have place : Reg.fpCntLinkDown p % 0x1000 = 0x0A0 ∧ Reg.fpCntLinkDown p / 0x1000 = 0x28 + p := by unfold Reg.fpCntLinkDown pageKey; omega
  have away : ¬ Onward (Reg.fpCntLinkDown p) := by
    rw [Onward, place.1, place.2]
    omega
  obtain ⟨dropped, dup, link, counted, raised⟩ := s.linkDropped_spec p cause dest
  rw [State.linkLeaveUp_eq]
  generalize s.linkDropped p cause dest = left at dropped dup link counted raised
  obtain ⟨empties, empty, links, dup'⟩ := left.emptyPort_spec p
  have link' : (left.emptyPort p).link p = (s.link p).dropped dest cause s.tclks := by rw [State.link, links]; exact link
  generalize left.emptyPort p = emptied at empties empty dup' link'
  have isDown : emptied.portUp p = false := by
    rw [State.portUp, link']
    simp [LinkSt.dropped, down, port]
  have broke := State.portBroken_admits isDown cause
  generalize emptied.portBroken p cause = broken at broke
  have rest : Reported Onward left broken.couplerCheck := (empties.trans broke.reported).trans broken.couplerCheck_reported
  intro t
  have net : t.net = broken.net := broken.couplerCheck_net
  refine ⟨?_, ?_, ⟨fun c hc => ?_, ?_⟩, ?_, ?_, rest.raised raised⟩
  · exact (dropped.mono fun _ e => .inr (e ▸ place.1)).trans (rest.mono fun _ => .inl)
  · rw [net, broke.field NetSt.dup fun _ => rfl, dup', dup]
  · rw [State.queue, net]
    exact broke.empty (by omega) (empty.queue c hc)
  · rw [State.sendingAt, net]
    exact (broke.field (fun n => Tab.get Sending.init n.sending p) fun _ => rfl).trans empty.sending
  · rw [State.link, net, broke.links]
    exact link'
  · rw [rest.rd (by omega) (by omega) away, counted]

/-! A frame cut short, or with a bad FCS, stomps the copies of it already begun (R249, R289). -/

theorem State.stompAt_only (s : State) (e : Nat) (f : QFrame) :
    Reported Onward s (s.stompAt e f) ∧ (s.stompAt e f).net.uncopied = s.net.uncopied := by
  have frames : Onward (Reg.fpCntTxFrames e) := .of (by omega) (by omega)
  have stomp : Onward (Reg.fpCntTxStomp e) := .of (by omega) (by omega)
  unfold State.stompAt
  split
  · have counted := ((Reported.refl s).bump frames.1 frames).bump stomp.1 stomp
    have net : ((s.bump (Reg.fpCntTxFrames e)).bump (Reg.fpCntTxStomp e)).net = s.net := by simp only [State.bump_others]
    generalize (s.bump (Reg.fpCntTxFrames e)).bump (Reg.fpCntTxStomp e) = u at counted net
    obtain ⟨reported, mirrored⟩ := u.mirror_only e false { f with stomp := true }
    exact ⟨counted.trans reported, mirrored.trans (congrArg NetSt.uncopied net)⟩
  · exact ⟨.refl s, rfl⟩

theorem State.stompAll_only (s : State) (outs : List (Nat × QFrame)) :
    Reported Onward s (s.stompAll outs) ∧ (s.stompAll outs).net.uncopied = s.net.uncopied := by
  refine List.foldlRecOn (motive := fun u => Reported Onward s u ∧ u.net.uncopied = s.net.uncopied) _ _ ⟨.refl s, rfl⟩
    fun u ⟨reported, net⟩ o _ => ?_
  obtain ⟨reported', net'⟩ := u.stompAt_only o.1 o.2
  exact ⟨reported.trans reported', net'.trans net⟩

theorem State.stompAll_reported (s : State) (outs : List (Nat × QFrame)) : Reported Onward s (s.stompAll outs) := (s.stompAll_only outs).1

theorem State.cutFrame_reported (s : State) (port : Nat) (b : List Byte) : Reported Onward s (s.cutFrame port b) :=
  .ite (fun _ => .ite (fun _ => s.stompAll_reported _) fun _ => .refl s) fun _ => s.stompAll_reported _

end Sys2Proof.Machine
end

section
/-! Links (R226–R229, R255–R257): what each event of a link comes to in the state it belongs to, and O40. -/

namespace Sys2Proof.Machine

section Links

variable {s : State} {p : Fin 4}

/-- A link that has left DISABLED starts no more. -/
theorem State.linkBegin_of_started {port : Nat} (started : (s.link port).st ≠ 0) : s.linkBegin port = s :=
  if_neg fun h => started h.1

@[simp] theorem State.link_wr (s : State) (k : Nat) (v : Word) (n : Nat) : (s.wr k v).link n = s.link n := rfl

/-- TRAINING done: LOCKING follows, with FEC where the partner answers it. -/
theorem exec_trainingComplete {fec : Bool} {txeq rxeq : Word} (training : (s.link p).st = 1) (clocked : s.serdesRuns = true) :
    exec (.trainingComplete p fec txeq rxeq) s = .next (((s.setLink p fun l =>
      { l with st := 2, stAt := s.tclks, fecActive := fec && s.flag (Reg.fpCfg p) 6 && s.flag (Reg.fpCfg p) 5 }).wr
        (Reg.fpTxeq p) (w32 (bits txeq 0 18))).wr (Reg.fpRxeq p) (w32 (bits rxeq 0 16))) := by
  show execTrainingComplete p fec txeq rxeq s = _
  rw [execTrainingComplete, State.linkBegin_of_started (by omega)]
  exact congrArg Host.Outcome.next (if_pos ⟨training, clocked⟩)

theorem exec_trainingTimeout (training : (s.link p).st = 1) (waited : s.linkWaited p 500 = true) :
    exec (.trainingTimeout p) s = .next (s.linkFail p 7) := by
  show execTrainingTimeout p s = _
  rw [execTrainingTimeout, State.linkBegin_of_started (by omega)]
  exact congrArg Host.Outcome.next (if_pos ⟨training, waited⟩)

theorem exec_blockLockAcquired (locking : (s.link p).st = 2) (clocked : s.serdesRuns = true) :
    exec (.blockLockAcquired p) s = .next (s.setLink p fun l =>
      { l with st := 3, stAt := s.tclks, blockLock := true, hiBer := false, signal := true, rxRf := false, rxLf := false }) := by
  show execBlockLockAcquired p s = _
  rw [execBlockLockAcquired, State.linkBegin_of_started (by omega)]
  exact congrArg Host.Outcome.next (if_pos ⟨locking, clocked⟩)

theorem exec_lockingTimeout (locking : (s.link p).st = 2) (waited : s.linkWaited p 100 = true) :
    exec (.lockingTimeout p) s = .next (s.linkFail p 8) := by
  show execLockingTimeout p s = _
  rw [execLockingTimeout, State.linkBegin_of_started (by omega)]
  exact congrArg Host.Outcome.next (if_pos ⟨locking, waited⟩)

/-! CHECKING (R227, R228, R265). -/

/-- A port that comes UP: LINK_UP is raised and posted. -/
def State.linkRisen (s : State) (p : Nat) : State :=
  let up := s.setLink p fun l => { l with st := 4, since := s.tclks, stAt := s.tclks, errs := [] }
  (up.raise (0x28 + p) 0).post 0x40 .fp p 0 (w32 (at_ 4 (b2n (s.link p).fecActive) + up.fpMode p)) (w32 (s.msSince (s.link p).since))
    (up.rd (Reg.fpCntLinkFail p)) 0

theorem exec_upHoldExpiry (checking : (s.link p).st = 3) (held : s.linkWaited p (s.upHold p) = true) :
    exec (.upHoldExpiry p) s = .next ((s.linkRisen p).portHeals p).couplerCheck := by
  exact congrArg Host.Outcome.next (if_pos ⟨checking, held⟩)

theorem State.linkRisen_spec (s : State) (p : Nat) :
    (s.linkRisen p).portUp p = true ∧ (s.linkRisen p).ring = s.ring ∧ (s.linkRisen p).Raised (0x28 + p) 0 := by
  let up := s.setLink p fun l => { l with st := 4, since := s.tclks, stAt := s.tclks, errs := [] }
  have touched : Frame (fun p => p ∈ Part.reports) up (s.linkRisen p) :=
    (up.raise_touches (0x28 + p) 0).trans (State.post_touches _ _ _ _ _ _ _ _ _)
  have posted : Reported (fun _ => False) (up.raise (0x28 + p) 0) (s.linkRisen p) := (Reported.refl _).post _ _ _ _ _ _ _ _
  refine ⟨?_, touched.ring (by decide), posted.raised (up.raise_raised _ (by decide))⟩
  rw [State.portUp, State.link, touched.net (by decide), ← State.link, State.link_setLink_same]
  simp

/-- A port that is UP and hears its neighbour is no longer locally broken. -/
theorem State.portHeals_heard {s : State} {p : Nat} (up : s.portUp p = true) (heard : setHas s.ring.silent p = false) :
    setHas (s.portHeals p).ring.broken p = false := by
  have ok : s.portOk p = true := by simp [State.portOk, up, heard]
  rw [State.portHeals, if_pos ok]
  exact setHas_setDel _ _

theorem State.portHeals_reported {W : Nat → Prop} (s : State) (p : Nat) : Reported W s (s.portHeals p) :=
  .ite (fun _ => (Reported.refl s).same rfl rfl) fun _ => .refl s

theorem State.portHeals_net (s : State) (p : Nat) : (s.portHeals p).net = s.net := by
  unfold State.portHeals
  split <;> rfl

theorem State.couplerCheck_broken (s : State) : s.couplerCheck.ring.broken = s.ring.broken := by
  have posted (u : State) (w4 w5 w6 w7 : Word) : (u.ringPost 0x45 3 0 w4 w5 w6 w7).ring = u.ring :=
    ((u.raise_touches 0x2E 3).trans (State.post_touches _ _ _ _ _ _ _ _ _)).ring (by decide)
  unfold State.couplerCheck
  extract_lets v noted
  split
  · rfl
  · split
    · exact (congrArg RingSt.broken (posted noted _ _ _ _)).trans rfl
    · rfl

/-- UP_HOLD over: the port is UP, and no longer locally broken where its neighbour is heard. -/
theorem State.linkRisen_up (s : State) (p : Nat) :
    let t := ((s.linkRisen p).portHeals p).couplerCheck
    t.portUp p = true ∧ t.Raised (0x28 + p) 0 ∧ (setHas s.ring.silent p = false → setHas t.ring.broken p = false) := by
  obtain ⟨up, ring, raised⟩ := s.linkRisen_spec p
  have rest := ((s.linkRisen p).portHeals_reported (W := fun _ => False) p).trans (State.couplerCheck_reported _)
  intro t
  refine ⟨?_, rest.raised raised, fun heard => ?_⟩
  · have net : t.net = (s.linkRisen p).net := (State.couplerCheck_net _).trans (State.portHeals_net _ _)
    rwa [State.portUp, State.link, net]
  · rw [State.couplerCheck_broken]
    exact State.portHeals_heard up (by rwa [ring])

/-- A down condition in CHECKING. -/
theorem exec_linkDownCondition_checking {cause : LinkDown} {cut : Option (List Byte)} (checking : (s.link p).st = 3)
    (condition : cause ≠ .degraded) :
    exec (.linkDownCondition p ⟨cause, cut⟩) s = .next ((s.setLink p (linkCondition cause)).linkFail p (LinkDownCode cause)) := by
  show execLinkDownCondition p ⟨cause, cut⟩ s = _
  simp only [execLinkDownCondition, checking, condition]
  rfl

/-! UP left (R227–R229, R256). -/

/-- A frame partly received is cut short, where there is one. -/
def State.cutAt (s : State) (port : Nat) (cut : Option (List Byte)) : State :=
  match cut with
  | some b => s.cutFrame port b
  | none => s

theorem State.cutAt_reported (s : State) (port : Nat) (cut : Option (List Byte)) : Reported Onward s (s.cutAt port cut) := by
  cases cut with
  | some b => exact s.cutFrame_reported port b
  | none => exact .refl s

/-- A port in UP leaves it, its degradation or the frame cut short counted before. -/
theorem exec_linkDownCondition_up {cause : LinkDown} {cut : Option (List Byte)} (up : (s.link p).st = 4)
    (degrades : cause = .degraded → s.degraded p = true) :
    ∃ u, Reported (fun k => Onward k ∨ k = Reg.fpCntDegrade p) s u ∧
      exec (.linkDownCondition p ⟨cause, cut⟩) s = .next (u.linkLeaveUp p (LinkDownCode cause) 5) := by
  by_cases condition : cause = .degraded
  · subst condition
    have irq : Reg.fpCntDegrade p % 0x1000 ≠ 0x010 := by unfold Reg.fpCntDegrade pageKey; omega
    refine ⟨_, ((Reported.refl s).bump irq (.inr rfl)).raise (0x28 + p) 3, ?_⟩
    show execLinkDownCondition p ⟨.degraded, cut⟩ s = _
    rw [execLinkDownCondition, if_pos rfl, if_pos ⟨up, degrades rfl⟩]
    rfl
  · have noted : Reported Onward s (s.setLink p (linkCondition cause)) := (Reported.refl s).setNet _
    refine ⟨_, (noted.trans (State.cutAt_reported _ p cut)).mono fun _ => .inl, ?_⟩
    show execLinkDownCondition p ⟨cause, cut⟩ s = _
    rw [execLinkDownCondition, if_neg condition, if_pos up]
    rfl

/-! HOLD (R227). -/

theorem exec_holdDownExpiry (hold : (s.link p).st = 5) (waited : s.linkWaited p (s.fld (Reg.fpTimers p) 16 16) = true) :
    exec (.holdDownExpiry p) s = .next (s.linkStart p) :=
  congrArg Host.Outcome.next (if_pos ⟨hold, waited⟩)

end Links

/-! Duplicate tables age (R245, R269). -/

/-- An entry of a duplicate table is marked aged. -/
def DupTab.age (t : DupTab) (src : Nat) (e : DupEnt) : DupTab := { t with ents := Tab.set none t.ents src (some { e with aged := true }) }

theorem DupTab.get_age (t : DupTab) (src : Nat) (e : DupEnt) : Tab.get none (t.age src e).ents src = some { e with aged := true } := by
  rw [DupTab.age, Tab.get_set_same]

theorem exec_dupEntryAge_dup {s : State} {src : BitVec 16} {e : DupEnt} (entry : Tab.get none s.net.dup.ents src.toNat = some e)
    (idle : s.passed e.seen (msTclks 10) = true) :
    exec (.dupEntryAge false src) s = .next (s.setNet fun n => { n with dup := s.net.dup.age src.toNat e }) := by
  show execDupEntryAge false src s = _
  unfold execDupEntryAge State.setNet
  simp only [entry, idle, if_true, Bool.false_eq_true, if_false]
  rfl

theorem exec_dupEntryAge_headland {s : State} {src : BitVec 16} {e : DupEnt}
    (entry : Tab.get none s.net.headland.ents src.toNat = some e) (idle : s.passed e.seen (msTclks 10) = true) :
    exec (.dupEntryAge true src) s = .next (s.setNet fun n => { n with headland := s.net.headland.age src.toNat e }) := by
  show execDupEntryAge true src s = _
  unfold execDupEntryAge State.setNet
  simp only [entry, idle, if_true]
  rfl

/-! A check of a port's page clears (R255, R540). -/

theorem State.qualRecord_check (s : State) (ty page : Nat) (t : TimePoint) (q : Nat) (w4 w5 w6 w7 : Word) (pg check : Nat) :
    (s.qualRecord ty page t q w4 w5 w6 w7).check pg check = s.check pg check := by
  have checks := (State.qualRecord_frame (P := fun p => p ∈ .pwr :: Part.reports) (Frame.refl _ s) ty page t q w4 w5 w6 w7
    (.of_coveredBy rfl)).checks (by decide)
  rw [State.check, checks]
  rfl

@[simp] theorem State.check_setCheck_same (s : State) (page check : Nat) (c : CheckSt) : (s.setCheck page check c).check page check = c :=
  Tab.get_set_same

/-- The report of what a check gathered leaves the items for which it stands failed. -/
theorem State.qualPost_standing (s : State) (page check : Nat) :
    ((s.qualPost page check).check page check).standing = (s.check page check).standing := by
  unfold State.qualPost
  extract_lets c u
  rw [State.qualRecord_check, State.check_setCheck_same]

/-- A check that clears for an item stands failed for it no more, and for no other item newly. -/
theorem State.qualClear_clears {s : State} {page check item i : Nat} (value : Word)
    (h : i = item ∨ s.qualStands page check i = false) : (s.qualClear page check item value).qualStands page check i = false := by
  unfold State.qualClear
  extract_lets c u c' v
  have same : c'.standing = c.standing := by
    unfold c' u
    split
    · rfl
    · exact s.qualPost_standing page check
  split
  · rw [State.qualStands, State.qualRecord_check, State.check_setCheck_same]
    show setHas (setDel c'.standing item) i = false
    rw [same]
    obtain rfl | none := h
    · exact setHas_setDel _ _
    · exact setHas_setDel_of item none
  · next none =>
    obtain rfl | none := h
    · exact Bool.eq_false_iff.mpr none
    · exact none

theorem State.foldl_qualClear {page check i : Nat} (value : Word) (l : List Nat) {s : State}
    (h : i ∈ l ∨ s.qualStands page check i = false) :
    (l.foldl (fun s i => s.qualClear page check i value) s).qualStands page check i = false := by
  induction l generalizing s with
  | nil => exact h.resolve_left List.not_mem_nil
  | cons a l ih =>
    refine ih ?_
    rw [List.mem_cons, or_assoc, or_left_comm] at h
    exact h.imp_right (State.qualClear_clears value)

theorem mem_of_setHas {l : List Nat} {k : Nat} (h : setHas l k = true) : k ∈ l := by
  induction l with
  | nil => cases h
  | cons j l ih =>
    rw [setHas, Bool.or_eq_true, decide_eq_true_eq] at h
    exact List.mem_cons.mpr (h.imp_right ih)

theorem exec_fpCheckClear {s : State} {p : Fin 4} {check : Nat} (clean : s.passed (s.check (0x28 + p) check).failAt (msTclks 1000) = true) :
    exec (.fpCheckClear p check) s =
      .next ((s.check (0x28 + p) check).standing.foldl (fun s i => s.qualClear (0x28 + p) check i 0) s) :=
  congrArg Host.Outcome.next (if_pos clean)

@[simp] theorem State.rd_answered (s : State) (w : Word) (k : Nat) : (s.answered w).rd k = s.rd k := rfl

theorem exec_prbsErrRead (s : State) (p : Fin 4) :
    exec (.prbsErrRead p) s = .next ((s.wr (Reg.fpPrbsErr p) 0).answered (s.rd (Reg.fpPrbsErr p))) := rfl

/-- Settles O40: each event of a link in its state is one operation; a failure is `linkFail_spec`, UP left `linkLeaveUp_spec`. -/
theorem linksMoveThroughTheirStates : Obligations.LinksMoveThroughTheirStates := by
  unfold Obligations.LinksMoveThroughTheirStates
  refine ⟨fun s p fec txeq rxeq training => ⟨fun clocked => ?_, fun waited => ?_⟩,
    fun s p locking => ⟨fun clocked => ?_, fun waited => ?_⟩,
    fun s p checking => ⟨fun held => ⟨_, exec_upHoldExpiry checking held, s.linkRisen_up p⟩, fun cause cut condition => ?_⟩,
    fun s p cause cut up degrades => ?_, fun s p hold waited => ⟨_, exec_holdDownExpiry hold waited, ?_⟩,
    fun s src e idle => ⟨fun entry => ?_, fun entry => ?_⟩, fun s p check clean => ?_, fun s p => ?_⟩
  · refine ⟨_, exec_trainingComplete training clocked, ?_, ?_, ?_, State.rd_wr_same _ _ _⟩
    · rw [State.link_wr, State.link_wr, State.link_setLink_same]
    · rw [State.link_wr, State.link_wr, State.link_setLink_same]
    · rw [State.rd_wr_ne _ _ (by unfold Reg.fpTxeq Reg.fpRxeq indKey; omega), State.rd_wr_same]
  · exact ⟨_, exec_trainingTimeout training waited, s.linkFail_spec p 7⟩
  · refine ⟨_, exec_blockLockAcquired locking clocked, ?_, ?_, ?_⟩
    all_goals rw [State.link_setLink_same]
  · obtain ⟨held, counted, _⟩ := s.linkFail_spec p 8
    exact ⟨_, exec_lockingTimeout locking waited, held, counted⟩
  · obtain ⟨held, counted, _⟩ := (s.setLink p (linkCondition cause)).linkFail_spec p (LinkDownCode cause)
    exact ⟨_, exec_linkDownCondition_checking checking condition, held, counted⟩
  · obtain ⟨u, before, run⟩ := exec_linkDownCondition_up (cut := cut) up degrades
    obtain ⟨_, _, empty, link, counted, raised⟩ := u.linkLeaveUp_spec p.isLt (LinkDownCode cause) (dest := 5) (by decide)
    have kept : u.rd (Reg.fpCntLinkDown p) = s.rd (Reg.fpCntLinkDown p) :=
      before.rd (by unfold Reg.fpCntLinkDown pageKey; omega) (by unfold Reg.fpCntLinkDown pageKey; omega)
        (by unfold Onward Reg.fpCntLinkDown Reg.fpCntDegrade pageKey; omega)
    rw [kept] at counted
    exact ⟨_, run, congrArg LinkSt.st link, congrArg LinkSt.lastCause link, counted, raised, empty.queue, empty.sending⟩
  · exact (congrArg LinkSt.st (State.link_setLink_same s p _) :)
  · exact ⟨_, exec_dupEntryAge_dup entry idle, DupTab.get_age _ _ e, rfl⟩
  · exact ⟨_, exec_dupEntryAge_headland entry idle, DupTab.get_age _ _ e, rfl⟩
  · refine ⟨_, exec_fpCheckClear clean, fun i => State.foldl_qualClear 0 _ ?_⟩
    cases stands : s.qualStands (0x28 + p) check i
    · exact .inr rfl
    · exact .inl (mem_of_setHas stands)
  · exact ⟨_, exec_prbsErrRead s p, rfl, (State.rd_answered _ _ _).trans (State.rd_wr_same _ _ _)⟩

end Sys2Proof.Machine
end

section
/-! A frame received on a native port (R238–R247, R249, R255): its failures, the duplicate table and its delivery. -/

namespace Sys2Proof.Machine

/-! Failures of a received frame, those that count towards degradation included (R255, R256). -/

/-- The registers that a frame noted towards degradation may change. -/
def Noted (k : Nat) : Prop := LeavesUp k ∨ k % 0x1000 = 0x0A4

theorem State.degrade_eq (s : State) (p : Nat) :
    s.degrade p = ((s.bump (Reg.fpCntDegrade p)).raise (0x28 + p) 3).linkLeaveUp p 6 5 := rfl

theorem State.degrade_spec (s : State) {p : Nat} (port : p < 4) : Reported Noted s (s.degrade p) ∧ (s.degrade p).net.dup = s.net.dup := by
  have place : Reg.fpCntDegrade p % 0x1000 = 0x0A4 := by unfold Reg.fpCntDegrade pageKey; omega
  have counted : Reported Noted s ((s.bump (Reg.fpCntDegrade p)).raise (0x28 + p) 3) :=
    ((Reported.refl s).bump (by omega) (.inr place)).raise (0x28 + p) 3
  have net : ((s.bump (Reg.fpCntDegrade p)).raise (0x28 + p) 3).net = s.net := (State.raise_touches _ _ _).net (by decide)
  rw [State.degrade_eq]
  generalize (s.bump (Reg.fpCntDegrade p)).raise (0x28 + p) 3 = u at counted net
  obtain ⟨left, dup, _⟩ := u.linkLeaveUp_spec port 6 (dest := 5) (by decide)
  exact ⟨counted.trans (left.mono fun _ => .inl), by rw [dup, net]⟩

theorem State.noteError_spec (s : State) {p : Nat} (port : p < 4) : Reported Noted s (s.noteError p) ∧ (s.noteError p).net.dup = s.net.dup := by
  unfold State.noteError
  extract_lets noted
  have hnoted : Reported Noted s noted := (Reported.refl s).setNet _
  split
  · obtain ⟨degraded, dup⟩ := noted.degrade_spec port
    exact ⟨hnoted.trans degraded, dup.trans rfl⟩
  · exact ⟨hnoted, rfl⟩

/-- A failure that counts towards degradation is counted on its own counter. -/
theorem State.fpFailNoted_spec (s : State) {p : Nat} (port : p < 4) (check : Nat) (value : Word) {counter : Nat}
    (irq : counter % 0x1000 ≠ 0x010) (evq : counter / 0x1000 ≠ 0x24) (other : ¬ Noted counter) :
    let t := s.fpFailNoted p check value counter
    Reported (fun k => k = counter ∨ Noted k) s t ∧ t.rd counter = satInc (s.rd counter) ∧ t.net.dup = s.net.dup := by
  obtain ⟨failed, counted, _, net⟩ := s.fpFail_spec p check p value irq evq
  obtain ⟨noted, dup⟩ := (s.fpFail p check p value counter).noteError_spec port
  unfold State.fpFailNoted
  refine ⟨(failed.mono fun _ => .inl).trans (noted.mono fun _ => .inr), ?_, ?_⟩
  · exact (noted.rd irq evq other).trans counted
  · exact dup.trans (congrArg NetSt.dup net)

/-- The counter of a frame whose FCS is not good (R240, R249). -/
def fcsCounter (p : Nat) (fcs : FcsEnd) : Nat := if fcs = .stomped then Reg.fpCntRxStomp p else Reg.fpCntRxFcs p

theorem fcsCounter_place {p : Nat} (port : p < 4) (fcs : FcsEnd) :
    fcsCounter p fcs % 0x1000 ≠ 0x010 ∧ fcsCounter p fcs / 0x1000 ≠ 0x24 ∧ ¬ Noted (fcsCounter p fcs) := by
  unfold fcsCounter Noted LeavesUp Onward Reg.fpCntRxStomp Reg.fpCntRxFcs pageKey
  split
  · omega
  · omega

/-- A frame whose FCS is not good: a stomped one and a bad one have a counter each. -/
theorem State.badFcs_spec (s : State) {p : Nat} (port : p < 4) (fcs : FcsEnd) (outs : List (Nat × QFrame)) :
    let t := s.badFcs p fcs outs
    Reported (fun k => k = fcsCounter p fcs ∨ Noted k) s t ∧ t.rd (fcsCounter p fcs) = satInc (s.rd (fcsCounter p fcs)) ∧
      t.net.dup = s.net.dup := by
  obtain ⟨irq, evq, other⟩ := fcsCounter_place port fcs
  obtain ⟨stomped, net⟩ := s.stompAll_only outs
  have dup : (s.stompAll outs).net.dup = s.net.dup := (congrArg NetSt.dup net :)
  have kept : (s.stompAll outs).rd (fcsCounter p fcs) = s.rd (fcsCounter p fcs) :=
    stomped.rd irq evq fun onward => other (.inl (.inl onward))
  have before : Reported (fun k => k = fcsCounter p fcs ∨ Noted k) s (s.stompAll outs) := stomped.mono fun _ on => .inr (.inl (.inl on))
  unfold State.badFcs
  generalize s.stompAll outs = u at before kept dup
  dsimp only
  split
  · next stomp =>
    have counter : Reg.fpCntRxStomp p = fcsCounter p fcs := (if_pos stomp).symm
    rw [counter]
    exact ⟨before.bump irq (.inl rfl), by rw [State.rd_bump_same, kept], dup⟩
  · next bad =>
    have counter : Reg.fpCntRxFcs p = fcsCounter p fcs := (if_neg bad).symm
    rw [counter]
    obtain ⟨failed, counted, dup'⟩ := u.fpFailNoted_spec port 0x0401 0 irq evq other
    exact ⟨before.trans failed, by rw [counted, kept], dup'.trans dup⟩

/-! The duplicate table (R243–R246). -/

/-- A judgement's effect on the node's duplicate table, counted. -/
def State.dupNoted (s : State) (src : Nat) (t : DupTab) (e : DupEffect) : State :=
  let s := s.setNet fun n => { n with dup := t }
  let s := if e.resync then s.bump (Reg.fpCntDupResync 0) else s
  match e.evicted with
  | some k => ((s.raise 0x28 4).raise 0x28 2).qualFail 0x28 0x0408 src (w32 k) (Reg.fpCntDupEvict 0)
  | none => s

/-- The verdict on a frame of a source, class and sequence, with the table after it and its effect. -/
abbrev State.dupJudge (s : State) (src cls seq : Nat) : DupVerdict × DupTab × DupEffect :=
  s.net.dup.judge s.tclks src cls (BitVec.ofNat 16 seq)

theorem State.dupAccept_eq (s : State) (port src cls seq : Nat) :
    let j := s.dupJudge src cls seq
    let u := s.dupNoted src j.2.1 j.2.2
    s.dupAccept port src cls seq = match j.1 with
      | .accept => (true, u)
      | .marked => (false, u.bump (Reg.fpCntDup port))
      | .behind => (false, u.bump (Reg.fpCntSeqStale port)) := rfl

/-- The counters of aged entries restarted and of sources evicted. -/
def DupNoted (k : Nat) : Prop := k = Reg.fpCntDupResync 0 ∨ k = Reg.fpCntDupEvict 0

theorem State.dupNoted_spec (s : State) (src : Nat) (t : DupTab) (e : DupEffect) :
    Reported DupNoted s (s.dupNoted src t e) ∧ (s.dupNoted src t e).net.dup = t := by
  unfold State.dupNoted
  extract_lets table resynced
  have htable : Reported DupNoted s table := (Reported.refl s).setNet _
  have hresynced : Reported DupNoted s resynced := .ite (fun _ => htable.bump (by decide) (.inl rfl)) fun _ => htable
  have dup : resynced.net.dup = t := by
    unfold resynced
    split <;> rfl
  split
  · have raised := (hresynced.raise 0x28 4).raise 0x28 2
    refine ⟨(raised.bump (k := Reg.fpCntDupEvict 0) (by decide) (.inr rfl)).qualFail, ?_⟩
    rw [State.qualFail_net, (State.raise_touches _ _ _).net (by decide), (State.raise_touches _ _ _).net (by decide)]
    exact dup
  · exact ⟨hresynced, dup⟩

/-- A judgement keeps the registers but for its effect's counters and those of duplicates. -/
theorem State.dupAccept_reported (s : State) (port src cls seq : Nat) :
    Reported (fun k => DupNoted k ∨ k = Reg.fpCntDup port ∨ k = Reg.fpCntSeqStale port) s (s.dupAccept port src cls seq).2 := by
  have noted := (s.dupNoted_spec src (s.dupJudge src cls seq).2.1 (s.dupJudge src cls seq).2.2).1.mono
    (W' := fun k => DupNoted k ∨ k = Reg.fpCntDup port ∨ k = Reg.fpCntSeqStale port) fun _ => .inl
  rw [State.dupAccept_eq]
  split
  · exact noted
  · exact noted.bump (by unfold Reg.fpCntDup pageKey; omega) (.inr (.inl rfl))
  · exact noted.bump (by unfold Reg.fpCntSeqStale pageKey; omega) (.inr (.inr rfl))

/-! Local delivery (R278, R279, R291). -/

/-- The network but for the frames delivered and not yet taken. -/
def NetSt.undelivered (n : NetSt) : NetSt :=
  { n with toXbr := [], toEvq := [], toTime := [], toRing := [], toSig := [], toHost := [], toCpu := [] }

theorem State.giveEther_only (s : State) (port : Nat) (d : Delivered) :
    ∃ g : NetSt → NetSt, s.giveEther port d = s.setNet g ∧ (g s.net).undelivered = s.net.undelivered := by
  refine ⟨_, rfl, ?_⟩
  split <;> rfl

/-- A frame handed over is added to the frames that wait for a block. -/
theorem State.handOver_only (s : State) (port : Nat) (f : QFrame) :
    ∃ g : NetSt → NetSt, s.handOver port f = s.setNet g ∧ (g s.net).undelivered = s.net.undelivered := by
  unfold State.handOver
  extract_lets d
  split
  · exact s.giveEther_only port d
  · split
    · split
      · exact s.giveEther_only port _
      · exact ⟨id, rfl, rfl⟩
    · refine ⟨_, rfl, ?_⟩
      split <;> rfl

theorem State.handOver_reported {W : Nat → Prop} (s : State) (port : Nat) (f : QFrame) : Reported W s (s.handOver port f) := by
  obtain ⟨g, handed, _⟩ := s.handOver_only port f
  exact handed ▸ (Reported.refl s).setNet g

/-- A field of the network other than the frames delivered. -/
theorem State.handOver_field {α : Type} (s : State) (port : Nat) (f : QFrame) (x : NetSt → α) (reads : ∀ n, x n.undelivered = x n) :
    x (s.handOver port f).net = x s.net := by
  obtain ⟨g, handed, net⟩ := s.handOver_only port f
  have left : x (g s.net) = x s.net := by rw [← reads, net, reads]
  exact handed ▸ left

theorem State.localCopy_only (s : State) (f : QFrame) (primary : Bool) :
    Reported Onward s (s.localCopy f primary) ∧ (s.localCopy f primary).net.dup = s.net.dup := by
  unfold State.localCopy
  split
  · have took := s.takeFrame_admits (s.deliverPort f) f
    exact ⟨took.reported, took.field NetSt.dup fun _ => rfl⟩
  · exact ⟨(Reported.refl s).setNet _, rfl⟩

/-- A delivery counts at most what happens onward, and leaves the duplicate table. -/
theorem State.deliver_only (s : State) (f : QFrame) (primary : Bool) :
    Reported Onward s (s.deliver f primary) ∧ (s.deliver f primary).net.dup = s.net.dup := by
  unfold State.deliver
  split
  · exact ⟨s.handOver_reported _ _, s.handOver_field _ _ NetSt.dup fun _ => rfl⟩
  · exact s.localCopy_only f primary

theorem State.mirrorRx_only (s : State) (port : Nat) (w : WireFrame) (native : Bool) :
    Reported Onward s (s.mirrorRx port w native) ∧ (s.mirrorRx port w native).net.uncopied = s.net.uncopied := by
  unfold State.mirrorRx
  split
  · exact s.mirror_only port true _
  · exact ⟨.refl s, rfl⟩

/-! The IDs of the node, and what its modes make of them (R239, R260, R267, R273). -/

/-- From `s` to `t` neither the rings nor RING_CFG nor the node's ID changed. -/
structure SameIds (s t : State) : Prop where
  ring : t.ring = s.ring
  cfg : t.rd Reg.ringCfg = s.rd Reg.ringCfg
  node : t.rd Reg.ringNodeId = s.rd Reg.ringNodeId

namespace SameIds

variable {s t : State} (h : SameIds s t)
include h

theorem ringMode : t.ringMode = s.ringMode := by
  unfold State.ringMode State.fld State.flag
  rw [h.cfg]

theorem prpOn : t.prpOn = s.prpOn := by
  unfold State.prpOn State.fld State.flag
  rw [h.cfg]

theorem coupler : t.coupler = s.coupler := by
  unfold State.coupler State.flag
  rw [h.cfg, h.prpOn, h.ringMode]

theorem nativePort (p : Nat) : t.nativePort p = s.nativePort p := by
  unfold State.nativePort
  rw [h.ringMode, h.prpOn]

theorem nodeId : t.nodeId = s.nodeId := by
  unfold State.nodeId State.fld
  rw [h.node]

theorem ownSource (b : List Byte) : t.ownSource b = s.ownSource b := by
  unfold State.ownSource
  rw [h.ring, h.nodeId, h.coupler]

theorem unicastHere (b : List Byte) : t.unicastHere b = s.unicastHere b := by
  unfold State.unicastHere
  rw [h.ring, h.nodeId, h.coupler]

end SameIds

theorem State.bump_sameIds (s : State) {k : Nat} (cfg : Reg.ringCfg ≠ k) (node : Reg.ringNodeId ≠ k) : SameIds s (s.bump k) :=
  ⟨rfl, s.rd_bump_ne cfg, s.rd_bump_ne node⟩

theorem State.mirror_sameIds (s : State) (port : Nat) (rx : Bool) (f : QFrame) : SameIds s (s.mirror port rx f) := by
  have reported := s.mirror_reported port rx f
  refine ⟨(s.mirror_touches port rx f).ring (by decide), reported.rd (by decide) (by decide) ?_, reported.rd (by decide) (by decide) ?_⟩
  · unfold Onward; decide
  · unfold Onward; decide

end Sys2Proof.Machine
end

section
/-! A native frame received (R238–R240, R269): every frame leaves RX_FRAMES alone once it is counted, and a frame that passes the first
checks on a node that is no coupler. -/

namespace Sys2Proof.Machine

/-- The registers but RX_FRAMES of the ports, which alone among those that a frame changes lie at their offset. -/
def AfterCount (k : Nat) : Prop := Onward k ∨ (k % 0x1000 ≠ 0x010 ∧ k % 0x1000 ≠ 0x060)

/-- A counter away from RX_FRAMES. -/
theorem AfterCount.of {page off : Nat} (low : off < 0x1000 ∧ off ≠ 0x010 ∧ off ≠ 0x060) :
    pageKey page off % 0x1000 ≠ 0x010 ∧ AfterCount (pageKey page off) := by
  have key : pageKey page off % 0x1000 = off := by
    unfold pageKey
    omega
  rw [AfterCount, key]
  exact ⟨low.2.1, .inr low.2⟩

theorem not_afterCount {p : Nat} (port : p < 4) : ¬ AfterCount (Reg.fpCntRxFrames p) := by
  unfold AfterCount Onward Reg.fpCntRxFrames pageKey
  omega

theorem Noted.afterCount {k : Nat} (h : Noted k) : AfterCount k := by
  unfold Noted LeavesUp at h
  rcases h with (onward | down) | degraded
  · exact .inl onward
  · exact .inr (by omega)
  · exact .inr (by omega)

namespace Reported

variable {s0 s : State} (h : Reported AfterCount s0 s)
include h

theorem onward {t : State} (h' : Reported Onward s t) : Reported AfterCount s0 t := h.trans (h'.mono fun _ => .inl)

theorem count {page off : Nat} (low : off < 0x1000 ∧ off ≠ 0x010 ∧ off ≠ 0x060) : Reported AfterCount s0 (s.bump (pageKey page off)) :=
  have ⟨irq, listed⟩ := AfterCount.of (page := page) low
  h.bump irq listed

theorem fpFail {port check item : Nat} {value : Word} {page off : Nat} (low : off < 0x1000 ∧ off ≠ 0x010 ∧ off ≠ 0x060) :
    Reported AfterCount s0 (s.fpFail port check item value (pageKey page off)) :=
  ((h.raise _ _).count low).qualFail

theorem headlandAccept (src cls seq : Nat) : Reported AfterCount s0 (s.headlandAccept src cls seq).2 := by
  unfold State.headlandAccept
  generalize s.net.headland.judge s.tclks src cls (BitVec.ofNat 16 seq) = j
  obtain ⟨v, t, e⟩ := j
  have hjudged : Reported AfterCount s0 (s.setNet fun n => { n with headland := t }) := h.setNet _
  dsimp only
  split
  · exact ((hjudged.raise 0x2E 4).count (by decide)).qualFail
  · exact hjudged

theorem turnFrame (port : Nat) (b : List Byte) (judged : Bool) (rx : Option TimePoint) :
    Reported AfterCount s0 (s.turnFrame port b judged rx) := by
  unfold State.turnFrame
  refine .ite (fun _ => h) fun _ => .ite (fun _ => .ite (fun _ => h.count (by decide)) fun _ => h) fun _ => ?_
  have accepted : Reported AfterCount s0
      (if judged then (true, s) else s.headlandAccept (hdrSource b) (hdrClass b) (hdrSeq b)).2 := by
    split
    · exact h
    · exact h.headlandAccept _ _ _
  generalize (if judged then (true, s) else s.headlandAccept (hdrSource b) (hdrClass b) (hdrSeq b)) = j at accepted
  obtain ⟨ok, u⟩ := j
  exact .ite (fun _ => accepted.count (by decide)) fun _ => (accepted.count (by decide)).setNet _

theorem dupAccept (port src cls seq : Nat) : Reported AfterCount s0 (s.dupAccept port src cls seq).2 := by
  refine h.trans ((s.dupAccept_reported port src cls seq).mono fun k counted => ?_)
  rcases counted with (rfl | rfl) | rfl | rfl
  all_goals exact (AfterCount.of (by decide)).2

theorem badFcs {port : Nat} (four : port < 4) (fcs : FcsEnd) (outs : List (Nat × QFrame)) :
    Reported AfterCount s0 (s.badFcs port fcs outs) := by
  obtain ⟨failed, _⟩ := s.badFcs_spec four fcs outs
  refine h.trans (failed.mono fun k counted => ?_)
  obtain rfl | noted := counted
  · unfold fcsCounter
    split
    all_goals exact (AfterCount.of (by decide)).2
  · exact noted.afterCount

theorem fpFailNoted {port check : Nat} {value : Word} {page off : Nat} (four : port < 4)
    (low : off < 0x1000 ∧ off ≠ 0x010 ∧ off ≠ 0x060) :
    Reported AfterCount s0 (s.fpFailNoted port check value (pageKey page off)) :=
  (h.fpFail low).trans (((s.fpFail port check port value (pageKey page off)).noteError_spec four).1.mono fun _ => Noted.afterCount)

theorem passFrame (port : Nat) (b : List Byte) (judged : Bool) : Reported AfterCount s0 (s.passFrame port b judged) := by
  unfold State.passFrame
  extract_lets rx _ f mirrored here sent turned
  have hmirrored : Reported AfterCount s0 mirrored := h.onward (s.mirror_reported _ _ _)
  refine .ite (fun _ => hmirrored.onward (mirrored.deliver_only _ _).1) fun _ => ?_
  have hsent : Reported AfterCount s0 sent := .ite (fun _ => hmirrored) fun _ => hmirrored.onward (mirrored.takeFrame_admits _ _).reported
  have hturned : Reported AfterCount s0 turned := hsent.turnFrame _ _ _ _
  refine .ite (fun _ => ?_) fun _ => hturned
  have haccepted := hturned.dupAccept port (hdrSource b) (hdrClass b) (hdrSeq b)
  generalize turned.dupAccept port (hdrSource b) (hdrClass b) (hdrSeq b) = j at haccepted
  obtain ⟨ok, accepted⟩ := j
  exact .ite (fun _ => haccepted.onward (accepted.deliver_only _ _).1) fun _ => haccepted

theorem receiveNative {port : Nat} (four : port < 4) (w : WireFrame) : Reported AfterCount s0 (s.receiveNative port w) := by
  have mirrored {u : State} (hu : Reported AfterCount s0 u) (native : Bool) : Reported AfterCount s0 (u.mirrorRx port w native) :=
    hu.onward (u.mirrorRx_only port w native).1
  unfold State.receiveNative
  extract_lets b cls judge
  refine .ite (fun _ => .ite (fun _ => .ite (fun _ => (mirrored h _).setNet _) fun _ => h.badFcs four _ _) fun _ => h.fpFail (by decide))
    fun _ => .ite (fun _ => h.fpFailNoted four (by decide)) fun _ => .ite (fun _ => h.fpFailNoted four (by decide)) fun _ =>
      .ite (fun _ => h.fpFail (by decide)) fun _ => ?_
  have hjudged : Reported AfterCount s0 (if judge then s.headlandAccept (hdrSource b) cls (hdrSeq b) else (true, s)).2 := by
    split
    · exact h.headlandAccept _ _ _
    · exact h
  generalize (if judge then s.headlandAccept (hdrSource b) cls (hdrSeq b) else (true, s)) = j at hjudged
  obtain ⟨ok, u⟩ := j
  dsimp only at hjudged ⊢
  refine .ite (fun _ => (mirrored hjudged _).count (by decide)) fun _ => .ite (fun _ => .count ?_ (by decide)) fun _ =>
    .ite (fun _ => hjudged.fpFail (by decide)) fun _ => .ite (fun _ => hjudged.badFcs four _ _) fun _ => hjudged.passFrame _ _ _
  exact .ite (fun _ => (mirrored hjudged _).setNet _) fun _ => mirrored hjudged _

end Reported

end Sys2Proof.Machine
end

section
/-! The checks of a native frame in their order (R238–R240, R255), and O39. -/

namespace Sys2Proof.Machine

/-- What becomes of a frame of sound length, header and PATH on a node that is no coupler (R238, R240). -/
def State.receiveSound (s : State) (port : Nat) (w : WireFrame) : State :=
  let b := w.bytes
  if s.ownSource b then
    let u := s.mirrorRx port w true
    (if hdrType b = 7 ∧ w.fcs = .good then u.setNet fun n => { n with toRing := n.toRing ++ [⟨port, b, u.now⟩] } else u).bump
      (Reg.fpCntStripped port)
  else if hdrHop b = 0 then s.fpFail port 0x0406 (hdrSource b) (w32 (hdrDest b)) (Reg.fpCntHopExpired port)
  else if w.fcs ≠ .good then s.badFcs port w.fcs (s.cutOuts port b)
  else s.passFrame port b false

section Frame

variable {s : State} {p : Fin 4} {w : WireFrame}

theorem exec_frameReceive_down (down : s.portUp p = false) : exec (.frameReceive p w) s = .next s :=
  congrArg Host.Outcome.next (if_pos (by rw [down]; rfl))

/-- A frame received on a native port that is UP is counted, and its checks follow. -/
theorem exec_frameReceive_native (up : s.portUp p = true) (native : s.nativePort p = true) :
    exec (.frameReceive p w) s = .next ((s.bump (Reg.fpCntRxFrames p)).receiveNative p w) := by
  have ids : SameIds s (s.bump (Reg.fpCntRxFrames p)) :=
    s.bump_sameIds (by unfold Reg.ringCfg Reg.fpCntRxFrames pageKey; omega) (by unfold Reg.ringNodeId Reg.fpCntRxFrames pageKey; omega)
  show execFrameReceive p w s = _
  rw [execFrameReceive, if_neg (by simp [up])]
  exact congrArg Host.Outcome.next (if_pos ((ids.nativePort p).trans native))

variable {port : Nat}

theorem State.receiveNative_foreign (foreign : etherType w.bytes ≠ 0x88B5) (notPtp : etherType w.bytes ≠ 0x88F7 ∨ port < 2) :
    s.receiveNative port w = s.fpFail port 0x0405 port (w32 (etherType w.bytes)) (Reg.fpCntRxForeign port) := by
  rw [State.receiveNative, if_pos foreign, if_neg (by omega)]

variable (native : etherType w.bytes = 0x88B5)
include native

theorem State.receiveNative_length (bad : lengthOk w.bytes = false) :
    s.receiveNative port w = s.fpFailNoted port 0x0402 (w32 (frameLen w.bytes)) (Reg.fpCntRxLength port) := by
  rw [State.receiveNative, if_neg (not_not_intro native), if_pos (by rw [bad]; rfl)]

variable (length : lengthOk w.bytes = true)
include length

theorem State.receiveNative_header (bad : headerOk w.bytes = false) :
    s.receiveNative port w = s.fpFailNoted port 0x0403 (w32 (beAt w.bytes 14 4)) (Reg.fpCntRxHeader port) := by
  rw [State.receiveNative, if_neg (not_not_intro native), if_neg (by simp [length]), if_pos (by rw [bad]; rfl)]

variable (header : headerOk w.bytes = true)
include header

theorem State.receiveNative_path (wrong : hdrPath w.bytes = decide (port % 2 = 1)) :
    s.receiveNative port w = s.fpFail port 0x0404 port (w32 (b2n (hdrPath w.bytes))) (Reg.fpCntRxPath port) := by
  rw [State.receiveNative, if_neg (not_not_intro native), if_neg (by simp [length]), if_neg (by simp [header]), if_pos wrong]

theorem State.receiveNative_sound (path : hdrPath w.bytes ≠ decide (port % 2 = 1)) (single : s.coupler = false) :
    s.receiveNative port w = s.receiveSound port w := by
  rw [State.receiveNative, if_neg (not_not_intro native), if_neg (by simp [length]), if_neg (by simp [header]), if_neg path, single]
  rfl

end Frame

/-! A frame of sound length, header and PATH. -/

section Sound

variable {s : State} {w : WireFrame} {port : Nat}

theorem State.receiveSound_own (four : port < 4) (own : s.ownSource w.bytes = true) :
    (s.receiveSound port w).rd (Reg.fpCntStripped port) = satInc (s.rd (Reg.fpCntStripped port)) := by
  have mirrored := (s.mirrorRx_only port w true).1
  have kept : (s.mirrorRx port w true).rd (Reg.fpCntStripped port) = s.rd (Reg.fpCntStripped port) := by
    have place : Reg.fpCntStripped port = (0x28 + port) * 0x1000 + 0x088 := rfl
    exact mirrored.rd (by omega) (by omega) (by unfold Onward; omega)
  rw [State.receiveSound, if_pos own]
  extract_lets u
  rw [State.rd_bump_same, ← kept]
  split <;> rfl

variable (other : s.ownSource w.bytes = false)
include other

theorem State.receiveSound_expired (hop : hdrHop w.bytes = 0) : s.receiveSound port w =
    s.fpFail port 0x0406 (hdrSource w.bytes) (w32 (hdrDest w.bytes)) (Reg.fpCntHopExpired port) := by
  rw [State.receiveSound, if_neg (by simp [other]), if_pos hop]

variable (hop : hdrHop w.bytes ≠ 0)
include hop

theorem State.receiveSound_fcs (bad : w.fcs ≠ .good) :
    s.receiveSound port w = s.badFcs port w.fcs (s.cutOuts port w.bytes) := by
  rw [State.receiveSound, if_neg (by simp [other]), if_neg hop, if_pos bad]

theorem State.receiveSound_good (good : w.fcs = .good) : s.receiveSound port w = s.passFrame port w.bytes false := by
  rw [State.receiveSound, if_neg (by simp [other]), if_neg hop, if_neg (not_not_intro good)]

end Sound

/-- A good unicast frame to this node is judged, and delivered where it is accepted. -/
theorem State.passFrame_unicast {s : State} {b : List Byte} (port : Nat) (judged : Bool) (here : s.unicastHere b = true)
    (single : s.coupler = false) :
    ∃ m f, Reported Onward s m ∧ m.net.dup = s.net.dup ∧ m.tclks = s.tclks ∧
      s.passFrame port b judged =
        let j := m.dupAccept port (hdrSource b) (hdrClass b) (hdrSeq b)
        if j.1 then j.2.deliver f true else j.2 := by
  have notLinkLocal : isLinkLocal b = false := by
    unfold State.unicastHere at here
    rw [Bool.and_eq_true, Bool.not_eq_true'] at here
    rw [isLinkLocal, here.1]
    rfl
  unfold State.passFrame
  extract_lets rx _ f mirrored here' sent turned
  have ids : SameIds s mirrored := s.mirror_sameIds port true f
  have isHere : here' = true := (ids.unicastHere b).trans here
  have hsent : sent = mirrored := if_pos isHere
  have hturned : turned = mirrored := (if_pos (.inl (by rw [hsent, ids.coupler, single]; rfl))).trans hsent
  have offered : turned.offered port b = true := by rw [State.offered, hturned, ids.unicastHere, here]; rfl
  refine ⟨mirrored, f, s.mirror_reported _ _ _, s.mirror_field _ _ _ NetSt.dup fun _ => rfl,
    (s.mirror_touches _ _ _).tclks (by decide), ?_⟩
  rw [if_neg (by simp [notLinkLocal]), if_pos offered, hturned, isHere]

/-- The verdict on a good unicast frame to this node. -/
theorem State.passFrame_verdict {s : State} {b : List Byte} {p : Nat} (port : p < 4) (judged : Bool) (here : s.unicastHere b = true)
    (single : s.coupler = false) :
    let j := s.dupJudge (hdrSource b) (hdrClass b) (hdrSeq b)
    let t := s.passFrame p b judged
    (j.1 = .accept → t.net.dup = j.2.1) ∧
    (j.1 = .marked → t.rd (Reg.fpCntDup p) = satInc (s.rd (Reg.fpCntDup p))) ∧
    (j.1 = .behind → t.rd (Reg.fpCntSeqStale p) = satInc (s.rd (Reg.fpCntSeqStale p))) := by
  obtain ⟨m, f, mirrored, dup, tclks, passed⟩ := State.passFrame_unicast p judged here single
  have same : m.dupJudge (hdrSource b) (hdrClass b) (hdrSeq b) = s.dupJudge (hdrSource b) (hdrClass b) (hdrSeq b) := by
    rw [State.dupJudge, dup, tclks]
  rw [passed, State.dupAccept_eq, same]
  generalize s.dupJudge (hdrSource b) (hdrClass b) (hdrSeq b) = j
  obtain ⟨v, table, effect⟩ := j
  obtain ⟨noted, table'⟩ := m.dupNoted_spec (hdrSource b) table effect
  generalize m.dupNoted (hdrSource b) table effect = u at noted table'
  have kept {k : Nat} (hk : k = Reg.fpCntDup p ∨ k = Reg.fpCntSeqStale p) : u.rd k = s.rd k := by
    have place : Reg.fpCntDup p = (0x28 + p) * 0x1000 + 0x08C ∧ Reg.fpCntSeqStale p = (0x28 + p) * 0x1000 + 0x090 := ⟨rfl, rfl⟩
    rw [noted.rd (by omega) (by omega) (by unfold DupNoted Reg.fpCntDupResync Reg.fpCntDupEvict pageKey; omega),
      mirrored.rd (by omega) (by omega) (by unfold Onward; omega)]
  cases v with
  | accept => exact ⟨fun _ => (u.deliver_only f true).2.trans table', nofun, nofun⟩
  | marked => exact ⟨nofun, fun _ => by rw [← kept (.inl rfl)]; exact State.rd_bump_same _ _, nofun⟩
  | behind => exact ⟨nofun, nofun, fun _ => by rw [← kept (.inr rfl)]; exact State.rd_bump_same _ _⟩

/-- Where the counters of a port's page lie. -/
theorem fpPage_place (p : Nat) {off : Nat} (low : off < 0x1000 ∧ off ≠ 0x010) :
    pageKey (0x28 + p) off % 0x1000 ≠ 0x010 ∧ pageKey (0x28 + p) off / 0x1000 ≠ 0x24 := by
  unfold pageKey
  omega

/-- A frame noted towards degradation changes no reception counter of its port, but for those of degradation and of a link gone down. -/
theorem not_noted {p : Nat} (port : p < 4) {off : Nat} (low : off < 0x1000)
    (other : off ≠ 0x064 ∧ off ≠ 0x070 ∧ off ≠ 0x094 ∧ off ≠ 0x0A0 ∧ off ≠ 0x0A4) : ¬ Noted (pageKey (0x28 + p) off) := by
  unfold Noted LeavesUp Onward pageKey
  omega

/-- Settles O39: RX_FRAMES is counted first and left alone after; each failure has one operation, and a good frame is `passFrame_verdict`. -/
theorem receivedFramesAreCheckedInOrder : Obligations.ReceivedFramesAreCheckedInOrder := by
  unfold Obligations.ReceivedFramesAreCheckedInOrder
  refine ⟨fun s p w down => exec_frameReceive_down down, fun s p w up isNative foreign notPtp => ?_, fun s p w up isNative native => ?_⟩
  · obtain ⟨irq, evq⟩ := fpPage_place p (off := 0x080) (by decide)
    obtain ⟨_, counted, _, net⟩ := (s.bump (Reg.fpCntRxFrames p)).fpFail_spec p 0x0405 p (w32 (etherType w.bytes)) irq evq
    have run := exec_frameReceive_native (w := w) up isNative
    rw [State.receiveNative_foreign foreign notPtp] at run
    refine ⟨_, run, ?_, congrArg NetSt.dup net⟩
    rw [counted, s.rd_bump_ne (by unfold Reg.fpCntRxFrames pageKey; omega)]
  · intro b good own v
    have run := exec_frameReceive_native (w := w) up isNative
    have kept {off : Nat} (other : off ≠ 0x060) :
        (s.bump (Reg.fpCntRxFrames p)).rd (pageKey (0x28 + p) off) = s.rd (pageKey (0x28 + p) off) :=
      s.rd_bump_ne (by unfold Reg.fpCntRxFrames pageKey; omega)
    have first : (s.bump (Reg.fpCntRxFrames p)).rd (Reg.fpCntRxFrames p) = satInc (s.rd (Reg.fpCntRxFrames p)) := s.rd_bump_same _
    have ids : SameIds s (s.bump (Reg.fpCntRxFrames p)) :=
      s.bump_sameIds (by unfold Reg.ringCfg Reg.fpCntRxFrames pageKey; omega) (by unfold Reg.ringNodeId Reg.fpCntRxFrames pageKey; omega)
    have dup : (s.bump (Reg.fpCntRxFrames p)).net.dup = s.net.dup := rfl
    have judged : (s.bump (Reg.fpCntRxFrames p)).dupJudge = s.dupJudge := rfl
    generalize s.bump (Reg.fpCntRxFrames p) = u at run kept first ids dup judged
    have sound (passes : good = true) (single : s.coupler = false) : u.receiveNative p w = u.receiveSound p w := by
      simp only [good, Bool.and_eq_true, bne_iff_ne] at passes
      obtain ⟨⟨length, header⟩, path⟩ := passes
      exact State.receiveNative_sound native length header path (ids.coupler.trans single)
    have notOwn (other : own = false) : u.ownSource w.bytes = false := (ids.ownSource b).trans other
    refine ⟨_, run, ?_, fun bad => ?_, fun length bad => ?_, fun length header wrong => ?_, fun passes single isOwn => ?_,
      fun passes single other hop => ?_, fun passes single other hop bad => ?_, fun passes single other hop bad => ?_,
      fun passes single other hop fine here => ?_⟩
    · obtain ⟨irq, evq⟩ := fpPage_place p (off := 0x060) (by decide)
      rw [((Reported.refl u).receiveNative p.isLt w).rd irq evq (not_afterCount p.isLt), first]
    · rw [State.receiveNative_length native bad]
      obtain ⟨irq, evq⟩ := fpPage_place p (off := 0x074) (by decide)
      obtain ⟨_, counted, kept'⟩ := u.fpFailNoted_spec p.isLt 0x0402 (w32 (frameLen w.bytes)) (counter := Reg.fpCntRxLength p) irq evq
        (not_noted p.isLt (by decide) (by decide))
      exact ⟨by rw [counted, kept (by decide)], kept'.trans dup⟩
    · rw [State.receiveNative_header native length bad]
      obtain ⟨irq, evq⟩ := fpPage_place p (off := 0x078) (by decide)
      obtain ⟨_, counted, kept'⟩ := u.fpFailNoted_spec p.isLt 0x0403 (w32 (beAt w.bytes 14 4)) (counter := Reg.fpCntRxHeader p) irq evq
        (not_noted p.isLt (by decide) (by decide))
      exact ⟨by rw [counted, kept (by decide)], kept'.trans dup⟩
    · rw [State.receiveNative_path native length header wrong]
      obtain ⟨irq, evq⟩ := fpPage_place p (off := 0x07C) (by decide)
      obtain ⟨_, counted, _, net⟩ := u.fpFail_spec p 0x0404 p (w32 (b2n (hdrPath w.bytes))) irq evq
      exact ⟨by rw [counted, kept (by decide)], (congrArg NetSt.dup net).trans dup⟩
    · rw [sound passes single, State.receiveSound_own p.isLt ((ids.ownSource b).trans isOwn), kept (by decide)]
    · rw [sound passes single, State.receiveSound_expired (notOwn other) hop]
      obtain ⟨irq, evq⟩ := fpPage_place p (off := 0x084) (by decide)
      obtain ⟨_, counted, _, net⟩ := u.fpFail_spec p 0x0406 (hdrSource w.bytes) (w32 (hdrDest w.bytes)) irq evq
      exact ⟨by rw [counted, kept (by decide)], (congrArg NetSt.dup net).trans dup⟩
    · rw [sound passes single, State.receiveSound_fcs (notOwn other) hop (by rw [bad]; decide), bad]
      obtain ⟨_, counted, kept'⟩ := u.badFcs_spec p.isLt .bad (u.cutOuts p w.bytes)
      have bad : fcsCounter p .bad = Reg.fpCntRxFcs p := rfl
      rw [bad, kept (by decide)] at counted
      exact ⟨counted, kept'.trans dup⟩
    · rw [sound passes single, State.receiveSound_fcs (notOwn other) hop (by rw [bad]; decide), bad]
      obtain ⟨_, counted, kept'⟩ := u.badFcs_spec p.isLt .stomped (u.cutOuts p w.bytes)
      have stomped : fcsCounter p .stomped = Reg.fpCntRxStomp p := rfl
      rw [stomped, kept (by decide)] at counted
      exact ⟨counted, kept'.trans dup⟩
    · rw [sound passes single, State.receiveSound_good (notOwn other) hop fine]
      have verdict := State.passFrame_verdict p.isLt false ((ids.unicastHere b).trans here) (ids.coupler.trans single)
      rw [judged, kept (by decide), kept (by decide)] at verdict
      exact verdict

end Sys2Proof.Machine
end

section
/-! ECC of the cell buffer and of DDR4 (R281, R298, R446): its errors are reported and counted, and leave the network alone. -/

namespace Sys2Proof.Machine

/-- An ECC error is a report. -/
theorem Reported.eccError {W : Nat → Prop} {s0 s : State} (h : Reported W s0 s) (page mem : Nat) (uncorr : Bool) (addr syndrome : Word) :
    Reported W s0 (s.eccError page mem uncorr addr syndrome) := by
  have posted {u : State} (hu : Reported W s0 u) : Reported W s0 (u.eccPost page mem uncorr) := by
    unfold State.eccPost
    extract_lets -merge e closed
    have hclosed : Reported W s0 closed := hu.same rfl rfl
    exact hclosed.postPageAt _ _ _ _ _ _ _ _ _
  unfold State.eccError State.eccNote
  extract_lets -merge k old first noted
  have hnoted : Reported W s0 noted := h.same rfl rfl
  exact .ite (fun _ => hnoted) fun _ => posted hnoted

/-- What an ECC error of the buffer or of DDR4 may change. -/
def Part.eccs : List Part := Part.reports ++ [.ecc, .regBuf, .regDdr]

theorem State.bufEcc_touches (s : State) (ecc : ReadEcc) : Frame (fun p => p ∈ Part.eccs) s (s.bufEcc ecc) :=
  State.bufEcc_frame (Frame.refl _ s) ecc (.of_coveredBy rfl)

theorem State.bufEcc_reported (s : State) (ecc : ReadEcc) : Reported (· = Reg.bufCntEccDiscard) s (s.bufEcc ecc) := by
  have refl := Reported.refl (W := (· = Reg.bufCntEccDiscard)) s
  cases ecc with
  | clean => exact refl
  | corrected a y => exact refl.eccError _ _ _ _ _
  | uncorrectable a y => exact (refl.bump (by decide) rfl).eccError _ _ _ _ _

theorem State.bufEcc_net (s : State) (ecc : ReadEcc) : (s.bufEcc ecc).net = s.net := (s.bufEcc_touches ecc).net (by decide)

/-- An uncorrectable cell error is counted. -/
theorem State.bufEcc_uncorrectable (s : State) (a y : Word) :
    (s.bufEcc (.uncorrectable a y)).rd Reg.bufCntEccDiscard = satInc (s.rd Reg.bufCntEccDiscard) := by
  have reported := (Reported.refl (W := fun _ => False) (s.bump Reg.bufCntEccDiscard)).eccError 0x21 0 true a y
  exact (reported.rd (by decide) (by decide) id).trans (s.rd_bump_same _)

end Sys2Proof.Machine
end

section
/-! Egress (R242, R249–R251, R281, R283): what a free port starts to send, and what the end of a transmission leaves. -/

namespace Sys2Proof.Machine

/-! The stamp of a PTP message (R66, R67). -/

/-- A stamp depends on the time, on the state of PTP and on the configuration of the ports. -/
theorem State.ptpStamped_congr {s t : State} (reported : Reported (· = Reg.bufCntEccDiscard) s t) (time : t.time = s.time) (ptp : t.ptp = s.ptp)
    (port : Nat) (f : QFrame) : t.ptpStamped port f = s.ptpStamped port f := by
  have slow : t.slowPort port = s.slowPort port := by
    by_cases low : port < 4
    · have cfg : t.rd (Reg.fpCfg port) = s.rd (Reg.fpCfg port) := by
        apply reported.rd
        all_goals unfold Reg.fpCfg pageKey
        · omega
        · omega
        · unfold Reg.bufCntEccDiscard pageKey
          omega
      rw [State.slowPort, State.slowPort, State.fld, State.fld, cfg]
    · simp [State.slowPort, low]
  have delay : t.ingressDelay f.ingress = s.ingressDelay f.ingress := by
    unfold State.ingressDelay
    split
    · rw [reported.rd]
      all_goals unfold Reg.ptpPdelay pageKey
      · omega
      · omega
      · unfold Reg.bufCntEccDiscard pageKey
        omega
    · rfl
  unfold State.ptpStamped State.sfdTx State.now
  rw [slow, time, ptp, delay]

theorem State.ptpSent_net (s : State) (port : Nat) (f : QFrame) : (s.ptpSent port f).net = s.net := by
  unfold State.ptpSent
  extract_lets t
  split
  · rfl
  · split <;> rfl

/-! The head of a queue taken (R281, R283). -/

/-- A frame that starts to be sent, stamped and marked. -/
def State.sends (s : State) (port cls : Nat) (g : QFrame) : State :=
  let x := s.sendingAt port
  let s := (s.setSending port (if 6 ≤ cls then { x with express := some g } else { x with normal := some g })).ptpSent port g
  s.mirror port false { g with txOf := some (txMark port (decide (6 ≤ cls))) }

/-- A frame as it is sent. -/
def State.stamped (s : State) (port : Nat) (f : QFrame) : QFrame := { f with bytes := s.ptpStamped port f, txOf := none }

theorem State.sends_spec (s : State) (port cls : Nat) (g : QFrame) :
    (s.sends port cls g).net.queues = s.net.queues ∧
      (s.sends port cls g).sendingAt port =
        if 6 ≤ cls then { s.sendingAt port with express := some g } else { s.sendingAt port with normal := some g } := by
  unfold State.sends
  extract_lets x u
  have net : u.net = (s.setSending port (if 6 ≤ cls then { x with express := some g } else { x with normal := some g })).net :=
    State.ptpSent_net _ _ _
  constructor
  · rw [u.mirror_field _ _ _ NetSt.queues fun _ => rfl, net]
    rfl
  · rw [State.sendingAt, u.mirror_field _ _ _ NetSt.sending fun _ => rfl, net]
    exact State.sendingAt_setSending_same _ _ _

/-- The head of a queue without an uncorrectable error is sent. -/
theorem State.startFrame_usable {s : State} {port cls : Nat} {f : QFrame} {rest : List QFrame} {ecc : ReadEcc}
    (head : s.queue port cls = f :: rest) (usable : eccUsable ecc = true) :
    s.startFrame port cls ecc = ((s.setQueue port cls rest).bufEcc ecc).sends port cls (s.stamped port f) := by
  have touched := (s.setQueue port cls rest).bufEcc_touches ecc
  have queued : Reported (· = Reg.bufCntEccDiscard) s (s.setQueue port cls rest) := (Reported.refl s).setNet _
  have stamp : ((s.setQueue port cls rest).bufEcc ecc).ptpStamped port f = s.ptpStamped port f :=
    State.ptpStamped_congr (queued.trans (State.bufEcc_reported _ ecc)) (touched.time (by decide)) (touched.ptp (by decide)) port f
  unfold State.startFrame State.stamped
  rw [head]
  dsimp only
  rw [stamp]
  cases ecc with
  | clean => rfl
  | corrected a y => rfl
  | uncorrectable a y => cases usable

/-- One with an uncorrectable error is discarded before it starts. -/
theorem State.startFrame_uncorrectable {s : State} {port cls : Nat} {f : QFrame} {rest : List QFrame}
    (head : s.queue port cls = f :: rest) (a y : Word) :
    s.startFrame port cls (.uncorrectable a y) = ((s.setQueue port cls rest).bufEcc (.uncorrectable a y)).spillCheck := by
  unfold State.startFrame
  rw [head]

/-- What the start of a usable frame leaves: its queue without it, and the frame being sent. -/
theorem State.startFrame_sends {s : State} {port cls : Nat} {f : QFrame} {rest : List QFrame} {ecc : ReadEcc}
    (head : s.queue port cls = f :: rest) (usable : eccUsable ecc = true) :
    (s.startFrame port cls ecc).queue port cls = rest ∧ (s.startFrame port cls ecc).sendingAt port =
      if 6 ≤ cls then { s.sendingAt port with express := some (s.stamped port f) }
      else { s.sendingAt port with normal := some (s.stamped port f) } := by
  rw [State.startFrame_usable head usable]
  have net := (s.setQueue port cls rest).bufEcc_net ecc
  generalize (s.setQueue port cls rest).bufEcc ecc = u at net
  obtain ⟨queues, sending⟩ := u.sends_spec port cls (s.stamped port f)
  constructor
  · rw [State.queue, queues, net]
    exact s.queue_setQueue_same port cls rest
  · have same : u.sendingAt port = s.sendingAt port := by
      rw [State.sendingAt, net]
      rfl
    rw [sending, same]

theorem State.startFrame_discards {s : State} {port cls : Nat} {f : QFrame} {rest : List QFrame}
    (head : s.queue port cls = f :: rest) (a y : Word) :
    let t := s.startFrame port cls (.uncorrectable a y)
    t.queue port cls = rest ∧ t.sendingAt port = s.sendingAt port ∧ t.rd Reg.bufCntEccDiscard = satInc (s.rd Reg.bufCntEccDiscard) := by
  rw [State.startFrame_uncorrectable head]
  have net := (s.setQueue port cls rest).bufEcc_net (.uncorrectable a y)
  have counted := (s.setQueue port cls rest).bufEcc_uncorrectable a y
  generalize (s.setQueue port cls rest).bufEcc (.uncorrectable a y) = u at net counted
  refine ⟨?_, ?_, ?_⟩
  · rw [State.spillCheck_queue, State.queue, net]
    exact s.queue_setQueue_same port cls rest
  · rw [State.spillCheck_sendingAt, State.sendingAt, net]
    rfl
  · exact ((Reported.refl (W := fun _ => False) u).spillCheck.rd (by decide) (by decide) id).trans counted

/-- A free port that is UP starts the head of the class picked. -/
theorem exec_egressTransmitStart_free {s u : State} (hu : s.pubFlush none = u) {p : Fin 8} {c : Nat} (ecc : ReadEcc)
    (up : u.portUp p = true) (express : (u.sendingAt p).express = none) (normal : (u.sendingAt p).normal = none)
    (picked : (u.pickClass p).1 = some c) :
    exec (.egressTransmitStart p ecc) s =
      .next ((u.setNet fun n => { n with drr := Tab.set Drr.init n.drr p (u.pickClass p).2 }).startFrame p c ecc) := by
  subst hu
  show execEgressTransmitStart p ecc s = _
  rw [execEgressTransmitStart]
  dsimp only
  rw [if_neg (by simp [up, express]), if_neg (by simp [normal]), picked]

/-- A paused frame goes on where no express frame waits. -/
theorem exec_egressTransmitStart_paused {s u : State} (hu : s.pubFlush none = u) {p : Fin 8} (ecc : ReadEcc)
    (up : u.portUp p = true) (express : (u.sendingAt p).express = none) (normal : (u.sendingAt p).normal.isSome = true)
    (paused : (u.sendingAt p).paused = true) (no7 : (u.headOf p 7).isSome = false) (no6 : (u.headOf p 6).isSome = false) :
    exec (.egressTransmitStart p ecc) s = .next (u.setSending p { u.sendingAt p with paused := false }) := by
  subst hu
  show execEgressTransmitStart p ecc s = _
  rw [execEgressTransmitStart]
  dsimp only
  rw [if_neg (by simp [up, express]), if_pos normal, if_neg (by simp [paused]), if_neg (by simp [no7]), if_neg (by simp [no6])]

/-! The end of a transmission (R249, R283, R297). -/

/-- A table all of whose values are changed, the default standing for itself. -/
theorem Tab.get_map_values {α : Type} {d : α} {g : α → α} (fixed : g d = d) (t : Tab α) (k : Nat) :
    Tab.get d (t.map fun e => (e.1, g e.2)) k = g (Tab.get d t k) := by
  induction t with
  | nil => exact fixed.symm
  | cons e t ih =>
    obtain ⟨j, v⟩ := e
    simp only [List.map_cons, Tab.get]
    split
    · rfl
    · exact ih

/-- A port's sending with the mirror copies of a frame settled. -/
def Sending.settled (x : Sending) (mark : Nat) (lost : Bool) : Sending := { x with normal := x.normal.map (QFrame.settle mark lost) }

theorem State.settleCopies_sendingAt (s : State) (mark : Nat) (lost : Bool) (port : Nat) :
    (s.settleCopies mark lost).sendingAt port = (s.sendingAt port).settled mark lost :=
  Tab.get_map_values (g := fun x => Sending.settled x mark lost) rfl s.net.sending port

theorem State.sendingAt_bump (s : State) (k port : Nat) : (s.bump k).sendingAt port = s.sendingAt port := rfl

/-- A frame sent whole is counted at a fabric port, and the copies taken of it are settled. -/
theorem State.endFrame_clean (s : State) (port : Nat) (express : Bool) (f : QFrame) :
    let t := (s.endFrame port express f .clean).spillCheck
    t.sendingAt port = (s.sendingAt port).settled (txMark port express) f.stomp ∧
      (port < 4 → t.rd (Reg.fpCntTxFrames port) = satInc (s.rd (Reg.fpCntTxFrames port))) := by
  have settled := s.settleCopies_sendingAt (txMark port express) f.stomp port
  have irq : Reg.fpCntTxFrames port % 0x1000 ≠ 0x010 := by
    unfold Reg.fpCntTxFrames pageKey
    omega
  have stompKey : Reg.fpCntTxFrames port ≠ Reg.fpCntTxStomp port := by
    unfold Reg.fpCntTxFrames Reg.fpCntTxStomp pageKey
    omega
  have kept : (s.settleCopies (txMark port express) f.stomp).rd (Reg.fpCntTxFrames port) = s.rd (Reg.fpCntTxFrames port) := rfl
  unfold State.endFrame
  simp only [State.bufEcc, Bool.or_false]
  generalize s.settleCopies (txMark port express) f.stomp = u at settled kept
  rw [State.spillCheck_sendingAt, ← settled]
  split
  · next fabric =>
    have evq : Reg.fpCntTxFrames port / 0x1000 ≠ 0x24 := by
      unfold Reg.fpCntTxFrames pageKey
      omega
    refine ⟨?_, fun _ => ?_⟩
    · split
      · rw [State.sendingAt_bump, State.sendingAt_bump]
      · rw [State.sendingAt_bump]
    · rw [((Reported.refl (W := fun _ => False) _).spillCheck).rd irq evq id, ← kept]
      split
      · rw [State.rd_bump_ne _ stompKey, State.rd_bump_same]
      · exact u.rd_bump_same _
  · next local_ =>
    refine ⟨?_, fun fabric => absurd fabric local_⟩
    split
    · rfl
    · exact u.handOver_field port f (fun n => Tab.get Sending.init n.sending port) fun _ => rfl

theorem exec_frameTransmitEnd_express {s : State} {p : Fin 8} {f : QFrame} (ecc : ReadEcc) (express : (s.sendingAt p).express = some f) :
    exec (.frameTransmitEnd p ecc) s =
      .next (((s.setSending p { s.sendingAt p with express := none }).endFrame p true f ecc).spillCheck) := by
  show execFrameTransmitEnd p ecc s = _
  rw [execFrameTransmitEnd]
  dsimp only
  rw [express]

theorem exec_frameTransmitEnd_normal {s : State} {p : Fin 8} {f : QFrame} (ecc : ReadEcc) (express : (s.sendingAt p).express = none)
    (normal : (s.sendingAt p).normal = some f) (runs : (s.sendingAt p).paused = false) :
    exec (.frameTransmitEnd p ecc) s =
      .next (((s.setSending p { s.sendingAt p with normal := none }).endFrame p false f ecc).spillCheck) := by
  show execFrameTransmitEnd p ecc s = _
  rw [execFrameTransmitEnd]
  dsimp only
  rw [express, normal]
  dsimp only
  rw [if_neg (by simp [runs])]

/-- A preemptable frame is paused while an express frame waits. -/
theorem exec_preemption {s : State} {p : Fin 4} (native : s.nativePort p = true) (on : s.flag (Reg.fpCfg p) 7 = true)
    (normal : (s.sendingAt p).normal.isSome = true) (runs : (s.sendingAt p).paused = false) (free : (s.sendingAt p).express = none)
    (waits : (s.headOf p 7).isSome = true ∨ (s.headOf p 6).isSome = true) :
    exec (.preemption p) s = .next ((s.setSending p { s.sendingAt p with paused := true }).bump (Reg.fpCntPreempt p)) := by
  refine congrArg Host.Outcome.next (if_pos ⟨native, on, normal, ?_, ?_, waits⟩)
  · simp [runs]
  · simp [free]

/-- The scheduler's picks of the strict classes (R283). -/
theorem State.pickClass_strict (s : State) (p : Nat) :
    ((s.headOf p 7).isSome = true → (s.pickClass p).1 = some 7) ∧
      ((s.headOf p 7).isSome = false → (s.headOf p 6).isSome = true → (s.pickClass p).1 = some 6) ∧
      ((s.headOf p 7).isSome = false → (s.headOf p 6).isSome = false → (s.headOf p 5).isSome = true → (s.pickClass p).1 = some 5) := by
  unfold State.pickClass
  refine ⟨fun h7 => ?_, fun n7 h6 => ?_, fun n7 n6 h5 => ?_⟩
  · rw [if_pos h7]
  · rw [if_neg (by simp [n7]), if_pos h6]
  · rw [if_neg (by simp [n7]), if_neg (by simp [n6]), if_pos h5]

/-- The quiet period of a hub that is up and not dying ends after 12 ms (R242, R481). -/
theorem exec_quietPeriodEnd {s : State} {q : Nat} (quiet : s.net.quiet = some q) (alive : s.pwr.dying = false) (seq : s.pwr.seq ≠ 3)
    (up : s.hubUp = true) (ended : s.passed q (msTclks 12) = true) :
    exec .quietPeriodEnd s = .next (s.setNet fun n => { n with quiet := none }) := by
  show execQuietPeriodEnd s = _
  rw [execQuietPeriodEnd, quiet]
  dsimp only
  rw [if_neg (by simp [alive, seq, up, ended])]

end Sys2Proof.Machine
end

section
/-! Copies that wait (R291, R292, R295), and the push-outs that a port has gathered (R288). -/

namespace Sys2Proof.Machine

/-! Copies. -/

theorem State.mirrorDrop_net (s : State) (i reason : Nat) : (s.mirrorDrop i reason).net = s.net :=
  (State.mirrorDrop_frame (P := fun p => p ∈ [Part.gathers, .regSwc] ++ Part.reports) (Frame.refl _ s) i reason (.of_coveredBy rfl)).net
    (by decide)

/-- A copy written leaves those that wait. -/
theorem State.writeCopy_copies (s : State) (c : PendingCopy) : (s.writeCopy c).net.copies = s.net.copies := by
  have admitted := (Admits.refl (Q := fun _ => True) s).admitAs (port := c.port) (f := c.frame) fun _ => trivial
  have kept : (s.admitAs c.port c.frame).2.net.copies = s.net.copies := admitted.field NetSt.copies fun _ => rfl
  unfold State.writeCopy
  generalize s.admitAs c.port c.frame = a at kept
  obtain ⟨answer, u⟩ := a
  dsimp only at kept ⊢
  split
  · rw [State.mirrorDrop_net, kept]
  · rw [State.mirrorDrop_net, kept]
  · exact kept

/-- The copies that wait, replaced. -/
def State.setCopies (s : State) (copies : List PendingCopy) : State := s.setNet fun n => { n with copies }

section Waiting

variable {s : State} {i : Nat} {c : PendingCopy} {rest : List PendingCopy} (plucked : pluck s.net.copies i = (some c, rest))
include plucked

theorem exec_copyWrite (due : nextCopy s.net.copies = some i) : exec .copyWrite s = .next ((s.setCopies rest).writeCopy c) := by
  show execCopyWrite s = _
  rw [execCopyWrite, due]
  dsimp only
  rw [plucked]
  rfl

theorem exec_replicationTimeout (further : c.session = none) (waited : s.passed c.since (usTclks s.replLimit) = true) :
    exec (.replicationTimeout i) s = .next (((s.setCopies rest).bump Reg.swcCntReplDrop).raise 0x20 1) := by
  show execReplicationTimeout i s = _
  rw [execReplicationTimeout, plucked]
  dsimp only
  rw [if_pos ⟨by simp [further], waited⟩]
  rfl

theorem exec_mirrorCopyTimeout {m : Nat} (session : c.session = some m) (waited : s.passed c.since (usTclks 1) = true) :
    exec (.mirrorCopyTimeout i) s = .next ((s.setCopies rest).mirrorDrop m 0) := by
  show execMirrorCopyTimeout i s = _
  rw [execMirrorCopyTimeout, plucked]
  dsimp only
  rw [session]
  dsimp only
  rw [if_pos waited]
  rfl

end Waiting

/-! Push-outs. -/

/-- A port whose spacing runs, or that has gathered nothing, posts nothing. -/
theorem exec_pushoutRepost (s : State) (p : Fin 8) :
    let x := Tab.get PushSt.init s.net.push p
    exec (.pushoutRepost p) s = .next (if s.spaced x.last = true ∨ x.evicted + x.dropped = 0 then s else s.pushPost p) := by
  intro x
  show execPushoutRepost p s = _
  rw [execPushoutRepost]
  simp only [Bool.or_eq_true, decide_eq_true_eq, x]

/-- What a port has gathered is posted, and its spacing begins. -/
theorem State.pushPost_spec (s : State) (port : Nat) :
    Tab.get PushSt.init (s.pushPost port).net.push port = (Tab.get PushSt.init s.net.push port).posted s.tclks ∧
      (s.pushPost port).Raised 0x21 0 := by
  constructor
  · rw [s.pushPost_net]
    simp only [Tab.get_set_same]
  · unfold State.pushPost
    extract_lets p u
    exact ((Reported.refl (W := fun _ => False) _).postAt _ _ _ _ _ _ _ _ _ _).raised (u.raise_raised 0x21 (by decide))

end Sys2Proof.Machine
end

section
/-! The overflow store and DDR4 (R284, R296–R301). -/

namespace Sys2Proof.Machine

/-! Migration (R297, R299). -/

/-- The state after a frame of a queue went to the store. -/
def State.migrated (s : State) (port cls : Nat) (q : List QFrame) : State :=
  let s := s.setQueue port cls q
  let s := (s.bump (Reg.bufCntSpilled cls)).setNet fun n => { n with spillMoved := n.spillMoved + 1 }
  if (s.rd Reg.bufStorePeak).toNat < s.storeUsed then s.wr Reg.bufStorePeak (w32 s.storeUsed) else s

/-- The state after a frame of a queue was dropped, the store being full. -/
def State.storeDropped (s : State) (port cls : Nat) (q : List QFrame) : State :=
  let s := (s.setQueue port cls q).bump Reg.bufCntStoreDrop
  if s.net.storeFull then s
  else
    let s := s.setNet fun n => { n with storeFull := true }
    (s.raise 0x21 3).post 0x4B .buf 0 0 (w32 s.storeCapacity) (s.rd Reg.bufCntStoreDrop) 0 0

section Migration

variable {s : State} {p : Fin 8} {c : Fin 5} {f : QFrame} (marked : (s.queue p c).find? (fun f => decide (f.place = .marked)) = some f)
include marked

theorem exec_migration_fits (room : s.storeUsed + f.cells ≤ s.storeCapacity) :
    exec (.migration p c) s = .next (s.migrated p c (onFirst (fun x => decide (x.place = Place.marked))
      (fun x => some { x with place := .stored }) (s.queue p c))).spillCheck := by
  show execMigration p c s = _
  have cls : (c : Nat) % 8 = c := by omega
  rw [execMigration]
  dsimp only
  rw [marked]
  dsimp only
  rw [if_pos room, cls]
  rfl

theorem exec_migration_full (full : s.storeCapacity < s.storeUsed + f.cells) :
    exec (.migration p c) s = .next (s.storeDropped p c (onFirst (fun x => decide (x.place = Place.marked))
      (fun _ => none) (s.queue p c))).spillCheck := by
  show execMigration p c s = _
  rw [execMigration]
  dsimp only
  rw [marked]
  dsimp only
  rw [if_neg (by omega)]
  rfl

end Migration

theorem State.migrated_spec (s : State) (port : Nat) {cls : Nat} (five : cls < 5) (q : List QFrame) :
    let t := (s.migrated port cls q).spillCheck
    t.queue port cls = q ∧ t.rd (Reg.bufCntSpilled cls) = satInc (s.rd (Reg.bufCntSpilled cls)) := by
  have irq : Reg.bufCntSpilled cls % 0x1000 ≠ 0x010 := by
    unfold Reg.bufCntSpilled pageKey
    omega
  have evq : Reg.bufCntSpilled cls / 0x1000 ≠ 0x24 := by
    unfold Reg.bufCntSpilled pageKey
    omega
  have peak : Reg.bufCntSpilled cls ≠ Reg.bufStorePeak := by
    unfold Reg.bufCntSpilled Reg.bufStorePeak pageKey
    omega
  dsimp only
  rw [State.spillCheck_queue, ((Reported.refl (W := fun _ => False) _).spillCheck).rd irq evq id]
  unfold State.migrated
  extract_lets queued moved
  have counted : moved.rd (Reg.bufCntSpilled cls) = satInc (s.rd (Reg.bufCntSpilled cls)) := queued.rd_bump_same _
  have held : moved.queue port cls = q := s.queue_setQueue_same port cls q
  split
  · exact ⟨held, (moved.rd_wr_ne _ peak).trans counted⟩
  · exact ⟨held, counted⟩

theorem State.storeDropped_spec (s : State) (port cls : Nat) (q : List QFrame) :
    let t := (s.storeDropped port cls q).spillCheck
    t.queue port cls = q ∧ t.rd Reg.bufCntStoreDrop = satInc (s.rd Reg.bufCntStoreDrop) ∧ t.net.storeFull = true := by
  obtain ⟨_, _, _, net⟩ := (s.storeDropped port cls q).spillCheck_net
  have full : (s.storeDropped port cls q).spillCheck.net.storeFull = (s.storeDropped port cls q).net.storeFull := by
    rw [net]
    rfl
  dsimp only
  rw [State.spillCheck_queue, ((Reported.refl (W := fun _ => False) _).spillCheck).rd (by decide) (by decide) id, full]
  unfold State.storeDropped
  extract_lets counted filled
  have hcounted : counted.rd Reg.bufCntStoreDrop = satInc (s.rd Reg.bufCntStoreDrop) := (s.setQueue port cls q).rd_bump_same _
  have held : counted.queue port cls = q := s.queue_setQueue_same port cls q
  split
  · next isFull => exact ⟨held, hcounted, isFull⟩
  · have touched := (filled.raise_touches 0x21 3).trans
      (State.post_touches _ 0x4B .buf 0 0 (w32 filled.storeCapacity) (filled.rd Reg.bufCntStoreDrop) 0 0)
    have reported := ((Reported.refl (W := fun _ => False) filled).raise 0x21 3).post 0x4B .buf 0 0 (w32 filled.storeCapacity)
      (filled.rd Reg.bufCntStoreDrop) 0 0
    have net := touched.net (by decide)
    refine ⟨?_, (reported.rd (by decide) (by decide) id).trans hcounted, ?_⟩
    · rw [State.queue, net]
      exact held
    · rw [net]
      rfl

/-! Frames read back (R298). -/

/-- A DDR4 error is reported, its counters and address lying on page DDR. -/
theorem State.ddrEcc_reported (s : State) (ecc : ReadEcc) : Reported (fun k => k / 0x1000 = 0x0B) s (s.ddrEcc ecc) := by
  have refl := Reported.refl (W := fun k => k / 0x1000 = 0x0B) s
  cases ecc with
  | clean => exact refl
  | corrected a y => exact (refl.bump (by decide) (by decide)).eccError _ _ _ _ _
  | uncorrectable a y =>
    exact ((((refl.bump (by decide) (by decide)).wr _ (by decide) (.inr (by decide))).wr _ (by decide) (.inr (by decide))).raise _ _).eccError
      _ _ _ _ _

/-- The address of an uncorrectable error held, and the error counted. -/
def State.ddrNoted (s : State) (n : Nat) : State :=
  ((s.bump Reg.ddrCntEccUncorr).wr Reg.ddrEccAddrLo (w32 n)).wr Reg.ddrEccAddrHi (w32 (n / 2 ^ 32))

theorem State.ddrEcc_uncorrectable_eq (s : State) (a y : Word) : s.ddrEcc (.uncorrectable a y) =
    ((s.ddrNoted (0x100000000 + 8 * a.toNat)).raise 0x0B 2).eccError 0x0B 0 true a y := rfl

theorem State.ddrNoted_counts (s : State) (n : Nat) : (s.ddrNoted n).rd Reg.ddrCntEccUncorr = satInc (s.rd Reg.ddrCntEccUncorr) := by
  rw [State.ddrNoted, State.rd_wr_ne _ _ (by decide), State.rd_wr_ne _ _ (by decide), State.rd_bump_same]

/-- An uncorrectable one is counted and raises bit 2. -/
theorem State.ddrEcc_uncorrectable (s : State) (a y : Word) :
    (s.ddrEcc (.uncorrectable a y)).rd Reg.ddrCntEccUncorr = satInc (s.rd Reg.ddrCntEccUncorr) ∧
      (s.ddrEcc (.uncorrectable a y)).Raised 0x0B 2 := by
  rw [State.ddrEcc_uncorrectable_eq]
  have counted := s.ddrNoted_counts (0x100000000 + 8 * a.toNat)
  generalize s.ddrNoted (0x100000000 + 8 * a.toNat) = u at counted
  have reported := (Reported.refl (W := fun _ => False) (u.raise 0x0B 2)).eccError 0x0B 0 true a y
  exact ⟨(reported.rd (by decide) (by decide) id).trans ((u.raise_rd_ne 2 (by decide)).trans counted),
    reported.raised (u.raise_raised 0x0B (by decide))⟩

theorem State.storeFullCheck_queue (s : State) (port cls : Nat) : s.storeFullCheck.queue port cls = s.queue port cls := by
  obtain ⟨_, net⟩ := s.storeFullCheck_net
  rw [State.queue, net]
  rfl

section Readback

variable {s : State} {p : Fin 8} {c : Fin 5} (stored : (s.queue p c).any (fun f => decide (f.place = .stored)) = true)
include stored

theorem exec_storeReadback_usable {ecc : ReadEcc} (usable : eccUsable ecc = true) :
    exec (.storeReadback p c ecc) s = .next ((s.ddrEcc ecc).setQueue p c (onFirst (fun x => decide (x.place = Place.stored))
      (fun x => some { x with place := Place.staged }) (s.queue p c))).storeFullCheck := by
  show execStoreReadback p c ecc s = _
  rw [execStoreReadback]
  dsimp only
  rw [if_pos stored]
  cases ecc with
  | clean => rfl
  | corrected a y => rfl
  | uncorrectable a y => cases usable

theorem exec_storeReadback_uncorrectable (a y : Word) :
    exec (.storeReadback p c (.uncorrectable a y)) s = .next (((s.ddrEcc (.uncorrectable a y)).bump Reg.bufCntEccDiscard).setQueue p c
      (onFirst (fun x => decide (x.place = Place.stored)) (fun _ => none) (s.queue p c))).storeFullCheck := by
  show execStoreReadback p c (.uncorrectable a y) s = _
  rw [execStoreReadback]
  dsimp only
  rw [if_pos stored]

end Readback

theorem State.readDiscarded_spec (s : State) (port cls : Nat) (q : List QFrame) (a y : Word) :
    let t := (((s.ddrEcc (.uncorrectable a y)).bump Reg.bufCntEccDiscard).setQueue port cls q).storeFullCheck
    t.queue port cls = q ∧ t.rd Reg.bufCntEccDiscard = satInc (s.rd Reg.bufCntEccDiscard) ∧
      t.rd Reg.ddrCntEccUncorr = satInc (s.rd Reg.ddrCntEccUncorr) ∧ t.Raised 0x0B 2 := by
  have kept : (s.ddrEcc (.uncorrectable a y)).rd Reg.bufCntEccDiscard = s.rd Reg.bufCntEccDiscard :=
    (s.ddrEcc_reported _).rd (by decide) (by decide) (by decide)
  obtain ⟨counted, raised⟩ := s.ddrEcc_uncorrectable a y
  generalize s.ddrEcc (.uncorrectable a y) = u at kept counted raised
  have discarded := (Reported.refl (W := (· = Reg.bufCntEccDiscard)) u).bump (by decide) rfl
  have ended := (((Reported.refl (W := fun _ => False) (u.bump Reg.bufCntEccDiscard)).setNet
    fun n => { n with queues := Tab.set [] n.queues (8 * port + cls) q })).storeFullCheck
  refine ⟨?_, ?_, ?_, ended.raised (discarded.raised raised)⟩
  · rw [State.storeFullCheck_queue]
    exact State.queue_setQueue_same _ port cls q
  · rw [← kept, ← u.rd_bump_same Reg.bufCntEccDiscard]
    exact ended.rd (by decide) (by decide) id
  · rw [← counted, ← discarded.rd (by decide) (by decide) (by decide)]
    exact ended.rd (by decide) (by decide) id

/-! The store's place and the marks of the buffer (R284, R296). -/

/-- CFG_ERR as it follows from the place of the store. -/
def State.placeChecked (s : State) : State :=
  s.setNet fun n => { n with bufCfgErr := !s.storeFits && decide (0 < s.fld Reg.bufStoreSize 0 13) }

theorem State.placeChecked_spec (s : State) :
    s.placeChecked.net.bufCfgErr = (!s.placeChecked.storeFits && decide (0 < s.placeChecked.fld Reg.bufStoreSize 0 13)) := rfl

theorem exec_storeCfgWrite {s : State} (size : Bool) (v : Word) (empty : s.storeUsed = 0) (ready : s.flag (Reg.status 0x0B) 0 = true) :
    exec (.storeCfgWrite size v) s = .next (if size then s.wr Reg.bufStoreSize (w32 (bits v 0 13))
      else s.wr Reg.bufStoreBase (w32 (bits v 0 12))).placeChecked :=
  congrArg Host.Outcome.next (if_pos ⟨empty, ready⟩)

theorem exec_storeCfgWrite_refused {s : State} (size : Bool) (v : Word) (refused : s.storeUsed ≠ 0 ∨ s.flag (Reg.status 0x0B) 0 = false) :
    exec (.storeCfgWrite size v) s = .next s :=
  congrArg Host.Outcome.next (if_neg fun ⟨empty, ready⟩ => refused.elim (· empty) fun notReady => by simp [notReady] at ready)

/-- Marks written in order: the register and CFG_ERR. -/
def State.marksTaken (s : State) (key : Nat) (v : Word) : State := ((s.wr key v).setNet fun n => { n with bufCfgErr := false }).spillCheck

theorem State.marksTaken_spec (s : State) {key : Nat} (irq : key % 0x1000 ≠ 0x010) (evq : key / 0x1000 ≠ 0x24) (v : Word) :
    (s.marksTaken key v).rd key = v ∧ (s.marksTaken key v).net.bufCfgErr = false := by
  unfold State.marksTaken
  constructor
  · rw [((Reported.refl (W := fun _ => False) _).spillCheck).rd irq evq id]
    exact s.rd_wr_same key v
  · obtain ⟨_, _, _, net⟩ := ((s.wr key v).setNet fun n => { n with bufCfgErr := false }).spillCheck_net
    rw [net]
    rfl

/-- A write of the marks, taken where SPILL_MARK > GEN_FLOOR > EXP_FLOOR holds after it. -/
theorem exec_bufMarksWrite (s : State) (spill : Bool) (v : Word) :
    exec (.bufMarksWrite spill v) s = .next (
      if (if spill then s.fld Reg.bufFloors 16 16 else bits v 16 16) < (if spill then bits v 16 16 else s.fld Reg.bufSpill 16 16) ∧
          (if spill then s.fld Reg.bufFloors 0 16 else bits v 0 16) < (if spill then s.fld Reg.bufFloors 16 16 else bits v 16 16)
      then s.marksTaken (if spill then Reg.bufSpill else Reg.bufFloors) v else s.setNet fun n => { n with bufCfgErr := true }) := rfl

/-! DDR4 trained (R301). -/

/-- STATUS after a training that failed at step `k`. -/
theorem trainFail_status (k : Fin 6) : bits (w32 (at_ 4 (k + 1) + 2)) 0 2 = 2 ∧ bits (w32 (at_ 4 (k + 1) + 2)) 4 4 = k + 1 := by
  revert k
  decide

theorem exec_ddrTrainingDone {s : State} (fail : Option (Fin 6)) (enabled : s.enabled 0x0B = true) (up : s.hubUp = true)
    (locked : setHas s.clk.unlocked 2 = false) :
    exec (.ddrTrainingDone fail) s = .next (match fail with
      | none => ((s.wr (Reg.status 0x0B) 1).raise 0x0B 0).storeRegionCheck
      | some k => (s.wr (Reg.status 0x0B) (w32 (at_ 4 (k + 1) + 2))).raise 0x0B 1) := by
  show execDdrTrainingDone fail s = _
  exact congrArg Host.Outcome.next (if_pos ⟨enabled, up, by simp [locked]⟩)

/-- The check of the store's place changes CFG_ERR alone, and sets it where the store does not fit. -/
theorem State.storeRegionCheck_spec (s : State) :
    (∃ b, s.storeRegionCheck = s.setNet fun n => { n with bufCfgErr := b }) ∧
      (s.storeFits = false → 0 < s.fld Reg.bufStoreSize 0 13 → s.storeRegionCheck.net.bufCfgErr = true) := by
  unfold State.storeRegionCheck
  split
  · exact ⟨⟨_, rfl⟩, fun _ _ => rfl⟩
  · next fits =>
    refine ⟨⟨s.net.bufCfgErr, rfl⟩, fun beyond sized => absurd ?_ fits⟩
    simp [beyond, sized]

end Sys2Proof.Machine
end

section
/-! What ports transmit, and what becomes of copies, push-outs and frames of the overflow store: O41. -/

namespace Sys2Proof.Machine

/-- A free port that is UP sends the head of the class picked, or discards it. -/
theorem exec_egressTransmitStart_spec {s u : State} (hu : s.pubFlush none = u) {p : Fin 8} {c : Nat} {f : QFrame} {rest : List QFrame}
    (up : u.portUp p = true) (express : (u.sendingAt p).express = none) (normal : (u.sendingAt p).normal = none)
    (picked : (u.pickClass p).1 = some c) (head : u.queue p c = f :: rest) :
    (∀ ecc, eccUsable ecc = true → ∃ t, exec (.egressTransmitStart p ecc) s = .next t ∧ t.queue p c = rest ∧
      (6 ≤ c → (t.sendingAt p).express = some (u.stamped p f)) ∧ (c < 6 → (t.sendingAt p).normal = some (u.stamped p f))) ∧
    (∀ a y, ∃ t, exec (.egressTransmitStart p (.uncorrectable a y)) s = .next t ∧ t.queue p c = rest ∧
      t.sendingAt p = u.sendingAt p ∧ t.rd Reg.bufCntEccDiscard = satInc (u.rd Reg.bufCntEccDiscard)) := by
  have run (ecc : ReadEcc) := exec_egressTransmitStart_free hu ecc up express normal picked
  have head' : (u.setNet fun n => { n with drr := Tab.set Drr.init n.drr p (u.pickClass p).2 }).queue p c = f :: rest := head
  refine ⟨fun ecc usable => ?_, fun a y => ⟨_, run _, State.startFrame_discards head' a y⟩⟩
  obtain ⟨queue, sending⟩ := State.startFrame_sends head' usable
  refine ⟨_, run ecc, queue, fun isExpress => ?_, fun isNormal => ?_⟩
  · rw [sending, if_pos isExpress]
    rfl
  · rw [sending, if_neg (Nat.not_le.mpr isNormal)]
    rfl

/-- A transmission that ends, its frame whole. -/
theorem exec_frameTransmitEnd_spec (s : State) (p : Fin 8) (f : QFrame) :
    ((s.sendingAt p).express = some f → ∃ t, exec (.frameTransmitEnd p .clean) s = .next t ∧
      (t.sendingAt p).express = none ∧ (t.sendingAt p).normal = (s.sendingAt p).normal.map (QFrame.settle (txMark p true) f.stomp) ∧
      (p.val < 4 → t.rd (Reg.fpCntTxFrames p) = satInc (s.rd (Reg.fpCntTxFrames p)))) ∧
    ((s.sendingAt p).express = none → (s.sendingAt p).normal = some f → (s.sendingAt p).paused = false →
      ∃ t, exec (.frameTransmitEnd p .clean) s = .next t ∧ (t.sendingAt p).normal = none ∧
        (p.val < 4 → t.rd (Reg.fpCntTxFrames p) = satInc (s.rd (Reg.fpCntTxFrames p)))) := by
  refine ⟨fun express => ?_, fun express normal runs => ?_⟩
  · obtain ⟨sending, counted⟩ := (s.setSending p { s.sendingAt p with express := none }).endFrame_clean p true f
    rw [State.sendingAt_setSending_same] at sending
    exact ⟨_, exec_frameTransmitEnd_express .clean express, by rw [sending]; rfl, by rw [sending]; rfl, counted⟩
  · obtain ⟨sending, counted⟩ := (s.setSending p { s.sendingAt p with normal := none }).endFrame_clean p false f
    rw [State.sendingAt_setSending_same] at sending
    exact ⟨_, exec_frameTransmitEnd_normal .clean express normal runs, by rw [sending]; rfl, counted⟩

/-- A write of the marks of the buffer, which holds where they stay in order. -/
theorem exec_bufMarksWrite_spec (s : State) (v : Word) :
    (bits v 16 16 < s.fld Reg.bufSpill 16 16 ∧ bits v 0 16 < bits v 16 16 →
      ∃ t, exec (.bufMarksWrite false v) s = .next t ∧ t.rd Reg.bufFloors = v ∧ t.net.bufCfgErr = false) ∧
    (¬ (bits v 16 16 < s.fld Reg.bufSpill 16 16 ∧ bits v 0 16 < bits v 16 16) →
      ∃ t, exec (.bufMarksWrite false v) s = .next t ∧ t.rd Reg.bufFloors = s.rd Reg.bufFloors ∧ t.net.bufCfgErr = true) ∧
    (s.fld Reg.bufFloors 16 16 < bits v 16 16 → s.fld Reg.bufFloors 0 16 < s.fld Reg.bufFloors 16 16 →
      ∃ t, exec (.bufMarksWrite true v) s = .next t ∧ t.rd Reg.bufSpill = v ∧ t.net.bufCfgErr = false) ∧
    (bits v 16 16 ≤ s.fld Reg.bufFloors 16 16 →
      ∃ t, exec (.bufMarksWrite true v) s = .next t ∧ t.rd Reg.bufSpill = s.rd Reg.bufSpill ∧ t.net.bufCfgErr = true) := by
  have floors := exec_bufMarksWrite s false v
  have spill := exec_bufMarksWrite s true v
  simp only [Bool.false_eq_true, if_false, if_true] at floors spill
  refine ⟨fun ordered => ?_, fun broken => ?_, fun above between => ?_, fun below => ?_⟩
  · exact ⟨_, floors.trans (congrArg Host.Outcome.next (if_pos ordered)), s.marksTaken_spec (by decide) (by decide) v⟩
  · exact ⟨_, floors.trans (congrArg Host.Outcome.next (if_neg broken)), rfl, rfl⟩
  · exact ⟨_, spill.trans (congrArg Host.Outcome.next (if_pos ⟨above, between⟩)), s.marksTaken_spec (by decide) (by decide) v⟩
  · exact ⟨_, spill.trans (congrArg Host.Outcome.next (if_neg fun ordered => Nat.not_lt.mpr below ordered.1)), rfl, rfl⟩

/-- A training of DDR4 that is done: READY, or TRAIN_FAIL with its step. -/
theorem exec_ddrTrainingDone_spec {s : State} (enabled : s.enabled 0x0B = true) (up : s.hubUp = true)
    (locked : setHas s.clk.unlocked 2 = false) :
    (∃ t, exec (.ddrTrainingDone none) s = .next t ∧ t.rd (Reg.status 0x0B) = 1 ∧ t.Raised 0x0B 0 ∧
      (t.storeFits = false → 0 < t.fld Reg.bufStoreSize 0 13 → t.net.bufCfgErr = true)) ∧
    (∀ k : Fin 6, ∃ t, exec (.ddrTrainingDone (some k)) s = .next t ∧ bits (t.rd (Reg.status 0x0B)) 0 2 = 2 ∧
      bits (t.rd (Reg.status 0x0B)) 4 4 = k + 1 ∧ t.Raised 0x0B 1) := by
  have noted (w : Word) (b : Nat) : ((s.wr (Reg.status 0x0B) w).raise 0x0B b).rd (Reg.status 0x0B) = w := by
    rw [State.raise_rd_ne _ _ (by decide), State.rd_wr_same]
  constructor
  · have ready := noted 1 0
    have raised := (s.wr (Reg.status 0x0B) 1).raise_raised 0x0B (b := 0) (by decide)
    have run := exec_ddrTrainingDone none enabled up locked
    dsimp only at run
    generalize (s.wr (Reg.status 0x0B) 1).raise 0x0B 0 = u at ready raised run
    obtain ⟨⟨b, only⟩, unfit⟩ := u.storeRegionCheck_spec
    refine ⟨_, run, ?_, ?_, fun beyond sized => unfit ?_ ?_⟩
    · rw [only]
      exact ready
    · rw [only]
      exact raised
    · rw [only] at beyond
      exact beyond
    · rw [only] at sized
      exact sized
  · intro k
    obtain ⟨state, step⟩ := trainFail_status k
    exact ⟨_, exec_ddrTrainingDone (some k) enabled up locked, by rw [noted]; exact state, by rw [noted]; exact step,
      State.raise_raised _ 0x0B (by decide)⟩

/-- Settles O41: each command is reduced to the one update that its case makes, and what that update leaves is a fact of the update. -/
theorem framesAreTransmittedCopiedAndStored : Obligations.FramesAreTransmittedCopiedAndStored := by
  unfold Obligations.FramesAreTransmittedCopiedAndStored
  refine ⟨⟨fun s p c f rest => ?_, State.pickClass_strict, fun s p ecc f => ?_, exec_frameTransmitEnd_spec,
    fun s p native on normal runs free waits => ?_, fun s q quiet alive seq up ended => ?_⟩,
    fun s i c rest plucked => ⟨fun due => ?_, fun further waited => ?_, fun m session waited => ?_⟩, fun s p => ?_,
    fun s p c f marked => ⟨fun room => ?_, fun full => ?_⟩, fun s p c stored => ⟨fun ecc usable => ?_, fun a y => ?_⟩,
    fun s v empty ready => ?_, fun s size v refused => exec_storeCfgWrite_refused size v refused, exec_bufMarksWrite_spec,
    fun s enabled up locked => exec_ddrTrainingDone_spec enabled up locked⟩
  · intro u up express normal picked head
    exact exec_egressTransmitStart_spec rfl up express normal picked head
  · intro u up express normal paused no7 no6
    exact ⟨_, exec_egressTransmitStart_paused rfl ecc up express (by rw [normal]; rfl) paused no7 no6, u.sendingAt_setSending_same p _⟩
  · exact ⟨_, exec_preemption native on normal runs free waits, s.sendingAt_setSending_same p _, State.rd_bump_same _ _⟩
  · exact ⟨_, exec_quietPeriodEnd quiet alive seq up ended, rfl⟩
  · exact ⟨_, exec_copyWrite plucked due, State.writeCopy_copies _ c⟩
  · refine ⟨_, exec_replicationTimeout plucked further waited, ?_, ?_, State.raise_raised _ 0x20 (by decide)⟩
    · rw [(State.raise_touches _ 0x20 1).net (by decide)]
      rfl
    · rw [State.raise_rd_ne _ _ (by decide)]
      exact (s.setCopies rest).rd_bump_same _
  · exact ⟨_, exec_mirrorCopyTimeout plucked session waited, by rw [State.mirrorDrop_net]; rfl⟩
  · intro x
    have run := exec_pushoutRepost s p
    refine ⟨fun held => run.trans (congrArg Host.Outcome.next (if_pos held)), fun free gathered => ⟨_, run.trans ?_, s.pushPost_spec p⟩⟩
    exact congrArg Host.Outcome.next (if_neg fun held => held.elim (fun spaced => Bool.false_ne_true (free.symm.trans spaced)) gathered)
  · exact ⟨_, exec_migration_fits marked room, s.migrated_spec p c.isLt _⟩
  · exact ⟨_, exec_migration_full marked full, s.storeDropped_spec p c _⟩
  · refine ⟨_, exec_storeReadback_usable stored usable, ?_⟩
    rw [State.storeFullCheck_queue, State.queue_setQueue_same]
  · exact ⟨_, exec_storeReadback_uncorrectable stored a y, s.readDiscarded_spec p c _ a y⟩
  · refine ⟨⟨_, exec_storeCfgWrite true v empty ready, ?_, State.placeChecked_spec _⟩,
      _, exec_storeCfgWrite false v empty ready, ?_, State.placeChecked_spec _⟩
    · exact s.rd_wr_same Reg.bufStoreSize _
    · exact s.rd_wr_same Reg.bufStoreBase _

end Sys2Proof.Machine
end

section
/-! What admission leaves of the RING page and of the numbers of frames (R237, R284–R286), and the frames that the RING block sends
(R262, R263, R265, R274). -/

namespace Sys2Proof.Machine

/-- From `s` to `t` frames were admitted or pushed out: no number of a frame was taken, and of the RING page IRQ_PEND alone may have changed. -/
structure Queued (s t : State) : Prop where
  seqs : t.net.seqs = s.net.seqs
  rd : ∀ {k}, k / 0x1000 = 0x2E → k % 0x1000 ≠ 0x010 → t.rd k = s.rd k

namespace Queued

variable {s0 s t : State}

theorem refl (s : State) : Queued s s := ⟨rfl, fun _ _ => rfl⟩

theorem trans (h : Queued s0 s) (h' : Queued s t) : Queued s0 t :=
  ⟨h'.seqs.trans h.seqs, fun page irq => (h'.rd page irq).trans (h.rd page irq)⟩

/-- An update that reports, and leaves the numbers of frames. -/
theorem aside (h : Queued s0 s) (reported : Reported (fun _ => False) s t) (seqs : t.net.seqs = s.net.seqs) : Queued s0 t :=
  h.trans ⟨seqs, fun page irq => reported.rd irq (by omega) id⟩

/-- The network changed but for the numbers of frames. -/
theorem setNet (h : Queued s0 s) {f : NetSt → NetSt} (seqs : (f s.net).seqs = s.net.seqs) : Queued s0 (s.setNet f) :=
  h.aside ((Reported.refl s).setNet f) seqs

/-- A counter of another page. -/
theorem bump (h : Queued s0 s) {page off : Nat} (direct : off < 0x1000) (other : page ≠ 0x2E) : Queued s0 (s.bump (pageKey page off)) := by
  refine h.trans ⟨rfl, fun ring _ => State.rd_bump_ne _ ?_⟩
  rintro rfl
  unfold pageKey at ring
  omega

theorem spillCheck (h : Queued s0 s) : Queued s0 s.spillCheck := by
  obtain ⟨_, _, _, net⟩ := s.spillCheck_net
  exact h.aside (Reported.refl s).spillCheck (by rw [net]; rfl)

theorem pushPost (h : Queued s0 s) (port : Nat) : Queued s0 (s.pushPost port) :=
  h.aside ((Reported.refl s).pushPost port) (by rw [s.pushPost_net port])

theorem notePush (h : Queued s0 s) (port evicted dropped lastOut lastIn : Nat) : Queued s0 (s.notePush port evicted dropped lastOut lastIn) := by
  unfold State.notePush
  split
  · exact h
  · extract_lets -merge old first noted u
    have hu : Queued s0 u := h.setNet rfl
    split
    · exact hu
    · exact hu.pushPost port

theorem evictOne (h : Queued s0 s) {port lim c : Nat} {t : State} (e : s.evictOne port lim = some (c, t)) : Queued s0 t := by
  unfold State.evictOne at e
  obtain ⟨c, -, evicted⟩ := Option.map_eq_some_iff.mp e
  obtain ⟨-, rfl⟩ := Prod.mk.inj evicted
  have queued : Queued s0 (s.setQueue port c (dropNewest (s.queue port c))) := h.setNet rfl
  exact queued.bump (by omega) (by decide)

theorem evictWhile (h : Queued s0 s) (port lim : Nat) (more : State → Bool) (n : Nat) : Queued s0 (s.evictWhile port lim more n).2.2 := by
  induction n generalizing s with
  | zero => exact h
  | succ n ih =>
    unfold State.evictWhile
    split
    · split
      · exact h
      · exact ih (h.evictOne ‹_›)
    · exact h

theorem pushForShare (h : Queued s0 s) (port cls k : Nat) : Queued s0 (s.pushForShare port cls k).2 := by
  unfold State.pushForShare
  extract_lets tooFull
  split
  · exact h
  · split
    · exact (h.evictWhile _ _ _ _).notePush _ _ _ _ _
    · exact h

theorem pushForCells (h : Queued s0 s) (port cls k : Nat) : Queued s0 (s.pushForCells port cls k) := by
  unfold State.pushForCells
  split
  · exact h
  · exact List.foldlRecOn _ _ h fun u hu p _ => (hu.evictWhile _ _ _ _).notePush _ _ _ _ _

theorem dropFrame (h : Queued s0 s) (port cls : Nat) {page off : Nat} (direct : off < 0x1000) (other : page ≠ 0x2E) :
    Queued s0 (s.dropFrame port cls (pageKey page off)) :=
  (h.bump direct other).notePush _ _ _ _ _

theorem enqueue (h : Queued s0 s) (port : Nat) (f : QFrame) : Queued s0 (s.enqueue port f) := (h.setNet rfl).spillCheck

/-- Of the ports, SP4–SP7 are always UP and count no frame as discarded for a port down. -/
theorem takeFrame (h : Queued s0 s) (port : Nat) (f : QFrame) : Queued s0 (s.takeFrame port f) := by
  unfold State.takeFrame State.admitAs
  extract_lets g
  split
  · next down =>
    have fabric : port < 4 := by
      by_contra sp
      simp [State.portUp, Nat.not_lt.mp sp] at down
    exact h.bump (by decide) (by omega)
  · split
    · exact h.dropFrame _ _ (by omega) (by decide)
    · have shared := h.pushForShare port g.cls g.cells
      generalize s.pushForShare port g.cls g.cells = pushed at shared
      obtain ⟨room, u⟩ := pushed
      dsimp only at shared ⊢
      split
      · exact shared.dropFrame _ _ (by omega) (by decide)
      · have freed : Queued s0 (if u.freeCells < g.cells then u.pushForCells port g.cls g.cells else u) := by
          split
          · exact shared.pushForCells _ _ _
          · exact shared
        generalize (if u.freeCells < g.cells then u.pushForCells port g.cls g.cells else u) = v at freed ⊢
        split
        · exact freed.dropFrame _ _ (by omega) (by decide)
        · exact freed.enqueue _ _

end Queued

/-! Frames of ring management (R237, R262). -/

theorem State.takeFrame_ring (s : State) (port : Nat) (f : QFrame) : (s.takeFrame port f).ring = s.ring :=
  ((SendsAlike.refl s).takeFrame port f).ring

theorem State.ringPort_congr {s t : State} (cfg : t.rd Reg.ringCfg = s.rd Reg.ringCfg) (p : Nat) : t.ringPort p = s.ringPort p := by
  unfold State.ringPort State.coupler State.prpOn State.ringMode State.flag State.fld
  rw [cfg]

/-- A frame of ring management takes a number of class 6 and goes to both ports of its side; the mirror sessions do not see it enter. -/
theorem State.originateRing_eq {s : State} {side : Nat} (may : s.mayOriginate side = true) (dst : Nat) (group : Bool)
    (body : Nat → List Byte) (ingress : Nat) :
    ∃ f g, s.originateTwo side 6 7 dst group body ingress = ((s.takeSeq 6).2.takeFrame side f).takeFrame (side + 1) g :=
  ⟨_, _, by unfold State.originateTwo; rw [may]; rfl⟩

theorem State.originateRing_seq {s : State} {side : Nat} (may : s.mayOriginate side = true) (dst : Nat) (group : Bool)
    (body : Nat → List Byte) (ingress : Nat) :
    Tab.get 0 (s.originateTwo side 6 7 dst group body ingress).net.seqs 6 = (Tab.get 0 s.net.seqs 6 + 1) % 65536 := by
  obtain ⟨f, g, sent⟩ := State.originateRing_eq may dst group body ingress
  rw [sent, (((Queued.refl _).takeFrame side f).takeFrame (side + 1) g).seqs]
  exact Tab.get_set_same

/-- A frame of ring management changes neither the rings nor a register of the RING page other than IRQ_PEND. -/
theorem State.originateRing_kept (s : State) (side dst : Nat) (group : Bool) (body : Nat → List Byte) (ingress : Nat) :
    let t := s.originateTwo side 6 7 dst group body ingress
    t.ring = s.ring ∧ ∀ {k}, k / 0x1000 = 0x2E → k % 0x1000 ≠ 0x010 → t.rd k = s.rd k := by
  intro t
  cases may : s.mayOriginate side
  · have stays : t = s := if_pos (by rw [may]; rfl)
    rw [stays]
    exact ⟨rfl, fun _ _ => rfl⟩
  · obtain ⟨f, g, sent⟩ := State.originateRing_eq may dst group body ingress
    have hsent : t = ((s.takeSeq 6).2.takeFrame side f).takeFrame (side + 1) g := sent
    rw [hsent]
    exact ⟨(State.takeFrame_ring _ _ _).trans (State.takeFrame_ring _ _ _), fun page irq =>
      (((Queued.refl (s.takeSeq 6).2).takeFrame side f).takeFrame (side + 1) g).rd page irq⟩

/-! NEIGHBOUR (R263). -/

/-- A port that is a ring port and UP sends its NEIGHBOUR. -/
def State.neighbourOut (s : State) (p : Nat) : State :=
  if s.ringPort p && s.portUp p then s.sendLinkLocal p 7 (s.mgmtBody 1 p p 0 0) else s

theorem exec_neighbourSend_due {s : State} (due : s.sendDue s.ring.neighbourAt (msTclks 1) = true) :
    exec .neighbourSend s =
      .next ((upFrom 0 4).foldl State.neighbourOut (s.setRing fun r => { r with neighbourAt := some s.tclks })) :=
  congrArg Host.Outcome.next (if_pos due)

theorem exec_neighbourSend_early {s : State} (early : s.sendDue s.ring.neighbourAt (msTclks 1) = false) :
    exec .neighbourSend s = .next s :=
  congrArg Host.Outcome.next (if_neg (by rw [early]; decide))

theorem State.neighbourOut_idle {s : State} {p : Nat} (idle : s.ringPort p = false ∨ s.portUp p = false) : s.neighbourOut p = s :=
  if_neg (by obtain h | h := idle <;> simp [h])

theorem State.sendLinkLocal_ring (s : State) (p : Nat) (body : List Byte) : ∃ f, s.sendLinkLocal p 7 body = s.takeFrame p f :=
  ⟨_, if_neg fun unsent => unsent.2 rfl⟩

/-- A NEIGHBOUR frame makes no port a ring port, and moves no link. -/
theorem State.neighbourOut_idle_iff (s : State) (p q : Nat) :
    ((s.neighbourOut p).ringPort q = false ∨ (s.neighbourOut p).portUp q = false) ↔ (s.ringPort q = false ∨ s.portUp q = false) := by
  unfold State.neighbourOut
  split
  · obtain ⟨f, sent⟩ := s.sendLinkLocal_ring p (s.mgmtBody 1 p p 0 0)
    rw [sent, State.ringPort_congr (((Queued.refl s).takeFrame p f).rd (by decide) (by decide)), (s.takeFrame_admits p f).portUp]
  · rfl

theorem State.foldl_neighbourOut_idle {s : State} {l : List Nat} (idle : ∀ q ∈ l, s.ringPort q = false ∨ s.portUp q = false) :
    l.foldl State.neighbourOut s = s := by
  induction l with
  | nil => rfl
  | cons q l ih =>
    rw [List.foldl_cons, State.neighbourOut_idle (idle q List.mem_cons_self)]
    exact ih fun r listed => idle r (List.mem_cons_of_mem q listed)

/-- Of ports in turn, one alone sends. -/
theorem State.foldl_neighbourOut_one {s : State} {p : Nat} {l : List Nat} (once : l.Nodup) (listed : p ∈ l)
    (idle : ∀ q ∈ l, q ≠ p → s.ringPort q = false ∨ s.portUp q = false) : l.foldl State.neighbourOut s = s.neighbourOut p := by
  induction l with
  | nil => exact absurd listed List.not_mem_nil
  | cons q l ih =>
    obtain ⟨fresh, once⟩ := List.nodup_cons.mp once
    by_cases same : q = p
    · subst same
      refine State.foldl_neighbourOut_idle fun r later => (s.neighbourOut_idle_iff q r).mpr ?_
      exact idle r (List.mem_cons_of_mem q later) fun again => fresh (again ▸ later)
    · rw [List.foldl_cons, State.neighbourOut_idle (idle q List.mem_cons_self same)]
      exact ih once ((List.mem_cons.mp listed).resolve_left (Ne.symm same)) fun r later => idle r (List.mem_cons_of_mem q later)

/-- With one ring port UP, a due NEIGHBOUR goes out of it. -/
theorem exec_neighbourSend_one {s : State} {p : Nat} (port : p < 4) (ring : s.ringPort p = true) (up : s.portUp p = true)
    (others : ∀ q, q < 4 → q ≠ p → s.ringPort q = false ∨ s.portUp q = false)
    (due : s.sendDue s.ring.neighbourAt (msTclks 1) = true) :
    let u := s.setRing fun r => { r with neighbourAt := some s.tclks }
    exec .neighbourSend s = .next (u.sendLinkLocal p 7 (u.mgmtBody 1 p p 0 0)) := by
  intro u
  have ring' : u.ringPort p = true := ring
  have up' : u.portUp p = true := up
  have sends : u.neighbourOut p = u.sendLinkLocal p 7 (u.mgmtBody 1 p p 0 0) := if_pos (by rw [ring', up']; rfl)
  have listed {q : Nat} : q ∈ upFrom 0 4 ↔ q < 4 := by
    simp only [upFrom, List.mem_cons, List.not_mem_nil, or_false]
    omega
  rw [exec_neighbourSend_due due, ← sends]
  exact congrArg Host.Outcome.next (State.foldl_neighbourOut_one (by decide) (listed.mpr port) fun q hq other => others q (listed.mp hq) other)

end Sys2Proof.Machine
end

section
/-! A side of the ring, and the events of the RING page (R258–R261, R264, R276): what a change of one side, a record and an ID taken out of
use leave. -/

namespace Sys2Proof.Machine

/-! A side. -/

@[simp] theorem State.ringSide_setSide_same (s : State) (p : Nat) (f : RingSide → RingSide) :
    (s.setSide p f).ringSide p = f (s.ringSide p) := by
  by_cases h : p < 2 <;> simp [State.setSide, State.ringSide, State.setRing, h]

/-- Two ports of one side. -/
theorem State.ringSide_congr (s : State) {p q : Nat} (h : p < 2 ↔ q < 2) : s.ringSide p = s.ringSide q := by
  unfold State.ringSide
  simp only [h]

theorem State.ringSide_of_ring {s t : State} (h : t.ring = s.ring) (p : Nat) : t.ringSide p = s.ringSide p := by
  unfold State.ringSide
  rw [h]

/-- The first port of the home ring, or of a coupler's far ring (R267). -/
abbrev sidePort (far : Bool) : Nat := if far then 2 else 0

theorem State.ringSide_sidePort (s : State) (far : Bool) : s.ringSide (sidePort far) = if far then s.ring.far else s.ring.home := by
  cases far <;> rfl

theorem State.sideActive_sidePort (s : State) (far : Bool) : s.sideActive (sidePort far) = (s.ringSide (sidePort far)).active := by
  cases far <;> rfl

/-! Records of the RING block. -/

section Record

variable (s : State) (ty irq flags : Nat) (w4 w5 w6 w7 : Word)

theorem State.ringPost_touches : Frame (fun p => p ∈ Part.reports) s (s.ringPost ty irq flags w4 w5 w6 w7) :=
  (s.raise_touches 0x2E irq).trans (State.post_touches _ _ _ _ _ _ _ _ _)

@[simp] theorem State.ringPost_ring : (s.ringPost ty irq flags w4 w5 w6 w7).ring = s.ring :=
  (s.ringPost_touches ty irq flags w4 w5 w6 w7).ring (by decide)

theorem State.ringPost_reported {W : Nat → Prop} : Reported W s (s.ringPost ty irq flags w4 w5 w6 w7) :=
  ((Reported.refl s).raise _ _).post _ _ _ _ _ _ _ _

theorem State.ringPost_raised {irq : Nat} (low : irq < 32) : (s.ringPost ty irq flags w4 w5 w6 w7).Raised 0x2E irq :=
  ((Reported.refl (W := fun _ => False) (s.raise 0x2E irq)).post _ _ _ _ _ _ _ _).raised (s.raise_raised 0x2E low)

end Record

theorem Reported.setSide {W : Nat → Prop} {s0 s : State} (h : Reported W s0 s) (p : Nat) (f : RingSide → RingSide) :
    Reported W s0 (s.setSide p f) := h.same rfl rfl

theorem Reported.setRing {W : Nat → Prop} {s0 s : State} (h : Reported W s0 s) (f : RingSt → RingSt) : Reported W s0 (s.setRing f) :=
  h.same rfl rfl

/-! A failed check of the RING block (R262, R265). -/

/-- A failed check of the RING page, with its interrupt bit. -/
def State.ringFail (s : State) (check item : Nat) (value : Word) (counter : Nat) : State :=
  (s.raise 0x2E 4).qualFail 0x2E check item value counter

/-- A failure is counted and leaves bit 4 of the page, and nothing of the rings or the network changes. -/
theorem State.ringFail_spec (s : State) (check item : Nat) (value : Word) {counter : Nat} (irq : counter % 0x1000 ≠ 0x010)
    (ring : counter / 0x1000 = 0x2E) :
    let t := s.ringFail check item value counter
    Reported (fun k => k = counter) s t ∧ t.rd counter = satInc (s.rd counter) ∧ t.Raised 0x2E 4 ∧ t.ring = s.ring ∧ t.net = s.net := by
  intro t
  obtain ⟨reported, counted⟩ := (s.raise 0x2E 4).qualFail_counts 0x2E check item value irq (by omega)
  have other : (s.raise 0x2E 4).rd counter = s.rd counter := s.raise_rd_ne 4 (by unfold Reg.irqPend pageKey; omega)
  have failed := State.qualFail_frame (P := fun p => p ∈ .regAny :: Part.failed) (Frame.refl _ (s.raise 0x2E 4)) 0x2E check item value counter
    ⟨.regAny, by decide, _, List.mem_singleton.mpr rfl, trivial⟩ (.of_coveredBy rfl)
  exact ⟨((Reported.refl s).raise _ _).trans reported, counted.trans (congrArg satInc other), reported.raised (s.raise_raised _ (by decide)),
    (failed.ring (by decide)).trans ((s.raise_touches 0x2E 4).ring (by decide)),
    (failed.net (by decide)).trans ((s.raise_touches 0x2E 4).net (by decide))⟩

/-! An ID taken out of use (R259). -/

/-- The side is OPEN, its ID neither active nor pending; of the registers the home ID's NODE_ID alone changes, to 0. -/
theorem State.idDrop_spec (s : State) (far : Bool) :
    let t := s.idDrop far
    let r := t.ringSide (sidePort far)
    r.st = 0 ∧ r.active = false ∧ r.idPending = false ∧ Reported (fun k => k = Reg.ringNodeId) s t ∧
      (far = false → t.nodeId = 0) := by
  unfold State.idDrop
  extract_lets port told dropped
  have reported : Reported (fun k => k = Reg.ringNodeId) s dropped :=
    (Reported.ite (fun _ => .refl s) fun _ => s.ringPost_reported _ _ _ _ _ _ _).setSide port _
  have side : dropped.ringSide port = { (told.ringSide port).open told.tclks with active := false, idPending := false } :=
    told.ringSide_setSide_same port _
  cases far
  · have kept : (dropped.wr Reg.ringNodeId 0).ringSide port = dropped.ringSide port := rfl
    refine ⟨?_, ?_, ?_, reported.wr 0 (by decide) (.inr rfl), fun _ => ?_⟩
    · exact congrArg RingSide.st (kept.trans side)
    · exact congrArg RingSide.active (kept.trans side)
    · exact congrArg RingSide.idPending (kept.trans side)
    · exact congrArg (bits · 0 16) (dropped.rd_wr_same Reg.ringNodeId 0)
  · exact ⟨congrArg RingSide.st side, congrArg RingSide.active side, congrArg RingSide.idPending side, reported, nofun⟩

end Sys2Proof.Machine
end

section
/-! The node's IDs (R258, R259, R261, R267), SUPERVISION (R263, R264) and the supervision of HSR and PRP (R274), and O42. -/

namespace Sys2Proof.Machine

/-! ID_CFG and FAR_ID (R258, R259). -/

/-- The register that gives an ID. -/
abbrev idKey (far : Bool) : Nat := if far then Reg.ringFarId else Reg.ringIdCfg

/-- The bits of a write that the register of an ID stores. -/
abbrev idStored (far : Bool) (v : Word) : Word := v &&& (if far then 0x8000FFFF#32 else 0xC000FFFF#32)

theorem bit_idStored (far : Bool) (v : Word) : bit (idStored far v) 31 = bit v 31 := by
  have valid : bit (if far then 0x8000FFFF#32 else 0xC000FFFF#32) 31 = true := by cases far <;> decide
  rw [bit_and, valid, Bool.and_true]

/-- An ID written valid waits for its activation, its conflicts forgotten. -/
def State.idPend (s : State) (far : Bool) : State :=
  (s.setSide (sidePort far) fun r => { r with withdrawn := false, idPending := true, pendAt := s.tclks }).setRing fun r =>
    if far then { r with farConflicts := [] } else { r with conflicts := [] }

theorem State.idWrite_eq (s : State) (far : Bool) (v : Word) :
    s.idWrite far v =
      if s.flag (idKey far) 31 then (if bit v 31 then s else (s.wr (idKey far) (idStored far v)).idDrop far)
      else if bit v 31 then (s.wr (idKey far) (idStored far v)).idPend far else s.wr (idKey far) (idStored far v) := by
  rw [← bit_idStored far v]
  cases far <;> rfl

theorem State.idPend_spec (s : State) (far : Bool) :
    let t := s.idPend far
    let r := t.ringSide (sidePort far)
    r.idPending = true ∧ r.withdrawn = false ∧ r.pendAt = s.tclks ∧ (if far then t.ring.farConflicts else t.ring.conflicts) = [] ∧
      t.regs = s.regs := by
  cases far <;> exact ⟨rfl, rfl, rfl, rfl, rfl⟩

/-- A write of ID_CFG or FAR_ID. -/
theorem State.idWrite_written (s : State) (far : Bool) (v : Word) : s.IdWritten (s.idWrite far v) far v := by
  have key : idKey far ≠ Reg.ringNodeId ∧ idKey far % 0x1000 ≠ 0x010 ∧ idKey far / 0x1000 ≠ 0x24 := by cases far <;> decide
  unfold State.IdWritten
  simp only [← State.ringSide_sidePort]
  rw [State.idWrite_eq]
  refine ⟨fun valid stays => ?_, fun valid leaves => ?_, fun free valid => ?_, fun free none => ?_⟩
  · rw [if_pos valid, if_pos stays]
  · rw [if_pos valid, if_neg (by rw [leaves]; decide)]
    obtain ⟨st, active, pending, reported, node⟩ := (s.wr (idKey far) (idStored far v)).idDrop_spec far
    exact ⟨active, pending, st, (reported.rd key.2.1 key.2.2 key.1).trans (s.rd_wr_same _ _), node⟩
  · rw [if_neg (by rw [free]; decide), if_pos valid]
    obtain ⟨pending, withdrawn, at_, conflicts, regs⟩ := (s.wr (idKey far) (idStored far v)).idPend_spec far
    exact ⟨pending, withdrawn, at_, conflicts, (State.rd_congr regs _).trans (s.rd_wr_same _ _)⟩
  · rw [if_neg (by rw [free]; decide), if_neg (by rw [none]; decide)]
    exact ⟨rfl, s.rd_wr_same _ _⟩

/-! ID_ACTIVATE (R258, R259). -/

/-- The ID that its register gives is in use. -/
def State.idActivated (s : State) (far : Bool) : State :=
  s.setSide (sidePort far) fun r => { r with active := true, idPending := false, id := BitVec.ofNat 16 (s.idConfigured far) }

theorem exec_idActivate_home {s : State} (pending : s.ring.home.idPending = true)
    (waited : s.passed s.ring.home.pendAt (msTclks 12) = true) :
    exec (.idActivate false) s = .next (((s.idActivated false).wr Reg.ringNodeId (w32 (s.idConfigured false))).pubDying 0) :=
  congrArg Host.Outcome.next (if_pos ⟨pending, waited⟩)

theorem exec_idActivate_far {s : State} (pending : s.ring.far.idPending = true)
    (waited : s.passed s.ring.far.pendAt (msTclks 12) = true) : exec (.idActivate true) s = .next (s.idActivated true) :=
  congrArg Host.Outcome.next (if_pos ⟨pending, waited⟩)

theorem State.idConfigured_home_lt (s : State) : s.idConfigured false < 2 ^ 16 := by
  have ring := bits_lt (s.rd Reg.ringIdCfg) 8 8
  have node : (if bit (s.rd Reg.ringIdCfg) 30 then bits (s.rd Reg.ringIdCfg) 0 8 else s.fld Reg.ringStrap 0 8) < 2 ^ 8 := by
    split
    · exact bits_lt _ _ _
    · exact bits_lt _ _ _
  show 256 * bits (s.rd Reg.ringIdCfg) 8 8 + (if bit (s.rd Reg.ringIdCfg) 30 then bits (s.rd Reg.ringIdCfg) 0 8 else s.fld Reg.ringStrap 0 8) < _
  omega

theorem bits_w32_low {n w : Nat} (fits : n < 2 ^ w) (low : w ≤ 32) : bits (w32 n) 0 w = n := by
  have word : n < 2 ^ 32 := fits.trans_le (Nat.pow_le_pow_right (by decide) low)
  rw [bits, w32, BitVec.toNat_ofNat, Nat.mod_eq_of_lt word, Nat.shiftRight_zero, Nat.mod_eq_of_lt fits]

/-- NODE_ID is in no group of registers that a signal sent changes. -/
theorem Part.sigSent_away {p : Part} (hp : decide (p ∈ .pubs :: .pubOpen :: Part.sigSent) = true) :
    ∀ f, f ∈ p.banks → Away (· = Reg.ringNodeId) f := by
  cases p <;> (try cases hp)
  all_goals
    delta Part.banks
    simp only [List.forall_mem_cons, List.not_mem_nil, false_implies, implies_true, and_true]
  all_goals
    and_intros
    all_goals first
      | refine Away.one ?_ | refine Away.all fun i => ?_ | refine Away.below fun i hi => ?_
    all_goals first
      | (show ¬ _ * 0x1000 + _ = 0x2E054; omega)
      | (show ¬ _ + _ * 0x1000000 + _ = 0x2E054; omega)

/-- The DYING signal published changes neither the rings nor the node's ID. -/
theorem State.pubDying_kept (s : State) (v : Nat) : (s.pubDying v).ring = s.ring ∧ (s.pubDying v).nodeId = s.nodeId := by
  have touched : Frame (fun p => p ∈ .pubs :: .pubOpen :: Part.sigSent) s (s.pubDying v) :=
    State.pubDying_frame (Frame.refl _ s) v (.of_coveredBy rfl)
  have node : (s.pubDying v).rd Reg.ringNodeId = s.rd Reg.ringNodeId := by
    refine touched.regs _ ?_
    rintro ⟨part, listed, has⟩
    exact Part.has_away (Part.sigSent_away (decide_eq_true listed)) has rfl
  exact ⟨touched.ring (by decide), congrArg (bits · 0 16) node⟩

/-! SUPERVISION (R263, R264). -/

/-- A SUPERVISION frame that is outstanding has missed its period. -/
def State.supMissed (s : State) (port : Nat) : State :=
  if (s.ringSide port).sent then s.setSide port fun r => { r with missed := r.missed + 1, good := 0, sent := false } else s

/-- The next SUPERVISION frame of a side goes out. -/
def State.supSent (s : State) (port : Nat) : State :=
  (s.originateOn port 6 7 0xFFFF true (s.mgmtBody 2 port 0 0 0) 5).setSide port fun r =>
    { r with sent := true, sentSeq := Tab.get 0 s.net.seqs 6, sentAt := some s.tclks, backWest := false, backEast := false }

theorem exec_supervisionSend_due {s : State} {far : Bool} (active : (s.ringSide (sidePort far)).active = true)
    (ring : s.ringPort (sidePort far) = true) (due : s.sendDue (s.ringSide (sidePort far)).sentAt s.supPeriod = true) :
    exec (.supervisionSend far) s = .next
      (if (s.supMissed (sidePort far)).net.quiet.isSome then s.supMissed (sidePort far)
       else (s.supMissed (sidePort far)).supSent (sidePort far)) :=
  congrArg Host.Outcome.next (if_pos ⟨active, ring, due⟩)

theorem State.supMissed_spec (s : State) (port : Nat) :
    let u := s.supMissed port
    u.net = s.net ∧ u.regs = s.regs ∧ u.tclks = s.tclks ∧ (u.ringSide port).active = (s.ringSide port).active ∧
      (u.ringSide port).missed = (s.ringSide port).missed + (if (s.ringSide port).sent then 1 else 0) := by
  unfold State.supMissed
  split
  · refine ⟨rfl, rfl, rfl, ?_, ?_⟩
    all_goals rw [State.ringSide_setSide_same]
  · exact ⟨rfl, rfl, rfl, rfl, rfl⟩

theorem State.supSent_ringSide (s : State) (port : Nat) : (s.supSent port).ringSide port =
    { s.ringSide port with sent := true, sentSeq := Tab.get 0 s.net.seqs 6, sentAt := some s.tclks, backWest := false, backEast := false } := by
  have ring := (s.originateRing_kept port 0xFFFF true (fun _ => s.mgmtBody 2 port 0 0 0) 5).1
  rw [State.supSent, State.ringSide_setSide_same, State.originateOn, State.ringSide_of_ring ring]

/-- A due SUPERVISION frame of a ring whose ID is active. -/
theorem exec_supervisionSend_spec {s : State} {far : Bool} (active : (s.ringSide (sidePort far)).active = true)
    (ring : s.ringPort (sidePort far) = true) (due : s.sendDue (s.ringSide (sidePort far)).sentAt s.supPeriod = true) :
    ∃ t, exec (.supervisionSend far) s = .next t ∧
      (t.ringSide (sidePort far)).missed =
        (s.ringSide (sidePort far)).missed + (if (s.ringSide (sidePort far)).sent then 1 else 0) ∧
      (s.net.quiet = none → (t.ringSide (sidePort far)).sent = true ∧ (t.ringSide (sidePort far)).sentSeq = Tab.get 0 s.net.seqs 6 ∧
        (t.ringSide (sidePort far)).sentAt = some s.tclks ∧ (t.ringSide (sidePort far)).backWest = false ∧
        (t.ringSide (sidePort far)).backEast = false ∧ Tab.get 0 t.net.seqs 6 = (Tab.get 0 s.net.seqs 6 + 1) % 65536) := by
  have run := exec_supervisionSend_due active ring due
  obtain ⟨net, regs, tclks, active', missed⟩ := s.supMissed_spec (sidePort far)
  generalize s.supMissed (sidePort far) = u at run net regs tclks active' missed
  rw [net] at run
  cases quiet : s.net.quiet with
  | some since =>
    rw [quiet] at run
    exact ⟨u, run, missed, nofun⟩
  | none =>
    rw [quiet] at run
    replace run : exec (.supervisionSend far) s = .next (u.supSent (sidePort far)) := run
    have native : u.ringMode = 0 := by
      have mode : u.ringMode = s.ringMode := by unfold State.ringMode State.fld State.flag; rw [State.rd_congr regs]
      rw [mode]
      exact of_decide_eq_true (Bool.and_eq_true_iff.mp ring).1
    have may : u.mayOriginate (sidePort far) = true := by
      rw [State.mayOriginate, State.sideActive_sidePort, active', active, net, quiet, native]
      rfl
    refine ⟨_, run, ?_, fun _ => ?_⟩
    · exact (congrArg RingSide.missed (u.supSent_ringSide _)).trans missed
    · simp only [State.supSent_ringSide, net, tclks, true_and]
      rw [← net]
      exact State.originateRing_seq may 0xFFFF true (fun _ => u.mgmtBody 2 (sidePort far) 0 0 0) 5

/-! The supervision of HSR and PRP (R242, R274). -/

/-- Supervision of HSR or PRP sent now. -/
def State.lifeSent (s : State) (f : NetSt → NetSt) : State := (s.setRing fun r => { r with lifeAt := some s.tclks }).setNet f

section Life

variable {s : State} (unquiet : s.net.quiet = none) (due : s.sendDue s.ring.lifeAt (msTclks 2000) = true)
include unquiet due

theorem State.not_lifeWaits : ¬ (s.net.quiet.isSome = true ∨ (!s.sendDue s.ring.lifeAt (msTclks 2000)) = true) := by
  rw [unquiet, due]
  decide

theorem exec_hsrSupervisionSend_hsr (hsr : s.ringMode ≠ 0) : ∃ f g, exec .hsrSupervisionSend s =
    .next (((s.lifeSent fun n => { n with hsrSeq := n.hsrSeq + 1 }).takeFrame 0 f).takeFrame 1 g) := by
  have run : exec .hsrSupervisionSend s = .next _ :=
    congrArg Host.Outcome.next ((if_neg (State.not_lifeWaits unquiet due)).trans (if_pos hsr))
  exact ⟨_, _, run⟩

theorem exec_hsrSupervisionSend_prp (native : s.ringMode = 0) (prp : s.prpOn = true) : ∃ f g, exec .hsrSupervisionSend s =
    .next (((s.lifeSent fun n => { n with prpSeq := n.prpSeq + 1 }).takeFrame 2 f).takeFrame 3 g) := by
  have run : exec .hsrSupervisionSend s = .next _ :=
    congrArg Host.Outcome.next ((if_neg (State.not_lifeWaits unquiet due)).trans ((if_neg (not_not.mpr native)).trans (if_pos prp)))
  exact ⟨_, _, run⟩

end Life

theorem exec_hsrSupervisionSend_none {s : State}
    (idle : s.net.quiet ≠ none ∨ s.sendDue s.ring.lifeAt (msTclks 2000) = false ∨ (s.ringMode = 0 ∧ s.prpOn = false)) :
    exec .hsrSupervisionSend s = .next s := by
  show execHsrSupervisionSend s = _
  unfold execHsrSupervisionSend
  refine congrArg Host.Outcome.next ?_
  by_cases waits : s.net.quiet.isSome = true ∨ (!s.sendDue s.ring.lifeAt (msTclks 2000)) = true
  · exact if_pos waits
  · rw [not_or] at waits
    obtain ⟨native, none⟩ := (idle.resolve_left fun h => waits.1 (Option.isSome_iff_ne_none.mpr h)).resolve_left fun h => waits.2 (by rw [h]; rfl)
    rw [if_neg (not_or.mpr waits), if_neg (not_not.mpr native), if_neg (by rw [none]; decide)]

/-- Two frames taken at two ports leave the rings, and of the network but queues and what is noted of them. -/
theorem State.takeTwo_kept {α : Type} (s : State) (p q : Nat) (f g : QFrame) (part : NetSt → α) (reads : ∀ n, part n.unqueued = part n) :
    part ((s.takeFrame p f).takeFrame q g).net = part s.net ∧ ((s.takeFrame p f).takeFrame q g).ring = s.ring :=
  ⟨((s.takeFrame_admits p f).trans ((s.takeFrame p f).takeFrame_admits q g)).field part reads,
    ((s.takeFrame p f).takeFrame_ring q g).trans (s.takeFrame_ring p f)⟩

/-- Settles O42: a written ID is `idWrite_written`; one ring port's NEIGHBOUR is `exec_neighbourSend_one`; a SUPERVISION frame takes its
number in `originateRing_seq`. -/
theorem nodeIdsAreActivatedAndSupervisionIsSent : Obligations.NodeIdsAreActivatedAndSupervisionIsSent := by
  unfold Obligations.NodeIdsAreActivatedAndSupervisionIsSent
  refine ⟨fun s v => ⟨_, rfl, s.idWrite_written false v⟩, fun s v => ⟨_, rfl, s.idWrite_written true v⟩,
    fun s => ⟨fun pending waited => ?_, fun pending waited => ⟨_, exec_idActivate_far pending waited, rfl, rfl, rfl⟩⟩,
    fun s early => exec_neighbourSend_early early,
    fun s p port ring up others due => exec_neighbourSend_one port ring up others due, fun s far => ?_,
    fun s => ⟨fun unquiet due => ⟨fun hsr => ?_, fun native prp => ?_⟩, exec_hsrSupervisionSend_none⟩⟩
  · obtain ⟨ring, node⟩ := ((s.idActivated false).wr Reg.ringNodeId (w32 (s.idConfigured false))).pubDying_kept 0
    refine ⟨_, exec_idActivate_home pending waited, by rw [ring]; rfl, by rw [ring]; rfl, node.trans ?_⟩
    rw [State.nodeId, State.fld, State.rd_wr_same]
    exact bits_w32_low s.idConfigured_home_lt (by decide)
  · intro side active ring due
    simp only [side, ← State.ringSide_sidePort] at active due ⊢
    exact exec_supervisionSend_spec active ring due
  · obtain ⟨f, g, run⟩ := exec_hsrSupervisionSend_hsr unquiet due hsr
    obtain ⟨seq, ring⟩ := (s.lifeSent fun n => { n with hsrSeq := n.hsrSeq + 1 }).takeTwo_kept 0 1 f g NetSt.hsrSeq fun _ => rfl
    exact ⟨_, run, seq, congrArg RingSt.lifeAt ring⟩
  · obtain ⟨f, g, run⟩ := exec_hsrSupervisionSend_prp unquiet due native prp
    obtain ⟨seq, ring⟩ := (s.lifeSent fun n => { n with prpSeq := n.prpSeq + 1 }).takeTwo_kept 2 3 f g NetSt.prpSeq fun _ => rfl
    exact ⟨_, run, seq, congrArg RingSt.lifeAt ring⟩

end Sys2Proof.Machine
end

section
/-! What the RING block hears and misses (R261–R265, R276), and O43. -/

namespace Sys2Proof.Machine

/-! A ring that breaks (R264, R265). -/

theorem State.setSide_ports (s : State) (p : Nat) (f : RingSide → RingSide) :
    (s.setSide p f).ring.broken = s.ring.broken ∧ (s.setSide p f).ring.silent = s.ring.silent := by
  by_cases h : p < 2 <;> simp [State.setSide, State.setRing, h]

theorem State.ringBroken_of_closed {s : State} {p : Nat} (closed : (s.ringSide p).st = 1) : s.ringBroken p =
    (true, (s.setSide p fun r => { r with st := 2, good := 0, since := s.tclks }).bump Reg.ringCntBreak) :=
  if_pos closed

theorem State.ringBroken_kept (s : State) (p : Nat) :
    let t := (s.ringBroken p).2
    t.ring.broken = s.ring.broken ∧ t.ring.silent = s.ring.silent ∧ Reported (fun k => k = Reg.ringCntBreak) s t := by
  unfold State.ringBroken
  split
  · obtain ⟨broken, silent⟩ := s.setSide_ports p fun r => { r with st := 2, good := 0, since := s.tclks }
    exact ⟨broken, silent, ((Reported.refl s).setSide p _).bump (by decide) rfl⟩
  · exact ⟨rfl, rfl, .refl s⟩

/-- CLOSED gives way to BROKEN, and RING_BREAK is posted. -/
theorem State.ringBroken_posted {s : State} {p : Nat} (closed : (s.ringSide p).st = 1) (flags : Nat) (w4 w5 w6 w7 : Word) :
    let t := (s.ringBroken p).2.ringPost 0x42 0 flags w4 w5 w6 w7
    (t.ringSide p).st = 2 ∧ t.rd Reg.ringCntBreak = satInc (s.rd Reg.ringCntBreak) ∧ t.Raised 0x2E 0 := by
  rw [State.ringBroken_of_closed closed]
  refine ⟨?_, ?_, State.ringPost_raised _ _ _ _ _ _ _ (by decide)⟩
  · rw [State.ringSide_of_ring (State.ringPost_ring ..)]
    exact congrArg RingSide.st (s.ringSide_setSide_same p fun r => { r with st := 2, good := 0, since := s.tclks })
  · rw [(State.ringPost_reported (W := fun _ => False) ..).rd (by decide) (by decide) id]
    exact State.rd_bump_same _ _

/-- A ring port that breaks is noted; of the RING page IRQ_PEND and the count of breaks alone may change. -/
theorem State.portBroken_spec {s : State} {p : Nat} (ring : s.ringPort p = true) (cause : Nat) :
    let t := s.portBroken p cause
    setHas t.ring.broken p = true ∧ t.ring.silent = s.ring.silent ∧
      ∀ {k}, k / 0x1000 = 0x2E → k % 0x1000 ≠ 0x010 → k ≠ Reg.ringCntBreak → t.rd k = s.rd k := by
  unfold State.portBroken
  split
  · next known =>
    have broken : setHas s.ring.broken p = true := known.resolve_left (by rw [ring]; decide)
    exact ⟨broken, rfl, fun _ _ _ => rfl⟩
  · extract_lets noted last posted opened
    have hposted : posted.ring = noted.ring := State.ringPost_ring ..
    obtain ⟨broken, silent, reported⟩ := posted.ringBroken_kept p
    obtain ⟨sent, kept⟩ := opened.originateRing_kept (p / 2 * 2) 0xFFFF true
      (fun e => opened.mgmtBody 3 p e (at_ 4 cause + p) last) 5
    refine ⟨?_, ?_, fun {k} page irq other => ?_⟩
    · rw [sent, broken, hposted]
      exact setHas_setAdd _ _
    · rw [sent, silent, hposted]
      rfl
    · have told : Reported (fun _ => False) s posted := ((Reported.refl s).setRing _).trans (noted.ringPost_reported ..)
      rw [kept page irq, reported.rd irq (by omega) other, told.rd irq (by omega) id]

/-! An ID that another node holds too (R261, R267). -/

/-- A conflict of the ID of `port`'s side noted and counted. -/
def State.conflictNoted (s : State) (port other : Nat) : State :=
  (s.setRing fun r =>
    if port < 2 then { r with conflicts := other :: r.conflicts } else { r with farConflicts := other :: r.farConflicts }).bump
      Reg.ringCntConflict

theorem State.conflictNoted_ringSide (s : State) (port other : Nat) : (s.conflictNoted port other).ringSide port = s.ringSide port := by
  by_cases h : port < 2 <;> simp [State.conflictNoted, State.setRing, State.ringSide, State.bump, State.wr, h]

theorem State.conflictNoted_eui (s : State) (port other : Nat) : (s.conflictNoted port other).eui = s.eui :=
  congrArg₂ (fun hi lo : Word => hi.toNat * 2 ^ 32 + lo.toNat) (State.rd_bump_ne _ (by decide)) (State.rd_bump_ne _ (by decide))

/-- The ID of `port`'s side withdrawn. -/
def State.idWithdrawn (s : State) (port : Nat) : State :=
  ((s.setFld (idKey (decide (2 ≤ port))) 31 1 0).idDrop (decide (2 ≤ port))).setSide port fun r => { r with withdrawn := true }

/-- The conflict posted too, with whether this node leaves. -/
def State.conflictPosted (s : State) (port other : Nat) : State :=
  let u := s.conflictNoted port other
  u.ringPost 0x44 2 (b2n (decide (other < u.eui))) (w32 (u.sideId (port / 2 * 2))) (w32 (other / 2 ^ 32)) (w32 other) 0

/-- A new conflict is posted, and the node of the higher EUI-64 withdraws. -/
theorem State.idConflict_of_new {s : State} {port other : Nat}
    (fresh : other ∉ (if port < 2 then s.ring.conflicts else s.ring.farConflicts)) :
    s.idConflict port other =
      if other < s.eui then (s.conflictPosted port other).idWithdrawn port else s.conflictPosted port other := by
  have key : idKey (decide (2 ≤ port)) = if port < 2 then Reg.ringIdCfg else Reg.ringFarId := by
    by_cases h : port < 2
    · rw [if_pos h, decide_eq_false (Nat.not_le.mpr h)]
      rfl
    · rw [if_neg h, decide_eq_true (Nat.not_lt.mp h)]
      rfl
  rw [← s.conflictNoted_eui port other, State.idWithdrawn, key, State.idConflict, if_neg fresh]
  simp only [decide_eq_true_eq]
  rfl

theorem State.idWithdrawn_spec (s : State) (port : Nat) :
    let t := s.idWithdrawn port
    (t.ringSide port).withdrawn = true ∧ (t.ringSide port).active = false ∧ Reported (fun k => k ≠ Reg.ringCntConflict) s t := by
  have key : idKey (decide (2 ≤ port)) ≠ Reg.ringCntConflict ∧ idKey (decide (2 ≤ port)) % 0x1000 ≠ 0x010 := by
    cases decide (2 ≤ port) <;> decide
  have same : port < 2 ↔ sidePort (decide (2 ≤ port)) < 2 := by
    by_cases h : 2 ≤ port
    · rw [decide_eq_true h]
      exact ⟨fun home => absurd h (Nat.not_le.mpr home), fun far => absurd far (by decide)⟩
    · rw [decide_eq_false h]
      exact ⟨fun _ => by decide, fun _ => Nat.not_le.mp h⟩
  obtain ⟨_, active, _, reported, _⟩ := (s.setFld (idKey (decide (2 ≤ port))) 31 1 0).idDrop_spec (decide (2 ≤ port))
  have side := ((s.setFld (idKey (decide (2 ≤ port))) 31 1 0).idDrop (decide (2 ≤ port))).ringSide_setSide_same port
    fun r => { r with withdrawn := true }
  refine ⟨congrArg RingSide.withdrawn side,
    (congrArg RingSide.active side).trans ((congrArg RingSide.active (State.ringSide_congr _ same)).trans active), ?_⟩
  have cleared : Reported (fun k => k ≠ Reg.ringCntConflict) s (s.setFld (idKey (decide (2 ≤ port))) 31 1 0) :=
    (Reported.refl s).wr _ key.2 (.inr key.1)
  exact (cleared.trans (reported.mono fun k e => by rw [e]; decide)).setSide port _

/-- A conflict not reported before is counted and leaves bit 2 of the page; the node with the higher EUI-64 withdraws. -/
theorem State.idConflict_spec {s : State} {port other : Nat}
    (fresh : other ∉ (if port < 2 then s.ring.conflicts else s.ring.farConflicts)) :
    let t := s.idConflict port other
    t.rd Reg.ringCntConflict = satInc (s.rd Reg.ringCntConflict) ∧ t.Raised 0x2E 2 ∧
      (other < s.eui → (t.ringSide port).withdrawn = true ∧ (t.ringSide port).active = false) ∧
      (s.eui < other → t.ringSide port = s.ringSide port) := by
  have raised : (s.conflictPosted port other).Raised 0x2E 2 := State.ringPost_raised _ _ _ _ _ _ _ (by decide)
  have ring : (s.conflictPosted port other).ring = (s.conflictNoted port other).ring := State.ringPost_ring ..
  have counted : (s.conflictPosted port other).rd Reg.ringCntConflict = satInc (s.rd Reg.ringCntConflict) :=
    (((s.conflictNoted port other).ringPost_reported (W := fun _ => False) ..).rd (by decide) (by decide) id).trans
      (State.rd_bump_same _ _)
  rw [State.idConflict_of_new fresh]
  generalize s.conflictPosted port other = posted at raised ring counted
  by_cases leaves : other < s.eui
  · rw [if_pos leaves]
    obtain ⟨withdrawn, active, reported⟩ := posted.idWithdrawn_spec port
    exact ⟨(reported.rd (by decide) (by decide) (not_not.mpr rfl)).trans counted, reported.raised raised, fun _ => ⟨withdrawn, active⟩,
      fun higher => absurd leaves (Nat.lt_asymm higher)⟩
  · rw [if_neg leaves]
    exact ⟨counted, raised, fun h => absurd h leaves,
      fun _ => (State.ringSide_of_ring ring port).trans (s.conflictNoted_ringSide port other)⟩

/-! An own SUPERVISION frame back (R264). -/

/-- A ring that closes changes its state alone. -/
theorem State.tryClose_ringSide (s : State) (port : Nat) : ∃ st, (s.tryClose port).ringSide port = { s.ringSide port with st := st } := by
  unfold State.tryClose
  extract_lets r base need
  split
  · refine ⟨1, ?_⟩
    rw [State.ringSide_of_ring (State.ringPost_ring ..), State.ringSide_setSide_same]
  · exact ⟨_, rfl⟩

/-- A side with the copy of its frame back that arrives on `port`. -/
def RingSide.copyBack (r : RingSide) (port : Nat) : RingSide :=
  if port % 2 = 1 then { r with backEast := true } else { r with backWest := true }

theorem RingSide.copyBack_both (r : RingSide) (port : Nat) :
    ((r.copyBack port).backEast = true ∧ (r.copyBack port).backWest = true) ↔
      (if port % 2 = 1 then r.backWest else r.backEast) = true := by
  unfold RingSide.copyBack
  split <;> simp

/-- Of a copy that is back, the frame stays outstanding and the frames counted as good the same. -/
theorem RingSide.copyBack_kept (r : RingSide) (port : Nat) :
    (r.copyBack port).sent = r.sent ∧ (r.copyBack port).good = r.good := by
  unfold RingSide.copyBack
  split <;> exact ⟨rfl, rfl⟩

theorem State.supReturn_eq {s : State} {port seq : Nat} (sent : (s.ringSide port).sent = true) (number : (s.ringSide port).sentSeq = seq) :
    s.supReturn port seq =
      let u := s.setSide port fun r => r.copyBack port
      if (u.ringSide port).backEast ∧ (u.ringSide port).backWest then
        (u.setSide port fun r => { r with sent := false, good := r.good + 1, missed := 0 }).tryClose port
      else u :=
  if_pos ⟨sent, number⟩

/-- A copy of the outstanding frame is back: with the other copy the frame is good. -/
theorem State.supReturn_spec {s : State} {port seq : Nat} (sent : (s.ringSide port).sent = true)
    (number : (s.ringSide port).sentSeq = seq) :
    let r := s.ringSide port
    let t := s.supReturn port seq
    ((if port % 2 = 1 then r.backWest else r.backEast) = true →
      (t.ringSide port).sent = false ∧ (t.ringSide port).good = r.good + 1 ∧ (t.ringSide port).missed = 0) ∧
    ((if port % 2 = 1 then r.backWest else r.backEast) = false → (t.ringSide port).sent = true ∧ (t.ringSide port).good = r.good) := by
  obtain ⟨still, good⟩ := (s.ringSide port).copyBack_kept port
  rw [State.supReturn_eq sent number]
  simp only [State.ringSide_setSide_same, RingSide.copyBack_both]
  refine ⟨fun both => ?_, fun one => ?_⟩
  · rw [if_pos both]
    obtain ⟨st, closes⟩ := ((s.setSide port fun r => r.copyBack port).setSide port
      fun r => { r with sent := false, good := r.good + 1, missed := 0 }).tryClose_ringSide port
    rw [closes, State.ringSide_setSide_same, State.ringSide_setSide_same]
    exact ⟨rfl, congrArg (· + 1) good, rfl⟩
  · rw [if_neg (by rw [one]; decide), State.ringSide_setSide_same]
    exact ⟨still.trans sent, good⟩

/-! Frames of other nodes (R263–R265). -/

theorem State.neighbourHeard_rd (s : State) (port src : Nat) :
    (s.neighbourHeard port src).rd (Reg.ringNeighbour (port % 4)) = w32 (2 ^ 31 + src) := by
  have page : Reg.ringNeighbour (port % 4) % 0x1000 ≠ 0x010 ∧ Reg.ringNeighbour (port % 4) / 0x1000 ≠ 0x24 := by
    unfold Reg.ringNeighbour pageKey
    omega
  unfold State.neighbourHeard
  extract_lets heard hushed
  have reported : Reported (fun _ => False) heard hushed := .ite (fun _ => ((Reported.refl heard).setRing _).qualClear _ _ _ _) fun _ => .refl heard
  rw [(hushed.portHeals_reported (W := fun _ => False) port).rd page.1 page.2 id, reported.rd page.1 page.2 id]
  exact s.rd_wr_same _ _

theorem State.noticeHeard_spec {s : State} {port : Nat} (closed : (s.ringSide port).st = 1) (src : Nat) (p : List Byte) :
    let t := s.noticeHeard port src p
    (t.ringSide port).st = 2 ∧ t.rd Reg.ringCntBreak = satInc (s.rd Reg.ringCntBreak) ∧ t.Raised 0x2E 0 := by
  have posted := State.ringBroken_posted closed
  unfold State.noticeHeard
  rw [State.ringBroken_of_closed closed] at posted ⊢
  exact posted _ _ _ _ _

/-! Ring management frames (R261–R265). -/

/-- A frame with this node's ID (R261). -/
abbrev State.ownHeard (s : State) (d : Delivered) : Bool :=
  s.sideActive (d.port / 2 * 2) && decide (hdrSource d.bytes = s.sideId (d.port / 2 * 2)) && (byteAt (payload d.bytes) 1).testBit 5

/-- A SUPERVISION frame of another node with an ID makes it a station of the home ring (R263). -/
def State.stationHeard (s : State) (d : Delivered) : State :=
  if (byteAt (payload d.bytes) 1).testBit 5 ∧ d.port < 2 then
    s.setRing fun r => { r with
      stations := setAdd r.stations (hdrSource d.bytes % 256), stationAt := Tab.set 0 r.stationAt (hdrSource d.bytes % 256) s.tclks }
  else s

/-- What a frame of another node does. -/
def State.otherHeard (s : State) (d : Delivered) : State :=
  match byteAt (payload d.bytes) 0 with
  | 1 => s.neighbourHeard d.port (hdrSource d.bytes)
  | 2 => s.stationHeard d
  | _ => s.noticeHeard d.port (hdrSource d.bytes) (payload d.bytes)

/-- What a frame with this node's ID does. -/
def State.ownTaken (s : State) (d : Delivered) : State :=
  if beAt (payload d.bytes) 2 8 ≠ s.eui then s.idConflict d.port (beAt (payload d.bytes) 2 8)
  else if byteAt (payload d.bytes) 0 = 2 then s.supReturn d.port (hdrSeq d.bytes)
  else s

/-- What a ring management frame that was delivered does. -/
def State.ringTaken (s : State) (d : Delivered) : State :=
  if !mgmtOk d.bytes then
    s.ringFail 0x0501 (hdrSource d.bytes) (w32 (byteAt (payload d.bytes) 0)) Reg.ringCntMgmtBad
  else if s.ownHeard d then s.ownTaken d
  else s.otherHeard d

theorem exec_ringMgmtReceive {s : State} {d : Delivered} {rest : List Delivered} (first : s.net.toRing = d :: rest) :
    exec .ringMgmtReceive s = .next ((s.setNet fun n => { n with toRing := rest }).ringTaken d) := by
  show execRingMgmtReceive s = _
  unfold execRingMgmtReceive State.ringTaken State.ownHeard
  simp only [first, Bool.and_eq_true, decide_eq_true_eq, and_assoc]
  rfl

/-- What a ring management frame changes. -/
def Part.ringHeard : List Part := Part.reports ++ [.ring, .checks, .pwr, .regRing]

theorem State.ringTaken_touches (s : State) (d : Delivered) : Frame (fun p => p ∈ Part.ringHeard) s (s.ringTaken d) := by
  have same := Frame.refl (fun p => p ∈ Part.ringHeard) s
  refine .ite (fun _ => ?_) fun _ => .ite (fun _ => .ite (fun _ => ?_) fun _ => .ite (fun _ => ?_) fun _ => same) fun _ => ?_
  · exact State.qualFail_frame (State.raise_frame same _ _ (.of_coveredBy rfl)) _ _ _ _ _ (Reg.ringCntMgmtBad_in (by decide))
      (.of_coveredBy rfl)
  · exact State.idConflict_frame same _ _ (.of_coveredBy rfl)
  · exact State.supReturn_frame same _ _ (.of_coveredBy rfl)
  · unfold State.otherHeard State.stationHeard
    split
    · exact State.neighbourHeard_frame same _ _ (.of_coveredBy rfl)
    · exact .ite (fun _ => State.setRing_frame same _ (.of_coveredBy rfl)) fun _ => same
    · exact State.noticeHeard_frame same _ _ _ (.of_coveredBy rfl)

theorem State.otherHeard_neighbour (s : State) {d : Delivered} (kind : byteAt (payload d.bytes) 0 = 1) :
    s.otherHeard d = s.neighbourHeard d.port (hdrSource d.bytes) := by
  simp only [State.otherHeard, kind]

theorem State.otherHeard_supervision (s : State) {d : Delivered} (kind : byteAt (payload d.bytes) 0 = 2) :
    s.otherHeard d = s.stationHeard d := by
  simp only [State.otherHeard, kind]

theorem State.otherHeard_notice (s : State) {d : Delivered} (kind : byteAt (payload d.bytes) 0 = 3) :
    s.otherHeard d = s.noticeHeard d.port (hdrSource d.bytes) (payload d.bytes) := by
  simp only [State.otherHeard, kind]

section Taken

variable {s : State} {d : Delivered}

theorem State.ringTaken_bad (bad : mgmtOk d.bytes = false) :
    s.ringTaken d = s.ringFail 0x0501 (hdrSource d.bytes) (w32 (byteAt (payload d.bytes) 0)) Reg.ringCntMgmtBad :=
  if_pos (by rw [bad]; rfl)

variable (ok : mgmtOk d.bytes = true)
include ok

theorem State.ringTaken_own (own : s.ownHeard d = true) : s.ringTaken d = s.ownTaken d :=
  (if_neg (by rw [ok]; decide)).trans (if_pos own)

theorem State.ringTaken_other (other : s.ownHeard d = false) : s.ringTaken d = s.otherHeard d :=
  (if_neg (by rw [ok]; decide)).trans (if_neg (by rw [other]; decide))

end Taken

/-! Silence (R263–R265). -/

/-- The neighbour of a port not heard for 3 ms: noted, and shown in the port's NEIGHBOUR register. -/
def State.silenceShown (s : State) (p : Nat) : State :=
  (s.setRing fun r => { r with silent := setAdd r.silent p }).setFld (Reg.ringNeighbour (p % 4)) 31 1 0

/-- The failed check of its silence. -/
def State.silenceNoted (s : State) (p : Nat) : State :=
  (s.silenceShown p).ringFail 0x0502 p (w32 (s.fld (Reg.ringNeighbour p) 0 16)) Reg.ringCntSilent

theorem exec_neighbourSilent_due {s : State} {p : Fin 4} (ring : s.ringPort p = true) (heard : setHas s.ring.silent p = false)
    (hub : s.hubUp = true) (waited : s.passed (s.heardAt p) (msTclks 3) = true) :
    exec (.neighbourSilent p) s =
      .next (if (s.silenceNoted p).portUp p then (s.silenceNoted p).portBroken p 9 else s.silenceNoted p) :=
  congrArg Host.Outcome.next (if_pos ⟨ring, by rw [heard]; rfl, hub, waited⟩)

/-- Silence is noted of the port, shown in its NEIGHBOUR register and counted. -/
theorem State.silenceNoted_spec (s : State) (p : Fin 4) :
    let t := s.silenceNoted p
    setHas t.ring.silent p = true ∧ t.ring.broken = s.ring.broken ∧ t.flag (Reg.ringNeighbour p) 31 = false ∧
      t.rd Reg.ringCntSilent = satInc (s.rd Reg.ringCntSilent) ∧ t.portUp p = s.portUp p ∧ t.ringPort p = s.ringPort p := by
  have index : p.val % 4 = p.val := Nat.mod_eq_of_lt p.isLt
  have place : Reg.ringNeighbour p % 0x1000 ≠ 0x010 ∧ Reg.ringNeighbour p / 0x1000 ≠ 0x24 ∧ Reg.ringNeighbour p ≠ Reg.ringCntSilent ∧
      Reg.ringNeighbour p ≠ Reg.ringCfg := by
    unfold Reg.ringNeighbour Reg.ringCntSilent Reg.ringCfg pageKey
    omega
  have shown {k : Nat} (other : k ≠ Reg.ringNeighbour p) : (s.silenceShown p).rd k = s.rd k := by
    rw [State.silenceShown, index, State.rd_setFld_ne _ _ _ _ other]
    rfl
  obtain ⟨reported, counted, _, ring, net⟩ := (s.silenceShown p).ringFail_spec 0x0502 p (w32 (s.fld (Reg.ringNeighbour p) 0 16))
    (counter := Reg.ringCntSilent) (by decide) (by decide)
  unfold State.silenceNoted
  refine ⟨?_, ?_, ?_, counted.trans (congrArg satInc (shown place.2.2.1.symm)), ?_, ?_⟩
  · rw [ring]
    exact setHas_setAdd _ _
  · rw [ring]
    rfl
  · rw [State.flag, reported.rd place.1 place.2.1 place.2.2.1, State.silenceShown, index, State.rd_setFld_same,
      bit_setBits_same _ _ _ (by decide)]
    rfl
  · rw [State.portUp, State.link, net]
    rfl
  · exact State.ringPort_congr ((reported.rd (by decide) (by decide) (by decide)).trans (shown place.2.2.2.symm)) p

/-- A neighbour not heard for 3 ms breaks a port that is UP, and no other. -/
theorem exec_neighbourSilent_spec {s : State} {p : Fin 4} (ring : s.ringPort p = true) (heard : setHas s.ring.silent p = false)
    (hub : s.hubUp = true) (waited : s.passed (s.heardAt p) (msTclks 3) = true) :
    ∃ t, exec (.neighbourSilent p) s = .next t ∧ setHas t.ring.silent p = true ∧ t.flag (Reg.ringNeighbour p) 31 = false ∧
      t.rd Reg.ringCntSilent = satInc (s.rd Reg.ringCntSilent) ∧
      (if s.portUp p then setHas t.ring.broken p = true else t.ring.broken = s.ring.broken) := by
  have run := exec_neighbourSilent_due ring heard hub waited
  obtain ⟨silent, broken, shown, counted, up, ring'⟩ := s.silenceNoted_spec p
  rw [up] at run
  refine ⟨_, run, ?_⟩
  split
  · obtain ⟨breaks, silent', kept⟩ := State.portBroken_spec (ring'.trans ring) 9
    have neighbour := kept (k := Reg.ringNeighbour p) (by unfold Reg.ringNeighbour pageKey; omega)
      (by unfold Reg.ringNeighbour pageKey; omega) (by unfold Reg.ringNeighbour Reg.ringCntBreak pageKey; omega)
    exact ⟨by rw [silent']; exact silent, by rw [State.flag, neighbour]; exact shown,
      (kept (by decide) (by decide) (by decide)).trans counted, breaks⟩
  · exact ⟨silent, shown, counted, broken⟩

theorem exec_stationTimeout_due {s : State} {n : BitVec 8}
    (silent : s.passed (Tab.get 0 s.ring.stationAt n.toNat) (3 * s.supPeriod) = true) :
    exec (.stationTimeout n) s = .next (s.setRing fun r => { r with stations := setDel r.stations n.toNat }) :=
  congrArg Host.Outcome.next (if_pos silent)

theorem exec_supervisionMissed_twice {s : State} {far : Bool} (closed : (s.ringSide (sidePort far)).st = 1)
    (missed : 2 ≤ (s.ringSide (sidePort far)).missed +
      b2n ((s.ringSide (sidePort far)).sent && s.sendDue (s.ringSide (sidePort far)).sentAt s.supPeriod)) :
    ∃ flags w4 w5 w6 w7, exec (.supervisionMissed far) s = .next ((s.ringBroken (sidePort far)).2.ringPost 0x42 0 flags w4 w5 w6 w7) :=
  ⟨_, _, _, _, _, congrArg Host.Outcome.next (if_pos ⟨missed, closed⟩)⟩

/-- Settles O43: a frame delivered is `ringTaken`, one law for each of its cases; a break found by a notice, by missed frames or by silence is
`ringBroken_posted` or `portBroken_spec`. -/
theorem theRingHearsItsNeighboursAndBreaks : Obligations.TheRingHearsItsNeighboursAndBreaks := by
  unfold Obligations.TheRingHearsItsNeighboursAndBreaks
  refine ⟨fun s d rest first => ?_, fun s p ring heard hub waited => exec_neighbourSilent_spec ring heard hub waited,
    fun s n silent => ⟨_, exec_stationTimeout_due silent, setHas_setDel _ _, rfl, rfl⟩, fun s far => ?_⟩
  · intro p src own r
    let u := s.setNet fun n => { n with toRing := rest }
    refine ⟨u.ringTaken d, exec_ringMgmtReceive first, ?_, fun bad => ?_, fun ok mine other fresh => ?_,
      fun ok mine same kind sent number => ?_, fun ok foreign kind => ?_, fun ok foreign kind named home => ?_, fun ok foreign kind closed => ?_⟩
    · rw [(u.ringTaken_touches d).net (by decide)]
      rfl
    · obtain ⟨_, counted, raised, ring, _⟩ := u.ringFail_spec 0x0501 (hdrSource d.bytes) (w32 (byteAt (payload d.bytes) 0))
        (counter := Reg.ringCntMgmtBad) (by decide) (by decide)
      rw [State.ringTaken_bad bad]
      exact ⟨counted, raised, ring⟩
    · have taken : u.ownTaken d = u.idConflict d.port (beAt p 2 8) := if_pos other
      rw [State.ringTaken_own ok (s := u) mine, taken]
      exact State.idConflict_spec (s := u) fresh
    · have taken : u.ownTaken d = u.supReturn d.port (hdrSeq d.bytes) := (if_neg (not_not.mpr same)).trans (if_pos kind)
      rw [State.ringTaken_own ok (s := u) mine, taken]
      exact State.supReturn_spec (s := u) sent number
    · rw [State.ringTaken_other ok (s := u) foreign, u.otherHeard_neighbour kind]
      exact u.neighbourHeard_rd d.port src
    · have station : (u.stationHeard d).ring.stations = setAdd u.ring.stations (src % 256) :=
        congrArg (fun t : State => t.ring.stations) (if_pos ⟨named, home⟩)
      rw [State.ringTaken_other ok (s := u) foreign, u.otherHeard_supervision kind, station]
      exact setHas_setAdd _ _
    · rw [State.ringTaken_other ok (s := u) foreign, u.otherHeard_notice kind]
      exact State.noticeHeard_spec (s := u) closed src p
  · intro side closed missed
    simp only [side, ← State.ringSide_sidePort] at closed missed ⊢
    obtain ⟨flags, w4, w5, w6, w7, run⟩ := exec_supervisionMissed_twice closed missed
    exact ⟨_, run, State.ringBroken_posted closed flags w4 w5 w6 w7⟩

end Sys2Proof.Machine
end
